-- ==== Sys2Proof/Word.lean ====
section
/-! DEFINITION. The word and byte types and the sparse table type every memory of the model uses. -/

namespace Sys2Proof

/-- A 32-bit word: the width of every register, queue word and crossing word (R3, R16). -/
abbrev Word := BitVec 32

/-- One byte of a byte-addressed memory. -/
abbrev Byte := BitVec 8

/-- A table of values by a natural-number key: addresses strictly rising, and no entry equal to what an
unlisted key reads as (`Machine.Sparse.wf` says so). -/
abbrev Sparse (α : Type) := List (Nat × α)

end Sys2Proof
end

