-- ==== Sys2Proof/Syntax.lean ====
section
/-! DEFINITION. The commands the block takes, one constructor per row of the table of operations and events. -/

namespace Sys2Proof

/-- The three masters of the register space (R6). -/
inductive Master where
  | engine | fabric | host
  deriving DecidableEq, Repr

/-- The issue of one engine operation: its core cycle within the minor cycle (for a last-train path, since the switch), its
track, and the predicate that gates it (Table 2-2). -/
structure Issue where
  cycle : Nat
  track : Fin 4
  psel : Fin 16
  pinv : Bool
  deriving DecidableEq, Repr

/-- What a point is bound to (R168, R195, R220, R229): a channel or counter unit of a DI group, the input or the readback of a channel of
an analogue group, a quantity of a metering circuit, a value received from a bus or the fabric, or another source, which gives the
quality with the value. -/
inductive PtSource where
  | diChan (g : Fin 4) (c : Fin 16)
  | diUnit (g : Fin 4) (k : Fin 8)
  | aoIn (a c : Fin 4)
  | aoRb (a c : Fin 4)
  | circuit (c : Fin 8)
  | bus
  | given (q : BitVec 2)
  deriving DecidableEq, Repr

/-- The commands: one constructor per row of the spec's table of operations and events. -/
inductive Instr where
  /-- POWER_ON_START (R100). -/
  | powerOnStart
  /-- RETURN_START (R105). -/
  | returnStart
  /-- WARM_START (R103). -/
  | warmStart
  /-- SYS_RESET_WRITE (R103). -/
  | sysResetWrite (m : Master) (w : Word)
  /-- SUPPLY_VALID (R101). -/
  | supplyValid
  /-- ROM_PHASE (R106). -/
  | romPhase (strap : Bool)
  /-- IMAGE_CHECKS (R98). -/
  | imageChecks
  /-- CONFIG_APPLICATION (R118). -/
  | configApplication
  /-- MIGRATE (R121). -/
  | migrate (ok : Bool)
  /-- DISCOVERY_END (R109). -/
  | discoveryEnd
  /-- ENGINE_RELEASE (R109). -/
  | engineRelease
  /-- STAGGER_END (R110). -/
  | staggerEnd
  /-- FIELD_ISLAND_POWER_UP (R149). -/
  | fieldIslandPowerUp
  /-- OUT_PERMIT (R110). -/
  | outPermit
  /-- START_ABANDON (R104). -/
  | startAbandon
  /-- ROM_MIRROR_REFRESH (R106). -/
  | romMirrorRefresh
  /-- SIDING_MODE_ENTRY (R405). -/
  | sidingModeEntry
  /-- SIDING_STRAP_POLL (R406). -/
  | sidingStrapPoll (strap : Bool)
  /-- SIDING_REFRESH (R405). -/
  | sidingRefresh
  /-- PROG_HOLD (R450). -/
  | progHold
  /-- PROG_RELEASE (R450). -/
  | progRelease
  /-- MINOR_CYCLE_BOUNDARY (R88). -/
  | minorCycleBoundary
  /-- PATH_START (R58). -/
  | pathStart (path : Fin 4096)
  /-- LOOP_ITERATION_END (R49). -/
  | loopIterationEnd
  /-- NOP (R38). -/
  | nop (i : Issue)
  /-- ADD (R43). -/
  | add (i : Issue) (d a b : Fin 64)
  /-- SUB (R43). -/
  | sub (i : Issue) (d a b : Fin 64)
  /-- AND (R43). -/
  | andW (i : Issue) (d a b : Fin 64)
  /-- OR (R43). -/
  | orW (i : Issue) (d a b : Fin 64)
  /-- XOR (R43). -/
  | xorW (i : Issue) (d a b : Fin 64)
  /-- SHL (R43). -/
  | shl (i : Issue) (d a b : Fin 64)
  /-- SHR (R43). -/
  | shr (i : Issue) (d a b : Fin 64)
  /-- SAR (R43). -/
  | sar (i : Issue) (d a b : Fin 64)
  /-- ADDI (R43). -/
  | addi (i : Issue) (d a : Fin 64) (imm : BitVec 7)
  /-- SHLI (R43). -/
  | shli (i : Issue) (d a : Fin 64) (imm : BitVec 7)
  /-- SHRI (R43). -/
  | shri (i : Issue) (d a : Fin 64) (imm : BitVec 7)
  /-- SARI (R43). -/
  | sari (i : Issue) (d a : Fin 64) (imm : BitVec 7)
  /-- LI (R43). -/
  | li (i : Issue) (d : Fin 64) (imm : BitVec 13)
  /-- LIS (R43). -/
  | lis (i : Issue) (d : Fin 64) (imm : BitVec 13)
  /-- SEL (R47). -/
  | sel (i : Issue) (d a b : Fin 64)
  /-- MIN (R43). -/
  | minS (i : Issue) (d a b : Fin 64)
  /-- MAX (R43). -/
  | maxS (i : Issue) (d a b : Fin 64)
  /-- ADDS (R43). -/
  | adds (i : Issue) (d a b : Fin 64)
  /-- SUBS (R43). -/
  | subs (i : Issue) (d a b : Fin 64)
  /-- MUL (R43). -/
  | mul (i : Issue) (d a b : Fin 64)
  /-- MULH (R43). -/
  | mulh (i : Issue) (d a b : Fin 64)
  /-- MULHU (R43). -/
  | mulhu (i : Issue) (d a b : Fin 64)
  /-- CMP (R43). -/
  | cmp (i : Issue) (pd : Fin 16) (a b : Fin 64) (cond : BitVec 3)
  /-- ADD64 (R43). -/
  | add64 (i : Issue) (d a b : Fin 64)
  /-- SUB64 (R43). -/
  | sub64 (i : Issue) (d a b : Fin 64)
  /-- LOOP (R49). -/
  | loopOpen (i : Issue) (trip : BitVec 16)
  /-- FADD (R45). -/
  | fadd (i : Issue) (d a b : Fin 64)
  /-- FSUB (R45). -/
  | fsub (i : Issue) (d a b : Fin 64)
  /-- FMUL (R45). -/
  | fmul (i : Issue) (d a b : Fin 64)
  /-- FMA (R45). -/
  | fma (i : Issue) (d a b : Fin 64)
  /-- FMS (R45). -/
  | fms (i : Issue) (d a b : Fin 64)
  /-- FMIN (R45). -/
  | fmin (i : Issue) (d a b : Fin 64)
  /-- FMAX (R45). -/
  | fmax (i : Issue) (d a b : Fin 64)
  /-- FABS (R43). -/
  | fabs (i : Issue) (d a : Fin 64)
  /-- FNEG (R43). -/
  | fneg (i : Issue) (d a : Fin 64)
  /-- FCVTI (R43). -/
  | fcvti (i : Issue) (d a : Fin 64)
  /-- FCVTF (R45). -/
  | fcvtf (i : Issue) (d a : Fin 64)
  /-- FCMP (R45). -/
  | fcmp (i : Issue) (pd : Fin 16) (a b : Fin 64) (cond : BitVec 3)
  /-- FDIV (R46). -/
  | fdiv (i : Issue) (d a b : Fin 64)
  /-- FSQRT (R46). -/
  | fsqrt (i : Issue) (d a : Fin 64)
  /-- FSEL (R47). -/
  | fsel (i : Issue) (d a b : Fin 64)
  /-- LD (R43). -/
  | ld (i : Issue) (d a : Fin 64) (imm : BitVec 7)
  /-- ST (R43). -/
  | st (i : Issue) (d a : Fin 64) (imm : BitVec 7)
  /-- LDX (R43). -/
  | ldx (i : Issue) (d a b : Fin 64)
  /-- STX (R43). -/
  | stx (i : Issue) (d a b : Fin 64)
  /-- MOV (R43). -/
  | mov (i : Issue) (d a : Fin 64)
  /-- LLD (R69). -/
  | lld (i : Issue) (d a : Fin 64) (imm : BitVec 7)
  /-- LST (R43). -/
  | lst (i : Issue) (d a : Fin 64) (imm : BitVec 7)
  /-- XRD (R64). -/
  | xrd (i : Issue) (d : Fin 64) (port : BitVec 11) (fp : BitVec 2)
  /-- XWR (R17). -/
  | xwr (i : Issue) (d : Fin 64) (port : BitVec 11)
  /-- QPOP (R63). -/
  | qpop (i : Issue) (d qa : Fin 64)
  /-- QPUSH (R63). -/
  | qpush (i : Issue) (d qa : Fin 64)
  /-- QLEV (R43). -/
  | qlev (i : Issue) (d qa : Fin 64)
  /-- QMOV (R63). -/
  | qmov (i : Issue) (qa qb : Fin 64)
  /-- XQ (R64). -/
  | xq (i : Issue) (q : Fin 64) (port : BitVec 11)
  /-- QX (R63). -/
  | qx (i : Issue) (q : Fin 64) (port : BitVec 11)
  /-- RLD (R44). -/
  | rld (i : Issue) (d a : Fin 64) (imm : BitVec 7)
  /-- RST (R44). -/
  | rst (i : Issue) (d a : Fin 64) (imm : BitVec 7)
  /-- SET_ALIAS_WRITE (R458). -/
  | setAliasWrite (addr : BitVec 20) (w : Word)
  /-- MST (R53). -/
  | mst (i : Issue) (d a : Fin 64) (imm : BitVec 7)
  /-- MSW (R53). -/
  | msw (i : Issue) (a : Fin 64) (consist : BitVec 16)
  /-- SRD (R50). -/
  | srd (i : Issue) (d : Fin 64) (selr : BitVec 7)
  /-- SCRB (R71). -/
  | scrb (i : Issue) (a : Fin 64) (imm : BitVec 7)
  /-- SCRUB_LATE (R72). -/
  | scrubLate (mem : Fin 4) (seconds : BitVec 32)
  /-- ARM (R62). -/
  | arm (i : Issue) (a : Fin 64)
  /-- DARM (R62). -/
  | darm (i : Issue) (a : Fin 64)
  /-- CROSSING_WORD_ARRIVAL (R16). -/
  | crossingWordArrival (port : BitVec 11) (w : Word)
  /-- ISLAND_QUEUE_PUSH (R25). -/
  | islandQueuePush (q : Fin 64) (island : Fin 25) (unit : BitVec 8) (ws : List Word)
  /-- ISLAND_QUEUE_POP (R25). -/
  | islandQueuePop (q : Fin 64) (island : Fin 25) (unit : BitVec 8) (push : Option Word)
  /-- HOST_READ_LOW_HALF (R8). -/
  | hostReadLowHalf (addr : BitVec 20) (gapNs : Nat)
  /-- HOST_READ_HIGH_HALF (R8). -/
  | hostReadHighHalf (addr : BitVec 20) (gapNs : Nat)
  /-- HOST_READ_WORD0 (R10). -/
  | hostReadWord0 (addr : BitVec 20) (gapNs : Nat)
  /-- HOST_DATA_PORT_READ (R434). -/
  | hostDataPortRead (q : Fin 64) (gapNs : Nat) (push : Option Word)
  /-- HEAD_CELL_REFILL (R434). -/
  | headCellRefill (q : Fin 64)
  /-- HOST_WRITE_LOW_HALF (R11). -/
  | hostWriteLowHalf (addr : BitVec 20) (half : BitVec 16) (lenNs gapNs : Nat) (haMoved : Bool)
  /-- HOST_WRITE_HIGH_HALF (R430). -/
  | hostWriteHighHalf (addr : BitVec 20) (half : BitVec 16) (lenNs gapNs : Nat) (haMoved : Bool)
  /-- HOST_PUSH (R436). -/
  | hostPush (q : Fin 64) (w : Word)
  /-- REGISTER_WRITE (R6). -/
  | registerWrite (addr : BitVec 20) (e f h : Option Word)
  /-- SHADOW_WRITE (R4). -/
  | shadowWrite (m : Master) (addr : BitVec 20) (w : Word)
  /-- W1C_CLEAR (R458). -/
  | w1cClear (m : Master) (addr : BitVec 20) (w hw : Word)
  /-- SYS_COMMIT (R124). -/
  | sysCommit (m : Master) (w : Word)
  /-- TTE_ECC_CLR (R75). -/
  | tteEccClr (w : Word)
  /-- CLR_SEL (R75). -/
  | clrSel
  /-- CLR_ALL (R75). -/
  | clrAll
  /-- QUE_CLR_CNT (R440). -/
  | queClrCnt (q : Fin 64)
  /-- QUE_CLR_PEAK (R440). -/
  | queClrPeak (q : Fin 64)
  /-- QUE_CLR_DED (R440). -/
  | queClrDed (q : Fin 64)
  /-- LOG_ADVANCE (R414). -/
  | logAdvance (m : Master) (w : Word)
  /-- HPV_POLL (R423). -/
  | hpvPoll
  /-- MTR_CALHOLD_WRITE (R181). -/
  | mtrCalholdWrite (m : Master) (w : Word)
  /-- WC_ARM (R178). -/
  | wcArm (w : Word)
  /-- TEST_RUN (R241). -/
  | testRun (count : BitVec 13)
  /-- TEST_STOP (R243). -/
  | testStop
  /-- PAR_LEASE_WRITE (R325). -/
  | parLeaseWrite (m : Master) (w : Word)
  /-- PAR_GATE_WRITE (R146). -/
  | parGateWrite (m : Master) (w : Word)
  /-- RTC_SET (R366). -/
  | rtcSet (m : Master)
  /-- RTC_STEP (R366). -/
  | rtcStep (m : Master)
  /-- RTC_SLEW (R366). -/
  | rtcSlew (m : Master) (period : BitVec 16) (faster : Bool)
  /-- RTC_SLEW_STOP (R366). -/
  | rtcSlewStop (m : Master)
  /-- RTC_ALARM_CFG_WRITE (R373). -/
  | rtcAlarmCfgWrite (m : Master) (n : Fin 8) (w : Word)
  /-- RTC_BYTE_WRITE (R370). -/
  | rtcByteWrite (m : Master) (i : Fin 16) (w : Word)
  /-- READ_PUB (R391). -/
  | readPub (kind : BitVec 2) (tag : BitVec 8)
  /-- CHALLENGE (R391). -/
  | challenge (tag : BitVec 8)
  /-- ATTEST (R392). -/
  | attest (tag : BitVec 8)
  /-- BEGIN (R401). -/
  | objBegin (m : Master) (kind : BitVec 2)
  /-- PUT (R401). -/
  | objPut (m : Master)
  /-- SUBMIT (R401). -/
  | objSubmit (m : Master) (ok : Bool)
  /-- CANCEL (R401). -/
  | objCancel (m : Master)
  /-- OBJECT_TIMEOUT (R401). -/
  | objectTimeout
  /-- INPUT_BELOW_PFD (R131). -/
  | inputBelowPfd (vin : BitVec 16)
  /-- DIP (R131). -/
  | dip (low : BitVec 16) (us : BitVec 32)
  /-- POWER_FAIL_DETECTION (R132). -/
  | powerFailDetection (vin : BitVec 16)
  /-- LAST_TRAIN_SWITCH (R74). -/
  | lastTrainSwitch
  /-- LAST_TRAIN_PATH_START (R74). -/
  | lastTrainPathStart (path : Fin 4096)
  /-- LAST_TRAIN_END (R140). -/
  | lastTrainEnd
  /-- BANK_EXHAUSTED (R140). -/
  | bankExhausted
  /-- EAVAIL_UPDATE (R133). -/
  | eavailUpdate (vbank : BitVec 16)
  /-- START_CHECK (R135). -/
  | startCheck (v1 : BitVec 20)
  /-- DAILY_CHECK (R136). -/
  | dailyCheck (v1 : BitVec 20)
  /-- CHECK_COMPLETE (R134). -/
  | checkComplete (v2 : BitVec 20)
  /-- DI_TICK (R188). -/
  | diTick (g : Fin 4) (levels : BitVec 16)
  /-- SAMPLE_INSTANT (R83). -/
  | sampleInstant (island : Fin 25) (offset : BitVec 17) (meas : List (BitVec 16)) (limits : BitVec 4)
  /-- APPLY_INSTANT (R83). -/
  | applyInstant (island : Fin 25)
  /-- SAFE_VALUE_TIMEOUT (R19). -/
  | safeValueTimeout (island : Fin 25)
  /-- FIELD_SUPPLY_MEASURE (R192). -/
  | fieldSupplyMeasure (island : Fin 25) (mv : BitVec 16)
  /-- WIRE_BREAK (R190). -/
  | wireBreak (g : Fin 4) (c : Fin 16) (broken : Bool)
  /-- DI_DEB (R196). -/
  | diDeb (g : Fin 4) (c : Fin 16) (deb : BitVec 16)
  /-- DI_COUNTER_CFG (R193). -/
  | diCounterCfg (g : Fin 4) (src : BitVec 8) (mode : BitVec 16)
  /-- DI_BRKEN (R196). -/
  | diBrken (g : Fin 4) (brken : BitVec 16)
  /-- DO_SAFE (R201). -/
  | doSafe (h : Fin 2) (v : BitVec 16)
  /-- DO_HOLD (R201). -/
  | doHold (h : Fin 2) (v : BitVec 16)
  /-- DO_OL_EN (R200). -/
  | doOlEn (h : Fin 2) (v : BitVec 16)
  /-- OUT (R198). -/
  | doOut (h : Fin 2) (v : BitVec 16) (ack : Bool)
  /-- OVL_LATCH (R199). -/
  | ovlLatch (h : Fin 2) (c : Fin 16)
  /-- OPEN_LOAD (R200). -/
  | openLoad (h : Fin 2) (c : Fin 16) (inBand : Bool)
  /-- AOUT_CODE (R213). -/
  | aoutCode (a c : Fin 4) (code : BitVec 16) (alm : BitVec 2)
  /-- AOUT_MODE (R214). -/
  | aoutMode (a c : Fin 4) (mode insrc clamp : Bool) (safemode : BitVec 3)
  /-- AOUT_SAFE (R213). -/
  | aoutSafe (a c : Fin 4) (v : BitVec 16)
  /-- AOUT_ALM_LO (R213). -/
  | aoutAlmLo (a c : Fin 4) (v : BitVec 16)
  /-- AOUT_ALM_HI (R213). -/
  | aoutAlmHi (a c : Fin 4) (v : BitVec 16)
  /-- AOUT_TRIM (R213). -/
  | aoutTrim (a c : Fin 4) (zero span : BitVec 12)
  /-- ACMD (R214). -/
  | acmd (a : Fin 4) (en : BitVec 4) (ack : Bool)
  /-- COMPLIANCE (R216). -/
  | compliance (a c : Fin 4) (v : Bool)
  /-- RB_DEV (R217). -/
  | rbDev (a c : Fin 4) (v : Bool)
  /-- MISWIRE (R218). -/
  | miswire (a c : Fin 4)
  /-- MISWIRE_RESUME (R218). -/
  | miswireResume (a c : Fin 4)
  /-- METERING_SAMPLE (R85). -/
  | meteringSample (n : Fin 16000) (secs : BitVec 16) (bits : List (BitVec 1250))
  /-- EDGE_LOW (R160). -/
  | edgeLow (edges : BitVec 16)
  /-- EDGE_HIGH (R160). -/
  | edgeHigh (edges : BitVec 14)
  /-- S0_PULSE (R179). -/
  | s0Pulse (out : Fin 8) (width : BitVec 8)
  /-- S0_PULSE_END (R179). -/
  | s0PulseEnd (out : Fin 8)
  /-- INTERVAL_CLOSE (R164). -/
  | intervalClose
  /-- METERING_COMMIT_DONE (R171). -/
  | meteringCommitDone (ok : Bool)
  /-- PARTIAL_INTERVAL_CLOSE (R174). -/
  | partialIntervalClose
  /-- HARMONIC_WINDOW (R177). -/
  | harmonicWindow (setB : Bool)
  /-- CAPTURE_SAMPLE (R178). -/
  | captureSample
  /-- LOOP_ATTEMPT (R234). -/
  | loopAttempt (n : Fin 128) (cycle : BitVec 17)
  /-- FFW_WRITE (R239). -/
  | ffwWrite
  /-- POINT_REFRESH (R229). -/
  | pointRefresh (p : Fin 4096) (valid : Bool) (v : Word) (ts : BitVec 64) (src : PtSource) (chan : Option (BitVec 8))
  /-- FORCE_APPLY (R246). -/
  | forceApply
  /-- SERVICE_CYCLE (R244). -/
  | serviceCycle (sv : Fin 4) (cycle : BitVec 17) (outs : List (Fin 4096 × Word × BitVec 2))
  /-- STATION_CHECK (R249). -/
  | stationCheck
  /-- LINK_SIGNAL_PRESENT (R259). -/
  | linkSignalPresent (l : Fin 8)
  /-- SYMBOLS_ALIGNED (R259). -/
  | symbolsAligned (l : Fin 9) (swap inverted : Bool)
  /-- LINK_LOSS (R259). -/
  | linkLoss (l : Fin 8)
  /-- CELL_RECEIVE (R262). -/
  | cellReceive (l : Fin 8) (slot : Fin 128) (ts : BitVec 64) (ws : List Word)
  /-- SLOT_START (R264). -/
  | slotStart (l : Fin 8) (slot : Fin 96)
  /-- IDENTITY_POSITION_SEND (R268). -/
  | identityPositionSend (l : Fin 8)
  /-- POSITION (R269). -/
  | position (l : Fin 8) (addr : BitVec 16) (nlink : BitVec 8) (expAddr : BitVec 16) (expLink : BitVec 8) (hash : BitVec 64) (stratum : BitVec 8)
  /-- PROBATION_CLEAN (R270). -/
  | probationClean (l : Fin 8)
  /-- TIME_EXCHANGE (R273). -/
  | timeExchange (l : Fin 8) (t1 t2 t3 t4 : BitVec 64) (stratum : BitVec 8)
  /-- HOLDOVER (R275). -/
  | holdover
  /-- ROUTE_CELL (R278). -/
  | routeCell (arrival : Option (Fin 8)) (ws : List Word)
  /-- STATUS_REPORT (R280). -/
  | statusReport
  /-- FAULT_REPORT (R282). -/
  | faultReport (arrival : Option (Fin 8)) (ws : List Word)
  /-- COALESCE_FLUSH (R282). -/
  | coalesceFlush
  /-- TAG_REQUEST (R284). -/
  | tagRequest
  /-- TENANT_QUERY (R284). -/
  | tenantQuery (ws : List Word)
  /-- RRA_READ (R286). -/
  | rraRead (l : Fin 8)
  /-- RRA_WRITE (R286). -/
  | rraWrite (l : Fin 8)
  /-- PARCEL (R288). -/
  | parcel (src : Option (Fin 8)) (ws : List Word)
  /-- CHUNK_STORED (R288). -/
  | chunkStored (chunk : BitVec 16)
  /-- PARCEL_ACK (R288). -/
  | parcelAck (l : Fin 8) (id : Word) (chunk : BitVec 16) (status : BitVec 8)
  /-- PARCEL_NACK (R289). -/
  | parcelNack (l : Fin 8) (id : Word) (chunk : BitVec 16) (status : BitVec 8) (first count : BitVec 16)
  /-- PARCEL_GAP_TIMEOUT (R289). -/
  | parcelGapTimeout (chunk : BitVec 16)
  /-- TRANSFER_TIMEOUT (R399). -/
  | transferTimeout
  /-- SEND (R304). -/
  | canSend (c : Fin 12) (mask : BitVec 16)
  /-- ABORT (R305). -/
  | canAbort (c : Fin 12) (mask : BitVec 16)
  /-- FETCH (R301). -/
  | canFetch (c : Fin 12) (b : BitVec 6) (ts : Word)
  /-- STATS (R315). -/
  | busStats (src : Fin 24)
  /-- RECOVER (R306). -/
  | canRecover (c : Fin 12)
  /-- SELECT (R307). -/
  | canSelect (src : Fin 24) (idx : BitVec 9) (value : Word)
  /-- CFG_END (R307). -/
  | cfgEnd (src : Fin 24)
  /-- CAN_FRAME_RECEIVE (R300). -/
  | canFrameReceive (c : Fin 12) (id : BitVec 29) (ide : Bool) (dlc : BitVec 4) (fdf brs esi rtr : Bool) (bytes : List Byte) (ts : BitVec 64)
  /-- CAN_RX_RECORD_PUSH (R301). -/
  | canRxRecordPush (c : Fin 12)
  /-- CAN_TX_RECORD_LOAD (R303). -/
  | canTxRecordLoad (c : Fin 12)
  /-- CAN_ATTEMPT_END (R305). -/
  | canAttemptEnd (c : Fin 12) (res : Fin 4) (tdcv : Option (BitVec 7))
  /-- CAN_ERROR (R306). -/
  | canError (c : Fin 12) (kind : Fin 7) (txUp rxUp : Fin 9)
  /-- PROTOCOL_EXCEPTION (R297). -/
  | protocolException (c : Fin 12)
  /-- BUS_OFF_HOLD_END (R306). -/
  | busOffHoldEnd (c : Fin 12)
  /-- BUS_OFF_RECOVERY_DONE (R306). -/
  | busOffRecoveryDone (c : Fin 12)
  /-- BUS_STATUS_WORD (R308). -/
  | busStatusWord (src : Fin 24)
  /-- T1S_FRAME_RECEIVE (R310). -/
  | t1sFrameReceive (p : Fin 12) (bytes : List Byte) (whole late : Bool) (ts : BitVec 64)
  /-- T1S_RX_RECORD_PUSH (R311). -/
  | t1sRxRecordPush (p : Fin 12)
  /-- T1S_TX_RECORD_POP (R312). -/
  | t1sTxRecordPop (p : Fin 12)
  /-- T1S_FRAME_TRANSMIT (R312). -/
  | t1sFrameTransmit (p : Fin 12) (res : Fin 3) (defer : Bool) (ts : BitVec 64)
  /-- BACKOFF_END (R312). -/
  | backoffEnd (p : Fin 12)
  /-- PAUSE_RECEIVED (R313). -/
  | pauseReceived (p : Fin 12) (quanta : BitVec 16)
  /-- PAUSE_HOLD_END (R313). -/
  | pauseHoldEnd (p : Fin 12)
  /-- PAUSE_SEND (R313). -/
  | pauseSend (p : Fin 12)
  /-- PAUSE_RESEND (R313). -/
  | pauseResend (p : Fin 12)
  /-- PAUSE_RELEASE (R313). -/
  | pauseRelease (p : Fin 12)
  /-- BACKPRESSURE_JAM (R314). -/
  | backpressureJam (p : Fin 12)
  /-- HEARTBEAT_SEND (R328). -/
  | heartbeatSend
  /-- HEARTBEAT_RECEIVE (R328). -/
  | heartbeatReceive (overFabric : Bool) (ws : List Word)
  /-- FABRIC_HEARTBEAT (R329). -/
  | fabricHeartbeat
  /-- PATH_LOST (R329). -/
  | pathLost (onFabric : Bool)
  /-- LEASE_EXPIRY (R325). -/
  | leaseExpiry
  /-- LEASE_REQUEST (R330). -/
  | leaseRequest (answered : Bool) (cycle : BitVec 17)
  /-- GRANT (R330). -/
  | parGrant (req : BitVec 16) (cycle : BitVec 17) (fromBox : Bool)
  /-- PROBE (R332). -/
  | parProbe (answered : Bool)
  /-- SIGNAL_BOX_REQUEST (R332). -/
  | signalBoxRequest (k : Fin 16) (member probe : Bool) (req : BitVec 16)
  /-- SIGNAL_BOX_PENDING_GRANT (R332). -/
  | signalBoxPendingGrant
  /-- PAIR_STATE_CHANGE (R333). -/
  | pairStateChange
  /-- RECT (R352). -/
  | rectWord (w : BitVec 28)
  /-- SEGDATA (R352). -/
  | segdata (w : Word)
  /-- REQUEST_INSTANT (R353). -/
  | requestInstant (w : Word)
  /-- FRAME_BOUNDARY (R354). -/
  | frameBoundary (p : Fin 4)
  /-- QUERY (R357). -/
  | lcdQuery (w : BitVec 28)
  /-- FORCE (R355). -/
  | lcdForce (w : BitVec 28)
  /-- PANEL (R356). -/
  | panelWord (w : BitVec 28)
  /-- FSEG (R355). -/
  | fsegWord (w : BitVec 28)
  /-- NTC (R356). -/
  | ntcWord (w : BitVec 28)
  /-- BAND (R349). -/
  | bandWord (w : BitVec 28)
  /-- NTC_READING (R348). -/
  | ntcReading (p : Fin 4) (ohms : BitVec 32)
  /-- TEMPERATURE_UPDATE (R349). -/
  | temperatureUpdate (p : Fin 4)
  /-- NTC_FAULT (R348). -/
  | ntcFault (p : Fin 4)
  /-- VLCD_FAULT (R350). -/
  | vlcdFault (p : Fin 4)
  /-- VLCD_RESTART (R350). -/
  | vlcdRestart (p : Fin 4) (ok : Bool)
  /-- IDLE_INTERVAL_END (R347). -/
  | idleIntervalEnd (p : Fin 4)
  /-- TICK (R363). -/
  | rtcTick
  /-- SET (R366). -/
  | bcmdSet (w : BitVec 28)
  /-- STEP (R368). -/
  | bcmdStep (w : BitVec 28)
  /-- SLEW (R364). -/
  | bcmdSlew (w : BitVec 28)
  /-- SLEW_STOP (R373). -/
  | bcmdSlewStop (w : BitVec 28)
  /-- TRIM (R364). -/
  | bcmdTrim (w : BitVec 28)
  /-- ALMPER (R373). -/
  | bcmdAlmper (w : BitVec 28)
  /-- ALARM (R367). -/
  | bcmdAlarm (w : BitVec 28)
  /-- ACK (R369). -/
  | bcmdAck (w : BitVec 28)
  /-- BYTE (R370). -/
  | bcmdByte (w : BitVec 28)
  /-- READ (R373). -/
  | bcmdRead (w : BitVec 28)
  /-- CHG (R371). -/
  | bcmdChg (w : BitVec 28)
  /-- BARG (R373). -/
  | bargWord (w : Word)
  /-- RETENTION_TRIP (R372). -/
  | retentionTrip
  /-- RETENTION_RESET (R372). -/
  | retentionReset
  /-- BACKUP_SWITCHOVER (R371). -/
  | backupSwitchover (toElement : Bool) (mv : BitVec 12)
  /-- CLOCK_DISCIPLINE (R366). -/
  | clockDiscipline
  /-- ALARM_REPORT (R369). -/
  | alarmReport
  /-- SHAKE (R389). -/
  | islandShake (busy : Bool) (tag : BitVec 8) (n : BitVec 16) (msg : List Byte)
  /-- VERIFY (R389). -/
  | islandVerify (busy : Bool) (tag : BitVec 8) (k : BitVec 16) (msg sig : List Byte)
  /-- SIGNGEN (R389). -/
  | signgen (busy : Bool) (tag : BitVec 8) (h : List Byte)
  /-- MESSAGE (R384). -/
  | islandMessage (busy : Bool) (tag : BitVec 8) (m : List Byte)
  /-- RECORD_DONE (R386). -/
  | recordDone (busy : Bool) (tag : BitVec 8) (copy : Fin 2) (failed : Bool)
  /-- LOADREC (R382). -/
  | loadrec (busy : Bool) (tag : BitVec 8) (blown : Bool)
  /-- PUBKEY (R389). -/
  | pubkey (busy : Bool) (tag : BitVec 8) (k : BitVec 16)
  /-- ISLAND_ATTEST (R392). -/
  | islandAttest (busy : Bool) (tag : BitVec 8) (ws : List Word)
  /-- ISLAND_CHALLENGE (R391). -/
  | islandChallenge (busy : Bool) (tag : BitVec 8) (ws : List Word)
  /-- UPDATE_REC (R389). -/
  | updateRec (busy : Bool) (tag : BitVec 8) (ws : List Word)
  /-- COMMISSION (R385). -/
  | commission (m : List Byte) (ok : Bool)
  /-- OWNER_SECRET (R387). -/
  | ownerSecret (m : List Byte) (ok : Bool)
  /-- OWNER_ROOT (R385). -/
  | ownerRoot (m : List Byte) (ok : Bool)
  /-- RETURN (R385). -/
  | msgReturn (m : List Byte) (ok : Bool)
  /-- RETIRE (R385). -/
  | msgRetire (m : List Byte) (ok : Bool)
  /-- CONFIRM (R396). -/
  | msgConfirm (m : List Byte) (ok : Bool)
  /-- REJECT (R395). -/
  | msgReject (m : List Byte) (ok : Bool)
  /-- PRIVILEGED (R403). -/
  | privileged (m : List Byte) (ok : Bool)
  /-- EPOCH_GRACE_END (R387). -/
  | epochGraceEnd
  /-- TRIAL_MINUTE (R395). -/
  | trialMinute (ok : Bool)
  /-- TRIES_RESET (R395). -/
  | triesReset
  /-- INPUT_RISE (R132). -/
  | inputRise (vin : BitVec 16)
  /-- V_IN_OUTSIDE_OPERATING_RANGE (R151). -/
  | vInOutsideOperatingRange (vin : BitVec 16)
  /-- TIME_CELL_SEND_BEFORE_RELEASE (R290). -/
  | timeCellSendBeforeRelease (l : Fin 8)
  /-- SB_LOST (R332). -/
  | sbLost
  /-- ELEMENT_LOW (R375). -/
  | elementLow (mv : BitVec 12)
  /-- BUS_INTEGRATION (R307). -/
  | busIntegration (c : Fin 12)
  /-- START_OF_FRAME (R304). -/
  | startOfFrame (c : Fin 12) (ts : BitVec 64) (other : Bool)
  /-- SLOT_BOUNDARY (R355). -/
  | slotBoundary (p : Fin 4)
  deriving DecidableEq, Repr

end Sys2Proof
end

