-- ==== Sys2Proof/Decode.lean ====
section
/-! DEFINITION. The words that spell commands: no row of the table has bits, so no table word does; a track field of a consist
spells an engine operation by Tables 2-2 to 2-4 (R36, R38, R42, R43). -/

namespace Sys2Proof

/-- The command that a word of `nbits` bits spells by the table: none, since every row of the table leaves its encoding empty. -/
def decodeTableWord (_nbits _w : Nat) : Option Instr := none

/-! ## Track fields -/

/-- A six-bit operand of a track field, from bit `lo`. -/
def opReg (f lo : Nat) : Fin 64 := ⟨f / 2 ^ lo % 64, Nat.mod_lt _ (by decide)⟩

/-- Format P's destination, bits 18:15. -/
def opPred (f : Nat) : Fin 16 := ⟨f / 2 ^ 15 % 16, Nat.mod_lt _ (by decide)⟩

/-- D, A, and B of format R3; A and B of format P; QA and QB of format Q (Table 2-3). -/
def fD (f : Nat) : Fin 64 := opReg f 13
def fA (f : Nat) : Fin 64 := opReg f 7
def fB (f : Nat) : Fin 64 := opReg f 1
def fPA (f : Nat) : Fin 64 := opReg f 9
def fPB (f : Nat) : Fin 64 := opReg f 3

/-- imm7, imm13, PORT, FP, COND and TRIP (Table 2-3). -/
def fImm7 (f : Nat) : BitVec 7 := BitVec.ofNat 7 f
def fImm13 (f : Nat) : BitVec 13 := BitVec.ofNat 13 f
def fPort (f : Nat) : BitVec 11 := BitVec.ofNat 11 (f / 4)
def fFp (f : Nat) : BitVec 2 := BitVec.ofNat 2 f
def fCond (f : Nat) : BitVec 3 := BitVec.ofNat 3 f
def fTrip (f : Nat) : BitVec 16 := BitVec.ofNat 16 f

/-- PSEL, PINV and OP of a track field (Table 2-2), for an issue at core cycle `cycle` on track `k`. -/
def fIssue (cycle : Nat) (k : Fin 4) (f : Nat) : Issue :=
  { cycle := cycle, track := k, psel := ⟨f / 2 ^ 26 % 16, Nat.mod_lt _ (by decide)⟩, pinv := f.testBit 25 }
def fOp (f : Nat) : Nat := f / 2 ^ 19 % 64

/-- The integer operations of tracks 0 and 1, with ADD64 and SUB64 of track 1 and LOOP of track 0 (Table 2-4). -/
def intOp (i : Issue) (f : Nat) : Option Instr :=
  match fOp f with
  | 0x00 => some (.nop i)
  | 0x01 => some (.add i (fD f) (fA f) (fB f))
  | 0x02 => some (.sub i (fD f) (fA f) (fB f))
  | 0x03 => some (.andW i (fD f) (fA f) (fB f))
  | 0x04 => some (.orW i (fD f) (fA f) (fB f))
  | 0x05 => some (.xorW i (fD f) (fA f) (fB f))
  | 0x06 => some (.shl i (fD f) (fA f) (fB f))
  | 0x07 => some (.shr i (fD f) (fA f) (fB f))
  | 0x08 => some (.sar i (fD f) (fA f) (fB f))
  | 0x09 => some (.addi i (fD f) (fA f) (fImm7 f))
  | 0x0A => some (.shli i (fD f) (fA f) (fImm7 f))
  | 0x0B => some (.shri i (fD f) (fA f) (fImm7 f))
  | 0x0C => some (.sari i (fD f) (fA f) (fImm7 f))
  | 0x0D => some (.li i (fD f) (fImm13 f))
  | 0x0E => some (.lis i (fD f) (fImm13 f))
  | 0x0F => some (.sel i (fD f) (fA f) (fB f))
  | 0x10 => some (.minS i (fD f) (fA f) (fB f))
  | 0x11 => some (.maxS i (fD f) (fA f) (fB f))
  | 0x12 => some (.adds i (fD f) (fA f) (fB f))
  | 0x13 => some (.subs i (fD f) (fA f) (fB f))
  | 0x14 => some (.mul i (fD f) (fA f) (fB f))
  | 0x15 => some (.mulh i (fD f) (fA f) (fB f))
  | 0x16 => some (.mulhu i (fD f) (fA f) (fB f))
  | 0x17 => some (.cmp i (opPred f) (fPA f) (fPB f) (fCond f))
  | 0x18 => if i.track.val = 1 then some (.add64 i (fD f) (fA f) (fB f)) else none
  | 0x19 => if i.track.val = 1 then some (.sub64 i (fD f) (fA f) (fB f)) else none
  | 0x3F => if i.track.val = 0 then some (.loopOpen i (fTrip f)) else none
  | _ => none

/-- The binary32 operations of track 2 (Table 2-4). -/
def floatOp (i : Issue) (f : Nat) : Option Instr :=
  match fOp f with
  | 0x00 => some (.nop i)
  | 0x01 => some (.fadd i (fD f) (fA f) (fB f))
  | 0x02 => some (.fsub i (fD f) (fA f) (fB f))
  | 0x03 => some (.fmul i (fD f) (fA f) (fB f))
  | 0x04 => some (.fma i (fD f) (fA f) (fB f))
  | 0x05 => some (.fms i (fD f) (fA f) (fB f))
  | 0x06 => some (.fmin i (fD f) (fA f) (fB f))
  | 0x07 => some (.fmax i (fD f) (fA f) (fB f))
  | 0x08 => some (.fabs i (fD f) (fA f))
  | 0x09 => some (.fneg i (fD f) (fA f))
  | 0x0A => some (.fcvti i (fD f) (fA f))
  | 0x0B => some (.fcvtf i (fD f) (fA f))
  | 0x0C => some (.fcmp i (opPred f) (fPA f) (fPB f) (fCond f))
  | 0x0D => some (.fdiv i (fD f) (fA f) (fB f))
  | 0x0E => some (.fsqrt i (fD f) (fA f))
  | 0x0F => some (.fsel i (fD f) (fA f) (fB f))
  | _ => none

/-- The operations of track 3 (Table 2-4); `consist` is the index of the consist, which the mirror plan names for an MSW. -/
def memOp (i : Issue) (consist f : Nat) : Option Instr :=
  match fOp f with
  | 0x00 => some (.nop i)
  | 0x01 => some (.ld i (fD f) (fA f) (fImm7 f))
  | 0x02 => some (.st i (fD f) (fA f) (fImm7 f))
  | 0x03 => some (.ldx i (fD f) (fA f) (fB f))
  | 0x04 => some (.stx i (fD f) (fA f) (fB f))
  | 0x05 => some (.mov i (fD f) (fA f))
  | 0x06 => some (.lld i (fD f) (fA f) (fImm7 f))
  | 0x07 => some (.lst i (fD f) (fA f) (fImm7 f))
  | 0x08 => some (.xrd i (fD f) (fPort f) (fFp f))
  | 0x09 => some (.xwr i (fD f) (fPort f))
  | 0x0A => some (.qpop i (fD f) (fA f))
  | 0x0B => some (.qpush i (fD f) (fA f))
  | 0x0C => some (.qlev i (fD f) (fA f))
  | 0x0D => some (.qmov i (fA f) (fB f))
  | 0x0E => some (.xq i (fD f) (fPort f))
  | 0x0F => some (.qx i (fD f) (fPort f))
  | 0x10 => some (.rld i (fD f) (fA f) (fImm7 f))
  | 0x11 => some (.rst i (fD f) (fA f) (fImm7 f))
  | 0x12 => some (.mst i (fD f) (fA f) (fImm7 f))
  | 0x13 => some (.msw i (fA f) (BitVec.ofNat 16 consist))
  | 0x14 => some (.srd i (fD f) (fImm7 f))
  | 0x15 => some (.scrb i (fA f) (fImm7 f))
  | 0x16 => some (.arm i (fA f))
  | 0x17 => some (.darm i (fA f))
  | _ => none

/-- The operation that a track field spells: none for a code that Table 2-4 does not list for the track (R43). -/
def decodeTrack (cycle consist : Nat) (k : Fin 4) (f : Nat) : Option Instr :=
  match k.val with
  | 0 | 1 => intOp (fIssue cycle k f) f
  | 2 => floatOp (fIssue cycle k f) f
  | _ => memOp (fIssue cycle k f) consist f

/-- The operations of the 128-bit consist `w` with index `consist`, track 0 first (Table 2-1). -/
def decodeConsist (cycle consist w : Nat) : List Instr :=
  [(0 : Fin 4), 1, 2, 3].filterMap (fun k => decodeTrack cycle consist k (w / 2 ^ (30 * k.val) % 2 ^ 30))

end Sys2Proof
end

