-- ==== Sys2Proof/Machine/Bits.lean ====
section
/-! DEFINITION. Bit-field, sign-extension and byte-order helpers. -/

namespace Sys2Proof.Machine

/-- Bits `hi` down to `lo` of a word, as a number. -/
def fld (w : Word) (hi lo : Nat) : Nat := (w.toNat / 2 ^ lo) % 2 ^ (hi + 1 - lo)

/-- Bit `i` of a word. -/
def bit (w : Word) (i : Nat) : Bool := w.getLsbD i

/-- The word with bits `hi` down to `lo` replaced by the low bits of `v`. -/
def setFld (w : Word) (hi lo v : Nat) : Word :=
  let m : Nat := (2 ^ (hi + 1 - lo) - 1) * 2 ^ lo
  (w &&& ~~~(BitVec.ofNat 32 m)) ||| BitVec.ofNat 32 ((v % 2 ^ (hi + 1 - lo)) * 2 ^ lo)

/-- The word with bit `i` made `b`. -/
def setBit (w : Word) (i : Nat) (b : Bool) : Word := setFld w i i (if b then 1 else 0)

/-- A word from a natural number, modulo 2^32. -/
def w32 (n : Nat) : Word := BitVec.ofNat 32 n

/-- A word from an integer, modulo 2^32. -/
def w32i (n : Int) : Word := BitVec.ofInt 32 n

/-- One bit as a number. -/
def b2n (b : Bool) : Nat := if b then 1 else 0

/-- A saturating increment of a counter field whose greatest value is `top`. -/
def satAdd (n k top : Nat) : Nat := if n + k ≤ top then n + k else top

/-- Add `k` to the saturating counter in bits `hi` to `lo`. -/
def satFld (w : Word) (hi lo k : Nat) : Word :=
  setFld w hi lo (satAdd (fld w hi lo) k (2 ^ (hi + 1 - lo) - 1))

/-- The signed value of the low `n` bits of `v`. -/
def sxt (n v : Nat) : Int :=
  let u := v % 2 ^ n
  if u < 2 ^ (n - 1) then (u : Int) else (u : Int) - (2 ^ n : Nat)

/-- Little-endian number of a list of bytes, the first byte least significant. -/
def leNat : List Byte → Nat
  | [] => 0
  | b :: bs => b.toNat + 256 * leNat bs

/-- The `n` little-endian bytes of a number. -/
def leBytes : Nat → Nat → List Byte
  | 0, _ => []
  | n + 1, v => BitVec.ofNat 8 v :: leBytes n (v / 256)

/-- The numbers of the bits set in a mask, among bits 0 to `n - 1`. -/
def bitsOf (n mask : Nat) : List Nat := (List.range n).filter (fun i => mask.testBit i)

/-- The number of bits set among bits 0 to `n - 1`. -/
def popcount (n mask : Nat) : Nat := (bitsOf n mask).length

/-- The mask with the listed bits set. -/
def maskOf : List Nat → Nat
  | [] => 0
  | b :: bs => (2 ^ b) ||| maskOf bs

end Sys2Proof.Machine
end

