-- ==== Sys2Proof/Machine/Float.lean ====
section
/-! DEFINITION. binary32 arithmetic of track 2 (R45): exact results, one rounding to nearest even, subnormals flushed. -/

namespace Sys2Proof.Machine

/-- A result word with the flags it raises: bit 0 INVALID, 1 DIVZERO, 2 OVERFLOW, 3 UNDERFLOW (TTE_FP_STAT, Table 2-26). -/
abbrev FRes := Word × Nat

def fpInvalid : Nat := 1
def fpDivZero : Nat := 2
def fpOverflow : Nat := 4
def fpUnderflow : Nat := 8

/-- Every NaN result (R45). -/
def qnan : Word := 0x7FC00000#32

/-- Sign bit. -/
def fSign (w : Word) : Bool := w.getLsbD 31
/-- Biased exponent. -/
def fExp (w : Word) : Nat := fld w 30 23
/-- Fraction. -/
def fFrac (w : Word) : Nat := fld w 22 0
/-- Not a number. -/
def fIsNaN (w : Word) : Bool := fExp w == 255 && fFrac w != 0
/-- A signalling NaN: the top fraction bit is clear. -/
def fIsSNaN (w : Word) : Bool := fIsNaN w && !(w.getLsbD 22)
/-- An infinity. -/
def fIsInf (w : Word) : Bool := fExp w == 255 && fFrac w == 0
/-- A zero, subnormal operands read as zero of the same sign (R45). -/
def fIsZero (w : Word) : Bool := fExp w == 0
/-- A finite number, zero included. -/
def fIsFin (w : Word) : Bool := fExp w != 255
/-- The operand as R45 reads it: a subnormal becomes zero of the same sign. -/
def fRead (w : Word) : Word := if fIsZero w then (if fSign w then 0x80000000#32 else 0#32) else w
/-- The integer significand of a finite operand (its value is `fMant * 2 ^ fPow`). -/
def fMant (w : Word) : Nat := if fIsZero w then 0 else 2 ^ 23 + fFrac w
/-- The power of two of a finite operand's significand. -/
def fPow (w : Word) : Int := (fExp w : Int) - 150
/-- A zero of the given sign. -/
def fZero (neg : Bool) : Word := if neg then 0x80000000#32 else 0#32
/-- An infinity of the given sign. -/
def fInf (neg : Bool) : Word := if neg then 0xFF800000#32 else 0x7F800000#32
/-- Sign and significand as one integer. -/
def fSigned (w : Word) : Int := if fSign w then -(fMant w : Int) else (fMant w : Int)

/-- Round the non-zero magnitude `m * 2 ^ e`, with `sticky` for an inexact remainder below it, to nearest even at 24 bits
with an unbounded exponent range; then flush below 2^-126 and overflow above the greatest finite number (R45). -/
def fRound (neg : Bool) (m : Nat) (e : Int) (sticky : Bool) : FRes :=
  if m = 0 then (fZero neg, 0) else
  let len := Nat.log2 m + 1
  let sh := len - 24
  let q := if len ≤ 24 then m * 2 ^ (24 - len) else m / 2 ^ sh
  let rem := if len ≤ 24 then 0 else m % 2 ^ sh
  let half := 2 ^ sh / 2
  let up := decide (len > 24) && (decide (rem > half) || (decide (rem = half) && (sticky || q % 2 == 1)))
  let r := if up then q + 1 else q
  let r' := if r = 2 ^ 24 then 2 ^ 23 else r
  let ex : Int := e + (len : Int) - 1 + (if r = 2 ^ 24 then 1 else 0)
  if ex < -126 then (fZero neg, fpUnderflow)
  else if 127 < ex then (fInf neg, fpOverflow)
  else (BitVec.ofNat 32 ((if neg then 2 ^ 31 else 0) + ((ex + 127).toNat) * 2 ^ 23 + (r' - 2 ^ 23)), 0)

/-- Round the exact integer-scaled value `v * 2 ^ e`; `zneg` is the sign of an exact zero. -/
def fRoundInt (v : Int) (e : Int) (zneg : Bool) : FRes :=
  if v = 0 then (fZero zneg, 0) else fRound (decide (v < 0)) v.natAbs e false

/-- INVALID when an operand is a signalling NaN. -/
def snanFlag (ws : List Word) : Nat := if ws.any fIsSNaN then fpInvalid else 0

/-- Sum of two finite values given as signed significands and powers. -/
def fSumFin (x : Int) (ex : Int) (y : Int) (ey : Int) (zneg : Bool) : FRes :=
  let e := min ex ey
  fRoundInt (x * (2 ^ (ex - e).toNat : Nat) + y * (2 ^ (ey - e).toNat : Nat)) e zneg

/-- FADD (R45). -/
def fAdd (a0 b0 : Word) : FRes :=
  let a := fRead a0; let b := fRead b0
  if fIsNaN a || fIsNaN b then (qnan, snanFlag [a, b])
  else if fIsInf a && fIsInf b then (if fSign a == fSign b then (a, 0) else (qnan, fpInvalid))
  else if fIsInf a then (a, 0)
  else if fIsInf b then (b, 0)
  else fSumFin (fSigned a) (fPow a) (fSigned b) (fPow b) (fIsZero a && fIsZero b && fSign a && fSign b)

/-- The operand with its sign inverted, before any reading of it. -/
def fFlip (a : Word) : Word := a ^^^ 0x80000000#32

/-- FSUB: A − B (R45). -/
def fSub (a b : Word) : FRes := if fIsNaN b then fAdd a b else fAdd a (fFlip b)

/-- FMUL (R45). -/
def fMul (a0 b0 : Word) : FRes :=
  let a := fRead a0; let b := fRead b0
  let neg := fSign a != fSign b
  if fIsNaN a || fIsNaN b then (qnan, snanFlag [a, b])
  else if (fIsInf a && fIsZero b) || (fIsZero a && fIsInf b) then (qnan, fpInvalid)
  else if fIsInf a || fIsInf b then (fInf neg, 0)
  else if fIsZero a || fIsZero b then (fZero neg, 0)
  else fRound neg (fMant a * fMant b) (fPow a + fPow b) false

/-- D + A × B with one rounding; `negP` inverts the product (FMS). `qinv` says whether the product of an infinity and a
zero raises INVALID beside a quiet NaN addend, which IEEE 754 leaves open (assumption 12). -/
def fMulAdd (qinv : Bool) (negP : Bool) (d0 a0 b0 : Word) : FRes :=
  let d := fRead d0; let a := fRead a0; let b := fRead b0
  let neg := (fSign a != fSign b) != negP
  let badP := (fIsInf a && fIsZero b) || (fIsZero a && fIsInf b)
  if fIsNaN a || fIsNaN b then (qnan, snanFlag [d, a, b])
  else if fIsNaN d then (qnan, if fIsSNaN d || (badP && qinv) then fpInvalid else 0)
  else if badP then (qnan, fpInvalid)
  else if fIsInf a || fIsInf b then
    (if fIsInf d && fSign d != neg then (qnan, fpInvalid) else (fInf neg, 0))
  else if fIsInf d then (d, 0)
  else
    let p : Int := if neg then -((fMant a * fMant b : Nat) : Int) else ((fMant a * fMant b : Nat) : Int)
    let pz := fIsZero a || fIsZero b
    fSumFin (fSigned d) (fPow d) p (fPow a + fPow b) (fIsZero d && pz && fSign d && neg)

/-- The order of two numbers that are not NaN, −0 counted below +0 (Table 2-4, FMIN and FMAX). -/
def fLeTotal (a b : Word) : Bool :=
  if fSign a then (if fSign b then decide (b.toNat ≤ a.toNat) else true)
  else (if fSign b then false else decide (a.toNat ≤ b.toNat))

/-- FMIN: minimumNumber (R45). -/
def fMin (a0 b0 : Word) : FRes :=
  let a := fRead a0; let b := fRead b0
  (if fIsNaN a && fIsNaN b then qnan else if fIsNaN a then b else if fIsNaN b then a
   else if fLeTotal a b then a else b, snanFlag [a, b])

/-- FMAX: maximumNumber (R45). -/
def fMax (a0 b0 : Word) : FRes :=
  let a := fRead a0; let b := fRead b0
  (if fIsNaN a && fIsNaN b then qnan else if fIsNaN a then b else if fIsNaN b then a
   else if fLeTotal a b then b else a, snanFlag [a, b])

/-- FABS: A with its sign cleared; a NaN result is 0x7FC0_0000 and a subnormal reads as zero (R45). -/
def fAbs (a0 : Word) : FRes :=
  let a := fRead a0
  (if fIsNaN a then qnan else a &&& 0x7FFFFFFF#32, 0)

/-- FNEG: A with its sign inverted. -/
def fNeg (a0 : Word) : FRes :=
  let a := fRead a0
  (if fIsNaN a then qnan else fFlip a, 0)

/-- FCVTI: binary32 of a signed integer. -/
def fCvtI (a : Word) : FRes := fRoundInt a.toInt 0 false

/-- Nearest integer of `m * 2 ^ e`, ties to even. -/
def rneNat (m : Nat) (e : Int) : Nat :=
  if 0 ≤ e then m * 2 ^ e.toNat else
  let sh := (-e).toNat
  let q := m / 2 ^ sh
  let rem := m % 2 ^ sh
  let half := 2 ^ sh / 2
  if rem > half || (rem == half && q % 2 == 1) then q + 1 else q

/-- FCVTF: signed integer of A, rounded to nearest even, saturating, NaN to 0; INVALID in those three cases (R45). -/
def fCvtF (a0 : Word) : FRes :=
  let a := fRead a0
  if fIsNaN a then (0#32, fpInvalid)
  else if fIsInf a then (if fSign a then 0x80000000#32 else 0x7FFFFFFF#32, fpInvalid)
  else
    let n : Nat := if 40 < fPow a then 2 ^ 63 else rneNat (fMant a) (fPow a)
    if fSign a then (if 2 ^ 31 < n then (0x80000000#32, fpInvalid) else (w32i (-(n : Int)), 0))
    else (if 2 ^ 31 ≤ n then (0x7FFFFFFF#32, fpInvalid) else (w32 n, 0))

/-- Numeric equality of two numbers that are not NaN (−0 equals +0). -/
def fEq (a b : Word) : Bool := a == b || (fIsZero a && fIsZero b)

/-- Numeric less-than of two numbers that are not NaN. -/
def fLt (a b : Word) : Bool := !(fEq a b) && fLeTotal a b

/-- FCMP: COND 0 EQ, 1 NE, 2 LT, 3 GE, 4 UN, with the flags of R45. -/
def fCmp (cond : Nat) (a0 b0 : Word) : Bool × Nat :=
  let a := fRead a0; let b := fRead b0
  if fIsNaN a || fIsNaN b then
    (cond == 1 || cond == 4, if cond == 2 || cond == 3 then fpInvalid else snanFlag [a, b])
  else
    (match cond with
     | 0 => fEq a b
     | 1 => !(fEq a b)
     | 2 => fLt a b
     | 3 => !(fLt a b)
     | _ => false, 0)

/-- FDIV: A / B (R45). -/
def fDiv (a0 b0 : Word) : FRes :=
  let a := fRead a0; let b := fRead b0
  let neg := fSign a != fSign b
  if fIsNaN a || fIsNaN b then (qnan, snanFlag [a, b])
  else if (fIsInf a && fIsInf b) || (fIsZero a && fIsZero b) then (qnan, fpInvalid)
  else if fIsInf a then (fInf neg, 0)
  else if fIsInf b then (fZero neg, 0)
  else if fIsZero b then (fInf neg, fpDivZero)
  else if fIsZero a then (fZero neg, 0)
  else
    let n := fMant a * 2 ^ 28
    fRound neg (n / fMant b) (fPow a - fPow b - 28) (decide (n % fMant b ≠ 0))

/-- Integer square root by bits: the greatest `r` below `2 ^ k` with `r * r ≤ n`, starting from `r`. -/
def isqrtFrom : Nat → Nat → Nat → Nat
  | 0, r, _ => r
  | k + 1, r, n => let t := r + 2 ^ k; isqrtFrom k (if t * t ≤ n then t else r) n

/-- Integer square root of a number below 2^64. -/
def isqrt (n : Nat) : Nat := isqrtFrom 32 0 n

/-- FSQRT: square root of A (R45). -/
def fSqrt (a0 : Word) : FRes :=
  let a := fRead a0
  if fIsNaN a then (qnan, snanFlag [a])
  else if fIsZero a then (a, 0)
  else if fSign a then (qnan, fpInvalid)
  else if fIsInf a then (a, 0)
  else
    let odd := fPow a % 2 ≠ 0
    let m := if odd then fMant a * 2 ^ 31 else fMant a * 2 ^ 30
    let e := if odd then fPow a - 31 else fPow a - 30
    let r := isqrt m
    fRound false r (e / 2) (decide (r * r ≠ m))

/-- The value parts of the operations, for the arithmetic of the image's paths (binary32 throughout). -/
def fadd (a b : Word) : Word := (fAdd a b).1
def fsub (a b : Word) : Word := (fSub a b).1
def fmul (a b : Word) : Word := (fMul a b).1
def fdiv (a b : Word) : Word := (fDiv a b).1
def fsqrt (a : Word) : Word := (fSqrt a).1
def fofInt (v : Int) : Word := (fRoundInt v 0 false).1
def fabs (a : Word) : Word := (fAbs a).1
def fmin (a b : Word) : Word := (fMin a b).1
def fmax (a b : Word) : Word := (fMax a b).1

/-- The signed integer nearest to a binary32 number, ties to even; NaN and infinities give 0. -/
def fToInt (a : Word) : Int :=
  if fIsFin a then (if fSign a then -(rneNat (fMant a) (fPow a) : Int) else (rneNat (fMant a) (fPow a) : Int)) else 0

/-! ## The sine, for the chirp and the harmonics (R177, R241) -/

/-- Horner's scheme of the sine's series in units of 2^-60: 1 − x²/d (1 − …) over the divisors 2k (2k + 1). -/
def sinHorner (x2 : Int) : List Int → Int
  | [] => 2 ^ 60
  | d :: r => 2 ^ 60 - x2 * sinHorner x2 r / (d * 2 ^ 60)

/-- sin 2πφ in units of 2^-60, φ in units of 2^-64 turn, to within 2^-40: the first quarter by its series, the others from it. -/
def sinTurn (phi : Nat) : Int :=
  let q := phi / 2 ^ 62 % 4
  let r := phi % 2 ^ 62
  let t : Nat := if q % 2 = 1 then 2 ^ 62 - r else r
  let x : Int := (t * 7244019458077122842 / 2 ^ 64 : Nat)
  let v := x * sinHorner (x * x / 2 ^ 60) [6, 20, 42, 72, 110, 156, 210, 272] / 2 ^ 60
  if 2 ≤ q then -v else v

/-- A finite binary32 value in units of 2^-149. -/
def fUnits (w : Word) : Int := fSigned w * (2 ^ (fExp w - 1) : Nat)

/-- cos 2πφ. -/
def cosTurn (phi : Nat) : Int := sinTurn (phi + 2 ^ 62)

/-- The integer square root of any number. -/
def natSqrt (n : Nat) : Nat := isqrtFrom (Nat.log2 n / 2 + 1) 0 n

end Sys2Proof.Machine
end

