-- ==== Sys2Proof/Config.lean ====
section
/-! DEFINITION. What the spec leaves open: constants without a body, so that nothing can be proved of their values. -/

namespace Sys2Proof.Config

/-- A fresh 32-bit value for each use: the argument is the model's own counter (assumption 3). -/
opaque freeWord : Nat → Word

/-- Does a multiply-add raise INVALID for infinity × zero beside a quiet NaN addend (IEEE 754 leaves it open, assumption 12). -/
opaque fmaNanInvalid : Bool

/-- What the compiled image publishes in CTL_LPn_SCHED and CTL_SVs_CFG, by register address: no section of the image format
holds it (assumption 25). -/
opaque imageFact : Nat → Word

/-- The paths of the compiled image that are the slices of service `v`: no section of the image format holds them
(assumption 25). -/
opaque slicePaths : Nat → List Nat

/-! ## The security island's secrets and its signature and encapsulation schemes (chapter 15, assumption 29) -/

/-- K_dev, byte by byte (R379). -/
opaque devKeyByte : Nat → Byte

/-- The identity, ML-KEM encapsulation, vendor factory root and vendor return root public keys, byte by byte (R378, R379). -/
opaque identityByte : Nat → Byte
opaque mlkemByte : Nat → Byte
opaque factoryByte : Nat → Byte
opaque returnByte : Nat → Byte

/-- The length less one and the bytes of the part of a signature by the identity key that follows its salt, for a salt and a
message: the private key is none of the spec's. -/
opaque falconLen : List Byte → List Byte → Nat
opaque falconByte : List Byte → List Byte → Nat → Byte

/-- Does the decapsulation of an ML-KEM-1024 ciphertext fail, and byte by byte the shared secret it gives. -/
opaque mlkemFails : List Byte → Bool
opaque mlkemSecretByte : List Byte → Nat → Byte

/-- Is a panel temperature that lies between two multiples of 0.1 °C the upper one, for the accepted NTC readings in Ω and BETA
(R348): the spec states no rounding (assumption 34). -/
opaque ntcUp : List Nat → Nat → Bool

/-- The panel temperature in 0.1 °C where R348's formula divides by 0 (assumption 34). -/
opaque ntcUnstated : List Nat → Nat → Int

end Sys2Proof.Config
end

