-- ==== Sys2Proof/Machine/Sparse.lean ====
section
/-! DEFINITION. Reading, writing and the canonical form of a sparse table (memories, registers, marks). -/

namespace Sys2Proof.Machine

/-- The value at key `a`; `d` is what an unlisted key reads as. -/
def sget {α : Type} (d : α) (l : Sparse α) (a : Nat) : α :=
  ((l.find? (fun e => e.1 == a)).map (fun e => e.2)).getD d

/-- The table with key `a` set to `v`; writing the unlisted value `d` removes the entry. -/
def sset {α : Type} [DecidableEq α] (d : α) (l : Sparse α) (a : Nat) (v : α) : Sparse α :=
  l.filter (fun e => decide (e.1 < a)) ++ (if v = d then [] else [(a, v)]) ++ l.filter (fun e => decide (a < e.1))

/-- The canonical form: keys strictly rising, and no entry equal to the unlisted value of its key. -/
def swf {α : Type} [DecidableEq α] (d : Nat → α) (l : Sparse α) : Bool :=
  decide (l.Pairwise (fun x y => x.1 < y.1)) && l.all (fun e => decide (e.2 ≠ d e.1))

/-- Set the `ws.length` consecutive keys `a, a + stride, …` to the values of `ws`. -/
def ssetMany {α : Type} [DecidableEq α] (d : α) (stride : Nat) : Sparse α → Nat → List α → Sparse α
  | l, _, [] => l
  | l, a, w :: ws => ssetMany d stride (sset d l a w) (a + stride) ws

/-- The table less every key from `lo` to `hi - 1`. -/
def sclear {α : Type} (l : Sparse α) (lo hi : Nat) : Sparse α :=
  l.filter (fun e => decide (e.1 < lo) || decide (hi ≤ e.1))

/-- The keys of a table. -/
def skeys {α : Type} (l : Sparse α) : List Nat := l.map (fun e => e.1)

end Sys2Proof.Machine
end

