-- ==== Sys2Proof/Machine/RegMap.lean ====
section
/-! DEFINITION. The register map: every register of the sixteen blocks with its address, access code, reset value,
reserved bits and W1C bits, as the register tables of the spec give them (R75, R129, R152, R184, R207, R225, R254, R294,
R321, R322, R342, R361, R376, R409, R426, R440). A field with no stated reset value counts as 0 here (assumption 2). -/

namespace Sys2Proof.Machine

/-- The access codes of Table 0-3. -/
inductive Access where
  | ro | rw | sh | w1c | wo | pop
  deriving DecidableEq, Repr

/-- One row of the map: the registers at `base + s1 * i + s2 * j`, `i < n1`, `j < n2`. -/
structure RegRow where
  base : Nat
  n1 : Nat
  s1 : Nat
  n2 : Nat
  s2 : Nat
  acc : Access
  reset : Nat
  rsv : Nat
  w1c : Nat
  deriving DecidableEq, Repr

namespace Reg

/-- SYS_ID (R129). -/
def sysId : Nat := 0x00000
/-- SYS_SERIAL_LO (R129). -/
def sysSerialLo : Nat := 0x00004
/-- SYS_SERIAL_HI (R129). -/
def sysSerialHi : Nat := 0x00008
/-- SYS_ADDR (R129). -/
def sysAddr : Nat := 0x0000C
/-- SYS_STAT (R129). -/
def sysStat : Nat := 0x00010
/-- SYS_IMAGE (R129). -/
def sysImage : Nat := 0x00014
/-- SYS_IMAGE_SEQ_LO (R129). -/
def sysImageSeqLo : Nat := 0x00018
/-- SYS_IMAGE_SEQ_HI (R129). -/
def sysImageSeqHi : Nat := 0x0001C
/-- SYS_CFG (R129). -/
def sysCfg : Nat := 0x00020
/-- SYS_CFG_SEQ_LO (R129). -/
def sysCfgSeqLo : Nat := 0x00024
/-- SYS_CFG_SEQ_HI (R129). -/
def sysCfgSeqHi : Nat := 0x00028
/-- SYS_REFUSE (R129). -/
def sysRefuse : Nat := 0x0002C
/-- SYS_RSTCAUSE (R129). -/
def sysRstcause : Nat := 0x00030
/-- SYS_RESET (R129). -/
def sysReset : Nat := 0x00034
/-- SYS_START_A (R129). -/
def sysStartA : Nat := 0x00038
/-- SYS_START_B (R129). -/
def sysStartB : Nat := 0x0003C
/-- SYS_PWRCYC (R129). -/
def sysPwrcyc : Nat := 0x00040
/-- SYS_OPTIME_LO (R129). -/
def sysOptimeLo : Nat := 0x00044
/-- SYS_OPTIME_HI (R129). -/
def sysOptimeHi : Nat := 0x00048
/-- SYS_COMMIT (R129). -/
def sysCommit : Nat := 0x00050
/-- SYS_COMMIT_PEND (R129). -/
def sysCommitPend : Nat := 0x00054
/-- SYS_COMMIT_DONE (R129). -/
def sysCommitDone : Nat := 0x00058
/-- SYS_COMMIT_FAIL (R129). -/
def sysCommitFail : Nat := 0x0005C
/-- SYS_COMMIT_SEQ (R129). -/
def sysCommitSeq : Nat := 0x00060
/-- SYS_CRESn (R129). -/
def sysCres (i : Nat) : Nat := 0x00080 + 4 * i
/-- SYS_ATTN (R129). -/
def sysAttn : Nat := 0x000C0
/-- SYS_ATTN_EN (R129). -/
def sysAttnEn : Nat := 0x000C4
/-- TTE_CTRL (R75). -/
def tteCtrl : Nat := 0x10000
/-- TTE_STAT (R75). -/
def tteStat : Nat := 0x10004
/-- TTE_CYCLE (R75). -/
def tteCycle : Nat := 0x10008
/-- TTE_MAJOR (R75). -/
def tteMajor : Nat := 0x1000C
/-- TTE_IDLE (R75). -/
def tteIdle : Nat := 0x10010
/-- TTE_SPARE (R75). -/
def tteSpare : Nat := 0x10014
/-- TTE_IDLE_MIN (R75). -/
def tteIdleMin : Nat := 0x10018
/-- TTE_IDLE_MINAT (R75). -/
def tteIdleMinat : Nat := 0x1001C
/-- TTE_ECC_STAT (R75). -/
def tteEccStat : Nat := 0x10020
/-- TTE_ECC_CODE (R75). -/
def tteEccCode : Nat := 0x10024
/-- TTE_ECC_DATA (R75). -/
def tteEccData : Nat := 0x10028
/-- TTE_ECC_QUE (R75). -/
def tteEccQue : Nat := 0x1002C
/-- TTE_ECC_LOG (R75). -/
def tteEccLog : Nat := 0x10030
/-- TTE_ECC_MIR (R75). -/
def tteEccMir : Nat := 0x10034
/-- TTE_ECC_PTAB (R75). -/
def tteEccPtab : Nat := 0x10038
/-- TTE_ECC_CLR (R75). -/
def tteEccClr : Nat := 0x1003C
/-- TTE_DED_ADDR (R75). -/
def tteDedAddr : Nat := 0x10040
/-- TTE_SCRUB_PASS (R75). -/
def tteScrubPass : Nat := 0x10044
/-- TTE_PF_SUM (R75). -/
def ttePfSum : Nat := 0x10048
/-- TTE_PF_SEL (R75). -/
def ttePfSel : Nat := 0x1004C
/-- TTE_PF_STAT (R75). -/
def ttePfStat : Nat := 0x10050
/-- TTE_FP_STAT (R75). -/
def tteFpStat : Nat := 0x10054
/-- TTE_FP_PATH (R75). -/
def tteFpPath : Nat := 0x10058
/-- TTE_XSUM (R75). -/
def tteXsum : Nat := 0x1005C
/-- TTE_XSEL (R75). -/
def tteXsel : Nat := 0x10060
/-- TTE_XCNT (R75). -/
def tteXcnt : Nat := 0x10064
/-- TTE_XCLR (R75). -/
def tteXclr : Nat := 0x10068
/-- TTE_LONGEST (R75). -/
def tteLongest : Nat := 0x1006C
/-- TTE_ARMn (R75). -/
def tteArm (i : Nat) : Nat := 0x10070 + 4 * i
/-- PWR_STAT (R152). -/
def pwrStat : Nat := 0x20000
/-- PWR_EVT (R152). -/
def pwrEvt : Nat := 0x20004
/-- PWR_VIN (R152). -/
def pwrVin : Nat := 0x20008
/-- PWR_VBANK (R152). -/
def pwrVbank : Nat := 0x2000C
/-- PWR_CBANK (R152). -/
def pwrCbank : Nat := 0x20010
/-- PWR_EAVAIL (R152). -/
def pwrEavail : Nat := 0x20014
/-- PWR_EHOLD (R152). -/
def pwrEhold : Nat := 0x20018
/-- PWR_EREQ_FULL (R152). -/
def pwrEreqFull : Nat := 0x2001C
/-- PWR_EREQ_CORE (R152). -/
def pwrEreqCore : Nat := 0x20020
/-- PWR_CHECK (R152). -/
def pwrCheck : Nat := 0x20024
/-- PWR_DIPS (R152). -/
def pwrDips : Nat := 0x20028
/-- PWR_DAILY (R152). -/
def pwrDaily : Nat := 0x2002C
/-- PWR_STAGGER (R152). -/
def pwrStagger : Nat := 0x20030
/-- PWR_STAGGER_HASH (R152). -/
def pwrStaggerHash : Nat := 0x20034
/-- PWR_STAGGER_MC (R152). -/
def pwrStaggerMc : Nat := 0x20038
/-- PWR_AGg_CFG0 (R152). -/
def pwrAgCfg0 (i : Nat) : Nat := 0x20100 + 16 * i
/-- PWR_AGg_CFG1 (R152). -/
def pwrAgCfg1 (i : Nat) : Nat := 0x20104 + 16 * i
/-- PWR_AGg_LEDGER (R152). -/
def pwrAgLedger (i : Nat) : Nat := 0x20108 + 16 * i
/-- PWR_AGg_WAIT (R152). -/
def pwrAgWait (i : Nat) : Nat := 0x2010C + 16 * i
/-- PWR_AGg_COUNT (R152). -/
def pwrAgCount (i : Nat) : Nat := 0x20180 + 4 * i
/-- MTR_STAT (R184). -/
def mtrStat : Nat := 0x30000
/-- MTR_EVT (R184). -/
def mtrEvt : Nat := 0x30004
/-- MTR_CALHOLD (R184). -/
def mtrCalhold : Nat := 0x30008
/-- MTR_FSTAT (R184). -/
def mtrFstat : Nat := 0x3000C
/-- MTR_FSEQ_LO (R184). -/
def mtrFseqLo : Nat := 0x30010
/-- MTR_FSEQ_HI (R184). -/
def mtrFseqHi : Nat := 0x30014
/-- MTR_START_GAP (R184). -/
def mtrStartGap : Nat := 0x30018
/-- MTR_GAPS (R184). -/
def mtrGaps : Nat := 0x3001C
/-- MTR_RESTORE (R184). -/
def mtrRestore : Nat := 0x30020
/-- MTR_SETA (R184). -/
def mtrSeta : Nat := 0x30024
/-- MTR_SETB (R184). -/
def mtrSetb : Nat := 0x30028
/-- MTR_FREQA (R184). -/
def mtrFreqa : Nat := 0x3002C
/-- MTR_FREQB (R184). -/
def mtrFreqb : Nat := 0x30030
/-- MTR_OVR (R184). -/
def mtrOvr : Nat := 0x30034
/-- MTR_STUCK (R184). -/
def mtrStuck : Nat := 0x30038
/-- MTR_CHn_CFG (R184). -/
def mtrChCfg (i : Nat) : Nat := 0x30100 + 16 * i
/-- MTR_CHn_OFFS (R184). -/
def mtrChOffs (i : Nat) : Nat := 0x30104 + 16 * i
/-- MTR_CHn_GAIN (R184). -/
def mtrChGain (i : Nat) : Nat := 0x30108 + 16 * i
/-- MTR_CHn_SCALE (R184). -/
def mtrChScale (i : Nat) : Nat := 0x3010C + 16 * i
/-- MTR_CIRc_CFG (R184). -/
def mtrCirCfg (i : Nat) : Nat := 0x30400 + 64 * i
/-- MTR_CIRc_NOLOAD (R184). -/
def mtrCirNoload (i : Nat) : Nat := 0x30404 + 64 * i
/-- MTR_CIRc_PGAIN (R184). -/
def mtrCirPgain (i : Nat) : Nat := 0x30408 + 64 * i
/-- MTR_CIRc_POFFS (R184). -/
def mtrCirPoffs (i : Nat) : Nat := 0x3040C + 64 * i
/-- MTR_CIRc_QGAIN (R184). -/
def mtrCirQgain (i : Nat) : Nat := 0x30410 + 64 * i
/-- MTR_CIRc_QOFFS (R184). -/
def mtrCirQoffs (i : Nat) : Nat := 0x30414 + 64 * i
/-- MTR_CIRc_VGAIN (R184). -/
def mtrCirVgain (i : Nat) : Nat := 0x30418 + 64 * i
/-- MTR_CIRc_VOFFS2 (R184). -/
def mtrCirVoffs2 (i : Nat) : Nat := 0x3041C + 64 * i
/-- MTR_CIRc_IGAIN (R184). -/
def mtrCirIgain (i : Nat) : Nat := 0x30420 + 64 * i
/-- MTR_CIRc_IOFFS2 (R184). -/
def mtrCirIoffs2 (i : Nat) : Nat := 0x30424 + 64 * i
/-- MTR_CIRc_STAT (R184). -/
def mtrCirStat (i : Nat) : Nat := 0x30428 + 64 * i
/-- MTR_CIRc_ICOUNT (R184). -/
def mtrCirIcount (i : Nat) : Nat := 0x3042C + 64 * i
/-- MTR_Cc_Pp_VRMS (R184). -/
def mtrCPVrms (i : Nat) (j : Nat) : Nat := 0x31000 + 128 * i + 32 * j
/-- MTR_Cc_Pp_IRMS (R184). -/
def mtrCPIrms (i : Nat) (j : Nat) : Nat := 0x31004 + 128 * i + 32 * j
/-- MTR_Cc_Pp_P (R184). -/
def mtrCPP (i : Nat) (j : Nat) : Nat := 0x31008 + 128 * i + 32 * j
/-- MTR_Cc_Pp_Q (R184). -/
def mtrCPQ (i : Nat) (j : Nat) : Nat := 0x3100C + 128 * i + 32 * j
/-- MTR_Cc_Pp_S (R184). -/
def mtrCPS (i : Nat) (j : Nat) : Nat := 0x31010 + 128 * i + 32 * j
/-- MTR_Cc_Pp_PF (R184). -/
def mtrCPPf (i : Nat) (j : Nat) : Nat := 0x31014 + 128 * i + 32 * j
/-- MTR_Cc_PTOT (R184). -/
def mtrCPtot (i : Nat) : Nat := 0x31060 + 128 * i
/-- MTR_Cc_QTOT (R184). -/
def mtrCQtot (i : Nat) : Nat := 0x31064 + 128 * i
/-- MTR_Cc_STOT (R184). -/
def mtrCStot (i : Nat) : Nat := 0x31068 + 128 * i
/-- MTR_Cc_PFTOT (R184). -/
def mtrCPftot (i : Nat) : Nat := 0x3106C + 128 * i
/-- MTR_TOTc_j_LO (R184). -/
def mtrTotLo (i : Nat) (j : Nat) : Nat := 0x32000 + 128 * i + 8 * j
/-- MTR_TOTc_j_HI (R184). -/
def mtrTotHi (i : Nat) (j : Nat) : Nat := 0x32004 + 128 * i + 8 * j
/-- MTR_FRACc_j (R184). -/
def mtrFrac (i : Nat) (j : Nat) : Nat := 0x32600 + 64 * i + 4 * j
/-- MTR_QKc_j (R184). -/
def mtrQk (i : Nat) (j : Nat) : Nat := 0x32A00 + 64 * i + 4 * j
/-- MTR_QWc_k (R184). -/
def mtrQw (i : Nat) (j : Nat) : Nat := 0x32C00 + 16 * i + 4 * j
/-- MTR_S0s_CFG (R184). -/
def mtrS0Cfg (i : Nat) : Nat := 0x33000 + 16 * i
/-- MTR_S0s_K (R184). -/
def mtrS0K (i : Nat) : Nat := 0x33004 + 16 * i
/-- MTR_S0s_EMIT (R184). -/
def mtrS0Emit (i : Nat) : Nat := 0x33008 + 16 * i
/-- MTR_S0s_LAG (R184). -/
def mtrS0Lag (i : Nat) : Nat := 0x3300C + 16 * i
/-- MTR_WC_CFG (R184). -/
def mtrWcCfg : Nat := 0x33100
/-- MTR_WC_MASK (R184). -/
def mtrWcMask : Nat := 0x33104
/-- MTR_WC_CTRL (R184). -/
def mtrWcCtrl : Nat := 0x33108
/-- MTR_WC_STAT (R184). -/
def mtrWcStat : Nat := 0x3310C
/-- MTR_HA_CFG (R184). -/
def mtrHaCfg : Nat := 0x33200
/-- MTR_HA_MASK (R184). -/
def mtrHaMask : Nat := 0x33204
/-- MTR_HA_STAT (R184). -/
def mtrHaStat : Nat := 0x33208
/-- DIO_STAT (R207). -/
def dioStat : Nat := 0x40000
/-- DIO_EVT (R207). -/
def dioEvt : Nat := 0x40004
/-- DIO_DIg_STATE (R207). -/
def dioDiState (i : Nat) : Nat := 0x40100 + 256 * i
/-- DIO_DIg_BREAK (R207). -/
def dioDiBreak (i : Nat) : Nat := 0x40104 + 256 * i
/-- DIO_DIg_SUPPLY (R207). -/
def dioDiSupply (i : Nat) : Nat := 0x40108 + 256 * i
/-- DIO_DIg_STIME (R207). -/
def dioDiStime (i : Nat) : Nat := 0x4010C + 256 * i
/-- DIO_DIg_BRKEN (R207). -/
def dioDiBrken (i : Nat) : Nat := 0x40110 + 256 * i
/-- DIO_DIg_CMODE (R207). -/
def dioDiCmode (i : Nat) : Nat := 0x40114 + 256 * i
/-- DIO_DIg_DEBc (R207). -/
def dioDiDeb (i : Nat) (j : Nat) : Nat := 0x40120 + 256 * i + 4 * j
/-- DIO_DIg_CNTk (R207). -/
def dioDiCnt (i : Nat) (j : Nat) : Nat := 0x40160 + 256 * i + 4 * j
/-- DIO_DOh_CMD (R207). -/
def dioDoCmd (i : Nat) : Nat := 0x40500 + 256 * i
/-- DIO_DOh_RB (R207). -/
def dioDoRb (i : Nat) : Nat := 0x40504 + 256 * i
/-- DIO_DOh_FAULT (R207). -/
def dioDoFault (i : Nat) : Nat := 0x40508 + 256 * i
/-- DIO_DOh_SUPPLY (R207). -/
def dioDoSupply (i : Nat) : Nat := 0x4050C + 256 * i
/-- DIO_DOh_STIME (R207). -/
def dioDoStime (i : Nat) : Nat := 0x40510 + 256 * i
/-- DIO_DOh_SAFE (R207). -/
def dioDoSafe (i : Nat) : Nat := 0x40514 + 256 * i
/-- DIO_DOh_OLEN (R207). -/
def dioDoOlen (i : Nat) : Nat := 0x40518 + 256 * i
/-- DIO_DOh_STARTc_0 (R207). -/
def dioDoStart0 (i : Nat) (j : Nat) : Nat := 0x40540 + 256 * i + 8 * j
/-- DIO_DOh_STARTc_1 (R207). -/
def dioDoStart1 (i : Nat) (j : Nat) : Nat := 0x40544 + 256 * i + 8 * j
/-- AIO_STAT (R225). -/
def aioStat : Nat := 0x50000
/-- AIO_EVT (R225). -/
def aioEvt : Nat := 0x50004
/-- AIO_AGa_STAT (R225). -/
def aioAgStat (i : Nat) : Nat := 0x50100 + 512 * i
/-- AIO_AGa_STIME (R225). -/
def aioAgStime (i : Nat) : Nat := 0x50104 + 512 * i
/-- AIO_AGa_CMD (R225). -/
def aioAgCmd (i : Nat) : Nat := 0x50108 + 512 * i
/-- AIO_AGa_DIAG (R225). -/
def aioAgDiag (i : Nat) : Nat := 0x50120 + 512 * i
/-- AIO_AGa_CHc_CFG (R225). -/
def aioAgChCfg (i : Nat) (j : Nat) : Nat := 0x50140 + 512 * i + 64 * j
/-- AIO_AGa_CHc_SAFE (R225). -/
def aioAgChSafe (i : Nat) (j : Nat) : Nat := 0x50144 + 512 * i + 64 * j
/-- AIO_AGa_CHc_ALARM (R225). -/
def aioAgChAlarm (i : Nat) (j : Nat) : Nat := 0x50148 + 512 * i + 64 * j
/-- AIO_AGa_CHc_TRIM (R225). -/
def aioAgChTrim (i : Nat) (j : Nat) : Nat := 0x5014C + 512 * i + 64 * j
/-- AIO_AGa_CHc_START0 (R225). -/
def aioAgChStart0 (i : Nat) (j : Nat) : Nat := 0x50150 + 512 * i + 64 * j
/-- AIO_AGa_CHc_START1 (R225). -/
def aioAgChStart1 (i : Nat) (j : Nat) : Nat := 0x50154 + 512 * i + 64 * j
/-- AIO_AGa_CHc_OUT (R225). -/
def aioAgChOut (i : Nat) (j : Nat) : Nat := 0x50158 + 512 * i + 64 * j
/-- AIO_AGa_CHc_RB (R225). -/
def aioAgChRb (i : Nat) (j : Nat) : Nat := 0x5015C + 512 * i + 64 * j
/-- AIO_AGa_CHc_AIN (R225). -/
def aioAgChAin (i : Nat) (j : Nat) : Nat := 0x50160 + 512 * i + 64 * j
/-- AIO_AGa_CHc_HEAD (R225). -/
def aioAgChHead (i : Nat) (j : Nat) : Nat := 0x50164 + 512 * i + 64 * j
/-- CTL_STAT (R254). -/
def ctlStat : Nat := 0x60000
/-- CTL_EVT (R254). -/
def ctlEvt : Nat := 0x60004
/-- CTL_NOW (R254). -/
def ctlNow : Nat := 0x60008
/-- CTL_FORCES (R254). -/
def ctlForces : Nat := 0x6000C
/-- CTL_PT_SEL (R254). -/
def ctlPtSel : Nat := 0x60010
/-- CTL_PT_WIN (R254). -/
def ctlPtWin : Nat := 0x60014
/-- CTL_LPSTALEq (R254). -/
def ctlLpstale (i : Nat) : Nat := 0x60040 + 4 * i
/-- CTL_PTWk_w (R254). -/
def ctlPtw (i : Nat) (j : Nat) : Nat := 0x60200 + 32 * i + 4 * j
/-- CTL_LPn_CFG (R254). -/
def ctlLpCfg (i : Nat) : Nat := 0x61000 + 128 * i
/-- CTL_LPn_PTA (R254). -/
def ctlLpPta (i : Nat) : Nat := 0x61004 + 128 * i
/-- CTL_LPn_PTB (R254). -/
def ctlLpPtb (i : Nat) : Nat := 0x61008 + 128 * i
/-- CTL_LPn_PTC (R254). -/
def ctlLpPtc (i : Nat) : Nat := 0x6100C + 128 * i
/-- CTL_LPn_KP (R254). -/
def ctlLpKp (i : Nat) : Nat := 0x61010 + 128 * i
/-- CTL_LPn_KI (R254). -/
def ctlLpKi (i : Nat) : Nat := 0x61014 + 128 * i
/-- CTL_LPn_KD (R254). -/
def ctlLpKd (i : Nat) : Nat := 0x61018 + 128 * i
/-- CTL_LPn_TF (R254). -/
def ctlLpTf (i : Nat) : Nat := 0x6101C + 128 * i
/-- CTL_LPn_OUTLO (R254). -/
def ctlLpOutlo (i : Nat) : Nat := 0x61020 + 128 * i
/-- CTL_LPn_OUTHI (R254). -/
def ctlLpOuthi (i : Nat) : Nat := 0x61024 + 128 * i
/-- CTL_LPn_SP (R254). -/
def ctlLpSp (i : Nat) : Nat := 0x61028 + 128 * i
/-- CTL_LPn_MANVAL (R254). -/
def ctlLpManval (i : Nat) : Nat := 0x6102C + 128 * i
/-- CTL_LPn_KFF (R254). -/
def ctlLpKff (i : Nat) : Nat := 0x61030 + 128 * i
/-- CTL_LPn_POSLO (R254). -/
def ctlLpPoslo (i : Nat) : Nat := 0x61034 + 128 * i
/-- CTL_LPn_POSHI (R254). -/
def ctlLpPoshi (i : Nat) : Nat := 0x61038 + 128 * i
/-- CTL_LPn_LIM (R254). -/
def ctlLpLim (i : Nat) : Nat := 0x6103C + 128 * i
/-- CTL_LPn_SCHED (R254). -/
def ctlLpSched (i : Nat) : Nat := 0x61040 + 128 * i
/-- CTL_LPn_STAT (R254). -/
def ctlLpStat (i : Nat) : Nat := 0x61044 + 128 * i
/-- CTL_LPn_EVT (R254). -/
def ctlLpEvt (i : Nat) : Nat := 0x61048 + 128 * i
/-- CTL_LPn_MISSES (R254). -/
def ctlLpMisses (i : Nat) : Nat := 0x6104C + 128 * i
/-- CTL_LPn_OUT (R254). -/
def ctlLpOut (i : Nat) : Nat := 0x61050 + 128 * i
/-- CTL_LPn_I (R254). -/
def ctlLpI (i : Nat) : Nat := 0x61054 + 128 * i
/-- CTL_LPn_PV (R254). -/
def ctlLpPv (i : Nat) : Nat := 0x61058 + 128 * i
/-- CTL_LPn_ERR (R254). -/
def ctlLpErr (i : Nat) : Nat := 0x6105C + 128 * i
/-- CTL_LPn_DT (R254). -/
def ctlLpDt (i : Nat) : Nat := 0x61060 + 128 * i
/-- CTL_LPn_COUNT (R254). -/
def ctlLpCount (i : Nat) : Nat := 0x61064 + 128 * i
/-- CTL_FRCf_CFG (R254). -/
def ctlFrcCfg (i : Nat) : Nat := 0x65000 + 8 * i
/-- CTL_FRCf_VAL (R254). -/
def ctlFrcVal (i : Nat) : Nat := 0x65004 + 8 * i
/-- CTL_STAs_CFG (R254). -/
def ctlStaCfg (i : Nat) : Nat := 0x65800 + 16 * i
/-- CTL_STAs_ID (R254). -/
def ctlStaId (i : Nat) : Nat := 0x65804 + 16 * i
/-- CTL_STAs_TIMEOUT (R254). -/
def ctlStaTimeout (i : Nat) : Nat := 0x65808 + 16 * i
/-- CTL_STAs_STAT (R254). -/
def ctlStaStat (i : Nat) : Nat := 0x6580C + 16 * i
/-- CTL_SVs_CFG (R254). -/
def ctlSvCfg (i : Nat) : Nat := 0x65C00 + 32 * i
/-- CTL_SVs_RESERVED (R254). -/
def ctlSvReserved (i : Nat) : Nat := 0x65C04 + 32 * i
/-- CTL_SVs_IDLE (R254). -/
def ctlSvIdle (i : Nat) : Nat := 0x65C08 + 32 * i
/-- CTL_SVs_IDLE_MIN (R254). -/
def ctlSvIdleMin (i : Nat) : Nat := 0x65C0C + 32 * i
/-- CTL_SVs_CYCLES (R254). -/
def ctlSvCycles (i : Nat) : Nat := 0x65C10 + 32 * i
/-- CTL_SVs_STAT (R254). -/
def ctlSvStat (i : Nat) : Nat := 0x65C14 + 32 * i
/-- CTL_SVs_FAULTS (R254). -/
def ctlSvFaults (i : Nat) : Nat := 0x65C18 + 32 * i
/-- CTL_TS_CFG (R254). -/
def ctlTsCfg : Nat := 0x65D00
/-- CTL_TS_AMP (R254). -/
def ctlTsAmp : Nat := 0x65D04
/-- CTL_TS_F0 (R254). -/
def ctlTsF0 : Nat := 0x65D08
/-- CTL_TS_F1 (R254). -/
def ctlTsF1 : Nat := 0x65D0C
/-- CTL_TS_CTRL (R254). -/
def ctlTsCtrl : Nat := 0x65D10
/-- CTL_TS_STAT (R254). -/
def ctlTsStat : Nat := 0x65D14
/-- CTL_FFW_SEL (R254). -/
def ctlFfwSel : Nat := 0x65E00
/-- CTL_FFW_VAL (R254). -/
def ctlFfwVal : Nat := 0x65E04
/-- CTL_FFW_STAT (R254). -/
def ctlFfwStat : Nat := 0x65E08
/-- FAB_STAT (R294). -/
def fabStat : Nat := 0x70000
/-- FAB_EVT (R294). -/
def fabEvt : Nat := 0x70004
/-- FAB_STATUS (R294). -/
def fabStatus : Nat := 0x70008
/-- FAB_POS (R294). -/
def fabPos : Nat := 0x7000C
/-- FAB_TPARENT (R294). -/
def fabTparent : Nat := 0x70010
/-- FAB_FAULT_DEST (R294). -/
def fabFaultDest : Nat := 0x70014
/-- FAB_PARCEL_CFG (R294). -/
def fabParcelCfg : Nat := 0x70018
/-- FAB_TIME_CFG (R294). -/
def fabTimeCfg : Nat := 0x7001C
/-- FAB_TIME_LO (R294). -/
def fabTimeLo : Nat := 0x70020
/-- FAB_TIME_HI (R294). -/
def fabTimeHi : Nat := 0x70024
/-- FAB_TIME_STAT (R294). -/
def fabTimeStat : Nat := 0x70028
/-- FAB_TIME_OFFSET (R294). -/
def fabTimeOffset : Nat := 0x7002C
/-- FAB_TIME_RATE (R294). -/
def fabTimeRate : Nat := 0x70030
/-- FAB_TIME_HOLD (R294). -/
def fabTimeHold : Nat := 0x70034
/-- FAB_ROUTE_STAT (R294). -/
def fabRouteStat : Nat := 0x70040
/-- FAB_DETOURS (R294). -/
def fabDetours : Nat := 0x70044
/-- FAB_COAL_STAT (R294). -/
def fabCoalStat : Nat := 0x70048
/-- FAB_COAL_CNT (R294). -/
def fabCoalCnt : Nat := 0x7004C
/-- FAB_TN_STAT (R294). -/
def fabTnStat : Nat := 0x70050
/-- FAB_RRA_STAT (R294). -/
def fabRraStat : Nat := 0x70054
/-- FAB_PARCEL_STAT (R294). -/
def fabParcelStat : Nat := 0x70058
/-- FAB_LKl_CFG (R294). -/
def fabLkCfg (i : Nat) : Nat := 0x70100 + 256 * i
/-- FAB_LKl_NBR (R294). -/
def fabLkNbr (i : Nat) : Nat := 0x70104 + 256 * i
/-- FAB_LKl_STAT (R294). -/
def fabLkStat (i : Nat) : Nat := 0x70108 + 256 * i
/-- FAB_LKl_DELAY (R294). -/
def fabLkDelay (i : Nat) : Nat := 0x7010C + 256 * i
/-- FAB_LKl_OFFSET (R294). -/
def fabLkOffset (i : Nat) : Nat := 0x70110 + 256 * i
/-- FAB_LKl_VIOL (R294). -/
def fabLkViol (i : Nat) : Nat := 0x70114 + 256 * i
/-- FAB_LKl_ERR0 (R294). -/
def fabLkErr0 (i : Nat) : Nat := 0x70118 + 256 * i
/-- FAB_LKl_ERR1 (R294). -/
def fabLkErr1 (i : Nat) : Nat := 0x7011C + 256 * i
/-- FAB_LKl_RX (R294). -/
def fabLkRx (i : Nat) : Nat := 0x70120 + 256 * i
/-- FAB_LKl_TX (R294). -/
def fabLkTx (i : Nat) : Nat := 0x70124 + 256 * i
/-- FAB_LKl_DROP (R294). -/
def fabLkDrop (i : Nat) : Nat := 0x70128 + 256 * i
/-- FAB_LKl_QUAR (R294). -/
def fabLkQuar (i : Nat) : Nat := 0x7012C + 256 * i
/-- FAB_LKl_SLOTMAPg (R294). -/
def fabLkSlotmap (i : Nat) (j : Nat) : Nat := 0x70140 + 256 * i + 4 * j
/-- CAN_CHc_CTRL (R321). -/
def canChCtrl (i : Nat) : Nat := 0x80000 + 2048 * i
/-- CAN_CHc_NBT (R321). -/
def canChNbt (i : Nat) : Nat := 0x80004 + 2048 * i
/-- CAN_CHc_DBT (R321). -/
def canChDbt (i : Nat) : Nat := 0x80008 + 2048 * i
/-- CAN_CHc_TDC (R321). -/
def canChTdc (i : Nat) : Nat := 0x8000C + 2048 * i
/-- CAN_CHc_STAT (R321). -/
def canChStat (i : Nat) : Nat := 0x80010 + 2048 * i
/-- CAN_CHc_EVT (R321). -/
def canChEvt (i : Nat) : Nat := 0x80014 + 2048 * i
/-- CAN_CHc_TXPEND (R321). -/
def canChTxpend (i : Nat) : Nat := 0x80018 + 2048 * i
/-- CAN_CHc_CNTk (R321). -/
def canChCnt (i : Nat) (j : Nat) : Nat := 0x80040 + 2048 * i + 4 * j
/-- CAN_CHc_MBb_ID (R321). -/
def canChMbId (i : Nat) (j : Nat) : Nat := 0x80100 + 2048 * i + 8 * j
/-- CAN_CHc_MBb_MASK (R321). -/
def canChMbMask (i : Nat) (j : Nat) : Nat := 0x80104 + 2048 * i + 8 * j
/-- MAC_Pp_CTRL (R322). -/
def macPCtrl (i : Nat) : Nat := 0x90000 + 2048 * i
/-- MAC_Pp_ADDR_LO (R322). -/
def macPAddrLo (i : Nat) : Nat := 0x90004 + 2048 * i
/-- MAC_Pp_ADDR_HI (R322). -/
def macPAddrHi (i : Nat) : Nat := 0x90008 + 2048 * i
/-- MAC_Pp_STAT (R322). -/
def macPStat (i : Nat) : Nat := 0x90010 + 2048 * i
/-- MAC_Pp_EVT (R322). -/
def macPEvt (i : Nat) : Nat := 0x90014 + 2048 * i
/-- MAC_Pp_CNTk (R322). -/
def macPCnt (i : Nat) (j : Nat) : Nat := 0x90080 + 2048 * i + 4 * j
/-- PAR_STAT (R342). -/
def parStat : Nat := 0xA0000
/-- PAR_EVT (R342). -/
def parEvt : Nat := 0xA0004
/-- PAR_CFG (R342). -/
def parCfg : Nat := 0xA0008
/-- PAR_SB (R342). -/
def parSb : Nat := 0xA000C
/-- PAR_TIMING (R342). -/
def parTiming : Nat := 0xA0010
/-- PAR_SAFE_DO (R342). -/
def parSafeDo : Nat := 0xA0014
/-- PAR_SAFE_AO (R342). -/
def parSafeAo : Nat := 0xA0018
/-- PAR_LEASE (R342). -/
def parLease : Nat := 0xA001C
/-- PAR_GATE (R342). -/
def parGate : Nat := 0xA0020
/-- PAR_KNOWN (R342). -/
def parKnown : Nat := 0xA0024
/-- PAR_CNT (R342). -/
def parCnt : Nat := 0xA0028
/-- PAR_TAKEOVERS (R342). -/
def parTakeovers : Nat := 0xA002C
/-- PAR_HB_TXw (R342). -/
def parHbTx (i : Nat) : Nat := 0xA0040 + 4 * i
/-- PAR_HB_RXw (R342). -/
def parHbRx (i : Nat) : Nat := 0xA0060 + 4 * i
/-- PAR_HB_AGE (R342). -/
def parHbAge : Nat := 0xA0080
/-- PAR_SBk_PAIR (R342). -/
def parSbPair (i : Nat) : Nat := 0xA0100 + 8 * i
/-- PAR_SBk_STAT (R342). -/
def parSbStat (i : Nat) : Nat := 0xA0104 + 8 * i
/-- LCD_STAT (R361). -/
def lcdStat : Nat := 0xB0000
/-- LCD_EVT (R361). -/
def lcdEvt : Nat := 0xB0004
/-- LCD_CFG (R361). -/
def lcdCfg : Nat := 0xB0008
/-- LCD_BADWORDS (R361). -/
def lcdBadwords : Nat := 0xB000C
/-- LCD_Pp_CFG (R361). -/
def lcdPCfg (i : Nat) : Nat := 0xB0100 + 256 * i
/-- LCD_Pp_FSEG (R361). -/
def lcdPFseg (i : Nat) : Nat := 0xB0104 + 256 * i
/-- LCD_Pp_NTC (R361). -/
def lcdPNtc (i : Nat) : Nat := 0xB0108 + 256 * i
/-- LCD_Pp_STAT (R361). -/
def lcdPStat (i : Nat) : Nat := 0xB010C + 256 * i
/-- LCD_Pp_CNT (R361). -/
def lcdPCnt (i : Nat) : Nat := 0xB0110 + 256 * i
/-- LCD_Pp_TEMP (R361). -/
def lcdPTemp (i : Nat) : Nat := 0xB0114 + 256 * i
/-- LCD_Pp_BANDb (R361). -/
def lcdPBand (i : Nat) (j : Nat) : Nat := 0xB0120 + 256 * i + 4 * j
/-- RTC_STAT (R376). -/
def rtcStat : Nat := 0xC0000
/-- RTC_EVT (R376). -/
def rtcEvt : Nat := 0xC0004
/-- RTC_TICK_LO (R376). -/
def rtcTickLo : Nat := 0xC0008
/-- RTC_TICK_HI (R376). -/
def rtcTickHi : Nat := 0xC000C
/-- RTC_ARG_LO (R376). -/
def rtcArgLo : Nat := 0xC0010
/-- RTC_ARG_HI (R376). -/
def rtcArgHi : Nat := 0xC0014
/-- RTC_CMD (R376). -/
def rtcCmd : Nat := 0xC0018
/-- RTC_SLEW (R376). -/
def rtcSlew : Nat := 0xC001C
/-- RTC_TRIM (R376). -/
def rtcTrim : Nat := 0xC0020
/-- RTC_DISC (R376). -/
def rtcDisc : Nat := 0xC0024
/-- RTC_CHG (R376). -/
def rtcChg : Nat := 0xC0028
/-- RTC_VBAK (R376). -/
def rtcVbak : Nat := 0xC002C
/-- RTC_BYTEw (R376). -/
def rtcByte (i : Nat) : Nat := 0xC0040 + 4 * i
/-- RTC_ALMn_LO (R376). -/
def rtcAlmLo (i : Nat) : Nat := 0xC0100 + 16 * i
/-- RTC_ALMn_HI (R376). -/
def rtcAlmHi (i : Nat) : Nat := 0xC0104 + 16 * i
/-- RTC_ALMn_PER (R376). -/
def rtcAlmPer (i : Nat) : Nat := 0xC0108 + 16 * i
/-- RTC_ALMn_CFG (R376). -/
def rtcAlmCfg (i : Nat) : Nat := 0xC010C + 16 * i
/-- RTC_ALMn_STAT (R376). -/
def rtcAlmStat (i : Nat) : Nat := 0xC0180 + 4 * i
/-- SEC_STAT (R409). -/
def secStat : Nat := 0xD0000
/-- SEC_EVT (R409). -/
def secEvt : Nat := 0xD0004
/-- SEC_COUNTER_LO (R409). -/
def secCounterLo : Nat := 0xD0008
/-- SEC_COUNTER_HI (R409). -/
def secCounterHi : Nat := 0xD000C
/-- SEC_FLOOR_LO (R409). -/
def secFloorLo : Nat := 0xD0010
/-- SEC_FLOOR_HI (R409). -/
def secFloorHi : Nat := 0xD0014
/-- SEC_EPOCH (R409). -/
def secEpoch : Nat := 0xD0018
/-- SEC_SLOTS (R409). -/
def secSlots : Nat := 0xD001C
/-- SEC_SLOTA_SEQ_LO (R409). -/
def secSlotaSeqLo : Nat := 0xD0020
/-- SEC_SLOTA_SEQ_HI (R409). -/
def secSlotaSeqHi : Nat := 0xD0024
/-- SEC_SLOTB_SEQ_LO (R409). -/
def secSlotbSeqLo : Nat := 0xD0028
/-- SEC_SLOTB_SEQ_HI (R409). -/
def secSlotbSeqHi : Nat := 0xD002C
/-- SEC_TRIAL (R409). -/
def secTrial : Nat := 0xD0030
/-- SEC_UPD_CFG (R409). -/
def secUpdCfg : Nat := 0xD0034
/-- SEC_XFER (R409). -/
def secXfer : Nat := 0xD0038
/-- SEC_XFER_STAT (R409). -/
def secXferStat : Nat := 0xD003C
/-- SEC_REQ (R409). -/
def secReq : Nat := 0xD0040
/-- SEC_RESP (R409). -/
def secResp : Nat := 0xD0044
/-- SEC_OUTLEN (R409). -/
def secOutlen : Nat := 0xD0048
/-- SEC_OBJ_CTRL (R409). -/
def secObjCtrl : Nat := 0xD004C
/-- SEC_OBJ_STAT (R409). -/
def secObjStat : Nat := 0xD0050
/-- SEC_CNT (R409). -/
def secCnt : Nat := 0xD0054
/-- SEC_ARGw (R409). -/
def secArg (i : Nat) : Nat := 0xD0080 + 4 * i
/-- SEC_OBJ_WINw (R409). -/
def secObjWin (i : Nat) : Nat := 0xD0100 + 4 * i
/-- SEC_OUTw (R409). -/
def secOut (i : Nat) : Nat := 0xD1000 + 4 * i
/-- LOG_STAT (R426). -/
def logStat : Nat := 0xE0000
/-- LOG_EVT (R426). -/
def logEvt : Nat := 0xE0004
/-- LOG_NEXT (R426). -/
def logNext : Nat := 0xE0008
/-- LOG_CFG (R426). -/
def logCfg : Nat := 0xE000C
/-- LOG_SEL (R426). -/
def logSel : Nat := 0xE0010
/-- LOG_WSTAT (R426). -/
def logWstat : Nat := 0xE0014
/-- LOG_WSEQ (R426). -/
def logWseq : Nat := 0xE0018
/-- LOG_ADVANCE (R426). -/
def logAdvance : Nat := 0xE001C
/-- LOG_WINw (R426). -/
def logWin (i : Nat) : Nat := 0xE0020 + 4 * i
/-- LOG_HPV0 (R426). -/
def logHpv0 : Nat := 0xE0040
/-- LOG_HPV1 (R426). -/
def logHpv1 : Nat := 0xE0044
/-- QUE_OVF_LO (R440). -/
def queOvfLo : Nat := 0xF0000
/-- QUE_OVF_HI (R440). -/
def queOvfHi : Nat := 0xF0004
/-- QUE_HIGH_LO (R440). -/
def queHighLo : Nat := 0xF0008
/-- QUE_HIGH_HI (R440). -/
def queHighHi : Nat := 0xF000C
/-- QUE_EVT (R440). -/
def queEvt : Nat := 0xF0010
/-- QUE_TOTAL (R440). -/
def queTotal : Nat := 0xF0014
/-- QUE_Qq_CFG (R440). -/
def queQCfg (i : Nat) : Nat := 0xF0100 + 32 * i
/-- QUE_Qq_WM (R440). -/
def queQWm (i : Nat) : Nat := 0xF0104 + 32 * i
/-- QUE_Qq_ENDS (R440). -/
def queQEnds (i : Nat) : Nat := 0xF0108 + 32 * i
/-- QUE_Qq_LEVEL (R440). -/
def queQLevel (i : Nat) : Nat := 0xF010C + 32 * i
/-- QUE_Qq_STAT (R440). -/
def queQStat (i : Nat) : Nat := 0xF0110 + 32 * i
/-- QUE_Qq_CNT (R440). -/
def queQCnt (i : Nat) : Nat := 0xF0114 + 32 * i
/-- QUE_Qq_DED (R440). -/
def queQDed (i : Nat) : Nat := 0xF0118 + 32 * i
/-- QUE_Qq_CLR (R440). -/
def queQClr (i : Nat) : Nat := 0xF011C + 32 * i
/-- QUE_Qq_DATA (R440). -/
def queQData (i : Nat) : Nat := 0xF1000 + 8 * i
/-- QUE_Qq_PUSH (R440). -/
def queQPush (i : Nat) : Nat := 0xF1004 + 8 * i

end Reg

/-- The registers of block 0, SYS (R129). -/
def rowsSys : List RegRow := [
  ⟨0x0, 1, 0, 1, 0, .ro, 0x1620, 0x0, 0x0⟩,
  ⟨0x4, 1, 0, 1, 0, .ro, 0x0, 0x0, 0x0⟩,
  ⟨0x8, 1, 0, 1, 0, .ro, 0x0, 0x0, 0x0⟩,
  ⟨0xC, 1, 0, 1, 0, .ro, 0x0, 0xFFFE0000, 0x0⟩,
  ⟨0x10, 1, 0, 1, 0, .ro, 0x0, 0xFFFFFF80, 0x0⟩,
  ⟨0x14, 1, 0, 1, 0, .ro, 0x0, 0xFFFFFFFC, 0x0⟩,
  ⟨0x18, 1, 0, 1, 0, .ro, 0x0, 0x0, 0x0⟩,
  ⟨0x1C, 1, 0, 1, 0, .ro, 0x0, 0x0, 0x0⟩,
  ⟨0x20, 1, 0, 1, 0, .ro, 0x0, 0xFFFE, 0x0⟩,
  ⟨0x24, 1, 0, 1, 0, .ro, 0x0, 0x0, 0x0⟩,
  ⟨0x28, 1, 0, 1, 0, .ro, 0x0, 0x0, 0x0⟩,
  ⟨0x2C, 1, 0, 1, 0, .ro, 0x0, 0xFE00, 0x0⟩,
  ⟨0x30, 1, 0, 1, 0, .ro, 0x0, 0xFFFFFFC0, 0x0⟩,
  ⟨0x34, 1, 0, 1, 0, .wo, 0x0, 0xFFFC, 0x0⟩,
  ⟨0x38, 1, 0, 1, 0, .ro, 0x0, 0x0, 0x0⟩,
  ⟨0x3C, 1, 0, 1, 0, .ro, 0x0, 0x0, 0x0⟩,
  ⟨0x40, 1, 0, 1, 0, .ro, 0x0, 0xFF000000, 0x0⟩,
  ⟨0x44, 1, 0, 1, 0, .ro, 0x0, 0x0, 0x0⟩,
  ⟨0x48, 1, 0, 1, 0, .ro, 0x0, 0xFFFF0000, 0x0⟩,
  ⟨0x50, 1, 0, 1, 0, .wo, 0x0, 0xFFFF0000, 0x0⟩,
  ⟨0x54, 1, 0, 1, 0, .ro, 0x0, 0xFFFF0000, 0x0⟩,
  ⟨0x58, 1, 0, 1, 0, .w1c, 0x0, 0xFFFF0000, 0xFFFF⟩,
  ⟨0x5C, 1, 0, 1, 0, .w1c, 0x0, 0xFFFF0000, 0xFFFF⟩,
  ⟨0x60, 1, 0, 1, 0, .ro, 0x0, 0x0, 0x0⟩] ++ [
  ⟨0x80, 16, 4, 1, 0, .ro, 0x0, 0x0, 0x0⟩,
  ⟨0xC0, 1, 0, 1, 0, .ro, 0x0, 0xFFFF0000, 0x0⟩,
  ⟨0xC4, 1, 0, 1, 0, .rw, 0x0, 0xFFFF0000, 0x0⟩]

/-- The registers of block 1, TTE (R75). -/
def rowsTte : List RegRow := [
  ⟨0x10000, 1, 0, 1, 0, .sh, 0x1, 0xFFFFC0FC, 0x0⟩,
  ⟨0x10004, 1, 0, 1, 0, .ro, 0x18, 0xFFFFFF00, 0x0⟩,
  ⟨0x10008, 1, 0, 1, 0, .ro, 0x0, 0xFFFF0000, 0x0⟩,
  ⟨0x1000C, 1, 0, 1, 0, .ro, 0x0, 0x0, 0x0⟩,
  ⟨0x10010, 1, 0, 1, 0, .ro, 0x0, 0xFFFE0000, 0x0⟩,
  ⟨0x10014, 1, 0, 1, 0, .ro, 0x0, 0xFFFE0000, 0x0⟩,
  ⟨0x10018, 1, 0, 1, 0, .rw, 0x1FFFF, 0xFFFE0000, 0x0⟩,
  ⟨0x1001C, 1, 0, 1, 0, .ro, 0x0, 0xFFFF0000, 0x0⟩,
  ⟨0x10020, 1, 0, 1, 0, .w1c, 0x0, 0xFFFFC000, 0x3FFF⟩,
  ⟨0x10024, 1, 0, 1, 0, .ro, 0x0, 0x0, 0x0⟩,
  ⟨0x10028, 1, 0, 1, 0, .ro, 0x0, 0x0, 0x0⟩,
  ⟨0x1002C, 1, 0, 1, 0, .ro, 0x0, 0x0, 0x0⟩,
  ⟨0x10030, 1, 0, 1, 0, .ro, 0x0, 0x0, 0x0⟩,
  ⟨0x10034, 1, 0, 1, 0, .ro, 0x0, 0x0, 0x0⟩,
  ⟨0x10038, 1, 0, 1, 0, .ro, 0x0, 0x0, 0x0⟩,
  ⟨0x1003C, 1, 0, 1, 0, .wo, 0x0, 0xFFFFFFC0, 0x0⟩,
  ⟨0x10040, 1, 0, 1, 0, .ro, 0x0, 0xFF000000, 0x0⟩,
  ⟨0x10044, 1, 0, 1, 0, .ro, 0x0, 0x0, 0x0⟩,
  ⟨0x10048, 1, 0, 1, 0, .ro, 0x0, 0xF000E000, 0x0⟩,
  ⟨0x1004C, 1, 0, 1, 0, .rw, 0x0, 0xFFFFF000, 0x0⟩,
  ⟨0x10050, 1, 0, 1, 0, .w1c, 0x0, 0xFFFF00F0, 0x1⟩,
  ⟨0x10054, 1, 0, 1, 0, .w1c, 0x0, 0xFFFFFFF0, 0xF⟩,
  ⟨0x10058, 1, 0, 1, 0, .ro, 0x0, 0xFFFFF000, 0x0⟩,
  ⟨0x1005C, 1, 0, 1, 0, .w1c, 0x0, 0xFE000001, 0x1FFFFFE⟩] ++ [
  ⟨0x10060, 1, 0, 1, 0, .rw, 0x0, 0xFFFFF800, 0x0⟩,
  ⟨0x10064, 1, 0, 1, 0, .ro, 0x0, 0x0, 0x0⟩,
  ⟨0x10068, 1, 0, 1, 0, .wo, 0x0, 0xFFFFFFFC, 0x0⟩,
  ⟨0x1006C, 1, 0, 1, 0, .ro, 0x0, 0xFFFE0000, 0x0⟩,
  ⟨0x10070, 8, 4, 1, 0, .rw, 0x0, 0x0, 0x0⟩]

/-- The registers of block 2, PWR (R152). -/
def rowsPwr : List RegRow := [
  ⟨0x20000, 1, 0, 1, 0, .ro, 0x0, 0xFFFFC000, 0x0⟩,
  ⟨0x20004, 1, 0, 1, 0, .w1c, 0x0, 0xFFFFFE00, 0x1FF⟩,
  ⟨0x20008, 1, 0, 1, 0, .ro, 0x0, 0xFFFF0000, 0x0⟩,
  ⟨0x2000C, 1, 0, 1, 0, .ro, 0x0, 0xFFFF0000, 0x0⟩,
  ⟨0x20010, 1, 0, 1, 0, .ro, 0x0, 0x0, 0x0⟩,
  ⟨0x20014, 1, 0, 1, 0, .ro, 0x0, 0x0, 0x0⟩,
  ⟨0x20018, 1, 0, 1, 0, .ro, 0x0, 0x0, 0x0⟩,
  ⟨0x2001C, 1, 0, 1, 0, .ro, 0x0, 0x0, 0x0⟩,
  ⟨0x20020, 1, 0, 1, 0, .ro, 0x0, 0x0, 0x0⟩,
  ⟨0x20024, 1, 0, 1, 0, .ro, 0x0, 0x0, 0x0⟩,
  ⟨0x20028, 1, 0, 1, 0, .ro, 0x0, 0x0, 0x0⟩,
  ⟨0x2002C, 1, 0, 1, 0, .sh, 0x0, 0xFFFE0000, 0x0⟩,
  ⟨0x20030, 1, 0, 1, 0, .sh, 0xFA0, 0xFFFFE000, 0x0⟩,
  ⟨0x20034, 1, 0, 1, 0, .ro, 0x0, 0x0, 0x0⟩,
  ⟨0x20038, 1, 0, 1, 0, .ro, 0x0, 0xFFF80000, 0x0⟩,
  ⟨0x20100, 6, 16, 1, 0, .sh, 0xFFFFFFFF, 0x0, 0x0⟩,
  ⟨0x20104, 6, 16, 1, 0, .sh, 0xFFFF, 0xFFFF0000, 0x0⟩,
  ⟨0x20108, 6, 16, 1, 0, .ro, 0x0, 0x0, 0x0⟩,
  ⟨0x2010C, 6, 16, 1, 0, .w1c, 0x0, 0x0, 0xFFFF0000⟩,
  ⟨0x20180, 6, 4, 1, 0, .ro, 0x0, 0x0, 0x0⟩]

/-- The registers of block 3, MTR (R184). -/
def rowsMtr : List RegRow := [
  ⟨0x30000, 1, 0, 1, 0, .ro, 0x0, 0xFFFFE000, 0x0⟩,
  ⟨0x30004, 1, 0, 1, 0, .w1c, 0x0, 0xFFFFFC00, 0x3FF⟩,
  ⟨0x30008, 1, 0, 1, 0, .rw, 0x0, 0xFFFFFF00, 0x0⟩,
  ⟨0x3000C, 1, 0, 1, 0, .ro, 0x0, 0xFFFF00F8, 0x0⟩,
  ⟨0x30010, 1, 0, 1, 0, .ro, 0x0, 0x0, 0x0⟩,
  ⟨0x30014, 1, 0, 1, 0, .ro, 0x0, 0x0, 0x0⟩,
  ⟨0x30018, 1, 0, 1, 0, .ro, 0xFFFFFFFF, 0x0, 0x0⟩,
  ⟨0x3001C, 1, 0, 1, 0, .ro, 0x0, 0x0, 0x0⟩,
  ⟨0x30020, 1, 0, 1, 0, .sh, 0x0, 0xFFE00000, 0x0⟩,
  ⟨0x30024, 1, 0, 1, 0, .sh, 0xE60000, 0xFFFE, 0x0⟩,
  ⟨0x30028, 1, 0, 1, 0, .sh, 0xE60000, 0xFFFE, 0x0⟩,
  ⟨0x3002C, 1, 0, 1, 0, .ro, 0x7FC00000, 0x0, 0x0⟩,
  ⟨0x30030, 1, 0, 1, 0, .ro, 0x7FC00000, 0x0, 0x0⟩,
  ⟨0x30034, 1, 0, 1, 0, .w1c, 0x0, 0xC0000000, 0x3FFFFFFF⟩,
  ⟨0x30038, 1, 0, 1, 0, .ro, 0x0, 0xC0000000, 0x0⟩,
  ⟨0x30100, 30, 16, 1, 0, .sh, 0x0, 0xFFF8, 0x0⟩,
  ⟨0x30104, 30, 16, 1, 0, .sh, 0x0, 0x0, 0x0⟩,
  ⟨0x30108, 30, 16, 1, 0, .sh, 0x3F800000, 0x0, 0x0⟩,
  ⟨0x3010C, 30, 16, 1, 0, .sh, 0x3F800000, 0x0, 0x0⟩,
  ⟨0x30400, 8, 64, 1, 0, .sh, 0x0, 0xFFFE00F0, 0x0⟩,
  ⟨0x30404, 8, 64, 1, 0, .sh, 0x0, 0x0, 0x0⟩,
  ⟨0x30408, 8, 64, 1, 0, .sh, 0x3F800000, 0x0, 0x0⟩,
  ⟨0x3040C, 8, 64, 1, 0, .sh, 0x0, 0x0, 0x0⟩,
  ⟨0x30410, 8, 64, 1, 0, .sh, 0x3F800000, 0x0, 0x0⟩] ++ [
  ⟨0x30414, 8, 64, 1, 0, .sh, 0x0, 0x0, 0x0⟩,
  ⟨0x30418, 8, 64, 1, 0, .sh, 0x3F800000, 0x0, 0x0⟩,
  ⟨0x3041C, 8, 64, 1, 0, .sh, 0x0, 0x0, 0x0⟩,
  ⟨0x30420, 8, 64, 1, 0, .sh, 0x3F800000, 0x0, 0x0⟩,
  ⟨0x30424, 8, 64, 1, 0, .sh, 0x0, 0x0, 0x0⟩,
  ⟨0x30428, 8, 64, 1, 0, .ro, 0x80, 0xFFFFFF00, 0x0⟩,
  ⟨0x3042C, 8, 64, 1, 0, .ro, 0x0, 0x0, 0x0⟩,
  ⟨0x31000, 8, 128, 3, 32, .ro, 0x0, 0x0, 0x0⟩,
  ⟨0x31004, 8, 128, 3, 32, .ro, 0x0, 0x0, 0x0⟩,
  ⟨0x31008, 8, 128, 3, 32, .ro, 0x0, 0x0, 0x0⟩,
  ⟨0x3100C, 8, 128, 3, 32, .ro, 0x0, 0x0, 0x0⟩,
  ⟨0x31010, 8, 128, 3, 32, .ro, 0x0, 0x0, 0x0⟩,
  ⟨0x31014, 8, 128, 3, 32, .ro, 0x0, 0x0, 0x0⟩,
  ⟨0x31060, 8, 128, 1, 0, .ro, 0x0, 0x0, 0x0⟩,
  ⟨0x31064, 8, 128, 1, 0, .ro, 0x0, 0x0, 0x0⟩,
  ⟨0x31068, 8, 128, 1, 0, .ro, 0x0, 0x0, 0x0⟩,
  ⟨0x3106C, 8, 128, 1, 0, .ro, 0x0, 0x0, 0x0⟩,
  ⟨0x32000, 8, 128, 9, 8, .ro, 0x0, 0x0, 0x0⟩,
  ⟨0x32004, 8, 128, 9, 8, .ro, 0x0, 0x0, 0x0⟩,
  ⟨0x32600, 8, 64, 9, 4, .ro, 0x0, 0x0, 0x0⟩,
  ⟨0x32A00, 8, 64, 9, 4, .ro, 0x0, 0x0, 0x0⟩,
  ⟨0x32C00, 8, 16, 3, 4, .ro, 0x0, 0x0, 0x0⟩,
  ⟨0x33000, 8, 16, 1, 0, .sh, 0x0, 0xFFFF0000, 0x0⟩,
  ⟨0x33004, 8, 16, 1, 0, .sh, 0x0, 0x0, 0x0⟩] ++ [
  ⟨0x33008, 8, 16, 1, 0, .ro, 0x0, 0x0, 0x0⟩,
  ⟨0x3300C, 8, 16, 1, 0, .ro, 0x0, 0x0, 0x0⟩,
  ⟨0x33100, 1, 0, 1, 0, .sh, 0x0, 0xFFFFFEC0, 0x0⟩,
  ⟨0x33104, 1, 0, 1, 0, .rw, 0x0, 0xC0000000, 0x0⟩,
  ⟨0x33108, 1, 0, 1, 0, .rw, 0x0, 0xFFFE, 0x0⟩,
  ⟨0x3310C, 1, 0, 1, 0, .ro, 0x0, 0xFFF8, 0x0⟩,
  ⟨0x33200, 1, 0, 1, 0, .sh, 0x0, 0xFFFFFEC0, 0x0⟩,
  ⟨0x33204, 1, 0, 1, 0, .sh, 0x0, 0xC0000000, 0x0⟩,
  ⟨0x33208, 1, 0, 1, 0, .ro, 0x0, 0x0, 0x0⟩]

/-- The registers of block 4, DIO (R207). -/
def rowsDio : List RegRow := [
  ⟨0x40000, 1, 0, 1, 0, .ro, 0x0, 0xFFFFC000, 0x0⟩,
  ⟨0x40004, 1, 0, 1, 0, .w1c, 0x0, 0xFFFFFFC0, 0x3F⟩,
  ⟨0x40100, 4, 256, 1, 0, .ro, 0x0, 0x0, 0x0⟩,
  ⟨0x40104, 4, 256, 1, 0, .ro, 0x0, 0x0, 0x0⟩,
  ⟨0x40108, 4, 256, 1, 0, .ro, 0x0, 0x0, 0x0⟩,
  ⟨0x4010C, 4, 256, 1, 0, .ro, 0x0, 0x0, 0x0⟩,
  ⟨0x40110, 4, 256, 1, 0, .sh, 0x0, 0xFFFF0000, 0x0⟩,
  ⟨0x40114, 4, 256, 1, 0, .sh, 0x0, 0xFF000000, 0x0⟩,
  ⟨0x40120, 4, 256, 16, 4, .sh, 0xBB8, 0xFFFF0000, 0x0⟩,
  ⟨0x40160, 4, 256, 8, 4, .ro, 0x0, 0x0, 0x0⟩,
  ⟨0x40500, 2, 256, 1, 0, .ro, 0x0, 0x0, 0x0⟩,
  ⟨0x40504, 2, 256, 1, 0, .ro, 0x0, 0x0, 0x0⟩,
  ⟨0x40508, 2, 256, 1, 0, .ro, 0x0, 0x0, 0x0⟩,
  ⟨0x4050C, 2, 256, 1, 0, .ro, 0x0, 0x0, 0x0⟩,
  ⟨0x40510, 2, 256, 1, 0, .ro, 0x0, 0x0, 0x0⟩,
  ⟨0x40514, 2, 256, 1, 0, .sh, 0x0, 0x0, 0x0⟩,
  ⟨0x40518, 2, 256, 1, 0, .sh, 0x0, 0xFFFF0000, 0x0⟩,
  ⟨0x40540, 2, 256, 16, 8, .sh, 0x0, 0x0, 0x0⟩,
  ⟨0x40544, 2, 256, 16, 8, .sh, 0x0, 0xFFFC, 0x0⟩]

/-- The registers of block 5, AIO (R225). -/
def rowsAio : List RegRow := [
  ⟨0x50000, 1, 0, 1, 0, .ro, 0x0, 0xF0000000, 0x0⟩,
  ⟨0x50004, 1, 0, 1, 0, .w1c, 0x0, 0xFFFFFF80, 0x7F⟩,
  ⟨0x50100, 4, 512, 1, 0, .ro, 0x0, 0x0, 0x0⟩,
  ⟨0x50104, 4, 512, 1, 0, .ro, 0x0, 0x0, 0x0⟩,
  ⟨0x50108, 4, 512, 1, 0, .ro, 0x0, 0xFFF0FEF0, 0x0⟩,
  ⟨0x50120, 4, 512, 1, 0, .sh, 0x100A4, 0xFFFE0000, 0x0⟩,
  ⟨0x50140, 4, 512, 4, 64, .sh, 0x0, 0xFFFFFF88, 0x0⟩,
  ⟨0x50144, 4, 512, 4, 64, .sh, 0x2AAB, 0xFFFF0000, 0x0⟩,
  ⟨0x50148, 4, 512, 4, 64, .sh, 0xE0002666, 0x0, 0x0⟩,
  ⟨0x5014C, 4, 512, 4, 64, .sh, 0x0, 0xF000F000, 0x0⟩,
  ⟨0x50150, 4, 512, 4, 64, .sh, 0x0, 0x0, 0x0⟩,
  ⟨0x50154, 4, 512, 4, 64, .sh, 0x0, 0xFFFC, 0x0⟩,
  ⟨0x50158, 4, 512, 4, 64, .ro, 0x0, 0xFFFC0000, 0x0⟩,
  ⟨0x5015C, 4, 512, 4, 64, .ro, 0x0, 0x0, 0x0⟩,
  ⟨0x50160, 4, 512, 4, 64, .ro, 0x0, 0x0, 0x0⟩,
  ⟨0x50164, 4, 512, 4, 64, .ro, 0x0, 0x0, 0x0⟩]

/-- The registers of block 6, CTL (R254). -/
def rowsCtl : List RegRow := [
  ⟨0x60000, 1, 0, 1, 0, .ro, 0x0, 0xFFFFFFE0, 0x0⟩,
  ⟨0x60004, 1, 0, 1, 0, .w1c, 0x0, 0xFFFFFF00, 0xFF⟩,
  ⟨0x60008, 1, 0, 1, 0, .ro, 0x0, 0x0, 0x0⟩,
  ⟨0x6000C, 1, 0, 1, 0, .ro, 0x0, 0xFFFFFE00, 0x0⟩,
  ⟨0x60010, 1, 0, 1, 0, .rw, 0x0, 0xFFFFFF00, 0x0⟩,
  ⟨0x60014, 1, 0, 1, 0, .ro, 0x0, 0xFF00, 0x0⟩,
  ⟨0x60040, 4, 4, 1, 0, .ro, 0x0, 0x0, 0x0⟩,
  ⟨0x60200, 16, 32, 8, 4, .ro, 0x0, 0x0, 0x0⟩,
  ⟨0x61000, 128, 128, 1, 0, .sh, 0x10000, 0xE000FFC0, 0x0⟩,
  ⟨0x61004, 128, 128, 1, 0, .sh, 0x0, 0xF000F000, 0x0⟩,
  ⟨0x61008, 128, 128, 1, 0, .sh, 0x0, 0xE000F000, 0x0⟩,
  ⟨0x6100C, 128, 128, 1, 0, .sh, 0x0, 0xFFE0F000, 0x0⟩,
  ⟨0x61010, 128, 128, 1, 0, .sh, 0x0, 0x0, 0x0⟩,
  ⟨0x61014, 128, 128, 1, 0, .sh, 0x0, 0x0, 0x0⟩,
  ⟨0x61018, 128, 128, 1, 0, .sh, 0x0, 0x0, 0x0⟩,
  ⟨0x6101C, 128, 128, 1, 0, .sh, 0x0, 0x0, 0x0⟩,
  ⟨0x61020, 128, 128, 1, 0, .sh, 0x0, 0x0, 0x0⟩,
  ⟨0x61024, 128, 128, 1, 0, .sh, 0x42C80000, 0x0, 0x0⟩,
  ⟨0x61028, 128, 128, 1, 0, .sh, 0x0, 0x0, 0x0⟩,
  ⟨0x6102C, 128, 128, 1, 0, .sh, 0x0, 0x0, 0x0⟩,
  ⟨0x61030, 128, 128, 1, 0, .sh, 0x0, 0x0, 0x0⟩,
  ⟨0x61034, 128, 128, 1, 0, .sh, 0x0, 0x0, 0x0⟩,
  ⟨0x61038, 128, 128, 1, 0, .sh, 0x42C80000, 0x0, 0x0⟩,
  ⟨0x6103C, 128, 128, 1, 0, .sh, 0x0, 0xFFFF0000, 0x0⟩] ++ [
  ⟨0x61040, 128, 128, 1, 0, .ro, 0x0, 0x7FFF0000, 0x0⟩,
  ⟨0x61044, 128, 128, 1, 0, .ro, 0x200, 0xFFFFFC00, 0x0⟩,
  ⟨0x61048, 128, 128, 1, 0, .w1c, 0x0, 0xFFFFFFFC, 0x3⟩,
  ⟨0x6104C, 128, 128, 1, 0, .ro, 0x0, 0x0, 0x0⟩,
  ⟨0x61050, 128, 128, 1, 0, .ro, 0x0, 0x0, 0x0⟩,
  ⟨0x61054, 128, 128, 1, 0, .ro, 0x0, 0x0, 0x0⟩,
  ⟨0x61058, 128, 128, 1, 0, .ro, 0x0, 0x0, 0x0⟩,
  ⟨0x6105C, 128, 128, 1, 0, .ro, 0x0, 0x0, 0x0⟩,
  ⟨0x61060, 128, 128, 1, 0, .ro, 0x0, 0x0, 0x0⟩,
  ⟨0x61064, 128, 128, 1, 0, .ro, 0x0, 0x0, 0x0⟩,
  ⟨0x65000, 256, 8, 1, 0, .sh, 0x0, 0xFFFF7000, 0x0⟩,
  ⟨0x65004, 256, 8, 1, 0, .sh, 0x0, 0x0, 0x0⟩,
  ⟨0x65800, 64, 16, 1, 0, .sh, 0x100, 0xFFFF0008, 0x0⟩,
  ⟨0x65804, 64, 16, 1, 0, .sh, 0x0, 0x0, 0x0⟩,
  ⟨0x65808, 64, 16, 1, 0, .sh, 0x0, 0xFFFF0000, 0x0⟩,
  ⟨0x6580C, 64, 16, 1, 0, .ro, 0x0, 0xFFF8, 0x0⟩,
  ⟨0x65C00, 4, 32, 1, 0, .ro, 0x0, 0x7F000000, 0x0⟩,
  ⟨0x65C04, 4, 32, 1, 0, .ro, 0x0, 0x0, 0x0⟩,
  ⟨0x65C08, 4, 32, 1, 0, .ro, 0x0, 0x0, 0x0⟩,
  ⟨0x65C0C, 4, 32, 1, 0, .rw, 0xFFFFFFFF, 0x0, 0x0⟩,
  ⟨0x65C10, 4, 32, 1, 0, .ro, 0x0, 0x0, 0x0⟩,
  ⟨0x65C14, 4, 32, 1, 0, .ro, 0x0, 0xFFFFFFFC, 0x0⟩,
  ⟨0x65C18, 4, 32, 1, 0, .ro, 0x0, 0xFFFF0000, 0x0⟩,
  ⟨0x65D00, 1, 0, 1, 0, .sh, 0x1000000, 0xC0EC80, 0x0⟩] ++ [
  ⟨0x65D04, 1, 0, 1, 0, .sh, 0x0, 0x0, 0x0⟩,
  ⟨0x65D08, 1, 0, 1, 0, .sh, 0x0, 0x0, 0x0⟩,
  ⟨0x65D0C, 1, 0, 1, 0, .sh, 0x0, 0x0, 0x0⟩,
  ⟨0x65D10, 1, 0, 1, 0, .rw, 0x0, 0xE000FFFE, 0x0⟩,
  ⟨0x65D14, 1, 0, 1, 0, .ro, 0x0, 0xE000FF80, 0x0⟩,
  ⟨0x65E00, 1, 0, 1, 0, .sh, 0x0, 0xFFFE0080, 0x0⟩,
  ⟨0x65E04, 1, 0, 1, 0, .sh, 0x0, 0x0, 0x0⟩,
  ⟨0x65E08, 1, 0, 1, 0, .ro, 0x0, 0xFFFF0000, 0x0⟩]

/-- The registers of block 7, FAB (R294). -/
def rowsFab : List RegRow := [
  ⟨0x70000, 1, 0, 1, 0, .ro, 0x0, 0xFFF00000, 0x0⟩,
  ⟨0x70004, 1, 0, 1, 0, .w1c, 0x0, 0xFFFFF800, 0x7FF⟩,
  ⟨0x70008, 1, 0, 1, 0, .ro, 0x0, 0xFFFFF800, 0x0⟩,
  ⟨0x7000C, 1, 0, 1, 0, .sh, 0x0, 0xFFFC0000, 0x0⟩,
  ⟨0x70010, 1, 0, 1, 0, .sh, 0x0, 0xFFFFFF00, 0x0⟩,
  ⟨0x70014, 1, 0, 1, 0, .sh, 0x0, 0xFFFE0000, 0x0⟩,
  ⟨0x70018, 1, 0, 1, 0, .sh, 0x0, 0xFFFF00E0, 0x0⟩,
  ⟨0x7001C, 1, 0, 1, 0, .sh, 0x4, 0xFFFFFFF8, 0x0⟩,
  ⟨0x70020, 1, 0, 1, 0, .ro, 0x0, 0x0, 0x0⟩,
  ⟨0x70024, 1, 0, 1, 0, .ro, 0x0, 0x0, 0x0⟩,
  ⟨0x70028, 1, 0, 1, 0, .ro, 0x3F00, 0xC000, 0x0⟩,
  ⟨0x7002C, 1, 0, 1, 0, .ro, 0x0, 0x0, 0x0⟩,
  ⟨0x70030, 1, 0, 1, 0, .ro, 0x0, 0x0, 0x0⟩,
  ⟨0x70034, 1, 0, 1, 0, .ro, 0x0, 0x0, 0x0⟩,
  ⟨0x70040, 1, 0, 1, 0, .ro, 0x0, 0xFFFF0000, 0x0⟩,
  ⟨0x70044, 1, 0, 1, 0, .ro, 0x0, 0x0, 0x0⟩,
  ⟨0x70048, 1, 0, 1, 0, .ro, 0x0, 0xFE00, 0x0⟩,
  ⟨0x7004C, 1, 0, 1, 0, .ro, 0x0, 0x0, 0x0⟩,
  ⟨0x70050, 1, 0, 1, 0, .ro, 0x0, 0x0, 0x0⟩,
  ⟨0x70054, 1, 0, 1, 0, .ro, 0x0, 0x0, 0x0⟩,
  ⟨0x70058, 1, 0, 1, 0, .ro, 0x0, 0xFC000000, 0x0⟩,
  ⟨0x70100, 8, 256, 1, 0, .sh, 0x0, 0xFFFFFFFE, 0x0⟩,
  ⟨0x70104, 8, 256, 1, 0, .sh, 0x0, 0xFFF00000, 0x0⟩,
  ⟨0x70108, 8, 256, 1, 0, .ro, 0x0, 0xFFFF0008, 0x0⟩] ++ [
  ⟨0x7010C, 8, 256, 1, 0, .ro, 0x0, 0xFFFF0000, 0x0⟩,
  ⟨0x70110, 8, 256, 1, 0, .ro, 0x0, 0x0, 0x0⟩,
  ⟨0x70114, 8, 256, 1, 0, .ro, 0x0, 0x0, 0x0⟩,
  ⟨0x70118, 8, 256, 1, 0, .ro, 0x0, 0x0, 0x0⟩,
  ⟨0x7011C, 8, 256, 1, 0, .ro, 0x0, 0x0, 0x0⟩,
  ⟨0x70120, 8, 256, 1, 0, .ro, 0x0, 0x0, 0x0⟩,
  ⟨0x70124, 8, 256, 1, 0, .ro, 0x0, 0x0, 0x0⟩,
  ⟨0x70128, 8, 256, 1, 0, .ro, 0x0, 0x0, 0x0⟩,
  ⟨0x7012C, 8, 256, 1, 0, .ro, 0x0, 0xFFFF0000, 0x0⟩,
  ⟨0x70140, 8, 256, 8, 4, .sh, 0x0, 0xFF000000, 0x0⟩]

/-- The registers of block 8, CAN (R321). -/
def rowsCan : List RegRow := [
  ⟨0x80000, 12, 2048, 1, 0, .sh, 0x30, 0xF000, 0x0⟩,
  ⟨0x80004, 12, 2048, 1, 0, .sh, 0xF3E1E01, 0x80000000, 0x0⟩,
  ⟨0x80008, 12, 2048, 1, 0, .sh, 0x91C0900, 0xF0E0F0E0, 0x0⟩,
  ⟨0x8000C, 12, 2048, 1, 0, .sh, 0x0, 0xFFFE8080, 0x0⟩,
  ⟨0x80010, 12, 2048, 1, 0, .ro, 0x30000, 0x0, 0x0⟩,
  ⟨0x80014, 12, 2048, 1, 0, .w1c, 0x0, 0xFFFFFF00, 0xFF⟩,
  ⟨0x80018, 12, 2048, 1, 0, .ro, 0x0, 0x0, 0x0⟩,
  ⟨0x80040, 12, 2048, 16, 4, .ro, 0x0, 0x0, 0x0⟩,
  ⟨0x80100, 12, 2048, 48, 8, .sh, 0x0, 0x0, 0x0⟩,
  ⟨0x80104, 12, 2048, 48, 8, .sh, 0x0, 0xC0000000, 0x0⟩]

/-- The registers of block 9, MAC (R322). -/
def rowsMac : List RegRow := [
  ⟨0x90000, 12, 2048, 1, 0, .sh, 0x1000100, 0xF800, 0x0⟩,
  ⟨0x90004, 12, 2048, 1, 0, .sh, 0x0, 0x0, 0x0⟩,
  ⟨0x90008, 12, 2048, 1, 0, .sh, 0x0, 0xFFFF0000, 0x0⟩,
  ⟨0x90010, 12, 2048, 1, 0, .ro, 0x0, 0x0, 0x0⟩,
  ⟨0x90014, 12, 2048, 1, 0, .w1c, 0x0, 0xFFFFFF80, 0x7F⟩,
  ⟨0x90080, 12, 2048, 32, 4, .ro, 0x0, 0x0, 0x0⟩]

/-- The registers of block 10, PAR (R342). -/
def rowsPar : List RegRow := [
  ⟨0xA0000, 1, 0, 1, 0, .ro, 0x0, 0xFFFFFF00, 0x0⟩,
  ⟨0xA0004, 1, 0, 1, 0, .w1c, 0x0, 0xFFFFFE00, 0x1FF⟩,
  ⟨0xA0008, 1, 0, 1, 0, .sh, 0x0, 0xFFFF00FC, 0x0⟩,
  ⟨0xA000C, 1, 0, 1, 0, .sh, 0xFFFF, 0xFFFF0000, 0x0⟩,
  ⟨0xA0010, 1, 0, 1, 0, .sh, 0x1F4, 0xFFFF0000, 0x0⟩,
  ⟨0xA0014, 1, 0, 1, 0, .sh, 0x0, 0x0, 0x0⟩,
  ⟨0xA0018, 1, 0, 1, 0, .sh, 0x0, 0xFFFF0000, 0x0⟩,
  ⟨0xA001C, 1, 0, 1, 0, .rw, 0x0, 0xFFF80000, 0x0⟩,
  ⟨0xA0020, 1, 0, 1, 0, .rw, 0x0, 0xFFFFFFFE, 0x0⟩,
  ⟨0xA0024, 1, 0, 1, 0, .ro, 0x0, 0xFFFF0000, 0x0⟩,
  ⟨0xA0028, 1, 0, 1, 0, .ro, 0x0, 0x0, 0x0⟩,
  ⟨0xA002C, 1, 0, 1, 0, .ro, 0x0, 0x0, 0x0⟩,
  ⟨0xA0040, 7, 4, 1, 0, .rw, 0x0, 0x0, 0x0⟩,
  ⟨0xA0060, 8, 4, 1, 0, .ro, 0x0, 0x0, 0x0⟩,
  ⟨0xA0080, 1, 0, 1, 0, .ro, 0xFFFFFFFF, 0x0, 0x0⟩,
  ⟨0xA0100, 16, 8, 1, 0, .sh, 0x0, 0xFFFE0000, 0x0⟩,
  ⟨0xA0104, 16, 8, 1, 0, .ro, 0x0, 0xFFFC, 0x0⟩]

/-- The registers of block 11, LCD (R361). -/
def rowsLcd : List RegRow := [
  ⟨0xB0000, 1, 0, 1, 0, .ro, 0x0, 0xFFFE0000, 0x0⟩,
  ⟨0xB0004, 1, 0, 1, 0, .w1c, 0x0, 0xFFFFFFC0, 0x3F⟩,
  ⟨0xB0008, 1, 0, 1, 0, .sh, 0x0, 0xFFFFFEC0, 0x0⟩,
  ⟨0xB000C, 1, 0, 1, 0, .ro, 0x0, 0xFFFF0000, 0x0⟩,
  ⟨0xB0100, 4, 256, 1, 0, .sh, 0x271A00C, 0xFC0000E0, 0x0⟩,
  ⟨0xB0104, 4, 256, 1, 0, .sh, 0x0, 0xFFFF00F8, 0x0⟩,
  ⟨0xB0108, 4, 256, 1, 0, .sh, 0x190D6B, 0xF800C000, 0x0⟩,
  ⟨0xB010C, 4, 256, 1, 0, .ro, 0x0, 0xF800C000, 0x0⟩,
  ⟨0xB0110, 4, 256, 1, 0, .ro, 0x0, 0xFF000000, 0x0⟩,
  ⟨0xB0114, 4, 256, 1, 0, .ro, 0x0, 0xFFFF0000, 0x0⟩,
  ⟨0xB0120, 4, 256, 8, 4, .sh, 0x1F40000, 0xF800FF00, 0x0⟩]

/-- The registers of block 12, RTC (R376). -/
def rowsRtc : List RegRow := [
  ⟨0xC0000, 1, 0, 1, 0, .ro, 0x0, 0xFFFFFFE0, 0x0⟩,
  ⟨0xC0004, 1, 0, 1, 0, .w1c, 0x0, 0xFFFFFF80, 0x7F⟩,
  ⟨0xC0008, 1, 0, 1, 0, .ro, 0x0, 0x0, 0x0⟩,
  ⟨0xC000C, 1, 0, 1, 0, .ro, 0x0, 0xFFFF0000, 0x0⟩,
  ⟨0xC0010, 1, 0, 1, 0, .rw, 0x0, 0x0, 0x0⟩,
  ⟨0xC0014, 1, 0, 1, 0, .rw, 0x0, 0xFFFF0000, 0x0⟩,
  ⟨0xC0018, 1, 0, 1, 0, .wo, 0x0, 0xFFE0000, 0x0⟩,
  ⟨0xC001C, 1, 0, 1, 0, .ro, 0x0, 0xFE000000, 0x0⟩,
  ⟨0xC0020, 1, 0, 1, 0, .sh, 0xFFFF, 0xFFFC0000, 0x0⟩,
  ⟨0xC0024, 1, 0, 1, 0, .sh, 0x3E80000, 0xFFFE, 0x0⟩,
  ⟨0xC0028, 1, 0, 1, 0, .sh, 0x640000, 0xFFE0, 0x0⟩,
  ⟨0xC002C, 1, 0, 1, 0, .ro, 0x0, 0xFFFFF000, 0x0⟩,
  ⟨0xC0040, 16, 4, 1, 0, .rw, 0x0, 0x0, 0x0⟩,
  ⟨0xC0100, 8, 16, 1, 0, .rw, 0x0, 0x0, 0x0⟩,
  ⟨0xC0104, 8, 16, 1, 0, .rw, 0x0, 0xFFFF0000, 0x0⟩,
  ⟨0xC0108, 8, 16, 1, 0, .rw, 0x0, 0x0, 0x0⟩,
  ⟨0xC010C, 8, 16, 1, 0, .rw, 0x0, 0xFFFF00F8, 0x0⟩,
  ⟨0xC0180, 8, 4, 1, 0, .ro, 0x0, 0xF8, 0x0⟩]

/-- The registers of block 13, SEC (R409). -/
def rowsSec : List RegRow := [
  ⟨0xD0000, 1, 0, 1, 0, .ro, 0x0, 0xFFFEC080, 0x0⟩,
  ⟨0xD0004, 1, 0, 1, 0, .w1c, 0x0, 0xFFFFF800, 0x7FF⟩,
  ⟨0xD0008, 1, 0, 1, 0, .ro, 0x0, 0x0, 0x0⟩,
  ⟨0xD000C, 1, 0, 1, 0, .ro, 0x0, 0x0, 0x0⟩,
  ⟨0xD0010, 1, 0, 1, 0, .ro, 0x0, 0x0, 0x0⟩,
  ⟨0xD0014, 1, 0, 1, 0, .ro, 0x0, 0x0, 0x0⟩,
  ⟨0xD0018, 1, 0, 1, 0, .ro, 0x0, 0x0, 0x0⟩,
  ⟨0xD001C, 1, 0, 1, 0, .ro, 0x0, 0xFFFFFC88, 0x0⟩,
  ⟨0xD0020, 1, 0, 1, 0, .ro, 0x0, 0x0, 0x0⟩,
  ⟨0xD0024, 1, 0, 1, 0, .ro, 0x0, 0x0, 0x0⟩,
  ⟨0xD0028, 1, 0, 1, 0, .ro, 0x0, 0x0, 0x0⟩,
  ⟨0xD002C, 1, 0, 1, 0, .ro, 0x0, 0x0, 0x0⟩,
  ⟨0xD0030, 1, 0, 1, 0, .ro, 0x0, 0x0, 0x0⟩,
  ⟨0xD0034, 1, 0, 1, 0, .sh, 0x480000, 0xFFFE, 0x0⟩,
  ⟨0xD0038, 1, 0, 1, 0, .ro, 0x0, 0x0, 0x0⟩,
  ⟨0xD003C, 1, 0, 1, 0, .ro, 0x0, 0xFF00F000, 0x0⟩,
  ⟨0xD0040, 1, 0, 1, 0, .rw, 0x0, 0xFF00FCF0, 0x0⟩,
  ⟨0xD0044, 1, 0, 1, 0, .ro, 0x0, 0xFF0000FC, 0x0⟩,
  ⟨0xD0048, 1, 0, 1, 0, .ro, 0x0, 0xFFFFE000, 0x0⟩,
  ⟨0xD004C, 1, 0, 1, 0, .rw, 0x0, 0xFFFFFFC8, 0x0⟩,
  ⟨0xD0050, 1, 0, 1, 0, .ro, 0x0, 0xE0, 0x0⟩,
  ⟨0xD0054, 1, 0, 1, 0, .ro, 0x0, 0x0, 0x0⟩,
  ⟨0xD0080, 8, 4, 1, 0, .rw, 0x0, 0x0, 0x0⟩,
  ⟨0xD0100, 64, 4, 1, 0, .rw, 0x0, 0x0, 0x0⟩] ++ [
  ⟨0xD1000, 1024, 4, 1, 0, .ro, 0x0, 0x0, 0x0⟩]

/-- The registers of block 14, LOG (R426). -/
def rowsLog : List RegRow := [
  ⟨0xE0000, 1, 0, 1, 0, .ro, 0x0, 0xFFFF8000, 0x0⟩,
  ⟨0xE0004, 1, 0, 1, 0, .w1c, 0x0, 0xFFFFFFF0, 0xF⟩,
  ⟨0xE0008, 1, 0, 1, 0, .ro, 0x0, 0x0, 0x0⟩,
  ⟨0xE000C, 1, 0, 1, 0, .sh, 0xC, 0xFFFFFFF0, 0x0⟩,
  ⟨0xE0010, 1, 0, 1, 0, .rw, 0x0, 0x0, 0x0⟩,
  ⟨0xE0014, 1, 0, 1, 0, .ro, 0x0, 0xFFFC0000, 0x0⟩,
  ⟨0xE0018, 1, 0, 1, 0, .ro, 0x0, 0x0, 0x0⟩,
  ⟨0xE001C, 1, 0, 1, 0, .wo, 0x0, 0x0, 0x0⟩,
  ⟨0xE0020, 8, 4, 1, 0, .ro, 0x0, 0x0, 0x0⟩,
  ⟨0xE0040, 1, 0, 1, 0, .ro, 0x0, 0x0, 0x0⟩,
  ⟨0xE0044, 1, 0, 1, 0, .ro, 0x0, 0xFFFF0000, 0x0⟩]

/-- The registers of block 15, QUE (R440). -/
def rowsQue : List RegRow := [
  ⟨0xF0000, 1, 0, 1, 0, .ro, 0x0, 0x0, 0x0⟩,
  ⟨0xF0004, 1, 0, 1, 0, .ro, 0x0, 0x0, 0x0⟩,
  ⟨0xF0008, 1, 0, 1, 0, .ro, 0x0, 0x0, 0x0⟩,
  ⟨0xF000C, 1, 0, 1, 0, .ro, 0x0, 0x0, 0x0⟩,
  ⟨0xF0010, 1, 0, 1, 0, .w1c, 0x0, 0xFFFFFFF8, 0x7⟩,
  ⟨0xF0014, 1, 0, 1, 0, .ro, 0x0, 0xFF000000, 0x0⟩,
  ⟨0xF0100, 64, 32, 1, 0, .ro, 0x0, 0x0, 0x0⟩,
  ⟨0xF0104, 64, 32, 1, 0, .ro, 0x0, 0x0, 0x0⟩,
  ⟨0xF0108, 64, 32, 1, 0, .ro, 0x0, 0x0, 0x0⟩,
  ⟨0xF010C, 64, 32, 1, 0, .ro, 0x0, 0x80008000, 0x0⟩,
  ⟨0xF0110, 64, 32, 1, 0, .w1c, 0x0, 0xFFFFFFE0, 0x1F⟩,
  ⟨0xF0114, 64, 32, 1, 0, .ro, 0x0, 0x0, 0x0⟩,
  ⟨0xF0118, 64, 32, 1, 0, .ro, 0x0, 0xFFFF0000, 0x0⟩,
  ⟨0xF011C, 64, 32, 1, 0, .wo, 0x0, 0xFFFFFFF8, 0x0⟩,
  ⟨0xF1000, 64, 8, 1, 0, .pop, 0x0, 0x0, 0x0⟩,
  ⟨0xF1004, 64, 8, 1, 0, .wo, 0x0, 0x0, 0x0⟩]

/-- The rows of a block by its number (Table 17-5). -/
def blockRows : Nat → List RegRow
  | 0 => rowsSys
  | 1 => rowsTte
  | 2 => rowsPwr
  | 3 => rowsMtr
  | 4 => rowsDio
  | 5 => rowsAio
  | 6 => rowsCtl
  | 7 => rowsFab
  | 8 => rowsCan
  | 9 => rowsMac
  | 10 => rowsPar
  | 11 => rowsLcd
  | 12 => rowsRtc
  | 13 => rowsSec
  | 14 => rowsLog
  | 15 => rowsQue
  | _ => []

/-- Does the row name the address? -/
def RegRow.has (r : RegRow) (a : Nat) : Bool :=
  if a < r.base then false else
  let d := a - r.base
  let i := if r.s1 = 0 then 0 else d / r.s1
  let e := if r.s1 = 0 then d else d % r.s1
  let j := if r.s2 = 0 then 0 else e / r.s2
  let f := if r.s2 = 0 then e else e % r.s2
  if r.s1 = 0 then decide (d = 0) else decide (i < r.n1) && decide (j < r.n2) && decide (f = 0)

/-- The row of an active address, `none` where the address is assigned to no register (R3). -/
def regRow? (a : Nat) : Option RegRow := (blockRows (a / 0x10000)).find? (fun r => r.has a)

/-- The reset value of the register at an address; 0 where none is assigned. -/
def regReset (a : Nat) : Word :=
  match regRow? a with
  | some r => BitVec.ofNat 32 r.reset
  | none => 0#32

/-- The reserved bits of the register at an address; all bits where none is assigned. -/
def regRsv (a : Nat) : Word :=
  match regRow? a with
  | some r => BitVec.ofNat 32 r.rsv
  | none => 0xFFFFFFFF#32

end Sys2Proof.Machine
end

