-- ==== Sys2Proof/Machine/State.lean ====
section
/-! DEFINITION. The state of the module: plain data, every piece of state the spec names. -/

namespace Sys2Proof.Machine

/-- The error state of one protected unit of an SRAM (R51, R52). -/
inductive Ecc where
  | ok | single | double
  deriving DecidableEq, Repr

/-- A mirror cell: two copies, a select bit and a pending bit (R53). -/
structure MCell where
  c0 : Word
  c1 : Word
  sel : Bool
  pend : Bool
  deriving DecidableEq, Repr

/-- A crossing port (R16, R17): the destination's word and valid flag, and for an outbound port the word under way. -/
structure Port where
  word : Word
  valid : Bool
  src : Word
  transit : Bool
  deriving DecidableEq, Repr

/-- A result under way to a register: it lands before an operation issued at core cycle `land` or later reads (R40). -/
structure Pend where
  land : Nat
  track : Nat
  isPred : Bool
  dst : Nat
  val : Word
  deriving DecidableEq, Repr

/-- The run of a path: its number, its first consist, the core cycle of its start, its LENGTH, and the core cycle from which
its consists are no-ops after a double error (R67, R68). -/
structure Run where
  path : Nat
  entry : Nat
  start : Nat
  length : Nat
  noopFrom : Option Nat
  deriving DecidableEq, Repr

/-- The timetable engine (chapter 2). -/
structure Eng where
  /-- W1 to W63 (R39). -/
  w : Sparse Word
  /-- P1 to P15 (R39). -/
  p : Sparse Bool
  /-- Results under way (R40), in landing order. -/
  inflight : List Pend
  /-- The path in progress, or the last one run. -/
  run : Option Run
  /-- The next consist of the run in progress and the core cycle at which it issues (R37); none once the run has issued END. -/
  next : Option (Nat × Nat)
  /-- Iterations left of each open loop, innermost first (R49), and the first consist of each body that the run opened. -/
  loops : List Nat
  bodies : List Nat
  /-- Per path: 1 + the minor-cycle count of its last start since release; 0 before the first (R59). -/
  prevStart : Sparse Nat
  /-- Per path: its starts since release (R233). -/
  starts : Sparse Nat
  /-- ELAPSED of the path in progress (Table 2-5). -/
  elapsed : Word
  /-- Minor cycles since release. -/
  absM : Nat
  /-- Per path: PATH_FAULT, SILENCED, CAUSE and FAULTS, laid out as TTE_PF_STAT. -/
  pf : Sparse Word
  /-- The paths with PATH_FAULT set, earliest first (TTE_PF_SUM). -/
  pfOrder : List Nat
  /-- Paths that have met a fault since the service whose slices they are last began a cycle (R245). -/
  pfNew : List Nat
  /-- Core cycles of this minor cycle in executed spans, and spare (R56). -/
  execCyc : Nat
  spareCyc : Nat
  /-- Fabric time latched at core cycle 0 (R50). -/
  fabLatch : Nat
  /-- Fabric time at which the islands' minor cycle in progress began: with the engine's until the last train, in which the
  islands go on alone (R290). -/
  slotBase : Nat
  /-- A refused LOG_ADVANCE write that the image has still to record: the value, and LOG_NEXT then (R414). -/
  advBad : Option (Word × Word)
  /-- The engine has been released at a minor-cycle boundary of this start (R109). -/
  released : Bool
  /-- OFFSET from which the next last-train path may start (R74). -/
  ltNext : Nat
  /-- The first minor cycle after release is still to begin. -/
  firstMinor : Bool
  deriving DecidableEq, Repr

/-- The host port (chapter 17): the held low half, the latched high half, the 64-bit latch, the driven data, and the
violation counts that the ROM or the log path last saw. -/
structure HostPort where
  held : Option (Nat × BitVec 16)
  latch : Option (Nat × BitVec 16)
  latch64 : Option (Nat × List (BitVec 16))
  hd : BitVec 16
  /-- The half of the mirror that a read still selects, which HD follows (R429). -/
  sel : Option Nat
  /-- The violation counts last compared, and the ROM's comparisons of the second in progress (R423). -/
  seen0 : Word
  seen1 : Word
  polls : Nat
  deriving DecidableEq, Repr

/-- One sample-plan entry (Table 3-6). -/
structure SampleEntry where
  island : Nat
  kind : Nat
  kexp : Nat
  phase : Nat
  offset : Nat
  deriving DecidableEq, Repr

/-- One crossing-plan entry (Table 3-7). -/
structure CrossEntry where
  port : Nat
  dir : Nat
  lag : Nat
  path : Nat
  consist : Nat
  sample : Nat
  deriving DecidableEq, Repr

/-- One mirror-plan entry (Table 3-9). -/
structure MirrorEntry where
  path : Nat
  blocks : Nat
  consist : Nat
  deriving DecidableEq, Repr

/-- One error-task entry (Table 3-10). -/
structure ErrTask where
  station : Nat
  flag : Nat
  path : Nat
  deriving DecidableEq, Repr

/-- One CONFSCHEMA entry (Table 4-6): KIND, TYPE and the five fields that follow. -/
structure SchemaEntry where
  kind : Nat
  type : Nat
  f0 : Nat
  f1 : Nat
  f2 : Nat
  f3 : Nat
  value : Nat
  deriving DecidableEq, Repr

/-- What the loaded image fixes beside the memories and queues it fills (Table 3-11, Table 3-13). -/
structure Image where
  loaded : Bool
  slot : Nat
  seq : Nat
  minor : Nat
  ltFullUj : Nat
  ltCoreUj : Nat
  ltFullCyc : Nat
  ltCoreCyc : Nat
  samples : List SampleEntry
  crossings : List CrossEntry
  mirror : List MirrorEntry
  errTasks : List ErrTask
  schema : List SchemaEntry
  deriving DecidableEq, Repr

/-- A start that waits for admission (R142, R143). -/
structure Wait where
  chan : Nat
  wait : Nat
  late : Bool
  deriving DecidableEq, Repr

/-- The start gate of one admission group (R141 to R146): the running set, the holds in flight (minor cycles left, peak
current), the waiting set, ACK_SAFE, and the commanded bits last written. -/
structure Gate where
  running : List Nat
  holds : List (Nat × Nat)
  waiting : List Wait
  ack : Bool
  /-- After a warm start: the running set is still to be taken from the first readback word (R146). -/
  adopt : Bool
  /-- Channels of an analogue group whose RB word is still to be read after a warm start (R222). -/
  adoptCh : List Nat
  deriving DecidableEq, Repr

/-- The hamper's own state (chapter 5); its registers are PWR registers. -/
structure Hamper where
  /-- The detection filter runs (R131), and the bank feeds the core rails (R132). -/
  filter : Bool
  feeding : Bool
  /-- V1 of the check in progress, in 0.1 mV; a start check, not a daily one. -/
  v1 : Nat
  startKind : Bool
  /-- The start check has passed or failed its range in this start (R108). -/
  startDone : Bool
  /-- C_LEDGER in µF (R133). -/
  cLedger : Nat
  /-- Seconds since the last completed check (PWR_CHECK.AGE). -/
  ageSec : Nat
  /-- A daily check was abandoned: it is retried 60 s after supply valid is next confirmed (R136). -/
  retry : Bool
  /-- Seconds to that retry, or to the one after a daily check found V_BANK too low (R136). -/
  retryIn : Option Nat
  /-- An abandoned check waits for supply valid to be confirmed again (R135, R136). -/
  again : Bool
  /-- Power-fail detection has occurred and supply has not become valid since. -/
  detected : Bool
  /-- Power-fail detection has occurred and the last-train switch is pending (R74). -/
  ltPending : Bool
  gates : Sparse Gate
  deriving DecidableEq, Repr

/-- A configuration word of a DI island (Table 7-4): DEB of a channel, SRC and MODE of the counter units, BRKEN. -/
inductive DiCfg where
  | deb (c v : Nat)
  | units (src mode : Nat)
  | brken (v : Nat)
  deriving DecidableEq, Repr

/-- A DI island (chapter 7). Channel bit sets are numbers of 16 bits. -/
structure DiIsland where
  powered : Bool
  /-- Levels timed against the debounced state, per channel: ticks counted (R188). -/
  ticks : Sparse Nat
  state : Nat
  changed : Nat
  deb : Sparse Nat
  gotDeb : Nat
  src : Nat
  mode : Nat
  gotCfg : Bool
  brken : Nat
  gotBrk : Bool
  broken : Nat
  /-- Configuration words received, which take effect at the next tick, oldest first (R196). -/
  due : List DiCfg
  /-- Per counter unit: edges counted, and ticks since the last counted edge (R193, R194). -/
  count : Sparse Nat
  age : Sparse Nat
  deriving DecidableEq, Repr

/-- The field supply of an island as it measures it (R192): L+, LOW, MISSING, and the ms for which the opposite held. -/
structure Supply where
  mv : Nat
  low : Bool
  missing : Bool
  lowMs : Nat
  missMs : Nat
  deriving DecidableEq, Repr

/-- A DO island (chapter 7). -/
structure DoIsland where
  powered : Bool
  safe : Nat
  gotSafe : Bool
  hold : Nat
  gotHold : Bool
  olen : Nat
  gotOl : Bool
  /-- Bits 15:0 of the OUT word last accepted, and whether one has been (R198). -/
  out : Nat
  gotOut : Bool
  /-- The stages driven on. -/
  drive : Nat
  ovl : Nat
  opens : Nat
  safeOn : Bool
  deriving DecidableEq, Repr

/-- One analogue channel at its island (chapter 8). -/
structure AoCh where
  code : Nat
  alm : Nat
  mode : Bool
  insrc : Bool
  clamp : Bool
  safemode : Nat
  /-- A MODE change held until EN is 0: MODE, INSRC, CLAMP, SAFEMODE (R214). -/
  heldMode : Option (Bool × Bool × Bool × Nat)
  safeCode : Nat
  almLo : Nat
  almHi : Nat
  zero : Nat
  span : Nat
  /-- The KINDs 0x1 to 0x5 received since power-up, as bits 1 to 5. -/
  got : Nat
  /-- Stage enabled and sourcing, the target code and the DAC code it drives (R212). -/
  on : Bool
  target : Nat
  dac : Int
  compliance : Bool
  rbDev : Bool
  miswire : Bool
  limit : Bool
  deriving DecidableEq, Repr

/-- An analogue island (chapter 8). -/
structure AoIsland where
  powered : Bool
  ch : Sparse AoCh
  en : Nat
  gotAcmd : Bool
  safeOn : Bool
  /-- CODE and ALM last received per channel, applied with the ACMD word. -/
  pendCode : Sparse (Nat × Nat)
  deriving DecidableEq, Repr

/-- The signal box's record of one pair (R332): holder, expiry in ns of fabric time, and the pending request: member, REQ, and the
fabric time of its arrival. -/
structure SbRec where
  valid : Bool
  holder : Nat
  expiry : Nat
  pend : Option (Nat × Nat × Nat)
  deriving DecidableEq, Repr

/-- A pair cell as sent (Table 12-3): KIND, the address it goes to, REQ, VALID, HOLDER and ms. -/
structure PairCell where
  kind : Nat
  dest : Nat
  req : Nat
  valid : Bool
  holder : Nat
  ms : Nat
  deriving DecidableEq, Repr

/-- The pair (chapter 12) beside its registers. -/
structure Pair where
  /-- The last frame sent on the pair link, and over the fabric. -/
  linkSent : List Word
  fabSent : List Word
  /-- The last pair cell sent, and how many. -/
  cell : Option PairCell
  cells : Nat
  /-- µs left to E + M (PAR_KNOWN), µs since the last good heartbeats, and since the partner was lost. -/
  knownUs : Nat
  lostUs : Nat
  /-- 1 + the fabric time in ns at which each request was first sent, by REQ (R330). -/
  reqAt : Sparse Nat
  /-- The pair link, and the fabric path, is lost (R329). -/
  lostPl : Bool
  lostFb : Bool
  /-- The latest request applied, and a grant applied or given since the last run of the pair paths. -/
  applied : Option Nat
  granted : Bool
  ownGrant : Bool
  /-- A partner heartbeat was good since the partner was lost, and since the last run a signal-box answer arrived. -/
  sbAnswer : Bool
  partnerState : Nat
  /-- The partner's last REQ, and a partner heartbeat with HOLD = 1 since the last run. -/
  partnerReq : Option Nat
  partnerHold : Bool
  /-- Pair-safe sourcing of analogue channels (R334): 1 + the µs of fabric time since which RB has been below 2,731 per channel,
  enabled and barred channels. -/
  aoUs : Sparse Nat
  aoEn : Nat
  aoBar : Nat
  sb : Sparse SbRec
  /-- Fabric time of release in ns. -/
  releaseNs : Nat
  /-- µs of the minor cycle in progress that had passed when PAR_LEASE was last written (R325). -/
  leaseUs : Nat
  /-- The pair link's receive pair and its polarity, as found in training (R449). -/
  swap : Bool
  inv : Bool
  deriving DecidableEq, Repr

/-- The start sequence beside SYS_STAT and the other SYS registers (chapter 4). -/
structure Boot where
  /-- The 100 ms of supply valid are being counted (R101); supply is valid. -/
  counting : Bool
  supplyOk : Bool
  /-- The next start is a return start: a last train has run since the last start (R105). -/
  returnDue : Bool
  /-- A warm start has been requested, and by which master: 0 engine, 1 fabric, 2 host (R103). -/
  warmReq : Option Nat
  /-- The last train in progress serves a warm start. -/
  warmTrain : Bool
  /-- PROG_N is held low (R450). -/
  prog : Bool
  /-- The recovery strap is set (R450). -/
  strap : Bool
  /-- Phase 0 is complete, and the links' discovery has ended (R109). -/
  romDone : Bool
  discDone : Bool
  /-- Slots refused in this start, A then B. -/
  refusedA : Bool
  refusedB : Bool
  /-- Phase 3 is due: the generation to migrate from, and whether the application waits for it (R121). -/
  migrate : Option Nat
  /-- Minor cycles left of the departure stagger; the stagger has expired. -/
  staggerLeft : Nat
  staggerDone : Bool
  /-- Siding mode entered because of the strap or RETIRED, or because both slots were refused (R405). -/
  siding : Bool
  deriving DecidableEq, Repr

/-- One modulator channel of the metering island (R156 to R160): integrators, combs, the last bit, the clocks since the last
transition (to 512), EDGE and an EDGE to come, and STUCK. -/
structure MtrCh where
  i1 : Word
  i2 : Word
  i3 : Word
  d1 : Word
  d2 : Word
  d3 : Word
  lastBit : Bool
  quiet : Nat
  edge : Bool
  edgeNext : Option Bool
  stuck : Bool
  deriving DecidableEq, Repr

/-- One sample of the 30 channels: word 0 of its frame, the samples as integers, and as binary32 values. -/
structure MtrSmp where
  w0 : Word
  raw : List Word
  val : List Word
  deriving DecidableEq, Repr

/-- A voltage set's window in progress (R176, R177): its samples, offset-corrected and as x_k of R162; the reference phase of the
window; MTR_HA_MASK as the window began. -/
structure MtrWin where
  samples : List MtrSmp
  ref : Option Nat
  mask : Word
  deriving DecidableEq, Repr

/-- A waveform capture in progress (R178): mask, FMT, COUNT and samples pushed. -/
structure Capture where
  mask : Nat
  fmt : Bool
  count : Nat
  pushed : Nat
  deriving DecidableEq, Repr

/-- The metering island and the metering paths (chapter 6) beside the MTR registers. -/
structure Mtr where
  /-- The island: MCLK, head power, channels, PF, a frame discarded since the last MSTAT word, S0 outputs busy. -/
  mclk : Bool
  heads : Bool
  ch : Sparse MtrCh
  pf : Bool
  frameLost : Bool
  busy : Nat
  width : Sparse Nat
  /-- Samples for which an S0 output is still on (R179). -/
  onLeft : Sparse Nat
  /-- The paths: their first start is done, fabric time of release, a frame taken but not used yet, the last frame used. -/
  started : Bool
  relNs : Nat
  held : Option (List Word)
  last : List Word
  /-- Corrected samples per channel, newest first (R162). -/
  hist : Sparse (List Word)
  /-- The interval in progress, its samples so far, its sums, and its STUCK, OVR and gap marks (R163, R168). -/
  interval : Option Nat
  k : Nat
  sums : Sparse Word
  stuckIn : Nat
  ovrIn : Nat
  gapIn : Bool
  /-- EDGE words still to be sent (R160). -/
  edgeDue : List Nat
  /-- SEQ of the last record, the copy with the newest intact record, the restored FTIME, MTR_START_GAP is set, fabric time
  of the last sample used, and the record under way with its copy (R171 to R173). -/
  seq : Nat
  newest : Option Nat
  ftime : Option Nat
  gapDone : Bool
  lastT : Nat
  commit : Option (Nat × List Word)
  /-- Fabric time at which the record under way was sent, and records that wait for it (R171). -/
  commitAt : Nat
  queued : List (List Word)
  /-- S0 outputs: 1 + fabric time of the last pulse command; outputs whose CFG or K a commit changed (R179). -/
  s0Last : Sparse Nat
  s0Reset : Nat
  win : Sparse MtrWin
  /-- The capture in progress and its samples still to push: frame word 0, the raw samples, and y_k of R162 (R178). -/
  cap : Option Capture
  capq : List MtrSmp
  deriving DecidableEq, Repr

/-- A loop slot (R236): integrator, derivative state, whether no computation has followed a start or an attempt that did not
compute, whether the last computation was one in AUTO and the slot has stayed there, the minor cycle of its last computation,
and of its path's starts the number when it left MODE 0 and that of its last attempt (R233). -/
structure Loop where
  i : Word
  dPrev : Word
  pvPrev : Word
  first : Bool
  auto : Bool
  last : Option Nat
  base : Nat
  tried : Nat
  deriving DecidableEq, Repr

/-- The cycle of a service in progress (R244): the minor cycle in which it began, and that of its completion with the core cycles of
the slice spans that follow the completing slice there. -/
structure Svc where
  start : Option Nat
  done : Option (Nat × Nat)
  deriving DecidableEq, Repr

/-- A station (R249): UP, fabric time of its last refresh, refreshes since DOWN without a gap, fabric time it went DOWN. -/
structure Station where
  up : Bool
  last : Option Nat
  recov : Nat
  downAt : Nat
  deriving DecidableEq, Repr

/-- The test in progress (R241): CTL_TS_CFG, AMP, F0 and F1 as taken, COUNT, computations done, the PRBS register, and the phase of
the chirp in units of 2^-64 turn, none once a frequency or dt was not finite. -/
structure TestGen where
  cfg : Word
  amp : Word
  f0 : Word
  f1 : Word
  count : Nat
  k : Nat
  lfsr : Nat
  phi : Option Nat
  deriving DecidableEq, Repr

/-- The loop, force and station paths (chapter 9) beside the CTL registers and the points in data SRAM. -/
structure Ctl where
  loops : Sparse Loop
  stations : Sparse Station
  test : Option TestGen
  /-- The entries of commits with CTL_FFW_SEL.WR = 1 still to be written, oldest first: LOOP, INDEX and value (R239). -/
  ffwDue : List (Nat × Nat × Word)
  /-- The services' cycles in progress. -/
  svc : Sparse Svc
  /-- The analogue inputs, as bits 4 a + c, whose last word showed an alarm level (R220, R224). -/
  alarmIn : Nat
  /-- The front FORCE lamp (R248). -/
  forceLamp : Bool
  deriving DecidableEq, Repr

/-- The content of a security record (Table 15-3): flags, sequence numbers, slot states, the wrapped owner secret (N, C and T,
48 bytes), the owner root and the previous root (1,793 bytes each, or none). -/
structure SecRec where
  lcn : Nat
  owner : Bool
  prev : Bool
  seq : Nat
  counter : Nat
  floor : Nat
  epoch : Nat
  stA : Nat
  stB : Nat
  tries : Nat
  seqA : Nat
  seqB : Nat
  trialMin : Nat
  prevImg : Nat
  prevGen : Nat
  wrapped : List Byte
  ownerRoot : List Byte
  prevRoot : List Byte
  deriving DecidableEq, Repr

/-- A message whose new record waits for RECORD_DONE (R386): its kind, the record, and the new K_owner if it installs one. -/
structure SecPend where
  kind : Nat
  newRec : SecRec
  owner : Option (List Byte)
  deriving DecidableEq, Repr

/-- An open object (R401): its owner, kind, and the bytes appended. -/
structure Obj where
  owner : Nat
  kind : Nat
  len : Nat
  /-- Its image header is accepted, so that it feeds the transfer. -/
  hdr : Bool
  deriving DecidableEq, Repr

/-- A transfer (R397 to R399, R287 to R289): its number, target slot, body length and chunk count; whether the object window
feeds it, whether chunks are verified on arrival, whether the slot held the same header, whether the header is accepted; the
chunks stored; cells received and NACKs per chunk (0xFFFF the header), and the bytes received, by chunk × 65,536 + offset; the link that
the answers go to (R287, R406). -/
structure Xfer where
  id : Nat
  slot : Nat
  bodyLen : Nat
  total : Nat
  byHost : Bool
  early : Bool
  same : Bool
  hdr : Bool
  stored : List Nat
  got : Sparse (List Nat)
  nacks : Sparse Nat
  buf : List Host.Cell
  /-- Per downstream link: the chunks sent and not acknowledged, and how many of the header and chunks have been sent. -/
  unacked : Sparse (List Nat)
  sent : Sparse Nat
  link : Option Nat
  deriving DecidableEq, Repr

/-- An operation of the security island that an SCMD word began (R389): OP, TAG, ARG, the SPARAM word before it, and the words taken
from SIN. -/
structure SecJob where
  op : Nat
  tag : Nat
  arg : Nat
  param : Nat
  got : List Word
  deriving DecidableEq, Repr

/-- The security island, the image's security paths and the slots (chapter 15). -/
structure Sec where
  /-- The fuses: how many of 0 to 29 are blown, and the retire fuse (R377). -/
  lcn : Nat
  retired : Bool
  /-- The record in use, the copy with the newest intact record, and the case of R382 without one. -/
  srec : SecRec
  newest : Option Nat
  noRec : Bool
  /-- K_owner with its EPOCH, one that takes effect at the next minor cycle, and the previous one during its grace (R387). -/
  kOwner : Option (Nat × List Byte)
  kDue : Option (Nat × List Byte)
  kPrev : Option (Nat × List Byte)
  pend : Option SecPend
  /-- Operations completed (SSTAT), and words on their way to SOUT; the last SPARAM word, and the operation in progress (R389). -/
  ops : Nat
  sout : List Word
  sparam : Word
  job : Option SecJob
  /-- The standing request, PUT or SUBMIT that the security path has still to take up (R390, R401). -/
  req : Option Word
  due : Option Nat
  obj : Option Obj
  /-- Bytes of an open KIND 2 object not yet stored. -/
  obuf : List Byte
  xfer : Option Xfer
  /-- XFER of the last transfer of the object window. -/
  hostXfer : Nat
  /-- The hashes of the running image's header and of the header of the generation in use (R392). -/
  imgHash : List Byte
  genHash : List Byte
  /-- MINOR of the last image header that passed check 0x04 (R406). -/
  lastMinor : Option Nat
  /-- An image was stored in siding mode, and the restart is due (R406). -/
  sidingStored : Bool
  deriving DecidableEq, Repr

/-- One link beside its FAB registers (chapter 10): pairs swapped, position agreed, exchanges complete since discovery began,
the neighbour's stratum, the fabric time of the last one-second repeat and of the entry to PROBATION, the transmit and
receive times of the last TIME cells, consecutive exchanges beyond 1,000 ns, TIME cells sent, and the last cell sent. -/
structure Link where
  swap : Bool
  inv : Bool
  agreed : Bool
  exch : Nat
  nstr : Nat
  repAt : Nat
  probAt : Nat
  tx : Nat
  rx : Nat
  bad : Nat
  count : Nat
  sent : List Word
  deriving DecidableEq, Repr

/-- One entry of the coalescing table (R282), with the FIRST, DETAIL and destination of its first report. -/
structure Coal where
  subject : Nat
  fclass : Nat
  start : Nat
  absorbed : Nat
  sat : Bool
  wits : List Nat
  first : Nat
  detail : List Byte
  dest : Nat
  deriving DecidableEq, Repr

/-- The fabric paths (chapter 10) beside the FAB registers: the links, SEQ by type and channel, freq as a fraction of ppb,
fabric time of the previous parent exchange, consecutive exchanges within 20 ns and beyond 100 ns, twice the last θ, the last
parent link, fabric time of the entry to holdover, and the coalescing table. -/
structure Fab where
  links : Sparse Link
  seq : Sparse Nat
  freqN : Int
  freqD : Nat
  lastPar : Option Nat
  good : Nat
  far : Nat
  theta2 : Int
  parent : Nat
  holdAt : Nat
  coal : Sparse Coal
  /-- Per downstream link: runs of PARCEL cells still to be pushed: chunk, next index, cells left. -/
  parcels : Sparse (List (Nat × Nat × Nat))
  deriving DecidableEq, Repr

/-- A CAN frame as the queues carry it (Table 11-3): identifier, IDE, DLC, FDF, BRS, ESI, RTR, data words, and fabric time bits
31:0 of its start of frame. -/
structure CanFrame where
  id : Nat
  ide : Bool
  dlc : Nat
  fdf : Bool
  brs : Bool
  esi : Bool
  rtr : Bool
  data : List Word
  ts : Word
  deriving DecidableEq, Repr

/-- A receive buffer and its shadow buffer (R301): each a frame with its OVW mark. -/
structure RxBuf where
  frame : Option (CanFrame × Bool)
  shadow : Option (CanFrame × Bool)
  deriving DecidableEq, Repr

/-- What a channel has to push into its receive queue, in order: the record of a buffer, or the words of a record (R295, R301). -/
inductive CanOut where
  | buf (b : Nat)
  | words (ws : List Word)
  deriving DecidableEq, Repr

/-- A transmit buffer (R303 to R305): its frame, requested, transmitting since its first start of frame, an attempt in progress,
an ABORT to obey at its end, attempts ended in error, whether the last attempt ended so, and the last start of frame. -/
structure TxBuf where
  frame : Option CanFrame
  req : Bool
  active : Bool
  onBus : Bool
  abort : Bool
  errors : Nat
  redo : Bool
  ts : Word
  deriving DecidableEq, Repr

/-- A CAN controller (R297 to R308). Configuration in force, a whole one to come, words transferred since the last CFG_END. -/
structure Can where
  cur : Sparse Word
  next : Option (Sparse Word)
  nextAt : Nat
  leave : Bool
  /-- A frame of another node is in progress on the bus. -/
  rxBusy : Bool
  staged : Sparse Word
  cfgd : Bool
  /-- TEC, REC, STATE (Table 11-5), RECOVERING, PEX, LEC since the last status word, TDCV, fabric time of bus-off in ms. -/
  txec : Nat
  rxec : Nat
  mode : Nat
  recov : Bool
  pex : Bool
  lec : Nat
  tdcv : Nat
  offMs : Nat
  rx : Sparse RxBuf
  tx : Sparse TxBuf
  out : List CanOut
  deriving DecidableEq, Repr

/-- What a T1S port has to push into its receive queue: a frame with the time of its SFD, or a transmit report (Table 11-7). -/
inductive MacOut where
  | frame (bytes : List Byte) (ts : Word)
  | report (ws : List Word)
  deriving DecidableEq, Repr

/-- A T1S MAC (R309 to R314): configuration as for CAN; what is to be pushed; frames in the transmit FIFO; collisions of the head
frame, whether its first attempt deferred, bit times of backoff to wait; quanta of a PAUSE hold; PAUSE outstanding or
backpressure active; RX_FIFO_OVF since the last status word; the last PAUSE sent, from its destination address on. -/
structure Mac where
  cur : Sparse Word
  next : Option (Sparse Word)
  nextAt : Nat
  staged : Sparse Word
  cfgd : Bool
  out : List MacOut
  txq : List (List Byte)
  coll : Nat
  deferred : Bool
  backoff : Option Nat
  paused : Option Nat
  flow : Bool
  ovf : Bool
  sentPause : Option (List Byte)
  deriving DecidableEq, Repr

/-- The local-bus island (chapter 11): counters by source × 32 + k, HALF masks, snapshots that wait, last status words;
a SELECT's index + 1 while its value has yet to come (R307). -/
structure Bus where
  powered : Bool
  can : Sparse Can
  mac : Sparse Mac
  cnt : Sparse Word
  half : Sparse Nat
  snap : Sparse (List Word)
  word : Sparse Word
  sel : Sparse Nat
  deriving DecidableEq, Repr

/-- A rectangle (R351): its panel, ranges, RECT word and data words. -/
structure Rect where
  panel : Nat
  com0 : Nat
  com1 : Nat
  seg0 : Nat
  seg1 : Nat
  word : Word
  data : List Word
  deriving DecidableEq, Repr

/-- A panel at the display island (chapter 13): the words received, segment RAM by common, rectangles, temperature and band,
and what it drives. -/
structure Panel where
  ram : Sparse Nat
  flight : List Rect
  pend : List Rect
  /-- The PANEL word in force, and a newer one that waits for the frame boundary (R347). -/
  cfg : Option Word
  next : Option Word
  /-- The last FSEG word, and the one of the slot under way (R346, R355). -/
  fseg : Option Word
  fsegOn : Option Word
  /-- The slot under way, the index of its common (R346). -/
  slot : Nat
  ntc : Option Word
  bands : Sparse Word
  /-- Accepted NTC readings in Ω, newest first; consecutive accepted ones; NTC_FAULT. -/
  reads : List Nat
  run : Nat
  ntcFault : Bool
  /-- The temperature in 0.1 °C, the band, and whether one has been chosen since CFGD. -/
  temp : Option Int
  band : Nat
  chosen : Bool
  /-- Driving, the drive values in force (PANEL word, VLCD) and those last in force, the idle interval, VLCD_FAULT and its output in
  tolerance again. -/
  on : Bool
  drive : Option (Word × Nat)
  last : Option (Word × Nat)
  idle : Bool
  vFault : Bool
  vOk : Bool
  force : Bool
  deriving DecidableEq, Repr

/-- The display island: panels, the open rectangle, bad words, and the last FORCE word; and the image's display path (R343, R352):
words waiting to be written to the island's ports, data words of the rectangle still to be forwarded, and words it has discarded. -/
structure Lcd where
  powered : Bool
  /-- The VLCD generator has its power (R132, R358). -/
  gen : Bool
  out : List (Nat × Word)
  left : Nat
  pathBad : Nat
  panels : Sparse Panel
  opened : Option Rect
  bad : Nat
  force : Bool
  deriving DecidableEq, Repr

/-- An alarm of the backup island (R367 to R369), and an ALARM word to be applied at the next tick. -/
structure Alm where
  value : Nat
  period : Nat
  armed : Bool
  rep : Bool
  fired : Bool
  stepped : Bool
  missed : Nat
  per : Nat
  due : Option (Nat × Nat × Bool × Bool)
  deriving DecidableEq, Repr

/-- A slew in progress (R364): PERIOD, direction, adjusted ticks left, ticks since the last one. -/
structure Slew where
  period : Nat
  faster : Bool
  left : Nat
  ticks : Nat
  deriving DecidableEq, Repr

/-- The backup island (chapter 14). -/
structure Rtc where
  count : Nat
  /-- Crystal cycles of the last tick (R364, R365). -/
  len : Nat
  trim : Word
  trimTicks : Nat
  slew : Option Slew
  /-- SET (true, new count) and STEP (false, DELTA) commands to be applied, oldest first (R366). -/
  due : List (Bool × Int)
  alarms : Sparse Alm
  bytes : Sparse Byte
  a0 : Word
  a1 : Word
  readIdx : Nat
  latch : Bool
  /-- The CHG word in force, the charger runs, the domain runs from the element, and the element voltage. -/
  chg : Word
  charging : Bool
  element : Bool
  mv : Nat
  deriving DecidableEq, Repr

/-- The state of the whole module. -/
structure State where
  /-- Commands waiting, first in, first out. -/
  pending : List Instr
  /-- Working values of registers, by 20-bit address; unlisted: the reset value of the register map. -/
  regs : Sparse Word
  /-- Shadows of SH registers, by active address (R4). -/
  shadows : Sparse Word
  /-- Mirror cells, by active address (R53). -/
  mirror : Sparse MCell
  /-- Data SRAM, log SRAM, queue memory, code SRAM with both path-table copies (Table 2-6). -/
  data : List Host.Cell
  logm : List Host.Cell
  quem : List Host.Cell
  code : List Host.Cell
  /-- The persistent island's FeRAM and configuration store (Table 1-1, Table 4-4). -/
  feram : List Host.Cell
  store : List Host.Cell
  /-- Error marks of protected units, by memory code × 2^24 + unit address. -/
  ecc : Sparse Ecc
  eng : Eng
  /-- The image loaded at this start. -/
  image : Image
  /-- Per queue: index of its head word, and the words taken into the host head cell (R434). -/
  qrd : Sparse Nat
  qcell : Sparse (List Word)
  /-- Crossing ports and their overrun (15:0) and stale (31:16) counts (R66). -/
  ports : Sparse Port
  xcnt : Sparse Word
  host : HostPort
  /-- The LOG block's control block: NEXT, its complement and COUNT (R416). -/
  logNext : Word
  logCompl : Word
  logCount : Nat
  /-- The records already written in this major cycle, as code and subject. -/
  logged : List (Nat × Nat)
  /-- HATTN_N is driven low (R421). -/
  hattn : Bool
  /-- Operating time in µs and the power-cycle count (R413). -/
  opUs : Nat
  pwrCyc : Nat
  /-- Fabric time in ns as the core keeps it. -/
  fabTime : Nat
  hamper : Hamper
  di : Sparse DiIsland
  dout : Sparse DoIsland
  ao : Sparse AoIsland
  supply : Sparse Supply
  /-- Fabric time bits 31:0 of the sample instant of each field island's words: by port for the word that arrived, by 2,048 +
  port for the word under way. -/
  stime : Sparse Word
  pair : Pair
  boot : Boot
  mtr : Mtr
  ctl : Ctl
  sec : Sec
  fab : Fab
  bus : Bus
  lcd : Lcd
  rtc : Rtc
  /-- The model's own counter: how many free values have been taken. -/
  freeCtr : Nat
  deriving DecidableEq, Repr

/-- Why the machine stops with a fault: the spec describes no stop of the whole block, so there is none. -/
inductive Fault where
  deriving DecidableEq, Repr

/-- Why a command is refused. -/
inductive Refusal where
  /-- The command has no meaning in the model yet (raised by the dispatch alone). Safe. -/
  | notModelled (mnemonic : String)
  /-- An operand lies outside what the spec admits for the command (raised by every meaning whose operands
  `Instr.wf` checks): the image that held it would have been refused, or no such port or register exists. Safe. -/
  | illFormed
  deriving DecidableEq, Repr

/-- The engine after reset: halted, W1 to W63 and P1 to P15 clear (R39, R73). -/
def Eng.reset : Eng :=
  { w := [], p := [], inflight := [], run := none, next := none, loops := [], bodies := [], prevStart := [], starts := [], elapsed := 0#32, absM := 0,
    pf := [], pfOrder := [], pfNew := [], execCyc := 0, spareCyc := 0, fabLatch := 0, slotBase := 0, advBad := none, released := false, ltNext := 0,
    firstMinor := false }

/-- No image loaded. -/
def Image.reset : Image :=
  { loaded := false, slot := 0, seq := 0, minor := 1, ltFullUj := 0, ltCoreUj := 0, ltFullCyc := 0, ltCoreCyc := 0,
    samples := [], crossings := [], mirror := [], errTasks := [], schema := [] }

/-- The host port after reset. -/
def HostPort.reset : HostPort :=
  { held := none, latch := none, latch64 := none, hd := 0#16, sel := none, seen0 := 0#32, seen1 := 0#32, polls := 0 }

def Hamper.reset : Hamper :=
  { filter := false, feeding := false, v1 := 0, startKind := false, startDone := false, cLedger := 0, ageSec := 0,
    retry := false, retryIn := none, again := false, detected := false, ltPending := false, gates := [] }

def Pair.reset : Pair :=
  { linkSent := [], fabSent := [], cell := none, cells := 0, knownUs := 0, lostUs := 0, reqAt := [], lostPl := false, lostFb := false, applied := none,
    granted := false, ownGrant := false, sbAnswer := false, partnerState := 0, partnerReq := none, partnerHold := false, aoUs := [], aoEn := 0, aoBar := 0,
    sb := [], releaseNs := 0, leaseUs := 0, swap := false, inv := false }

def Boot.reset : Boot :=
  { counting := false, supplyOk := false, returnDue := false, warmReq := none, warmTrain := false, prog := false,
    strap := false, romDone := false, discDone := false, refusedA := false, refusedB := false, migrate := none,
    staggerLeft := 0, staggerDone := false, siding := false }

/-- The metering island and paths before release. -/
def Mtr.reset : Mtr :=
  { mclk := false, heads := false, ch := [], pf := false, frameLost := false, busy := 0, width := [], onLeft := [], started := false,
    relNs := 0, held := none, last := [], hist := [], interval := none, k := 0, sums := [], stuckIn := 0, ovrIn := 0,
    gapIn := false, edgeDue := [], seq := 0, newest := none, ftime := none, gapDone := false, lastT := 0, commit := none, commitAt := 0, queued := [],
    s0Last := [], s0Reset := 0, win := [], cap := none, capq := [] }

def Ctl.reset : Ctl := { loops := [], stations := [], test := none, ffwDue := [], svc := [], alarmIn := 0, forceLamp := false }

/-- No record. -/
def SecRec.empty : SecRec :=
  { lcn := 0, owner := false, prev := false, seq := 0, counter := 0, floor := 0, epoch := 0, stA := 0, stB := 0, tries := 0,
    seqA := 0, seqB := 0, trialMin := 0, prevImg := 0, prevGen := 0, wrapped := [], ownerRoot := [], prevRoot := [] }

/-- A module as manufactured: no fuse blown (R377, R379). -/
def Sec.reset : Sec :=
  { lcn := 0, retired := false, srec := SecRec.empty, newest := none, noRec := false, kOwner := none, kDue := none, kPrev := none,
    pend := none, ops := 0, sout := [], sparam := 0#32, job := none, req := none, due := none, obj := none, obuf := [], xfer := none, hostXfer := 0, imgHash := [],
    genHash := [], lastMinor := none, sidingStored := false }

def Fab.reset : Fab :=
  { links := [], seq := [], freqN := 0, freqD := 1, lastPar := none, good := 0, far := 0, theta2 := 0, parent := 0, holdAt := 0,
    coal := [], parcels := [] }

def Bus.reset : Bus := { powered := false, can := [], mac := [], cnt := [], half := [], snap := [], word := [], sel := [] }

def Lcd.reset : Lcd :=
  { powered := false, gen := false, out := [], left := 0, pathBad := 0, panels := [], opened := none, bad := 0, force := false }

/-- The backup island after a retention reset (R372): byte 63 is the check byte of zeros, inverted. -/
def Rtc.reset : Rtc :=
  { count := 0, len := 2, trim := 0#32, trimTicks := 0, slew := none, due := [], alarms := [], bytes := [(63, 0xFF#8)],
    a0 := 0#32, a1 := 0#32, readIdx := 0, latch := true, chg := 0#32, charging := false, element := false, mv := 0 }

/-- The module right after reset: registers at their reset values, memories empty, the engine halted, phase 0. -/
def State.reset : State :=
  { pending := [], regs := [], shadows := [], mirror := [], data := [], logm := [], quem := [], code := [],
    feram := [], store := [], ecc := [], eng := Eng.reset, image := Image.reset, qrd := [], qcell := [], ports := [], xcnt := [],
    host := HostPort.reset, logNext := 0#32, logCompl := 0xFFFFFFFF#32, logCount := 0, logged := [],
    hattn := false, opUs := 0, pwrCyc := 0, fabTime := 0, hamper := Hamper.reset, di := [], dout := [], ao := [], supply := [], stime := [],
    pair := Pair.reset, boot := Boot.reset, mtr := Mtr.reset, ctl := Ctl.reset, sec := Sec.reset, fab := Fab.reset, bus := Bus.reset, lcd := Lcd.reset, rtc := Rtc.reset, freeCtr := 0 }

end Sys2Proof.Machine
end

