-- ==== Sys2Proof/WellFormed.lean ====
section
/-! DEFINITION. The checks on a command's operands: encodings and operands that the spec refuses or gives no meaning. -/

namespace Sys2Proof

/-- The inbound ports of each island: how many, from index 0 (Table 3-4, R82). -/
def inboundCount (island : Nat) : Nat :=
  if island = 0 then 0 else if island ≤ 8 then 5 else if island = 9 then 32 else if island = 10 then 24
  else if island ≤ 14 then 11 else if island ≤ 16 then 3 else if island ≤ 20 then 13 else if island ≤ 23 then 2
  else if island = 24 then 3 else 0

/-- The outbound ports of each island: how many, from index 32 (Table 3-4, R82). -/
def outboundCount (island : Nat) : Nat :=
  if island = 0 then 0 else if island ≤ 8 then 2 else if island = 9 then 1 else if island = 10 then 24
  else if island ≤ 14 then 1 else if island ≤ 16 then 2 else if island ≤ 20 then 5 else if island = 21 then 3
  else if island = 22 then 2 else if island = 23 then 3 else if island = 24 then 2 else 0

/-- Does the number name an inbound crossing port (R64, R82). -/
def inboundPort (p : Nat) : Bool := decide (p % 64 < inboundCount (p / 64))

/-- Does the number name an outbound crossing port (R64, R82). -/
def outboundPort (p : Nat) : Bool := decide (32 ≤ p % 64) && decide (p % 64 - 32 < outboundCount (p / 64))

/-- The low register of each 64-bit value of R10 (SYS_SERIAL, SYS_IMAGE_SEQ, SYS_CFG_SEQ, SYS_OPTIME, MTR_FSEQ, FAB_TIME,
RTC_TICK, RTC_ARG, SEC_COUNTER, SEC_FLOOR, SEC_SLOTA_SEQ, SEC_SLOTB_SEQ; and the totals MTR_TOTc_j). -/
def word0List : List Nat :=
  [0x00004, 0x00018, 0x00024, 0x00044, 0x30010, 0x70020, 0xC0008, 0xC0010, 0xD0008, 0xD0010, 0xD0020, 0xD0028]

/-- Does the address name word 0 of a 64-bit value (R10). -/
def isWord0 (a : Nat) : Bool :=
  word0List.contains a ||
  (decide (0x32000 ≤ a) && decide ((a - 0x32000) / 0x80 < 8) && decide ((a - 0x32000) % 0x80 < 72) && decide (a % 8 = 0))

/-- Data bytes of a DLC (R302): 9 to 15 give 8 bytes in a classical frame. -/
def canBytes (fdf : Bool) (dlc : Nat) : Nat :=
  if dlc ≤ 8 then dlc else if !fdf then 8 else [12, 16, 20, 24, 32, 48, 64].getD (dlc - 9) 64

/-- A frame that the CAN formats admit, with the bytes of its DLC (R297, R302). -/
def canForm (id : Nat) (ide : Bool) (dlc : Nat) (fdf brs esi rtr : Bool) (n : Nat) : Bool :=
  (ide || decide (id < 2048)) && !(fdf && rtr) && (fdf || (!brs && !esi)) && decide (n = (if rtr then 0 else canBytes fdf dlc))

/-- The operand rules under which the spec gives a command its meaning. -/
def Instr.wf : Instr → Bool
  | .powerOnStart => true
  | .returnStart => true
  | .warmStart => true
  | .sysResetWrite _ _ => true
  | .supplyValid => true
  | .romPhase _ => true
  | .imageChecks => true
  | .configApplication => true
  | .migrate _ => true
  | .discoveryEnd => true
  | .engineRelease => true
  | .staggerEnd => true
  | .fieldIslandPowerUp => true
  | .outPermit => true
  | .startAbandon => true
  | .romMirrorRefresh => true
  | .sidingModeEntry => true
  | .sidingStrapPoll _ => true
  | .sidingRefresh => true
  | .progHold => true
  | .progRelease => true
  | .minorCycleBoundary => true
  | .pathStart _ => true
  | .loopIterationEnd => true
  | .nop _ => true
  | .add i _ _ _ => decide (i.track.val ≤ 1)
  | .sub i _ _ _ => decide (i.track.val ≤ 1)
  | .andW i _ _ _ => decide (i.track.val ≤ 1)
  | .orW i _ _ _ => decide (i.track.val ≤ 1)
  | .xorW i _ _ _ => decide (i.track.val ≤ 1)
  | .shl i _ _ _ => decide (i.track.val ≤ 1)
  | .shr i _ _ _ => decide (i.track.val ≤ 1)
  | .sar i _ _ _ => decide (i.track.val ≤ 1)
  | .addi i _ _ _ => decide (i.track.val ≤ 1)
  | .shli i _ _ _ => decide (i.track.val ≤ 1)
  | .shri i _ _ _ => decide (i.track.val ≤ 1)
  | .sari i _ _ _ => decide (i.track.val ≤ 1)
  | .li i _ _ => decide (i.track.val ≤ 1)
  | .lis i _ _ => decide (i.track.val ≤ 1)
  | .sel i _ _ _ => decide (i.track.val ≤ 1)
  | .minS i _ _ _ => decide (i.track.val ≤ 1)
  | .maxS i _ _ _ => decide (i.track.val ≤ 1)
  | .adds i _ _ _ => decide (i.track.val ≤ 1)
  | .subs i _ _ _ => decide (i.track.val ≤ 1)
  | .mul i _ _ _ => decide (i.track.val ≤ 1)
  | .mulh i _ _ _ => decide (i.track.val ≤ 1)
  | .mulhu i _ _ _ => decide (i.track.val ≤ 1)
  | .cmp i _ _ _ cond => decide (i.track.val ≤ 1 ∧ cond.toNat ≤ 5)
  | .add64 i d a b => decide (i.track.val = 1 ∧ (d.val % 2 = 0 ∧ a.val % 2 = 0 ∧ b.val % 2 = 0))
  | .sub64 i d a b => decide (i.track.val = 1 ∧ (d.val % 2 = 0 ∧ a.val % 2 = 0 ∧ b.val % 2 = 0))
  | .loopOpen i _ => decide (i.track.val = 0 ∧ i.psel.val = 0 ∧ i.pinv = false)
  | .fadd i _ _ _ => decide (i.track.val = 2)
  | .fsub i _ _ _ => decide (i.track.val = 2)
  | .fmul i _ _ _ => decide (i.track.val = 2)
  | .fma i _ _ _ => decide (i.track.val = 2)
  | .fms i _ _ _ => decide (i.track.val = 2)
  | .fmin i _ _ _ => decide (i.track.val = 2)
  | .fmax i _ _ _ => decide (i.track.val = 2)
  | .fabs i _ _ => decide (i.track.val = 2)
  | .fneg i _ _ => decide (i.track.val = 2)
  | .fcvti i _ _ => decide (i.track.val = 2)
  | .fcvtf i _ _ => decide (i.track.val = 2)
  | .fcmp i _ _ _ cond => decide (i.track.val = 2 ∧ cond.toNat ≤ 4)
  | .fdiv i _ _ _ => decide (i.track.val = 2)
  | .fsqrt i _ _ => decide (i.track.val = 2)
  | .fsel i _ _ _ => decide (i.track.val = 2)
  | .ld i _ _ _ => decide (i.track.val = 3)
  | .st i _ _ _ => decide (i.track.val = 3)
  | .ldx i _ _ _ => decide (i.track.val = 3)
  | .stx i _ _ _ => decide (i.track.val = 3)
  | .mov i _ _ => decide (i.track.val = 3)
  | .lld i _ _ _ => decide (i.track.val = 3)
  | .lst i _ _ _ => decide (i.track.val = 3)
  | .xrd i _ port _ => decide (i.track.val = 3 ∧ inboundPort port.toNat = true)
  | .xwr i _ port => decide (i.track.val = 3 ∧ outboundPort port.toNat = true)
  | .qpop i _ _ => decide (i.track.val = 3)
  | .qpush i _ _ => decide (i.track.val = 3)
  | .qlev i _ _ => decide (i.track.val = 3)
  | .qmov i _ _ => decide (i.track.val = 3)
  | .xq i _ port => decide (i.track.val = 3 ∧ inboundPort port.toNat = true)
  | .qx i _ port => decide (i.track.val = 3 ∧ outboundPort port.toNat = true)
  | .rld i _ _ _ => decide (i.track.val = 3)
  | .rst i _ _ _ => decide (i.track.val = 3)
  | .setAliasWrite _ _ => true
  | .mst i _ _ _ => decide (i.track.val = 3)
  | .msw i _ _ => decide (i.track.val = 3)
  | .srd i _ selr => decide (i.track.val = 3 ∧ selr.toNat ≤ 7)
  | .scrb i _ imm => decide (i.track.val = 3 ∧ imm.toNat / 4 % 16 = 0)
  | .scrubLate _ seconds => decide (600 ≤ seconds.toNat)
  | .arm i _ => decide (i.track.val = 3)
  | .darm i _ => decide (i.track.val = 3)
  | .crossingWordArrival port _ => decide ((inboundPort port.toNat || outboundPort port.toNat) = true)
  | .islandQueuePush _ _ _ _ => true
  | .islandQueuePop _ _ _ _ => true
  | .hostReadLowHalf addr _ => decide (addr.toNat % 4 = 0)
  | .hostReadHighHalf addr _ => decide (addr.toNat % 4 = 2)
  | .hostReadWord0 addr _ => decide (isWord0 addr.toNat = true)
  | .hostDataPortRead _ _ _ => true
  | .headCellRefill _ => true
  | .hostWriteLowHalf addr _ _ _ _ => decide (addr.toNat % 4 = 0)
  | .hostWriteHighHalf addr _ _ _ _ => decide (addr.toNat % 4 = 2)
  | .hostPush _ _ => true
  | .registerWrite _ _ _ _ => true
  | .shadowWrite _ _ _ => true
  | .w1cClear _ _ _ _ => true
  | .sysCommit _ _ => true
  | .tteEccClr _ => true
  | .clrSel => true
  | .clrAll => true
  | .queClrCnt _ => true
  | .queClrPeak _ => true
  | .queClrDed _ => true
  | .logAdvance _ _ => true
  | .hpvPoll => true
  | .mtrCalholdWrite _ _ => true
  | .wcArm _ => true
  | .testRun _ => true
  | .testStop => true
  | .parLeaseWrite _ _ => true
  | .parGateWrite _ _ => true
  | .rtcSet _ => true
  | .rtcStep _ => true
  | .rtcSlew _ _ _ => true
  | .rtcSlewStop _ => true
  | .rtcAlarmCfgWrite _ _ _ => true
  | .rtcByteWrite _ _ _ => true
  | .readPub _ _ => true
  | .challenge _ => true
  | .attest _ => true
  | .objBegin _ _ => true
  | .objPut _ => true
  | .objSubmit _ _ => true
  | .objCancel _ => true
  | .objectTimeout => true
  | .inputBelowPfd _ => true
  | .dip _ _ => true
  | .powerFailDetection _ => true
  | .lastTrainSwitch => true
  | .lastTrainPathStart _ => true
  | .lastTrainEnd => true
  | .bankExhausted => true
  | .eavailUpdate _ => true
  | .startCheck _ => true
  | .dailyCheck _ => true
  | .checkComplete _ => true
  | .diTick _ _ => true
  | .sampleInstant island _ _ _ => decide (11 ≤ island.val ∧ island.val ≤ 20)
  | .applyInstant island => decide (15 ≤ island.val ∧ island.val ≤ 20)
  | .safeValueTimeout island => decide (15 ≤ island.val ∧ island.val ≤ 20)
  | .fieldSupplyMeasure island _ => decide (11 ≤ island.val ∧ island.val ≤ 20)
  | .wireBreak _ _ _ => true
  | .diDeb _ _ _ => true
  | .diCounterCfg _ _ _ => true
  | .diBrken _ _ => true
  | .doSafe _ _ => true
  | .doHold _ _ => true
  | .doOlEn _ _ => true
  | .doOut _ _ _ => true
  | .ovlLatch _ _ => true
  | .openLoad _ _ _ => true
  | .aoutCode _ _ _ _ => true
  | .aoutMode _ _ _ _ _ _ => true
  | .aoutSafe _ _ _ => true
  | .aoutAlmLo _ _ _ => true
  | .aoutAlmHi _ _ _ => true
  | .aoutTrim _ _ _ _ => true
  | .acmd _ _ _ => true
  | .compliance _ _ _ => true
  | .rbDev _ _ _ => true
  | .miswire _ _ => true
  | .miswireResume _ _ => true
  | .meteringSample _ _ _ => true
  | .edgeLow _ => true
  | .edgeHigh _ => true
  | .s0Pulse _ _ => true
  | .s0PulseEnd _ => true
  | .intervalClose => true
  | .meteringCommitDone _ => true
  | .partialIntervalClose => true
  | .harmonicWindow _ => true
  | .captureSample => true
  | .loopAttempt _ _ => true
  | .ffwWrite => true
  | .pointRefresh _ _ _ _ _ _ => true
  | .forceApply => true
  | .serviceCycle _ _ _ => true
  | .stationCheck => true
  | .linkSignalPresent _ => true
  | .symbolsAligned _ _ _ => true
  | .linkLoss _ => true
  | .cellReceive _ _ _ ws => decide (ws.length = 16)
  | .slotStart _ _ => true
  | .identityPositionSend _ => true
  | .position _ _ _ _ _ _ _ => true
  | .probationClean _ => true
  | .timeExchange _ _ _ _ _ _ => true
  | .holdover => true
  | .routeCell _ ws => decide (ws.length = 16)
  | .statusReport => true
  | .faultReport _ ws => decide (ws.length = 16)
  | .coalesceFlush => true
  | .tagRequest => true
  | .tenantQuery ws => decide (ws.length = 16)
  | .rraRead _ => true
  | .rraWrite _ => true
  | .parcel _ ws => decide (ws.length = 16)
  | .chunkStored _ => true
  | .parcelAck _ _ _ _ => true
  | .parcelNack _ _ _ _ _ _ => true
  | .parcelGapTimeout _ => true
  | .transferTimeout => true
  | .canSend _ _ => true
  | .canAbort _ _ => true
  | .canFetch _ _ _ => true
  | .busStats _ => true
  | .canRecover _ => true
  | .canSelect _ _ _ => true
  | .cfgEnd _ => true
  | .canFrameReceive _ id ide dlc fdf brs esi rtr bytes _ => decide (canForm id.toNat ide dlc.toNat fdf brs esi rtr bytes.length = true)
  | .canRxRecordPush _ => true
  | .canTxRecordLoad _ => true
  | .canAttemptEnd _ _ _ => true
  | .canError _ kind txUp rxUp => decide (1 ≤ kind.val ∧ (txUp.val ≤ 1 ∨ txUp.val = 8) ∧ (rxUp.val ≤ 1 ∨ rxUp.val = 8))
  | .protocolException _ => true
  | .busOffHoldEnd _ => true
  | .busOffRecoveryDone _ => true
  | .busStatusWord _ => true
  | .t1sFrameReceive _ _ _ _ _ => true
  | .t1sRxRecordPush _ => true
  | .t1sTxRecordPop _ => true
  | .t1sFrameTransmit _ _ _ _ => true
  | .backoffEnd _ => true
  | .pauseReceived _ _ => true
  | .pauseHoldEnd _ => true
  | .pauseSend _ => true
  | .pauseResend _ => true
  | .pauseRelease _ => true
  | .backpressureJam _ => true
  | .heartbeatSend => true
  | .heartbeatReceive _ _ => true
  | .fabricHeartbeat => true
  | .pathLost _ => true
  | .leaseExpiry => true
  | .leaseRequest _ _ => true
  | .parGrant _ _ _ => true
  | .parProbe _ => true
  | .signalBoxRequest _ _ _ _ => true
  | .signalBoxPendingGrant => true
  | .pairStateChange => true
  | .rectWord _ => true
  | .segdata _ => true
  | .requestInstant _ => true
  | .frameBoundary _ => true
  | .lcdQuery _ => true
  | .lcdForce _ => true
  | .panelWord _ => true
  | .fsegWord _ => true
  | .ntcWord _ => true
  | .bandWord _ => true
  | .ntcReading _ _ => true
  | .temperatureUpdate _ => true
  | .ntcFault _ => true
  | .vlcdFault _ => true
  | .vlcdRestart _ _ => true
  | .idleIntervalEnd _ => true
  | .rtcTick => true
  | .bcmdSet _ => true
  | .bcmdStep _ => true
  | .bcmdSlew _ => true
  | .bcmdSlewStop _ => true
  | .bcmdTrim _ => true
  | .bcmdAlmper _ => true
  | .bcmdAlarm _ => true
  | .bcmdAck _ => true
  | .bcmdByte _ => true
  | .bcmdRead _ => true
  | .bcmdChg _ => true
  | .bargWord _ => true
  | .retentionTrip => true
  | .retentionReset => true
  | .backupSwitchover _ _ => true
  | .clockDiscipline => true
  | .alarmReport => true
  | .islandShake _ _ _ _ => true
  | .islandVerify _ _ _ _ _ => true
  | .signgen _ _ _ => true
  | .islandMessage _ _ _ => true
  | .recordDone _ _ _ _ => true
  | .loadrec _ _ _ => true
  | .pubkey _ _ _ => true
  | .islandAttest _ _ ws => decide (ws.length = 13)
  | .islandChallenge _ _ ws => decide (ws.length = 8)
  | .updateRec _ _ ws => decide (ws.length = 6)
  | .commission m _ => decide ((m.getD 6 0#8).toNat = 1)
  | .ownerSecret m _ => decide ((m.getD 6 0#8).toNat = 2)
  | .ownerRoot m _ => decide ((m.getD 6 0#8).toNat = 3)
  | .msgReturn m _ => decide ((m.getD 6 0#8).toNat = 4)
  | .msgRetire m _ => decide ((m.getD 6 0#8).toNat = 5)
  | .msgConfirm m _ => decide ((m.getD 6 0#8).toNat = 16)
  | .msgReject m _ => decide ((m.getD 6 0#8).toNat = 17)
  | .privileged m _ => decide ((m.getD 6 0#8).toNat = 18)
  | .epochGraceEnd => true
  | .trialMinute _ => true
  | .triesReset => true
  | .inputRise _ => true
  | .vInOutsideOperatingRange _ => true
  | .timeCellSendBeforeRelease _ => true
  | .sbLost => true
  | .elementLow _ => true
  | .busIntegration _ => true
  | .startOfFrame _ _ _ => true
  | .slotBoundary _ => true

end Sys2Proof
end

