-- ==== Sys2Proof/Machine/Ops.lean ====
section
/-! DEFINITION. The named operations over registers, memories, the log, queues, crossings and the mirror. -/

namespace Sys2Proof.Machine

/-! ## Registers -/

/-- The working value of the register at an active address. -/
def State.reg (s : State) (a : Nat) : Word := sget (regReset a) s.regs a

/-- Set a working value. -/
def State.setReg (s : State) (a : Nat) (v : Word) : State :=
  { s with regs := sset (regReset a) s.regs a v }

/-- A field of a working value. -/
def State.rf (s : State) (a hi lo : Nat) : Nat := fld (s.reg a) hi lo

/-- Set a field of a working value. -/
def State.setRf (s : State) (a hi lo v : Nat) : State := s.setReg a (setFld (s.reg a) hi lo v)

/-- A bit of a working value. -/
def State.rb (s : State) (a i : Nat) : Bool := bit (s.reg a) i

/-- Set bits of a working value: a hardware event sets W1C bits so (R458). -/
def State.orReg (s : State) (a m : Nat) : State := s.setReg a (s.reg a ||| w32 m)

/-- Make one bit of a working value `b`. -/
def State.setRb (s : State) (a i : Nat) (b : Bool) : State := s.setRf a i i (b2n b)

/-- Raise a saturating counter field by `k`. -/
def State.satRf (s : State) (a hi lo k : Nat) : State := s.setReg a (satFld (s.reg a) hi lo k)

/-- Raise a counter register by `k`, modulo 2^32. -/
def State.addReg (s : State) (a k : Nat) : State := s.setReg a (s.reg a + w32 k)

/-- The shadow of the SH register at an active address (R4). -/
def State.shadow (s : State) (a : Nat) : Word := sget (regReset a) s.shadows a

/-- Set a shadow: all 32 bits as written (R4). -/
def State.setShadow (s : State) (a : Nat) (v : Word) : State :=
  { s with shadows := sset (regReset a) s.shadows a v }

/-! ## Memories -/

/-- What a byte of memory that nothing has written reads as (assumption 4). -/
def memByte0 : Byte := 0#8

/-- One byte of a memory. -/
def memGet (m : List Host.Cell) (a : Nat) : Byte := sget memByte0 m a

/-- Write one byte of a memory. -/
def memSet (m : List Host.Cell) (a : Nat) (b : Byte) : List Host.Cell := sset memByte0 m a b

/-- The canonical form of a memory. -/
def memWf (m : List Host.Cell) : Bool := swf (fun _ => memByte0) m

/-- The `n` bytes from `a`. -/
def memBytes (m : List Host.Cell) (a : Nat) : Nat → List Byte
  | 0 => []
  | n + 1 => memGet m a :: memBytes m (a + 1) n

/-- Write a list of bytes from `a`. -/
def memPut (m : List Host.Cell) (a : Nat) : List Byte → List Host.Cell
  | [] => m
  | b :: bs => memPut (memSet m a b) (a + 1) bs

/-- The little-endian number of `n` bytes from `a`. -/
def memNat (m : List Host.Cell) (a n : Nat) : Nat := leNat (memBytes m a n)

/-- The 32-bit word at byte address `a`. -/
def memW (m : List Host.Cell) (a : Nat) : Word := BitVec.ofNat 32 (memNat m a 4)

/-- Write the 32-bit word at byte address `a`. -/
def memPutW (m : List Host.Cell) (a : Nat) (w : Word) : List Host.Cell := memPut m a (leBytes 4 w.toNat)

/-- Copy `n` bytes from `src` of one memory to `dst` of another: the listed bytes of the source alone are not zero. -/
def memCopy (src : List Host.Cell) (from_ n : Nat) (dst : List Host.Cell) (at_ : Nat) : List Host.Cell :=
  dst.filter (fun e => decide (e.1 < at_)) ++
  (src.filter (fun e => decide (from_ ≤ e.1) && decide (e.1 < from_ + n))).map (fun e => (e.1 - from_ + at_, e.2)) ++
  dst.filter (fun e => decide (at_ + n ≤ e.1))

/-- Fill `n` bytes from `a` with the unlisted value. -/
def memZero (m : List Host.Cell) (a n : Nat) : List Host.Cell := sclear m a (a + n)

/-! ## Error marks (R51, R52) -/

def mcCode : Nat := 0
def mcData : Nat := 1
def mcQue : Nat := 2
def mcLog : Nat := 3
def mcMir : Nat := 4
def mcPtab : Nat := 5

/-- The key of a protected unit: memory code and unit address. -/
def eccKey (mem unit : Nat) : Nat := mem * 2 ^ 24 + unit

/-- The error state of a protected unit. -/
def State.eccAt (s : State) (mem unit : Nat) : Ecc := sget Ecc.ok s.ecc (eccKey mem unit)

/-- Set the error state of a protected unit; a write makes fresh check bits, `ok` (R68). -/
def State.setEcc (s : State) (mem unit : Nat) (e : Ecc) : State :=
  { s with ecc := sset Ecc.ok s.ecc (eccKey mem unit) e }

/-! ## The log (R410 to R415) -/

/-- The severity of a record written: at least ATTNSEV sets LOG_EVT.SEVERE (R414). -/
def State.noteSev (s : State) (sev : Nat) : State :=
  if s.rf Reg.logCfg 3 0 ≤ sev then s.orReg Reg.logEvt 1 else s

/-- Store one word of log SRAM with fresh check bits. -/
def State.putLogW (s : State) (a : Nat) (w : Word) : State :=
  { s with logm := memPutW s.logm a w }.setEcc mcLog a .ok

/-- Store consecutive words of log SRAM. -/
def State.putLogWs (s : State) (a : Nat) : List Word → State
  | [] => s
  | w :: ws => (s.putLogW a w).putLogWs (a + 4) ws

/-- Operating time in ms (R413). -/
def State.opMs (s : State) : Nat := s.opUs / 1000

/-- The eight words of a record (Table 16-1). -/
def recordWords (s : State) (seq : Word) (code blk sev : Nat) (d : List Word) : List Word :=
  [seq, w32 (blk + (s.pwrCyc % 2 ^ 24) * 256), w32 s.opMs,
   w32 ((s.opMs / 2 ^ 32) % 2 ^ 16 + sev * 2 ^ 16 + code * 2 ^ 20)] ++ (d ++ [0, 0, 0, 0]).take 4

/-- Advance the control block by one record, COUNT saturating at 8,192 (R414). -/
def State.logBump (s : State) : State :=
  { s with logNext := s.logNext + 1, logCompl := ~~~(s.logNext + 1), logCount := min (s.logCount + 1) 8192 }

/-- Append one record in its slot and advance LOG_NEXT and COUNT (R414, R415). -/
def State.append (s : State) (code blk sev : Nat) (d : List Word) : State :=
  (((s.putLogWs (32 * (s.logNext.toNat % 8192)) (recordWords s s.logNext code blk sev d)).logBump).noteSev sev)

/-- Append a record unless one of its code and subject was written in this major cycle (R70 and its like). -/
def State.logOnce (s : State) (code blk sev subject : Nat) (d : List Word) : State :=
  if s.logged.contains (code, subject) then s
  else { s.append code blk sev d with logged := (code, subject) :: s.logged }

/-! ## ECC events (R52, R67 to R70) -/

/-- Count a corrected error of a memory and set its TTE_ECC_STAT bit. -/
def State.secEvent (s : State) (mem : Nat) : State :=
  (s.satRf (Reg.tteEccCode + 4 * mem) 23 0 1).orReg Reg.tteEccStat (2 ^ (2 * mem))

/-- Count a double error, set its TTE_ECC_STAT bit and record its address. -/
def State.dedEvent (s : State) (mem addr : Nat) : State :=
  ((s.satRf (Reg.tteEccCode + 4 * mem) 31 24 1).orReg Reg.tteEccStat (2 ^ (2 * mem + 1))).setReg Reg.tteDedAddr
    (w32 (addr % 2 ^ 21 + mem * 2 ^ 21))

/-- A read of a log SRAM unit by LLD or the LOG block's own port: the stored word, uncorrected on a double error, which is counted (R52, R69). -/
def readLog (a : Nat) (s : State) : Word × State :=
  match s.eccAt mcLog a with
  | .ok => (memW s.logm a, s)
  | .single => (memW s.logm a, s.secEvent mcLog)
  | .double => (memW s.logm a, s.dedEvent mcLog a)

/-! ## Paths and their faults -/

/-- The path in progress, 0 when none has run. -/
def State.curPath (s : State) : Nat := match s.eng.run with | some r => r.path | none => 0

/-- Path status as TTE_PF_STAT shows it. -/
def State.pfOf (s : State) (path : Nat) : Word := sget 0#32 s.eng.pf path

/-- Set PATH_FAULT of a path with its cause, and count the fault (R61, R67, R68). -/
def State.pathFault (s : State) (path cause : Nat) : State :=
  let v := satFld (setFld (setBit (s.pfOf path) 0 true) 3 2 cause) 15 8 1
  { s with eng := { s.eng with
      pf := sset 0#32 s.eng.pf path v,
      pfOrder := if bit (s.pfOf path) 0 then s.eng.pfOrder else s.eng.pfOrder ++ [path],
      pfNew := if s.eng.pfNew.contains path then s.eng.pfNew else path :: s.eng.pfNew } }

/-! ## Engine registers, landing and gating (R39, R40, R48) -/

/-- A general register as an operation reads it: W0 reads as 0. -/
def State.rw (s : State) (r : Nat) : Word := if r = 0 then 0#32 else sget 0#32 s.eng.w r

/-- A predicate as an operation reads it: P0 reads as 1. -/
def State.rp (s : State) (p : Nat) : Bool := if p = 0 then true else sget false s.eng.p p

/-- Write a general register; a write to W0 is discarded. -/
def State.putW (s : State) (r : Nat) (v : Word) : State :=
  if r = 0 then s else { s with eng := { s.eng with w := sset 0#32 s.eng.w r v } }

/-- Write a predicate; a write to P0 is discarded. -/
def State.putP (s : State) (p : Nat) (b : Bool) : State :=
  if p = 0 then s else { s with eng := { s.eng with p := sset false s.eng.p p b } }

/-- Land one result. -/
def State.landOne (s : State) (r : Pend) : State :=
  if r.isPred then s.putP r.dst (r.val != 0#32) else s.putW r.dst r.val

/-- Land a list of results in order. -/
def State.landAll (s : State) : List Pend → State
  | [] => s
  | r :: rs => (s.landOne r).landAll rs

/-- Land every result that an operation issued at core cycle `t` reads (R40). -/
def State.land (s : State) (t : Nat) : State :=
  { s with eng := { s.eng with inflight := s.eng.inflight.filter (fun r => !(decide (r.land ≤ t))) } }.landAll
    (s.eng.inflight.filter (fun r => decide (r.land ≤ t)))

/-- Land every result: no result crosses the end of its path (R41). -/
def State.landEnd (s : State) : State :=
  { s with eng := { s.eng with inflight := [] } }.landAll s.eng.inflight

/-- Put a result under way in landing order: by landing cycle, then track, then order of issue, so that the result kept by
R40 lands last. -/
def insPend (r : Pend) : List Pend → List Pend
  | [] => [r]
  | x :: xs => if r.land < x.land || (r.land == x.land && decide (r.track < x.track)) then r :: x :: xs
               else x :: insPend r xs

/-- A result for general register `d`, of an operation with latency `lat`. -/
def State.result (s : State) (i : Issue) (lat d : Nat) (v : Word) : State :=
  { s with eng := { s.eng with
      inflight := insPend { land := i.cycle + lat, track := i.track.val, isPred := false, dst := d, val := v } s.eng.inflight } }

/-- A result for predicate `p`, of an operation with latency `lat`. -/
def State.resultP (s : State) (i : Issue) (lat p : Nat) (b : Bool) : State :=
  { s with eng := { s.eng with
      inflight := insPend { land := i.cycle + lat, track := i.track.val, isPred := true, dst := p, val := w32 (b2n b) } s.eng.inflight } }

/-- Is the run in progress issuing no-ops at core cycle `t` (R67, R68)? -/
def State.noop (s : State) (t : Nat) : Bool :=
  match s.eng.run with
  | some r => (match r.noopFrom with | some f => decide (f ≤ t) | none => false)
  | none => false

/-- The gating predicate of an operation (R48): PSEL, inverted by PINV. -/
def State.gateP (s : State) (i : Issue) : Bool := s.rp i.psel.val != i.pinv

/-! ## Minor cycle figures (R14, R54) -/

/-- TTE_STAT.MINOR. -/
def State.minorSel (s : State) : Nat := s.rf Reg.tteStat 5 4

/-- Core cycles of a minor cycle: 10,000, 20,000, 40,000 or 80,000. -/
def State.cyc (s : State) : Nat := 10000 * 2 ^ s.minorSel

/-- Minor cycles of the major cycle: 40,000, 20,000, 10,000 or 5,000. -/
def State.nMinor (s : State) : Nat := 40000 / 2 ^ s.minorSel

/-- The minor cycle in ns. -/
def State.minorNs (s : State) : Nat := 25000 * 2 ^ s.minorSel

/-- Fabric time in ns at a core cycle of the minor cycle: 2.5 ns each from the latch at core cycle 0 (R50). The half ns of an odd
cycle is dropped: the spec states no rounding (assumption 87). -/
def State.nowNs (s : State) (cycle : Nat) : Nat := s.eng.slotBase + cycle * 5 / 2

/-- The minor-cycle index m (TTE_CYCLE.M). -/
def State.m (s : State) : Nat := s.rf Reg.tteCycle 15 0

/-! ## Crossings (R16 to R18, R64, R66) -/

def portEmpty : Port := { word := 0#32, valid := false, src := 0#32, transit := false }

def State.port (s : State) (p : Nat) : Port := sget portEmpty s.ports p

def State.setPort (s : State) (p : Nat) (x : Port) : State := { s with ports := sset portEmpty s.ports p x }

/-- Count an overrun of a crossing port, set the island's TTE_XSUM bit, and log the first in each major cycle (R66). -/
def State.overrun (s : State) (p : Nat) : State :=
  let v := satFld (sget 0#32 s.xcnt p) 15 0 1
  let s1 := { s with xcnt := sset 0#32 s.xcnt p v }.orReg Reg.tteXsum (2 ^ (p / 64))
  s1.logOnce 0x109 1 4 p [w32 p, w32 (fld v 15 0)]

/-- Count a stale read of a port (R64). -/
def State.stale (s : State) (p : Nat) : State :=
  { s with xcnt := sset 0#32 s.xcnt p (satFld (sget 0#32 s.xcnt p) 31 16 1) }

/-- A word is written and reaches the destination port of an inbound crossing at once; an untaken word is replaced and counted
(R17). -/
def State.arriveIn (s : State) (p : Nat) (w : Word) : State :=
  let x := s.port p
  (if x.valid then s.overrun p else s).setPort p { x with word := w, valid := true }

/-- The engine takes the word of an inbound port: the word, its valid flag, and the state after (R18, R64). -/
def State.take (s : State) (p : Nat) : Word × Bool × State :=
  let x := s.port p
  if x.valid then (x.word, true, s.setPort p { x with valid := false }) else (x.word, false, s.stale p)

/-- The engine writes an outbound port; a word still under way is overrun and counted (R17). -/
def State.sendOut (s : State) (p : Nat) (w : Word) : State :=
  let x := s.port p
  (if x.transit then s.overrun p else s).setPort p { x with src := w, transit := true }

/-- The source of an inbound port, an island, writes its word: a write made before the core has taken the previous word, be it
under way or in the port, is an overrun (R17). -/
def State.sendPort (s : State) (p : Nat) (w : Word) : State :=
  let x := s.port p
  (if x.transit || x.valid then s.overrun p else s).setPort p { x with src := w, transit := true }

/-- The word of an outbound port arrives at the island (R17). -/
def State.arriveOut (s : State) (p : Nat) : State :=
  let x := s.port p
  if x.transit then s.setPort p { x with word := x.src, valid := true, transit := false } else s

/-- Put an island's inbound words on their way, in ascending port index (R81). -/
def sendIn (island : Nat) : Nat → List Word → State → State
  | _, [], s => s
  | k, w :: ws, s =>
    let p := 64 * island + k
    sendIn island (k + 1) ws (s.sendPort p w)

/-! ## The mirror (R3, R21, R22, R53, R69) -/

/-- The mirror cell of an address that no MST has written: both copies hold the reset value (R89). -/
def cell0 (a : Nat) : MCell := { c0 := regReset a, c1 := regReset a, sel := false, pend := false }

def State.cell (s : State) (a : Nat) : MCell := sget (cell0 a) s.mirror a

/-- MST: write the copy not selected, reserved bits cleared, and set the pending bit (R3, R53); fresh check bits (R69). -/
def State.mst (s : State) (a : Nat) (v : Word) : State :=
  match regRow? a with
  | none => s
  | some r =>
    let c := s.cell a
    let u := v &&& ~~~(w32 r.rsv)
    let c' := if c.sel then { c with c0 := u, pend := true } else { c with c1 := u, pend := true }
    { s with mirror := sset (cell0 a) s.mirror a c' }.setEcc mcMir a .ok

/-- MST of a list of registers from their addresses and values. -/
def State.mstAll (s : State) : List (Nat × Word) → State
  | [] => s
  | (a, v) :: r => (s.mst a v).mstAll r

/-- One cell of a commit point: a pending cell of a named block inverts its select bit (R53). -/
def switchCell (blocks : Nat) (e : Nat × MCell) : Nat × MCell :=
  if blocks.testBit (e.1 / 0x10000) && e.2.pend then (e.1, { e.2 with sel := !e.2.sel, pend := false }) else e

/-- The selected copy of a cell. -/
def MCell.shown (c : MCell) : Word := if c.sel then c.c1 else c.c0

/-- Half `k` of a word: 0 low, 1 high (R7). -/
def half (w : Word) (k : Nat) : BitVec 16 := BitVec.ofNat 16 (w.toNat / 2 ^ (16 * k))

/-- HD follows the mirror image in force while a read stays selected (R429). -/
def State.hdFollow (s : State) : State :=
  match s.host.sel with
  | some a => { s with host := { s.host with hd := half (s.cell (a / 4 * 4)).shown (a % 4 / 2) } }
  | none => s

/-- MSW: every pending cell of the named blocks switches at once (R53), and HD with it. -/
def State.mswitch (s : State) (blocks : Nat) : State :=
  { s with mirror := (s.mirror.map (switchCell blocks)).filter (fun e => decide (e.2 ≠ cell0 e.1)) }.hdFollow

/-- The mirror value of an address, as a host or fabric read returns it, with the effect of a mark (R52, R69). -/
def State.mirRead (s : State) (a : Nat) : Word × State :=
  match s.eccAt mcMir a with
  | .ok => ((s.cell a).shown, s)
  | .single => ((s.cell a).shown, s.secEvent mcMir)
  | .double => ((s.cell a).shown, (s.dedEvent mcMir a).logOnce 0x106 1 6 a [w32 a])

/-! ## Working values as a read finds them -/

/-- TTE_STAT with PF_ANY and ECC_ANY (Table 2-13). -/
def State.tteStatNow (s : State) : Word :=
  setBit (setBit (s.reg Reg.tteStat) 6 (!s.eng.pfOrder.isEmpty)) 7 (s.reg Reg.tteEccStat != 0#32)

/-- Bits `lo` to `lo + 31` of a bit map over the queues. -/
def queMap (s : State) (lo b : Nat) : Word :=
  w32 (maskOf ((List.range 32).filter (fun i => s.rb (Reg.queQStat (lo + i)) b)))

/-- The working value of a register: those that show other state are computed here, once. -/
def State.regNow (s : State) (a : Nat) : Word :=
  if a = Reg.tteStat then s.tteStatNow
  else if a = Reg.ttePfStat then s.pfOf (s.rf Reg.ttePfSel 11 0)
  else if a = Reg.ttePfSum then w32 (s.eng.pfOrder.length % 2 ^ 13 + (s.eng.pfOrder.headD 0) * 2 ^ 16)
  else if a = Reg.tteXcnt then sget 0#32 s.xcnt (s.rf Reg.tteXsel 10 0)
  else if a = Reg.logNext then s.logNext
  else if a = Reg.logStat then setFld (s.reg Reg.logStat) 13 0 s.logCount
  else if a = Reg.sysPwrcyc then w32 (s.pwrCyc % 2 ^ 24)
  else if a = Reg.sysOptimeLo then w32 s.opMs
  else if a = Reg.sysOptimeHi then w32 (s.opMs / 2 ^ 32 % 2 ^ 16)
  else if a = Reg.queOvfLo then queMap s 0 1
  else if a = Reg.queOvfHi then queMap s 32 1
  else if a = Reg.queHighLo then queMap s 0 2
  else if a = Reg.queHighHi then queMap s 32 2
  else s.reg a

/-- The registers shown from other state, which a refresh of SYS and TTE writes beside the listed ones. -/
def derivedRegs : List Nat :=
  [Reg.tteStat, Reg.ttePfStat, Reg.ttePfSum, Reg.tteXcnt, Reg.sysPwrcyc, Reg.sysOptimeLo, Reg.sysOptimeHi]

/-- Refresh the mirror of the blocks whose numbers are listed from their working values, and switch them (R88, R106). -/
def State.refresh (s : State) (blocks : List Nat) : State :=
  let keys := ((skeys s.regs ++ skeys s.mirror ++ derivedRegs).filter (fun a => blocks.contains (a / 0x10000))).dedup
  (s.mstAll (keys.map (fun a => (a, s.regNow a)))).mswitch (maskOf blocks)

/-- Set registers and write their mirror copies by MST; they show at their block's next commit point (R89). -/
def State.publish (s : State) : List (Nat × Word) → State
  | [] => s
  | (a, v) :: r => ((s.setReg a v).mst a v).publish r

/-- Write the mirror copies of registers from their working values (R89). -/
def State.republish (s : State) (l : List Nat) : State := s.mstAll (l.map (fun a => (a, s.regNow a)))

/-! ## Free values -/

/-- A value the spec leaves open, and the state with the counter advanced (assumption 3). -/
def State.free (s : State) : Word × State := (Config.freeWord s.freeCtr, { s with freeCtr := s.freeCtr + 1 })

/-! ## Outcomes -/

/-- Run a meaning whose operands the spec restricts: refuse the ill-formed command by name. -/
def guarded (c : Instr) (f : State → State) (s : State) : Host.Outcome State Fault Refusal :=
  if c.wf then .next (f s) else .refused .illFormed

/-- The same for a row whose operand rule is given directly. -/
def guardedBy (ok : Bool) (f : State → State) (s : State) : Host.Outcome State Fault Refusal :=
  if ok then .next (f s) else .refused .illFormed

end Sys2Proof.Machine
end

