-- ==== Sys2Proof/Machine/BusStatus.lean ====
section
/-! DEFINITION. The CAN channels and T1S ports as the rest of the module sees them: their state, their records and their status words
(R295, R296, R308). Source c is CAN channel c, source 12 + p is T1S port p. -/

namespace Sys2Proof.Machine

def mac0 : Mac :=
  { cur := [], next := none, nextAt := 0, staged := [], cfgd := false, out := [], txq := [], coll := 0, deferred := false,
    backoff := none, paused := none, flow := false, ovf := false, sentPause := none }

def can0 : Can :=
  { cur := [], next := none, nextAt := 0, leave := false, rxBusy := false, staged := [], cfgd := false, txec := 0, rxec := 0, mode := 3, recov := false,
    pex := false, lec := 0, tdcv := 0, offMs := 0, rx := [], tx := [], out := [] }

def State.canI (s : State) (c : Nat) : Can := sget can0 s.bus.can c
def State.setCan (s : State) (c : Nat) (x : Can) : State := { s with bus := { s.bus with can := sset can0 s.bus.can c x } }
def State.macI (s : State) (p : Nat) : Mac := sget mac0 s.bus.mac p
def State.setMac (s : State) (p : Nat) (x : Mac) : State := { s with bus := { s.bus with mac := sset mac0 s.bus.mac p x } }

/-- The first address of a source's register window (R296). -/
def winBase (src : Nat) : Nat := if src < 12 then 0x80000 + 0x800 * src else 0x90000 + 0x800 * (src - 12)

/-- A configuration register in force at the island: one never transferred keeps its reset value (R307). -/
def cfgReg (cur : Sparse Word) (a : Nat) : Word := sget (regReset a) cur a

/-- A CAN record of block 8, a MAC record of block 9 (R320). -/
def busRec (s : State) (src code sev subject : Nat) (d : List Word) : State := s.logOnce code (if src < 12 then 8 else 9) sev subject d

/-- The unit number that a log record names: the channel or the port. -/
def busUnit (src : Nat) : Nat := if src < 12 then src else src - 12
def evtReg (src : Nat) : Nat := if src < 12 then Reg.canChEvt src else Reg.macPEvt (src - 12)
def busEvt (src m : Nat) (s : State) : State := s.orReg (evtReg src) m

/-! ## Status words (R308) -/

/-- TX_BUSY of a port: a frame in the FIFO waits or is under way. -/
def macStatus (s : State) (p : Nat) : Word :=
  let x := s.macI p
  let ctl := cfgReg x.cur (Reg.macPCtrl p)
  w32 (b2n (s.bus.powered && x.cfgd) + 2 * b2n (x.cfgd && bit ctl 1) + 4 * b2n x.paused.isSome + 8 * b2n x.flow + 16 * b2n (!x.txq.isEmpty) +
    32 * b2n (sget 0 s.bus.half (12 + p) != 0) + 64 * b2n x.cfgd + 128 * b2n x.ovf)

def canStatus (s : State) (c : Nat) : Word :=
  let x := s.canI c
  w32 (min x.txec 255 + 256 * min x.rxec 255 + 65536 * x.mode + 2 ^ 18 * b2n x.recov + 2 ^ 19 * b2n x.pex + 2 ^ 20 * x.lec +
    2 ^ 23 * b2n (sget 0 s.bus.half c != 0) + 2 ^ 24 * b2n x.cfgd + 2 ^ 25 * x.tdcv)

def statusOf (s : State) (src : Nat) : Word := if src < 12 then canStatus s src else macStatus s (src - 12)

/-- The island writes the status word; LEC and RX_FIFO_OVF start anew, and the paths publish STAT (R296, R308). -/
def busStatus (src : Nat) (s : State) : State :=
  let w := statusOf s src
  let s1 := { (sendIn 10 src [w] s) with bus := { s.bus with word := sset 0#32 s.bus.word src w } }
  let s2 := if src < 12 then s1.setCan src { (s1.canI src) with lec := 0 } else s1.setMac (src - 12) { (s1.macI (src - 12)) with ovf := false }
  (s2.publish [(if src < 12 then Reg.canChStat src else Reg.macPStat (src - 12), w)]).republish [evtReg src]

/-- At each change of its content the island writes the word (R308). -/
def busNote (src : Nat) (s : State) : State :=
  if statusOf s src = sget 0#32 s.bus.word src then s.republish [evtReg src] else busStatus src s

/-! ## Flow control of the T1S ports (R313, R314) -/

def macCtl (s : State) (p : Nat) : Word := cfgReg (s.macI p).cur (Reg.macPCtrl p)
def macOn (s : State) (p : Nat) : Bool := s.bus.powered && (s.macI p).cfgd && bit (macCtl s p) 0
def macFd (s : State) (p : Nat) : Bool := bit (macCtl s p) 1

/-- FLOWCTL becomes 1: MAC_Pp_EVT.FLOWCTL and record 0x904, kind 0 PAUSE or 1 backpressure. -/
def flowOn (p kind lev : Nat) (s : State) : State :=
  if (s.macI p).flow then s else
  busRec (busEvt (12 + p) 8 (s.setMac p { (s.macI p) with flow := true })) (12 + p) 0x904 2 p [w32 p, w32 kind, w32 lev]

/-- Backpressure begins or ends at a port in half duplex, and the status word shows it (R308, R314). -/
def backpressureSet (p lev : Nat) (b : Bool) (s : State) : State :=
  busNote (12 + p) (if b then flowOn p 1 lev s else s.setMac p { (s.macI p) with flow := false })

end Sys2Proof.Machine
end

