-- ==== Sys2Proof/Machine/Queues.lean ====
section
/-! DEFINITION. The queues: levels and watermarks, pushes and pops by their named ends, and what island units push and pop
(R24 to R28, R63, R69, R434 to R437). -/

namespace Sys2Proof.Machine

def qSize (s : State) (q : Nat) : Nat := s.rf (Reg.queQCfg q) 31 16
def qBase (s : State) (q : Nat) : Nat := s.rf (Reg.queQCfg q) 15 0
def qLevel (s : State) (q : Nat) : Nat := s.rf (Reg.queQLevel q) 14 0
def qHigh (s : State) (q : Nat) : Nat := s.rf (Reg.queQWm q) 15 0
def qLow (s : State) (q : Nat) : Nat := s.rf (Reg.queQWm q) 31 16
def qProd (s : State) (q : Nat) : Nat := s.rf (Reg.queQEnds q) 15 0
def qCons (s : State) (q : Nat) : Nat := s.rf (Reg.queQEnds q) 31 16

/-- Endpoint codes (Table 3-14). -/
def epEngine : Nat := 0
def epHost : Nat := 0x4000
def epIsland (island unit : Nat) : Nat := 0x8000 + 256 * island + unit

/-- The byte address in queue memory of the word `k` places behind the head of a queue. -/
def qAddr (s : State) (q k : Nat) : Nat :=
  4 * (qBase s q + (sget 0 s.qrd q + k) % (if qSize s q = 0 then 1 else qSize s q))

/-- The T1S port that produces into a queue, where its level governs backpressure: in half duplex with BPEN = 1 (R314). -/
def bpPort (s : State) (q : Nat) : Option Nat :=
  let p := qProd s q - epIsland 10 24
  if epIsland 10 24 ≤ qProd s q ∧ p < 12 ∧ macOn s p ∧ !(macFd s p) ∧ bit (macCtl s p) 4 then some p else none

/-- The level of a queue has reached HIGH, or fallen to LOW: backpressure of the port that produces it begins or ends (R314). -/
def backpressureAt (s : State) (q lev : Nat) (b : Bool) : State :=
  match bpPort s q with
  | some p => backpressureSet p lev b s
  | none => s

/-- Move a queue's fill level and set HIGH or LOW on the edges of R28. -/
def qSetLevel (s : State) (q old new : Nat) : State :=
  let s1 := s.setRf (Reg.queQLevel q) 14 0 new
  let s2 := if s.rf (Reg.queQLevel q) 30 16 < new then s1.setRf (Reg.queQLevel q) 30 16 new else s1
  let s3 := if old < qHigh s q ∧ qHigh s q ≤ new then backpressureAt (s2.orReg (Reg.queQStat q) 4) q new true else s2
  if qLow s q < old ∧ new ≤ qLow s q then backpressureAt (s3.orReg (Reg.queQStat q) 8) q new false else s3

/-- A word discarded at a full queue (R26, R439). -/
def qOverflow (s : State) (q : Nat) : State :=
  let s1 := ((s.satRf (Reg.queQCnt q) 15 0 1).orReg (Reg.queQStat q) 2).orReg Reg.queEvt 1
  s1.logOnce 0xF01 0xF 6 q [w32 q, w32 (s1.rf (Reg.queQCnt q) 15 0)]

/-- A push or pop by one that is not the named end (R25, R439); a queue of size 0 counts nothing (R24). -/
def qViolation (s : State) (q : Nat) : State :=
  if qSize s q = 0 then s else
  let s1 := (s.satRf (Reg.queQCnt q) 31 16 1).orReg Reg.queEvt 2
  s1.logOnce 0xF02 0xF 6 q [w32 q, w32 (s1.rf (Reg.queQCnt q) 31 16)]

/-- Push a word at the tail, by the named producer: an unused queue ignores it, a full one discards it. -/
def qPushIn (s : State) (q : Nat) (w : Word) : State :=
  if qSize s q = 0 then s
  else if qSize s q ≤ qLevel s q then qOverflow s q
  else
    let a := qAddr s q (qLevel s q)
    qSetLevel ({ s with quem := memPutW s.quem a w }.setEcc mcQue a .ok) q (qLevel s q) (qLevel s q + 1)

/-- A word of queue memory met a double error (R69, R439). -/
def qDed (s : State) (q a : Nat) : State :=
  let s1 := (((s.satRf (Reg.queQDed q) 15 0 1).orReg (Reg.queQStat q) 16).orReg Reg.queEvt 4).dedEvent mcQue a
  (s1.logOnce 0x105 1 8 q [w32 q, w32 a]).logOnce 0xF03 0xF 8 q [w32 q, w32 (s1.rf (Reg.queQDed q) 15 0)]

/-- Read the word `k` places behind the head through the queue-memory port: corrected, or 0xDEAD_8000 + q (R52, R69). -/
def qFetch (s : State) (q k : Nat) : Word × State :=
  let a := qAddr s q k
  match s.eccAt mcQue a with
  | .ok => (memW s.quem a, s)
  | .single => (memW s.quem a, s.secEvent mcQue)
  | .double => (w32 (0xDEAD8000 + q), qDed s q a)

/-- Remove the head word: the head moves on and the level falls (R28). -/
def qDrop (s : State) (q : Nat) : State :=
  qSetLevel { s with qrd := sset 0 s.qrd q ((sget 0 s.qrd q + 1) % (if qSize s q = 0 then 1 else qSize s q)) } q
    (qLevel s q) (qLevel s q - 1)

/-- The head word is removed and a word pushed at the tail in one core cycle: the pop goes first, so that a full queue has room, and the
level that the watermarks are compared with, the level after both, has not moved (R28). -/
def qSwap (s : State) (q : Nat) (w : Word) : State :=
  let a := qAddr s q (qLevel s q)
  { s with quem := memPutW s.quem a w, qrd := sset 0 s.qrd q ((sget 0 s.qrd q + 1) % (if qSize s q = 0 then 1 else qSize s q)) }.setEcc mcQue a .ok

/-- Remove the head word, with a word that the producer pushes in the same core cycle, if any. -/
def qDropWith (s : State) (q : Nat) (push : Option Word) : State :=
  match push with | some w => qSwap s q w | none => qDrop s q

/-- A word that the producer pushes in the core cycle of a pop that removed nothing. -/
def qPushWith (s : State) (q : Nat) (push : Option Word) : State :=
  match push with | some w => qPushIn s q w | none => s

/-- Pop by the named consumer: the head word, or the empty marker and EMPTY (R27); an unused queue gives 0 (R24). -/
def qPopOut (s : State) (q : Nat) : Word × State :=
  if qSize s q = 0 then (0#32, s)
  else if qLevel s q = 0 then (w32 (0xDEAD0000 + q), s.orReg (Reg.queQStat q) 1)
  else let r := qFetch s q 0; (r.1, qDrop r.2 q)

/-- The same with a word that the producer pushes in the same core cycle (R28). -/
def qPopWith (s : State) (q : Nat) (push : Option Word) : Word × State :=
  if qSize s q = 0 then (0#32, s)
  else if qLevel s q = 0 then (w32 (0xDEAD0000 + q), qPushWith (s.orReg (Reg.queQStat q) 1) q push)
  else let r := qFetch s q 0; (r.1, qDropWith r.2 q push)

/-- Push by a named endpoint. -/
def qPush (s : State) (ep q : Nat) (w : Word) : State :=
  if qSize s q = 0 then s else if qProd s q = ep then qPushIn s q w else qViolation s q

/-- Pop by a named endpoint: one that is not the consumer gets 0 and a violation (R25). -/
def qPop (s : State) (ep q : Nat) : Word × State :=
  if qSize s q = 0 then (0#32, s) else if qCons s q = ep then qPopOut s q else (0#32, qViolation s q)

/-- Push a list of words in order. -/
def qPushAll (s : State) (ep q : Nat) : List Word → State
  | [] => s
  | w :: ws => qPushAll (qPush s ep q w) ep q ws

/-- The queue that an island unit produces into, if an image queue names it (R25). -/
def qOfProd (s : State) (ep : Nat) : Option Nat :=
  (List.range 64).find? (fun q => decide (qSize s q ≠ 0) && decide (qProd s q = ep))

/-- The queue that an island unit consumes from. -/
def qOfCons (s : State) (ep : Nat) : Option Nat :=
  (List.range 64).find? (fun q => decide (qSize s q ≠ 0) && decide (qCons s q = ep))

/-- The room an island unit sees in its queue; a unit that no queue names sees a queue that is always full (R24). -/
def islandRoom (s : State) (island unit : Nat) : Nat :=
  match qOfProd s (epIsland island unit) with
  | some q => qSize s q - qLevel s q
  | none => 0

/-- An island unit pushes a record into its queue; with no queue the words go nowhere. -/
def islandPush (s : State) (island unit : Nat) (ws : List Word) : State :=
  match qOfProd s (epIsland island unit) with
  | some q => qPushAll s (epIsland island unit) q ws
  | none => s

/-- Pop `n` words as the island that consumes the queue. -/
def busPop (q : Nat) : Nat → State → List Word × State
  | 0, s => ([], s)
  | n + 1, s => let a := qPopOut s q; let b := busPop q n a.2; (a.1 :: b.1, b.2)

end Sys2Proof.Machine
end

