-- ==== Sys2Proof/Machine/Operands.lean ====
section
/-! DEFINITION. The operand forms of the engine's operations (Table 2-3): immediates, effective addresses, register pairs. -/

namespace Sys2Proof.Machine

/-- imm7 of format RI and M, signed (Table 2-3). -/
def imm7 (imm : BitVec 7) : Word := imm.signExtend 32

/-- Shift counts take bits 4:0 of imm7 (Table 2-4). -/
def immShift (imm : BitVec 7) : Nat := imm.toNat % 32

/-- Shift counts take bits 4:0 of W(B). -/
def regShift (b : Word) : Nat := b.toNat % 32

/-- imm13 sign-extended (LI). -/
def imm13s (imm : BitVec 13) : Word := imm.signExtend 32

/-- imm13 zero-extended (LIS). -/
def imm13z (imm : BitVec 13) : Word := imm.zeroExtend 32

/-- The byte address W(A) + 4 × imm7 of format M. -/
def addrM (s : State) (a : Nat) (imm : BitVec 7) : Nat := (s.rw a + 4#32 * imm7 imm).toNat

/-- The byte address W(A) + W(B) of LDX and STX. -/
def addrX (s : State) (a b : Nat) : Nat := (s.rw a + s.rw b).toNat

/-- A data SRAM address: bits 1:0 ignored, modulo 2 MiB (R44). -/
def dataAddr (a : Nat) : Nat := a % 2 ^ 21 / 4 * 4

/-- A log SRAM address: bits 1:0 ignored, modulo 256 KiB (R44). -/
def logAddr (a : Nat) : Nat := a % 2 ^ 18 / 4 * 4

/-- A host address: the 20-bit addresses of the 1 MiB map, a multiple of 4 (R3, R44). -/
def hostAddr (a : Nat) : Nat := a % 2 ^ 20 / 4 * 4

/-- The 64-bit value of an even register pair (ADD64, SUB64). -/
def pair64 (s : State) (r : Nat) : BitVec 64 := s.rw (r + 1) ++ s.rw r

/-- Issue one operation: land what its cycle reads, then do its effect unless its run is at no-ops or its predicate is
false (R40, R48, R67, R68). -/
def issue (i : Issue) (body : State → State) (s : State) : State :=
  let s1 := s.land i.cycle
  if s1.noop i.cycle || !(s1.gateP i) then s1 else body s1

/-- Issue SEL or FSEL: the predicate is the condition, and the operation always writes (R47). -/
def issueSel (i : Issue) (body : State → State) (s : State) : State :=
  let s1 := s.land i.cycle
  if s1.noop i.cycle then s1 else body s1

/-- Issue an operation whose one effect is a register result. -/
def issueW (i : Issue) (lat d : Nat) (v : State → Word) (s : State) : State :=
  issue i (fun t => t.result i lat d (v t)) s

end Sys2Proof.Machine
end

