-- ==== Sys2Proof/Machine/Flags.lean ====
section
/-! DEFINITION. Comparisons, saturation and the sticky floating-point flags. -/

namespace Sys2Proof.Machine

/-- CMP: 0 EQ, 1 NE, 2 LT, 3 GE, 4 LTU, 5 GEU (Table 2-4). -/
def intCond (cond : Nat) (a b : Word) : Bool :=
  match cond with
  | 0 => a == b
  | 1 => a != b
  | 2 => a.slt b
  | 3 => !(a.slt b)
  | 4 => a.ult b
  | _ => !(a.ult b)

/-- A signed 32-bit result saturating at 0x7FFF_FFFF and 0x8000_0000 (ADDS, SUBS). -/
def sat32 (v : Int) : Word :=
  if (2 : Int) ^ 31 ≤ v then 0x7FFFFFFF#32 else if v < -(2 : Int) ^ 31 then 0x80000000#32 else w32i v

/-- Raise sticky flags in TTE_FP_STAT; the path that sets the first flag after all were clear is kept in TTE_FP_PATH and
logged (R45, Table 2-26, record 0x10A). -/
def State.fpFlags (s : State) (fl : Nat) : State :=
  if fl = 0 then s else
  let old := s.reg Reg.tteFpStat
  let s1 := s.orReg Reg.tteFpStat fl
  if old = 0#32 then
    (s1.setReg Reg.tteFpPath (w32 s.curPath)).logOnce 0x10A 1 4 s.curPath [w32 s.curPath, s1.reg Reg.tteFpStat]
  else s1

/-- Issue a binary32 operation: its flags at once, its result after the latency. -/
def issueF (i : Issue) (lat d : Nat) (f : State → FRes) (s : State) : State :=
  issue i (fun t => ((t.fpFlags (f t).2)).result i lat d (f t).1) s

/-- Eight shift steps of the reflected CRC-32 of IEEE 802.3. -/
def crc32Bits : Nat → BitVec 32 → BitVec 32
  | 0, c => c
  | n + 1, c => crc32Bits n (if c.getLsbD 0 then (c >>> (1 : Nat)) ^^^ 0xEDB88320#32 else c >>> (1 : Nat))

/-- CRC-32 register after a list of bytes. -/
def crc32Go : BitVec 32 → List Byte → BitVec 32
  | c, [] => c
  | c, b :: bs => crc32Go (crc32Bits 8 (c ^^^ b.zeroExtend 32)) bs

/-- The CRC-32 of IEEE 802.3 over a list of bytes (R115, R171, R328, R413, R455). -/
def crc32 (bs : List Byte) : Word := ~~~(crc32Go 0xFFFFFFFF#32 bs)

/-- The little-endian bytes of a list of words. -/
def wordBytes : List Word → List Byte
  | [] => []
  | w :: ws => leBytes 4 w.toNat ++ wordBytes ws

/-- The words of a list of bytes, little-endian. -/
def bytesWords : List Byte → List Word
  | a :: b :: c :: d :: r => BitVec.ofNat 32 (leNat [a, b, c, d]) :: bytesWords r
  | _ => []

end Sys2Proof.Machine
end

