-- ==== Sys2Proof/Machine/Gate.lean ====
section
/-! DEFINITION. The start gate and admission of the six groups, the tablet, and what a field word that the engine takes does
at the gate (R141 to R146, R201, R219, R222, R325). -/

namespace Sys2Proof.Machine

def gate0 : Gate := { running := [], holds := [], waiting := [], ack := false, adopt := false, adoptCh := [] }

def State.gate (s : State) (g : Nat) : Gate := sget gate0 s.hamper.gates g

def State.setGate (s : State) (g : Nat) (x : Gate) : State :=
  { s with hamper := { s.hamper with gates := sset gate0 s.hamper.gates g x } }

/-- The channels of a group (R141). -/
def groupChans (g : Nat) : Nat := if g < 2 then 16 else 4

/-- The field island of an admission group: 15 and 16, 17 to 20 (R141). -/
def groupIsland (g : Nat) : Nat := 15 + g

/-- The outbound port the gate guards: OUT of a DO island, ACMD of an analogue island (R142, Table 3-4). -/
def groupPort (g : Nat) : Nat := 64 * groupIsland g + (if g < 2 then 32 else 36)

/-- The admission group of an outbound port, if the gate guards it. -/
def portGroup (p : Nat) : Option Nat := (List.range 6).find? (fun g => decide (groupPort g = p))

/-- The start declaration of a channel: Q, I_PK, PRIO, LIMIT (R203, R221). -/
def decl (s : State) (g c : Nat) : Nat × Nat × Nat × Nat :=
  let a0 := if g < 2 then s.reg (Reg.dioDoStart0 g c) else s.reg (Reg.aioAgChStart0 (g - 2) c)
  let a1 := if g < 2 then s.reg (Reg.dioDoStart1 g c) else s.reg (Reg.aioAgChStart1 (g - 2) c)
  (fld a0 15 0, fld a0 31 16, fld a1 1 0, fld a1 31 16)

/-- HOLD = max(1, ceil(Q × 1,000 / (I_PK × t_minor))) minor cycles, t_minor in µs (R141). -/
def holdOf (s : State) (q ipk : Nat) : Nat :=
  if ipk = 0 then 1 else
  let den := ipk * (s.minorNs / 1000)
  max 1 ((q * 1000 + den - 1) / den)

def bucketNow (s : State) (g : Nat) : Nat := s.rf (Reg.pwrAgLedger g) 15 0
def inflight (s : State) (g : Nat) : Nat := s.rf (Reg.pwrAgLedger g) 31 16
def bucketMax (s : State) (g : Nat) : Nat := s.rf (Reg.pwrAgCfg0 g) 31 16
def refillOf (s : State) (g : Nat) : Nat := s.rf (Reg.pwrAgCfg0 g) 15 0
def peakMax (s : State) (g : Nat) : Nat := s.rf (Reg.pwrAgCfg1 g) 15 0

/-- Set BUCKET_NOW and INFLIGHT of a group. -/
def setLedger (s : State) (g b f : Nat) : State := s.setReg (Reg.pwrAgLedger g) (w32 (b % 2 ^ 16 + (f % 2 ^ 16) * 2 ^ 16))

/-- Publish the waiting set in PWR_AGg_WAIT. -/
def putWaiting (s : State) (g : Nat) : State :=
  s.setRf (Reg.pwrAgWait g) 15 0 (maskOf ((s.gate g).waiting.map (fun x => x.chan)))

/-- The tablet is held: in SOLO from release, else while PAR_LEASE.REMAIN is not 0 (R323, R325). -/
def holdsTablet (s : State) : Bool :=
  if s.rb Reg.parCfg 0 then decide (s.rf Reg.parLease 18 0 ≠ 0) else s.eng.released

/-- Empty a group: no running, waiting or held start, INFLIGHT 0, the bucket full (R146). -/
def groupClear (s : State) (g : Nat) : State :=
  putWaiting (setLedger (s.setGate g { s.gate g with running := [], holds := [], waiting := [] }) g (bucketMax s g) 0) g

/-- Reset every group once (R146). -/
def gateResetAll (s : State) : State := (List.range 6).foldl groupClear s

/-- Reset every group when the tablet or PAR_GATE.SAFE has changed against a state before (R146). -/
def gateEdge (before s : State) : State :=
  if holdsTablet before != holdsTablet s || before.rb Reg.parGate 0 != s.rb Reg.parGate 0 then gateResetAll s else s

/-- The pair-safe mask of a group (R146, R325). -/
def pairSafeMask (s : State) (g : Nat) : Nat :=
  if g = 0 then s.rf Reg.parSafeDo 15 0 else if g = 1 then s.rf Reg.parSafeDo 31 16
  else s.rf Reg.parSafeAo (4 * (g - 2) + 3) (4 * (g - 2))

/-- The commanded bits the gate takes from the bits written (R146). -/
def gateCommand (s : State) (g cmd : Nat) : Nat :=
  if holdsTablet s then cmd else if s.rb Reg.parGate 0 then cmd &&& pairSafeMask s g else 0

/-- Insert a waiting start by ascending priority class, then channel (R144). -/
def insWait (s : State) (g : Nat) (x : Wait) : List Wait → List Wait
  | [] => [x]
  | y :: ys =>
    let px := (decl s g x.chan).2.2.1
    let py := (decl s g y.chan).2.2.1
    if px < py || (px == py && decide (x.chan ≤ y.chan)) then x :: y :: ys else y :: insWait s g x ys

/-- The waiting starts in order of admission (R144). -/
def sortWait (s : State) (g : Nat) : List Wait → List Wait
  | [] => []
  | x :: xs => insWait s g x (sortWait s g xs)

/-- Admission (R144): in order, until the first start that does not fit. -/
def admitWaits (g : Nat) : List Wait → State → State
  | [], s => s
  | x :: xs, s =>
    let d := decl s g x.chan
    if d.1 ≤ bucketNow s g ∧ inflight s g + d.2.1 ≤ peakMax s g then
      let gt := s.gate g
      let s1 := setLedger s g (bucketNow s g - d.1) (inflight s g + d.2.1)
      let s2 := s1.setGate g { gt with
        running := gt.running ++ [x.chan], holds := gt.holds ++ [(holdOf s d.1 d.2.1, d.2.1)],
        waiting := gt.waiting.filter (fun y => y.chan != x.chan) }
      admitWaits g xs (s2.setRf (Reg.pwrAgCount g) 15 0 (s2.rf (Reg.pwrAgCount g) 15 0 + 1))
    else s

/-- Steps 2 and 3 of R142 on the sets of a group, for the commanded bits taken. -/
def gateSets (gt : Gate) (n cmd : Nat) : Gate :=
  let run := gt.running.filter (fun c => cmd.testBit c)
  let wait := gt.waiting.filter (fun x => cmd.testBit x.chan)
  let new := (bitsOf n cmd).filter (fun c => !(run.contains c) && !(wait.any (fun x => x.chan == c)))
  { gt with running := run, waiting := wait ++ new.map (fun c => { chan := c, wait := 0, late := false }) }

/-- A gated write (R142): the state after admission, and the word sent, with every channel that is not running at 0 and
ACK_SAFE written by the gate. -/
def gateWrite (s : State) (g : Nat) (w : Word) : Word × State :=
  let n := groupChans g
  let cmd := w.toNat % 2 ^ n
  let s1 := s.setGate g (gateSets (s.gate g) n (gateCommand s g cmd))
  let s2 := putWaiting (admitWaits g (sortWait s1 g (s1.gate g).waiting) s1) g
  let drv := maskOf (s2.gate g).running
  let ack := (s2.gate g).ack
  if g < 2 then
    (w32 (drv + b2n ack * 2 ^ 16), s2.setReg (Reg.dioDoCmd g) (w32 (drv + cmd * 2 ^ 16)))
  else
    (setBit (setFld w 3 0 drv) 8 ack, s2.setReg (Reg.aioAgCmd (g - 2)) (w32 (drv + b2n ack * 2 ^ 8 + cmd * 2 ^ 16)))

/-- Release completed holds of a group: each count falls, and a hold at 0 gives its peak current back (R143). -/
def releaseHolds : List (Nat × Nat) → List (Nat × Nat) × Nat
  | [] => ([], 0)
  | (h, i) :: r =>
    let t := releaseHolds r
    if h ≤ 1 then (t.1, t.2 + i) else ((h - 1, i) :: t.1, t.2)

/-- A waiting start passes its deferral limit (R145): LATE, START_LATE, the late count and record 0x208. -/
def startLate (s : State) (g c wait : Nat) : State :=
  let s1 := (s.orReg (Reg.pwrAgWait g) (2 ^ (16 + c))).orReg Reg.pwrEvt 0x100
  (s1.satRf (Reg.pwrAgCount g) 31 16 1).logOnce 0x208 2 6 (16 * g + c) [w32 g, w32 c, w32 wait]

/-- Age the waiting starts of a group (R143, R145). -/
def ageWaits (g : Nat) : List Wait → State → List Wait × State
  | [], s => ([], s)
  | x :: xs, s =>
    let wt := min (x.wait + 1) 65535
    let lim := (decl s g x.chan).2.2.2
    let late := decide (0 < lim) && decide (lim < wt) && !x.late
    let r := ageWaits g xs (if late then startLate s g x.chan wt else s)
    ({ x with wait := wt, late := x.late || late } :: r.1, r.2)

/-- The ledger of one group at core cycle 0: refill, release, age (R143). -/
def ledgerGroup (s : State) (g : Nat) : State :=
  let gt := s.gate g
  let rel := releaseHolds gt.holds
  let s1 := setLedger s g (min (bucketMax s g) (bucketNow s g + refillOf s g)) (inflight s g - rel.2)
  let aged := ageWaits g gt.waiting s1
  aged.2.setGate g { gt with holds := rel.1, waiting := aged.1 }

/-- LEDGER_REFILL of every group (R143). -/
def ledgerRefill (s : State) : State := (List.range 6).foldl ledgerGroup s

/-- A commit of block 2 clips BUCKET_NOW to the new BUCKET (R143). -/
def clipBuckets (s : State) : State :=
  (List.range 6).foldl (fun t g => setLedger t g (min (bucketNow t g) (bucketMax t g)) (inflight t g)) s

/-- The gate receives a SUPPLY or ASTAT word of a group (R201, R219): SAFE = 1 begins an episode once, SAFE = 0 ends it. -/
def gateSafeWord (s : State) (g : Nat) (w : Word) : State :=
  let gt := s.gate g
  if bit w 18 then (if gt.ack then s else groupClear (s.setGate g { gt with ack := true }) g)
  else s.setGate g { gt with ack := false }

/-- The gate takes a DO group's running set from the first readback word after a warm start (R146). -/
def gateAdoptDo (s : State) (g : Nat) (w : Word) : State :=
  let gt := s.gate g
  if gt.adopt then
    let run := bitsOf 16 w.toNat
    putWaiting (s.setGate g { gt with adopt := false, running := run, waiting := gt.waiting.filter (fun x => !(run.contains x.chan)) }) g
  else s

/-- The gate takes an analogue channel as running when ENON in its first RB word is 1 (R146, R222). -/
def gateAdoptAo (s : State) (g c : Nat) (w : Word) : State :=
  let gt := s.gate g
  if gt.adoptCh.contains c then
    let s1 := s.setGate g { gt with adoptCh := gt.adoptCh.filter (fun x => x != c) }
    if bit w 17 then
      putWaiting (s1.setGate g { s1.gate g with running := gt.running.filter (fun x => x != c) ++ [c],
                                                waiting := gt.waiting.filter (fun x => x.chan != c) }) g
    else s1
  else s

/-- AIO_AGa_CHc_OUT shows CODE and ALM of the last AOUT word of KIND 0x0 written (Table 8-8). -/
def noteAout (p : Nat) (w : Word) (s : State) : State :=
  if 17 ≤ p / 64 ∧ p / 64 ≤ 20 ∧ 32 ≤ p % 64 ∧ p % 64 ≤ 35 ∧ fld w 31 28 = 0 then
    s.setReg (Reg.aioAgChOut (p / 64 - 17) (p % 64 - 32)) (w32 (fld w 17 0))
  else s

end Sys2Proof.Machine
end

