-- ==== Sys2Proof/Machine/Field.lean ====
section
/-! DEFINITION. The ten field islands: inputs, counters, outputs, analogue channels, safe values (chapters 7 and 8, R19, R83). -/

namespace Sys2Proof.Machine

/-! ## The islands' state -/

def di0 : DiIsland :=
  { powered := false, ticks := [], state := 0, changed := 0, deb := [], gotDeb := 0, src := 0, mode := 0, gotCfg := false,
    brken := 0, gotBrk := false, broken := 0, due := [], count := [], age := [] }

def do0 : DoIsland :=
  { powered := false, safe := 0, gotSafe := false, hold := 0, gotHold := false, olen := 0, gotOl := false, out := 0,
    gotOut := false, drive := 0, ovl := 0, opens := 0, safeOn := false }

def aoCh0 : AoCh :=
  { code := 0, alm := 0, mode := false, insrc := false, clamp := false, safemode := 0, heldMode := none, safeCode := 0,
    almLo := 0, almHi := 0, zero := 0, span := 0, got := 0, on := false, target := 0, dac := 0, compliance := false,
    rbDev := false, miswire := false, limit := false }

def ao0 : AoIsland := { powered := false, ch := [], en := 0, gotAcmd := false, safeOn := false, pendCode := [] }

def supply0 : Supply := { mv := 0, low := false, missing := false, lowMs := 0, missMs := 0 }

def State.diI (s : State) (g : Nat) : DiIsland := sget di0 s.di g
def State.setDi (s : State) (g : Nat) (x : DiIsland) : State := { s with di := sset di0 s.di g x }
def State.doI (s : State) (h : Nat) : DoIsland := sget do0 s.dout h
def State.setDo (s : State) (h : Nat) (x : DoIsland) : State := { s with dout := sset do0 s.dout h x }
def State.aoI (s : State) (a : Nat) : AoIsland := sget ao0 s.ao a
def State.setAo (s : State) (a : Nat) (x : AoIsland) : State := { s with ao := sset ao0 s.ao a x }
def State.sup (s : State) (island : Nat) : Supply := sget supply0 s.supply island
def AoIsland.chan (x : AoIsland) (c : Nat) : AoCh := sget aoCh0 x.ch c
def AoIsland.setChan (x : AoIsland) (c : Nat) (y : AoCh) : AoIsland := { x with ch := sset aoCh0 x.ch c y }

/-- Is the field island powered? -/
def islandPowered (s : State) (i : Nat) : Bool :=
  if i ≤ 14 then (s.diI (i - 11)).powered else if i ≤ 16 then (s.doI (i - 15)).powered else (s.aoI (i - 17)).powered

/-- Has the image an apply entry for the island (R83)? -/
def hasApply (s : State) (i : Nat) : Bool := s.image.samples.any (fun e => e.kind == 1 && e.island == i)

/-- Does an entry of the sample plan apply in this minor cycle (R83)? -/
def SampleEntry.now (s : State) (e : SampleEntry) : Bool := decide (s.m % 2 ^ e.kexp = e.phase)

/-- Has the plan a sample entry of the island at OFFSET in this minor cycle (R83)? -/
def sampleDue (s : State) (i offset : Nat) : Bool :=
  s.image.samples.any (fun e => e.kind == 0 && e.island == i && e.offset == offset && e.now s)

/-- Has the plan an apply entry of the island in this minor cycle (R83)? -/
def applyDue (s : State) (i : Nat) : Bool := s.image.samples.any (fun e => e.kind == 1 && e.island == i && e.now s)

/-! ## DI groups -/

/-- CFGD of a DI island: DEB of all 16 channels, counters and BRKEN received since power-up (R196). -/
def DiIsland.cfgd (x : DiIsland) : Bool := x.gotDeb == 0xFFFF && x.gotCfg && x.gotBrk

/-- The DEB in force: 0 until CFGD (R196). -/
def DiIsland.debOf (x : DiIsland) (c : Nat) : Nat := if x.cfgd then sget 0 x.deb c else 0

/-- MODE of counter unit `k`; every unit is off until CFGD (R193, R196). -/
def DiIsland.modeOf (x : DiIsland) (k : Nat) : Nat := if x.cfgd then x.mode / 2 ^ (2 * k) % 4 else 0

/-- The channel that unit `k` serves (R193). -/
def DiIsland.chanOf (x : DiIsland) (k : Nat) : Nat := if x.src.testBit k then k + 8 else k

/-- AGE saturates at 0xF_FFFF (R194). -/
def ageMax : Nat := 0xFFFFF

/-- One channel at a tick (R188): the state takes a new level once it has differed at DEB + 1 consecutive ticks. -/
def diChannel (levels : Nat) (x : DiIsland) (c : Nat) : DiIsland :=
  if levels.testBit c = x.state.testBit c then { x with ticks := sset 0 x.ticks c 0 }
  else
    let t := sget 0 x.ticks c + 1
    if x.debOf c + 1 ≤ t then
      { x with ticks := sset 0 x.ticks c 0, state := x.state ^^^ (2 ^ c), changed := x.changed ||| (2 ^ c) }
    else { x with ticks := sset 0 x.ticks c t }

/-- A unit whose MODE or SRC changes is reset to a count of 0 and an AGE of 0xF_FFFF (R193). -/
def diResetUnits (src mode : Nat) (x : DiIsland) : DiIsland :=
  let ks := (List.range 8).filter (fun k =>
    (src.testBit k != x.src.testBit k) || (mode / 2 ^ (2 * k) % 4 != x.mode / 2 ^ (2 * k) % 4))
  { x with count := ks.foldl (fun l k => sset 0 l k 0) x.count,
           age := ks.foldl (fun l k => sset ageMax l k ageMax) x.age }

/-- A configuration word takes effect (R188, R190, R193, R196): a channel whose BRKEN bit is 0 is not broken. -/
def diApply (x : DiIsland) : DiCfg → DiIsland
  | .deb c v => { x with deb := sset 0 x.deb c v, gotDeb := x.gotDeb ||| (2 ^ c) }
  | .units src mode => { (diResetUnits src mode x) with src := src, mode := mode, gotCfg := true }
  | .brken v => { x with brken := v, gotBrk := true, broken := x.broken &&& v }

/-- One counter unit at a tick: a rising edge of its channel's debounced state is counted (R193, R194). -/
def diUnit (before : Nat) (x : DiIsland) (k : Nat) : DiIsland :=
  let c := x.chanOf k
  let rise := x.state.testBit c && !(before.testBit c)
  if x.modeOf k = 0 then x
  else if rise then
    { x with count := sset 0 x.count k ((sget 0 x.count k + 1) % 2 ^ 32), age := sset ageMax x.age k 0 }
  else { x with age := sset ageMax x.age k (min (sget ageMax x.age k + 1) ageMax) }

/-- DI_TICK (R188, R190, R193, R196): the words received take effect, then the levels count; no current flows in a broken
channel, which reads as 0. -/
def diTick (g levels : Nat) (s : State) : State :=
  let x := s.diI g
  if x.powered then
    let z := { (x.due.foldl diApply x) with due := [] }
    let y := (List.range 16).foldl (diChannel (levels &&& (0xFFFF ^^^ z.broken))) z
    s.setDi g ((List.range 8).foldl (diUnit x.state) y)
  else s

/-- DI_TICK. -/
def execDiTick (g : Fin 4) (levels : BitVec 16) (s : State) : Host.Outcome State Fault Refusal :=
  .next (diTick g.val levels.toNat s)

/-- A channel becomes broken: its debounced state is 0 (R190). -/
def DiIsland.breakChan (x : DiIsland) (c : Nat) : DiIsland :=
  let y := { x with broken := x.broken ||| (2 ^ c), ticks := sset 0 x.ticks c 0 }
  if x.state.testBit c then { y with state := x.state ^^^ (2 ^ c), changed := x.changed ||| (2 ^ c) } else y

/-- WIRE_BREAK (R190): reported with BRKEN set and the supply not MISSING. -/
def wireBreak (g c : Nat) (b : Bool) (s : State) : State :=
  let x := s.diI g
  if b then
    (if x.powered && x.brken.testBit c && !(s.sup (11 + g)).missing then s.setDi g (x.breakChan c) else s)
  else s.setDi g { x with broken := (setBit (w32 x.broken) c false).toNat }

/-- WIRE_BREAK. -/
def execWireBreak (g : Fin 4) (c : Fin 16) (broken : Bool) (s : State) : Host.Outcome State Fault Refusal :=
  .next (wireBreak g.val c.val broken s)

/-- A word for a DI island is taken while the island is powered, and takes effect at the next tick (R196). -/
def diWord (g : Nat) (w : DiCfg) (s : State) : State :=
  let x := s.diI g
  if x.powered then s.setDi g { x with due := x.due ++ [w] } else s

/-- DI_DEB (R188, R196). -/
def execDiDeb (g : Fin 4) (c : Fin 16) (deb : BitVec 16) (s : State) : Host.Outcome State Fault Refusal :=
  .next (diWord g.val (.deb c.val deb.toNat) s)

/-- DI_COUNTER_CFG (R193, R196). -/
def execDiCounterCfg (g : Fin 4) (src : BitVec 8) (mode : BitVec 16) (s : State) : Host.Outcome State Fault Refusal :=
  .next (diWord g.val (.units src.toNat mode.toNat) s)

/-- DI_BRKEN (R190, R196). -/
def execDiBrken (g : Fin 4) (brken : BitVec 16) (s : State) : Host.Outcome State Fault Refusal :=
  .next (diWord g.val (.brken brken.toNat) s)

/-- COUNTk word (R193, R194). -/
def countWord (x : DiIsland) (k : Nat) : Word :=
  match x.modeOf k with
  | 1 => w32 (sget 0 x.count k)
  | 2 => w32 ((sget 0 x.count k % 4096) * 2 ^ 20 + sget ageMax x.age k)
  | _ => 0#32

/-! ## Field supply (R192) -/

/-- A condition that must persist for 10 ms before it changes: the flag and the ms for which the measure disagreed. Ten measures 1 ms
apart in a row change it (assumption 114). -/
def persist (flag want : Bool) (ms : Nat) : Bool × Nat :=
  if want = flag then (flag, 0) else if 10 ≤ ms + 1 then (want, 0) else (flag, ms + 1)

/-- What a threshold with 0.5 V hysteresis wants of its flag. -/
def below (flag : Bool) (mv limit : Nat) : Bool := if flag then decide (mv < limit + 500) else decide (mv < limit)

/-- FIELD_SUPPLY_MEASURE (R190, R192). -/
def supplyMeasure (island mv : Nat) (s : State) : State :=
  if islandPowered s island then
    let x := s.sup island
    let l := persist x.low (below x.low mv 19200) x.lowMs
    let m := persist x.missing (below x.missing mv 10000) x.missMs
    let y : Supply := { mv := mv, low := l.1, missing := m.1, lowMs := l.2, missMs := m.2 }
    let s1 := { s with supply := sset supply0 s.supply island y }
    if m.1 then
      if island ≤ 14 then s1.setDi (island - 11) { (s1.diI (island - 11)) with broken := 0 }
      else if island ≤ 16 then s1.setDo (island - 15) { (s1.doI (island - 15)) with opens := 0 }
      else s1
    else s1
  else s

/-- FIELD_SUPPLY_MEASURE. -/
def execFieldSupplyMeasure (island : Fin 25) (mv : BitVec 16) (s : State) : Host.Outcome State Fault Refusal :=
  guarded (.fieldSupplyMeasure island mv) (supplyMeasure island.val mv.toNat) s

/-- The SUPPLY word (Table 7-3). -/
def supplyWord (x : Supply) (safe cfgd : Bool) : Word :=
  w32 (x.mv % 2 ^ 16 + b2n x.low * 2 ^ 16 + b2n x.missing * 2 ^ 17 + b2n safe * 2 ^ 18 + b2n cfgd * 2 ^ 19)

/-! ## DO groups -/

/-- CFGD of a DO island (R198). -/
def DoIsland.cfgd (x : DoIsland) : Bool := x.gotSafe && x.gotHold && x.gotOl

/-- Bits of `a` that are not in `b`, of 16. -/
def minus16 (a b : Nat) : Nat := maskOf ((bitsOf 16 a).filter (fun c => !(b.testBit c)))

/-- Drive the stages from the OUT word last accepted: off without CFGD or a first OUT word (R198), off while latched (R199);
a stage that switches on is no longer open (R200). -/
def DoIsland.applyOut (x : DoIsland) : DoIsland :=
  let d := if x.cfgd && x.gotOut then minus16 x.out x.ovl else 0
  { x with drive := d, opens := minus16 x.opens d }

/-- The safe value of a DO group: the value last driven where HOLD is set, else SAFE (R201). -/
def doSafeValue (x : DoIsland) : Nat := (x.drive &&& x.hold) ||| minus16 x.safe x.hold

/-- Drive the safe values; an island without CFGD or a first OUT word keeps every stage off (R198), and a latched stage stays off. -/
def DoIsland.applySafe (x : DoIsland) : DoIsland :=
  let v := minus16 (if x.cfgd && x.gotOut then doSafeValue x else 0) x.ovl
  { x with drive := v, opens := minus16 x.opens v }

/-- An OUT word at a DO island (R198, R199, R201): ignored during safe values without ACK_SAFE; an accepted word clears the
latches of its channels at 0. -/
def doOut (h v : Nat) (ack : Bool) (s : State) : State :=
  let x := s.doI h
  if !x.powered then s
  else if x.safeOn && !ack then s
  else
    let y := { x with out := v, gotOut := true, safeOn := false, ovl := x.ovl &&& v }
    s.setDo h (if hasApply s (15 + h) then y else y.applyOut)

/-- OUT. -/
def execDoOut (h : Fin 2) (v : BitVec 16) (ack : Bool) (s : State) : Host.Outcome State Fault Refusal :=
  .next (doOut h.val v.toNat ack s)

/-- A configuration word for a powered DO island (R198). -/
def doWord (h : Nat) (f : DoIsland → DoIsland) (s : State) : State :=
  let x := s.doI h
  if x.powered then s.setDo h (f x) else s

/-- A configuration word of a DO island; while the island applies safe values it takes them from the last words received (R201). -/
def doCfg (h : Nat) (f : DoIsland → DoIsland) (s : State) : State :=
  doWord h (fun x => if x.safeOn then (f x).applySafe else f x) s

/-- DO_SAFE (R201). -/
def execDoSafe (h : Fin 2) (v : BitVec 16) (s : State) : Host.Outcome State Fault Refusal :=
  .next (doCfg h.val (fun x => { x with safe := v.toNat, gotSafe := true }) s)

/-- DO_HOLD (R201). -/
def execDoHold (h : Fin 2) (v : BitVec 16) (s : State) : Host.Outcome State Fault Refusal :=
  .next (doCfg h.val (fun x => { x with hold := v.toNat, gotHold := true }) s)

/-- DO_OL_EN (R200): OPEN of a channel no longer enabled clears with its output outside the band for 20 ms (OPEN_LOAD). -/
def execDoOlEn (h : Fin 2) (v : BitVec 16) (s : State) : Host.Outcome State Fault Refusal :=
  .next (doCfg h.val (fun x => { x with olen := v.toNat, gotOl := true }) s)

/-- OVL_LATCH (R199): the stage is switched off and the latch set. -/
def execOvlLatch (h : Fin 2) (c : Fin 16) (s : State) : Host.Outcome State Fault Refusal :=
  .next (doWord h.val (fun x => { x with ovl := x.ovl ||| (2 ^ c.val), drive := minus16 x.drive (2 ^ c.val) }) s)

/-- OPEN_LOAD (R200): set with OL_EN, the stage off and the supply not MISSING; cleared outside the band. -/
def openLoad (h c : Nat) (inBand : Bool) (s : State) : State :=
  doWord h (fun x =>
    if inBand then
      (if x.olen.testBit c && !(x.drive.testBit c) && !(s.sup (15 + h)).missing then { x with opens := x.opens ||| (2 ^ c) } else x)
    else { x with opens := minus16 x.opens (2 ^ c) }) s

/-- OPEN_LOAD. -/
def execOpenLoad (h : Fin 2) (c : Fin 16) (inBand : Bool) (s : State) : Host.Outcome State Fault Refusal :=
  .next (openLoad h.val c.val inBand s)

/-! ## Analogue groups -/

/-- CFGD of an analogue island: KINDs 0x1 to 0x5 of all four channels (R214). -/
def AoIsland.cfgd (x : AoIsland) : Bool := (List.range 4).all (fun c => (x.chan c).got == 62)

/-- The target code T (R212). -/
def AoCh.targetCode (y : AoCh) : Nat :=
  if y.alm = 1 then y.almLo else if y.alm = 2 then y.almHi
  else if y.clamp then max 10377 (min y.code 55979) else y.code

/-- DAC = ZERO + round(T × (32,768 + SPAN) / 32,768), ties away from zero, limited to 0 to 65,535 (R212). -/
def AoCh.dacOf (y : AoCh) (t : Nat) : Int :=
  let r : Int := ((2 * (t * (32768 + sxt 12 y.span).toNat) + 32768) / 65536 : Nat)
  max 0 (min 65535 (sxt 12 y.zero + r))

/-- Regulate toward a target code. -/
def AoCh.driveTo (y : AoCh) (t : Nat) : AoCh := { y with on := true, target := t, dac := y.dacOf t }

/-- The stage goes high-impedance: COMPLIANCE and RB_DEV clear at once (R216, R217). -/
def AoCh.off (y : AoCh) : AoCh := { y with on := false, compliance := false, rbDev := false }

/-- Take a held MODE word (R214). -/
def AoCh.takeHeld (y : AoCh) : AoCh :=
  match y.heldMode with
  | none => y
  | some (m, i, c, sm) => { y with mode := m, insrc := i, clamp := c, safemode := sm, heldMode := none }

/-- Apply the latest ACMD and AOUT words to one channel (R212, R214). -/
def applyChan (x : AoIsland) (c : Nat) : AoIsland :=
  let p := sget (0, 0) x.pendCode c
  let y0 := { (x.chan c) with code := p.1, alm := p.2 }
  let y := if x.en.testBit c then y0 else y0.takeHeld
  let y' := if x.cfgd && x.gotAcmd && x.en.testBit c && !y.mode && !y.miswire then y.driveTo y.targetCode else y.off
  x.setChan c y'

/-- The target code of a channel that regulates while safe values apply: by SAFEMODE 2 to 4 its safe level, by SAFEMODE 1 the
target code last driven; none at SAFEMODE 0 (R219). -/
def AoCh.safeTarget (y : AoCh) : Option Nat :=
  match y.safemode with
  | 1 => some y.target
  | 2 => some y.safeCode
  | 3 => some y.almLo
  | 4 => some y.almHi
  | _ => none

/-- The safe state of an analogue channel by its SAFEMODE (R219); SAFEMODE 1 leaves a high-impedance stage so. -/
def aoSafeChan (x : AoIsland) (c : Nat) : AoIsland :=
  let y := x.chan c
  if y.mode then x else
  x.setChan c (match y.safeTarget with
    | some t => if y.miswire then y.off else if y.safemode = 1 ∧ !y.on then y else y.driveTo t
    | none => y.off)

/-- Apply all four channels: the safe states of an island that applies safe values, by the settings of the last words received (R219);
an island without CFGD or a first ACMD word keeps every stage off (R214). -/
def AoIsland.applyAo (x : AoIsland) : AoIsland :=
  if x.safeOn then (if x.cfgd && x.gotAcmd then (List.range 4).foldl aoSafeChan x else x) else (List.range 4).foldl applyChan x

/-- A word for a powered analogue island. -/
def aoWord (a : Nat) (f : AoIsland → AoIsland) (s : State) : State :=
  let x := s.aoI a
  if x.powered then s.setAo a (f x) else s

/-- AOUT_CODE (R213): ALM = 3 is ignored; applied on arrival where the island has no apply entry (R83). -/
def aoutCode (a c code alm : Nat) (s : State) : State :=
  if alm = 3 then s else
  aoWord a (fun x =>
    let y := { x with pendCode := sset (0, 0) x.pendCode c (code, alm) }
    if hasApply s (17 + a) then y else y.applyAo) s

/-- AOUT_CODE. -/
def execAoutCode (a c : Fin 4) (code : BitVec 16) (alm : BitVec 2) (s : State) : Host.Outcome State Fault Refusal :=
  .next (aoutCode a.val c.val code.toNat alm.toNat s)

/-- Is the stage of a channel enabled, sourcing or with EN = 1 in a configured island (R214)? -/
def AoIsland.enabled (x : AoIsland) (c : Nat) : Bool := (x.chan c).on || (x.cfgd && x.gotAcmd && x.en.testBit c)

/-- AOUT_MODE (R214): a MODE change of an enabled stage is held until EN is 0. -/
def aoutMode (c : Nat) (mode insrc clamp : Bool) (sm : Nat) (x : AoIsland) : AoIsland :=
  let y := { (x.chan c) with got := (x.chan c).got ||| 2 }
  x.setChan c (if mode != y.mode && x.enabled c then { y with heldMode := some (mode, insrc, clamp, sm) }
    else { y with mode := mode, insrc := insrc, clamp := clamp, safemode := sm, heldMode := none })

/-- A configuration word of a powered analogue island: a stage regulates toward its target code by the values in force, from
the word's arrival where the island has no apply entry, else from its next apply instant (R83, R212). -/
def aoCfg (a : Nat) (f : AoIsland → AoIsland) (s : State) : State :=
  aoWord a (fun x => if hasApply s (17 + a) then f x else (f x).applyAo) s

/-- AOUT_MODE. -/
def execAoutMode (a c : Fin 4) (mode insrc clamp : Bool) (safemode : BitVec 3) (s : State) : Host.Outcome State Fault Refusal :=
  .next (aoCfg a.val (aoutMode c.val mode insrc clamp safemode.toNat) s)

/-- AOUT_SAFE (R213). -/
def execAoutSafe (a c : Fin 4) (v : BitVec 16) (s : State) : Host.Outcome State Fault Refusal :=
  .next (aoCfg a.val (fun x => x.setChan c.val { (x.chan c.val) with safeCode := v.toNat, got := (x.chan c.val).got ||| 4 }) s)

/-- AOUT_ALM_LO (R213). -/
def execAoutAlmLo (a c : Fin 4) (v : BitVec 16) (s : State) : Host.Outcome State Fault Refusal :=
  .next (aoCfg a.val (fun x => x.setChan c.val { (x.chan c.val) with almLo := v.toNat, got := (x.chan c.val).got ||| 8 }) s)

/-- AOUT_ALM_HI (R213). -/
def execAoutAlmHi (a c : Fin 4) (v : BitVec 16) (s : State) : Host.Outcome State Fault Refusal :=
  .next (aoCfg a.val (fun x => x.setChan c.val { (x.chan c.val) with almHi := v.toNat, got := (x.chan c.val).got ||| 16 }) s)

/-- AOUT_TRIM (R212, R213). -/
def execAoutTrim (a c : Fin 4) (zero span : BitVec 12) (s : State) : Host.Outcome State Fault Refusal :=
  .next (aoCfg a.val (fun x => x.setChan c.val { (x.chan c.val) with zero := zero.toNat, span := span.toNat, got := (x.chan c.val).got ||| 32 }) s)

/-- An ACMD word at an analogue island (R214, R219). -/
def acmd (a en : Nat) (ack : Bool) (s : State) : State :=
  aoWord a (fun x =>
    if x.safeOn && !ack then x else
    let y := { x with en := en, gotAcmd := true, safeOn := false }
    if hasApply s (17 + a) then y else y.applyAo) s

/-- ACMD. -/
def execAcmd (a : Fin 4) (en : BitVec 4) (ack : Bool) (s : State) : Host.Outcome State Fault Refusal :=
  .next (acmd a.val en.toNat ack s)

/-- Change one channel of a powered analogue island. -/
def aoChan (a c : Nat) (f : AoCh → AoCh) (s : State) : State := aoWord a (fun x => x.setChan c (f (x.chan c))) s

/-- COMPLIANCE (R216): set for an enabled output stage, and then the readback check is suspended (R217). -/
def execCompliance (a c : Fin 4) (v : Bool) (s : State) : Host.Outcome State Fault Refusal :=
  .next (aoChan a.val c.val (fun y =>
    if v then (if y.on && !y.mode then { y with compliance := true, rbDev := false } else y)
    else { y with compliance := false }) s)

/-- RB_DEV (R217): checked when DIAG.RBCHK = 1, the stage is enabled and COMPLIANCE is clear. -/
def execRbDev (a c : Fin 4) (v : Bool) (s : State) : Host.Outcome State Fault Refusal :=
  .next (aoChan a.val c.val (fun y =>
    if v then { y with rbDev := y.rbDev || (s.rb (Reg.aioAgDiag a.val) 16 && y.on && !y.compliance) }
    else { y with rbDev := false }) s)

/-- MISWIRE (R218): an enabled stage goes high-impedance and MISWIRE sets. -/
def execMiswire (a c : Fin 4) (s : State) : Host.Outcome State Fault Refusal :=
  .next (aoChan a.val c.val (fun y => if y.on then { y.off with miswire := true } else y) s)

/-- MISWIRE_RESUME (R218): the stage regulates again with EN still 1, without admission; while safe values apply, toward what
SAFEMODE gives (R219). -/
def miswireResume (c : Nat) (x : AoIsland) : AoIsland :=
  let y := x.chan c
  if y.miswire then
    let z := { y with miswire := false }
    let t := if x.safeOn then z.safeTarget else some z.targetCode
    x.setChan c (if x.cfgd && x.gotAcmd && x.en.testBit c && !z.mode then (match t with | some v => z.driveTo v | none => z) else z)
  else x

/-- MISWIRE_RESUME. -/
def execMiswireResume (a c : Fin 4) (s : State) : Host.Outcome State Fault Refusal :=
  .next (aoWord a.val (miswireResume c.val) s)

/-! ## Instants and safe values -/

/-- APPLY_INSTANT (R83): at an apply entry of the plan that applies in this minor cycle. -/
def applyInstant (island : Nat) (s : State) : State :=
  if !(applyDue s island) then s
  else if island ≤ 16 then doWord (island - 15) (fun x => if x.safeOn then x else x.applyOut) s
  else aoWord (island - 17) AoIsland.applyAo s

/-- APPLY_INSTANT. -/
def execApplyInstant (island : Fin 25) (s : State) : Host.Outcome State Fault Refusal :=
  guarded (.applyInstant island) (applyInstant island.val) s

/-- SAFE_VALUE_TIMEOUT (R19, R201, R219). -/
def safeTimeout (island : Nat) (s : State) : State :=
  if island ≤ 16 then
    doWord (island - 15) (fun x =>
      if x.safeOn then x else { x.applySafe with safeOn := true }) s
  else
    aoWord (island - 17) (fun x =>
      if x.safeOn then x else { x with safeOn := true }.applyAo) s

/-- SAFE_VALUE_TIMEOUT. -/
def execSafeValueTimeout (island : Fin 25) (s : State) : Host.Outcome State Fault Refusal :=
  guarded (.safeValueTimeout island) (safeTimeout island.val) s

/-- The words a DI island latches at a sample instant (R189, R190, R193, R192). -/
def diWords (s : State) (g : Nat) : List Word :=
  let x := s.diI g
  [w32 (x.state + x.changed * 2 ^ 16), w32 x.broken] ++ (List.range 8).map (countWord x) ++
    [supplyWord (s.sup (11 + g)) false x.cfgd]

/-- The words a DO island latches (R200, R192); `rb` is its measured readback. -/
def doWords (s : State) (h rb : Nat) : List Word :=
  let x := s.doI h
  [w32 (rb % 2 ^ 16), w32 (x.ovl + x.opens * 2 ^ 16), supplyWord (s.sup (15 + h)) x.safeOn x.cfgd]

/-- ASTAT (R215). -/
def astatWord (s : State) (a : Nat) : Word :=
  let x := s.aoI a
  let m (f : AoCh → Bool) (lo : Nat) : Nat := maskOf (((List.range 4).filter (fun c => f (x.chan c))).map (fun c => c + lo))
  supplyWord (s.sup (17 + a)) x.safeOn x.cfgd ||| w32 (m (fun y => y.compliance) 20 + m (fun y => y.miswire) 24 + m (fun y => y.limit) 28)

/-- The words an analogue island latches (Table 8-4), from the measured codes: four RB, four AIN, four HEAD in mV. -/
def aoWords (s : State) (a : Nat) (meas : List (BitVec 16)) : List Word :=
  let x := s.aoI a
  let v (k : Nat) : Nat := ((meas.drop k).headD 0#16).toNat
  (List.range 4).map (fun c => w32 (v c + b2n (x.chan c).rbDev * 2 ^ 16 + b2n (x.chan c).on * 2 ^ 17)) ++
  (List.range 4).map (fun c => w32 (if (x.chan c).mode && (x.chan c).insrc then v c else v (4 + c))) ++
  (List.range 4).map (fun c => w32 (if (x.chan c).on && !(x.chan c).mode then v (8 + c) else 0)) ++
  [astatWord s a]

/-- LIMIT follows the input limiter of the channels in input mode (R218). -/
def setLimits (limits : Nat) (x : AoIsland) : AoIsland :=
  (List.range 4).foldl (fun z c => z.setChan c { (z.chan c) with limit := (z.chan c).mode && limits.testBit c }) x

/-- The sample instant of an entry with OFFSET: fabric time at that core cycle, bits 31:0 (R83, assumption 87). -/
def instantNs (s : State) (offset : Nat) : Word := w32 (s.nowNs offset)

/-- Note the sample instant of the words under way from ports `lo` to `lo + n - 1`. -/
def noteInstant (lo : Nat) (v : Word) : Nat → State → State
  | 0, s => s
  | n + 1, s => noteInstant lo v n { s with stime := sset 0#32 s.stime (2048 + lo + n) v }

/-- SAMPLE_INSTANT (R81, R83): at a sample entry of the plan that applies in this minor cycle, latch, and send every inbound
word; `meas` and `limits` are what the island measures. -/
def sampleInstant (island offset : Nat) (meas : List (BitVec 16)) (limits : Nat) (s : State) : State :=
  if islandPowered s island && sampleDue s island offset then
    let s0 := noteInstant (64 * island) (instantNs s offset) (inboundCount island) s
    if island ≤ 14 then
      let s1 := sendIn island 0 (diWords s0 (island - 11)) s0
      s1.setDi (island - 11) { (s1.diI (island - 11)) with changed := 0 }
    else if island ≤ 16 then sendIn island 0 (doWords s0 (island - 15) (meas.headD 0#16).toNat) s0
    else
      let s1 := s0.setAo (island - 17) (setLimits limits (s0.aoI (island - 17)))
      sendIn island 0 (aoWords s1 (island - 17) meas) s1
  else s

/-- SAMPLE_INSTANT. -/
def execSampleInstant (island : Fin 25) (offset : BitVec 17) (meas : List (BitVec 16)) (limits : BitVec 4) (s : State) :
    Host.Outcome State Fault Refusal :=
  guarded (.sampleInstant island offset meas limits) (sampleInstant island.val offset.toNat meas limits.toNat) s

/-- A field island is powered: nothing kept from before, every stage off (R149, R198, R214). -/
def powerIsland (island : Nat) (s : State) : State :=
  let s0 := { s with supply := sset supply0 s.supply island supply0 }
  if island ≤ 14 then s0.setDi (island - 11) { di0 with powered := true }
  else if island ≤ 16 then s0.setDo (island - 15) { do0 with powered := true }
  else s0.setAo (island - 17) { ao0 with powered := true }

/-- Every field island loses power: outputs off, nothing kept (R132, R204, R222). -/
def unpowerIslands (s : State) : State := { s with di := [], dout := [], ao := [], supply := [] }

end Sys2Proof.Machine
end

