-- ==== Sys2Proof/Machine/PairRow.lean ====
section
/-! DEFINITION. One pairing check of a commit or of the configuration at start (R118, R125), and lifted binary32 arithmetic
for the paths whose arithmetic the spec gives (R153). -/

namespace Sys2Proof.Machine

/-- A pairing: its commit reason (Table 4-8), the registers whose fields it involves, and whether it holds. -/
structure PairRow where
  reason : Nat
  regs : List Nat
  ok : Bool
  deriving DecidableEq, Repr

/-- A configuration as a pairing check sees it: the prospective value of each register. -/
abbrev CfgView := Nat → Word

/-- The pairing of `n` registers in one list. -/
def pr (reason : Nat) (regs : List Nat) (ok : Bool) : PairRow := { reason := reason, regs := regs, ok := ok }

/-! ## binary32 values with the flags gathered on the way -/

def fv (w : Word) : FRes := (w, 0)
def rAdd (a b : FRes) : FRes := let r := fAdd a.1 b.1; (r.1, a.2 ||| b.2 ||| r.2)
def rSub (a b : FRes) : FRes := let r := fSub a.1 b.1; (r.1, a.2 ||| b.2 ||| r.2)
def rMul (a b : FRes) : FRes := let r := fMul a.1 b.1; (r.1, a.2 ||| b.2 ||| r.2)
def rDiv (a b : FRes) : FRes := let r := fDiv a.1 b.1; (r.1, a.2 ||| b.2 ||| r.2)
def rMax (a b : FRes) : FRes := let r := fMax a.1 b.1; (r.1, a.2 ||| b.2 ||| r.2)
def rMin (a b : FRes) : FRes := let r := fMin a.1 b.1; (r.1, a.2 ||| b.2 ||| r.2)
def rSqrt (a : FRes) : FRes := let r := fSqrt a.1; (r.1, a.2 ||| r.2)
def rAbs (a : FRes) : FRes := let r := fAbs a.1; (r.1, a.2 ||| r.2)
def rNeg (a : FRes) : FRes := let r := fNeg a.1; (r.1, a.2 ||| r.2)
/-- d + a × b, one rounding (FMA). -/
def rFma (d a b : FRes) : FRes :=
  let r := fMulAdd Config.fmaNanInvalid false d.1 a.1 b.1
  (r.1, d.2 ||| a.2 ||| b.2 ||| r.2)
/-- FCVTI of an integer. -/
def rInt (v : Int) : FRes := fRoundInt v 0 false
/-- A ≥ B as FCMP GE gives it. -/
def rGe (a b : FRes) : Bool := (fCmp 3 a.1 b.1).1
/-- A < B as FCMP LT gives it. -/
def rLt (a b : FRes) : Bool := (fCmp 2 a.1 b.1).1
/-- The sum of a list from its first element. -/
def rSum : List FRes → FRes
  | [] => (0#32, 0)
  | x :: xs => xs.foldl rAdd x
/-- The whole part of a finite number that is not negative. -/
def fWhole (w : Word) : Nat := if fIsFin w && !(fSign w) then (if 0 ≤ fPow w then fMant w * 2 ^ (fPow w).toNat else fMant w / 2 ^ (-(fPow w)).toNat) else 0

end Sys2Proof.Machine
end

