-- ==== Sys2Proof/Machine/Display.lean ====
section
/-! DEFINITION. The display island: panels, rectangles, bands and force segments (R343 to R358). -/

namespace Sys2Proof.Machine

def panel0 : Panel :=
  { ram := [], flight := [], pend := [], cfg := none, next := none, fseg := none, fsegOn := none, slot := 0, ntc := none, bands := [], reads := [], run := 0, ntcFault := false,
    temp := none, band := 0, chosen := false, on := false, drive := none, last := none, idle := false, vFault := false, vOk := false, force := false }

def State.pan (s : State) (p : Nat) : Panel := sget panel0 s.lcd.panels p
def State.setPan (s : State) (p : Nat) (x : Panel) : State := { s with lcd := { s.lcd with panels := sset panel0 s.lcd.panels p x } }

/-- Fields of the words received (Table 13-5). -/
def pEn (x : Panel) : Bool := match x.cfg with | some w => bit w 25 | none => false
def pComs (x : Panel) : Nat := match x.cfg with | some w => fld w 23 21 + 1 | none => 0
def pSegs (x : Panel) : Nat := match x.cfg with | some w => fld w 20 13 | none => 0
def pNbands (x : Panel) : Nat := match x.ntc with | some w => fld w 25 23 + 1 | none => 0
def pNtcEn (x : Panel) : Bool := match x.ntc with | some w => bit w 22 | none => false
def pTfix (x : Panel) : Int := match x.ntc with | some w => sxt 8 (fld w 21 14) | none => 0
def pBeta (x : Panel) : Nat := match x.ntc with | some w => fld w 12 0 | none => 0
def bandTlo (x : Panel) (b : Nat) : Int := sxt 8 (fld (sget 0#32 x.bands b) 7 0)
def bandV (x : Panel) (b : Nat) : Nat := fld (sget 0#32 x.bands b) 22 12

/-- CFGD (R356): a PANEL, an FSEG and an NTC word, and a BAND word of each band. -/
def pCfgd (x : Panel) : Bool :=
  x.cfg.isSome && x.fseg.isSome && x.ntc.isSome && (List.range (pNbands x)).all (fun b => sget 0#32 x.bands b != 0#32)

/-! ## What is published (R343, R361) -/

def lcdRec (s : State) (code sev subject : Nat) (d : List Word) : State := s.logOnce code 0xB sev subject d

def panBits (s : State) (f : Panel → Bool) : Nat := maskOf ((List.range 4).filter (fun p => f (s.pan p)))

/-- LCD_Pp_STAT bits 13:0. -/
def panStat (x : Panel) : Nat :=
  x.flight.length + 8 * x.pend.length + 128 * x.band + 1024 * b2n (pCfgd x) + 2048 * b2n x.on + 4096 * b2n x.ntcFault + 8192 * b2n x.vFault

/-- The temperature in force (R348). -/
def panTemp (x : Panel) : Int := x.temp.getD 0

/-- The display path publishes what its queries show. -/
def lcdShow (s : State) : State :=
  let st := w32 (panBits s (fun x => x.on) + 16 * panBits s pCfgd + 256 * panBits s (fun x => x.ntcFault) + 4096 * panBits s (fun x => x.vFault) +
    65536 * b2n s.lcd.force)
  (s.publish ([(Reg.lcdStat, st), (Reg.lcdBadwords, w32 ((s.lcd.bad + s.lcd.pathBad) % 65536))] ++ (List.range 4).flatMap (fun p =>
    [(Reg.lcdPStat p, w32 (panStat (s.pan p) + 65536 * bandV (s.pan p) (s.pan p).band)),
     (Reg.lcdPTemp p, setFld 0#32 15 0 (w32i (panTemp (s.pan p))).toNat)]))).republish
    ([Reg.lcdEvt] ++ (List.range 4).map Reg.lcdPCnt)

/-- A count of bad words has grown: it is flagged and recorded (R360, R361). -/
def badNote (s : State) : State :=
  let n := (s.lcd.bad + s.lcd.pathBad) % 65536
  lcdRec (s.orReg Reg.lcdEvt 4) 0xB03 4 n [w32 n]

/-- A bad word at the island (R352, R356). -/
def badWord (s : State) : State := badNote { s with lcd := { s.lcd with bad := s.lcd.bad + 1 } }

/-- A word that the display path discards (R352). -/
def badPath (s : State) : State := badNote { s with lcd := { s.lcd with pathBad := s.lcd.pathBad + 1 } }

/-- Count rectangles in LCD_Pp_CNT: lo 0 DONE, 8 DROPPED, 16 REFUSED. -/
def cntRect (p lo n : Nat) (s : State) : State := s.setRf (Reg.lcdPCnt p) (lo + 7) lo (s.rf (Reg.lcdPCnt p) (lo + 7) lo + n)

/-- The display island acts while it has its power. -/
def lcdTake (f : State → State) (s : State) : State := if s.lcd.powered then lcdShow (f s) else s

/-- A command of the display island. -/
def lcdWord (f : State → State) (s : State) : Host.Outcome State Fault Refusal := .next (lcdTake f s)

/-! ## Rectangles (R351 to R354) -/

def covers (a b : Rect) : Bool :=
  decide (a.com0 ≤ b.com0 ∧ b.com1 ≤ a.com1 ∧ a.seg0 ≤ b.seg0 ∧ b.seg1 ≤ a.seg1)
def overlaps (a b : Rect) : Bool :=
  decide (a.com0 ≤ b.com1 ∧ b.com0 ≤ a.com1 ∧ a.seg0 ≤ b.seg1 ∧ b.seg0 ≤ a.seg1)

/-- Words of a rectangle: W for each common. -/
def rectW (r : Rect) : Nat := (r.seg1 - r.seg0 + 32) / 32
def rectN (r : Rect) : Nat := (r.com1 - r.com0 + 1) * rectW r

/-- The rectangle that a RECT word names. -/
def rectOf (w : Word) : Rect :=
  { panel := fld w 27 26, com0 := fld w 22 20, com1 := fld w 25 23, seg0 := fld w 7 0, seg1 := fld w 15 8,
    word := setFld w 31 28 1, data := [] }

/-- A RECT word: with a reserved bit set it is ignored (R356); otherwise it opens a rectangle, or is a bad word, and an open
rectangle is abandoned (R352). -/
def rectArrive (w : Word) (s0 : State) : State :=
  if fld w 19 16 ≠ 0 then badWord s0 else
  let s := if s0.lcd.opened.isSome then badWord { s0 with lcd := { s0.lcd with opened := none } } else s0
  let r := rectOf w
  let x := s.pan r.panel
  if r.com1 < r.com0 ∨ pComs x ≤ r.com1 ∨ r.seg1 < r.seg0 ∨ pSegs x ≤ r.seg1 ∨ !(pCfgd x) ∨ !(pEn x) then badWord s
  else { s with lcd := { s.lcd with opened := some r } }

/-- RECT. -/
def execRectWord (w : BitVec 28) (s : State) : Host.Outcome State Fault Refusal := lcdWord (rectArrive (w.setWidth 32)) s

/-- Pending rectangles that a new one covers are dropped (R353). -/
def dropCovered (r : Rect) (s : State) : State :=
  let x := s.pan r.panel
  let gone := x.pend.filter (covers r)
  let s1 := s.setPan r.panel { x with pend := x.pend.filter (fun q => !(covers r q)) }
  gone.foldl (fun t q => lcdRec ((cntRect r.panel 8 1 t).orReg Reg.lcdEvt 2) 0xB02 2 r.panel [w32 r.panel, q.word]) s1

/-- The request instant of a rectangle (R353). -/
def placeRect (r : Rect) (s : State) : State :=
  let s1 := dropCovered r s
  let x := s1.pan r.panel
  if x.flight.length < 4 ∧ !(x.flight.any (overlaps r)) ∧ !(x.pend.any (overlaps r)) then s1.setPan r.panel { x with flight := x.flight ++ [r] }
  else if x.pend.length < 8 then s1.setPan r.panel { x with pend := x.pend ++ [r] }
  else lcdRec ((cntRect r.panel 16 1 s1).orReg Reg.lcdEvt 1) 0xB01 4 r.panel [w32 r.panel, r.word]

/-- A SEGDATA word joins the open rectangle; the last one is its request instant (R352). -/
def segdata (w : Word) (s : State) : State :=
  match s.lcd.opened with
  | none => badWord s
  | some r =>
    let r1 := { r with data := r.data ++ [w] }
    if r1.data.length = rectN r1 then placeRect r1 { s with lcd := { s.lcd with opened := none } }
    else { s with lcd := { s.lcd with opened := some r1 } }

/-- SEGDATA. -/
def execSegdata (w : Word) (s : State) : Host.Outcome State Fault Refusal := lcdWord (segdata w) s

/-- REQUEST_INSTANT: the arrival of the last data word. -/
def execRequestInstant (w : Word) (s : State) : Host.Outcome State Fault Refusal := lcdWord (segdata w) s

/-- Bits of one common's words of a rectangle. -/
def rectRow (r : Rect) (k : Nat) : Nat :=
  let ws := (r.data.drop ((k - r.com0) * rectW r)).take (rectW r)
  (leNat (ws.flatMap (fun w => leBytes 4 w.toNat))) % 2 ^ (r.seg1 - r.seg0 + 1)

/-- The bit of a panel's force segment in common `k` (R355). -/
def forceBit (fseg : Option Word) (k : Nat) : Nat :=
  match fseg with | some w => if fld w 10 8 = k then 2 ^ fld w 7 0 else 0 | none => 0

/-- Write a rectangle into the visible RAM; its bit at the force segment's position is ignored (R354). -/
def writeRect (fseg : Option Word) (ram : Sparse Nat) (r : Rect) : Sparse Nat :=
  ((List.range 8).filter (fun k => decide (r.com0 ≤ k ∧ k ≤ r.com1))).foldl (fun m k =>
    let old := sget 0 m k
    let all := (2 ^ (r.seg1 - r.seg0 + 1) - 1) * 2 ^ r.seg0
    let mask := all - (all &&& forceBit fseg k)
    sset 0 m k (old - (old &&& mask) + ((rectRow r k * 2 ^ r.seg0) &&& mask))) ram

/-- Pending rectangles in request order: each moves into flight when a slot is free and nothing before it overlaps (R354). -/
def promote : List Rect → List Rect → List Rect → List Rect × List Rect
  | flight, stay, [] => (flight, stay)
  | flight, stay, r :: rs =>
    if flight.length < 4 ∧ !(flight.any (overlaps r)) ∧ !(stay.any (overlaps r)) then promote (flight ++ [r]) stay rs
    else promote flight (stay ++ [r]) rs

/-- The drive values a panel asks for: its PANEL word and the VLCD of its band; none while it is not to be driven. -/
def wanted (x : Panel) : Option (Word × Nat) :=
  match x.cfg with
  | some w => if pEn x && pCfgd x && x.chosen then some (w, bandV x x.band) else none
  | none => none

/-- Do VLCD, COMS, BIAS or CPER differ between two drives (R347)? -/
def redrive (a b : Option (Word × Nat)) : Bool :=
  match a, b with
  | some u, some v => decide (u.2 ≠ v.2) || decide (fld u.1 24 21 ≠ fld v.1 24 21) || decide (fld u.1 9 0 ≠ fld v.1 9 0)
  | _, _ => false

/-- A PANEL word comes into force: a change of COMS or SEGS clears the RAM and drops every rectangle (R356). -/
def panelTake (w : Word) (s : State) : State :=
  let p := fld w 27 26
  let x := { (s.pan p) with cfg := some w, next := none }
  let old := s.pan p
  if old.cfg.isSome && (decide (pComs old ≠ pComs x) || decide (pSegs old ≠ pSegs x)) then
    (x.flight ++ x.pend).foldl (fun t q => lcdRec ((cntRect p 8 1 t).orReg Reg.lcdEvt 2) 0xB02 2 p [w32 p, q.word])
      (s.setPan p { x with ram := [], flight := [], pend := [] })
  else s.setPan p x

/-- What a frame boundary does, a waiting PANEL word first (assumption 102), then R354's two steps; the drive values, the force
segment and slot 0 of the next frame; drive values other than the last ones begin an idle interval, also where the panel was not driven
meanwhile (R347, R350, R354, R355). -/
def frameTurn (p : Nat) (s0 : State) : State :=
  let s := match (s0.pan p).next with | some w => panelTake w s0 | none => s0
  let x := s.pan p
  let pr := promote [] [] x.pend
  let vf := x.vFault && !x.vOk
  let d := if s.lcd.gen then wanted x else none
  let y := { x with
    ram := x.flight.foldl (writeRect x.fseg) x.ram, flight := pr.1, pend := pr.2, drive := d,
    last := if d.isSome then d else x.last, idle := redrive x.last d,
    vFault := vf, vOk := x.vOk && vf, on := d.isSome && !vf, slot := 0, fsegOn := x.fseg, force := s.lcd.force }
  (cntRect p 0 x.flight.length s).setPan p y

/-- Is a panel short of its last slot: a frame is COMS slots (R347), and in the idle interval there is none. -/
def midFrame (x : Panel) : Bool := x.idle || (x.drive.isSome && decide (x.slot + 1 < pComs x))

/-- A frame boundary of a panel: it lies after the last slot of a frame alone; while the panel is not driven it may lie anywhere. -/
def frameBoundary (p : Nat) (s : State) : State := if midFrame (s.pan p) then s else frameTurn p s

/-- FRAME_BOUNDARY. -/
def execFrameBoundary (p : Fin 4) (s : State) : Host.Outcome State Fault Refusal := lcdWord (frameBoundary p.val) s

/-- IDLE_INTERVAL_END: the next frame runs at the new values. -/
def execIdleIntervalEnd (p : Fin 4) (s : State) : Host.Outcome State Fault Refusal :=
  lcdWord (fun t => t.setPan p.val { (t.pan p.val) with idle := false }) s

/-! ## Queries and force (R355, R357) -/

/-- A QUERY word. -/
def lcdQuery (w : Word) (s : State) : State :=
  let p := fld w 27 26
  let pg := fld w 25 24
  if fld w 23 0 ≠ 0 ∨ pg = 3 then badWord s else
  let head := p * 2 ^ 30 + pg * 2 ^ 28
  if pg = 0 then
    sendIn 21 0 [w32 (head + 65536 * b2n s.lcd.force + panStat (s.pan p)),
      setFld (w32 (p * 2 ^ 30)) 15 0 (w32i (panTemp (s.pan p))).toNat] s
  else sendIn 21 0 [w32 (head + (if pg = 1 then s.rf (Reg.lcdPCnt p) 23 0 else s.lcd.bad % 65536))] s

/-- QUERY. -/
def execLcdQuery (w : BitVec 28) (s : State) : Host.Outcome State Fault Refusal := lcdWord (lcdQuery (w.setWidth 32)) s

/-- A FORCE word. -/
def lcdForce (w : Word) (s : State) : State :=
  if fld w 27 1 ≠ 0 then badWord s else { s with lcd := { s.lcd with force := bit w 0 } }

/-- FORCE. -/
def execLcdForce (w : BitVec 28) (s : State) : Host.Outcome State Fault Refusal := lcdWord (lcdForce (w.setWidth 32)) s

/-- A slot boundary of a panel: its force segment takes the last FSEG and FORCE words (R346, R355), and the next slot of the frame
begins; the boundary after the last slot is FRAME_BOUNDARY's. -/
def slotBoundary (p : Nat) (s : State) : State :=
  let x := s.pan p
  s.setPan p { x with force := s.lcd.force, fsegOn := x.fseg, slot := if !x.idle && midFrame x then x.slot + 1 else x.slot }

/-- SLOT_BOUNDARY. -/
def execSlotBoundary (p : Fin 4) (s : State) : Host.Outcome State Fault Refusal := lcdWord (slotBoundary p.val) s

/-! ## Pins (R345, R346, Table 13-1) -/

/-- Is a segment on in its common's slot: its RAM bit, or for the force segment the force state (R351, R355)? -/
def segOn (x : Panel) (k g : Nat) : Bool :=
  match x.fsegOn with
  | some w => if fld w 10 8 = k ∧ fld w 7 0 = g then x.force else (sget 0 x.ram k).testBit g
  | none => (sget 0 x.ram k).testBit g

/-- What a pin of a panel port shows: high impedance, or a level, `num` / `den` of the VLCD in force. -/
inductive Electrode where
  | highZ
  | level (num den : Nat)
  deriving DecidableEq, Repr

/-- The levels of the negative half are V less those of the positive half (R346). -/
def halfLevel (neg : Bool) (num den : Nat) : Electrode := .level (if neg then den - num else num) den

/-- The denominator a of the bias (R346): 3 or 4; with COMS = 1 the drive is static and BIAS is ignored. -/
def biasOf (x : Panel) : Nat :=
  match x.cfg with
  | some w => if pComs x = 1 then 1 else if bit w 24 then 4 else 3
  | none => 1

/-- Does a panel's waveform run: not while VLCD_FAULT holds it, in the idle interval, at EN = 0 or without the generator
(R347, R350, R356, R358)? Else its electrodes are at 0 V. -/
def waveRuns (s : State) (x : Panel) : Bool := s.lcd.gen && x.on && x.drive.isSome && !x.idle

/-- Pin COMk of port `p` in the positive or negative half of the slot under way. Before a first PANEL word no pin is beyond the
used ones, and all are at 0 V (assumption 102). -/
def comPin (s : State) (p k : Nat) (neg : Bool) : Electrode :=
  let x := s.pan p
  if x.cfg.isSome ∧ pComs x ≤ k then .highZ
  else if !(waveRuns s x) then .level 0 1
  else if k = x.slot then halfLevel neg 1 1 else halfLevel neg 1 (biasOf x)

/-- Pin SEGg of port `p`: on 0; off 2V/3, V/2 (2V/4), or V in static drive. -/
def segPin (s : State) (p g : Nat) (neg : Bool) : Electrode :=
  let x := s.pan p
  if x.cfg.isSome ∧ pSegs x ≤ g then .highZ
  else if !(waveRuns s x) then .level 0 1
  else if segOn x x.slot g then halfLevel neg 0 1 else halfLevel neg (min 2 (biasOf x)) (biasOf x)

/-! ## Configuration words (R356) -/

/-- A PANEL word: the first is in force at once, a later one from the next frame boundary (R347, assumption 102). -/
def panelWord (w : Word) (s : State) : State :=
  if fld w 12 10 ≠ 0 then badWord s else
  let x := s.pan (fld w 27 26)
  if x.cfg.isSome then s.setPan (fld w 27 26) { x with next := some w } else panelTake w s

/-- PANEL. -/
def execPanelWord (w : BitVec 28) (s : State) : Host.Outcome State Fault Refusal := lcdWord (panelWord (w.setWidth 32)) s

/-- An FSEG word. -/
def fsegWord (w : Word) (s : State) : State :=
  if fld w 25 11 ≠ 0 then badWord s else s.setPan (fld w 27 26) { (s.pan (fld w 27 26)) with fseg := some w }

/-- FSEG. -/
def execFsegWord (w : BitVec 28) (s : State) : Host.Outcome State Fault Refusal := lcdWord (fsegWord (w.setWidth 32)) s

/-- An NTC word. -/
def ntcWord (w : Word) (s : State) : State :=
  if bit w 13 then badWord s else s.setPan (fld w 27 26) { (s.pan (fld w 27 26)) with ntc := some w }

/-- NTC. -/
def execNtcWord (w : BitVec 28) (s : State) : Host.Outcome State Fault Refusal := lcdWord (ntcWord (w.setWidth 32)) s

/-- A BAND word, kept with its KIND so that band 0 of panel 0 counts as received. -/
def bandWord (w : Word) (s : State) : State :=
  if fld w 11 8 ≠ 0 then badWord s else
  let p := fld w 27 26
  let x := s.pan p
  s.setPan p { x with bands := sset 0#32 x.bands (fld w 25 23) (setFld w 31 28 4) }

/-- BAND. -/
def execBandWord (w : BitVec 28) (s : State) : Host.Outcome State Fault Refusal := lcdWord (bandWord (w.setWidth 32)) s

/-! ## Temperature (R348, R349) -/

/-- A reading of the NTC in Ω: one outside R_NTC is discarded; eight accepted in a row clear NTC_FAULT. -/
def ntcReading (p ohms : Nat) (s : State) : State :=
  let x := s.pan p
  if ohms < 100 ∨ 2000000 < ohms then s.setPan p { x with run := 0 }
  else s.setPan p { x with reads := (ohms :: x.reads).take 8, run := min (x.run + 1) 8, ntcFault := x.ntcFault && decide (x.run + 1 < 8) }

/-- NTC_READING. -/
def execNtcReading (p : Fin 4) (ohms : BitVec 32) (s : State) : Host.Outcome State Fault Refusal := lcdWord (ntcReading p.val ohms.toNat) s

/-- The sum of z / k + z^3 / (k + 2) + …, `z2` being z², in units of 2^-64. -/
def atanhSum (z2 : Nat) : Nat → Nat → Nat → Nat
  | 0, _, _ => 0
  | n + 1, z, k => z / k + atanhSum z2 n (z * z2 / 2 ^ 64) (k + 2)

/-- 2 artanh z = ln ((1 + z) / (1 − z)) for z up to 1/3, in units of 2^-64. -/
def lnRatio (z : Nat) : Nat := 2 * atanhSum (z * z / 2 ^ 64) 20 z 1

/-- The natural logarithm of a positive number to within 2^-56, in units of 2^-64. -/
def lnNat (n : Nat) : Nat :=
  let e := Nat.log2 n
  e * lnRatio (2 ^ 64 / 3) + lnRatio ((n - 2 ^ e) * 2 ^ 64 / (n + 2 ^ e))

/-- The denominator 1 / 298.15 + ln(R / 10 kΩ) / BETA of R348's formula, times 29,815 × BETA, in units of 2^-64. -/
def ntcDen (beta ohms : Nat) : Int := 100 * (beta : Int) * 2 ^ 64 + 29815 * ((lnNat ohms : Int) - lnNat 10000)

/-- T(R) of R348 in units of 2^-32 of 0.1 °C. -/
def ntcTemp (beta ohms : Nat) : Int := 298150 * (beta : Int) * 2 ^ 96 / ntcDen beta ohms - 5463 * 2 ^ 31

/-- The mean temperature of the accepted readings in 0.1 °C (R348), of those there are while there are fewer than 8; the rounding
is a free value, and so is the whole where the formula divides by 0 (assumption 34). -/
def ntcMean (beta : Nat) (reads : List Nat) : Int :=
  if beta = 0 ∨ reads.any (fun r => decide (ntcDen beta r = 0)) then Config.ntcUnstated reads beta
  else
    let sum := reads.foldl (fun a r => a + ntcTemp beta r) 0
    let unit : Int := 2 ^ 32 * reads.length
    sum / unit + (if Config.ntcUp reads beta && decide (sum % unit ≠ 0) then 1 else 0)

/-- The panel temperature: TFIX, or the mean of the last accepted readings. -/
def newTemp (x : Panel) : Option Int :=
  if x.ntcFault || !(pNtcEn x) then x.ntc.map (fun _ => 10 * pTfix x)
  else if x.reads.isEmpty then x.temp else some (ntcMean (pBeta x) x.reads)

/-- The band of T: the highest b with b = 0 or T ≥ TLO_b. -/
def bandOf (x : Panel) (t : Int) : Nat :=
  (List.range (pNbands x)).foldl (fun best b => if b = 0 ∨ 10 * bandTlo x b ≤ t then b else best) 0

/-- The band chosen at a temperature, with its hysteresis of 2.0 °C (R349). -/
def chooseBand (x : Panel) (t : Int) : Nat :=
  let b := x.band
  if !x.chosen then bandOf x t
  else if (b + 1 < pNbands x ∧ 10 * bandTlo x (b + 1) ≤ t) ∨ (b ≠ 0 ∧ t < 10 * bandTlo x b - 20) then bandOf x t else b

/-- The panel temperature is updated and the band chosen. -/
def temperatureUpdate (p : Nat) (s : State) : State :=
  let x := s.pan p
  let y := { x with temp := newTemp x }
  match y.temp with
  | some t =>
    if pCfgd y then
      let b := chooseBand y t
      let s1 := s.setPan p { y with band := b, chosen := true }
      if y.chosen && decide (b ≠ y.band) then
        lcdRec (s1.orReg Reg.lcdEvt 0x20) 0xB06 2 p [w32 p, setFld (w32 b) 31 16 (w32i t).toNat]
      else s1
    else s.setPan p y
  | none => s.setPan p y

/-- TEMPERATURE_UPDATE. -/
def execTemperatureUpdate (p : Fin 4) (s : State) : Host.Outcome State Fault Refusal := lcdWord (temperatureUpdate p.val) s

/-- No reading accepted for 1 s. -/
def ntcFault (p : Nat) (s : State) : State :=
  let x := s.pan p
  if x.ntcFault then s else
  let s1 := s.setPan p { x with ntcFault := true, run := 0, temp := if x.ntc.isSome then some (10 * pTfix x) else x.temp }
  lcdRec (s1.orReg Reg.lcdEvt 8) 0xB04 6 p [w32 p, w32i (pTfix x)]

/-- NTC_FAULT. -/
def execNtcFault (p : Fin 4) (s : State) : Host.Outcome State Fault Refusal := lcdWord (ntcFault p.val) s

/-! ## VLCD (R350) -/

/-- VLCD outside ±10 % for 10 ms while the panel drives. -/
def vlcdFault (p : Nat) (s : State) : State :=
  let x := s.pan p
  if !x.on then s else
  let v := match x.drive with | some d => d.2 | none => 0
  lcdRec ((s.setPan p { x with vFault := true, vOk := false, on := false }).orReg Reg.lcdEvt 0x10) 0xB05 8 p [w32 p, w32 v]

/-- VLCD_FAULT. -/
def execVlcdFault (p : Fin 4) (s : State) : Host.Outcome State Fault Refusal := lcdWord (vlcdFault p.val) s

/-- The restart of a faulted output: with 10 ms in tolerance the panel resumes at its next frame boundary. -/
def execVlcdRestart (p : Fin 4) (ok : Bool) (s : State) : Host.Outcome State Fault Refusal :=
  lcdWord (fun t => if (t.pan p.val).vFault then t.setPan p.val { (t.pan p.val) with vOk := ok } else t) s

/-! ## Power-fail detection (R132, R358) -/

/-- The generator loses its power: every electrode is at 0 V and no panel drives. The island goes on taking words. -/
def lcdPowerOff (s : State) : State :=
  let dark (x : Panel) : Panel := { x with on := false, drive := none, idle := false }
  lcdShow ((List.range 4).foldl (fun t p => t.setPan p (dark (t.pan p))) { s with lcd := { s.lcd with gen := false } })

/-! ## Words at the island's ports (R356) -/

/-- Outbound ports of the display island (Table 3-4). -/
def portSegdata : Nat := 1376
def portRectcmd : Nat := 1377
def portVlcd : Nat := 1378

/-- A word at RECTCMD (Table 13-4). -/
def rectcmdWord (w : Word) (s : State) : State :=
  let v := w &&& 0x0FFFFFFF#32
  match fld w 31 28 with
  | 1 => rectArrive v s
  | 6 => lcdQuery v s
  | 7 => lcdForce v s
  | _ => badWord s

/-- A word at VLCD (Table 13-5). -/
def vlcdWord (w : Word) (s : State) : State :=
  let v := w &&& 0x0FFFFFFF#32
  match fld w 31 28 with
  | 1 => panelWord v s
  | 2 => fsegWord v s
  | 3 => ntcWord v s
  | 4 => bandWord v s
  | _ => badWord s

/-! ## The display path of the image (R343, R344, R352, assumption 103) -/

/-- The words of Table 13-5 of panel `p` from the active registers. -/
def panelWords (s : State) (p : Nat) : List (Nat × Word) :=
  let c := s.reg (Reg.lcdPCfg p)
  let f := s.reg (Reg.lcdPFseg p)
  let n := s.reg (Reg.lcdPNtc p)
  let at_ (v : Nat) : Nat × Word := (portVlcd, w32 (v + p * 2 ^ 26))
  [at_ (2 ^ 28 + b2n (bit c 0) * 2 ^ 25 + b2n (bit c 1) * 2 ^ 24 + fld c 4 2 * 2 ^ 21 + fld c 15 8 * 2 ^ 13 + fld c 25 16),
   at_ (2 * 2 ^ 28 + fld f 2 0 * 2 ^ 8 + fld f 15 8),
   at_ (3 * 2 ^ 28 + fld n 26 24 * 2 ^ 23 + b2n (bit n 13) * 2 ^ 22 + fld n 23 16 * 2 ^ 14 + fld n 12 0)] ++
  (List.range (fld n 26 24 + 1)).map (fun b =>
    let v := s.reg (Reg.lcdPBand p b)
    at_ (4 * 2 ^ 28 + b * 2 ^ 23 + fld v 26 16 * 2 ^ 12 + fld v 7 0))

/-- Is a word waiting a configuration word of panel `p`? -/
def ofPanel (p : Nat) (e : Nat × Word) : Bool := e.1 == portVlcd && fld e.2 27 26 == p

/-- The configuration words of some panels are sent anew. -/
def sendPanels (s : State) (ps : List Nat) : State :=
  { s with lcd := { s.lcd with out := s.lcd.out.filter (fun e => !(ps.any (fun p => ofPanel p e))) ++ ps.flatMap (panelWords s) } }

/-- A RECT word as the path checks it: KIND 0x1, no reserved bit set, and ranges in order. -/
def rectValid (w : Word) : Bool :=
  fld w 31 28 == 1 && fld w 19 16 == 0 && decide (fld w 22 20 ≤ fld w 25 23) && decide (fld w 7 0 ≤ fld w 15 8)

/-- The next word of the request queue, while QEN = 1: a RECT word or a data word is forwarded, another word where a RECT word is
due is discarded and counted (R352). -/
def lcdForward (s : State) : State :=
  let q := s.rf Reg.lcdCfg 5 0
  if !(s.rb Reg.lcdCfg 8) ∨ qSize s q = 0 ∨ qLevel s q = 0 ∨ qCons s q ≠ epEngine then s else
  let r := qPop s epEngine q
  if s.lcd.left = 0 then
    if rectValid r.1 then { r.2.sendOut portRectcmd r.1 with lcd := { s.lcd with left := rectN (rectOf r.1) } } else lcdShow (badPath r.2)
  else { r.2.sendOut portSegdata r.1 with lcd := { s.lcd with left := s.lcd.left - 1 } }

/-- The path writes its next word once the one before has reached the island (R344): a word of its own, else one of a request. -/
def lcdSend (s : State) : State :=
  if [portSegdata, portRectcmd, portVlcd].any (fun p => (s.port p).transit) then s else
  match s.lcd.out with
  | e :: r => { s.sendOut e.1 e.2 with lcd := { s.lcd with out := r } }
  | [] => lcdForward s

/-- Panels that the active registers enable. -/
def panelsOn (s : State) : List Nat := (List.range 4).filter (fun p => s.rb (Reg.lcdPCfg p) 0)

/-- The path in a minor cycle, once its boundary window has passed: for an image that uses a panel, a FORCE word with
CTL_STAT.FORCED, ahead of what waits, and the configuration of each enabled panel that shows CFGD = 0. -/
def lcdMinor (s : State) : State :=
  let ps := panelsOn s
  if ps.isEmpty then lcdSend s else
  let due := ps.filter (fun p => !(pCfgd (s.pan p)) && !(s.lcd.out.any (ofPanel p)))
  let s1 := sendPanels s due
  lcdSend { s1 with lcd := { s1.lcd with
    out := (portRectcmd, w32 (7 * 2 ^ 28 + b2n (s.rb Reg.ctlStat 0))) :: s1.lcd.out.filter (fun e => !(e.1 == portRectcmd)) } }

/-- After a commit of block 11 the configuration goes out anew: of the panels enabled, and of those that have one. -/
def lcdCommitted (s : State) : State :=
  sendPanels s ((List.range 4).filter (fun p => s.rb (Reg.lcdPCfg p) 0 || (s.pan p).cfg.isSome))

end Sys2Proof.Machine
end

