-- ==== Sys2Proof/Machine/FieldRead.lean ====
section
/-! DEFINITION. What the field paths and the gate do with a field island's word that the engine takes: working registers,
events, records (R201, R206, R219, R224). -/

namespace Sys2Proof.Machine

/-- Write one record for each channel of a mask. -/
def recEach (code blk sev island : Nat) (data : Nat → List Word) : List Nat → State → State
  | [], s => s
  | c :: cs, s => recEach code blk sev island data cs (s.logOnce code blk sev (16 * island + c) (data c))

/-- Bits of `new` that were not set in `old`, among bits `lo` to `lo + n - 1`, numbered from 0. -/
def newBits (old new : Word) (lo n : Nat) : List Nat := (List.range n).filter (fun c => bit new (lo + c) && !(bit old (lo + c)))

/-- LOW and MISSING newly shown by a supply word: the event bit and the two records. -/
def supplyEvents (evtReg evtBit codeMiss codeLow blk sevMiss who : Nat) (old w : Word) (s : State) : State :=
  let miss := bit w 17 && !(bit old 17)
  let low := bit w 16 && !(bit old 16)
  let mv := w32 (fld w 15 0)
  let s1 := if miss || low then s.orReg evtReg evtBit else s
  let s2 := if miss then s1.logOnce codeMiss blk sevMiss who [w32 who, mv] else s1
  if low then s2.logOnce codeLow blk 4 who [w32 who, mv] else s2

/-- A word of a DI island (R189 to R196, R206). -/
def readDi (g k : Nat) (w : Word) (s : State) : State :=
  let s0 := s.setReg (Reg.dioDiStime g) (sget 0#32 s.stime (64 * (11 + g) + k))
  if k = 0 then s0.setReg (Reg.dioDiState g) w
  else if k = 1 then
    let new := newBits (s.reg (Reg.dioDiBreak g)) w 0 16
    let s1 := s0.setReg (Reg.dioDiBreak g) w
    let s2 := if new.isEmpty then s1 else s1.orReg Reg.dioEvt 2
    recEach 0x403 4 6 (11 + g) (fun c => [w32 (11 + g), w32 c]) new s2
  else if k ≤ 9 then s0.setReg (Reg.dioDiCnt g (k - 2)) w
  else
    let old := s.reg (Reg.dioDiSupply g)
    let s1 := ((s0.setReg (Reg.dioDiSupply g) w).setRb Reg.dioStat g (bit w 16 || bit w 17)).setRb Reg.dioStat (8 + g) (bit w 19)
    supplyEvents Reg.dioEvt 1 0x401 0x402 4 8 (11 + g) old w s1

/-- A word of a DO island (R199 to R201, R206). -/
def readDo (h k : Nat) (w : Word) (s : State) : State :=
  let s0 := s.setReg (Reg.dioDoStime h) (sget 0#32 s.stime (64 * (15 + h) + k))
  if k = 0 then gateAdoptDo (s0.setReg (Reg.dioDoRb h) w) h w
  else if k = 1 then
    let old := s.reg (Reg.dioDoFault h)
    let s1 := s0.setReg (Reg.dioDoFault h) w
    let ovl := newBits old w 0 16
    let opn := newBits old w 16 16
    let s2 := if ovl.isEmpty then s1 else s1.orReg Reg.dioEvt 8
    let s3 := if opn.isEmpty then s2 else s2.orReg Reg.dioEvt 16
    recEach 0x405 4 4 (15 + h) (fun c => [w32 (15 + h), w32 c]) opn
      (recEach 0x404 4 8 (15 + h) (fun c => [w32 (15 + h), w32 c]) ovl s3)
  else
    let old := s.reg (Reg.dioDoSupply h)
    let s1 := (s0.setReg (Reg.dioDoSupply h) w).setRb Reg.dioStat (4 + h) (bit w 16 || bit w 17)
    let s2 := (s1.setRb Reg.dioStat (6 + h) (bit w 18)).setRb Reg.dioStat (12 + h) (bit w 19)
    let s3 := supplyEvents Reg.dioEvt 4 0x401 0x402 4 8 (15 + h) old w s2
    let s4 := if bit w 18 && !(bit old 18) then (s3.orReg Reg.dioEvt 32).logOnce 0x406 4 10 (15 + h) [w32 (15 + h)] else s3
    gateSafeWord s4 h w

/-- Is an input code at or beyond an alarm level (R220)? -/
def atAlarm (s : State) (a c code : Nat) : Bool :=
  decide (code ≤ s.rf (Reg.aioAgChAlarm a c) 15 0) || decide (s.rf (Reg.aioAgChAlarm a c) 31 16 ≤ code)

/-- Note whether an input's last word showed it at an alarm level. -/
def noteAlarm (n : Nat) (b : Bool) (s : State) : State :=
  { s with ctl := { s.ctl with alarmIn := (setBit (w32 s.ctl.alarmIn) n b).toNat } }

/-- A word of an analogue island (R215 to R219, R224). -/
def readAo (a k : Nat) (w : Word) (s : State) : State :=
  let s0 := s.setReg (Reg.aioAgStime a) (sget 0#32 s.stime (64 * (17 + a) + k))
  if k ≤ 3 then
    let old := s.reg (Reg.aioAgChRb a k)
    let s1 := s0.setReg (Reg.aioAgChRb a k) w
    let s2 := if bit w 16 && !(bit old 16) then
        (s1.orReg Reg.aioEvt 8).logOnce 0x504 5 8 (4 * a + k)
          [w32 a, w32 k, w32i ((fld w 15 0 : Int) - (s.rf (Reg.aioAgChAin a k) 15 0 : Int))]
      else s1
    gateAdoptAo s2 (2 + a) k w
  else if k ≤ 7 then
    let c := k - 4
    let now := s.rb (Reg.aioAgChCfg a c) 0 && atAlarm s a c (fld w 15 0)
    let s1 := noteAlarm (4 * a + c) now (s0.setReg (Reg.aioAgChAin a c) w)
    if now && !(s.ctl.alarmIn.testBit (4 * a + c)) then
      (s1.orReg Reg.aioEvt 64).logOnce 0x507 5 6 (4 * a + c) [w32 a, w32 c, w32 (fld w 15 0)]
    else s1
  else if k ≤ 11 then s0.setReg (Reg.aioAgChHead a (k - 8)) w
  else
    let old := s.reg (Reg.aioAgStat a)
    let s1 := (s0.setReg (Reg.aioAgStat a) w).setRb Reg.aioStat a (bit w 16 || bit w 17)
    let s2 := ((s1.setRb Reg.aioStat (4 + a) (bit w 18)).setRb Reg.aioStat (8 + a) (bit w 19)).setRf Reg.aioStat (15 + 4 * a) (12 + 4 * a) (fld w 23 20)
    let s3 := supplyEvents Reg.aioEvt 1 0x501 0x502 5 8 a old w s2
    let cmp := newBits old w 20 4
    let mis := newBits old w 24 4
    let lim := newBits old w 28 4
    let s4 := if cmp.isEmpty then s3 else s3.orReg Reg.aioEvt 2
    let s5 := if mis.isEmpty then s4 else s4.orReg Reg.aioEvt 4
    let s6 := if lim.isEmpty then s5 else s5.orReg Reg.aioEvt 16
    let s7 := recEach 0x503 5 6 a (fun c => [w32 a, w32 c, s.reg (Reg.aioAgChHead a c)]) cmp s6
    let s8 := recEach 0x505 5 10 a (fun c => [w32 a, w32 c]) mis s7
    let s9 := recEach 0x506 5 6 a (fun c => [w32 a, w32 c]) lim s8
    let s10 := if bit w 18 && !(bit old 18) then (s9.orReg Reg.aioEvt 32).logOnce 0x508 5 10 a [w32 a] else s9
    gateSafeWord s10 (2 + a) w

/-- What a word taken from an inbound port of a field island brings about; other islands' words are data for their paths. -/
def afterTake (p : Nat) (w : Word) (s : State) : State :=
  let i := p / 64
  let k := p % 64
  if 11 ≤ i ∧ i ≤ 14 then readDi (i - 11) k w s
  else if 15 ≤ i ∧ i ≤ 16 then readDo (i - 15) k w s
  else if 17 ≤ i ∧ i ≤ 20 then readAo (i - 17) k w s
  else s

end Sys2Proof.Machine
end

