-- ==== Sys2Proof/Machine/MeterIsland.lean ====
section
/-! DEFINITION. The metering island: decimation, frames, EDGE words and S0 outputs (R85, R154 to R160, R179). -/

namespace Sys2Proof.Machine

/-- Island 9, its outbound port MCTRL and its queue unit 0 (Table 3-4, R159). -/
def mtrIsland : Nat := 9
def portMctrl : Nat := 608

def mtrCh0 : MtrCh :=
  { i1 := 0#32, i2 := 0#32, i3 := 0#32, d1 := 0#32, d2 := 0#32, d3 := 0#32, lastBit := false, quiet := 0, edge := false,
    edgeNext := none, stuck := false }

def State.mch (s : State) (n : Nat) : MtrCh := sget mtrCh0 s.mtr.ch n

/-- One bit enters the integrators: +1 or −1, each integrator modulo 2^32; the clocks since a transition count to 512. -/
def mtrBit (x : MtrCh) (b : Bool) : MtrCh :=
  let u : Word := if b then 1#32 else 0xFFFFFFFF#32
  let a := x.i1 + u
  let c := x.i2 + a
  { x with i1 := a, i2 := c, i3 := x.i3 + c, lastBit := b, quiet := if b = x.lastBit then min (x.quiet + 1) 512 else 0 }

/-- Bits of one sample in time order, bit 0 first: the channel after them, whether a transition came, and whether the clocks without
one came to 512 in this sample. -/
def mtrBits (bits : BitVec 1250) : MtrCh × Bool × Bool → List Nat → MtrCh × Bool × Bool
  | r, [] => r
  | (x, tr, q), k :: ks =>
    let y := mtrBit x (bits.getLsbD k)
    mtrBits bits (y, tr || (bits.getLsbD k != x.lastBit), q || decide (x.quiet < 512 ∧ 512 ≤ y.quiet)) ks

/-- The channel and its raw sample after 1,250 bits: the differentiators, with a delay of one output sample (R156); STUCK
sets when 512 clocks passed without a transition and clears at a sample with one (R158). -/
def mtrDecimate (x0 : MtrCh) (bits : BitVec 1250) : MtrCh × Word :=
  let x1 := match x0.edgeNext with | some e => { x0 with edge := e, edgeNext := none } | none => x0
  let r := mtrBits bits (x1, false, false) (List.range 1250)
  let y := r.1
  let c1 := y.i3 - y.d1
  let c2 := c1 - y.d2
  let c3 := c2 - y.d3
  let st := if r.2.2 then true else if r.2.1 then false else y.stuck
  ({ y with d1 := y.i3, d2 := c1, d3 := c2, stuck := st }, c3)

/-- OVR: the magnitude exceeds 1,757,812,500 (R158). -/
def mtrOvr (raw : Word) : Bool := decide (1757812500 < raw.toInt.natAbs)

/-- Decimate channels `n` and on. -/
def mtrDecimateAll (s : State) (bits : List (BitVec 1250)) : List (Nat × MtrCh × Word) :=
  (List.range 30).map (fun n => (n, mtrDecimate (s.mch n) ((bits.drop n).headD 0)))

/-- Bits of a mask over the channels for which a test holds. -/
def chMask {α : Type} (l : List (Nat × α)) (f : α → Bool) : Nat := maskOf ((l.filter (fun e => f e.2)).map (fun e => e.1))

/-- The S0 outputs after one more sample of 62.5 µs: a pulse ends after WIDTH ms (R179). -/
def s0Tick (s : State) : State :=
  { s with mtr := { s.mtr with onLeft := (List.range 8).foldl (fun t o => sset 0 t o (sget 0 t o - 1)) s.mtr.onLeft } }

/-- Is an S0 output on? -/
def s0Out (s : State) (o : Nat) : Bool := decide (sget 0 s.mtr.onLeft o ≠ 0)

/-- MSTAT (Table 6-3). -/
def mstatWord (s : State) : Word :=
  w32 (s.mtr.busy % 256 + b2n s.mtr.mclk * 2 ^ 8 + b2n s.mtr.heads * 2 ^ 9 + b2n s.mtr.frameLost * 2 ^ 10)

/-- METERING_SAMPLE (R85, R156 to R160): decimate, write ports 0 to 31, and push one frame if the queue has room for it. -/
def meteringSample (n secs : Nat) (bits : List (BitVec 1250)) (s : State) : State :=
  if !s.mtr.mclk then s else
  let l := mtrDecimateAll s bits
  let w0 := w32 (n + secs * 2 ^ 14 + b2n (s.rb Reg.fabStat 16) * 2 ^ 30 + b2n s.mtr.pf * 2 ^ 31)
  let raws := l.map (fun e => e.2.2)
  let frame := [w0] ++ raws ++ [w32 (chMask l (fun e => mtrOvr e.2)), w32 (chMask l (fun e => e.1.stuck))]
  let s1 := { s with mtr := { s.mtr with ch := l.foldl (fun t e => sset mtrCh0 t e.1 e.2.1) s.mtr.ch } }
  let s2 := sendIn mtrIsland 0 (raws ++ [w0, mstatWord s1]) (s0Tick s1)
  let s3 := { s2 with mtr := { s2.mtr with frameLost := false } }
  if 33 ≤ islandRoom s3 mtrIsland 0 then islandPush s3 mtrIsland 0 frame
  else { s3 with mtr := { s3.mtr with frameLost := true } }

/-- METERING_SAMPLE. -/
def execMeteringSample (n : Fin 16000) (secs : BitVec 16) (bits : List (BitVec 1250)) (s : State) :
    Host.Outcome State Fault Refusal := .next (meteringSample n.val secs.toNat bits s)

/-- The channel with an EDGE to come. -/
def MtrCh.nextEdge (x : MtrCh) (e : Bool) : MtrCh := { x with edgeNext := some e }

/-- An EDGE word for channels `lo` to `lo + n - 1`: applied at the next sample instant (R160). -/
def mtrEdges (lo n edges : Nat) (s : State) : State :=
  let f (t : Sparse MtrCh) (i : Nat) : Sparse MtrCh :=
    sset mtrCh0 t (lo + i) ((sget mtrCh0 t (lo + i)).nextEdge (edges.testBit i))
  { s with mtr := { s.mtr with ch := (List.range n).foldl f s.mtr.ch } }

/-- EDGE_LOW. -/
def execEdgeLow (edges : BitVec 16) (s : State) : Host.Outcome State Fault Refusal := .next (mtrEdges 0 16 edges.toNat s)

/-- EDGE_HIGH. -/
def execEdgeHigh (edges : BitVec 14) (s : State) : Host.Outcome State Fault Refusal := .next (mtrEdges 16 14 edges.toNat s)

/-- A pulse begins (R179): the output is on for WIDTH ms, 16 samples each, and busy for the pulse and its following pause. -/
def s0Begin (o width : Nat) (s : State) : State :=
  { s with mtr := { s.mtr with busy := s.mtr.busy ||| 2 ^ o, width := sset 0 s.mtr.width o width,
                               onLeft := sset 0 s.mtr.onLeft o (16 * width) } }

/-- S0_PULSE. -/
def execS0Pulse (out : Fin 8) (width : BitVec 8) (s : State) : Host.Outcome State Fault Refusal :=
  .next (s0Begin out.val width.toNat s)

/-- S0_PULSE_END (R179): the pulse and its pause are over, and BUSY clears. -/
def execS0PulseEnd (out : Fin 8) (s : State) : Host.Outcome State Fault Refusal :=
  .next { s with mtr := { s.mtr with busy := minus16 s.mtr.busy (2 ^ out.val), onLeft := sset 0 s.mtr.onLeft out.val 0 } }

/-- Head power and MCLK start at release (R155); time of release for R173. -/
def mtrRelease (s : State) : State :=
  { s with mtr := { s.mtr with mclk := true, heads := true, relNs := s.fabTime } }.setRb Reg.mtrStat 1 true

/-- Power-fail detection at the island: head power goes, PF follows, a pulse in progress ends (R155, R159, R179). -/
def mtrPowerFail (s : State) : State :=
  { s with mtr := { s.mtr with heads := false, pf := true, busy := 0, onLeft := [] } }.setRb Reg.mtrStat 1 false

/-- The last-train switch of a warm start at the island: PF follows (R159, R174). -/
def mtrWarmSwitch (s : State) : State := { s with mtr := { s.mtr with pf := true } }

/-- A start: the paths begin anew. A warm start leaves the heads, MCLK and the island's filters running (R155). -/
def mtrStart (warm : Bool) (s : State) : State :=
  { s with mtr := if warm then
      { Mtr.reset with mclk := s.mtr.mclk, heads := s.mtr.heads, ch := s.mtr.ch, busy := s.mtr.busy, width := s.mtr.width, onLeft := s.mtr.onLeft }
    else Mtr.reset }

end Sys2Proof.Machine
end

