-- ==== Sys2Proof/Machine/Meter.lean ====
section
/-! DEFINITION. The metering paths: corrections, intervals, accumulation, commits to FeRAM, pulses, harmonics, captures
(R161 to R179, R181 to R184). -/

namespace Sys2Proof.Machine

/-- An MTR record: source block 0x03 (R183). -/
def mtrRec (s : State) (code sev subject : Nat) (d : List Word) : State := s.logOnce code 3 sev subject d

/-! ## Circuits (R161) -/

/-- The elements of a circuit by its WIRING. -/
def elems (wiring : Nat) : List Nat := if wiring = 0 then [1, 2, 3] else if wiring = 1 then [1, 3] else [1]

/-- The phases whose channels a circuit uses. -/
def phases (wiring : Nat) : List Nat := if wiring = 2 then [1] else [1, 2, 3]

def cirOn (v : CfgView) (c : Nat) : Bool := bit (v (Reg.mtrCirCfg c)) 0
def cirSetB (v : CfgView) (c : Nat) : Bool := bit (v (Reg.mtrCirCfg c)) 1
def cirWiring (v : CfgView) (c : Nat) : Nat := fld (v (Reg.mtrCirCfg c)) 3 2
def cirMode (v : CfgView) (c j : Nat) : Bool := bit (v (Reg.mtrCirCfg c)) (8 + j)

/-- Voltage and current channel of phase `p` of a circuit. -/
def vChan (setB : Bool) (p : Nat) : Nat := (if setB then 3 else 0) + (p - 1)
def iChan (c p : Nat) : Nat := 5 + 3 * c + p

/-- The channels a circuit uses (R161). -/
def cirChans (v : CfgView) (c : Nat) : List Nat :=
  (phases (cirWiring v c)).flatMap (fun p => [vChan (cirSetB v c) p, iChan c p])

/-- The enabled circuits. -/
def cirsOn (s : State) : List Nat := (List.range 8).filter (fun c => cirOn s.reg c)

/-! ## Corrections (R162) -/

/-- raw − OFFS with saturation. -/
def mtrOffs (s : State) (n : Nat) (raw : Word) : Word := sat32 (raw.toInt - (s.reg (Reg.mtrChOffs n)).toInt)

/-- SCALE ⊗ (GAIN ⊗ FCVTI(c)), negated with INVERT = 1. -/
def mtrScale (s : State) (n : Nat) (c : Word) : FRes :=
  let x := rMul (fv (s.reg (Reg.mtrChScale n))) (rMul (fv (s.reg (Reg.mtrChGain n))) (fCvtI c))
  if s.rb (Reg.mtrChCfg n) 2 then rNeg x else x

/-- D = 9 + PHASE / 256 samples, exact. -/
def mtrDelay (s : State) (n : Nat) : FRes := fRoundInt (9 * 256 + sxt 16 (s.rf (Reg.mtrChCfg n) 31 16)) (-8) false

/-- The delayed sample from a history, newest first, by the four-point coefficients of R162, each operation one binary32
operation in the order written (assumption 20). -/
def lagrange (h : List Word) (d : FRes) : FRes :=
  let k := fWhole d.1
  let m := rSub d (rInt k)
  let one := rInt 1; let two := rInt 2; let six := rInt 6
  let m1 := rSub m one; let m2 := rSub m two; let p1 := rAdd m one
  let c0 := rDiv (rMul (rMul (rNeg m) m1) m2) six
  let c1 := rDiv (rMul (rMul p1 m1) m2) two
  let c2 := rDiv (rMul (rMul (rNeg p1) m) m2) two
  let c3 := rDiv (rMul (rMul p1 m) m1) six
  let x (i : Nat) : FRes := fv ((h.drop i).headD 0#32)
  rAdd (rAdd (rAdd (rMul c0 (x (k - 1))) (rMul c1 (x k))) (rMul c2 (x (k + 1)))) (rMul c3 (x (k + 2)))

/-- Corrected history of a channel. -/
def mtrHist (s : State) (n : Nat) : List Word := sget [] s.mtr.hist n

/-- y_k of a channel. -/
def mtrY (s : State) (n : Nat) : FRes := lagrange (mtrHist s n) (mtrDelay s n)

/-- The set's frequency: the last valid one, else nominal (R163). -/
def mtrFreq (s : State) (setB : Bool) : FRes :=
  let f := s.reg (if setB then Reg.mtrFreqb else Reg.mtrFreqa)
  if fIsNaN f then rInt (if s.rb (if setB then Reg.mtrSetb else Reg.mtrSeta) 0 then 60 else 50) else fv f

/-- v delayed a further 4,000 / f samples (R163, assumption 21). -/
def mtrYq (s : State) (n : Nat) (setB : Bool) : FRes :=
  lagrange (mtrHist s n) (rAdd (mtrDelay s n) (rDiv (rInt 4000) (mtrFreq s setB)))

/-! ## One sample (R163, R168) -/

/-- The key of sum `q` (0 SP, 1 SQ, 2 SV, 3 SI) of phase `p` of a circuit. -/
def sumKey (c p q : Nat) : Nat := 64 * c + 8 * p + q

def mtrSum (s : State) (c p q : Nat) : FRes := fv (sget 0#32 s.mtr.sums (sumKey c p q))

/-- Store a sum and raise the flags met in forming it. -/
def putSum (s : State) (c p q : Nat) (v : FRes) : State :=
  { s.fpFlags v.2 with mtr := { (s.fpFlags v.2).mtr with sums := sset 0#32 (s.fpFlags v.2).mtr.sums (sumKey c p q) v.1 } }

/-- The voltage of element `p`: a phase voltage, or for three-wire v1 − v2 and v3 − v2 (R161). -/
def elemV (wiring : Nat) (y : Nat → FRes) (p : Nat) : FRes :=
  if wiring = 1 then rSub (y p) (y 2) else y p

/-- The sums of one element at one sample, by FMA. -/
def sumElem (c : Nat) (s : State) (p : Nat) : State :=
  let b := cirSetB s.reg c
  let w := cirWiring s.reg c
  let v := elemV w (fun q => mtrY s (vChan b q)) p
  let vq := elemV w (fun q => mtrYq s (vChan b q) b) p
  let i := mtrY s (iChan c p)
  let s1 := putSum s c p 0 (rFma (mtrSum s c p 0) v i)
  let s2 := putSum s1 c p 1 (rFma (mtrSum s1 c p 1) vq i)
  let s3 := putSum s2 c p 2 (rFma (mtrSum s2 c p 2) v v)
  putSum s3 c p 3 (rFma (mtrSum s3 c p 3) i i)

/-- The sums of one circuit at one sample; for three-wire the current of phase 2 is measured as well (R161). -/
def sumCircuit (s : State) (c : Nat) : State :=
  let w := cirWiring s.reg c
  let s1 := (elems w).foldl (sumElem c) s
  if w = 1 then let i := mtrY s1 (iChan c 2); putSum s1 c 2 3 (rFma (mtrSum s1 c 2 3) i i) else s1

/-- Take one channel's raw sample into its history of 128 corrected samples. -/
def histOne (raws : List Word) (s : State) (n : Nat) : State :=
  if s.rb (Reg.mtrChCfg n) 0 then
    let x := mtrScale s n (mtrOffs s n ((raws.drop n).headD 0#32))
    let s1 := s.fpFlags x.2
    { s1 with mtr := { s1.mtr with hist := sset [] s1.mtr.hist n ((x.1 :: mtrHist s1 n).take 128) } }
  else s

def win0 : MtrWin := { samples := [], ref := none, mask := 0#32 }

/-- Take one sample into a voltage set's window (R176); the mask is that of the window's first sample (R184). -/
def winSample (w0 : Word) (raws : List Word) (s : State) (set : Nat) : State :=
  let x := sget win0 s.mtr.win set
  let cs := (List.range 30).map (fun n => mtrOffs s n ((raws.drop n).headD 0#32))
  let e : MtrSmp := { w0 := w0, raw := cs, val := cs.zipIdx.map (fun c => (mtrScale s c.2 c.1).1) }
  let y := { x with samples := x.samples ++ [e], mask := if x.samples.isEmpty then s.reg Reg.mtrHaMask else x.mask }
  { s with mtr := { s.mtr with win := sset win0 s.mtr.win set y } }

/-- A capture starts with the first sample of an interval (R178): the mask is taken and the header pushed, word by word as the queue
has room; R178 asks only of a sample that all its words fit (assumption 112). -/
def startCapture (w0 : Word) (s : State) : State :=
  let mask := s.rf Reg.mtrWcMask 29 0
  let fmt := s.rb Reg.mtrWcCfg 8
  let count := s.rf Reg.mtrWcCtrl 31 16
  let s1 := qPushAll s epEngine (s.rf Reg.mtrWcCfg 5 0)
    [w32 (0x57430000 + popcount 30 mask + b2n fmt * 2 ^ 8), w0, w32 mask, w32 count]
  { s1 with mtr := { s1.mtr with cap := some { mask := mask, fmt := fmt, count := count, pushed := 0 } } }.publish [(Reg.mtrWcStat, 1#32)]

/-- The paths keep each sample that a capture covers until CAPTURE_SAMPLE pushes it. -/
def captureTake (n : Nat) (w0 : Word) (raws : List Word) (s0 : State) : State :=
  let s := if s0.mtr.cap.isNone && s0.rb Reg.mtrWcCtrl 0 && decide (n % 160 = 0) then startCapture w0 s0 else s0
  match s.mtr.cap with
  | some x =>
    if x.pushed + s.mtr.capq.length < x.count then
      { s with mtr := { s.mtr with capq := s.mtr.capq ++
          [{ w0 := w0, raw := raws, val := (List.range 30).map (fun i => (mtrY s i).1) }] } }
    else s
  | none => s

/-- The fabric time in ns of sample `n` of the second whose low 16 bits are given, near the present fabric time. -/
def sampleTime (s : State) (n secs : Nat) : Nat :=
  let base := s.fabTime / 1000000000
  let d := (base % 65536 + 65536 - secs) % 65536
  (if d ≤ 32768 then base - d else base + (65536 - d)) * 1000000000 + n * 62500

/-- MTR_START_GAP at the first interval (R173), rounded down to whole milliseconds (assumption 111). -/
def startGap (s : State) (t : Nat) : State :=
  if s.mtr.gapDone then s else
  let s1 := { s with mtr := { s.mtr with gapDone := true } }
  match s.mtr.ftime with
  | some f => if f ≤ t then s1.publish [(Reg.mtrStartGap, w32 (min ((t - f) / 1000000) 0xFFFFFFFF))] else s1
  | none => s1

/-- Open the first interval: the first whole one that begins at least 2 ms after release (R173). -/
def openInterval (s : State) (n t : Nat) : State :=
  match s.mtr.interval with
  | some _ => s
  | none =>
    if n % 160 = 0 ∧ s.mtr.relNs + 2000000 ≤ t then
      let s1 := startGap { s with mtr := { s.mtr with interval := some (n / 160), k := 0, sums := [], stuckIn := 0, ovrIn := 0, gapIn := false } } t
      s1.publish [(Reg.mtrStat, setBit (s1.reg Reg.mtrStat) 0 true)]
    else s

/-- Use one sample whose instant is `t`: history, capture, window, sums. -/
def useSample (n t : Nat) (w0 : Word) (raws : List Word) (ovr stuck : Nat) (s : State) : State :=
  let s1 := openInterval ((List.range 30).foldl (histOne raws) s) n t
  let s2 := (List.range 2).foldl (winSample w0 raws) (captureTake n w0 raws s1)
  match s2.mtr.interval with
  | none => { s2 with mtr := { s2.mtr with lastT := t } }
  | some _ =>
    let s3 := (cirsOn s2).foldl sumCircuit s2
    { s3 with mtr := { s3.mtr with lastT := t, k := s3.mtr.k + 1, ovrIn := s3.mtr.ovrIn ||| ovr, stuckIn := s3.mtr.stuckIn ||| stuck } }

/-- n and the seconds of a frame, and its raw samples. -/
def frameN (f : List Word) : Nat := fld (f.headD 0#32) 13 0
def frameSec (f : List Word) : Nat := fld (f.headD 0#32) 29 14
def framePf (f : List Word) : Bool := bit (f.headD 0#32) 31
def frameRaws (f : List Word) : List Word := (f.drop 1).take 30

/-- Use `m` samples whose frames are missing, with the raw values of the last frame used (R168), each 62.5 µs after the one before;
gaps stay in the interval. -/
def useMissing : Nat → State → State
  | 0, s => s
  | m + 1, s =>
    let f := s.mtr.last
    let j := match s.mtr.interval with | some j => j | none => 0
    let s1 := useSample (160 * j + s.mtr.k) (s.mtr.lastT + 62500) (f.headD 0#32) (frameRaws f) 0 0 s
    useMissing m { s1 with mtr := { s1.mtr with gapIn := true } }

/-- Count `m` missing frames, the first of them sample `n` (R168). -/
def countMissing (m n : Nat) (s : State) : State :=
  if m = 0 then s else
  let s1 := (s.satRf Reg.mtrGaps 31 0 m).orReg Reg.mtrEvt 4
  (mtrRec s1 0x303 6 m [w32 m, w32 n]).republish [Reg.mtrGaps, Reg.mtrEvt]

/-- Newly STUCK channels: event and records (R183). -/
def stuckEvents (f : List Word) (s : State) : State :=
  let w := (f.drop 32).headD 0#32
  let new := (List.range 30).filter (fun n => bit w n && !(s.rb Reg.mtrStuck n))
  let s1 := s.setReg Reg.mtrStuck w
  let s2 := if new.isEmpty then s1 else s1.orReg Reg.mtrEvt 1
  new.foldl (fun t n => mtrRec t 0x301 8 n [w32 n]) s2

/-- Overranged channels: event, MTR_OVR and records. -/
def ovrEvents (f : List Word) (s : State) : State :=
  let w := (f.drop 31).headD 0#32
  let chs := bitsOf 30 w.toNat
  if chs.isEmpty then s else
  let s1 := (s.orReg Reg.mtrOvr w.toNat).orReg Reg.mtrEvt 2
  chs.foldl (fun t n => mtrRec t 0x302 6 n [w32 n, (f.drop (1 + n)).headD 0#32]) s1

/-- Use one whole frame: fill a gap before it, then its own sample. -/
def useFrame (f : List Word) (s : State) : State :=
  let n := frameN f
  let gap := match s.mtr.interval with | some _ => n % 160 - s.mtr.k | none => 0
  let first := match s.mtr.interval with | some j => 160 * j + s.mtr.k | none => 0
  let s1 := countMissing gap first (useMissing gap s)
  let s2 := useSample n (sampleTime s n (frameSec f)) (f.headD 0#32) (frameRaws f) (((f.drop 31).headD 0#32).toNat) (((f.drop 32).headD 0#32).toNat) s1
  let s3 := ovrEvents f (stuckEvents f s2)
  let s4 := s3.setRb Reg.mtrStat 4 (bit (f.headD 0#32) 30)
  ({ s4 with mtr := { s4.mtr with last := f } }).republish [Reg.mtrStuck, Reg.mtrEvt, Reg.mtrOvr, Reg.mtrStat]

/-- Does a frame belong to an interval after the one in progress? -/
def frameLater (s : State) (f : List Word) : Bool :=
  match s.mtr.interval with
  | some j => decide (160 ≤ s.mtr.k) || decide (frameN f / 160 ≠ j)
  | none => false

/-- Pop `k` words of a queue as the engine. -/
def popWords : Nat → Nat → State → List Word × State
  | _, 0, s => ([], s)
  | q, k + 1, s =>
    let r := qPop s epEngine q
    let t := popWords q k r.2
    (r.1 :: t.1, t.2)

/-- The paths take the next frame: one taken before and not used, else 33 words of the frame queue (R159). -/
def takeFrame (s : State) : Option (List Word) × State :=
  match s.mtr.held with
  | some f => (some f, { s with mtr := { s.mtr with held := none } })
  | none =>
    match qOfProd s (epIsland mtrIsland 0) with
    | some q => if qCons s q = epEngine ∧ 33 ≤ qLevel s q then
        let r := popWords q 33 s; (some r.1, r.2) else (none, s)
    | none => (none, s)

/-- Use the waiting frames, at most `fuel`, up to the end of the interval in progress; frames with PF = 1 are left unused
when `noPf` (R174). -/
def consume (noPf : Bool) : Nat → State → State
  | 0, s => s
  | fuel + 1, s =>
    match takeFrame s with
    | (none, s1) => s1
    | (some f, s1) =>
      if frameLater s1 f || (noPf && framePf f) then { s1 with mtr := { s1.mtr with held := some f } }
      else consume noPf fuel (useFrame f s1)

/-- Frames that the largest frame queue holds, and one. -/
def frameFuel : Nat := 1987

/-! ## Accumulators (R165, R166, R169) -/

/-- TOT as a signed 64-bit number. -/
def totOf (s : State) (c j : Nat) : Int :=
  sxt 64 ((s.reg (Reg.mtrTotLo c j)).toNat + (s.reg (Reg.mtrTotHi c j)).toNat * 2 ^ 32)

/-- The four registers of an accumulator from TOT and FRAC: TOT_LO, TOT_HI, FRAC, QK. -/
def accRegs (c j : Nat) (tot : Int) (frac : Nat) : List (Nat × Word) :=
  [(Reg.mtrTotLo c j, w32i tot), (Reg.mtrTotHi c j, w32i (tot / 2 ^ 32)), (Reg.mtrFrac c j, w32 frac),
   (Reg.mtrQk c j, w32i (tot / 10))]

/-- WRAP = floor(TOT / 42,949,672,960) modulo 256. -/
def wrapOf (tot : Int) : Nat := (tot / 42949672960 % 256).toNat

/-- The WRAP word k of a circuit from its totals. -/
def qwWord (s : State) (c k : Nat) : Word :=
  let f (i : Nat) : Nat := if 4 * k + i ≤ 8 then wrapOf (totOf s c (4 * k + i)) * 2 ^ (8 * i) else 0
  w32 (f 0 + f 1 + f 2 + f 3)

/-- Write an accumulator and publish its registers. -/
def putAcc (s : State) (c j : Nat) (tot : Int) (frac : Nat) : State :=
  let s1 := s.publish (accRegs c j tot frac)
  s1.publish [(Reg.mtrQw c (j / 4), qwWord s1 c (j / 4))]

/-- 2^63 − 1 and −2^63: TOT saturates there. -/
def totClamp (t : Int) : Int := max (-(2 ^ 63)) (min (2 ^ 63 - 1) t)

/-- Add N units of 2^−32 mWh to an accumulator (R166). -/
def addAcc (s : State) (c j : Nat) (n : Int) : State :=
  let a := totOf s c j * 2 ^ 32 + ((s.reg (Reg.mtrFrac c j)).toNat : Int) + n
  putAcc s c j (totClamp (a / 2 ^ 32)) (a % 2 ^ 32).toNat

/-- K, the binary32 value nearest to 2^32 / 360. -/
def accK : Word := 0x4B360B61#32

/-- x' of R166. -/
def accX (x : FRes) (m : Nat) : FRes := if m = 160 then x else rDiv (rMul x (rInt m)) (rInt 160)

/-- Accumulate a contribution x; a product that is not finite has no stated N, which is then free (assumption 22). -/
def accumulate (s : State) (c j m : Nat) (x : FRes) : State :=
  let p := rMul (accX x m) (fv accK)
  let s1 := s.fpFlags p.2
  if fIsFin p.1 then addAcc s1 c j (fToInt p.1)
  else let r := s1.free; addAcc r.2 c j r.1.toInt

/-- The quantities of one element (R164). -/
structure Quant where
  p : FRes
  q : FRes
  v : FRes
  i : FRes
  s : FRes
  pf : FRes
  deriving DecidableEq, Repr

def zeroF : FRes := (0#32, 0)

/-- PF = P / S, or 0x7FC0_0000 when S = 0. -/
def powerFactor (p s : FRes) : FRes := if fIsZero s.1 then (qnan, s.2) else rDiv p s

/-- The quantities of element `p` over `m` samples, each operation in the order written (R164, assumption 20). -/
def quantOf (s : State) (c m p : Nat) : Quant :=
  let g (r : Nat → Nat) : FRes := fv (s.reg (r c))
  let mean (q : Nat) : FRes := rDiv (mtrSum s c p q) (rInt m)
  let pw := rAdd (rDiv (rMul (g Reg.mtrCirPgain) (mtrSum s c p 0)) (rInt m)) (g Reg.mtrCirPoffs)
  let qw := rAdd (rDiv (rMul (g Reg.mtrCirQgain) (mtrSum s c p 1)) (rInt m)) (g Reg.mtrCirQoffs)
  let v := rMul (g Reg.mtrCirVgain) (rSqrt (rMax zeroF (rSub (mean 2) (g Reg.mtrCirVoffs2))))
  let i := rMul (g Reg.mtrCirIgain) (rSqrt (rMax zeroF (rSub (mean 3) (g Reg.mtrCirIoffs2))))
  let sp := rMul v i
  { p := pw, q := qw, v := v, i := i, s := sp, pf := powerFactor pw sp }

/-- The contribution of accumulator `j` from P, Q and S (Table 6-4). -/
def contribNet (j : Nat) (p q s : FRes) : FRes :=
  let pp := rGe p zeroF; let qp := rGe q zeroF
  let neg (x : FRes) : Bool := rLt x zeroF
  match j with
  | 0 => rMax p zeroF
  | 1 => rMax (rNeg p) zeroF
  | 2 => p
  | 3 => if pp && qp then rAbs q else zeroF
  | 4 => if neg p && qp then rAbs q else zeroF
  | 5 => if neg p && neg q then rAbs q else zeroF
  | 6 => if pp && neg q then rAbs q else zeroF
  | 7 => q
  | _ => s

/-- The contribution of one element under ABS: ANET and RNET take magnitudes. -/
def contribAbs (j : Nat) (x : Quant) : FRes :=
  if j = 2 then rAbs x.p else if j = 7 then rAbs x.q else contribNet j x.p x.q x.s

/-- STAT of a circuit at a close: NOLOAD, HOLD, STUCK, OVR, GAP, FREQ_NOM, QUALITY (R168). -/
def cirStatWord (noload hold stuck ovr gap freqNom : Bool) : Word :=
  let qual := if stuck then 2 else if gap || ovr || hold then 1 else 0
  w32 (b2n noload + 2 * b2n hold + 4 * b2n stuck + 8 * b2n ovr + 16 * b2n gap + 32 * b2n freqNom + 64 * qual)

/-- Close one circuit over m samples (R164 to R168). The circuit's PF with S = 0 is 0x7FC0_0000, as R164 gives it for PF_p alone
(assumption 110). -/
def closeCircuit (m : Nat) (s : State) (c : Nat) : State :=
  let w := cirWiring s.reg c
  let es := elems w
  let qs := es.map (fun p => (p, quantOf s c m p))
  let get (p : Nat) (f : Quant → FRes) : FRes :=
    match qs.find? (fun e => e.1 == p) with | some e => f e.2 | none => zeroF
  let i2 := if w = 1 then (quantOf s c m 2).i else get 2 Quant.i
  let pt := rSum (qs.map (fun e => e.2.p))
  let qt := rSum (qs.map (fun e => e.2.q))
  let st := if w = 1 then rSqrt (rAdd (rMul pt pt) (rMul qt qt)) else rSum (qs.map (fun e => e.2.s))
  let pft := powerFactor pt st
  let s0 := s.fpFlags ((qs.map (fun e => e.2.pf.2 ||| e.2.q.2)).foldl (fun a b => a ||| b) (qt.2 ||| pft.2 ||| i2.2))
  let chans := cirChans s.reg c
  let stuck := chans.any (fun n => s.mtr.stuckIn.testBit n)
  let ovr := chans.any (fun n => s.mtr.ovrIn.testBit n)
  let hold := s.rb Reg.mtrCalhold c
  let noload := rLt st (fv (s.reg (Reg.mtrCirNoload c)))
  let fn := fIsNaN (s.reg (if cirSetB s.reg c then Reg.mtrFreqb else Reg.mtrFreqa))
  let s1 := s0.publish (([1, 2, 3] : List Nat).flatMap (fun p =>
    [(Reg.mtrCPVrms c (p - 1), (get p Quant.v).1), (Reg.mtrCPIrms c (p - 1), if p = 2 then i2.1 else (get p Quant.i).1),
     (Reg.mtrCPP c (p - 1), (get p Quant.p).1), (Reg.mtrCPQ c (p - 1), (get p Quant.q).1),
     (Reg.mtrCPS c (p - 1), (get p Quant.s).1), (Reg.mtrCPPf c (p - 1), (get p Quant.pf).1)]))
  let s2 := s1.publish [(Reg.mtrCPtot c, pt.1), (Reg.mtrCQtot c, qt.1), (Reg.mtrCStot c, st.1), (Reg.mtrCPftot c, pft.1),
    (Reg.mtrCirStat c, cirStatWord noload hold stuck ovr s.mtr.gapIn fn),
    (Reg.mtrCirIcount c, s1.reg (Reg.mtrCirIcount c) + 1#32),
    (Reg.mtrStat, setBit (s1.reg Reg.mtrStat) (5 + c) stuck)]
  if stuck || hold || noload then s2 else
  (List.range 9).foldl (fun t j => accumulate t c j m
    (if cirMode s.reg c j then rSum (qs.map (fun e => contribAbs j e.2)) else contribNet j pt qt st)) s2

/-! ## S0 outputs (R179) -/

/-- The target of an output: floor(TOT / K) modulo 2^32. -/
def s0Target (s : State) (o : Nat) : Word :=
  let k := (s.reg (Reg.mtrS0K o)).toNat
  if k = 0 then 0#32 else w32i (totOf s (s.rf (Reg.mtrS0Cfg o) 3 1) (s.rf (Reg.mtrS0Cfg o) 7 4) / (k : Int))

/-- Publish LAG of an output, with PULSE_LAG when it first exceeds 100. -/
def s0Lag (s : State) (o : Nat) : State :=
  let lag := s0Target s o - s.reg (Reg.mtrS0Emit o)
  let s1 := s.publish [(Reg.mtrS0Lag o, lag)]
  if decide (100 < lag.toNat) && decide ((s.reg (Reg.mtrS0Lag o)).toNat ≤ 100) then
    (mtrRec (s1.orReg Reg.mtrEvt 0x40) 0x309 4 o [w32 o, lag]).republish [Reg.mtrEvt]
  else s1

/-- Send a pulse command to an output whose target differs from EMIT, no sooner than 2 × WIDTH + 1 ms after the last one,
when MCTRL is free. -/
def s0Pulse (s : State) (o : Nat) : State :=
  let wd := s.rf (Reg.mtrS0Cfg o) 15 8
  let prev := sget 0 s.mtr.s0Last o
  let due := decide (prev = 0) || decide (prev - 1 + (2 * wd + 1) * 1000000 ≤ s.fabTime)
  if s.rb (Reg.mtrS0Cfg o) 0 && due && !(s.port portMctrl).transit && s0Target s o != s.reg (Reg.mtrS0Emit o) then
    let s1 := s.sendOut portMctrl (w32 (0x40000000 + o + wd * 256))
    let s2 := s1.publish [(Reg.mtrS0Emit o, s.reg (Reg.mtrS0Emit o) + 1#32)]
    s0Lag { s2 with mtr := { s2.mtr with s0Last := sset 0 s2.mtr.s0Last o (1 + s.fabTime) } } o
  else s

/-- At a close: an output whose CFG or K a commit changed takes EMIT from its new target; LAG of all outputs. -/
def s0Close (s : State) : State :=
  let s1 := (bitsOf 8 s.mtr.s0Reset).foldl (fun t o => t.publish [(Reg.mtrS0Emit o, s0Target t o)]) s
  (List.range 8).foldl s0Lag { s1 with mtr := { s1.mtr with s0Reset := 0 } }

/-! ## Commit to FeRAM (R170 to R172) -/

def mtrMagic : Word := 0x4D540001#32

/-- The 256 words of a commit record (Table 6-5). FTIME is the time of the last sample consumed, which before any is included in an
interval is that of the last one seen, or 0 (assumption 113). -/
def commitRecord (s : State) (last : Bool) (m : Nat) : List Word :=
  let part := last && decide (0 < m) && decide (m < 160)
  let acc := (List.range 72).flatMap (fun a =>
    [s.reg (Reg.mtrTotLo (a / 9) (a % 9)), s.reg (Reg.mtrTotHi (a / 9) (a % 9)), s.reg (Reg.mtrFrac (a / 9) (a % 9))])
  let b := [mtrMagic, w32 s.mtr.seq, w32 (s.mtr.seq / 2 ^ 32), w32 s.mtr.lastT, w32 (s.mtr.lastT / 2 ^ 32),
      w32 (b2n last + 2 * b2n part + (if part then m * 2 ^ 8 else 0)), 0, 0] ++ acc ++
    (List.range 8).map (fun o => s.reg (Reg.mtrS0Emit o)) ++ List.replicate 23 0#32
  b ++ [crc32 (wordBytes b)]

/-- `n` free words. -/
def freeWords (n : Nat) (s : State) : List Word × State :=
  ((List.range n).map (fun i => Config.freeWord (s.freeCtr + i)), { s with freeCtr := s.freeCtr + n })

/-- A record is sent to the persistent island, into the copy that does not hold the newest intact record (R171). -/
def startCommit (ws : List Word) (s : State) : State :=
  { s with mtr := { s.mtr with commit := some (if s.mtr.newest = some 0 then 1 else 0, ws), commitAt := s.fabTime } }

/-- The next record that waits is sent. -/
def commitNext (s : State) : State :=
  match s.mtr.queued with
  | [] => s
  | ws :: r => startCommit ws { s with mtr := { s.mtr with queued := r } }

/-- A commit failed (R171): the copy written holds what the spec leaves open, so free words. -/
def commitFail (s : State) : State :=
  match s.mtr.commit with
  | none => s
  | some (copy, ws) =>
    let r := freeWords 256 s
    let s1 := { r.2 with feram := memPut r.2.feram (1024 * copy) (wordBytes r.1), mtr := { r.2.mtr with commit := none } }
    let s2 := (s1.satRf Reg.mtrFstat 15 8 1).orReg Reg.mtrEvt 0x10
    commitNext ((mtrRec s2 0x306 10 copy [w32 copy, (ws.drop 1).headD 0#32]).republish [Reg.mtrFstat, Reg.mtrEvt])

/-- Inbound port PSTAT of the persistent island, 23 (Table 3-4). -/
def portPstat : Nat := 64 * 23

/-- The persistent island completed the copy and reports it in PSTAT, in a word whose layout the spec does not give: a free value
(R171, assumption 121). -/
def commitDone (s : State) : State :=
  match s.mtr.commit with
  | none => s
  | some (copy, ws) =>
    let s1 := { s with feram := memPut s.feram (1024 * copy) (wordBytes ws),
                       mtr := { s.mtr with commit := none, newest := some copy } }
    let r := s1.free
    commitNext ((r.2.sendPort portPstat r.1).publish [(Reg.mtrFseqLo, (ws.drop 1).headD 0#32), (Reg.mtrFseqHi, (ws.drop 2).headD 0#32),
      (Reg.mtrFstat, setFld (s1.reg Reg.mtrFstat) 0 0 copy)])

/-- Take a commit record and send it. A record under way that is not reported complete 0.4 ms after it was sent has failed; until then
the new one waits for it (R171, assumption 121). -/
def sendCommit (last : Bool) (m : Nat) (s0 : State) : State :=
  let s := if s0.mtr.commitAt + 400000 ≤ s0.fabTime then commitFail s0 else s0
  let s1 := { s with mtr := { s.mtr with seq := s.mtr.seq + 1 } }
  let ws := commitRecord s1 last m
  if s1.mtr.commit.isSome then { s1 with mtr := { s1.mtr with queued := s1.mtr.queued ++ [ws] } } else startCommit ws s1

/-- METERING_COMMIT_DONE. -/
def execMeteringCommitDone (ok : Bool) (s : State) : Host.Outcome State Fault Refusal :=
  .next (if ok then commitDone s else commitFail s)

/-- Why a copy is not intact: 0 intact, 1 word 0, 2 CRC (R172). -/
def copyState (s : State) (copy : Nat) : Nat :=
  if memW s.feram (1024 * copy) ≠ mtrMagic then 1
  else if memW s.feram (1024 * copy + 1020) ≠ crc32 (memBytes s.feram (1024 * copy) 1020) then 2 else 0

def copySeq (s : State) (copy : Nat) : Nat := memNat s.feram (1024 * copy + 4) 8

/-- An invalid copy at start. -/
def copyBad (s : State) (copy : Nat) : State :=
  if copyState s copy = 0 then s
  else (s.orReg Reg.mtrEvt 8).append 0x304 3 10 [w32 copy, w32 (copyState s copy)]

/-- Restore at a start (R172). -/
def mtrRestore (s : State) : State :=
  let a := s.rf Reg.mtrRestore 20 0
  let i0 := copyState s 0 == 0
  let i1 := copyState s 1 == 0
  let s1 := copyBad (copyBad s 0) 1
  let s2 := s1.setRf Reg.mtrFstat 2 1 (b2n i0 + 2 * b2n i1)
  let clean (t : State) : State := { t with ecc := sclear t.ecc (eccKey mcData a) (eccKey mcData (a + 1024)) }
  if i0 || i1 then
    let copy := if i0 && (!i1 || decide (copySeq s 1 ≤ copySeq s 0)) then 0 else 1
    let q := copySeq s copy
    let s3 := clean { s2 with data := memCopy s.feram (1024 * copy) 1024 s2.data a }
    let s4 := ((s3.setRf Reg.mtrFstat 0 0 copy).setReg Reg.mtrFseqLo (w32 q)).setReg Reg.mtrFseqHi (w32 (q / 2 ^ 32))
    let s5 := { (s4.setRb Reg.mtrStat 2 true) with mtr := { s4.mtr with seq := q, newest := some copy, ftime := some (memNat s.feram (1024 * copy + 12) 8) } }
    s5.append 0x30C 3 2 [w32 copy, w32 q, s5.reg Reg.mtrStartGap]
  else
    let s3 := clean { s2 with data := memZero s2.data a 1024 }
    (s3.setRb Reg.mtrStat 3 true).append 0x305 3 12 []

/-- The first start of the metering paths: TOT, FRAC and EMIT from the restore area, both EDGE words due (R160, R172), and what the
restore has set published (R153). -/
def mtrFirst (s : State) : State :=
  if s.mtr.started then s else
  let a := s.rf Reg.mtrRestore 20 0
  let w (k : Nat) : Word := memW s.data (a + 4 * k)
  let s1 := (List.range 72).foldl (fun t i => putAcc t (i / 9) (i % 9)
    (sxt 64 ((w (8 + 3 * i)).toNat + (w (9 + 3 * i)).toNat * 2 ^ 32)) (w (10 + 3 * i)).toNat) s
  let s2 := (List.range 8).foldl (fun t o => t.publish [(Reg.mtrS0Emit o, w (224 + o))]) s1
  { s2 with mtr := { s2.mtr with started := true, edgeDue := [2, 3] } }.republish [Reg.mtrFstat, Reg.mtrFseqLo, Reg.mtrFseqHi, Reg.mtrStat]

/-- EDGE bits of `n` channels from `lo`. -/
def edgeBits (s : State) (lo n : Nat) : Nat := maskOf ((List.range n).filter (fun i => s.rb (Reg.mtrChCfg (lo + i)) 1))

/-- Send the next EDGE word that is due, when MCTRL is free. -/
def sendEdges (s : State) : State :=
  if (s.port portMctrl).transit then s else
  match s.mtr.edgeDue with
  | [] => s
  | k :: r => { s.sendOut portMctrl (if k = 2 then w32 (0x20000000 + edgeBits s 0 16) else w32 (0x30000000 + edgeBits s 16 14))
      with mtr := { s.mtr with edgeDue := r } }

/-- Does the image meter (R153): does it take the frames of R159 as the engine?  -/
def imageMeters (s : State) : Bool :=
  match qOfProd s (epIsland mtrIsland 0) with
  | some q => qCons s q == epEngine
  | none => false

/-- A run of the metering paths in a minor cycle, for an image that meters: use the waiting frames, send EDGE words and
pulses (R153, assumption 19). -/
def meterRun (s : State) : State :=
  if !(imageMeters s) then s else
  (List.range 8).foldl s0Pulse (sendEdges (consume false frameFuel (mtrFirst s)))

/-- Close the interval in progress over the samples it holds (R164 to R168). -/
def closeNow (s : State) : State :=
  let m := s.mtr.k
  let s1 := if m = 0 then s else (cirsOn s).foldl (closeCircuit m) s
  let next := match s.mtr.interval with | some j => some ((j + 1) % 100) | none => none
  s0Close { s1 with mtr := { s1.mtr with interval := next, k := 0, sums := [], stuckIn := 0, ovrIn := 0, gapIn := false } }

/-- Close the interval in progress as a whole one: samples whose frames are missing are replaced (R168). -/
def closeWhole (s : State) : State :=
  let j := match s.mtr.interval with | some j => j | none => 0
  let miss := 160 - s.mtr.k
  closeNow (countMissing miss (160 * j + s.mtr.k) (useMissing miss s))

/-- INTERVAL_CLOSE (R163 to R171): the frames of the interval are used, missing ones replaced, the interval is closed over
160 samples and a commit record is sent. -/
def intervalClose (s0 : State) : State :=
  let s := consume false frameFuel (mtrFirst s0)
  match s.mtr.interval with
  | none => s
  | some _ => sendCommit false 160 (closeWhole s)

/-- INTERVAL_CLOSE. -/
def execIntervalClose (s : State) : Host.Outcome State Fault Refusal := .next (intervalClose s)

/-- Is the interval in progress whole before the switch: its 160 samples are used, or a frame with PF = 0 of a later one waits, so that
what it lacks was lost (R168)? -/
def wholeBefore (s : State) : Bool :=
  match s.mtr.interval with
  | none => false
  | some _ => decide (160 ≤ s.mtr.k) || (match s.mtr.held with | some f => frameLater s f && !(framePf f) | none => false)

/-- Use every remaining frame with PF = 0, closing each whole interval that they reach the end of, at most `fuel` (R174). -/
def consumeAll : Nat → State → State
  | 0, s => s
  | fuel + 1, s =>
    let s1 := consume true frameFuel s
    if wholeBefore s1 then consumeAll fuel (closeWhole s1) else s1

/-- Intervals that the frames of the largest queue can reach over: each frame is less than 100 intervals after the one before it. -/
def intervalFuel : Nat := 100 * frameFuel

/-- PARTIAL_INTERVAL_CLOSE (R174): every remaining frame with PF = 0 is used; whole intervals before the switch are closed as
such; the interval in progress is closed over its m samples, and one record with LAST = 1 commits them all (assumption 121). -/
def partialClose (s0 : State) : State :=
  let s := consumeAll intervalFuel (mtrFirst s0)
  sendCommit true s.mtr.k (closeNow s)

/-- PARTIAL_INTERVAL_CLOSE. -/
def execPartialIntervalClose (s : State) : Host.Outcome State Fault Refusal := .next (partialClose s)

/-! ## Harmonics and frequency (R176, R177) -/

/-- The offset-corrected samples of channel `n` over a window. -/
def winChan (l : List MtrSmp) (n : Nat) : List Word := l.map (fun e => e.raw.getD n 0#32)

/-- x_k of channel `n` over a window. -/
def winVals (l : List MtrSmp) (n : Nat) : List Word := l.map (fun e => e.val.getD n 0#32)

/-- Positive-going zero crossings: sample index, and the fraction a / b of a sample after it. -/
def crossings : Nat → List Word → List (Nat × Nat × Nat)
  | k, x :: y :: r =>
    let a := (-x.toInt).toNat
    let t := crossings (k + 1) (y :: r)
    if x.toInt < 0 ∧ 0 ≤ y.toInt then (k, a, (y.toInt - x.toInt).toNat) :: t else t
  | _, _ => []

/-- The frequency of a window from the crossings of its reference phase, as the nearest binary32; `none` invalid (R176). -/
def winFreq (cs : List (Nat × Nat × Nat)) : Option Word :=
  match cs, cs.getLast? with
  | (k1, a1, b1) :: _ :: _, some (k2, a2, b2) =>
    let num := 16000 * (cs.length - 1) * b1 * b2
    let den := (k2 - k1) * b1 * b2 + a2 * b1 - a1 * b2
    if den = 0 ∨ num < 45 * den ∨ 65 * den < num then none
    else some (fRound false (num * 2 ^ 64 / den) (-64) (decide (num * 2 ^ 64 % den ≠ 0))).1
  | _, _ => none

/-- Samples of a window: L = round(16,000 × M / f) (R176). -/
def winLen (s : State) (setB : Bool) : Nat :=
  let f := (mtrFreq s setB).1
  let m : Nat := if s.rb (if setB then Reg.mtrSetb else Reg.mtrSeta) 0 then 12 else 10
  let sh := (-(fPow f)).toNat
  (2 * 16000 * m * 2 ^ sh + fMant f) / (2 * (if fMant f = 0 then 1 else fMant f))

/-- VRMS of a phase over a window: sqrt(Σ x² / L) of the corrected samples. -/
def winVrms (xs : List Word) : FRes := rSqrt (rDiv (xs.foldl (fun a x => rFma a (fv x) (fv x)) zeroF) (rInt xs.length))

/-- The first phase of the set with VRMS of at least 10 % of NOMV over the window. -/
def refPhase (s : State) (set : Nat) (l : List MtrSmp) : Option Nat :=
  let nom := s.rf (if set = 1 then Reg.mtrSetb else Reg.mtrSeta) 31 16
  (List.range 3).find? (fun p => rGe (winVrms (winVals l (3 * set + p))) (rDiv (rInt nom) (rInt 10)))

/-- The channels of a mask that are analysed with a set: its voltage channels, and the current channels of its circuits. -/
def haChans (mask : Word) (s : State) (setB : Bool) : List Nat :=
  (List.range 30).filter (fun n => bit mask n &&
    (if n < 6 then decide (n / 3 = b2n setB) else cirSetB s.reg ((n - 6) / 3) == setB))

/-- THD = sqrt(Σ X_h², h = 2 to 40) / X_1, or 0x7FC0_0000 when X_1 = 0. -/
def thdOf (xs : List Word) : Word :=
  let x1 := xs.headD 0#32
  if fIsZero x1 then qnan
  else (rDiv (rSqrt (((xs.drop 1).take 39).foldl (fun a x => rFma a (fv x) (fv x)) zeroF)) (fv x1)).1

/-- The squared magnitude of Σ x_k e^(−j2π·hM·k/L) over a window of L samples, in units of 2^-418 (R177). -/
def dftSq (xs : List Word) (hm l : Nat) : Nat :=
  let ph (k : Nat) : Nat := hm * k % l * 2 ^ 64 / l
  let re := (xs.zipIdx.map (fun e => fUnits e.1 * cosTurn (ph e.2))).sum
  let im := (xs.zipIdx.map (fun e => fUnits e.1 * sinTurn (ph e.2))).sum
  re.natAbs * re.natAbs + im.natAbs * im.natAbs

/-- Term by term sum and difference of two lists of numbers. -/
def addEach (a b : List Int) : List Int := a.zipWith (fun x y => x + y) b
def subEach (a b : List Int) : List Int := a.zipWith (fun x y => x - y) b

/-- The terms of a list that stand at the same place modulo `n`, added: `g` pieces of `n`. -/
def foldMod (n : Nat) : Nat → List Int → List Int
  | 0, _ => List.replicate n 0
  | g + 1, l => addEach (l.take n) (foldMod n g (l.drop n))

/-- Is Σ x_k e^(−j2π·hM·k/L) exactly 0? With ζ of order n = L / gcd(hM, L), the sum is one of powers of ζ with the folded
coefficients; multiplied by ζ^(n/d) − 1 for every divisor d > 1 of n, which vanish at the other n-th roots of 1 alone, they are all 0
just when it is. -/
def dftZero (xs : List Word) (hm l : Nat) : Bool :=
  let n := l / Nat.gcd hm l
  let ds := ((List.range (n + 1)).drop 2).filter (fun d => n % d == 0)
  let c := ds.foldl (fun c d => subEach (c.drop (n / d) ++ c.take (n / d)) c) (foldMod n (Nat.gcd hm l) (xs.map fUnits))
  c.all (fun x => x == 0)

/-- (√2 / L) × mag / |H(h × f_w)| as the nearest binary32, for a magnitude in units of 2^-209 (R177), H being the cube of sin(π·hM/L)
over 1,250 × sin(π·hM/(1,250 L)), each sine from a half angle in turns. -/
def harmonicOf (mag h m l : Nat) : Word :=
  let a := (sinTurn (h * m * 2 ^ 63 / l)).natAbs
  let b := 1250 * (sinTurn (h * m * 2 ^ 63 / (1250 * l))).natAbs
  if a = 0 ∨ l = 0 then qnan
  else (fRound false (natSqrt (2 * (mag * mag) * b ^ 6 * 2 ^ 128 / (l * l * a ^ 6))) (-273) true).1

/-- The error of the computed magnitude, in units of 2^-209: the sines are within 2^-40. -/
def dftErr (xs : List Word) : Nat := (xs.map (fun x => (fUnits x).natAbs)).sum * 2 ^ 21 + 1

/-- X_h (R177): 0 where the sum is exactly 0; else a binary32 from a neighbour of the least to a neighbour of the greatest value that
the error of the sines leaves, which one being free as the spec states no rounding; a free value where a sample is not finite
(assumption 23). -/
def harmonicFree (xs : List Word) (m l : Nat) (f : Word) (h : Nat) : Word :=
  if !(xs.all fIsFin) then f
  else if dftZero xs (h * m) l then 0#32
  else
    let mag := natSqrt (dftSq xs (h * m) l)
    let lo := (harmonicOf (mag - dftErr xs) h m l).toNat - 1
    let hi := min ((harmonicOf (mag + dftErr xs) h m l).toNat + 1) 0x7F800000
    w32 (lo + f.toNat % (hi + 1 - lo))

/-- One harmonic record (Table 6-7). -/
def haRecord (m l : Nat) (w0 fw : Word) (ws : List MtrSmp) (s : State) (n : Nat) : State :=
  let q := s.rf Reg.mtrHaCfg 5 0
  if qLevel s q + 67 ≤ qSize s q then
    let r0 := freeWords 63 s
    let r := (r0.1.zipIdx.map (fun f => harmonicFree (winVals ws n) m l f.1 (f.2 + 1)), r0.2)
    qPushAll r.2 epEngine q ([w32 (n + m * 2 ^ 8 + l * 2 ^ 16), w0, fw] ++ r.1 ++ [thdOf r.1])
  else
    (mtrRec ((s.satRf Reg.mtrHaStat 31 16 1).orReg Reg.mtrEvt 0x100) 0x30B 4 n [w32 n]).republish [Reg.mtrHaStat, Reg.mtrEvt]

/-- FREQ_NOM of every circuit on a set. -/
def freqNom (setB v : Bool) (s : State) : State :=
  ((List.range 8).filter (fun c => cirSetB s.reg c == setB)).foldl (fun t c =>
    t.publish [(Reg.mtrCirStat c, setBit (t.reg (Reg.mtrCirStat c)) 5 v)]) s

/-- HARMONIC_WINDOW (R176, R177): nothing until the window's L samples are there. -/
def harmonicWindow (setB : Bool) (s : State) : State :=
  let set := b2n setB
  let x := sget win0 s.mtr.win set
  let l := winLen s setB
  if x.samples.length < l then s else
  let ws := x.samples.take l
  let m : Nat := if s.rb (if setB then Reg.mtrSetb else Reg.mtrSeta) 0 then 12 else 10
  let fw := (rDiv (rInt (16000 * m)) (rInt l)).1
  let f := match x.ref with | some p => winFreq (crossings 0 (winChan ws (3 * set + p))) | none => none
  let y : MtrWin := { samples := x.samples.drop l, ref := refPhase s set ws, mask := s.reg Reg.mtrHaMask }
  let s1 := { s with mtr := { s.mtr with win := sset win0 s.mtr.win set y } }
  let s2 := s1.publish [(if setB then Reg.mtrFreqb else Reg.mtrFreqa, match f with | some v => v | none => qnan),
    (Reg.mtrHaStat, setFld (s1.reg Reg.mtrHaStat) 15 0 (s1.rf Reg.mtrHaStat 15 0 + 1))]
  let s3 := if f.isNone then (freqNom setB true ((mtrRec (s2.orReg Reg.mtrEvt 0x20) 0x307 6 set [w32 set, fw]))).republish [Reg.mtrEvt]
    else freqNom setB false s2
  let w0 := match ws with | e :: _ => e.w0 | [] => 0#32
  if s.rb Reg.mtrHaCfg 8 then (haChans x.mask s3 setB).foldl (haRecord m l w0 fw ws) s3 else s3

/-- HARMONIC_WINDOW. -/
def execHarmonicWindow (setB : Bool) (s : State) : Host.Outcome State Fault Refusal := .next (harmonicWindow setB s)

/-! ## Waveform capture (R178) -/

/-- A capture ends. -/
def endCapture (trunc : Bool) (pushed : Nat) (s : State) : State :=
  let s1 := { s with mtr := { s.mtr with cap := none, capq := [] } }.publish
    [(Reg.mtrWcCtrl, setBit (s.reg Reg.mtrWcCtrl) 0 false), (Reg.mtrWcStat, w32 (2 + 4 * b2n trunc + pushed * 2 ^ 16))]
  if trunc then (mtrRec (s1.orReg Reg.mtrEvt 0x80) 0x30A 4 0 [w32 pushed]).republish [Reg.mtrEvt] else s1

/-- WC_ARM: a write of MTR_WC_CTRL (R178); while a capture is armed or running ARM has no effect. An ARM of a queue that will not do
is a capture that ends at once: DONE, WC_TRUNC and record 0x30A as well as the TRUNC that R178 names (assumption 112). -/
def wcArm (w : Word) (s : State) : State :=
  let busy := s.rb Reg.mtrWcCtrl 0
  let v := setBit (w &&& ~~~(regRsv Reg.mtrWcCtrl)) 0 (busy || bit w 0)
  let s1 := s.setReg Reg.mtrWcCtrl v
  if busy || !(bit w 0) then s1
  else
    let q := s.rf Reg.mtrWcCfg 5 0
    if qSize s q ≠ 0 ∧ qProd s q = epEngine ∧ qCons s q = epHost then s1 else endCapture true 0 s1

/-- WC_ARM. -/
def execWcArm (w : Word) (s : State) : Host.Outcome State Fault Refusal := .next (if s.boot.prog then s else wcArm w s)

/-- CAPTURE_SAMPLE (R178): the words of the next sample, if all fit. -/
def captureSample (s : State) : State :=
  match s.mtr.cap with
  | none => s
  | some x =>
    let q := s.rf Reg.mtrWcCfg 5 0
    let chs := bitsOf 30 x.mask
    if x.count ≤ x.pushed then endCapture false x.pushed s
    else match s.mtr.capq with
    | [] => s
    | e :: rest =>
      if qSize s q < qLevel s q + chs.length then endCapture true x.pushed s
      else
        let s1 := qPushAll s epEngine q (chs.map (fun n => if x.fmt then e.val.getD n 0#32 else e.raw.getD n 0#32))
        if x.count ≤ x.pushed + 1 then endCapture false (x.pushed + 1) s1
        else { s1 with mtr := { s1.mtr with cap := some { x with pushed := x.pushed + 1 }, capq := rest } }.publish
          [(Reg.mtrWcStat, w32 (1 + (x.pushed + 1) * 2 ^ 16))]

/-- CAPTURE_SAMPLE. -/
def execCaptureSample (s : State) : Host.Outcome State Fault Refusal := .next (captureSample s)

/-! ## Calibration hold, commits and pairings (R181, R182) -/

def masterCode : Master → Nat
  | .engine => 0 | .fabric => 1 | .host => 2

/-- MTR_CALHOLD_WRITE: a change of HOLD sets CALHOLD and is logged. -/
def calholdWrite (m : Master) (w : Word) (s : State) : State :=
  let v := w &&& ~~~(regRsv Reg.mtrCalhold)
  let s1 := s.setReg Reg.mtrCalhold v
  if v = s.reg Reg.mtrCalhold then s1
  else mtrRec (s1.orReg Reg.mtrEvt 0x200) 0x308 8 v.toNat [v, w32 (masterCode m)]

/-- MTR_CALHOLD_WRITE. -/
def execMtrCalholdWrite (m : Master) (w : Word) (s : State) : Host.Outcome State Fault Refusal :=
  .next (if s.boot.prog then s else calholdWrite m w s)

/-- After a commit of block 3 was applied: EDGE words are due, and outputs whose CFG or K changed take EMIT anew. -/
def mtrCommitted (before s : State) : State :=
  let ch := (List.range 8).filter (fun o =>
    before.reg (Reg.mtrS0Cfg o) != s.reg (Reg.mtrS0Cfg o) || before.reg (Reg.mtrS0K o) != s.reg (Reg.mtrS0K o))
  { s with mtr := { s.mtr with edgeDue := if s.mtr.started then [2, 3] else s.mtr.edgeDue, s0Reset := s.mtr.s0Reset ||| maskOf ch } }

/-- Is a binary32 value finite and from `lo` to `hi`? -/
def fBetween (lo hi w : Word) : Bool := fIsFin w && fLeTotal lo (fRead w) && fLeTotal (fRead w) hi

/-- 0.5 to 2.0. -/
def gainOk (w : Word) : Bool := fBetween 0x3F000000#32 0x40000000#32 w
def finNonneg (w : Word) : Bool := fIsFin w && (!(fSign w) || fIsZero w)
def finPos (w : Word) : Bool := fIsFin w && !(fSign w) && !(fIsZero w)

/-- The held registers of circuit `c` (R181). -/
def cirHeld (c : Nat) : List Nat :=
  [Reg.mtrCirCfg c, Reg.mtrCirNoload c, Reg.mtrCirPgain c, Reg.mtrCirPoffs c, Reg.mtrCirQgain c, Reg.mtrCirQoffs c,
   Reg.mtrCirVgain c, Reg.mtrCirVoffs2 c, Reg.mtrCirIgain c, Reg.mtrCirIoffs2 c]

def chHeld (n : Nat) : List Nat := [Reg.mtrChCfg n, Reg.mtrChOffs n, Reg.mtrChGain n, Reg.mtrChScale n]

/-- The enabled circuits that use a channel: for a voltage channel, all on its set (R181). -/
def usersOf (v : CfgView) (n : Nat) : List Nat :=
  (List.range 8).filter (fun c => cirOn v c && (if n < 6 then cirSetB v c == decide (3 ≤ n) else decide ((n - 6) / 3 = c)))

/-- The held fields and the circuits whose hold a change needs, active before or after. -/
def heldRows (v : CfgView) (s : State) : List PairRow :=
  let row (regs cs : List Nat) : List PairRow :=
    if regs.all (fun a => v a == s.reg a) then []
    else [pr 5 regs (cs.all (fun c => s.rb Reg.mtrCalhold c))]
  (List.range 30).flatMap (fun n => row (chHeld n) ((usersOf v n ++ usersOf s.reg n).dedup)) ++
  (List.range 8).flatMap (fun c => row (cirHeld c) (if cirOn v c || cirOn s.reg c then [c] else [])) ++
  row [Reg.mtrSeta] ((List.range 8).filter (fun c => cirOn v c && !(cirSetB v c))) ++
  row [Reg.mtrSetb] ((List.range 8).filter (fun c => cirOn v c && cirSetB v c))

/-- An image queue with engine producer and host consumer. -/
def captureQueueOk (s : State) (q : Nat) : Bool :=
  decide (qSize s q ≠ 0) && decide (qProd s q = epEngine) && decide (qCons s q = epHost)

/-- The MTR pairings (Table 6-9); the held fields are not checked at start (R181). The queue of WC is tested also of the reset value of
MTR_WC_CFG, as R118 foresees of a pairing (assumption 24). -/
def mtrPairs (start : Bool) (v : CfgView) (s : State) : List PairRow :=
  (List.range 30).flatMap (fun n =>
    [pr 4 [Reg.mtrChGain n] (gainOk (v (Reg.mtrChGain n))), pr 4 [Reg.mtrChScale n] (finPos (v (Reg.mtrChScale n))),
     pr 4 [Reg.mtrChCfg n] (let p := sxt 16 (fld (v (Reg.mtrChCfg n)) 31 16); decide (-2048 ≤ p) && decide (p ≤ 2047))]) ++
  (List.range 8).flatMap (fun c =>
    [pr 4 [Reg.mtrCirPgain c] (gainOk (v (Reg.mtrCirPgain c))), pr 4 [Reg.mtrCirQgain c] (gainOk (v (Reg.mtrCirQgain c))),
     pr 4 [Reg.mtrCirVgain c] (gainOk (v (Reg.mtrCirVgain c))), pr 4 [Reg.mtrCirIgain c] (gainOk (v (Reg.mtrCirIgain c))),
     pr 4 [Reg.mtrCirPoffs c] (fIsFin (v (Reg.mtrCirPoffs c))), pr 4 [Reg.mtrCirQoffs c] (fIsFin (v (Reg.mtrCirQoffs c))),
     pr 4 [Reg.mtrCirVoffs2 c] (finNonneg (v (Reg.mtrCirVoffs2 c))), pr 4 [Reg.mtrCirIoffs2 c] (finNonneg (v (Reg.mtrCirIoffs2 c))),
     pr 4 [Reg.mtrCirNoload c] (finNonneg (v (Reg.mtrCirNoload c))), pr 4 [Reg.mtrCirCfg c] (decide (cirWiring v c ≠ 3))]) ++
  [pr 4 [Reg.mtrSeta] (let n := fld (v Reg.mtrSeta) 31 16; decide (1 ≤ n) && decide (n ≤ 1000)),
   pr 4 [Reg.mtrSetb] (let n := fld (v Reg.mtrSetb) 31 16; decide (1 ≤ n) && decide (n ≤ 1000))] ++
  (List.range 8).map (fun c => pr 1 (Reg.mtrCirCfg c :: (cirChans v c).map Reg.mtrChCfg)
    (!(cirOn v c) || (cirChans v c).all (fun n => bit (v (Reg.mtrChCfg n)) 0))) ++
  (List.range 8).flatMap (fun o =>
    let cfg := v (Reg.mtrS0Cfg o)
    let en := bit cfg 0
    let acc := fld cfg 7 4
    [pr 4 [Reg.mtrS0Cfg o, Reg.mtrS0K o] (!en || (decide (30 ≤ fld cfg 15 8) && decide (fld cfg 15 8 ≤ 120) && v (Reg.mtrS0K o) != 0#32)),
     pr 1 [Reg.mtrCirCfg (fld cfg 3 1), Reg.mtrS0Cfg o] (!en || (cirOn v (fld cfg 3 1) && decide (acc ≤ 8) &&
       (!(acc == 2 || acc == 7) || cirMode v (fld cfg 3 1) acc)))]) ++
  [pr 4 [Reg.mtrRestore] (decide (fld (v Reg.mtrRestore) 20 0 + 1024 ≤ 2097152)),
   pr 3 [Reg.mtrHaCfg] (!(bit (v Reg.mtrHaCfg) 8) || (captureQueueOk s (fld (v Reg.mtrHaCfg) 5 0) && decide (67 ≤ qSize s (fld (v Reg.mtrHaCfg) 5 0)))),
   pr 3 [Reg.mtrWcCfg] (captureQueueOk s (fld (v Reg.mtrWcCfg) 5 0))] ++
  (if start then [] else heldRows v s)

end Sys2Proof.Machine
end

