-- ==== Sys2Proof/Machine/Path.lean ====
section
/-! DEFINITION. Consists, the walk of a path, the path table and the start of a path (R36, R38, R49, R57 to R62, R67). -/

namespace Sys2Proof.Machine

/-- The 128-bit consist with index `c` in code SRAM (R36). -/
def consistAt (code : List Host.Cell) (c : Nat) : Nat := memNat code (16 * c) 16

/-- END, LEND and WAIT of a consist (Table 2-1). -/
def cEnd (w : Nat) : Bool := w.testBit 127
def cLend (w : Nat) : Bool := w.testBit 126
def cWait (w : Nat) : Nat := w / 2 ^ 120 % 64

/-- The field of track `k` (Table 2-1). -/
def cTrack (w k : Nat) : Nat := w / 2 ^ (30 * k) % 2 ^ 30

/-- OP, PSEL, PINV and OPD of a track field (Table 2-2). -/
def tOp (f : Nat) : Nat := f / 2 ^ 19 % 64
def tPsel (f : Nat) : Nat := f / 2 ^ 26 % 16
def tPinv (f : Nat) : Bool := f.testBit 25
def tOpd (f : Nat) : Nat := f % 2 ^ 19

/-- Does the consist open a loop: LOOP, code 0x3F, on track 0. -/
def cIsLoop (w : Nat) : Bool := tOp (cTrack w 0) == 0x3F

/-- TRIP of a LOOP operation. -/
def cTrip (w : Nat) : Nat := tOpd (cTrack w 0) % 2 ^ 16

/-- One consist of a walked path: its index, its first issue cycle from the path's start, and for each open loop, outermost
first, how many times the body runs and the cycles of one body. -/
structure WalkItem where
  idx : Nat
  first : Nat
  reps : List (Nat × Nat)
  deriving DecidableEq, Repr

/-- Its last issue cycle. -/
def WalkItem.last (x : WalkItem) : Nat := x.first + (x.reps.map (fun r => (r.1 - 1) * r.2)).sum

/-- How often it issues in one run. -/
def WalkItem.count (x : WalkItem) : Nat := (x.reps.map (fun r => r.1)).prod

/-- The item moved `t` cycles later, inside a loop of `n` runs of `len` cycles. -/
def WalkItem.inLoop (x : WalkItem) (n len : Nat) : WalkItem := { x with reps := (n, len) :: x.reps }

/-- The result of a walk: the items in order, the cycles taken, and the index after the last consist; `none` where the
loop structure or END is faulty (R49). -/
abbrev Walk := Option (List WalkItem × Nat × Nat)

/-- Walk from consist `c`, at cycle `t` and loop depth `depth`, to END (depth 0) or LEND (in a loop), with at most `fuel`
consists and none at or beyond `top`. -/
def walk (code : List Host.Cell) (top : Nat) : Nat → Nat → Nat → Nat → Walk
  | 0, _, _, _ => none
  | fuel + 1, c, t, depth =>
    if top ≤ c then none else
    let w := consistAt code c
    let d := 1 + cWait w
    if cIsLoop w then
      if cEnd w || cLend w || decide (2 ≤ depth) then none else
      match walk code top fuel (c + 1) (t + d) (depth + 1) with
      | none => none
      | some (body, len, nx) =>
        let n := cTrip w + 1
        match walk code top fuel nx (t + d + n * len) depth with
        | none => none
        | some (rest, len2, nx2) =>
          some ({ idx := c, first := t, reps := [] } :: body.map (fun x => x.inLoop n len) ++ rest, d + n * len + len2, nx2)
    else
      let me : WalkItem := { idx := c, first := t, reps := [] }
      if depth = 0 then
        if cLend w then none
        else if cEnd w then some ([me], d, c + 1)
        else match walk code top fuel (c + 1) (t + d) 0 with
          | none => none
          | some (rest, len, nx) => some (me :: rest, d + len, nx)
      else
        if cEnd w then none
        else if cLend w then some ([me], d, c + 1)
        else match walk code top fuel (c + 1) (t + d) depth with
          | none => none
          | some (rest, len, nx) => some (me :: rest, d + len, nx)

/-- The consists of the consist area (Table 2-6). -/
def consistTop : Nat := 57344

/-- Walk a whole path from its first consist. -/
def walkPath (code : List Host.Cell) (top entry : Nat) : Walk := walk code top (consistTop - entry) entry 0 0

/-! ## The path table -/

/-- A path-table entry (Table 2-8). -/
structure PEntry where
  offset : Nat
  kexp : Nat
  enable : Bool
  armedOnly : Bool
  lastTrain : Bool
  core : Bool
  rsv : Bool
  phase : Nat
  armflag : Nat
  entry : Nat
  length : Nat
  pathno : Nat
  deriving DecidableEq, Repr

/-- Decode the 128-bit entry (Table 2-8); `rsv` says that some reserved bit is set. -/
def decodePEntry (v : Nat) : PEntry :=
  { offset := v % 2 ^ 17, kexp := v / 2 ^ 17 % 16, enable := v.testBit 21, armedOnly := v.testBit 22,
    lastTrain := v.testBit 23, core := v.testBit 24,
    rsv := decide (v / 2 ^ 25 % 128 ≠ 0) || decide (v / 2 ^ 46 % 4 ≠ 0) || decide (v / 2 ^ 56 % 256 ≠ 0) ||
           decide (v / 2 ^ 80 % 2 ^ 16 ≠ 0) || decide (v / 2 ^ 113 % 8 ≠ 0),
    phase := v / 2 ^ 32 % 2 ^ 14, armflag := v / 2 ^ 48 % 256, entry := v / 2 ^ 64 % 2 ^ 16,
    length := v / 2 ^ 96 % 2 ^ 17, pathno := v / 2 ^ 116 % 2 ^ 12 }

/-- The byte address in code SRAM of entry `p` of copy A or B. -/
def ptabAddr (copyB : Bool) (p : Nat) : Nat := (if copyB then 0xF0000 else 0xE0000) + 16 * p

/-- Entry `p` of a copy. -/
def ptabEntry (code : List Host.Cell) (copyB : Bool) (p : Nat) : PEntry :=
  decodePEntry (memNat code (ptabAddr copyB p) 16)

/-- A double error at a path-table address found by SCRB: the bit says whether copy A alone or both copies of the entry have
one; Table 2-19 has no bit for copy B alone, so there only the count and the address are kept (assumption 11). -/
def State.ptabDed (s : State) (a : Nat) : State :=
  let p := a % 0x10000 / 16
  let A := s.eccAt mcPtab (ptabAddr false p) == .double
  let B := s.eccAt mcPtab (ptabAddr true p) == .double
  let m := if A && B then 2 ^ 12 else if A then 2 ^ 11 else 0
  (((s.satRf Reg.tteEccPtab 31 24 1).orReg Reg.tteEccStat m)).setReg Reg.tteDedAddr (w32 (a % 2 ^ 21 + mcPtab * 2 ^ 21))

/-- The path-table reader (R61): copy A, copy B where A has a double error, no entry where both have. Where both have, one
double error is counted and copy B's address, read last, is kept: the spec does not say how many are counted or which
address stays (assumption 86). -/
def readPath (s : State) (p : Nat) : Option PEntry × State :=
  match s.eccAt mcPtab (ptabAddr false p) with
  | .ok => (some (ptabEntry s.code false p), s)
  | .single => (some (ptabEntry s.code false p), s.secEvent mcPtab)
  | .double =>
    match s.eccAt mcPtab (ptabAddr true p) with
    | .double =>
      let s1 := (s.satRf Reg.tteEccPtab 31 24 1).orReg Reg.tteEccStat (2 ^ 12)
      let s2 := s1.setReg Reg.tteDedAddr (w32 (ptabAddr true p % 2 ^ 21 + mcPtab * 2 ^ 21))
      (none, (s2.pathFault p 3).logOnce 0x103 1 12 p [w32 p, 0#32])
    | .single => (some (ptabEntry s.code true p),
        ((s.dedEvent mcPtab (ptabAddr false p)).secEvent mcPtab).logOnce 0x104 1 6 p [w32 p, 0#32])
    | .ok => (some (ptabEntry s.code true p),
        (s.dedEvent mcPtab (ptabAddr false p)).logOnce 0x104 1 6 p [w32 p, 0#32])

/-! ## Fetch errors of a run (R52, R67) -/

/-- The first faulty consist of a run: the item with a double error that issues first. -/
def firstDed (s : State) : List WalkItem → Option WalkItem
  | [] => none
  | x :: xs => if s.eccAt mcCode (16 * x.idx) = .double then some x else firstDed s xs

/-- How often an item is fetched before cycle `t` of the run, for an item that stands before the faulty consist: all its
issues where its last lies before `t`, else the iterations of its innermost loop that start before `t`. -/
def fetchesBefore (x : WalkItem) (t : Nat) : Nat :=
  if x.last < t then x.count
  else match x.reps.getLast? with
    | some (n, len) => min n ((t - x.first + len - 1) / (if len = 0 then 1 else len))
    | none => 0

/-- Fetches of consists with a single error, each corrected and counted (R52). -/
def fetchSecs (s : State) (t : Option Nat) : List WalkItem → Nat
  | [] => 0
  | x :: xs =>
    (if s.eccAt mcCode (16 * x.idx) = .single then
      (match t with | none => x.count | some u => if x.first < u then fetchesBefore x u else 0)
     else 0) + fetchSecs s t xs

/-- Count `n` corrected fetches. -/
def State.fetchSec (s : State) (n : Nat) : State :=
  if n = 0 then s else (s.satRf Reg.tteEccCode 23 0 n).orReg Reg.tteEccStat 1

/-- The declared commit points of a path that a run does not make: record 0x112, once per block in each major cycle (R90). -/
def State.commitMissed (s : State) (path mask : Nat) : State :=
  let new := maskOf ((bitsOf 16 mask).filter (fun b => !(s.logged.contains (0x112, b))))
  if new = 0 then s else
  { s.append 0x112 1 6 [w32 new, w32 path] with
    logged := (bitsOf 16 new).map (fun b => (0x112, b)) ++ s.logged }

/-- The blocks that the mirror plan declares for a path. -/
def planBlocks (s : State) (path : Nat) : Nat :=
  ((s.image.mirror.filter (fun e => e.path == path)).map (fun e => e.blocks)).foldl (fun a b => a ||| b) 0

/-- The first issue at or after cycle `t` of the run, of a consist with first issue `first` in loops `reps`, outermost first:
an inner loop's last issue lies before the next iteration of the loop around it. -/
def issueFrom (first t : Nat) : List (Nat × Nat) → Option Nat
  | [] => if t ≤ first then some first else none
  | (n, len) :: r =>
    let last := first + (r.map (fun q => (q.1 - 1) * q.2)).sum
    let k := (t - last + len - 1) / (if len = 0 then 1 else len)
    if k < n then issueFrom (first + k * len) t r else none

/-- The blocks whose declared commit points a run does not make, because it is at no-ops when their consists issue (R90). -/
def faultBlocks (s : State) (r : Run) : Nat :=
  match r.noopFrom, walkPath s.code consistTop r.entry with
  | some f, some (l, _, _) =>
    ((s.image.mirror.filter (fun e => e.path == r.path &&
      l.any (fun x => x.idx == e.consist && (issueFrom x.first (f - r.start) x.reps).isSome))).map (fun e => e.blocks)).foldl
        (fun a b => a ||| b) 0
  | _, _ => 0

/-- A fault of the run in progress misses the declared commit points that it no longer makes (R90); record 0x112 is written with the
fault, before the cycle at which the commit point stood (assumption 116). -/
def State.faultMissed (s : State) : State :=
  match s.eng.run with | some r => s.commitMissed r.path (faultBlocks s r) | none => s

/-- Begin a run: results of the path before have landed (R41), loops are closed, and the walk of the path's code finds the
first consist with a double error, from whose issue cycle the run is no-ops (R67). -/
def State.beginRun (s : State) (p start : Nat) (e : PEntry) : State :=
  let items := match walkPath s.code consistTop e.entry with | some (l, _, _) => l | none => []
  let bad := firstDed s items
  let s1 := s.landEnd.fetchSec (fetchSecs s (bad.map (fun x => x.first)) items)
  let run : Run := { path := p, entry := e.entry, start := start, length := e.length, noopFrom := bad.map (fun x => start + x.first) }
  let s2 := { s1 with eng := { s1.eng with run := some run, next := some (e.entry, start), loops := [], bodies := [] } }
  match bad with
  | none => s2
  | some x =>
    let s3 := (((s2.dedEvent mcCode (16 * x.idx)).pathFault p 1).logOnce 0x101 1 12 p [w32 p, w32 x.idx]).faultMissed
    if s3.rb Reg.tteCtrl 0 then
      { s3 with eng := { s3.eng with pf := sset 0#32 s3.eng.pf p (setBit (s3.pfOf p) 1 true) } }
    else s3

/-- The first issue of any consist of a walked path at or after cycle `t` of the run. -/
def firstIssue (l : List WalkItem) (t : Nat) : Option Nat :=
  (l.filterMap (fun x => issueFrom x.first t x.reps)).foldl (fun b v => match b with | none => some v | some u => some (min u v)) none

/-- The spare cycles of a run: those of the consists that issue at or after the cycle from which it is no-ops (R67, R68). The
cycles of a consist that issued before it are not spare. -/
def spareOf (code : List Host.Cell) (r : Run) : Nat :=
  match r.noopFrom with
  | none => 0
  | some f =>
    match walkPath code consistTop r.entry with
    | some (l, _, _) => (match firstIssue l (f - r.start) with | some t => r.length - t | none => 0)
    | none => r.start + r.length - f

/-- A span not executed is spare (R62, R67), and its commit points are missed (R90). -/
def State.skipPath (s : State) (p length : Nat) : State :=
  { s with eng := { s.eng with spareCyc := s.eng.spareCyc + length } }.commitMissed p (planBlocks s p)

/-- The path executes in this minor cycle: ELAPSED, the run, and the executed cycles (R56, R59). -/
def State.runPath (s : State) (p : Nat) (e : PEntry) : State :=
  let prev := sget 0 s.eng.prevStart p
  let el := if prev = 0 then 0 else s.eng.absM + 1 - prev
  let s1 := { s with eng := { s.eng with elapsed := w32 el, prevStart := sset 0 s.eng.prevStart p (s.eng.absM + 1),
                                         starts := sset 0 s.eng.starts p (sget 0 s.eng.starts p + 1) } }
  let s2 := s1.beginRun p e.offset e
  let sp := match s2.eng.run with | some r => spareOf s2.code r | none => 0
  { s2 with eng := { s2.eng with execCyc := s2.eng.execCyc + (e.length - sp), spareCyc := s2.eng.spareCyc + sp } }

/-- Arm flag `f` (R62, Table 2-28). -/
def State.armed (s : State) (f : Nat) : Bool := s.rb (Reg.tteArm (f / 32)) (f % 32)

/-- Set or clear arm flag `f`. -/
def State.setArm (s : State) (f : Nat) (b : Bool) : State := s.setRb (Reg.tteArm (f / 32)) (f % 32) b

/-- PATH_START (R58, R61, R62, R67): nothing starts unless minor cycles run and the run rule
selects this one; after power-fail detection only the path in progress completes (R74). -/
def pathStart (p : Nat) (s : State) : State :=
  if !(s.rb Reg.tteStat 0) || s.rb Reg.tteStat 1 || s.hamper.ltPending then s else
  match readPath s p with
  | (none, s1) => s1.commitMissed p (planBlocks s1 p)
  | (some e, s1) =>
    if !e.enable || e.lastTrain || decide (s.m % 2 ^ e.kexp ≠ e.phase) then s
    else if bit (s1.pfOf p) 1 then s1.skipPath p e.length
    else if e.armedOnly && !(s1.armed e.armflag) then s1.skipPath p e.length
    else s1.runPath p e

/-- PATH_START. -/
def execPathStart (path : Fin 4096) (s : State) : Host.Outcome State Fault Refusal := .next (pathStart path.val s)

end Sys2Proof.Machine
end

