-- ==== Sys2Proof/Machine/Points.lean ====
section
/-! DEFINITION. The point table, refreshing, forcing and stations (R226 to R232, R246 to R251). -/

namespace Sys2Proof.Machine

/-- A CTL record: source block 0x06 (R253). -/
def ctlRec (s : State) (code sev subject : Nat) (d : List Word) : State := s.logOnce code 6 sev subject d

/-- Data SRAM byte address of word `w` of point `p` (R227). -/
def ptAddr (p w : Nat) : Nat := 0x1E0000 + 32 * p + 4 * w

/-- Word `w` of point `p`. -/
def ptW (s : State) (p w : Nat) : Word := memW s.data (ptAddr p w)

/-- Write word `w` of point `p`, with fresh check bits. -/
def setPt (s : State) (p w : Nat) (v : Word) : State :=
  { s with data := memPutW s.data (ptAddr p w) v }.setEcc mcData (ptAddr p w) .ok

/-- STATUS fields (Table 9-2). -/
def ptQual (st : Word) : Nat := if fld st 1 0 = 3 then 2 else fld st 1 0
def ptForced (st : Word) : Bool := bit st 2
def ptSubst (st : Word) : Bool := bit st 3
def ptValid (st : Word) : Bool := bit st 4
def ptSubmode (st : Word) : Nat := fld st 6 5
def ptTenant (st : Word) : Nat := fld st 15 8
def ptType (st : Word) : Nat := fld st 18 16
def ptStation (st : Word) : Nat := fld st 27 20

/-- NOW = (TTE_MAJOR.COUNT × N + m) modulo 2^32 (R228). -/
def nowOf (s : State) : Word := w32 ((s.reg Reg.tteMajor).toNat * s.nMinor + s.m)

/-- The age of a point (R228). -/
def ptAge (s : State) (p : Nat) : Nat := (nowOf s - ptW s p 4).toNat

/-- Does an enabled force entry name the point (R246)? -/
def forcedBy (s : State) (p : Nat) : Option Nat :=
  (List.range 256).find? (fun f => s.rb (Reg.ctlFrcCfg f) 15 && decide (s.rf (Reg.ctlFrcCfg f) 11 0 = p))

/-- Refresh a point (R229): PROCESS, timestamp, QUALITY, VALID, REFRESH; VALUE unless the point is forced. FORCED clears at
the first refresh after its entry was cleared (R246). -/
def refreshPoint (p : Nat) (v : Word) (ts : Nat) (q : Nat) (s : State) : State :=
  let st := ptW s p 1
  let forced := ptForced st && (forcedBy s p).isSome
  let st' := setBit (setBit (setFld st 1 0 q) 4 true) 2 forced
  let s1 := setPt (setPt (setPt (setPt (setPt s p 5 v) p 2 (w32 ts)) p 3 (w32 (ts / 2 ^ 32))) p 1 st') p 4 (nowOf s)
  if forced then s1 else setPt s1 p 0 v

/-! ### Quality of field points (R195, R220) -/

/-- The quality of a point from whether a condition makes it bad, and whether one makes it uncertain. -/
def qualOf (bad uncertain : Bool) : Nat := if bad then 2 else if uncertain then 1 else 0

/-- The quality that a group's power and its latest status word give (R195): bad while it is unpowered, CFGD is 0 or the supply is
MISSING, uncertain while the supply is LOW. The word is 0 until the first sample after a start, so a point is bad until the first
sample after CFGD (R204, R222). -/
def supplyQual (s : State) (island : Nat) (status : Word) (bad : Bool) : Nat :=
  qualOf (!(islandPowered s island) || !(bit status 19) || bit status 17 || bad) (bit status 16)

/-- The channel that counter unit `k` of DI group `g` serves (R193). -/
def unitChan (s : State) (g k : Nat) : Nat := if s.rb (Reg.dioDiCmode g) (16 + k) then k + 8 else k

/-- The quality of an input-mode channel (R220): the supply does not matter to it. -/
def ainQual (s : State) (a c : Nat) : Nat :=
  let st := s.reg (Reg.aioAgStat a)
  let code := s.rf (Reg.aioAgChAin a c) 15 0
  qualOf (!(islandPowered s (17 + a)) || !(bit st 19) || bit st (28 + c) || atAlarm s a c code)
    (decide (code < 10377) || decide (55979 < code))

/-! ### Stations -/

def station0 : Station := { up := false, last := none, recov := 0, downAt := 0 }

def State.sta (s : State) (n : Nat) : Station := sget station0 s.ctl.stations n
def State.setSta (s : State) (n : Nat) (x : Station) : State := { s with ctl := { s.ctl with stations := sset station0 s.ctl.stations n x } }

def staOn (s : State) (n : Nat) : Bool := s.rb (Reg.ctlStaCfg n) 0

/-- Is the station of a point's STATUS word substituted: one of the 64, enabled and DOWN (R250)? -/
def staDown (s : State) (n : Nat) : Bool := decide (n < 64) && staOn s n && !(s.sta n).up

/-- The quality of a value received from a bus: good unless the point's station is substituted (R229), where it is the quality that R250
gives its SUBMODE (assumption 26). -/
def busQual (s : State) (p : Nat) : Nat :=
  let st := ptW s p 1
  if staDown s (ptStation st) then (if ptSubmode st ≤ 1 then 1 else 2) else 0

/-- The quality of the source of a refresh of point `p` (R229): that of the circuit's last closed interval (R168), of the field
channel (R195, R220), of the station (R250), or the one given. -/
def sourceQual (s : State) (p : Nat) : PtSource → Nat
  | .given q => q.toNat
  | .bus => busQual s p
  | .circuit c => s.rf (Reg.mtrCirStat c.val) 7 6
  | .diChan g c => supplyQual s (11 + g.val) (s.reg (Reg.dioDiSupply g.val)) (s.rb (Reg.dioDiBreak g.val) c.val)
  | .diUnit g k => supplyQual s (11 + g.val) (s.reg (Reg.dioDiSupply g.val)) (s.rb (Reg.dioDiBreak g.val) (unitChan s g.val k.val))
  | .aoIn a c => ainQual s a.val c.val
  | .aoRb a _ => supplyQual s (17 + a.val) (s.reg (Reg.aioAgStat a.val)) false

/-- POINT_REFRESH: data that did not arrive valid refreshes nothing (R229); a tenant channel that is not the point's is
discarded, flagged and logged (R230). -/
def pointRefresh (p : Nat) (valid : Bool) (v : Word) (ts q : Nat) (chan : Option (BitVec 8)) (s : State) : State :=
  if !valid then s else
  match chan with
  | none => refreshPoint p v ts q s
  | some c =>
    if c.toNat = ptTenant (ptW s p 1) then refreshPoint p v ts q s
    else (ctlRec (s.orReg Reg.ctlEvt 0x80) 0x609 6 p [w32 p, w32 c.toNat]).republish [Reg.ctlEvt]

/-- POINT_REFRESH. -/
def execPointRefresh (p : Fin 4096) (valid : Bool) (v : Word) (ts : BitVec 64) (src : PtSource) (chan : Option (BitVec 8))
    (s : State) : Host.Outcome State Fault Refusal := .next (pointRefresh p.val valid v ts.toNat (sourceQual s p.val src) chan s)

/-! ## Forcing (R246 to R248) -/

/-- One force entry at the force path. -/
def forceOne (s : State) (f : Nat) : State :=
  if s.rb (Reg.ctlFrcCfg f) 15 then
    let p := s.rf (Reg.ctlFrcCfg f) 11 0
    let st := setBit (setBit (setFld (ptW s p 1) 1 0 0) 2 true) 4 true
    setPt (setPt (setPt s p 0 (s.reg (Reg.ctlFrcVal f))) p 1 st) p 4 (nowOf s)
  else s

/-- FORCE_APPLY (R246). -/
def execForceApply (s : State) : Host.Outcome State Fault Refusal := .next ((List.range 256).foldl forceOne s)

/-- The number of enabled force entries. -/
def forceCount (s : State) : Nat := ((List.range 256).filter (fun f => s.rb (Reg.ctlFrcCfg f) 15)).length

/-- FORCED of CTL_STAT, CTL_FORCES and the lamp, from the entries, published with CTL_EVT (R226, R248). -/
def forceShow (s : State) : State :=
  let n := forceCount s
  let s1 := (s.setReg Reg.ctlForces (w32 n)).setRb Reg.ctlStat 0 (decide (n ≠ 0))
  { s1 with ctl := { s1.ctl with forceLamp := decide (n ≠ 0) } }.republish [Reg.ctlForces, Reg.ctlStat, Reg.ctlEvt]

/-- A force entry changed by a commit: CTL_EVT.FORCE and a record for every change (R248). -/
def forceChange (before : State) (s : State) (f : Nat) : State :=
  let c0 := before.reg (Reg.ctlFrcCfg f); let c1 := s.reg (Reg.ctlFrcCfg f)
  if c0 = c1 ∧ before.reg (Reg.ctlFrcVal f) = s.reg (Reg.ctlFrcVal f) then s
  else if bit c0 15 && !(bit c1 15) then (s.orReg Reg.ctlEvt 0x20).append 0x602 6 4 [w32 f, w32 (fld c0 11 0)]
  else (s.orReg Reg.ctlEvt 0x20).append 0x601 6 6 [w32 f, w32 (fld c1 11 0)]

/-! ## Stations (R249 to R251) -/

/-- TIMEOUT of a station in ns (R249). -/
def staTimeoutNs (s : State) (n : Nat) : Nat := s.rf (Reg.ctlStaTimeout n) 15 0 * 1000000

/-- A valid frame or cell from an identifier on an interface and unit refreshes its stations (R249). -/
def stationRefresh (iface unit : Nat) (id : Word) (s : State) : State :=
  let hit (n : Nat) : Bool := staOn s n && decide (s.rf (Reg.ctlStaCfg n) 2 1 = iface) &&
    (decide (iface = 0) || decide (s.rf (Reg.ctlStaCfg n) 7 4 = unit)) &&
    (if iface = 0 then decide (fld (s.reg (Reg.ctlStaId n)) 15 0 = fld id 15 0) else s.reg (Reg.ctlStaId n) == id)
  ((List.range 64).filter hit).foldl (fun t n =>
    let x := t.sta n
    let near := match x.last with | some l => decide (t.fabTime - l ≤ staTimeoutNs t n) && decide (x.recov ≠ 0) | none => false
    t.setSta n { x with last := some t.fabTime, recov := if x.up then 0 else if near then x.recov + 1 else 1 }) s

/-- The arm flag of a station's error task (Table 3-10). -/
def staFlag (s : State) (n : Nat) : Option Nat := (s.image.errTasks.find? (fun e => e.station == n)).map (fun e => e.flag)

def armStation (s : State) (n : Nat) (b : Bool) : State := match staFlag s n with | some f => s.setArm f b | none => s

/-- Fabric time in ms since the last refresh, or since release. -/
def sinceMs (s : State) (x : Station) : Nat := (s.fabTime - (match x.last with | some l => l | none => s.mtr.relNs)) / 1000000

/-- One station at a run: the change to DOWN or UP (R249, R251); one that has been DOWN since release counts from there. -/
def stationOne (s : State) (n : Nat) : State :=
  if !(staOn s n) then (s.setSta n station0).setRf (Reg.ctlStaStat n) 2 0 0 else
  let x := s.sta n
  let late := match x.last with | some l => decide (staTimeoutNs s n < s.fabTime - l) | none => true
  let s1 :=
    if x.up && late then
      let s0 := (((s.setSta n { x with up := false, recov := 0, downAt := s.fabTime }).satRf (Reg.ctlStaStat n) 31 16 1).orReg Reg.ctlEvt 4)
      ctlRec (armStation s0 n true) 0x605 8 n [w32 n, w32 (sinceMs s x)]
    else if !x.up && !late && decide (s.rf (Reg.ctlStaCfg n) 15 8 ≤ x.recov) then
      let s0 := (s.setSta n { x with up := true, recov := 0 }).orReg Reg.ctlEvt 8
      ctlRec (armStation s0 n false) 0x606 4 n [w32 n, w32 ((s.fabTime - max x.downAt s.mtr.relNs) / 1000000000)]
    else s
  let u := (s1.sta n).up
  let ar := match staFlag s1 n with | some f => s1.armed f | none => false
  s1.setRf (Reg.ctlStaStat n) 2 0 (b2n u + 2 * b2n (!u) + 4 * b2n ar)

/-- The substitute of one point whose station is DOWN (R250); a force in effect goes first (R246). SUBMODE 3 is taken as 2
(assumption 26). -/
def substitute (s : State) (p : Nat) : State :=
  let st := ptW s p 1
  if (forcedBy s p).isSome then s else
  match ptSubmode st with
  | 0 => setPt (setPt s p 1 (setBit (setBit (setFld st 1 0 1) 3 true) 4 true)) p 4 (nowOf s)
  | 1 => setPt (setPt (setPt (setPt s p 0 (ptW s p 6)) p 5 (ptW s p 6)) p 1 (setBit (setBit (setFld st 1 0 1) 3 true) 4 true)) p 4 (nowOf s)
  | _ => setPt s p 1 (setBit (setFld st 1 0 2) 3 true)

/-- One point at a run of the station path: a substitute while its station is DOWN; SUBST clears at UP. -/
def stationPoint (s : State) (p : Nat) : State :=
  let st := ptW s p 1
  let n := ptStation st
  if 64 ≤ n then s
  else if staDown s n then substitute s p
  else if ptSubst st then setPt s p 1 (setBit st 3 false) else s

/-- STATION_CHECK (R249 to R251): one run of the station path. -/
def stationCheck (s : State) : State :=
  let s1 := (List.range 64).foldl stationOne s
  let down := (List.range 64).any (fun n => staOn s1 n && !(s1.sta n).up)
  ((List.range 4096).foldl stationPoint (s1.setRb Reg.ctlStat 2 down)).republish
    ([Reg.ctlStat, Reg.ctlEvt] ++ (List.range 64).map Reg.ctlStaStat)

/-- STATION_CHECK. -/
def execStationCheck (s : State) : Host.Outcome State Fault Refusal := .next (stationCheck s)

/-! ## Start and the window -/

/-- The listed cells of a list of bytes from `a`: those that differ from what an unlisted byte reads as. -/
def cellsOf : Nat → List Byte → List Host.Cell
  | _, [] => []
  | a, b :: bs => if b = memByte0 then cellsOf (a + 1) bs else (a, b) :: cellsOf (a + 1) bs

/-- The STATUS bits a start keeps: SUBMODE, TENANT, TYPE and STATION (R231). -/
def ptKept : Word := 0x0FF7FF60#32

/-- The record of a point at a start (R231): SUBMODE, TENANT, TYPE, STATION and SUBVAL kept, QUALITY 2, all else 0. -/
def startRecord (s : State) (p : Nat) : List Byte :=
  let st := (ptW s p 1 &&& ptKept) ||| 2#32
  wordBytes [0#32, st, 0#32, 0#32, 0#32, 0#32, ptW s p 6, 0#32]

/-- Every point at a start (R231), written with fresh check bits. -/
def startPoints (s : State) : State :=
  let new := (List.range 4096).flatMap (fun p => cellsOf (ptAddr p 0) (startRecord s p))
  { s with data := s.data.filter (fun e => decide (e.1 < 0x1E0000)) ++ new ++ s.data.filter (fun e => decide (0x200000 ≤ e.1)),
           ecc := sclear s.ecc (eccKey mcData 0x1E0000) (eccKey mcData 0x200000) }

/-- The publishing path at a commit point of block 6: CTL_NOW and the window of 16 points (R228, R232). -/
def ctlWindow (s : State) : State :=
  let g := s.rf Reg.ctlPtSel 7 0
  let ws := (List.range 128).map (fun i => (Reg.ctlPtw (i / 8) (i % 8), ptW s (16 * g + i / 8) (i % 8)))
  s.publish (ws ++ [(Reg.ctlNow, nowOf s),
    (Reg.ctlPtWin, w32 (g + ((s.rf Reg.ctlPtWin 31 16 + 1) % 2 ^ 16) * 2 ^ 16))])

end Sys2Proof.Machine
end

