-- ==== Sys2Proof/Machine/Loops.lean ====
section
/-! DEFINITION. Control loops, feed-forward tables, test signals and cyclic services (R233 to R245, R252). -/

namespace Sys2Proof.Machine

def loop0 : Loop := { i := 0#32, dPrev := 0#32, pvPrev := 0#32, first := true, auto := false, last := none, base := 0, tried := 0 }

def State.lp (s : State) (n : Nat) : Loop := sget loop0 s.ctl.loops n
def State.setLp (s : State) (n : Nat) (x : Loop) : State := { s with ctl := { s.ctl with loops := sset loop0 s.ctl.loops n x } }

/-- The binary32 value nearest to a ratio of natural numbers. -/
def fRatio (num den : Nat) : FRes :=
  if den = 0 then (0#32, 0) else fRound false (num * 2 ^ 64 / den) (-64) (decide (num * 2 ^ 64 % den ≠ 0))

/-! ## The settings of a slot -/

def lpMode (s : State) (n : Nat) : Nat := s.rf (Reg.ctlLpCfg n) 1 0
def lpAct (s : State) (n : Nat) : Bool := s.rb (Reg.ctlLpCfg n) 2
def lpSpSrc (s : State) (n : Nat) : Bool := s.rb (Reg.ctlLpCfg n) 3
def lpFfen (s : State) (n : Nat) : Bool := s.rb (Reg.ctlLpCfg n) 4
def lpOutinv (s : State) (n : Nat) : Bool := s.rb (Reg.ctlLpCfg n) 5
def lpDiv (s : State) (n : Nat) : Nat := s.rf (Reg.ctlLpCfg n) 28 16
def lpPv (s : State) (n : Nat) : Nat := s.rf (Reg.ctlLpPta n) 11 0
def lpOut (s : State) (n : Nat) : Nat := s.rf (Reg.ctlLpPta n) 27 16
def lpSpPt (s : State) (n : Nat) : Nat := s.rf (Reg.ctlLpPtb n) 11 0
def lpTrk (s : State) (n : Nat) : Nat := s.rf (Reg.ctlLpPtb n) 27 16
def lpTrken (s : State) (n : Nat) : Bool := s.rb (Reg.ctlLpPtb n) 28
def lpPos (s : State) (n : Nat) : Nat := s.rf (Reg.ctlLpPtc n) 11 0

/-- comp (R237): COMPLIANCE of channel AOC of group AOG in its latest ASTAT word, with AOEN = 1. -/
def lpComp (s : State) (n : Nat) : Bool :=
  s.rb (Reg.ctlLpPtc n) 20 && s.rb (Reg.aioAgStat (s.rf (Reg.ctlLpPtc n) 17 16)) (20 + s.rf (Reg.ctlLpPtc n) 19 18)

/-- The loop period in ns: DIV × 2^KEXP × t_minor (R233). -/
def lpPeriodNs (s : State) (n : Nat) : Nat := lpDiv s n * 2 ^ s.rf (Reg.ctlLpSched n) 15 12 * s.minorNs

/-- dt (R233): the minor cycles since the previous computation times t_minor, or the nominal period. -/
def lpDt (s : State) (n : Nat) : FRes :=
  match (s.lp n).last with
  | some l => rMul (rInt (s.eng.absM - l)) (fRatio s.minorNs 1000000000)
  | none => fRatio (lpPeriodNs s n) 1000000000

/-- Is a point stale for a slot: VALID = 0, or its age exceeds AGE (R234)? -/
def lpStale (s : State) (n p : Nat) : Bool := !(ptValid (ptW s p 1)) || decide (s.rf (Reg.ctlLpLim n) 15 0 < ptAge s p)

/-- How a slot computes at an attempt (R235). -/
inductive LpRun where
  | off | auto | manual
  /-- TRACK from a point, or from the forced output point. -/
  | track (src : Nat) (forced : Bool)
  /-- AUTO without the tablet and without TRKEN: state held, nothing written. -/
  | hold
  deriving DecidableEq, Repr

/-- The behaviour of a slot at an attempt (R235). -/
def lpRun (s : State) (n : Nat) : LpRun :=
  if lpMode s n = 0 then .off
  else if ptForced (ptW s (lpOut s n) 1) then .track (lpOut s n) true
  else if lpMode s n = 3 then .track (lpTrk s n) false
  else if lpMode s n = 2 then .manual
  else if holdsTablet s then .auto
  else if lpTrken s n then .track (lpTrk s n) false
  else .hold

/-- The input points that the behaviour uses (R234). -/
def lpInputs (s : State) (n : Nat) : LpRun → List Nat
  | .auto => [lpPv s n] ++ (if lpSpSrc s n then [lpSpPt s n] else []) ++ (if lpFfen s n then [lpPos s n] else [])
  | .track src false => [src]
  | _ => []

/-- The starts of the slot's path since release (R233). -/
def lpStarts (s : State) (n : Nat) : Nat := sget 0 s.eng.starts (s.rf (Reg.ctlLpSched n) 11 0)

/-- A slot that the image supports makes an attempt once at every DIV-th start of its path, the first one counted being the first
after it left MODE 0 (R233, assumption 95). -/
def lpDue (s : State) (n : Nat) : Bool :=
  let k := lpStarts s n - (s.lp n).base
  s.rb (Reg.ctlLpSched n) 31 && decide (s.curPath = s.rf (Reg.ctlLpSched n) 11 0) && decide (1 ≤ k) && decide (k % lpDiv s n = 0) &&
  decide ((s.lp n).tried ≠ lpStarts s n)

/-! ## The law (R236 to R238) -/

/-- Data SRAM byte address of entry `k` of the feed-forward table of slot `n`. -/
def ffAddr (n k : Nat) : Nat := 0x1C0000 + 1024 * n + 4 * k

/-- table(pos) (R238). -/
def ffTable (s : State) (n : Nat) (pos : FRes) : FRes :=
  let lo := fv (s.reg (Reg.ctlLpPoslo n))
  let x0 := rDiv (rMul (rSub pos lo) (rInt 255)) (rSub (fv (s.reg (Reg.ctlLpPoshi n))) lo)
  let x := rMin (rMax x0 zeroF) (rInt 255)
  let k := min (fWhole x.1) 254
  let t (j : Nat) : FRes := fv (memW s.data (ffAddr n j))
  rAdd (t k) (rMul (rSub x (rInt k)) (rSub (t (k + 1)) (t k)))

/-- ff of the law. -/
def lpFf (s : State) (n : Nat) : FRes :=
  if lpFfen s n then rMul (fv (s.reg (Reg.ctlLpKff n))) (ffTable s n (fv (ptW s (lpPos s n) 0))) else zeroF

def lpSp (s : State) (n : Nat) : FRes := if lpSpSrc s n then fv (ptW s (lpSpPt s n) 0) else fv (s.reg (Reg.ctlLpSp n))
def lpPvV (s : State) (n : Nat) : FRes := fv (ptW s (lpPv s n) 0)

/-- e for a setpoint. -/
def lpErr (s : State) (n : Nat) (sp : FRes) : FRes := if lpAct s n then rSub (lpPvV s n) sp else rSub sp (lpPvV s n)

/-- d of the law. -/
def lpD (s : State) (n : Nat) (dt : FRes) (first : Bool) : FRes :=
  let x := s.lp n
  if first then zeroF else
  let tf := fv (s.reg (Reg.ctlLpTf n))
  let kd := fv (s.reg (Reg.ctlLpKd n))
  let t := rMul kd (rSub (lpPvV s n) (fv x.pvPrev))
  let num := rMul tf (fv x.dPrev)
  rDiv (if lpAct s n then rAdd num t else rSub num t) (rAdd tf dt)

/-- Clamp to OUTLO and OUTHI. -/
def lpClamp (s : State) (n : Nat) (v : FRes) : FRes :=
  rMin (rMax v (fv (s.reg (Reg.ctlLpOutlo n)))) (fv (s.reg (Reg.ctlLpOuthi n)))

/-- The results of one computation: u, i, e, d, the saturation marks, the output quality. -/
structure LpOut where
  u : FRes
  i : FRes
  e : FRes
  d : FRes
  hi : Bool
  lo : Bool
  q : Nat
  deriving DecidableEq, Repr

/-- The AUTO law (R236) with a test injection `inj`, at the setpoint when `atSp`; it is the first computation where the slot enters
AUTO or an attempt did not compute. -/
def lpAuto (s : State) (n : Nat) (dt inj : FRes) (atSp : Bool) : LpOut :=
  let sp := if atSp then rAdd (lpSp s n) inj else lpSp s n
  let j := if atSp then zeroF else inj
  let e := lpErr s n sp
  let p := rMul (fv (s.reg (Reg.ctlLpKp n))) e
  let d := lpD s n dt ((s.lp n).first || !(s.lp n).auto)
  let ff := lpFf s n
  let i := fv (s.lp n).i
  let kie := rMul (fv (s.reg (Reg.ctlLpKi n))) e
  let ic := rAdd i (rMul kie dt)
  let uc := rAdd (rAdd (rAdd (rAdd p ic) d) ff) j
  let hiS := rLt (fv (s.reg (Reg.ctlLpOuthi n))) uc
  let loS := rLt uc (fv (s.reg (Reg.ctlLpOutlo n)))
  let hi := hiS || (lpComp s n && !(lpOutinv s n))
  let lo := loS || (lpComp s n && lpOutinv s n)
  let ic' := if (rLt zeroF kie && hi) || (rLt kie zeroF && lo) then i else ic
  let i1 := lpClamp s n ic'
  let u := lpClamp s n (rAdd (rAdd (rAdd (rAdd p i1) d) ff) j)
  { u := u, i := i1, e := e, d := d, hi := hiS, lo := loS,
    q := if (lpInputs s n .auto).any (fun p => ptQual (ptW s p 1) == 1) then 1 else 0 }

/-- MANUAL and TRACK (R235): the output is `u`; the integrator is back-calculated when PV and SP are not stale, with d of the law
after a computation in any mode (assumption 47). -/
def lpFollow (s : State) (n : Nat) (dt u : FRes) (q : Nat) : LpOut :=
  let e := lpErr s n (lpSp s n)
  let d := lpD s n dt (s.lp n).first
  let stale := lpStale s n (lpPv s n) || (lpSpSrc s n && lpStale s n (lpSpPt s n))
  let p := rMul (fv (s.reg (Reg.ctlLpKp n))) e
  let i := if stale then fv (s.lp n).i else lpClamp s n (rSub (rSub (rSub u p) d) (lpFf s n))
  { u := u, i := i, e := e, d := d, hi := false, lo := false, q := q }

/-! ## Test signals (R241 to R243) -/

/-- A test ends: DONE, TRUNC or ABORT with its CAUSE, record 0x608, TEST_END (R243). -/
def testEnd (slot flags cause samples : Nat) (s : State) : State :=
  let s1 := { s with ctl := { s.ctl with test := none } }
  let s2 := ((s1.setReg Reg.ctlTsStat (w32 (2 * flags + 16 * cause + (samples % 2 ^ 13) * 2 ^ 16))).orReg Reg.ctlEvt 0x40).setRb Reg.ctlStat 3 false
  ((ctlRec s2 0x608 4 slot [w32 slot, w32 (flags + 16 * cause)]).setRb (Reg.ctlLpStat slot) 7 false).republish
    [Reg.ctlTsStat, Reg.ctlEvt, Reg.ctlStat, Reg.ctlLpStat slot]

/-- CTL_TS_CTRL as written: RUN and COUNT. -/
def tsCtrl (s : State) (run : Bool) (count : Nat) : State := s.setReg Reg.ctlTsCtrl (w32 (b2n run + (count % 2 ^ 13) * 2 ^ 16))

/-- The queue a capture needs (R241). -/
def testQueueOk (s : State) (q count : Nat) : Bool := captureQueueOk s q && decide (3 * count + 4 ≤ qSize s q)

/-- TEST_RUN (R241): a write of 1 to RUN with COUNT. During a test it has no effect. -/
def testRun (count : Nat) (s : State) : State :=
  if s.ctl.test.isSome then s else
  let s1 := tsCtrl s true count
  let cfg := s.reg Reg.ctlTsCfg
  let slot := fld cfg 6 0
  if lpMode s slot = 1 ∧ fld cfg 9 8 ≠ 0 ∧ 1 ≤ count ∧ count ≤ 4096 ∧ testQueueOk s (fld cfg 21 16) count then
    let s2 := { s1 with ctl := { s1.ctl with test := some { cfg := cfg, amp := s.reg Reg.ctlTsAmp, f0 := s.reg Reg.ctlTsF0, f1 := s.reg Reg.ctlTsF1, count := count,
                                                                 k := 0, lfsr := 0x1FF, phi := some 0 } } }
    ((s2.setReg Reg.ctlTsStat 1#32).setRb Reg.ctlStat 3 true).republish [Reg.ctlTsStat, Reg.ctlStat]
  else testEnd slot 4 1 0 s1

/-- TEST_RUN. -/
def execTestRun (count : BitVec 13) (s : State) : Host.Outcome State Fault Refusal :=
  .next (if s.boot.prog then s else testRun count.toNat s)

/-- TEST_STOP (R243): a write of 0 to RUN during a test ends it with CAUSE 4. -/
def testStop (s : State) : State :=
  let s1 := s.setRb Reg.ctlTsCtrl 0 false
  match s.ctl.test with
  | some t => testEnd (fld t.cfg 6 0) 4 4 t.k s1
  | none => s1

/-- TEST_STOP. -/
def execTestStop (s : State) : Host.Outcome State Fault Refusal := .next (if s.boot.prog then s else testStop s)

/-- AMP × sin 2πφ, within 2^-20 × |AMP| (R241): the spec states the tolerance and no rounding, so a free value where it lies within
(assumption 27), else the product rounded. -/
def chirpInj (amp : Word) (phi : Nat) (s : State) : FRes × State :=
  let r := s.free
  let exact := fUnits amp * sinTurn phi
  if !(fIsFin amp) then (rMul (fv amp) (fRoundInt (sinTurn phi) (-60) false), r.2)
  else if fIsFin r.1 && decide ((fUnits r.1 * 2 ^ 60 - exact).natAbs ≤ (fUnits amp).natAbs * 2 ^ 40) then (fv r.1, r.2)
  else (fRoundInt exact (-209) false, r.2)

/-- φ of the next computation of a chirp: φ + f_k × dt_k modulo 1, f_k = F0 + (F1 − F0) × k / COUNT. -/
def TestGen.nextPhi (t : TestGen) (dt : Word) : Option Nat :=
  match t.phi with
  | none => none
  | some p =>
    if fIsFin t.f0 && fIsFin t.f1 && fIsFin dt then
      let f := fUnits t.f0 * (t.count : Int) + (fUnits t.f1 - fUnits t.f0) * (t.k : Int)
      some ((((p : Int) + f * fUnits dt * 2 ^ 64 / ((t.count : Int) * 2 ^ 298)) % 2 ^ 64).toNat)
    else none

/-- inj of computation k (R241): step, PRBS, or a chirp; a chirp whose phase is not a finite number is a free value within ±AMP
(assumption 27). -/
def testInj (t : TestGen) (s : State) : FRes × State :=
  let a := fv t.amp
  match fld t.cfg 9 8 with
  | 1 => (if t.k < t.count / 8 then zeroF else a, s)
  | 2 => (if t.lfsr.testBit 8 then a else rNeg a, s)
  | _ =>
    match t.phi with
    | some p => chirpInj t.amp p s
    | none => let r := s.free; let m := rAbs a; (rMax (rNeg m) (rMin m (fv r.1)), r.2)

/-- The 9-bit register shifts left, new bit 0 being bit 8 xor bit 4. -/
def lfsrNext (v : Nat) : Nat := (2 * v) % 512 + b2n (v.testBit 8 != v.testBit 4)

/-- The test after computation k: the register advances every HOLD computations, the phase at each. -/
def TestGen.next (t : TestGen) (dt : Word) : TestGen :=
  let h := fld t.cfg 31 24
  { t with k := t.k + 1, phi := t.nextPhi dt, lfsr := if h ≠ 0 ∧ (t.k + 1) % h = 0 then lfsrNext t.lfsr else t.lfsr }

/-- The header of a capture (R242). -/
def testHeader (t : TestGen) (now : Nat) (s : State) : State :=
  if t.k ≠ 0 then s else
  let slot := fld t.cfg 6 0
  qPushAll s epEngine (fld t.cfg 21 16)
    [w32 (0x54430000 + slot + fld t.cfg 9 8 * 256 + fld t.cfg 12 12 * 4096), w32 now, w32 t.count,
     w32 (lpPeriodNs s slot / 1000)]

/-- The capture of one computation, and the end of the test after COUNT of them (R242, R243). -/
def testCapture (t : TestGen) (now : Nat) (dt pv u inj : Word) (s0 : State) : State :=
  let s := testHeader t now s0
  let q := fld t.cfg 21 16
  let slot := fld t.cfg 6 0
  if qSize s q < qLevel s q + 3 then testEnd slot 2 5 t.k s
  else
    let s1 := qPushAll s epEngine q [pv, u, inj]
    if t.count ≤ t.k + 1 then testEnd slot 1 0 (t.k + 1) s1
    else { s1 with ctl := { s1.ctl with test := some (t.next dt) } }.publish
      [(Reg.ctlTsStat, w32 (1 + ((t.k + 1) % 2 ^ 13) * 2 ^ 16))]

/-- The test on slot `n`, if it runs there. -/
def testOn (s : State) (n : Nat) : Option TestGen :=
  match s.ctl.test with
  | some t => if fld t.cfg 6 0 = n then some t else none
  | none => none

/-- A test in progress, on whichever slot, ends with a cause (R243). -/
def testCut (cause : Nat) (s : State) : State :=
  match s.ctl.test with
  | some t => testEnd (fld t.cfg 6 0) 4 cause t.k s
  | none => s

/-- An attempt of the slot under test that is not an AUTO computation ends the test. -/
def testAbort (n cause : Nat) (s : State) : State :=
  match testOn s n with
  | some t => testEnd n 4 cause t.k s
  | none => s

/-! ## An attempt (R233 to R236, R239) -/

/-- Write entries of the feed-forward tables, in order; each raises CTL_FFW_STAT.WRITTEN (R239). -/
def ffwPut : List (Nat × Nat × Word) → State → State
  | [], s => s
  | (n, k, v) :: r, s =>
    let s1 := { s with data := memPutW s.data (ffAddr n k) v }.setEcc mcData (ffAddr n k) .ok
    ffwPut r (s1.publish [(Reg.ctlFfwStat, w32 ((s1.rf Reg.ctlFfwStat 15 0 + 1) % 2 ^ 16))])

/-- The entries due of slot `n` are written before its computation (R239). -/
def ffwSlot (n : Nat) (s : State) : State :=
  ffwPut (s.ctl.ffwDue.filter (fun e => e.1 == n)) { s with ctl := { s.ctl with ffwDue := s.ctl.ffwDue.filter (fun e => e.1 != n) } }

/-- FFW_WRITE (R239): every entry due. -/
def ffwWrite (s : State) : State := ffwPut s.ctl.ffwDue { s with ctl := { s.ctl with ffwDue := [] } }

/-- FFW_WRITE. -/
def execFfwWrite (s : State) : Host.Outcome State Fault Refusal := .next (ffwWrite s)

/-- CTL_STAT.STALE_ANY and CTL_LPSTALEq follow STAT.STALE of a slot. -/
def lpStaleShow (n : Nat) (v : Bool) (s : State) : State :=
  let s1 := s.setRb (Reg.ctlLpstale (n / 32)) (n % 32) v
  let any := (List.range 4).any (fun q => s1.reg (Reg.ctlLpstale q) != 0#32)
  s1.setRb Reg.ctlStat 1 any

/-- The registers a slot's path publishes. -/
def lpRegs (n : Nat) : List Nat :=
  [Reg.ctlLpStat n, Reg.ctlLpEvt n, Reg.ctlLpMisses n, Reg.ctlLpstale (n / 32), Reg.ctlStat, Reg.ctlEvt]

/-- An attempt that does not compute for a stale (`bad = false`) or bad input `p` (R234). -/
def lpMiss (n p : Nat) (bad : Bool) (s : State) : State :=
  let s1 := s.setLp n { s.lp n with first := true }
  let s2 := (s1.setRf (Reg.ctlLpStat n) 2 0 (if bad then 4 else 2)).orReg (Reg.ctlLpEvt n) (if bad then 2 else 1)
  let s3 := (if bad then s2.satRf (Reg.ctlLpMisses n) 31 16 1 else s2.satRf (Reg.ctlLpMisses n) 15 0 1).orReg Reg.ctlEvt (if bad then 2 else 1)
  let s4 := ctlRec (lpStaleShow n (!bad) s3) (if bad then 0x604 else 0x603) 6 n [w32 n, w32 p]
  (testAbort n 2 s4).republish (lpRegs n)

/-- Store the results of a computation at fabric time `now`: the output point refreshed, the slot's registers and state (R227, R229,
R235, R236). -/
def lpStore (n now : Nat) (tracking isAuto : Bool) (dt : FRes) (o : LpOut) (s : State) : State :=
  let s0 := s.fpFlags (o.u.2 ||| o.i.2 ||| o.e.2 ||| o.d.2 ||| dt.2)
  let pv := (lpPvV s n).1
  let s1 := refreshPoint (lpOut s n) o.u.1 now o.q s0
  let s2 := s1.setLp n { s1.lp n with i := o.i.1, dPrev := o.d.1, pvPrev := pv, first := false, auto := isAuto, last := some s.eng.absM }
  let stat := w32 (1 + 8 * b2n o.hi + 16 * b2n o.lo + 32 * b2n (lpComp s n) + 64 * b2n tracking +
    128 * b2n ((testOn s n).isSome && isAuto) + 256 * o.q)
  (lpStaleShow n false (s2.publish [(Reg.ctlLpStat n, stat), (Reg.ctlLpOut n, o.u.1), (Reg.ctlLpI n, o.i.1), (Reg.ctlLpPv n, pv),
    (Reg.ctlLpErr n, o.e.1), (Reg.ctlLpDt n, dt.1), (Reg.ctlLpCount n, s.reg (Reg.ctlLpCount n) + 1#32)])).republish (lpRegs n)

/-- A computation in AUTO, with the injection of a test on the slot. -/
def lpDoAuto (n now : Nat) (s : State) : State :=
  let dt := lpDt s n
  match testOn s n with
  | none => lpStore n now false true dt (lpAuto s n dt zeroF false) s
  | some t =>
    let r := testInj t s
    let o := lpAuto s n dt r.1 (bit t.cfg 12)
    let pv := (lpPvV s n).1
    testCapture t now dt.1 pv o.u.1 r.1.1 (lpStore n now false true dt o r.2)

/-- An attempt of a slot whose results are stored at fabric time `now` (R234 to R236). -/
def loopRun (n now : Nat) (s : State) : State :=
  let run := lpRun s n
  let ins := lpInputs s n run
  match run with
  | .off => testAbort n 3 s
  | .hold => (testAbort n 3 (lpStaleShow n false ((s.setLp n { s.lp n with first := true }).setRf (Reg.ctlLpStat n) 2 0 0))).republish (lpRegs n)
  | _ =>
    match ins.find? (fun p => lpStale s n p) with
    | some p => lpMiss n p false s
    | none =>
      match ins.find? (fun p => ptQual (ptW s p 1) == 2) with
      | some p => lpMiss n p true s
      | none =>
        let dt := lpDt s n
        match run with
        | .auto => lpDoAuto n now s
        | .track src _ =>
          testAbort n 3 (lpStore n now true false dt (lpFollow s n dt (fv (ptW s src 0)) (ptQual (ptW s src 1))) s)
        | _ => testAbort n 3 (lpStore n now false false dt (lpFollow s n dt (fv (s.reg (Reg.ctlLpManval n))) 0) s)

/-- LOOP_ATTEMPT (R233 to R236, R239): the storing consist issues at core cycle `cycle`; no loop runs before release or in the
last train (R240). -/
def loopAttempt (n cycle : Nat) (s : State) : State :=
  if !(s.rb Reg.tteStat 0) || s.rb Reg.tteStat 1 || !(lpDue s n) then s else
  loopRun n (s.nowNs cycle) (ffwSlot n (s.setLp n { s.lp n with tried := lpStarts s n }))

/-- LOOP_ATTEMPT. -/
def execLoopAttempt (n : Fin 128) (cycle : BitVec 17) (s : State) : Host.Outcome State Fault Refusal :=
  .next (loopAttempt n.val cycle.toNat s)

/-! ## Services (R244, R245) -/

def svc0 : Svc := { start := none, done := none }
def State.svcOf (s : State) (v : Nat) : Svc := sget svc0 s.ctl.svc v
def State.setSvc (s : State) (v : Nat) (x : Svc) : State := { s with ctl := { s.ctl with svc := sset svc0 s.ctl.svc v x } }

/-- The slice spans of a service in a minor cycle: OFFSET and LENGTH of each slice path. -/
def sliceSpans (s : State) (v : Nat) : List (Nat × Nat) :=
  (Config.slicePaths v).map (fun p => let e := ptabEntry s.code false p; (e.offset, e.length))

/-- The core cycles of the slice spans of one minor cycle after a given OFFSET; all of them where none is given. -/
def spanCycles (l : List (Nat × Nat)) (after : Option Nat) : Nat :=
  ((l.filter (fun e => match after with | some o => decide (o < e.1) | none => true)).map (fun e => e.2)).sum

/-- The first slice path of a service that has met PATH_FAULT in the cycle in progress (R245). -/
def sliceFault (s : State) (v : Nat) : Option Nat := (Config.slicePaths v).find? (fun p => s.eng.pfNew.contains p)

/-- A cycle of a service ends, at the minor cycle that follows its last: what it publishes (R244, R245). -/
def serviceEnd (v start : Nat) (s : State) : State :=
  let l := sliceSpans s v
  let fault := sliceFault s v
  let done := (s.svcOf v).done
  let ok := done.isSome && fault.isNone
  let reserved := w32 ((s.eng.absM - start) * spanCycles l none)
  let idle := match done with | some (m, rest) => w32 (rest + (s.eng.absM - 1 - m) * spanCycles l none) | none => 0#32
  let id := if ok then idle else 0#32
  let old := s.reg (Reg.ctlSvIdleMin v)
  let s1 := s.publish [(Reg.ctlSvReserved v, reserved), (Reg.ctlSvIdle v, id),
    (Reg.ctlSvIdleMin v, if id.toNat < old.toNat then id else old),
    (Reg.ctlSvCycles v, s.reg (Reg.ctlSvCycles v) + 1#32),
    (Reg.ctlSvStat v, w32 (b2n fault.isSome + 2 * b2n ok))]
  let s2 := match fault with
    | some p => ctlRec ((s1.satRf (Reg.ctlSvFaults v) 15 0 1).orReg Reg.ctlEvt 0x10) 0x607 8 v [w32 v, w32 p]
    | none => s1
  let any := (List.range 4).any (fun k => s2.rb (Reg.ctlSvStat k) 0)
  (s2.setRb Reg.ctlStat 4 any).republish [Reg.ctlSvFaults v, Reg.ctlEvt, Reg.ctlStat]

/-- PERIOD of a present service, 0 for one that is absent. -/
def svPeriod (s : State) (v : Nat) : Nat := if s.rb (Reg.ctlSvCfg v) 31 then s.rf (Reg.ctlSvCfg v) 15 0 else 0

/-- One service as a minor cycle begins: with m a multiple of PERIOD the cycle in progress ends and a new one begins (R244). -/
def serviceTurn (s : State) (v : Nat) : State :=
  if svPeriod s v = 0 ∨ s.m % svPeriod s v ≠ 0 then s else
  let s1 := match (s.svcOf v).start with | some m => serviceEnd v m s | none => s
  let s2 := { s1 with eng := { s1.eng with pfNew := s1.eng.pfNew.filter (fun p => !((Config.slicePaths v).contains p)) } }
  s2.setSvc v { start := some s2.eng.absM, done := none }

/-- The four services as a minor cycle begins. -/
def serviceTurns (s : State) : State := (List.range 4).foldl serviceTurn s

/-- SERVICE_CYCLE: the program of a service completes in the slice in progress, at core cycle `cycle`: the output points are written,
and the spans that follow are idle (R244, R245). A cycle that has a fault, or has completed, does not complete. -/
def serviceCycle (v cycle : Nat) (outs : List (Fin 4096 × Word × BitVec 2)) (s : State) : State :=
  if !(s.rb Reg.tteStat 0) || s.rb Reg.tteStat 1 || (s.svcOf v).start.isNone || (s.svcOf v).done.isSome || (sliceFault s v).isSome ||
    !((Config.slicePaths v).contains s.curPath) then s
  else
    let rest := spanCycles (sliceSpans s v) (some (ptabEntry s.code false s.curPath).offset)
    let s1 := outs.foldl (fun t o => refreshPoint o.1.val o.2.1 (s.nowNs cycle) o.2.2.toNat t) s
    s1.setSvc v { s1.svcOf v with done := some (s.eng.absM, rest) }

/-- SERVICE_CYCLE. -/
def execServiceCycle (sv : Fin 4) (cycle : BitVec 17) (outs : List (Fin 4096 × Word × BitVec 2)) (s : State) :
    Host.Outcome State Fault Refusal := .next (serviceCycle sv.val cycle.toNat outs s)

/-! ## Start, commits and pairings (R231, R240, R252) -/

/-- The image's schedule shows in CTL_LPn_SCHED and CTL_SVs_CFG, published (R226, assumption 25). -/
def schedShow (s : State) : State :=
  s.publish (((List.range 128).map Reg.ctlLpSched ++ (List.range 4).map Reg.ctlSvCfg).map (fun a =>
    (a, Config.imageFact a &&& ~~~(regRsv a))))

/-- CTL at a start: slots, stations and tests begin anew, and force entries enabled by the configuration show (R240, R248). -/
def ctlStart (s : State) : State := forceShow { s with ctl := Ctl.reset }

/-- A slot after a commit: leaving MODE 0 it begins anew, and AUTO is entered anew when MODE changes (R233, R236). -/
def lpCommitted (before s : State) (n : Nat) : State :=
  let m0 := lpMode before n
  let m1 := lpMode s n
  if m0 = m1 then s
  else if m0 = 0 then s.setLp n { s.lp n with first := true, auto := false, last := none, base := lpStarts s n }
  else s.setLp n { s.lp n with auto := false }

/-- The test in progress ends when its slot leaves AUTO or its output is forced (R243). -/
def testCommitted (s : State) : State :=
  match s.ctl.test with
  | some t =>
    let n := fld t.cfg 6 0
    if lpMode s n ≠ 1 ∨ (forcedBy s (lpOut s n)).isSome then testCut 3 s else s
  | none => s

/-- After a commit of block 6 was applied: force records, the lamp, slots whose MODE changed, a test cut off, a table write due. -/
def ctlCommitted (before s : State) : State :=
  let s1 := forceShow ((List.range 256).foldl (forceChange before) s)
  let s2 := testCommitted ((List.range 128).foldl (lpCommitted before) s1)
  if s2.rb Reg.ctlFfwSel 16 then
    { s2 with ctl := { s2.ctl with
        ffwDue := s2.ctl.ffwDue ++ [(s2.rf Reg.ctlFfwSel 6 0, s2.rf Reg.ctlFfwSel 15 8, s2.reg Reg.ctlFfwVal)] } }
  else s2

/-- TYPE of a point in the point table. -/
def ptTypeOf (s : State) (p : Nat) : Nat := ptType (ptW s p 1)

/-- The CTL pairings (Table 9-5). A check to which the table gives no MODE or EN is made of every slot and every station, of reset
values too, as R118 foresees of a pairing (assumption 24). -/
def ctlPairs (v : CfgView) (s : State) : List PairRow :=
  let slots := List.range 128
  let mode (n : Nat) : Nat := fld (v (Reg.ctlLpCfg n)) 1 0
  let out (n : Nat) : Nat := fld (v (Reg.ctlLpPta n)) 27 16
  let on := slots.filter (fun n => decide (mode n ≠ 0))
  slots.flatMap (fun n =>
    let cfg := v (Reg.ctlLpCfg n)
    let div := fld cfg 28 16
    let per := div * 2 ^ s.rf (Reg.ctlLpSched n) 15 12 * s.minorNs
    let a := v (Reg.ctlLpPta n); let b := v (Reg.ctlLpPtb n); let c := v (Reg.ctlLpPtc n)
    let used := [fld a 11 0, fld a 27 16] ++ (if bit cfg 3 then [fld b 11 0] else []) ++
      (if bit b 28 then [fld b 27 16] else []) ++ (if bit cfg 4 then [fld c 11 0] else [])
    [pr 4 [Reg.ctlLpCfg n] (decide (1 ≤ div) && decide (div ≤ 4096)),
     pr 4 [Reg.ctlLpCfg n, Reg.ctlLpLim n] (decide (mode n = 0) || decide (1 ≤ fld (v (Reg.ctlLpLim n)) 15 0))] ++
    [Reg.ctlLpKp n, Reg.ctlLpKi n, Reg.ctlLpKd n, Reg.ctlLpTf n].map (fun r => pr 4 [r] (finNonneg (v r))) ++
    [pr 4 [Reg.ctlLpOutlo n, Reg.ctlLpOuthi n] (fIsFin (v (Reg.ctlLpOutlo n)) && fIsFin (v (Reg.ctlLpOuthi n)) &&
       rLt (fv (v (Reg.ctlLpOutlo n))) (fv (v (Reg.ctlLpOuthi n)))),
     pr 4 [Reg.ctlLpCfg n, Reg.ctlLpPoslo n, Reg.ctlLpPoshi n] (!(bit cfg 4) || rLt (fv (v (Reg.ctlLpPoslo n))) (fv (v (Reg.ctlLpPoshi n)))),
     pr 3 [Reg.ctlLpCfg n] (decide (mode n = 0) || (s.rb (Reg.ctlLpSched n) 31 && decide (50000 ≤ per) && decide (per ≤ 10000000000))),
     pr 1 [Reg.ctlLpCfg n, Reg.ctlLpPta n] (decide (fld a 11 0 ≠ fld a 27 16)),
     pr 1 [Reg.ctlLpCfg n, Reg.ctlLpPta n] (decide (mode n = 0) || !(on.any (fun k => decide (k ≠ n) && decide (out k = out n)))),
     pr 1 [Reg.ctlLpCfg n, Reg.ctlLpPta n, Reg.ctlLpPtb n, Reg.ctlLpPtc n]
       (used.all (fun p => decide (ptTypeOf s p = 0))),
     pr 2 [Reg.ctlLpPtc n, Reg.aioAgChCfg (fld c 17 16) (fld c 19 18)] (!(bit c 20) || !(bit (v (Reg.aioAgChCfg (fld c 17 16) (fld c 19 18))) 0))]) ++
  [pr 4 [Reg.ctlTsCfg] (decide (1 ≤ fld (v Reg.ctlTsCfg) 31 24))] ++
  (List.range 64).flatMap (fun n =>
    let cfg := v (Reg.ctlStaCfg n)
    [pr 4 [Reg.ctlStaCfg n] (decide (fld cfg 2 1 ≠ 3) && (decide (fld cfg 2 1 = 0) || decide (fld cfg 7 4 ≤ 11)) &&
       decide (1 ≤ fld cfg 15 8)),
     pr 4 [Reg.ctlStaTimeout n] (decide (1 ≤ fld (v (Reg.ctlStaTimeout n)) 15 0))]) ++
  (List.range 256).filterMap (fun f =>
    let cfg := v (Reg.ctlFrcCfg f)
    if !(bit cfg 15) then none else
    some (pr 1 [Reg.ctlFrcCfg f] (!((List.range f).any (fun g => bit (v (Reg.ctlFrcCfg g)) 15 && decide (fld (v (Reg.ctlFrcCfg g)) 11 0 = fld cfg 11 0))))))

/-- A point whose TYPE or STATION the spec does not permit (R252). -/
def badPoint (s : State) : Option Nat :=
  (List.range 4096).find? (fun p => decide (4 ≤ ptTypeOf s p) ||
    (decide (64 ≤ ptStation (ptW s p 1)) && decide (ptStation (ptW s p 1) ≤ 254)))

end Sys2Proof.Machine
end

