-- ==== Sys2Proof/Machine/Keccak.lean ====
section
/-! DEFINITION. SHAKE256 and KMAC256, the hash functions the spec names by their standards, FIPS 202 and SP 800-185
(R95, R283, R267; PRESUMED from those standards, assumption 28). -/

namespace Sys2Proof.Machine

/-- The state of the permutation: the lane at column `x`, row `y` is entry x + 5 y. -/
abbrev Lanes := List (BitVec 64)

/-- The lane at column `x`, row `y`, both modulo 5. -/
def laneAt (a : Lanes) (x y : Nat) : BitVec 64 := a.getD (x % 5 + 5 * (y % 5)) 0

/-- The state with lane `f x y` at every column and row. -/
def mkLanes (f : Nat → Nat → BitVec 64) : Lanes := (List.range 25).map (fun i => f (i % 5) (i / 5))

/-- Step ρ's walk: from column 1, row 0, the place of step `t` and its rotation (t + 1)(t + 2) / 2. -/
def rhoWalk : Nat → Nat → Nat → Nat → List (Nat × Nat)
  | 0, _, _, _ => []
  | n + 1, t, x, y => (x + 5 * y, (t + 1) * (t + 2) / 2 % 64) :: rhoWalk n (t + 1) y ((2 * x + 3 * y) % 5)

/-- The rotation of the lane at column `x`, row `y`: 0 at the origin, which the walk never meets. -/
def rhoOf (x y : Nat) : Nat := (((rhoWalk 24 0 1 0).find? (fun p => p.1 == x + 5 * y)).map Prod.snd).getD 0

/-- Step ι's bits: `n` outputs of the shift register of x^8 + x^6 + x^5 + x^4 + 1 from register `r`. -/
def lfsrBits : Nat → Nat → List Bool
  | 0, _ => []
  | n + 1, r => r.testBit 0 :: lfsrBits n (if r.testBit 7 then (2 * r) ^^^ 0x171 else 2 * r)

/-- The constant of a round from its seven bits: bit j stands at lane bit 2^j - 1. -/
def roundConst (bs : List Bool) : BitVec 64 :=
  BitVec.ofNat 64 ((bs.zipIdx.map (fun p => if p.1 then 2 ^ (2 ^ p.2 - 1) else 0)).sum)

/-- The constants of `n` rounds, seven bits each. -/
def roundConsts : Nat → List Bool → List (BitVec 64)
  | 0, _ => []
  | n + 1, bs => roundConst (bs.take 7) :: roundConsts n (bs.drop 7)

/-- Step θ's parity of column `x`. -/
def parity (a : Lanes) (x : Nat) : BitVec 64 := ((List.range 5).map (laneAt a x)).foldl (· ^^^ ·) 0

/-- θ. -/
def stepTheta (a : Lanes) : Lanes :=
  let p := (List.range 5).map (parity a)
  mkLanes (fun x y => laneAt a x y ^^^ p.getD ((x + 4) % 5) 0 ^^^ (p.getD ((x + 1) % 5) 0).rotateLeft 1)

/-- ρ, then π: the lane at column X, row Y comes from column X + 3 Y, row X. -/
def stepRhoPi (a : Lanes) : Lanes :=
  mkLanes (fun x y => (laneAt a (x + 3 * y) x).rotateLeft (rhoOf ((x + 3 * y) % 5) x))

/-- χ. -/
def stepChi (a : Lanes) : Lanes :=
  mkLanes (fun x y => laneAt a x y ^^^ (laneAt a (x + 2) y &&& ~~~(laneAt a (x + 1) y)))

/-- One round: θ, ρ, π, χ, and ι on the lane at the origin. -/
def keccakRound (a : Lanes) (rc : BitVec 64) : Lanes :=
  let b := stepChi (stepRhoPi (stepTheta a))
  (laneAt b 0 0 ^^^ rc) :: b.drop 1

/-- Keccak-f[1600]: 24 rounds. -/
def keccakF (a : Lanes) : Lanes := (roundConsts 24 (lfsrBits 168 1)).foldl keccakRound a

/-- The lanes of a list of bytes, eight bytes each, little-endian. -/
def bytesLanes : List Byte → Lanes
  | a :: b :: c :: d :: e :: f :: g :: h :: r => BitVec.ofNat 64 (leNat [a, b, c, d, e, f, g, h]) :: bytesLanes r
  | _ => []

/-- The bytes of lanes. -/
def lanesBytes : Lanes → List Byte
  | [] => []
  | x :: xs => leBytes 8 x.toNat ++ lanesBytes xs

/-- The rate of SHAKE256 and cSHAKE256 in bytes. -/
def rate256 : Nat := 136

/-- Pad with the suffix byte and the final bit to a multiple of the rate. -/
def keccakPad (suffix : Byte) (m : List Byte) : List Byte :=
  let k := rate256 - m.length % rate256
  if k = 1 then m ++ [suffix ||| 0x80] else m ++ [suffix] ++ List.replicate (k - 2) 0 ++ [0x80]

/-- Absorb `n` blocks. -/
def absorb : Nat → Lanes → List Byte → Lanes
  | 0, a, _ => a
  | n + 1, a, m =>
    let b := bytesLanes (m.take rate256)
    absorb n (keccakF (mkLanes (fun x y => laneAt a x y ^^^ laneAt b x y))) (m.drop rate256)

/-- Squeeze `n` blocks. -/
def squeeze : Nat → Lanes → List Byte
  | 0, _ => []
  | n + 1, a => (lanesBytes a).take rate256 ++ squeeze n (keccakF a)

/-- The sponge of capacity 512 with a domain suffix, `n` output bytes. -/
def sponge256 (suffix : Byte) (m : List Byte) (n : Nat) : List Byte :=
  let p := keccakPad suffix m
  (squeeze (n / rate256 + 1) (absorb (p.length / rate256) (List.replicate 25 0) p)).take n

/-- SHAKE256 with `n` output bytes. -/
def shake256 (m : List Byte) (n : Nat) : List Byte := sponge256 0x1F m n

/-- The big-endian bytes of a number without leading zeros, at least one. -/
def beBytes (n : Nat) : List Byte :=
  let k := if n = 0 then 1 else Nat.log2 n / 8 + 1
  (leBytes k n).reverse

def leftEncode (n : Nat) : List Byte := BitVec.ofNat 8 (beBytes n).length :: beBytes n
def rightEncode (n : Nat) : List Byte := beBytes n ++ [BitVec.ofNat 8 (beBytes n).length]
def encodeString (s : List Byte) : List Byte := leftEncode (8 * s.length) ++ s

/-- Prefix the rate and pad with zeros to a multiple of it. -/
def bytePad (x : List Byte) : List Byte :=
  let z := leftEncode rate256 ++ x
  z ++ List.replicate ((rate256 - z.length % rate256) % rate256) 0

/-- The bytes of an ASCII string. -/
def asciiBytes (s : String) : List Byte := s.toList.map (fun c => BitVec.ofNat 8 c.toNat)

/-- KMAC256(K, X, 8 n bits, S). -/
def kmac256 (k x : List Byte) (n : Nat) (s : String) : List Byte :=
  sponge256 0x04 (bytePad (encodeString (asciiBytes "KMAC") ++ encodeString (asciiBytes s)) ++
    (bytePad (encodeString k) ++ x ++ rightEncode (8 * n))) n

end Sys2Proof.Machine
end

