-- ==== Sys2Proof/Machine/Falcon.lean ====
section
/-! DEFINITION. Verification of a Falcon-1024 signature, the scheme that the spec names without giving it (R95, R113, R383;
PRESUMED from the Falcon specification, version 1.2, assumption 29). -/

namespace Sys2Proof.Machine

def falconN : Nat := 1024
def falconQ : Nat := 12289

/-- The bound on the squared norm of a signature. -/
def falconBound : Nat := 70265242

/-- The bits of a list of bytes, the most significant bit of each byte first. -/
def beBits (l : List Byte) : List Bool := (l.map (fun b => (List.range 8).map (fun i => b.getLsbD (7 - i)))).flatten

/-- A number from its bits, the most significant first. -/
def beNat (l : List Bool) : Nat := l.foldl (fun a b => 2 * a + b2n b) 0

/-- The polynomial of a public key: header byte 0x0A, then 1,024 coefficients below q of 14 bits each. -/
def falconKey (key : List Byte) : Option (List Nat) :=
  let bits := beBits (key.drop 1)
  let h := (List.range falconN).map (fun i => beNat ((bits.drop (14 * i)).take 14))
  if key.length = 1793 && key.headD 0 == 0x0A && h.all (fun c => decide (c < falconQ)) then some h else none

/-- A run of 0 bits and the 1 bit that ends it: its length and the bits behind it. -/
def unaryRun : List Bool → Option (Nat × List Bool)
  | [] => none
  | true :: r => some (0, r)
  | false :: r => (unaryRun r).map (fun p => (p.1 + 1, p.2))

/-- `n` coefficients of a compressed signature: a sign, seven low bits, and the high part in unary; a negative 0 and a magnitude
above 2,047 are invalid. -/
def falconCoeffs : Nat → List Bool → Option (List Int × List Bool)
  | 0, bs => some ([], bs)
  | _ + 1, [] => none
  | n + 1, neg :: r =>
    match unaryRun (r.drop 7) with
    | none => none
    | some (k, rest) =>
      let m := beNat (r.take 7) + 128 * k
      if 2047 < m || (neg && m == 0) then none
      else (falconCoeffs n rest).map (fun p => ((if neg then -(m : Int) else (m : Int)) :: p.1, p.2))

/-- The coefficients of a compressed signature; what is left of its last byte is 0. -/
def falconSig (body : List Byte) : Option (List Int) :=
  match falconCoeffs falconN (beBits body) with
  | some (l, rest) => if rest.length < 8 && rest.all (fun b => !b) then some l else none
  | none => none

/-- Pairs of bytes as numbers, the first byte the higher. -/
def bePairs : List Byte → List Nat
  | a :: b :: r => (a.toNat * 256 + b.toNat) :: bePairs r
  | _ => []

/-- The point that a salted message hashes to: 16-bit samples of SHAKE256 below 5 q, modulo q. 4,096 samples hold 1,024 such but
for a chance far below any that a test could meet. -/
def falconPoint (salted : List Byte) : List Nat :=
  (((bePairs (shake256 salted 8192)).filter (fun w => decide (w < 5 * falconQ))).map (fun w => w % falconQ)).take falconN

/-- Multiply by x modulo x^1024 + 1. -/
def mulX (a : List Int) : List Int := -(a.getLastD 0) :: a.dropLast

/-- The product of two polynomials modulo x^1024 + 1 and q. -/
def polyMul (s : List Int) (h : List Nat) : List Int :=
  s.foldr (fun c acc => List.zipWith (fun u v => (u + c * (v : Int)) % (falconQ : Int)) (mulX acc) h) (List.replicate falconN 0)

/-- The representative of a residue nearest to 0. -/
def centred (v : Int) : Int :=
  let r := v % (falconQ : Int)
  if (falconQ / 2 : Nat) < r then r - (falconQ : Int) else r

def sqNorm (l : List Int) : Nat := (l.map (fun v => v.natAbs * v.natAbs)).sum

/-- Does a signature, a header byte 0x3A, a salt of 40 bytes and compressed coefficients, verify under a key? -/
def falconVerify (key msg sig : List Byte) : Bool :=
  match falconKey key, falconSig (sig.drop 41) with
  | some h, some s2 =>
    let c := falconPoint ((sig.drop 1).take 40 ++ msg)
    let s1 := List.zipWith (fun (a : Nat) b => centred ((a : Int) - b)) c (polyMul s2 h)
    decide (42 ≤ sig.length) && sig.headD 0 == 0x3A && decide (c.length = falconN) && decide (sqNorm s1 + sqNorm s2 ≤ falconBound)
  | _, _ => false

end Sys2Proof.Machine
end

