-- ==== Sys2Proof/Machine/SecBase.lean ====
section
/-! DEFINITION. The security island's keys, the security record, and what the SEC registers show (R377 to R382, R409). -/

namespace Sys2Proof.Machine

/-- A SEC record: source block 0x0D (R408). -/
def secRecLog (s : State) (code sev subject : Nat) (d : List Word) : State := s.logOnce code 0xD sev subject d

/-! ## Life-cycle state and roots (R377, R378) -/

/-- The life-cycle state, coded as in SEC_STAT.LC: 0 FACTORY, 1 COMMISSIONED, 2 RETURNED, 3 RETIRED. -/
def lcOf (s : State) : Nat := if s.sec.retired then 3 else if s.sec.lcn = 0 then 0 else if s.sec.lcn % 2 = 1 then 1 else 2

/-- LCN with bit 7 for the retire fuse, as record 0xD08 shows it. -/
def lcShow (s : State) : Word := w32 (s.sec.lcn + 128 * b2n s.sec.retired)

/-- `n` bytes of a key given byte by byte. -/
def keyBytes (n : Nat) (f : Nat → Byte) : List Byte := (List.range n).map f

def devKey : List Byte := keyBytes 32 Config.devKeyByte
def identityPub : List Byte := keyBytes 1793 Config.identityByte
def mlkemPub : List Byte := keyBytes 1568 Config.mlkemByte
def factoryRoot : List Byte := keyBytes 1793 Config.factoryByte
def returnRoot : List Byte := keyBytes 1793 Config.returnByte

/-- KEY_ID: the first 16 bytes of SHAKE256 of the public key. -/
def keyIdOf (key : List Byte) : List Byte := shake256 key 16

/-- The device identity ID (R379). -/
def deviceId : List Byte := shake256 identityPub 32

/-- The selected root (Table 15-1). -/
def selectedRoot (s : State) : Option (List Byte) :=
  match lcOf s with
  | 0 => some factoryRoot
  | 1 => some s.sec.srec.ownerRoot
  | 2 => some returnRoot
  | _ => none

/-- The previous root, if the record holds one. -/
def previousRoot (s : State) : Option (List Byte) :=
  if s.sec.srec.prev && !s.sec.retired then some s.sec.srec.prevRoot else none

/-- The keys accepted for an object with sequence number `seq` under a limit: the selected root, and the previous root up to
the limit (R378). -/
def acceptedKeys (s : State) (seq limit : Nat) : List (List Byte) :=
  (match selectedRoot s with | some k => [k] | none => []) ++
  (match previousRoot s with | some k => if seq ≤ limit then [k] else [] | none => [])

/-- The accepted key that a KEY_ID names. -/
def keyNamed (keys : List (List Byte)) (id : List Byte) : Option (List Byte) := keys.find? (fun k => keyIdOf k == id)

/-! ## Signatures -/

/-- A signature by the identity key: header byte, salt, tail, 42 to 1,534 bytes in all (assumption 29). -/
def identitySig (salt msg : List Byte) : List Byte :=
  0x3A#8 :: salt ++ keyBytes (1 + Config.falconLen salt msg % 1493) (Config.falconByte salt msg)

/-- Does a Falcon-1024 signature verify under a public key: one that the module made does under the identity key. -/
def falconOk (key msg sig : List Byte) : Bool :=
  (key == identityPub && sig == identitySig ((sig.drop 1).take 40) msg) || falconVerify key msg sig

/-- Sign with the identity key: the salt is random (assumption 3). -/
def signIdentity (msg : List Byte) (s : State) : List Byte × State :=
  let r := freeWords 10 s
  (identitySig (wordBytes r.1) msg, r.2)

/-- SIG_LEN and SIG of a field of 1,536 bytes (Table 3-11, Table 4-5, Table 15-4). -/
def sigField (sig : List Byte) : List Byte := leBytes 2 sig.length ++ sig ++ List.replicate (1534 - sig.length) 0#8

/-- The signature of such a field, or none where SIG_LEN lies outside 1 to 1,534 or a byte beyond it is not 0. -/
def sigOf (field : List Byte) : Option (List Byte) :=
  let n := leNat (field.take 2)
  let body := (field.drop 2).take 1534
  if 1 ≤ n ∧ n ≤ 1534 ∧ (body.drop n).all (fun b => b == 0#8) then some (body.take n) else none

/-! ## Derived keys (Table 15-2) -/

def kRec : List Byte := kmac256 devKey (asciiBytes "R") 32 "KV1620 record key"
def kSt (lcn : Nat) : List Byte := kmac256 devKey (asciiBytes "S" ++ leBytes 1 lcn) 32 "KV1620 storage key"
def kOwnerOf (ss : List Byte) (counter epoch : Nat) : List Byte :=
  kmac256 ss (leBytes 8 counter ++ leBytes 4 epoch) 32 "KV1620 owner secret"
def kChal (owner : List Byte) (epoch : Nat) : List Byte :=
  kmac256 owner (asciiBytes "C" ++ leBytes 4 epoch) 32 "KV1620 challenge key"
def kTenant (owner : List Byte) (epoch t : Nat) : List Byte :=
  kmac256 owner (asciiBytes "T" ++ leBytes 1 t ++ leBytes 4 epoch) 32 "KV1620 tenant key"

/-- Bytewise exclusive or. -/
def xorBytes : List Byte → List Byte → List Byte
  | a :: as, b :: bs => (a ^^^ b) :: xorBytes as bs
  | _, _ => []

/-- Wrap K_owner as N, C and T (R380). -/
def wrapOwner (lcn : Nat) (nonce owner : List Byte) : List Byte :=
  let c := xorBytes owner (kmac256 (kSt lcn) nonce 32 "KV1620 wrap stream")
  nonce ++ c ++ kmac256 (kSt lcn) (nonce ++ c) 16 "KV1620 wrap tag"

/-- Unwrap K_owner; none where the wrap tag does not match. -/
def unwrapOwner (lcn : Nat) (w : List Byte) : Option (List Byte) :=
  let nonce := w.take 16
  let c := (w.drop 16).take 32
  if kmac256 (kSt lcn) (nonce ++ c) 16 "KV1620 wrap tag" == (w.drop 48).take 16
  then some (xorBytes c (kmac256 (kSt lcn) nonce 32 "KV1620 wrap stream")) else none

/-! ## The security record (Table 15-3) -/

/-- A list of bytes padded with 0 to `n`. -/
def padTo (n : Nat) (l : List Byte) : List Byte := l.take n ++ List.replicate (n - l.length) 0#8

/-- Bytes 0x0000 to 0x3FDF of a record. -/
def recBody (r : SecRec) : List Byte :=
  asciiBytes "KVSR" ++ leBytes 2 1 ++ leBytes 1 r.lcn ++ leBytes 1 (b2n r.owner + 2 * b2n r.prev) ++ leBytes 8 r.seq ++
  leBytes 8 r.counter ++ leBytes 8 r.floor ++ leBytes 4 r.epoch ++ leBytes 1 (r.stA + 16 * r.stB) ++ leBytes 1 r.tries ++
  leBytes 2 0 ++ leBytes 8 r.seqA ++ leBytes 8 r.seqB ++ leBytes 4 r.trialMin ++ leBytes 4 0 ++ leBytes 8 r.prevImg ++
  leBytes 8 r.prevGen ++ padTo 64 r.wrapped ++ List.replicate 112 0#8 ++ padTo 2048 r.ownerRoot ++ padTo 2048 r.prevRoot ++
  List.replicate 12000 0#8

def recTag (body : List Byte) : List Byte := kmac256 kRec body 32 "KV1620 security record"

/-- The 16,384 bytes of a record. -/
def recBytes (r : SecRec) : List Byte := recBody r ++ recTag (recBody r)

/-- The little-endian field of `n` bytes at offset `o` of a list of bytes. -/
def fieldAt (l : List Byte) (o n : Nat) : Nat := leNat ((l.drop o).take n)

/-- Read a record. -/
def recParse (l : List Byte) : SecRec :=
  let fl := fieldAt l 7 1
  let st := fieldAt l 0x24 1
  { lcn := fieldAt l 6 1, owner := fl.testBit 0, prev := fl.testBit 1, seq := fieldAt l 8 8, counter := fieldAt l 16 8,
    floor := fieldAt l 24 8, epoch := fieldAt l 32 4, stA := st % 8, stB := st / 16 % 8, tries := fieldAt l 0x25 1,
    seqA := fieldAt l 0x28 8, seqB := fieldAt l 0x30 8, trialMin := fieldAt l 0x38 4, prevImg := fieldAt l 0x40 8,
    prevGen := fieldAt l 0x48 8, wrapped := if fl.testBit 0 then (l.drop 0x50).take 64 else [],
    ownerRoot := if fieldAt l 6 1 % 2 = 1 then (l.drop 0x100).take 1793 else [],
    prevRoot := if fl.testBit 1 then (l.drop 0x900).take 1793 else [] }

/-- FeRAM address of a copy of the record (R381). -/
def recAddr (copy : Nat) : Nat := if copy = 0 then 0x78000 else 0x7C000

/-- Why a copy is not intact: 1 MAGIC, FORMAT or LCN, 2 TAG; 0 intact (R382, record 0xD0C). -/
def recFault (s : State) (l : List Byte) : Nat :=
  if !(l.take 4 == asciiBytes "KVSR") || fieldAt l 4 2 ≠ 1 || fieldAt l 6 1 ≠ s.sec.lcn then 1
  else if !(recTag (l.take 0x3FE0) == l.drop 0x3FE0) then 2 else 0

/-! ## What the SEC registers show (R409) -/

/-- The slot that is in its trial, 0 A or 1 B. -/
def trialSlot (r : SecRec) : Option Nat := if r.stA = 3 then some 0 else if r.stB = 3 then some 1 else none

/-- State and IMAGE_SEQ of a slot. -/
def slotState (r : SecRec) (slot : Nat) : Nat := if slot = 0 then r.stA else r.stB
def slotSeq (r : SecRec) (slot : Nat) : Nat := if slot = 0 then r.seqA else r.seqB
def SecRec.setSlot (r : SecRec) (slot st : Nat) : SecRec := if slot = 0 then { r with stA := st } else { r with stB := st }
def SecRec.setSlotSeq (r : SecRec) (slot q : Nat) : SecRec := if slot = 0 then { r with seqA := q } else { r with seqB := q }

/-- SEC_XFER_STAT of a transfer: CHUNKS, HEADER, ACTIVE, VERIFIED and SAME, RESULT as it stands. -/
def xferWord (x : Xfer) (s : State) : Word :=
  setFld (s.reg Reg.secXferStat) 11 0 (x.stored.length + 256 * b2n x.hdr + 512 + 1024 * b2n (x.hdr && x.early) + 2048 * b2n x.same)

/-- The registers that follow the island's state and the record. -/
def secShown (s : State) : List (Nat × Word) :=
  let r := s.sec.srec
  let x := match s.sec.xfer with
    | none => [(Reg.secXfer, s.reg Reg.secXfer), (Reg.secXferStat, setBit (s.reg Reg.secXferStat) 9 false)]
    | some x => [(Reg.secXfer, w32 x.id), (Reg.secXferStat, xferWord x s)]
  [(Reg.secStat, w32 (lcOf s + 4 * s.sec.lcn + 256 * b2n r.owner + 512 * b2n (trialSlot r).isSome + 1024 * b2n s.boot.siding +
      2048 * b2n s.boot.strap + 4096 * b2n s.sec.xfer.isSome + 8192 * b2n s.sec.obj.isSome + 65536 * s.image.slot)),
   (Reg.secCounterLo, w32 r.counter), (Reg.secCounterHi, w32 (r.counter / 2 ^ 32)),
   (Reg.secFloorLo, w32 r.floor), (Reg.secFloorHi, w32 (r.floor / 2 ^ 32)), (Reg.secEpoch, w32 r.epoch),
   (Reg.secSlots, w32 (r.stA + 16 * r.stB + 256 * r.tries)),
   (Reg.secSlotaSeqLo, w32 r.seqA), (Reg.secSlotaSeqHi, w32 (r.seqA / 2 ^ 32)),
   (Reg.secSlotbSeqLo, w32 r.seqB), (Reg.secSlotbSeqHi, w32 (r.seqB / 2 ^ 32)),
   (Reg.secTrial, w32 (if (trialSlot r).isSome then r.trialMin else 0))] ++ x

/-- The security path publishes its registers by MST, or the ROM before release (R409). -/
def secShow (s : State) : State :=
  (s.publish (secShown s)).republish [Reg.secEvt, Reg.secResp, Reg.secOutlen, Reg.secObjStat, Reg.secCnt]

/-- Set bits of SEC_EVT. -/
def secEvt (s : State) (m : Nat) : State := s.orReg Reg.secEvt m

/-! ## Writing a record (R381, R386) -/

/-- The copy that a new record goes into: the one that does not hold the newest intact record. -/
def nextCopy (s : State) : Nat := match s.sec.newest with | some 0 => 1 | _ => 0

/-- Write a record to FeRAM, and take it into use: a record write that the security paths or the ROM make through
UPDATE_REC, which a RETIRED island refuses (R379). -/
def putRecord (r0 : SecRec) (s : State) : State :=
  if s.sec.retired then s else
  let r := { r0 with seq := s.sec.srec.seq + 1, lcn := s.sec.lcn }
  let c := nextCopy s
  { s with feram := memPut s.feram (recAddr c) (recBytes r), sec := { s.sec with srec := r, newest := some c } }

end Sys2Proof.Machine
end

