-- ==== Sys2Proof/Machine/Pairs.lean ====
section
/-! DEFINITION. The pairings of every block, checked at a commit and at a start (R125, R126, Tables 7-8, 8-5, 10-19, 11-11, 12-7,
13-6, R150, R374, R407, R424, Table 2-12). -/

namespace Sys2Proof.Machine

/-! ## Hamper, DIO and AIO -/

/-- PWR ranges (R147, R150). -/
def pwrPairs (v : CfgView) : List PairRow :=
  [pr 4 [Reg.pwrDaily] (decide (fld (v Reg.pwrDaily) 16 0 ≤ 86399)),
   pr 4 [Reg.pwrStagger] (decide (fld (v Reg.pwrStagger) 12 0 ≤ 8000))] ++
  (List.range 6).map (fun g => pr 4 [Reg.pwrAgCfg0 g] (decide (1 ≤ fld (v (Reg.pwrAgCfg0 g)) 15 0)))

/-- A start declaration against its group's figures (Table 7-8, Table 8-5). -/
def declPair (v : CfgView) (g a0 a1 : Nat) : PairRow :=
  let q := fld (v a0) 15 0
  let ipk := fld (v a0) 31 16
  pr 2 [Reg.pwrAgCfg0 g, Reg.pwrAgCfg1 g, a0, a1]
    (decide (q ≤ fld (v (Reg.pwrAgCfg0 g)) 31 16) && decide (ipk ≤ fld (v (Reg.pwrAgCfg1 g)) 15 0) &&
     (decide (ipk ≠ 0) || decide (q = 0)))

/-- DIO pairings (Table 7-8). -/
def dioPairs (v : CfgView) : List PairRow :=
  (List.range 4).flatMap (fun g => (List.range 8).flatMap (fun k =>
    let m := fld (v (Reg.dioDiCmode g)) (2 * k + 1) (2 * k)
    [pr 4 [Reg.dioDiCmode g] (decide (m ≠ 3)), pr 1 [Reg.dioDiCmode g] (decide (m ≠ 2) || !(bit (v (Reg.dioDiCmode g)) (16 + k)))])) ++
  (List.range 2).flatMap (fun h => (List.range 16).map (fun c => declPair v h (Reg.dioDoStart0 h c) (Reg.dioDoStart1 h c)))

/-- AIO pairings (Table 8-5). -/
def aioPairs (v : CfgView) : List PairRow :=
  (List.range 4).flatMap (fun a =>
    [pr 4 [Reg.aioAgDiag a] (decide (1 ≤ fld (v (Reg.aioAgDiag a)) 15 0))] ++
    (List.range 4).flatMap (fun c =>
      let cfg := v (Reg.aioAgChCfg a c)
      let alm := v (Reg.aioAgChAlarm a c)
      let st := v (Reg.aioAgChStart0 a c)
      [pr 4 [Reg.aioAgChCfg a c] (decide (fld cfg 6 4 ≤ 4)),
       pr 4 [Reg.aioAgChAlarm a c] (decide (fld alm 15 0 ≤ 9830) && decide (57344 ≤ fld alm 31 16)),
       pr 1 [Reg.aioAgChCfg a c] (!(bit cfg 1) || bit cfg 0),
       pr 1 [Reg.aioAgChCfg a c, Reg.aioAgChStart0 a c] (!(bit cfg 0) || st == 0#32),
       declPair v (2 + a) (Reg.aioAgChStart0 a c) (Reg.aioAgChStart1 a c)]))

/-! ## Fabric -/

/-- The class of slot `i` in a link's map (R264, Table 10-22). -/
def slotClass (v : CfgView) (l i : Nat) : Nat := fld (v (Reg.fabLkSlotmap l (i / 12))) (2 * (i % 12) + 1) (2 * (i % 12))

/-- The slots of a minor cycle: 12, 24, 48 or 96 (R263). -/
def slotCount (s : State) : Nat := 12 * 2 ^ s.minorSel

/-- FAB pairings (Table 10-19). -/
def fabPairs (start : Bool) (v : CfgView) (s : State) : List PairRow :=
  let own := fld (v Reg.fabPos) 15 0
  let en (l : Nat) : Bool := bit (v (Reg.fabLkCfg l)) 0
  let n := slotCount s
  let tp := v Reg.fabTparent
  let pc := v Reg.fabParcelCfg
  [pr 4 [Reg.fabTimeCfg] (decide (fld (v Reg.fabTimeCfg) 2 0 ≤ 6)), pr 4 [Reg.fabPos] (decide (own ≠ 0xFFFF))] ++
  (List.range 8).map (fun l =>
    let a := fld (v (Reg.fabLkNbr l)) 15 0
    pr 4 [Reg.fabPos, Reg.fabLkCfg l, Reg.fabLkNbr l] (!(en l) || (decide (a ≠ 0xFFFF) && decide (a ≠ own)))) ++
  (List.range 8).flatMap (fun l =>
    let maps := (List.range 8).map (Reg.fabLkSlotmap l)
    let cls := (List.range n).map (slotClass v l)
    [pr 1 maps ((List.range (96 - n)).all (fun i => decide (slotClass v l (n + i) = 0))),
     pr 1 (Reg.fabLkCfg l :: maps) (!(en l) || (cls.count 2 == 1 && decide (1 ≤ cls.count 3)))]) ++
  [pr 1 (Reg.fabTparent :: (if bit tp 3 then [Reg.fabLkCfg (fld tp 2 0)] else []) ++ (if bit tp 7 then [Reg.fabLkCfg (fld tp 6 4)] else []))
     ((!(bit tp 3) || en (fld tp 2 0)) && (!(bit tp 7) || en (fld tp 6 4))),
   pr 1 [Reg.fabParcelCfg] (!(bit pc 3) || !(bit pc (8 + fld pc 2 0)))] ++
  (if start then [] else
    ([Reg.fabPos, Reg.fabTparent] ++ (List.range 8).map Reg.fabLkNbr).map (fun a => pr 5 [a] (v a == s.reg a)))

/-! ## CAN and MAC -/

/-- A queue of at least `n` words whose producer is a unit of the local-bus island. -/
def rxQueueOk (s : State) (unit n : Nat) : Bool :=
  match qOfProd s (epIsland 10 unit) with | some q => decide (n ≤ qSize s q) | none => false

/-- No queue for a transmit unit, or one of at least `n` words. -/
def txQueueOk (s : State) (unit n : Nat) : Bool :=
  match qOfCons s (epIsland 10 unit) with | some q => decide (n ≤ qSize s q) | none => true

/-- The counter queue: unit 48, consumed by the engine, at least 34 words. -/
def statQueueOk (s : State) : Bool :=
  match qOfProd s (epIsland 10 48) with | some q => decide (qCons s q = epEngine) && decide (34 ≤ qSize s q) | none => false

/-- Bit timing as quantities: BRP, TSEG1, TSEG2, SJW of the nominal and the data phase (R298). -/
def canNom (w : Word) : Nat × Nat × Nat × Nat := (fld w 8 0 + 1, fld w 23 16 + 1, fld w 15 9 + 1, fld w 30 24 + 1)
def canDat (w : Word) : Nat × Nat × Nat × Nat := (fld w 4 0 + 1, fld w 20 16 + 1, fld w 11 8 + 1, fld w 27 24 + 1)
def bitQuanta (t : Nat × Nat × Nat × Nat) : Nat := 1 + t.2.1 + t.2.2.1
def bitMtq (t : Nat × Nat × Nat × Nat) : Nat := t.1 * bitQuanta t
def sjwOk (t : Nat × Nat × Nat × Nat) : Bool := decide (t.2.2.2 ≤ t.2.1) && decide (t.2.2.2 ≤ t.2.2.1)

/-- CAN pairings of the channels with EN = 1 (Table 11-11). -/
def canPairs (v : CfgView) (s : State) : List PairRow :=
  (List.range 12).flatMap (fun c =>
    let ctl := v (Reg.canChCtrl c)
    if !(bit ctl 0) then [] else
    let nb := canNom (v (Reg.canChNbt c))
    let db := canDat (v (Reg.canChDbt c))
    let tdc := bit (v (Reg.canChTdc c)) 16
    [pr 4 [Reg.canChCtrl c, Reg.canChNbt c] (decide (80 ≤ bitMtq nb) && decide (bitMtq nb ≤ 8000) && decide (8 ≤ bitQuanta nb)),
     pr 4 [Reg.canChCtrl c, Reg.canChDbt c] (decide (10 ≤ bitMtq db) && decide (5 ≤ bitQuanta db))] ++
    (List.range 48).map (fun b => pr 4 [Reg.canChCtrl c, Reg.canChMbId c b] (decide (fld (v (Reg.canChMbId c b)) 31 30 ≠ 3))) ++
    [pr 1 [Reg.canChCtrl c, Reg.canChNbt c] (sjwOk nb), pr 1 [Reg.canChCtrl c, Reg.canChDbt c] (sjwOk db),
     pr 1 [Reg.canChCtrl c, Reg.canChNbt c, Reg.canChDbt c] (decide (bitMtq db ≤ bitMtq nb)),
     pr 1 [Reg.canChCtrl c, Reg.canChDbt c, Reg.canChTdc c] (!tdc || (bit ctl 1 && decide (db.1 ≤ 2))),
     pr 1 [Reg.canChCtrl c] (!(bit ctl 2 && bit ctl 3)),
     pr 3 [Reg.canChCtrl c] (rxQueueOk s c 19 && txQueueOk s (12 + c) 19 && statQueueOk s)])

/-- MAC pairings of the ports with EN = 1 (Table 11-11). -/
def macPairs (v : CfgView) (s : State) : List PairRow :=
  (List.range 12).flatMap (fun p =>
    let ctl := v (Reg.macPCtrl p)
    if !(bit ctl 0) then [] else
    let lo := v (Reg.macPAddrLo p)
    let hi := v (Reg.macPAddrHi p)
    [pr 4 [Reg.macPCtrl p, Reg.macPAddrLo p, Reg.macPAddrHi p] (!(lo == 0#32 && fld hi 15 0 == 0) && !(bit lo 0)),
     pr 4 [Reg.macPCtrl p] (!(bit ctl 2) || decide (1 ≤ fld ctl 31 16)),
     pr 1 [Reg.macPCtrl p] (!(bit ctl 2 || bit ctl 3) || bit ctl 1), pr 1 [Reg.macPCtrl p] (!(bit ctl 4) || !(bit ctl 1)),
     pr 3 [Reg.macPCtrl p] (rxQueueOk s (24 + p) 382 && txQueueOk s (36 + p) 382 && statQueueOk s)])

/-! ## Pair, display, clock, security, log, timetable engine -/

/-- The island safe values that a pair member needs (R326). -/
def pairSafeRegs : List Nat :=
  [Reg.dioDoSafe 0, Reg.dioDoSafe 1] ++ (List.range 4).flatMap (fun a => (List.range 4).map (Reg.aioAgChCfg a))

def pairSafeOk (v : CfgView) : Bool :=
  v (Reg.dioDoSafe 0) == 0#32 && v (Reg.dioDoSafe 1) == 0#32 &&
  (List.range 4).all (fun a => (List.range 4).all (fun c =>
    bit (v (Reg.aioAgChCfg a c)) 0 || decide (fld (v (Reg.aioAgChCfg a c)) 6 4 = 0)))

/-- An address with MEMBER, bit 0, inverted (R34). -/
def partnerOf (a : Nat) : Nat := if a % 2 = 0 then a + 1 else a - 1

/-- PAR pairings (Table 12-7). -/
def parPairs (start : Bool) (v : CfgView) (s : State) : List PairRow :=
  let cfg := v Reg.parCfg
  let en := bit cfg 0
  let sb := fld (v Reg.parSb) 15 0
  let own := s.rf Reg.fabPos 15 0
  [pr 4 [Reg.parCfg] (!(en || bit cfg 1) || (decide (0x80 ≤ fld cfg 15 8) && decide (fld cfg 15 8 ≤ 0xBF))),
   pr 4 [Reg.parTiming] (decide (100 ≤ fld (v Reg.parTiming) 15 0))] ++
  (List.range 16).map (fun k => pr 4 [Reg.parSbPair k] (!(bit (v (Reg.parSbPair k)) 0))) ++
  [pr 1 [Reg.parCfg, Reg.parSb] (!en || decide (sb ≠ 0xFFFF)),
   pr 2 [Reg.parCfg, Reg.parSb] (!en || (decide (sb ≠ own) && decide (sb ≠ partnerOf own))),
   pr 2 (Reg.parCfg :: pairSafeRegs) (!en || pairSafeOk v)] ++
  (if start then [] else
    ([Reg.parCfg, Reg.parSb] ++ (List.range 16).map Reg.parSbPair).map (fun a => pr 5 [a] (v a == s.reg a)))

/-- LCD pairings (Table 13-6). -/
def lcdPairs (v : CfgView) (s : State) : List PairRow :=
  (List.range 4).flatMap (fun p =>
    let cfg := v (Reg.lcdPCfg p)
    let ntc := v (Reg.lcdPNtc p)
    let fs := v (Reg.lcdPFseg p)
    let nb := fld ntc 26 24 + 1
    let tlo (b : Nat) : Int := sxt 8 (fld (v (Reg.lcdPBand p b)) 7 0)
    [pr 4 [Reg.lcdPCfg p] (decide (100 ≤ fld cfg 25 16) && decide (fld cfg 25 16 ≤ 750)),
     pr 4 [Reg.lcdPCfg p] (decide (1 ≤ fld cfg 15 8) && decide (fld cfg 15 8 ≤ 160))] ++
    (List.range nb).map (fun b => pr 4 [Reg.lcdPNtc p, Reg.lcdPBand p b]
      (decide (300 ≤ fld (v (Reg.lcdPBand p b)) 26 16) && decide (fld (v (Reg.lcdPBand p b)) 26 16 ≤ 1600))) ++
    [pr 4 [Reg.lcdPNtc p] (decide (1000 ≤ fld ntc 12 0) && decide (fld ntc 12 0 ≤ 8191)),
     pr 1 [Reg.lcdPCfg p, Reg.lcdPFseg p] (decide (fld fs 2 0 < fld cfg 4 2 + 1) && decide (fld fs 15 8 < fld cfg 15 8))] ++
    ((List.range (nb - 2)).map (fun i => i + 1)).map (fun b =>
      pr 1 [Reg.lcdPNtc p, Reg.lcdPBand p b, Reg.lcdPBand p (b + 1)] (decide (tlo b + 4 ≤ tlo (b + 1))))) ++
  [let cfg := v Reg.lcdCfg
   let q := fld cfg 5 0
   pr 3 [Reg.lcdCfg] (!(bit cfg 8) ||
     (decide (41 ≤ qSize s q) && decide (qCons s q = epEngine) && (decide (qProd s q = epHost) || decide (qProd s q = epEngine))))]

/-- RTC pairings (R374). -/
def rtcPairs (v : CfgView) : List PairRow :=
  let chg := v Reg.rtcChg
  let trim := v Reg.rtcTrim
  let disc := v Reg.rtcDisc
  [pr 4 [Reg.rtcChg] (decide (fld chg 2 1 ≤ 2) && decide (fld chg 4 3 ≤ 2)),
   pr 4 [Reg.rtcTrim] (!(bit trim 17) || decide (2500 ≤ fld trim 15 0)),
   pr 4 [Reg.rtcDisc, Reg.rtcChg] (!(bit disc 0) || (decide (50 ≤ fld chg 31 16) && decide (1 ≤ fld disc 31 16)))]

/-- SEC pairings (R407). -/
def secPairs (v : CfgView) (s : State) : List PairRow :=
  [pr 5 [Reg.secUpdCfg] (s.sec.xfer.isNone || bit (v Reg.secUpdCfg) 0 == s.rb Reg.secUpdCfg 0)]

/-- TTE pairings (Table 2-12). -/
def ttePairs (v : CfgView) (s : State) : List PairRow :=
  let c := v Reg.tteCtrl
  let q := fld c 13 8
  [pr 3 [Reg.tteCtrl] (!(bit c 1) || (decide (qSize s q ≠ 0) && decide (qProd s q = epEngine)))]

/-! ## All of them -/

/-- The reserved bits of every shadow that differs from its reset value (R4, R125): reason 0x04 within its block. -/
def reservedPairs (s : State) : List PairRow :=
  (skeys s.shadows).map (fun a => pr 4 [a] ((s.shadow a &&& regRsv a) == 0#32))

/-- Every pairing of every block, for a commit or for a start. -/
def allPairs (start : Bool) (v : CfgView) (s : State) : List PairRow :=
  reservedPairs s ++ ttePairs v s ++ pwrPairs v ++ mtrPairs start v s ++ dioPairs v ++ aioPairs v ++ ctlPairs v s ++
  fabPairs start v s ++ canPairs v s ++ macPairs v s ++ parPairs start v s ++ lcdPairs v s ++ rtcPairs v ++
  (if start then [] else secPairs v s)

end Sys2Proof.Machine
end

