-- ==== Sys2Proof/Machine/Commit.lean ====
section
/-! DEFINITION. The run-time commit: requests and the service of the pending blocks (R4, R124 to R128). -/

namespace Sys2Proof.Machine

/-- The access code of an active address. -/
def accOf (a : Nat) : Option Access := (regRow? a).map (fun r => r.acc)

/-- Is the address that of an SH register? -/
def isSh (a : Nat) : Bool := accOf a == some .sh

/-- The view of a commit: shadows of pending blocks, active values of all others (R125). -/
def commitView (s : State) (pend : Nat) : CfgView :=
  fun a => if pend.testBit (a / 0x10000) && isSh a then s.shadow a else s.reg a

/-- The registers of a list that lie in a block. -/
def inBlock (b : Nat) (l : List Nat) : List Nat := l.filter (fun a => decide (a / 0x10000 = b))

/-- The failing pairings that involve a pending block. -/
def failingPairs (s : State) (pend : Nat) : List PairRow :=
  (allPairs false (commitView s pend) s).filter (fun r => !r.ok && r.regs.any (fun a => pend.testBit (a / 0x10000)))

/-- Apply every shadow of a block at once: the SH registers of which either copy is not at reset. -/
def applyShadows (s : State) (b : Nat) : State :=
  (((inBlock b (skeys s.shadows ++ skeys s.regs)).filter isSh).dedup).foldl (fun t a => t.setReg a (s.shadow a)) s

/-- SYS_CRESn of the window being served. -/
def cresWord (s : State) (reason offset : Nat) : Word :=
  w32 (reason + (offset % 0x10000) * 2 ^ 8 + (s.reg Reg.sysCommitSeq).toNat % 256 * 2 ^ 24)

/-- Serve one pending block: refuse it when it holds a field of a failing pairing, else apply it (R125). -/
def serveBlock (fails : List PairRow) (s : State) (b : Nat) : State :=
  match fails.find? (fun r => r.regs.any (fun a => decide (a / 0x10000 = b))) with
  | some r =>
    let off := (inBlock b r.regs).foldl min 0xFFFFF
    let s1 := (s.setReg (Reg.sysCres b) (cresWord s r.reason off)).orReg Reg.sysCommitFail (2 ^ b)
    s1.append 0x004 0 8 [w32 b, s1.reg (Reg.sysCres b)]
  | none => ((applyShadows s b).setReg (Reg.sysCres b) (cresWord s 0 0)).orReg Reg.sysCommitDone (2 ^ b)

/-- The commit of a boundary window: every pending block is served, and SYS_COMMIT_PEND clears (R125). -/
def commitWindow (s : State) : State :=
  let pend := s.rf Reg.sysCommitPend 15 0
  if pend = 0 then s else
  let s1 := s.addReg Reg.sysCommitSeq 1
  ((bitsOf 16 pend).foldl (serveBlock (failingPairs s1 pend)) s1).setReg Reg.sysCommitPend 0#32

/-- The blocks that a window applied. -/
def appliedBlocks (before s : State) : List Nat :=
  (bitsOf 16 (before.rf Reg.sysCommitPend 15 0)).filter (fun b => decide (s.rf (Reg.sysCres b) 7 0 = 0))

/-- A request reaches SYS_COMMIT: it is discarded until release (R111), and combines by OR (R124). -/
def commitRequest (w : Word) (s : State) : State :=
  if s.eng.released then s.orReg Reg.sysCommitPend (fld w 15 0) else s

end Sys2Proof.Machine
end

