-- ==== Sys2Proof/Machine/Store.lean ====
section
/-! DEFINITION. The configuration store: image headers, the section directory and generation headers (R94 to R96, R112, R113). -/

namespace Sys2Proof.Machine

/-! ## Places in the store (Table 4-4, Table 15-12) -/

def slotBase (slot : Nat) : Nat := if slot = 0 then 0 else 0x1000000
def genBase (g : Nat) : Nat := if g = 0 then 0x2000000 else 0x2400000
def objBase : Nat := 0x2800000
def buildBase : Nat := 0x3000000
def descBase : Nat := 0x3400000

/-- The image header of a slot, 8,192 bytes. -/
def slotHeader (s : State) (slot : Nat) : List Byte := memBytes s.store (slotBase slot) 8192

/-- The header of a generation at a base, 4,096 bytes. -/
def genHeaderAt (s : State) (base : Nat) : List Byte := memBytes s.store base 4096

/-- A signature field of 1,536 bytes is right for some key of a list: key, signed bytes. -/
def sigRight (key : List Byte) (msg field : List Byte) : Bool :=
  match sigOf field with | some sig => falconOk key msg sig | none => false

/-! ## Image header (Table 3-11) -/

def hBodyLen (h : List Byte) : Nat := fieldAt h 0x0C 4
def hSeq (h : List Byte) : Nat := fieldAt h 0x10 8
def hChunks (h : List Byte) : Nat := fieldAt h 0x18 2
def hSections (h : List Byte) : Nat := fieldAt h 0x1A 1
def hMinor (h : List Byte) : Nat := fieldAt h 0x1B 1
def hKeyId (h : List Byte) : List Byte := (h.drop 0x20).take 16

/-- Are `n` bytes from offset `o` all 0? -/
def zerosAt (l : List Byte) (o n : Nat) : Bool := ((l.drop o).take n).all (fun b => b == 0#8)

/-- The first pair of a list whose condition fails, as its value. -/
def firstFail {α : Type} : List (Bool × α) → Option α
  | [] => none
  | (ok, v) :: r => if ok then firstFail r else some v

/-- A check of Table 3-15 or Table 4-7: its code, and the detail where it fails. -/
abbrev Check := Nat × Option Nat

/-- The first failing check: code and detail. -/
def firstRefusal : List Check → Option (Nat × Nat)
  | [] => none
  | (c, some d) :: _ => some (c, d)
  | (_, none) :: r => firstRefusal r

/-- Checks 0x01 to 0x04 of a header (Table 3-15). -/
def headerChecks (h : List Byte) : List Check :=
  let len := hBodyLen h
  [(1, if h.take 4 == asciiBytes "KVIM" && fieldAt h 4 2 = 1 then none else some 0),
   (2, if fieldAt h 8 4 = 0x1620 then none else some 0),
   (3, if fieldAt h 6 2 = 1 then none else some (fieldAt h 6 2)),
   (4, firstFail ([(decide (1 ≤ len ∧ len ≤ 12574720), 0x0C), (decide (hChunks h = (len + 65535) / 65536), 0x18),
      (decide (1 ≤ hSections h ∧ hSections h ≤ 24), 0x1A), (decide (hMinor h ≤ 3), 0x1B), (zerosAt h 0x1C 4, 0x1C),
      (zerosAt h 0x46 58, 0x46)] ++
      (List.range 192).map (fun i => (decide (i < hChunks h) || zerosAt h (0x200 + 32 * i) 32, 0x200 + 32 * i))))]

/-- Checks 0x05 and 0x06 of a header against a list of keys. -/
def signatureChecks (keys : List (List Byte)) (h : List Byte) : List Check :=
  match keyNamed keys (hKeyId h) with
  | none => [(5, some 0)]
  | some k => [(5, none), (6, if sigRight k (h.take 0x1A00) (h.drop 0x1A00) then none else some 0)]

/-- The length of chunk `i`. -/
def chunkLen (h : List Byte) (i : Nat) : Nat := min 65536 (hBodyLen h - 65536 * i)

/-- The hash of a chunk (R95). -/
def chunkHash (i : Nat) (bytes : List Byte) : List Byte := shake256 (leBytes 4 i ++ bytes) 32

/-- The hash that a header gives for chunk `i`. -/
def hHash (h : List Byte) (i : Nat) : List Byte := (h.drop (0x200 + 32 * i)).take 32

/-- The stored bytes of chunk `i` of a slot. -/
def slotChunk (s : State) (slot : Nat) (h : List Byte) (i : Nat) : List Byte :=
  memBytes s.store (slotBase slot + 0x2000 + 0x10000 * i) (chunkLen h i)

/-- Check 0x07 of a stored image. -/
def hashCheck (s : State) (slot : Nat) (h : List Byte) : Check :=
  (7, (List.range (hChunks h)).find? (fun i => !(chunkHash i (slotChunk s slot h i) == hHash h i)))

/-! ## Sections (Table 3-12, Table 3-13) -/

/-- A directory entry. -/
structure DirEntry where
  type : Nat
  version : Nat
  offset : Nat
  length : Nat
  rsv : Nat
  deriving DecidableEq, Repr

def dirEntry (h : List Byte) (i : Nat) : DirEntry :=
  let o := 0x80 + 16 * i
  { type := fieldAt h o 2, version := fieldAt h (o + 2) 2, offset := fieldAt h (o + 4) 4, length := fieldAt h (o + 8) 4,
    rsv := fieldAt h (o + 12) 4 }

/-- The entries in use. -/
def dirEntries (h : List Byte) : List DirEntry := (List.range (hSections h)).map (dirEntry h)

/-- Is the type one of the table's, 0x0001 to 0x000A, or informational? -/
def contractType (t : Nat) : Bool := decide (1 ≤ t ∧ t ≤ 10)
def infoType (t : Nat) : Bool := decide (0x100 ≤ t ∧ t ≤ 0x1FF)

/-- Is entry `i` well placed among the entries before it (R96)? -/
def dirOk (h : List Byte) (i : Nat) : Bool :=
  let e := dirEntry h i
  if i < hSections h then
    (contractType e.type || infoType e.type) && decide (e.rsv = 0) && decide (e.offset % 16 = 0) &&
    decide (e.offset + e.length ≤ hBodyLen h) &&
    (List.range i).all (fun j =>
      let f := dirEntry h j
      decide (f.type ≠ e.type) && (decide (e.offset + e.length ≤ f.offset) || decide (f.offset + f.length ≤ e.offset)))
  else zerosAt h (0x80 + 16 * i) 16

/-- The types that an image must hold. -/
def requiredTypes : List Nat := [1, 2, 4, 5, 6, 7, 10]

/-- Check 0x08. -/
def dirCheck (h : List Byte) : Check :=
  (8, match (List.range 24).find? (fun i => !(dirOk h i)) with
    | some i => some i
    | none => (requiredTypes.find? (fun t => !((dirEntries h).any (fun e => e.type == t)))).map (fun t => 0x8000 + t))

/-- The length rule of a section type (Table 3-13). -/
def lengthOk (t len : Nat) : Bool :=
  match t with
  | 1 => decide (len = 65536)
  | 2 => decide (len % 16 = 0 ∧ len ≤ 917504)
  | 3 => decide (len % 4 = 0 ∧ len ≤ 2097152)
  | 4 => decide (len = 1024)
  | 7 => decide (len % 16 = 0 ∧ 16 ≤ len)
  | 8 => decide (len % 8 = 0)
  | 9 => decide (len = 32)
  | _ => decide (len % 16 = 0)

/-- Check 0x09: informational sections are exempt. -/
def lengthCheck (h : List Byte) : Check :=
  (9, ((dirEntries h).find? (fun e => contractType e.type && !(lengthOk e.type e.length && decide (e.version = 1)))).map
    (fun e => e.type))

/-- A section of a stored image: store address and length; length 0 where absent. -/
def section_ (slot : Nat) (h : List Byte) (t : Nat) : Nat × Nat :=
  match (dirEntries h).find? (fun e => e.type == t) with
  | some e => (slotBase slot + 0x2000 + e.offset, e.length)
  | none => (0, 0)

/-- The entries of `size` bytes of a section, from 0. -/
def sectionEntries (s : State) (slot : Nat) (h : List Byte) (t size : Nat) : List (List Byte) :=
  let r := section_ slot h t
  (List.range (r.2 / size)).map (fun i => memBytes s.store (r.1 + size * i) size)

/-! ## Generation header (Table 4-5) -/

def gSigner (g : List Byte) : Nat := fieldAt g 6 1
def gSeq (g : List Byte) : Nat := fieldAt g 8 8
def gFor (g : List Byte) : Nat := fieldAt g 0x10 8
def gBodyLen (g : List Byte) : Nat := fieldAt g 0x18 4
def gRecords (g : List Byte) : Nat := fieldAt g 0x1C 4
def gKeyId (g : List Byte) : List Byte := (g.drop 0x20).take 16

/-- The body of a generation at a base. -/
def genBody (s : State) (base : Nat) : List Byte := memBytes s.store (base + 4096) (gBodyLen (genHeaderAt s base))

/-- The fields of a header that no key decides, and the hash of its body (R113). -/
def genFieldsOk (g body : List Byte) : Bool :=
  g.take 4 == asciiBytes "KVCG" && decide (fieldAt g 4 2 = 1) && decide (gSigner g ≤ 1) && decide (fieldAt g 7 1 = 0) &&
  decide (1 ≤ gSeq g) && decide (gBodyLen g % 16 = 0) && decide (gBodyLen g ≤ 4190208) && zerosAt g 0x70 1424 &&
  zerosAt g 0xC00 1024 && (sigOf ((g.drop 0x600).take 1536)).isSome && ((g.drop 0x30).take 64 == shake256 body 64)

/-- Every public key that a module can name: the keys of R378 and its own identity key. -/
def knownKeys (s : State) : List (List Byte) :=
  (match selectedRoot s with | some k => [k] | none => []) ++ (match previousRoot s with | some k => [k] | none => []) ++
  [identityPub, factoryRoot, returnRoot]

/-- The key check of a header against the life-cycle state (R113, R378). -/
def genKey (s : State) (g : List Byte) : Option (List Byte) :=
  if gSigner g = 1 then (if !s.sec.retired then keyNamed [identityPub] (gKeyId g) else none)
  else keyNamed (acceptedKeys s (gSeq g) s.sec.srec.prevGen) (gKeyId g)

/-- The standing of a generation (R114). -/
inductive GenState where
  | valid | badKey | invalid
  deriving DecidableEq, Repr

/-- Judge a generation at a base of the store: SIGNER = 1 needs FOR_IMAGE_SEQ not 0, and that is no key check (R113, R114). -/
def genState (s : State) (base : Nat) : GenState :=
  let g := genHeaderAt s base
  if !(genFieldsOk g (genBody s base)) || (gSigner g == 1 && gFor g == 0) then .invalid
  else
    let signed (k : List Byte) : Bool := sigRight k (g.take 0x600) ((g.drop 0x600).take 1536)
    match genKey s g with
    | some k => if signed k then .valid else .invalid
    | none =>
      match keyNamed (knownKeys s) (gKeyId g) with
      | some k => if signed k then .badKey else .invalid
      | none => .badKey

end Sys2Proof.Machine
end

