-- ==== Sys2Proof/Machine/ImageRules.lean ====
section
/-! DEFINITION. The load-time rules on queues, the path table, consists, paths and plans (R24, R41 to R60, R74, R83 to R97). -/

namespace Sys2Proof.Machine

/-- What the checks read of an image: consist area and path table in place, consists in CODE, plans. -/
structure Img where
  minor : Nat
  code : List Host.Cell
  top : Nat
  queues : List (List Byte)
  samples : List (List Byte)
  crossings : List (List Byte)
  mirror : List (List Byte)
  errTasks : List (List Byte)
  deriving DecidableEq, Repr

/-- C and N of an image (R54, R55). -/
def Img.cyc (g : Img) : Nat := 10000 * 2 ^ g.minor
def Img.nMin (g : Img) : Nat := 40000 / 2 ^ g.minor

/-- Entry `p` of its path table. -/
def Img.path (g : Img) (p : Nat) : PEntry := ptabEntry g.code false p

/-- Code SRAM as it is loaded from a slot: consists from 0, both path-table copies (Table 3-13). -/
def loadCode (s : State) (slot : Nat) (h : List Byte) : List Host.Cell :=
  let c := section_ slot h 2
  let p := section_ slot h 1
  memCopy s.store p.1 p.2 (memCopy s.store p.1 p.2 (memCopy s.store c.1 c.2 [] 0) 0xE0000) 0xF0000

/-- The image of a slot. -/
def imgOf (s : State) (slot : Nat) : Img :=
  let h := slotHeader s slot
  { minor := hMinor h, code := loadCode s slot h, top := (section_ slot h 2).2 / 16,
    queues := sectionEntries s slot h 4 16, samples := sectionEntries s slot h 6 16,
    crossings := sectionEntries s slot h 5 16, mirror := sectionEntries s slot h 7 16,
    errTasks := sectionEntries s slot h 8 8 }

/-- The first index of `0, …, n - 1` that fails a test. -/
def firstBad (n : Nat) (ok : Nat → Bool) : Option Nat := (List.range n).find? (fun i => !(ok i))

/-! ## Queue descriptors (R24, R97, Table 3-14) -/

/-- The units an island lists for queues: as producer, and as consumer. -/
def unitProduces (island u : Nat) : Bool :=
  if 1 ≤ island ∧ island ≤ 8 then decide (u ≤ 1)
  else if island = 9 then decide (u = 0)
  else if island = 10 then decide (u ≤ 11) || (decide (24 ≤ u) && decide (u ≤ 35)) || decide (u = 48)
  else if island = 22 then decide (u = 2) || decide (u = 3) else false

def unitConsumes (island u : Nat) : Bool :=
  if 1 ≤ island ∧ island ≤ 8 then decide (2 ≤ u) && decide (u ≤ 6)
  else if island = 10 then (decide (12 ≤ u) && decide (u ≤ 23)) || (decide (36 ≤ u) && decide (u ≤ 47))
  else if island = 22 then decide (u ≤ 1) else false

/-- A legal endpoint code, as producer or as consumer. -/
def endpointOk (asProducer : Bool) (e : Nat) : Bool :=
  if e / 0x4000 = 0 ∨ e / 0x4000 = 1 then decide (e % 0x4000 = 0)
  else if e / 0x4000 = 2 then
    decide (e / 0x2000 % 2 = 0) &&
    (if asProducer then unitProduces (e / 256 % 32) (e % 256) else unitConsumes (e / 256 % 32) (e % 256))
  else false

/-- The fields of a descriptor. -/
def qdBase (d : List Byte) : Nat := fieldAt d 0 2
def qdSize (d : List Byte) : Nat := fieldAt d 2 2
def qdHigh (d : List Byte) : Nat := fieldAt d 4 2
def qdLow (d : List Byte) : Nat := fieldAt d 6 2
def qdProd (d : List Byte) : Nat := fieldAt d 8 2
def qdCons (d : List Byte) : Nat := fieldAt d 10 2

/-- Queue `q` of a list of descriptors. -/
def queueDesc (l : List (List Byte)) (q : Nat) : List Byte := l.getD q []

/-- Descriptor `q` among those before it: of two that overlap, the higher-numbered one is the detail of 0x0A, which the spec does
not say (assumption 92). -/
def queueOk (l : List (List Byte)) (q : Nat) : Bool :=
  let d := queueDesc l q
  if qdSize d = 0 then d.all (fun b => b == 0#8)
  else
    decide (16 ≤ qdSize d ∧ qdSize d ≤ 16384) && decide (qdBase d + qdSize d ≤ 65536) &&
    decide (qdLow d < qdHigh d ∧ qdHigh d ≤ qdSize d) && endpointOk true (qdProd d) && endpointOk false (qdCons d) &&
    decide (qdProd d ≠ qdCons d) && zerosAt d 12 4 &&
    decide (((List.range (q + 1)).map (fun i => qdSize (queueDesc l i))).sum ≤ 65536) &&
    (List.range q).all (fun j =>
      let e := queueDesc l j
      decide (qdSize e = 0) || decide (qdBase d + qdSize d ≤ qdBase e) || decide (qdBase e + qdSize e ≤ qdBase d))

/-! ## Path-table entries (0x0B) -/

/-- The fields of entry `p` (R57, R58, R91); LENGTH belongs to the walk. -/
def entryOk (g : Img) (p : Nat) : Bool :=
  let e := g.path p
  !e.rsv && (!e.enable ||
    (decide (e.entry < g.top) && decide (e.kexp ≤ 14) && decide (e.phase < 2 ^ e.kexp) && decide (e.phase < g.nMin) &&
     decide (e.pathno = p) &&
     (if e.lastTrain then decide (e.kexp = 0) && decide (e.phase = 0) && !e.armedOnly else !e.core)))

/-! ## Consist encoding (0x0C) -/

/-- Fields of an operand (Table 2-3). -/
def oD (o : Nat) : Nat := o / 2 ^ 13 % 64
def oA (o : Nat) : Nat := o / 2 ^ 7 % 64
def oB (o : Nat) : Nat := o / 2 % 64
def oImm (o : Nat) : Nat := o % 128
def oPort (o : Nat) : Nat := o / 4 % 2048

/-- Integer operations of tracks 0 and 1 (Table 2-4). -/
def intOpOk (track op o : Nat) : Bool :=
  let r3 := o % 2 == 0
  if op = 0 then true
  else if op = 0x3F then track == 0 && decide (o / 2 ^ 16 = 0)
  else if op = 0x17 then decide (o % 8 ≤ 5)
  else if op = 0x18 ∨ op = 0x19 then track == 1 && r3 && oD o % 2 == 0 && oA o % 2 == 0 && oB o % 2 == 0
  else if (9 ≤ op ∧ op ≤ 14) then true
  else if op ≤ 0x16 then r3
  else false

/-- Operations of track 2. -/
def fpOpOk (op o : Nat) : Bool :=
  if op = 0 then true
  else if op = 0x0C then decide (o % 8 ≤ 4)
  else if op = 8 ∨ op = 9 ∨ op = 10 ∨ op = 11 ∨ op = 14 then decide (o % 128 = 0)
  else if op ≤ 15 then o % 2 == 0
  else false

/-- Operations of track 3. -/
def busOpOk (op o : Nat) : Bool :=
  if op = 0 ∨ op = 1 ∨ op = 2 ∨ op = 6 ∨ op = 7 ∨ op = 0x10 ∨ op = 0x11 ∨ op = 0x12 then true
  else if op = 3 ∨ op = 4 then o % 2 == 0
  else if op = 5 then decide (o % 128 = 0)
  else if op = 8 then inboundPort (oPort o)
  else if op = 9 then outboundPort (oPort o) && decide (o % 4 = 0)
  else if op = 0xA ∨ op = 0xB ∨ op = 0xC then decide (o % 128 = 0)
  else if op = 0xD then decide (oD o = 0) && o % 2 == 0
  else if op = 0xE then inboundPort (oPort o) && decide (o % 4 = 0)
  else if op = 0xF then outboundPort (oPort o) && decide (o % 4 = 0)
  else if op = 0x13 then decide (oD o = 0) && decide (o % 128 = 0)
  else if op = 0x14 then decide (oA o = 0) && decide (oImm o ≤ 7)
  else if op = 0x15 then decide (oD o = 0) && decide (oImm o / 4 % 16 = 0)
  else if op = 0x16 ∨ op = 0x17 then decide (oD o = 0) && decide (oImm o = 0)
  else false

/-- One track field. -/
def trackOk (k f : Nat) : Bool :=
  let op := tOp f
  let o := tOpd f
  if op = 0 then true
  else if k ≤ 1 then intOpOk k op o && (op != 0x3F || (tPsel f == 0 && !(tPinv f)))
  else if k = 2 then fpOpOk op o else busOpOk op o

def consistOk (g : Img) (c : Nat) : Bool := (List.range 4).all (fun k => trackOk k (cTrack (consistAt g.code c) k))

/-! ## Walks (0x0D to 0x11) -/

/-- Paths whose table entry is enabled, in path order. -/
def Img.enabled (g : Img) : List PEntry := ((List.range 4096).map g.path).filter (fun e => e.enable)

/-- The items of a path's walk. -/
def Img.items (g : Img) (e : PEntry) : List WalkItem := match walkPath g.code g.top e.entry with | some (l, _, _) => l | none => []

/-- The walk of path `e` meets R49, and its length is LENGTH. -/
def walkOk (g : Img) (e : PEntry) : Bool :=
  match walkPath g.code g.top e.entry with | some (_, len, _) => decide (len = e.length) | none => false

/-- Latency of an operation (Table 2-4). -/
def latOf (k op : Nat) : Nat :=
  if op = 0 then 0
  else if k ≤ 1 then (if op = 0x3F then 0 else if 0x14 ≤ op ∧ op ≤ 0x16 then 3 else if op = 0x18 ∨ op = 0x19 then 2 else 1)
  else if k = 2 then
    (match op with
     | 1 | 2 | 3 => 4
     | 4 | 5 => 5
     | 6 | 7 => 2
     | 0xA | 0xB => 3
     | 0xC => 2
     | 0xD | 0xE => 16
     | _ => 1)
  else
    (match op with
     | 1 | 3 | 6 => 3
     | 8 | 0xC | 0xE => 2
     | 0xA | 0xD | 0xF | 0x10 => 4
     | _ => 1)

/-- Every issue cycle of an item in one run. -/
def issueCycles : Nat → List (Nat × Nat) → List Nat
  | t, [] => [t]
  | t, (n, len) :: r => (List.range n).flatMap (fun k => issueCycles (t + k * len) r)

/-- The issue cycles of the items that pass a test on their consist, in order of issue. -/
def cyclesWhere (g : Img) (e : PEntry) (f : Nat → Bool) : List Nat :=
  (((g.items e).filter (fun x => f (consistAt g.code x.idx))).flatMap (fun x => issueCycles x.first x.reps)).mergeSort

/-- Two divide or square-root operations of a path issue at least 16 cycles apart (R46). -/
def spaced (gap : Nat) : List Nat → Bool
  | a :: b :: r => decide (a + gap ≤ b) && spaced gap (b :: r)
  | _ => true

def isDiv (w : Nat) : Bool := tOp (cTrack w 2) == 0xD || tOp (cTrack w 2) == 0xE

/-- Every result lands within the path (R41), and divisions are spaced. -/
def latencyOk (g : Img) (e : PEntry) : Bool :=
  (g.items e).all (fun x => (List.range 4).all (fun k =>
    decide (x.last + latOf k (tOp (cTrack (consistAt g.code x.idx) k)) ≤ e.length))) &&
  spaced 16 (cyclesWhere g e isDiv)

/-- Do the run rules of two paths select a common minor cycle? -/
def meets (a b : PEntry) : Bool :=
  let k := min a.kexp b.kexp
  decide (a.phase % 2 ^ k = b.phase % 2 ^ k)

/-- The paths of the timetable, and of the last train. -/
def Img.daily (g : Img) : List PEntry := g.enabled.filter (fun e => !e.lastTrain)
def Img.lastTrain (g : Img) : List PEntry := g.enabled.filter (fun e => e.lastTrain)

/-- The end of a span. -/
def PEntry.stop (e : PEntry) : Nat := e.offset + e.length

/-- The first path that breaks the order, overlap or placement rules among the paths before it (R55, R60). -/
def spanBad (g : Img) : List PEntry → List PEntry → Option Nat
  | _, [] => none
  | before, e :: r =>
    if decide (256 ≤ e.offset) && decide (e.stop ≤ g.cyc - 64) &&
       before.all (fun f => decide (f.offset ≤ e.offset) && (!(meets f e) || decide (f.stop ≤ e.offset)))
    then spanBad g (before ++ [e]) r else some e.pathno

/-- The first last-train path out of order, overlapping, or CORE behind one that is not (R74, R91). -/
def lastTrainBad : List PEntry → List PEntry → Option Nat
  | _, [] => none
  | before, e :: r =>
    if before.all (fun f => decide (f.stop ≤ e.offset) && decide (f.offset < e.offset) && (f.core || !e.core))
    then lastTrainBad (before ++ [e]) r else some e.pathno

/-- The fill of minor cycle `m` (R56). -/
def fillOf (g : Img) (m : Nat) : Nat :=
  ((g.daily.filter (fun e => decide (m % 2 ^ e.kexp = e.phase))).map (fun e => e.length)).sum

/-- The greatest fill and the least m at which it occurs. -/
def fillMax (g : Img) : Nat × Nat :=
  (List.range g.nMin).foldl (fun b m => if b.1 < fillOf g m then (fillOf g m, m) else b) (fillOf g 0, 0)

/-- Check 0x10. -/
def fillCheck (g : Img) (h : List Byte) : Option Nat :=
  match (List.range g.nMin).find? (fun m => decide (9 * g.cyc < 10 * fillOf g m)) with
  | some m => some m
  | none => let b := fillMax g; if fieldAt h 0x40 4 = b.1 ∧ fieldAt h 0x44 2 = b.2 then none else some b.2

/-- Does the consist reach a block's register port: RLD or RST. -/
def isPort (w : Nat) : Bool := tOp (cTrack w 3) == 0x10 || tOp (cTrack w 3) == 0x11

/-- Each path with the cycles, from the start of the minor cycle, at which it reaches a block's port. -/
def portCycles (g : Img) (l : List PEntry) : List (PEntry × List Nat) :=
  l.map (fun e => (e, (cyclesWhere g e isPort).map (fun t => e.offset + t)))

/-- Cycle `c` and the `n` before it all carry an RLD or RST, of paths that run in one minor cycle. -/
def portRun (l : List (PEntry × List Nat)) : Nat → List PEntry → Nat → Bool
  | 0, _, _ => true
  | n + 1, sel, c => decide (1 ≤ c) && l.any (fun p => p.2.contains (c - 1) && sel.all (meets p.1) && portRun l n (p.1 :: sel) (c - 1))

/-- The first path that issues a fourth RLD or RST in 4 consecutive cycles (Table 3-2). -/
def portBad (g : Img) (paths : List PEntry) : Option Nat :=
  let l := portCycles g paths
  (l.find? (fun p => p.2.any (fun c => portRun l 3 [p.1] c))).map (fun p => p.1.pathno)

/-! ## Last-train declarations (0x12) -/

/-- TTE_LONGEST: the longest LENGTH of a path that the switch may have to wait for. -/
def longest (g : Img) : Nat := (g.daily.map (fun e => e.length)).foldl max 0

/-- Check 0x12 (R91, R92). -/
def lastTrainOk (g : Img) (h : List Byte) : Bool :=
  let lt := g.lastTrain
  let sw := max 256 (longest g)
  match (lt.filter (fun e => e.core)).getLast?, lt.getLast? with
  | some c, some f =>
    decide (fieldAt h 0x3C 4 = c.stop) && decide (fieldAt h 0x38 4 = f.stop) &&
    decide (fieldAt h 0x34 4 ≤ fieldAt h 0x30 4) &&
    decide (35 * (sw + f.stop) ≤ 1000 * fieldAt h 0x30 4) && decide (35 * (sw + c.stop) ≤ 1000 * fieldAt h 0x34 4)
  | _, _ => false

/-! ## Sample plan (0x13) -/

def spOf (b : List Byte) : SampleEntry :=
  { island := fieldAt b 0 1, kind := fieldAt b 1 1, kexp := fieldAt b 2 1, phase := fieldAt b 4 2, offset := fieldAt b 8 4 }

/-- The least distance in core cycles between instants of two entries (R84). -/
def instantGap (g : Img) (a b : SampleEntry) : Nat :=
  let per := 2 ^ min a.kexp b.kexp * g.cyc
  let d := ((b.phase * g.cyc + b.offset : Int) - (a.phase * g.cyc + a.offset : Int)) % (per : Int)
  min d.toNat (per - d.toNat)

/-- Entry `i` of the sample plan among those before it: of two that lie too close, the later one is the detail of 0x13, which the
spec does not say (assumption 92). -/
def sampleOk (g : Img) (l : List SampleEntry) (i : Nat) : Bool :=
  let raw := g.samples.getD i []
  let e := spOf raw
  decide (11 ≤ e.island ∧ e.island ≤ 20) && decide (e.kind ≤ 1) && (decide (e.kind = 0) || decide (15 ≤ e.island)) &&
  decide (e.kexp ≤ 14) && decide (g.nMin % 2 ^ e.kexp = 0) && decide (e.phase < 2 ^ e.kexp) && decide (e.offset < g.cyc) &&
  zerosAt raw 3 1 && zerosAt raw 6 2 && zerosAt raw 12 4 &&
  (l.take i).all (fun f => decide (f.kind ≠ e.kind) || decide (f.island ≠ e.island) || decide (10000 ≤ instantGap g f e))

/-! ## Crossing plan (0x14 to 0x16) -/

def cpOf (b : List Byte) : CrossEntry :=
  { port := fieldAt b 0 2, dir := fieldAt b 2 1, lag := fieldAt b 3 1, path := fieldAt b 4 2, consist := fieldAt b 8 4,
    sample := fieldAt b 12 2 }

/-- The port that a consist's track 3 names, if its operation does. -/
def portOfConsist (w : Nat) : Option Nat :=
  let f := cTrack w 3
  if 8 ≤ tOp f ∧ (tOp f ≤ 9 ∨ tOp f = 0xE ∨ tOp f = 0xF) then some (oPort (tOpd f)) else none

/-- The item of a path's walk that holds a consist. -/
def itemOf (g : Img) (path consist : Nat) : Option WalkItem := (g.items (g.path path)).find? (fun x => x.idx == consist)

/-- Entry `i` names an operation on its port, in its path, that no entry before it names (R87). -/
def crossOk (g : Img) (l : List CrossEntry) (i : Nat) (e : CrossEntry) : Bool :=
  let raw := g.crossings.getD i []
  zerosAt raw 6 2 && zerosAt raw 14 2 && decide (e.dir ≤ 1) && decide (e.path < 4096) && (g.path e.path).enable &&
  (itemOf g e.path e.consist).isSome && decide (portOfConsist (consistAt g.code e.consist) = some e.port) &&
  (if e.dir = 0 then inboundPort e.port else outboundPort e.port) &&
  (l.take i).all (fun f => decide (f.consist ≠ e.consist))

/-- Check 0x14. A consist that no entry names is reported before a faulty entry: the spec gives no order (assumption 92). -/
def crossCheck (g : Img) : Option Nat :=
  let l := g.crossings.map cpOf
  match firstBad g.top (fun c => (portOfConsist (consistAt g.code c)).isNone || l.any (fun e => e.consist == c)) with
  | some c => some c
  | none => match l.zipIdx.find? (fun p => !(crossOk g l p.2 p.1)) with
    | some p => some (p.1.consist % 65536)
    | none => none

/-- Sample delay and island-to-core bound of a field island (Table 3-5, Table 3-3). -/
def sampleDelay (island : Nat) : Nat := if island ≤ 16 then 207 else 4000

/-- Readiness and run-rule agreement of one entry (R86). -/
def readyOk (g : Img) (e : CrossEntry) : Bool :=
  let p := g.path e.path
  if e.sample = 0xFFFE then true
  else if e.sample = 0xFFFF then decide (e.dir = 1)
  else if p.lastTrain then false
  else match (g.samples.map spOf)[e.sample]? with
    | none => false
    | some sp =>
      let md := 2 ^ sp.kexp
      let want : Int := if e.dir = 0 then (p.phase : Int) - e.lag else (p.phase : Int) + e.lag
      decide (sp.kind = e.dir) && decide (sp.island = e.port / 64) && decide (sp.kexp ≤ p.kexp) &&
      decide (want % (md : Int) = (sp.phase : Int)) &&
      (match itemOf g e.path e.consist with
       | none => false
       | some x =>
         if e.dir = 0 then
           decide (sp.offset + sampleDelay sp.island + 747 + 320 * (e.port % 64) ≤ p.offset + x.first + e.lag * g.cyc)
         else decide (p.offset + x.last + 797 ≤ sp.offset + e.lag * g.cyc))

/-- The outbound field writes of a path: island and cycle of the minor cycle. -/
def fieldWrites (g : Img) (e : PEntry) : List (Nat × Nat) :=
  (g.items e).flatMap (fun x =>
    match portOfConsist (consistAt g.code x.idx) with
    | some p => if outboundPort p && decide (11 ≤ p / 64 ∧ p / 64 ≤ 20) then
        (issueCycles x.first x.reps).map (fun t => (p / 64, e.offset + t)) else []
    | none => [])

/-- Two lists of writes keep 320 cycles apart per island. -/
def writesApart (a b : List (Nat × Nat)) : Bool :=
  a.all (fun x => b.all (fun y => decide (x.1 ≠ y.1) || decide (x.2 + 320 ≤ y.2) || decide (y.2 + 320 ≤ x.2)))

/-- The writes of one path keep apart. -/
def selfApart : List (Nat × Nat) → Bool
  | [] => true
  | x :: r => writesApart [x] r && selfApart r

/-- The first path whose field writes come too close to its own or an earlier path's in some minor cycle (check 0x16). -/
def fieldBad (g : Img) : List PEntry → List PEntry → Option Nat
  | _, [] => none
  | before, e :: r =>
    if selfApart (fieldWrites g e) && before.all (fun f => !(meets f e) || writesApart (fieldWrites g f) (fieldWrites g e))
    then fieldBad g (before ++ [e]) r else some e.pathno

/-! ## Mirror plan and error tasks (0x17, 0x18) -/

def mpOf (b : List Byte) : MirrorEntry := { path := fieldAt b 0 2, blocks := fieldAt b 2 2, consist := fieldAt b 4 4 }

/-- A mirror-plan entry's own fields (R89). -/
def mirrorEntryOk (g : Img) (raw : List Byte) : Bool :=
  let e := mpOf raw
  zerosAt raw 8 8 && decide (e.blocks % 4 = 0) && decide (e.path < 4096) && (g.path e.path).enable &&
  (itemOf g e.path e.consist).isSome && tOp (cTrack (consistAt g.code e.consist) 3) == 0x13

/-- The minor cycles in which a block has a commit point. -/
def commitCycles (g : Img) (b : Nat) : List Nat :=
  let ps := (g.mirror.map mpOf).filter (fun e => e.blocks.testBit b && !(g.path e.path).lastTrain)
  (List.range g.nMin).filter (fun m => ps.any (fun e => decide (m % 2 ^ (g.path e.path).kexp = (g.path e.path).phase)))

/-- The longest interval of a rising list of minor cycles, taken around the major cycle of `n`. -/
def longestGap (n : Nat) (l : List Nat) : Nat :=
  match l with
  | [] => 0
  | a :: r => ((a :: r).zip (r ++ [a + n])).foldl (fun b p => max b (p.2 - p.1)) 0

/-- A block's commit points: at least one, and none more than 20 ms after the one before. -/
def blockOk (g : Img) (b : Nat) : Bool :=
  let l := commitCycles g b
  !l.isEmpty && decide (longestGap g.nMin l ≤ 800 / 2 ^ g.minor)

/-- Check 0x17. A faulty entry is reported before a block without due commit points: the spec gives no order (assumption 92). -/
def mirrorCheck (g : Img) : Option Nat :=
  match firstBad g.mirror.length (fun i => mirrorEntryOk g (g.mirror.getD i [])) with
  | some i => some (0x100 + i)
  | none => ((List.range 14).map (fun b => b + 2)).find? (fun b => !(blockOk g b))

def etOf (b : List Byte) : ErrTask := { station := fieldAt b 0 2, flag := fieldAt b 2 1, path := fieldAt b 4 2 }

/-- An error-task entry (R93). -/
def errTaskOk (g : Img) (raw : List Byte) : Bool :=
  let e := etOf raw
  let p := g.path e.path
  zerosAt raw 3 1 && zerosAt raw 6 2 && decide (e.station < 64) && decide (e.path < 4096) && p.enable && p.armedOnly &&
  !p.lastTrain && decide (p.armflag = e.flag)

end Sys2Proof.Machine
end

