-- ==== Sys2Proof/Machine/ImageCheck.lean ====
section
/-! DEFINITION. The load-time checks in order, and loading an image (R96, R98, R99, R102). -/

namespace Sys2Proof.Machine

/-- Checks 0x08 to 0x18 of a stored image. -/
def contentChecks (s : State) (slot : Nat) : List Check :=
  let h := slotHeader s slot
  let g := imgOf s slot
  [dirCheck h, lengthCheck h,
   (0x0A, firstBad 64 (queueOk g.queues)),
   (0x0B, firstBad 4096 (entryOk g)),
   (0x0C, firstBad g.top (consistOk g)),
   (0x0D, (g.enabled.find? (fun e => !(walkOk g e))).map (fun e => e.pathno)),
   (0x0E, (g.enabled.find? (fun e => !(latencyOk g e))).map (fun e => e.pathno)),
   (0x0F, match spanBad g [] g.daily with | some p => some p | none => lastTrainBad [] g.lastTrain),
   (0x10, fillCheck g h),
   (0x11, match portBad g g.daily with | some p => some p | none => portBad g g.lastTrain),
   (0x12, if lastTrainOk g h then none else some 0),
   (0x13, firstBad g.samples.length (sampleOk g (g.samples.map spOf))),
   (0x14, crossCheck g),
   (0x15, firstBad g.crossings.length (fun i => readyOk g (cpOf (g.crossings.getD i [])))),
   (0x16, fieldBad g [] g.daily),
   (0x17, mirrorCheck g),
   (0x18, ((g.errTasks.find? (fun r => !(errTaskOk g r))).map (fun r => (etOf r).station)))]

/-- The refusal of a slot's image: the first failing check of Table 3-15, its code and detail (R98). -/
def imageRefusal (s : State) (slot : Nat) : Option (Nat × Nat) :=
  let h := slotHeader s slot
  match firstRefusal (headerChecks h) with
  | some r => some r
  | none =>
    match firstRefusal (signatureChecks (acceptedKeys s (hSeq h) s.sec.srec.prevImg) h ++ [hashCheck s slot h]) with
    | some r => some r
    | none => firstRefusal (contentChecks s slot)

/-- One CONFSCHEMA entry (Table 4-6). -/
def schemaOf (b : List Byte) : SchemaEntry :=
  { kind := fieldAt b 0 2, type := fieldAt b 2 2, f0 := fieldAt b 4 2, f1 := fieldAt b 6 2, f2 := fieldAt b 8 2,
    f3 := fieldAt b 10 2, value := fieldAt b 12 4 }

/-- The schema of a stored image. -/
def slotSchema (s : State) (slot : Nat) : List SchemaEntry := (sectionEntries s slot (slotHeader s slot) 10 16).map schemaOf

/-- What an image fixes beside the memories (Table 3-11, Table 3-13). -/
def imageOf (s : State) (slot : Nat) : Image :=
  let h := slotHeader s slot
  let g := imgOf s slot
  { loaded := true, slot := slot, seq := hSeq h, minor := hMinor h, ltFullUj := fieldAt h 0x30 4, ltCoreUj := fieldAt h 0x34 4,
    ltFullCyc := fieldAt h 0x38 4, ltCoreCyc := fieldAt h 0x3C 4, samples := g.samples.map spOf,
    crossings := g.crossings.map cpOf, mirror := g.mirror.map mpOf, errTasks := g.errTasks.map etOf,
    schema := slotSchema s slot }

/-- Queue `q` as its descriptor sets it; a queue of size 0 has no ends and no words (R24, R97). -/
def loadQueue (l : List (List Byte)) (s : State) (q : Nat) : State :=
  let d := queueDesc l q
  ((((s.setReg (Reg.queQCfg q) (w32 (qdBase d + qdSize d * 2 ^ 16))).setReg (Reg.queQWm q) (w32 (qdHigh d + qdLow d * 2 ^ 16))).setReg
    (Reg.queQEnds q) (w32 (qdProd d + qdCons d * 2 ^ 16))).setReg (Reg.queQLevel q) 0#32)

/-- Load a slot's image (Table 3-13, R93, R102): code SRAM and both path-table copies, queues, arm flags. DATA_INIT follows in
phase 2 (R118). -/
def loadImage (slot : Nat) (s : State) : State :=
  let h := slotHeader s slot
  let g := imgOf s slot
  let ai := section_ slot h 9
  let s1 := { s with code := loadCode s slot h, image := imageOf s slot,
                     ecc := (sclear s.ecc (eccKey mcCode 0) (eccKey mcData 0)).filter (fun e => decide (e.1 < eccKey mcPtab 0)),
                     sec := { s.sec with imgHash := shake256 h 64 } }
  let s2 := (List.range 64).foldl (loadQueue g.queues) s1
  let tot := ((List.range 64).map (fun q => qSize s2 q)).sum
  let s3 := (List.range 8).foldl (fun t i => t.setReg (Reg.tteArm i)
    (if ai.2 = 32 then memW s.store (ai.1 + 4 * i) else 0#32)) s2
  let used := ((List.range 64).filter (fun q => qSize s2 q != 0)).length
  ((s3.setReg Reg.queTotal (w32 (tot + used * 2 ^ 17))).setReg Reg.tteLongest (w32 (longest g))).setRf Reg.tteStat 5 4 (hMinor h)

/-- DATA_INIT into data SRAM, the rest zero (R118). -/
def loadData0 (slot : Nat) (s : State) : State :=
  let d := section_ slot (slotHeader s slot) 3
  { s with data := memCopy s.store d.1 d.2 [] 0, ecc := sclear s.ecc (eccKey mcData 0) (eccKey mcQue 0) }

/-- A refusal of a slot: SYS_REFUSE and the record, 0x111 for an image and 0x002 for its configuration (R98, R107, R123). DETAIL
keeps bits 15:0 of a greater detail: the spec does not say whether the field saturates (assumption 91). -/
def refuseSlot (slot code detail : Nat) (s : State) : State :=
  let s1 := s.setReg Reg.sysRefuse (w32 (code + slot * 256 + (detail % 65536) * 65536))
  if 0x30 ≤ code then s1.append 0x002 0 14 [w32 code, w32 detail, w32 slot]
  else s1.append 0x111 1 14 [w32 code, w32 detail, w32 slot]

end Sys2Proof.Machine
end

