-- ==== Sys2Proof/Machine/Conf.lean ====
section
/-! DEFINITION. Configuration records: their checks against the image's schema, migration and application (R114 to R123). -/

namespace Sys2Proof.Machine

/-- A record (R115): its header fields and the bytes of its items. -/
structure CRec where
  type : Nat
  version : Nat
  inst : Nat
  flags : Nat
  length : Nat
  crc : Word
  items : List Byte
  /-- The padding after the items is 0. -/
  padOk : Bool
  deriving DecidableEq, Repr

/-- A length rounded up to a multiple of 16. -/
def up16 (n : Nat) : Nat := (n + 15) / 16 * 16

/-- The first record of a list of bytes, and the bytes after it; none where it does not fit. -/
def takeRecord (b : List Byte) : Option (CRec × List Byte) :=
  if b.length < 16 then none else
  let len := fieldAt b 8 4
  if b.length < 16 + up16 len then none else
  some ({ type := fieldAt b 0 2, version := fieldAt b 2 2, inst := fieldAt b 4 2, flags := fieldAt b 6 2, length := len,
          crc := w32 (fieldAt b 12 4), items := (b.drop 16).take len, padOk := zerosAt b (16 + len) (up16 len - len) },
        b.drop (16 + up16 len))

/-- Up to `n` records, and the bytes that remain; fewer than `n` where one does not fit. -/
def takeRecords : Nat → List Byte → List CRec × List Byte
  | 0, b => ([], b)
  | n + 1, b =>
    match takeRecord b with
    | none => ([], b)
    | some (r, rest) => let t := takeRecords n rest; (r :: t.1, t.2)

/-- Is the type privileged? -/
def privType (t : Nat) : Bool := decide (0xF000 ≤ t ∧ t ≤ 0xF0FF)

/-- One item of a record (R116). -/
inductive Item where
  | reg (addr : Nat) (v : Word)
  | data (addr : Nat) (ws : List Word)
  deriving DecidableEq, Repr

/-- Read the items of a record; none where their structure is faulty (R116, code 0x32). -/
def takeItems : Nat → List Word → Option (List Item)
  | _, [] => some []
  | 0, _ :: _ => none
  | n + 1, a :: r =>
    match r with
    | [] => none
    | v :: rest =>
      if fld a 31 28 = 0 then
        (if fld a 27 20 = 0 ∧ fld a 1 0 = 0 then (takeItems n rest).map (fun l => .reg (fld a 19 0) v :: l) else none)
      else if fld a 31 28 = 1 then
        (if fld a 27 21 = 0 ∧ fld a 1 0 = 0 ∧ 1 ≤ v.toNat ∧ v.toNat ≤ 524288 ∧ v.toNat ≤ rest.length then
          (takeItems n (rest.drop v.toNat)).map (fun l => .data (fld a 20 0) (rest.take v.toNat) :: l) else none)
      else none

/-- The items of a record. -/
def itemsOf (r : CRec) : Option (List Item) := if r.length % 4 = 0 then takeItems (r.length / 4) (bytesWords r.items) else none

/-! ## The schema (R119) -/

/-- The KIND 0 entry of a type. -/
def schemaType (l : List SchemaEntry) (t : Nat) : Option SchemaEntry := l.find? (fun e => e.kind == 0 && e.type == t)

/-- Is entry `i` well formed? -/
def schemaEntryOk (l : List SchemaEntry) (i : Nat) (e : SchemaEntry) : Bool :=
  match e.kind with
  | 0 => decide (e.value = 0) && decide (e.f2 / 4 = 0) && (e.f2.testBit 1 == privType e.type) &&
      decide (1 ≤ e.f3 ∧ e.f3 ≤ 4096) && decide (e.f1 ≤ e.f0) &&
      !((l.take i).any (fun f => f.kind == 0 && f.type == e.type))
  | 1 => decide (e.value = 0) && decide (e.f1 % 4 = 0) && decide (e.f2 % 4 = 0) && decide (e.f3 % 4 = 0) && decide (e.f3 ≠ 0) &&
      decide (e.f1 + e.f3 ≤ 65536) && decide (e.f2 + e.f3 ≤ 65536) &&
      (match schemaType l e.type with | some k => decide (k.f1 ≤ e.f0) && decide (e.f0 < k.f0) | none => false)
  | 2 => decide (e.f3 = 0) && decide (e.f1 % 4 = 0) && decide (e.f2 % 4 = 0) && decide (e.f2 ≠ 0) && decide (e.f1 + e.f2 ≤ 65536) &&
      (match schemaType l e.type with | some k => decide (k.f1 ≤ e.f0) && decide (e.f0 < k.f0) | none => false)
  | _ => false

/-- Check 0x39: the first faulty entry. -/
def schemaCheck (l : List SchemaEntry) : Option Nat := (l.zipIdx.find? (fun p => !(schemaEntryOk l p.2 p.1))).map (fun p => p.2)

/-! ## Migration of a record (R120) -/

/-- Put bytes into a list of bytes at an offset, lengthening it with zeros. -/
def putAt (l : List Byte) (o : Nat) (b : List Byte) : List Byte := padTo o l ++ b ++ l.drop (o + b.length)

/-- Apply the COPY and FILL entries of a type and an old version to the old items. -/
def migrateItems (old : List Byte) : List SchemaEntry → List Byte → List Byte
  | [], new => new
  | e :: r, new =>
    if e.kind = 1 then migrateItems old r (putAt new e.f2 (padTo e.f3 (old.drop e.f1)))
    else migrateItems old r (putAt new e.f1 ((List.replicate (e.f2 / 4) (leBytes 4 e.value)).flatten))

/-- Does a record need migration: an ordinary one in an older version that the schema can migrate. -/
def needsMigration (l : List SchemaEntry) (r : CRec) : Bool :=
  !(privType r.type) &&
  (match schemaType l r.type with | some k => decide (k.f1 ≤ r.version) && decide (r.version < k.f0) | none => false)

/-- The record as the image reads it: as stored, or migrated. -/
def usedRecord (l : List SchemaEntry) (r : CRec) : CRec :=
  if needsMigration l r then
    let es := l.filter (fun e => (e.kind == 1 || e.kind == 2) && e.type == r.type && e.f0 == r.version)
    let new := migrateItems r.items es []
    { r with version := match schemaType l r.type with | some k => k.f0 | none => r.version,
             length := new.length, items := new, crc := crc32 new }
  else r

/-- The bytes of a record. -/
def recordBytes (r : CRec) : List Byte :=
  leBytes 2 r.type ++ leBytes 2 r.version ++ leBytes 2 r.inst ++ leBytes 2 r.flags ++ leBytes 4 r.length ++ leBytes 4 r.crc.toNat ++
  padTo (up16 r.length) r.items

/-! ## What a record type may carry (R116, R117 and the chapters' own lists) -/

/-- Types that carry DATA items only, with their range; all other types of the chapters carry REG items only. -/
def dataRange (t : Nat) : Option (Nat × Nat) :=
  if t = 0x0601 then some (0x1E0000, 0x200000) else if t = 0x0602 then some (0x1C0000, 0x1E0000)
  else if t = 0x0701 then some (0x1B0000, 0x1B0800) else none

/-- The types that the chapters list as carrying REG items. -/
def regTypes : List Nat :=
  [0x0200, 0x0300, 0x0400, 0x0500, 0x0600, 0x0700, 0x0800, 0x0900, 0x0A00, 0x0B00, 0x0C00, 0x0D00, 0x0E00, 0xF001, 0xF002, 0xF003]

/-- The closed lists: a register of one, named in its partner record, refuses the slot (R182, R291, R340). -/
def closedList (t a : Nat) : Bool :=
  match t with
  | 0xF001 => (a == Reg.mtrSeta || a == Reg.mtrSetb) || (List.range 30).any (fun n => (chHeld n).contains a) ||
      (List.range 8).any (fun c => (cirHeld c).contains a)
  | 0x0300 => a == Reg.mtrRestore || a == Reg.mtrWcCfg || a == Reg.mtrHaCfg || a == Reg.mtrHaMask ||
      (List.range 8).any (fun o => a == Reg.mtrS0Cfg o || a == Reg.mtrS0K o)
  | 0xF002 => a == Reg.fabPos || a == Reg.fabTparent || (List.range 8).any (fun l => a == Reg.fabLkNbr l)
  | 0x0700 => a == Reg.fabTimeCfg || a == Reg.fabFaultDest || a == Reg.fabParcelCfg ||
      (List.range 8).any (fun l => a == Reg.fabLkCfg l || (List.range 8).any (fun g => a == Reg.fabLkSlotmap l g))
  | 0xF003 => a == Reg.parCfg || a == Reg.parSb || (List.range 16).any (fun k => a == Reg.parSbPair k)
  | 0x0A00 => a == Reg.parTiming || a == Reg.parSafeDo || a == Reg.parSafeAo
  | _ => false

/-- The partner of a closed list. -/
def partnerType (t : Nat) : Nat :=
  match t with
  | 0xF001 => 0x0300 | 0x0300 => 0xF001 | 0xF002 => 0x0700 | 0x0700 => 0xF002 | 0xF003 => 0x0A00 | 0x0A00 => 0xF003 | _ => 0

/-- Is an item permitted in a record of type `t` (code 0x37)? -/
def itemOk (t : Nat) : Item → Bool
  | .reg a _ => (dataRange t).isNone && (accOf a == some .rw || accOf a == some .sh) && decide (a ≠ Reg.mtrCalhold) &&
      !(closedList (partnerType t) a)
  | .data a ws =>
    match dataRange t with
    | some (lo, hi) => decide (lo ≤ a) && decide (a + 4 * ws.length ≤ hi)
    | none => !(regTypes.contains t) && decide (a + 4 * ws.length ≤ 0x200000)

/-! ## The record checks in order (R123) -/

/-- Record `i` is well formed (R115, R116): flags, CRC, order, padding, item structure, as stored and as used. -/
def recordOk (l : List SchemaEntry) (rs : List CRec) (i : Nat) (r : CRec) : Bool :=
  decide (r.flags = b2n (privType r.type)) && r.padOk && (crc32 r.items == r.crc) && (itemsOf r).isSome &&
  (itemsOf (usedRecord l r)).isSome &&
  (match i with
   | 0 => true
   | k + 1 => match rs[k]? with | some p => decide (p.type < r.type) || (decide (p.type = r.type) && decide (p.inst < r.inst)) | none => true)

/-- Check 0x32 of a body of `n` records. -/
def formCheck (l : List SchemaEntry) (n : Nat) (body : List Byte) : Option Nat :=
  let t := takeRecords n body
  match t.1.zipIdx.find? (fun p => !(recordOk l t.1 p.2 p.1)) with
  | some p => some p.2
  | none => if t.1.length < n then some t.1.length else if t.2.isEmpty then none else some n

/-- Checks 0x33 to 0x37 and 0x3B of the records against a schema. -/
def recordChecks (l : List SchemaEntry) (rs : List CRec) : List Check :=
  let idx (f : CRec → Bool) : Option Nat := (rs.zipIdx.find? (fun p => f p.1)).map (fun p => p.2)
  let count (t : Nat) : Nat := (rs.filter (fun r => r.type == t)).length
  let req : List Nat := (l.filter (fun e => e.kind == 0 && e.f2.testBit 0)).map (fun e => e.type)
  let need : List Nat := (req ++ [0xF002]).mergeSort
  [(0x33, idx (fun r => (schemaType l r.type).isNone)),
   (0x34, idx (fun r => !(privType r.type) &&
      (match schemaType l r.type with | some k => decide (r.version ≠ k.f0) && !(needsMigration l r) | none => false))),
   (0x35, need.find? (fun t => decide (count t = 0))),
   (0x36, ((rs.find? (fun r => (decide (r.type = 0xF002) && decide (1 < count 0xF002)) ||
      (match schemaType l r.type with | some k => decide (k.f3 < count r.type) | none => false))).map (fun r => r.type))),
   (0x37, idx (fun r => match itemsOf (usedRecord l r) with | some is => !(is.all (itemOk r.type)) | none => false)),
   (0x3B, (rs.find? (fun r => privType r.type &&
      (match schemaType l r.type with | some k => decide (r.version ≠ k.f0) | none => false))).map (fun r => r.type))]

/-- The records of a generation at a base. -/
def genRecords (s : State) (base : Nat) : List CRec := (takeRecords (gRecords (genHeaderAt s base)) (genBody s base)).1

/-- The first failing record check of a generation against a schema (R123, steps 3 and 4). -/
def generationRefusal (s : State) (base : Nat) (l : List SchemaEntry) : Option (Nat × Nat) :=
  firstRefusal ((0x32, formCheck l (gRecords (genHeaderAt s base)) (genBody s base)) :: recordChecks l (genRecords s base))

/-! ## Selection of a generation (R114) -/

/-- The generation among a list with the greatest GEN_SEQ, G0 where two are equal. -/
def newestGen (s : State) (l : List Nat) : Option Nat :=
  l.foldl (fun b g => match b with
    | none => some g
    | some x => if gSeq (genHeaderAt s (genBase x)) < gSeq (genHeaderAt s (genBase g)) then some g else some x) none

/-- The valid generations. -/
def validGens (s : State) : List Nat := [0, 1].filter (fun g => genState s (genBase g) == .valid)

/-- The generation to use for an image: its number and whether it is a migration source, or the refusal. -/
def selectGen (s : State) (seq : Nat) : (Nat × Bool) ⊕ (Nat × Nat) :=
  let v := validGens s
  let m := v.filter (fun g => let f := gFor (genHeaderAt s (genBase g)); decide (f = 0 ∨ f = seq))
  match newestGen s m with
  | some g => .inl (g, false)
  | none =>
    match newestGen s v with
    | some g => .inl (g, true)
    | none =>
      match [0, 1].filter (fun g => genState s (genBase g) == .badKey) with
      | [] => .inr (0x30, 0)
      | [g] => .inr (0x31, g)
      | _ => .inr (0x31, 0)

/-! ## Application (R118) -/

/-- Apply one item: a REG item writes the active value, which no reserved bit reaches, and for an SH register its shadow, which
holds all bits as written (R4, R118). -/
def applyItem (s : State) : Item → State
  | .reg a v =>
    let x := v &&& ~~~(regRsv a)
    let t := s.setReg a (if a = Reg.parLease then w32 (min x.toNat 289000) else x)
    if isSh a then t.setShadow a v else t
  | .data a ws => { s with data := memPut s.data a (wordBytes ws) }

/-- Apply the records in stored order. -/
def applyRecords (s : State) (l : List SchemaEntry) (rs : List CRec) : State :=
  rs.foldl (fun t r => ((itemsOf (usedRecord l r)).getD []).foldl applyItem t) s

/-- The index of the last record that wrote one of some registers, 0xFFFF when none did. -/
def lastWriter (l : List SchemaEntry) (rs : List CRec) (regs : List Nat) : Nat :=
  (rs.zipIdx.filter (fun p => ((itemsOf (usedRecord l p.1)).getD []).any (fun i =>
    match i with | .reg a _ => regs.contains a | .data _ _ => false))).foldl (fun _ p => p.2) 0xFFFF

/-- The index of the last record that wrote a byte of a range of data SRAM, 0xFFFF when none did. -/
def lastDataWriter (l : List SchemaEntry) (rs : List CRec) (lo hi : Nat) : Nat :=
  (rs.zipIdx.filter (fun p => ((itemsOf (usedRecord l p.1)).getD []).any (fun i =>
    match i with | .reg _ _ => false | .data a ws => decide (a < hi) && decide (lo < a + 4 * ws.length)))).foldl (fun _ p => p.2) 0xFFFF

/-- The refusal for a failing pairing at a start (R118, Table 4-7): range faults first. -/
def pairRefusal (s : State) (l : List SchemaEntry) (rs : List CRec) : Option (Nat × Nat) :=
  let bad := (allPairs true s.reg s).filter (fun r => !r.ok)
  match bad.find? (fun r => r.reason == 4) with
  | some r => some (0x37, lastWriter l rs r.regs)
  | none =>
    match badPoint s with
    | some p => some (0x37, lastDataWriter l rs (ptAddr p 0) (ptAddr (p + 1) 0))
    | none =>
      match bad with
      | [] => none
      | r :: _ => some (0x38, (r.regs.foldl min 0xFFFFF) / 0x10000 * 256 + r.reason)

end Sys2Proof.Machine
end

