-- ==== Sys2Proof/Machine/SecMsg.lean ====
section
/-! DEFINITION. Signed messages, their effects on keys, fuses, slots and generations, and transfers of images
(R122, R378 to R388, R393 to R399, R402, R403). -/

namespace Sys2Proof.Machine

/-! ## Requests for a warm start (R103) -/

/-- A valid request for a warm start by a master (0 engine, 1 fabric, 2 host): ignored while the last train runs and while the
module waits for supply valid. -/
def requestWarm (m : Nat) (s : State) : State :=
  if s.rf Reg.sysStat 3 0 = 8 ∨ s.rf Reg.sysStat 3 0 = 9 ∨ s.boot.supplyOk = false then s
  else { s.append 0x005 0 4 [w32 m] with boot := { s.boot with warmReq := some m } }

/-! ## Transfers (R397 to R399) -/

/-- SEC_XFER and SEC_XFER_STAT of the transfer that ends, as the last one. -/
def xferLast (s : State) : State :=
  match s.sec.xfer with
  | some x => (s.setReg Reg.secXfer (w32 x.id)).setReg Reg.secXferStat (setBit (xferWord x s) 9 false)
  | none => s

/-- No transfer is active, and no cell of one waits to be pushed. -/
def xferDrop (s0 : State) : State :=
  let s := xferLast s0
  { s with sec := { s.sec with xfer := none }, fab := { s.fab with parcels := [] } }.setRb Reg.fabParcelStat 24 false

/-- The result of a transfer; FAB_PARCEL_STAT shows a failed one (R289, R399). -/
def xferResult (code : Nat) (s : State) : State :=
  let s1 := s.setRf Reg.secXferStat 23 16 code
  if code = 0 then s1 else (secEvt s1 2).setRb Reg.fabParcelStat 25 true

/-- The active transfer, if there is one, ends. -/
def xferEnd (code : Nat) (s : State) : State := if s.sec.xfer.isNone then s else xferResult code (xferDrop s)

/-- The slot that a transfer writes: the one that is not running; in siding mode the one that is not CONFIRMED, or slot A
(R397, R406). -/
def targetSlot (s : State) : Nat :=
  if s.boot.siding then (if s.sec.srec.stA = 4 ∧ s.sec.srec.stB ≠ 4 then 1 else 0) else 1 - s.image.slot

/-- Early check: always in siding mode (R397, R406). -/
def earlyCheck (s : State) : Bool := s.boot.siding || !(s.rb Reg.secUpdCfg 0)

/-- The result code of a transfer's header, 0 when it is accepted (R397). -/
def headerCode (s : State) (h : List Byte) : Nat :=
  if s.sec.retired then 0x0D
  else if (firstRefusal (headerChecks h)).isSome then 0x01
  else match (if earlyCheck s then firstRefusal (signatureChecks (selectedRoot s).toList h) else none) with
    | some (5, _) => 0x04
    | some _ => 0x05
    | none =>
      if hSeq h ≤ s.sec.srec.floor ∨ (s.image.loaded ∧ hSeq h = s.image.seq) then 0x08
      else if (trialSlot s.sec.srec).isSome then 0x09 else 0

/-- Accept a header: the slot becomes STAGING, the record is written, then the slot's sectors are erased and the header is stored
(R398, R456); a slot that holds the same header keeps its bytes. An erased byte reads as one never written (assumption 120).
FAB_PARCEL_STAT shows the transfer. -/
def xferAccept (h : List Byte) (x : Xfer) (s : State) : State :=
  let slot := targetSlot s
  let same := slotHeader s slot == h
  let s0 := ((s.setRf Reg.fabParcelStat 15 0 0).setRb Reg.fabParcelStat 24 true).setRb Reg.fabParcelStat 25 false
  let s1 := putRecord ((s.sec.srec.setSlot slot 1).setSlotSeq slot (hSeq h)) s0
  { s1 with
    store := memPut (if same then s1.store else memZero s1.store (slotBase slot) 0x1000000) (slotBase slot) h,
    sec := { s1.sec with xfer := some { x with slot := slot, bodyLen := hBodyLen h, total := hChunks h, early := earlyCheck s,
                                                same := same, hdr := true, got := sset [] x.got 0xFFFF [] } } }

/-- Refuse a header (R397): record 0xD01, and the transfer ends. -/
def xferRefuse (id code : Nat) (s : State) : State :=
  xferResult code (xferDrop (secRecLog s 0xD01 8 id [w32 id, w32 code]))

/-- The downstream links of a transfer; one fed by the object window is relayed when FAB_PARCEL_CFG.UPHOST is 1 (R288). -/
def downLinks (s : State) (x : Xfer) : List Nat :=
  if x.byHost && !(s.rb Reg.fabParcelCfg 4) then [] else bitsOf 8 (s.rf Reg.fabParcelCfg 15 8)

/-- Every downstream link has acknowledged the header and every chunk, or has ended the transfer for its subtree. -/
def relayDone (s : State) (x : Xfer) : Bool :=
  (downLinks s x).all (fun l => decide (sget 0 x.sent l = x.total + 1) && (sget [] x.unacked l).isEmpty)

/-- The last chunk is stored (R398): the slot becomes STORED with three tries; a RETIRED island refuses the record (R379), and the
transfer ends with that code. -/
def xferStored (x : Xfer) (s : State) : State :=
  if s.sec.retired then xferEnd 0x0D s else
  let s1 := putRecord { (s.sec.srec.setSlot x.slot 2) with tries := 0 } s
  let s2 := secRecLog (secEvt s1 1) 0xD03 4 x.slot [w32 x.slot, w32 (slotSeq s1.sec.srec x.slot)]
  { s2 with sec := { s2.sec with sidingStored := s2.sec.sidingStored || s2.boot.siding } }

/-- Store chunk `i` of the active transfer: 0, or 0x0A where early check refuses its hash (R397, R398). -/
def storeChunk (i : Nat) (bytes : List Byte) (x : Xfer) (s : State) : Nat × State :=
  let h := slotHeader s x.slot
  if x.early && !(chunkHash i bytes == hHash h i) then
    (0x0A, xferEnd 0x0A (secRecLog s 0xD02 8 i [w32 i, w32 0x0A]))
  else
    let a := slotBase x.slot + 0x2000 + 0x10000 * i
    let keep := x.early && x.same && (chunkHash i (slotChunk s x.slot h i) == hHash h i)
    let y := { x with stored := if x.stored.contains i then x.stored else x.stored ++ [i] }
    let s0 := s.setRf Reg.fabParcelStat 15 0 y.stored.length
    let s1 := { s0 with store := if keep then s.store else memPut s.store a bytes, sec := { s.sec with xfer := some y } }
    (0, if y.stored.length = y.total ∧ x.stored.length ≠ x.total then xferStored y s1 else s1)

/-! ## Slots (R393 to R396) -/

/-- A slot becomes FAILED (R394, R395): TRIES returns to 0 when it was the trial's; cause 1 refused, 2 tries, 3 rejected. -/
def slotFail (slot cause : Nat) (s : State) : State :=
  let st := slotState s.sec.srec slot
  let r := s.sec.srec.setSlot slot 6
  let s1 := putRecord (if st = 2 ∨ st = 3 then { r with tries := 0, trialMin := 0 } else r) s
  if st = 2 ∨ st = 3 then (secEvt s1 0x20).append 0xD05 0xD 12 [w32 slot, w32 cause] else s1

/-- The record after the confirmation of a slot (R396). -/
def confirmRec (r : SecRec) (slot : Nat) : SecRec :=
  let other := 1 - slot
  let r1 := if slotState r other = 4 then r.setSlot other 5 else r
  { (r1.setSlot slot 4) with floor := slotSeq r slot, tries := 0, trialMin := 0 }

/-- What a confirmation shows: SYS_STAT.TRIAL, SEC_EVT and record 0xD06; `how` is 0 for a message, 1 for the trial period. -/
def confirmShow (slot how : Nat) (s : State) : State :=
  (secEvt (s.setRb Reg.sysStat 4 false) 0x40).append 0xD06 0xD 6 [w32 slot, w32 how]

/-! ## Signed messages (Table 15-4) -/

def msgKind (m : List Byte) : Nat := fieldAt m 6 1
def msgLc (m : List Byte) : Nat := fieldAt m 7 1
def msgCounter (m : List Byte) : Nat := fieldAt m 8 8
def msgSeq (m : List Byte) : Nat := fieldAt m 0x40 8
def msgBodyLen (m : List Byte) : Nat := fieldAt m 0x48 4
def msgBody (m : List Byte) : List Byte := (m.drop 0x50).take (msgBodyLen m)

/-- The bytes that a message's own header states. -/
def msgLen (m : List Byte) : Nat := 0x50 + up16 (msgBodyLen m) + 1536

/-- The signature field of a message. -/
def msgSig (m : List Byte) : List Byte := (m.drop (0x50 + up16 (msgBodyLen m))).take 1536

/-- The body length of a kind; any for PRIVILEGED; none for a kind that is not listed (Table 15-6). -/
def kindBodyOk (kind len : Nat) : Bool :=
  match kind with
  | 1 => decide (len = 1793 + 1568 + 4)
  | 2 => decide (len = 1568 + 4)
  | 3 => decide (len = 1793)
  | 4 | 5 | 0x10 | 0x11 => decide (len = 0)
  | 0x12 => true
  | _ => false

/-- Check 1: format (R383). -/
def msgForm (m : List Byte) : Bool :=
  decide (0x50 ≤ m.length) && m.take 4 == asciiBytes "KVSM" && decide (fieldAt m 4 2 = 1) && decide (msgBodyLen m ≤ 4194304) &&
  decide (fieldAt m 0x4C 4 = 0) && decide (msgLen m ≤ m.length) && kindBodyOk (msgKind m) (msgBodyLen m) &&
  (decide (msgKind m = 0x10 ∨ msgKind m = 0x11) || decide (msgSeq m = 0)) &&
  zerosAt m (0x50 + msgBodyLen m) (up16 (msgBodyLen m) - msgBodyLen m) && (sigOf (msgSig m)).isSome

/-- Check 4: KIND in this state, LC, and a fuse left (Table 15-6). -/
def msgAccepted (s : State) (kind : Nat) : Bool :=
  match kind with
  | 1 => (lcOf s == 0 || lcOf s == 2) && decide (s.sec.lcn ≤ 28)
  | 2 | 3 => lcOf s == 1
  | 4 => lcOf s == 1 && decide (s.sec.lcn ≤ 29)
  | _ => lcOf s != 3

/-- Is another message, or an object of KIND 1, being processed (R388)? -/
def msgBusy (s : State) : Bool := s.sec.pend.isSome || (match s.sec.obj with | some o => o.kind == 1 | none => false)

/-! ## PRIVILEGED (R122, R403) -/

/-- The slot whose image a generation serves: the running one for the generation in use, else the slot its FOR_IMAGE_SEQ
names. -/
def servedSlot (s : State) (g : Nat) : Option Nat :=
  if g = s.rf Reg.sysCfg 0 0 then some s.image.slot
  else [0, 1].find? (fun x => slotState s.sec.srec x ≠ 0 && slotSeq s.sec.srec x == gFor (genHeaderAt s (genBase g)))

/-- The version that a generation carries of a privileged type: that of its own record, else what its image reads. -/
def genVersion (s : State) (g t : Nat) : Option Nat :=
  match (genRecords s (genBase g)).find? (fun r => r.type == t) with
  | some r => some r.version
  | none => match servedSlot s g with
    | some x => (schemaType (slotSchema s x) t).map (fun k => k.f0)
    | none => none

/-- The generations that a privileged change writes: both during a trial, else the running image's (R122). -/
def privTargets (s : State) : List Nat :=
  if (trialSlot s.sec.srec).isSome then [s.rf Reg.sysCfg 0 0, 1 - s.rf Reg.sysCfg 0 0] else [s.rf Reg.sysCfg 0 0]

/-- All records of a body in the form of R115, none where the body does not hold whole records. -/
def bodyRecords : Nat → List Byte → Option (List CRec)
  | 0, b => if b.isEmpty then some [] else none
  | n + 1, b =>
    if b.isEmpty then some [] else
    match takeRecord b with
    | none => none
    | some (r, rest) => (bodyRecords n rest).map (fun l => r :: l)

/-- The records of a PRIVILEGED message, none where one is malformed. -/
def privRecords (m : List Byte) : Option (List CRec) :=
  match bodyRecords (msgBodyLen m / 16) (msgBody m) with
  | none => none
  | some l => if l.all (fun r => decide (r.flags = 1) && privType r.type && r.padOk && crc32 r.items == r.crc &&
      (match itemsOf r with | some is => is.all (itemOk r.type) | none => false)) && !l.isEmpty then some l else none

/-- The record that a message carries for a generation in place of `k`, its TYPE and INSTANCE. -/
def privFor (s : State) (g : Nat) (l : List CRec) (k : CRec) : Option CRec :=
  l.find? (fun r => r.type == k.type && r.inst == k.inst && genVersion s g k.type == some r.version)

/-- Every target generation finds each changed record in its own version. -/
def privComplete (s : State) (l : List CRec) : Bool :=
  (privTargets s).all (fun g => genState s (genBase g) == .valid && l.all (fun k => (privFor s g l k).isSome))

/-- Insert or replace a record, in ascending order of TYPE and INSTANCE. -/
def putRec (k : CRec) : List CRec → List CRec
  | [] => [k]
  | r :: rs =>
    if r.type = k.type ∧ r.inst = k.inst then k :: rs
    else if r.type < k.type ∨ (r.type = k.type ∧ r.inst < k.inst) then r :: putRec k rs else k :: r :: rs

/-- A generation signed by the identity key: header and body (R113, R121, R403). -/
def signedGen (seq forSeq : Nat) (rs : List CRec) (s : State) : List Byte × State :=
  let body := (rs.map recordBytes).flatten
  let head := asciiBytes "KVCG" ++ leBytes 2 1 ++ leBytes 1 1 ++ leBytes 1 0 ++ leBytes 8 seq ++ leBytes 8 forSeq ++
    leBytes 4 body.length ++ leBytes 4 rs.length ++ keyIdOf identityPub ++ shake256 body 64 ++ List.replicate 1424 0#8
  let g := signIdentity head s
  (head ++ sigField g.1 ++ List.replicate 1024 0#8 ++ body, g.2)

/-- The build descriptor (Table 15-12). -/
def descriptor (g seq : Nat) : List Byte :=
  let d := [0x42#8, 0x44#8] ++ leBytes 1 g ++ leBytes 1 0 ++ leBytes 8 seq
  d ++ leBytes 4 (crc32 d).toNat

/-- Build, describe and copy one changed generation; the descriptor is erased at the end (R403). A generation whose FOR_IMAGE_SEQ
was 0, which SIGNER 1 forbids, takes the running image's IMAGE_SEQ: R122 does not say which (assumption 108). -/
def privWrite (l : List CRec) (s : State) (g : Nat) : State :=
  let h := genHeaderAt s (genBase g)
  let rs := l.foldl (fun acc k => match privFor s g l k with | some r => putRec r acc | none => acc) (genRecords s (genBase g))
  let forSeq := if gFor h = 0 then s.image.seq else gFor h
  let n := signedGen (gSeq h + 1) forSeq rs s
  let st := memPut (memPut (memZero n.2.store buildBase 0x400000) buildBase n.1) descBase (descriptor g (gSeq h + 1))
  { n.2 with store := memZero (memPut (memZero st (genBase g) 0x400000) (genBase g) n.1) descBase 0x10000 }

/-- Complete the copy of a build whose header and descriptor are valid, then erase the descriptor (R403, phase 2). -/
def completeBuild (s : State) : State :=
  let d := memBytes s.store descBase 16
  let g := fieldAt d 2 1
  let h := genHeaderAt s buildBase
  if d.take 2 == [0x42#8, 0x44#8] && decide (g ≤ 1) && decide (fieldAt d 3 1 = 0) &&
     (w32 (fieldAt d 12 4) == crc32 (d.take 12)) && decide (gSeq h = fieldAt d 4 8) && genState s buildBase == .valid then
    { s with store := memZero (memCopy s.store buildBase 0x400000 s.store (genBase g)) descBase 0x10000 }
  else { s with store := memZero s.store descBase 0x10000 }

/-! ## Effects (R378, R385) -/

/-- PREV_IMG_LIMIT and PREV_GEN_LIMIT as a change of the selected root records them (R378). -/
def rootLimits (s : State) (r : SecRec) : SecRec :=
  { r with prev := true, prevImg := max (max r.seqA r.seqB) r.floor,
           prevGen := ((validGens s).map (fun g => gSeq (genHeaderAt s (genBase g)))).foldl max 0,
           prevRoot := (selectedRoot s).getD [] }

/-- The ciphertext and EPOCH at an offset of a body, and the K_owner they give. -/
def newOwner (m : List Byte) (o : Nat) : Nat × List Byte :=
  let ct := ((msgBody m).drop o).take 1568
  let ep := fieldAt (msgBody m) (o + 1568) 4
  (ep, kOwnerOf (keyBytes 32 (Config.mlkemSecretByte ct)) (msgCounter m) ep)

/-- Check 8: the checks of the kind, as a result code. -/
def kindCode (s : State) (m : List Byte) : Nat :=
  let r := s.sec.srec
  match msgKind m with
  | 1 => if Config.mlkemFails (((msgBody m).drop 1793).take 1568) then 0x07 else 0
  | 2 => if Config.mlkemFails ((msgBody m).take 1568) ∨ (newOwner m 0).1 ≤ r.epoch then 0x07 else 0
  | 0x10 => match trialSlot r with
    | some x => if x = s.image.slot ∧ s.image.loaded ∧ slotSeq r x = msgSeq m then 0 else 0x08
    | none => 0x08
  | 0x11 => match trialSlot r with | some x => if slotSeq r x = msgSeq m then 0 else 0x08 | none => 0x08
  | 0x12 => match privRecords m with | some l => if privComplete s l then 0 else 0x0A | none => 0x0A
  | _ => 0

/-- The new record that an accepted message builds, and the new K_owner (R385, R386). -/
def newRecord (m : List Byte) (s : State) : SecPend × State :=
  let r := { s.sec.srec with counter := msgCounter m, seq := s.sec.srec.seq + 1, lcn := s.sec.lcn }
  match msgKind m with
  | 1 =>
    let o := newOwner m 1793
    let n := freeWords 4 s
    let nr : SecRec := { (rootLimits s r) with
      lcn := s.sec.lcn + 1, owner := true, epoch := o.1, ownerRoot := (msgBody m).take 1793,
      wrapped := wrapOwner (s.sec.lcn + 1) (wordBytes n.1) o.2 }
    ({ kind := 1, owner := some o.2, newRec := nr }, n.2)
  | 2 =>
    let o := newOwner m 0
    let n := freeWords 4 s
    let nr : SecRec := { r with owner := true, epoch := o.1, wrapped := wrapOwner s.sec.lcn (wordBytes n.1) o.2 }
    ({ kind := 2, owner := some o.2, newRec := nr }, n.2)
  | 3 => ({ kind := 3, owner := none, newRec := { (rootLimits s r) with ownerRoot := msgBody m } }, s)
  | 4 =>
    let nr : SecRec := { (rootLimits s r) with
      lcn := s.sec.lcn + 1, owner := false, epoch := 0, ownerRoot := [], wrapped := [] }
    ({ kind := 4, owner := none, newRec := nr }, s)
  | 0x10 => ({ kind := 0x10, owner := none, newRec := confirmRec r s.image.slot }, s)
  | 0x11 =>
    let nr : SecRec := { (r.setSlot ((trialSlot r).getD 0) 6) with tries := 0, trialMin := 0 }
    ({ kind := 0x11, owner := none, newRec := nr }, s)
  | k => ({ kind := k, owner := none, newRec := r }, s)

/-- The island checks a message in the order of R384, after R388: result code, and the state with the new record pending. -/
def islandMessage (m : List Byte) (s : State) : Nat × State :=
  if msgBusy s then (0x0E, s)
  else if !(msgForm m) then (0x01, s)
  else if s.sec.retired then (0x0D, s)
  else if !(((m.drop 0x10).take 32) == deviceId) then (0x02, s)
  else if !(msgAccepted s (msgKind m)) || decide (msgLc m ≠ s.sec.lcn) then (0x03, s)
  else match keyNamed (selectedRoot s).toList ((m.drop 0x30).take 16) with
    | none => (0x04, s)
    | some k =>
      if !(sigRight k (m.take (0x50 + up16 (msgBodyLen m))) (msgSig m)) then (0x05, s)
      else if msgCounter m ≤ s.sec.srec.counter then (0x06, s)
      else
        let c := kindCode s m
        if c ≠ 0 then (c, s)
        else let p := newRecord m s; (0, { p.2 with sec := { p.2.sec with pend := some p.1 } })

/-- A change of the selected root abandons any transfer and any open object (R388). -/
def rootAbandon (s : State) : State :=
  let s1 := xferEnd 0x0F s
  if s1.sec.obj.isNone then s1 else
  ({ s1 with sec := { s1.sec with obj := none, due := none, obuf := [] } }.setRf Reg.secObjStat 2 0 4).setRf Reg.secObjStat 15 8 0x0F

/-- The fuse that a kind blows (R386): record 0xD08 with the old and the new LCN; fuses 0 to 29 make up the count (R377). -/
def blowFuse (retire : Bool) (s : State) : State :=
  let s1 := if retire then { s with sec := { s.sec with retired := true } } else { s with sec := { s.sec with lcn := min 30 (s.sec.lcn + 1) } }
  (secEvt s1 0x80).append 0xD08 0xD 10 [lcShow s, lcShow s1]

/-- A new K_owner: at once after COMMISSION, from the next minor cycle after OWNER_SECRET, with the grace of R387. -/
def takeOwner (p : SecPend) (s : State) : State :=
  match p.owner with
  | none => s
  | some k =>
    let s1 := if p.kind = 2 ∧ s.eng.released then
        { s with sec := { s.sec with kDue := some (p.newRec.epoch, k), kPrev := s.sec.kOwner } }
      else { s with sec := { s.sec with kOwner := some (p.newRec.epoch, k), kDue := none,
                                        kPrev := if p.kind = 2 then s.sec.kOwner else none } }
    secRecLog (secEvt s1 0x100) 0xD09 8 0 [w32 p.newRec.epoch]

/-- The effect of a pending message once its record is written to a copy (R386). -/
def messageEffect (p : SecPend) (copy : Nat) (s : State) : State :=
  let s0 := { s with sec := { s.sec with srec := p.newRec, newest := some copy, pend := none } }
  let s1 := if p.kind = 0 then s0 else secEvt s0 4
  match p.kind with
  | 1 => takeOwner p (rootAbandon (blowFuse false (secEvt s1 0x100)))
  | 2 => takeOwner p s1
  | 3 => rootAbandon (secEvt s1 0x100)
  | 4 => rootAbandon (blowFuse false { (secEvt s1 0x100) with sec := { s1.sec with kOwner := none, kDue := none, kPrev := none } })
  | 5 => blowFuse true { s1 with sec := { s1.sec with kOwner := none, kDue := none, kPrev := none } }
  | 0x10 => confirmShow s.image.slot 0 s1
  | 0x11 => requestWarm 0 ((secEvt s1 0x20).append 0xD05 0xD 12 [w32 ((trialSlot s.sec.srec).getD 0), 3#32])
  | _ => s1

/-- A message or object is refused (R384, R408): counted, flagged, and recorded at every occurrence. -/
def refused (kind code : Nat) (s : State) : State :=
  (secEvt (s.satRf Reg.secCnt 31 16 1) 8).append 0xD07 0xD 8 [w32 kind, w32 code]

/-- The changed generations of a PRIVILEGED message are written, with record 0xD0D (R403, R408). -/
def privApply (m : List Byte) (s : State) : State :=
  let l := (privRecords m).getD []
  let n := (privTargets s).length
  secRecLog ((privTargets s).foldl (privWrite l) s) 0xD0D 6 l.length [w32 l.length, w32 n]

/-- Deliver a message whole: check, the changed generations of a PRIVILEGED one, the record, the effect. `ok` says that the
writes to the store and to FeRAM succeed (R386, R403). Answers the result code. -/
def deliver (m : List Byte) (ok : Bool) (s : State) : Nat × State :=
  let r := islandMessage m s
  if r.1 ≠ 0 then (r.1, secShow (refused (msgKind m) r.1 r.2))
  else match r.2.sec.pend with
    | none => (0, r.2)
    | some p =>
      if !ok then (0x0B, secShow (refused (msgKind m) 0x0B { r.2 with sec := { r.2.sec with pend := none } }))
      else
        let s1 := if p.kind = 0x12 then privApply m r.2 else r.2
        let c := nextCopy s1
        let s2 := { s1 with feram := memPut s1.feram (recAddr c) (recBytes p.newRec) }
        (0, secShow (messageEffect p c s2))

end Sys2Proof.Machine
end

