-- ==== Sys2Proof/Machine/Fabric.lean ====
section
/-! DEFINITION. The fabric's links: states, cells, slots, positions and fabric time (R255 to R276, R289 to R293). -/

namespace Sys2Proof.Machine

/-! ## Links, their registers and records -/

/-- A link before anything has happened on it. -/
def link0 : Link :=
  { swap := false, inv := false, agreed := false, exch := 0, nstr := 0x3F, repAt := 0, probAt := 0, tx := 0, rx := 0, bad := 0, count := 0, sent := [] }

def State.lk (s : State) (l : Nat) : Link := sget link0 s.fab.links l
def State.setLk (s : State) (l : Nat) (x : Link) : State := { s with fab := { s.fab with links := sset link0 s.fab.links l x } }

/-- STATE of a link (Table 10-3). -/
def lkState (s : State) (l : Nat) : Nat := s.rf (Reg.fabLkStat l) 2 0
def lkUp (s : State) (l : Nat) : Bool := lkState s l == 6
def lkEn (s : State) (l : Nat) : Bool := s.rb (Reg.fabLkCfg l) 0
def ownAddr (s : State) : Nat := s.rf Reg.fabPos 15 0

/-- A FAB log record (R293). -/
def fabRec (s : State) (code sev subject : Nat) (d : List Word) : State := s.logOnce code 7 sev subject d

/-- The RO registers of one link. -/
def linkRegs (l : Nat) : List Nat :=
  [Reg.fabLkStat l, Reg.fabLkDelay l, Reg.fabLkOffset l, Reg.fabLkViol l, Reg.fabLkErr0 l, Reg.fabLkErr1 l, Reg.fabLkRx l,
   Reg.fabLkTx l, Reg.fabLkDrop l, Reg.fabLkQuar l]

/-- The RO registers of the block itself. -/
def fabRegs : List Nat :=
  [Reg.fabStat, Reg.fabEvt, Reg.fabStatus, Reg.fabTimeStat, Reg.fabTimeOffset, Reg.fabTimeRate, Reg.fabTimeHold, Reg.fabRouteStat,
   Reg.fabDetours, Reg.fabCoalStat, Reg.fabCoalCnt, Reg.fabTnStat, Reg.fabRraStat, Reg.fabParcelStat]

/-- The fabric paths publish a link's registers and the block's (R255, R89). -/
def fabShow (l : Nat) (s : State) : State := s.republish (linkRegs l ++ fabRegs)

/-- FAB_STAT.UP and ISOL, and SYS_ADDR.ADDR_OK (R270). -/
def linksShow (s : State) : State :=
  let ls := List.range 8
  let up := maskOf (ls.filter (lkUp s))
  let isol := maskOf (ls.filter (fun l => lkState s l == 4 || lkState s l == 5))
  let held := ls.any (fun l => (lkState s l == 4 || lkState s l == 5) && (s.rf (Reg.fabLkStat l) 7 4 == 2 || s.rf (Reg.fabLkStat l) 7 4 == 3))
  let ok := ls.any (fun l => lkEn s l && (s.lk l).agreed) && !held
  ((s.setRf Reg.fabStat 7 0 up).setRf Reg.fabStat 15 8 isol).setRb Reg.sysAddr 16 ok

/-- A link changes its state: leaving UP and reaching UP are recorded (Table 10-20). -/
def setLkState (l st : Nat) (s : State) : State :=
  let old := lkState s l
  let s1 := s.setRf (Reg.fabLkStat l) 2 0 st
  let s2 := if old = 6 ∧ st ≠ 6 then fabRec (s1.orReg Reg.fabEvt 1) 0x701 8 l [w32 l, w32 st] else s1
  let s3 := if st = 6 ∧ old ≠ 6 then fabRec s2 0x703 4 l [w32 l, w32 (s2.rf (Reg.fabLkDelay l) 15 0)] else s2
  linksShow s3

/-- A link starts over: nothing agreed and no exchange counted (R259, R292). -/
def linkFresh (l : Nat) (s : State) : State :=
  s.setLk l { (s.lk l) with agreed := false, exch := 0, nstr := 0x3F, bad := 0, tx := 0, rx := 0 }

/-- A link enters QUARANTINE with a cause (R269, R270, R273). -/
def quarantine (l cause : Nat) (s : State) : State :=
  let enter := lkState s l ≠ 4
  let s1 := (s.setRf (Reg.fabLkStat l) 7 4 cause).setRf (Reg.fabLkStat l) 15 8 0
  if enter then
    let s2 := ((s1.satRf (Reg.fabLkQuar l) 15 0 1).orReg Reg.fabEvt 2).setLk l { (s1.lk l) with agreed := false, repAt := s1.fabTime }
    fabRec (setLkState l 4 s2) 0x702 10 l [w32 l, w32 cause]
  else linksShow (s1.setLk l { (s1.lk l) with agreed := false })

/-- A violation of a link (R270): `reg` and its bits name the error counter. -/
def violation (l reg hi lo : Nat) (s : State) : State :=
  let s1 := s.satRf reg hi lo 1
  match lkState s l with
  | 6 =>
    let s2 := ((s1.satRf (Reg.fabLkViol l) 15 0 1).satRf (Reg.fabLkViol l) 31 16 1)
    if s2.rf (Reg.fabLkViol l) 15 0 = 64 then quarantine l 1 s2 else s2
  | 5 => quarantine l 1 s1
  | _ => s1

/-! ## Link states (R259) -/

/-- LSTAT of a link island reports a change of the physical layer (R259); the spec gives the word no layout, so its value is free
(assumption 100). -/
def linkStatus (l : Nat) (s : State) : State := let f := s.free; sendIn (1 + l) 0 [f.1] f.2

/-- Signal on a DOWN link. -/
def linkSignalPresent (l : Nat) (s : State) : State := if lkState s l = 1 then fabShow l (setLkState l 2 (linkStatus l s)) else s

/-- LINK_SIGNAL_PRESENT. -/
def execLinkSignalPresent (l : Fin 8) (s : State) : Host.Outcome State Fault Refusal :=
  .next (if s.boot.prog then s else linkSignalPresent l.val s)

/-- Symbols aligned on a TRAINING link, its pairs swapped or not, and the polarity within a pair corrected or not (R449); link 8 is
the pair link, for which the spec gives no states (assumption 117). -/
def symbolsAligned (l : Nat) (swap inv : Bool) (s : State) : State :=
  if l = 8 then { s with pair := { s.pair with swap := swap, inv := inv } }
  else if lkState s l = 2 then
    let s1 := linkFresh l (linkStatus l s)
    fabShow l (setLkState l 3 (s1.setLk l { (s1.lk l) with swap := swap, inv := inv }))
  else s

/-- SYMBOLS_ALIGNED. -/
def execSymbolsAligned (l : Fin 9) (swap inverted : Bool) (s : State) : Host.Outcome State Fault Refusal :=
  .next (if s.boot.prog then s else symbolsAligned l.val swap inverted s)

/-- Loss of signal or of alignment: DOWN from any state except OFF. -/
def linkLoss (l : Nat) (s : State) : State :=
  if lkState s l = 0 ∨ lkState s l = 1 then s else fabShow l (setLkState l 1 (linkFresh l (linkStatus l s)))

/-- LINK_LOSS. -/
def execLinkLoss (l : Fin 8) (s : State) : Host.Outcome State Fault Refusal := .next (linkLoss l.val s)

/-- Every link at a start (R290): DOWN where it is enabled; one with EN = 0 stays OFF, as its STATE resets (Tables 10-3, 10-22). -/
def linksStart (s : State) : State :=
  linksShow ((List.range 8).foldl (fun t l => (linkFresh l t).setRf (Reg.fabLkStat l) 2 0 (if lkEn t l then 1 else 0)) s)

/-! ## Cells (R261) -/

def cDest (ws : List Word) : Nat := fld (ws.getD 0 0#32) 15 0
def cSrc (ws : List Word) : Nat := fld (ws.getD 0 0#32) 31 16
def cClass (ws : List Word) : Nat := fld (ws.getD 1 0#32) 1 0
def cPrio (ws : List Word) : Nat := fld (ws.getD 1 0#32) 3 2
def cTenant (ws : List Word) : Nat := fld (ws.getD 1 0#32) 15 8
def cType (ws : List Word) : Nat := fld (ws.getD 1 0#32) 23 16
def cTtl (ws : List Word) : Nat := fld (ws.getD 1 0#32) 31 24
def cFlags (ws : List Word) : Nat := fld (ws.getD 2 0#32) 31 16

/-- The 48 payload bytes of a cell. -/
def cPayload (ws : List Word) : List Byte := (wordBytes (ws.take 15)).drop 12

/-- The CRC over bytes 0 to 59. -/
def cellCrc (ws : List Word) : Word := crc32 (wordBytes (ws.take 15))

/-- A cell for the line: word 15 holds the CRC. -/
def cellLine (ws : List Word) : List Word := ws.take 15 ++ [cellCrc ws]

/-- A cell that the module originates: SEQ counts per TYPE and channel, TTL is 32, word 15 is 0 (R261, R278). -/
def mkCell (dest cls prio tenant type flags : Nat) (payload : List Byte) (s : State) : List Word × State :=
  let key := type * 256 + tenant
  let q := sget 0 s.fab.seq key
  let head := leBytes 2 dest ++ leBytes 2 (ownAddr s) ++ leBytes 1 (cls + 4 * prio) ++ leBytes 1 tenant ++ leBytes 1 type ++
    leBytes 1 32 ++ leBytes 2 q ++ leBytes 2 flags
  (bytesWords (head ++ padTo 48 payload) ++ [0#32], { s with fab := { s.fab with seq := sset 0 s.fab.seq key ((q + 1) % 65536) } })

/-- The classes that a TYPE allows, as bits; 0 for a TYPE that Table 10-7 does not list. -/
def typeClasses (t : Nat) : Nat :=
  if t = 0x03 then 2 else if t = 0x10 then 5 else if t = 0x40 then 8
  else if [0x01, 0x02, 0x11, 0x12, 0x20, 0x21, 0x30, 0x31, 0x32, 0x41, 0x42].contains t then 4
  else if 0x80 ≤ t ∧ t ≤ 0xBF then 5 else 0

/-- TYPE, CLASS and reserved header bits of a received cell (R262). -/
def cellForm (ws : List Word) : Bool :=
  (typeClasses (cType ws)).testBit (cClass ws) && decide (fld (ws.getD 1 0#32) 7 4 = 0) && decide (fld (ws.getD 2 0#32) 31 18 = 0)

/-- Does a state pass a TYPE (Table 10-3)? -/
def statePasses (st t : Nat) : Bool := decide (st = 6) || (decide (3 ≤ st) && decide (1 ≤ t ∧ t ≤ 3))

/-! ## Slots (R263 to R266) -/

/-- S, the slots of a minor cycle, and G (R263). -/
def slotsOf (s : State) : Nat := 12 * 2 ^ s.minorSel
def slotGap (s : State) : Nat := 8 * 2 ^ s.minorSel

/-- The fabric time at which a slot of this minor cycle begins. -/
def slotNs (s : State) (slot : Nat) : Nat := s.eng.slotBase + (slotGap s + 832 * slot) * 5 / 2

/-- The class of a slot of a link: 0 idle, 1 S, 2 T, 3 B (R264). -/
def slotCls (s : State) (l slot : Nat) : Nat := if slotsOf s ≤ slot then 0 else slotClass s.reg l slot

/-- Does a slot class admit the CLASS of a received cell (R266)? -/
def slotAdmits (sc cls : Nat) : Bool := (sc == 1 && cls == 0) || (sc == 2 && cls == 1) || (sc == 3 && (cls == 2 || cls == 3))

/-- The difference of two 64-bit times. -/
def tDiff (a b : Nat) : Int := sxt 64 (a % 2 ^ 64 + 2 ^ 64 - b % 2 ^ 64)

/-- OFFSET of a link, signed. -/
def lkOffset (s : State) (l : Nat) : Int := (s.reg (Reg.fabLkOffset l)).toInt

/-- Is a delimiter within 240 ns of the instant the island expects (R266)? -/
def inWindow (s : State) (l slot ts : Nat) : Bool :=
  decide ((tDiff ts (slotNs s slot) - ((s.rf (Reg.fabLkDelay l) 15 0 : Int) - lkOffset s l)).natAbs ≤ 240)

/-- The queue unit that takes a received CLASS (Table 10-4). -/
def rxUnit (cls : Nat) : Nat := if cls = 0 then 0 else 1

/-- Push a whole received cell, or discard it and count it (R260). -/
def rxPush (l : Nat) (ws : List Word) (s : State) : State :=
  let u := rxUnit (cClass ws)
  if 16 ≤ islandRoom s (1 + l) u then islandPush s (1 + l) u ws
  else fabRec ((s.satRf (Reg.fabLkDrop l) 15 0 1).orReg Reg.fabEvt 0x400) 0x70C 6 l [w32 l, w32 u]

/-- The two port words of a link timestamp (R272): port 1 RXTS, 3 TXTS. -/
def tsPorts (l k ts : Nat) (s : State) : State := sendIn (1 + l) k [w32 ts, w32 (ts / 2 ^ 32)] s

/-! ## The tag of a tenant cell (R32, R283) -/

/-- H: header bytes 0 to 11 with bytes 4, 7, 10 and 11 set to 0. -/
def tagHeader (ws : List Word) : List Byte :=
  ((wordBytes (ws.take 3)).zipIdx).map (fun p => if p.2 = 4 ∨ p.2 = 7 ∨ p.2 = 10 ∨ p.2 = 11 then 0#8 else p.1)

/-- The tag of a cell under an owner key with its epoch (R283). -/
def tagWith (k : Nat × List Byte) (chan : Nat) (ws : List Word) : List Byte :=
  kmac256 (kTenant k.2 k.1 chan) (tagHeader ws ++ (cPayload ws).take 40) 8 "KV1620 tenant cell"

/-- The tag that a received cell carries. -/
def cellTag (ws : List Word) : List Byte := (cPayload ws).drop 40

/-- The owner keys whose tags are accepted: the present one, and the one before during its grace (R387). -/
def tagKeys (s : State) : List (Nat × List Byte) := s.sec.kOwner.toList ++ (if s.sec.kOwner.isSome then s.sec.kPrev.toList else [])

/-- Is a received cell one that its receiver discards for its tag: of a tagged TYPE, for this module, and without TAGGED or with a
tag that no key gives (R32, R283, R284)? -/
def tagRefused (s : State) (ws : List Word) : Bool :=
  decide (0x10 ≤ cType ws) && decide (cType ws ≤ 0x12) && (decide (cDest ws = ownAddr s) || decide (cDest ws = 0xFFFF)) &&
  !(bit (ws.getD 2 0#32) 17 && (tagKeys s).any (fun k => tagWith k (cTenant ws) ws == cellTag ws))

/-- A received cell at its link island (R259 to R262, R266). A cell that is to be discarded for its tag refreshes no station (R32,
R249). -/
def cellReceive (l slot ts : Nat) (ws : List Word) (s : State) : State :=
  let st := lkState s l
  if st < 3 then s
  else if !(cellCrc ws == ws.getD 15 0#32) then fabShow l (violation l (Reg.fabLkErr0 l) 15 0 s)
  else if !(cellForm ws) then fabShow l (violation l (Reg.fabLkErr1 l) 15 0 s)
  else if !(statePasses st (cType ws)) then s
  else if s.eng.released && decide (5 ≤ st) && (!(inWindow s l slot ts) || !(slotAdmits (slotCls s l slot) (cClass ws))) then
    fabShow l (violation l (Reg.fabLkErr0 l) 31 16 s)
  else
    let s1 := s.addReg (Reg.fabLkRx l) 1
    let s2 := if cType ws = 3 then tsPorts l 1 ts (s1.setLk l { (s1.lk l) with rx := ts }) else s1
    let s3 := rxPush l (ws.take 15 ++ [w32 (slot % 128 + (ts % 2 ^ 24) * 256)]) s2
    fabShow l (if tagRefused s ws then s3 else stationRefresh 0 l (w32 (cSrc ws)) s3)

/-- CELL_RECEIVE. -/
def execCellReceive (l : Fin 8) (slot : Fin 128) (ts : BitVec 64) (ws : List Word) (s : State) : Host.Outcome State Fault Refusal :=
  guarded (.cellReceive l slot ts ws) (fun t => if t.boot.prog then t else cellReceive l.val slot.val ts.toNat ws t) s

/-- Words that a transmit unit of a link finds in its queue. -/
def txLevel (s : State) (l u : Nat) : Nat := match qOfCons s (epIsland (1 + l) u) with | some q => qLevel s q | none => 0

/-- The header words of the cell at the head of a transmit queue. -/
def txHead (s : State) (l u : Nat) : List Word :=
  match qOfCons s (epIsland (1 + l) u) with
  | some q => (List.range 3).map (fun k => (qFetch s q k).1)
  | none => []

/-- Pop `n` words from a queue by its consumer. -/
def popCell (q : Nat) : Nat → State → List Word × State
  | 0, s => ([], s)
  | n + 1, s => let a := qPopOut s q; let b := popCell q n a.2; (a.1 :: b.1, b.2)

/-- Pop the head cell of a transmit queue. -/
def txPop (l u : Nat) (s : State) : List Word × State :=
  match qOfCons s (epIsland (1 + l) u) with | some q => popCell q 16 s | none => ([], s)

/-- Off UP, the cells at the head of a transmit queue that are not of types 0x01 to 0x03 are discarded (R259). -/
def discardHeads (l u : Nat) : Nat → State → State
  | 0, s => s
  | n + 1, s =>
    if 16 ≤ txLevel s l u ∧ ¬(1 ≤ cType (txHead s l u) ∧ cType (txHead s l u) ≤ 3) then
      discardHeads l u n ((txPop l u s).2.satRf (Reg.fabLkDrop l) 15 0 1)
    else s

/-- The transmit queues of a link that is not UP. -/
def discardAll (l : Nat) (s : State) : State :=
  if lkUp s l then s else [2, 3, 4, 5].foldl (fun t u => discardHeads l u (txLevel t l u / 16) t) s

/-- A cell leaves on a link, with its CRC. -/
def cellSend (l : Nat) (ws : List Word) (s : State) : State :=
  (s.addReg (Reg.fabLkTx l) 1).setLk l { (s.lk l) with sent := cellLine ws }

/-- The fabric time in payload bytes 8 to 15 of a POSITION cell at its reference instant (Table 10-8). -/
def stampPosition (ts : Nat) (ws : List Word) : List Word :=
  if cType ws = 2 then ws.take 5 ++ [w32 ts, w32 (ts / 2 ^ 32)] ++ ws.drop 7 else ws

/-- Send the head cell of a transmit unit whose slot begins at `ts`. -/
def txSend (l u ts : Nat) (s : State) : State := let r := txPop l u s; cellSend l (stampPosition ts r.1) r.2

/-- STRATUM as the module states it, and the flags of a TIME cell (Table 10-10). -/
def ownStratum (s : State) : Nat := s.rf Reg.fabTimeStat 13 8
def timeFlags (s : State) : Nat := s.rf Reg.fabTimeStat 0 0 + 2 * s.rf Reg.fabTimeStat 1 1

/-- The TIME cell that the island builds, and its sending at `ts` (R268, R272): RXT is the receive time of a TIME cell that came since
the last one was sent, 0 when none did. -/
def timeSend (l ts : Nat) (s : State) : State :=
  let x := s.lk l
  let p := leBytes 8 ts ++ leBytes 8 x.rx ++ leBytes 1 (ownStratum s) ++ leBytes 1 (timeFlags s) ++ leBytes 2 x.count
  let c := mkCell 0xFFFF 1 0 0 3 0 p s
  let s1 := cellSend l c.1 c.2
  tsPorts l 3 ts (s1.setLk l { (s1.lk l) with tx := ts, rx := 0, count := (x.count + 1) % 65536 })

/-- Is the cell at the head of a transmit unit of the class given, and whole? -/
def txReady (s : State) (l u cls : Nat) : Bool := decide (16 ≤ txLevel s l u) && decide (cClass (txHead s l u) = cls)

/-- The minor cycle that T slots count: m, or in a last train, while m stands, the islands' own (R290). -/
def slotM (s : State) : Nat := if s.rb Reg.tteStat 0 then s.m else s.eng.slotBase % 1000000000 / s.minorNs

/-- The start of a slot of a link (R259, R260, R264). -/
def slotStart (l slot : Nat) (s0 : State) : State :=
  if !s0.eng.released then s0 else
  let s := discardAll l s0
  let st := lkState s l
  if st < 3 then fabShow l s else
  let ts := slotNs s slot
  fabShow l (match slotCls s l slot with
  | 1 =>
    if txReady s l 2 0 then txSend l 2 ts s
    else if txLevel s l 2 < 16 then
      fabRec ((s.satRf (Reg.fabLkDrop l) 31 16 1).orReg Reg.fabEvt 0x200) 0x70B 8 l [w32 l, w32 slot]
    else s
  | 2 => if slotM s % 2 ^ s.rf Reg.fabTimeCfg 2 0 = 0 then timeSend l ts s else s
  | 3 =>
    if txReady s l 3 2 then txSend l 3 ts s
    else if txReady s l 4 2 then txSend l 4 ts s
    else if txLevel s l 3 = 0 ∧ txLevel s l 4 = 0 ∧ txReady s l 5 3 then txSend l 5 ts s
    else s
  | _ => s)

/-- SLOT_START. -/
def execSlotStart (l : Fin 8) (slot : Fin 96) (s : State) : Host.Outcome State Fault Refusal :=
  .next (if s.boot.prog then s else slotStart l.val slot.val s)

/-! ## Identity and position (R267 to R269) -/

/-- MAPHASH of a link (R267). -/
def mapHash (s : State) (l : Nat) : List Byte :=
  shake256 (((List.range 8).map (fun g => wordBytes [s.reg (Reg.fabLkSlotmap l g)])).flatten ++ leBytes 1 s.image.minor) 8

/-- Push a whole cell into the queue of a transmit unit, when it fits (R260). -/
def txPush (l u : Nat) (ws : List Word) (s : State) : State :=
  match qOfCons s (epIsland (1 + l) u) with
  | some q => if qLevel s q + 16 ≤ qSize s q then qPushAll s (qProd s q) q ws else s
  | none => s

/-- IDENTITY and POSITION payloads (Table 10-8). -/
def identityPayload (s : State) (l : Nat) : List Byte :=
  wordBytes [s.reg Reg.sysSerialLo, s.reg Reg.sysSerialHi, s.reg Reg.sysId] ++ leBytes 8 s.image.seq ++ mapHash s l
def positionPayload (s : State) (l : Nat) : List Byte :=
  leBytes 2 (ownAddr s) ++ leBytes 1 l ++ [0#8] ++ leBytes 2 (s.rf (Reg.fabLkNbr l) 15 0) ++ leBytes 1 (s.rf (Reg.fabLkNbr l) 18 16) ++
  leBytes 1 (ownStratum s) ++ leBytes 8 s.fabTime

/-- One IDENTITY and one POSITION cell (R268): through TXB0, or by the ROM before release (R266). -/
def identityPositionSend (l : Nat) (s : State) : State :=
  if lkState s l < 3 then s else
  let a := mkCell 0xFFFF 2 0 0 1 0 (identityPayload s l) s
  let b := mkCell 0xFFFF 2 0 0 2 0 (positionPayload s l) a.2
  if s.eng.released then txPush l 3 b.1 (txPush l 3 a.1 b.2) else fabShow l (cellSend l b.1 (cellSend l a.1 b.2))

/-- IDENTITY_POSITION_SEND. -/
def execIdentityPositionSend (l : Fin 8) (s : State) : Host.Outcome State Fault Refusal :=
  .next (if s.boot.prog then s else identityPositionSend l.val s)

/-- DISCOVERY ends in UP once the position is agreed and two exchanges are complete (Table 10-3). -/
def discoveryUp (l : Nat) (s : State) : State :=
  if lkState s l = 3 ∧ (s.lk l).agreed ∧ 2 ≤ (s.lk l).exch then setLkState l 6 s else s

/-- The cause of the first failed check of R269, 0 when all hold. -/
def positionCause (s : State) (l addr nlink expAddr expLink hash : Nat) : Nat :=
  if addr ≠ s.rf (Reg.fabLkNbr l) 15 0 then 2
  else if s.rb (Reg.fabLkNbr l) 19 then 0
  else if nlink ≠ s.rf (Reg.fabLkNbr l) 18 16 ∨ expAddr ≠ ownAddr s ∨ expLink ≠ l then 3
  else if hash ≠ leNat (mapHash s l) then 4 else 0

/-- A received POSITION cell against the link's expectations (R268, R269). -/
def position (l addr nlink expAddr expLink hash stratum : Nat) (s0 : State) : State :=
  let st := lkState s0 l
  if st < 3 then s0 else
  let s := s0.setLk l { (s0.lk l) with nstr := stratum }
  let cause := positionCause s l addr nlink expAddr expLink hash
  let x := s.lk l
  let due : Bool := decide (x.repAt + 1000000000 ≤ s.fabTime) || decide (s.fabTime < x.repAt)
  if cause ≠ 0 then
    let s1 := if due then s.setLk l { x with repAt := s.fabTime } else s
    fabShow l (fabRec (quarantine l cause (s1.orReg Reg.fabEvt 4)) 0x704 12 l [w32 l, w32 addr])
  else
    match st with
    | 4 =>
      if due then
        fabShow l (setLkState l 5 (s.setLk l { x with agreed := true, repAt := s.fabTime, probAt := s.fabTime }))
      else s
    | _ => fabShow l (discoveryUp l (linksShow (s.setLk l { x with agreed := true })))

/-- POSITION. -/
def execPosition (l : Fin 8) (addr : BitVec 16) (nlink : BitVec 8) (expAddr : BitVec 16) (expLink : BitVec 8) (hash : BitVec 64)
    (stratum : BitVec 8) (s : State) : Host.Outcome State Fault Refusal :=
  .next (if s.boot.prog then s else position l.val addr.toNat nlink.toNat expAddr.toNat expLink.toNat hash.toNat stratum.toNat s)

/-- Ten clean seconds in PROBATION (Table 10-3). -/
def probationClean (l : Nat) (s : State) : State :=
  if lkState s l = 5 then fabShow l (setLkState l 6 (s.setRf (Reg.fabLkStat l) 15 8 10)) else s

/-- PROBATION_CLEAN. -/
def execProbationClean (l : Fin 8) (s : State) : Host.Outcome State Fault Refusal :=
  .next (if s.boot.prog then s else probationClean l.val s)

/-! ## Fabric time (R271 to R275) -/

/-- The parent link, and whether it is the alternate (R271). -/
def parentOf (s : State) : Option (Nat × Bool) :=
  let tp := s.reg Reg.fabTparent
  let good (l : Nat) : Bool := lkUp s l && decide ((s.lk l).nstr < 31)
  if bit tp 3 && good (fld tp 2 0) then some (fld tp 2 0, false)
  else if bit tp 7 && good (fld tp 6 4) then some (fld tp 6 4, true) else none

def isRoot (s : State) : Bool := s.rb Reg.fabPos 17

/-- Does FAB_TPARENT name an EXTERNAL link (R270, R275)? -/
def externalParent (s : State) : Bool :=
  let tp := s.reg Reg.fabTparent
  (bit tp 3 && s.rb (Reg.fabLkNbr (fld tp 2 0)) 19) || (bit tp 7 && s.rb (Reg.fabLkNbr (fld tp 6 4)) 19)

/-- A fraction rounded to a whole number; the spec does not say which way (assumption 31). -/
def roundFree (n : Int) (d : Nat) (s : State) : Int × State :=
  if n % (d : Int) = 0 then (n / (d : Int), s) else let f := s.free; (n / (d : Int) + (fld f.1 0 0 : Int), f.2)

/-- Clamp a fraction to ±100,000. -/
def clampPpb (n : Int) (d : Nat) : Int × Nat :=
  if (100000 * d : Int) < n then (100000, 1) else if n < -(100000 * d : Int) then (-100000, 1)
  else let g := Nat.gcd n.natAbs d; if g = 0 then (n, d) else (n / (g : Int), d / g)

/-- freq − θ × 10^9 / (k × dT), clamped, with θ given twice over (R274). -/
def servoTerm (fn : Int) (fd : Nat) (theta2 : Int) (k dT : Nat) : Int × Nat :=
  clampPpb (fn * (2 * k * dT : Nat) - theta2 * 1000000000 * (fd : Int)) (fd * (2 * k * dT))

/-- The rate in force (FAB_TIME_RATE). -/
def showRate (n : Int) (d : Nat) (s : State) : State :=
  let r := roundFree n d s
  r.2.setReg Reg.fabTimeRate (w32i r.1)

/-- FAB_STAT and FAB_TIME_STAT show LOCKED, HOLDOVER and TIME_SPLIT at bits 16 to 18 and 0 to 2. -/
def timeBit (i : Nat) (b : Bool) (s : State) : State := (s.setRb Reg.fabStat (16 + i) b).setRb Reg.fabTimeStat i b

/-- LOCKED is reached (R275): record 0x706. -/
def lockShow (s : State) : State :=
  if s.rb Reg.fabStat 16 then s
  else fabRec (timeBit 0 true s) 0x706 4 (ownStratum s) [w32 (ownStratum s), s.reg Reg.fabTimeOffset]

/-- ROOT, PARENT, ALT and STRATUM (R270, R271); a root without an EXTERNAL parent is LOCKED (R275). -/
def timeShow (s : State) : State :=
  let s1 := s.setRb Reg.fabTimeStat 3 (isRoot s)
  let s2 := match parentOf s with
    | some (l, alt) =>
      let s3 := (s1.setRf Reg.fabTimeStat 6 4 l).setRb Reg.fabTimeStat 7 alt
      ({ s3 with fab := { s3.fab with parent := l } }).setRf Reg.fabTimeStat 13 8 (if isRoot s then 0 else (s.lk l).nstr + 1)
    | none =>
      let s3 := s1.setRf Reg.fabTimeStat 7 4 0
      if isRoot s then s3.setRf Reg.fabTimeStat 13 8 0 else s3
  if isRoot s && !(externalParent s) then lockShow s2 else s2

/-- LOCKED after an exchange on the parent link (R275); record 0x706 as it is reached. -/
def lockStep (s : State) : State :=
  let a := s.fab.theta2.natAbs
  let good := if a ≤ 40 then s.fab.good + 1 else 0
  let far := if 200 < a then s.fab.far + 1 else 0
  let s1 := { s with fab := { s.fab with good := good, far := far } }
  if 8 ≤ good then lockShow s1
  else if 4 ≤ far ∧ (!(isRoot s) || externalParent s) then timeBit 0 false s1 else s1

/-- The correction of R274 at a parent exchange. -/
def timeServo (t2 : Nat) (s : State) : State :=
  let th := s.fab.theta2
  if !s.eng.released && decide (2000 < th.natAbs) then
    let r := roundFree th 2 s
    let s1 := fabRec r.2 0x70F 4 (w32i r.1).toNat [w32i r.1, w32i (r.1 / 2 ^ 32)]
    { s1 with fabTime := ((s1.fabTime : Int) - r.1).toNat,
              fab := { s1.fab with freqN := 0, freqD := 1, lastPar := some ((t2 : Int) - r.1).toNat } }
  else if s.eng.released && decide (2000000 < th.natAbs) then
    let s1 := fabRec (s.orReg Reg.fabEvt 0x10) 0x707 12 s.fab.parent [w32 s.fab.parent, s.reg Reg.fabTimeOffset]
    { (timeBit 2 true s1) with fab := { s1.fab with lastPar := some t2 } }
  else
    let s1 := timeBit 2 false s
    let dT := match s.fab.lastPar with | some p => (tDiff t2 p).toNat | none => 0
    if dT = 0 then
      let f := s1.free
      let fq := clampPpb f.1.toInt 1
      let g := f.2.free
      let s2 := { g.2 with fab := { g.2.fab with freqN := fq.1, freqD := 1, lastPar := some t2 } }
      s2.setReg Reg.fabTimeRate (w32i (clampPpb g.1.toInt 1).1)
    else
      let fq := servoTerm s.fab.freqN s.fab.freqD th 16 dT
      let rt := servoTerm fq.1 fq.2 th 2 dT
      showRate rt.1 rt.2 { s1 with fab := { s1.fab with freqN := fq.1, freqD := fq.2, lastPar := some t2 } }

/-- A completed parent exchange: θ shown, time corrected, LOCKED decided, holdover ended (R274, R275). -/
def parentExchange (l t2 : Nat) (theta2 : Int) (s : State) : State :=
  let s0 := { s with fab := { s.fab with theta2 := theta2, parent := l } }
  let r := roundFree theta2 2 s0
  let s1 := (r.2.setReg Reg.fabTimeOffset (w32i r.1)).setRf Reg.fabTimeStat 31 16 (s.rf Reg.fabTimeStat 31 16 + 1)
  let s2 := (timeBit 1 false s1).setReg Reg.fabTimeHold 0#32
  lockStep (timeServo t2 s2)

/-- Consecutive exchanges beyond 1,000 ns (R273), θ given twice over. -/
def exchBad (theta2 : Int) (x : Link) : Nat := if 2000 < theta2.natAbs then x.bad + 1 else 0

/-- The exchange on link `l`, if that is the parent link (R274). -/
def onParent (l t2 : Nat) (theta2 : Int) (s : State) : State :=
  match parentOf s with
  | some (p, _) => if p = l then parentExchange l t2 theta2 s else s
  | none => s

/-- FAB_LKl_DELAY: the round trip modulo 2^16 (R273). -/
def delayField (d : Int) : Nat := (d % 65536).toNat

/-- An exchange completes on a link (R273): θ, DELAY and OFFSET; with RXT 0 there is no previous exchange to take it from. -/
def timeExchange (l t1 t2 t3 t4 stratum : Nat) (s0 : State) : State :=
  if lkState s0 l < 3 then s0 else
  let s := s0.setLk l { (s0.lk l) with nstr := stratum }
  if t4 = 0 then fabShow l (timeShow s) else
  let a := tDiff t2 t1
  let b := tDiff t4 t3
  let off := roundFree (b - a) 2 s
  let del := roundFree (a + b) 2 off.2
  let s1 := (del.2.setReg (Reg.fabLkOffset l) (w32i off.1)).setRf (Reg.fabLkDelay l) 15 0 (delayField del.1)
  let x := s1.lk l
  let bad := exchBad (a - b) x
  let s2 := timeShow (discoveryUp l (s1.setLk l { x with exch := x.exch + 1, bad := bad }))
  let s3 := onParent l t2 (a - b) s2
  fabShow l (timeShow (if 8 ≤ bad ∧ lkState s3 l ≠ 4 then quarantine l 5 s3 else s3))

/-- TIME_EXCHANGE. -/
def execTimeExchange (l : Fin 8) (t1 t2 t3 t4 : BitVec 64) (stratum : BitVec 8) (s : State) : Host.Outcome State Fault Refusal :=
  .next (if s.boot.prog then s else timeExchange l.val t1.toNat t2.toNat t3.toNat t4.toNat stratum.toNat s)

/-- The module enters holdover (R275): the PLL runs at the last freq. -/
def holdover (s : State) : State :=
  if isRoot s ∨ s.rb Reg.fabStat 17 then s else
  let s1 := showRate s.fab.freqN s.fab.freqD (timeBit 1 true (s.orReg Reg.fabEvt 8))
  let s2 := { s1 with fab := { s1.fab with holdAt := s1.fabTime } }
  (fabRec s2 0x705 10 s2.fab.parent [w32 s2.fab.parent, s2.reg Reg.fabTimeOffset]).republish fabRegs

/-- HOLDOVER. -/
def execHoldover (s : State) : Host.Outcome State Fault Refusal := .next (if s.boot.prog then s else holdover s)

/-- The ROM sends a TIME cell on a link every 1 ms before release (R290). -/
def timeCellBeforeRelease (l : Nat) (s : State) : State :=
  if s.eng.released ∨ lkState s l < 3 then s else fabShow l (timeSend l s.fabTime s)

/-- TIME_CELL_SEND_BEFORE_RELEASE. -/
def execTimeCellSendBeforeRelease (l : Fin 8) (s : State) : Host.Outcome State Fault Refusal :=
  .next (if s.boot.prog then s else timeCellBeforeRelease l.val s)

/-! ## Hooks of the minor cycle and of a commit -/

/-- A commit of block 7 (R259, R292): links switched on or off, and changed slot maps of enabled links. -/
def fabCommitted (before s : State) : State :=
  (List.range 8).foldl (fun t l =>
    let on := lkEn before l
    let changed := (List.range 8).any (fun g => !(before.reg (Reg.fabLkSlotmap l g) == s.reg (Reg.fabLkSlotmap l g)))
    fabShow l (
      if !(lkEn t l) then (if on then setLkState l 0 (linkFresh l t) else t)
      else if !on then setLkState l 1 (linkFresh l t)
      else if changed && decide (3 ≤ lkState t l) then setLkState l 3 (linkFresh l t) else t)) (timeShow s)

/-- What the fabric paths keep at each minor cycle: MS in holdover and CLEAN, and MAJOR at a new major cycle. -/
def fabBoundary (newMajor : Bool) (s : State) : State :=
  let s1 := if s.rb Reg.fabStat 17 then
      s.setReg Reg.fabTimeHold (w32 (min ((s.fabTime - s.fab.holdAt) / 1000000) 0xFFFFFFFF)) else s
  (List.range 8).foldl (fun t l =>
    let u := if newMajor then t.setRf (Reg.fabLkViol l) 15 0 0 else t
    if lkState u l = 5 then u.setRf (Reg.fabLkStat l) 15 8 (min ((u.fabTime - (u.lk l).probAt) / 1000000000) 10) else u) s1

/-- The commit point of block 7: fabric time at core cycle 0 of the minor cycle (FAB_TIME_LO, _HI). -/
def fabWindow (s : State) : State :=
  (s.publish [(Reg.fabTimeLo, w32 s.eng.fabLatch), (Reg.fabTimeHi, w32 (s.eng.fabLatch / 2 ^ 32))]).republish fabRegs

end Sys2Proof.Machine
end

