-- ==== Sys2Proof/Machine/FabRoute.lean ====
section
/-! DEFINITION. Routing, status and fault reports with coalescing, and tenant channels (R277 to R284). -/

namespace Sys2Proof.Machine

/-! ## Routing (R277 to R279) -/

/-- The route entry for a destination: the floor table, or on the module's own floor the local table (R278). -/
def routeEntry (s : State) (dest : Nat) : Word :=
  if dest / 256 ≠ ownAddr s / 256 then memW s.data (0x1B0000 + 4 * (dest / 256)) else memW s.data (0x1B0400 + 4 * (dest % 256))

/-- The link a cell leaves on, and whether it is a detour. -/
def routeLink (s : State) (dest : Nat) : Option (Nat × Bool) :=
  let e := routeEntry s dest
  if bit e 3 && lkUp s (fld e 2 0) then some (fld e 2 0, false)
  else if bit e 7 && lkUp s (fld e 6 4) then some (fld e 6 4, true) else none

/-- The transmit unit of a class and priority (Table 10-4); a T cell has none. -/
def txUnit (cls prio : Nat) : Option Nat :=
  match cls with
  | 0 => some 2
  | 2 => some (if prio = 0 then 3 else 4)
  | 3 => some 5
  | _ => none

/-- A cell as it leaves on a detour: DETOURED set, an S cell made class B, PRIO 1 (R278, R279). -/
def detoured (ws : List Word) : List Word :=
  let w1 := ws.getD 1 0#32
  let w := if fld w1 1 0 = 0 then setFld w1 3 0 6 else w1
  ws.take 1 ++ [w, setBit (ws.getD 2 0#32) 16 true] ++ ws.drop 3

/-- Send a cell by the tables, its TTL already set (R278, R279); word 15 is 0 (R261). -/
def sendByTable (ws : List Word) (s : State) : State :=
  match routeLink s (cDest ws) with
  | some (l, det) =>
    let c := (if det then detoured ws else ws).take 15 ++ [0#32]
    let s1 := match txUnit (cClass c) (cPrio c) with | some u => txPush l u c s | none => s
    if det then s1.addReg Reg.fabDetours 1 else s1
  | none =>
    fabRec ((s.satRf Reg.fabRouteStat 15 0 1).orReg Reg.fabEvt 0x20) 0x708 6 (cDest ws) [w32 (cDest ws), w32 (cClass ws)]

/-- A cell originated (`arrival` none) or received: for one link, delivered, or routed on (R278). -/
def routeCell (arrival : Option Nat) (ws : List Word) (s : State) : State :=
  if cDest ws = 0xFFFF ∨ cDest ws = ownAddr s then s else
  match arrival with
  | none => (sendByTable (ws.take 1 ++ [setFld (ws.getD 1 0#32) 31 24 32] ++ ws.drop 2) s).republish fabRegs
  | some l =>
    if cTtl ws ≤ 1 then fabShow l (violation l (Reg.fabLkErr1 l) 31 16 s)
    else fabShow l (sendByTable (ws.take 1 ++ [setFld (ws.getD 1 0#32) 31 24 (cTtl ws - 1)] ++ ws.drop 2) s)

/-- ROUTE_CELL. -/
def execRouteCell (arrival : Option (Fin 8)) (ws : List Word) (s : State) : Host.Outcome State Fault Refusal :=
  guarded (.routeCell arrival ws) (fun t => if t.boot.prog then t else routeCell (arrival.map Fin.val) ws t) s

/-- A PRIO of class B that the spec does not state (assumption 32). -/
def freePrio (s : State) : Nat × State := let f := s.free; (fld f.1 1 0, f.2)

/-- Originate a class B cell whose PRIO the spec leaves open. -/
def originate (dest tenant type flags : Nat) (payload : List Byte) (s : State) : State :=
  let p := freePrio s
  let c := mkCell dest 2 p.1 tenant type flags payload p.2
  routeCell none c.1 c.2

/-! ## Status (R280) -/

/-- The status word (Table 10-13). -/
def statusWord (s : State) : Nat :=
  let deg := (List.range 8).any (fun l => lkEn s l && !(lkUp s l))
  s.rf Reg.ctlStat 0 0 + 2 * s.rf Reg.fabStat 16 16 + 4 * s.rf Reg.fabStat 17 17 + 8 * s.rf Reg.fabStat 18 18 +
  16 * s.rf Reg.pwrStat 3 3 + 32 * s.rf Reg.pwrStat 4 4 + 64 * fld s.tteStatNow 6 6 + 128 * b2n deg +
  256 * s.rf Reg.sysStat 4 4 + 512 * s.rf Reg.ctlStat 2 2 + 1024 * b2n (s.rf Reg.parStat 2 0 == 4)

/-- One STATUS cell to FAULT_DEST, and FAB_STATUS published (R280). -/
def statusReport (s : State) : State :=
  let w := statusWord s
  let s1 := s.publish [(Reg.fabStatus, w32 w)]
  if !(s1.rb Reg.fabFaultDest 16) then s1 else
  let p := leBytes 4 w ++ leBytes 8 s1.fabTime ++ leBytes 8 s1.image.seq ++ wordBytes [s1.reg Reg.sysStat]
  originate (s1.rf Reg.fabFaultDest 15 0) 0 0x21 0 p s1

/-- STATUS_REPORT. -/
def execStatusReport (s : State) : Host.Outcome State Fault Refusal := .next (if s.boot.prog then s else statusReport s)

/-! ## Fault reports (R281, R282) -/

/-- A FAULT payload (Table 10-14). -/
structure FaultRep where
  subject : Nat
  fclass : Nat
  summary : Bool
  sat : Bool
  count : Nat
  wits : List Nat
  first : Nat
  detail : List Byte
  deriving DecidableEq, Repr

/-- The payload bytes of a report. -/
def faultBytes (r : FaultRep) : List Byte :=
  leBytes 2 r.subject ++ leBytes 1 r.fclass ++ leBytes 1 (b2n r.summary + 2 * b2n r.sat) ++ leBytes 2 r.count ++
  leBytes 1 r.wits.length ++ [0#8] ++ ((List.range 4).map (fun i => leBytes 2 (r.wits.getD i 0xFFFF))).flatten ++ leBytes 8 r.first ++ r.detail

/-- The report of a received FAULT cell. -/
def faultOf (ws : List Word) : FaultRep :=
  let p := cPayload ws
  { subject := fieldAt p 0 2, fclass := fieldAt p 2 1, summary := (fieldAt p 3 1).testBit 0, sat := (fieldAt p 3 1).testBit 1,
    count := fieldAt p 4 2, wits := (List.range (min (fieldAt p 6 1) 4)).map (fun i => fieldAt p (8 + 2 * i) 2),
    first := fieldAt p 16 8, detail := p.drop 24 }

/-- INUSE of the coalescing table. -/
def coalShow (s : State) : State := (s.setRf Reg.fabCoalStat 8 0 s.fab.coal.length).republish fabRegs

def coalGet (s : State) (i : Nat) : Option Coal := (s.fab.coal.find? (fun e => e.1 == i)).map (fun e => e.2)

/-- The entries of the table, written without a value that stands for none. -/
def coalPut (s : State) (i : Nat) (e : Option Coal) : State :=
  let add := match e with | some x => [(i, x)] | none => []
  { s with fab := { s.fab with
      coal := s.fab.coal.filter (fun k => decide (k.1 < i)) ++ add ++ s.fab.coal.filter (fun k => decide (i < k.1)) } }

/-- Flush one entry: its summary, when something was absorbed, and the entry is freed (R282). -/
def coalFlush (i : Nat) (s : State) : State :=
  match coalGet s i with
  | none => s
  | some e =>
    let s1 := coalPut s i none
    if e.absorbed = 0 then s1 else
    let r : FaultRep := { subject := e.subject, fclass := e.fclass, summary := true, sat := e.sat, count := e.absorbed,
                          wits := e.wits, first := e.first, detail := e.detail }
    let s2 := s1.setRf Reg.fabCoalCnt 31 16 (s1.rf Reg.fabCoalCnt 31 16 + 1)
    originate e.dest 0 0x20 0 (faultBytes r) s2

/-- The oldest entry: earliest start, then lowest index. -/
def coalOldest : Sparse Coal → Option (Nat × Coal)
  | [] => none
  | e :: es => match coalOldest es with
    | some o => if o.2.start < e.2.start then some o else some e
    | none => some e

/-- Room for a new entry: a full table flushes its oldest one early (R282). -/
def coalRoom (s : State) : State :=
  if s.fab.coal.length < 256 then s else
  match coalOldest s.fab.coal with
  | none => s
  | some (i, e) =>
    let s1 := coalFlush i ((s.orReg Reg.fabEvt 0x80).satRf Reg.fabCoalStat 31 16 1)
    fabRec s1 0x70A 6 e.subject [w32 e.subject, w32 e.fclass]

/-- Append witnesses, skipping duplicates, until four are held. -/
def addWits (w : List Nat) : List Nat → List Nat
  | [] => w
  | x :: xs => addWits (if w.contains x || decide (4 ≤ w.length) then w else w ++ [x]) xs

/-- A report at the coalescing path; `send` sends it unchanged and `dest` is where it goes (R282). -/
def coalesce (r : FaultRep) (dest : Nat) (send : State → State) (s : State) : State :=
  match s.fab.coal.find? (fun e => e.2.subject == r.subject && e.2.fclass == r.fclass) with
  | none =>
    let s1 := coalRoom s
    let i := ((List.range 256).find? (fun k => (coalGet s1 k).isNone)).getD 0
    let e : Coal := { subject := r.subject, fclass := r.fclass, start := s1.fabTime, absorbed := 0, sat := false, wits := [],
                      first := r.first, detail := r.detail, dest := dest }
    let s2 := coalPut s1 i (some e)
    coalShow (send (s2.setRf Reg.fabCoalCnt 15 0 (s2.rf Reg.fabCoalCnt 15 0 + 1)))
  | some (i, e) =>
    let a := min (e.absorbed + r.count) 65535
    let e1 : Coal := { e with absorbed := a, sat := e.sat || r.sat || a == 65535, wits := addWits e.wits r.wits }
    coalShow (coalPut s i (some e1))

/-- A report that the module originates (R281); FAULT_DEST.EN = 0 suppresses it (R280). -/
def faultOwn (subject fclass : Nat) (detail : List Byte) (s : State) : State :=
  if !(s.rb Reg.fabFaultDest 16) then s else
  let r : FaultRep := { subject := subject, fclass := fclass, summary := false, sat := false, count := 1, wits := [ownAddr s],
                        first := s.fabTime, detail := padTo 24 detail }
  let dest := s.rf Reg.fabFaultDest 15 0
  coalesce r dest (originate dest 0 0x20 0 (faultBytes r)) s

/-- A FAULT cell forwarded from a link (one that is delivered or whose TTL is spent is not forwarded, and is no report to coalesce:
R278, R282), or a report originated with the SUBJECT, FCLASS and DETAIL of the payload. -/
def faultReport (arrival : Option Nat) (ws : List Word) (s : State) : State :=
  let r := faultOf ws
  match arrival with
  | none => faultOwn r.subject r.fclass r.detail s
  | some l =>
    if cDest ws = 0xFFFF ∨ cDest ws = ownAddr s ∨ cTtl ws ≤ 1 then routeCell arrival ws s
    else coalesce r (cDest ws) (routeCell (some l) ws) s

/-- FAULT_REPORT. -/
def execFaultReport (arrival : Option (Fin 8)) (ws : List Word) (s : State) : Host.Outcome State Fault Refusal :=
  guarded (.faultReport arrival ws) (fun t => if t.boot.prog then t else faultReport (arrival.map Fin.val) ws t) s

/-- Every entry whose window of 100 ms has ended is flushed (R282). -/
def coalesceFlush (s : State) : State :=
  coalShow ((s.fab.coal.filter (fun e => decide (e.2.start + 100000000 ≤ s.fabTime))).foldl (fun t e => coalFlush e.1 t) s)

/-- COALESCE_FLUSH. -/
def execCoalesceFlush (s : State) : Host.Outcome State Fault Refusal := .next (if s.boot.prog then s else coalesceFlush s)

/-! ## Tenant channels (R283, R284) -/

/-- The island's answer to a request: OK, NOKEY, and the computed tag; the previous key counts during its grace (R284, R387). -/
def tagAnswer (verify : Bool) (chan : Nat) (ws : List Word) (s : State) : (Bool × Bool × List Byte) × State :=
  match s.sec.kOwner with
  | none => let f := freeWords 2 s; ((false, true, wordBytes f.1), f.2)
  | some k =>
    let t := tagWith k chan ws
    if !verify then ((true, false, t), s) else
    match s.sec.kPrev with
    | some p =>
      let u := tagWith p chan ws
      ((t == cellTag ws || u == cellTag ws, false, if t == cellTag ws then t else if u == cellTag ws then u else t), s)
    | none => ((t == cellTag ws, false, t), s)

/-- What the fabric paths make of a verified cell's answer: counters, flags and record 0x709 (R284). -/
def tagCount (verify : Bool) (chan : Nat) (ws : List Word) (ok nokey : Bool) (s : State) : State :=
  let s1 := s.setRb Reg.fabStat 19 nokey
  if nokey then (if verify then s1.satRf Reg.fabTnStat 31 16 1 else s1)
  else if verify && (!ok || !(bit (ws.getD 2 0#32) 17)) then
    fabRec ((s1.satRf Reg.fabTnStat 15 0 1).orReg Reg.fabEvt 0x40) 0x709 6 chan [w32 chan, w32 (cSrc ws)]
  else s1

/-- The security island serves the next 16-word request and pushes its 3-word result (R284). -/
def tagRequest (s : State) : State :=
  match qOfCons s (epIsland 22 1) with
  | none => s
  | some q =>
    if qLevel s q < 16 then s else
    let r := popCell q 16 s
    let cmd := r.1.getD 15 0#32
    let chan := fld cmd 15 8
    let a := tagAnswer (bit cmd 0) chan r.1 r.2
    let w0 := w32 (b2n a.1.1 + 2 * b2n a.1.2.1 + chan * 256)
    (tagCount (bit cmd 0) chan r.1 a.1.1 a.1.2.1 (islandPush a.2 22 2 (w0 :: bytesWords a.1.2.2))).republish fabRegs

/-- TAG_REQUEST. -/
def execTagRequest (s : State) : Host.Outcome State Fault Refusal := .next (if s.boot.prog then s else tagRequest s)

/-- One entry of a TENANT_REPLY (R284). -/
def replyEntry (s : State) (chan p : Nat) : List Byte :=
  if p < 4096 ∧ ptTenant (ptW s p 1) = chan then leBytes 2 p ++ leBytes 2 (fld (ptW s p 1) 15 0) ++ wordBytes [ptW s p 0]
  else leBytes 2 p ++ leBytes 2 0xFFFF ++ leBytes 4 0

/-- A TENANT_QUERY of 1 to 4 points is answered by a tagged TENANT_REPLY to its SRC, once its tag verifies; a cell whose tag does
not, or that is not TAGGED, is discarded and counted (R32, R284). -/
def tenantQuery (ws : List Word) (s0 : State) : State :=
  let p := cPayload ws
  let n := fieldAt p 0 1
  let chan := cTenant ws
  let a := tagAnswer true chan ws s0
  let s := (tagCount true chan ws a.1.1 a.1.2.1 a.2).republish fabRegs
  match s.sec.kOwner with
  | none => s
  | some k =>
    if !a.1.1 ∨ !(bit (ws.getD 2 0#32) 17) ∨ n = 0 ∨ 4 < n then s else
    let body := leBytes 1 n ++ leBytes 3 0 ++ ((List.range n).map (fun i => replyEntry s chan (fieldAt p (2 * i + 2) 2))).flatten
    let pr := freePrio s
    let c := mkCell (cSrc ws) 2 pr.1 chan 0x12 2 body pr.2
    routeCell none (c.1.take 13 ++ bytesWords (tagWith k chan c.1) ++ [0#32]) c.2

/-- TENANT_QUERY. -/
def execTenantQuery (ws : List Word) (s : State) : Host.Outcome State Fault Refusal :=
  guarded (.tenantQuery ws) (fun t => if t.boot.prog then t else tenantQuery ws t) s

end Sys2Proof.Machine
end

