-- ==== Sys2Proof/Machine/FabParcel.lean ====
section
/-! DEFINITION. The relay of new images between neighbours in parcels (R287 to R289, R397 to R399). -/

namespace Sys2Proof.Machine

/-- A transfer that a PARCEL header begins, before the header is checked. -/
def linkXfer0 (id : Nat) (link : Option Nat) : Xfer :=
  { id := id, slot := 0, bodyLen := 0, total := 0, byHost := false, early := true, same := false, hdr := false, stored := [],
    got := [], nacks := [], buf := [], unacked := [], sent := [], link := link }

def setXfer (x : Xfer) (s : State) : State := { s with sec := { s.sec with xfer := some x } }

/-- The bytes of a chunk, 0xFFFF the header, and its cells (R287). -/
def unitLen (s : State) (x : Xfer) (chunk : Nat) : Nat := if chunk = 0xFFFF then 8192 else chunkLen (slotHeader s x.slot) chunk
def unitCells (s : State) (x : Xfer) (chunk : Nat) : Nat := (unitLen s x chunk + 39) / 40

/-- The bytes of a chunk as the module stores it. -/
def unitBytes (s : State) (x : Xfer) (chunk : Nat) : List Byte :=
  if chunk = 0xFFFF then slotHeader s x.slot else slotChunk s x.slot (slotHeader s x.slot) chunk

/-- The upstream link, when it is a link (R288). -/
def upLink (s : State) : Option Nat :=
  if s.rb Reg.fabParcelCfg 3 && !(s.rb Reg.fabParcelCfg 4) then some (s.rf Reg.fabParcelCfg 2 0) else none

/-- The link that answers go to: the upstream link, in siding mode the one that the cells come from (R406). -/
def answerLink (s : State) (src : Option Nat) : Option Nat := if s.boot.siding then src else upLink s

/-- An acknowledgement or a refusal to a link (R287). -/
def answerUp (link : Option Nat) (type id chunk status first count : Nat) (s : State) : State :=
  match link with
  | none => s
  | some l =>
    let p := freePrio s
    let c := mkCell 0xFFFF 2 p.1 0 type 0 (leBytes 4 id ++ leBytes 2 chunk ++ leBytes 1 status ++ [0#8] ++ leBytes 2 first ++ leBytes 2 count) p.2
    txPush l (if p.1 = 0 then 3 else 4) c.1 c.2

/-- NACKs sent and received are counted together. -/
def countNack (s : State) : State := s.satRf Reg.fabParcelStat 23 16 1

/-- Both ends abandon a transfer after 8 NACKs for one chunk (R289). -/
def parcelAbandon (chunk nacks : Nat) (s : State) : State :=
  xferEnd 0x0F (fabRec (s.orReg Reg.fabEvt 0x100) 0x70E 10 chunk [w32 chunk, w32 nacks])

/-- A refusal with STATUS 1 or 2 ends the transfer here (R289). -/
def refuseUp (link : Option Nat) (id chunk status : Nat) (s : State) : State :=
  answerUp link 0x42 id chunk status 0 0 (countNack (fabRec s 0x70D 8 chunk [w32 chunk, w32 status]))

/-! ## Sending downstream (R288) -/

/-- One PARCEL cell of a chunk. -/
def parcelCell (x : Xfer) (chunk index : Nat) (s : State) : List Word × State :=
  mkCell 0xFFFF 3 0 0 0x40 0 (leBytes 4 x.id ++ leBytes 2 chunk ++ leBytes 2 index ++
    padTo 40 (((unitBytes s x chunk).drop (40 * index)).take 40)) s

/-- Put a run of cells of a chunk behind those still to be pushed on a link. -/
def queueRun (l chunk first count : Nat) (s : State) : State :=
  { s with fab := { s.fab with parcels := sset [] s.fab.parcels l (sget [] s.fab.parcels l ++ [(chunk, first, count)]) } }

/-- The next unit for a downstream link: the header, then stored chunks in ascending order, two unacknowledged at most. -/
def forwardLink (s : State) (l : Nat) : State :=
  match s.sec.xfer with
  | none => s
  | some x =>
    let n := sget 0 x.sent l
    let un := sget [] x.unacked l
    let chunk := if n = 0 then 0xFFFF else n - 1
    let ready := if n = 0 then x.hdr else decide (n ≤ x.total) && x.stored.contains (n - 1)
    if x.hdr && ready && decide (un.length < 2) && lkUp s l then
      queueRun l chunk 0 (unitCells s x chunk) (setXfer { x with sent := sset 0 x.sent l (n + 1), unacked := sset [] x.unacked l (un ++ [chunk]) } s)
    else s

/-- Push the cells due on a link into its TXP while they fit. -/
def pushDue (l : Nat) : Nat → State → State
  | 0, s => s
  | n + 1, s =>
    match s.sec.xfer, sget [] s.fab.parcels l with
    | some x, (chunk, i, k) :: rest =>
      if k = 0 then pushDue l n { s with fab := { s.fab with parcels := sset [] s.fab.parcels l rest } }
      else match qOfCons s (epIsland (1 + l) 5) with
        | some q =>
          if qLevel s q + 16 ≤ qSize s q then
            let c := parcelCell x chunk i s
            let s1 := txPush l 5 c.1 c.2
            pushDue l n { s1 with fab := { s1.fab with parcels := sset [] s1.fab.parcels l ((chunk, i + 1, k - 1) :: rest) } }
          else s
        | none => s
    | none, _ :: _ => { s with fab := { s.fab with parcels := sset [] s.fab.parcels l [] } }
    | _, [] => s

/-- The relay at a run of its path: units to send, cells to push, and the end of a transfer that is complete everywhere. -/
def parcelPump (s : State) : State :=
  match s.sec.xfer with
  | none => s
  | some x =>
    let s1 := (downLinks s x).foldl (fun t l => pushDue l 4096 (forwardLink (forwardLink t l) l)) s
    match s1.sec.xfer with
    | some y => if y.hdr && decide (y.stored.length = y.total) && !y.byHost && relayDone s1 y then xferEnd 0 s1 else s1
    | none => s1

/-! ## Receiving (R287 to R289, R399) -/

/-- The first run of missing indices among the cells of a chunk: first index and length. -/
def missingRun (cells : Nat) (got : List Nat) : Option (Nat × Nat) :=
  match (List.range cells).find? (fun i => !(got.contains i)) with
  | none => none
  | some f => some (f, (((List.range cells).drop f).takeWhile (fun i => !(got.contains i))).length)

/-- A NACK with STATUS 3 for the first run of missing cells of a chunk; the eighth abandons the transfer (R289). -/
def nackMissing (x : Xfer) (chunk : Nat) (s : State) : State :=
  match missingRun (unitCells s x chunk) (sget [] x.got chunk) with
  | none => s
  | some (f, n) =>
    let k := sget 0 x.nacks chunk + 1
    let s1 := countNack (answerUp x.link 0x42 x.id chunk 3 f n (setXfer { x with nacks := sset 0 x.nacks chunk k } s))
    if 8 ≤ k then parcelAbandon chunk k s1 else s1

/-- The header is whole: it is checked before anything is stored (R397). -/
def headerWhole (x : Xfer) (s : State) : State :=
  let h := memBytes x.buf (0xFFFF * 65536) 8192
  let code := headerCode s h
  if code ≠ 0 then refuseUp x.link x.id 0xFFFF 2 (xferRefuse x.id code (setXfer x s))
  else
    let s1 := xferAccept h { x with buf := [] } s
    parcelPump (answerUp x.link 0x41 x.id 0xFFFF 0 0 0 s1)

/-- A cell of the active transfer joins its chunk; duplicates are ignored. -/
def parcelData (x : Xfer) (chunk index : Nat) (data : List Byte) (s : State) : State :=
  let valid := if chunk = 0xFFFF then !x.hdr else x.hdr && decide (chunk < x.total) && !(x.stored.contains chunk)
  let cells := unitCells s x chunk
  let got := sget [] x.got chunk
  if !valid || decide (cells ≤ index) || got.contains index then s else
  let n := min 40 (unitLen s x chunk - 40 * index)
  let y := { x with got := sset [] x.got chunk (got ++ [index]), buf := memPut x.buf (chunk * 65536 + 40 * index) (data.take n) }
  if (sget [] y.got chunk).length = cells then (if chunk = 0xFFFF then headerWhole y s else setXfer y s)
  else if index + 1 = cells then nackMissing y chunk (setXfer y s) else setXfer y s

/-- Do PARCEL cells count that come from a link, or through the object window (R288)? In siding mode those of any UP neighbour do:
a transfer goes on from the link that its header came from (R406). -/
def fromUp (s : State) (src : Option Nat) (id chunk : Nat) : Bool :=
  match src with
  | none => s.rb Reg.fabParcelCfg 4
  | some l =>
    if s.boot.siding then lkUp s l && (match s.sec.xfer with
      | some x => decide (chunk = 0xFFFF) && decide (x.id ≠ id) || x.link == some l
      | none => true)
    else upLink s == some l

/-- The header of a smaller XFER than the active transfer's: NACK with STATUS 2 (R399) and the records of a refused header (Table 16-3).
No result code of Table 15-5 is given for it, so that the code in record 0xD01 is a free value (assumption 123). -/
def headerOlder (link : Option Nat) (id : Nat) (s : State) : State :=
  let f := s.free
  refuseUp link id 0xFFFF 2 (secRecLog (secEvt f.2 2) 0xD01 8 id [w32 id, w32 (fld f.1 7 0)])

/-- A PARCEL cell from the upstream source (R288, R399). -/
def parcel (src : Option Nat) (ws : List Word) (s : State) : State :=
  let p := cPayload ws
  let id := fieldAt p 0 4
  let chunk := fieldAt p 4 2
  let index := fieldAt p 6 2
  let link := answerLink s src
  if cType ws ≠ 0x40 ∨ !(fromUp s src id chunk) then s else
  secShow ((match s.sec.xfer with
  | none => if chunk = 0xFFFF then parcelData (linkXfer0 id link) chunk index (p.drop 8) s else s
  | some x =>
    if id = x.id then
      if chunk = 0xFFFF ∧ x.hdr then (if index + 1 = 205 then answerUp link 0x41 id 0xFFFF 0 0 0 s else s)
      else parcelData x chunk index (p.drop 8) s
    else if chunk ≠ 0xFFFF then s
    else if x.id < id then parcelData (linkXfer0 id link) chunk index (p.drop 8) (xferEnd 0x0F s)
    else if index + 1 = 205 then headerOlder link id s else s).republish fabRegs)

/-- PARCEL. -/
def execParcel (src : Option (Fin 8)) (ws : List Word) (s : State) : Host.Outcome State Fault Refusal :=
  guarded (.parcel src ws) (fun t => if t.boot.prog then t else parcel (src.map Fin.val) ws t) s

/-- A complete chunk is stored, verified in early check, acknowledged and forwarded (R288, R289). -/
def chunkStored (chunk : Nat) (s : State) : State :=
  match s.sec.xfer with
  | none => s
  | some x =>
    if !x.hdr || decide (x.total ≤ chunk) || decide ((sget [] x.got chunk).length ≠ unitCells s x chunk) || x.stored.contains chunk then s else
    let bytes := memBytes x.buf (chunk * 65536) (unitLen s x chunk)
    let r := storeChunk chunk bytes { x with buf := sclear x.buf (chunk * 65536) (chunk * 65536 + 65536) } s
    if r.1 ≠ 0 then secShow ((refuseUp x.link x.id chunk 1 r.2).republish fabRegs)
    else secShow ((parcelPump (answerUp x.link 0x41 x.id chunk 0 0 0 r.2)).republish fabRegs)

/-- CHUNK_STORED. -/
def execChunkStored (chunk : BitVec 16) (s : State) : Host.Outcome State Fault Refusal :=
  .next (if s.boot.prog then s else chunkStored chunk.toNat s)

/-- A PARCEL_ACK from a downstream link (R288). -/
def parcelAck (l id chunk : Nat) (s : State) : State :=
  match s.sec.xfer with
  | none => s
  | some x =>
    if x.id ≠ id ∨ !((downLinks s x).contains l) then s else
    let y := { x with unacked := sset [] x.unacked l ((sget [] x.unacked l).filter (fun c => decide (c ≠ chunk))) }
    secShow ((parcelPump (setXfer y s)).republish fabRegs)

/-- PARCEL_ACK. -/
def execParcelAck (l : Fin 8) (id : Word) (chunk : BitVec 16) (status : BitVec 8) (s : State) : Host.Outcome State Fault Refusal :=
  .next (if s.boot.prog then s else if status = 0#8 then parcelAck l.val id.toNat chunk.toNat s else s)

/-- A PARCEL_NACK from a downstream link (R289): the run is sent again; STATUS 1 or 2 ends the transfer for that subtree. -/
def parcelNack (l id chunk status first count : Nat) (s : State) : State :=
  match s.sec.xfer with
  | none => s
  | some x =>
    if x.id ≠ id ∨ !((downLinks s x).contains l) then s else
    let s1 := countNack s
    if status = 3 then
      let key := (l + 1) * 65536 + chunk
      let k := sget 0 x.nacks key + 1
      let s2 := setXfer { x with nacks := sset 0 x.nacks key k } s1
      (if 8 ≤ k then parcelAbandon chunk k s2 else pushDue l 4096 (queueRun l chunk first count s2)).republish fabRegs
    else
      let y := { x with sent := sset 0 x.sent l (x.total + 1), unacked := sset [] x.unacked l [] }
      let s2 := setXfer y { s1 with fab := { s1.fab with parcels := sset [] s1.fab.parcels l [] } }
      secShow ((parcelPump s2).republish fabRegs)

/-- PARCEL_NACK. -/
def execParcelNack (l : Fin 8) (id : Word) (chunk : BitVec 16) (status : BitVec 8) (first count : BitVec 16) (s : State) :
    Host.Outcome State Fault Refusal :=
  .next (if s.boot.prog then s else parcelNack l.val id.toNat chunk.toNat status.toNat first.toNat count.toNat s)

/-- 20 ms after a cell of a chunk with no further cell (R289). -/
def parcelGap (chunk : Nat) (s : State) : State :=
  match s.sec.xfer with
  | none => s
  | some x => if x.byHost || (sget [] x.got chunk).isEmpty then s else secShow ((nackMissing x chunk s).republish fabRegs)

/-- PARCEL_GAP_TIMEOUT. -/
def execParcelGapTimeout (chunk : BitVec 16) (s : State) : Host.Outcome State Fault Refusal :=
  .next (if s.boot.prog then s else parcelGap chunk.toNat s)

/-- A transfer that receives no cell for 10 s is abandoned; one whose chunks are all stored only ends (R399). -/
def transferTimeout (s : State) : State :=
  match s.sec.xfer with
  | none => s
  | some x => secShow ((xferEnd (if x.hdr && decide (x.stored.length = x.total) then 0 else 0x0F) s).republish fabRegs)

/-- TRANSFER_TIMEOUT. -/
def execTransferTimeout (s : State) : Host.Outcome State Fault Refusal := .next (if s.boot.prog then s else transferTimeout s)

end Sys2Proof.Machine
end

