-- ==== Sys2Proof/Machine/Hamper.lean ====
section
/-! DEFINITION. The hamper's supervision: dips, the energy ledger and the capacitance checks (R130 to R138, R151, R455). -/

namespace Sys2Proof.Machine

/-- PWR records: source block 0x02; their subject is the module unless said (R151). -/
def pwrRec (s : State) (code sev : Nat) (d : List Word) : State := s.logOnce code 2 sev 0 d

/-- PWR_STAT bits. -/
def psLow : Nat := 3
def psCrit : Nat := 4
def psWorn : Nat := 5
def psCharging : Nat := 6
def psChecking : Nat := 7
def psCheckFail : Nat := 8

/-- E_AVAIL = C_LEDGER × (V_mV² − 12,000²) / 2,000,000 rounded down, 0 at 12,000 mV and below (R133). -/
def energyUj (c mv : Nat) : Nat := if mv ≤ 12000 then 0 else c * (mv * mv - 12000 * 12000) / 2000000

/-- ceil(1.25 × x). -/
def times125 (x : Nat) : Nat := (5 * x + 3) / 4

/-- E_DET in µJ (R132). -/
def eDet : Nat := 2940

/-- A capacitance check is abandoned (R135, R136). -/
def checkAbort (s : State) (vin : Word) : State :=
  if s.rb Reg.pwrStat psChecking then
    let s1 := ((s.setRb Reg.pwrStat psChecking false).setRf Reg.pwrCheck 17 16 1).orReg Reg.pwrEvt 0x80
    pwrRec { s1 with hamper := { s1.hamper with retry := s1.hamper.retry || !s1.hamper.startKind, again := true } } 0x207 4 [vin]
  else s

/-- INPUT_BELOW_PFD (R131, R132, R136): the bank feeds the core rails and the filter starts. -/
def inputBelowPfd (vin : BitVec 16) (s : State) : State :=
  let s1 := checkAbort (s.setReg Reg.pwrVin (vin.zeroExtend 32)) (vin.zeroExtend 32)
  { s1 with hamper := { s1.hamper with filter := true, feeding := true }, boot := { s1.boot with counting := false } }

/-- INPUT_BELOW_PFD. -/
def execInputBelowPfd (vin : BitVec 16) (s : State) : Host.Outcome State Fault Refusal := .next (inputBelowPfd vin s)

/-- DIP (R131): an excursion that ends before detection is counted, flagged and logged. -/
def endDip (low : BitVec 16) (us : BitVec 32) (s : State) : State :=
  if s.hamper.filter then
    let s1 := (s.satRf Reg.pwrDips 31 0 1).orReg Reg.pwrEvt 1
    let s2 := { s1 with hamper := { s1.hamper with filter := false, feeding := false } }
    pwrRec s2 0x202 4 [low.zeroExtend 32, us]
  else s

/-- DIP. -/
def execDip (low : BitVec 16) (us : BitVec 32) (s : State) : Host.Outcome State Fault Refusal := .next (endDip low us s)

/-- INPUT_RISE (R101, R132, R135): above the power-fail threshold the bank stops feeding and, with supply valid, the charger
restores it; at 19.0 V or more the count of supply valid starts afresh, but not before a last train is complete (R140). -/
def inputRise (vin : BitVec 16) (s : State) : State :=
  let s1 := s.setReg Reg.pwrVin (vin.zeroExtend 32)
  let s2 := { s1 with hamper := { s1.hamper with feeding := false } }
  let s3 := if s2.rb Reg.pwrStat psChecking || !s2.boot.supplyOk then s2 else s2.setRb Reg.pwrStat psCharging true
  { s3 with boot := { s3.boot with counting := decide (19000 ≤ vin.toNat) && !(s3.hamper.ltPending) && decide (s3.rf Reg.sysStat 3 0 ≠ 8) } }

/-- INPUT_RISE. -/
def execInputRise (vin : BitVec 16) (s : State) : Host.Outcome State Fault Refusal := .next (inputRise vin s)

/-- V_IN leaves or re-enters 19.2 to 30.0 V without detection (Table 5-6, record 0x209): one record per side. Below 19.0 V the
count of supply valid ends, until the next rise (R101). -/
def vinRange (vin : BitVec 16) (s : State) : State :=
  let lo := decide (vin.toNat < 19200) && !s.hamper.detected
  let hi := decide (30000 < vin.toNat)
  let s0 := { s with boot := { s.boot with counting := s.boot.counting && decide (19000 ≤ vin.toNat) } }.setReg Reg.pwrVin
    (vin.zeroExtend 32)
  let s1 := (s0.setRb Reg.pwrStat 1 lo).setRb Reg.pwrStat 2 hi
  let s2 := if lo && !(s.rb Reg.pwrStat 1) then
      (s1.orReg Reg.pwrEvt 2).logOnce 0x209 2 6 0 [vin.zeroExtend 32, 0#32] else s1
  if hi && !(s.rb Reg.pwrStat 2) then (s2.orReg Reg.pwrEvt 4).logOnce 0x209 2 6 1 [vin.zeroExtend 32, 1#32] else s2

/-- V_IN_OUTSIDE_OPERATING_RANGE. -/
def execVInOutsideOperatingRange (vin : BitVec 16) (s : State) : Host.Outcome State Fault Refusal := .next (vinRange vin s)

/-- EAVAIL_UPDATE (R133): sample V_BANK and compute E_AVAIL. -/
def eavail (vbank : Nat) (s : State) : State :=
  (s.setReg Reg.pwrVbank (w32 vbank)).setReg Reg.pwrEavail (w32 (energyUj s.hamper.cLedger vbank))

/-- EAVAIL_UPDATE. -/
def execEavailUpdate (vbank : BitVec 16) (s : State) : Host.Outcome State Fault Refusal := .next (eavail vbank.toNat s)

/-- Begin a check: the charger stops, V1 is recorded, the bleed runs (R134). -/
def beginCheck (v1 : Nat) (startKind : Bool) (s : State) : State :=
  let s1 := (s.setRb Reg.pwrStat psCharging false).setRb Reg.pwrStat psChecking true
  { s1 with hamper := { s1.hamper with v1 := v1, startKind := startKind, retry := false, retryIn := none } }

/-- May a check begin: supply is valid, confirmed again after an abandoned check, and none is in progress (R135, R136). -/
def checkReady (s : State) : Bool :=
  s.boot.supplyOk && !s.hamper.again && !s.hamper.filter && !(s.rb Reg.pwrStat psChecking)

/-- START_CHECK (R135): V1 in 0.1 mV, at 14.0 V or more, once in a power-on or return start. -/
def startCheck (v1 : Nat) (s : State) : State :=
  if decide (140000 ≤ v1) && !s.hamper.startDone && decide (s.rf Reg.sysRstcause 1 0 ≠ 0) && checkReady s then beginCheck v1 true s
  else s

/-- START_CHECK. -/
def execStartCheck (v1 : BitVec 20) (s : State) : Host.Outcome State Fault Refusal := .next (startCheck v1.toNat s)

/-- A daily check is due (R136): while a retry is awaited, at its 60 s and not before; else at the second of the day, or with fabric time not locked 86,400 major cycles
after the previous check. -/
def dailyDue (s : State) : Bool :=
  match s.hamper.retryIn with
  | some k => decide (k = 0)
  | none =>
    if s.rb Reg.fabTimeStat 0 then decide (s.fabTime / 1000000000 % 86400 = s.rf Reg.pwrDaily 16 0)
    else decide (86400 ≤ s.hamper.ageSec)

/-- DAILY_CHECK (R136): when due; it begins at 33.0 V or more, otherwise the hamper retries in 60 s. -/
def dailyCheck (v1 : Nat) (s : State) : State :=
  if !(dailyDue s && checkReady s) then s
  else if v1 < 330000 then { s with hamper := { s.hamper with retryIn := some 60 } }
  else beginCheck v1 false s

/-- DAILY_CHECK. -/
def execDailyCheck (v1 : BitVec 20) (s : State) : Host.Outcome State Fault Refusal := .next (dailyCheck v1.toNat s)

/-- The hamper record in FeRAM (R455): byte address, its first word. -/
def hamperRecAddr : Nat := 0x880
def hamperRecMagic : Word := 0x43420001#32

/-- Is the hamper record intact: its first word and its CRC over the first 28 bytes (R455). -/
def hamperRecOk (s : State) : Bool :=
  memW s.feram hamperRecAddr == hamperRecMagic && memW s.feram (hamperRecAddr + 28) == crc32 (memBytes s.feram hamperRecAddr 28)

/-- The eight words of the hamper record (R455). -/
def hamperRec (cFirst : Nat) : List Word :=
  let b := [hamperRecMagic, w32 cFirst, 0, 0, 0, 0, 0]
  b ++ [crc32 (wordBytes b)]

/-- C_FIRST is written once, at the first passing check with no intact record (R135, R455). -/
def writeCFirst (c : Nat) (s : State) : State :=
  if hamperRecOk s then s.setRf Reg.pwrCbank 31 16 (memW s.feram (hamperRecAddr + 4)).toNat
  else { s with feram := memPut s.feram hamperRecAddr (wordBytes (hamperRec c)) }.setRf Reg.pwrCbank 31 16 c

/-- A PWR_STAT bit follows a condition; becoming set it sets its PWR_EVT bit and writes a record (R137). -/
def statEdge (b evt : Nat) (v : Bool) (rec : State → State) (s : State) : State :=
  let s1 := s.setRb Reg.pwrStat b v
  if v && !(s.rb Reg.pwrStat b) then rec (s1.orReg Reg.pwrEvt evt) else s1

/-- E_REQ_FULL, E_REQ_CORE, HOLDUP_LOW and HOLDUP_CRIT from E_HOLD and the image's declarations (R137). -/
def holdupEval (s : State) : State :=
  let full := times125 (eDet + s.image.ltFullUj)
  let core := times125 (eDet + s.image.ltCoreUj)
  let s1 := (s.setReg Reg.pwrEreqFull (w32 full)).setReg Reg.pwrEreqCore (w32 core)
  let h := (s.reg Reg.pwrEhold).toNat
  let s2 := statEdge psLow 8 (decide (h < full)) (fun t => pwrRec t 0x203 10 [t.reg Reg.pwrEhold, w32 full]) s1
  statEdge psCrit 16 (decide (h < core)) (fun t => pwrRec t 0x204 14 [t.reg Reg.pwrEhold, w32 core]) s2

/-- C_MEAS below 1,540 µF sets BANK_WORN (R138). -/
def bankWorn (c : Nat) (s : State) : State :=
  if c < 1540 then
    statEdge psWorn 0x20 true (fun t => pwrRec t 0x205 8 [w32 c, w32 (t.rf Reg.pwrCbank 31 16)]) s
  else s

/-- CHECK_COMPLETE (R134 to R138, R455): V2 in 0.1 mV. Data word 5 of record 0x206 is the field as shown: a finite C_MEAS above
65,535 µF is 0xFFFF there too (assumption 106). -/
def checkComplete (v2 : Nat) (s : State) : State :=
  if !(s.rb Reg.pwrStat psChecking) then s else
  let dv : Int := (s.hamper.v1 : Int) - (v2 : Int)
  let unbounded := decide (dv ≤ 0)
  let c := if unbounded then 0xFFFF else min 0xFFFF (20000000 / dv.toNat)
  let s0 := ((s.setRb Reg.pwrStat psChecking false).setRb Reg.pwrStat psCharging true).setRf Reg.pwrCbank 15 0 c
  let s1 := (s0.setRf Reg.pwrCheck 15 0 (s0.rf Reg.pwrCheck 15 0 + 1)).setRf Reg.pwrCheck 31 18 0
  let s2 := { s1 with hamper := { s1.hamper with ageSec := 0, startDone := s1.hamper.startDone || s1.hamper.startKind } }
  if !unbounded && decide (200 ≤ c) && decide (c ≤ 4000) then
    let cl := c * 97 / 100
    let s3 := { s2 with hamper := { s2.hamper with cLedger := cl } }
    let s4 := ((s3.setRb Reg.pwrStat psCheckFail false).setRf Reg.pwrCheck 17 16 0).setReg Reg.pwrEhold
      (w32 (energyUj cl (s.hamper.v1 / 10)))
    bankWorn c (holdupEval (writeCFirst c s4))
  else
    let s3 := { s2 with hamper := { s2.hamper with cLedger := 0 } }
    let s4 := ((s3.setRb Reg.pwrStat psCheckFail true).setRf Reg.pwrCheck 17 16 2).orReg Reg.pwrEvt 0x40
    let s5 := pwrRec s4 0x206 8 [w32i dv, w32 c]
    if unbounded then s5 else bankWorn c s5

/-- CHECK_COMPLETE. -/
def execCheckComplete (v2 : BitVec 20) (s : State) : Host.Outcome State Fault Refusal := .next (checkComplete v2.toNat s)

/-- A second passes: PWR_CHECK.AGE, minutes since the last completed check (Table 5-6), and a retry comes nearer (R136). -/
def checkAgeSecond (s : State) : State :=
  let n := s.hamper.ageSec + 1
  { s with hamper := { s.hamper with ageSec := n, retryIn := s.hamper.retryIn.map (fun k => k - 1) } }.setRf Reg.pwrCheck 31 18 (min (n / 60) 0x3FFF)

end Sys2Proof.Machine
end

