-- ==== Sys2Proof/Machine/EngineMem.lean ====
section
/-! DEFINITION. The meanings of track 3's memory, queue, mirror-write, special-value, scrub and arm operations
(Table 2-4, R43, R44, R50, R53, R62, R63, R68, R69, R71, R72). -/

namespace Sys2Proof.Machine

/-- A load of data SRAM met a double error at the cycle its result lands (R68): the run is no-ops from then, its remaining
cycles spare; PATH_FAULT cause 2, the count, the address and record 0x102; commit points behind it are missed (R90). -/
def dataFault (i : Issue) (a : Nat) (s : State) : State :=
  let s0 := match s.eng.run with
    | none => s
    | some r =>
      let f := i.cycle + 2
      let f' := match r.noopFrom with | some g => min f g | none => f
      let r' := { r with noopFrom := some f' }
      let more := spareOf s.code r' - spareOf s.code r
      { s with eng := { s.eng with run := some r', execCyc := s.eng.execCyc - more, spareCyc := s.eng.spareCyc + more } }
  (((s0.dedEvent mcData a).pathFault s.curPath 2).logOnce 0x102 1 10 s.curPath [w32 s.curPath, w32 a]).faultMissed

/-- A load from a data SRAM unit (R52, R68). -/
def loadData (i : Issue) (d a : Nat) (s : State) : State :=
  match s.eccAt mcData a with
  | .ok => s.result i 3 d (memW s.data a)
  | .single => (s.secEvent mcData).result i 3 d (memW s.data a)
  | .double => dataFault i a s

/-- A store to a data SRAM unit, with fresh check bits (R68). -/
def storeData (a : Nat) (v : Word) (s : State) : State := { s with data := memPutW s.data a v }.setEcc mcData a .ok

/-- LD: D ← data SRAM word at W(A) + 4 × imm7. -/
def execLd (i : Issue) (d a : Fin 64) (imm : BitVec 7) (s : State) : Host.Outcome State Fault Refusal :=
  guarded (.ld i d a imm) (issue i (fun t => loadData i d.val (dataAddr (addrM t a.val imm)) t)) s

/-- ST: data SRAM word at W(A) + 4 × imm7 ← W(D). -/
def execSt (i : Issue) (d a : Fin 64) (imm : BitVec 7) (s : State) : Host.Outcome State Fault Refusal :=
  guarded (.st i d a imm) (issue i (fun t => storeData (dataAddr (addrM t a.val imm)) (t.rw d.val) t)) s

/-- LDX: D ← data SRAM word at W(A) + W(B). -/
def execLdx (i : Issue) (d a b : Fin 64) (s : State) : Host.Outcome State Fault Refusal :=
  guarded (.ldx i d a b) (issue i (fun t => loadData i d.val (dataAddr (addrX t a.val b.val)) t)) s

/-- STX: data SRAM word at W(A) + W(B) ← W(D). -/
def execStx (i : Issue) (d a b : Fin 64) (s : State) : Host.Outcome State Fault Refusal :=
  guarded (.stx i d a b) (issue i (fun t => storeData (dataAddr (addrX t a.val b.val)) (t.rw d.val) t)) s

/-- MOV: D ← A. -/
def execMov (i : Issue) (d a : Fin 64) (s : State) : Host.Outcome State Fault Refusal :=
  guarded (.mov i d a) (issueW i 1 d.val (fun t => t.rw a.val)) s

/-- LLD: D ← log SRAM word at W(A) + 4 × imm7. -/
def execLld (i : Issue) (d a : Fin 64) (imm : BitVec 7) (s : State) : Host.Outcome State Fault Refusal :=
  guarded (.lld i d a imm) (issue i (fun t =>
    let r := readLog (logAddr (addrM t a.val imm)) t
    r.2.result i 3 d.val r.1)) s

/-- LST: log SRAM word at W(A) + 4 × imm7 ← W(D). -/
def execLst (i : Issue) (d a : Fin 64) (imm : BitVec 7) (s : State) : Host.Outcome State Fault Refusal :=
  guarded (.lst i d a imm) (issue i (fun t => t.putLogW (logAddr (addrM t a.val imm)) (t.rw d.val))) s

/-- QPOP: D ← word popped from QA. -/
def execQpop (i : Issue) (d qa : Fin 64) (s : State) : Host.Outcome State Fault Refusal :=
  guarded (.qpop i d qa) (issue i (fun t =>
    let r := qPop t epEngine qa.val
    r.2.result i 4 d.val r.1)) s

/-- QPUSH: push W(D) into QA. -/
def execQpush (i : Issue) (d qa : Fin 64) (s : State) : Host.Outcome State Fault Refusal :=
  guarded (.qpush i d qa) (issue i (fun t => qPush t epEngine qa.val (t.rw d.val))) s

/-- QLEV: D ← fill level of QA; 0 for an unused queue (R24). -/
def execQlev (i : Issue) (d qa : Fin 64) (s : State) : Host.Outcome State Fault Refusal :=
  guarded (.qlev i d qa) (issueW i 2 d.val (fun t => if qSize t qa.val = 0 then 0#32 else w32 (qLevel t qa.val))) s

/-- QMOV of a queue to itself: the pop and then the push of one core cycle, so that the head word goes to the tail and the
level after both, which alone the watermarks see, is unchanged (R28). -/
def queueTurn (q : Nat) (s : State) : State :=
  let r := qFetch s q 0
  let a := qAddr s q (qLevel s q)
  { r.2 with qrd := sset 0 r.2.qrd q ((sget 0 r.2.qrd q + 1) % (if qSize s q = 0 then 1 else qSize s q)),
             quem := memPutW r.2.quem a r.1 }.setEcc mcQue a .ok

/-- One word moves from QA to QB when QA holds a word and QB has room (R63). -/
def queueMove (qa qb : Nat) (s : State) : State :=
  if qSize s qa = 0 || qSize s qb = 0 then s
  else if qCons s qa ≠ epEngine ∨ qProd s qb ≠ epEngine then
    let s1 := if qCons s qa = epEngine then s else qViolation s qa
    if qProd s qb = epEngine then s1 else qViolation s1 qb
  else if qLevel s qa = 0 then s.orReg (Reg.queQStat qa) 1
  else if qSize s qb ≤ qLevel s qb then qOverflow s qb
  else if qa = qb then queueTurn qa s
  else let r := qPopOut s qa; qPushIn r.2 qb r.1

/-- QMOV: move one word from QA to QB. -/
def execQmov (i : Issue) (qa qb : Fin 64) (s : State) : Host.Outcome State Fault Refusal :=
  guarded (.qmov i qa qb) (issue i (queueMove qa.val qb.val)) s

/-- MST: the unselected copy of the mirror cell of the register at W(A) + 4 × imm7 ← W(D). -/
def execMst (i : Issue) (d a : Fin 64) (imm : BitVec 7) (s : State) : Host.Outcome State Fault Refusal :=
  guarded (.mst i d a imm) (issue i (fun t => t.mst (hostAddr (addrM t a.val imm)) (t.rw d.val))) s

/-- The special values of Table 2-5, for an SRD that issues at core cycle `c`. -/
def special (s : State) (sel c : Nat) : Word :=
  match sel with
  | 0 => w32 s.m
  | 1 => s.reg Reg.tteMajor
  | 2 => s.eng.elapsed
  | 3 => w32 s.curPath
  | 4 => w32 s.eng.fabLatch
  | 5 => w32 (s.eng.fabLatch / 2 ^ 32)
  | 6 => w32 c
  | _ => s.tteStatNow

/-- SRD: D ← the special value that imm7 selects. -/
def execSrd (i : Issue) (d : Fin 64) (selr : BitVec 7) (s : State) : Host.Outcome State Fault Refusal :=
  guarded (.srd i d selr) (issueW i 1 d.val (fun t => special t selr.toNat i.cycle)) s

/-- The protected unit of a memory that a byte address names, with the memory code of its marks: a path-table address of
code SRAM carries code 5 (Table 2-6). An address beyond a memory's size is taken modulo the size in every memory: R44 says so
of data and log SRAM, and for code SRAM and queue memory it is the model's choice (assumption 11). -/
def scrubUnit (mem a : Nat) : Nat × Nat :=
  match mem with
  | 0 => let u := a % 2 ^ 20 / 16 * 16; (if 0xE0000 ≤ u then mcPtab else mcCode, u)
  | 1 => (mcData, a % 2 ^ 21 / 4 * 4)
  | 2 => (mcQue, a % 2 ^ 18 / 4 * 4)
  | _ => (mcLog, a % 2 ^ 18 / 4 * 4)

/-- SCRB of one unit: a single error is corrected and written back, a double error left, recorded and logged (R71). The write-back
of the core cycle after is made here in the step of the read, so that a read issued in that cycle finds the unit corrected: the
spec does not say which it finds (assumption 107). -/
def scrub (mem a : Nat) (s : State) : State :=
  let u := scrubUnit mem a
  match s.eccAt u.1 u.2 with
  | .ok => s
  | .single => (s.secEvent u.1).setEcc u.1 u.2 .ok
  | .double => (if u.1 = mcPtab then s.ptabDed u.2 else s.dedEvent u.1 u.2).logOnce 0x107 1 8 u.1 [w32 u.1, w32 u.2]

/-- The end of a scrub pass: the memory's pass count rises, modulo 256 (R71, Table 2-23). -/
def scrubPass (mem : Nat) (s : State) : State :=
  s.setRf Reg.tteScrubPass (8 * mem + 7) (8 * mem) (s.rf Reg.tteScrubPass (8 * mem + 7) (8 * mem) + 1)

/-- SCRB: scrub the unit at byte address W(A) of memory imm7 bits 1:0; bit 6 marks the end of a pass. -/
def execScrb (i : Issue) (a : Fin 64) (imm : BitVec 7) (s : State) : Host.Outcome State Fault Refusal :=
  guarded (.scrb i a imm) (issue i (fun t =>
    let t1 := scrub (imm.toNat % 4) (t.rw a.val).toNat t
    if imm.getLsbD 6 then scrubPass (imm.toNat % 4) t1 else t1)) s

/-- SCRUB_LATE: a pass count has not advanced for 600 s (R72). -/
def execScrubLate (mem : Fin 4) (seconds : BitVec 32) (s : State) : Host.Outcome State Fault Refusal :=
  guarded (.scrubLate mem seconds) (fun t =>
    (t.orReg Reg.tteEccStat (2 ^ 13)).logOnce 0x108 1 8 mem.val [w32 mem.val, seconds]) s

/-- ARM: set arm flag W(A) bits 7:0. -/
def execArm (i : Issue) (a : Fin 64) (s : State) : Host.Outcome State Fault Refusal :=
  guarded (.arm i a) (issue i (fun t => t.setArm (fld (t.rw a.val) 7 0) true)) s

/-- DARM: clear arm flag W(A) bits 7:0. -/
def execDarm (i : Issue) (a : Fin 64) (s : State) : Host.Outcome State Fault Refusal :=
  guarded (.darm i a) (issue i (fun t => t.setArm (fld (t.rw a.val) 7 0) false)) s

end Sys2Proof.Machine
end

