-- ==== Sys2Proof/Machine/Clock.lean ====
section
/-! DEFINITION. The backup island: tick count, slew, trim, alarms, backup bytes and supply, and the clock path (R362 to R375). -/

namespace Sys2Proof.Machine

def alm0 : Alm :=
  { value := 0, period := 0, armed := false, rep := false, fired := false, stepped := false, missed := 0, per := 0, due := none }

def State.alm (s : State) (n : Nat) : Alm := sget alm0 s.rtc.alarms n
def State.setAlm (s : State) (n : Nat) (x : Alm) : State := { s with rtc := { s.rtc with alarms := sset alm0 s.rtc.alarms n x } }

/-- A tick value as fabric time, and fabric time as a tick (R363). -/
def tickNs (t : Nat) : Nat := t * 1953125 / 32
def tickOf (ns : Nat) : Nat := ns * 32 / 1953125

/-- One byte of the CRC-8 with polynomial 0x07. -/
def crc8Bits : Nat → Nat → Nat
  | 0, c => c
  | n + 1, c => crc8Bits n (if 128 ≤ c then ((c * 2) % 256) ^^^ 7 else c * 2)

/-- The CRC-8 with initial value 0 (R370). -/
def crc8 (l : List Byte) : Nat := l.foldl (fun c b => crc8Bits 8 (c ^^^ b.toNat)) 0

def backupByte (s : State) (i : Nat) : Byte := sget 0#8 s.rtc.bytes i

/-- BYTES_VALID (R370). -/
def bytesValid (s : State) : Bool := decide ((backupByte s 63).toNat = crc8 ((List.range 63).map (backupByte s)))

/-! ## Status (R373, R376) -/

def almBits (s : State) (f : Alm → Bool) : Nat := maskOf ((List.range 8).filter (fun n => f (s.alm n)))

/-- BSTAT. -/
def bstat (s : State) : Word :=
  w32 (almBits s (fun x => x.fired) + 256 * almBits s (fun x => x.stepped) + 65536 * b2n s.rtc.latch + 2 ^ 17 * b2n (bytesValid s) +
    2 ^ 18 * b2n s.rtc.slew.isSome + 2 ^ 19 * b2n s.rtc.charging + 2 ^ 20 * s.rtc.mv)

/-- TICK_LO, TICK_HI and BSTAT as the island writes them at every tick (R373; for BSTAT the spec does not say when, assumption 77). -/
def rtcPorts (s : State) : State :=
  sendIn 24 0 [w32 s.rtc.count, w32 (s.rtc.count / 2 ^ 32 % 2 ^ 16 + s.rtc.readIdx * 2 ^ 16 + (backupByte s s.rtc.readIdx).toNat * 2 ^ 24), bstat s] s

/-- The clock path publishes the RO registers (R362). -/
def rtcShow (s : State) : State :=
  let b := bstat s
  let st := setFld (s.reg Reg.rtcStat) 4 1 (fld b 19 16)
  let sl := match s.rtc.slew with | some x => w32 (x.left + 2 ^ 24 * b2n x.faster) | none => 0#32
  let s1 := (List.range 8).foldl (fun t n => t.setRb (Reg.rtcAlmStat n) 2 (t.alm n).armed) s
  (s1.publish [(Reg.rtcStat, st), (Reg.rtcSlew, sl), (Reg.rtcVbak, w32 s.rtc.mv)]).republish
    ([Reg.rtcEvt] ++ (List.range 8).map Reg.rtcAlmStat)

/-- RTC_TICK as last read, at the commit point of block 12. -/
def rtcWindow (s : State) : State := s.publish [(Reg.rtcTickLo, w32 s.rtc.count), (Reg.rtcTickHi, w32 (s.rtc.count / 2 ^ 32))]

def rtcRec (s : State) (code sev subject : Nat) (d : List Word) : State := s.logOnce code 0xC sev subject d

/-! ## The tick (R363 to R368) -/

/-- An ALARM word that waits takes effect at this tick (R367). -/
def almApply (x : Alm) : Alm :=
  match x.due with
  | some (v, p, armed, rep) => { x with value := v, period := p, armed := armed, rep := rep, due := none }
  | none => x

/-- One alarm at a tick that leaves the count at `b`; `step` says that a forward SET or STEP came from a (R367, R368). -/
def almTick (a b : Nat) (step : Bool) (y : Alm) : Alm :=
  let x := almApply y
  if !x.armed || decide (b < x.value) then x else
  let z := { x with fired := true, stepped := x.stepped || (step && decide (a + 1 < x.value)) }
  if x.rep ∧ 1 ≤ x.period then
    let k := (b - x.value) / x.period + 1
    { z with value := (x.value + k * x.period) % 2 ^ 48, missed := min (x.missed + (k - 1)) 255 }
  else { z with armed := false }

/-- The count after the next tick, and the command applied at it. -/
def nextCount (r : Rtc) : Nat × Option Bool :=
  match r.due with
  | (true, b) :: _ => ((b % (2 ^ 48 : Nat)).toNat, some true)
  | (false, d) :: _ => ((((r.count : Int) + 1 + d) % (2 ^ 48 : Nat)).toNat, some false)
  | [] => ((r.count + 1) % 2 ^ 48, none)

/-- Trim and slew at a tick (R364, R365): its crystal cycles, the trim count, the slew, and SLEW_DONE. -/
def tickLength (trim : Word) (trimTicks : Nat) (slew : Option Slew) : Nat × Nat × Option Slew × Bool :=
  let tDue := bit trim 17 && decide (fld trim 15 0 ≤ trimTicks + 1)
  let tt := if tDue || !(bit trim 17) then 0 else trimTicks + 1
  let tl := if bit trim 16 then 1 else 3
  match slew with
  | none => (if tDue then tl else 2, tt, none, false)
  | some x =>
    let sDue := decide (x.period ≤ x.ticks + 1)
    let sl := if x.faster then 1 else 3
    if !sDue then (if tDue then tl else 2, tt, some { x with ticks := x.ticks + 1 }, false)
    else if tDue && x.faster == bit trim 16 then (tl, tt, some { x with ticks := x.period }, false)
    else
      let left := x.left - 1
      (if tDue then 2 else sl, tt, if left = 0 then none else some { x with left := left, ticks := 0 }, left == 0)

/-- Before release no minor cycle counts the time: the core's fabric-time counter and the operating time advance by the ticks, here
one of `len` crystal cycles from count `c`, from the first start on (R290, R363, R413, assumption 41). -/
def tickPass (c len : Nat) (s : State) : State :=
  if s.eng.released || s.reg Reg.sysRstcause == 0#32 then s else
  let d := (tickNs (c % 32 + 1) - tickNs (c % 32)) * len / 2
  { s with fabTime := s.fabTime + d, opUs := s.opUs + ((s.fabTime + d) / 1000 - s.fabTime / 1000) }

/-- One tick. -/
def rtcTick (s : State) : State :=
  let r := s.rtc
  let n := nextCount r
  let slew := if n.2.isSome then none else r.slew
  let l := tickLength r.trim r.trimTicks slew
  let step := n.2.isSome && decide (r.count + 1 < n.1)
  let s1 := { s with rtc := { r with
      count := n.1, due := r.due.drop 1, len := l.1, trimTicks := l.2.1, slew := l.2.2.1,
      latch := r.latch && !(n.2 == some true) } }
  let s2 := (List.range 8).foldl (fun t k => t.setAlm k (almTick r.count n.1 step (t.alm k))) s1
  tickPass r.count r.len (rtcPorts (rtcShow (if l.2.2.2 then s2.orReg Reg.rtcEvt 4 else s2)))

/-- TICK. -/
def execRtcTick (s : State) : Host.Outcome State Fault Refusal := .next (rtcTick s)

/-! ## Island words (Table 14-3): a word with a non-zero reserved bit is ignored -/

/-- Obey a BCMD word whose reserved bits are those of `rsv`. -/
def obey (rsv : Nat) (w : Word) (f : State → State) (s : State) : State :=
  if (w &&& w32 rsv) = 0#32 then rtcShow (f s) else s

/-- The value that A1 and A0 hold. -/
def argValue (s : State) : Nat := fld s.rtc.a1 15 0 * 2 ^ 32 + s.rtc.a0.toNat

def rtcSetDue (v : Nat) (s : State) : State := { s with rtc := { s.rtc with due := s.rtc.due ++ [(true, (v : Int))] } }
def rtcStepDue (d : Int) (s : State) : State := { s with rtc := { s.rtc with due := s.rtc.due ++ [(false, d)] } }

/-- A slew begins (R364); one of no ticks is done at once. -/
def rtcSlew (period count : Nat) (faster : Bool) (s : State) : State :=
  if count = 0 then { s with rtc := { s.rtc with slew := none } }.orReg Reg.rtcEvt 4
  else { s with rtc := { s.rtc with slew := some { period := period, faster := faster, left := count, ticks := 0 } } }

def rtcSlewStop (s : State) : State := { s with rtc := { s.rtc with slew := none } }
def rtcTrim (w : Word) (s : State) : State := { s with rtc := { s.rtc with trim := w, trimTicks := 0 } }
def rtcAlmper (n : Nat) (p : Word) (s : State) : State := s.setAlm n { (s.alm n) with per := p.toNat }
def rtcAlarm (n v : Nat) (armed rep : Bool) (s : State) : State :=
  s.setAlm n { (s.alm n) with due := some (v, (s.alm n).per, armed, rep) }

/-- ACK (R369): FIRED with MISSED, and STEPPED. -/
def rtcAck (fired stepped : Nat) (s : State) : State :=
  (List.range 8).foldl (fun t n =>
    let x := t.alm n
    let y := if fired.testBit n then { x with fired := false, missed := 0 } else x
    t.setAlm n (if stepped.testBit n then { y with stepped := false } else y)) s

def rtcByte (i : Nat) (b : Byte) (s : State) : State := { s with rtc := { s.rtc with bytes := sset 0#8 s.rtc.bytes i b } }

/-- CHG (R371): the charger runs from the rail. -/
def rtcChg (w : Word) (s : State) : State := { s with rtc := { s.rtc with chg := w, charging := bit w 0 && !s.rtc.element } }

/-! Each word of Table 14-3, its KIND left out, and its command. -/

def bcmdSet (w : Word) (s : State) : State := obey 0xFFFFFFF w (fun t => rtcSetDue (argValue t) t) s

/-- SET. -/
def execBcmdSet (w : BitVec 28) (s : State) : Host.Outcome State Fault Refusal := .next (bcmdSet (w.setWidth 32) s)

def bcmdStep (w : Word) (s : State) : State := obey 0xFFFFFFF w (fun t => rtcStepDue t.rtc.a1.toInt t) s

/-- STEP. -/
def execBcmdStep (w : BitVec 28) (s : State) : Host.Outcome State Fault Refusal := .next (bcmdStep (w.setWidth 32) s)

def bcmdSlew (w : Word) (s : State) : State := obey 0xFFE0000 w (fun t => rtcSlew (fld w 15 0) (fld t.rtc.a1 23 0) (bit w 16) t) s

/-- SLEW. -/
def execBcmdSlew (w : BitVec 28) (s : State) : Host.Outcome State Fault Refusal := .next (bcmdSlew (w.setWidth 32) s)

def bcmdSlewStop (w : Word) (s : State) : State := obey 0xFFFFFFF w rtcSlewStop s

/-- SLEW_STOP. -/
def execBcmdSlewStop (w : BitVec 28) (s : State) : Host.Outcome State Fault Refusal := .next (bcmdSlewStop (w.setWidth 32) s)

def bcmdTrim (w : Word) (s : State) : State := obey 0xFFC0000 w (rtcTrim w) s

/-- TRIM. -/
def execBcmdTrim (w : BitVec 28) (s : State) : Host.Outcome State Fault Refusal := .next (bcmdTrim (w.setWidth 32) s)

def bcmdAlmper (w : Word) (s : State) : State := obey 0xFFFFFF8 w (fun t => rtcAlmper (fld w 2 0) t.rtc.a1 t) s

/-- ALMPER. -/
def execBcmdAlmper (w : BitVec 28) (s : State) : Host.Outcome State Fault Refusal := .next (bcmdAlmper (w.setWidth 32) s)

def bcmdAlarm (w : Word) (s : State) : State := obey 0xFFFFFE0 w (fun t => rtcAlarm (fld w 2 0) (argValue t) (bit w 3) (bit w 4) t) s

/-- ALARM. -/
def execBcmdAlarm (w : BitVec 28) (s : State) : Host.Outcome State Fault Refusal := .next (bcmdAlarm (w.setWidth 32) s)

def bcmdAck (w : Word) (s : State) : State := obey 0xFFF0000 w (rtcAck (fld w 7 0) (fld w 15 8)) s

/-- ACK. -/
def execBcmdAck (w : BitVec 28) (s : State) : Host.Outcome State Fault Refusal := .next (bcmdAck (w.setWidth 32) s)

def bcmdByte (w : Word) (s : State) : State := obey 0xFFF00C0 w (rtcByte (fld w 5 0) (BitVec.ofNat 8 (fld w 15 8))) s

/-- BYTE. -/
def execBcmdByte (w : BitVec 28) (s : State) : Host.Outcome State Fault Refusal := .next (bcmdByte (w.setWidth 32) s)

def bcmdRead (w : Word) (s : State) : State := obey 0xFFFFFC0 w (fun t => { t with rtc := { t.rtc with readIdx := fld w 5 0 } }) s

/-- READ. -/
def execBcmdRead (w : BitVec 28) (s : State) : Host.Outcome State Fault Refusal := .next (bcmdRead (w.setWidth 32) s)

def bcmdChg (w : Word) (s : State) : State := obey 0xFFFFFE0 w (rtcChg w) s

/-- CHG. -/
def execBcmdChg (w : BitVec 28) (s : State) : Host.Outcome State Fault Refusal := .next (bcmdChg (w.setWidth 32) s)

/-- A word on BARG: the newer argument becomes the older one. -/
def rtcBarg (w : Word) (s : State) : State := { s with rtc := { s.rtc with a0 := s.rtc.a1, a1 := w } }

/-- BARG. -/
def execBargWord (w : Word) (s : State) : Host.Outcome State Fault Refusal := .next (rtcBarg w s)

/-! ## Supply (R371, R372) -/

/-- RETENTION_TRIP: the comparator sets the latch. -/
def execRetentionTrip (s : State) : Host.Outcome State Fault Refusal := .next (rtcShow { s with rtc := { s.rtc with latch := true } })

/-- An alarm after a retention reset (R372): disarmed with VALUE 0. FIRED, STEPPED and MISSED stay until an ACK (R369); PERIOD and
REPEAT, of which the rule says nothing, stay (assumption 99). -/
def almReset (x : Alm) : Alm := { x with value := 0, armed := false, due := none }

/-- The retention reset: count, alarms, trim, slew and charger, and the bytes invalidated; the latch stays. -/
def retentionReset (s : State) : State :=
  let s1 := (List.range 8).foldl (fun t n => t.setAlm n (almReset (t.alm n))) s
  { s1 with rtc := { s1.rtc with
      count := 0, trim := 0#32, trimTicks := 0, slew := none, due := [], chg := 0#32, charging := false,
      bytes := [(63, 0xFF#8)], latch := true } }

/-- RETENTION_RESET. -/
def execRetentionReset (s : State) : Host.Outcome State Fault Refusal := .next (rtcShow (retentionReset s))

/-- The domain supply changes source without interruption; the charger runs from the rail alone. -/
def switchover (el : Bool) (mv : Nat) (s : State) : State :=
  { s with rtc := { s.rtc with element := el, mv := mv, charging := bit s.rtc.chg 0 && !el } }

/-- BACKUP_SWITCHOVER. -/
def execBackupSwitchover (toElement : Bool) (mv : BitVec 12) (s : State) : Host.Outcome State Fault Refusal :=
  .next (rtcShow (switchover toElement mv.toNat s))

/-- ELEMENT_LOW (R375). -/
def elementLow (mv : Nat) (s : State) : State :=
  rtcShow (rtcRec ({ s with rtc := { s.rtc with mv := mv } }.orReg Reg.rtcEvt 0x20) 0xC06 8 mv [w32 mv])

/-- ELEMENT_LOW. -/
def execElementLow (mv : BitVec 12) (s : State) : Host.Outcome State Fault Refusal := .next (elementLow mv.toNat s)

/-! ## The clock path (R362, R366, R369, R374) -/

def masterNo (m : Master) : Nat := match m with | .engine => 0 | .fabric => 1 | .host => 2

/-- The clock path runs from release; a command written before it stays without effect (assumption 35). -/
def clockPath (f : State → State) (s : State) : State := if s.eng.released then rtcShow (f s) else s

/-- A SET through RTC_CMD: BARG words, then BCMD SET (R362). -/
def cmdSet (m : Nat) (s : State) : State :=
  let s1 := rtcBarg (s.reg Reg.rtcArgHi) (rtcBarg (s.reg Reg.rtcArgLo) s)
  rtcRec (rtcSetDue (argValue s1) s1) 0xC02 4 (s.reg Reg.rtcArgLo).toNat [s.reg Reg.rtcArgLo, w32 m]

/-- RTC_SET. -/
def execRtcSet (m : Master) (s : State) : Host.Outcome State Fault Refusal :=
  .next (if s.boot.prog then s else clockPath (cmdSet (masterNo m)) s)

/-- A STEP through RTC_CMD. -/
def cmdStep (m : Nat) (s : State) : State :=
  let d := s.reg Reg.rtcArgLo
  rtcRec (rtcStepDue d.toInt (rtcBarg d s)) 0xC03 4 d.toNat [d, w32 m]

/-- RTC_STEP. -/
def execRtcStep (m : Master) (s : State) : Host.Outcome State Fault Refusal :=
  .next (if s.boot.prog then s else clockPath (cmdStep (masterNo m)) s)

/-- A SLEW through RTC_CMD: a PERIOD below 50 is ignored and sets BADCMD (R374). -/
def cmdSlew (period : Nat) (faster : Bool) (s : State) : State :=
  if period < 50 then s.orReg Reg.rtcEvt 0x40
  else rtcSlew period (fld (s.reg Reg.rtcArgLo) 23 0) faster (rtcBarg (s.reg Reg.rtcArgLo) s)

/-- RTC_SLEW. -/
def execRtcSlew (_m : Master) (period : BitVec 16) (faster : Bool) (s : State) : Host.Outcome State Fault Refusal :=
  .next (if s.boot.prog then s else clockPath (cmdSlew period.toNat faster) s)

/-- RTC_SLEW_STOP. -/
def execRtcSlewStop (_m : Master) (s : State) : Host.Outcome State Fault Refusal :=
  .next (if s.boot.prog then s else clockPath rtcSlewStop s)

/-- A write of RTC_CMD by a master. -/
def rtcCmd (m : Nat) (w : Word) (s : State) : State :=
  clockPath (fun t => match fld w 31 28 with
    | 1 => cmdSet m t
    | 2 => cmdStep m t
    | 3 => cmdSlew (fld w 15 0) (bit w 16) t
    | 4 => rtcSlewStop t
    | _ => t.orReg Reg.rtcEvt 0x40) s

/-- A write of RTC_ALMn_CFG: the alarm as its registers stand (R373). -/
def almCfg (n : Nat) (w : Word) (s : State) : State :=
  let v := w &&& ~~~(regRsv (Reg.rtcAlmCfg n))
  clockPath (fun t =>
    let per := t.reg (Reg.rtcAlmPer n)
    let value := fld (t.reg (Reg.rtcAlmHi n)) 15 0 * 2 ^ 32 + (t.reg (Reg.rtcAlmLo n)).toNat
    let t1 := rtcBarg (t.reg (Reg.rtcAlmHi n)) (rtcBarg (t.reg (Reg.rtcAlmLo n)) (rtcAlmper n per (rtcBarg per t)))
    rtcAlarm n value (bit v 0) (bit v 1) t1) (s.setReg (Reg.rtcAlmCfg n) v)

/-- RTC_ALARM_CFG_WRITE. -/
def execRtcAlarmCfgWrite (_m : Master) (n : Fin 8) (w : Word) (s : State) : Host.Outcome State Fault Refusal :=
  .next (if s.boot.prog then s else almCfg n.val w s)

/-- A write of RTC_BYTEw: the register at once, and its four bytes, lowest first (R370). -/
def byteWrite (i : Nat) (w : Word) (s : State) : State :=
  clockPath (fun t => (List.range 4).foldl (fun u k => rtcByte (4 * i + k) (BitVec.ofNat 8 (w.toNat / 256 ^ k)) u) t)
    (s.setReg (Reg.rtcByte i) w)

/-- RTC_BYTE_WRITE. -/
def execRtcByteWrite (_m : Master) (i : Fin 16) (w : Word) (s : State) : Host.Outcome State Fault Refusal :=
  .next (if s.boot.prog then s else byteWrite i.val w s)

/-- The TRIM and CHG words after a commit of block 12 and at the first run (R362). -/
def rtcCommitted (s : State) : State := rtcShow (rtcChg (s.reg Reg.rtcChg &&& 0x1F#32) (rtcTrim (s.reg Reg.rtcTrim) s))

/-- One alarm's report (R369): status copied, ACK sent, arm flag and events set, record 0xC04. -/
def reportOne (s : State) (n : Nat) : State :=
  let x := s.alm n
  if !x.fired then s else
  let st := w32 (1 + 2 * b2n x.stepped + 4 * b2n x.armed + 256 * x.missed + 65536 * (s.rf (Reg.rtcAlmStat n) 31 16 + 1))
  let s1 := rtcAck (2 ^ n) (2 ^ n) (s.setReg (Reg.rtcAlmStat n) st)
  let cfg := s1.reg (Reg.rtcAlmCfg n)
  let s2 := if bit cfg 2 then s1.setArm (fld cfg 15 8) true else s1
  let s3 := s2.orReg Reg.rtcEvt (1 + 2 * b2n x.stepped)
  if x.stepped then rtcRec s3 0xC04 6 n [w32 n, w32 x.missed] else s3

/-- ALARM_REPORT: by the clock path, which runs from release. -/
def execAlarmReport (s : State) : Host.Outcome State Fault Refusal := .next (clockPath (fun t => (List.range 8).foldl reportOne t) s)

/-- Does the module take its time from its own tick count (R363)? -/
def tickRoot (s : State) : Bool := isRoot s && !(externalParent s)

/-- Once per second: the root's servo against the tick count (R363), or the discipline of the count (R366). -/
def clockDiscipline (s : State) : State :=
  if tickRoot s then
    let th : Int := (s.fabTime : Int) - (tickNs s.rtc.count : Int) - 45800
    timeServo s.fabTime ({ s with fab := { s.fab with theta2 := 2 * th } }.setReg Reg.fabTimeOffset (w32i th))
  else if s.rb Reg.rtcDisc 0 && s.rb Reg.fabTimeStat 0 then
    let d := (tickOf s.fabTime : Int) - (s.rtc.count : Int)
    if s.rtc.latch ∨ s.rf Reg.rtcDisc 31 16 * 16384 ≤ d.natAbs * 1000 then
      let v := tickOf s.fabTime % 2 ^ 48
      let s1 := rtcBarg (w32 (v / 2 ^ 32)) (rtcBarg (w32 v) s)
      rtcRec (rtcSetDue v s1) 0xC02 4 (w32 v).toNat [w32 v, 0#32]
    else if 2 ≤ d.natAbs then rtcSlew (s.rf Reg.rtcChg 31 16) (2 * d.natAbs) (decide (0 < d)) (rtcBarg (w32 (2 * d.natAbs)) s)
    else s
  else s

/-- CLOCK_DISCIPLINE. -/
def execClockDiscipline (s : State) : Host.Outcome State Fault Refusal := .next (clockPath clockDiscipline s)

/-! ## Starts (R363, R370 to R372) -/

/-- Phase 0 of a power-on or return start: fabric time from the tick count. -/
def loadTick (s : State) : State := { s with fabTime := tickNs s.rtc.count }

/-- Phase 0: CONTINUOUS from the latch, and record 0xC01. -/
def rtcPhase0 (s : State) : State :=
  let s1 := s.setRb Reg.rtcStat 0 (!s.rtc.latch)
  if s.rtc.latch then rtcRec (s1.orReg Reg.rtcEvt 8) 0xC01 10 s.rtc.mv [w32 s.rtc.mv] else s1

/-- Phases 1 and 2: the ROM reads the 64 bytes with READ words, byte 63 last, which TICK_HI shows from the next tick
on (R373). -/
def rtcReadBytes (s : State) : State :=
  let s1 := (List.range 16).foldl (fun t i => t.setReg (Reg.rtcByte i) (w32 (leNat ((List.range 4).map (fun k => backupByte t (4 * i + k)))))) s
  let b := (backupByte s 63).toNat
  let s2 := { s1 with rtc := { s1.rtc with readIdx := 63 } }
  if bytesValid s then s2 else rtcRec (s2.orReg Reg.rtcEvt 0x10) 0xC05 6 b [w32 b]

end Sys2Proof.Machine
end

