-- ==== Sys2Proof/Machine/PairMember.lean ====
section
/-! DEFINITION. The pair: heartbeats, the lease, the signal box and the states of a member (R323 to R341). -/

namespace Sys2Proof.Machine

def parRec (s : State) (code sev subject : Nat) (d : List Word) : State := s.logOnce code 0xA sev subject d
def parEn (s : State) : Bool := s.rb Reg.parCfg 0
def parState (s : State) : Nat := s.rf Reg.parStat 2 0

/-- MEMBER and the partner's address (R34, R323). -/
def member (s : State) : Nat := ownAddr s % 2
def partner (s : State) : Nat := partnerOf (ownAddr s)

/-- Both heartbeat paths are lost (R329): a path that has had no heartbeat since release is lost once its 3 or 30 ms have passed
(assumption 93). -/
def partnerLost (s : State) : Bool := s.pair.lostPl && s.pair.lostFb

/-- The registers that the pair paths publish (R324). -/
def parRegs : List Nat :=
  [Reg.parStat, Reg.parEvt, Reg.parKnown, Reg.parCnt, Reg.parTakeovers, Reg.parHbAge, Reg.parLease, Reg.parGate] ++
  (List.range 8).map Reg.parHbRx ++ (List.range 16).map Reg.parSbStat

def sb0 : SbRec := { valid := false, holder := 0, expiry := 0, pend := none }
def sbRec (s : State) (k : Nat) : SbRec := sget sb0 s.pair.sb k

/-- M, 11 ms (Table 12-1). -/
def marginNs : Nat := 11000000

/-- The ms left to expiry + M of pair k, rounded up: 0 exactly when it has passed (assumption 94). -/
def sbLeftMs (s : State) (k : Nat) : Nat := (((sbRec s k).expiry + marginNs - s.fabTime) + 999999) / 1000000

/-- PAR_SBk_STAT: VALID, HOLDER and MS. -/
def sbShow (s : State) (k : Nat) : State :=
  let x := sbRec s k
  s.setReg (Reg.parSbStat k) (w32 (b2n x.valid + 2 * x.holder + 65536 * (if x.valid then min (sbLeftMs s k) 65535 else 0)))

/-- HOLD (R325), PAR_KNOWN and the signal box's records, published; the gate follows a change of the tablet (R146), and a test ends
as the tablet is lost (R335). -/
def parShow (before s : State) : State :=
  let s1 := (s.setRb Reg.parStat 3 (holdsTablet s)).setRf Reg.parKnown 15 0 (min ((s.pair.knownUs + 999) / 1000) 65535)
  let s2 := if holdsTablet before && !(holdsTablet s) then testCut 3 s1 else s1
  (gateEdge before ((List.range 16).foldl sbShow s2)).republish parRegs

/-- A meaning of the pair paths or the controller, shown at its end. -/
def parStep (f : State → State) (s : State) : State := parShow s (f s)

/-- Write PAR_LEASE.REMAIN: a value above 289,000 is taken as 289,000 (R325). -/
def setLease (n : Nat) (s : State) : State := s.setReg Reg.parLease (w32 (min n 289000))

/-- Write PAR_LEASE.REMAIN when `us` of the minor cycle in progress have passed: the timer counts from then on (R325). -/
def leaseFrom (us n : Nat) (s : State) : State := { (setLease n s) with pair := { s.pair with leaseUs := us } }

/-- A write of PAR_LEASE by a master: how much of the minor cycle has passed is not in the command, and so free (assumption 118). -/
def leaseWrite (w : Word) (s : State) : State :=
  let f := s.free
  leaseFrom (f.1.toNat % (f.2.minorNs / 1000 + 1)) (fld w 18 0) f.2

/-- PAR_LEASE_WRITE. -/
def execParLeaseWrite (_m : Master) (w : Word) (s : State) : Host.Outcome State Fault Refusal :=
  .next (if s.boot.prog then s else parStep (leaseWrite w) s)

/-- PAR_GATE_WRITE. -/
def execParGateWrite (_m : Master) (w : Word) (s : State) : Host.Outcome State Fault Refusal :=
  .next (if s.boot.prog then s else parStep (fun t => t.setReg Reg.parGate (w &&& 1#32)) s)

/-- LEASE_EXPIRY: REMAIN reaches 0 (R325). -/
def execLeaseExpiry (s : State) : Host.Outcome State Fault Refusal := .next (parStep (setLease 0) s)

/-! ## Heartbeats (R328, R329, R336) -/

/-- The words of a heartbeat: PAR_HB_TX0 to 6 and their CRC. -/
def hbWords (s : State) : List Word :=
  let ws := (List.range 7).map (fun i => s.reg (Reg.parHbTx i))
  ws ++ [crc32 (wordBytes ws)]

/-- Raise one age of PAR_HB_AGE by a millisecond. -/
def agePath (hi lo : Nat) (s : State) : State := s.satRf Reg.parHbAge hi lo 1

/-- Heartbeats are sent by a member from release until the engine halts (R328, R339). -/
def sendsHeartbeats (s : State) : Bool := parEn s && s.eng.released && !(s.rb Reg.tteStat 3)

/-- The 1 ms tick of the controller: one frame, and the ages. -/
def heartbeatSend (s : State) : State :=
  if !(sendsHeartbeats s) then s else
  let s1 := { s with pair := { s.pair with linkSent := hbWords s } }
  agePath 31 16 (agePath 15 0 (s1.addReg (Reg.parHbTx 6) 1))

/-- HEARTBEAT_SEND. -/
def execHeartbeatSend (s : State) : Host.Outcome State Fault Refusal := .next (parStep heartbeatSend s)

/-- A pair cell (Table 12-3): TYPE FTYPE, class B, PRIO 0. -/
def pairCell (dest : Nat) (payload : List Byte) (s : State) : State :=
  let c := mkCell dest 2 0 0 (s.rf Reg.parCfg 15 8) 0 payload s
  routeCell none c.1 c.2

/-- A cell of KIND 2 to 5, kept as the last one sent. -/
def kindCell (k : PairCell) (s : State) : State :=
  let p := leBytes 1 k.kind ++ leBytes 3 0 ++ leBytes 2 k.req ++ leBytes 2 (b2n k.valid + 2 * k.holder) ++ leBytes 4 k.ms
  pairCell k.dest p { s with pair := { s.pair with cell := some k, cells := s.pair.cells + 1 } }

/-- The heartbeat over the fabric. -/
def fabricHeartbeat (s : State) : State :=
  if !(sendsHeartbeats s) then s else
  pairCell (partner s) (leBytes 4 1 ++ wordBytes (hbWords s)) { s with pair := { s.pair with fabSent := hbWords s } }

/-- FABRIC_HEARTBEAT. -/
def execFabricHeartbeat (s : State) : Host.Outcome State Fault Refusal := .next (parStep fabricHeartbeat s)

/-- A change of state is recorded each time (R333, R341). -/
def setParState (n : Nat) (s : State) : State :=
  if parState s = n then s else (s.setRf Reg.parStat 2 0 n).append 0xA01 0xA 4 [w32 (parState s), w32 n]

/-- Does a received frame pass every check (R328)? -/
def hbGood (s : State) (ws : List Word) : Bool :=
  decide (ws.length = 8) && crc32 (wordBytes (ws.take 7)) == ws.getD 7 0#32 &&
  decide ((ws.getD 0 0#32) = w32 (partner s + 0x10000 + 0xA7000000))

/-- A failed frame is counted and treated as missing. -/
def hbBad (onFabric : Bool) (s : State) : State :=
  let s1 := (if onFabric then s.satRf Reg.parCnt 31 16 1 else s.satRf Reg.parCnt 15 0 1).orReg Reg.parEvt 0x100
  parRec s1 0xA09 4 (b2n onFabric) [w32 (b2n onFabric), w32 (if onFabric then s1.rf Reg.parCnt 31 16 else s1.rf Reg.parCnt 15 0)]

/-- A member's own grant through word 2 of its heartbeat (R331). -/
def ownGrant (req : Nat) (s : State) : State :=
  { (s.setRf (Reg.parHbTx 2) 31 16 req) with pair := { s.pair with knownUs := max s.pair.knownUs 311000, ownGrant := true } }

/-- A good heartbeat: path and partner reachable, E, a grant of a new request, a conflict (R329, R331, R336). -/
def hbTake (onFabric : Bool) (ws : List Word) (s : State) : State :=
  let w1 := ws.getD 1 0#32
  let req := fld (ws.getD 2 0#32) 15 0
  let hold := bit w1 3
  let st := fld w1 2 0
  let sb := fld (ws.getD 4 0#32) 15 0
  let s1 := if onFabric then (s.setRf Reg.parHbAge 31 16 0).setRb Reg.parStat 5 true else
    (List.range 8).foldl (fun t i => t.setReg (Reg.parHbRx i) (ws.getD i 0#32)) ((s.setRf Reg.parHbAge 15 0 0).setRb Reg.parStat 4 true)
  let known := if hold then max s.pair.knownUs ((ws.getD 3 0#32).toNat + 11000) else s.pair.knownUs
  let s2 := { (s1.setRb Reg.parStat 7 hold) with pair := { s.pair with
    knownUs := known, lostUs := 0, lostPl := s.pair.lostPl && onFabric, lostFb := s.pair.lostFb && !onFabric, partnerState := st, partnerReq := some req, partnerHold := s.pair.partnerHold || hold } }
  let new := match s.pair.partnerReq with | some r => r != req | none => req != 0
  let s3 := if new && ((parState s == 3 && hold) || (parState s == 1 && decide (member s = 1) && st == 1)) then ownGrant req s2 else s2
  let s4 := if sb ≠ s.rf Reg.parSb 15 0 then parRec (s3.orReg Reg.parEvt 0x80) 0xA08 12 st [w32 st, w32 sb] else s3
  if hold && holdsTablet s then
    let s5 := parRec (s4.orReg Reg.parEvt 0x80) 0xA08 12 st [w32 st, w32 sb]
    if member s = 1 then setParState 3 (setLease 0 s5) else s5
  else s4

/-- HEARTBEAT_RECEIVE. -/
def execHeartbeatReceive (overFabric : Bool) (ws : List Word) (s : State) : Host.Outcome State Fault Refusal :=
  .next (if parEn s then parStep (fun t => if hbGood t ws then hbTake overFabric ws t else hbBad overFabric t) s else s)

/-- A path is lost, and the partner with it when both are (R329). -/
def pathLost (onFabric : Bool) (s : State) : State :=
  if !(parEn s) || !s.eng.released || (if onFabric then s.pair.lostFb else s.pair.lostPl) then s else
  let s0 := { s with pair := { s.pair with lostPl := s.pair.lostPl || !onFabric, lostFb := s.pair.lostFb || onFabric } }
  let s1 := (s0.setRb Reg.parStat (if onFabric then 5 else 4) false).orReg Reg.parEvt (if onFabric then 2 else 1)
  let s2 := parRec s1 0xA02 6 (b2n onFabric)
    [w32 (b2n onFabric), w32 (if onFabric then s1.rf Reg.parHbAge 31 16 else s1.rf Reg.parHbAge 15 0)]
  if partnerLost s2 then
    let k := w32 (min ((s2.pair.knownUs + 999) / 1000) 65535)
    faultOwn (partner s2) 1 [] (parRec ({ s2 with pair := { s2.pair with lostUs := 0 } }.orReg Reg.parEvt 4) 0xA03 10 k.toNat [k])
  else s2

/-- PATH_LOST. -/
def execPathLost (onFabric : Bool) (s : State) : Host.Outcome State Fault Refusal := .next (parStep (pathLost onFabric) s)

/-! ## Requests and grants (R330, R332) -/

/-- The signal box has answered. -/
def boxAnswered (s : State) : State := { (s.setRb Reg.parStat 6 true) with pair := { s.pair with sbAnswer := true } }

/-- May a member ask the signal box: ACTIVE always, CONTENDING once the partner is lost and E + M has passed (R333)? -/
def asksBox (s : State) : Bool := parState s == 2 || (parState s == 1 && partnerLost s && s.pair.knownUs == 0)

/-- A request first sent at a core cycle of the minor cycle, and whether the signal box answers it. -/
def leaseRequest (answered : Bool) (cycle : Nat) (s : State) : State :=
  if !(parEn s) || !(parState s == 1 || parState s == 2) then s else
  let req := (s.rf (Reg.parHbTx 2) 15 0 + 1) % 65536
  let s1 := { s with pair := { s.pair with reqAt := sset 0 s.pair.reqAt req (1 + s.nowNs cycle) } }.setRf (Reg.parHbTx 2) 15 0 req
  if asksBox s1 then
    let s2 := kindCell { kind := 2, dest := s.rf Reg.parSb 15 0, req := req, valid := false, holder := 0, ms := 0 } s1
    if answered then boxAnswered s2 else s2
  else s1

/-- LEASE_REQUEST. -/
def execLeaseRequest (answered : Bool) (cycle : BitVec 17) (s : State) : Host.Outcome State Fault Refusal :=
  .next (parStep (leaseRequest answered cycle.toNat) s)

/-- The whole µs at a fabric time since a request was first sent; none for a request that was not (R330). -/
def requestAge (s : State) (req now : Nat) : Option Nat :=
  match sget 0 s.pair.reqAt req with
  | 0 => none
  | t + 1 => some ((now - t) / 1000)

/-- A grant, at a core cycle of the minor cycle, that names a request; one for an older request than one applied is ignored. -/
def grant (req cycle : Nat) (fromBox : Bool) (s0 : State) : State :=
  if !(parEn s0) then s0 else
  let s := if fromBox then boxAnswered s0 else s0
  let older := match s.pair.applied with | some a => decide (32768 ≤ (req + 65536 - a) % 65536) | none => false
  match requestAge s req (s.nowNs cycle) with
  | some us =>
    if !(parState s == 1 || parState s == 2) || older || decide (289000 ≤ us) then s else
    { (setLease (289000 - us) s) with pair := { s.pair with applied := some req, granted := true, leaseUs := min (cycle * 5 / 2) s.minorNs / 1000 } }
  | none => s

/-- GRANT. -/
def execParGrant (req : BitVec 16) (cycle : BitVec 17) (fromBox : Bool) (s : State) : Host.Outcome State Fault Refusal :=
  .next (parStep (grant req.toNat cycle.toNat fromBox) s)

/-- A probe from STANDBY or SAFE, and whether the signal box answers it. -/
def probe (answered : Bool) (s : State) : State :=
  if !(parEn s) || !(parState s == 3 || parState s == 4) then s else
  let s1 := kindCell { kind := 3, dest := s.rf Reg.parSb 15 0, req := 0, valid := false, holder := 0, ms := 0 } s
  if answered then boxAnswered s1 else s1

/-- PROBE. -/
def execParProbe (answered : Bool) (s : State) : Host.Outcome State Fault Refusal := .next (parStep (probe answered) s)

/-- No answer within SBLOST (R332). -/
def sbLost (s : State) : State :=
  if !(parEn s) then s else
  parRec ((s.setRb Reg.parStat 6 false).orReg Reg.parEvt 8) 0xA04 8 (s.rf Reg.parSb 15 0) [w32 (s.rf Reg.parSb 15 0)]

/-- SB_LOST. -/
def execSbLost (s : State) : Host.Outcome State Fault Refusal := .next (parStep sbLost s)

/-! ## The signal box (R332) -/

/-- Keep a record; `parShow` shows it. -/
def setSb (k : Nat) (x : SbRec) (s : State) : State := { s with pair := { s.pair with sb := sset sb0 s.pair.sb k x } }

/-- The address of a member of pair k. -/
def pairAddr (s : State) (k x : Nat) : Nat := s.rf (Reg.parSbPair k) 15 0 + x

/-- Grant a request of a member. -/
def sbGrant (k x req : Nat) (s : State) : State :=
  let r := sbRec s k
  let s1 := if r.valid ∧ r.holder ≠ x then parRec s 0xA0A 8 (pairAddr s k 0) [w32 (pairAddr s k 0), w32 x] else s
  kindCell { kind := 4, dest := pairAddr s k x, req := req, valid := false, holder := 0, ms := 300 }
    (setSb k { r with valid := true, holder := x, expiry := s.fabTime + 300000000 } s1)

/-- Answer KIND 5. -/
def sbState (k x : Nat) (valid : Bool) (s : State) : State :=
  let r := sbRec s k
  kindCell { kind := 5, dest := pairAddr s k x, req := 0, valid := valid && r.valid, holder := if valid then r.holder else 0,
             ms := if valid then sbLeftMs s k else 0 } s

/-- A cell of KIND 2, or KIND 3 (`probe`), from member x of pair k. -/
def signalBox (k x : Nat) (isProbe : Bool) (req : Nat) (s : State) : State :=
  let r := sbRec s k
  if !(s.rb Reg.parCfg 1) || !(s.rb (Reg.parSbPair k) 16) then s
  else if s.fabTime < s.pair.releaseNs + 311000000 then sbState k x false s
  else if isProbe then sbState k x true s
  else if !r.valid ∨ r.holder = x ∨ r.expiry + marginNs ≤ s.fabTime then sbGrant k x req s
  else sbState k x true (setSb k { r with pend := some (x, req, s.fabTime) } s)

/-- SIGNAL_BOX_REQUEST. -/
def execSignalBoxRequest (k : Fin 16) (member probe : Bool) (req : BitVec 16) (s : State) : Host.Outcome State Fault Refusal :=
  .next (parStep (signalBox k.val (b2n member) probe req.toNat) s)

/-- One pending request at a run of the signal box. -/
def sbPending (s : State) (k : Nat) : State :=
  let r := sbRec s k
  match r.pend with
  | some (x, q, t) =>
    if r.expiry + marginNs ≤ s.fabTime then
      let s1 := if s.fabTime - t ≤ 100000000 then sbGrant k x q s else s
      setSb k { (sbRec s1 k) with pend := none } s1
    else s
  | none => s

/-- SIGNAL_BOX_PENDING_GRANT. -/
def execSignalBoxPendingGrant (s : State) : Host.Outcome State Fault Refusal :=
  .next (parStep (fun t => if t.rb Reg.parCfg 1 then (List.range 16).foldl sbPending t else t) s)

/-! ## States (R333, R334) -/

/-- One analogue channel in SAFE: sourced after its time below 2,731, barred once RB_DEV sets. -/
def safeChannel (s : State) (i : Nat) : State :=
  let w := s.reg (Reg.aioAgChRb (i / 4) (i % 4))
  let us := s.fabTime / 1000
  let since := sget 0 s.pair.aoUs i
  if !(s.rb Reg.parSafeAo i) then s
  else if bit w 16 ∧ s.pair.aoEn.testBit i then
    { s with pair := { s.pair with aoEn := s.pair.aoEn - 2 ^ i, aoBar := s.pair.aoBar ||| 2 ^ i } }
  else if 2731 ≤ fld w 15 0 then { s with pair := { s.pair with aoUs := sset 0 s.pair.aoUs i 0 } }
  else if since = 0 then { s with pair := { s.pair with aoUs := sset 0 s.pair.aoUs i (us + 1) } }
  else if since + (if member s = 0 then 50000 else 250000) ≤ us + 1 ∧ !(s.pair.aoBar.testBit i) then
    { s with pair := { s.pair with aoEn := s.pair.aoEn ||| 2 ^ i } }
  else s

/-- A gated word of a group written by the pair paths. -/
def gatedOut (g : Nat) (w : Word) (s : State) : State := let r := gateWrite s g w; r.2.sendOut (groupPort g) r.1

/-- An AOUT word that the pair paths write (Table 8-8). -/
def aoutSend (p : Nat) (w : Word) (s : State) : State := (noteAout p w s).sendOut p w

/-- The pair-safe values commanded in SAFE (R334). -/
def safeValues (s0 : State) : State :=
  let s := (List.range 16).foldl safeChannel s0
  let s1 := gatedOut 1 (w32 (s.rf Reg.parSafeDo 31 16)) (gatedOut 0 (w32 (s.rf Reg.parSafeDo 15 0)) s)
  (List.range 4).foldl (fun t a =>
    let en := fld (w32 t.pair.aoEn) (4 * a + 3) (4 * a)
    let t1 := (bitsOf 4 en).foldl (fun u c => aoutSend (64 * (17 + a) + 32 + c) (w32 (u.rf (Reg.aioAgChSafe a c) 15 0)) u) t
    gatedOut (2 + a) (w32 en) t1) s1

/-- SAFE is entered. -/
def enterSafe (s : State) : State :=
  let s1 := { (s.setReg Reg.parGate 1#32) with pair := { s.pair with aoUs := [], aoEn := 0, aoBar := 0 } }
  faultOwn (ownAddr s) 6 [] (parRec ((setParState 4 s1).orReg Reg.parEvt 0x40) 0xA07 12 0 [])

/-- SAFE is left. -/
def leaveSafe (n : Nat) (s : State) : State := setParState n (s.setReg Reg.parGate 0#32)

/-- ACTIVE is entered: TAKEOVER, and record 0xA05. -/
def enterActive (s : State) : State :=
  let ms := if partnerLost s then s.pair.lostUs / 1000 else 0
  parRec (((setParState 2 s).orReg Reg.parEvt 0x10).satRf Reg.parTakeovers 15 0 1) 0xA05 10 ms [w32 ms]

/-- The transition that the conditions of Table 12-4 ask for. -/
def pairMove (s : State) : State :=
  let gone := partnerLost s && s.pair.knownUs == 0
  match parState s with
  | 1 =>
    if s.pair.granted then enterActive s
    else if s.pair.partnerHold || (s.pair.ownGrant && decide (member s = 1)) then setParState 3 s
    else if gone && !(s.rb Reg.parStat 6) then enterSafe s else s
  | 2 =>
    if s.rf Reg.parLease 18 0 = 0 then
      let req := s.rf (Reg.parHbTx 2) 15 0
      parRec (((setParState 1 s).orReg Reg.parEvt 0x20).satRf Reg.parTakeovers 31 16 1) 0xA06 10 req [w32 req]
    else s
  | 3 => if gone then setParState 1 s else s
  | 4 => if s.pair.partnerHold then leaveSafe 3 s else if s.pair.sbAnswer then leaveSafe 1 s else s
  | _ => s

/-- The heartbeat content that the pair paths keep (Table 12-2). -/
def hbContent (s : State) : State :=
  let w1 := parState s + 8 * b2n (holdsTablet s) + 16 * s.rf Reg.parStat 6 4
  ((((s.setReg (Reg.parHbTx 0) (w32 (ownAddr s + 0x10000 + 0xA7000000))).setReg (Reg.parHbTx 1) (w32 w1)).setReg (Reg.parHbTx 3)
    (w32 (s.rf Reg.parLease 18 0))).setReg (Reg.parHbTx 4) (w32 (s.rf Reg.parSb 15 0))).setReg (Reg.parHbTx 5) (w32 s.image.seq)

/-- The transition of a run of the pair paths (R333): one at most. -/
def pairTurn (s : State) : State :=
  let s1 := pairMove s
  { s1 with pair := { s1.pair with granted := false, ownGrant := false, partnerHold := false, sbAnswer := false } }

/-- A run of the pair paths: the transition, with the gate reset that a change of PAR_GATE.SAFE asks for (R146), then the values
commanded in SAFE (R334), and the heartbeat's content. -/
def pairRun (s : State) : State :=
  if !(parEn s) || !s.eng.released then s else
  let s1 := parStep pairTurn s
  hbContent (if parState s1 = 4 then safeValues s1 else s1)

/-- PAIR_STATE_CHANGE. -/
def execPairStateChange (s : State) : Host.Outcome State Fault Refusal := .next (pairRun s)

/-! ## Release and time (R325, R339) -/

/-- Release: a member enters CONTENDING (R339). -/
def parRelease (s : State) : State :=
  let s1 := { s with pair := { s.pair with releaseNs := s.fabTime } }
  parStep (fun t => if parEn t then hbContent (setParState 1 t) else t) s1

/-- `us` microseconds pass to the next boundary: REMAIN, from its last write on, E + M and the time since the partner was lost; PAR_SBk_STAT.MS follows (R342). -/
def parTime (us : Nat) (s : State) : State :=
  let s1 := { s with pair := { s.pair with knownUs := s.pair.knownUs - us, lostUs := if partnerLost s then s.pair.lostUs + us else 0 } }
  parStep (fun t => leaseFrom 0 (t.rf Reg.parLease 18 0 - (us - t.pair.leaseUs)) t) s1

end Sys2Proof.Machine
end

