-- ==== Sys2Proof/Machine/SecObj.lean ====
section
/-! DEFINITION. The requests, the object window, the security island's operations, and the trial's clock (R382, R386 to R392,
R395, R396, R401, R402). -/

namespace Sys2Proof.Machine

/-! ## Requests (R390 to R392) -/

/-- A write of SEC_REQ (R390): CMD other than 0 starts a request when none is in progress. -/
def reqWrite (w : Word) (s : State) : State :=
  if fld w 3 0 = 0 then s.setReg Reg.secReq (w &&& ~~~(regRsv Reg.secReq))
  else if s.rb Reg.secResp 0 then secShow (s.satRf Reg.secCnt 15 0 1)
  else
    let s1 := s.setReg Reg.secReq (w &&& ~~~(regRsv Reg.secReq))
    let s2 := (s1.setRb Reg.secResp 0 true).setRb Reg.secResp 1 false
    { s2 with sec := { s2.sec with req := some w } }

/-- The 32 bytes of SEC_ARG0 to SEC_ARG7. -/
def argBytes (s : State) : List Byte := wordBytes ((List.range 8).map (fun i => s.reg (Reg.secArg i)))

/-- The key of PUBKEY (Table 15-7): none where KIND names none. -/
def pubKey (s : State) (kind : Nat) : Option (List Byte) :=
  match kind with
  | 0 => some identityPub
  | 1 => some mlkemPub
  | 2 => selectedRoot s
  | _ => none

/-- The result code of a key that is not there. -/
def noKeyCode (s : State) (kind : Nat) : Nat := if kind = 2 ∧ s.sec.retired then 0x0D else 0x01

/-- The challenge tag of R391: result code and tag. -/
def challengeTag (s : State) (c : List Byte) : Nat × List Byte :=
  if s.sec.retired then (0x0D, []) else
  match s.sec.kOwner with
  | none => (0x0C, [])
  | some k => (0, kmac256 (kChal k.2 k.1) (c ++ deviceId ++ leBytes 8 s.sec.srec.counter) 32 "KV1620 challenge")

/-- The attestation report (Table 15-8), from the 13 words the engine sends. -/
def attestReport (s : State) (ws : List Word) : List Byte :=
  let b := padTo 52 (wordBytes ws)
  asciiBytes "KVAT" ++ leBytes 2 1 ++ leBytes 1 (lcOf s) ++ leBytes 1 s.sec.lcn ++
  leBytes 4 (s.reg Reg.sysSerialLo).toNat ++ leBytes 4 (s.reg Reg.sysSerialHi).toNat ++ leBytes 8 s.sec.srec.counter ++
  leBytes 8 s.image.seq ++ leBytes 4 (s.reg Reg.sysCfgSeqLo).toNat ++ leBytes 4 (s.reg Reg.sysCfgSeqHi).toNat ++
  (b.drop 32).take 8 ++ (b.drop 40).take 2 ++ leBytes 2 0 ++ (b.drop 44).take 4 ++ (b.drop 48).take 4 ++ leBytes 4 0 ++
  b.take 32 ++ padTo 64 s.sec.imgHash ++ padTo 64 s.sec.genHash

/-- The 13 words that the security path sends for ATTEST (R392). -/
def attestWords (s : State) : List Word :=
  (List.range 8).map (fun i => s.reg (Reg.secArg i)) ++
  [w32 s.fabTime, w32 (s.fabTime / 2 ^ 32), s.reg Reg.sysAddr, s.reg Reg.sysCommitSeq, s.reg Reg.sysStat]

/-- Report and signature by the identity key: result code and bytes, SIG_LEN in `n` bytes. -/
def attest (n : Nat) (ws : List Word) (s : State) : Nat × List Byte × State :=
  if s.sec.retired then (0x0D, [], s) else
  let rep := attestReport s ws
  let g := signIdentity rep s
  (0, rep ++ leBytes n g.1.length ++ g.1, g.2)

/-- Write the output bytes into SEC_OUT0 onward, the last word padded with 0. -/
def putOut (l : List Byte) (s : State) : State :=
  (bytesWords (padTo ((l.length + 3) / 4 * 4) l)).zipIdx.foldl (fun t p => t.publish [(Reg.secOut p.2, p.1)])
    (s.setReg Reg.secOutlen (w32 l.length))

/-- Answer the standing request (R390): output, DONE, RESULT and TAG. -/
def answer (w : Word) (code : Nat) (out : List Byte) (s : State) : State :=
  let s1 := putOut out s
  let s2 := { s1 with sec := { s1.sec with req := none } }
  secShow (s2.setReg Reg.secResp (w32 (2 + code * 256 + fld w 23 16 * 2 ^ 16)))

/-- The security path, or in siding mode the ROM, takes up the standing request (R390 to R392, R405). -/
def reqServe (s : State) : State :=
  match s.sec.req with
  | none => s
  | some w =>
    match fld w 3 0 with
    | 1 => match pubKey s (fld w 9 8) with
      | some k => answer w 0 k s
      | none => answer w (noKeyCode s (fld w 9 8)) [] s
    | 2 => if s.boot.siding then answer w 0x0E [] s else let r := challengeTag s (argBytes s); answer w r.1 r.2 s
    | 3 => if s.boot.siding then answer w 0x0E [] s else let r := attest 2 (attestWords s) s; answer w r.1 r.2.1 r.2.2
    | _ => answer w (if s.boot.siding then 0x0E else 0x01) [] s

/-- READ_PUB, CHALLENGE and ATTEST: the write of SEC_REQ, and its taking up where it started a request. -/
def request (cmd kind tag : Nat) (s : State) : State :=
  if s.rb Reg.secResp 0 then reqWrite (w32 (cmd + kind * 256 + tag * 2 ^ 16)) s
  else reqServe (reqWrite (w32 (cmd + kind * 256 + tag * 2 ^ 16)) s)

/-- READ_PUB. -/
def execReadPub (kind : BitVec 2) (tag : BitVec 8) (s : State) : Host.Outcome State Fault Refusal :=
  .next (if s.boot.prog then s else request 1 kind.toNat tag.toNat s)

/-- CHALLENGE. -/
def execChallenge (tag : BitVec 8) (s : State) : Host.Outcome State Fault Refusal :=
  .next (if s.boot.prog then s else request 2 0 tag.toNat s)

/-- ATTEST. -/
def execAttest (tag : BitVec 8) (s : State) : Host.Outcome State Fault Refusal := .next (if s.boot.prog then s else request 3 0 tag.toNat s)

/-! ## The object window (R401, R402) -/

/-- Close the object with a result: STATE 3 accepted, 4 refused. -/
def objClose (code : Nat) (s : State) : State :=
  let s1 := { s with sec := { s.sec with obj := none, due := none, obuf := [] } }
  (s1.setRf Reg.secObjStat 2 0 (if code = 0 then 3 else 4)).setRf Reg.secObjStat 15 8 code

/-- Close an object of KIND 1 or 2 and report it (R408, Table 15-15). -/
def objResult (kind code : Nat) (s : State) : State :=
  secShow (if code = 0 then secEvt (objClose 0 s) 4 else refused kind code (objClose code s))

/-- A write to SEC_OBJ_CTRL that the module ignores (R401). -/
def objIgnored (s : State) : State := secShow (s.satRf Reg.secCnt 15 0 1)

/-- BEGIN (R401): a RETIRED module accepts no object (R405). -/
def objOpen (m kind : Nat) (s : State) : State :=
  let s1 := s.setReg Reg.secObjStat (w32 (1 + m * 8))
  if s.sec.retired then objResult kind 0x0D s1
  else if kind = 3 then objResult kind 0x01 s1
  else secShow { s1 with sec := { s1.sec with obj := some { owner := m, kind := kind, len := 0, hdr := false }, due := none, obuf := [] } }

/-- Is the active transfer one that the object window feeds? A transfer from a link may have taken its place (R399). -/
def hostFed (s : State) : Bool := match s.sec.xfer with | some x => x.byHost | none => false

/-- Abandon the object, and the transfer that it feeds (R401). -/
def objAbandon (s : State) : State :=
  match s.sec.obj with
  | none => s
  | some o => secShow (objClose 0x0F (if o.hdr && o.kind == 2 && hostFed s then xferEnd 0x0F s else s))

/-- A write of SEC_OBJ_CTRL by a master (0 engine, 1 fabric, 2 host) (R401). -/
def objCtrl (m : Nat) (w : Word) (s : State) : State :=
  let op := fld w 2 0
  match s.sec.obj with
  | none =>
    let s1 := s.setReg Reg.secObjCtrl (w &&& ~~~(regRsv Reg.secObjCtrl))
    if op = 1 then objOpen m (fld w 5 4) s1 else s1
  | some o =>
    if o.owner ≠ m ∨ s.rf Reg.secObjStat 2 0 = 2 ∨ op = 1 then objIgnored s
    else
      let s1 := s.setReg Reg.secObjCtrl (w &&& ~~~(regRsv Reg.secObjCtrl))
      if op = 4 then objAbandon s1
      else if op = 2 ∨ op = 3 then
        secShow { (s1.setRf Reg.secObjStat 2 0 2) with sec := { s1.sec with due := some op } }
      else s1

/-- The 256 bytes of the window. -/
def windowBytes (s : State) : List Byte := wordBytes ((List.range 64).map (fun i => s.reg (Reg.secObjWin i)))

/-- A transfer of the window, before its header is accepted. -/
def hostXfer0 (id : Nat) : Xfer :=
  { id := id, slot := 0, bodyLen := 0, total := 0, byHost := true, early := true, same := false, hdr := false, stored := [],
    got := [], nacks := [], buf := [], unacked := [], sent := [], link := none }

/-- The header of a KIND 2 object has arrived (R397): it is checked as a transfer numbered after the last one, so that it abandons
one that is still active (R399). -/
def objHeader (h : List Byte) (s0 : State) : State :=
  let id := (s0.reg Reg.secXfer).toNat + 1
  let s := xferEnd 0x0F s0
  let code := headerCode s h
  if code ≠ 0 then objResult 2 code (xferRefuse id code { s with sec := { s.sec with xfer := some (hostXfer0 id) } })
  else
    let s1 := xferAccept h (hostXfer0 id) s
    secShow { s1 with sec := { s1.sec with obj := s1.sec.obj.map (fun o => { o with hdr := true }), obuf := [] } }

/-- Bytes appended to a KIND 2 object: the header at 8,192 bytes, then chunk after chunk (R398, R401). -/
def objImage (o : Obj) (s : State) : State :=
  match o.hdr, s.sec.xfer with
  | true, some x =>
    let i := x.stored.length
    let n := chunkLen (slotHeader s x.slot) i
    if x.byHost ∧ i < x.total ∧ n ≤ s.sec.obuf.length then
      let r := storeChunk i (s.sec.obuf.take n) x s
      if r.1 ≠ 0 then objResult 2 r.1 r.2 else secShow { r.2 with sec := { r.2.sec with obuf := [] } }
    else s
  | true, none => s
  | false, _ => if 8192 ≤ s.sec.obuf.length then objHeader (s.sec.obuf.take 8192) s else s

/-- The first bytes of a 64 KiB sector of the object area find it erased (R456, assumption 120). -/
def objErase (n : Nat) (m : List Host.Cell) : List Host.Cell := if n % 0x10000 = 0 then memZero m (objBase + n) 0x10000 else m

/-- The window is appended to the open object (R401): KIND 0 and 1 go to the object area of 8 MiB. -/
def putServe (o : Obj) (s : State) : State :=
  let b := windowBytes s
  let s1 := (s.setRf Reg.secObjStat 2 0 1).setRf Reg.secObjStat 31 16 (s.rf Reg.secObjStat 31 16 + 1)
  let s2 := { s1 with sec := { s1.sec with obj := some { o with len := o.len + 256 }, due := none } }
  if o.kind = 2 then secShow (objImage o { s2 with sec := { s2.sec with obuf := s2.sec.obuf ++ b } })
  else secShow (if o.len + 256 ≤ 0x800000 then { s2 with store := memPut (objErase o.len s2.store) (objBase + o.len) b } else s2)

/-- The generation area that is not in use. -/
def freeGen (s : State) : Nat :=
  if s.image.loaded then 1 - s.rf Reg.sysCfg 0 0 else match newestGen s (validGens s) with | some g => 1 - g | none => 0

/-- The slot whose schema judges a delivered generation (R402). -/
def judgeSlot (s : State) (forSeq : Nat) : Nat :=
  match [0, 1].find? (fun x => decide (forSeq ≠ 0) && decide (slotState s.sec.srec x ≠ 0) && slotSeq s.sec.srec x == forSeq) with
  | some x => x
  | none => s.image.slot

/-- The result code of a delivered generation of `n` bytes in the object area (R402). -/
def genCode (s : State) (n : Nat) : Nat :=
  let g := genHeaderAt s objBase
  let body := genBody s objBase
  if s.sec.retired then 0x0D
  else if !s.boot.siding && (trialSlot s.sec.srec).isSome then 0x09
  else if n < 4096 ∨ n < 4096 + gBodyLen g ∨ !(genFieldsOk (g.take 0x30 ++ shake256 body 64 ++ g.drop 0x70) body) then 0x01
  else if gSigner g ≠ 0 then 0x01
  else match keyNamed (selectedRoot s).toList (gKeyId g) with
    | none => 0x04
    | some k =>
      if !(sigRight k (g.take 0x600) ((g.drop 0x600).take 1536)) then 0x05
      else if !(genFieldsOk g body) || (validGens s).any (fun x => decide (gSeq g ≤ gSeq (genHeaderAt s (genBase x)))) ||
        !(decide (gFor g = 0) || (s.image.loaded && gFor g == s.image.seq) ||
          [0, 1].any (fun x => slotState s.sec.srec x == 2 && slotSeq s.sec.srec x == gFor g)) ||
        (generationRefusal s objBase (slotSchema s (judgeSlot s (gFor g)))).isSome then 0x0A
      else 0

/-- An accepted generation, of the length its own header gives, goes into the area that is not in use, whose sectors are erased first
(R402, R456). -/
def genStore (s : State) : State :=
  let n := 4096 + gBodyLen (genHeaderAt s objBase)
  { s with store := memCopy s.store objBase n (memZero s.store (genBase (freeGen s)) 0x400000) (genBase (freeGen s)) }

/-- SUBMIT (R401): the object's length comes from its own header. `ok` says that the writes succeed. -/
def submitServe (o : Obj) (ok : Bool) (s0 : State) : State :=
  let s := { s0 with sec := { s0.sec with obj := none, due := none } }
  match o.kind with
  | 0 =>
    let m := memBytes s.store objBase (min o.len (msgLen (memBytes s.store objBase 0x50)))
    let r := deliver m ok s
    secShow (objClose r.1 r.2)
  | 1 =>
    let c := genCode s o.len
    if c ≠ 0 then objResult 1 c s else if !ok then objResult 1 0x0B s else objResult 1 0 (genStore s)
  | _ =>
    match s.sec.xfer with
    | some x => if o.hdr && x.byHost && decide (x.stored.length = x.total) then
          objResult 2 0 (if relayDone s x then xferEnd 0 s else s)
        else objResult 2 0x01 (if o.hdr && x.byHost then xferEnd 0x01 s else s)
    | none => objResult 2 0x01 s

/-- The security path takes up a PUT or a SUBMIT that the window has asked for. -/
def objServe (ok : Bool) (s : State) : State :=
  match s.sec.obj, s.sec.due with
  | some o, some 2 => putServe o s
  | some o, some 3 => submitServe o ok s
  | _, _ => s

/-- What the security paths take up at a run. -/
def secServe (s : State) : State := objServe true (reqServe s)

/-- A write of SEC_OBJ_CTRL and, where it is obeyed, its work at once. -/
def objOp (m : Master) (op kind : Nat) (ok : Bool) (s : State) : State :=
  let s1 := objCtrl (masterCode m) (w32 (op + kind * 16)) s
  if s.rf Reg.secObjStat 2 0 = 2 then s1 else objServe ok s1

/-- BEGIN. -/
def execObjBegin (m : Master) (kind : BitVec 2) (s : State) : Host.Outcome State Fault Refusal :=
  .next (if s.boot.prog then s else objOp m 1 kind.toNat true s)

/-- PUT. -/
def execObjPut (m : Master) (s : State) : Host.Outcome State Fault Refusal := .next (if s.boot.prog then s else objOp m 2 0 true s)

/-- SUBMIT. -/
def execObjSubmit (m : Master) (ok : Bool) (s : State) : Host.Outcome State Fault Refusal :=
  .next (if s.boot.prog then s else objOp m 3 0 ok s)

/-- CANCEL. -/
def execObjCancel (m : Master) (s : State) : Host.Outcome State Fault Refusal := .next (if s.boot.prog then s else objOp m 4 0 true s)

/-- OBJECT_TIMEOUT (R401). -/
def execObjectTimeout (s : State) : Host.Outcome State Fault Refusal := .next (if s.boot.prog then s else objAbandon s)

/-! ## The island's operations (R389) -/

/-- Words that SOUT has room for go into its queue; the rest wait in the island (assumption 30). -/
def soutDrain (s : State) : State :=
  let n := islandRoom s 22 3
  islandPush { s with sec := { s.sec with sout := s.sec.sout.drop n } } 22 3 (s.sec.sout.take n)

/-- SSTAT, BUSY while an operation is in progress. -/
def sstatWord (s : State) : Word :=
  w32 (b2n s.sec.job.isSome + lcOf s * 2 + s.sec.lcn * 8 + b2n s.sec.srec.owner * 256 + (s.sec.ops % 2 ^ 16) * 2 ^ 16)

/-- An SRESULT word. -/
def sresult (op tag code : Nat) : Word := w32 (op * 2 ^ 24 + tag * 2 ^ 16 + code)

/-- An operation ends with its result code and its output bytes: SSTAT and SRESULT are written, and the output goes to SOUT. -/
def opDone (op tag : Nat) (r : Nat × List Byte × State) : State :=
  let out := if r.1 = 0 then bytesWords (padTo ((r.2.1.length + 3) / 4 * 4) r.2.1) else []
  let s1 := { r.2.2 with sec := { r.2.2.sec with ops := r.2.2.sec.ops + 1, sout := r.2.2.sec.sout ++ out } }
  soutDrain (sendIn 22 0 [sstatWord s1, sresult op tag r.1] s1)

/-- An operation of the island, whole: its SCMD word, its input and its result; or code 0x0E when SCMD arrives while BUSY = 1. -/
def islandOp (op : Nat) (busy : Bool) (tag : BitVec 8) (f : State → Nat × List Byte × State) (s : State) : State :=
  if busy || s.sec.job.isSome then sendIn 22 1 [sresult op tag.toNat 0x0E] s else opDone op tag.toNat (f s)

/-- SHAKE: the digest of a message. -/
def shakeOp (n : Nat) (msg : List Byte) (s : State) : Nat × List Byte × State :=
  if n = 32 ∨ n = 64 then (0, shake256 msg n, s) else (0x01, [], s)

/-- SHAKE. -/
def execIslandShake (busy : Bool) (tag : BitVec 8) (n : BitVec 16) (msg : List Byte) (s : State) : Host.Outcome State Fault Refusal :=
  .next (if s.boot.prog then s else islandOp 1 busy tag (shakeOp n.toNat msg) s)

/-- The key that VERIFY's ARG names (Table 15-7). -/
def verifyKey (s : State) (k : Nat) : Option (List Byte) :=
  match k with
  | 0 => selectedRoot s
  | 1 => some factoryRoot
  | 2 => some returnRoot
  | 3 => if lcOf s = 1 then some s.sec.srec.ownerRoot else none
  | 4 => previousRoot s
  | _ => some identityPub

/-- VERIFY. -/
def verifyOp (k : Nat) (msg sig : List Byte) (s : State) : Nat × List Byte × State :=
  if 5 < k ∨ sig.length = 0 ∨ 1534 < sig.length then (0x01, [], s)
  else match verifyKey s k with
    | none => (if s.sec.retired then 0x0D else 0x04, [], s)
    | some key => (if falconOk key msg sig then 0 else 0x05, [], s)

/-- VERIFY. -/
def execIslandVerify (busy : Bool) (tag : BitVec 8) (k : BitVec 16) (msg sig : List Byte) (s : State) :
    Host.Outcome State Fault Refusal := .next (if s.boot.prog then s else islandOp 2 busy tag (verifyOp k.toNat msg sig) s)

/-- SIGNGEN signs a generation header of the running image, and nothing else. -/
def signgenOp (h : List Byte) (s : State) : Nat × List Byte × State :=
  if s.sec.retired then (0x0D, [], s)
  else if h.length = 1536 && h.take 4 == asciiBytes "KVCG" && gSigner h = 1 && s.image.loaded && gFor h = s.image.seq then
    let g := signIdentity h s
    (0, leBytes 4 g.1.length ++ g.1, g.2)
  else (0x01, [], s)

/-- SIGNGEN. -/
def execSigngen (busy : Bool) (tag : BitVec 8) (h : List Byte) (s : State) : Host.Outcome State Fault Refusal :=
  .next (if s.boot.prog then s else islandOp 3 busy tag (signgenOp h) s)

/-- MESSAGE: an accepted message gives its new record on SOUT. -/
def messageOp (m : List Byte) (s : State) : Nat × List Byte × State :=
  let r := islandMessage m s
  if r.1 ≠ 0 then (r.1, [], secShow (refused (msgKind m) r.1 r.2))
  else (0, match r.2.sec.pend with | some p => recBytes p.newRec | none => [], r.2)

/-- MESSAGE. -/
def execIslandMessage (busy : Bool) (tag : BitVec 8) (m : List Byte) (s : State) : Host.Outcome State Fault Refusal :=
  .next (if s.boot.prog then s else islandOp 5 busy tag (messageOp m) s)

/-- RECORD_DONE: the engine has written the island's record unchanged to a copy, or the write failed (R386); a failed UPDATE_REC is no
message refused. -/
def recordDoneOp (copy : Nat) (failed : Bool) (s : State) : Nat × List Byte × State :=
  match s.sec.pend with
  | none => (0x01, [], s)
  | some p =>
    let s1 := { s with sec := { s.sec with pend := none } }
    if failed then (0x0B, [], secShow (if p.kind = 0 then s1 else refused p.kind 0x0B s1))
    else (0, [], secShow (messageEffect p copy { s with feram := memPut s.feram (recAddr copy) (recBytes p.newRec) }))

/-- RECORD_DONE. -/
def execRecordDone (busy : Bool) (tag : BitVec 8) (copy : Fin 2) (failed : Bool) (s : State) :
    Host.Outcome State Fault Refusal := .next (if s.boot.prog then s else islandOp 6 busy tag (recordDoneOp copy.val failed) s)

/-- Neither copy of the record is intact (R382); `blown` says that the fuse of a COMMISSIONED module blows. -/
def noRecord (cause : Nat) (blown : Bool) (s : State) : State :=
  let s1 := secRecLog s 0xD0C 12 cause [w32 cause]
  let s2 := if lcOf s1 = 1 then blowFuse (!blown) s1 else s1
  { s2 with sec := { s2.sec with srec := { SecRec.empty with lcn := s2.sec.lcn }, newest := none, noRec := true, kOwner := none,
                                 kDue := none, kPrev := none, pend := none } }

/-- LOADREC of two copies (R382): the intact one with the greater SEQ. -/
def loadCopies (b0 b1 : List Byte) (blown : Bool) (s : State) : State :=
  if s.sec.retired then s else
  let f0 := recFault s b0
  let f1 := recFault s b1
  let s1 := if f0 = 0 ∧ f1 = 0 then s else secEvt s 0x200
  let use (c : Nat) : State :=
    let r := recParse (if c = 0 then b0 else b1)
    { s1 with sec := { s1.sec with srec := r, newest := some c, noRec := false, kDue := none, kPrev := none, pend := none,
                                   kOwner := if r.owner then (unwrapOwner s.sec.lcn r.wrapped).map (fun k => (r.epoch, k)) else none } }
  if f0 = 0 ∧ f1 = 0 then use (if (recParse b0).seq < (recParse b1).seq then 1 else 0)
  else if f0 = 0 then use 0 else if f1 = 0 then use 1
  else noRecord (if f0 = 2 ∨ f1 = 2 then 2 else 1) blown s1

/-- LOADREC of the two copies in FeRAM. -/
def loadRec (blown : Bool) (s : State) : State :=
  loadCopies (memBytes s.feram (recAddr 0) 16384) (memBytes s.feram (recAddr 1) 16384) blown s

/-- LOADREC. -/
def execLoadrec (busy : Bool) (tag : BitVec 8) (blown : Bool) (s : State) : Host.Outcome State Fault Refusal :=
  .next (if s.boot.prog then s else islandOp 7 busy tag (fun t => (if t.sec.retired then 0x0D else 0, [], loadRec blown t)) s)

/-- PUBKEY: length word and key bytes. -/
def pubkeyOp (k : Nat) (s : State) : Nat × List Byte × State :=
  match pubKey s k with
  | some key => (0, leBytes 4 key.length ++ key, s)
  | none => (noKeyCode s k, [], s)

/-- PUBKEY. -/
def execPubkey (busy : Bool) (tag : BitVec 8) (k : BitVec 16) (s : State) : Host.Outcome State Fault Refusal :=
  .next (if s.boot.prog then s else islandOp 8 busy tag (pubkeyOp k.toNat) s)

/-- ATTEST on the island. -/
def execIslandAttest (busy : Bool) (tag : BitVec 8) (ws : List Word) (s : State) : Host.Outcome State Fault Refusal :=
  guardedBy (decide (ws.length = 13)) (fun t => if t.boot.prog then t else islandOp 9 busy tag (attest 4 ws) t) s

/-- CHALLENGE on the island. -/
def execIslandChallenge (busy : Bool) (tag : BitVec 8) (ws : List Word) (s : State) : Host.Outcome State Fault Refusal :=
  guardedBy (decide (ws.length = 8))
    (fun t => if t.boot.prog then t else islandOp 0xA busy tag (fun t => let r := challengeTag t (padTo 32 (wordBytes ws)); (r.1, r.2, t)) t) s

/-- The record of UPDATE_REC: FLOOR rises to the IMAGE_SEQ of a slot that becomes CONFIRMED, and never falls. -/
def updatedRec (ws : List Word) (s : State) : SecRec :=
  let w (i : Nat) : Word := ws.getD i 0#32
  let o := s.sec.srec
  let r := { o with stA := fld (w 0) 2 0, stB := fld (w 0) 6 4, tries := fld (w 0) 9 8, trialMin := (w 1).toNat,
                    seqA := (w 2).toNat + (w 3).toNat * 2 ^ 32, seqB := (w 4).toNat + (w 5).toNat * 2 ^ 32,
                    seq := o.seq + 1, lcn := s.sec.lcn }
  let fa := if r.stA = 4 ∧ o.stA ≠ 4 then max o.floor r.seqA else o.floor
  { r with floor := if r.stB = 4 ∧ o.stB ≠ 4 then max fa r.seqB else fa }

/-- UPDATE_REC: the new record waits for RECORD_DONE. -/
def updateOp (ws : List Word) (s : State) : Nat × List Byte × State :=
  if s.sec.retired then (0x0D, [], s)
  else if s.sec.pend.isSome then (0x0E, [], s)
  else
    let r := updatedRec ws s
    (0, recBytes r, { s with sec := { s.sec with pend := some { kind := 0, newRec := r, owner := none } } })

/-- UPDATE_REC. -/
def execUpdateRec (busy : Bool) (tag : BitVec 8) (ws : List Word) (s : State) : Host.Outcome State Fault Refusal :=
  guardedBy (decide (ws.length = 6)) (fun t => if t.boot.prog then t else islandOp 0xB busy tag (updateOp ws) t) s

/-! ### Operations that the engine's words begin (R389) -/

/-- Words that an operation takes from SIN, as far as those it has show. -/
def SecJob.need (j : SecJob) : Nat :=
  let m := (j.param + 3) / 4
  match j.op with
  | 1 | 5 => m
  | 2 => if j.got.length ≤ m then m + 1 else m + 1 + ((j.got.getD m 0#32).toNat + 3) / 4
  | 3 => 384
  | 7 => 8192
  | 9 => 13
  | 0xA => 8
  | 0xB => 6
  | _ => 0

/-- What an operation does with its words; an OP that Table 15-7 does not list is refused as a format fault (assumption 122). -/
def jobOp (j : SecJob) (s : State) : Nat × List Byte × State :=
  let b := wordBytes j.got
  let m := (j.param + 3) / 4
  match j.op with
  | 1 => shakeOp j.arg (b.take j.param) s
  | 2 => verifyOp j.arg (b.take j.param) ((b.drop (4 * (m + 1))).take (j.got.getD m 0#32).toNat) s
  | 3 => signgenOp b s
  | 5 => messageOp (b.take j.param) s
  | 6 => recordDoneOp (j.arg % 2) (j.arg.testBit 15) s
  | 7 => let f := s.free; (if s.sec.retired then 0x0D else 0, [], loadCopies (b.take 16384) (b.drop 16384) (bit f.1 0) f.2)
  | 8 => pubkeyOp j.arg s
  | 9 => attest 4 j.got s
  | 0xA => let r := challengeTag s (padTo 32 b); (r.1, r.2, s)
  | 0xB => updateOp j.got s
  | _ => (0x01, [], s)

/-- An SCMD word: discarded and answered with 0x0E while BUSY = 1, else it begins an operation and SSTAT shows BUSY. -/
def scmdWord (w : Word) (s : State) : State :=
  if s.sec.job.isSome then sendIn 22 1 [sresult (fld w 31 24) (fld w 23 16) 0x0E] s
  else
    let s1 := { s with sec := { s.sec with
      job := some { op := fld w 31 24, tag := fld w 23 16, arg := fld w 15 0, param := s.sec.sparam.toNat, got := [] }, sparam := 0#32 } }
    sendIn 22 0 [sstatWord s1] s1

/-- An SPARAM word, for the SCMD word that follows it. -/
def sparamWord (w : Word) (s : State) : State := { s with sec := { s.sec with sparam := w } }

/-- The island absorbs the words of SIN that its operation still needs, as far as they are there. -/
def sinTake (s : State) : State :=
  match s.sec.job, qOfCons s (epIsland 22 0) with
  | some j, some q =>
    let r := busPop q (min (j.need - j.got.length) (qLevel s q)) s
    { r.2 with sec := { r.2.sec with job := some { j with got := j.got ++ r.1 } } }
  | _, _ => s

/-- The operation in progress: it takes its words, and once it has them all it is done. VERIFY's words show in a second step how many
they are. -/
def jobRun (s : State) : State :=
  let s1 := sinTake (sinTake s)
  match s1.sec.job with
  | some j => if j.got.length = j.need then opDone j.op j.tag (jobOp j { s1 with sec := { s1.sec with job := none } }) else s1
  | none => s1

/-! ## Messages, whole (R385) -/

/-- COMMISSION. -/
def execCommission (m : List Byte) (ok : Bool) (s : State) : Host.Outcome State Fault Refusal :=
  guardedBy (decide ((m.getD 6 0#8).toNat = 1)) (fun t => if t.boot.prog then t else (deliver m ok t).2) s

/-- OWNER_SECRET. -/
def execOwnerSecret (m : List Byte) (ok : Bool) (s : State) : Host.Outcome State Fault Refusal :=
  guardedBy (decide ((m.getD 6 0#8).toNat = 2)) (fun t => if t.boot.prog then t else (deliver m ok t).2) s

/-- OWNER_ROOT. -/
def execOwnerRoot (m : List Byte) (ok : Bool) (s : State) : Host.Outcome State Fault Refusal :=
  guardedBy (decide ((m.getD 6 0#8).toNat = 3)) (fun t => if t.boot.prog then t else (deliver m ok t).2) s

/-- RETURN. -/
def execMsgReturn (m : List Byte) (ok : Bool) (s : State) : Host.Outcome State Fault Refusal :=
  guardedBy (decide ((m.getD 6 0#8).toNat = 4)) (fun t => if t.boot.prog then t else (deliver m ok t).2) s

/-- RETIRE. -/
def execMsgRetire (m : List Byte) (ok : Bool) (s : State) : Host.Outcome State Fault Refusal :=
  guardedBy (decide ((m.getD 6 0#8).toNat = 5)) (fun t => if t.boot.prog then t else (deliver m ok t).2) s

/-- CONFIRM. -/
def execMsgConfirm (m : List Byte) (ok : Bool) (s : State) : Host.Outcome State Fault Refusal :=
  guardedBy (decide ((m.getD 6 0#8).toNat = 0x10)) (fun t => if t.boot.prog then t else (deliver m ok t).2) s

/-- REJECT. -/
def execMsgReject (m : List Byte) (ok : Bool) (s : State) : Host.Outcome State Fault Refusal :=
  guardedBy (decide ((m.getD 6 0#8).toNat = 0x11)) (fun t => if t.boot.prog then t else (deliver m ok t).2) s

/-- PRIVILEGED. -/
def execPrivileged (m : List Byte) (ok : Bool) (s : State) : Host.Outcome State Fault Refusal :=
  guardedBy (decide ((m.getD 6 0#8).toNat = 0x12)) (fun t => if t.boot.prog then t else (deliver m ok t).2) s

/-! ## The grace and the trial's clock -/

/-- EPOCH_GRACE_END (R387). -/
def execEpochGraceEnd (s : State) : Host.Outcome State Fault Refusal :=
  .next (if s.boot.prog then s else { s with sec := { s.sec with kPrev := none } })

/-- TRIAL_MINUTE (R395, R396): a minute in phase 7 during a trial; `ok` says that the record is written. -/
def trialMinute (ok : Bool) (s : State) : State :=
  match trialSlot s.sec.srec with
  | none => s
  | some x =>
    if s.rf Reg.sysStat 3 0 ≠ 7 ∨ !ok ∨ s.sec.retired then s else
    let r := { s.sec.srec with trialMin := s.sec.srec.trialMin + 1 }
    let h := s.rf Reg.secUpdCfg 31 16
    if h ≠ 0 ∧ 60 * h ≤ r.trialMin then secShow (confirmShow x 1 (putRecord (confirmRec r x) s)) else secShow (putRecord r s)

/-- TRIAL_MINUTE. -/
def execTrialMinute (ok : Bool) (s : State) : Host.Outcome State Fault Refusal := .next (trialMinute ok s)

/-- TRIES_RESET (R395). -/
def triesReset (s : State) : State :=
  if s.rf Reg.sysStat 3 0 = 7 ∧ s.sec.srec.tries ≠ 0 ∧ !s.sec.retired then secShow (putRecord { s.sec.srec with tries := 0 } s) else s

/-- TRIES_RESET. -/
def execTriesReset (s : State) : Host.Outcome State Fault Refusal := .next (triesReset s)

end Sys2Proof.Machine
end

