-- ==== Sys2Proof/Machine/RegBus.lean ====
section
/-! DEFINITION. The register space as the three masters reach it: access codes, shadows, set aliases, the registers whose
writes have effects of their own, and LOG_ADVANCE (R3 to R6, R75, R103, R111, R124, R414, R431, R433, R437, R440, R458). -/

namespace Sys2Proof.Machine

/-- The bits of a register that are W1C (R4, R458). -/
def w1cBits (a : Nat) : Word := match regRow? a with | some r => w32 r.w1c | none => 0#32

/-- The active address whose upper half-block address `a` is: its shadow or set alias (R4, R433, R458). -/
def aliasBase (a : Nat) : Option Nat := if a.testBit 15 then some (a - 0x8000) else none

/-- Set PATH_FAULT of a path through the set alias. -/
def pfSet (p : Nat) (s : State) : State :=
  if bit (s.pfOf p) 0 then s else
  { s with eng := { s.eng with pf := sset 0#32 s.eng.pf p (setBit (s.pfOf p) 0 true), pfOrder := s.eng.pfOrder ++ [p] } }

/-- Clear PATH_FAULT of a path: SILENCED, CAUSE and FAULTS stay (Table 2-25). -/
def pfClear (p : Nat) (s : State) : State :=
  { s with eng := { s.eng with
      pf := sset 0#32 s.eng.pf p (setBit (s.pfOf p) 0 false), pfOrder := s.eng.pfOrder.filter (fun x => x != p) } }

/-- The path that TTE_PF_SEL selects. -/
def pfSelected (s : State) : Nat := s.rf Reg.ttePfSel 11 0

/-- A set through the alias of a register with W1C fields: each W1C bit written as 1 is set (R458). -/
def w1cSet (a : Nat) (w : Word) (s : State) : State :=
  if a = Reg.ttePfStat then (if bit w 0 then pfSet (pfSelected s) s else s)
  else s.setReg a (s.reg a ||| (w &&& w1cBits a))

/-- A write of a register with W1C fields: a 1 clears the bit (R4). -/
def w1cWrite (a : Nat) (w : Word) (s : State) : State :=
  if a = Reg.ttePfStat then (if bit w 0 then pfClear (pfSelected s) s else s)
  else s.setReg a (s.reg a &&& ~~~(w &&& w1cBits a))

/-- A write to a shadow: all 32 bits, from release on (R4, R111); a host write before it is counted. -/
def earlyWrite (m : Master) (s : State) : State :=
  if m = .host then s.satRf Reg.logHpv0 31 16 1 else s

/-- A write that goes to the shadow of the SH register `a`. -/
def shadowPut (m : Master) (a : Nat) (w : Word) (s : State) : State :=
  if s.eng.released then s.setShadow a w else earlyWrite m s

/-! ## Registers whose writes act -/

/-- SYS_RESET (R103). -/
def resetWrite (m : Master) (w : Word) (s : State) : State :=
  if fld w 31 16 = 0xA55A ∧ fld w 1 0 = 1 then requestWarm (masterNo m) s else s

/-- SYS_COMMIT (R111, R124). -/
def commitPut (m : Master) (w : Word) (s : State) : State :=
  if s.eng.released then commitRequest w s else earlyWrite m s

/-- TTE_ECC_CLR: bit n clears the count register n (Table 2-21). -/
def eccClr (w : Word) (s : State) : State :=
  (bitsOf 6 w.toNat).foldl (fun t n => t.setReg (Reg.tteEccCode + 4 * n) 0#32) s

/-- CLR_SEL: both counts of the port that TTE_XSEL selects. -/
def xclrSel (s : State) : State := { s with xcnt := sset 0#32 s.xcnt (s.rf Reg.tteXsel 10 0) 0#32 }

/-- CLR_ALL: both counts of every port. -/
def xclrAll (s : State) : State := { s with xcnt := [] }

/-- TTE_XCLR (Table 2-27). -/
def xclrWrite (w : Word) (s : State) : State :=
  let s1 := if bit w 0 then xclrSel s else s
  if bit w 1 then xclrAll s1 else s1

/-- QUE_Qq_CLR.CNT, PEAK and DED (Table 17-9). -/
def qClrCnt (q : Nat) (s : State) : State := s.setReg (Reg.queQCnt q) 0#32
def qClrPeak (q : Nat) (s : State) : State := s.setRf (Reg.queQLevel q) 30 16 (qLevel s q)
def qClrDed (q : Nat) (s : State) : State := s.setReg (Reg.queQDed q) 0#32

/-- A write of QUE_Qq_CLR; a queue of size 0 has no counts (R24). -/
def qClrWrite (q : Nat) (w : Word) (s : State) : State :=
  let s1 := if bit w 0 then qClrCnt q s else s
  let s2 := if bit w 1 then qClrPeak q s1 else s1
  if bit w 2 then qClrDed q s2 else s2

/-- A completed write of QUE_Qq_PUSH: the host pushes as producer; any other write is no push by a named end (R436, R437). -/
def pushWrite (m : Master) (q : Nat) (w : Word) (s : State) : State :=
  if m = .host then qPush s epHost q w else qViolation s q

/-- A refused write of LOG_ADVANCE sets ADV_BAD and changes nothing else; the image will record it (R414). -/
def advRefused (w : Word) (s : State) : State :=
  { s.orReg Reg.logEvt 2 with eng := { s.eng with advBad := some (w, s.logNext) } }

/-- LOG_ADVANCE by the engine is accepted when the value and word 0 of its slot are LOG_NEXT; the LOG block reads words 0
and 3 through its own port. Any other write is refused (R414). -/
def logAdvance (m : Master) (w : Word) (s : State) : State :=
  let a := 32 * (w.toNat % 8192)
  let r := readLog a s
  let q := readLog (a + 12) r.2
  if m ≠ .engine then advRefused w s
  else if w = s.logNext ∧ r.1 = w then q.2.logBump.noteSev (fld q.1 19 16)
  else advRefused w q.2

/-- A write of a WO register: it takes effect at once (R4). -/
def woWrite (m : Master) (a : Nat) (w : Word) (s : State) : State :=
  if a = Reg.sysReset then resetWrite m w s
  else if a = Reg.sysCommit then commitPut m w s
  else if a = Reg.tteEccClr then eccClr w s
  else if a = Reg.tteXclr then xclrWrite w s
  else if a = Reg.rtcCmd then rtcCmd (masterNo m) w s
  else if a = Reg.logAdvance then logAdvance m w s
  else if 0xF1000 ≤ a then pushWrite m ((a - 0xF1004) / 8) w s
  else qClrWrite ((a - 0xF011C) / 32) w s

/-- A write of an RW register without an effect of its own: reserved bits stay 0 (R3). -/
def plainWrite (a : Nat) (w : Word) (s : State) : State := s.setReg a (w &&& ~~~(regRsv a))

/-- A write of CTL_TS_CTRL: RUN starts or stops a test (R241, R243). -/
def tsWrite (w : Word) (s : State) : State :=
  if bit w 0 then testRun (fld w 28 16) s
  else if s.ctl.test.isSome then testStop (plainWrite Reg.ctlTsCtrl w s) else plainWrite Reg.ctlTsCtrl w s

/-- A write of an RW register. -/
def rwWrite (m : Master) (a : Nat) (w : Word) (s : State) : State :=
  if a = Reg.mtrCalhold then calholdWrite m w s
  else if a = Reg.mtrWcCtrl then wcArm w s
  else if a = Reg.ctlTsCtrl then tsWrite w s
  else if a = Reg.parLease then parStep (leaseWrite w) s
  else if a = Reg.parGate then parStep (plainWrite a w) s
  else if a = Reg.secReq then reqWrite w s
  else if a = Reg.secObjCtrl then objCtrl (masterCode m) w s
  else if 0xC0040 ≤ a ∧ a < 0xC0080 then byteWrite ((a - 0xC0040) / 4) w s
  else if 0xC0100 ≤ a ∧ a < 0xC0180 ∧ a % 16 = 12 then almCfg ((a - 0xC0100) / 16) w s
  else plainWrite a w s

/-- A 32-bit write by a master to a 20-bit address: the access code decides (R3, R4, R6). An address with bit 15 set is a
shadow, the engine's set alias, or unassigned (R433, R458). The core island held in reset by PROG_N takes none (R450). -/
def busWrite (m : Master) (a : Nat) (w : Word) (s : State) : State :=
  if s.boot.prog then s else
  match aliasBase a with
  | some b =>
    if isSh b then shadowPut m b w s
    else if accOf b = some .w1c ∧ m = .engine then w1cSet b w s
    else s
  | none =>
    match accOf a with
    | none => s
    | some .ro => s
    | some .pop => s
    | some .sh => shadowPut m a w s
    | some .w1c => w1cWrite a w s
    | some .wo => woWrite m a w s
    | some .rw => rwWrite m a w s

/-! ## Reads -/

/-- What a read that takes no part in the host port's latches returns: a shadow as written, 0 of a WO register or an
unassigned address, `f` of any other, and nothing removed from a data port of which the reader is no consumer (R4, R437). -/
def busRead (f : Nat → State → Word × State) (a : Nat) (s : State) : Word × State :=
  match aliasBase a with
  | some b => (if isSh b then s.shadow b else 0#32, s)
  | none =>
    match accOf a with
    | none => (0#32, s)
    | some .wo => (0#32, s)
    | some .pop => (0#32, qViolation s ((a - 0xF1000) / 8))
    | some _ => f a s

/-- RLD: the working value (R44). -/
def engineRead (a : Nat) (s : State) : Word × State := busRead (fun b t => (t.regNow b, t)) a s

/-- A remote read: the mirror (R21, R286). -/
def fabricRead (a : Nat) (s : State) : Word × State := busRead (fun b t => t.mirRead b) a s

/-! ## The commands -/

/-- SYS_RESET_WRITE. -/
def execSysResetWrite (m : Master) (w : Word) (s : State) : Host.Outcome State Fault Refusal := .next (busWrite m Reg.sysReset w s)

/-- SET_ALIAS_WRITE: an RST to the set alias at `addr`; at any other address it is the write that the address gives. -/
def execSetAliasWrite (addr : BitVec 20) (w : Word) (s : State) : Host.Outcome State Fault Refusal :=
  .next (busWrite .engine addr.toNat w s)

/-- The write of one master, where it makes one. -/
def masterWrite (m : Master) (a : Nat) (w : Option Word) (s : State) : State :=
  match w with
  | some v => busWrite m a v s
  | none => s

/-- The writes that reach one register in one core cycle: applied in the order engine, fabric, host, so that the host's value
stands (R6). -/
def sameCycleWrites (a : Nat) (e f h : Option Word) (s : State) : State :=
  masterWrite .host a h (masterWrite .fabric a f (masterWrite .engine a e s))

/-- REGISTER_WRITE: the values that the engine, the fabric and the host write to the register in one core cycle (R6). -/
def execRegisterWrite (addr : BitVec 20) (e f h : Option Word) (s : State) : Host.Outcome State Fault Refusal :=
  .next (sameCycleWrites addr.toNat e f h s)

/-- SHADOW_WRITE: either address of an SH register. -/
def execShadowWrite (m : Master) (addr : BitVec 20) (w : Word) (s : State) : Host.Outcome State Fault Refusal :=
  .next (busWrite m addr.toNat w s)

/-- W1C_CLEAR: the write, and the bits that hardware events set in the same core cycle, which stay set (R5). -/
def w1cClear (m : Master) (a : Nat) (w hw : Word) (s : State) : State :=
  if accOf a = some .w1c then w1cSet a hw (busWrite m a w s) else busWrite m a w s

/-- W1C_CLEAR. -/
def execW1cClear (m : Master) (addr : BitVec 20) (w hw : Word) (s : State) : Host.Outcome State Fault Refusal :=
  .next (w1cClear m addr.toNat w hw s)

/-- SYS_COMMIT. -/
def execSysCommit (m : Master) (w : Word) (s : State) : Host.Outcome State Fault Refusal := .next (busWrite m Reg.sysCommit w s)

/-- TTE_ECC_CLR. -/
def execTteEccClr (w : Word) (s : State) : Host.Outcome State Fault Refusal := .next (if s.boot.prog then s else eccClr w s)

/-- CLR_SEL. -/
def execClrSel (s : State) : Host.Outcome State Fault Refusal := .next (if s.boot.prog then s else xclrSel s)

/-- CLR_ALL. -/
def execClrAll (s : State) : Host.Outcome State Fault Refusal := .next (if s.boot.prog then s else xclrAll s)

/-- QUE_CLR_CNT. -/
def execQueClrCnt (q : Fin 64) (s : State) : Host.Outcome State Fault Refusal := .next (if s.boot.prog then s else qClrCnt q.val s)

/-- QUE_CLR_PEAK. -/
def execQueClrPeak (q : Fin 64) (s : State) : Host.Outcome State Fault Refusal := .next (if s.boot.prog then s else qClrPeak q.val s)

/-- QUE_CLR_DED. -/
def execQueClrDed (q : Fin 64) (s : State) : Host.Outcome State Fault Refusal := .next (if s.boot.prog then s else qClrDed q.val s)

/-- LOG_ADVANCE. -/
def execLogAdvance (m : Master) (w : Word) (s : State) : Host.Outcome State Fault Refusal :=
  .next (if s.boot.prog then s else logAdvance m w s)

end Sys2Proof.Machine
end

