-- ==== Sys2Proof/Machine/EngineBus.lean ====
section
/-! DEFINITION. Track 3's operations on crossings, registers and mirror switches, and an island's end of a
queue (R16 to R18, R25, R44, R53, R63, R64, R90, R417, R423). -/

namespace Sys2Proof.Machine

/-- The engine takes the word of an inbound port; a valid field word has its effects (R64, R201). -/
def takeWord (p : Nat) (s : State) : Word × Bool × State :=
  let r := s.take p
  (r.1, r.2.1, if r.2.1 then afterTake p r.1 r.2.2 else r.2.2)

/-- The engine writes an outbound port: the start gate stands before OUT and ACMD (R17, R142). -/
def portWrite (p : Nat) (w : Word) (s : State) : State :=
  match portGroup p with
  | some g => let r := gateWrite s g w; r.2.sendOut p r.1
  | none => (noteAout p w s).sendOut p w

/-- XRD: D ← the port's word, P(12 + FP) ← its valid flag. -/
def execXrd (i : Issue) (d : Fin 64) (port : BitVec 11) (fp : BitVec 2) (s : State) : Host.Outcome State Fault Refusal :=
  guarded (.xrd i d port fp) (issue i (fun t =>
    let r := takeWord port.toNat t
    (r.2.2.result i 2 d.val r.1).resultP i 2 (12 + fp.toNat) r.2.1)) s

/-- XWR: the port ← W(D). -/
def execXwr (i : Issue) (d : Fin 64) (port : BitVec 11) (s : State) : Host.Outcome State Fault Refusal :=
  guarded (.xwr i d port) (issue i (fun t => portWrite port.toNat (t.rw d.val) t)) s

/-- A crossing word into a queue: only with the flag set (R64); an unused queue takes the word and counts nothing (R24). -/
def portToQueue (q p : Nat) (s : State) : State :=
  if qSize s q = 0 && !((s.port p).valid) then s
  else let r := takeWord p s; if r.2.1 then qPush r.2.2 epEngine q r.1 else r.2.2

/-- XQ. -/
def execXq (i : Issue) (q : Fin 64) (port : BitVec 11) (s : State) : Host.Outcome State Fault Refusal :=
  guarded (.xq i q port) (issue i (portToQueue q.val port.toNat)) s

/-- A queue word, or the empty marker, to an outbound port (R63); an unused queue writes nothing (R24). -/
def queueToPort (q p : Nat) (s : State) : State :=
  if qSize s q = 0 then s else let r := qPop s epEngine q; portWrite p r.1 r.2

/-- QX. -/
def execQx (i : Issue) (q : Fin 64) (port : BitVec 11) (s : State) : Host.Outcome State Fault Refusal :=
  guarded (.qx i q port) (issue i (queueToPort q.val port.toNat)) s

/-- RLD: D ← the working value of the register at W(A) + 4 × imm7. -/
def execRld (i : Issue) (d a : Fin 64) (imm : BitVec 7) (s : State) : Host.Outcome State Fault Refusal :=
  guarded (.rld i d a imm) (issue i (fun t =>
    let r := engineRead (hostAddr (addrM t a.val imm)) t
    r.2.result i 4 d.val r.1)) s

/-- RST: the register at W(A) + 4 × imm7 ← W(D). -/
def execRst (i : Issue) (d a : Fin 64) (imm : BitVec 7) (s : State) : Host.Outcome State Fault Refusal :=
  guarded (.rst i d a imm) (issue i (fun t => busWrite .engine (hostAddr (addrM t a.val imm)) (t.rw d.val) t)) s

/-! ## Commit points (R53, R89, R90) -/

/-- A host-port violation count that has risen since the path or the ROM last saw it: record 0xE01 of its kind (R423). -/
def hpvKind (kind now seen : Nat) (s : State) : State :=
  if now ≤ seen then s else (s.orReg Reg.logEvt 4).logOnce 0xE01 0xE 6 kind [w32 kind, w32 now]

/-- Compare the three counts with those last seen (R423). -/
def hpvCheck (s : State) : State :=
  let h0 := s.reg Reg.logHpv0
  let h1 := s.reg Reg.logHpv1
  let s1 := hpvKind 0 (fld h0 15 0) (fld s.host.seen0 15 0) s
  let s2 := hpvKind 1 (fld h0 31 16) (fld s.host.seen0 31 16) s1
  let s3 := hpvKind 2 (fld h1 15 0) (fld s.host.seen1 15 0) s2
  { s3 with host := { s3.host with seen0 := h0, seen1 := h1 } }

/-- Read consecutive words of log SRAM by LLD, and whether any met a double error. -/
def readLogs : Nat → Nat → State → List Word × Bool × State
  | _, 0, s => ([], false, s)
  | a, n + 1, s =>
    let d := s.eccAt mcLog a == .double
    let r := readLog a s
    let t := readLogs (a + 4) n r.2
    (r.1 :: t.1, d || t.2.1, t.2.2)

/-- Is the record with a sequence number available (R415)? -/
def logHas (s : State) (seq : Word) : Bool :=
  let d := (s.logNext - seq).toNat
  decide (1 ≤ d) && decide (d ≤ s.logCount)

/-- The image's record of a refused LOG_ADVANCE write, 0xE04, when its log path sees ADV_BAD: at its run at a commit point of block 14
(R414, assumption 119). -/
def advRecord (s : State) : State :=
  match s.eng.advBad with
  | some (v, n) =>
    let s1 := { s with eng := { s.eng with advBad := none } }
    if s.rb Reg.logEvt 1 then s1.logOnce 0xE04 0xE 8 v.toNat [v, n] else s1
  | none => s

/-- The log path at a commit point of block 14: the window, and what the block publishes (R417, R423). -/
def logWindow (s0 : State) : State :=
  let s := advRecord s0
  let sel := s.reg Reg.logSel
  let r := readLogs (32 * (sel.toNat % 8192)) 8 s
  let s1 := if r.2.1 then r.2.2.orReg Reg.logEvt 8 else r.2.2
  let stat := w32 ((s.rf Reg.logWstat 15 0 + 1) % 2 ^ 16 + b2n (logHas s sel) * 2 ^ 16 + b2n r.2.1 * 2 ^ 17)
  let s2 := s1.publish ((List.range 8).map (fun k => (Reg.logWin k, r.1.getD k 0#32)) ++ [(Reg.logWseq, sel), (Reg.logWstat, stat)])
  (hpvCheck s2).republish [Reg.logStat, Reg.logNext, Reg.logEvt, Reg.logHpv0, Reg.logHpv1]

/-- What the publishing paths copy at a commit point of one block beside the image's own mirror writes. -/
def commitHook (s : State) (b : Nat) : State :=
  match b with
  | 6 => ctlWindow s
  | 7 => fabWindow s
  | 12 => rtcWindow s
  | 14 => logWindow s
  | _ => s

/-- The blocks that the mirror plan declares for one MSW consist. -/
def declared (s : State) (path consist : Nat) : Nat :=
  ((s.image.mirror.filter (fun e => e.path == path && e.consist == consist)).map (fun e => e.blocks)).foldl (fun a b => a ||| b) 0

/-- An MSW of the blocks in `mask`: the mirrors of SYS and TTE switch in the boundary window alone (R88). A declared block
that the mask lacks is a missed commit point (R90). -/
def mirrorSwitch (consist mask : Nat) (s : State) : State :=
  let b := mask &&& 0xFFFC
  let s1 := ((bitsOf 16 b).foldl commitHook s).mswitch b
  s1.commitMissed s.curPath (declared s s.curPath consist &&& (mask ^^^ 0xFFFF))

/-- MSW: a declared commit point whose run is at no-ops is missed (R90). -/
def execMsw (i : Issue) (a : Fin 64) (consist : BitVec 16) (s : State) : Host.Outcome State Fault Refusal :=
  guarded (.msw i a consist) (fun t =>
    let t1 := issue i (fun u => mirrorSwitch consist.toNat (fld (u.rw a.val) 15 0) u) t
    if (t.land i.cycle).noop i.cycle then t1.commitMissed t1.curPath (declared t1 t1.curPath consist.toNat) else t1) s

/-! ## An island's end of a queue -/

/-- ISLAND_QUEUE_PUSH (R25). -/
def execIslandQueuePush (q : Fin 64) (island : Fin 25) (unit : BitVec 8) (ws : List Word) (s : State) :
    Host.Outcome State Fault Refusal := .next (qPushAll s (epIsland island.val unit.toNat) q.val ws)

/-- A pop by an island unit, with a word that the queue's producer pushes in the same core cycle, if any (R25, R28). -/
def islandPop (ep q : Nat) (push : Option Word) (s : State) : State :=
  if qSize s q = 0 then s else if qCons s q = ep then (qPopWith s q push).2 else qPushWith (qViolation s q) q push

/-- ISLAND_QUEUE_POP (R25). -/
def execIslandQueuePop (q : Fin 64) (island : Fin 25) (unit : BitVec 8) (push : Option Word) (s : State) :
    Host.Outcome State Fault Refusal := .next (islandPop (epIsland island.val unit.toNat) q.val push s)

end Sys2Proof.Machine
end

