-- ==== Sys2Proof/Machine/HostBus.lean ====
section
/-! DEFINITION. The host port: 16-bit reads with their latches, posted writes, data ports and head cells, timing violations
(R7 to R12, R21, R427 to R438), and the ROM's poll of the violation counts (R423). -/

namespace Sys2Proof.Machine

/-- t_RC, t_WC and t_WP in ns (Tables 17-2, 17-3). -/
def tRc : Nat := 20
def tWc : Nat := 20
def tWp : Nat := 10

/-- What HD shows, and the latches a read leaves; HD holds this value. -/
def State.drive (s : State) (v : BitVec 16) (latch : Option (Nat × BitVec 16)) (latch64 : Option (Nat × List (BitVec 16))) : State :=
  { s with host := { s.host with hd := v, sel := none, latch := latch, latch64 := latch64 } }

/-- The read of half address `a` stays selected: where it is a half of the mirror, HD follows it (R429). -/
def State.follow (s : State) (a : Nat) : State :=
  match aliasBase (a / 4 * 4), accOf (a / 4 * 4) with
  | none, some .ro | none, some .rw | none, some .sh | none, some .w1c => { s with host := { s.host with sel := some a } }
  | _, _ => s

/-- A read by the host of a register that is no data port: its shadow, 0, or the mirror (R4, R21). -/
def hostRead32 (a : Nat) (s : State) : Word × State :=
  if accOf a = some .pop then (0#32, s) else busRead (fun b t => t.mirRead b) a s

/-- Remove the head word of a queue whose consumer is the host, through the head cell (R9, R12, R434, R435); `push` is a word that the
queue's producer pushes in the core cycle in which the removal counts, if any (R28). -/
def cellPop (q : Nat) (push : Option Word) (s : State) : Word × State :=
  match sget [] s.qcell q with
  | [] => (w32 (0xDEAD0000 + q), qPushWith (s.orReg (Reg.queQStat q) 1) q push)
  | w :: ws => (w, qDropWith { s with qcell := sset [] s.qcell q ws } q push)

/-- A read start on the low half of QUE_Qq_DATA (R434, R437). -/
def dataPortLow (q : Nat) (push : Option Word) (s : State) : State :=
  let r := if qSize s q = 0 then (0#32, s) else if qCons s q = epHost then cellPop q push s
    else (0#32, qPushWith (qViolation s q) q push)
  r.2.drive (half r.1 0) (some (Reg.queQData q + 2, half r.1 1)) s.host.latch64

/-- A read of the high half of QUE_Qq_DATA with no low-half read before it: the head word's, and nothing removed (R9). -/
def dataPortHigh (q : Nat) (s : State) : State :=
  let w := if qSize s q ≠ 0 ∧ qCons s q = epHost then (sget [] s.qcell q).headD 0#32 else 0#32
  s.drive (half w 1) none s.host.latch64

/-- The 64-bit latch's word at address `a`, if it serves it (R10). -/
def latched64 (s : State) (a : Nat) : Option (BitVec 16) :=
  match s.host.latch64 with
  | some (b, ws) => if b < a ∧ a < b + 8 then ws[(a - b) / 2]? else none
  | none => none

/-- A read of word 0 of a 64-bit value: all four words are latched from one mirror image (R10). -/
def readWord0 (a : Nat) (s : State) : State :=
  let lo := hostRead32 a s
  let hi := hostRead32 (a + 4) lo.2
  (hi.2.drive (half lo.1 0) (some (a + 2, half lo.1 1)) (some (a, [half lo.1 0, half lo.1 1, half hi.1 0, half hi.1 1]))).follow a

/-- A read start of a low half (R8 to R10). -/
def readLow (a : Nat) (push : Option Word) (s : State) : State :=
  if accOf a = some .pop then dataPortLow ((a - 0xF1000) / 8) push s
  else if isWord0 a then readWord0 a s
  else match latched64 s a with
    | some v => s.drive v ((latched64 s (a + 2)).map (fun h => (a + 2, h))) s.host.latch64
    | none => let r := hostRead32 a s; (r.2.drive (half r.1 0) (some (a + 2, half r.1 1)) s.host.latch64).follow a

/-- A read start of a high half (R8, R10). -/
def readHigh (a : Nat) (s : State) : State :=
  match latched64 s a with
  | some v => s.drive v none s.host.latch64
  | none =>
    match s.host.latch with
    | some (b, v) =>
      if b = a then s.drive v none s.host.latch64
      else if accOf (a - 2) = some .pop then dataPortHigh ((a - 2 - 0xF1000) / 8) s
      else let r := hostRead32 (a - 2) s; (r.2.drive (half r.1 1) none s.host.latch64).follow a
    | none =>
      if accOf (a - 2) = some .pop then dataPortHigh ((a - 2 - 0xF1000) / 8) s
      else let r := hostRead32 (a - 2) s; (r.2.drive (half r.1 1) none s.host.latch64).follow a

/-- A timing violation is counted (R432). -/
def hostTiming (s : State) : State := s.satRf Reg.logHpv1 15 0 1

/-- A read start less than t_RC after the one before: the mirror value, nothing latched or removed (Table 17-4). -/
def readEarly (a : Nat) (s : State) : State :=
  let r := hostRead32 (a / 4 * 4) s
  ((hostTiming r.2).drive (half r.1 (a % 4 / 2)) none (if isWord0 a then none else s.host.latch64)).follow a

/-- A read start, `gap` ns after the one before; `push` is a word pushed into the queue of a data port in the core cycle of its
removal. -/
def hostRead (a gap : Nat) (push : Option Word) (s : State) : State :=
  if gap < tRc then readEarly a s else if a % 4 = 0 then readLow a push s else readHigh a s

/-- HOST_READ_LOW_HALF. -/
def execHostReadLowHalf (addr : BitVec 20) (gapNs : Nat) (s : State) : Host.Outcome State Fault Refusal :=
  guarded (.hostReadLowHalf addr gapNs) (hostRead addr.toNat gapNs none) s

/-- HOST_READ_HIGH_HALF. -/
def execHostReadHighHalf (addr : BitVec 20) (gapNs : Nat) (s : State) : Host.Outcome State Fault Refusal :=
  guarded (.hostReadHighHalf addr gapNs) (hostRead addr.toNat gapNs none) s

/-- HOST_READ_WORD0. -/
def execHostReadWord0 (addr : BitVec 20) (gapNs : Nat) (s : State) : Host.Outcome State Fault Refusal :=
  guarded (.hostReadWord0 addr gapNs) (hostRead addr.toNat gapNs none) s

/-- A read start of a data port: a read start made too soon removes nothing, and the word pushed meets no pop (Table 17-4). -/
def dataPortRead (q gap : Nat) (push : Option Word) (s : State) : State :=
  if gap < tRc then qPushWith (readEarly (Reg.queQData q) s) q push else hostRead (Reg.queQData q) gap push s

/-- HOST_DATA_PORT_READ. -/
def execHostDataPortRead (q : Fin 64) (gapNs : Nat) (push : Option Word) (s : State) : Host.Outcome State Fault Refusal :=
  .next (dataPortRead q.val gapNs push s)

/-- The controller refills a freed place of the head cell when the queue holds a further word (R434). -/
def headRefill (q : Nat) (s : State) : State :=
  let c := sget [] s.qcell q
  if qSize s q ≠ 0 ∧ qCons s q = epHost ∧ c.length < 2 ∧ c.length < qLevel s q then
    let r := qFetch s q c.length
    { r.2 with qcell := sset [] r.2.qcell q (c ++ [r.1]) }
  else s

/-- HEAD_CELL_REFILL. -/
def execHeadCellRefill (q : Fin 64) (s : State) : Host.Outcome State Fault Refusal := .next (if s.boot.prog then s else headRefill q.val s)

/-! ## Writes (R11, R430 to R432) -/

/-- What the port holds; a write ends the selection of a read. -/
def State.hold (s : State) (h : Option (Nat × BitVec 16)) : State := { s with host := { s.host with held := h, sel := none } }

/-- Does a write break the timing: too short, too soon after the one before, or its address moved (Table 17-4)? -/
def badWrite (len gap : Nat) (moved : Bool) : Bool := decide (len < tWp) || decide (gap < tWc) || moved

/-- A low-half write is held in place of any half held before (R431). -/
def hostWriteLow (a : Nat) (v : BitVec 16) (len gap : Nat) (moved : Bool) (s : State) : State :=
  if badWrite len gap moved then hostTiming (s.hold none) else s.hold (some (a, v))

/-- A high-half write completes the write whose low half is held, or is an orphan (R11, R430). -/
def hostWriteHigh (a : Nat) (v : BitVec 16) (len gap : Nat) (moved : Bool) (s : State) : State :=
  if badWrite len gap moved then hostTiming (s.hold none) else
  match s.host.held with
  | some (b, lo) =>
    if b + 2 = a then busWrite .host b (v ++ lo) (s.hold none) else (s.hold none).satRf Reg.logHpv0 15 0 1
  | none => (s.hold none).satRf Reg.logHpv0 15 0 1

/-- HOST_WRITE_LOW_HALF. -/
def execHostWriteLowHalf (addr : BitVec 20) (v : BitVec 16) (lenNs gapNs : Nat) (haMoved : Bool) (s : State) :
    Host.Outcome State Fault Refusal :=
  guarded (.hostWriteLowHalf addr v lenNs gapNs haMoved) (hostWriteLow addr.toNat v lenNs gapNs haMoved) s

/-- HOST_WRITE_HIGH_HALF. -/
def execHostWriteHighHalf (addr : BitVec 20) (v : BitVec 16) (lenNs gapNs : Nat) (haMoved : Bool) (s : State) :
    Host.Outcome State Fault Refusal :=
  guarded (.hostWriteHighHalf addr v lenNs gapNs haMoved) (hostWriteHigh addr.toNat v lenNs gapNs haMoved) s

/-- HOST_PUSH: a completed write of QUE_Qq_PUSH. -/
def execHostPush (q : Fin 64) (w : Word) (s : State) : Host.Outcome State Fault Refusal :=
  .next (busWrite .host (Reg.queQPush q.val) w s)

/-- HPV_POLL: before release and in siding mode, every 10 ms; the ROM counts major cycles as seconds of its own time, here
as 100 polls (R423). -/
def hpvPoll (s : State) : State :=
  if s.eng.released then s else
  let s1 := { s with opUs := s.opUs + 10000, logged := if s.host.polls = 0 then [] else s.logged }
  hpvCheck { s1 with host := { s1.host with polls := (s.host.polls + 1) % 100 } }

/-- HPV_POLL. -/
def execHpvPoll (s : State) : Host.Outcome State Fault Refusal := .next (if s.boot.prog then s else hpvPoll s)

/-! ## Remote register access (R285, R286) -/

/-- An item's address is refused when bits 1:0 or 31:20 are not 0 (R285). -/
def rraBad (a : Word) : Bool := fld a 1 0 != 0 || fld a 31 20 != 0

/-- Read the items of a request: the values, and the refused items as bits. -/
def rraReads : Nat → List Word → State → List Word × Nat × State
  | _, [], s => ([], 0, s)
  | i, a :: as, s =>
    let r := if rraBad a then (0#32, s) else fabricRead a.toNat s
    let t := rraReads (i + 1) as r.2
    (r.1 :: t.1, (if rraBad a then 2 ^ i else 0) + t.2.1, t.2.2)

/-- Write the items of a request: the refused items as bits. -/
def rraWrites : Nat → List (Word × Word) → State → Nat × State
  | _, [], s => (0, s)
  | i, (a, v) :: r, s =>
    let t := rraWrites (i + 1) r (if rraBad a then s else busWrite .fabric a.toNat v s)
    ((if rraBad a then 2 ^ i else 0) + t.1, t.2)

/-- The reply to a request: into the RXO of the link with LOCAL = 1, and the counts (R286, Table 10-17, Table 10-6). Its SLOT,
which no reception gives, is a free value (assumption 3). -/
def rraReply (l kind n refused : Nat) (vals req : List Word) (s : State) : State :=
  let payload := leBytes 1 n ++ leBytes 1 kind ++ leBytes 2 (fld (req.getD 2 0#32) 15 0) ++ leBytes 4 refused ++ wordBytes vals
  let c := mkCell (cSrc req) 2 1 0 0x32 0 payload s
  let f := c.2.free
  let stat := w32 (f.1.toNat % 128 + 128 + s.eng.fabLatch % 2 ^ 24 * 256)
  let s1 := f.2.setRf Reg.fabRraStat 15 0 (s.rf Reg.fabRraStat 15 0 + 1)
  fabShow l (rxPush l (c.1.take 15 ++ [stat]) (s1.satRf Reg.fabRraStat 31 16 (popcount 32 refused)))

/-- Every item of a request whose N is out of range: as many as N says, within the 32 bits of the reply (assumption 36). -/
def allRefused (n : Nat) : Nat := 2 ^ (min n 32) - 1

/-- Serve a read request. -/
def rraRead (l : Nat) (req : List Word) (s : State) : State :=
  let ws := bytesWords (cPayload req)
  let n := fld (ws.getD 0 0#32) 7 0
  if n = 0 ∨ 10 < n then rraReply l 0 n (allRefused n) [] req s
  else let r := rraReads 0 ((ws.drop 1).take n) s; rraReply l 0 n r.2.1 r.1 req r.2.2

/-- Address and value pairs of a write request. -/
def rraPairs : List Word → List (Word × Word)
  | a :: v :: r => (a, v) :: rraPairs r
  | _ => []

/-- Serve a write request. -/
def rraWrite (l : Nat) (req : List Word) (s : State) : State :=
  let ws := bytesWords (cPayload req)
  let n := fld (ws.getD 0 0#32) 7 0
  if n = 0 ∨ 5 < n then rraReply l 1 n (allRefused n) [] req s
  else let r := rraWrites 0 ((rraPairs (ws.drop 2)).take n) s; rraReply l 1 n r.1 (List.replicate n 0#32) req r.2

/-- The RRA unit of a link takes the request at the head of its queue, when it is a whole cell of the TYPE; in siding mode it
serves none (R405). -/
def rraServe (l type : Nat) (f : Nat → List Word → State → State) (s : State) : State :=
  if s.boot.siding ∨ txLevel s l 6 < 16 ∨ cType (txHead s l 6) ≠ type then s
  else let r := txPop l 6 s; f l r.1 r.2

/-- RRA_READ. -/
def execRraRead (l : Fin 8) (s : State) : Host.Outcome State Fault Refusal :=
  .next (if s.boot.prog then s else rraServe l.val 0x30 rraRead s)

/-- RRA_WRITE. -/
def execRraWrite (l : Fin 8) (s : State) : Host.Outcome State Fault Refusal :=
  .next (if s.boot.prog then s else rraServe l.val 0x31 rraWrite s)

end Sys2Proof.Machine
end

