-- ==== Sys2Proof/Machine/LocalBus.lean ====
section
/-! DEFINITION. What CAN channels and T1S ports share: configuration words, counters and snapshots (R295, R296, R307, R315, R316).
Source c is CAN channel c, source 12 + p is T1S port p. -/

namespace Sys2Proof.Machine

/-! ## Counters (R315, R316) -/

def counter (s : State) (src k : Nat) : Word := sget 0#32 s.bus.cnt (src * 32 + k)

/-- Raise a counter; as it passes 2^31 its bit of the HALF mask is set. -/
def countBy (src k n : Nat) (s : State) : State :=
  let old := counter s src k
  let new := old + w32 n
  let half := sget 0 s.bus.half src
  { s with bus := { s.bus with
      cnt := sset 0#32 s.bus.cnt (src * 32 + k) new,
      half := if !(bit old 31) && bit new 31 then sset 0 s.bus.half src (half ||| 2 ^ k) else s.bus.half } }

def count1 (src k : Nat) (s : State) : State := countBy src k 1 s

/-- Counters of a source. -/
def counters (src : Nat) : Nat := if src < 12 then 16 else 32

/-- The first counter k from 10 to 14 that a snapshot shows increased, and its increase (record 0x907). -/
def rxErrRise (s : State) (p : Nat) (ws : List Word) : Option (Nat × Word) :=
  ([10, 11, 12, 13, 14].map (fun k => (k, ws.getD (2 + k) 0#32 - s.reg (Reg.macPCnt p k)))).find? (fun e => e.2 != 0#32)

/-- What the paths publish from a snapshot: the counters, HALF, and for a port the frames discarded for errors. -/
def snapShow (src : Nat) (ws : List Word) (s : State) : State :=
  let mask := ws.getD 1 0#32
  let s1 := if mask = 0#32 then s else
    busRec (busEvt src (if src < 12 then 0x80 else 0x20) s) src (if src < 12 then 0x808 else 0x906) 2 (busUnit src) [w32 (busUnit src), mask]
  let s2 := if src < 12 then s1 else
    match rxErrRise s1 (src - 12) ws with
    | some (k, d) => busRec (busEvt src 0x40 s1) src 0x907 4 (src - 12) [w32 (src - 12), w32 k, d]
    | none => s1
  (s2.publish ((List.range (counters src)).map (fun k =>
    (if src < 12 then Reg.canChCnt src k else Reg.macPCnt (src - 12) k, ws.getD (2 + k) 0#32)))).republish [evtReg src]

/-- Push a snapshot that waits, once it fits (R295). -/
def snapPump (src : Nat) (s : State) : State :=
  match sget [] s.bus.snap src with
  | [] => s
  | w :: ws =>
    if (w :: ws).length ≤ islandRoom s 10 48 then
      snapShow src (w :: ws) (islandPush { s with bus := { s.bus with snap := sset [] s.bus.snap src [] } } 10 48 (w :: ws))
    else s

/-- STATS (R315): a snapshot with the HALF mask, unless one of the source still waits. -/
def busStats (src : Nat) (s : State) : State :=
  if !(sget [] s.bus.snap src).isEmpty then s else
  let n := counters src
  let tag := if src < 12 then src else 0x10 + (src - 12)
  let ws := [w32 (0x53540000 + 256 * n + tag), w32 (sget 0 s.bus.half src)] ++ (List.range n).map (counter s src)
  snapPump src { s with bus := { s.bus with snap := sset [] s.bus.snap src ws, half := sset 0 s.bus.half src 0 } }

/-! ## The commands -/

/-- BUS_STATUS_WORD: at the latest every 1 ms; a snapshot that waits is pushed once it fits. -/
def execBusStatusWord (src : Fin 24) (s : State) : Host.Outcome State Fault Refusal :=
  .next (busStatus src.val (snapPump src.val s))

/-- STATS. -/
def execBusStats (src : Fin 24) (s : State) : Host.Outcome State Fault Refusal :=
  .next (busNote src.val (busStats src.val s))

/-! ## Configuration words (R307) -/

/-- Does a SELECT index name an SH register of the window? -/
def selectAddr (src idx : Nat) : Option Nat :=
  let a := winBase src + 4 * idx
  match regRow? a with
  | some r => if r.acc = .sh then some a else none
  | none => none

/-- SELECT and the value that follows it. -/
def canSelect (src idx : Nat) (v : Word) (s : State) : State :=
  match selectAddr src idx with
  | none => s
  | some a =>
    if src < 12 then s.setCan src { (s.canI src) with staged := sset (regReset a) (s.canI src).staged a v }
    else s.setMac (src - 12) { (s.macI (src - 12)) with staged := sset (regReset a) (s.macI (src - 12)).staged a v }

/-- SELECT. -/
def execCanSelect (src : Fin 24) (idx : BitVec 9) (value : Word) (s : State) : Host.Outcome State Fault Refusal :=
  .next (canSelect src.val idx.toNat value s)

end Sys2Proof.Machine
end

