-- ==== Sys2Proof/Machine/CanFd.lean ====
section
/-! DEFINITION. The CAN FD channels of the local-bus island (R297 to R307). -/

namespace Sys2Proof.Machine

def rx0 : RxBuf := { frame := none, shadow := none }
def tx0 : TxBuf := { frame := none, req := false, active := false, onBus := false, abort := false, errors := 0, redo := false, ts := 0#32 }

def canCtl (x : Can) (c : Nat) : Word := cfgReg x.cur (Reg.canChCtrl c)
def canTx (s : State) (c i : Nat) : TxBuf := sget tx0 (s.canI c).tx i
def setTx (c i : Nat) (b : TxBuf) (s : State) : State := s.setCan c { (s.canI c) with tx := sset tx0 (s.canI c).tx i b }

/-- Does the controller take part in the traffic: error active or passive, and not in a protocol exception? -/
def canOn (s : State) (c : Nat) : Bool := s.bus.powered && decide ((s.canI c).mode ≤ 1) && !(s.canI c).pex

/-- TXPEND and, where it changed, the status word. -/
def canShow (c : Nat) (s : State) : State :=
  let pend := maskOf ((List.range 16).filter (fun i => (canTx s c i).req))
  let load := maskOf ((List.range 16).filter (fun i => (canTx s c i).frame.isSome))
  busNote c (s.publish [(Reg.canChTxpend c, w32 (pend + load * 65536))])

/-! ## Records (R302) -/

def frameWords (kind buf : Nat) (ovw : Bool) (f : CanFrame) : List Word :=
  [w32 (f.id + 2 ^ 29 * b2n f.ide + 2 ^ 30 * kind),
   w32 (f.dlc + 2 ^ 12 * b2n f.fdf + 2 ^ 13 * b2n f.brs + 2 ^ 14 * b2n f.esi + 2 ^ 15 * b2n f.rtr + 2 ^ 16 * buf + 2 ^ 22 * b2n ovw),
   f.ts] ++ f.data

def reportWords (kind buf cause errors : Nat) (ts : Word) (f : CanFrame) : List Word :=
  [w32 (f.id + 2 ^ 29 * b2n f.ide + 2 ^ 30 * kind),
   w32 (f.dlc + 2 ^ 12 * b2n f.fdf + 2 ^ 13 * b2n f.brs + 2 ^ 15 * b2n f.rtr + 2 ^ 16 * (buf % 64) + 2 ^ 24 * cause + 2 ^ 28 * min errors 15),
   ts]

/-- Put a record behind those a channel has still to push. -/
def canRecord (c : Nat) (ws : List Word) (s : State) : State := s.setCan c { (s.canI c) with out := (s.canI c).out ++ [.words ws] }

/-- What the paths see of a pushed record: OVW, KIND 2, CAUSE 3 (Table 11-14). -/
def canSeen (c : Nat) (ws : List Word) (s : State) : State :=
  let w0 := ws.getD 0 0#32
  let w1 := ws.getD 1 0#32
  if fld w0 31 30 = 2 then busEvt c (if fld w1 26 24 = 3 then 0x60 else 0x20) s
  else if fld w0 31 30 = 0 ∧ bit w1 22 then busRec (busEvt c 0x10 s) c 0x805 4 c [w32 c, w32 (fld w1 21 16)]
  else s

/-- The shadow buffer's frame moves into the buffer once its record is pushed. -/
def shiftRx (c b : Nat) (s : State) : State :=
  let r := sget rx0 (s.canI c).rx b
  s.setCan c { (s.canI c) with rx := sset rx0 (s.canI c).rx b { frame := r.shadow, shadow := none } }

/-- Push the records that wait, in order, while each fits whole (R295, R301). -/
def canPump (c : Nat) : Nat → State → State
  | 0, s => s
  | n + 1, s =>
    match (s.canI c).out with
    | [] => s
    | o :: rest =>
      let ws := match o with
        | .words ws => some ws
        | .buf b => ((sget rx0 (s.canI c).rx b).frame).map (fun (f : CanFrame × Bool) => frameWords 0 b f.2 f.1)
      let s1 := s.setCan c { (s.canI c) with out := rest }
      match ws with
      | none => canPump c n s1
      | some ws =>
        if ws.length ≤ islandRoom s 10 c then
          let s2 := canSeen c ws (islandPush s1 10 c ws)
          canPump c n (match o with | .buf b => shiftRx c b s2 | .words _ => s2)
        else s

/-- Push what fits, a snapshot that waits among it, and show. -/
def canFlow (c : Nat) (s : State) : State := canShow c (snapPump c (canPump c 4096 s))

/-- CAN_RX_RECORD_PUSH. -/
def execCanRxRecordPush (c : Fin 12) (s : State) : Host.Outcome State Fault Refusal := .next (canFlow c.val s)

/-! ## Receive buffers (R300, R301) -/

/-- The identifier of a frame as a filter compares it. -/
def frameId (f : CanFrame) : Nat := if f.ide then f.id else f.id % 2048

/-- Does a receive buffer accept a frame? -/
def accepts (x : Can) (c : Nat) (f : CanFrame) (b : Nat) : Bool :=
  let i := cfgReg x.cur (Reg.canChMbId c b)
  let m := cfgReg x.cur (Reg.canChMbMask c b)
  decide (fld i 31 30 ≠ 0) && fld ((w32 (frameId f) ^^^ i) &&& m) 28 0 == 0 && (!(bit m 29) || f.ide == bit i 29)

/-- Remove the last occurrence of a buffer's entry. -/
def dropLast (b : Nat) (l : List CanOut) : List CanOut := (l.reverse.erase (.buf b)).reverse

/-- A frame that finds its buffer held goes into the shadow buffer; one it replaces there is counted (R301). -/
def toShadow (c b : Nat) (f : CanFrame) (stream : Bool) (s : State) : State :=
  let x := s.canI c
  let r := sget rx0 x.rx b
  let out := if stream then (if r.shadow.isSome then dropLast b x.out else x.out) ++ [.buf b] else x.out
  let s1 := s.setCan c { x with rx := sset rx0 x.rx b { r with shadow := some (f, r.shadow.isSome) }, out := out }
  if r.shadow.isSome then count1 c 9 s1 else s1

/-- An accepted frame at its buffer: MODE 2 mailbox, else stream (R301). -/
def acceptFrame (c b : Nat) (f : CanFrame) (s0 : State) : State :=
  let s := count1 c 0 s0
  let x := s.canI c
  let r := sget rx0 x.rx b
  if fld (cfgReg x.cur (Reg.canChMbId c b)) 31 30 = 2 then
    if x.out.contains (.buf b) then toShadow c b f false s
    else
      let s1 := s.setCan c { x with rx := sset rx0 x.rx b { r with frame := some (f, r.frame.isSome) } }
      if r.frame.isSome then count1 c 9 s1 else s1
  else if r.frame.isSome then toShadow c b f true s
  else s.setCan c { x with rx := sset rx0 x.rx b { r with frame := some (f, false) }, out := x.out ++ [.buf b] }

/-- A valid frame goes to the lowest accepting buffer, or is counted in NO_MATCH (R300). -/
def deliverFrame (c : Nat) (f : CanFrame) (s : State) : State :=
  match (List.range 48).find? (accepts (s.canI c) c f) with
  | some b => acceptFrame c b f s
  | none => count1 c 10 s

/-! ## The transmit buffers' ends (R305) -/

/-- A requested buffer ends: KIND 1 done (with TXREP), or KIND 2 aborted with a cause. -/
def txEnd (c i kind cause : Nat) (s : State) : State :=
  let b := canTx s c i
  match b.frame with
  | none => s
  | some f =>
    let s1 := setTx c i { b with req := false, active := false, onBus := false, abort := false } s
    let r := reportWords kind (48 + i) cause b.errors b.ts f
    if kind = 1 then (if bit (canCtl (s1.canI c) c) 7 then canRecord c r s1 else s1)
    else
      let s2 := count1 c 13 (canRecord c r s1)
      if cause = 1 then busRec s2 c 0x806 6 c [w32 c, w32 (48 + i), w32 f.id] else s2

/-- A channel that cannot send aborts its requests with cause 4. -/
def abortAll (c : Nat) (s : State) : State :=
  (List.range 16).foldl (fun t i => if (canTx t c i).req then txEnd c i 2 4 t else t) s

def cannotSend (s : State) (c : Nat) : Bool := let k := canCtl (s.canI c) c; !(bit k 0) || bit k 2

/-- Request a loaded buffer (R304). -/
def txRequest (c i : Nat) (s : State) : State :=
  let b := canTx s c i
  if b.frame.isNone || b.req then s else
  let s1 := setTx c i { b with req := true, active := false, onBus := false, abort := false, errors := 0, redo := false, ts := 0#32 } s
  if cannotSend s1 c then txEnd c i 2 4 s1 else s1

/-! ## Configuration (R307) -/

/-- Does a change of configuration make the controller leave the bus? -/
def leavesBus (c : Nat) (a b : Sparse Word) : Bool :=
  let ch (r m : Nat) : Bool := decide (cfgReg a r &&& w32 m ≠ cfgReg b r &&& w32 m)
  ch (Reg.canChNbt c) 0xFFFFFFFF || ch (Reg.canChDbt c) 0xFFFFFFFF || ch (Reg.canChTdc c) 0xFFFFFFFF || ch (Reg.canChCtrl c) 0xE ||
  (bit (cfgReg a (Reg.canChCtrl c)) 0 && !(bit (cfgReg b (Reg.canChCtrl c)) 0))

/-- Is an attempt of this controller in progress? -/
def sending (s : State) (c : Nat) : Bool := (List.range 16).any (fun i => (canTx s c i).onBus)

/-- A buffer that becomes a stream buffer hands on every frame it holds: one that a mailbox held without a FETCH, and one of its shadow
buffer, take their places in the order of pushing (R301). -/
def streamHeld (c : Nat) (s : State) (b : Nat) : State :=
  let x := s.canI c
  let r := sget rx0 x.rx b
  if fld (cfgReg x.cur (Reg.canChMbId c b)) 31 30 = 1 then
    s.setCan c { x with out := x.out ++ List.replicate (b2n r.frame.isSome + b2n r.shadow.isSome - x.out.count (.buf b)) (.buf b) }
  else s

/-- The configuration to come takes effect; a controller that leaves the bus clears TEC and REC. -/
def applyNext (c : Nat) (s : State) : State :=
  let x := s.canI c
  match x.next with
  | none => s
  | some n =>
    let y := { x with cur := n, next := none, leave := false }
    let s1 := (List.range 48).foldl (streamHeld c)
      (s.setCan c (if x.leave then { y with txec := 0, rxec := 0, mode := 3, recov := false, pex := false } else y))
    if cannotSend s1 c then abortAll c s1 else s1

/-- Is a frame in progress on the bus, the controller's own or another's? -/
def frameUnderWay (s : State) (c : Nat) : Bool := sending s c || (s.canI c).rxBusy

/-- CFG_END: at the end of the frame in progress, or at the next start of frame, whichever the change asks for; a controller that
is off the bus has no frame to wait for (assumption 96). -/
def canCfgEnd (c : Nat) (s : State) : State :=
  let x := s.canI c
  let y := { x with cfgd := true, next := some x.staged, nextAt := s.fabTime, leave := x.leave || leavesBus c x.cur x.staged }
  let s1 := s.setCan c y
  canFlow c (if (y.leave && !(frameUnderWay s1 c)) || !x.cfgd || x.mode == 3 then applyNext c s1 else s1)

/-- The frame of another node is over: a controller that is to leave the bus does so (R307). -/
def frameOver (c : Nat) (s : State) : State :=
  let s1 := s.setCan c { (s.canI c) with rxBusy := false }
  if (s1.canI c).leave && !(sending s1 c) then applyNext c s1 else s1

/-- 11 consecutive recessive bits: no frame is in progress; the controller joins, or ends its protocol exception. -/
def busIntegration (c : Nat) (s0 : State) : State :=
  let s := if s0.bus.powered then frameOver c s0 else s0
  let x := s.canI c
  if !s.bus.powered || (s0.canI c).leave then canFlow c s
  else if x.pex then canShow c (s.setCan c { x with pex := false })
  else if x.mode = 3 ∧ x.cfgd ∧ bit (canCtl x c) 0 then canShow c (s.setCan c { x with mode := 0 })
  else s

/-- BUS_INTEGRATION. -/
def execBusIntegration (c : Fin 12) (s : State) : Host.Outcome State Fault Refusal := .next (busIntegration c.val s)

/-! ## Commands (Table 11-4) -/

/-- SEND (R304). -/
def canSend (c mask : Nat) (s : State) : State := canFlow c ((bitsOf 16 mask).foldl (fun t i => txRequest c i t) s)

/-- SEND. -/
def execCanSend (c : Fin 12) (mask : BitVec 16) (s : State) : Host.Outcome State Fault Refusal :=
  .next (canSend c.val mask.toNat s)

/-- ABORT (R305): at once, or at the end of the attempt in progress. -/
def canAbort (c mask : Nat) (s : State) : State :=
  canFlow c ((bitsOf 16 mask).foldl (fun t i =>
    let b := canTx t c i
    if !b.req then t else if b.onBus then setTx c i { b with abort := true } t else txEnd c i 2 2 t) s)

/-- ABORT. -/
def execCanAbort (c : Fin 12) (mask : BitVec 16) (s : State) : Host.Outcome State Fault Refusal :=
  .next (canAbort c.val mask.toNat s)

/-- FETCH (R301): the record of a held mailbox, KIND 3 for an empty one; no effect while its record waits. -/
def canFetch (c b : Nat) (ts : Word) (s : State) : State :=
  let x := s.canI c
  if 48 ≤ b ∨ x.out.contains (.buf b) then s else
  canFlow c (match (sget rx0 x.rx b).frame with
    | some _ => s.setCan c { x with out := x.out ++ [.buf b] }
    | none => canRecord c [w32 (3 * 2 ^ 30), w32 (b * 65536), ts] s)

/-- FETCH. -/
def execCanFetch (c : Fin 12) (b : BitVec 6) (ts : Word) (s : State) : Host.Outcome State Fault Refusal :=
  .next (canFetch c.val b.toNat ts s)

/-! ## Reception -/

/-- A successful reception lowers REC as ISO 11898-1 says (assumption 33). -/
def rxGood (c : Nat) (s : State) : State :=
  let x := s.canI c
  if x.rxec = 0 then s
  else if x.rxec ≤ 127 then s.setCan c { x with rxec := x.rxec - 1 }
  else let f := s.free; f.2.setCan c { (f.2.canI c) with rxec := 119 + f.1.toNat % 9 }

/-- TEC and REC both below 128: error active; one above: error passive, with record 0x801 (R306, R320). -/
def errState (c : Nat) (s : State) : State :=
  let x := s.canI c
  if 1 < x.mode then s
  else if 128 ≤ x.txec ∨ 128 ≤ x.rxec then
    if x.mode = 1 then s else busRec (busEvt c 1 (s.setCan c { x with mode := 1 })) c 0x801 6 c [w32 c, w32 x.txec, w32 x.rxec]
  else s.setCan c { x with mode := 0 }

/-- A frame with its data bytes padded to words. -/
def mkFrame (id : Nat) (ide : Bool) (dlc : Nat) (fdf brs esi rtr : Bool) (bytes : List Byte) (ts : Nat) : CanFrame :=
  { id := id, ide := ide, dlc := dlc, fdf := fdf, brs := brs, esi := esi, rtr := rtr,
    data := bytesWords (bytes ++ List.replicate ((4 - bytes.length % 4) % 4) 0#8), ts := w32 ts }

/-- What a station's ID is compared with: the identifier, bit 31 for the extended format (R249). -/
def stationId (f : CanFrame) : Word := w32 (frameId f + 2 ^ 31 * b2n f.ide)

/-- The end of a valid frame. A change that waits for a start of frame is in force for it when it came before (R300, R307): one
whose start START_OF_FRAME has not shown is held against the time of CFG_END. -/
def canReceive (c : Nat) (f : CanFrame) (ts : Nat) (s : State) : State :=
  if !(canOn s c) then s else
  let x := s.canI c
  let s1 := if x.nextAt ≤ ts ∧ !x.leave ∧ !x.rxBusy then applyNext c s else s
  let s2 := if f.fdf && !(bit (canCtl (s1.canI c) c) 1) then s1
    else errState c (rxGood c (deliverFrame c f (stationRefresh 1 c (stationId f) s1)))
  canFlow c (frameOver c s2)

/-- CAN_FRAME_RECEIVE. -/
def execCanFrameReceive (c : Fin 12) (id : BitVec 29) (ide : Bool) (dlc : BitVec 4) (fdf brs esi rtr : Bool) (bytes : List Byte)
    (ts : BitVec 64) (s : State) : Host.Outcome State Fault Refusal :=
  guarded (.canFrameReceive c id ide dlc fdf brs esi rtr bytes ts)
    (canReceive c.val (mkFrame id.toNat ide dlc.toNat fdf brs esi rtr bytes ts.toNat) ts.toNat) s

/-! ## Loading (R303) -/

/-- The words of the transmit record whose first two words are given. -/
def recordLen (w1 : Word) : Nat :=
  2 + (if bit w1 15 then 0 else (canBytes (bit w1 12) (fld w1 3 0) + 3) / 4)

/-- The faults that make a record invalid. -/
def badRecord (s : State) (c : Nat) (w0 w1 : Word) : Bool :=
  decide (fld w1 21 16 < 48) || (bit w1 12 && !(bit (canCtl (s.canI c) c) 1)) || ((bit w1 13 || bit w1 14) && !(bit w1 12)) ||
  (bit w1 15 && bit w1 12) || decide (fld w0 31 30 ≠ 0) || (w1 &&& 0xFF404FF0#32) != 0#32

/-- The frame of a transmit record. -/
def recordFrame (ws : List Word) : CanFrame :=
  let w0 := ws.getD 0 0#32
  let w1 := ws.getD 1 0#32
  { id := fld w0 28 0, ide := bit w0 29, dlc := fld w1 3 0, fdf := bit w1 12, brs := bit w1 13, esi := false,
    rtr := bit w1 15, data := ws.drop 2, ts := 0#32 }

/-- A record popped: loaded into its buffer, or discarded and reported. -/
def loadRecord (c : Nat) (ws : List Word) (s : State) : State :=
  let w1 := ws.getD 1 0#32
  let f := recordFrame ws
  if badRecord s c (ws.getD 0 0#32) w1 then
    let s1 := busRec (count1 c 13 (count1 c 14 s)) c 0x807 6 c [w32 c, w1]
    canRecord c (reportWords 2 (fld w1 21 16) 3 0 0#32 f) s1
  else
    let i := fld w1 21 16 - 48
    let b := canTx s c i
    let s1 := setTx c i { b with frame := some f } s
    if b.req then count1 c 15 s1 else if bit w1 23 then txRequest c i s1 else s1

/-- The record at the head of the transmit queue, whole; one for a transmitting buffer waits (R303). -/
def canLoad (c : Nat) (s : State) : State :=
  match qOfCons s (epIsland 10 (12 + c)) with
  | none => s
  | some q =>
    if qLevel s q < 2 then s else
    let w0 := (qFetch s q 0).1
    let w1 := (qFetch s q 1).1
    if qLevel s q < recordLen w1 then s
    else if !(badRecord s c w0 w1) && (canTx s c (fld w1 21 16 - 48)).active then s
    else let r := busPop q (recordLen w1) s; canFlow c (loadRecord c r.1 r.2)

/-- CAN_TX_RECORD_LOAD. -/
def execCanTxRecordLoad (c : Fin 12) (s : State) : Host.Outcome State Fault Refusal :=
  .next (canLoad c.val s)

/-! ## Attempts (R304 to R306) -/

/-- The arbitration field of a frame as a number: a lower one wins. -/
def arbKey (f : CanFrame) : Nat :=
  if f.ide then (f.id / 2 ^ 18 % 2048) * 2 ^ 21 + 3 * 2 ^ 19 + (f.id % 2 ^ 18) * 2 + b2n (f.rtr && !f.fdf)
  else (f.id % 2048) * 2 ^ 21 + b2n (f.rtr && !f.fdf) * 2 ^ 20

/-- The requested buffer that would win arbitration; equal frames in ascending buffer number. -/
def offered (s : State) (c : Nat) : Option Nat :=
  (List.range 16).foldl (fun best i =>
    let b := canTx s c i
    match b.req, b.frame with
    | true, some f => (match best with
      | some j => (match (canTx s c j).frame with | some g => if arbKey f < arbKey g then some i else best | none => some i)
      | none => some i)
    | _, _ => best) none

/-- The controller begins the frame of buffer `i`; an attempt repeated after an error counts in RETRANSMIT (R305, Table 11-9). -/
def beginFrame (c i ts : Nat) (s : State) : State :=
  let b := canTx s c i
  let s1 := setTx c i { b with active := true, onBus := true, redo := false, ts := w32 ts } s
  if b.redo then count1 c 12 s1 else s1

/-- A start-of-frame opportunity on an idle bus, at which the changes that wait apply (R304, R307); the controller begins a frame
unless another node has begun first (`other`). -/
def startOfFrame (c ts : Nat) (other : Bool) (s0 : State) : State :=
  if !s0.bus.powered || sending s0 c then s0 else
  let s1 := applyNext c s0
  let s := s1.setCan c { (s1.canI c) with rxBusy := other }
  canFlow c (if other || !(canOn s c) || cannotSend s c then s else
    match offered s c with
    | none => s
    | some i => beginFrame c i ts s)

/-- START_OF_FRAME. -/
def execStartOfFrame (c : Fin 12) (ts : BitVec 64) (other : Bool) (s : State) : Host.Outcome State Fault Refusal :=
  .next (startOfFrame c.val ts.toNat other s)

/-- A looped-back frame as its record shows it: its own start, padding bytes 0, and in a CAN FD frame ESI as an error-passive
sender sets it (R302, assumption 33). -/
def loopedFrame (passive : Bool) (b : TxBuf) (f : CanFrame) : CanFrame :=
  let bytes := (wordBytes f.data).take (canBytes f.fdf f.dlc)
  { f with ts := b.ts, id := frameId f, esi := f.fdf && passive,
           data := bytesWords (bytes ++ List.replicate ((4 - bytes.length % 4) % 4) 0#8) }

/-- The attempt of buffer i ends (R305): 0 success, 1 error frame, 2 no acknowledgement, 3 arbitration lost. -/
def attemptEnd (c i res : Nat) (s : State) : State :=
  let b := canTx s c i
  let ctl := canCtl (s.canI c) c
  match res with
  | 0 =>
    let x := s.canI c
    let s1 := count1 c 1 (s.setCan c { x with txec := x.txec - 1 })
    let s2 := match b.frame with
      | some f => if bit ctl 3 then deliverFrame c (loopedFrame (x.mode == 1) b f) s1 else s1
      | none => s1
    errState c (txEnd c i 1 0 s2)
  | 3 =>
    let s1 := count1 c 7 (s.setCan c { (s.canI c) with rxBusy := true })
    if b.abort then txEnd c i 2 2 s1 else setTx c i { b with onBus := false } s1
  | _ =>
    let e := b.errors + 1
    let s1 := setTx c i { b with errors := e, redo := true, onBus := false } s
    if b.abort then txEnd c i 2 2 s1
    else if !(bit ctl 5) && decide (fld ctl 11 8 < e) then txEnd c i 2 1 s1
    else s1

/-- Was the frame of a buffer a CAN FD frame with BRS, so that TDCV was measured (R299)? -/
def measuresTdcv (s : State) (c i : Nat) : Bool :=
  bit (cfgReg (s.canI c).cur (Reg.canChTdc c)) 16 && (match (canTx s c i).frame with | some f => f.fdf && f.brs | none => false)

/-- The attempt in progress ends; TDCV as measured (R299); a change that waits for the end of the frame applies (R307), after lost
arbitration at the end of the winner's. -/
def canAttemptEnd (c res : Nat) (tdcv : Option Nat) (s : State) : State :=
  match (List.range 16).find? (fun i => (canTx s c i).onBus) with
  | none => s
  | some i =>
    let s1 := match tdcv with
      | some v => if measuresTdcv s c i then s.setCan c { (s.canI c) with tdcv := v } else s
      | none => s
    let s2 := attemptEnd c i res s1
    canFlow c (if (s2.canI c).leave && !(s2.canI c).rxBusy then applyNext c s2 else s2)

/-- CAN_ATTEMPT_END. -/
def execCanAttemptEnd (c : Fin 12) (res : Fin 4) (tdcv : Option (BitVec 7)) (s : State) : Host.Outcome State Fault Refusal :=
  .next (canAttemptEnd c.val res.val (tdcv.map BitVec.toNat) s)

/-! ## Errors (R297, R306) -/

/-- The counter of an error kind (LEC): 1 stuff, 2 form, 3 acknowledgement, 4 and 5 bit, 6 CRC. -/
def errCounter (kind : Nat) : Nat :=
  match kind with
  | 1 => 3
  | 2 => 4
  | 3 => 5
  | 6 => 6
  | _ => 2

/-- A bus error raises TEC and REC as ISO 11898-1 says; a TEC above 255 is bus-off (R306, R422, assumption 33). -/
def canError (c kind txUp rxUp : Nat) (s : State) : State :=
  if !(canOn s c) then s else
  let s1 := count1 c (errCounter kind) s
  let x := s1.canI c
  let y := { x with lec := kind, txec := x.txec + txUp, rxec := min (x.rxec + rxUp) 255 }
  canFlow c (if 255 < y.txec then
      let s2 := count1 c 8 (s1.setCan c { y with mode := 2, recov := false, offMs := s1.fabTime / 1000000 })
      busRec (busEvt c 2 s2) c 0x802 10 c [w32 c, w32 kind]
    else frameOver c (errState c (s1.setCan c y)))

/-- CAN_ERROR. -/
def execCanError (c : Fin 12) (kind : Fin 7) (txUp rxUp : Fin 9) (s : State) : Host.Outcome State Fault Refusal :=
  guarded (.canError c kind txUp rxUp) (canError c.val kind.val txUp.val rxUp.val) s

/-- A protocol exception (Table 11-2). -/
def protocolException (c : Nat) (s : State) : State :=
  if !(canOn s c) then s else
  canFlow c (busRec (busEvt c 8 (count1 c 11 (s.setCan c { (s.canI c) with pex := true }))) c 0x804 4 c [w32 c])

/-- PROTOCOL_EXCEPTION. -/
def execProtocolException (c : Fin 12) (s : State) : Host.Outcome State Fault Refusal := .next (protocolException c.val s)

/-- Bus-off recovery begins, by itself after BOHOLD (`auto`) or by a RECOVER (R306). -/
def recoverStart (auto : Bool) (c : Nat) (s : State) : State :=
  let x := s.canI c
  if s.bus.powered ∧ x.mode = 2 ∧ !x.recov ∧ bit (canCtl x c) 4 = auto then canShow c (s.setCan c { x with recov := true }) else s

/-- BUS_OFF_HOLD_END. -/
def execBusOffHoldEnd (c : Fin 12) (s : State) : Host.Outcome State Fault Refusal := .next (recoverStart true c.val s)

/-- RECOVER. -/
def execCanRecover (c : Fin 12) (s : State) : Host.Outcome State Fault Refusal := .next (recoverStart false c.val s)

/-- Recovery is complete: error active with TEC and REC 0 (R306). -/
def recoverDone (c : Nat) (s : State) : State :=
  let x := s.canI c
  if s.bus.powered ∧ x.mode = 2 ∧ x.recov then
    let s1 := s.setCan c { x with mode := 0, recov := false, txec := 0, rxec := 0 }
    canShow c (busRec (busEvt c 4 s1) c 0x803 4 c [w32 c, w32 (s1.fabTime / 1000000 - x.offMs)])
  else s

/-- BUS_OFF_RECOVERY_DONE. -/
def execBusOffRecoveryDone (c : Fin 12) (s : State) : Host.Outcome State Fault Refusal := .next (recoverDone c.val s)

/-! ## Power-fail (R317) -/

/-- The transceiver of a channel has lost power: a frame in progress in either direction is lost. -/
def canCut (s : State) (c : Nat) : State :=
  let x := s.canI c
  frameOver c (s.setCan c { x with tx := x.tx.map (fun e => (e.1, { e.2 with onBus := false })) })

end Sys2Proof.Machine
end

