-- ==== Sys2Proof/Machine/T1s.lean ====
section
/-! DEFINITION. The 10BASE-T1S ports of the local-bus island (R309 to R317), and CFG_END of both interfaces. -/

namespace Sys2Proof.Machine

/-- ADDR of a port, byte 0 first. -/
def macAddr (s : State) (p : Nat) : List Byte :=
  leBytes 4 (cfgReg (s.macI p).cur (Reg.macPAddrLo p)).toNat ++ leBytes 2 (cfgReg (s.macI p).cur (Reg.macPAddrHi p)).toNat

def isBroadcast (d : List Byte) : Bool := d == List.replicate 6 0xFF#8
def isGroup (d : List Byte) : Bool := (d.headD 0#8).getLsbD 0
def etherType (f : List Byte) : Nat := ((f.getD 12 0#8).toNat) * 256 + (f.getD 13 0#8).toNat

/-- Status word where it changed. -/
def macShow (p : Nat) (s : State) : State := busNote (12 + p) s

/-- Can FLOWCTL be 1: TXPAUSE in full duplex, BPEN in half duplex (R313, R314)? -/
def flowControls (ctl : Word) : Bool := bit ctl 0 && (if bit ctl 1 then bit ctl 2 else bit ctl 4)

/-- A configuration takes effect: EN = 0 empties the transmit side, half duplex ends a PAUSE's hold, and flow control that the new
mode does not have ends. -/
def macApply (p : Nat) (n : Sparse Word) (s : State) : State :=
  let was := macCtl s p
  let s1 := s.setMac p { (s.macI p) with cur := n }
  let ctl := macCtl s1 p
  let x := s1.macI p
  let y := { x with flow := x.flow && flowControls ctl && (bit was 1 == bit ctl 1), paused := if bit ctl 1 then x.paused else none }
  s1.setMac p (if bit was 0 && !(bit ctl 0) then
    { y with txq := [], coll := 0, deferred := false, backoff := none, paused := none } else y)

/-- A frame starts: changes that wait for it apply (R307). -/
def macStart (p : Nat) (s : State) : State :=
  match (s.macI p).next with
  | some n => macApply p n (s.setMac p { (s.macI p) with next := none })
  | none => s

/-- A CFG_END of a port (R307): FD and EN = 0 at the end of the frame in progress, which between two commands is none, since each
T1S frame is one command (assumption 75); any other change at the next start of frame; all of it where the port is not in use. -/
def macCfgEnd (p : Nat) (s : State) : State :=
  let x := s.macI p
  let s1 := s.setMac p { x with cfgd := true, next := some x.staged, nextAt := s.fabTime }
  let ctl := cfgReg x.staged (Reg.macPCtrl p)
  macShow p (if !(macOn s p) || !(bit ctl 0) then macStart p s1
    else macApply p (sset (regReset (Reg.macPCtrl p)) x.cur (Reg.macPCtrl p) (setFld (macCtl s p) 1 1 (fld ctl 1 1))) s1)

/-- CFG_END. -/
def execCfgEnd (src : Fin 24) (s : State) : Host.Outcome State Fault Refusal :=
  .next (if src.val < 12 then canCfgEnd src.val s else macCfgEnd (src.val - 12) s)

/-! ## Receive (R310, R311) -/

/-- Bytes in the 8 KiB receive FIFO. -/
def fifoBytes (x : Mac) : Nat :=
  (x.out.map (fun o => match o with | .frame b _ => b.length | .report _ => 0)).foldl (· + ·) 0

/-- The counter of the first fault of a frame (R310), none for a good one. -/
def rxFault (s : State) (p : Nat) (f : List Byte) (whole late : Bool) : Option Nat :=
  let n := f.length
  if late then some 14
  else if n < 64 then some 10
  else if !whole then some 13
  else if !(crc32 (f.take (n - 4)) == w32 (leNat (f.drop (n - 4)))) then some 12
  else if (if bit (macCtl s p) 5 then 1522 else 1518) < n then some 11 else none

/-- Does a destination pass the filter? -/
def passes (s : State) (p : Nat) (d : List Byte) : Bool :=
  let k := macCtl s p
  d == macAddr s p || (isBroadcast d && bit k 8) || (isGroup d && !(isBroadcast d) && bit k 7) || bit k 6

/-- The record of a received frame, its bytes without the FCS (Table 11-7). -/
def rxRecord (f : List Byte) (ts : Word) : List Word :=
  let b := f.take (f.length - 4)
  [w32 b.length, ts] ++ bytesWords (b ++ List.replicate ((4 - b.length % 4) % 4) 0#8)

/-- The length class of a pushed frame, a counter from 4 to 9. -/
def lenClass (n : Nat) : Nat :=
  if n ≤ 64 then 4 else if n ≤ 127 then 5 else if n ≤ 255 then 6 else if n ≤ 511 then 7 else if n ≤ 1023 then 8 else 9

/-- Counters of a pushed frame. -/
def rxCounters (p : Nat) (f : List Byte) (s : State) : State :=
  let src := 12 + p
  let s1 := count1 src (lenClass f.length) (countBy src 1 f.length (count1 src 0 s))
  if isBroadcast (f.take 6) then count1 src 2 s1 else if isGroup f then count1 src 3 s1 else s1

/-- What the paths see of a pushed report (Table 11-16). -/
def reportSeen (p : Nat) (ws : List Word) (s : State) : State :=
  match fld (ws.getD 0 0#32) 22 20 with
  | 1 => busEvt (12 + p) 1 s
  | 2 => busEvt (12 + p) 2 s
  | 3 => busEvt (12 + p) 0x10 s
  | _ => s

/-- Push frames and reports in order while each fits whole (R295, R311). -/
def macPump (p : Nat) : Nat → State → State
  | 0, s => s
  | n + 1, s =>
    match (s.macI p).out with
    | [] => s
    | o :: rest =>
      let ws := match o with | .frame b ts => rxRecord b ts | .report ws => ws
      if ws.length ≤ islandRoom s 10 (24 + p) then
        let s1 := islandPush (s.setMac p { (s.macI p) with out := rest }) 10 (24 + p) ws
        macPump p n (match o with | .frame b _ => rxCounters p b s1 | .report r => reportSeen p r s1)
      else s

def macFlow (p : Nat) (s : State) : State := macShow p (snapPump (12 + p) (macPump p 4096 s))

/-- T1S_RX_RECORD_PUSH. -/
def execT1sRxRecordPush (p : Fin 12) (s : State) : Host.Outcome State Fault Refusal := .next (macFlow p.val s)

/-- A received PAUSE (R313, R422): counted; obeyed with RXPAUSE = 1 in full duplex. -/
def pauseReceived (p quanta : Nat) (s : State) : State :=
  let s1 := count1 (12 + p) 17 s
  if bit (macCtl s p) 3 && macFd s p then s1.setMac p { (s1.macI p) with paused := if quanta = 0 then none else some quanta } else s1

/-- A PAUSE frame arrives: its start is a start of frame for a change that waits (R307). -/
def pauseArrives (p quanta : Nat) (s0 : State) : State :=
  if !(macOn s0 p) then s0 else
  let s := macStart p s0
  macShow p (if macOn s p then pauseReceived p quanta s else s)

/-- PAUSE_RECEIVED. -/
def execPauseReceived (p : Fin 12) (quanta : BitVec 16) (s : State) : Host.Outcome State Fault Refusal :=
  .next (pauseArrives p.val quanta.toNat s)

/-- PAUSE_HOLD_END. -/
def execPauseHoldEnd (p : Fin 12) (s : State) : Host.Outcome State Fault Refusal :=
  .next (macShow p.val (s.setMac p.val { (s.macI p.val) with paused := none }))

/-- What a station's ID is compared with: the low 32 bits of the source address, as MAC_Pp_ADDR_LO holds them (R249,
assumption 97). -/
def macStationId (f : List Byte) : Word := w32 (leNat ((f.drop 6).take 4))

/-- A frame with its FCS arrives: no room, a fault, MAC Control, the filter, or the FIFO (R310, R311); one without a fault
refreshes its stations (R249). -/
def macReceive (p : Nat) (f : List Byte) (whole late : Bool) (ts : Nat) (s0 : State) : State :=
  if !(macOn s0 p) then s0 else
  let s1 := if (s0.macI p).nextAt ≤ ts then macStart p s0 else s0
  let s := if (rxFault s1 p f whole late).isNone && decide (fifoBytes (s1.macI p) + f.length ≤ 8192) then
    stationRefresh 2 p (macStationId f) s1 else s1
  let src := 12 + p
  let x := s.macI p
  macFlow p (
    if 8192 < fifoBytes x + f.length then
      busRec (busEvt src 4 (count1 src 16 (s.setMac p { x with ovf := true }))) src 0x903 4 p [w32 p]
    else match rxFault s p f whole late with
    | some k => count1 src k s
    | none =>
      if etherType f = 0x8808 then
        if (f.getD 14 0#8).toNat * 256 + (f.getD 15 0#8).toNat = 1 then
          pauseReceived p ((f.getD 16 0#8).toNat * 256 + (f.getD 17 0#8).toNat) s
        else count1 src 31 s
      else if passes s p (f.take 6) then s.setMac p { x with out := x.out ++ [.frame f (w32 ts)] }
      else count1 src 15 s)

/-- T1S_FRAME_RECEIVE. -/
def execT1sFrameReceive (p : Fin 12) (bytes : List Byte) (whole late : Bool) (ts : BitVec 64) (s : State) :
    Host.Outcome State Fault Refusal := .next (macReceive p.val bytes whole late ts.toNat s)

/-! ## Transmit (R312) -/

/-- A transmit report (Table 11-7). -/
def txReport (len coll outcome : Nat) (ts : Word) : List Word :=
  [w32 (len % 65536 + 65536 * min coll 15 + 2 ^ 20 * outcome + 2 ^ 30), ts]

def addReport (p : Nat) (ws : List Word) (s : State) : State := s.setMac p { (s.macI p) with out := (s.macI p).out ++ [.report ws] }

/-- LEN in range and reserved bits 0 (R312). -/
def txRecordOk (s : State) (p : Nat) (w : Word) : Bool :=
  decide (14 ≤ fld w 15 0) && decide (fld w 15 0 ≤ (if bit (macCtl s p) 5 then 1518 else 1514)) && decide (fld w 31 16 = 0)

/-- Bytes in the 4 KiB transmit FIFO. -/
def txBytes (x : Mac) : Nat := (x.txq.map List.length).foldl (· + ·) 0

/-- The next transmit record: an invalid one gives up its first word alone; a valid one is taken whole as room allows. -/
def macPop (p : Nat) (s : State) : State :=
  match qOfCons s (epIsland 10 (36 + p)) with
  | none => s
  | some q =>
    if !(macOn s p) || decide (qLevel s q = 0) then s else
    let w := (qFetch s q 0).1
    let n := fld w 15 0
    let src := 12 + p
    if !(txRecordOk s p w) then
      let s1 := count1 src 28 (busPop q 1 s).2
      macFlow p (addReport p (txReport n 0 3 0#32) (busRec s1 src 0x905 6 p [w32 p, w]))
    else if qLevel s q < 1 + (n + 3) / 4 ∨ 4096 < txBytes (s.macI p) + n then s
    else
      let r := busPop q (1 + (n + 3) / 4) s
      let f := (wordBytes (r.1.drop 1)).take n
      macFlow p (r.2.setMac p { (r.2.macI p) with txq := (r.2.macI p).txq ++ [f] })

/-- T1S_TX_RECORD_POP. -/
def execT1sTxRecordPop (p : Fin 12) (s : State) : Host.Outcome State Fault Refusal := .next (macPop p.val s)

/-- The head frame leaves the FIFO, with its report where one is due. -/
def macDone (p outcome : Nat) (ts : Word) (s : State) : State :=
  let x := s.macI p
  let len := (x.txq.headD []).length
  let s1 := s.setMac p { x with txq := x.txq.tail, coll := 0, deferred := false, backoff := none }
  if outcome ≠ 0 ∨ bit (macCtl s p) 9 then addReport p (txReport len x.coll outcome ts) s1 else s1

/-- Counters of a frame sent, padded to 60 bytes and with its FCS. -/
def sentCounters (p : Nat) (f : List Byte) (coll : Nat) (s : State) : State :=
  let src := 12 + p
  let s1 := countBy src 19 (max f.length 60 + 4) (count1 src 18 s)
  let s2 := if isBroadcast (f.take 6) then count1 src 20 s1 else if isGroup f then count1 src 21 s1 else s1
  if coll = 1 then count1 src 22 s2 else if 1 < coll then count1 src 23 s2 else s2

/-- The first attempt at a frame in half duplex defers to carrier, and counts in TX_DEFERRED as it does (Table 11-10). -/
def noteDefer (p : Nat) (defer : Bool) (s : State) : State :=
  let x := s.macI p
  if defer && x.coll == 0 && !x.deferred && !(macFd s p) then count1 (12 + p) 26 (s.setMac p { x with deferred := true }) else s

/-- An attempt at the head frame: 0 sent, 1 a collision, 2 a late one; in full duplex there is no collision. The waiting time
after a collision is drawn by the island (assumption 3). -/
def macTransmit (p res : Nat) (defer : Bool) (ts : Nat) (s0 : State) : State :=
  let src := 12 + p
  if !(macOn s0 p) || (s0.macI p).paused.isSome || (s0.macI p).backoff.isSome then s0 else
  match (s0.macI p).txq with
  | [] => s0
  | f :: _ =>
    let s := noteDefer p defer (macStart p s0)
    let x := s.macI p
    macFlow p (match (if macFd s p then 0 else res) with
      | 0 => macDone p 0 (w32 ts) (sentCounters p f x.coll s)
      | 1 =>
        let n := x.coll + 1
        let s1 := count1 src 30 (s.setMac p { x with coll := n })
        if n = 16 then
          macDone p 1 (w32 ts) (busRec (count1 src 24 s1) src 0x901 6 p [w32 p, w32 f.length])
        else
          let r := s1.free
          r.2.setMac p { (r.2.macI p) with backoff := some (512 * (r.1.toNat % 2 ^ min n 10)) }
      | _ =>
        let s1 := count1 src 25 (count1 src 30 (s.setMac p { x with coll := x.coll + 1 }))
        macDone p 2 (w32 ts) (busRec s1 src 0x902 6 p [w32 p, w32 f.length]))

/-- T1S_FRAME_TRANSMIT. -/
def execT1sFrameTransmit (p : Fin 12) (res : Fin 3) (defer : Bool) (ts : BitVec 64) (s : State) : Host.Outcome State Fault Refusal :=
  .next (macTransmit p.val res.val defer ts.toNat s)

/-- BACKOFF_END: the next attempt may begin. -/
def execBackoffEnd (p : Fin 12) (s : State) : Host.Outcome State Fault Refusal :=
  .next (macShow p.val (s.setMac p.val { (s.macI p.val) with backoff := none }))

/-! ## Flow control (R313, R314) -/

/-- The receive queue of a port. -/
def rxQueue (s : State) (p : Nat) : Option Nat := qOfProd s (epIsland 10 (24 + p))

/-- The PAUSE of a port (R313): to 01-80-C2-00-00-01, from ADDR, type 0x8808, opcode 0x0001, padded to 60 bytes as every frame
(R312). -/
def pauseFrame (s : State) (p quanta : Nat) : List Byte :=
  [0x01#8, 0x80#8, 0xC2#8, 0x00#8, 0x00#8, 0x01#8] ++ macAddr s p ++ [0x88#8, 0x08#8, 0x00#8, 0x01#8] ++
    (leBytes 2 quanta).reverse ++ List.replicate 42 0#8

/-- A PAUSE leaves with the quanta given. -/
def sendPause (p quanta : Nat) (s : State) : State :=
  count1 (12 + p) 27 (s.setMac p { (s.macI p) with sentPause := some (pauseFrame s p quanta) })

/-- TXPAUSE in full duplex. -/
def pausing (s : State) (p : Nat) : Bool := macOn s p && macFd s p && bit (macCtl s p) 2

/-- A PAUSE of a port starts: its start is a start of frame for a change that waits, which is then in force for it (R307); where that
change ends TXPAUSE in full duplex, no PAUSE leaves. -/
def pauseStart (p : Nat) (f : State → State) (s : State) : State :=
  let s1 := macStart p s
  macShow p (if pausing s1 p then f s1 else s1)

/-- The level has reached HIGH: a PAUSE of PAUSEQ quanta. -/
def pauseSend (p : Nat) (s : State) : State :=
  match rxQueue s p with
  | some q => if pausing s p && !(s.macI p).flow && decide (qHigh s q ≤ qLevel s q) then
      pauseStart p (fun t => sendPause p (fld (macCtl t p) 31 16) (flowOn p 0 (qLevel t q) t)) s else s
  | none => s

/-- PAUSE_SEND. -/
def execPauseSend (p : Fin 12) (s : State) : Host.Outcome State Fault Refusal := .next (pauseSend p.val s)

/-- The level stays above LOW: the PAUSE is sent again. -/
def pauseResend (p : Nat) (s : State) : State :=
  match rxQueue s p with
  | some q => if pausing s p && (s.macI p).flow && decide (qLow s q < qLevel s q) then
      pauseStart p (fun t => sendPause p (fld (macCtl t p) 31 16) t) s else s
  | none => s

/-- PAUSE_RESEND. -/
def execPauseResend (p : Fin 12) (s : State) : Host.Outcome State Fault Refusal := .next (pauseResend p.val s)

/-- The PAUSE of zero quanta, which ends FLOWCTL. -/
def pauseZero (p : Nat) (s : State) : State :=
  let s1 := sendPause p 0 s
  s1.setMac p { (s1.macI p) with flow := false }

/-- The level has fallen to LOW: a PAUSE of zero quanta. -/
def pauseRelease (p : Nat) (s : State) : State :=
  match rxQueue s p with
  | some q => if pausing s p && (s.macI p).flow && decide (qLevel s q ≤ qLow s q) then pauseStart p (pauseZero p) s else s
  | none => s

/-- PAUSE_RELEASE. -/
def execPauseRelease (p : Fin 12) (s : State) : Host.Outcome State Fault Refusal := .next (pauseRelease p.val s)

/-- A frame sensed in half duplex with BPEN = 1: jammed from the level's reaching HIGH until it falls to LOW, which the queue's level
itself sets and clears (`backpressureAt`, R314); its start is a start of frame for a change that waits, whose result shows. -/
def backpressure (p : Nat) (s0 : State) : State :=
  if !(macOn s0 p) then s0 else
  let s := macStart p s0
  macShow p (match rxQueue s p with
  | some q =>
    if !(macOn s p) || macFd s p || !(bit (macCtl s p) 4) then s
    else if qLevel s q ≤ qLow s q then s.setMac p { (s.macI p) with flow := false }
    else if qHigh s q ≤ qLevel s q ∨ (s.macI p).flow then count1 (12 + p) 29 (flowOn p 1 (qLevel s q) s)
    else s
  | none => s)

/-- BACKPRESSURE_JAM. -/
def execBackpressureJam (p : Fin 12) (s : State) : Host.Outcome State Fault Refusal := .next (backpressure p.val s)

/-- The transceivers and PHYs lose power (R132, R317): frames in progress are lost, PHY_UP falls, and the island, which keeps
running, writes the words that change. -/
def busPowerOff (s : State) : State :=
  let s1 := { s with bus := { s.bus with powered := false } }
  (List.range 24).foldl (fun t src => busNote src t) ((List.range 12).foldl canCut s1)

end Sys2Proof.Machine
end

