-- ==== Sys2Proof/Machine/Start.lean ====
section
/-! DEFINITION. The kinds of start and the start sequence, phases 0 to 7, siding mode and the service header
(R100 to R123, R148, R149, R182, R382, R394, R405, R406, R413, R416, R450). -/

namespace Sys2Proof.Machine

/-! ## Reset of the core island (Table 4-1, R102) -/

/-- Registers that a start keeps: identity and the measured voltages; across a warm start also the results of the last
capacitance check (R10, R135). -/
def keptAddrs (warm : Bool) : List Nat :=
  [Reg.sysId, Reg.sysSerialLo, Reg.sysSerialHi, Reg.pwrVin, Reg.pwrVbank] ++
  (if warm then [Reg.pwrCbank, Reg.pwrEhold, Reg.pwrCheck] else [])

/-- Bits of PWR_STAT that a start keeps: the input's range; across a warm start also bits 8:1 and FIELD_UP (R100, R135). -/
def keptStat (warm : Bool) : Word := if warm then 0x3DFE#32 else 6#32

/-- The gates of a warm start: the running sets are taken from the islands' first readback words (R146). -/
def warmGates : Sparse Gate :=
  ((List.range 2).map (fun g => (g, { gate0 with adopt := true }))) ++
  ((List.range 4).map (fun a => (a + 2, { gate0 with adoptCh := List.range 4 })))

/-- The hamper after the reset of a start (R133, R135, R146). -/
def hamperStart (warm : Bool) (s : State) : Hamper :=
  if warm then { s.hamper with ltPending := false, gates := warmGates } else Hamper.reset

/-- The core island is reset: code, data and queue memories, registers, the engine, and every island that a start resets.
FeRAM, the store, log SRAM, the fuses and the backup domain keep what they hold; a warm start keeps the field islands, head
power and the power of the bus and display islands (R100, R102, R155, R204, R222, R317, R358, R371). -/
def coreReset (warm : Bool) (s : State) : State :=
  let s1 := (mtrStart warm s)
  { State.reset with
    pending := s.pending, freeCtr := s.freeCtr, feram := s.feram, store := s.store, logm := s.logm, logNext := s.logNext,
    logCompl := s.logCompl, logCount := s.logCount, opUs := s.opUs, pwrCyc := s.pwrCyc, fabTime := s.fabTime,
    ecc := s.ecc.filter (fun e => decide (eccKey mcLog 0 ≤ e.1) && decide (e.1 < eccKey mcMir 0)),
    regs := s.regs.filter (fun e => (keptAddrs warm).contains e.1),
    mtr := s1.mtr, hamper := hamperStart warm s,
    di := if warm then s.di else [], dout := if warm then s.dout else [], ao := if warm then s.ao else [],
    supply := if warm then s.supply else [], stime := if warm then s.stime else [],
    bus := { Bus.reset with powered := warm && s.bus.powered }, lcd := { Lcd.reset with powered := warm && s.lcd.powered, gen := warm && s.lcd.gen },
    rtc := { s.rtc with chg := 0#32, charging := false },
    sec := { Sec.reset with lcn := s.sec.lcn, retired := s.sec.retired },
    boot := { Boot.reset with supplyOk := s.boot.supplyOk, counting := s.boot.counting, strap := s.boot.strap } }.setReg Reg.pwrStat (s.reg Reg.pwrStat &&& keptStat warm)

/-- ROM entry of a start: `cause` is SYS_RSTCAUSE; the charger starts at a power-on or return start (R135). -/
def startAt (cause : Nat) (warm : Bool) (s : State) : State :=
  let s1 := ((coreReset warm s).setReg Reg.sysRstcause (w32 cause)).setRb Reg.pwrStat 0 s.boot.supplyOk
  let s2 := if warm then s1.setRb Reg.mtrStat 1 s.mtr.heads else s1.setRb Reg.pwrStat psCharging true
  s2.setReg Reg.pwrEavail (w32 (energyUj s2.hamper.cLedger (s2.reg Reg.pwrVbank).toNat))

/-- POWER_ON_START (Table 4-1, R104): supply is valid after the input was absent, so that no start has been made, or after
power-fail detection before release, which abandoned one. -/
def powerOnStart (s : State) : State :=
  if s.boot.supplyOk && !s.boot.prog && !s.boot.returnDue && (s.reg Reg.sysRstcause == 0#32 || s.rf Reg.sysStat 3 0 == 9) then
    startAt 1 false s
  else s

/-- POWER_ON_START. -/
def execPowerOnStart (s : State) : Host.Outcome State Fault Refusal := .next (powerOnStart s)

/-- RETURN_START (Table 4-1, R105, R140): supply is valid after a last train, in phase 9. -/
def returnStart (s : State) : State :=
  if s.boot.supplyOk && s.boot.returnDue && !s.boot.prog && s.rf Reg.sysStat 3 0 == 9 then startAt 2 false s else s

/-- RETURN_START. -/
def execReturnStart (s : State) : Host.Outcome State Fault Refusal := .next (returnStart s)

/-- WARM_START (R103): a request stands, and after release its last train is complete. -/
def warmStart (s : State) : State :=
  match s.boot.warmReq with
  | some m => if s.boot.prog || (s.eng.released && !(s.rb Reg.tteStat 3)) then s else startAt (4 + 8 * m) true s
  | none => s

/-- WARM_START. -/
def execWarmStart (s : State) : Host.Outcome State Fault Refusal := .next (warmStart s)

/-- SUPPLY_VALID (R101): the 100 ms have passed; an abandoned check may be made again, a daily one in 60 s (R135, R136). -/
def supplyValid (s : State) : State :=
  if s.boot.counting then
    { s with boot := { s.boot with counting := false, supplyOk := true },
             hamper := { s.hamper with again := false, detected := false, retry := false,
                                       retryIn := if s.hamper.retry then some 60 else s.hamper.retryIn } }.setRb Reg.pwrStat 0 true
  else s

/-- SUPPLY_VALID. -/
def execSupplyValid (s : State) : Host.Outcome State Fault Refusal := .next (supplyValid s)

/-- SYS_STAT.PHASE; the ROM refreshes the SYS mirror at every phase change in phases 0 to 5, and before release (R106). -/
def setPhase (n : Nat) (s : State) : State :=
  let t := s.setRf Reg.sysStat 3 0 n
  if s.eng.released && decide (5 < n) then t else t.refresh [0]

/-- The phase in progress. -/
def phaseOf (s : State) : Nat := s.rf Reg.sysStat 3 0

/-- Is the start in progress a warm start, or a return start? -/
def isWarm (s : State) : Bool := s.rb Reg.sysRstcause 2
def isReturn (s : State) : Bool := s.rb Reg.sysRstcause 1

/-! ## Operating time (R413) -/

def optMagic : Word := 0x4F540001#32
def optAddr (copy : Nat) : Nat := 0x800 + 64 * copy

/-- Is a copy of the operating time intact? -/
def optOk (s : State) (copy : Nat) : Bool :=
  memW s.feram (optAddr copy) == optMagic && memW s.feram (optAddr copy + 60) == crc32 (memBytes s.feram (optAddr copy) 60)

def optSeq (s : State) (copy : Nat) : Nat := memNat s.feram (optAddr copy + 4) 8

/-- The newest intact copy. -/
def optNewest (s : State) : Option Nat :=
  if optOk s 0 && (!(optOk s 1) || decide (optSeq s 1 ≤ optSeq s 0)) then some 0 else if optOk s 1 then some 1 else none

/-- The bytes of a copy. -/
def optRecord (seq ms cyc : Nat) : List Byte :=
  let b := leBytes 4 optMagic.toNat ++ leBytes 8 seq ++ leBytes 8 (ms % 2 ^ 48) ++ leBytes 4 (cyc % 2 ^ 24) ++ List.replicate 36 0#8
  b ++ leBytes 4 (crc32 b).toNat

/-- Write the copy that does not hold the newest intact figures, with SEQ one higher. -/
def optWrite (s : State) : State :=
  let c := match optNewest s with | some 0 => 1 | _ => 0
  let q := match optNewest s with | some n => optSeq s n + 1 | none => 1
  { s with feram := memPut s.feram (optAddr c) (optRecord q s.opMs s.pwrCyc) }

/-- Restore both figures; a power-on or return start counts and writes the other copy. -/
def optRestore (s : State) : State :=
  let s1 := match optNewest s with
    | some n => { s with opUs := memNat s.feram (optAddr n + 12) 8 % 2 ^ 48 * 1000, pwrCyc := memNat s.feram (optAddr n + 20) 4 % 2 ^ 24 }
    | none => { s with opUs := 0, pwrCyc := 0 }
  if isWarm s then s1 else optWrite { s1 with pwrCyc := (s1.pwrCyc + 1) % 2 ^ 24 }

/-! ## The log in phase 0 (R416) -/

/-- Why the log is cleared, none when it is kept; the slot is read through ECC (R52). -/
def logReason (s : State) : Option Nat × State :=
  if !(isReturn s) && !(isWarm s) then (some 0, s)
  else if s.logCompl != ~~~s.logNext then (some 1, s)
  else if s.logCount = 0 then (none, s)
  else
    let r := readLog (32 * ((s.logNext - 1).toNat % 8192)) s
    (if r.1 = s.logNext - 1 then none else some 2, r.2)

/-- Keep the log, or clear it and append record 0xE02. -/
def logDecide (s0 : State) : State :=
  let d := logReason s0
  let s := d.2
  match d.1 with
  | none => (s.setRb Reg.sysRstcause 5 true).setRb Reg.logStat 14 true
  | some r =>
    { s with logm := [], ecc := [], logNext := 0#32, logCompl := 0xFFFFFFFF#32, logCount := 0 }.append 0xE02 0xE 2
      [w32 r, s.reg Reg.sysRstcause]

/-! ## Phase 0 -/

/-- ROM_PHASE (R106, R363, R372, R382, R413, R416, R450, R455): the ROM reads the strap; with it set or RETIRED the ROM stays for
siding mode. -/
def romPhase (strap : Bool) (s0 : State) : State :=
  if phaseOf s0 ≠ 0 || s0.boot.romDone || s0.boot.prog then s0 else
  let s := { s0 with boot := { s0.boot with strap := strap } }
  let bad := (optNewest s).isNone
  let s1 := logDecide (optRestore s)
  let s2 := if bad then s1.append 0xE03 0xE 8 [w32 (if memW s.feram (optAddr 0) == optMagic then 2 else 1)] else s1
  let s3 := if hamperRecOk s2 then s2.setRf Reg.pwrCbank 31 16 (memW s2.feram (hamperRecAddr + 4)).toNat else s2
  let f := s3.free
  let s4 := rtcPhase0 (loadRec (bit f.1 0) f.2)
  let s5 := secShow (if isWarm s then s4 else loadTick s4)
  setPhase (if s5.boot.strap || s5.sec.retired then 0 else 1) { s5 with boot := { s5.boot with romDone := true } }

/-- ROM_PHASE. -/
def execRomPhase (strap : Bool) (s : State) : Host.Outcome State Fault Refusal := .next (romPhase strap s)

/-! ## Phase 1 (R98, R107, R382, R394) -/

/-- Has a slot been refused in this start? -/
def slotRefused (s : State) (slot : Nat) : Bool := if slot = 0 then s.boot.refusedA else s.boot.refusedB

/-- The rank of a slot state (Table 15-9); 3: not tried. -/
def rankOf (st : Nat) : Nat := if st = 2 ∨ st = 3 then 0 else if st = 4 then 1 else if st = 5 then 2 else 3

/-- The slot to try next. -/
def candidate (s : State) : Option Nat :=
  let r (slot : Nat) : Nat := if slotRefused s slot then 3 else if s.sec.noRec then 0 else rankOf (slotState s.sec.srec slot)
  if r 0 = 3 ∧ r 1 = 3 then none
  else if s.sec.noRec then some (if r 0 = 3 then 1 else 0)
  else if r 0 < r 1 then some 0 else if r 1 < r 0 then some 1
  else if s.sec.srec.seqA < s.sec.srec.seqB then some 1 else some 0

/-- A refused slot: SYS_REFUSE, its record, FAILED, and the other slot's turn (R107, R394). -/
def dropSlot (slot code detail : Nat) (s : State) : State :=
  let s1 := slotFail slot 1 (refuseSlot slot code detail s)
  { s1 with boot := if slot = 0 then { s1.boot with refusedA := true } else { s1.boot with refusedB := true } }

/-- The record when no intact one was found (R382): every slot whose image passes is CONFIRMED. -/
def confirmAll (s : State) : State :=
  let ok := [0, 1].filter (fun x => !(slotRefused s x) && (imageRefusal s x).isNone)
  if ok.isEmpty then s else
  putRecord (ok.foldl (fun r x => (r.setSlot x 4).setSlotSeq x (hSeq (slotHeader s x))) s.sec.srec) s

/-- The slot's standing as it starts: a STORED slot enters its trial, a SUPERSEDED one is logged (R394). -/
def slotStarts (slot : Nat) (s : State) : State :=
  let st := slotState s.sec.srec slot
  let d : List Word := [w32 slot, w32 (hSeq (slotHeader s slot))]
  if s.sec.noRec then confirmAll s
  else if st = 2 then
    secRecLog (secEvt ((putRecord { (s.sec.srec.setSlot slot 3) with trialMin := 0 } s).setRb Reg.sysStat 4 true) 0x10) 0xD04 6 slot d
  else if st = 3 then s.setRb Reg.sysStat 4 true
  else if st = 5 then secRecLog (secEvt s 0x400) 0xD0B 10 slot d
  else s

/-- An image that passed is loaded and shown (R102, R129). -/
def takeImage (slot : Nat) (s : State) : State :=
  let s1 := slotStarts slot (loadImage slot s)
  let q := s1.image.seq
  ((s1.setReg Reg.sysImage (w32 (slot + 2 * b2n (slotRefused s1 (1 - slot))))).setReg Reg.sysImageSeqLo (w32 q)).setReg
    Reg.sysImageSeqHi (w32 (q / 2 ^ 32))

/-- Try a slot: a STORED or TRIAL slot counts the try first; MINOR of a header that passed check 0x04 is kept (R406). -/
def trySlot (slot : Nat) (s : State) : State :=
  let st := slotState s.sec.srec slot
  let s1 := if !s.sec.noRec && (st == 2 || st == 3) then putRecord { s.sec.srec with tries := s.sec.srec.tries + 1 } s else s
  let keep (t : State) : State := { t with sec := { t.sec with lastMinor := some (hMinor (slotHeader t slot)) } }
  match imageRefusal s1 slot with
  | none => setPhase 2 (takeImage slot (keep s1))
  | some (c, d) => dropSlot slot c d (if 4 < c then keep s1 else s1)

/-- Try slots in their order until one passes or none is left. -/
def tryAll : Nat → State → State
  | 0, s => s
  | n + 1, s =>
    match candidate s with
    | none => s
    | some slot =>
      let st := slotState s.sec.srec slot
      if !s.sec.noRec && (st == 2 || st == 3) && decide (3 ≤ s.sec.srec.tries) then tryAll n (slotFail slot 2 s)
      else
        let t := trySlot slot s
        if phaseOf t = 2 then t else tryAll n t

/-- IMAGE_CHECKS. -/
def imageChecks (s : State) : State := if phaseOf s = 1 then secShow (tryAll 2 s) else s

/-- IMAGE_CHECKS. -/
def execImageChecks (s : State) : Host.Outcome State Fault Refusal := .next (imageChecks s)

/-! ## Phases 2 and 3 (R114 to R123, R148) -/

/-- Is a register one that the configuration sets: SH or RW, but for the arm flags that the image loads. -/
def isConfig (a : Nat) : Bool :=
  (accOf a == some .sh || accOf a == some .rw) && !((List.range 8).any (fun i => a == Reg.tteArm i))

/-- Every configuration register and shadow at its reset value (R102, R118). -/
def resetConfig (s : State) : State :=
  { s with regs := s.regs.filter (fun e => !(isConfig e.1)), shadows := [] }

/-- H of the departure stagger (R148). -/
def staggerHash (s : State) : Nat := leNat (shake256 (leBytes 2 (ownAddr s)) 4)

/-- W, minor cycles of the window. -/
def staggerWindow (s : State) : Nat := s.rf Reg.pwrStagger 12 0 * 1000 / (s.minorNs / 1000)

/-- The departure stagger: none at a warm start. -/
def staggerOf (s : State) : Nat :=
  if isWarm s || staggerWindow s = 0 then 0 else staggerHash s % staggerWindow s

def showStagger (s : State) : State :=
  let n := staggerOf s
  let s1 := (s.setReg Reg.pwrStaggerHash (w32 (staggerHash s))).setReg Reg.pwrStaggerMc (w32 n)
  { s1 with boot := { s1.boot with staggerLeft := n } }

/-- The generation in use (SYS_CFG, SYS_CFG_SEQ) and the hash of its header (R392). -/
def showGen (g : Nat) (s : State) : State :=
  let h := genHeaderAt s (genBase g)
  let s1 := s.setReg Reg.sysCfg (w32 (g + min (gRecords h) 0xFFFF * 2 ^ 16))
  let s2 := (s1.setReg Reg.sysCfgSeqLo (w32 (gSeq h))).setReg Reg.sysCfgSeqHi (w32 (gSeq h / 2 ^ 32))
  { s2 with sec := { s2.sec with genHash := shake256 h 64 } }

/-- A slot refused for its configuration: the image is dropped, and phase 1 goes on with the other slot (R107). SYS_IMAGE and
SYS_IMAGE_SEQ keep the refused slot's values until another image is taken, in siding mode too: the spec gives none for no image
running (assumption 105). -/
def cfgRefuse (code detail : Nat) (s : State) : State :=
  let slot := s.image.slot
  let s1 := dropSlot slot code detail s
  setPhase 1 ({ s1 with image := { Image.reset with minor := s1.image.minor } }.setRb Reg.sysStat 4 false)

/-- Phase 4 begins (R109, R290). -/
def enterDiscovery (s : State) : State := setPhase 4 (linksStart (timeShow s))

/-- A free value of the milliseconds that a register of start times shows (assumption 37). -/
def freeTime (a hi lo : Nat) (s : State) : State := let f := s.free; f.2.setRf a hi lo (fld f.1 15 0)

/-- After every check has passed: points, loops, metering restore, backup bytes, HOLDUP from the new image, the stagger. -/
def cfgEnd (g : Nat) (migrates : Bool) (s : State) : State :=
  let s1 := rtcReadBytes (mtrRestore (ctlStart (startPoints s)))
  let s2 := if isWarm s1 || (s1.hamper.startDone && decide (s1.hamper.cLedger ≠ 0)) then holdupEval s1 else s1
  let s3 := showStagger (showGen g (s2.setRf Reg.sysAddr 15 0 (ownAddr s2)))
  let s4 := freeTime Reg.sysStartA 15 0 s3
  if migrates then setPhase 3 { s4 with boot := { s4.boot with migrate := some g } } else enterDiscovery s4

/-- The generation is chosen, checked and applied (R114 to R120, R123). A range fault that only a pairing after application
shows (0x37) is reported after 0x3B: R123 lists 0x37 before 0x3B, but no pairing can be checked before the records are applied
(assumption 89). -/
def applyGen (s : State) : State :=
  match selectGen s s.image.seq with
  | .inr (c, d) => cfgRefuse c d s
  | .inl (g, source) =>
    let l := s.image.schema
    match schemaCheck l with
    | some i => cfgRefuse 0x39 i s
    | none =>
      match generationRefusal s (genBase g) l with
      | some (c, d) => cfgRefuse c d s
      | none =>
        let rs := genRecords s (genBase g)
        let s1 := applyRecords (schedShow (loadData0 s.image.slot (resetConfig s))) l rs
        match pairRefusal s1 l rs with
        | some (c, d) => cfgRefuse c d s1
        | none => cfgEnd g (source || rs.any (needsMigration l)) s1

/-- CONFIG_APPLICATION (phase 2): a copy of a privileged change that was cut off is completed first (R403). -/
def configApplication (s : State) : State :=
  if phaseOf s = 2 && s.image.loaded then applyGen (completeBuild s) else s

/-- CONFIG_APPLICATION. -/
def execConfigApplication (s : State) : Host.Outcome State Fault Refusal := .next (configApplication s)

/-- Write the migrated generation into the other area (R121). The spec gives no outcome for a migrated body longer than the
4,190,208 bytes of its area (Table 4-5): the model writes all of it, past the end of the area (assumption 90). -/
def migrated (src : Nat) (s : State) : State :=
  let l := s.image.schema
  let h := genHeaderAt s (genBase src)
  let rs := genRecords s (genBase src)
  let dst := 1 - src
  let n := signedGen (gSeq h + 1) s.image.seq (rs.map (usedRecord l)) s
  let s1 := { n.2 with store := memPut (memZero n.2.store (genBase dst) 0x400000) (genBase dst) n.1 }
  let s2 := (showGen dst s1).setRb Reg.sysStat 5 true
  s2.append 0x003 0 6 [w32 (gSeq h + 1), w32 (rs.filter (needsMigration l)).length, w32 dst]

/-- MIGRATE (phase 3): `ok` says that the write was read back right; otherwise the slot is refused with 0x3A. The spec does not say
what a failed write leaves in the destination area: the model leaves the old generation there as it was (assumption 90). -/
def migrate (ok : Bool) (s : State) : State :=
  match s.boot.migrate with
  | some src =>
    if phaseOf s ≠ 3 then s else
    let s1 := { s with boot := { s.boot with migrate := none } }
    if ok then enterDiscovery (migrated src s1) else cfgRefuse 0x3A (1 - src) s1
  | none => s

/-- MIGRATE. -/
def execMigrate (ok : Bool) (s : State) : Host.Outcome State Fault Refusal := .next (migrate ok s)

/-! ## Phases 4 to 7 (R108 to R110) -/

/-- DISCOVERY_END. -/
def execDiscoveryEnd (s : State) : Host.Outcome State Fault Refusal :=
  .next (if phaseOf s = 4 then { s with boot := { s.boot with discDone := true } } else s)

/-- Every DO and analogue island that the image drives has received its first valid output word (R110). -/
def drivenReady (s : State) : Bool :=
  (List.range 6).all (fun g =>
    !(s.image.crossings.any (fun e => e.dir == 1 && e.port == groupPort g)) ||
    (if g < 2 then (s.doI g).gotOut else (s.aoI (g - 2)).gotAcmd))

/-- Phase 7 is entered (R110): SYS_STAT.OUT_PERMIT, T_OUT and record 0x001. -/
def permitOut (s : State) : State :=
  let s1 := freeTime Reg.sysStartB 15 0 ((setPhase 7 s).setRb Reg.sysStat 6 true)
  s1.append 0x001 0 2 [s1.reg Reg.sysStartA, s1.reg Reg.sysStartB, s1.reg Reg.sysRstcause]

/-- The first minor-cycle boundary after a time. -/
def nextBoundary (s : State) (ns : Nat) : Nat := (ns / s.minorNs + 1) * s.minorNs

/-- The engine's state as its first minor cycle begins (R54, R73, R109). The fabric-time counter has run on since the
last tick for a time that no command shows, a free value of less than one tick (assumption 98); m comes from it where it is
locked, otherwise from the tick count. -/
def releaseEngine (s0 : State) : State :=
  let f := s0.free
  let s := f.2
  let t := nextBoundary s (s.fabTime + f.1.toNat % 61036)
  let m := (if s.rb Reg.fabTimeStat 0 then t else nextBoundary s (tickNs s.rtc.count)) % 1000000000 / s.minorNs
  let s1 := { s with fabTime := t, eng := { s.eng with released := true, firstMinor := true } }
  let s2 := ((s1.setReg Reg.tteCycle (w32 m)).setRb Reg.tteStat 0 true).setRb Reg.tteStat 3 false
  let s3 := if m = 0 then s2.addReg Reg.tteMajor 1 else s2
  if s3.rb Reg.fabTimeStat 0 then s3 else if isRoot s3 then timeBit 1 true s3 else holdover s3

/-- What starts with the release: heads and MCLK, the pair, the clock path, the bus and display islands (R155, R317, R339, R358). -/
def releaseHooks (s : State) : State :=
  let s1 := rtcCommitted (parRelease (mtrRelease s))
  { s1 with bus := { s1.bus with powered := true }, lcd := { s1.lcd with powered := true, gen := true } }

/-- Every group's bucket full and nothing in flight (R146). -/
def bucketsFull (s : State) : State := (List.range 6).foldl (fun t g => setLedger t g (bucketMax t g) 0) s

/-- ENGINE_RELEASE (R108, R109): a warm start goes on to phase 7, or stays in phase 4 while islands or output words are missing
(assumption 67). -/
def engineRelease (s : State) : State :=
  if phaseOf s = 4 && !s.eng.released && s.boot.discDone && s.image.loaded && !s.boot.prog && s.boot.supplyOk && (isWarm s || s.hamper.startDone) then
    let s1 := freeTime Reg.sysStartA 31 16 (gateEdge s (releaseHooks (releaseEngine s)))
    if isWarm s then
      let s2 := bucketsFull s1
      if s2.rf Reg.pwrStat 13 10 = 10 && drivenReady s2 then permitOut s2 else s2
    else
      setPhase 5 ((s1.setRb Reg.pwrStat 9 true).setRf Reg.sysStartB 31 16 (s1.boot.staggerLeft * s1.minorNs / 1000000))
  else s

/-- ENGINE_RELEASE. -/
def execEngineRelease (s : State) : Host.Outcome State Fault Refusal := .next (engineRelease s)

/-- STAGGER_END (R110, R148): record 0x20A. -/
def staggerEnd (s : State) : State :=
  if phaseOf s = 5 && s.boot.staggerLeft = 0 && !s.hamper.ltPending then
    let s1 := setPhase 6 (s.setRb Reg.pwrStat 9 false)
    pwrRec { s1 with boot := { s1.boot with staggerDone := true } } 0x20A 2 [s1.reg Reg.pwrStaggerMc, w32 (s1.rf Reg.pwrStagger 12 0)]
  else s

/-- STAGGER_END. -/
def execStaggerEnd (s : State) : Host.Outcome State Fault Refusal := .next (staggerEnd s)

/-- Field islands are being powered: phase 6, or a warm start that found islands without power (assumption 67). -/
def fieldPhase (s : State) : Bool := phaseOf s == 6 || (isWarm s && s.eng.released && phaseOf s == 4)

/-- FIELD_ISLAND_POWER_UP (R110, R146, R149): the next island, and its group at the gate. -/
def fieldPower (s : State) : State :=
  let n := s.rf Reg.pwrStat 13 10
  if fieldPhase s && n < 10 && !s.hamper.ltPending then
    let s1 := (powerIsland (11 + n) s).setRf Reg.pwrStat 13 10 (n + 1)
    if 4 ≤ n then groupClear s1 (n - 4) else s1
  else s

/-- FIELD_ISLAND_POWER_UP. -/
def execFieldIslandPowerUp (s : State) : Host.Outcome State Fault Refusal := .next (fieldPower s)

/-- OUT_PERMIT (R110). -/
def outPermit (s : State) : State :=
  if fieldPhase s && s.rf Reg.pwrStat 13 10 = 10 && drivenReady s && !s.hamper.ltPending then permitOut s else s

/-- OUT_PERMIT. -/
def execOutPermit (s : State) : Host.Outcome State Fault Refusal := .next (outPermit s)

/-- START_ABANDON (R104): detection before release; record 0x006, and supply valid is awaited for a power-on start. -/
def startAbandon (s : State) : State :=
  if s.eng.released || s.boot.prog || s.boot.supplyOk || phaseOf s = 9 then s else
  let s1 := s.append 0x006 0 10 [w32 (phaseOf s)]
  setPhase 9 { s1 with boot := { s1.boot with
    returnDue := false, warmReq := none, siding := false, counting := decide (19000 ≤ (s1.reg Reg.pwrVin).toNat) } }

/-- START_ABANDON. -/
def execStartAbandon (s : State) : Host.Outcome State Fault Refusal := .next (startAbandon s)

/-- ROM_MIRROR_REFRESH (R106): in phases 0 to 5; the boundary window serves the SYS mirror from release on as well (R88). -/
def romMirrorRefresh (s : State) : State := if phaseOf s ≤ 5 then s.refresh [0] else s

/-- ROM_MIRROR_REFRESH. -/
def execRomMirrorRefresh (s : State) : Host.Outcome State Fault Refusal := .next (romMirrorRefresh s)

/-! ## Attention (R419 to R421) -/

/-- Is some register of a list not 0 in the mirror? -/
def anyShown (s : State) (l : List Nat) : Bool := l.any (fun a => (s.cell a).shown != 0#32)

/-- The attention condition of a block, on its mirror image. -/
def attnOf (s : State) (b : Nat) : Bool :=
  match b with
  | 0 => anyShown s [Reg.sysCommitFail]
  | 1 => fld ((s.cell Reg.tteStat).shown) 7 6 ≠ 0 || anyShown s [Reg.tteFpStat, Reg.tteXsum]
  | 2 => anyShown s [Reg.pwrEvt]
  | 3 => anyShown s [Reg.mtrEvt]
  | 4 => anyShown s [Reg.dioEvt]
  | 5 => anyShown s [Reg.aioEvt]
  | 6 => anyShown s [Reg.ctlEvt]
  | 7 => anyShown s [Reg.fabEvt]
  | 8 => anyShown s ((List.range 12).map (fun c => Reg.canChEvt c))
  | 9 => anyShown s ((List.range 12).map (fun p => Reg.macPEvt p))
  | 10 => anyShown s [Reg.parEvt]
  | 11 => anyShown s [Reg.lcdEvt]
  | 12 => anyShown s [Reg.rtcEvt]
  | 13 => anyShown s [Reg.secEvt]
  | 14 => anyShown s [Reg.logEvt]
  | 15 => anyShown s [Reg.queEvt]
  | _ => false

/-- SYS_ATTN over the blocks in a list, and HATTN_N. -/
def attention (blocks : List Nat) (s : State) : State :=
  let a := w32 (maskOf (blocks.filter (attnOf s)))
  { s.setReg Reg.sysAttn a with hattn := (a &&& s.reg Reg.sysAttnEn &&& 0xFFFF#32) != 0#32 }

/-! ## Siding mode (R405, R406) -/

/-- Why siding mode is entered, if it is. -/
def sidingCause (s : State) : Option Nat :=
  if s.boot.strap then some 1 else if s.sec.retired then some 2
  else if phaseOf s = 1 && (candidate s).isNone then some 0 else none

/-- The records that the ROM applies for discovery: 0xF002 and 0x0700 of the newest valid generation. -/
def sidingRecords (s : State) : List CRec :=
  match newestGen s (validGens s) with
  | some g => (genRecords s (genBase g)).filter (fun r => r.type == 0xF002 || r.type == 0x0700)
  | none => []

/-- Does the header of a slot pass every check up to 0x04 (Table 3-15)? -/
def headerPasses (s : State) (slot : Nat) : Bool :=
  match imageRefusal s slot with | none => true | some (c, _) => decide (4 < c)

/-- MINOR of the last header that passes check 0x04, where phase 1 has checked none: slot B's, else slot A's, else code 1 (R406,
assumption 104). -/
def storedMinor (s : State) : Nat := if headerPasses s 1 then hMinor (slotHeader s 1) else if headerPasses s 0 then hMinor (slotHeader s 0) else 1

/-- The state of siding mode but for its records of entry: no field island is powered; without an intact record the slots are judged
as R382 says. -/
def sidingState (s : State) : State :=
  let s0 := if s.sec.noRec && !s.sec.retired then confirmAll s else s
  let minor := match s0.sec.lastMinor with | some m => m | none => storedMinor s0
  let s1 := (resetConfig { s0 with boot := { s0.boot with siding := true },
                                   image := { Image.reset with minor := minor } }).setRf Reg.pwrStat 13 10 0
  let s2 := applyRecords ((unpowerIslands s1).setRf Reg.tteStat 5 4 s1.image.minor) [] (sidingRecords s1)
  secShow (linksStart (timeShow s2))

/-- SIDING_MODE_ENTRY: from phases 0 to 3 of a start whose phase 0 is complete. -/
def sidingEntry (s : State) : State :=
  if s.eng.released || !s.boot.romDone || s.boot.prog || decide (3 < phaseOf s) then s else
  match sidingCause s with
  | none => s
  | some c =>
    let s1 := if c = 0 then s.append 0x007 0 12 [w32 (s.rf Reg.sysRefuse 7 0), w32 (s.rf Reg.sysRefuse 31 16)] else s
    setPhase 10 (secRecLog (sidingState s1) 0xD0A 14 c [w32 c])

/-- SIDING_MODE_ENTRY. -/
def execSidingModeEntry (s : State) : Host.Outcome State Fault Refusal := .next (sidingEntry s)

/-- SIDING_STRAP_POLL (R406): the strap is checked; once an image is stored and it is clear, the start sequence restarts at ROM
entry. -/
def sidingPoll (strap : Bool) (s : State) : State :=
  if !s.boot.siding then s else
  let t := secShow { s with boot := { s.boot with strap := strap } }
  if t.sec.sidingStored && !strap then startAt 4 true t else t

/-- SIDING_STRAP_POLL. -/
def execSidingStrapPoll (strap : Bool) (s : State) : Host.Outcome State Fault Refusal := .next (sidingPoll strap s)

/-- SIDING_REFRESH (R405, R421): requests are served, attention is evaluated, and the SYS and SEC mirrors are refreshed. -/
def sidingRefresh (s : State) : State :=
  if s.boot.siding then (attention [0, 13] (secServe s)).refresh [0, 13] else s

/-- SIDING_REFRESH. -/
def execSidingRefresh (s : State) : Host.Outcome State Fault Refusal := .next (sidingRefresh s)

/-! ## The service header (R450) -/

/-- PROG_HOLD: the core island is held in reset. -/
def progHold (s : State) : State :=
  let t := coreReset true s
  { t with boot := { t.boot with prog := true } }

/-- PROG_HOLD. -/
def execProgHold (s : State) : Host.Outcome State Fault Refusal := .next (progHold s)

/-- PROG_RELEASE: a power-on start, at once where supply is valid, otherwise when it becomes so (R100). -/
def progRelease (s : State) : State :=
  if s.boot.prog then powerOnStart { s with boot := { s.boot with prog := false } } else s

/-- PROG_RELEASE. -/
def execProgRelease (s : State) : Host.Outcome State Fault Refusal := .next (progRelease s)

end Sys2Proof.Machine
end

