-- ==== Sys2Proof/Machine/Boundary.lean ====
section
/-! DEFINITION. The boundary of a minor cycle, power-fail detection and the last train (R54 to R56, R61, R74, R88, R103, R124,
R125, R131, R132, R139, R140, R143, R420). -/

namespace Sys2Proof.Machine

/-! ## Figures of the minor cycle that ends (R56, Tables 2-16 to 2-18) -/

/-- Idle cycles of the minor cycle in progress: the path area outside every span. -/
def idleNow (s : State) : Nat := s.cyc - 320 - s.eng.execCyc - s.eng.spareCyc

/-- TTE_IDLE, TTE_SPARE, and the least idle with its m. -/
def showIdle (s : State) : State :=
  let i := idleNow s
  let s1 := (s.setReg Reg.tteIdle (w32 i)).setReg Reg.tteSpare (w32 s.eng.spareCyc)
  if i < s.rf Reg.tteIdleMin 16 0 then (s1.setRf Reg.tteIdleMin 16 0 i).setReg Reg.tteIdleMinat (w32 s.m) else s1

/-- The idle report of a minor cycle: idle in bits 16:0, bits 14:0 of m above. -/
def idleWord (idle m : Nat) : Word := w32 (idle % 2 ^ 17 + (m % 2 ^ 15) * 2 ^ 17)

/-- At core cycle 255 the report goes to queue IDLEQ. -/
def idleReport (w : Word) (s : State) : State :=
  if s.rb Reg.tteCtrl 1 then qPush s epEngine (s.rf Reg.tteCtrl 13 8) w else s

/-! ## Core cycle 0 -/

/-- A new major cycle: records may be written again once (no major cycle begins before release, in siding mode or after the engine
halts, so that a record is written once in all that time: assumption 109), the age of the last check, and a copy of the operating time
(R54, R70, R413). -/
def newMajor (s : State) : State := optWrite (checkAgeSecond { (s.addReg Reg.tteMajor 1) with logged := [] })

/-- m and the major count advance, and fabric and operating time with them (R54). -/
def advanceM (s : State) : State :=
  let m := (s.m + 1) % s.nMinor
  let s1 := { s with fabTime := s.fabTime + s.minorNs, opUs := s.opUs + s.minorNs / 1000, eng := { s.eng with absM := s.eng.absM + 1 } }
  let s2 := s1.setReg Reg.tteCycle (w32 m)
  if m = 0 then newMajor s2 else s2

/-- The minor cycle before ends: its results land, its figures show, m advances. The first minor cycle has none before it. -/
def endMinor (s : State) : State :=
  if s.eng.firstMinor then { s with eng := { s.eng with firstMinor := false } } else advanceM (showIdle s.landEnd)

/-- Latch fabric time and begin counting the cycles of the new minor cycle. -/
def beginMinor (s : State) : State :=
  { s with eng := { s.eng with fabLatch := s.fabTime, slotBase := s.fabTime, execCyc := 0, spareCyc := 0 } }

/-- The path-table reader reads every enabled entry once in each minor cycle (R61): the entries with an error mark that no
path start of this minor cycle reads. -/
def tableScan (s : State) : State :=
  let ps := ((skeys s.ecc).filter (fun k => decide (eccKey mcPtab (ptabAddr false 0) ≤ k) &&
    decide (k < eccKey mcPtab (ptabAddr false 4096)))).map (fun k => (k - eccKey mcPtab (ptabAddr false 0)) / 16)
  ps.foldl (fun t p =>
    let e := ptabEntry t.code false p
    if e.enable && (e.lastTrain || decide (t.m % 2 ^ e.kexp ≠ e.phase)) then (readPath t p).2 else t) s

/-- A new owner secret takes effect at a minor cycle, the one before kept for its grace (R387). -/
def keyTakes (s : State) : State :=
  match s.sec.kDue with
  | some k => { s with sec := { s.sec with kPrev := s.sec.kOwner, kOwner := some k, kDue := none } }
  | none => s

/-! ## Core cycles 1 to 199 -/

/-- What the blocks' paths and hardware do once a commit has applied their shadows. -/
def applied (before : State) (t : State) (b : Nat) : State :=
  match b with
  | 2 => clipBuckets t
  | 3 => mtrCommitted before t
  | 6 => ctlCommitted before t
  | 7 => fabCommitted before t
  | 11 => lcdCommitted t
  | 12 => rtcCommitted t
  | _ => t

/-- The commit of the window and what follows from it (R125, R143, R146). -/
def commitAll (s : State) : State :=
  let t := commitWindow s
  gateEdge s ((appliedBlocks s t).foldl (applied s) t)

/-! ## The whole boundary -/

/-- What the image's paths that have no command of their own do in the minor cycle that begins. -/
def imagePaths (wrapped : Bool) (s : State) : State :=
  lcdMinor (meterRun (parcelPump (soutDrain (jobRun (secServe (fabBoundary wrapped (serviceTurns s)))))))

/-- A boundary at which no last train begins (R88): the window's work ends with the idle report of cycle 255, before what the
paths do from cycle 256 on. At the first one after release there is no minor cycle before to report, so
no idle report is pushed: Table 2-12 does not say what the first one would hold (assumption 88). -/
def boundary (s : State) : State :=
  let first := s.eng.firstMinor
  let report := idleWord (idleNow s.landEnd) s.m
  let s1 := beginMinor (endMinor s)
  let wrapped := !first && decide (s1.m = 0)
  let s2 := if first then s1 else parTime (s1.minorNs / 1000) s1
  let s3 := commitAll (keyTakes (ledgerRefill (tableScan s2)))
  let s4 := if first then s3 else { s3 with boot := { s3.boot with staggerLeft := s3.boot.staggerLeft - 1 } }
  let s5 := (attention (List.range 16) s4).refresh [0, 1]
  imagePaths wrapped (if first then s5 else idleReport report s5)

/-- A minor cycle of the islands alone: no boundary window runs, so what the engine reads of fabric time stands (R74, Table 2-7);
slot timing, operating time and the lease timer go on (R290, R325, R413). -/
def islandBoundary (s : State) : State :=
  let t := s.fabTime + s.minorNs
  parTime (s.minorNs / 1000) { s with fabTime := t, opUs := s.opUs + s.minorNs / 1000, eng := { s.eng with slotBase := t } }

/-- The switch to the last train of a warm start (R103, R174): only the CORE paths run. -/
def warmSwitch (s : State) : State :=
  let s1 := mtrWarmSwitch s.landEnd
  let s2 := ((s1.setRb Reg.tteStat 0 false).setRb Reg.tteStat 1 true).setRb Reg.tteStat 2 true
  { s2 with boot := { s2.boot with warmTrain := true }, eng := { s2.eng with ltNext := 0 } }.setRf Reg.sysStat 3 0 8

/-- MINOR_CYCLE_BOUNDARY: after the switch to a last train the engine has none, and the islands keep their slot timing (R290):
fabric and operating time run on. -/
def minorBoundary (s : State) : State :=
  if s.eng.released && s.rb Reg.tteStat 0 && !s.hamper.ltPending && !s.boot.prog then
    (if s.boot.warmReq.isSome then warmSwitch s else boundary s)
  else if s.eng.released && !s.boot.prog && !(s.rb Reg.tteStat 0) then islandBoundary s
  else s

/-- MINOR_CYCLE_BOUNDARY. -/
def execMinorCycleBoundary (s : State) : Host.Outcome State Fault Refusal := .next (minorBoundary s)

/-! ## Power-fail detection (R132, R139) -/

/-- Is the last train restricted to its CORE paths (R139)? -/
def coreOnly (s : State) : Bool :=
  s.rb Reg.pwrStat psLow || decide ((s.reg Reg.pwrEavail).toNat < times125 s.image.ltFullUj)

/-- The loads of R132 lose power; supply is no longer valid; the charger and the trickle charger stop. -/
def loadsOff (vin : Word) (s : State) : State :=
  let s1 := lcdPowerOff (busPowerOff (mtrPowerFail (unpowerIslands (s.setReg Reg.pwrVin vin))))
  let s2 := s1.setReg Reg.pwrStat (s1.reg Reg.pwrStat &&& 0x1BC#32)
  { s2 with
    hamper := { s2.hamper with filter := false, detected := true },
    rtc := { s2.rtc with chg := 0#32, charging := false },
    boot := { s2.boot with supplyOk := false, counting := false, warmTrain := false,
                           warmReq := if s2.eng.released then none else s2.boot.warmReq } }

/-- After a last train the module waits for supply valid in phase 9, and counts it from now on (R74, R105, R140). -/
def awaitSupply (s : State) : State :=
  { s with boot := { s.boot with returnDue := true, warmReq := none, counting := decide (19000 ≤ (s.reg Reg.pwrVin).toNat) } }.setRf
    Reg.sysStat 3 0 9

/-- POWER_FAIL_DETECTION: the filter has run for t_PFD. After release the switch to the last train is pending; before release,
and while PROG_N is low, no last train runs (R104, R450); between the last train of a warm start and ROM entry a last train has
run, so that a return start follows (R100, assumption 69). -/
def powerFail (vin : BitVec 16) (s : State) : State :=
  if !s.hamper.filter then s else
  let warmEnd := s.boot.warmTrain && s.rb Reg.tteStat 3
  let c := coreOnly s
  let s1 := loadsOff (vin.zeroExtend 32) s
  let d : List Word := [vin.zeroExtend 32, s.reg Reg.pwrEavail, w32 (b2n c)]
  if warmEnd then awaitSupply s1
  else if s.boot.prog || (s.eng.released && s.rb Reg.tteStat 3) then s1
  else if !s.eng.released || s.rb Reg.tteStat 1 then pwrRec s1 0x201 12 d
  else pwrRec ({ s1 with hamper := { s1.hamper with ltPending := true } }.setRb Reg.tteStat 2 c) 0x201 12 d

/-- POWER_FAIL_DETECTION. -/
def execPowerFailDetection (vin : BitVec 16) (s : State) : Host.Outcome State Fault Refusal := .next (powerFail vin s)

/-! ## The last train (R74) -/

/-- LAST_TRAIN_SWITCH: the path or boundary window in progress is complete. -/
def lastTrainSwitch (s : State) : State :=
  if s.hamper.ltPending then
    let s1 := (s.landEnd.setRb Reg.tteStat 0 false).setRb Reg.tteStat 1 true
    { s1 with hamper := { s1.hamper with ltPending := false }, eng := { s1.eng with ltNext := 0 } }.setRf Reg.sysStat 3 0 8
  else s

/-- LAST_TRAIN_SWITCH. -/
def execLastTrainSwitch (s : State) : Host.Outcome State Fault Refusal := .next (lastTrainSwitch s)

/-- May this entry's path start in the last train in progress: once, in OFFSET order, CORE paths alone when it is restricted. -/
def ltStarts (s : State) (e : PEntry) : Bool :=
  e.enable && e.lastTrain && (e.core || !(s.rb Reg.tteStat 2)) && decide (s.eng.ltNext ≤ e.offset)

/-- LAST_TRAIN_PATH_START: at OFFSET core cycles after the switch; ELAPSED reads 0. A path without a usable entry, or silenced,
misses its commit points (R90). -/
def lastTrainPath (p : Nat) (s : State) : State :=
  if !(s.rb Reg.tteStat 1) || s.rb Reg.tteStat 3 then s else
  match readPath s p with
  | (none, s1) => s1.commitMissed p (planBlocks s1 p)
  | (some e, s1) =>
    if !(ltStarts s e) then s
    else if bit (s1.pfOf p) 1 then
      { s1 with eng := { s1.eng with ltNext := e.offset + e.length } }.commitMissed p (planBlocks s1 p)
    else { s1 with eng := { s1.eng with elapsed := 0#32, ltNext := e.offset + e.length } }.beginRun p e.offset e

/-- LAST_TRAIN_PATH_START. -/
def execLastTrainPathStart (path : Fin 4096) (s : State) : Host.Outcome State Fault Refusal := .next (lastTrainPath path.val s)

/-- The last-train paths that a restricted last train leaves out (R74) miss their declared commit points (R90). -/
def leftOutMissed (s : State) : State :=
  if s.rb Reg.tteStat 2 then
    ((s.image.mirror.map (fun e => e.path)).dedup.filter (fun p =>
      let e := ptabEntry s.code false p
      e.enable && e.lastTrain && !e.core)).foldl (fun t p => t.commitMissed p (planBlocks t p)) s
  else s

/-- LAST_TRAIN_END: the engine halts; after a warm start's last train ROM entry follows, otherwise the module waits for supply
valid, and counts it from now on (R74, R105, R140). -/
def lastTrainEnd (s : State) : State :=
  if s.rb Reg.tteStat 1 && !(s.rb Reg.tteStat 3) then
    let s1 := (leftOutMissed s.landEnd).setRb Reg.tteStat 3 true
    if s1.boot.warmTrain then s1
    else awaitSupply s1
  else s

/-- LAST_TRAIN_END. -/
def execLastTrainEnd (s : State) : Host.Outcome State Fault Refusal := .next (lastTrainEnd s)

/-- BANK_EXHAUSTED (R140, R416): in phase 9 the core loses power, and the log's control block no longer checks. -/
def bankExhausted (s : State) : State :=
  if phaseOf s = 9 then { s.setReg Reg.sysRstcause 0#32 with logCompl := s.logNext, hattn := false } else s

/-- BANK_EXHAUSTED. -/
def execBankExhausted (s : State) : Host.Outcome State Fault Refusal := .next (bankExhausted s)

end Sys2Proof.Machine
end

