-- ==== Sys2Proof/Machine/EngineFp.lean ====
section
/-! DEFINITION. The meanings of the binary32 operations of track 2 (Table 2-4, R45, R46, R47). -/

namespace Sys2Proof.Machine

/-- FADD: D ← A + B. -/
def execFadd (i : Issue) (d a b : Fin 64) (s : State) : Host.Outcome State Fault Refusal :=
  guarded (.fadd i d a b) (issueF i 4 d.val (fun t => fAdd (t.rw a.val) (t.rw b.val))) s

/-- FSUB: D ← A − B. -/
def execFsub (i : Issue) (d a b : Fin 64) (s : State) : Host.Outcome State Fault Refusal :=
  guarded (.fsub i d a b) (issueF i 4 d.val (fun t => fSub (t.rw a.val) (t.rw b.val))) s

/-- FMUL: D ← A × B. -/
def execFmul (i : Issue) (d a b : Fin 64) (s : State) : Host.Outcome State Fault Refusal :=
  guarded (.fmul i d a b) (issueF i 4 d.val (fun t => fMul (t.rw a.val) (t.rw b.val))) s

/-- FMA: D ← D + A × B with one rounding. -/
def execFma (i : Issue) (d a b : Fin 64) (s : State) : Host.Outcome State Fault Refusal :=
  guarded (.fma i d a b) (issueF i 5 d.val (fun t => fMulAdd Config.fmaNanInvalid false (t.rw d.val) (t.rw a.val) (t.rw b.val))) s

/-- FMS: D ← D − A × B with one rounding. -/
def execFms (i : Issue) (d a b : Fin 64) (s : State) : Host.Outcome State Fault Refusal :=
  guarded (.fms i d a b) (issueF i 5 d.val (fun t => fMulAdd Config.fmaNanInvalid true (t.rw d.val) (t.rw a.val) (t.rw b.val))) s

/-- FMIN: minimumNumber. -/
def execFmin (i : Issue) (d a b : Fin 64) (s : State) : Host.Outcome State Fault Refusal :=
  guarded (.fmin i d a b) (issueF i 2 d.val (fun t => fMin (t.rw a.val) (t.rw b.val))) s

/-- FMAX: maximumNumber. -/
def execFmax (i : Issue) (d a b : Fin 64) (s : State) : Host.Outcome State Fault Refusal :=
  guarded (.fmax i d a b) (issueF i 2 d.val (fun t => fMax (t.rw a.val) (t.rw b.val))) s

/-- FDIV: D ← A / B on the shared divide unit. -/
def execFdiv (i : Issue) (d a b : Fin 64) (s : State) : Host.Outcome State Fault Refusal :=
  guarded (.fdiv i d a b) (issueF i 16 d.val (fun t => fDiv (t.rw a.val) (t.rw b.val))) s

/-- FABS: D ← A with its sign cleared. -/
def execFabs (i : Issue) (d a : Fin 64) (s : State) : Host.Outcome State Fault Refusal :=
  guarded (.fabs i d a) (issueF i 1 d.val (fun t => fAbs (t.rw a.val))) s

/-- FNEG: D ← A with its sign inverted. -/
def execFneg (i : Issue) (d a : Fin 64) (s : State) : Host.Outcome State Fault Refusal :=
  guarded (.fneg i d a) (issueF i 1 d.val (fun t => fNeg (t.rw a.val))) s

/-- FCVTI: D ← binary32 of the signed integer A. -/
def execFcvti (i : Issue) (d a : Fin 64) (s : State) : Host.Outcome State Fault Refusal :=
  guarded (.fcvti i d a) (issueF i 3 d.val (fun t => fCvtI (t.rw a.val))) s

/-- FCVTF: D ← signed integer of A. -/
def execFcvtf (i : Issue) (d a : Fin 64) (s : State) : Host.Outcome State Fault Refusal :=
  guarded (.fcvtf i d a) (issueF i 3 d.val (fun t => fCvtF (t.rw a.val))) s

/-- FSQRT: D ← square root of A on the shared divide unit. -/
def execFsqrt (i : Issue) (d a : Fin 64) (s : State) : Host.Outcome State Fault Refusal :=
  guarded (.fsqrt i d a) (issueF i 16 d.val (fun t => fSqrt (t.rw a.val))) s

/-- FCMP: PD ← (A COND B), latency 2. -/
def execFcmp (i : Issue) (pd : Fin 16) (a b : Fin 64) (cond : BitVec 3) (s : State) : Host.Outcome State Fault Refusal :=
  guarded (.fcmp i pd a b cond)
    (issue i (fun t =>
      let r := fCmp cond.toNat (t.rw a.val) (t.rw b.val)
      (t.fpFlags r.2).resultP i 2 pd.val r.1)) s

/-- FSEL: D ← A when the predicate is true, else B; it always writes (R47). -/
def execFsel (i : Issue) (d a b : Fin 64) (s : State) : Host.Outcome State Fault Refusal :=
  guarded (.fsel i d a b)
    (issueSel i (fun t => t.result i 1 d.val (if t.gateP i then t.rw a.val else t.rw b.val))) s

end Sys2Proof.Machine
end

