-- ==== Sys2Proof/Machine/EngineInt.lean ====
section
/-! DEFINITION. The meanings of the integer operations of tracks 0 and 1, and LOOP (Table 2-4, R43, R47, R49). -/

namespace Sys2Proof.Machine

/-- NOP: the track issues nothing; its predicate is not looked at (R38). -/
def execNop (i : Issue) (s : State) : Host.Outcome State Fault Refusal := .next (s.land i.cycle)

/-- ADD: D ← A + B modulo 2^32. -/
def execAdd (i : Issue) (d a b : Fin 64) (s : State) : Host.Outcome State Fault Refusal :=
  guarded (.add i d a b) (issueW i 1 d.val (fun t => t.rw a.val + t.rw b.val)) s

/-- SUB: D ← A − B modulo 2^32. -/
def execSub (i : Issue) (d a b : Fin 64) (s : State) : Host.Outcome State Fault Refusal :=
  guarded (.sub i d a b) (issueW i 1 d.val (fun t => t.rw a.val - t.rw b.val)) s

/-- AND: D ← A and B. -/
def execAndW (i : Issue) (d a b : Fin 64) (s : State) : Host.Outcome State Fault Refusal :=
  guarded (.andW i d a b) (issueW i 1 d.val (fun t => t.rw a.val &&& t.rw b.val)) s

/-- OR: D ← A or B. -/
def execOrW (i : Issue) (d a b : Fin 64) (s : State) : Host.Outcome State Fault Refusal :=
  guarded (.orW i d a b) (issueW i 1 d.val (fun t => t.rw a.val ||| t.rw b.val)) s

/-- XOR: D ← A xor B. -/
def execXorW (i : Issue) (d a b : Fin 64) (s : State) : Host.Outcome State Fault Refusal :=
  guarded (.xorW i d a b) (issueW i 1 d.val (fun t => t.rw a.val ^^^ t.rw b.val)) s

/-- SHL: D ← A shifted left by B bits 4:0. -/
def execShl (i : Issue) (d a b : Fin 64) (s : State) : Host.Outcome State Fault Refusal :=
  guarded (.shl i d a b) (issueW i 1 d.val (fun t => t.rw a.val <<< regShift (t.rw b.val))) s

/-- SHR: logical right shift by B bits 4:0. -/
def execShr (i : Issue) (d a b : Fin 64) (s : State) : Host.Outcome State Fault Refusal :=
  guarded (.shr i d a b) (issueW i 1 d.val (fun t => t.rw a.val >>> regShift (t.rw b.val))) s

/-- SAR: arithmetic right shift by B bits 4:0. -/
def execSar (i : Issue) (d a b : Fin 64) (s : State) : Host.Outcome State Fault Refusal :=
  guarded (.sar i d a b) (issueW i 1 d.val (fun t => (t.rw a.val).sshiftRight (regShift (t.rw b.val)))) s

/-- ADDI: D ← A + imm7, signed. -/
def execAddi (i : Issue) (d a : Fin 64) (imm : BitVec 7) (s : State) : Host.Outcome State Fault Refusal :=
  guarded (.addi i d a imm) (issueW i 1 d.val (fun t => t.rw a.val + imm7 imm)) s

/-- SHLI: shift left by imm7 bits 4:0. -/
def execShli (i : Issue) (d a : Fin 64) (imm : BitVec 7) (s : State) : Host.Outcome State Fault Refusal :=
  guarded (.shli i d a imm) (issueW i 1 d.val (fun t => t.rw a.val <<< immShift imm)) s

/-- SHRI: logical right shift by imm7 bits 4:0. -/
def execShri (i : Issue) (d a : Fin 64) (imm : BitVec 7) (s : State) : Host.Outcome State Fault Refusal :=
  guarded (.shri i d a imm) (issueW i 1 d.val (fun t => t.rw a.val >>> immShift imm)) s

/-- SARI: arithmetic right shift by imm7 bits 4:0. -/
def execSari (i : Issue) (d a : Fin 64) (imm : BitVec 7) (s : State) : Host.Outcome State Fault Refusal :=
  guarded (.sari i d a imm) (issueW i 1 d.val (fun t => (t.rw a.val).sshiftRight (immShift imm))) s

/-- LI: D ← imm13, sign-extended. -/
def execLi (i : Issue) (d : Fin 64) (imm : BitVec 13) (s : State) : Host.Outcome State Fault Refusal :=
  guarded (.li i d imm) (issueW i 1 d.val (fun _ => imm13s imm)) s

/-- LIS: D ← (D shifted left by 13) or imm13, zero-extended. -/
def execLis (i : Issue) (d : Fin 64) (imm : BitVec 13) (s : State) : Host.Outcome State Fault Refusal :=
  guarded (.lis i d imm) (issueW i 1 d.val (fun t => (t.rw d.val <<< (13 : Nat)) ||| imm13z imm)) s

/-- SEL: D ← A when the predicate is true, else B; it always writes (R47). -/
def execSel (i : Issue) (d a b : Fin 64) (s : State) : Host.Outcome State Fault Refusal :=
  guarded (.sel i d a b) (issueSel i (fun t => t.result i 1 d.val (if t.gateP i then t.rw a.val else t.rw b.val))) s

/-- MIN: signed minimum. -/
def execMinS (i : Issue) (d a b : Fin 64) (s : State) : Host.Outcome State Fault Refusal :=
  guarded (.minS i d a b) (issueW i 1 d.val (fun t => if (t.rw b.val).slt (t.rw a.val) then t.rw b.val else t.rw a.val)) s

/-- MAX: signed maximum. -/
def execMaxS (i : Issue) (d a b : Fin 64) (s : State) : Host.Outcome State Fault Refusal :=
  guarded (.maxS i d a b) (issueW i 1 d.val (fun t => if (t.rw a.val).slt (t.rw b.val) then t.rw b.val else t.rw a.val)) s

/-- ADDS: signed add, saturating. -/
def execAdds (i : Issue) (d a b : Fin 64) (s : State) : Host.Outcome State Fault Refusal :=
  guarded (.adds i d a b) (issueW i 1 d.val (fun t => sat32 ((t.rw a.val).toInt + (t.rw b.val).toInt))) s

/-- SUBS: signed subtract, saturating. -/
def execSubs (i : Issue) (d a b : Fin 64) (s : State) : Host.Outcome State Fault Refusal :=
  guarded (.subs i d a b) (issueW i 1 d.val (fun t => sat32 ((t.rw a.val).toInt - (t.rw b.val).toInt))) s

/-- MUL: low 32 bits of A × B. -/
def execMul (i : Issue) (d a b : Fin 64) (s : State) : Host.Outcome State Fault Refusal :=
  guarded (.mul i d a b) (issueW i 3 d.val (fun t => t.rw a.val * t.rw b.val)) s

/-- MULH: high 32 bits of signed A × B. -/
def execMulh (i : Issue) (d a b : Fin 64) (s : State) : Host.Outcome State Fault Refusal :=
  guarded (.mulh i d a b) (issueW i 3 d.val (fun t => w32i (((t.rw a.val).toInt * (t.rw b.val).toInt) / 2 ^ 32))) s

/-- MULHU: high 32 bits of unsigned A × B. -/
def execMulhu (i : Issue) (d a b : Fin 64) (s : State) : Host.Outcome State Fault Refusal :=
  guarded (.mulhu i d a b) (issueW i 3 d.val (fun t => w32 (((t.rw a.val).toNat * (t.rw b.val).toNat) / 2 ^ 32))) s

/-- CMP: PD ← (A COND B) (Table 2-4). -/
def execCmp (i : Issue) (pd : Fin 16) (a b : Fin 64) (cond : BitVec 3) (s : State) : Host.Outcome State Fault Refusal :=
  guarded (.cmp i pd a b cond)
    (issue i (fun t => t.resultP i 1 pd.val (intCond cond.toNat (t.rw a.val) (t.rw b.val)))) s

/-- The two halves of a 64-bit result, latency 2 (ADD64, SUB64). -/
def result64 (i : Issue) (d : Nat) (v : BitVec 64) (t : State) : State :=
  (t.result i 2 d (v.setWidth 32)).result i 2 (d + 1) ((v >>> (32 : Nat)).setWidth 32)

/-- ADD64: the even pair D ← pair A + pair B. -/
def execAdd64 (i : Issue) (d a b : Fin 64) (s : State) : Host.Outcome State Fault Refusal :=
  guarded (.add64 i d a b) (issue i (fun t => result64 i d.val (pair64 t a.val + pair64 t b.val) t)) s

/-- SUB64: the even pair D ← pair A − pair B. -/
def execSub64 (i : Issue) (d a b : Fin 64) (s : State) : Host.Outcome State Fault Refusal :=
  guarded (.sub64 i d a b) (issue i (fun t => result64 i d.val (pair64 t a.val - pair64 t b.val) t)) s

/-- LOOP: open a loop of TRIP + 1 iterations (R49); at depth 2 a third loop is one the module refuses to load. -/
def execLoopOpen (i : Issue) (trip : BitVec 16) (s : State) : Host.Outcome State Fault Refusal :=
  if s.eng.loops.length < 2 then
    guarded (.loopOpen i trip)
      (issue i (fun t => { t with eng := { t.eng with loops := trip.toNat :: t.eng.loops } })) s
  else .refused .illFormed

/-- One iteration of the innermost loop ends: the body repeats while iterations are left, else the loop closes (R49). -/
def loopEnd : List Nat → List Nat
  | [] => []
  | 0 :: r => r
  | (n + 1) :: r => n :: r

/-- LOOP_ITERATION_END; an LEND that closes no loop is one the module refuses to load. -/
def execLoopIterationEnd (s : State) : Host.Outcome State Fault Refusal :=
  if s.eng.loops.isEmpty then .refused .illFormed
  else .next { s with eng := { s.eng with loops := loopEnd s.eng.loops } }

end Sys2Proof.Machine
end

