-- ==== Sys2Proof/Machine/Words.lean ====
section
/-! DEFINITION. Words at the islands' outbound ports: their KIND is decoded and the island obeys them as they arrive (R82, R160,
R196, R198, R213, R214, R307, R356, R373). A KIND that a port's table does not give is ignored; a display island counts it. Where a
table says only that bits are 0, a word with such a bit set is obeyed by its fields (assumption 101). -/

namespace Sys2Proof.Machine

/-- A word at MCTRL of the metering island (Table 6-3). -/
def mctrlWord (w : Word) (s : State) : State :=
  match fld w 31 28 with
  | 2 => mtrEdges 0 16 (fld w 15 0) s
  | 3 => mtrEdges 16 14 (fld w 13 0) s
  | 4 => s0Begin (fld w 2 0) (fld w 15 8) s
  | _ => s

/-- A command word of a CAN channel or T1S port (Table 11-4): the word that follows a SELECT is its value, whatever its bits.
A FETCH of an empty mailbox is stamped with the time as the module keeps it (assumption 41). -/
def busWord (src : Nat) (w : Word) (s : State) : State :=
  let at_ := sget 0 s.bus.sel src
  if at_ ≠ 0 then canSelect src (at_ - 1) w { s with bus := { s.bus with sel := sset 0 s.bus.sel src 0 } }
  else match fld w 31 28 with
  | 1 => if src < 12 then canSend src (fld w 15 0) s else s
  | 2 => if src < 12 then canAbort src (fld w 15 0) s else s
  | 3 => if src < 12 then canFetch src (fld w 5 0) (w32 s.fabTime) s else s
  | 4 => busNote src (busStats src s)
  | 5 => if src < 12 then recoverStart false src s else s
  | 12 => { s with bus := { s.bus with sel := sset 0 s.bus.sel src (fld w 8 0 + 1) } }
  | 13 => if src < 12 then canCfgEnd src s else macCfgEnd (src - 12) s
  | _ => s

/-- A word at DCMD of a DI island (Table 7-4). -/
def diDcmd (g : Nat) (w : Word) (s : State) : State :=
  match fld w 31 28 with
  | 1 => diWord g (.deb (fld w 27 24) (fld w 15 0)) s
  | 2 => diWord g (.units (fld w 23 16) (fld w 15 0)) s
  | 3 => diWord g (.brken (fld w 15 0)) s
  | _ => s

/-- A word at DCMD of a DO island (Table 7-7). An OUT word that came before the word that completes CFGD is not driven by that word,
but by the next OUT word or apply instant: R198 does not say (assumption 115). -/
def doDcmd (h : Nat) (w : Word) (s : State) : State :=
  match fld w 31 28 with
  | 1 => doCfg h (fun x => { x with safe := fld w 15 0, gotSafe := true }) s
  | 2 => doCfg h (fun x => { x with hold := fld w 15 0, gotHold := true }) s
  | 3 => doCfg h (fun x => { x with olen := fld w 15 0, gotOl := true }) s
  | _ => s

/-- A word at AOUTc of an analogue island (Table 8-3). -/
def aoutWord (a c : Nat) (w : Word) (s : State) : State :=
  let v := fld w 15 0
  let chan (bit : Nat) (f : AoCh → AoCh) : State :=
    aoCfg a (fun x => x.setChan c { (f (x.chan c)) with got := (x.chan c).got ||| bit }) s
  match fld w 31 28 with
  | 0 => aoutCode a c v (fld w 17 16) s
  | 1 => aoCfg a (aoutMode c (bit w 0) (bit w 1) (bit w 2) (fld w 6 4)) s
  | 2 => chan 4 (fun y => { y with safeCode := v })
  | 3 => chan 8 (fun y => { y with almLo := v })
  | 4 => chan 16 (fun y => { y with almHi := v })
  | 5 => chan 32 (fun y => { y with zero := fld w 11 0, span := fld w 23 12 })
  | _ => s

/-- A word at BCMD of the backup island (Table 14-3). -/
def bcmdWord (w : Word) (s : State) : State :=
  let v := w &&& 0x0FFFFFFF#32
  match fld w 31 28 with
  | 1 => bcmdSet v s
  | 2 => bcmdStep v s
  | 3 => bcmdSlew v s
  | 4 => bcmdSlewStop v s
  | 5 => bcmdTrim v s
  | 6 => bcmdAlmper v s
  | 7 => bcmdAlarm v s
  | 8 => bcmdAck v s
  | 9 => bcmdByte v s
  | 10 => bcmdRead v s
  | 11 => bcmdChg v s
  | _ => s

/-- A word at outbound port `i` (32 to 63) of a display island; the display path then writes its next one (R344). -/
def displayWord (i : Nat) (w : Word) (s : State) : State :=
  let t := match i with
    | 32 => lcdTake (segdata w) s
    | 33 => lcdTake (rectcmdWord w) s
    | 34 => lcdTake (vlcdWord w) s
    | _ => s
  if t.rb Reg.tteStat 0 then lcdSend t else t

/-- What an island does with a word that reaches its outbound port `i` (Table 3-4): 4 metering, 10 local bus, 11 to 14 DI, 15 and
16 DO, 17 to 20 analogue, 21 display, 22 security, 24 backup. The other islands' words have commands of their own. -/
def islandWord (island i : Nat) (w : Word) (s : State) : State :=
  match island with
  | 9 => if i = 32 then mctrlWord w s else s
  | 10 => if i ≤ 55 then busWord (i - 32) w s else s
  | 11 | 12 | 13 | 14 => if i = 32 then diDcmd (island - 11) w s else s
  | 15 | 16 => if i = 32 then doOut (island - 15) (fld w 15 0) (bit w 16) s else if i = 33 then doDcmd (island - 15) w s else s
  | 17 | 18 | 19 | 20 =>
    if i ≤ 35 then aoutWord (island - 17) (i - 32) w s else if i = 36 then acmd (island - 17) (fld w 3 0) (bit w 8) s else s
  | 21 => displayWord i w s
  | 22 => if i = 32 then scmdWord w s else if i = 33 then sparamWord w s else s
  | 24 => if i = 32 then bcmdWord w s else if i = 33 then rtcBarg w s else s
  | _ => s

/-- A word reaches the destination port of its crossing (R16, R17): the word under way, or for an inbound port with none
under way the word given. The island obeys a word that reaches an outbound port. -/
def crossingArrival (p : Nat) (w : Word) (s : State) : State :=
  let x := s.port p
  if p % 64 < 32 then
    let s1 := { s with stime := sset 0#32 s.stime p (sget 0#32 s.stime (2048 + p)) }
    if x.transit then s1.setPort p { x with word := x.src, valid := true, transit := false } else s1.arriveIn p w
  else if x.transit then islandWord (p / 64) (p % 64) x.src (s.arriveOut p) else s

/-- CROSSING_WORD_ARRIVAL. -/
def execCrossingWordArrival (port : BitVec 11) (w : Word) (s : State) : Host.Outcome State Fault Refusal :=
  guarded (.crossingWordArrival port w) (crossingArrival port.toNat w) s

end Sys2Proof.Machine
end

