-- ==== Sys2Proof/Machine/Dispatch.lean ====
section
/-! DEFINITION. The dispatch: one arm per command, each a direct call of its meaning. -/

namespace Sys2Proof.Machine

def exec (i : Instr) (s : State) : Host.Outcome State Fault Refusal :=
  match i with
  | .powerOnStart => Sys2Proof.Machine.execPowerOnStart s
  | .returnStart => Sys2Proof.Machine.execReturnStart s
  | .warmStart => Sys2Proof.Machine.execWarmStart s
  | .sysResetWrite m w => Sys2Proof.Machine.execSysResetWrite m w s
  | .supplyValid => Sys2Proof.Machine.execSupplyValid s
  | .romPhase strap => Sys2Proof.Machine.execRomPhase strap s
  | .imageChecks => Sys2Proof.Machine.execImageChecks s
  | .configApplication => Sys2Proof.Machine.execConfigApplication s
  | .migrate ok => Sys2Proof.Machine.execMigrate ok s
  | .discoveryEnd => Sys2Proof.Machine.execDiscoveryEnd s
  | .engineRelease => Sys2Proof.Machine.execEngineRelease s
  | .staggerEnd => Sys2Proof.Machine.execStaggerEnd s
  | .fieldIslandPowerUp => Sys2Proof.Machine.execFieldIslandPowerUp s
  | .outPermit => Sys2Proof.Machine.execOutPermit s
  | .startAbandon => Sys2Proof.Machine.execStartAbandon s
  | .romMirrorRefresh => Sys2Proof.Machine.execRomMirrorRefresh s
  | .sidingModeEntry => Sys2Proof.Machine.execSidingModeEntry s
  | .sidingStrapPoll strap => Sys2Proof.Machine.execSidingStrapPoll strap s
  | .sidingRefresh => Sys2Proof.Machine.execSidingRefresh s
  | .progHold => Sys2Proof.Machine.execProgHold s
  | .progRelease => Sys2Proof.Machine.execProgRelease s
  | .minorCycleBoundary => Sys2Proof.Machine.execMinorCycleBoundary s
  | .pathStart path => Sys2Proof.Machine.execPathStart path s
  | .loopIterationEnd => Sys2Proof.Machine.execLoopIterationEnd s
  | .nop iss => Sys2Proof.Machine.execNop iss s
  | .add iss d a b => Sys2Proof.Machine.execAdd iss d a b s
  | .sub iss d a b => Sys2Proof.Machine.execSub iss d a b s
  | .andW iss d a b => Sys2Proof.Machine.execAndW iss d a b s
  | .orW iss d a b => Sys2Proof.Machine.execOrW iss d a b s
  | .xorW iss d a b => Sys2Proof.Machine.execXorW iss d a b s
  | .shl iss d a b => Sys2Proof.Machine.execShl iss d a b s
  | .shr iss d a b => Sys2Proof.Machine.execShr iss d a b s
  | .sar iss d a b => Sys2Proof.Machine.execSar iss d a b s
  | .addi iss d a imm => Sys2Proof.Machine.execAddi iss d a imm s
  | .shli iss d a imm => Sys2Proof.Machine.execShli iss d a imm s
  | .shri iss d a imm => Sys2Proof.Machine.execShri iss d a imm s
  | .sari iss d a imm => Sys2Proof.Machine.execSari iss d a imm s
  | .li iss d imm => Sys2Proof.Machine.execLi iss d imm s
  | .lis iss d imm => Sys2Proof.Machine.execLis iss d imm s
  | .sel iss d a b => Sys2Proof.Machine.execSel iss d a b s
  | .minS iss d a b => Sys2Proof.Machine.execMinS iss d a b s
  | .maxS iss d a b => Sys2Proof.Machine.execMaxS iss d a b s
  | .adds iss d a b => Sys2Proof.Machine.execAdds iss d a b s
  | .subs iss d a b => Sys2Proof.Machine.execSubs iss d a b s
  | .mul iss d a b => Sys2Proof.Machine.execMul iss d a b s
  | .mulh iss d a b => Sys2Proof.Machine.execMulh iss d a b s
  | .mulhu iss d a b => Sys2Proof.Machine.execMulhu iss d a b s
  | .cmp iss pd a b cond => Sys2Proof.Machine.execCmp iss pd a b cond s
  | .add64 iss d a b => Sys2Proof.Machine.execAdd64 iss d a b s
  | .sub64 iss d a b => Sys2Proof.Machine.execSub64 iss d a b s
  | .loopOpen iss trip => Sys2Proof.Machine.execLoopOpen iss trip s
  | .fadd iss d a b => Sys2Proof.Machine.execFadd iss d a b s
  | .fsub iss d a b => Sys2Proof.Machine.execFsub iss d a b s
  | .fmul iss d a b => Sys2Proof.Machine.execFmul iss d a b s
  | .fma iss d a b => Sys2Proof.Machine.execFma iss d a b s
  | .fms iss d a b => Sys2Proof.Machine.execFms iss d a b s
  | .fmin iss d a b => Sys2Proof.Machine.execFmin iss d a b s
  | .fmax iss d a b => Sys2Proof.Machine.execFmax iss d a b s
  | .fabs iss d a => Sys2Proof.Machine.execFabs iss d a s
  | .fneg iss d a => Sys2Proof.Machine.execFneg iss d a s
  | .fcvti iss d a => Sys2Proof.Machine.execFcvti iss d a s
  | .fcvtf iss d a => Sys2Proof.Machine.execFcvtf iss d a s
  | .fcmp iss pd a b cond => Sys2Proof.Machine.execFcmp iss pd a b cond s
  | .fdiv iss d a b => Sys2Proof.Machine.execFdiv iss d a b s
  | .fsqrt iss d a => Sys2Proof.Machine.execFsqrt iss d a s
  | .fsel iss d a b => Sys2Proof.Machine.execFsel iss d a b s
  | .ld iss d a imm => Sys2Proof.Machine.execLd iss d a imm s
  | .st iss d a imm => Sys2Proof.Machine.execSt iss d a imm s
  | .ldx iss d a b => Sys2Proof.Machine.execLdx iss d a b s
  | .stx iss d a b => Sys2Proof.Machine.execStx iss d a b s
  | .mov iss d a => Sys2Proof.Machine.execMov iss d a s
  | .lld iss d a imm => Sys2Proof.Machine.execLld iss d a imm s
  | .lst iss d a imm => Sys2Proof.Machine.execLst iss d a imm s
  | .xrd iss d port fp => Sys2Proof.Machine.execXrd iss d port fp s
  | .xwr iss d port => Sys2Proof.Machine.execXwr iss d port s
  | .qpop iss d qa => Sys2Proof.Machine.execQpop iss d qa s
  | .qpush iss d qa => Sys2Proof.Machine.execQpush iss d qa s
  | .qlev iss d qa => Sys2Proof.Machine.execQlev iss d qa s
  | .qmov iss qa qb => Sys2Proof.Machine.execQmov iss qa qb s
  | .xq iss q port => Sys2Proof.Machine.execXq iss q port s
  | .qx iss q port => Sys2Proof.Machine.execQx iss q port s
  | .rld iss d a imm => Sys2Proof.Machine.execRld iss d a imm s
  | .rst iss d a imm => Sys2Proof.Machine.execRst iss d a imm s
  | .setAliasWrite addr w => Sys2Proof.Machine.execSetAliasWrite addr w s
  | .mst iss d a imm => Sys2Proof.Machine.execMst iss d a imm s
  | .msw iss a consist => Sys2Proof.Machine.execMsw iss a consist s
  | .srd iss d selr => Sys2Proof.Machine.execSrd iss d selr s
  | .scrb iss a imm => Sys2Proof.Machine.execScrb iss a imm s
  | .scrubLate mem seconds => Sys2Proof.Machine.execScrubLate mem seconds s
  | .arm iss a => Sys2Proof.Machine.execArm iss a s
  | .darm iss a => Sys2Proof.Machine.execDarm iss a s
  | .crossingWordArrival port w => Sys2Proof.Machine.execCrossingWordArrival port w s
  | .islandQueuePush q island unit ws => Sys2Proof.Machine.execIslandQueuePush q island unit ws s
  | .islandQueuePop q island unit push => Sys2Proof.Machine.execIslandQueuePop q island unit push s
  | .hostReadLowHalf addr gapNs => Sys2Proof.Machine.execHostReadLowHalf addr gapNs s
  | .hostReadHighHalf addr gapNs => Sys2Proof.Machine.execHostReadHighHalf addr gapNs s
  | .hostReadWord0 addr gapNs => Sys2Proof.Machine.execHostReadWord0 addr gapNs s
  | .hostDataPortRead q gapNs push => Sys2Proof.Machine.execHostDataPortRead q gapNs push s
  | .headCellRefill q => Sys2Proof.Machine.execHeadCellRefill q s
  | .hostWriteLowHalf addr half lenNs gapNs haMoved => Sys2Proof.Machine.execHostWriteLowHalf addr half lenNs gapNs haMoved s
  | .hostWriteHighHalf addr half lenNs gapNs haMoved => Sys2Proof.Machine.execHostWriteHighHalf addr half lenNs gapNs haMoved s
  | .hostPush q w => Sys2Proof.Machine.execHostPush q w s
  | .registerWrite addr e f h => Sys2Proof.Machine.execRegisterWrite addr e f h s
  | .shadowWrite m addr w => Sys2Proof.Machine.execShadowWrite m addr w s
  | .w1cClear m addr w hw => Sys2Proof.Machine.execW1cClear m addr w hw s
  | .sysCommit m w => Sys2Proof.Machine.execSysCommit m w s
  | .tteEccClr w => Sys2Proof.Machine.execTteEccClr w s
  | .clrSel => Sys2Proof.Machine.execClrSel s
  | .clrAll => Sys2Proof.Machine.execClrAll s
  | .queClrCnt q => Sys2Proof.Machine.execQueClrCnt q s
  | .queClrPeak q => Sys2Proof.Machine.execQueClrPeak q s
  | .queClrDed q => Sys2Proof.Machine.execQueClrDed q s
  | .logAdvance m w => Sys2Proof.Machine.execLogAdvance m w s
  | .hpvPoll => Sys2Proof.Machine.execHpvPoll s
  | .mtrCalholdWrite m w => Sys2Proof.Machine.execMtrCalholdWrite m w s
  | .wcArm w => Sys2Proof.Machine.execWcArm w s
  | .testRun count => Sys2Proof.Machine.execTestRun count s
  | .testStop => Sys2Proof.Machine.execTestStop s
  | .parLeaseWrite m w => Sys2Proof.Machine.execParLeaseWrite m w s
  | .parGateWrite m w => Sys2Proof.Machine.execParGateWrite m w s
  | .rtcSet m => Sys2Proof.Machine.execRtcSet m s
  | .rtcStep m => Sys2Proof.Machine.execRtcStep m s
  | .rtcSlew m period faster => Sys2Proof.Machine.execRtcSlew m period faster s
  | .rtcSlewStop m => Sys2Proof.Machine.execRtcSlewStop m s
  | .rtcAlarmCfgWrite m n w => Sys2Proof.Machine.execRtcAlarmCfgWrite m n w s
  | .rtcByteWrite m iss w => Sys2Proof.Machine.execRtcByteWrite m iss w s
  | .readPub kind tag => Sys2Proof.Machine.execReadPub kind tag s
  | .challenge tag => Sys2Proof.Machine.execChallenge tag s
  | .attest tag => Sys2Proof.Machine.execAttest tag s
  | .objBegin m kind => Sys2Proof.Machine.execObjBegin m kind s
  | .objPut m => Sys2Proof.Machine.execObjPut m s
  | .objSubmit m ok => Sys2Proof.Machine.execObjSubmit m ok s
  | .objCancel m => Sys2Proof.Machine.execObjCancel m s
  | .objectTimeout => Sys2Proof.Machine.execObjectTimeout s
  | .inputBelowPfd vin => Sys2Proof.Machine.execInputBelowPfd vin s
  | .dip low us => Sys2Proof.Machine.execDip low us s
  | .powerFailDetection vin => Sys2Proof.Machine.execPowerFailDetection vin s
  | .lastTrainSwitch => Sys2Proof.Machine.execLastTrainSwitch s
  | .lastTrainPathStart path => Sys2Proof.Machine.execLastTrainPathStart path s
  | .lastTrainEnd => Sys2Proof.Machine.execLastTrainEnd s
  | .bankExhausted => Sys2Proof.Machine.execBankExhausted s
  | .eavailUpdate vbank => Sys2Proof.Machine.execEavailUpdate vbank s
  | .startCheck v1 => Sys2Proof.Machine.execStartCheck v1 s
  | .dailyCheck v1 => Sys2Proof.Machine.execDailyCheck v1 s
  | .checkComplete v2 => Sys2Proof.Machine.execCheckComplete v2 s
  | .diTick g levels => Sys2Proof.Machine.execDiTick g levels s
  | .sampleInstant island offset meas limits => Sys2Proof.Machine.execSampleInstant island offset meas limits s
  | .applyInstant island => Sys2Proof.Machine.execApplyInstant island s
  | .safeValueTimeout island => Sys2Proof.Machine.execSafeValueTimeout island s
  | .fieldSupplyMeasure island mv => Sys2Proof.Machine.execFieldSupplyMeasure island mv s
  | .wireBreak g c broken => Sys2Proof.Machine.execWireBreak g c broken s
  | .diDeb g c deb => Sys2Proof.Machine.execDiDeb g c deb s
  | .diCounterCfg g src mode => Sys2Proof.Machine.execDiCounterCfg g src mode s
  | .diBrken g brken => Sys2Proof.Machine.execDiBrken g brken s
  | .doSafe h v => Sys2Proof.Machine.execDoSafe h v s
  | .doHold h v => Sys2Proof.Machine.execDoHold h v s
  | .doOlEn h v => Sys2Proof.Machine.execDoOlEn h v s
  | .doOut h v ack => Sys2Proof.Machine.execDoOut h v ack s
  | .ovlLatch h c => Sys2Proof.Machine.execOvlLatch h c s
  | .openLoad h c inBand => Sys2Proof.Machine.execOpenLoad h c inBand s
  | .aoutCode a c code alm => Sys2Proof.Machine.execAoutCode a c code alm s
  | .aoutMode a c mode insrc clamp safemode => Sys2Proof.Machine.execAoutMode a c mode insrc clamp safemode s
  | .aoutSafe a c v => Sys2Proof.Machine.execAoutSafe a c v s
  | .aoutAlmLo a c v => Sys2Proof.Machine.execAoutAlmLo a c v s
  | .aoutAlmHi a c v => Sys2Proof.Machine.execAoutAlmHi a c v s
  | .aoutTrim a c zero span => Sys2Proof.Machine.execAoutTrim a c zero span s
  | .acmd a en ack => Sys2Proof.Machine.execAcmd a en ack s
  | .compliance a c v => Sys2Proof.Machine.execCompliance a c v s
  | .rbDev a c v => Sys2Proof.Machine.execRbDev a c v s
  | .miswire a c => Sys2Proof.Machine.execMiswire a c s
  | .miswireResume a c => Sys2Proof.Machine.execMiswireResume a c s
  | .meteringSample n secs bits => Sys2Proof.Machine.execMeteringSample n secs bits s
  | .edgeLow edges => Sys2Proof.Machine.execEdgeLow edges s
  | .edgeHigh edges => Sys2Proof.Machine.execEdgeHigh edges s
  | .s0Pulse out width => Sys2Proof.Machine.execS0Pulse out width s
  | .s0PulseEnd out => Sys2Proof.Machine.execS0PulseEnd out s
  | .intervalClose => Sys2Proof.Machine.execIntervalClose s
  | .meteringCommitDone ok => Sys2Proof.Machine.execMeteringCommitDone ok s
  | .partialIntervalClose => Sys2Proof.Machine.execPartialIntervalClose s
  | .harmonicWindow setB => Sys2Proof.Machine.execHarmonicWindow setB s
  | .captureSample => Sys2Proof.Machine.execCaptureSample s
  | .loopAttempt n cycle => Sys2Proof.Machine.execLoopAttempt n cycle s
  | .ffwWrite => Sys2Proof.Machine.execFfwWrite s
  | .pointRefresh p valid v ts src chan => Sys2Proof.Machine.execPointRefresh p valid v ts src chan s
  | .forceApply => Sys2Proof.Machine.execForceApply s
  | .serviceCycle sv cycle outs => Sys2Proof.Machine.execServiceCycle sv cycle outs s
  | .stationCheck => Sys2Proof.Machine.execStationCheck s
  | .linkSignalPresent l => Sys2Proof.Machine.execLinkSignalPresent l s
  | .symbolsAligned l swap inverted => Sys2Proof.Machine.execSymbolsAligned l swap inverted s
  | .linkLoss l => Sys2Proof.Machine.execLinkLoss l s
  | .cellReceive l slot ts ws => Sys2Proof.Machine.execCellReceive l slot ts ws s
  | .slotStart l slot => Sys2Proof.Machine.execSlotStart l slot s
  | .identityPositionSend l => Sys2Proof.Machine.execIdentityPositionSend l s
  | .position l addr nlink expAddr expLink hash stratum => Sys2Proof.Machine.execPosition l addr nlink expAddr expLink hash stratum s
  | .probationClean l => Sys2Proof.Machine.execProbationClean l s
  | .timeExchange l t1 t2 t3 t4 stratum => Sys2Proof.Machine.execTimeExchange l t1 t2 t3 t4 stratum s
  | .holdover => Sys2Proof.Machine.execHoldover s
  | .routeCell arrival ws => Sys2Proof.Machine.execRouteCell arrival ws s
  | .statusReport => Sys2Proof.Machine.execStatusReport s
  | .faultReport arrival ws => Sys2Proof.Machine.execFaultReport arrival ws s
  | .coalesceFlush => Sys2Proof.Machine.execCoalesceFlush s
  | .tagRequest => Sys2Proof.Machine.execTagRequest s
  | .tenantQuery ws => Sys2Proof.Machine.execTenantQuery ws s
  | .rraRead l => Sys2Proof.Machine.execRraRead l s
  | .rraWrite l => Sys2Proof.Machine.execRraWrite l s
  | .parcel src ws => Sys2Proof.Machine.execParcel src ws s
  | .chunkStored chunk => Sys2Proof.Machine.execChunkStored chunk s
  | .parcelAck l id chunk status => Sys2Proof.Machine.execParcelAck l id chunk status s
  | .parcelNack l id chunk status first count => Sys2Proof.Machine.execParcelNack l id chunk status first count s
  | .parcelGapTimeout chunk => Sys2Proof.Machine.execParcelGapTimeout chunk s
  | .transferTimeout => Sys2Proof.Machine.execTransferTimeout s
  | .canSend c mask => Sys2Proof.Machine.execCanSend c mask s
  | .canAbort c mask => Sys2Proof.Machine.execCanAbort c mask s
  | .canFetch c b ts => Sys2Proof.Machine.execCanFetch c b ts s
  | .busStats src => Sys2Proof.Machine.execBusStats src s
  | .canRecover c => Sys2Proof.Machine.execCanRecover c s
  | .canSelect src idx value => Sys2Proof.Machine.execCanSelect src idx value s
  | .cfgEnd src => Sys2Proof.Machine.execCfgEnd src s
  | .canFrameReceive c id ide dlc fdf brs esi rtr bytes ts => Sys2Proof.Machine.execCanFrameReceive c id ide dlc fdf brs esi rtr bytes ts s
  | .canRxRecordPush c => Sys2Proof.Machine.execCanRxRecordPush c s
  | .canTxRecordLoad c => Sys2Proof.Machine.execCanTxRecordLoad c s
  | .canAttemptEnd c res tdcv => Sys2Proof.Machine.execCanAttemptEnd c res tdcv s
  | .canError c kind txUp rxUp => Sys2Proof.Machine.execCanError c kind txUp rxUp s
  | .protocolException c => Sys2Proof.Machine.execProtocolException c s
  | .busOffHoldEnd c => Sys2Proof.Machine.execBusOffHoldEnd c s
  | .busOffRecoveryDone c => Sys2Proof.Machine.execBusOffRecoveryDone c s
  | .busStatusWord src => Sys2Proof.Machine.execBusStatusWord src s
  | .t1sFrameReceive p bytes whole late ts => Sys2Proof.Machine.execT1sFrameReceive p bytes whole late ts s
  | .t1sRxRecordPush p => Sys2Proof.Machine.execT1sRxRecordPush p s
  | .t1sTxRecordPop p => Sys2Proof.Machine.execT1sTxRecordPop p s
  | .t1sFrameTransmit p res defer ts => Sys2Proof.Machine.execT1sFrameTransmit p res defer ts s
  | .backoffEnd p => Sys2Proof.Machine.execBackoffEnd p s
  | .pauseReceived p quanta => Sys2Proof.Machine.execPauseReceived p quanta s
  | .pauseHoldEnd p => Sys2Proof.Machine.execPauseHoldEnd p s
  | .pauseSend p => Sys2Proof.Machine.execPauseSend p s
  | .pauseResend p => Sys2Proof.Machine.execPauseResend p s
  | .pauseRelease p => Sys2Proof.Machine.execPauseRelease p s
  | .backpressureJam p => Sys2Proof.Machine.execBackpressureJam p s
  | .heartbeatSend => Sys2Proof.Machine.execHeartbeatSend s
  | .heartbeatReceive overFabric ws => Sys2Proof.Machine.execHeartbeatReceive overFabric ws s
  | .fabricHeartbeat => Sys2Proof.Machine.execFabricHeartbeat s
  | .pathLost onFabric => Sys2Proof.Machine.execPathLost onFabric s
  | .leaseExpiry => Sys2Proof.Machine.execLeaseExpiry s
  | .leaseRequest answered cycle => Sys2Proof.Machine.execLeaseRequest answered cycle s
  | .parGrant req cycle fromBox => Sys2Proof.Machine.execParGrant req cycle fromBox s
  | .parProbe answered => Sys2Proof.Machine.execParProbe answered s
  | .signalBoxRequest k member probe req => Sys2Proof.Machine.execSignalBoxRequest k member probe req s
  | .signalBoxPendingGrant => Sys2Proof.Machine.execSignalBoxPendingGrant s
  | .pairStateChange => Sys2Proof.Machine.execPairStateChange s
  | .rectWord w => Sys2Proof.Machine.execRectWord w s
  | .segdata w => Sys2Proof.Machine.execSegdata w s
  | .requestInstant w => Sys2Proof.Machine.execRequestInstant w s
  | .frameBoundary p => Sys2Proof.Machine.execFrameBoundary p s
  | .lcdQuery w => Sys2Proof.Machine.execLcdQuery w s
  | .lcdForce w => Sys2Proof.Machine.execLcdForce w s
  | .panelWord w => Sys2Proof.Machine.execPanelWord w s
  | .fsegWord w => Sys2Proof.Machine.execFsegWord w s
  | .ntcWord w => Sys2Proof.Machine.execNtcWord w s
  | .bandWord w => Sys2Proof.Machine.execBandWord w s
  | .ntcReading p ohms => Sys2Proof.Machine.execNtcReading p ohms s
  | .temperatureUpdate p => Sys2Proof.Machine.execTemperatureUpdate p s
  | .ntcFault p => Sys2Proof.Machine.execNtcFault p s
  | .vlcdFault p => Sys2Proof.Machine.execVlcdFault p s
  | .vlcdRestart p ok => Sys2Proof.Machine.execVlcdRestart p ok s
  | .idleIntervalEnd p => Sys2Proof.Machine.execIdleIntervalEnd p s
  | .rtcTick => Sys2Proof.Machine.execRtcTick s
  | .bcmdSet w => Sys2Proof.Machine.execBcmdSet w s
  | .bcmdStep w => Sys2Proof.Machine.execBcmdStep w s
  | .bcmdSlew w => Sys2Proof.Machine.execBcmdSlew w s
  | .bcmdSlewStop w => Sys2Proof.Machine.execBcmdSlewStop w s
  | .bcmdTrim w => Sys2Proof.Machine.execBcmdTrim w s
  | .bcmdAlmper w => Sys2Proof.Machine.execBcmdAlmper w s
  | .bcmdAlarm w => Sys2Proof.Machine.execBcmdAlarm w s
  | .bcmdAck w => Sys2Proof.Machine.execBcmdAck w s
  | .bcmdByte w => Sys2Proof.Machine.execBcmdByte w s
  | .bcmdRead w => Sys2Proof.Machine.execBcmdRead w s
  | .bcmdChg w => Sys2Proof.Machine.execBcmdChg w s
  | .bargWord w => Sys2Proof.Machine.execBargWord w s
  | .retentionTrip => Sys2Proof.Machine.execRetentionTrip s
  | .retentionReset => Sys2Proof.Machine.execRetentionReset s
  | .backupSwitchover toElement mv => Sys2Proof.Machine.execBackupSwitchover toElement mv s
  | .clockDiscipline => Sys2Proof.Machine.execClockDiscipline s
  | .alarmReport => Sys2Proof.Machine.execAlarmReport s
  | .islandShake busy tag n msg => Sys2Proof.Machine.execIslandShake busy tag n msg s
  | .islandVerify busy tag k msg sig => Sys2Proof.Machine.execIslandVerify busy tag k msg sig s
  | .signgen busy tag h => Sys2Proof.Machine.execSigngen busy tag h s
  | .islandMessage busy tag m => Sys2Proof.Machine.execIslandMessage busy tag m s
  | .recordDone busy tag copy failed => Sys2Proof.Machine.execRecordDone busy tag copy failed s
  | .loadrec busy tag blown => Sys2Proof.Machine.execLoadrec busy tag blown s
  | .pubkey busy tag k => Sys2Proof.Machine.execPubkey busy tag k s
  | .islandAttest busy tag ws => Sys2Proof.Machine.execIslandAttest busy tag ws s
  | .islandChallenge busy tag ws => Sys2Proof.Machine.execIslandChallenge busy tag ws s
  | .updateRec busy tag ws => Sys2Proof.Machine.execUpdateRec busy tag ws s
  | .commission m ok => Sys2Proof.Machine.execCommission m ok s
  | .ownerSecret m ok => Sys2Proof.Machine.execOwnerSecret m ok s
  | .ownerRoot m ok => Sys2Proof.Machine.execOwnerRoot m ok s
  | .msgReturn m ok => Sys2Proof.Machine.execMsgReturn m ok s
  | .msgRetire m ok => Sys2Proof.Machine.execMsgRetire m ok s
  | .msgConfirm m ok => Sys2Proof.Machine.execMsgConfirm m ok s
  | .msgReject m ok => Sys2Proof.Machine.execMsgReject m ok s
  | .privileged m ok => Sys2Proof.Machine.execPrivileged m ok s
  | .epochGraceEnd => Sys2Proof.Machine.execEpochGraceEnd s
  | .trialMinute ok => Sys2Proof.Machine.execTrialMinute ok s
  | .triesReset => Sys2Proof.Machine.execTriesReset s
  | .inputRise vin => Sys2Proof.Machine.execInputRise vin s
  | .vInOutsideOperatingRange vin => Sys2Proof.Machine.execVInOutsideOperatingRange vin s
  | .timeCellSendBeforeRelease l => Sys2Proof.Machine.execTimeCellSendBeforeRelease l s
  | .sbLost => Sys2Proof.Machine.execSbLost s
  | .elementLow mv => Sys2Proof.Machine.execElementLow mv s
  | .busIntegration c => Sys2Proof.Machine.execBusIntegration c s
  | .startOfFrame c ts other => Sys2Proof.Machine.execStartOfFrame c ts other s
  | .slotBoundary p => Sys2Proof.Machine.execSlotBoundary p s

end Sys2Proof.Machine
end

