-- ==== Sys2Proof/Machine/Run.lean ====
section
/-! DEFINITION. The run of a path from code SRAM: one consist at a time, its four track fields decoded and issued in one core
cycle, with loops and END (R36 to R38, R43, R49, R67). A step on an empty queue issues the next consist (assumption 1). -/

namespace Sys2Proof.Machine

/-- Issue one decoded operation. One that the image check refuses at load, and so never stands in a loaded image, does nothing. -/
def runOp (s : State) (c : Instr) : State :=
  match exec c s with
  | .next t => t
  | .fault _ => s
  | .refused _ => s

/-- What the engine issues next: the consist and its core cycle, or nothing. -/
def State.setNext (s : State) (n : Option (Nat × Nat)) : State := { s with eng := { s.eng with next := n } }

/-- After a LOOP consist `c` that opened its loop, its body begins with the consist behind it (R49). -/
def openBody (c w : Nat) (before after : State) : State :=
  if cIsLoop w && decide (before.eng.loops.length < after.eng.loops.length) then
    { after with eng := { after.eng with bodies := (c + 1) :: after.eng.bodies } }
  else after

/-- At the end of a body the next iteration begins, or the loop closes and the consist after the LEND consist follows (R49). -/
def endBody (c t : Nat) (s : State) : State :=
  match s.eng.loops, s.eng.bodies with
  | 0 :: _, _ :: bs => { s with eng := { s.eng with loops := loopEnd s.eng.loops, bodies := bs, next := some (c + 1, t) } }
  | _ :: _, b :: _ => { s with eng := { s.eng with loops := loopEnd s.eng.loops, next := some (b, t) } }
  | _, _ => s.setNext none

/-- Issue consist `c` at core cycle `t`: its operations, and what issues 1 + WAIT core cycles later (R37). -/
def issueConsist (c t : Nat) (s : State) : State :=
  let w := consistAt s.code c
  let s1 := openBody c w s ((decodeConsist t c w).foldl runOp s)
  let t' := t + 1 + cWait w
  if cEnd w then s1.setNext none
  else if cLend w then endBody c t' s1
  else s1.setNext (some (c + 1, t'))

/-- The run in progress goes on by one consist; it ends at END, and after a double error it issues nothing further (R67). -/
def stepRun (s : State) : State :=
  match s.eng.next, s.eng.run with
  | some (c, t), some r =>
    if s.noop t || decide (r.start + r.length ≤ t) || decide (consistTop ≤ c) then s.setNext none else issueConsist c t s
  | _, _ => s

end Sys2Proof.Machine
end

