-- ==== Sys2Proof/Safety.lean ====
section
/-! DEFINITION. What holds of a sound state (the memories' canonical form, the log's record count, the fuses), and what it
means that a command leaves parts of the state as they were. -/

namespace Sys2Proof.Machine

/-- Every memory is in its one canonical form (guide of the model: equal memories are equal data). -/
def State.memOk (s : State) : Prop :=
  memWf s.data = true ∧ memWf s.logm = true ∧ memWf s.quem = true ∧ memWf s.code = true ∧ memWf s.feram = true ∧
  memWf s.store = true

/-- A sound state: canonical memories, at most 8,192 records held (R414), at most 30 fuses of the count blown (R377). -/
def State.sound (s : State) : Prop := s.memOk ∧ s.logCount ≤ 8192 ∧ s.sec.lcn ≤ 30

/-- Fuses are only ever blown (R377): the count does not fall, and the retire fuse stays blown. -/
def State.fusesGrow (s t : State) : Prop := s.sec.lcn ≤ t.sec.lcn ∧ (s.sec.retired = true → t.sec.retired = true)

/-- The parts of the state, one for each field of State but the queue of commands. -/
inductive Part where
  | regs | shadows | mirror | data | logm | quem | code | feram | store | ecc
  | eng | image | qrd | qcell | ports | xcnt | host | logNext | logCompl | logCount
  | logged | hattn | opUs | pwrCyc | fabTime | hamper | di | dout | ao | supply
  | stime | pair | boot | mtr | ctl | sec | fab | bus | lcd | rtc
  | freeCtr
  deriving DecidableEq, Repr

/-- One part of t is that of s. -/
def State.samePart (s t : State) : Part → Prop
  | .regs => t.regs = s.regs
  | .shadows => t.shadows = s.shadows
  | .mirror => t.mirror = s.mirror
  | .data => t.data = s.data
  | .logm => t.logm = s.logm
  | .quem => t.quem = s.quem
  | .code => t.code = s.code
  | .feram => t.feram = s.feram
  | .store => t.store = s.store
  | .ecc => t.ecc = s.ecc
  | .eng => t.eng = s.eng
  | .image => t.image = s.image
  | .qrd => t.qrd = s.qrd
  | .qcell => t.qcell = s.qcell
  | .ports => t.ports = s.ports
  | .xcnt => t.xcnt = s.xcnt
  | .host => t.host = s.host
  | .logNext => t.logNext = s.logNext
  | .logCompl => t.logCompl = s.logCompl
  | .logCount => t.logCount = s.logCount
  | .logged => t.logged = s.logged
  | .hattn => t.hattn = s.hattn
  | .opUs => t.opUs = s.opUs
  | .pwrCyc => t.pwrCyc = s.pwrCyc
  | .fabTime => t.fabTime = s.fabTime
  | .hamper => t.hamper = s.hamper
  | .di => t.di = s.di
  | .dout => t.dout = s.dout
  | .ao => t.ao = s.ao
  | .supply => t.supply = s.supply
  | .stime => t.stime = s.stime
  | .pair => t.pair = s.pair
  | .boot => t.boot = s.boot
  | .mtr => t.mtr = s.mtr
  | .ctl => t.ctl = s.ctl
  | .sec => t.sec = s.sec
  | .fab => t.fab = s.fab
  | .bus => t.bus = s.bus
  | .lcd => t.lcd = s.lcd
  | .rtc => t.rtc = s.rtc
  | .freeCtr => t.freeCtr = s.freeCtr

/-- A frame: t has the queue of s and every part of s but those listed. -/
def State.sameBut (l : List Part) (s t : State) : Prop := t.pending = s.pending ∧ ∀ p, p ∉ l → s.samePart t p

/-- A frame of registers: every register reads in t as in s, but those at the listed addresses. -/
def State.regsBut (l : List Nat) (s t : State) : Prop := ∀ a, a ∉ l → t.reg a = s.reg a

/-- The addresses of a register that stands n times, f being its address by index. -/
def regs1 (n : Nat) (f : Nat → Nat) : List Nat := (List.range n).map f

/-- The addresses of a register that stands n times m, by two indices. -/
def regs2 (n m : Nat) (f : Nat → Nat → Nat) : List Nat := (List.range n).flatMap (fun i => (List.range m).map (f i))

/-- An operation issues with effect (R40, R48): its run issues no no-op at its cycle, and its predicate is true, once the
results that its cycle reads have landed. -/
def issueGoes (i : Issue) (s : State) : Prop := (s.land i.cycle).noop i.cycle = false ∧ (s.land i.cycle).gateP i = true

/-- What a mirror cell shows from the next commit point of its block on: the copy last written (R53). -/
def MCell.last (c : MCell) : Word := if c.pend then (if c.sel then c.c0 else c.c1) else c.shown

/-- The rows of the register bus, the fabric, the clock registers and the security island, which the core island held in reset by
PROG_N does not serve (R450). -/
def heldRow : Instr → Bool
  | .sysResetWrite _ _ | .setAliasWrite _ _ | .headCellRefill _ | .hostPush _ _ | .registerWrite _ _ _ _
  | .shadowWrite _ _ _ | .sysCommit _ _ | .tteEccClr _ | .clrSel | .clrAll | .queClrCnt _ | .queClrPeak _
  | .queClrDed _ | .logAdvance _ _ | .hpvPoll | .mtrCalholdWrite _ _ | .wcArm _ | .testRun _ | .testStop
  | .parLeaseWrite _ _ | .parGateWrite _ _ | .rtcSet _ | .rtcStep _ | .rtcSlew _ _ _ | .rtcSlewStop _
  | .rtcAlarmCfgWrite _ _ _ | .rtcByteWrite _ _ _ | .readPub _ _ | .challenge _ | .attest _ | .objBegin _ _
  | .objPut _ | .objSubmit _ _ | .objCancel _ | .objectTimeout | .linkSignalPresent _ | .symbolsAligned _ _ _
  | .cellReceive _ _ _ _ | .slotStart _ _ | .identityPositionSend _ | .position _ _ _ _ _ _ _ | .probationClean _
  | .timeExchange _ _ _ _ _ _ | .holdover | .routeCell _ _ | .statusReport | .faultReport _ _ | .coalesceFlush
  | .tagRequest | .tenantQuery _ | .rraRead _ | .rraWrite _ | .parcel _ _ | .chunkStored _ | .parcelAck _ _ _ _
  | .parcelNack _ _ _ _ _ _ | .parcelGapTimeout _ | .transferTimeout | .islandShake _ _ _ _ | .islandVerify _ _ _ _ _
  | .signgen _ _ _ | .islandMessage _ _ _ | .recordDone _ _ _ _ | .loadrec _ _ _ | .pubkey _ _ _
  | .islandAttest _ _ _ | .islandChallenge _ _ _ | .updateRec _ _ _ | .commission _ _ | .ownerSecret _ _
  | .ownerRoot _ _ | .msgReturn _ _ | .msgRetire _ _ | .msgConfirm _ _ | .msgReject _ _ | .privileged _ _
  | .epochGraceEnd | .timeCellSendBeforeRelease _ => true
  | _ => false

/-- ws is a metering commit record (Table 6-5) of the totals, pulse counts and SEQ that t holds, LAST as given, of m samples where
`part`. -/
def commitHolds (t : State) (last part : Bool) (m : Nat) (ws : List Word) : Prop :=
  ws.length = 256 ∧ ws.getD 0 0#32 = 0x4D540001#32 ∧ ws.getD 1 0#32 = w32 t.mtr.seq ∧ ws.getD 2 0#32 = w32 (t.mtr.seq / 2 ^ 32) ∧
  ws.getD 3 0#32 = w32 t.mtr.lastT ∧ ws.getD 4 0#32 = w32 (t.mtr.lastT / 2 ^ 32) ∧
  ws.getD 5 0#32 = w32 (b2n last + (if part then 2 + m * 2 ^ 8 else 0)) ∧
  (∀ a, a < 72 → ws.getD (8 + 3 * a) 0#32 = t.reg (Reg.mtrTotLo (a / 9) (a % 9)) ∧
    ws.getD (9 + 3 * a) 0#32 = t.reg (Reg.mtrTotHi (a / 9) (a % 9)) ∧ ws.getD (10 + 3 * a) 0#32 = t.reg (Reg.mtrFrac (a / 9) (a % 9))) ∧
  (∀ o, o < 8 → ws.getD (224 + o) 0#32 = t.reg (Reg.mtrS0Emit o)) ∧ ws.getD 255 0#32 = crc32 (wordBytes (ws.take 255))

/-- The engine's state when an operation with one register result has issued: results due have landed, and the value is under
way to the register, in landing order. -/
def resultIn (i : Issue) (s t : State) (lat d : Nat) (v : Word) : Prop :=
  t.eng = { (s.land i.cycle).eng with inflight := insPend { land := i.cycle + lat, track := i.track.val, isPred := false, dst := d, val := v } (s.land i.cycle).eng.inflight }

/-- The same for a predicate result. -/
def predIn (i : Issue) (s t : State) (lat p : Nat) (b : Bool) : Prop :=
  t.eng = { (s.land i.cycle).eng with inflight := insPend { land := i.cycle + lat, track := i.track.val, isPred := true, dst := p, val := w32 (b2n b) } (s.land i.cycle).eng.inflight }

end Sys2Proof.Machine
end

