-- ==== Sys2Proof/Certificates/Slice0/Obligations.lean ====
section
/-! DEFINITION. The statements for the provers: what the commands do to the state, what they leave of it, and the invariants of the
step. A clause says, for every operand and state under its hypotheses, that the command answers a next state t and what t holds. -/

open Sys2Proof Sys2Proof.Machine

/-- For every command and state, the step of the state with the command at the front of its queue is the command's effect
on the state with the rest of the queue: no other command runs, and none is skipped. -/
def Obligations.StepTakesFront : Prop :=
    ∀ (c : Instr) (q : List Instr) (s : State), step { s with pending := c :: q } = exec c { s with pending := q }

/-- The model's own form (assumption 1). A state with no waiting command and no run in progress steps to itself. Where a
run stands at consist c and core cycle t, the step issues the operations decoded from c and goes on 1 + WAIT core
cycles later: END ends the run, a LOOP that opens has its body begin with the next, LEND begins the next iteration or
closes the loop, any other consist is followed by the next. A run that has had its double error, its length or the end
of code SRAM issues nothing further. The table gives no row bits, so no word spells a command and placing a word
changes nothing. -/
def Obligations.EmptyQueueIdles : Prop :=
    (∀ s : State, s.pending = [] → (s.eng.next = none ∨ s.eng.run = none) → step s = .next s) ∧
    (∀ (s : State) (c t : Nat) (r : Run), s.pending = [] → s.eng.next = some (c, t) → s.eng.run = some r →
      (s.noop t = true ∨ r.start + r.length ≤ t ∨ consistTop ≤ c) → step s = .next (s.setNext none)) ∧
    (∀ (s x : State) (c t w : Nat) (r : Run), s.pending = [] → s.eng.next = some (c, t) → s.eng.run = some r →
      s.noop t = false → t < r.start + r.length → c < consistTop → w = consistAt s.code c → x = (decodeConsist t c w).foldl runOp s →
      cIsLoop w = false → cEnd w = true → step s = .next (x.setNext none)) ∧
    (∀ (s x : State) (c t w : Nat) (r : Run), s.pending = [] → s.eng.next = some (c, t) → s.eng.run = some r →
      s.noop t = false → t < r.start + r.length → c < consistTop → w = consistAt s.code c → x = (decodeConsist t c w).foldl runOp s →
      cIsLoop w = false → cEnd w = false → cLend w = false → step s = .next (x.setNext (some (c + 1, t + 1 + cWait w)))) ∧
    (∀ (s x : State) (c t w n b : Nat) (l bs : List Nat) (r : Run), s.pending = [] → s.eng.next = some (c, t) → s.eng.run = some r →
      s.noop t = false → t < r.start + r.length → c < consistTop → w = consistAt s.code c → x = (decodeConsist t c w).foldl runOp s →
      cIsLoop w = false → cEnd w = false → cLend w = true → x.eng.loops = n :: l → x.eng.bodies = b :: bs →
      ∃ u, step s = .next u ∧ u.sameBut [.eng] x ∧ u.eng.loops = loopEnd x.eng.loops ∧ u.eng.bodies = (if n = 0 then bs else b :: bs) ∧
        u.eng.next = some (if n = 0 then c + 1 else b, t + 1 + cWait w)) ∧
    (∀ (s x : State) (c t w : Nat) (r : Run), s.pending = [] → s.eng.next = some (c, t) → s.eng.run = some r →
      s.noop t = false → t < r.start + r.length → c < consistTop → w = consistAt s.code c → x = (decodeConsist t c w).foldl runOp s →
      cIsLoop w = true → s.eng.loops.length < x.eng.loops.length → cEnd w = false → cLend w = false →
      ∃ u, step s = .next u ∧ u.sameBut [.eng] x ∧ u.eng.bodies = (c + 1) :: x.eng.bodies ∧ u.eng.next = some (c + 1, t + 1 + cWait w)) ∧
    (∀ n w : Nat, decodeTableWord n w = none) ∧ ∀ (s : State) (n w : Nat), s.withFetchWord n w = s

/-- After reset every general register and every predicate but P0 reads 0 (R39), TTE_STAT shows HALTED and not RUNNING
(R73), the engine is not released, SYS_STAT.PHASE is 0, LOG_NEXT is 0, the log holds no record, and no command waits. -/
def Obligations.ResetValues : Prop :=
    (∀ r, State.reset.rw r = 0#32) ∧ (∀ p, p ≠ 0 → State.reset.rp p = false) ∧ State.reset.rp 0 = true ∧ State.reset.rb Reg.tteStat 0 = false ∧
    State.reset.rb Reg.tteStat 1 = true ∧ State.reset.eng.released = false ∧ phaseOf State.reset = 0 ∧ State.reset.logNext = 0#32 ∧ State.reset.logCount = 0 ∧
    State.reset.pending = []

/-- State.reset has canonical memories, no log record more than 8,192 and no more than 30 fuses of the count blown. -/
def Obligations.ResetSound : Prop :=
    State.reset.sound

/-- From every sound state, not only from those that runs reach: if a step answers a next state, that state is sound: all
six memories keep their canonical form, the log holds at most 8,192 records, at most 30 fuses of the count are blown. -/
def Obligations.StepKeepsSound : Prop :=
    ∀ s t : State, s.sound → step s = .next t → t.sound

/-- From every sound state, a step that answers a next state leaves the count of blown fuses at least as high, and a
module that is retired stays retired, whatever the command: no start, message, record or update takes a fuse back. -/
def Obligations.StepOnlyBlowsFuses : Prop :=
    ∀ s t : State, s.sound → step s = .next t → s.fusesGrow t

/-- Each of the 312 constructors of Instr COMPLETES: for every command and state, where the command's operands are well
formed (an encoding that the spec has), and for LOOP fewer than two loops are open, and for LOOP_ITERATION_END some
loop is open, exec answers a next state t; in every other case it is refused as ill formed (that such operands are
refused is the model's choice, log entry 80; the spec gives them no effect). No command faults, whatever the state. -/
def Obligations.EveryCommandCompletes : Prop :=
    ∀ (c : Instr) (s : State),
      ((c.wf = true ∧ (∀ i n, c = .loopOpen i n → s.eng.loops.length < 2) ∧ (c = .loopIterationEnd → s.eng.loops ≠ [])) → ∃ t, exec c s = .next t) ∧
      (¬ (c.wf = true ∧ (∀ i n, c = .loopOpen i n → s.eng.loops.length < 2) ∧ (c = .loopIterationEnd → s.eng.loops ≠ [])) →
        exec c s = .refused .illFormed)

/-- Whatever command runs, in whatever state, the queue of waiting commands after it is the queue before it; so the step
of a queue leaves exactly the queue's rest, in its order. -/
def Obligations.ExecKeepsQueue : Prop :=
    (∀ (c : Instr) (s t : State), exec c s = .next t → t.pending = s.pending) ∧
    ∀ (c : Instr) (q : List Instr) (s t : State), step { s with pending := c :: q } = .next t → t.pending = q

/-- For every canonical memory, address and list of bytes: after the write the memory is canonical, the bytes written read
back, and every other byte reads as before; two canonical memories that read alike at every address are equal. -/
def Obligations.MemoryPutCanonical : Prop :=
    (∀ (m : List Host.Cell) (a : Nat) (l : List Byte), memWf m = true → memWf (memPut m a l) = true ∧ memBytes (memPut m a l) a l.length = l ∧
      ∀ x, x < a ∨ a + l.length ≤ x → memGet (memPut m a l) x = memGet m x) ∧
    ∀ m n : List Host.Cell, memWf m = true → memWf n = true → (∀ x, memGet m x = memGet n x) → m = n

/-- For every operation that a predicate gates (all but SEL, FSEL, LOOP and NOP), every state and every operand: where the
predicate that its issue cycle reads is false, the command answers the state in which the results that its cycle reads
have landed, and nothing else has happened: no register, predicate, memory, log, crossing, queue, mirror, arm flag,
flag or count has changed. (In a run that a double error has turned to no-ops, R90 reports the commit point of an MSW
as missed whatever its predicate, so MSW is stated for a run that is not at no-ops.) -/
def Obligations.GatedOff : Prop :=
    (∀ (i : Issue) (d a b : Fin 64) (s : State), (Instr.add i d a b).wf = true → (s.land i.cycle).gateP i = false → exec (.add i d a b) s = .next (s.land i.cycle)) ∧
    (∀ (i : Issue) (d a b : Fin 64) (s : State), (Instr.sub i d a b).wf = true → (s.land i.cycle).gateP i = false → exec (.sub i d a b) s = .next (s.land i.cycle)) ∧
    (∀ (i : Issue) (d a b : Fin 64) (s : State), (Instr.andW i d a b).wf = true → (s.land i.cycle).gateP i = false → exec (.andW i d a b) s = .next (s.land i.cycle)) ∧
    (∀ (i : Issue) (d a b : Fin 64) (s : State), (Instr.orW i d a b).wf = true → (s.land i.cycle).gateP i = false → exec (.orW i d a b) s = .next (s.land i.cycle)) ∧
    (∀ (i : Issue) (d a b : Fin 64) (s : State), (Instr.xorW i d a b).wf = true → (s.land i.cycle).gateP i = false → exec (.xorW i d a b) s = .next (s.land i.cycle)) ∧
    (∀ (i : Issue) (d a b : Fin 64) (s : State), (Instr.shl i d a b).wf = true → (s.land i.cycle).gateP i = false → exec (.shl i d a b) s = .next (s.land i.cycle)) ∧
    (∀ (i : Issue) (d a b : Fin 64) (s : State), (Instr.shr i d a b).wf = true → (s.land i.cycle).gateP i = false → exec (.shr i d a b) s = .next (s.land i.cycle)) ∧
    (∀ (i : Issue) (d a b : Fin 64) (s : State), (Instr.sar i d a b).wf = true → (s.land i.cycle).gateP i = false → exec (.sar i d a b) s = .next (s.land i.cycle)) ∧
    (∀ (i : Issue) (d a : Fin 64) (imm : BitVec 7) (s : State), (Instr.addi i d a imm).wf = true → (s.land i.cycle).gateP i = false → exec (.addi i d a imm) s = .next (s.land i.cycle)) ∧
    (∀ (i : Issue) (d a : Fin 64) (imm : BitVec 7) (s : State), (Instr.shli i d a imm).wf = true → (s.land i.cycle).gateP i = false → exec (.shli i d a imm) s = .next (s.land i.cycle)) ∧
    (∀ (i : Issue) (d a : Fin 64) (imm : BitVec 7) (s : State), (Instr.shri i d a imm).wf = true → (s.land i.cycle).gateP i = false → exec (.shri i d a imm) s = .next (s.land i.cycle)) ∧
    (∀ (i : Issue) (d a : Fin 64) (imm : BitVec 7) (s : State), (Instr.sari i d a imm).wf = true → (s.land i.cycle).gateP i = false → exec (.sari i d a imm) s = .next (s.land i.cycle)) ∧
    (∀ (i : Issue) (d : Fin 64) (imm : BitVec 13) (s : State), (Instr.li i d imm).wf = true → (s.land i.cycle).gateP i = false → exec (.li i d imm) s = .next (s.land i.cycle)) ∧
    (∀ (i : Issue) (d : Fin 64) (imm : BitVec 13) (s : State), (Instr.lis i d imm).wf = true → (s.land i.cycle).gateP i = false → exec (.lis i d imm) s = .next (s.land i.cycle)) ∧
    (∀ (i : Issue) (d a b : Fin 64) (s : State), (Instr.minS i d a b).wf = true → (s.land i.cycle).gateP i = false → exec (.minS i d a b) s = .next (s.land i.cycle)) ∧
    (∀ (i : Issue) (d a b : Fin 64) (s : State), (Instr.maxS i d a b).wf = true → (s.land i.cycle).gateP i = false → exec (.maxS i d a b) s = .next (s.land i.cycle)) ∧
    (∀ (i : Issue) (d a b : Fin 64) (s : State), (Instr.adds i d a b).wf = true → (s.land i.cycle).gateP i = false → exec (.adds i d a b) s = .next (s.land i.cycle)) ∧
    (∀ (i : Issue) (d a b : Fin 64) (s : State), (Instr.subs i d a b).wf = true → (s.land i.cycle).gateP i = false → exec (.subs i d a b) s = .next (s.land i.cycle)) ∧
    (∀ (i : Issue) (d a b : Fin 64) (s : State), (Instr.mul i d a b).wf = true → (s.land i.cycle).gateP i = false → exec (.mul i d a b) s = .next (s.land i.cycle)) ∧
    (∀ (i : Issue) (d a b : Fin 64) (s : State), (Instr.mulh i d a b).wf = true → (s.land i.cycle).gateP i = false → exec (.mulh i d a b) s = .next (s.land i.cycle)) ∧
    (∀ (i : Issue) (d a b : Fin 64) (s : State), (Instr.mulhu i d a b).wf = true → (s.land i.cycle).gateP i = false → exec (.mulhu i d a b) s = .next (s.land i.cycle)) ∧
    (∀ (i : Issue) (pd : Fin 16) (a b : Fin 64) (cond : BitVec 3) (s : State), (Instr.cmp i pd a b cond).wf = true → (s.land i.cycle).gateP i = false → exec (.cmp i pd a b cond) s = .next (s.land i.cycle)) ∧
    (∀ (i : Issue) (d a b : Fin 64) (s : State), (Instr.add64 i d a b).wf = true → (s.land i.cycle).gateP i = false → exec (.add64 i d a b) s = .next (s.land i.cycle)) ∧
    (∀ (i : Issue) (d a b : Fin 64) (s : State), (Instr.sub64 i d a b).wf = true → (s.land i.cycle).gateP i = false → exec (.sub64 i d a b) s = .next (s.land i.cycle)) ∧
    (∀ (i : Issue) (d a b : Fin 64) (s : State), (Instr.fadd i d a b).wf = true → (s.land i.cycle).gateP i = false → exec (.fadd i d a b) s = .next (s.land i.cycle)) ∧
    (∀ (i : Issue) (d a b : Fin 64) (s : State), (Instr.fsub i d a b).wf = true → (s.land i.cycle).gateP i = false → exec (.fsub i d a b) s = .next (s.land i.cycle)) ∧
    (∀ (i : Issue) (d a b : Fin 64) (s : State), (Instr.fmul i d a b).wf = true → (s.land i.cycle).gateP i = false → exec (.fmul i d a b) s = .next (s.land i.cycle)) ∧
    (∀ (i : Issue) (d a b : Fin 64) (s : State), (Instr.fma i d a b).wf = true → (s.land i.cycle).gateP i = false → exec (.fma i d a b) s = .next (s.land i.cycle)) ∧
    (∀ (i : Issue) (d a b : Fin 64) (s : State), (Instr.fms i d a b).wf = true → (s.land i.cycle).gateP i = false → exec (.fms i d a b) s = .next (s.land i.cycle)) ∧
    (∀ (i : Issue) (d a b : Fin 64) (s : State), (Instr.fmin i d a b).wf = true → (s.land i.cycle).gateP i = false → exec (.fmin i d a b) s = .next (s.land i.cycle)) ∧
    (∀ (i : Issue) (d a b : Fin 64) (s : State), (Instr.fmax i d a b).wf = true → (s.land i.cycle).gateP i = false → exec (.fmax i d a b) s = .next (s.land i.cycle)) ∧
    (∀ (i : Issue) (d a : Fin 64) (s : State), (Instr.fabs i d a).wf = true → (s.land i.cycle).gateP i = false → exec (.fabs i d a) s = .next (s.land i.cycle)) ∧
    (∀ (i : Issue) (d a : Fin 64) (s : State), (Instr.fneg i d a).wf = true → (s.land i.cycle).gateP i = false → exec (.fneg i d a) s = .next (s.land i.cycle)) ∧
    (∀ (i : Issue) (d a : Fin 64) (s : State), (Instr.fcvti i d a).wf = true → (s.land i.cycle).gateP i = false → exec (.fcvti i d a) s = .next (s.land i.cycle)) ∧
    (∀ (i : Issue) (d a : Fin 64) (s : State), (Instr.fcvtf i d a).wf = true → (s.land i.cycle).gateP i = false → exec (.fcvtf i d a) s = .next (s.land i.cycle)) ∧
    (∀ (i : Issue) (pd : Fin 16) (a b : Fin 64) (cond : BitVec 3) (s : State), (Instr.fcmp i pd a b cond).wf = true → (s.land i.cycle).gateP i = false → exec (.fcmp i pd a b cond) s = .next (s.land i.cycle)) ∧
    (∀ (i : Issue) (d a b : Fin 64) (s : State), (Instr.fdiv i d a b).wf = true → (s.land i.cycle).gateP i = false → exec (.fdiv i d a b) s = .next (s.land i.cycle)) ∧
    (∀ (i : Issue) (d a : Fin 64) (s : State), (Instr.fsqrt i d a).wf = true → (s.land i.cycle).gateP i = false → exec (.fsqrt i d a) s = .next (s.land i.cycle)) ∧
    (∀ (i : Issue) (d a : Fin 64) (imm : BitVec 7) (s : State), (Instr.ld i d a imm).wf = true → (s.land i.cycle).gateP i = false → exec (.ld i d a imm) s = .next (s.land i.cycle)) ∧
    (∀ (i : Issue) (d a : Fin 64) (imm : BitVec 7) (s : State), (Instr.st i d a imm).wf = true → (s.land i.cycle).gateP i = false → exec (.st i d a imm) s = .next (s.land i.cycle)) ∧
    (∀ (i : Issue) (d a b : Fin 64) (s : State), (Instr.ldx i d a b).wf = true → (s.land i.cycle).gateP i = false → exec (.ldx i d a b) s = .next (s.land i.cycle)) ∧
    (∀ (i : Issue) (d a b : Fin 64) (s : State), (Instr.stx i d a b).wf = true → (s.land i.cycle).gateP i = false → exec (.stx i d a b) s = .next (s.land i.cycle)) ∧
    (∀ (i : Issue) (d a : Fin 64) (s : State), (Instr.mov i d a).wf = true → (s.land i.cycle).gateP i = false → exec (.mov i d a) s = .next (s.land i.cycle)) ∧
    (∀ (i : Issue) (d a : Fin 64) (imm : BitVec 7) (s : State), (Instr.lld i d a imm).wf = true → (s.land i.cycle).gateP i = false → exec (.lld i d a imm) s = .next (s.land i.cycle)) ∧
    (∀ (i : Issue) (d a : Fin 64) (imm : BitVec 7) (s : State), (Instr.lst i d a imm).wf = true → (s.land i.cycle).gateP i = false → exec (.lst i d a imm) s = .next (s.land i.cycle)) ∧
    (∀ (i : Issue) (d : Fin 64) (port : BitVec 11) (fp : BitVec 2) (s : State), (Instr.xrd i d port fp).wf = true → (s.land i.cycle).gateP i = false → exec (.xrd i d port fp) s = .next (s.land i.cycle)) ∧
    (∀ (i : Issue) (d : Fin 64) (port : BitVec 11) (s : State), (Instr.xwr i d port).wf = true → (s.land i.cycle).gateP i = false → exec (.xwr i d port) s = .next (s.land i.cycle)) ∧
    (∀ (i : Issue) (d qa : Fin 64) (s : State), (Instr.qpop i d qa).wf = true → (s.land i.cycle).gateP i = false → exec (.qpop i d qa) s = .next (s.land i.cycle)) ∧
    (∀ (i : Issue) (d qa : Fin 64) (s : State), (Instr.qpush i d qa).wf = true → (s.land i.cycle).gateP i = false → exec (.qpush i d qa) s = .next (s.land i.cycle)) ∧
    (∀ (i : Issue) (d qa : Fin 64) (s : State), (Instr.qlev i d qa).wf = true → (s.land i.cycle).gateP i = false → exec (.qlev i d qa) s = .next (s.land i.cycle)) ∧
    (∀ (i : Issue) (qa qb : Fin 64) (s : State), (Instr.qmov i qa qb).wf = true → (s.land i.cycle).gateP i = false → exec (.qmov i qa qb) s = .next (s.land i.cycle)) ∧
    (∀ (i : Issue) (q : Fin 64) (port : BitVec 11) (s : State), (Instr.xq i q port).wf = true → (s.land i.cycle).gateP i = false → exec (.xq i q port) s = .next (s.land i.cycle)) ∧
    (∀ (i : Issue) (q : Fin 64) (port : BitVec 11) (s : State), (Instr.qx i q port).wf = true → (s.land i.cycle).gateP i = false → exec (.qx i q port) s = .next (s.land i.cycle)) ∧
    (∀ (i : Issue) (d a : Fin 64) (imm : BitVec 7) (s : State), (Instr.rld i d a imm).wf = true → (s.land i.cycle).gateP i = false → exec (.rld i d a imm) s = .next (s.land i.cycle)) ∧
    (∀ (i : Issue) (d a : Fin 64) (imm : BitVec 7) (s : State), (Instr.rst i d a imm).wf = true → (s.land i.cycle).gateP i = false → exec (.rst i d a imm) s = .next (s.land i.cycle)) ∧
    (∀ (i : Issue) (d a : Fin 64) (imm : BitVec 7) (s : State), (Instr.mst i d a imm).wf = true → (s.land i.cycle).gateP i = false → exec (.mst i d a imm) s = .next (s.land i.cycle)) ∧
    (∀ (i : Issue) (a : Fin 64) (consist : BitVec 16) (s : State), (Instr.msw i a consist).wf = true → (s.land i.cycle).noop i.cycle = false → (s.land i.cycle).gateP i = false → exec (.msw i a consist) s = .next (s.land i.cycle)) ∧
    (∀ (i : Issue) (d : Fin 64) (selr : BitVec 7) (s : State), (Instr.srd i d selr).wf = true → (s.land i.cycle).gateP i = false → exec (.srd i d selr) s = .next (s.land i.cycle)) ∧
    (∀ (i : Issue) (a : Fin 64) (imm : BitVec 7) (s : State), (Instr.scrb i a imm).wf = true → (s.land i.cycle).gateP i = false → exec (.scrb i a imm) s = .next (s.land i.cycle)) ∧
    (∀ (i : Issue) (a : Fin 64) (s : State), (Instr.arm i a).wf = true → (s.land i.cycle).gateP i = false → exec (.arm i a) s = .next (s.land i.cycle)) ∧
    (∀ (i : Issue) (a : Fin 64) (s : State), (Instr.darm i a).wf = true → (s.land i.cycle).gateP i = false → exec (.darm i a) s = .next (s.land i.cycle))

/-- For every state, register and predicate: a result of an operation issued at cycle t with latency L is read by
operations issued at t + L or later, and an operation issued earlier reads what it would read without it. Of two
results for one register the one that lands later is kept; landing together, that of the higher track, and on one
track the one issued later. W0 and P0 are never written. -/
def Obligations.ResultTiming : Prop :=
    (∀ (s : State) (i : Issue) (lat d u : Nat) (v : Word) (b : Bool), u < i.cycle + lat →
      ((s.result i lat d v).land u).rw d = (s.land u).rw d ∧ ((s.resultP i lat d b).land u).rp d = (s.land u).rp d) ∧
    (∀ (s : State) (i : Issue) (lat d u : Nat) (v : Word), d ≠ 0 → (∀ x ∈ s.eng.inflight, x.isPred = false → x.dst ≠ d) → i.cycle + lat ≤ u → ((s.result i lat d v).land u).rw d = v) ∧
    (∀ (s : State) (i : Issue) (lat d u : Nat) (b : Bool), d ≠ 0 → (∀ x ∈ s.eng.inflight, x.isPred = true → x.dst ≠ d) → i.cycle + lat ≤ u → ((s.resultP i lat d b).land u).rp d = b) ∧
    (∀ (s : State) (i j : Issue) (l k d u : Nat) (v w : Word), d ≠ 0 → (∀ x ∈ s.eng.inflight, x.isPred = false → x.dst ≠ d) → i.cycle + l ≤ u → j.cycle + k ≤ u →
      (((s.result i l d v).result j k d w).land u).rw d =
        if i.cycle + l < j.cycle + k ∨ (i.cycle + l = j.cycle + k ∧ i.track.val ≤ j.track.val) then w else v) ∧
    (∀ (s : State) (i j : Issue) (l k d u : Nat) (a b : Bool), d ≠ 0 → (∀ x ∈ s.eng.inflight, x.isPred = true → x.dst ≠ d) → i.cycle + l ≤ u → j.cycle + k ≤ u →
      (((s.resultP i l d a).resultP j k d b).land u).rp d =
        if i.cycle + l < j.cycle + k ∨ (i.cycle + l = j.cycle + k ∧ i.track.val ≤ j.track.val) then b else a) ∧
    ∀ (s : State) (i : Issue) (lat u : Nat) (v : Word) (b : Bool), ((s.result i lat 0 v).land u).rw 0 = 0#32 ∧ ((s.resultP i lat 0 b).land u).rp 0 = true

/-- For every register with W1C fields, every such bit, every master and every state: where the write carries a 1 for the
bit and a hardware event sets it in the same core cycle, the bit is set after the command; TTE_PF_STAT, which shows
the selected path, included. COMPLETE here (the conclusion is that exec answers a next state t): w1cClear. -/
def Obligations.W1cSetWins : Prop :=
    (∀ (m : Master) (addr : BitVec 20) (w hw : Word) (n : Nat) (s : State), aliasBase addr.toNat = none →
      accOf addr.toNat = some .w1c →
      addr.toNat ≠ Reg.ttePfStat →
      (w1cBits addr.toNat).getLsbD n = true →
      w.getLsbD n = true →
      hw.getLsbD n = true →
      s.boot.prog = false →
      ∃ t, exec (.w1cClear m addr w hw) s = .next t ∧ s.sameBut [.regs, .shadows, .mirror, .logm, .quem, .ecc, .eng, .ports, .xcnt, .logNext, .logCompl, .logCount, .logged, .hamper, .pair, .boot, .mtr, .ctl, .sec, .fab, .bus, .rtc, .freeCtr] t ∧
        t.rb addr.toNat n = true) ∧
    (∀ (m : Master) (addr : BitVec 20) (w hw : Word) (s : State), addr.toNat = Reg.ttePfStat →
      bit w 0 = true →
      bit hw 0 = true →
      s.boot.prog = false →
      ∃ t, exec (.w1cClear m addr w hw) s = .next t ∧ s.sameBut [.regs, .shadows, .mirror, .logm, .quem, .ecc, .eng, .ports, .xcnt, .logNext, .logCompl, .logCount, .logged, .hamper, .pair, .boot, .mtr, .ctl, .sec, .fab, .bus, .rtc, .freeCtr] t ∧
        bit (t.regNow Reg.ttePfStat) 0 = true)

/-- HOST_DATA_PORT_READ of the head cell's word removes that word, drives its low half and latches its high half;
HOST_READ_HIGH_HALF of a POP register, whatever is latched and however early, removes no word from any queue. COMPLETE
here (the conclusion is that exec answers a next state t): hostDataPortRead, hostReadHighHalf. -/
def Obligations.HostPopHalves : Prop :=
    (∀ (q : Fin 64) (gapNs : Nat) (w : Word) (ws : List Word) (s : State), 20 ≤ gapNs →
      qSize s q.val ≠ 0 →
      qCons s q.val = epHost →
      sget [] s.qcell q.val = w :: ws →
      ∃ t, exec (.hostDataPortRead q gapNs none) s = .next t ∧ s.sameBut [.regs, .mirror, .logm, .quem, .ecc, .qrd, .qcell, .ports, .xcnt, .host, .logNext, .logCompl, .logCount, .logged, .bus] t ∧
        t.host.hd = half w 0 ∧
        t.host.latch = some (Reg.queQData q.val + 2, half w 1) ∧
        sget [] t.qcell q.val = ws ∧
        qLevel t q.val = qLevel s q.val - 1 ∧
        sget 0 t.qrd q.val = (sget 0 s.qrd q.val + 1) % qSize s q.val) ∧
    (∀ (addr : BitVec 20) (gapNs : Nat) (s : State), (Instr.hostReadHighHalf addr gapNs).wf = true →
      accOf (addr.toNat - 2) = some .pop →
      ∃ t, exec (.hostReadHighHalf addr gapNs) s = .next t ∧ s.sameBut [.regs, .mirror, .logm, .quem, .ecc, .qrd, .qcell, .ports, .xcnt, .host, .logNext, .logCompl, .logCount, .logged, .bus] t ∧
        t.qcell = s.qcell ∧
        t.qrd = s.qrd ∧
        t.quem = s.quem ∧
        (∀ q, qLevel t q = qLevel s q))

/-- QPUSH by the engine, ISLAND_QUEUE_PUSH by an island and HOST_PUSH by the host, each as the producer of a full queue:
queue memory, the fill level, the head and every earlier word stay, the overflow count rises by one to at most 65,535,
and OVERFLOW is set. QPOP by the engine as the consumer of an empty queue puts 0xDEAD_0000 + q under way with the
latency of every pop; HOST_DATA_PORT_READ by the host drives and latches the halves of that word at once; EMPTY is
set, and queue memory, the fill level and the head stay. -/
def Obligations.QueueEnds : Prop :=
    (∀ (i : Issue) (d qa : Fin 64) (s : State), (Instr.qpush i d qa).wf = true →
      issueGoes i s →
      qSize s qa.val ≠ 0 →
      qProd s qa.val = epEngine →
      qSize s qa.val ≤ qLevel s qa.val →
      ∃ t, exec (.qpush i d qa) s = .next t ∧ s.sameBut [.regs, .mirror, .logm, .quem, .ecc, .eng, .ports, .xcnt, .logNext, .logCompl, .logCount, .logged, .bus] t ∧
        t.quem = s.quem ∧
        qLevel t qa.val = qLevel s qa.val ∧
        sget 0 t.qrd qa.val = sget 0 s.qrd qa.val ∧
        t.rf (Reg.queQCnt qa.val) 15 0 = min (s.rf (Reg.queQCnt qa.val) 15 0 + 1) 65535 ∧
        t.rb (Reg.queQStat qa.val) 1 = true) ∧
    (∀ (q : Fin 64) (island : Fin 25) (unit : BitVec 8) (ws : List Word) (w : Word) (s : State), ws = [w] →
      qSize s q.val ≠ 0 →
      qProd s q.val = epIsland island.val unit.toNat →
      qSize s q.val ≤ qLevel s q.val →
      ∃ t, exec (.islandQueuePush q island unit ws) s = .next t ∧ s.sameBut [.regs, .mirror, .logm, .quem, .ecc, .ports, .xcnt, .logNext, .logCompl, .logCount, .logged, .bus] t ∧
        t.quem = s.quem ∧
        qLevel t q.val = qLevel s q.val ∧
        sget 0 t.qrd q.val = sget 0 s.qrd q.val ∧
        t.rf (Reg.queQCnt q.val) 15 0 = min (s.rf (Reg.queQCnt q.val) 15 0 + 1) 65535 ∧
        t.rb (Reg.queQStat q.val) 1 = true) ∧
    (∀ (q : Fin 64) (w : Word) (s : State), qSize s q.val ≠ 0 →
      qProd s q.val = epHost →
      qSize s q.val ≤ qLevel s q.val →
      s.boot.prog = false →
      ∃ t, exec (.hostPush q w) s = .next t ∧ s.sameBut [.regs, .shadows, .mirror, .logm, .quem, .ecc, .eng, .ports, .xcnt, .logNext, .logCompl, .logCount, .logged, .hamper, .pair, .boot, .mtr, .ctl, .sec, .fab, .bus, .rtc, .freeCtr] t ∧
        t.quem = s.quem ∧
        qLevel t q.val = qLevel s q.val ∧
        sget 0 t.qrd q.val = sget 0 s.qrd q.val ∧
        t.rf (Reg.queQCnt q.val) 15 0 = min (s.rf (Reg.queQCnt q.val) 15 0 + 1) 65535 ∧
        t.rb (Reg.queQStat q.val) 1 = true) ∧
    (∀ (i : Issue) (d qa : Fin 64) (s : State), (Instr.qpop i d qa).wf = true →
      issueGoes i s →
      qSize s qa.val ≠ 0 →
      qCons s qa.val = epEngine →
      qLevel s qa.val = 0 →
      ∃ t, exec (.qpop i d qa) s = .next t ∧ s.sameBut [.regs, .mirror, .logm, .ecc, .eng, .qrd, .ports, .xcnt, .logNext, .logCompl, .logCount, .logged, .bus] t ∧
        resultIn i s t 4 d.val (w32 (0xDEAD0000 + qa.val)) ∧
        t.rb (Reg.queQStat qa.val) 0 = true ∧
        t.quem = s.quem ∧
        qLevel t qa.val = qLevel s qa.val ∧
        t.qrd = s.qrd) ∧
    (∀ (q : Fin 64) (gapNs : Nat) (s : State), 20 ≤ gapNs →
      qSize s q.val ≠ 0 →
      qCons s q.val = epHost →
      sget [] s.qcell q.val = [] →
      qLevel s q.val = 0 →
      ∃ t, exec (.hostDataPortRead q gapNs none) s = .next t ∧ s.sameBut [.regs, .mirror, .logm, .quem, .ecc, .qrd, .qcell, .ports, .xcnt, .host, .logNext, .logCompl, .logCount, .logged, .bus] t ∧
        t.host.hd = half (w32 (0xDEAD0000 + q.val)) 0 ∧
        t.host.latch = some (Reg.queQData q.val + 2, half (w32 (0xDEAD0000 + q.val)) 1) ∧
        t.host.latch.isSome = true ∧
        t.rb (Reg.queQStat q.val) 0 = true ∧
        t.quem = s.quem ∧
        qLevel t q.val = qLevel s q.val ∧
        t.qrd = s.qrd)

/-- For every circuit c and accumulator j, and every contribution whose binary32 product is finite: the 96-bit value 2^32
TOT + FRAC after accumulate is the value before plus N, the nearest integer of x' times K, where TOT stays within 64
bits; beyond them TOT is the bound; no other accumulator changes. Where the product is not finite the spec states no N
(assumption 22). -/
def Obligations.AccumulatorExact : Prop :=
    ∀ (c j m : Nat) (x : FRes) (s : State), c < 8 → j < 9 → fIsFin (rMul (accX x m) (fv accK)).1 = true →
      let N := fToInt (rMul (accX x m) (fv accK)).1
      let A : Int := totOf s c j * 2 ^ 32 + ((s.reg (Reg.mtrFrac c j)).toNat : Int) + N
      let t := accumulate s c j m x
      totOf t c j = max (-(2 ^ 63)) (min (2 ^ 63 - 1) (A / 2 ^ 32)) ∧ ((t.reg (Reg.mtrFrac c j)).toNat : Int) = A % 2 ^ 32 ∧
      (-(2 ^ 63) ≤ A / 2 ^ 32 → A / 2 ^ 32 < 2 ^ 63 → totOf t c j * 2 ^ 32 + ((t.reg (Reg.mtrFrac c j)).toNat : Int) = A) ∧
      ∀ c' j', c' < 8 → j' < 9 → (c', j') ≠ (c, j) → totOf t c' j' = totOf s c' j' ∧ t.reg (Reg.mtrFrac c' j') = s.reg (Reg.mtrFrac c' j')

/-- POWER_ON_START, RETURN_START, WARM_START, SIDING_STRAP_POLL, PROG_HOLD, PROG_RELEASE: where the conditions of the
rules hold, the command answers a next state in phase 0 with the cause of the start in SYS_RSTCAUSE; the fuses, FeRAM,
the configuration store and log SRAM stay as they were, and a warm start keeps the field islands. SUPPLY_VALID ends
the count of supply valid; SYS_RESET_WRITE with the key requests a warm start while supply is valid, outside phases 8
and 9. While PROG_N is low every row of the register bus, the fabric, the clock registers and the security island
leaves the state as it is (R450). The model's choices: which start follows supply valid (log entry 81: phase 9 or
SYS_RSTCAUSE 0), the restart from siding mode as a warm start by master 0 (log entry 66), the strap as an operand of
the polls (log entry 71). COMPLETE here (the conclusion is that exec answers a next state t): powerOnStart,
returnStart, warmStart, sidingStrapPoll, progHold, progRelease, supplyValid, sysResetWrite. -/
def Obligations.StartsFromRomEntry : Prop :=
    (∀ (s : State), s.boot.supplyOk = true →
      s.boot.prog = false →
      s.boot.returnDue = false →
      (s.reg Reg.sysRstcause = 0#32 ∨ phaseOf s = 9) →
      ∃ t, exec .powerOnStart s = .next t ∧ s.sameBut [.regs, .shadows, .mirror, .data, .quem, .code, .ecc, .eng, .image, .qrd, .qcell, .ports, .xcnt, .host, .logged, .hattn, .hamper, .di, .dout, .ao, .supply, .stime, .pair, .boot, .mtr, .ctl, .sec, .fab, .bus, .lcd, .rtc] t ∧
        phaseOf t = 0 ∧
        t.reg Reg.sysRstcause = 1#32 ∧
        t.sec.lcn = s.sec.lcn ∧
        t.sec.retired = s.sec.retired) ∧
    (∀ (s : State), s.boot.supplyOk = true →
      s.boot.prog = false →
      s.boot.returnDue = true →
      phaseOf s = 9 →
      ∃ t, exec .returnStart s = .next t ∧ s.sameBut [.regs, .shadows, .mirror, .data, .quem, .code, .ecc, .eng, .image, .qrd, .qcell, .ports, .xcnt, .host, .logged, .hattn, .hamper, .di, .dout, .ao, .supply, .stime, .pair, .boot, .mtr, .ctl, .sec, .fab, .bus, .lcd, .rtc] t ∧
        phaseOf t = 0 ∧
        t.reg Reg.sysRstcause = 2#32 ∧
        t.sec.lcn = s.sec.lcn ∧
        t.sec.retired = s.sec.retired) ∧
    (∀ (k : Nat) (s : State), s.boot.warmReq = some k →
      s.boot.prog = false →
      (s.eng.released = true → s.rb Reg.tteStat 3 = true) →
      ∃ t, exec .warmStart s = .next t ∧ s.sameBut [.regs, .shadows, .mirror, .data, .quem, .code, .ecc, .eng, .image, .qrd, .qcell, .ports, .xcnt, .host, .logged, .hattn, .hamper, .di, .dout, .ao, .supply, .stime, .pair, .boot, .mtr, .ctl, .sec, .fab, .bus, .lcd, .rtc] t ∧
        phaseOf t = 0 ∧
        t.reg Reg.sysRstcause = w32 (4 + 8 * k) ∧
        t.di = s.di ∧
        t.dout = s.dout ∧
        t.ao = s.ao ∧
        t.supply = s.supply ∧
        t.sec.lcn = s.sec.lcn) ∧
    (∀ (strap : Bool) (s : State), s.boot.siding = true →
      s.sec.sidingStored = true →
      strap = false →
      ∃ t, exec (.sidingStrapPoll strap) s = .next t ∧ s.sameBut [.regs, .shadows, .mirror, .data, .quem, .code, .ecc, .eng, .image, .qrd, .qcell, .ports, .xcnt, .host, .logged, .hattn, .hamper, .di, .dout, .ao, .supply, .stime, .pair, .boot, .mtr, .ctl, .sec, .fab, .bus, .lcd, .rtc] t ∧
        phaseOf t = 0 ∧
        t.reg Reg.sysRstcause = 4#32 ∧
        t.sec.lcn = s.sec.lcn) ∧
    (∀ (strap : Bool) (s : State), s.boot.siding = true →
      strap = true →
      ∃ t, exec (.sidingStrapPoll strap) s = .next t ∧ s.sameBut [.regs, .shadows, .mirror, .data, .quem, .code, .ecc, .eng, .image, .qrd, .qcell, .ports, .xcnt, .host, .logged, .hattn, .hamper, .di, .dout, .ao, .supply, .stime, .pair, .boot, .mtr, .ctl, .sec, .fab, .bus, .lcd, .rtc] t ∧
        t.boot = { s.boot with strap := true } ∧
        phaseOf t = phaseOf s ∧
        t.store = s.store ∧
        t.image = s.image) ∧
    (∀ (strap : Bool) (s : State), s.boot.siding = false →
      ∃ t, exec (.sidingStrapPoll strap) s = .next t ∧ s.sameBut [.regs, .shadows, .mirror, .data, .quem, .code, .ecc, .eng, .image, .qrd, .qcell, .ports, .xcnt, .host, .logged, .hattn, .hamper, .di, .dout, .ao, .supply, .stime, .pair, .boot, .mtr, .ctl, .sec, .fab, .bus, .lcd, .rtc] t ∧
        t = s) ∧
    (∀ (s : State), ∃ t, exec .progHold s = .next t ∧ s.sameBut [.regs, .shadows, .mirror, .data, .quem, .code, .ecc, .eng, .image, .qrd, .qcell, .ports, .xcnt, .host, .logged, .hattn, .hamper, .di, .dout, .ao, .supply, .stime, .pair, .boot, .mtr, .ctl, .sec, .fab, .bus, .lcd, .rtc] t ∧
        t.boot.prog = true ∧
        t.eng.released = false ∧
        t.eng.run = none ∧
        t.sec.lcn = s.sec.lcn ∧
        t.reg Reg.sysRstcause = 0#32) ∧
    (∀ (s : State), s.boot.prog = true →
      s.boot.supplyOk = true →
      s.boot.returnDue = false →
      s.reg Reg.sysRstcause = 0#32 →
      ∃ t, exec .progRelease s = .next t ∧ s.sameBut [.regs, .shadows, .mirror, .data, .quem, .code, .ecc, .eng, .image, .qrd, .qcell, .ports, .xcnt, .host, .logged, .hattn, .hamper, .di, .dout, .ao, .supply, .stime, .pair, .boot, .mtr, .ctl, .sec, .fab, .bus, .lcd, .rtc] t ∧
        phaseOf t = 0 ∧
        t.reg Reg.sysRstcause = 1#32 ∧
        t.boot.prog = false) ∧
    (∀ (s : State), s.boot.prog = true →
      s.boot.supplyOk = false →
      ∃ t, exec .progRelease s = .next t ∧ s.sameBut [.regs, .shadows, .mirror, .data, .quem, .code, .ecc, .eng, .image, .qrd, .qcell, .ports, .xcnt, .host, .logged, .hattn, .hamper, .di, .dout, .ao, .supply, .stime, .pair, .boot, .mtr, .ctl, .sec, .fab, .bus, .lcd, .rtc] t ∧
        t = { s with boot := { s.boot with prog := false } }) ∧
    (∀ (s : State), s.boot.counting = true →
      ∃ t, exec .supplyValid s = .next t ∧ s.sameBut [.regs, .hamper, .boot] t ∧
        t.boot.supplyOk = true ∧
        t.boot.counting = false ∧
        t.rb Reg.pwrStat 0 = true ∧
        (t.hamper.retryIn = if s.hamper.retry then some 60 else s.hamper.retryIn)) ∧
    (∀ (m : Master) (w : Word) (s : State), fld w 31 16 = 0xA55A →
      fld w 1 0 = 1 →
      phaseOf s ≠ 8 →
      phaseOf s ≠ 9 →
      s.boot.supplyOk = true →
      s.boot.prog = false →
      ∃ t, exec (.sysResetWrite m w) s = .next t ∧ s.sameBut [.regs, .shadows, .mirror, .logm, .quem, .ecc, .eng, .ports, .xcnt, .logNext, .logCompl, .logCount, .logged, .hamper, .pair, .boot, .mtr, .ctl, .sec, .fab, .bus, .rtc, .freeCtr] t ∧
        t.boot.warmReq = some (masterNo m)) ∧
    (∀ (m : Master) (w : Word) (s : State), (fld w 31 16 ≠ 0xA55A ∨ fld w 1 0 ≠ 1) →
      s.boot.prog = false →
      ∃ t, exec (.sysResetWrite m w) s = .next t ∧ s.sameBut [.regs, .shadows, .mirror, .logm, .quem, .ecc, .eng, .ports, .xcnt, .logNext, .logCompl, .logCount, .logged, .hamper, .pair, .boot, .mtr, .ctl, .sec, .fab, .bus, .rtc, .freeCtr] t ∧
        t = s) ∧
    (∀ (c : Instr) (s : State), heldRow c = true → c.wf = true → s.boot.prog = true → exec c s = .next s)

/-- ROM_PHASE, IMAGE_CHECKS, CONFIG_APPLICATION, MIGRATE, DISCOVERY_END, ENGINE_RELEASE, STAGGER_END,
FIELD_ISLAND_POWER_UP, OUT_PERMIT, START_ABANDON: where the state stands in the phase that the command belongs to, the
command answers a next state with the phase, the flags and the registers that the rules of chapter 04 give it.
IMAGE_CHECKS has a clause for a CONFIRMED slot, a STORED or TRIAL one below and at three tries, a SUPERSEDED one, for
no intact record and for no slot left; SIDING_MODE_ENTRY for the strap, for RETIRED and for refused slots. The model's
choices: START_ABANDON also ends siding mode, and IMAGE_CHECKS tries slots until one passes (log entry 70); what
ENGINE_RELEASE sets (log entry 67); the strap as an operand of ROM_PHASE (log entry 71). COMPLETE here (the conclusion
is that exec answers a next state t): romPhase, imageChecks, configApplication, migrate, discoveryEnd, engineRelease,
staggerEnd, fieldIslandPowerUp, outPermit, startAbandon, romMirrorRefresh, sidingModeEntry, sidingRefresh. -/
def Obligations.StartPhases : Prop :=
    (∀ (strap : Bool) (s : State), phaseOf s = 0 →
      s.boot.romDone = false →
      s.boot.prog = false →
      ∃ t, exec (.romPhase strap) s = .next t ∧ s.sameBut [.regs, .mirror, .logm, .feram, .ecc, .host, .logNext, .logCompl, .logCount, .logged, .opUs, .pwrCyc, .fabTime, .boot, .sec, .freeCtr] t ∧
        t.boot.romDone = true ∧
        t.boot.strap = strap ∧
        (strap = true → phaseOf t = 0) ∧
        (t.sec.retired = true → phaseOf t = 0) ∧
        (strap = false → t.sec.retired = false → phaseOf t = 1)) ∧
    (∀ (k : Nat) (s : State), phaseOf s = 1 →
      candidate s = some k →
      s.sec.noRec = false →
      slotState s.sec.srec k = 4 →
      ∃ t, exec .imageChecks s = .next t ∧ s.sameBut [.regs, .mirror, .logm, .code, .feram, .ecc, .image, .host, .logNext, .logCompl, .logCount, .logged, .boot, .sec] t ∧
        (imageRefusal s k = none → phaseOf t = 2 ∧ t.image.loaded = true ∧ t.image.slot = k ∧ t.sec.srec = s.sec.srec) ∧
        (imageRefusal s k ≠ none → slotRefused t k = true)) ∧
    (∀ (k : Nat) (s : State), phaseOf s = 1 →
      candidate s = some k →
      s.sec.noRec = false →
      s.sec.retired = false →
      (slotState s.sec.srec k = 2 ∨ slotState s.sec.srec k = 3) →
      s.sec.srec.tries < 3 →
      ∃ t, exec .imageChecks s = .next t ∧ s.sameBut [.regs, .mirror, .logm, .code, .feram, .ecc, .image, .host, .logNext, .logCompl, .logCount, .logged, .boot, .sec] t ∧
        (imageRefusal (putRecord { s.sec.srec with tries := s.sec.srec.tries + 1 } s) k = none → phaseOf t = 2 ∧ t.image.loaded = true ∧ t.image.slot = k ∧ t.sec.srec.tries = s.sec.srec.tries + 1 ∧ slotState t.sec.srec k = 3 ∧ t.rb Reg.sysStat 4 = true) ∧
        (imageRefusal (putRecord { s.sec.srec with tries := s.sec.srec.tries + 1 } s) k ≠ none → slotRefused t k = true ∧ slotState t.sec.srec k = 6)) ∧
    (∀ (k : Nat) (s : State), phaseOf s = 1 →
      candidate s = some k →
      s.sec.noRec = false →
      s.sec.retired = false →
      (slotState s.sec.srec k = 2 ∨ slotState s.sec.srec k = 3) →
      3 ≤ s.sec.srec.tries →
      ∃ t, exec .imageChecks s = .next t ∧ s.sameBut [.regs, .mirror, .logm, .code, .feram, .ecc, .image, .host, .logNext, .logCompl, .logCount, .logged, .boot, .sec] t ∧
        slotState t.sec.srec k = 6 ∧
        (candidate (slotFail k 2 s) = none → phaseOf t = 1 ∧ t.image = s.image)) ∧
    (∀ (k : Nat) (s : State), phaseOf s = 1 →
      candidate s = some k →
      s.sec.noRec = false →
      slotState s.sec.srec k = 5 →
      ∃ t, exec .imageChecks s = .next t ∧ s.sameBut [.regs, .mirror, .logm, .code, .feram, .ecc, .image, .host, .logNext, .logCompl, .logCount, .logged, .boot, .sec] t ∧
        (imageRefusal s k = none → phaseOf t = 2 ∧ t.image.loaded = true ∧ t.image.slot = k ∧ t.sec.srec = s.sec.srec ∧ t.rb Reg.secEvt 10 = true) ∧
        (imageRefusal s k ≠ none → slotRefused t k = true)) ∧
    (∀ (k : Nat) (s : State), phaseOf s = 1 →
      candidate s = some k →
      s.sec.noRec = true →
      ∃ t, exec .imageChecks s = .next t ∧ s.sameBut [.regs, .mirror, .logm, .code, .feram, .ecc, .image, .host, .logNext, .logCompl, .logCount, .logged, .boot, .sec] t ∧
        (imageRefusal s k = none → phaseOf t = 2 ∧ t.image.loaded = true ∧ t.image.slot = k) ∧
        (imageRefusal s k ≠ none → slotRefused t k = true)) ∧
    (∀ (s : State), phaseOf s = 1 →
      candidate s = none →
      ∃ t, exec .imageChecks s = .next t ∧ s.sameBut [.regs, .mirror, .logm, .code, .feram, .ecc, .image, .host, .logNext, .logCompl, .logCount, .logged, .boot, .sec] t ∧
        phaseOf t = 1 ∧
        t.image = s.image) ∧
    (∀ (s : State), phaseOf s = 2 →
      s.image.loaded = true →
      ∃ t, exec .configApplication s = .next t ∧ s.sameBut [.regs, .shadows, .mirror, .data, .logm, .feram, .store, .ecc, .image, .host, .logNext, .logCompl, .logCount, .logged, .boot, .mtr, .ctl, .sec, .fab, .rtc, .freeCtr] t ∧
        (∀ k d, selectGen (completeBuild s) (completeBuild s).image.seq = .inr (k, d) → phaseOf t = 1 ∧ t.image.loaded = false) ∧
        (∀ p src, selectGen (completeBuild s) (completeBuild s).image.seq = .inl (p, src) → (schemaCheck (completeBuild s).image.schema ≠ none ∨ generationRefusal (completeBuild s) (genBase p) (completeBuild s).image.schema ≠ none ∨ pairRefusal (applyRecords (loadData0 (completeBuild s).image.slot (resetConfig (completeBuild s))) (completeBuild s).image.schema (genRecords (completeBuild s) (genBase p))) (completeBuild s).image.schema (genRecords (completeBuild s) (genBase p)) ≠ none) → phaseOf t = 1 ∧ t.image.loaded = false) ∧
        (∀ p src, selectGen (completeBuild s) (completeBuild s).image.seq = .inl (p, src) → schemaCheck (completeBuild s).image.schema = none → generationRefusal (completeBuild s) (genBase p) (completeBuild s).image.schema = none → pairRefusal (applyRecords (loadData0 (completeBuild s).image.slot (resetConfig (completeBuild s))) (completeBuild s).image.schema (genRecords (completeBuild s) (genBase p))) (completeBuild s).image.schema (genRecords (completeBuild s) (genBase p)) = none → phaseOf t = if src || (genRecords (completeBuild s) (genBase p)).any (needsMigration (completeBuild s).image.schema) then 3 else 4)) ∧
    (∀ (src : Nat) (s : State), s.boot.migrate = some src →
      phaseOf s = 3 →
      ∃ t, exec (.migrate true) s = .next t ∧ s.sameBut [.regs, .mirror, .logm, .feram, .store, .ecc, .image, .host, .logNext, .logCompl, .logCount, .logged, .boot, .sec, .fab, .freeCtr] t ∧
        phaseOf t = 4 ∧
        t.boot.migrate = none) ∧
    (∀ (src : Nat) (s : State), s.boot.migrate = some src →
      phaseOf s = 3 →
      ∃ t, exec (.migrate false) s = .next t ∧ s.sameBut [.regs, .mirror, .logm, .feram, .store, .ecc, .image, .host, .logNext, .logCompl, .logCount, .logged, .boot, .sec, .fab, .freeCtr] t ∧
        phaseOf t = 1 ∧
        t.image.loaded = false) ∧
    (∀ (s : State), phaseOf s = 4 →
      ∃ t, exec .discoveryEnd s = .next t ∧ s.sameBut [.boot] t ∧
        t.boot.discDone = true) ∧
    (∀ (s : State), phaseOf s = 4 →
      s.boot.discDone = true →
      s.image.loaded = true →
      s.boot.prog = false →
      s.boot.supplyOk = true →
      (isWarm s = true ∨ s.hamper.startDone = true) →
      ∃ t, exec .engineRelease s = .next t ∧ s.sameBut [.regs, .mirror, .logm, .ecc, .eng, .host, .logNext, .logCompl, .logCount, .logged, .fabTime, .hamper, .pair, .mtr, .ctl, .fab, .bus, .lcd, .rtc, .freeCtr] t ∧
        t.eng.released = true ∧
        (isWarm s = false → phaseOf t = 5)) ∧
    (∀ (s : State), phaseOf s = 5 →
      s.boot.staggerLeft = 0 →
      s.hamper.ltPending = false →
      ∃ t, exec .staggerEnd s = .next t ∧ s.sameBut [.regs, .mirror, .logm, .ecc, .host, .logNext, .logCompl, .logCount, .logged, .boot] t ∧
        t.boot.staggerDone = true ∧
        phaseOf t = 6) ∧
    (∀ (s : State), phaseOf s = 6 →
      s.rf Reg.pwrStat 13 10 < 10 →
      s.hamper.ltPending = false →
      ∃ t, exec .fieldIslandPowerUp s = .next t ∧ s.sameBut [.regs, .hamper, .di, .dout, .ao, .supply] t ∧
        t.rf Reg.pwrStat 13 10 = s.rf Reg.pwrStat 13 10 + 1) ∧
    (∀ (s : State), phaseOf s = 6 →
      s.rf Reg.pwrStat 13 10 = 10 →
      drivenReady s = true →
      s.hamper.ltPending = false →
      ∃ t, exec .outPermit s = .next t ∧ s.sameBut [.regs, .mirror, .logm, .ecc, .host, .logNext, .logCompl, .logCount, .freeCtr] t ∧
        phaseOf t = 7 ∧
        t.rb Reg.sysStat 6 = true) ∧
    (∀ (s : State), s.eng.released = false →
      s.boot.prog = false →
      s.boot.supplyOk = false →
      phaseOf s ≠ 9 →
      ∃ t, exec .startAbandon s = .next t ∧ s.sameBut [.regs, .mirror, .logm, .ecc, .host, .logNext, .logCompl, .logCount, .boot] t ∧
        phaseOf t = 9 ∧
        t.boot.returnDue = false ∧
        t.boot.warmReq = none ∧
        t.boot.siding = false) ∧
    (∀ (s : State), phaseOf s ≤ 5 →
      ∃ t, exec .romMirrorRefresh s = .next t ∧ s.sameBut [.mirror, .ecc, .host] t ∧
        (t.cell Reg.sysPwrcyc).shown = w32 (s.pwrCyc % 2 ^ 24)) ∧
    (∀ (s : State), s.eng.released = false →
      s.boot.romDone = true →
      s.boot.prog = false →
      phaseOf s ≤ 3 →
      s.boot.strap = true →
      ∃ t, exec .sidingModeEntry s = .next t ∧ s.sameBut [.regs, .shadows, .mirror, .data, .logm, .feram, .ecc, .image, .host, .logNext, .logCompl, .logCount, .logged, .di, .dout, .ao, .supply, .boot, .sec, .fab] t ∧
        phaseOf t = 10 ∧
        t.boot.siding = true) ∧
    (∀ (s : State), s.eng.released = false →
      s.boot.romDone = true →
      s.boot.prog = false →
      phaseOf s ≤ 3 →
      s.boot.strap = false →
      s.sec.retired = true →
      ∃ t, exec .sidingModeEntry s = .next t ∧ s.sameBut [.regs, .shadows, .mirror, .data, .logm, .feram, .ecc, .image, .host, .logNext, .logCompl, .logCount, .logged, .di, .dout, .ao, .supply, .boot, .sec, .fab] t ∧
        phaseOf t = 10 ∧
        t.boot.siding = true ∧
        t.image.loaded = false) ∧
    (∀ (s : State), s.eng.released = false →
      s.boot.romDone = true →
      s.boot.prog = false →
      phaseOf s = 1 →
      s.boot.strap = false →
      s.sec.retired = false →
      candidate s = none →
      ∃ t, exec .sidingModeEntry s = .next t ∧ s.sameBut [.regs, .shadows, .mirror, .data, .logm, .feram, .ecc, .image, .host, .logNext, .logCompl, .logCount, .logged, .di, .dout, .ao, .supply, .boot, .sec, .fab] t ∧
        phaseOf t = 10 ∧
        t.boot.siding = true ∧
        t.image.loaded = false ∧
        t.rf Reg.pwrStat 13 10 = 0) ∧
    (∀ (s : State), sidingCause s = none →
      ∃ t, exec .sidingModeEntry s = .next t ∧ s.sameBut [.regs, .shadows, .mirror, .data, .logm, .feram, .ecc, .image, .host, .logNext, .logCompl, .logCount, .logged, .di, .dout, .ao, .supply, .boot, .sec, .fab] t ∧
        t = s) ∧
    (∀ (s : State), s.boot.siding = true →
      ∃ t, exec .sidingRefresh s = .next t ∧ s.sameBut [.regs, .mirror, .logm, .feram, .store, .ecc, .host, .logNext, .logCompl, .logCount, .logged, .hattn, .boot, .sec, .fab, .freeCtr] t ∧
        t.hattn = ((t.reg Reg.sysAttn &&& t.reg Reg.sysAttnEn &&& 0xFFFF#32) != 0#32))

/-- For each integer operation of tracks 0, 1 and 3 whose one effect is a general register result (ADD, SUB, AND, OR, XOR,
SHL, SHR, SAR, ADDI, SHLI, SHRI, SARI, LI, LIS, MIN, MAX, ADDS, SUBS, MUL, MULH, MULHU, MOV, QLEV, SRD): issued with
effect, the command answers a next state in which the value Table 2-4 gives is under way to register D with the
latency of the table; no part of the state but the engine changes, and in the engine only what lands and the one
result. COMPLETE here (the conclusion is that exec answers a next state t): add, sub, andW, orW, xorW, shl, shr, sar,
minS, maxS, adds, subs, mul, mulh, mulhu, addi, shli, shri, sari, li, lis, mov, qlev, srd. -/
def Obligations.IntegerResults : Prop :=
    (∀ (i : Issue) (d a b : Fin 64) (s : State), (Instr.add i d a b).wf = true →
      issueGoes i s →
      ∃ t, exec (.add i d a b) s = .next t ∧ s.sameBut [.eng] t ∧
        resultIn i s t 1 d.val ((s.land i.cycle).rw a.val + (s.land i.cycle).rw b.val)) ∧
    (∀ (i : Issue) (d a b : Fin 64) (s : State), (Instr.sub i d a b).wf = true →
      issueGoes i s →
      ∃ t, exec (.sub i d a b) s = .next t ∧ s.sameBut [.eng] t ∧
        resultIn i s t 1 d.val ((s.land i.cycle).rw a.val - (s.land i.cycle).rw b.val)) ∧
    (∀ (i : Issue) (d a b : Fin 64) (s : State), (Instr.andW i d a b).wf = true →
      issueGoes i s →
      ∃ t, exec (.andW i d a b) s = .next t ∧ s.sameBut [.eng] t ∧
        resultIn i s t 1 d.val ((s.land i.cycle).rw a.val &&& (s.land i.cycle).rw b.val)) ∧
    (∀ (i : Issue) (d a b : Fin 64) (s : State), (Instr.orW i d a b).wf = true →
      issueGoes i s →
      ∃ t, exec (.orW i d a b) s = .next t ∧ s.sameBut [.eng] t ∧
        resultIn i s t 1 d.val ((s.land i.cycle).rw a.val ||| (s.land i.cycle).rw b.val)) ∧
    (∀ (i : Issue) (d a b : Fin 64) (s : State), (Instr.xorW i d a b).wf = true →
      issueGoes i s →
      ∃ t, exec (.xorW i d a b) s = .next t ∧ s.sameBut [.eng] t ∧
        resultIn i s t 1 d.val ((s.land i.cycle).rw a.val ^^^ (s.land i.cycle).rw b.val)) ∧
    (∀ (i : Issue) (d a b : Fin 64) (s : State), (Instr.shl i d a b).wf = true →
      issueGoes i s →
      ∃ t, exec (.shl i d a b) s = .next t ∧ s.sameBut [.eng] t ∧
        resultIn i s t 1 d.val ((s.land i.cycle).rw a.val <<< (((s.land i.cycle).rw b.val).toNat % 32))) ∧
    (∀ (i : Issue) (d a b : Fin 64) (s : State), (Instr.shr i d a b).wf = true →
      issueGoes i s →
      ∃ t, exec (.shr i d a b) s = .next t ∧ s.sameBut [.eng] t ∧
        resultIn i s t 1 d.val ((s.land i.cycle).rw a.val >>> (((s.land i.cycle).rw b.val).toNat % 32))) ∧
    (∀ (i : Issue) (d a b : Fin 64) (s : State), (Instr.sar i d a b).wf = true →
      issueGoes i s →
      ∃ t, exec (.sar i d a b) s = .next t ∧ s.sameBut [.eng] t ∧
        resultIn i s t 1 d.val (((s.land i.cycle).rw a.val).sshiftRight (((s.land i.cycle).rw b.val).toNat % 32))) ∧
    (∀ (i : Issue) (d a b : Fin 64) (s : State), (Instr.minS i d a b).wf = true →
      issueGoes i s →
      ∃ t, exec (.minS i d a b) s = .next t ∧ s.sameBut [.eng] t ∧
        (resultIn i s t 1 d.val (if ((s.land i.cycle).rw b.val).slt ((s.land i.cycle).rw a.val) then (s.land i.cycle).rw b.val else (s.land i.cycle).rw a.val))) ∧
    (∀ (i : Issue) (d a b : Fin 64) (s : State), (Instr.maxS i d a b).wf = true →
      issueGoes i s →
      ∃ t, exec (.maxS i d a b) s = .next t ∧ s.sameBut [.eng] t ∧
        (resultIn i s t 1 d.val (if ((s.land i.cycle).rw a.val).slt ((s.land i.cycle).rw b.val) then (s.land i.cycle).rw b.val else (s.land i.cycle).rw a.val))) ∧
    (∀ (i : Issue) (d a b : Fin 64) (s : State), (Instr.adds i d a b).wf = true →
      issueGoes i s →
      ∃ t, exec (.adds i d a b) s = .next t ∧ s.sameBut [.eng] t ∧
        resultIn i s t 1 d.val (sat32 (((s.land i.cycle).rw a.val).toInt + ((s.land i.cycle).rw b.val).toInt))) ∧
    (∀ (i : Issue) (d a b : Fin 64) (s : State), (Instr.subs i d a b).wf = true →
      issueGoes i s →
      ∃ t, exec (.subs i d a b) s = .next t ∧ s.sameBut [.eng] t ∧
        resultIn i s t 1 d.val (sat32 (((s.land i.cycle).rw a.val).toInt - ((s.land i.cycle).rw b.val).toInt))) ∧
    (∀ (i : Issue) (d a b : Fin 64) (s : State), (Instr.mul i d a b).wf = true →
      issueGoes i s →
      ∃ t, exec (.mul i d a b) s = .next t ∧ s.sameBut [.eng] t ∧
        resultIn i s t 3 d.val ((s.land i.cycle).rw a.val * (s.land i.cycle).rw b.val)) ∧
    (∀ (i : Issue) (d a b : Fin 64) (s : State), (Instr.mulh i d a b).wf = true →
      issueGoes i s →
      ∃ t, exec (.mulh i d a b) s = .next t ∧ s.sameBut [.eng] t ∧
        resultIn i s t 3 d.val (w32i (((s.land i.cycle).rw a.val).toInt * ((s.land i.cycle).rw b.val).toInt / 2 ^ 32))) ∧
    (∀ (i : Issue) (d a b : Fin 64) (s : State), (Instr.mulhu i d a b).wf = true →
      issueGoes i s →
      ∃ t, exec (.mulhu i d a b) s = .next t ∧ s.sameBut [.eng] t ∧
        resultIn i s t 3 d.val (w32 (((s.land i.cycle).rw a.val).toNat * ((s.land i.cycle).rw b.val).toNat / 2 ^ 32))) ∧
    (∀ (i : Issue) (d a : Fin 64) (imm : BitVec 7) (s : State), (Instr.addi i d a imm).wf = true →
      issueGoes i s →
      ∃ t, exec (.addi i d a imm) s = .next t ∧ s.sameBut [.eng] t ∧
        resultIn i s t 1 d.val ((s.land i.cycle).rw a.val + imm.signExtend 32)) ∧
    (∀ (i : Issue) (d a : Fin 64) (imm : BitVec 7) (s : State), (Instr.shli i d a imm).wf = true →
      issueGoes i s →
      ∃ t, exec (.shli i d a imm) s = .next t ∧ s.sameBut [.eng] t ∧
        resultIn i s t 1 d.val ((s.land i.cycle).rw a.val <<< (imm.toNat % 32))) ∧
    (∀ (i : Issue) (d a : Fin 64) (imm : BitVec 7) (s : State), (Instr.shri i d a imm).wf = true →
      issueGoes i s →
      ∃ t, exec (.shri i d a imm) s = .next t ∧ s.sameBut [.eng] t ∧
        resultIn i s t 1 d.val ((s.land i.cycle).rw a.val >>> (imm.toNat % 32))) ∧
    (∀ (i : Issue) (d a : Fin 64) (imm : BitVec 7) (s : State), (Instr.sari i d a imm).wf = true →
      issueGoes i s →
      ∃ t, exec (.sari i d a imm) s = .next t ∧ s.sameBut [.eng] t ∧
        resultIn i s t 1 d.val (((s.land i.cycle).rw a.val).sshiftRight (imm.toNat % 32))) ∧
    (∀ (i : Issue) (d : Fin 64) (imm : BitVec 13) (s : State), (Instr.li i d imm).wf = true →
      issueGoes i s →
      ∃ t, exec (.li i d imm) s = .next t ∧ s.sameBut [.eng] t ∧
        resultIn i s t 1 d.val (imm.signExtend 32)) ∧
    (∀ (i : Issue) (d : Fin 64) (imm : BitVec 13) (s : State), (Instr.lis i d imm).wf = true →
      issueGoes i s →
      ∃ t, exec (.lis i d imm) s = .next t ∧ s.sameBut [.eng] t ∧
        resultIn i s t 1 d.val (((s.land i.cycle).rw d.val <<< (13 : Nat)) ||| imm.zeroExtend 32)) ∧
    (∀ (i : Issue) (d a : Fin 64) (s : State), (Instr.mov i d a).wf = true →
      issueGoes i s →
      ∃ t, exec (.mov i d a) s = .next t ∧ s.sameBut [.eng] t ∧
        resultIn i s t 1 d.val ((s.land i.cycle).rw a.val)) ∧
    (∀ (i : Issue) (d qa : Fin 64) (s : State), (Instr.qlev i d qa).wf = true →
      issueGoes i s →
      ∃ t, exec (.qlev i d qa) s = .next t ∧ s.sameBut [.eng] t ∧
        (resultIn i s t 2 d.val (if qSize (s.land i.cycle) qa.val = 0 then 0#32 else w32 (qLevel (s.land i.cycle) qa.val)))) ∧
    (∀ (i : Issue) (d : Fin 64) (selr : BitVec 7) (s : State), (Instr.srd i d selr).wf = true →
      issueGoes i s →
      ∃ t, exec (.srd i d selr) s = .next t ∧ s.sameBut [.eng] t ∧
        resultIn i s t 1 d.val (special (s.land i.cycle) selr.toNat i.cycle))

/-- SEL and FSEL always write, A when the predicate is true and B otherwise; CMP writes its predicate, ADD64 and SUB64 the
even pair; LOOP opens a loop with its TRIP, and LOOP_ITERATION_END repeats the body while iterations are left and then
closes the loop; NOP lands what its cycle reads and does nothing. Each answers a next state, and only the engine
changes. COMPLETE here (the conclusion is that exec answers a next state t): sel, fsel, cmp, add64, sub64, loopOpen,
loopIterationEnd, nop. -/
def Obligations.SelectAndPairs : Prop :=
    (∀ (i : Issue) (d a b : Fin 64) (s : State), (Instr.sel i d a b).wf = true →
      (s.land i.cycle).noop i.cycle = false →
      ∃ t, exec (.sel i d a b) s = .next t ∧ s.sameBut [.eng] t ∧
        (resultIn i s t 1 d.val (if (s.land i.cycle).gateP i then (s.land i.cycle).rw a.val else (s.land i.cycle).rw b.val))) ∧
    (∀ (i : Issue) (d a b : Fin 64) (s : State), (Instr.fsel i d a b).wf = true →
      (s.land i.cycle).noop i.cycle = false →
      ∃ t, exec (.fsel i d a b) s = .next t ∧ s.sameBut [.eng] t ∧
        (resultIn i s t 1 d.val (if (s.land i.cycle).gateP i then (s.land i.cycle).rw a.val else (s.land i.cycle).rw b.val))) ∧
    (∀ (i : Issue) (pd : Fin 16) (a b : Fin 64) (cond : BitVec 3) (s : State), (Instr.cmp i pd a b cond).wf = true →
      issueGoes i s →
      ∃ t, exec (.cmp i pd a b cond) s = .next t ∧ s.sameBut [.eng] t ∧
        predIn i s t 1 pd.val (intCond cond.toNat ((s.land i.cycle).rw a.val) ((s.land i.cycle).rw b.val))) ∧
    (∀ (i : Issue) (d a b : Fin 64) (s : State), (Instr.add64 i d a b).wf = true →
      issueGoes i s →
      ∃ t, exec (.add64 i d a b) s = .next t ∧ s.sameBut [.eng] t ∧
        t = result64 i d.val (pair64 (s.land i.cycle) a.val + pair64 (s.land i.cycle) b.val) (s.land i.cycle)) ∧
    (∀ (i : Issue) (d a b : Fin 64) (s : State), (Instr.sub64 i d a b).wf = true →
      issueGoes i s →
      ∃ t, exec (.sub64 i d a b) s = .next t ∧ s.sameBut [.eng] t ∧
        t = result64 i d.val (pair64 (s.land i.cycle) a.val - pair64 (s.land i.cycle) b.val) (s.land i.cycle)) ∧
    (∀ (i : Issue) (trip : BitVec 16) (s : State), (Instr.loopOpen i trip).wf = true →
      issueGoes i s →
      s.eng.loops.length < 2 →
      ∃ t, exec (.loopOpen i trip) s = .next t ∧ s.sameBut [.eng] t ∧
        t.eng = { (s.land i.cycle).eng with loops := trip.toNat :: (s.land i.cycle).eng.loops }) ∧
    (∀ (n : Nat) (r : List Nat) (s : State), s.eng.loops = n :: r →
      ∃ t, exec .loopIterationEnd s = .next t ∧ s.sameBut [.eng] t ∧
        (t.eng = { s.eng with loops := if n = 0 then r else (n - 1) :: r })) ∧
    (∀ (i : Issue) (s : State), ∃ t, exec (.nop i) s = .next t ∧ s.sameBut [.eng] t ∧
        t = s.land i.cycle)

/-- For each binary32 operation of track 2 with a register result (FADD, FSUB, FMUL, FMA, FMS, FMIN, FMAX, FDIV, FABS,
FNEG, FCVTI, FCVTF, FSQRT) and for FCMP: issued with effect, the command answers the state in which the flags of the
operation are raised in TTE_FP_STAT and its result is under way with the latency of Table 2-4, and only the engine,
the flag registers and the log may change. Whether FMA of an infinity times zero plus a NaN raises the invalid flag is
open (log entry 12), and the statement holds either way. The model's choices: the flags are raised with the issue (log
entry 8); FABS and FNEG of a NaN give the canonical NaN and of a denormal flush it (log entry 13). COMPLETE here (the
conclusion is that exec answers a next state t): fadd, fsub, fmul, fmin, fmax, fdiv, fma, fms, fabs, fneg, fcvti,
fcvtf, fsqrt, fcmp. -/
def Obligations.FloatResults : Prop :=
    (∀ (i : Issue) (d a b : Fin 64) (s : State), (Instr.fadd i d a b).wf = true →
      issueGoes i s →
      ∃ t, exec (.fadd i d a b) s = .next t ∧ s.sameBut [.regs, .logm, .ecc, .eng, .logNext, .logCompl, .logCount, .logged] t ∧
        t = ((s.land i.cycle).fpFlags (fAdd ((s.land i.cycle).rw a.val) ((s.land i.cycle).rw b.val)).2).result i 4 d.val (fAdd ((s.land i.cycle).rw a.val) ((s.land i.cycle).rw b.val)).1) ∧
    (∀ (i : Issue) (d a b : Fin 64) (s : State), (Instr.fsub i d a b).wf = true →
      issueGoes i s →
      ∃ t, exec (.fsub i d a b) s = .next t ∧ s.sameBut [.regs, .logm, .ecc, .eng, .logNext, .logCompl, .logCount, .logged] t ∧
        t = ((s.land i.cycle).fpFlags (fSub ((s.land i.cycle).rw a.val) ((s.land i.cycle).rw b.val)).2).result i 4 d.val (fSub ((s.land i.cycle).rw a.val) ((s.land i.cycle).rw b.val)).1) ∧
    (∀ (i : Issue) (d a b : Fin 64) (s : State), (Instr.fmul i d a b).wf = true →
      issueGoes i s →
      ∃ t, exec (.fmul i d a b) s = .next t ∧ s.sameBut [.regs, .logm, .ecc, .eng, .logNext, .logCompl, .logCount, .logged] t ∧
        t = ((s.land i.cycle).fpFlags (fMul ((s.land i.cycle).rw a.val) ((s.land i.cycle).rw b.val)).2).result i 4 d.val (fMul ((s.land i.cycle).rw a.val) ((s.land i.cycle).rw b.val)).1) ∧
    (∀ (i : Issue) (d a b : Fin 64) (s : State), (Instr.fmin i d a b).wf = true →
      issueGoes i s →
      ∃ t, exec (.fmin i d a b) s = .next t ∧ s.sameBut [.regs, .logm, .ecc, .eng, .logNext, .logCompl, .logCount, .logged] t ∧
        t = ((s.land i.cycle).fpFlags (fMin ((s.land i.cycle).rw a.val) ((s.land i.cycle).rw b.val)).2).result i 2 d.val (fMin ((s.land i.cycle).rw a.val) ((s.land i.cycle).rw b.val)).1) ∧
    (∀ (i : Issue) (d a b : Fin 64) (s : State), (Instr.fmax i d a b).wf = true →
      issueGoes i s →
      ∃ t, exec (.fmax i d a b) s = .next t ∧ s.sameBut [.regs, .logm, .ecc, .eng, .logNext, .logCompl, .logCount, .logged] t ∧
        t = ((s.land i.cycle).fpFlags (fMax ((s.land i.cycle).rw a.val) ((s.land i.cycle).rw b.val)).2).result i 2 d.val (fMax ((s.land i.cycle).rw a.val) ((s.land i.cycle).rw b.val)).1) ∧
    (∀ (i : Issue) (d a b : Fin 64) (s : State), (Instr.fdiv i d a b).wf = true →
      issueGoes i s →
      ∃ t, exec (.fdiv i d a b) s = .next t ∧ s.sameBut [.regs, .logm, .ecc, .eng, .logNext, .logCompl, .logCount, .logged] t ∧
        t = ((s.land i.cycle).fpFlags (fDiv ((s.land i.cycle).rw a.val) ((s.land i.cycle).rw b.val)).2).result i 16 d.val (fDiv ((s.land i.cycle).rw a.val) ((s.land i.cycle).rw b.val)).1) ∧
    (∀ (i : Issue) (d a b : Fin 64) (s : State), (Instr.fma i d a b).wf = true →
      issueGoes i s →
      ∃ t, exec (.fma i d a b) s = .next t ∧ s.sameBut [.regs, .logm, .ecc, .eng, .logNext, .logCompl, .logCount, .logged] t ∧
        t = ((s.land i.cycle).fpFlags (fMulAdd Config.fmaNanInvalid false ((s.land i.cycle).rw d.val) ((s.land i.cycle).rw a.val) ((s.land i.cycle).rw b.val)).2).result i 5 d.val (fMulAdd Config.fmaNanInvalid false ((s.land i.cycle).rw d.val) ((s.land i.cycle).rw a.val) ((s.land i.cycle).rw b.val)).1) ∧
    (∀ (i : Issue) (d a b : Fin 64) (s : State), (Instr.fms i d a b).wf = true →
      issueGoes i s →
      ∃ t, exec (.fms i d a b) s = .next t ∧ s.sameBut [.regs, .logm, .ecc, .eng, .logNext, .logCompl, .logCount, .logged] t ∧
        t = ((s.land i.cycle).fpFlags (fMulAdd Config.fmaNanInvalid true ((s.land i.cycle).rw d.val) ((s.land i.cycle).rw a.val) ((s.land i.cycle).rw b.val)).2).result i 5 d.val (fMulAdd Config.fmaNanInvalid true ((s.land i.cycle).rw d.val) ((s.land i.cycle).rw a.val) ((s.land i.cycle).rw b.val)).1) ∧
    (∀ (i : Issue) (d a : Fin 64) (s : State), (Instr.fabs i d a).wf = true →
      issueGoes i s →
      ∃ t, exec (.fabs i d a) s = .next t ∧ s.sameBut [.regs, .logm, .ecc, .eng, .logNext, .logCompl, .logCount, .logged] t ∧
        t = ((s.land i.cycle).fpFlags (fAbs ((s.land i.cycle).rw a.val)).2).result i 1 d.val (fAbs ((s.land i.cycle).rw a.val)).1) ∧
    (∀ (i : Issue) (d a : Fin 64) (s : State), (Instr.fneg i d a).wf = true →
      issueGoes i s →
      ∃ t, exec (.fneg i d a) s = .next t ∧ s.sameBut [.regs, .logm, .ecc, .eng, .logNext, .logCompl, .logCount, .logged] t ∧
        t = ((s.land i.cycle).fpFlags (fNeg ((s.land i.cycle).rw a.val)).2).result i 1 d.val (fNeg ((s.land i.cycle).rw a.val)).1) ∧
    (∀ (i : Issue) (d a : Fin 64) (s : State), (Instr.fcvti i d a).wf = true →
      issueGoes i s →
      ∃ t, exec (.fcvti i d a) s = .next t ∧ s.sameBut [.regs, .logm, .ecc, .eng, .logNext, .logCompl, .logCount, .logged] t ∧
        t = ((s.land i.cycle).fpFlags (fCvtI ((s.land i.cycle).rw a.val)).2).result i 3 d.val (fCvtI ((s.land i.cycle).rw a.val)).1) ∧
    (∀ (i : Issue) (d a : Fin 64) (s : State), (Instr.fcvtf i d a).wf = true →
      issueGoes i s →
      ∃ t, exec (.fcvtf i d a) s = .next t ∧ s.sameBut [.regs, .logm, .ecc, .eng, .logNext, .logCompl, .logCount, .logged] t ∧
        t = ((s.land i.cycle).fpFlags (fCvtF ((s.land i.cycle).rw a.val)).2).result i 3 d.val (fCvtF ((s.land i.cycle).rw a.val)).1) ∧
    (∀ (i : Issue) (d a : Fin 64) (s : State), (Instr.fsqrt i d a).wf = true →
      issueGoes i s →
      ∃ t, exec (.fsqrt i d a) s = .next t ∧ s.sameBut [.regs, .logm, .ecc, .eng, .logNext, .logCompl, .logCount, .logged] t ∧
        t = ((s.land i.cycle).fpFlags (fSqrt ((s.land i.cycle).rw a.val)).2).result i 16 d.val (fSqrt ((s.land i.cycle).rw a.val)).1) ∧
    (∀ (i : Issue) (pd : Fin 16) (a b : Fin 64) (cond : BitVec 3) (s : State), (Instr.fcmp i pd a b cond).wf = true →
      issueGoes i s →
      ∃ t, exec (.fcmp i pd a b cond) s = .next t ∧ s.sameBut [.regs, .logm, .ecc, .eng, .logNext, .logCompl, .logCount, .logged] t ∧
        t = ((s.land i.cycle).fpFlags (fCmp cond.toNat ((s.land i.cycle).rw a.val) ((s.land i.cycle).rw b.val)).2).resultP i 2 pd.val (fCmp cond.toNat ((s.land i.cycle).rw a.val) ((s.land i.cycle).rw b.val)).1)

/-- LD, LDX and LLD issue the word at the address computed from their operands, with bits 1:0 ignored and the address
modulo the memory; ST, STX and LST store W(D) there with fresh check bits, and every byte outside the four stored
reads as before. COMPLETE here (the conclusion is that exec answers a next state t): ld, ldx, st, stx, lld, lst. -/
def Obligations.MemoryOperations : Prop :=
    (∀ (i : Issue) (d a : Fin 64) (imm : BitVec 7) (s : State), (Instr.ld i d a imm).wf = true →
      issueGoes i s →
      (s.land i.cycle).eccAt mcData (dataAddr (addrM (s.land i.cycle) a.val imm)) = .ok →
      ∃ t, exec (.ld i d a imm) s = .next t ∧ s.sameBut [.regs, .logm, .ecc, .eng, .logNext, .logCompl, .logCount, .logged] t ∧
        resultIn i s t 3 d.val (memW s.data (dataAddr (addrM (s.land i.cycle) a.val imm)))) ∧
    (∀ (i : Issue) (d a b : Fin 64) (s : State), (Instr.ldx i d a b).wf = true →
      issueGoes i s →
      (s.land i.cycle).eccAt mcData (dataAddr (addrX (s.land i.cycle) a.val b.val)) = .ok →
      ∃ t, exec (.ldx i d a b) s = .next t ∧ s.sameBut [.regs, .logm, .ecc, .eng, .logNext, .logCompl, .logCount, .logged] t ∧
        resultIn i s t 3 d.val (memW s.data (dataAddr (addrX (s.land i.cycle) a.val b.val)))) ∧
    (∀ (i : Issue) (d a : Fin 64) (imm : BitVec 7) (s : State), (Instr.st i d a imm).wf = true →
      issueGoes i s →
      ∃ t, exec (.st i d a imm) s = .next t ∧ s.sameBut [.data, .ecc, .eng] t ∧
        memBytes t.data (dataAddr (addrM (s.land i.cycle) a.val imm)) 4 = leBytes 4 ((s.land i.cycle).rw d.val).toNat ∧
        t.eccAt mcData (dataAddr (addrM (s.land i.cycle) a.val imm)) = .ok ∧
        (∀ x, x < dataAddr (addrM (s.land i.cycle) a.val imm) ∨ dataAddr (addrM (s.land i.cycle) a.val imm) + 4 ≤ x → memGet t.data x = memGet s.data x)) ∧
    (∀ (i : Issue) (d a b : Fin 64) (s : State), (Instr.stx i d a b).wf = true →
      issueGoes i s →
      ∃ t, exec (.stx i d a b) s = .next t ∧ s.sameBut [.data, .ecc, .eng] t ∧
        memBytes t.data (dataAddr (addrX (s.land i.cycle) a.val b.val)) 4 = leBytes 4 ((s.land i.cycle).rw d.val).toNat ∧
        t.eccAt mcData (dataAddr (addrX (s.land i.cycle) a.val b.val)) = .ok ∧
        (∀ x, x < dataAddr (addrX (s.land i.cycle) a.val b.val) ∨ dataAddr (addrX (s.land i.cycle) a.val b.val) + 4 ≤ x → memGet t.data x = memGet s.data x)) ∧
    (∀ (i : Issue) (d a : Fin 64) (imm : BitVec 7) (s : State), (Instr.lld i d a imm).wf = true →
      issueGoes i s →
      (s.land i.cycle).eccAt mcLog (logAddr (addrM (s.land i.cycle) a.val imm)) = .ok →
      ∃ t, exec (.lld i d a imm) s = .next t ∧ s.sameBut [.regs, .eng] t ∧
        resultIn i s t 3 d.val (memW s.logm (logAddr (addrM (s.land i.cycle) a.val imm)))) ∧
    (∀ (i : Issue) (d a : Fin 64) (imm : BitVec 7) (s : State), (Instr.lst i d a imm).wf = true →
      issueGoes i s →
      ∃ t, exec (.lst i d a imm) s = .next t ∧ s.sameBut [.logm, .ecc, .eng] t ∧
        memBytes t.logm (logAddr (addrM (s.land i.cycle) a.val imm)) 4 = leBytes 4 ((s.land i.cycle).rw d.val).toNat ∧
        t.eccAt mcLog (logAddr (addrM (s.land i.cycle) a.val imm)) = .ok ∧
        (∀ x, x < logAddr (addrM (s.land i.cycle) a.val imm) ∨ logAddr (addrM (s.land i.cycle) a.val imm) + 4 ≤ x → memGet t.logm x = memGet s.logm x))

/-- QPOP, QPUSH and QMOV by the engine, ISLAND_QUEUE_PUSH and ISLAND_QUEUE_POP by an island, HOST_PUSH and
HOST_DATA_PORT_READ by the host and HEAD_CELL_REFILL COMPLETE (exec answers a next state t) where each is the named
end of a queue that has a word or room: the head word is taken or the word stored at the tail, and the fill level
moves by one for each word; a QMOV of a queue to itself leaves the level. ISLAND_QUEUE_PUSH stores its words one
behind the other at the tail and leaves every other byte and the head; ISLAND_QUEUE_POP moves the head on, so that
each word stands one place nearer the head, and leaves queue memory. A word that the producer pushes in the core cycle
of the removal goes to the place behind the last word, and the level stays, with no watermark event (R28; an operand
of ISLAND_QUEUE_POP and HOST_DATA_PORT_READ alone, log entry 83). QPOP, QPUSH and QMOV complete in every state in
which they issue, with the next state that the queue rules give. COMPLETE here (the conclusion is that exec answers a
next state t): qpop, qpush, qmov, islandQueuePush, islandQueuePop, hostDataPortRead, hostPush, headCellRefill. -/
def Obligations.QueueOperations : Prop :=
    (∀ (i : Issue) (d qa : Fin 64) (s : State), (Instr.qpop i d qa).wf = true →
      issueGoes i s →
      qSize s qa.val ≠ 0 →
      qCons s qa.val = epEngine →
      0 < qLevel s qa.val →
      s.eccAt mcQue (qAddr s qa.val 0) = .ok →
      ∃ t, exec (.qpop i d qa) s = .next t ∧ s.sameBut [.regs, .mirror, .logm, .ecc, .eng, .qrd, .ports, .xcnt, .logNext, .logCompl, .logCount, .logged, .bus] t ∧
        resultIn i s t 4 d.val (memW s.quem (qAddr s qa.val 0)) ∧
        qLevel t qa.val = qLevel s qa.val - 1 ∧
        t.quem = s.quem) ∧
    (∀ (i : Issue) (d qa : Fin 64) (s : State), (Instr.qpop i d qa).wf = true →
      issueGoes i s →
      ∃ t, exec (.qpop i d qa) s = .next t ∧ s.sameBut [.regs, .mirror, .logm, .ecc, .eng, .qrd, .ports, .xcnt, .logNext, .logCompl, .logCount, .logged, .bus] t ∧
        t = (qPop (s.land i.cycle) epEngine qa.val).2.result i 4 d.val (qPop (s.land i.cycle) epEngine qa.val).1) ∧
    (∀ (i : Issue) (d qa : Fin 64) (s : State), (Instr.qpush i d qa).wf = true →
      issueGoes i s →
      ∃ t, exec (.qpush i d qa) s = .next t ∧ s.sameBut [.regs, .mirror, .logm, .quem, .ecc, .eng, .ports, .xcnt, .logNext, .logCompl, .logCount, .logged, .bus] t ∧
        t = qPush (s.land i.cycle) epEngine qa.val ((s.land i.cycle).rw d.val)) ∧
    (∀ (i : Issue) (qa qb : Fin 64) (s : State), (Instr.qmov i qa qb).wf = true →
      issueGoes i s →
      ∃ t, exec (.qmov i qa qb) s = .next t ∧ s.sameBut [.regs, .mirror, .logm, .quem, .ecc, .eng, .qrd, .ports, .xcnt, .logNext, .logCompl, .logCount, .logged, .bus] t ∧
        t = queueMove qa.val qb.val (s.land i.cycle)) ∧
    (∀ (i : Issue) (d qa : Fin 64) (s : State), (Instr.qpush i d qa).wf = true →
      issueGoes i s →
      qSize s qa.val ≠ 0 →
      qProd s qa.val = epEngine →
      qLevel s qa.val < qSize s qa.val →
      qLevel s qa.val + 1 < 2 ^ 15 →
      ∃ t, exec (.qpush i d qa) s = .next t ∧ s.sameBut [.regs, .mirror, .logm, .quem, .ecc, .eng, .ports, .xcnt, .logNext, .logCompl, .logCount, .logged, .bus] t ∧
        memBytes t.quem (qAddr s qa.val (qLevel s qa.val)) 4 = leBytes 4 ((s.land i.cycle).rw d.val).toNat ∧
        qLevel t qa.val = qLevel s qa.val + 1 ∧
        (∀ x, x < qAddr s qa.val (qLevel s qa.val) ∨ qAddr s qa.val (qLevel s qa.val) + 4 ≤ x → memGet t.quem x = memGet s.quem x)) ∧
    (∀ (i : Issue) (qa qb : Fin 64) (s : State), (Instr.qmov i qa qb).wf = true →
      issueGoes i s →
      qa ≠ qb →
      qSize s qa.val ≠ 0 →
      qSize s qb.val ≠ 0 →
      qCons s qa.val = epEngine →
      qProd s qb.val = epEngine →
      0 < qLevel s qa.val →
      qLevel s qb.val < qSize s qb.val →
      qLevel s qb.val + 1 < 2 ^ 15 →
      s.eccAt mcQue (qAddr s qa.val 0) = .ok →
      ∃ t, exec (.qmov i qa qb) s = .next t ∧ s.sameBut [.regs, .mirror, .logm, .quem, .ecc, .eng, .qrd, .ports, .xcnt, .logNext, .logCompl, .logCount, .logged, .bus] t ∧
        t = qPushIn (qDrop (s.land i.cycle) qa.val) qb.val (memW s.quem (qAddr s qa.val 0))) ∧
    (∀ (i : Issue) (qa qb : Fin 64) (s : State), (Instr.qmov i qa qb).wf = true →
      issueGoes i s →
      qa = qb →
      qSize s qa.val ≠ 0 →
      qCons s qa.val = epEngine →
      qProd s qa.val = epEngine →
      0 < qLevel s qa.val →
      qLevel s qa.val < qSize s qa.val →
      ∃ t, exec (.qmov i qa qb) s = .next t ∧ s.sameBut [.regs, .mirror, .logm, .quem, .ecc, .eng, .qrd, .ports, .xcnt, .logNext, .logCompl, .logCount, .logged, .bus] t ∧
        t = queueTurn qa.val (s.land i.cycle) ∧
        qLevel t qa.val = qLevel s qa.val) ∧
    (∀ (q : Fin 64) (island : Fin 25) (unit : BitVec 8) (ws : List Word) (s : State), qSize s q.val ≠ 0 →
      qProd s q.val = epIsland island.val unit.toNat →
      qLevel s q.val + ws.length ≤ qSize s q.val →
      qLevel s q.val + ws.length < 2 ^ 15 →
      ∃ t, exec (.islandQueuePush q island unit ws) s = .next t ∧ s.sameBut [.regs, .mirror, .logm, .quem, .ecc, .ports, .xcnt, .logNext, .logCompl, .logCount, .logged, .bus] t ∧
        qLevel t q.val = qLevel s q.val + ws.length ∧
        (∀ k, k < ws.length → memBytes t.quem (qAddr s q.val (qLevel s q.val + k)) 4 = leBytes 4 (ws.getD k 0#32).toNat ∧ t.eccAt mcQue (qAddr s q.val (qLevel s q.val + k)) = .ok) ∧
        (∀ x, (∀ k, k < ws.length → x < qAddr s q.val (qLevel s q.val + k) ∨ qAddr s q.val (qLevel s q.val + k) + 4 ≤ x) → memGet t.quem x = memGet s.quem x) ∧
        t.qrd = s.qrd) ∧
    (∀ (q : Fin 64) (island : Fin 25) (unit : BitVec 8) (s : State), qSize s q.val ≠ 0 →
      qCons s q.val = epIsland island.val unit.toNat →
      0 < qLevel s q.val →
      s.eccAt mcQue (qAddr s q.val 0) = .ok →
      ∃ t, exec (.islandQueuePop q island unit none) s = .next t ∧ s.sameBut [.regs, .mirror, .logm, .quem, .ecc, .qrd, .ports, .xcnt, .logNext, .logCompl, .logCount, .logged, .bus] t ∧
        qLevel t q.val = qLevel s q.val - 1 ∧
        t.quem = s.quem ∧
        sget 0 t.qrd q.val = (sget 0 s.qrd q.val + 1) % qSize s q.val ∧
        (∀ k, qAddr t q.val k = qAddr s q.val (k + 1))) ∧
    (∀ (q : Fin 64) (island : Fin 25) (unit : BitVec 8) (push : Option Word) (w : Word) (s : State), push = some w →
      qSize s q.val ≠ 0 →
      qCons s q.val = epIsland island.val unit.toNat →
      0 < qLevel s q.val →
      s.eccAt mcQue (qAddr s q.val 0) = .ok →
      ∃ t, exec (.islandQueuePop q island unit push) s = .next t ∧ s.sameBut [.regs, .mirror, .logm, .quem, .ecc, .qrd, .ports, .xcnt, .logNext, .logCompl, .logCount, .logged, .bus] t ∧
        qLevel t q.val = qLevel s q.val ∧
        t.regs = s.regs ∧
        memBytes t.quem (qAddr s q.val (qLevel s q.val)) 4 = leBytes 4 w.toNat ∧
        sget 0 t.qrd q.val = (sget 0 s.qrd q.val + 1) % qSize s q.val ∧
        (∀ x, x < qAddr s q.val (qLevel s q.val) ∨ qAddr s q.val (qLevel s q.val) + 4 ≤ x → memGet t.quem x = memGet s.quem x)) ∧
    (∀ (q : Fin 64) (island : Fin 25) (unit : BitVec 8) (s : State), qSize s q.val ≠ 0 →
      qCons s q.val = epIsland island.val unit.toNat →
      qLevel s q.val = 0 →
      ∃ t, exec (.islandQueuePop q island unit none) s = .next t ∧ s.sameBut [.regs, .mirror, .logm, .quem, .ecc, .qrd, .ports, .xcnt, .logNext, .logCompl, .logCount, .logged, .bus] t ∧
        t.rb (Reg.queQStat q.val) 0 = true ∧
        qLevel t q.val = 0 ∧
        t.quem = s.quem ∧
        t.qrd = s.qrd) ∧
    (∀ (q : Fin 64) (gapNs : Nat) (push : Option Word) (w v : Word) (ws : List Word) (s : State), push = some w →
      20 ≤ gapNs →
      qSize s q.val ≠ 0 →
      qCons s q.val = epHost →
      sget [] s.qcell q.val = v :: ws →
      ∃ t, exec (.hostDataPortRead q gapNs push) s = .next t ∧ s.sameBut [.regs, .mirror, .logm, .quem, .ecc, .qrd, .qcell, .ports, .xcnt, .host, .logNext, .logCompl, .logCount, .logged, .bus] t ∧
        t.host.hd = half v 0 ∧
        sget [] t.qcell q.val = ws ∧
        qLevel t q.val = qLevel s q.val ∧
        t.regs = s.regs ∧
        memBytes t.quem (qAddr s q.val (qLevel s q.val)) 4 = leBytes 4 w.toNat ∧
        sget 0 t.qrd q.val = (sget 0 s.qrd q.val + 1) % qSize s q.val ∧
        (∀ x, x < qAddr s q.val (qLevel s q.val) ∨ qAddr s q.val (qLevel s q.val) + 4 ≤ x → memGet t.quem x = memGet s.quem x)) ∧
    (∀ (q : Fin 64) (w : Word) (s : State), qSize s q.val ≠ 0 →
      qProd s q.val = epHost →
      qLevel s q.val < qSize s q.val →
      qLevel s q.val + 1 < 2 ^ 15 →
      s.boot.prog = false →
      ∃ t, exec (.hostPush q w) s = .next t ∧ s.sameBut [.regs, .shadows, .mirror, .logm, .quem, .ecc, .eng, .ports, .xcnt, .logNext, .logCompl, .logCount, .logged, .hamper, .pair, .boot, .mtr, .ctl, .sec, .fab, .bus, .rtc, .freeCtr] t ∧
        memBytes t.quem (qAddr s q.val (qLevel s q.val)) 4 = leBytes 4 (w).toNat ∧
        qLevel t q.val = qLevel s q.val + 1 ∧
        (∀ x, x < qAddr s q.val (qLevel s q.val) ∨ qAddr s q.val (qLevel s q.val) + 4 ≤ x → memGet t.quem x = memGet s.quem x)) ∧
    (∀ (q : Fin 64) (gapNs : Nat) (w : Word) (ws : List Word) (s : State), 20 ≤ gapNs →
      qSize s q.val ≠ 0 →
      qCons s q.val = epHost →
      sget [] s.qcell q.val = w :: ws →
      ∃ t, exec (.hostDataPortRead q gapNs none) s = .next t ∧ s.sameBut [.regs, .mirror, .logm, .quem, .ecc, .qrd, .qcell, .ports, .xcnt, .host, .logNext, .logCompl, .logCount, .logged, .bus] t ∧
        t.host.hd = half w 0 ∧
        t.host.latch = some (Reg.queQData q.val + 2, half w 1) ∧
        sget [] t.qcell q.val = ws ∧
        qLevel t q.val = qLevel s q.val - 1) ∧
    (∀ (q : Fin 64) (s : State), qSize s q.val ≠ 0 →
      qCons s q.val = epHost →
      (sget [] s.qcell q.val).length < 2 →
      (sget [] s.qcell q.val).length < qLevel s q.val →
      s.eccAt mcQue (qAddr s q.val (sget [] s.qcell q.val).length) = .ok →
      s.boot.prog = false →
      ∃ t, exec (.headCellRefill q) s = .next t ∧ s.sameBut [.regs, .logm, .ecc, .qcell, .logNext, .logCompl, .logCount, .logged] t ∧
        sget [] t.qcell q.val = sget [] s.qcell q.val ++ [memW s.quem (qAddr s q.val (sget [] s.qcell q.val).length)])

/-- XRD, XWR, XQ and QX COMPLETE (exec answers a next state t) in every state in which they issue, CROSSING_WORD_ARRIVAL
in every state. XRD issues the word of an inbound port and its valid flag and leaves the port without a valid word;
XWR puts W(D), or behind a start gate the word that the gate passes, under way at an outbound port; XQ takes the valid
word of an inbound port and pushes it, and without one pushes nothing; QX puts the popped word, or the empty marker,
under way at a port of no gate. CROSSING_WORD_ARRIVAL makes the word under way, or for an inbound port with none the
word given, the valid word of its destination, and the island obeys a word that reaches an outbound port. The model's
choices: at an inbound port with no word under way the operand arrives (log entry 42), and QX where the engine is not
the consumer of the queue moves 0 (log entry 14). CROSSING_WORD_ARRIVAL at an inbound port whose word has not been
taken, and XWR to an outbound port of no start gate whose word is still under way: the new word replaces the old, and
the port's overrun count rises by one to at most 65,535. COMPLETE here (the conclusion is that exec answers a next
state t): xrd, xwr, xq, qx, crossingWordArrival. -/
def Obligations.CrossingOperations : Prop :=
    (∀ (i : Issue) (d : Fin 64) (port : BitVec 11) (fp : BitVec 2) (s : State), (Instr.xrd i d port fp).wf = true →
      issueGoes i s →
      ∃ t, exec (.xrd i d port fp) s = .next t ∧ s.sameBut [.regs, .logm, .ecc, .eng, .ports, .xcnt, .logNext, .logCompl, .logCount, .logged, .hamper, .ctl] t ∧
        t = ((takeWord port.toNat (s.land i.cycle)).2.2.result i 2 d.val (s.port port.toNat).word).resultP i 2 (12 + fp.toNat) (s.port port.toNat).valid ∧
        (t.port port.toNat).valid = false) ∧
    (∀ (i : Issue) (d : Fin 64) (port : BitVec 11) (s : State), (Instr.xwr i d port).wf = true →
      issueGoes i s →
      ∃ t, exec (.xwr i d port) s = .next t ∧ s.sameBut [.regs, .logm, .ecc, .eng, .ports, .xcnt, .logNext, .logCompl, .logCount, .logged, .hamper] t ∧
        (t.port port.toNat).transit = true ∧
        (portGroup port.toNat = none → (t.port port.toNat).src = (s.land i.cycle).rw d.val) ∧
        (∀ g, portGroup port.toNat = some g → (t.port port.toNat).src = (gateWrite (s.land i.cycle) g ((s.land i.cycle).rw d.val)).1)) ∧
    (∀ (i : Issue) (q : Fin 64) (port : BitVec 11) (s : State), (Instr.xq i q port).wf = true →
      issueGoes i s →
      ∃ t, exec (.xq i q port) s = .next t ∧ s.sameBut [.regs, .mirror, .logm, .quem, .ecc, .eng, .ports, .xcnt, .logNext, .logCompl, .logCount, .logged, .hamper, .ctl, .bus] t ∧
        t = portToQueue q.val port.toNat (s.land i.cycle) ∧
        (t.port port.toNat).valid = false ∧
        ((s.port port.toNat).valid = false → t.quem = s.quem ∧ qLevel t q.val = qLevel s q.val)) ∧
    (∀ (i : Issue) (q : Fin 64) (port : BitVec 11) (s : State), (Instr.xq i q port).wf = true →
      issueGoes i s →
      (s.port port.toNat).valid = true →
      ¬ (11 ≤ port.toNat / 64 ∧ port.toNat / 64 ≤ 20) →
      qSize s q.val ≠ 0 →
      qProd s q.val = epEngine →
      qLevel s q.val < qSize s q.val →
      qLevel s q.val + 1 < 2 ^ 15 →
      ∃ t, exec (.xq i q port) s = .next t ∧ s.sameBut [.regs, .mirror, .logm, .quem, .ecc, .eng, .ports, .xcnt, .logNext, .logCompl, .logCount, .logged, .hamper, .ctl, .bus] t ∧
        (t.port port.toNat).valid = false ∧
        qLevel t q.val = qLevel s q.val + 1 ∧
        memBytes t.quem (qAddr s q.val (qLevel s q.val)) 4 = leBytes 4 (s.port port.toNat).word.toNat) ∧
    (∀ (i : Issue) (q : Fin 64) (port : BitVec 11) (s : State), (Instr.qx i q port).wf = true →
      issueGoes i s →
      ∃ t, exec (.qx i q port) s = .next t ∧ s.sameBut [.regs, .mirror, .logm, .ecc, .eng, .qrd, .ports, .xcnt, .logNext, .logCompl, .logCount, .logged, .hamper, .bus] t ∧
        t = queueToPort q.val port.toNat (s.land i.cycle) ∧
        (qSize s q.val ≠ 0 → (t.port port.toNat).transit = true) ∧
        (qSize s q.val ≠ 0 → portGroup port.toNat = none → (t.port port.toNat).src = (qPop (s.land i.cycle) epEngine q.val).1)) ∧
    (∀ (port : BitVec 11) (w : Word) (s : State), (Instr.crossingWordArrival port w).wf = true →
      port.toNat % 64 < 32 →
      ∃ t, exec (.crossingWordArrival port w) s = .next t ∧ s.sameBut [.regs, .mirror, .logm, .quem, .ecc, .qrd, .ports, .xcnt, .logNext, .logCompl, .logCount, .logged, .di, .dout, .ao, .stime, .mtr, .sec, .bus, .lcd, .rtc] t ∧
        t = crossingArrival port.toNat w s ∧
        (t.port port.toNat).valid = true ∧
        ((t.port port.toNat).word = if (s.port port.toNat).transit then (s.port port.toNat).src else w)) ∧
    (∀ (port : BitVec 11) (w : Word) (s : State), (Instr.crossingWordArrival port w).wf = true →
      32 ≤ port.toNat % 64 →
      (s.port port.toNat).transit = true →
      ∃ t, exec (.crossingWordArrival port w) s = .next t ∧ s.sameBut [.regs, .mirror, .logm, .quem, .ecc, .qrd, .ports, .xcnt, .logNext, .logCompl, .logCount, .logged, .di, .dout, .ao, .stime, .mtr, .sec, .bus, .lcd, .rtc] t ∧
        t = islandWord (port.toNat / 64) (port.toNat % 64) (s.port port.toNat).src (s.arriveOut port.toNat) ∧
        ((s.arriveOut port.toNat).port port.toNat).valid = true ∧
        ((s.arriveOut port.toNat).port port.toNat).word = (s.port port.toNat).src ∧
        ((s.arriveOut port.toNat).port port.toNat).transit = false) ∧
    (∀ (port : BitVec 11) (w : Word) (s : State), (Instr.crossingWordArrival port w).wf = true →
      port.toNat % 64 < 32 →
      (s.port port.toNat).valid = true →
      ∃ t, exec (.crossingWordArrival port w) s = .next t ∧ s.sameBut [.regs, .mirror, .logm, .quem, .ecc, .qrd, .ports, .xcnt, .logNext, .logCompl, .logCount, .logged, .di, .dout, .ao, .stime, .mtr, .sec, .bus, .lcd, .rtc] t ∧
        (t.port port.toNat).valid = true ∧
        ((t.port port.toNat).word = if (s.port port.toNat).transit then (s.port port.toNat).src else w) ∧
        fld (sget 0#32 t.xcnt port.toNat) 15 0 = min (fld (sget 0#32 s.xcnt port.toNat) 15 0 + 1) 65535 ∧
        (∀ p, p ≠ port.toNat → t.port p = s.port p)) ∧
    (∀ (i : Issue) (d : Fin 64) (port : BitVec 11) (s : State), (Instr.xwr i d port).wf = true →
      issueGoes i s →
      portGroup port.toNat = none →
      (s.port port.toNat).transit = true →
      ∃ t, exec (.xwr i d port) s = .next t ∧ s.sameBut [.regs, .logm, .ecc, .eng, .ports, .xcnt, .logNext, .logCompl, .logCount, .logged, .hamper] t ∧
        (t.port port.toNat).src = (s.land i.cycle).rw d.val ∧
        (t.port port.toNat).transit = true ∧
        fld (sget 0#32 t.xcnt port.toNat) 15 0 = min (fld (sget 0#32 s.xcnt port.toNat) 15 0 + 1) 65535 ∧
        (∀ p, p ≠ port.toNat → t.port p = s.port p))

/-- MST, MSW, SCRB, ARM and DARM COMPLETE (exec answers a next state t) in every state in which they issue, SCRUB_LATE in
every state. MST writes the copy of the mirror cell that is not selected and leaves what a reader sees, and at an
address of no register changes nothing; MSW makes every pending cell in the blocks of its mask but SYS and TTE, whose
mirrors the boundary window switches, show the copy last written and leaves none pending, a cell not pending keeps
what it shows, and a cell of no masked block stays as it is (R53); in blocks 6, 7, 12 and 14 the copy last written is
the one that the publishing path of the block writes at the commit point; HD follows a cell that a read keeps
selected; SCRB makes a single error good, leaves a unit without error, and leaves the mark and the bytes of a unit
with a double error, which is counted (R71; where the unit lies in the log slot that record 0x107 takes, the record
replaces it); SCRUB_LATE sets its bit; ARM and DARM set and clear the arm flag named by W(A). COMPLETE here (the
conclusion is that exec answers a next state t): mst, msw, scrb, scrubLate, arm, darm. -/
def Obligations.MirrorScrubAndArm : Prop :=
    (∀ (i : Issue) (d a : Fin 64) (imm : BitVec 7) (r : RegRow) (s : State), (Instr.mst i d a imm).wf = true →
      issueGoes i s →
      regRow? (hostAddr (addrM (s.land i.cycle) a.val imm)) = some r →
      ∃ t, exec (.mst i d a imm) s = .next t ∧ s.sameBut [.mirror, .ecc, .eng] t ∧
        (t.cell (hostAddr (addrM (s.land i.cycle) a.val imm))).pend = true ∧
        (t.cell (hostAddr (addrM (s.land i.cycle) a.val imm))).shown = (s.cell (hostAddr (addrM (s.land i.cycle) a.val imm))).shown ∧
        ((if (t.cell (hostAddr (addrM (s.land i.cycle) a.val imm))).sel then (t.cell (hostAddr (addrM (s.land i.cycle) a.val imm))).c0 else (t.cell (hostAddr (addrM (s.land i.cycle) a.val imm))).c1) = (s.land i.cycle).rw d.val &&& ~~~(w32 r.rsv)) ∧
        (∀ x, x ≠ hostAddr (addrM (s.land i.cycle) a.val imm) → t.cell x = s.cell x)) ∧
    (∀ (i : Issue) (d a : Fin 64) (imm : BitVec 7) (s : State), (Instr.mst i d a imm).wf = true →
      issueGoes i s →
      ∃ t, exec (.mst i d a imm) s = .next t ∧ s.sameBut [.mirror, .ecc, .eng] t ∧
        t = (s.land i.cycle).mst (hostAddr (addrM (s.land i.cycle) a.val imm)) ((s.land i.cycle).rw d.val) ∧
        (regRow? (hostAddr (addrM (s.land i.cycle) a.val imm)) = none → t = (s.land i.cycle))) ∧
    (∀ (i : Issue) (a : Fin 64) (consist : BitVec 16) (s : State), (Instr.msw i a consist).wf = true →
      issueGoes i s →
      ∃ t, exec (.msw i a consist) s = .next t ∧ s.sameBut [.regs, .mirror, .logm, .ecc, .eng, .host, .logNext, .logCompl, .logCount, .logged] t ∧
        (∀ x, 2 ≤ x / 0x10000 → x / 0x10000 < 16 → x / 0x10000 ∉ [6, 7, 12, 14] → (fld ((s.land i.cycle).rw a.val) 15 0).testBit (x / 0x10000) = true → (t.cell x).shown = (s.cell x).last) ∧
        (∀ x, 2 ≤ x / 0x10000 → x / 0x10000 < 16 → (fld ((s.land i.cycle).rw a.val) 15 0).testBit (x / 0x10000) = true → (t.cell x).shown = (((bitsOf 16 (fld ((s.land i.cycle).rw a.val) 15 0 &&& 0xFFFC)).foldl commitHook (s.land i.cycle)).cell x).last) ∧
        (∀ x, (fld ((s.land i.cycle).rw a.val) 15 0).testBit (x / 0x10000) = false ∨ x / 0x10000 < 2 → t.cell x = s.cell x) ∧
        (∀ a, s.host.sel = some a → t.host.hd = half (t.cell (a / 4 * 4)).shown (a % 4 / 2)) ∧
        (∀ x, 2 ≤ x / 0x10000 → x / 0x10000 < 16 → (fld ((s.land i.cycle).rw a.val) 15 0).testBit (x / 0x10000) = true → (t.cell x).pend = false) ∧
        (∀ x, (fld ((s.land i.cycle).rw a.val) 15 0).testBit (x / 0x10000) = false → (t.cell x).shown = (s.cell x).shown)) ∧
    (∀ (i : Issue) (a : Fin 64) (imm : BitVec 7) (s : State), (Instr.scrb i a imm).wf = true →
      issueGoes i s →
      ∃ t, exec (.scrb i a imm) s = .next t ∧ s.sameBut [.regs, .logm, .ecc, .eng, .logNext, .logCompl, .logCount, .logged] t ∧
        (s.eccAt (scrubUnit (imm.toNat % 4) ((s.land i.cycle).rw a.val).toNat).1 (scrubUnit (imm.toNat % 4) ((s.land i.cycle).rw a.val).toNat).2 = .ok → t.ecc = s.ecc ∧ t.logm = s.logm) ∧
        t.data = s.data ∧
        t.quem = s.quem ∧
        t.code = s.code ∧
        (imm.getLsbD 6 = true → t.rf Reg.tteScrubPass (8 * (imm.toNat % 4) + 7) (8 * (imm.toNat % 4)) = (s.rf Reg.tteScrubPass (8 * (imm.toNat % 4) + 7) (8 * (imm.toNat % 4)) + 1) % 256)) ∧
    (∀ (i : Issue) (a : Fin 64) (imm : BitVec 7) (s : State), (Instr.scrb i a imm).wf = true →
      issueGoes i s →
      s.eccAt (scrubUnit (imm.toNat % 4) ((s.land i.cycle).rw a.val).toNat).1 (scrubUnit (imm.toNat % 4) ((s.land i.cycle).rw a.val).toNat).2 = .single →
      ∃ t, exec (.scrb i a imm) s = .next t ∧ s.sameBut [.regs, .logm, .ecc, .eng, .logNext, .logCompl, .logCount, .logged] t ∧
        t.eccAt (scrubUnit (imm.toNat % 4) ((s.land i.cycle).rw a.val).toNat).1 (scrubUnit (imm.toNat % 4) ((s.land i.cycle).rw a.val).toNat).2 = .ok) ∧
    (∀ (i : Issue) (a : Fin 64) (imm : BitVec 7) (s : State), (Instr.scrb i a imm).wf = true →
      issueGoes i s →
      s.eccAt (scrubUnit (imm.toNat % 4) ((s.land i.cycle).rw a.val).toNat).1 (scrubUnit (imm.toNat % 4) ((s.land i.cycle).rw a.val).toNat).2 = .double →
      ∃ t, exec (.scrb i a imm) s = .next t ∧ s.sameBut [.regs, .logm, .ecc, .eng, .logNext, .logCompl, .logCount, .logged] t ∧
        ((scrubUnit (imm.toNat % 4) ((s.land i.cycle).rw a.val).toNat).1 ≠ mcLog → t.eccAt (scrubUnit (imm.toNat % 4) ((s.land i.cycle).rw a.val).toNat).1 (scrubUnit (imm.toNat % 4) ((s.land i.cycle).rw a.val).toNat).2 = .double) ∧
        ((scrubUnit (imm.toNat % 4) ((s.land i.cycle).rw a.val).toNat).1 = mcLog → ((scrubUnit (imm.toNat % 4) ((s.land i.cycle).rw a.val).toNat).2 < 32 * (s.logNext.toNat % 8192) ∨ 32 * (s.logNext.toNat % 8192) + 32 ≤ (scrubUnit (imm.toNat % 4) ((s.land i.cycle).rw a.val).toNat).2) → t.eccAt (scrubUnit (imm.toNat % 4) ((s.land i.cycle).rw a.val).toNat).1 (scrubUnit (imm.toNat % 4) ((s.land i.cycle).rw a.val).toNat).2 = .double ∧ memBytes t.logm (scrubUnit (imm.toNat % 4) ((s.land i.cycle).rw a.val).toNat).2 4 = memBytes s.logm (scrubUnit (imm.toNat % 4) ((s.land i.cycle).rw a.val).toNat).2 4) ∧
        ((scrubUnit (imm.toNat % 4) ((s.land i.cycle).rw a.val).toNat).1 ≠ mcPtab → t.rf (Reg.tteEccCode + 4 * (scrubUnit (imm.toNat % 4) ((s.land i.cycle).rw a.val).toNat).1) 31 24 = min (s.rf (Reg.tteEccCode + 4 * (scrubUnit (imm.toNat % 4) ((s.land i.cycle).rw a.val).toNat).1) 31 24 + 1) 255) ∧
        t.data = s.data ∧
        t.quem = s.quem ∧
        t.code = s.code) ∧
    (∀ (mem : Fin 4) (seconds : BitVec 32) (s : State), (Instr.scrubLate mem seconds).wf = true →
      ∃ t, exec (.scrubLate mem seconds) s = .next t ∧ s.sameBut [.regs, .logm, .ecc, .logNext, .logCompl, .logCount, .logged] t ∧
        t.rb Reg.tteEccStat 13 = true) ∧
    (∀ (i : Issue) (a : Fin 64) (s : State), (Instr.arm i a).wf = true →
      issueGoes i s →
      ∃ t, exec (.arm i a) s = .next t ∧ s.sameBut [.regs, .eng] t ∧
        t.armed (fld ((s.land i.cycle).rw a.val) 7 0) = true) ∧
    (∀ (i : Issue) (a : Fin 64) (s : State), (Instr.darm i a).wf = true →
      issueGoes i s →
      ∃ t, exec (.darm i a) s = .next t ∧ s.sameBut [.regs, .eng] t ∧
        t.armed (fld ((s.land i.cycle).rw a.val) 7 0) = false)

/-- RLD and RST COMPLETE (exec answers a next state t) in every state in which they issue, REGISTER_WRITE, SHADOW_WRITE,
SET_ALIAS_WRITE, W1C_CLEAR and SYS_COMMIT in every state. RLD returns the working value of a readable register, 0 of a
WO register or an unassigned address; RST writes as the engine; the values that the engine, the fabric and the host
write to one register in one core cycle are applied in that order, so that of an RW register without an effect of its
own the host value stands; SHADOW_WRITE and REGISTER_WRITE to an SH register after release write its shadow and no
active value; REGISTER_WRITE of a W1C register clears the bits written as 1, SET_ALIAS_WRITE sets them, and W1C_CLEAR
leaves the bits set that events set in the same cycle; SYS_COMMIT joins its blocks to those pending. The rows of the
register bus have their effect while PROG_N is high (R450). That REGISTER_WRITE, SHADOW_WRITE and SET_ALIAS_WRITE at
any address are the bus write of that address is log entry 63, that RLD and RST ignore address bits 1:0 is log entry
62. COMPLETE here (the conclusion is that exec answers a next state t): rld, rst, shadowWrite, registerWrite,
setAliasWrite, w1cClear, sysCommit. -/
def Obligations.RegisterAccess : Prop :=
    (∀ (i : Issue) (d a : Fin 64) (imm : BitVec 7) (s : State), (Instr.rld i d a imm).wf = true →
      issueGoes i s →
      aliasBase (hostAddr (addrM (s.land i.cycle) a.val imm)) = none →
      (accOf (hostAddr (addrM (s.land i.cycle) a.val imm)) = some .ro ∨ accOf (hostAddr (addrM (s.land i.cycle) a.val imm)) = some .rw ∨ accOf (hostAddr (addrM (s.land i.cycle) a.val imm)) = some .sh ∨ accOf (hostAddr (addrM (s.land i.cycle) a.val imm)) = some .w1c) →
      ∃ t, exec (.rld i d a imm) s = .next t ∧ s.sameBut [.regs, .logm, .ecc, .eng, .logNext, .logCompl, .logCount, .logged] t ∧
        resultIn i s t 4 d.val ((s.land i.cycle).regNow (hostAddr (addrM (s.land i.cycle) a.val imm)))) ∧
    (∀ (i : Issue) (d a : Fin 64) (imm : BitVec 7) (s : State), (Instr.rld i d a imm).wf = true →
      issueGoes i s →
      ∃ t, exec (.rld i d a imm) s = .next t ∧ s.sameBut [.regs, .logm, .ecc, .eng, .logNext, .logCompl, .logCount, .logged] t ∧
        t = (engineRead (hostAddr (addrM (s.land i.cycle) a.val imm)) (s.land i.cycle)).2.result i 4 d.val (engineRead (hostAddr (addrM (s.land i.cycle) a.val imm)) (s.land i.cycle)).1 ∧
        (aliasBase (hostAddr (addrM (s.land i.cycle) a.val imm)) = none → (accOf (hostAddr (addrM (s.land i.cycle) a.val imm)) = none ∨ accOf (hostAddr (addrM (s.land i.cycle) a.val imm)) = some .wo) → resultIn i s t 4 d.val 0#32)) ∧
    (∀ (i : Issue) (d a : Fin 64) (imm : BitVec 7) (s : State), (Instr.rst i d a imm).wf = true →
      issueGoes i s →
      ∃ t, exec (.rst i d a imm) s = .next t ∧ s.sameBut [.regs, .shadows, .mirror, .logm, .quem, .ecc, .eng, .ports, .xcnt, .logNext, .logCompl, .logCount, .logged, .hamper, .pair, .boot, .mtr, .ctl, .sec, .fab, .bus, .rtc, .freeCtr] t ∧
        t = busWrite .engine (hostAddr (addrM (s.land i.cycle) a.val imm)) ((s.land i.cycle).rw d.val) (s.land i.cycle)) ∧
    (∀ (i : Issue) (d a : Fin 64) (imm : BitVec 7) (s : State), (Instr.rst i d a imm).wf = true →
      issueGoes i s →
      aliasBase (hostAddr (addrM (s.land i.cycle) a.val imm)) = none →
      accOf (hostAddr (addrM (s.land i.cycle) a.val imm)) = some .sh →
      s.eng.released = true →
      s.boot.prog = false →
      ∃ t, exec (.rst i d a imm) s = .next t ∧ s.sameBut [.regs, .shadows, .mirror, .logm, .quem, .ecc, .eng, .ports, .xcnt, .logNext, .logCompl, .logCount, .logged, .hamper, .pair, .boot, .mtr, .ctl, .sec, .fab, .bus, .rtc, .freeCtr] t ∧
        t.shadow (hostAddr (addrM (s.land i.cycle) a.val imm)) = (s.land i.cycle).rw d.val ∧
        t.regs = s.regs) ∧
    (∀ (m : Master) (addr : BitVec 20) (w : Word) (b : Nat) (s : State), (aliasBase addr.toNat = some b ∨ (aliasBase addr.toNat = none ∧ addr.toNat = b)) →
      isSh b = true →
      s.eng.released = true →
      s.boot.prog = false →
      ∃ t, exec (.shadowWrite m addr w) s = .next t ∧ s.sameBut [.regs, .shadows, .mirror, .logm, .quem, .ecc, .eng, .ports, .xcnt, .logNext, .logCompl, .logCount, .logged, .hamper, .pair, .boot, .mtr, .ctl, .sec, .fab, .bus, .rtc, .freeCtr] t ∧
        t.shadow b = w ∧
        t.regs = s.regs ∧
        (∀ a, a ≠ b → t.shadow a = s.shadow a)) ∧
    (∀ (addr : BitVec 20) (e f h : Option Word) (s : State), ∃ t, exec (.registerWrite addr e f h) s = .next t ∧ s.sameBut [.regs, .shadows, .mirror, .logm, .quem, .ecc, .eng, .ports, .xcnt, .logNext, .logCompl, .logCount, .logged, .hamper, .pair, .boot, .mtr, .ctl, .sec, .fab, .bus, .rtc, .freeCtr] t ∧
        t = sameCycleWrites addr.toNat e f h s) ∧
    (∀ (addr : BitVec 20) (e f h : Option Word) (v : Word) (s : State), aliasBase addr.toNat = none →
      accOf addr.toNat = some .rw →
      addr.toNat ∉ [Reg.mtrCalhold, Reg.mtrWcCtrl, Reg.ctlTsCtrl, Reg.parLease, Reg.parGate, Reg.secReq, Reg.secObjCtrl] →
      addr.toNat / 0x10000 ≠ 0xC →
      (h <|> f <|> e) = some v →
      s.boot.prog = false →
      ∃ t, exec (.registerWrite addr e f h) s = .next t ∧ s.sameBut [.regs, .shadows, .mirror, .logm, .quem, .ecc, .eng, .ports, .xcnt, .logNext, .logCompl, .logCount, .logged, .hamper, .pair, .boot, .mtr, .ctl, .sec, .fab, .bus, .rtc, .freeCtr] t ∧
        t.reg addr.toNat = v &&& ~~~(regRsv addr.toNat) ∧
        s.regsBut [addr.toNat] t) ∧
    (∀ (addr : BitVec 20) (e f h : Option Word) (v : Word) (b : Nat) (s : State), (aliasBase addr.toNat = some b ∨ (aliasBase addr.toNat = none ∧ addr.toNat = b)) →
      isSh b = true →
      s.eng.released = true →
      (h <|> f <|> e) = some v →
      s.boot.prog = false →
      ∃ t, exec (.registerWrite addr e f h) s = .next t ∧ s.sameBut [.regs, .shadows, .mirror, .logm, .quem, .ecc, .eng, .ports, .xcnt, .logNext, .logCompl, .logCount, .logged, .hamper, .pair, .boot, .mtr, .ctl, .sec, .fab, .bus, .rtc, .freeCtr] t ∧
        t.shadow b = v ∧
        t.regs = s.regs ∧
        (∀ a, a ≠ b → t.shadow a = s.shadow a)) ∧
    (∀ (addr : BitVec 20) (w : Word) (s : State), aliasBase addr.toNat = none →
      accOf addr.toNat = some .w1c →
      addr.toNat ≠ Reg.ttePfStat →
      s.boot.prog = false →
      ∃ t, exec (.registerWrite addr (some w) none none) s = .next t ∧ s.sameBut [.regs, .shadows, .mirror, .logm, .quem, .ecc, .eng, .ports, .xcnt, .logNext, .logCompl, .logCount, .logged, .hamper, .pair, .boot, .mtr, .ctl, .sec, .fab, .bus, .rtc, .freeCtr] t ∧
        t.reg addr.toNat = s.reg addr.toNat &&& ~~~(w &&& w1cBits addr.toNat) ∧
        s.regsBut [addr.toNat] t) ∧
    (∀ (addr : BitVec 20) (w : Word) (s : State), aliasBase addr.toNat = none →
      accOf addr.toNat = some .w1c →
      addr.toNat ≠ Reg.ttePfStat →
      s.boot.prog = false →
      ∃ t, exec (.registerWrite addr none (some w) none) s = .next t ∧ s.sameBut [.regs, .shadows, .mirror, .logm, .quem, .ecc, .eng, .ports, .xcnt, .logNext, .logCompl, .logCount, .logged, .hamper, .pair, .boot, .mtr, .ctl, .sec, .fab, .bus, .rtc, .freeCtr] t ∧
        t.reg addr.toNat = s.reg addr.toNat &&& ~~~(w &&& w1cBits addr.toNat) ∧
        s.regsBut [addr.toNat] t) ∧
    (∀ (addr : BitVec 20) (w : Word) (s : State), aliasBase addr.toNat = none →
      accOf addr.toNat = some .w1c →
      addr.toNat ≠ Reg.ttePfStat →
      s.boot.prog = false →
      ∃ t, exec (.registerWrite addr none none (some w)) s = .next t ∧ s.sameBut [.regs, .shadows, .mirror, .logm, .quem, .ecc, .eng, .ports, .xcnt, .logNext, .logCompl, .logCount, .logged, .hamper, .pair, .boot, .mtr, .ctl, .sec, .fab, .bus, .rtc, .freeCtr] t ∧
        t.reg addr.toNat = s.reg addr.toNat &&& ~~~(w &&& w1cBits addr.toNat) ∧
        s.regsBut [addr.toNat] t) ∧
    (∀ (addr : BitVec 20) (e f h : Option Word) (s : State), aliasBase addr.toNat = none →
      accOf addr.toNat = some .ro →
      ∃ t, exec (.registerWrite addr e f h) s = .next t ∧ s.sameBut [.regs, .shadows, .mirror, .logm, .quem, .ecc, .eng, .ports, .xcnt, .logNext, .logCompl, .logCount, .logged, .hamper, .pair, .boot, .mtr, .ctl, .sec, .fab, .bus, .rtc, .freeCtr] t ∧
        t = s) ∧
    (∀ (addr : BitVec 20) (w : Word) (s : State), ∃ t, exec (.setAliasWrite addr w) s = .next t ∧ s.sameBut [.regs, .shadows, .mirror, .logm, .quem, .ecc, .eng, .ports, .xcnt, .logNext, .logCompl, .logCount, .logged, .hamper, .pair, .boot, .mtr, .ctl, .sec, .fab, .bus, .rtc, .freeCtr] t ∧
        t = busWrite .engine addr.toNat w s) ∧
    (∀ (addr : BitVec 20) (w : Word) (b : Nat) (s : State), aliasBase addr.toNat = some b →
      isSh b = false →
      accOf b = some .w1c →
      b ≠ Reg.ttePfStat →
      s.boot.prog = false →
      ∃ t, exec (.setAliasWrite addr w) s = .next t ∧ s.sameBut [.regs, .shadows, .mirror, .logm, .quem, .ecc, .eng, .ports, .xcnt, .logNext, .logCompl, .logCount, .logged, .hamper, .pair, .boot, .mtr, .ctl, .sec, .fab, .bus, .rtc, .freeCtr] t ∧
        t.reg b = s.reg b ||| (w &&& w1cBits b) ∧
        s.regsBut [b] t) ∧
    (∀ (m : Master) (addr : BitVec 20) (w hw : Word) (s : State), aliasBase addr.toNat = none →
      accOf addr.toNat = some .w1c →
      addr.toNat ≠ Reg.ttePfStat →
      s.boot.prog = false →
      ∃ t, exec (.w1cClear m addr w hw) s = .next t ∧ s.sameBut [.regs, .shadows, .mirror, .logm, .quem, .ecc, .eng, .ports, .xcnt, .logNext, .logCompl, .logCount, .logged, .hamper, .pair, .boot, .mtr, .ctl, .sec, .fab, .bus, .rtc, .freeCtr] t ∧
        t.reg addr.toNat = (s.reg addr.toNat &&& ~~~(w &&& w1cBits addr.toNat)) ||| (hw &&& w1cBits addr.toNat) ∧
        s.regsBut [addr.toNat] t) ∧
    (∀ (m : Master) (w : Word) (s : State), s.eng.released = true →
      s.boot.prog = false →
      ∃ t, exec (.sysCommit m w) s = .next t ∧ s.sameBut [.regs, .shadows, .mirror, .logm, .quem, .ecc, .eng, .ports, .xcnt, .logNext, .logCompl, .logCount, .logged, .hamper, .pair, .boot, .mtr, .ctl, .sec, .fab, .bus, .rtc, .freeCtr] t ∧
        t.reg Reg.sysCommitPend = s.reg Reg.sysCommitPend ||| w32 (fld w 15 0) ∧
        s.regsBut [Reg.sysCommitPend] t)

/-- TTE_ECC_CLR clears the count registers whose bits are set; CLR_SEL and CLR_ALL clear the crossing counts of the
selected port and of every port; QUE_CLR_CNT, QUE_CLR_PEAK and QUE_CLR_DED clear the figures of their queue;
LOG_ADVANCE by the engine with the value LOG_NEXT advances the log by one record, saturating at 8,192; HPV_POLL before
release counts 10 ms of operating time. The model's choices: 100 polls make one second of the ROM's comparison (log
entry 65); record 0xE04 of a refused LOG_ADVANCE is written by the log path (log entry 119). COMPLETE here (the
conclusion is that exec answers a next state t): tteEccClr, clrSel, clrAll, queClrCnt, queClrPeak, queClrDed,
logAdvance, hpvPoll. -/
def Obligations.CountAndLogCommands : Prop :=
    (∀ (w : Word) (n : Nat) (s : State), n < 6 →
      s.boot.prog = false →
      ∃ t, exec (.tteEccClr w) s = .next t ∧ s.sameBut [.regs] t ∧
        (t.reg (Reg.tteEccCode + 4 * n) = if bit w n then 0#32 else s.reg (Reg.tteEccCode + 4 * n))) ∧
    (∀ (s : State), s.boot.prog = false →
      ∃ t, exec .clrSel s = .next t ∧ s.sameBut [.xcnt] t ∧
        sget 0#32 t.xcnt (s.rf Reg.tteXsel 10 0) = 0#32 ∧
        (∀ p, p ≠ s.rf Reg.tteXsel 10 0 → sget 0#32 t.xcnt p = sget 0#32 s.xcnt p)) ∧
    (∀ (s : State), s.boot.prog = false →
      ∃ t, exec .clrAll s = .next t ∧ s.sameBut [.xcnt] t ∧
        t.xcnt = []) ∧
    (∀ (q : Fin 64) (s : State), s.boot.prog = false →
      ∃ t, exec (.queClrCnt q) s = .next t ∧ s.sameBut [.regs] t ∧
        t.reg (Reg.queQCnt q.val) = 0#32 ∧
        s.regsBut [Reg.queQCnt q.val] t) ∧
    (∀ (q : Fin 64) (s : State), s.boot.prog = false →
      ∃ t, exec (.queClrPeak q) s = .next t ∧ s.sameBut [.regs] t ∧
        t.rf (Reg.queQLevel q.val) 30 16 = qLevel s q.val ∧
        qLevel t q.val = qLevel s q.val ∧
        s.regsBut [Reg.queQLevel q.val] t) ∧
    (∀ (q : Fin 64) (s : State), s.boot.prog = false →
      ∃ t, exec (.queClrDed q) s = .next t ∧ s.sameBut [.regs] t ∧
        t.reg (Reg.queQDed q.val) = 0#32 ∧
        s.regsBut [Reg.queQDed q.val] t) ∧
    (∀ (w : Word) (s : State), w = s.logNext →
      memW s.logm (32 * (w.toNat % 8192)) = w →
      s.eccAt mcLog (32 * (w.toNat % 8192)) = .ok →
      s.eccAt mcLog (32 * (w.toNat % 8192) + 12) = .ok →
      s.boot.prog = false →
      ∃ t, exec (.logAdvance .engine w) s = .next t ∧ s.sameBut [.regs, .eng, .logNext, .logCompl, .logCount] t ∧
        t.logNext = s.logNext + 1 ∧
        t.logCompl = ~~~(s.logNext + 1) ∧
        t.logCount = min (s.logCount + 1) 8192 ∧
        t.logm = s.logm) ∧
    (∀ (m : Master) (w : Word) (s : State), (m ≠ .engine ∨ w ≠ s.logNext) →
      s.boot.prog = false →
      ∃ t, exec (.logAdvance m w) s = .next t ∧ s.sameBut [.regs, .eng, .logNext, .logCompl, .logCount] t ∧
        t.rb Reg.logEvt 1 = true ∧
        t.logNext = s.logNext ∧
        t.logCompl = s.logCompl ∧
        t.logCount = s.logCount ∧
        t.logm = s.logm) ∧
    (∀ (s : State), s.eng.released = false →
      s.boot.prog = false →
      ∃ t, exec .hpvPoll s = .next t ∧ s.sameBut [.regs, .logm, .ecc, .host, .logNext, .logCompl, .logCount, .logged, .opUs] t ∧
        t.opUs = s.opUs + 10000 ∧
        t.host.polls = (s.host.polls + 1) % 100 ∧
        t.host.seen0 = s.reg Reg.logHpv0 ∧
        t.host.seen1 = s.reg Reg.logHpv1)

/-- A low-half read of a register drives the low half of the mirror value and latches the high half of the same image; the
high-half read drives the latched half; a read of word 0 latches all four halves of a 64-bit value; a low-half write
is held, and the high half completes it as one 32-bit write by the host. COMPLETE here (the conclusion is that exec
answers a next state t): hostReadLowHalf, hostReadHighHalf, hostReadWord0, hostWriteLowHalf, hostWriteHighHalf. -/
def Obligations.HostPort : Prop :=
    (∀ (addr : BitVec 20) (gapNs : Nat) (s : State), (Instr.hostReadLowHalf addr gapNs).wf = true →
      20 ≤ gapNs →
      addr.toNat % 4 = 0 →
      aliasBase addr.toNat = none →
      (accOf addr.toNat = some .ro ∨ accOf addr.toNat = some .rw ∨ accOf addr.toNat = some .sh ∨ accOf addr.toNat = some .w1c) →
      isWord0 addr.toNat = false →
      latched64 s addr.toNat = none →
      s.eccAt mcMir addr.toNat ≠ .double →
      ∃ t, exec (.hostReadLowHalf addr gapNs) s = .next t ∧ s.sameBut [.regs, .mirror, .logm, .quem, .ecc, .qrd, .qcell, .ports, .xcnt, .host, .logNext, .logCompl, .logCount, .logged, .bus] t ∧
        t.host.hd = half (s.cell addr.toNat).shown 0 ∧
        t.host.latch = some (addr.toNat + 2, half (s.cell addr.toNat).shown 1)) ∧
    (∀ (addr : BitVec 20) (gapNs : Nat) (v : BitVec 16) (s : State), (Instr.hostReadHighHalf addr gapNs).wf = true →
      20 ≤ gapNs →
      addr.toNat % 4 ≠ 0 →
      latched64 s addr.toNat = none →
      s.host.latch = some (addr.toNat, v) →
      ∃ t, exec (.hostReadHighHalf addr gapNs) s = .next t ∧ s.sameBut [.regs, .mirror, .logm, .quem, .ecc, .qrd, .qcell, .ports, .xcnt, .host, .logNext, .logCompl, .logCount, .logged, .bus] t ∧
        t.host.hd = v ∧
        t.host.latch = none) ∧
    (∀ (addr : BitVec 20) (gapNs : Nat) (s : State), (Instr.hostReadWord0 addr gapNs).wf = true →
      20 ≤ gapNs →
      addr.toNat % 4 = 0 →
      isWord0 addr.toNat = true →
      accOf addr.toNat ≠ some .pop →
      ∃ t, exec (.hostReadWord0 addr gapNs) s = .next t ∧ s.sameBut [.regs, .mirror, .logm, .quem, .ecc, .qrd, .qcell, .ports, .xcnt, .host, .logNext, .logCompl, .logCount, .logged, .bus] t ∧
        t.host.hd = half (hostRead32 addr.toNat s).1 0 ∧
        t.host.latch64 = some (addr.toNat, [half (hostRead32 addr.toNat s).1 0, half (hostRead32 addr.toNat s).1 1, half (hostRead32 (addr.toNat + 4) (hostRead32 addr.toNat s).2).1 0, half (hostRead32 (addr.toNat + 4) (hostRead32 addr.toNat s).2).1 1])) ∧
    (∀ (addr : BitVec 20) (v : BitVec 16) (lenNs gapNs : Nat) (haMoved : Bool) (s : State), (Instr.hostWriteLowHalf addr v lenNs gapNs haMoved).wf = true →
      10 ≤ lenNs →
      20 ≤ gapNs →
      haMoved = false →
      ∃ t, exec (.hostWriteLowHalf addr v lenNs gapNs haMoved) s = .next t ∧ s.sameBut [.regs, .host] t ∧
        t.host.held = some (addr.toNat, v)) ∧
    (∀ (addr : BitVec 20) (v lo : BitVec 16) (b : Nat) (lenNs gapNs : Nat) (haMoved : Bool) (s : State), (Instr.hostWriteHighHalf addr v lenNs gapNs haMoved).wf = true →
      10 ≤ lenNs →
      20 ≤ gapNs →
      haMoved = false →
      s.host.held = some (b, lo) →
      b + 2 = addr.toNat →
      ∃ t, exec (.hostWriteHighHalf addr v lenNs gapNs haMoved) s = .next t ∧ s.sameBut [.regs, .shadows, .mirror, .logm, .quem, .ecc, .eng, .ports, .xcnt, .host, .logNext, .logCompl, .logCount, .logged, .hamper, .pair, .boot, .mtr, .ctl, .sec, .fab, .bus, .rtc, .freeCtr] t ∧
        t = busWrite .host b (v ++ lo) (s.hold none))

/-- MINOR_CYCLE_BOUNDARY while minor cycles run advances fabric time and operating time by t_minor, counts the minor cycle
and starts its cycle counts at 0; PATH_START of an enabled, selected path, not silenced, and armed where it must be,
makes that path the path in progress with no loop open and ELAPSED as Table 2-5 has it; a path whose arm flag is 0
runs nothing and its span is spare. In a last train and after it the islands keep their slot timing while what the
engine reads of fabric time stands. The model's choices: fabric time advances by t_minor at the boundary (log entry
41), ELAPSED counts from the last execution (log entry 10), the span of a disarmed path is spare (log entry 9), the
last train of a warm start sets CORE_ONLY (log entry 69). COMPLETE here (the conclusion is that exec answers a next
state t): minorCycleBoundary, pathStart. -/
def Obligations.MinorCycleAndPathStart : Prop :=
    (∀ (s : State), s.eng.released = true →
      s.rb Reg.tteStat 0 = true →
      s.hamper.ltPending = false →
      s.boot.prog = false →
      s.boot.warmReq = none →
      s.eng.firstMinor = false →
      ∃ t, exec .minorCycleBoundary s = .next t ∧ s.sameBut [.regs, .mirror, .logm, .quem, .feram, .store, .ecc, .eng, .qrd, .ports, .xcnt, .host, .logNext, .logCompl, .logCount, .logged, .hattn, .opUs, .fabTime, .hamper, .pair, .boot, .mtr, .ctl, .sec, .fab, .bus, .lcd, .rtc, .freeCtr] t ∧
        t.opUs = s.opUs + s.minorNs / 1000 ∧
        t.fabTime = s.fabTime + s.minorNs ∧
        t.eng.absM = s.eng.absM + 1 ∧
        t.eng.execCyc = 0 ∧
        t.eng.spareCyc = 0 ∧
        t.eng.fabLatch = s.fabTime + s.minorNs ∧
        t.eng.slotBase = s.fabTime + s.minorNs ∧
        t.eng.released = true) ∧
    (∀ (s : State), s.eng.released = true →
      s.rb Reg.tteStat 0 = false →
      s.boot.prog = false →
      ∃ t, exec .minorCycleBoundary s = .next t ∧ s.sameBut [.regs, .mirror, .logm, .quem, .feram, .store, .ecc, .eng, .qrd, .ports, .xcnt, .host, .logNext, .logCompl, .logCount, .logged, .hattn, .opUs, .fabTime, .hamper, .pair, .boot, .mtr, .ctl, .sec, .fab, .bus, .lcd, .rtc, .freeCtr] t ∧
        t.fabTime = s.fabTime + s.minorNs ∧
        t.opUs = s.opUs + s.minorNs / 1000 ∧
        t.eng = { s.eng with slotBase := s.fabTime + s.minorNs } ∧
        t.reg Reg.parLease = w32 (min (s.rf Reg.parLease 18 0 - (s.minorNs / 1000 - s.pair.leaseUs)) 289000)) ∧
    (∀ (k : Nat) (s : State), s.eng.released = true →
      s.rb Reg.tteStat 0 = true →
      s.hamper.ltPending = false →
      s.boot.prog = false →
      s.boot.warmReq = some k →
      ∃ t, exec .minorCycleBoundary s = .next t ∧ s.sameBut [.regs, .mirror, .logm, .quem, .feram, .store, .ecc, .eng, .qrd, .ports, .xcnt, .host, .logNext, .logCompl, .logCount, .logged, .hattn, .opUs, .fabTime, .hamper, .pair, .boot, .mtr, .ctl, .sec, .fab, .bus, .lcd, .rtc, .freeCtr] t ∧
        phaseOf t = 8 ∧
        t.rb Reg.tteStat 0 = false ∧
        t.rb Reg.tteStat 1 = true ∧
        t.rb Reg.tteStat 2 = true ∧
        t.boot.warmTrain = true ∧
        t.eng.ltNext = 0) ∧
    (∀ (path : Fin 4096) (s : State), s.rb Reg.tteStat 0 = true →
      s.rb Reg.tteStat 1 = false →
      s.hamper.ltPending = false →
      s.eccAt mcPtab (ptabAddr false path.val) = .ok →
      (ptabEntry s.code false path.val).enable = true →
      (ptabEntry s.code false path.val).lastTrain = false →
      s.m % 2 ^ (ptabEntry s.code false path.val).kexp = (ptabEntry s.code false path.val).phase →
      bit (s.pfOf path.val) 1 = false →
      ((ptabEntry s.code false path.val).armedOnly = false ∨ s.armed (ptabEntry s.code false path.val).armflag = true) →
      ∃ t, exec (.pathStart path) s = .next t ∧ s.sameBut [.regs, .logm, .ecc, .eng, .logNext, .logCompl, .logCount, .logged] t ∧
        t.curPath = path.val ∧
        t.eng.loops = [] ∧
        (t.eng.elapsed = w32 (if sget 0 s.eng.prevStart path.val = 0 then 0 else s.eng.absM + 1 - sget 0 s.eng.prevStart path.val))) ∧
    (∀ (path : Fin 4096) (s : State), s.rb Reg.tteStat 0 = true →
      s.rb Reg.tteStat 1 = false →
      s.hamper.ltPending = false →
      s.eccAt mcPtab (ptabAddr false path.val) = .ok →
      (ptabEntry s.code false path.val).enable = true →
      (ptabEntry s.code false path.val).lastTrain = false →
      s.m % 2 ^ (ptabEntry s.code false path.val).kexp = (ptabEntry s.code false path.val).phase →
      bit (s.pfOf path.val) 1 = false →
      (ptabEntry s.code false path.val).armedOnly = true →
      s.armed (ptabEntry s.code false path.val).armflag = false →
      ∃ t, exec (.pathStart path) s = .next t ∧ s.sameBut [.regs, .logm, .ecc, .eng, .logNext, .logCompl, .logCount, .logged] t ∧
        t.eng.spareCyc = s.eng.spareCyc + (ptabEntry s.code false path.val).length ∧
        t.eng.run = s.eng.run ∧
        t.eng.w = s.eng.w)

/-- INPUT_BELOW_PFD starts the filter and lets the bank feed the core; DIP ends it and counts; POWER_FAIL_DETECTION takes
power from every field island, the modulator heads, the bus island, the display's bias generator and the trickle
charger (R132) and, while the engine runs, leaves the switch pending with CORE_ONLY as E_AVAIL and HOLDUP_LOW decide;
LAST_TRAIN_SWITCH stops minor cycles and enters phase 8; LAST_TRAIN_PATH_START runs the next path with ELAPSED 0;
LAST_TRAIN_END halts the engine and, where no warm start was requested, enters phase 9 with a return start due;
BANK_EXHAUSTED in phase 9 leaves a log block that no longer checks. The model's choices (log entry 69): SUPPLY_VALID,
CHARGING, VIN_LOW, STAGGER and FIELD_UP clear at detection; a detection after the last train of a warm start has its
return start follow. COMPLETE here (the conclusion is that exec answers a next state t): inputBelowPfd, dip,
powerFailDetection, lastTrainSwitch, lastTrainPathStart, lastTrainEnd, bankExhausted. -/
def Obligations.LastTrain : Prop :=
    (∀ (vin : BitVec 16) (s : State), ∃ t, exec (.inputBelowPfd vin) s = .next t ∧ s.sameBut [.regs, .logm, .ecc, .logNext, .logCompl, .logCount, .logged, .hamper, .boot] t ∧
        t.hamper.filter = true ∧
        t.hamper.feeding = true ∧
        t.boot = { s.boot with counting := false } ∧
        t.reg Reg.pwrVin = vin.zeroExtend 32) ∧
    (∀ (low : BitVec 16) (us : BitVec 32) (s : State), s.hamper.filter = true →
      ∃ t, exec (.dip low us) s = .next t ∧ s.sameBut [.regs, .logm, .ecc, .logNext, .logCompl, .logCount, .logged, .hamper] t ∧
        t.hamper = { s.hamper with filter := false, feeding := false } ∧
        t.reg Reg.pwrDips = satFld (s.reg Reg.pwrDips) 31 0 1 ∧
        t.rb Reg.pwrEvt 0 = true) ∧
    (∀ (vin : BitVec 16) (s : State), s.hamper.filter = true →
      s.boot.prog = false →
      s.eng.released = true →
      s.rb Reg.tteStat 3 = false →
      s.rb Reg.tteStat 1 = false →
      ∃ t, exec (.powerFailDetection vin) s = .next t ∧ s.sameBut [.regs, .mirror, .logm, .ecc, .ports, .xcnt, .logNext, .logCompl, .logCount, .logged, .hamper, .di, .dout, .ao, .supply, .boot, .mtr, .bus, .lcd, .rtc] t ∧
        t.hamper.ltPending = true ∧
        t.hamper.filter = false ∧
        t.boot.supplyOk = false ∧
        t.boot.counting = false ∧
        t.boot.warmReq = none ∧
        (∀ g, g < 4 → (t.diI g).powered = false) ∧
        (∀ h, h < 2 → (t.doI h).powered = false) ∧
        (∀ a, a < 4 → (t.aoI a).powered = false) ∧
        t.mtr.heads = false ∧
        t.rb Reg.mtrStat 1 = false ∧
        t.bus.powered = false ∧
        t.lcd.gen = false ∧
        t.rtc.charging = false ∧
        (∀ p, p < 4 → (t.pan p).on = false ∧ (t.pan p).drive = none) ∧
        t.rb Reg.pwrStat 0 = false ∧
        t.rf Reg.pwrStat 13 10 = 0 ∧
        t.hamper.detected = true ∧
        t.reg Reg.pwrVin = vin.zeroExtend 32 ∧
        t.rb Reg.tteStat 2 = (s.rb Reg.pwrStat 3 || decide ((s.reg Reg.pwrEavail).toNat < times125 s.image.ltFullUj))) ∧
    (∀ (vin : BitVec 16) (s : State), s.hamper.filter = true →
      s.eng.released = false →
      s.boot.warmTrain = false →
      ∃ t, exec (.powerFailDetection vin) s = .next t ∧ s.sameBut [.regs, .mirror, .logm, .ecc, .ports, .xcnt, .logNext, .logCompl, .logCount, .logged, .hamper, .di, .dout, .ao, .supply, .boot, .mtr, .bus, .lcd, .rtc] t ∧
        t.hamper.ltPending = s.hamper.ltPending ∧
        t.boot.supplyOk = false ∧
        t.boot.warmReq = s.boot.warmReq ∧
        t.hamper.detected = true ∧
        (∀ g, g < 4 → (t.diI g).powered = false) ∧
        (∀ h, h < 2 → (t.doI h).powered = false) ∧
        (∀ a, a < 4 → (t.aoI a).powered = false) ∧
        t.mtr.heads = false ∧
        t.rb Reg.mtrStat 1 = false ∧
        t.bus.powered = false ∧
        t.lcd.gen = false ∧
        t.rtc.charging = false ∧
        (∀ p, p < 4 → (t.pan p).on = false ∧ (t.pan p).drive = none) ∧
        t.rb Reg.pwrStat 0 = false ∧
        t.rf Reg.pwrStat 13 10 = 0) ∧
    (∀ (vin : BitVec 16) (s : State), s.hamper.filter = true →
      s.boot.warmTrain = true →
      s.rb Reg.tteStat 3 = true →
      ∃ t, exec (.powerFailDetection vin) s = .next t ∧ s.sameBut [.regs, .mirror, .logm, .ecc, .ports, .xcnt, .logNext, .logCompl, .logCount, .logged, .hamper, .di, .dout, .ao, .supply, .boot, .mtr, .bus, .lcd, .rtc] t ∧
        phaseOf t = 9 ∧
        t.boot.returnDue = true ∧
        t.boot.warmReq = none ∧
        t.boot.counting = decide (19000 ≤ vin.toNat) ∧
        (∀ g, g < 4 → (t.diI g).powered = false) ∧
        (∀ h, h < 2 → (t.doI h).powered = false) ∧
        (∀ a, a < 4 → (t.aoI a).powered = false) ∧
        t.mtr.heads = false ∧
        t.rb Reg.mtrStat 1 = false ∧
        t.bus.powered = false ∧
        t.lcd.gen = false ∧
        t.rtc.charging = false ∧
        (∀ p, p < 4 → (t.pan p).on = false ∧ (t.pan p).drive = none) ∧
        t.rb Reg.pwrStat 0 = false ∧
        t.rf Reg.pwrStat 13 10 = 0) ∧
    (∀ (vin : BitVec 16) (s : State), s.hamper.filter = false →
      ∃ t, exec (.powerFailDetection vin) s = .next t ∧ s.sameBut [.regs, .mirror, .logm, .ecc, .ports, .xcnt, .logNext, .logCompl, .logCount, .logged, .hamper, .di, .dout, .ao, .supply, .boot, .mtr, .bus, .lcd, .rtc] t ∧
        t = s) ∧
    (∀ (s : State), s.hamper.ltPending = true →
      ∃ t, exec .lastTrainSwitch s = .next t ∧ s.sameBut [.regs, .eng, .hamper] t ∧
        t.hamper = { s.hamper with ltPending := false } ∧
        phaseOf t = 8 ∧
        t.rb Reg.tteStat 0 = false ∧
        t.rb Reg.tteStat 1 = true ∧
        t.eng.ltNext = 0 ∧
        t.eng.inflight = [] ∧
        s.regsBut [Reg.tteStat, Reg.sysStat] t) ∧
    (∀ (path : Fin 4096) (s : State), s.rb Reg.tteStat 1 = true →
      s.rb Reg.tteStat 3 = false →
      s.eccAt mcPtab (ptabAddr false path.val) = .ok →
      (ptabEntry s.code false path.val).enable = true →
      (ptabEntry s.code false path.val).lastTrain = true →
      ((ptabEntry s.code false path.val).core = true ∨ s.rb Reg.tteStat 2 = false) →
      s.eng.ltNext ≤ (ptabEntry s.code false path.val).offset →
      bit (s.pfOf path.val) 1 = false →
      ∃ t, exec (.lastTrainPathStart path) s = .next t ∧ s.sameBut [.regs, .logm, .ecc, .eng, .logNext, .logCompl, .logCount, .logged] t ∧
        t.curPath = path.val ∧
        t.eng.elapsed = 0#32 ∧
        t.eng.ltNext = (ptabEntry s.code false path.val).offset + (ptabEntry s.code false path.val).length ∧
        t.eng.loops = []) ∧
    (∀ (s : State), s.rb Reg.tteStat 1 = true →
      s.rb Reg.tteStat 3 = false →
      s.boot.warmTrain = false →
      ∃ t, exec .lastTrainEnd s = .next t ∧ s.sameBut [.regs, .logm, .ecc, .eng, .logNext, .logCompl, .logCount, .logged, .boot] t ∧
        t.rb Reg.tteStat 3 = true ∧
        phaseOf t = 9 ∧
        t.boot.returnDue = true ∧
        t.boot.warmReq = none ∧
        t.boot.counting = decide (19000 ≤ (s.reg Reg.pwrVin).toNat) ∧
        (s.rb Reg.tteStat 2 = false → s.regsBut [Reg.tteStat, Reg.sysStat] t)) ∧
    (∀ (s : State), s.rb Reg.tteStat 1 = true →
      s.rb Reg.tteStat 3 = false →
      s.boot.warmTrain = true →
      ∃ t, exec .lastTrainEnd s = .next t ∧ s.sameBut [.regs, .logm, .ecc, .eng, .logNext, .logCompl, .logCount, .logged, .boot] t ∧
        t.rb Reg.tteStat 3 = true ∧
        t.boot = s.boot ∧
        (s.rb Reg.tteStat 2 = false → s.regsBut [Reg.tteStat] t)) ∧
    (∀ (s : State), phaseOf s = 9 →
      ∃ t, exec .bankExhausted s = .next t ∧ s.sameBut [.regs, .logCompl, .hattn] t ∧
        t.logCompl = s.logNext ∧
        t.hattn = false ∧
        t.regs = s.regs)

/-- EAVAIL_UPDATE stores V_BANK and E_AVAIL = C_LEDGER × (V² − 12,000²) / 2,000,000; START_CHECK at 14.0 V or more and
DAILY_CHECK at 33.0 V or more begin a check with V1; CHECK_COMPLETE with 200 to 4,000 µF sets C_LEDGER to 97 % of the
measure, with a measure outside that range it sets C_LEDGER to 0 and CHECK_FAIL; INPUT_RISE and
V_IN_OUTSIDE_OPERATING_RANGE follow V_IN. E_HOLD is computed with V1 rounded down to whole mV (the model's choice, log
entry 18). COMPLETE here (the conclusion is that exec answers a next state t): eavailUpdate, startCheck, dailyCheck,
checkComplete, inputRise, vInOutsideOperatingRange. -/
def Obligations.HamperChecks : Prop :=
    (∀ (vbank : BitVec 16) (s : State), ∃ t, exec (.eavailUpdate vbank) s = .next t ∧ s.sameBut [.regs] t ∧
        t.reg Reg.pwrVbank = w32 vbank.toNat ∧
        (t.reg Reg.pwrEavail = w32 (if vbank.toNat ≤ 12000 then 0 else s.hamper.cLedger * (vbank.toNat * vbank.toNat - 144000000) / 2000000)) ∧
        s.regsBut [Reg.pwrVbank, Reg.pwrEavail] t) ∧
    (∀ (v1 : BitVec 20) (s : State), s.boot.supplyOk = true →
      s.hamper.again = false →
      s.rb Reg.pwrStat psChecking = false →
      s.hamper.filter = false →
      140000 ≤ v1.toNat →
      s.hamper.startDone = false →
      s.rf Reg.sysRstcause 1 0 ≠ 0 →
      ∃ t, exec (.startCheck v1) s = .next t ∧ s.sameBut [.regs, .hamper] t ∧
        t.hamper = { s.hamper with v1 := v1.toNat, startKind := true, retry := false, retryIn := none } ∧
        t.rb Reg.pwrStat psChecking = true ∧
        t.rb Reg.pwrStat psCharging = false ∧
        s.regsBut [Reg.pwrStat] t) ∧
    (∀ (v1 : BitVec 20) (s : State), s.boot.supplyOk = true →
      s.hamper.again = false →
      s.rb Reg.pwrStat psChecking = false →
      s.hamper.filter = false →
      dailyDue s = true →
      330000 ≤ v1.toNat →
      ∃ t, exec (.dailyCheck v1) s = .next t ∧ s.sameBut [.regs, .hamper] t ∧
        t.hamper = { s.hamper with v1 := v1.toNat, startKind := false, retry := false, retryIn := none } ∧
        t.rb Reg.pwrStat psChecking = true ∧
        t.rb Reg.pwrStat psCharging = false ∧
        s.regsBut [Reg.pwrStat] t) ∧
    (∀ (v1 : BitVec 20) (s : State), s.boot.supplyOk = true →
      s.hamper.again = false →
      s.rb Reg.pwrStat psChecking = false →
      s.hamper.filter = false →
      dailyDue s = true →
      v1.toNat < 330000 →
      ∃ t, exec (.dailyCheck v1) s = .next t ∧ s.sameBut [.regs, .hamper] t ∧
        t.hamper = { s.hamper with retryIn := some 60 } ∧
        t.regs = s.regs) ∧
    (∀ (v1 : BitVec 20) (s : State), dailyDue s = false →
      ∃ t, exec (.dailyCheck v1) s = .next t ∧ s.sameBut [.regs, .hamper] t ∧
        t = s) ∧
    (∀ (v1 : BitVec 20) (s : State), s.hamper.startDone = true →
      ∃ t, exec (.startCheck v1) s = .next t ∧ s.sameBut [.regs, .hamper] t ∧
        t = s) ∧
    (∀ (v2 : BitVec 20) (s : State), s.rb Reg.pwrStat psChecking = true →
      v2.toNat < s.hamper.v1 →
      200 ≤ 20000000 / (s.hamper.v1 - v2.toNat) →
      20000000 / (s.hamper.v1 - v2.toNat) ≤ 4000 →
      ∃ t, exec (.checkComplete v2) s = .next t ∧ s.sameBut [.regs, .logm, .feram, .ecc, .logNext, .logCompl, .logCount, .logged, .hamper] t ∧
        t.hamper.cLedger = 20000000 / (s.hamper.v1 - v2.toNat) * 97 / 100 ∧
        t.hamper.ageSec = 0 ∧
        t.hamper.startDone = (s.hamper.startDone || s.hamper.startKind) ∧
        t.reg Reg.pwrEhold = w32 (energyUj (20000000 / (s.hamper.v1 - v2.toNat) * 97 / 100) (s.hamper.v1 / 10)) ∧
        t.rf Reg.pwrCbank 15 0 = 20000000 / (s.hamper.v1 - v2.toNat) ∧
        t.rb Reg.pwrStat psChecking = false) ∧
    (∀ (v2 : BitVec 20) (s : State), s.rb Reg.pwrStat psChecking = true →
      (s.hamper.v1 ≤ v2.toNat ∨ 20000000 / (s.hamper.v1 - v2.toNat) < 200 ∨ 4000 < 20000000 / (s.hamper.v1 - v2.toNat)) →
      ∃ t, exec (.checkComplete v2) s = .next t ∧ s.sameBut [.regs, .logm, .feram, .ecc, .logNext, .logCompl, .logCount, .logged, .hamper] t ∧
        t.hamper.cLedger = 0 ∧
        t.rb Reg.pwrStat psCheckFail = true ∧
        t.rb Reg.pwrEvt 6 = true ∧
        t.feram = s.feram) ∧
    (∀ (vin : BitVec 16) (s : State), ∃ t, exec (.inputRise vin) s = .next t ∧ s.sameBut [.regs, .hamper, .boot] t ∧
        t.hamper = { s.hamper with feeding := false } ∧
        t.reg Reg.pwrVin = vin.zeroExtend 32 ∧
        t.boot = { s.boot with counting := decide (19000 ≤ vin.toNat) && !(s.hamper.ltPending) && decide (phaseOf s ≠ 8) } ∧
        s.regsBut [Reg.pwrVin, Reg.pwrStat] t) ∧
    (∀ (vin : BitVec 16) (s : State), ∃ t, exec (.vInOutsideOperatingRange vin) s = .next t ∧ s.sameBut [.regs, .logm, .ecc, .logNext, .logCompl, .logCount, .logged, .boot] t ∧
        t.reg Reg.pwrVin = vin.zeroExtend 32 ∧
        t.rb Reg.pwrStat 1 = (decide (vin.toNat < 19200) && !s.hamper.detected) ∧
        t.boot = { s.boot with counting := s.boot.counting && decide (19000 ≤ vin.toNat) } ∧
        t.rb Reg.pwrStat 2 = decide (30000 < vin.toNat) ∧
        s.regsBut [Reg.pwrVin, Reg.pwrStat, Reg.pwrEvt, Reg.logEvt] t)

/-- MTR_CALHOLD_WRITE stores HOLD and marks a change; WC_ARM arms a capture where the pairing holds and otherwise ends it
at once with DONE, WC_TRUNC and record 0x30A (the model's choice, log entry 112); TEST_RUN starts a test where R241
admits it and otherwise, for a slot whose MODE is not AUTO, no waveform, a COUNT outside 1 to 4,096 or a queue that
does not fit, ends it with CAUSE 1; TEST_STOP ends the test with CAUSE 4; PAR_LEASE_WRITE stores REMAIN, at most
289,000, from an instant of the minor cycle that is free (log entry 118); PAR_GATE_WRITE stores bit 0. COMPLETE here
(the conclusion is that exec answers a next state t): mtrCalholdWrite, wcArm, testRun, testStop, parLeaseWrite,
parGateWrite, leaseExpiry. -/
def Obligations.MasterRegisterCommands : Prop :=
    (∀ (m : Master) (w : Word) (s : State), w &&& ~~~(regRsv Reg.mtrCalhold) ≠ s.reg Reg.mtrCalhold →
      s.boot.prog = false →
      ∃ t, exec (.mtrCalholdWrite m w) s = .next t ∧ s.sameBut [.regs, .logm, .ecc, .logNext, .logCompl, .logCount, .logged] t ∧
        t.reg Reg.mtrCalhold = w &&& ~~~(regRsv Reg.mtrCalhold) ∧
        t.rb Reg.mtrEvt 9 = true ∧
        s.regsBut [Reg.mtrCalhold, Reg.mtrEvt, Reg.logEvt] t) ∧
    (∀ (m : Master) (w : Word) (s : State), w &&& ~~~(regRsv Reg.mtrCalhold) = s.reg Reg.mtrCalhold →
      s.boot.prog = false →
      ∃ t, exec (.mtrCalholdWrite m w) s = .next t ∧ s.sameBut [.regs, .logm, .ecc, .logNext, .logCompl, .logCount, .logged] t ∧
        s.regsBut [] t ∧
        t.logNext = s.logNext) ∧
    (∀ (w : Word) (s : State), s.rb Reg.mtrWcCtrl 0 = false →
      bit w 0 = true →
      qSize s (s.rf Reg.mtrWcCfg 5 0) ≠ 0 →
      qProd s (s.rf Reg.mtrWcCfg 5 0) = epEngine →
      qCons s (s.rf Reg.mtrWcCfg 5 0) = epHost →
      s.boot.prog = false →
      ∃ t, exec (.wcArm w) s = .next t ∧ s.sameBut [.regs, .mirror, .logm, .ecc, .logNext, .logCompl, .logCount, .logged, .mtr] t ∧
        t.rb Reg.mtrWcCtrl 0 = true ∧
        t.mtr = s.mtr ∧
        s.regsBut [Reg.mtrWcCtrl] t) ∧
    (∀ (w : Word) (s : State), s.rb Reg.mtrWcCtrl 0 = false →
      bit w 0 = true →
      (qSize s (s.rf Reg.mtrWcCfg 5 0) = 0 ∨ qProd s (s.rf Reg.mtrWcCfg 5 0) ≠ epEngine ∨ qCons s (s.rf Reg.mtrWcCfg 5 0) ≠ epHost) →
      s.boot.prog = false →
      ∃ t, exec (.wcArm w) s = .next t ∧ s.sameBut [.regs, .mirror, .logm, .ecc, .logNext, .logCompl, .logCount, .logged, .mtr] t ∧
        t.reg Reg.mtrWcStat = 6#32 ∧
        t.mtr = { s.mtr with cap := none, capq := [] } ∧
        t.rb Reg.mtrEvt 7 = true) ∧
    (∀ (count : BitVec 13) (s : State), s.ctl.test = none →
      lpMode s (fld (s.reg Reg.ctlTsCfg) 6 0) = 1 →
      fld (s.reg Reg.ctlTsCfg) 9 8 ≠ 0 →
      1 ≤ count.toNat →
      count.toNat ≤ 4096 →
      testQueueOk s (fld (s.reg Reg.ctlTsCfg) 21 16) count.toNat = true →
      s.boot.prog = false →
      ∃ t, exec (.testRun count) s = .next t ∧ s.sameBut [.regs, .mirror, .logm, .ecc, .logNext, .logCompl, .logCount, .logged, .ctl] t ∧
        t.ctl = { s.ctl with test := some { cfg := s.reg Reg.ctlTsCfg, amp := s.reg Reg.ctlTsAmp, f0 := s.reg Reg.ctlTsF0, f1 := s.reg Reg.ctlTsF1, count := count.toNat, k := 0, lfsr := 0x1FF, phi := some 0 } } ∧
        t.reg Reg.ctlTsStat = 1#32 ∧
        t.rb Reg.ctlStat 3 = true) ∧
    (∀ (count : BitVec 13) (s : State), s.ctl.test = none →
      fld (s.reg Reg.ctlTsCfg) 9 8 = 0 →
      s.boot.prog = false →
      ∃ t, exec (.testRun count) s = .next t ∧ s.sameBut [.regs, .mirror, .logm, .ecc, .logNext, .logCompl, .logCount, .logged, .ctl] t ∧
        t.ctl = s.ctl ∧
        t.reg Reg.ctlTsStat = w32 24 ∧
        t.rb Reg.ctlEvt 6 = true) ∧
    (∀ (count : BitVec 13) (s : State), s.ctl.test = none →
      (lpMode s (fld (s.reg Reg.ctlTsCfg) 6 0) ≠ 1 ∨ fld (s.reg Reg.ctlTsCfg) 9 8 = 0 ∨ count.toNat = 0 ∨ 4096 < count.toNat ∨ testQueueOk s (fld (s.reg Reg.ctlTsCfg) 21 16) count.toNat = false) →
      s.boot.prog = false →
      ∃ t, exec (.testRun count) s = .next t ∧ s.sameBut [.regs, .mirror, .logm, .ecc, .logNext, .logCompl, .logCount, .logged, .ctl] t ∧
        t.ctl = s.ctl ∧
        t.reg Reg.ctlTsStat = w32 24 ∧
        t.rb Reg.ctlEvt 6 = true ∧
        t.rb Reg.ctlStat 3 = false ∧
        t.reg Reg.ctlTsCtrl = w32 (1 + count.toNat * 2 ^ 16)) ∧
    (∀ (count : BitVec 13) (s : State), s.ctl.test.isSome = true →
      s.boot.prog = false →
      ∃ t, exec (.testRun count) s = .next t ∧ s.sameBut [.regs, .mirror, .logm, .ecc, .logNext, .logCompl, .logCount, .logged, .ctl] t ∧
        t = s) ∧
    (∀ (x : TestGen) (s : State), s.ctl.test = some x →
      s.boot.prog = false →
      ∃ t, exec .testStop s = .next t ∧ s.sameBut [.regs, .mirror, .logm, .ecc, .logNext, .logCompl, .logCount, .logged, .ctl] t ∧
        t.ctl = { s.ctl with test := none } ∧
        t.reg Reg.ctlTsStat = w32 (72 + (x.k % 2 ^ 13) * 2 ^ 16) ∧
        t.rb Reg.ctlStat 3 = false ∧
        t.rb Reg.ctlTsCtrl 0 = false) ∧
    (∀ (m : Master) (w : Word) (s : State), s.boot.prog = false →
      ∃ t, exec (.parLeaseWrite m w) s = .next t ∧ s.sameBut [.regs, .mirror, .logm, .ecc, .logNext, .logCompl, .logCount, .logged, .hamper, .pair, .ctl, .freeCtr] t ∧
        t.reg Reg.parLease = w32 (min (fld w 18 0) 289000) ∧
        (∃ us, us ≤ s.minorNs / 1000 ∧ t.pair = { s.pair with leaseUs := us })) ∧
    (∀ (m : Master) (w : Word) (s : State), s.boot.prog = false →
      ∃ t, exec (.parGateWrite m w) s = .next t ∧ s.sameBut [.regs, .mirror, .logm, .ecc, .logNext, .logCompl, .logCount, .logged, .hamper, .ctl] t ∧
        t.reg Reg.parGate = w &&& 1#32 ∧
        t.pair = s.pair) ∧
    (∀ (s : State), ∃ t, exec .leaseExpiry s = .next t ∧ s.sameBut [.regs, .mirror, .logm, .ecc, .logNext, .logCompl, .logCount, .logged, .hamper, .ctl] t ∧
        t.reg Reg.parLease = 0#32 ∧
        t.rb Reg.parStat 3 = holdsTablet (setLease 0 s) ∧
        t.pair = s.pair)

/-- After release RTC_SET puts the 64 bits of RTC_ARG in line as the new count, RTC_STEP its low word as a signed step;
RTC_SLEW with a PERIOD of 50 or more starts a slew of RTC_ARG_LO ticks, below 50 it sets BADCMD alone; RTC_SLEW_STOP
ends the slew; RTC_ALARM_CFG_WRITE puts an alarm in line; RTC_BYTE_WRITE stores four bytes, lowest first. Before
release no one of the six changes the island (the model's choice, log entry 35): the register that ALARM_CFG_WRITE or
BYTE_WRITE writes keeps its value. The model's choices (log entry 77): SET puts both words of RTC_ARG in line through
BARG, and a SLEW of COUNT 0 is done at once. COMPLETE here (the conclusion is that exec answers a next state t):
rtcSet, rtcStep, rtcSlew, rtcSlewStop, rtcAlarmCfgWrite, rtcByteWrite. -/
def Obligations.ClockRegisterCommands : Prop :=
    (∀ (m : Master) (s : State), s.eng.released = true →
      s.boot.prog = false →
      ∃ t, exec (.rtcSet m) s = .next t ∧ s.sameBut [.regs, .mirror, .logm, .ecc, .logNext, .logCompl, .logCount, .logged, .rtc] t ∧
        t.rtc = { s.rtc with a0 := s.reg Reg.rtcArgLo, a1 := s.reg Reg.rtcArgHi, due := s.rtc.due ++ [(true, ((fld (s.reg Reg.rtcArgHi) 15 0 * 2 ^ 32 + (s.reg Reg.rtcArgLo).toNat : Nat) : Int))] }) ∧
    (∀ (m : Master) (s : State), s.eng.released = true →
      s.boot.prog = false →
      ∃ t, exec (.rtcStep m) s = .next t ∧ s.sameBut [.regs, .mirror, .logm, .ecc, .logNext, .logCompl, .logCount, .logged, .rtc] t ∧
        t.rtc = { s.rtc with a0 := s.rtc.a1, a1 := s.reg Reg.rtcArgLo, due := s.rtc.due ++ [(false, (s.reg Reg.rtcArgLo).toInt)] }) ∧
    (∀ (m : Master) (period : BitVec 16) (faster : Bool) (s : State), s.eng.released = true →
      50 ≤ period.toNat →
      fld (s.reg Reg.rtcArgLo) 23 0 ≠ 0 →
      s.boot.prog = false →
      ∃ t, exec (.rtcSlew m period faster) s = .next t ∧ s.sameBut [.regs, .mirror, .ecc, .rtc] t ∧
        t.rtc = { s.rtc with a0 := s.rtc.a1, a1 := s.reg Reg.rtcArgLo, slew := some { period := period.toNat, faster := faster, left := fld (s.reg Reg.rtcArgLo) 23 0, ticks := 0 } }) ∧
    (∀ (m : Master) (period : BitVec 16) (faster : Bool) (s : State), s.eng.released = true →
      period.toNat < 50 →
      s.boot.prog = false →
      ∃ t, exec (.rtcSlew m period faster) s = .next t ∧ s.sameBut [.regs, .mirror, .ecc, .rtc] t ∧
        t.rtc = s.rtc ∧
        t.rb Reg.rtcEvt 6 = true) ∧
    (∀ (m : Master) (s : State), s.eng.released = true →
      s.boot.prog = false →
      ∃ t, exec (.rtcSlewStop m) s = .next t ∧ s.sameBut [.regs, .mirror, .ecc, .rtc] t ∧
        t.rtc = { s.rtc with slew := none }) ∧
    (∀ (m : Master) (n : Fin 8) (w : Word) (s : State), s.eng.released = true →
      s.boot.prog = false →
      ∃ t, exec (.rtcAlarmCfgWrite m n w) s = .next t ∧ s.sameBut [.regs, .mirror, .ecc, .rtc] t ∧
        (t.alm n.val).due = some (fld (s.reg (Reg.rtcAlmHi n.val)) 15 0 * 2 ^ 32 + (s.reg (Reg.rtcAlmLo n.val)).toNat, (s.reg (Reg.rtcAlmPer n.val)).toNat, bit w 0, bit w 1) ∧
        t.reg (Reg.rtcAlmCfg n.val) = w &&& ~~~(regRsv (Reg.rtcAlmCfg n.val)) ∧
        t.rtc.count = s.rtc.count) ∧
    (∀ (m : Master) (i : Fin 16) (w : Word) (s : State), s.eng.released = true →
      s.boot.prog = false →
      ∃ t, exec (.rtcByteWrite m i w) s = .next t ∧ s.sameBut [.regs, .mirror, .ecc, .rtc] t ∧
        t.reg (Reg.rtcByte i.val) = w ∧
        (∀ k, k < 4 → sget 0#8 t.rtc.bytes (4 * i.val + k) = BitVec.ofNat 8 (w.toNat / 256 ^ k)) ∧
        (∀ a, a / 4 ≠ i.val → sget 0#8 t.rtc.bytes a = sget 0#8 s.rtc.bytes a)) ∧
    (∀ (m : Master) (s : State), s.eng.released = false →
      s.boot.prog = false →
      ∃ t, exec (.rtcSet m) s = .next t ∧ s.sameBut [.regs, .mirror, .logm, .ecc, .logNext, .logCompl, .logCount, .logged, .rtc] t ∧
        t = s) ∧
    (∀ (m : Master) (s : State), s.eng.released = false →
      s.boot.prog = false →
      ∃ t, exec (.rtcStep m) s = .next t ∧ s.sameBut [.regs, .mirror, .logm, .ecc, .logNext, .logCompl, .logCount, .logged, .rtc] t ∧
        t = s) ∧
    (∀ (m : Master) (period : BitVec 16) (faster : Bool) (s : State), s.eng.released = false →
      s.boot.prog = false →
      ∃ t, exec (.rtcSlew m period faster) s = .next t ∧ s.sameBut [.regs, .mirror, .ecc, .rtc] t ∧
        t = s) ∧
    (∀ (m : Master) (s : State), s.eng.released = false →
      s.boot.prog = false →
      ∃ t, exec (.rtcSlewStop m) s = .next t ∧ s.sameBut [.regs, .mirror, .ecc, .rtc] t ∧
        t = s) ∧
    (∀ (m : Master) (n : Fin 8) (w : Word) (s : State), s.eng.released = false →
      s.boot.prog = false →
      ∃ t, exec (.rtcAlarmCfgWrite m n w) s = .next t ∧ s.sameBut [.regs, .mirror, .ecc, .rtc] t ∧
        t = s.setReg (Reg.rtcAlmCfg n.val) (w &&& ~~~(regRsv (Reg.rtcAlmCfg n.val)))) ∧
    (∀ (m : Master) (i : Fin 16) (w : Word) (s : State), s.eng.released = false →
      s.boot.prog = false →
      ∃ t, exec (.rtcByteWrite m i w) s = .next t ∧ s.sameBut [.regs, .mirror, .ecc, .rtc] t ∧
        t = s.setReg (Reg.rtcByte i.val) w) ∧
    (∀ (m : Master) (period : BitVec 16) (faster : Bool) (s : State), s.eng.released = true →
      50 ≤ period.toNat →
      fld (s.reg Reg.rtcArgLo) 23 0 = 0 →
      s.boot.prog = false →
      ∃ t, exec (.rtcSlew m period faster) s = .next t ∧ s.sameBut [.regs, .mirror, .ecc, .rtc] t ∧
        t.rtc = { s.rtc with a0 := s.rtc.a1, a1 := s.reg Reg.rtcArgLo, slew := none } ∧
        t.rb Reg.rtcEvt 2 = true)

/-- READ_PUB of a key that there is, CHALLENGE and ATTEST on a free register answer with DONE, RESULT and TAG in SEC_RESP
and the output length; BEGIN opens an object for its master, PUT appends 256 bytes, CANCEL and OBJECT_TIMEOUT abandon
it with RESULT 0x0F; SUBMIT closes the object; a request while one is in progress is counted and changes no request.
The model's choices: an abandoned object has STATE 4 (log entry 59), and these rows act at once (log entry 60).
COMPLETE here (the conclusion is that exec answers a next state t): readPub, challenge, attest, objBegin, objPut,
objSubmit, objCancel, objectTimeout. -/
def Obligations.RequestsAndObjects : Prop :=
    (∀ (kind : BitVec 2) (tag : BitVec 8) (k : List Byte) (s : State), s.rb Reg.secResp 0 = false →
      pubKey s kind.toNat = some k →
      s.boot.prog = false →
      ∃ t, exec (.readPub kind tag) s = .next t ∧ s.sameBut [.regs, .mirror, .ecc, .sec, .freeCtr] t ∧
        t.reg Reg.secResp = w32 (2 + tag.toNat * 2 ^ 16) ∧
        t.reg Reg.secOutlen = w32 k.length ∧
        t.sec = { s.sec with req := none }) ∧
    (∀ (kind : BitVec 2) (tag : BitVec 8) (s : State), s.rb Reg.secResp 0 = true →
      s.boot.prog = false →
      ∃ t, exec (.readPub kind tag) s = .next t ∧ s.sameBut [.regs, .mirror, .ecc, .sec, .freeCtr] t ∧
        t.rf Reg.secCnt 15 0 = min (s.rf Reg.secCnt 15 0 + 1) 65535 ∧
        t.sec = s.sec ∧
        s.regsBut [Reg.secCnt] t) ∧
    (∀ (tag : BitVec 8) (s : State), s.rb Reg.secResp 0 = false →
      s.boot.siding = false →
      s.boot.prog = false →
      ∃ t, exec (.challenge tag) s = .next t ∧ s.sameBut [.regs, .mirror, .ecc, .sec, .freeCtr] t ∧
        t.reg Reg.secResp = w32 (2 + (challengeTag s (argBytes s)).1 * 256 + tag.toNat * 2 ^ 16) ∧
        t.reg Reg.secOutlen = w32 (challengeTag s (argBytes s)).2.length ∧
        t.sec = { s.sec with req := none }) ∧
    (∀ (tag : BitVec 8) (s : State), s.rb Reg.secResp 0 = false →
      s.boot.siding = false →
      s.sec.retired = true →
      s.boot.prog = false →
      ∃ t, exec (.attest tag) s = .next t ∧ s.sameBut [.regs, .mirror, .ecc, .sec, .freeCtr] t ∧
        t.reg Reg.secResp = w32 (0xD02 + tag.toNat * 2 ^ 16) ∧
        t.reg Reg.secOutlen = 0#32 ∧
        t.freeCtr = s.freeCtr) ∧
    (∀ (tag : BitVec 8) (s : State), s.rb Reg.secResp 0 = false →
      s.boot.siding = false →
      s.sec.retired = false →
      s.boot.prog = false →
      ∃ t, exec (.attest tag) s = .next t ∧ s.sameBut [.regs, .mirror, .ecc, .sec, .freeCtr] t ∧
        t.reg Reg.secResp = w32 (2 + tag.toNat * 2 ^ 16) ∧
        t.sec = { s.sec with req := none }) ∧
    (∀ (m : Master) (kind : BitVec 2) (s : State), s.sec.obj = none →
      s.sec.retired = false →
      kind.toNat ≤ 2 →
      s.rf Reg.secObjStat 2 0 ≠ 2 →
      s.boot.prog = false →
      ∃ t, exec (.objBegin m kind) s = .next t ∧ s.sameBut [.regs, .mirror, .logm, .feram, .store, .ecc, .logNext, .logCompl, .logCount, .logged, .boot, .sec, .fab, .freeCtr] t ∧
        t.sec = { s.sec with obj := some { owner := masterCode m, kind := kind.toNat, len := 0, hdr := false }, due := none, obuf := [] } ∧
        t.reg Reg.secObjStat = w32 (1 + masterCode m * 8)) ∧
    (∀ (m : Master) (o : Obj) (s : State), s.sec.obj = some o →
      o.owner = masterCode m →
      s.rf Reg.secObjStat 2 0 ≠ 2 →
      o.kind ≤ 1 →
      o.len + 256 ≤ 0x800000 →
      s.boot.prog = false →
      ∃ t, exec (.objPut m) s = .next t ∧ s.sameBut [.regs, .mirror, .logm, .feram, .store, .ecc, .logNext, .logCompl, .logCount, .logged, .boot, .sec, .fab, .freeCtr] t ∧
        t.sec.obj = some { o with len := o.len + 256 } ∧
        t.sec.due = none ∧
        t.store = memPut s.store (objBase + o.len) (windowBytes s) ∧
        t.feram = s.feram) ∧
    (∀ (m : Master) (ok : Bool) (o : Obj) (s : State), s.sec.obj = some o →
      o.owner = masterCode m →
      s.rf Reg.secObjStat 2 0 ≠ 2 →
      s.boot.prog = false →
      ∃ t, exec (.objSubmit m ok) s = .next t ∧ s.sameBut [.regs, .mirror, .logm, .feram, .store, .ecc, .logNext, .logCompl, .logCount, .logged, .boot, .sec, .fab, .freeCtr] t ∧
        t.sec.obj = none ∧
        t.sec.due = none) ∧
    (∀ (m : Master) (o : Obj) (s : State), s.sec.obj = some o →
      o.owner = masterCode m →
      s.rf Reg.secObjStat 2 0 ≠ 2 →
      s.boot.prog = false →
      ∃ t, exec (.objCancel m) s = .next t ∧ s.sameBut [.regs, .mirror, .logm, .feram, .store, .ecc, .logNext, .logCompl, .logCount, .logged, .boot, .sec, .fab, .freeCtr] t ∧
        t.sec.obj = none ∧
        t.sec.due = none ∧
        t.sec.obuf = [] ∧
        t.rf Reg.secObjStat 2 0 = 4 ∧
        t.rf Reg.secObjStat 15 8 = 0x0F) ∧
    (∀ (o : Obj) (s : State), s.sec.obj = some o →
      s.boot.prog = false →
      ∃ t, exec .objectTimeout s = .next t ∧ s.sameBut [.regs, .mirror, .ecc, .sec, .fab] t ∧
        t.sec.obj = none ∧
        t.sec.due = none ∧
        t.sec.obuf = [] ∧
        t.rf Reg.secObjStat 2 0 = 4 ∧
        t.rf Reg.secObjStat 15 8 = 0x0F)

/-- DI_TICK at a powered island: a channel whose level equals its debounced state restarts its tick count; one that
differs takes the level at the tick DEB + 1 and marks the change, and counts one more tick before it. DI_DEB,
DI_COUNTER_CFG and DI_BRKEN store their values and what each resets; WIRE_BREAK reports a break only where BRKEN is
set and the supply is not MISSING. No other island changes. COMPLETE here (the conclusion is that exec answers a next
state t): diTick, wireBreak, diDeb, diCounterCfg, diBrken. -/
def Obligations.DigitalInputs : Prop :=
    (∀ (g : Fin 4) (levels : BitVec 16) (s : State), (s.diI g.val).powered = true →
      ∃ t, exec (.diTick g levels) s = .next t ∧ s.sameBut [.di] t ∧
        (∀ c, c < 16 → (levels.toNat &&& (0xFFFF ^^^ ((s.diI g.val).due.foldl diApply (s.diI g.val)).broken)).testBit c = ((s.diI g.val).due.foldl diApply (s.diI g.val)).state.testBit c → (t.diI g.val).state.testBit c = (levels.toNat &&& (0xFFFF ^^^ ((s.diI g.val).due.foldl diApply (s.diI g.val)).broken)).testBit c ∧ sget 0 (t.diI g.val).ticks c = 0) ∧
        (∀ c, c < 16 → (levels.toNat &&& (0xFFFF ^^^ ((s.diI g.val).due.foldl diApply (s.diI g.val)).broken)).testBit c ≠ ((s.diI g.val).due.foldl diApply (s.diI g.val)).state.testBit c → ((s.diI g.val).due.foldl diApply (s.diI g.val)).debOf c ≤ sget 0 ((s.diI g.val).due.foldl diApply (s.diI g.val)).ticks c → (t.diI g.val).state.testBit c = (levels.toNat &&& (0xFFFF ^^^ ((s.diI g.val).due.foldl diApply (s.diI g.val)).broken)).testBit c ∧ (t.diI g.val).changed.testBit c = true ∧ sget 0 (t.diI g.val).ticks c = 0) ∧
        (∀ c, c < 16 → (levels.toNat &&& (0xFFFF ^^^ ((s.diI g.val).due.foldl diApply (s.diI g.val)).broken)).testBit c ≠ ((s.diI g.val).due.foldl diApply (s.diI g.val)).state.testBit c → sget 0 ((s.diI g.val).due.foldl diApply (s.diI g.val)).ticks c < ((s.diI g.val).due.foldl diApply (s.diI g.val)).debOf c → (t.diI g.val).state.testBit c = ((s.diI g.val).due.foldl diApply (s.diI g.val)).state.testBit c ∧ sget 0 (t.diI g.val).ticks c = sget 0 ((s.diI g.val).due.foldl diApply (s.diI g.val)).ticks c + 1) ∧
        (∀ k, k < 8 → ((s.diI g.val).due.foldl diApply (s.diI g.val)).modeOf k ≠ 0 → (t.diI g.val).state.testBit (((s.diI g.val).due.foldl diApply (s.diI g.val)).chanOf k) = true → (s.diI g.val).state.testBit (((s.diI g.val).due.foldl diApply (s.diI g.val)).chanOf k) = false → sget 0 (t.diI g.val).count k = (sget 0 ((s.diI g.val).due.foldl diApply (s.diI g.val)).count k + 1) % 2 ^ 32 ∧ sget ageMax (t.diI g.val).age k = 0) ∧
        (t.diI g.val).due = [] ∧
        (∀ k, k ≠ g.val → t.diI k = s.diI k)) ∧
    (∀ (g : Fin 4) (c : Fin 16) (broken : Bool) (s : State), broken = true →
      (s.diI g.val).powered = true →
      (s.diI g.val).brken.testBit c.val = true →
      (s.sup (11 + g.val)).missing = false →
      ∃ t, exec (.wireBreak g c broken) s = .next t ∧ s.sameBut [.di] t ∧
        (t.diI g.val) = (s.diI g.val).breakChan c.val ∧
        (t.diI g.val).broken = (s.diI g.val).broken ||| 2 ^ c.val ∧
        (t.diI g.val).state.testBit c.val = false ∧
        (∀ k, k ≠ g.val → t.diI k = s.diI k)) ∧
    (∀ (g : Fin 4) (c : Fin 16) (broken : Bool) (s : State), broken = true →
      ((s.diI g.val).brken.testBit c.val = false ∨ (s.sup (11 + g.val)).missing = true) →
      ∃ t, exec (.wireBreak g c broken) s = .next t ∧ s.sameBut [.di] t ∧
        t = s) ∧
    (∀ (g : Fin 4) (c : Fin 16) (broken : Bool) (s : State), broken = false →
      ∃ t, exec (.wireBreak g c broken) s = .next t ∧ s.sameBut [.di] t ∧
        (t.diI g.val).broken.testBit c.val = false ∧
        (t.diI g.val).state = (s.diI g.val).state ∧
        (∀ k, k ≠ g.val → t.diI k = s.diI k)) ∧
    (∀ (g : Fin 4) (c : Fin 16) (deb : BitVec 16) (s : State), (s.diI g.val).powered = true →
      ∃ t, exec (.diDeb g c deb) s = .next t ∧ s.sameBut [.di] t ∧
        (t.diI g.val) = { (s.diI g.val) with due := (s.diI g.val).due ++ [DiCfg.deb c.val deb.toNat] } ∧
        diApply (s.diI g.val) (DiCfg.deb c.val deb.toNat) = { (s.diI g.val) with deb := sset 0 (s.diI g.val).deb c.val deb.toNat, gotDeb := (s.diI g.val).gotDeb ||| 2 ^ c.val } ∧
        (∀ k, k ≠ g.val → t.diI k = s.diI k)) ∧
    (∀ (g : Fin 4) (src : BitVec 8) (mode : BitVec 16) (s : State), (s.diI g.val).powered = true →
      ∃ t, exec (.diCounterCfg g src mode) s = .next t ∧ s.sameBut [.di] t ∧
        (t.diI g.val) = { (s.diI g.val) with due := (s.diI g.val).due ++ [DiCfg.units src.toNat mode.toNat] } ∧
        (diApply (s.diI g.val) (DiCfg.units src.toNat mode.toNat)).src = src.toNat ∧
        (diApply (s.diI g.val) (DiCfg.units src.toNat mode.toNat)).mode = mode.toNat ∧
        (diApply (s.diI g.val) (DiCfg.units src.toNat mode.toNat)).gotCfg = true ∧
        (∀ k, k < 8 → (src.toNat.testBit k ≠ (s.diI g.val).src.testBit k ∨ mode.toNat / 2 ^ (2 * k) % 4 ≠ (s.diI g.val).mode / 2 ^ (2 * k) % 4) → sget 0 (diApply (s.diI g.val) (DiCfg.units src.toNat mode.toNat)).count k = 0 ∧ sget ageMax (diApply (s.diI g.val) (DiCfg.units src.toNat mode.toNat)).age k = 0xFFFFF) ∧
        (∀ k, k < 8 → src.toNat.testBit k = (s.diI g.val).src.testBit k → mode.toNat / 2 ^ (2 * k) % 4 = (s.diI g.val).mode / 2 ^ (2 * k) % 4 → sget 0 (diApply (s.diI g.val) (DiCfg.units src.toNat mode.toNat)).count k = sget 0 (s.diI g.val).count k ∧ sget ageMax (diApply (s.diI g.val) (DiCfg.units src.toNat mode.toNat)).age k = sget ageMax (s.diI g.val).age k) ∧
        (∀ k, k ≠ g.val → t.diI k = s.diI k)) ∧
    (∀ (g : Fin 4) (brken : BitVec 16) (s : State), (s.diI g.val).powered = true →
      ∃ t, exec (.diBrken g brken) s = .next t ∧ s.sameBut [.di] t ∧
        (t.diI g.val) = { (s.diI g.val) with due := (s.diI g.val).due ++ [DiCfg.brken brken.toNat] } ∧
        diApply (s.diI g.val) (DiCfg.brken brken.toNat) = { (s.diI g.val) with brken := brken.toNat, gotBrk := true, broken := (s.diI g.val).broken &&& brken.toNat } ∧
        (∀ k, k ≠ g.val → t.diI k = s.diI k))

/-- DO_SAFE, DO_HOLD and DO_OL_EN store their values, and while safe values apply the island drives them by the values
received last; OUT accepted by an island without an apply entry drives the stages that are not latched once the island
is configured, and during safe values a word without ACK_SAFE changes nothing; OVL_LATCH switches the stage off and
latches it; OPEN_LOAD reports only with OL_EN set, the stage off and the supply not MISSING. No other island changes.
COMPLETE here (the conclusion is that exec answers a next state t): doSafe, doHold, doOlEn, doOut, ovlLatch, openLoad. -/
def Obligations.DigitalOutputs : Prop :=
    (∀ (h : Fin 2) (v : BitVec 16) (s : State), (s.doI h.val).powered = true →
      ∃ t, exec (.doSafe h v) s = .next t ∧ s.sameBut [.dout] t ∧
        ((t.doI h.val) = (if (s.doI h.val).safeOn then ({ (s.doI h.val) with safe := v.toNat, gotSafe := true } : DoIsland).applySafe else { (s.doI h.val) with safe := v.toNat, gotSafe := true })) ∧
        (∀ k, k ≠ h.val → t.doI k = s.doI k)) ∧
    (∀ (h : Fin 2) (v : BitVec 16) (s : State), (s.doI h.val).powered = true →
      ∃ t, exec (.doHold h v) s = .next t ∧ s.sameBut [.dout] t ∧
        ((t.doI h.val) = (if (s.doI h.val).safeOn then ({ (s.doI h.val) with hold := v.toNat, gotHold := true } : DoIsland).applySafe else { (s.doI h.val) with hold := v.toNat, gotHold := true })) ∧
        (∀ k, k ≠ h.val → t.doI k = s.doI k)) ∧
    (∀ (h : Fin 2) (v : BitVec 16) (s : State), (s.doI h.val).powered = true →
      ∃ t, exec (.doOlEn h v) s = .next t ∧ s.sameBut [.dout] t ∧
        ((t.doI h.val) = (if (s.doI h.val).safeOn then ({ (s.doI h.val) with olen := v.toNat, gotOl := true } : DoIsland).applySafe else { (s.doI h.val) with olen := v.toNat, gotOl := true })) ∧
        (∀ k, k ≠ h.val → t.doI k = s.doI k)) ∧
    (∀ (h : Fin 2) (v : BitVec 16) (ack : Bool) (s : State), (s.doI h.val).powered = true →
      ((s.doI h.val).safeOn = false ∨ ack = true) →
      hasApply s (15 + h.val) = false →
      (s.doI h.val).cfgd = true →
      ∃ t, exec (.doOut h v ack) s = .next t ∧ s.sameBut [.dout] t ∧
        (t.doI h.val).out = v.toNat ∧
        (t.doI h.val).safeOn = false ∧
        (t.doI h.val).drive = minus16 v.toNat ((s.doI h.val).ovl &&& v.toNat) ∧
        (t.doI h.val).ovl = (s.doI h.val).ovl &&& v.toNat ∧
        (∀ k, k ≠ h.val → t.doI k = s.doI k)) ∧
    (∀ (h : Fin 2) (v : BitVec 16) (ack : Bool) (s : State), (s.doI h.val).powered = true →
      ((s.doI h.val).safeOn = false ∨ ack = true) →
      hasApply s (15 + h.val) = true →
      ∃ t, exec (.doOut h v ack) s = .next t ∧ s.sameBut [.dout] t ∧
        (t.doI h.val).out = v.toNat ∧
        (t.doI h.val).drive = (s.doI h.val).drive ∧
        (t.doI h.val).ovl = (s.doI h.val).ovl &&& v.toNat ∧
        (∀ k, k ≠ h.val → t.doI k = s.doI k)) ∧
    (∀ (h : Fin 2) (v : BitVec 16) (ack : Bool) (s : State), (s.doI h.val).safeOn = true →
      ack = false →
      ∃ t, exec (.doOut h v ack) s = .next t ∧ s.sameBut [.dout] t ∧
        t = s) ∧
    (∀ (h : Fin 2) (c : Fin 16) (s : State), (s.doI h.val).powered = true →
      ∃ t, exec (.ovlLatch h c) s = .next t ∧ s.sameBut [.dout] t ∧
        (t.doI h.val) = { (s.doI h.val) with ovl := (s.doI h.val).ovl ||| 2 ^ c.val, drive := minus16 (s.doI h.val).drive (2 ^ c.val) } ∧
        (t.doI h.val).drive.testBit c.val = false ∧
        (∀ k, k ≠ h.val → t.doI k = s.doI k)) ∧
    (∀ (h : Fin 2) (c : Fin 16) (inBand : Bool) (s : State), (s.doI h.val).powered = true →
      inBand = true →
      (s.doI h.val).olen.testBit c.val = true →
      (s.doI h.val).drive.testBit c.val = false →
      (s.sup (15 + h.val)).missing = false →
      ∃ t, exec (.openLoad h c inBand) s = .next t ∧ s.sameBut [.dout] t ∧
        (t.doI h.val) = { (s.doI h.val) with opens := (s.doI h.val).opens ||| 2 ^ c.val } ∧
        (∀ k, k ≠ h.val → t.doI k = s.doI k)) ∧
    (∀ (h : Fin 2) (c : Fin 16) (inBand : Bool) (s : State), (s.doI h.val).powered = true →
      inBand = false →
      ∃ t, exec (.openLoad h c inBand) s = .next t ∧ s.sameBut [.dout] t ∧
        (t.doI h.val) = { (s.doI h.val) with opens := minus16 (s.doI h.val).opens (2 ^ c.val) } ∧
        (∀ k, k ≠ h.val → t.doI k = s.doI k))

/-- AOUT_CODE holds CODE and ALM to be applied and ignores ALM = 3; AOUT_MODE of a stage that is off stores the mode, of
an enabled stage whose MODE changes it is held; AOUT_SAFE, AOUT_ALM_LO, AOUT_ALM_HI and AOUT_TRIM store their values
and mark them received; ACMD stores EN; COMPLIANCE, RB_DEV, MISWIRE and MISWIRE_RESUME change the marks of their
channel. No other island changes. COMPLETE here (the conclusion is that exec answers a next state t): aoutCode,
aoutMode, aoutSafe, aoutAlmLo, aoutAlmHi, aoutTrim, acmd, compliance, rbDev, miswire, miswireResume. -/
def Obligations.AnalogueChannels : Prop :=
    (∀ (a c : Fin 4) (code : BitVec 16) (alm : BitVec 2) (s : State), (s.aoI a.val).powered = true →
      alm ≠ 3#2 →
      hasApply s (17 + a.val) = true →
      ∃ t, exec (.aoutCode a c code alm) s = .next t ∧ s.sameBut [.ao] t ∧
        t.aoI a.val = { (s.aoI a.val) with pendCode := sset (0, 0) (s.aoI a.val).pendCode c.val (code.toNat, alm.toNat) } ∧
        (∀ k, k ≠ a.val → t.aoI k = s.aoI k)) ∧
    (∀ (a c : Fin 4) (code : BitVec 16) (alm : BitVec 2) (s : State), alm = 3#2 →
      ∃ t, exec (.aoutCode a c code alm) s = .next t ∧ s.sameBut [.ao] t ∧
        t = s) ∧
    (∀ (a c : Fin 4) (mode insrc clamp : Bool) (safemode : BitVec 3) (s : State), (s.aoI a.val).powered = true →
      ((s.aoI a.val).enabled c.val = false ∨ mode = ((s.aoI a.val).chan c.val).mode) →
      ∃ t, exec (.aoutMode a c mode insrc clamp safemode) s = .next t ∧ s.sameBut [.ao] t ∧
        (hasApply s (17 + a.val) = true → ((t.aoI a.val).chan c.val) = { ((s.aoI a.val).chan c.val) with mode := mode, insrc := insrc, clamp := clamp, safemode := safemode.toNat, heldMode := none, got := ((s.aoI a.val).chan c.val).got ||| 2 } ∧ (∀ k, k ≠ c.val → (t.aoI a.val).chan k = (s.aoI a.val).chan k)) ∧
        (hasApply s (17 + a.val) = false → t.aoI a.val = ((s.aoI a.val).setChan c.val { ((s.aoI a.val).chan c.val) with mode := mode, insrc := insrc, clamp := clamp, safemode := safemode.toNat, heldMode := none, got := ((s.aoI a.val).chan c.val).got ||| 2 }).applyAo) ∧
        (∀ k, k ≠ a.val → t.aoI k = s.aoI k)) ∧
    (∀ (a c : Fin 4) (mode insrc clamp : Bool) (safemode : BitVec 3) (s : State), (s.aoI a.val).powered = true →
      (s.aoI a.val).enabled c.val = true →
      mode ≠ ((s.aoI a.val).chan c.val).mode →
      ∃ t, exec (.aoutMode a c mode insrc clamp safemode) s = .next t ∧ s.sameBut [.ao] t ∧
        (hasApply s (17 + a.val) = true → ((t.aoI a.val).chan c.val) = { ((s.aoI a.val).chan c.val) with heldMode := some (mode, insrc, clamp, safemode.toNat), got := ((s.aoI a.val).chan c.val).got ||| 2 } ∧ (∀ k, k ≠ c.val → (t.aoI a.val).chan k = (s.aoI a.val).chan k)) ∧
        (hasApply s (17 + a.val) = false → t.aoI a.val = ((s.aoI a.val).setChan c.val { ((s.aoI a.val).chan c.val) with heldMode := some (mode, insrc, clamp, safemode.toNat), got := ((s.aoI a.val).chan c.val).got ||| 2 }).applyAo) ∧
        (∀ k, k ≠ a.val → t.aoI k = s.aoI k)) ∧
    (∀ (a c : Fin 4) (v : BitVec 16) (s : State), (s.aoI a.val).powered = true →
      ∃ t, exec (.aoutSafe a c v) s = .next t ∧ s.sameBut [.ao] t ∧
        (hasApply s (17 + a.val) = true → ((t.aoI a.val).chan c.val) = { ((s.aoI a.val).chan c.val) with safeCode := v.toNat, got := ((s.aoI a.val).chan c.val).got ||| 4 } ∧ (∀ k, k ≠ c.val → (t.aoI a.val).chan k = (s.aoI a.val).chan k)) ∧
        (hasApply s (17 + a.val) = false → t.aoI a.val = ((s.aoI a.val).setChan c.val { ((s.aoI a.val).chan c.val) with safeCode := v.toNat, got := ((s.aoI a.val).chan c.val).got ||| 4 }).applyAo) ∧
        (∀ k, k ≠ a.val → t.aoI k = s.aoI k)) ∧
    (∀ (a c : Fin 4) (v : BitVec 16) (s : State), (s.aoI a.val).powered = true →
      ∃ t, exec (.aoutAlmLo a c v) s = .next t ∧ s.sameBut [.ao] t ∧
        (hasApply s (17 + a.val) = true → ((t.aoI a.val).chan c.val) = { ((s.aoI a.val).chan c.val) with almLo := v.toNat, got := ((s.aoI a.val).chan c.val).got ||| 8 } ∧ (∀ k, k ≠ c.val → (t.aoI a.val).chan k = (s.aoI a.val).chan k)) ∧
        (hasApply s (17 + a.val) = false → t.aoI a.val = ((s.aoI a.val).setChan c.val { ((s.aoI a.val).chan c.val) with almLo := v.toNat, got := ((s.aoI a.val).chan c.val).got ||| 8 }).applyAo) ∧
        (∀ k, k ≠ a.val → t.aoI k = s.aoI k)) ∧
    (∀ (a c : Fin 4) (v : BitVec 16) (s : State), (s.aoI a.val).powered = true →
      ∃ t, exec (.aoutAlmHi a c v) s = .next t ∧ s.sameBut [.ao] t ∧
        (hasApply s (17 + a.val) = true → ((t.aoI a.val).chan c.val) = { ((s.aoI a.val).chan c.val) with almHi := v.toNat, got := ((s.aoI a.val).chan c.val).got ||| 16 } ∧ (∀ k, k ≠ c.val → (t.aoI a.val).chan k = (s.aoI a.val).chan k)) ∧
        (hasApply s (17 + a.val) = false → t.aoI a.val = ((s.aoI a.val).setChan c.val { ((s.aoI a.val).chan c.val) with almHi := v.toNat, got := ((s.aoI a.val).chan c.val).got ||| 16 }).applyAo) ∧
        (∀ k, k ≠ a.val → t.aoI k = s.aoI k)) ∧
    (∀ (a c : Fin 4) (zero span : BitVec 12) (s : State), (s.aoI a.val).powered = true →
      ∃ t, exec (.aoutTrim a c zero span) s = .next t ∧ s.sameBut [.ao] t ∧
        (hasApply s (17 + a.val) = true → ((t.aoI a.val).chan c.val) = { ((s.aoI a.val).chan c.val) with zero := zero.toNat, span := span.toNat, got := ((s.aoI a.val).chan c.val).got ||| 32 } ∧ (∀ k, k ≠ c.val → (t.aoI a.val).chan k = (s.aoI a.val).chan k)) ∧
        (hasApply s (17 + a.val) = false → t.aoI a.val = ((s.aoI a.val).setChan c.val { ((s.aoI a.val).chan c.val) with zero := zero.toNat, span := span.toNat, got := ((s.aoI a.val).chan c.val).got ||| 32 }).applyAo) ∧
        (∀ k, k ≠ a.val → t.aoI k = s.aoI k)) ∧
    (∀ (a : Fin 4) (en : BitVec 4) (ack : Bool) (s : State), (s.aoI a.val).powered = true →
      ((s.aoI a.val).safeOn = false ∨ ack = true) →
      hasApply s (17 + a.val) = true →
      ∃ t, exec (.acmd a en ack) s = .next t ∧ s.sameBut [.ao] t ∧
        t.aoI a.val = { (s.aoI a.val) with en := en.toNat, gotAcmd := true, safeOn := false } ∧
        (∀ k, k ≠ a.val → t.aoI k = s.aoI k)) ∧
    (∀ (a : Fin 4) (en : BitVec 4) (ack : Bool) (s : State), (s.aoI a.val).powered = true →
      ((s.aoI a.val).safeOn = false ∨ ack = true) →
      hasApply s (17 + a.val) = false →
      ∃ t, exec (.acmd a en ack) s = .next t ∧ s.sameBut [.ao] t ∧
        (t.aoI a.val).en = en.toNat ∧
        (t.aoI a.val).gotAcmd = true ∧
        (t.aoI a.val).safeOn = false ∧
        (∀ c, c < 4 → en.toNat.testBit c = false → ((t.aoI a.val).chan c).on = false) ∧
        (∀ k, k ≠ a.val → t.aoI k = s.aoI k)) ∧
    (∀ (a c : Fin 4) (v : Bool) (s : State), (s.aoI a.val).powered = true →
      v = true →
      ((s.aoI a.val).chan c.val).on = true →
      ((s.aoI a.val).chan c.val).mode = false →
      ∃ t, exec (.compliance a c v) s = .next t ∧ s.sameBut [.ao] t ∧
        ((t.aoI a.val).chan c.val) = { ((s.aoI a.val).chan c.val) with compliance := true, rbDev := false } ∧
        (∀ k, k ≠ c.val → (t.aoI a.val).chan k = (s.aoI a.val).chan k) ∧
        (∀ k, k ≠ a.val → t.aoI k = s.aoI k)) ∧
    (∀ (a c : Fin 4) (v : Bool) (s : State), (s.aoI a.val).powered = true →
      v = false →
      ∃ t, exec (.compliance a c v) s = .next t ∧ s.sameBut [.ao] t ∧
        ((t.aoI a.val).chan c.val) = { ((s.aoI a.val).chan c.val) with compliance := false } ∧
        (∀ k, k ≠ c.val → (t.aoI a.val).chan k = (s.aoI a.val).chan k) ∧
        (∀ k, k ≠ a.val → t.aoI k = s.aoI k)) ∧
    (∀ (a c : Fin 4) (v : Bool) (s : State), (s.aoI a.val).powered = true →
      v = true →
      s.rb (Reg.aioAgDiag a.val) 16 = true →
      ((s.aoI a.val).chan c.val).on = true →
      ((s.aoI a.val).chan c.val).compliance = false →
      ∃ t, exec (.rbDev a c v) s = .next t ∧ s.sameBut [.ao] t ∧
        ((t.aoI a.val).chan c.val) = { ((s.aoI a.val).chan c.val) with rbDev := true } ∧
        (∀ k, k ≠ c.val → (t.aoI a.val).chan k = (s.aoI a.val).chan k) ∧
        (∀ k, k ≠ a.val → t.aoI k = s.aoI k)) ∧
    (∀ (a c : Fin 4) (v : Bool) (s : State), (s.aoI a.val).powered = true →
      v = false →
      ∃ t, exec (.rbDev a c v) s = .next t ∧ s.sameBut [.ao] t ∧
        ((t.aoI a.val).chan c.val) = { ((s.aoI a.val).chan c.val) with rbDev := false } ∧
        (∀ k, k ≠ c.val → (t.aoI a.val).chan k = (s.aoI a.val).chan k) ∧
        (∀ k, k ≠ a.val → t.aoI k = s.aoI k)) ∧
    (∀ (a c : Fin 4) (s : State), (s.aoI a.val).powered = true →
      ((s.aoI a.val).chan c.val).on = true →
      ∃ t, exec (.miswire a c) s = .next t ∧ s.sameBut [.ao] t ∧
        ((t.aoI a.val).chan c.val) = { ((s.aoI a.val).chan c.val) with on := false, compliance := false, rbDev := false, miswire := true } ∧
        (∀ k, k ≠ c.val → (t.aoI a.val).chan k = (s.aoI a.val).chan k) ∧
        (∀ k, k ≠ a.val → t.aoI k = s.aoI k)) ∧
    (∀ (a c : Fin 4) (s : State), (s.aoI a.val).powered = true →
      ((s.aoI a.val).chan c.val).miswire = true →
      ∃ t, exec (.miswireResume a c) s = .next t ∧ s.sameBut [.ao] t ∧
        ((t.aoI a.val).chan c.val).miswire = false ∧
        ((t.aoI a.val).chan c.val).on = (((s.aoI a.val).chan c.val).on || ((s.aoI a.val).cfgd && (s.aoI a.val).gotAcmd && (s.aoI a.val).en.testBit c.val && !((s.aoI a.val).chan c.val).mode && (!(s.aoI a.val).safeOn || ((s.aoI a.val).chan c.val).safeTarget.isSome))) ∧
        (∀ k, k ≠ c.val → (t.aoI a.val).chan k = (s.aoI a.val).chan k) ∧
        (∀ k, k ≠ a.val → t.aoI k = s.aoI k))

/-- SAMPLE_INSTANT of a powered island that the sample plan has due in this minor cycle latches its time and puts its
words on their way: of a DI island the state word, with the change marks cleared, of a DO island the readback, the
latches and the supply word, of an analogue island the readback, the input and the status words, its LIMIT marks
following the input limiters; one that is not powered sends nothing; APPLY_INSTANT of an island with a due apply entry
drives the last accepted words outside safe values, and is nothing without one; SAFE_VALUE_TIMEOUT takes the safe
values once, of an island that has had its first words, and drives nothing before: HOLD keeps what was driven, SAFE
gives the rest; of an analogue island SAFEMODE decides; FIELD_SUPPLY_MEASURE stores L+, and LOW and MISSING change
only after 10 ms. The model's choices: the half nanosecond of an odd number of core cycles is dropped from the sample
time (log entry 87); ten measures 1 ms apart are 10 ms (log entry 114). COMPLETE here (the conclusion is that exec
answers a next state t): sampleInstant, applyInstant, safeValueTimeout, fieldSupplyMeasure. -/
def Obligations.FieldIslandInstants : Prop :=
    (∀ (island : Fin 25) (offset : BitVec 17) (meas : List (BitVec 16)) (limits : BitVec 4) (s : State), (Instr.sampleInstant island offset meas limits).wf = true →
      island.val ≤ 14 →
      (s.diI (island.val - 11)).powered = true →
      sampleDue s island.val offset.toNat = true →
      ∃ t, exec (.sampleInstant island offset meas limits) s = .next t ∧ s.sameBut [.regs, .logm, .ecc, .ports, .xcnt, .logNext, .logCompl, .logCount, .logged, .di, .ao, .stime] t ∧
        sget 0#32 t.stime (2048 + 64 * island.val) = w32 (s.eng.slotBase + offset.toNat * 5 / 2) ∧
        t.port (64 * island.val) = { (s.port (64 * island.val)) with src := w32 ((s.diI (island.val - 11)).state + (s.diI (island.val - 11)).changed * 2 ^ 16), transit := true } ∧
        t.diI (island.val - 11) = { (s.diI (island.val - 11)) with changed := 0 }) ∧
    (∀ (island : Fin 25) (offset : BitVec 17) (meas : List (BitVec 16)) (limits : BitVec 4) (s : State), (Instr.sampleInstant island offset meas limits).wf = true →
      15 ≤ island.val →
      island.val ≤ 16 →
      (s.doI (island.val - 15)).powered = true →
      sampleDue s island.val offset.toNat = true →
      ∃ t, exec (.sampleInstant island offset meas limits) s = .next t ∧ s.sameBut [.regs, .logm, .ecc, .ports, .xcnt, .logNext, .logCompl, .logCount, .logged, .di, .ao, .stime] t ∧
        (∀ k, k < 3 → sget 0#32 t.stime (2048 + 64 * island.val + k) = w32 (s.eng.slotBase + offset.toNat * 5 / 2) ∧ (t.port (64 * island.val + k)).transit = true) ∧
        (t.port (64 * island.val)).src = w32 ((meas.headD 0#16).toNat) ∧
        (t.port (64 * island.val + 1)).src = w32 ((s.doI (island.val - 15)).ovl + (s.doI (island.val - 15)).opens * 2 ^ 16) ∧
        (t.port (64 * island.val + 2)).src = supplyWord (s.sup island.val) (s.doI (island.val - 15)).safeOn (s.doI (island.val - 15)).cfgd ∧
        t.dout = s.dout) ∧
    (∀ (island : Fin 25) (offset : BitVec 17) (meas : List (BitVec 16)) (limits : BitVec 4) (s : State), (Instr.sampleInstant island offset meas limits).wf = true →
      17 ≤ island.val →
      (s.aoI (island.val - 17)).powered = true →
      sampleDue s island.val offset.toNat = true →
      ∃ t, exec (.sampleInstant island offset meas limits) s = .next t ∧ s.sameBut [.regs, .logm, .ecc, .ports, .xcnt, .logNext, .logCompl, .logCount, .logged, .di, .ao, .stime] t ∧
        (∀ k, k < 13 → sget 0#32 t.stime (2048 + 64 * island.val + k) = w32 (s.eng.slotBase + offset.toNat * 5 / 2) ∧ (t.port (64 * island.val + k)).transit = true) ∧
        (∀ c, c < 4 → (t.port (64 * island.val + c)).src = w32 ((meas.getD c 0#16).toNat + b2n ((s.aoI (island.val - 17)).chan c).rbDev * 2 ^ 16 + b2n ((s.aoI (island.val - 17)).chan c).on * 2 ^ 17)) ∧
        (∀ c, c < 4 → (t.port (64 * island.val + 4 + c)).src = w32 (meas.getD (if ((s.aoI (island.val - 17)).chan c).mode && ((s.aoI (island.val - 17)).chan c).insrc then c else 4 + c) 0#16).toNat) ∧
        (∀ c, c < 4 → (t.aoI (island.val - 17)).chan c = { ((s.aoI (island.val - 17)).chan c) with limit := ((s.aoI (island.val - 17)).chan c).mode && limits.toNat.testBit c }) ∧
        (t.port (64 * island.val + 12)).src = astatWord t (island.val - 17)) ∧
    (∀ (island : Fin 25) (offset : BitVec 17) (meas : List (BitVec 16)) (limits : BitVec 4) (s : State), (Instr.sampleInstant island offset meas limits).wf = true →
      (islandPowered s island.val = false ∨ sampleDue s island.val offset.toNat = false) →
      ∃ t, exec (.sampleInstant island offset meas limits) s = .next t ∧ s.sameBut [.regs, .logm, .ecc, .ports, .xcnt, .logNext, .logCompl, .logCount, .logged, .di, .ao, .stime] t ∧
        t = s) ∧
    (∀ (island : Fin 25) (s : State), (Instr.applyInstant island).wf = true →
      applyDue s island.val = false →
      ∃ t, exec (.applyInstant island) s = .next t ∧ s.sameBut [.dout, .ao] t ∧
        t = s) ∧
    (∀ (island : Fin 25) (s : State), (Instr.applyInstant island).wf = true →
      applyDue s island.val = true →
      island.val ≤ 16 →
      (s.doI (island.val - 15)).powered = true →
      (s.doI (island.val - 15)).safeOn = false →
      ∃ t, exec (.applyInstant island) s = .next t ∧ s.sameBut [.dout, .ao] t ∧
        ((t.doI (island.val - 15)).drive = (if (s.doI (island.val - 15)).cfgd && (s.doI (island.val - 15)).gotOut then minus16 (s.doI (island.val - 15)).out (s.doI (island.val - 15)).ovl else 0)) ∧
        (t.doI (island.val - 15)).out = (s.doI (island.val - 15)).out) ∧
    (∀ (island : Fin 25) (s : State), (Instr.applyInstant island).wf = true →
      applyDue s island.val = true →
      17 ≤ island.val →
      (s.aoI (island.val - 17)).powered = true →
      (s.aoI (island.val - 17)).safeOn = false →
      ∃ t, exec (.applyInstant island) s = .next t ∧ s.sameBut [.dout, .ao] t ∧
        (∀ c, c < 4 → (s.aoI (island.val - 17)).en.testBit c = false → ((t.aoI (island.val - 17)).chan c).on = false) ∧
        (∀ c, c < 4 → ((t.aoI (island.val - 17)).chan c).code = (sget (0, 0) (s.aoI (island.val - 17)).pendCode c).1)) ∧
    (∀ (island : Fin 25) (s : State), (Instr.safeValueTimeout island).wf = true →
      island.val ≤ 16 →
      (s.doI (island.val - 15)).powered = true →
      (s.doI (island.val - 15)).safeOn = false →
      ((s.doI (island.val - 15)).cfgd && (s.doI (island.val - 15)).gotOut) = false →
      ∃ t, exec (.safeValueTimeout island) s = .next t ∧ s.sameBut [.dout, .ao] t ∧
        (t.doI (island.val - 15)).safeOn = true ∧
        (t.doI (island.val - 15)).drive = 0) ∧
    (∀ (island : Fin 25) (s : State), (Instr.safeValueTimeout island).wf = true →
      island.val ≤ 16 →
      (s.doI (island.val - 15)).powered = true →
      (s.doI (island.val - 15)).safeOn = false →
      (s.doI (island.val - 15)).cfgd = true →
      (s.doI (island.val - 15)).gotOut = true →
      ∃ t, exec (.safeValueTimeout island) s = .next t ∧ s.sameBut [.dout, .ao] t ∧
        (t.doI (island.val - 15)).safeOn = true ∧
        (t.doI (island.val - 15)).drive = minus16 (((s.doI (island.val - 15)).drive &&& (s.doI (island.val - 15)).hold) ||| minus16 (s.doI (island.val - 15)).safe (s.doI (island.val - 15)).hold) (s.doI (island.val - 15)).ovl ∧
        (t.doI (island.val - 15)).ovl = (s.doI (island.val - 15)).ovl) ∧
    (∀ (island : Fin 25) (s : State), (Instr.safeValueTimeout island).wf = true →
      17 ≤ island.val →
      (s.aoI (island.val - 17)).powered = true →
      (s.aoI (island.val - 17)).safeOn = false →
      ((s.aoI (island.val - 17)).cfgd && (s.aoI (island.val - 17)).gotAcmd) = false →
      ∃ t, exec (.safeValueTimeout island) s = .next t ∧ s.sameBut [.dout, .ao] t ∧
        t.aoI (island.val - 17) = { (s.aoI (island.val - 17)) with safeOn := true }) ∧
    (∀ (island : Fin 25) (s : State), (Instr.safeValueTimeout island).wf = true →
      17 ≤ island.val →
      (s.aoI (island.val - 17)).powered = true →
      (s.aoI (island.val - 17)).safeOn = false →
      (s.aoI (island.val - 17)).cfgd = true →
      (s.aoI (island.val - 17)).gotAcmd = true →
      ∃ t, exec (.safeValueTimeout island) s = .next t ∧ s.sameBut [.dout, .ao] t ∧
        (t.aoI (island.val - 17)).safeOn = true ∧
        (∀ c, c < 4 → ((s.aoI (island.val - 17)).chan c).safemode = 0 → ((s.aoI (island.val - 17)).chan c).mode = false → ((t.aoI (island.val - 17)).chan c).on = false) ∧
        (∀ c, c < 4 → ((s.aoI (island.val - 17)).chan c).safemode = 1 → ((s.aoI (island.val - 17)).chan c).miswire = false → (t.aoI (island.val - 17)).chan c = (s.aoI (island.val - 17)).chan c) ∧
        (∀ c, c < 4 → ((s.aoI (island.val - 17)).chan c).safemode = 2 → ((s.aoI (island.val - 17)).chan c).mode = false → ((s.aoI (island.val - 17)).chan c).miswire = false → ((t.aoI (island.val - 17)).chan c).target = ((s.aoI (island.val - 17)).chan c).safeCode)) ∧
    (∀ (island : Fin 25) (mv : BitVec 16) (s : State), (Instr.fieldSupplyMeasure island mv).wf = true →
      islandPowered s island.val = true →
      ∃ t, exec (.fieldSupplyMeasure island mv) s = .next t ∧ s.sameBut [.di, .dout, .supply] t ∧
        (t.sup island.val).mv = mv.toNat ∧
        ((t.sup island.val).low = (if below (s.sup island.val).low mv.toNat 19200 ≠ (s.sup island.val).low ∧ 9 ≤ (s.sup island.val).lowMs then !(s.sup island.val).low else (s.sup island.val).low)) ∧
        ((t.sup island.val).missing = (if below (s.sup island.val).missing mv.toNat 10000 ≠ (s.sup island.val).missing ∧ 9 ≤ (s.sup island.val).missMs then !(s.sup island.val).missing else (s.sup island.val).missing)) ∧
        (∀ k, k ≠ island.val → t.sup k = s.sup k))

/-- METERING_SAMPLE with MCLK running puts the raw sample of each of the 30 channels on its port and pushes a frame of 33
words, the sample number with LOCK and PF, the 30 raw samples, OVR and STUCK, where its queue has room for them, else
marks a lost frame and pushes nothing; EDGE_LOW and EDGE_HIGH give each of their channels the edge of their bit, to
apply at the next sample; S0_PULSE makes the output busy, S0_PULSE_END frees it. COMPLETE here (the conclusion is that
exec answers a next state t): meteringSample, edgeLow, edgeHigh, s0Pulse, s0PulseEnd. -/
def Obligations.MeteringIsland : Prop :=
    (∀ (n : Fin 16000) (secs : BitVec 16) (bits : List (BitVec 1250)) (s : State), s.mtr.mclk = true →
      ∃ t, exec (.meteringSample n secs bits) s = .next t ∧ s.sameBut [.regs, .mirror, .logm, .quem, .ecc, .ports, .xcnt, .logNext, .logCompl, .logCount, .logged, .mtr, .bus] t ∧
        (∀ k, k < 30 → t.mch k = (mtrDecimate (s.mch k) ((bits.drop k).headD 0)).1) ∧
        (∀ k, k < 30 → (t.port (576 + k)).src = (mtrDecimate (s.mch k) ((bits.drop k).headD 0)).2 ∧ (t.port (576 + k)).transit = true) ∧
        (∀ o, o < 8 → sget 0 t.mtr.onLeft o = sget 0 s.mtr.onLeft o - 1) ∧
        t.mtr.frameLost = decide (islandRoom s 9 0 < 33) ∧
        (islandRoom s 9 0 < 33 → t.quem = s.quem)) ∧
    (∀ (n : Fin 16000) (secs : BitVec 16) (bits : List (BitVec 1250)) (q : Nat) (s : State), s.mtr.mclk = true →
      qOfProd s (epIsland 9 0) = some q →
      qLevel s q + 33 ≤ qSize s q →
      qLevel s q + 33 < 2 ^ 15 →
      ∃ t, exec (.meteringSample n secs bits) s = .next t ∧ s.sameBut [.regs, .mirror, .logm, .quem, .ecc, .ports, .xcnt, .logNext, .logCompl, .logCount, .logged, .mtr, .bus] t ∧
        qLevel t q = qLevel s q + 33 ∧
        t.qrd = s.qrd ∧
        t.mtr.frameLost = false ∧
        memBytes t.quem (qAddr s q (qLevel s q + 0)) 4 = leBytes 4 (w32 (n.val + secs.toNat * 2 ^ 14 + b2n (s.rb Reg.fabStat 16) * 2 ^ 30 + b2n s.mtr.pf * 2 ^ 31)).toNat ∧
        (∀ k, k < 30 → memBytes t.quem (qAddr s q (qLevel s q + (1 + k))) 4 = leBytes 4 ((mtrDecimate (s.mch k) ((bits.drop k).headD 0)).2).toNat) ∧
        memBytes t.quem (qAddr s q (qLevel s q + 31)) 4 = leBytes 4 (w32 (maskOf ((List.range 30).filter (fun k => mtrOvr (mtrDecimate (s.mch k) ((bits.drop k).headD 0)).2)))).toNat ∧
        memBytes t.quem (qAddr s q (qLevel s q + 32)) 4 = leBytes 4 (w32 (maskOf ((List.range 30).filter (fun k => (mtrDecimate (s.mch k) ((bits.drop k).headD 0)).1.stuck)))).toNat) ∧
    (∀ (n : Fin 16000) (secs : BitVec 16) (bits : List (BitVec 1250)) (s : State), s.mtr.mclk = false →
      ∃ t, exec (.meteringSample n secs bits) s = .next t ∧ s.sameBut [.regs, .mirror, .logm, .quem, .ecc, .ports, .xcnt, .logNext, .logCompl, .logCount, .logged, .mtr, .bus] t ∧
        t = s) ∧
    (∀ (edges : BitVec 16) (s : State), ∃ t, exec (.edgeLow edges) s = .next t ∧ s.sameBut [.mtr] t ∧
        (∀ k, k < 16 → t.mch k = { (s.mch k) with edgeNext := some (edges.toNat.testBit k) }) ∧
        (∀ k, k ∉ List.range 16 → t.mch k = s.mch k)) ∧
    (∀ (edges : BitVec 14) (s : State), ∃ t, exec (.edgeHigh edges) s = .next t ∧ s.sameBut [.mtr] t ∧
        (∀ k, k < 14 → t.mch (16 + k) = { (s.mch (16 + k)) with edgeNext := some (edges.toNat.testBit k) }) ∧
        (∀ k, k < 16 → t.mch k = s.mch k)) ∧
    (∀ (out : Fin 8) (width : BitVec 8) (s : State), ∃ t, exec (.s0Pulse out width) s = .next t ∧ s.sameBut [.mtr] t ∧
        t.mtr.busy = s.mtr.busy ||| 2 ^ out.val ∧
        sget 0 t.mtr.width out.val = width.toNat ∧
        sget 0 t.mtr.onLeft out.val = 16 * width.toNat ∧
        t.mtr.ch = s.mtr.ch) ∧
    (∀ (out : Fin 8) (s : State), ∃ t, exec (.s0PulseEnd out) s = .next t ∧ s.sameBut [.mtr] t ∧
        t.mtr.busy.testBit out.val = false ∧
        (∀ o, o < 8 → o ≠ out.val → t.mtr.busy.testBit o = s.mtr.busy.testBit o) ∧
        sget 0 t.mtr.onLeft out.val = 0 ∧
        t.mtr.width = s.mtr.width)

/-- INTERVAL_CLOSE of an interval in progress leaves the next one in progress with no sample and sends a commit record
with the next SEQ, the totals and the pulse counts as they then stand, into the copy that does not hold the newest
record; while one is under way for less than 0.4 ms the record waits; PARTIAL_INTERVAL_CLOSE closes what the interval
holds, leaves the next one and sends a record with LAST = 1 and, of an interval begun and not whole, PART and its
number of samples; METERING_COMMIT_DONE writes the record into its copy of FeRAM and reports in PSTAT, or on failure
counts it and keeps the newest copy, and the next record that waits is sent; HARMONIC_WINDOW takes the L samples of
its window once they are there; CAPTURE_SAMPLE pushes the words of one waiting sample, one for each channel of the
mask, into the capture queue while there is room, truncates the capture otherwise, and leaves the state where no
sample waits. The model's choices: the word of PSTAT is free, and records wait, whole intervals before a switch share
one record (log entry 121); FTIME before any sample (log entry 113). COMPLETE here (the conclusion is that exec
answers a next state t): intervalClose, partialIntervalClose, meteringCommitDone, harmonicWindow, captureSample. -/
def Obligations.MeteringIntervals : Prop :=
    (∀ (s : State), (consume false frameFuel (mtrFirst s)).mtr.interval = none →
      ∃ t, exec .intervalClose s = .next t ∧ s.sameBut [.regs, .mirror, .logm, .quem, .feram, .ecc, .qrd, .ports, .xcnt, .logNext, .logCompl, .logCount, .logged, .mtr, .bus, .freeCtr] t ∧
        t = (consume false frameFuel (mtrFirst s))) ∧
    (∀ (j : Nat) (s : State), (consume false frameFuel (mtrFirst s)).mtr.interval = some j →
      ∃ t, exec .intervalClose s = .next t ∧ s.sameBut [.regs, .mirror, .logm, .quem, .feram, .ecc, .qrd, .ports, .xcnt, .logNext, .logCompl, .logCount, .logged, .mtr, .bus, .freeCtr] t ∧
        t.mtr.interval = some ((j + 1) % 100) ∧
        t.mtr.k = 0 ∧
        t.mtr.sums = [] ∧
        t.mtr.gapIn = false ∧
        t.mtr.seq = s.mtr.seq + 1 ∧
        t.mtr.commit.isSome = true) ∧
    (∀ (j : Nat) (s : State), (consume false frameFuel (mtrFirst s)).mtr.interval = some j →
      (consume false frameFuel (mtrFirst s)).mtr.commit = none →
      ∃ t, exec .intervalClose s = .next t ∧ s.sameBut [.regs, .mirror, .logm, .quem, .feram, .ecc, .qrd, .ports, .xcnt, .logNext, .logCompl, .logCount, .logged, .mtr, .bus, .freeCtr] t ∧
        (∃ ws, t.mtr.commit = some (if (consume false frameFuel (mtrFirst s)).mtr.newest = some 0 then 1 else 0, ws) ∧ commitHolds t false false 0 ws) ∧
        t.mtr.commitAt = s.fabTime) ∧
    (∀ (j : Nat) (x : Nat × List Word) (s : State), (consume false frameFuel (mtrFirst s)).mtr.interval = some j →
      (consume false frameFuel (mtrFirst s)).mtr.commit = some x →
      s.fabTime < (consume false frameFuel (mtrFirst s)).mtr.commitAt + 400000 →
      ∃ t, exec .intervalClose s = .next t ∧ s.sameBut [.regs, .mirror, .logm, .quem, .feram, .ecc, .qrd, .ports, .xcnt, .logNext, .logCompl, .logCount, .logged, .mtr, .bus, .freeCtr] t ∧
        t.mtr.commit = some x ∧
        (∃ ws, t.mtr.queued = (consume false frameFuel (mtrFirst s)).mtr.queued ++ [ws] ∧ commitHolds t false false 0 ws)) ∧
    (∀ (s : State), (consumeAll intervalFuel (mtrFirst s)).mtr.commit = none →
      ∃ t, exec .partialIntervalClose s = .next t ∧ s.sameBut [.regs, .mirror, .logm, .quem, .feram, .ecc, .qrd, .ports, .xcnt, .logNext, .logCompl, .logCount, .logged, .mtr, .bus, .freeCtr] t ∧
        t.mtr.interval = (consumeAll intervalFuel (mtrFirst s)).mtr.interval.map (fun j => (j + 1) % 100) ∧
        (∃ ws, t.mtr.commit = some (if (consumeAll intervalFuel (mtrFirst s)).mtr.newest = some 0 then 1 else 0, ws) ∧ commitHolds t true (decide (0 < (consumeAll intervalFuel (mtrFirst s)).mtr.k) && decide ((consumeAll intervalFuel (mtrFirst s)).mtr.k < 160)) (consumeAll intervalFuel (mtrFirst s)).mtr.k ws)) ∧
    (∀ (s : State), ∃ t, exec .partialIntervalClose s = .next t ∧ s.sameBut [.regs, .mirror, .logm, .quem, .feram, .ecc, .qrd, .ports, .xcnt, .logNext, .logCompl, .logCount, .logged, .mtr, .bus, .freeCtr] t ∧
        t.mtr.k = 0 ∧
        t.mtr.sums = [] ∧
        t.mtr.interval = (consumeAll intervalFuel (mtrFirst s)).mtr.interval.map (fun j => (j + 1) % 100) ∧
        t.mtr.seq = s.mtr.seq + 1 ∧
        t.mtr.commit.isSome = true) ∧
    (∀ (ok : Bool) (copy : Nat) (ws : List Word) (s : State), s.mtr.commit = some (copy, ws) →
      ok = true →
      s.mtr.queued = [] →
      ∃ t, exec (.meteringCommitDone ok) s = .next t ∧ s.sameBut [.regs, .mirror, .logm, .feram, .ecc, .ports, .xcnt, .logNext, .logCompl, .logCount, .logged, .mtr, .freeCtr] t ∧
        t.feram = memPut s.feram (1024 * copy) (wordBytes ws) ∧
        t.mtr = { s.mtr with commit := none, newest := some copy } ∧
        t.reg Reg.mtrFseqLo = ws.getD 1 0#32 ∧
        t.reg Reg.mtrFseqHi = ws.getD 2 0#32 ∧
        t.logNext = s.logNext ∧
        (t.port 1472).transit = true) ∧
    (∀ (ok : Bool) (copy : Nat) (ws : List Word) (v : List Word) (r : List (List Word)) (s : State), s.mtr.commit = some (copy, ws) →
      ok = true →
      s.mtr.queued = v :: r →
      ∃ t, exec (.meteringCommitDone ok) s = .next t ∧ s.sameBut [.regs, .mirror, .logm, .feram, .ecc, .ports, .xcnt, .logNext, .logCompl, .logCount, .logged, .mtr, .freeCtr] t ∧
        t.feram = memPut s.feram (1024 * copy) (wordBytes ws) ∧
        (t.mtr = { s.mtr with commit := some (if copy = 0 then 1 else 0, v), newest := some copy, queued := r, commitAt := s.fabTime })) ∧
    (∀ (ok : Bool) (s : State), s.mtr.commit = none →
      ∃ t, exec (.meteringCommitDone ok) s = .next t ∧ s.sameBut [.regs, .mirror, .logm, .feram, .ecc, .ports, .xcnt, .logNext, .logCompl, .logCount, .logged, .mtr, .freeCtr] t ∧
        t = s) ∧
    (∀ (ok : Bool) (copy : Nat) (ws : List Word) (s : State), s.mtr.commit = some (copy, ws) →
      ok = false →
      s.mtr.queued = [] →
      ∃ t, exec (.meteringCommitDone ok) s = .next t ∧ s.sameBut [.regs, .mirror, .logm, .feram, .ecc, .ports, .xcnt, .logNext, .logCompl, .logCount, .logged, .mtr, .freeCtr] t ∧
        t.mtr = { s.mtr with commit := none } ∧
        t.rf Reg.mtrFstat 15 8 = min (s.rf Reg.mtrFstat 15 8 + 1) 255 ∧
        t.rb Reg.mtrEvt 4 = true ∧
        (∀ a, (a < 1024 * copy ∨ 1024 * copy + 1024 ≤ a) → memGet t.feram a = memGet s.feram a)) ∧
    (∀ (setB : Bool) (s : State), winLen s setB ≤ (sget win0 s.mtr.win (b2n setB)).samples.length →
      ∃ t, exec (.harmonicWindow setB) s = .next t ∧ s.sameBut [.regs, .mirror, .logm, .quem, .ecc, .ports, .xcnt, .logNext, .logCompl, .logCount, .logged, .mtr, .bus, .freeCtr] t ∧
        (sget win0 t.mtr.win (b2n setB)).samples = (sget win0 s.mtr.win (b2n setB)).samples.drop (winLen s setB) ∧
        sget win0 t.mtr.win (1 - b2n setB) = sget win0 s.mtr.win (1 - b2n setB) ∧
        t.mtr.sums = s.mtr.sums) ∧
    (∀ (setB : Bool) (s : State), (sget win0 s.mtr.win (b2n setB)).samples.length < winLen s setB →
      ∃ t, exec (.harmonicWindow setB) s = .next t ∧ s.sameBut [.regs, .mirror, .logm, .quem, .ecc, .ports, .xcnt, .logNext, .logCompl, .logCount, .logged, .mtr, .bus, .freeCtr] t ∧
        t = s) ∧
    (∀ (x : Capture) (s : State), s.mtr.cap = some x →
      x.pushed < x.count →
      s.mtr.capq = [] →
      ∃ t, exec .captureSample s = .next t ∧ s.sameBut [.regs, .mirror, .logm, .quem, .ecc, .ports, .xcnt, .logNext, .logCompl, .logCount, .logged, .mtr, .bus] t ∧
        t = s) ∧
    (∀ (x : Capture) (e : MtrSmp) (rest : List MtrSmp) (s : State), s.mtr.cap = some x →
      s.mtr.capq = e :: rest →
      x.pushed + 1 < x.count →
      qLevel s (s.rf Reg.mtrWcCfg 5 0) + (bitsOf 30 x.mask).length ≤ qSize s (s.rf Reg.mtrWcCfg 5 0) →
      ∃ t, exec .captureSample s = .next t ∧ s.sameBut [.regs, .mirror, .logm, .quem, .ecc, .ports, .xcnt, .logNext, .logCompl, .logCount, .logged, .mtr, .bus] t ∧
        t.mtr = { s.mtr with cap := some { x with pushed := x.pushed + 1 }, capq := rest } ∧
        t.reg Reg.mtrWcStat = w32 (1 + (x.pushed + 1) * 2 ^ 16)) ∧
    (∀ (x : Capture) (e : MtrSmp) (rest : List MtrSmp) (s : State), s.mtr.cap = some x →
      s.mtr.capq = e :: rest →
      x.pushed < x.count →
      qSize s (s.rf Reg.mtrWcCfg 5 0) ≠ 0 →
      qProd s (s.rf Reg.mtrWcCfg 5 0) = epEngine →
      qLevel s (s.rf Reg.mtrWcCfg 5 0) + (bitsOf 30 x.mask).length ≤ qSize s (s.rf Reg.mtrWcCfg 5 0) →
      qLevel s (s.rf Reg.mtrWcCfg 5 0) + (bitsOf 30 x.mask).length < 2 ^ 15 →
      ∃ t, exec .captureSample s = .next t ∧ s.sameBut [.regs, .mirror, .logm, .quem, .ecc, .ports, .xcnt, .logNext, .logCompl, .logCount, .logged, .mtr, .bus] t ∧
        qLevel t (s.rf Reg.mtrWcCfg 5 0) = qLevel s (s.rf Reg.mtrWcCfg 5 0) + (bitsOf 30 x.mask).length ∧
        (∀ k, k < (bitsOf 30 x.mask).length → memBytes t.quem (qAddr s (s.rf Reg.mtrWcCfg 5 0) (qLevel s (s.rf Reg.mtrWcCfg 5 0) + k)) 4 = leBytes 4 ((if x.fmt then e.val else e.raw).getD ((bitsOf 30 x.mask).getD k 0) 0#32).toNat) ∧
        t.qrd = s.qrd ∧
        (x.pushed + 1 = x.count → t.mtr.cap = none ∧ t.reg Reg.mtrWcStat = w32 (2 + x.count * 2 ^ 16))) ∧
    (∀ (x : Capture) (e : MtrSmp) (rest : List MtrSmp) (s : State), s.mtr.cap = some x →
      s.mtr.capq = e :: rest →
      x.pushed < x.count →
      qSize s (s.rf Reg.mtrWcCfg 5 0) < qLevel s (s.rf Reg.mtrWcCfg 5 0) + (bitsOf 30 x.mask).length →
      ∃ t, exec .captureSample s = .next t ∧ s.sameBut [.regs, .mirror, .logm, .quem, .ecc, .ports, .xcnt, .logNext, .logCompl, .logCount, .logged, .mtr, .bus] t ∧
        t.mtr = { s.mtr with cap := none, capq := [] } ∧
        t.reg Reg.mtrWcStat = w32 (6 + x.pushed * 2 ^ 16) ∧
        t.rb Reg.mtrEvt 7 = true ∧
        t.quem = s.quem)

/-- LOOP_ATTEMPT of a slot that its path's start makes due: an AUTO computation with fresh inputs stores the law's output
and integrator, a MANUAL one the value of MANVAL, a stale input counts a miss and writes no point, MODE 0 does
nothing; FFW_WRITE stores the entry that is due; POINT_REFRESH writes PROCESS, the time, REFRESH, and VALUE unless the
point is forced, with the quality of its source: that R195 and R220 derive from a digital input's or an analogue
input's island, that of a circuit's last interval (R168), of a value from a bus good unless its station is
substituted; a value of a tenant channel that is not the point's is discarded and flagged (R230); FORCE_APPLY writes
the value of an enabled entry whose point no other entry names; SERVICE_CYCLE counts what its slices reserve and use,
and MINOR_CYCLE_BOUNDARY with m a multiple of PERIOD publishes the figures of the cycle that ends and begins the next;
STATION_CHECK leaves an unused station without state, and one that was not heard of in its time goes DOWN. The model's
choices: the starts counted for DIV (log entry 95), FIRST and the refresh of a forced point (log entry 47), which
paths are a service's slices (log entry 25), the quality by SUBMODE while a station is DOWN (log entry 26), the half
nanosecond of an odd core cycle (log entry 87). COMPLETE here (the conclusion is that exec answers a next state t):
loopAttempt, ffwWrite, pointRefresh, forceApply, serviceCycle, minorCycleBoundary, stationCheck. -/
def Obligations.LoopsAndPoints : Prop :=
    (∀ (n : Fin 128) (cycle : BitVec 17) (s : State), s.rb Reg.tteStat 0 = true →
      s.rb Reg.tteStat 1 = false →
      lpDue s n.val = true →
      (s.ctl.ffwDue.filter (fun e => e.1 == n.val)) = [] →
      lpMode s n.val = 2 →
      ptForced (ptW s (lpOut s n.val) 1) = false →
      testOn s n.val = none →
      ∃ t, exec (.loopAttempt n cycle) s = .next t ∧ s.sameBut [.regs, .mirror, .data, .logm, .quem, .ecc, .ports, .xcnt, .logNext, .logCompl, .logCount, .logged, .ctl, .bus, .freeCtr] t ∧
        ptW t (lpOut s n.val) 0 = s.reg (Reg.ctlLpManval n.val) ∧
        (t.lp n.val).first = false ∧
        (t.lp n.val).auto = false ∧
        (t.lp n.val).tried = lpStarts s n.val ∧
        (t.lp n.val).last = some s.eng.absM ∧
        t.eng = s.eng) ∧
    (∀ (n : Fin 128) (cycle : BitVec 17) (s : State), s.rb Reg.tteStat 0 = true →
      s.rb Reg.tteStat 1 = false →
      lpDue s n.val = true →
      (s.ctl.ffwDue.filter (fun e => e.1 == n.val)) = [] →
      lpMode s n.val = 1 →
      holdsTablet s = true →
      ptForced (ptW s (lpOut s n.val) 1) = false →
      testOn s n.val = none →
      lpSpSrc s n.val = false →
      lpFfen s n.val = false →
      lpStale s n.val (lpPv s n.val) = false →
      ptQual (ptW s (lpPv s n.val) 1) ≠ 2 →
      ∃ t, exec (.loopAttempt n cycle) s = .next t ∧ s.sameBut [.regs, .mirror, .data, .logm, .quem, .ecc, .ports, .xcnt, .logNext, .logCompl, .logCount, .logged, .ctl, .bus, .freeCtr] t ∧
        ptW t (lpOut s n.val) 0 = (lpAuto s n.val (lpDt s n.val) zeroF false).u.1 ∧
        t.lp n.val = { (s.lp n.val) with i := (lpAuto s n.val (lpDt s n.val) zeroF false).i.1, dPrev := (lpAuto s n.val (lpDt s n.val) zeroF false).d.1, pvPrev := ptW s (lpPv s n.val) 0, first := false, auto := true, last := some s.eng.absM, tried := lpStarts s n.val } ∧
        ptW t (lpOut s n.val) 2 = w32 (s.nowNs cycle.toNat)) ∧
    (∀ (n : Fin 128) (cycle : BitVec 17) (s : State), s.rb Reg.tteStat 0 = true →
      s.rb Reg.tteStat 1 = false →
      lpDue s n.val = true →
      (s.ctl.ffwDue.filter (fun e => e.1 == n.val)) = [] →
      lpMode s n.val = 1 →
      holdsTablet s = true →
      ptForced (ptW s (lpOut s n.val) 1) = false →
      testOn s n.val = none →
      lpStale s n.val (lpPv s n.val) = true →
      ∃ t, exec (.loopAttempt n cycle) s = .next t ∧ s.sameBut [.regs, .mirror, .data, .logm, .quem, .ecc, .ports, .xcnt, .logNext, .logCompl, .logCount, .logged, .ctl, .bus, .freeCtr] t ∧
        t.data = s.data ∧
        t.lp n.val = { (s.lp n.val) with first := true, tried := lpStarts s n.val } ∧
        t.rf (Reg.ctlLpMisses n.val) 15 0 = min (s.rf (Reg.ctlLpMisses n.val) 15 0 + 1) 65535) ∧
    (∀ (n : Fin 128) (cycle : BitVec 17) (s : State), s.rb Reg.tteStat 0 = true →
      s.rb Reg.tteStat 1 = false →
      lpDue s n.val = true →
      (s.ctl.ffwDue.filter (fun e => e.1 == n.val)) = [] →
      lpMode s n.val = 0 →
      testOn s n.val = none →
      ∃ t, exec (.loopAttempt n cycle) s = .next t ∧ s.sameBut [.regs, .mirror, .data, .logm, .quem, .ecc, .ports, .xcnt, .logNext, .logCompl, .logCount, .logged, .ctl, .bus, .freeCtr] t ∧
        t = s.setLp n.val { (s.lp n.val) with tried := lpStarts s n.val }) ∧
    (∀ (n : Fin 128) (cycle : BitVec 17) (s : State), lpDue s n.val = false →
      ∃ t, exec (.loopAttempt n cycle) s = .next t ∧ s.sameBut [.regs, .mirror, .data, .logm, .quem, .ecc, .ports, .xcnt, .logNext, .logCompl, .logCount, .logged, .ctl, .bus, .freeCtr] t ∧
        t = s) ∧
    (∀ (s : State), ∃ t, exec .ffwWrite s = .next t ∧ s.sameBut [.regs, .mirror, .data, .ecc, .ctl] t ∧
        t = ffwPut s.ctl.ffwDue { s with ctl := { s.ctl with ffwDue := [] } } ∧
        t.ctl = { s.ctl with ffwDue := [] }) ∧
    (∀ (n k : Nat) (v : Word) (s : State), s.ctl.ffwDue = [(n, k, v)] →
      ∃ t, exec .ffwWrite s = .next t ∧ s.sameBut [.regs, .mirror, .data, .ecc, .ctl] t ∧
        memW t.data (ffAddr n k) = v ∧
        t.rf Reg.ctlFfwStat 15 0 = (s.rf Reg.ctlFfwStat 15 0 + 1) % 65536 ∧
        (∀ a, (a < ffAddr n k ∨ ffAddr n k + 4 ≤ a) → memGet t.data a = memGet s.data a)) ∧
    (∀ (p : Fin 4096) (valid : Bool) (v : Word) (ts : BitVec 64) (src : PtSource) (chan : Option (BitVec 8)) (s : State), valid = true →
      chan = none →
      ptForced (ptW s p.val 1) = false →
      ∃ t, exec (.pointRefresh p valid v ts src chan) s = .next t ∧ s.sameBut [.regs, .mirror, .data, .logm, .ecc, .logNext, .logCompl, .logCount, .logged] t ∧
        ptW t p.val 0 = v ∧
        ptW t p.val 5 = v ∧
        ptW t p.val 2 = w32 ts.toNat ∧
        ptW t p.val 3 = w32 (ts.toNat / 2 ^ 32) ∧
        ptW t p.val 4 = nowOf s ∧
        ptValid (ptW t p.val 1) = true ∧
        fld (ptW t p.val 1) 1 0 = sourceQual s p.val src ∧
        (∀ a, (a < ptAddr p.val 0 ∨ ptAddr p.val 0 + 32 ≤ a) → memGet t.data a = memGet s.data a)) ∧
    (∀ (p : Fin 4096) (valid : Bool) (v : Word) (ts : BitVec 64) (src : PtSource) (chan : Option (BitVec 8)) (s : State), valid = true →
      chan = none →
      ptForced (ptW s p.val 1) = true →
      (forcedBy s p.val).isSome = true →
      ∃ t, exec (.pointRefresh p valid v ts src chan) s = .next t ∧ s.sameBut [.regs, .mirror, .data, .logm, .ecc, .logNext, .logCompl, .logCount, .logged] t ∧
        ptW t p.val 0 = ptW s p.val 0 ∧
        ptW t p.val 5 = v ∧
        ptForced (ptW t p.val 1) = true ∧
        (∀ a, (a < ptAddr p.val 0 ∨ ptAddr p.val 0 + 32 ≤ a) → memGet t.data a = memGet s.data a)) ∧
    (∀ (p : Fin 4096) (valid : Bool) (v : Word) (ts : BitVec 64) (src : PtSource) (chan : Option (BitVec 8)) (s : State), valid = false →
      ∃ t, exec (.pointRefresh p valid v ts src chan) s = .next t ∧ s.sameBut [.regs, .mirror, .data, .logm, .ecc, .logNext, .logCompl, .logCount, .logged] t ∧
        t = s) ∧
    (∀ (p : Fin 4096) (valid : Bool) (v : Word) (ts : BitVec 64) (chan : Option (BitVec 8)) (g : Fin 4) (k : Fin 16) (s : State), valid = true →
      chan = none →
      ∃ t, exec (.pointRefresh p valid v ts (.diChan g k) chan) s = .next t ∧ s.sameBut [.regs, .mirror, .data, .logm, .ecc, .logNext, .logCompl, .logCount, .logged] t ∧
        (fld (ptW t p.val 1) 1 0 = (if islandPowered s (11 + g.val) = false ∨ bit (s.reg (Reg.dioDiSupply g.val)) 19 = false ∨ bit (s.reg (Reg.dioDiSupply g.val)) 17 = true ∨ s.rb (Reg.dioDiBreak g.val) k.val = true then 2 else if bit (s.reg (Reg.dioDiSupply g.val)) 16 = true then 1 else 0))) ∧
    (∀ (p : Fin 4096) (valid : Bool) (v : Word) (ts : BitVec 64) (chan : Option (BitVec 8)) (a k : Fin 4) (s : State), valid = true →
      chan = none →
      ∃ t, exec (.pointRefresh p valid v ts (.aoIn a k) chan) s = .next t ∧ s.sameBut [.regs, .mirror, .data, .logm, .ecc, .logNext, .logCompl, .logCount, .logged] t ∧
        (fld (ptW t p.val 1) 1 0 = (if islandPowered s (17 + a.val) = false ∨ bit (s.reg (Reg.aioAgStat a.val)) 19 = false ∨ bit (s.reg (Reg.aioAgStat a.val)) (28 + k.val) = true ∨ atAlarm s a.val k.val (s.rf (Reg.aioAgChAin a.val k.val) 15 0) = true then 2 else if (s.rf (Reg.aioAgChAin a.val k.val) 15 0) < 10377 ∨ 55979 < (s.rf (Reg.aioAgChAin a.val k.val) 15 0) then 1 else 0))) ∧
    (∀ (p : Fin 4096) (valid : Bool) (v : Word) (ts : BitVec 64) (chan : Option (BitVec 8)) (n : Fin 8) (s : State), valid = true →
      chan = none →
      ∃ t, exec (.pointRefresh p valid v ts (.circuit n) chan) s = .next t ∧ s.sameBut [.regs, .mirror, .data, .logm, .ecc, .logNext, .logCompl, .logCount, .logged] t ∧
        fld (ptW t p.val 1) 1 0 = s.rf (Reg.mtrCirStat n.val) 7 6) ∧
    (∀ (p : Fin 4096) (valid : Bool) (v : Word) (ts : BitVec 64) (chan : Option (BitVec 8)) (s : State), valid = true →
      chan = none →
      ∃ t, exec (.pointRefresh p valid v ts .bus chan) s = .next t ∧ s.sameBut [.regs, .mirror, .data, .logm, .ecc, .logNext, .logCompl, .logCount, .logged] t ∧
        (fld (ptW t p.val 1) 1 0 = (if staDown s (ptStation (ptW s p.val 1)) then (if ptSubmode (ptW s p.val 1) ≤ 1 then 1 else 2) else 0))) ∧
    (∀ (p : Fin 4096) (valid : Bool) (v : Word) (ts : BitVec 64) (src : PtSource) (chan : Option (BitVec 8)) (k : BitVec 8) (s : State), valid = true →
      chan = some k →
      k.toNat ≠ ptTenant (ptW s p.val 1) →
      ∃ t, exec (.pointRefresh p valid v ts src chan) s = .next t ∧ s.sameBut [.regs, .mirror, .data, .logm, .ecc, .logNext, .logCompl, .logCount, .logged] t ∧
        t.data = s.data ∧
        t.rb Reg.ctlEvt 7 = true) ∧
    (∀ (p : Fin 4096) (valid : Bool) (v : Word) (ts : BitVec 64) (src : PtSource) (chan : Option (BitVec 8)) (k : BitVec 8) (s : State), valid = true →
      chan = some k →
      k.toNat = ptTenant (ptW s p.val 1) →
      ptForced (ptW s p.val 1) = false →
      ∃ t, exec (.pointRefresh p valid v ts src chan) s = .next t ∧ s.sameBut [.regs, .mirror, .data, .logm, .ecc, .logNext, .logCompl, .logCount, .logged] t ∧
        ptW t p.val 0 = v ∧
        ptW t p.val 5 = v ∧
        fld (ptW t p.val 1) 1 0 = sourceQual s p.val src ∧
        (∀ a, (a < ptAddr p.val 0 ∨ ptAddr p.val 0 + 32 ≤ a) → memGet t.data a = memGet s.data a)) ∧
    (∀ (f : Nat) (s : State), f < 256 →
      s.rb (Reg.ctlFrcCfg f) 15 = true →
      (∀ g ∈ List.range 256, g ≠ f → s.rb (Reg.ctlFrcCfg g) 15 = true → s.rf (Reg.ctlFrcCfg g) 11 0 ≠ s.rf (Reg.ctlFrcCfg f) 11 0) →
      ∃ t, exec .forceApply s = .next t ∧ s.sameBut [.data, .ecc] t ∧
        ptW t (s.rf (Reg.ctlFrcCfg f) 11 0) 0 = s.reg (Reg.ctlFrcVal f) ∧
        ptForced (ptW t (s.rf (Reg.ctlFrcCfg f) 11 0) 1) = true ∧
        fld (ptW t (s.rf (Reg.ctlFrcCfg f) 11 0) 1) 1 0 = 0 ∧
        ptW t (s.rf (Reg.ctlFrcCfg f) 11 0) 4 = nowOf s ∧
        ptW t (s.rf (Reg.ctlFrcCfg f) 11 0) 5 = ptW s (s.rf (Reg.ctlFrcCfg f) 11 0) 5) ∧
    (∀ (sv : Fin 4) (cycle : BitVec 17) (outs : List (Fin 4096 × Word × BitVec 2)) (b : Nat) (s : State), s.rb Reg.tteStat 0 = true →
      s.rb Reg.tteStat 1 = false →
      s.svcOf sv.val = { start := some b, done := none } →
      sliceFault s sv.val = none →
      ∃ t, exec (.serviceCycle sv cycle outs) s = .next t ∧ s.sameBut [.data, .ecc, .ctl] t ∧
        ((Config.slicePaths sv.val).contains s.curPath = true → t.svcOf sv.val = { start := some b, done := some (s.eng.absM, spanCycles (sliceSpans s sv.val) (some (ptabEntry s.code false s.curPath).offset)) }) ∧
        ((Config.slicePaths sv.val).contains s.curPath = false → t = s) ∧
        (∀ k, k ≠ sv.val → t.svcOf k = s.svcOf k) ∧
        (outs = [] → t.data = s.data)) ∧
    (∀ (sv : Fin 4) (cycle : BitVec 17) (outs : List (Fin 4096 × Word × BitVec 2)) (s : State), ((s.svcOf sv.val).start = none ∨ (s.svcOf sv.val).done.isSome = true) →
      ∃ t, exec (.serviceCycle sv cycle outs) s = .next t ∧ s.sameBut [.data, .ecc, .ctl] t ∧
        t = s) ∧
    (∀ (v : Fin 4) (b : Nat) (s : State), s.eng.released = true →
      s.rb Reg.tteStat 0 = true →
      s.hamper.ltPending = false →
      s.boot.prog = false →
      s.boot.warmReq = none →
      s.eng.firstMinor = false →
      s.ecc = [] →
      s.reg Reg.sysCommitPend = 0#32 →
      svPeriod s v.val ≠ 0 →
      (s.m + 1) % s.nMinor % svPeriod s v.val = 0 →
      (s.svcOf v.val).start = some b →
      ∃ t, exec .minorCycleBoundary s = .next t ∧ s.sameBut [.regs, .mirror, .logm, .quem, .feram, .store, .ecc, .eng, .qrd, .ports, .xcnt, .host, .logNext, .logCompl, .logCount, .logged, .hattn, .opUs, .fabTime, .hamper, .pair, .boot, .mtr, .ctl, .sec, .fab, .bus, .lcd, .rtc, .freeCtr] t ∧
        t.svcOf v.val = { start := some (s.eng.absM + 1), done := none } ∧
        t.reg (Reg.ctlSvCycles v.val) = s.reg (Reg.ctlSvCycles v.val) + 1#32 ∧
        t.reg (Reg.ctlSvReserved v.val) = w32 ((s.eng.absM + 1 - b) * spanCycles (sliceSpans s v.val) none) ∧
        (∀ m rest, (s.svcOf v.val).done = some (m, rest) → sliceFault s v.val = none → t.reg (Reg.ctlSvIdle v.val) = w32 (rest + (s.eng.absM - m) * spanCycles (sliceSpans s v.val) none) ∧ t.reg (Reg.ctlSvStat v.val) = 2#32) ∧
        ((s.svcOf v.val).done = none → sliceFault s v.val = none → t.reg (Reg.ctlSvIdle v.val) = 0#32 ∧ t.reg (Reg.ctlSvStat v.val) = 0#32) ∧
        ((sliceFault s v.val).isSome = true → t.reg (Reg.ctlSvIdle v.val) = 0#32 ∧ t.reg (Reg.ctlSvStat v.val) = 1#32 ∧ t.rf (Reg.ctlSvFaults v.val) 15 0 = min (s.rf (Reg.ctlSvFaults v.val) 15 0 + 1) 65535 ∧ t.rb Reg.ctlEvt 4 = true)) ∧
    (∀ (n : Nat) (s : State), n < 64 →
      staOn s n = false →
      ∃ t, exec .stationCheck s = .next t ∧ s.sameBut [.regs, .mirror, .data, .logm, .ecc, .logNext, .logCompl, .logCount, .logged, .ctl] t ∧
        t.sta n = station0 ∧
        t.rf (Reg.ctlStaStat n) 2 0 = 0) ∧
    (∀ (n l : Nat) (s : State), n < 64 →
      staOn s n = true →
      (s.sta n).up = true →
      (s.sta n).last = some l →
      staTimeoutNs s n < s.fabTime - l →
      ∃ t, exec .stationCheck s = .next t ∧ s.sameBut [.regs, .mirror, .data, .logm, .ecc, .logNext, .logCompl, .logCount, .logged, .ctl] t ∧
        (t.sta n).up = false ∧
        (t.sta n).downAt = s.fabTime ∧
        t.rb Reg.ctlEvt 2 = true ∧
        t.rf (Reg.ctlStaStat n) 31 16 = min (s.rf (Reg.ctlStaStat n) 31 16 + 1) 65535)

/-- LINK_SIGNAL_PRESENT takes a DOWN link to TRAINING, SYMBOLS_ALIGNED a TRAINING link to DISCOVERY with nothing agreed,
and keeps whether its pairs are swapped or inverted (for the pair link that alone: the spec gives it no training
states, log entry 117), LINK_LOSS any other link than OFF to DOWN; POSITION with every check right marks the position
agreed and ends DISCOVERY where two exchanges are complete, keeps a link in PROBATION or UP where it is, and takes one
in QUARANTINE to PROBATION when 1 s has passed since the last repeat; with a check wrong it quarantines the link in
any of these states with the cause. PROBATION_CLEAN takes PROBATION to UP. No other link changes its state. The cause
is the first check of R269 that fails, in the order of the rule (the model's choice, log entry 50). COMPLETE here (the
conclusion is that exec answers a next state t): linkSignalPresent, symbolsAligned, linkLoss, position,
probationClean. -/
def Obligations.LinkStates : Prop :=
    (∀ (l : Fin 8) (s : State), lkState s l.val = 1 →
      s.boot.prog = false →
      ∃ t, exec (.linkSignalPresent l) s = .next t ∧ s.sameBut [.regs, .mirror, .logm, .ecc, .ports, .xcnt, .logNext, .logCompl, .logCount, .logged, .freeCtr] t ∧
        lkState t l.val = 2 ∧
        t.fab = s.fab ∧
        (t.port (64 * (1 + l.val))).transit = true ∧
        (∀ k, k < 8 → k ≠ l.val → lkState t k = lkState s k ∧ t.lk k = s.lk k)) ∧
    (∀ (l : Fin 9) (swap inverted : Bool) (s : State), l.val < 8 →
      lkState s l.val = 2 →
      s.boot.prog = false →
      ∃ t, exec (.symbolsAligned l swap inverted) s = .next t ∧ s.sameBut [.regs, .mirror, .logm, .ecc, .ports, .xcnt, .logNext, .logCompl, .logCount, .logged, .pair, .fab, .freeCtr] t ∧
        lkState t l.val = 3 ∧
        t.lk l.val = { (s.lk l.val) with agreed := false, exch := 0, nstr := 0x3F, bad := 0, tx := 0, rx := 0, swap := swap, inv := inverted } ∧
        (∀ k, k < 8 → k ≠ l.val → lkState t k = lkState s k ∧ t.lk k = s.lk k) ∧
        t.pair = s.pair) ∧
    (∀ (l : Fin 9) (swap inverted : Bool) (s : State), l.val = 8 →
      s.boot.prog = false →
      ∃ t, exec (.symbolsAligned l swap inverted) s = .next t ∧ s.sameBut [.regs, .mirror, .logm, .ecc, .ports, .xcnt, .logNext, .logCompl, .logCount, .logged, .pair, .fab, .freeCtr] t ∧
        t = { s with pair := { s.pair with swap := swap, inv := inverted } }) ∧
    (∀ (l : Fin 8) (s : State), 2 ≤ lkState s l.val →
      ∃ t, exec (.linkLoss l) s = .next t ∧ s.sameBut [.regs, .mirror, .logm, .ecc, .ports, .xcnt, .logNext, .logCompl, .logCount, .logged, .fab, .freeCtr] t ∧
        lkState t l.val = 1 ∧
        t.lk l.val = { (s.lk l.val) with agreed := false, exch := 0, nstr := 0x3F, bad := 0, tx := 0, rx := 0 } ∧
        (∀ k, k < 8 → k ≠ l.val → lkState t k = lkState s k ∧ t.lk k = s.lk k)) ∧
    (∀ (l : Fin 8) (addr : BitVec 16) (nlink : BitVec 8) (expAddr : BitVec 16) (expLink : BitVec 8) (hash : BitVec 64) (stratum : BitVec 8) (s : State), lkState s l.val = 3 →
      positionCause s l.val addr.toNat nlink.toNat expAddr.toNat expLink.toNat hash.toNat = 0 →
      s.boot.prog = false →
      ∃ t, exec (.position l addr nlink expAddr expLink hash stratum) s = .next t ∧ s.sameBut [.regs, .mirror, .logm, .ecc, .logNext, .logCompl, .logCount, .logged, .fab] t ∧
        t.lk l.val = { (s.lk l.val) with agreed := true, nstr := stratum.toNat } ∧
        (lkState t l.val = (if 2 ≤ (s.lk l.val).exch then 6 else 3)) ∧
        (∀ k, k < 8 → k ≠ l.val → lkState t k = lkState s k ∧ t.lk k = s.lk k)) ∧
    (∀ (l : Fin 8) (addr : BitVec 16) (nlink : BitVec 8) (expAddr : BitVec 16) (expLink : BitVec 8) (hash : BitVec 64) (stratum : BitVec 8) (s : State), (lkState s l.val = 5 ∨ lkState s l.val = 6) →
      positionCause s l.val addr.toNat nlink.toNat expAddr.toNat expLink.toNat hash.toNat = 0 →
      s.boot.prog = false →
      ∃ t, exec (.position l addr nlink expAddr expLink hash stratum) s = .next t ∧ s.sameBut [.regs, .mirror, .logm, .ecc, .logNext, .logCompl, .logCount, .logged, .fab] t ∧
        t.lk l.val = { (s.lk l.val) with agreed := true, nstr := stratum.toNat } ∧
        lkState t l.val = lkState s l.val ∧
        (∀ k, k < 8 → k ≠ l.val → lkState t k = lkState s k ∧ t.lk k = s.lk k)) ∧
    (∀ (l : Fin 8) (addr : BitVec 16) (nlink : BitVec 8) (expAddr : BitVec 16) (expLink : BitVec 8) (hash : BitVec 64) (stratum : BitVec 8) (s : State), lkState s l.val = 4 →
      positionCause s l.val addr.toNat nlink.toNat expAddr.toNat expLink.toNat hash.toNat = 0 →
      ((s.lk l.val).repAt + 1000000000 ≤ s.fabTime ∨ s.fabTime < (s.lk l.val).repAt) →
      s.boot.prog = false →
      ∃ t, exec (.position l addr nlink expAddr expLink hash stratum) s = .next t ∧ s.sameBut [.regs, .mirror, .logm, .ecc, .logNext, .logCompl, .logCount, .logged, .fab] t ∧
        t.lk l.val = { (s.lk l.val) with agreed := true, nstr := stratum.toNat, repAt := s.fabTime, probAt := s.fabTime } ∧
        lkState t l.val = 5 ∧
        (∀ k, k < 8 → k ≠ l.val → lkState t k = lkState s k ∧ t.lk k = s.lk k)) ∧
    (∀ (l : Fin 8) (addr : BitVec 16) (nlink : BitVec 8) (expAddr : BitVec 16) (expLink : BitVec 8) (hash : BitVec 64) (stratum : BitVec 8) (s : State), lkState s l.val = 4 →
      positionCause s l.val addr.toNat nlink.toNat expAddr.toNat expLink.toNat hash.toNat = 0 →
      ¬ ((s.lk l.val).repAt + 1000000000 ≤ s.fabTime ∨ s.fabTime < (s.lk l.val).repAt) →
      s.boot.prog = false →
      ∃ t, exec (.position l addr nlink expAddr expLink hash stratum) s = .next t ∧ s.sameBut [.regs, .mirror, .logm, .ecc, .logNext, .logCompl, .logCount, .logged, .fab] t ∧
        t = s.setLk l.val { (s.lk l.val) with nstr := stratum.toNat }) ∧
    (∀ (l : Fin 8) (addr : BitVec 16) (nlink : BitVec 8) (expAddr : BitVec 16) (expLink : BitVec 8) (hash : BitVec 64) (stratum : BitVec 8) (s : State), 3 ≤ lkState s l.val →
      positionCause s l.val addr.toNat nlink.toNat expAddr.toNat expLink.toNat hash.toNat ≠ 0 →
      s.boot.prog = false →
      ∃ t, exec (.position l addr nlink expAddr expLink hash stratum) s = .next t ∧ s.sameBut [.regs, .mirror, .logm, .ecc, .logNext, .logCompl, .logCount, .logged, .fab] t ∧
        lkState t l.val = 4 ∧
        t.rf (Reg.fabLkStat l.val) 7 4 = positionCause s l.val addr.toNat nlink.toNat expAddr.toNat expLink.toNat hash.toNat ∧
        (t.lk l.val).agreed = false ∧
        ((t.lk l.val).repAt = (if lkState s l.val ≠ 4 ∨ ((s.lk l.val).repAt + 1000000000 ≤ s.fabTime ∨ s.fabTime < (s.lk l.val).repAt) then s.fabTime else (s.lk l.val).repAt)) ∧
        (lkState s l.val ≠ 4 → t.rb Reg.fabEvt 1 = true) ∧
        t.rb Reg.fabEvt 2 = true ∧
        (∀ k, k < 8 → k ≠ l.val → lkState t k = lkState s k ∧ t.lk k = s.lk k)) ∧
    (∀ (l : Fin 8) (s : State), lkState s l.val = 5 →
      s.boot.prog = false →
      ∃ t, exec (.probationClean l) s = .next t ∧ s.sameBut [.regs, .mirror, .logm, .ecc, .logNext, .logCompl, .logCount, .logged] t ∧
        lkState t l.val = 6 ∧
        t.rf (Reg.fabLkStat l.val) 15 8 = 10 ∧
        t.fab = s.fab ∧
        (∀ k, k < 8 → k ≠ l.val → lkState t k = lkState s k ∧ t.lk k = s.lk k))

/-- CELL_RECEIVE of a right cell counts it and, of TYPE 0x03, takes its time; one with a wrong CRC is a violation and
pushes nothing; SLOT_START of an S slot with a whole S cell waiting sends it with its CRC, of a T slot a TIME cell
with the time of the slot; IDENTITY_POSITION_SEND uses one SEQ of each type; a TIME cell that is sent uses the receive
time up, so that one sent before the next is received carries RXT 0 (R272); a received cell of a tagged TYPE for this
module that is to be discarded for its tag refreshes no station (R32); TIME_CELL_SEND_BEFORE_RELEASE sends with fabric
time; TIME_EXCHANGE with the four times counts the exchange and stores OFFSET; HOLDOVER of a module that is no root
sets HOLDOVER. COMPLETE here (the conclusion is that exec answers a next state t): cellReceive, slotStart,
identityPositionSend, timeCellSendBeforeRelease, timeExchange, holdover. -/
def Obligations.CellsAndSlots : Prop :=
    (∀ (l : Fin 8) (slot : Fin 128) (ts : BitVec 64) (ws : List Word) (s : State), (Instr.cellReceive l slot ts ws).wf = true →
      3 ≤ lkState s l.val →
      cellCrc ws = ws.getD 15 0#32 →
      cellForm ws = true →
      statePasses (lkState s l.val) (cType ws) = true →
      s.eng.released = false →
      s.boot.prog = false →
      ∃ t, exec (.cellReceive l slot ts ws) s = .next t ∧ s.sameBut [.regs, .mirror, .logm, .quem, .ecc, .ports, .xcnt, .logNext, .logCompl, .logCount, .logged, .ctl, .fab, .bus] t ∧
        t.reg (Reg.fabLkRx l.val) = s.reg (Reg.fabLkRx l.val) + 1#32 ∧
        lkState t l.val = lkState s l.val ∧
        (cType ws = 3 → (t.lk l.val).rx = ts.toNat)) ∧
    (∀ (l : Fin 8) (slot : Fin 128) (ts : BitVec 64) (ws : List Word) (s : State), (Instr.cellReceive l slot ts ws).wf = true →
      lkState s l.val = 3 →
      cellCrc ws ≠ ws.getD 15 0#32 →
      s.boot.prog = false →
      ∃ t, exec (.cellReceive l slot ts ws) s = .next t ∧ s.sameBut [.regs, .mirror, .logm, .quem, .ecc, .ports, .xcnt, .logNext, .logCompl, .logCount, .logged, .ctl, .fab, .bus] t ∧
        t.rf (Reg.fabLkErr0 l.val) 15 0 = min (s.rf (Reg.fabLkErr0 l.val) 15 0 + 1) 65535 ∧
        t.quem = s.quem ∧
        t.fab = s.fab ∧
        s.regsBut [Reg.fabLkErr0 l.val] t) ∧
    (∀ (l : Fin 8) (slot : Fin 128) (ts : BitVec 64) (ws : List Word) (s : State), (Instr.cellReceive l slot ts ws).wf = true →
      3 ≤ lkState s l.val →
      cellCrc ws = ws.getD 15 0#32 →
      cellForm ws = true →
      statePasses (lkState s l.val) (cType ws) = true →
      s.eng.released = false →
      tagRefused s ws = true →
      s.boot.prog = false →
      ∃ t, exec (.cellReceive l slot ts ws) s = .next t ∧ s.sameBut [.regs, .mirror, .logm, .quem, .ecc, .ports, .xcnt, .logNext, .logCompl, .logCount, .logged, .ctl, .fab, .bus] t ∧
        t.ctl.stations = s.ctl.stations ∧
        t.reg (Reg.fabLkRx l.val) = s.reg (Reg.fabLkRx l.val) + 1#32) ∧
    (∀ (l : Fin 8) (slot : Fin 96) (s : State), s.eng.released = true →
      lkState s l.val = 6 →
      slotCls s l.val slot.val = 1 →
      txReady s l.val 2 0 = true →
      s.boot.prog = false →
      ∃ t, exec (.slotStart l slot) s = .next t ∧ s.sameBut [.regs, .mirror, .logm, .ecc, .qrd, .ports, .xcnt, .logNext, .logCompl, .logCount, .logged, .fab, .bus] t ∧
        t.reg (Reg.fabLkTx l.val) = s.reg (Reg.fabLkTx l.val) + 1#32 ∧
        (t.lk l.val).sent = cellLine (stampPosition (slotNs s slot.val) (txPop l.val 2 s).1)) ∧
    (∀ (l : Fin 8) (slot : Fin 96) (s : State), s.eng.released = true →
      lkState s l.val = 6 →
      slotCls s l.val slot.val = 1 →
      txLevel s l.val 2 < 16 →
      txReady s l.val 2 0 = false →
      s.boot.prog = false →
      ∃ t, exec (.slotStart l slot) s = .next t ∧ s.sameBut [.regs, .mirror, .logm, .ecc, .qrd, .ports, .xcnt, .logNext, .logCompl, .logCount, .logged, .fab, .bus] t ∧
        t.rf (Reg.fabLkDrop l.val) 31 16 = min (s.rf (Reg.fabLkDrop l.val) 31 16 + 1) 65535 ∧
        t.rb Reg.fabEvt 9 = true ∧
        t.fab = s.fab) ∧
    (∀ (l : Fin 8) (slot : Fin 96) (s : State), s.eng.released = true →
      lkState s l.val = 6 →
      slotCls s l.val slot.val = 2 →
      slotM s % 2 ^ s.rf Reg.fabTimeCfg 2 0 = 0 →
      s.boot.prog = false →
      ∃ t, exec (.slotStart l slot) s = .next t ∧ s.sameBut [.regs, .mirror, .logm, .ecc, .qrd, .ports, .xcnt, .logNext, .logCompl, .logCount, .logged, .fab, .bus] t ∧
        t.reg (Reg.fabLkTx l.val) = s.reg (Reg.fabLkTx l.val) + 1#32 ∧
        (t.lk l.val).tx = slotNs s slot.val ∧
        (t.lk l.val).rx = 0 ∧
        (t.lk l.val).count = ((s.lk l.val).count + 1) % 65536) ∧
    (∀ (l : Fin 8) (s : State), 3 ≤ lkState s l.val →
      s.boot.prog = false →
      ∃ t, exec (.identityPositionSend l) s = .next t ∧ s.sameBut [.regs, .mirror, .logm, .quem, .ecc, .ports, .xcnt, .logNext, .logCompl, .logCount, .logged, .fab, .bus] t ∧
        sget 0 t.fab.seq 0x100 = (sget 0 s.fab.seq 0x100 + 1) % 65536 ∧
        sget 0 t.fab.seq 0x200 = (sget 0 s.fab.seq 0x200 + 1) % 65536) ∧
    (∀ (l : Fin 8) (s : State), s.eng.released = false →
      3 ≤ lkState s l.val →
      s.boot.prog = false →
      ∃ t, exec (.timeCellSendBeforeRelease l) s = .next t ∧ s.sameBut [.regs, .mirror, .logm, .ecc, .ports, .xcnt, .logNext, .logCompl, .logCount, .logged, .fab] t ∧
        (t.lk l.val).tx = s.fabTime ∧
        (t.lk l.val).rx = 0 ∧
        (t.lk l.val).count = ((s.lk l.val).count + 1) % 65536 ∧
        t.reg (Reg.fabLkTx l.val) = s.reg (Reg.fabLkTx l.val) + 1#32) ∧
    (∀ (l : Fin 8) (t1 t2 t3 t4 : BitVec 64) (stratum : BitVec 8) (s : State), 3 ≤ lkState s l.val →
      t4.toNat ≠ 0 →
      s.boot.prog = false →
      ∃ t, exec (.timeExchange l t1 t2 t3 t4 stratum) s = .next t ∧ s.sameBut [.regs, .mirror, .logm, .ecc, .logNext, .logCompl, .logCount, .logged, .fabTime, .fab, .freeCtr] t ∧
        (t.lk l.val).exch = (s.lk l.val).exch + 1 ∧
        (t.lk l.val).nstr = stratum.toNat ∧
        ((t.lk l.val).bad = (if 2000 < (tDiff t2.toNat t1.toNat - tDiff t4.toNat t3.toNat).natAbs then (s.lk l.val).bad + 1 else 0)) ∧
        ((tDiff t4.toNat t3.toNat - tDiff t2.toNat t1.toNat) % 2 = 0 → t.reg (Reg.fabLkOffset l.val) = w32i ((tDiff t4.toNat t3.toNat - tDiff t2.toNat t1.toNat) / 2))) ∧
    (∀ (s : State), isRoot s = false →
      s.rb Reg.fabStat 17 = false →
      s.boot.prog = false →
      ∃ t, exec .holdover s = .next t ∧ s.sameBut [.regs, .mirror, .logm, .ecc, .logNext, .logCompl, .logCount, .logged, .fab, .freeCtr] t ∧
        t.rb Reg.fabStat 17 = true ∧
        t.rb Reg.fabTimeStat 1 = true ∧
        t.rb Reg.fabEvt 3 = true ∧
        t.fab = { s.fab with holdAt := s.fabTime })

/-- ROUTE_CELL of a cell for the module or for one link leaves the state, by a table entry whose link is UP it puts 16
words into the queue of the class, without a route it counts; STATUS_REPORT publishes the status word; FAULT_REPORT of
an originated report with no entry opens one, with one it is absorbed; a received one for another module whose TTL is
spent opens and joins no entry and is a violation of its link (R278); COALESCE_FLUSH leaves no entry of 100 ms;
TAG_REQUEST takes 16 words and answers with 3; TENANT_QUERY of 1 to 4 points whose tag verifies uses a SEQ of
TENANT_REPLY, without a key, with a tag that fails or of another form it answers nothing (N out of range, and NOKEY
after the last request: log entry 53; the PRIO of a reply is a free value, one draw: log entry 32); RRA_READ and
RRA_WRITE of one item read and write as the fabric master. COMPLETE here (the conclusion is that exec answers a next
state t): routeCell, statusReport, faultReport, coalesceFlush, tagRequest, tenantQuery, rraRead, rraWrite. -/
def Obligations.RoutesAndReports : Prop :=
    (∀ (arrival : Option (Fin 8)) (ws : List Word) (s : State), (Instr.routeCell arrival ws).wf = true →
      (cDest ws = 0xFFFF ∨ cDest ws = ownAddr s) →
      s.boot.prog = false →
      ∃ t, exec (.routeCell arrival ws) s = .next t ∧ s.sameBut [.regs, .mirror, .logm, .quem, .ecc, .ports, .xcnt, .logNext, .logCompl, .logCount, .logged, .fab, .bus] t ∧
        t = s) ∧
    (∀ (arrival : Option (Fin 8)) (ws : List Word) (l u q : Nat) (s : State), (Instr.routeCell arrival ws).wf = true →
      arrival = none →
      cDest ws ≠ 0xFFFF →
      cDest ws ≠ ownAddr s →
      routeLink s (cDest ws) = some (l, false) →
      txUnit (cClass ws) (cPrio ws) = some u →
      qOfCons s (epIsland (1 + l) u) = some q →
      qLevel s q + 16 ≤ qSize s q →
      qLevel s q + 16 < 2 ^ 15 →
      s.boot.prog = false →
      ∃ t, exec (.routeCell arrival ws) s = .next t ∧ s.sameBut [.regs, .mirror, .logm, .quem, .ecc, .ports, .xcnt, .logNext, .logCompl, .logCount, .logged, .fab, .bus] t ∧
        qLevel t q = qLevel s q + 16 ∧
        t.fab = s.fab) ∧
    (∀ (arrival : Option (Fin 8)) (ws : List Word) (s : State), (Instr.routeCell arrival ws).wf = true →
      arrival = none →
      cDest ws ≠ 0xFFFF →
      cDest ws ≠ ownAddr s →
      routeLink s (cDest ws) = none →
      s.boot.prog = false →
      ∃ t, exec (.routeCell arrival ws) s = .next t ∧ s.sameBut [.regs, .mirror, .logm, .quem, .ecc, .ports, .xcnt, .logNext, .logCompl, .logCount, .logged, .fab, .bus] t ∧
        t.rf Reg.fabRouteStat 15 0 = min (s.rf Reg.fabRouteStat 15 0 + 1) 65535 ∧
        t.rb Reg.fabEvt 5 = true ∧
        t.quem = s.quem) ∧
    (∀ (s : State), s.rb Reg.fabFaultDest 16 = false →
      s.boot.prog = false →
      ∃ t, exec .statusReport s = .next t ∧ s.sameBut [.regs, .mirror, .logm, .quem, .ecc, .ports, .xcnt, .logNext, .logCompl, .logCount, .logged, .fab, .bus, .freeCtr] t ∧
        t.reg Reg.fabStatus = w32 (statusWord s) ∧
        s.regsBut [Reg.fabStatus] t ∧
        t.freeCtr = s.freeCtr) ∧
    (∀ (s : State), s.rb Reg.fabFaultDest 16 = true →
      s.boot.prog = false →
      ∃ t, exec .statusReport s = .next t ∧ s.sameBut [.regs, .mirror, .logm, .quem, .ecc, .ports, .xcnt, .logNext, .logCompl, .logCount, .logged, .fab, .bus, .freeCtr] t ∧
        t.reg Reg.fabStatus = w32 (statusWord s) ∧
        sget 0 t.fab.seq 0x2100 = (sget 0 s.fab.seq 0x2100 + 1) % 65536) ∧
    (∀ (arrival : Option (Fin 8)) (ws : List Word) (s : State), (Instr.faultReport arrival ws).wf = true →
      arrival = none →
      s.rb Reg.fabFaultDest 16 = true →
      s.fab.coal.find? (fun e => e.2.subject == (faultOf ws).subject && e.2.fclass == (faultOf ws).fclass) = none →
      s.fab.coal.length < 256 →
      s.boot.prog = false →
      ∃ t, exec (.faultReport arrival ws) s = .next t ∧ s.sameBut [.regs, .mirror, .logm, .quem, .ecc, .ports, .xcnt, .logNext, .logCompl, .logCount, .logged, .fab, .bus, .freeCtr] t ∧
        (∃ i, i < 256 ∧ coalGet t i = some { subject := (faultOf ws).subject, fclass := (faultOf ws).fclass, start := s.fabTime, absorbed := 0, sat := false, wits := [], first := s.fabTime, detail := padTo 24 (faultOf ws).detail, dest := s.rf Reg.fabFaultDest 15 0 }) ∧
        t.rf Reg.fabCoalCnt 15 0 = (s.rf Reg.fabCoalCnt 15 0 + 1) % 65536) ∧
    (∀ (arrival : Option (Fin 8)) (ws : List Word) (l : Fin 8) (i : Nat) (e : Coal) (s : State), (Instr.faultReport arrival ws).wf = true →
      arrival = some l →
      s.fab.coal.find? (fun e => e.2.subject == (faultOf ws).subject && e.2.fclass == (faultOf ws).fclass) = some (i, e) →
      cDest ws ≠ 0xFFFF →
      cDest ws ≠ ownAddr s →
      1 < cTtl ws →
      s.boot.prog = false →
      ∃ t, exec (.faultReport arrival ws) s = .next t ∧ s.sameBut [.regs, .mirror, .logm, .quem, .ecc, .ports, .xcnt, .logNext, .logCompl, .logCount, .logged, .fab, .bus, .freeCtr] t ∧
        coalGet t i = some { e with absorbed := min (e.absorbed + (faultOf ws).count) 65535, sat := e.sat || (faultOf ws).sat || min (e.absorbed + (faultOf ws).count) 65535 == 65535, wits := addWits e.wits (faultOf ws).wits } ∧
        t.quem = s.quem ∧
        t.freeCtr = s.freeCtr) ∧
    (∀ (arrival : Option (Fin 8)) (ws : List Word) (l : Fin 8) (s : State), (Instr.faultReport arrival ws).wf = true →
      arrival = some l →
      cDest ws ≠ 0xFFFF →
      cDest ws ≠ ownAddr s →
      cTtl ws ≤ 1 →
      lkState s l.val = 3 →
      s.boot.prog = false →
      ∃ t, exec (.faultReport arrival ws) s = .next t ∧ s.sameBut [.regs, .mirror, .logm, .quem, .ecc, .ports, .xcnt, .logNext, .logCompl, .logCount, .logged, .fab, .bus, .freeCtr] t ∧
        t.fab = s.fab ∧
        t.rf (Reg.fabLkErr1 l.val) 31 16 = min (s.rf (Reg.fabLkErr1 l.val) 31 16 + 1) 65535 ∧
        t.quem = s.quem) ∧
    (∀ (s : State), s.boot.prog = false →
      ∃ t, exec .coalesceFlush s = .next t ∧ s.sameBut [.regs, .mirror, .logm, .quem, .ecc, .ports, .xcnt, .logNext, .logCompl, .logCount, .logged, .fab, .bus, .freeCtr] t ∧
        (t.fab.coal.all (fun e => decide (s.fabTime < e.2.start + 100000000))) = true) ∧
    (∀ (q r : Nat) (s : State), qOfCons s (epIsland 22 1) = some q →
      16 ≤ qLevel s q →
      qOfProd s (epIsland 22 2) = some r →
      r ≠ q →
      qLevel s r + 3 ≤ qSize s r →
      qLevel s r + 3 < 2 ^ 15 →
      s.boot.prog = false →
      ∃ t, exec .tagRequest s = .next t ∧ s.sameBut [.regs, .mirror, .logm, .quem, .ecc, .qrd, .ports, .xcnt, .logNext, .logCompl, .logCount, .logged, .bus, .freeCtr] t ∧
        qLevel t q = qLevel s q - 16 ∧
        qLevel t r = qLevel s r + 3 ∧
        t.rb Reg.fabStat 19 = s.sec.kOwner.isNone) ∧
    (∀ (ws : List Word) (k : Nat × List Byte) (s : State), (Instr.tenantQuery ws).wf = true →
      s.sec.kOwner = some k →
      (cellTag ws == tagWith k (cTenant ws) ws) = true →
      bit (ws.getD 2 0#32) 17 = true →
      1 ≤ fieldAt (cPayload ws) 0 1 →
      fieldAt (cPayload ws) 0 1 ≤ 4 →
      s.boot.prog = false →
      ∃ t, exec (.tenantQuery ws) s = .next t ∧ s.sameBut [.regs, .mirror, .logm, .quem, .ecc, .ports, .xcnt, .logNext, .logCompl, .logCount, .logged, .fab, .bus, .freeCtr] t ∧
        sget 0 t.fab.seq (0x1200 + cTenant ws) = (sget 0 s.fab.seq (0x1200 + cTenant ws) + 1) % 65536 ∧
        t.freeCtr = s.freeCtr + 1) ∧
    (∀ (ws : List Word) (k : Nat × List Byte) (s : State), (Instr.tenantQuery ws).wf = true →
      s.sec.kOwner = some k →
      (fieldAt (cPayload ws) 0 1 = 0 ∨ 4 < fieldAt (cPayload ws) 0 1) →
      s.boot.prog = false →
      ∃ t, exec (.tenantQuery ws) s = .next t ∧ s.sameBut [.regs, .mirror, .logm, .quem, .ecc, .ports, .xcnt, .logNext, .logCompl, .logCount, .logged, .fab, .bus, .freeCtr] t ∧
        t.quem = s.quem ∧
        t.fab = s.fab ∧
        t.freeCtr = s.freeCtr) ∧
    (∀ (ws : List Word) (s : State), (Instr.tenantQuery ws).wf = true →
      s.sec.kOwner = none →
      s.boot.prog = false →
      ∃ t, exec (.tenantQuery ws) s = .next t ∧ s.sameBut [.regs, .mirror, .logm, .quem, .ecc, .ports, .xcnt, .logNext, .logCompl, .logCount, .logged, .fab, .bus, .freeCtr] t ∧
        t.rf Reg.fabTnStat 31 16 = min (s.rf Reg.fabTnStat 31 16 + 1) 65535 ∧
        t.rb Reg.fabStat 19 = true ∧
        t.quem = s.quem ∧
        t.fab = s.fab) ∧
    (∀ (ws : List Word) (k : Nat × List Byte) (s : State), (Instr.tenantQuery ws).wf = true →
      s.sec.kOwner = some k →
      s.sec.kPrev = none →
      (bit (ws.getD 2 0#32) 17 = false ∨ (cellTag ws == tagWith k (cTenant ws) ws) = false) →
      s.boot.prog = false →
      ∃ t, exec (.tenantQuery ws) s = .next t ∧ s.sameBut [.regs, .mirror, .logm, .quem, .ecc, .ports, .xcnt, .logNext, .logCompl, .logCount, .logged, .fab, .bus, .freeCtr] t ∧
        t.rf Reg.fabTnStat 15 0 = min (s.rf Reg.fabTnStat 15 0 + 1) 65535 ∧
        t.rb Reg.fabEvt 6 = true ∧
        t.quem = s.quem ∧
        t.fab = s.fab) ∧
    (∀ (l : Fin 8) (req ws : List Word) (w0 a : Word) (s1 : State) (s : State), 16 ≤ txLevel s l.val 6 →
      cType (txHead s l.val 6) = 0x30 →
      txPop l.val 6 s = (req, s1) →
      bytesWords (cPayload req) = w0 :: a :: ws →
      fld w0 7 0 = 1 →
      rraBad a = false →
      s.boot.prog = false →
      ∃ t, exec (.rraRead l) s = .next t ∧ s.sameBut [.regs, .mirror, .logm, .quem, .ecc, .qrd, .ports, .xcnt, .logNext, .logCompl, .logCount, .logged, .fab, .bus, .freeCtr] t ∧
        t = rraReply l.val 0 1 0 [(fabricRead a.toNat s1).1] req (fabricRead a.toNat s1).2) ∧
    (∀ (l : Fin 8) (s : State), txLevel s l.val 6 < 16 →
      s.boot.prog = false →
      ∃ t, exec (.rraRead l) s = .next t ∧ s.sameBut [.regs, .mirror, .logm, .quem, .ecc, .qrd, .ports, .xcnt, .logNext, .logCompl, .logCount, .logged, .fab, .bus, .freeCtr] t ∧
        t = s) ∧
    (∀ (l : Fin 8) (req ws : List Word) (w0 w1 a v : Word) (s1 : State) (s : State), 16 ≤ txLevel s l.val 6 →
      cType (txHead s l.val 6) = 0x31 →
      txPop l.val 6 s = (req, s1) →
      bytesWords (cPayload req) = w0 :: w1 :: a :: v :: ws →
      fld w0 7 0 = 1 →
      rraBad a = false →
      s.boot.prog = false →
      ∃ t, exec (.rraWrite l) s = .next t ∧ s.sameBut [.regs, .shadows, .mirror, .logm, .quem, .ecc, .eng, .qrd, .ports, .xcnt, .logNext, .logCompl, .logCount, .logged, .hamper, .pair, .boot, .mtr, .ctl, .sec, .fab, .bus, .rtc, .freeCtr] t ∧
        t = rraReply l.val 1 1 0 [0#32] req (busWrite .fabric a.toNat v s1)) ∧
    (∀ (l : Fin 8) (s : State), txLevel s l.val 6 < 16 →
      s.boot.prog = false →
      ∃ t, exec (.rraWrite l) s = .next t ∧ s.sameBut [.regs, .shadows, .mirror, .logm, .quem, .ecc, .eng, .qrd, .ports, .xcnt, .logNext, .logCompl, .logCount, .logged, .hamper, .pair, .boot, .mtr, .ctl, .sec, .fab, .bus, .rtc, .freeCtr] t ∧
        t = s)

/-- PARCEL of a cell that is missing in the chunk joins it, through the object window with UPHOST, from the upstream link,
or in siding mode from the link that the header came from; a cell from elsewhere leaves the state (R288, R406; when
cells of the host count: the model's choice, log entry 55). CHUNK_STORED of a whole chunk writes it into the slot and
counts it; PARCEL_ACK from a downstream link takes the unit off those unacknowledged; either sends the next unit to a
downstream link that is UP and has one due, as far as its queue takes cells; PARCEL_NACK with STATUS 3 and
PARCEL_GAP_TIMEOUT count a refusal of their chunk, below eight; TRANSFER_TIMEOUT ends the transfer. COMPLETE here (the
conclusion is that exec answers a next state t): parcel, chunkStored, parcelAck, parcelNack, parcelGapTimeout,
transferTimeout. -/
def Obligations.ParcelRelay : Prop :=
    (∀ (src : Option (Fin 8)) (ws : List Word) (x : Xfer) (s : State), (Instr.parcel src ws).wf = true →
      src = none →
      s.rb Reg.fabParcelCfg 4 = true →
      cType ws = 0x40 →
      s.sec.xfer = some x →
      fieldAt (cPayload ws) 0 4 = x.id →
      x.hdr = true →
      (fieldAt (cPayload ws) 4 2) < x.total →
      x.total ≤ 128 →
      (fieldAt (cPayload ws) 4 2) ∉ x.stored →
      (fieldAt (cPayload ws) 6 2) + 1 < unitCells s x (fieldAt (cPayload ws) 4 2) →
      (fieldAt (cPayload ws) 6 2) ∉ sget [] x.got (fieldAt (cPayload ws) 4 2) →
      (sget [] x.got (fieldAt (cPayload ws) 4 2)).length + 1 < unitCells s x (fieldAt (cPayload ws) 4 2) →
      s.boot.prog = false →
      ∃ t, exec (.parcel src ws) s = .next t ∧ s.sameBut [.regs, .mirror, .logm, .quem, .feram, .store, .ecc, .ports, .xcnt, .logNext, .logCompl, .logCount, .logged, .sec, .fab, .bus, .freeCtr] t ∧
        t.sec = { s.sec with xfer := some { x with got := sset [] x.got (fieldAt (cPayload ws) 4 2) (sget [] x.got (fieldAt (cPayload ws) 4 2) ++ [(fieldAt (cPayload ws) 6 2)]), buf := memPut x.buf ((fieldAt (cPayload ws) 4 2) * 65536 + 40 * (fieldAt (cPayload ws) 6 2)) (((cPayload ws).drop 8).take (min 40 (unitLen s x (fieldAt (cPayload ws) 4 2) - 40 * (fieldAt (cPayload ws) 6 2)))) } } ∧
        t.store = s.store ∧
        t.fab = s.fab) ∧
    (∀ (src : Option (Fin 8)) (ws : List Word) (x : Xfer) (l : Fin 8) (s : State), (Instr.parcel src ws).wf = true →
      src = some l →
      s.boot.siding = false →
      upLink s = some l.val →
      cType ws = 0x40 →
      s.sec.xfer = some x →
      fieldAt (cPayload ws) 0 4 = x.id →
      x.hdr = true →
      (fieldAt (cPayload ws) 4 2) < x.total →
      x.total ≤ 128 →
      (fieldAt (cPayload ws) 4 2) ∉ x.stored →
      (fieldAt (cPayload ws) 6 2) + 1 < unitCells s x (fieldAt (cPayload ws) 4 2) →
      (fieldAt (cPayload ws) 6 2) ∉ sget [] x.got (fieldAt (cPayload ws) 4 2) →
      (sget [] x.got (fieldAt (cPayload ws) 4 2)).length + 1 < unitCells s x (fieldAt (cPayload ws) 4 2) →
      s.boot.prog = false →
      ∃ t, exec (.parcel src ws) s = .next t ∧ s.sameBut [.regs, .mirror, .logm, .quem, .feram, .store, .ecc, .ports, .xcnt, .logNext, .logCompl, .logCount, .logged, .sec, .fab, .bus, .freeCtr] t ∧
        t.sec = { s.sec with xfer := some { x with got := sset [] x.got (fieldAt (cPayload ws) 4 2) (sget [] x.got (fieldAt (cPayload ws) 4 2) ++ [(fieldAt (cPayload ws) 6 2)]), buf := memPut x.buf ((fieldAt (cPayload ws) 4 2) * 65536 + 40 * (fieldAt (cPayload ws) 6 2)) (((cPayload ws).drop 8).take (min 40 (unitLen s x (fieldAt (cPayload ws) 4 2) - 40 * (fieldAt (cPayload ws) 6 2)))) } } ∧
        t.store = s.store ∧
        t.fab = s.fab) ∧
    (∀ (src : Option (Fin 8)) (ws : List Word) (x : Xfer) (l : Fin 8) (s : State), (Instr.parcel src ws).wf = true →
      src = some l →
      s.boot.siding = true →
      lkUp s l.val = true →
      x.link = some l.val →
      cType ws = 0x40 →
      s.sec.xfer = some x →
      fieldAt (cPayload ws) 0 4 = x.id →
      x.hdr = true →
      (fieldAt (cPayload ws) 4 2) < x.total →
      x.total ≤ 128 →
      (fieldAt (cPayload ws) 4 2) ∉ x.stored →
      (fieldAt (cPayload ws) 6 2) + 1 < unitCells s x (fieldAt (cPayload ws) 4 2) →
      (fieldAt (cPayload ws) 6 2) ∉ sget [] x.got (fieldAt (cPayload ws) 4 2) →
      (sget [] x.got (fieldAt (cPayload ws) 4 2)).length + 1 < unitCells s x (fieldAt (cPayload ws) 4 2) →
      s.boot.prog = false →
      ∃ t, exec (.parcel src ws) s = .next t ∧ s.sameBut [.regs, .mirror, .logm, .quem, .feram, .store, .ecc, .ports, .xcnt, .logNext, .logCompl, .logCount, .logged, .sec, .fab, .bus, .freeCtr] t ∧
        t.sec = { s.sec with xfer := some { x with got := sset [] x.got (fieldAt (cPayload ws) 4 2) (sget [] x.got (fieldAt (cPayload ws) 4 2) ++ [(fieldAt (cPayload ws) 6 2)]), buf := memPut x.buf ((fieldAt (cPayload ws) 4 2) * 65536 + 40 * (fieldAt (cPayload ws) 6 2)) (((cPayload ws).drop 8).take (min 40 (unitLen s x (fieldAt (cPayload ws) 4 2) - 40 * (fieldAt (cPayload ws) 6 2)))) } } ∧
        t.store = s.store ∧
        t.fab = s.fab) ∧
    (∀ (src : Option (Fin 8)) (ws : List Word) (s : State), (Instr.parcel src ws).wf = true →
      src = none →
      s.rb Reg.fabParcelCfg 4 = false →
      s.boot.prog = false →
      ∃ t, exec (.parcel src ws) s = .next t ∧ s.sameBut [.regs, .mirror, .logm, .quem, .feram, .store, .ecc, .ports, .xcnt, .logNext, .logCompl, .logCount, .logged, .sec, .fab, .bus, .freeCtr] t ∧
        t = s) ∧
    (∀ (src : Option (Fin 8)) (ws : List Word) (l : Fin 8) (s : State), (Instr.parcel src ws).wf = true →
      src = some l →
      s.boot.siding = false →
      upLink s ≠ some l.val →
      s.boot.prog = false →
      ∃ t, exec (.parcel src ws) s = .next t ∧ s.sameBut [.regs, .mirror, .logm, .quem, .feram, .store, .ecc, .ports, .xcnt, .logNext, .logCompl, .logCount, .logged, .sec, .fab, .bus, .freeCtr] t ∧
        t = s) ∧
    (∀ (src : Option (Fin 8)) (ws : List Word) (x : Xfer) (l : Fin 8) (s : State), (Instr.parcel src ws).wf = true →
      src = some l →
      s.boot.siding = true →
      s.sec.xfer = some x →
      x.link ≠ some l.val →
      ((fieldAt (cPayload ws) 4 2) ≠ 0xFFFF ∨ x.id = fieldAt (cPayload ws) 0 4) →
      s.boot.prog = false →
      ∃ t, exec (.parcel src ws) s = .next t ∧ s.sameBut [.regs, .mirror, .logm, .quem, .feram, .store, .ecc, .ports, .xcnt, .logNext, .logCompl, .logCount, .logged, .sec, .fab, .bus, .freeCtr] t ∧
        t = s) ∧
    (∀ (chunk : BitVec 16) (x : Xfer) (s : State), s.sec.xfer = some x →
      x.hdr = true →
      chunk.toNat < x.total →
      (sget [] x.got chunk.toNat).length = unitCells s x chunk.toNat →
      chunk.toNat ∉ x.stored →
      x.early = false →
      x.stored.length + 1 < x.total →
      x.total ≤ 128 →
      downLinks s x = [] →
      s.boot.prog = false →
      ∃ t, exec (.chunkStored chunk) s = .next t ∧ s.sameBut [.regs, .mirror, .logm, .quem, .feram, .store, .ecc, .ports, .xcnt, .logNext, .logCompl, .logCount, .logged, .sec, .fab, .bus, .freeCtr] t ∧
        t.store = memPut s.store (slotBase x.slot + 0x2000 + 0x10000 * chunk.toNat) (memBytes x.buf (chunk.toNat * 65536) (unitLen s x chunk.toNat)) ∧
        t.sec = { s.sec with xfer := some { x with buf := sclear x.buf (chunk.toNat * 65536) (chunk.toNat * 65536 + 65536), stored := x.stored ++ [chunk.toNat] } } ∧
        t.rf Reg.fabParcelStat 15 0 = x.stored.length + 1) ∧
    (∀ (chunk : BitVec 16) (x : Xfer) (q k : Nat) (s : State), s.sec.xfer = some x →
      x.hdr = true →
      chunk.toNat < x.total →
      (sget [] x.got chunk.toNat).length = unitCells s x chunk.toNat →
      chunk.toNat ∉ x.stored →
      x.early = false →
      x.stored.length + 1 < x.total →
      x.total ≤ 128 →
      x.link = none →
      downLinks s x = [k] →
      k < 8 →
      sget 0 x.sent k = chunk.toNat + 1 →
      (sget [] x.unacked k).length < 2 →
      0 < unitCells s x (sget 0 x.sent k - 1) →
      s.fab.parcels = [] →
      lkUp s k = true →
      qOfCons s (epIsland (1 + k) 5) = some q →
      qLevel s q + 16 ≤ qSize s q →
      qSize s q < 2 ^ 15 →
      s.boot.prog = false →
      ∃ t, exec (.chunkStored chunk) s = .next t ∧ s.sameBut [.regs, .mirror, .logm, .quem, .feram, .store, .ecc, .ports, .xcnt, .logNext, .logCompl, .logCount, .logged, .sec, .fab, .bus, .freeCtr] t ∧
        qLevel s q + 16 ≤ qLevel t q ∧
        (match t.sec.xfer with | some y => decide (sget 0 x.sent k + 1 ≤ sget 0 y.sent k) && (sget [] y.unacked k).contains (sget 0 x.sent k - 1) | none => false) = true) ∧
    (∀ (chunk : BitVec 16) (s : State), s.sec.xfer = none →
      s.boot.prog = false →
      ∃ t, exec (.chunkStored chunk) s = .next t ∧ s.sameBut [.regs, .mirror, .logm, .quem, .feram, .store, .ecc, .ports, .xcnt, .logNext, .logCompl, .logCount, .logged, .sec, .fab, .bus, .freeCtr] t ∧
        t = s) ∧
    (∀ (l : Fin 8) (id : Word) (chunk : BitVec 16) (status : BitVec 8) (x : Xfer) (s : State), status = 0#8 →
      s.sec.xfer = some x →
      x.id = id.toNat →
      l.val ∈ downLinks s x →
      (∀ k ∈ downLinks s x, lkUp s k = false) →
      s.fab.parcels = [] →
      x.stored.length < x.total →
      s.boot.prog = false →
      ∃ t, exec (.parcelAck l id chunk status) s = .next t ∧ s.sameBut [.regs, .mirror, .logm, .quem, .ecc, .ports, .xcnt, .logNext, .logCompl, .logCount, .logged, .sec, .fab, .bus] t ∧
        t.sec = { s.sec with xfer := some { x with unacked := sset [] x.unacked l.val ((sget [] x.unacked l.val).filter (fun c => decide (c ≠ chunk.toNat))) } } ∧
        t.fab = s.fab) ∧
    (∀ (l : Fin 8) (id : Word) (chunk : BitVec 16) (status : BitVec 8) (x : Xfer) (q : Nat) (s : State), status = 0#8 →
      s.sec.xfer = some x →
      x.id = id.toNat →
      downLinks s x = [l.val] →
      x.hdr = true →
      0 < sget 0 x.sent l.val →
      sget 0 x.sent l.val ≤ x.total →
      (sget 0 x.sent l.val - 1) ∈ x.stored →
      ((sget [] x.unacked l.val).filter (fun c => decide (c ≠ chunk.toNat))).length < 2 →
      0 < unitCells s x (sget 0 x.sent l.val - 1) →
      s.fab.parcels = [] →
      lkUp s l.val = true →
      qOfCons s (epIsland (1 + l.val) 5) = some q →
      qLevel s q + 16 ≤ qSize s q →
      qSize s q < 2 ^ 15 →
      s.boot.prog = false →
      ∃ t, exec (.parcelAck l id chunk status) s = .next t ∧ s.sameBut [.regs, .mirror, .logm, .quem, .ecc, .ports, .xcnt, .logNext, .logCompl, .logCount, .logged, .sec, .fab, .bus] t ∧
        qLevel s q + 16 ≤ qLevel t q ∧
        (match t.sec.xfer with | some y => decide (sget 0 x.sent l.val + 1 ≤ sget 0 y.sent l.val) && (sget [] y.unacked l.val).contains (sget 0 x.sent l.val - 1) | none => false) = true) ∧
    (∀ (l : Fin 8) (id : Word) (chunk : BitVec 16) (status : BitVec 8) (s : State), status ≠ 0#8 →
      s.boot.prog = false →
      ∃ t, exec (.parcelAck l id chunk status) s = .next t ∧ s.sameBut [.regs, .mirror, .logm, .quem, .ecc, .ports, .xcnt, .logNext, .logCompl, .logCount, .logged, .sec, .fab, .bus] t ∧
        t = s) ∧
    (∀ (l : Fin 8) (id : Word) (chunk : BitVec 16) (status : BitVec 8) (first count : BitVec 16) (x : Xfer) (s : State), status = 3#8 →
      s.sec.xfer = some x →
      x.id = id.toNat →
      l.val ∈ downLinks s x →
      sget 0 x.nacks ((l.val + 1) * 65536 + chunk.toNat) < 7 →
      s.boot.prog = false →
      ∃ t, exec (.parcelNack l id chunk status first count) s = .next t ∧ s.sameBut [.regs, .mirror, .logm, .quem, .ecc, .ports, .xcnt, .logNext, .logCompl, .logCount, .logged, .sec, .fab, .bus] t ∧
        t.sec = { s.sec with xfer := some { x with nacks := sset 0 x.nacks ((l.val + 1) * 65536 + chunk.toNat) (sget 0 x.nacks ((l.val + 1) * 65536 + chunk.toNat) + 1) } } ∧
        t.rf Reg.fabParcelStat 23 16 = min (s.rf Reg.fabParcelStat 23 16 + 1) 255) ∧
    (∀ (chunk : BitVec 16) (x : Xfer) (f n : Nat) (s : State), s.sec.xfer = some x →
      x.byHost = false →
      sget [] x.got chunk.toNat ≠ [] →
      missingRun (unitCells s x chunk.toNat) (sget [] x.got chunk.toNat) = some (f, n) →
      sget 0 x.nacks chunk.toNat < 7 →
      s.boot.prog = false →
      ∃ t, exec (.parcelGapTimeout chunk) s = .next t ∧ s.sameBut [.regs, .mirror, .logm, .quem, .ecc, .ports, .xcnt, .logNext, .logCompl, .logCount, .logged, .sec, .fab, .bus, .freeCtr] t ∧
        t.sec = { s.sec with xfer := some { x with nacks := sset 0 x.nacks chunk.toNat (sget 0 x.nacks chunk.toNat + 1) } } ∧
        t.rf Reg.fabParcelStat 23 16 = min (s.rf Reg.fabParcelStat 23 16 + 1) 255) ∧
    (∀ (x : Xfer) (s : State), s.sec.xfer = some x →
      s.boot.prog = false →
      ∃ t, exec .transferTimeout s = .next t ∧ s.sameBut [.regs, .mirror, .ecc, .sec, .fab] t ∧
        t.sec = { s.sec with xfer := none } ∧
        t.rb Reg.fabParcelStat 24 = false)

/-- SEND requests every loaded buffer of its mask that is not requested; ABORT ends those not in progress and marks the
one that is; FETCH of an empty mailbox pushes a record of KIND 3; STATS takes a snapshot and clears HALF; RECOVER
starts the recovery of a channel in bus-off without AUTOREC; SELECT holds the value for an SH register of the window,
and CFG_END makes the values those of the island, of a channel on the bus once no frame is under way; a channel that
leaves the bus does so at once where no frame is under way (the model's choice, log entries 74 and 96), and for a
port, whose frames are one command each, FD and EN = 0 act at CFG_END and the rest at the next start of frame (log
entry 75); BUS_STATUS_WORD sends the status word. COMPLETE here (the conclusion is that exec answers a next state t):
canSend, canAbort, canFetch, busStats, canRecover, canSelect, cfgEnd, busStatusWord. -/
def Obligations.CanCommands : Prop :=
    (∀ (c : Fin 12) (mask : BitVec 16) (s : State), s.bus.powered = true →
      cannotSend s c.val = false →
      ∃ t, exec (.canSend c mask) s = .next t ∧ s.sameBut [.regs, .mirror, .logm, .quem, .ecc, .ports, .xcnt, .logNext, .logCompl, .logCount, .logged, .bus] t ∧
        (∀ i, i < 16 → canTx t c.val i = if mask.toNat.testBit i && (canTx s c.val i).frame.isSome && !(canTx s c.val i).req then { (canTx s c.val i) with req := true, active := false, onBus := false, abort := false, errors := 0, redo := false, ts := 0#32 } else (canTx s c.val i))) ∧
    (∀ (c : Fin 12) (mask : BitVec 16) (s : State), s.bus.powered = true →
      ∃ t, exec (.canAbort c mask) s = .next t ∧ s.sameBut [.regs, .mirror, .logm, .quem, .ecc, .ports, .xcnt, .logNext, .logCompl, .logCount, .logged, .bus] t ∧
        (∀ i, i < 16 → (canTx s c.val i).req = true → mask.toNat.testBit i = true → (canTx s c.val i).onBus = true → canTx t c.val i = { (canTx s c.val i) with abort := true }) ∧
        (∀ i, i < 16 → (canTx s c.val i).req = true → mask.toNat.testBit i = true → (canTx s c.val i).onBus = false → (canTx s c.val i).frame.isSome = true → (canTx t c.val i).req = false) ∧
        (∀ i, i < 16 → mask.toNat.testBit i = false → canTx t c.val i = (canTx s c.val i))) ∧
    (∀ (c : Fin 12) (b : BitVec 6) (ts : Word) (q : Nat) (s : State), s.bus.powered = true →
      b.toNat < 48 →
      (s.canI c.val).out = [] →
      (sget rx0 (s.canI c.val).rx b.toNat).frame = none →
      qOfProd s (epIsland 10 c.val) = some q →
      qLevel s q + 3 ≤ qSize s q →
      qLevel s q + 3 < 2 ^ 15 →
      ∃ t, exec (.canFetch c b ts) s = .next t ∧ s.sameBut [.regs, .mirror, .logm, .quem, .ecc, .ports, .xcnt, .logNext, .logCompl, .logCount, .logged, .bus] t ∧
        qLevel t q = qLevel s q + 3 ∧
        (t.canI c.val).out = [] ∧
        (t.canI c.val).rx = (s.canI c.val).rx) ∧
    (∀ (src : Fin 24) (s : State), s.bus.powered = true →
      sget [] s.bus.snap src.val = [] →
      islandRoom s 10 48 < 2 + counters src.val →
      ∃ t, exec (.busStats src) s = .next t ∧ s.sameBut [.regs, .mirror, .logm, .quem, .ecc, .ports, .xcnt, .logNext, .logCompl, .logCount, .logged, .bus] t ∧
        (sget [] t.bus.snap src.val = ([w32 (0x53540000 + 256 * counters src.val + (if src.val < 12 then src.val else 0x10 + (src.val - 12))), w32 (sget 0 s.bus.half src.val)] ++ (List.range (counters src.val)).map (counter s src.val))) ∧
        sget 0 t.bus.half src.val = 0 ∧
        t.quem = s.quem ∧
        t.bus.cnt = s.bus.cnt) ∧
    (∀ (src : Fin 24) (q : Nat) (s : State), s.bus.powered = true →
      sget [] s.bus.snap src.val = [] →
      qOfProd s (epIsland 10 48) = some q →
      qLevel s q + 2 + counters src.val ≤ qSize s q →
      qLevel s q + 2 + counters src.val < 2 ^ 15 →
      ∃ t, exec (.busStats src) s = .next t ∧ s.sameBut [.regs, .mirror, .logm, .quem, .ecc, .ports, .xcnt, .logNext, .logCompl, .logCount, .logged, .bus] t ∧
        qLevel t q = qLevel s q + 2 + counters src.val ∧
        sget [] t.bus.snap src.val = [] ∧
        sget 0 t.bus.half src.val = 0) ∧
    (∀ (c : Fin 12) (s : State), s.bus.powered = true →
      (s.canI c.val).mode = 2 →
      (s.canI c.val).recov = false →
      bit (canCtl (s.canI c.val) c.val) 4 = false →
      ∃ t, exec (.canRecover c) s = .next t ∧ s.sameBut [.regs, .mirror, .logm, .ecc, .ports, .xcnt, .logNext, .logCompl, .logCount, .logged, .bus] t ∧
        (t.canI c.val).recov = true ∧
        (t.canI c.val).mode = 2 ∧
        (t.canI c.val).tx = (s.canI c.val).tx) ∧
    (∀ (src : Fin 24) (idx : BitVec 9) (value : Word) (a : Nat) (s : State), s.bus.powered = true →
      src.val < 12 →
      selectAddr src.val idx.toNat = some a →
      ∃ t, exec (.canSelect src idx value) s = .next t ∧ s.sameBut [.bus] t ∧
        t.canI src.val = { (s.canI src.val) with staged := sset (regReset a) (s.canI src.val).staged a value } ∧
        t.bus.mac = s.bus.mac) ∧
    (∀ (src : Fin 24) (idx : BitVec 9) (value : Word) (a : Nat) (s : State), s.bus.powered = true →
      12 ≤ src.val →
      selectAddr src.val idx.toNat = some a →
      ∃ t, exec (.canSelect src idx value) s = .next t ∧ s.sameBut [.bus] t ∧
        t.macI (src.val - 12) = { (s.macI (src.val - 12)) with staged := sset (regReset a) (s.macI (src.val - 12)).staged a value } ∧
        t.bus.can = s.bus.can) ∧
    (∀ (src : Fin 24) (idx : BitVec 9) (value : Word) (s : State), selectAddr src.val idx.toNat = none →
      ∃ t, exec (.canSelect src idx value) s = .next t ∧ s.sameBut [.bus] t ∧
        t = s) ∧
    (∀ (src : Fin 24) (s : State), s.bus.powered = true →
      src.val < 12 →
      (s.canI src.val).cfgd = false →
      ∃ t, exec (.cfgEnd src) s = .next t ∧ s.sameBut [.regs, .mirror, .logm, .quem, .ecc, .ports, .xcnt, .logNext, .logCompl, .logCount, .logged, .bus] t ∧
        (t.canI src.val).cfgd = true ∧
        (t.canI src.val).cur = (s.canI src.val).staged ∧
        (t.canI src.val).next = none) ∧
    (∀ (src : Fin 24) (s : State), 12 ≤ src.val →
      (macOn s (src.val - 12) = false ∨ bit (cfgReg (s.macI (src.val - 12)).staged (Reg.macPCtrl (src.val - 12))) 0 = false) →
      ∃ t, exec (.cfgEnd src) s = .next t ∧ s.sameBut [.regs, .mirror, .logm, .quem, .ecc, .ports, .xcnt, .logNext, .logCompl, .logCount, .logged, .bus] t ∧
        (t.macI (src.val - 12)).cfgd = true ∧
        (t.macI (src.val - 12)).cur = (s.macI (src.val - 12)).staged ∧
        (t.macI (src.val - 12)).next = none ∧
        t.bus.can = s.bus.can) ∧
    (∀ (src : Fin 24) (s : State), 12 ≤ src.val →
      macOn s (src.val - 12) = true →
      bit (cfgReg (s.macI (src.val - 12)).staged (Reg.macPCtrl (src.val - 12))) 0 = true →
      ∃ t, exec (.cfgEnd src) s = .next t ∧ s.sameBut [.regs, .mirror, .logm, .quem, .ecc, .ports, .xcnt, .logNext, .logCompl, .logCount, .logged, .bus] t ∧
        (t.macI (src.val - 12)).cfgd = true ∧
        (t.macI (src.val - 12)).next = some (s.macI (src.val - 12)).staged ∧
        (t.macI (src.val - 12)).cur = sset (regReset (Reg.macPCtrl (src.val - 12))) (s.macI (src.val - 12)).cur (Reg.macPCtrl (src.val - 12)) (setFld (macCtl s (src.val - 12)) 1 1 (fld (cfgReg (s.macI (src.val - 12)).staged (Reg.macPCtrl (src.val - 12))) 1 1)) ∧
        t.bus.can = s.bus.can) ∧
    (∀ (src : Fin 24) (s : State), src.val < 12 →
      (s.canI src.val).cfgd = true →
      (s.canI src.val).mode ≠ 3 →
      frameUnderWay s src.val = true →
      ∃ t, exec (.cfgEnd src) s = .next t ∧ s.sameBut [.regs, .mirror, .logm, .quem, .ecc, .ports, .xcnt, .logNext, .logCompl, .logCount, .logged, .bus] t ∧
        (t.canI src.val).next = some (s.canI src.val).staged ∧
        (t.canI src.val).cur = (s.canI src.val).cur ∧
        (t.canI src.val).leave = ((s.canI src.val).leave || leavesBus src.val (s.canI src.val).cur (s.canI src.val).staged) ∧
        t.bus.mac = s.bus.mac) ∧
    (∀ (src : Fin 24) (s : State), s.bus.powered = true →
      ∃ t, exec (.busStatusWord src) s = .next t ∧ s.sameBut [.regs, .mirror, .logm, .quem, .ecc, .ports, .xcnt, .logNext, .logCompl, .logCount, .logged, .bus] t ∧
        sget 0#32 t.bus.word src.val = statusOf s src.val ∧
        (t.port (640 + src.val)).src = statusOf s src.val ∧
        (t.port (640 + src.val)).transit = true ∧
        t.bus.cnt = s.bus.cnt)

/-- A valid frame that no buffer accepts is counted in NO_MATCH; CAN_RX_RECORD_PUSH moves a record into its queue;
CAN_TX_RECORD_LOAD loads a whole valid record; START_OF_FRAME starts the buffer that would win, and the configuration
that waits for it is in force; the changes of TEC and REC are those of ISO 11898-1 (the model takes them from outside
the spec, log entry 33), and records are loaded whole (log entry 74); CAN_ATTEMPT_END of a success ends the request
and lowers TEC, of a missing acknowledgement with unlimited repetition counts it; CAN_ERROR raises TEC and REC, above
255 it is bus-off; the protocol exception, integration and the two ends of bus-off set their states. COMPLETE here
(the conclusion is that exec answers a next state t): canFrameReceive, canRxRecordPush, canTxRecordLoad, startOfFrame,
canAttemptEnd, canError, protocolException, busIntegration, busOffHoldEnd, busOffRecoveryDone. -/
def Obligations.CanTraffic : Prop :=
    (∀ (c : Fin 12) (id : BitVec 29) (ide : Bool) (dlc : BitVec 4) (fdf brs esi rtr : Bool) (bytes : List Byte) (ts : BitVec 64) (s : State), (Instr.canFrameReceive c id ide dlc fdf brs esi rtr bytes ts).wf = true →
      canOn s c.val = true →
      (s.canI c.val).next = none →
      (fdf = false ∨ bit (canCtl (s.canI c.val) c.val) 1 = true) →
      (s.canI c.val).out = [] →
      (List.range 48).find? (accepts (s.canI c.val) c.val (mkFrame id.toNat ide dlc.toNat fdf brs esi rtr bytes ts.toNat)) = none →
      ∃ t, exec (.canFrameReceive c id ide dlc fdf brs esi rtr bytes ts) s = .next t ∧ s.sameBut [.regs, .mirror, .logm, .quem, .ecc, .ports, .xcnt, .logNext, .logCompl, .logCount, .logged, .ctl, .bus, .freeCtr] t ∧
        counter t c.val 10 = counter s c.val 10 + 1#32 ∧
        (t.canI c.val).rx = (s.canI c.val).rx ∧
        (sget [] s.bus.snap c.val = [] → t.quem = s.quem)) ∧
    (∀ (c : Fin 12) (id : BitVec 29) (ide : Bool) (dlc : BitVec 4) (fdf brs esi rtr : Bool) (bytes : List Byte) (ts : BitVec 64) (b : Nat) (s : State), (Instr.canFrameReceive c id ide dlc fdf brs esi rtr bytes ts).wf = true →
      canOn s c.val = true →
      (s.canI c.val).next = none →
      (fdf = false ∨ bit (canCtl (s.canI c.val) c.val) 1 = true) →
      (s.canI c.val).out = [] →
      (List.range 48).find? (accepts (s.canI c.val) c.val (mkFrame id.toNat ide dlc.toNat fdf brs esi rtr bytes ts.toNat)) = some b →
      fld (cfgReg (s.canI c.val).cur (Reg.canChMbId c.val b)) 31 30 = 2 →
      (sget rx0 (s.canI c.val).rx b).frame = none →
      ∃ t, exec (.canFrameReceive c id ide dlc fdf brs esi rtr bytes ts) s = .next t ∧ s.sameBut [.regs, .mirror, .logm, .quem, .ecc, .ports, .xcnt, .logNext, .logCompl, .logCount, .logged, .ctl, .bus, .freeCtr] t ∧
        counter t c.val 0 = counter s c.val 0 + 1#32 ∧
        (sget rx0 (t.canI c.val).rx b).frame = some ((mkFrame id.toNat ide dlc.toNat fdf brs esi rtr bytes ts.toNat), false) ∧
        (t.canI c.val).out = []) ∧
    (∀ (c : Fin 12) (ws : List Word) (q : Nat) (s : State), (s.canI c.val).out = [.words ws] →
      qOfProd s (epIsland 10 c.val) = some q →
      qLevel s q + ws.length ≤ qSize s q →
      qLevel s q + ws.length < 2 ^ 15 →
      ∃ t, exec (.canRxRecordPush c) s = .next t ∧ s.sameBut [.regs, .mirror, .logm, .quem, .ecc, .ports, .xcnt, .logNext, .logCompl, .logCount, .logged, .bus] t ∧
        (t.canI c.val).out = [] ∧
        qLevel t q = qLevel s q + ws.length) ∧
    (∀ (c : Fin 12) (q : Nat) (s : State), s.bus.powered = true →
      qOfCons s (epIsland 10 (12 + c.val)) = some q →
      2 ≤ qLevel s q →
      recordLen (qFetch s q 1).1 ≤ qLevel s q →
      badRecord s c.val (qFetch s q 0).1 (qFetch s q 1).1 = false →
      bit (qFetch s q 1).1 23 = false →
      (canTx s c.val (fld (qFetch s q 1).1 21 16 - 48)).active = false →
      (canTx s c.val (fld (qFetch s q 1).1 21 16 - 48)).req = false →
      (s.canI c.val).out = [] →
      s.eccAt mcQue (qAddr s q 1) = .ok →
      ∃ t, exec (.canTxRecordLoad c) s = .next t ∧ s.sameBut [.regs, .mirror, .logm, .quem, .ecc, .qrd, .ports, .xcnt, .logNext, .logCompl, .logCount, .logged, .bus] t ∧
        qLevel t q = qLevel s q - recordLen (qFetch s q 1).1 ∧
        (canTx t c.val (fld (qFetch s q 1).1 21 16 - 48)).frame = some (recordFrame (busPop q (recordLen (qFetch s q 1).1) s).1) ∧
        (canTx t c.val (fld (qFetch s q 1).1 21 16 - 48)).req = false) ∧
    (∀ (c : Fin 12) (ts : BitVec 64) (other : Bool) (s : State), s.bus.powered = true →
      sending s c.val = false →
      (s.canI c.val).next = none →
      other = true →
      ∃ t, exec (.startOfFrame c ts other) s = .next t ∧ s.sameBut [.regs, .mirror, .logm, .quem, .ecc, .ports, .xcnt, .logNext, .logCompl, .logCount, .logged, .bus] t ∧
        (t.canI c.val).rxBusy = true ∧
        (t.canI c.val).tx = (s.canI c.val).tx) ∧
    (∀ (c : Fin 12) (ts : BitVec 64) (other : Bool) (i : Nat) (s : State), other = false →
      canOn s c.val = true →
      sending s c.val = false →
      (s.canI c.val).next = none →
      cannotSend s c.val = false →
      offered s c.val = some i →
      ∃ t, exec (.startOfFrame c ts other) s = .next t ∧ s.sameBut [.regs, .mirror, .logm, .quem, .ecc, .ports, .xcnt, .logNext, .logCompl, .logCount, .logged, .bus] t ∧
        canTx t c.val i = { (canTx s c.val i) with active := true, onBus := true, redo := false, ts := w32 ts.toNat } ∧
        (t.canI c.val).rxBusy = false ∧
        (counter t c.val 12 = counter s c.val 12 + (if (canTx s c.val i).redo then 1#32 else 0#32)) ∧
        (∀ k, k ≠ i → canTx t c.val k = canTx s c.val k)) ∧
    (∀ (c : Fin 12) (res : Fin 4) (tdcv : Option (BitVec 7)) (i : Nat) (s : State), (List.range 16).find? (fun i => (canTx s c.val i).onBus) = some i →
      tdcv = none →
      (s.canI c.val).leave = false →
      res = 0 →
      (canTx s c.val i).frame.isSome = true →
      bit (canCtl (s.canI c.val) c.val) 3 = false →
      ∃ t, exec (.canAttemptEnd c res tdcv) s = .next t ∧ s.sameBut [.regs, .mirror, .logm, .quem, .ecc, .ports, .xcnt, .logNext, .logCompl, .logCount, .logged, .bus] t ∧
        (canTx t c.val i).req = false ∧
        (canTx t c.val i).onBus = false ∧
        (t.canI c.val).txec = (s.canI c.val).txec - 1 ∧
        counter t c.val 1 = counter s c.val 1 + 1#32 ∧
        (∀ k, k ≠ i → canTx t c.val k = canTx s c.val k)) ∧
    (∀ (c : Fin 12) (res : Fin 4) (tdcv : Option (BitVec 7)) (i : Nat) (s : State), (List.range 16).find? (fun i => (canTx s c.val i).onBus) = some i →
      tdcv = none →
      (s.canI c.val).leave = false →
      res = 2 →
      (canTx s c.val i).abort = false →
      bit (canCtl (s.canI c.val) c.val) 5 = true →
      ∃ t, exec (.canAttemptEnd c res tdcv) s = .next t ∧ s.sameBut [.regs, .mirror, .logm, .quem, .ecc, .ports, .xcnt, .logNext, .logCompl, .logCount, .logged, .bus] t ∧
        canTx t c.val i = { (canTx s c.val i) with errors := (canTx s c.val i).errors + 1, redo := true, onBus := false } ∧
        t.bus.cnt = s.bus.cnt ∧
        (∀ k, k ≠ i → canTx t c.val k = canTx s c.val k)) ∧
    (∀ (c : Fin 12) (kind : Fin 7) (txUp rxUp : Fin 9) (n : Sparse Word) (s : State), (Instr.canError c kind txUp rxUp).wf = true →
      canOn s c.val = true →
      (s.canI c.val).txec + txUp.val ≤ 255 →
      (s.canI c.val).leave = true →
      (s.canI c.val).next = some n →
      sending s c.val = false →
      ∃ t, exec (.canError c kind txUp rxUp) s = .next t ∧ s.sameBut [.regs, .mirror, .logm, .quem, .ecc, .ports, .xcnt, .logNext, .logCompl, .logCount, .logged, .bus] t ∧
        (t.canI c.val).cur = n ∧
        (t.canI c.val).next = none ∧
        (t.canI c.val).leave = false ∧
        (t.canI c.val).mode = 3 ∧
        (t.canI c.val).txec = 0 ∧
        (t.canI c.val).rxec = 0) ∧
    (∀ (c : Fin 12) (kind : Fin 7) (txUp rxUp : Fin 9) (s : State), (Instr.canError c kind txUp rxUp).wf = true →
      canOn s c.val = true →
      (s.canI c.val).txec + txUp.val ≤ 255 →
      (s.canI c.val).leave = false →
      ∃ t, exec (.canError c kind txUp rxUp) s = .next t ∧ s.sameBut [.regs, .mirror, .logm, .quem, .ecc, .ports, .xcnt, .logNext, .logCompl, .logCount, .logged, .bus] t ∧
        (t.canI c.val).txec = (s.canI c.val).txec + txUp.val ∧
        (t.canI c.val).rxec = min ((s.canI c.val).rxec + rxUp.val) 255 ∧
        counter t c.val (errCounter kind.val) = counter s c.val (errCounter kind.val) + 1#32 ∧
        ((t.canI c.val).mode = (if 128 ≤ (s.canI c.val).txec + txUp.val ∨ 128 ≤ min ((s.canI c.val).rxec + rxUp.val) 255 then 1 else 0))) ∧
    (∀ (c : Fin 12) (kind : Fin 7) (txUp rxUp : Fin 9) (s : State), (Instr.canError c kind txUp rxUp).wf = true →
      canOn s c.val = true →
      255 < (s.canI c.val).txec + txUp.val →
      ∃ t, exec (.canError c kind txUp rxUp) s = .next t ∧ s.sameBut [.regs, .mirror, .logm, .quem, .ecc, .ports, .xcnt, .logNext, .logCompl, .logCount, .logged, .bus] t ∧
        (t.canI c.val).mode = 2 ∧
        (t.canI c.val).recov = false ∧
        t.rb (Reg.canChEvt c.val) 1 = true) ∧
    (∀ (c : Fin 12) (s : State), canOn s c.val = true →
      ∃ t, exec (.protocolException c) s = .next t ∧ s.sameBut [.regs, .mirror, .logm, .quem, .ecc, .ports, .xcnt, .logNext, .logCompl, .logCount, .logged, .bus] t ∧
        (t.canI c.val).pex = true ∧
        counter t c.val 11 = counter s c.val 11 + 1#32 ∧
        t.rb (Reg.canChEvt c.val) 3 = true) ∧
    (∀ (c : Fin 12) (n : Sparse Word) (s : State), s.bus.powered = true →
      (s.canI c.val).leave = true →
      (s.canI c.val).next = some n →
      sending s c.val = false →
      ∃ t, exec (.busIntegration c) s = .next t ∧ s.sameBut [.regs, .mirror, .logm, .quem, .ecc, .ports, .xcnt, .logNext, .logCompl, .logCount, .logged, .bus] t ∧
        (t.canI c.val).cur = n ∧
        (t.canI c.val).leave = false ∧
        (t.canI c.val).mode = 3 ∧
        (t.canI c.val).rxBusy = false) ∧
    (∀ (c : Fin 12) (s : State), s.bus.powered = true →
      (s.canI c.val).leave = false →
      (s.canI c.val).pex = false →
      (s.canI c.val).mode = 3 →
      (s.canI c.val).cfgd = true →
      bit (canCtl (s.canI c.val) c.val) 0 = true →
      ∃ t, exec (.busIntegration c) s = .next t ∧ s.sameBut [.regs, .mirror, .logm, .quem, .ecc, .ports, .xcnt, .logNext, .logCompl, .logCount, .logged, .bus] t ∧
        (t.canI c.val).mode = 0 ∧
        (t.canI c.val).tx = (s.canI c.val).tx) ∧
    (∀ (c : Fin 12) (s : State), s.bus.powered = true →
      (s.canI c.val).leave = false →
      (s.canI c.val).pex = true →
      ∃ t, exec (.busIntegration c) s = .next t ∧ s.sameBut [.regs, .mirror, .logm, .quem, .ecc, .ports, .xcnt, .logNext, .logCompl, .logCount, .logged, .bus] t ∧
        (t.canI c.val).pex = false ∧
        (t.canI c.val).mode = (s.canI c.val).mode) ∧
    (∀ (c : Fin 12) (s : State), s.bus.powered = true →
      (s.canI c.val).mode = 2 →
      (s.canI c.val).recov = false →
      bit (canCtl (s.canI c.val) c.val) 4 = true →
      ∃ t, exec (.busOffHoldEnd c) s = .next t ∧ s.sameBut [.regs, .mirror, .logm, .ecc, .ports, .xcnt, .logNext, .logCompl, .logCount, .logged, .bus] t ∧
        (t.canI c.val).recov = true ∧
        (t.canI c.val).mode = 2 ∧
        (t.canI c.val).tx = (s.canI c.val).tx) ∧
    (∀ (c : Fin 12) (s : State), s.bus.powered = true →
      (s.canI c.val).mode = 2 →
      (s.canI c.val).recov = true →
      ∃ t, exec (.busOffRecoveryDone c) s = .next t ∧ s.sameBut [.regs, .mirror, .logm, .ecc, .ports, .xcnt, .logNext, .logCompl, .logCount, .logged, .bus] t ∧
        (t.canI c.val).mode = 0 ∧
        (t.canI c.val).txec = 0 ∧
        (t.canI c.val).rxec = 0 ∧
        t.rb (Reg.canChEvt c.val) 2 = true)

/-- T1S_FRAME_RECEIVE of a good frame that passes the filter puts it behind the frames to push, a faulty one is counted;
T1S_RX_RECORD_PUSH pushes a report that fits; T1S_TX_RECORD_POP takes a whole record into the FIFO; T1S_FRAME_TRANSMIT
sends the head frame, or after a collision waits 512 k bit times; the waits end; PAUSE_RECEIVED holds transmission in
full duplex; PAUSE_SEND, PAUSE_RESEND, PAUSE_RELEASE and BACKPRESSURE_JAM follow the level of the receive queue, and
the level itself begins and ends backpressure as a record is pushed or the engine pops a word, with a status word at
the change (R308, R314). A configuration that waits is in force for the frame that starts, a received or a sent PAUSE
included (R307). Model's choices, all log entry 75: a full-duplex attempt is always sent, PAUSE is obeyed in full
duplex with RXPAUSE only, and overflow is tested before faults. COMPLETE here (the conclusion is that exec answers a
next state t): t1sFrameReceive, t1sRxRecordPush, t1sTxRecordPop, t1sFrameTransmit, backoffEnd, pauseReceived,
pauseHoldEnd, pauseSend, pauseResend, pauseRelease, backpressureJam, islandQueuePush, qpop. -/
def Obligations.T1sPorts : Prop :=
    (∀ (p : Fin 12) (bytes : List Byte) (whole late : Bool) (ts : BitVec 64) (s : State), macOn s p.val = true →
      (s.macI p.val).next = none →
      (s.macI p.val).out = [] →
      fifoBytes (s.macI p.val) + bytes.length ≤ 8192 →
      rxFault s p.val bytes whole late = none →
      etherType bytes ≠ 0x8808 →
      passes s p.val (bytes.take 6) = true →
      islandRoom s 10 (24 + p.val) < (rxRecord bytes (w32 ts.toNat)).length →
      ∃ t, exec (.t1sFrameReceive p bytes whole late ts) s = .next t ∧ s.sameBut [.regs, .mirror, .logm, .quem, .ecc, .ports, .xcnt, .logNext, .logCompl, .logCount, .logged, .ctl, .bus] t ∧
        (t.macI p.val).out = [.frame bytes (w32 ts.toNat)] ∧
        (sget [] s.bus.snap (12 + p.val) = [] → t.quem = s.quem) ∧
        t.bus.cnt = s.bus.cnt) ∧
    (∀ (p : Fin 12) (bytes : List Byte) (whole late : Bool) (ts : BitVec 64) (k : Nat) (s : State), macOn s p.val = true →
      (s.macI p.val).next = none →
      (s.macI p.val).out = [] →
      fifoBytes (s.macI p.val) + bytes.length ≤ 8192 →
      rxFault s p.val bytes whole late = some k →
      ∃ t, exec (.t1sFrameReceive p bytes whole late ts) s = .next t ∧ s.sameBut [.regs, .mirror, .logm, .quem, .ecc, .ports, .xcnt, .logNext, .logCompl, .logCount, .logged, .ctl, .bus] t ∧
        (t.macI p.val).out = [] ∧
        counter t (12 + p.val) k = counter s (12 + p.val) k + 1#32 ∧
        (sget [] s.bus.snap (12 + p.val) = [] → t.quem = s.quem)) ∧
    (∀ (p : Fin 12) (ws : List Word) (q : Nat) (s : State), (s.macI p.val).out = [.report ws] →
      qOfProd s (epIsland 10 (24 + p.val)) = some q →
      qLevel s q + ws.length ≤ qSize s q →
      qLevel s q + ws.length < 2 ^ 15 →
      ∃ t, exec (.t1sRxRecordPush p) s = .next t ∧ s.sameBut [.regs, .mirror, .logm, .quem, .ecc, .ports, .xcnt, .logNext, .logCompl, .logCount, .logged, .bus] t ∧
        (t.macI p.val).out = [] ∧
        qLevel t q = qLevel s q + ws.length) ∧
    (∀ (p : Fin 12) (q : Nat) (s : State), qOfCons s (epIsland 10 (36 + p.val)) = some q →
      macOn s p.val = true →
      txRecordOk s p.val (qFetch s q 0).1 = true →
      1 + ((fld (qFetch s q 0).1 15 0) + 3) / 4 ≤ qLevel s q →
      txBytes (s.macI p.val) + (fld (qFetch s q 0).1 15 0) ≤ 4096 →
      (s.macI p.val).out = [] →
      ∃ t, exec (.t1sTxRecordPop p) s = .next t ∧ s.sameBut [.regs, .mirror, .logm, .quem, .ecc, .qrd, .ports, .xcnt, .logNext, .logCompl, .logCount, .logged, .bus] t ∧
        qLevel t q = qLevel s q - (1 + ((fld (qFetch s q 0).1 15 0) + 3) / 4) ∧
        (t.macI p.val).txq = (s.macI p.val).txq ++ [(wordBytes ((busPop q (1 + ((fld (qFetch s q 0).1 15 0) + 3) / 4) s).1.drop 1)).take (fld (qFetch s q 0).1 15 0)]) ∧
    (∀ (p : Fin 12) (res : Fin 3) (defer : Bool) (ts : BitVec 64) (f : List Byte) (fs : List (List Byte)) (s : State), macOn s p.val = true →
      (s.macI p.val).next = none →
      (s.macI p.val).paused = none →
      (s.macI p.val).backoff = none →
      (s.macI p.val).txq = f :: fs →
      (macFd s p.val = true ∨ res = 0) →
      (s.macI p.val).out = [] →
      ∃ t, exec (.t1sFrameTransmit p res defer ts) s = .next t ∧ s.sameBut [.regs, .mirror, .logm, .quem, .ecc, .ports, .xcnt, .logNext, .logCompl, .logCount, .logged, .bus, .freeCtr] t ∧
        (t.macI p.val).txq = fs ∧
        (t.macI p.val).coll = 0 ∧
        counter t (12 + p.val) 18 = counter s (12 + p.val) 18 + 1#32 ∧
        t.freeCtr = s.freeCtr) ∧
    (∀ (p : Fin 12) (res : Fin 3) (defer : Bool) (ts : BitVec 64) (f : List Byte) (fs : List (List Byte)) (s : State), macOn s p.val = true →
      (s.macI p.val).next = none →
      (s.macI p.val).paused = none →
      (s.macI p.val).backoff = none →
      (s.macI p.val).txq = f :: fs →
      macFd s p.val = false →
      res = 1 →
      (s.macI p.val).coll + 1 < 16 →
      ∃ t, exec (.t1sFrameTransmit p res defer ts) s = .next t ∧ s.sameBut [.regs, .mirror, .logm, .quem, .ecc, .ports, .xcnt, .logNext, .logCompl, .logCount, .logged, .bus, .freeCtr] t ∧
        (t.macI p.val).txq = f :: fs ∧
        (t.macI p.val).coll = (s.macI p.val).coll + 1 ∧
        (∃ k, k < 2 ^ min ((s.macI p.val).coll + 1) 10 ∧ (t.macI p.val).backoff = some (512 * k))) ∧
    (∀ (p : Fin 12) (s : State), ∃ t, exec (.backoffEnd p) s = .next t ∧ s.sameBut [.regs, .mirror, .logm, .ecc, .ports, .xcnt, .logNext, .logCompl, .logCount, .logged, .bus] t ∧
        (t.macI p.val).backoff = none ∧
        (t.macI p.val).txq = (s.macI p.val).txq) ∧
    (∀ (p : Fin 12) (quanta : BitVec 16) (s : State), macOn s p.val = true →
      (s.macI p.val).next = none →
      bit (macCtl s p.val) 3 = true →
      macFd s p.val = true →
      ∃ t, exec (.pauseReceived p quanta) s = .next t ∧ s.sameBut [.regs, .mirror, .logm, .ecc, .ports, .xcnt, .logNext, .logCompl, .logCount, .logged, .bus] t ∧
        ((t.macI p.val).paused = (if quanta.toNat = 0 then none else some quanta.toNat)) ∧
        counter t (12 + p.val) 17 = counter s (12 + p.val) 17 + 1#32) ∧
    (∀ (p : Fin 12) (quanta : BitVec 16) (n : Sparse Word) (s : State), macOn s p.val = true →
      (s.macI p.val).next = some n →
      bit (cfgReg n (Reg.macPCtrl p.val)) 0 = true →
      bit (cfgReg n (Reg.macPCtrl p.val)) 1 = true →
      bit (cfgReg n (Reg.macPCtrl p.val)) 3 = true →
      ∃ t, exec (.pauseReceived p quanta) s = .next t ∧ s.sameBut [.regs, .mirror, .logm, .ecc, .ports, .xcnt, .logNext, .logCompl, .logCount, .logged, .bus] t ∧
        (t.macI p.val).cur = n ∧
        (t.macI p.val).next = none ∧
        ((t.macI p.val).paused = (if quanta.toNat = 0 then none else some quanta.toNat)) ∧
        counter t (12 + p.val) 17 = counter s (12 + p.val) 17 + 1#32) ∧
    (∀ (p : Fin 12) (s : State), ∃ t, exec (.pauseHoldEnd p) s = .next t ∧ s.sameBut [.regs, .mirror, .logm, .ecc, .ports, .xcnt, .logNext, .logCompl, .logCount, .logged, .bus] t ∧
        (t.macI p.val).paused = none ∧
        (t.macI p.val).txq = (s.macI p.val).txq) ∧
    (∀ (p : Fin 12) (q : Nat) (n : Sparse Word) (s : State), rxQueue s p.val = some q →
      pausing s p.val = true →
      (s.macI p.val).flow = false →
      qHigh s q ≤ qLevel s q →
      (s.macI p.val).next = some n →
      bit (cfgReg n (Reg.macPCtrl p.val)) 0 = true →
      bit (cfgReg n (Reg.macPCtrl p.val)) 1 = true →
      bit (cfgReg n (Reg.macPCtrl p.val)) 2 = true →
      ∃ t, exec (.pauseSend p) s = .next t ∧ s.sameBut [.regs, .mirror, .logm, .ecc, .ports, .xcnt, .logNext, .logCompl, .logCount, .logged, .bus] t ∧
        (t.macI p.val).cur = n ∧
        (t.macI p.val).next = none ∧
        (t.macI p.val).flow = true ∧
        (t.macI p.val).sentPause = some (pauseFrame t p.val (fld (macCtl t p.val) 31 16)) ∧
        counter t (12 + p.val) 27 = counter s (12 + p.val) 27 + 1#32) ∧
    (∀ (p : Fin 12) (q : Nat) (n : Sparse Word) (s : State), rxQueue s p.val = some q →
      pausing s p.val = true →
      (s.macI p.val).flow = false →
      qHigh s q ≤ qLevel s q →
      (s.macI p.val).next = some n →
      bit (cfgReg n (Reg.macPCtrl p.val)) 2 = false →
      ∃ t, exec (.pauseSend p) s = .next t ∧ s.sameBut [.regs, .mirror, .logm, .ecc, .ports, .xcnt, .logNext, .logCompl, .logCount, .logged, .bus] t ∧
        (t.macI p.val).cur = n ∧
        (t.macI p.val).next = none ∧
        (t.macI p.val).flow = false ∧
        (t.macI p.val).sentPause = (s.macI p.val).sentPause ∧
        t.bus.cnt = s.bus.cnt) ∧
    (∀ (p : Fin 12) (q : Nat) (n : Sparse Word) (s : State), rxQueue s p.val = some q →
      pausing s p.val = true →
      (s.macI p.val).flow = true →
      qLow s q < qLevel s q →
      (s.macI p.val).next = some n →
      bit (cfgReg n (Reg.macPCtrl p.val)) 0 = true →
      bit (cfgReg n (Reg.macPCtrl p.val)) 1 = true →
      bit (cfgReg n (Reg.macPCtrl p.val)) 2 = true →
      ∃ t, exec (.pauseResend p) s = .next t ∧ s.sameBut [.regs, .mirror, .logm, .ecc, .ports, .xcnt, .logNext, .logCompl, .logCount, .logged, .bus] t ∧
        (t.macI p.val).cur = n ∧
        (t.macI p.val).next = none ∧
        (t.macI p.val).flow = true ∧
        (t.macI p.val).sentPause = some (pauseFrame t p.val (fld (macCtl t p.val) 31 16)) ∧
        counter t (12 + p.val) 27 = counter s (12 + p.val) 27 + 1#32) ∧
    (∀ (p : Fin 12) (q : Nat) (n : Sparse Word) (s : State), rxQueue s p.val = some q →
      pausing s p.val = true →
      (s.macI p.val).flow = true →
      qLevel s q ≤ qLow s q →
      (s.macI p.val).next = some n →
      bit (cfgReg n (Reg.macPCtrl p.val)) 0 = true →
      bit (cfgReg n (Reg.macPCtrl p.val)) 1 = true →
      bit (cfgReg n (Reg.macPCtrl p.val)) 2 = true →
      ∃ t, exec (.pauseRelease p) s = .next t ∧ s.sameBut [.regs, .mirror, .logm, .ecc, .ports, .xcnt, .logNext, .logCompl, .logCount, .logged, .bus] t ∧
        (t.macI p.val).cur = n ∧
        (t.macI p.val).next = none ∧
        (t.macI p.val).flow = false ∧
        (t.macI p.val).sentPause = some (pauseFrame t p.val 0) ∧
        counter t (12 + p.val) 27 = counter s (12 + p.val) 27 + 1#32) ∧
    (∀ (p : Fin 12) (q : Nat) (s : State), rxQueue s p.val = some q →
      pausing s p.val = true →
      (s.macI p.val).next = none →
      (s.macI p.val).flow = false →
      qHigh s q ≤ qLevel s q →
      ∃ t, exec (.pauseSend p) s = .next t ∧ s.sameBut [.regs, .mirror, .logm, .ecc, .ports, .xcnt, .logNext, .logCompl, .logCount, .logged, .bus] t ∧
        (t.macI p.val).flow = true ∧
        (t.macI p.val).sentPause = some (pauseFrame s p.val (fld (macCtl s p.val) 31 16)) ∧
        counter t (12 + p.val) 27 = counter s (12 + p.val) 27 + 1#32) ∧
    (∀ (p : Fin 12) (q : Nat) (s : State), rxQueue s p.val = some q →
      pausing s p.val = true →
      (s.macI p.val).next = none →
      (s.macI p.val).flow = true →
      qLow s q < qLevel s q →
      ∃ t, exec (.pauseResend p) s = .next t ∧ s.sameBut [.regs, .mirror, .logm, .ecc, .ports, .xcnt, .logNext, .logCompl, .logCount, .logged, .bus] t ∧
        (t.macI p.val).flow = true ∧
        (t.macI p.val).sentPause = some (pauseFrame s p.val (fld (macCtl s p.val) 31 16)) ∧
        counter t (12 + p.val) 27 = counter s (12 + p.val) 27 + 1#32) ∧
    (∀ (p : Fin 12) (q : Nat) (s : State), rxQueue s p.val = some q →
      pausing s p.val = true →
      (s.macI p.val).next = none →
      (s.macI p.val).flow = true →
      qLevel s q ≤ qLow s q →
      ∃ t, exec (.pauseRelease p) s = .next t ∧ s.sameBut [.regs, .mirror, .logm, .ecc, .ports, .xcnt, .logNext, .logCompl, .logCount, .logged, .bus] t ∧
        (t.macI p.val).flow = false ∧
        (t.macI p.val).sentPause = some (pauseFrame s p.val 0) ∧
        counter t (12 + p.val) 27 = counter s (12 + p.val) 27 + 1#32) ∧
    (∀ (p : Fin 12) (q : Nat) (s : State), rxQueue s p.val = some q →
      macOn s p.val = true →
      (s.macI p.val).next = none →
      macFd s p.val = false →
      bit (macCtl s p.val) 4 = true →
      qLow s q < qLevel s q →
      qHigh s q ≤ qLevel s q →
      ∃ t, exec (.backpressureJam p) s = .next t ∧ s.sameBut [.regs, .mirror, .logm, .ecc, .ports, .xcnt, .logNext, .logCompl, .logCount, .logged, .bus] t ∧
        (t.macI p.val).flow = true ∧
        counter t (12 + p.val) 29 = counter s (12 + p.val) 29 + 1#32) ∧
    (∀ (p : Fin 12) (q : Nat) (s : State), rxQueue s p.val = some q →
      macOn s p.val = true →
      (s.macI p.val).next = none →
      macFd s p.val = false →
      bit (macCtl s p.val) 4 = true →
      qLow s q < qLevel s q →
      (s.macI p.val).flow = true →
      ∃ t, exec (.backpressureJam p) s = .next t ∧ s.sameBut [.regs, .mirror, .logm, .ecc, .ports, .xcnt, .logNext, .logCompl, .logCount, .logged, .bus] t ∧
        (t.macI p.val).flow = true ∧
        counter t (12 + p.val) 29 = counter s (12 + p.val) 29 + 1#32) ∧
    (∀ (q : Fin 64) (island : Fin 25) (unit : BitVec 8) (ws : List Word) (p : Fin 12) (s : State), qSize s q.val ≠ 0 →
      qProd s q.val = epIsland island.val unit.toNat →
      bpPort s q.val = some p.val →
      qLevel s q.val < qHigh s q.val →
      qLow s q.val < qHigh s q.val →
      qHigh s q.val = qLevel s q.val + ws.length →
      qHigh s q.val ≤ qSize s q.val →
      qHigh s q.val < 2 ^ 15 →
      (s.macI p.val).flow = false →
      (s.macI p.val).ovf = false →
      ∃ t, exec (.islandQueuePush q island unit ws) s = .next t ∧ s.sameBut [.regs, .mirror, .logm, .quem, .ecc, .ports, .xcnt, .logNext, .logCompl, .logCount, .logged, .bus] t ∧
        (t.macI p.val).flow = true ∧
        t.rb (Reg.macPEvt p.val) 3 = true ∧
        bit (statusOf t (12 + p.val)) 3 = true ∧
        sget 0#32 t.bus.word (12 + p.val) = statusOf t (12 + p.val)) ∧
    (∀ (i : Issue) (d qa : Fin 64) (p : Fin 12) (s : State), (Instr.qpop i d qa).wf = true →
      issueGoes i s →
      qSize s qa.val ≠ 0 →
      qCons s qa.val = epEngine →
      bpPort s qa.val = some p.val →
      qLevel s qa.val = qLow s qa.val + 1 →
      s.eccAt mcQue (qAddr s qa.val 0) = .ok →
      (s.macI p.val).ovf = false →
      sget 0#32 s.bus.word (12 + p.val) = statusOf s (12 + p.val) →
      ∃ t, exec (.qpop i d qa) s = .next t ∧ s.sameBut [.regs, .mirror, .logm, .ecc, .eng, .qrd, .ports, .xcnt, .logNext, .logCompl, .logCount, .logged, .bus] t ∧
        (t.macI p.val).flow = false ∧
        bit (statusOf t (12 + p.val)) 3 = false ∧
        sget 0#32 t.bus.word (12 + p.val) = statusOf t (12 + p.val)) ∧
    (∀ (p : Fin 12) (q : Nat) (s : State), rxQueue s p.val = some q →
      macOn s p.val = true →
      (s.macI p.val).next = none →
      macFd s p.val = false →
      bit (macCtl s p.val) 4 = true →
      qLevel s q ≤ qLow s q →
      ∃ t, exec (.backpressureJam p) s = .next t ∧ s.sameBut [.regs, .mirror, .logm, .ecc, .ports, .xcnt, .logNext, .logCompl, .logCount, .logged, .bus] t ∧
        (t.macI p.val).flow = false ∧
        t.bus.cnt = s.bus.cnt)

/-- HEARTBEAT_SEND and FABRIC_HEARTBEAT send the heartbeat words from release until the engine halts; HEARTBEAT_RECEIVE of
a good frame refreshes its path and keeps the partner's request, of a failed one counts it; PATH_LOST marks a path
lost once; LEASE_REQUEST uses the next REQ and keeps when it was sent; PAR_GRANT of a request sets REMAIN to 289,000
less the microseconds elapsed since, of one too old or never sent it leaves REMAIN (log entry 78), and the timer
counts from the moment of the grant; PAR_PROBE sends KIND 3; SB_LOST clears SBOK; PAIR_STATE_CHANGE makes one
transition: a grant makes a contender ACTIVE, a lease that ran out makes ACTIVE contend, a contender whose partner and
signal box are lost enters SAFE, a partner that holds makes SAFE stand by. The model's choices: one transition for a
run of the pair paths, and what the signal box answers as operands (log entry 78); a path that has had no heartbeat
since release is lost once its 3 or 30 ms have passed (log entry 93). From 311 ms after release SIGNAL_BOX_REQUEST of
a pair without a valid holder grants the tablet to the member for 300 ms; of a pair that the other member holds it
keeps the request pending and answers KIND 5 with the time left rounded up to milliseconds (the rounding is assumption
94); SIGNAL_BOX_PENDING_GRANT grants a pending request not older than 100 ms once the holder's time and 11 ms have
passed. COMPLETE here (the conclusion is that exec answers a next state t): heartbeatSend, heartbeatReceive,
fabricHeartbeat, pathLost, leaseRequest, parGrant, parProbe, sbLost, pairStateChange, signalBoxRequest,
signalBoxPendingGrant. -/
def Obligations.PairMember : Prop :=
    (∀ (s : State), parEn s = true →
      s.eng.released = true →
      s.rb Reg.tteStat 3 = false →
      ∃ t, exec .heartbeatSend s = .next t ∧ s.sameBut [.regs, .mirror, .logm, .ecc, .logNext, .logCompl, .logCount, .logged, .hamper, .pair, .ctl] t ∧
        t.pair = { s.pair with linkSent := hbWords s } ∧
        t.reg (Reg.parHbTx 6) = s.reg (Reg.parHbTx 6) + 1#32 ∧
        t.rf Reg.parHbAge 15 0 = min (s.rf Reg.parHbAge 15 0 + 1) 65535) ∧
    (∀ (overFabric : Bool) (ws : List Word) (s : State), parEn s = true →
      hbGood s ws = true →
      overFabric = false →
      ∃ t, exec (.heartbeatReceive overFabric ws) s = .next t ∧ s.sameBut [.regs, .mirror, .logm, .ecc, .logNext, .logCompl, .logCount, .logged, .hamper, .pair, .ctl] t ∧
        t.rf Reg.parHbAge 15 0 = 0 ∧
        t.rb Reg.parStat 4 = true ∧
        t.reg (Reg.parHbRx 3) = ws.getD 3 0#32 ∧
        t.pair.partnerReq = some (fld (ws.getD 2 0#32) 15 0) ∧
        t.pair.lostUs = 0 ∧
        t.pair.lostPl = false ∧
        t.pair.lostFb = s.pair.lostFb ∧
        t.pair.partnerState = fld (ws.getD 1 0#32) 2 0) ∧
    (∀ (overFabric : Bool) (ws : List Word) (s : State), parEn s = true →
      hbGood s ws = false →
      ∃ t, exec (.heartbeatReceive overFabric ws) s = .next t ∧ s.sameBut [.regs, .mirror, .logm, .ecc, .logNext, .logCompl, .logCount, .logged, .hamper, .pair, .ctl] t ∧
        t.pair = s.pair ∧
        t.rb Reg.parEvt 8 = true ∧
        (t.rf Reg.parCnt 31 16 = (if overFabric then min (s.rf Reg.parCnt 31 16 + 1) 65535 else s.rf Reg.parCnt 31 16))) ∧
    (∀ (s : State), parEn s = true →
      s.eng.released = true →
      s.rb Reg.tteStat 3 = false →
      ∃ t, exec .fabricHeartbeat s = .next t ∧ s.sameBut [.regs, .mirror, .logm, .quem, .ecc, .ports, .xcnt, .logNext, .logCompl, .logCount, .logged, .hamper, .pair, .ctl, .fab, .bus] t ∧
        t.pair = { s.pair with fabSent := hbWords s } ∧
        sget 0 t.fab.seq (s.rf Reg.parCfg 15 8 * 256) = (sget 0 s.fab.seq (s.rf Reg.parCfg 15 8 * 256) + 1) % 65536) ∧
    (∀ (onFabric : Bool) (s : State), parEn s = true →
      s.eng.released = true →
      (if onFabric then s.pair.lostFb else s.pair.lostPl) = false →
      ∃ t, exec (.pathLost onFabric) s = .next t ∧ s.sameBut [.regs, .mirror, .logm, .quem, .ecc, .ports, .xcnt, .logNext, .logCompl, .logCount, .logged, .hamper, .pair, .ctl, .fab, .bus, .freeCtr] t ∧
        (t.rb Reg.parStat (if onFabric then 5 else 4) = false) ∧
        (t.rb Reg.parEvt (if onFabric then 1 else 0) = true) ∧
        t.pair.lostPl = (s.pair.lostPl || !onFabric) ∧
        t.pair.lostFb = (s.pair.lostFb || onFabric)) ∧
    (∀ (onFabric : Bool) (s : State), parEn s = true →
      (if onFabric then s.pair.lostFb else s.pair.lostPl) = true →
      ∃ t, exec (.pathLost onFabric) s = .next t ∧ s.sameBut [.regs, .mirror, .logm, .quem, .ecc, .ports, .xcnt, .logNext, .logCompl, .logCount, .logged, .hamper, .pair, .ctl, .fab, .bus, .freeCtr] t ∧
        t.pair = s.pair) ∧
    (∀ (answered : Bool) (cycle : BitVec 17) (s : State), parEn s = true →
      parState s = 2 →
      answered = true →
      ∃ t, exec (.leaseRequest answered cycle) s = .next t ∧ s.sameBut [.regs, .mirror, .logm, .quem, .ecc, .ports, .xcnt, .logNext, .logCompl, .logCount, .logged, .hamper, .pair, .ctl, .fab, .bus] t ∧
        t.rf (Reg.parHbTx 2) 15 0 = ((s.rf (Reg.parHbTx 2) 15 0 + 1) % 65536) ∧
        t.pair = { s.pair with reqAt := sset 0 s.pair.reqAt ((s.rf (Reg.parHbTx 2) 15 0 + 1) % 65536) (1 + s.nowNs cycle.toNat), cell := some { kind := 2, dest := s.rf Reg.parSb 15 0, req := ((s.rf (Reg.parHbTx 2) 15 0 + 1) % 65536), valid := false, holder := 0, ms := 0 }, cells := s.pair.cells + 1, sbAnswer := true } ∧
        t.rb Reg.parStat 6 = true) ∧
    (∀ (answered : Bool) (cycle : BitVec 17) (s : State), parEn s = true →
      parState s = 1 →
      partnerLost s = false →
      ∃ t, exec (.leaseRequest answered cycle) s = .next t ∧ s.sameBut [.regs, .mirror, .logm, .quem, .ecc, .ports, .xcnt, .logNext, .logCompl, .logCount, .logged, .hamper, .pair, .ctl, .fab, .bus] t ∧
        t.rf (Reg.parHbTx 2) 15 0 = ((s.rf (Reg.parHbTx 2) 15 0 + 1) % 65536) ∧
        t.pair = { s.pair with reqAt := sset 0 s.pair.reqAt ((s.rf (Reg.parHbTx 2) 15 0 + 1) % 65536) (1 + s.nowNs cycle.toNat) }) ∧
    (∀ (req : BitVec 16) (cycle : BitVec 17) (fromBox : Bool) (us : Nat) (s : State), parEn s = true →
      (parState s = 1 ∨ parState s = 2) →
      s.pair.applied = none →
      requestAge s req.toNat (s.nowNs cycle.toNat) = some us →
      us < 289000 →
      ∃ t, exec (.parGrant req cycle fromBox) s = .next t ∧ s.sameBut [.regs, .mirror, .logm, .ecc, .logNext, .logCompl, .logCount, .logged, .hamper, .pair, .ctl] t ∧
        t.reg Reg.parLease = w32 (289000 - us) ∧
        t.pair = { s.pair with applied := some req.toNat, granted := true, leaseUs := min (cycle.toNat * 5 / 2) s.minorNs / 1000, sbAnswer := s.pair.sbAnswer || fromBox }) ∧
    (∀ (req : BitVec 16) (cycle : BitVec 17) (fromBox : Bool) (us : Nat) (s : State), parEn s = true →
      requestAge s req.toNat (s.nowNs cycle.toNat) = some us →
      289000 ≤ us →
      fromBox = false →
      ∃ t, exec (.parGrant req cycle fromBox) s = .next t ∧ s.sameBut [.regs, .mirror, .logm, .ecc, .logNext, .logCompl, .logCount, .logged, .hamper, .pair, .ctl] t ∧
        t.reg Reg.parLease = s.reg Reg.parLease ∧
        t.pair = s.pair) ∧
    (∀ (req : BitVec 16) (cycle : BitVec 17) (fromBox : Bool) (s : State), parEn s = true →
      requestAge s req.toNat (s.nowNs cycle.toNat) = none →
      fromBox = false →
      ∃ t, exec (.parGrant req cycle fromBox) s = .next t ∧ s.sameBut [.regs, .mirror, .logm, .ecc, .logNext, .logCompl, .logCount, .logged, .hamper, .pair, .ctl] t ∧
        t.reg Reg.parLease = s.reg Reg.parLease ∧
        t.pair = s.pair) ∧
    (∀ (answered : Bool) (s : State), parEn s = true →
      (parState s = 3 ∨ parState s = 4) →
      ∃ t, exec (.parProbe answered) s = .next t ∧ s.sameBut [.regs, .mirror, .logm, .quem, .ecc, .ports, .xcnt, .logNext, .logCompl, .logCount, .logged, .hamper, .pair, .ctl, .fab, .bus] t ∧
        t.pair.cell = some { kind := 3, dest := s.rf Reg.parSb 15 0, req := 0, valid := false, holder := 0, ms := 0 } ∧
        t.pair.cells = s.pair.cells + 1 ∧
        t.pair.sbAnswer = (answered || s.pair.sbAnswer)) ∧
    (∀ (s : State), parEn s = true →
      ∃ t, exec .sbLost s = .next t ∧ s.sameBut [.regs, .mirror, .logm, .ecc, .logNext, .logCompl, .logCount, .logged, .hamper, .ctl] t ∧
        t.rb Reg.parStat 6 = false ∧
        t.rb Reg.parEvt 3 = true ∧
        t.pair = s.pair) ∧
    (∀ (s : State), parEn s = true →
      s.eng.released = true →
      parState s = 1 →
      s.pair.granted = true →
      ∃ t, exec .pairStateChange s = .next t ∧ s.sameBut [.regs, .mirror, .logm, .quem, .ecc, .ports, .xcnt, .logNext, .logCompl, .logCount, .logged, .hamper, .pair, .ctl, .fab, .bus, .freeCtr] t ∧
        parState t = 2 ∧
        t.rf Reg.parTakeovers 15 0 = min (s.rf Reg.parTakeovers 15 0 + 1) 65535 ∧
        t.rb Reg.parEvt 4 = true ∧
        t.pair = { s.pair with granted := false, ownGrant := false, partnerHold := false, sbAnswer := false }) ∧
    (∀ (s : State), parEn s = true →
      s.eng.released = true →
      parState s = 2 →
      s.rf Reg.parLease 18 0 = 0 →
      ∃ t, exec .pairStateChange s = .next t ∧ s.sameBut [.regs, .mirror, .logm, .quem, .ecc, .ports, .xcnt, .logNext, .logCompl, .logCount, .logged, .hamper, .pair, .ctl, .fab, .bus, .freeCtr] t ∧
        parState t = 1 ∧
        t.rf Reg.parTakeovers 31 16 = min (s.rf Reg.parTakeovers 31 16 + 1) 65535 ∧
        t.rb Reg.parEvt 5 = true ∧
        t.pair = { s.pair with granted := false, ownGrant := false, partnerHold := false, sbAnswer := false }) ∧
    (∀ (s : State), parEn s = true →
      s.eng.released = true →
      parState s = 3 →
      partnerLost s = true →
      s.pair.knownUs = 0 →
      ∃ t, exec .pairStateChange s = .next t ∧ s.sameBut [.regs, .mirror, .logm, .quem, .ecc, .ports, .xcnt, .logNext, .logCompl, .logCount, .logged, .hamper, .pair, .ctl, .fab, .bus, .freeCtr] t ∧
        parState t = 1 ∧
        t.pair = { s.pair with granted := false, ownGrant := false, partnerHold := false, sbAnswer := false }) ∧
    (∀ (s : State), parEn s = true →
      s.eng.released = true →
      parState s = 4 →
      s.pair.partnerHold = true →
      ∃ t, exec .pairStateChange s = .next t ∧ s.sameBut [.regs, .mirror, .logm, .quem, .ecc, .ports, .xcnt, .logNext, .logCompl, .logCount, .logged, .hamper, .pair, .ctl, .fab, .bus, .freeCtr] t ∧
        parState t = 3 ∧
        t.reg Reg.parGate = 0#32 ∧
        t.pair = { s.pair with granted := false, ownGrant := false, partnerHold := false, sbAnswer := false }) ∧
    (∀ (s : State), parEn s = true →
      s.eng.released = true →
      parState s = 1 →
      s.pair.granted = false →
      s.pair.partnerHold = false →
      (s.pair.ownGrant && decide (member s = 1)) = false →
      partnerLost s = true →
      s.pair.knownUs = 0 →
      s.rb Reg.parStat 6 = false →
      ∃ t, exec .pairStateChange s = .next t ∧ s.sameBut [.regs, .mirror, .logm, .quem, .ecc, .ports, .xcnt, .logNext, .logCompl, .logCount, .logged, .hamper, .pair, .ctl, .fab, .bus, .freeCtr] t ∧
        parState t = 4 ∧
        t.reg Reg.parGate = 1#32 ∧
        t.rb Reg.parEvt 6 = true) ∧
    (∀ (k : Fin 16) (member probe : Bool) (req : BitVec 16) (s : State), s.rb Reg.parCfg 1 = true →
      s.rb (Reg.parSbPair k.val) 16 = true →
      s.pair.releaseNs + 311000000 ≤ s.fabTime →
      probe = false →
      (sbRec s k.val).valid = false →
      ∃ t, exec (.signalBoxRequest k member probe req) s = .next t ∧ s.sameBut [.regs, .mirror, .logm, .quem, .ecc, .ports, .xcnt, .logNext, .logCompl, .logCount, .logged, .hamper, .pair, .ctl, .fab, .bus] t ∧
        sbRec t k.val = { (sbRec s k.val) with valid := true, holder := b2n member, expiry := s.fabTime + 300000000 } ∧
        t.pair.cell = some { kind := 4, dest := pairAddr s k.val (b2n member), req := req.toNat, valid := false, holder := 0, ms := 300 } ∧
        (∀ j, j ≠ k.val → sbRec t j = sbRec s j)) ∧
    (∀ (k : Fin 16) (member probe : Bool) (req : BitVec 16) (s : State), s.rb Reg.parCfg 1 = true →
      s.rb (Reg.parSbPair k.val) 16 = true →
      s.pair.releaseNs + 311000000 ≤ s.fabTime →
      probe = false →
      (sbRec s k.val).valid = true →
      (sbRec s k.val).holder ≠ b2n member →
      s.fabTime < (sbRec s k.val).expiry + 11000000 →
      ∃ t, exec (.signalBoxRequest k member probe req) s = .next t ∧ s.sameBut [.regs, .mirror, .logm, .quem, .ecc, .ports, .xcnt, .logNext, .logCompl, .logCount, .logged, .hamper, .pair, .ctl, .fab, .bus] t ∧
        sbRec t k.val = { (sbRec s k.val) with pend := some (b2n member, req.toNat, s.fabTime) } ∧
        t.pair.cell = some { kind := 5, dest := pairAddr s k.val (b2n member), req := 0, valid := true, holder := (sbRec s k.val).holder, ms := ((sbRec s k.val).expiry + 11000000 - s.fabTime + 999999) / 1000000 }) ∧
    (∀ (k x q u : Nat) (s : State), k < 16 →
      s.rb Reg.parCfg 1 = true →
      (sbRec s k).pend = some (x, q, u) →
      (sbRec s k).expiry + 11000000 ≤ s.fabTime →
      s.fabTime ≤ u + 100000000 →
      ∃ t, exec .signalBoxPendingGrant s = .next t ∧ s.sameBut [.regs, .mirror, .logm, .quem, .ecc, .ports, .xcnt, .logNext, .logCompl, .logCount, .logged, .hamper, .pair, .ctl, .fab, .bus] t ∧
        sbRec t k = { valid := true, holder := x, expiry := s.fabTime + 300000000, pend := none })

/-- RECT of a good rectangle opens it, a bad word is counted; SEGDATA joins the open rectangle; REQUEST_INSTANT of the
last word, which is its arrival (the model's choice, log entry 76), puts it into flight where nothing pending or in
flight stands before it; FRAME_BOUNDARY after the last slot writes the rectangles in flight into the RAM, counts them,
and takes the drive values, the FSEG word and a waiting PANEL word, which is taken first and drops every rectangle
where it changes SEGS (order and waiting: log entry 102); drive values other than the last ones driven begin an idle
interval, also where the panel was not driven in between (log entry 102); LCD_QUERY answers the page of the counts;
LCD_FORCE stores the force state, which SLOT_BOUNDARY gives the panel with the FSEG word and the next slot, pins
beyond COMS and SEGS at high impedance. COMPLETE here (the conclusion is that exec answers a next state t): rectWord,
segdata, requestInstant, frameBoundary, lcdQuery, lcdForce, slotBoundary. -/
def Obligations.DisplayRectangles : Prop :=
    (∀ (w : BitVec 28) (s : State), s.lcd.powered = true →
      s.lcd.opened = none →
      fld (w.setWidth 32) 19 16 = 0 →
      (rectOf (w.setWidth 32)).com0 ≤ (rectOf (w.setWidth 32)).com1 →
      (rectOf (w.setWidth 32)).com1 < pComs (s.pan (rectOf (w.setWidth 32)).panel) →
      (rectOf (w.setWidth 32)).seg0 ≤ (rectOf (w.setWidth 32)).seg1 →
      (rectOf (w.setWidth 32)).seg1 < pSegs (s.pan (rectOf (w.setWidth 32)).panel) →
      pCfgd (s.pan (rectOf (w.setWidth 32)).panel) = true →
      pEn (s.pan (rectOf (w.setWidth 32)).panel) = true →
      ∃ t, exec (.rectWord w) s = .next t ∧ s.sameBut [.regs, .mirror, .logm, .ecc, .logNext, .logCompl, .logCount, .logged, .lcd] t ∧
        t.lcd = { s.lcd with opened := some (rectOf (w.setWidth 32)) }) ∧
    (∀ (w : BitVec 28) (s : State), s.lcd.powered = true →
      s.lcd.opened = none →
      pCfgd (s.pan (rectOf (w.setWidth 32)).panel) = false →
      ∃ t, exec (.rectWord w) s = .next t ∧ s.sameBut [.regs, .mirror, .logm, .ecc, .logNext, .logCompl, .logCount, .logged, .lcd] t ∧
        t.lcd = { s.lcd with bad := s.lcd.bad + 1 } ∧
        t.rb Reg.lcdEvt 2 = true) ∧
    (∀ (w : BitVec 28) (s : State), s.lcd.powered = true →
      fld (w.setWidth 32) 19 16 ≠ 0 →
      ∃ t, exec (.rectWord w) s = .next t ∧ s.sameBut [.regs, .mirror, .logm, .ecc, .logNext, .logCompl, .logCount, .logged, .lcd] t ∧
        t.lcd = { s.lcd with bad := s.lcd.bad + 1 } ∧
        t.rb Reg.lcdEvt 2 = true) ∧
    (∀ (w : Word) (r : Rect) (s : State), s.lcd.powered = true →
      s.lcd.opened = some r →
      r.data.length + 1 < rectN r →
      ∃ t, exec (.segdata w) s = .next t ∧ s.sameBut [.regs, .mirror, .logm, .ecc, .logNext, .logCompl, .logCount, .logged, .lcd] t ∧
        t.lcd = { s.lcd with opened := some { r with data := r.data ++ [w] } }) ∧
    (∀ (w : Word) (s : State), s.lcd.powered = true →
      s.lcd.opened = none →
      ∃ t, exec (.segdata w) s = .next t ∧ s.sameBut [.regs, .mirror, .logm, .ecc, .logNext, .logCompl, .logCount, .logged, .lcd] t ∧
        t.lcd = { s.lcd with bad := s.lcd.bad + 1 }) ∧
    (∀ (w : Word) (r : Rect) (s : State), s.lcd.powered = true →
      s.lcd.opened = some r →
      r.data.length + 1 = rectN r →
      (s.pan r.panel).pend = [] →
      (s.pan r.panel).flight.length < 4 →
      (s.pan r.panel).flight.any (overlaps { r with data := r.data ++ [w] }) = false →
      ∃ t, exec (.requestInstant w) s = .next t ∧ s.sameBut [.regs, .mirror, .logm, .ecc, .logNext, .logCompl, .logCount, .logged, .lcd] t ∧
        t.lcd.opened = none ∧
        t.pan r.panel = { (s.pan r.panel) with flight := (s.pan r.panel).flight ++ [{ r with data := r.data ++ [w] }] } ∧
        (∀ k, k ≠ r.panel → t.pan k = s.pan k)) ∧
    (∀ (p : Fin 4) (s : State), s.lcd.powered = true →
      (s.pan p.val).next = none →
      midFrame (s.pan p.val) = false →
      (s.pan p.val).pend = [] →
      ∃ t, exec (.frameBoundary p) s = .next t ∧ s.sameBut [.regs, .mirror, .logm, .ecc, .logNext, .logCompl, .logCount, .logged, .lcd] t ∧
        (t.pan p.val).ram = (s.pan p.val).flight.foldl (writeRect (s.pan p.val).fseg) (s.pan p.val).ram ∧
        (t.pan p.val).flight = [] ∧
        ((t.pan p.val).drive = (if s.lcd.gen then wanted (s.pan p.val) else none)) ∧
        ((t.pan p.val).on = ((if s.lcd.gen then wanted (s.pan p.val) else none).isSome && !((s.pan p.val).vFault && !(s.pan p.val).vOk))) ∧
        ((t.pan p.val).idle = redrive (s.pan p.val).last (if s.lcd.gen then wanted (s.pan p.val) else none)) ∧
        ((t.pan p.val).last = (if (if s.lcd.gen then wanted (s.pan p.val) else none).isSome then (if s.lcd.gen then wanted (s.pan p.val) else none) else (s.pan p.val).last)) ∧
        (t.pan p.val).slot = 0 ∧
        (t.pan p.val).fsegOn = (s.pan p.val).fseg ∧
        (t.pan p.val).force = s.lcd.force ∧
        t.rf (Reg.lcdPCnt p.val) 7 0 = (s.rf (Reg.lcdPCnt p.val) 7 0 + (s.pan p.val).flight.length) % 256 ∧
        (∀ k, k ≠ p.val → t.pan k = s.pan k)) ∧
    (∀ (p : Fin 4) (s : State), s.lcd.powered = true →
      midFrame (s.pan p.val) = true →
      ∃ t, exec (.frameBoundary p) s = .next t ∧ s.sameBut [.regs, .mirror, .logm, .ecc, .logNext, .logCompl, .logCount, .logged, .lcd] t ∧
        t.lcd = s.lcd) ∧
    (∀ (p : Fin 4) (w : Word) (s : State), s.lcd.powered = true →
      (s.pan p.val).next = some w →
      fld w 27 26 = p.val →
      midFrame (s.pan p.val) = false →
      (s.pan p.val).cfg.isSome = true →
      pSegs (s.pan p.val) ≠ fld w 20 13 →
      ∃ t, exec (.frameBoundary p) s = .next t ∧ s.sameBut [.regs, .mirror, .logm, .ecc, .logNext, .logCompl, .logCount, .logged, .lcd] t ∧
        (t.pan p.val).cfg = some w ∧
        (t.pan p.val).next = none ∧
        (t.pan p.val).ram = [] ∧
        (t.pan p.val).flight = [] ∧
        (t.pan p.val).pend = [] ∧
        (∀ k, k ≠ p.val → t.pan k = s.pan k)) ∧
    (∀ (w : BitVec 28) (s : State), s.lcd.powered = true →
      fld (w.setWidth 32) 23 0 = 0 →
      fld (w.setWidth 32) 25 24 = 1 →
      ∃ t, exec (.lcdQuery w) s = .next t ∧ s.sameBut [.regs, .mirror, .logm, .ecc, .ports, .xcnt, .logNext, .logCompl, .logCount, .logged, .lcd] t ∧
        (t.port 1344).src = w32 (fld (w.setWidth 32) 27 26 * 2 ^ 30 + 2 ^ 28 + s.rf (Reg.lcdPCnt (fld (w.setWidth 32) 27 26)) 23 0) ∧
        (t.port 1344).transit = true ∧
        t.lcd = s.lcd) ∧
    (∀ (w : BitVec 28) (s : State), s.lcd.powered = true →
      w.toNat / 2 = 0 →
      ∃ t, exec (.lcdForce w) s = .next t ∧ s.sameBut [.regs, .mirror, .logm, .ecc, .logNext, .logCompl, .logCount, .logged, .lcd] t ∧
        t.lcd = { s.lcd with force := w.getLsbD 0 }) ∧
    (∀ (p : Fin 4) (s : State), s.lcd.powered = true →
      ∃ t, exec (.slotBoundary p) s = .next t ∧ s.sameBut [.regs, .mirror, .ecc, .lcd] t ∧
        ((t.pan p.val) = { (s.pan p.val) with force := s.lcd.force, fsegOn := (s.pan p.val).fseg, slot := if !(s.pan p.val).idle && midFrame (s.pan p.val) then (s.pan p.val).slot + 1 else (s.pan p.val).slot }) ∧
        (∀ neg k, pComs (s.pan p.val) ≤ k → (s.pan p.val).cfg.isSome = true → comPin t p.val k neg = .highZ) ∧
        (∀ neg g, pSegs (s.pan p.val) ≤ g → (s.pan p.val).cfg.isSome = true → segPin t p.val g neg = .highZ) ∧
        (∀ k, k ≠ p.val → t.pan k = s.pan k))

/-- The first LCD_PANEL_WORD is in force at once, a later one waits for the frame boundary (assumption 102); FSEG, NTC and
BAND words are stored; NTC_READING outside 100 ohm to 2 Mohm is discarded; TEMPERATURE_UPDATE without an NTC takes
TFIX and its band, with one the mean of the readings; NTC_FAULT and VLCD_FAULT set their marks once; VLCD_RESTART and
IDLE_INTERVAL_END let the panel go on at the next frame. COMPLETE here (the conclusion is that exec answers a next
state t): panelWord, fsegWord, ntcWord, bandWord, ntcReading, temperatureUpdate, ntcFault, vlcdFault, vlcdRestart,
idleIntervalEnd. -/
def Obligations.DisplayPanels : Prop :=
    (∀ (w : BitVec 28) (s : State), s.lcd.powered = true →
      fld (w.setWidth 32) 12 10 = 0 →
      (s.pan (fld (w.setWidth 32) 27 26)).cfg.isSome = true →
      ∃ t, exec (.panelWord w) s = .next t ∧ s.sameBut [.regs, .mirror, .logm, .ecc, .logNext, .logCompl, .logCount, .logged, .lcd] t ∧
        t.pan (fld (w.setWidth 32) 27 26) = { (s.pan (fld (w.setWidth 32) 27 26)) with next := some (w.setWidth 32) } ∧
        (∀ k, k ≠ (fld (w.setWidth 32) 27 26) → t.pan k = s.pan k)) ∧
    (∀ (w : BitVec 28) (s : State), s.lcd.powered = true →
      fld (w.setWidth 32) 12 10 = 0 →
      (s.pan (fld (w.setWidth 32) 27 26)).cfg = none →
      ∃ t, exec (.panelWord w) s = .next t ∧ s.sameBut [.regs, .mirror, .logm, .ecc, .logNext, .logCompl, .logCount, .logged, .lcd] t ∧
        t.pan (fld (w.setWidth 32) 27 26) = { (s.pan (fld (w.setWidth 32) 27 26)) with cfg := some (w.setWidth 32), next := none } ∧
        (∀ k, k ≠ (fld (w.setWidth 32) 27 26) → t.pan k = s.pan k)) ∧
    (∀ (w : BitVec 28) (s : State), s.lcd.powered = true →
      fld (w.setWidth 32) 25 11 = 0 →
      ∃ t, exec (.fsegWord w) s = .next t ∧ s.sameBut [.regs, .mirror, .logm, .ecc, .logNext, .logCompl, .logCount, .logged, .lcd] t ∧
        t.pan (fld (w.setWidth 32) 27 26) = { (s.pan (fld (w.setWidth 32) 27 26)) with fseg := some (w.setWidth 32) } ∧
        (∀ k, k ≠ (fld (w.setWidth 32) 27 26) → t.pan k = s.pan k)) ∧
    (∀ (w : BitVec 28) (s : State), s.lcd.powered = true →
      bit (w.setWidth 32) 13 = false →
      ∃ t, exec (.ntcWord w) s = .next t ∧ s.sameBut [.regs, .mirror, .logm, .ecc, .logNext, .logCompl, .logCount, .logged, .lcd] t ∧
        t.pan (fld (w.setWidth 32) 27 26) = { (s.pan (fld (w.setWidth 32) 27 26)) with ntc := some (w.setWidth 32) } ∧
        (∀ k, k ≠ (fld (w.setWidth 32) 27 26) → t.pan k = s.pan k)) ∧
    (∀ (w : BitVec 28) (s : State), s.lcd.powered = true →
      fld (w.setWidth 32) 11 8 = 0 →
      ∃ t, exec (.bandWord w) s = .next t ∧ s.sameBut [.regs, .mirror, .logm, .ecc, .logNext, .logCompl, .logCount, .logged, .lcd] t ∧
        bandTlo (t.pan (fld (w.setWidth 32) 27 26)) (fld (w.setWidth 32) 25 23) = sxt 8 (fld (w.setWidth 32) 7 0) ∧
        bandV (t.pan (fld (w.setWidth 32) 27 26)) (fld (w.setWidth 32) 25 23) = fld (w.setWidth 32) 22 12 ∧
        (t.pan (fld (w.setWidth 32) 27 26)).ntc = (s.pan (fld (w.setWidth 32) 27 26)).ntc ∧
        (∀ k, k ≠ (fld (w.setWidth 32) 27 26) → t.pan k = s.pan k)) ∧
    (∀ (p : Fin 4) (ohms : BitVec 32) (s : State), s.lcd.powered = true →
      100 ≤ ohms.toNat →
      ohms.toNat ≤ 2000000 →
      ∃ t, exec (.ntcReading p ohms) s = .next t ∧ s.sameBut [.regs, .mirror, .ecc, .lcd] t ∧
        (t.pan p.val) = { (s.pan p.val) with reads := (ohms.toNat :: (s.pan p.val).reads).take 8, run := min ((s.pan p.val).run + 1) 8, ntcFault := (s.pan p.val).ntcFault && decide ((s.pan p.val).run + 1 < 8) } ∧
        (∀ k, k ≠ p.val → t.pan k = s.pan k)) ∧
    (∀ (p : Fin 4) (ohms : BitVec 32) (s : State), s.lcd.powered = true →
      (ohms.toNat < 100 ∨ 2000000 < ohms.toNat) →
      ∃ t, exec (.ntcReading p ohms) s = .next t ∧ s.sameBut [.regs, .mirror, .ecc, .lcd] t ∧
        (t.pan p.val) = { (s.pan p.val) with run := 0 } ∧
        (∀ k, k ≠ p.val → t.pan k = s.pan k)) ∧
    (∀ (p : Fin 4) (s : State), s.lcd.powered = true →
      (s.pan p.val).ntc.isSome = true →
      pNtcEn (s.pan p.val) = false →
      pCfgd (s.pan p.val) = true →
      (s.pan p.val).chosen = false →
      ∃ t, exec (.temperatureUpdate p) s = .next t ∧ s.sameBut [.regs, .mirror, .logm, .ecc, .logNext, .logCompl, .logCount, .logged, .lcd] t ∧
        (t.pan p.val) = { (s.pan p.val) with temp := some (10 * pTfix (s.pan p.val)), band := bandOf (s.pan p.val) (10 * pTfix (s.pan p.val)), chosen := true } ∧
        (∀ k, k ≠ p.val → t.pan k = s.pan k)) ∧
    (∀ (p : Fin 4) (s : State), s.lcd.powered = true →
      (s.pan p.val).ntc.isSome = true →
      pNtcEn (s.pan p.val) = true →
      (s.pan p.val).ntcFault = false →
      (s.pan p.val).reads ≠ [] →
      ∃ t, exec (.temperatureUpdate p) s = .next t ∧ s.sameBut [.regs, .mirror, .logm, .ecc, .logNext, .logCompl, .logCount, .logged, .lcd] t ∧
        (t.pan p.val).temp = some (ntcMean (pBeta (s.pan p.val)) (s.pan p.val).reads) ∧
        (∀ k, k ≠ p.val → t.pan k = s.pan k)) ∧
    (∀ (p : Fin 4) (s : State), s.lcd.powered = true →
      (s.pan p.val).ntcFault = false →
      ∃ t, exec (.ntcFault p) s = .next t ∧ s.sameBut [.regs, .mirror, .logm, .ecc, .logNext, .logCompl, .logCount, .logged, .lcd] t ∧
        (t.pan p.val).ntcFault = true ∧
        (t.pan p.val).run = 0 ∧
        t.rb Reg.lcdEvt 3 = true ∧
        (∀ k, k ≠ p.val → t.pan k = s.pan k)) ∧
    (∀ (p : Fin 4) (s : State), s.lcd.powered = true →
      (s.pan p.val).on = true →
      ∃ t, exec (.vlcdFault p) s = .next t ∧ s.sameBut [.regs, .mirror, .logm, .ecc, .logNext, .logCompl, .logCount, .logged, .lcd] t ∧
        (t.pan p.val) = { (s.pan p.val) with vFault := true, vOk := false, on := false } ∧
        t.rb Reg.lcdEvt 4 = true ∧
        (∀ k, k ≠ p.val → t.pan k = s.pan k)) ∧
    (∀ (p : Fin 4) (ok : Bool) (s : State), s.lcd.powered = true →
      (s.pan p.val).vFault = true →
      ∃ t, exec (.vlcdRestart p ok) s = .next t ∧ s.sameBut [.regs, .mirror, .ecc, .lcd] t ∧
        (t.pan p.val) = { (s.pan p.val) with vOk := ok } ∧
        (∀ k, k ≠ p.val → t.pan k = s.pan k)) ∧
    (∀ (p : Fin 4) (s : State), s.lcd.powered = true →
      ∃ t, exec (.idleIntervalEnd p) s = .next t ∧ s.sameBut [.regs, .mirror, .ecc, .lcd] t ∧
        (t.pan p.val) = { (s.pan p.val) with idle := false } ∧
        (∀ k, k ≠ p.val → t.pan k = s.pan k))

/-- RTC_TICK without a command in line adds 1 to the count modulo 2^48 and fires an armed alarm whose value is reached;
each BCMD word whose reserved bits are 0 has the effect of its KIND, BARG moves the arguments on; RETENTION_TRIP sets
the latch, RETENTION_RESET clears the count, trim, slew and the alarms' values and arming, BACKUP_SWITCHOVER changes
the source, ELEMENT_LOW sets its event. Only a tick writes the three words of the time to the core (R373). The model's
choices: a slew ends at the tick that applies SET or STEP, and alarm values count modulo 2^48 (log entry 77); alarms
keep PERIOD and REPEAT at a retention reset (log entry 99). COMPLETE here (the conclusion is that exec answers a next
state t): rtcTick, bcmdSet, bcmdStep, bcmdSlew, bcmdSlewStop, bcmdTrim, bcmdAlmper, bcmdAlarm, bcmdAck, bcmdByte,
bcmdRead, bcmdChg, bargWord, retentionTrip, retentionReset, backupSwitchover, elementLow, clockDiscipline,
alarmReport. -/
def Obligations.BackupIsland : Prop :=
    (∀ (s : State), s.rtc.due = [] →
      ∃ t, exec .rtcTick s = .next t ∧ s.sameBut [.regs, .mirror, .logm, .ecc, .ports, .xcnt, .logNext, .logCompl, .logCount, .logged, .opUs, .fabTime, .rtc] t ∧
        t.rtc.count = (s.rtc.count + 1) % 2 ^ 48 ∧
        (∀ n, n < 8 → (s.alm n).due = none → (s.alm n).armed = true → (s.alm n).rep = false → (s.alm n).value ≤ (s.rtc.count + 1) % 2 ^ 48 → (t.alm n).fired = true ∧ (t.alm n).armed = false) ∧
        (∀ n, n < 8 → (s.alm n).due = none → (s.alm n).armed = false → t.alm n = s.alm n) ∧
        t.rtc.bytes = s.rtc.bytes ∧
        (t.port 1536).src = w32 t.rtc.count ∧
        (t.port 1536).transit = true ∧
        (t.port 1538).transit = true) ∧
    (∀ (v : Int) (r : List (Bool × Int)) (s : State), s.rtc.due = (true, v) :: r →
      ∃ t, exec .rtcTick s = .next t ∧ s.sameBut [.regs, .mirror, .logm, .ecc, .ports, .xcnt, .logNext, .logCompl, .logCount, .logged, .opUs, .fabTime, .rtc] t ∧
        t.rtc.count = (v % (2 ^ 48 : Nat)).toNat ∧
        t.rtc.due = r ∧
        t.rtc.slew = none ∧
        t.rtc.latch = false) ∧
    (∀ (d : Int) (r : List (Bool × Int)) (s : State), s.rtc.due = (false, d) :: r →
      ∃ t, exec .rtcTick s = .next t ∧ s.sameBut [.regs, .mirror, .logm, .ecc, .ports, .xcnt, .logNext, .logCompl, .logCount, .logged, .opUs, .fabTime, .rtc] t ∧
        t.rtc.count = (((s.rtc.count : Int) + 1 + d) % (2 ^ 48 : Nat)).toNat ∧
        t.rtc.due = r ∧
        t.rtc.slew = none ∧
        t.rtc.latch = s.rtc.latch) ∧
    (∀ (w : BitVec 28) (s : State), (w.setWidth 32) &&& w32 0xFFFFFFF = 0#32 →
      ∃ t, exec (.bcmdSet w) s = .next t ∧ s.sameBut [.regs, .mirror, .ecc, .rtc] t ∧
        t.rtc = { s.rtc with due := s.rtc.due ++ [(true, ((fld s.rtc.a1 15 0 * 2 ^ 32 + s.rtc.a0.toNat : Nat) : Int))] }) ∧
    (∀ (w : BitVec 28) (s : State), (w.setWidth 32) &&& w32 0xFFFFFFF = 0#32 →
      ∃ t, exec (.bcmdStep w) s = .next t ∧ s.sameBut [.regs, .mirror, .ecc, .rtc] t ∧
        t.rtc = { s.rtc with due := s.rtc.due ++ [(false, s.rtc.a1.toInt)] }) ∧
    (∀ (w : BitVec 28) (s : State), (w.setWidth 32) &&& w32 0xFFE0000 = 0#32 →
      fld s.rtc.a1 23 0 ≠ 0 →
      ∃ t, exec (.bcmdSlew w) s = .next t ∧ s.sameBut [.regs, .mirror, .ecc, .rtc] t ∧
        t.rtc = { s.rtc with slew := some { period := w.toNat % 65536, faster := w.getLsbD 16, left := fld s.rtc.a1 23 0, ticks := 0 } }) ∧
    (∀ (w : BitVec 28) (s : State), (w.setWidth 32) &&& w32 0xFFFFFFF = 0#32 →
      ∃ t, exec (.bcmdSlewStop w) s = .next t ∧ s.sameBut [.regs, .mirror, .ecc, .rtc] t ∧
        t.rtc = { s.rtc with slew := none }) ∧
    (∀ (w : BitVec 28) (s : State), (w.setWidth 32) &&& w32 0xFFC0000 = 0#32 →
      ∃ t, exec (.bcmdTrim w) s = .next t ∧ s.sameBut [.regs, .mirror, .ecc, .rtc] t ∧
        t.rtc = { s.rtc with trim := (w.setWidth 32), trimTicks := 0 }) ∧
    (∀ (w : BitVec 28) (s : State), (w.setWidth 32) &&& w32 0xFFFFFF8 = 0#32 →
      ∃ t, exec (.bcmdAlmper w) s = .next t ∧ s.sameBut [.regs, .mirror, .ecc, .rtc] t ∧
        t.alm (w.toNat % 8) = { (s.alm (w.toNat % 8)) with per := s.rtc.a1.toNat } ∧
        (∀ k, k ≠ w.toNat % 8 → t.alm k = s.alm k)) ∧
    (∀ (w : BitVec 28) (s : State), (w.setWidth 32) &&& w32 0xFFFFFE0 = 0#32 →
      ∃ t, exec (.bcmdAlarm w) s = .next t ∧ s.sameBut [.regs, .mirror, .ecc, .rtc] t ∧
        t.alm (w.toNat % 8) = { (s.alm (w.toNat % 8)) with due := some (fld s.rtc.a1 15 0 * 2 ^ 32 + s.rtc.a0.toNat, (s.alm (w.toNat % 8)).per, w.getLsbD 3, w.getLsbD 4) } ∧
        (∀ k, k ≠ w.toNat % 8 → t.alm k = s.alm k)) ∧
    (∀ (w : BitVec 28) (s : State), (w.setWidth 32) &&& w32 0xFFF0000 = 0#32 →
      ∃ t, exec (.bcmdAck w) s = .next t ∧ s.sameBut [.regs, .mirror, .ecc, .rtc] t ∧
        (∀ n, n < 8 → (t.alm n).fired = ((s.alm n).fired && !(w.toNat % 256).testBit n)) ∧
        (∀ n, n < 8 → (t.alm n).stepped = ((s.alm n).stepped && !(w.toNat / 256 % 256).testBit n)) ∧
        (∀ n, n < 8 → (t.alm n).missed = (if (w.toNat % 256).testBit n then 0 else (s.alm n).missed))) ∧
    (∀ (w : BitVec 28) (s : State), (w.setWidth 32) &&& w32 0xFFF00C0 = 0#32 →
      ∃ t, exec (.bcmdByte w) s = .next t ∧ s.sameBut [.regs, .mirror, .ecc, .rtc] t ∧
        sget 0#8 t.rtc.bytes (w.toNat % 64) = BitVec.ofNat 8 (w.toNat / 256) ∧
        (∀ k, k ≠ w.toNat % 64 → sget 0#8 t.rtc.bytes k = sget 0#8 s.rtc.bytes k)) ∧
    (∀ (w : BitVec 28) (s : State), (w.setWidth 32) &&& w32 0xFFFFFC0 = 0#32 →
      ∃ t, exec (.bcmdRead w) s = .next t ∧ s.sameBut [.regs, .mirror, .ecc, .rtc] t ∧
        t.rtc = { s.rtc with readIdx := w.toNat % 64 } ∧
        (∀ p, t.port p = s.port p)) ∧
    (∀ (w : BitVec 28) (s : State), (w.setWidth 32) &&& w32 0xFFFFFE0 = 0#32 →
      ∃ t, exec (.bcmdChg w) s = .next t ∧ s.sameBut [.regs, .mirror, .ecc, .rtc] t ∧
        t.rtc = { s.rtc with chg := (w.setWidth 32), charging := bit (w.setWidth 32) 0 && !s.rtc.element }) ∧
    (∀ (w : BitVec 28) (s : State), (w.setWidth 32) &&& w32 0xFFE0000 ≠ 0#32 →
      ∃ t, exec (.bcmdSlew w) s = .next t ∧ s.sameBut [.regs, .mirror, .ecc, .rtc] t ∧
        t = s) ∧
    (∀ (w : Word) (s : State), ∃ t, exec (.bargWord w) s = .next t ∧ s.sameBut [.rtc] t ∧
        t.rtc = { s.rtc with a0 := s.rtc.a1, a1 := w }) ∧
    (∀ (s : State), ∃ t, exec .retentionTrip s = .next t ∧ s.sameBut [.regs, .mirror, .ecc, .rtc] t ∧
        t.rtc = { s.rtc with latch := true }) ∧
    (∀ (s : State), ∃ t, exec .retentionReset s = .next t ∧ s.sameBut [.regs, .mirror, .ecc, .rtc] t ∧
        t.rtc.count = 0 ∧
        (∀ n, n < 8 → t.alm n = almReset (s.alm n)) ∧
        t.rtc.trim = 0#32 ∧
        t.rtc.slew = none ∧
        t.rtc.chg = 0#32 ∧
        t.rtc.charging = false ∧
        t.rtc.latch = true ∧
        bytesValid t = false) ∧
    (∀ (toElement : Bool) (mv : BitVec 12) (s : State), ∃ t, exec (.backupSwitchover toElement mv) s = .next t ∧ s.sameBut [.regs, .mirror, .ecc, .rtc] t ∧
        t.rtc = { s.rtc with element := toElement, mv := mv.toNat, charging := bit s.rtc.chg 0 && !toElement }) ∧
    (∀ (mv : BitVec 12) (s : State), ∃ t, exec (.elementLow mv) s = .next t ∧ s.sameBut [.regs, .mirror, .logm, .ecc, .logNext, .logCompl, .logCount, .logged, .rtc] t ∧
        t.rtc = { s.rtc with mv := mv.toNat } ∧
        t.rb Reg.rtcEvt 5 = true) ∧
    (∀ (s : State), s.eng.released = true →
      tickRoot s = false →
      s.rb Reg.rtcDisc 0 = true →
      s.rb Reg.fabTimeStat 0 = true →
      s.rtc.latch = true →
      ∃ t, exec .clockDiscipline s = .next t ∧ s.sameBut [.regs, .mirror, .logm, .ecc, .logNext, .logCompl, .logCount, .logged, .fabTime, .fab, .rtc, .freeCtr] t ∧
        t.rtc.due = s.rtc.due ++ [(true, ((tickOf s.fabTime % 2 ^ 48 : Nat) : Int))] ∧
        t.rtc.count = s.rtc.count ∧
        t.fabTime = s.fabTime) ∧
    (∀ (s : State), s.eng.released = true →
      tickRoot s = false →
      s.rb Reg.rtcDisc 0 = false →
      ∃ t, exec .clockDiscipline s = .next t ∧ s.sameBut [.regs, .mirror, .logm, .ecc, .logNext, .logCompl, .logCount, .logged, .fabTime, .fab, .rtc, .freeCtr] t ∧
        t.rtc = s.rtc ∧
        t.fabTime = s.fabTime) ∧
    (∀ (n : Nat) (s : State), n < 8 →
      s.eng.released = true →
      (s.alm n).fired = true →
      ∃ t, exec .alarmReport s = .next t ∧ s.sameBut [.regs, .mirror, .logm, .ecc, .logNext, .logCompl, .logCount, .logged, .rtc] t ∧
        (t.alm n).fired = false ∧
        (t.alm n).missed = 0 ∧
        (t.alm n).stepped = false ∧
        t.rf (Reg.rtcAlmStat n) 31 16 = (s.rf (Reg.rtcAlmStat n) 31 16 + 1) % 65536 ∧
        t.rb Reg.rtcEvt 0 = true)

/-- With BUSY 0, SHAKE of 32 or 64 bytes answers the digest, VERIFY with the key that is there the verdict of the
signature check, SIGNGEN code 1 for any header that is not one of the running image, PUBKEY the key, ATTEST and
CHALLENGE their report and tag: the SRESULT word holds OP, TAG and the result code, SSTAT the state after one more
operation, and output words that SOUT has no room for wait in the island (the waiting is the model's choice, log entry
30). An SCMD word that reaches the island with no operation in progress begins the one it names with the last SPARAM
word, and SSTAT shows BUSY; the operation takes its words from SIN and ends at the minor boundaries (log entry 122).
COMPLETE here (the conclusion is that exec answers a next state t): islandShake, islandVerify, crossingWordArrival,
signgen, pubkey, islandAttest, islandChallenge. -/
def Obligations.SecurityIslandOperations : Prop :=
    (∀ (busy : Bool) (tag : BitVec 8) (n : BitVec 16) (msg : List Byte) (s : State), busy = false →
      s.sec.job = none →
      (n.toNat = 32 ∨ n.toNat = 64) →
      s.boot.prog = false →
      ∃ t, exec (.islandShake busy tag n msg) s = .next t ∧ s.sameBut [.regs, .mirror, .logm, .quem, .ecc, .ports, .xcnt, .logNext, .logCompl, .logCount, .logged, .sec, .bus] t ∧
        (t.port 1409).src = w32 (1 * 2 ^ 24 + tag.toNat * 2 ^ 16 + 0) ∧
        (t.port 1409).transit = true ∧
        (t.port 1408).src = sstatWord t ∧
        t.sec.ops = s.sec.ops + 1 ∧
        t.sec.sout = (s.sec.sout ++ bytesWords (padTo (((shake256 msg n.toNat).length + 3) / 4 * 4) (shake256 msg n.toNat))).drop (islandRoom s 22 3) ∧
        t.sec.srec = s.sec.srec ∧
        t.feram = s.feram) ∧
    (∀ (busy : Bool) (tag : BitVec 8) (n : BitVec 16) (msg : List Byte) (s : State), busy = false →
      s.sec.job = none →
      n.toNat ≠ 32 →
      n.toNat ≠ 64 →
      s.boot.prog = false →
      ∃ t, exec (.islandShake busy tag n msg) s = .next t ∧ s.sameBut [.regs, .mirror, .logm, .quem, .ecc, .ports, .xcnt, .logNext, .logCompl, .logCount, .logged, .sec, .bus] t ∧
        (t.port 1409).src = w32 (1 * 2 ^ 24 + tag.toNat * 2 ^ 16 + 1) ∧
        (t.port 1408).src = sstatWord t ∧
        t.sec.ops = s.sec.ops + 1 ∧
        t.sec.sout = s.sec.sout.drop (islandRoom s 22 3)) ∧
    (∀ (busy : Bool) (tag : BitVec 8) (k : BitVec 16) (msg sig key : List Byte) (s : State), busy = false →
      s.sec.job = none →
      k.toNat ≤ 5 →
      1 ≤ sig.length →
      sig.length ≤ 1534 →
      verifyKey s k.toNat = some key →
      s.boot.prog = false →
      ∃ t, exec (.islandVerify busy tag k msg sig) s = .next t ∧ s.sameBut [.regs, .mirror, .logm, .quem, .ecc, .ports, .xcnt, .logNext, .logCompl, .logCount, .logged, .sec, .bus] t ∧
        ((t.port 1409).src = w32 (2 * 2 ^ 24 + tag.toNat * 2 ^ 16 + (if falconOk key msg sig then 0 else 5))) ∧
        (t.port 1409).transit = true ∧
        (t.port 1408).src = sstatWord t ∧
        t.sec.ops = s.sec.ops + 1 ∧
        t.sec.sout = s.sec.sout.drop (islandRoom s 22 3)) ∧
    (∀ (busy : Bool) (tag : BitVec 8) (k : BitVec 16) (msg sig : List Byte) (s : State), busy = false →
      s.sec.job = none →
      (5 < k.toNat ∨ sig.length = 0 ∨ 1534 < sig.length) →
      s.boot.prog = false →
      ∃ t, exec (.islandVerify busy tag k msg sig) s = .next t ∧ s.sameBut [.regs, .mirror, .logm, .quem, .ecc, .ports, .xcnt, .logNext, .logCompl, .logCount, .logged, .sec, .bus] t ∧
        (t.port 1409).src = w32 (2 * 2 ^ 24 + tag.toNat * 2 ^ 16 + 1) ∧
        (t.port 1408).src = sstatWord t ∧
        t.sec.ops = s.sec.ops + 1 ∧
        t.sec.sout = s.sec.sout.drop (islandRoom s 22 3)) ∧
    (∀ (busy : Bool) (tag : BitVec 8) (k : BitVec 16) (msg sig : List Byte) (s : State), busy = false →
      s.sec.job = none →
      k.toNat ≤ 5 →
      1 ≤ sig.length →
      sig.length ≤ 1534 →
      verifyKey s k.toNat = none →
      s.boot.prog = false →
      ∃ t, exec (.islandVerify busy tag k msg sig) s = .next t ∧ s.sameBut [.regs, .mirror, .logm, .quem, .ecc, .ports, .xcnt, .logNext, .logCompl, .logCount, .logged, .sec, .bus] t ∧
        ((t.port 1409).src = w32 (2 * 2 ^ 24 + tag.toNat * 2 ^ 16 + (if s.sec.retired then 13 else 4))) ∧
        (t.port 1408).src = sstatWord t ∧
        t.sec.ops = s.sec.ops + 1 ∧
        t.sec.sout = s.sec.sout.drop (islandRoom s 22 3)) ∧
    (∀ (port : BitVec 11) (w : Word) (s : State), (Instr.crossingWordArrival port w).wf = true →
      port = 1440#11 →
      (s.port 1440).transit = true →
      s.sec.job = none →
      ∃ t, exec (.crossingWordArrival port w) s = .next t ∧ s.sameBut [.regs, .mirror, .logm, .quem, .ecc, .qrd, .ports, .xcnt, .logNext, .logCompl, .logCount, .logged, .di, .dout, .ao, .stime, .mtr, .sec, .bus, .lcd, .rtc] t ∧
        t.sec = { s.sec with job := some { op := fld (s.port 1440).src 31 24, tag := fld (s.port 1440).src 23 16, arg := fld (s.port 1440).src 15 0, param := s.sec.sparam.toNat, got := [] }, sparam := 0#32 } ∧
        (t.port 1408).src = sstatWord t ∧
        (t.port 1408).transit = true ∧
        bit (sstatWord t) 0 = true) ∧
    (∀ (port : BitVec 11) (w : Word) (s : State), (Instr.crossingWordArrival port w).wf = true →
      port = 1441#11 →
      (s.port 1441).transit = true →
      ∃ t, exec (.crossingWordArrival port w) s = .next t ∧ s.sameBut [.regs, .mirror, .logm, .quem, .ecc, .qrd, .ports, .xcnt, .logNext, .logCompl, .logCount, .logged, .di, .dout, .ao, .stime, .mtr, .sec, .bus, .lcd, .rtc] t ∧
        t.sec = { s.sec with sparam := (s.port 1441).src }) ∧
    (∀ (busy : Bool) (tag : BitVec 8) (h : List Byte) (s : State), busy = false →
      s.sec.job = none →
      s.sec.retired = false →
      h.length = 1536 →
      h.take 4 = asciiBytes "KVCG" →
      gSigner h = 1 →
      s.image.loaded = true →
      gFor h = s.image.seq →
      s.boot.prog = false →
      ∃ t, exec (.signgen busy tag h) s = .next t ∧ s.sameBut [.regs, .mirror, .logm, .quem, .ecc, .ports, .xcnt, .logNext, .logCompl, .logCount, .logged, .sec, .bus, .freeCtr] t ∧
        (t.port 1409).src = w32 (3 * 2 ^ 24 + tag.toNat * 2 ^ 16 + 0) ∧
        (t.port 1409).transit = true ∧
        (t.port 1408).src = sstatWord t ∧
        t.sec.ops = s.sec.ops + 1 ∧
        t.sec.sout = (s.sec.sout ++ bytesWords (padTo (((leBytes 4 (signIdentity h s).1.length ++ (signIdentity h s).1).length + 3) / 4 * 4) (leBytes 4 (signIdentity h s).1.length ++ (signIdentity h s).1))).drop (islandRoom s 22 3) ∧
        t.sec.srec = s.sec.srec) ∧
    (∀ (busy : Bool) (tag : BitVec 8) (h : List Byte) (s : State), busy = false →
      s.sec.job = none →
      s.sec.retired = false →
      (gSigner h ≠ 1 ∨ gFor h ≠ s.image.seq ∨ h.take 4 ≠ asciiBytes "KVCG" ∨ h.length ≠ 1536 ∨ s.image.loaded = false) →
      s.boot.prog = false →
      ∃ t, exec (.signgen busy tag h) s = .next t ∧ s.sameBut [.regs, .mirror, .logm, .quem, .ecc, .ports, .xcnt, .logNext, .logCompl, .logCount, .logged, .sec, .bus, .freeCtr] t ∧
        (t.port 1409).src = w32 (3 * 2 ^ 24 + tag.toNat * 2 ^ 16 + 1) ∧
        (t.port 1408).src = sstatWord t ∧
        t.sec.ops = s.sec.ops + 1 ∧
        t.sec.sout = s.sec.sout.drop (islandRoom s 22 3) ∧
        t.freeCtr = s.freeCtr) ∧
    (∀ (busy : Bool) (tag : BitVec 8) (k : BitVec 16) (key : List Byte) (s : State), busy = false →
      s.sec.job = none →
      pubKey s k.toNat = some key →
      s.boot.prog = false →
      ∃ t, exec (.pubkey busy tag k) s = .next t ∧ s.sameBut [.regs, .mirror, .logm, .quem, .ecc, .ports, .xcnt, .logNext, .logCompl, .logCount, .logged, .sec, .bus] t ∧
        (t.port 1409).src = w32 (8 * 2 ^ 24 + tag.toNat * 2 ^ 16 + 0) ∧
        (t.port 1409).transit = true ∧
        (t.port 1408).src = sstatWord t ∧
        t.sec.ops = s.sec.ops + 1 ∧
        t.sec.sout = (s.sec.sout ++ bytesWords (padTo (((leBytes 4 key.length ++ key).length + 3) / 4 * 4) (leBytes 4 key.length ++ key))).drop (islandRoom s 22 3)) ∧
    (∀ (busy : Bool) (tag : BitVec 8) (k : BitVec 16) (s : State), busy = false →
      s.sec.job = none →
      pubKey s k.toNat = none →
      s.boot.prog = false →
      ∃ t, exec (.pubkey busy tag k) s = .next t ∧ s.sameBut [.regs, .mirror, .logm, .quem, .ecc, .ports, .xcnt, .logNext, .logCompl, .logCount, .logged, .sec, .bus] t ∧
        (t.port 1409).src = w32 (8 * 2 ^ 24 + tag.toNat * 2 ^ 16 + (noKeyCode s k.toNat)) ∧
        (t.port 1408).src = sstatWord t ∧
        t.sec.ops = s.sec.ops + 1 ∧
        t.sec.sout = s.sec.sout.drop (islandRoom s 22 3)) ∧
    (∀ (busy : Bool) (tag : BitVec 8) (ws : List Word) (s : State), (Instr.islandAttest busy tag ws).wf = true →
      busy = false →
      s.sec.job = none →
      s.sec.retired = false →
      s.boot.prog = false →
      ∃ t, exec (.islandAttest busy tag ws) s = .next t ∧ s.sameBut [.regs, .mirror, .logm, .quem, .ecc, .ports, .xcnt, .logNext, .logCompl, .logCount, .logged, .sec, .bus, .freeCtr] t ∧
        (t.port 1409).src = w32 (9 * 2 ^ 24 + tag.toNat * 2 ^ 16 + 0) ∧
        (t.port 1409).transit = true ∧
        (t.port 1408).src = sstatWord t ∧
        t.sec.ops = s.sec.ops + 1 ∧
        t.sec.srec = s.sec.srec) ∧
    (∀ (busy : Bool) (tag : BitVec 8) (ws : List Word) (s : State), (Instr.islandAttest busy tag ws).wf = true →
      busy = false →
      s.sec.job = none →
      s.sec.retired = true →
      s.boot.prog = false →
      ∃ t, exec (.islandAttest busy tag ws) s = .next t ∧ s.sameBut [.regs, .mirror, .logm, .quem, .ecc, .ports, .xcnt, .logNext, .logCompl, .logCount, .logged, .sec, .bus, .freeCtr] t ∧
        (t.port 1409).src = w32 (9 * 2 ^ 24 + tag.toNat * 2 ^ 16 + 13) ∧
        (t.port 1408).src = sstatWord t ∧
        t.sec.ops = s.sec.ops + 1 ∧
        t.sec.sout = s.sec.sout.drop (islandRoom s 22 3)) ∧
    (∀ (busy : Bool) (tag : BitVec 8) (ws : List Word) (s : State), (Instr.islandChallenge busy tag ws).wf = true →
      busy = false →
      s.sec.job = none →
      s.sec.retired = true →
      s.boot.prog = false →
      ∃ t, exec (.islandChallenge busy tag ws) s = .next t ∧ s.sameBut [.regs, .mirror, .logm, .quem, .ecc, .ports, .xcnt, .logNext, .logCompl, .logCount, .logged, .sec, .bus] t ∧
        (t.port 1409).src = w32 (10 * 2 ^ 24 + tag.toNat * 2 ^ 16 + 13) ∧
        (t.port 1408).src = sstatWord t ∧
        t.sec.ops = s.sec.ops + 1 ∧
        t.sec.sout = s.sec.sout.drop (islandRoom s 22 3)) ∧
    (∀ (busy : Bool) (tag : BitVec 8) (ws : List Word) (e : Nat) (k : List Byte) (s : State), (Instr.islandChallenge busy tag ws).wf = true →
      busy = false →
      s.sec.job = none →
      s.sec.retired = false →
      s.sec.kOwner = some (e, k) →
      s.boot.prog = false →
      ∃ t, exec (.islandChallenge busy tag ws) s = .next t ∧ s.sameBut [.regs, .mirror, .logm, .quem, .ecc, .ports, .xcnt, .logNext, .logCompl, .logCount, .logged, .sec, .bus] t ∧
        (t.port 1409).src = w32 (10 * 2 ^ 24 + tag.toNat * 2 ^ 16 + 0) ∧
        (t.port 1409).transit = true ∧
        (t.port 1408).src = sstatWord t ∧
        t.sec.ops = s.sec.ops + 1 ∧
        t.sec.sout = (s.sec.sout ++ bytesWords (padTo (((kmac256 (kChal k e) (padTo 32 (wordBytes ws) ++ deviceId ++ leBytes 8 s.sec.srec.counter) 32 "KV1620 challenge").length + 3) / 4 * 4) (kmac256 (kChal k e) (padTo 32 (wordBytes ws) ++ deviceId ++ leBytes 8 s.sec.srec.counter) 32 "KV1620 challenge"))).drop (islandRoom s 22 3))

/-- For each of SHAKE, VERIFY, SIGNGEN, MESSAGE, RECORD_DONE, LOADREC, PUBKEY, ISLAND_ATTEST, ISLAND_CHALLENGE and
UPDATE_REC with BUSY 1, the command's own or that of an operation in progress, and for an SCMD word that arrives
during one: the SRESULT port carries OP, TAG and code 0x0E, and the island, the store and FeRAM are as before. -/
def Obligations.SecurityIslandBusy : Prop :=
    (∀ (busy : Bool) (tag : BitVec 8) (n : BitVec 16) (msg : List Byte) (s : State), (busy = true ∨ s.sec.job.isSome = true) →
      s.boot.prog = false →
      ∃ t, exec (.islandShake busy tag n msg) s = .next t ∧ s.sameBut [.regs, .mirror, .logm, .quem, .ecc, .ports, .xcnt, .logNext, .logCompl, .logCount, .logged, .sec, .bus] t ∧
        (t.port 1409).src = w32 (1 * 2 ^ 24 + tag.toNat * 2 ^ 16 + 14) ∧
        (t.port 1409).transit = true ∧
        t.sec = s.sec ∧
        t.regs = s.regs) ∧
    (∀ (busy : Bool) (tag : BitVec 8) (k : BitVec 16) (msg sig : List Byte) (s : State), (busy = true ∨ s.sec.job.isSome = true) →
      s.boot.prog = false →
      ∃ t, exec (.islandVerify busy tag k msg sig) s = .next t ∧ s.sameBut [.regs, .mirror, .logm, .quem, .ecc, .ports, .xcnt, .logNext, .logCompl, .logCount, .logged, .sec, .bus] t ∧
        (t.port 1409).src = w32 (2 * 2 ^ 24 + tag.toNat * 2 ^ 16 + 14) ∧
        (t.port 1409).transit = true ∧
        t.sec = s.sec ∧
        t.regs = s.regs) ∧
    (∀ (busy : Bool) (tag : BitVec 8) (h : List Byte) (s : State), (busy = true ∨ s.sec.job.isSome = true) →
      s.boot.prog = false →
      ∃ t, exec (.signgen busy tag h) s = .next t ∧ s.sameBut [.regs, .mirror, .logm, .quem, .ecc, .ports, .xcnt, .logNext, .logCompl, .logCount, .logged, .sec, .bus, .freeCtr] t ∧
        (t.port 1409).src = w32 (3 * 2 ^ 24 + tag.toNat * 2 ^ 16 + 14) ∧
        (t.port 1409).transit = true ∧
        t.sec = s.sec ∧
        t.regs = s.regs) ∧
    (∀ (busy : Bool) (tag : BitVec 8) (m : List Byte) (s : State), (busy = true ∨ s.sec.job.isSome = true) →
      s.boot.prog = false →
      ∃ t, exec (.islandMessage busy tag m) s = .next t ∧ s.sameBut [.regs, .mirror, .logm, .quem, .ecc, .ports, .xcnt, .logNext, .logCompl, .logCount, .logged, .sec, .bus, .freeCtr] t ∧
        (t.port 1409).src = w32 (5 * 2 ^ 24 + tag.toNat * 2 ^ 16 + 14) ∧
        (t.port 1409).transit = true ∧
        t.sec = s.sec ∧
        t.regs = s.regs) ∧
    (∀ (busy : Bool) (tag : BitVec 8) (copy : Fin 2) (failed : Bool) (s : State), (busy = true ∨ s.sec.job.isSome = true) →
      s.boot.prog = false →
      ∃ t, exec (.recordDone busy tag copy failed) s = .next t ∧ s.sameBut [.regs, .mirror, .logm, .quem, .feram, .ecc, .ports, .xcnt, .logNext, .logCompl, .logCount, .logged, .boot, .sec, .fab, .bus] t ∧
        (t.port 1409).src = w32 (6 * 2 ^ 24 + tag.toNat * 2 ^ 16 + 14) ∧
        (t.port 1409).transit = true ∧
        t.sec = s.sec ∧
        t.regs = s.regs) ∧
    (∀ (busy : Bool) (tag : BitVec 8) (blown : Bool) (s : State), (busy = true ∨ s.sec.job.isSome = true) →
      s.boot.prog = false →
      ∃ t, exec (.loadrec busy tag blown) s = .next t ∧ s.sameBut [.regs, .mirror, .logm, .quem, .ecc, .ports, .xcnt, .logNext, .logCompl, .logCount, .logged, .sec, .bus] t ∧
        (t.port 1409).src = w32 (7 * 2 ^ 24 + tag.toNat * 2 ^ 16 + 14) ∧
        (t.port 1409).transit = true ∧
        t.sec = s.sec ∧
        t.regs = s.regs) ∧
    (∀ (busy : Bool) (tag : BitVec 8) (k : BitVec 16) (s : State), (busy = true ∨ s.sec.job.isSome = true) →
      s.boot.prog = false →
      ∃ t, exec (.pubkey busy tag k) s = .next t ∧ s.sameBut [.regs, .mirror, .logm, .quem, .ecc, .ports, .xcnt, .logNext, .logCompl, .logCount, .logged, .sec, .bus] t ∧
        (t.port 1409).src = w32 (8 * 2 ^ 24 + tag.toNat * 2 ^ 16 + 14) ∧
        (t.port 1409).transit = true ∧
        t.sec = s.sec ∧
        t.regs = s.regs) ∧
    (∀ (busy : Bool) (tag : BitVec 8) (ws : List Word) (s : State), (Instr.islandAttest busy tag ws).wf = true →
      (busy = true ∨ s.sec.job.isSome = true) →
      s.boot.prog = false →
      ∃ t, exec (.islandAttest busy tag ws) s = .next t ∧ s.sameBut [.regs, .mirror, .logm, .quem, .ecc, .ports, .xcnt, .logNext, .logCompl, .logCount, .logged, .sec, .bus, .freeCtr] t ∧
        (t.port 1409).src = w32 (9 * 2 ^ 24 + tag.toNat * 2 ^ 16 + 14) ∧
        (t.port 1409).transit = true ∧
        t.sec = s.sec ∧
        t.regs = s.regs) ∧
    (∀ (busy : Bool) (tag : BitVec 8) (ws : List Word) (s : State), (Instr.islandChallenge busy tag ws).wf = true →
      (busy = true ∨ s.sec.job.isSome = true) →
      s.boot.prog = false →
      ∃ t, exec (.islandChallenge busy tag ws) s = .next t ∧ s.sameBut [.regs, .mirror, .logm, .quem, .ecc, .ports, .xcnt, .logNext, .logCompl, .logCount, .logged, .sec, .bus] t ∧
        (t.port 1409).src = w32 (10 * 2 ^ 24 + tag.toNat * 2 ^ 16 + 14) ∧
        (t.port 1409).transit = true ∧
        t.sec = s.sec ∧
        t.regs = s.regs) ∧
    (∀ (busy : Bool) (tag : BitVec 8) (ws : List Word) (s : State), (Instr.updateRec busy tag ws).wf = true →
      (busy = true ∨ s.sec.job.isSome = true) →
      s.boot.prog = false →
      ∃ t, exec (.updateRec busy tag ws) s = .next t ∧ s.sameBut [.regs, .mirror, .logm, .quem, .ecc, .ports, .xcnt, .logNext, .logCompl, .logCount, .logged, .sec, .bus] t ∧
        (t.port 1409).src = w32 (11 * 2 ^ 24 + tag.toNat * 2 ^ 16 + 14) ∧
        (t.port 1409).transit = true ∧
        t.sec = s.sec ∧
        t.regs = s.regs) ∧
    (∀ (port : BitVec 11) (w : Word) (s : State), (Instr.crossingWordArrival port w).wf = true →
      port = 1440#11 →
      (s.port 1440).transit = true →
      s.sec.job.isSome = true →
      ∃ t, exec (.crossingWordArrival port w) s = .next t ∧ s.sameBut [.regs, .mirror, .logm, .quem, .ecc, .qrd, .ports, .xcnt, .logNext, .logCompl, .logCount, .logged, .di, .dout, .ao, .stime, .mtr, .sec, .bus, .lcd, .rtc] t ∧
        (t.port 1409).src = w32 (fld (s.port 1440).src 31 24 * 2 ^ 24 + fld (s.port 1440).src 23 16 * 2 ^ 16 + 14) ∧
        (t.port 1409).transit = true ∧
        t.sec = s.sec ∧
        t.regs = s.regs)

/-- MESSAGE of the island answers the code of the checks and keeps the new record pending when it accepts; RECORD_DONE of
a pending record writes it to the copy and takes it into use, a failed one drops it with code 0x0B, which counts as a
refused message where it was one (R408); that RECORD_DONE itself makes the FeRAM write, and the word layout of
UPDATE_REC, are the model's choice (log entry 61); LOADREC takes the intact copy with the greater SEQ; UPDATE_REC
keeps its new record pending; EPOCH_GRACE_END forgets the previous K_owner; TRIAL_MINUTE counts a minute in phase 7;
TRIES_RESET writes TRIES 0; a RETIRED island refuses both records (R379). COMPLETE here (the conclusion is that exec
answers a next state t): islandMessage, recordDone, loadrec, updateRec, epochGraceEnd, trialMinute, triesReset. -/
def Obligations.SecurityRecord : Prop :=
    (∀ (busy : Bool) (tag : BitVec 8) (m : List Byte) (s : State), busy = false →
      s.sec.job = none →
      s.boot.prog = false →
      ∃ t, exec (.islandMessage busy tag m) s = .next t ∧ s.sameBut [.regs, .mirror, .logm, .quem, .ecc, .ports, .xcnt, .logNext, .logCompl, .logCount, .logged, .sec, .bus, .freeCtr] t ∧
        (t.port 1409).src = w32 (5 * 2 ^ 24 + tag.toNat * 2 ^ 16 + (islandMessage m s).1) ∧
        (t.port 1409).transit = true ∧
        t.sec.ops = s.sec.ops + 1 ∧
        ((islandMessage m s).1 = 0 → t.sec.pend = some (newRecord m s).1) ∧
        ((islandMessage m s).1 ≠ 0 → t.sec.pend = s.sec.pend ∧ t.rb Reg.secEvt 3 = true ∧ t.rf Reg.secCnt 31 16 = min (s.rf Reg.secCnt 31 16 + 1) 65535) ∧
        t.sec.srec = s.sec.srec ∧
        t.feram = s.feram) ∧
    (∀ (busy : Bool) (tag : BitVec 8) (copy : Fin 2) (failed : Bool) (p : SecPend) (s : State), busy = false →
      s.sec.job = none →
      s.sec.pend = some p →
      failed = false →
      s.boot.prog = false →
      ∃ t, exec (.recordDone busy tag copy failed) s = .next t ∧ s.sameBut [.regs, .mirror, .logm, .quem, .feram, .ecc, .ports, .xcnt, .logNext, .logCompl, .logCount, .logged, .boot, .sec, .fab, .bus] t ∧
        (t.port 1409).src = w32 (6 * 2 ^ 24 + tag.toNat * 2 ^ 16 + 0) ∧
        (t.port 1409).transit = true ∧
        t.sec.ops = s.sec.ops + 1 ∧
        t.sec.srec = p.newRec ∧
        t.sec.newest = some copy.val ∧
        t.sec.pend = none ∧
        t.feram = memPut s.feram (recAddr copy.val) (recBytes p.newRec)) ∧
    (∀ (busy : Bool) (tag : BitVec 8) (copy : Fin 2) (failed : Bool) (p : SecPend) (s : State), busy = false →
      s.sec.job = none →
      s.sec.pend = some p →
      failed = true →
      s.boot.prog = false →
      ∃ t, exec (.recordDone busy tag copy failed) s = .next t ∧ s.sameBut [.regs, .mirror, .logm, .quem, .feram, .ecc, .ports, .xcnt, .logNext, .logCompl, .logCount, .logged, .boot, .sec, .fab, .bus] t ∧
        (t.port 1409).src = w32 (6 * 2 ^ 24 + tag.toNat * 2 ^ 16 + 11) ∧
        t.sec.ops = s.sec.ops + 1 ∧
        t.sec.srec = s.sec.srec ∧
        t.sec.pend = none ∧
        t.feram = s.feram ∧
        (p.kind ≠ 0 → t.rb Reg.secEvt 3 = true) ∧
        (p.kind = 0 → t.reg Reg.secEvt = s.reg Reg.secEvt ∧ t.reg Reg.secCnt = s.reg Reg.secCnt)) ∧
    (∀ (busy : Bool) (tag : BitVec 8) (copy : Fin 2) (failed : Bool) (s : State), busy = false →
      s.sec.job = none →
      s.sec.pend = none →
      s.boot.prog = false →
      ∃ t, exec (.recordDone busy tag copy failed) s = .next t ∧ s.sameBut [.regs, .mirror, .logm, .quem, .feram, .ecc, .ports, .xcnt, .logNext, .logCompl, .logCount, .logged, .boot, .sec, .fab, .bus] t ∧
        (t.port 1409).src = w32 (6 * 2 ^ 24 + tag.toNat * 2 ^ 16 + 1) ∧
        t.sec.ops = s.sec.ops + 1 ∧
        t.sec.srec = s.sec.srec ∧
        t.feram = s.feram) ∧
    (∀ (busy : Bool) (tag : BitVec 8) (blown : Bool) (s : State), busy = false →
      s.sec.job = none →
      s.sec.retired = false →
      s.boot.prog = false →
      ∃ t, exec (.loadrec busy tag blown) s = .next t ∧ s.sameBut [.regs, .mirror, .logm, .quem, .ecc, .ports, .xcnt, .logNext, .logCompl, .logCount, .logged, .sec, .bus] t ∧
        (t.port 1409).src = w32 (7 * 2 ^ 24 + tag.toNat * 2 ^ 16 + 0) ∧
        (t.port 1409).transit = true ∧
        t.sec.ops = s.sec.ops + 1 ∧
        (recFault s (memBytes s.feram (recAddr 0) 16384) = 0 → recFault s (memBytes s.feram (recAddr 1) 16384) ≠ 0 → t.sec.srec = recParse (memBytes s.feram (recAddr 0) 16384) ∧ t.sec.newest = some 0 ∧ t.rb Reg.secEvt 9 = true) ∧
        (recFault s (memBytes s.feram (recAddr 0) 16384) ≠ 0 → recFault s (memBytes s.feram (recAddr 1) 16384) = 0 → t.sec.srec = recParse (memBytes s.feram (recAddr 1) 16384) ∧ t.sec.newest = some 1 ∧ t.rb Reg.secEvt 9 = true) ∧
        (recFault s (memBytes s.feram (recAddr 0) 16384) = 0 → recFault s (memBytes s.feram (recAddr 1) 16384) = 0 → (recParse (memBytes s.feram (recAddr 0) 16384)).seq < (recParse (memBytes s.feram (recAddr 1) 16384)).seq → t.sec.srec = recParse (memBytes s.feram (recAddr 1) 16384) ∧ t.sec.newest = some 1) ∧
        (recFault s (memBytes s.feram (recAddr 0) 16384) = 0 → recFault s (memBytes s.feram (recAddr 1) 16384) = 0 → (recParse (memBytes s.feram (recAddr 1) 16384)).seq ≤ (recParse (memBytes s.feram (recAddr 0) 16384)).seq → t.sec.srec = recParse (memBytes s.feram (recAddr 0) 16384) ∧ t.sec.newest = some 0) ∧
        (recFault s (memBytes s.feram (recAddr 0) 16384) ≠ 0 → recFault s (memBytes s.feram (recAddr 1) 16384) ≠ 0 → t.sec.noRec = true ∧ t.sec.newest = none ∧ t.sec.kOwner = none)) ∧
    (∀ (busy : Bool) (tag : BitVec 8) (blown : Bool) (s : State), busy = false →
      s.sec.job = none →
      s.sec.retired = true →
      s.boot.prog = false →
      ∃ t, exec (.loadrec busy tag blown) s = .next t ∧ s.sameBut [.regs, .mirror, .logm, .quem, .ecc, .ports, .xcnt, .logNext, .logCompl, .logCount, .logged, .sec, .bus] t ∧
        (t.port 1409).src = w32 (7 * 2 ^ 24 + tag.toNat * 2 ^ 16 + 13) ∧
        t.sec.ops = s.sec.ops + 1 ∧
        t.sec.srec = s.sec.srec) ∧
    (∀ (busy : Bool) (tag : BitVec 8) (ws : List Word) (s : State), (Instr.updateRec busy tag ws).wf = true →
      busy = false →
      s.sec.job = none →
      s.sec.retired = false →
      s.sec.pend = none →
      s.boot.prog = false →
      ∃ t, exec (.updateRec busy tag ws) s = .next t ∧ s.sameBut [.regs, .mirror, .logm, .quem, .ecc, .ports, .xcnt, .logNext, .logCompl, .logCount, .logged, .sec, .bus] t ∧
        (t.port 1409).src = w32 (11 * 2 ^ 24 + tag.toNat * 2 ^ 16 + 0) ∧
        (t.port 1409).transit = true ∧
        t.sec.ops = s.sec.ops + 1 ∧
        t.sec.pend = some { kind := 0, newRec := updatedRec ws s, owner := none } ∧
        s.sec.srec.floor ≤ (updatedRec ws s).floor ∧
        t.sec.srec = s.sec.srec) ∧
    (∀ (busy : Bool) (tag : BitVec 8) (ws : List Word) (p : SecPend) (s : State), (Instr.updateRec busy tag ws).wf = true →
      busy = false →
      s.sec.job = none →
      s.sec.retired = false →
      s.sec.pend = some p →
      s.boot.prog = false →
      ∃ t, exec (.updateRec busy tag ws) s = .next t ∧ s.sameBut [.regs, .mirror, .logm, .quem, .ecc, .ports, .xcnt, .logNext, .logCompl, .logCount, .logged, .sec, .bus] t ∧
        (t.port 1409).src = w32 (11 * 2 ^ 24 + tag.toNat * 2 ^ 16 + 14) ∧
        t.sec.ops = s.sec.ops + 1 ∧
        t.sec.pend = some p ∧
        t.sec.srec = s.sec.srec) ∧
    (∀ (s : State), s.boot.prog = false →
      ∃ t, exec .epochGraceEnd s = .next t ∧ s.sameBut [.sec] t ∧
        t.sec = { s.sec with kPrev := none }) ∧
    (∀ (ok : Bool) (s : State), s.sec.retired = true →
      ∃ t, exec (.trialMinute ok) s = .next t ∧ s.sameBut [.regs, .mirror, .logm, .feram, .ecc, .logNext, .logCompl, .logCount, .sec] t ∧
        t = s) ∧
    (∀ (s : State), s.sec.retired = true →
      ∃ t, exec .triesReset s = .next t ∧ s.sameBut [.regs, .mirror, .feram, .ecc, .sec] t ∧
        t = s) ∧
    (∀ (ok : Bool) (x : Nat) (s : State), trialSlot s.sec.srec = some x →
      s.sec.retired = false →
      s.rf Reg.sysStat 3 0 = 7 →
      ok = true →
      s.rf Reg.secUpdCfg 31 16 = 0 →
      ∃ t, exec (.trialMinute ok) s = .next t ∧ s.sameBut [.regs, .mirror, .logm, .feram, .ecc, .logNext, .logCompl, .logCount, .sec] t ∧
        t.sec.srec = { s.sec.srec with trialMin := s.sec.srec.trialMin + 1, seq := s.sec.srec.seq + 1, lcn := s.sec.lcn } ∧
        t.sec.newest = some (nextCopy s) ∧
        t.feram = memPut s.feram (recAddr (nextCopy s)) (recBytes t.sec.srec)) ∧
    (∀ (ok : Bool) (x : Nat) (s : State), trialSlot s.sec.srec = some x →
      s.sec.retired = false →
      s.rf Reg.sysStat 3 0 = 7 →
      ok = true →
      s.rf Reg.secUpdCfg 31 16 ≠ 0 →
      60 * s.rf Reg.secUpdCfg 31 16 ≤ s.sec.srec.trialMin + 1 →
      ∃ t, exec (.trialMinute ok) s = .next t ∧ s.sameBut [.regs, .mirror, .logm, .feram, .ecc, .logNext, .logCompl, .logCount, .sec] t ∧
        slotState t.sec.srec x = 4 ∧
        t.sec.srec.floor = slotSeq s.sec.srec x ∧
        t.sec.srec.tries = 0 ∧
        t.sec.srec.trialMin = 0 ∧
        t.rb Reg.sysStat 4 = false ∧
        t.rb Reg.secEvt 6 = true) ∧
    (∀ (ok : Bool) (s : State), trialSlot s.sec.srec = none →
      ∃ t, exec (.trialMinute ok) s = .next t ∧ s.sameBut [.regs, .mirror, .logm, .feram, .ecc, .logNext, .logCompl, .logCount, .sec] t ∧
        t = s) ∧
    (∀ (s : State), s.sec.retired = false →
      s.rf Reg.sysStat 3 0 = 7 →
      s.sec.srec.tries ≠ 0 →
      ∃ t, exec .triesReset s = .next t ∧ s.sameBut [.regs, .mirror, .feram, .ecc, .sec] t ∧
        t.sec.srec = { s.sec.srec with tries := 0, seq := s.sec.srec.seq + 1, lcn := s.sec.lcn } ∧
        t.feram = memPut s.feram (recAddr (nextCopy s)) (recBytes t.sec.srec))

/-- For each message of Table 15-4: where the checks of R384 give a code other than 0 the record, the fuses, FeRAM and the
store stay, the refusal is counted and SEC_EVT shows it; where the write fails nothing of them changes either; where
the checks accept and the write succeeds, COUNTER becomes the message's, the new record stands in FeRAM, and the
fuses, LCN, keys, slots and the request for a warm start follow the kind. The keys of the checks are open constants
(assumption 29), so acceptance is a premise inside the conclusion. COMPLETE here (the conclusion is that exec answers
a next state t): commission, ownerSecret, ownerRoot, msgReturn, msgRetire, msgConfirm, msgReject, privileged. -/
def Obligations.SignedMessages : Prop :=
    (∀ (m : List Byte) (ok : Bool) (s : State), (Instr.commission m ok).wf = true →
      s.boot.prog = false →
      ∃ t, exec (.commission m ok) s = .next t ∧ s.sameBut [.regs, .mirror, .logm, .feram, .store, .ecc, .logNext, .logCompl, .logCount, .logged, .boot, .sec, .fab, .freeCtr] t ∧
        ((islandMessage m s).1 ≠ 0 → t.sec = s.sec ∧ t.feram = s.feram ∧ t.store = s.store ∧ t.rb Reg.secEvt 3 = true ∧ t.rf Reg.secCnt 31 16 = min (s.rf Reg.secCnt 31 16 + 1) 65535) ∧
        ((islandMessage m s).1 = 0 → ok = false → t.sec.srec = s.sec.srec ∧ t.sec.lcn = s.sec.lcn ∧ t.sec.retired = s.sec.retired ∧ t.sec.pend = none ∧ t.feram = s.feram ∧ t.store = s.store) ∧
        ((islandMessage m s).1 = 0 → ok = true → t.sec.srec.counter = msgCounter m ∧ t.sec.pend = none ∧ t.sec.newest = some (nextCopy s) ∧ t.feram = memPut s.feram (recAddr (nextCopy s)) (recBytes t.sec.srec) ∧ t.sec.lcn = min 30 (s.sec.lcn + 1) ∧ t.sec.retired = s.sec.retired ∧ t.sec.kOwner = some (newOwner m 1793) ∧ t.sec.kPrev = none ∧ t.sec.srec.ownerRoot = (msgBody m).take 1793 ∧ t.sec.srec.epoch = (newOwner m 1793).1 ∧ t.sec.xfer = none ∧ t.sec.obj = none)) ∧
    (∀ (m : List Byte) (ok : Bool) (s : State), (Instr.ownerSecret m ok).wf = true →
      s.boot.prog = false →
      ∃ t, exec (.ownerSecret m ok) s = .next t ∧ s.sameBut [.regs, .mirror, .logm, .feram, .store, .ecc, .logNext, .logCompl, .logCount, .logged, .boot, .sec, .fab, .freeCtr] t ∧
        ((islandMessage m s).1 ≠ 0 → t.sec = s.sec ∧ t.feram = s.feram ∧ t.store = s.store ∧ t.rb Reg.secEvt 3 = true ∧ t.rf Reg.secCnt 31 16 = min (s.rf Reg.secCnt 31 16 + 1) 65535) ∧
        ((islandMessage m s).1 = 0 → ok = false → t.sec.srec = s.sec.srec ∧ t.sec.lcn = s.sec.lcn ∧ t.sec.retired = s.sec.retired ∧ t.sec.pend = none ∧ t.feram = s.feram ∧ t.store = s.store) ∧
        ((islandMessage m s).1 = 0 → ok = true → t.sec.srec.counter = msgCounter m ∧ t.sec.pend = none ∧ t.sec.newest = some (nextCopy s) ∧ t.feram = memPut s.feram (recAddr (nextCopy s)) (recBytes t.sec.srec) ∧ t.sec.lcn = s.sec.lcn ∧ t.sec.retired = s.sec.retired ∧ t.sec.srec.epoch = (newOwner m 0).1 ∧ t.sec.kPrev = s.sec.kOwner ∧ (s.eng.released = true → t.sec.kOwner = s.sec.kOwner ∧ t.sec.kDue = some (newOwner m 0)) ∧ (s.eng.released = false → t.sec.kOwner = some (newOwner m 0)))) ∧
    (∀ (m : List Byte) (ok : Bool) (s : State), (Instr.ownerRoot m ok).wf = true →
      s.boot.prog = false →
      ∃ t, exec (.ownerRoot m ok) s = .next t ∧ s.sameBut [.regs, .mirror, .logm, .feram, .store, .ecc, .logNext, .logCompl, .logCount, .logged, .boot, .sec, .fab, .freeCtr] t ∧
        ((islandMessage m s).1 ≠ 0 → t.sec = s.sec ∧ t.feram = s.feram ∧ t.store = s.store ∧ t.rb Reg.secEvt 3 = true ∧ t.rf Reg.secCnt 31 16 = min (s.rf Reg.secCnt 31 16 + 1) 65535) ∧
        ((islandMessage m s).1 = 0 → ok = false → t.sec.srec = s.sec.srec ∧ t.sec.lcn = s.sec.lcn ∧ t.sec.retired = s.sec.retired ∧ t.sec.pend = none ∧ t.feram = s.feram ∧ t.store = s.store) ∧
        ((islandMessage m s).1 = 0 → ok = true → t.sec.srec.counter = msgCounter m ∧ t.sec.pend = none ∧ t.sec.newest = some (nextCopy s) ∧ t.feram = memPut s.feram (recAddr (nextCopy s)) (recBytes t.sec.srec) ∧ t.sec.lcn = s.sec.lcn ∧ t.sec.retired = s.sec.retired ∧ t.sec.srec.ownerRoot = msgBody m ∧ t.sec.kOwner = s.sec.kOwner ∧ t.sec.xfer = none ∧ t.sec.obj = none)) ∧
    (∀ (m : List Byte) (ok : Bool) (s : State), (Instr.msgReturn m ok).wf = true →
      s.boot.prog = false →
      ∃ t, exec (.msgReturn m ok) s = .next t ∧ s.sameBut [.regs, .mirror, .logm, .feram, .store, .ecc, .logNext, .logCompl, .logCount, .logged, .boot, .sec, .fab, .freeCtr] t ∧
        ((islandMessage m s).1 ≠ 0 → t.sec = s.sec ∧ t.feram = s.feram ∧ t.store = s.store ∧ t.rb Reg.secEvt 3 = true ∧ t.rf Reg.secCnt 31 16 = min (s.rf Reg.secCnt 31 16 + 1) 65535) ∧
        ((islandMessage m s).1 = 0 → ok = false → t.sec.srec = s.sec.srec ∧ t.sec.lcn = s.sec.lcn ∧ t.sec.retired = s.sec.retired ∧ t.sec.pend = none ∧ t.feram = s.feram ∧ t.store = s.store) ∧
        ((islandMessage m s).1 = 0 → ok = true → t.sec.srec.counter = msgCounter m ∧ t.sec.pend = none ∧ t.sec.newest = some (nextCopy s) ∧ t.feram = memPut s.feram (recAddr (nextCopy s)) (recBytes t.sec.srec) ∧ t.sec.lcn = min 30 (s.sec.lcn + 1) ∧ t.sec.kOwner = none ∧ t.sec.srec.owner = false ∧ t.sec.srec.ownerRoot = [] ∧ t.sec.srec.wrapped = [] ∧ t.sec.xfer = none ∧ t.sec.obj = none)) ∧
    (∀ (m : List Byte) (ok : Bool) (s : State), (Instr.msgRetire m ok).wf = true →
      s.boot.prog = false →
      ∃ t, exec (.msgRetire m ok) s = .next t ∧ s.sameBut [.regs, .mirror, .logm, .feram, .store, .ecc, .logNext, .logCompl, .logCount, .logged, .boot, .sec, .fab, .freeCtr] t ∧
        ((islandMessage m s).1 ≠ 0 → t.sec = s.sec ∧ t.feram = s.feram ∧ t.store = s.store ∧ t.rb Reg.secEvt 3 = true ∧ t.rf Reg.secCnt 31 16 = min (s.rf Reg.secCnt 31 16 + 1) 65535) ∧
        ((islandMessage m s).1 = 0 → ok = false → t.sec.srec = s.sec.srec ∧ t.sec.lcn = s.sec.lcn ∧ t.sec.retired = s.sec.retired ∧ t.sec.pend = none ∧ t.feram = s.feram ∧ t.store = s.store) ∧
        ((islandMessage m s).1 = 0 → ok = true → t.sec.srec.counter = msgCounter m ∧ t.sec.pend = none ∧ t.sec.newest = some (nextCopy s) ∧ t.feram = memPut s.feram (recAddr (nextCopy s)) (recBytes t.sec.srec) ∧ t.sec.retired = true ∧ t.sec.lcn = s.sec.lcn ∧ t.sec.kOwner = none)) ∧
    (∀ (m : List Byte) (ok : Bool) (s : State), (Instr.msgConfirm m ok).wf = true →
      s.boot.prog = false →
      ∃ t, exec (.msgConfirm m ok) s = .next t ∧ s.sameBut [.regs, .mirror, .logm, .feram, .store, .ecc, .logNext, .logCompl, .logCount, .logged, .boot, .sec, .fab, .freeCtr] t ∧
        ((islandMessage m s).1 ≠ 0 → t.sec = s.sec ∧ t.feram = s.feram ∧ t.store = s.store ∧ t.rb Reg.secEvt 3 = true ∧ t.rf Reg.secCnt 31 16 = min (s.rf Reg.secCnt 31 16 + 1) 65535) ∧
        ((islandMessage m s).1 = 0 → ok = false → t.sec.srec = s.sec.srec ∧ t.sec.lcn = s.sec.lcn ∧ t.sec.retired = s.sec.retired ∧ t.sec.pend = none ∧ t.feram = s.feram ∧ t.store = s.store) ∧
        ((islandMessage m s).1 = 0 → ok = true → t.sec.srec.counter = msgCounter m ∧ t.sec.pend = none ∧ t.sec.newest = some (nextCopy s) ∧ t.feram = memPut s.feram (recAddr (nextCopy s)) (recBytes t.sec.srec) ∧ t.sec.lcn = s.sec.lcn ∧ t.sec.retired = s.sec.retired ∧ slotState t.sec.srec s.image.slot = 4 ∧ t.sec.srec.floor = slotSeq s.sec.srec s.image.slot ∧ t.sec.srec.tries = 0 ∧ t.rb Reg.secEvt 6 = true)) ∧
    (∀ (m : List Byte) (ok : Bool) (s : State), (Instr.msgReject m ok).wf = true →
      s.boot.prog = false →
      ∃ t, exec (.msgReject m ok) s = .next t ∧ s.sameBut [.regs, .mirror, .logm, .feram, .store, .ecc, .logNext, .logCompl, .logCount, .logged, .boot, .sec, .fab, .freeCtr] t ∧
        ((islandMessage m s).1 ≠ 0 → t.sec = s.sec ∧ t.feram = s.feram ∧ t.store = s.store ∧ t.rb Reg.secEvt 3 = true ∧ t.rf Reg.secCnt 31 16 = min (s.rf Reg.secCnt 31 16 + 1) 65535) ∧
        ((islandMessage m s).1 = 0 → ok = false → t.sec.srec = s.sec.srec ∧ t.sec.lcn = s.sec.lcn ∧ t.sec.retired = s.sec.retired ∧ t.sec.pend = none ∧ t.feram = s.feram ∧ t.store = s.store) ∧
        ((islandMessage m s).1 = 0 → ok = true → t.sec.srec.counter = msgCounter m ∧ t.sec.pend = none ∧ t.sec.newest = some (nextCopy s) ∧ t.feram = memPut s.feram (recAddr (nextCopy s)) (recBytes t.sec.srec) ∧ t.sec.lcn = s.sec.lcn ∧ t.sec.retired = s.sec.retired ∧ t.sec.srec.tries = 0 ∧ t.sec.srec.trialMin = 0 ∧ (phaseOf s ≠ 8 → phaseOf s ≠ 9 → s.boot.supplyOk = true → t.boot.warmReq = some 0))) ∧
    (∀ (m : List Byte) (ok : Bool) (s : State), (Instr.privileged m ok).wf = true →
      s.boot.prog = false →
      ∃ t, exec (.privileged m ok) s = .next t ∧ s.sameBut [.regs, .mirror, .logm, .feram, .store, .ecc, .logNext, .logCompl, .logCount, .logged, .boot, .sec, .fab, .freeCtr] t ∧
        ((islandMessage m s).1 ≠ 0 → t.sec = s.sec ∧ t.feram = s.feram ∧ t.store = s.store ∧ t.rb Reg.secEvt 3 = true ∧ t.rf Reg.secCnt 31 16 = min (s.rf Reg.secCnt 31 16 + 1) 65535) ∧
        ((islandMessage m s).1 = 0 → ok = false → t.sec.srec = s.sec.srec ∧ t.sec.lcn = s.sec.lcn ∧ t.sec.retired = s.sec.retired ∧ t.sec.pend = none ∧ t.feram = s.feram ∧ t.store = s.store) ∧
        ((islandMessage m s).1 = 0 → ok = true → t.sec.srec.counter = msgCounter m ∧ t.sec.pend = none ∧ t.sec.newest = some (nextCopy s) ∧ t.feram = memPut s.feram (recAddr (nextCopy s)) (recBytes t.sec.srec) ∧ t.sec.lcn = s.sec.lcn ∧ t.sec.retired = s.sec.retired ∧ t.sec.kOwner = s.sec.kOwner ∧ t.rb Reg.secEvt 2 = true))

/-- Loads, queue and crossing operations, mirror and scrub operations, count and log commands and the host port. For each
command named here, in every state and with every operand: where the command answers a next state, every register of
the register space reads as before but those at the listed addresses, which are the registers the rules let the
command or the log record it writes change. -/
def Obligations.EngineRegisterFrames : Prop :=
    (∀ (i : Issue) (d a b : Fin 64) (s t : State), exec (.fadd i d a b) s = .next t → s.regsBut ([Reg.logEvt, Reg.tteFpPath, Reg.tteFpStat]) t) ∧
    (∀ (i : Issue) (d a b : Fin 64) (s t : State), exec (.fsub i d a b) s = .next t → s.regsBut ([Reg.logEvt, Reg.tteFpPath, Reg.tteFpStat]) t) ∧
    (∀ (i : Issue) (d a b : Fin 64) (s t : State), exec (.fmul i d a b) s = .next t → s.regsBut ([Reg.logEvt, Reg.tteFpPath, Reg.tteFpStat]) t) ∧
    (∀ (i : Issue) (d a b : Fin 64) (s t : State), exec (.fmin i d a b) s = .next t → s.regsBut ([Reg.logEvt, Reg.tteFpPath, Reg.tteFpStat]) t) ∧
    (∀ (i : Issue) (d a b : Fin 64) (s t : State), exec (.fmax i d a b) s = .next t → s.regsBut ([Reg.logEvt, Reg.tteFpPath, Reg.tteFpStat]) t) ∧
    (∀ (i : Issue) (d a b : Fin 64) (s t : State), exec (.fdiv i d a b) s = .next t → s.regsBut ([Reg.logEvt, Reg.tteFpPath, Reg.tteFpStat]) t) ∧
    (∀ (i : Issue) (d a b : Fin 64) (s t : State), exec (.fma i d a b) s = .next t → s.regsBut ([Reg.logEvt, Reg.tteFpPath, Reg.tteFpStat]) t) ∧
    (∀ (i : Issue) (d a b : Fin 64) (s t : State), exec (.fms i d a b) s = .next t → s.regsBut ([Reg.logEvt, Reg.tteFpPath, Reg.tteFpStat]) t) ∧
    (∀ (i : Issue) (d a : Fin 64) (s t : State), exec (.fabs i d a) s = .next t → s.regsBut ([Reg.logEvt, Reg.tteFpPath, Reg.tteFpStat]) t) ∧
    (∀ (i : Issue) (d a : Fin 64) (s t : State), exec (.fneg i d a) s = .next t → s.regsBut ([Reg.logEvt, Reg.tteFpPath, Reg.tteFpStat]) t) ∧
    (∀ (i : Issue) (d a : Fin 64) (s t : State), exec (.fcvti i d a) s = .next t → s.regsBut ([Reg.logEvt, Reg.tteFpPath, Reg.tteFpStat]) t) ∧
    (∀ (i : Issue) (d a : Fin 64) (s t : State), exec (.fcvtf i d a) s = .next t → s.regsBut ([Reg.logEvt, Reg.tteFpPath, Reg.tteFpStat]) t) ∧
    (∀ (i : Issue) (d a : Fin 64) (s t : State), exec (.fsqrt i d a) s = .next t → s.regsBut ([Reg.logEvt, Reg.tteFpPath, Reg.tteFpStat]) t) ∧
    (∀ (i : Issue) (pd : Fin 16) (a b : Fin 64) (cond : BitVec 3) (s t : State), exec (.fcmp i pd a b cond) s = .next t → s.regsBut ([Reg.logEvt, Reg.tteFpPath, Reg.tteFpStat]) t) ∧
    (∀ (i : Issue) (d a : Fin 64) (imm : BitVec 7) (s t : State), exec (.ld i d a imm) s = .next t → s.regsBut ([Reg.logEvt, Reg.tteDedAddr, Reg.tteEccStat] ++ regs1 6 (fun n => Reg.tteEccCode + 4 * n)) t) ∧
    (∀ (i : Issue) (d a b : Fin 64) (s t : State), exec (.ldx i d a b) s = .next t → s.regsBut ([Reg.logEvt, Reg.tteDedAddr, Reg.tteEccStat] ++ regs1 6 (fun n => Reg.tteEccCode + 4 * n)) t) ∧
    (∀ (i : Issue) (d a : Fin 64) (imm : BitVec 7) (s t : State), exec (.lld i d a imm) s = .next t → s.regsBut ([Reg.tteDedAddr, Reg.tteEccStat] ++ regs1 6 (fun n => Reg.tteEccCode + 4 * n)) t) ∧
    (∀ (i : Issue) (d qa : Fin 64) (s t : State), exec (.qpop i d qa) s = .next t → s.regsBut ([Reg.logEvt, Reg.queEvt, Reg.tteDedAddr, Reg.tteEccStat, Reg.tteXsum] ++ regs1 12 Reg.canChEvt ++ regs1 12 Reg.canChStat ++ regs1 12 Reg.macPEvt ++ regs1 12 Reg.macPStat ++ regs1 64 Reg.queQCnt ++ regs1 64 Reg.queQDed ++ regs1 64 Reg.queQLevel ++ regs1 64 Reg.queQStat ++ regs1 6 (fun n => Reg.tteEccCode + 4 * n)) t) ∧
    (∀ (i : Issue) (d qa : Fin 64) (s t : State), exec (.qpush i d qa) s = .next t → s.regsBut ([Reg.logEvt, Reg.queEvt, Reg.tteXsum] ++ regs1 12 Reg.canChEvt ++ regs1 12 Reg.canChStat ++ regs1 12 Reg.macPEvt ++ regs1 12 Reg.macPStat ++ regs1 64 Reg.queQCnt ++ regs1 64 Reg.queQLevel ++ regs1 64 Reg.queQStat) t) ∧
    (∀ (i : Issue) (qa qb : Fin 64) (s t : State), exec (.qmov i qa qb) s = .next t → s.regsBut ([Reg.logEvt, Reg.queEvt, Reg.tteDedAddr, Reg.tteEccStat, Reg.tteXsum] ++ regs1 12 Reg.canChEvt ++ regs1 12 Reg.canChStat ++ regs1 12 Reg.macPEvt ++ regs1 12 Reg.macPStat ++ regs1 64 Reg.queQCnt ++ regs1 64 Reg.queQDed ++ regs1 64 Reg.queQLevel ++ regs1 64 Reg.queQStat ++ regs1 6 (fun n => Reg.tteEccCode + 4 * n)) t) ∧
    (∀ (q : Fin 64) (island : Fin 25) (unit : BitVec 8) (ws : List Word) (s t : State), exec (.islandQueuePush q island unit ws) s = .next t → s.regsBut ([Reg.logEvt, Reg.queEvt, Reg.tteXsum] ++ regs1 12 Reg.canChEvt ++ regs1 12 Reg.canChStat ++ regs1 12 Reg.macPEvt ++ regs1 12 Reg.macPStat ++ regs1 64 Reg.queQCnt ++ regs1 64 Reg.queQLevel ++ regs1 64 Reg.queQStat) t) ∧
    (∀ (q : Fin 64) (island : Fin 25) (unit : BitVec 8) (push : Option Word) (s t : State), exec (.islandQueuePop q island unit push) s = .next t → s.regsBut ([Reg.logEvt, Reg.queEvt, Reg.tteDedAddr, Reg.tteEccStat, Reg.tteXsum] ++ regs1 12 Reg.canChEvt ++ regs1 12 Reg.canChStat ++ regs1 12 Reg.macPEvt ++ regs1 12 Reg.macPStat ++ regs1 64 Reg.queQCnt ++ regs1 64 Reg.queQDed ++ regs1 64 Reg.queQLevel ++ regs1 64 Reg.queQStat ++ regs1 6 (fun n => Reg.tteEccCode + 4 * n)) t) ∧
    (∀ (q : Fin 64) (gapNs : Nat) (push : Option Word) (s t : State), exec (.hostDataPortRead q gapNs push) s = .next t → s.regsBut ([Reg.logEvt, Reg.logHpv1, Reg.queEvt, Reg.tteDedAddr, Reg.tteEccStat, Reg.tteXsum] ++ regs1 12 Reg.canChEvt ++ regs1 12 Reg.canChStat ++ regs1 12 Reg.macPEvt ++ regs1 12 Reg.macPStat ++ regs1 64 Reg.queQCnt ++ regs1 64 Reg.queQData ++ regs1 64 Reg.queQLevel ++ regs1 64 Reg.queQStat ++ regs1 6 (fun n => Reg.tteEccCode + 4 * n)) t) ∧
    (∀ (q : Fin 64) (s t : State), exec (.headCellRefill q) s = .next t → s.regsBut ([Reg.logEvt, Reg.queEvt, Reg.tteDedAddr, Reg.tteEccStat] ++ regs1 64 Reg.queQDed ++ regs1 64 Reg.queQStat ++ regs1 6 (fun n => Reg.tteEccCode + 4 * n)) t) ∧
    (∀ (i : Issue) (d : Fin 64) (port : BitVec 11) (fp : BitVec 2) (s t : State), exec (.xrd i d port fp) s = .next t → s.regsBut ([Reg.aioEvt, Reg.aioStat, Reg.dioEvt, Reg.dioStat, Reg.logEvt] ++ regs2 4 4 Reg.aioAgChAin ++ regs2 4 4 Reg.aioAgChHead ++ regs2 4 4 Reg.aioAgChRb ++ regs1 4 Reg.aioAgStat ++ regs1 4 Reg.aioAgStime ++ regs1 4 Reg.dioDiBreak ++ regs2 4 8 Reg.dioDiCnt ++ regs1 4 Reg.dioDiState ++ regs1 4 Reg.dioDiStime ++ regs1 4 Reg.dioDiSupply ++ regs1 2 Reg.dioDoFault ++ regs1 2 Reg.dioDoRb ++ regs1 2 Reg.dioDoStime ++ regs1 2 Reg.dioDoSupply ++ regs1 6 Reg.pwrAgLedger ++ regs1 6 Reg.pwrAgWait) t) ∧
    (∀ (i : Issue) (d : Fin 64) (port : BitVec 11) (s t : State), exec (.xwr i d port) s = .next t → s.regsBut ([Reg.logEvt, Reg.tteXsum] ++ regs2 4 4 Reg.aioAgChOut ++ regs1 4 Reg.aioAgCmd ++ regs1 2 Reg.dioDoCmd ++ regs1 6 Reg.pwrAgCount ++ regs1 6 Reg.pwrAgLedger ++ regs1 6 Reg.pwrAgWait) t) ∧
    (∀ (i : Issue) (q : Fin 64) (port : BitVec 11) (s t : State), exec (.xq i q port) s = .next t → s.regsBut ([Reg.aioEvt, Reg.aioStat, Reg.dioEvt, Reg.dioStat, Reg.logEvt, Reg.queEvt, Reg.tteXsum] ++ regs2 4 4 Reg.aioAgChAin ++ regs2 4 4 Reg.aioAgChHead ++ regs2 4 4 Reg.aioAgChRb ++ regs1 4 Reg.aioAgStat ++ regs1 4 Reg.aioAgStime ++ regs1 12 Reg.canChEvt ++ regs1 12 Reg.canChStat ++ regs1 4 Reg.dioDiBreak ++ regs2 4 8 Reg.dioDiCnt ++ regs1 4 Reg.dioDiState ++ regs1 4 Reg.dioDiStime ++ regs1 4 Reg.dioDiSupply ++ regs1 2 Reg.dioDoFault ++ regs1 2 Reg.dioDoRb ++ regs1 2 Reg.dioDoStime ++ regs1 2 Reg.dioDoSupply ++ regs1 12 Reg.macPEvt ++ regs1 12 Reg.macPStat ++ regs1 6 Reg.pwrAgLedger ++ regs1 6 Reg.pwrAgWait ++ regs1 64 Reg.queQCnt ++ regs1 64 Reg.queQLevel ++ regs1 64 Reg.queQStat) t) ∧
    (∀ (i : Issue) (q : Fin 64) (port : BitVec 11) (s t : State), exec (.qx i q port) s = .next t → s.regsBut ([Reg.logEvt, Reg.queEvt, Reg.tteDedAddr, Reg.tteEccStat, Reg.tteXsum] ++ regs2 4 4 Reg.aioAgChOut ++ regs1 4 Reg.aioAgCmd ++ regs1 12 Reg.canChEvt ++ regs1 12 Reg.canChStat ++ regs1 2 Reg.dioDoCmd ++ regs1 12 Reg.macPEvt ++ regs1 12 Reg.macPStat ++ regs1 6 Reg.pwrAgCount ++ regs1 6 Reg.pwrAgLedger ++ regs1 6 Reg.pwrAgWait ++ regs1 64 Reg.queQCnt ++ regs1 64 Reg.queQDed ++ regs1 64 Reg.queQLevel ++ regs1 64 Reg.queQStat ++ regs1 6 (fun n => Reg.tteEccCode + 4 * n)) t) ∧
    (∀ (port : BitVec 11) (w : Word) (s t : State), exec (.crossingWordArrival port w) s = .next t → s.regsBut ([Reg.lcdBadwords, Reg.lcdEvt, Reg.lcdStat, Reg.logEvt, Reg.queEvt, Reg.rtcEvt, Reg.rtcSlew, Reg.rtcStat, Reg.rtcVbak, Reg.tteDedAddr, Reg.tteEccStat, Reg.tteXsum] ++ regs2 12 16 Reg.canChCnt ++ regs1 12 Reg.canChEvt ++ regs2 12 48 Reg.canChMbId ++ regs1 12 Reg.canChStat ++ regs1 12 Reg.canChTxpend ++ regs1 4 Reg.lcdPCnt ++ regs1 4 Reg.lcdPStat ++ regs1 4 Reg.lcdPTemp ++ regs2 12 32 Reg.macPCnt ++ regs1 12 Reg.macPCtrl ++ regs1 12 Reg.macPEvt ++ regs1 12 Reg.macPStat ++ regs1 64 Reg.queQCnt ++ regs1 64 Reg.queQDed ++ regs1 64 Reg.queQLevel ++ regs1 64 Reg.queQStat ++ regs1 8 Reg.rtcAlmStat ++ regs1 6 (fun n => Reg.tteEccCode + 4 * n)) t) ∧
    (∀ (i : Issue) (a : Fin 64) (consist : BitVec 16) (s t : State), exec (.msw i a consist) s = .next t → s.regsBut ([Reg.ctlNow, Reg.ctlPtWin, Reg.fabTimeHi, Reg.fabTimeLo, Reg.logEvt, Reg.logWseq, Reg.logWstat, Reg.rtcTickHi, Reg.rtcTickLo, Reg.tteDedAddr, Reg.tteEccStat] ++ regs2 16 8 Reg.ctlPtw ++ regs1 8 Reg.logWin ++ regs1 6 (fun n => Reg.tteEccCode + 4 * n)) t) ∧
    (∀ (i : Issue) (a : Fin 64) (imm : BitVec 7) (s t : State), exec (.scrb i a imm) s = .next t → s.regsBut ([Reg.logEvt, Reg.tteDedAddr, Reg.tteEccStat, Reg.tteScrubPass] ++ regs1 6 (fun n => Reg.tteEccCode + 4 * n)) t) ∧
    (∀ (mem : Fin 4) (seconds : BitVec 32) (s t : State), exec (.scrubLate mem seconds) s = .next t → s.regsBut ([Reg.logEvt, Reg.tteEccStat]) t) ∧
    (∀ (i : Issue) (a : Fin 64) (s t : State), exec (.arm i a) s = .next t → s.regsBut (regs1 8 Reg.tteArm) t) ∧
    (∀ (i : Issue) (a : Fin 64) (s t : State), exec (.darm i a) s = .next t → s.regsBut (regs1 8 Reg.tteArm) t) ∧
    (∀ (i : Issue) (d a : Fin 64) (imm : BitVec 7) (s t : State), exec (.rld i d a imm) s = .next t → s.regsBut ([Reg.logEvt, Reg.queEvt] ++ regs1 64 Reg.queQCnt) t) ∧
    (∀ (w : Word) (s t : State), exec (.tteEccClr w) s = .next t → s.regsBut (regs1 6 (fun n => Reg.tteEccCode + 4 * n)) t) ∧
    (∀ (q : Fin 64) (s t : State), exec (.queClrCnt q) s = .next t → s.regsBut (regs1 64 Reg.queQCnt) t) ∧
    (∀ (q : Fin 64) (s t : State), exec (.queClrPeak q) s = .next t → s.regsBut (regs1 64 Reg.queQLevel) t) ∧
    (∀ (q : Fin 64) (s t : State), exec (.queClrDed q) s = .next t → s.regsBut (regs1 64 Reg.queQDed) t) ∧
    (∀ (m : Master) (w : Word) (s t : State), exec (.logAdvance m w) s = .next t → s.regsBut ([Reg.logEvt, Reg.tteDedAddr, Reg.tteEccStat] ++ regs1 6 (fun n => Reg.tteEccCode + 4 * n)) t) ∧
    (∀ (s t : State), exec .hpvPoll s = .next t → s.regsBut ([Reg.logEvt]) t) ∧
    (∀ (addr : BitVec 20) (gapNs : Nat) (s t : State), exec (.hostReadLowHalf addr gapNs) s = .next t → s.regsBut ([Reg.logEvt, Reg.logHpv1, Reg.queEvt, Reg.tteDedAddr, Reg.tteEccStat, Reg.tteXsum] ++ regs1 12 Reg.canChEvt ++ regs1 12 Reg.canChStat ++ regs1 12 Reg.macPEvt ++ regs1 12 Reg.macPStat ++ regs1 64 Reg.queQCnt ++ regs1 64 Reg.queQData ++ regs1 64 Reg.queQLevel ++ regs1 64 Reg.queQStat ++ regs1 6 (fun n => Reg.tteEccCode + 4 * n)) t) ∧
    (∀ (addr : BitVec 20) (gapNs : Nat) (s t : State), exec (.hostReadHighHalf addr gapNs) s = .next t → s.regsBut ([Reg.logEvt, Reg.logHpv1, Reg.queEvt, Reg.tteDedAddr, Reg.tteEccStat, Reg.tteXsum] ++ regs1 12 Reg.canChEvt ++ regs1 12 Reg.canChStat ++ regs1 12 Reg.macPEvt ++ regs1 12 Reg.macPStat ++ regs1 64 Reg.queQCnt ++ regs1 64 Reg.queQData ++ regs1 64 Reg.queQLevel ++ regs1 64 Reg.queQStat ++ regs1 6 (fun n => Reg.tteEccCode + 4 * n)) t) ∧
    (∀ (addr : BitVec 20) (gapNs : Nat) (s t : State), exec (.hostReadWord0 addr gapNs) s = .next t → s.regsBut ([Reg.logEvt, Reg.logHpv1, Reg.queEvt, Reg.tteDedAddr, Reg.tteEccStat, Reg.tteXsum] ++ regs1 12 Reg.canChEvt ++ regs1 12 Reg.canChStat ++ regs1 12 Reg.macPEvt ++ regs1 12 Reg.macPStat ++ regs1 64 Reg.queQCnt ++ regs1 64 Reg.queQData ++ regs1 64 Reg.queQLevel ++ regs1 64 Reg.queQStat ++ regs1 6 (fun n => Reg.tteEccCode + 4 * n)) t) ∧
    (∀ (addr : BitVec 20) (half : BitVec 16) (lenNs gapNs : Nat) (haMoved : Bool) (s t : State), exec (.hostWriteLowHalf addr half lenNs gapNs haMoved) s = .next t → s.regsBut ([Reg.logHpv1]) t)

/-- Commands of the start sequence, the path start, the last train, the hamper, and the register writes of the masters.
For each command named here, in every state and with every operand: where the command answers a next state, every
register of the register space reads as before but those at the listed addresses, which are the registers the rules
let the command or the log record it writes change. -/
def Obligations.StartAndEnergyRegisterFrames : Prop :=
    (∀ (s t : State), exec .supplyValid s = .next t → s.regsBut ([Reg.pwrStat]) t) ∧
    (∀ (strap : Bool) (s t : State), exec (.romPhase strap) s = .next t → s.regsBut ([Reg.logEvt, Reg.logStat, Reg.pwrCbank, Reg.rtcEvt, Reg.rtcStat, Reg.secCounterHi, Reg.secCounterLo, Reg.secEpoch, Reg.secEvt, Reg.secFloorHi, Reg.secFloorLo, Reg.secSlotaSeqHi, Reg.secSlotaSeqLo, Reg.secSlotbSeqHi, Reg.secSlotbSeqLo, Reg.secSlots, Reg.secStat, Reg.secTrial, Reg.secXfer, Reg.secXferStat, Reg.sysRstcause, Reg.sysStat, Reg.tteDedAddr, Reg.tteEccStat] ++ regs1 6 (fun n => Reg.tteEccCode + 4 * n)) t) ∧
    (∀ (s t : State), exec .imageChecks s = .next t → s.regsBut ([Reg.logEvt, Reg.queTotal, Reg.secCounterHi, Reg.secCounterLo, Reg.secEpoch, Reg.secEvt, Reg.secFloorHi, Reg.secFloorLo, Reg.secSlotaSeqHi, Reg.secSlotaSeqLo, Reg.secSlotbSeqHi, Reg.secSlotbSeqLo, Reg.secSlots, Reg.secStat, Reg.secTrial, Reg.secXfer, Reg.secXferStat, Reg.sysImage, Reg.sysImageSeqHi, Reg.sysImageSeqLo, Reg.sysRefuse, Reg.sysStat, Reg.tteLongest, Reg.tteStat] ++ regs1 64 Reg.queQCfg ++ regs1 64 Reg.queQEnds ++ regs1 64 Reg.queQLevel ++ regs1 64 Reg.queQWm ++ regs1 8 Reg.tteArm) t) ∧
    (∀ (ok : Bool) (s t : State), exec (.migrate ok) s = .next t → s.regsBut ([Reg.fabStat, Reg.fabTimeStat, Reg.logEvt, Reg.secEvt, Reg.sysAddr, Reg.sysCfg, Reg.sysCfgSeqHi, Reg.sysCfgSeqLo, Reg.sysRefuse, Reg.sysStat] ++ regs1 8 Reg.fabLkStat) t) ∧
    (∀ (s t : State), exec .engineRelease s = .next t → s.regsBut ([Reg.ctlEvt, Reg.ctlStat, Reg.ctlTsStat, Reg.fabEvt, Reg.fabStat, Reg.fabTimeRate, Reg.fabTimeStat, Reg.logEvt, Reg.mtrStat, Reg.parKnown, Reg.parStat, Reg.pwrStat, Reg.rtcSlew, Reg.rtcStat, Reg.rtcVbak, Reg.sysStartA, Reg.sysStartB, Reg.sysStat, Reg.tteCycle, Reg.tteMajor, Reg.tteStat] ++ regs1 128 Reg.ctlLpStat ++ regs1 7 Reg.parHbTx ++ regs1 16 Reg.parSbStat ++ regs1 6 Reg.pwrAgLedger ++ regs1 6 Reg.pwrAgWait ++ regs1 8 Reg.rtcAlmStat) t) ∧
    (∀ (s t : State), exec .staggerEnd s = .next t → s.regsBut ([Reg.logEvt, Reg.pwrStat, Reg.sysStat]) t) ∧
    (∀ (s t : State), exec .fieldIslandPowerUp s = .next t → s.regsBut ([Reg.pwrStat] ++ regs1 6 Reg.pwrAgLedger ++ regs1 6 Reg.pwrAgWait) t) ∧
    (∀ (s t : State), exec .outPermit s = .next t → s.regsBut ([Reg.logEvt, Reg.sysStartB, Reg.sysStat]) t) ∧
    (∀ (s t : State), exec .startAbandon s = .next t → s.regsBut ([Reg.logEvt, Reg.sysStat]) t) ∧
    (∀ (path : Fin 4096) (s t : State), exec (.pathStart path) s = .next t → s.regsBut ([Reg.logEvt, Reg.tteDedAddr, Reg.tteEccStat] ++ regs1 6 (fun n => Reg.tteEccCode + 4 * n)) t) ∧
    (∀ (vin : BitVec 16) (s t : State), exec (.inputBelowPfd vin) s = .next t → s.regsBut ([Reg.logEvt, Reg.pwrCheck, Reg.pwrEvt, Reg.pwrStat, Reg.pwrVin]) t) ∧
    (∀ (low : BitVec 16) (us : BitVec 32) (s t : State), exec (.dip low us) s = .next t → s.regsBut ([Reg.logEvt, Reg.pwrDips, Reg.pwrEvt]) t) ∧
    (∀ (vin : BitVec 16) (s t : State), exec (.powerFailDetection vin) s = .next t → s.regsBut ([Reg.lcdBadwords, Reg.lcdStat, Reg.logEvt, Reg.mtrStat, Reg.pwrStat, Reg.pwrVin, Reg.sysStat, Reg.tteStat, Reg.tteXsum] ++ regs2 12 48 Reg.canChMbId ++ regs1 12 Reg.canChStat ++ regs1 4 Reg.lcdPStat ++ regs1 4 Reg.lcdPTemp ++ regs1 12 Reg.macPStat) t) ∧
    (∀ (s t : State), exec .lastTrainSwitch s = .next t → s.regsBut ([Reg.sysStat, Reg.tteStat]) t) ∧
    (∀ (path : Fin 4096) (s t : State), exec (.lastTrainPathStart path) s = .next t → s.regsBut ([Reg.logEvt, Reg.tteDedAddr, Reg.tteEccStat] ++ regs1 6 (fun n => Reg.tteEccCode + 4 * n)) t) ∧
    (∀ (s t : State), exec .lastTrainEnd s = .next t → s.regsBut ([Reg.logEvt, Reg.sysStat, Reg.tteStat]) t) ∧
    (∀ (s t : State), exec .bankExhausted s = .next t → s.regsBut ([Reg.sysRstcause]) t) ∧
    (∀ (vbank : BitVec 16) (s t : State), exec (.eavailUpdate vbank) s = .next t → s.regsBut ([Reg.pwrEavail, Reg.pwrVbank]) t) ∧
    (∀ (v1 : BitVec 20) (s t : State), exec (.startCheck v1) s = .next t → s.regsBut ([Reg.pwrStat]) t) ∧
    (∀ (v1 : BitVec 20) (s t : State), exec (.dailyCheck v1) s = .next t → s.regsBut ([Reg.pwrStat]) t) ∧
    (∀ (v2 : BitVec 20) (s t : State), exec (.checkComplete v2) s = .next t → s.regsBut ([Reg.logEvt, Reg.pwrCbank, Reg.pwrCheck, Reg.pwrEhold, Reg.pwrEreqCore, Reg.pwrEreqFull, Reg.pwrEvt, Reg.pwrStat]) t) ∧
    (∀ (vin : BitVec 16) (s t : State), exec (.inputRise vin) s = .next t → s.regsBut ([Reg.pwrStat, Reg.pwrVin]) t) ∧
    (∀ (vin : BitVec 16) (s t : State), exec (.vInOutsideOperatingRange vin) s = .next t → s.regsBut ([Reg.logEvt, Reg.pwrEvt, Reg.pwrStat, Reg.pwrVin]) t) ∧
    (∀ (m : Master) (w : Word) (s t : State), exec (.mtrCalholdWrite m w) s = .next t → s.regsBut ([Reg.logEvt, Reg.mtrCalhold, Reg.mtrEvt]) t) ∧
    (∀ (w : Word) (s t : State), exec (.wcArm w) s = .next t → s.regsBut ([Reg.logEvt, Reg.mtrEvt, Reg.mtrWcCtrl, Reg.mtrWcStat]) t) ∧
    (∀ (count : BitVec 13) (s t : State), exec (.testRun count) s = .next t → s.regsBut ([Reg.ctlEvt, Reg.ctlStat, Reg.ctlTsCtrl, Reg.ctlTsStat, Reg.logEvt] ++ regs1 128 Reg.ctlLpStat) t) ∧
    (∀ (s t : State), exec .testStop s = .next t → s.regsBut ([Reg.ctlEvt, Reg.ctlStat, Reg.ctlTsCtrl, Reg.ctlTsStat, Reg.logEvt] ++ regs1 128 Reg.ctlLpStat) t) ∧
    (∀ (m : Master) (w : Word) (s t : State), exec (.parLeaseWrite m w) s = .next t → s.regsBut ([Reg.ctlEvt, Reg.ctlStat, Reg.ctlTsStat, Reg.logEvt, Reg.parKnown, Reg.parLease, Reg.parStat] ++ regs1 128 Reg.ctlLpStat ++ regs1 16 Reg.parSbStat ++ regs1 6 Reg.pwrAgLedger ++ regs1 6 Reg.pwrAgWait) t) ∧
    (∀ (m : Master) (w : Word) (s t : State), exec (.parGateWrite m w) s = .next t → s.regsBut ([Reg.ctlEvt, Reg.ctlStat, Reg.ctlTsStat, Reg.logEvt, Reg.parGate, Reg.parKnown, Reg.parStat] ++ regs1 128 Reg.ctlLpStat ++ regs1 16 Reg.parSbStat ++ regs1 6 Reg.pwrAgLedger ++ regs1 6 Reg.pwrAgWait) t) ∧
    (∀ (s t : State), exec .leaseExpiry s = .next t → s.regsBut ([Reg.ctlEvt, Reg.ctlStat, Reg.ctlTsStat, Reg.logEvt, Reg.parKnown, Reg.parLease, Reg.parStat] ++ regs1 128 Reg.ctlLpStat ++ regs1 16 Reg.parSbStat ++ regs1 6 Reg.pwrAgLedger ++ regs1 6 Reg.pwrAgWait) t)

/-- Commands of the field islands, the metering island and paths, the loops, points and stations. For each command named
here, in every state and with every operand: where the command answers a next state, every register of the register
space reads as before but those at the listed addresses, which are the registers the rules let the command or the log
record it writes change. -/
def Obligations.FieldAndControlRegisterFrames : Prop :=
    (∀ (island : Fin 25) (offset : BitVec 17) (meas : List (BitVec 16)) (limits : BitVec 4) (s t : State), exec (.sampleInstant island offset meas limits) s = .next t → s.regsBut ([Reg.logEvt, Reg.tteXsum]) t) ∧
    (∀ (n : Fin 16000) (secs : BitVec 16) (bits : List (BitVec 1250)) (s t : State), exec (.meteringSample n secs bits) s = .next t → s.regsBut ([Reg.logEvt, Reg.queEvt, Reg.tteXsum] ++ regs1 12 Reg.canChEvt ++ regs1 12 Reg.canChStat ++ regs1 12 Reg.macPEvt ++ regs1 12 Reg.macPStat ++ regs1 64 Reg.queQCnt ++ regs1 64 Reg.queQLevel ++ regs1 64 Reg.queQStat) t) ∧
    (∀ (s t : State), exec .intervalClose s = .next t → s.regsBut ([Reg.logEvt, Reg.mtrEvt, Reg.mtrFstat, Reg.mtrGaps, Reg.mtrOvr, Reg.mtrStartGap, Reg.mtrStat, Reg.mtrStuck, Reg.mtrWcStat, Reg.queEvt, Reg.tteDedAddr, Reg.tteEccStat, Reg.tteFpPath, Reg.tteFpStat, Reg.tteXsum] ++ regs1 12 Reg.canChEvt ++ regs1 12 Reg.canChStat ++ regs1 12 Reg.macPEvt ++ regs1 12 Reg.macPStat ++ regs2 8 3 Reg.mtrCPIrms ++ regs2 8 3 Reg.mtrCPP ++ regs2 8 3 Reg.mtrCPPf ++ regs2 8 3 Reg.mtrCPQ ++ regs2 8 3 Reg.mtrCPS ++ regs2 8 3 Reg.mtrCPVrms ++ regs1 8 Reg.mtrCPftot ++ regs1 8 Reg.mtrCPtot ++ regs1 8 Reg.mtrCQtot ++ regs1 8 Reg.mtrCStot ++ regs1 8 Reg.mtrCirIcount ++ regs1 8 Reg.mtrCirStat ++ regs2 8 9 Reg.mtrFrac ++ regs2 8 9 Reg.mtrQk ++ regs2 8 3 Reg.mtrQw ++ regs1 8 Reg.mtrS0Emit ++ regs1 8 Reg.mtrS0Lag ++ regs2 8 9 Reg.mtrTotHi ++ regs2 8 9 Reg.mtrTotLo ++ regs1 64 Reg.queQCnt ++ regs1 64 Reg.queQDed ++ regs1 64 Reg.queQLevel ++ regs1 64 Reg.queQStat ++ regs1 6 (fun n => Reg.tteEccCode + 4 * n)) t) ∧
    (∀ (s t : State), exec .partialIntervalClose s = .next t → s.regsBut ([Reg.logEvt, Reg.mtrEvt, Reg.mtrFstat, Reg.mtrGaps, Reg.mtrOvr, Reg.mtrStartGap, Reg.mtrStat, Reg.mtrStuck, Reg.mtrWcStat, Reg.queEvt, Reg.tteDedAddr, Reg.tteEccStat, Reg.tteFpPath, Reg.tteFpStat, Reg.tteXsum] ++ regs1 12 Reg.canChEvt ++ regs1 12 Reg.canChStat ++ regs1 12 Reg.macPEvt ++ regs1 12 Reg.macPStat ++ regs2 8 3 Reg.mtrCPIrms ++ regs2 8 3 Reg.mtrCPP ++ regs2 8 3 Reg.mtrCPPf ++ regs2 8 3 Reg.mtrCPQ ++ regs2 8 3 Reg.mtrCPS ++ regs2 8 3 Reg.mtrCPVrms ++ regs1 8 Reg.mtrCPftot ++ regs1 8 Reg.mtrCPtot ++ regs1 8 Reg.mtrCQtot ++ regs1 8 Reg.mtrCStot ++ regs1 8 Reg.mtrCirIcount ++ regs1 8 Reg.mtrCirStat ++ regs2 8 9 Reg.mtrFrac ++ regs2 8 9 Reg.mtrQk ++ regs2 8 3 Reg.mtrQw ++ regs1 8 Reg.mtrS0Emit ++ regs1 8 Reg.mtrS0Lag ++ regs2 8 9 Reg.mtrTotHi ++ regs2 8 9 Reg.mtrTotLo ++ regs1 64 Reg.queQCnt ++ regs1 64 Reg.queQDed ++ regs1 64 Reg.queQLevel ++ regs1 64 Reg.queQStat ++ regs1 6 (fun n => Reg.tteEccCode + 4 * n)) t) ∧
    (∀ (ok : Bool) (s t : State), exec (.meteringCommitDone ok) s = .next t → s.regsBut ([Reg.logEvt, Reg.mtrEvt, Reg.mtrFseqHi, Reg.mtrFseqLo, Reg.mtrFstat, Reg.tteXsum]) t) ∧
    (∀ (setB : Bool) (s t : State), exec (.harmonicWindow setB) s = .next t → s.regsBut ([Reg.logEvt, Reg.mtrEvt, Reg.mtrFreqa, Reg.mtrFreqb, Reg.mtrHaStat, Reg.queEvt, Reg.tteXsum] ++ regs1 12 Reg.canChEvt ++ regs1 12 Reg.canChStat ++ regs1 12 Reg.macPEvt ++ regs1 12 Reg.macPStat ++ regs1 8 Reg.mtrCirStat ++ regs1 64 Reg.queQCnt ++ regs1 64 Reg.queQLevel ++ regs1 64 Reg.queQStat) t) ∧
    (∀ (s t : State), exec .captureSample s = .next t → s.regsBut ([Reg.logEvt, Reg.mtrEvt, Reg.mtrWcCtrl, Reg.mtrWcStat, Reg.queEvt, Reg.tteXsum] ++ regs1 12 Reg.canChEvt ++ regs1 12 Reg.canChStat ++ regs1 12 Reg.macPEvt ++ regs1 12 Reg.macPStat ++ regs1 64 Reg.queQCnt ++ regs1 64 Reg.queQLevel ++ regs1 64 Reg.queQStat) t) ∧
    (∀ (n : Fin 128) (cycle : BitVec 17) (s t : State), exec (.loopAttempt n cycle) s = .next t → s.regsBut ([Reg.ctlEvt, Reg.ctlFfwStat, Reg.ctlStat, Reg.ctlTsStat, Reg.logEvt, Reg.queEvt, Reg.tteFpPath, Reg.tteFpStat, Reg.tteXsum] ++ regs1 12 Reg.canChEvt ++ regs1 12 Reg.canChStat ++ regs1 128 Reg.ctlLpCount ++ regs1 128 Reg.ctlLpDt ++ regs1 128 Reg.ctlLpErr ++ regs1 128 Reg.ctlLpEvt ++ regs1 128 Reg.ctlLpI ++ regs1 128 Reg.ctlLpMisses ++ regs1 128 Reg.ctlLpOut ++ regs1 128 Reg.ctlLpPv ++ regs1 128 Reg.ctlLpStat ++ regs1 4 Reg.ctlLpstale ++ regs1 12 Reg.macPEvt ++ regs1 12 Reg.macPStat ++ regs1 64 Reg.queQCnt ++ regs1 64 Reg.queQLevel ++ regs1 64 Reg.queQStat) t) ∧
    (∀ (s t : State), exec .ffwWrite s = .next t → s.regsBut ([Reg.ctlFfwStat]) t) ∧
    (∀ (p : Fin 4096) (valid : Bool) (v : Word) (ts : BitVec 64) (src : PtSource) (chan : Option (BitVec 8)) (s t : State), exec (.pointRefresh p valid v ts src chan) s = .next t → s.regsBut ([Reg.ctlEvt, Reg.logEvt]) t) ∧
    (∀ (s t : State), exec .stationCheck s = .next t → s.regsBut ([Reg.ctlEvt, Reg.ctlStat, Reg.logEvt] ++ regs1 64 Reg.ctlStaStat ++ regs1 8 Reg.tteArm) t)

/-- Commands of the links, cells, routes, parcels, the pair and the signal box. For each command named here, in every
state and with every operand: where the command answers a next state, every register of the register space reads as
before but those at the listed addresses, which are the registers the rules let the command or the log record it
writes change. -/
def Obligations.FabricAndPairRegisterFrames : Prop :=
    (∀ (l : Fin 8) (s t : State), exec (.linkSignalPresent l) s = .next t → s.regsBut ([Reg.fabEvt, Reg.fabStat, Reg.logEvt, Reg.sysAddr, Reg.tteXsum] ++ regs1 8 Reg.fabLkStat) t) ∧
    (∀ (l : Fin 9) (swap inverted : Bool) (s t : State), exec (.symbolsAligned l swap inverted) s = .next t → s.regsBut ([Reg.fabEvt, Reg.fabStat, Reg.logEvt, Reg.sysAddr, Reg.tteXsum] ++ regs1 8 Reg.fabLkStat) t) ∧
    (∀ (l : Fin 8) (s t : State), exec (.linkLoss l) s = .next t → s.regsBut ([Reg.fabEvt, Reg.fabStat, Reg.logEvt, Reg.sysAddr, Reg.tteXsum] ++ regs1 8 Reg.fabLkStat) t) ∧
    (∀ (l : Fin 8) (addr : BitVec 16) (nlink : BitVec 8) (expAddr : BitVec 16) (expLink : BitVec 8) (hash : BitVec 64) (stratum : BitVec 8) (s t : State), exec (.position l addr nlink expAddr expLink hash stratum) s = .next t → s.regsBut ([Reg.fabEvt, Reg.fabStat, Reg.logEvt, Reg.sysAddr] ++ regs1 8 Reg.fabLkQuar ++ regs1 8 Reg.fabLkStat) t) ∧
    (∀ (l : Fin 8) (s t : State), exec (.probationClean l) s = .next t → s.regsBut ([Reg.fabEvt, Reg.fabStat, Reg.logEvt, Reg.sysAddr] ++ regs1 8 Reg.fabLkStat) t) ∧
    (∀ (l : Fin 8) (slot : Fin 128) (ts : BitVec 64) (ws : List Word) (s t : State), exec (.cellReceive l slot ts ws) s = .next t → s.regsBut ([Reg.fabEvt, Reg.fabStat, Reg.logEvt, Reg.queEvt, Reg.sysAddr, Reg.tteXsum] ++ regs1 12 Reg.canChEvt ++ regs1 12 Reg.canChStat ++ regs1 8 Reg.fabLkDrop ++ regs1 8 Reg.fabLkErr0 ++ regs1 8 Reg.fabLkErr1 ++ regs1 8 Reg.fabLkQuar ++ regs1 8 Reg.fabLkRx ++ regs1 8 Reg.fabLkStat ++ regs1 8 Reg.fabLkViol ++ regs1 12 Reg.macPEvt ++ regs1 12 Reg.macPStat ++ regs1 64 Reg.queQCnt ++ regs1 64 Reg.queQLevel ++ regs1 64 Reg.queQStat) t) ∧
    (∀ (l : Fin 8) (slot : Fin 96) (s t : State), exec (.slotStart l slot) s = .next t → s.regsBut ([Reg.fabEvt, Reg.logEvt, Reg.queEvt, Reg.tteDedAddr, Reg.tteEccStat, Reg.tteXsum] ++ regs1 12 Reg.canChEvt ++ regs1 12 Reg.canChStat ++ regs1 8 Reg.fabLkDrop ++ regs1 8 Reg.fabLkTx ++ regs1 12 Reg.macPEvt ++ regs1 12 Reg.macPStat ++ regs1 64 Reg.queQDed ++ regs1 64 Reg.queQLevel ++ regs1 64 Reg.queQStat ++ regs1 6 (fun n => Reg.tteEccCode + 4 * n)) t) ∧
    (∀ (l : Fin 8) (s t : State), exec (.identityPositionSend l) s = .next t → s.regsBut ([Reg.logEvt, Reg.queEvt, Reg.tteXsum] ++ regs1 12 Reg.canChEvt ++ regs1 12 Reg.canChStat ++ regs1 8 Reg.fabLkTx ++ regs1 12 Reg.macPEvt ++ regs1 12 Reg.macPStat ++ regs1 64 Reg.queQCnt ++ regs1 64 Reg.queQLevel ++ regs1 64 Reg.queQStat) t) ∧
    (∀ (l : Fin 8) (s t : State), exec (.timeCellSendBeforeRelease l) s = .next t → s.regsBut ([Reg.logEvt, Reg.tteXsum] ++ regs1 8 Reg.fabLkTx) t) ∧
    (∀ (l : Fin 8) (t1 t2 t3 t4 : BitVec 64) (stratum : BitVec 8) (s t : State), exec (.timeExchange l t1 t2 t3 t4 stratum) s = .next t → s.regsBut ([Reg.fabEvt, Reg.fabStat, Reg.fabTimeHold, Reg.fabTimeOffset, Reg.fabTimeRate, Reg.fabTimeStat, Reg.logEvt, Reg.sysAddr] ++ regs1 8 Reg.fabLkDelay ++ regs1 8 Reg.fabLkOffset ++ regs1 8 Reg.fabLkQuar ++ regs1 8 Reg.fabLkStat) t) ∧
    (∀ (s t : State), exec .holdover s = .next t → s.regsBut ([Reg.fabEvt, Reg.fabStat, Reg.fabTimeRate, Reg.fabTimeStat, Reg.logEvt]) t) ∧
    (∀ (arrival : Option (Fin 8)) (ws : List Word) (s t : State), exec (.routeCell arrival ws) s = .next t → s.regsBut ([Reg.fabDetours, Reg.fabEvt, Reg.fabRouteStat, Reg.fabStat, Reg.logEvt, Reg.queEvt, Reg.sysAddr, Reg.tteXsum] ++ regs1 12 Reg.canChEvt ++ regs1 12 Reg.canChStat ++ regs1 8 Reg.fabLkErr1 ++ regs1 8 Reg.fabLkQuar ++ regs1 8 Reg.fabLkStat ++ regs1 8 Reg.fabLkViol ++ regs1 12 Reg.macPEvt ++ regs1 12 Reg.macPStat ++ regs1 64 Reg.queQCnt ++ regs1 64 Reg.queQLevel ++ regs1 64 Reg.queQStat) t) ∧
    (∀ (s t : State), exec .statusReport s = .next t → s.regsBut ([Reg.fabDetours, Reg.fabEvt, Reg.fabRouteStat, Reg.fabStat, Reg.fabStatus, Reg.logEvt, Reg.queEvt, Reg.sysAddr, Reg.tteXsum] ++ regs1 12 Reg.canChEvt ++ regs1 12 Reg.canChStat ++ regs1 8 Reg.fabLkErr1 ++ regs1 8 Reg.fabLkQuar ++ regs1 8 Reg.fabLkStat ++ regs1 8 Reg.fabLkViol ++ regs1 12 Reg.macPEvt ++ regs1 12 Reg.macPStat ++ regs1 64 Reg.queQCnt ++ regs1 64 Reg.queQLevel ++ regs1 64 Reg.queQStat) t) ∧
    (∀ (arrival : Option (Fin 8)) (ws : List Word) (s t : State), exec (.faultReport arrival ws) s = .next t → s.regsBut ([Reg.fabCoalCnt, Reg.fabCoalStat, Reg.fabDetours, Reg.fabEvt, Reg.fabRouteStat, Reg.fabStat, Reg.logEvt, Reg.queEvt, Reg.sysAddr, Reg.tteXsum] ++ regs1 12 Reg.canChEvt ++ regs1 12 Reg.canChStat ++ regs1 8 Reg.fabLkErr1 ++ regs1 8 Reg.fabLkQuar ++ regs1 8 Reg.fabLkStat ++ regs1 8 Reg.fabLkViol ++ regs1 12 Reg.macPEvt ++ regs1 12 Reg.macPStat ++ regs1 64 Reg.queQCnt ++ regs1 64 Reg.queQLevel ++ regs1 64 Reg.queQStat) t) ∧
    (∀ (s t : State), exec .coalesceFlush s = .next t → s.regsBut ([Reg.fabCoalCnt, Reg.fabCoalStat, Reg.fabDetours, Reg.fabEvt, Reg.fabRouteStat, Reg.fabStat, Reg.logEvt, Reg.queEvt, Reg.sysAddr, Reg.tteXsum] ++ regs1 12 Reg.canChEvt ++ regs1 12 Reg.canChStat ++ regs1 8 Reg.fabLkErr1 ++ regs1 8 Reg.fabLkQuar ++ regs1 8 Reg.fabLkStat ++ regs1 8 Reg.fabLkViol ++ regs1 12 Reg.macPEvt ++ regs1 12 Reg.macPStat ++ regs1 64 Reg.queQCnt ++ regs1 64 Reg.queQLevel ++ regs1 64 Reg.queQStat) t) ∧
    (∀ (s t : State), exec .tagRequest s = .next t → s.regsBut ([Reg.fabEvt, Reg.fabStat, Reg.fabTnStat, Reg.logEvt, Reg.queEvt, Reg.tteDedAddr, Reg.tteEccStat, Reg.tteXsum] ++ regs1 12 Reg.canChEvt ++ regs1 12 Reg.canChStat ++ regs1 12 Reg.macPEvt ++ regs1 12 Reg.macPStat ++ regs1 64 Reg.queQCnt ++ regs1 64 Reg.queQDed ++ regs1 64 Reg.queQLevel ++ regs1 64 Reg.queQStat ++ regs1 6 (fun n => Reg.tteEccCode + 4 * n)) t) ∧
    (∀ (ws : List Word) (s t : State), exec (.tenantQuery ws) s = .next t → s.regsBut ([Reg.fabDetours, Reg.fabEvt, Reg.fabRouteStat, Reg.fabStat, Reg.fabTnStat, Reg.logEvt, Reg.queEvt, Reg.sysAddr, Reg.tteXsum] ++ regs1 12 Reg.canChEvt ++ regs1 12 Reg.canChStat ++ regs1 8 Reg.fabLkErr1 ++ regs1 8 Reg.fabLkQuar ++ regs1 8 Reg.fabLkStat ++ regs1 8 Reg.fabLkViol ++ regs1 12 Reg.macPEvt ++ regs1 12 Reg.macPStat ++ regs1 64 Reg.queQCnt ++ regs1 64 Reg.queQLevel ++ regs1 64 Reg.queQStat) t) ∧
    (∀ (l : Fin 8) (s t : State), exec (.rraRead l) s = .next t → s.regsBut ([Reg.fabEvt, Reg.fabRraStat, Reg.logEvt, Reg.queEvt, Reg.tteDedAddr, Reg.tteEccStat, Reg.tteXsum] ++ regs1 12 Reg.canChEvt ++ regs1 12 Reg.canChStat ++ regs1 8 Reg.fabLkDrop ++ regs1 12 Reg.macPEvt ++ regs1 12 Reg.macPStat ++ regs1 64 Reg.queQCnt ++ regs1 64 Reg.queQDed ++ regs1 64 Reg.queQLevel ++ regs1 64 Reg.queQStat ++ regs1 6 (fun n => Reg.tteEccCode + 4 * n)) t) ∧
    (∀ (src : Option (Fin 8)) (ws : List Word) (s t : State), exec (.parcel src ws) s = .next t → s.regsBut ([Reg.fabEvt, Reg.fabParcelStat, Reg.logEvt, Reg.queEvt, Reg.secCounterHi, Reg.secCounterLo, Reg.secEpoch, Reg.secEvt, Reg.secFloorHi, Reg.secFloorLo, Reg.secSlotaSeqHi, Reg.secSlotaSeqLo, Reg.secSlotbSeqHi, Reg.secSlotbSeqLo, Reg.secSlots, Reg.secStat, Reg.secTrial, Reg.secXfer, Reg.secXferStat, Reg.tteXsum] ++ regs1 12 Reg.canChEvt ++ regs1 12 Reg.canChStat ++ regs1 12 Reg.macPEvt ++ regs1 12 Reg.macPStat ++ regs1 64 Reg.queQCnt ++ regs1 64 Reg.queQLevel ++ regs1 64 Reg.queQStat) t) ∧
    (∀ (chunk : BitVec 16) (s t : State), exec (.chunkStored chunk) s = .next t → s.regsBut ([Reg.fabParcelStat, Reg.logEvt, Reg.queEvt, Reg.secCounterHi, Reg.secCounterLo, Reg.secEpoch, Reg.secEvt, Reg.secFloorHi, Reg.secFloorLo, Reg.secSlotaSeqHi, Reg.secSlotaSeqLo, Reg.secSlotbSeqHi, Reg.secSlotbSeqLo, Reg.secSlots, Reg.secStat, Reg.secTrial, Reg.secXfer, Reg.secXferStat, Reg.tteXsum] ++ regs1 12 Reg.canChEvt ++ regs1 12 Reg.canChStat ++ regs1 12 Reg.macPEvt ++ regs1 12 Reg.macPStat ++ regs1 64 Reg.queQCnt ++ regs1 64 Reg.queQLevel ++ regs1 64 Reg.queQStat) t) ∧
    (∀ (l : Fin 8) (id : Word) (chunk : BitVec 16) (status : BitVec 8) (s t : State), exec (.parcelAck l id chunk status) s = .next t → s.regsBut ([Reg.fabParcelStat, Reg.logEvt, Reg.queEvt, Reg.secCounterHi, Reg.secCounterLo, Reg.secEpoch, Reg.secEvt, Reg.secFloorHi, Reg.secFloorLo, Reg.secSlotaSeqHi, Reg.secSlotaSeqLo, Reg.secSlotbSeqHi, Reg.secSlotbSeqLo, Reg.secSlots, Reg.secStat, Reg.secTrial, Reg.secXfer, Reg.secXferStat, Reg.tteXsum] ++ regs1 12 Reg.canChEvt ++ regs1 12 Reg.canChStat ++ regs1 12 Reg.macPEvt ++ regs1 12 Reg.macPStat ++ regs1 64 Reg.queQCnt ++ regs1 64 Reg.queQLevel ++ regs1 64 Reg.queQStat) t) ∧
    (∀ (l : Fin 8) (id : Word) (chunk : BitVec 16) (status : BitVec 8) (first count : BitVec 16) (s t : State), exec (.parcelNack l id chunk status first count) s = .next t → s.regsBut ([Reg.fabEvt, Reg.fabParcelStat, Reg.logEvt, Reg.queEvt, Reg.secCounterHi, Reg.secCounterLo, Reg.secEpoch, Reg.secEvt, Reg.secFloorHi, Reg.secFloorLo, Reg.secSlotaSeqHi, Reg.secSlotaSeqLo, Reg.secSlotbSeqHi, Reg.secSlotbSeqLo, Reg.secSlots, Reg.secStat, Reg.secTrial, Reg.secXfer, Reg.secXferStat, Reg.tteXsum] ++ regs1 12 Reg.canChEvt ++ regs1 12 Reg.canChStat ++ regs1 12 Reg.macPEvt ++ regs1 12 Reg.macPStat ++ regs1 64 Reg.queQCnt ++ regs1 64 Reg.queQLevel ++ regs1 64 Reg.queQStat) t) ∧
    (∀ (chunk : BitVec 16) (s t : State), exec (.parcelGapTimeout chunk) s = .next t → s.regsBut ([Reg.fabEvt, Reg.fabParcelStat, Reg.logEvt, Reg.queEvt, Reg.secCounterHi, Reg.secCounterLo, Reg.secEpoch, Reg.secEvt, Reg.secFloorHi, Reg.secFloorLo, Reg.secSlotaSeqHi, Reg.secSlotaSeqLo, Reg.secSlotbSeqHi, Reg.secSlotbSeqLo, Reg.secSlots, Reg.secStat, Reg.secTrial, Reg.secXfer, Reg.secXferStat, Reg.tteXsum] ++ regs1 12 Reg.canChEvt ++ regs1 12 Reg.canChStat ++ regs1 12 Reg.macPEvt ++ regs1 12 Reg.macPStat ++ regs1 64 Reg.queQCnt ++ regs1 64 Reg.queQLevel ++ regs1 64 Reg.queQStat) t) ∧
    (∀ (s t : State), exec .transferTimeout s = .next t → s.regsBut ([Reg.fabParcelStat, Reg.secCounterHi, Reg.secCounterLo, Reg.secEpoch, Reg.secEvt, Reg.secFloorHi, Reg.secFloorLo, Reg.secSlotaSeqHi, Reg.secSlotaSeqLo, Reg.secSlotbSeqHi, Reg.secSlotbSeqLo, Reg.secSlots, Reg.secStat, Reg.secTrial, Reg.secXfer, Reg.secXferStat]) t) ∧
    (∀ (s t : State), exec .heartbeatSend s = .next t → s.regsBut ([Reg.ctlEvt, Reg.ctlStat, Reg.ctlTsStat, Reg.logEvt, Reg.parHbAge, Reg.parKnown, Reg.parStat] ++ regs1 128 Reg.ctlLpStat ++ regs1 7 Reg.parHbTx ++ regs1 16 Reg.parSbStat ++ regs1 6 Reg.pwrAgLedger ++ regs1 6 Reg.pwrAgWait) t) ∧
    (∀ (overFabric : Bool) (ws : List Word) (s t : State), exec (.heartbeatReceive overFabric ws) s = .next t → s.regsBut ([Reg.ctlEvt, Reg.ctlStat, Reg.ctlTsStat, Reg.logEvt, Reg.parCnt, Reg.parEvt, Reg.parHbAge, Reg.parKnown, Reg.parLease, Reg.parStat] ++ regs1 128 Reg.ctlLpStat ++ regs1 8 Reg.parHbRx ++ regs1 7 Reg.parHbTx ++ regs1 16 Reg.parSbStat ++ regs1 6 Reg.pwrAgLedger ++ regs1 6 Reg.pwrAgWait) t) ∧
    (∀ (s t : State), exec .fabricHeartbeat s = .next t → s.regsBut ([Reg.ctlEvt, Reg.ctlStat, Reg.ctlTsStat, Reg.fabDetours, Reg.fabEvt, Reg.fabRouteStat, Reg.fabStat, Reg.logEvt, Reg.parKnown, Reg.parStat, Reg.queEvt, Reg.sysAddr, Reg.tteXsum] ++ regs1 12 Reg.canChEvt ++ regs1 12 Reg.canChStat ++ regs1 128 Reg.ctlLpStat ++ regs1 8 Reg.fabLkErr1 ++ regs1 8 Reg.fabLkQuar ++ regs1 8 Reg.fabLkStat ++ regs1 8 Reg.fabLkViol ++ regs1 12 Reg.macPEvt ++ regs1 12 Reg.macPStat ++ regs1 16 Reg.parSbStat ++ regs1 6 Reg.pwrAgLedger ++ regs1 6 Reg.pwrAgWait ++ regs1 64 Reg.queQCnt ++ regs1 64 Reg.queQLevel ++ regs1 64 Reg.queQStat) t) ∧
    (∀ (onFabric : Bool) (s t : State), exec (.pathLost onFabric) s = .next t → s.regsBut ([Reg.ctlEvt, Reg.ctlStat, Reg.ctlTsStat, Reg.fabCoalCnt, Reg.fabCoalStat, Reg.fabDetours, Reg.fabEvt, Reg.fabRouteStat, Reg.fabStat, Reg.logEvt, Reg.parEvt, Reg.parKnown, Reg.parStat, Reg.queEvt, Reg.sysAddr, Reg.tteXsum] ++ regs1 12 Reg.canChEvt ++ regs1 12 Reg.canChStat ++ regs1 128 Reg.ctlLpStat ++ regs1 8 Reg.fabLkErr1 ++ regs1 8 Reg.fabLkQuar ++ regs1 8 Reg.fabLkStat ++ regs1 8 Reg.fabLkViol ++ regs1 12 Reg.macPEvt ++ regs1 12 Reg.macPStat ++ regs1 16 Reg.parSbStat ++ regs1 6 Reg.pwrAgLedger ++ regs1 6 Reg.pwrAgWait ++ regs1 64 Reg.queQCnt ++ regs1 64 Reg.queQLevel ++ regs1 64 Reg.queQStat) t) ∧
    (∀ (answered : Bool) (cycle : BitVec 17) (s t : State), exec (.leaseRequest answered cycle) s = .next t → s.regsBut ([Reg.ctlEvt, Reg.ctlStat, Reg.ctlTsStat, Reg.fabDetours, Reg.fabEvt, Reg.fabRouteStat, Reg.fabStat, Reg.logEvt, Reg.parKnown, Reg.parStat, Reg.queEvt, Reg.sysAddr, Reg.tteXsum] ++ regs1 12 Reg.canChEvt ++ regs1 12 Reg.canChStat ++ regs1 128 Reg.ctlLpStat ++ regs1 8 Reg.fabLkErr1 ++ regs1 8 Reg.fabLkQuar ++ regs1 8 Reg.fabLkStat ++ regs1 8 Reg.fabLkViol ++ regs1 12 Reg.macPEvt ++ regs1 12 Reg.macPStat ++ regs1 7 Reg.parHbTx ++ regs1 16 Reg.parSbStat ++ regs1 6 Reg.pwrAgLedger ++ regs1 6 Reg.pwrAgWait ++ regs1 64 Reg.queQCnt ++ regs1 64 Reg.queQLevel ++ regs1 64 Reg.queQStat) t) ∧
    (∀ (req : BitVec 16) (cycle : BitVec 17) (fromBox : Bool) (s t : State), exec (.parGrant req cycle fromBox) s = .next t → s.regsBut ([Reg.ctlEvt, Reg.ctlStat, Reg.ctlTsStat, Reg.logEvt, Reg.parKnown, Reg.parLease, Reg.parStat] ++ regs1 128 Reg.ctlLpStat ++ regs1 16 Reg.parSbStat ++ regs1 6 Reg.pwrAgLedger ++ regs1 6 Reg.pwrAgWait) t) ∧
    (∀ (answered : Bool) (s t : State), exec (.parProbe answered) s = .next t → s.regsBut ([Reg.ctlEvt, Reg.ctlStat, Reg.ctlTsStat, Reg.fabDetours, Reg.fabEvt, Reg.fabRouteStat, Reg.fabStat, Reg.logEvt, Reg.parKnown, Reg.parStat, Reg.queEvt, Reg.sysAddr, Reg.tteXsum] ++ regs1 12 Reg.canChEvt ++ regs1 12 Reg.canChStat ++ regs1 128 Reg.ctlLpStat ++ regs1 8 Reg.fabLkErr1 ++ regs1 8 Reg.fabLkQuar ++ regs1 8 Reg.fabLkStat ++ regs1 8 Reg.fabLkViol ++ regs1 12 Reg.macPEvt ++ regs1 12 Reg.macPStat ++ regs1 16 Reg.parSbStat ++ regs1 6 Reg.pwrAgLedger ++ regs1 6 Reg.pwrAgWait ++ regs1 64 Reg.queQCnt ++ regs1 64 Reg.queQLevel ++ regs1 64 Reg.queQStat) t) ∧
    (∀ (s t : State), exec .sbLost s = .next t → s.regsBut ([Reg.ctlEvt, Reg.ctlStat, Reg.ctlTsStat, Reg.logEvt, Reg.parEvt, Reg.parKnown, Reg.parStat] ++ regs1 128 Reg.ctlLpStat ++ regs1 16 Reg.parSbStat ++ regs1 6 Reg.pwrAgLedger ++ regs1 6 Reg.pwrAgWait) t) ∧
    (∀ (s t : State), exec .pairStateChange s = .next t → s.regsBut ([Reg.ctlEvt, Reg.ctlStat, Reg.ctlTsStat, Reg.fabCoalCnt, Reg.fabCoalStat, Reg.fabDetours, Reg.fabEvt, Reg.fabRouteStat, Reg.fabStat, Reg.logEvt, Reg.parEvt, Reg.parGate, Reg.parKnown, Reg.parStat, Reg.parTakeovers, Reg.queEvt, Reg.sysAddr, Reg.tteXsum] ++ regs2 4 4 Reg.aioAgChOut ++ regs1 4 Reg.aioAgCmd ++ regs1 12 Reg.canChEvt ++ regs1 12 Reg.canChStat ++ regs1 128 Reg.ctlLpStat ++ regs1 2 Reg.dioDoCmd ++ regs1 8 Reg.fabLkErr1 ++ regs1 8 Reg.fabLkQuar ++ regs1 8 Reg.fabLkStat ++ regs1 8 Reg.fabLkViol ++ regs1 12 Reg.macPEvt ++ regs1 12 Reg.macPStat ++ regs1 7 Reg.parHbTx ++ regs1 16 Reg.parSbStat ++ regs1 6 Reg.pwrAgCount ++ regs1 6 Reg.pwrAgLedger ++ regs1 6 Reg.pwrAgWait ++ regs1 64 Reg.queQCnt ++ regs1 64 Reg.queQLevel ++ regs1 64 Reg.queQStat) t) ∧
    (∀ (k : Fin 16) (member probe : Bool) (req : BitVec 16) (s t : State), exec (.signalBoxRequest k member probe req) s = .next t → s.regsBut ([Reg.ctlEvt, Reg.ctlStat, Reg.ctlTsStat, Reg.fabDetours, Reg.fabEvt, Reg.fabRouteStat, Reg.fabStat, Reg.logEvt, Reg.parKnown, Reg.parStat, Reg.queEvt, Reg.sysAddr, Reg.tteXsum] ++ regs1 12 Reg.canChEvt ++ regs1 12 Reg.canChStat ++ regs1 128 Reg.ctlLpStat ++ regs1 8 Reg.fabLkErr1 ++ regs1 8 Reg.fabLkQuar ++ regs1 8 Reg.fabLkStat ++ regs1 8 Reg.fabLkViol ++ regs1 12 Reg.macPEvt ++ regs1 12 Reg.macPStat ++ regs1 16 Reg.parSbStat ++ regs1 6 Reg.pwrAgLedger ++ regs1 6 Reg.pwrAgWait ++ regs1 64 Reg.queQCnt ++ regs1 64 Reg.queQLevel ++ regs1 64 Reg.queQStat) t) ∧
    (∀ (s t : State), exec .signalBoxPendingGrant s = .next t → s.regsBut ([Reg.ctlEvt, Reg.ctlStat, Reg.ctlTsStat, Reg.fabDetours, Reg.fabEvt, Reg.fabRouteStat, Reg.fabStat, Reg.logEvt, Reg.parKnown, Reg.parStat, Reg.queEvt, Reg.sysAddr, Reg.tteXsum] ++ regs1 12 Reg.canChEvt ++ regs1 12 Reg.canChStat ++ regs1 128 Reg.ctlLpStat ++ regs1 8 Reg.fabLkErr1 ++ regs1 8 Reg.fabLkQuar ++ regs1 8 Reg.fabLkStat ++ regs1 8 Reg.fabLkViol ++ regs1 12 Reg.macPEvt ++ regs1 12 Reg.macPStat ++ regs1 16 Reg.parSbStat ++ regs1 6 Reg.pwrAgLedger ++ regs1 6 Reg.pwrAgWait ++ regs1 64 Reg.queQCnt ++ regs1 64 Reg.queQLevel ++ regs1 64 Reg.queQStat) t)

/-- Commands of the CAN and T1S islands, the display panels, the backup island and the security island. For each command
named here, in every state and with every operand: where the command answers a next state, every register of the
register space reads as before but those at the listed addresses, which are the registers the rules let the command or
the log record it writes change. -/
def Obligations.BusDisplayClockSecurityRegisterFrames : Prop :=
    (∀ (m : Master) (s t : State), exec (.rtcSet m) s = .next t → s.regsBut ([Reg.logEvt, Reg.rtcSlew, Reg.rtcStat, Reg.rtcVbak] ++ regs1 8 Reg.rtcAlmStat) t) ∧
    (∀ (m : Master) (s t : State), exec (.rtcStep m) s = .next t → s.regsBut ([Reg.logEvt, Reg.rtcSlew, Reg.rtcStat, Reg.rtcVbak] ++ regs1 8 Reg.rtcAlmStat) t) ∧
    (∀ (m : Master) (period : BitVec 16) (faster : Bool) (s t : State), exec (.rtcSlew m period faster) s = .next t → s.regsBut ([Reg.rtcEvt, Reg.rtcSlew, Reg.rtcStat, Reg.rtcVbak] ++ regs1 8 Reg.rtcAlmStat) t) ∧
    (∀ (m : Master) (s t : State), exec (.rtcSlewStop m) s = .next t → s.regsBut ([Reg.rtcSlew, Reg.rtcStat, Reg.rtcVbak] ++ regs1 8 Reg.rtcAlmStat) t) ∧
    (∀ (m : Master) (n : Fin 8) (w : Word) (s t : State), exec (.rtcAlarmCfgWrite m n w) s = .next t → s.regsBut ([Reg.rtcSlew, Reg.rtcStat, Reg.rtcVbak] ++ regs1 8 Reg.rtcAlmCfg ++ regs1 8 Reg.rtcAlmStat) t) ∧
    (∀ (m : Master) (i : Fin 16) (w : Word) (s t : State), exec (.rtcByteWrite m i w) s = .next t → s.regsBut ([Reg.rtcSlew, Reg.rtcStat, Reg.rtcVbak] ++ regs1 8 Reg.rtcAlmStat ++ regs1 16 Reg.rtcByte) t) ∧
    (∀ (m : Master) (kind : BitVec 2) (s t : State), exec (.objBegin m kind) s = .next t → s.regsBut ([Reg.fabParcelStat, Reg.logEvt, Reg.secCnt, Reg.secCounterHi, Reg.secCounterLo, Reg.secEpoch, Reg.secEvt, Reg.secFloorHi, Reg.secFloorLo, Reg.secObjCtrl, Reg.secObjStat, Reg.secSlotaSeqHi, Reg.secSlotaSeqLo, Reg.secSlotbSeqHi, Reg.secSlotbSeqLo, Reg.secSlots, Reg.secStat, Reg.secTrial, Reg.secXfer, Reg.secXferStat, Reg.sysStat]) t) ∧
    (∀ (m : Master) (s t : State), exec (.objPut m) s = .next t → s.regsBut ([Reg.fabParcelStat, Reg.logEvt, Reg.secCnt, Reg.secCounterHi, Reg.secCounterLo, Reg.secEpoch, Reg.secEvt, Reg.secFloorHi, Reg.secFloorLo, Reg.secObjCtrl, Reg.secObjStat, Reg.secSlotaSeqHi, Reg.secSlotaSeqLo, Reg.secSlotbSeqHi, Reg.secSlotbSeqLo, Reg.secSlots, Reg.secStat, Reg.secTrial, Reg.secXfer, Reg.secXferStat, Reg.sysStat]) t) ∧
    (∀ (m : Master) (ok : Bool) (s t : State), exec (.objSubmit m ok) s = .next t → s.regsBut ([Reg.fabParcelStat, Reg.logEvt, Reg.secCnt, Reg.secCounterHi, Reg.secCounterLo, Reg.secEpoch, Reg.secEvt, Reg.secFloorHi, Reg.secFloorLo, Reg.secObjCtrl, Reg.secObjStat, Reg.secSlotaSeqHi, Reg.secSlotaSeqLo, Reg.secSlotbSeqHi, Reg.secSlotbSeqLo, Reg.secSlots, Reg.secStat, Reg.secTrial, Reg.secXfer, Reg.secXferStat, Reg.sysStat]) t) ∧
    (∀ (m : Master) (s t : State), exec (.objCancel m) s = .next t → s.regsBut ([Reg.fabParcelStat, Reg.logEvt, Reg.secCnt, Reg.secCounterHi, Reg.secCounterLo, Reg.secEpoch, Reg.secEvt, Reg.secFloorHi, Reg.secFloorLo, Reg.secObjCtrl, Reg.secObjStat, Reg.secSlotaSeqHi, Reg.secSlotaSeqLo, Reg.secSlotbSeqHi, Reg.secSlotbSeqLo, Reg.secSlots, Reg.secStat, Reg.secTrial, Reg.secXfer, Reg.secXferStat, Reg.sysStat]) t) ∧
    (∀ (s t : State), exec .objectTimeout s = .next t → s.regsBut ([Reg.fabParcelStat, Reg.secCounterHi, Reg.secCounterLo, Reg.secEpoch, Reg.secEvt, Reg.secFloorHi, Reg.secFloorLo, Reg.secObjStat, Reg.secSlotaSeqHi, Reg.secSlotaSeqLo, Reg.secSlotbSeqHi, Reg.secSlotbSeqLo, Reg.secSlots, Reg.secStat, Reg.secTrial, Reg.secXfer, Reg.secXferStat]) t) ∧
    (∀ (c : Fin 12) (mask : BitVec 16) (s t : State), exec (.canSend c mask) s = .next t → s.regsBut ([Reg.logEvt, Reg.queEvt, Reg.tteXsum] ++ regs2 12 16 Reg.canChCnt ++ regs1 12 Reg.canChEvt ++ regs1 12 Reg.canChStat ++ regs1 12 Reg.canChTxpend ++ regs2 12 32 Reg.macPCnt ++ regs1 12 Reg.macPEvt ++ regs1 12 Reg.macPStat ++ regs1 64 Reg.queQCnt ++ regs1 64 Reg.queQLevel ++ regs1 64 Reg.queQStat) t) ∧
    (∀ (c : Fin 12) (mask : BitVec 16) (s t : State), exec (.canAbort c mask) s = .next t → s.regsBut ([Reg.logEvt, Reg.queEvt, Reg.tteXsum] ++ regs2 12 16 Reg.canChCnt ++ regs1 12 Reg.canChEvt ++ regs1 12 Reg.canChStat ++ regs1 12 Reg.canChTxpend ++ regs2 12 32 Reg.macPCnt ++ regs1 12 Reg.macPEvt ++ regs1 12 Reg.macPStat ++ regs1 64 Reg.queQCnt ++ regs1 64 Reg.queQLevel ++ regs1 64 Reg.queQStat) t) ∧
    (∀ (c : Fin 12) (b : BitVec 6) (ts : Word) (s t : State), exec (.canFetch c b ts) s = .next t → s.regsBut ([Reg.logEvt, Reg.queEvt, Reg.tteXsum] ++ regs2 12 16 Reg.canChCnt ++ regs1 12 Reg.canChEvt ++ regs1 12 Reg.canChStat ++ regs1 12 Reg.canChTxpend ++ regs2 12 32 Reg.macPCnt ++ regs1 12 Reg.macPEvt ++ regs1 12 Reg.macPStat ++ regs1 64 Reg.queQCnt ++ regs1 64 Reg.queQLevel ++ regs1 64 Reg.queQStat) t) ∧
    (∀ (src : Fin 24) (s t : State), exec (.busStats src) s = .next t → s.regsBut ([Reg.logEvt, Reg.queEvt, Reg.tteXsum] ++ regs2 12 16 Reg.canChCnt ++ regs1 12 Reg.canChEvt ++ regs1 12 Reg.canChStat ++ regs2 12 32 Reg.macPCnt ++ regs1 12 Reg.macPEvt ++ regs1 12 Reg.macPStat ++ regs1 64 Reg.queQCnt ++ regs1 64 Reg.queQLevel ++ regs1 64 Reg.queQStat) t) ∧
    (∀ (c : Fin 12) (s t : State), exec (.canRecover c) s = .next t → s.regsBut ([Reg.logEvt, Reg.tteXsum] ++ regs1 12 Reg.canChStat ++ regs1 12 Reg.canChTxpend ++ regs1 12 Reg.macPStat) t) ∧
    (∀ (src : Fin 24) (s t : State), exec (.cfgEnd src) s = .next t → s.regsBut ([Reg.logEvt, Reg.queEvt, Reg.tteXsum] ++ regs2 12 16 Reg.canChCnt ++ regs1 12 Reg.canChEvt ++ regs2 12 48 Reg.canChMbId ++ regs1 12 Reg.canChStat ++ regs1 12 Reg.canChTxpend ++ regs2 12 32 Reg.macPCnt ++ regs1 12 Reg.macPCtrl ++ regs1 12 Reg.macPEvt ++ regs1 12 Reg.macPStat ++ regs1 64 Reg.queQCnt ++ regs1 64 Reg.queQLevel ++ regs1 64 Reg.queQStat) t) ∧
    (∀ (src : Fin 24) (s t : State), exec (.busStatusWord src) s = .next t → s.regsBut ([Reg.logEvt, Reg.queEvt, Reg.tteXsum] ++ regs2 12 16 Reg.canChCnt ++ regs1 12 Reg.canChEvt ++ regs1 12 Reg.canChStat ++ regs2 12 32 Reg.macPCnt ++ regs1 12 Reg.macPEvt ++ regs1 12 Reg.macPStat ++ regs1 64 Reg.queQCnt ++ regs1 64 Reg.queQLevel ++ regs1 64 Reg.queQStat) t) ∧
    (∀ (c : Fin 12) (id : BitVec 29) (ide : Bool) (dlc : BitVec 4) (fdf brs esi rtr : Bool) (bytes : List Byte) (ts : BitVec 64) (s t : State), exec (.canFrameReceive c id ide dlc fdf brs esi rtr bytes ts) s = .next t → s.regsBut ([Reg.logEvt, Reg.queEvt, Reg.tteXsum] ++ regs2 12 16 Reg.canChCnt ++ regs1 12 Reg.canChEvt ++ regs2 12 48 Reg.canChMbId ++ regs1 12 Reg.canChStat ++ regs1 12 Reg.canChTxpend ++ regs2 12 32 Reg.macPCnt ++ regs1 12 Reg.macPEvt ++ regs1 12 Reg.macPStat ++ regs1 64 Reg.queQCnt ++ regs1 64 Reg.queQLevel ++ regs1 64 Reg.queQStat) t) ∧
    (∀ (c : Fin 12) (s t : State), exec (.canRxRecordPush c) s = .next t → s.regsBut ([Reg.logEvt, Reg.queEvt, Reg.tteXsum] ++ regs2 12 16 Reg.canChCnt ++ regs1 12 Reg.canChEvt ++ regs1 12 Reg.canChStat ++ regs1 12 Reg.canChTxpend ++ regs2 12 32 Reg.macPCnt ++ regs1 12 Reg.macPEvt ++ regs1 12 Reg.macPStat ++ regs1 64 Reg.queQCnt ++ regs1 64 Reg.queQLevel ++ regs1 64 Reg.queQStat) t) ∧
    (∀ (c : Fin 12) (s t : State), exec (.canTxRecordLoad c) s = .next t → s.regsBut ([Reg.logEvt, Reg.queEvt, Reg.tteDedAddr, Reg.tteEccStat, Reg.tteXsum] ++ regs2 12 16 Reg.canChCnt ++ regs1 12 Reg.canChEvt ++ regs1 12 Reg.canChStat ++ regs1 12 Reg.canChTxpend ++ regs2 12 32 Reg.macPCnt ++ regs1 12 Reg.macPEvt ++ regs1 12 Reg.macPStat ++ regs1 64 Reg.queQCnt ++ regs1 64 Reg.queQDed ++ regs1 64 Reg.queQLevel ++ regs1 64 Reg.queQStat ++ regs1 6 (fun n => Reg.tteEccCode + 4 * n)) t) ∧
    (∀ (c : Fin 12) (ts : BitVec 64) (other : Bool) (s t : State), exec (.startOfFrame c ts other) s = .next t → s.regsBut ([Reg.logEvt, Reg.queEvt, Reg.tteXsum] ++ regs2 12 16 Reg.canChCnt ++ regs1 12 Reg.canChEvt ++ regs2 12 48 Reg.canChMbId ++ regs1 12 Reg.canChStat ++ regs1 12 Reg.canChTxpend ++ regs2 12 32 Reg.macPCnt ++ regs1 12 Reg.macPEvt ++ regs1 12 Reg.macPStat ++ regs1 64 Reg.queQCnt ++ regs1 64 Reg.queQLevel ++ regs1 64 Reg.queQStat) t) ∧
    (∀ (c : Fin 12) (res : Fin 4) (tdcv : Option (BitVec 7)) (s t : State), exec (.canAttemptEnd c res tdcv) s = .next t → s.regsBut ([Reg.logEvt, Reg.queEvt, Reg.tteXsum] ++ regs2 12 16 Reg.canChCnt ++ regs1 12 Reg.canChEvt ++ regs2 12 48 Reg.canChMbId ++ regs1 12 Reg.canChStat ++ regs1 12 Reg.canChTxpend ++ regs2 12 32 Reg.macPCnt ++ regs1 12 Reg.macPEvt ++ regs1 12 Reg.macPStat ++ regs1 64 Reg.queQCnt ++ regs1 64 Reg.queQLevel ++ regs1 64 Reg.queQStat) t) ∧
    (∀ (c : Fin 12) (kind : Fin 7) (txUp rxUp : Fin 9) (s t : State), exec (.canError c kind txUp rxUp) s = .next t → s.regsBut ([Reg.logEvt, Reg.queEvt, Reg.tteXsum] ++ regs2 12 16 Reg.canChCnt ++ regs1 12 Reg.canChEvt ++ regs2 12 48 Reg.canChMbId ++ regs1 12 Reg.canChStat ++ regs1 12 Reg.canChTxpend ++ regs2 12 32 Reg.macPCnt ++ regs1 12 Reg.macPEvt ++ regs1 12 Reg.macPStat ++ regs1 64 Reg.queQCnt ++ regs1 64 Reg.queQLevel ++ regs1 64 Reg.queQStat) t) ∧
    (∀ (c : Fin 12) (s t : State), exec (.protocolException c) s = .next t → s.regsBut ([Reg.logEvt, Reg.queEvt, Reg.tteXsum] ++ regs2 12 16 Reg.canChCnt ++ regs1 12 Reg.canChEvt ++ regs1 12 Reg.canChStat ++ regs1 12 Reg.canChTxpend ++ regs2 12 32 Reg.macPCnt ++ regs1 12 Reg.macPEvt ++ regs1 12 Reg.macPStat ++ regs1 64 Reg.queQCnt ++ regs1 64 Reg.queQLevel ++ regs1 64 Reg.queQStat) t) ∧
    (∀ (c : Fin 12) (s t : State), exec (.busIntegration c) s = .next t → s.regsBut ([Reg.logEvt, Reg.queEvt, Reg.tteXsum] ++ regs2 12 16 Reg.canChCnt ++ regs1 12 Reg.canChEvt ++ regs2 12 48 Reg.canChMbId ++ regs1 12 Reg.canChStat ++ regs1 12 Reg.canChTxpend ++ regs2 12 32 Reg.macPCnt ++ regs1 12 Reg.macPEvt ++ regs1 12 Reg.macPStat ++ regs1 64 Reg.queQCnt ++ regs1 64 Reg.queQLevel ++ regs1 64 Reg.queQStat) t) ∧
    (∀ (c : Fin 12) (s t : State), exec (.busOffHoldEnd c) s = .next t → s.regsBut ([Reg.logEvt, Reg.tteXsum] ++ regs1 12 Reg.canChStat ++ regs1 12 Reg.canChTxpend ++ regs1 12 Reg.macPStat) t) ∧
    (∀ (c : Fin 12) (s t : State), exec (.busOffRecoveryDone c) s = .next t → s.regsBut ([Reg.logEvt, Reg.tteXsum] ++ regs1 12 Reg.canChEvt ++ regs1 12 Reg.canChStat ++ regs1 12 Reg.canChTxpend ++ regs1 12 Reg.macPEvt ++ regs1 12 Reg.macPStat) t) ∧
    (∀ (p : Fin 12) (bytes : List Byte) (whole late : Bool) (ts : BitVec 64) (s t : State), exec (.t1sFrameReceive p bytes whole late ts) s = .next t → s.regsBut ([Reg.logEvt, Reg.queEvt, Reg.tteXsum] ++ regs2 12 16 Reg.canChCnt ++ regs1 12 Reg.canChEvt ++ regs1 12 Reg.canChStat ++ regs2 12 32 Reg.macPCnt ++ regs1 12 Reg.macPEvt ++ regs1 12 Reg.macPStat ++ regs1 64 Reg.queQCnt ++ regs1 64 Reg.queQLevel ++ regs1 64 Reg.queQStat) t) ∧
    (∀ (p : Fin 12) (s t : State), exec (.t1sRxRecordPush p) s = .next t → s.regsBut ([Reg.logEvt, Reg.queEvt, Reg.tteXsum] ++ regs2 12 16 Reg.canChCnt ++ regs1 12 Reg.canChEvt ++ regs1 12 Reg.canChStat ++ regs2 12 32 Reg.macPCnt ++ regs1 12 Reg.macPEvt ++ regs1 12 Reg.macPStat ++ regs1 64 Reg.queQCnt ++ regs1 64 Reg.queQLevel ++ regs1 64 Reg.queQStat) t) ∧
    (∀ (p : Fin 12) (s t : State), exec (.t1sTxRecordPop p) s = .next t → s.regsBut ([Reg.logEvt, Reg.queEvt, Reg.tteDedAddr, Reg.tteEccStat, Reg.tteXsum] ++ regs2 12 16 Reg.canChCnt ++ regs1 12 Reg.canChEvt ++ regs1 12 Reg.canChStat ++ regs2 12 32 Reg.macPCnt ++ regs1 12 Reg.macPEvt ++ regs1 12 Reg.macPStat ++ regs1 64 Reg.queQCnt ++ regs1 64 Reg.queQDed ++ regs1 64 Reg.queQLevel ++ regs1 64 Reg.queQStat ++ regs1 6 (fun n => Reg.tteEccCode + 4 * n)) t) ∧
    (∀ (p : Fin 12) (res : Fin 3) (defer : Bool) (ts : BitVec 64) (s t : State), exec (.t1sFrameTransmit p res defer ts) s = .next t → s.regsBut ([Reg.logEvt, Reg.queEvt, Reg.tteXsum] ++ regs2 12 16 Reg.canChCnt ++ regs1 12 Reg.canChEvt ++ regs1 12 Reg.canChStat ++ regs2 12 32 Reg.macPCnt ++ regs1 12 Reg.macPEvt ++ regs1 12 Reg.macPStat ++ regs1 64 Reg.queQCnt ++ regs1 64 Reg.queQLevel ++ regs1 64 Reg.queQStat) t) ∧
    (∀ (p : Fin 12) (s t : State), exec (.backoffEnd p) s = .next t → s.regsBut ([Reg.logEvt, Reg.tteXsum] ++ regs1 12 Reg.canChStat ++ regs1 12 Reg.macPStat) t) ∧
    (∀ (p : Fin 12) (quanta : BitVec 16) (s t : State), exec (.pauseReceived p quanta) s = .next t → s.regsBut ([Reg.logEvt, Reg.tteXsum] ++ regs1 12 Reg.canChStat ++ regs1 12 Reg.macPStat) t) ∧
    (∀ (p : Fin 12) (s t : State), exec (.pauseHoldEnd p) s = .next t → s.regsBut ([Reg.logEvt, Reg.tteXsum] ++ regs1 12 Reg.canChStat ++ regs1 12 Reg.macPStat) t) ∧
    (∀ (p : Fin 12) (s t : State), exec (.pauseSend p) s = .next t → s.regsBut ([Reg.logEvt, Reg.tteXsum] ++ regs1 12 Reg.canChEvt ++ regs1 12 Reg.canChStat ++ regs1 12 Reg.macPEvt ++ regs1 12 Reg.macPStat) t) ∧
    (∀ (p : Fin 12) (s t : State), exec (.pauseResend p) s = .next t → s.regsBut ([Reg.logEvt, Reg.tteXsum] ++ regs1 12 Reg.canChStat ++ regs1 12 Reg.macPStat) t) ∧
    (∀ (p : Fin 12) (s t : State), exec (.pauseRelease p) s = .next t → s.regsBut ([Reg.logEvt, Reg.tteXsum] ++ regs1 12 Reg.canChStat ++ regs1 12 Reg.macPStat) t) ∧
    (∀ (p : Fin 12) (s t : State), exec (.backpressureJam p) s = .next t → s.regsBut ([Reg.logEvt, Reg.tteXsum] ++ regs1 12 Reg.canChEvt ++ regs1 12 Reg.canChStat ++ regs1 12 Reg.macPEvt ++ regs1 12 Reg.macPStat) t) ∧
    (∀ (w : BitVec 28) (s t : State), exec (.rectWord w) s = .next t → s.regsBut ([Reg.lcdBadwords, Reg.lcdEvt, Reg.lcdStat, Reg.logEvt] ++ regs1 4 Reg.lcdPStat ++ regs1 4 Reg.lcdPTemp) t) ∧
    (∀ (w : Word) (s t : State), exec (.segdata w) s = .next t → s.regsBut ([Reg.lcdBadwords, Reg.lcdEvt, Reg.lcdStat, Reg.logEvt] ++ regs1 4 Reg.lcdPCnt ++ regs1 4 Reg.lcdPStat ++ regs1 4 Reg.lcdPTemp) t) ∧
    (∀ (w : Word) (s t : State), exec (.requestInstant w) s = .next t → s.regsBut ([Reg.lcdBadwords, Reg.lcdEvt, Reg.lcdStat, Reg.logEvt] ++ regs1 4 Reg.lcdPCnt ++ regs1 4 Reg.lcdPStat ++ regs1 4 Reg.lcdPTemp) t) ∧
    (∀ (p : Fin 4) (s t : State), exec (.frameBoundary p) s = .next t → s.regsBut ([Reg.lcdBadwords, Reg.lcdEvt, Reg.lcdStat, Reg.logEvt] ++ regs1 4 Reg.lcdPCnt ++ regs1 4 Reg.lcdPStat ++ regs1 4 Reg.lcdPTemp) t) ∧
    (∀ (w : BitVec 28) (s t : State), exec (.lcdQuery w) s = .next t → s.regsBut ([Reg.lcdBadwords, Reg.lcdEvt, Reg.lcdStat, Reg.logEvt, Reg.tteXsum] ++ regs1 4 Reg.lcdPStat ++ regs1 4 Reg.lcdPTemp) t) ∧
    (∀ (w : BitVec 28) (s t : State), exec (.lcdForce w) s = .next t → s.regsBut ([Reg.lcdBadwords, Reg.lcdEvt, Reg.lcdStat, Reg.logEvt] ++ regs1 4 Reg.lcdPStat ++ regs1 4 Reg.lcdPTemp) t) ∧
    (∀ (p : Fin 4) (s t : State), exec (.slotBoundary p) s = .next t → s.regsBut ([Reg.lcdBadwords, Reg.lcdStat] ++ regs1 4 Reg.lcdPStat ++ regs1 4 Reg.lcdPTemp) t) ∧
    (∀ (w : BitVec 28) (s t : State), exec (.panelWord w) s = .next t → s.regsBut ([Reg.lcdBadwords, Reg.lcdEvt, Reg.lcdStat, Reg.logEvt] ++ regs1 4 Reg.lcdPCnt ++ regs1 4 Reg.lcdPStat ++ regs1 4 Reg.lcdPTemp) t) ∧
    (∀ (w : BitVec 28) (s t : State), exec (.fsegWord w) s = .next t → s.regsBut ([Reg.lcdBadwords, Reg.lcdEvt, Reg.lcdStat, Reg.logEvt] ++ regs1 4 Reg.lcdPStat ++ regs1 4 Reg.lcdPTemp) t) ∧
    (∀ (w : BitVec 28) (s t : State), exec (.ntcWord w) s = .next t → s.regsBut ([Reg.lcdBadwords, Reg.lcdEvt, Reg.lcdStat, Reg.logEvt] ++ regs1 4 Reg.lcdPStat ++ regs1 4 Reg.lcdPTemp) t) ∧
    (∀ (w : BitVec 28) (s t : State), exec (.bandWord w) s = .next t → s.regsBut ([Reg.lcdBadwords, Reg.lcdEvt, Reg.lcdStat, Reg.logEvt] ++ regs1 4 Reg.lcdPStat ++ regs1 4 Reg.lcdPTemp) t) ∧
    (∀ (p : Fin 4) (ohms : BitVec 32) (s t : State), exec (.ntcReading p ohms) s = .next t → s.regsBut ([Reg.lcdBadwords, Reg.lcdStat] ++ regs1 4 Reg.lcdPStat ++ regs1 4 Reg.lcdPTemp) t) ∧
    (∀ (p : Fin 4) (s t : State), exec (.temperatureUpdate p) s = .next t → s.regsBut ([Reg.lcdBadwords, Reg.lcdEvt, Reg.lcdStat, Reg.logEvt] ++ regs1 4 Reg.lcdPStat ++ regs1 4 Reg.lcdPTemp) t) ∧
    (∀ (p : Fin 4) (s t : State), exec (.ntcFault p) s = .next t → s.regsBut ([Reg.lcdBadwords, Reg.lcdEvt, Reg.lcdStat, Reg.logEvt] ++ regs1 4 Reg.lcdPStat ++ regs1 4 Reg.lcdPTemp) t) ∧
    (∀ (p : Fin 4) (s t : State), exec (.vlcdFault p) s = .next t → s.regsBut ([Reg.lcdBadwords, Reg.lcdEvt, Reg.lcdStat, Reg.logEvt] ++ regs1 4 Reg.lcdPStat ++ regs1 4 Reg.lcdPTemp) t) ∧
    (∀ (p : Fin 4) (ok : Bool) (s t : State), exec (.vlcdRestart p ok) s = .next t → s.regsBut ([Reg.lcdBadwords, Reg.lcdStat] ++ regs1 4 Reg.lcdPStat ++ regs1 4 Reg.lcdPTemp) t) ∧
    (∀ (p : Fin 4) (s t : State), exec (.idleIntervalEnd p) s = .next t → s.regsBut ([Reg.lcdBadwords, Reg.lcdStat] ++ regs1 4 Reg.lcdPStat ++ regs1 4 Reg.lcdPTemp) t) ∧
    (∀ (s t : State), exec .rtcTick s = .next t → s.regsBut ([Reg.logEvt, Reg.rtcEvt, Reg.rtcSlew, Reg.rtcStat, Reg.rtcVbak, Reg.tteXsum] ++ regs1 8 Reg.rtcAlmStat) t) ∧
    (∀ (w : BitVec 28) (s t : State), exec (.bcmdSet w) s = .next t → s.regsBut ([Reg.rtcSlew, Reg.rtcStat, Reg.rtcVbak] ++ regs1 8 Reg.rtcAlmStat) t) ∧
    (∀ (w : BitVec 28) (s t : State), exec (.bcmdStep w) s = .next t → s.regsBut ([Reg.rtcSlew, Reg.rtcStat, Reg.rtcVbak] ++ regs1 8 Reg.rtcAlmStat) t) ∧
    (∀ (w : BitVec 28) (s t : State), exec (.bcmdSlew w) s = .next t → s.regsBut ([Reg.rtcEvt, Reg.rtcSlew, Reg.rtcStat, Reg.rtcVbak] ++ regs1 8 Reg.rtcAlmStat) t) ∧
    (∀ (w : BitVec 28) (s t : State), exec (.bcmdSlewStop w) s = .next t → s.regsBut ([Reg.rtcSlew, Reg.rtcStat, Reg.rtcVbak] ++ regs1 8 Reg.rtcAlmStat) t) ∧
    (∀ (w : BitVec 28) (s t : State), exec (.bcmdTrim w) s = .next t → s.regsBut ([Reg.rtcSlew, Reg.rtcStat, Reg.rtcVbak] ++ regs1 8 Reg.rtcAlmStat) t) ∧
    (∀ (w : BitVec 28) (s t : State), exec (.bcmdAlmper w) s = .next t → s.regsBut ([Reg.rtcSlew, Reg.rtcStat, Reg.rtcVbak] ++ regs1 8 Reg.rtcAlmStat) t) ∧
    (∀ (w : BitVec 28) (s t : State), exec (.bcmdAlarm w) s = .next t → s.regsBut ([Reg.rtcSlew, Reg.rtcStat, Reg.rtcVbak] ++ regs1 8 Reg.rtcAlmStat) t) ∧
    (∀ (w : BitVec 28) (s t : State), exec (.bcmdAck w) s = .next t → s.regsBut ([Reg.rtcSlew, Reg.rtcStat, Reg.rtcVbak] ++ regs1 8 Reg.rtcAlmStat) t) ∧
    (∀ (w : BitVec 28) (s t : State), exec (.bcmdByte w) s = .next t → s.regsBut ([Reg.rtcSlew, Reg.rtcStat, Reg.rtcVbak] ++ regs1 8 Reg.rtcAlmStat) t) ∧
    (∀ (w : BitVec 28) (s t : State), exec (.bcmdRead w) s = .next t → s.regsBut ([Reg.rtcSlew, Reg.rtcStat, Reg.rtcVbak] ++ regs1 8 Reg.rtcAlmStat) t) ∧
    (∀ (w : BitVec 28) (s t : State), exec (.bcmdChg w) s = .next t → s.regsBut ([Reg.rtcSlew, Reg.rtcStat, Reg.rtcVbak] ++ regs1 8 Reg.rtcAlmStat) t) ∧
    (∀ (s t : State), exec .retentionTrip s = .next t → s.regsBut ([Reg.rtcSlew, Reg.rtcStat, Reg.rtcVbak] ++ regs1 8 Reg.rtcAlmStat) t) ∧
    (∀ (s t : State), exec .retentionReset s = .next t → s.regsBut ([Reg.rtcSlew, Reg.rtcStat, Reg.rtcVbak] ++ regs1 8 Reg.rtcAlmStat) t) ∧
    (∀ (toElement : Bool) (mv : BitVec 12) (s t : State), exec (.backupSwitchover toElement mv) s = .next t → s.regsBut ([Reg.rtcSlew, Reg.rtcStat, Reg.rtcVbak] ++ regs1 8 Reg.rtcAlmStat) t) ∧
    (∀ (mv : BitVec 12) (s t : State), exec (.elementLow mv) s = .next t → s.regsBut ([Reg.logEvt, Reg.rtcEvt, Reg.rtcSlew, Reg.rtcStat, Reg.rtcVbak] ++ regs1 8 Reg.rtcAlmStat) t) ∧
    (∀ (s t : State), exec .clockDiscipline s = .next t → s.regsBut ([Reg.fabEvt, Reg.fabStat, Reg.fabTimeOffset, Reg.fabTimeRate, Reg.fabTimeStat, Reg.logEvt, Reg.rtcEvt, Reg.rtcSlew, Reg.rtcStat, Reg.rtcVbak] ++ regs1 8 Reg.rtcAlmStat) t) ∧
    (∀ (s t : State), exec .alarmReport s = .next t → s.regsBut ([Reg.logEvt, Reg.rtcEvt, Reg.rtcSlew, Reg.rtcStat, Reg.rtcVbak] ++ regs1 8 Reg.rtcAlmStat ++ regs1 8 Reg.tteArm) t) ∧
    (∀ (busy : Bool) (tag : BitVec 8) (n : BitVec 16) (msg : List Byte) (s t : State), exec (.islandShake busy tag n msg) s = .next t → s.regsBut ([Reg.logEvt, Reg.queEvt, Reg.tteXsum] ++ regs1 12 Reg.canChEvt ++ regs1 12 Reg.canChStat ++ regs1 12 Reg.macPEvt ++ regs1 12 Reg.macPStat ++ regs1 64 Reg.queQCnt ++ regs1 64 Reg.queQLevel ++ regs1 64 Reg.queQStat) t) ∧
    (∀ (busy : Bool) (tag : BitVec 8) (k : BitVec 16) (msg sig : List Byte) (s t : State), exec (.islandVerify busy tag k msg sig) s = .next t → s.regsBut ([Reg.logEvt, Reg.queEvt, Reg.tteXsum] ++ regs1 12 Reg.canChEvt ++ regs1 12 Reg.canChStat ++ regs1 12 Reg.macPEvt ++ regs1 12 Reg.macPStat ++ regs1 64 Reg.queQCnt ++ regs1 64 Reg.queQLevel ++ regs1 64 Reg.queQStat) t) ∧
    (∀ (busy : Bool) (tag : BitVec 8) (h : List Byte) (s t : State), exec (.signgen busy tag h) s = .next t → s.regsBut ([Reg.logEvt, Reg.queEvt, Reg.tteXsum] ++ regs1 12 Reg.canChEvt ++ regs1 12 Reg.canChStat ++ regs1 12 Reg.macPEvt ++ regs1 12 Reg.macPStat ++ regs1 64 Reg.queQCnt ++ regs1 64 Reg.queQLevel ++ regs1 64 Reg.queQStat) t) ∧
    (∀ (busy : Bool) (tag : BitVec 8) (k : BitVec 16) (s t : State), exec (.pubkey busy tag k) s = .next t → s.regsBut ([Reg.logEvt, Reg.queEvt, Reg.tteXsum] ++ regs1 12 Reg.canChEvt ++ regs1 12 Reg.canChStat ++ regs1 12 Reg.macPEvt ++ regs1 12 Reg.macPStat ++ regs1 64 Reg.queQCnt ++ regs1 64 Reg.queQLevel ++ regs1 64 Reg.queQStat) t) ∧
    (∀ (busy : Bool) (tag : BitVec 8) (ws : List Word) (s t : State), exec (.islandAttest busy tag ws) s = .next t → s.regsBut ([Reg.logEvt, Reg.queEvt, Reg.tteXsum] ++ regs1 12 Reg.canChEvt ++ regs1 12 Reg.canChStat ++ regs1 12 Reg.macPEvt ++ regs1 12 Reg.macPStat ++ regs1 64 Reg.queQCnt ++ regs1 64 Reg.queQLevel ++ regs1 64 Reg.queQStat) t) ∧
    (∀ (busy : Bool) (tag : BitVec 8) (ws : List Word) (s t : State), exec (.islandChallenge busy tag ws) s = .next t → s.regsBut ([Reg.logEvt, Reg.queEvt, Reg.tteXsum] ++ regs1 12 Reg.canChEvt ++ regs1 12 Reg.canChStat ++ regs1 12 Reg.macPEvt ++ regs1 12 Reg.macPStat ++ regs1 64 Reg.queQCnt ++ regs1 64 Reg.queQLevel ++ regs1 64 Reg.queQStat) t) ∧
    (∀ (busy : Bool) (tag : BitVec 8) (m : List Byte) (s t : State), exec (.islandMessage busy tag m) s = .next t → s.regsBut ([Reg.logEvt, Reg.queEvt, Reg.secCnt, Reg.secCounterHi, Reg.secCounterLo, Reg.secEpoch, Reg.secEvt, Reg.secFloorHi, Reg.secFloorLo, Reg.secSlotaSeqHi, Reg.secSlotaSeqLo, Reg.secSlotbSeqHi, Reg.secSlotbSeqLo, Reg.secSlots, Reg.secStat, Reg.secTrial, Reg.secXfer, Reg.secXferStat, Reg.tteXsum] ++ regs1 12 Reg.canChEvt ++ regs1 12 Reg.canChStat ++ regs1 12 Reg.macPEvt ++ regs1 12 Reg.macPStat ++ regs1 64 Reg.queQCnt ++ regs1 64 Reg.queQLevel ++ regs1 64 Reg.queQStat) t) ∧
    (∀ (busy : Bool) (tag : BitVec 8) (copy : Fin 2) (failed : Bool) (s t : State), exec (.recordDone busy tag copy failed) s = .next t → s.regsBut ([Reg.fabParcelStat, Reg.logEvt, Reg.queEvt, Reg.secCnt, Reg.secCounterHi, Reg.secCounterLo, Reg.secEpoch, Reg.secEvt, Reg.secFloorHi, Reg.secFloorLo, Reg.secObjStat, Reg.secSlotaSeqHi, Reg.secSlotaSeqLo, Reg.secSlotbSeqHi, Reg.secSlotbSeqLo, Reg.secSlots, Reg.secStat, Reg.secTrial, Reg.secXfer, Reg.secXferStat, Reg.sysStat, Reg.tteXsum] ++ regs1 12 Reg.canChEvt ++ regs1 12 Reg.canChStat ++ regs1 12 Reg.macPEvt ++ regs1 12 Reg.macPStat ++ regs1 64 Reg.queQCnt ++ regs1 64 Reg.queQLevel ++ regs1 64 Reg.queQStat) t) ∧
    (∀ (busy : Bool) (tag : BitVec 8) (blown : Bool) (s t : State), exec (.loadrec busy tag blown) s = .next t → s.regsBut ([Reg.logEvt, Reg.queEvt, Reg.secEvt, Reg.tteXsum] ++ regs1 12 Reg.canChEvt ++ regs1 12 Reg.canChStat ++ regs1 12 Reg.macPEvt ++ regs1 12 Reg.macPStat ++ regs1 64 Reg.queQCnt ++ regs1 64 Reg.queQLevel ++ regs1 64 Reg.queQStat) t) ∧
    (∀ (busy : Bool) (tag : BitVec 8) (ws : List Word) (s t : State), exec (.updateRec busy tag ws) s = .next t → s.regsBut ([Reg.logEvt, Reg.queEvt, Reg.tteXsum] ++ regs1 12 Reg.canChEvt ++ regs1 12 Reg.canChStat ++ regs1 12 Reg.macPEvt ++ regs1 12 Reg.macPStat ++ regs1 64 Reg.queQCnt ++ regs1 64 Reg.queQLevel ++ regs1 64 Reg.queQStat) t) ∧
    (∀ (ok : Bool) (s t : State), exec (.trialMinute ok) s = .next t → s.regsBut ([Reg.logEvt, Reg.secCounterHi, Reg.secCounterLo, Reg.secEpoch, Reg.secEvt, Reg.secFloorHi, Reg.secFloorLo, Reg.secSlotaSeqHi, Reg.secSlotaSeqLo, Reg.secSlotbSeqHi, Reg.secSlotbSeqLo, Reg.secSlots, Reg.secStat, Reg.secTrial, Reg.secXfer, Reg.secXferStat, Reg.sysStat]) t) ∧
    (∀ (s t : State), exec .triesReset s = .next t → s.regsBut ([Reg.secCounterHi, Reg.secCounterLo, Reg.secEpoch, Reg.secFloorHi, Reg.secFloorLo, Reg.secSlotaSeqHi, Reg.secSlotaSeqLo, Reg.secSlotbSeqHi, Reg.secSlotbSeqLo, Reg.secSlots, Reg.secStat, Reg.secTrial, Reg.secXfer, Reg.secXferStat]) t) ∧
    (∀ (m : List Byte) (ok : Bool) (s t : State), exec (.commission m ok) s = .next t → s.regsBut ([Reg.fabParcelStat, Reg.logEvt, Reg.secCnt, Reg.secCounterHi, Reg.secCounterLo, Reg.secEpoch, Reg.secEvt, Reg.secFloorHi, Reg.secFloorLo, Reg.secObjStat, Reg.secSlotaSeqHi, Reg.secSlotaSeqLo, Reg.secSlotbSeqHi, Reg.secSlotbSeqLo, Reg.secSlots, Reg.secStat, Reg.secTrial, Reg.secXfer, Reg.secXferStat, Reg.sysStat]) t) ∧
    (∀ (m : List Byte) (ok : Bool) (s t : State), exec (.ownerSecret m ok) s = .next t → s.regsBut ([Reg.fabParcelStat, Reg.logEvt, Reg.secCnt, Reg.secCounterHi, Reg.secCounterLo, Reg.secEpoch, Reg.secEvt, Reg.secFloorHi, Reg.secFloorLo, Reg.secObjStat, Reg.secSlotaSeqHi, Reg.secSlotaSeqLo, Reg.secSlotbSeqHi, Reg.secSlotbSeqLo, Reg.secSlots, Reg.secStat, Reg.secTrial, Reg.secXfer, Reg.secXferStat, Reg.sysStat]) t) ∧
    (∀ (m : List Byte) (ok : Bool) (s t : State), exec (.ownerRoot m ok) s = .next t → s.regsBut ([Reg.fabParcelStat, Reg.logEvt, Reg.secCnt, Reg.secCounterHi, Reg.secCounterLo, Reg.secEpoch, Reg.secEvt, Reg.secFloorHi, Reg.secFloorLo, Reg.secObjStat, Reg.secSlotaSeqHi, Reg.secSlotaSeqLo, Reg.secSlotbSeqHi, Reg.secSlotbSeqLo, Reg.secSlots, Reg.secStat, Reg.secTrial, Reg.secXfer, Reg.secXferStat, Reg.sysStat]) t) ∧
    (∀ (m : List Byte) (ok : Bool) (s t : State), exec (.msgReturn m ok) s = .next t → s.regsBut ([Reg.fabParcelStat, Reg.logEvt, Reg.secCnt, Reg.secCounterHi, Reg.secCounterLo, Reg.secEpoch, Reg.secEvt, Reg.secFloorHi, Reg.secFloorLo, Reg.secObjStat, Reg.secSlotaSeqHi, Reg.secSlotaSeqLo, Reg.secSlotbSeqHi, Reg.secSlotbSeqLo, Reg.secSlots, Reg.secStat, Reg.secTrial, Reg.secXfer, Reg.secXferStat, Reg.sysStat]) t) ∧
    (∀ (m : List Byte) (ok : Bool) (s t : State), exec (.msgRetire m ok) s = .next t → s.regsBut ([Reg.fabParcelStat, Reg.logEvt, Reg.secCnt, Reg.secCounterHi, Reg.secCounterLo, Reg.secEpoch, Reg.secEvt, Reg.secFloorHi, Reg.secFloorLo, Reg.secObjStat, Reg.secSlotaSeqHi, Reg.secSlotaSeqLo, Reg.secSlotbSeqHi, Reg.secSlotbSeqLo, Reg.secSlots, Reg.secStat, Reg.secTrial, Reg.secXfer, Reg.secXferStat, Reg.sysStat]) t) ∧
    (∀ (m : List Byte) (ok : Bool) (s t : State), exec (.msgConfirm m ok) s = .next t → s.regsBut ([Reg.fabParcelStat, Reg.logEvt, Reg.secCnt, Reg.secCounterHi, Reg.secCounterLo, Reg.secEpoch, Reg.secEvt, Reg.secFloorHi, Reg.secFloorLo, Reg.secObjStat, Reg.secSlotaSeqHi, Reg.secSlotaSeqLo, Reg.secSlotbSeqHi, Reg.secSlotbSeqLo, Reg.secSlots, Reg.secStat, Reg.secTrial, Reg.secXfer, Reg.secXferStat, Reg.sysStat]) t) ∧
    (∀ (m : List Byte) (ok : Bool) (s t : State), exec (.msgReject m ok) s = .next t → s.regsBut ([Reg.fabParcelStat, Reg.logEvt, Reg.secCnt, Reg.secCounterHi, Reg.secCounterLo, Reg.secEpoch, Reg.secEvt, Reg.secFloorHi, Reg.secFloorLo, Reg.secObjStat, Reg.secSlotaSeqHi, Reg.secSlotaSeqLo, Reg.secSlotbSeqHi, Reg.secSlotbSeqLo, Reg.secSlots, Reg.secStat, Reg.secTrial, Reg.secXfer, Reg.secXferStat, Reg.sysStat]) t) ∧
    (∀ (m : List Byte) (ok : Bool) (s t : State), exec (.privileged m ok) s = .next t → s.regsBut ([Reg.fabParcelStat, Reg.logEvt, Reg.secCnt, Reg.secCounterHi, Reg.secCounterLo, Reg.secEpoch, Reg.secEvt, Reg.secFloorHi, Reg.secFloorLo, Reg.secObjStat, Reg.secSlotaSeqHi, Reg.secSlotaSeqLo, Reg.secSlotbSeqHi, Reg.secSlotbSeqLo, Reg.secSlots, Reg.secStat, Reg.secTrial, Reg.secXfer, Reg.secXferStat, Reg.sysStat]) t)
end

