-- ==== Sys2Proof/Laws/Sparse.lean ====
section
/-! SUPPORT. Sparse tables and memories: what a read after a write gives, and that every operation keeps the canonical form. -/

namespace Sys2Proof.Machine

section Tables

variable {α : Type}

/-- The first entry with key `b` among the entries whose keys pass a test that `b` passes. -/
theorem find_filter_key (l : Sparse α) (p : Nat → Bool) (b : Nat) (h : p b = true) :
    (l.filter (fun e => p e.1)).find? (fun e => e.1 == b) = l.find? (fun e => e.1 == b) := by
  induction l with
  | nil => rfl
  | cons x xs ih =>
    by_cases hx : x.1 = b
    · simp [List.filter, hx, h]
    · by_cases hp : p x.1 = true <;> simp [List.filter, hp, hx, ih]

theorem find_filter_key_none (l : Sparse α) (p : Nat → Bool) (b : Nat) (h : p b = false) :
    (l.filter (fun e => p e.1)).find? (fun e => e.1 == b) = none := by
  rw [List.find?_eq_none]
  intro x hx hb
  simp only [List.mem_filter] at hx
  have : x.1 = b := by simpa using hb
  rw [this, h] at hx
  exact absurd hx.2 (by decide)

variable [DecidableEq α]

theorem sget_sset_same (d v : α) (l : Sparse α) (a : Nat) : sget d (sset d l a v) a = v := by
  have h1 := find_filter_key_none l (fun k => decide (k < a)) a (by simp)
  have h2 := find_filter_key_none l (fun k => decide (a < k)) a (by simp)
  unfold sget sset
  by_cases hv : v = d <;> simp [List.find?_append, h1, h2, hv]

theorem sget_sset_other (d' d v : α) (l : Sparse α) {a b : Nat} (h : b ≠ a) : sget d' (sset d l a v) b = sget d' l b := by
  unfold sget sset
  rcases Nat.lt_or_gt_of_ne h with hb | hb
  · have h1 := find_filter_key l (fun k => decide (k < a)) b (by simpa using hb)
    have h2 := find_filter_key_none l (fun k => decide (a < k)) b (by simp; omega)
    by_cases hv : v = d <;> simp [List.find?_append, h1, h2, hv, Ne.symm h]
  · have h1 := find_filter_key_none l (fun k => decide (k < a)) b (by simp; omega)
    have h2 := find_filter_key l (fun k => decide (a < k)) b (by simpa using hb)
    by_cases hv : v = d <;> simp [List.find?_append, h1, h2, hv, Ne.symm h]

/-- Reading after a write, both cases in one. -/
theorem sget_sset (d v : α) (l : Sparse α) (a b : Nat) : sget d (sset d l a v) b = if b = a then v else sget d l b := by
  by_cases h : b = a
  · simp [h, sget_sset_same]
  · simp [h, sget_sset_other d d v l h]

/-- The canonical form, as a proposition. -/
theorem swf_iff (d : Nat → α) (l : Sparse α) :
    swf d l = true ↔ l.Pairwise (fun x y => x.1 < y.1) ∧ ∀ e ∈ l, e.2 ≠ d e.1 := by
  simp [swf, List.all_eq_true]

theorem swf_nil (d : Nat → α) : swf d ([] : Sparse α) = true := by simp [swf_iff]

theorem swf_filter (d : Nat → α) (l : Sparse α) (p : Nat × α → Bool) (h : swf d l = true) : swf d (l.filter p) = true := by
  rw [swf_iff] at h ⊢
  exact ⟨h.1.filter p, fun e he => h.2 e (List.mem_of_mem_filter he)⟩

/-- Two canonical tables put after one another, the keys of the first below a bound and those of the second not. -/
theorem swf_append (d : Nat → α) (l r : Sparse α) (k : Nat) (hl : swf d l = true) (hr : swf d r = true)
    (h1 : ∀ e ∈ l, e.1 < k) (h2 : ∀ e ∈ r, k ≤ e.1) : swf d (l ++ r) = true := by
  rw [swf_iff] at hl hr ⊢
  refine ⟨List.pairwise_append.2 ⟨hl.1, hr.1, fun x hx y hy => Nat.lt_of_lt_of_le (h1 x hx) (h2 y hy)⟩, fun e he => ?_⟩
  rcases List.mem_append.1 he with he | he
  · exact hl.2 e he
  · exact hr.2 e he

theorem swf_sset (d v : α) (l : Sparse α) (a : Nat) (h : swf (fun _ => d) l = true) :
    swf (fun _ => d) (sset d l a v) = true := by
  have hlo := swf_filter (fun _ => d) l (fun e => decide (e.1 < a)) h
  have hhi := swf_filter (fun _ => d) l (fun e => decide (a < e.1)) h
  have hmid : swf (fun _ => d) (if v = d then [] else [(a, v)]) = true := by
    by_cases hv : v = d <;> simp [hv, swf_iff]
  unfold sset
  refine swf_append _ _ _ (a + 1) (swf_append _ _ _ a hlo hmid ?_ ?_) hhi ?_ ?_
  · intro e he; simpa using (List.mem_filter.1 he).2
  · intro e he
    by_cases hv : v = d <;> simp [hv] at he
    rw [he]
  · intro e he
    rcases List.mem_append.1 he with he | he
    · have : e.1 < a := by simpa using (List.mem_filter.1 he).2
      omega
    · by_cases hv : v = d <;> simp [hv] at he
      rw [he]; exact Nat.lt_succ_self a
  · intro e he
    have : a < e.1 := by simpa using (List.mem_filter.1 he).2
    omega

theorem swf_sclear (d : Nat → α) (l : Sparse α) (lo hi : Nat) (h : swf d l = true) : swf d (sclear l lo hi) = true :=
  swf_filter d l _ h

end Tables

/-! ## Memories -/

/-- Reading one byte after writing one. -/
@[simp] theorem memGet_memSet (m : List Host.Cell) (a b : Nat) (v : Byte) :
    memGet (memSet m a v) b = if b = a then v else memGet m b := sget_sset memByte0 v m a b

theorem memWf_nil : memWf [] = true := swf_nil _

theorem memWf_memSet (m : List Host.Cell) (a : Nat) (v : Byte) (h : memWf m = true) : memWf (memSet m a v) = true :=
  swf_sset memByte0 v m a h

theorem memWf_memPut (m : List Host.Cell) (a : Nat) (l : List Byte) (h : memWf m = true) : memWf (memPut m a l) = true := by
  induction l generalizing m a with
  | nil => exact h
  | cons b bs ih => exact ih _ _ (memWf_memSet m a b h)

theorem memWf_memPutW (m : List Host.Cell) (a : Nat) (w : Word) (h : memWf m = true) : memWf (memPutW m a w) = true :=
  memWf_memPut m a _ h

theorem memWf_memZero (m : List Host.Cell) (a n : Nat) (h : memWf m = true) : memWf (memZero m a n) = true :=
  swf_sclear _ m a (a + n) h

theorem memWf_filter (m : List Host.Cell) (p : Host.Cell → Bool) (h : memWf m = true) : memWf (m.filter p) = true :=
  swf_filter _ m p h

/-- Cells moved by a constant distance upwards from a common bound stay canonical. -/
theorem memWf_shift (m : List Host.Cell) (lo at_ : Nat) (h : memWf m = true) (hlo : ∀ e ∈ m, lo ≤ e.1) :
    memWf (m.map (fun e => (e.1 - lo + at_, e.2))) = true := by
  unfold memWf at h ⊢
  rw [swf_iff] at h ⊢
  refine ⟨?_, ?_⟩
  · rw [List.pairwise_map]
    refine h.1.imp_of_mem (fun hx hy hxy => ?_)
    have := hlo _ hx
    have := hlo _ hy
    simp only
    omega
  · intro e he
    obtain ⟨x, hx, rfl⟩ := List.mem_map.1 he
    exact h.2 x hx

theorem memWf_memCopy (src dst : List Host.Cell) (lo n at_ : Nat) (hs : memWf src = true) (hd : memWf dst = true) :
    memWf (memCopy src lo n dst at_) = true := by
  have key : ∀ e ∈ src.filter (fun e => decide (lo ≤ e.1) && decide (e.1 < lo + n)), lo ≤ e.1 ∧ e.1 < lo + n := by
    intro e he; simpa using (List.mem_filter.1 he).2
  have hmid := memWf_shift _ lo at_ (memWf_filter src (fun e => decide (lo ≤ e.1) && decide (e.1 < lo + n)) hs)
    (fun e he => (key e he).1)
  unfold memCopy
  refine swf_append _ _ _ (at_ + n) (swf_append _ _ _ at_ (memWf_filter dst _ hd) hmid ?_ ?_) (memWf_filter dst _ hd) ?_ ?_
  · intro e he; simpa using (List.mem_filter.1 he).2
  · intro e he
    obtain ⟨x, _, rfl⟩ := List.mem_map.1 he
    exact Nat.le_add_left _ _
  · intro e he
    rcases List.mem_append.1 he with he | he
    · have : e.1 < at_ := by simpa using (List.mem_filter.1 he).2
      omega
    · obtain ⟨x, hx, rfl⟩ := List.mem_map.1 he
      have := key x hx
      simp only
      omega
  · intro e he; simpa using (List.mem_filter.1 he).2

/-- Reading a byte that a list of bytes written elsewhere does not touch. -/
theorem memGet_memPut_other (m : List Host.Cell) (a b : Nat) (l : List Byte) (h : b < a ∨ a + l.length ≤ b) :
    memGet (memPut m a l) b = memGet m b := by
  induction l generalizing m a with
  | nil => rfl
  | cons x xs ih =>
    rw [memPut, ih _ _ (by simp only [List.length_cons] at h; omega), memGet_memSet, if_neg]
    simp only [List.length_cons] at h
    omega

/-- The bytes just written are the bytes read. -/
theorem memBytes_memPut (m : List Host.Cell) (a : Nat) (l : List Byte) : memBytes (memPut m a l) a l.length = l := by
  induction l generalizing m a with
  | nil => rfl
  | cons x xs ih =>
    rw [memPut, List.length_cons, memBytes, ih, memGet_memPut_other _ _ _ _ (by omega), memGet_memSet, if_pos rfl]

end Sys2Proof.Machine
end

