-- ==== Sys2Proof/Laws/Keeps.lean ====
section
/-! SUPPORT. What an operation keeps of the state it starts from: the queue of commands, every field outside a mask of fields,
the memories' canonical form, the log's count and the fuses. One update lemma per group of fields that a record update writes. -/

namespace Sys2Proof.Machine

/-- Every bit of mask a is a bit of mask m. -/
def Sub (a m : Nat) : Prop := ∀ i, a.testBit i = true → m.testBit i = true

theorem sub_refl (m : Nat) : Sub m m := fun _ h => h

theorem sub_bit {a m i : Nat} (h : Sub a m) (hi : a.testBit i = true) : m.testBit i = true := h i hi

theorem sub_of {a b m : Nat} (h : Sub b m) (hab : b ||| a = b) : Sub a m := fun i hi => h i (by
  rw [← hab, Nat.testBit_or, hi, Bool.or_true])

/-- s keeps of r every field whose bit the mask m does not have (field i of State is bit i), the queue of commands always, and
what State.sound and State.fusesGrow speak of. -/
structure Keeps (m : Nat) (r s : State) : Prop where
  pending : s.pending = r.pending
  regs : m.testBit 1 = false → s.regs = r.regs
  shadows : m.testBit 2 = false → s.shadows = r.shadows
  mirror : m.testBit 3 = false → s.mirror = r.mirror
  data : m.testBit 4 = false → s.data = r.data
  logm : m.testBit 5 = false → s.logm = r.logm
  quem : m.testBit 6 = false → s.quem = r.quem
  code : m.testBit 7 = false → s.code = r.code
  feram : m.testBit 8 = false → s.feram = r.feram
  store : m.testBit 9 = false → s.store = r.store
  ecc : m.testBit 10 = false → s.ecc = r.ecc
  eng : m.testBit 11 = false → s.eng = r.eng
  image : m.testBit 12 = false → s.image = r.image
  qrd : m.testBit 13 = false → s.qrd = r.qrd
  qcell : m.testBit 14 = false → s.qcell = r.qcell
  ports : m.testBit 15 = false → s.ports = r.ports
  xcnt : m.testBit 16 = false → s.xcnt = r.xcnt
  host : m.testBit 17 = false → s.host = r.host
  logNext : m.testBit 18 = false → s.logNext = r.logNext
  logCompl : m.testBit 19 = false → s.logCompl = r.logCompl
  logCount : m.testBit 20 = false → s.logCount = r.logCount
  logged : m.testBit 21 = false → s.logged = r.logged
  hattn : m.testBit 22 = false → s.hattn = r.hattn
  opUs : m.testBit 23 = false → s.opUs = r.opUs
  pwrCyc : m.testBit 24 = false → s.pwrCyc = r.pwrCyc
  fabTime : m.testBit 25 = false → s.fabTime = r.fabTime
  hamper : m.testBit 26 = false → s.hamper = r.hamper
  di : m.testBit 27 = false → s.di = r.di
  dout : m.testBit 28 = false → s.dout = r.dout
  ao : m.testBit 29 = false → s.ao = r.ao
  supply : m.testBit 30 = false → s.supply = r.supply
  stime : m.testBit 31 = false → s.stime = r.stime
  pair : m.testBit 32 = false → s.pair = r.pair
  boot : m.testBit 33 = false → s.boot = r.boot
  mtr : m.testBit 34 = false → s.mtr = r.mtr
  ctl : m.testBit 35 = false → s.ctl = r.ctl
  sec : m.testBit 36 = false → s.sec = r.sec
  fab : m.testBit 37 = false → s.fab = r.fab
  bus : m.testBit 38 = false → s.bus = r.bus
  lcd : m.testBit 39 = false → s.lcd = r.lcd
  rtc : m.testBit 40 = false → s.rtc = r.rtc
  freeCtr : m.testBit 41 = false → s.freeCtr = r.freeCtr
  memOk : r.memOk → s.memOk
  logLe : r.logCount ≤ 8192 → s.logCount ≤ 8192
  lcn : r.sec.lcn ≤ 30 → r.sec.lcn ≤ s.sec.lcn ∧ s.sec.lcn ≤ 30
  retired : r.sec.retired = true → s.sec.retired = true

theorem Keeps.refl (m : Nat) (s : State) : Keeps m s s :=
  ⟨rfl, fun _ => rfl, fun _ => rfl, fun _ => rfl, fun _ => rfl, fun _ => rfl, fun _ => rfl, fun _ => rfl, fun _ => rfl, fun _ => rfl, fun _ => rfl, fun _ => rfl, fun _ => rfl, fun _ => rfl, fun _ => rfl, fun _ => rfl, fun _ => rfl, fun _ => rfl, fun _ => rfl, fun _ => rfl, fun _ => rfl, fun _ => rfl, fun _ => rfl, fun _ => rfl, fun _ => rfl, fun _ => rfl, fun _ => rfl, fun _ => rfl, fun _ => rfl, fun _ => rfl, fun _ => rfl, fun _ => rfl, fun _ => rfl, fun _ => rfl, fun _ => rfl, fun _ => rfl, fun _ => rfl, fun _ => rfl, fun _ => rfl, fun _ => rfl, fun _ => rfl, fun _ => rfl, id, id, fun h => ⟨Nat.le_refl _, h⟩, id⟩

theorem Keeps.trans {m : Nat} {r s t : State} (h : Keeps m r s) (k : Keeps m s t) : Keeps m r t :=
  ⟨k.pending.trans h.pending, fun b => (k.regs b).trans (h.regs b), fun b => (k.shadows b).trans (h.shadows b), fun b => (k.mirror b).trans (h.mirror b), fun b => (k.data b).trans (h.data b), fun b => (k.logm b).trans (h.logm b), fun b => (k.quem b).trans (h.quem b), fun b => (k.code b).trans (h.code b), fun b => (k.feram b).trans (h.feram b), fun b => (k.store b).trans (h.store b), fun b => (k.ecc b).trans (h.ecc b), fun b => (k.eng b).trans (h.eng b), fun b => (k.image b).trans (h.image b), fun b => (k.qrd b).trans (h.qrd b), fun b => (k.qcell b).trans (h.qcell b), fun b => (k.ports b).trans (h.ports b), fun b => (k.xcnt b).trans (h.xcnt b), fun b => (k.host b).trans (h.host b), fun b => (k.logNext b).trans (h.logNext b), fun b => (k.logCompl b).trans (h.logCompl b), fun b => (k.logCount b).trans (h.logCount b), fun b => (k.logged b).trans (h.logged b), fun b => (k.hattn b).trans (h.hattn b), fun b => (k.opUs b).trans (h.opUs b), fun b => (k.pwrCyc b).trans (h.pwrCyc b), fun b => (k.fabTime b).trans (h.fabTime b), fun b => (k.hamper b).trans (h.hamper b), fun b => (k.di b).trans (h.di b), fun b => (k.dout b).trans (h.dout b), fun b => (k.ao b).trans (h.ao b), fun b => (k.supply b).trans (h.supply b), fun b => (k.stime b).trans (h.stime b), fun b => (k.pair b).trans (h.pair b), fun b => (k.boot b).trans (h.boot b), fun b => (k.mtr b).trans (h.mtr b), fun b => (k.ctl b).trans (h.ctl b), fun b => (k.sec b).trans (h.sec b), fun b => (k.fab b).trans (h.fab b), fun b => (k.bus b).trans (h.bus b), fun b => (k.lcd b).trans (h.lcd b), fun b => (k.rtc b).trans (h.rtc b), fun b => (k.freeCtr b).trans (h.freeCtr b),
   fun w => k.memOk (h.memOk w), fun w => k.logLe (h.logLe w),
   fun w => ⟨Nat.le_trans (h.lcn w).1 (k.lcn (h.lcn w).2).1, (k.lcn (h.lcn w).2).2⟩, fun w => k.retired (h.retired w)⟩

theorem memWf_ite {c : Prop} [Decidable c] (a b : List Host.Cell) (h : memWf a = true) (k : memWf b = true) :
    memWf (if c then a else b) = true := by
  split
  · exact h
  · exact k

theorem off {m i : Nat} {p : Prop} (hi : m.testBit i = true) (h : m.testBit i = false) : p := by simp [hi] at h

theorem Keeps.upd_regs {m : Nat} {r s : State} {v_regs : Sparse Word} (h : Keeps m r s)
    (b1 : m.testBit 1 = true) :
    Keeps m r { s with regs := v_regs } :=
  { h with regs := off b1 }

theorem Keeps.upd_regs_shadows {m : Nat} {r s : State} {v_regs : Sparse Word} {v_shadows : Sparse Word} (h : Keeps m r s)
    (b1 : m.testBit 1 = true)
    (b2 : m.testBit 2 = true) :
    Keeps m r { s with regs := v_regs, shadows := v_shadows } :=
  { h with regs := off b1, shadows := off b2 }

theorem Keeps.upd_regs_shadows_mirror_data_quem_code_ecc_eng_image_qrd_qcell_ports_xcnt_host_logged_hattn_hamper_di_dout_ao_supply_stime_pair_boot_mtr_ctl_sec_fab_bus_lcd_rtc {m : Nat} {r s : State} {v_regs : Sparse Word} {v_shadows : Sparse Word} {v_mirror : Sparse MCell} {v_data : List Host.Cell} {v_quem : List Host.Cell} {v_code : List Host.Cell} {v_ecc : Sparse Ecc} {v_eng : Eng} {v_image : Image} {v_qrd : Sparse Nat} {v_qcell : Sparse (List Word)} {v_ports : Sparse Port} {v_xcnt : Sparse Word} {v_host : HostPort} {v_logged : List (Nat × Nat)} {v_hattn : Bool} {v_hamper : Hamper} {v_di : Sparse DiIsland} {v_dout : Sparse DoIsland} {v_ao : Sparse AoIsland} {v_supply : Sparse Supply} {v_stime : Sparse Word} {v_pair : Pair} {v_boot : Boot} {v_mtr : Mtr} {v_ctl : Ctl} {v_sec : Sec} {v_fab : Fab} {v_bus : Bus} {v_lcd : Lcd} {v_rtc : Rtc} (h : Keeps m r s)
    (b1 : m.testBit 1 = true)
    (b2 : m.testBit 2 = true)
    (b3 : m.testBit 3 = true)
    (b4 : m.testBit 4 = true)
    (b6 : m.testBit 6 = true)
    (b7 : m.testBit 7 = true)
    (b10 : m.testBit 10 = true)
    (b11 : m.testBit 11 = true)
    (b12 : m.testBit 12 = true)
    (b13 : m.testBit 13 = true)
    (b14 : m.testBit 14 = true)
    (b15 : m.testBit 15 = true)
    (b16 : m.testBit 16 = true)
    (b17 : m.testBit 17 = true)
    (b21 : m.testBit 21 = true)
    (b22 : m.testBit 22 = true)
    (b26 : m.testBit 26 = true)
    (b27 : m.testBit 27 = true)
    (b28 : m.testBit 28 = true)
    (b29 : m.testBit 29 = true)
    (b30 : m.testBit 30 = true)
    (b31 : m.testBit 31 = true)
    (b32 : m.testBit 32 = true)
    (b33 : m.testBit 33 = true)
    (b34 : m.testBit 34 = true)
    (b35 : m.testBit 35 = true)
    (b36 : m.testBit 36 = true)
    (b37 : m.testBit 37 = true)
    (b38 : m.testBit 38 = true)
    (b39 : m.testBit 39 = true)
    (b40 : m.testBit 40 = true)
    (w_data : r.memOk → s.memOk → memWf v_data = true)
    (w_quem : r.memOk → s.memOk → memWf v_quem = true)
    (w_code : r.memOk → s.memOk → memWf v_code = true)
    (ll : (r.sec.lcn ≤ 30 → r.sec.lcn ≤ s.sec.lcn ∧ s.sec.lcn ≤ 30) → r.sec.lcn ≤ 30 → r.sec.lcn ≤ v_sec.lcn ∧ v_sec.lcn ≤ 30)
    (lr : (r.sec.retired = true → s.sec.retired = true) → r.sec.retired = true → v_sec.retired = true) :
    Keeps m r { s with regs := v_regs, shadows := v_shadows, mirror := v_mirror, data := v_data, quem := v_quem, code := v_code, ecc := v_ecc, eng := v_eng, image := v_image, qrd := v_qrd, qcell := v_qcell, ports := v_ports, xcnt := v_xcnt, host := v_host, logged := v_logged, hattn := v_hattn, hamper := v_hamper, di := v_di, dout := v_dout, ao := v_ao, supply := v_supply, stime := v_stime, pair := v_pair, boot := v_boot, mtr := v_mtr, ctl := v_ctl, sec := v_sec, fab := v_fab, bus := v_bus, lcd := v_lcd, rtc := v_rtc } :=
  { h with regs := off b1, shadows := off b2, mirror := off b3, data := off b4, quem := off b6, code := off b7, ecc := off b10, eng := off b11, image := off b12, qrd := off b13, qcell := off b14, ports := off b15, xcnt := off b16, host := off b17, logged := off b21, hattn := off b22, hamper := off b26, di := off b27, dout := off b28, ao := off b29, supply := off b30, stime := off b31, pair := off b32, boot := off b33, mtr := off b34, ctl := off b35, sec := off b36, fab := off b37, bus := off b38, lcd := off b39, rtc := off b40, memOk := fun w => ⟨w_data w (h.memOk w), (h.memOk w).2.1, w_quem w (h.memOk w), w_code w (h.memOk w), (h.memOk w).2.2.2.2.1, (h.memOk w).2.2.2.2.2⟩, lcn := ll h.lcn, retired := lr h.retired }

theorem Keeps.upd_shadows {m : Nat} {r s : State} {v_shadows : Sparse Word} (h : Keeps m r s)
    (b2 : m.testBit 2 = true) :
    Keeps m r { s with shadows := v_shadows } :=
  { h with shadows := off b2 }

theorem Keeps.upd_mirror {m : Nat} {r s : State} {v_mirror : Sparse MCell} (h : Keeps m r s)
    (b3 : m.testBit 3 = true) :
    Keeps m r { s with mirror := v_mirror } :=
  { h with mirror := off b3 }

theorem Keeps.upd_data {m : Nat} {r s : State} {v_data : List Host.Cell} (h : Keeps m r s)
    (b4 : m.testBit 4 = true)
    (w_data : r.memOk → s.memOk → memWf v_data = true) :
    Keeps m r { s with data := v_data } :=
  { h with data := off b4, memOk := fun w => ⟨w_data w (h.memOk w), (h.memOk w).2.1, (h.memOk w).2.2.1, (h.memOk w).2.2.2.1, (h.memOk w).2.2.2.2.1, (h.memOk w).2.2.2.2.2⟩ }

theorem Keeps.upd_data_ecc {m : Nat} {r s : State} {v_data : List Host.Cell} {v_ecc : Sparse Ecc} (h : Keeps m r s)
    (b4 : m.testBit 4 = true)
    (b10 : m.testBit 10 = true)
    (w_data : r.memOk → s.memOk → memWf v_data = true) :
    Keeps m r { s with data := v_data, ecc := v_ecc } :=
  { h with data := off b4, ecc := off b10, memOk := fun w => ⟨w_data w (h.memOk w), (h.memOk w).2.1, (h.memOk w).2.2.1, (h.memOk w).2.2.2.1, (h.memOk w).2.2.2.2.1, (h.memOk w).2.2.2.2.2⟩ }

theorem Keeps.upd_logm {m : Nat} {r s : State} {v_logm : List Host.Cell} (h : Keeps m r s)
    (b5 : m.testBit 5 = true)
    (w_logm : r.memOk → s.memOk → memWf v_logm = true) :
    Keeps m r { s with logm := v_logm } :=
  { h with logm := off b5, memOk := fun w => ⟨(h.memOk w).1, w_logm w (h.memOk w), (h.memOk w).2.2.1, (h.memOk w).2.2.2.1, (h.memOk w).2.2.2.2.1, (h.memOk w).2.2.2.2.2⟩ }

theorem Keeps.upd_logm_ecc_logNext_logCompl_logCount {m : Nat} {r s : State} {v_logm : List Host.Cell} {v_ecc : Sparse Ecc} {v_logNext : Word} {v_logCompl : Word} {v_logCount : Nat} (h : Keeps m r s)
    (b5 : m.testBit 5 = true)
    (b10 : m.testBit 10 = true)
    (b18 : m.testBit 18 = true)
    (b19 : m.testBit 19 = true)
    (b20 : m.testBit 20 = true)
    (w_logm : r.memOk → s.memOk → memWf v_logm = true)
    (lc : s.logCount ≤ 8192 → v_logCount ≤ 8192) :
    Keeps m r { s with logm := v_logm, ecc := v_ecc, logNext := v_logNext, logCompl := v_logCompl, logCount := v_logCount } :=
  { h with logm := off b5, ecc := off b10, logNext := off b18, logCompl := off b19, logCount := off b20, memOk := fun w => ⟨(h.memOk w).1, w_logm w (h.memOk w), (h.memOk w).2.2.1, (h.memOk w).2.2.2.1, (h.memOk w).2.2.2.2.1, (h.memOk w).2.2.2.2.2⟩, logLe := fun w => lc (h.logLe w) }

theorem Keeps.upd_quem {m : Nat} {r s : State} {v_quem : List Host.Cell} (h : Keeps m r s)
    (b6 : m.testBit 6 = true)
    (w_quem : r.memOk → s.memOk → memWf v_quem = true) :
    Keeps m r { s with quem := v_quem } :=
  { h with quem := off b6, memOk := fun w => ⟨(h.memOk w).1, (h.memOk w).2.1, w_quem w (h.memOk w), (h.memOk w).2.2.2.1, (h.memOk w).2.2.2.2.1, (h.memOk w).2.2.2.2.2⟩ }

theorem Keeps.upd_quem_qrd {m : Nat} {r s : State} {v_quem : List Host.Cell} {v_qrd : Sparse Nat} (h : Keeps m r s)
    (b6 : m.testBit 6 = true)
    (b13 : m.testBit 13 = true)
    (w_quem : r.memOk → s.memOk → memWf v_quem = true) :
    Keeps m r { s with quem := v_quem, qrd := v_qrd } :=
  { h with quem := off b6, qrd := off b13, memOk := fun w => ⟨(h.memOk w).1, (h.memOk w).2.1, w_quem w (h.memOk w), (h.memOk w).2.2.2.1, (h.memOk w).2.2.2.2.1, (h.memOk w).2.2.2.2.2⟩ }

theorem Keeps.upd_code_ecc_image_sec {m : Nat} {r s : State} {v_code : List Host.Cell} {v_ecc : Sparse Ecc} {v_image : Image} {v_sec : Sec} (h : Keeps m r s)
    (b7 : m.testBit 7 = true)
    (b10 : m.testBit 10 = true)
    (b12 : m.testBit 12 = true)
    (b36 : m.testBit 36 = true)
    (w_code : r.memOk → s.memOk → memWf v_code = true)
    (ll : (r.sec.lcn ≤ 30 → r.sec.lcn ≤ s.sec.lcn ∧ s.sec.lcn ≤ 30) → r.sec.lcn ≤ 30 → r.sec.lcn ≤ v_sec.lcn ∧ v_sec.lcn ≤ 30)
    (lr : (r.sec.retired = true → s.sec.retired = true) → r.sec.retired = true → v_sec.retired = true) :
    Keeps m r { s with code := v_code, ecc := v_ecc, image := v_image, sec := v_sec } :=
  { h with code := off b7, ecc := off b10, image := off b12, sec := off b36, memOk := fun w => ⟨(h.memOk w).1, (h.memOk w).2.1, (h.memOk w).2.2.1, w_code w (h.memOk w), (h.memOk w).2.2.2.2.1, (h.memOk w).2.2.2.2.2⟩, lcn := ll h.lcn, retired := lr h.retired }

theorem Keeps.upd_feram {m : Nat} {r s : State} {v_feram : List Host.Cell} (h : Keeps m r s)
    (b8 : m.testBit 8 = true)
    (w_feram : r.memOk → s.memOk → memWf v_feram = true) :
    Keeps m r { s with feram := v_feram } :=
  { h with feram := off b8, memOk := fun w => ⟨(h.memOk w).1, (h.memOk w).2.1, (h.memOk w).2.2.1, (h.memOk w).2.2.2.1, w_feram w (h.memOk w), (h.memOk w).2.2.2.2.2⟩ }

theorem Keeps.upd_feram_mtr {m : Nat} {r s : State} {v_feram : List Host.Cell} {v_mtr : Mtr} (h : Keeps m r s)
    (b8 : m.testBit 8 = true)
    (b34 : m.testBit 34 = true)
    (w_feram : r.memOk → s.memOk → memWf v_feram = true) :
    Keeps m r { s with feram := v_feram, mtr := v_mtr } :=
  { h with feram := off b8, mtr := off b34, memOk := fun w => ⟨(h.memOk w).1, (h.memOk w).2.1, (h.memOk w).2.2.1, (h.memOk w).2.2.2.1, w_feram w (h.memOk w), (h.memOk w).2.2.2.2.2⟩ }

theorem Keeps.upd_feram_sec {m : Nat} {r s : State} {v_feram : List Host.Cell} {v_sec : Sec} (h : Keeps m r s)
    (b8 : m.testBit 8 = true)
    (b36 : m.testBit 36 = true)
    (w_feram : r.memOk → s.memOk → memWf v_feram = true)
    (ll : (r.sec.lcn ≤ 30 → r.sec.lcn ≤ s.sec.lcn ∧ s.sec.lcn ≤ 30) → r.sec.lcn ≤ 30 → r.sec.lcn ≤ v_sec.lcn ∧ v_sec.lcn ≤ 30)
    (lr : (r.sec.retired = true → s.sec.retired = true) → r.sec.retired = true → v_sec.retired = true) :
    Keeps m r { s with feram := v_feram, sec := v_sec } :=
  { h with feram := off b8, sec := off b36, memOk := fun w => ⟨(h.memOk w).1, (h.memOk w).2.1, (h.memOk w).2.2.1, (h.memOk w).2.2.2.1, w_feram w (h.memOk w), (h.memOk w).2.2.2.2.2⟩, lcn := ll h.lcn, retired := lr h.retired }

theorem Keeps.upd_store {m : Nat} {r s : State} {v_store : List Host.Cell} (h : Keeps m r s)
    (b9 : m.testBit 9 = true)
    (w_store : r.memOk → s.memOk → memWf v_store = true) :
    Keeps m r { s with store := v_store } :=
  { h with store := off b9, memOk := fun w => ⟨(h.memOk w).1, (h.memOk w).2.1, (h.memOk w).2.2.1, (h.memOk w).2.2.2.1, (h.memOk w).2.2.2.2.1, w_store w (h.memOk w)⟩ }

theorem Keeps.upd_store_sec {m : Nat} {r s : State} {v_store : List Host.Cell} {v_sec : Sec} (h : Keeps m r s)
    (b9 : m.testBit 9 = true)
    (b36 : m.testBit 36 = true)
    (w_store : r.memOk → s.memOk → memWf v_store = true)
    (ll : (r.sec.lcn ≤ 30 → r.sec.lcn ≤ s.sec.lcn ∧ s.sec.lcn ≤ 30) → r.sec.lcn ≤ 30 → r.sec.lcn ≤ v_sec.lcn ∧ v_sec.lcn ≤ 30)
    (lr : (r.sec.retired = true → s.sec.retired = true) → r.sec.retired = true → v_sec.retired = true) :
    Keeps m r { s with store := v_store, sec := v_sec } :=
  { h with store := off b9, sec := off b36, memOk := fun w => ⟨(h.memOk w).1, (h.memOk w).2.1, (h.memOk w).2.2.1, (h.memOk w).2.2.2.1, (h.memOk w).2.2.2.2.1, w_store w (h.memOk w)⟩, lcn := ll h.lcn, retired := lr h.retired }

theorem Keeps.upd_ecc {m : Nat} {r s : State} {v_ecc : Sparse Ecc} (h : Keeps m r s)
    (b10 : m.testBit 10 = true) :
    Keeps m r { s with ecc := v_ecc } :=
  { h with ecc := off b10 }

theorem Keeps.upd_eng {m : Nat} {r s : State} {v_eng : Eng} (h : Keeps m r s)
    (b11 : m.testBit 11 = true) :
    Keeps m r { s with eng := v_eng } :=
  { h with eng := off b11 }

theorem Keeps.upd_eng_opUs_fabTime {m : Nat} {r s : State} {v_eng : Eng} {v_opUs : Nat} {v_fabTime : Nat} (h : Keeps m r s)
    (b11 : m.testBit 11 = true)
    (b23 : m.testBit 23 = true)
    (b25 : m.testBit 25 = true) :
    Keeps m r { s with eng := v_eng, opUs := v_opUs, fabTime := v_fabTime } :=
  { h with eng := off b11, opUs := off b23, fabTime := off b25 }

theorem Keeps.upd_eng_fabTime {m : Nat} {r s : State} {v_eng : Eng} {v_fabTime : Nat} (h : Keeps m r s)
    (b11 : m.testBit 11 = true)
    (b25 : m.testBit 25 = true) :
    Keeps m r { s with eng := v_eng, fabTime := v_fabTime } :=
  { h with eng := off b11, fabTime := off b25 }

theorem Keeps.upd_eng_hamper {m : Nat} {r s : State} {v_eng : Eng} {v_hamper : Hamper} (h : Keeps m r s)
    (b11 : m.testBit 11 = true)
    (b26 : m.testBit 26 = true) :
    Keeps m r { s with eng := v_eng, hamper := v_hamper } :=
  { h with eng := off b11, hamper := off b26 }

theorem Keeps.upd_eng_boot {m : Nat} {r s : State} {v_eng : Eng} {v_boot : Boot} (h : Keeps m r s)
    (b11 : m.testBit 11 = true)
    (b33 : m.testBit 33 = true) :
    Keeps m r { s with eng := v_eng, boot := v_boot } :=
  { h with eng := off b11, boot := off b33 }

theorem Keeps.upd_image {m : Nat} {r s : State} {v_image : Image} (h : Keeps m r s)
    (b12 : m.testBit 12 = true) :
    Keeps m r { s with image := v_image } :=
  { h with image := off b12 }

theorem Keeps.upd_image_boot {m : Nat} {r s : State} {v_image : Image} {v_boot : Boot} (h : Keeps m r s)
    (b12 : m.testBit 12 = true)
    (b33 : m.testBit 33 = true) :
    Keeps m r { s with image := v_image, boot := v_boot } :=
  { h with image := off b12, boot := off b33 }

theorem Keeps.upd_qrd {m : Nat} {r s : State} {v_qrd : Sparse Nat} (h : Keeps m r s)
    (b13 : m.testBit 13 = true) :
    Keeps m r { s with qrd := v_qrd } :=
  { h with qrd := off b13 }

theorem Keeps.upd_qcell {m : Nat} {r s : State} {v_qcell : Sparse (List Word)} (h : Keeps m r s)
    (b14 : m.testBit 14 = true) :
    Keeps m r { s with qcell := v_qcell } :=
  { h with qcell := off b14 }

theorem Keeps.upd_ports {m : Nat} {r s : State} {v_ports : Sparse Port} (h : Keeps m r s)
    (b15 : m.testBit 15 = true) :
    Keeps m r { s with ports := v_ports } :=
  { h with ports := off b15 }

theorem Keeps.upd_xcnt {m : Nat} {r s : State} {v_xcnt : Sparse Word} (h : Keeps m r s)
    (b16 : m.testBit 16 = true) :
    Keeps m r { s with xcnt := v_xcnt } :=
  { h with xcnt := off b16 }

theorem Keeps.upd_host {m : Nat} {r s : State} {v_host : HostPort} (h : Keeps m r s)
    (b17 : m.testBit 17 = true) :
    Keeps m r { s with host := v_host } :=
  { h with host := off b17 }

theorem Keeps.upd_logNext_logCompl_logCount {m : Nat} {r s : State} {v_logNext : Word} {v_logCompl : Word} {v_logCount : Nat} (h : Keeps m r s)
    (b18 : m.testBit 18 = true)
    (b19 : m.testBit 19 = true)
    (b20 : m.testBit 20 = true)
    (lc : s.logCount ≤ 8192 → v_logCount ≤ 8192) :
    Keeps m r { s with logNext := v_logNext, logCompl := v_logCompl, logCount := v_logCount } :=
  { h with logNext := off b18, logCompl := off b19, logCount := off b20, logLe := fun w => lc (h.logLe w) }

theorem Keeps.upd_logCompl_hattn {m : Nat} {r s : State} {v_logCompl : Word} {v_hattn : Bool} (h : Keeps m r s)
    (b19 : m.testBit 19 = true)
    (b22 : m.testBit 22 = true) :
    Keeps m r { s with logCompl := v_logCompl, hattn := v_hattn } :=
  { h with logCompl := off b19, hattn := off b22 }

theorem Keeps.upd_logged {m : Nat} {r s : State} {v_logged : List (Nat × Nat)} (h : Keeps m r s)
    (b21 : m.testBit 21 = true) :
    Keeps m r { s with logged := v_logged } :=
  { h with logged := off b21 }

theorem Keeps.upd_logged_opUs {m : Nat} {r s : State} {v_logged : List (Nat × Nat)} {v_opUs : Nat} (h : Keeps m r s)
    (b21 : m.testBit 21 = true)
    (b23 : m.testBit 23 = true) :
    Keeps m r { s with logged := v_logged, opUs := v_opUs } :=
  { h with logged := off b21, opUs := off b23 }

theorem Keeps.upd_hattn {m : Nat} {r s : State} {v_hattn : Bool} (h : Keeps m r s)
    (b22 : m.testBit 22 = true) :
    Keeps m r { s with hattn := v_hattn } :=
  { h with hattn := off b22 }

theorem Keeps.upd_opUs_pwrCyc {m : Nat} {r s : State} {v_opUs : Nat} {v_pwrCyc : Nat} (h : Keeps m r s)
    (b23 : m.testBit 23 = true)
    (b24 : m.testBit 24 = true) :
    Keeps m r { s with opUs := v_opUs, pwrCyc := v_pwrCyc } :=
  { h with opUs := off b23, pwrCyc := off b24 }

theorem Keeps.upd_opUs_fabTime {m : Nat} {r s : State} {v_opUs : Nat} {v_fabTime : Nat} (h : Keeps m r s)
    (b23 : m.testBit 23 = true)
    (b25 : m.testBit 25 = true) :
    Keeps m r { s with opUs := v_opUs, fabTime := v_fabTime } :=
  { h with opUs := off b23, fabTime := off b25 }

theorem Keeps.upd_pwrCyc {m : Nat} {r s : State} {v_pwrCyc : Nat} (h : Keeps m r s)
    (b24 : m.testBit 24 = true) :
    Keeps m r { s with pwrCyc := v_pwrCyc } :=
  { h with pwrCyc := off b24 }

theorem Keeps.upd_fabTime {m : Nat} {r s : State} {v_fabTime : Nat} (h : Keeps m r s)
    (b25 : m.testBit 25 = true) :
    Keeps m r { s with fabTime := v_fabTime } :=
  { h with fabTime := off b25 }

theorem Keeps.upd_fabTime_fab {m : Nat} {r s : State} {v_fabTime : Nat} {v_fab : Fab} (h : Keeps m r s)
    (b25 : m.testBit 25 = true)
    (b37 : m.testBit 37 = true) :
    Keeps m r { s with fabTime := v_fabTime, fab := v_fab } :=
  { h with fabTime := off b25, fab := off b37 }

theorem Keeps.upd_hamper {m : Nat} {r s : State} {v_hamper : Hamper} (h : Keeps m r s)
    (b26 : m.testBit 26 = true) :
    Keeps m r { s with hamper := v_hamper } :=
  { h with hamper := off b26 }

theorem Keeps.upd_hamper_boot {m : Nat} {r s : State} {v_hamper : Hamper} {v_boot : Boot} (h : Keeps m r s)
    (b26 : m.testBit 26 = true)
    (b33 : m.testBit 33 = true) :
    Keeps m r { s with hamper := v_hamper, boot := v_boot } :=
  { h with hamper := off b26, boot := off b33 }

theorem Keeps.upd_hamper_boot_rtc {m : Nat} {r s : State} {v_hamper : Hamper} {v_boot : Boot} {v_rtc : Rtc} (h : Keeps m r s)
    (b26 : m.testBit 26 = true)
    (b33 : m.testBit 33 = true)
    (b40 : m.testBit 40 = true) :
    Keeps m r { s with hamper := v_hamper, boot := v_boot, rtc := v_rtc } :=
  { h with hamper := off b26, boot := off b33, rtc := off b40 }

theorem Keeps.upd_di {m : Nat} {r s : State} {v_di : Sparse DiIsland} (h : Keeps m r s)
    (b27 : m.testBit 27 = true) :
    Keeps m r { s with di := v_di } :=
  { h with di := off b27 }

theorem Keeps.upd_di_dout_ao_supply {m : Nat} {r s : State} {v_di : Sparse DiIsland} {v_dout : Sparse DoIsland} {v_ao : Sparse AoIsland} {v_supply : Sparse Supply} (h : Keeps m r s)
    (b27 : m.testBit 27 = true)
    (b28 : m.testBit 28 = true)
    (b29 : m.testBit 29 = true)
    (b30 : m.testBit 30 = true) :
    Keeps m r { s with di := v_di, dout := v_dout, ao := v_ao, supply := v_supply } :=
  { h with di := off b27, dout := off b28, ao := off b29, supply := off b30 }

theorem Keeps.upd_dout {m : Nat} {r s : State} {v_dout : Sparse DoIsland} (h : Keeps m r s)
    (b28 : m.testBit 28 = true) :
    Keeps m r { s with dout := v_dout } :=
  { h with dout := off b28 }

theorem Keeps.upd_ao {m : Nat} {r s : State} {v_ao : Sparse AoIsland} (h : Keeps m r s)
    (b29 : m.testBit 29 = true) :
    Keeps m r { s with ao := v_ao } :=
  { h with ao := off b29 }

theorem Keeps.upd_supply {m : Nat} {r s : State} {v_supply : Sparse Supply} (h : Keeps m r s)
    (b30 : m.testBit 30 = true) :
    Keeps m r { s with supply := v_supply } :=
  { h with supply := off b30 }

theorem Keeps.upd_stime {m : Nat} {r s : State} {v_stime : Sparse Word} (h : Keeps m r s)
    (b31 : m.testBit 31 = true) :
    Keeps m r { s with stime := v_stime } :=
  { h with stime := off b31 }

theorem Keeps.upd_pair {m : Nat} {r s : State} {v_pair : Pair} (h : Keeps m r s)
    (b32 : m.testBit 32 = true) :
    Keeps m r { s with pair := v_pair } :=
  { h with pair := off b32 }

theorem Keeps.upd_boot {m : Nat} {r s : State} {v_boot : Boot} (h : Keeps m r s)
    (b33 : m.testBit 33 = true) :
    Keeps m r { s with boot := v_boot } :=
  { h with boot := off b33 }

theorem Keeps.upd_mtr {m : Nat} {r s : State} {v_mtr : Mtr} (h : Keeps m r s)
    (b34 : m.testBit 34 = true) :
    Keeps m r { s with mtr := v_mtr } :=
  { h with mtr := off b34 }

theorem Keeps.upd_ctl {m : Nat} {r s : State} {v_ctl : Ctl} (h : Keeps m r s)
    (b35 : m.testBit 35 = true) :
    Keeps m r { s with ctl := v_ctl } :=
  { h with ctl := off b35 }

theorem Keeps.upd_sec {m : Nat} {r s : State} {v_sec : Sec} (h : Keeps m r s)
    (b36 : m.testBit 36 = true)
    (ll : (r.sec.lcn ≤ 30 → r.sec.lcn ≤ s.sec.lcn ∧ s.sec.lcn ≤ 30) → r.sec.lcn ≤ 30 → r.sec.lcn ≤ v_sec.lcn ∧ v_sec.lcn ≤ 30)
    (lr : (r.sec.retired = true → s.sec.retired = true) → r.sec.retired = true → v_sec.retired = true) :
    Keeps m r { s with sec := v_sec } :=
  { h with sec := off b36, lcn := ll h.lcn, retired := lr h.retired }

theorem Keeps.upd_sec_fab {m : Nat} {r s : State} {v_sec : Sec} {v_fab : Fab} (h : Keeps m r s)
    (b36 : m.testBit 36 = true)
    (b37 : m.testBit 37 = true)
    (ll : (r.sec.lcn ≤ 30 → r.sec.lcn ≤ s.sec.lcn ∧ s.sec.lcn ≤ 30) → r.sec.lcn ≤ 30 → r.sec.lcn ≤ v_sec.lcn ∧ v_sec.lcn ≤ 30)
    (lr : (r.sec.retired = true → s.sec.retired = true) → r.sec.retired = true → v_sec.retired = true) :
    Keeps m r { s with sec := v_sec, fab := v_fab } :=
  { h with sec := off b36, fab := off b37, lcn := ll h.lcn, retired := lr h.retired }

theorem Keeps.upd_fab {m : Nat} {r s : State} {v_fab : Fab} (h : Keeps m r s)
    (b37 : m.testBit 37 = true) :
    Keeps m r { s with fab := v_fab } :=
  { h with fab := off b37 }

theorem Keeps.upd_bus {m : Nat} {r s : State} {v_bus : Bus} (h : Keeps m r s)
    (b38 : m.testBit 38 = true) :
    Keeps m r { s with bus := v_bus } :=
  { h with bus := off b38 }

theorem Keeps.upd_bus_lcd {m : Nat} {r s : State} {v_bus : Bus} {v_lcd : Lcd} (h : Keeps m r s)
    (b38 : m.testBit 38 = true)
    (b39 : m.testBit 39 = true) :
    Keeps m r { s with bus := v_bus, lcd := v_lcd } :=
  { h with bus := off b38, lcd := off b39 }

theorem Keeps.upd_lcd {m : Nat} {r s : State} {v_lcd : Lcd} (h : Keeps m r s)
    (b39 : m.testBit 39 = true) :
    Keeps m r { s with lcd := v_lcd } :=
  { h with lcd := off b39 }

theorem Keeps.upd_rtc {m : Nat} {r s : State} {v_rtc : Rtc} (h : Keeps m r s)
    (b40 : m.testBit 40 = true) :
    Keeps m r { s with rtc := v_rtc } :=
  { h with rtc := off b40 }

theorem Keeps.upd_freeCtr {m : Nat} {r s : State} {v_freeCtr : Nat} (h : Keeps m r s)
    (b41 : m.testBit 41 = true) :
    Keeps m r { s with freeCtr := v_freeCtr } :=
  { h with freeCtr := off b41 }

theorem Keeps.foldl {α : Type} {m : Nat} {r : State} (f : State → α → State) (l : List α)
    (step : ∀ s a, Keeps m r s → Keeps m r (f s a)) (s : State) (h : Keeps m r s) : Keeps m r (l.foldl f s) := by
  induction l generalizing s with
  | nil => exact h
  | cons a l ih => exact ih _ (step s a h)

theorem Keeps.foldl2 {α β : Type} {m : Nat} {r : State} (f : β × State → α → β × State) (l : List α)
    (step : ∀ p a, Keeps m r p.2 → Keeps m r (f p a).2) (p : β × State) (h : Keeps m r p.2) : Keeps m r (l.foldl f p).2 := by
  induction l generalizing p with
  | nil => exact h
  | cons a l ih => exact ih _ (step p a h)

theorem Keeps.foldl3 {α β γ : Type} {m : Nat} {r : State} (f : β × γ × State → α → β × γ × State) (l : List α)
    (step : ∀ p a, Keeps m r p.2.2 → Keeps m r (f p a).2.2) (p : β × γ × State) (h : Keeps m r p.2.2) :
    Keeps m r (l.foldl f p).2.2 := by
  induction l generalizing p with
  | nil => exact h
  | cons a l ih => exact ih _ (step p a h)

theorem Keeps.ite {m : Nat} {r s t : State} {c : Prop} [Decidable c] (h : Keeps m r s) (k : Keeps m r t) :
    Keeps m r (if c then s else t) := by
  split
  · exact h
  · exact k

theorem Keeps.ite2 {α : Type} {m : Nat} {r : State} {p q : α × State} {c : Prop} [Decidable c] (h : Keeps m r p.2)
    (k : Keeps m r q.2) : Keeps m r (if c then p else q).2 := by
  split
  · exact h
  · exact k

theorem Keeps.ite3 {α β : Type} {m : Nat} {r : State} {p q : α × β × State} {c : Prop} [Decidable c]
    (h : Keeps m r p.2.2) (k : Keeps m r q.2.2) : Keeps m r (if c then p else q).2.2 := by
  split
  · exact h
  · exact k

theorem Keeps.mk2 {α : Type} {m : Nat} {r s : State} {a : α} (h : Keeps m r s) : Keeps m r (a, s).2 := h

theorem Keeps.mk3 {α β : Type} {m : Nat} {r s : State} {a : α} {b : β} (h : Keeps m r s) : Keeps m r (a, b, s).2.2 := h

theorem Keeps.of_pair {α : Type} {m : Nat} {r : State} {p : α × State} {a : α} {s : State} (e : p = (a, s))
    (h : Keeps m r p.2) : Keeps m r s := by
  subst e; exact h

theorem Keeps.of_trip {α β : Type} {m : Nat} {r : State} {p : α × β × State} {a : α} {b : β} {s : State} (e : p = (a, b, s))
    (h : Keeps m r p.2.2) : Keeps m r s := by
  subst e; exact h

/-- The number of a part's field. -/
def Part.bit : Part → Nat
  | .regs => 1
  | .shadows => 2
  | .mirror => 3
  | .data => 4
  | .logm => 5
  | .quem => 6
  | .code => 7
  | .feram => 8
  | .store => 9
  | .ecc => 10
  | .eng => 11
  | .image => 12
  | .qrd => 13
  | .qcell => 14
  | .ports => 15
  | .xcnt => 16
  | .host => 17
  | .logNext => 18
  | .logCompl => 19
  | .logCount => 20
  | .logged => 21
  | .hattn => 22
  | .opUs => 23
  | .pwrCyc => 24
  | .fabTime => 25
  | .hamper => 26
  | .di => 27
  | .dout => 28
  | .ao => 29
  | .supply => 30
  | .stime => 31
  | .pair => 32
  | .boot => 33
  | .mtr => 34
  | .ctl => 35
  | .sec => 36
  | .fab => 37
  | .bus => 38
  | .lcd => 39
  | .rtc => 40
  | .freeCtr => 41

/-- The frame that a mask of fields gives. -/
theorem Keeps.sameBut {m : Nat} {r s : State} (l : List Part) (h : Keeps m r s) (hl : ∀ p : Part, m.testBit p.bit = true → p ∈ l) :
    r.sameBut l s := by
  refine ⟨h.pending, fun p hp => ?_⟩
  have hb : m.testBit p.bit = false := by
    cases hm : m.testBit p.bit with
    | false => rfl
    | true => exact absurd (hl p hm) hp
  cases p
  · exact h.regs hb
  · exact h.shadows hb
  · exact h.mirror hb
  · exact h.data hb
  · exact h.logm hb
  · exact h.quem hb
  · exact h.code hb
  · exact h.feram hb
  · exact h.store hb
  · exact h.ecc hb
  · exact h.eng hb
  · exact h.image hb
  · exact h.qrd hb
  · exact h.qcell hb
  · exact h.ports hb
  · exact h.xcnt hb
  · exact h.host hb
  · exact h.logNext hb
  · exact h.logCompl hb
  · exact h.logCount hb
  · exact h.logged hb
  · exact h.hattn hb
  · exact h.opUs hb
  · exact h.pwrCyc hb
  · exact h.fabTime hb
  · exact h.hamper hb
  · exact h.di hb
  · exact h.dout hb
  · exact h.ao hb
  · exact h.supply hb
  · exact h.stime hb
  · exact h.pair hb
  · exact h.boot hb
  · exact h.mtr hb
  · exact h.ctl hb
  · exact h.sec hb
  · exact h.fab hb
  · exact h.bus hb
  · exact h.lcd hb
  · exact h.rtc hb
  · exact h.freeCtr hb

/-- Every next state that the outcome o holds keeps what Keeps says. -/
def KeepsO (m : Nat) (r : State) (o : Host.Outcome State Fault Refusal) : Prop := ∀ t, o = .next t → Keeps m r t

theorem KeepsO.next {m : Nat} {r s : State} (h : Keeps m r s) : KeepsO m r (.next s) := fun t e => by
  cases e; exact h

theorem KeepsO.refused {m : Nat} {r : State} {x : Refusal} : KeepsO m r (.refused x) := fun t e => by cases e

theorem KeepsO.ite {m : Nat} {r : State} {o p : Host.Outcome State Fault Refusal} {c : Prop} [Decidable c]
    (h : KeepsO m r o) (k : KeepsO m r p) : KeepsO m r (if c then o else p) := by
  split
  · exact h
  · exact k

theorem KeepsO.guarded {m : Nat} {r s : State} {c : Instr} {f : State → State} (h : Keeps m r (f s)) :
    KeepsO m r (guarded c f s) := KeepsO.ite (KeepsO.next h) KeepsO.refused

theorem KeepsO.guardedBy {m : Nat} {r s : State} {ok : Bool} {f : State → State} (h : Keeps m r (f s)) :
    KeepsO m r (guardedBy ok f s) := KeepsO.ite (KeepsO.next h) KeepsO.refused

end Sys2Proof.Machine
end

