-- ==== Sys2Proof/Laws/Ops.lean ====
section
/-! SUPPORT. What each function of Machine/Ops.lean keeps of the state (Laws/Keeps.lean). -/

namespace Sys2Proof.Machine

theorem setReg_keeps {m : Nat} {r s : State} (a : Nat) (v : Word) (hm : Sub 2 m) (h : Keeps m r s) :
    Keeps m r (State.setReg s a v) := by
  unfold State.setReg
  refine Keeps.upd_regs ?_ (hm 1 rfl)
  exact h

theorem addReg_keeps {m : Nat} {r s : State} (a : Nat) (k : Nat) (hm : Sub 2 m) (h : Keeps m r s) :
    Keeps m r (State.addReg s a k) := by
  unfold State.addReg
  refine setReg_keeps _ _ (sub_of hm rfl) ?_
  exact h

theorem orReg_keeps {m : Nat} {r s : State} (a : Nat) (m0 : Nat) (hm : Sub 2 m) (h : Keeps m r s) :
    Keeps m r (State.orReg s a m0) := by
  unfold State.orReg
  refine setReg_keeps _ _ (sub_of hm rfl) ?_
  exact h

theorem noteSev_keeps {m : Nat} {r s : State} (sev : Nat) (hm : Sub 2 m) (h : Keeps m r s) :
    Keeps m r (State.noteSev s sev) := by
  unfold State.noteSev
  refine Keeps.ite ?_ ?_
  · refine orReg_keeps _ _ (sub_of hm rfl) ?_
    exact h
  · exact h

theorem setEcc_keeps {m : Nat} {r s : State} (mem : Nat) (unit : Nat) (e : Ecc) (hm : Sub 1024 m) (h : Keeps m r s) :
    Keeps m r (State.setEcc s mem unit e) := by
  unfold State.setEcc
  refine Keeps.upd_ecc ?_ (hm 10 rfl)
  exact h

theorem putLogW_keeps {m : Nat} {r s : State} (a : Nat) (w : Word) (hm : Sub 1056 m) (h : Keeps m r s) :
    Keeps m r (State.putLogW s a w) := by
  unfold State.putLogW
  refine setEcc_keeps _ _ _ (sub_of hm rfl) ?_
  refine Keeps.upd_logm ?_ (hm 5 rfl) (fun w0 w => (memWf_memPutW _ _ _ w.2.1))
  exact h

theorem putLogWs_keeps {m : Nat} {r s : State} (a : Nat) (x2 : List Word) (hm : Sub 1056 m) (h : Keeps m r s) :
    Keeps m r (State.putLogWs s a x2) := by
  induction x2 generalizing s a with | nil => ?_ | cons a l ih => ?_
  · simp -zeta only [State.putLogWs]
    exact h
  · simp -zeta only [State.putLogWs]
    refine ih _ ?_
    refine putLogW_keeps _ _ (sub_of hm rfl) ?_
    exact h

theorem logBump_keeps {m : Nat} {r s : State}  (hm : Sub 1835008 m) (h : Keeps m r s) :
    Keeps m r (State.logBump s) := by
  unfold State.logBump
  refine Keeps.upd_logNext_logCompl_logCount ?_ (hm 18 rfl) (hm 19 rfl) (hm 20 rfl) ?_
  · exact h
  · exact fun _ => Nat.min_le_right _ _

theorem append_keeps {m : Nat} {r s : State} (code : Nat) (blk : Nat) (sev : Nat) (d : List Word) (hm : Sub 1836066 m) (h : Keeps m r s) :
    Keeps m r (State.append s code blk sev d) := by
  unfold State.append
  refine noteSev_keeps _ (sub_of hm rfl) ?_
  refine logBump_keeps (sub_of hm rfl) ?_
  refine putLogWs_keeps _ _ (sub_of hm rfl) ?_
  exact h

theorem setPort_keeps {m : Nat} {r s : State} (p : Nat) (x : Port) (hm : Sub 32768 m) (h : Keeps m r s) :
    Keeps m r (State.setPort s p x) := by
  unfold State.setPort
  refine Keeps.upd_ports ?_ (hm 15 rfl)
  exact h

theorem logOnce_keeps {m : Nat} {r s : State} (code : Nat) (blk : Nat) (sev : Nat) (subject : Nat) (d : List Word) (hm : Sub 3933218 m) (h : Keeps m r s) :
    Keeps m r (State.logOnce s code blk sev subject d) := by
  unfold State.logOnce
  extract_lets x10
  have h11 : Keeps m r x10 := by
    refine append_keeps _ _ _ _ (sub_of hm rfl) ?_
    exact h
  clear_value x10
  refine Keeps.ite ?_ ?_
  · exact h
  · refine Keeps.upd_logged ?_ (hm 21 rfl)
    exact h11

theorem overrun_keeps {m : Nat} {r s : State} (p : Nat) (hm : Sub 3998754 m) (h : Keeps m r s) :
    Keeps m r (State.overrun s p) := by
  unfold State.overrun
  extract_lets x6 x7
  have h8 : Keeps m r x7 := by
    refine orReg_keeps _ _ (sub_of hm rfl) ?_
    refine Keeps.upd_xcnt ?_ (hm 16 rfl)
    exact h
  clear_value x7
  refine logOnce_keeps _ _ _ _ _ (sub_of hm rfl) ?_
  exact h8

theorem arriveIn_keeps {m : Nat} {r s : State} (p : Nat) (w : Word) (hm : Sub 4031522 m) (h : Keeps m r s) :
    Keeps m r (State.arriveIn s p w) := by
  unfold State.arriveIn
  extract_lets x7
  refine setPort_keeps _ _ (sub_of hm rfl) ?_
  refine Keeps.ite ?_ ?_
  · refine overrun_keeps _ (sub_of hm rfl) ?_
    exact h
  · exact h

theorem arriveOut_keeps {m : Nat} {r s : State} (p : Nat) (hm : Sub 32768 m) (h : Keeps m r s) :
    Keeps m r (State.arriveOut s p) := by
  unfold State.arriveOut
  extract_lets x6
  refine Keeps.ite ?_ ?_
  · refine setPort_keeps _ _ (sub_of hm rfl) ?_
    exact h
  · exact h

theorem putP_keeps {m : Nat} {r s : State} (p : Nat) (b : Bool) (hm : Sub 2048 m) (h : Keeps m r s) :
    Keeps m r (State.putP s p b) := by
  unfold State.putP
  extract_lets x7
  refine Keeps.ite ?_ ?_
  · exact h
  · refine Keeps.upd_eng ?_ (hm 11 rfl)
    exact h

theorem putW_keeps {m : Nat} {r s : State} (r0 : Nat) (v : Word) (hm : Sub 2048 m) (h : Keeps m r s) :
    Keeps m r (State.putW s r0 v) := by
  unfold State.putW
  extract_lets x7
  refine Keeps.ite ?_ ?_
  · exact h
  · refine Keeps.upd_eng ?_ (hm 11 rfl)
    exact h

theorem landOne_keeps {m : Nat} {r s : State} (r0 : Pend) (hm : Sub 2048 m) (h : Keeps m r s) :
    Keeps m r (State.landOne s r0) := by
  unfold State.landOne
  refine Keeps.ite ?_ ?_
  · refine putP_keeps _ _ (sub_of hm rfl) ?_
    exact h
  · refine putW_keeps _ _ (sub_of hm rfl) ?_
    exact h

theorem landAll_keeps {m : Nat} {r s : State} (x1 : List Pend) (hm : Sub 2048 m) (h : Keeps m r s) :
    Keeps m r (State.landAll s x1) := by
  induction x1 generalizing s with | nil => ?_ | cons a l ih => ?_
  · simp -zeta only [State.landAll]
    exact h
  · simp -zeta only [State.landAll]
    refine ih ?_
    refine landOne_keeps _ (sub_of hm rfl) ?_
    exact h

theorem landEnd_keeps {m : Nat} {r s : State}  (hm : Sub 2048 m) (h : Keeps m r s) :
    Keeps m r (State.landEnd s) := by
  unfold State.landEnd
  extract_lets x5
  refine landAll_keeps _ (sub_of hm rfl) ?_
  refine Keeps.upd_eng ?_ (hm 11 rfl)
  exact h

theorem satRf_keeps {m : Nat} {r s : State} (a : Nat) (hi : Nat) (lo : Nat) (k : Nat) (hm : Sub 2 m) (h : Keeps m r s) :
    Keeps m r (State.satRf s a hi lo k) := by
  unfold State.satRf
  refine setReg_keeps _ _ (sub_of hm rfl) ?_
  exact h

theorem dedEvent_keeps {m : Nat} {r s : State} (mem : Nat) (addr : Nat) (hm : Sub 2 m) (h : Keeps m r s) :
    Keeps m r (State.dedEvent s mem addr) := by
  unfold State.dedEvent
  refine setReg_keeps _ _ (sub_of hm rfl) ?_
  refine orReg_keeps _ _ (sub_of hm rfl) ?_
  refine satRf_keeps _ _ _ _ (sub_of hm rfl) ?_
  exact h

theorem pathFault_keeps {m : Nat} {r s : State} (path : Nat) (cause : Nat) (hm : Sub 2048 m) (h : Keeps m r s) :
    Keeps m r (State.pathFault s path cause) := by
  unfold State.pathFault
  extract_lets x7 x8
  refine Keeps.upd_eng ?_ (hm 11 rfl)
  exact h

theorem free_keeps {m : Nat} {r s : State}  (hm : Sub 2199023255552 m) (h : Keeps m r s) :
    Keeps m r (State.free s).2 := by
  unfold State.free
  refine Keeps.mk2 ?_
  refine Keeps.upd_freeCtr ?_ (hm 41 rfl)
  exact h

theorem hdFollow_keeps {m : Nat} {r s : State}  (hm : Sub 131072 m) (h : Keeps m r s) :
    Keeps m r (State.hdFollow s) := by
  unfold State.hdFollow
  extract_lets x5
  split
  · refine Keeps.upd_host ?_ (hm 17 rfl)
    exact h
  · exact h

theorem land_keeps {m : Nat} {r s : State} (t : Nat) (hm : Sub 2048 m) (h : Keeps m r s) :
    Keeps m r (State.land s t) := by
  unfold State.land
  extract_lets x6
  refine landAll_keeps _ (sub_of hm rfl) ?_
  refine Keeps.upd_eng ?_ (hm 11 rfl)
  exact h

theorem secEvent_keeps {m : Nat} {r s : State} (mem : Nat) (hm : Sub 2 m) (h : Keeps m r s) :
    Keeps m r (State.secEvent s mem) := by
  unfold State.secEvent
  refine orReg_keeps _ _ (sub_of hm rfl) ?_
  refine satRf_keeps _ _ _ _ (sub_of hm rfl) ?_
  exact h

theorem mirRead_keeps {m : Nat} {r s : State} (a : Nat) (hm : Sub 3933218 m) (h : Keeps m r s) :
    Keeps m r (State.mirRead s a).2 := by
  unfold State.mirRead
  split
  · refine Keeps.mk2 ?_
    exact h
  · refine Keeps.mk2 ?_
    refine secEvent_keeps _ (sub_of hm rfl) ?_
    exact h
  · refine Keeps.mk2 ?_
    refine logOnce_keeps _ _ _ _ _ (sub_of hm rfl) ?_
    refine dedEvent_keeps _ _ (sub_of hm rfl) ?_
    exact h

theorem mst_keeps {m : Nat} {r s : State} (a : Nat) (v : Word) (hm : Sub 1032 m) (h : Keeps m r s) :
    Keeps m r (State.mst s a v) := by
  unfold State.mst
  extract_lets x7
  split
  · exact h
  · extract_lets x11 x12
    refine setEcc_keeps _ _ _ (sub_of hm rfl) ?_
    refine Keeps.upd_mirror ?_ (hm 3 rfl)
    exact h

theorem mstAll_keeps {m : Nat} {r s : State} (x1 : List (Nat × Word)) (hm : Sub 1032 m) (h : Keeps m r s) :
    Keeps m r (State.mstAll s x1) := by
  induction x1 generalizing s with | nil => ?_ | cons a l ih => ?_
  · simp -zeta only [State.mstAll]
    exact h
  · simp -zeta only [State.mstAll]
    refine ih ?_
    refine mst_keeps _ _ (sub_of hm rfl) ?_
    exact h

theorem mswitch_keeps {m : Nat} {r s : State} (blocks : Nat) (hm : Sub 131080 m) (h : Keeps m r s) :
    Keeps m r (State.mswitch s blocks) := by
  unfold State.mswitch
  refine hdFollow_keeps (sub_of hm rfl) ?_
  refine Keeps.upd_mirror ?_ (hm 3 rfl)
  exact h

theorem publish_keeps {m : Nat} {r s : State} (x1 : List (Nat × Word)) (hm : Sub 1034 m) (h : Keeps m r s) :
    Keeps m r (State.publish s x1) := by
  induction x1 generalizing s with | nil => ?_ | cons a l ih => ?_
  · simp -zeta only [State.publish]
    exact h
  · simp -zeta only [State.publish]
    refine ih ?_
    refine mst_keeps _ _ (sub_of hm rfl) ?_
    refine setReg_keeps _ _ (sub_of hm rfl) ?_
    exact h

theorem refresh_keeps {m : Nat} {r s : State} (blocks : List Nat) (hm : Sub 132104 m) (h : Keeps m r s) :
    Keeps m r (State.refresh s blocks) := by
  unfold State.refresh
  extract_lets x6
  refine mswitch_keeps _ (sub_of hm rfl) ?_
  refine mstAll_keeps _ (sub_of hm rfl) ?_
  exact h

theorem republish_keeps {m : Nat} {r s : State} (l : List Nat) (hm : Sub 1032 m) (h : Keeps m r s) :
    Keeps m r (State.republish s l) := by
  unfold State.republish
  refine mstAll_keeps _ (sub_of hm rfl) ?_
  exact h

theorem result_keeps {m : Nat} {r s : State} (i : Issue) (lat : Nat) (d : Nat) (v : Word) (hm : Sub 2048 m) (h : Keeps m r s) :
    Keeps m r (State.result s i lat d v) := by
  unfold State.result
  extract_lets x9
  refine Keeps.upd_eng ?_ (hm 11 rfl)
  exact h

theorem resultP_keeps {m : Nat} {r s : State} (i : Issue) (lat : Nat) (p : Nat) (b : Bool) (hm : Sub 2048 m) (h : Keeps m r s) :
    Keeps m r (State.resultP s i lat p b) := by
  unfold State.resultP
  extract_lets x9
  refine Keeps.upd_eng ?_ (hm 11 rfl)
  exact h

theorem sendOut_keeps {m : Nat} {r s : State} (p : Nat) (w : Word) (hm : Sub 4031522 m) (h : Keeps m r s) :
    Keeps m r (State.sendOut s p w) := by
  unfold State.sendOut
  extract_lets x7
  refine setPort_keeps _ _ (sub_of hm rfl) ?_
  refine Keeps.ite ?_ ?_
  · refine overrun_keeps _ (sub_of hm rfl) ?_
    exact h
  · exact h

theorem sendPort_keeps {m : Nat} {r s : State} (p : Nat) (w : Word) (hm : Sub 4031522 m) (h : Keeps m r s) :
    Keeps m r (State.sendPort s p w) := by
  unfold State.sendPort
  extract_lets x7
  refine setPort_keeps _ _ (sub_of hm rfl) ?_
  refine Keeps.ite ?_ ?_
  · refine overrun_keeps _ (sub_of hm rfl) ?_
    exact h
  · exact h

theorem setRf_keeps {m : Nat} {r s : State} (a : Nat) (hi : Nat) (lo : Nat) (v : Nat) (hm : Sub 2 m) (h : Keeps m r s) :
    Keeps m r (State.setRf s a hi lo v) := by
  unfold State.setRf
  refine setReg_keeps _ _ (sub_of hm rfl) ?_
  exact h

theorem setRb_keeps {m : Nat} {r s : State} (a : Nat) (i : Nat) (b : Bool) (hm : Sub 2 m) (h : Keeps m r s) :
    Keeps m r (State.setRb s a i b) := by
  unfold State.setRb
  refine setRf_keeps _ _ _ _ (sub_of hm rfl) ?_
  exact h

theorem setShadow_keeps {m : Nat} {r s : State} (a : Nat) (v : Word) (hm : Sub 4 m) (h : Keeps m r s) :
    Keeps m r (State.setShadow s a v) := by
  unfold State.setShadow
  refine Keeps.upd_shadows ?_ (hm 2 rfl)
  exact h

theorem stale_keeps {m : Nat} {r s : State} (p : Nat) (hm : Sub 65536 m) (h : Keeps m r s) :
    Keeps m r (State.stale s p) := by
  unfold State.stale
  refine Keeps.upd_xcnt ?_ (hm 16 rfl)
  exact h

theorem take_keeps {m : Nat} {r s : State} (p : Nat) (hm : Sub 98304 m) (h : Keeps m r s) :
    Keeps m r (State.take s p).2.2 := by
  unfold State.take
  extract_lets x6
  refine Keeps.ite3 ?_ ?_
  · refine Keeps.mk3 ?_
    refine setPort_keeps _ _ (sub_of hm rfl) ?_
    exact h
  · refine Keeps.mk3 ?_
    refine stale_keeps _ (sub_of hm rfl) ?_
    exact h

theorem sendIn_keeps {m : Nat} {r s : State} (island : Nat) (x1 : Nat) (x2 : List Word) (hm : Sub 4031522 m) (h : Keeps m r s) :
    Keeps m r (sendIn island x1 x2 s) := by
  induction x2 generalizing s x1 with | nil => ?_ | cons a l ih => ?_
  · simp -zeta only [sendIn]
    exact h
  · simp -zeta only [sendIn]
    extract_lets x10
    refine ih _ ?_
    refine sendPort_keeps _ _ (sub_of hm rfl) ?_
    exact h

theorem readLog_keeps {m : Nat} {r s : State} (a : Nat) (hm : Sub 2 m) (h : Keeps m r s) :
    Keeps m r (readLog a s).2 := by
  unfold readLog
  split
  · refine Keeps.mk2 ?_
    exact h
  · refine Keeps.mk2 ?_
    refine secEvent_keeps _ (sub_of hm rfl) ?_
    exact h
  · refine Keeps.mk2 ?_
    refine dedEvent_keeps _ _ (sub_of hm rfl) ?_
    exact h

end Sys2Proof.Machine
end

