-- ==== Sys2Proof/Laws/BusStatus.lean ====
section
/-! SUPPORT. What each function of Machine/BusStatus.lean keeps of the state (Laws/Keeps.lean). -/

namespace Sys2Proof.Machine

theorem setCan_keeps {m : Nat} {r s : State} (c : Nat) (x : Can) (hm : Sub 274877906944 m) (h : Keeps m r s) :
    Keeps m r (State.setCan s c x) := by
  unfold State.setCan
  extract_lets x7
  refine Keeps.upd_bus ?_ (hm 38 rfl)
  exact h

theorem setMac_keeps {m : Nat} {r s : State} (p : Nat) (x : Mac) (hm : Sub 274877906944 m) (h : Keeps m r s) :
    Keeps m r (State.setMac s p x) := by
  unfold State.setMac
  extract_lets x7
  refine Keeps.upd_bus ?_ (hm 38 rfl)
  exact h

theorem busRec_keeps {m : Nat} {r s : State} (src : Nat) (code : Nat) (sev : Nat) (subject : Nat) (d : List Word) (hm : Sub 3933218 m) (h : Keeps m r s) :
    Keeps m r (busRec s src code sev subject d) := by
  unfold busRec
  refine logOnce_keeps _ _ _ _ _ (sub_of hm rfl) ?_
  exact h

theorem busStatus_keeps {m : Nat} {r s : State} (src : Nat) (hm : Sub 274881938474 m) (h : Keeps m r s) :
    Keeps m r (busStatus src s) := by
  unfold busStatus
  extract_lets x6 x7 x8 x9 x10 x11 x12
  have h13 : Keeps m r x7 := by
    refine sendIn_keeps _ _ _ (sub_of hm rfl) ?_
    exact h
  clear_value x7
  have h14 : Keeps m r x9 := by
    refine Keeps.upd_bus ?_ (hm 38 rfl)
    exact h13
  clear_value x9
  have h15 : Keeps m r x12 := by
    refine Keeps.ite ?_ ?_
    · refine setCan_keeps _ _ (sub_of hm rfl) ?_
      exact h14
    · refine setMac_keeps _ _ (sub_of hm rfl) ?_
      exact h14
  clear_value x12
  refine republish_keeps _ (sub_of hm rfl) ?_
  refine publish_keeps _ (sub_of hm rfl) ?_
  exact h15

theorem busNote_keeps {m : Nat} {r s : State} (src : Nat) (hm : Sub 274881938474 m) (h : Keeps m r s) :
    Keeps m r (busNote src s) := by
  unfold busNote
  refine Keeps.ite ?_ ?_
  · refine republish_keeps _ (sub_of hm rfl) ?_
    exact h
  · refine busStatus_keeps _ (sub_of hm rfl) ?_
    exact h

theorem busEvt_keeps {m : Nat} {r s : State} (src : Nat) (m0 : Nat) (hm : Sub 2 m) (h : Keeps m r s) :
    Keeps m r (busEvt src m0 s) := by
  unfold busEvt
  refine orReg_keeps _ _ (sub_of hm rfl) ?_
  exact h

theorem flowOn_keeps {m : Nat} {r s : State} (p : Nat) (kind : Nat) (lev : Nat) (hm : Sub 274881840162 m) (h : Keeps m r s) :
    Keeps m r (flowOn p kind lev s) := by
  unfold flowOn
  extract_lets x8
  refine Keeps.ite ?_ ?_
  · exact h
  · refine busRec_keeps _ _ _ _ _ (sub_of hm rfl) ?_
    refine busEvt_keeps _ _ (sub_of hm rfl) ?_
    refine setMac_keeps _ _ (sub_of hm rfl) ?_
    exact h

theorem backpressureSet_keeps {m : Nat} {r s : State} (p : Nat) (lev : Nat) (b : Bool) (hm : Sub 274881938474 m) (h : Keeps m r s) :
    Keeps m r (backpressureSet p lev b s) := by
  unfold backpressureSet
  extract_lets x8
  refine busNote_keeps _ (sub_of hm rfl) ?_
  refine Keeps.ite ?_ ?_
  · refine flowOn_keeps _ _ _ (sub_of hm rfl) ?_
    exact h
  · refine setMac_keeps _ _ (sub_of hm rfl) ?_
    exact h

end Sys2Proof.Machine
end

