-- ==== Sys2Proof/Laws/Queues.lean ====
section
/-! SUPPORT. What each function of Machine/Queues.lean keeps of the state (Laws/Keeps.lean). -/

namespace Sys2Proof.Machine

theorem qViolation_keeps {m : Nat} {r s : State} (q : Nat) (hm : Sub 3933218 m) (h : Keeps m r s) :
    Keeps m r (qViolation s q) := by
  unfold qViolation
  extract_lets x6
  have h7 : Keeps m r x6 := by
    refine orReg_keeps _ _ (sub_of hm rfl) ?_
    refine satRf_keeps _ _ _ _ (sub_of hm rfl) ?_
    exact h
  clear_value x6
  refine Keeps.ite ?_ ?_
  · exact h
  · refine logOnce_keeps _ _ _ _ _ (sub_of hm rfl) ?_
    exact h7

theorem qOverflow_keeps {m : Nat} {r s : State} (q : Nat) (hm : Sub 3933218 m) (h : Keeps m r s) :
    Keeps m r (qOverflow s q) := by
  unfold qOverflow
  extract_lets x6
  have h7 : Keeps m r x6 := by
    refine orReg_keeps _ _ (sub_of hm rfl) ?_
    refine orReg_keeps _ _ (sub_of hm rfl) ?_
    refine satRf_keeps _ _ _ _ (sub_of hm rfl) ?_
    exact h
  clear_value x6
  refine logOnce_keeps _ _ _ _ _ (sub_of hm rfl) ?_
  exact h7

theorem backpressureAt_keeps {m : Nat} {r s : State} (q : Nat) (lev : Nat) (b : Bool) (hm : Sub 274881938474 m) (h : Keeps m r s) :
    Keeps m r (backpressureAt s q lev b) := by
  unfold backpressureAt
  split
  · refine backpressureSet_keeps _ _ _ (sub_of hm rfl) ?_
    exact h
  · exact h

theorem qSetLevel_keeps {m : Nat} {r s : State} (q : Nat) (old : Nat) (new : Nat) (hm : Sub 274881938474 m) (h : Keeps m r s) :
    Keeps m r (qSetLevel s q old new) := by
  unfold qSetLevel
  extract_lets x8 x9 x10
  have h11 : Keeps m r x8 := by
    refine setRf_keeps _ _ _ _ (sub_of hm rfl) ?_
    exact h
  clear_value x8
  have h12 : Keeps m r x9 := by
    refine Keeps.ite ?_ ?_
    · refine setRf_keeps _ _ _ _ (sub_of hm rfl) ?_
      exact h11
    · exact h11
  clear_value x9
  have h13 : Keeps m r x10 := by
    refine Keeps.ite ?_ ?_
    · refine backpressureAt_keeps _ _ _ (sub_of hm rfl) ?_
      refine orReg_keeps _ _ (sub_of hm rfl) ?_
      exact h12
    · exact h12
  clear_value x10
  refine Keeps.ite ?_ ?_
  · refine backpressureAt_keeps _ _ _ (sub_of hm rfl) ?_
    refine orReg_keeps _ _ (sub_of hm rfl) ?_
    exact h13
  · exact h13

theorem qPushIn_keeps {m : Nat} {r s : State} (q : Nat) (w : Word) (hm : Sub 274881938538 m) (h : Keeps m r s) :
    Keeps m r (qPushIn s q w) := by
  unfold qPushIn
  extract_lets x7
  refine Keeps.ite ?_ ?_
  · exact h
  · refine Keeps.ite ?_ ?_
    · refine qOverflow_keeps _ (sub_of hm rfl) ?_
      exact h
    · refine qSetLevel_keeps _ _ _ (sub_of hm rfl) ?_
      refine setEcc_keeps _ _ _ (sub_of hm rfl) ?_
      refine Keeps.upd_quem ?_ (hm 6 rfl) (fun w0 w => (memWf_memPutW _ _ _ w.2.2.1))
      exact h

theorem qPush_keeps {m : Nat} {r s : State} (ep : Nat) (q : Nat) (w : Word) (hm : Sub 274881938538 m) (h : Keeps m r s) :
    Keeps m r (qPush s ep q w) := by
  unfold qPush
  refine Keeps.ite ?_ ?_
  · exact h
  · refine Keeps.ite ?_ ?_
    · refine qPushIn_keeps _ _ (sub_of hm rfl) ?_
      exact h
    · refine qViolation_keeps _ (sub_of hm rfl) ?_
      exact h

theorem qPushAll_keeps {m : Nat} {r s : State} (ep : Nat) (q : Nat) (x3 : List Word) (hm : Sub 274881938538 m) (h : Keeps m r s) :
    Keeps m r (qPushAll s ep q x3) := by
  induction x3 generalizing s with | nil => ?_ | cons a l ih => ?_
  · simp -zeta only [qPushAll]
    exact h
  · simp -zeta only [qPushAll]
    refine ih ?_
    refine qPush_keeps _ _ _ (sub_of hm rfl) ?_
    exact h

theorem islandPush_keeps {m : Nat} {r s : State} (island : Nat) (unit : Nat) (ws : List Word) (hm : Sub 274881938538 m) (h : Keeps m r s) :
    Keeps m r (islandPush s island unit ws) := by
  unfold islandPush
  split
  · refine qPushAll_keeps _ _ _ (sub_of hm rfl) ?_
    exact h
  · exact h

theorem qDed_keeps {m : Nat} {r s : State} (q : Nat) (a : Nat) (hm : Sub 3933218 m) (h : Keeps m r s) :
    Keeps m r (qDed s q a) := by
  unfold qDed
  extract_lets x7
  have h8 : Keeps m r x7 := by
    refine dedEvent_keeps _ _ (sub_of hm rfl) ?_
    refine orReg_keeps _ _ (sub_of hm rfl) ?_
    refine orReg_keeps _ _ (sub_of hm rfl) ?_
    refine satRf_keeps _ _ _ _ (sub_of hm rfl) ?_
    exact h
  clear_value x7
  refine logOnce_keeps _ _ _ _ _ (sub_of hm rfl) ?_
  refine logOnce_keeps _ _ _ _ _ (sub_of hm rfl) ?_
  exact h8

theorem qFetch_keeps {m : Nat} {r s : State} (q : Nat) (k : Nat) (hm : Sub 3933218 m) (h : Keeps m r s) :
    Keeps m r (qFetch s q k).2 := by
  unfold qFetch
  extract_lets x7
  split
  · refine Keeps.mk2 ?_
    exact h
  · refine Keeps.mk2 ?_
    refine secEvent_keeps _ (sub_of hm rfl) ?_
    exact h
  · refine Keeps.mk2 ?_
    refine qDed_keeps _ _ (sub_of hm rfl) ?_
    exact h

theorem qDrop_keeps {m : Nat} {r s : State} (q : Nat) (hm : Sub 274881946666 m) (h : Keeps m r s) :
    Keeps m r (qDrop s q) := by
  unfold qDrop
  refine qSetLevel_keeps _ _ _ (sub_of hm rfl) ?_
  refine Keeps.upd_qrd ?_ (hm 13 rfl)
  exact h

theorem qPopOut_keeps {m : Nat} {r s : State} (q : Nat) (hm : Sub 274881946666 m) (h : Keeps m r s) :
    Keeps m r (qPopOut s q).2 := by
  unfold qPopOut
  extract_lets x6
  have h7 : Keeps m r x6.2 := by
    refine qFetch_keeps _ _ (sub_of hm rfl) ?_
    exact h
  clear_value x6
  refine Keeps.ite2 ?_ ?_
  · refine Keeps.mk2 ?_
    exact h
  · refine Keeps.ite2 ?_ ?_
    · refine Keeps.mk2 ?_
      refine orReg_keeps _ _ (sub_of hm rfl) ?_
      exact h
    · refine Keeps.mk2 ?_
      refine qDrop_keeps _ (sub_of hm rfl) ?_
      exact h7

theorem busPop_keeps {m : Nat} {r s : State} (q : Nat) (x1 : Nat) (hm : Sub 274881946666 m) (h : Keeps m r s) :
    Keeps m r (busPop q x1 s).2 := by
  induction x1 generalizing s with | zero => ?_ | succ k ih => ?_
  · simp -zeta only [busPop]
    exact h
  · simp -zeta only [busPop]
    extract_lets x8 x9
    have h10 : Keeps m r x8.2 := by
      refine qPopOut_keeps _ (sub_of hm rfl) ?_
      exact h
    clear_value x8
    have h11 : Keeps m r x9.2 := by
      refine ih ?_
      exact h10
    clear_value x9
    refine Keeps.mk2 ?_
    exact h11

theorem qPop_keeps {m : Nat} {r s : State} (ep : Nat) (q : Nat) (hm : Sub 274881946666 m) (h : Keeps m r s) :
    Keeps m r (qPop s ep q).2 := by
  unfold qPop
  refine Keeps.ite2 ?_ ?_
  · refine Keeps.mk2 ?_
    exact h
  · refine Keeps.ite2 ?_ ?_
    · refine qPopOut_keeps _ (sub_of hm rfl) ?_
      exact h
    · refine Keeps.mk2 ?_
      refine qViolation_keeps _ (sub_of hm rfl) ?_
      exact h

theorem qSwap_keeps {m : Nat} {r s : State} (q : Nat) (w : Word) (hm : Sub 9280 m) (h : Keeps m r s) :
    Keeps m r (qSwap s q w) := by
  unfold qSwap
  extract_lets x7
  refine setEcc_keeps _ _ _ (sub_of hm rfl) ?_
  refine Keeps.upd_quem_qrd ?_ (hm 6 rfl) (hm 13 rfl) (fun w0 w => (memWf_memPutW _ _ _ w.2.2.1))
  exact h

theorem qDropWith_keeps {m : Nat} {r s : State} (q : Nat) (push : Option Word) (hm : Sub 274881946730 m) (h : Keeps m r s) :
    Keeps m r (qDropWith s q push) := by
  unfold qDropWith
  split
  · refine qSwap_keeps _ _ (sub_of hm rfl) ?_
    exact h
  · refine qDrop_keeps _ (sub_of hm rfl) ?_
    exact h

theorem qPushWith_keeps {m : Nat} {r s : State} (q : Nat) (push : Option Word) (hm : Sub 274881938538 m) (h : Keeps m r s) :
    Keeps m r (qPushWith s q push) := by
  unfold qPushWith
  split
  · refine qPushIn_keeps _ _ (sub_of hm rfl) ?_
    exact h
  · exact h

theorem qPopWith_keeps {m : Nat} {r s : State} (q : Nat) (push : Option Word) (hm : Sub 274881946730 m) (h : Keeps m r s) :
    Keeps m r (qPopWith s q push).2 := by
  unfold qPopWith
  extract_lets x7
  have h8 : Keeps m r x7.2 := by
    refine qFetch_keeps _ _ (sub_of hm rfl) ?_
    exact h
  clear_value x7
  refine Keeps.ite2 ?_ ?_
  · refine Keeps.mk2 ?_
    exact h
  · refine Keeps.ite2 ?_ ?_
    · refine Keeps.mk2 ?_
      refine qPushWith_keeps _ _ (sub_of hm rfl) ?_
      refine orReg_keeps _ _ (sub_of hm rfl) ?_
      exact h
    · refine Keeps.mk2 ?_
      refine qDropWith_keeps _ _ (sub_of hm rfl) ?_
      exact h8

end Sys2Proof.Machine
end

