-- ==== Sys2Proof/Laws/Operands.lean ====
section
/-! SUPPORT. What each function of Machine/Operands.lean keeps of the state (Laws/Keeps.lean). -/

namespace Sys2Proof.Machine

theorem issue_keeps {m : Nat} {r s : State} (i : Issue) (body : State → State) (hm : Sub 2048 m) (h : Keeps m r s) (hbody : ∀ a0, Keeps m r a0 → Keeps m r (body a0)) :
    Keeps m r (issue i body s) := by
  unfold issue
  extract_lets x8
  have h9 : Keeps m r x8 := by
    refine land_keeps _ (sub_of hm rfl) ?_
    exact h
  clear_value x8
  refine Keeps.ite ?_ ?_
  · exact h9
  · refine hbody _ ?_
    exact h9

theorem issueSel_keeps {m : Nat} {r s : State} (i : Issue) (body : State → State) (hm : Sub 2048 m) (h : Keeps m r s) (hbody : ∀ a0, Keeps m r a0 → Keeps m r (body a0)) :
    Keeps m r (issueSel i body s) := by
  unfold issueSel
  extract_lets x8
  have h9 : Keeps m r x8 := by
    refine land_keeps _ (sub_of hm rfl) ?_
    exact h
  clear_value x8
  refine Keeps.ite ?_ ?_
  · exact h9
  · refine hbody _ ?_
    exact h9

theorem issueW_keeps {m : Nat} {r s : State} (i : Issue) (lat : Nat) (d : Nat) (v : State → Word) (hm : Sub 2048 m) (h : Keeps m r s) :
    Keeps m r (issueW i lat d v s) := by
  unfold issueW
  refine issue_keeps _ _ (sub_of hm rfl) ?_ ?_
  · exact h
  · intro q9 q10
    refine result_keeps _ _ _ _ (sub_of hm rfl) ?_
    exact q10

end Sys2Proof.Machine
end

