-- ==== Sys2Proof/Laws/Flags.lean ====
section
/-! SUPPORT. What each function of Machine/Flags.lean keeps of the state (Laws/Keeps.lean). -/

namespace Sys2Proof.Machine

theorem fpFlags_keeps {m : Nat} {r s : State} (fl : Nat) (hm : Sub 3933218 m) (h : Keeps m r s) :
    Keeps m r (State.fpFlags s fl) := by
  unfold State.fpFlags
  extract_lets x6 x7
  have h8 : Keeps m r x7 := by
    refine orReg_keeps _ _ (sub_of hm rfl) ?_
    exact h
  clear_value x7
  refine Keeps.ite ?_ ?_
  · exact h
  · refine Keeps.ite ?_ ?_
    · refine logOnce_keeps _ _ _ _ _ (sub_of hm rfl) ?_
      refine setReg_keeps _ _ (sub_of hm rfl) ?_
      exact h8
    · exact h8

theorem issueF_keeps {m : Nat} {r s : State} (i : Issue) (lat : Nat) (d : Nat) (f : State → FRes) (hm : Sub 3935266 m) (h : Keeps m r s) :
    Keeps m r (issueF i lat d f s) := by
  unfold issueF
  refine issue_keeps _ _ (sub_of hm rfl) ?_ ?_
  · exact h
  · intro q9 q10
    refine result_keeps _ _ _ _ (sub_of hm rfl) ?_
    refine fpFlags_keeps _ (sub_of hm rfl) ?_
    exact q10

end Sys2Proof.Machine
end

