-- ==== Sys2Proof/Laws/Gate.lean ====
section
/-! SUPPORT. What each function of Machine/Gate.lean keeps of the state (Laws/Keeps.lean). -/

namespace Sys2Proof.Machine

theorem setGate_keeps {m : Nat} {r s : State} (g : Nat) (x : Gate) (hm : Sub 67108864 m) (h : Keeps m r s) :
    Keeps m r (State.setGate s g x) := by
  unfold State.setGate
  extract_lets x7
  refine Keeps.upd_hamper ?_ (hm 26 rfl)
  exact h

theorem setLedger_keeps {m : Nat} {r s : State} (g : Nat) (b : Nat) (f : Nat) (hm : Sub 2 m) (h : Keeps m r s) :
    Keeps m r (setLedger s g b f) := by
  unfold setLedger
  refine setReg_keeps _ _ (sub_of hm rfl) ?_
  exact h

theorem admitWaits_keeps {m : Nat} {r s : State} (g : Nat) (x1 : List Wait) (hm : Sub 67108866 m) (h : Keeps m r s) :
    Keeps m r (admitWaits g x1 s) := by
  induction x1 generalizing s with | nil => ?_ | cons a l ih => ?_
  · simp -zeta only [admitWaits]
    exact h
  · simp -zeta only [admitWaits]
    extract_lets x9 x10 x11 x12
    have h13 : Keeps m r x11 := by
      refine setLedger_keeps _ _ _ (sub_of hm rfl) ?_
      exact h
    clear_value x11
    have h14 : Keeps m r x12 := by
      refine setGate_keeps _ _ (sub_of hm rfl) ?_
      exact h13
    clear_value x12
    refine Keeps.ite ?_ ?_
    · refine ih ?_
      refine setRf_keeps _ _ _ _ (sub_of hm rfl) ?_
      exact h14
    · exact h

theorem putWaiting_keeps {m : Nat} {r s : State} (g : Nat) (hm : Sub 2 m) (h : Keeps m r s) :
    Keeps m r (putWaiting s g) := by
  unfold putWaiting
  refine setRf_keeps _ _ _ _ (sub_of hm rfl) ?_
  exact h

theorem gateAdoptDo_keeps {m : Nat} {r s : State} (g : Nat) (w : Word) (hm : Sub 67108866 m) (h : Keeps m r s) :
    Keeps m r (gateAdoptDo s g w) := by
  unfold gateAdoptDo
  extract_lets x7 x8
  refine Keeps.ite ?_ ?_
  · refine putWaiting_keeps _ (sub_of hm rfl) ?_
    refine setGate_keeps _ _ (sub_of hm rfl) ?_
    exact h
  · exact h

theorem groupClear_keeps {m : Nat} {r s : State} (g : Nat) (hm : Sub 67108866 m) (h : Keeps m r s) :
    Keeps m r (groupClear s g) := by
  unfold groupClear
  extract_lets x6
  refine putWaiting_keeps _ (sub_of hm rfl) ?_
  refine setLedger_keeps _ _ _ (sub_of hm rfl) ?_
  refine setGate_keeps _ _ (sub_of hm rfl) ?_
  exact h

theorem gateSafeWord_keeps {m : Nat} {r s : State} (g : Nat) (w : Word) (hm : Sub 67108866 m) (h : Keeps m r s) :
    Keeps m r (gateSafeWord s g w) := by
  unfold gateSafeWord
  extract_lets x7
  refine Keeps.ite ?_ ?_
  · refine Keeps.ite ?_ ?_
    · exact h
    · refine groupClear_keeps _ (sub_of hm rfl) ?_
      refine setGate_keeps _ _ (sub_of hm rfl) ?_
      exact h
  · refine setGate_keeps _ _ (sub_of hm rfl) ?_
    exact h

theorem gateAdoptAo_keeps {m : Nat} {r s : State} (g : Nat) (c : Nat) (w : Word) (hm : Sub 67108866 m) (h : Keeps m r s) :
    Keeps m r (gateAdoptAo s g c w) := by
  unfold gateAdoptAo
  extract_lets x8 x9 x10
  have h11 : Keeps m r x9 := by
    refine setGate_keeps _ _ (sub_of hm rfl) ?_
    exact h
  clear_value x9
  refine Keeps.ite ?_ ?_
  · refine Keeps.ite ?_ ?_
    · refine putWaiting_keeps _ (sub_of hm rfl) ?_
      refine setGate_keeps _ _ (sub_of hm rfl) ?_
      exact h11
    · exact h11
  · exact h

theorem startLate_keeps {m : Nat} {r s : State} (g : Nat) (c : Nat) (wait : Nat) (hm : Sub 3933218 m) (h : Keeps m r s) :
    Keeps m r (startLate s g c wait) := by
  unfold startLate
  extract_lets x8
  have h9 : Keeps m r x8 := by
    refine orReg_keeps _ _ (sub_of hm rfl) ?_
    refine orReg_keeps _ _ (sub_of hm rfl) ?_
    exact h
  clear_value x8
  refine logOnce_keeps _ _ _ _ _ (sub_of hm rfl) ?_
  refine satRf_keeps _ _ _ _ (sub_of hm rfl) ?_
  exact h9

theorem ageWaits_keeps {m : Nat} {r s : State} (g : Nat) (x1 : List Wait) (hm : Sub 3933218 m) (h : Keeps m r s) :
    Keeps m r (ageWaits g x1 s).2 := by
  induction x1 generalizing s with | nil => ?_ | cons a l ih => ?_
  · simp -zeta only [ageWaits]
    exact h
  · simp -zeta only [ageWaits]
    extract_lets x9 x10 x11 x12
    have h13 : Keeps m r x12.2 := by
      refine ih ?_
      refine Keeps.ite ?_ ?_
      · refine startLate_keeps _ _ _ (sub_of hm rfl) ?_
        exact h
      · exact h
    clear_value x12
    refine Keeps.mk2 ?_
    exact h13

theorem noteAout_keeps {m : Nat} {r s : State} (p : Nat) (w : Word) (hm : Sub 2 m) (h : Keeps m r s) :
    Keeps m r (noteAout p w s) := by
  unfold noteAout
  refine Keeps.ite ?_ ?_
  · refine setReg_keeps _ _ (sub_of hm rfl) ?_
    exact h
  · exact h

theorem clipBuckets_keeps {m : Nat} {r s : State}  (hm : Sub 2 m) (h : Keeps m r s) :
    Keeps m r (clipBuckets s) := by
  unfold clipBuckets
  refine Keeps.foldl _ _ (fun s5 a5 h5 => ?_) _ ?_
  · refine setLedger_keeps _ _ _ (sub_of hm rfl) ?_
    exact h5
  · exact h

theorem gateResetAll_keeps {m : Nat} {r s : State}  (hm : Sub 67108866 m) (h : Keeps m r s) :
    Keeps m r (gateResetAll s) := by
  unfold gateResetAll
  refine Keeps.foldl _ _ (fun s5 a5 h5 => ?_) _ ?_
  · refine groupClear_keeps _ (sub_of hm rfl) ?_
    exact h5
  · exact h

theorem gateEdge_keeps {m : Nat} {r s : State} (before : State) (hm : Sub 67108866 m) (h : Keeps m r s) :
    Keeps m r (gateEdge before s) := by
  unfold gateEdge
  refine Keeps.ite ?_ ?_
  · refine gateResetAll_keeps (sub_of hm rfl) ?_
    exact h
  · exact h

theorem ledgerGroup_keeps {m : Nat} {r s : State} (g : Nat) (hm : Sub 71042082 m) (h : Keeps m r s) :
    Keeps m r (ledgerGroup s g) := by
  unfold ledgerGroup
  extract_lets x6 x7 x8 x9
  have h10 : Keeps m r x8 := by
    refine setLedger_keeps _ _ _ (sub_of hm rfl) ?_
    exact h
  clear_value x8
  have h11 : Keeps m r x9.2 := by
    refine ageWaits_keeps _ _ (sub_of hm rfl) ?_
    exact h10
  clear_value x9
  refine setGate_keeps _ _ (sub_of hm rfl) ?_
  exact h11

theorem ledgerRefill_keeps {m : Nat} {r s : State}  (hm : Sub 71042082 m) (h : Keeps m r s) :
    Keeps m r (ledgerRefill s) := by
  unfold ledgerRefill
  refine Keeps.foldl _ _ (fun s5 a5 h5 => ?_) _ ?_
  · refine ledgerGroup_keeps _ (sub_of hm rfl) ?_
    exact h5
  · exact h

theorem gateWrite_keeps {m : Nat} {r s : State} (g : Nat) (w : Word) (hm : Sub 67108866 m) (h : Keeps m r s) :
    Keeps m r (gateWrite s g w).2 := by
  unfold gateWrite
  extract_lets x7 x8 x9 x10 x11 x12
  have h13 : Keeps m r x9 := by
    refine setGate_keeps _ _ (sub_of hm rfl) ?_
    exact h
  clear_value x9
  have h14 : Keeps m r x10 := by
    refine putWaiting_keeps _ (sub_of hm rfl) ?_
    refine admitWaits_keeps _ _ (sub_of hm rfl) ?_
    exact h13
  clear_value x10
  refine Keeps.ite2 ?_ ?_
  · refine Keeps.mk2 ?_
    refine setReg_keeps _ _ (sub_of hm rfl) ?_
    exact h14
  · refine Keeps.mk2 ?_
    refine setReg_keeps _ _ (sub_of hm rfl) ?_
    exact h14

end Sys2Proof.Machine
end

