-- ==== Sys2Proof/Laws/Field.lean ====
section
/-! SUPPORT. What each function of Machine/Field.lean keeps of the state (Laws/Keeps.lean). -/

namespace Sys2Proof.Machine

theorem setAo_keeps {m : Nat} {r s : State} (a : Nat) (x : AoIsland) (hm : Sub 536870912 m) (h : Keeps m r s) :
    Keeps m r (State.setAo s a x) := by
  unfold State.setAo
  refine Keeps.upd_ao ?_ (hm 29 rfl)
  exact h

theorem setDi_keeps {m : Nat} {r s : State} (g : Nat) (x : DiIsland) (hm : Sub 134217728 m) (h : Keeps m r s) :
    Keeps m r (State.setDi s g x) := by
  unfold State.setDi
  refine Keeps.upd_di ?_ (hm 27 rfl)
  exact h

theorem setDo_keeps {m : Nat} {r s : State} (h0 : Nat) (x : DoIsland) (hm : Sub 268435456 m) (h : Keeps m r s) :
    Keeps m r (State.setDo s h0 x) := by
  unfold State.setDo
  refine Keeps.upd_dout ?_ (hm 28 rfl)
  exact h

theorem aoWord_keeps {m : Nat} {r s : State} (a : Nat) (f : AoIsland → AoIsland) (hm : Sub 536870912 m) (h : Keeps m r s) :
    Keeps m r (aoWord a f s) := by
  unfold aoWord
  extract_lets x7
  refine Keeps.ite ?_ ?_
  · refine setAo_keeps _ _ (sub_of hm rfl) ?_
    exact h
  · exact h

theorem acmd_keeps {m : Nat} {r s : State} (a : Nat) (en : Nat) (ack : Bool) (hm : Sub 536870912 m) (h : Keeps m r s) :
    Keeps m r (acmd a en ack s) := by
  unfold acmd
  refine aoWord_keeps _ _ (sub_of hm rfl) ?_
  exact h

theorem aoCfg_keeps {m : Nat} {r s : State} (a : Nat) (f : AoIsland → AoIsland) (hm : Sub 536870912 m) (h : Keeps m r s) :
    Keeps m r (aoCfg a f s) := by
  unfold aoCfg
  refine aoWord_keeps _ _ (sub_of hm rfl) ?_
  exact h

theorem aoChan_keeps {m : Nat} {r s : State} (a : Nat) (c : Nat) (f : AoCh → AoCh) (hm : Sub 536870912 m) (h : Keeps m r s) :
    Keeps m r (aoChan a c f s) := by
  unfold aoChan
  refine aoWord_keeps _ _ (sub_of hm rfl) ?_
  exact h

theorem aoutCode_keeps {m : Nat} {r s : State} (a : Nat) (c : Nat) (code : Nat) (alm : Nat) (hm : Sub 536870912 m) (h : Keeps m r s) :
    Keeps m r (aoutCode a c code alm s) := by
  unfold aoutCode
  refine Keeps.ite ?_ ?_
  · exact h
  · refine aoWord_keeps _ _ (sub_of hm rfl) ?_
    exact h

theorem doWord_keeps {m : Nat} {r s : State} (h0 : Nat) (f : DoIsland → DoIsland) (hm : Sub 268435456 m) (h : Keeps m r s) :
    Keeps m r (doWord h0 f s) := by
  unfold doWord
  extract_lets x7
  refine Keeps.ite ?_ ?_
  · refine setDo_keeps _ _ (sub_of hm rfl) ?_
    exact h
  · exact h

theorem applyInstant_keeps {m : Nat} {r s : State} (island : Nat) (hm : Sub 805306368 m) (h : Keeps m r s) :
    Keeps m r (applyInstant island s) := by
  unfold applyInstant
  refine Keeps.ite ?_ ?_
  · exact h
  · refine Keeps.ite ?_ ?_
    · refine doWord_keeps _ _ (sub_of hm rfl) ?_
      exact h
    · refine aoWord_keeps _ _ (sub_of hm rfl) ?_
      exact h

theorem diWord_keeps {m : Nat} {r s : State} (g : Nat) (w : DiCfg) (hm : Sub 134217728 m) (h : Keeps m r s) :
    Keeps m r (diWord g w s) := by
  unfold diWord
  extract_lets x7
  refine Keeps.ite ?_ ?_
  · refine setDi_keeps _ _ (sub_of hm rfl) ?_
    exact h
  · exact h

theorem doCfg_keeps {m : Nat} {r s : State} (h0 : Nat) (f : DoIsland → DoIsland) (hm : Sub 268435456 m) (h : Keeps m r s) :
    Keeps m r (doCfg h0 f s) := by
  unfold doCfg
  refine doWord_keeps _ _ (sub_of hm rfl) ?_
  exact h

theorem doOut_keeps {m : Nat} {r s : State} (h0 : Nat) (v : Nat) (ack : Bool) (hm : Sub 268435456 m) (h : Keeps m r s) :
    Keeps m r (doOut h0 v ack s) := by
  unfold doOut
  extract_lets x8 x9
  refine Keeps.ite ?_ ?_
  · exact h
  · refine Keeps.ite ?_ ?_
    · exact h
    · refine setDo_keeps _ _ (sub_of hm rfl) ?_
      exact h

theorem diTick_keeps {m : Nat} {r s : State} (g : Nat) (levels : Nat) (hm : Sub 134217728 m) (h : Keeps m r s) :
    Keeps m r (diTick g levels s) := by
  unfold diTick
  extract_lets x7 x8 x9 x10
  refine Keeps.ite ?_ ?_
  · refine setDi_keeps _ _ (sub_of hm rfl) ?_
    exact h
  · exact h

theorem powerIsland_keeps {m : Nat} {r s : State} (island : Nat) (hm : Sub 2013265920 m) (h : Keeps m r s) :
    Keeps m r (powerIsland island s) := by
  unfold powerIsland
  extract_lets x6 x7 x8 x9
  have h10 : Keeps m r x6 := by
    refine Keeps.upd_supply ?_ (hm 30 rfl)
    exact h
  clear_value x6
  refine Keeps.ite ?_ ?_
  · refine setDi_keeps _ _ (sub_of hm rfl) ?_
    exact h10
  · refine Keeps.ite ?_ ?_
    · refine setDo_keeps _ _ (sub_of hm rfl) ?_
      exact h10
    · refine setAo_keeps _ _ (sub_of hm rfl) ?_
      exact h10

theorem unpowerIslands_keeps {m : Nat} {r s : State}  (hm : Sub 2013265920 m) (h : Keeps m r s) :
    Keeps m r (unpowerIslands s) := by
  unfold unpowerIslands
  refine Keeps.upd_di_dout_ao_supply ?_ (hm 27 rfl) (hm 28 rfl) (hm 29 rfl) (hm 30 rfl)
  exact h

theorem noteInstant_keeps {m : Nat} {r s : State} (lo : Nat) (v : Word) (x2 : Nat) (hm : Sub 2147483648 m) (h : Keeps m r s) :
    Keeps m r (noteInstant lo v x2 s) := by
  induction x2 generalizing s with | zero => ?_ | succ k ih => ?_
  · simp -zeta only [noteInstant]
    exact h
  · simp -zeta only [noteInstant]
    refine ih ?_
    refine Keeps.upd_stime ?_ (hm 31 rfl)
    exact h

theorem openLoad_keeps {m : Nat} {r s : State} (h0 : Nat) (c : Nat) (inBand : Bool) (hm : Sub 268435456 m) (h : Keeps m r s) :
    Keeps m r (openLoad h0 c inBand s) := by
  unfold openLoad
  refine doWord_keeps _ _ (sub_of hm rfl) ?_
  exact h

theorem safeTimeout_keeps {m : Nat} {r s : State} (island : Nat) (hm : Sub 805306368 m) (h : Keeps m r s) :
    Keeps m r (safeTimeout island s) := by
  unfold safeTimeout
  refine Keeps.ite ?_ ?_
  · refine doWord_keeps _ _ (sub_of hm rfl) ?_
    exact h
  · refine aoWord_keeps _ _ (sub_of hm rfl) ?_
    exact h

theorem sampleInstant_keeps {m : Nat} {r s : State} (island : Nat) (offset : Nat) (meas : List (BitVec 16)) (limits : Nat) (hm : Sub 2822603810 m) (h : Keeps m r s) :
    Keeps m r (sampleInstant island offset meas limits s) := by
  unfold sampleInstant
  extract_lets x9 x10 x11 x12
  have h13 : Keeps m r x9 := by
    refine noteInstant_keeps _ _ _ (sub_of hm rfl) ?_
    exact h
  clear_value x9
  have h14 : Keeps m r x10 := by
    refine sendIn_keeps _ _ _ (sub_of hm rfl) ?_
    exact h13
  clear_value x10
  have h15 : Keeps m r x12 := by
    refine setAo_keeps _ _ (sub_of hm rfl) ?_
    exact h13
  clear_value x12
  refine Keeps.ite ?_ ?_
  · refine Keeps.ite ?_ ?_
    · refine setDi_keeps _ _ (sub_of hm rfl) ?_
      exact h14
    · refine Keeps.ite ?_ ?_
      · refine sendIn_keeps _ _ _ (sub_of hm rfl) ?_
        exact h13
      · refine sendIn_keeps _ _ _ (sub_of hm rfl) ?_
        exact h15
  · exact h

theorem supplyMeasure_keeps {m : Nat} {r s : State} (island : Nat) (mv : Nat) (hm : Sub 1476395008 m) (h : Keeps m r s) :
    Keeps m r (supplyMeasure island mv s) := by
  unfold supplyMeasure
  extract_lets x7 x8 x9 x10 x11 x12 x13
  have h14 : Keeps m r x11 := by
    refine Keeps.upd_supply ?_ (hm 30 rfl)
    exact h
  clear_value x11
  refine Keeps.ite ?_ ?_
  · refine Keeps.ite ?_ ?_
    · refine Keeps.ite ?_ ?_
      · refine setDi_keeps _ _ (sub_of hm rfl) ?_
        exact h14
      · refine Keeps.ite ?_ ?_
        · refine setDo_keeps _ _ (sub_of hm rfl) ?_
          exact h14
        · exact h14
    · exact h14
  · exact h

theorem wireBreak_keeps {m : Nat} {r s : State} (g : Nat) (c : Nat) (b : Bool) (hm : Sub 134217728 m) (h : Keeps m r s) :
    Keeps m r (wireBreak g c b s) := by
  unfold wireBreak
  extract_lets x8
  refine Keeps.ite ?_ ?_
  · refine Keeps.ite ?_ ?_
    · refine setDi_keeps _ _ (sub_of hm rfl) ?_
      exact h
    · exact h
  · refine setDi_keeps _ _ (sub_of hm rfl) ?_
    exact h

theorem execAcmd_keeps {m : Nat} {r s : State} (a : Fin 4) (en : BitVec 4) (ack : Bool) (hm : Sub 536870912 m) (h : Keeps m r s) :
    KeepsO m r (execAcmd a en ack s) := by
  unfold execAcmd
  refine KeepsO.next ?_
  refine acmd_keeps _ _ _ (sub_of hm rfl) ?_
  exact h

theorem execAoutAlmHi_keeps {m : Nat} {r s : State} (a : Fin 4) (c : Fin 4) (v : BitVec 16) (hm : Sub 536870912 m) (h : Keeps m r s) :
    KeepsO m r (execAoutAlmHi a c v s) := by
  unfold execAoutAlmHi
  refine KeepsO.next ?_
  refine aoCfg_keeps _ _ (sub_of hm rfl) ?_
  exact h

theorem execAoutAlmLo_keeps {m : Nat} {r s : State} (a : Fin 4) (c : Fin 4) (v : BitVec 16) (hm : Sub 536870912 m) (h : Keeps m r s) :
    KeepsO m r (execAoutAlmLo a c v s) := by
  unfold execAoutAlmLo
  refine KeepsO.next ?_
  refine aoCfg_keeps _ _ (sub_of hm rfl) ?_
  exact h

theorem execAoutCode_keeps {m : Nat} {r s : State} (a : Fin 4) (c : Fin 4) (code : BitVec 16) (alm : BitVec 2) (hm : Sub 536870912 m) (h : Keeps m r s) :
    KeepsO m r (execAoutCode a c code alm s) := by
  unfold execAoutCode
  refine KeepsO.next ?_
  refine aoutCode_keeps _ _ _ _ (sub_of hm rfl) ?_
  exact h

theorem execAoutMode_keeps {m : Nat} {r s : State} (a : Fin 4) (c : Fin 4) (mode : Bool) (insrc : Bool) (clamp : Bool) (safemode : BitVec 3) (hm : Sub 536870912 m) (h : Keeps m r s) :
    KeepsO m r (execAoutMode a c mode insrc clamp safemode s) := by
  unfold execAoutMode
  refine KeepsO.next ?_
  refine aoCfg_keeps _ _ (sub_of hm rfl) ?_
  exact h

theorem execAoutSafe_keeps {m : Nat} {r s : State} (a : Fin 4) (c : Fin 4) (v : BitVec 16) (hm : Sub 536870912 m) (h : Keeps m r s) :
    KeepsO m r (execAoutSafe a c v s) := by
  unfold execAoutSafe
  refine KeepsO.next ?_
  refine aoCfg_keeps _ _ (sub_of hm rfl) ?_
  exact h

theorem execAoutTrim_keeps {m : Nat} {r s : State} (a : Fin 4) (c : Fin 4) (zero : BitVec 12) (span : BitVec 12) (hm : Sub 536870912 m) (h : Keeps m r s) :
    KeepsO m r (execAoutTrim a c zero span s) := by
  unfold execAoutTrim
  refine KeepsO.next ?_
  refine aoCfg_keeps _ _ (sub_of hm rfl) ?_
  exact h

theorem execApplyInstant_keeps {m : Nat} {r s : State} (island : Fin 25) (hm : Sub 805306368 m) (h : Keeps m r s) :
    KeepsO m r (execApplyInstant island s) := by
  unfold execApplyInstant
  refine KeepsO.guarded ?_
  refine applyInstant_keeps _ (sub_of hm rfl) ?_
  exact h

theorem execCompliance_keeps {m : Nat} {r s : State} (a : Fin 4) (c : Fin 4) (v : Bool) (hm : Sub 536870912 m) (h : Keeps m r s) :
    KeepsO m r (execCompliance a c v s) := by
  unfold execCompliance
  refine KeepsO.next ?_
  refine aoChan_keeps _ _ _ (sub_of hm rfl) ?_
  exact h

theorem execDiBrken_keeps {m : Nat} {r s : State} (g : Fin 4) (brken : BitVec 16) (hm : Sub 134217728 m) (h : Keeps m r s) :
    KeepsO m r (execDiBrken g brken s) := by
  unfold execDiBrken
  refine KeepsO.next ?_
  refine diWord_keeps _ _ (sub_of hm rfl) ?_
  exact h

theorem execDiCounterCfg_keeps {m : Nat} {r s : State} (g : Fin 4) (src : BitVec 8) (mode : BitVec 16) (hm : Sub 134217728 m) (h : Keeps m r s) :
    KeepsO m r (execDiCounterCfg g src mode s) := by
  unfold execDiCounterCfg
  refine KeepsO.next ?_
  refine diWord_keeps _ _ (sub_of hm rfl) ?_
  exact h

theorem execDiDeb_keeps {m : Nat} {r s : State} (g : Fin 4) (c : Fin 16) (deb : BitVec 16) (hm : Sub 134217728 m) (h : Keeps m r s) :
    KeepsO m r (execDiDeb g c deb s) := by
  unfold execDiDeb
  refine KeepsO.next ?_
  refine diWord_keeps _ _ (sub_of hm rfl) ?_
  exact h

theorem execDiTick_keeps {m : Nat} {r s : State} (g : Fin 4) (levels : BitVec 16) (hm : Sub 134217728 m) (h : Keeps m r s) :
    KeepsO m r (execDiTick g levels s) := by
  unfold execDiTick
  refine KeepsO.next ?_
  refine diTick_keeps _ _ (sub_of hm rfl) ?_
  exact h

theorem execDoHold_keeps {m : Nat} {r s : State} (h0 : Fin 2) (v : BitVec 16) (hm : Sub 268435456 m) (h : Keeps m r s) :
    KeepsO m r (execDoHold h0 v s) := by
  unfold execDoHold
  refine KeepsO.next ?_
  refine doCfg_keeps _ _ (sub_of hm rfl) ?_
  exact h

theorem execDoOlEn_keeps {m : Nat} {r s : State} (h0 : Fin 2) (v : BitVec 16) (hm : Sub 268435456 m) (h : Keeps m r s) :
    KeepsO m r (execDoOlEn h0 v s) := by
  unfold execDoOlEn
  refine KeepsO.next ?_
  refine doCfg_keeps _ _ (sub_of hm rfl) ?_
  exact h

theorem execDoOut_keeps {m : Nat} {r s : State} (h0 : Fin 2) (v : BitVec 16) (ack : Bool) (hm : Sub 268435456 m) (h : Keeps m r s) :
    KeepsO m r (execDoOut h0 v ack s) := by
  unfold execDoOut
  refine KeepsO.next ?_
  refine doOut_keeps _ _ _ (sub_of hm rfl) ?_
  exact h

theorem execDoSafe_keeps {m : Nat} {r s : State} (h0 : Fin 2) (v : BitVec 16) (hm : Sub 268435456 m) (h : Keeps m r s) :
    KeepsO m r (execDoSafe h0 v s) := by
  unfold execDoSafe
  refine KeepsO.next ?_
  refine doCfg_keeps _ _ (sub_of hm rfl) ?_
  exact h

theorem execFieldSupplyMeasure_keeps {m : Nat} {r s : State} (island : Fin 25) (mv : BitVec 16) (hm : Sub 1476395008 m) (h : Keeps m r s) :
    KeepsO m r (execFieldSupplyMeasure island mv s) := by
  unfold execFieldSupplyMeasure
  refine KeepsO.guarded ?_
  refine supplyMeasure_keeps _ _ (sub_of hm rfl) ?_
  exact h

theorem execMiswire_keeps {m : Nat} {r s : State} (a : Fin 4) (c : Fin 4) (hm : Sub 536870912 m) (h : Keeps m r s) :
    KeepsO m r (execMiswire a c s) := by
  unfold execMiswire
  refine KeepsO.next ?_
  refine aoChan_keeps _ _ _ (sub_of hm rfl) ?_
  exact h

theorem execMiswireResume_keeps {m : Nat} {r s : State} (a : Fin 4) (c : Fin 4) (hm : Sub 536870912 m) (h : Keeps m r s) :
    KeepsO m r (execMiswireResume a c s) := by
  unfold execMiswireResume
  refine KeepsO.next ?_
  refine aoWord_keeps _ _ (sub_of hm rfl) ?_
  exact h

theorem execOpenLoad_keeps {m : Nat} {r s : State} (h0 : Fin 2) (c : Fin 16) (inBand : Bool) (hm : Sub 268435456 m) (h : Keeps m r s) :
    KeepsO m r (execOpenLoad h0 c inBand s) := by
  unfold execOpenLoad
  refine KeepsO.next ?_
  refine openLoad_keeps _ _ _ (sub_of hm rfl) ?_
  exact h

theorem execOvlLatch_keeps {m : Nat} {r s : State} (h0 : Fin 2) (c : Fin 16) (hm : Sub 268435456 m) (h : Keeps m r s) :
    KeepsO m r (execOvlLatch h0 c s) := by
  unfold execOvlLatch
  refine KeepsO.next ?_
  refine doWord_keeps _ _ (sub_of hm rfl) ?_
  exact h

theorem execRbDev_keeps {m : Nat} {r s : State} (a : Fin 4) (c : Fin 4) (v : Bool) (hm : Sub 536870912 m) (h : Keeps m r s) :
    KeepsO m r (execRbDev a c v s) := by
  unfold execRbDev
  refine KeepsO.next ?_
  refine aoChan_keeps _ _ _ (sub_of hm rfl) ?_
  exact h

theorem execSafeValueTimeout_keeps {m : Nat} {r s : State} (island : Fin 25) (hm : Sub 805306368 m) (h : Keeps m r s) :
    KeepsO m r (execSafeValueTimeout island s) := by
  unfold execSafeValueTimeout
  refine KeepsO.guarded ?_
  refine safeTimeout_keeps _ (sub_of hm rfl) ?_
  exact h

theorem execSampleInstant_keeps {m : Nat} {r s : State} (island : Fin 25) (offset : BitVec 17) (meas : List (BitVec 16)) (limits : BitVec 4) (hm : Sub 2822603810 m) (h : Keeps m r s) :
    KeepsO m r (execSampleInstant island offset meas limits s) := by
  unfold execSampleInstant
  refine KeepsO.guarded ?_
  refine sampleInstant_keeps _ _ _ _ (sub_of hm rfl) ?_
  exact h

theorem execWireBreak_keeps {m : Nat} {r s : State} (g : Fin 4) (c : Fin 16) (broken : Bool) (hm : Sub 134217728 m) (h : Keeps m r s) :
    KeepsO m r (execWireBreak g c broken s) := by
  unfold execWireBreak
  refine KeepsO.next ?_
  refine wireBreak_keeps _ _ _ (sub_of hm rfl) ?_
  exact h

end Sys2Proof.Machine
end

