-- ==== Sys2Proof/Laws/Display.lean ====
section
/-! SUPPORT. What each function of Machine/Display.lean keeps of the state (Laws/Keeps.lean). -/

namespace Sys2Proof.Machine

theorem setPan_keeps {m : Nat} {r s : State} (p : Nat) (x : Panel) (hm : Sub 549755813888 m) (h : Keeps m r s) :
    Keeps m r (State.setPan s p x) := by
  unfold State.setPan
  extract_lets x7
  refine Keeps.upd_lcd ?_ (hm 39 rfl)
  exact h

theorem sendPanels_keeps {m : Nat} {r s : State} (ps : List Nat) (hm : Sub 549755813888 m) (h : Keeps m r s) :
    Keeps m r (sendPanels s ps) := by
  unfold sendPanels
  extract_lets x6
  refine Keeps.upd_lcd ?_ (hm 39 rfl)
  exact h

theorem lcdCommitted_keeps {m : Nat} {r s : State}  (hm : Sub 549755813888 m) (h : Keeps m r s) :
    Keeps m r (lcdCommitted s) := by
  unfold lcdCommitted
  refine sendPanels_keeps _ (sub_of hm rfl) ?_
  exact h

theorem lcdRec_keeps {m : Nat} {r s : State} (code : Nat) (sev : Nat) (subject : Nat) (d : List Word) (hm : Sub 3933218 m) (h : Keeps m r s) :
    Keeps m r (lcdRec s code sev subject d) := by
  unfold lcdRec
  refine logOnce_keeps _ _ _ _ _ (sub_of hm rfl) ?_
  exact h

theorem badNote_keeps {m : Nat} {r s : State}  (hm : Sub 3933218 m) (h : Keeps m r s) :
    Keeps m r (badNote s) := by
  unfold badNote
  extract_lets x5
  refine lcdRec_keeps _ _ _ _ (sub_of hm rfl) ?_
  refine orReg_keeps _ _ (sub_of hm rfl) ?_
  exact h

theorem badPath_keeps {m : Nat} {r s : State}  (hm : Sub 549759747106 m) (h : Keeps m r s) :
    Keeps m r (badPath s) := by
  unfold badPath
  extract_lets x5
  refine badNote_keeps (sub_of hm rfl) ?_
  refine Keeps.upd_lcd ?_ (hm 39 rfl)
  exact h

theorem badWord_keeps {m : Nat} {r s : State}  (hm : Sub 549759747106 m) (h : Keeps m r s) :
    Keeps m r (badWord s) := by
  unfold badWord
  extract_lets x5
  refine badNote_keeps (sub_of hm rfl) ?_
  refine Keeps.upd_lcd ?_ (hm 39 rfl)
  exact h

theorem bandWord_keeps {m : Nat} {r s : State} (w : Word) (hm : Sub 549759747106 m) (h : Keeps m r s) :
    Keeps m r (bandWord w s) := by
  unfold bandWord
  extract_lets x6 x7
  refine Keeps.ite ?_ ?_
  · refine badWord_keeps (sub_of hm rfl) ?_
    exact h
  · refine setPan_keeps _ _ (sub_of hm rfl) ?_
    exact h

theorem lcdShow_keeps {m : Nat} {r s : State}  (hm : Sub 1034 m) (h : Keeps m r s) :
    Keeps m r (lcdShow s) := by
  unfold lcdShow
  extract_lets x5
  refine republish_keeps _ (sub_of hm rfl) ?_
  refine publish_keeps _ (sub_of hm rfl) ?_
  exact h

theorem lcdForward_keeps {m : Nat} {r s : State}  (hm : Sub 824637760554 m) (h : Keeps m r s) :
    Keeps m r (lcdForward s) := by
  unfold lcdForward
  extract_lets x5 x6 x7 x8 x9
  have h10 : Keeps m r x6.2 := by
    refine qPop_keeps _ _ (sub_of hm rfl) ?_
    exact h
  clear_value x6
  have h11 : Keeps m r x7 := by
    refine sendOut_keeps _ _ (sub_of hm rfl) ?_
    exact h10
  clear_value x7
  have h12 : Keeps m r x9 := by
    refine sendOut_keeps _ _ (sub_of hm rfl) ?_
    exact h10
  clear_value x9
  refine Keeps.ite ?_ ?_
  · exact h
  · refine Keeps.ite ?_ ?_
    · refine Keeps.ite ?_ ?_
      · refine Keeps.upd_lcd ?_ (hm 39 rfl)
        exact h11
      · refine lcdShow_keeps (sub_of hm rfl) ?_
        refine badPath_keeps (sub_of hm rfl) ?_
        exact h10
    · refine Keeps.upd_lcd ?_ (hm 39 rfl)
      exact h12

theorem lcdSend_keeps {m : Nat} {r s : State}  (hm : Sub 824637760554 m) (h : Keeps m r s) :
    Keeps m r (lcdSend s) := by
  unfold lcdSend
  extract_lets x5
  refine Keeps.ite ?_ ?_
  · exact h
  · split
    · extract_lets x10
      have h11 : Keeps m r x10 := by
        refine sendOut_keeps _ _ (sub_of hm rfl) ?_
        exact h
      clear_value x10
      refine Keeps.upd_lcd ?_ (hm 39 rfl)
      exact h11
    · refine lcdForward_keeps (sub_of hm rfl) ?_
      exact h

theorem lcdMinor_keeps {m : Nat} {r s : State}  (hm : Sub 824637760554 m) (h : Keeps m r s) :
    Keeps m r (lcdMinor s) := by
  unfold lcdMinor
  extract_lets x5 x6 x7 x8
  have h9 : Keeps m r x7 := by
    refine sendPanels_keeps _ (sub_of hm rfl) ?_
    exact h
  clear_value x7
  refine Keeps.ite ?_ ?_
  · refine lcdSend_keeps (sub_of hm rfl) ?_
    exact h
  · refine lcdSend_keeps (sub_of hm rfl) ?_
    refine Keeps.upd_lcd ?_ (hm 39 rfl)
    exact h9

theorem cntRect_keeps {m : Nat} {r s : State} (p : Nat) (lo : Nat) (n : Nat) (hm : Sub 2 m) (h : Keeps m r s) :
    Keeps m r (cntRect p lo n s) := by
  unfold cntRect
  refine setRf_keeps _ _ _ _ (sub_of hm rfl) ?_
  exact h

theorem lcdTake_keeps {m : Nat} {r s : State} (f : State → State) (hm : Sub 1034 m) (h : Keeps m r s) (hf : ∀ a0, Keeps m r a0 → Keeps m r (f a0)) :
    Keeps m r (lcdTake f s) := by
  unfold lcdTake
  refine Keeps.ite ?_ ?_
  · refine lcdShow_keeps (sub_of hm rfl) ?_
    refine hf _ ?_
    exact h
  · exact h

theorem fsegWord_keeps {m : Nat} {r s : State} (w : Word) (hm : Sub 549759747106 m) (h : Keeps m r s) :
    Keeps m r (fsegWord w s) := by
  unfold fsegWord
  extract_lets x6
  refine Keeps.ite ?_ ?_
  · refine badWord_keeps (sub_of hm rfl) ?_
    exact h
  · refine setPan_keeps _ _ (sub_of hm rfl) ?_
    exact h

theorem ntcWord_keeps {m : Nat} {r s : State} (w : Word) (hm : Sub 549759747106 m) (h : Keeps m r s) :
    Keeps m r (ntcWord w s) := by
  unfold ntcWord
  extract_lets x6
  refine Keeps.ite ?_ ?_
  · refine badWord_keeps (sub_of hm rfl) ?_
    exact h
  · refine setPan_keeps _ _ (sub_of hm rfl) ?_
    exact h

theorem panelTake_keeps {m : Nat} {r s : State} (w : Word) (hm : Sub 549759747106 m) (h : Keeps m r s) :
    Keeps m r (panelTake w s) := by
  unfold panelTake
  extract_lets x6 x7 x8
  refine Keeps.ite ?_ ?_
  · refine Keeps.foldl _ _ (fun s9 a9 h9 => ?_) _ ?_
    · refine lcdRec_keeps _ _ _ _ (sub_of hm rfl) ?_
      refine orReg_keeps _ _ (sub_of hm rfl) ?_
      refine cntRect_keeps _ _ _ (sub_of hm rfl) ?_
      exact h9
    · refine setPan_keeps _ _ (sub_of hm rfl) ?_
      exact h
  · refine setPan_keeps _ _ (sub_of hm rfl) ?_
    exact h

theorem panelWord_keeps {m : Nat} {r s : State} (w : Word) (hm : Sub 549759747106 m) (h : Keeps m r s) :
    Keeps m r (panelWord w s) := by
  unfold panelWord
  extract_lets x6
  refine Keeps.ite ?_ ?_
  · refine badWord_keeps (sub_of hm rfl) ?_
    exact h
  · refine Keeps.ite ?_ ?_
    · refine setPan_keeps _ _ (sub_of hm rfl) ?_
      exact h
    · refine panelTake_keeps _ (sub_of hm rfl) ?_
      exact h

theorem vlcdWord_keeps {m : Nat} {r s : State} (w : Word) (hm : Sub 549759747106 m) (h : Keeps m r s) :
    Keeps m r (vlcdWord w s) := by
  unfold vlcdWord
  extract_lets x6
  split
  · refine panelWord_keeps _ (sub_of hm rfl) ?_
    exact h
  · refine fsegWord_keeps _ (sub_of hm rfl) ?_
    exact h
  · refine ntcWord_keeps _ (sub_of hm rfl) ?_
    exact h
  · refine bandWord_keeps _ (sub_of hm rfl) ?_
    exact h
  · refine badWord_keeps (sub_of hm rfl) ?_
    exact h

theorem rectArrive_keeps {m : Nat} {r s : State} (w : Word) (hm : Sub 549759747106 m) (h : Keeps m r s) :
    Keeps m r (rectArrive w s) := by
  unfold rectArrive
  extract_lets x6 x7 x8 x9 x10
  have h11 : Keeps m r x7 := by
    refine Keeps.ite ?_ ?_
    · refine badWord_keeps (sub_of hm rfl) ?_
      refine Keeps.upd_lcd ?_ (hm 39 rfl)
      exact h
    · exact h
  clear_value x7
  refine Keeps.ite ?_ ?_
  · refine badWord_keeps (sub_of hm rfl) ?_
    exact h
  · refine Keeps.ite ?_ ?_
    · refine badWord_keeps (sub_of hm rfl) ?_
      exact h11
    · refine Keeps.upd_lcd ?_ (hm 39 rfl)
      exact h11

theorem lcdForce_keeps {m : Nat} {r s : State} (w : Word) (hm : Sub 549759747106 m) (h : Keeps m r s) :
    Keeps m r (lcdForce w s) := by
  unfold lcdForce
  extract_lets x6
  refine Keeps.ite ?_ ?_
  · refine badWord_keeps (sub_of hm rfl) ?_
    exact h
  · refine Keeps.upd_lcd ?_ (hm 39 rfl)
    exact h

theorem lcdQuery_keeps {m : Nat} {r s : State} (w : Word) (hm : Sub 549759845410 m) (h : Keeps m r s) :
    Keeps m r (lcdQuery w s) := by
  unfold lcdQuery
  extract_lets x6 x7 x8
  refine Keeps.ite ?_ ?_
  · refine badWord_keeps (sub_of hm rfl) ?_
    exact h
  · refine Keeps.ite ?_ ?_
    · refine sendIn_keeps _ _ _ (sub_of hm rfl) ?_
      exact h
    · refine sendIn_keeps _ _ _ (sub_of hm rfl) ?_
      exact h

theorem rectcmdWord_keeps {m : Nat} {r s : State} (w : Word) (hm : Sub 549759845410 m) (h : Keeps m r s) :
    Keeps m r (rectcmdWord w s) := by
  unfold rectcmdWord
  extract_lets x6
  split
  · refine rectArrive_keeps _ (sub_of hm rfl) ?_
    exact h
  · refine lcdQuery_keeps _ (sub_of hm rfl) ?_
    exact h
  · refine lcdForce_keeps _ (sub_of hm rfl) ?_
    exact h
  · refine badWord_keeps (sub_of hm rfl) ?_
    exact h

theorem dropCovered_keeps {m : Nat} {r s : State} (r0 : Rect) (hm : Sub 549759747106 m) (h : Keeps m r s) :
    Keeps m r (dropCovered r0 s) := by
  unfold dropCovered
  extract_lets x6 x7 x8
  have h9 : Keeps m r x8 := by
    refine setPan_keeps _ _ (sub_of hm rfl) ?_
    exact h
  clear_value x8
  refine Keeps.foldl _ _ (fun s10 a10 h10 => ?_) _ ?_
  · refine lcdRec_keeps _ _ _ _ (sub_of hm rfl) ?_
    refine orReg_keeps _ _ (sub_of hm rfl) ?_
    refine cntRect_keeps _ _ _ (sub_of hm rfl) ?_
    exact h10
  · exact h9

theorem placeRect_keeps {m : Nat} {r s : State} (r0 : Rect) (hm : Sub 549759747106 m) (h : Keeps m r s) :
    Keeps m r (placeRect r0 s) := by
  unfold placeRect
  extract_lets x6 x7
  have h8 : Keeps m r x6 := by
    refine dropCovered_keeps _ (sub_of hm rfl) ?_
    exact h
  clear_value x6
  refine Keeps.ite ?_ ?_
  · refine setPan_keeps _ _ (sub_of hm rfl) ?_
    exact h8
  · refine Keeps.ite ?_ ?_
    · refine setPan_keeps _ _ (sub_of hm rfl) ?_
      exact h8
    · refine lcdRec_keeps _ _ _ _ (sub_of hm rfl) ?_
      refine orReg_keeps _ _ (sub_of hm rfl) ?_
      refine cntRect_keeps _ _ _ (sub_of hm rfl) ?_
      exact h8

theorem segdata_keeps {m : Nat} {r s : State} (w : Word) (hm : Sub 549759747106 m) (h : Keeps m r s) :
    Keeps m r (segdata w s) := by
  unfold segdata
  extract_lets x6
  split
  · refine badWord_keeps (sub_of hm rfl) ?_
    exact h
  · extract_lets x10
    refine Keeps.ite ?_ ?_
    · refine placeRect_keeps _ (sub_of hm rfl) ?_
      refine Keeps.upd_lcd ?_ (hm 39 rfl)
      exact h
    · refine Keeps.upd_lcd ?_ (hm 39 rfl)
      exact h

theorem frameTurn_keeps {m : Nat} {r s : State} (p : Nat) (hm : Sub 549759747106 m) (h : Keeps m r s) :
    Keeps m r (frameTurn p s) := by
  unfold frameTurn
  extract_lets x6 x7 x8 x9 x10 x11
  have h12 : Keeps m r x6 := by
    subst x6
    split
    · refine panelTake_keeps _ (sub_of hm rfl) ?_
      exact h
    · exact h
  clear_value x6
  refine setPan_keeps _ _ (sub_of hm rfl) ?_
  refine cntRect_keeps _ _ _ (sub_of hm rfl) ?_
  exact h12

theorem frameBoundary_keeps {m : Nat} {r s : State} (p : Nat) (hm : Sub 549759747106 m) (h : Keeps m r s) :
    Keeps m r (frameBoundary p s) := by
  unfold frameBoundary
  refine Keeps.ite ?_ ?_
  · exact h
  · refine frameTurn_keeps _ (sub_of hm rfl) ?_
    exact h

theorem lcdPowerOff_keeps {m : Nat} {r s : State}  (hm : Sub 549755814922 m) (h : Keeps m r s) :
    Keeps m r (lcdPowerOff s) := by
  unfold lcdPowerOff
  extract_lets x5 x6
  refine lcdShow_keeps (sub_of hm rfl) ?_
  refine Keeps.foldl _ _ (fun s7 a7 h7 => ?_) _ ?_
  · refine setPan_keeps _ _ (sub_of hm rfl) ?_
    exact h7
  · refine Keeps.upd_lcd ?_ (hm 39 rfl)
    exact h

theorem ntcFault_keeps {m : Nat} {r s : State} (p : Nat) (hm : Sub 549759747106 m) (h : Keeps m r s) :
    Keeps m r (ntcFault p s) := by
  unfold ntcFault
  extract_lets x6 x7
  have h8 : Keeps m r x7 := by
    refine setPan_keeps _ _ (sub_of hm rfl) ?_
    exact h
  clear_value x7
  refine Keeps.ite ?_ ?_
  · exact h
  · refine lcdRec_keeps _ _ _ _ (sub_of hm rfl) ?_
    refine orReg_keeps _ _ (sub_of hm rfl) ?_
    exact h8

theorem ntcReading_keeps {m : Nat} {r s : State} (p : Nat) (ohms : Nat) (hm : Sub 549755813888 m) (h : Keeps m r s) :
    Keeps m r (ntcReading p ohms s) := by
  unfold ntcReading
  extract_lets x7
  refine Keeps.ite ?_ ?_
  · refine setPan_keeps _ _ (sub_of hm rfl) ?_
    exact h
  · refine setPan_keeps _ _ (sub_of hm rfl) ?_
    exact h

theorem slotBoundary_keeps {m : Nat} {r s : State} (p : Nat) (hm : Sub 549755813888 m) (h : Keeps m r s) :
    Keeps m r (slotBoundary p s) := by
  unfold slotBoundary
  extract_lets x6
  refine setPan_keeps _ _ (sub_of hm rfl) ?_
  exact h

theorem temperatureUpdate_keeps {m : Nat} {r s : State} (p : Nat) (hm : Sub 549759747106 m) (h : Keeps m r s) :
    Keeps m r (temperatureUpdate p s) := by
  unfold temperatureUpdate
  extract_lets x6 x7
  split
  · extract_lets x11 x12
    have h13 : Keeps m r x12 := by
      refine setPan_keeps _ _ (sub_of hm rfl) ?_
      exact h
    clear_value x12
    refine Keeps.ite ?_ ?_
    · refine Keeps.ite ?_ ?_
      · refine lcdRec_keeps _ _ _ _ (sub_of hm rfl) ?_
        refine orReg_keeps _ _ (sub_of hm rfl) ?_
        exact h13
      · exact h13
    · refine setPan_keeps _ _ (sub_of hm rfl) ?_
      exact h
  · refine setPan_keeps _ _ (sub_of hm rfl) ?_
    exact h

theorem vlcdFault_keeps {m : Nat} {r s : State} (p : Nat) (hm : Sub 549759747106 m) (h : Keeps m r s) :
    Keeps m r (vlcdFault p s) := by
  unfold vlcdFault
  extract_lets x6 x7
  refine Keeps.ite ?_ ?_
  · exact h
  · refine lcdRec_keeps _ _ _ _ (sub_of hm rfl) ?_
    refine orReg_keeps _ _ (sub_of hm rfl) ?_
    refine setPan_keeps _ _ (sub_of hm rfl) ?_
    exact h

theorem lcdWord_keeps {m : Nat} {r s : State} (f : State → State) (hm : Sub 1034 m) (h : Keeps m r s) (hf : ∀ a0, Keeps m r a0 → Keeps m r (f a0)) :
    KeepsO m r (lcdWord f s) := by
  unfold lcdWord
  refine KeepsO.next ?_
  refine lcdTake_keeps _ (sub_of hm rfl) ?_ ?_
  · exact h
  · intro q7 q8
    refine hf _ ?_
    exact q8

theorem execBandWord_keeps {m : Nat} {r s : State} (w : BitVec 28) (hm : Sub 549759747114 m) (h : Keeps m r s) :
    KeepsO m r (execBandWord w s) := by
  unfold execBandWord
  refine lcdWord_keeps _ (sub_of hm rfl) ?_ ?_
  · exact h
  · intro q6 q7
    refine bandWord_keeps _ (sub_of hm rfl) ?_
    exact q7

theorem execFrameBoundary_keeps {m : Nat} {r s : State} (p : Fin 4) (hm : Sub 549759747114 m) (h : Keeps m r s) :
    KeepsO m r (execFrameBoundary p s) := by
  unfold execFrameBoundary
  refine lcdWord_keeps _ (sub_of hm rfl) ?_ ?_
  · exact h
  · intro q6 q7
    refine frameBoundary_keeps _ (sub_of hm rfl) ?_
    exact q7

theorem execFsegWord_keeps {m : Nat} {r s : State} (w : BitVec 28) (hm : Sub 549759747114 m) (h : Keeps m r s) :
    KeepsO m r (execFsegWord w s) := by
  unfold execFsegWord
  refine lcdWord_keeps _ (sub_of hm rfl) ?_ ?_
  · exact h
  · intro q6 q7
    refine fsegWord_keeps _ (sub_of hm rfl) ?_
    exact q7

theorem execIdleIntervalEnd_keeps {m : Nat} {r s : State} (p : Fin 4) (hm : Sub 549755814922 m) (h : Keeps m r s) :
    KeepsO m r (execIdleIntervalEnd p s) := by
  unfold execIdleIntervalEnd
  refine lcdWord_keeps _ (sub_of hm rfl) ?_ ?_
  · exact h
  · intro q6 q7
    extract_lets x8
    refine setPan_keeps _ _ (sub_of hm rfl) ?_
    exact q7

theorem execLcdForce_keeps {m : Nat} {r s : State} (w : BitVec 28) (hm : Sub 549759747114 m) (h : Keeps m r s) :
    KeepsO m r (execLcdForce w s) := by
  unfold execLcdForce
  refine lcdWord_keeps _ (sub_of hm rfl) ?_ ?_
  · exact h
  · intro q6 q7
    refine lcdForce_keeps _ (sub_of hm rfl) ?_
    exact q7

theorem execLcdQuery_keeps {m : Nat} {r s : State} (w : BitVec 28) (hm : Sub 549759845418 m) (h : Keeps m r s) :
    KeepsO m r (execLcdQuery w s) := by
  unfold execLcdQuery
  refine lcdWord_keeps _ (sub_of hm rfl) ?_ ?_
  · exact h
  · intro q6 q7
    refine lcdQuery_keeps _ (sub_of hm rfl) ?_
    exact q7

theorem execNtcFault_keeps {m : Nat} {r s : State} (p : Fin 4) (hm : Sub 549759747114 m) (h : Keeps m r s) :
    KeepsO m r (execNtcFault p s) := by
  unfold execNtcFault
  refine lcdWord_keeps _ (sub_of hm rfl) ?_ ?_
  · exact h
  · intro q6 q7
    refine ntcFault_keeps _ (sub_of hm rfl) ?_
    exact q7

theorem execNtcReading_keeps {m : Nat} {r s : State} (p : Fin 4) (ohms : BitVec 32) (hm : Sub 549755814922 m) (h : Keeps m r s) :
    KeepsO m r (execNtcReading p ohms s) := by
  unfold execNtcReading
  refine lcdWord_keeps _ (sub_of hm rfl) ?_ ?_
  · exact h
  · intro q7 q8
    refine ntcReading_keeps _ _ (sub_of hm rfl) ?_
    exact q8

theorem execNtcWord_keeps {m : Nat} {r s : State} (w : BitVec 28) (hm : Sub 549759747114 m) (h : Keeps m r s) :
    KeepsO m r (execNtcWord w s) := by
  unfold execNtcWord
  refine lcdWord_keeps _ (sub_of hm rfl) ?_ ?_
  · exact h
  · intro q6 q7
    refine ntcWord_keeps _ (sub_of hm rfl) ?_
    exact q7

theorem execPanelWord_keeps {m : Nat} {r s : State} (w : BitVec 28) (hm : Sub 549759747114 m) (h : Keeps m r s) :
    KeepsO m r (execPanelWord w s) := by
  unfold execPanelWord
  refine lcdWord_keeps _ (sub_of hm rfl) ?_ ?_
  · exact h
  · intro q6 q7
    refine panelWord_keeps _ (sub_of hm rfl) ?_
    exact q7

theorem execRectWord_keeps {m : Nat} {r s : State} (w : BitVec 28) (hm : Sub 549759747114 m) (h : Keeps m r s) :
    KeepsO m r (execRectWord w s) := by
  unfold execRectWord
  refine lcdWord_keeps _ (sub_of hm rfl) ?_ ?_
  · exact h
  · intro q6 q7
    refine rectArrive_keeps _ (sub_of hm rfl) ?_
    exact q7

theorem execRequestInstant_keeps {m : Nat} {r s : State} (w : Word) (hm : Sub 549759747114 m) (h : Keeps m r s) :
    KeepsO m r (execRequestInstant w s) := by
  unfold execRequestInstant
  refine lcdWord_keeps _ (sub_of hm rfl) ?_ ?_
  · exact h
  · intro q6 q7
    refine segdata_keeps _ (sub_of hm rfl) ?_
    exact q7

theorem execSegdata_keeps {m : Nat} {r s : State} (w : Word) (hm : Sub 549759747114 m) (h : Keeps m r s) :
    KeepsO m r (execSegdata w s) := by
  unfold execSegdata
  refine lcdWord_keeps _ (sub_of hm rfl) ?_ ?_
  · exact h
  · intro q6 q7
    refine segdata_keeps _ (sub_of hm rfl) ?_
    exact q7

theorem execSlotBoundary_keeps {m : Nat} {r s : State} (p : Fin 4) (hm : Sub 549755814922 m) (h : Keeps m r s) :
    KeepsO m r (execSlotBoundary p s) := by
  unfold execSlotBoundary
  refine lcdWord_keeps _ (sub_of hm rfl) ?_ ?_
  · exact h
  · intro q6 q7
    refine slotBoundary_keeps _ (sub_of hm rfl) ?_
    exact q7

theorem execTemperatureUpdate_keeps {m : Nat} {r s : State} (p : Fin 4) (hm : Sub 549759747114 m) (h : Keeps m r s) :
    KeepsO m r (execTemperatureUpdate p s) := by
  unfold execTemperatureUpdate
  refine lcdWord_keeps _ (sub_of hm rfl) ?_ ?_
  · exact h
  · intro q6 q7
    refine temperatureUpdate_keeps _ (sub_of hm rfl) ?_
    exact q7

theorem execVlcdFault_keeps {m : Nat} {r s : State} (p : Fin 4) (hm : Sub 549759747114 m) (h : Keeps m r s) :
    KeepsO m r (execVlcdFault p s) := by
  unfold execVlcdFault
  refine lcdWord_keeps _ (sub_of hm rfl) ?_ ?_
  · exact h
  · intro q6 q7
    refine vlcdFault_keeps _ (sub_of hm rfl) ?_
    exact q7

theorem execVlcdRestart_keeps {m : Nat} {r s : State} (p : Fin 4) (ok : Bool) (hm : Sub 549755814922 m) (h : Keeps m r s) :
    KeepsO m r (execVlcdRestart p ok s) := by
  unfold execVlcdRestart
  refine lcdWord_keeps _ (sub_of hm rfl) ?_ ?_
  · exact h
  · intro q7 q8
    extract_lets x9
    refine Keeps.ite ?_ ?_
    · refine setPan_keeps _ _ (sub_of hm rfl) ?_
      exact q8
    · exact q8

end Sys2Proof.Machine
end

