-- ==== Sys2Proof/Laws/FieldRead.lean ====
section
/-! SUPPORT. What each function of Machine/FieldRead.lean keeps of the state (Laws/Keeps.lean). -/

namespace Sys2Proof.Machine

theorem recEach_keeps {m : Nat} {r s : State} (code : Nat) (blk : Nat) (sev : Nat) (island : Nat) (data : Nat → List Word) (x5 : List Nat) (hm : Sub 3933218 m) (h : Keeps m r s) :
    Keeps m r (recEach code blk sev island data x5 s) := by
  induction x5 generalizing s with | nil => ?_ | cons a l ih => ?_
  · simp -zeta only [recEach]
    exact h
  · simp -zeta only [recEach]
    refine ih ?_
    refine logOnce_keeps _ _ _ _ _ (sub_of hm rfl) ?_
    exact h

theorem supplyEvents_keeps {m : Nat} {r s : State} (evtReg : Nat) (evtBit : Nat) (codeMiss : Nat) (codeLow : Nat) (blk : Nat) (sevMiss : Nat) (who : Nat) (old : Word) (w : Word) (hm : Sub 3933218 m) (h : Keeps m r s) :
    Keeps m r (supplyEvents evtReg evtBit codeMiss codeLow blk sevMiss who old w s) := by
  unfold supplyEvents
  extract_lets x14 x15 x16 x17 x18
  have h19 : Keeps m r x17 := by
    refine Keeps.ite ?_ ?_
    · refine orReg_keeps _ _ (sub_of hm rfl) ?_
      exact h
    · exact h
  clear_value x17
  have h20 : Keeps m r x18 := by
    refine Keeps.ite ?_ ?_
    · refine logOnce_keeps _ _ _ _ _ (sub_of hm rfl) ?_
      exact h19
    · exact h19
  clear_value x18
  refine Keeps.ite ?_ ?_
  · refine logOnce_keeps _ _ _ _ _ (sub_of hm rfl) ?_
    exact h20
  · exact h20

theorem readDo_keeps {m : Nat} {r s : State} (h0 : Nat) (k : Nat) (w : Word) (hm : Sub 71042082 m) (h : Keeps m r s) :
    Keeps m r (readDo h0 k w s) := by
  unfold readDo
  extract_lets x8 x9 x10 x11 x12 x13 x14 x15 x16 x17 x18 x19
  have h20 : Keeps m r x8 := by
    refine setReg_keeps _ _ (sub_of hm rfl) ?_
    exact h
  clear_value x8
  have h21 : Keeps m r x10 := by
    refine setReg_keeps _ _ (sub_of hm rfl) ?_
    exact h20
  clear_value x10
  have h22 : Keeps m r x13 := by
    refine Keeps.ite ?_ ?_
    · exact h21
    · refine orReg_keeps _ _ (sub_of hm rfl) ?_
      exact h21
  clear_value x13
  have h23 : Keeps m r x14 := by
    refine Keeps.ite ?_ ?_
    · exact h22
    · refine orReg_keeps _ _ (sub_of hm rfl) ?_
      exact h22
  clear_value x14
  have h24 : Keeps m r x16 := by
    refine setRb_keeps _ _ _ (sub_of hm rfl) ?_
    refine setReg_keeps _ _ (sub_of hm rfl) ?_
    exact h20
  clear_value x16
  have h25 : Keeps m r x17 := by
    refine setRb_keeps _ _ _ (sub_of hm rfl) ?_
    refine setRb_keeps _ _ _ (sub_of hm rfl) ?_
    exact h24
  clear_value x17
  have h26 : Keeps m r x18 := by
    refine supplyEvents_keeps _ _ _ _ _ _ _ _ _ (sub_of hm rfl) ?_
    exact h25
  clear_value x18
  have h27 : Keeps m r x19 := by
    refine Keeps.ite ?_ ?_
    · refine logOnce_keeps _ _ _ _ _ (sub_of hm rfl) ?_
      refine orReg_keeps _ _ (sub_of hm rfl) ?_
      exact h26
    · exact h26
  clear_value x19
  refine Keeps.ite ?_ ?_
  · refine gateAdoptDo_keeps _ _ (sub_of hm rfl) ?_
    refine setReg_keeps _ _ (sub_of hm rfl) ?_
    exact h20
  · refine Keeps.ite ?_ ?_
    · refine recEach_keeps _ _ _ _ _ _ (sub_of hm rfl) ?_
      refine recEach_keeps _ _ _ _ _ _ (sub_of hm rfl) ?_
      exact h23
    · refine gateSafeWord_keeps _ _ (sub_of hm rfl) ?_
      exact h27

theorem readDi_keeps {m : Nat} {r s : State} (g : Nat) (k : Nat) (w : Word) (hm : Sub 3933218 m) (h : Keeps m r s) :
    Keeps m r (readDi g k w s) := by
  unfold readDi
  extract_lets x8 x9 x10 x11 x12 x13
  have h14 : Keeps m r x8 := by
    refine setReg_keeps _ _ (sub_of hm rfl) ?_
    exact h
  clear_value x8
  have h15 : Keeps m r x10 := by
    refine setReg_keeps _ _ (sub_of hm rfl) ?_
    exact h14
  clear_value x10
  have h16 : Keeps m r x11 := by
    refine Keeps.ite ?_ ?_
    · exact h15
    · refine orReg_keeps _ _ (sub_of hm rfl) ?_
      exact h15
  clear_value x11
  have h17 : Keeps m r x13 := by
    refine setRb_keeps _ _ _ (sub_of hm rfl) ?_
    refine setRb_keeps _ _ _ (sub_of hm rfl) ?_
    refine setReg_keeps _ _ (sub_of hm rfl) ?_
    exact h14
  clear_value x13
  refine Keeps.ite ?_ ?_
  · refine setReg_keeps _ _ (sub_of hm rfl) ?_
    exact h14
  · refine Keeps.ite ?_ ?_
    · refine recEach_keeps _ _ _ _ _ _ (sub_of hm rfl) ?_
      exact h16
    · refine Keeps.ite ?_ ?_
      · refine setReg_keeps _ _ (sub_of hm rfl) ?_
        exact h14
      · refine supplyEvents_keeps _ _ _ _ _ _ _ _ _ (sub_of hm rfl) ?_
        exact h17

theorem noteAlarm_keeps {m : Nat} {r s : State} (n : Nat) (b : Bool) (hm : Sub 34359738368 m) (h : Keeps m r s) :
    Keeps m r (noteAlarm n b s) := by
  unfold noteAlarm
  extract_lets x7
  refine Keeps.upd_ctl ?_ (hm 35 rfl)
  exact h

theorem readAo_keeps {m : Nat} {r s : State} (a : Nat) (k : Nat) (w : Word) (hm : Sub 34430780450 m) (h : Keeps m r s) :
    Keeps m r (readAo a k w s) := by
  unfold readAo
  extract_lets x8 x9 x10 x11 x12 x13 x14 x15 x16 x17 x18 x19 x20 x21 x22 x23 x24 x25 x26 x27 x28
  have h29 : Keeps m r x8 := by
    refine setReg_keeps _ _ (sub_of hm rfl) ?_
    exact h
  clear_value x8
  have h30 : Keeps m r x10 := by
    refine setReg_keeps _ _ (sub_of hm rfl) ?_
    exact h29
  clear_value x10
  have h31 : Keeps m r x11 := by
    refine Keeps.ite ?_ ?_
    · refine logOnce_keeps _ _ _ _ _ (sub_of hm rfl) ?_
      refine orReg_keeps _ _ (sub_of hm rfl) ?_
      exact h30
    · exact h30
  clear_value x11
  have h32 : Keeps m r x14 := by
    refine noteAlarm_keeps _ _ (sub_of hm rfl) ?_
    refine setReg_keeps _ _ (sub_of hm rfl) ?_
    exact h29
  clear_value x14
  have h33 : Keeps m r x16 := by
    refine setRb_keeps _ _ _ (sub_of hm rfl) ?_
    refine setReg_keeps _ _ (sub_of hm rfl) ?_
    exact h29
  clear_value x16
  have h34 : Keeps m r x17 := by
    refine setRf_keeps _ _ _ _ (sub_of hm rfl) ?_
    refine setRb_keeps _ _ _ (sub_of hm rfl) ?_
    refine setRb_keeps _ _ _ (sub_of hm rfl) ?_
    exact h33
  clear_value x17
  have h35 : Keeps m r x18 := by
    refine supplyEvents_keeps _ _ _ _ _ _ _ _ _ (sub_of hm rfl) ?_
    exact h34
  clear_value x18
  have h36 : Keeps m r x22 := by
    refine Keeps.ite ?_ ?_
    · exact h35
    · refine orReg_keeps _ _ (sub_of hm rfl) ?_
      exact h35
  clear_value x22
  have h37 : Keeps m r x23 := by
    refine Keeps.ite ?_ ?_
    · exact h36
    · refine orReg_keeps _ _ (sub_of hm rfl) ?_
      exact h36
  clear_value x23
  have h38 : Keeps m r x24 := by
    refine Keeps.ite ?_ ?_
    · exact h37
    · refine orReg_keeps _ _ (sub_of hm rfl) ?_
      exact h37
  clear_value x24
  have h39 : Keeps m r x25 := by
    refine recEach_keeps _ _ _ _ _ _ (sub_of hm rfl) ?_
    exact h38
  clear_value x25
  have h40 : Keeps m r x26 := by
    refine recEach_keeps _ _ _ _ _ _ (sub_of hm rfl) ?_
    exact h39
  clear_value x26
  have h41 : Keeps m r x27 := by
    refine recEach_keeps _ _ _ _ _ _ (sub_of hm rfl) ?_
    exact h40
  clear_value x27
  have h42 : Keeps m r x28 := by
    refine Keeps.ite ?_ ?_
    · refine logOnce_keeps _ _ _ _ _ (sub_of hm rfl) ?_
      refine orReg_keeps _ _ (sub_of hm rfl) ?_
      exact h41
    · exact h41
  clear_value x28
  refine Keeps.ite ?_ ?_
  · refine gateAdoptAo_keeps _ _ _ (sub_of hm rfl) ?_
    exact h31
  · refine Keeps.ite ?_ ?_
    · refine Keeps.ite ?_ ?_
      · refine logOnce_keeps _ _ _ _ _ (sub_of hm rfl) ?_
        refine orReg_keeps _ _ (sub_of hm rfl) ?_
        exact h32
      · exact h32
    · refine Keeps.ite ?_ ?_
      · refine setReg_keeps _ _ (sub_of hm rfl) ?_
        exact h29
      · refine gateSafeWord_keeps _ _ (sub_of hm rfl) ?_
        exact h42

theorem afterTake_keeps {m : Nat} {r s : State} (p : Nat) (w : Word) (hm : Sub 34430780450 m) (h : Keeps m r s) :
    Keeps m r (afterTake p w s) := by
  unfold afterTake
  extract_lets x7 x8
  refine Keeps.ite ?_ ?_
  · refine readDi_keeps _ _ _ (sub_of hm rfl) ?_
    exact h
  · refine Keeps.ite ?_ ?_
    · refine readDo_keeps _ _ _ (sub_of hm rfl) ?_
      exact h
    · refine Keeps.ite ?_ ?_
      · refine readAo_keeps _ _ _ (sub_of hm rfl) ?_
        exact h
      · exact h

end Sys2Proof.Machine
end

