-- ==== Sys2Proof/Laws/MeterIsland.lean ====
section
/-! SUPPORT. What each function of Machine/MeterIsland.lean keeps of the state (Laws/Keeps.lean). -/

namespace Sys2Proof.Machine

theorem s0Begin_keeps {m : Nat} {r s : State} (o : Nat) (width : Nat) (hm : Sub 17179869184 m) (h : Keeps m r s) :
    Keeps m r (s0Begin o width s) := by
  unfold s0Begin
  extract_lets x7
  refine Keeps.upd_mtr ?_ (hm 34 rfl)
  exact h

theorem mtrEdges_keeps {m : Nat} {r s : State} (lo : Nat) (n : Nat) (edges : Nat) (hm : Sub 17179869184 m) (h : Keeps m r s) :
    Keeps m r (mtrEdges lo n edges s) := by
  unfold mtrEdges
  extract_lets x8 x9
  refine Keeps.upd_mtr ?_ (hm 34 rfl)
  exact h

theorem mtrRelease_keeps {m : Nat} {r s : State}  (hm : Sub 17179869186 m) (h : Keeps m r s) :
    Keeps m r (mtrRelease s) := by
  unfold mtrRelease
  extract_lets x5
  refine setRb_keeps _ _ _ (sub_of hm rfl) ?_
  refine Keeps.upd_mtr ?_ (hm 34 rfl)
  exact h

theorem mtrPowerFail_keeps {m : Nat} {r s : State}  (hm : Sub 17179869186 m) (h : Keeps m r s) :
    Keeps m r (mtrPowerFail s) := by
  unfold mtrPowerFail
  extract_lets x5
  refine setRb_keeps _ _ _ (sub_of hm rfl) ?_
  refine Keeps.upd_mtr ?_ (hm 34 rfl)
  exact h

theorem s0Tick_keeps {m : Nat} {r s : State}  (hm : Sub 17179869184 m) (h : Keeps m r s) :
    Keeps m r (s0Tick s) := by
  unfold s0Tick
  extract_lets x5
  refine Keeps.upd_mtr ?_ (hm 34 rfl)
  exact h

theorem meteringSample_keeps {m : Nat} {r s : State} (n : Nat) (secs : Nat) (bits : List (BitVec 1250)) (hm : Sub 292061807722 m) (h : Keeps m r s) :
    Keeps m r (meteringSample n secs bits s) := by
  unfold meteringSample
  extract_lets x8 x9 x10 x11 x12 x13 x14 x15 x16 x17
  have h18 : Keeps m r x13 := by
    refine Keeps.upd_mtr ?_ (hm 34 rfl)
    exact h
  clear_value x13
  have h19 : Keeps m r x14 := by
    refine sendIn_keeps _ _ _ (sub_of hm rfl) ?_
    refine s0Tick_keeps (sub_of hm rfl) ?_
    exact h18
  clear_value x14
  have h20 : Keeps m r x16 := by
    refine Keeps.upd_mtr ?_ (hm 34 rfl)
    exact h19
  clear_value x16
  refine Keeps.ite ?_ ?_
  · exact h
  · refine Keeps.ite ?_ ?_
    · refine islandPush_keeps _ _ _ (sub_of hm rfl) ?_
      exact h20
    · refine Keeps.upd_mtr ?_ (hm 34 rfl)
      exact h20

theorem mtrWarmSwitch_keeps {m : Nat} {r s : State}  (hm : Sub 17179869184 m) (h : Keeps m r s) :
    Keeps m r (mtrWarmSwitch s) := by
  unfold mtrWarmSwitch
  extract_lets x5
  refine Keeps.upd_mtr ?_ (hm 34 rfl)
  exact h

theorem mtrStart_keeps {m : Nat} {r s : State} (warm : Bool) (hm : Sub 17179869184 m) (h : Keeps m r s) :
    Keeps m r (mtrStart warm s) := by
  unfold mtrStart
  extract_lets x6
  refine Keeps.upd_mtr ?_ (hm 34 rfl)
  exact h

theorem execEdgeHigh_keeps {m : Nat} {r s : State} (edges : BitVec 14) (hm : Sub 17179869184 m) (h : Keeps m r s) :
    KeepsO m r (execEdgeHigh edges s) := by
  unfold execEdgeHigh
  refine KeepsO.next ?_
  refine mtrEdges_keeps _ _ _ (sub_of hm rfl) ?_
  exact h

theorem execEdgeLow_keeps {m : Nat} {r s : State} (edges : BitVec 16) (hm : Sub 17179869184 m) (h : Keeps m r s) :
    KeepsO m r (execEdgeLow edges s) := by
  unfold execEdgeLow
  refine KeepsO.next ?_
  refine mtrEdges_keeps _ _ _ (sub_of hm rfl) ?_
  exact h

theorem execMeteringSample_keeps {m : Nat} {r s : State} (n : Fin 16000) (secs : BitVec 16) (bits : List (BitVec 1250)) (hm : Sub 292061807722 m) (h : Keeps m r s) :
    KeepsO m r (execMeteringSample n secs bits s) := by
  unfold execMeteringSample
  refine KeepsO.next ?_
  refine meteringSample_keeps _ _ _ (sub_of hm rfl) ?_
  exact h

theorem execS0Pulse_keeps {m : Nat} {r s : State} (out : Fin 8) (width : BitVec 8) (hm : Sub 17179869184 m) (h : Keeps m r s) :
    KeepsO m r (execS0Pulse out width s) := by
  unfold execS0Pulse
  refine KeepsO.next ?_
  refine s0Begin_keeps _ _ (sub_of hm rfl) ?_
  exact h

theorem execS0PulseEnd_keeps {m : Nat} {r s : State} (out : Fin 8) (hm : Sub 17179869184 m) (h : Keeps m r s) :
    KeepsO m r (execS0PulseEnd out s) := by
  unfold execS0PulseEnd
  extract_lets x6
  refine KeepsO.next ?_
  refine Keeps.upd_mtr ?_ (hm 34 rfl)
  exact h

end Sys2Proof.Machine
end

