-- ==== Sys2Proof/Laws/Meter.lean ====
section
/-! SUPPORT. What each function of Machine/Meter.lean keeps of the state (Laws/Keeps.lean). -/

namespace Sys2Proof.Machine

theorem putAcc_keeps {m : Nat} {r s : State} (c : Nat) (j : Nat) (tot : Int) (frac : Nat) (hm : Sub 1034 m) (h : Keeps m r s) :
    Keeps m r (putAcc s c j tot frac) := by
  unfold putAcc
  extract_lets x9
  have h10 : Keeps m r x9 := by
    refine publish_keeps _ (sub_of hm rfl) ?_
    exact h
  clear_value x9
  refine publish_keeps _ (sub_of hm rfl) ?_
  exact h10

theorem addAcc_keeps {m : Nat} {r s : State} (c : Nat) (j : Nat) (n : Int) (hm : Sub 1034 m) (h : Keeps m r s) :
    Keeps m r (addAcc s c j n) := by
  unfold addAcc
  extract_lets x8
  refine putAcc_keeps _ _ _ _ (sub_of hm rfl) ?_
  exact h

theorem accumulate_keeps {m : Nat} {r s : State} (c : Nat) (j : Nat) (m0 : Nat) (x : FRes) (hm : Sub 2199027188778 m) (h : Keeps m r s) :
    Keeps m r (accumulate s c j m0 x) := by
  unfold accumulate
  extract_lets x9 x10 x11
  have h12 : Keeps m r x10 := by
    refine fpFlags_keeps _ (sub_of hm rfl) ?_
    exact h
  clear_value x10
  have h13 : Keeps m r x11.2 := by
    refine free_keeps (sub_of hm rfl) ?_
    exact h12
  clear_value x11
  refine Keeps.ite ?_ ?_
  · refine addAcc_keeps _ _ _ (sub_of hm rfl) ?_
    exact h12
  · refine addAcc_keeps _ _ _ (sub_of hm rfl) ?_
    exact h13

theorem mtrCommitted_keeps {m : Nat} {r s : State} (before : State) (hm : Sub 17179869184 m) (h : Keeps m r s) :
    Keeps m r (mtrCommitted before s) := by
  unfold mtrCommitted
  extract_lets x6 x7
  refine Keeps.upd_mtr ?_ (hm 34 rfl)
  exact h

theorem copyBad_keeps {m : Nat} {r s : State} (copy : Nat) (hm : Sub 1836066 m) (h : Keeps m r s) :
    Keeps m r (copyBad s copy) := by
  unfold copyBad
  refine Keeps.ite ?_ ?_
  · exact h
  · refine append_keeps _ _ _ _ (sub_of hm rfl) ?_
    refine orReg_keeps _ _ (sub_of hm rfl) ?_
    exact h

theorem mtrRestore_keeps {m : Nat} {r s : State}  (hm : Sub 17181705266 m) (h : Keeps m r s) :
    Keeps m r (mtrRestore s) := by
  unfold mtrRestore
  extract_lets x5 x6 x7 x8 x9 x10 x11 x12 x13 x14 x15 x16 x17 x18
  have h19 : Keeps m r x8 := by
    refine copyBad_keeps _ (sub_of hm rfl) ?_
    refine copyBad_keeps _ (sub_of hm rfl) ?_
    exact h
  clear_value x8
  have h20 : Keeps m r x9 := by
    refine setRf_keeps _ _ _ _ (sub_of hm rfl) ?_
    exact h19
  clear_value x9
  have h21 : Keeps m r x13 := by
    subst x13
    simp -zeta only [x10]
    refine Keeps.upd_data_ecc ?_ (hm 4 rfl) (hm 10 rfl) (fun w0 w => (memWf_memCopy _ _ _ _ _ (h.memOk w0).2.2.2.2.1 w.1))
    exact h20
  clear_value x13
  have h22 : Keeps m r x14 := by
    refine setReg_keeps _ _ (sub_of hm rfl) ?_
    refine setReg_keeps _ _ (sub_of hm rfl) ?_
    refine setRf_keeps _ _ _ _ (sub_of hm rfl) ?_
    exact h21
  clear_value x14
  have h23 : Keeps m r x15 := by
    refine setRb_keeps _ _ _ (sub_of hm rfl) ?_
    exact h22
  clear_value x15
  have h24 : Keeps m r x17 := by
    refine Keeps.upd_mtr ?_ (hm 34 rfl)
    exact h23
  clear_value x17
  have h25 : Keeps m r x18 := by
    subst x18
    simp -zeta only [x10]
    refine Keeps.upd_data_ecc ?_ (hm 4 rfl) (hm 10 rfl) (fun w0 w => (memWf_memZero _ _ _ w.1))
    exact h20
  clear_value x18
  refine Keeps.ite ?_ ?_
  · refine append_keeps _ _ _ _ (sub_of hm rfl) ?_
    exact h24
  · refine append_keeps _ _ _ _ (sub_of hm rfl) ?_
    refine setRb_keeps _ _ _ (sub_of hm rfl) ?_
    exact h25

theorem freeWords_keeps {m : Nat} {r s : State} (n : Nat) (hm : Sub 2199023255552 m) (h : Keeps m r s) :
    Keeps m r (freeWords n s).2 := by
  unfold freeWords
  refine Keeps.mk2 ?_
  refine Keeps.upd_freeCtr ?_ (hm 41 rfl)
  exact h

theorem mtrRec_keeps {m : Nat} {r s : State} (code : Nat) (sev : Nat) (subject : Nat) (d : List Word) (hm : Sub 3933218 m) (h : Keeps m r s) :
    Keeps m r (mtrRec s code sev subject d) := by
  unfold mtrRec
  refine logOnce_keeps _ _ _ _ _ (sub_of hm rfl) ?_
  exact h

theorem s0Lag_keeps {m : Nat} {r s : State} (o : Nat) (hm : Sub 3933226 m) (h : Keeps m r s) :
    Keeps m r (s0Lag s o) := by
  unfold s0Lag
  extract_lets x6 x7
  have h8 : Keeps m r x7 := by
    refine publish_keeps _ (sub_of hm rfl) ?_
    exact h
  clear_value x7
  refine Keeps.ite ?_ ?_
  · refine republish_keeps _ (sub_of hm rfl) ?_
    refine mtrRec_keeps _ _ _ _ (sub_of hm rfl) ?_
    refine orReg_keeps _ _ (sub_of hm rfl) ?_
    exact h8
  · exact h8

theorem s0Pulse_keeps {m : Nat} {r s : State} (o : Nat) (hm : Sub 17183900714 m) (h : Keeps m r s) :
    Keeps m r (s0Pulse s o) := by
  unfold s0Pulse
  extract_lets x6 x7 x8 x9 x10 x11
  have h12 : Keeps m r x9 := by
    refine sendOut_keeps _ _ (sub_of hm rfl) ?_
    exact h
  clear_value x9
  have h13 : Keeps m r x10 := by
    refine publish_keeps _ (sub_of hm rfl) ?_
    exact h12
  clear_value x10
  refine Keeps.ite ?_ ?_
  · refine s0Lag_keeps _ (sub_of hm rfl) ?_
    refine Keeps.upd_mtr ?_ (hm 34 rfl)
    exact h13
  · exact h

theorem mtrFirst_keeps {m : Nat} {r s : State}  (hm : Sub 17179870218 m) (h : Keeps m r s) :
    Keeps m r (mtrFirst s) := by
  unfold mtrFirst
  extract_lets x5 x6 x7 x8 x9
  have h10 : Keeps m r x7 := by
    subst x7
    refine Keeps.foldl _ _ (fun s9 a9 h9 => ?_) _ ?_
    · refine putAcc_keeps _ _ _ _ (sub_of hm rfl) ?_
      exact h9
    · exact h
  clear_value x7
  have h11 : Keeps m r x8 := by
    subst x8
    refine Keeps.foldl _ _ (fun s10 a10 h10 => ?_) _ ?_
    · refine publish_keeps _ (sub_of hm rfl) ?_
      exact h10
    · exact h10
  clear_value x8
  refine Keeps.ite ?_ ?_
  · exact h
  · refine republish_keeps _ (sub_of hm rfl) ?_
    refine Keeps.upd_mtr ?_ (hm 34 rfl)
    exact h11

theorem sendEdges_keeps {m : Nat} {r s : State}  (hm : Sub 17183900706 m) (h : Keeps m r s) :
    Keeps m r (sendEdges s) := by
  unfold sendEdges
  extract_lets x5
  refine Keeps.ite ?_ ?_
  · exact h
  · split
    · exact h
    · extract_lets x10
      have h11 : Keeps m r x10 := by
        refine sendOut_keeps _ _ (sub_of hm rfl) ?_
        exact h
      clear_value x10
      refine Keeps.upd_mtr ?_ (hm 34 rfl)
      exact h11

theorem stuckEvents_keeps {m : Nat} {r s : State} (f : List Word) (hm : Sub 3933218 m) (h : Keeps m r s) :
    Keeps m r (stuckEvents f s) := by
  unfold stuckEvents
  extract_lets x6 x7 x8 x9
  have h10 : Keeps m r x8 := by
    refine setReg_keeps _ _ (sub_of hm rfl) ?_
    exact h
  clear_value x8
  have h11 : Keeps m r x9 := by
    refine Keeps.ite ?_ ?_
    · exact h10
    · refine orReg_keeps _ _ (sub_of hm rfl) ?_
      exact h10
  clear_value x9
  refine Keeps.foldl _ _ (fun s12 a12 h12 => ?_) _ ?_
  · refine mtrRec_keeps _ _ _ _ (sub_of hm rfl) ?_
    exact h12
  · exact h11

theorem countMissing_keeps {m : Nat} {r s : State} (m0 : Nat) (n : Nat) (hm : Sub 3933226 m) (h : Keeps m r s) :
    Keeps m r (countMissing m0 n s) := by
  unfold countMissing
  extract_lets x7
  have h8 : Keeps m r x7 := by
    refine orReg_keeps _ _ (sub_of hm rfl) ?_
    refine satRf_keeps _ _ _ _ (sub_of hm rfl) ?_
    exact h
  clear_value x7
  refine Keeps.ite ?_ ?_
  · exact h
  · refine republish_keeps _ (sub_of hm rfl) ?_
    refine mtrRec_keeps _ _ _ _ (sub_of hm rfl) ?_
    exact h8

theorem winSample_keeps {m : Nat} {r s : State} (w0 : Word) (raws : List Word) (set : Nat) (hm : Sub 17179869184 m) (h : Keeps m r s) :
    Keeps m r (winSample w0 raws s set) := by
  unfold winSample
  extract_lets x8 x9 x10 x11 x12
  refine Keeps.upd_mtr ?_ (hm 34 rfl)
  exact h

theorem putSum_keeps {m : Nat} {r s : State} (c : Nat) (p : Nat) (q : Nat) (v : FRes) (hm : Sub 17183802402 m) (h : Keeps m r s) :
    Keeps m r (putSum s c p q v) := by
  unfold putSum
  extract_lets x9 x10
  have h11 : Keeps m r x9 := by
    refine fpFlags_keeps _ (sub_of hm rfl) ?_
    exact h
  clear_value x9
  refine Keeps.upd_mtr ?_ (hm 34 rfl)
  exact h11

theorem sumElem_keeps {m : Nat} {r s : State} (c : Nat) (p : Nat) (hm : Sub 17183802402 m) (h : Keeps m r s) :
    Keeps m r (sumElem c s p) := by
  unfold sumElem
  extract_lets x7 x8 x9 x10 x11 x12 x13 x14
  have h15 : Keeps m r x12 := by
    refine putSum_keeps _ _ _ _ (sub_of hm rfl) ?_
    exact h
  clear_value x12
  have h16 : Keeps m r x13 := by
    refine putSum_keeps _ _ _ _ (sub_of hm rfl) ?_
    exact h15
  clear_value x13
  have h17 : Keeps m r x14 := by
    refine putSum_keeps _ _ _ _ (sub_of hm rfl) ?_
    exact h16
  clear_value x14
  refine putSum_keeps _ _ _ _ (sub_of hm rfl) ?_
  exact h17

theorem sumCircuit_keeps {m : Nat} {r s : State} (c : Nat) (hm : Sub 17183802402 m) (h : Keeps m r s) :
    Keeps m r (sumCircuit s c) := by
  unfold sumCircuit
  extract_lets x6 x7 x8
  have h9 : Keeps m r x7 := by
    subst x7
    refine Keeps.foldl _ _ (fun s8 a8 h8 => ?_) _ ?_
    · refine sumElem_keeps _ _ (sub_of hm rfl) ?_
      exact h8
    · exact h
  clear_value x7
  refine Keeps.ite ?_ ?_
  · refine putSum_keeps _ _ _ _ (sub_of hm rfl) ?_
    exact h9
  · exact h9

theorem histOne_keeps {m : Nat} {r s : State} (raws : List Word) (n : Nat) (hm : Sub 17183802402 m) (h : Keeps m r s) :
    Keeps m r (histOne raws s n) := by
  unfold histOne
  extract_lets x7 x8 x9
  have h10 : Keeps m r x8 := by
    refine fpFlags_keeps _ (sub_of hm rfl) ?_
    exact h
  clear_value x8
  refine Keeps.ite ?_ ?_
  · refine Keeps.upd_mtr ?_ (hm 34 rfl)
    exact h10
  · exact h

theorem startCapture_keeps {m : Nat} {r s : State} (w0 : Word) (hm : Sub 292061807722 m) (h : Keeps m r s) :
    Keeps m r (startCapture w0 s) := by
  unfold startCapture
  extract_lets x6 x7 x8 x9 x10
  have h11 : Keeps m r x9 := by
    refine qPushAll_keeps _ _ _ (sub_of hm rfl) ?_
    exact h
  clear_value x9
  refine publish_keeps _ (sub_of hm rfl) ?_
  refine Keeps.upd_mtr ?_ (hm 34 rfl)
  exact h11

theorem captureTake_keeps {m : Nat} {r s : State} (n : Nat) (w0 : Word) (raws : List Word) (hm : Sub 292061807722 m) (h : Keeps m r s) :
    Keeps m r (captureTake n w0 raws s) := by
  unfold captureTake
  extract_lets x8 x9
  have h10 : Keeps m r x8 := by
    refine Keeps.ite ?_ ?_
    · refine startCapture_keeps _ (sub_of hm rfl) ?_
      exact h
    · exact h
  clear_value x8
  split
  · refine Keeps.ite ?_ ?_
    · refine Keeps.upd_mtr ?_ (hm 34 rfl)
      exact h10
    · exact h10
  · exact h10

theorem startGap_keeps {m : Nat} {r s : State} (t : Nat) (hm : Sub 17179870218 m) (h : Keeps m r s) :
    Keeps m r (startGap s t) := by
  unfold startGap
  extract_lets x6 x7
  have h8 : Keeps m r x7 := by
    refine Keeps.upd_mtr ?_ (hm 34 rfl)
    exact h
  clear_value x7
  refine Keeps.ite ?_ ?_
  · exact h
  · split
    · refine Keeps.ite ?_ ?_
      · refine publish_keeps _ (sub_of hm rfl) ?_
        exact h8
      · exact h8
    · exact h8

theorem openInterval_keeps {m : Nat} {r s : State} (n : Nat) (t : Nat) (hm : Sub 17179870218 m) (h : Keeps m r s) :
    Keeps m r (openInterval s n t) := by
  unfold openInterval
  extract_lets x7 x8
  have h9 : Keeps m r x8 := by
    refine startGap_keeps _ (sub_of hm rfl) ?_
    refine Keeps.upd_mtr ?_ (hm 34 rfl)
    exact h
  clear_value x8
  split
  · exact h
  · refine Keeps.ite ?_ ?_
    · refine publish_keeps _ (sub_of hm rfl) ?_
      exact h9
    · exact h

theorem useSample_keeps {m : Nat} {r s : State} (n : Nat) (t : Nat) (w0 : Word) (raws : List Word) (ovr : Nat) (stuck : Nat) (hm : Sub 292061807722 m) (h : Keeps m r s) :
    Keeps m r (useSample n t w0 raws ovr stuck s) := by
  unfold useSample
  extract_lets x11 x12 x13 x14 x15
  have h16 : Keeps m r x11 := by
    refine openInterval_keeps _ _ (sub_of hm rfl) ?_
    refine Keeps.foldl _ _ (fun s16 a16 h16 => ?_) _ ?_
    · refine histOne_keeps _ _ (sub_of hm rfl) ?_
      exact h16
    · exact h
  clear_value x11
  have h17 : Keeps m r x12 := by
    subst x12
    refine Keeps.foldl _ _ (fun s16 a16 h16 => ?_) _ ?_
    · refine winSample_keeps _ _ _ (sub_of hm rfl) ?_
      exact h16
    · refine captureTake_keeps _ _ _ (sub_of hm rfl) ?_
      exact h16
  clear_value x12
  have h18 : Keeps m r x14 := by
    subst x14
    refine Keeps.foldl _ _ (fun s17 a17 h17 => ?_) _ ?_
    · refine sumCircuit_keeps _ (sub_of hm rfl) ?_
      exact h17
    · exact h17
  clear_value x14
  split
  · refine Keeps.upd_mtr ?_ (hm 34 rfl)
    exact h17
  · refine Keeps.upd_mtr ?_ (hm 34 rfl)
    exact h18

theorem ovrEvents_keeps {m : Nat} {r s : State} (f : List Word) (hm : Sub 3933218 m) (h : Keeps m r s) :
    Keeps m r (ovrEvents f s) := by
  unfold ovrEvents
  extract_lets x6 x7 x8
  have h9 : Keeps m r x8 := by
    refine orReg_keeps _ _ (sub_of hm rfl) ?_
    refine orReg_keeps _ _ (sub_of hm rfl) ?_
    exact h
  clear_value x8
  refine Keeps.ite ?_ ?_
  · exact h
  · refine Keeps.foldl _ _ (fun s10 a10 h10 => ?_) _ ?_
    · refine mtrRec_keeps _ _ _ _ (sub_of hm rfl) ?_
      exact h10
    · exact h9

theorem useMissing_keeps {m : Nat} {r s : State} (x0 : Nat) (hm : Sub 292061807722 m) (h : Keeps m r s) :
    Keeps m r (useMissing x0 s) := by
  induction x0 generalizing s with | zero => ?_ | succ k ih => ?_
  · simp -zeta only [useMissing]
    exact h
  · simp -zeta only [useMissing]
    extract_lets x7 x8 x9 x10
    have h11 : Keeps m r x9 := by
      refine useSample_keeps _ _ _ _ _ _ (sub_of hm rfl) ?_
      exact h
    clear_value x9
    refine ih ?_
    refine Keeps.upd_mtr ?_ (hm 34 rfl)
    exact h11

theorem useFrame_keeps {m : Nat} {r s : State} (f : List Word) (hm : Sub 292061807722 m) (h : Keeps m r s) :
    Keeps m r (useFrame f s) := by
  unfold useFrame
  extract_lets x6 x7 x8 x9 x10 x11 x12 x13
  have h14 : Keeps m r x9 := by
    refine countMissing_keeps _ _ (sub_of hm rfl) ?_
    refine useMissing_keeps _ (sub_of hm rfl) ?_
    exact h
  clear_value x9
  have h15 : Keeps m r x10 := by
    refine useSample_keeps _ _ _ _ _ _ (sub_of hm rfl) ?_
    exact h14
  clear_value x10
  have h16 : Keeps m r x11 := by
    refine ovrEvents_keeps _ (sub_of hm rfl) ?_
    refine stuckEvents_keeps _ (sub_of hm rfl) ?_
    exact h15
  clear_value x11
  have h17 : Keeps m r x12 := by
    refine setRb_keeps _ _ _ (sub_of hm rfl) ?_
    exact h16
  clear_value x12
  refine republish_keeps _ (sub_of hm rfl) ?_
  refine Keeps.upd_mtr ?_ (hm 34 rfl)
  exact h17

theorem popWords_keeps {m : Nat} {r s : State} (x0 : Nat) (x1 : Nat) (hm : Sub 274881946666 m) (h : Keeps m r s) :
    Keeps m r (popWords x0 x1 s).2 := by
  induction x1 generalizing s with | zero => ?_ | succ k ih => ?_
  · simp -zeta only [popWords]
    exact h
  · simp -zeta only [popWords]
    extract_lets x8 x9
    have h10 : Keeps m r x8.2 := by
      refine qPop_keeps _ _ (sub_of hm rfl) ?_
      exact h
    clear_value x8
    have h11 : Keeps m r x9.2 := by
      refine ih ?_
      exact h10
    clear_value x9
    refine Keeps.mk2 ?_
    exact h11

theorem takeFrame_keeps {m : Nat} {r s : State}  (hm : Sub 292061815850 m) (h : Keeps m r s) :
    Keeps m r (takeFrame s).2 := by
  unfold takeFrame
  extract_lets x5
  split
  · refine Keeps.mk2 ?_
    refine Keeps.upd_mtr ?_ (hm 34 rfl)
    exact h
  · split
    · extract_lets x11
      have h12 : Keeps m r x11.2 := by
        refine popWords_keeps _ _ (sub_of hm rfl) ?_
        exact h
      clear_value x11
      refine Keeps.ite2 ?_ ?_
      · refine Keeps.mk2 ?_
        exact h12
      · refine Keeps.mk2 ?_
        exact h
    · refine Keeps.mk2 ?_
      exact h

theorem consume_keeps {m : Nat} {r s : State} (noPf : Bool) (x1 : Nat) (hm : Sub 292061815914 m) (h : Keeps m r s) :
    Keeps m r (consume noPf x1 s) := by
  induction x1 generalizing s with | zero => ?_ | succ k ih => ?_
  · simp -zeta only [consume]
    exact h
  · simp -zeta only [consume]
    split
    · rename_i y11 y12 y13
      have k11 : Keeps m r y12 := by
        refine Keeps.of_pair y13 ?_
        refine takeFrame_keeps (sub_of hm rfl) ?_
        exact h
      exact k11
    · rename_i y12 y13 y14 y15
      have k12 : Keeps m r y14 := by
        refine Keeps.of_pair y15 ?_
        refine takeFrame_keeps (sub_of hm rfl) ?_
        exact h
      extract_lets x13
      refine Keeps.ite ?_ ?_
      · refine Keeps.upd_mtr ?_ (hm 34 rfl)
        exact k12
      · refine ih ?_
        refine useFrame_keeps _ (sub_of hm rfl) ?_
        exact k12

theorem meterRun_keeps {m : Nat} {r s : State}  (hm : Sub 292061815914 m) (h : Keeps m r s) :
    Keeps m r (meterRun s) := by
  unfold meterRun
  refine Keeps.ite ?_ ?_
  · exact h
  · refine Keeps.foldl _ _ (fun s5 a5 h5 => ?_) _ ?_
    · refine s0Pulse_keeps _ (sub_of hm rfl) ?_
      exact h5
    · refine sendEdges_keeps (sub_of hm rfl) ?_
      refine consume_keeps _ _ (sub_of hm rfl) ?_
      refine mtrFirst_keeps (sub_of hm rfl) ?_
      exact h

theorem calholdWrite_keeps {m : Nat} {r s : State} (m0 : Master) (w : Word) (hm : Sub 3933218 m) (h : Keeps m r s) :
    Keeps m r (calholdWrite m0 w s) := by
  unfold calholdWrite
  extract_lets x7 x8
  have h9 : Keeps m r x8 := by
    refine setReg_keeps _ _ (sub_of hm rfl) ?_
    exact h
  clear_value x8
  refine Keeps.ite ?_ ?_
  · exact h9
  · refine mtrRec_keeps _ _ _ _ (sub_of hm rfl) ?_
    refine orReg_keeps _ _ (sub_of hm rfl) ?_
    exact h9

theorem endCapture_keeps {m : Nat} {r s : State} (trunc : Bool) (pushed : Nat) (hm : Sub 17183802410 m) (h : Keeps m r s) :
    Keeps m r (endCapture trunc pushed s) := by
  unfold endCapture
  extract_lets x7 x8
  have h9 : Keeps m r x8 := by
    refine publish_keeps _ (sub_of hm rfl) ?_
    refine Keeps.upd_mtr ?_ (hm 34 rfl)
    exact h
  clear_value x8
  refine Keeps.ite ?_ ?_
  · refine republish_keeps _ (sub_of hm rfl) ?_
    refine mtrRec_keeps _ _ _ _ (sub_of hm rfl) ?_
    refine orReg_keeps _ _ (sub_of hm rfl) ?_
    exact h9
  · exact h9

theorem wcArm_keeps {m : Nat} {r s : State} (w : Word) (hm : Sub 17183802410 m) (h : Keeps m r s) :
    Keeps m r (wcArm w s) := by
  unfold wcArm
  extract_lets x6 x7 x8 x9
  have h10 : Keeps m r x8 := by
    refine setReg_keeps _ _ (sub_of hm rfl) ?_
    exact h
  clear_value x8
  refine Keeps.ite ?_ ?_
  · exact h10
  · refine Keeps.ite ?_ ?_
    · exact h10
    · refine endCapture_keeps _ _ (sub_of hm rfl) ?_
      exact h10

theorem captureSample_keeps {m : Nat} {r s : State}  (hm : Sub 292061807722 m) (h : Keeps m r s) :
    Keeps m r (captureSample s) := by
  unfold captureSample
  extract_lets x5
  split
  · exact h
  · extract_lets x9
    refine Keeps.ite ?_ ?_
    · refine endCapture_keeps _ _ (sub_of hm rfl) ?_
      exact h
    · split
      · exact h
      · extract_lets x14 x15
        have h16 : Keeps m r x14 := by
          refine qPushAll_keeps _ _ _ (sub_of hm rfl) ?_
          exact h
        clear_value x14
        refine Keeps.ite ?_ ?_
        · refine endCapture_keeps _ _ (sub_of hm rfl) ?_
          exact h
        · refine Keeps.ite ?_ ?_
          · refine endCapture_keeps _ _ (sub_of hm rfl) ?_
            exact h16
          · refine publish_keeps _ (sub_of hm rfl) ?_
            refine Keeps.upd_mtr ?_ (hm 34 rfl)
            exact h16

theorem closeCircuit_keeps {m : Nat} {r s : State} (m0 : Nat) (c : Nat) (hm : Sub 2199027188778 m) (h : Keeps m r s) :
    Keeps m r (closeCircuit m0 s c) := by
  unfold closeCircuit
  extract_lets x7 x8 x9 x10 x11 x12 x13 x14 x15 x16 x17 x18 x19 x20 x21 x22 x23 x24
  have h25 : Keeps m r x16 := by
    refine fpFlags_keeps _ (sub_of hm rfl) ?_
    exact h
  clear_value x16
  have h26 : Keeps m r x23 := by
    refine publish_keeps _ (sub_of hm rfl) ?_
    exact h25
  clear_value x23
  have h27 : Keeps m r x24 := by
    refine publish_keeps _ (sub_of hm rfl) ?_
    exact h26
  clear_value x24
  refine Keeps.ite ?_ ?_
  · exact h27
  · refine Keeps.foldl _ _ (fun s28 a28 h28 => ?_) _ ?_
    · refine accumulate_keeps _ _ _ _ (sub_of hm rfl) ?_
      exact h28
    · exact h27

theorem s0Close_keeps {m : Nat} {r s : State}  (hm : Sub 17183802410 m) (h : Keeps m r s) :
    Keeps m r (s0Close s) := by
  unfold s0Close
  extract_lets x5 x6
  have h7 : Keeps m r x5 := by
    subst x5
    refine Keeps.foldl _ _ (fun s6 a6 h6 => ?_) _ ?_
    · refine publish_keeps _ (sub_of hm rfl) ?_
      exact h6
    · exact h
  clear_value x5
  refine Keeps.foldl _ _ (fun s8 a8 h8 => ?_) _ ?_
  · refine s0Lag_keeps _ (sub_of hm rfl) ?_
    exact h8
  · refine Keeps.upd_mtr ?_ (hm 34 rfl)
    exact h7

theorem closeNow_keeps {m : Nat} {r s : State}  (hm : Sub 2216207057962 m) (h : Keeps m r s) :
    Keeps m r (closeNow s) := by
  unfold closeNow
  extract_lets x5 x6 x7 x8
  have h9 : Keeps m r x6 := by
    refine Keeps.ite ?_ ?_
    · exact h
    · refine Keeps.foldl _ _ (fun s9 a9 h9 => ?_) _ ?_
      · refine closeCircuit_keeps _ _ (sub_of hm rfl) ?_
        exact h9
      · exact h
  clear_value x6
  refine s0Close_keeps (sub_of hm rfl) ?_
  refine Keeps.upd_mtr ?_ (hm 34 rfl)
  exact h9

theorem closeWhole_keeps {m : Nat} {r s : State}  (hm : Sub 2491085063274 m) (h : Keeps m r s) :
    Keeps m r (closeWhole s) := by
  unfold closeWhole
  extract_lets x5 x6
  refine closeNow_keeps (sub_of hm rfl) ?_
  refine countMissing_keeps _ _ (sub_of hm rfl) ?_
  refine useMissing_keeps _ (sub_of hm rfl) ?_
  exact h

theorem startCommit_keeps {m : Nat} {r s : State} (ws : List Word) (hm : Sub 17179869184 m) (h : Keeps m r s) :
    Keeps m r (startCommit ws s) := by
  unfold startCommit
  extract_lets x6
  refine Keeps.upd_mtr ?_ (hm 34 rfl)
  exact h

theorem commitNext_keeps {m : Nat} {r s : State}  (hm : Sub 17179869184 m) (h : Keeps m r s) :
    Keeps m r (commitNext s) := by
  unfold commitNext
  extract_lets x5
  split
  · exact h
  · refine startCommit_keeps _ (sub_of hm rfl) ?_
    refine Keeps.upd_mtr ?_ (hm 34 rfl)
    exact h

theorem commitDone_keeps {m : Nat} {r s : State}  (hm : Sub 2216207156522 m) (h : Keeps m r s) :
    Keeps m r (commitDone s) := by
  unfold commitDone
  extract_lets x5
  split
  · exact h
  · extract_lets x10 x11
    have h12 : Keeps m r x10 := by
      refine Keeps.upd_feram_mtr ?_ (hm 8 rfl) (hm 34 rfl) (fun w0 w => (memWf_memPut _ _ _ w.2.2.2.2.1))
      exact h
    clear_value x10
    have h13 : Keeps m r x11.2 := by
      refine free_keeps (sub_of hm rfl) ?_
      exact h12
    clear_value x11
    refine commitNext_keeps (sub_of hm rfl) ?_
    refine publish_keeps _ (sub_of hm rfl) ?_
    refine sendPort_keeps _ _ (sub_of hm rfl) ?_
    exact h13

theorem commitFail_keeps {m : Nat} {r s : State}  (hm : Sub 2216207058218 m) (h : Keeps m r s) :
    Keeps m r (commitFail s) := by
  unfold commitFail
  extract_lets x5 x6 x7
  have h8 : Keeps m r x5.2 := by
    refine freeWords_keeps _ (sub_of hm rfl) ?_
    exact h
  clear_value x5
  have h9 : Keeps m r x6 := by
    subst x6
    exact h8
  clear_value x6
  split
  · exact h
  · extract_lets x14 x15
    have h16 : Keeps m r x14 := by
      refine Keeps.upd_feram_mtr ?_ (hm 8 rfl) (hm 34 rfl) (fun w0 w => (memWf_memPut _ _ _ (h8.memOk w0).2.2.2.2.1))
      exact h9
    clear_value x14
    have h17 : Keeps m r x15 := by
      refine orReg_keeps _ _ (sub_of hm rfl) ?_
      refine satRf_keeps _ _ _ _ (sub_of hm rfl) ?_
      exact h16
    clear_value x15
    refine commitNext_keeps (sub_of hm rfl) ?_
    refine republish_keeps _ (sub_of hm rfl) ?_
    refine mtrRec_keeps _ _ _ _ (sub_of hm rfl) ?_
    exact h17

theorem consumeAll_keeps {m : Nat} {r s : State} (x0 : Nat) (hm : Sub 2491085071466 m) (h : Keeps m r s) :
    Keeps m r (consumeAll x0 s) := by
  induction x0 generalizing s with | zero => ?_ | succ k ih => ?_
  · simp -zeta only [consumeAll]
    exact h
  · simp -zeta only [consumeAll]
    extract_lets x7
    have h8 : Keeps m r x7 := by
      refine consume_keeps _ _ (sub_of hm rfl) ?_
      exact h
    clear_value x7
    refine Keeps.ite ?_ ?_
    · refine ih ?_
      refine closeWhole_keeps (sub_of hm rfl) ?_
      exact h8
    · exact h8

theorem freqNom_keeps {m : Nat} {r s : State} (setB : Bool) (v : Bool) (hm : Sub 1034 m) (h : Keeps m r s) :
    Keeps m r (freqNom setB v s) := by
  unfold freqNom
  refine Keeps.foldl _ _ (fun s7 a7 h7 => ?_) _ ?_
  · refine publish_keeps _ (sub_of hm rfl) ?_
    exact h7
  · exact h

theorem haRecord_keeps {m : Nat} {r s : State} (m0 : Nat) (l : Nat) (w0 : Word) (fw : Word) (ws : List MtrSmp) (n : Nat) (hm : Sub 2473905194090 m) (h : Keeps m r s) :
    Keeps m r (haRecord m0 l w0 fw ws s n) := by
  unfold haRecord
  extract_lets x11 x12 x13
  have h14 : Keeps m r x12.2 := by
    refine freeWords_keeps _ (sub_of hm rfl) ?_
    exact h
  clear_value x12
  have h15 : Keeps m r x13.2 := by
    subst x13
    refine Keeps.mk2 ?_
    exact h14
  clear_value x13
  refine Keeps.ite ?_ ?_
  · refine qPushAll_keeps _ _ _ (sub_of hm rfl) ?_
    exact h15
  · refine republish_keeps _ (sub_of hm rfl) ?_
    refine mtrRec_keeps _ _ _ _ (sub_of hm rfl) ?_
    refine orReg_keeps _ _ (sub_of hm rfl) ?_
    refine satRf_keeps _ _ _ _ (sub_of hm rfl) ?_
    exact h

theorem harmonicWindow_keeps {m : Nat} {r s : State} (setB : Bool) (hm : Sub 2491085063274 m) (h : Keeps m r s) :
    Keeps m r (harmonicWindow setB s) := by
  unfold harmonicWindow
  extract_lets x6 x7 x8 x9 x10 x11 x12 x13 x14 x15 x16 x17 x18
  have h19 : Keeps m r x15 := by
    refine Keeps.upd_mtr ?_ (hm 34 rfl)
    exact h
  clear_value x15
  have h20 : Keeps m r x16 := by
    refine publish_keeps _ (sub_of hm rfl) ?_
    exact h19
  clear_value x16
  have h21 : Keeps m r x17 := by
    subst x17
    refine Keeps.ite ?_ ?_
    · refine republish_keeps _ (sub_of hm rfl) ?_
      refine freqNom_keeps _ _ (sub_of hm rfl) ?_
      refine mtrRec_keeps _ _ _ _ (sub_of hm rfl) ?_
      refine orReg_keeps _ _ (sub_of hm rfl) ?_
      exact h20
    · refine freqNom_keeps _ _ (sub_of hm rfl) ?_
      exact h20
  clear_value x17
  refine Keeps.ite ?_ ?_
  · exact h
  · refine Keeps.ite ?_ ?_
    · refine Keeps.foldl _ _ (fun s22 a22 h22 => ?_) _ ?_
      · refine haRecord_keeps _ _ _ _ _ _ (sub_of hm rfl) ?_
        exact h22
      · exact h21
    · exact h21

theorem sendCommit_keeps {m : Nat} {r s : State} (last : Bool) (m0 : Nat) (hm : Sub 2216207058218 m) (h : Keeps m r s) :
    Keeps m r (sendCommit last m0 s) := by
  unfold sendCommit
  extract_lets x7 x8 x9 x10 x11
  have h12 : Keeps m r x7 := by
    refine Keeps.ite ?_ ?_
    · refine commitFail_keeps (sub_of hm rfl) ?_
      exact h
    · exact h
  clear_value x7
  have h13 : Keeps m r x9 := by
    refine Keeps.upd_mtr ?_ (hm 34 rfl)
    exact h12
  clear_value x9
  refine Keeps.ite ?_ ?_
  · refine Keeps.upd_mtr ?_ (hm 34 rfl)
    exact h13
  · refine startCommit_keeps _ (sub_of hm rfl) ?_
    exact h13

theorem intervalClose_keeps {m : Nat} {r s : State}  (hm : Sub 2491085071722 m) (h : Keeps m r s) :
    Keeps m r (intervalClose s) := by
  unfold intervalClose
  extract_lets x5
  have h6 : Keeps m r x5 := by
    refine consume_keeps _ _ (sub_of hm rfl) ?_
    refine mtrFirst_keeps (sub_of hm rfl) ?_
    exact h
  clear_value x5
  split
  · exact h6
  · refine sendCommit_keeps _ _ (sub_of hm rfl) ?_
    refine closeWhole_keeps (sub_of hm rfl) ?_
    exact h6

theorem partialClose_keeps {m : Nat} {r s : State}  (hm : Sub 2491085071722 m) (h : Keeps m r s) :
    Keeps m r (partialClose s) := by
  unfold partialClose
  extract_lets x5
  have h6 : Keeps m r x5 := by
    refine consumeAll_keeps _ (sub_of hm rfl) ?_
    refine mtrFirst_keeps (sub_of hm rfl) ?_
    exact h
  clear_value x5
  refine sendCommit_keeps _ _ (sub_of hm rfl) ?_
  refine closeNow_keeps (sub_of hm rfl) ?_
  exact h6

theorem execCaptureSample_keeps {m : Nat} {r s : State}  (hm : Sub 292061807722 m) (h : Keeps m r s) :
    KeepsO m r (execCaptureSample s) := by
  unfold execCaptureSample
  refine KeepsO.next ?_
  refine captureSample_keeps (sub_of hm rfl) ?_
  exact h

theorem execHarmonicWindow_keeps {m : Nat} {r s : State} (setB : Bool) (hm : Sub 2491085063274 m) (h : Keeps m r s) :
    KeepsO m r (execHarmonicWindow setB s) := by
  unfold execHarmonicWindow
  refine KeepsO.next ?_
  refine harmonicWindow_keeps _ (sub_of hm rfl) ?_
  exact h

theorem execIntervalClose_keeps {m : Nat} {r s : State}  (hm : Sub 2491085071722 m) (h : Keeps m r s) :
    KeepsO m r (execIntervalClose s) := by
  unfold execIntervalClose
  refine KeepsO.next ?_
  refine intervalClose_keeps (sub_of hm rfl) ?_
  exact h

theorem execMeteringCommitDone_keeps {m : Nat} {r s : State} (ok : Bool) (hm : Sub 2216207156522 m) (h : Keeps m r s) :
    KeepsO m r (execMeteringCommitDone ok s) := by
  unfold execMeteringCommitDone
  refine KeepsO.next ?_
  refine Keeps.ite ?_ ?_
  · refine commitDone_keeps (sub_of hm rfl) ?_
    exact h
  · refine commitFail_keeps (sub_of hm rfl) ?_
    exact h

theorem execMtrCalholdWrite_keeps {m : Nat} {r s : State} (m0 : Master) (w : Word) (hm : Sub 3933218 m) (h : Keeps m r s) :
    KeepsO m r (execMtrCalholdWrite m0 w s) := by
  unfold execMtrCalholdWrite
  refine KeepsO.next ?_
  refine Keeps.ite ?_ ?_
  · exact h
  · refine calholdWrite_keeps _ _ (sub_of hm rfl) ?_
    exact h

theorem execPartialIntervalClose_keeps {m : Nat} {r s : State}  (hm : Sub 2491085071722 m) (h : Keeps m r s) :
    KeepsO m r (execPartialIntervalClose s) := by
  unfold execPartialIntervalClose
  refine KeepsO.next ?_
  refine partialClose_keeps (sub_of hm rfl) ?_
  exact h

theorem execWcArm_keeps {m : Nat} {r s : State} (w : Word) (hm : Sub 17183802410 m) (h : Keeps m r s) :
    KeepsO m r (execWcArm w s) := by
  unfold execWcArm
  refine KeepsO.next ?_
  refine Keeps.ite ?_ ?_
  · exact h
  · refine wcArm_keeps _ (sub_of hm rfl) ?_
    exact h

end Sys2Proof.Machine
end

