-- ==== Sys2Proof/Laws/Path.lean ====
section
/-! SUPPORT. What each function of Machine/Path.lean keeps of the state (Laws/Keeps.lean). -/

namespace Sys2Proof.Machine

theorem commitMissed_keeps {m : Nat} {r s : State} (path : Nat) (mask : Nat) (hm : Sub 3933218 m) (h : Keeps m r s) :
    Keeps m r (State.commitMissed s path mask) := by
  unfold State.commitMissed
  extract_lets x7 x8
  have h9 : Keeps m r x8 := by
    refine append_keeps _ _ _ _ (sub_of hm rfl) ?_
    exact h
  clear_value x8
  refine Keeps.ite ?_ ?_
  · exact h
  · refine Keeps.upd_logged ?_ (hm 21 rfl)
    exact h9

theorem faultMissed_keeps {m : Nat} {r s : State}  (hm : Sub 3933218 m) (h : Keeps m r s) :
    Keeps m r (State.faultMissed s) := by
  unfold State.faultMissed
  split
  · refine commitMissed_keeps _ _ (sub_of hm rfl) ?_
    exact h
  · exact h

theorem fetchSec_keeps {m : Nat} {r s : State} (n : Nat) (hm : Sub 2 m) (h : Keeps m r s) :
    Keeps m r (State.fetchSec s n) := by
  unfold State.fetchSec
  refine Keeps.ite ?_ ?_
  · exact h
  · refine orReg_keeps _ _ (sub_of hm rfl) ?_
    refine satRf_keeps _ _ _ _ (sub_of hm rfl) ?_
    exact h

theorem beginRun_keeps {m : Nat} {r s : State} (p : Nat) (start : Nat) (e : PEntry) (hm : Sub 3935266 m) (h : Keeps m r s) :
    Keeps m r (State.beginRun s p start e) := by
  unfold State.beginRun
  extract_lets x8 x9 x10 x11 x12 x13
  have h14 : Keeps m r x10 := by
    refine fetchSec_keeps _ (sub_of hm rfl) ?_
    refine landEnd_keeps (sub_of hm rfl) ?_
    exact h
  clear_value x10
  have h15 : Keeps m r x13 := by
    refine Keeps.upd_eng ?_ (hm 11 rfl)
    exact h14
  clear_value x13
  clear_value x9
  split
  · rename_i y16
    exact h15
  · rename_i y17 y18
    extract_lets x17 x18
    have h19 : Keeps m r x17 := by
      refine faultMissed_keeps (sub_of hm rfl) ?_
      refine logOnce_keeps _ _ _ _ _ (sub_of hm rfl) ?_
      refine pathFault_keeps _ _ (sub_of hm rfl) ?_
      refine dedEvent_keeps _ _ (sub_of hm rfl) ?_
      exact h15
    clear_value x17
    refine Keeps.ite ?_ ?_
    · refine Keeps.upd_eng ?_ (hm 11 rfl)
      exact h19
    · exact h19

theorem ptabDed_keeps {m : Nat} {r s : State} (a : Nat) (hm : Sub 2 m) (h : Keeps m r s) :
    Keeps m r (State.ptabDed s a) := by
  unfold State.ptabDed
  extract_lets x6 x7 x8 x9
  refine setReg_keeps _ _ (sub_of hm rfl) ?_
  refine orReg_keeps _ _ (sub_of hm rfl) ?_
  refine satRf_keeps _ _ _ _ (sub_of hm rfl) ?_
  exact h

theorem runPath_keeps {m : Nat} {r s : State} (p : Nat) (e : PEntry) (hm : Sub 3935266 m) (h : Keeps m r s) :
    Keeps m r (State.runPath s p e) := by
  unfold State.runPath
  extract_lets x7 x8 x9 x10 x11 x12 x13
  have h14 : Keeps m r x10 := by
    refine Keeps.upd_eng ?_ (hm 11 rfl)
    exact h
  clear_value x10
  have h15 : Keeps m r x11 := by
    refine beginRun_keeps _ _ _ (sub_of hm rfl) ?_
    exact h14
  clear_value x11
  refine Keeps.upd_eng ?_ (hm 11 rfl)
  exact h15

theorem setArm_keeps {m : Nat} {r s : State} (f : Nat) (b : Bool) (hm : Sub 2 m) (h : Keeps m r s) :
    Keeps m r (State.setArm s f b) := by
  unfold State.setArm
  refine setRb_keeps _ _ _ (sub_of hm rfl) ?_
  exact h

theorem skipPath_keeps {m : Nat} {r s : State} (p : Nat) (length : Nat) (hm : Sub 3935266 m) (h : Keeps m r s) :
    Keeps m r (State.skipPath s p length) := by
  unfold State.skipPath
  extract_lets x7
  refine commitMissed_keeps _ _ (sub_of hm rfl) ?_
  refine Keeps.upd_eng ?_ (hm 11 rfl)
  exact h

theorem readPath_keeps {m : Nat} {r s : State} (p : Nat) (hm : Sub 3935266 m) (h : Keeps m r s) :
    Keeps m r (readPath s p).2 := by
  unfold readPath
  extract_lets x6 x7
  have h8 : Keeps m r x6 := by
    refine orReg_keeps _ _ (sub_of hm rfl) ?_
    refine satRf_keeps _ _ _ _ (sub_of hm rfl) ?_
    exact h
  clear_value x6
  have h9 : Keeps m r x7 := by
    refine setReg_keeps _ _ (sub_of hm rfl) ?_
    exact h8
  clear_value x7
  split
  · refine Keeps.mk2 ?_
    exact h
  · refine Keeps.mk2 ?_
    refine secEvent_keeps _ (sub_of hm rfl) ?_
    exact h
  · split
    · refine Keeps.mk2 ?_
      refine logOnce_keeps _ _ _ _ _ (sub_of hm rfl) ?_
      refine pathFault_keeps _ _ (sub_of hm rfl) ?_
      exact h9
    · refine Keeps.mk2 ?_
      refine logOnce_keeps _ _ _ _ _ (sub_of hm rfl) ?_
      refine secEvent_keeps _ (sub_of hm rfl) ?_
      refine dedEvent_keeps _ _ (sub_of hm rfl) ?_
      exact h
    · refine Keeps.mk2 ?_
      refine logOnce_keeps _ _ _ _ _ (sub_of hm rfl) ?_
      refine dedEvent_keeps _ _ (sub_of hm rfl) ?_
      exact h

theorem pathStart_keeps {m : Nat} {r s : State} (p : Nat) (hm : Sub 3935266 m) (h : Keeps m r s) :
    Keeps m r (pathStart p s) := by
  unfold pathStart
  refine Keeps.ite ?_ ?_
  · exact h
  · split
    · rename_i y9 y10 y11
      have k9 : Keeps m r y10 := by
        refine Keeps.of_pair y11 ?_
        refine readPath_keeps _ (sub_of hm rfl) ?_
        exact h
      refine commitMissed_keeps _ _ (sub_of hm rfl) ?_
      exact k9
    · rename_i y10 y11 y12 y13
      have k10 : Keeps m r y12 := by
        refine Keeps.of_pair y13 ?_
        refine readPath_keeps _ (sub_of hm rfl) ?_
        exact h
      refine Keeps.ite ?_ ?_
      · exact h
      · refine Keeps.ite ?_ ?_
        · refine skipPath_keeps _ _ (sub_of hm rfl) ?_
          exact k10
        · refine Keeps.ite ?_ ?_
          · refine skipPath_keeps _ _ (sub_of hm rfl) ?_
            exact k10
          · refine runPath_keeps _ _ (sub_of hm rfl) ?_
            exact k10

theorem execPathStart_keeps {m : Nat} {r s : State} (path : Fin 4096) (hm : Sub 3935266 m) (h : Keeps m r s) :
    KeepsO m r (execPathStart path s) := by
  unfold execPathStart
  refine KeepsO.next ?_
  refine pathStart_keeps _ (sub_of hm rfl) ?_
  exact h

end Sys2Proof.Machine
end

