-- ==== Sys2Proof/Laws/Points.lean ====
section
/-! SUPPORT. What each function of Machine/Points.lean keeps of the state (Laws/Keeps.lean). -/

namespace Sys2Proof.Machine

theorem setSta_keeps {m : Nat} {r s : State} (n : Nat) (x : Station) (hm : Sub 34359738368 m) (h : Keeps m r s) :
    Keeps m r (State.setSta s n x) := by
  unfold State.setSta
  extract_lets x7
  refine Keeps.upd_ctl ?_ (hm 35 rfl)
  exact h

theorem forceShow_keeps {m : Nat} {r s : State}  (hm : Sub 34359739402 m) (h : Keeps m r s) :
    Keeps m r (forceShow s) := by
  unfold forceShow
  extract_lets x5 x6 x7
  have h8 : Keeps m r x6 := by
    refine setRb_keeps _ _ _ (sub_of hm rfl) ?_
    refine setReg_keeps _ _ (sub_of hm rfl) ?_
    exact h
  clear_value x6
  refine republish_keeps _ (sub_of hm rfl) ?_
  refine Keeps.upd_ctl ?_ (hm 35 rfl)
  exact h8

theorem ctlRec_keeps {m : Nat} {r s : State} (code : Nat) (sev : Nat) (subject : Nat) (d : List Word) (hm : Sub 3933218 m) (h : Keeps m r s) :
    Keeps m r (ctlRec s code sev subject d) := by
  unfold ctlRec
  refine logOnce_keeps _ _ _ _ _ (sub_of hm rfl) ?_
  exact h

theorem forceChange_keeps {m : Nat} {r s : State} (before : State) (f : Nat) (hm : Sub 1836066 m) (h : Keeps m r s) :
    Keeps m r (forceChange before s f) := by
  unfold forceChange
  extract_lets x7 x8
  refine Keeps.ite ?_ ?_
  · exact h
  · refine Keeps.ite ?_ ?_
    · refine append_keeps _ _ _ _ (sub_of hm rfl) ?_
      refine orReg_keeps _ _ (sub_of hm rfl) ?_
      exact h
    · refine append_keeps _ _ _ _ (sub_of hm rfl) ?_
      refine orReg_keeps _ _ (sub_of hm rfl) ?_
      exact h

theorem memWf_cellsOf (l : List Byte) (a : Nat) :
    memWf (cellsOf a l) = true ∧ ∀ e ∈ cellsOf a l, a ≤ e.1 ∧ e.1 < a + l.length := by
  induction l generalizing a with
  | nil => exact ⟨memWf_nil, fun e he => by simp [cellsOf] at he⟩
  | cons b l ih =>
    simp only [cellsOf, List.length_cons]
    split
    · exact ⟨(ih _).1, fun e he => by have := (ih _).2 e he; omega⟩
    · rename_i hb
      refine ⟨swf_append _ [(a, b)] _ (a + 1) ?_ (ih _).1 ?_ (fun e he => ((ih _).2 e he).1), fun e he => ?_⟩
      · simp [swf_iff, hb]
      · simp
      · rcases List.mem_cons.1 he with rfl | he
        · simp
        · have := (ih _).2 e he; omega

theorem memWf_pointCells (s : State) (n : Nat) :
    memWf ((List.range n).flatMap (fun p => cellsOf (ptAddr p 0) (startRecord s p))) = true ∧
    ∀ e ∈ (List.range n).flatMap (fun p => cellsOf (ptAddr p 0) (startRecord s p)), 0x1E0000 ≤ e.1 ∧ e.1 < 0x1E0000 + 32 * n := by
  induction n with
  | zero => exact ⟨memWf_nil, fun e he => by simp at he⟩
  | succ n ih =>
    have hl : (startRecord s n).length = 32 := by simp [startRecord, wordBytes, leBytes]
    have hc := memWf_cellsOf (startRecord s n) (ptAddr n 0)
    rw [hl] at hc
    simp only [ptAddr] at hc ⊢
    simp only [List.range_succ, List.flatMap_append, List.flatMap_cons, List.flatMap_nil, List.append_nil]
    refine ⟨swf_append _ _ _ (0x1E0000 + 32 * n) ih.1 hc.1 (fun e he => (ih.2 e he).2) (fun e he => by have := hc.2 e he; omega), fun e he => ?_⟩
    rcases List.mem_append.1 he with he | he
    · have := ih.2 e he; omega
    · have := hc.2 e he; omega

theorem startPoints_keeps {m : Nat} {r s : State}  (hm : Sub 1040 m) (h : Keeps m r s) : Keeps m r (startPoints s) := by
  have hp := memWf_pointCells s 4096
  refine Keeps.upd_data_ecc h (hm 4 rfl) (hm 10 rfl) (fun _ w => ?_)
  refine swf_append _ _ _ 0x200000 (swf_append _ _ _ 0x1E0000 (memWf_filter _ _ w.1) hp.1 ?_ (fun e he => (hp.2 e he).1)) (memWf_filter _ _ w.1) ?_ ?_
  · intro e he; simpa using (List.mem_filter.1 he).2
  · intro e he
    rcases List.mem_append.1 he with he | he
    · have : e.1 < 0x1E0000 := by simpa using (List.mem_filter.1 he).2
      omega
    · exact (hp.2 e he).2
  · intro e he; simpa using (List.mem_filter.1 he).2

theorem armStation_keeps {m : Nat} {r s : State} (n : Nat) (b : Bool) (hm : Sub 2 m) (h : Keeps m r s) :
    Keeps m r (armStation s n b) := by
  unfold armStation
  split
  · refine setArm_keeps _ _ (sub_of hm rfl) ?_
    exact h
  · exact h

theorem stationRefresh_keeps {m : Nat} {r s : State} (iface : Nat) (unit : Nat) (id : Word) (hm : Sub 34359738368 m) (h : Keeps m r s) :
    Keeps m r (stationRefresh iface unit id s) := by
  unfold stationRefresh
  extract_lets x8
  refine Keeps.foldl _ _ (fun s9 a9 h9 => ?_) _ ?_
  · extract_lets x12 x13
    refine setSta_keeps _ _ (sub_of hm rfl) ?_
    exact h9
  · exact h

theorem ctlWindow_keeps {m : Nat} {r s : State}  (hm : Sub 1034 m) (h : Keeps m r s) :
    Keeps m r (ctlWindow s) := by
  unfold ctlWindow
  extract_lets x5 x6
  refine publish_keeps _ (sub_of hm rfl) ?_
  exact h

theorem setPt_keeps {m : Nat} {r s : State} (p : Nat) (w : Nat) (v : Word) (hm : Sub 1040 m) (h : Keeps m r s) :
    Keeps m r (setPt s p w v) := by
  unfold setPt
  refine setEcc_keeps _ _ _ (sub_of hm rfl) ?_
  refine Keeps.upd_data ?_ (hm 4 rfl) (fun w0 w => (memWf_memPutW _ _ _ w.1))
  exact h

theorem forceOne_keeps {m : Nat} {r s : State} (f : Nat) (hm : Sub 1040 m) (h : Keeps m r s) :
    Keeps m r (forceOne s f) := by
  unfold forceOne
  extract_lets x6 x7
  refine Keeps.ite ?_ ?_
  · refine setPt_keeps _ _ _ (sub_of hm rfl) ?_
    refine setPt_keeps _ _ _ (sub_of hm rfl) ?_
    refine setPt_keeps _ _ _ (sub_of hm rfl) ?_
    exact h
  · exact h

theorem refreshPoint_keeps {m : Nat} {r s : State} (p : Nat) (v : Word) (ts : Nat) (q : Nat) (hm : Sub 1040 m) (h : Keeps m r s) :
    Keeps m r (refreshPoint p v ts q s) := by
  unfold refreshPoint
  extract_lets x9 x10 x11 x12
  have h13 : Keeps m r x12 := by
    refine setPt_keeps _ _ _ (sub_of hm rfl) ?_
    refine setPt_keeps _ _ _ (sub_of hm rfl) ?_
    refine setPt_keeps _ _ _ (sub_of hm rfl) ?_
    refine setPt_keeps _ _ _ (sub_of hm rfl) ?_
    refine setPt_keeps _ _ _ (sub_of hm rfl) ?_
    exact h
  clear_value x12
  refine Keeps.ite ?_ ?_
  · exact h13
  · refine setPt_keeps _ _ _ (sub_of hm rfl) ?_
    exact h13

theorem pointRefresh_keeps {m : Nat} {r s : State} (p : Nat) (valid : Bool) (v : Word) (ts : Nat) (q : Nat) (chan : Option (BitVec 8)) (hm : Sub 3933242 m) (h : Keeps m r s) :
    Keeps m r (pointRefresh p valid v ts q chan s) := by
  unfold pointRefresh
  refine Keeps.ite ?_ ?_
  · exact h
  · split
    · refine refreshPoint_keeps _ _ _ _ (sub_of hm rfl) ?_
      exact h
    · refine Keeps.ite ?_ ?_
      · refine refreshPoint_keeps _ _ _ _ (sub_of hm rfl) ?_
        exact h
      · refine republish_keeps _ (sub_of hm rfl) ?_
        refine ctlRec_keeps _ _ _ _ (sub_of hm rfl) ?_
        refine orReg_keeps _ _ (sub_of hm rfl) ?_
        exact h

theorem stationOne_keeps {m : Nat} {r s : State} (n : Nat) (hm : Sub 34363671586 m) (h : Keeps m r s) :
    Keeps m r (stationOne s n) := by
  unfold stationOne
  extract_lets x6 x7 x8 x9 x10 x11 x12
  have h13 : Keeps m r x8 := by
    refine orReg_keeps _ _ (sub_of hm rfl) ?_
    refine satRf_keeps _ _ _ _ (sub_of hm rfl) ?_
    refine setSta_keeps _ _ (sub_of hm rfl) ?_
    exact h
  clear_value x8
  have h14 : Keeps m r x9 := by
    refine orReg_keeps _ _ (sub_of hm rfl) ?_
    refine setSta_keeps _ _ (sub_of hm rfl) ?_
    exact h
  clear_value x9
  have h15 : Keeps m r x10 := by
    refine Keeps.ite ?_ ?_
    · refine ctlRec_keeps _ _ _ _ (sub_of hm rfl) ?_
      refine armStation_keeps _ _ (sub_of hm rfl) ?_
      exact h13
    · refine Keeps.ite ?_ ?_
      · refine ctlRec_keeps _ _ _ _ (sub_of hm rfl) ?_
        refine armStation_keeps _ _ (sub_of hm rfl) ?_
        exact h14
      · exact h
  clear_value x10
  refine Keeps.ite ?_ ?_
  · refine setRf_keeps _ _ _ _ (sub_of hm rfl) ?_
    refine setSta_keeps _ _ (sub_of hm rfl) ?_
    exact h
  · refine setRf_keeps _ _ _ _ (sub_of hm rfl) ?_
    exact h15

theorem substitute_keeps {m : Nat} {r s : State} (p : Nat) (hm : Sub 1040 m) (h : Keeps m r s) :
    Keeps m r (substitute s p) := by
  unfold substitute
  extract_lets x6
  refine Keeps.ite ?_ ?_
  · exact h
  · split
    · refine setPt_keeps _ _ _ (sub_of hm rfl) ?_
      refine setPt_keeps _ _ _ (sub_of hm rfl) ?_
      exact h
    · refine setPt_keeps _ _ _ (sub_of hm rfl) ?_
      refine setPt_keeps _ _ _ (sub_of hm rfl) ?_
      refine setPt_keeps _ _ _ (sub_of hm rfl) ?_
      refine setPt_keeps _ _ _ (sub_of hm rfl) ?_
      exact h
    · refine setPt_keeps _ _ _ (sub_of hm rfl) ?_
      exact h

theorem stationPoint_keeps {m : Nat} {r s : State} (p : Nat) (hm : Sub 1040 m) (h : Keeps m r s) :
    Keeps m r (stationPoint s p) := by
  unfold stationPoint
  extract_lets x6 x7
  refine Keeps.ite ?_ ?_
  · exact h
  · refine Keeps.ite ?_ ?_
    · refine substitute_keeps _ (sub_of hm rfl) ?_
      exact h
    · refine Keeps.ite ?_ ?_
      · refine setPt_keeps _ _ _ (sub_of hm rfl) ?_
        exact h
      · exact h

theorem stationCheck_keeps {m : Nat} {r s : State}  (hm : Sub 34363671610 m) (h : Keeps m r s) :
    Keeps m r (stationCheck s) := by
  unfold stationCheck
  extract_lets x5 x6
  have h7 : Keeps m r x5 := by
    subst x5
    refine Keeps.foldl _ _ (fun s6 a6 h6 => ?_) _ ?_
    · refine stationOne_keeps _ (sub_of hm rfl) ?_
      exact h6
    · exact h
  clear_value x5
  refine republish_keeps _ (sub_of hm rfl) ?_
  refine Keeps.foldl _ _ (fun s8 a8 h8 => ?_) _ ?_
  · refine stationPoint_keeps _ (sub_of hm rfl) ?_
    exact h8
  · refine setRb_keeps _ _ _ (sub_of hm rfl) ?_
    exact h7

theorem execForceApply_keeps {m : Nat} {r s : State}  (hm : Sub 1040 m) (h : Keeps m r s) :
    KeepsO m r (execForceApply s) := by
  unfold execForceApply
  refine KeepsO.next ?_
  refine Keeps.foldl _ _ (fun s5 a5 h5 => ?_) _ ?_
  · refine forceOne_keeps _ (sub_of hm rfl) ?_
    exact h5
  · exact h

theorem execPointRefresh_keeps {m : Nat} {r s : State} (p : Fin 4096) (valid : Bool) (v : Word) (ts : BitVec 64) (src : PtSource) (chan : Option (BitVec 8)) (hm : Sub 3933242 m) (h : Keeps m r s) :
    KeepsO m r (execPointRefresh p valid v ts src chan s) := by
  unfold execPointRefresh
  refine KeepsO.next ?_
  refine pointRefresh_keeps _ _ _ _ _ _ (sub_of hm rfl) ?_
  exact h

theorem execStationCheck_keeps {m : Nat} {r s : State}  (hm : Sub 34363671610 m) (h : Keeps m r s) :
    KeepsO m r (execStationCheck s) := by
  unfold execStationCheck
  refine KeepsO.next ?_
  refine stationCheck_keeps (sub_of hm rfl) ?_
  exact h

end Sys2Proof.Machine
end

