-- ==== Sys2Proof/Laws/Loops.lean ====
section
/-! SUPPORT. What each function of Machine/Loops.lean keeps of the state (Laws/Keeps.lean). -/

namespace Sys2Proof.Machine

theorem setLp_keeps {m : Nat} {r s : State} (n : Nat) (x : Loop) (hm : Sub 34359738368 m) (h : Keeps m r s) :
    Keeps m r (State.setLp s n x) := by
  unfold State.setLp
  extract_lets x7
  refine Keeps.upd_ctl ?_ (hm 35 rfl)
  exact h

theorem setSvc_keeps {m : Nat} {r s : State} (v : Nat) (x : Svc) (hm : Sub 34359738368 m) (h : Keeps m r s) :
    Keeps m r (State.setSvc s v x) := by
  unfold State.setSvc
  extract_lets x7
  refine Keeps.upd_ctl ?_ (hm 35 rfl)
  exact h

theorem testEnd_keeps {m : Nat} {r s : State} (slot : Nat) (flags : Nat) (cause : Nat) (samples : Nat) (hm : Sub 34363671594 m) (h : Keeps m r s) :
    Keeps m r (testEnd slot flags cause samples s) := by
  unfold testEnd
  extract_lets x9 x10 x11
  have h12 : Keeps m r x10 := by
    refine Keeps.upd_ctl ?_ (hm 35 rfl)
    exact h
  clear_value x10
  have h13 : Keeps m r x11 := by
    refine setRb_keeps _ _ _ (sub_of hm rfl) ?_
    refine orReg_keeps _ _ (sub_of hm rfl) ?_
    refine setReg_keeps _ _ (sub_of hm rfl) ?_
    exact h12
  clear_value x11
  refine republish_keeps _ (sub_of hm rfl) ?_
  refine setRb_keeps _ _ _ (sub_of hm rfl) ?_
  refine ctlRec_keeps _ _ _ _ (sub_of hm rfl) ?_
  exact h13

theorem testCut_keeps {m : Nat} {r s : State} (cause : Nat) (hm : Sub 34363671594 m) (h : Keeps m r s) :
    Keeps m r (testCut cause s) := by
  unfold testCut
  split
  · refine testEnd_keeps _ _ _ _ (sub_of hm rfl) ?_
    exact h
  · exact h

theorem testCommitted_keeps {m : Nat} {r s : State}  (hm : Sub 34363671594 m) (h : Keeps m r s) :
    Keeps m r (testCommitted s) := by
  unfold testCommitted
  split
  · extract_lets x8
    refine Keeps.ite ?_ ?_
    · refine testCut_keeps _ (sub_of hm rfl) ?_
      exact h
    · exact h
  · exact h

theorem lpCommitted_keeps {m : Nat} {r s : State} (before : State) (n : Nat) (hm : Sub 34359738368 m) (h : Keeps m r s) :
    Keeps m r (lpCommitted before s n) := by
  unfold lpCommitted
  extract_lets x7 x8 x9
  refine Keeps.ite ?_ ?_
  · exact h
  · refine Keeps.ite ?_ ?_
    · refine setLp_keeps _ _ (sub_of hm rfl) ?_
      exact h
    · refine setLp_keeps _ _ (sub_of hm rfl) ?_
      exact h

theorem ctlCommitted_keeps {m : Nat} {r s : State} (before : State) (hm : Sub 34363671594 m) (h : Keeps m r s) :
    Keeps m r (ctlCommitted before s) := by
  unfold ctlCommitted
  extract_lets x6 x7 x8
  have h9 : Keeps m r x6 := by
    refine forceShow_keeps (sub_of hm rfl) ?_
    refine Keeps.foldl _ _ (fun s9 a9 h9 => ?_) _ ?_
    · refine forceChange_keeps _ _ (sub_of hm rfl) ?_
      exact h9
    · exact h
  clear_value x6
  have h10 : Keeps m r x7 := by
    refine testCommitted_keeps (sub_of hm rfl) ?_
    refine Keeps.foldl _ _ (fun s10 a10 h10 => ?_) _ ?_
    · refine lpCommitted_keeps _ _ (sub_of hm rfl) ?_
      exact h10
    · exact h9
  clear_value x7
  refine Keeps.ite ?_ ?_
  · refine Keeps.upd_ctl ?_ (hm 35 rfl)
    exact h10
  · exact h10

theorem ctlStart_keeps {m : Nat} {r s : State}  (hm : Sub 34359739402 m) (h : Keeps m r s) :
    Keeps m r (ctlStart s) := by
  unfold ctlStart
  refine forceShow_keeps (sub_of hm rfl) ?_
  refine Keeps.upd_ctl ?_ (hm 35 rfl)
  exact h

theorem schedShow_keeps {m : Nat} {r s : State}  (hm : Sub 1034 m) (h : Keeps m r s) :
    Keeps m r (schedShow s) := by
  unfold schedShow
  refine publish_keeps _ (sub_of hm rfl) ?_
  exact h

theorem serviceEnd_keeps {m : Nat} {r s : State} (v : Nat) (start : Nat) (hm : Sub 3933226 m) (h : Keeps m r s) :
    Keeps m r (serviceEnd v start s) := by
  unfold serviceEnd
  extract_lets x7 x8 x9 x10 x11 x12 x13 x14 x15 x16 x17
  have h18 : Keeps m r x15 := by
    refine publish_keeps _ (sub_of hm rfl) ?_
    exact h
  clear_value x15
  have h19 : Keeps m r x16 := by
    subst x16
    clear_value x8
    split
    · rename_i y19 y20
      refine ctlRec_keeps _ _ _ _ (sub_of hm rfl) ?_
      refine orReg_keeps _ _ (sub_of hm rfl) ?_
      refine satRf_keeps _ _ _ _ (sub_of hm rfl) ?_
      exact h18
    · rename_i y18
      exact h18
  clear_value x16
  refine republish_keeps _ (sub_of hm rfl) ?_
  refine setRb_keeps _ _ _ (sub_of hm rfl) ?_
  exact h19

theorem serviceTurn_keeps {m : Nat} {r s : State} (v : Nat) (hm : Sub 34363673642 m) (h : Keeps m r s) :
    Keeps m r (serviceTurn s v) := by
  unfold serviceTurn
  extract_lets x6 x7 x8
  have h9 : Keeps m r x6 := by
    subst x6
    split
    · refine serviceEnd_keeps _ _ (sub_of hm rfl) ?_
      exact h
    · exact h
  clear_value x6
  have h10 : Keeps m r x8 := by
    refine Keeps.upd_eng ?_ (hm 11 rfl)
    exact h9
  clear_value x8
  refine Keeps.ite ?_ ?_
  · exact h
  · refine setSvc_keeps _ _ (sub_of hm rfl) ?_
    exact h10

theorem serviceTurns_keeps {m : Nat} {r s : State}  (hm : Sub 34363673642 m) (h : Keeps m r s) :
    Keeps m r (serviceTurns s) := by
  unfold serviceTurns
  refine Keeps.foldl _ _ (fun s5 a5 h5 => ?_) _ ?_
  · refine serviceTurn_keeps _ (sub_of hm rfl) ?_
    exact h5
  · exact h

theorem testStop_keeps {m : Nat} {r s : State}  (hm : Sub 34363671594 m) (h : Keeps m r s) :
    Keeps m r (testStop s) := by
  unfold testStop
  extract_lets x5
  have h6 : Keeps m r x5 := by
    refine setRb_keeps _ _ _ (sub_of hm rfl) ?_
    exact h
  clear_value x5
  split
  · refine testEnd_keeps _ _ _ _ (sub_of hm rfl) ?_
    exact h6
  · exact h6

theorem tsCtrl_keeps {m : Nat} {r s : State} (run : Bool) (count : Nat) (hm : Sub 2 m) (h : Keeps m r s) :
    Keeps m r (tsCtrl s run count) := by
  unfold tsCtrl
  refine setReg_keeps _ _ (sub_of hm rfl) ?_
  exact h

theorem testRun_keeps {m : Nat} {r s : State} (count : Nat) (hm : Sub 34363671594 m) (h : Keeps m r s) :
    Keeps m r (testRun count s) := by
  unfold testRun
  extract_lets x6 x7 x8 x9 x10
  have h11 : Keeps m r x6 := by
    refine tsCtrl_keeps _ _ (sub_of hm rfl) ?_
    exact h
  clear_value x6
  have h12 : Keeps m r x10 := by
    refine Keeps.upd_ctl ?_ (hm 35 rfl)
    exact h11
  clear_value x10
  refine Keeps.ite ?_ ?_
  · exact h
  · refine Keeps.ite ?_ ?_
    · refine republish_keeps _ (sub_of hm rfl) ?_
      refine setRb_keeps _ _ _ (sub_of hm rfl) ?_
      refine setReg_keeps _ _ (sub_of hm rfl) ?_
      exact h12
    · refine testEnd_keeps _ _ _ _ (sub_of hm rfl) ?_
      exact h11

theorem chirpInj_keeps {m : Nat} {r s : State} (amp : Word) (phi : Nat) (hm : Sub 2199023255552 m) (h : Keeps m r s) :
    Keeps m r (chirpInj amp phi s).2 := by
  unfold chirpInj
  extract_lets x7 x8
  have h9 : Keeps m r x7.2 := by
    refine free_keeps (sub_of hm rfl) ?_
    exact h
  clear_value x7
  refine Keeps.ite2 ?_ ?_
  · refine Keeps.mk2 ?_
    exact h9
  · refine Keeps.ite2 ?_ ?_
    · refine Keeps.mk2 ?_
      exact h9
    · refine Keeps.mk2 ?_
      exact h9

theorem ffwPut_keeps {m : Nat} {r s : State} (x0 : List (Nat × Nat × Word)) (hm : Sub 1050 m) (h : Keeps m r s) :
    Keeps m r (ffwPut x0 s) := by
  induction x0 generalizing s with | nil => ?_ | cons a l ih => ?_
  · simp -zeta only [ffwPut]
    exact h
  · simp -zeta only [ffwPut]
    extract_lets x8
    have h9 : Keeps m r x8 := by
      refine setEcc_keeps _ _ _ (sub_of hm rfl) ?_
      refine Keeps.upd_data ?_ (hm 4 rfl) (fun w0 w => (memWf_memPutW _ _ _ w.1))
      exact h
    clear_value x8
    refine ih ?_
    refine publish_keeps _ (sub_of hm rfl) ?_
    exact h9

theorem ffwSlot_keeps {m : Nat} {r s : State} (n : Nat) (hm : Sub 34359739418 m) (h : Keeps m r s) :
    Keeps m r (ffwSlot n s) := by
  unfold ffwSlot
  extract_lets x6
  refine ffwPut_keeps _ (sub_of hm rfl) ?_
  refine Keeps.upd_ctl ?_ (hm 35 rfl)
  exact h

theorem ffwWrite_keeps {m : Nat} {r s : State}  (hm : Sub 34359739418 m) (h : Keeps m r s) :
    Keeps m r (ffwWrite s) := by
  unfold ffwWrite
  extract_lets x5
  refine ffwPut_keeps _ (sub_of hm rfl) ?_
  refine Keeps.upd_ctl ?_ (hm 35 rfl)
  exact h

theorem testAbort_keeps {m : Nat} {r s : State} (n : Nat) (cause : Nat) (hm : Sub 34363671594 m) (h : Keeps m r s) :
    Keeps m r (testAbort n cause s) := by
  unfold testAbort
  split
  · refine testEnd_keeps _ _ _ _ (sub_of hm rfl) ?_
    exact h
  · exact h

theorem lpStaleShow_keeps {m : Nat} {r s : State} (n : Nat) (v : Bool) (hm : Sub 2 m) (h : Keeps m r s) :
    Keeps m r (lpStaleShow n v s) := by
  unfold lpStaleShow
  extract_lets x7 x8
  have h9 : Keeps m r x7 := by
    refine setRb_keeps _ _ _ (sub_of hm rfl) ?_
    exact h
  clear_value x7
  refine setRb_keeps _ _ _ (sub_of hm rfl) ?_
  exact h9

theorem lpStore_keeps {m : Nat} {r s : State} (n : Nat) (now : Nat) (tracking : Bool) (isAuto : Bool) (dt : FRes) (o : LpOut) (hm : Sub 34363671610 m) (h : Keeps m r s) :
    Keeps m r (lpStore n now tracking isAuto dt o s) := by
  unfold lpStore
  extract_lets x11 x12 x13 x14 x15 x16
  have h17 : Keeps m r x11 := by
    refine fpFlags_keeps _ (sub_of hm rfl) ?_
    exact h
  clear_value x11
  have h18 : Keeps m r x13 := by
    refine refreshPoint_keeps _ _ _ _ (sub_of hm rfl) ?_
    exact h17
  clear_value x13
  have h19 : Keeps m r x15 := by
    refine setLp_keeps _ _ (sub_of hm rfl) ?_
    exact h18
  clear_value x15
  refine republish_keeps _ (sub_of hm rfl) ?_
  refine lpStaleShow_keeps _ _ (sub_of hm rfl) ?_
  refine publish_keeps _ (sub_of hm rfl) ?_
  exact h19

theorem testInj_keeps {m : Nat} {r s : State} (t : TestGen) (hm : Sub 2199023255552 m) (h : Keeps m r s) :
    Keeps m r (testInj t s).2 := by
  unfold testInj
  extract_lets x6 x7 x8
  have h9 : Keeps m r x7.2 := by
    refine free_keeps (sub_of hm rfl) ?_
    exact h
  clear_value x7
  split
  · refine Keeps.mk2 ?_
    exact h
  · refine Keeps.mk2 ?_
    exact h
  · split
    · refine chirpInj_keeps _ _ (sub_of hm rfl) ?_
      exact h
    · refine Keeps.mk2 ?_
      exact h9

theorem testHeader_keeps {m : Nat} {r s : State} (t : TestGen) (now : Nat) (hm : Sub 274881938538 m) (h : Keeps m r s) :
    Keeps m r (testHeader t now s) := by
  unfold testHeader
  extract_lets x7
  refine Keeps.ite ?_ ?_
  · exact h
  · refine qPushAll_keeps _ _ _ (sub_of hm rfl) ?_
    exact h

theorem testCapture_keeps {m : Nat} {r s : State} (t : TestGen) (now : Nat) (dt : Word) (pv : Word) (u : Word) (inj : Word) (hm : Sub 309241676906 m) (h : Keeps m r s) :
    Keeps m r (testCapture t now dt pv u inj s) := by
  unfold testCapture
  extract_lets x11 x12 x13 x14 x15
  have h16 : Keeps m r x11 := by
    refine testHeader_keeps _ _ (sub_of hm rfl) ?_
    exact h
  clear_value x11
  have h17 : Keeps m r x14 := by
    refine qPushAll_keeps _ _ _ (sub_of hm rfl) ?_
    exact h16
  clear_value x14
  refine Keeps.ite ?_ ?_
  · refine testEnd_keeps _ _ _ _ (sub_of hm rfl) ?_
    exact h16
  · refine Keeps.ite ?_ ?_
    · refine testEnd_keeps _ _ _ _ (sub_of hm rfl) ?_
      exact h17
    · refine publish_keeps _ (sub_of hm rfl) ?_
      refine Keeps.upd_ctl ?_ (hm 35 rfl)
      exact h17

theorem lpDoAuto_keeps {m : Nat} {r s : State} (n : Nat) (now : Nat) (hm : Sub 2508264932474 m) (h : Keeps m r s) :
    Keeps m r (lpDoAuto n now s) := by
  unfold lpDoAuto
  extract_lets x7 x8
  split
  · refine lpStore_keeps _ _ _ _ _ _ (sub_of hm rfl) ?_
    exact h
  · extract_lets x12 x13
    have h14 : Keeps m r x12.2 := by
      refine testInj_keeps _ (sub_of hm rfl) ?_
      exact h
    clear_value x12
    refine testCapture_keeps _ _ _ _ _ _ (sub_of hm rfl) ?_
    refine lpStore_keeps _ _ _ _ _ _ (sub_of hm rfl) ?_
    exact h14

theorem lpMiss_keeps {m : Nat} {r s : State} (n : Nat) (p : Nat) (bad : Bool) (hm : Sub 34363671594 m) (h : Keeps m r s) :
    Keeps m r (lpMiss n p bad s) := by
  unfold lpMiss
  extract_lets x8 x9 x10 x11 x12
  have h13 : Keeps m r x9 := by
    refine setLp_keeps _ _ (sub_of hm rfl) ?_
    exact h
  clear_value x9
  have h14 : Keeps m r x10 := by
    refine orReg_keeps _ _ (sub_of hm rfl) ?_
    refine setRf_keeps _ _ _ _ (sub_of hm rfl) ?_
    exact h13
  clear_value x10
  have h15 : Keeps m r x11 := by
    refine orReg_keeps _ _ (sub_of hm rfl) ?_
    refine Keeps.ite ?_ ?_
    · refine satRf_keeps _ _ _ _ (sub_of hm rfl) ?_
      exact h14
    · refine satRf_keeps _ _ _ _ (sub_of hm rfl) ?_
      exact h14
  clear_value x11
  have h16 : Keeps m r x12 := by
    refine ctlRec_keeps _ _ _ _ (sub_of hm rfl) ?_
    refine lpStaleShow_keeps _ _ (sub_of hm rfl) ?_
    exact h15
  clear_value x12
  refine republish_keeps _ (sub_of hm rfl) ?_
  refine testAbort_keeps _ _ (sub_of hm rfl) ?_
  exact h16

theorem loopRun_keeps {m : Nat} {r s : State} (n : Nat) (now : Nat) (hm : Sub 2508264932474 m) (h : Keeps m r s) :
    Keeps m r (loopRun n now s) := by
  unfold loopRun
  extract_lets x7 x8 x9 x10
  clear_value x7
  split
  · refine testAbort_keeps _ _ (sub_of hm rfl) ?_
    exact h
  · refine republish_keeps _ (sub_of hm rfl) ?_
    refine testAbort_keeps _ _ (sub_of hm rfl) ?_
    refine lpStaleShow_keeps _ _ (sub_of hm rfl) ?_
    refine setRf_keeps _ _ _ _ (sub_of hm rfl) ?_
    refine setLp_keeps _ _ (sub_of hm rfl) ?_
    exact h
  · split
    · refine lpMiss_keeps _ _ _ (sub_of hm rfl) ?_
      exact h
    · split
      · refine lpMiss_keeps _ _ _ (sub_of hm rfl) ?_
        exact h
      · split
        · refine lpDoAuto_keeps _ _ (sub_of hm rfl) ?_
          exact h
        · refine testAbort_keeps _ _ (sub_of hm rfl) ?_
          refine lpStore_keeps _ _ _ _ _ _ (sub_of hm rfl) ?_
          exact h
        · refine testAbort_keeps _ _ (sub_of hm rfl) ?_
          refine lpStore_keeps _ _ _ _ _ _ (sub_of hm rfl) ?_
          exact h

theorem loopAttempt_keeps {m : Nat} {r s : State} (n : Nat) (cycle : Nat) (hm : Sub 2508264932474 m) (h : Keeps m r s) :
    Keeps m r (loopAttempt n cycle s) := by
  unfold loopAttempt
  extract_lets x7
  refine Keeps.ite ?_ ?_
  · exact h
  · refine loopRun_keeps _ _ (sub_of hm rfl) ?_
    refine ffwSlot_keeps _ (sub_of hm rfl) ?_
    refine setLp_keeps _ _ (sub_of hm rfl) ?_
    exact h

theorem serviceCycle_keeps {m : Nat} {r s : State} (v : Nat) (cycle : Nat) (outs : List (Fin 4096 × Word × BitVec 2)) (hm : Sub 34359739408 m) (h : Keeps m r s) :
    Keeps m r (serviceCycle v cycle outs s) := by
  unfold serviceCycle
  extract_lets x8 x9 x10
  have h11 : Keeps m r x9 := by
    subst x9
    refine Keeps.foldl _ _ (fun s10 a10 h10 => ?_) _ ?_
    · refine refreshPoint_keeps _ _ _ _ (sub_of hm rfl) ?_
      exact h10
    · exact h
  clear_value x9
  refine Keeps.ite ?_ ?_
  · exact h
  · refine setSvc_keeps _ _ (sub_of hm rfl) ?_
    exact h11

theorem execFfwWrite_keeps {m : Nat} {r s : State}  (hm : Sub 34359739418 m) (h : Keeps m r s) :
    KeepsO m r (execFfwWrite s) := by
  unfold execFfwWrite
  refine KeepsO.next ?_
  refine ffwWrite_keeps (sub_of hm rfl) ?_
  exact h

theorem execLoopAttempt_keeps {m : Nat} {r s : State} (n : Fin 128) (cycle : BitVec 17) (hm : Sub 2508264932474 m) (h : Keeps m r s) :
    KeepsO m r (execLoopAttempt n cycle s) := by
  unfold execLoopAttempt
  refine KeepsO.next ?_
  refine loopAttempt_keeps _ _ (sub_of hm rfl) ?_
  exact h

theorem execServiceCycle_keeps {m : Nat} {r s : State} (sv : Fin 4) (cycle : BitVec 17) (outs : List (Fin 4096 × Word × BitVec 2)) (hm : Sub 34359739408 m) (h : Keeps m r s) :
    KeepsO m r (execServiceCycle sv cycle outs s) := by
  unfold execServiceCycle
  refine KeepsO.next ?_
  refine serviceCycle_keeps _ _ _ (sub_of hm rfl) ?_
  exact h

theorem execTestRun_keeps {m : Nat} {r s : State} (count : BitVec 13) (hm : Sub 34363671594 m) (h : Keeps m r s) :
    KeepsO m r (execTestRun count s) := by
  unfold execTestRun
  refine KeepsO.next ?_
  refine Keeps.ite ?_ ?_
  · exact h
  · refine testRun_keeps _ (sub_of hm rfl) ?_
    exact h

theorem execTestStop_keeps {m : Nat} {r s : State}  (hm : Sub 34363671594 m) (h : Keeps m r s) :
    KeepsO m r (execTestStop s) := by
  unfold execTestStop
  refine KeepsO.next ?_
  refine Keeps.ite ?_ ?_
  · exact h
  · refine testStop_keeps (sub_of hm rfl) ?_
    exact h

end Sys2Proof.Machine
end

