-- ==== Sys2Proof/Laws/SecBase.lean ====
section
/-! SUPPORT. What each function of Machine/SecBase.lean keeps of the state (Laws/Keeps.lean). -/

namespace Sys2Proof.Machine

theorem secShow_keeps {m : Nat} {r s : State}  (hm : Sub 1034 m) (h : Keeps m r s) :
    Keeps m r (secShow s) := by
  unfold secShow
  refine republish_keeps _ (sub_of hm rfl) ?_
  refine publish_keeps _ (sub_of hm rfl) ?_
  exact h

theorem putRecord_keeps {m : Nat} {r s : State} (r0 : SecRec) (hm : Sub 68719476992 m) (h : Keeps m r s) :
    Keeps m r (putRecord r0 s) := by
  unfold putRecord
  extract_lets x6 x7 x8
  refine Keeps.ite ?_ ?_
  · exact h
  · refine Keeps.upd_feram_sec ?_ (hm 8 rfl) (hm 36 rfl) (fun w0 w => (memWf_memPut _ _ _ w.2.2.2.2.1)) (fun hl => hl) (fun hr => hr)
    exact h

theorem secEvt_keeps {m : Nat} {r s : State} (m0 : Nat) (hm : Sub 2 m) (h : Keeps m r s) :
    Keeps m r (secEvt s m0) := by
  unfold secEvt
  refine orReg_keeps _ _ (sub_of hm rfl) ?_
  exact h

theorem signIdentity_keeps {m : Nat} {r s : State} (msg : List Byte) (hm : Sub 2199023255552 m) (h : Keeps m r s) :
    Keeps m r (signIdentity msg s).2 := by
  unfold signIdentity
  extract_lets x6
  have h7 : Keeps m r x6.2 := by
    refine freeWords_keeps _ (sub_of hm rfl) ?_
    exact h
  clear_value x6
  refine Keeps.mk2 ?_
  exact h7

theorem secRecLog_keeps {m : Nat} {r s : State} (code : Nat) (sev : Nat) (subject : Nat) (d : List Word) (hm : Sub 3933218 m) (h : Keeps m r s) :
    Keeps m r (secRecLog s code sev subject d) := by
  unfold secRecLog
  refine logOnce_keeps _ _ _ _ _ (sub_of hm rfl) ?_
  exact h

end Sys2Proof.Machine
end

