-- ==== Sys2Proof/Laws/Commit.lean ====
section
/-! SUPPORT. What each function of Machine/Commit.lean keeps of the state (Laws/Keeps.lean). -/

namespace Sys2Proof.Machine

theorem applyShadows_keeps {m : Nat} {r s : State} (b : Nat) (hm : Sub 2 m) (h : Keeps m r s) :
    Keeps m r (applyShadows s b) := by
  unfold applyShadows
  refine Keeps.foldl _ _ (fun s6 a6 h6 => ?_) _ ?_
  · refine setReg_keeps _ _ (sub_of hm rfl) ?_
    exact h6
  · exact h

theorem serveBlock_keeps {m : Nat} {r s : State} (fails : List PairRow) (b : Nat) (hm : Sub 1836066 m) (h : Keeps m r s) :
    Keeps m r (serveBlock fails s b) := by
  unfold serveBlock
  split
  · extract_lets x10 x11
    have h12 : Keeps m r x11 := by
      refine orReg_keeps _ _ (sub_of hm rfl) ?_
      refine setReg_keeps _ _ (sub_of hm rfl) ?_
      exact h
    clear_value x11
    refine append_keeps _ _ _ _ (sub_of hm rfl) ?_
    exact h12
  · refine orReg_keeps _ _ (sub_of hm rfl) ?_
    refine setReg_keeps _ _ (sub_of hm rfl) ?_
    refine applyShadows_keeps _ (sub_of hm rfl) ?_
    exact h

theorem commitWindow_keeps {m : Nat} {r s : State}  (hm : Sub 1836066 m) (h : Keeps m r s) :
    Keeps m r (commitWindow s) := by
  unfold commitWindow
  extract_lets x5 x6
  have h7 : Keeps m r x6 := by
    refine addReg_keeps _ _ (sub_of hm rfl) ?_
    exact h
  clear_value x6
  refine Keeps.ite ?_ ?_
  · exact h
  · refine setReg_keeps _ _ (sub_of hm rfl) ?_
    refine Keeps.foldl _ _ (fun s8 a8 h8 => ?_) _ ?_
    · refine serveBlock_keeps _ _ (sub_of hm rfl) ?_
      exact h8
    · exact h7

theorem commitRequest_keeps {m : Nat} {r s : State} (w : Word) (hm : Sub 2 m) (h : Keeps m r s) :
    Keeps m r (commitRequest w s) := by
  unfold commitRequest
  refine Keeps.ite ?_ ?_
  · refine orReg_keeps _ _ (sub_of hm rfl) ?_
    exact h
  · exact h

end Sys2Proof.Machine
end

