-- ==== Sys2Proof/Laws/ImageCheck.lean ====
section
/-! SUPPORT. What each function of Machine/ImageCheck.lean keeps of the state (Laws/Keeps.lean). -/

namespace Sys2Proof.Machine

theorem loadData0_keeps {m : Nat} {r s : State} (slot : Nat) (hm : Sub 1040 m) (h : Keeps m r s) :
    Keeps m r (loadData0 slot s) := by
  unfold loadData0
  extract_lets x6
  refine Keeps.upd_data_ecc ?_ (hm 4 rfl) (hm 10 rfl) (fun w0 w => (memWf_memCopy _ _ _ _ _ w.2.2.2.2.2 memWf_nil))
  exact h

theorem refuseSlot_keeps {m : Nat} {r s : State} (slot : Nat) (code : Nat) (detail : Nat) (hm : Sub 1836066 m) (h : Keeps m r s) :
    Keeps m r (refuseSlot slot code detail s) := by
  unfold refuseSlot
  extract_lets x8
  have h9 : Keeps m r x8 := by
    refine setReg_keeps _ _ (sub_of hm rfl) ?_
    exact h
  clear_value x8
  refine Keeps.ite ?_ ?_
  · refine append_keeps _ _ _ _ (sub_of hm rfl) ?_
    exact h9
  · refine append_keeps _ _ _ _ (sub_of hm rfl) ?_
    exact h9

theorem loadQueue_keeps {m : Nat} {r s : State} (l : List (List Byte)) (q : Nat) (hm : Sub 2 m) (h : Keeps m r s) :
    Keeps m r (loadQueue l s q) := by
  unfold loadQueue
  extract_lets x7
  refine setReg_keeps _ _ (sub_of hm rfl) ?_
  refine setReg_keeps _ _ (sub_of hm rfl) ?_
  refine setReg_keeps _ _ (sub_of hm rfl) ?_
  refine setReg_keeps _ _ (sub_of hm rfl) ?_
  exact h

theorem memWf_loadCode (s : State) (slot : Nat) (l : List Byte) (w : memWf s.store = true) : memWf (loadCode s slot l) = true :=
  memWf_memCopy _ _ _ _ _ w (memWf_memCopy _ _ _ _ _ w (memWf_memCopy _ _ _ _ _ w memWf_nil))

theorem loadImage_keeps {m : Nat} {r s : State} (slot : Nat) (hm : Sub 68719481986 m) (h : Keeps m r s) :
    Keeps m r (loadImage slot s) := by
  unfold loadImage
  extract_lets x6 x7 x8 x9 x10 x11 x12 x13 x14
  have h15 : Keeps m r x10 := by
    refine Keeps.upd_code_ecc_image_sec ?_ (hm 7 rfl) (hm 10 rfl) (hm 12 rfl) (hm 36 rfl) (fun w0 w => (memWf_loadCode _ _ _ w.2.2.2.2.2)) (fun hl => hl) (fun hr => hr)
    exact h
  clear_value x10
  have h16 : Keeps m r x11 := by
    subst x11
    refine Keeps.foldl _ _ (fun s15 a15 h15 => ?_) _ ?_
    · refine loadQueue_keeps _ _ (sub_of hm rfl) ?_
      exact h15
    · exact h15
  clear_value x11
  have h17 : Keeps m r x13 := by
    subst x13
    refine Keeps.foldl _ _ (fun s16 a16 h16 => ?_) _ ?_
    · refine setReg_keeps _ _ (sub_of hm rfl) ?_
      exact h16
    · exact h16
  clear_value x13
  refine setRf_keeps _ _ _ _ (sub_of hm rfl) ?_
  refine setReg_keeps _ _ (sub_of hm rfl) ?_
  refine setReg_keeps _ _ (sub_of hm rfl) ?_
  exact h17

end Sys2Proof.Machine
end

