-- ==== Sys2Proof/Laws/Conf.lean ====
section
/-! SUPPORT. What each function of Machine/Conf.lean keeps of the state (Laws/Keeps.lean). -/

namespace Sys2Proof.Machine

theorem applyItem_keeps {m : Nat} {r s : State} (x1 : Item) (hm : Sub 22 m) (h : Keeps m r s) :
    Keeps m r (applyItem s x1) := by
  unfold applyItem
  split
  · extract_lets x8 x9
    have h10 : Keeps m r x9 := by
      refine setReg_keeps _ _ (sub_of hm rfl) ?_
      exact h
    clear_value x9
    refine Keeps.ite ?_ ?_
    · refine setShadow_keeps _ _ (sub_of hm rfl) ?_
      exact h10
    · exact h10
  · refine Keeps.upd_data ?_ (hm 4 rfl) (fun w0 w => (memWf_memPut _ _ _ w.1))
    exact h

theorem applyRecords_keeps {m : Nat} {r s : State} (l : List SchemaEntry) (rs : List CRec) (hm : Sub 22 m) (h : Keeps m r s) :
    Keeps m r (applyRecords s l rs) := by
  unfold applyRecords
  refine Keeps.foldl _ _ (fun s7 a7 h7 => ?_) _ ?_
  · refine Keeps.foldl _ _ (fun s10 a10 h10 => ?_) _ ?_
    · refine applyItem_keeps _ (sub_of hm rfl) ?_
      exact h10
    · exact h7
  · exact h

end Sys2Proof.Machine
end

