-- ==== Sys2Proof/Laws/SecMsg.lean ====
section
/-! SUPPORT. What each function of Machine/SecMsg.lean keeps of the state (Laws/Keeps.lean). -/

namespace Sys2Proof.Machine

theorem slotFail_keeps {m : Nat} {r s : State} (slot : Nat) (cause : Nat) (hm : Sub 68721313058 m) (h : Keeps m r s) :
    Keeps m r (slotFail slot cause s) := by
  unfold slotFail
  extract_lets x7 x8 x9
  have h10 : Keeps m r x9 := by
    refine putRecord_keeps _ (sub_of hm rfl) ?_
    exact h
  clear_value x9
  refine Keeps.ite ?_ ?_
  · refine append_keeps _ _ _ _ (sub_of hm rfl) ?_
    refine secEvt_keeps _ (sub_of hm rfl) ?_
    exact h10
  · exact h10

theorem blowFuse_keeps {m : Nat} {r s : State} (retire : Bool) (hm : Sub 68721312802 m) (h : Keeps m r s) :
    Keeps m r (blowFuse retire s) := by
  unfold blowFuse
  extract_lets x6 x7
  have h8 : Keeps m r x7 := by
    refine Keeps.ite ?_ ?_
    · refine Keeps.upd_sec ?_ (hm 36 rfl) ?_ ?_
      · exact h
      · exact fun hr => hr
      · exact fun _ _ => rfl
    · refine Keeps.upd_sec ?_ (hm 36 rfl) ?_ ?_
      · exact h
      · exact fun hl hr => ⟨Nat.le_min.mpr ⟨hr, Nat.le_succ_of_le (hl hr).1⟩, Nat.min_le_left _ _⟩
      · exact fun hr => hr
  clear_value x7
  refine append_keeps _ _ _ _ (sub_of hm rfl) ?_
  refine secEvt_keeps _ (sub_of hm rfl) ?_
  exact h8

theorem refused_keeps {m : Nat} {r s : State} (kind : Nat) (code : Nat) (hm : Sub 1836066 m) (h : Keeps m r s) :
    Keeps m r (refused kind code s) := by
  unfold refused
  refine append_keeps _ _ _ _ (sub_of hm rfl) ?_
  refine secEvt_keeps _ (sub_of hm rfl) ?_
  refine satRf_keeps _ _ _ _ (sub_of hm rfl) ?_
  exact h

theorem newRecord_keeps {m : Nat} {r s : State} (m0 : List Byte) (hm : Sub 2199023255552 m) (h : Keeps m r s) :
    Keeps m r (newRecord m0 s).2 := by
  unfold newRecord
  extract_lets x6 x7 x8 x9 x10 x11 x12 x13 x14 x15 x16
  have h17 : Keeps m r x9.2 := by
    refine freeWords_keeps _ (sub_of hm rfl) ?_
    exact h
  clear_value x9
  split
  · refine Keeps.mk2 ?_
    exact h17
  · refine Keeps.mk2 ?_
    exact h17
  · refine Keeps.mk2 ?_
    exact h
  · refine Keeps.mk2 ?_
    exact h
  · refine Keeps.mk2 ?_
    exact h
  · refine Keeps.mk2 ?_
    exact h
  · refine Keeps.mk2 ?_
    exact h

theorem islandMessage_keeps {m : Nat} {r s : State} (m0 : List Byte) (hm : Sub 2267742732288 m) (h : Keeps m r s) :
    Keeps m r (islandMessage m0 s).2 := by
  unfold islandMessage
  extract_lets x6 x7 x8 x9
  have h10 : Keeps m r x7.2 := by
    refine newRecord_keeps _ (sub_of hm rfl) ?_
    exact h
  clear_value x7
  have h11 : Keeps m r x8 := by
    subst x8
    exact h10
  clear_value x8
  refine Keeps.ite2 ?_ ?_
  · refine Keeps.mk2 ?_
    exact h
  · refine Keeps.ite2 ?_ ?_
    · refine Keeps.mk2 ?_
      exact h
    · refine Keeps.ite2 ?_ ?_
      · refine Keeps.mk2 ?_
        exact h
      · refine Keeps.ite2 ?_ ?_
        · refine Keeps.mk2 ?_
          exact h
        · refine Keeps.ite2 ?_ ?_
          · refine Keeps.mk2 ?_
            exact h
          · split
            · refine Keeps.mk2 ?_
              exact h
            · refine Keeps.ite2 ?_ ?_
              · refine Keeps.mk2 ?_
                exact h
              · refine Keeps.ite2 ?_ ?_
                · refine Keeps.mk2 ?_
                  exact h
                · refine Keeps.ite2 ?_ ?_
                  · refine Keeps.mk2 ?_
                    exact h
                  · refine Keeps.mk2 ?_
                    refine Keeps.upd_sec ?_ (hm 36 rfl) ?_ ?_
                    · exact h11
                    · exact fun _ => h10.lcn
                    · exact fun _ => h10.retired

theorem confirmShow_keeps {m : Nat} {r s : State} (slot : Nat) (how : Nat) (hm : Sub 1836066 m) (h : Keeps m r s) :
    Keeps m r (confirmShow slot how s) := by
  unfold confirmShow
  refine append_keeps _ _ _ _ (sub_of hm rfl) ?_
  refine secEvt_keeps _ (sub_of hm rfl) ?_
  refine setRb_keeps _ _ _ (sub_of hm rfl) ?_
  exact h

theorem xferLast_keeps {m : Nat} {r s : State}  (hm : Sub 2 m) (h : Keeps m r s) :
    Keeps m r (xferLast s) := by
  unfold xferLast
  split
  · refine setReg_keeps _ _ (sub_of hm rfl) ?_
    refine setReg_keeps _ _ (sub_of hm rfl) ?_
    exact h
  · exact h

theorem xferDrop_keeps {m : Nat} {r s : State}  (hm : Sub 206158430210 m) (h : Keeps m r s) :
    Keeps m r (xferDrop s) := by
  unfold xferDrop
  extract_lets x5 x6 x7
  have h8 : Keeps m r x5 := by
    refine xferLast_keeps (sub_of hm rfl) ?_
    exact h
  clear_value x5
  refine setRb_keeps _ _ _ (sub_of hm rfl) ?_
  refine Keeps.upd_sec_fab ?_ (hm 36 rfl) (hm 37 rfl) (fun hl => hl) (fun hr => hr)
  exact h8

theorem xferResult_keeps {m : Nat} {r s : State} (code : Nat) (hm : Sub 2 m) (h : Keeps m r s) :
    Keeps m r (xferResult code s) := by
  unfold xferResult
  extract_lets x6
  have h7 : Keeps m r x6 := by
    refine setRf_keeps _ _ _ _ (sub_of hm rfl) ?_
    exact h
  clear_value x6
  refine Keeps.ite ?_ ?_
  · exact h7
  · refine setRb_keeps _ _ _ (sub_of hm rfl) ?_
    refine secEvt_keeps _ (sub_of hm rfl) ?_
    exact h7

theorem xferEnd_keeps {m : Nat} {r s : State} (code : Nat) (hm : Sub 206158430210 m) (h : Keeps m r s) :
    Keeps m r (xferEnd code s) := by
  unfold xferEnd
  refine Keeps.ite ?_ ?_
  · exact h
  · refine xferResult_keeps _ (sub_of hm rfl) ?_
    refine xferDrop_keeps (sub_of hm rfl) ?_
    exact h

theorem rootAbandon_keeps {m : Nat} {r s : State}  (hm : Sub 206158430210 m) (h : Keeps m r s) :
    Keeps m r (rootAbandon s) := by
  unfold rootAbandon
  extract_lets x5 x6
  have h7 : Keeps m r x5 := by
    refine xferEnd_keeps _ (sub_of hm rfl) ?_
    exact h
  clear_value x5
  refine Keeps.ite ?_ ?_
  · exact h7
  · refine setRf_keeps _ _ _ _ (sub_of hm rfl) ?_
    refine setRf_keeps _ _ _ _ (sub_of hm rfl) ?_
    refine Keeps.upd_sec ?_ (hm 36 rfl) (fun hl => hl) (fun hr => hr)
    exact h7

theorem requestWarm_keeps {m : Nat} {r s : State} (m0 : Nat) (hm : Sub 8591770658 m) (h : Keeps m r s) :
    Keeps m r (requestWarm m0 s) := by
  unfold requestWarm
  extract_lets x6 x7
  have h8 : Keeps m r x6 := by
    refine append_keeps _ _ _ _ (sub_of hm rfl) ?_
    exact h
  clear_value x6
  refine Keeps.ite ?_ ?_
  · exact h
  · refine Keeps.upd_boot ?_ (hm 33 rfl)
    exact h8

theorem takeOwner_keeps {m : Nat} {r s : State} (p : SecPend) (hm : Sub 68723409954 m) (h : Keeps m r s) :
    Keeps m r (takeOwner p s) := by
  unfold takeOwner
  extract_lets x6
  split
  · exact h
  · extract_lets x10
    have h11 : Keeps m r x10 := by
      refine Keeps.ite ?_ ?_
      · refine Keeps.upd_sec ?_ (hm 36 rfl) (fun hl => hl) (fun hr => hr)
        exact h
      · refine Keeps.upd_sec ?_ (hm 36 rfl) (fun hl => hl) (fun hr => hr)
        exact h
    clear_value x10
    refine secRecLog_keeps _ _ _ _ (sub_of hm rfl) ?_
    refine secEvt_keeps _ (sub_of hm rfl) ?_
    exact h11

theorem messageEffect_keeps {m : Nat} {r s : State} (p : SecPend) (copy : Nat) (hm : Sub 214752298018 m) (h : Keeps m r s) :
    Keeps m r (messageEffect p copy s) := by
  unfold messageEffect
  extract_lets x7 x8 x9 x10 x11
  have h12 : Keeps m r x8 := by
    refine Keeps.upd_sec ?_ (hm 36 rfl) (fun hl => hl) (fun hr => hr)
    exact h
  clear_value x8
  have h13 : Keeps m r x9 := by
    refine Keeps.ite ?_ ?_
    · exact h12
    · refine secEvt_keeps _ (sub_of hm rfl) ?_
      exact h12
  clear_value x9
  have h14 : Keeps m r x10 := by
    refine secEvt_keeps _ (sub_of hm rfl) ?_
    exact h13
  clear_value x10
  split
  · refine takeOwner_keeps _ (sub_of hm rfl) ?_
    refine rootAbandon_keeps (sub_of hm rfl) ?_
    refine blowFuse_keeps _ (sub_of hm rfl) ?_
    refine secEvt_keeps _ (sub_of hm rfl) ?_
    exact h13
  · refine takeOwner_keeps _ (sub_of hm rfl) ?_
    exact h13
  · refine rootAbandon_keeps (sub_of hm rfl) ?_
    refine secEvt_keeps _ (sub_of hm rfl) ?_
    exact h13
  · refine rootAbandon_keeps (sub_of hm rfl) ?_
    refine blowFuse_keeps _ (sub_of hm rfl) ?_
    refine Keeps.upd_sec ?_ (hm 36 rfl) ?_ ?_
    · exact h14
    · exact fun _ => h13.lcn
    · exact fun _ => h13.retired
  · refine blowFuse_keeps _ (sub_of hm rfl) ?_
    refine Keeps.upd_sec ?_ (hm 36 rfl) (fun hl => hl) (fun hr => hr)
    exact h13
  · refine confirmShow_keeps _ _ (sub_of hm rfl) ?_
    exact h13
  · refine requestWarm_keeps _ (sub_of hm rfl) ?_
    refine append_keeps _ _ _ _ (sub_of hm rfl) ?_
    refine secEvt_keeps _ (sub_of hm rfl) ?_
    exact h13
  · exact h13

theorem signedGen_keeps {m : Nat} {r s : State} (seq : Nat) (forSeq : Nat) (rs : List CRec) (hm : Sub 2199023255552 m) (h : Keeps m r s) :
    Keeps m r (signedGen seq forSeq rs s).2 := by
  unfold signedGen
  extract_lets x8 x9 x10
  have h11 : Keeps m r x10.2 := by
    refine signIdentity_keeps _ (sub_of hm rfl) ?_
    exact h
  clear_value x10
  refine Keeps.mk2 ?_
  exact h11

theorem privWrite_keeps {m : Nat} {r s : State} (l : List CRec) (g : Nat) (hm : Sub 2199023256064 m) (h : Keeps m r s) :
    Keeps m r (privWrite l s g) := by
  unfold privWrite
  extract_lets x7 x8 x9 x10 x11 x12
  have h13 : Keeps m r x10.2 := by
    refine signedGen_keeps _ _ _ (sub_of hm rfl) ?_
    exact h
  clear_value x10
  have h14 : Keeps m r x12 := by
    subst x12
    exact h13
  clear_value x12
  refine Keeps.upd_store ?_ (hm 9 rfl) (fun w0 w => (memWf_memZero _ _ _ (memWf_memPut _ _ _ (memWf_memZero _ _ _ (memWf_memPut _ _ _ (memWf_memPut _ _ _ (memWf_memZero _ _ _ (h13.memOk w0).2.2.2.2.2)))))))
  exact h14

theorem privApply_keeps {m : Nat} {r s : State} (m0 : List Byte) (hm : Sub 2199027189282 m) (h : Keeps m r s) :
    Keeps m r (privApply m0 s) := by
  unfold privApply
  extract_lets x6 x7
  refine secRecLog_keeps _ _ _ _ (sub_of hm rfl) ?_
  refine Keeps.foldl _ _ (fun s8 a8 h8 => ?_) _ ?_
  · refine privWrite_keeps _ _ (sub_of hm rfl) ?_
    exact h8
  · exact h

theorem deliver_keeps {m : Nat} {r s : State} (m0 : List Byte) (ok : Bool) (hm : Sub 2413775554346 m) (h : Keeps m r s) :
    Keeps m r (deliver m0 ok s).2 := by
  unfold deliver
  extract_lets x7 x8 x9
  have h10 : Keeps m r x7.2 := by
    refine islandMessage_keeps _ (sub_of hm rfl) ?_
    exact h
  clear_value x7
  have h11 : Keeps m r x8 := by
    subst x8
    exact h10
  clear_value x8
  refine Keeps.ite2 ?_ ?_
  · refine Keeps.mk2 ?_
    refine secShow_keeps (sub_of hm rfl) ?_
    refine refused_keeps _ _ (sub_of hm rfl) ?_
    exact h10
  · split
    · refine Keeps.mk2 ?_
      exact h10
    · extract_lets x15 x16 x17
      have h18 : Keeps m r x15 := by
        refine Keeps.ite ?_ ?_
        · refine privApply_keeps _ (sub_of hm rfl) ?_
          exact h10
        · exact h10
      clear_value x15
      have h19 : Keeps m r x17 := by
        refine Keeps.upd_feram ?_ (hm 8 rfl) (fun w0 w => (memWf_memPut _ _ _ w.2.2.2.2.1))
        exact h18
      clear_value x17
      refine Keeps.ite2 ?_ ?_
      · refine Keeps.mk2 ?_
        refine secShow_keeps (sub_of hm rfl) ?_
        refine refused_keeps _ _ (sub_of hm rfl) ?_
        refine Keeps.upd_sec ?_ (hm 36 rfl) ?_ ?_
        · exact h11
        · exact fun _ => h10.lcn
        · exact fun _ => h10.retired
      · refine Keeps.mk2 ?_
        refine secShow_keeps (sub_of hm rfl) ?_
        refine messageEffect_keeps _ _ (sub_of hm rfl) ?_
        exact h19

theorem xferRefuse_keeps {m : Nat} {r s : State} (id : Nat) (code : Nat) (hm : Sub 206162363426 m) (h : Keeps m r s) :
    Keeps m r (xferRefuse id code s) := by
  unfold xferRefuse
  refine xferResult_keeps _ (sub_of hm rfl) ?_
  refine xferDrop_keeps (sub_of hm rfl) ?_
  refine secRecLog_keeps _ _ _ _ (sub_of hm rfl) ?_
  exact h

theorem xferAccept_keeps {m : Nat} {r s : State} (h0 : List Byte) (x : Xfer) (hm : Sub 68719477506 m) (h : Keeps m r s) :
    Keeps m r (xferAccept h0 x s) := by
  unfold xferAccept
  extract_lets x7 x8 x9 x10 x11
  have h12 : Keeps m r x9 := by
    refine setRb_keeps _ _ _ (sub_of hm rfl) ?_
    refine setRb_keeps _ _ _ (sub_of hm rfl) ?_
    refine setRf_keeps _ _ _ _ (sub_of hm rfl) ?_
    exact h
  clear_value x9
  have h13 : Keeps m r x10 := by
    refine putRecord_keeps _ (sub_of hm rfl) ?_
    exact h12
  clear_value x10
  refine Keeps.upd_store_sec ?_ (hm 9 rfl) (hm 36 rfl) (fun w0 w => (memWf_memPut _ _ _ (memWf_ite _ _ w.2.2.2.2.2 (memWf_memZero _ _ _ w.2.2.2.2.2)))) (fun hl => hl) (fun hr => hr)
  exact h13

theorem xferStored_keeps {m : Nat} {r s : State} (x : Xfer) (hm : Sub 206162363682 m) (h : Keeps m r s) :
    Keeps m r (xferStored x s) := by
  unfold xferStored
  extract_lets x6 x7 x8 x9
  have h10 : Keeps m r x7 := by
    refine putRecord_keeps _ (sub_of hm rfl) ?_
    exact h
  clear_value x7
  have h11 : Keeps m r x8 := by
    refine secRecLog_keeps _ _ _ _ (sub_of hm rfl) ?_
    refine secEvt_keeps _ (sub_of hm rfl) ?_
    exact h10
  clear_value x8
  refine Keeps.ite ?_ ?_
  · refine xferEnd_keeps _ (sub_of hm rfl) ?_
    exact h
  · refine Keeps.upd_sec ?_ (hm 36 rfl) (fun hl => hl) (fun hr => hr)
    exact h11

theorem storeChunk_keeps {m : Nat} {r s : State} (i : Nat) (bytes : List Byte) (x : Xfer) (hm : Sub 206162364194 m) (h : Keeps m r s) :
    Keeps m r (storeChunk i bytes x s).2 := by
  unfold storeChunk
  extract_lets x8 x9 x10 x11 x12 x13 x14
  have h15 : Keeps m r x12 := by
    refine setRf_keeps _ _ _ _ (sub_of hm rfl) ?_
    exact h
  clear_value x12
  have h16 : Keeps m r x14 := by
    refine Keeps.upd_store_sec ?_ (hm 9 rfl) (hm 36 rfl) (fun w0 w => (memWf_ite _ _ (h.memOk w0).2.2.2.2.2 (memWf_memPut _ _ _ (h.memOk w0).2.2.2.2.2))) ?_ ?_
    · exact h15
    · exact fun _ => h.lcn
    · exact fun _ => h.retired
  clear_value x14
  refine Keeps.ite2 ?_ ?_
  · refine Keeps.mk2 ?_
    refine xferEnd_keeps _ (sub_of hm rfl) ?_
    refine secRecLog_keeps _ _ _ _ (sub_of hm rfl) ?_
    exact h
  · refine Keeps.mk2 ?_
    refine Keeps.ite ?_ ?_
    · refine xferStored_keeps _ (sub_of hm rfl) ?_
      exact h16
    · exact h16

theorem completeBuild_keeps {m : Nat} {r s : State}  (hm : Sub 512 m) (h : Keeps m r s) :
    Keeps m r (completeBuild s) := by
  unfold completeBuild
  extract_lets x5 x6 x7
  refine Keeps.ite ?_ ?_
  · refine Keeps.upd_store ?_ (hm 9 rfl) (fun w0 w => (memWf_memZero _ _ _ (memWf_memCopy _ _ _ _ _ w.2.2.2.2.2 w.2.2.2.2.2)))
    exact h
  · refine Keeps.upd_store ?_ (hm 9 rfl) (fun w0 w => (memWf_memZero _ _ _ w.2.2.2.2.2))
    exact h

end Sys2Proof.Machine
end

