-- ==== Sys2Proof/Laws/Fabric.lean ====
section
/-! SUPPORT. What each function of Machine/Fabric.lean keeps of the state (Laws/Keeps.lean). -/

namespace Sys2Proof.Machine

theorem setLk_keeps {m : Nat} {r s : State} (l : Nat) (x : Link) (hm : Sub 137438953472 m) (h : Keeps m r s) :
    Keeps m r (State.setLk s l x) := by
  unfold State.setLk
  extract_lets x7
  refine Keeps.upd_fab ?_ (hm 37 rfl)
  exact h

theorem txPush_keeps {m : Nat} {r s : State} (l : Nat) (u : Nat) (ws : List Word) (hm : Sub 274881938538 m) (h : Keeps m r s) :
    Keeps m r (txPush l u ws s) := by
  unfold txPush
  split
  · refine Keeps.ite ?_ ?_
    · refine qPushAll_keeps _ _ _ (sub_of hm rfl) ?_
      exact h
    · exact h
  · exact h

theorem mkCell_keeps {m : Nat} {r s : State} (dest : Nat) (cls : Nat) (prio : Nat) (tenant : Nat) (type : Nat) (flags : Nat) (payload : List Byte) (hm : Sub 137438953472 m) (h : Keeps m r s) :
    Keeps m r (mkCell dest cls prio tenant type flags payload s).2 := by
  unfold mkCell
  extract_lets x12 x13 x14 x15
  refine Keeps.mk2 ?_
  refine Keeps.upd_fab ?_ (hm 37 rfl)
  exact h

theorem timeBit_keeps {m : Nat} {r s : State} (i : Nat) (b : Bool) (hm : Sub 2 m) (h : Keeps m r s) :
    Keeps m r (timeBit i b s) := by
  unfold timeBit
  refine setRb_keeps _ _ _ (sub_of hm rfl) ?_
  refine setRb_keeps _ _ _ (sub_of hm rfl) ?_
  exact h

theorem fabRec_keeps {m : Nat} {r s : State} (code : Nat) (sev : Nat) (subject : Nat) (d : List Word) (hm : Sub 3933218 m) (h : Keeps m r s) :
    Keeps m r (fabRec s code sev subject d) := by
  unfold fabRec
  refine logOnce_keeps _ _ _ _ _ (sub_of hm rfl) ?_
  exact h

theorem lockShow_keeps {m : Nat} {r s : State}  (hm : Sub 3933218 m) (h : Keeps m r s) :
    Keeps m r (lockShow s) := by
  unfold lockShow
  refine Keeps.ite ?_ ?_
  · exact h
  · refine fabRec_keeps _ _ _ _ (sub_of hm rfl) ?_
    refine timeBit_keeps _ _ (sub_of hm rfl) ?_
    exact h

theorem timeShow_keeps {m : Nat} {r s : State}  (hm : Sub 137442886690 m) (h : Keeps m r s) :
    Keeps m r (timeShow s) := by
  unfold timeShow
  extract_lets x5 x6 x7
  have h8 : Keeps m r x5 := by
    refine setRb_keeps _ _ _ (sub_of hm rfl) ?_
    exact h
  clear_value x5
  have h9 : Keeps m r x6 := by
    refine setRf_keeps _ _ _ _ (sub_of hm rfl) ?_
    exact h8
  clear_value x6
  have h10 : Keeps m r x7 := by
    subst x7
    split
    · extract_lets x13 x14
      have h15 : Keeps m r x13 := by
        refine setRb_keeps _ _ _ (sub_of hm rfl) ?_
        refine setRf_keeps _ _ _ _ (sub_of hm rfl) ?_
        exact h8
      clear_value x13
      refine setRf_keeps _ _ _ _ (sub_of hm rfl) ?_
      refine Keeps.upd_fab ?_ (hm 37 rfl)
      exact h15
    · refine Keeps.ite ?_ ?_
      · refine setRf_keeps _ _ _ _ (sub_of hm rfl) ?_
        exact h9
      · exact h9
  clear_value x7
  refine Keeps.ite ?_ ?_
  · refine lockShow_keeps (sub_of hm rfl) ?_
    exact h10
  · exact h10

theorem linksShow_keeps {m : Nat} {r s : State}  (hm : Sub 2 m) (h : Keeps m r s) :
    Keeps m r (linksShow s) := by
  unfold linksShow
  extract_lets x5 x6 x7 x8 x9
  refine setRb_keeps _ _ _ (sub_of hm rfl) ?_
  refine setRf_keeps _ _ _ _ (sub_of hm rfl) ?_
  refine setRf_keeps _ _ _ _ (sub_of hm rfl) ?_
  exact h

theorem setLkState_keeps {m : Nat} {r s : State} (l : Nat) (st : Nat) (hm : Sub 3933218 m) (h : Keeps m r s) :
    Keeps m r (setLkState l st s) := by
  unfold setLkState
  extract_lets x7 x8 x9 x10
  have h11 : Keeps m r x8 := by
    refine setRf_keeps _ _ _ _ (sub_of hm rfl) ?_
    exact h
  clear_value x8
  have h12 : Keeps m r x9 := by
    refine Keeps.ite ?_ ?_
    · refine fabRec_keeps _ _ _ _ (sub_of hm rfl) ?_
      refine orReg_keeps _ _ (sub_of hm rfl) ?_
      exact h11
    · exact h11
  clear_value x9
  have h13 : Keeps m r x10 := by
    refine Keeps.ite ?_ ?_
    · refine fabRec_keeps _ _ _ _ (sub_of hm rfl) ?_
      exact h12
    · exact h12
  clear_value x10
  refine linksShow_keeps (sub_of hm rfl) ?_
  exact h13

theorem fabShow_keeps {m : Nat} {r s : State} (l : Nat) (hm : Sub 1032 m) (h : Keeps m r s) :
    Keeps m r (fabShow l s) := by
  unfold fabShow
  refine republish_keeps _ (sub_of hm rfl) ?_
  exact h

theorem linkFresh_keeps {m : Nat} {r s : State} (l : Nat) (hm : Sub 137438953472 m) (h : Keeps m r s) :
    Keeps m r (linkFresh l s) := by
  unfold linkFresh
  extract_lets x6
  refine setLk_keeps _ _ (sub_of hm rfl) ?_
  exact h

theorem fabCommitted_keeps {m : Nat} {r s : State} (before : State) (hm : Sub 137442886698 m) (h : Keeps m r s) :
    Keeps m r (fabCommitted before s) := by
  unfold fabCommitted
  refine Keeps.foldl _ _ (fun s6 a6 h6 => ?_) _ ?_
  · extract_lets x9 x10
    refine fabShow_keeps _ (sub_of hm rfl) ?_
    refine Keeps.ite ?_ ?_
    · refine Keeps.ite ?_ ?_
      · refine setLkState_keeps _ _ (sub_of hm rfl) ?_
        refine linkFresh_keeps _ (sub_of hm rfl) ?_
        exact h6
      · exact h6
    · refine Keeps.ite ?_ ?_
      · refine setLkState_keeps _ _ (sub_of hm rfl) ?_
        refine linkFresh_keeps _ (sub_of hm rfl) ?_
        exact h6
      · refine Keeps.ite ?_ ?_
        · refine setLkState_keeps _ _ (sub_of hm rfl) ?_
          refine linkFresh_keeps _ (sub_of hm rfl) ?_
          exact h6
        · exact h6
  · refine timeShow_keeps (sub_of hm rfl) ?_
    exact h

theorem linksStart_keeps {m : Nat} {r s : State}  (hm : Sub 137438953474 m) (h : Keeps m r s) :
    Keeps m r (linksStart s) := by
  unfold linksStart
  refine linksShow_keeps (sub_of hm rfl) ?_
  refine Keeps.foldl _ _ (fun s5 a5 h5 => ?_) _ ?_
  · refine setRf_keeps _ _ _ _ (sub_of hm rfl) ?_
    refine linkFresh_keeps _ (sub_of hm rfl) ?_
    exact h5
  · exact h

theorem fabBoundary_keeps {m : Nat} {r s : State} (newMajor : Bool) (hm : Sub 2 m) (h : Keeps m r s) :
    Keeps m r (fabBoundary newMajor s) := by
  unfold fabBoundary
  extract_lets x6
  have h7 : Keeps m r x6 := by
    refine Keeps.ite ?_ ?_
    · refine setReg_keeps _ _ (sub_of hm rfl) ?_
      exact h
    · exact h
  clear_value x6
  refine Keeps.foldl _ _ (fun s8 a8 h8 => ?_) _ ?_
  · extract_lets x11
    have h12 : Keeps m r x11 := by
      refine Keeps.ite ?_ ?_
      · refine setRf_keeps _ _ _ _ (sub_of hm rfl) ?_
        exact h8
      · exact h8
    clear_value x11
    refine Keeps.ite ?_ ?_
    · refine setRf_keeps _ _ _ _ (sub_of hm rfl) ?_
      exact h12
    · exact h12
  · exact h7

theorem quarantine_keeps {m : Nat} {r s : State} (l : Nat) (cause : Nat) (hm : Sub 137442886690 m) (h : Keeps m r s) :
    Keeps m r (quarantine l cause s) := by
  unfold quarantine
  extract_lets x7 x8 x9 x10
  have h11 : Keeps m r x8 := by
    refine setRf_keeps _ _ _ _ (sub_of hm rfl) ?_
    refine setRf_keeps _ _ _ _ (sub_of hm rfl) ?_
    exact h
  clear_value x8
  have h12 : Keeps m r x10 := by
    refine setLk_keeps _ _ (sub_of hm rfl) ?_
    refine orReg_keeps _ _ (sub_of hm rfl) ?_
    refine satRf_keeps _ _ _ _ (sub_of hm rfl) ?_
    exact h11
  clear_value x10
  refine Keeps.ite ?_ ?_
  · refine fabRec_keeps _ _ _ _ (sub_of hm rfl) ?_
    refine setLkState_keeps _ _ (sub_of hm rfl) ?_
    exact h12
  · refine linksShow_keeps (sub_of hm rfl) ?_
    refine setLk_keeps _ _ (sub_of hm rfl) ?_
    exact h11

theorem violation_keeps {m : Nat} {r s : State} (l : Nat) (reg : Nat) (hi : Nat) (lo : Nat) (hm : Sub 137442886690 m) (h : Keeps m r s) :
    Keeps m r (violation l reg hi lo s) := by
  unfold violation
  extract_lets x9 x10
  have h11 : Keeps m r x9 := by
    refine satRf_keeps _ _ _ _ (sub_of hm rfl) ?_
    exact h
  clear_value x9
  have h12 : Keeps m r x10 := by
    refine satRf_keeps _ _ _ _ (sub_of hm rfl) ?_
    refine satRf_keeps _ _ _ _ (sub_of hm rfl) ?_
    exact h11
  clear_value x10
  split
  · refine Keeps.ite ?_ ?_
    · refine quarantine_keeps _ _ (sub_of hm rfl) ?_
      exact h12
    · exact h12
  · refine quarantine_keeps _ _ (sub_of hm rfl) ?_
    exact h11
  · exact h11

theorem rxPush_keeps {m : Nat} {r s : State} (l : Nat) (ws : List Word) (hm : Sub 274881938538 m) (h : Keeps m r s) :
    Keeps m r (rxPush l ws s) := by
  unfold rxPush
  extract_lets x7
  refine Keeps.ite ?_ ?_
  · refine islandPush_keeps _ _ _ (sub_of hm rfl) ?_
    exact h
  · refine fabRec_keeps _ _ _ _ (sub_of hm rfl) ?_
    refine orReg_keeps _ _ (sub_of hm rfl) ?_
    refine satRf_keeps _ _ _ _ (sub_of hm rfl) ?_
    exact h

theorem tsPorts_keeps {m : Nat} {r s : State} (l : Nat) (k : Nat) (ts : Nat) (hm : Sub 4031522 m) (h : Keeps m r s) :
    Keeps m r (tsPorts l k ts s) := by
  unfold tsPorts
  refine sendIn_keeps _ _ _ (sub_of hm rfl) ?_
  exact h

theorem cellReceive_keeps {m : Nat} {r s : State} (l : Nat) (slot : Nat) (ts : Nat) (ws : List Word) (hm : Sub 446680630378 m) (h : Keeps m r s) :
    Keeps m r (cellReceive l slot ts ws s) := by
  unfold cellReceive
  extract_lets x9 x10 x11 x12 x13
  have h14 : Keeps m r x10 := by
    refine addReg_keeps _ _ (sub_of hm rfl) ?_
    exact h
  clear_value x10
  have h15 : Keeps m r x12 := by
    refine Keeps.ite ?_ ?_
    · refine tsPorts_keeps _ _ _ (sub_of hm rfl) ?_
      refine setLk_keeps _ _ (sub_of hm rfl) ?_
      exact h14
    · exact h14
  clear_value x12
  have h16 : Keeps m r x13 := by
    refine rxPush_keeps _ _ (sub_of hm rfl) ?_
    exact h15
  clear_value x13
  refine Keeps.ite ?_ ?_
  · exact h
  · refine Keeps.ite ?_ ?_
    · refine fabShow_keeps _ (sub_of hm rfl) ?_
      refine violation_keeps _ _ _ _ (sub_of hm rfl) ?_
      exact h
    · refine Keeps.ite ?_ ?_
      · refine fabShow_keeps _ (sub_of hm rfl) ?_
        refine violation_keeps _ _ _ _ (sub_of hm rfl) ?_
        exact h
      · refine Keeps.ite ?_ ?_
        · exact h
        · refine Keeps.ite ?_ ?_
          · refine fabShow_keeps _ (sub_of hm rfl) ?_
            refine violation_keeps _ _ _ _ (sub_of hm rfl) ?_
            exact h
          · refine fabShow_keeps _ (sub_of hm rfl) ?_
            refine Keeps.ite ?_ ?_
            · exact h16
            · refine stationRefresh_keeps _ _ _ (sub_of hm rfl) ?_
              exact h16

theorem cellSend_keeps {m : Nat} {r s : State} (l : Nat) (ws : List Word) (hm : Sub 137438953474 m) (h : Keeps m r s) :
    Keeps m r (cellSend l ws s) := by
  unfold cellSend
  extract_lets x7
  refine setLk_keeps _ _ (sub_of hm rfl) ?_
  refine addReg_keeps _ _ (sub_of hm rfl) ?_
  exact h

theorem roundFree_keeps {m : Nat} {r s : State} (n : Int) (d : Nat) (hm : Sub 2199023255552 m) (h : Keeps m r s) :
    Keeps m r (roundFree n d s).2 := by
  unfold roundFree
  extract_lets x7
  have h8 : Keeps m r x7.2 := by
    refine free_keeps (sub_of hm rfl) ?_
    exact h
  clear_value x7
  refine Keeps.ite2 ?_ ?_
  · refine Keeps.mk2 ?_
    exact h
  · refine Keeps.mk2 ?_
    exact h8

theorem showRate_keeps {m : Nat} {r s : State} (n : Int) (d : Nat) (hm : Sub 2199023255554 m) (h : Keeps m r s) :
    Keeps m r (showRate n d s) := by
  unfold showRate
  extract_lets x7
  have h8 : Keeps m r x7.2 := by
    refine roundFree_keeps _ _ (sub_of hm rfl) ?_
    exact h
  clear_value x7
  refine setReg_keeps _ _ (sub_of hm rfl) ?_
  exact h8

theorem timeServo_keeps {m : Nat} {r s : State} (t2 : Nat) (hm : Sub 2336499696674 m) (h : Keeps m r s) :
    Keeps m r (timeServo t2 s) := by
  unfold timeServo
  extract_lets x6 x7 x8 x9 x10 x11 x12 x13 x14 x15 x16 x17 x18 x19 x20 x21 x22 x23
  have h24 : Keeps m r x7.2 := by
    refine roundFree_keeps _ _ (sub_of hm rfl) ?_
    exact h
  clear_value x7
  have h25 : Keeps m r x8 := by
    refine fabRec_keeps _ _ _ _ (sub_of hm rfl) ?_
    exact h24
  clear_value x8
  have h26 : Keeps m r x10 := by
    refine fabRec_keeps _ _ _ _ (sub_of hm rfl) ?_
    refine orReg_keeps _ _ (sub_of hm rfl) ?_
    exact h
  clear_value x10
  have h27 : Keeps m r x11 := by
    refine timeBit_keeps _ _ (sub_of hm rfl) ?_
    exact h26
  clear_value x11
  have h28 : Keeps m r x13 := by
    refine timeBit_keeps _ _ (sub_of hm rfl) ?_
    exact h
  clear_value x13
  have h29 : Keeps m r x15.2 := by
    refine free_keeps (sub_of hm rfl) ?_
    exact h28
  clear_value x15
  have h30 : Keeps m r x17.2 := by
    refine free_keeps (sub_of hm rfl) ?_
    exact h29
  clear_value x17
  have h31 : Keeps m r x18 := by
    subst x18
    exact h30
  clear_value x18
  have h32 : Keeps m r x20 := by
    refine Keeps.upd_fab ?_ (hm 37 rfl)
    exact h31
  clear_value x20
  refine Keeps.ite ?_ ?_
  · refine Keeps.upd_fabTime_fab ?_ (hm 25 rfl) (hm 37 rfl)
    exact h25
  · refine Keeps.ite ?_ ?_
    · refine Keeps.upd_fab ?_ (hm 37 rfl)
      exact h27
    · refine Keeps.ite ?_ ?_
      · refine setReg_keeps _ _ (sub_of hm rfl) ?_
        exact h32
      · refine showRate_keeps _ _ (sub_of hm rfl) ?_
        refine Keeps.upd_fab ?_ (hm 37 rfl)
        exact h28

theorem fabWindow_keeps {m : Nat} {r s : State}  (hm : Sub 1034 m) (h : Keeps m r s) :
    Keeps m r (fabWindow s) := by
  unfold fabWindow
  refine republish_keeps _ (sub_of hm rfl) ?_
  refine publish_keeps _ (sub_of hm rfl) ?_
  exact h

theorem popCell_keeps {m : Nat} {r s : State} (q : Nat) (x1 : Nat) (hm : Sub 274881946666 m) (h : Keeps m r s) :
    Keeps m r (popCell q x1 s).2 := by
  induction x1 generalizing s with | zero => ?_ | succ k ih => ?_
  · simp -zeta only [popCell]
    exact h
  · simp -zeta only [popCell]
    extract_lets x8 x9
    have h10 : Keeps m r x8.2 := by
      refine qPopOut_keeps _ (sub_of hm rfl) ?_
      exact h
    clear_value x8
    have h11 : Keeps m r x9.2 := by
      refine ih ?_
      exact h10
    clear_value x9
    refine Keeps.mk2 ?_
    exact h11

theorem txPop_keeps {m : Nat} {r s : State} (l : Nat) (u : Nat) (hm : Sub 274881946666 m) (h : Keeps m r s) :
    Keeps m r (txPop l u s).2 := by
  unfold txPop
  split
  · refine popCell_keeps _ _ (sub_of hm rfl) ?_
    exact h
  · refine Keeps.mk2 ?_
    exact h

theorem discardHeads_keeps {m : Nat} {r s : State} (l : Nat) (u : Nat) (x2 : Nat) (hm : Sub 274881946666 m) (h : Keeps m r s) :
    Keeps m r (discardHeads l u x2 s) := by
  induction x2 generalizing s with | zero => ?_ | succ k ih => ?_
  · simp -zeta only [discardHeads]
    exact h
  · simp -zeta only [discardHeads]
    refine Keeps.ite ?_ ?_
    · refine ih ?_
      refine satRf_keeps _ _ _ _ (sub_of hm rfl) ?_
      refine txPop_keeps _ _ (sub_of hm rfl) ?_
      exact h
    · exact h

theorem discardAll_keeps {m : Nat} {r s : State} (l : Nat) (hm : Sub 274881946666 m) (h : Keeps m r s) :
    Keeps m r (discardAll l s) := by
  unfold discardAll
  refine Keeps.ite ?_ ?_
  · exact h
  · refine Keeps.foldl _ _ (fun s6 a6 h6 => ?_) _ ?_
    · refine discardHeads_keeps _ _ _ (sub_of hm rfl) ?_
      exact h6
    · exact h

theorem discoveryUp_keeps {m : Nat} {r s : State} (l : Nat) (hm : Sub 3933218 m) (h : Keeps m r s) :
    Keeps m r (discoveryUp l s) := by
  unfold discoveryUp
  refine Keeps.ite ?_ ?_
  · refine setLkState_keeps _ _ (sub_of hm rfl) ?_
    exact h
  · exact h

theorem holdover_keeps {m : Nat} {r s : State}  (hm : Sub 2336466142250 m) (h : Keeps m r s) :
    Keeps m r (holdover s) := by
  unfold holdover
  extract_lets x5 x6 x7
  have h8 : Keeps m r x5 := by
    refine showRate_keeps _ _ (sub_of hm rfl) ?_
    refine timeBit_keeps _ _ (sub_of hm rfl) ?_
    refine orReg_keeps _ _ (sub_of hm rfl) ?_
    exact h
  clear_value x5
  have h9 : Keeps m r x7 := by
    refine Keeps.upd_fab ?_ (hm 37 rfl)
    exact h8
  clear_value x7
  refine Keeps.ite ?_ ?_
  · exact h
  · refine republish_keeps _ (sub_of hm rfl) ?_
    refine fabRec_keeps _ _ _ _ (sub_of hm rfl) ?_
    exact h9

theorem identityPositionSend_keeps {m : Nat} {r s : State} (l : Nat) (hm : Sub 412320892010 m) (h : Keeps m r s) :
    Keeps m r (identityPositionSend l s) := by
  unfold identityPositionSend
  extract_lets x6 x7
  have h8 : Keeps m r x6.2 := by
    refine mkCell_keeps _ _ _ _ _ _ _ (sub_of hm rfl) ?_
    exact h
  clear_value x6
  have h9 : Keeps m r x7.2 := by
    refine mkCell_keeps _ _ _ _ _ _ _ (sub_of hm rfl) ?_
    exact h8
  clear_value x7
  refine Keeps.ite ?_ ?_
  · exact h
  · refine Keeps.ite ?_ ?_
    · refine txPush_keeps _ _ _ (sub_of hm rfl) ?_
      refine txPush_keeps _ _ _ (sub_of hm rfl) ?_
      exact h9
    · refine fabShow_keeps _ (sub_of hm rfl) ?_
      refine cellSend_keeps _ _ (sub_of hm rfl) ?_
      refine cellSend_keeps _ _ (sub_of hm rfl) ?_
      exact h9

theorem linkStatus_keeps {m : Nat} {r s : State} (l : Nat) (hm : Sub 2199027287074 m) (h : Keeps m r s) :
    Keeps m r (linkStatus l s) := by
  unfold linkStatus
  extract_lets x6
  have h7 : Keeps m r x6.2 := by
    refine free_keeps (sub_of hm rfl) ?_
    exact h
  clear_value x6
  refine sendIn_keeps _ _ _ (sub_of hm rfl) ?_
  exact h7

theorem linkLoss_keeps {m : Nat} {r s : State} (l : Nat) (hm : Sub 2336466240554 m) (h : Keeps m r s) :
    Keeps m r (linkLoss l s) := by
  unfold linkLoss
  refine Keeps.ite ?_ ?_
  · exact h
  · refine fabShow_keeps _ (sub_of hm rfl) ?_
    refine setLkState_keeps _ _ (sub_of hm rfl) ?_
    refine linkFresh_keeps _ (sub_of hm rfl) ?_
    refine linkStatus_keeps _ (sub_of hm rfl) ?_
    exact h

theorem linkSignalPresent_keeps {m : Nat} {r s : State} (l : Nat) (hm : Sub 2199027287082 m) (h : Keeps m r s) :
    Keeps m r (linkSignalPresent l s) := by
  unfold linkSignalPresent
  refine Keeps.ite ?_ ?_
  · refine fabShow_keeps _ (sub_of hm rfl) ?_
    refine setLkState_keeps _ _ (sub_of hm rfl) ?_
    refine linkStatus_keeps _ (sub_of hm rfl) ?_
    exact h
  · exact h

theorem lockStep_keeps {m : Nat} {r s : State}  (hm : Sub 137442886690 m) (h : Keeps m r s) :
    Keeps m r (lockStep s) := by
  unfold lockStep
  extract_lets x5 x6 x7 x8 x9
  have h10 : Keeps m r x9 := by
    refine Keeps.upd_fab ?_ (hm 37 rfl)
    exact h
  clear_value x9
  refine Keeps.ite ?_ ?_
  · refine lockShow_keeps (sub_of hm rfl) ?_
    exact h10
  · refine Keeps.ite ?_ ?_
    · refine timeBit_keeps _ _ (sub_of hm rfl) ?_
      exact h10
    · exact h10

theorem parentExchange_keeps {m : Nat} {r s : State} (l : Nat) (t2 : Nat) (theta2 : Int) (hm : Sub 2336499696674 m) (h : Keeps m r s) :
    Keeps m r (parentExchange l t2 theta2 s) := by
  unfold parentExchange
  extract_lets x8 x9 x10 x11 x12
  have h13 : Keeps m r x9 := by
    refine Keeps.upd_fab ?_ (hm 37 rfl)
    exact h
  clear_value x9
  have h14 : Keeps m r x10.2 := by
    refine roundFree_keeps _ _ (sub_of hm rfl) ?_
    exact h13
  clear_value x10
  have h15 : Keeps m r x11 := by
    refine setRf_keeps _ _ _ _ (sub_of hm rfl) ?_
    refine setReg_keeps _ _ (sub_of hm rfl) ?_
    exact h14
  clear_value x11
  have h16 : Keeps m r x12 := by
    refine setReg_keeps _ _ (sub_of hm rfl) ?_
    refine timeBit_keeps _ _ (sub_of hm rfl) ?_
    exact h15
  clear_value x12
  refine lockStep_keeps (sub_of hm rfl) ?_
  refine timeServo_keeps _ (sub_of hm rfl) ?_
  exact h16

theorem onParent_keeps {m : Nat} {r s : State} (l : Nat) (t2 : Nat) (theta2 : Int) (hm : Sub 2336499696674 m) (h : Keeps m r s) :
    Keeps m r (onParent l t2 theta2 s) := by
  unfold onParent
  split
  · refine Keeps.ite ?_ ?_
    · refine parentExchange_keeps _ _ _ (sub_of hm rfl) ?_
      exact h
    · exact h
  · exact h

theorem position_keeps {m : Nat} {r s : State} (l : Nat) (addr : Nat) (nlink : Nat) (expAddr : Nat) (expLink : Nat) (hash : Nat) (stratum : Nat) (hm : Sub 137442886698 m) (h : Keeps m r s) :
    Keeps m r (position l addr nlink expAddr expLink hash stratum s) := by
  unfold position
  extract_lets x12 x13 x14 x15 x16 x17 x18
  have h19 : Keeps m r x14 := by
    refine setLk_keeps _ _ (sub_of hm rfl) ?_
    exact h
  clear_value x14
  have h20 : Keeps m r x18 := by
    refine Keeps.ite ?_ ?_
    · refine setLk_keeps _ _ (sub_of hm rfl) ?_
      exact h19
    · exact h19
  clear_value x18
  refine Keeps.ite ?_ ?_
  · exact h
  · refine Keeps.ite ?_ ?_
    · refine fabShow_keeps _ (sub_of hm rfl) ?_
      refine fabRec_keeps _ _ _ _ (sub_of hm rfl) ?_
      refine quarantine_keeps _ _ (sub_of hm rfl) ?_
      refine orReg_keeps _ _ (sub_of hm rfl) ?_
      exact h20
    · clear_value x12
      split
      · rename_i y21
        refine Keeps.ite ?_ ?_
        · refine fabShow_keeps _ (sub_of hm rfl) ?_
          refine setLkState_keeps _ _ (sub_of hm rfl) ?_
          refine setLk_keeps _ _ (sub_of hm rfl) ?_
          exact h19
        · exact h19
      · rename_i y23 y24
        refine fabShow_keeps _ (sub_of hm rfl) ?_
        refine discoveryUp_keeps _ (sub_of hm rfl) ?_
        refine linksShow_keeps (sub_of hm rfl) ?_
        refine setLk_keeps _ _ (sub_of hm rfl) ?_
        exact h19

theorem probationClean_keeps {m : Nat} {r s : State} (l : Nat) (hm : Sub 3933226 m) (h : Keeps m r s) :
    Keeps m r (probationClean l s) := by
  unfold probationClean
  refine Keeps.ite ?_ ?_
  · refine fabShow_keeps _ (sub_of hm rfl) ?_
    refine setLkState_keeps _ _ (sub_of hm rfl) ?_
    refine setRf_keeps _ _ _ _ (sub_of hm rfl) ?_
    exact h
  · exact h

theorem timeSend_keeps {m : Nat} {r s : State} (l : Nat) (ts : Nat) (hm : Sub 137442984994 m) (h : Keeps m r s) :
    Keeps m r (timeSend l ts s) := by
  unfold timeSend
  extract_lets x7 x8 x9 x10 x11
  have h12 : Keeps m r x9.2 := by
    refine mkCell_keeps _ _ _ _ _ _ _ (sub_of hm rfl) ?_
    exact h
  clear_value x9
  have h13 : Keeps m r x10 := by
    refine cellSend_keeps _ _ (sub_of hm rfl) ?_
    exact h12
  clear_value x10
  refine tsPorts_keeps _ _ _ (sub_of hm rfl) ?_
  refine setLk_keeps _ _ (sub_of hm rfl) ?_
  exact h13

theorem txSend_keeps {m : Nat} {r s : State} (l : Nat) (u : Nat) (ts : Nat) (hm : Sub 412320900138 m) (h : Keeps m r s) :
    Keeps m r (txSend l u ts s) := by
  unfold txSend
  extract_lets x8
  have h9 : Keeps m r x8.2 := by
    refine txPop_keeps _ _ (sub_of hm rfl) ?_
    exact h
  clear_value x8
  refine cellSend_keeps _ _ (sub_of hm rfl) ?_
  exact h9

theorem slotStart_keeps {m : Nat} {r s : State} (l : Nat) (slot : Nat) (hm : Sub 412320900138 m) (h : Keeps m r s) :
    Keeps m r (slotStart l slot s) := by
  unfold slotStart
  extract_lets x7 x8 x9
  have h10 : Keeps m r x7 := by
    refine discardAll_keeps _ (sub_of hm rfl) ?_
    exact h
  clear_value x7
  refine Keeps.ite ?_ ?_
  · exact h
  · refine Keeps.ite ?_ ?_
    · refine fabShow_keeps _ (sub_of hm rfl) ?_
      exact h10
    · refine fabShow_keeps _ (sub_of hm rfl) ?_
      split
      · refine Keeps.ite ?_ ?_
        · refine txSend_keeps _ _ _ (sub_of hm rfl) ?_
          exact h10
        · refine Keeps.ite ?_ ?_
          · refine fabRec_keeps _ _ _ _ (sub_of hm rfl) ?_
            refine orReg_keeps _ _ (sub_of hm rfl) ?_
            refine satRf_keeps _ _ _ _ (sub_of hm rfl) ?_
            exact h10
          · exact h10
      · refine Keeps.ite ?_ ?_
        · refine timeSend_keeps _ _ (sub_of hm rfl) ?_
          exact h10
        · exact h10
      · refine Keeps.ite ?_ ?_
        · refine txSend_keeps _ _ _ (sub_of hm rfl) ?_
          exact h10
        · refine Keeps.ite ?_ ?_
          · refine txSend_keeps _ _ _ (sub_of hm rfl) ?_
            exact h10
          · refine Keeps.ite ?_ ?_
            · refine txSend_keeps _ _ _ (sub_of hm rfl) ?_
              exact h10
            · exact h10
      · exact h10

theorem symbolsAligned_keeps {m : Nat} {r s : State} (l : Nat) (swap : Bool) (inv : Bool) (hm : Sub 2340761207850 m) (h : Keeps m r s) :
    Keeps m r (symbolsAligned l swap inv s) := by
  unfold symbolsAligned
  extract_lets x8 x9 x10
  have h11 : Keeps m r x9 := by
    refine linkFresh_keeps _ (sub_of hm rfl) ?_
    refine linkStatus_keeps _ (sub_of hm rfl) ?_
    exact h
  clear_value x9
  refine Keeps.ite ?_ ?_
  · refine Keeps.upd_pair ?_ (hm 32 rfl)
    exact h
  · refine Keeps.ite ?_ ?_
    · refine fabShow_keeps _ (sub_of hm rfl) ?_
      refine setLkState_keeps _ _ (sub_of hm rfl) ?_
      refine setLk_keeps _ _ (sub_of hm rfl) ?_
      exact h11
    · exact h

theorem timeCellBeforeRelease_keeps {m : Nat} {r s : State} (l : Nat) (hm : Sub 137442985002 m) (h : Keeps m r s) :
    Keeps m r (timeCellBeforeRelease l s) := by
  unfold timeCellBeforeRelease
  refine Keeps.ite ?_ ?_
  · exact h
  · refine fabShow_keeps _ (sub_of hm rfl) ?_
    refine timeSend_keeps _ _ (sub_of hm rfl) ?_
    exact h

theorem timeExchange_keeps {m : Nat} {r s : State} (l : Nat) (t1 : Nat) (t2 : Nat) (t3 : Nat) (t4 : Nat) (stratum : Nat) (hm : Sub 2336499696682 m) (h : Keeps m r s) :
    Keeps m r (timeExchange l t1 t2 t3 t4 stratum s) := by
  unfold timeExchange
  extract_lets x11 x12 x13 x14 x15 x16 x17 x18 x19 x20 x21
  have h22 : Keeps m r x12 := by
    refine setLk_keeps _ _ (sub_of hm rfl) ?_
    exact h
  clear_value x12
  have h23 : Keeps m r x15.2 := by
    refine roundFree_keeps _ _ (sub_of hm rfl) ?_
    exact h22
  clear_value x15
  have h24 : Keeps m r x16.2 := by
    refine roundFree_keeps _ _ (sub_of hm rfl) ?_
    exact h23
  clear_value x16
  have h25 : Keeps m r x17 := by
    refine setRf_keeps _ _ _ _ (sub_of hm rfl) ?_
    refine setReg_keeps _ _ (sub_of hm rfl) ?_
    exact h24
  clear_value x17
  have h26 : Keeps m r x20 := by
    refine timeShow_keeps (sub_of hm rfl) ?_
    refine discoveryUp_keeps _ (sub_of hm rfl) ?_
    refine setLk_keeps _ _ (sub_of hm rfl) ?_
    exact h25
  clear_value x20
  have h27 : Keeps m r x21 := by
    refine onParent_keeps _ _ _ (sub_of hm rfl) ?_
    exact h26
  clear_value x21
  refine Keeps.ite ?_ ?_
  · exact h
  · refine Keeps.ite ?_ ?_
    · refine fabShow_keeps _ (sub_of hm rfl) ?_
      refine timeShow_keeps (sub_of hm rfl) ?_
      exact h22
    · refine fabShow_keeps _ (sub_of hm rfl) ?_
      refine timeShow_keeps (sub_of hm rfl) ?_
      refine Keeps.ite ?_ ?_
      · refine quarantine_keeps _ _ (sub_of hm rfl) ?_
        exact h27
      · exact h27

theorem execCellReceive_keeps {m : Nat} {r s : State} (l : Fin 8) (slot : Fin 128) (ts : BitVec 64) (ws : List Word) (hm : Sub 446680630378 m) (h : Keeps m r s) :
    KeepsO m r (execCellReceive l slot ts ws s) := by
  unfold execCellReceive
  refine KeepsO.guarded ?_
  refine Keeps.ite ?_ ?_
  · exact h
  · refine cellReceive_keeps _ _ _ _ (sub_of hm rfl) ?_
    exact h

theorem execHoldover_keeps {m : Nat} {r s : State}  (hm : Sub 2336466142250 m) (h : Keeps m r s) :
    KeepsO m r (execHoldover s) := by
  unfold execHoldover
  refine KeepsO.next ?_
  refine Keeps.ite ?_ ?_
  · exact h
  · refine holdover_keeps (sub_of hm rfl) ?_
    exact h

theorem execIdentityPositionSend_keeps {m : Nat} {r s : State} (l : Fin 8) (hm : Sub 412320892010 m) (h : Keeps m r s) :
    KeepsO m r (execIdentityPositionSend l s) := by
  unfold execIdentityPositionSend
  refine KeepsO.next ?_
  refine Keeps.ite ?_ ?_
  · exact h
  · refine identityPositionSend_keeps _ (sub_of hm rfl) ?_
    exact h

theorem execLinkLoss_keeps {m : Nat} {r s : State} (l : Fin 8) (hm : Sub 2336466240554 m) (h : Keeps m r s) :
    KeepsO m r (execLinkLoss l s) := by
  unfold execLinkLoss
  refine KeepsO.next ?_
  refine linkLoss_keeps _ (sub_of hm rfl) ?_
  exact h

theorem execLinkSignalPresent_keeps {m : Nat} {r s : State} (l : Fin 8) (hm : Sub 2199027287082 m) (h : Keeps m r s) :
    KeepsO m r (execLinkSignalPresent l s) := by
  unfold execLinkSignalPresent
  refine KeepsO.next ?_
  refine Keeps.ite ?_ ?_
  · exact h
  · refine linkSignalPresent_keeps _ (sub_of hm rfl) ?_
    exact h

theorem execPosition_keeps {m : Nat} {r s : State} (l : Fin 8) (addr : BitVec 16) (nlink : BitVec 8) (expAddr : BitVec 16) (expLink : BitVec 8) (hash : BitVec 64) (stratum : BitVec 8) (hm : Sub 137442886698 m) (h : Keeps m r s) :
    KeepsO m r (execPosition l addr nlink expAddr expLink hash stratum s) := by
  unfold execPosition
  refine KeepsO.next ?_
  refine Keeps.ite ?_ ?_
  · exact h
  · refine position_keeps _ _ _ _ _ _ _ (sub_of hm rfl) ?_
    exact h

theorem execProbationClean_keeps {m : Nat} {r s : State} (l : Fin 8) (hm : Sub 3933226 m) (h : Keeps m r s) :
    KeepsO m r (execProbationClean l s) := by
  unfold execProbationClean
  refine KeepsO.next ?_
  refine Keeps.ite ?_ ?_
  · exact h
  · refine probationClean_keeps _ (sub_of hm rfl) ?_
    exact h

theorem execSlotStart_keeps {m : Nat} {r s : State} (l : Fin 8) (slot : Fin 96) (hm : Sub 412320900138 m) (h : Keeps m r s) :
    KeepsO m r (execSlotStart l slot s) := by
  unfold execSlotStart
  refine KeepsO.next ?_
  refine Keeps.ite ?_ ?_
  · exact h
  · refine slotStart_keeps _ _ (sub_of hm rfl) ?_
    exact h

theorem execSymbolsAligned_keeps {m : Nat} {r s : State} (l : Fin 9) (swap : Bool) (inverted : Bool) (hm : Sub 2340761207850 m) (h : Keeps m r s) :
    KeepsO m r (execSymbolsAligned l swap inverted s) := by
  unfold execSymbolsAligned
  refine KeepsO.next ?_
  refine Keeps.ite ?_ ?_
  · exact h
  · refine symbolsAligned_keeps _ _ _ (sub_of hm rfl) ?_
    exact h

theorem execTimeCellSendBeforeRelease_keeps {m : Nat} {r s : State} (l : Fin 8) (hm : Sub 137442985002 m) (h : Keeps m r s) :
    KeepsO m r (execTimeCellSendBeforeRelease l s) := by
  unfold execTimeCellSendBeforeRelease
  refine KeepsO.next ?_
  refine Keeps.ite ?_ ?_
  · exact h
  · refine timeCellBeforeRelease_keeps _ (sub_of hm rfl) ?_
    exact h

theorem execTimeExchange_keeps {m : Nat} {r s : State} (l : Fin 8) (t1 : BitVec 64) (t2 : BitVec 64) (t3 : BitVec 64) (t4 : BitVec 64) (stratum : BitVec 8) (hm : Sub 2336499696682 m) (h : Keeps m r s) :
    KeepsO m r (execTimeExchange l t1 t2 t3 t4 stratum s) := by
  unfold execTimeExchange
  refine KeepsO.next ?_
  refine Keeps.ite ?_ ?_
  · exact h
  · refine timeExchange_keeps _ _ _ _ _ _ (sub_of hm rfl) ?_
    exact h

end Sys2Proof.Machine
end

