-- ==== Sys2Proof/Laws/FabRoute.lean ====
section
/-! SUPPORT. What each function of Machine/FabRoute.lean keeps of the state (Laws/Keeps.lean). -/

namespace Sys2Proof.Machine

theorem freePrio_keeps {m : Nat} {r s : State}  (hm : Sub 2199023255552 m) (h : Keeps m r s) :
    Keeps m r (freePrio s).2 := by
  unfold freePrio
  extract_lets x5
  have h6 : Keeps m r x5.2 := by
    refine free_keeps (sub_of hm rfl) ?_
    exact h
  clear_value x5
  refine Keeps.mk2 ?_
  exact h6

theorem coalPut_keeps {m : Nat} {r s : State} (i : Nat) (e : Option Coal) (hm : Sub 137438953472 m) (h : Keeps m r s) :
    Keeps m r (coalPut s i e) := by
  unfold coalPut
  extract_lets x7 x8
  refine Keeps.upd_fab ?_ (hm 37 rfl)
  exact h

theorem sendByTable_keeps {m : Nat} {r s : State} (ws : List Word) (hm : Sub 274881938538 m) (h : Keeps m r s) :
    Keeps m r (sendByTable ws s) := by
  unfold sendByTable
  split
  · extract_lets x10 x11
    have h12 : Keeps m r x11 := by
      subst x11
      split
      · refine txPush_keeps _ _ _ (sub_of hm rfl) ?_
        exact h
      · exact h
    clear_value x11
    refine Keeps.ite ?_ ?_
    · refine addReg_keeps _ _ (sub_of hm rfl) ?_
      exact h12
    · exact h12
  · refine fabRec_keeps _ _ _ _ (sub_of hm rfl) ?_
    refine orReg_keeps _ _ (sub_of hm rfl) ?_
    refine satRf_keeps _ _ _ _ (sub_of hm rfl) ?_
    exact h

theorem routeCell_keeps {m : Nat} {r s : State} (arrival : Option Nat) (ws : List Word) (hm : Sub 412320892010 m) (h : Keeps m r s) :
    Keeps m r (routeCell arrival ws s) := by
  unfold routeCell
  refine Keeps.ite ?_ ?_
  · exact h
  · split
    · refine republish_keeps _ (sub_of hm rfl) ?_
      refine sendByTable_keeps _ (sub_of hm rfl) ?_
      exact h
    · refine Keeps.ite ?_ ?_
      · refine fabShow_keeps _ (sub_of hm rfl) ?_
        refine violation_keeps _ _ _ _ (sub_of hm rfl) ?_
        exact h
      · refine fabShow_keeps _ (sub_of hm rfl) ?_
        refine sendByTable_keeps _ (sub_of hm rfl) ?_
        exact h

theorem originate_keeps {m : Nat} {r s : State} (dest : Nat) (tenant : Nat) (type : Nat) (flags : Nat) (payload : List Byte) (hm : Sub 2611344147562 m) (h : Keeps m r s) :
    Keeps m r (originate dest tenant type flags payload s) := by
  unfold originate
  extract_lets x10 x11
  have h12 : Keeps m r x10.2 := by
    refine freePrio_keeps (sub_of hm rfl) ?_
    exact h
  clear_value x10
  have h13 : Keeps m r x11.2 := by
    refine mkCell_keeps _ _ _ _ _ _ _ (sub_of hm rfl) ?_
    exact h12
  clear_value x11
  refine routeCell_keeps _ _ (sub_of hm rfl) ?_
  exact h13

theorem coalFlush_keeps {m : Nat} {r s : State} (i : Nat) (hm : Sub 2611344147562 m) (h : Keeps m r s) :
    Keeps m r (coalFlush i s) := by
  unfold coalFlush
  extract_lets x6 x7
  have h8 : Keeps m r x6 := by
    refine coalPut_keeps _ _ (sub_of hm rfl) ?_
    exact h
  clear_value x6
  have h9 : Keeps m r x7 := by
    refine setRf_keeps _ _ _ _ (sub_of hm rfl) ?_
    exact h8
  clear_value x7
  split
  · exact h
  · extract_lets x13
    refine Keeps.ite ?_ ?_
    · exact h8
    · refine originate_keeps _ _ _ _ _ (sub_of hm rfl) ?_
      exact h9

theorem coalRoom_keeps {m : Nat} {r s : State}  (hm : Sub 2611344147562 m) (h : Keeps m r s) :
    Keeps m r (coalRoom s) := by
  unfold coalRoom
  refine Keeps.ite ?_ ?_
  · exact h
  · split
    · exact h
    · extract_lets x9
      have h10 : Keeps m r x9 := by
        refine coalFlush_keeps _ (sub_of hm rfl) ?_
        refine satRf_keeps _ _ _ _ (sub_of hm rfl) ?_
        refine orReg_keeps _ _ (sub_of hm rfl) ?_
        exact h
      clear_value x9
      refine fabRec_keeps _ _ _ _ (sub_of hm rfl) ?_
      exact h10

theorem coalShow_keeps {m : Nat} {r s : State}  (hm : Sub 1034 m) (h : Keeps m r s) :
    Keeps m r (coalShow s) := by
  unfold coalShow
  refine republish_keeps _ (sub_of hm rfl) ?_
  refine setRf_keeps _ _ _ _ (sub_of hm rfl) ?_
  exact h

theorem coalesce_keeps {m : Nat} {r s : State} (r0 : FaultRep) (dest : Nat) (send : State → State) (hm : Sub 2611344147562 m) (h : Keeps m r s) (hsend : ∀ a0, Keeps m r a0 → Keeps m r (send a0)) :
    Keeps m r (coalesce r0 dest send s) := by
  unfold coalesce
  extract_lets x9 x10 x11 x12
  have h13 : Keeps m r x9 := by
    refine coalRoom_keeps (sub_of hm rfl) ?_
    exact h
  clear_value x9
  have h14 : Keeps m r x12 := by
    refine coalPut_keeps _ _ (sub_of hm rfl) ?_
    exact h13
  clear_value x12
  split
  · refine coalShow_keeps (sub_of hm rfl) ?_
    refine hsend _ ?_
    refine setRf_keeps _ _ _ _ (sub_of hm rfl) ?_
    exact h14
  · extract_lets x19 x20
    refine coalShow_keeps (sub_of hm rfl) ?_
    refine coalPut_keeps _ _ (sub_of hm rfl) ?_
    exact h

theorem coalesceFlush_keeps {m : Nat} {r s : State}  (hm : Sub 2611344147562 m) (h : Keeps m r s) :
    Keeps m r (coalesceFlush s) := by
  unfold coalesceFlush
  refine coalShow_keeps (sub_of hm rfl) ?_
  refine Keeps.foldl _ _ (fun s5 a5 h5 => ?_) _ ?_
  · refine coalFlush_keeps _ (sub_of hm rfl) ?_
    exact h5
  · exact h

theorem faultOwn_keeps {m : Nat} {r s : State} (subject : Nat) (fclass : Nat) (detail : List Byte) (hm : Sub 2611344147562 m) (h : Keeps m r s) :
    Keeps m r (faultOwn subject fclass detail s) := by
  unfold faultOwn
  extract_lets x8 x9
  refine Keeps.ite ?_ ?_
  · exact h
  · refine coalesce_keeps _ _ _ (sub_of hm rfl) ?_ ?_
    · exact h
    · intro q10 q11
      refine originate_keeps _ _ _ _ _ (sub_of hm rfl) ?_
      exact q11

theorem faultReport_keeps {m : Nat} {r s : State} (arrival : Option Nat) (ws : List Word) (hm : Sub 2611344147562 m) (h : Keeps m r s) :
    Keeps m r (faultReport arrival ws s) := by
  unfold faultReport
  extract_lets x7
  split
  · refine faultOwn_keeps _ _ _ (sub_of hm rfl) ?_
    exact h
  · refine Keeps.ite ?_ ?_
    · refine routeCell_keeps _ _ (sub_of hm rfl) ?_
      exact h
    · refine coalesce_keeps _ _ _ (sub_of hm rfl) ?_ ?_
      · exact h
      · intro q9 q10
        refine routeCell_keeps _ _ (sub_of hm rfl) ?_
        exact q10

theorem statusReport_keeps {m : Nat} {r s : State}  (hm : Sub 2611344147562 m) (h : Keeps m r s) :
    Keeps m r (statusReport s) := by
  unfold statusReport
  extract_lets x5 x6 x7
  have h8 : Keeps m r x6 := by
    refine publish_keeps _ (sub_of hm rfl) ?_
    exact h
  clear_value x6
  refine Keeps.ite ?_ ?_
  · exact h8
  · refine originate_keeps _ _ _ _ _ (sub_of hm rfl) ?_
    exact h8

theorem tagAnswer_keeps {m : Nat} {r s : State} (verify : Bool) (chan : Nat) (ws : List Word) (hm : Sub 2199023255552 m) (h : Keeps m r s) :
    Keeps m r (tagAnswer verify chan ws s).2 := by
  unfold tagAnswer
  extract_lets x8
  have h9 : Keeps m r x8.2 := by
    refine freeWords_keeps _ (sub_of hm rfl) ?_
    exact h
  clear_value x8
  split
  · refine Keeps.mk2 ?_
    exact h9
  · extract_lets x13
    refine Keeps.ite2 ?_ ?_
    · refine Keeps.mk2 ?_
      exact h
    · split
      · extract_lets x17
        refine Keeps.mk2 ?_
        exact h
      · refine Keeps.mk2 ?_
        exact h

theorem tagCount_keeps {m : Nat} {r s : State} (verify : Bool) (chan : Nat) (ws : List Word) (ok : Bool) (nokey : Bool) (hm : Sub 3933218 m) (h : Keeps m r s) :
    Keeps m r (tagCount verify chan ws ok nokey s) := by
  unfold tagCount
  extract_lets x10
  have h11 : Keeps m r x10 := by
    refine setRb_keeps _ _ _ (sub_of hm rfl) ?_
    exact h
  clear_value x10
  refine Keeps.ite ?_ ?_
  · refine Keeps.ite ?_ ?_
    · refine satRf_keeps _ _ _ _ (sub_of hm rfl) ?_
      exact h11
    · exact h11
  · refine Keeps.ite ?_ ?_
    · refine fabRec_keeps _ _ _ _ (sub_of hm rfl) ?_
      refine orReg_keeps _ _ (sub_of hm rfl) ?_
      refine satRf_keeps _ _ _ _ (sub_of hm rfl) ?_
      exact h11
    · exact h11

theorem tagRequest_keeps {m : Nat} {r s : State}  (hm : Sub 2473905202282 m) (h : Keeps m r s) :
    Keeps m r (tagRequest s) := by
  unfold tagRequest
  split
  · exact h
  · extract_lets x8 x9 x10 x11 x12
    have h13 : Keeps m r x8.2 := by
      refine popCell_keeps _ _ (sub_of hm rfl) ?_
      exact h
    clear_value x8
    have h14 : Keeps m r x11.2 := by
      refine tagAnswer_keeps _ _ _ (sub_of hm rfl) ?_
      exact h13
    clear_value x11
    refine Keeps.ite ?_ ?_
    · exact h
    · refine republish_keeps _ (sub_of hm rfl) ?_
      refine tagCount_keeps _ _ _ _ _ (sub_of hm rfl) ?_
      refine islandPush_keeps _ _ _ (sub_of hm rfl) ?_
      exact h14

theorem tenantQuery_keeps {m : Nat} {r s : State} (ws : List Word) (hm : Sub 2611344147562 m) (h : Keeps m r s) :
    Keeps m r (tenantQuery ws s) := by
  unfold tenantQuery
  extract_lets x6 x7 x8 x9 x10 x11 x12 x13
  have h14 : Keeps m r x9.2 := by
    refine tagAnswer_keeps _ _ _ (sub_of hm rfl) ?_
    exact h
  clear_value x9
  have h15 : Keeps m r x10 := by
    refine republish_keeps _ (sub_of hm rfl) ?_
    refine tagCount_keeps _ _ _ _ _ (sub_of hm rfl) ?_
    exact h14
  clear_value x10
  have h16 : Keeps m r x12.2 := by
    refine freePrio_keeps (sub_of hm rfl) ?_
    exact h15
  clear_value x12
  have h17 : Keeps m r x13.2 := by
    refine mkCell_keeps _ _ _ _ _ _ _ (sub_of hm rfl) ?_
    exact h16
  clear_value x13
  split
  · exact h15
  · refine Keeps.ite ?_ ?_
    · exact h15
    · refine routeCell_keeps _ _ (sub_of hm rfl) ?_
      exact h17

theorem execCoalesceFlush_keeps {m : Nat} {r s : State}  (hm : Sub 2611344147562 m) (h : Keeps m r s) :
    KeepsO m r (execCoalesceFlush s) := by
  unfold execCoalesceFlush
  refine KeepsO.next ?_
  refine Keeps.ite ?_ ?_
  · exact h
  · refine coalesceFlush_keeps (sub_of hm rfl) ?_
    exact h

theorem execFaultReport_keeps {m : Nat} {r s : State} (arrival : Option (Fin 8)) (ws : List Word) (hm : Sub 2611344147562 m) (h : Keeps m r s) :
    KeepsO m r (execFaultReport arrival ws s) := by
  unfold execFaultReport
  refine KeepsO.guarded ?_
  refine Keeps.ite ?_ ?_
  · exact h
  · refine faultReport_keeps _ _ (sub_of hm rfl) ?_
    exact h

theorem execRouteCell_keeps {m : Nat} {r s : State} (arrival : Option (Fin 8)) (ws : List Word) (hm : Sub 412320892010 m) (h : Keeps m r s) :
    KeepsO m r (execRouteCell arrival ws s) := by
  unfold execRouteCell
  refine KeepsO.guarded ?_
  refine Keeps.ite ?_ ?_
  · exact h
  · refine routeCell_keeps _ _ (sub_of hm rfl) ?_
    exact h

theorem execStatusReport_keeps {m : Nat} {r s : State}  (hm : Sub 2611344147562 m) (h : Keeps m r s) :
    KeepsO m r (execStatusReport s) := by
  unfold execStatusReport
  refine KeepsO.next ?_
  refine Keeps.ite ?_ ?_
  · exact h
  · refine statusReport_keeps (sub_of hm rfl) ?_
    exact h

theorem execTagRequest_keeps {m : Nat} {r s : State}  (hm : Sub 2473905202282 m) (h : Keeps m r s) :
    KeepsO m r (execTagRequest s) := by
  unfold execTagRequest
  refine KeepsO.next ?_
  refine Keeps.ite ?_ ?_
  · exact h
  · refine tagRequest_keeps (sub_of hm rfl) ?_
    exact h

theorem execTenantQuery_keeps {m : Nat} {r s : State} (ws : List Word) (hm : Sub 2611344147562 m) (h : Keeps m r s) :
    KeepsO m r (execTenantQuery ws s) := by
  unfold execTenantQuery
  refine KeepsO.guarded ?_
  refine Keeps.ite ?_ ?_
  · exact h
  · refine tenantQuery_keeps _ (sub_of hm rfl) ?_
    exact h

end Sys2Proof.Machine
end

