-- ==== Sys2Proof/Laws/FabParcel.lean ====
section
/-! SUPPORT. What each function of Machine/FabParcel.lean keeps of the state (Laws/Keeps.lean). -/

namespace Sys2Proof.Machine

theorem answerUp_keeps {m : Nat} {r s : State} (link : Option Nat) (type : Nat) (id : Nat) (chunk : Nat) (status : Nat) (first : Nat) (count : Nat) (hm : Sub 2611344147562 m) (h : Keeps m r s) :
    Keeps m r (answerUp link type id chunk status first count s) := by
  unfold answerUp
  extract_lets x12 x13
  have h14 : Keeps m r x12.2 := by
    refine freePrio_keeps (sub_of hm rfl) ?_
    exact h
  clear_value x12
  have h15 : Keeps m r x13.2 := by
    refine mkCell_keeps _ _ _ _ _ _ _ (sub_of hm rfl) ?_
    exact h14
  clear_value x13
  split
  · exact h
  · refine txPush_keeps _ _ _ (sub_of hm rfl) ?_
    exact h15

theorem parcelCell_keeps {m : Nat} {r s : State} (x : Xfer) (chunk : Nat) (index : Nat) (hm : Sub 137438953472 m) (h : Keeps m r s) :
    Keeps m r (parcelCell x chunk index s).2 := by
  unfold parcelCell
  refine mkCell_keeps _ _ _ _ _ _ _ (sub_of hm rfl) ?_
  exact h

theorem pushDue_keeps {m : Nat} {r s : State} (l : Nat) (x1 : Nat) (hm : Sub 412320892010 m) (h : Keeps m r s) :
    Keeps m r (pushDue l x1 s) := by
  induction x1 generalizing s with | zero => ?_ | succ k ih => ?_
  · simp -zeta only [pushDue]
    exact h
  · simp -zeta only [pushDue]
    extract_lets x8
    split
    · extract_lets x18 x19 x20
      have h21 : Keeps m r x18.2 := by
        refine parcelCell_keeps _ _ _ (sub_of hm rfl) ?_
        exact h
      clear_value x18
      have h22 : Keeps m r x19 := by
        refine txPush_keeps _ _ _ (sub_of hm rfl) ?_
        exact h21
      clear_value x19
      refine Keeps.ite ?_ ?_
      · refine ih ?_
        refine Keeps.upd_fab ?_ (hm 37 rfl)
        exact h
      · split
        · refine Keeps.ite ?_ ?_
          · refine ih ?_
            refine Keeps.upd_fab ?_ (hm 37 rfl)
            exact h22
          · exact h
        · exact h
    · refine Keeps.upd_fab ?_ (hm 37 rfl)
      exact h
    · exact h

theorem setXfer_keeps {m : Nat} {r s : State} (x : Xfer) (hm : Sub 68719476736 m) (h : Keeps m r s) :
    Keeps m r (setXfer x s) := by
  unfold setXfer
  extract_lets x6
  refine Keeps.upd_sec ?_ (hm 36 rfl) (fun hl => hl) (fun hr => hr)
  exact h

theorem queueRun_keeps {m : Nat} {r s : State} (l : Nat) (chunk : Nat) (first : Nat) (count : Nat) (hm : Sub 137438953472 m) (h : Keeps m r s) :
    Keeps m r (queueRun l chunk first count s) := by
  unfold queueRun
  extract_lets x9
  refine Keeps.upd_fab ?_ (hm 37 rfl)
  exact h

theorem forwardLink_keeps {m : Nat} {r s : State} (l : Nat) (hm : Sub 206158430208 m) (h : Keeps m r s) :
    Keeps m r (forwardLink s l) := by
  unfold forwardLink
  split
  · exact h
  · extract_lets x9 x10 x11 x12
    refine Keeps.ite ?_ ?_
    · refine queueRun_keeps _ _ _ _ (sub_of hm rfl) ?_
      refine setXfer_keeps _ (sub_of hm rfl) ?_
      exact h
    · exact h

theorem parcelPump_keeps {m : Nat} {r s : State}  (hm : Sub 481040368746 m) (h : Keeps m r s) :
    Keeps m r (parcelPump s) := by
  unfold parcelPump
  split
  · exact h
  · extract_lets x8
    have h9 : Keeps m r x8 := by
      subst x8
      refine Keeps.foldl _ _ (fun s8 a8 h8 => ?_) _ ?_
      · refine pushDue_keeps _ _ (sub_of hm rfl) ?_
        refine forwardLink_keeps _ (sub_of hm rfl) ?_
        refine forwardLink_keeps _ (sub_of hm rfl) ?_
        exact h8
      · exact h
    clear_value x8
    split
    · refine Keeps.ite ?_ ?_
      · refine xferEnd_keeps _ (sub_of hm rfl) ?_
        exact h9
      · exact h9
    · exact h9

theorem countNack_keeps {m : Nat} {r s : State}  (hm : Sub 2 m) (h : Keeps m r s) :
    Keeps m r (countNack s) := by
  unfold countNack
  refine satRf_keeps _ _ _ _ (sub_of hm rfl) ?_
  exact h

theorem refuseUp_keeps {m : Nat} {r s : State} (link : Option Nat) (id : Nat) (chunk : Nat) (status : Nat) (hm : Sub 2611344147562 m) (h : Keeps m r s) :
    Keeps m r (refuseUp link id chunk status s) := by
  unfold refuseUp
  refine answerUp_keeps _ _ _ _ _ _ _ (sub_of hm rfl) ?_
  refine countNack_keeps (sub_of hm rfl) ?_
  refine fabRec_keeps _ _ _ _ (sub_of hm rfl) ?_
  exact h

theorem chunkStored_keeps {m : Nat} {r s : State} (chunk : Nat) (hm : Sub 2680063625066 m) (h : Keeps m r s) :
    Keeps m r (chunkStored chunk s) := by
  unfold chunkStored
  split
  · exact h
  · extract_lets x9 x10
    have h11 : Keeps m r x10.2 := by
      refine storeChunk_keeps _ _ _ (sub_of hm rfl) ?_
      exact h
    clear_value x10
    refine Keeps.ite ?_ ?_
    · exact h
    · refine Keeps.ite ?_ ?_
      · refine secShow_keeps (sub_of hm rfl) ?_
        refine republish_keeps _ (sub_of hm rfl) ?_
        refine refuseUp_keeps _ _ _ _ (sub_of hm rfl) ?_
        exact h11
      · refine secShow_keeps (sub_of hm rfl) ?_
        refine republish_keeps _ (sub_of hm rfl) ?_
        refine parcelPump_keeps (sub_of hm rfl) ?_
        refine answerUp_keeps _ _ _ _ _ _ _ (sub_of hm rfl) ?_
        exact h11

theorem headerOlder_keeps {m : Nat} {r s : State} (link : Option Nat) (id : Nat) (hm : Sub 2611344147562 m) (h : Keeps m r s) :
    Keeps m r (headerOlder link id s) := by
  unfold headerOlder
  extract_lets x7
  have h8 : Keeps m r x7.2 := by
    refine free_keeps (sub_of hm rfl) ?_
    exact h
  clear_value x7
  refine refuseUp_keeps _ _ _ _ (sub_of hm rfl) ?_
  refine secRecLog_keeps _ _ _ _ (sub_of hm rfl) ?_
  refine secEvt_keeps _ (sub_of hm rfl) ?_
  exact h8

theorem headerWhole_keeps {m : Nat} {r s : State} (x : Xfer) (hm : Sub 2680063625066 m) (h : Keeps m r s) :
    Keeps m r (headerWhole x s) := by
  unfold headerWhole
  extract_lets x6 x7 x8
  have h9 : Keeps m r x8 := by
    refine xferAccept_keeps _ _ (sub_of hm rfl) ?_
    exact h
  clear_value x8
  refine Keeps.ite ?_ ?_
  · refine refuseUp_keeps _ _ _ _ (sub_of hm rfl) ?_
    refine xferRefuse_keeps _ _ (sub_of hm rfl) ?_
    refine setXfer_keeps _ (sub_of hm rfl) ?_
    exact h
  · refine parcelPump_keeps (sub_of hm rfl) ?_
    refine answerUp_keeps _ _ _ _ _ _ _ (sub_of hm rfl) ?_
    exact h9

theorem parcelAbandon_keeps {m : Nat} {r s : State} (chunk : Nat) (nacks : Nat) (hm : Sub 206162363426 m) (h : Keeps m r s) :
    Keeps m r (parcelAbandon chunk nacks s) := by
  unfold parcelAbandon
  refine xferEnd_keeps _ (sub_of hm rfl) ?_
  refine fabRec_keeps _ _ _ _ (sub_of hm rfl) ?_
  refine orReg_keeps _ _ (sub_of hm rfl) ?_
  exact h

theorem nackMissing_keeps {m : Nat} {r s : State} (x : Xfer) (chunk : Nat) (hm : Sub 2680063624298 m) (h : Keeps m r s) :
    Keeps m r (nackMissing x chunk s) := by
  unfold nackMissing
  extract_lets x7
  split
  · exact h
  · extract_lets x12
    have h13 : Keeps m r x12 := by
      refine countNack_keeps (sub_of hm rfl) ?_
      refine answerUp_keeps _ _ _ _ _ _ _ (sub_of hm rfl) ?_
      refine setXfer_keeps _ (sub_of hm rfl) ?_
      exact h
    clear_value x12
    refine Keeps.ite ?_ ?_
    · refine parcelAbandon_keeps _ _ (sub_of hm rfl) ?_
      exact h13
    · exact h13

theorem parcelData_keeps {m : Nat} {r s : State} (x : Xfer) (chunk : Nat) (index : Nat) (data : List Byte) (hm : Sub 2680063625066 m) (h : Keeps m r s) :
    Keeps m r (parcelData x chunk index data s) := by
  unfold parcelData
  extract_lets x9 x10 x11 x12 x13
  refine Keeps.ite ?_ ?_
  · exact h
  · refine Keeps.ite ?_ ?_
    · refine Keeps.ite ?_ ?_
      · refine headerWhole_keeps _ (sub_of hm rfl) ?_
        exact h
      · refine setXfer_keeps _ (sub_of hm rfl) ?_
        exact h
    · refine Keeps.ite ?_ ?_
      · refine nackMissing_keeps _ _ (sub_of hm rfl) ?_
        refine setXfer_keeps _ (sub_of hm rfl) ?_
        exact h
      · refine setXfer_keeps _ (sub_of hm rfl) ?_
        exact h

theorem parcel_keeps {m : Nat} {r s : State} (src : Option Nat) (ws : List Word) (hm : Sub 2680063625066 m) (h : Keeps m r s) :
    Keeps m r (parcel src ws s) := by
  unfold parcel
  extract_lets x7 x8 x9 x10 x11
  refine Keeps.ite ?_ ?_
  · exact h
  · refine secShow_keeps (sub_of hm rfl) ?_
    refine republish_keeps _ (sub_of hm rfl) ?_
    split
    · refine Keeps.ite ?_ ?_
      · refine parcelData_keeps _ _ _ _ (sub_of hm rfl) ?_
        exact h
      · exact h
    · refine Keeps.ite ?_ ?_
      · refine Keeps.ite ?_ ?_
        · refine Keeps.ite ?_ ?_
          · refine answerUp_keeps _ _ _ _ _ _ _ (sub_of hm rfl) ?_
            exact h
          · exact h
        · refine parcelData_keeps _ _ _ _ (sub_of hm rfl) ?_
          exact h
      · refine Keeps.ite ?_ ?_
        · exact h
        · refine Keeps.ite ?_ ?_
          · refine parcelData_keeps _ _ _ _ (sub_of hm rfl) ?_
            refine xferEnd_keeps _ (sub_of hm rfl) ?_
            exact h
          · refine Keeps.ite ?_ ?_
            · refine headerOlder_keeps _ _ (sub_of hm rfl) ?_
              exact h
            · exact h

theorem parcelAck_keeps {m : Nat} {r s : State} (l : Nat) (id : Nat) (chunk : Nat) (hm : Sub 481040368746 m) (h : Keeps m r s) :
    Keeps m r (parcelAck l id chunk s) := by
  unfold parcelAck
  split
  · exact h
  · extract_lets x11
    refine Keeps.ite ?_ ?_
    · exact h
    · refine secShow_keeps (sub_of hm rfl) ?_
      refine republish_keeps _ (sub_of hm rfl) ?_
      refine parcelPump_keeps (sub_of hm rfl) ?_
      refine setXfer_keeps _ (sub_of hm rfl) ?_
      exact h

theorem parcelGap_keeps {m : Nat} {r s : State} (chunk : Nat) (hm : Sub 2680063624298 m) (h : Keeps m r s) :
    Keeps m r (parcelGap chunk s) := by
  unfold parcelGap
  split
  · exact h
  · refine Keeps.ite ?_ ?_
    · exact h
    · refine secShow_keeps (sub_of hm rfl) ?_
      refine republish_keeps _ (sub_of hm rfl) ?_
      refine nackMissing_keeps _ _ (sub_of hm rfl) ?_
      exact h

theorem parcelNack_keeps {m : Nat} {r s : State} (l : Nat) (id : Nat) (chunk : Nat) (status : Nat) (first : Nat) (count : Nat) (hm : Sub 481040368746 m) (h : Keeps m r s) :
    Keeps m r (parcelNack l id chunk status first count s) := by
  unfold parcelNack
  extract_lets x11 x12 x13
  have h14 : Keeps m r x11 := by
    refine countNack_keeps (sub_of hm rfl) ?_
    exact h
  clear_value x11
  split
  · exact h
  · extract_lets x18 x19 x20 x21
    have h22 : Keeps m r x19 := by
      refine setXfer_keeps _ (sub_of hm rfl) ?_
      exact h14
    clear_value x19
    have h23 : Keeps m r x21 := by
      refine setXfer_keeps _ (sub_of hm rfl) ?_
      refine Keeps.upd_fab ?_ (hm 37 rfl)
      exact h14
    clear_value x21
    refine Keeps.ite ?_ ?_
    · exact h
    · refine Keeps.ite ?_ ?_
      · refine republish_keeps _ (sub_of hm rfl) ?_
        refine Keeps.ite ?_ ?_
        · refine parcelAbandon_keeps _ _ (sub_of hm rfl) ?_
          exact h22
        · refine pushDue_keeps _ _ (sub_of hm rfl) ?_
          refine queueRun_keeps _ _ _ _ (sub_of hm rfl) ?_
          exact h22
      · refine secShow_keeps (sub_of hm rfl) ?_
        refine republish_keeps _ (sub_of hm rfl) ?_
        refine parcelPump_keeps (sub_of hm rfl) ?_
        exact h23

theorem transferTimeout_keeps {m : Nat} {r s : State}  (hm : Sub 206158431242 m) (h : Keeps m r s) :
    Keeps m r (transferTimeout s) := by
  unfold transferTimeout
  split
  · exact h
  · refine secShow_keeps (sub_of hm rfl) ?_
    refine republish_keeps _ (sub_of hm rfl) ?_
    refine xferEnd_keeps _ (sub_of hm rfl) ?_
    exact h

theorem execChunkStored_keeps {m : Nat} {r s : State} (chunk : BitVec 16) (hm : Sub 2680063625066 m) (h : Keeps m r s) :
    KeepsO m r (execChunkStored chunk s) := by
  unfold execChunkStored
  refine KeepsO.next ?_
  refine Keeps.ite ?_ ?_
  · exact h
  · refine chunkStored_keeps _ (sub_of hm rfl) ?_
    exact h

theorem execParcel_keeps {m : Nat} {r s : State} (src : Option (Fin 8)) (ws : List Word) (hm : Sub 2680063625066 m) (h : Keeps m r s) :
    KeepsO m r (execParcel src ws s) := by
  unfold execParcel
  refine KeepsO.guarded ?_
  refine Keeps.ite ?_ ?_
  · exact h
  · refine parcel_keeps _ _ (sub_of hm rfl) ?_
    exact h

theorem execParcelAck_keeps {m : Nat} {r s : State} (l : Fin 8) (id : Word) (chunk : BitVec 16) (status : BitVec 8) (hm : Sub 481040368746 m) (h : Keeps m r s) :
    KeepsO m r (execParcelAck l id chunk status s) := by
  unfold execParcelAck
  refine KeepsO.next ?_
  refine Keeps.ite ?_ ?_
  · exact h
  · refine Keeps.ite ?_ ?_
    · refine parcelAck_keeps _ _ _ (sub_of hm rfl) ?_
      exact h
    · exact h

theorem execParcelGapTimeout_keeps {m : Nat} {r s : State} (chunk : BitVec 16) (hm : Sub 2680063624298 m) (h : Keeps m r s) :
    KeepsO m r (execParcelGapTimeout chunk s) := by
  unfold execParcelGapTimeout
  refine KeepsO.next ?_
  refine Keeps.ite ?_ ?_
  · exact h
  · refine parcelGap_keeps _ (sub_of hm rfl) ?_
    exact h

theorem execParcelNack_keeps {m : Nat} {r s : State} (l : Fin 8) (id : Word) (chunk : BitVec 16) (status : BitVec 8) (first : BitVec 16) (count : BitVec 16) (hm : Sub 481040368746 m) (h : Keeps m r s) :
    KeepsO m r (execParcelNack l id chunk status first count s) := by
  unfold execParcelNack
  refine KeepsO.next ?_
  refine Keeps.ite ?_ ?_
  · exact h
  · refine parcelNack_keeps _ _ _ _ _ _ (sub_of hm rfl) ?_
    exact h

theorem execTransferTimeout_keeps {m : Nat} {r s : State}  (hm : Sub 206158431242 m) (h : Keeps m r s) :
    KeepsO m r (execTransferTimeout s) := by
  unfold execTransferTimeout
  refine KeepsO.next ?_
  refine Keeps.ite ?_ ?_
  · exact h
  · refine transferTimeout_keeps (sub_of hm rfl) ?_
    exact h

end Sys2Proof.Machine
end

