-- ==== Sys2Proof/Laws/Hamper.lean ====
section
/-! SUPPORT. What each function of Machine/Hamper.lean keeps of the state (Laws/Keeps.lean). -/

namespace Sys2Proof.Machine

theorem checkAgeSecond_keeps {m : Nat} {r s : State}  (hm : Sub 67108866 m) (h : Keeps m r s) :
    Keeps m r (checkAgeSecond s) := by
  unfold checkAgeSecond
  extract_lets x5 x6
  refine setRf_keeps _ _ _ _ (sub_of hm rfl) ?_
  refine Keeps.upd_hamper ?_ (hm 26 rfl)
  exact h

theorem statEdge_keeps {m : Nat} {r s : State} (b : Nat) (evt : Nat) (v : Bool) (rec : State → State) (hm : Sub 2 m) (h : Keeps m r s) (hrec : ∀ a0, Keeps m r a0 → Keeps m r (rec a0)) :
    Keeps m r (statEdge b evt v rec s) := by
  unfold statEdge
  extract_lets x10
  have h11 : Keeps m r x10 := by
    refine setRb_keeps _ _ _ (sub_of hm rfl) ?_
    exact h
  clear_value x10
  refine Keeps.ite ?_ ?_
  · refine hrec _ ?_
    refine orReg_keeps _ _ (sub_of hm rfl) ?_
    exact h11
  · exact h11

theorem pwrRec_keeps {m : Nat} {r s : State} (code : Nat) (sev : Nat) (d : List Word) (hm : Sub 3933218 m) (h : Keeps m r s) :
    Keeps m r (pwrRec s code sev d) := by
  unfold pwrRec
  refine logOnce_keeps _ _ _ _ _ (sub_of hm rfl) ?_
  exact h

theorem holdupEval_keeps {m : Nat} {r s : State}  (hm : Sub 3933218 m) (h : Keeps m r s) :
    Keeps m r (holdupEval s) := by
  unfold holdupEval
  extract_lets x5 x6 x7 x8 x9
  have h10 : Keeps m r x7 := by
    refine setReg_keeps _ _ (sub_of hm rfl) ?_
    refine setReg_keeps _ _ (sub_of hm rfl) ?_
    exact h
  clear_value x7
  have h11 : Keeps m r x9 := by
    refine statEdge_keeps _ _ _ _ (sub_of hm rfl) ?_ ?_
    · exact h10
    · intro q11 q12
      refine pwrRec_keeps _ _ _ (sub_of hm rfl) ?_
      exact q12
  clear_value x9
  refine statEdge_keeps _ _ _ _ (sub_of hm rfl) ?_ ?_
  · exact h11
  · intro q12 q13
    refine pwrRec_keeps _ _ _ (sub_of hm rfl) ?_
    exact q13

theorem bankWorn_keeps {m : Nat} {r s : State} (c : Nat) (hm : Sub 3933218 m) (h : Keeps m r s) :
    Keeps m r (bankWorn c s) := by
  unfold bankWorn
  refine Keeps.ite ?_ ?_
  · refine statEdge_keeps _ _ _ _ (sub_of hm rfl) ?_ ?_
    · exact h
    · intro q6 q7
      refine pwrRec_keeps _ _ _ (sub_of hm rfl) ?_
      exact q7
  · exact h

theorem beginCheck_keeps {m : Nat} {r s : State} (v1 : Nat) (startKind : Bool) (hm : Sub 67108866 m) (h : Keeps m r s) :
    Keeps m r (beginCheck v1 startKind s) := by
  unfold beginCheck
  extract_lets x7 x8
  have h9 : Keeps m r x7 := by
    refine setRb_keeps _ _ _ (sub_of hm rfl) ?_
    refine setRb_keeps _ _ _ (sub_of hm rfl) ?_
    exact h
  clear_value x7
  refine Keeps.upd_hamper ?_ (hm 26 rfl)
  exact h9

theorem checkAbort_keeps {m : Nat} {r s : State} (vin : Word) (hm : Sub 71042082 m) (h : Keeps m r s) :
    Keeps m r (checkAbort s vin) := by
  unfold checkAbort
  extract_lets x6 x7
  have h8 : Keeps m r x6 := by
    refine orReg_keeps _ _ (sub_of hm rfl) ?_
    refine setRf_keeps _ _ _ _ (sub_of hm rfl) ?_
    refine setRb_keeps _ _ _ (sub_of hm rfl) ?_
    exact h
  clear_value x6
  refine Keeps.ite ?_ ?_
  · refine pwrRec_keeps _ _ _ (sub_of hm rfl) ?_
    refine Keeps.upd_hamper ?_ (hm 26 rfl)
    exact h8
  · exact h

theorem writeCFirst_keeps {m : Nat} {r s : State} (c : Nat) (hm : Sub 258 m) (h : Keeps m r s) :
    Keeps m r (writeCFirst c s) := by
  unfold writeCFirst
  refine Keeps.ite ?_ ?_
  · refine setRf_keeps _ _ _ _ (sub_of hm rfl) ?_
    exact h
  · refine setRf_keeps _ _ _ _ (sub_of hm rfl) ?_
    refine Keeps.upd_feram ?_ (hm 8 rfl) (fun w0 w => (memWf_memPut _ _ _ w.2.2.2.2.1))
    exact h

theorem checkComplete_keeps {m : Nat} {r s : State} (v2 : Nat) (hm : Sub 71042338 m) (h : Keeps m r s) :
    Keeps m r (checkComplete v2 s) := by
  unfold checkComplete
  extract_lets x6 x7 x8 x9 x10 x11 x12 x13 x14 x15 x16 x17 x18 x19
  have h20 : Keeps m r x9 := by
    refine setRf_keeps _ _ _ _ (sub_of hm rfl) ?_
    refine setRb_keeps _ _ _ (sub_of hm rfl) ?_
    refine setRb_keeps _ _ _ (sub_of hm rfl) ?_
    exact h
  clear_value x9
  have h21 : Keeps m r x10 := by
    refine setRf_keeps _ _ _ _ (sub_of hm rfl) ?_
    refine setRf_keeps _ _ _ _ (sub_of hm rfl) ?_
    exact h20
  clear_value x10
  have h22 : Keeps m r x12 := by
    refine Keeps.upd_hamper ?_ (hm 26 rfl)
    exact h21
  clear_value x12
  have h23 : Keeps m r x15 := by
    refine Keeps.upd_hamper ?_ (hm 26 rfl)
    exact h22
  clear_value x15
  have h24 : Keeps m r x16 := by
    refine setReg_keeps _ _ (sub_of hm rfl) ?_
    refine setRf_keeps _ _ _ _ (sub_of hm rfl) ?_
    refine setRb_keeps _ _ _ (sub_of hm rfl) ?_
    exact h23
  clear_value x16
  have h25 : Keeps m r x17 := by
    refine Keeps.upd_hamper ?_ (hm 26 rfl)
    exact h22
  clear_value x17
  have h26 : Keeps m r x18 := by
    refine orReg_keeps _ _ (sub_of hm rfl) ?_
    refine setRf_keeps _ _ _ _ (sub_of hm rfl) ?_
    refine setRb_keeps _ _ _ (sub_of hm rfl) ?_
    exact h25
  clear_value x18
  have h27 : Keeps m r x19 := by
    refine pwrRec_keeps _ _ _ (sub_of hm rfl) ?_
    exact h26
  clear_value x19
  refine Keeps.ite ?_ ?_
  · exact h
  · refine Keeps.ite ?_ ?_
    · refine bankWorn_keeps _ (sub_of hm rfl) ?_
      refine holdupEval_keeps (sub_of hm rfl) ?_
      refine writeCFirst_keeps _ (sub_of hm rfl) ?_
      exact h24
    · refine Keeps.ite ?_ ?_
      · exact h27
      · refine bankWorn_keeps _ (sub_of hm rfl) ?_
        exact h27

theorem dailyCheck_keeps {m : Nat} {r s : State} (v1 : Nat) (hm : Sub 67108866 m) (h : Keeps m r s) :
    Keeps m r (dailyCheck v1 s) := by
  unfold dailyCheck
  extract_lets x6
  refine Keeps.ite ?_ ?_
  · exact h
  · refine Keeps.ite ?_ ?_
    · refine Keeps.upd_hamper ?_ (hm 26 rfl)
      exact h
    · refine beginCheck_keeps _ _ (sub_of hm rfl) ?_
      exact h

theorem eavail_keeps {m : Nat} {r s : State} (vbank : Nat) (hm : Sub 2 m) (h : Keeps m r s) :
    Keeps m r (eavail vbank s) := by
  unfold eavail
  refine setReg_keeps _ _ (sub_of hm rfl) ?_
  refine setReg_keeps _ _ (sub_of hm rfl) ?_
  exact h

theorem endDip_keeps {m : Nat} {r s : State} (low : BitVec 16) (us : BitVec 32) (hm : Sub 71042082 m) (h : Keeps m r s) :
    Keeps m r (endDip low us s) := by
  unfold endDip
  extract_lets x7 x8 x9
  have h10 : Keeps m r x7 := by
    refine orReg_keeps _ _ (sub_of hm rfl) ?_
    refine satRf_keeps _ _ _ _ (sub_of hm rfl) ?_
    exact h
  clear_value x7
  have h11 : Keeps m r x9 := by
    refine Keeps.upd_hamper ?_ (hm 26 rfl)
    exact h10
  clear_value x9
  refine Keeps.ite ?_ ?_
  · refine pwrRec_keeps _ _ _ (sub_of hm rfl) ?_
    exact h11
  · exact h

theorem inputBelowPfd_keeps {m : Nat} {r s : State} (vin : BitVec 16) (hm : Sub 8660976674 m) (h : Keeps m r s) :
    Keeps m r (inputBelowPfd vin s) := by
  unfold inputBelowPfd
  extract_lets x6 x7 x8
  have h9 : Keeps m r x6 := by
    refine checkAbort_keeps _ (sub_of hm rfl) ?_
    refine setReg_keeps _ _ (sub_of hm rfl) ?_
    exact h
  clear_value x6
  refine Keeps.upd_hamper_boot ?_ (hm 26 rfl) (hm 33 rfl)
  exact h9

theorem inputRise_keeps {m : Nat} {r s : State} (vin : BitVec 16) (hm : Sub 8657043458 m) (h : Keeps m r s) :
    Keeps m r (inputRise vin s) := by
  unfold inputRise
  extract_lets x6 x7 x8 x9 x10
  have h11 : Keeps m r x6 := by
    refine setReg_keeps _ _ (sub_of hm rfl) ?_
    exact h
  clear_value x6
  have h12 : Keeps m r x8 := by
    refine Keeps.upd_hamper ?_ (hm 26 rfl)
    exact h11
  clear_value x8
  have h13 : Keeps m r x9 := by
    refine Keeps.ite ?_ ?_
    · exact h12
    · refine setRb_keeps _ _ _ (sub_of hm rfl) ?_
      exact h12
  clear_value x9
  refine Keeps.upd_boot ?_ (hm 33 rfl)
  exact h13

theorem startCheck_keeps {m : Nat} {r s : State} (v1 : Nat) (hm : Sub 67108866 m) (h : Keeps m r s) :
    Keeps m r (startCheck v1 s) := by
  unfold startCheck
  refine Keeps.ite ?_ ?_
  · refine beginCheck_keeps _ _ (sub_of hm rfl) ?_
    exact h
  · exact h

theorem vinRange_keeps {m : Nat} {r s : State} (vin : BitVec 16) (hm : Sub 8593867810 m) (h : Keeps m r s) :
    Keeps m r (vinRange vin s) := by
  unfold vinRange
  extract_lets x6 x7 x8 x9 x10 x11
  have h12 : Keeps m r x9 := by
    refine setReg_keeps _ _ (sub_of hm rfl) ?_
    refine Keeps.upd_boot ?_ (hm 33 rfl)
    exact h
  clear_value x9
  have h13 : Keeps m r x10 := by
    refine setRb_keeps _ _ _ (sub_of hm rfl) ?_
    refine setRb_keeps _ _ _ (sub_of hm rfl) ?_
    exact h12
  clear_value x10
  have h14 : Keeps m r x11 := by
    refine Keeps.ite ?_ ?_
    · refine logOnce_keeps _ _ _ _ _ (sub_of hm rfl) ?_
      refine orReg_keeps _ _ (sub_of hm rfl) ?_
      exact h13
    · exact h13
  clear_value x11
  refine Keeps.ite ?_ ?_
  · refine logOnce_keeps _ _ _ _ _ (sub_of hm rfl) ?_
    refine orReg_keeps _ _ (sub_of hm rfl) ?_
    exact h14
  · exact h14

theorem execCheckComplete_keeps {m : Nat} {r s : State} (v2 : BitVec 20) (hm : Sub 71042338 m) (h : Keeps m r s) :
    KeepsO m r (execCheckComplete v2 s) := by
  unfold execCheckComplete
  refine KeepsO.next ?_
  refine checkComplete_keeps _ (sub_of hm rfl) ?_
  exact h

theorem execDailyCheck_keeps {m : Nat} {r s : State} (v1 : BitVec 20) (hm : Sub 67108866 m) (h : Keeps m r s) :
    KeepsO m r (execDailyCheck v1 s) := by
  unfold execDailyCheck
  refine KeepsO.next ?_
  refine dailyCheck_keeps _ (sub_of hm rfl) ?_
  exact h

theorem execDip_keeps {m : Nat} {r s : State} (low : BitVec 16) (us : BitVec 32) (hm : Sub 71042082 m) (h : Keeps m r s) :
    KeepsO m r (execDip low us s) := by
  unfold execDip
  refine KeepsO.next ?_
  refine endDip_keeps _ _ (sub_of hm rfl) ?_
  exact h

theorem execEavailUpdate_keeps {m : Nat} {r s : State} (vbank : BitVec 16) (hm : Sub 2 m) (h : Keeps m r s) :
    KeepsO m r (execEavailUpdate vbank s) := by
  unfold execEavailUpdate
  refine KeepsO.next ?_
  refine eavail_keeps _ (sub_of hm rfl) ?_
  exact h

theorem execInputBelowPfd_keeps {m : Nat} {r s : State} (vin : BitVec 16) (hm : Sub 8660976674 m) (h : Keeps m r s) :
    KeepsO m r (execInputBelowPfd vin s) := by
  unfold execInputBelowPfd
  refine KeepsO.next ?_
  refine inputBelowPfd_keeps _ (sub_of hm rfl) ?_
  exact h

theorem execInputRise_keeps {m : Nat} {r s : State} (vin : BitVec 16) (hm : Sub 8657043458 m) (h : Keeps m r s) :
    KeepsO m r (execInputRise vin s) := by
  unfold execInputRise
  refine KeepsO.next ?_
  refine inputRise_keeps _ (sub_of hm rfl) ?_
  exact h

theorem execStartCheck_keeps {m : Nat} {r s : State} (v1 : BitVec 20) (hm : Sub 67108866 m) (h : Keeps m r s) :
    KeepsO m r (execStartCheck v1 s) := by
  unfold execStartCheck
  refine KeepsO.next ?_
  refine startCheck_keeps _ (sub_of hm rfl) ?_
  exact h

theorem execVInOutsideOperatingRange_keeps {m : Nat} {r s : State} (vin : BitVec 16) (hm : Sub 8593867810 m) (h : Keeps m r s) :
    KeepsO m r (execVInOutsideOperatingRange vin s) := by
  unfold execVInOutsideOperatingRange
  refine KeepsO.next ?_
  refine vinRange_keeps _ (sub_of hm rfl) ?_
  exact h

end Sys2Proof.Machine
end

