-- ==== Sys2Proof/Laws/EngineMem.lean ====
section
/-! SUPPORT. What each function of Machine/EngineMem.lean keeps of the state (Laws/Keeps.lean). -/

namespace Sys2Proof.Machine

theorem dataFault_keeps {m : Nat} {r s : State} (i : Issue) (a : Nat) (hm : Sub 3935266 m) (h : Keeps m r s) :
    Keeps m r (dataFault i a s) := by
  unfold dataFault
  extract_lets x7 x8 x9
  have h10 : Keeps m r x9 := by
    subst x9
    split
    · exact h
    · extract_lets x12 x13 x14
      refine Keeps.upd_eng ?_ (hm 11 rfl)
      exact h
  clear_value x9
  refine faultMissed_keeps (sub_of hm rfl) ?_
  refine logOnce_keeps _ _ _ _ _ (sub_of hm rfl) ?_
  refine pathFault_keeps _ _ (sub_of hm rfl) ?_
  refine dedEvent_keeps _ _ (sub_of hm rfl) ?_
  exact h10

theorem loadData_keeps {m : Nat} {r s : State} (i : Issue) (d : Nat) (a : Nat) (hm : Sub 3935266 m) (h : Keeps m r s) :
    Keeps m r (loadData i d a s) := by
  unfold loadData
  split
  · refine result_keeps _ _ _ _ (sub_of hm rfl) ?_
    exact h
  · refine result_keeps _ _ _ _ (sub_of hm rfl) ?_
    refine secEvent_keeps _ (sub_of hm rfl) ?_
    exact h
  · refine dataFault_keeps _ _ (sub_of hm rfl) ?_
    exact h

theorem queueTurn_keeps {m : Nat} {r s : State} (q : Nat) (hm : Sub 3941474 m) (h : Keeps m r s) :
    Keeps m r (queueTurn q s) := by
  unfold queueTurn
  extract_lets x6 x7 x8
  have h9 : Keeps m r x6.2 := by
    refine qFetch_keeps _ _ (sub_of hm rfl) ?_
    exact h
  clear_value x6
  have h10 : Keeps m r x8 := by
    subst x8
    exact h9
  clear_value x8
  refine setEcc_keeps _ _ _ (sub_of hm rfl) ?_
  refine Keeps.upd_quem_qrd ?_ (hm 6 rfl) (hm 13 rfl) (fun w0 w => (memWf_memPutW _ _ _ (h9.memOk w0).2.2.1))
  exact h10

theorem queueMove_keeps {m : Nat} {r s : State} (qa : Nat) (qb : Nat) (hm : Sub 274881946730 m) (h : Keeps m r s) :
    Keeps m r (queueMove qa qb s) := by
  unfold queueMove
  extract_lets x7 x8
  have h9 : Keeps m r x7 := by
    refine Keeps.ite ?_ ?_
    · exact h
    · refine qViolation_keeps _ (sub_of hm rfl) ?_
      exact h
  clear_value x7
  have h10 : Keeps m r x8.2 := by
    refine qPopOut_keeps _ (sub_of hm rfl) ?_
    exact h
  clear_value x8
  refine Keeps.ite ?_ ?_
  · exact h
  · refine Keeps.ite ?_ ?_
    · refine Keeps.ite ?_ ?_
      · exact h9
      · refine qViolation_keeps _ (sub_of hm rfl) ?_
        exact h9
    · refine Keeps.ite ?_ ?_
      · refine orReg_keeps _ _ (sub_of hm rfl) ?_
        exact h
      · refine Keeps.ite ?_ ?_
        · refine qOverflow_keeps _ (sub_of hm rfl) ?_
          exact h
        · refine Keeps.ite ?_ ?_
          · refine queueTurn_keeps _ (sub_of hm rfl) ?_
            exact h
          · refine qPushIn_keeps _ _ (sub_of hm rfl) ?_
            exact h10

theorem scrub_keeps {m : Nat} {r s : State} (mem : Nat) (a : Nat) (hm : Sub 3933218 m) (h : Keeps m r s) :
    Keeps m r (scrub mem a s) := by
  unfold scrub
  extract_lets x7
  split
  · exact h
  · refine setEcc_keeps _ _ _ (sub_of hm rfl) ?_
    refine secEvent_keeps _ (sub_of hm rfl) ?_
    exact h
  · refine logOnce_keeps _ _ _ _ _ (sub_of hm rfl) ?_
    refine Keeps.ite ?_ ?_
    · refine ptabDed_keeps _ (sub_of hm rfl) ?_
      exact h
    · refine dedEvent_keeps _ _ (sub_of hm rfl) ?_
      exact h

theorem scrubPass_keeps {m : Nat} {r s : State} (mem : Nat) (hm : Sub 2 m) (h : Keeps m r s) :
    Keeps m r (scrubPass mem s) := by
  unfold scrubPass
  refine setRf_keeps _ _ _ _ (sub_of hm rfl) ?_
  exact h

theorem storeData_keeps {m : Nat} {r s : State} (a : Nat) (v : Word) (hm : Sub 1040 m) (h : Keeps m r s) :
    Keeps m r (storeData a v s) := by
  unfold storeData
  refine setEcc_keeps _ _ _ (sub_of hm rfl) ?_
  refine Keeps.upd_data ?_ (hm 4 rfl) (fun w0 w => (memWf_memPutW _ _ _ w.1))
  exact h

theorem execArm_keeps {m : Nat} {r s : State} (i : Issue) (a : Fin 64) (hm : Sub 2050 m) (h : Keeps m r s) :
    KeepsO m r (execArm i a s) := by
  unfold execArm
  refine KeepsO.guarded ?_
  refine issue_keeps _ _ (sub_of hm rfl) ?_ ?_
  · exact h
  · intro q7 q8
    refine setArm_keeps _ _ (sub_of hm rfl) ?_
    exact q8

theorem execDarm_keeps {m : Nat} {r s : State} (i : Issue) (a : Fin 64) (hm : Sub 2050 m) (h : Keeps m r s) :
    KeepsO m r (execDarm i a s) := by
  unfold execDarm
  refine KeepsO.guarded ?_
  refine issue_keeps _ _ (sub_of hm rfl) ?_ ?_
  · exact h
  · intro q7 q8
    refine setArm_keeps _ _ (sub_of hm rfl) ?_
    exact q8

theorem execLd_keeps {m : Nat} {r s : State} (i : Issue) (d : Fin 64) (a : Fin 64) (imm : BitVec 7) (hm : Sub 3935266 m) (h : Keeps m r s) :
    KeepsO m r (execLd i d a imm s) := by
  unfold execLd
  refine KeepsO.guarded ?_
  refine issue_keeps _ _ (sub_of hm rfl) ?_ ?_
  · exact h
  · intro q9 q10
    refine loadData_keeps _ _ _ (sub_of hm rfl) ?_
    exact q10

theorem execLdx_keeps {m : Nat} {r s : State} (i : Issue) (d : Fin 64) (a : Fin 64) (b : Fin 64) (hm : Sub 3935266 m) (h : Keeps m r s) :
    KeepsO m r (execLdx i d a b s) := by
  unfold execLdx
  refine KeepsO.guarded ?_
  refine issue_keeps _ _ (sub_of hm rfl) ?_ ?_
  · exact h
  · intro q9 q10
    refine loadData_keeps _ _ _ (sub_of hm rfl) ?_
    exact q10

theorem execLld_keeps {m : Nat} {r s : State} (i : Issue) (d : Fin 64) (a : Fin 64) (imm : BitVec 7) (hm : Sub 2050 m) (h : Keeps m r s) :
    KeepsO m r (execLld i d a imm s) := by
  unfold execLld
  refine KeepsO.guarded ?_
  refine issue_keeps _ _ (sub_of hm rfl) ?_ ?_
  · exact h
  · intro q9 q10
    extract_lets x11
    have h12 : Keeps m r x11.2 := by
      refine readLog_keeps _ (sub_of hm rfl) ?_
      exact q10
    clear_value x11
    refine result_keeps _ _ _ _ (sub_of hm rfl) ?_
    exact h12

theorem execLst_keeps {m : Nat} {r s : State} (i : Issue) (d : Fin 64) (a : Fin 64) (imm : BitVec 7) (hm : Sub 3104 m) (h : Keeps m r s) :
    KeepsO m r (execLst i d a imm s) := by
  unfold execLst
  refine KeepsO.guarded ?_
  refine issue_keeps _ _ (sub_of hm rfl) ?_ ?_
  · exact h
  · intro q9 q10
    refine putLogW_keeps _ _ (sub_of hm rfl) ?_
    exact q10

theorem execMov_keeps {m : Nat} {r s : State} (i : Issue) (d : Fin 64) (a : Fin 64) (hm : Sub 2048 m) (h : Keeps m r s) :
    KeepsO m r (execMov i d a s) := by
  unfold execMov
  refine KeepsO.guarded ?_
  refine issueW_keeps _ _ _ _ (sub_of hm rfl) ?_
  exact h

theorem execMst_keeps {m : Nat} {r s : State} (i : Issue) (d : Fin 64) (a : Fin 64) (imm : BitVec 7) (hm : Sub 3080 m) (h : Keeps m r s) :
    KeepsO m r (execMst i d a imm s) := by
  unfold execMst
  refine KeepsO.guarded ?_
  refine issue_keeps _ _ (sub_of hm rfl) ?_ ?_
  · exact h
  · intro q9 q10
    refine mst_keeps _ _ (sub_of hm rfl) ?_
    exact q10

theorem execQlev_keeps {m : Nat} {r s : State} (i : Issue) (d : Fin 64) (qa : Fin 64) (hm : Sub 2048 m) (h : Keeps m r s) :
    KeepsO m r (execQlev i d qa s) := by
  unfold execQlev
  refine KeepsO.guarded ?_
  refine issueW_keeps _ _ _ _ (sub_of hm rfl) ?_
  exact h

theorem execQmov_keeps {m : Nat} {r s : State} (i : Issue) (qa : Fin 64) (qb : Fin 64) (hm : Sub 274881948778 m) (h : Keeps m r s) :
    KeepsO m r (execQmov i qa qb s) := by
  unfold execQmov
  refine KeepsO.guarded ?_
  refine issue_keeps _ _ (sub_of hm rfl) ?_ ?_
  · exact h
  · intro q8 q9
    refine queueMove_keeps _ _ (sub_of hm rfl) ?_
    exact q9

theorem execQpop_keeps {m : Nat} {r s : State} (i : Issue) (d : Fin 64) (qa : Fin 64) (hm : Sub 274881948714 m) (h : Keeps m r s) :
    KeepsO m r (execQpop i d qa s) := by
  unfold execQpop
  refine KeepsO.guarded ?_
  refine issue_keeps _ _ (sub_of hm rfl) ?_ ?_
  · exact h
  · intro q8 q9
    extract_lets x10
    have h11 : Keeps m r x10.2 := by
      refine qPop_keeps _ _ (sub_of hm rfl) ?_
      exact q9
    clear_value x10
    refine result_keeps _ _ _ _ (sub_of hm rfl) ?_
    exact h11

theorem execQpush_keeps {m : Nat} {r s : State} (i : Issue) (d : Fin 64) (qa : Fin 64) (hm : Sub 274881940586 m) (h : Keeps m r s) :
    KeepsO m r (execQpush i d qa s) := by
  unfold execQpush
  refine KeepsO.guarded ?_
  refine issue_keeps _ _ (sub_of hm rfl) ?_ ?_
  · exact h
  · intro q8 q9
    refine qPush_keeps _ _ _ (sub_of hm rfl) ?_
    exact q9

theorem execScrb_keeps {m : Nat} {r s : State} (i : Issue) (a : Fin 64) (imm : BitVec 7) (hm : Sub 3935266 m) (h : Keeps m r s) :
    KeepsO m r (execScrb i a imm s) := by
  unfold execScrb
  refine KeepsO.guarded ?_
  refine issue_keeps _ _ (sub_of hm rfl) ?_ ?_
  · exact h
  · intro q8 q9
    extract_lets x10
    have h11 : Keeps m r x10 := by
      refine scrub_keeps _ _ (sub_of hm rfl) ?_
      exact q9
    clear_value x10
    refine Keeps.ite ?_ ?_
    · refine scrubPass_keeps _ (sub_of hm rfl) ?_
      exact h11
    · exact h11

theorem execScrubLate_keeps {m : Nat} {r s : State} (mem : Fin 4) (seconds : BitVec 32) (hm : Sub 3933218 m) (h : Keeps m r s) :
    KeepsO m r (execScrubLate mem seconds s) := by
  unfold execScrubLate
  refine KeepsO.guarded ?_
  refine logOnce_keeps _ _ _ _ _ (sub_of hm rfl) ?_
  refine orReg_keeps _ _ (sub_of hm rfl) ?_
  exact h

theorem execSrd_keeps {m : Nat} {r s : State} (i : Issue) (d : Fin 64) (selr : BitVec 7) (hm : Sub 2048 m) (h : Keeps m r s) :
    KeepsO m r (execSrd i d selr s) := by
  unfold execSrd
  refine KeepsO.guarded ?_
  refine issueW_keeps _ _ _ _ (sub_of hm rfl) ?_
  exact h

theorem execSt_keeps {m : Nat} {r s : State} (i : Issue) (d : Fin 64) (a : Fin 64) (imm : BitVec 7) (hm : Sub 3088 m) (h : Keeps m r s) :
    KeepsO m r (execSt i d a imm s) := by
  unfold execSt
  refine KeepsO.guarded ?_
  refine issue_keeps _ _ (sub_of hm rfl) ?_ ?_
  · exact h
  · intro q9 q10
    refine storeData_keeps _ _ (sub_of hm rfl) ?_
    exact q10

theorem execStx_keeps {m : Nat} {r s : State} (i : Issue) (d : Fin 64) (a : Fin 64) (b : Fin 64) (hm : Sub 3088 m) (h : Keeps m r s) :
    KeepsO m r (execStx i d a b s) := by
  unfold execStx
  refine KeepsO.guarded ?_
  refine issue_keeps _ _ (sub_of hm rfl) ?_ ?_
  · exact h
  · intro q9 q10
    refine storeData_keeps _ _ (sub_of hm rfl) ?_
    exact q10

end Sys2Proof.Machine
end

