-- ==== Sys2Proof/Laws/Clock.lean ====
section
/-! SUPPORT. What each function of Machine/Clock.lean keeps of the state (Laws/Keeps.lean). -/

namespace Sys2Proof.Machine

theorem setAlm_keeps {m : Nat} {r s : State} (n : Nat) (x : Alm) (hm : Sub 1099511627776 m) (h : Keeps m r s) :
    Keeps m r (State.setAlm s n x) := by
  unfold State.setAlm
  extract_lets x7
  refine Keeps.upd_rtc ?_ (hm 40 rfl)
  exact h

theorem rtcBarg_keeps {m : Nat} {r s : State} (w : Word) (hm : Sub 1099511627776 m) (h : Keeps m r s) :
    Keeps m r (rtcBarg w s) := by
  unfold rtcBarg
  extract_lets x6
  refine Keeps.upd_rtc ?_ (hm 40 rfl)
  exact h

theorem rtcAlarm_keeps {m : Nat} {r s : State} (n : Nat) (v : Nat) (armed : Bool) (rep : Bool) (hm : Sub 1099511627776 m) (h : Keeps m r s) :
    Keeps m r (rtcAlarm n v armed rep s) := by
  unfold rtcAlarm
  extract_lets x9
  refine setAlm_keeps _ _ (sub_of hm rfl) ?_
  exact h

theorem rtcAlmper_keeps {m : Nat} {r s : State} (n : Nat) (p : Word) (hm : Sub 1099511627776 m) (h : Keeps m r s) :
    Keeps m r (rtcAlmper n p s) := by
  unfold rtcAlmper
  extract_lets x7
  refine setAlm_keeps _ _ (sub_of hm rfl) ?_
  exact h

theorem rtcShow_keeps {m : Nat} {r s : State}  (hm : Sub 1034 m) (h : Keeps m r s) :
    Keeps m r (rtcShow s) := by
  unfold rtcShow
  extract_lets x5 x6 x7 x8
  have h9 : Keeps m r x8 := by
    subst x8
    refine Keeps.foldl _ _ (fun s8 a8 h8 => ?_) _ ?_
    · refine setRb_keeps _ _ _ (sub_of hm rfl) ?_
      exact h8
    · exact h
  clear_value x8
  refine republish_keeps _ (sub_of hm rfl) ?_
  refine publish_keeps _ (sub_of hm rfl) ?_
  exact h9

theorem clockPath_keeps {m : Nat} {r s : State} (f : State → State) (hm : Sub 1034 m) (h : Keeps m r s) (hf : ∀ a0, Keeps m r a0 → Keeps m r (f a0)) :
    Keeps m r (clockPath f s) := by
  unfold clockPath
  refine Keeps.ite ?_ ?_
  · refine rtcShow_keeps (sub_of hm rfl) ?_
    refine hf _ ?_
    exact h
  · exact h

theorem almCfg_keeps {m : Nat} {r s : State} (n : Nat) (w : Word) (hm : Sub 1099511628810 m) (h : Keeps m r s) :
    Keeps m r (almCfg n w s) := by
  unfold almCfg
  extract_lets x7
  refine clockPath_keeps _ (sub_of hm rfl) ?_ ?_
  · refine setReg_keeps _ _ (sub_of hm rfl) ?_
    exact h
  · intro q8 q9
    extract_lets x10 x11 x12
    have h13 : Keeps m r x12 := by
      refine rtcBarg_keeps _ (sub_of hm rfl) ?_
      refine rtcBarg_keeps _ (sub_of hm rfl) ?_
      refine rtcAlmper_keeps _ _ (sub_of hm rfl) ?_
      refine rtcBarg_keeps _ (sub_of hm rfl) ?_
      exact q9
    clear_value x12
    refine rtcAlarm_keeps _ _ _ _ (sub_of hm rfl) ?_
    exact h13

theorem rtcChg_keeps {m : Nat} {r s : State} (w : Word) (hm : Sub 1099511627776 m) (h : Keeps m r s) :
    Keeps m r (rtcChg w s) := by
  unfold rtcChg
  extract_lets x6
  refine Keeps.upd_rtc ?_ (hm 40 rfl)
  exact h

theorem rtcTrim_keeps {m : Nat} {r s : State} (w : Word) (hm : Sub 1099511627776 m) (h : Keeps m r s) :
    Keeps m r (rtcTrim w s) := by
  unfold rtcTrim
  extract_lets x6
  refine Keeps.upd_rtc ?_ (hm 40 rfl)
  exact h

theorem rtcCommitted_keeps {m : Nat} {r s : State}  (hm : Sub 1099511628810 m) (h : Keeps m r s) :
    Keeps m r (rtcCommitted s) := by
  unfold rtcCommitted
  refine rtcShow_keeps (sub_of hm rfl) ?_
  refine rtcChg_keeps _ (sub_of hm rfl) ?_
  refine rtcTrim_keeps _ (sub_of hm rfl) ?_
  exact h

theorem rtcRec_keeps {m : Nat} {r s : State} (code : Nat) (sev : Nat) (subject : Nat) (d : List Word) (hm : Sub 3933218 m) (h : Keeps m r s) :
    Keeps m r (rtcRec s code sev subject d) := by
  unfold rtcRec
  refine logOnce_keeps _ _ _ _ _ (sub_of hm rfl) ?_
  exact h

theorem rtcReadBytes_keeps {m : Nat} {r s : State}  (hm : Sub 1099515560994 m) (h : Keeps m r s) :
    Keeps m r (rtcReadBytes s) := by
  unfold rtcReadBytes
  extract_lets x5 x6 x7 x8
  have h9 : Keeps m r x5 := by
    subst x5
    refine Keeps.foldl _ _ (fun s8 a8 h8 => ?_) _ ?_
    · refine setReg_keeps _ _ (sub_of hm rfl) ?_
      exact h8
    · exact h
  clear_value x5
  have h10 : Keeps m r x8 := by
    refine Keeps.upd_rtc ?_ (hm 40 rfl)
    exact h9
  clear_value x8
  refine Keeps.ite ?_ ?_
  · exact h10
  · refine rtcRec_keeps _ _ _ _ (sub_of hm rfl) ?_
    refine orReg_keeps _ _ (sub_of hm rfl) ?_
    exact h10

theorem rtcAck_keeps {m : Nat} {r s : State} (fired : Nat) (stepped : Nat) (hm : Sub 1099511627776 m) (h : Keeps m r s) :
    Keeps m r (rtcAck fired stepped s) := by
  unfold rtcAck
  refine Keeps.foldl _ _ (fun s7 a7 h7 => ?_) _ ?_
  · extract_lets x10 x11
    refine setAlm_keeps _ _ (sub_of hm rfl) ?_
    exact h7
  · exact h

theorem obey_keeps {m : Nat} {r s : State} (rsv : Nat) (w : Word) (f : State → State) (hm : Sub 1034 m) (h : Keeps m r s) (hf : ∀ a0, Keeps m r a0 → Keeps m r (f a0)) :
    Keeps m r (obey rsv w f s) := by
  unfold obey
  refine Keeps.ite ?_ ?_
  · refine rtcShow_keeps (sub_of hm rfl) ?_
    refine hf _ ?_
    exact h
  · exact h

theorem bcmdAck_keeps {m : Nat} {r s : State} (w : Word) (hm : Sub 1099511628810 m) (h : Keeps m r s) :
    Keeps m r (bcmdAck w s) := by
  unfold bcmdAck
  refine obey_keeps _ _ _ (sub_of hm rfl) ?_ ?_
  · exact h
  · intro q6 q7
    refine rtcAck_keeps _ _ (sub_of hm rfl) ?_
    exact q7

theorem bcmdAlarm_keeps {m : Nat} {r s : State} (w : Word) (hm : Sub 1099511628810 m) (h : Keeps m r s) :
    Keeps m r (bcmdAlarm w s) := by
  unfold bcmdAlarm
  refine obey_keeps _ _ _ (sub_of hm rfl) ?_ ?_
  · exact h
  · intro q6 q7
    refine rtcAlarm_keeps _ _ _ _ (sub_of hm rfl) ?_
    exact q7

theorem bcmdAlmper_keeps {m : Nat} {r s : State} (w : Word) (hm : Sub 1099511628810 m) (h : Keeps m r s) :
    Keeps m r (bcmdAlmper w s) := by
  unfold bcmdAlmper
  refine obey_keeps _ _ _ (sub_of hm rfl) ?_ ?_
  · exact h
  · intro q6 q7
    refine rtcAlmper_keeps _ _ (sub_of hm rfl) ?_
    exact q7

theorem rtcByte_keeps {m : Nat} {r s : State} (i : Nat) (b : Byte) (hm : Sub 1099511627776 m) (h : Keeps m r s) :
    Keeps m r (rtcByte i b s) := by
  unfold rtcByte
  extract_lets x7
  refine Keeps.upd_rtc ?_ (hm 40 rfl)
  exact h

theorem bcmdByte_keeps {m : Nat} {r s : State} (w : Word) (hm : Sub 1099511628810 m) (h : Keeps m r s) :
    Keeps m r (bcmdByte w s) := by
  unfold bcmdByte
  refine obey_keeps _ _ _ (sub_of hm rfl) ?_ ?_
  · exact h
  · intro q6 q7
    refine rtcByte_keeps _ _ (sub_of hm rfl) ?_
    exact q7

theorem bcmdChg_keeps {m : Nat} {r s : State} (w : Word) (hm : Sub 1099511628810 m) (h : Keeps m r s) :
    Keeps m r (bcmdChg w s) := by
  unfold bcmdChg
  refine obey_keeps _ _ _ (sub_of hm rfl) ?_ ?_
  · exact h
  · intro q6 q7
    refine rtcChg_keeps _ (sub_of hm rfl) ?_
    exact q7

theorem bcmdRead_keeps {m : Nat} {r s : State} (w : Word) (hm : Sub 1099511628810 m) (h : Keeps m r s) :
    Keeps m r (bcmdRead w s) := by
  unfold bcmdRead
  refine obey_keeps _ _ _ (sub_of hm rfl) ?_ ?_
  · exact h
  · intro q6 q7
    extract_lets x8
    refine Keeps.upd_rtc ?_ (hm 40 rfl)
    exact q7

theorem rtcSetDue_keeps {m : Nat} {r s : State} (v : Nat) (hm : Sub 1099511627776 m) (h : Keeps m r s) :
    Keeps m r (rtcSetDue v s) := by
  unfold rtcSetDue
  extract_lets x6
  refine Keeps.upd_rtc ?_ (hm 40 rfl)
  exact h

theorem bcmdSet_keeps {m : Nat} {r s : State} (w : Word) (hm : Sub 1099511628810 m) (h : Keeps m r s) :
    Keeps m r (bcmdSet w s) := by
  unfold bcmdSet
  refine obey_keeps _ _ _ (sub_of hm rfl) ?_ ?_
  · exact h
  · intro q6 q7
    refine rtcSetDue_keeps _ (sub_of hm rfl) ?_
    exact q7

theorem rtcSlew_keeps {m : Nat} {r s : State} (period : Nat) (count : Nat) (faster : Bool) (hm : Sub 1099511627778 m) (h : Keeps m r s) :
    Keeps m r (rtcSlew period count faster s) := by
  unfold rtcSlew
  extract_lets x8
  refine Keeps.ite ?_ ?_
  · refine orReg_keeps _ _ (sub_of hm rfl) ?_
    refine Keeps.upd_rtc ?_ (hm 40 rfl)
    exact h
  · refine Keeps.upd_rtc ?_ (hm 40 rfl)
    exact h

theorem bcmdSlew_keeps {m : Nat} {r s : State} (w : Word) (hm : Sub 1099511628810 m) (h : Keeps m r s) :
    Keeps m r (bcmdSlew w s) := by
  unfold bcmdSlew
  refine obey_keeps _ _ _ (sub_of hm rfl) ?_ ?_
  · exact h
  · intro q6 q7
    refine rtcSlew_keeps _ _ _ (sub_of hm rfl) ?_
    exact q7

theorem rtcSlewStop_keeps {m : Nat} {r s : State}  (hm : Sub 1099511627776 m) (h : Keeps m r s) :
    Keeps m r (rtcSlewStop s) := by
  unfold rtcSlewStop
  extract_lets x5
  refine Keeps.upd_rtc ?_ (hm 40 rfl)
  exact h

theorem bcmdSlewStop_keeps {m : Nat} {r s : State} (w : Word) (hm : Sub 1099511628810 m) (h : Keeps m r s) :
    Keeps m r (bcmdSlewStop w s) := by
  unfold bcmdSlewStop
  refine obey_keeps _ _ _ (sub_of hm rfl) ?_ ?_
  · exact h
  · intro q6 q7
    refine rtcSlewStop_keeps (sub_of hm rfl) ?_
    exact q7

theorem rtcStepDue_keeps {m : Nat} {r s : State} (d : Int) (hm : Sub 1099511627776 m) (h : Keeps m r s) :
    Keeps m r (rtcStepDue d s) := by
  unfold rtcStepDue
  extract_lets x6
  refine Keeps.upd_rtc ?_ (hm 40 rfl)
  exact h

theorem bcmdStep_keeps {m : Nat} {r s : State} (w : Word) (hm : Sub 1099511628810 m) (h : Keeps m r s) :
    Keeps m r (bcmdStep w s) := by
  unfold bcmdStep
  refine obey_keeps _ _ _ (sub_of hm rfl) ?_ ?_
  · exact h
  · intro q6 q7
    refine rtcStepDue_keeps _ (sub_of hm rfl) ?_
    exact q7

theorem bcmdTrim_keeps {m : Nat} {r s : State} (w : Word) (hm : Sub 1099511628810 m) (h : Keeps m r s) :
    Keeps m r (bcmdTrim w s) := by
  unfold bcmdTrim
  refine obey_keeps _ _ _ (sub_of hm rfl) ?_ ?_
  · exact h
  · intro q6 q7
    refine rtcTrim_keeps _ (sub_of hm rfl) ?_
    exact q7

theorem byteWrite_keeps {m : Nat} {r s : State} (i : Nat) (w : Word) (hm : Sub 1099511628810 m) (h : Keeps m r s) :
    Keeps m r (byteWrite i w s) := by
  unfold byteWrite
  refine clockPath_keeps _ (sub_of hm rfl) ?_ ?_
  · refine setReg_keeps _ _ (sub_of hm rfl) ?_
    exact h
  · intro q7 q8
    refine Keeps.foldl _ _ (fun s9 a9 h9 => ?_) _ ?_
    · refine rtcByte_keeps _ _ (sub_of hm rfl) ?_
      exact h9
    · exact q8

theorem cmdSlew_keeps {m : Nat} {r s : State} (period : Nat) (faster : Bool) (hm : Sub 1099511627778 m) (h : Keeps m r s) :
    Keeps m r (cmdSlew period faster s) := by
  unfold cmdSlew
  refine Keeps.ite ?_ ?_
  · refine orReg_keeps _ _ (sub_of hm rfl) ?_
    exact h
  · refine rtcSlew_keeps _ _ _ (sub_of hm rfl) ?_
    refine rtcBarg_keeps _ (sub_of hm rfl) ?_
    exact h

theorem cmdSet_keeps {m : Nat} {r s : State} (m0 : Nat) (hm : Sub 1099515560994 m) (h : Keeps m r s) :
    Keeps m r (cmdSet m0 s) := by
  unfold cmdSet
  extract_lets x6
  have h7 : Keeps m r x6 := by
    refine rtcBarg_keeps _ (sub_of hm rfl) ?_
    refine rtcBarg_keeps _ (sub_of hm rfl) ?_
    exact h
  clear_value x6
  refine rtcRec_keeps _ _ _ _ (sub_of hm rfl) ?_
  refine rtcSetDue_keeps _ (sub_of hm rfl) ?_
  exact h7

theorem cmdStep_keeps {m : Nat} {r s : State} (m0 : Nat) (hm : Sub 1099515560994 m) (h : Keeps m r s) :
    Keeps m r (cmdStep m0 s) := by
  unfold cmdStep
  extract_lets x6
  refine rtcRec_keeps _ _ _ _ (sub_of hm rfl) ?_
  refine rtcStepDue_keeps _ (sub_of hm rfl) ?_
  refine rtcBarg_keeps _ (sub_of hm rfl) ?_
  exact h

theorem rtcCmd_keeps {m : Nat} {r s : State} (m0 : Nat) (w : Word) (hm : Sub 1099515561002 m) (h : Keeps m r s) :
    Keeps m r (rtcCmd m0 w s) := by
  unfold rtcCmd
  refine clockPath_keeps _ (sub_of hm rfl) ?_ ?_
  · exact h
  · intro q7 q8
    split
    · refine cmdSet_keeps _ (sub_of hm rfl) ?_
      exact q8
    · refine cmdStep_keeps _ (sub_of hm rfl) ?_
      exact q8
    · refine cmdSlew_keeps _ _ (sub_of hm rfl) ?_
      exact q8
    · refine rtcSlewStop_keeps (sub_of hm rfl) ?_
      exact q8
    · refine orReg_keeps _ _ (sub_of hm rfl) ?_
      exact q8

theorem clockDiscipline_keeps {m : Nat} {r s : State}  (hm : Sub 3436011324450 m) (h : Keeps m r s) :
    Keeps m r (clockDiscipline s) := by
  unfold clockDiscipline
  extract_lets x5 x6 x7 x8 x9
  have h10 : Keeps m r x9 := by
    refine rtcBarg_keeps _ (sub_of hm rfl) ?_
    refine rtcBarg_keeps _ (sub_of hm rfl) ?_
    exact h
  clear_value x9
  refine Keeps.ite ?_ ?_
  · refine timeServo_keeps _ (sub_of hm rfl) ?_
    refine setReg_keeps _ _ (sub_of hm rfl) ?_
    refine Keeps.upd_fab ?_ (hm 37 rfl)
    exact h
  · refine Keeps.ite ?_ ?_
    · refine Keeps.ite ?_ ?_
      · refine rtcRec_keeps _ _ _ _ (sub_of hm rfl) ?_
        refine rtcSetDue_keeps _ (sub_of hm rfl) ?_
        exact h10
      · refine Keeps.ite ?_ ?_
        · refine rtcSlew_keeps _ _ _ (sub_of hm rfl) ?_
          refine rtcBarg_keeps _ (sub_of hm rfl) ?_
          exact h
        · exact h
    · exact h

theorem rtcWindow_keeps {m : Nat} {r s : State}  (hm : Sub 1034 m) (h : Keeps m r s) :
    Keeps m r (rtcWindow s) := by
  unfold rtcWindow
  refine publish_keeps _ (sub_of hm rfl) ?_
  exact h

theorem elementLow_keeps {m : Nat} {r s : State} (mv : Nat) (hm : Sub 1099515561002 m) (h : Keeps m r s) :
    Keeps m r (elementLow mv s) := by
  unfold elementLow
  extract_lets x6
  refine rtcShow_keeps (sub_of hm rfl) ?_
  refine rtcRec_keeps _ _ _ _ (sub_of hm rfl) ?_
  refine orReg_keeps _ _ (sub_of hm rfl) ?_
  refine Keeps.upd_rtc ?_ (hm 40 rfl)
  exact h

theorem loadTick_keeps {m : Nat} {r s : State}  (hm : Sub 33554432 m) (h : Keeps m r s) :
    Keeps m r (loadTick s) := by
  unfold loadTick
  refine Keeps.upd_fabTime ?_ (hm 25 rfl)
  exact h

theorem reportOne_keeps {m : Nat} {r s : State} (n : Nat) (hm : Sub 1099515560994 m) (h : Keeps m r s) :
    Keeps m r (reportOne s n) := by
  unfold reportOne
  extract_lets x6 x7 x8 x9 x10 x11
  have h12 : Keeps m r x8 := by
    refine rtcAck_keeps _ _ (sub_of hm rfl) ?_
    refine setReg_keeps _ _ (sub_of hm rfl) ?_
    exact h
  clear_value x8
  have h13 : Keeps m r x10 := by
    refine Keeps.ite ?_ ?_
    · refine setArm_keeps _ _ (sub_of hm rfl) ?_
      exact h12
    · exact h12
  clear_value x10
  have h14 : Keeps m r x11 := by
    refine orReg_keeps _ _ (sub_of hm rfl) ?_
    exact h13
  clear_value x11
  refine Keeps.ite ?_ ?_
  · exact h
  · refine Keeps.ite ?_ ?_
    · refine rtcRec_keeps _ _ _ _ (sub_of hm rfl) ?_
      exact h14
    · exact h14

theorem retentionReset_keeps {m : Nat} {r s : State}  (hm : Sub 1099511627776 m) (h : Keeps m r s) :
    Keeps m r (retentionReset s) := by
  unfold retentionReset
  extract_lets x5 x6
  have h7 : Keeps m r x5 := by
    subst x5
    refine Keeps.foldl _ _ (fun s6 a6 h6 => ?_) _ ?_
    · refine setAlm_keeps _ _ (sub_of hm rfl) ?_
      exact h6
    · exact h
  clear_value x5
  refine Keeps.upd_rtc ?_ (hm 40 rfl)
  exact h7

theorem rtcPhase0_keeps {m : Nat} {r s : State}  (hm : Sub 3933218 m) (h : Keeps m r s) :
    Keeps m r (rtcPhase0 s) := by
  unfold rtcPhase0
  extract_lets x5
  have h6 : Keeps m r x5 := by
    refine setRb_keeps _ _ _ (sub_of hm rfl) ?_
    exact h
  clear_value x5
  refine Keeps.ite ?_ ?_
  · refine rtcRec_keeps _ _ _ _ (sub_of hm rfl) ?_
    refine orReg_keeps _ _ (sub_of hm rfl) ?_
    exact h6
  · exact h6

theorem rtcPorts_keeps {m : Nat} {r s : State}  (hm : Sub 4031522 m) (h : Keeps m r s) :
    Keeps m r (rtcPorts s) := by
  unfold rtcPorts
  refine sendIn_keeps _ _ _ (sub_of hm rfl) ?_
  exact h

theorem tickPass_keeps {m : Nat} {r s : State} (c : Nat) (len : Nat) (hm : Sub 41943040 m) (h : Keeps m r s) :
    Keeps m r (tickPass c len s) := by
  unfold tickPass
  extract_lets x7
  refine Keeps.ite ?_ ?_
  · exact h
  · refine Keeps.upd_opUs_fabTime ?_ (hm 23 rfl) (hm 25 rfl)
    exact h

theorem rtcTick_keeps {m : Nat} {r s : State}  (hm : Sub 1099557602346 m) (h : Keeps m r s) :
    Keeps m r (rtcTick s) := by
  unfold rtcTick
  extract_lets x5 x6 x7 x8 x9 x10 x11
  have h12 : Keeps m r x10 := by
    refine Keeps.upd_rtc ?_ (hm 40 rfl)
    exact h
  clear_value x10
  have h13 : Keeps m r x11 := by
    subst x11
    refine Keeps.foldl _ _ (fun s12 a12 h12 => ?_) _ ?_
    · refine setAlm_keeps _ _ (sub_of hm rfl) ?_
      exact h12
    · exact h12
  clear_value x11
  refine tickPass_keeps _ _ (sub_of hm rfl) ?_
  refine rtcPorts_keeps (sub_of hm rfl) ?_
  refine rtcShow_keeps (sub_of hm rfl) ?_
  refine Keeps.ite ?_ ?_
  · refine orReg_keeps _ _ (sub_of hm rfl) ?_
    exact h13
  · exact h13

theorem switchover_keeps {m : Nat} {r s : State} (el : Bool) (mv : Nat) (hm : Sub 1099511627776 m) (h : Keeps m r s) :
    Keeps m r (switchover el mv s) := by
  unfold switchover
  extract_lets x7
  refine Keeps.upd_rtc ?_ (hm 40 rfl)
  exact h

theorem execAlarmReport_keeps {m : Nat} {r s : State}  (hm : Sub 1099515561002 m) (h : Keeps m r s) :
    KeepsO m r (execAlarmReport s) := by
  unfold execAlarmReport
  refine KeepsO.next ?_
  refine clockPath_keeps _ (sub_of hm rfl) ?_ ?_
  · exact h
  · intro q5 q6
    refine Keeps.foldl _ _ (fun s7 a7 h7 => ?_) _ ?_
    · refine reportOne_keeps _ (sub_of hm rfl) ?_
      exact h7
    · exact q6

theorem execBackupSwitchover_keeps {m : Nat} {r s : State} (toElement : Bool) (mv : BitVec 12) (hm : Sub 1099511628810 m) (h : Keeps m r s) :
    KeepsO m r (execBackupSwitchover toElement mv s) := by
  unfold execBackupSwitchover
  refine KeepsO.next ?_
  refine rtcShow_keeps (sub_of hm rfl) ?_
  refine switchover_keeps _ _ (sub_of hm rfl) ?_
  exact h

theorem execBargWord_keeps {m : Nat} {r s : State} (w : Word) (hm : Sub 1099511627776 m) (h : Keeps m r s) :
    KeepsO m r (execBargWord w s) := by
  unfold execBargWord
  refine KeepsO.next ?_
  refine rtcBarg_keeps _ (sub_of hm rfl) ?_
  exact h

theorem execBcmdAck_keeps {m : Nat} {r s : State} (w : BitVec 28) (hm : Sub 1099511628810 m) (h : Keeps m r s) :
    KeepsO m r (execBcmdAck w s) := by
  unfold execBcmdAck
  refine KeepsO.next ?_
  refine bcmdAck_keeps _ (sub_of hm rfl) ?_
  exact h

theorem execBcmdAlarm_keeps {m : Nat} {r s : State} (w : BitVec 28) (hm : Sub 1099511628810 m) (h : Keeps m r s) :
    KeepsO m r (execBcmdAlarm w s) := by
  unfold execBcmdAlarm
  refine KeepsO.next ?_
  refine bcmdAlarm_keeps _ (sub_of hm rfl) ?_
  exact h

theorem execBcmdAlmper_keeps {m : Nat} {r s : State} (w : BitVec 28) (hm : Sub 1099511628810 m) (h : Keeps m r s) :
    KeepsO m r (execBcmdAlmper w s) := by
  unfold execBcmdAlmper
  refine KeepsO.next ?_
  refine bcmdAlmper_keeps _ (sub_of hm rfl) ?_
  exact h

theorem execBcmdByte_keeps {m : Nat} {r s : State} (w : BitVec 28) (hm : Sub 1099511628810 m) (h : Keeps m r s) :
    KeepsO m r (execBcmdByte w s) := by
  unfold execBcmdByte
  refine KeepsO.next ?_
  refine bcmdByte_keeps _ (sub_of hm rfl) ?_
  exact h

theorem execBcmdChg_keeps {m : Nat} {r s : State} (w : BitVec 28) (hm : Sub 1099511628810 m) (h : Keeps m r s) :
    KeepsO m r (execBcmdChg w s) := by
  unfold execBcmdChg
  refine KeepsO.next ?_
  refine bcmdChg_keeps _ (sub_of hm rfl) ?_
  exact h

theorem execBcmdRead_keeps {m : Nat} {r s : State} (w : BitVec 28) (hm : Sub 1099511628810 m) (h : Keeps m r s) :
    KeepsO m r (execBcmdRead w s) := by
  unfold execBcmdRead
  refine KeepsO.next ?_
  refine bcmdRead_keeps _ (sub_of hm rfl) ?_
  exact h

theorem execBcmdSet_keeps {m : Nat} {r s : State} (w : BitVec 28) (hm : Sub 1099511628810 m) (h : Keeps m r s) :
    KeepsO m r (execBcmdSet w s) := by
  unfold execBcmdSet
  refine KeepsO.next ?_
  refine bcmdSet_keeps _ (sub_of hm rfl) ?_
  exact h

theorem execBcmdSlew_keeps {m : Nat} {r s : State} (w : BitVec 28) (hm : Sub 1099511628810 m) (h : Keeps m r s) :
    KeepsO m r (execBcmdSlew w s) := by
  unfold execBcmdSlew
  refine KeepsO.next ?_
  refine bcmdSlew_keeps _ (sub_of hm rfl) ?_
  exact h

theorem execBcmdSlewStop_keeps {m : Nat} {r s : State} (w : BitVec 28) (hm : Sub 1099511628810 m) (h : Keeps m r s) :
    KeepsO m r (execBcmdSlewStop w s) := by
  unfold execBcmdSlewStop
  refine KeepsO.next ?_
  refine bcmdSlewStop_keeps _ (sub_of hm rfl) ?_
  exact h

theorem execBcmdStep_keeps {m : Nat} {r s : State} (w : BitVec 28) (hm : Sub 1099511628810 m) (h : Keeps m r s) :
    KeepsO m r (execBcmdStep w s) := by
  unfold execBcmdStep
  refine KeepsO.next ?_
  refine bcmdStep_keeps _ (sub_of hm rfl) ?_
  exact h

theorem execBcmdTrim_keeps {m : Nat} {r s : State} (w : BitVec 28) (hm : Sub 1099511628810 m) (h : Keeps m r s) :
    KeepsO m r (execBcmdTrim w s) := by
  unfold execBcmdTrim
  refine KeepsO.next ?_
  refine bcmdTrim_keeps _ (sub_of hm rfl) ?_
  exact h

theorem execClockDiscipline_keeps {m : Nat} {r s : State}  (hm : Sub 3436011324458 m) (h : Keeps m r s) :
    KeepsO m r (execClockDiscipline s) := by
  unfold execClockDiscipline
  refine KeepsO.next ?_
  refine clockPath_keeps _ (sub_of hm rfl) ?_ ?_
  · exact h
  · intro q5 q6
    refine clockDiscipline_keeps (sub_of hm rfl) ?_
    exact q6

theorem execElementLow_keeps {m : Nat} {r s : State} (mv : BitVec 12) (hm : Sub 1099515561002 m) (h : Keeps m r s) :
    KeepsO m r (execElementLow mv s) := by
  unfold execElementLow
  refine KeepsO.next ?_
  refine elementLow_keeps _ (sub_of hm rfl) ?_
  exact h

theorem execRetentionReset_keeps {m : Nat} {r s : State}  (hm : Sub 1099511628810 m) (h : Keeps m r s) :
    KeepsO m r (execRetentionReset s) := by
  unfold execRetentionReset
  refine KeepsO.next ?_
  refine rtcShow_keeps (sub_of hm rfl) ?_
  refine retentionReset_keeps (sub_of hm rfl) ?_
  exact h

theorem execRetentionTrip_keeps {m : Nat} {r s : State}  (hm : Sub 1099511628810 m) (h : Keeps m r s) :
    KeepsO m r (execRetentionTrip s) := by
  unfold execRetentionTrip
  extract_lets x5
  refine KeepsO.next ?_
  refine rtcShow_keeps (sub_of hm rfl) ?_
  refine Keeps.upd_rtc ?_ (hm 40 rfl)
  exact h

theorem execRtcAlarmCfgWrite_keeps {m : Nat} {r s : State} (_m : Master) (n : Fin 8) (w : Word) (hm : Sub 1099511628810 m) (h : Keeps m r s) :
    KeepsO m r (execRtcAlarmCfgWrite _m n w s) := by
  unfold execRtcAlarmCfgWrite
  refine KeepsO.next ?_
  refine Keeps.ite ?_ ?_
  · exact h
  · refine almCfg_keeps _ _ (sub_of hm rfl) ?_
    exact h

theorem execRtcByteWrite_keeps {m : Nat} {r s : State} (_m : Master) (i : Fin 16) (w : Word) (hm : Sub 1099511628810 m) (h : Keeps m r s) :
    KeepsO m r (execRtcByteWrite _m i w s) := by
  unfold execRtcByteWrite
  refine KeepsO.next ?_
  refine Keeps.ite ?_ ?_
  · exact h
  · refine byteWrite_keeps _ _ (sub_of hm rfl) ?_
    exact h

theorem execRtcSet_keeps {m : Nat} {r s : State} (m0 : Master) (hm : Sub 1099515561002 m) (h : Keeps m r s) :
    KeepsO m r (execRtcSet m0 s) := by
  unfold execRtcSet
  refine KeepsO.next ?_
  refine Keeps.ite ?_ ?_
  · exact h
  · refine clockPath_keeps _ (sub_of hm rfl) ?_ ?_
    · exact h
    · intro q6 q7
      refine cmdSet_keeps _ (sub_of hm rfl) ?_
      exact q7

theorem execRtcSlew_keeps {m : Nat} {r s : State} (_m : Master) (period : BitVec 16) (faster : Bool) (hm : Sub 1099511628810 m) (h : Keeps m r s) :
    KeepsO m r (execRtcSlew _m period faster s) := by
  unfold execRtcSlew
  refine KeepsO.next ?_
  refine Keeps.ite ?_ ?_
  · exact h
  · refine clockPath_keeps _ (sub_of hm rfl) ?_ ?_
    · exact h
    · intro q8 q9
      refine cmdSlew_keeps _ _ (sub_of hm rfl) ?_
      exact q9

theorem execRtcSlewStop_keeps {m : Nat} {r s : State} (_m : Master) (hm : Sub 1099511628810 m) (h : Keeps m r s) :
    KeepsO m r (execRtcSlewStop _m s) := by
  unfold execRtcSlewStop
  refine KeepsO.next ?_
  refine Keeps.ite ?_ ?_
  · exact h
  · refine clockPath_keeps _ (sub_of hm rfl) ?_ ?_
    · exact h
    · intro q6 q7
      refine rtcSlewStop_keeps (sub_of hm rfl) ?_
      exact q7

theorem execRtcStep_keeps {m : Nat} {r s : State} (m0 : Master) (hm : Sub 1099515561002 m) (h : Keeps m r s) :
    KeepsO m r (execRtcStep m0 s) := by
  unfold execRtcStep
  refine KeepsO.next ?_
  refine Keeps.ite ?_ ?_
  · exact h
  · refine clockPath_keeps _ (sub_of hm rfl) ?_ ?_
    · exact h
    · intro q6 q7
      refine cmdStep_keeps _ (sub_of hm rfl) ?_
      exact q7

theorem execRtcTick_keeps {m : Nat} {r s : State}  (hm : Sub 1099557602346 m) (h : Keeps m r s) :
    KeepsO m r (execRtcTick s) := by
  unfold execRtcTick
  refine KeepsO.next ?_
  refine rtcTick_keeps (sub_of hm rfl) ?_
  exact h

end Sys2Proof.Machine
end

