-- ==== Sys2Proof/Laws/PairMember.lean ====
section
/-! SUPPORT. What each function of Machine/PairMember.lean keeps of the state (Laws/Keeps.lean). -/

namespace Sys2Proof.Machine

theorem agePath_keeps {m : Nat} {r s : State} (hi : Nat) (lo : Nat) (hm : Sub 2 m) (h : Keeps m r s) :
    Keeps m r (agePath hi lo s) := by
  unfold agePath
  refine satRf_keeps _ _ _ _ (sub_of hm rfl) ?_
  exact h

theorem aoutSend_keeps {m : Nat} {r s : State} (p : Nat) (w : Word) (hm : Sub 4031522 m) (h : Keeps m r s) :
    Keeps m r (aoutSend p w s) := by
  unfold aoutSend
  refine sendOut_keeps _ _ (sub_of hm rfl) ?_
  refine noteAout_keeps _ _ (sub_of hm rfl) ?_
  exact h

theorem setLease_keeps {m : Nat} {r s : State} (n : Nat) (hm : Sub 2 m) (h : Keeps m r s) :
    Keeps m r (setLease n s) := by
  unfold setLease
  refine setReg_keeps _ _ (sub_of hm rfl) ?_
  exact h

theorem leaseFrom_keeps {m : Nat} {r s : State} (us : Nat) (n : Nat) (hm : Sub 4294967298 m) (h : Keeps m r s) :
    Keeps m r (leaseFrom us n s) := by
  unfold leaseFrom
  extract_lets x7 x8
  have h9 : Keeps m r x7 := by
    refine setLease_keeps _ (sub_of hm rfl) ?_
    exact h
  clear_value x7
  refine Keeps.upd_pair ?_ (hm 32 rfl)
  exact h9

theorem sbShow_keeps {m : Nat} {r s : State} (k : Nat) (hm : Sub 2 m) (h : Keeps m r s) :
    Keeps m r (sbShow s k) := by
  unfold sbShow
  extract_lets x6
  refine setReg_keeps _ _ (sub_of hm rfl) ?_
  exact h

theorem parShow_keeps {m : Nat} {r s : State} (before : State) (hm : Sub 34430780458 m) (h : Keeps m r s) :
    Keeps m r (parShow before s) := by
  unfold parShow
  extract_lets x6 x7
  have h8 : Keeps m r x6 := by
    refine setRf_keeps _ _ _ _ (sub_of hm rfl) ?_
    refine setRb_keeps _ _ _ (sub_of hm rfl) ?_
    exact h
  clear_value x6
  have h9 : Keeps m r x7 := by
    refine Keeps.ite ?_ ?_
    · refine testCut_keeps _ (sub_of hm rfl) ?_
      exact h8
    · exact h8
  clear_value x7
  refine republish_keeps _ (sub_of hm rfl) ?_
  refine gateEdge_keeps _ (sub_of hm rfl) ?_
  refine Keeps.foldl _ _ (fun s10 a10 h10 => ?_) _ ?_
  · refine sbShow_keeps _ (sub_of hm rfl) ?_
    exact h10
  · exact h9

theorem parStep_keeps {m : Nat} {r s : State} (f : State → State) (hm : Sub 34430780458 m) (h : Keeps m r s) (hf : ∀ a0, Keeps m r a0 → Keeps m r (f a0)) :
    Keeps m r (parStep f s) := by
  unfold parStep
  refine parShow_keeps _ (sub_of hm rfl) ?_
  refine hf _ ?_
  exact h

theorem parTime_keeps {m : Nat} {r s : State} (us : Nat) (hm : Sub 38725747754 m) (h : Keeps m r s) :
    Keeps m r (parTime us s) := by
  unfold parTime
  extract_lets x6 x7
  have h8 : Keeps m r x7 := by
    refine Keeps.upd_pair ?_ (hm 32 rfl)
    exact h
  clear_value x7
  refine parStep_keeps _ (sub_of hm rfl) ?_ ?_
  · exact h8
  · intro q9 q10
    refine leaseFrom_keeps _ _ (sub_of hm rfl) ?_
    exact q10

theorem boxAnswered_keeps {m : Nat} {r s : State}  (hm : Sub 4294967298 m) (h : Keeps m r s) :
    Keeps m r (boxAnswered s) := by
  unfold boxAnswered
  extract_lets x5 x6
  have h7 : Keeps m r x5 := by
    refine setRb_keeps _ _ _ (sub_of hm rfl) ?_
    exact h
  clear_value x5
  refine Keeps.upd_pair ?_ (hm 32 rfl)
  exact h7

theorem leaseWrite_keeps {m : Nat} {r s : State} (w : Word) (hm : Sub 2203318222850 m) (h : Keeps m r s) :
    Keeps m r (leaseWrite w s) := by
  unfold leaseWrite
  extract_lets x6
  have h7 : Keeps m r x6.2 := by
    refine free_keeps (sub_of hm rfl) ?_
    exact h
  clear_value x6
  refine leaseFrom_keeps _ _ (sub_of hm rfl) ?_
  exact h7

theorem hbContent_keeps {m : Nat} {r s : State}  (hm : Sub 2 m) (h : Keeps m r s) :
    Keeps m r (hbContent s) := by
  unfold hbContent
  extract_lets x5
  refine setReg_keeps _ _ (sub_of hm rfl) ?_
  refine setReg_keeps _ _ (sub_of hm rfl) ?_
  refine setReg_keeps _ _ (sub_of hm rfl) ?_
  refine setReg_keeps _ _ (sub_of hm rfl) ?_
  refine setReg_keeps _ _ (sub_of hm rfl) ?_
  exact h

theorem setParState_keeps {m : Nat} {r s : State} (n : Nat) (hm : Sub 1836066 m) (h : Keeps m r s) :
    Keeps m r (setParState n s) := by
  unfold setParState
  refine Keeps.ite ?_ ?_
  · exact h
  · refine append_keeps _ _ _ _ (sub_of hm rfl) ?_
    refine setRf_keeps _ _ _ _ (sub_of hm rfl) ?_
    exact h

theorem parRelease_keeps {m : Nat} {r s : State}  (hm : Sub 38725747754 m) (h : Keeps m r s) :
    Keeps m r (parRelease s) := by
  unfold parRelease
  extract_lets x5 x6
  have h7 : Keeps m r x6 := by
    refine Keeps.upd_pair ?_ (hm 32 rfl)
    exact h
  clear_value x6
  refine parStep_keeps _ (sub_of hm rfl) ?_ ?_
  · exact h7
  · intro q8 q9
    refine Keeps.ite ?_ ?_
    · refine hbContent_keeps (sub_of hm rfl) ?_
      refine setParState_keeps _ (sub_of hm rfl) ?_
      exact q9
    · exact q9

theorem parRec_keeps {m : Nat} {r s : State} (code : Nat) (sev : Nat) (subject : Nat) (d : List Word) (hm : Sub 3933218 m) (h : Keeps m r s) :
    Keeps m r (parRec s code sev subject d) := by
  unfold parRec
  refine logOnce_keeps _ _ _ _ _ (sub_of hm rfl) ?_
  exact h

theorem enterActive_keeps {m : Nat} {r s : State}  (hm : Sub 3933218 m) (h : Keeps m r s) :
    Keeps m r (enterActive s) := by
  unfold enterActive
  extract_lets x5
  refine parRec_keeps _ _ _ _ (sub_of hm rfl) ?_
  refine satRf_keeps _ _ _ _ (sub_of hm rfl) ?_
  refine orReg_keeps _ _ (sub_of hm rfl) ?_
  refine setParState_keeps _ (sub_of hm rfl) ?_
  exact h

theorem enterSafe_keeps {m : Nat} {r s : State}  (hm : Sub 2615639114858 m) (h : Keeps m r s) :
    Keeps m r (enterSafe s) := by
  unfold enterSafe
  extract_lets x5 x6 x7
  have h8 : Keeps m r x5 := by
    refine setReg_keeps _ _ (sub_of hm rfl) ?_
    exact h
  clear_value x5
  have h9 : Keeps m r x7 := by
    refine Keeps.upd_pair ?_ (hm 32 rfl)
    exact h8
  clear_value x7
  refine faultOwn_keeps _ _ _ (sub_of hm rfl) ?_
  refine parRec_keeps _ _ _ _ (sub_of hm rfl) ?_
  refine orReg_keeps _ _ (sub_of hm rfl) ?_
  refine setParState_keeps _ (sub_of hm rfl) ?_
  exact h9

theorem pairCell_keeps {m : Nat} {r s : State} (dest : Nat) (payload : List Byte) (hm : Sub 412320892010 m) (h : Keeps m r s) :
    Keeps m r (pairCell dest payload s) := by
  unfold pairCell
  extract_lets x7
  have h8 : Keeps m r x7.2 := by
    refine mkCell_keeps _ _ _ _ _ _ _ (sub_of hm rfl) ?_
    exact h
  clear_value x7
  refine routeCell_keeps _ _ (sub_of hm rfl) ?_
  exact h8

theorem fabricHeartbeat_keeps {m : Nat} {r s : State}  (hm : Sub 416615859306 m) (h : Keeps m r s) :
    Keeps m r (fabricHeartbeat s) := by
  unfold fabricHeartbeat
  extract_lets x5
  refine Keeps.ite ?_ ?_
  · exact h
  · refine pairCell_keeps _ _ (sub_of hm rfl) ?_
    refine Keeps.upd_pair ?_ (hm 32 rfl)
    exact h

theorem gatedOut_keeps {m : Nat} {r s : State} (g : Nat) (w : Word) (hm : Sub 71140386 m) (h : Keeps m r s) :
    Keeps m r (gatedOut g w s) := by
  unfold gatedOut
  extract_lets x7
  have h8 : Keeps m r x7.2 := by
    refine gateWrite_keeps _ _ (sub_of hm rfl) ?_
    exact h
  clear_value x7
  refine sendOut_keeps _ _ (sub_of hm rfl) ?_
  exact h8

theorem grant_keeps {m : Nat} {r s : State} (req : Nat) (cycle : Nat) (fromBox : Bool) (hm : Sub 4294967298 m) (h : Keeps m r s) :
    Keeps m r (grant req cycle fromBox s) := by
  unfold grant
  extract_lets x8 x9 x10
  have h11 : Keeps m r x8 := by
    refine Keeps.ite ?_ ?_
    · refine boxAnswered_keeps (sub_of hm rfl) ?_
      exact h
    · exact h
  clear_value x8
  refine Keeps.ite ?_ ?_
  · exact h
  · split
    · extract_lets x15
      have h16 : Keeps m r x15 := by
        refine setLease_keeps _ (sub_of hm rfl) ?_
        exact h11
      clear_value x15
      refine Keeps.ite ?_ ?_
      · exact h11
      · refine Keeps.upd_pair ?_ (hm 32 rfl)
        exact h16
    · exact h11

theorem hbBad_keeps {m : Nat} {r s : State} (onFabric : Bool) (hm : Sub 3933218 m) (h : Keeps m r s) :
    Keeps m r (hbBad onFabric s) := by
  unfold hbBad
  extract_lets x6
  have h7 : Keeps m r x6 := by
    refine orReg_keeps _ _ (sub_of hm rfl) ?_
    refine Keeps.ite ?_ ?_
    · refine satRf_keeps _ _ _ _ (sub_of hm rfl) ?_
      exact h
    · refine satRf_keeps _ _ _ _ (sub_of hm rfl) ?_
      exact h
  clear_value x6
  refine parRec_keeps _ _ _ _ (sub_of hm rfl) ?_
  exact h7

theorem ownGrant_keeps {m : Nat} {r s : State} (req : Nat) (hm : Sub 4294967298 m) (h : Keeps m r s) :
    Keeps m r (ownGrant req s) := by
  unfold ownGrant
  extract_lets x6 x7
  have h8 : Keeps m r x6 := by
    refine setRf_keeps _ _ _ _ (sub_of hm rfl) ?_
    exact h
  clear_value x6
  refine Keeps.upd_pair ?_ (hm 32 rfl)
  exact h8

theorem hbTake_keeps {m : Nat} {r s : State} (onFabric : Bool) (ws : List Word) (hm : Sub 4298900514 m) (h : Keeps m r s) :
    Keeps m r (hbTake onFabric ws s) := by
  unfold hbTake
  extract_lets x7 x8 x9 x10 x11 x12 x13 x14 x15 x16 x17 x18 x19 x20
  have h21 : Keeps m r x12 := by
    refine Keeps.ite ?_ ?_
    · refine setRb_keeps _ _ _ (sub_of hm rfl) ?_
      refine setRf_keeps _ _ _ _ (sub_of hm rfl) ?_
      exact h
    · refine Keeps.foldl _ _ (fun s21 a21 h21 => ?_) _ ?_
      · refine setReg_keeps _ _ (sub_of hm rfl) ?_
        exact h21
      · refine setRb_keeps _ _ _ (sub_of hm rfl) ?_
        refine setRf_keeps _ _ _ _ (sub_of hm rfl) ?_
        exact h
  clear_value x12
  have h22 : Keeps m r x14 := by
    refine setRb_keeps _ _ _ (sub_of hm rfl) ?_
    exact h21
  clear_value x14
  have h23 : Keeps m r x16 := by
    refine Keeps.upd_pair ?_ (hm 32 rfl)
    exact h22
  clear_value x16
  have h24 : Keeps m r x18 := by
    refine Keeps.ite ?_ ?_
    · refine ownGrant_keeps _ (sub_of hm rfl) ?_
      exact h23
    · exact h23
  clear_value x18
  have h25 : Keeps m r x19 := by
    refine Keeps.ite ?_ ?_
    · refine parRec_keeps _ _ _ _ (sub_of hm rfl) ?_
      refine orReg_keeps _ _ (sub_of hm rfl) ?_
      exact h24
    · exact h24
  clear_value x19
  have h26 : Keeps m r x20 := by
    refine parRec_keeps _ _ _ _ (sub_of hm rfl) ?_
    refine orReg_keeps _ _ (sub_of hm rfl) ?_
    exact h25
  clear_value x20
  refine Keeps.ite ?_ ?_
  · refine Keeps.ite ?_ ?_
    · refine setParState_keeps _ (sub_of hm rfl) ?_
      refine setLease_keeps _ (sub_of hm rfl) ?_
      exact h26
    · exact h26
  · exact h25

theorem heartbeatSend_keeps {m : Nat} {r s : State}  (hm : Sub 4294967298 m) (h : Keeps m r s) :
    Keeps m r (heartbeatSend s) := by
  unfold heartbeatSend
  extract_lets x5 x6
  have h7 : Keeps m r x6 := by
    refine Keeps.upd_pair ?_ (hm 32 rfl)
    exact h
  clear_value x6
  refine Keeps.ite ?_ ?_
  · exact h
  · refine agePath_keeps _ _ (sub_of hm rfl) ?_
    refine agePath_keeps _ _ (sub_of hm rfl) ?_
    refine addReg_keeps _ _ (sub_of hm rfl) ?_
    exact h7

theorem kindCell_keeps {m : Nat} {r s : State} (k : PairCell) (hm : Sub 416615859306 m) (h : Keeps m r s) :
    Keeps m r (kindCell k s) := by
  unfold kindCell
  extract_lets x6 x7
  refine pairCell_keeps _ _ (sub_of hm rfl) ?_
  refine Keeps.upd_pair ?_ (hm 32 rfl)
  exact h

theorem leaseRequest_keeps {m : Nat} {r s : State} (answered : Bool) (cycle : Nat) (hm : Sub 416615859306 m) (h : Keeps m r s) :
    Keeps m r (leaseRequest answered cycle s) := by
  unfold leaseRequest
  extract_lets x7 x8 x9 x10
  have h11 : Keeps m r x9 := by
    refine setRf_keeps _ _ _ _ (sub_of hm rfl) ?_
    refine Keeps.upd_pair ?_ (hm 32 rfl)
    exact h
  clear_value x9
  have h12 : Keeps m r x10 := by
    refine kindCell_keeps _ (sub_of hm rfl) ?_
    exact h11
  clear_value x10
  refine Keeps.ite ?_ ?_
  · exact h
  · refine Keeps.ite ?_ ?_
    · refine Keeps.ite ?_ ?_
      · refine boxAnswered_keeps (sub_of hm rfl) ?_
        exact h12
      · exact h12
    · exact h11

theorem leaveSafe_keeps {m : Nat} {r s : State} (n : Nat) (hm : Sub 1836066 m) (h : Keeps m r s) :
    Keeps m r (leaveSafe n s) := by
  unfold leaveSafe
  refine setParState_keeps _ (sub_of hm rfl) ?_
  refine setReg_keeps _ _ (sub_of hm rfl) ?_
  exact h

theorem pairMove_keeps {m : Nat} {r s : State}  (hm : Sub 2615639114858 m) (h : Keeps m r s) :
    Keeps m r (pairMove s) := by
  unfold pairMove
  extract_lets x5 x6
  split
  · refine Keeps.ite ?_ ?_
    · refine enterActive_keeps (sub_of hm rfl) ?_
      exact h
    · refine Keeps.ite ?_ ?_
      · refine setParState_keeps _ (sub_of hm rfl) ?_
        exact h
      · refine Keeps.ite ?_ ?_
        · refine enterSafe_keeps (sub_of hm rfl) ?_
          exact h
        · exact h
  · refine Keeps.ite ?_ ?_
    · refine parRec_keeps _ _ _ _ (sub_of hm rfl) ?_
      refine satRf_keeps _ _ _ _ (sub_of hm rfl) ?_
      refine orReg_keeps _ _ (sub_of hm rfl) ?_
      refine setParState_keeps _ (sub_of hm rfl) ?_
      exact h
    · exact h
  · refine Keeps.ite ?_ ?_
    · refine setParState_keeps _ (sub_of hm rfl) ?_
      exact h
    · exact h
  · refine Keeps.ite ?_ ?_
    · refine leaveSafe_keeps _ (sub_of hm rfl) ?_
      exact h
    · refine Keeps.ite ?_ ?_
      · refine leaveSafe_keeps _ (sub_of hm rfl) ?_
        exact h
      · exact h
  · exact h

theorem pairTurn_keeps {m : Nat} {r s : State}  (hm : Sub 2615639114858 m) (h : Keeps m r s) :
    Keeps m r (pairTurn s) := by
  unfold pairTurn
  extract_lets x5 x6
  have h7 : Keeps m r x5 := by
    refine pairMove_keeps (sub_of hm rfl) ?_
    exact h
  clear_value x5
  refine Keeps.upd_pair ?_ (hm 32 rfl)
  exact h7

theorem safeChannel_keeps {m : Nat} {r s : State} (i : Nat) (hm : Sub 4294967296 m) (h : Keeps m r s) :
    Keeps m r (safeChannel s i) := by
  unfold safeChannel
  extract_lets x6 x7 x8 x9
  refine Keeps.ite ?_ ?_
  · exact h
  · refine Keeps.ite ?_ ?_
    · refine Keeps.upd_pair ?_ (hm 32 rfl)
      exact h
    · refine Keeps.ite ?_ ?_
      · refine Keeps.upd_pair ?_ (hm 32 rfl)
        exact h
      · refine Keeps.ite ?_ ?_
        · refine Keeps.upd_pair ?_ (hm 32 rfl)
          exact h
        · refine Keeps.ite ?_ ?_
          · refine Keeps.upd_pair ?_ (hm 32 rfl)
            exact h
          · exact h

theorem safeValues_keeps {m : Nat} {r s : State}  (hm : Sub 4366107682 m) (h : Keeps m r s) :
    Keeps m r (safeValues s) := by
  unfold safeValues
  extract_lets x5 x6
  have h7 : Keeps m r x5 := by
    subst x5
    refine Keeps.foldl _ _ (fun s6 a6 h6 => ?_) _ ?_
    · refine safeChannel_keeps _ (sub_of hm rfl) ?_
      exact h6
    · exact h
  clear_value x5
  have h8 : Keeps m r x6 := by
    refine gatedOut_keeps _ _ (sub_of hm rfl) ?_
    refine gatedOut_keeps _ _ (sub_of hm rfl) ?_
    exact h7
  clear_value x6
  refine Keeps.foldl _ _ (fun s9 a9 h9 => ?_) _ ?_
  · extract_lets x12 x13
    have h14 : Keeps m r x13 := by
      subst x13
      refine Keeps.foldl _ _ (fun s13 a13 h13 => ?_) _ ?_
      · refine aoutSend_keeps _ _ (sub_of hm rfl) ?_
        exact h13
      · exact h9
    clear_value x13
    refine gatedOut_keeps _ _ (sub_of hm rfl) ?_
    exact h14
  · exact h8

theorem pairRun_keeps {m : Nat} {r s : State}  (hm : Sub 2650065962090 m) (h : Keeps m r s) :
    Keeps m r (pairRun s) := by
  unfold pairRun
  extract_lets x5
  have h6 : Keeps m r x5 := by
    refine parStep_keeps _ (sub_of hm rfl) ?_ ?_
    · exact h
    · intro q6 q7
      refine pairTurn_keeps (sub_of hm rfl) ?_
      exact q7
  clear_value x5
  refine Keeps.ite ?_ ?_
  · exact h
  · refine hbContent_keeps (sub_of hm rfl) ?_
    refine Keeps.ite ?_ ?_
    · refine safeValues_keeps (sub_of hm rfl) ?_
      exact h6
    · exact h6

theorem pathLost_keeps {m : Nat} {r s : State} (onFabric : Bool) (hm : Sub 2615639114858 m) (h : Keeps m r s) :
    Keeps m r (pathLost onFabric s) := by
  unfold pathLost
  extract_lets x6 x7 x8 x9 x10 x11
  have h12 : Keeps m r x7 := by
    refine Keeps.upd_pair ?_ (hm 32 rfl)
    exact h
  clear_value x7
  have h13 : Keeps m r x8 := by
    refine orReg_keeps _ _ (sub_of hm rfl) ?_
    refine setRb_keeps _ _ _ (sub_of hm rfl) ?_
    exact h12
  clear_value x8
  have h14 : Keeps m r x9 := by
    refine parRec_keeps _ _ _ _ (sub_of hm rfl) ?_
    exact h13
  clear_value x9
  refine Keeps.ite ?_ ?_
  · exact h
  · refine Keeps.ite ?_ ?_
    · refine faultOwn_keeps _ _ _ (sub_of hm rfl) ?_
      refine parRec_keeps _ _ _ _ (sub_of hm rfl) ?_
      refine orReg_keeps _ _ (sub_of hm rfl) ?_
      refine Keeps.upd_pair ?_ (hm 32 rfl)
      exact h14
    · exact h14

theorem probe_keeps {m : Nat} {r s : State} (answered : Bool) (hm : Sub 416615859306 m) (h : Keeps m r s) :
    Keeps m r (probe answered s) := by
  unfold probe
  extract_lets x6
  have h7 : Keeps m r x6 := by
    refine kindCell_keeps _ (sub_of hm rfl) ?_
    exact h
  clear_value x6
  refine Keeps.ite ?_ ?_
  · exact h
  · refine Keeps.ite ?_ ?_
    · refine boxAnswered_keeps (sub_of hm rfl) ?_
      exact h7
    · exact h7

theorem setSb_keeps {m : Nat} {r s : State} (k : Nat) (x : SbRec) (hm : Sub 4294967296 m) (h : Keeps m r s) :
    Keeps m r (setSb k x s) := by
  unfold setSb
  extract_lets x7
  refine Keeps.upd_pair ?_ (hm 32 rfl)
  exact h

theorem sbGrant_keeps {m : Nat} {r s : State} (k : Nat) (x : Nat) (req : Nat) (hm : Sub 416615859306 m) (h : Keeps m r s) :
    Keeps m r (sbGrant k x req s) := by
  unfold sbGrant
  extract_lets x8 x9
  have h10 : Keeps m r x9 := by
    refine Keeps.ite ?_ ?_
    · refine parRec_keeps _ _ _ _ (sub_of hm rfl) ?_
      exact h
    · exact h
  clear_value x9
  refine kindCell_keeps _ (sub_of hm rfl) ?_
  refine setSb_keeps _ _ (sub_of hm rfl) ?_
  exact h10

theorem sbLost_keeps {m : Nat} {r s : State}  (hm : Sub 3933218 m) (h : Keeps m r s) :
    Keeps m r (sbLost s) := by
  unfold sbLost
  refine Keeps.ite ?_ ?_
  · exact h
  · refine parRec_keeps _ _ _ _ (sub_of hm rfl) ?_
    refine orReg_keeps _ _ (sub_of hm rfl) ?_
    refine setRb_keeps _ _ _ (sub_of hm rfl) ?_
    exact h

theorem sbPending_keeps {m : Nat} {r s : State} (k : Nat) (hm : Sub 416615859306 m) (h : Keeps m r s) :
    Keeps m r (sbPending s k) := by
  unfold sbPending
  extract_lets x6
  split
  · extract_lets x12 x13
    have h14 : Keeps m r x12 := by
      refine Keeps.ite ?_ ?_
      · refine sbGrant_keeps _ _ _ (sub_of hm rfl) ?_
        exact h
      · exact h
    clear_value x12
    refine Keeps.ite ?_ ?_
    · refine setSb_keeps _ _ (sub_of hm rfl) ?_
      exact h14
    · exact h
  · exact h

theorem sbState_keeps {m : Nat} {r s : State} (k : Nat) (x : Nat) (valid : Bool) (hm : Sub 416615859306 m) (h : Keeps m r s) :
    Keeps m r (sbState k x valid s) := by
  unfold sbState
  extract_lets x8
  refine kindCell_keeps _ (sub_of hm rfl) ?_
  exact h

theorem signalBox_keeps {m : Nat} {r s : State} (k : Nat) (x : Nat) (isProbe : Bool) (req : Nat) (hm : Sub 416615859306 m) (h : Keeps m r s) :
    Keeps m r (signalBox k x isProbe req s) := by
  unfold signalBox
  extract_lets x9
  refine Keeps.ite ?_ ?_
  · exact h
  · refine Keeps.ite ?_ ?_
    · refine sbState_keeps _ _ _ (sub_of hm rfl) ?_
      exact h
    · refine Keeps.ite ?_ ?_
      · refine sbState_keeps _ _ _ (sub_of hm rfl) ?_
        exact h
      · refine Keeps.ite ?_ ?_
        · refine sbGrant_keeps _ _ _ (sub_of hm rfl) ?_
          exact h
        · refine sbState_keeps _ _ _ (sub_of hm rfl) ?_
          refine setSb_keeps _ _ (sub_of hm rfl) ?_
          exact h

theorem execFabricHeartbeat_keeps {m : Nat} {r s : State}  (hm : Sub 451042706538 m) (h : Keeps m r s) :
    KeepsO m r (execFabricHeartbeat s) := by
  unfold execFabricHeartbeat
  refine KeepsO.next ?_
  refine parStep_keeps _ (sub_of hm rfl) ?_ ?_
  · exact h
  · intro q5 q6
    refine fabricHeartbeat_keeps (sub_of hm rfl) ?_
    exact q6

theorem execHeartbeatReceive_keeps {m : Nat} {r s : State} (overFabric : Bool) (ws : List Word) (hm : Sub 38725747754 m) (h : Keeps m r s) :
    KeepsO m r (execHeartbeatReceive overFabric ws s) := by
  unfold execHeartbeatReceive
  refine KeepsO.next ?_
  refine Keeps.ite ?_ ?_
  · refine parStep_keeps _ (sub_of hm rfl) ?_ ?_
    · exact h
    · intro q7 q8
      refine Keeps.ite ?_ ?_
      · refine hbTake_keeps _ _ (sub_of hm rfl) ?_
        exact q8
      · refine hbBad_keeps _ (sub_of hm rfl) ?_
        exact q8
  · exact h

theorem execHeartbeatSend_keeps {m : Nat} {r s : State}  (hm : Sub 38725747754 m) (h : Keeps m r s) :
    KeepsO m r (execHeartbeatSend s) := by
  unfold execHeartbeatSend
  refine KeepsO.next ?_
  refine parStep_keeps _ (sub_of hm rfl) ?_ ?_
  · exact h
  · intro q5 q6
    refine heartbeatSend_keeps (sub_of hm rfl) ?_
    exact q6

theorem execLeaseExpiry_keeps {m : Nat} {r s : State}  (hm : Sub 34430780458 m) (h : Keeps m r s) :
    KeepsO m r (execLeaseExpiry s) := by
  unfold execLeaseExpiry
  refine KeepsO.next ?_
  refine parStep_keeps _ (sub_of hm rfl) ?_ ?_
  · exact h
  · intro q5 q6
    refine setLease_keeps _ (sub_of hm rfl) ?_
    exact q6

theorem execLeaseRequest_keeps {m : Nat} {r s : State} (answered : Bool) (cycle : BitVec 17) (hm : Sub 451042706538 m) (h : Keeps m r s) :
    KeepsO m r (execLeaseRequest answered cycle s) := by
  unfold execLeaseRequest
  refine KeepsO.next ?_
  refine parStep_keeps _ (sub_of hm rfl) ?_ ?_
  · exact h
  · intro q7 q8
    refine leaseRequest_keeps _ _ (sub_of hm rfl) ?_
    exact q8

theorem execPairStateChange_keeps {m : Nat} {r s : State}  (hm : Sub 2650065962090 m) (h : Keeps m r s) :
    KeepsO m r (execPairStateChange s) := by
  unfold execPairStateChange
  refine KeepsO.next ?_
  refine pairRun_keeps (sub_of hm rfl) ?_
  exact h

theorem execParGateWrite_keeps {m : Nat} {r s : State} (_m : Master) (w : Word) (hm : Sub 34430780458 m) (h : Keeps m r s) :
    KeepsO m r (execParGateWrite _m w s) := by
  unfold execParGateWrite
  refine KeepsO.next ?_
  refine Keeps.ite ?_ ?_
  · exact h
  · refine parStep_keeps _ (sub_of hm rfl) ?_ ?_
    · exact h
    · intro q7 q8
      refine setReg_keeps _ _ (sub_of hm rfl) ?_
      exact q8

theorem execParGrant_keeps {m : Nat} {r s : State} (req : BitVec 16) (cycle : BitVec 17) (fromBox : Bool) (hm : Sub 38725747754 m) (h : Keeps m r s) :
    KeepsO m r (execParGrant req cycle fromBox s) := by
  unfold execParGrant
  refine KeepsO.next ?_
  refine parStep_keeps _ (sub_of hm rfl) ?_ ?_
  · exact h
  · intro q8 q9
    refine grant_keeps _ _ _ (sub_of hm rfl) ?_
    exact q9

theorem execParLeaseWrite_keeps {m : Nat} {r s : State} (_m : Master) (w : Word) (hm : Sub 2237749003306 m) (h : Keeps m r s) :
    KeepsO m r (execParLeaseWrite _m w s) := by
  unfold execParLeaseWrite
  refine KeepsO.next ?_
  refine Keeps.ite ?_ ?_
  · exact h
  · refine parStep_keeps _ (sub_of hm rfl) ?_ ?_
    · exact h
    · intro q7 q8
      refine leaseWrite_keeps _ (sub_of hm rfl) ?_
      exact q8

theorem execParProbe_keeps {m : Nat} {r s : State} (answered : Bool) (hm : Sub 451042706538 m) (h : Keeps m r s) :
    KeepsO m r (execParProbe answered s) := by
  unfold execParProbe
  refine KeepsO.next ?_
  refine parStep_keeps _ (sub_of hm rfl) ?_ ?_
  · exact h
  · intro q6 q7
    refine probe_keeps _ (sub_of hm rfl) ?_
    exact q7

theorem execPathLost_keeps {m : Nat} {r s : State} (onFabric : Bool) (hm : Sub 2650065962090 m) (h : Keeps m r s) :
    KeepsO m r (execPathLost onFabric s) := by
  unfold execPathLost
  refine KeepsO.next ?_
  refine parStep_keeps _ (sub_of hm rfl) ?_ ?_
  · exact h
  · intro q6 q7
    refine pathLost_keeps _ (sub_of hm rfl) ?_
    exact q7

theorem execSbLost_keeps {m : Nat} {r s : State}  (hm : Sub 34430780458 m) (h : Keeps m r s) :
    KeepsO m r (execSbLost s) := by
  unfold execSbLost
  refine KeepsO.next ?_
  refine parStep_keeps _ (sub_of hm rfl) ?_ ?_
  · exact h
  · intro q5 q6
    refine sbLost_keeps (sub_of hm rfl) ?_
    exact q6

theorem execSignalBoxPendingGrant_keeps {m : Nat} {r s : State}  (hm : Sub 451042706538 m) (h : Keeps m r s) :
    KeepsO m r (execSignalBoxPendingGrant s) := by
  unfold execSignalBoxPendingGrant
  refine KeepsO.next ?_
  refine parStep_keeps _ (sub_of hm rfl) ?_ ?_
  · exact h
  · intro q5 q6
    refine Keeps.ite ?_ ?_
    · refine Keeps.foldl _ _ (fun s7 a7 h7 => ?_) _ ?_
      · refine sbPending_keeps _ (sub_of hm rfl) ?_
        exact h7
      · exact q6
    · exact q6

theorem execSignalBoxRequest_keeps {m : Nat} {r s : State} (k : Fin 16) (member : Bool) (probe : Bool) (req : BitVec 16) (hm : Sub 451042706538 m) (h : Keeps m r s) :
    KeepsO m r (execSignalBoxRequest k member probe req s) := by
  unfold execSignalBoxRequest
  refine KeepsO.next ?_
  refine parStep_keeps _ (sub_of hm rfl) ?_ ?_
  · exact h
  · intro q9 q10
    refine signalBox_keeps _ _ _ _ (sub_of hm rfl) ?_
    exact q10

end Sys2Proof.Machine
end

