-- ==== Sys2Proof/Laws/SecObj.lean ====
section
/-! SUPPORT. What each function of Machine/SecObj.lean keeps of the state (Laws/Keeps.lean). -/

namespace Sys2Proof.Machine

theorem putOut_keeps {m : Nat} {r s : State} (l : List Byte) (hm : Sub 1034 m) (h : Keeps m r s) :
    Keeps m r (putOut l s) := by
  unfold putOut
  refine Keeps.foldl _ _ (fun s6 a6 h6 => ?_) _ ?_
  · refine publish_keeps _ (sub_of hm rfl) ?_
    exact h6
  · refine setReg_keeps _ _ (sub_of hm rfl) ?_
    exact h

theorem answer_keeps {m : Nat} {r s : State} (w : Word) (code : Nat) (out : List Byte) (hm : Sub 68719477770 m) (h : Keeps m r s) :
    Keeps m r (answer w code out s) := by
  unfold answer
  extract_lets x8 x9 x10
  have h11 : Keeps m r x8 := by
    refine putOut_keeps _ (sub_of hm rfl) ?_
    exact h
  clear_value x8
  have h12 : Keeps m r x10 := by
    refine Keeps.upd_sec ?_ (hm 36 rfl) (fun hl => hl) (fun hr => hr)
    exact h11
  clear_value x10
  refine secShow_keeps (sub_of hm rfl) ?_
  refine setReg_keeps _ _ (sub_of hm rfl) ?_
  exact h12

theorem attest_keeps {m : Nat} {r s : State} (n : Nat) (ws : List Word) (hm : Sub 2199023255552 m) (h : Keeps m r s) :
    Keeps m r (attest n ws s).2.2 := by
  unfold attest
  extract_lets x7 x8
  have h9 : Keeps m r x8.2 := by
    refine signIdentity_keeps _ (sub_of hm rfl) ?_
    exact h
  clear_value x8
  refine Keeps.ite3 ?_ ?_
  · refine Keeps.mk3 ?_
    exact h
  · refine Keeps.mk3 ?_
    exact h9

theorem reqServe_keeps {m : Nat} {r s : State}  (hm : Sub 2267742733322 m) (h : Keeps m r s) :
    Keeps m r (reqServe s) := by
  unfold reqServe
  extract_lets x5 x6
  have h7 : Keeps m r x6.2.2 := by
    refine attest_keeps _ _ (sub_of hm rfl) ?_
    exact h
  clear_value x6
  split
  · exact h
  · split
    · split
      · refine answer_keeps _ _ _ (sub_of hm rfl) ?_
        exact h
      · refine answer_keeps _ _ _ (sub_of hm rfl) ?_
        exact h
    · refine Keeps.ite ?_ ?_
      · refine answer_keeps _ _ _ (sub_of hm rfl) ?_
        exact h
      · refine answer_keeps _ _ _ (sub_of hm rfl) ?_
        exact h
    · refine Keeps.ite ?_ ?_
      · refine answer_keeps _ _ _ (sub_of hm rfl) ?_
        exact h
      · refine answer_keeps _ _ _ (sub_of hm rfl) ?_
        exact h7
    · refine answer_keeps _ _ _ (sub_of hm rfl) ?_
      exact h

theorem objClose_keeps {m : Nat} {r s : State} (code : Nat) (hm : Sub 68719476738 m) (h : Keeps m r s) :
    Keeps m r (objClose code s) := by
  unfold objClose
  extract_lets x6 x7
  have h8 : Keeps m r x7 := by
    refine Keeps.upd_sec ?_ (hm 36 rfl) (fun hl => hl) (fun hr => hr)
    exact h
  clear_value x7
  refine setRf_keeps _ _ _ _ (sub_of hm rfl) ?_
  refine setRf_keeps _ _ _ _ (sub_of hm rfl) ?_
  exact h8

theorem objResult_keeps {m : Nat} {r s : State} (kind : Nat) (code : Nat) (hm : Sub 68721312810 m) (h : Keeps m r s) :
    Keeps m r (objResult kind code s) := by
  unfold objResult
  refine secShow_keeps (sub_of hm rfl) ?_
  refine Keeps.ite ?_ ?_
  · refine secEvt_keeps _ (sub_of hm rfl) ?_
    refine objClose_keeps _ (sub_of hm rfl) ?_
    exact h
  · refine refused_keeps _ _ (sub_of hm rfl) ?_
    refine objClose_keeps _ (sub_of hm rfl) ?_
    exact h

theorem genStore_keeps {m : Nat} {r s : State}  (hm : Sub 512 m) (h : Keeps m r s) :
    Keeps m r (genStore s) := by
  unfold genStore
  extract_lets x5
  refine Keeps.upd_store ?_ (hm 9 rfl) (fun w0 w => (memWf_memCopy _ _ _ _ _ w.2.2.2.2.2 (memWf_memZero _ _ _ w.2.2.2.2.2)))
  exact h

theorem submitServe_keeps {m : Nat} {r s : State} (o : Obj) (ok : Bool) (hm : Sub 2413775554346 m) (h : Keeps m r s) :
    Keeps m r (submitServe o ok s) := by
  unfold submitServe
  extract_lets x7 x8 x9 x10 x11
  have h12 : Keeps m r x8 := by
    refine Keeps.upd_sec ?_ (hm 36 rfl) (fun hl => hl) (fun hr => hr)
    exact h
  clear_value x8
  have h13 : Keeps m r x10.2 := by
    refine deliver_keeps _ _ (sub_of hm rfl) ?_
    exact h12
  clear_value x10
  split
  · refine secShow_keeps (sub_of hm rfl) ?_
    refine objClose_keeps _ (sub_of hm rfl) ?_
    exact h13
  · refine Keeps.ite ?_ ?_
    · refine objResult_keeps _ _ (sub_of hm rfl) ?_
      exact h12
    · refine Keeps.ite ?_ ?_
      · refine objResult_keeps _ _ (sub_of hm rfl) ?_
        exact h12
      · refine objResult_keeps _ _ (sub_of hm rfl) ?_
        refine genStore_keeps (sub_of hm rfl) ?_
        exact h12
  · split
    · refine Keeps.ite ?_ ?_
      · refine objResult_keeps _ _ (sub_of hm rfl) ?_
        refine Keeps.ite ?_ ?_
        · refine xferEnd_keeps _ (sub_of hm rfl) ?_
          exact h12
        · exact h12
      · refine objResult_keeps _ _ (sub_of hm rfl) ?_
        refine Keeps.ite ?_ ?_
        · refine xferEnd_keeps _ (sub_of hm rfl) ?_
          exact h12
        · exact h12
    · refine objResult_keeps _ _ (sub_of hm rfl) ?_
      exact h12

theorem objHeader_keeps {m : Nat} {r s : State} (h0 : List Byte) (hm : Sub 206162364202 m) (h : Keeps m r s) :
    Keeps m r (objHeader h0 s) := by
  unfold objHeader
  extract_lets x6 x7 x8 x9 x10 x11
  have h12 : Keeps m r x7 := by
    refine xferEnd_keeps _ (sub_of hm rfl) ?_
    exact h
  clear_value x7
  have h13 : Keeps m r x10 := by
    refine xferAccept_keeps _ _ (sub_of hm rfl) ?_
    exact h12
  clear_value x10
  refine Keeps.ite ?_ ?_
  · refine objResult_keeps _ _ (sub_of hm rfl) ?_
    refine xferRefuse_keeps _ _ (sub_of hm rfl) ?_
    refine Keeps.upd_sec ?_ (hm 36 rfl) (fun hl => hl) (fun hr => hr)
    exact h12
  · refine secShow_keeps (sub_of hm rfl) ?_
    refine Keeps.upd_sec ?_ (hm 36 rfl) (fun hl => hl) (fun hr => hr)
    exact h13

theorem objImage_keeps {m : Nat} {r s : State} (o : Obj) (hm : Sub 206162364202 m) (h : Keeps m r s) :
    Keeps m r (objImage o s) := by
  unfold objImage
  split
  · extract_lets x11 x12 x13 x14 x15
    have h16 : Keeps m r x13.2 := by
      refine storeChunk_keeps _ _ _ (sub_of hm rfl) ?_
      exact h
    clear_value x13
    have h17 : Keeps m r x14 := by
      subst x14
      exact h16
    clear_value x14
    refine Keeps.ite ?_ ?_
    · refine Keeps.ite ?_ ?_
      · refine objResult_keeps _ _ (sub_of hm rfl) ?_
        exact h16
      · refine secShow_keeps (sub_of hm rfl) ?_
        refine Keeps.upd_sec ?_ (hm 36 rfl) ?_ ?_
        · exact h17
        · exact fun _ => h16.lcn
        · exact fun _ => h16.retired
    · exact h
  · exact h
  · refine Keeps.ite ?_ ?_
    · refine objHeader_keeps _ (sub_of hm rfl) ?_
      exact h
    · exact h

theorem memWf_objErase (n : Nat) (m : List Host.Cell) (w : memWf m = true) : memWf (objErase n m) = true := by
  unfold objErase
  split
  · exact memWf_memZero _ _ _ w
  · exact w

theorem putServe_keeps {m : Nat} {r s : State} (o : Obj) (hm : Sub 206162364202 m) (h : Keeps m r s) :
    Keeps m r (putServe o s) := by
  unfold putServe
  extract_lets x6 x7 x8 x9 x10
  have h11 : Keeps m r x7 := by
    refine setRf_keeps _ _ _ _ (sub_of hm rfl) ?_
    refine setRf_keeps _ _ _ _ (sub_of hm rfl) ?_
    exact h
  clear_value x7
  have h12 : Keeps m r x9 := by
    refine Keeps.upd_sec ?_ (hm 36 rfl) (fun hl => hl) (fun hr => hr)
    exact h11
  clear_value x9
  refine Keeps.ite ?_ ?_
  · refine secShow_keeps (sub_of hm rfl) ?_
    refine objImage_keeps _ (sub_of hm rfl) ?_
    refine Keeps.upd_sec ?_ (hm 36 rfl) (fun hl => hl) (fun hr => hr)
    exact h12
  · refine secShow_keeps (sub_of hm rfl) ?_
    refine Keeps.ite ?_ ?_
    · refine Keeps.upd_store ?_ (hm 9 rfl) (fun w0 w => (memWf_memPut _ _ _ (memWf_objErase _ _ w.2.2.2.2.2)))
      exact h12
    · exact h12

theorem objServe_keeps {m : Nat} {r s : State} (ok : Bool) (hm : Sub 2413775554346 m) (h : Keeps m r s) :
    Keeps m r (objServe ok s) := by
  unfold objServe
  split
  · refine putServe_keeps _ (sub_of hm rfl) ?_
    exact h
  · refine submitServe_keeps _ _ (sub_of hm rfl) ?_
    exact h
  · exact h

theorem secServe_keeps {m : Nat} {r s : State}  (hm : Sub 2413775554346 m) (h : Keeps m r s) :
    Keeps m r (secServe s) := by
  unfold secServe
  refine objServe_keeps _ (sub_of hm rfl) ?_
  refine reqServe_keeps (sub_of hm rfl) ?_
  exact h

theorem soutDrain_keeps {m : Nat} {r s : State}  (hm : Sub 343601415274 m) (h : Keeps m r s) :
    Keeps m r (soutDrain s) := by
  unfold soutDrain
  extract_lets x5 x6
  refine islandPush_keeps _ _ _ (sub_of hm rfl) ?_
  refine Keeps.upd_sec ?_ (hm 36 rfl) (fun hl => hl) (fun hr => hr)
  exact h

theorem opDone_keeps {m : Nat} {r : State} (op : Nat) (tag : Nat) (r0 : Nat × List Byte × State) (hm : Sub 343601415274 m) (h : Keeps m r r0.2.2) :
    Keeps m r (opDone op tag r0) := by
  unfold opDone
  extract_lets x7 x8 x9 x10
  have h11 : Keeps m r x8 := by
    subst x8
    exact h
  clear_value x8
  have h12 : Keeps m r x10 := by
    refine Keeps.upd_sec ?_ (hm 36 rfl) ?_ ?_
    · exact h11
    · exact fun _ => h.lcn
    · exact fun _ => h.retired
  clear_value x10
  refine soutDrain_keeps (sub_of hm rfl) ?_
  refine sendIn_keeps _ _ _ (sub_of hm rfl) ?_
  exact h12

theorem sinTake_keeps {m : Nat} {r s : State}  (hm : Sub 343601423402 m) (h : Keeps m r s) :
    Keeps m r (sinTake s) := by
  unfold sinTake
  split
  · extract_lets x11 x12 x13
    have h14 : Keeps m r x11.2 := by
      refine busPop_keeps _ _ (sub_of hm rfl) ?_
      exact h
    clear_value x11
    have h15 : Keeps m r x12 := by
      subst x12
      exact h14
    clear_value x12
    refine Keeps.upd_sec ?_ (hm 36 rfl) ?_ ?_
    · exact h15
    · exact fun _ => h14.lcn
    · exact fun _ => h14.retired
  · exact h

theorem messageOp_keeps {m : Nat} {r s : State} (m0 : List Byte) (hm : Sub 2267744568362 m) (h : Keeps m r s) :
    Keeps m r (messageOp m0 s).2.2 := by
  unfold messageOp
  extract_lets x6
  have h7 : Keeps m r x6.2 := by
    refine islandMessage_keeps _ (sub_of hm rfl) ?_
    exact h
  clear_value x6
  refine Keeps.ite3 ?_ ?_
  · refine Keeps.mk3 ?_
    refine secShow_keeps (sub_of hm rfl) ?_
    refine refused_keeps _ _ (sub_of hm rfl) ?_
    exact h7
  · refine Keeps.mk3 ?_
    exact h7

theorem shakeOp_keeps {m : Nat} {r s : State} (n : Nat) (msg : List Byte) (hm : Sub 0 m) (h : Keeps m r s) :
    Keeps m r (shakeOp n msg s).2.2 := by
  unfold shakeOp
  refine Keeps.ite3 ?_ ?_
  · refine Keeps.mk3 ?_
    exact h
  · refine Keeps.mk3 ?_
    exact h

theorem updateOp_keeps {m : Nat} {r s : State} (ws : List Word) (hm : Sub 68719476736 m) (h : Keeps m r s) :
    Keeps m r (updateOp ws s).2.2 := by
  unfold updateOp
  extract_lets x6 x7
  refine Keeps.ite3 ?_ ?_
  · refine Keeps.mk3 ?_
    exact h
  · refine Keeps.ite3 ?_ ?_
    · refine Keeps.mk3 ?_
      exact h
    · refine Keeps.mk3 ?_
      refine Keeps.upd_sec ?_ (hm 36 rfl) (fun hl => hl) (fun hr => hr)
      exact h

theorem pubkeyOp_keeps {m : Nat} {r s : State} (k : Nat) (hm : Sub 0 m) (h : Keeps m r s) :
    Keeps m r (pubkeyOp k s).2.2 := by
  unfold pubkeyOp
  split
  · refine Keeps.mk3 ?_
    exact h
  · refine Keeps.mk3 ?_
    exact h

theorem recordDoneOp_keeps {m : Nat} {r s : State} (copy : Nat) (failed : Bool) (hm : Sub 214752298282 m) (h : Keeps m r s) :
    Keeps m r (recordDoneOp copy failed s).2.2 := by
  unfold recordDoneOp
  extract_lets x7 x8
  have h9 : Keeps m r x8 := by
    refine Keeps.upd_sec ?_ (hm 36 rfl) (fun hl => hl) (fun hr => hr)
    exact h
  clear_value x8
  split
  · refine Keeps.mk3 ?_
    exact h
  · refine Keeps.ite3 ?_ ?_
    · refine Keeps.mk3 ?_
      refine secShow_keeps (sub_of hm rfl) ?_
      refine Keeps.ite ?_ ?_
      · exact h9
      · refine refused_keeps _ _ (sub_of hm rfl) ?_
        exact h9
    · refine Keeps.mk3 ?_
      refine secShow_keeps (sub_of hm rfl) ?_
      refine messageEffect_keeps _ _ (sub_of hm rfl) ?_
      refine Keeps.upd_feram ?_ (hm 8 rfl) (fun w0 w => (memWf_memPut _ _ _ w.2.2.2.2.1))
      exact h

theorem noRecord_keeps {m : Nat} {r s : State} (cause : Nat) (blown : Bool) (hm : Sub 68723409954 m) (h : Keeps m r s) :
    Keeps m r (noRecord cause blown s) := by
  unfold noRecord
  extract_lets x7 x8 x9 x10
  have h11 : Keeps m r x7 := by
    refine secRecLog_keeps _ _ _ _ (sub_of hm rfl) ?_
    exact h
  clear_value x7
  have h12 : Keeps m r x8 := by
    refine Keeps.ite ?_ ?_
    · refine blowFuse_keeps _ (sub_of hm rfl) ?_
      exact h11
    · exact h11
  clear_value x8
  refine Keeps.upd_sec ?_ (hm 36 rfl) (fun hl => hl) (fun hr => hr)
  exact h12

theorem loadCopies_keeps {m : Nat} {r s : State} (b0 : List Byte) (b1 : List Byte) (blown : Bool) (hm : Sub 68723409954 m) (h : Keeps m r s) :
    Keeps m r (loadCopies b0 b1 blown s) := by
  unfold loadCopies
  extract_lets x8 x9 x10 x11 x12
  have h13 : Keeps m r x10 := by
    refine Keeps.ite ?_ ?_
    · exact h
    · refine secEvt_keeps _ (sub_of hm rfl) ?_
      exact h
  clear_value x10
  refine Keeps.ite ?_ ?_
  · exact h
  · refine Keeps.ite ?_ ?_
    · simp -zeta only [x12]
      extract_lets x14
      refine Keeps.upd_sec ?_ (hm 36 rfl) (fun hl => hl) (fun hr => hr)
      exact h13
    · refine Keeps.ite ?_ ?_
      · simp -zeta only [x12]
        extract_lets x14
        refine Keeps.upd_sec ?_ (hm 36 rfl) (fun hl => hl) (fun hr => hr)
        exact h13
      · refine Keeps.ite ?_ ?_
        · simp -zeta only [x12]
          extract_lets x14
          refine Keeps.upd_sec ?_ (hm 36 rfl) (fun hl => hl) (fun hr => hr)
          exact h13
        · refine noRecord_keeps _ _ (sub_of hm rfl) ?_
          exact h13

theorem verifyOp_keeps {m : Nat} {r s : State} (k : Nat) (msg : List Byte) (sig : List Byte) (hm : Sub 0 m) (h : Keeps m r s) :
    Keeps m r (verifyOp k msg sig s).2.2 := by
  unfold verifyOp
  refine Keeps.ite3 ?_ ?_
  · refine Keeps.mk3 ?_
    exact h
  · split
    · refine Keeps.mk3 ?_
      exact h
    · refine Keeps.mk3 ?_
      exact h

theorem signgenOp_keeps {m : Nat} {r s : State} (h0 : List Byte) (hm : Sub 2199023255552 m) (h : Keeps m r s) :
    Keeps m r (signgenOp h0 s).2.2 := by
  unfold signgenOp
  extract_lets x6
  have h7 : Keeps m r x6.2 := by
    refine signIdentity_keeps _ (sub_of hm rfl) ?_
    exact h
  clear_value x6
  refine Keeps.ite3 ?_ ?_
  · refine Keeps.mk3 ?_
    exact h
  · refine Keeps.ite3 ?_ ?_
    · refine Keeps.mk3 ?_
      exact h7
    · refine Keeps.mk3 ?_
      exact h

theorem jobOp_keeps {m : Nat} {r s : State} (j : SecJob) (hm : Sub 2413775553834 m) (h : Keeps m r s) :
    Keeps m r (jobOp j s).2.2 := by
  unfold jobOp
  extract_lets x6 x7 x8 x9
  have h10 : Keeps m r x8.2 := by
    refine free_keeps (sub_of hm rfl) ?_
    exact h
  clear_value x8
  split
  · refine shakeOp_keeps _ _ (sub_of hm rfl) ?_
    exact h
  · refine verifyOp_keeps _ _ _ (sub_of hm rfl) ?_
    exact h
  · refine signgenOp_keeps _ (sub_of hm rfl) ?_
    exact h
  · refine messageOp_keeps _ (sub_of hm rfl) ?_
    exact h
  · refine recordDoneOp_keeps _ _ (sub_of hm rfl) ?_
    exact h
  · refine Keeps.mk3 ?_
    refine loadCopies_keeps _ _ _ (sub_of hm rfl) ?_
    exact h10
  · refine pubkeyOp_keeps _ (sub_of hm rfl) ?_
    exact h
  · refine attest_keeps _ _ (sub_of hm rfl) ?_
    exact h
  · refine Keeps.mk3 ?_
    exact h
  · refine updateOp_keeps _ (sub_of hm rfl) ?_
    exact h
  · refine Keeps.mk3 ?_
    exact h

theorem jobRun_keeps {m : Nat} {r s : State} (hm : Sub 2688653567338 m) (h : Keeps m r s) : Keeps m r (jobRun s) := by
  unfold jobRun
  extract_lets s1
  have h1 : Keeps m r s1 := sinTake_keeps (sub_of hm rfl) (sinTake_keeps (sub_of hm rfl) h)
  clear_value s1
  split
  · refine Keeps.ite ?_ h1
    refine opDone_keeps _ _ _ (sub_of hm rfl) (jobOp_keeps _ (sub_of hm rfl) ?_)
    exact Keeps.upd_sec h1 (hm 36 rfl) (fun _ => h1.lcn) (fun _ => h1.retired)
  · exact h1

theorem objIgnored_keeps {m : Nat} {r s : State}  (hm : Sub 1034 m) (h : Keeps m r s) :
    Keeps m r (objIgnored s) := by
  unfold objIgnored
  refine secShow_keeps (sub_of hm rfl) ?_
  refine satRf_keeps _ _ _ _ (sub_of hm rfl) ?_
  exact h

theorem objAbandon_keeps {m : Nat} {r s : State}  (hm : Sub 206158431242 m) (h : Keeps m r s) :
    Keeps m r (objAbandon s) := by
  unfold objAbandon
  split
  · exact h
  · refine secShow_keeps (sub_of hm rfl) ?_
    refine objClose_keeps _ (sub_of hm rfl) ?_
    refine Keeps.ite ?_ ?_
    · refine xferEnd_keeps _ (sub_of hm rfl) ?_
      exact h
    · exact h

theorem objOpen_keeps {m : Nat} {r s : State} (m0 : Nat) (kind : Nat) (hm : Sub 68721312810 m) (h : Keeps m r s) :
    Keeps m r (objOpen m0 kind s) := by
  unfold objOpen
  extract_lets x7 x8
  have h9 : Keeps m r x7 := by
    refine setReg_keeps _ _ (sub_of hm rfl) ?_
    exact h
  clear_value x7
  refine Keeps.ite ?_ ?_
  · refine objResult_keeps _ _ (sub_of hm rfl) ?_
    exact h9
  · refine Keeps.ite ?_ ?_
    · refine objResult_keeps _ _ (sub_of hm rfl) ?_
      exact h9
    · refine secShow_keeps (sub_of hm rfl) ?_
      refine Keeps.upd_sec ?_ (hm 36 rfl) (fun hl => hl) (fun hr => hr)
      exact h9

theorem objCtrl_keeps {m : Nat} {r s : State} (m0 : Nat) (w : Word) (hm : Sub 206160266282 m) (h : Keeps m r s) :
    Keeps m r (objCtrl m0 w s) := by
  unfold objCtrl
  extract_lets x7 x8 x9 x10
  have h11 : Keeps m r x8 := by
    refine setReg_keeps _ _ (sub_of hm rfl) ?_
    exact h
  clear_value x8
  have h12 : Keeps m r x9 := by
    refine setRf_keeps _ _ _ _ (sub_of hm rfl) ?_
    exact h11
  clear_value x9
  split
  · refine Keeps.ite ?_ ?_
    · refine objOpen_keeps _ _ (sub_of hm rfl) ?_
      exact h11
    · exact h11
  · refine Keeps.ite ?_ ?_
    · refine objIgnored_keeps (sub_of hm rfl) ?_
      exact h
    · refine Keeps.ite ?_ ?_
      · refine objAbandon_keeps (sub_of hm rfl) ?_
        exact h11
      · refine Keeps.ite ?_ ?_
        · refine secShow_keeps (sub_of hm rfl) ?_
          refine Keeps.upd_sec ?_ (hm 36 rfl) ?_ ?_
          · exact h12
          · exact fun _ => h11.lcn
          · exact fun _ => h11.retired
        · exact h11

theorem reqWrite_keeps {m : Nat} {r s : State} (w : Word) (hm : Sub 68719477770 m) (h : Keeps m r s) :
    Keeps m r (reqWrite w s) := by
  unfold reqWrite
  extract_lets x6 x7 x8
  have h9 : Keeps m r x6 := by
    refine setReg_keeps _ _ (sub_of hm rfl) ?_
    exact h
  clear_value x6
  have h10 : Keeps m r x7 := by
    refine setRb_keeps _ _ _ (sub_of hm rfl) ?_
    refine setRb_keeps _ _ _ (sub_of hm rfl) ?_
    exact h9
  clear_value x7
  refine Keeps.ite ?_ ?_
  · refine setReg_keeps _ _ (sub_of hm rfl) ?_
    exact h
  · refine Keeps.ite ?_ ?_
    · refine secShow_keeps (sub_of hm rfl) ?_
      refine satRf_keeps _ _ _ _ (sub_of hm rfl) ?_
      exact h
    · refine Keeps.upd_sec ?_ (hm 36 rfl) (fun hl => hl) (fun hr => hr)
      exact h10

theorem scmdWord_keeps {m : Nat} {r s : State} (w : Word) (hm : Sub 68723508258 m) (h : Keeps m r s) :
    Keeps m r (scmdWord w s) := by
  unfold scmdWord
  extract_lets x6 x7
  have h8 : Keeps m r x7 := by
    refine Keeps.upd_sec ?_ (hm 36 rfl) (fun hl => hl) (fun hr => hr)
    exact h
  clear_value x7
  refine Keeps.ite ?_ ?_
  · refine sendIn_keeps _ _ _ (sub_of hm rfl) ?_
    exact h
  · refine sendIn_keeps _ _ _ (sub_of hm rfl) ?_
    exact h8

theorem sparamWord_keeps {m : Nat} {r s : State} (w : Word) (hm : Sub 68719476736 m) (h : Keeps m r s) :
    Keeps m r (sparamWord w s) := by
  unfold sparamWord
  extract_lets x6
  refine Keeps.upd_sec ?_ (hm 36 rfl) (fun hl => hl) (fun hr => hr)
  exact h

theorem islandOp_keeps {m : Nat} {r s : State} (op : Nat) (busy : Bool) (tag : BitVec 8) (f : State → Nat × List Byte × State) (hm : Sub 343601415274 m) (h : Keeps m r s) (hf : ∀ a0, Keeps m r a0 → Keeps m r (f a0).2.2) :
    Keeps m r (islandOp op busy tag f s) := by
  unfold islandOp
  refine Keeps.ite ?_ ?_
  · refine sendIn_keeps _ _ _ (sub_of hm rfl) ?_
    exact h
  · refine opDone_keeps _ _ _ (sub_of hm rfl) ?_
    refine hf _ ?_
    exact h

theorem loadRec_keeps {m : Nat} {r s : State} (blown : Bool) (hm : Sub 68723409954 m) (h : Keeps m r s) :
    Keeps m r (loadRec blown s) := by
  unfold loadRec
  refine loadCopies_keeps _ _ _ (sub_of hm rfl) ?_
  exact h

theorem objOp_keeps {m : Nat} {r s : State} (m0 : Master) (op : Nat) (kind : Nat) (ok : Bool) (hm : Sub 2413775554346 m) (h : Keeps m r s) :
    Keeps m r (objOp m0 op kind ok s) := by
  unfold objOp
  extract_lets x9
  have h10 : Keeps m r x9 := by
    refine objCtrl_keeps _ _ (sub_of hm rfl) ?_
    exact h
  clear_value x9
  refine Keeps.ite ?_ ?_
  · exact h10
  · refine objServe_keeps _ (sub_of hm rfl) ?_
    exact h10

theorem request_keeps {m : Nat} {r s : State} (cmd : Nat) (kind : Nat) (tag : Nat) (hm : Sub 2267742733322 m) (h : Keeps m r s) :
    Keeps m r (request cmd kind tag s) := by
  unfold request
  refine Keeps.ite ?_ ?_
  · refine reqWrite_keeps _ (sub_of hm rfl) ?_
    exact h
  · refine reqServe_keeps (sub_of hm rfl) ?_
    refine reqWrite_keeps _ (sub_of hm rfl) ?_
    exact h

theorem trialMinute_keeps {m : Nat} {r s : State} (ok : Bool) (hm : Sub 68721313066 m) (h : Keeps m r s) :
    Keeps m r (trialMinute ok s) := by
  unfold trialMinute
  extract_lets x6 x7 x8
  split
  · exact h
  · refine Keeps.ite ?_ ?_
    · exact h
    · refine Keeps.ite ?_ ?_
      · refine secShow_keeps (sub_of hm rfl) ?_
        refine confirmShow_keeps _ _ (sub_of hm rfl) ?_
        refine putRecord_keeps _ (sub_of hm rfl) ?_
        exact h
      · refine secShow_keeps (sub_of hm rfl) ?_
        refine putRecord_keeps _ (sub_of hm rfl) ?_
        exact h

theorem triesReset_keeps {m : Nat} {r s : State}  (hm : Sub 68719478026 m) (h : Keeps m r s) :
    Keeps m r (triesReset s) := by
  unfold triesReset
  extract_lets x5
  refine Keeps.ite ?_ ?_
  · refine secShow_keeps (sub_of hm rfl) ?_
    refine putRecord_keeps _ (sub_of hm rfl) ?_
    exact h
  · exact h

theorem execAttest_keeps {m : Nat} {r s : State} (tag : BitVec 8) (hm : Sub 2267742733322 m) (h : Keeps m r s) :
    KeepsO m r (execAttest tag s) := by
  unfold execAttest
  refine KeepsO.next ?_
  refine Keeps.ite ?_ ?_
  · exact h
  · refine request_keeps _ _ _ (sub_of hm rfl) ?_
    exact h

theorem execChallenge_keeps {m : Nat} {r s : State} (tag : BitVec 8) (hm : Sub 2267742733322 m) (h : Keeps m r s) :
    KeepsO m r (execChallenge tag s) := by
  unfold execChallenge
  refine KeepsO.next ?_
  refine Keeps.ite ?_ ?_
  · exact h
  · refine request_keeps _ _ _ (sub_of hm rfl) ?_
    exact h

theorem execCommission_keeps {m : Nat} {r s : State} (m0 : List Byte) (ok : Bool) (hm : Sub 2413775554346 m) (h : Keeps m r s) :
    KeepsO m r (execCommission m0 ok s) := by
  unfold execCommission
  refine KeepsO.guardedBy ?_
  refine Keeps.ite ?_ ?_
  · exact h
  · refine deliver_keeps _ _ (sub_of hm rfl) ?_
    exact h

theorem execEpochGraceEnd_keeps {m : Nat} {r s : State}  (hm : Sub 68719476736 m) (h : Keeps m r s) :
    KeepsO m r (execEpochGraceEnd s) := by
  unfold execEpochGraceEnd
  extract_lets x5
  refine KeepsO.next ?_
  refine Keeps.ite ?_ ?_
  · exact h
  · refine Keeps.upd_sec ?_ (hm 36 rfl) (fun hl => hl) (fun hr => hr)
    exact h

theorem execIslandAttest_keeps {m : Nat} {r s : State} (busy : Bool) (tag : BitVec 8) (ws : List Word) (hm : Sub 2542624670826 m) (h : Keeps m r s) :
    KeepsO m r (execIslandAttest busy tag ws s) := by
  unfold execIslandAttest
  refine KeepsO.guardedBy ?_
  refine Keeps.ite ?_ ?_
  · exact h
  · refine islandOp_keeps _ _ _ _ (sub_of hm rfl) ?_ ?_
    · exact h
    · intro q8 q9
      refine attest_keeps _ _ (sub_of hm rfl) ?_
      exact q9

theorem execIslandChallenge_keeps {m : Nat} {r s : State} (busy : Bool) (tag : BitVec 8) (ws : List Word) (hm : Sub 343601415274 m) (h : Keeps m r s) :
    KeepsO m r (execIslandChallenge busy tag ws s) := by
  unfold execIslandChallenge
  refine KeepsO.guardedBy ?_
  refine Keeps.ite ?_ ?_
  · exact h
  · refine islandOp_keeps _ _ _ _ (sub_of hm rfl) ?_ ?_
    · exact h
    · intro q8 q9
      extract_lets x10
      refine Keeps.mk3 ?_
      exact q9

theorem execIslandMessage_keeps {m : Nat} {r s : State} (busy : Bool) (tag : BitVec 8) (m0 : List Byte) (hm : Sub 2542624670826 m) (h : Keeps m r s) :
    KeepsO m r (execIslandMessage busy tag m0 s) := by
  unfold execIslandMessage
  refine KeepsO.next ?_
  refine Keeps.ite ?_ ?_
  · exact h
  · refine islandOp_keeps _ _ _ _ (sub_of hm rfl) ?_ ?_
    · exact h
    · intro q8 q9
      refine messageOp_keeps _ (sub_of hm rfl) ?_
      exact q9

theorem execIslandShake_keeps {m : Nat} {r s : State} (busy : Bool) (tag : BitVec 8) (n : BitVec 16) (msg : List Byte) (hm : Sub 343601415274 m) (h : Keeps m r s) :
    KeepsO m r (execIslandShake busy tag n msg s) := by
  unfold execIslandShake
  refine KeepsO.next ?_
  refine Keeps.ite ?_ ?_
  · exact h
  · refine islandOp_keeps _ _ _ _ (sub_of hm rfl) ?_ ?_
    · exact h
    · intro q9 q10
      refine shakeOp_keeps _ _ (sub_of hm rfl) ?_
      exact q10

theorem execIslandVerify_keeps {m : Nat} {r s : State} (busy : Bool) (tag : BitVec 8) (k : BitVec 16) (msg : List Byte) (sig : List Byte) (hm : Sub 343601415274 m) (h : Keeps m r s) :
    KeepsO m r (execIslandVerify busy tag k msg sig s) := by
  unfold execIslandVerify
  refine KeepsO.next ?_
  refine Keeps.ite ?_ ?_
  · exact h
  · refine islandOp_keeps _ _ _ _ (sub_of hm rfl) ?_ ?_
    · exact h
    · intro q10 q11
      refine verifyOp_keeps _ _ _ (sub_of hm rfl) ?_
      exact q11

theorem execLoadrec_keeps {m : Nat} {r s : State} (busy : Bool) (tag : BitVec 8) (blown : Bool) (hm : Sub 343601415274 m) (h : Keeps m r s) :
    KeepsO m r (execLoadrec busy tag blown s) := by
  unfold execLoadrec
  refine KeepsO.next ?_
  refine Keeps.ite ?_ ?_
  · exact h
  · refine islandOp_keeps _ _ _ _ (sub_of hm rfl) ?_ ?_
    · exact h
    · intro q8 q9
      refine Keeps.mk3 ?_
      refine loadRec_keeps _ (sub_of hm rfl) ?_
      exact q9

theorem execMsgConfirm_keeps {m : Nat} {r s : State} (m0 : List Byte) (ok : Bool) (hm : Sub 2413775554346 m) (h : Keeps m r s) :
    KeepsO m r (execMsgConfirm m0 ok s) := by
  unfold execMsgConfirm
  refine KeepsO.guardedBy ?_
  refine Keeps.ite ?_ ?_
  · exact h
  · refine deliver_keeps _ _ (sub_of hm rfl) ?_
    exact h

theorem execMsgReject_keeps {m : Nat} {r s : State} (m0 : List Byte) (ok : Bool) (hm : Sub 2413775554346 m) (h : Keeps m r s) :
    KeepsO m r (execMsgReject m0 ok s) := by
  unfold execMsgReject
  refine KeepsO.guardedBy ?_
  refine Keeps.ite ?_ ?_
  · exact h
  · refine deliver_keeps _ _ (sub_of hm rfl) ?_
    exact h

theorem execMsgRetire_keeps {m : Nat} {r s : State} (m0 : List Byte) (ok : Bool) (hm : Sub 2413775554346 m) (h : Keeps m r s) :
    KeepsO m r (execMsgRetire m0 ok s) := by
  unfold execMsgRetire
  refine KeepsO.guardedBy ?_
  refine Keeps.ite ?_ ?_
  · exact h
  · refine deliver_keeps _ _ (sub_of hm rfl) ?_
    exact h

theorem execMsgReturn_keeps {m : Nat} {r s : State} (m0 : List Byte) (ok : Bool) (hm : Sub 2413775554346 m) (h : Keeps m r s) :
    KeepsO m r (execMsgReturn m0 ok s) := by
  unfold execMsgReturn
  refine KeepsO.guardedBy ?_
  refine Keeps.ite ?_ ?_
  · exact h
  · refine deliver_keeps _ _ (sub_of hm rfl) ?_
    exact h

theorem execObjBegin_keeps {m : Nat} {r s : State} (m0 : Master) (kind : BitVec 2) (hm : Sub 2413775554346 m) (h : Keeps m r s) :
    KeepsO m r (execObjBegin m0 kind s) := by
  unfold execObjBegin
  refine KeepsO.next ?_
  refine Keeps.ite ?_ ?_
  · exact h
  · refine objOp_keeps _ _ _ _ (sub_of hm rfl) ?_
    exact h

theorem execObjCancel_keeps {m : Nat} {r s : State} (m0 : Master) (hm : Sub 2413775554346 m) (h : Keeps m r s) :
    KeepsO m r (execObjCancel m0 s) := by
  unfold execObjCancel
  refine KeepsO.next ?_
  refine Keeps.ite ?_ ?_
  · exact h
  · refine objOp_keeps _ _ _ _ (sub_of hm rfl) ?_
    exact h

theorem execObjPut_keeps {m : Nat} {r s : State} (m0 : Master) (hm : Sub 2413775554346 m) (h : Keeps m r s) :
    KeepsO m r (execObjPut m0 s) := by
  unfold execObjPut
  refine KeepsO.next ?_
  refine Keeps.ite ?_ ?_
  · exact h
  · refine objOp_keeps _ _ _ _ (sub_of hm rfl) ?_
    exact h

theorem execObjSubmit_keeps {m : Nat} {r s : State} (m0 : Master) (ok : Bool) (hm : Sub 2413775554346 m) (h : Keeps m r s) :
    KeepsO m r (execObjSubmit m0 ok s) := by
  unfold execObjSubmit
  refine KeepsO.next ?_
  refine Keeps.ite ?_ ?_
  · exact h
  · refine objOp_keeps _ _ _ _ (sub_of hm rfl) ?_
    exact h

theorem execObjectTimeout_keeps {m : Nat} {r s : State}  (hm : Sub 206158431242 m) (h : Keeps m r s) :
    KeepsO m r (execObjectTimeout s) := by
  unfold execObjectTimeout
  refine KeepsO.next ?_
  refine Keeps.ite ?_ ?_
  · exact h
  · refine objAbandon_keeps (sub_of hm rfl) ?_
    exact h

theorem execOwnerRoot_keeps {m : Nat} {r s : State} (m0 : List Byte) (ok : Bool) (hm : Sub 2413775554346 m) (h : Keeps m r s) :
    KeepsO m r (execOwnerRoot m0 ok s) := by
  unfold execOwnerRoot
  refine KeepsO.guardedBy ?_
  refine Keeps.ite ?_ ?_
  · exact h
  · refine deliver_keeps _ _ (sub_of hm rfl) ?_
    exact h

theorem execOwnerSecret_keeps {m : Nat} {r s : State} (m0 : List Byte) (ok : Bool) (hm : Sub 2413775554346 m) (h : Keeps m r s) :
    KeepsO m r (execOwnerSecret m0 ok s) := by
  unfold execOwnerSecret
  refine KeepsO.guardedBy ?_
  refine Keeps.ite ?_ ?_
  · exact h
  · refine deliver_keeps _ _ (sub_of hm rfl) ?_
    exact h

theorem execPrivileged_keeps {m : Nat} {r s : State} (m0 : List Byte) (ok : Bool) (hm : Sub 2413775554346 m) (h : Keeps m r s) :
    KeepsO m r (execPrivileged m0 ok s) := by
  unfold execPrivileged
  refine KeepsO.guardedBy ?_
  refine Keeps.ite ?_ ?_
  · exact h
  · refine deliver_keeps _ _ (sub_of hm rfl) ?_
    exact h

theorem execPubkey_keeps {m : Nat} {r s : State} (busy : Bool) (tag : BitVec 8) (k : BitVec 16) (hm : Sub 343601415274 m) (h : Keeps m r s) :
    KeepsO m r (execPubkey busy tag k s) := by
  unfold execPubkey
  refine KeepsO.next ?_
  refine Keeps.ite ?_ ?_
  · exact h
  · refine islandOp_keeps _ _ _ _ (sub_of hm rfl) ?_ ?_
    · exact h
    · intro q8 q9
      refine pubkeyOp_keeps _ (sub_of hm rfl) ?_
      exact q9

theorem execReadPub_keeps {m : Nat} {r s : State} (kind : BitVec 2) (tag : BitVec 8) (hm : Sub 2267742733322 m) (h : Keeps m r s) :
    KeepsO m r (execReadPub kind tag s) := by
  unfold execReadPub
  refine KeepsO.next ?_
  refine Keeps.ite ?_ ?_
  · exact h
  · refine request_keeps _ _ _ (sub_of hm rfl) ?_
    exact h

theorem execRecordDone_keeps {m : Nat} {r s : State} (busy : Bool) (tag : BitVec 8) (copy : Fin 2) (failed : Bool) (hm : Sub 489630303594 m) (h : Keeps m r s) :
    KeepsO m r (execRecordDone busy tag copy failed s) := by
  unfold execRecordDone
  refine KeepsO.next ?_
  refine Keeps.ite ?_ ?_
  · exact h
  · refine islandOp_keeps _ _ _ _ (sub_of hm rfl) ?_ ?_
    · exact h
    · intro q9 q10
      refine recordDoneOp_keeps _ _ (sub_of hm rfl) ?_
      exact q10

theorem execSigngen_keeps {m : Nat} {r s : State} (busy : Bool) (tag : BitVec 8) (h0 : List Byte) (hm : Sub 2542624670826 m) (h : Keeps m r s) :
    KeepsO m r (execSigngen busy tag h0 s) := by
  unfold execSigngen
  refine KeepsO.next ?_
  refine Keeps.ite ?_ ?_
  · exact h
  · refine islandOp_keeps _ _ _ _ (sub_of hm rfl) ?_ ?_
    · exact h
    · intro q8 q9
      refine signgenOp_keeps _ (sub_of hm rfl) ?_
      exact q9

theorem execTrialMinute_keeps {m : Nat} {r s : State} (ok : Bool) (hm : Sub 68721313066 m) (h : Keeps m r s) :
    KeepsO m r (execTrialMinute ok s) := by
  unfold execTrialMinute
  refine KeepsO.next ?_
  refine trialMinute_keeps _ (sub_of hm rfl) ?_
  exact h

theorem execTriesReset_keeps {m : Nat} {r s : State}  (hm : Sub 68719478026 m) (h : Keeps m r s) :
    KeepsO m r (execTriesReset s) := by
  unfold execTriesReset
  refine KeepsO.next ?_
  refine triesReset_keeps (sub_of hm rfl) ?_
  exact h

theorem execUpdateRec_keeps {m : Nat} {r s : State} (busy : Bool) (tag : BitVec 8) (ws : List Word) (hm : Sub 343601415274 m) (h : Keeps m r s) :
    KeepsO m r (execUpdateRec busy tag ws s) := by
  unfold execUpdateRec
  refine KeepsO.guardedBy ?_
  refine Keeps.ite ?_ ?_
  · exact h
  · refine islandOp_keeps _ _ _ _ (sub_of hm rfl) ?_ ?_
    · exact h
    · intro q8 q9
      refine updateOp_keeps _ (sub_of hm rfl) ?_
      exact q9

end Sys2Proof.Machine
end

