-- ==== Sys2Proof/Laws/RegBus.lean ====
section
/-! SUPPORT. What each function of Machine/RegBus.lean keeps of the state (Laws/Keeps.lean). -/

namespace Sys2Proof.Machine

theorem advRefused_keeps {m : Nat} {r s : State} (w : Word) (hm : Sub 2050 m) (h : Keeps m r s) :
    Keeps m r (advRefused w s) := by
  unfold advRefused
  extract_lets x6 x7
  have h8 : Keeps m r x6 := by
    refine orReg_keeps _ _ (sub_of hm rfl) ?_
    exact h
  clear_value x6
  refine Keeps.upd_eng ?_ (hm 11 rfl)
  exact h8

theorem busRead_keeps {m : Nat} {r s : State} (f : Nat → State → Word × State) (a : Nat) (hm : Sub 3933218 m) (h : Keeps m r s) (hf : ∀ a0 a1, Keeps m r a1 → Keeps m r (f a0 a1).2) :
    Keeps m r (busRead f a s).2 := by
  unfold busRead
  split
  · refine Keeps.mk2 ?_
    exact h
  · split
    · refine Keeps.mk2 ?_
      exact h
    · refine Keeps.mk2 ?_
      exact h
    · refine Keeps.mk2 ?_
      refine qViolation_keeps _ (sub_of hm rfl) ?_
      exact h
    · refine hf _ _ ?_
      exact h

theorem plainWrite_keeps {m : Nat} {r s : State} (a : Nat) (w : Word) (hm : Sub 2 m) (h : Keeps m r s) :
    Keeps m r (plainWrite a w s) := by
  unfold plainWrite
  refine setReg_keeps _ _ (sub_of hm rfl) ?_
  exact h

theorem tsWrite_keeps {m : Nat} {r s : State} (w : Word) (hm : Sub 34363671594 m) (h : Keeps m r s) :
    Keeps m r (tsWrite w s) := by
  unfold tsWrite
  refine Keeps.ite ?_ ?_
  · refine testRun_keeps _ (sub_of hm rfl) ?_
    exact h
  · refine Keeps.ite ?_ ?_
    · refine testStop_keeps (sub_of hm rfl) ?_
      refine plainWrite_keeps _ _ (sub_of hm rfl) ?_
      exact h
    · refine plainWrite_keeps _ _ (sub_of hm rfl) ?_
      exact h

theorem rwWrite_keeps {m : Nat} {r s : State} (m0 : Master) (a : Nat) (w : Word) (hm : Sub 3560598930474 m) (h : Keeps m r s) :
    Keeps m r (rwWrite m0 a w s) := by
  unfold rwWrite
  refine Keeps.ite ?_ ?_
  · refine calholdWrite_keeps _ _ (sub_of hm rfl) ?_
    exact h
  · refine Keeps.ite ?_ ?_
    · refine wcArm_keeps _ (sub_of hm rfl) ?_
      exact h
    · refine Keeps.ite ?_ ?_
      · refine tsWrite_keeps _ (sub_of hm rfl) ?_
        exact h
      · refine Keeps.ite ?_ ?_
        · refine parStep_keeps _ (sub_of hm rfl) ?_ ?_
          · exact h
          · intro q8 q9
            refine leaseWrite_keeps _ (sub_of hm rfl) ?_
            exact q9
        · refine Keeps.ite ?_ ?_
          · refine parStep_keeps _ (sub_of hm rfl) ?_ ?_
            · exact h
            · intro q8 q9
              refine plainWrite_keeps _ _ (sub_of hm rfl) ?_
              exact q9
          · refine Keeps.ite ?_ ?_
            · refine reqWrite_keeps _ (sub_of hm rfl) ?_
              exact h
            · refine Keeps.ite ?_ ?_
              · refine objCtrl_keeps _ _ (sub_of hm rfl) ?_
                exact h
              · refine Keeps.ite ?_ ?_
                · refine byteWrite_keeps _ _ (sub_of hm rfl) ?_
                  exact h
                · refine Keeps.ite ?_ ?_
                  · refine almCfg_keeps _ _ (sub_of hm rfl) ?_
                    exact h
                  · refine plainWrite_keeps _ _ (sub_of hm rfl) ?_
                    exact h

theorem earlyWrite_keeps {m : Nat} {r s : State} (m0 : Master) (hm : Sub 2 m) (h : Keeps m r s) :
    Keeps m r (earlyWrite m0 s) := by
  unfold earlyWrite
  refine Keeps.ite ?_ ?_
  · refine satRf_keeps _ _ _ _ (sub_of hm rfl) ?_
    exact h
  · exact h

theorem shadowPut_keeps {m : Nat} {r s : State} (m0 : Master) (a : Nat) (w : Word) (hm : Sub 6 m) (h : Keeps m r s) :
    Keeps m r (shadowPut m0 a w s) := by
  unfold shadowPut
  refine Keeps.ite ?_ ?_
  · refine setShadow_keeps _ _ (sub_of hm rfl) ?_
    exact h
  · refine earlyWrite_keeps _ (sub_of hm rfl) ?_
    exact h

theorem pushWrite_keeps {m : Nat} {r s : State} (m0 : Master) (q : Nat) (w : Word) (hm : Sub 274881938538 m) (h : Keeps m r s) :
    Keeps m r (pushWrite m0 q w s) := by
  unfold pushWrite
  refine Keeps.ite ?_ ?_
  · refine qPush_keeps _ _ _ (sub_of hm rfl) ?_
    exact h
  · refine qViolation_keeps _ (sub_of hm rfl) ?_
    exact h

theorem qClrPeak_keeps {m : Nat} {r s : State} (q : Nat) (hm : Sub 2 m) (h : Keeps m r s) :
    Keeps m r (qClrPeak q s) := by
  unfold qClrPeak
  refine setRf_keeps _ _ _ _ (sub_of hm rfl) ?_
  exact h

theorem qClrCnt_keeps {m : Nat} {r s : State} (q : Nat) (hm : Sub 2 m) (h : Keeps m r s) :
    Keeps m r (qClrCnt q s) := by
  unfold qClrCnt
  refine setReg_keeps _ _ (sub_of hm rfl) ?_
  exact h

theorem qClrDed_keeps {m : Nat} {r s : State} (q : Nat) (hm : Sub 2 m) (h : Keeps m r s) :
    Keeps m r (qClrDed q s) := by
  unfold qClrDed
  refine setReg_keeps _ _ (sub_of hm rfl) ?_
  exact h

theorem qClrWrite_keeps {m : Nat} {r s : State} (q : Nat) (w : Word) (hm : Sub 2 m) (h : Keeps m r s) :
    Keeps m r (qClrWrite q w s) := by
  unfold qClrWrite
  extract_lets x7 x8
  have h9 : Keeps m r x7 := by
    refine Keeps.ite ?_ ?_
    · refine qClrCnt_keeps _ (sub_of hm rfl) ?_
      exact h
    · exact h
  clear_value x7
  have h10 : Keeps m r x8 := by
    refine Keeps.ite ?_ ?_
    · refine qClrPeak_keeps _ (sub_of hm rfl) ?_
      exact h9
    · exact h9
  clear_value x8
  refine Keeps.ite ?_ ?_
  · refine qClrDed_keeps _ (sub_of hm rfl) ?_
    exact h10
  · exact h10

theorem logAdvance_keeps {m : Nat} {r s : State} (m0 : Master) (w : Word) (hm : Sub 1837058 m) (h : Keeps m r s) :
    Keeps m r (logAdvance m0 w s) := by
  unfold logAdvance
  extract_lets x7 x8 x9
  have h10 : Keeps m r x8.2 := by
    refine readLog_keeps _ (sub_of hm rfl) ?_
    exact h
  clear_value x8
  have h11 : Keeps m r x9.2 := by
    refine readLog_keeps _ (sub_of hm rfl) ?_
    exact h10
  clear_value x9
  refine Keeps.ite ?_ ?_
  · refine advRefused_keeps _ (sub_of hm rfl) ?_
    exact h
  · refine Keeps.ite ?_ ?_
    · refine noteSev_keeps _ (sub_of hm rfl) ?_
      refine logBump_keeps (sub_of hm rfl) ?_
      exact h11
    · refine advRefused_keeps _ (sub_of hm rfl) ?_
      exact h11

theorem xclrSel_keeps {m : Nat} {r s : State}  (hm : Sub 65536 m) (h : Keeps m r s) :
    Keeps m r (xclrSel s) := by
  unfold xclrSel
  refine Keeps.upd_xcnt ?_ (hm 16 rfl)
  exact h

theorem xclrAll_keeps {m : Nat} {r s : State}  (hm : Sub 65536 m) (h : Keeps m r s) :
    Keeps m r (xclrAll s) := by
  unfold xclrAll
  refine Keeps.upd_xcnt ?_ (hm 16 rfl)
  exact h

theorem xclrWrite_keeps {m : Nat} {r s : State} (w : Word) (hm : Sub 65536 m) (h : Keeps m r s) :
    Keeps m r (xclrWrite w s) := by
  unfold xclrWrite
  extract_lets x6
  have h7 : Keeps m r x6 := by
    refine Keeps.ite ?_ ?_
    · refine xclrSel_keeps (sub_of hm rfl) ?_
      exact h
    · exact h
  clear_value x6
  refine Keeps.ite ?_ ?_
  · refine xclrAll_keeps (sub_of hm rfl) ?_
    exact h7
  · exact h7

theorem resetWrite_keeps {m : Nat} {r s : State} (m0 : Master) (w : Word) (hm : Sub 8591770658 m) (h : Keeps m r s) :
    Keeps m r (resetWrite m0 w s) := by
  unfold resetWrite
  refine Keeps.ite ?_ ?_
  · refine requestWarm_keeps _ (sub_of hm rfl) ?_
    exact h
  · exact h

theorem commitPut_keeps {m : Nat} {r s : State} (m0 : Master) (w : Word) (hm : Sub 2 m) (h : Keeps m r s) :
    Keeps m r (commitPut m0 w s) := by
  unfold commitPut
  refine Keeps.ite ?_ ?_
  · refine commitRequest_keeps _ (sub_of hm rfl) ?_
    exact h
  · refine earlyWrite_keeps _ (sub_of hm rfl) ?_
    exact h

theorem eccClr_keeps {m : Nat} {r s : State} (w : Word) (hm : Sub 2 m) (h : Keeps m r s) :
    Keeps m r (eccClr w s) := by
  unfold eccClr
  refine Keeps.foldl _ _ (fun s6 a6 h6 => ?_) _ ?_
  · refine setReg_keeps _ _ (sub_of hm rfl) ?_
    exact h6
  · exact h

theorem woWrite_keeps {m : Nat} {r s : State} (m0 : Master) (a : Nat) (w : Word) (hm : Sub 1382983502954 m) (h : Keeps m r s) :
    Keeps m r (woWrite m0 a w s) := by
  unfold woWrite
  refine Keeps.ite ?_ ?_
  · refine resetWrite_keeps _ _ (sub_of hm rfl) ?_
    exact h
  · refine Keeps.ite ?_ ?_
    · refine commitPut_keeps _ _ (sub_of hm rfl) ?_
      exact h
    · refine Keeps.ite ?_ ?_
      · refine eccClr_keeps _ (sub_of hm rfl) ?_
        exact h
      · refine Keeps.ite ?_ ?_
        · refine xclrWrite_keeps _ (sub_of hm rfl) ?_
          exact h
        · refine Keeps.ite ?_ ?_
          · refine rtcCmd_keeps _ _ (sub_of hm rfl) ?_
            exact h
          · refine Keeps.ite ?_ ?_
            · refine logAdvance_keeps _ _ (sub_of hm rfl) ?_
              exact h
            · refine Keeps.ite ?_ ?_
              · refine pushWrite_keeps _ _ _ (sub_of hm rfl) ?_
                exact h
              · refine qClrWrite_keeps _ _ (sub_of hm rfl) ?_
                exact h

theorem pfClear_keeps {m : Nat} {r s : State} (p : Nat) (hm : Sub 2048 m) (h : Keeps m r s) :
    Keeps m r (pfClear p s) := by
  unfold pfClear
  extract_lets x6
  refine Keeps.upd_eng ?_ (hm 11 rfl)
  exact h

theorem w1cWrite_keeps {m : Nat} {r s : State} (a : Nat) (w : Word) (hm : Sub 2050 m) (h : Keeps m r s) :
    Keeps m r (w1cWrite a w s) := by
  unfold w1cWrite
  refine Keeps.ite ?_ ?_
  · refine Keeps.ite ?_ ?_
    · refine pfClear_keeps _ (sub_of hm rfl) ?_
      exact h
    · exact h
  · refine setReg_keeps _ _ (sub_of hm rfl) ?_
    exact h

theorem pfSet_keeps {m : Nat} {r s : State} (p : Nat) (hm : Sub 2048 m) (h : Keeps m r s) :
    Keeps m r (pfSet p s) := by
  unfold pfSet
  extract_lets x6
  refine Keeps.ite ?_ ?_
  · exact h
  · refine Keeps.upd_eng ?_ (hm 11 rfl)
    exact h

theorem w1cSet_keeps {m : Nat} {r s : State} (a : Nat) (w : Word) (hm : Sub 2050 m) (h : Keeps m r s) :
    Keeps m r (w1cSet a w s) := by
  unfold w1cSet
  refine Keeps.ite ?_ ?_
  · refine Keeps.ite ?_ ?_
    · refine pfSet_keeps _ (sub_of hm rfl) ?_
      exact h
    · exact h
  · refine setReg_keeps _ _ (sub_of hm rfl) ?_
    exact h

theorem busWrite_keeps {m : Nat} {r s : State} (m0 : Master) (a : Nat) (w : Word) (hm : Sub 3844066872430 m) (h : Keeps m r s) :
    Keeps m r (busWrite m0 a w s) := by
  unfold busWrite
  refine Keeps.ite ?_ ?_
  · exact h
  · split
    · refine Keeps.ite ?_ ?_
      · refine shadowPut_keeps _ _ _ (sub_of hm rfl) ?_
        exact h
      · refine Keeps.ite ?_ ?_
        · refine w1cSet_keeps _ _ (sub_of hm rfl) ?_
          exact h
        · exact h
    · split
      · exact h
      · exact h
      · exact h
      · refine shadowPut_keeps _ _ _ (sub_of hm rfl) ?_
        exact h
      · refine w1cWrite_keeps _ _ (sub_of hm rfl) ?_
        exact h
      · refine woWrite_keeps _ _ _ (sub_of hm rfl) ?_
        exact h
      · refine rwWrite_keeps _ _ _ (sub_of hm rfl) ?_
        exact h

theorem engineRead_keeps {m : Nat} {r s : State} (a : Nat) (hm : Sub 3933218 m) (h : Keeps m r s) :
    Keeps m r (engineRead a s).2 := by
  unfold engineRead
  refine busRead_keeps _ _ (sub_of hm rfl) ?_ ?_
  · exact h
  · intro q6 q7 q8
    refine Keeps.mk2 ?_
    exact q8

theorem fabricRead_keeps {m : Nat} {r s : State} (a : Nat) (hm : Sub 3933218 m) (h : Keeps m r s) :
    Keeps m r (fabricRead a s).2 := by
  unfold fabricRead
  refine busRead_keeps _ _ (sub_of hm rfl) ?_ ?_
  · exact h
  · intro q6 q7 q8
    refine mirRead_keeps _ (sub_of hm rfl) ?_
    exact q8

theorem masterWrite_keeps {m : Nat} {r s : State} (m0 : Master) (a : Nat) (w : Option Word) (hm : Sub 3844066872430 m) (h : Keeps m r s) :
    Keeps m r (masterWrite m0 a w s) := by
  unfold masterWrite
  split
  · refine busWrite_keeps _ _ _ (sub_of hm rfl) ?_
    exact h
  · exact h

theorem sameCycleWrites_keeps {m : Nat} {r s : State} (a : Nat) (e : Option Word) (f : Option Word) (h0 : Option Word) (hm : Sub 3844066872430 m) (h : Keeps m r s) :
    Keeps m r (sameCycleWrites a e f h0 s) := by
  unfold sameCycleWrites
  refine masterWrite_keeps _ _ _ (sub_of hm rfl) ?_
  refine masterWrite_keeps _ _ _ (sub_of hm rfl) ?_
  refine masterWrite_keeps _ _ _ (sub_of hm rfl) ?_
  exact h

theorem w1cClear_keeps {m : Nat} {r s : State} (m0 : Master) (a : Nat) (w : Word) (hw : Word) (hm : Sub 3844066872430 m) (h : Keeps m r s) :
    Keeps m r (w1cClear m0 a w hw s) := by
  unfold w1cClear
  refine Keeps.ite ?_ ?_
  · refine w1cSet_keeps _ _ (sub_of hm rfl) ?_
    refine busWrite_keeps _ _ _ (sub_of hm rfl) ?_
    exact h
  · refine busWrite_keeps _ _ _ (sub_of hm rfl) ?_
    exact h

theorem execClrAll_keeps {m : Nat} {r s : State}  (hm : Sub 65536 m) (h : Keeps m r s) :
    KeepsO m r (execClrAll s) := by
  unfold execClrAll
  refine KeepsO.next ?_
  refine Keeps.ite ?_ ?_
  · exact h
  · refine xclrAll_keeps (sub_of hm rfl) ?_
    exact h

theorem execClrSel_keeps {m : Nat} {r s : State}  (hm : Sub 65536 m) (h : Keeps m r s) :
    KeepsO m r (execClrSel s) := by
  unfold execClrSel
  refine KeepsO.next ?_
  refine Keeps.ite ?_ ?_
  · exact h
  · refine xclrSel_keeps (sub_of hm rfl) ?_
    exact h

theorem execLogAdvance_keeps {m : Nat} {r s : State} (m0 : Master) (w : Word) (hm : Sub 1837058 m) (h : Keeps m r s) :
    KeepsO m r (execLogAdvance m0 w s) := by
  unfold execLogAdvance
  refine KeepsO.next ?_
  refine Keeps.ite ?_ ?_
  · exact h
  · refine logAdvance_keeps _ _ (sub_of hm rfl) ?_
    exact h

theorem execQueClrCnt_keeps {m : Nat} {r s : State} (q : Fin 64) (hm : Sub 2 m) (h : Keeps m r s) :
    KeepsO m r (execQueClrCnt q s) := by
  unfold execQueClrCnt
  refine KeepsO.next ?_
  refine Keeps.ite ?_ ?_
  · exact h
  · refine qClrCnt_keeps _ (sub_of hm rfl) ?_
    exact h

theorem execQueClrDed_keeps {m : Nat} {r s : State} (q : Fin 64) (hm : Sub 2 m) (h : Keeps m r s) :
    KeepsO m r (execQueClrDed q s) := by
  unfold execQueClrDed
  refine KeepsO.next ?_
  refine Keeps.ite ?_ ?_
  · exact h
  · refine qClrDed_keeps _ (sub_of hm rfl) ?_
    exact h

theorem execQueClrPeak_keeps {m : Nat} {r s : State} (q : Fin 64) (hm : Sub 2 m) (h : Keeps m r s) :
    KeepsO m r (execQueClrPeak q s) := by
  unfold execQueClrPeak
  refine KeepsO.next ?_
  refine Keeps.ite ?_ ?_
  · exact h
  · refine qClrPeak_keeps _ (sub_of hm rfl) ?_
    exact h

theorem execRegisterWrite_keeps {m : Nat} {r s : State} (addr : BitVec 20) (e : Option Word) (f : Option Word) (h0 : Option Word) (hm : Sub 3844066872430 m) (h : Keeps m r s) :
    KeepsO m r (execRegisterWrite addr e f h0 s) := by
  unfold execRegisterWrite
  refine KeepsO.next ?_
  refine sameCycleWrites_keeps _ _ _ _ (sub_of hm rfl) ?_
  exact h

theorem execSetAliasWrite_keeps {m : Nat} {r s : State} (addr : BitVec 20) (w : Word) (hm : Sub 3844066872430 m) (h : Keeps m r s) :
    KeepsO m r (execSetAliasWrite addr w s) := by
  unfold execSetAliasWrite
  refine KeepsO.next ?_
  refine busWrite_keeps _ _ _ (sub_of hm rfl) ?_
  exact h

theorem execShadowWrite_keeps {m : Nat} {r s : State} (m0 : Master) (addr : BitVec 20) (w : Word) (hm : Sub 3844066872430 m) (h : Keeps m r s) :
    KeepsO m r (execShadowWrite m0 addr w s) := by
  unfold execShadowWrite
  refine KeepsO.next ?_
  refine busWrite_keeps _ _ _ (sub_of hm rfl) ?_
  exact h

theorem execSysCommit_keeps {m : Nat} {r s : State} (m0 : Master) (w : Word) (hm : Sub 3844066872430 m) (h : Keeps m r s) :
    KeepsO m r (execSysCommit m0 w s) := by
  unfold execSysCommit
  refine KeepsO.next ?_
  refine busWrite_keeps _ _ _ (sub_of hm rfl) ?_
  exact h

theorem execSysResetWrite_keeps {m : Nat} {r s : State} (m0 : Master) (w : Word) (hm : Sub 3844066872430 m) (h : Keeps m r s) :
    KeepsO m r (execSysResetWrite m0 w s) := by
  unfold execSysResetWrite
  refine KeepsO.next ?_
  refine busWrite_keeps _ _ _ (sub_of hm rfl) ?_
  exact h

theorem execTteEccClr_keeps {m : Nat} {r s : State} (w : Word) (hm : Sub 2 m) (h : Keeps m r s) :
    KeepsO m r (execTteEccClr w s) := by
  unfold execTteEccClr
  refine KeepsO.next ?_
  refine Keeps.ite ?_ ?_
  · exact h
  · refine eccClr_keeps _ (sub_of hm rfl) ?_
    exact h

theorem execW1cClear_keeps {m : Nat} {r s : State} (m0 : Master) (addr : BitVec 20) (w : Word) (hw : Word) (hm : Sub 3844066872430 m) (h : Keeps m r s) :
    KeepsO m r (execW1cClear m0 addr w hw s) := by
  unfold execW1cClear
  refine KeepsO.next ?_
  refine w1cClear_keeps _ _ _ _ (sub_of hm rfl) ?_
  exact h

end Sys2Proof.Machine
end

