-- ==== Sys2Proof/Laws/EngineBus.lean ====
section
/-! SUPPORT. What each function of Machine/EngineBus.lean keeps of the state (Laws/Keeps.lean). -/

namespace Sys2Proof.Machine

theorem advRecord_keeps {m : Nat} {r s : State}  (hm : Sub 3935266 m) (h : Keeps m r s) :
    Keeps m r (advRecord s) := by
  unfold advRecord
  extract_lets x5 x6
  have h7 : Keeps m r x6 := by
    refine Keeps.upd_eng ?_ (hm 11 rfl)
    exact h
  clear_value x6
  split
  · refine Keeps.ite ?_ ?_
    · refine logOnce_keeps _ _ _ _ _ (sub_of hm rfl) ?_
      exact h7
    · exact h7
  · exact h

theorem readLogs_keeps {m : Nat} {r s : State} (x0 : Nat) (x1 : Nat) (hm : Sub 2 m) (h : Keeps m r s) :
    Keeps m r (readLogs x0 x1 s).2.2 := by
  induction x1 generalizing s x0 with | zero => ?_ | succ k ih => ?_
  · simp -zeta only [readLogs]
    exact h
  · simp -zeta only [readLogs]
    extract_lets x8 x9 x10
    have h11 : Keeps m r x9.2 := by
      refine readLog_keeps _ (sub_of hm rfl) ?_
      exact h
    clear_value x9
    have h12 : Keeps m r x10.2.2 := by
      refine ih _ ?_
      exact h11
    clear_value x10
    refine Keeps.mk3 ?_
    exact h12

theorem hpvKind_keeps {m : Nat} {r s : State} (kind : Nat) (now : Nat) (seen : Nat) (hm : Sub 3933218 m) (h : Keeps m r s) :
    Keeps m r (hpvKind kind now seen s) := by
  unfold hpvKind
  refine Keeps.ite ?_ ?_
  · exact h
  · refine logOnce_keeps _ _ _ _ _ (sub_of hm rfl) ?_
    refine orReg_keeps _ _ (sub_of hm rfl) ?_
    exact h

theorem hpvCheck_keeps {m : Nat} {r s : State}  (hm : Sub 4064290 m) (h : Keeps m r s) :
    Keeps m r (hpvCheck s) := by
  unfold hpvCheck
  extract_lets x5 x6 x7 x8 x9 x10
  have h11 : Keeps m r x7 := by
    refine hpvKind_keeps _ _ _ (sub_of hm rfl) ?_
    exact h
  clear_value x7
  have h12 : Keeps m r x8 := by
    refine hpvKind_keeps _ _ _ (sub_of hm rfl) ?_
    exact h11
  clear_value x8
  have h13 : Keeps m r x9 := by
    refine hpvKind_keeps _ _ _ (sub_of hm rfl) ?_
    exact h12
  clear_value x9
  refine Keeps.upd_host ?_ (hm 17 rfl)
  exact h13

theorem logWindow_keeps {m : Nat} {r s : State}  (hm : Sub 4066346 m) (h : Keeps m r s) :
    Keeps m r (logWindow s) := by
  unfold logWindow
  extract_lets x5 x6 x7 x8 x9 x10
  have h11 : Keeps m r x5 := by
    refine advRecord_keeps (sub_of hm rfl) ?_
    exact h
  clear_value x5
  have h12 : Keeps m r x7.2.2 := by
    refine readLogs_keeps _ _ (sub_of hm rfl) ?_
    exact h11
  clear_value x7
  have h13 : Keeps m r x8 := by
    refine Keeps.ite ?_ ?_
    · refine orReg_keeps _ _ (sub_of hm rfl) ?_
      exact h12
    · exact h12
  clear_value x8
  have h14 : Keeps m r x10 := by
    refine publish_keeps _ (sub_of hm rfl) ?_
    exact h13
  clear_value x10
  refine republish_keeps _ (sub_of hm rfl) ?_
  refine hpvCheck_keeps (sub_of hm rfl) ?_
  exact h14

theorem commitHook_keeps {m : Nat} {r s : State} (b : Nat) (hm : Sub 4066346 m) (h : Keeps m r s) :
    Keeps m r (commitHook s b) := by
  unfold commitHook
  split
  · refine ctlWindow_keeps (sub_of hm rfl) ?_
    exact h
  · refine fabWindow_keeps (sub_of hm rfl) ?_
    exact h
  · refine rtcWindow_keeps (sub_of hm rfl) ?_
    exact h
  · refine logWindow_keeps (sub_of hm rfl) ?_
    exact h
  · exact h

theorem islandPop_keeps {m : Nat} {r s : State} (ep : Nat) (q : Nat) (push : Option Word) (hm : Sub 274881946730 m) (h : Keeps m r s) :
    Keeps m r (islandPop ep q push s) := by
  unfold islandPop
  refine Keeps.ite ?_ ?_
  · exact h
  · refine Keeps.ite ?_ ?_
    · refine qPopWith_keeps _ _ (sub_of hm rfl) ?_
      exact h
    · refine qPushWith_keeps _ _ (sub_of hm rfl) ?_
      refine qViolation_keeps _ (sub_of hm rfl) ?_
      exact h

theorem mirrorSwitch_keeps {m : Nat} {r s : State} (consist : Nat) (mask : Nat) (hm : Sub 4066346 m) (h : Keeps m r s) :
    Keeps m r (mirrorSwitch consist mask s) := by
  unfold mirrorSwitch
  extract_lets x7 x8
  have h9 : Keeps m r x8 := by
    refine mswitch_keeps _ (sub_of hm rfl) ?_
    refine Keeps.foldl _ _ (fun s9 a9 h9 => ?_) _ ?_
    · refine commitHook_keeps _ (sub_of hm rfl) ?_
      exact h9
    · exact h
  clear_value x8
  refine commitMissed_keeps _ _ (sub_of hm rfl) ?_
  exact h9

theorem takeWord_keeps {m : Nat} {r s : State} (p : Nat) (hm : Sub 34430878754 m) (h : Keeps m r s) :
    Keeps m r (takeWord p s).2.2 := by
  unfold takeWord
  extract_lets x6
  have h7 : Keeps m r x6.2.2 := by
    refine take_keeps _ (sub_of hm rfl) ?_
    exact h
  clear_value x6
  refine Keeps.mk3 ?_
  refine Keeps.ite ?_ ?_
  · refine afterTake_keeps _ _ (sub_of hm rfl) ?_
    exact h7
  · exact h7

theorem portToQueue_keeps {m : Nat} {r s : State} (q : Nat) (p : Nat) (hm : Sub 309308785770 m) (h : Keeps m r s) :
    Keeps m r (portToQueue q p s) := by
  unfold portToQueue
  extract_lets x7
  have h8 : Keeps m r x7.2.2 := by
    refine takeWord_keeps _ (sub_of hm rfl) ?_
    exact h
  clear_value x7
  refine Keeps.ite ?_ ?_
  · exact h
  · refine Keeps.ite ?_ ?_
    · refine qPush_keeps _ _ _ (sub_of hm rfl) ?_
      exact h8
    · exact h8

theorem portWrite_keeps {m : Nat} {r s : State} (p : Nat) (w : Word) (hm : Sub 71140386 m) (h : Keeps m r s) :
    Keeps m r (portWrite p w s) := by
  unfold portWrite
  split
  · extract_lets x10
    have h11 : Keeps m r x10.2 := by
      refine gateWrite_keeps _ _ (sub_of hm rfl) ?_
      exact h
    clear_value x10
    refine sendOut_keeps _ _ (sub_of hm rfl) ?_
    exact h11
  · refine sendOut_keeps _ _ (sub_of hm rfl) ?_
    refine noteAout_keeps _ _ (sub_of hm rfl) ?_
    exact h

theorem queueToPort_keeps {m : Nat} {r s : State} (q : Nat) (p : Nat) (hm : Sub 274949055530 m) (h : Keeps m r s) :
    Keeps m r (queueToPort q p s) := by
  unfold queueToPort
  extract_lets x7
  have h8 : Keeps m r x7.2 := by
    refine qPop_keeps _ _ (sub_of hm rfl) ?_
    exact h
  clear_value x7
  refine Keeps.ite ?_ ?_
  · exact h
  · refine portWrite_keeps _ _ (sub_of hm rfl) ?_
    exact h8

theorem execIslandQueuePop_keeps {m : Nat} {r s : State} (q : Fin 64) (island : Fin 25) (unit : BitVec 8) (push : Option Word) (hm : Sub 274881946730 m) (h : Keeps m r s) :
    KeepsO m r (execIslandQueuePop q island unit push s) := by
  unfold execIslandQueuePop
  refine KeepsO.next ?_
  refine islandPop_keeps _ _ _ (sub_of hm rfl) ?_
  exact h

theorem execIslandQueuePush_keeps {m : Nat} {r s : State} (q : Fin 64) (island : Fin 25) (unit : BitVec 8) (ws : List Word) (hm : Sub 274881938538 m) (h : Keeps m r s) :
    KeepsO m r (execIslandQueuePush q island unit ws s) := by
  unfold execIslandQueuePush
  refine KeepsO.next ?_
  refine qPushAll_keeps _ _ _ (sub_of hm rfl) ?_
  exact h

theorem execMsw_keeps {m : Nat} {r s : State} (i : Issue) (a : Fin 64) (consist : BitVec 16) (hm : Sub 4066346 m) (h : Keeps m r s) :
    KeepsO m r (execMsw i a consist s) := by
  unfold execMsw
  refine KeepsO.guarded ?_
  extract_lets x8
  have h9 : Keeps m r x8 := by
    refine issue_keeps _ _ (sub_of hm rfl) ?_ ?_
    · exact h
    · intro q9 q10
      refine mirrorSwitch_keeps _ _ (sub_of hm rfl) ?_
      exact q10
  clear_value x8
  refine Keeps.ite ?_ ?_
  · refine commitMissed_keeps _ _ (sub_of hm rfl) ?_
    exact h9
  · exact h9

theorem execQx_keeps {m : Nat} {r s : State} (i : Issue) (q : Fin 64) (port : BitVec 11) (hm : Sub 274949057578 m) (h : Keeps m r s) :
    KeepsO m r (execQx i q port s) := by
  unfold execQx
  refine KeepsO.guarded ?_
  refine issue_keeps _ _ (sub_of hm rfl) ?_ ?_
  · exact h
  · intro q8 q9
    refine queueToPort_keeps _ _ (sub_of hm rfl) ?_
    exact q9

theorem execRld_keeps {m : Nat} {r s : State} (i : Issue) (d : Fin 64) (a : Fin 64) (imm : BitVec 7) (hm : Sub 3935266 m) (h : Keeps m r s) :
    KeepsO m r (execRld i d a imm s) := by
  unfold execRld
  refine KeepsO.guarded ?_
  refine issue_keeps _ _ (sub_of hm rfl) ?_ ?_
  · exact h
  · intro q9 q10
    extract_lets x11
    have h12 : Keeps m r x11.2 := by
      refine engineRead_keeps _ (sub_of hm rfl) ?_
      exact q10
    clear_value x11
    refine result_keeps _ _ _ _ (sub_of hm rfl) ?_
    exact h12

theorem execRst_keeps {m : Nat} {r s : State} (i : Issue) (d : Fin 64) (a : Fin 64) (imm : BitVec 7) (hm : Sub 3844066872430 m) (h : Keeps m r s) :
    KeepsO m r (execRst i d a imm s) := by
  unfold execRst
  refine KeepsO.guarded ?_
  refine issue_keeps _ _ (sub_of hm rfl) ?_ ?_
  · exact h
  · intro q9 q10
    refine busWrite_keeps _ _ _ (sub_of hm rfl) ?_
    exact q10

theorem execXq_keeps {m : Nat} {r s : State} (i : Issue) (q : Fin 64) (port : BitVec 11) (hm : Sub 309308787818 m) (h : Keeps m r s) :
    KeepsO m r (execXq i q port s) := by
  unfold execXq
  refine KeepsO.guarded ?_
  refine issue_keeps _ _ (sub_of hm rfl) ?_ ?_
  · exact h
  · intro q8 q9
    refine portToQueue_keeps _ _ (sub_of hm rfl) ?_
    exact q9

theorem execXrd_keeps {m : Nat} {r s : State} (i : Issue) (d : Fin 64) (port : BitVec 11) (fp : BitVec 2) (hm : Sub 34430880802 m) (h : Keeps m r s) :
    KeepsO m r (execXrd i d port fp s) := by
  unfold execXrd
  refine KeepsO.guarded ?_
  refine issue_keeps _ _ (sub_of hm rfl) ?_ ?_
  · exact h
  · intro q9 q10
    extract_lets x11
    have h12 : Keeps m r x11.2.2 := by
      refine takeWord_keeps _ (sub_of hm rfl) ?_
      exact q10
    clear_value x11
    refine resultP_keeps _ _ _ _ (sub_of hm rfl) ?_
    refine result_keeps _ _ _ _ (sub_of hm rfl) ?_
    exact h12

theorem execXwr_keeps {m : Nat} {r s : State} (i : Issue) (d : Fin 64) (port : BitVec 11) (hm : Sub 71142434 m) (h : Keeps m r s) :
    KeepsO m r (execXwr i d port s) := by
  unfold execXwr
  refine KeepsO.guarded ?_
  refine issue_keeps _ _ (sub_of hm rfl) ?_ ?_
  · exact h
  · intro q8 q9
    refine portWrite_keeps _ _ (sub_of hm rfl) ?_
    exact q9

end Sys2Proof.Machine
end

