-- ==== Sys2Proof/Laws/HostBus.lean ====
section
/-! SUPPORT. What each function of Machine/HostBus.lean keeps of the state (Laws/Keeps.lean). -/

namespace Sys2Proof.Machine

theorem drive_keeps {m : Nat} {r s : State} (v : BitVec 16) (latch : Option (Nat × BitVec 16)) (latch64 : Option (Nat × List (BitVec 16))) (hm : Sub 131072 m) (h : Keeps m r s) :
    Keeps m r (State.drive s v latch latch64) := by
  unfold State.drive
  extract_lets x8
  refine Keeps.upd_host ?_ (hm 17 rfl)
  exact h

theorem follow_keeps {m : Nat} {r s : State} (a : Nat) (hm : Sub 131072 m) (h : Keeps m r s) :
    Keeps m r (State.follow s a) := by
  unfold State.follow
  extract_lets x6
  split
  · refine Keeps.upd_host ?_ (hm 17 rfl)
    exact h
  · refine Keeps.upd_host ?_ (hm 17 rfl)
    exact h
  · refine Keeps.upd_host ?_ (hm 17 rfl)
    exact h
  · refine Keeps.upd_host ?_ (hm 17 rfl)
    exact h
  · exact h

theorem hold_keeps {m : Nat} {r s : State} (h0 : Option (Nat × BitVec 16)) (hm : Sub 131072 m) (h : Keeps m r s) :
    Keeps m r (State.hold s h0) := by
  unfold State.hold
  extract_lets x6
  refine Keeps.upd_host ?_ (hm 17 rfl)
  exact h

theorem cellPop_keeps {m : Nat} {r s : State} (q : Nat) (push : Option Word) (hm : Sub 274881963114 m) (h : Keeps m r s) :
    Keeps m r (cellPop q push s).2 := by
  unfold cellPop
  split
  · refine Keeps.mk2 ?_
    refine qPushWith_keeps _ _ (sub_of hm rfl) ?_
    refine orReg_keeps _ _ (sub_of hm rfl) ?_
    exact h
  · refine Keeps.mk2 ?_
    refine qDropWith_keeps _ _ (sub_of hm rfl) ?_
    refine Keeps.upd_qcell ?_ (hm 14 rfl)
    exact h

theorem dataPortHigh_keeps {m : Nat} {r s : State} (q : Nat) (hm : Sub 131072 m) (h : Keeps m r s) :
    Keeps m r (dataPortHigh q s) := by
  unfold dataPortHigh
  extract_lets x6
  refine drive_keeps _ _ _ (sub_of hm rfl) ?_
  exact h

theorem dataPortLow_keeps {m : Nat} {r s : State} (q : Nat) (push : Option Word) (hm : Sub 274882094186 m) (h : Keeps m r s) :
    Keeps m r (dataPortLow q push s) := by
  unfold dataPortLow
  extract_lets x7
  have h8 : Keeps m r x7.2 := by
    refine Keeps.ite2 ?_ ?_
    · refine Keeps.mk2 ?_
      exact h
    · refine Keeps.ite2 ?_ ?_
      · refine cellPop_keeps _ _ (sub_of hm rfl) ?_
        exact h
      · refine Keeps.mk2 ?_
        refine qPushWith_keeps _ _ (sub_of hm rfl) ?_
        refine qViolation_keeps _ (sub_of hm rfl) ?_
        exact h
  clear_value x7
  refine drive_keeps _ _ _ (sub_of hm rfl) ?_
  exact h8

theorem hostRead32_keeps {m : Nat} {r s : State} (a : Nat) (hm : Sub 3933218 m) (h : Keeps m r s) :
    Keeps m r (hostRead32 a s).2 := by
  unfold hostRead32
  refine Keeps.ite2 ?_ ?_
  · refine Keeps.mk2 ?_
    exact h
  · refine busRead_keeps _ _ (sub_of hm rfl) ?_ ?_
    · exact h
    · intro q6 q7 q8
      refine mirRead_keeps _ (sub_of hm rfl) ?_
      exact q8

theorem hostTiming_keeps {m : Nat} {r s : State}  (hm : Sub 2 m) (h : Keeps m r s) :
    Keeps m r (hostTiming s) := by
  unfold hostTiming
  refine satRf_keeps _ _ _ _ (sub_of hm rfl) ?_
  exact h

theorem readEarly_keeps {m : Nat} {r s : State} (a : Nat) (hm : Sub 4064290 m) (h : Keeps m r s) :
    Keeps m r (readEarly a s) := by
  unfold readEarly
  extract_lets x6
  have h7 : Keeps m r x6.2 := by
    refine hostRead32_keeps _ (sub_of hm rfl) ?_
    exact h
  clear_value x6
  refine follow_keeps _ (sub_of hm rfl) ?_
  refine drive_keeps _ _ _ (sub_of hm rfl) ?_
  refine hostTiming_keeps (sub_of hm rfl) ?_
  exact h7

theorem readWord0_keeps {m : Nat} {r s : State} (a : Nat) (hm : Sub 4064290 m) (h : Keeps m r s) :
    Keeps m r (readWord0 a s) := by
  unfold readWord0
  extract_lets x6 x7
  have h8 : Keeps m r x6.2 := by
    refine hostRead32_keeps _ (sub_of hm rfl) ?_
    exact h
  clear_value x6
  have h9 : Keeps m r x7.2 := by
    refine hostRead32_keeps _ (sub_of hm rfl) ?_
    exact h8
  clear_value x7
  refine follow_keeps _ (sub_of hm rfl) ?_
  refine drive_keeps _ _ _ (sub_of hm rfl) ?_
  exact h9

theorem readLow_keeps {m : Nat} {r s : State} (a : Nat) (push : Option Word) (hm : Sub 274882094186 m) (h : Keeps m r s) :
    Keeps m r (readLow a push s) := by
  unfold readLow
  extract_lets x7
  have h8 : Keeps m r x7.2 := by
    refine hostRead32_keeps _ (sub_of hm rfl) ?_
    exact h
  clear_value x7
  refine Keeps.ite ?_ ?_
  · refine dataPortLow_keeps _ _ (sub_of hm rfl) ?_
    exact h
  · refine Keeps.ite ?_ ?_
    · refine readWord0_keeps _ (sub_of hm rfl) ?_
      exact h
    · split
      · refine drive_keeps _ _ _ (sub_of hm rfl) ?_
        exact h
      · refine follow_keeps _ (sub_of hm rfl) ?_
        refine drive_keeps _ _ _ (sub_of hm rfl) ?_
        exact h8

theorem readHigh_keeps {m : Nat} {r s : State} (a : Nat) (hm : Sub 4064290 m) (h : Keeps m r s) :
    Keeps m r (readHigh a s) := by
  unfold readHigh
  extract_lets x6
  have h7 : Keeps m r x6.2 := by
    refine hostRead32_keeps _ (sub_of hm rfl) ?_
    exact h
  clear_value x6
  split
  · refine drive_keeps _ _ _ (sub_of hm rfl) ?_
    exact h
  · split
    · refine Keeps.ite ?_ ?_
      · refine drive_keeps _ _ _ (sub_of hm rfl) ?_
        exact h
      · refine Keeps.ite ?_ ?_
        · refine dataPortHigh_keeps _ (sub_of hm rfl) ?_
          exact h
        · refine follow_keeps _ (sub_of hm rfl) ?_
          refine drive_keeps _ _ _ (sub_of hm rfl) ?_
          exact h7
    · refine Keeps.ite ?_ ?_
      · refine dataPortHigh_keeps _ (sub_of hm rfl) ?_
        exact h
      · refine follow_keeps _ (sub_of hm rfl) ?_
        refine drive_keeps _ _ _ (sub_of hm rfl) ?_
        exact h7

theorem hostRead_keeps {m : Nat} {r s : State} (a : Nat) (gap : Nat) (push : Option Word) (hm : Sub 274882094186 m) (h : Keeps m r s) :
    Keeps m r (hostRead a gap push s) := by
  unfold hostRead
  refine Keeps.ite ?_ ?_
  · refine readEarly_keeps _ (sub_of hm rfl) ?_
    exact h
  · refine Keeps.ite ?_ ?_
    · refine readLow_keeps _ _ (sub_of hm rfl) ?_
      exact h
    · refine readHigh_keeps _ (sub_of hm rfl) ?_
      exact h

theorem dataPortRead_keeps {m : Nat} {r s : State} (q : Nat) (gap : Nat) (push : Option Word) (hm : Sub 274882094186 m) (h : Keeps m r s) :
    Keeps m r (dataPortRead q gap push s) := by
  unfold dataPortRead
  refine Keeps.ite ?_ ?_
  · refine qPushWith_keeps _ _ (sub_of hm rfl) ?_
    refine readEarly_keeps _ (sub_of hm rfl) ?_
    exact h
  · refine hostRead_keeps _ _ _ (sub_of hm rfl) ?_
    exact h

theorem headRefill_keeps {m : Nat} {r s : State} (q : Nat) (hm : Sub 3949602 m) (h : Keeps m r s) :
    Keeps m r (headRefill q s) := by
  unfold headRefill
  extract_lets x6 x7 x8
  have h9 : Keeps m r x7.2 := by
    refine qFetch_keeps _ _ (sub_of hm rfl) ?_
    exact h
  clear_value x7
  have h10 : Keeps m r x8 := by
    subst x8
    exact h9
  clear_value x8
  refine Keeps.ite ?_ ?_
  · refine Keeps.upd_qcell ?_ (hm 14 rfl)
    exact h10
  · exact h

theorem hostWriteHigh_keeps {m : Nat} {r s : State} (a : Nat) (v : BitVec 16) (len : Nat) (gap : Nat) (moved : Bool) (hm : Sub 3844067003502 m) (h : Keeps m r s) :
    Keeps m r (hostWriteHigh a v len gap moved s) := by
  unfold hostWriteHigh
  refine Keeps.ite ?_ ?_
  · refine hostTiming_keeps (sub_of hm rfl) ?_
    refine hold_keeps _ (sub_of hm rfl) ?_
    exact h
  · split
    · refine Keeps.ite ?_ ?_
      · refine busWrite_keeps _ _ _ (sub_of hm rfl) ?_
        refine hold_keeps _ (sub_of hm rfl) ?_
        exact h
      · refine satRf_keeps _ _ _ _ (sub_of hm rfl) ?_
        refine hold_keeps _ (sub_of hm rfl) ?_
        exact h
    · refine satRf_keeps _ _ _ _ (sub_of hm rfl) ?_
      refine hold_keeps _ (sub_of hm rfl) ?_
      exact h

theorem hostWriteLow_keeps {m : Nat} {r s : State} (a : Nat) (v : BitVec 16) (len : Nat) (gap : Nat) (moved : Bool) (hm : Sub 131074 m) (h : Keeps m r s) :
    Keeps m r (hostWriteLow a v len gap moved s) := by
  unfold hostWriteLow
  refine Keeps.ite ?_ ?_
  · refine hostTiming_keeps (sub_of hm rfl) ?_
    refine hold_keeps _ (sub_of hm rfl) ?_
    exact h
  · refine hold_keeps _ (sub_of hm rfl) ?_
    exact h

theorem hpvPoll_keeps {m : Nat} {r s : State}  (hm : Sub 12452898 m) (h : Keeps m r s) :
    Keeps m r (hpvPoll s) := by
  unfold hpvPoll
  extract_lets x5 x6
  have h7 : Keeps m r x5 := by
    refine Keeps.upd_logged_opUs ?_ (hm 21 rfl) (hm 23 rfl)
    exact h
  clear_value x5
  refine Keeps.ite ?_ ?_
  · exact h
  · refine hpvCheck_keeps (sub_of hm rfl) ?_
    refine Keeps.upd_host ?_ (hm 17 rfl)
    exact h7

theorem rraReads_keeps {m : Nat} {r s : State} (x0 : Nat) (x1 : List Word) (hm : Sub 3933218 m) (h : Keeps m r s) :
    Keeps m r (rraReads x0 x1 s).2.2 := by
  induction x1 generalizing s x0 with | nil => ?_ | cons a l ih => ?_
  · simp -zeta only [rraReads]
    exact h
  · simp -zeta only [rraReads]
    extract_lets x9 x10
    have h11 : Keeps m r x9.2 := by
      refine Keeps.ite2 ?_ ?_
      · refine Keeps.mk2 ?_
        exact h
      · refine fabricRead_keeps _ (sub_of hm rfl) ?_
        exact h
    clear_value x9
    have h12 : Keeps m r x10.2.2 := by
      refine ih _ ?_
      exact h11
    clear_value x10
    refine Keeps.mk3 ?_
    exact h12

theorem rraReply_keeps {m : Nat} {r s : State} (l : Nat) (kind : Nat) (n : Nat) (refused : Nat) (vals : List Word) (req : List Word) (hm : Sub 2611344147562 m) (h : Keeps m r s) :
    Keeps m r (rraReply l kind n refused vals req s) := by
  unfold rraReply
  extract_lets x11 x12 x13 x14 x15
  have h16 : Keeps m r x12.2 := by
    refine mkCell_keeps _ _ _ _ _ _ _ (sub_of hm rfl) ?_
    exact h
  clear_value x12
  have h17 : Keeps m r x13.2 := by
    refine free_keeps (sub_of hm rfl) ?_
    exact h16
  clear_value x13
  have h18 : Keeps m r x15 := by
    refine setRf_keeps _ _ _ _ (sub_of hm rfl) ?_
    exact h17
  clear_value x15
  refine fabShow_keeps _ (sub_of hm rfl) ?_
  refine rxPush_keeps _ _ (sub_of hm rfl) ?_
  refine satRf_keeps _ _ _ _ (sub_of hm rfl) ?_
  exact h18

theorem rraRead_keeps {m : Nat} {r s : State} (l : Nat) (req : List Word) (hm : Sub 2611344147562 m) (h : Keeps m r s) :
    Keeps m r (rraRead l req s) := by
  unfold rraRead
  extract_lets x7 x8 x9
  have h10 : Keeps m r x9.2.2 := by
    refine rraReads_keeps _ _ (sub_of hm rfl) ?_
    exact h
  clear_value x9
  refine Keeps.ite ?_ ?_
  · refine rraReply_keeps _ _ _ _ _ _ (sub_of hm rfl) ?_
    exact h
  · refine rraReply_keeps _ _ _ _ _ _ (sub_of hm rfl) ?_
    exact h10

theorem rraServe_keeps {m : Nat} {r s : State} (l : Nat) (type : Nat) (f : Nat → List Word → State → State) (hm : Sub 274881946666 m) (h : Keeps m r s) (hf : ∀ a0 a1 a2, Keeps m r a2 → Keeps m r (f a0 a1 a2)) :
    Keeps m r (rraServe l type f s) := by
  unfold rraServe
  extract_lets x9
  have h10 : Keeps m r x9.2 := by
    refine txPop_keeps _ _ (sub_of hm rfl) ?_
    exact h
  clear_value x9
  refine Keeps.ite ?_ ?_
  · exact h
  · refine hf _ _ _ ?_
    exact h10

theorem rraWrites_keeps {m : Nat} {r s : State} (x0 : Nat) (x1 : List (Word × Word)) (hm : Sub 3844066872430 m) (h : Keeps m r s) :
    Keeps m r (rraWrites x0 x1 s).2 := by
  induction x1 generalizing s x0 with | nil => ?_ | cons a l ih => ?_
  · simp -zeta only [rraWrites]
    exact h
  · simp -zeta only [rraWrites]
    extract_lets x9
    have h10 : Keeps m r x9.2 := by
      refine ih _ ?_
      refine Keeps.ite ?_ ?_
      · exact h
      · refine busWrite_keeps _ _ _ (sub_of hm rfl) ?_
        exact h
    clear_value x9
    refine Keeps.mk2 ?_
    exact h10

theorem rraWrite_keeps {m : Nat} {r s : State} (l : Nat) (req : List Word) (hm : Sub 3844066872430 m) (h : Keeps m r s) :
    Keeps m r (rraWrite l req s) := by
  unfold rraWrite
  extract_lets x7 x8 x9
  have h10 : Keeps m r x9.2 := by
    refine rraWrites_keeps _ _ (sub_of hm rfl) ?_
    exact h
  clear_value x9
  refine Keeps.ite ?_ ?_
  · refine rraReply_keeps _ _ _ _ _ _ (sub_of hm rfl) ?_
    exact h
  · refine rraReply_keeps _ _ _ _ _ _ (sub_of hm rfl) ?_
    exact h10

theorem execHeadCellRefill_keeps {m : Nat} {r s : State} (q : Fin 64) (hm : Sub 3949602 m) (h : Keeps m r s) :
    KeepsO m r (execHeadCellRefill q s) := by
  unfold execHeadCellRefill
  refine KeepsO.next ?_
  refine Keeps.ite ?_ ?_
  · exact h
  · refine headRefill_keeps _ (sub_of hm rfl) ?_
    exact h

theorem execHostDataPortRead_keeps {m : Nat} {r s : State} (q : Fin 64) (gapNs : Nat) (push : Option Word) (hm : Sub 274882094186 m) (h : Keeps m r s) :
    KeepsO m r (execHostDataPortRead q gapNs push s) := by
  unfold execHostDataPortRead
  refine KeepsO.next ?_
  refine dataPortRead_keeps _ _ _ (sub_of hm rfl) ?_
  exact h

theorem execHostPush_keeps {m : Nat} {r s : State} (q : Fin 64) (w : Word) (hm : Sub 3844066872430 m) (h : Keeps m r s) :
    KeepsO m r (execHostPush q w s) := by
  unfold execHostPush
  refine KeepsO.next ?_
  refine busWrite_keeps _ _ _ (sub_of hm rfl) ?_
  exact h

theorem execHostReadHighHalf_keeps {m : Nat} {r s : State} (addr : BitVec 20) (gapNs : Nat) (hm : Sub 274882094186 m) (h : Keeps m r s) :
    KeepsO m r (execHostReadHighHalf addr gapNs s) := by
  unfold execHostReadHighHalf
  refine KeepsO.guarded ?_
  refine hostRead_keeps _ _ _ (sub_of hm rfl) ?_
  exact h

theorem execHostReadLowHalf_keeps {m : Nat} {r s : State} (addr : BitVec 20) (gapNs : Nat) (hm : Sub 274882094186 m) (h : Keeps m r s) :
    KeepsO m r (execHostReadLowHalf addr gapNs s) := by
  unfold execHostReadLowHalf
  refine KeepsO.guarded ?_
  refine hostRead_keeps _ _ _ (sub_of hm rfl) ?_
  exact h

theorem execHostReadWord0_keeps {m : Nat} {r s : State} (addr : BitVec 20) (gapNs : Nat) (hm : Sub 274882094186 m) (h : Keeps m r s) :
    KeepsO m r (execHostReadWord0 addr gapNs s) := by
  unfold execHostReadWord0
  refine KeepsO.guarded ?_
  refine hostRead_keeps _ _ _ (sub_of hm rfl) ?_
  exact h

theorem execHostWriteHighHalf_keeps {m : Nat} {r s : State} (addr : BitVec 20) (v : BitVec 16) (lenNs : Nat) (gapNs : Nat) (haMoved : Bool) (hm : Sub 3844067003502 m) (h : Keeps m r s) :
    KeepsO m r (execHostWriteHighHalf addr v lenNs gapNs haMoved s) := by
  unfold execHostWriteHighHalf
  refine KeepsO.guarded ?_
  refine hostWriteHigh_keeps _ _ _ _ _ (sub_of hm rfl) ?_
  exact h

theorem execHostWriteLowHalf_keeps {m : Nat} {r s : State} (addr : BitVec 20) (v : BitVec 16) (lenNs : Nat) (gapNs : Nat) (haMoved : Bool) (hm : Sub 131074 m) (h : Keeps m r s) :
    KeepsO m r (execHostWriteLowHalf addr v lenNs gapNs haMoved s) := by
  unfold execHostWriteLowHalf
  refine KeepsO.guarded ?_
  refine hostWriteLow_keeps _ _ _ _ _ (sub_of hm rfl) ?_
  exact h

theorem execHpvPoll_keeps {m : Nat} {r s : State}  (hm : Sub 12452898 m) (h : Keeps m r s) :
    KeepsO m r (execHpvPoll s) := by
  unfold execHpvPoll
  refine KeepsO.next ?_
  refine Keeps.ite ?_ ?_
  · exact h
  · refine hpvPoll_keeps (sub_of hm rfl) ?_
    exact h

theorem execRraRead_keeps {m : Nat} {r s : State} (l : Fin 8) (hm : Sub 2611344155754 m) (h : Keeps m r s) :
    KeepsO m r (execRraRead l s) := by
  unfold execRraRead
  refine KeepsO.next ?_
  refine Keeps.ite ?_ ?_
  · exact h
  · refine rraServe_keeps _ _ _ (sub_of hm rfl) ?_ ?_
    · exact h
    · intro q6 q7 q8 q9
      refine rraRead_keeps _ _ (sub_of hm rfl) ?_
      exact q9

theorem execRraWrite_keeps {m : Nat} {r s : State} (l : Fin 8) (hm : Sub 3844066880622 m) (h : Keeps m r s) :
    KeepsO m r (execRraWrite l s) := by
  unfold execRraWrite
  refine KeepsO.next ?_
  refine Keeps.ite ?_ ?_
  · exact h
  · refine rraServe_keeps _ _ _ (sub_of hm rfl) ?_ ?_
    · exact h
    · intro q6 q7 q8 q9
      refine rraWrite_keeps _ _ (sub_of hm rfl) ?_
      exact q9

end Sys2Proof.Machine
end

