-- ==== Sys2Proof/Laws/LocalBus.lean ====
section
/-! SUPPORT. What each function of Machine/LocalBus.lean keeps of the state (Laws/Keeps.lean). -/

namespace Sys2Proof.Machine

theorem countBy_keeps {m : Nat} {r s : State} (src : Nat) (k : Nat) (n : Nat) (hm : Sub 274877906944 m) (h : Keeps m r s) :
    Keeps m r (countBy src k n s) := by
  unfold countBy
  extract_lets x8 x9 x10 x11
  refine Keeps.upd_bus ?_ (hm 38 rfl)
  exact h

theorem count1_keeps {m : Nat} {r s : State} (src : Nat) (k : Nat) (hm : Sub 274877906944 m) (h : Keeps m r s) :
    Keeps m r (count1 src k s) := by
  unfold count1
  refine countBy_keeps _ _ _ (sub_of hm rfl) ?_
  exact h

theorem snapShow_keeps {m : Nat} {r s : State} (src : Nat) (ws : List Word) (hm : Sub 3933226 m) (h : Keeps m r s) :
    Keeps m r (snapShow src ws s) := by
  unfold snapShow
  extract_lets x7 x8 x9
  have h10 : Keeps m r x8 := by
    refine Keeps.ite ?_ ?_
    · exact h
    · refine busRec_keeps _ _ _ _ _ (sub_of hm rfl) ?_
      refine busEvt_keeps _ _ (sub_of hm rfl) ?_
      exact h
  clear_value x8
  have h11 : Keeps m r x9 := by
    refine Keeps.ite ?_ ?_
    · exact h10
    · split
      · refine busRec_keeps _ _ _ _ _ (sub_of hm rfl) ?_
        refine busEvt_keeps _ _ (sub_of hm rfl) ?_
        exact h10
      · exact h10
  clear_value x9
  refine republish_keeps _ (sub_of hm rfl) ?_
  refine publish_keeps _ (sub_of hm rfl) ?_
  exact h11

theorem snapPump_keeps {m : Nat} {r s : State} (src : Nat) (hm : Sub 274881938538 m) (h : Keeps m r s) :
    Keeps m r (snapPump src s) := by
  unfold snapPump
  extract_lets x6
  split
  · exact h
  · refine Keeps.ite ?_ ?_
    · refine snapShow_keeps _ _ (sub_of hm rfl) ?_
      refine islandPush_keeps _ _ _ (sub_of hm rfl) ?_
      refine Keeps.upd_bus ?_ (hm 38 rfl)
      exact h
    · exact h

theorem busStats_keeps {m : Nat} {r s : State} (src : Nat) (hm : Sub 274881938538 m) (h : Keeps m r s) :
    Keeps m r (busStats src s) := by
  unfold busStats
  extract_lets x6 x7 x8 x9
  refine Keeps.ite ?_ ?_
  · exact h
  · refine snapPump_keeps _ (sub_of hm rfl) ?_
    refine Keeps.upd_bus ?_ (hm 38 rfl)
    exact h

theorem canSelect_keeps {m : Nat} {r s : State} (src : Nat) (idx : Nat) (v : Word) (hm : Sub 274877906944 m) (h : Keeps m r s) :
    Keeps m r (canSelect src idx v s) := by
  unfold canSelect
  extract_lets x8 x9
  split
  · exact h
  · refine Keeps.ite ?_ ?_
    · refine setCan_keeps _ _ (sub_of hm rfl) ?_
      exact h
    · refine setMac_keeps _ _ (sub_of hm rfl) ?_
      exact h

theorem execBusStats_keeps {m : Nat} {r s : State} (src : Fin 24) (hm : Sub 274881938538 m) (h : Keeps m r s) :
    KeepsO m r (execBusStats src s) := by
  unfold execBusStats
  refine KeepsO.next ?_
  refine busNote_keeps _ (sub_of hm rfl) ?_
  refine busStats_keeps _ (sub_of hm rfl) ?_
  exact h

theorem execBusStatusWord_keeps {m : Nat} {r s : State} (src : Fin 24) (hm : Sub 274881938538 m) (h : Keeps m r s) :
    KeepsO m r (execBusStatusWord src s) := by
  unfold execBusStatusWord
  refine KeepsO.next ?_
  refine busStatus_keeps _ (sub_of hm rfl) ?_
  refine snapPump_keeps _ (sub_of hm rfl) ?_
  exact h

theorem execCanSelect_keeps {m : Nat} {r s : State} (src : Fin 24) (idx : BitVec 9) (value : Word) (hm : Sub 274877906944 m) (h : Keeps m r s) :
    KeepsO m r (execCanSelect src idx value s) := by
  unfold execCanSelect
  refine KeepsO.next ?_
  refine canSelect_keeps _ _ _ (sub_of hm rfl) ?_
  exact h

end Sys2Proof.Machine
end

