-- ==== Sys2Proof/Laws/CanFd.lean ====
section
/-! SUPPORT. What each function of Machine/CanFd.lean keeps of the state (Laws/Keeps.lean). -/

namespace Sys2Proof.Machine

theorem canRecord_keeps {m : Nat} {r s : State} (c : Nat) (ws : List Word) (hm : Sub 274877906944 m) (h : Keeps m r s) :
    Keeps m r (canRecord c ws s) := by
  unfold canRecord
  extract_lets x7
  refine setCan_keeps _ _ (sub_of hm rfl) ?_
  exact h

theorem setTx_keeps {m : Nat} {r s : State} (c : Nat) (i : Nat) (b : TxBuf) (hm : Sub 274877906944 m) (h : Keeps m r s) :
    Keeps m r (setTx c i b s) := by
  unfold setTx
  extract_lets x8
  refine setCan_keeps _ _ (sub_of hm rfl) ?_
  exact h

theorem txEnd_keeps {m : Nat} {r s : State} (c : Nat) (i : Nat) (kind : Nat) (cause : Nat) (hm : Sub 274881840162 m) (h : Keeps m r s) :
    Keeps m r (txEnd c i kind cause s) := by
  unfold txEnd
  extract_lets x9 x10
  have h11 : Keeps m r x10 := by
    refine setTx_keeps _ _ _ (sub_of hm rfl) ?_
    exact h
  clear_value x10
  split
  · exact h
  · extract_lets x15 x16
    have h17 : Keeps m r x16 := by
      refine count1_keeps _ _ (sub_of hm rfl) ?_
      refine canRecord_keeps _ _ (sub_of hm rfl) ?_
      exact h11
    clear_value x16
    refine Keeps.ite ?_ ?_
    · refine Keeps.ite ?_ ?_
      · refine canRecord_keeps _ _ (sub_of hm rfl) ?_
        exact h11
      · exact h11
    · refine Keeps.ite ?_ ?_
      · refine busRec_keeps _ _ _ _ _ (sub_of hm rfl) ?_
        exact h17
      · exact h17

theorem abortAll_keeps {m : Nat} {r s : State} (c : Nat) (hm : Sub 274881840162 m) (h : Keeps m r s) :
    Keeps m r (abortAll c s) := by
  unfold abortAll
  refine Keeps.foldl _ _ (fun s6 a6 h6 => ?_) _ ?_
  · refine Keeps.ite ?_ ?_
    · refine txEnd_keeps _ _ _ _ (sub_of hm rfl) ?_
      exact h6
    · exact h6
  · exact h

theorem toShadow_keeps {m : Nat} {r s : State} (c : Nat) (b : Nat) (f : CanFrame) (stream : Bool) (hm : Sub 274877906944 m) (h : Keeps m r s) :
    Keeps m r (toShadow c b f stream s) := by
  unfold toShadow
  extract_lets x9 x10 x11 x12
  have h13 : Keeps m r x12 := by
    refine setCan_keeps _ _ (sub_of hm rfl) ?_
    exact h
  clear_value x12
  refine Keeps.ite ?_ ?_
  · refine count1_keeps _ _ (sub_of hm rfl) ?_
    exact h13
  · exact h13

theorem acceptFrame_keeps {m : Nat} {r s : State} (c : Nat) (b : Nat) (f : CanFrame) (hm : Sub 274877906944 m) (h : Keeps m r s) :
    Keeps m r (acceptFrame c b f s) := by
  unfold acceptFrame
  extract_lets x8 x9 x10 x11
  have h12 : Keeps m r x8 := by
    refine count1_keeps _ _ (sub_of hm rfl) ?_
    exact h
  clear_value x8
  have h13 : Keeps m r x11 := by
    refine setCan_keeps _ _ (sub_of hm rfl) ?_
    exact h12
  clear_value x11
  refine Keeps.ite ?_ ?_
  · refine Keeps.ite ?_ ?_
    · refine toShadow_keeps _ _ _ _ (sub_of hm rfl) ?_
      exact h12
    · refine Keeps.ite ?_ ?_
      · refine count1_keeps _ _ (sub_of hm rfl) ?_
        exact h13
      · exact h13
  · refine Keeps.ite ?_ ?_
    · refine toShadow_keeps _ _ _ _ (sub_of hm rfl) ?_
      exact h12
    · refine setCan_keeps _ _ (sub_of hm rfl) ?_
      exact h12

theorem streamHeld_keeps {m : Nat} {r s : State} (c : Nat) (b : Nat) (hm : Sub 274877906944 m) (h : Keeps m r s) :
    Keeps m r (streamHeld c s b) := by
  unfold streamHeld
  extract_lets x7 x8
  refine Keeps.ite ?_ ?_
  · refine setCan_keeps _ _ (sub_of hm rfl) ?_
    exact h
  · exact h

theorem applyNext_keeps {m : Nat} {r s : State} (c : Nat) (hm : Sub 274881840162 m) (h : Keeps m r s) :
    Keeps m r (applyNext c s) := by
  unfold applyNext
  extract_lets x6
  split
  · exact h
  · extract_lets x10 x11
    have h12 : Keeps m r x11 := by
      subst x11
      refine Keeps.foldl _ _ (fun s11 a11 h11 => ?_) _ ?_
      · refine streamHeld_keeps _ _ (sub_of hm rfl) ?_
        exact h11
      · refine setCan_keeps _ _ (sub_of hm rfl) ?_
        exact h
    clear_value x11
    refine Keeps.ite ?_ ?_
    · refine abortAll_keeps _ (sub_of hm rfl) ?_
      exact h12
    · exact h12

theorem deliverFrame_keeps {m : Nat} {r s : State} (c : Nat) (f : CanFrame) (hm : Sub 274877906944 m) (h : Keeps m r s) :
    Keeps m r (deliverFrame c f s) := by
  unfold deliverFrame
  split
  · refine acceptFrame_keeps _ _ _ (sub_of hm rfl) ?_
    exact h
  · refine count1_keeps _ _ (sub_of hm rfl) ?_
    exact h

theorem errState_keeps {m : Nat} {r s : State} (c : Nat) (hm : Sub 274881840162 m) (h : Keeps m r s) :
    Keeps m r (errState c s) := by
  unfold errState
  extract_lets x6
  refine Keeps.ite ?_ ?_
  · exact h
  · refine Keeps.ite ?_ ?_
    · refine Keeps.ite ?_ ?_
      · exact h
      · refine busRec_keeps _ _ _ _ _ (sub_of hm rfl) ?_
        refine busEvt_keeps _ _ (sub_of hm rfl) ?_
        refine setCan_keeps _ _ (sub_of hm rfl) ?_
        exact h
    · refine setCan_keeps _ _ (sub_of hm rfl) ?_
      exact h

theorem attemptEnd_keeps {m : Nat} {r s : State} (c : Nat) (i : Nat) (res : Nat) (hm : Sub 274881840162 m) (h : Keeps m r s) :
    Keeps m r (attemptEnd c i res s) := by
  unfold attemptEnd
  extract_lets x8 x9 x10 x11 x12 x13 x14 x15
  have h16 : Keeps m r x11 := by
    refine count1_keeps _ _ (sub_of hm rfl) ?_
    refine setCan_keeps _ _ (sub_of hm rfl) ?_
    exact h
  clear_value x11
  have h17 : Keeps m r x12 := by
    subst x12
    split
    · refine Keeps.ite ?_ ?_
      · refine deliverFrame_keeps _ _ (sub_of hm rfl) ?_
        exact h16
      · exact h16
    · exact h16
  clear_value x12
  have h18 : Keeps m r x13 := by
    refine count1_keeps _ _ (sub_of hm rfl) ?_
    refine setCan_keeps _ _ (sub_of hm rfl) ?_
    exact h
  clear_value x13
  have h19 : Keeps m r x15 := by
    refine setTx_keeps _ _ _ (sub_of hm rfl) ?_
    exact h
  clear_value x15
  split
  · refine errState_keeps _ (sub_of hm rfl) ?_
    refine txEnd_keeps _ _ _ _ (sub_of hm rfl) ?_
    exact h17
  · refine Keeps.ite ?_ ?_
    · refine txEnd_keeps _ _ _ _ (sub_of hm rfl) ?_
      exact h18
    · refine setTx_keeps _ _ _ (sub_of hm rfl) ?_
      exact h18
  · refine Keeps.ite ?_ ?_
    · refine txEnd_keeps _ _ _ _ (sub_of hm rfl) ?_
      exact h19
    · refine Keeps.ite ?_ ?_
      · refine txEnd_keeps _ _ _ _ (sub_of hm rfl) ?_
        exact h19
      · exact h19

theorem beginFrame_keeps {m : Nat} {r s : State} (c : Nat) (i : Nat) (ts : Nat) (hm : Sub 274877906944 m) (h : Keeps m r s) :
    Keeps m r (beginFrame c i ts s) := by
  unfold beginFrame
  extract_lets x8 x9
  have h10 : Keeps m r x9 := by
    refine setTx_keeps _ _ _ (sub_of hm rfl) ?_
    exact h
  clear_value x9
  refine Keeps.ite ?_ ?_
  · refine count1_keeps _ _ (sub_of hm rfl) ?_
    exact h10
  · exact h10

theorem canShow_keeps {m : Nat} {r s : State} (c : Nat) (hm : Sub 274881938474 m) (h : Keeps m r s) :
    Keeps m r (canShow c s) := by
  unfold canShow
  extract_lets x6 x7
  refine busNote_keeps _ (sub_of hm rfl) ?_
  refine publish_keeps _ (sub_of hm rfl) ?_
  exact h

theorem shiftRx_keeps {m : Nat} {r s : State} (c : Nat) (b : Nat) (hm : Sub 274877906944 m) (h : Keeps m r s) :
    Keeps m r (shiftRx c b s) := by
  unfold shiftRx
  extract_lets x7 x8
  refine setCan_keeps _ _ (sub_of hm rfl) ?_
  exact h

theorem canSeen_keeps {m : Nat} {r s : State} (c : Nat) (ws : List Word) (hm : Sub 3933218 m) (h : Keeps m r s) :
    Keeps m r (canSeen c ws s) := by
  unfold canSeen
  extract_lets x7 x8
  refine Keeps.ite ?_ ?_
  · refine busEvt_keeps _ _ (sub_of hm rfl) ?_
    exact h
  · refine Keeps.ite ?_ ?_
    · refine busRec_keeps _ _ _ _ _ (sub_of hm rfl) ?_
      refine busEvt_keeps _ _ (sub_of hm rfl) ?_
      exact h
    · exact h

theorem canPump_keeps {m : Nat} {r s : State} (c : Nat) (x1 : Nat) (hm : Sub 274881938538 m) (h : Keeps m r s) :
    Keeps m r (canPump c x1 s) := by
  induction x1 generalizing s with | zero => ?_ | succ k ih => ?_
  · simp -zeta only [canPump]
    exact h
  · simp -zeta only [canPump]
    extract_lets x8
    split
    · exact h
    · extract_lets x13 x14
      have h15 : Keeps m r x14 := by
        refine setCan_keeps _ _ (sub_of hm rfl) ?_
        exact h
      clear_value x14
      clear_value x13
      split
      · rename_i y16
        refine ih ?_
        exact h15
      · rename_i y17 y18
        extract_lets x17
        have h18 : Keeps m r x17 := by
          refine canSeen_keeps _ _ (sub_of hm rfl) ?_
          refine islandPush_keeps _ _ _ (sub_of hm rfl) ?_
          exact h15
        clear_value x17
        refine Keeps.ite ?_ ?_
        · refine ih ?_
          split
          · refine shiftRx_keeps _ _ (sub_of hm rfl) ?_
            exact h18
          · exact h18
        · exact h

theorem canFlow_keeps {m : Nat} {r s : State} (c : Nat) (hm : Sub 274881938538 m) (h : Keeps m r s) :
    Keeps m r (canFlow c s) := by
  unfold canFlow
  refine canShow_keeps _ (sub_of hm rfl) ?_
  refine snapPump_keeps _ (sub_of hm rfl) ?_
  refine canPump_keeps _ _ (sub_of hm rfl) ?_
  exact h

theorem frameOver_keeps {m : Nat} {r s : State} (c : Nat) (hm : Sub 274881840162 m) (h : Keeps m r s) :
    Keeps m r (frameOver c s) := by
  unfold frameOver
  extract_lets x6 x7
  have h8 : Keeps m r x7 := by
    refine setCan_keeps _ _ (sub_of hm rfl) ?_
    exact h
  clear_value x7
  refine Keeps.ite ?_ ?_
  · refine applyNext_keeps _ (sub_of hm rfl) ?_
    exact h8
  · exact h8

theorem busIntegration_keeps {m : Nat} {r s : State} (c : Nat) (hm : Sub 274881938538 m) (h : Keeps m r s) :
    Keeps m r (busIntegration c s) := by
  unfold busIntegration
  extract_lets x6 x7
  have h8 : Keeps m r x6 := by
    refine Keeps.ite ?_ ?_
    · refine frameOver_keeps _ (sub_of hm rfl) ?_
      exact h
    · exact h
  clear_value x6
  refine Keeps.ite ?_ ?_
  · refine canFlow_keeps _ (sub_of hm rfl) ?_
    exact h8
  · refine Keeps.ite ?_ ?_
    · refine canShow_keeps _ (sub_of hm rfl) ?_
      refine setCan_keeps _ _ (sub_of hm rfl) ?_
      exact h8
    · refine Keeps.ite ?_ ?_
      · refine canShow_keeps _ (sub_of hm rfl) ?_
        refine setCan_keeps _ _ (sub_of hm rfl) ?_
        exact h8
      · exact h8

theorem canCut_keeps {m : Nat} {r s : State} (c : Nat) (hm : Sub 274881840162 m) (h : Keeps m r s) :
    Keeps m r (canCut s c) := by
  unfold canCut
  extract_lets x6
  refine frameOver_keeps _ (sub_of hm rfl) ?_
  refine setCan_keeps _ _ (sub_of hm rfl) ?_
  exact h

theorem recoverStart_keeps {m : Nat} {r s : State} (auto : Bool) (c : Nat) (hm : Sub 274881938474 m) (h : Keeps m r s) :
    Keeps m r (recoverStart auto c s) := by
  unfold recoverStart
  extract_lets x7
  refine Keeps.ite ?_ ?_
  · refine canShow_keeps _ (sub_of hm rfl) ?_
    refine setCan_keeps _ _ (sub_of hm rfl) ?_
    exact h
  · exact h

theorem txRequest_keeps {m : Nat} {r s : State} (c : Nat) (i : Nat) (hm : Sub 274881840162 m) (h : Keeps m r s) :
    Keeps m r (txRequest c i s) := by
  unfold txRequest
  extract_lets x7 x8
  have h9 : Keeps m r x8 := by
    refine setTx_keeps _ _ _ (sub_of hm rfl) ?_
    exact h
  clear_value x8
  refine Keeps.ite ?_ ?_
  · exact h
  · refine Keeps.ite ?_ ?_
    · refine txEnd_keeps _ _ _ _ (sub_of hm rfl) ?_
      exact h9
    · exact h9

theorem canSend_keeps {m : Nat} {r s : State} (c : Nat) (mask : Nat) (hm : Sub 274881938538 m) (h : Keeps m r s) :
    Keeps m r (canSend c mask s) := by
  unfold canSend
  refine canFlow_keeps _ (sub_of hm rfl) ?_
  refine Keeps.foldl _ _ (fun s7 a7 h7 => ?_) _ ?_
  · refine txRequest_keeps _ _ (sub_of hm rfl) ?_
    exact h7
  · exact h

theorem canCfgEnd_keeps {m : Nat} {r s : State} (c : Nat) (hm : Sub 274881938538 m) (h : Keeps m r s) :
    Keeps m r (canCfgEnd c s) := by
  unfold canCfgEnd
  extract_lets x6 x7 x8
  have h9 : Keeps m r x8 := by
    refine setCan_keeps _ _ (sub_of hm rfl) ?_
    exact h
  clear_value x8
  refine canFlow_keeps _ (sub_of hm rfl) ?_
  refine Keeps.ite ?_ ?_
  · refine applyNext_keeps _ (sub_of hm rfl) ?_
    exact h9
  · exact h9

theorem canAbort_keeps {m : Nat} {r s : State} (c : Nat) (mask : Nat) (hm : Sub 274881938538 m) (h : Keeps m r s) :
    Keeps m r (canAbort c mask s) := by
  unfold canAbort
  refine canFlow_keeps _ (sub_of hm rfl) ?_
  refine Keeps.foldl _ _ (fun s7 a7 h7 => ?_) _ ?_
  · extract_lets x10
    refine Keeps.ite ?_ ?_
    · exact h7
    · refine Keeps.ite ?_ ?_
      · refine setTx_keeps _ _ _ (sub_of hm rfl) ?_
        exact h7
      · refine txEnd_keeps _ _ _ _ (sub_of hm rfl) ?_
        exact h7
  · exact h

theorem canFetch_keeps {m : Nat} {r s : State} (c : Nat) (b : Nat) (ts : Word) (hm : Sub 274881938538 m) (h : Keeps m r s) :
    Keeps m r (canFetch c b ts s) := by
  unfold canFetch
  extract_lets x8
  refine Keeps.ite ?_ ?_
  · exact h
  · refine canFlow_keeps _ (sub_of hm rfl) ?_
    split
    · refine setCan_keeps _ _ (sub_of hm rfl) ?_
      exact h
    · refine canRecord_keeps _ _ (sub_of hm rfl) ?_
      exact h

theorem canAttemptEnd_keeps {m : Nat} {r s : State} (c : Nat) (res : Nat) (tdcv : Option Nat) (hm : Sub 274881938538 m) (h : Keeps m r s) :
    Keeps m r (canAttemptEnd c res tdcv s) := by
  unfold canAttemptEnd
  extract_lets x8
  split
  · exact h
  · extract_lets x12 x13
    have h14 : Keeps m r x12 := by
      subst x12
      split
      · rename_i y14 y15
        refine Keeps.ite ?_ ?_
        · refine setCan_keeps _ _ (sub_of hm rfl) ?_
          exact h
        · exact h
      · rename_i y13
        exact h
    clear_value x12
    have h15 : Keeps m r x13 := by
      refine attemptEnd_keeps _ _ _ (sub_of hm rfl) ?_
      exact h14
    clear_value x13
    refine canFlow_keeps _ (sub_of hm rfl) ?_
    refine Keeps.ite ?_ ?_
    · refine applyNext_keeps _ (sub_of hm rfl) ?_
      exact h15
    · exact h15

theorem canError_keeps {m : Nat} {r s : State} (c : Nat) (kind : Nat) (txUp : Nat) (rxUp : Nat) (hm : Sub 274881938538 m) (h : Keeps m r s) :
    Keeps m r (canError c kind txUp rxUp s) := by
  unfold canError
  extract_lets x9 x10 x11 x12
  have h13 : Keeps m r x9 := by
    refine count1_keeps _ _ (sub_of hm rfl) ?_
    exact h
  have h14 : Keeps m r x12 := by
    refine count1_keeps _ _ (sub_of hm rfl) ?_
    refine setCan_keeps _ _ (sub_of hm rfl) ?_
    exact h13
  clear_value x12
  refine Keeps.ite ?_ ?_
  · exact h
  · refine canFlow_keeps _ (sub_of hm rfl) ?_
    refine Keeps.ite ?_ ?_
    · refine busRec_keeps _ _ _ _ _ (sub_of hm rfl) ?_
      refine busEvt_keeps _ _ (sub_of hm rfl) ?_
      exact h14
    · refine frameOver_keeps _ (sub_of hm rfl) ?_
      refine errState_keeps _ (sub_of hm rfl) ?_
      refine setCan_keeps _ _ (sub_of hm rfl) ?_
      exact h13

theorem loadRecord_keeps {m : Nat} {r s : State} (c : Nat) (ws : List Word) (hm : Sub 274881840162 m) (h : Keeps m r s) :
    Keeps m r (loadRecord c ws s) := by
  unfold loadRecord
  extract_lets x7 x8 x9 x10 x11 x12
  have h13 : Keeps m r x9 := by
    refine busRec_keeps _ _ _ _ _ (sub_of hm rfl) ?_
    refine count1_keeps _ _ (sub_of hm rfl) ?_
    refine count1_keeps _ _ (sub_of hm rfl) ?_
    exact h
  clear_value x9
  have h14 : Keeps m r x12 := by
    refine setTx_keeps _ _ _ (sub_of hm rfl) ?_
    exact h
  clear_value x12
  refine Keeps.ite ?_ ?_
  · refine canRecord_keeps _ _ (sub_of hm rfl) ?_
    exact h13
  · refine Keeps.ite ?_ ?_
    · refine count1_keeps _ _ (sub_of hm rfl) ?_
      exact h14
    · refine Keeps.ite ?_ ?_
      · refine txRequest_keeps _ _ (sub_of hm rfl) ?_
        exact h14
      · exact h14

theorem canLoad_keeps {m : Nat} {r s : State} (c : Nat) (hm : Sub 274881946730 m) (h : Keeps m r s) :
    Keeps m r (canLoad c s) := by
  unfold canLoad
  split
  · exact h
  · extract_lets x9 x10 x11
    have h12 : Keeps m r x11.2 := by
      refine busPop_keeps _ _ (sub_of hm rfl) ?_
      exact h
    clear_value x11
    refine Keeps.ite ?_ ?_
    · exact h
    · refine Keeps.ite ?_ ?_
      · exact h
      · refine Keeps.ite ?_ ?_
        · exact h
        · refine canFlow_keeps _ (sub_of hm rfl) ?_
          refine loadRecord_keeps _ _ (sub_of hm rfl) ?_
          exact h12

theorem rxGood_keeps {m : Nat} {r s : State} (c : Nat) (hm : Sub 2473901162496 m) (h : Keeps m r s) :
    Keeps m r (rxGood c s) := by
  unfold rxGood
  extract_lets x6 x7 x8
  have h9 : Keeps m r x7.2 := by
    refine free_keeps (sub_of hm rfl) ?_
    exact h
  clear_value x7
  refine Keeps.ite ?_ ?_
  · exact h
  · refine Keeps.ite ?_ ?_
    · refine setCan_keeps _ _ (sub_of hm rfl) ?_
      exact h
    · refine setCan_keeps _ _ (sub_of hm rfl) ?_
      exact h9

theorem canReceive_keeps {m : Nat} {r s : State} (c : Nat) (f : CanFrame) (ts : Nat) (hm : Sub 2508264932458 m) (h : Keeps m r s) :
    Keeps m r (canReceive c f ts s) := by
  unfold canReceive
  extract_lets x8 x9 x10
  have h11 : Keeps m r x9 := by
    refine Keeps.ite ?_ ?_
    · refine applyNext_keeps _ (sub_of hm rfl) ?_
      exact h
    · exact h
  clear_value x9
  have h12 : Keeps m r x10 := by
    refine Keeps.ite ?_ ?_
    · exact h11
    · refine errState_keeps _ (sub_of hm rfl) ?_
      refine rxGood_keeps _ (sub_of hm rfl) ?_
      refine deliverFrame_keeps _ _ (sub_of hm rfl) ?_
      refine stationRefresh_keeps _ _ _ (sub_of hm rfl) ?_
      exact h11
  clear_value x10
  refine Keeps.ite ?_ ?_
  · exact h
  · refine canFlow_keeps _ (sub_of hm rfl) ?_
    refine frameOver_keeps _ (sub_of hm rfl) ?_
    exact h12

theorem protocolException_keeps {m : Nat} {r s : State} (c : Nat) (hm : Sub 274881938538 m) (h : Keeps m r s) :
    Keeps m r (protocolException c s) := by
  unfold protocolException
  extract_lets x6
  refine Keeps.ite ?_ ?_
  · exact h
  · refine canFlow_keeps _ (sub_of hm rfl) ?_
    refine busRec_keeps _ _ _ _ _ (sub_of hm rfl) ?_
    refine busEvt_keeps _ _ (sub_of hm rfl) ?_
    refine count1_keeps _ _ (sub_of hm rfl) ?_
    refine setCan_keeps _ _ (sub_of hm rfl) ?_
    exact h

theorem recoverDone_keeps {m : Nat} {r s : State} (c : Nat) (hm : Sub 274881938474 m) (h : Keeps m r s) :
    Keeps m r (recoverDone c s) := by
  unfold recoverDone
  extract_lets x6 x7
  have h8 : Keeps m r x7 := by
    refine setCan_keeps _ _ (sub_of hm rfl) ?_
    exact h
  clear_value x7
  refine Keeps.ite ?_ ?_
  · refine canShow_keeps _ (sub_of hm rfl) ?_
    refine busRec_keeps _ _ _ _ _ (sub_of hm rfl) ?_
    refine busEvt_keeps _ _ (sub_of hm rfl) ?_
    exact h8
  · exact h

theorem startOfFrame_keeps {m : Nat} {r s : State} (c : Nat) (ts : Nat) (other : Bool) (hm : Sub 274881938538 m) (h : Keeps m r s) :
    Keeps m r (startOfFrame c ts other s) := by
  unfold startOfFrame
  extract_lets x8 x9 x10
  have h11 : Keeps m r x8 := by
    refine applyNext_keeps _ (sub_of hm rfl) ?_
    exact h
  clear_value x8
  have h12 : Keeps m r x10 := by
    refine setCan_keeps _ _ (sub_of hm rfl) ?_
    exact h11
  clear_value x10
  refine Keeps.ite ?_ ?_
  · exact h
  · refine canFlow_keeps _ (sub_of hm rfl) ?_
    refine Keeps.ite ?_ ?_
    · exact h12
    · split
      · exact h12
      · refine beginFrame_keeps _ _ _ (sub_of hm rfl) ?_
        exact h12

theorem execBusIntegration_keeps {m : Nat} {r s : State} (c : Fin 12) (hm : Sub 274881938538 m) (h : Keeps m r s) :
    KeepsO m r (execBusIntegration c s) := by
  unfold execBusIntegration
  refine KeepsO.next ?_
  refine busIntegration_keeps _ (sub_of hm rfl) ?_
  exact h

theorem execBusOffHoldEnd_keeps {m : Nat} {r s : State} (c : Fin 12) (hm : Sub 274881938474 m) (h : Keeps m r s) :
    KeepsO m r (execBusOffHoldEnd c s) := by
  unfold execBusOffHoldEnd
  refine KeepsO.next ?_
  refine recoverStart_keeps _ _ (sub_of hm rfl) ?_
  exact h

theorem execBusOffRecoveryDone_keeps {m : Nat} {r s : State} (c : Fin 12) (hm : Sub 274881938474 m) (h : Keeps m r s) :
    KeepsO m r (execBusOffRecoveryDone c s) := by
  unfold execBusOffRecoveryDone
  refine KeepsO.next ?_
  refine recoverDone_keeps _ (sub_of hm rfl) ?_
  exact h

theorem execCanAbort_keeps {m : Nat} {r s : State} (c : Fin 12) (mask : BitVec 16) (hm : Sub 274881938538 m) (h : Keeps m r s) :
    KeepsO m r (execCanAbort c mask s) := by
  unfold execCanAbort
  refine KeepsO.next ?_
  refine canAbort_keeps _ _ (sub_of hm rfl) ?_
  exact h

theorem execCanAttemptEnd_keeps {m : Nat} {r s : State} (c : Fin 12) (res : Fin 4) (tdcv : Option (BitVec 7)) (hm : Sub 274881938538 m) (h : Keeps m r s) :
    KeepsO m r (execCanAttemptEnd c res tdcv s) := by
  unfold execCanAttemptEnd
  refine KeepsO.next ?_
  refine canAttemptEnd_keeps _ _ _ (sub_of hm rfl) ?_
  exact h

theorem execCanError_keeps {m : Nat} {r s : State} (c : Fin 12) (kind : Fin 7) (txUp : Fin 9) (rxUp : Fin 9) (hm : Sub 274881938538 m) (h : Keeps m r s) :
    KeepsO m r (execCanError c kind txUp rxUp s) := by
  unfold execCanError
  refine KeepsO.guarded ?_
  refine canError_keeps _ _ _ _ (sub_of hm rfl) ?_
  exact h

theorem execCanFetch_keeps {m : Nat} {r s : State} (c : Fin 12) (b : BitVec 6) (ts : Word) (hm : Sub 274881938538 m) (h : Keeps m r s) :
    KeepsO m r (execCanFetch c b ts s) := by
  unfold execCanFetch
  refine KeepsO.next ?_
  refine canFetch_keeps _ _ _ (sub_of hm rfl) ?_
  exact h

theorem execCanFrameReceive_keeps {m : Nat} {r s : State} (c : Fin 12) (id : BitVec 29) (ide : Bool) (dlc : BitVec 4) (fdf : Bool) (brs : Bool) (esi : Bool) (rtr : Bool) (bytes : List Byte) (ts : BitVec 64) (hm : Sub 2508264932458 m) (h : Keeps m r s) :
    KeepsO m r (execCanFrameReceive c id ide dlc fdf brs esi rtr bytes ts s) := by
  unfold execCanFrameReceive
  refine KeepsO.guarded ?_
  refine canReceive_keeps _ _ _ (sub_of hm rfl) ?_
  exact h

theorem execCanRecover_keeps {m : Nat} {r s : State} (c : Fin 12) (hm : Sub 274881938474 m) (h : Keeps m r s) :
    KeepsO m r (execCanRecover c s) := by
  unfold execCanRecover
  refine KeepsO.next ?_
  refine recoverStart_keeps _ _ (sub_of hm rfl) ?_
  exact h

theorem execCanRxRecordPush_keeps {m : Nat} {r s : State} (c : Fin 12) (hm : Sub 274881938538 m) (h : Keeps m r s) :
    KeepsO m r (execCanRxRecordPush c s) := by
  unfold execCanRxRecordPush
  refine KeepsO.next ?_
  refine canFlow_keeps _ (sub_of hm rfl) ?_
  exact h

theorem execCanSend_keeps {m : Nat} {r s : State} (c : Fin 12) (mask : BitVec 16) (hm : Sub 274881938538 m) (h : Keeps m r s) :
    KeepsO m r (execCanSend c mask s) := by
  unfold execCanSend
  refine KeepsO.next ?_
  refine canSend_keeps _ _ (sub_of hm rfl) ?_
  exact h

theorem execCanTxRecordLoad_keeps {m : Nat} {r s : State} (c : Fin 12) (hm : Sub 274881946730 m) (h : Keeps m r s) :
    KeepsO m r (execCanTxRecordLoad c s) := by
  unfold execCanTxRecordLoad
  refine KeepsO.next ?_
  refine canLoad_keeps _ (sub_of hm rfl) ?_
  exact h

theorem execProtocolException_keeps {m : Nat} {r s : State} (c : Fin 12) (hm : Sub 274881938538 m) (h : Keeps m r s) :
    KeepsO m r (execProtocolException c s) := by
  unfold execProtocolException
  refine KeepsO.next ?_
  refine protocolException_keeps _ (sub_of hm rfl) ?_
  exact h

theorem execStartOfFrame_keeps {m : Nat} {r s : State} (c : Fin 12) (ts : BitVec 64) (other : Bool) (hm : Sub 274881938538 m) (h : Keeps m r s) :
    KeepsO m r (execStartOfFrame c ts other s) := by
  unfold execStartOfFrame
  refine KeepsO.next ?_
  refine startOfFrame_keeps _ _ _ (sub_of hm rfl) ?_
  exact h

end Sys2Proof.Machine
end

