-- ==== Sys2Proof/Laws/T1s.lean ====
section
/-! SUPPORT. What each function of Machine/T1s.lean keeps of the state (Laws/Keeps.lean). -/

namespace Sys2Proof.Machine

theorem addReport_keeps {m : Nat} {r s : State} (p : Nat) (ws : List Word) (hm : Sub 274877906944 m) (h : Keeps m r s) :
    Keeps m r (addReport p ws s) := by
  unfold addReport
  extract_lets x7
  refine setMac_keeps _ _ (sub_of hm rfl) ?_
  exact h

theorem macApply_keeps {m : Nat} {r s : State} (p : Nat) (n : Sparse Word) (hm : Sub 274877906944 m) (h : Keeps m r s) :
    Keeps m r (macApply p n s) := by
  unfold macApply
  extract_lets x7 x8 x9 x10 x11 x12
  have h13 : Keeps m r x9 := by
    refine setMac_keeps _ _ (sub_of hm rfl) ?_
    exact h
  clear_value x9
  refine setMac_keeps _ _ (sub_of hm rfl) ?_
  exact h13

theorem macStart_keeps {m : Nat} {r s : State} (p : Nat) (hm : Sub 274877906944 m) (h : Keeps m r s) :
    Keeps m r (macStart p s) := by
  unfold macStart
  extract_lets x6
  split
  · refine macApply_keeps _ _ (sub_of hm rfl) ?_
    refine setMac_keeps _ _ (sub_of hm rfl) ?_
    exact h
  · exact h

theorem macShow_keeps {m : Nat} {r s : State} (p : Nat) (hm : Sub 274881938474 m) (h : Keeps m r s) :
    Keeps m r (macShow p s) := by
  unfold macShow
  refine busNote_keeps _ (sub_of hm rfl) ?_
  exact h

theorem backpressure_keeps {m : Nat} {r s : State} (p : Nat) (hm : Sub 274881938474 m) (h : Keeps m r s) :
    Keeps m r (backpressure p s) := by
  unfold backpressure
  extract_lets x6 x7
  have h8 : Keeps m r x6 := by
    refine macStart_keeps _ (sub_of hm rfl) ?_
    exact h
  clear_value x6
  refine Keeps.ite ?_ ?_
  · exact h
  · refine macShow_keeps _ (sub_of hm rfl) ?_
    split
    · refine Keeps.ite ?_ ?_
      · exact h8
      · refine Keeps.ite ?_ ?_
        · refine setMac_keeps _ _ (sub_of hm rfl) ?_
          exact h8
        · refine Keeps.ite ?_ ?_
          · refine count1_keeps _ _ (sub_of hm rfl) ?_
            refine flowOn_keeps _ _ _ (sub_of hm rfl) ?_
            exact h8
          · exact h8
    · exact h8

theorem busPowerOff_keeps {m : Nat} {r s : State}  (hm : Sub 274881938474 m) (h : Keeps m r s) :
    Keeps m r (busPowerOff s) := by
  unfold busPowerOff
  extract_lets x5 x6
  have h7 : Keeps m r x6 := by
    refine Keeps.upd_bus ?_ (hm 38 rfl)
    exact h
  clear_value x6
  refine Keeps.foldl _ _ (fun s8 a8 h8 => ?_) _ ?_
  · refine busNote_keeps _ (sub_of hm rfl) ?_
    exact h8
  · refine Keeps.foldl _ _ (fun s8 a8 h8 => ?_) _ ?_
    · refine canCut_keeps _ (sub_of hm rfl) ?_
      exact h8
    · exact h7

theorem macCfgEnd_keeps {m : Nat} {r s : State} (p : Nat) (hm : Sub 274881938474 m) (h : Keeps m r s) :
    Keeps m r (macCfgEnd p s) := by
  unfold macCfgEnd
  extract_lets x6 x7 x8
  have h9 : Keeps m r x7 := by
    refine setMac_keeps _ _ (sub_of hm rfl) ?_
    exact h
  clear_value x7
  refine macShow_keeps _ (sub_of hm rfl) ?_
  refine Keeps.ite ?_ ?_
  · refine macStart_keeps _ (sub_of hm rfl) ?_
    exact h9
  · refine macApply_keeps _ _ (sub_of hm rfl) ?_
    exact h9

theorem macDone_keeps {m : Nat} {r s : State} (p : Nat) (outcome : Nat) (ts : Word) (hm : Sub 274877906944 m) (h : Keeps m r s) :
    Keeps m r (macDone p outcome ts s) := by
  unfold macDone
  extract_lets x8 x9 x10
  have h11 : Keeps m r x10 := by
    refine setMac_keeps _ _ (sub_of hm rfl) ?_
    exact h
  clear_value x10
  refine Keeps.ite ?_ ?_
  · refine addReport_keeps _ _ (sub_of hm rfl) ?_
    exact h11
  · exact h11

theorem reportSeen_keeps {m : Nat} {r s : State} (p : Nat) (ws : List Word) (hm : Sub 2 m) (h : Keeps m r s) :
    Keeps m r (reportSeen p ws s) := by
  unfold reportSeen
  split
  · refine busEvt_keeps _ _ (sub_of hm rfl) ?_
    exact h
  · refine busEvt_keeps _ _ (sub_of hm rfl) ?_
    exact h
  · refine busEvt_keeps _ _ (sub_of hm rfl) ?_
    exact h
  · exact h

theorem rxCounters_keeps {m : Nat} {r s : State} (p : Nat) (f : List Byte) (hm : Sub 274877906944 m) (h : Keeps m r s) :
    Keeps m r (rxCounters p f s) := by
  unfold rxCounters
  extract_lets x7 x8
  have h9 : Keeps m r x8 := by
    refine count1_keeps _ _ (sub_of hm rfl) ?_
    refine countBy_keeps _ _ _ (sub_of hm rfl) ?_
    refine count1_keeps _ _ (sub_of hm rfl) ?_
    exact h
  clear_value x8
  refine Keeps.ite ?_ ?_
  · refine count1_keeps _ _ (sub_of hm rfl) ?_
    exact h9
  · refine Keeps.ite ?_ ?_
    · refine count1_keeps _ _ (sub_of hm rfl) ?_
      exact h9
    · exact h9

theorem macPump_keeps {m : Nat} {r s : State} (p : Nat) (x1 : Nat) (hm : Sub 274881938538 m) (h : Keeps m r s) :
    Keeps m r (macPump p x1 s) := by
  induction x1 generalizing s with | zero => ?_ | succ k ih => ?_
  · simp -zeta only [macPump]
    exact h
  · simp -zeta only [macPump]
    extract_lets x8
    split
    · exact h
    · extract_lets x13 x14
      have h15 : Keeps m r x14 := by
        refine islandPush_keeps _ _ _ (sub_of hm rfl) ?_
        refine setMac_keeps _ _ (sub_of hm rfl) ?_
        exact h
      clear_value x14
      refine Keeps.ite ?_ ?_
      · refine ih ?_
        split
        · refine rxCounters_keeps _ _ (sub_of hm rfl) ?_
          exact h15
        · refine reportSeen_keeps _ _ (sub_of hm rfl) ?_
          exact h15
      · exact h

theorem macFlow_keeps {m : Nat} {r s : State} (p : Nat) (hm : Sub 274881938538 m) (h : Keeps m r s) :
    Keeps m r (macFlow p s) := by
  unfold macFlow
  refine macShow_keeps _ (sub_of hm rfl) ?_
  refine snapPump_keeps _ (sub_of hm rfl) ?_
  refine macPump_keeps _ _ (sub_of hm rfl) ?_
  exact h

theorem macPop_keeps {m : Nat} {r s : State} (p : Nat) (hm : Sub 274881946730 m) (h : Keeps m r s) :
    Keeps m r (macPop p s) := by
  unfold macPop
  extract_lets x6
  split
  · exact h
  · extract_lets x10 x11 x12 x13 x14 x15
    have h16 : Keeps m r x12 := by
      refine count1_keeps _ _ (sub_of hm rfl) ?_
      refine busPop_keeps _ _ (sub_of hm rfl) ?_
      exact h
    clear_value x12
    have h17 : Keeps m r x13.2 := by
      refine busPop_keeps _ _ (sub_of hm rfl) ?_
      exact h
    clear_value x13
    refine Keeps.ite ?_ ?_
    · exact h
    · refine Keeps.ite ?_ ?_
      · refine macFlow_keeps _ (sub_of hm rfl) ?_
        refine addReport_keeps _ _ (sub_of hm rfl) ?_
        refine busRec_keeps _ _ _ _ _ (sub_of hm rfl) ?_
        exact h16
      · refine Keeps.ite ?_ ?_
        · exact h
        · refine macFlow_keeps _ (sub_of hm rfl) ?_
          refine setMac_keeps _ _ (sub_of hm rfl) ?_
          exact h17

theorem pauseReceived_keeps {m : Nat} {r s : State} (p : Nat) (quanta : Nat) (hm : Sub 274877906944 m) (h : Keeps m r s) :
    Keeps m r (pauseReceived p quanta s) := by
  unfold pauseReceived
  extract_lets x7 x8
  have h9 : Keeps m r x7 := by
    refine count1_keeps _ _ (sub_of hm rfl) ?_
    exact h
  clear_value x7
  refine Keeps.ite ?_ ?_
  · refine setMac_keeps _ _ (sub_of hm rfl) ?_
    exact h9
  · exact h9

theorem macReceive_keeps {m : Nat} {r s : State} (p : Nat) (f : List Byte) (whole : Bool) (late : Bool) (ts : Nat) (hm : Sub 309241676906 m) (h : Keeps m r s) :
    Keeps m r (macReceive p f whole late ts s) := by
  unfold macReceive
  extract_lets x10 x11 x12 x13
  have h14 : Keeps m r x10 := by
    refine Keeps.ite ?_ ?_
    · refine macStart_keeps _ (sub_of hm rfl) ?_
      exact h
    · exact h
  clear_value x10
  have h15 : Keeps m r x11 := by
    refine Keeps.ite ?_ ?_
    · refine stationRefresh_keeps _ _ _ (sub_of hm rfl) ?_
      exact h14
    · exact h14
  clear_value x11
  refine Keeps.ite ?_ ?_
  · exact h
  · refine macFlow_keeps _ (sub_of hm rfl) ?_
    refine Keeps.ite ?_ ?_
    · refine busRec_keeps _ _ _ _ _ (sub_of hm rfl) ?_
      refine busEvt_keeps _ _ (sub_of hm rfl) ?_
      refine count1_keeps _ _ (sub_of hm rfl) ?_
      refine setMac_keeps _ _ (sub_of hm rfl) ?_
      exact h15
    · split
      · refine count1_keeps _ _ (sub_of hm rfl) ?_
        exact h15
      · refine Keeps.ite ?_ ?_
        · refine Keeps.ite ?_ ?_
          · refine pauseReceived_keeps _ _ (sub_of hm rfl) ?_
            exact h15
          · refine count1_keeps _ _ (sub_of hm rfl) ?_
            exact h15
        · refine Keeps.ite ?_ ?_
          · refine setMac_keeps _ _ (sub_of hm rfl) ?_
            exact h15
          · refine count1_keeps _ _ (sub_of hm rfl) ?_
            exact h15

theorem sentCounters_keeps {m : Nat} {r s : State} (p : Nat) (f : List Byte) (coll : Nat) (hm : Sub 274877906944 m) (h : Keeps m r s) :
    Keeps m r (sentCounters p f coll s) := by
  unfold sentCounters
  extract_lets x8 x9 x10
  have h11 : Keeps m r x9 := by
    refine countBy_keeps _ _ _ (sub_of hm rfl) ?_
    refine count1_keeps _ _ (sub_of hm rfl) ?_
    exact h
  clear_value x9
  have h12 : Keeps m r x10 := by
    refine Keeps.ite ?_ ?_
    · refine count1_keeps _ _ (sub_of hm rfl) ?_
      exact h11
    · refine Keeps.ite ?_ ?_
      · refine count1_keeps _ _ (sub_of hm rfl) ?_
        exact h11
      · exact h11
  clear_value x10
  refine Keeps.ite ?_ ?_
  · refine count1_keeps _ _ (sub_of hm rfl) ?_
    exact h12
  · refine Keeps.ite ?_ ?_
    · refine count1_keeps _ _ (sub_of hm rfl) ?_
      exact h12
    · exact h12

theorem noteDefer_keeps {m : Nat} {r s : State} (p : Nat) (defer : Bool) (hm : Sub 274877906944 m) (h : Keeps m r s) :
    Keeps m r (noteDefer p defer s) := by
  unfold noteDefer
  extract_lets x7
  refine Keeps.ite ?_ ?_
  · refine count1_keeps _ _ (sub_of hm rfl) ?_
    refine setMac_keeps _ _ (sub_of hm rfl) ?_
    exact h
  · exact h

theorem macTransmit_keeps {m : Nat} {r s : State} (p : Nat) (res : Nat) (defer : Bool) (ts : Nat) (hm : Sub 2473905194090 m) (h : Keeps m r s) :
    Keeps m r (macTransmit p res defer ts s) := by
  unfold macTransmit
  extract_lets x9 x10 x11 x12 x13 x14 x15 x16
  have h17 : Keeps m r x10 := by
    refine noteDefer_keeps _ _ (sub_of hm rfl) ?_
    refine macStart_keeps _ (sub_of hm rfl) ?_
    exact h
  clear_value x10
  have h18 : Keeps m r x13 := by
    refine count1_keeps _ _ (sub_of hm rfl) ?_
    refine setMac_keeps _ _ (sub_of hm rfl) ?_
    exact h17
  clear_value x13
  have h19 : Keeps m r x14.2 := by
    refine free_keeps (sub_of hm rfl) ?_
    exact h18
  clear_value x14
  have h20 : Keeps m r x16 := by
    refine count1_keeps _ _ (sub_of hm rfl) ?_
    refine count1_keeps _ _ (sub_of hm rfl) ?_
    refine setMac_keeps _ _ (sub_of hm rfl) ?_
    exact h17
  clear_value x16
  refine Keeps.ite ?_ ?_
  · exact h
  · split
    · exact h
    · refine macFlow_keeps _ (sub_of hm rfl) ?_
      split
      · refine macDone_keeps _ _ _ (sub_of hm rfl) ?_
        refine sentCounters_keeps _ _ _ (sub_of hm rfl) ?_
        exact h17
      · refine Keeps.ite ?_ ?_
        · refine macDone_keeps _ _ _ (sub_of hm rfl) ?_
          refine busRec_keeps _ _ _ _ _ (sub_of hm rfl) ?_
          refine count1_keeps _ _ (sub_of hm rfl) ?_
          exact h18
        · refine setMac_keeps _ _ (sub_of hm rfl) ?_
          exact h19
      · refine macDone_keeps _ _ _ (sub_of hm rfl) ?_
        refine busRec_keeps _ _ _ _ _ (sub_of hm rfl) ?_
        exact h20

theorem pauseArrives_keeps {m : Nat} {r s : State} (p : Nat) (quanta : Nat) (hm : Sub 274881938474 m) (h : Keeps m r s) :
    Keeps m r (pauseArrives p quanta s) := by
  unfold pauseArrives
  extract_lets x7
  have h8 : Keeps m r x7 := by
    refine macStart_keeps _ (sub_of hm rfl) ?_
    exact h
  clear_value x7
  refine Keeps.ite ?_ ?_
  · exact h
  · refine macShow_keeps _ (sub_of hm rfl) ?_
    refine Keeps.ite ?_ ?_
    · refine pauseReceived_keeps _ _ (sub_of hm rfl) ?_
      exact h8
    · exact h8

theorem sendPause_keeps {m : Nat} {r s : State} (p : Nat) (quanta : Nat) (hm : Sub 274877906944 m) (h : Keeps m r s) :
    Keeps m r (sendPause p quanta s) := by
  unfold sendPause
  extract_lets x7
  refine count1_keeps _ _ (sub_of hm rfl) ?_
  refine setMac_keeps _ _ (sub_of hm rfl) ?_
  exact h

theorem pauseZero_keeps {m : Nat} {r s : State} (p : Nat) (hm : Sub 274877906944 m) (h : Keeps m r s) :
    Keeps m r (pauseZero p s) := by
  unfold pauseZero
  extract_lets x6 x7
  have h8 : Keeps m r x6 := by
    refine sendPause_keeps _ _ (sub_of hm rfl) ?_
    exact h
  clear_value x6
  refine setMac_keeps _ _ (sub_of hm rfl) ?_
  exact h8

theorem pauseStart_keeps {m : Nat} {r s : State} (p : Nat) (f : State → State) (hm : Sub 274881938474 m) (h : Keeps m r s) (hf : ∀ a0, Keeps m r a0 → Keeps m r (f a0)) :
    Keeps m r (pauseStart p f s) := by
  unfold pauseStart
  extract_lets x8
  have h9 : Keeps m r x8 := by
    refine macStart_keeps _ (sub_of hm rfl) ?_
    exact h
  clear_value x8
  refine macShow_keeps _ (sub_of hm rfl) ?_
  refine Keeps.ite ?_ ?_
  · refine hf _ ?_
    exact h9
  · exact h9

theorem pauseRelease_keeps {m : Nat} {r s : State} (p : Nat) (hm : Sub 274881938474 m) (h : Keeps m r s) :
    Keeps m r (pauseRelease p s) := by
  unfold pauseRelease
  split
  · refine Keeps.ite ?_ ?_
    · refine pauseStart_keeps _ _ (sub_of hm rfl) ?_ ?_
      · exact h
      · intro q9 q10
        refine pauseZero_keeps _ (sub_of hm rfl) ?_
        exact q10
    · exact h
  · exact h

theorem pauseResend_keeps {m : Nat} {r s : State} (p : Nat) (hm : Sub 274881938474 m) (h : Keeps m r s) :
    Keeps m r (pauseResend p s) := by
  unfold pauseResend
  split
  · refine Keeps.ite ?_ ?_
    · refine pauseStart_keeps _ _ (sub_of hm rfl) ?_ ?_
      · exact h
      · intro q9 q10
        refine sendPause_keeps _ _ (sub_of hm rfl) ?_
        exact q10
    · exact h
  · exact h

theorem pauseSend_keeps {m : Nat} {r s : State} (p : Nat) (hm : Sub 274881938474 m) (h : Keeps m r s) :
    Keeps m r (pauseSend p s) := by
  unfold pauseSend
  split
  · refine Keeps.ite ?_ ?_
    · refine pauseStart_keeps _ _ (sub_of hm rfl) ?_ ?_
      · exact h
      · intro q9 q10
        refine sendPause_keeps _ _ (sub_of hm rfl) ?_
        refine flowOn_keeps _ _ _ (sub_of hm rfl) ?_
        exact q10
    · exact h
  · exact h

theorem execBackoffEnd_keeps {m : Nat} {r s : State} (p : Fin 12) (hm : Sub 274881938474 m) (h : Keeps m r s) :
    KeepsO m r (execBackoffEnd p s) := by
  unfold execBackoffEnd
  extract_lets x6
  refine KeepsO.next ?_
  refine macShow_keeps _ (sub_of hm rfl) ?_
  refine setMac_keeps _ _ (sub_of hm rfl) ?_
  exact h

theorem execBackpressureJam_keeps {m : Nat} {r s : State} (p : Fin 12) (hm : Sub 274881938474 m) (h : Keeps m r s) :
    KeepsO m r (execBackpressureJam p s) := by
  unfold execBackpressureJam
  refine KeepsO.next ?_
  refine backpressure_keeps _ (sub_of hm rfl) ?_
  exact h

theorem execCfgEnd_keeps {m : Nat} {r s : State} (src : Fin 24) (hm : Sub 274881938538 m) (h : Keeps m r s) :
    KeepsO m r (execCfgEnd src s) := by
  unfold execCfgEnd
  refine KeepsO.next ?_
  refine Keeps.ite ?_ ?_
  · refine canCfgEnd_keeps _ (sub_of hm rfl) ?_
    exact h
  · refine macCfgEnd_keeps _ (sub_of hm rfl) ?_
    exact h

theorem execPauseHoldEnd_keeps {m : Nat} {r s : State} (p : Fin 12) (hm : Sub 274881938474 m) (h : Keeps m r s) :
    KeepsO m r (execPauseHoldEnd p s) := by
  unfold execPauseHoldEnd
  extract_lets x6
  refine KeepsO.next ?_
  refine macShow_keeps _ (sub_of hm rfl) ?_
  refine setMac_keeps _ _ (sub_of hm rfl) ?_
  exact h

theorem execPauseReceived_keeps {m : Nat} {r s : State} (p : Fin 12) (quanta : BitVec 16) (hm : Sub 274881938474 m) (h : Keeps m r s) :
    KeepsO m r (execPauseReceived p quanta s) := by
  unfold execPauseReceived
  refine KeepsO.next ?_
  refine pauseArrives_keeps _ _ (sub_of hm rfl) ?_
  exact h

theorem execPauseRelease_keeps {m : Nat} {r s : State} (p : Fin 12) (hm : Sub 274881938474 m) (h : Keeps m r s) :
    KeepsO m r (execPauseRelease p s) := by
  unfold execPauseRelease
  refine KeepsO.next ?_
  refine pauseRelease_keeps _ (sub_of hm rfl) ?_
  exact h

theorem execPauseResend_keeps {m : Nat} {r s : State} (p : Fin 12) (hm : Sub 274881938474 m) (h : Keeps m r s) :
    KeepsO m r (execPauseResend p s) := by
  unfold execPauseResend
  refine KeepsO.next ?_
  refine pauseResend_keeps _ (sub_of hm rfl) ?_
  exact h

theorem execPauseSend_keeps {m : Nat} {r s : State} (p : Fin 12) (hm : Sub 274881938474 m) (h : Keeps m r s) :
    KeepsO m r (execPauseSend p s) := by
  unfold execPauseSend
  refine KeepsO.next ?_
  refine pauseSend_keeps _ (sub_of hm rfl) ?_
  exact h

theorem execT1sFrameReceive_keeps {m : Nat} {r s : State} (p : Fin 12) (bytes : List Byte) (whole : Bool) (late : Bool) (ts : BitVec 64) (hm : Sub 309241676906 m) (h : Keeps m r s) :
    KeepsO m r (execT1sFrameReceive p bytes whole late ts s) := by
  unfold execT1sFrameReceive
  refine KeepsO.next ?_
  refine macReceive_keeps _ _ _ _ _ (sub_of hm rfl) ?_
  exact h

theorem execT1sFrameTransmit_keeps {m : Nat} {r s : State} (p : Fin 12) (res : Fin 3) (defer : Bool) (ts : BitVec 64) (hm : Sub 2473905194090 m) (h : Keeps m r s) :
    KeepsO m r (execT1sFrameTransmit p res defer ts s) := by
  unfold execT1sFrameTransmit
  refine KeepsO.next ?_
  refine macTransmit_keeps _ _ _ _ (sub_of hm rfl) ?_
  exact h

theorem execT1sRxRecordPush_keeps {m : Nat} {r s : State} (p : Fin 12) (hm : Sub 274881938538 m) (h : Keeps m r s) :
    KeepsO m r (execT1sRxRecordPush p s) := by
  unfold execT1sRxRecordPush
  refine KeepsO.next ?_
  refine macFlow_keeps _ (sub_of hm rfl) ?_
  exact h

theorem execT1sTxRecordPop_keeps {m : Nat} {r s : State} (p : Fin 12) (hm : Sub 274881946730 m) (h : Keeps m r s) :
    KeepsO m r (execT1sTxRecordPop p s) := by
  unfold execT1sTxRecordPop
  refine KeepsO.next ?_
  refine macPop_keeps _ (sub_of hm rfl) ?_
  exact h

end Sys2Proof.Machine
end

