-- ==== Sys2Proof/Laws/Start.lean ====
section
/-! SUPPORT. What each function of Machine/Start.lean keeps of the state (Laws/Keeps.lean). -/

namespace Sys2Proof.Machine

theorem optWrite_keeps {m : Nat} {r s : State}  (hm : Sub 256 m) (h : Keeps m r s) :
    Keeps m r (optWrite s) := by
  unfold optWrite
  extract_lets x5 x6
  refine Keeps.upd_feram ?_ (hm 8 rfl) (fun w0 w => (memWf_memPut _ _ _ w.2.2.2.2.1))
  exact h

theorem resetConfig_keeps {m : Nat} {r s : State}  (hm : Sub 6 m) (h : Keeps m r s) :
    Keeps m r (resetConfig s) := by
  unfold resetConfig
  refine Keeps.upd_regs_shadows ?_ (hm 1 rfl) (hm 2 rfl)
  exact h

theorem showGen_keeps {m : Nat} {r s : State} (g : Nat) (hm : Sub 68719476738 m) (h : Keeps m r s) :
    Keeps m r (showGen g s) := by
  unfold showGen
  extract_lets x6 x7 x8 x9
  have h10 : Keeps m r x7 := by
    refine setReg_keeps _ _ (sub_of hm rfl) ?_
    exact h
  clear_value x7
  have h11 : Keeps m r x8 := by
    refine setReg_keeps _ _ (sub_of hm rfl) ?_
    refine setReg_keeps _ _ (sub_of hm rfl) ?_
    exact h10
  clear_value x8
  refine Keeps.upd_sec ?_ (hm 36 rfl) (fun hl => hl) (fun hr => hr)
  exact h11

theorem freeTime_keeps {m : Nat} {r s : State} (a : Nat) (hi : Nat) (lo : Nat) (hm : Sub 2199023255554 m) (h : Keeps m r s) :
    Keeps m r (freeTime a hi lo s) := by
  unfold freeTime
  extract_lets x8
  have h9 : Keeps m r x8.2 := by
    refine free_keeps (sub_of hm rfl) ?_
    exact h
  clear_value x8
  refine setRf_keeps _ _ _ _ (sub_of hm rfl) ?_
  exact h9

theorem setPhase_keeps {m : Nat} {r s : State} (n : Nat) (hm : Sub 132106 m) (h : Keeps m r s) :
    Keeps m r (setPhase n s) := by
  unfold setPhase
  extract_lets x6
  have h7 : Keeps m r x6 := by
    refine setRf_keeps _ _ _ _ (sub_of hm rfl) ?_
    exact h
  clear_value x6
  refine Keeps.ite ?_ ?_
  · exact h7
  · refine refresh_keeps _ (sub_of hm rfl) ?_
    exact h7

theorem showStagger_keeps {m : Nat} {r s : State}  (hm : Sub 8589934594 m) (h : Keeps m r s) :
    Keeps m r (showStagger s) := by
  unfold showStagger
  extract_lets x5 x6 x7
  have h8 : Keeps m r x6 := by
    refine setReg_keeps _ _ (sub_of hm rfl) ?_
    refine setReg_keeps _ _ (sub_of hm rfl) ?_
    exact h
  clear_value x6
  refine Keeps.upd_boot ?_ (hm 33 rfl)
  exact h8

theorem enterDiscovery_keeps {m : Nat} {r s : State}  (hm : Sub 137443017770 m) (h : Keeps m r s) :
    Keeps m r (enterDiscovery s) := by
  unfold enterDiscovery
  refine setPhase_keeps _ (sub_of hm rfl) ?_
  refine linksStart_keeps (sub_of hm rfl) ?_
  refine timeShow_keeps (sub_of hm rfl) ?_
  exact h

theorem cfgEnd_keeps {m : Nat} {r s : State} (g : Nat) (migrates : Bool) (hm : Sub 3564826919994 m) (h : Keeps m r s) :
    Keeps m r (cfgEnd g migrates s) := by
  unfold cfgEnd
  extract_lets x7 x8 x9 x10 x11
  have h12 : Keeps m r x7 := by
    refine rtcReadBytes_keeps (sub_of hm rfl) ?_
    refine mtrRestore_keeps (sub_of hm rfl) ?_
    refine ctlStart_keeps (sub_of hm rfl) ?_
    refine startPoints_keeps (sub_of hm rfl) ?_
    exact h
  clear_value x7
  have h13 : Keeps m r x8 := by
    refine Keeps.ite ?_ ?_
    · refine holdupEval_keeps (sub_of hm rfl) ?_
      exact h12
    · exact h12
  clear_value x8
  have h14 : Keeps m r x9 := by
    refine showStagger_keeps (sub_of hm rfl) ?_
    refine showGen_keeps _ (sub_of hm rfl) ?_
    refine setRf_keeps _ _ _ _ (sub_of hm rfl) ?_
    exact h13
  clear_value x9
  have h15 : Keeps m r x10 := by
    refine freeTime_keeps _ _ _ (sub_of hm rfl) ?_
    exact h14
  clear_value x10
  refine Keeps.ite ?_ ?_
  · refine setPhase_keeps _ (sub_of hm rfl) ?_
    refine Keeps.upd_boot ?_ (hm 33 rfl)
    exact h15
  · refine enterDiscovery_keeps (sub_of hm rfl) ?_
    exact h15

theorem dropSlot_keeps {m : Nat} {r s : State} (slot : Nat) (code : Nat) (detail : Nat) (hm : Sub 77311247650 m) (h : Keeps m r s) :
    Keeps m r (dropSlot slot code detail s) := by
  unfold dropSlot
  extract_lets x8 x9
  have h10 : Keeps m r x8 := by
    refine slotFail_keeps _ _ (sub_of hm rfl) ?_
    refine refuseSlot_keeps _ _ _ (sub_of hm rfl) ?_
    exact h
  clear_value x8
  refine Keeps.upd_boot ?_ (hm 33 rfl)
  exact h10

theorem cfgRefuse_keeps {m : Nat} {r s : State} (code : Nat) (detail : Nat) (hm : Sub 77311382826 m) (h : Keeps m r s) :
    Keeps m r (cfgRefuse code detail s) := by
  unfold cfgRefuse
  extract_lets x7 x8 x9
  have h10 : Keeps m r x8 := by
    refine dropSlot_keeps _ _ _ (sub_of hm rfl) ?_
    exact h
  clear_value x8
  refine setPhase_keeps _ (sub_of hm rfl) ?_
  refine setRb_keeps _ _ _ (sub_of hm rfl) ?_
  refine Keeps.upd_image ?_ (hm 12 rfl)
  exact h10

theorem applyGen_keeps {m : Nat} {r s : State}  (hm : Sub 3564826924350 m) (h : Keeps m r s) :
    Keeps m r (applyGen s) := by
  unfold applyGen
  extract_lets x5
  split
  · refine cfgRefuse_keeps _ _ (sub_of hm rfl) ?_
    exact h
  · extract_lets x10 x11
    have h12 : Keeps m r x11 := by
      refine applyRecords_keeps _ _ (sub_of hm rfl) ?_
      refine schedShow_keeps (sub_of hm rfl) ?_
      refine loadData0_keeps _ (sub_of hm rfl) ?_
      refine resetConfig_keeps (sub_of hm rfl) ?_
      exact h
    clear_value x11
    split
    · refine cfgRefuse_keeps _ _ (sub_of hm rfl) ?_
      exact h
    · split
      · refine cfgRefuse_keeps _ _ (sub_of hm rfl) ?_
        exact h
      · split
        · refine cfgRefuse_keeps _ _ (sub_of hm rfl) ?_
          exact h12
        · refine cfgEnd_keeps _ _ (sub_of hm rfl) ?_
          exact h12

theorem attention_keeps {m : Nat} {r s : State} (blocks : List Nat) (hm : Sub 4194306 m) (h : Keeps m r s) :
    Keeps m r (attention blocks s) := by
  unfold attention
  extract_lets x6 x7
  have h8 : Keeps m r x7 := by
    refine setReg_keeps _ _ (sub_of hm rfl) ?_
    exact h
  clear_value x7
  refine Keeps.upd_hattn ?_ (hm 22 rfl)
  exact h8

theorem bucketsFull_keeps {m : Nat} {r s : State}  (hm : Sub 2 m) (h : Keeps m r s) :
    Keeps m r (bucketsFull s) := by
  unfold bucketsFull
  refine Keeps.foldl _ _ (fun s5 a5 h5 => ?_) _ ?_
  · refine setLedger_keeps _ _ _ (sub_of hm rfl) ?_
    exact h5
  · exact h

theorem configApplication_keeps {m : Nat} {r s : State}  (hm : Sub 3564826924862 m) (h : Keeps m r s) :
    Keeps m r (configApplication s) := by
  unfold configApplication
  refine Keeps.ite ?_ ?_
  · refine applyGen_keeps (sub_of hm rfl) ?_
    refine completeBuild_keeps (sub_of hm rfl) ?_
    exact h
  · exact h

theorem confirmAll_keeps {m : Nat} {r s : State}  (hm : Sub 68719476992 m) (h : Keeps m r s) :
    Keeps m r (confirmAll s) := by
  unfold confirmAll
  extract_lets x5
  refine Keeps.ite ?_ ?_
  · exact h
  · refine putRecord_keeps _ (sub_of hm rfl) ?_
    exact h

theorem coreReset_keeps {m : Nat} {r s : State} (warm : Bool) (hm : Sub 2198962699486 m) (h : Keeps m r s) :
    Keeps m r (coreReset warm s) := by
  unfold coreReset
  refine setReg_keeps _ _ (sub_of hm rfl) ?_
  exact { pending := h.pending, regs := fun b => off (hm 1 rfl) b, shadows := fun b => off (hm 2 rfl) b, mirror := fun b => off (hm 3 rfl) b, data := fun b => off (hm 4 rfl) b, logm := fun b => h.logm b, quem := fun b => off (hm 6 rfl) b, code := fun b => off (hm 7 rfl) b, feram := fun b => h.feram b, store := fun b => h.store b, ecc := fun b => off (hm 10 rfl) b, eng := fun b => off (hm 11 rfl) b, image := fun b => off (hm 12 rfl) b, qrd := fun b => off (hm 13 rfl) b, qcell := fun b => off (hm 14 rfl) b, ports := fun b => off (hm 15 rfl) b, xcnt := fun b => off (hm 16 rfl) b, host := fun b => off (hm 17 rfl) b, logNext := fun b => h.logNext b, logCompl := fun b => h.logCompl b, logCount := fun b => h.logCount b, logged := fun b => off (hm 21 rfl) b, hattn := fun b => off (hm 22 rfl) b, opUs := fun b => h.opUs b, pwrCyc := fun b => h.pwrCyc b, fabTime := fun b => h.fabTime b, hamper := fun b => off (hm 26 rfl) b, di := fun b => off (hm 27 rfl) b, dout := fun b => off (hm 28 rfl) b, ao := fun b => off (hm 29 rfl) b, supply := fun b => off (hm 30 rfl) b, stime := fun b => off (hm 31 rfl) b, pair := fun b => off (hm 32 rfl) b, boot := fun b => off (hm 33 rfl) b, mtr := fun b => off (hm 34 rfl) b, ctl := fun b => off (hm 35 rfl) b, sec := fun b => off (hm 36 rfl) b, fab := fun b => off (hm 37 rfl) b, bus := fun b => off (hm 38 rfl) b, lcd := fun b => off (hm 39 rfl) b, rtc := fun b => off (hm 40 rfl) b, freeCtr := fun b => h.freeCtr b,
          memOk := fun w => ⟨memWf_nil, (h.memOk w).2.1, memWf_nil, memWf_nil, (h.memOk w).2.2.2.2.1, (h.memOk w).2.2.2.2.2⟩,
          logLe := h.logLe, lcn := h.lcn, retired := h.retired }

theorem releaseHooks_keeps {m : Nat} {r s : State}  (hm : Sub 1980050965546 m) (h : Keeps m r s) :
    Keeps m r (releaseHooks s) := by
  unfold releaseHooks
  extract_lets x5 x6 x7
  have h8 : Keeps m r x5 := by
    refine rtcCommitted_keeps (sub_of hm rfl) ?_
    refine parRelease_keeps (sub_of hm rfl) ?_
    refine mtrRelease_keeps (sub_of hm rfl) ?_
    exact h
  clear_value x5
  refine Keeps.upd_bus_lcd ?_ (hm 38 rfl) (hm 39 rfl)
  exact h8

theorem releaseEngine_keeps {m : Nat} {r s : State}  (hm : Sub 2336499698730 m) (h : Keeps m r s) :
    Keeps m r (releaseEngine s) := by
  unfold releaseEngine
  extract_lets x5 x6 x7 x8 x9 x10 x11 x12
  have h13 : Keeps m r x5.2 := by
    refine free_keeps (sub_of hm rfl) ?_
    exact h
  clear_value x5
  have h14 : Keeps m r x6 := by
    subst x6
    exact h13
  clear_value x6
  have h15 : Keeps m r x10 := by
    refine Keeps.upd_eng_fabTime ?_ (hm 11 rfl) (hm 25 rfl)
    exact h14
  clear_value x10
  have h16 : Keeps m r x11 := by
    refine setRb_keeps _ _ _ (sub_of hm rfl) ?_
    refine setRb_keeps _ _ _ (sub_of hm rfl) ?_
    refine setReg_keeps _ _ (sub_of hm rfl) ?_
    exact h15
  clear_value x11
  have h17 : Keeps m r x12 := by
    refine Keeps.ite ?_ ?_
    · refine addReg_keeps _ _ (sub_of hm rfl) ?_
      exact h16
    · exact h16
  clear_value x12
  refine Keeps.ite ?_ ?_
  · exact h17
  · refine Keeps.ite ?_ ?_
    · refine timeBit_keeps _ _ (sub_of hm rfl) ?_
      exact h17
    · refine holdover_keeps (sub_of hm rfl) ?_
      exact h17

theorem permitOut_keeps {m : Nat} {r s : State}  (hm : Sub 2199025222698 m) (h : Keeps m r s) :
    Keeps m r (permitOut s) := by
  unfold permitOut
  extract_lets x5
  have h6 : Keeps m r x5 := by
    refine freeTime_keeps _ _ _ (sub_of hm rfl) ?_
    refine setRb_keeps _ _ _ (sub_of hm rfl) ?_
    refine setPhase_keeps _ (sub_of hm rfl) ?_
    exact h
  clear_value x5
  refine append_keeps _ _ _ _ (sub_of hm rfl) ?_
  exact h6

theorem engineRelease_keeps {m : Nat} {r s : State}  (hm : Sub 4316546862122 m) (h : Keeps m r s) :
    Keeps m r (engineRelease s) := by
  unfold engineRelease
  extract_lets x5 x6
  have h7 : Keeps m r x5 := by
    refine freeTime_keeps _ _ _ (sub_of hm rfl) ?_
    refine gateEdge_keeps _ (sub_of hm rfl) ?_
    refine releaseHooks_keeps (sub_of hm rfl) ?_
    refine releaseEngine_keeps (sub_of hm rfl) ?_
    exact h
  clear_value x5
  have h8 : Keeps m r x6 := by
    refine bucketsFull_keeps (sub_of hm rfl) ?_
    exact h7
  clear_value x6
  refine Keeps.ite ?_ ?_
  · refine Keeps.ite ?_ ?_
    · refine Keeps.ite ?_ ?_
      · refine permitOut_keeps (sub_of hm rfl) ?_
        exact h8
      · exact h8
    · refine setPhase_keeps _ (sub_of hm rfl) ?_
      refine setRf_keeps _ _ _ _ (sub_of hm rfl) ?_
      refine setRb_keeps _ _ _ (sub_of hm rfl) ?_
      exact h7
  · exact h

theorem fieldPower_keeps {m : Nat} {r s : State}  (hm : Sub 2080374786 m) (h : Keeps m r s) :
    Keeps m r (fieldPower s) := by
  unfold fieldPower
  extract_lets x5 x6
  have h7 : Keeps m r x6 := by
    refine setRf_keeps _ _ _ _ (sub_of hm rfl) ?_
    refine powerIsland_keeps _ (sub_of hm rfl) ?_
    exact h
  clear_value x6
  refine Keeps.ite ?_ ?_
  · refine Keeps.ite ?_ ?_
    · refine groupClear_keeps _ (sub_of hm rfl) ?_
      exact h7
    · exact h7
  · exact h

theorem slotStarts_keeps {m : Nat} {r s : State} (slot : Nat) (hm : Sub 68723410210 m) (h : Keeps m r s) :
    Keeps m r (slotStarts slot s) := by
  unfold slotStarts
  extract_lets x6 x7 x8
  refine Keeps.ite ?_ ?_
  · refine confirmAll_keeps (sub_of hm rfl) ?_
    exact h
  · refine Keeps.ite ?_ ?_
    · refine secRecLog_keeps _ _ _ _ (sub_of hm rfl) ?_
      refine secEvt_keeps _ (sub_of hm rfl) ?_
      refine setRb_keeps _ _ _ (sub_of hm rfl) ?_
      refine putRecord_keeps _ (sub_of hm rfl) ?_
      exact h
    · refine Keeps.ite ?_ ?_
      · refine setRb_keeps _ _ _ (sub_of hm rfl) ?_
        exact h
      · refine Keeps.ite ?_ ?_
        · refine secRecLog_keeps _ _ _ _ (sub_of hm rfl) ?_
          refine secEvt_keeps _ (sub_of hm rfl) ?_
          exact h
        · exact h

theorem takeImage_keeps {m : Nat} {r s : State} (slot : Nat) (hm : Sub 68723414434 m) (h : Keeps m r s) :
    Keeps m r (takeImage slot s) := by
  unfold takeImage
  extract_lets x6 x7
  have h8 : Keeps m r x6 := by
    refine slotStarts_keeps _ (sub_of hm rfl) ?_
    refine loadImage_keeps _ (sub_of hm rfl) ?_
    exact h
  clear_value x6
  refine setReg_keeps _ _ (sub_of hm rfl) ?_
  refine setReg_keeps _ _ (sub_of hm rfl) ?_
  refine setReg_keeps _ _ (sub_of hm rfl) ?_
  exact h8

theorem trySlot_keeps {m : Nat} {r s : State} (slot : Nat) (hm : Sub 77313480106 m) (h : Keeps m r s) :
    Keeps m r (trySlot slot s) := by
  unfold trySlot
  extract_lets x6 x7 x8 x9
  have h10 : Keeps m r x8 := by
    refine Keeps.ite ?_ ?_
    · refine putRecord_keeps _ (sub_of hm rfl) ?_
      exact h
    · exact h
  clear_value x8
  split
  · refine setPhase_keeps _ (sub_of hm rfl) ?_
    refine takeImage_keeps _ (sub_of hm rfl) ?_
    simp -zeta only [x9]
    extract_lets x13
    refine Keeps.upd_sec ?_ (hm 36 rfl) (fun hl => hl) (fun hr => hr)
    exact h10
  · refine dropSlot_keeps _ _ _ (sub_of hm rfl) ?_
    refine Keeps.ite ?_ ?_
    · simp -zeta only [x9]
      extract_lets x15
      refine Keeps.upd_sec ?_ (hm 36 rfl) (fun hl => hl) (fun hr => hr)
      exact h10
    · exact h10

theorem tryAll_keeps {m : Nat} {r s : State} (x0 : Nat) (hm : Sub 77313480106 m) (h : Keeps m r s) :
    Keeps m r (tryAll x0 s) := by
  induction x0 generalizing s with | zero => ?_ | succ k ih => ?_
  · simp -zeta only [tryAll]
    exact h
  · simp -zeta only [tryAll]
    split
    · exact h
    · extract_lets x10 x11
      have h12 : Keeps m r x11 := by
        refine trySlot_keeps _ (sub_of hm rfl) ?_
        exact h
      clear_value x11
      refine Keeps.ite ?_ ?_
      · refine ih ?_
        refine slotFail_keeps _ _ (sub_of hm rfl) ?_
        exact h
      · refine Keeps.ite ?_ ?_
        · exact h12
        · refine ih ?_
          exact h12

theorem imageChecks_keeps {m : Nat} {r s : State}  (hm : Sub 77313480106 m) (h : Keeps m r s) :
    Keeps m r (imageChecks s) := by
  unfold imageChecks
  refine Keeps.ite ?_ ?_
  · refine secShow_keeps (sub_of hm rfl) ?_
    refine tryAll_keeps _ (sub_of hm rfl) ?_
    exact h
  · exact h

theorem logReason_keeps {m : Nat} {r s : State}  (hm : Sub 2 m) (h : Keeps m r s) :
    Keeps m r (logReason s).2 := by
  unfold logReason
  extract_lets x5
  have h6 : Keeps m r x5.2 := by
    refine readLog_keeps _ (sub_of hm rfl) ?_
    exact h
  clear_value x5
  refine Keeps.ite2 ?_ ?_
  · refine Keeps.mk2 ?_
    exact h
  · refine Keeps.ite2 ?_ ?_
    · refine Keeps.mk2 ?_
      exact h
    · refine Keeps.ite2 ?_ ?_
      · refine Keeps.mk2 ?_
        exact h
      · refine Keeps.mk2 ?_
        exact h6

theorem logDecide_keeps {m : Nat} {r s : State}  (hm : Sub 1836066 m) (h : Keeps m r s) :
    Keeps m r (logDecide s) := by
  unfold logDecide
  extract_lets x5 x6
  have h7 : Keeps m r x5.2 := by
    refine logReason_keeps (sub_of hm rfl) ?_
    exact h
  clear_value x5
  have h8 : Keeps m r x6 := by
    subst x6
    exact h7
  clear_value x6
  split
  · refine setRb_keeps _ _ _ (sub_of hm rfl) ?_
    refine setRb_keeps _ _ _ (sub_of hm rfl) ?_
    exact h8
  · refine append_keeps _ _ _ _ (sub_of hm rfl) ?_
    refine Keeps.upd_logm_ecc_logNext_logCompl_logCount ?_ (hm 5 rfl) (hm 10 rfl) (hm 18 rfl) (hm 19 rfl) (hm 20 rfl) (fun w0 w => memWf_nil) ?_
    · exact h8
    · exact fun _ => by omega

theorem migrated_keeps {m : Nat} {r s : State} (src : Nat) (hm : Sub 2267744568866 m) (h : Keeps m r s) :
    Keeps m r (migrated src s) := by
  unfold migrated
  extract_lets x6 x7 x8 x9 x10 x11 x12 x13
  have h14 : Keeps m r x10.2 := by
    refine signedGen_keeps _ _ _ (sub_of hm rfl) ?_
    exact h
  clear_value x10
  have h15 : Keeps m r x11 := by
    subst x11
    exact h14
  clear_value x11
  have h16 : Keeps m r x12 := by
    refine Keeps.upd_store ?_ (hm 9 rfl) (fun w0 w => (memWf_memPut _ _ _ (memWf_memZero _ _ _ (h14.memOk w0).2.2.2.2.2)))
    exact h15
  clear_value x12
  have h17 : Keeps m r x13 := by
    refine setRb_keeps _ _ _ (sub_of hm rfl) ?_
    refine showGen_keeps _ (sub_of hm rfl) ?_
    exact h16
  clear_value x13
  refine append_keeps _ _ _ _ (sub_of hm rfl) ?_
  exact h17

theorem migrate_keeps {m : Nat} {r s : State} (ok : Bool) (hm : Sub 2413775689514 m) (h : Keeps m r s) :
    Keeps m r (migrate ok s) := by
  unfold migrate
  extract_lets x6 x7
  have h8 : Keeps m r x7 := by
    refine Keeps.upd_boot ?_ (hm 33 rfl)
    exact h
  clear_value x7
  split
  · refine Keeps.ite ?_ ?_
    · exact h
    · refine Keeps.ite ?_ ?_
      · refine enterDiscovery_keeps (sub_of hm rfl) ?_
        refine migrated_keeps _ (sub_of hm rfl) ?_
        exact h8
      · refine cfgRefuse_keeps _ _ (sub_of hm rfl) ?_
        exact h8
  · exact h

theorem optRestore_keeps {m : Nat} {r s : State}  (hm : Sub 25166080 m) (h : Keeps m r s) :
    Keeps m r (optRestore s) := by
  unfold optRestore
  extract_lets x5
  have h6 : Keeps m r x5 := by
    subst x5
    split
    · refine Keeps.upd_opUs_pwrCyc ?_ (hm 23 rfl) (hm 24 rfl)
      exact h
    · refine Keeps.upd_opUs_pwrCyc ?_ (hm 23 rfl) (hm 24 rfl)
      exact h
  clear_value x5
  refine Keeps.ite ?_ ?_
  · exact h6
  · refine optWrite_keeps (sub_of hm rfl) ?_
    refine Keeps.upd_pwrCyc ?_ (hm 24 rfl)
    exact h6

theorem outPermit_keeps {m : Nat} {r s : State}  (hm : Sub 2199025222698 m) (h : Keeps m r s) :
    Keeps m r (outPermit s) := by
  unfold outPermit
  refine Keeps.ite ?_ ?_
  · refine permitOut_keeps (sub_of hm rfl) ?_
    exact h
  · exact h

theorem startAt_keeps {m : Nat} {r s : State} (cause : Nat) (warm : Bool) (hm : Sub 2198962699486 m) (h : Keeps m r s) :
    Keeps m r (startAt cause warm s) := by
  unfold startAt
  extract_lets x7 x8
  have h9 : Keeps m r x7 := by
    refine setRb_keeps _ _ _ (sub_of hm rfl) ?_
    refine setReg_keeps _ _ (sub_of hm rfl) ?_
    refine coreReset_keeps _ (sub_of hm rfl) ?_
    exact h
  clear_value x7
  have h10 : Keeps m r x8 := by
    refine Keeps.ite ?_ ?_
    · refine setRb_keeps _ _ _ (sub_of hm rfl) ?_
      exact h9
    · refine setRb_keeps _ _ _ (sub_of hm rfl) ?_
      exact h9
  clear_value x8
  refine setReg_keeps _ _ (sub_of hm rfl) ?_
  exact h10

theorem powerOnStart_keeps {m : Nat} {r s : State}  (hm : Sub 2198962699486 m) (h : Keeps m r s) :
    Keeps m r (powerOnStart s) := by
  unfold powerOnStart
  refine Keeps.ite ?_ ?_
  · refine startAt_keeps _ _ (sub_of hm rfl) ?_
    exact h
  · exact h

theorem progHold_keeps {m : Nat} {r s : State}  (hm : Sub 2198962699486 m) (h : Keeps m r s) :
    Keeps m r (progHold s) := by
  unfold progHold
  extract_lets x5 x6
  have h7 : Keeps m r x5 := by
    refine coreReset_keeps _ (sub_of hm rfl) ?_
    exact h
  clear_value x5
  refine Keeps.upd_boot ?_ (hm 33 rfl)
  exact h7

theorem progRelease_keeps {m : Nat} {r s : State}  (hm : Sub 2198962699486 m) (h : Keeps m r s) :
    Keeps m r (progRelease s) := by
  unfold progRelease
  extract_lets x5
  refine Keeps.ite ?_ ?_
  · refine powerOnStart_keeps (sub_of hm rfl) ?_
    refine Keeps.upd_boot ?_ (hm 33 rfl)
    exact h
  · exact h

theorem returnStart_keeps {m : Nat} {r s : State}  (hm : Sub 2198962699486 m) (h : Keeps m r s) :
    Keeps m r (returnStart s) := by
  unfold returnStart
  refine Keeps.ite ?_ ?_
  · refine startAt_keeps _ _ (sub_of hm rfl) ?_
    exact h
  · exact h

theorem romMirrorRefresh_keeps {m : Nat} {r s : State}  (hm : Sub 132104 m) (h : Keeps m r s) :
    Keeps m r (romMirrorRefresh s) := by
  unfold romMirrorRefresh
  refine Keeps.ite ?_ ?_
  · refine refresh_keeps _ (sub_of hm rfl) ?_
    exact h
  · exact h

theorem romPhase_keeps {m : Nat} {r s : State} (strap : Bool) (hm : Sub 2276395451690 m) (h : Keeps m r s) :
    Keeps m r (romPhase strap s) := by
  unfold romPhase
  extract_lets x6 x7 x8 x9 x10 x11 x12 x13 x14 x15
  have h16 : Keeps m r x7 := by
    refine Keeps.upd_boot ?_ (hm 33 rfl)
    exact h
  clear_value x7
  have h17 : Keeps m r x9 := by
    refine logDecide_keeps (sub_of hm rfl) ?_
    refine optRestore_keeps (sub_of hm rfl) ?_
    exact h16
  clear_value x9
  have h18 : Keeps m r x10 := by
    refine Keeps.ite ?_ ?_
    · refine append_keeps _ _ _ _ (sub_of hm rfl) ?_
      exact h17
    · exact h17
  clear_value x10
  have h19 : Keeps m r x11 := by
    refine Keeps.ite ?_ ?_
    · refine setRf_keeps _ _ _ _ (sub_of hm rfl) ?_
      exact h18
    · exact h18
  clear_value x11
  have h20 : Keeps m r x12.2 := by
    refine free_keeps (sub_of hm rfl) ?_
    exact h19
  clear_value x12
  have h21 : Keeps m r x13 := by
    refine rtcPhase0_keeps (sub_of hm rfl) ?_
    refine loadRec_keeps _ (sub_of hm rfl) ?_
    exact h20
  clear_value x13
  have h22 : Keeps m r x14 := by
    refine secShow_keeps (sub_of hm rfl) ?_
    refine Keeps.ite ?_ ?_
    · exact h21
    · refine loadTick_keeps (sub_of hm rfl) ?_
      exact h21
  clear_value x14
  refine Keeps.ite ?_ ?_
  · exact h
  · refine setPhase_keeps _ (sub_of hm rfl) ?_
    refine Keeps.upd_boot ?_ (hm 33 rfl)
    exact h22

theorem sidingState_keeps {m : Nat} {r s : State}  (hm : Sub 216765568318 m) (h : Keeps m r s) :
    Keeps m r (sidingState s) := by
  unfold sidingState
  extract_lets x5 x6 x7 x8 x9 x10
  have h11 : Keeps m r x5 := by
    refine Keeps.ite ?_ ?_
    · refine confirmAll_keeps (sub_of hm rfl) ?_
      exact h
    · exact h
  clear_value x5
  have h12 : Keeps m r x9 := by
    refine setRf_keeps _ _ _ _ (sub_of hm rfl) ?_
    refine resetConfig_keeps (sub_of hm rfl) ?_
    refine Keeps.upd_image_boot ?_ (hm 12 rfl) (hm 33 rfl)
    exact h11
  clear_value x9
  have h13 : Keeps m r x10 := by
    refine applyRecords_keeps _ _ (sub_of hm rfl) ?_
    refine setRf_keeps _ _ _ _ (sub_of hm rfl) ?_
    refine unpowerIslands_keeps (sub_of hm rfl) ?_
    exact h12
  clear_value x10
  refine secShow_keeps (sub_of hm rfl) ?_
  refine linksStart_keeps (sub_of hm rfl) ?_
  refine timeShow_keeps (sub_of hm rfl) ?_
  exact h13

theorem sidingEntry_keeps {m : Nat} {r s : State}  (hm : Sub 216765699390 m) (h : Keeps m r s) :
    Keeps m r (sidingEntry s) := by
  unfold sidingEntry
  refine Keeps.ite ?_ ?_
  · exact h
  · split
    · exact h
    · extract_lets x8
      have h9 : Keeps m r x8 := by
        refine Keeps.ite ?_ ?_
        · refine append_keeps _ _ _ _ (sub_of hm rfl) ?_
          exact h
        · exact h
      clear_value x8
      refine setPhase_keeps _ (sub_of hm rfl) ?_
      refine secRecLog_keeps _ _ _ _ (sub_of hm rfl) ?_
      refine sidingState_keeps (sub_of hm rfl) ?_
      exact h9

theorem sidingPoll_keeps {m : Nat} {r s : State} (strap : Bool) (hm : Sub 2198962699486 m) (h : Keeps m r s) :
    Keeps m r (sidingPoll strap s) := by
  unfold sidingPoll
  extract_lets x6 x7
  have h8 : Keeps m r x7 := by
    refine secShow_keeps (sub_of hm rfl) ?_
    refine Keeps.upd_boot ?_ (hm 33 rfl)
    exact h
  clear_value x7
  refine Keeps.ite ?_ ?_
  · exact h
  · refine Keeps.ite ?_ ?_
    · refine startAt_keeps _ _ (sub_of hm rfl) ?_
      exact h8
    · exact h8

theorem sidingRefresh_keeps {m : Nat} {r s : State}  (hm : Sub 2413779879722 m) (h : Keeps m r s) :
    Keeps m r (sidingRefresh s) := by
  unfold sidingRefresh
  refine Keeps.ite ?_ ?_
  · refine refresh_keeps _ (sub_of hm rfl) ?_
    refine attention_keeps _ (sub_of hm rfl) ?_
    refine secServe_keeps (sub_of hm rfl) ?_
    exact h
  · exact h

theorem staggerEnd_keeps {m : Nat} {r s : State}  (hm : Sub 8593998890 m) (h : Keeps m r s) :
    Keeps m r (staggerEnd s) := by
  unfold staggerEnd
  extract_lets x5 x6
  have h7 : Keeps m r x5 := by
    refine setPhase_keeps _ (sub_of hm rfl) ?_
    refine setRb_keeps _ _ _ (sub_of hm rfl) ?_
    exact h
  clear_value x5
  refine Keeps.ite ?_ ?_
  · refine pwrRec_keeps _ _ _ (sub_of hm rfl) ?_
    refine Keeps.upd_boot ?_ (hm 33 rfl)
    exact h7
  · exact h

theorem startAbandon_keeps {m : Nat} {r s : State}  (hm : Sub 8591901738 m) (h : Keeps m r s) :
    Keeps m r (startAbandon s) := by
  unfold startAbandon
  extract_lets x5 x6
  have h7 : Keeps m r x5 := by
    refine append_keeps _ _ _ _ (sub_of hm rfl) ?_
    exact h
  clear_value x5
  refine Keeps.ite ?_ ?_
  · exact h
  · refine setPhase_keeps _ (sub_of hm rfl) ?_
    refine Keeps.upd_boot ?_ (hm 33 rfl)
    exact h7

theorem supplyValid_keeps {m : Nat} {r s : State}  (hm : Sub 8657043458 m) (h : Keeps m r s) :
    Keeps m r (supplyValid s) := by
  unfold supplyValid
  extract_lets x5 x6
  refine Keeps.ite ?_ ?_
  · refine setRb_keeps _ _ _ (sub_of hm rfl) ?_
    refine Keeps.upd_hamper_boot ?_ (hm 26 rfl) (hm 33 rfl)
    exact h
  · exact h

theorem warmStart_keeps {m : Nat} {r s : State}  (hm : Sub 2198962699486 m) (h : Keeps m r s) :
    Keeps m r (warmStart s) := by
  unfold warmStart
  split
  · refine Keeps.ite ?_ ?_
    · exact h
    · refine startAt_keeps _ _ (sub_of hm rfl) ?_
      exact h
  · exact h

theorem execConfigApplication_keeps {m : Nat} {r s : State}  (hm : Sub 3564826924862 m) (h : Keeps m r s) :
    KeepsO m r (execConfigApplication s) := by
  unfold execConfigApplication
  refine KeepsO.next ?_
  refine configApplication_keeps (sub_of hm rfl) ?_
  exact h

theorem execDiscoveryEnd_keeps {m : Nat} {r s : State}  (hm : Sub 8589934592 m) (h : Keeps m r s) :
    KeepsO m r (execDiscoveryEnd s) := by
  unfold execDiscoveryEnd
  extract_lets x5
  refine KeepsO.next ?_
  refine Keeps.ite ?_ ?_
  · refine Keeps.upd_boot ?_ (hm 33 rfl)
    exact h
  · exact h

theorem execEngineRelease_keeps {m : Nat} {r s : State}  (hm : Sub 4316546862122 m) (h : Keeps m r s) :
    KeepsO m r (execEngineRelease s) := by
  unfold execEngineRelease
  refine KeepsO.next ?_
  refine engineRelease_keeps (sub_of hm rfl) ?_
  exact h

theorem execFieldIslandPowerUp_keeps {m : Nat} {r s : State}  (hm : Sub 2080374786 m) (h : Keeps m r s) :
    KeepsO m r (execFieldIslandPowerUp s) := by
  unfold execFieldIslandPowerUp
  refine KeepsO.next ?_
  refine fieldPower_keeps (sub_of hm rfl) ?_
  exact h

theorem execImageChecks_keeps {m : Nat} {r s : State}  (hm : Sub 77313480106 m) (h : Keeps m r s) :
    KeepsO m r (execImageChecks s) := by
  unfold execImageChecks
  refine KeepsO.next ?_
  refine imageChecks_keeps (sub_of hm rfl) ?_
  exact h

theorem execMigrate_keeps {m : Nat} {r s : State} (ok : Bool) (hm : Sub 2413775689514 m) (h : Keeps m r s) :
    KeepsO m r (execMigrate ok s) := by
  unfold execMigrate
  refine KeepsO.next ?_
  refine migrate_keeps _ (sub_of hm rfl) ?_
  exact h

theorem execOutPermit_keeps {m : Nat} {r s : State}  (hm : Sub 2199025222698 m) (h : Keeps m r s) :
    KeepsO m r (execOutPermit s) := by
  unfold execOutPermit
  refine KeepsO.next ?_
  refine outPermit_keeps (sub_of hm rfl) ?_
  exact h

theorem execPowerOnStart_keeps {m : Nat} {r s : State}  (hm : Sub 2198962699486 m) (h : Keeps m r s) :
    KeepsO m r (execPowerOnStart s) := by
  unfold execPowerOnStart
  refine KeepsO.next ?_
  refine powerOnStart_keeps (sub_of hm rfl) ?_
  exact h

theorem execProgHold_keeps {m : Nat} {r s : State}  (hm : Sub 2198962699486 m) (h : Keeps m r s) :
    KeepsO m r (execProgHold s) := by
  unfold execProgHold
  refine KeepsO.next ?_
  refine progHold_keeps (sub_of hm rfl) ?_
  exact h

theorem execProgRelease_keeps {m : Nat} {r s : State}  (hm : Sub 2198962699486 m) (h : Keeps m r s) :
    KeepsO m r (execProgRelease s) := by
  unfold execProgRelease
  refine KeepsO.next ?_
  refine progRelease_keeps (sub_of hm rfl) ?_
  exact h

theorem execReturnStart_keeps {m : Nat} {r s : State}  (hm : Sub 2198962699486 m) (h : Keeps m r s) :
    KeepsO m r (execReturnStart s) := by
  unfold execReturnStart
  refine KeepsO.next ?_
  refine returnStart_keeps (sub_of hm rfl) ?_
  exact h

theorem execRomMirrorRefresh_keeps {m : Nat} {r s : State}  (hm : Sub 132104 m) (h : Keeps m r s) :
    KeepsO m r (execRomMirrorRefresh s) := by
  unfold execRomMirrorRefresh
  refine KeepsO.next ?_
  refine romMirrorRefresh_keeps (sub_of hm rfl) ?_
  exact h

theorem execRomPhase_keeps {m : Nat} {r s : State} (strap : Bool) (hm : Sub 2276395451690 m) (h : Keeps m r s) :
    KeepsO m r (execRomPhase strap s) := by
  unfold execRomPhase
  refine KeepsO.next ?_
  refine romPhase_keeps _ (sub_of hm rfl) ?_
  exact h

theorem execSidingModeEntry_keeps {m : Nat} {r s : State}  (hm : Sub 216765699390 m) (h : Keeps m r s) :
    KeepsO m r (execSidingModeEntry s) := by
  unfold execSidingModeEntry
  refine KeepsO.next ?_
  refine sidingEntry_keeps (sub_of hm rfl) ?_
  exact h

theorem execSidingRefresh_keeps {m : Nat} {r s : State}  (hm : Sub 2413779879722 m) (h : Keeps m r s) :
    KeepsO m r (execSidingRefresh s) := by
  unfold execSidingRefresh
  refine KeepsO.next ?_
  refine sidingRefresh_keeps (sub_of hm rfl) ?_
  exact h

theorem execSidingStrapPoll_keeps {m : Nat} {r s : State} (strap : Bool) (hm : Sub 2198962699486 m) (h : Keeps m r s) :
    KeepsO m r (execSidingStrapPoll strap s) := by
  unfold execSidingStrapPoll
  refine KeepsO.next ?_
  refine sidingPoll_keeps _ (sub_of hm rfl) ?_
  exact h

theorem execStaggerEnd_keeps {m : Nat} {r s : State}  (hm : Sub 8593998890 m) (h : Keeps m r s) :
    KeepsO m r (execStaggerEnd s) := by
  unfold execStaggerEnd
  refine KeepsO.next ?_
  refine staggerEnd_keeps (sub_of hm rfl) ?_
  exact h

theorem execStartAbandon_keeps {m : Nat} {r s : State}  (hm : Sub 8591901738 m) (h : Keeps m r s) :
    KeepsO m r (execStartAbandon s) := by
  unfold execStartAbandon
  refine KeepsO.next ?_
  refine startAbandon_keeps (sub_of hm rfl) ?_
  exact h

theorem execSupplyValid_keeps {m : Nat} {r s : State}  (hm : Sub 8657043458 m) (h : Keeps m r s) :
    KeepsO m r (execSupplyValid s) := by
  unfold execSupplyValid
  refine KeepsO.next ?_
  refine supplyValid_keeps (sub_of hm rfl) ?_
  exact h

theorem execWarmStart_keeps {m : Nat} {r s : State}  (hm : Sub 2198962699486 m) (h : Keeps m r s) :
    KeepsO m r (execWarmStart s) := by
  unfold execWarmStart
  refine KeepsO.next ?_
  refine warmStart_keeps (sub_of hm rfl) ?_
  exact h

end Sys2Proof.Machine
end

