-- ==== Sys2Proof/Laws/Boundary.lean ====
section
/-! SUPPORT. What each function of Machine/Boundary.lean keeps of the state (Laws/Keeps.lean). -/

namespace Sys2Proof.Machine

theorem newMajor_keeps {m : Nat} {r s : State}  (hm : Sub 69206274 m) (h : Keeps m r s) :
    Keeps m r (newMajor s) := by
  unfold newMajor
  extract_lets x5
  have h6 : Keeps m r x5 := by
    refine addReg_keeps _ _ (sub_of hm rfl) ?_
    exact h
  clear_value x5
  refine optWrite_keeps (sub_of hm rfl) ?_
  refine checkAgeSecond_keeps (sub_of hm rfl) ?_
  refine Keeps.upd_logged ?_ (hm 21 rfl)
  exact h6

theorem advanceM_keeps {m : Nat} {r s : State}  (hm : Sub 111151362 m) (h : Keeps m r s) :
    Keeps m r (advanceM s) := by
  unfold advanceM
  extract_lets x5 x6 x7 x8
  have h9 : Keeps m r x7 := by
    refine Keeps.upd_eng_opUs_fabTime ?_ (hm 11 rfl) (hm 23 rfl) (hm 25 rfl)
    exact h
  clear_value x7
  have h10 : Keeps m r x8 := by
    refine setReg_keeps _ _ (sub_of hm rfl) ?_
    exact h9
  clear_value x8
  refine Keeps.ite ?_ ?_
  · refine newMajor_keeps (sub_of hm rfl) ?_
    exact h10
  · exact h10

theorem applied_keeps {m : Nat} {r s : State} (before : State) (b : Nat) (hm : Sub 1838249935914 m) (h : Keeps m r s) :
    Keeps m r (applied before s b) := by
  unfold applied
  split
  · refine clipBuckets_keeps (sub_of hm rfl) ?_
    exact h
  · refine mtrCommitted_keeps _ (sub_of hm rfl) ?_
    exact h
  · refine ctlCommitted_keeps _ (sub_of hm rfl) ?_
    exact h
  · refine fabCommitted_keeps _ (sub_of hm rfl) ?_
    exact h
  · refine lcdCommitted_keeps (sub_of hm rfl) ?_
    exact h
  · refine rtcCommitted_keeps (sub_of hm rfl) ?_
    exact h
  · exact h

theorem awaitSupply_keeps {m : Nat} {r s : State}  (hm : Sub 8589934594 m) (h : Keeps m r s) :
    Keeps m r (awaitSupply s) := by
  unfold awaitSupply
  extract_lets x5
  refine setRf_keeps _ _ _ _ (sub_of hm rfl) ?_
  refine Keeps.upd_boot ?_ (hm 33 rfl)
  exact h

theorem bankExhausted_keeps {m : Nat} {r s : State}  (hm : Sub 4718594 m) (h : Keeps m r s) :
    Keeps m r (bankExhausted s) := by
  unfold bankExhausted
  extract_lets x5
  have h6 : Keeps m r x5 := by
    refine setReg_keeps _ _ (sub_of hm rfl) ?_
    exact h
  clear_value x5
  refine Keeps.ite ?_ ?_
  · refine Keeps.upd_logCompl_hattn ?_ (hm 19 rfl) (hm 22 rfl)
    exact h6
  · exact h

theorem beginMinor_keeps {m : Nat} {r s : State}  (hm : Sub 2048 m) (h : Keeps m r s) :
    Keeps m r (beginMinor s) := by
  unfold beginMinor
  extract_lets x5
  refine Keeps.upd_eng ?_ (hm 11 rfl)
  exact h

theorem showIdle_keeps {m : Nat} {r s : State}  (hm : Sub 2 m) (h : Keeps m r s) :
    Keeps m r (showIdle s) := by
  unfold showIdle
  extract_lets x5 x6
  have h7 : Keeps m r x6 := by
    refine setReg_keeps _ _ (sub_of hm rfl) ?_
    refine setReg_keeps _ _ (sub_of hm rfl) ?_
    exact h
  clear_value x6
  refine Keeps.ite ?_ ?_
  · refine setReg_keeps _ _ (sub_of hm rfl) ?_
    refine setRf_keeps _ _ _ _ (sub_of hm rfl) ?_
    exact h7
  · exact h7

theorem endMinor_keeps {m : Nat} {r s : State}  (hm : Sub 111151362 m) (h : Keeps m r s) :
    Keeps m r (endMinor s) := by
  unfold endMinor
  extract_lets x5
  refine Keeps.ite ?_ ?_
  · refine Keeps.upd_eng ?_ (hm 11 rfl)
    exact h
  · refine advanceM_keeps (sub_of hm rfl) ?_
    refine showIdle_keeps (sub_of hm rfl) ?_
    refine landEnd_keeps (sub_of hm rfl) ?_
    exact h

theorem tableScan_keeps {m : Nat} {r s : State}  (hm : Sub 3935266 m) (h : Keeps m r s) :
    Keeps m r (tableScan s) := by
  unfold tableScan
  extract_lets x5
  refine Keeps.foldl _ _ (fun s6 a6 h6 => ?_) _ ?_
  · extract_lets x9
    refine Keeps.ite ?_ ?_
    · refine readPath_keeps _ (sub_of hm rfl) ?_
      exact h6
    · exact h6
  · exact h

theorem imagePaths_keeps {m : Nat} {r s : State} (wrapped : Bool) (hm : Sub 3289948991338 m) (h : Keeps m r s) :
    Keeps m r (imagePaths wrapped s) := by
  unfold imagePaths
  refine lcdMinor_keeps (sub_of hm rfl) ?_
  refine meterRun_keeps (sub_of hm rfl) ?_
  refine parcelPump_keeps (sub_of hm rfl) ?_
  refine soutDrain_keeps (sub_of hm rfl) ?_
  refine jobRun_keeps (sub_of hm rfl) ?_
  refine secServe_keeps (sub_of hm rfl) ?_
  refine fabBoundary_keeps _ (sub_of hm rfl) ?_
  refine serviceTurns_keeps (sub_of hm rfl) ?_
  exact h

theorem keyTakes_keeps {m : Nat} {r s : State}  (hm : Sub 68719476736 m) (h : Keeps m r s) :
    Keeps m r (keyTakes s) := by
  unfold keyTakes
  extract_lets x5
  split
  · refine Keeps.upd_sec ?_ (hm 36 rfl) (fun hl => hl) (fun hr => hr)
    exact h
  · exact h

theorem commitAll_keeps {m : Nat} {r s : State}  (hm : Sub 1838317044778 m) (h : Keeps m r s) :
    Keeps m r (commitAll s) := by
  unfold commitAll
  extract_lets x5
  have h6 : Keeps m r x5 := by
    refine commitWindow_keeps (sub_of hm rfl) ?_
    exact h
  clear_value x5
  refine gateEdge_keeps _ (sub_of hm rfl) ?_
  refine Keeps.foldl _ _ (fun s7 a7 h7 => ?_) _ ?_
  · refine applied_keeps _ _ (sub_of hm rfl) ?_
    exact h7
  · exact h6

theorem idleReport_keeps {m : Nat} {r s : State} (w : Word) (hm : Sub 274881938538 m) (h : Keeps m r s) :
    Keeps m r (idleReport w s) := by
  unfold idleReport
  refine Keeps.ite ?_ ?_
  · refine qPush_keeps _ _ _ (sub_of hm rfl) ?_
    exact h
  · exact h

theorem boundary_keeps {m : Nat} {r s : State}  (hm : Sub 4393868963690 m) (h : Keeps m r s) :
    Keeps m r (boundary s) := by
  unfold boundary
  extract_lets x5 x6 x7 x8 x9 x10 x11 x12 x13
  have h14 : Keeps m r x7 := by
    refine beginMinor_keeps (sub_of hm rfl) ?_
    refine endMinor_keeps (sub_of hm rfl) ?_
    exact h
  clear_value x7
  have h15 : Keeps m r x9 := by
    refine Keeps.ite ?_ ?_
    · exact h14
    · refine parTime_keeps _ (sub_of hm rfl) ?_
      exact h14
  clear_value x9
  have h16 : Keeps m r x10 := by
    refine commitAll_keeps (sub_of hm rfl) ?_
    refine keyTakes_keeps (sub_of hm rfl) ?_
    refine ledgerRefill_keeps (sub_of hm rfl) ?_
    refine tableScan_keeps (sub_of hm rfl) ?_
    exact h15
  clear_value x10
  have h17 : Keeps m r x12 := by
    refine Keeps.ite ?_ ?_
    · exact h16
    · refine Keeps.upd_boot ?_ (hm 33 rfl)
      exact h16
  clear_value x12
  have h18 : Keeps m r x13 := by
    refine refresh_keeps _ (sub_of hm rfl) ?_
    refine attention_keeps _ (sub_of hm rfl) ?_
    exact h17
  clear_value x13
  refine imagePaths_keeps _ (sub_of hm rfl) ?_
  refine Keeps.ite ?_ ?_
  · exact h18
  · refine idleReport_keeps _ (sub_of hm rfl) ?_
    exact h18

theorem islandBoundary_keeps {m : Nat} {r s : State}  (hm : Sub 38767692842 m) (h : Keeps m r s) :
    Keeps m r (islandBoundary s) := by
  unfold islandBoundary
  extract_lets x5 x6
  refine parTime_keeps _ (sub_of hm rfl) ?_
  refine Keeps.upd_eng_opUs_fabTime ?_ (hm 11 rfl) (hm 23 rfl) (hm 25 rfl)
  exact h

theorem leftOutMissed_keeps {m : Nat} {r s : State}  (hm : Sub 3933218 m) (h : Keeps m r s) :
    Keeps m r (leftOutMissed s) := by
  unfold leftOutMissed
  refine Keeps.ite ?_ ?_
  · refine Keeps.foldl _ _ (fun s5 a5 h5 => ?_) _ ?_
    · refine commitMissed_keeps _ _ (sub_of hm rfl) ?_
      exact h5
    · exact h
  · exact h

theorem lastTrainEnd_keeps {m : Nat} {r s : State}  (hm : Sub 8593869858 m) (h : Keeps m r s) :
    Keeps m r (lastTrainEnd s) := by
  unfold lastTrainEnd
  extract_lets x5
  have h6 : Keeps m r x5 := by
    refine setRb_keeps _ _ _ (sub_of hm rfl) ?_
    refine leftOutMissed_keeps (sub_of hm rfl) ?_
    refine landEnd_keeps (sub_of hm rfl) ?_
    exact h
  clear_value x5
  refine Keeps.ite ?_ ?_
  · refine Keeps.ite ?_ ?_
    · exact h6
    · refine awaitSupply_keeps (sub_of hm rfl) ?_
      exact h6
  · exact h

theorem lastTrainPath_keeps {m : Nat} {r s : State} (p : Nat) (hm : Sub 3935266 m) (h : Keeps m r s) :
    Keeps m r (lastTrainPath p s) := by
  unfold lastTrainPath
  refine Keeps.ite ?_ ?_
  · exact h
  · split
    · rename_i y9 y10 y11
      have k9 : Keeps m r y10 := by
        refine Keeps.of_pair y11 ?_
        refine readPath_keeps _ (sub_of hm rfl) ?_
        exact h
      refine commitMissed_keeps _ _ (sub_of hm rfl) ?_
      exact k9
    · rename_i y10 y11 y12 y13
      have k10 : Keeps m r y12 := by
        refine Keeps.of_pair y13 ?_
        refine readPath_keeps _ (sub_of hm rfl) ?_
        exact h
      extract_lets x11
      refine Keeps.ite ?_ ?_
      · exact h
      · refine Keeps.ite ?_ ?_
        · refine commitMissed_keeps _ _ (sub_of hm rfl) ?_
          refine Keeps.upd_eng ?_ (hm 11 rfl)
          exact k10
        · refine beginRun_keeps _ _ _ (sub_of hm rfl) ?_
          refine Keeps.upd_eng ?_ (hm 11 rfl)
          exact k10

theorem lastTrainSwitch_keeps {m : Nat} {r s : State}  (hm : Sub 67110914 m) (h : Keeps m r s) :
    Keeps m r (lastTrainSwitch s) := by
  unfold lastTrainSwitch
  extract_lets x5 x6 x7
  have h8 : Keeps m r x5 := by
    refine setRb_keeps _ _ _ (sub_of hm rfl) ?_
    refine setRb_keeps _ _ _ (sub_of hm rfl) ?_
    refine landEnd_keeps (sub_of hm rfl) ?_
    exact h
  clear_value x5
  refine Keeps.ite ?_ ?_
  · refine setRf_keeps _ _ _ _ (sub_of hm rfl) ?_
    refine Keeps.upd_eng_hamper ?_ (hm 11 rfl) (hm 26 rfl)
    exact h8
  · exact h

theorem loadsOff_keeps {m : Nat} {r s : State} (vin : Word) (hm : Sub 1951999558698 m) (h : Keeps m r s) :
    Keeps m r (loadsOff vin s) := by
  unfold loadsOff
  extract_lets x6 x7 x8 x9 x10
  have h11 : Keeps m r x6 := by
    refine lcdPowerOff_keeps (sub_of hm rfl) ?_
    refine busPowerOff_keeps (sub_of hm rfl) ?_
    refine mtrPowerFail_keeps (sub_of hm rfl) ?_
    refine unpowerIslands_keeps (sub_of hm rfl) ?_
    refine setReg_keeps _ _ (sub_of hm rfl) ?_
    exact h
  clear_value x6
  have h12 : Keeps m r x7 := by
    refine setReg_keeps _ _ (sub_of hm rfl) ?_
    exact h11
  clear_value x7
  refine Keeps.upd_hamper_boot_rtc ?_ (hm 26 rfl) (hm 33 rfl) (hm 40 rfl)
  exact h12

theorem warmSwitch_keeps {m : Nat} {r s : State}  (hm : Sub 25769805826 m) (h : Keeps m r s) :
    Keeps m r (warmSwitch s) := by
  unfold warmSwitch
  extract_lets x5 x6 x7 x8
  have h9 : Keeps m r x5 := by
    refine mtrWarmSwitch_keeps (sub_of hm rfl) ?_
    refine landEnd_keeps (sub_of hm rfl) ?_
    exact h
  clear_value x5
  have h10 : Keeps m r x6 := by
    refine setRb_keeps _ _ _ (sub_of hm rfl) ?_
    refine setRb_keeps _ _ _ (sub_of hm rfl) ?_
    refine setRb_keeps _ _ _ (sub_of hm rfl) ?_
    exact h9
  clear_value x6
  refine setRf_keeps _ _ _ _ (sub_of hm rfl) ?_
  refine Keeps.upd_eng_boot ?_ (hm 11 rfl) (hm 33 rfl)
  exact h10

theorem minorBoundary_keeps {m : Nat} {r s : State}  (hm : Sub 4393868963690 m) (h : Keeps m r s) :
    Keeps m r (minorBoundary s) := by
  unfold minorBoundary
  refine Keeps.ite ?_ ?_
  · refine Keeps.ite ?_ ?_
    · refine warmSwitch_keeps (sub_of hm rfl) ?_
      exact h
    · refine boundary_keeps (sub_of hm rfl) ?_
      exact h
  · refine Keeps.ite ?_ ?_
    · refine islandBoundary_keeps (sub_of hm rfl) ?_
      exact h
    · exact h

theorem powerFail_keeps {m : Nat} {r s : State} (vin : BitVec 16) (hm : Sub 1951999558698 m) (h : Keeps m r s) :
    Keeps m r (powerFail vin s) := by
  unfold powerFail
  extract_lets x6 x7 x8 x9 x10
  have h11 : Keeps m r x8 := by
    refine loadsOff_keeps _ (sub_of hm rfl) ?_
    exact h
  clear_value x8
  refine Keeps.ite ?_ ?_
  · exact h
  · refine Keeps.ite ?_ ?_
    · refine awaitSupply_keeps (sub_of hm rfl) ?_
      exact h11
    · refine Keeps.ite ?_ ?_
      · exact h11
      · refine Keeps.ite ?_ ?_
        · refine pwrRec_keeps _ _ _ (sub_of hm rfl) ?_
          exact h11
        · refine pwrRec_keeps _ _ _ (sub_of hm rfl) ?_
          refine setRb_keeps _ _ _ (sub_of hm rfl) ?_
          refine Keeps.upd_hamper ?_ (hm 26 rfl)
          exact h11

theorem execBankExhausted_keeps {m : Nat} {r s : State}  (hm : Sub 4718594 m) (h : Keeps m r s) :
    KeepsO m r (execBankExhausted s) := by
  unfold execBankExhausted
  refine KeepsO.next ?_
  refine bankExhausted_keeps (sub_of hm rfl) ?_
  exact h

theorem execLastTrainEnd_keeps {m : Nat} {r s : State}  (hm : Sub 8593869858 m) (h : Keeps m r s) :
    KeepsO m r (execLastTrainEnd s) := by
  unfold execLastTrainEnd
  refine KeepsO.next ?_
  refine lastTrainEnd_keeps (sub_of hm rfl) ?_
  exact h

theorem execLastTrainPathStart_keeps {m : Nat} {r s : State} (path : Fin 4096) (hm : Sub 3935266 m) (h : Keeps m r s) :
    KeepsO m r (execLastTrainPathStart path s) := by
  unfold execLastTrainPathStart
  refine KeepsO.next ?_
  refine lastTrainPath_keeps _ (sub_of hm rfl) ?_
  exact h

theorem execLastTrainSwitch_keeps {m : Nat} {r s : State}  (hm : Sub 67110914 m) (h : Keeps m r s) :
    KeepsO m r (execLastTrainSwitch s) := by
  unfold execLastTrainSwitch
  refine KeepsO.next ?_
  refine lastTrainSwitch_keeps (sub_of hm rfl) ?_
  exact h

theorem execMinorCycleBoundary_keeps {m : Nat} {r s : State}  (hm : Sub 4393868963690 m) (h : Keeps m r s) :
    KeepsO m r (execMinorCycleBoundary s) := by
  unfold execMinorCycleBoundary
  refine KeepsO.next ?_
  refine minorBoundary_keeps (sub_of hm rfl) ?_
  exact h

theorem execPowerFailDetection_keeps {m : Nat} {r s : State} (vin : BitVec 16) (hm : Sub 1951999558698 m) (h : Keeps m r s) :
    KeepsO m r (execPowerFailDetection vin s) := by
  unfold execPowerFailDetection
  refine KeepsO.next ?_
  refine powerFail_keeps _ (sub_of hm rfl) ?_
  exact h

end Sys2Proof.Machine
end

