-- ==== Sys2Proof/Laws/EngineFp.lean ====
section
/-! SUPPORT. What each function of Machine/EngineFp.lean keeps of the state (Laws/Keeps.lean). -/

namespace Sys2Proof.Machine

theorem execFabs_keeps {m : Nat} {r s : State} (i : Issue) (d : Fin 64) (a : Fin 64) (hm : Sub 3935266 m) (h : Keeps m r s) :
    KeepsO m r (execFabs i d a s) := by
  unfold execFabs
  refine KeepsO.guarded ?_
  refine issueF_keeps _ _ _ _ (sub_of hm rfl) ?_
  exact h

theorem execFadd_keeps {m : Nat} {r s : State} (i : Issue) (d : Fin 64) (a : Fin 64) (b : Fin 64) (hm : Sub 3935266 m) (h : Keeps m r s) :
    KeepsO m r (execFadd i d a b s) := by
  unfold execFadd
  refine KeepsO.guarded ?_
  refine issueF_keeps _ _ _ _ (sub_of hm rfl) ?_
  exact h

theorem execFcmp_keeps {m : Nat} {r s : State} (i : Issue) (pd : Fin 16) (a : Fin 64) (b : Fin 64) (cond : BitVec 3) (hm : Sub 3935266 m) (h : Keeps m r s) :
    KeepsO m r (execFcmp i pd a b cond s) := by
  unfold execFcmp
  refine KeepsO.guarded ?_
  refine issue_keeps _ _ (sub_of hm rfl) ?_ ?_
  · exact h
  · intro q10 q11
    extract_lets x12
    refine resultP_keeps _ _ _ _ (sub_of hm rfl) ?_
    refine fpFlags_keeps _ (sub_of hm rfl) ?_
    exact q11

theorem execFcvtf_keeps {m : Nat} {r s : State} (i : Issue) (d : Fin 64) (a : Fin 64) (hm : Sub 3935266 m) (h : Keeps m r s) :
    KeepsO m r (execFcvtf i d a s) := by
  unfold execFcvtf
  refine KeepsO.guarded ?_
  refine issueF_keeps _ _ _ _ (sub_of hm rfl) ?_
  exact h

theorem execFcvti_keeps {m : Nat} {r s : State} (i : Issue) (d : Fin 64) (a : Fin 64) (hm : Sub 3935266 m) (h : Keeps m r s) :
    KeepsO m r (execFcvti i d a s) := by
  unfold execFcvti
  refine KeepsO.guarded ?_
  refine issueF_keeps _ _ _ _ (sub_of hm rfl) ?_
  exact h

theorem execFdiv_keeps {m : Nat} {r s : State} (i : Issue) (d : Fin 64) (a : Fin 64) (b : Fin 64) (hm : Sub 3935266 m) (h : Keeps m r s) :
    KeepsO m r (execFdiv i d a b s) := by
  unfold execFdiv
  refine KeepsO.guarded ?_
  refine issueF_keeps _ _ _ _ (sub_of hm rfl) ?_
  exact h

theorem execFma_keeps {m : Nat} {r s : State} (i : Issue) (d : Fin 64) (a : Fin 64) (b : Fin 64) (hm : Sub 3935266 m) (h : Keeps m r s) :
    KeepsO m r (execFma i d a b s) := by
  unfold execFma
  refine KeepsO.guarded ?_
  refine issueF_keeps _ _ _ _ (sub_of hm rfl) ?_
  exact h

theorem execFmax_keeps {m : Nat} {r s : State} (i : Issue) (d : Fin 64) (a : Fin 64) (b : Fin 64) (hm : Sub 3935266 m) (h : Keeps m r s) :
    KeepsO m r (execFmax i d a b s) := by
  unfold execFmax
  refine KeepsO.guarded ?_
  refine issueF_keeps _ _ _ _ (sub_of hm rfl) ?_
  exact h

theorem execFmin_keeps {m : Nat} {r s : State} (i : Issue) (d : Fin 64) (a : Fin 64) (b : Fin 64) (hm : Sub 3935266 m) (h : Keeps m r s) :
    KeepsO m r (execFmin i d a b s) := by
  unfold execFmin
  refine KeepsO.guarded ?_
  refine issueF_keeps _ _ _ _ (sub_of hm rfl) ?_
  exact h

theorem execFms_keeps {m : Nat} {r s : State} (i : Issue) (d : Fin 64) (a : Fin 64) (b : Fin 64) (hm : Sub 3935266 m) (h : Keeps m r s) :
    KeepsO m r (execFms i d a b s) := by
  unfold execFms
  refine KeepsO.guarded ?_
  refine issueF_keeps _ _ _ _ (sub_of hm rfl) ?_
  exact h

theorem execFmul_keeps {m : Nat} {r s : State} (i : Issue) (d : Fin 64) (a : Fin 64) (b : Fin 64) (hm : Sub 3935266 m) (h : Keeps m r s) :
    KeepsO m r (execFmul i d a b s) := by
  unfold execFmul
  refine KeepsO.guarded ?_
  refine issueF_keeps _ _ _ _ (sub_of hm rfl) ?_
  exact h

theorem execFneg_keeps {m : Nat} {r s : State} (i : Issue) (d : Fin 64) (a : Fin 64) (hm : Sub 3935266 m) (h : Keeps m r s) :
    KeepsO m r (execFneg i d a s) := by
  unfold execFneg
  refine KeepsO.guarded ?_
  refine issueF_keeps _ _ _ _ (sub_of hm rfl) ?_
  exact h

theorem execFsel_keeps {m : Nat} {r s : State} (i : Issue) (d : Fin 64) (a : Fin 64) (b : Fin 64) (hm : Sub 2048 m) (h : Keeps m r s) :
    KeepsO m r (execFsel i d a b s) := by
  unfold execFsel
  refine KeepsO.guarded ?_
  refine issueSel_keeps _ _ (sub_of hm rfl) ?_ ?_
  · exact h
  · intro q9 q10
    refine result_keeps _ _ _ _ (sub_of hm rfl) ?_
    exact q10

theorem execFsqrt_keeps {m : Nat} {r s : State} (i : Issue) (d : Fin 64) (a : Fin 64) (hm : Sub 3935266 m) (h : Keeps m r s) :
    KeepsO m r (execFsqrt i d a s) := by
  unfold execFsqrt
  refine KeepsO.guarded ?_
  refine issueF_keeps _ _ _ _ (sub_of hm rfl) ?_
  exact h

theorem execFsub_keeps {m : Nat} {r s : State} (i : Issue) (d : Fin 64) (a : Fin 64) (b : Fin 64) (hm : Sub 3935266 m) (h : Keeps m r s) :
    KeepsO m r (execFsub i d a b s) := by
  unfold execFsub
  refine KeepsO.guarded ?_
  refine issueF_keeps _ _ _ _ (sub_of hm rfl) ?_
  exact h

end Sys2Proof.Machine
end

