-- ==== Sys2Proof/Laws/EngineInt.lean ====
section
/-! SUPPORT. What each function of Machine/EngineInt.lean keeps of the state (Laws/Keeps.lean). -/

namespace Sys2Proof.Machine

theorem result64_keeps {m : Nat} {r s : State} (i : Issue) (d : Nat) (v : BitVec 64) (hm : Sub 2048 m) (h : Keeps m r s) :
    Keeps m r (result64 i d v s) := by
  unfold result64
  refine result_keeps _ _ _ _ (sub_of hm rfl) ?_
  refine result_keeps _ _ _ _ (sub_of hm rfl) ?_
  exact h

theorem execAdd_keeps {m : Nat} {r s : State} (i : Issue) (d : Fin 64) (a : Fin 64) (b : Fin 64) (hm : Sub 2048 m) (h : Keeps m r s) :
    KeepsO m r (execAdd i d a b s) := by
  unfold execAdd
  refine KeepsO.guarded ?_
  refine issueW_keeps _ _ _ _ (sub_of hm rfl) ?_
  exact h

theorem execAdd64_keeps {m : Nat} {r s : State} (i : Issue) (d : Fin 64) (a : Fin 64) (b : Fin 64) (hm : Sub 2048 m) (h : Keeps m r s) :
    KeepsO m r (execAdd64 i d a b s) := by
  unfold execAdd64
  refine KeepsO.guarded ?_
  refine issue_keeps _ _ (sub_of hm rfl) ?_ ?_
  · exact h
  · intro q9 q10
    refine result64_keeps _ _ _ (sub_of hm rfl) ?_
    exact q10

theorem execAddi_keeps {m : Nat} {r s : State} (i : Issue) (d : Fin 64) (a : Fin 64) (imm : BitVec 7) (hm : Sub 2048 m) (h : Keeps m r s) :
    KeepsO m r (execAddi i d a imm s) := by
  unfold execAddi
  refine KeepsO.guarded ?_
  refine issueW_keeps _ _ _ _ (sub_of hm rfl) ?_
  exact h

theorem execAdds_keeps {m : Nat} {r s : State} (i : Issue) (d : Fin 64) (a : Fin 64) (b : Fin 64) (hm : Sub 2048 m) (h : Keeps m r s) :
    KeepsO m r (execAdds i d a b s) := by
  unfold execAdds
  refine KeepsO.guarded ?_
  refine issueW_keeps _ _ _ _ (sub_of hm rfl) ?_
  exact h

theorem execAndW_keeps {m : Nat} {r s : State} (i : Issue) (d : Fin 64) (a : Fin 64) (b : Fin 64) (hm : Sub 2048 m) (h : Keeps m r s) :
    KeepsO m r (execAndW i d a b s) := by
  unfold execAndW
  refine KeepsO.guarded ?_
  refine issueW_keeps _ _ _ _ (sub_of hm rfl) ?_
  exact h

theorem execCmp_keeps {m : Nat} {r s : State} (i : Issue) (pd : Fin 16) (a : Fin 64) (b : Fin 64) (cond : BitVec 3) (hm : Sub 2048 m) (h : Keeps m r s) :
    KeepsO m r (execCmp i pd a b cond s) := by
  unfold execCmp
  refine KeepsO.guarded ?_
  refine issue_keeps _ _ (sub_of hm rfl) ?_ ?_
  · exact h
  · intro q10 q11
    refine resultP_keeps _ _ _ _ (sub_of hm rfl) ?_
    exact q11

theorem execLi_keeps {m : Nat} {r s : State} (i : Issue) (d : Fin 64) (imm : BitVec 13) (hm : Sub 2048 m) (h : Keeps m r s) :
    KeepsO m r (execLi i d imm s) := by
  unfold execLi
  refine KeepsO.guarded ?_
  refine issueW_keeps _ _ _ _ (sub_of hm rfl) ?_
  exact h

theorem execLis_keeps {m : Nat} {r s : State} (i : Issue) (d : Fin 64) (imm : BitVec 13) (hm : Sub 2048 m) (h : Keeps m r s) :
    KeepsO m r (execLis i d imm s) := by
  unfold execLis
  refine KeepsO.guarded ?_
  refine issueW_keeps _ _ _ _ (sub_of hm rfl) ?_
  exact h

theorem execLoopIterationEnd_keeps {m : Nat} {r s : State}  (hm : Sub 2048 m) (h : Keeps m r s) :
    KeepsO m r (execLoopIterationEnd s) := by
  unfold execLoopIterationEnd
  extract_lets x5
  refine KeepsO.ite ?_ ?_
  · exact KeepsO.refused
  · refine KeepsO.next ?_
    refine Keeps.upd_eng ?_ (hm 11 rfl)
    exact h

theorem execLoopOpen_keeps {m : Nat} {r s : State} (i : Issue) (trip : BitVec 16) (hm : Sub 2048 m) (h : Keeps m r s) :
    KeepsO m r (execLoopOpen i trip s) := by
  unfold execLoopOpen
  refine KeepsO.ite ?_ ?_
  · refine KeepsO.guarded ?_
    refine issue_keeps _ _ (sub_of hm rfl) ?_ ?_
    · exact h
    · intro q7 q8
      extract_lets x9
      refine Keeps.upd_eng ?_ (hm 11 rfl)
      exact q8
  · exact KeepsO.refused

theorem execMaxS_keeps {m : Nat} {r s : State} (i : Issue) (d : Fin 64) (a : Fin 64) (b : Fin 64) (hm : Sub 2048 m) (h : Keeps m r s) :
    KeepsO m r (execMaxS i d a b s) := by
  unfold execMaxS
  refine KeepsO.guarded ?_
  refine issueW_keeps _ _ _ _ (sub_of hm rfl) ?_
  exact h

theorem execMinS_keeps {m : Nat} {r s : State} (i : Issue) (d : Fin 64) (a : Fin 64) (b : Fin 64) (hm : Sub 2048 m) (h : Keeps m r s) :
    KeepsO m r (execMinS i d a b s) := by
  unfold execMinS
  refine KeepsO.guarded ?_
  refine issueW_keeps _ _ _ _ (sub_of hm rfl) ?_
  exact h

theorem execMul_keeps {m : Nat} {r s : State} (i : Issue) (d : Fin 64) (a : Fin 64) (b : Fin 64) (hm : Sub 2048 m) (h : Keeps m r s) :
    KeepsO m r (execMul i d a b s) := by
  unfold execMul
  refine KeepsO.guarded ?_
  refine issueW_keeps _ _ _ _ (sub_of hm rfl) ?_
  exact h

theorem execMulh_keeps {m : Nat} {r s : State} (i : Issue) (d : Fin 64) (a : Fin 64) (b : Fin 64) (hm : Sub 2048 m) (h : Keeps m r s) :
    KeepsO m r (execMulh i d a b s) := by
  unfold execMulh
  refine KeepsO.guarded ?_
  refine issueW_keeps _ _ _ _ (sub_of hm rfl) ?_
  exact h

theorem execMulhu_keeps {m : Nat} {r s : State} (i : Issue) (d : Fin 64) (a : Fin 64) (b : Fin 64) (hm : Sub 2048 m) (h : Keeps m r s) :
    KeepsO m r (execMulhu i d a b s) := by
  unfold execMulhu
  refine KeepsO.guarded ?_
  refine issueW_keeps _ _ _ _ (sub_of hm rfl) ?_
  exact h

theorem execNop_keeps {m : Nat} {r s : State} (i : Issue) (hm : Sub 2048 m) (h : Keeps m r s) :
    KeepsO m r (execNop i s) := by
  unfold execNop
  refine KeepsO.next ?_
  refine land_keeps _ (sub_of hm rfl) ?_
  exact h

theorem execOrW_keeps {m : Nat} {r s : State} (i : Issue) (d : Fin 64) (a : Fin 64) (b : Fin 64) (hm : Sub 2048 m) (h : Keeps m r s) :
    KeepsO m r (execOrW i d a b s) := by
  unfold execOrW
  refine KeepsO.guarded ?_
  refine issueW_keeps _ _ _ _ (sub_of hm rfl) ?_
  exact h

theorem execSar_keeps {m : Nat} {r s : State} (i : Issue) (d : Fin 64) (a : Fin 64) (b : Fin 64) (hm : Sub 2048 m) (h : Keeps m r s) :
    KeepsO m r (execSar i d a b s) := by
  unfold execSar
  refine KeepsO.guarded ?_
  refine issueW_keeps _ _ _ _ (sub_of hm rfl) ?_
  exact h

theorem execSari_keeps {m : Nat} {r s : State} (i : Issue) (d : Fin 64) (a : Fin 64) (imm : BitVec 7) (hm : Sub 2048 m) (h : Keeps m r s) :
    KeepsO m r (execSari i d a imm s) := by
  unfold execSari
  refine KeepsO.guarded ?_
  refine issueW_keeps _ _ _ _ (sub_of hm rfl) ?_
  exact h

theorem execSel_keeps {m : Nat} {r s : State} (i : Issue) (d : Fin 64) (a : Fin 64) (b : Fin 64) (hm : Sub 2048 m) (h : Keeps m r s) :
    KeepsO m r (execSel i d a b s) := by
  unfold execSel
  refine KeepsO.guarded ?_
  refine issueSel_keeps _ _ (sub_of hm rfl) ?_ ?_
  · exact h
  · intro q9 q10
    refine result_keeps _ _ _ _ (sub_of hm rfl) ?_
    exact q10

theorem execShl_keeps {m : Nat} {r s : State} (i : Issue) (d : Fin 64) (a : Fin 64) (b : Fin 64) (hm : Sub 2048 m) (h : Keeps m r s) :
    KeepsO m r (execShl i d a b s) := by
  unfold execShl
  refine KeepsO.guarded ?_
  refine issueW_keeps _ _ _ _ (sub_of hm rfl) ?_
  exact h

theorem execShli_keeps {m : Nat} {r s : State} (i : Issue) (d : Fin 64) (a : Fin 64) (imm : BitVec 7) (hm : Sub 2048 m) (h : Keeps m r s) :
    KeepsO m r (execShli i d a imm s) := by
  unfold execShli
  refine KeepsO.guarded ?_
  refine issueW_keeps _ _ _ _ (sub_of hm rfl) ?_
  exact h

theorem execShr_keeps {m : Nat} {r s : State} (i : Issue) (d : Fin 64) (a : Fin 64) (b : Fin 64) (hm : Sub 2048 m) (h : Keeps m r s) :
    KeepsO m r (execShr i d a b s) := by
  unfold execShr
  refine KeepsO.guarded ?_
  refine issueW_keeps _ _ _ _ (sub_of hm rfl) ?_
  exact h

theorem execShri_keeps {m : Nat} {r s : State} (i : Issue) (d : Fin 64) (a : Fin 64) (imm : BitVec 7) (hm : Sub 2048 m) (h : Keeps m r s) :
    KeepsO m r (execShri i d a imm s) := by
  unfold execShri
  refine KeepsO.guarded ?_
  refine issueW_keeps _ _ _ _ (sub_of hm rfl) ?_
  exact h

theorem execSub_keeps {m : Nat} {r s : State} (i : Issue) (d : Fin 64) (a : Fin 64) (b : Fin 64) (hm : Sub 2048 m) (h : Keeps m r s) :
    KeepsO m r (execSub i d a b s) := by
  unfold execSub
  refine KeepsO.guarded ?_
  refine issueW_keeps _ _ _ _ (sub_of hm rfl) ?_
  exact h

theorem execSub64_keeps {m : Nat} {r s : State} (i : Issue) (d : Fin 64) (a : Fin 64) (b : Fin 64) (hm : Sub 2048 m) (h : Keeps m r s) :
    KeepsO m r (execSub64 i d a b s) := by
  unfold execSub64
  refine KeepsO.guarded ?_
  refine issue_keeps _ _ (sub_of hm rfl) ?_ ?_
  · exact h
  · intro q9 q10
    refine result64_keeps _ _ _ (sub_of hm rfl) ?_
    exact q10

theorem execSubs_keeps {m : Nat} {r s : State} (i : Issue) (d : Fin 64) (a : Fin 64) (b : Fin 64) (hm : Sub 2048 m) (h : Keeps m r s) :
    KeepsO m r (execSubs i d a b s) := by
  unfold execSubs
  refine KeepsO.guarded ?_
  refine issueW_keeps _ _ _ _ (sub_of hm rfl) ?_
  exact h

theorem execXorW_keeps {m : Nat} {r s : State} (i : Issue) (d : Fin 64) (a : Fin 64) (b : Fin 64) (hm : Sub 2048 m) (h : Keeps m r s) :
    KeepsO m r (execXorW i d a b s) := by
  unfold execXorW
  refine KeepsO.guarded ?_
  refine issueW_keeps _ _ _ _ (sub_of hm rfl) ?_
  exact h

end Sys2Proof.Machine
end

