-- ==== Sys2Proof/Laws/Words.lean ====
section
/-! SUPPORT. What each function of Machine/Words.lean keeps of the state (Laws/Keeps.lean). -/

namespace Sys2Proof.Machine

theorem aoutWord_keeps {m : Nat} {r s : State} (a : Nat) (c : Nat) (w : Word) (hm : Sub 536870912 m) (h : Keeps m r s) :
    Keeps m r (aoutWord a c w s) := by
  unfold aoutWord
  extract_lets x8 x9
  split
  · refine aoutCode_keeps _ _ _ _ (sub_of hm rfl) ?_
    exact h
  · refine aoCfg_keeps _ _ (sub_of hm rfl) ?_
    exact h
  · simp -zeta only [x9]
    refine aoCfg_keeps _ _ (sub_of hm rfl) ?_
    exact h
  · simp -zeta only [x9]
    refine aoCfg_keeps _ _ (sub_of hm rfl) ?_
    exact h
  · simp -zeta only [x9]
    refine aoCfg_keeps _ _ (sub_of hm rfl) ?_
    exact h
  · simp -zeta only [x9]
    refine aoCfg_keeps _ _ (sub_of hm rfl) ?_
    exact h
  · exact h

theorem bcmdWord_keeps {m : Nat} {r s : State} (w : Word) (hm : Sub 1099511628810 m) (h : Keeps m r s) :
    Keeps m r (bcmdWord w s) := by
  unfold bcmdWord
  extract_lets x6
  split
  · refine bcmdSet_keeps _ (sub_of hm rfl) ?_
    exact h
  · refine bcmdStep_keeps _ (sub_of hm rfl) ?_
    exact h
  · refine bcmdSlew_keeps _ (sub_of hm rfl) ?_
    exact h
  · refine bcmdSlewStop_keeps _ (sub_of hm rfl) ?_
    exact h
  · refine bcmdTrim_keeps _ (sub_of hm rfl) ?_
    exact h
  · refine bcmdAlmper_keeps _ (sub_of hm rfl) ?_
    exact h
  · refine bcmdAlarm_keeps _ (sub_of hm rfl) ?_
    exact h
  · refine bcmdAck_keeps _ (sub_of hm rfl) ?_
    exact h
  · refine bcmdByte_keeps _ (sub_of hm rfl) ?_
    exact h
  · refine bcmdRead_keeps _ (sub_of hm rfl) ?_
    exact h
  · refine bcmdChg_keeps _ (sub_of hm rfl) ?_
    exact h
  · exact h

theorem busWord_keeps {m : Nat} {r s : State} (src : Nat) (w : Word) (hm : Sub 274881938538 m) (h : Keeps m r s) :
    Keeps m r (busWord src w s) := by
  unfold busWord
  extract_lets x7 x8
  refine Keeps.ite ?_ ?_
  · refine canSelect_keeps _ _ _ (sub_of hm rfl) ?_
    refine Keeps.upd_bus ?_ (hm 38 rfl)
    exact h
  · split
    · refine Keeps.ite ?_ ?_
      · refine canSend_keeps _ _ (sub_of hm rfl) ?_
        exact h
      · exact h
    · refine Keeps.ite ?_ ?_
      · refine canAbort_keeps _ _ (sub_of hm rfl) ?_
        exact h
      · exact h
    · refine Keeps.ite ?_ ?_
      · refine canFetch_keeps _ _ _ (sub_of hm rfl) ?_
        exact h
      · exact h
    · refine busNote_keeps _ (sub_of hm rfl) ?_
      refine busStats_keeps _ (sub_of hm rfl) ?_
      exact h
    · refine Keeps.ite ?_ ?_
      · refine recoverStart_keeps _ _ (sub_of hm rfl) ?_
        exact h
      · exact h
    · refine Keeps.upd_bus ?_ (hm 38 rfl)
      exact h
    · refine Keeps.ite ?_ ?_
      · refine canCfgEnd_keeps _ (sub_of hm rfl) ?_
        exact h
      · refine macCfgEnd_keeps _ (sub_of hm rfl) ?_
        exact h
    · exact h

theorem diDcmd_keeps {m : Nat} {r s : State} (g : Nat) (w : Word) (hm : Sub 134217728 m) (h : Keeps m r s) :
    Keeps m r (diDcmd g w s) := by
  unfold diDcmd
  split
  · refine diWord_keeps _ _ (sub_of hm rfl) ?_
    exact h
  · refine diWord_keeps _ _ (sub_of hm rfl) ?_
    exact h
  · refine diWord_keeps _ _ (sub_of hm rfl) ?_
    exact h
  · exact h

theorem doDcmd_keeps {m : Nat} {r s : State} (h0 : Nat) (w : Word) (hm : Sub 268435456 m) (h : Keeps m r s) :
    Keeps m r (doDcmd h0 w s) := by
  unfold doDcmd
  split
  · refine doCfg_keeps _ _ (sub_of hm rfl) ?_
    exact h
  · refine doCfg_keeps _ _ (sub_of hm rfl) ?_
    exact h
  · refine doCfg_keeps _ _ (sub_of hm rfl) ?_
    exact h
  · exact h

theorem displayWord_keeps {m : Nat} {r s : State} (i : Nat) (w : Word) (hm : Sub 824637760554 m) (h : Keeps m r s) :
    Keeps m r (displayWord i w s) := by
  unfold displayWord
  extract_lets x7
  have h8 : Keeps m r x7 := by
    subst x7
    split
    · refine lcdTake_keeps _ (sub_of hm rfl) ?_ ?_
      · exact h
      · intro q7 q8
        refine segdata_keeps _ (sub_of hm rfl) ?_
        exact q8
    · refine lcdTake_keeps _ (sub_of hm rfl) ?_ ?_
      · exact h
      · intro q7 q8
        refine rectcmdWord_keeps _ (sub_of hm rfl) ?_
        exact q8
    · refine lcdTake_keeps _ (sub_of hm rfl) ?_ ?_
      · exact h
      · intro q7 q8
        refine vlcdWord_keeps _ (sub_of hm rfl) ?_
        exact q8
    · exact h
  clear_value x7
  refine Keeps.ite ?_ ?_
  · refine lcdSend_keeps (sub_of hm rfl) ?_
    exact h8
  · exact h8

theorem mctrlWord_keeps {m : Nat} {r s : State} (w : Word) (hm : Sub 17179869184 m) (h : Keeps m r s) :
    Keeps m r (mctrlWord w s) := by
  unfold mctrlWord
  split
  · refine mtrEdges_keeps _ _ _ (sub_of hm rfl) ?_
    exact h
  · refine mtrEdges_keeps _ _ _ (sub_of hm rfl) ?_
    exact h
  · refine s0Begin_keeps _ _ (sub_of hm rfl) ?_
    exact h
  · exact h

theorem islandWord_keeps {m : Nat} {r s : State} (island : Nat) (i : Nat) (w : Word) (hm : Sub 2010988258410 m) (h : Keeps m r s) :
    Keeps m r (islandWord island i w s) := by
  unfold islandWord
  split
  · refine Keeps.ite ?_ ?_
    · refine mctrlWord_keeps _ (sub_of hm rfl) ?_
      exact h
    · exact h
  · refine Keeps.ite ?_ ?_
    · refine busWord_keeps _ _ (sub_of hm rfl) ?_
      exact h
    · exact h
  · refine Keeps.ite ?_ ?_
    · refine diDcmd_keeps _ _ (sub_of hm rfl) ?_
      exact h
    · exact h
  · refine Keeps.ite ?_ ?_
    · refine diDcmd_keeps _ _ (sub_of hm rfl) ?_
      exact h
    · exact h
  · refine Keeps.ite ?_ ?_
    · refine diDcmd_keeps _ _ (sub_of hm rfl) ?_
      exact h
    · exact h
  · refine Keeps.ite ?_ ?_
    · refine diDcmd_keeps _ _ (sub_of hm rfl) ?_
      exact h
    · exact h
  · refine Keeps.ite ?_ ?_
    · refine doOut_keeps _ _ _ (sub_of hm rfl) ?_
      exact h
    · refine Keeps.ite ?_ ?_
      · refine doDcmd_keeps _ _ (sub_of hm rfl) ?_
        exact h
      · exact h
  · refine Keeps.ite ?_ ?_
    · refine doOut_keeps _ _ _ (sub_of hm rfl) ?_
      exact h
    · refine Keeps.ite ?_ ?_
      · refine doDcmd_keeps _ _ (sub_of hm rfl) ?_
        exact h
      · exact h
  · refine Keeps.ite ?_ ?_
    · refine aoutWord_keeps _ _ _ (sub_of hm rfl) ?_
      exact h
    · refine Keeps.ite ?_ ?_
      · refine acmd_keeps _ _ _ (sub_of hm rfl) ?_
        exact h
      · exact h
  · refine Keeps.ite ?_ ?_
    · refine aoutWord_keeps _ _ _ (sub_of hm rfl) ?_
      exact h
    · refine Keeps.ite ?_ ?_
      · refine acmd_keeps _ _ _ (sub_of hm rfl) ?_
        exact h
      · exact h
  · refine Keeps.ite ?_ ?_
    · refine aoutWord_keeps _ _ _ (sub_of hm rfl) ?_
      exact h
    · refine Keeps.ite ?_ ?_
      · refine acmd_keeps _ _ _ (sub_of hm rfl) ?_
        exact h
      · exact h
  · refine Keeps.ite ?_ ?_
    · refine aoutWord_keeps _ _ _ (sub_of hm rfl) ?_
      exact h
    · refine Keeps.ite ?_ ?_
      · refine acmd_keeps _ _ _ (sub_of hm rfl) ?_
        exact h
      · exact h
  · refine displayWord_keeps _ _ (sub_of hm rfl) ?_
    exact h
  · refine Keeps.ite ?_ ?_
    · refine scmdWord_keeps _ (sub_of hm rfl) ?_
      exact h
    · refine Keeps.ite ?_ ?_
      · refine sparamWord_keeps _ (sub_of hm rfl) ?_
        exact h
      · exact h
  · refine Keeps.ite ?_ ?_
    · refine bcmdWord_keeps _ (sub_of hm rfl) ?_
      exact h
    · refine Keeps.ite ?_ ?_
      · refine rtcBarg_keeps _ (sub_of hm rfl) ?_
        exact h
      · exact h
  · exact h

theorem crossingArrival_keeps {m : Nat} {r s : State} (p : Nat) (w : Word) (hm : Sub 2013135742058 m) (h : Keeps m r s) :
    Keeps m r (crossingArrival p w s) := by
  unfold crossingArrival
  extract_lets x7 x8
  have h9 : Keeps m r x8 := by
    refine Keeps.upd_stime ?_ (hm 31 rfl)
    exact h
  clear_value x8
  refine Keeps.ite ?_ ?_
  · refine Keeps.ite ?_ ?_
    · refine setPort_keeps _ _ (sub_of hm rfl) ?_
      exact h9
    · refine arriveIn_keeps _ _ (sub_of hm rfl) ?_
      exact h9
  · refine Keeps.ite ?_ ?_
    · refine islandWord_keeps _ _ _ (sub_of hm rfl) ?_
      refine arriveOut_keeps _ (sub_of hm rfl) ?_
      exact h
    · exact h

theorem execCrossingWordArrival_keeps {m : Nat} {r s : State} (port : BitVec 11) (w : Word) (hm : Sub 2013135742058 m) (h : Keeps m r s) :
    KeepsO m r (execCrossingWordArrival port w s) := by
  unfold execCrossingWordArrival
  refine KeepsO.guarded ?_
  refine crossingArrival_keeps _ _ (sub_of hm rfl) ?_
  exact h

end Sys2Proof.Machine
end

