-- ==== Sys2Proof/Laws/Run.lean ====
section
/-! SUPPORT. What each function of Machine/Run.lean keeps of the state (Laws/Keeps.lean). -/

namespace Sys2Proof.Machine

theorem setNext_keeps {m : Nat} {r s : State} (n : Option (Nat × Nat)) (hm : Sub 2048 m) (h : Keeps m r s) :
    Keeps m r (State.setNext s n) := by
  unfold State.setNext
  extract_lets x6
  refine Keeps.upd_eng ?_ (hm 11 rfl)
  exact h

theorem endBody_keeps {m : Nat} {r s : State} (c : Nat) (t : Nat) (hm : Sub 2048 m) (h : Keeps m r s) :
    Keeps m r (endBody c t s) := by
  unfold endBody
  extract_lets x7
  split
  · refine Keeps.upd_eng ?_ (hm 11 rfl)
    exact h
  · refine Keeps.upd_eng ?_ (hm 11 rfl)
    exact h
  · refine setNext_keeps _ (sub_of hm rfl) ?_
    exact h

/-- No command but its own removal touches the queue: what every meaning keeps. -/
theorem exec_keeps {m : Nat} {r s : State} (i : Instr) (hm : Sub 4398046511102 m) (h : Keeps m r s) : KeepsO m r (exec i s) := by
  cases i with
  | powerOnStart => exact execPowerOnStart_keeps (sub_of hm rfl) h
  | returnStart => exact execReturnStart_keeps (sub_of hm rfl) h
  | warmStart => exact execWarmStart_keeps (sub_of hm rfl) h
  | sysResetWrite m w => exact execSysResetWrite_keeps m w (sub_of hm rfl) h
  | supplyValid => exact execSupplyValid_keeps (sub_of hm rfl) h
  | romPhase strap => exact execRomPhase_keeps strap (sub_of hm rfl) h
  | imageChecks => exact execImageChecks_keeps (sub_of hm rfl) h
  | configApplication => exact execConfigApplication_keeps (sub_of hm rfl) h
  | migrate ok => exact execMigrate_keeps ok (sub_of hm rfl) h
  | discoveryEnd => exact execDiscoveryEnd_keeps (sub_of hm rfl) h
  | engineRelease => exact execEngineRelease_keeps (sub_of hm rfl) h
  | staggerEnd => exact execStaggerEnd_keeps (sub_of hm rfl) h
  | fieldIslandPowerUp => exact execFieldIslandPowerUp_keeps (sub_of hm rfl) h
  | outPermit => exact execOutPermit_keeps (sub_of hm rfl) h
  | startAbandon => exact execStartAbandon_keeps (sub_of hm rfl) h
  | romMirrorRefresh => exact execRomMirrorRefresh_keeps (sub_of hm rfl) h
  | sidingModeEntry => exact execSidingModeEntry_keeps (sub_of hm rfl) h
  | sidingStrapPoll strap => exact execSidingStrapPoll_keeps strap (sub_of hm rfl) h
  | sidingRefresh => exact execSidingRefresh_keeps (sub_of hm rfl) h
  | progHold => exact execProgHold_keeps (sub_of hm rfl) h
  | progRelease => exact execProgRelease_keeps (sub_of hm rfl) h
  | minorCycleBoundary => exact execMinorCycleBoundary_keeps (sub_of hm rfl) h
  | pathStart path => exact execPathStart_keeps path (sub_of hm rfl) h
  | loopIterationEnd => exact execLoopIterationEnd_keeps (sub_of hm rfl) h
  | nop iss => exact execNop_keeps iss (sub_of hm rfl) h
  | add iss d a b => exact execAdd_keeps iss d a b (sub_of hm rfl) h
  | sub iss d a b => exact execSub_keeps iss d a b (sub_of hm rfl) h
  | andW iss d a b => exact execAndW_keeps iss d a b (sub_of hm rfl) h
  | orW iss d a b => exact execOrW_keeps iss d a b (sub_of hm rfl) h
  | xorW iss d a b => exact execXorW_keeps iss d a b (sub_of hm rfl) h
  | shl iss d a b => exact execShl_keeps iss d a b (sub_of hm rfl) h
  | shr iss d a b => exact execShr_keeps iss d a b (sub_of hm rfl) h
  | sar iss d a b => exact execSar_keeps iss d a b (sub_of hm rfl) h
  | addi iss d a imm => exact execAddi_keeps iss d a imm (sub_of hm rfl) h
  | shli iss d a imm => exact execShli_keeps iss d a imm (sub_of hm rfl) h
  | shri iss d a imm => exact execShri_keeps iss d a imm (sub_of hm rfl) h
  | sari iss d a imm => exact execSari_keeps iss d a imm (sub_of hm rfl) h
  | li iss d imm => exact execLi_keeps iss d imm (sub_of hm rfl) h
  | lis iss d imm => exact execLis_keeps iss d imm (sub_of hm rfl) h
  | sel iss d a b => exact execSel_keeps iss d a b (sub_of hm rfl) h
  | minS iss d a b => exact execMinS_keeps iss d a b (sub_of hm rfl) h
  | maxS iss d a b => exact execMaxS_keeps iss d a b (sub_of hm rfl) h
  | adds iss d a b => exact execAdds_keeps iss d a b (sub_of hm rfl) h
  | subs iss d a b => exact execSubs_keeps iss d a b (sub_of hm rfl) h
  | mul iss d a b => exact execMul_keeps iss d a b (sub_of hm rfl) h
  | mulh iss d a b => exact execMulh_keeps iss d a b (sub_of hm rfl) h
  | mulhu iss d a b => exact execMulhu_keeps iss d a b (sub_of hm rfl) h
  | cmp iss pd a b cond => exact execCmp_keeps iss pd a b cond (sub_of hm rfl) h
  | add64 iss d a b => exact execAdd64_keeps iss d a b (sub_of hm rfl) h
  | sub64 iss d a b => exact execSub64_keeps iss d a b (sub_of hm rfl) h
  | loopOpen iss trip => exact execLoopOpen_keeps iss trip (sub_of hm rfl) h
  | fadd iss d a b => exact execFadd_keeps iss d a b (sub_of hm rfl) h
  | fsub iss d a b => exact execFsub_keeps iss d a b (sub_of hm rfl) h
  | fmul iss d a b => exact execFmul_keeps iss d a b (sub_of hm rfl) h
  | fma iss d a b => exact execFma_keeps iss d a b (sub_of hm rfl) h
  | fms iss d a b => exact execFms_keeps iss d a b (sub_of hm rfl) h
  | fmin iss d a b => exact execFmin_keeps iss d a b (sub_of hm rfl) h
  | fmax iss d a b => exact execFmax_keeps iss d a b (sub_of hm rfl) h
  | fabs iss d a => exact execFabs_keeps iss d a (sub_of hm rfl) h
  | fneg iss d a => exact execFneg_keeps iss d a (sub_of hm rfl) h
  | fcvti iss d a => exact execFcvti_keeps iss d a (sub_of hm rfl) h
  | fcvtf iss d a => exact execFcvtf_keeps iss d a (sub_of hm rfl) h
  | fcmp iss pd a b cond => exact execFcmp_keeps iss pd a b cond (sub_of hm rfl) h
  | fdiv iss d a b => exact execFdiv_keeps iss d a b (sub_of hm rfl) h
  | fsqrt iss d a => exact execFsqrt_keeps iss d a (sub_of hm rfl) h
  | fsel iss d a b => exact execFsel_keeps iss d a b (sub_of hm rfl) h
  | ld iss d a imm => exact execLd_keeps iss d a imm (sub_of hm rfl) h
  | st iss d a imm => exact execSt_keeps iss d a imm (sub_of hm rfl) h
  | ldx iss d a b => exact execLdx_keeps iss d a b (sub_of hm rfl) h
  | stx iss d a b => exact execStx_keeps iss d a b (sub_of hm rfl) h
  | mov iss d a => exact execMov_keeps iss d a (sub_of hm rfl) h
  | lld iss d a imm => exact execLld_keeps iss d a imm (sub_of hm rfl) h
  | lst iss d a imm => exact execLst_keeps iss d a imm (sub_of hm rfl) h
  | xrd iss d port fp => exact execXrd_keeps iss d port fp (sub_of hm rfl) h
  | xwr iss d port => exact execXwr_keeps iss d port (sub_of hm rfl) h
  | qpop iss d qa => exact execQpop_keeps iss d qa (sub_of hm rfl) h
  | qpush iss d qa => exact execQpush_keeps iss d qa (sub_of hm rfl) h
  | qlev iss d qa => exact execQlev_keeps iss d qa (sub_of hm rfl) h
  | qmov iss qa qb => exact execQmov_keeps iss qa qb (sub_of hm rfl) h
  | xq iss q port => exact execXq_keeps iss q port (sub_of hm rfl) h
  | qx iss q port => exact execQx_keeps iss q port (sub_of hm rfl) h
  | rld iss d a imm => exact execRld_keeps iss d a imm (sub_of hm rfl) h
  | rst iss d a imm => exact execRst_keeps iss d a imm (sub_of hm rfl) h
  | setAliasWrite addr w => exact execSetAliasWrite_keeps addr w (sub_of hm rfl) h
  | mst iss d a imm => exact execMst_keeps iss d a imm (sub_of hm rfl) h
  | msw iss a consist => exact execMsw_keeps iss a consist (sub_of hm rfl) h
  | srd iss d selr => exact execSrd_keeps iss d selr (sub_of hm rfl) h
  | scrb iss a imm => exact execScrb_keeps iss a imm (sub_of hm rfl) h
  | scrubLate mem seconds => exact execScrubLate_keeps mem seconds (sub_of hm rfl) h
  | arm iss a => exact execArm_keeps iss a (sub_of hm rfl) h
  | darm iss a => exact execDarm_keeps iss a (sub_of hm rfl) h
  | crossingWordArrival port w => exact execCrossingWordArrival_keeps port w (sub_of hm rfl) h
  | islandQueuePush q island unit ws => exact execIslandQueuePush_keeps q island unit ws (sub_of hm rfl) h
  | islandQueuePop q island unit push => exact execIslandQueuePop_keeps q island unit push (sub_of hm rfl) h
  | hostReadLowHalf addr gapNs => exact execHostReadLowHalf_keeps addr gapNs (sub_of hm rfl) h
  | hostReadHighHalf addr gapNs => exact execHostReadHighHalf_keeps addr gapNs (sub_of hm rfl) h
  | hostReadWord0 addr gapNs => exact execHostReadWord0_keeps addr gapNs (sub_of hm rfl) h
  | hostDataPortRead q gapNs push => exact execHostDataPortRead_keeps q gapNs push (sub_of hm rfl) h
  | headCellRefill q => exact execHeadCellRefill_keeps q (sub_of hm rfl) h
  | hostWriteLowHalf addr half lenNs gapNs haMoved => exact execHostWriteLowHalf_keeps addr half lenNs gapNs haMoved (sub_of hm rfl) h
  | hostWriteHighHalf addr half lenNs gapNs haMoved => exact execHostWriteHighHalf_keeps addr half lenNs gapNs haMoved (sub_of hm rfl) h
  | hostPush q w => exact execHostPush_keeps q w (sub_of hm rfl) h
  | registerWrite addr e f h' => exact execRegisterWrite_keeps addr e f h' (sub_of hm rfl) h
  | shadowWrite m addr w => exact execShadowWrite_keeps m addr w (sub_of hm rfl) h
  | w1cClear m addr w hw => exact execW1cClear_keeps m addr w hw (sub_of hm rfl) h
  | sysCommit m w => exact execSysCommit_keeps m w (sub_of hm rfl) h
  | tteEccClr w => exact execTteEccClr_keeps w (sub_of hm rfl) h
  | clrSel => exact execClrSel_keeps (sub_of hm rfl) h
  | clrAll => exact execClrAll_keeps (sub_of hm rfl) h
  | queClrCnt q => exact execQueClrCnt_keeps q (sub_of hm rfl) h
  | queClrPeak q => exact execQueClrPeak_keeps q (sub_of hm rfl) h
  | queClrDed q => exact execQueClrDed_keeps q (sub_of hm rfl) h
  | logAdvance m w => exact execLogAdvance_keeps m w (sub_of hm rfl) h
  | hpvPoll => exact execHpvPoll_keeps (sub_of hm rfl) h
  | mtrCalholdWrite m w => exact execMtrCalholdWrite_keeps m w (sub_of hm rfl) h
  | wcArm w => exact execWcArm_keeps w (sub_of hm rfl) h
  | testRun count => exact execTestRun_keeps count (sub_of hm rfl) h
  | testStop => exact execTestStop_keeps (sub_of hm rfl) h
  | parLeaseWrite m w => exact execParLeaseWrite_keeps m w (sub_of hm rfl) h
  | parGateWrite m w => exact execParGateWrite_keeps m w (sub_of hm rfl) h
  | rtcSet m => exact execRtcSet_keeps m (sub_of hm rfl) h
  | rtcStep m => exact execRtcStep_keeps m (sub_of hm rfl) h
  | rtcSlew m period faster => exact execRtcSlew_keeps m period faster (sub_of hm rfl) h
  | rtcSlewStop m => exact execRtcSlewStop_keeps m (sub_of hm rfl) h
  | rtcAlarmCfgWrite m n w => exact execRtcAlarmCfgWrite_keeps m n w (sub_of hm rfl) h
  | rtcByteWrite m iss w => exact execRtcByteWrite_keeps m iss w (sub_of hm rfl) h
  | readPub kind tag => exact execReadPub_keeps kind tag (sub_of hm rfl) h
  | challenge tag => exact execChallenge_keeps tag (sub_of hm rfl) h
  | attest tag => exact execAttest_keeps tag (sub_of hm rfl) h
  | objBegin m kind => exact execObjBegin_keeps m kind (sub_of hm rfl) h
  | objPut m => exact execObjPut_keeps m (sub_of hm rfl) h
  | objSubmit m ok => exact execObjSubmit_keeps m ok (sub_of hm rfl) h
  | objCancel m => exact execObjCancel_keeps m (sub_of hm rfl) h
  | objectTimeout => exact execObjectTimeout_keeps (sub_of hm rfl) h
  | inputBelowPfd vin => exact execInputBelowPfd_keeps vin (sub_of hm rfl) h
  | dip low us => exact execDip_keeps low us (sub_of hm rfl) h
  | powerFailDetection vin => exact execPowerFailDetection_keeps vin (sub_of hm rfl) h
  | lastTrainSwitch => exact execLastTrainSwitch_keeps (sub_of hm rfl) h
  | lastTrainPathStart path => exact execLastTrainPathStart_keeps path (sub_of hm rfl) h
  | lastTrainEnd => exact execLastTrainEnd_keeps (sub_of hm rfl) h
  | bankExhausted => exact execBankExhausted_keeps (sub_of hm rfl) h
  | eavailUpdate vbank => exact execEavailUpdate_keeps vbank (sub_of hm rfl) h
  | startCheck v1 => exact execStartCheck_keeps v1 (sub_of hm rfl) h
  | dailyCheck v1 => exact execDailyCheck_keeps v1 (sub_of hm rfl) h
  | checkComplete v2 => exact execCheckComplete_keeps v2 (sub_of hm rfl) h
  | diTick g levels => exact execDiTick_keeps g levels (sub_of hm rfl) h
  | sampleInstant island offset meas limits => exact execSampleInstant_keeps island offset meas limits (sub_of hm rfl) h
  | applyInstant island => exact execApplyInstant_keeps island (sub_of hm rfl) h
  | safeValueTimeout island => exact execSafeValueTimeout_keeps island (sub_of hm rfl) h
  | fieldSupplyMeasure island mv => exact execFieldSupplyMeasure_keeps island mv (sub_of hm rfl) h
  | wireBreak g c broken => exact execWireBreak_keeps g c broken (sub_of hm rfl) h
  | diDeb g c deb => exact execDiDeb_keeps g c deb (sub_of hm rfl) h
  | diCounterCfg g src mode => exact execDiCounterCfg_keeps g src mode (sub_of hm rfl) h
  | diBrken g brken => exact execDiBrken_keeps g brken (sub_of hm rfl) h
  | doSafe h' v => exact execDoSafe_keeps h' v (sub_of hm rfl) h
  | doHold h' v => exact execDoHold_keeps h' v (sub_of hm rfl) h
  | doOlEn h' v => exact execDoOlEn_keeps h' v (sub_of hm rfl) h
  | doOut h' v ack => exact execDoOut_keeps h' v ack (sub_of hm rfl) h
  | ovlLatch h' c => exact execOvlLatch_keeps h' c (sub_of hm rfl) h
  | openLoad h' c inBand => exact execOpenLoad_keeps h' c inBand (sub_of hm rfl) h
  | aoutCode a c code alm => exact execAoutCode_keeps a c code alm (sub_of hm rfl) h
  | aoutMode a c mode insrc clamp safemode => exact execAoutMode_keeps a c mode insrc clamp safemode (sub_of hm rfl) h
  | aoutSafe a c v => exact execAoutSafe_keeps a c v (sub_of hm rfl) h
  | aoutAlmLo a c v => exact execAoutAlmLo_keeps a c v (sub_of hm rfl) h
  | aoutAlmHi a c v => exact execAoutAlmHi_keeps a c v (sub_of hm rfl) h
  | aoutTrim a c zero span => exact execAoutTrim_keeps a c zero span (sub_of hm rfl) h
  | acmd a en ack => exact execAcmd_keeps a en ack (sub_of hm rfl) h
  | compliance a c v => exact execCompliance_keeps a c v (sub_of hm rfl) h
  | rbDev a c v => exact execRbDev_keeps a c v (sub_of hm rfl) h
  | miswire a c => exact execMiswire_keeps a c (sub_of hm rfl) h
  | miswireResume a c => exact execMiswireResume_keeps a c (sub_of hm rfl) h
  | meteringSample n secs bits => exact execMeteringSample_keeps n secs bits (sub_of hm rfl) h
  | edgeLow edges => exact execEdgeLow_keeps edges (sub_of hm rfl) h
  | edgeHigh edges => exact execEdgeHigh_keeps edges (sub_of hm rfl) h
  | s0Pulse out width => exact execS0Pulse_keeps out width (sub_of hm rfl) h
  | s0PulseEnd out => exact execS0PulseEnd_keeps out (sub_of hm rfl) h
  | intervalClose => exact execIntervalClose_keeps (sub_of hm rfl) h
  | meteringCommitDone ok => exact execMeteringCommitDone_keeps ok (sub_of hm rfl) h
  | partialIntervalClose => exact execPartialIntervalClose_keeps (sub_of hm rfl) h
  | harmonicWindow setB => exact execHarmonicWindow_keeps setB (sub_of hm rfl) h
  | captureSample => exact execCaptureSample_keeps (sub_of hm rfl) h
  | loopAttempt n cycle => exact execLoopAttempt_keeps n cycle (sub_of hm rfl) h
  | ffwWrite => exact execFfwWrite_keeps (sub_of hm rfl) h
  | pointRefresh p valid v ts src chan => exact execPointRefresh_keeps p valid v ts src chan (sub_of hm rfl) h
  | forceApply => exact execForceApply_keeps (sub_of hm rfl) h
  | serviceCycle sv cycle outs => exact execServiceCycle_keeps sv cycle outs (sub_of hm rfl) h
  | stationCheck => exact execStationCheck_keeps (sub_of hm rfl) h
  | linkSignalPresent l => exact execLinkSignalPresent_keeps l (sub_of hm rfl) h
  | symbolsAligned l swap inverted => exact execSymbolsAligned_keeps l swap inverted (sub_of hm rfl) h
  | linkLoss l => exact execLinkLoss_keeps l (sub_of hm rfl) h
  | cellReceive l slot ts ws => exact execCellReceive_keeps l slot ts ws (sub_of hm rfl) h
  | slotStart l slot => exact execSlotStart_keeps l slot (sub_of hm rfl) h
  | identityPositionSend l => exact execIdentityPositionSend_keeps l (sub_of hm rfl) h
  | position l addr nlink expAddr expLink hash stratum => exact execPosition_keeps l addr nlink expAddr expLink hash stratum (sub_of hm rfl) h
  | probationClean l => exact execProbationClean_keeps l (sub_of hm rfl) h
  | timeExchange l t1 t2 t3 t4 stratum => exact execTimeExchange_keeps l t1 t2 t3 t4 stratum (sub_of hm rfl) h
  | holdover => exact execHoldover_keeps (sub_of hm rfl) h
  | routeCell arrival ws => exact execRouteCell_keeps arrival ws (sub_of hm rfl) h
  | statusReport => exact execStatusReport_keeps (sub_of hm rfl) h
  | faultReport arrival ws => exact execFaultReport_keeps arrival ws (sub_of hm rfl) h
  | coalesceFlush => exact execCoalesceFlush_keeps (sub_of hm rfl) h
  | tagRequest => exact execTagRequest_keeps (sub_of hm rfl) h
  | tenantQuery ws => exact execTenantQuery_keeps ws (sub_of hm rfl) h
  | rraRead l => exact execRraRead_keeps l (sub_of hm rfl) h
  | rraWrite l => exact execRraWrite_keeps l (sub_of hm rfl) h
  | parcel src ws => exact execParcel_keeps src ws (sub_of hm rfl) h
  | chunkStored chunk => exact execChunkStored_keeps chunk (sub_of hm rfl) h
  | parcelAck l id chunk status => exact execParcelAck_keeps l id chunk status (sub_of hm rfl) h
  | parcelNack l id chunk status first count => exact execParcelNack_keeps l id chunk status first count (sub_of hm rfl) h
  | parcelGapTimeout chunk => exact execParcelGapTimeout_keeps chunk (sub_of hm rfl) h
  | transferTimeout => exact execTransferTimeout_keeps (sub_of hm rfl) h
  | canSend c mask => exact execCanSend_keeps c mask (sub_of hm rfl) h
  | canAbort c mask => exact execCanAbort_keeps c mask (sub_of hm rfl) h
  | canFetch c b ts => exact execCanFetch_keeps c b ts (sub_of hm rfl) h
  | busStats src => exact execBusStats_keeps src (sub_of hm rfl) h
  | canRecover c => exact execCanRecover_keeps c (sub_of hm rfl) h
  | canSelect src idx value => exact execCanSelect_keeps src idx value (sub_of hm rfl) h
  | cfgEnd src => exact execCfgEnd_keeps src (sub_of hm rfl) h
  | canFrameReceive c id ide dlc fdf brs esi rtr bytes ts => exact execCanFrameReceive_keeps c id ide dlc fdf brs esi rtr bytes ts (sub_of hm rfl) h
  | canRxRecordPush c => exact execCanRxRecordPush_keeps c (sub_of hm rfl) h
  | canTxRecordLoad c => exact execCanTxRecordLoad_keeps c (sub_of hm rfl) h
  | canAttemptEnd c res tdcv => exact execCanAttemptEnd_keeps c res tdcv (sub_of hm rfl) h
  | canError c kind txUp rxUp => exact execCanError_keeps c kind txUp rxUp (sub_of hm rfl) h
  | protocolException c => exact execProtocolException_keeps c (sub_of hm rfl) h
  | busOffHoldEnd c => exact execBusOffHoldEnd_keeps c (sub_of hm rfl) h
  | busOffRecoveryDone c => exact execBusOffRecoveryDone_keeps c (sub_of hm rfl) h
  | busStatusWord src => exact execBusStatusWord_keeps src (sub_of hm rfl) h
  | t1sFrameReceive p bytes whole late ts => exact execT1sFrameReceive_keeps p bytes whole late ts (sub_of hm rfl) h
  | t1sRxRecordPush p => exact execT1sRxRecordPush_keeps p (sub_of hm rfl) h
  | t1sTxRecordPop p => exact execT1sTxRecordPop_keeps p (sub_of hm rfl) h
  | t1sFrameTransmit p res defer ts => exact execT1sFrameTransmit_keeps p res defer ts (sub_of hm rfl) h
  | backoffEnd p => exact execBackoffEnd_keeps p (sub_of hm rfl) h
  | pauseReceived p quanta => exact execPauseReceived_keeps p quanta (sub_of hm rfl) h
  | pauseHoldEnd p => exact execPauseHoldEnd_keeps p (sub_of hm rfl) h
  | pauseSend p => exact execPauseSend_keeps p (sub_of hm rfl) h
  | pauseResend p => exact execPauseResend_keeps p (sub_of hm rfl) h
  | pauseRelease p => exact execPauseRelease_keeps p (sub_of hm rfl) h
  | backpressureJam p => exact execBackpressureJam_keeps p (sub_of hm rfl) h
  | heartbeatSend => exact execHeartbeatSend_keeps (sub_of hm rfl) h
  | heartbeatReceive overFabric ws => exact execHeartbeatReceive_keeps overFabric ws (sub_of hm rfl) h
  | fabricHeartbeat => exact execFabricHeartbeat_keeps (sub_of hm rfl) h
  | pathLost onFabric => exact execPathLost_keeps onFabric (sub_of hm rfl) h
  | leaseExpiry => exact execLeaseExpiry_keeps (sub_of hm rfl) h
  | leaseRequest answered cycle => exact execLeaseRequest_keeps answered cycle (sub_of hm rfl) h
  | parGrant req cycle fromBox => exact execParGrant_keeps req cycle fromBox (sub_of hm rfl) h
  | parProbe answered => exact execParProbe_keeps answered (sub_of hm rfl) h
  | signalBoxRequest k member probe req => exact execSignalBoxRequest_keeps k member probe req (sub_of hm rfl) h
  | signalBoxPendingGrant => exact execSignalBoxPendingGrant_keeps (sub_of hm rfl) h
  | pairStateChange => exact execPairStateChange_keeps (sub_of hm rfl) h
  | rectWord w => exact execRectWord_keeps w (sub_of hm rfl) h
  | segdata w => exact execSegdata_keeps w (sub_of hm rfl) h
  | requestInstant w => exact execRequestInstant_keeps w (sub_of hm rfl) h
  | frameBoundary p => exact execFrameBoundary_keeps p (sub_of hm rfl) h
  | lcdQuery w => exact execLcdQuery_keeps w (sub_of hm rfl) h
  | lcdForce w => exact execLcdForce_keeps w (sub_of hm rfl) h
  | panelWord w => exact execPanelWord_keeps w (sub_of hm rfl) h
  | fsegWord w => exact execFsegWord_keeps w (sub_of hm rfl) h
  | ntcWord w => exact execNtcWord_keeps w (sub_of hm rfl) h
  | bandWord w => exact execBandWord_keeps w (sub_of hm rfl) h
  | ntcReading p ohms => exact execNtcReading_keeps p ohms (sub_of hm rfl) h
  | temperatureUpdate p => exact execTemperatureUpdate_keeps p (sub_of hm rfl) h
  | ntcFault p => exact execNtcFault_keeps p (sub_of hm rfl) h
  | vlcdFault p => exact execVlcdFault_keeps p (sub_of hm rfl) h
  | vlcdRestart p ok => exact execVlcdRestart_keeps p ok (sub_of hm rfl) h
  | idleIntervalEnd p => exact execIdleIntervalEnd_keeps p (sub_of hm rfl) h
  | rtcTick => exact execRtcTick_keeps (sub_of hm rfl) h
  | bcmdSet w => exact execBcmdSet_keeps w (sub_of hm rfl) h
  | bcmdStep w => exact execBcmdStep_keeps w (sub_of hm rfl) h
  | bcmdSlew w => exact execBcmdSlew_keeps w (sub_of hm rfl) h
  | bcmdSlewStop w => exact execBcmdSlewStop_keeps w (sub_of hm rfl) h
  | bcmdTrim w => exact execBcmdTrim_keeps w (sub_of hm rfl) h
  | bcmdAlmper w => exact execBcmdAlmper_keeps w (sub_of hm rfl) h
  | bcmdAlarm w => exact execBcmdAlarm_keeps w (sub_of hm rfl) h
  | bcmdAck w => exact execBcmdAck_keeps w (sub_of hm rfl) h
  | bcmdByte w => exact execBcmdByte_keeps w (sub_of hm rfl) h
  | bcmdRead w => exact execBcmdRead_keeps w (sub_of hm rfl) h
  | bcmdChg w => exact execBcmdChg_keeps w (sub_of hm rfl) h
  | bargWord w => exact execBargWord_keeps w (sub_of hm rfl) h
  | retentionTrip => exact execRetentionTrip_keeps (sub_of hm rfl) h
  | retentionReset => exact execRetentionReset_keeps (sub_of hm rfl) h
  | backupSwitchover toElement mv => exact execBackupSwitchover_keeps toElement mv (sub_of hm rfl) h
  | clockDiscipline => exact execClockDiscipline_keeps (sub_of hm rfl) h
  | alarmReport => exact execAlarmReport_keeps (sub_of hm rfl) h
  | islandShake busy tag n msg => exact execIslandShake_keeps busy tag n msg (sub_of hm rfl) h
  | islandVerify busy tag k msg sig => exact execIslandVerify_keeps busy tag k msg sig (sub_of hm rfl) h
  | signgen busy tag h' => exact execSigngen_keeps busy tag h' (sub_of hm rfl) h
  | islandMessage busy tag m => exact execIslandMessage_keeps busy tag m (sub_of hm rfl) h
  | recordDone busy tag copy failed => exact execRecordDone_keeps busy tag copy failed (sub_of hm rfl) h
  | loadrec busy tag blown => exact execLoadrec_keeps busy tag blown (sub_of hm rfl) h
  | pubkey busy tag k => exact execPubkey_keeps busy tag k (sub_of hm rfl) h
  | islandAttest busy tag ws => exact execIslandAttest_keeps busy tag ws (sub_of hm rfl) h
  | islandChallenge busy tag ws => exact execIslandChallenge_keeps busy tag ws (sub_of hm rfl) h
  | updateRec busy tag ws => exact execUpdateRec_keeps busy tag ws (sub_of hm rfl) h
  | commission m ok => exact execCommission_keeps m ok (sub_of hm rfl) h
  | ownerSecret m ok => exact execOwnerSecret_keeps m ok (sub_of hm rfl) h
  | ownerRoot m ok => exact execOwnerRoot_keeps m ok (sub_of hm rfl) h
  | msgReturn m ok => exact execMsgReturn_keeps m ok (sub_of hm rfl) h
  | msgRetire m ok => exact execMsgRetire_keeps m ok (sub_of hm rfl) h
  | msgConfirm m ok => exact execMsgConfirm_keeps m ok (sub_of hm rfl) h
  | msgReject m ok => exact execMsgReject_keeps m ok (sub_of hm rfl) h
  | privileged m ok => exact execPrivileged_keeps m ok (sub_of hm rfl) h
  | epochGraceEnd => exact execEpochGraceEnd_keeps (sub_of hm rfl) h
  | trialMinute ok => exact execTrialMinute_keeps ok (sub_of hm rfl) h
  | triesReset => exact execTriesReset_keeps (sub_of hm rfl) h
  | inputRise vin => exact execInputRise_keeps vin (sub_of hm rfl) h
  | vInOutsideOperatingRange vin => exact execVInOutsideOperatingRange_keeps vin (sub_of hm rfl) h
  | timeCellSendBeforeRelease l => exact execTimeCellSendBeforeRelease_keeps l (sub_of hm rfl) h
  | sbLost => exact execSbLost_keeps (sub_of hm rfl) h
  | elementLow mv => exact execElementLow_keeps mv (sub_of hm rfl) h
  | busIntegration c => exact execBusIntegration_keeps c (sub_of hm rfl) h
  | startOfFrame c ts other => exact execStartOfFrame_keeps c ts other (sub_of hm rfl) h
  | slotBoundary p => exact execSlotBoundary_keeps p (sub_of hm rfl) h

theorem runOp_keeps {m : Nat} {r s : State} (c : Instr) (hm : Sub 4398046511102 m) (h : Keeps m r s) : Keeps m r (runOp s c) := by
  unfold runOp
  split
  · exact exec_keeps c hm h _ (by assumption)
  · exact h
  · exact h

theorem openBody_keeps {m : Nat} {r s : State} (c : Nat) (w : Nat) (before : State) (hm : Sub 2048 m) (h : Keeps m r s) :
    Keeps m r (openBody c w before s) := by
  unfold openBody
  extract_lets x8
  refine Keeps.ite ?_ ?_
  · refine Keeps.upd_eng ?_ (hm 11 rfl)
    exact h
  · exact h

theorem issueConsist_keeps {m : Nat} {r s : State} (c : Nat) (t : Nat) (hm : Sub 4398046511102 m) (h : Keeps m r s) :
    Keeps m r (issueConsist c t s) := by
  unfold issueConsist
  extract_lets x7 x8 x9
  have h10 : Keeps m r x8 := by
    refine openBody_keeps _ _ _ (sub_of hm rfl) ?_
    refine Keeps.foldl _ _ (fun s10 a10 h10 => ?_) _ ?_
    · refine runOp_keeps _ (sub_of hm rfl) ?_
      exact h10
    · exact h
  clear_value x8
  refine Keeps.ite ?_ ?_
  · refine setNext_keeps _ (sub_of hm rfl) ?_
    exact h10
  · refine Keeps.ite ?_ ?_
    · refine endBody_keeps _ _ (sub_of hm rfl) ?_
      exact h10
    · refine setNext_keeps _ (sub_of hm rfl) ?_
      exact h10

theorem stepRun_keeps {m : Nat} {r s : State}  (hm : Sub 4398046511102 m) (h : Keeps m r s) :
    Keeps m r (stepRun s) := by
  unfold stepRun
  split
  · refine Keeps.ite ?_ ?_
    · refine setNext_keeps _ (sub_of hm rfl) ?_
      exact h
    · refine issueConsist_keeps _ _ (sub_of hm rfl) ?_
      exact h
  · exact h

end Sys2Proof.Machine
end

