-- ==== Sys2Proof/Laws/State.lean ====
section
/-! SUPPORT. Lemmas beside State: what a register write reads back as, and that each named update leaves every other field. -/

namespace Sys2Proof.Machine

/-! ## Registers and fields -/

theorem reg_setReg (s : State) (a b : Nat) (v : Word) : (s.setReg a v).reg b = if b = a then v else s.reg b := by
  unfold State.reg State.setReg
  by_cases h : b = a
  · subst h; simp [sget_sset_same]
  · simp [h, sget_sset_other _ _ v s.regs h]

theorem getLsbD_setFld (w : Word) (hi lo v i : Nat) (h : lo ≤ hi) (h32 : hi < 32) (hi32 : i < 32) :
    (setFld w hi lo v).getLsbD i = if lo ≤ i ∧ i ≤ hi then v.testBit (i - lo) else w.getLsbD i := by
  have hm : ∀ j, ((2 ^ (hi + 1 - lo) - 1) * 2 ^ lo).testBit j = (decide (lo ≤ j) && decide (j - lo < hi + 1 - lo)) := by
    intro j
    rw [Nat.testBit_mul_two_pow]
    by_cases hj : lo ≤ j <;> simp [hj, Nat.testBit_two_pow_sub_one]
  have hv : ∀ j, ((v % 2 ^ (hi + 1 - lo)) * 2 ^ lo).testBit j =
      (decide (lo ≤ j) && (decide (j - lo < hi + 1 - lo) && v.testBit (j - lo))) := by
    intro j
    rw [Nat.testBit_mul_two_pow]
    by_cases hj : lo ≤ j <;> simp [hj, Nat.testBit_mod_two_pow]
  simp only [setFld, BitVec.getLsbD_or, BitVec.getLsbD_and, BitVec.getLsbD_not, BitVec.getLsbD_ofNat, hm, hv, hi32,
    decide_true, Bool.true_and]
  by_cases h1 : lo ≤ i
  · by_cases h2 : i ≤ hi
    · have h3 : i - lo < hi + 1 - lo := by omega
      simp [h1, h2, h3]
    · have h3 : ¬ (i - lo < hi + 1 - lo) := by omega
      simp [h1, h2, h3]
  · simp [h1]

theorem testBit_fld (w : Word) (hi lo i : Nat) : (fld w hi lo).testBit i = (decide (i < hi + 1 - lo) && w.getLsbD (lo + i)) := by
  simp only [fld, Nat.testBit_mod_two_pow, Nat.testBit_div_two_pow, BitVec.getLsbD]
  rw [Nat.add_comm i lo]

/-- A field reads back what was stored in it, modulo its width. -/
theorem fld_setFld_same (w : Word) (hi lo v : Nat) (h : lo ≤ hi) (h32 : hi < 32) :
    fld (setFld w hi lo v) hi lo = v % 2 ^ (hi + 1 - lo) := by
  apply Nat.eq_of_testBit_eq
  intro i
  rw [testBit_fld, Nat.testBit_mod_two_pow]
  by_cases hi2 : i < hi + 1 - lo
  · rw [getLsbD_setFld w hi lo v (lo + i) h h32 (by omega)]
    have h1 : lo ≤ lo + i ∧ lo + i ≤ hi := by omega
    simp [hi2, h1]
  · simp [hi2]

/-- A field that lies outside a stored one keeps its value. -/
theorem fld_setFld_disjoint (w : Word) (hi lo v hi2 lo2 : Nat) (h : lo ≤ hi) (h32 : hi < 32) (h2 : lo2 ≤ hi2) (h232 : hi2 < 32)
    (hd : hi < lo2 ∨ hi2 < lo) : fld (setFld w hi lo v) hi2 lo2 = fld w hi2 lo2 := by
  apply Nat.eq_of_testBit_eq
  intro i
  rw [testBit_fld, testBit_fld]
  by_cases hi2' : i < hi2 + 1 - lo2
  · rw [getLsbD_setFld w hi lo v (lo2 + i) h h32 (by omega)]
    have h1 : ¬ (lo ≤ lo2 + i ∧ lo2 + i ≤ hi) := by omega
    simp [h1]
  · simp [hi2']

theorem bit_setFld_same (w : Word) (i : Nat) (b : Bool) (h : i < 32) : bit (setFld w i i (b2n b)) i = b := by
  unfold bit
  rw [getLsbD_setFld w i i _ i (Nat.le_refl _) h h]
  cases b <;> simp [b2n]

theorem bit_setFld_other (w : Word) (hi lo v i : Nat) (h : lo ≤ hi) (h32 : hi < 32) (hi2 : i < 32) (hd : hi < i ∨ i < lo) :
    bit (setFld w hi lo v) i = bit w i := by
  unfold bit
  rw [getLsbD_setFld w hi lo v i h h32 hi2]
  have h1 : ¬ (lo ≤ i ∧ i ≤ hi) := by omega
  simp [h1]

theorem reg_setRf (s : State) (a b hi lo v : Nat) : (s.setRf a hi lo v).reg b = if b = a then setFld (s.reg a) hi lo v else s.reg b :=
  reg_setReg _ _ _ _

theorem rf_setRf_same (s : State) (a hi lo v : Nat) (h : lo ≤ hi) (h32 : hi < 32) :
    (s.setRf a hi lo v).rf a hi lo = v % 2 ^ (hi + 1 - lo) := by
  simp [State.rf, reg_setRf, fld_setFld_same _ _ _ _ h h32]

theorem rb_setRb_same (s : State) (a i : Nat) (b : Bool) (h : i < 32) : (s.setRb a i b).rb a i = b := by
  simp [State.rb, State.setRb, reg_setRf, bit_setFld_same _ _ _ h]

theorem reg_orReg (s : State) (a b m : Nat) : (s.orReg a m).reg b = if b = a then s.reg a ||| w32 m else s.reg b := reg_setReg _ _ _ _

theorem port_setPort (s : State) (p q : Nat) (x : Port) : (s.setPort p x).port q = if q = p then x else s.port q := by
  unfold State.port State.setPort
  exact sget_sset _ _ _ _ _

theorem eccAt_setEcc_same (s : State) (mem u : Nat) (e : Ecc) : (s.setEcc mem u e).eccAt mem u = e := by
  unfold State.eccAt State.setEcc
  exact sget_sset_same _ _ _ _

theorem shadow_setShadow_same (s : State) (a : Nat) (v : Word) : (s.setShadow a v).shadow a = v := by
  unfold State.shadow State.setShadow
  exact sget_sset_same _ _ _ _

/-! ## One lemma for each field and named update -/

@[simp] theorem setReg_pending (s : State) (a : Nat) (v : Word) : (s.setReg a v).pending = s.pending := rfl
@[simp] theorem setReg_shadows (s : State) (a : Nat) (v : Word) : (s.setReg a v).shadows = s.shadows := rfl
@[simp] theorem setReg_mirror (s : State) (a : Nat) (v : Word) : (s.setReg a v).mirror = s.mirror := rfl
@[simp] theorem setReg_data (s : State) (a : Nat) (v : Word) : (s.setReg a v).data = s.data := rfl
@[simp] theorem setReg_logm (s : State) (a : Nat) (v : Word) : (s.setReg a v).logm = s.logm := rfl
@[simp] theorem setReg_quem (s : State) (a : Nat) (v : Word) : (s.setReg a v).quem = s.quem := rfl
@[simp] theorem setReg_code (s : State) (a : Nat) (v : Word) : (s.setReg a v).code = s.code := rfl
@[simp] theorem setReg_feram (s : State) (a : Nat) (v : Word) : (s.setReg a v).feram = s.feram := rfl
@[simp] theorem setReg_store (s : State) (a : Nat) (v : Word) : (s.setReg a v).store = s.store := rfl
@[simp] theorem setReg_ecc (s : State) (a : Nat) (v : Word) : (s.setReg a v).ecc = s.ecc := rfl
@[simp] theorem setReg_eng (s : State) (a : Nat) (v : Word) : (s.setReg a v).eng = s.eng := rfl
@[simp] theorem setReg_image (s : State) (a : Nat) (v : Word) : (s.setReg a v).image = s.image := rfl
@[simp] theorem setReg_qrd (s : State) (a : Nat) (v : Word) : (s.setReg a v).qrd = s.qrd := rfl
@[simp] theorem setReg_qcell (s : State) (a : Nat) (v : Word) : (s.setReg a v).qcell = s.qcell := rfl
@[simp] theorem setReg_ports (s : State) (a : Nat) (v : Word) : (s.setReg a v).ports = s.ports := rfl
@[simp] theorem setReg_xcnt (s : State) (a : Nat) (v : Word) : (s.setReg a v).xcnt = s.xcnt := rfl
@[simp] theorem setReg_host (s : State) (a : Nat) (v : Word) : (s.setReg a v).host = s.host := rfl
@[simp] theorem setReg_logNext (s : State) (a : Nat) (v : Word) : (s.setReg a v).logNext = s.logNext := rfl
@[simp] theorem setReg_logCompl (s : State) (a : Nat) (v : Word) : (s.setReg a v).logCompl = s.logCompl := rfl
@[simp] theorem setReg_logCount (s : State) (a : Nat) (v : Word) : (s.setReg a v).logCount = s.logCount := rfl
@[simp] theorem setReg_logged (s : State) (a : Nat) (v : Word) : (s.setReg a v).logged = s.logged := rfl
@[simp] theorem setReg_hattn (s : State) (a : Nat) (v : Word) : (s.setReg a v).hattn = s.hattn := rfl
@[simp] theorem setReg_opUs (s : State) (a : Nat) (v : Word) : (s.setReg a v).opUs = s.opUs := rfl
@[simp] theorem setReg_pwrCyc (s : State) (a : Nat) (v : Word) : (s.setReg a v).pwrCyc = s.pwrCyc := rfl
@[simp] theorem setReg_fabTime (s : State) (a : Nat) (v : Word) : (s.setReg a v).fabTime = s.fabTime := rfl
@[simp] theorem setReg_hamper (s : State) (a : Nat) (v : Word) : (s.setReg a v).hamper = s.hamper := rfl
@[simp] theorem setReg_di (s : State) (a : Nat) (v : Word) : (s.setReg a v).di = s.di := rfl
@[simp] theorem setReg_dout (s : State) (a : Nat) (v : Word) : (s.setReg a v).dout = s.dout := rfl
@[simp] theorem setReg_ao (s : State) (a : Nat) (v : Word) : (s.setReg a v).ao = s.ao := rfl
@[simp] theorem setReg_supply (s : State) (a : Nat) (v : Word) : (s.setReg a v).supply = s.supply := rfl
@[simp] theorem setReg_stime (s : State) (a : Nat) (v : Word) : (s.setReg a v).stime = s.stime := rfl
@[simp] theorem setReg_pair (s : State) (a : Nat) (v : Word) : (s.setReg a v).pair = s.pair := rfl
@[simp] theorem setReg_boot (s : State) (a : Nat) (v : Word) : (s.setReg a v).boot = s.boot := rfl
@[simp] theorem setReg_mtr (s : State) (a : Nat) (v : Word) : (s.setReg a v).mtr = s.mtr := rfl
@[simp] theorem setReg_ctl (s : State) (a : Nat) (v : Word) : (s.setReg a v).ctl = s.ctl := rfl
@[simp] theorem setReg_sec (s : State) (a : Nat) (v : Word) : (s.setReg a v).sec = s.sec := rfl
@[simp] theorem setReg_fab (s : State) (a : Nat) (v : Word) : (s.setReg a v).fab = s.fab := rfl
@[simp] theorem setReg_bus (s : State) (a : Nat) (v : Word) : (s.setReg a v).bus = s.bus := rfl
@[simp] theorem setReg_lcd (s : State) (a : Nat) (v : Word) : (s.setReg a v).lcd = s.lcd := rfl
@[simp] theorem setReg_rtc (s : State) (a : Nat) (v : Word) : (s.setReg a v).rtc = s.rtc := rfl
@[simp] theorem setReg_freeCtr (s : State) (a : Nat) (v : Word) : (s.setReg a v).freeCtr = s.freeCtr := rfl

@[simp] theorem setRf_pending (s : State) (a hi lo v : Nat) : (s.setRf a hi lo v).pending = s.pending := rfl
@[simp] theorem setRf_shadows (s : State) (a hi lo v : Nat) : (s.setRf a hi lo v).shadows = s.shadows := rfl
@[simp] theorem setRf_mirror (s : State) (a hi lo v : Nat) : (s.setRf a hi lo v).mirror = s.mirror := rfl
@[simp] theorem setRf_data (s : State) (a hi lo v : Nat) : (s.setRf a hi lo v).data = s.data := rfl
@[simp] theorem setRf_logm (s : State) (a hi lo v : Nat) : (s.setRf a hi lo v).logm = s.logm := rfl
@[simp] theorem setRf_quem (s : State) (a hi lo v : Nat) : (s.setRf a hi lo v).quem = s.quem := rfl
@[simp] theorem setRf_code (s : State) (a hi lo v : Nat) : (s.setRf a hi lo v).code = s.code := rfl
@[simp] theorem setRf_feram (s : State) (a hi lo v : Nat) : (s.setRf a hi lo v).feram = s.feram := rfl
@[simp] theorem setRf_store (s : State) (a hi lo v : Nat) : (s.setRf a hi lo v).store = s.store := rfl
@[simp] theorem setRf_ecc (s : State) (a hi lo v : Nat) : (s.setRf a hi lo v).ecc = s.ecc := rfl
@[simp] theorem setRf_eng (s : State) (a hi lo v : Nat) : (s.setRf a hi lo v).eng = s.eng := rfl
@[simp] theorem setRf_image (s : State) (a hi lo v : Nat) : (s.setRf a hi lo v).image = s.image := rfl
@[simp] theorem setRf_qrd (s : State) (a hi lo v : Nat) : (s.setRf a hi lo v).qrd = s.qrd := rfl
@[simp] theorem setRf_qcell (s : State) (a hi lo v : Nat) : (s.setRf a hi lo v).qcell = s.qcell := rfl
@[simp] theorem setRf_ports (s : State) (a hi lo v : Nat) : (s.setRf a hi lo v).ports = s.ports := rfl
@[simp] theorem setRf_xcnt (s : State) (a hi lo v : Nat) : (s.setRf a hi lo v).xcnt = s.xcnt := rfl
@[simp] theorem setRf_host (s : State) (a hi lo v : Nat) : (s.setRf a hi lo v).host = s.host := rfl
@[simp] theorem setRf_logNext (s : State) (a hi lo v : Nat) : (s.setRf a hi lo v).logNext = s.logNext := rfl
@[simp] theorem setRf_logCompl (s : State) (a hi lo v : Nat) : (s.setRf a hi lo v).logCompl = s.logCompl := rfl
@[simp] theorem setRf_logCount (s : State) (a hi lo v : Nat) : (s.setRf a hi lo v).logCount = s.logCount := rfl
@[simp] theorem setRf_logged (s : State) (a hi lo v : Nat) : (s.setRf a hi lo v).logged = s.logged := rfl
@[simp] theorem setRf_hattn (s : State) (a hi lo v : Nat) : (s.setRf a hi lo v).hattn = s.hattn := rfl
@[simp] theorem setRf_opUs (s : State) (a hi lo v : Nat) : (s.setRf a hi lo v).opUs = s.opUs := rfl
@[simp] theorem setRf_pwrCyc (s : State) (a hi lo v : Nat) : (s.setRf a hi lo v).pwrCyc = s.pwrCyc := rfl
@[simp] theorem setRf_fabTime (s : State) (a hi lo v : Nat) : (s.setRf a hi lo v).fabTime = s.fabTime := rfl
@[simp] theorem setRf_hamper (s : State) (a hi lo v : Nat) : (s.setRf a hi lo v).hamper = s.hamper := rfl
@[simp] theorem setRf_di (s : State) (a hi lo v : Nat) : (s.setRf a hi lo v).di = s.di := rfl
@[simp] theorem setRf_dout (s : State) (a hi lo v : Nat) : (s.setRf a hi lo v).dout = s.dout := rfl
@[simp] theorem setRf_ao (s : State) (a hi lo v : Nat) : (s.setRf a hi lo v).ao = s.ao := rfl
@[simp] theorem setRf_supply (s : State) (a hi lo v : Nat) : (s.setRf a hi lo v).supply = s.supply := rfl
@[simp] theorem setRf_stime (s : State) (a hi lo v : Nat) : (s.setRf a hi lo v).stime = s.stime := rfl
@[simp] theorem setRf_pair (s : State) (a hi lo v : Nat) : (s.setRf a hi lo v).pair = s.pair := rfl
@[simp] theorem setRf_boot (s : State) (a hi lo v : Nat) : (s.setRf a hi lo v).boot = s.boot := rfl
@[simp] theorem setRf_mtr (s : State) (a hi lo v : Nat) : (s.setRf a hi lo v).mtr = s.mtr := rfl
@[simp] theorem setRf_ctl (s : State) (a hi lo v : Nat) : (s.setRf a hi lo v).ctl = s.ctl := rfl
@[simp] theorem setRf_sec (s : State) (a hi lo v : Nat) : (s.setRf a hi lo v).sec = s.sec := rfl
@[simp] theorem setRf_fab (s : State) (a hi lo v : Nat) : (s.setRf a hi lo v).fab = s.fab := rfl
@[simp] theorem setRf_bus (s : State) (a hi lo v : Nat) : (s.setRf a hi lo v).bus = s.bus := rfl
@[simp] theorem setRf_lcd (s : State) (a hi lo v : Nat) : (s.setRf a hi lo v).lcd = s.lcd := rfl
@[simp] theorem setRf_rtc (s : State) (a hi lo v : Nat) : (s.setRf a hi lo v).rtc = s.rtc := rfl
@[simp] theorem setRf_freeCtr (s : State) (a hi lo v : Nat) : (s.setRf a hi lo v).freeCtr = s.freeCtr := rfl

@[simp] theorem setRb_pending (s : State) (a i : Nat) (b : Bool) : (s.setRb a i b).pending = s.pending := rfl
@[simp] theorem setRb_shadows (s : State) (a i : Nat) (b : Bool) : (s.setRb a i b).shadows = s.shadows := rfl
@[simp] theorem setRb_mirror (s : State) (a i : Nat) (b : Bool) : (s.setRb a i b).mirror = s.mirror := rfl
@[simp] theorem setRb_data (s : State) (a i : Nat) (b : Bool) : (s.setRb a i b).data = s.data := rfl
@[simp] theorem setRb_logm (s : State) (a i : Nat) (b : Bool) : (s.setRb a i b).logm = s.logm := rfl
@[simp] theorem setRb_quem (s : State) (a i : Nat) (b : Bool) : (s.setRb a i b).quem = s.quem := rfl
@[simp] theorem setRb_code (s : State) (a i : Nat) (b : Bool) : (s.setRb a i b).code = s.code := rfl
@[simp] theorem setRb_feram (s : State) (a i : Nat) (b : Bool) : (s.setRb a i b).feram = s.feram := rfl
@[simp] theorem setRb_store (s : State) (a i : Nat) (b : Bool) : (s.setRb a i b).store = s.store := rfl
@[simp] theorem setRb_ecc (s : State) (a i : Nat) (b : Bool) : (s.setRb a i b).ecc = s.ecc := rfl
@[simp] theorem setRb_eng (s : State) (a i : Nat) (b : Bool) : (s.setRb a i b).eng = s.eng := rfl
@[simp] theorem setRb_image (s : State) (a i : Nat) (b : Bool) : (s.setRb a i b).image = s.image := rfl
@[simp] theorem setRb_qrd (s : State) (a i : Nat) (b : Bool) : (s.setRb a i b).qrd = s.qrd := rfl
@[simp] theorem setRb_qcell (s : State) (a i : Nat) (b : Bool) : (s.setRb a i b).qcell = s.qcell := rfl
@[simp] theorem setRb_ports (s : State) (a i : Nat) (b : Bool) : (s.setRb a i b).ports = s.ports := rfl
@[simp] theorem setRb_xcnt (s : State) (a i : Nat) (b : Bool) : (s.setRb a i b).xcnt = s.xcnt := rfl
@[simp] theorem setRb_host (s : State) (a i : Nat) (b : Bool) : (s.setRb a i b).host = s.host := rfl
@[simp] theorem setRb_logNext (s : State) (a i : Nat) (b : Bool) : (s.setRb a i b).logNext = s.logNext := rfl
@[simp] theorem setRb_logCompl (s : State) (a i : Nat) (b : Bool) : (s.setRb a i b).logCompl = s.logCompl := rfl
@[simp] theorem setRb_logCount (s : State) (a i : Nat) (b : Bool) : (s.setRb a i b).logCount = s.logCount := rfl
@[simp] theorem setRb_logged (s : State) (a i : Nat) (b : Bool) : (s.setRb a i b).logged = s.logged := rfl
@[simp] theorem setRb_hattn (s : State) (a i : Nat) (b : Bool) : (s.setRb a i b).hattn = s.hattn := rfl
@[simp] theorem setRb_opUs (s : State) (a i : Nat) (b : Bool) : (s.setRb a i b).opUs = s.opUs := rfl
@[simp] theorem setRb_pwrCyc (s : State) (a i : Nat) (b : Bool) : (s.setRb a i b).pwrCyc = s.pwrCyc := rfl
@[simp] theorem setRb_fabTime (s : State) (a i : Nat) (b : Bool) : (s.setRb a i b).fabTime = s.fabTime := rfl
@[simp] theorem setRb_hamper (s : State) (a i : Nat) (b : Bool) : (s.setRb a i b).hamper = s.hamper := rfl
@[simp] theorem setRb_di (s : State) (a i : Nat) (b : Bool) : (s.setRb a i b).di = s.di := rfl
@[simp] theorem setRb_dout (s : State) (a i : Nat) (b : Bool) : (s.setRb a i b).dout = s.dout := rfl
@[simp] theorem setRb_ao (s : State) (a i : Nat) (b : Bool) : (s.setRb a i b).ao = s.ao := rfl
@[simp] theorem setRb_supply (s : State) (a i : Nat) (b : Bool) : (s.setRb a i b).supply = s.supply := rfl
@[simp] theorem setRb_stime (s : State) (a i : Nat) (b : Bool) : (s.setRb a i b).stime = s.stime := rfl
@[simp] theorem setRb_pair (s : State) (a i : Nat) (b : Bool) : (s.setRb a i b).pair = s.pair := rfl
@[simp] theorem setRb_boot (s : State) (a i : Nat) (b : Bool) : (s.setRb a i b).boot = s.boot := rfl
@[simp] theorem setRb_mtr (s : State) (a i : Nat) (b : Bool) : (s.setRb a i b).mtr = s.mtr := rfl
@[simp] theorem setRb_ctl (s : State) (a i : Nat) (b : Bool) : (s.setRb a i b).ctl = s.ctl := rfl
@[simp] theorem setRb_sec (s : State) (a i : Nat) (b : Bool) : (s.setRb a i b).sec = s.sec := rfl
@[simp] theorem setRb_fab (s : State) (a i : Nat) (b : Bool) : (s.setRb a i b).fab = s.fab := rfl
@[simp] theorem setRb_bus (s : State) (a i : Nat) (b : Bool) : (s.setRb a i b).bus = s.bus := rfl
@[simp] theorem setRb_lcd (s : State) (a i : Nat) (b : Bool) : (s.setRb a i b).lcd = s.lcd := rfl
@[simp] theorem setRb_rtc (s : State) (a i : Nat) (b : Bool) : (s.setRb a i b).rtc = s.rtc := rfl
@[simp] theorem setRb_freeCtr (s : State) (a i : Nat) (b : Bool) : (s.setRb a i b).freeCtr = s.freeCtr := rfl

@[simp] theorem orReg_pending (s : State) (a m : Nat) : (s.orReg a m).pending = s.pending := rfl
@[simp] theorem orReg_shadows (s : State) (a m : Nat) : (s.orReg a m).shadows = s.shadows := rfl
@[simp] theorem orReg_mirror (s : State) (a m : Nat) : (s.orReg a m).mirror = s.mirror := rfl
@[simp] theorem orReg_data (s : State) (a m : Nat) : (s.orReg a m).data = s.data := rfl
@[simp] theorem orReg_logm (s : State) (a m : Nat) : (s.orReg a m).logm = s.logm := rfl
@[simp] theorem orReg_quem (s : State) (a m : Nat) : (s.orReg a m).quem = s.quem := rfl
@[simp] theorem orReg_code (s : State) (a m : Nat) : (s.orReg a m).code = s.code := rfl
@[simp] theorem orReg_feram (s : State) (a m : Nat) : (s.orReg a m).feram = s.feram := rfl
@[simp] theorem orReg_store (s : State) (a m : Nat) : (s.orReg a m).store = s.store := rfl
@[simp] theorem orReg_ecc (s : State) (a m : Nat) : (s.orReg a m).ecc = s.ecc := rfl
@[simp] theorem orReg_eng (s : State) (a m : Nat) : (s.orReg a m).eng = s.eng := rfl
@[simp] theorem orReg_image (s : State) (a m : Nat) : (s.orReg a m).image = s.image := rfl
@[simp] theorem orReg_qrd (s : State) (a m : Nat) : (s.orReg a m).qrd = s.qrd := rfl
@[simp] theorem orReg_qcell (s : State) (a m : Nat) : (s.orReg a m).qcell = s.qcell := rfl
@[simp] theorem orReg_ports (s : State) (a m : Nat) : (s.orReg a m).ports = s.ports := rfl
@[simp] theorem orReg_xcnt (s : State) (a m : Nat) : (s.orReg a m).xcnt = s.xcnt := rfl
@[simp] theorem orReg_host (s : State) (a m : Nat) : (s.orReg a m).host = s.host := rfl
@[simp] theorem orReg_logNext (s : State) (a m : Nat) : (s.orReg a m).logNext = s.logNext := rfl
@[simp] theorem orReg_logCompl (s : State) (a m : Nat) : (s.orReg a m).logCompl = s.logCompl := rfl
@[simp] theorem orReg_logCount (s : State) (a m : Nat) : (s.orReg a m).logCount = s.logCount := rfl
@[simp] theorem orReg_logged (s : State) (a m : Nat) : (s.orReg a m).logged = s.logged := rfl
@[simp] theorem orReg_hattn (s : State) (a m : Nat) : (s.orReg a m).hattn = s.hattn := rfl
@[simp] theorem orReg_opUs (s : State) (a m : Nat) : (s.orReg a m).opUs = s.opUs := rfl
@[simp] theorem orReg_pwrCyc (s : State) (a m : Nat) : (s.orReg a m).pwrCyc = s.pwrCyc := rfl
@[simp] theorem orReg_fabTime (s : State) (a m : Nat) : (s.orReg a m).fabTime = s.fabTime := rfl
@[simp] theorem orReg_hamper (s : State) (a m : Nat) : (s.orReg a m).hamper = s.hamper := rfl
@[simp] theorem orReg_di (s : State) (a m : Nat) : (s.orReg a m).di = s.di := rfl
@[simp] theorem orReg_dout (s : State) (a m : Nat) : (s.orReg a m).dout = s.dout := rfl
@[simp] theorem orReg_ao (s : State) (a m : Nat) : (s.orReg a m).ao = s.ao := rfl
@[simp] theorem orReg_supply (s : State) (a m : Nat) : (s.orReg a m).supply = s.supply := rfl
@[simp] theorem orReg_stime (s : State) (a m : Nat) : (s.orReg a m).stime = s.stime := rfl
@[simp] theorem orReg_pair (s : State) (a m : Nat) : (s.orReg a m).pair = s.pair := rfl
@[simp] theorem orReg_boot (s : State) (a m : Nat) : (s.orReg a m).boot = s.boot := rfl
@[simp] theorem orReg_mtr (s : State) (a m : Nat) : (s.orReg a m).mtr = s.mtr := rfl
@[simp] theorem orReg_ctl (s : State) (a m : Nat) : (s.orReg a m).ctl = s.ctl := rfl
@[simp] theorem orReg_sec (s : State) (a m : Nat) : (s.orReg a m).sec = s.sec := rfl
@[simp] theorem orReg_fab (s : State) (a m : Nat) : (s.orReg a m).fab = s.fab := rfl
@[simp] theorem orReg_bus (s : State) (a m : Nat) : (s.orReg a m).bus = s.bus := rfl
@[simp] theorem orReg_lcd (s : State) (a m : Nat) : (s.orReg a m).lcd = s.lcd := rfl
@[simp] theorem orReg_rtc (s : State) (a m : Nat) : (s.orReg a m).rtc = s.rtc := rfl
@[simp] theorem orReg_freeCtr (s : State) (a m : Nat) : (s.orReg a m).freeCtr = s.freeCtr := rfl

@[simp] theorem satRf_pending (s : State) (a hi lo k : Nat) : (s.satRf a hi lo k).pending = s.pending := rfl
@[simp] theorem satRf_shadows (s : State) (a hi lo k : Nat) : (s.satRf a hi lo k).shadows = s.shadows := rfl
@[simp] theorem satRf_mirror (s : State) (a hi lo k : Nat) : (s.satRf a hi lo k).mirror = s.mirror := rfl
@[simp] theorem satRf_data (s : State) (a hi lo k : Nat) : (s.satRf a hi lo k).data = s.data := rfl
@[simp] theorem satRf_logm (s : State) (a hi lo k : Nat) : (s.satRf a hi lo k).logm = s.logm := rfl
@[simp] theorem satRf_quem (s : State) (a hi lo k : Nat) : (s.satRf a hi lo k).quem = s.quem := rfl
@[simp] theorem satRf_code (s : State) (a hi lo k : Nat) : (s.satRf a hi lo k).code = s.code := rfl
@[simp] theorem satRf_feram (s : State) (a hi lo k : Nat) : (s.satRf a hi lo k).feram = s.feram := rfl
@[simp] theorem satRf_store (s : State) (a hi lo k : Nat) : (s.satRf a hi lo k).store = s.store := rfl
@[simp] theorem satRf_ecc (s : State) (a hi lo k : Nat) : (s.satRf a hi lo k).ecc = s.ecc := rfl
@[simp] theorem satRf_eng (s : State) (a hi lo k : Nat) : (s.satRf a hi lo k).eng = s.eng := rfl
@[simp] theorem satRf_image (s : State) (a hi lo k : Nat) : (s.satRf a hi lo k).image = s.image := rfl
@[simp] theorem satRf_qrd (s : State) (a hi lo k : Nat) : (s.satRf a hi lo k).qrd = s.qrd := rfl
@[simp] theorem satRf_qcell (s : State) (a hi lo k : Nat) : (s.satRf a hi lo k).qcell = s.qcell := rfl
@[simp] theorem satRf_ports (s : State) (a hi lo k : Nat) : (s.satRf a hi lo k).ports = s.ports := rfl
@[simp] theorem satRf_xcnt (s : State) (a hi lo k : Nat) : (s.satRf a hi lo k).xcnt = s.xcnt := rfl
@[simp] theorem satRf_host (s : State) (a hi lo k : Nat) : (s.satRf a hi lo k).host = s.host := rfl
@[simp] theorem satRf_logNext (s : State) (a hi lo k : Nat) : (s.satRf a hi lo k).logNext = s.logNext := rfl
@[simp] theorem satRf_logCompl (s : State) (a hi lo k : Nat) : (s.satRf a hi lo k).logCompl = s.logCompl := rfl
@[simp] theorem satRf_logCount (s : State) (a hi lo k : Nat) : (s.satRf a hi lo k).logCount = s.logCount := rfl
@[simp] theorem satRf_logged (s : State) (a hi lo k : Nat) : (s.satRf a hi lo k).logged = s.logged := rfl
@[simp] theorem satRf_hattn (s : State) (a hi lo k : Nat) : (s.satRf a hi lo k).hattn = s.hattn := rfl
@[simp] theorem satRf_opUs (s : State) (a hi lo k : Nat) : (s.satRf a hi lo k).opUs = s.opUs := rfl
@[simp] theorem satRf_pwrCyc (s : State) (a hi lo k : Nat) : (s.satRf a hi lo k).pwrCyc = s.pwrCyc := rfl
@[simp] theorem satRf_fabTime (s : State) (a hi lo k : Nat) : (s.satRf a hi lo k).fabTime = s.fabTime := rfl
@[simp] theorem satRf_hamper (s : State) (a hi lo k : Nat) : (s.satRf a hi lo k).hamper = s.hamper := rfl
@[simp] theorem satRf_di (s : State) (a hi lo k : Nat) : (s.satRf a hi lo k).di = s.di := rfl
@[simp] theorem satRf_dout (s : State) (a hi lo k : Nat) : (s.satRf a hi lo k).dout = s.dout := rfl
@[simp] theorem satRf_ao (s : State) (a hi lo k : Nat) : (s.satRf a hi lo k).ao = s.ao := rfl
@[simp] theorem satRf_supply (s : State) (a hi lo k : Nat) : (s.satRf a hi lo k).supply = s.supply := rfl
@[simp] theorem satRf_stime (s : State) (a hi lo k : Nat) : (s.satRf a hi lo k).stime = s.stime := rfl
@[simp] theorem satRf_pair (s : State) (a hi lo k : Nat) : (s.satRf a hi lo k).pair = s.pair := rfl
@[simp] theorem satRf_boot (s : State) (a hi lo k : Nat) : (s.satRf a hi lo k).boot = s.boot := rfl
@[simp] theorem satRf_mtr (s : State) (a hi lo k : Nat) : (s.satRf a hi lo k).mtr = s.mtr := rfl
@[simp] theorem satRf_ctl (s : State) (a hi lo k : Nat) : (s.satRf a hi lo k).ctl = s.ctl := rfl
@[simp] theorem satRf_sec (s : State) (a hi lo k : Nat) : (s.satRf a hi lo k).sec = s.sec := rfl
@[simp] theorem satRf_fab (s : State) (a hi lo k : Nat) : (s.satRf a hi lo k).fab = s.fab := rfl
@[simp] theorem satRf_bus (s : State) (a hi lo k : Nat) : (s.satRf a hi lo k).bus = s.bus := rfl
@[simp] theorem satRf_lcd (s : State) (a hi lo k : Nat) : (s.satRf a hi lo k).lcd = s.lcd := rfl
@[simp] theorem satRf_rtc (s : State) (a hi lo k : Nat) : (s.satRf a hi lo k).rtc = s.rtc := rfl
@[simp] theorem satRf_freeCtr (s : State) (a hi lo k : Nat) : (s.satRf a hi lo k).freeCtr = s.freeCtr := rfl

@[simp] theorem addReg_pending (s : State) (a k : Nat) : (s.addReg a k).pending = s.pending := rfl
@[simp] theorem addReg_shadows (s : State) (a k : Nat) : (s.addReg a k).shadows = s.shadows := rfl
@[simp] theorem addReg_mirror (s : State) (a k : Nat) : (s.addReg a k).mirror = s.mirror := rfl
@[simp] theorem addReg_data (s : State) (a k : Nat) : (s.addReg a k).data = s.data := rfl
@[simp] theorem addReg_logm (s : State) (a k : Nat) : (s.addReg a k).logm = s.logm := rfl
@[simp] theorem addReg_quem (s : State) (a k : Nat) : (s.addReg a k).quem = s.quem := rfl
@[simp] theorem addReg_code (s : State) (a k : Nat) : (s.addReg a k).code = s.code := rfl
@[simp] theorem addReg_feram (s : State) (a k : Nat) : (s.addReg a k).feram = s.feram := rfl
@[simp] theorem addReg_store (s : State) (a k : Nat) : (s.addReg a k).store = s.store := rfl
@[simp] theorem addReg_ecc (s : State) (a k : Nat) : (s.addReg a k).ecc = s.ecc := rfl
@[simp] theorem addReg_eng (s : State) (a k : Nat) : (s.addReg a k).eng = s.eng := rfl
@[simp] theorem addReg_image (s : State) (a k : Nat) : (s.addReg a k).image = s.image := rfl
@[simp] theorem addReg_qrd (s : State) (a k : Nat) : (s.addReg a k).qrd = s.qrd := rfl
@[simp] theorem addReg_qcell (s : State) (a k : Nat) : (s.addReg a k).qcell = s.qcell := rfl
@[simp] theorem addReg_ports (s : State) (a k : Nat) : (s.addReg a k).ports = s.ports := rfl
@[simp] theorem addReg_xcnt (s : State) (a k : Nat) : (s.addReg a k).xcnt = s.xcnt := rfl
@[simp] theorem addReg_host (s : State) (a k : Nat) : (s.addReg a k).host = s.host := rfl
@[simp] theorem addReg_logNext (s : State) (a k : Nat) : (s.addReg a k).logNext = s.logNext := rfl
@[simp] theorem addReg_logCompl (s : State) (a k : Nat) : (s.addReg a k).logCompl = s.logCompl := rfl
@[simp] theorem addReg_logCount (s : State) (a k : Nat) : (s.addReg a k).logCount = s.logCount := rfl
@[simp] theorem addReg_logged (s : State) (a k : Nat) : (s.addReg a k).logged = s.logged := rfl
@[simp] theorem addReg_hattn (s : State) (a k : Nat) : (s.addReg a k).hattn = s.hattn := rfl
@[simp] theorem addReg_opUs (s : State) (a k : Nat) : (s.addReg a k).opUs = s.opUs := rfl
@[simp] theorem addReg_pwrCyc (s : State) (a k : Nat) : (s.addReg a k).pwrCyc = s.pwrCyc := rfl
@[simp] theorem addReg_fabTime (s : State) (a k : Nat) : (s.addReg a k).fabTime = s.fabTime := rfl
@[simp] theorem addReg_hamper (s : State) (a k : Nat) : (s.addReg a k).hamper = s.hamper := rfl
@[simp] theorem addReg_di (s : State) (a k : Nat) : (s.addReg a k).di = s.di := rfl
@[simp] theorem addReg_dout (s : State) (a k : Nat) : (s.addReg a k).dout = s.dout := rfl
@[simp] theorem addReg_ao (s : State) (a k : Nat) : (s.addReg a k).ao = s.ao := rfl
@[simp] theorem addReg_supply (s : State) (a k : Nat) : (s.addReg a k).supply = s.supply := rfl
@[simp] theorem addReg_stime (s : State) (a k : Nat) : (s.addReg a k).stime = s.stime := rfl
@[simp] theorem addReg_pair (s : State) (a k : Nat) : (s.addReg a k).pair = s.pair := rfl
@[simp] theorem addReg_boot (s : State) (a k : Nat) : (s.addReg a k).boot = s.boot := rfl
@[simp] theorem addReg_mtr (s : State) (a k : Nat) : (s.addReg a k).mtr = s.mtr := rfl
@[simp] theorem addReg_ctl (s : State) (a k : Nat) : (s.addReg a k).ctl = s.ctl := rfl
@[simp] theorem addReg_sec (s : State) (a k : Nat) : (s.addReg a k).sec = s.sec := rfl
@[simp] theorem addReg_fab (s : State) (a k : Nat) : (s.addReg a k).fab = s.fab := rfl
@[simp] theorem addReg_bus (s : State) (a k : Nat) : (s.addReg a k).bus = s.bus := rfl
@[simp] theorem addReg_lcd (s : State) (a k : Nat) : (s.addReg a k).lcd = s.lcd := rfl
@[simp] theorem addReg_rtc (s : State) (a k : Nat) : (s.addReg a k).rtc = s.rtc := rfl
@[simp] theorem addReg_freeCtr (s : State) (a k : Nat) : (s.addReg a k).freeCtr = s.freeCtr := rfl

@[simp] theorem setShadow_pending (s : State) (a : Nat) (v : Word) : (s.setShadow a v).pending = s.pending := rfl
@[simp] theorem setShadow_regs (s : State) (a : Nat) (v : Word) : (s.setShadow a v).regs = s.regs := rfl
@[simp] theorem setShadow_mirror (s : State) (a : Nat) (v : Word) : (s.setShadow a v).mirror = s.mirror := rfl
@[simp] theorem setShadow_data (s : State) (a : Nat) (v : Word) : (s.setShadow a v).data = s.data := rfl
@[simp] theorem setShadow_logm (s : State) (a : Nat) (v : Word) : (s.setShadow a v).logm = s.logm := rfl
@[simp] theorem setShadow_quem (s : State) (a : Nat) (v : Word) : (s.setShadow a v).quem = s.quem := rfl
@[simp] theorem setShadow_code (s : State) (a : Nat) (v : Word) : (s.setShadow a v).code = s.code := rfl
@[simp] theorem setShadow_feram (s : State) (a : Nat) (v : Word) : (s.setShadow a v).feram = s.feram := rfl
@[simp] theorem setShadow_store (s : State) (a : Nat) (v : Word) : (s.setShadow a v).store = s.store := rfl
@[simp] theorem setShadow_ecc (s : State) (a : Nat) (v : Word) : (s.setShadow a v).ecc = s.ecc := rfl
@[simp] theorem setShadow_eng (s : State) (a : Nat) (v : Word) : (s.setShadow a v).eng = s.eng := rfl
@[simp] theorem setShadow_image (s : State) (a : Nat) (v : Word) : (s.setShadow a v).image = s.image := rfl
@[simp] theorem setShadow_qrd (s : State) (a : Nat) (v : Word) : (s.setShadow a v).qrd = s.qrd := rfl
@[simp] theorem setShadow_qcell (s : State) (a : Nat) (v : Word) : (s.setShadow a v).qcell = s.qcell := rfl
@[simp] theorem setShadow_ports (s : State) (a : Nat) (v : Word) : (s.setShadow a v).ports = s.ports := rfl
@[simp] theorem setShadow_xcnt (s : State) (a : Nat) (v : Word) : (s.setShadow a v).xcnt = s.xcnt := rfl
@[simp] theorem setShadow_host (s : State) (a : Nat) (v : Word) : (s.setShadow a v).host = s.host := rfl
@[simp] theorem setShadow_logNext (s : State) (a : Nat) (v : Word) : (s.setShadow a v).logNext = s.logNext := rfl
@[simp] theorem setShadow_logCompl (s : State) (a : Nat) (v : Word) : (s.setShadow a v).logCompl = s.logCompl := rfl
@[simp] theorem setShadow_logCount (s : State) (a : Nat) (v : Word) : (s.setShadow a v).logCount = s.logCount := rfl
@[simp] theorem setShadow_logged (s : State) (a : Nat) (v : Word) : (s.setShadow a v).logged = s.logged := rfl
@[simp] theorem setShadow_hattn (s : State) (a : Nat) (v : Word) : (s.setShadow a v).hattn = s.hattn := rfl
@[simp] theorem setShadow_opUs (s : State) (a : Nat) (v : Word) : (s.setShadow a v).opUs = s.opUs := rfl
@[simp] theorem setShadow_pwrCyc (s : State) (a : Nat) (v : Word) : (s.setShadow a v).pwrCyc = s.pwrCyc := rfl
@[simp] theorem setShadow_fabTime (s : State) (a : Nat) (v : Word) : (s.setShadow a v).fabTime = s.fabTime := rfl
@[simp] theorem setShadow_hamper (s : State) (a : Nat) (v : Word) : (s.setShadow a v).hamper = s.hamper := rfl
@[simp] theorem setShadow_di (s : State) (a : Nat) (v : Word) : (s.setShadow a v).di = s.di := rfl
@[simp] theorem setShadow_dout (s : State) (a : Nat) (v : Word) : (s.setShadow a v).dout = s.dout := rfl
@[simp] theorem setShadow_ao (s : State) (a : Nat) (v : Word) : (s.setShadow a v).ao = s.ao := rfl
@[simp] theorem setShadow_supply (s : State) (a : Nat) (v : Word) : (s.setShadow a v).supply = s.supply := rfl
@[simp] theorem setShadow_stime (s : State) (a : Nat) (v : Word) : (s.setShadow a v).stime = s.stime := rfl
@[simp] theorem setShadow_pair (s : State) (a : Nat) (v : Word) : (s.setShadow a v).pair = s.pair := rfl
@[simp] theorem setShadow_boot (s : State) (a : Nat) (v : Word) : (s.setShadow a v).boot = s.boot := rfl
@[simp] theorem setShadow_mtr (s : State) (a : Nat) (v : Word) : (s.setShadow a v).mtr = s.mtr := rfl
@[simp] theorem setShadow_ctl (s : State) (a : Nat) (v : Word) : (s.setShadow a v).ctl = s.ctl := rfl
@[simp] theorem setShadow_sec (s : State) (a : Nat) (v : Word) : (s.setShadow a v).sec = s.sec := rfl
@[simp] theorem setShadow_fab (s : State) (a : Nat) (v : Word) : (s.setShadow a v).fab = s.fab := rfl
@[simp] theorem setShadow_bus (s : State) (a : Nat) (v : Word) : (s.setShadow a v).bus = s.bus := rfl
@[simp] theorem setShadow_lcd (s : State) (a : Nat) (v : Word) : (s.setShadow a v).lcd = s.lcd := rfl
@[simp] theorem setShadow_rtc (s : State) (a : Nat) (v : Word) : (s.setShadow a v).rtc = s.rtc := rfl
@[simp] theorem setShadow_freeCtr (s : State) (a : Nat) (v : Word) : (s.setShadow a v).freeCtr = s.freeCtr := rfl

@[simp] theorem setEcc_pending (s : State) (mem unit : Nat) (e : Ecc) : (s.setEcc mem unit e).pending = s.pending := rfl
@[simp] theorem setEcc_regs (s : State) (mem unit : Nat) (e : Ecc) : (s.setEcc mem unit e).regs = s.regs := rfl
@[simp] theorem setEcc_shadows (s : State) (mem unit : Nat) (e : Ecc) : (s.setEcc mem unit e).shadows = s.shadows := rfl
@[simp] theorem setEcc_mirror (s : State) (mem unit : Nat) (e : Ecc) : (s.setEcc mem unit e).mirror = s.mirror := rfl
@[simp] theorem setEcc_data (s : State) (mem unit : Nat) (e : Ecc) : (s.setEcc mem unit e).data = s.data := rfl
@[simp] theorem setEcc_logm (s : State) (mem unit : Nat) (e : Ecc) : (s.setEcc mem unit e).logm = s.logm := rfl
@[simp] theorem setEcc_quem (s : State) (mem unit : Nat) (e : Ecc) : (s.setEcc mem unit e).quem = s.quem := rfl
@[simp] theorem setEcc_code (s : State) (mem unit : Nat) (e : Ecc) : (s.setEcc mem unit e).code = s.code := rfl
@[simp] theorem setEcc_feram (s : State) (mem unit : Nat) (e : Ecc) : (s.setEcc mem unit e).feram = s.feram := rfl
@[simp] theorem setEcc_store (s : State) (mem unit : Nat) (e : Ecc) : (s.setEcc mem unit e).store = s.store := rfl
@[simp] theorem setEcc_eng (s : State) (mem unit : Nat) (e : Ecc) : (s.setEcc mem unit e).eng = s.eng := rfl
@[simp] theorem setEcc_image (s : State) (mem unit : Nat) (e : Ecc) : (s.setEcc mem unit e).image = s.image := rfl
@[simp] theorem setEcc_qrd (s : State) (mem unit : Nat) (e : Ecc) : (s.setEcc mem unit e).qrd = s.qrd := rfl
@[simp] theorem setEcc_qcell (s : State) (mem unit : Nat) (e : Ecc) : (s.setEcc mem unit e).qcell = s.qcell := rfl
@[simp] theorem setEcc_ports (s : State) (mem unit : Nat) (e : Ecc) : (s.setEcc mem unit e).ports = s.ports := rfl
@[simp] theorem setEcc_xcnt (s : State) (mem unit : Nat) (e : Ecc) : (s.setEcc mem unit e).xcnt = s.xcnt := rfl
@[simp] theorem setEcc_host (s : State) (mem unit : Nat) (e : Ecc) : (s.setEcc mem unit e).host = s.host := rfl
@[simp] theorem setEcc_logNext (s : State) (mem unit : Nat) (e : Ecc) : (s.setEcc mem unit e).logNext = s.logNext := rfl
@[simp] theorem setEcc_logCompl (s : State) (mem unit : Nat) (e : Ecc) : (s.setEcc mem unit e).logCompl = s.logCompl := rfl
@[simp] theorem setEcc_logCount (s : State) (mem unit : Nat) (e : Ecc) : (s.setEcc mem unit e).logCount = s.logCount := rfl
@[simp] theorem setEcc_logged (s : State) (mem unit : Nat) (e : Ecc) : (s.setEcc mem unit e).logged = s.logged := rfl
@[simp] theorem setEcc_hattn (s : State) (mem unit : Nat) (e : Ecc) : (s.setEcc mem unit e).hattn = s.hattn := rfl
@[simp] theorem setEcc_opUs (s : State) (mem unit : Nat) (e : Ecc) : (s.setEcc mem unit e).opUs = s.opUs := rfl
@[simp] theorem setEcc_pwrCyc (s : State) (mem unit : Nat) (e : Ecc) : (s.setEcc mem unit e).pwrCyc = s.pwrCyc := rfl
@[simp] theorem setEcc_fabTime (s : State) (mem unit : Nat) (e : Ecc) : (s.setEcc mem unit e).fabTime = s.fabTime := rfl
@[simp] theorem setEcc_hamper (s : State) (mem unit : Nat) (e : Ecc) : (s.setEcc mem unit e).hamper = s.hamper := rfl
@[simp] theorem setEcc_di (s : State) (mem unit : Nat) (e : Ecc) : (s.setEcc mem unit e).di = s.di := rfl
@[simp] theorem setEcc_dout (s : State) (mem unit : Nat) (e : Ecc) : (s.setEcc mem unit e).dout = s.dout := rfl
@[simp] theorem setEcc_ao (s : State) (mem unit : Nat) (e : Ecc) : (s.setEcc mem unit e).ao = s.ao := rfl
@[simp] theorem setEcc_supply (s : State) (mem unit : Nat) (e : Ecc) : (s.setEcc mem unit e).supply = s.supply := rfl
@[simp] theorem setEcc_stime (s : State) (mem unit : Nat) (e : Ecc) : (s.setEcc mem unit e).stime = s.stime := rfl
@[simp] theorem setEcc_pair (s : State) (mem unit : Nat) (e : Ecc) : (s.setEcc mem unit e).pair = s.pair := rfl
@[simp] theorem setEcc_boot (s : State) (mem unit : Nat) (e : Ecc) : (s.setEcc mem unit e).boot = s.boot := rfl
@[simp] theorem setEcc_mtr (s : State) (mem unit : Nat) (e : Ecc) : (s.setEcc mem unit e).mtr = s.mtr := rfl
@[simp] theorem setEcc_ctl (s : State) (mem unit : Nat) (e : Ecc) : (s.setEcc mem unit e).ctl = s.ctl := rfl
@[simp] theorem setEcc_sec (s : State) (mem unit : Nat) (e : Ecc) : (s.setEcc mem unit e).sec = s.sec := rfl
@[simp] theorem setEcc_fab (s : State) (mem unit : Nat) (e : Ecc) : (s.setEcc mem unit e).fab = s.fab := rfl
@[simp] theorem setEcc_bus (s : State) (mem unit : Nat) (e : Ecc) : (s.setEcc mem unit e).bus = s.bus := rfl
@[simp] theorem setEcc_lcd (s : State) (mem unit : Nat) (e : Ecc) : (s.setEcc mem unit e).lcd = s.lcd := rfl
@[simp] theorem setEcc_rtc (s : State) (mem unit : Nat) (e : Ecc) : (s.setEcc mem unit e).rtc = s.rtc := rfl
@[simp] theorem setEcc_freeCtr (s : State) (mem unit : Nat) (e : Ecc) : (s.setEcc mem unit e).freeCtr = s.freeCtr := rfl

@[simp] theorem setPort_pending (s : State) (p : Nat) (x : Port) : (s.setPort p x).pending = s.pending := rfl
@[simp] theorem setPort_regs (s : State) (p : Nat) (x : Port) : (s.setPort p x).regs = s.regs := rfl
@[simp] theorem setPort_shadows (s : State) (p : Nat) (x : Port) : (s.setPort p x).shadows = s.shadows := rfl
@[simp] theorem setPort_mirror (s : State) (p : Nat) (x : Port) : (s.setPort p x).mirror = s.mirror := rfl
@[simp] theorem setPort_data (s : State) (p : Nat) (x : Port) : (s.setPort p x).data = s.data := rfl
@[simp] theorem setPort_logm (s : State) (p : Nat) (x : Port) : (s.setPort p x).logm = s.logm := rfl
@[simp] theorem setPort_quem (s : State) (p : Nat) (x : Port) : (s.setPort p x).quem = s.quem := rfl
@[simp] theorem setPort_code (s : State) (p : Nat) (x : Port) : (s.setPort p x).code = s.code := rfl
@[simp] theorem setPort_feram (s : State) (p : Nat) (x : Port) : (s.setPort p x).feram = s.feram := rfl
@[simp] theorem setPort_store (s : State) (p : Nat) (x : Port) : (s.setPort p x).store = s.store := rfl
@[simp] theorem setPort_ecc (s : State) (p : Nat) (x : Port) : (s.setPort p x).ecc = s.ecc := rfl
@[simp] theorem setPort_eng (s : State) (p : Nat) (x : Port) : (s.setPort p x).eng = s.eng := rfl
@[simp] theorem setPort_image (s : State) (p : Nat) (x : Port) : (s.setPort p x).image = s.image := rfl
@[simp] theorem setPort_qrd (s : State) (p : Nat) (x : Port) : (s.setPort p x).qrd = s.qrd := rfl
@[simp] theorem setPort_qcell (s : State) (p : Nat) (x : Port) : (s.setPort p x).qcell = s.qcell := rfl
@[simp] theorem setPort_xcnt (s : State) (p : Nat) (x : Port) : (s.setPort p x).xcnt = s.xcnt := rfl
@[simp] theorem setPort_host (s : State) (p : Nat) (x : Port) : (s.setPort p x).host = s.host := rfl
@[simp] theorem setPort_logNext (s : State) (p : Nat) (x : Port) : (s.setPort p x).logNext = s.logNext := rfl
@[simp] theorem setPort_logCompl (s : State) (p : Nat) (x : Port) : (s.setPort p x).logCompl = s.logCompl := rfl
@[simp] theorem setPort_logCount (s : State) (p : Nat) (x : Port) : (s.setPort p x).logCount = s.logCount := rfl
@[simp] theorem setPort_logged (s : State) (p : Nat) (x : Port) : (s.setPort p x).logged = s.logged := rfl
@[simp] theorem setPort_hattn (s : State) (p : Nat) (x : Port) : (s.setPort p x).hattn = s.hattn := rfl
@[simp] theorem setPort_opUs (s : State) (p : Nat) (x : Port) : (s.setPort p x).opUs = s.opUs := rfl
@[simp] theorem setPort_pwrCyc (s : State) (p : Nat) (x : Port) : (s.setPort p x).pwrCyc = s.pwrCyc := rfl
@[simp] theorem setPort_fabTime (s : State) (p : Nat) (x : Port) : (s.setPort p x).fabTime = s.fabTime := rfl
@[simp] theorem setPort_hamper (s : State) (p : Nat) (x : Port) : (s.setPort p x).hamper = s.hamper := rfl
@[simp] theorem setPort_di (s : State) (p : Nat) (x : Port) : (s.setPort p x).di = s.di := rfl
@[simp] theorem setPort_dout (s : State) (p : Nat) (x : Port) : (s.setPort p x).dout = s.dout := rfl
@[simp] theorem setPort_ao (s : State) (p : Nat) (x : Port) : (s.setPort p x).ao = s.ao := rfl
@[simp] theorem setPort_supply (s : State) (p : Nat) (x : Port) : (s.setPort p x).supply = s.supply := rfl
@[simp] theorem setPort_stime (s : State) (p : Nat) (x : Port) : (s.setPort p x).stime = s.stime := rfl
@[simp] theorem setPort_pair (s : State) (p : Nat) (x : Port) : (s.setPort p x).pair = s.pair := rfl
@[simp] theorem setPort_boot (s : State) (p : Nat) (x : Port) : (s.setPort p x).boot = s.boot := rfl
@[simp] theorem setPort_mtr (s : State) (p : Nat) (x : Port) : (s.setPort p x).mtr = s.mtr := rfl
@[simp] theorem setPort_ctl (s : State) (p : Nat) (x : Port) : (s.setPort p x).ctl = s.ctl := rfl
@[simp] theorem setPort_sec (s : State) (p : Nat) (x : Port) : (s.setPort p x).sec = s.sec := rfl
@[simp] theorem setPort_fab (s : State) (p : Nat) (x : Port) : (s.setPort p x).fab = s.fab := rfl
@[simp] theorem setPort_bus (s : State) (p : Nat) (x : Port) : (s.setPort p x).bus = s.bus := rfl
@[simp] theorem setPort_lcd (s : State) (p : Nat) (x : Port) : (s.setPort p x).lcd = s.lcd := rfl
@[simp] theorem setPort_rtc (s : State) (p : Nat) (x : Port) : (s.setPort p x).rtc = s.rtc := rfl
@[simp] theorem setPort_freeCtr (s : State) (p : Nat) (x : Port) : (s.setPort p x).freeCtr = s.freeCtr := rfl

@[simp] theorem free_pending (s : State) : s.free.2.pending = s.pending := rfl
@[simp] theorem free_regs (s : State) : s.free.2.regs = s.regs := rfl
@[simp] theorem free_shadows (s : State) : s.free.2.shadows = s.shadows := rfl
@[simp] theorem free_mirror (s : State) : s.free.2.mirror = s.mirror := rfl
@[simp] theorem free_data (s : State) : s.free.2.data = s.data := rfl
@[simp] theorem free_logm (s : State) : s.free.2.logm = s.logm := rfl
@[simp] theorem free_quem (s : State) : s.free.2.quem = s.quem := rfl
@[simp] theorem free_code (s : State) : s.free.2.code = s.code := rfl
@[simp] theorem free_feram (s : State) : s.free.2.feram = s.feram := rfl
@[simp] theorem free_store (s : State) : s.free.2.store = s.store := rfl
@[simp] theorem free_ecc (s : State) : s.free.2.ecc = s.ecc := rfl
@[simp] theorem free_eng (s : State) : s.free.2.eng = s.eng := rfl
@[simp] theorem free_image (s : State) : s.free.2.image = s.image := rfl
@[simp] theorem free_qrd (s : State) : s.free.2.qrd = s.qrd := rfl
@[simp] theorem free_qcell (s : State) : s.free.2.qcell = s.qcell := rfl
@[simp] theorem free_ports (s : State) : s.free.2.ports = s.ports := rfl
@[simp] theorem free_xcnt (s : State) : s.free.2.xcnt = s.xcnt := rfl
@[simp] theorem free_host (s : State) : s.free.2.host = s.host := rfl
@[simp] theorem free_logNext (s : State) : s.free.2.logNext = s.logNext := rfl
@[simp] theorem free_logCompl (s : State) : s.free.2.logCompl = s.logCompl := rfl
@[simp] theorem free_logCount (s : State) : s.free.2.logCount = s.logCount := rfl
@[simp] theorem free_logged (s : State) : s.free.2.logged = s.logged := rfl
@[simp] theorem free_hattn (s : State) : s.free.2.hattn = s.hattn := rfl
@[simp] theorem free_opUs (s : State) : s.free.2.opUs = s.opUs := rfl
@[simp] theorem free_pwrCyc (s : State) : s.free.2.pwrCyc = s.pwrCyc := rfl
@[simp] theorem free_fabTime (s : State) : s.free.2.fabTime = s.fabTime := rfl
@[simp] theorem free_hamper (s : State) : s.free.2.hamper = s.hamper := rfl
@[simp] theorem free_di (s : State) : s.free.2.di = s.di := rfl
@[simp] theorem free_dout (s : State) : s.free.2.dout = s.dout := rfl
@[simp] theorem free_ao (s : State) : s.free.2.ao = s.ao := rfl
@[simp] theorem free_supply (s : State) : s.free.2.supply = s.supply := rfl
@[simp] theorem free_stime (s : State) : s.free.2.stime = s.stime := rfl
@[simp] theorem free_pair (s : State) : s.free.2.pair = s.pair := rfl
@[simp] theorem free_boot (s : State) : s.free.2.boot = s.boot := rfl
@[simp] theorem free_mtr (s : State) : s.free.2.mtr = s.mtr := rfl
@[simp] theorem free_ctl (s : State) : s.free.2.ctl = s.ctl := rfl
@[simp] theorem free_sec (s : State) : s.free.2.sec = s.sec := rfl
@[simp] theorem free_fab (s : State) : s.free.2.fab = s.fab := rfl
@[simp] theorem free_bus (s : State) : s.free.2.bus = s.bus := rfl
@[simp] theorem free_lcd (s : State) : s.free.2.lcd = s.lcd := rfl
@[simp] theorem free_rtc (s : State) : s.free.2.rtc = s.rtc := rfl
@[simp] theorem result_pending (s : State) (i : Issue) (lat d : Nat) (v : Word) : (s.result i lat d v).pending = s.pending := rfl
@[simp] theorem result_regs (s : State) (i : Issue) (lat d : Nat) (v : Word) : (s.result i lat d v).regs = s.regs := rfl
@[simp] theorem result_shadows (s : State) (i : Issue) (lat d : Nat) (v : Word) : (s.result i lat d v).shadows = s.shadows := rfl
@[simp] theorem result_mirror (s : State) (i : Issue) (lat d : Nat) (v : Word) : (s.result i lat d v).mirror = s.mirror := rfl
@[simp] theorem result_data (s : State) (i : Issue) (lat d : Nat) (v : Word) : (s.result i lat d v).data = s.data := rfl
@[simp] theorem result_logm (s : State) (i : Issue) (lat d : Nat) (v : Word) : (s.result i lat d v).logm = s.logm := rfl
@[simp] theorem result_quem (s : State) (i : Issue) (lat d : Nat) (v : Word) : (s.result i lat d v).quem = s.quem := rfl
@[simp] theorem result_code (s : State) (i : Issue) (lat d : Nat) (v : Word) : (s.result i lat d v).code = s.code := rfl
@[simp] theorem result_feram (s : State) (i : Issue) (lat d : Nat) (v : Word) : (s.result i lat d v).feram = s.feram := rfl
@[simp] theorem result_store (s : State) (i : Issue) (lat d : Nat) (v : Word) : (s.result i lat d v).store = s.store := rfl
@[simp] theorem result_ecc (s : State) (i : Issue) (lat d : Nat) (v : Word) : (s.result i lat d v).ecc = s.ecc := rfl
@[simp] theorem result_image (s : State) (i : Issue) (lat d : Nat) (v : Word) : (s.result i lat d v).image = s.image := rfl
@[simp] theorem result_qrd (s : State) (i : Issue) (lat d : Nat) (v : Word) : (s.result i lat d v).qrd = s.qrd := rfl
@[simp] theorem result_qcell (s : State) (i : Issue) (lat d : Nat) (v : Word) : (s.result i lat d v).qcell = s.qcell := rfl
@[simp] theorem result_ports (s : State) (i : Issue) (lat d : Nat) (v : Word) : (s.result i lat d v).ports = s.ports := rfl
@[simp] theorem result_xcnt (s : State) (i : Issue) (lat d : Nat) (v : Word) : (s.result i lat d v).xcnt = s.xcnt := rfl
@[simp] theorem result_host (s : State) (i : Issue) (lat d : Nat) (v : Word) : (s.result i lat d v).host = s.host := rfl
@[simp] theorem result_logNext (s : State) (i : Issue) (lat d : Nat) (v : Word) : (s.result i lat d v).logNext = s.logNext := rfl
@[simp] theorem result_logCompl (s : State) (i : Issue) (lat d : Nat) (v : Word) : (s.result i lat d v).logCompl = s.logCompl := rfl
@[simp] theorem result_logCount (s : State) (i : Issue) (lat d : Nat) (v : Word) : (s.result i lat d v).logCount = s.logCount := rfl
@[simp] theorem result_logged (s : State) (i : Issue) (lat d : Nat) (v : Word) : (s.result i lat d v).logged = s.logged := rfl
@[simp] theorem result_hattn (s : State) (i : Issue) (lat d : Nat) (v : Word) : (s.result i lat d v).hattn = s.hattn := rfl
@[simp] theorem result_opUs (s : State) (i : Issue) (lat d : Nat) (v : Word) : (s.result i lat d v).opUs = s.opUs := rfl
@[simp] theorem result_pwrCyc (s : State) (i : Issue) (lat d : Nat) (v : Word) : (s.result i lat d v).pwrCyc = s.pwrCyc := rfl
@[simp] theorem result_fabTime (s : State) (i : Issue) (lat d : Nat) (v : Word) : (s.result i lat d v).fabTime = s.fabTime := rfl
@[simp] theorem result_hamper (s : State) (i : Issue) (lat d : Nat) (v : Word) : (s.result i lat d v).hamper = s.hamper := rfl
@[simp] theorem result_di (s : State) (i : Issue) (lat d : Nat) (v : Word) : (s.result i lat d v).di = s.di := rfl
@[simp] theorem result_dout (s : State) (i : Issue) (lat d : Nat) (v : Word) : (s.result i lat d v).dout = s.dout := rfl
@[simp] theorem result_ao (s : State) (i : Issue) (lat d : Nat) (v : Word) : (s.result i lat d v).ao = s.ao := rfl
@[simp] theorem result_supply (s : State) (i : Issue) (lat d : Nat) (v : Word) : (s.result i lat d v).supply = s.supply := rfl
@[simp] theorem result_stime (s : State) (i : Issue) (lat d : Nat) (v : Word) : (s.result i lat d v).stime = s.stime := rfl
@[simp] theorem result_pair (s : State) (i : Issue) (lat d : Nat) (v : Word) : (s.result i lat d v).pair = s.pair := rfl
@[simp] theorem result_boot (s : State) (i : Issue) (lat d : Nat) (v : Word) : (s.result i lat d v).boot = s.boot := rfl
@[simp] theorem result_mtr (s : State) (i : Issue) (lat d : Nat) (v : Word) : (s.result i lat d v).mtr = s.mtr := rfl
@[simp] theorem result_ctl (s : State) (i : Issue) (lat d : Nat) (v : Word) : (s.result i lat d v).ctl = s.ctl := rfl
@[simp] theorem result_sec (s : State) (i : Issue) (lat d : Nat) (v : Word) : (s.result i lat d v).sec = s.sec := rfl
@[simp] theorem result_fab (s : State) (i : Issue) (lat d : Nat) (v : Word) : (s.result i lat d v).fab = s.fab := rfl
@[simp] theorem result_bus (s : State) (i : Issue) (lat d : Nat) (v : Word) : (s.result i lat d v).bus = s.bus := rfl
@[simp] theorem result_lcd (s : State) (i : Issue) (lat d : Nat) (v : Word) : (s.result i lat d v).lcd = s.lcd := rfl
@[simp] theorem result_rtc (s : State) (i : Issue) (lat d : Nat) (v : Word) : (s.result i lat d v).rtc = s.rtc := rfl
@[simp] theorem result_freeCtr (s : State) (i : Issue) (lat d : Nat) (v : Word) : (s.result i lat d v).freeCtr = s.freeCtr := rfl

end Sys2Proof.Machine
end

