-- ==== Sys2Proof/Tests/Slice0.lean ====
section
/-! SUPPORT. Own tests: an ill-formed command for each operand rule, worked examples of the spec, and for each clause of the
statements a state and operands that meet its hypotheses together. -/

namespace Sys2Proof.Machine

set_option Elab.async false
set_option linter.unusedVariables false

/-! ## States to start from -/

/-- Reset. -/
def w0 : State := State.reset
/-- Released, minor cycles running. -/
def w1 : State := (({ State.reset with eng := { State.reset.eng with released := true } }).setReg Reg.tteStat 1#32).setRf Reg.sysStat 3 0 7
/-- Path-table entry p of copy A. -/
def withEntry (p v : Nat) (s : State) : State := { s with code := memPut s.code (ptabAddr false p) (leBytes 16 v) }
/-- The hamper changed by f. -/
def withHamper (f : Hamper → Hamper) (s : State) : State := { s with hamper := f s.hamper }
/-- The start's state changed by f. -/
def withBoot (f : Boot → Boot) (s : State) : State := { s with boot := f s.boot }
/-- The security state changed by f. -/
def withSec (f : Sec → Sec) (s : State) : State := { s with sec := f s.sec }
/-- DI island g powered, changed by f. -/
def withDi (g : Nat) (f : DiIsland → DiIsland) (s : State) : State := s.setDi g (f { di0 with powered := true })
/-- DO island h powered, changed by f. -/
def withDo (h : Nat) (f : DoIsland → DoIsland) (s : State) : State := s.setDo h (f { do0 with powered := true })
/-- Channel c of analogue island a, powered, changed by f. -/
def withAo (a c : Nat) (f : AoCh → AoCh) (s : State) : State :=
  s.setAo a (({ ao0 with powered := true, ch := [(0, { aoCh0 with got := 62 }), (1, { aoCh0 with got := 62 }), (2, { aoCh0 with got := 62 }), (3, { aoCh0 with got := 62 })] } : AoIsland).setChan c (f { aoCh0 with got := 62 }))
/-- The image's sample entries. -/
def withSamples (l : List SampleEntry) (s : State) : State := { s with image := { s.image with samples := l } }
/-- The metering state changed by f. -/
def withMtr (f : Mtr → Mtr) (s : State) : State := { s with mtr := f s.mtr }
/-- The control state changed by f. -/
def withCtl (f : Ctl → Ctl) (s : State) : State := { s with ctl := f s.ctl }
/-- Queue q with `size` cells from 0, ends `ends`. -/
def withQueue (q size : Nat) (ends : Word) (s : State) : State := (s.setReg (Reg.queQCfg q) (w32 (size * 65536))).setReg (Reg.queQEnds q) ends
/-- A loop slot 1: mode, PV point 5, output point 6, fresh points. -/
def loopState (mode : Nat) : State :=
  (fun s : State => { s with eng := { s.eng with starts := [(0, 1)] } }) <| setPt (setPt ((((w1.setReg (Reg.ctlLpSched 1) 0x80000000#32).setReg (Reg.ctlLpCfg 1) (w32 (mode + 65536))).setReg (Reg.ctlLpPta 1) 0x60005#32).setReg (Reg.ctlLpLim 1) 5#32) 5 1 16#32) 5 0 0x3F800000#32
/-- Link l in a state. -/
def withLink (l st : Nat) (s : State) : State := s.setRf (Reg.fabLkStat l) 2 0 st
/-- The fabric state changed by f. -/
def withFab (f : Fab → Fab) (s : State) : State := { s with fab := f s.fab }
/-- A class S cell of TYPE 0x10 for module 0x0203. -/
def cellS : List Word := [0x01020203#32, 0x20100000#32, 0#32] ++ List.replicate 13 0#32
/-- A TIME cell, with its CRC. -/
def cellT : List Word := cellLine ([0x0102FFFF#32, 0x20030001#32, 0#32] ++ List.replicate 12 0#32)
/-- A queue of 64 words whose first 16 words hold a cell. -/
def withCell (q : Nat) (ends : Word) (ws : List Word) (s : State) : State := qPushAll (withQueue q 64 ends s) (fld ends 15 0) q ws
/-- A transfer in progress: two chunks of a slot, none stored. -/
def xf : Xfer := { id := 9, slot := 1, bodyLen := 100000, total := 2, byHost := false, early := false, same := false, hdr := true, stored := [], got := [], nacks := [], buf := [], unacked := [(1, [3])], sent := [], link := none }
/-- A PARCEL cell of transfer 9: chunk and index. -/
def cellP (chunk index : Nat) : List Word := [0x0102FFFF#32, 0x20400003#32, 0#32, 9#32, w32 (chunk + 65536 * index)] ++ List.replicate 11 5#32
/-- A remote register access cell of a TYPE with its words. -/
def cellRra (type : Nat) (ws : List Word) : List Word := [0x01020304#32, w32 (0x20000006 + type * 65536), 0#32] ++ ws ++ List.replicate (13 - ws.length) 0#32
/-- A transfer in progress, its header stored in slot B. -/
def withXfer (x : Xfer) (s : State) : State :=
  { s with store := memPut s.store (slotBase 1 + 0x0C) (leBytes 4 65616), sec := { s.sec with xfer := some x } }
/-- Channel 1 of a powered island: CTRL, and what else it holds. -/
def withCan (ctl : Nat) (f : Can → Can) (s : State) : State :=
  ({ s with bus := { s.bus with powered := true } }).setCan 1 (f { can0 with mode := 0, cfgd := true, cur := [(Reg.canChCtrl 1, w32 ctl)] })
/-- Port 1 of a powered island. -/
def withMac (ctl : Nat) (f : Mac → Mac) (s : State) : State :=
  ({ s with bus := { s.bus with powered := true } }).setMac 1 (f { mac0 with cfgd := true, cur := [(Reg.macPCtrl 1, w32 ctl)] })
/-- A classical frame of one byte. -/
def canF : CanFrame := { id := 5, ide := false, dlc := 1, fdf := false, brs := false, esi := false, rtr := false, data := [7#32], ts := 0#32 }
/-- A loaded transmit buffer, requested or not, in progress or not. -/
def txB (req onBus : Bool) : TxBuf := { tx0 with frame := some canF, req := req, active := onBus, onBus := onBus }
/-- A port's queue 3 of 16 words with `n` words, HIGH 4, LOW 2. -/
def withFlow (n : Nat) (s : State) : State :=
  ((withQueue 3 16 0x00008A19#32 s).setReg (Reg.queQWm 3) 0x20004#32).setRf (Reg.queQLevel 3) 14 0 n
/-- A frame of 64 bytes to the broadcast address, with its FCS. -/
def macF : List Byte := let b : List Byte := List.replicate 6 0xFF#8 ++ List.replicate 54 0#8; b ++ leBytes 4 (crc32 b).toNat
/-- A member with pair control on, in a state. -/
def withPar (st : Nat) (f : Pair → Pair) (s : State) : State :=
  let t := (s.setReg Reg.parCfg 0x5003#32).setRf Reg.parStat 2 0 st
  { t with pair := f t.pair }
/-- A heartbeat of the partner of member 0x0000: fabric address 1. -/
def hbFrame : List Word := let b : List Word := [0xA7010001#32, 9#32, 3#32, 5#32, 0#32, 0#32, 0#32]; b ++ [crc32 (wordBytes b)]
/-- Panel 1 of a powered display island: 4 commons, 100 segments, one band. -/
def panB : Panel :=
  { panel0 with cfg := some 0x666C8001#32, fseg := some 0x74000000#32, ntc := some 0x54000000#32, bands := [(0, 0x44000001#32)] }
/-- Panel 1 of a powered display island, changed by f. -/
def withPan (f : Panel → Panel) (s : State) : State := ({ s with lcd := { s.lcd with powered := true } }).setPan 1 (f panB)
/-- A rectangle of 2 commons and 8 segments on panel 1. -/
def rectA : Rect := { panel := 1, com0 := 0, com1 := 1, seg0 := 2, seg1 := 9, word := 0#32, data := [5#32] }
/-- The backup island changed by f. -/
def withRtc (f : Rtc → Rtc) (s : State) : State := { s with rtc := f s.rtc }
/-- A generation header of 1,536 bytes that SIGNGEN signs for image 5. -/
def genHdr : List Byte :=
  asciiBytes "KVCG" ++ leBytes 2 1 ++ leBytes 1 1 ++ leBytes 1 0 ++ leBytes 8 2 ++ leBytes 8 5 ++ List.replicate 1512 0#8
/-- General register r holds v. -/
def withW (r : Nat) (v : Word) (s : State) : State := { s with eng := { s.eng with w := sset 0#32 s.eng.w r v } }
/-- A TENANT_QUERY of channel 3 for n points, with the last three words as given: the tag and the CRC. -/
def queryCell (n : Nat) (tl : List Word) : List Word :=
  [0x01020304#32, 0x20110302#32, 0x20000#32, w32 (0x50000 + n)] ++ List.replicate 9 0#32 ++ tl

/-! ## Ill-formed commands -/

theorem wf_refuses_add : (Instr.add ⟨0, 3, 0, false⟩ 0 0 0).wf = false := by decide +kernel
theorem wf_refuses_sub : (Instr.sub ⟨0, 3, 0, false⟩ 0 0 0).wf = false := by decide +kernel
theorem wf_refuses_andW : (Instr.andW ⟨0, 3, 0, false⟩ 0 0 0).wf = false := by decide +kernel
theorem wf_refuses_orW : (Instr.orW ⟨0, 3, 0, false⟩ 0 0 0).wf = false := by decide +kernel
theorem wf_refuses_xorW : (Instr.xorW ⟨0, 3, 0, false⟩ 0 0 0).wf = false := by decide +kernel
theorem wf_refuses_shl : (Instr.shl ⟨0, 3, 0, false⟩ 0 0 0).wf = false := by decide +kernel
theorem wf_refuses_shr : (Instr.shr ⟨0, 3, 0, false⟩ 0 0 0).wf = false := by decide +kernel
theorem wf_refuses_sar : (Instr.sar ⟨0, 3, 0, false⟩ 0 0 0).wf = false := by decide +kernel
theorem wf_refuses_addi : (Instr.addi ⟨0, 3, 0, false⟩ 0 0 0).wf = false := by decide +kernel
theorem wf_refuses_shli : (Instr.shli ⟨0, 3, 0, false⟩ 0 0 0).wf = false := by decide +kernel
theorem wf_refuses_shri : (Instr.shri ⟨0, 3, 0, false⟩ 0 0 0).wf = false := by decide +kernel
theorem wf_refuses_sari : (Instr.sari ⟨0, 3, 0, false⟩ 0 0 0).wf = false := by decide +kernel
theorem wf_refuses_li : (Instr.li ⟨0, 3, 0, false⟩ 0 0).wf = false := by decide +kernel
theorem wf_refuses_lis : (Instr.lis ⟨0, 3, 0, false⟩ 0 0).wf = false := by decide +kernel
theorem wf_refuses_sel : (Instr.sel ⟨0, 3, 0, false⟩ 0 0 0).wf = false := by decide +kernel
theorem wf_refuses_minS : (Instr.minS ⟨0, 3, 0, false⟩ 0 0 0).wf = false := by decide +kernel
theorem wf_refuses_maxS : (Instr.maxS ⟨0, 3, 0, false⟩ 0 0 0).wf = false := by decide +kernel
theorem wf_refuses_adds : (Instr.adds ⟨0, 3, 0, false⟩ 0 0 0).wf = false := by decide +kernel
theorem wf_refuses_subs : (Instr.subs ⟨0, 3, 0, false⟩ 0 0 0).wf = false := by decide +kernel
theorem wf_refuses_mul : (Instr.mul ⟨0, 3, 0, false⟩ 0 0 0).wf = false := by decide +kernel
theorem wf_refuses_mulh : (Instr.mulh ⟨0, 3, 0, false⟩ 0 0 0).wf = false := by decide +kernel
theorem wf_refuses_mulhu : (Instr.mulhu ⟨0, 3, 0, false⟩ 0 0 0).wf = false := by decide +kernel
theorem wf_refuses_cmp : (Instr.cmp ⟨0, 3, 0, false⟩ 0 0 0 0).wf = false := by decide +kernel
theorem wf_refuses_add64 : (Instr.add64 ⟨0, 3, 0, false⟩ 0 0 0).wf = false := by decide +kernel
theorem wf_refuses_sub64 : (Instr.sub64 ⟨0, 3, 0, false⟩ 0 0 0).wf = false := by decide +kernel
theorem wf_refuses_loopOpen : (Instr.loopOpen ⟨0, 0, 1, false⟩ 3).wf = false := by decide +kernel
theorem wf_refuses_fadd : (Instr.fadd ⟨0, 3, 0, false⟩ 0 0 0).wf = false := by decide +kernel
theorem wf_refuses_fsub : (Instr.fsub ⟨0, 3, 0, false⟩ 0 0 0).wf = false := by decide +kernel
theorem wf_refuses_fmul : (Instr.fmul ⟨0, 3, 0, false⟩ 0 0 0).wf = false := by decide +kernel
theorem wf_refuses_fma : (Instr.fma ⟨0, 3, 0, false⟩ 0 0 0).wf = false := by decide +kernel
theorem wf_refuses_fms : (Instr.fms ⟨0, 3, 0, false⟩ 0 0 0).wf = false := by decide +kernel
theorem wf_refuses_fmin : (Instr.fmin ⟨0, 3, 0, false⟩ 0 0 0).wf = false := by decide +kernel
theorem wf_refuses_fmax : (Instr.fmax ⟨0, 3, 0, false⟩ 0 0 0).wf = false := by decide +kernel
theorem wf_refuses_fabs : (Instr.fabs ⟨0, 3, 0, false⟩ 0 0).wf = false := by decide +kernel
theorem wf_refuses_fneg : (Instr.fneg ⟨0, 3, 0, false⟩ 0 0).wf = false := by decide +kernel
theorem wf_refuses_fcvti : (Instr.fcvti ⟨0, 3, 0, false⟩ 0 0).wf = false := by decide +kernel
theorem wf_refuses_fcvtf : (Instr.fcvtf ⟨0, 3, 0, false⟩ 0 0).wf = false := by decide +kernel
theorem wf_refuses_fcmp : (Instr.fcmp ⟨0, 3, 0, false⟩ 0 0 0 0).wf = false := by decide +kernel
theorem wf_refuses_fdiv : (Instr.fdiv ⟨0, 3, 0, false⟩ 0 0 0).wf = false := by decide +kernel
theorem wf_refuses_fsqrt : (Instr.fsqrt ⟨0, 3, 0, false⟩ 0 0).wf = false := by decide +kernel
theorem wf_refuses_fsel : (Instr.fsel ⟨0, 3, 0, false⟩ 0 0 0).wf = false := by decide +kernel
theorem wf_refuses_ld : (Instr.ld ⟨0, 2, 0, false⟩ 0 0 0).wf = false := by decide +kernel
theorem wf_refuses_st : (Instr.st ⟨0, 2, 0, false⟩ 0 0 0).wf = false := by decide +kernel
theorem wf_refuses_ldx : (Instr.ldx ⟨0, 2, 0, false⟩ 0 0 0).wf = false := by decide +kernel
theorem wf_refuses_stx : (Instr.stx ⟨0, 2, 0, false⟩ 0 0 0).wf = false := by decide +kernel
theorem wf_refuses_mov : (Instr.mov ⟨0, 2, 0, false⟩ 0 0).wf = false := by decide +kernel
theorem wf_refuses_lld : (Instr.lld ⟨0, 2, 0, false⟩ 0 0 0).wf = false := by decide +kernel
theorem wf_refuses_lst : (Instr.lst ⟨0, 2, 0, false⟩ 0 0 0).wf = false := by decide +kernel
theorem wf_refuses_xrd : (Instr.xrd ⟨0, 2, 0, false⟩ 0 0 0).wf = false := by decide +kernel
theorem wf_refuses_xwr : (Instr.xwr ⟨0, 2, 0, false⟩ 0 0).wf = false := by decide +kernel
theorem wf_refuses_qpop : (Instr.qpop ⟨0, 2, 0, false⟩ 0 0).wf = false := by decide +kernel
theorem wf_refuses_qpush : (Instr.qpush ⟨0, 2, 0, false⟩ 0 0).wf = false := by decide +kernel
theorem wf_refuses_qlev : (Instr.qlev ⟨0, 2, 0, false⟩ 0 0).wf = false := by decide +kernel
theorem wf_refuses_qmov : (Instr.qmov ⟨0, 2, 0, false⟩ 0 0).wf = false := by decide +kernel
theorem wf_refuses_xq : (Instr.xq ⟨0, 2, 0, false⟩ 0 0).wf = false := by decide +kernel
theorem wf_refuses_qx : (Instr.qx ⟨0, 2, 0, false⟩ 0 0).wf = false := by decide +kernel
theorem wf_refuses_rld : (Instr.rld ⟨0, 2, 0, false⟩ 0 0 0).wf = false := by decide +kernel
theorem wf_refuses_rst : (Instr.rst ⟨0, 2, 0, false⟩ 0 0 0).wf = false := by decide +kernel
theorem wf_refuses_mst : (Instr.mst ⟨0, 2, 0, false⟩ 0 0 0).wf = false := by decide +kernel
theorem wf_refuses_msw : (Instr.msw ⟨0, 2, 0, false⟩ 0 0).wf = false := by decide +kernel
theorem wf_refuses_srd : (Instr.srd ⟨0, 2, 0, false⟩ 0 0).wf = false := by decide +kernel
theorem wf_refuses_scrb : (Instr.scrb ⟨0, 2, 0, false⟩ 0 0).wf = false := by decide +kernel
theorem wf_refuses_scrubLate : (Instr.scrubLate 0 599).wf = false := by decide +kernel
theorem wf_refuses_arm : (Instr.arm ⟨0, 2, 0, false⟩ 0).wf = false := by decide +kernel
theorem wf_refuses_darm : (Instr.darm ⟨0, 2, 0, false⟩ 0).wf = false := by decide +kernel
theorem wf_refuses_crossingWordArrival : (Instr.crossingWordArrival 31 0).wf = false := by decide +kernel
theorem wf_refuses_hostReadLowHalf : (Instr.hostReadLowHalf 2 20).wf = false := by decide +kernel
theorem wf_refuses_hostReadHighHalf : (Instr.hostReadHighHalf 4 20).wf = false := by decide +kernel
theorem wf_refuses_hostReadWord0 : (Instr.hostReadWord0 8 20).wf = false := by decide +kernel
theorem wf_refuses_hostWriteLowHalf : (Instr.hostWriteLowHalf 2 0 10 20 false).wf = false := by decide +kernel
theorem wf_refuses_hostWriteHighHalf : (Instr.hostWriteHighHalf 4 0 10 20 false).wf = false := by decide +kernel
theorem wf_refuses_sampleInstant : (Instr.sampleInstant 0 0 [] 0).wf = false := by decide +kernel
theorem wf_refuses_applyInstant : (Instr.applyInstant 0).wf = false := by decide +kernel
theorem wf_refuses_safeValueTimeout : (Instr.safeValueTimeout 0).wf = false := by decide +kernel
theorem wf_refuses_fieldSupplyMeasure : (Instr.fieldSupplyMeasure 0 0).wf = false := by decide +kernel
theorem wf_refuses_cellReceive : (Instr.cellReceive 0 0 0 []).wf = false := by decide +kernel
theorem wf_refuses_routeCell : (Instr.routeCell none []).wf = false := by decide +kernel
theorem wf_refuses_faultReport : (Instr.faultReport none []).wf = false := by decide +kernel
theorem wf_refuses_tenantQuery : (Instr.tenantQuery []).wf = false := by decide +kernel
theorem wf_refuses_parcel : (Instr.parcel none []).wf = false := by decide +kernel
theorem wf_refuses_canFrameReceive : (Instr.canFrameReceive 0 2048 false 0 false false false false [] 0).wf = false := by decide +kernel
theorem wf_refuses_canError : (Instr.canError 0 0 0 0 ).wf = false := by decide +kernel
theorem wf_refuses_islandAttest : (Instr.islandAttest false 0 []).wf = false := by decide +kernel
theorem wf_refuses_islandChallenge : (Instr.islandChallenge false 0 []).wf = false := by decide +kernel
theorem wf_refuses_updateRec : (Instr.updateRec false 0 []).wf = false := by decide +kernel
theorem wf_refuses_commission : (Instr.commission [] false).wf = false := by decide +kernel
theorem wf_refuses_ownerSecret : (Instr.ownerSecret [] false).wf = false := by decide +kernel
theorem wf_refuses_ownerRoot : (Instr.ownerRoot [] false).wf = false := by decide +kernel
theorem wf_refuses_msgReturn : (Instr.msgReturn [] false).wf = false := by decide +kernel
theorem wf_refuses_msgRetire : (Instr.msgRetire [] false).wf = false := by decide +kernel
theorem wf_refuses_msgConfirm : (Instr.msgConfirm [] false).wf = false := by decide +kernel
theorem wf_refuses_msgReject : (Instr.msgReject [] false).wf = false := by decide +kernel
theorem wf_refuses_privileged : (Instr.privileged [] false).wf = false := by decide +kernel
theorem wf_refuses_cmp_cond : (Instr.cmp ⟨0, 0, 0, false⟩ 1 0 0 6).wf = false := by decide +kernel
theorem wf_refuses_add64_odd : (Instr.add64 ⟨0, 1, 0, false⟩ 1 2 2).wf = false := by decide +kernel
theorem wf_refuses_sub64_odd : (Instr.sub64 ⟨0, 1, 0, false⟩ 2 2 3).wf = false := by decide +kernel
theorem wf_refuses_loop_track : (Instr.loopOpen ⟨0, 1, 0, false⟩ 3).wf = false := by decide +kernel
theorem wf_refuses_loop_pinv : (Instr.loopOpen ⟨0, 0, 0, true⟩ 3).wf = false := by decide +kernel
theorem wf_refuses_fcmp_cond : (Instr.fcmp ⟨0, 2, 0, false⟩ 1 0 0 5).wf = false := by decide +kernel
theorem wf_refuses_xrd_port : (Instr.xrd ⟨0, 3, 0, false⟩ 1 1440 0).wf = false := by decide +kernel
theorem wf_refuses_xwr_port : (Instr.xwr ⟨0, 3, 0, false⟩ 1 1408).wf = false := by decide +kernel
theorem wf_refuses_xq_port : (Instr.xq ⟨0, 3, 0, false⟩ 1 31).wf = false := by decide +kernel
theorem wf_refuses_qx_port : (Instr.qx ⟨0, 3, 0, false⟩ 1 31).wf = false := by decide +kernel
theorem wf_refuses_srd_selector : (Instr.srd ⟨0, 3, 0, false⟩ 1 8).wf = false := by decide +kernel
theorem wf_refuses_scrb_reserved : (Instr.scrb ⟨0, 3, 0, false⟩ 1 4).wf = false := by decide +kernel
theorem wf_refuses_island_above : (Instr.sampleInstant 21 0 [] 0).wf = false := by decide +kernel
theorem wf_refuses_apply_above : (Instr.applyInstant 21).wf = false := by decide +kernel
theorem wf_refuses_can_error_up : (Instr.canError 0 1 2 0).wf = false := by decide +kernel
theorem wf_refuses_can_rtr_fd : (Instr.canFrameReceive 0 1 false 0 true false false true [] 0).wf = false := by decide +kernel
theorem exec_refuses_illFormed : exec (.add ⟨0, 2, 0, false⟩ 1 2 3) w1 = .refused .illFormed := rfl

/-! ## Worked examples of the spec and corner cases worked out by hand from its tables -/

/-- The state that a command answers, or reset where it answers none. -/
def after (o : Host.Outcome State Fault Refusal) : State :=
  match o with
  | .next t => t
  | _ => State.reset

/-- W2 = a, W3 = b. -/
def withAB (a b : Word) : State := withW 2 a (withW 3 b w1)

/-- What W1 reads once the results of an operation issued at cycle 0 have landed. -/
def w1After (o : Host.Outcome State Fault Refusal) : Word := ((after o).land 20).rw 1

/-- Table 2-4: ADD wraps modulo 2^32. -/
theorem test_add_wraps : w1After (execAdd ⟨0, 0, 0, false⟩ 1 2 3 (withAB 0xFFFFFFFF#32 2#32)) = 1#32 := by decide +kernel
/-- R40: the result of latency 1 is not read in the cycle of its issue. -/
theorem test_add_lands : ((after (execAdd ⟨5, 0, 0, false⟩ 1 2 3 (withAB 7#32 2#32))).land 5).rw 1 = 0#32 := by decide +kernel
/-- R39: a write to W0 is discarded. -/
theorem test_add_w0 : ((after (execAdd ⟨0, 0, 0, false⟩ 0 2 3 (withAB 7#32 2#32))).land 9).rw 0 = 0#32 := by decide +kernel
/-- Table 2-4: SUB takes B from A. -/
theorem test_sub_order : w1After (execSub ⟨0, 1, 0, false⟩ 1 2 3 (withAB 5#32 7#32)) = 0xFFFFFFFE#32 := by decide +kernel
/-- Table 2-4: SAR fills with the sign. -/
theorem test_sar_sign : w1After (execSar ⟨0, 0, 0, false⟩ 1 2 3 (withAB 0x80000000#32 4#32)) = 0xF8000000#32 := by decide +kernel
/-- Table 2-4: ADDS saturates at the greatest number. -/
theorem test_adds_saturates : w1After (execAdds ⟨0, 0, 0, false⟩ 1 2 3 (withAB 0x7FFFFFFF#32 1#32)) = 0x7FFFFFFF#32 := by decide +kernel
/-- Table 2-4: MULH takes the high half of the signed product. -/
theorem test_mulh_signed : w1After (execMulh ⟨0, 0, 0, false⟩ 1 2 3 (withAB 0xFFFFFFFF#32 2#32)) = 0xFFFFFFFF#32 := by decide +kernel
/-- Table 2-4: MULHU takes the high half of the unsigned product. -/
theorem test_mulhu_unsigned : w1After (execMulhu ⟨0, 0, 0, false⟩ 1 2 3 (withAB 0xFFFFFFFF#32 2#32)) = 1#32 := by decide +kernel
/-- R45: 1.5 + 2.25 = 3.75 in binary32. -/
theorem test_fadd : w1After (execFadd ⟨0, 2, 0, false⟩ 1 2 3 (withAB 0x3FC00000#32 0x40100000#32)) = 0x40700000#32 := by decide +kernel
/-- R45: 7 / 2 = 3.5 in binary32. -/
theorem test_fdiv : w1After (execFdiv ⟨0, 2, 0, false⟩ 1 2 3 (withAB 0x40E00000#32 0x40000000#32)) = 0x40600000#32 := by decide +kernel
/-- R166, worked example: 50.0 ⊗ K rounds to 596,523,264; eight intervals from TOT 1,000 give TOT 1,001 and FRAC 477,218,816,
the last of them here from the seventh's FRAC. -/
theorem test_accumulate_example :
    totOf (accumulate (putAcc State.reset 4 0 1000 4175662848) 4 0 160 (0x42480000#32, 0)) 4 0 = 1001 ∧
    (accumulate (putAcc State.reset 4 0 1000 4175662848) 4 0 160 (0x42480000#32, 0)).reg (Reg.mtrFrac 4 0) = 477218816#32 := by
  decide +kernel
/-- R137, worked example: LT_FULL_UJ 240,000 and LT_CORE_UJ 36,000 need 303,675 and 48,675 µJ. -/
theorem test_holdup_example : times125 (eDet + 240000) = 303675 ∧ times125 (eDet + 36000) = 48675 := by decide +kernel
/-- Table 17-6: the first low-half read of Q07 drives 0x0345 and latches 0x0012. -/
theorem test_drain_example :
    (after (execHostDataPortRead 7 20 none { (withQueue 7 64 0x40000000#32 w1) with qcell := [(7, [0x120345#32, 0xA0#32])] })).host.hd = 0x345#16 ∧
    (after (execHostDataPortRead 7 20 none { (withQueue 7 64 0x40000000#32 w1) with qcell := [(7, [0x120345#32, 0xA0#32])] })).host.latch =
      some (0xF103A, 0x12#16) := by decide +kernel
/-- R437, worked example: the high half of a write to the shadow 0x2_8100 completes 0x0078_0014; the active value stays. -/
theorem test_shadow_example :
    (after (execHostWriteHighHalf 0x28102 0x78 12 25 false { w1 with host := { w1.host with held := some (0x28100, 0x14#16) } })).shadow 0x20100 =
      0x780014#32 ∧
    (after (execHostWriteHighHalf 0x28102 0x78 12 25 false { w1 with host := { w1.host with held := some (0x28100, 0x14#16) } })).reg 0x20100 =
      w1.reg 0x20100 := by decide +kernel
/-- R148, worked example: a window of 8,000 ms is 160,000 minor cycles of 50 µs. -/
theorem test_window_example : staggerWindow ((w1.setRf Reg.tteStat 5 4 1).setRf Reg.pwrStagger 12 0 8000) = 160000 := by decide +kernel
/-- R34, worked example: the second member of slot 2 in zone 5 of floor 37 has address 0x2555. -/
theorem test_address_example : pairAddr (w1.setRf (Reg.parSbPair 0) 15 0 0x2554) 0 1 = 0x2555 := by decide +kernel


/-- Tables 2-2 to 2-4, bit by bit: PSEL 2, PINV 1, OP 0x01, D 5, A 6, B 7 is ADD. -/
theorem test_decode_add : decodeTrack 9 0 0 0b0010_1_000001_000101_000110_000111_0 = some (.add ⟨9, 0, 2, true⟩ 5 6 7) := by decide +kernel
/-- Format P: OP 0x17, PD 3, A 4, B 5, COND 2 is CMP. -/
theorem test_decode_cmp : decodeTrack 0 0 1 0b00000_010111_0011_000100_000101_010 = some (.cmp ⟨0, 1, 0, false⟩ 3 4 5 2) := by decide +kernel
/-- Format L: OP 0x3F, TRIP 3 on track 0 is LOOP, on track 1 no operation. -/
theorem test_decode_loop : decodeTrack 0 0 0 0b00000_111111_000_0000000000000011 = some (.loopOpen ⟨0, 0, 0, false⟩ 3) ∧
    decodeTrack 0 0 1 0b00000_111111_000_0000000000000011 = none := by decide +kernel
/-- Track 2: OP 0x0D, D 1, A 2, B 3 is FDIV. -/
theorem test_decode_fdiv : decodeTrack 0 0 2 0b00000_001101_000001_000010_000011_0 = some (.fdiv ⟨0, 2, 0, false⟩ 1 2 3) := by decide +kernel
/-- Format M: OP 0x01, D 1, A 2, imm7 −1 is LD. -/
theorem test_decode_ld : decodeTrack 0 0 3 0b00000_000001_000001_000010_1111111 = some (.ld ⟨0, 3, 0, false⟩ 1 2 127) := by decide +kernel
/-- Format X: OP 0x08, D 1, PORT 704, FP 2 is XRD. -/
theorem test_decode_xrd : decodeTrack 0 0 3 0b00000_001000_000001_01011000000_10 = some (.xrd ⟨0, 3, 0, false⟩ 1 704 2) := by decide +kernel
/-- Format Q: OP 0x0D, QA 4, QB 5 is QMOV. -/
theorem test_decode_qmov : decodeTrack 0 0 3 0b00000_001101_000000_000100_000101_0 = some (.qmov ⟨0, 3, 0, false⟩ 4 5) := by decide +kernel
/-- Table 2-1: a consist with NOP on tracks 0, 1 and 3 and FADD on track 2. -/
theorem test_decode_consist : decodeConsist 7 0 (0b00000_000001_000001_000010_000011_0 * 2 ^ 60) =
    [.nop ⟨7, 0, 0, false⟩, .nop ⟨7, 1, 0, false⟩, .fadd ⟨7, 2, 0, false⟩ 1 2 3, .nop ⟨7, 3, 0, false⟩] := by decide +kernel

/-! ## The hypotheses of the statements -/

theorem witness_w1cStays : ∃ (m : Master) (addr : BitVec 20) (w : Word) (hw : Word) (n : Nat) (s : State),
    aliasBase addr.toNat = none ∧ accOf addr.toNat = some .w1c ∧ addr.toNat ≠ Reg.ttePfStat ∧ (w1cBits addr.toNat).getLsbD n = true ∧ w.getLsbD n = true ∧ hw.getLsbD n = true ∧ s.boot.prog = false :=
  ⟨(Master.host), ((BitVec.ofNat 20 Reg.queEvt)), (1#32), (1#32), (0), (w1), by decide +kernel⟩

theorem witness_w1cStaysPf : ∃ (m : Master) (addr : BitVec 20) (w : Word) (hw : Word) (s : State),
    addr.toNat = Reg.ttePfStat ∧ bit w 0 = true ∧ bit hw 0 = true ∧ s.boot.prog = false :=
  ⟨(Master.host), ((BitVec.ofNat 20 Reg.ttePfStat)), (1#32), (1#32), (w1), by decide +kernel⟩

theorem witness_popLowHalf : ∃ (q : Fin 64) (gapNs : Nat) (w : Word) (ws : List Word) (s : State),
    20 ≤ gapNs ∧ qSize s q.val ≠ 0 ∧ qCons s q.val = epHost ∧ sget [] s.qcell q.val = w :: ws :=
  ⟨(3), (20), (0x12345678#32), ([9#32]), ({ ((withQueue 3 4 0x40000000#32 w1).setRf (Reg.queQLevel 3) 14 0 2) with qcell := [(3, [0x12345678#32, 9#32])] }), by decide +kernel⟩

theorem witness_popHighHalf : ∃ (addr : BitVec 20) (gapNs : Nat) (s : State),
    (Instr.hostReadHighHalf addr gapNs).wf = true ∧ accOf (addr.toNat - 2) = some .pop :=
  ⟨((BitVec.ofNat 20 (Reg.queQData 3 + 2))), 1, ({ ((withQueue 3 4 0x40000000#32 w1).setRf (Reg.queQLevel 3) 14 0 2) with qcell := [(3, [0x12345678#32, 9#32])] }), by decide +kernel⟩

theorem witness_qpushFull : ∃ (i : Issue) (d : Fin 64) (qa : Fin 64) (s : State),
    (Instr.qpush i d qa).wf = true ∧ issueGoes i s ∧ qSize s qa.val ≠ 0 ∧ qProd s qa.val = epEngine ∧ qSize s qa.val ≤ qLevel s qa.val :=
  ⟨(⟨0, 3, 0, false⟩ : Issue), (1 : Fin 64), (3), (((withQueue 3 4 0#32 w1).setRf (Reg.queQLevel 3) 14 0 4)), by unfold issueGoes; decide +kernel⟩

theorem witness_islandPushFull : ∃ (q : Fin 64) (island : Fin 25) (unit : BitVec 8) (ws : List Word) (w : Word) (s : State),
    ws = [w] ∧ qSize s q.val ≠ 0 ∧ qProd s q.val = epIsland island.val unit.toNat ∧ qSize s q.val ≤ qLevel s q.val :=
  ⟨(3), (1), (1#8), ([7#32]), (7#32), (((withQueue 3 4 0x00008101#32 w1).setRf (Reg.queQLevel 3) 14 0 4)), by decide +kernel⟩

theorem witness_hostPushFull : ∃ (q : Fin 64) (w : Word) (s : State),
    qSize s q.val ≠ 0 ∧ qProd s q.val = epHost ∧ qSize s q.val ≤ qLevel s q.val ∧ s.boot.prog = false :=
  ⟨(3), 7#32, (((withQueue 3 4 0x00004000#32 w1).setRf (Reg.queQLevel 3) 14 0 4)), by decide +kernel⟩

theorem witness_qpopEmpty : ∃ (i : Issue) (d : Fin 64) (qa : Fin 64) (s : State),
    (Instr.qpop i d qa).wf = true ∧ issueGoes i s ∧ qSize s qa.val ≠ 0 ∧ qCons s qa.val = epEngine ∧ qLevel s qa.val = 0 :=
  ⟨(⟨0, 3, 0, false⟩ : Issue), (1 : Fin 64), (3), (((withQueue 3 4 0#32 w1).setRf (Reg.queQLevel 3) 14 0 0)), by unfold issueGoes; decide +kernel⟩

theorem witness_dataPortEmpty : ∃ (q : Fin 64) (gapNs : Nat) (s : State),
    20 ≤ gapNs ∧ qSize s q.val ≠ 0 ∧ qCons s q.val = epHost ∧ sget [] s.qcell q.val = [] ∧ qLevel s q.val = 0 :=
  ⟨(3), (20), (((withQueue 3 4 0x40000000#32 w1).setRf (Reg.queQLevel 3) 14 0 0)), by decide +kernel⟩

theorem witness_powerOnStart : ∃ (s : State),
    s.boot.supplyOk = true ∧ s.boot.prog = false ∧ s.boot.returnDue = false ∧ (s.reg Reg.sysRstcause = 0#32 ∨ phaseOf s = 9) :=
  ⟨(withBoot (fun b => { b with supplyOk := true }) w0), by decide +kernel⟩

theorem witness_returnStart : ∃ (s : State),
    s.boot.supplyOk = true ∧ s.boot.prog = false ∧ s.boot.returnDue = true ∧ phaseOf s = 9 :=
  ⟨(withBoot (fun b => { b with returnDue := true, supplyOk := true }) (w0.setRf Reg.sysStat 3 0 9)), by decide +kernel⟩

theorem witness_warmStart : ∃ (k : Nat) (s : State),
    s.boot.warmReq = some k ∧ s.boot.prog = false ∧ (s.eng.released = true → s.rb Reg.tteStat 3 = true) :=
  ⟨(1), (withBoot (fun b => { b with warmReq := some 1 }) w0), by decide +kernel⟩

theorem witness_sidingStrapPoll : ∃ (strap : Bool) (s : State),
    s.boot.siding = true ∧ s.sec.sidingStored = true ∧ strap = false :=
  ⟨(false), (withSec (fun x => { x with sidingStored := true }) (withBoot (fun b => { b with siding := true }) w0)), by decide +kernel⟩

theorem witness_sidingStrapOn : ∃ (strap : Bool) (s : State),
    s.boot.siding = true ∧ strap = true :=
  ⟨true, (withBoot (fun b => { b with siding := true }) w0), by decide +kernel⟩

theorem witness_sidingStrapNot : ∃ (strap : Bool) (s : State),
    s.boot.siding = false :=
  ⟨true, (w0), by decide +kernel⟩

theorem witness_progRelease : ∃ (s : State),
    s.boot.prog = true ∧ s.boot.supplyOk = true ∧ s.boot.returnDue = false ∧ s.reg Reg.sysRstcause = 0#32 :=
  ⟨(withBoot (fun b => { b with prog := true, supplyOk := true }) w0), by decide +kernel⟩

theorem witness_progReleaseWaits : ∃ (s : State),
    s.boot.prog = true ∧ s.boot.supplyOk = false :=
  ⟨(withBoot (fun b => { b with prog := true }) w0), by decide +kernel⟩

theorem witness_supplyValid : ∃ (s : State),
    s.boot.counting = true :=
  ⟨(withBoot (fun b => { b with counting := true }) w0), by decide +kernel⟩

theorem witness_sysResetWrite : ∃ (m : Master) (w : Word) (s : State),
    fld w 31 16 = 0xA55A ∧ fld w 1 0 = 1 ∧ phaseOf s ≠ 8 ∧ phaseOf s ≠ 9 ∧ s.boot.supplyOk = true ∧ s.boot.prog = false :=
  ⟨(Master.host), (0xA55A0001#32), (withBoot (fun b => { b with supplyOk := true }) w1), by decide +kernel⟩

theorem witness_sysResetNoKey : ∃ (m : Master) (w : Word) (s : State),
    (fld w 31 16 ≠ 0xA55A ∨ fld w 1 0 ≠ 1) ∧ s.boot.prog = false :=
  ⟨(Master.host), 7#32, (w0), by decide +kernel⟩

theorem witness_romPhase : ∃ (strap : Bool) (s : State),
    phaseOf s = 0 ∧ s.boot.romDone = false ∧ s.boot.prog = false :=
  ⟨true, (w0), by decide +kernel⟩

theorem witness_imageChecks : ∃ (k : Nat) (s : State),
    phaseOf s = 1 ∧ candidate s = some k ∧ s.sec.noRec = false ∧ slotState s.sec.srec k = 4 :=
  ⟨(0), (withSec (fun x => { x with srec := { SecRec.empty with stA := 4 }, noRec := false }) (withBoot (fun b => b) (w0.setRf Reg.sysStat 3 0 1))), by decide +kernel⟩

theorem witness_imageChecksTrial : ∃ (k : Nat) (s : State),
    phaseOf s = 1 ∧ candidate s = some k ∧ s.sec.noRec = false ∧ s.sec.retired = false ∧ (slotState s.sec.srec k = 2 ∨ slotState s.sec.srec k = 3) ∧ s.sec.srec.tries < 3 :=
  ⟨(0), (withSec (fun x => { x with srec := { SecRec.empty with stA := 2, tries := 0 }, noRec := false }) (withBoot (fun b => b) (w0.setRf Reg.sysStat 3 0 1))), by decide +kernel⟩

theorem witness_imageChecksTries : ∃ (k : Nat) (s : State),
    phaseOf s = 1 ∧ candidate s = some k ∧ s.sec.noRec = false ∧ s.sec.retired = false ∧ (slotState s.sec.srec k = 2 ∨ slotState s.sec.srec k = 3) ∧ 3 ≤ s.sec.srec.tries :=
  ⟨(0), (withSec (fun x => { x with srec := { SecRec.empty with stA := 3, tries := 3 }, noRec := false }) (withBoot (fun b => b) (w0.setRf Reg.sysStat 3 0 1))), by decide +kernel⟩

theorem witness_imageChecksSuperseded : ∃ (k : Nat) (s : State),
    phaseOf s = 1 ∧ candidate s = some k ∧ s.sec.noRec = false ∧ slotState s.sec.srec k = 5 :=
  ⟨(0), (withSec (fun x => { x with srec := { SecRec.empty with stA := 5, tries := 0 }, noRec := false }) (withBoot (fun b => b) (w0.setRf Reg.sysStat 3 0 1))), by decide +kernel⟩

theorem witness_imageChecksNoRec : ∃ (k : Nat) (s : State),
    phaseOf s = 1 ∧ candidate s = some k ∧ s.sec.noRec = true :=
  ⟨(0), (withSec (fun x => { x with srec := { SecRec.empty with stA := 0, tries := 0 }, noRec := true }) (withBoot (fun b => b) (w0.setRf Reg.sysStat 3 0 1))), by decide +kernel⟩

theorem witness_imageChecksNone : ∃ (s : State),
    phaseOf s = 1 ∧ candidate s = none :=
  ⟨((withBoot (fun b => { b with refusedA := true, refusedB := true }) (w0.setRf Reg.sysStat 3 0 1))), by decide +kernel⟩

theorem witness_configApplication : ∃ (s : State),
    phaseOf s = 2 ∧ s.image.loaded = true :=
  ⟨({ (withBoot (fun b => b) (w0.setRf Reg.sysStat 3 0 2)) with image := { State.reset.image with loaded := true } }), by decide +kernel⟩

theorem witness_migrate : ∃ (src : Nat) (s : State),
    s.boot.migrate = some src ∧ phaseOf s = 3 :=
  ⟨(0), ({ (withBoot (fun b => { b with migrate := some 0 }) (w0.setRf Reg.sysStat 3 0 3)) with image := { State.reset.image with loaded := true } }), by decide +kernel⟩

theorem witness_migrateBad : ∃ (src : Nat) (s : State),
    s.boot.migrate = some src ∧ phaseOf s = 3 :=
  ⟨(1), ({ (withBoot (fun b => { b with migrate := some 1 }) (w0.setRf Reg.sysStat 3 0 3)) with image := { State.reset.image with loaded := true } }), by decide +kernel⟩

theorem witness_discoveryEnd : ∃ (s : State),
    phaseOf s = 4 :=
  ⟨((withBoot (fun b => b) (w0.setRf Reg.sysStat 3 0 4))), by decide +kernel⟩

theorem witness_engineRelease : ∃ (s : State),
    phaseOf s = 4 ∧ s.boot.discDone = true ∧ s.image.loaded = true ∧ s.boot.prog = false ∧ s.boot.supplyOk = true ∧ (isWarm s = true ∨ s.hamper.startDone = true) :=
  ⟨(withHamper (fun h => { h with startDone := true }) ({ (withBoot (fun b => { b with discDone := true, supplyOk := true }) (w0.setRf Reg.sysStat 3 0 4)) with image := { State.reset.image with loaded := true } })), by decide +kernel⟩

theorem witness_staggerEnd : ∃ (s : State),
    phaseOf s = 5 ∧ s.boot.staggerLeft = 0 ∧ s.hamper.ltPending = false :=
  ⟨((withBoot (fun b => { b with supplyOk := true }) w1).setRf Reg.sysStat 3 0 5), by decide +kernel⟩

theorem witness_fieldIslandPowerUp : ∃ (s : State),
    phaseOf s = 6 ∧ s.rf Reg.pwrStat 13 10 < 10 ∧ s.hamper.ltPending = false :=
  ⟨((w1.setRf Reg.sysStat 3 0 6).setRf Reg.pwrStat 13 10 9), by decide +kernel⟩

theorem witness_outPermit : ∃ (s : State),
    phaseOf s = 6 ∧ s.rf Reg.pwrStat 13 10 = 10 ∧ drivenReady s = true ∧ s.hamper.ltPending = false :=
  ⟨((w1.setRf Reg.sysStat 3 0 6).setRf Reg.pwrStat 13 10 10), by decide +kernel⟩

theorem witness_startAbandon : ∃ (s : State),
    s.eng.released = false ∧ s.boot.prog = false ∧ s.boot.supplyOk = false ∧ phaseOf s ≠ 9 :=
  ⟨((withBoot (fun b => b) (w0.setRf Reg.sysStat 3 0 4))), by decide +kernel⟩

theorem witness_romMirrorRefresh : ∃ (s : State),
    phaseOf s ≤ 5 :=
  ⟨((withBoot (fun b => b) (w0.setRf Reg.sysStat 3 0 3))), by decide +kernel⟩

theorem witness_sidingModeEntry : ∃ (s : State),
    s.eng.released = false ∧ s.boot.romDone = true ∧ s.boot.prog = false ∧ phaseOf s ≤ 3 ∧ s.boot.strap = true :=
  ⟨((withBoot (fun b => { b with romDone := true, strap := true }) (w0.setRf Reg.sysStat 3 0 3))), by decide +kernel⟩

theorem witness_sidingRetired : ∃ (s : State),
    s.eng.released = false ∧ s.boot.romDone = true ∧ s.boot.prog = false ∧ phaseOf s ≤ 3 ∧ s.boot.strap = false ∧ s.sec.retired = true :=
  ⟨(withSec (fun x => { x with retired := true }) (withBoot (fun b => { b with romDone := true }) (w0.setRf Reg.sysStat 3 0 3))), by decide +kernel⟩

theorem witness_sidingRefused : ∃ (s : State),
    s.eng.released = false ∧ s.boot.romDone = true ∧ s.boot.prog = false ∧ phaseOf s = 1 ∧ s.boot.strap = false ∧ s.sec.retired = false ∧ candidate s = none :=
  ⟨((withBoot (fun b => { b with romDone := true, refusedA := true, refusedB := true }) (w0.setRf Reg.sysStat 3 0 1))), by decide +kernel⟩

theorem witness_sidingNone : ∃ (s : State),
    sidingCause s = none :=
  ⟨(w0), by decide +kernel⟩

theorem witness_sidingRefresh : ∃ (s : State),
    s.boot.siding = true :=
  ⟨((withBoot (fun b => { b with siding := true }) (w0.setRf Reg.sysStat 3 0 10))), by decide +kernel⟩

theorem witness_add : ∃ (i : Issue) (d : Fin 64) (a : Fin 64) (b : Fin 64) (s : State),
    (Instr.add i d a b).wf = true ∧ issueGoes i s :=
  ⟨(⟨0, 1, 0, false⟩ : Issue), (1 : Fin 64), (1 : Fin 64), (1 : Fin 64), (w0), by unfold issueGoes; decide +kernel⟩

theorem witness_sub : ∃ (i : Issue) (d : Fin 64) (a : Fin 64) (b : Fin 64) (s : State),
    (Instr.sub i d a b).wf = true ∧ issueGoes i s :=
  ⟨(⟨0, 1, 0, false⟩ : Issue), (1 : Fin 64), (1 : Fin 64), (1 : Fin 64), (w0), by unfold issueGoes; decide +kernel⟩

theorem witness_andW : ∃ (i : Issue) (d : Fin 64) (a : Fin 64) (b : Fin 64) (s : State),
    (Instr.andW i d a b).wf = true ∧ issueGoes i s :=
  ⟨(⟨0, 1, 0, false⟩ : Issue), (1 : Fin 64), (1 : Fin 64), (1 : Fin 64), (w0), by unfold issueGoes; decide +kernel⟩

theorem witness_orW : ∃ (i : Issue) (d : Fin 64) (a : Fin 64) (b : Fin 64) (s : State),
    (Instr.orW i d a b).wf = true ∧ issueGoes i s :=
  ⟨(⟨0, 1, 0, false⟩ : Issue), (1 : Fin 64), (1 : Fin 64), (1 : Fin 64), (w0), by unfold issueGoes; decide +kernel⟩

theorem witness_xorW : ∃ (i : Issue) (d : Fin 64) (a : Fin 64) (b : Fin 64) (s : State),
    (Instr.xorW i d a b).wf = true ∧ issueGoes i s :=
  ⟨(⟨0, 1, 0, false⟩ : Issue), (1 : Fin 64), (1 : Fin 64), (1 : Fin 64), (w0), by unfold issueGoes; decide +kernel⟩

theorem witness_shl : ∃ (i : Issue) (d : Fin 64) (a : Fin 64) (b : Fin 64) (s : State),
    (Instr.shl i d a b).wf = true ∧ issueGoes i s :=
  ⟨(⟨0, 1, 0, false⟩ : Issue), (1 : Fin 64), (1 : Fin 64), (1 : Fin 64), (w0), by unfold issueGoes; decide +kernel⟩

theorem witness_shr : ∃ (i : Issue) (d : Fin 64) (a : Fin 64) (b : Fin 64) (s : State),
    (Instr.shr i d a b).wf = true ∧ issueGoes i s :=
  ⟨(⟨0, 1, 0, false⟩ : Issue), (1 : Fin 64), (1 : Fin 64), (1 : Fin 64), (w0), by unfold issueGoes; decide +kernel⟩

theorem witness_sar : ∃ (i : Issue) (d : Fin 64) (a : Fin 64) (b : Fin 64) (s : State),
    (Instr.sar i d a b).wf = true ∧ issueGoes i s :=
  ⟨(⟨0, 1, 0, false⟩ : Issue), (1 : Fin 64), (1 : Fin 64), (1 : Fin 64), (w0), by unfold issueGoes; decide +kernel⟩

theorem witness_minS : ∃ (i : Issue) (d : Fin 64) (a : Fin 64) (b : Fin 64) (s : State),
    (Instr.minS i d a b).wf = true ∧ issueGoes i s :=
  ⟨(⟨0, 1, 0, false⟩ : Issue), (1 : Fin 64), (1 : Fin 64), (1 : Fin 64), (w0), by unfold issueGoes; decide +kernel⟩

theorem witness_maxS : ∃ (i : Issue) (d : Fin 64) (a : Fin 64) (b : Fin 64) (s : State),
    (Instr.maxS i d a b).wf = true ∧ issueGoes i s :=
  ⟨(⟨0, 1, 0, false⟩ : Issue), (1 : Fin 64), (1 : Fin 64), (1 : Fin 64), (w0), by unfold issueGoes; decide +kernel⟩

theorem witness_adds : ∃ (i : Issue) (d : Fin 64) (a : Fin 64) (b : Fin 64) (s : State),
    (Instr.adds i d a b).wf = true ∧ issueGoes i s :=
  ⟨(⟨0, 1, 0, false⟩ : Issue), (1 : Fin 64), (1 : Fin 64), (1 : Fin 64), (w0), by unfold issueGoes; decide +kernel⟩

theorem witness_subs : ∃ (i : Issue) (d : Fin 64) (a : Fin 64) (b : Fin 64) (s : State),
    (Instr.subs i d a b).wf = true ∧ issueGoes i s :=
  ⟨(⟨0, 1, 0, false⟩ : Issue), (1 : Fin 64), (1 : Fin 64), (1 : Fin 64), (w0), by unfold issueGoes; decide +kernel⟩

theorem witness_mul : ∃ (i : Issue) (d : Fin 64) (a : Fin 64) (b : Fin 64) (s : State),
    (Instr.mul i d a b).wf = true ∧ issueGoes i s :=
  ⟨(⟨0, 1, 0, false⟩ : Issue), (1 : Fin 64), (1 : Fin 64), (1 : Fin 64), (w0), by unfold issueGoes; decide +kernel⟩

theorem witness_mulh : ∃ (i : Issue) (d : Fin 64) (a : Fin 64) (b : Fin 64) (s : State),
    (Instr.mulh i d a b).wf = true ∧ issueGoes i s :=
  ⟨(⟨0, 1, 0, false⟩ : Issue), (1 : Fin 64), (1 : Fin 64), (1 : Fin 64), (w0), by unfold issueGoes; decide +kernel⟩

theorem witness_mulhu : ∃ (i : Issue) (d : Fin 64) (a : Fin 64) (b : Fin 64) (s : State),
    (Instr.mulhu i d a b).wf = true ∧ issueGoes i s :=
  ⟨(⟨0, 1, 0, false⟩ : Issue), (1 : Fin 64), (1 : Fin 64), (1 : Fin 64), (w0), by unfold issueGoes; decide +kernel⟩

theorem witness_addi : ∃ (i : Issue) (d : Fin 64) (a : Fin 64) (imm : BitVec 7) (s : State),
    (Instr.addi i d a imm).wf = true ∧ issueGoes i s :=
  ⟨(⟨0, 1, 0, false⟩ : Issue), (1 : Fin 64), (1 : Fin 64), 1#7, (w0), by unfold issueGoes; decide +kernel⟩

theorem witness_shli : ∃ (i : Issue) (d : Fin 64) (a : Fin 64) (imm : BitVec 7) (s : State),
    (Instr.shli i d a imm).wf = true ∧ issueGoes i s :=
  ⟨(⟨0, 1, 0, false⟩ : Issue), (1 : Fin 64), (1 : Fin 64), 1#7, (w0), by unfold issueGoes; decide +kernel⟩

theorem witness_shri : ∃ (i : Issue) (d : Fin 64) (a : Fin 64) (imm : BitVec 7) (s : State),
    (Instr.shri i d a imm).wf = true ∧ issueGoes i s :=
  ⟨(⟨0, 1, 0, false⟩ : Issue), (1 : Fin 64), (1 : Fin 64), 1#7, (w0), by unfold issueGoes; decide +kernel⟩

theorem witness_sari : ∃ (i : Issue) (d : Fin 64) (a : Fin 64) (imm : BitVec 7) (s : State),
    (Instr.sari i d a imm).wf = true ∧ issueGoes i s :=
  ⟨(⟨0, 1, 0, false⟩ : Issue), (1 : Fin 64), (1 : Fin 64), 1#7, (w0), by unfold issueGoes; decide +kernel⟩

theorem witness_li : ∃ (i : Issue) (d : Fin 64) (imm : BitVec 13) (s : State),
    (Instr.li i d imm).wf = true ∧ issueGoes i s :=
  ⟨(⟨0, 1, 0, false⟩ : Issue), (1 : Fin 64), 1#13, (w0), by unfold issueGoes; decide +kernel⟩

theorem witness_lis : ∃ (i : Issue) (d : Fin 64) (imm : BitVec 13) (s : State),
    (Instr.lis i d imm).wf = true ∧ issueGoes i s :=
  ⟨(⟨0, 1, 0, false⟩ : Issue), (1 : Fin 64), 1#13, (w0), by unfold issueGoes; decide +kernel⟩

theorem witness_mov : ∃ (i : Issue) (d : Fin 64) (a : Fin 64) (s : State),
    (Instr.mov i d a).wf = true ∧ issueGoes i s :=
  ⟨(⟨0, 3, 0, false⟩ : Issue), (1 : Fin 64), (1 : Fin 64), (w0), by unfold issueGoes; decide +kernel⟩

theorem witness_qlev : ∃ (i : Issue) (d : Fin 64) (qa : Fin 64) (s : State),
    (Instr.qlev i d qa).wf = true ∧ issueGoes i s :=
  ⟨(⟨0, 3, 0, false⟩ : Issue), (1 : Fin 64), (1 : Fin 64), (w0), by unfold issueGoes; decide +kernel⟩

theorem witness_srd : ∃ (i : Issue) (d : Fin 64) (selr : BitVec 7) (s : State),
    (Instr.srd i d selr).wf = true ∧ issueGoes i s :=
  ⟨(⟨0, 3, 0, false⟩ : Issue), (1 : Fin 64), 1#7, (w0), by unfold issueGoes; decide +kernel⟩

theorem witness_sel : ∃ (i : Issue) (d : Fin 64) (a : Fin 64) (b : Fin 64) (s : State),
    (Instr.sel i d a b).wf = true ∧ (s.land i.cycle).noop i.cycle = false :=
  ⟨(⟨0, 1, 0, false⟩ : Issue), (1 : Fin 64), (1 : Fin 64), (1 : Fin 64), (w0), by decide +kernel⟩

theorem witness_fsel : ∃ (i : Issue) (d : Fin 64) (a : Fin 64) (b : Fin 64) (s : State),
    (Instr.fsel i d a b).wf = true ∧ (s.land i.cycle).noop i.cycle = false :=
  ⟨(⟨0, 2, 0, false⟩ : Issue), (1 : Fin 64), (1 : Fin 64), (1 : Fin 64), (w0), by decide +kernel⟩

theorem witness_cmp : ∃ (i : Issue) (pd : Fin 16) (a : Fin 64) (b : Fin 64) (cond : BitVec 3) (s : State),
    (Instr.cmp i pd a b cond).wf = true ∧ issueGoes i s :=
  ⟨(⟨0, 1, 0, false⟩ : Issue), (1 : Fin 16), (1 : Fin 64), (1 : Fin 64), 1#3, (w0), by unfold issueGoes; decide +kernel⟩

theorem witness_add64 : ∃ (i : Issue) (d : Fin 64) (a : Fin 64) (b : Fin 64) (s : State),
    (Instr.add64 i d a b).wf = true ∧ issueGoes i s :=
  ⟨(⟨0, 1, 0, false⟩ : Issue), (2), (4), (6), (w1), by unfold issueGoes; decide +kernel⟩

theorem witness_sub64 : ∃ (i : Issue) (d : Fin 64) (a : Fin 64) (b : Fin 64) (s : State),
    (Instr.sub64 i d a b).wf = true ∧ issueGoes i s :=
  ⟨(⟨0, 1, 0, false⟩ : Issue), (2), (2), (2), (w1), by unfold issueGoes; decide +kernel⟩

theorem witness_loopOpen : ∃ (i : Issue) (trip : BitVec 16) (s : State),
    (Instr.loopOpen i trip).wf = true ∧ issueGoes i s ∧ s.eng.loops.length < 2 :=
  ⟨(⟨0, 0, 0, false⟩ : Issue), 1#16, (w1), by unfold issueGoes; decide +kernel⟩

theorem witness_loopIterationEnd : ∃ (n : Nat) (r : List Nat) (s : State),
    s.eng.loops = n :: r :=
  ⟨(0), ([5]), ({ w1 with eng := { w1.eng with loops := [0, 5] } }), by decide +kernel⟩

theorem witness_fadd : ∃ (i : Issue) (d : Fin 64) (a : Fin 64) (b : Fin 64) (s : State),
    (Instr.fadd i d a b).wf = true ∧ issueGoes i s :=
  ⟨(⟨0, 2, 0, false⟩ : Issue), (1 : Fin 64), (1 : Fin 64), (1 : Fin 64), (w0), by unfold issueGoes; decide +kernel⟩

theorem witness_fsub : ∃ (i : Issue) (d : Fin 64) (a : Fin 64) (b : Fin 64) (s : State),
    (Instr.fsub i d a b).wf = true ∧ issueGoes i s :=
  ⟨(⟨0, 2, 0, false⟩ : Issue), (1 : Fin 64), (1 : Fin 64), (1 : Fin 64), (w0), by unfold issueGoes; decide +kernel⟩

theorem witness_fmul : ∃ (i : Issue) (d : Fin 64) (a : Fin 64) (b : Fin 64) (s : State),
    (Instr.fmul i d a b).wf = true ∧ issueGoes i s :=
  ⟨(⟨0, 2, 0, false⟩ : Issue), (1 : Fin 64), (1 : Fin 64), (1 : Fin 64), (w0), by unfold issueGoes; decide +kernel⟩

theorem witness_fmin : ∃ (i : Issue) (d : Fin 64) (a : Fin 64) (b : Fin 64) (s : State),
    (Instr.fmin i d a b).wf = true ∧ issueGoes i s :=
  ⟨(⟨0, 2, 0, false⟩ : Issue), (1 : Fin 64), (1 : Fin 64), (1 : Fin 64), (w0), by unfold issueGoes; decide +kernel⟩

theorem witness_fmax : ∃ (i : Issue) (d : Fin 64) (a : Fin 64) (b : Fin 64) (s : State),
    (Instr.fmax i d a b).wf = true ∧ issueGoes i s :=
  ⟨(⟨0, 2, 0, false⟩ : Issue), (1 : Fin 64), (1 : Fin 64), (1 : Fin 64), (w0), by unfold issueGoes; decide +kernel⟩

theorem witness_fdiv : ∃ (i : Issue) (d : Fin 64) (a : Fin 64) (b : Fin 64) (s : State),
    (Instr.fdiv i d a b).wf = true ∧ issueGoes i s :=
  ⟨(⟨0, 2, 0, false⟩ : Issue), (1 : Fin 64), (1 : Fin 64), (1 : Fin 64), (w0), by unfold issueGoes; decide +kernel⟩

theorem witness_fma : ∃ (i : Issue) (d : Fin 64) (a : Fin 64) (b : Fin 64) (s : State),
    (Instr.fma i d a b).wf = true ∧ issueGoes i s :=
  ⟨(⟨0, 2, 0, false⟩ : Issue), (1 : Fin 64), (1 : Fin 64), (1 : Fin 64), (w0), by unfold issueGoes; decide +kernel⟩

theorem witness_fms : ∃ (i : Issue) (d : Fin 64) (a : Fin 64) (b : Fin 64) (s : State),
    (Instr.fms i d a b).wf = true ∧ issueGoes i s :=
  ⟨(⟨0, 2, 0, false⟩ : Issue), (1 : Fin 64), (1 : Fin 64), (1 : Fin 64), (w0), by unfold issueGoes; decide +kernel⟩

theorem witness_fabs : ∃ (i : Issue) (d : Fin 64) (a : Fin 64) (s : State),
    (Instr.fabs i d a).wf = true ∧ issueGoes i s :=
  ⟨(⟨0, 2, 0, false⟩ : Issue), (1 : Fin 64), (1 : Fin 64), (w0), by unfold issueGoes; decide +kernel⟩

theorem witness_fneg : ∃ (i : Issue) (d : Fin 64) (a : Fin 64) (s : State),
    (Instr.fneg i d a).wf = true ∧ issueGoes i s :=
  ⟨(⟨0, 2, 0, false⟩ : Issue), (1 : Fin 64), (1 : Fin 64), (w0), by unfold issueGoes; decide +kernel⟩

theorem witness_fcvti : ∃ (i : Issue) (d : Fin 64) (a : Fin 64) (s : State),
    (Instr.fcvti i d a).wf = true ∧ issueGoes i s :=
  ⟨(⟨0, 2, 0, false⟩ : Issue), (1 : Fin 64), (1 : Fin 64), (w0), by unfold issueGoes; decide +kernel⟩

theorem witness_fcvtf : ∃ (i : Issue) (d : Fin 64) (a : Fin 64) (s : State),
    (Instr.fcvtf i d a).wf = true ∧ issueGoes i s :=
  ⟨(⟨0, 2, 0, false⟩ : Issue), (1 : Fin 64), (1 : Fin 64), (w0), by unfold issueGoes; decide +kernel⟩

theorem witness_fsqrt : ∃ (i : Issue) (d : Fin 64) (a : Fin 64) (s : State),
    (Instr.fsqrt i d a).wf = true ∧ issueGoes i s :=
  ⟨(⟨0, 2, 0, false⟩ : Issue), (1 : Fin 64), (1 : Fin 64), (w0), by unfold issueGoes; decide +kernel⟩

theorem witness_fcmp : ∃ (i : Issue) (pd : Fin 16) (a : Fin 64) (b : Fin 64) (cond : BitVec 3) (s : State),
    (Instr.fcmp i pd a b cond).wf = true ∧ issueGoes i s :=
  ⟨(⟨0, 2, 0, false⟩ : Issue), (1 : Fin 16), (1 : Fin 64), (1 : Fin 64), 1#3, (w0), by unfold issueGoes; decide +kernel⟩

theorem witness_ld : ∃ (i : Issue) (d : Fin 64) (a : Fin 64) (imm : BitVec 7) (s : State),
    (Instr.ld i d a imm).wf = true ∧ issueGoes i s ∧ (s.land i.cycle).eccAt mcData (dataAddr (addrM (s.land i.cycle) a.val imm)) = .ok :=
  ⟨(⟨0, 3, 0, false⟩ : Issue), (1 : Fin 64), (1 : Fin 64), 1#7, (w0), by unfold issueGoes; decide +kernel⟩

theorem witness_ldx : ∃ (i : Issue) (d : Fin 64) (a : Fin 64) (b : Fin 64) (s : State),
    (Instr.ldx i d a b).wf = true ∧ issueGoes i s ∧ (s.land i.cycle).eccAt mcData (dataAddr (addrX (s.land i.cycle) a.val b.val)) = .ok :=
  ⟨(⟨0, 3, 0, false⟩ : Issue), (1 : Fin 64), (1 : Fin 64), (1 : Fin 64), (w0), by unfold issueGoes; decide +kernel⟩

theorem witness_st : ∃ (i : Issue) (d : Fin 64) (a : Fin 64) (imm : BitVec 7) (s : State),
    (Instr.st i d a imm).wf = true ∧ issueGoes i s :=
  ⟨(⟨0, 3, 0, false⟩ : Issue), (1 : Fin 64), (1 : Fin 64), 1#7, (w0), by unfold issueGoes; decide +kernel⟩

theorem witness_stx : ∃ (i : Issue) (d : Fin 64) (a : Fin 64) (b : Fin 64) (s : State),
    (Instr.stx i d a b).wf = true ∧ issueGoes i s :=
  ⟨(⟨0, 3, 0, false⟩ : Issue), (1 : Fin 64), (1 : Fin 64), (1 : Fin 64), (w0), by unfold issueGoes; decide +kernel⟩

theorem witness_lld : ∃ (i : Issue) (d : Fin 64) (a : Fin 64) (imm : BitVec 7) (s : State),
    (Instr.lld i d a imm).wf = true ∧ issueGoes i s ∧ (s.land i.cycle).eccAt mcLog (logAddr (addrM (s.land i.cycle) a.val imm)) = .ok :=
  ⟨(⟨0, 3, 0, false⟩ : Issue), (1 : Fin 64), (1 : Fin 64), 1#7, (w0), by unfold issueGoes; decide +kernel⟩

theorem witness_lst : ∃ (i : Issue) (d : Fin 64) (a : Fin 64) (imm : BitVec 7) (s : State),
    (Instr.lst i d a imm).wf = true ∧ issueGoes i s :=
  ⟨(⟨0, 3, 0, false⟩ : Issue), (1 : Fin 64), (1 : Fin 64), 1#7, (w0), by unfold issueGoes; decide +kernel⟩

theorem witness_qpop : ∃ (i : Issue) (d : Fin 64) (qa : Fin 64) (s : State),
    (Instr.qpop i d qa).wf = true ∧ issueGoes i s ∧ qSize s qa.val ≠ 0 ∧ qCons s qa.val = epEngine ∧ 0 < qLevel s qa.val ∧ s.eccAt mcQue (qAddr s qa.val 0) = .ok :=
  ⟨(⟨0, 3, 0, false⟩ : Issue), (1 : Fin 64), (3), (((withQueue 3 4 0#32 w1).setRf (Reg.queQLevel 3) 14 0 1)), by unfold issueGoes; decide +kernel⟩

theorem witness_qpopAny : ∃ (i : Issue) (d : Fin 64) (qa : Fin 64) (s : State),
    (Instr.qpop i d qa).wf = true ∧ issueGoes i s :=
  ⟨(⟨0, 3, 0, false⟩ : Issue), (1 : Fin 64), (1 : Fin 64), (w0), by unfold issueGoes; decide +kernel⟩

theorem witness_qpushAny : ∃ (i : Issue) (d : Fin 64) (qa : Fin 64) (s : State),
    (Instr.qpush i d qa).wf = true ∧ issueGoes i s :=
  ⟨(⟨0, 3, 0, false⟩ : Issue), (1 : Fin 64), (1 : Fin 64), (w0), by unfold issueGoes; decide +kernel⟩

theorem witness_qmovAny : ∃ (i : Issue) (qa : Fin 64) (qb : Fin 64) (s : State),
    (Instr.qmov i qa qb).wf = true ∧ issueGoes i s :=
  ⟨(⟨0, 3, 0, false⟩ : Issue), (1 : Fin 64), (1 : Fin 64), (w0), by unfold issueGoes; decide +kernel⟩

theorem witness_qpush : ∃ (i : Issue) (d : Fin 64) (qa : Fin 64) (s : State),
    (Instr.qpush i d qa).wf = true ∧ issueGoes i s ∧ qSize s qa.val ≠ 0 ∧ qProd s qa.val = epEngine ∧ qLevel s qa.val < qSize s qa.val ∧ qLevel s qa.val + 1 < 2 ^ 15 :=
  ⟨(⟨0, 3, 0, false⟩ : Issue), (1 : Fin 64), (3), (((withQueue 3 4 0#32 w1).setRf (Reg.queQLevel 3) 14 0 3)), by unfold issueGoes; decide +kernel⟩

theorem witness_qmov : ∃ (i : Issue) (qa : Fin 64) (qb : Fin 64) (s : State),
    (Instr.qmov i qa qb).wf = true ∧ issueGoes i s ∧ qa ≠ qb ∧ qSize s qa.val ≠ 0 ∧ qSize s qb.val ≠ 0 ∧ qCons s qa.val = epEngine ∧ qProd s qb.val = epEngine ∧ 0 < qLevel s qa.val ∧ qLevel s qb.val < qSize s qb.val ∧ qLevel s qb.val + 1 < 2 ^ 15 ∧ s.eccAt mcQue (qAddr s qa.val 0) = .ok :=
  ⟨(⟨0, 3, 0, false⟩ : Issue), (3), (4), (((withQueue 4 8 0#32 ((withQueue 3 4 0#32 w1).setRf (Reg.queQLevel 3) 14 0 1)).setReg (Reg.queQCfg 4) 0x80040#32)), by unfold issueGoes; decide +kernel⟩

theorem witness_qmovTurn : ∃ (i : Issue) (qa : Fin 64) (qb : Fin 64) (s : State),
    (Instr.qmov i qa qb).wf = true ∧ issueGoes i s ∧ qa = qb ∧ qSize s qa.val ≠ 0 ∧ qCons s qa.val = epEngine ∧ qProd s qa.val = epEngine ∧ 0 < qLevel s qa.val ∧ qLevel s qa.val < qSize s qa.val :=
  ⟨(⟨0, 3, 0, false⟩ : Issue), (3), (3), (((withQueue 3 4 0#32 w1).setRf (Reg.queQLevel 3) 14 0 2)), by unfold issueGoes; decide +kernel⟩

theorem witness_islandQueuePush : ∃ (q : Fin 64) (island : Fin 25) (unit : BitVec 8) (ws : List Word) (s : State),
    qSize s q.val ≠ 0 ∧ qProd s q.val = epIsland island.val unit.toNat ∧ qLevel s q.val + ws.length ≤ qSize s q.val ∧ qLevel s q.val + ws.length < 2 ^ 15 :=
  ⟨(3), (1), (1#8), [1#32, 2#32], (((withQueue 3 4 0x00008101#32 w1).setRf (Reg.queQLevel 3) 14 0 2)), by decide +kernel⟩

theorem witness_islandQueuePop : ∃ (q : Fin 64) (island : Fin 25) (unit : BitVec 8) (s : State),
    qSize s q.val ≠ 0 ∧ qCons s q.val = epIsland island.val unit.toNat ∧ 0 < qLevel s q.val ∧ s.eccAt mcQue (qAddr s q.val 0) = .ok :=
  ⟨(3), (1), (1#8), (((withQueue 3 4 0x81010000#32 w1).setRf (Reg.queQLevel 3) 14 0 1)), by decide +kernel⟩

theorem witness_islandQueueSwap : ∃ (q : Fin 64) (island : Fin 25) (unit : BitVec 8) (push : Option Word) (w : Word) (s : State),
    push = some w ∧ qSize s q.val ≠ 0 ∧ qCons s q.val = epIsland island.val unit.toNat ∧ 0 < qLevel s q.val ∧ s.eccAt mcQue (qAddr s q.val 0) = .ok :=
  ⟨(3), (1), (1#8), (some 9#32), (9#32), (((withQueue 3 4 0x81010000#32 w1).setRf (Reg.queQLevel 3) 14 0 1)), by decide +kernel⟩

theorem witness_islandQueueEmpty : ∃ (q : Fin 64) (island : Fin 25) (unit : BitVec 8) (s : State),
    qSize s q.val ≠ 0 ∧ qCons s q.val = epIsland island.val unit.toNat ∧ qLevel s q.val = 0 :=
  ⟨(3), (1), (1#8), (((withQueue 3 4 0x81010000#32 w1).setRf (Reg.queQLevel 3) 14 0 0)), by decide +kernel⟩

theorem witness_hostDataPortSwap : ∃ (q : Fin 64) (gapNs : Nat) (push : Option Word) (w : Word) (v : Word) (ws : List Word) (s : State),
    push = some w ∧ 20 ≤ gapNs ∧ qSize s q.val ≠ 0 ∧ qCons s q.val = epHost ∧ sget [] s.qcell q.val = v :: ws :=
  ⟨(3), (20), (some 7#32), (7#32), (0x12345678#32), ([9#32]), ({ ((withQueue 3 4 0x40000000#32 w1).setRf (Reg.queQLevel 3) 14 0 2) with qcell := [(3, [0x12345678#32, 9#32])] }), by decide +kernel⟩

theorem witness_hostPush : ∃ (q : Fin 64) (w : Word) (s : State),
    qSize s q.val ≠ 0 ∧ qProd s q.val = epHost ∧ qLevel s q.val < qSize s q.val ∧ qLevel s q.val + 1 < 2 ^ 15 ∧ s.boot.prog = false :=
  ⟨(3), 7#32, (((withQueue 3 4 0x00004000#32 w1).setRf (Reg.queQLevel 3) 14 0 3)), by decide +kernel⟩

theorem witness_hostDataPortRead : ∃ (q : Fin 64) (gapNs : Nat) (w : Word) (ws : List Word) (s : State),
    20 ≤ gapNs ∧ qSize s q.val ≠ 0 ∧ qCons s q.val = epHost ∧ sget [] s.qcell q.val = w :: ws :=
  ⟨(3), (20), (0x12345678#32), ([9#32]), ({ ((withQueue 3 4 0x40000000#32 w1).setRf (Reg.queQLevel 3) 14 0 2) with qcell := [(3, [0x12345678#32, 9#32])] }), by decide +kernel⟩

theorem witness_headCellRefill : ∃ (q : Fin 64) (s : State),
    qSize s q.val ≠ 0 ∧ qCons s q.val = epHost ∧ (sget [] s.qcell q.val).length < 2 ∧ (sget [] s.qcell q.val).length < qLevel s q.val ∧ s.eccAt mcQue (qAddr s q.val (sget [] s.qcell q.val).length) = .ok ∧ s.boot.prog = false :=
  ⟨(3), ({ ((withQueue 3 4 0x40000000#32 w1).setRf (Reg.queQLevel 3) 14 0 2) with qcell := [(3, [0x12345678#32])] }), by decide +kernel⟩

theorem witness_xrd : ∃ (i : Issue) (d : Fin 64) (port : BitVec 11) (fp : BitVec 2) (s : State),
    (Instr.xrd i d port fp).wf = true ∧ issueGoes i s :=
  ⟨(⟨0, 3, 0, false⟩ : Issue), (1 : Fin 64), (1408#11), 1#2, (w1), by unfold issueGoes; decide +kernel⟩

theorem witness_xwr : ∃ (i : Issue) (d : Fin 64) (port : BitVec 11) (s : State),
    (Instr.xwr i d port).wf = true ∧ issueGoes i s :=
  ⟨(⟨0, 3, 0, false⟩ : Issue), (1 : Fin 64), (1440#11), (w1), by unfold issueGoes; decide +kernel⟩

theorem witness_xq : ∃ (i : Issue) (q : Fin 64) (port : BitVec 11) (s : State),
    (Instr.xq i q port).wf = true ∧ issueGoes i s :=
  ⟨(⟨0, 3, 0, false⟩ : Issue), (3), (1408#11), (((withQueue 3 4 0#32 w1).setRf (Reg.queQLevel 3) 14 0 1)), by unfold issueGoes; decide +kernel⟩

theorem witness_xqPushes : ∃ (i : Issue) (q : Fin 64) (port : BitVec 11) (s : State),
    (Instr.xq i q port).wf = true ∧ issueGoes i s ∧ (s.port port.toNat).valid = true ∧ ¬ (11 ≤ port.toNat / 64 ∧ port.toNat / 64 ≤ 20) ∧ qSize s q.val ≠ 0 ∧ qProd s q.val = epEngine ∧ qLevel s q.val < qSize s q.val ∧ qLevel s q.val + 1 < 2 ^ 15 :=
  ⟨(⟨0, 3, 0, false⟩ : Issue), (3), (1408#11), ((((withQueue 3 4 0#32 w1).setRf (Reg.queQLevel 3) 14 0 1)).setPort 1408 ⟨9#32, true, 0#32, false⟩), by unfold issueGoes; decide +kernel⟩

theorem witness_qx : ∃ (i : Issue) (q : Fin 64) (port : BitVec 11) (s : State),
    (Instr.qx i q port).wf = true ∧ issueGoes i s :=
  ⟨(⟨0, 3, 0, false⟩ : Issue), (3), (1440#11), (((withQueue 3 4 0#32 w1).setRf (Reg.queQLevel 3) 14 0 1)), by unfold issueGoes; decide +kernel⟩

theorem witness_crossingWordArrival : ∃ (port : BitVec 11) (w : Word) (s : State),
    (Instr.crossingWordArrival port w).wf = true ∧ port.toNat % 64 < 32 :=
  ⟨(1409#11), 7#32, (w1), by decide +kernel⟩

theorem witness_arrivalOut : ∃ (port : BitVec 11) (w : Word) (s : State),
    (Instr.crossingWordArrival port w).wf = true ∧ 32 ≤ port.toNat % 64 ∧ (s.port port.toNat).transit = true :=
  ⟨(1441#11), 7#32, (w1.setPort 1441 ⟨0#32, false, 9#32, true⟩), by decide +kernel⟩

theorem witness_arrivalOverrun : ∃ (port : BitVec 11) (w : Word) (s : State),
    (Instr.crossingWordArrival port w).wf = true ∧ port.toNat % 64 < 32 ∧ (s.port port.toNat).valid = true :=
  ⟨(1409#11), 7#32, (w1.setPort 1409 ⟨5#32, true, 0#32, false⟩), by decide +kernel⟩

theorem witness_xwrOverrun : ∃ (i : Issue) (d : Fin 64) (port : BitVec 11) (s : State),
    (Instr.xwr i d port).wf = true ∧ issueGoes i s ∧ portGroup port.toNat = none ∧ (s.port port.toNat).transit = true :=
  ⟨(⟨0, 3, 0, false⟩ : Issue), (1 : Fin 64), (1440#11), (w1.setPort 1440 ⟨0#32, false, 9#32, true⟩), by unfold issueGoes; decide +kernel⟩

theorem witness_mst : ∃ (i : Issue) (d : Fin 64) (a : Fin 64) (imm : BitVec 7) (r : RegRow) (s : State),
    (Instr.mst i d a imm).wf = true ∧ issueGoes i s ∧ regRow? (hostAddr (addrM (s.land i.cycle) a.val imm)) = some r :=
  ⟨(⟨0, 3, 0, false⟩ : Issue), (1 : Fin 64), (0), (0#7), (⟨0, 1, 0, 1, 0, .ro, 5664, 0, 0⟩ : RegRow), (w1), by unfold issueGoes; decide +kernel⟩

theorem witness_mstAny : ∃ (i : Issue) (d : Fin 64) (a : Fin 64) (imm : BitVec 7) (s : State),
    (Instr.mst i d a imm).wf = true ∧ issueGoes i s :=
  ⟨(⟨0, 3, 0, false⟩ : Issue), (1 : Fin 64), (1 : Fin 64), 1#7, (w0), by unfold issueGoes; decide +kernel⟩

theorem witness_msw : ∃ (i : Issue) (a : Fin 64) (consist : BitVec 16) (s : State),
    (Instr.msw i a consist).wf = true ∧ issueGoes i s :=
  ⟨(⟨0, 3, 0, false⟩ : Issue), (1 : Fin 64), (0xFFFF#16), (withW 1 0xFFFF#32 w1), by unfold issueGoes; decide +kernel⟩

theorem witness_scrbAny : ∃ (i : Issue) (a : Fin 64) (imm : BitVec 7) (s : State),
    (Instr.scrb i a imm).wf = true ∧ issueGoes i s :=
  ⟨(⟨0, 3, 0, false⟩ : Issue), (1 : Fin 64), 1#7, (w0), by unfold issueGoes; decide +kernel⟩

theorem witness_scrb : ∃ (i : Issue) (a : Fin 64) (imm : BitVec 7) (s : State),
    (Instr.scrb i a imm).wf = true ∧ issueGoes i s ∧ s.eccAt (scrubUnit (imm.toNat % 4) ((s.land i.cycle).rw a.val).toNat).1 (scrubUnit (imm.toNat % 4) ((s.land i.cycle).rw a.val).toNat).2 = .single :=
  ⟨(⟨0, 3, 0, false⟩ : Issue), (1 : Fin 64), (1#7), ((w1.setEcc mcData 0 .single)), by unfold issueGoes; decide +kernel⟩

theorem witness_scrbDouble : ∃ (i : Issue) (a : Fin 64) (imm : BitVec 7) (s : State),
    (Instr.scrb i a imm).wf = true ∧ issueGoes i s ∧ s.eccAt (scrubUnit (imm.toNat % 4) ((s.land i.cycle).rw a.val).toNat).1 (scrubUnit (imm.toNat % 4) ((s.land i.cycle).rw a.val).toNat).2 = .double :=
  ⟨(⟨0, 3, 0, false⟩ : Issue), (1 : Fin 64), (1#7), ((w1.setEcc mcData 0 .double)), by unfold issueGoes; decide +kernel⟩

theorem witness_scrubLate : ∃ (mem : Fin 4) (seconds : BitVec 32) (s : State),
    (Instr.scrubLate mem seconds).wf = true :=
  ⟨(1 : Fin 4), (600#32), (w1), by decide +kernel⟩

theorem witness_arm : ∃ (i : Issue) (a : Fin 64) (s : State),
    (Instr.arm i a).wf = true ∧ issueGoes i s :=
  ⟨(⟨0, 3, 0, false⟩ : Issue), (1 : Fin 64), (w0), by unfold issueGoes; decide +kernel⟩

theorem witness_darm : ∃ (i : Issue) (a : Fin 64) (s : State),
    (Instr.darm i a).wf = true ∧ issueGoes i s :=
  ⟨(⟨0, 3, 0, false⟩ : Issue), (1 : Fin 64), (w0), by unfold issueGoes; decide +kernel⟩

theorem witness_rld : ∃ (i : Issue) (d : Fin 64) (a : Fin 64) (imm : BitVec 7) (s : State),
    (Instr.rld i d a imm).wf = true ∧ issueGoes i s ∧ aliasBase (hostAddr (addrM (s.land i.cycle) a.val imm)) = none ∧ (accOf (hostAddr (addrM (s.land i.cycle) a.val imm)) = some .ro ∨ accOf (hostAddr (addrM (s.land i.cycle) a.val imm)) = some .rw ∨ accOf (hostAddr (addrM (s.land i.cycle) a.val imm)) = some .sh ∨ accOf (hostAddr (addrM (s.land i.cycle) a.val imm)) = some .w1c) :=
  ⟨(⟨0, 3, 0, false⟩ : Issue), (1 : Fin 64), (1 : Fin 64), (0#7), (w1), by unfold issueGoes; decide +kernel⟩

theorem witness_rldAny : ∃ (i : Issue) (d : Fin 64) (a : Fin 64) (imm : BitVec 7) (s : State),
    (Instr.rld i d a imm).wf = true ∧ issueGoes i s :=
  ⟨(⟨0, 3, 0, false⟩ : Issue), (1 : Fin 64), (1 : Fin 64), 1#7, (w0), by unfold issueGoes; decide +kernel⟩

theorem witness_rstAny : ∃ (i : Issue) (d : Fin 64) (a : Fin 64) (imm : BitVec 7) (s : State),
    (Instr.rst i d a imm).wf = true ∧ issueGoes i s :=
  ⟨(⟨0, 3, 0, false⟩ : Issue), (1 : Fin 64), (1 : Fin 64), 1#7, (w0), by unfold issueGoes; decide +kernel⟩

theorem witness_rst : ∃ (i : Issue) (d : Fin 64) (a : Fin 64) (imm : BitVec 7) (s : State),
    (Instr.rst i d a imm).wf = true ∧ issueGoes i s ∧ aliasBase (hostAddr (addrM (s.land i.cycle) a.val imm)) = none ∧ accOf (hostAddr (addrM (s.land i.cycle) a.val imm)) = some .sh ∧ s.eng.released = true ∧ s.boot.prog = false :=
  ⟨(⟨0, 3, 0, false⟩ : Issue), (1 : Fin 64), (1 : Fin 64), (0#7), (withW 1 65536#32 w1), by unfold issueGoes; decide +kernel⟩

theorem witness_shadowWrite : ∃ (m : Master) (addr : BitVec 20) (w : Word) (b : Nat) (s : State),
    (aliasBase addr.toNat = some b ∨ (aliasBase addr.toNat = none ∧ addr.toNat = b)) ∧ isSh b = true ∧ s.eng.released = true ∧ s.boot.prog = false :=
  ⟨(Master.host), (98304#20), 7#32, (65536), (w1), by decide +kernel⟩

theorem witness_registerWriteRw : ∃ (addr : BitVec 20) (e : Option Word) (f : Option Word) (h : Option Word) (v : Word) (s : State),
    aliasBase addr.toNat = none ∧ accOf addr.toNat = some .rw ∧ addr.toNat ∉ [Reg.mtrCalhold, Reg.mtrWcCtrl, Reg.ctlTsCtrl, Reg.parLease, Reg.parGate, Reg.secReq, Reg.secObjCtrl] ∧ addr.toNat / 0x10000 ≠ 0xC ∧ (h <|> f <|> e) = some v ∧ s.boot.prog = false :=
  ⟨(0x10070#20), (none : Option Word), (none : Option Word), (some 5#32), (5#32), (w1), by decide +kernel⟩

theorem witness_registerWriteSh : ∃ (addr : BitVec 20) (e : Option Word) (f : Option Word) (h : Option Word) (v : Word) (b : Nat) (s : State),
    (aliasBase addr.toNat = some b ∨ (aliasBase addr.toNat = none ∧ addr.toNat = b)) ∧ isSh b = true ∧ s.eng.released = true ∧ (h <|> f <|> e) = some v ∧ s.boot.prog = false :=
  ⟨(98304#20), (none : Option Word), (none : Option Word), (some 5#32), (5#32), (65536), (w1), by decide +kernel⟩

theorem witness_registerWriteW1c_engine : ∃ (addr : BitVec 20) (w : Word) (s : State),
    aliasBase addr.toNat = none ∧ accOf addr.toNat = some .w1c ∧ addr.toNat ≠ Reg.ttePfStat ∧ s.boot.prog = false :=
  ⟨((BitVec.ofNat 20 Reg.pwrEvt)), (0x5#32), (w1.setReg Reg.pwrEvt 0xFF#32), by decide +kernel⟩

theorem witness_registerWriteW1c_fabric : ∃ (addr : BitVec 20) (w : Word) (s : State),
    aliasBase addr.toNat = none ∧ accOf addr.toNat = some .w1c ∧ addr.toNat ≠ Reg.ttePfStat ∧ s.boot.prog = false :=
  ⟨((BitVec.ofNat 20 Reg.pwrEvt)), (0x5#32), (w1.setReg Reg.pwrEvt 0xFF#32), by decide +kernel⟩

theorem witness_registerWriteW1c_host : ∃ (addr : BitVec 20) (w : Word) (s : State),
    aliasBase addr.toNat = none ∧ accOf addr.toNat = some .w1c ∧ addr.toNat ≠ Reg.ttePfStat ∧ s.boot.prog = false :=
  ⟨((BitVec.ofNat 20 Reg.pwrEvt)), (0x5#32), (w1.setReg Reg.pwrEvt 0xFF#32), by decide +kernel⟩

theorem witness_registerWriteRo : ∃ (addr : BitVec 20) (e : Option Word) (f : Option Word) (h : Option Word) (s : State),
    aliasBase addr.toNat = none ∧ accOf addr.toNat = some .ro :=
  ⟨((BitVec.ofNat 20 Reg.sysCfg)), (none : Option Word), (none : Option Word), (none : Option Word), (w1), by decide +kernel⟩

theorem witness_setAliasWrite : ∃ (addr : BitVec 20) (w : Word) (b : Nat) (s : State),
    aliasBase addr.toNat = some b ∧ isSh b = false ∧ accOf b = some .w1c ∧ b ≠ Reg.ttePfStat ∧ s.boot.prog = false :=
  ⟨(32856#20), 7#32, (88), (w1), by decide +kernel⟩

theorem witness_w1cClear : ∃ (m : Master) (addr : BitVec 20) (w : Word) (hw : Word) (s : State),
    aliasBase addr.toNat = none ∧ accOf addr.toNat = some .w1c ∧ addr.toNat ≠ Reg.ttePfStat ∧ s.boot.prog = false :=
  ⟨(Master.host), ((BitVec.ofNat 20 Reg.tteXsum)), 7#32, 7#32, (w1), by decide +kernel⟩

theorem witness_sysCommit : ∃ (m : Master) (w : Word) (s : State),
    s.eng.released = true ∧ s.boot.prog = false :=
  ⟨(Master.host), 7#32, (w1), by decide +kernel⟩

theorem witness_tteEccClr : ∃ (w : Word) (n : Nat) (s : State),
    n < 6 ∧ s.boot.prog = false :=
  ⟨7#32, (5), (w1), by decide +kernel⟩

theorem witness_clrSel : ∃ (s : State),
    s.boot.prog = false :=
  ⟨(w0), by decide +kernel⟩

theorem witness_clrAll : ∃ (s : State),
    s.boot.prog = false :=
  ⟨(w0), by decide +kernel⟩

theorem witness_queClrCnt : ∃ (q : Fin 64) (s : State),
    s.boot.prog = false :=
  ⟨(1 : Fin 64), (w0), by decide +kernel⟩

theorem witness_queClrPeak : ∃ (q : Fin 64) (s : State),
    s.boot.prog = false :=
  ⟨(1 : Fin 64), (w0), by decide +kernel⟩

theorem witness_queClrDed : ∃ (q : Fin 64) (s : State),
    s.boot.prog = false :=
  ⟨(1 : Fin 64), (w0), by decide +kernel⟩

theorem witness_logAdvance : ∃ (w : Word) (s : State),
    w = s.logNext ∧ memW s.logm (32 * (w.toNat % 8192)) = w ∧ s.eccAt mcLog (32 * (w.toNat % 8192)) = .ok ∧ s.eccAt mcLog (32 * (w.toNat % 8192) + 12) = .ok ∧ s.boot.prog = false :=
  ⟨(w1.logNext), (w1), by decide +kernel⟩

theorem witness_logAdvanceRefused : ∃ (m : Master) (w : Word) (s : State),
    (m ≠ .engine ∨ w ≠ s.logNext) ∧ s.boot.prog = false :=
  ⟨(.host), 7#32, (w1), by decide +kernel⟩

theorem witness_hpvPoll : ∃ (s : State),
    s.eng.released = false ∧ s.boot.prog = false :=
  ⟨(w0), by decide +kernel⟩

theorem witness_hostReadLowHalf : ∃ (addr : BitVec 20) (gapNs : Nat) (s : State),
    (Instr.hostReadLowHalf addr gapNs).wf = true ∧ 20 ≤ gapNs ∧ addr.toNat % 4 = 0 ∧ aliasBase addr.toNat = none ∧ (accOf addr.toNat = some .ro ∨ accOf addr.toNat = some .rw ∨ accOf addr.toNat = some .sh ∨ accOf addr.toNat = some .w1c) ∧ isWord0 addr.toNat = false ∧ latched64 s addr.toNat = none ∧ s.eccAt mcMir addr.toNat ≠ .double :=
  ⟨((BitVec.ofNat 20 Reg.sysCfg)), (20), (w1), by decide +kernel⟩

theorem witness_hostReadHighHalf : ∃ (addr : BitVec 20) (gapNs : Nat) (v : BitVec 16) (s : State),
    (Instr.hostReadHighHalf addr gapNs).wf = true ∧ 20 ≤ gapNs ∧ addr.toNat % 4 ≠ 0 ∧ latched64 s addr.toNat = none ∧ s.host.latch = some (addr.toNat, v) :=
  ⟨(6#20), (20), (9#16), ({ w1 with host := { w1.host with latch := some (6, 9#16) } }), by decide +kernel⟩

theorem witness_hostReadWord0 : ∃ (addr : BitVec 20) (gapNs : Nat) (s : State),
    (Instr.hostReadWord0 addr gapNs).wf = true ∧ 20 ≤ gapNs ∧ addr.toNat % 4 = 0 ∧ isWord0 addr.toNat = true ∧ accOf addr.toNat ≠ some .pop :=
  ⟨((BitVec.ofNat 20 Reg.sysOptimeLo)), (20), (w1), by decide +kernel⟩

theorem witness_hostWriteLowHalf : ∃ (addr : BitVec 20) (v : BitVec 16) (lenNs : Nat) (gapNs : Nat) (haMoved : Bool) (s : State),
    (Instr.hostWriteLowHalf addr v lenNs gapNs haMoved).wf = true ∧ 10 ≤ lenNs ∧ 20 ≤ gapNs ∧ haMoved = false :=
  ⟨(8#20), 1#16, (10), (20), (false), (w1), by decide +kernel⟩

theorem witness_hostWriteHighHalf : ∃ (addr : BitVec 20) (v : BitVec 16) (lo : BitVec 16) (b : Nat) (lenNs : Nat) (gapNs : Nat) (haMoved : Bool) (s : State),
    (Instr.hostWriteHighHalf addr v lenNs gapNs haMoved).wf = true ∧ 10 ≤ lenNs ∧ 20 ≤ gapNs ∧ haMoved = false ∧ s.host.held = some (b, lo) ∧ b + 2 = addr.toNat :=
  ⟨(10#20), 1#16, (9#16), (8), (10), (20), (false), ({ w1 with host := { w1.host with held := some (8, 9#16) } }), by decide +kernel⟩

theorem witness_minorCycleBoundary : ∃ (s : State),
    s.eng.released = true ∧ s.rb Reg.tteStat 0 = true ∧ s.hamper.ltPending = false ∧ s.boot.prog = false ∧ s.boot.warmReq = none ∧ s.eng.firstMinor = false :=
  ⟨(w1), by decide +kernel⟩

theorem witness_minorCycleIslands : ∃ (s : State),
    s.eng.released = true ∧ s.rb Reg.tteStat 0 = false ∧ s.boot.prog = false :=
  ⟨(w1.setReg Reg.tteStat 0#32), by decide +kernel⟩

theorem witness_minorCycleBoundaryWarm : ∃ (k : Nat) (s : State),
    s.eng.released = true ∧ s.rb Reg.tteStat 0 = true ∧ s.hamper.ltPending = false ∧ s.boot.prog = false ∧ s.boot.warmReq = some k :=
  ⟨1, (withBoot (fun b => { b with warmReq := some 1 }) w1), by decide +kernel⟩

theorem witness_pathStart : ∃ (path : Fin 4096) (s : State),
    s.rb Reg.tteStat 0 = true ∧ s.rb Reg.tteStat 1 = false ∧ s.hamper.ltPending = false ∧ s.eccAt mcPtab (ptabAddr false path.val) = .ok ∧ (ptabEntry s.code false path.val).enable = true ∧ (ptabEntry s.code false path.val).lastTrain = false ∧ s.m % 2 ^ (ptabEntry s.code false path.val).kexp = (ptabEntry s.code false path.val).phase ∧ bit (s.pfOf path.val) 1 = false ∧ ((ptabEntry s.code false path.val).armedOnly = false ∨ s.armed (ptabEntry s.code false path.val).armflag = true) :=
  ⟨(1 : Fin 4096), (withEntry 1 83084672552808668490247295681429568 w1), by decide +kernel⟩

theorem witness_pathStartDisarmed : ∃ (path : Fin 4096) (s : State),
    s.rb Reg.tteStat 0 = true ∧ s.rb Reg.tteStat 1 = false ∧ s.hamper.ltPending = false ∧ s.eccAt mcPtab (ptabAddr false path.val) = .ok ∧ (ptabEntry s.code false path.val).enable = true ∧ (ptabEntry s.code false path.val).lastTrain = false ∧ s.m % 2 ^ (ptabEntry s.code false path.val).kexp = (ptabEntry s.code false path.val).phase ∧ bit (s.pfOf path.val) 1 = false ∧ (ptabEntry s.code false path.val).armedOnly = true ∧ s.armed (ptabEntry s.code false path.val).armflag = false :=
  ⟨(1 : Fin 4096), (withEntry 1 83084672552808668490247295685623872 w1), by decide +kernel⟩

theorem witness_dip : ∃ (low : BitVec 16) (us : BitVec 32) (s : State),
    s.hamper.filter = true :=
  ⟨1#16, 1#32, (withHamper (fun h => { h with filter := true }) w1), by decide +kernel⟩

theorem witness_powerFailDetection : ∃ (vin : BitVec 16) (s : State),
    s.hamper.filter = true ∧ s.boot.prog = false ∧ s.eng.released = true ∧ s.rb Reg.tteStat 3 = false ∧ s.rb Reg.tteStat 1 = false :=
  ⟨1#16, (withHamper (fun h => { h with filter := true }) w1), by decide +kernel⟩

theorem witness_powerFailDetectionBefore : ∃ (vin : BitVec 16) (s : State),
    s.hamper.filter = true ∧ s.eng.released = false ∧ s.boot.warmTrain = false :=
  ⟨1#16, (withHamper (fun h => { h with filter := true }) w0), by decide +kernel⟩

theorem witness_powerFailDetectionWarmEnd : ∃ (vin : BitVec 16) (s : State),
    s.hamper.filter = true ∧ s.boot.warmTrain = true ∧ s.rb Reg.tteStat 3 = true :=
  ⟨1#16, (withHamper (fun h => { h with filter := true }) (withBoot (fun b => { b with warmTrain := true }) (w1.setRb Reg.tteStat 3 true))), by decide +kernel⟩

theorem witness_powerFailDetectionNot : ∃ (vin : BitVec 16) (s : State),
    s.hamper.filter = false :=
  ⟨1#16, (w0), by decide +kernel⟩

theorem witness_lastTrainSwitch : ∃ (s : State),
    s.hamper.ltPending = true :=
  ⟨(withHamper (fun h => { h with ltPending := true }) w1), by decide +kernel⟩

theorem witness_lastTrainPathStart : ∃ (path : Fin 4096) (s : State),
    s.rb Reg.tteStat 1 = true ∧ s.rb Reg.tteStat 3 = false ∧ s.eccAt mcPtab (ptabAddr false path.val) = .ok ∧ (ptabEntry s.code false path.val).enable = true ∧ (ptabEntry s.code false path.val).lastTrain = true ∧ ((ptabEntry s.code false path.val).core = true ∨ s.rb Reg.tteStat 2 = false) ∧ s.eng.ltNext ≤ (ptabEntry s.code false path.val).offset ∧ bit (s.pfOf path.val) 1 = false :=
  ⟨(1 : Fin 4096), (withEntry 1 83084672552808668490247295689818176 (w1.setReg Reg.tteStat 6#32)), by decide +kernel⟩

theorem witness_lastTrainEnd : ∃ (s : State),
    s.rb Reg.tteStat 1 = true ∧ s.rb Reg.tteStat 3 = false ∧ s.boot.warmTrain = false :=
  ⟨(w1.setReg Reg.tteStat 2#32), by decide +kernel⟩

theorem witness_lastTrainEndWarm : ∃ (s : State),
    s.rb Reg.tteStat 1 = true ∧ s.rb Reg.tteStat 3 = false ∧ s.boot.warmTrain = true :=
  ⟨(withBoot (fun b => { b with warmTrain := true }) (w1.setReg Reg.tteStat 6#32)), by decide +kernel⟩

theorem witness_bankExhausted : ∃ (s : State),
    phaseOf s = 9 :=
  ⟨(w0.setRf Reg.sysStat 3 0 9), by decide +kernel⟩

theorem witness_startCheck : ∃ (v1 : BitVec 20) (s : State),
    s.boot.supplyOk = true ∧ s.hamper.again = false ∧ s.rb Reg.pwrStat psChecking = false ∧ s.hamper.filter = false ∧ 140000 ≤ v1.toNat ∧ s.hamper.startDone = false ∧ s.rf Reg.sysRstcause 1 0 ≠ 0 :=
  ⟨(140000#20), (withBoot (fun b => { b with supplyOk := true }) (w0.setReg Reg.sysRstcause 1#32)), by decide +kernel⟩

theorem witness_dailyCheck : ∃ (v1 : BitVec 20) (s : State),
    s.boot.supplyOk = true ∧ s.hamper.again = false ∧ s.rb Reg.pwrStat psChecking = false ∧ s.hamper.filter = false ∧ dailyDue s = true ∧ 330000 ≤ v1.toNat :=
  ⟨(330000#20), (withHamper (fun h => { h with retryIn := some 0 }) (withBoot (fun b => { b with supplyOk := true }) w1)), by decide +kernel⟩

theorem witness_dailyCheckLow : ∃ (v1 : BitVec 20) (s : State),
    s.boot.supplyOk = true ∧ s.hamper.again = false ∧ s.rb Reg.pwrStat psChecking = false ∧ s.hamper.filter = false ∧ dailyDue s = true ∧ v1.toNat < 330000 :=
  ⟨(329999#20), (withHamper (fun h => { h with retryIn := some 0 }) (withBoot (fun b => { b with supplyOk := true }) w1)), by decide +kernel⟩

theorem witness_dailyCheckEarly : ∃ (v1 : BitVec 20) (s : State),
    dailyDue s = false :=
  ⟨1#20, (w1), by decide +kernel⟩

theorem witness_startCheckDone : ∃ (v1 : BitVec 20) (s : State),
    s.hamper.startDone = true :=
  ⟨1#20, (withHamper (fun h => { h with startDone := true }) w0), by decide +kernel⟩

theorem witness_checkComplete : ∃ (v2 : BitVec 20) (s : State),
    s.rb Reg.pwrStat psChecking = true ∧ v2.toNat < s.hamper.v1 ∧ 200 ≤ 20000000 / (s.hamper.v1 - v2.toNat) ∧ 20000000 / (s.hamper.v1 - v2.toNat) ≤ 4000 :=
  ⟨(330000#20), (withHamper (fun h => { h with v1 := 340000 }) (w1.setRb Reg.pwrStat psChecking true)), by decide +kernel⟩

theorem witness_checkCompleteFails : ∃ (v2 : BitVec 20) (s : State),
    s.rb Reg.pwrStat psChecking = true ∧ (s.hamper.v1 ≤ v2.toNat ∨ 20000000 / (s.hamper.v1 - v2.toNat) < 200 ∨ 4000 < 20000000 / (s.hamper.v1 - v2.toNat)) :=
  ⟨(340000#20), (withHamper (fun h => { h with v1 := 340000 }) (w1.setRb Reg.pwrStat psChecking true)), by decide +kernel⟩

theorem witness_mtrCalholdWrite : ∃ (m : Master) (w : Word) (s : State),
    w &&& ~~~(regRsv Reg.mtrCalhold) ≠ s.reg Reg.mtrCalhold ∧ s.boot.prog = false :=
  ⟨(Master.host), (1#32), (w1), by decide +kernel⟩

theorem witness_mtrCalholdSame : ∃ (m : Master) (w : Word) (s : State),
    w &&& ~~~(regRsv Reg.mtrCalhold) = s.reg Reg.mtrCalhold ∧ s.boot.prog = false :=
  ⟨(Master.host), (0#32), (w1), by decide +kernel⟩

theorem witness_wcArm : ∃ (w : Word) (s : State),
    s.rb Reg.mtrWcCtrl 0 = false ∧ bit w 0 = true ∧ qSize s (s.rf Reg.mtrWcCfg 5 0) ≠ 0 ∧ qProd s (s.rf Reg.mtrWcCfg 5 0) = epEngine ∧ qCons s (s.rf Reg.mtrWcCfg 5 0) = epHost ∧ s.boot.prog = false :=
  ⟨(1#32), (((w1.setRf Reg.mtrWcCfg 5 0 3).setReg (Reg.queQCfg 3) 0x400000#32).setReg (Reg.queQEnds 3) 0x40000000#32), by decide +kernel⟩

theorem witness_wcArmRefused : ∃ (w : Word) (s : State),
    s.rb Reg.mtrWcCtrl 0 = false ∧ bit w 0 = true ∧ (qSize s (s.rf Reg.mtrWcCfg 5 0) = 0 ∨ qProd s (s.rf Reg.mtrWcCfg 5 0) ≠ epEngine ∨ qCons s (s.rf Reg.mtrWcCfg 5 0) ≠ epHost) ∧ s.boot.prog = false :=
  ⟨(1#32), (w1), by decide +kernel⟩

theorem witness_testRun : ∃ (count : BitVec 13) (s : State),
    s.ctl.test = none ∧ lpMode s (fld (s.reg Reg.ctlTsCfg) 6 0) = 1 ∧ fld (s.reg Reg.ctlTsCfg) 9 8 ≠ 0 ∧ 1 ≤ count.toNat ∧ count.toNat ≤ 4096 ∧ testQueueOk s (fld (s.reg Reg.ctlTsCfg) 21 16) count.toNat = true ∧ s.boot.prog = false :=
  ⟨(20#13), (((((w1.setReg (Reg.ctlLpCfg 5) 1#32).setReg Reg.ctlTsCfg 0x30105#32).setReg (Reg.queQCfg 3) 0x400000#32).setReg (Reg.queQEnds 3) 0x40000000#32)), by decide +kernel⟩

theorem witness_testRunRefused : ∃ (count : BitVec 13) (s : State),
    s.ctl.test = none ∧ fld (s.reg Reg.ctlTsCfg) 9 8 = 0 ∧ s.boot.prog = false :=
  ⟨1#13, (w1), by decide +kernel⟩

theorem witness_testRunNot : ∃ (count : BitVec 13) (s : State),
    s.ctl.test = none ∧ (lpMode s (fld (s.reg Reg.ctlTsCfg) 6 0) ≠ 1 ∨ fld (s.reg Reg.ctlTsCfg) 9 8 = 0 ∨ count.toNat = 0 ∨ 4096 < count.toNat ∨ testQueueOk s (fld (s.reg Reg.ctlTsCfg) 21 16) count.toNat = false) ∧ s.boot.prog = false :=
  ⟨1#13, (w0), by decide +kernel⟩

theorem witness_testRunBusy : ∃ (count : BitVec 13) (s : State),
    s.ctl.test.isSome = true ∧ s.boot.prog = false :=
  ⟨1#13, ({ w1 with ctl := { w1.ctl with test := some ⟨0#32, 0#32, 0#32, 0#32, 5, 2, 511, some 0⟩ } }), by decide +kernel⟩

theorem witness_testStop : ∃ (x : TestGen) (s : State),
    s.ctl.test = some x ∧ s.boot.prog = false :=
  ⟨(⟨0#32, 0#32, 0#32, 0#32, 5, 2, 511, some 0⟩ : TestGen), ({ w1 with ctl := { w1.ctl with test := some ⟨0#32, 0#32, 0#32, 0#32, 5, 2, 511, some 0⟩ } }), by decide +kernel⟩

theorem witness_parLeaseWrite : ∃ (m : Master) (w : Word) (s : State),
    s.boot.prog = false :=
  ⟨(Master.host), (289001#32), (w1), by decide +kernel⟩

theorem witness_parGateWrite : ∃ (m : Master) (w : Word) (s : State),
    s.boot.prog = false :=
  ⟨(Master.host), 7#32, (w0), by decide +kernel⟩

theorem witness_rtcSet : ∃ (m : Master) (s : State),
    s.eng.released = true ∧ s.boot.prog = false :=
  ⟨(Master.host), (w1.setReg Reg.rtcArgLo 0xFFFFFFF0#32), by decide +kernel⟩

theorem witness_rtcStep : ∃ (m : Master) (s : State),
    s.eng.released = true ∧ s.boot.prog = false :=
  ⟨(Master.host), (w1.setReg Reg.rtcArgLo 0xFFFFFFF0#32), by decide +kernel⟩

theorem witness_rtcSlew : ∃ (m : Master) (period : BitVec 16) (faster : Bool) (s : State),
    s.eng.released = true ∧ 50 ≤ period.toNat ∧ fld (s.reg Reg.rtcArgLo) 23 0 ≠ 0 ∧ s.boot.prog = false :=
  ⟨(Master.host), (50#16), true, (w1.setReg Reg.rtcArgLo 5#32), by decide +kernel⟩

theorem witness_rtcSlewBad : ∃ (m : Master) (period : BitVec 16) (faster : Bool) (s : State),
    s.eng.released = true ∧ period.toNat < 50 ∧ s.boot.prog = false :=
  ⟨(Master.host), (49#16), true, (w1), by decide +kernel⟩

theorem witness_rtcSlewStop : ∃ (m : Master) (s : State),
    s.eng.released = true ∧ s.boot.prog = false :=
  ⟨(Master.host), (w1.setReg Reg.rtcArgLo 0xFFFFFFF0#32), by decide +kernel⟩

theorem witness_rtcAlarmCfgWrite : ∃ (m : Master) (n : Fin 8) (w : Word) (s : State),
    s.eng.released = true ∧ s.boot.prog = false :=
  ⟨(Master.host), (1 : Fin 8), 7#32, (w1.setReg (Reg.rtcAlmLo 1) 9#32), by decide +kernel⟩

theorem witness_rtcByteWrite : ∃ (m : Master) (i : Fin 16) (w : Word) (s : State),
    s.eng.released = true ∧ s.boot.prog = false :=
  ⟨(Master.host), (1 : Fin 16), (0x01020304#32), (w1), by decide +kernel⟩

theorem witness_rtcSetBefore : ∃ (m : Master) (s : State),
    s.eng.released = false ∧ s.boot.prog = false :=
  ⟨(Master.host), (w0), by decide +kernel⟩

theorem witness_rtcStepBefore : ∃ (m : Master) (s : State),
    s.eng.released = false ∧ s.boot.prog = false :=
  ⟨(Master.host), (w0), by decide +kernel⟩

theorem witness_rtcSlewBefore : ∃ (m : Master) (period : BitVec 16) (faster : Bool) (s : State),
    s.eng.released = false ∧ s.boot.prog = false :=
  ⟨(Master.host), 1#16, true, (w0), by decide +kernel⟩

theorem witness_rtcSlewStopBefore : ∃ (m : Master) (s : State),
    s.eng.released = false ∧ s.boot.prog = false :=
  ⟨(Master.host), (w0), by decide +kernel⟩

theorem witness_rtcAlarmBefore : ∃ (m : Master) (n : Fin 8) (w : Word) (s : State),
    s.eng.released = false ∧ s.boot.prog = false :=
  ⟨(Master.host), (1 : Fin 8), 7#32, (w0), by decide +kernel⟩

theorem witness_rtcByteBefore : ∃ (m : Master) (i : Fin 16) (w : Word) (s : State),
    s.eng.released = false ∧ s.boot.prog = false :=
  ⟨(Master.host), (1 : Fin 16), 7#32, (w0), by decide +kernel⟩

theorem witness_rtcSlewZero : ∃ (m : Master) (period : BitVec 16) (faster : Bool) (s : State),
    s.eng.released = true ∧ 50 ≤ period.toNat ∧ fld (s.reg Reg.rtcArgLo) 23 0 = 0 ∧ s.boot.prog = false :=
  ⟨(Master.host), (50#16), true, (w1), by decide +kernel⟩

theorem witness_readPub : ∃ (kind : BitVec 2) (tag : BitVec 8) (k : List Byte) (s : State),
    s.rb Reg.secResp 0 = false ∧ pubKey s kind.toNat = some k ∧ s.boot.prog = false :=
  ⟨(0#2), 1#8, (identityPub), (w1), by decide +kernel, rfl, by decide +kernel⟩

theorem witness_readPubBusy : ∃ (kind : BitVec 2) (tag : BitVec 8) (s : State),
    s.rb Reg.secResp 0 = true ∧ s.boot.prog = false :=
  ⟨1#2, 1#8, (w1.setRb Reg.secResp 0 true), by decide +kernel⟩

theorem witness_challenge : ∃ (tag : BitVec 8) (s : State),
    s.rb Reg.secResp 0 = false ∧ s.boot.siding = false ∧ s.boot.prog = false :=
  ⟨1#8, (w1), by decide +kernel⟩

theorem witness_attestRetired : ∃ (tag : BitVec 8) (s : State),
    s.rb Reg.secResp 0 = false ∧ s.boot.siding = false ∧ s.sec.retired = true ∧ s.boot.prog = false :=
  ⟨1#8, (withSec (fun x => { x with retired := true }) w1), by decide +kernel⟩

theorem witness_attest : ∃ (tag : BitVec 8) (s : State),
    s.rb Reg.secResp 0 = false ∧ s.boot.siding = false ∧ s.sec.retired = false ∧ s.boot.prog = false :=
  ⟨1#8, (w1), by decide +kernel⟩

theorem witness_objBegin : ∃ (m : Master) (kind : BitVec 2) (s : State),
    s.sec.obj = none ∧ s.sec.retired = false ∧ kind.toNat ≤ 2 ∧ s.rf Reg.secObjStat 2 0 ≠ 2 ∧ s.boot.prog = false :=
  ⟨(Master.host), 1#2, (w1), by decide +kernel⟩

theorem witness_objPut : ∃ (m : Master) (o : Obj) (s : State),
    s.sec.obj = some o ∧ o.owner = masterCode m ∧ s.rf Reg.secObjStat 2 0 ≠ 2 ∧ o.kind ≤ 1 ∧ o.len + 256 ≤ 0x800000 ∧ s.boot.prog = false :=
  ⟨(Master.host), (⟨2, 0, 0, false⟩ : Obj), (withSec (fun x => { x with obj := some ⟨2, 0, 0, false⟩ }) w1), by decide +kernel⟩

theorem witness_objSubmit : ∃ (m : Master) (ok : Bool) (o : Obj) (s : State),
    s.sec.obj = some o ∧ o.owner = masterCode m ∧ s.rf Reg.secObjStat 2 0 ≠ 2 ∧ s.boot.prog = false :=
  ⟨(Master.host), true, (⟨2, 0, 0, false⟩ : Obj), (withSec (fun x => { x with obj := some ⟨2, 0, 0, false⟩ }) w1), by decide +kernel⟩

theorem witness_objCancel : ∃ (m : Master) (o : Obj) (s : State),
    s.sec.obj = some o ∧ o.owner = masterCode m ∧ s.rf Reg.secObjStat 2 0 ≠ 2 ∧ s.boot.prog = false :=
  ⟨(Master.host), (⟨2, 0, 0, false⟩ : Obj), (withSec (fun x => { x with obj := some ⟨2, 0, 0, false⟩ }) w1), by decide +kernel⟩

theorem witness_objectTimeout : ∃ (o : Obj) (s : State),
    s.sec.obj = some o ∧ s.boot.prog = false :=
  ⟨(⟨2, 0, 0, false⟩ : Obj), (withSec (fun x => { x with obj := some ⟨2, 0, 0, false⟩ }) w1), by decide +kernel⟩

theorem witness_diTick : ∃ (g : Fin 4) (levels : BitVec 16) (s : State),
    (s.diI g.val).powered = true :=
  ⟨(1 : Fin 4), (0xD#16), (withDi 1 (fun x => { x with gotDeb := 0xFFFF, gotCfg := true, gotBrk := true, deb := [(2, 3), (3, 3)], ticks := [(2, 3), (3, 2)], state := 1 }) w1), by decide +kernel⟩

theorem witness_wireBreak : ∃ (g : Fin 4) (c : Fin 16) (broken : Bool) (s : State),
    broken = true ∧ (s.diI g.val).powered = true ∧ (s.diI g.val).brken.testBit c.val = true ∧ (s.sup (11 + g.val)).missing = false :=
  ⟨(1 : Fin 4), (1 : Fin 16), true, (withDi 1 (fun x => { x with brken := 2 }) w1), by decide +kernel⟩

theorem witness_wireBreakNot : ∃ (g : Fin 4) (c : Fin 16) (broken : Bool) (s : State),
    broken = true ∧ ((s.diI g.val).brken.testBit c.val = false ∨ (s.sup (11 + g.val)).missing = true) :=
  ⟨(1 : Fin 4), (1 : Fin 16), true, (withDi 1 (fun x => { x with brken := 4 }) w1), by decide +kernel⟩

theorem witness_wireBreakMended : ∃ (g : Fin 4) (c : Fin 16) (broken : Bool) (s : State),
    broken = false :=
  ⟨(1 : Fin 4), (1 : Fin 16), (false), (withDi 1 (fun x => { x with broken := 3 }) w1), by decide +kernel⟩

theorem witness_diDeb : ∃ (g : Fin 4) (c : Fin 16) (deb : BitVec 16) (s : State),
    (s.diI g.val).powered = true :=
  ⟨(1 : Fin 4), (1 : Fin 16), 1#16, (withDi 1 (fun x => x) w1), by decide +kernel⟩

theorem witness_diCounterCfg : ∃ (g : Fin 4) (src : BitVec 8) (mode : BitVec 16) (s : State),
    (s.diI g.val).powered = true :=
  ⟨(1 : Fin 4), (0#8), (4#16), (withDi 1 (fun x => { x with count := [(0, 3), (1, 4)], mode := 5 }) w1), by decide +kernel⟩

theorem witness_diBrken : ∃ (g : Fin 4) (brken : BitVec 16) (s : State),
    (s.diI g.val).powered = true :=
  ⟨(1 : Fin 4), 1#16, (withDi 1 (fun x => { x with broken := 3 }) w1), by decide +kernel⟩

theorem witness_doSafe : ∃ (h : Fin 2) (v : BitVec 16) (s : State),
    (s.doI h.val).powered = true :=
  ⟨(1 : Fin 2), (0x55#16), (withDo 1 (fun x => { x with gotSafe := true, gotHold := true, gotOl := true, ovl := 3, drive := 0xF0, gotOut := true, out := 0xF3, hold := 0x50, safe := 0x83, olen := 0xFFFF, opens := 2 }) w1), by decide +kernel⟩

theorem witness_doHold : ∃ (h : Fin 2) (v : BitVec 16) (s : State),
    (s.doI h.val).powered = true :=
  ⟨(1 : Fin 2), (0x55#16), (withDo 1 (fun x => { x with gotSafe := true, gotHold := true, gotOl := true, ovl := 3, drive := 0xF0, gotOut := true, out := 0xF3, hold := 0x50, safe := 0x83, olen := 0xFFFF, opens := 2 }) w1), by decide +kernel⟩

theorem witness_doOlEn : ∃ (h : Fin 2) (v : BitVec 16) (s : State),
    (s.doI h.val).powered = true :=
  ⟨(1 : Fin 2), (0x55#16), (withDo 1 (fun x => { x with gotSafe := true, gotHold := true, gotOl := true, ovl := 3, drive := 0xF0, gotOut := true, out := 0xF3, hold := 0x50, safe := 0x83, olen := 0xFFFF, opens := 2 }) w1), by decide +kernel⟩

theorem witness_doOut : ∃ (h : Fin 2) (v : BitVec 16) (ack : Bool) (s : State),
    (s.doI h.val).powered = true ∧ ((s.doI h.val).safeOn = false ∨ ack = true) ∧ hasApply s (15 + h.val) = false ∧ (s.doI h.val).cfgd = true :=
  ⟨(1 : Fin 2), (0x55#16), true, (withDo 1 (fun x => { x with gotSafe := true, gotHold := true, gotOl := true, ovl := 3, drive := 0xF0, gotOut := true, out := 0xF3, hold := 0x50, safe := 0x83, olen := 0xFFFF, opens := 2 }) w1), by decide +kernel⟩

theorem witness_doOutWaits : ∃ (h : Fin 2) (v : BitVec 16) (ack : Bool) (s : State),
    (s.doI h.val).powered = true ∧ ((s.doI h.val).safeOn = false ∨ ack = true) ∧ hasApply s (15 + h.val) = true :=
  ⟨(1 : Fin 2), (0x55#16), true, (withSamples [⟨16, 1, 0, 0, 0⟩] (withDo 1 (fun x => { x with gotSafe := true, gotHold := true, gotOl := true, ovl := 3, drive := 0xF0, gotOut := true, out := 0xF3, hold := 0x50, safe := 0x83, olen := 0xFFFF, opens := 2 }) w1)), by decide +kernel⟩

theorem witness_doOutIgnored : ∃ (h : Fin 2) (v : BitVec 16) (ack : Bool) (s : State),
    (s.doI h.val).safeOn = true ∧ ack = false :=
  ⟨(1 : Fin 2), 1#16, (false), (withDo 1 (fun x => { x with safeOn := true }) w1), by decide +kernel⟩

theorem witness_ovlLatch : ∃ (h : Fin 2) (c : Fin 16) (s : State),
    (s.doI h.val).powered = true :=
  ⟨(1 : Fin 2), (1 : Fin 16), (withDo 1 (fun x => { x with gotSafe := true, gotHold := true, gotOl := true, ovl := 3, drive := 0xF0, gotOut := true, out := 0xF3, hold := 0x50, safe := 0x83, olen := 0xFFFF, opens := 2 }) w1), by decide +kernel⟩

theorem witness_openLoad : ∃ (h : Fin 2) (c : Fin 16) (inBand : Bool) (s : State),
    (s.doI h.val).powered = true ∧ inBand = true ∧ (s.doI h.val).olen.testBit c.val = true ∧ (s.doI h.val).drive.testBit c.val = false ∧ (s.sup (15 + h.val)).missing = false :=
  ⟨(1 : Fin 2), (1 : Fin 16), true, (withDo 1 (fun x => { x with gotSafe := true, gotHold := true, gotOl := true, ovl := 3, drive := 0xF0, gotOut := true, out := 0xF3, hold := 0x50, safe := 0x83, olen := 0xFFFF, opens := 2 }) w1), by decide +kernel⟩

theorem witness_openLoadClears : ∃ (h : Fin 2) (c : Fin 16) (inBand : Bool) (s : State),
    (s.doI h.val).powered = true ∧ inBand = false :=
  ⟨(1 : Fin 2), (1 : Fin 16), (false), (withDo 1 (fun x => { x with gotSafe := true, gotHold := true, gotOl := true, ovl := 3, drive := 0xF0, gotOut := true, out := 0xF3, hold := 0x50, safe := 0x83, olen := 0xFFFF, opens := 2 }) w1), by decide +kernel⟩

theorem witness_aoutCode : ∃ (a : Fin 4) (c : Fin 4) (code : BitVec 16) (alm : BitVec 2) (s : State),
    (s.aoI a.val).powered = true ∧ alm ≠ 3#2 ∧ hasApply s (17 + a.val) = true :=
  ⟨(1 : Fin 4), (1 : Fin 4), 1#16, 1#2, (withSamples [⟨18, 1, 0, 0, 0⟩] (withAo 1 1 (fun x => x) w1)), by decide +kernel⟩

theorem witness_aoutCodeIgnored : ∃ (a : Fin 4) (c : Fin 4) (code : BitVec 16) (alm : BitVec 2) (s : State),
    alm = 3#2 :=
  ⟨(1 : Fin 4), (1 : Fin 4), 1#16, (3#2), (withAo 1 1 (fun x => x) w1), by decide +kernel⟩

theorem witness_aoutMode : ∃ (a : Fin 4) (c : Fin 4) (mode : Bool) (insrc : Bool) (clamp : Bool) (safemode : BitVec 3) (s : State),
    (s.aoI a.val).powered = true ∧ ((s.aoI a.val).enabled c.val = false ∨ mode = ((s.aoI a.val).chan c.val).mode) :=
  ⟨(1 : Fin 4), (1 : Fin 4), true, true, true, 1#3, (withAo 1 1 (fun x => x) w1), by decide +kernel⟩

theorem witness_aoutModeHeld : ∃ (a : Fin 4) (c : Fin 4) (mode : Bool) (insrc : Bool) (clamp : Bool) (safemode : BitVec 3) (s : State),
    (s.aoI a.val).powered = true ∧ (s.aoI a.val).enabled c.val = true ∧ mode ≠ ((s.aoI a.val).chan c.val).mode :=
  ⟨(1 : Fin 4), (1 : Fin 4), true, true, true, 1#3, (withAo 1 1 (fun y => { y with on := true }) w1), by decide +kernel⟩

theorem witness_aoutSafe : ∃ (a : Fin 4) (c : Fin 4) (v : BitVec 16) (s : State),
    (s.aoI a.val).powered = true :=
  ⟨(1 : Fin 4), (1 : Fin 4), 1#16, (withAo 1 1 (fun x => x) w1), by decide +kernel⟩

theorem witness_aoutAlmLo : ∃ (a : Fin 4) (c : Fin 4) (v : BitVec 16) (s : State),
    (s.aoI a.val).powered = true :=
  ⟨(1 : Fin 4), (1 : Fin 4), 1#16, (withAo 1 1 (fun x => x) w1), by decide +kernel⟩

theorem witness_aoutAlmHi : ∃ (a : Fin 4) (c : Fin 4) (v : BitVec 16) (s : State),
    (s.aoI a.val).powered = true :=
  ⟨(1 : Fin 4), (1 : Fin 4), 1#16, (withAo 1 1 (fun x => x) w1), by decide +kernel⟩

theorem witness_aoutTrim : ∃ (a : Fin 4) (c : Fin 4) (zero : BitVec 12) (span : BitVec 12) (s : State),
    (s.aoI a.val).powered = true :=
  ⟨(1 : Fin 4), (1 : Fin 4), 1#12, 1#12, (withAo 1 1 (fun x => x) w1), by decide +kernel⟩

theorem witness_acmd : ∃ (a : Fin 4) (en : BitVec 4) (ack : Bool) (s : State),
    (s.aoI a.val).powered = true ∧ ((s.aoI a.val).safeOn = false ∨ ack = true) ∧ hasApply s (17 + a.val) = true :=
  ⟨(1 : Fin 4), 1#4, true, (withSamples [⟨18, 1, 0, 0, 0⟩] (withAo 1 1 (fun x => x) w1)), by decide +kernel⟩

theorem witness_acmdApplies : ∃ (a : Fin 4) (en : BitVec 4) (ack : Bool) (s : State),
    (s.aoI a.val).powered = true ∧ ((s.aoI a.val).safeOn = false ∨ ack = true) ∧ hasApply s (17 + a.val) = false :=
  ⟨(1 : Fin 4), (5#4), true, (withAo 1 1 (fun x => x) w1), by decide +kernel⟩

theorem witness_compliance : ∃ (a : Fin 4) (c : Fin 4) (v : Bool) (s : State),
    (s.aoI a.val).powered = true ∧ v = true ∧ ((s.aoI a.val).chan c.val).on = true ∧ ((s.aoI a.val).chan c.val).mode = false :=
  ⟨(1 : Fin 4), (1 : Fin 4), true, (withAo 1 1 (fun y => { y with on := true }) w1), by decide +kernel⟩

theorem witness_complianceClears : ∃ (a : Fin 4) (c : Fin 4) (v : Bool) (s : State),
    (s.aoI a.val).powered = true ∧ v = false :=
  ⟨(1 : Fin 4), (1 : Fin 4), (false), (withAo 1 1 (fun y => { y with on := true, compliance := true }) w1), by decide +kernel⟩

theorem witness_rbDev : ∃ (a : Fin 4) (c : Fin 4) (v : Bool) (s : State),
    (s.aoI a.val).powered = true ∧ v = true ∧ s.rb (Reg.aioAgDiag a.val) 16 = true ∧ ((s.aoI a.val).chan c.val).on = true ∧ ((s.aoI a.val).chan c.val).compliance = false :=
  ⟨(1 : Fin 4), (1 : Fin 4), true, ((withAo 1 1 (fun y => { y with on := true }) w1).setRb (Reg.aioAgDiag 1) 16 true), by decide +kernel⟩

theorem witness_rbDevClears : ∃ (a : Fin 4) (c : Fin 4) (v : Bool) (s : State),
    (s.aoI a.val).powered = true ∧ v = false :=
  ⟨(1 : Fin 4), (1 : Fin 4), (false), (withAo 1 1 (fun y => { y with on := true }) w1), by decide +kernel⟩

theorem witness_miswire : ∃ (a : Fin 4) (c : Fin 4) (s : State),
    (s.aoI a.val).powered = true ∧ ((s.aoI a.val).chan c.val).on = true :=
  ⟨(1 : Fin 4), (1 : Fin 4), (withAo 1 1 (fun y => { y with on := true }) w1), by decide +kernel⟩

theorem witness_miswireResume : ∃ (a : Fin 4) (c : Fin 4) (s : State),
    (s.aoI a.val).powered = true ∧ ((s.aoI a.val).chan c.val).miswire = true :=
  ⟨(1 : Fin 4), (1 : Fin 4), (withAo 1 1 (fun y => { y with miswire := true }) w1), by decide +kernel⟩

theorem witness_sampleInstant : ∃ (island : Fin 25) (offset : BitVec 17) (meas : List (BitVec 16)) (limits : BitVec 4) (s : State),
    (Instr.sampleInstant island offset meas limits).wf = true ∧ island.val ≤ 14 ∧ (s.diI (island.val - 11)).powered = true ∧ sampleDue s island.val offset.toNat = true :=
  ⟨(12), (100#17), [7#16, 9#16], 1#4, (withSamples [⟨12, 0, 0, 0, 100⟩] <| withDi 1 (fun x => { x with state := 3, changed := 1 }) w1), by decide +kernel⟩

theorem witness_sampleInstantDo : ∃ (island : Fin 25) (offset : BitVec 17) (meas : List (BitVec 16)) (limits : BitVec 4) (s : State),
    (Instr.sampleInstant island offset meas limits).wf = true ∧ 15 ≤ island.val ∧ island.val ≤ 16 ∧ (s.doI (island.val - 15)).powered = true ∧ sampleDue s island.val offset.toNat = true :=
  ⟨(16), (100#17), [7#16, 9#16], 1#4, (withSamples [⟨16, 0, 0, 0, 100⟩] (withDo 1 (fun x => { x with gotSafe := true, gotHold := true, gotOl := true, ovl := 3, drive := 0xF0, gotOut := true, out := 0xF3, hold := 0x50, safe := 0x83, olen := 0xFFFF, opens := 2 }) w1)), by decide +kernel⟩

theorem witness_sampleInstantAo : ∃ (island : Fin 25) (offset : BitVec 17) (meas : List (BitVec 16)) (limits : BitVec 4) (s : State),
    (Instr.sampleInstant island offset meas limits).wf = true ∧ 17 ≤ island.val ∧ (s.aoI (island.val - 17)).powered = true ∧ sampleDue s island.val offset.toNat = true :=
  ⟨(18), (100#17), [7#16, 9#16], 1#4, (withSamples [⟨18, 0, 0, 0, 100⟩] (withAo 1 1 (fun x => x) w1)), by decide +kernel⟩

theorem witness_sampleInstantOff : ∃ (island : Fin 25) (offset : BitVec 17) (meas : List (BitVec 16)) (limits : BitVec 4) (s : State),
    (Instr.sampleInstant island offset meas limits).wf = true ∧ (islandPowered s island.val = false ∨ sampleDue s island.val offset.toNat = false) :=
  ⟨(12), 1#17, [7#16, 9#16], 1#4, (w1), by decide +kernel⟩

theorem witness_applyInstantNotDue : ∃ (island : Fin 25) (s : State),
    (Instr.applyInstant island).wf = true ∧ applyDue s island.val = false :=
  ⟨(16), (withDo 1 (fun x => { x with gotSafe := true, gotHold := true, gotOl := true, ovl := 3, drive := 0xF0, gotOut := true, out := 0xF3, hold := 0x50, safe := 0x83, olen := 0xFFFF, opens := 2 }) w1), by decide +kernel⟩

theorem witness_applyInstant : ∃ (island : Fin 25) (s : State),
    (Instr.applyInstant island).wf = true ∧ applyDue s island.val = true ∧ island.val ≤ 16 ∧ (s.doI (island.val - 15)).powered = true ∧ (s.doI (island.val - 15)).safeOn = false :=
  ⟨(16), (withSamples [⟨16, 1, 0, 0, 0⟩] (withDo 1 (fun x => { x with gotSafe := true, gotHold := true, gotOl := true, ovl := 3, drive := 0xF0, gotOut := true, out := 0xF3, hold := 0x50, safe := 0x83, olen := 0xFFFF, opens := 2 }) w1)), by decide +kernel⟩

theorem witness_applyInstantAo : ∃ (island : Fin 25) (s : State),
    (Instr.applyInstant island).wf = true ∧ applyDue s island.val = true ∧ 17 ≤ island.val ∧ (s.aoI (island.val - 17)).powered = true ∧ (s.aoI (island.val - 17)).safeOn = false :=
  ⟨(18), (withSamples [⟨18, 1, 0, 0, 0⟩] <| withAo 1 1 (fun y => { y with on := true }) w1), by decide +kernel⟩

theorem witness_safeValueTimeoutOff : ∃ (island : Fin 25) (s : State),
    (Instr.safeValueTimeout island).wf = true ∧ island.val ≤ 16 ∧ (s.doI (island.val - 15)).powered = true ∧ (s.doI (island.val - 15)).safeOn = false ∧ ((s.doI (island.val - 15)).cfgd && (s.doI (island.val - 15)).gotOut) = false :=
  ⟨(16), (withDo 1 (fun x => { x with drive := 3 }) w1), by decide +kernel⟩

theorem witness_safeValueTimeout : ∃ (island : Fin 25) (s : State),
    (Instr.safeValueTimeout island).wf = true ∧ island.val ≤ 16 ∧ (s.doI (island.val - 15)).powered = true ∧ (s.doI (island.val - 15)).safeOn = false ∧ (s.doI (island.val - 15)).cfgd = true ∧ (s.doI (island.val - 15)).gotOut = true :=
  ⟨(16), (withDo 1 (fun x => { x with gotSafe := true, gotHold := true, gotOl := true, ovl := 3, drive := 0xF0, gotOut := true, out := 0xF3, hold := 0x50, safe := 0x83, olen := 0xFFFF, opens := 2 }) w1), by decide +kernel⟩

theorem witness_safeValueTimeoutAoOff : ∃ (island : Fin 25) (s : State),
    (Instr.safeValueTimeout island).wf = true ∧ 17 ≤ island.val ∧ (s.aoI (island.val - 17)).powered = true ∧ (s.aoI (island.val - 17)).safeOn = false ∧ ((s.aoI (island.val - 17)).cfgd && (s.aoI (island.val - 17)).gotAcmd) = false :=
  ⟨(18), (withAo 1 1 (fun y => { y with on := true }) w1), by decide +kernel⟩

theorem witness_safeValueTimeoutAo : ∃ (island : Fin 25) (s : State),
    (Instr.safeValueTimeout island).wf = true ∧ 17 ≤ island.val ∧ (s.aoI (island.val - 17)).powered = true ∧ (s.aoI (island.val - 17)).safeOn = false ∧ (s.aoI (island.val - 17)).cfgd = true ∧ (s.aoI (island.val - 17)).gotAcmd = true :=
  ⟨(18), ((fun s => s.setAo 1 { (s.aoI 1) with gotAcmd := true }) (withAo 1 1 (fun y => { y with on := true, safemode := 2, safeCode := 77 }) w1)), by decide +kernel⟩

theorem witness_fieldSupplyMeasure : ∃ (island : Fin 25) (mv : BitVec 16) (s : State),
    (Instr.fieldSupplyMeasure island mv).wf = true ∧ islandPowered s island.val = true :=
  ⟨(12), (19199#16), ({ (withDi 1 (fun x => x) w1) with supply := [(12, ⟨24000, false, false, 9, 0⟩)] }), by decide +kernel⟩

theorem witness_meteringSample : ∃ (n : Fin 16000) (secs : BitVec 16) (bits : List (BitVec 1250)) (s : State),
    s.mtr.mclk = true :=
  ⟨(1 : Fin 16000), 1#16, [1#1250, 2#1250], (withMtr (fun m => { m with mclk := true }) w1), by decide +kernel⟩

theorem witness_meteringSamplePushed : ∃ (n : Fin 16000) (secs : BitVec 16) (bits : List (BitVec 1250)) (q : Nat) (s : State),
    s.mtr.mclk = true ∧ qOfProd s (epIsland 9 0) = some q ∧ qLevel s q + 33 ≤ qSize s q ∧ qLevel s q + 33 < 2 ^ 15 :=
  ⟨(1 : Fin 16000), 1#16, [1#1250, 2#1250], (3), (withQueue 3 64 0x00008900#32 (withMtr (fun m => { m with mclk := true }) w1)), by decide +kernel⟩

theorem witness_meteringSampleOff : ∃ (n : Fin 16000) (secs : BitVec 16) (bits : List (BitVec 1250)) (s : State),
    s.mtr.mclk = false :=
  ⟨(1 : Fin 16000), 1#16, [1#1250, 2#1250], (w0), by decide +kernel⟩

theorem witness_intervalCloseNone : ∃ (s : State),
    (consume false frameFuel (mtrFirst s)).mtr.interval = none :=
  ⟨(w1), by decide +kernel⟩

theorem witness_intervalClose : ∃ (j : Nat) (s : State),
    (consume false frameFuel (mtrFirst s)).mtr.interval = some j :=
  ⟨1, (withMtr (fun m => { m with interval := some 1, k := 160, started := true }) w1), by decide +kernel⟩

theorem witness_intervalCloseRecord : ∃ (j : Nat) (s : State),
    (consume false frameFuel (mtrFirst s)).mtr.interval = some j ∧ (consume false frameFuel (mtrFirst s)).mtr.commit = none :=
  ⟨1, (withMtr (fun m => { m with interval := some 1, k := 160, started := true }) w1), by decide +kernel⟩

theorem witness_intervalCloseQueued : ∃ (j : Nat) (x : Nat × List Word) (s : State),
    (consume false frameFuel (mtrFirst s)).mtr.interval = some j ∧ (consume false frameFuel (mtrFirst s)).mtr.commit = some x ∧ s.fabTime < (consume false frameFuel (mtrFirst s)).mtr.commitAt + 400000 :=
  ⟨(1), (((1, [1#32, 2#32]) : Nat × List Word)), (withMtr (fun m => { m with interval := some 1, k := 160, started := true, commit := some (1, [1#32, 2#32]) }) w1), by decide +kernel⟩

theorem witness_partialCloseRecord : ∃ (s : State),
    (consumeAll intervalFuel (mtrFirst s)).mtr.commit = none :=
  ⟨(withMtr (fun m => { m with interval := some 1, k := 16, started := true }) w1), by decide +kernel⟩

theorem witness_meteringCommitDone : ∃ (ok : Bool) (copy : Nat) (ws : List Word) (s : State),
    s.mtr.commit = some (copy, ws) ∧ ok = true ∧ s.mtr.queued = [] :=
  ⟨(true), (1), ([1#32, 2#32]), (withMtr (fun m => { m with commit := some (1, [1#32, 2#32]) }) w1), by decide +kernel⟩

theorem witness_meteringCommitNext : ∃ (ok : Bool) (copy : Nat) (ws : List Word) (v : List Word) (r : List (List Word)) (s : State),
    s.mtr.commit = some (copy, ws) ∧ ok = true ∧ s.mtr.queued = v :: r :=
  ⟨(true), (1), ([1#32, 2#32]), ([3#32]), ([]), (withMtr (fun m => { m with commit := some (1, [1#32, 2#32]), queued := [[3#32]] }) w1), by decide +kernel⟩

theorem witness_meteringCommitIdle : ∃ (ok : Bool) (s : State),
    s.mtr.commit = none :=
  ⟨true, (w0), by decide +kernel⟩

theorem witness_meteringCommitFails : ∃ (ok : Bool) (copy : Nat) (ws : List Word) (s : State),
    s.mtr.commit = some (copy, ws) ∧ ok = false ∧ s.mtr.queued = [] :=
  ⟨(false), (1), ([1#32, 2#32]), (withMtr (fun m => { m with commit := some (1, [1#32, 2#32]) }) w1), by decide +kernel⟩

theorem witness_harmonicWindow : ∃ (setB : Bool) (s : State),
    winLen s setB ≤ (sget win0 s.mtr.win (b2n setB)).samples.length :=
  ⟨(true), (withMtr (fun m => { m with win := [(1, ⟨List.replicate 3201 ⟨0#32, [], []⟩, none, 0#32⟩)] }) w1), by decide +kernel⟩

theorem witness_harmonicWindowWaits : ∃ (setB : Bool) (s : State),
    (sget win0 s.mtr.win (b2n setB)).samples.length < winLen s setB :=
  ⟨true, (w1), by decide +kernel⟩

theorem witness_captureSampleWaits : ∃ (x : Capture) (s : State),
    s.mtr.cap = some x ∧ x.pushed < x.count ∧ s.mtr.capq = [] :=
  ⟨(⟨3, false, 5, 2⟩ : Capture), (withMtr (fun m => { m with cap := some ⟨3, false, 5, 2⟩ }) w1), by decide +kernel⟩

theorem witness_captureSample : ∃ (x : Capture) (e : MtrSmp) (rest : List MtrSmp) (s : State),
    s.mtr.cap = some x ∧ s.mtr.capq = e :: rest ∧ x.pushed + 1 < x.count ∧ qLevel s (s.rf Reg.mtrWcCfg 5 0) + (bitsOf 30 x.mask).length ≤ qSize s (s.rf Reg.mtrWcCfg 5 0) :=
  ⟨(⟨3, false, 5, 2⟩ : Capture), (⟨0#32, [1#32, 2#32], [3#32, 4#32]⟩ : MtrSmp), ([]), (withMtr (fun m => { m with cap := some ⟨3, false, 5, 2⟩, capq := [⟨0#32, [1#32, 2#32], [3#32, 4#32]⟩] }) (withQueue 0 64 0x40000000#32 w1)), by decide +kernel⟩

theorem witness_captureSampleWords : ∃ (x : Capture) (e : MtrSmp) (rest : List MtrSmp) (s : State),
    s.mtr.cap = some x ∧ s.mtr.capq = e :: rest ∧ x.pushed < x.count ∧ qSize s (s.rf Reg.mtrWcCfg 5 0) ≠ 0 ∧ qProd s (s.rf Reg.mtrWcCfg 5 0) = epEngine ∧ qLevel s (s.rf Reg.mtrWcCfg 5 0) + (bitsOf 30 x.mask).length ≤ qSize s (s.rf Reg.mtrWcCfg 5 0) ∧ qLevel s (s.rf Reg.mtrWcCfg 5 0) + (bitsOf 30 x.mask).length < 2 ^ 15 :=
  ⟨(⟨3, false, 5, 2⟩ : Capture), (⟨0#32, [1#32, 2#32], [3#32, 4#32]⟩ : MtrSmp), ([]), (withMtr (fun m => { m with cap := some ⟨3, false, 5, 2⟩, capq := [⟨0#32, [1#32, 2#32], [3#32, 4#32]⟩] }) (withQueue 0 64 0#32 w1)), by decide +kernel⟩

theorem witness_captureSampleFull : ∃ (x : Capture) (e : MtrSmp) (rest : List MtrSmp) (s : State),
    s.mtr.cap = some x ∧ s.mtr.capq = e :: rest ∧ x.pushed < x.count ∧ qSize s (s.rf Reg.mtrWcCfg 5 0) < qLevel s (s.rf Reg.mtrWcCfg 5 0) + (bitsOf 30 x.mask).length :=
  ⟨(⟨3, false, 5, 2⟩ : Capture), (⟨0#32, [1#32, 2#32], [3#32, 4#32]⟩ : MtrSmp), ([]), (withMtr (fun m => { m with cap := some ⟨3, false, 5, 2⟩, capq := [⟨0#32, [1#32, 2#32], [3#32, 4#32]⟩] }) w1), by decide +kernel⟩

theorem witness_loopAttempt : ∃ (n : Fin 128) (cycle : BitVec 17) (s : State),
    s.rb Reg.tteStat 0 = true ∧ s.rb Reg.tteStat 1 = false ∧ lpDue s n.val = true ∧ (s.ctl.ffwDue.filter (fun e => e.1 == n.val)) = [] ∧ lpMode s n.val = 2 ∧ ptForced (ptW s (lpOut s n.val) 1) = false ∧ testOn s n.val = none :=
  ⟨(1 : Fin 128), 1#17, ((loopState 2).setReg (Reg.ctlLpManval 1) 0x40000000#32), by decide +kernel⟩

theorem witness_loopAttemptAuto : ∃ (n : Fin 128) (cycle : BitVec 17) (s : State),
    s.rb Reg.tteStat 0 = true ∧ s.rb Reg.tteStat 1 = false ∧ lpDue s n.val = true ∧ (s.ctl.ffwDue.filter (fun e => e.1 == n.val)) = [] ∧ lpMode s n.val = 1 ∧ holdsTablet s = true ∧ ptForced (ptW s (lpOut s n.val) 1) = false ∧ testOn s n.val = none ∧ lpSpSrc s n.val = false ∧ lpFfen s n.val = false ∧ lpStale s n.val (lpPv s n.val) = false ∧ ptQual (ptW s (lpPv s n.val) 1) ≠ 2 :=
  ⟨(1 : Fin 128), 1#17, ((((loopState 1).setReg (Reg.ctlLpKp 1) 0x3F800000#32).setReg (Reg.ctlLpSp 1) 0x40400000#32).setReg (Reg.ctlLpOuthi 1) 0x42C80000#32), by decide +kernel⟩

theorem witness_loopAttemptStale : ∃ (n : Fin 128) (cycle : BitVec 17) (s : State),
    s.rb Reg.tteStat 0 = true ∧ s.rb Reg.tteStat 1 = false ∧ lpDue s n.val = true ∧ (s.ctl.ffwDue.filter (fun e => e.1 == n.val)) = [] ∧ lpMode s n.val = 1 ∧ holdsTablet s = true ∧ ptForced (ptW s (lpOut s n.val) 1) = false ∧ testOn s n.val = none ∧ lpStale s n.val (lpPv s n.val) = true :=
  ⟨(1 : Fin 128), 1#17, (setPt (loopState 1) 5 1 0#32), by decide +kernel⟩

theorem witness_loopAttemptOff : ∃ (n : Fin 128) (cycle : BitVec 17) (s : State),
    s.rb Reg.tteStat 0 = true ∧ s.rb Reg.tteStat 1 = false ∧ lpDue s n.val = true ∧ (s.ctl.ffwDue.filter (fun e => e.1 == n.val)) = [] ∧ lpMode s n.val = 0 ∧ testOn s n.val = none :=
  ⟨(1 : Fin 128), 1#17, (loopState 0), by decide +kernel⟩

theorem witness_loopAttemptNotDue : ∃ (n : Fin 128) (cycle : BitVec 17) (s : State),
    lpDue s n.val = false :=
  ⟨(1 : Fin 128), 1#17, (w1), by decide +kernel⟩

theorem witness_ffwWriteOne : ∃ (n : Nat) (k : Nat) (v : Word) (s : State),
    s.ctl.ffwDue = [(n, k, v)] :=
  ⟨(1), (2), (77#32), (withCtl (fun c => { c with ffwDue := [(1, 2, 77#32)] }) w1), by decide +kernel⟩

theorem witness_pointRefresh : ∃ (p : Fin 4096) (valid : Bool) (v : Word) (ts : BitVec 64) (src : PtSource) (chan : Option (BitVec 8)) (s : State),
    valid = true ∧ chan = none ∧ ptForced (ptW s p.val 1) = false :=
  ⟨(4095), true, 7#32, 1#64, (PtSource.given 1#2), (none), (w1), by decide +kernel⟩

theorem witness_pointRefreshForced : ∃ (p : Fin 4096) (valid : Bool) (v : Word) (ts : BitVec 64) (src : PtSource) (chan : Option (BitVec 8)) (s : State),
    valid = true ∧ chan = none ∧ ptForced (ptW s p.val 1) = true ∧ (forcedBy s p.val).isSome = true :=
  ⟨(7), true, 7#32, 1#64, (PtSource.given 1#2), (none), (setPt (w1.setReg (Reg.ctlFrcCfg 3) 0x8007#32) 7 1 0x14#32), by decide +kernel⟩

theorem witness_pointRefreshInvalid : ∃ (p : Fin 4096) (valid : Bool) (v : Word) (ts : BitVec 64) (src : PtSource) (chan : Option (BitVec 8)) (s : State),
    valid = false :=
  ⟨(1 : Fin 4096), (false), 7#32, 1#64, (PtSource.given 1#2), (some 3#8), (w1), by decide +kernel⟩

theorem witness_pointRefreshDi : ∃ (p : Fin 4096) (valid : Bool) (v : Word) (ts : BitVec 64) (chan : Option (BitVec 8)) (g : Fin 4) (k : Fin 16) (s : State),
    valid = true ∧ chan = none :=
  ⟨(1 : Fin 4096), true, 7#32, 1#64, (none), (1), (3), (withDi 1 (fun x => x) (w1.setReg (Reg.dioDiSupply 1) 0x80000#32)), by decide +kernel⟩

theorem witness_pointRefreshAin : ∃ (p : Fin 4096) (valid : Bool) (v : Word) (ts : BitVec 64) (chan : Option (BitVec 8)) (a : Fin 4) (k : Fin 4) (s : State),
    valid = true ∧ chan = none :=
  ⟨(1 : Fin 4096), true, 7#32, 1#64, (none), (1 : Fin 4), (1 : Fin 4), (withAo 1 1 (fun y => y) ((w1.setReg (Reg.aioAgStat 1) 0x80000#32).setRf (Reg.aioAgChAin 1 1) 15 0 30000)), by decide +kernel⟩

theorem witness_pointRefreshCircuit : ∃ (p : Fin 4096) (valid : Bool) (v : Word) (ts : BitVec 64) (chan : Option (BitVec 8)) (n : Fin 8) (s : State),
    valid = true ∧ chan = none :=
  ⟨(1 : Fin 4096), true, 7#32, 1#64, (none), (1), (w1.setReg (Reg.mtrCirStat 1) 0x80#32), by decide +kernel⟩

theorem witness_pointRefreshBus : ∃ (p : Fin 4096) (valid : Bool) (v : Word) (ts : BitVec 64) (chan : Option (BitVec 8)) (s : State),
    valid = true ∧ chan = none :=
  ⟨(1 : Fin 4096), true, 7#32, 1#64, (none), (w1), by decide +kernel⟩

theorem witness_pointRefreshOther : ∃ (p : Fin 4096) (valid : Bool) (v : Word) (ts : BitVec 64) (src : PtSource) (chan : Option (BitVec 8)) (k : BitVec 8) (s : State),
    valid = true ∧ chan = some k ∧ k.toNat ≠ ptTenant (ptW s p.val 1) :=
  ⟨(1 : Fin 4096), true, 7#32, 1#64, (PtSource.given 1#2), (some 3#8), (3#8), (w1), by decide +kernel⟩

theorem witness_pointRefreshTenant : ∃ (p : Fin 4096) (valid : Bool) (v : Word) (ts : BitVec 64) (src : PtSource) (chan : Option (BitVec 8)) (k : BitVec 8) (s : State),
    valid = true ∧ chan = some k ∧ k.toNat = ptTenant (ptW s p.val 1) ∧ ptForced (ptW s p.val 1) = false :=
  ⟨(1 : Fin 4096), true, 7#32, 1#64, (PtSource.given 1#2), (some 0#8), (0#8), (w1), by decide +kernel⟩

theorem witness_forceApply : ∃ (f : Nat) (s : State),
    f < 256 ∧ s.rb (Reg.ctlFrcCfg f) 15 = true ∧ (∀ g ∈ List.range 256, g ≠ f → s.rb (Reg.ctlFrcCfg g) 15 = true → s.rf (Reg.ctlFrcCfg g) 11 0 ≠ s.rf (Reg.ctlFrcCfg f) 11 0) :=
  ⟨(3), ((w1.setReg (Reg.ctlFrcCfg 3) 0x8007#32).setReg (Reg.ctlFrcVal 3) 9#32), by decide +kernel⟩

theorem witness_serviceCycle : ∃ (sv : Fin 4) (cycle : BitVec 17) (outs : List (Fin 4096 × Word × BitVec 2)) (b : Nat) (s : State),
    s.rb Reg.tteStat 0 = true ∧ s.rb Reg.tteStat 1 = false ∧ s.svcOf sv.val = { start := some b, done := none } ∧ sliceFault s sv.val = none :=
  ⟨(1), 1#17, [(5, 9#32, 1#2)], (0), (withCtl (fun c => { c with svc := [(1, ⟨some 0, none⟩)] }) w1), by decide +kernel, by decide +kernel, by decide +kernel, List.find?_eq_none.mpr (fun _ _ => Bool.false_ne_true)⟩

theorem witness_serviceCycleDone : ∃ (sv : Fin 4) (cycle : BitVec 17) (outs : List (Fin 4096 × Word × BitVec 2)) (s : State),
    ((s.svcOf sv.val).start = none ∨ (s.svcOf sv.val).done.isSome = true) :=
  ⟨(1), 1#17, [(5, 9#32, 1#2)], (withCtl (fun c => { c with svc := [(1, ⟨some 0, some (1, 5)⟩)] }) w1), by decide +kernel⟩

theorem witness_serviceBoundary : ∃ (v : Fin 4) (b : Nat) (s : State),
    s.eng.released = true ∧ s.rb Reg.tteStat 0 = true ∧ s.hamper.ltPending = false ∧ s.boot.prog = false ∧ s.boot.warmReq = none ∧ s.eng.firstMinor = false ∧ s.ecc = [] ∧ s.reg Reg.sysCommitPend = 0#32 ∧ svPeriod s v.val ≠ 0 ∧ (s.m + 1) % s.nMinor % svPeriod s v.val = 0 ∧ (s.svcOf v.val).start = some b :=
  ⟨(1), (0), (withCtl (fun c => { c with svc := [(1, ⟨some 0, some (0, 5)⟩)] }) (w1.setReg (Reg.ctlSvCfg 1) 0x80000001#32)), by decide +kernel⟩

theorem witness_stationCheck : ∃ (n : Nat) (s : State),
    n < 64 ∧ staOn s n = false :=
  ⟨1, (w1), by decide +kernel⟩

theorem witness_stationCheckDown : ∃ (n : Nat) (l : Nat) (s : State),
    n < 64 ∧ staOn s n = true ∧ (s.sta n).up = true ∧ (s.sta n).last = some l ∧ staTimeoutNs s n < s.fabTime - l :=
  ⟨1, (0), ({ (withCtl (fun c => { c with stations := [(1, ⟨true, some 0, 0, 0⟩)] }) ((w1.setReg (Reg.ctlStaCfg 1) 0x101#32).setReg (Reg.ctlStaTimeout 1) 1#32)) with fabTime := 1000001 }), by decide +kernel⟩

theorem witness_linkSignalPresent : ∃ (l : Fin 8) (s : State),
    lkState s l.val = 1 ∧ s.boot.prog = false :=
  ⟨(1 : Fin 8), (withLink 1 1 w1), by decide +kernel⟩

theorem witness_symbolsAligned : ∃ (l : Fin 9) (swap : Bool) (inverted : Bool) (s : State),
    l.val < 8 ∧ lkState s l.val = 2 ∧ s.boot.prog = false :=
  ⟨(1), true, true, (withLink 1 2 w1), by decide +kernel⟩

theorem witness_symbolsAlignedPair : ∃ (l : Fin 9) (swap : Bool) (inverted : Bool) (s : State),
    l.val = 8 ∧ s.boot.prog = false :=
  ⟨(8), true, true, (w1), by decide +kernel⟩

theorem witness_linkLoss : ∃ (l : Fin 8) (s : State),
    2 ≤ lkState s l.val :=
  ⟨(1 : Fin 8), (withLink 1 6 w1), by decide +kernel⟩

theorem witness_position : ∃ (l : Fin 8) (addr : BitVec 16) (nlink : BitVec 8) (expAddr : BitVec 16) (expLink : BitVec 8) (hash : BitVec 64) (stratum : BitVec 8) (s : State),
    lkState s l.val = 3 ∧ positionCause s l.val addr.toNat nlink.toNat expAddr.toNat expLink.toNat hash.toNat = 0 ∧ s.boot.prog = false :=
  ⟨(1 : Fin 8), (5#16), (0#8), (0#16), (1#8), (BitVec.ofNat 64 (leNat (mapHash w1 1))), 1#8, ((withFab (fun f => { f with links := [(1, { link0 with exch := 2 })] }) (withLink 1 3 w1)).setReg (Reg.fabLkNbr 1) 5#32), by decide +kernel⟩

theorem witness_positionUp : ∃ (l : Fin 8) (addr : BitVec 16) (nlink : BitVec 8) (expAddr : BitVec 16) (expLink : BitVec 8) (hash : BitVec 64) (stratum : BitVec 8) (s : State),
    (lkState s l.val = 5 ∨ lkState s l.val = 6) ∧ positionCause s l.val addr.toNat nlink.toNat expAddr.toNat expLink.toNat hash.toNat = 0 ∧ s.boot.prog = false :=
  ⟨(1 : Fin 8), (5#16), (0#8), (0#16), (1#8), (BitVec.ofNat 64 (leNat (mapHash w1 1))), 1#8, ((withLink 1 5 w1).setReg (Reg.fabLkNbr 1) 5#32), by decide +kernel⟩

theorem witness_positionProbation : ∃ (l : Fin 8) (addr : BitVec 16) (nlink : BitVec 8) (expAddr : BitVec 16) (expLink : BitVec 8) (hash : BitVec 64) (stratum : BitVec 8) (s : State),
    lkState s l.val = 4 ∧ positionCause s l.val addr.toNat nlink.toNat expAddr.toNat expLink.toNat hash.toNat = 0 ∧ ((s.lk l.val).repAt + 1000000000 ≤ s.fabTime ∨ s.fabTime < (s.lk l.val).repAt) ∧ s.boot.prog = false :=
  ⟨(1 : Fin 8), (5#16), (0#8), (0#16), (1#8), (BitVec.ofNat 64 (leNat (mapHash w1 1))), 1#8, ({ ((withLink 1 4 w1).setReg (Reg.fabLkNbr 1) 5#32) with fabTime := 1000000000 }), by decide +kernel⟩

theorem witness_positionQuarantine : ∃ (l : Fin 8) (addr : BitVec 16) (nlink : BitVec 8) (expAddr : BitVec 16) (expLink : BitVec 8) (hash : BitVec 64) (stratum : BitVec 8) (s : State),
    lkState s l.val = 4 ∧ positionCause s l.val addr.toNat nlink.toNat expAddr.toNat expLink.toNat hash.toNat = 0 ∧ (¬ ((s.lk l.val).repAt + 1000000000 ≤ s.fabTime ∨ s.fabTime < (s.lk l.val).repAt)) ∧ s.boot.prog = false :=
  ⟨(1 : Fin 8), (5#16), (0#8), (0#16), (1#8), (BitVec.ofNat 64 (leNat (mapHash w1 1))), 1#8, ((withLink 1 4 w1).setReg (Reg.fabLkNbr 1) 5#32), by decide +kernel⟩

theorem witness_positionWrong : ∃ (l : Fin 8) (addr : BitVec 16) (nlink : BitVec 8) (expAddr : BitVec 16) (expLink : BitVec 8) (hash : BitVec 64) (stratum : BitVec 8) (s : State),
    3 ≤ lkState s l.val ∧ positionCause s l.val addr.toNat nlink.toNat expAddr.toNat expLink.toNat hash.toNat ≠ 0 ∧ s.boot.prog = false :=
  ⟨(1 : Fin 8), (6#16), (0#8), (0#16), (1#8), (BitVec.ofNat 64 (leNat (mapHash w1 1))), 1#8, (withLink 1 4 w1), by decide +kernel⟩

theorem witness_probationClean : ∃ (l : Fin 8) (s : State),
    lkState s l.val = 5 ∧ s.boot.prog = false :=
  ⟨(1 : Fin 8), (withLink 1 5 w1), by decide +kernel⟩

theorem witness_cellReceive : ∃ (l : Fin 8) (slot : Fin 128) (ts : BitVec 64) (ws : List Word) (s : State),
    (Instr.cellReceive l slot ts ws).wf = true ∧ 3 ≤ lkState s l.val ∧ cellCrc ws = ws.getD 15 0#32 ∧ cellForm ws = true ∧ statePasses (lkState s l.val) (cType ws) = true ∧ s.eng.released = false ∧ s.boot.prog = false :=
  ⟨(1 : Fin 8), (1 : Fin 128), 1#64, (cellT), (withLink 1 3 w0), by decide +kernel⟩

theorem witness_cellReceiveBad : ∃ (l : Fin 8) (slot : Fin 128) (ts : BitVec 64) (ws : List Word) (s : State),
    (Instr.cellReceive l slot ts ws).wf = true ∧ lkState s l.val = 3 ∧ cellCrc ws ≠ ws.getD 15 0#32 ∧ s.boot.prog = false :=
  ⟨(1 : Fin 8), (1 : Fin 128), 1#64, (cellS), (withLink 1 3 w1), by decide +kernel⟩

theorem witness_cellReceiveTag : ∃ (l : Fin 8) (slot : Fin 128) (ts : BitVec 64) (ws : List Word) (s : State),
    (Instr.cellReceive l slot ts ws).wf = true ∧ 3 ≤ lkState s l.val ∧ cellCrc ws = ws.getD 15 0#32 ∧ cellForm ws = true ∧ statePasses (lkState s l.val) (cType ws) = true ∧ s.eng.released = false ∧ tagRefused s ws = true ∧ s.boot.prog = false :=
  ⟨(1 : Fin 8), (1 : Fin 128), 1#64, (cellLine ([0x0102FFFF#32, 0x20100000#32, 0#32] ++ List.replicate 12 0#32)), (withLink 1 6 w0), by decide +kernel⟩

theorem witness_slotStart : ∃ (l : Fin 8) (slot : Fin 96) (s : State),
    s.eng.released = true ∧ lkState s l.val = 6 ∧ slotCls s l.val slot.val = 1 ∧ txReady s l.val 2 0 = true ∧ s.boot.prog = false :=
  ⟨(1 : Fin 8), (1 : Fin 96), (withCell 3 0x82020000#32 cellS ((withLink 1 6 w1).setReg (Reg.fabLkSlotmap 1 0) 0x4#32)), by decide +kernel⟩

theorem witness_slotStartMissed : ∃ (l : Fin 8) (slot : Fin 96) (s : State),
    s.eng.released = true ∧ lkState s l.val = 6 ∧ slotCls s l.val slot.val = 1 ∧ txLevel s l.val 2 < 16 ∧ txReady s l.val 2 0 = false ∧ s.boot.prog = false :=
  ⟨(1 : Fin 8), (1 : Fin 96), ((withLink 1 6 w1).setReg (Reg.fabLkSlotmap 1 0) 0x4#32), by decide +kernel⟩

theorem witness_slotStartTime : ∃ (l : Fin 8) (slot : Fin 96) (s : State),
    s.eng.released = true ∧ lkState s l.val = 6 ∧ slotCls s l.val slot.val = 2 ∧ slotM s % 2 ^ s.rf Reg.fabTimeCfg 2 0 = 0 ∧ s.boot.prog = false :=
  ⟨(1 : Fin 8), (1 : Fin 96), ((withLink 1 6 w1).setReg (Reg.fabLkSlotmap 1 0) 0x8#32), by decide +kernel⟩

theorem witness_identityPositionSend : ∃ (l : Fin 8) (s : State),
    3 ≤ lkState s l.val ∧ s.boot.prog = false :=
  ⟨(1 : Fin 8), (withLink 1 3 w0), by decide +kernel⟩

theorem witness_timeCellSendBeforeRelease : ∃ (l : Fin 8) (s : State),
    s.eng.released = false ∧ 3 ≤ lkState s l.val ∧ s.boot.prog = false :=
  ⟨(1 : Fin 8), (withLink 1 3 { w0 with fabTime := 5 }), by decide +kernel⟩

theorem witness_timeExchange : ∃ (l : Fin 8) (t1 : BitVec 64) (t2 : BitVec 64) (t3 : BitVec 64) (t4 : BitVec 64) (stratum : BitVec 8) (s : State),
    3 ≤ lkState s l.val ∧ t4.toNat ≠ 0 ∧ s.boot.prog = false :=
  ⟨(1 : Fin 8), (100#64), (150#64), (160#64), (214#64), 1#8, (withLink 1 3 w1), by decide +kernel⟩

theorem witness_holdover : ∃ (s : State),
    isRoot s = false ∧ s.rb Reg.fabStat 17 = false ∧ s.boot.prog = false :=
  ⟨(w1), by decide +kernel⟩

theorem witness_routeCell : ∃ (arrival : Option (Fin 8)) (ws : List Word) (s : State),
    (Instr.routeCell arrival ws).wf = true ∧ (cDest ws = 0xFFFF ∨ cDest ws = ownAddr s) ∧ s.boot.prog = false :=
  ⟨(none : Option (Fin 8)), (cellS), (w1.setReg Reg.fabPos 0x0203#32), by decide +kernel⟩

theorem witness_routeCellSent : ∃ (arrival : Option (Fin 8)) (ws : List Word) (l : Nat) (u : Nat) (q : Nat) (s : State),
    (Instr.routeCell arrival ws).wf = true ∧ arrival = none ∧ cDest ws ≠ 0xFFFF ∧ cDest ws ≠ ownAddr s ∧ routeLink s (cDest ws) = some (l, false) ∧ txUnit (cClass ws) (cPrio ws) = some u ∧ qOfCons s (epIsland (1 + l) u) = some q ∧ qLevel s q + 16 ≤ qSize s q ∧ qLevel s q + 16 < 2 ^ 15 ∧ s.boot.prog = false :=
  ⟨(none), (cellS), (1), (2), (3), (withQueue 3 64 0x82020000#32 ({ (withLink 1 6 w1) with data := memPutW [] (0x1B0000 + 8) 9#32 })), by decide +kernel⟩

theorem witness_routeCellNoRoute : ∃ (arrival : Option (Fin 8)) (ws : List Word) (s : State),
    (Instr.routeCell arrival ws).wf = true ∧ arrival = none ∧ cDest ws ≠ 0xFFFF ∧ cDest ws ≠ ownAddr s ∧ routeLink s (cDest ws) = none ∧ s.boot.prog = false :=
  ⟨(none), (cellS), (w1), by decide +kernel⟩

theorem witness_statusReport : ∃ (s : State),
    s.rb Reg.fabFaultDest 16 = false ∧ s.boot.prog = false :=
  ⟨(w0), by decide +kernel⟩

theorem witness_statusReportSent : ∃ (s : State),
    s.rb Reg.fabFaultDest 16 = true ∧ s.boot.prog = false :=
  ⟨(w1.setReg Reg.fabFaultDest 0x10000#32), by decide +kernel⟩

theorem witness_faultReport : ∃ (arrival : Option (Fin 8)) (ws : List Word) (s : State),
    (Instr.faultReport arrival ws).wf = true ∧ arrival = none ∧ s.rb Reg.fabFaultDest 16 = true ∧ s.fab.coal.find? (fun e => e.2.subject == (faultOf ws).subject && e.2.fclass == (faultOf ws).fclass) = none ∧ s.fab.coal.length < 256 ∧ s.boot.prog = false :=
  ⟨(none), (cellS), (w1.setReg Reg.fabFaultDest 0x10000#32), by decide +kernel⟩

theorem witness_faultReportAbsorbed : ∃ (arrival : Option (Fin 8)) (ws : List Word) (l : Fin 8) (i : Nat) (e : Coal) (s : State),
    (Instr.faultReport arrival ws).wf = true ∧ arrival = some l ∧ s.fab.coal.find? (fun e => e.2.subject == (faultOf ws).subject && e.2.fclass == (faultOf ws).fclass) = some (i, e) ∧ cDest ws ≠ 0xFFFF ∧ cDest ws ≠ ownAddr s ∧ 1 < cTtl ws ∧ s.boot.prog = false :=
  ⟨(some 1), (cellS), (1), (4), (⟨0, 0, 0, 0, false, [], 0, [], 0⟩ : Coal), (withFab (fun f => { f with coal := [(4, ⟨0, 0, 0, 0, false, [], 0, [], 0⟩)] }) w1), by decide +kernel⟩

theorem witness_faultReportSpent : ∃ (arrival : Option (Fin 8)) (ws : List Word) (l : Fin 8) (s : State),
    (Instr.faultReport arrival ws).wf = true ∧ arrival = some l ∧ cDest ws ≠ 0xFFFF ∧ cDest ws ≠ ownAddr s ∧ cTtl ws ≤ 1 ∧ lkState s l.val = 3 ∧ s.boot.prog = false :=
  ⟨(some 1), ([0x01020203#32, 0x01200002#32, 0#32] ++ List.replicate 13 0#32), (1), (withLink 1 3 w1), by decide +kernel⟩

theorem witness_coalesceFlush : ∃ (s : State),
    s.boot.prog = false :=
  ⟨({ (withFab (fun f => { f with coal := [(4, ⟨0, 0, 0, 0, false, [], 0, [], 0⟩)] }) w1) with fabTime := 100000000 }), by decide +kernel⟩

theorem witness_tagRequest : ∃ (q : Nat) (r : Nat) (s : State),
    qOfCons s (epIsland 22 1) = some q ∧ 16 ≤ qLevel s q ∧ qOfProd s (epIsland 22 2) = some r ∧ r ≠ q ∧ qLevel s r + 3 ≤ qSize s r ∧ qLevel s r + 3 < 2 ^ 15 ∧ s.boot.prog = false :=
  ⟨(3), (4), (withQueue 4 64 0x9602#32 (withCell 3 0x96010000#32 cellS w1)), by decide +kernel⟩

theorem witness_tenantQuery : ∃ (ws : List Word) (k : Nat × List Byte) (s : State),
    (Instr.tenantQuery ws).wf = true ∧ s.sec.kOwner = some k ∧ (cellTag ws == tagWith k (cTenant ws) ws) = true ∧ bit (ws.getD 2 0#32) 17 = true ∧ 1 ≤ fieldAt (cPayload ws) 0 1 ∧ fieldAt (cPayload ws) 0 1 ≤ 4 ∧ s.boot.prog = false :=
  ⟨(queryCell 3 [2692196873#32, 2722521961#32, 4110393804#32]), ((1, [2#8])), (withSec (fun x => { x with kOwner := some (1, [2#8]) }) w1), by decide +kernel⟩

theorem witness_tenantQueryNot : ∃ (ws : List Word) (k : Nat × List Byte) (s : State),
    (Instr.tenantQuery ws).wf = true ∧ s.sec.kOwner = some k ∧ (fieldAt (cPayload ws) 0 1 = 0 ∨ 4 < fieldAt (cPayload ws) 0 1) ∧ s.boot.prog = false :=
  ⟨(queryCell 5 [0#32, 0#32, 0#32]), ((1, [2#8])), (withSec (fun x => { x with kOwner := some (1, [2#8]) }) w1), by decide +kernel⟩

theorem witness_tenantQueryNoKey : ∃ (ws : List Word) (s : State),
    (Instr.tenantQuery ws).wf = true ∧ s.sec.kOwner = none ∧ s.boot.prog = false :=
  ⟨(queryCell 3 [2692196873#32, 2722521961#32, 4110393804#32]), (w1), by decide +kernel⟩

theorem witness_tenantQueryBad : ∃ (ws : List Word) (k : Nat × List Byte) (s : State),
    (Instr.tenantQuery ws).wf = true ∧ s.sec.kOwner = some k ∧ s.sec.kPrev = none ∧ (bit (ws.getD 2 0#32) 17 = false ∨ (cellTag ws == tagWith k (cTenant ws) ws) = false) ∧ s.boot.prog = false :=
  ⟨(cellLine ([0x01020304#32, 0x20110302#32, 0#32, 0x50001#32] ++ List.replicate 11 0#32)), ((1, [2#8])), (withSec (fun x => { x with kOwner := some (1, [2#8]) }) w1), by decide +kernel⟩

theorem witness_rraRead : ∃ (l : Fin 8) (req : List Word) (ws : List Word) (w0 : Word) (a : Word) (s1 : State) (s : State),
    16 ≤ txLevel s l.val 6 ∧ cType (txHead s l.val 6) = 0x30 ∧ txPop l.val 6 s = (req, s1) ∧ bytesWords (cPayload req) = w0 :: a :: ws ∧ fld w0 7 0 = 1 ∧ rraBad a = false ∧ s.boot.prog = false :=
  ⟨(1 : Fin 8), ((txPop 1 6 (withCell 3 0x82060000#32 (cellRra 0x30 [1#32, 0x10#32]) w1)).1), (List.replicate 10 0#32), (1#32), (0x10#32), ((txPop 1 6 (withCell 3 0x82060000#32 (cellRra 0x30 [1#32, 0x10#32]) w1)).2), (withCell 3 0x82060000#32 (cellRra 0x30 [1#32, 0x10#32]) w1), by decide +kernel⟩

theorem witness_rraReadNone : ∃ (l : Fin 8) (s : State),
    txLevel s l.val 6 < 16 ∧ s.boot.prog = false :=
  ⟨(1 : Fin 8), (w1), by decide +kernel⟩

theorem witness_rraWrite : ∃ (l : Fin 8) (req : List Word) (ws : List Word) (w0 : Word) (w1 : Word) (a : Word) (v : Word) (s1 : State) (s : State),
    16 ≤ txLevel s l.val 6 ∧ cType (txHead s l.val 6) = 0x31 ∧ txPop l.val 6 s = (req, s1) ∧ bytesWords (cPayload req) = w0 :: w1 :: a :: v :: ws ∧ fld w0 7 0 = 1 ∧ rraBad a = false ∧ s.boot.prog = false :=
  ⟨(1 : Fin 8), ((txPop 1 6 (withCell 3 0x82060000#32 (cellRra 0x31 [1#32, 0#32, 0x70000#32, 5#32]) w1)).1), (List.replicate 8 0#32), (1#32), (0#32), (0x70000#32), (5#32), ((txPop 1 6 (withCell 3 0x82060000#32 (cellRra 0x31 [1#32, 0#32, 0x70000#32, 5#32]) w1)).2), (withCell 3 0x82060000#32 (cellRra 0x31 [1#32, 0#32, 0x70000#32, 5#32]) w1), by decide +kernel⟩

theorem witness_rraWriteNone : ∃ (l : Fin 8) (s : State),
    txLevel s l.val 6 < 16 ∧ s.boot.prog = false :=
  ⟨(1 : Fin 8), (w1), by decide +kernel⟩

theorem witness_parcel : ∃ (src : Option (Fin 8)) (ws : List Word) (x : Xfer) (s : State),
    (Instr.parcel src ws).wf = true ∧ src = none ∧ s.rb Reg.fabParcelCfg 4 = true ∧ cType ws = 0x40 ∧ s.sec.xfer = some x ∧ fieldAt (cPayload ws) 0 4 = x.id ∧ x.hdr = true ∧ (fieldAt (cPayload ws) 4 2) < x.total ∧ x.total ≤ 128 ∧ (fieldAt (cPayload ws) 4 2) ∉ x.stored ∧ (fieldAt (cPayload ws) 6 2) + 1 < unitCells s x (fieldAt (cPayload ws) 4 2) ∧ (fieldAt (cPayload ws) 6 2) ∉ sget [] x.got (fieldAt (cPayload ws) 4 2) ∧ (sget [] x.got (fieldAt (cPayload ws) 4 2)).length + 1 < unitCells s x (fieldAt (cPayload ws) 4 2) ∧ s.boot.prog = false :=
  ⟨(none), (cellP 0 5), (xf), ((withXfer xf w1).setReg Reg.fabParcelCfg 0x10#32), by decide +kernel⟩

theorem witness_parcelLink : ∃ (src : Option (Fin 8)) (ws : List Word) (x : Xfer) (l : Fin 8) (s : State),
    (Instr.parcel src ws).wf = true ∧ src = some l ∧ s.boot.siding = false ∧ upLink s = some l.val ∧ cType ws = 0x40 ∧ s.sec.xfer = some x ∧ fieldAt (cPayload ws) 0 4 = x.id ∧ x.hdr = true ∧ (fieldAt (cPayload ws) 4 2) < x.total ∧ x.total ≤ 128 ∧ (fieldAt (cPayload ws) 4 2) ∉ x.stored ∧ (fieldAt (cPayload ws) 6 2) + 1 < unitCells s x (fieldAt (cPayload ws) 4 2) ∧ (fieldAt (cPayload ws) 6 2) ∉ sget [] x.got (fieldAt (cPayload ws) 4 2) ∧ (sget [] x.got (fieldAt (cPayload ws) 4 2)).length + 1 < unitCells s x (fieldAt (cPayload ws) 4 2) ∧ s.boot.prog = false :=
  ⟨(some 1), (cellP 0 5), (xf), (1), ((withXfer xf w1).setReg Reg.fabParcelCfg 0x9#32), by decide +kernel⟩

theorem witness_parcelSiding : ∃ (src : Option (Fin 8)) (ws : List Word) (x : Xfer) (l : Fin 8) (s : State),
    (Instr.parcel src ws).wf = true ∧ src = some l ∧ s.boot.siding = true ∧ lkUp s l.val = true ∧ x.link = some l.val ∧ cType ws = 0x40 ∧ s.sec.xfer = some x ∧ fieldAt (cPayload ws) 0 4 = x.id ∧ x.hdr = true ∧ (fieldAt (cPayload ws) 4 2) < x.total ∧ x.total ≤ 128 ∧ (fieldAt (cPayload ws) 4 2) ∉ x.stored ∧ (fieldAt (cPayload ws) 6 2) + 1 < unitCells s x (fieldAt (cPayload ws) 4 2) ∧ (fieldAt (cPayload ws) 6 2) ∉ sget [] x.got (fieldAt (cPayload ws) 4 2) ∧ (sget [] x.got (fieldAt (cPayload ws) 4 2)).length + 1 < unitCells s x (fieldAt (cPayload ws) 4 2) ∧ s.boot.prog = false :=
  ⟨(some 1), (cellP 0 5), ({ xf with link := some 1 }), (1), (withBoot (fun b => { b with siding := true }) (withXfer { xf with link := some 1 } (withLink 1 6 w0))), by decide +kernel⟩

theorem witness_parcelNotUp : ∃ (src : Option (Fin 8)) (ws : List Word) (s : State),
    (Instr.parcel src ws).wf = true ∧ src = none ∧ s.rb Reg.fabParcelCfg 4 = false ∧ s.boot.prog = false :=
  ⟨(none), (cellP 0 5), (w1), by decide +kernel⟩

theorem witness_parcelOtherLink : ∃ (src : Option (Fin 8)) (ws : List Word) (l : Fin 8) (s : State),
    (Instr.parcel src ws).wf = true ∧ src = some l ∧ s.boot.siding = false ∧ upLink s ≠ some l.val ∧ s.boot.prog = false :=
  ⟨(some 1), (cellP 0 5), (1), ((withXfer xf w1).setReg Reg.fabParcelCfg 0xA#32), by decide +kernel⟩

theorem witness_parcelSidingOther : ∃ (src : Option (Fin 8)) (ws : List Word) (x : Xfer) (l : Fin 8) (s : State),
    (Instr.parcel src ws).wf = true ∧ src = some l ∧ s.boot.siding = true ∧ s.sec.xfer = some x ∧ x.link ≠ some l.val ∧ ((fieldAt (cPayload ws) 4 2) ≠ 0xFFFF ∨ x.id = fieldAt (cPayload ws) 0 4) ∧ s.boot.prog = false :=
  ⟨(some 1), (cellP 0 5), ({ xf with link := some 2 }), (1), (withBoot (fun b => { b with siding := true }) (withXfer { xf with link := some 2 } (withLink 1 6 w0))), by decide +kernel⟩

theorem witness_chunkStored : ∃ (chunk : BitVec 16) (x : Xfer) (s : State),
    s.sec.xfer = some x ∧ x.hdr = true ∧ chunk.toNat < x.total ∧ (sget [] x.got chunk.toNat).length = unitCells s x chunk.toNat ∧ chunk.toNat ∉ x.stored ∧ x.early = false ∧ x.stored.length + 1 < x.total ∧ x.total ≤ 128 ∧ downLinks s x = [] ∧ s.boot.prog = false :=
  ⟨(1#16), ({ xf with got := [(1, [0, 1])] }), (withXfer { xf with got := [(1, [0, 1])] } w1), by decide +kernel⟩

theorem witness_chunkStoredSent : ∃ (chunk : BitVec 16) (x : Xfer) (q : Nat) (k : Nat) (s : State),
    s.sec.xfer = some x ∧ x.hdr = true ∧ chunk.toNat < x.total ∧ (sget [] x.got chunk.toNat).length = unitCells s x chunk.toNat ∧ chunk.toNat ∉ x.stored ∧ x.early = false ∧ x.stored.length + 1 < x.total ∧ x.total ≤ 128 ∧ x.link = none ∧ downLinks s x = [k] ∧ k < 8 ∧ sget 0 x.sent k = chunk.toNat + 1 ∧ (sget [] x.unacked k).length < 2 ∧ 0 < unitCells s x (sget 0 x.sent k - 1) ∧ s.fab.parcels = [] ∧ lkUp s k = true ∧ qOfCons s (epIsland (1 + k) 5) = some q ∧ qLevel s q + 16 ≤ qSize s q ∧ qSize s q < 2 ^ 15 ∧ s.boot.prog = false :=
  ⟨(1#16), ({ xf with got := [(1, [0, 1])], sent := [(1, 2)], unacked := [] }), (3), (1), (withQueue 3 32 0x82050000#32 ((withLink 1 6 (withXfer ({ xf with got := [(1, [0, 1])], sent := [(1, 2)], unacked := [] }) w1)).setReg Reg.fabParcelCfg 0x200#32)), by decide +kernel⟩

theorem witness_chunkStoredNone : ∃ (chunk : BitVec 16) (s : State),
    s.sec.xfer = none ∧ s.boot.prog = false :=
  ⟨1#16, (w1), by decide +kernel⟩

theorem witness_parcelAck : ∃ (l : Fin 8) (id : Word) (chunk : BitVec 16) (status : BitVec 8) (x : Xfer) (s : State),
    status = 0#8 ∧ s.sec.xfer = some x ∧ x.id = id.toNat ∧ l.val ∈ downLinks s x ∧ (∀ k ∈ downLinks s x, lkUp s k = false) ∧ s.fab.parcels = [] ∧ x.stored.length < x.total ∧ s.boot.prog = false :=
  ⟨(1 : Fin 8), (9#32), (3#16), (0#8), (xf), ((withXfer xf w1).setReg Reg.fabParcelCfg 0x200#32), by decide +kernel⟩

theorem witness_parcelAckNext : ∃ (l : Fin 8) (id : Word) (chunk : BitVec 16) (status : BitVec 8) (x : Xfer) (q : Nat) (s : State),
    status = 0#8 ∧ s.sec.xfer = some x ∧ x.id = id.toNat ∧ downLinks s x = [l.val] ∧ x.hdr = true ∧ 0 < sget 0 x.sent l.val ∧ sget 0 x.sent l.val ≤ x.total ∧ (sget 0 x.sent l.val - 1) ∈ x.stored ∧ ((sget [] x.unacked l.val).filter (fun c => decide (c ≠ chunk.toNat))).length < 2 ∧ 0 < unitCells s x (sget 0 x.sent l.val - 1) ∧ s.fab.parcels = [] ∧ lkUp s l.val = true ∧ qOfCons s (epIsland (1 + l.val) 5) = some q ∧ qLevel s q + 16 ≤ qSize s q ∧ qSize s q < 2 ^ 15 ∧ s.boot.prog = false :=
  ⟨(1 : Fin 8), (9#32), (3#16), (0#8), ({ xf with stored := [1], sent := [(1, 2)] }), (3), (withQueue 3 32 0x82050000#32 ((withLink 1 6 (withXfer ({ xf with stored := [1], sent := [(1, 2)] }) w1)).setReg Reg.fabParcelCfg 0x200#32)), by decide +kernel⟩

theorem witness_parcelAckOther : ∃ (l : Fin 8) (id : Word) (chunk : BitVec 16) (status : BitVec 8) (s : State),
    status ≠ 0#8 ∧ s.boot.prog = false :=
  ⟨(1 : Fin 8), 7#32, 1#16, (1#8), (w1), by decide +kernel⟩

theorem witness_parcelNack : ∃ (l : Fin 8) (id : Word) (chunk : BitVec 16) (status : BitVec 8) (first : BitVec 16) (count : BitVec 16) (x : Xfer) (s : State),
    status = 3#8 ∧ s.sec.xfer = some x ∧ x.id = id.toNat ∧ l.val ∈ downLinks s x ∧ sget 0 x.nacks ((l.val + 1) * 65536 + chunk.toNat) < 7 ∧ s.boot.prog = false :=
  ⟨(1 : Fin 8), (9#32), 1#16, (3#8), 1#16, 1#16, (xf), ((withXfer xf w1).setReg Reg.fabParcelCfg 0x200#32), by decide +kernel⟩

theorem witness_parcelGapTimeout : ∃ (chunk : BitVec 16) (x : Xfer) (f : Nat) (n : Nat) (s : State),
    s.sec.xfer = some x ∧ x.byHost = false ∧ sget [] x.got chunk.toNat ≠ [] ∧ missingRun (unitCells s x chunk.toNat) (sget [] x.got chunk.toNat) = some (f, n) ∧ sget 0 x.nacks chunk.toNat < 7 ∧ s.boot.prog = false :=
  ⟨1#16, ({ xf with got := [(1, [0])] }), (1), (1), (withXfer { xf with got := [(1, [0])] } w1), by decide +kernel⟩

theorem witness_transferTimeout : ∃ (x : Xfer) (s : State),
    s.sec.xfer = some x ∧ s.boot.prog = false :=
  ⟨(xf), (withXfer xf w1), by decide +kernel⟩

theorem witness_canSend : ∃ (c : Fin 12) (mask : BitVec 16) (s : State),
    s.bus.powered = true ∧ cannotSend s c.val = false :=
  ⟨(1 : Fin 12), (3#16), (withCan 1 (fun x => { x with tx := [(0, txB false false), (1, txB true false)] }) w1), by decide +kernel⟩

theorem witness_canAbort : ∃ (c : Fin 12) (mask : BitVec 16) (s : State),
    s.bus.powered = true :=
  ⟨(1 : Fin 12), (3#16), (withCan 1 (fun x => { x with tx := [(0, txB true true), (1, txB true false)] }) w1), by decide +kernel⟩

theorem witness_canFetch : ∃ (c : Fin 12) (b : BitVec 6) (ts : Word) (q : Nat) (s : State),
    s.bus.powered = true ∧ b.toNat < 48 ∧ (s.canI c.val).out = [] ∧ (sget rx0 (s.canI c.val).rx b.toNat).frame = none ∧ qOfProd s (epIsland 10 c.val) = some q ∧ qLevel s q + 3 ≤ qSize s q ∧ qLevel s q + 3 < 2 ^ 15 :=
  ⟨(1 : Fin 12), (4#6), 7#32, (3), (withQueue 3 16 0x8A01#32 (withCan 1 (fun x => x) w1)), by decide +kernel⟩

theorem witness_busStats : ∃ (src : Fin 24) (s : State),
    s.bus.powered = true ∧ sget [] s.bus.snap src.val = [] ∧ islandRoom s 10 48 < 2 + counters src.val :=
  ⟨(1 : Fin 24), (withCan 1 (fun x => x) w1), by decide +kernel⟩

theorem witness_busStatsPushed : ∃ (src : Fin 24) (q : Nat) (s : State),
    s.bus.powered = true ∧ sget [] s.bus.snap src.val = [] ∧ qOfProd s (epIsland 10 48) = some q ∧ qLevel s q + 2 + counters src.val ≤ qSize s q ∧ qLevel s q + 2 + counters src.val < 2 ^ 15 :=
  ⟨(1 : Fin 24), (3), (withQueue 3 64 0x8A30#32 (withCan 1 (fun x => x) w1)), by decide +kernel⟩

theorem witness_canRecover : ∃ (c : Fin 12) (s : State),
    s.bus.powered = true ∧ (s.canI c.val).mode = 2 ∧ (s.canI c.val).recov = false ∧ bit (canCtl (s.canI c.val) c.val) 4 = false :=
  ⟨(1 : Fin 12), (withCan 1 (fun x => { x with mode := 2 }) w1), by decide +kernel⟩

theorem witness_canSelect : ∃ (src : Fin 24) (idx : BitVec 9) (value : Word) (a : Nat) (s : State),
    s.bus.powered = true ∧ src.val < 12 ∧ selectAddr src.val idx.toNat = some a :=
  ⟨(1), (0#9), 7#32, (0x80800), (withCan 1 (fun x => x) w1), by decide +kernel⟩

theorem witness_canSelectPort : ∃ (src : Fin 24) (idx : BitVec 9) (value : Word) (a : Nat) (s : State),
    s.bus.powered = true ∧ 12 ≤ src.val ∧ selectAddr src.val idx.toNat = some a :=
  ⟨(13), (0#9), 7#32, (0x90800), (withCan 1 (fun x => x) w1), by decide +kernel⟩

theorem witness_canSelectNone : ∃ (src : Fin 24) (idx : BitVec 9) (value : Word) (s : State),
    selectAddr src.val idx.toNat = none :=
  ⟨(1), (0x1FF#9), 7#32, (withCan 1 (fun x => x) w1), by decide +kernel⟩

theorem witness_cfgEnd : ∃ (src : Fin 24) (s : State),
    s.bus.powered = true ∧ src.val < 12 ∧ (s.canI src.val).cfgd = false :=
  ⟨(1), (withCan 1 (fun x => { x with cfgd := false, staged := [(Reg.canChCtrl 1, 3#32)] }) w1), by decide +kernel⟩

theorem witness_cfgEndPort : ∃ (src : Fin 24) (s : State),
    12 ≤ src.val ∧ (macOn s (src.val - 12) = false ∨ bit (cfgReg (s.macI (src.val - 12)).staged (Reg.macPCtrl (src.val - 12))) 0 = false) :=
  ⟨(13), (withMac 0 (fun x => { x with staged := [(Reg.macPCtrl 1, 3#32)] }) w1), by decide +kernel⟩

theorem witness_cfgEndPortWaits : ∃ (src : Fin 24) (s : State),
    12 ≤ src.val ∧ macOn s (src.val - 12) = true ∧ bit (cfgReg (s.macI (src.val - 12)).staged (Reg.macPCtrl (src.val - 12))) 0 = true :=
  ⟨(13), (withMac 1 (fun x => { x with staged := [(Reg.macPCtrl 1, 3#32)] }) w1), by decide +kernel⟩

theorem witness_cfgEndWaits : ∃ (src : Fin 24) (s : State),
    src.val < 12 ∧ (s.canI src.val).cfgd = true ∧ (s.canI src.val).mode ≠ 3 ∧ frameUnderWay s src.val = true :=
  ⟨(1), (withCan 1 (fun x => { x with rxBusy := true }) w1), by decide +kernel⟩

theorem witness_busStatusWord : ∃ (src : Fin 24) (s : State),
    s.bus.powered = true :=
  ⟨(1), (withCan 1 (fun x => x) w1), by decide +kernel⟩

theorem witness_canFrameReceive : ∃ (c : Fin 12) (id : BitVec 29) (ide : Bool) (dlc : BitVec 4) (fdf : Bool) (brs : Bool) (esi : Bool) (rtr : Bool) (bytes : List Byte) (ts : BitVec 64) (s : State),
    (Instr.canFrameReceive c id ide dlc fdf brs esi rtr bytes ts).wf = true ∧ canOn s c.val = true ∧ (s.canI c.val).next = none ∧ (fdf = false ∨ bit (canCtl (s.canI c.val) c.val) 1 = true) ∧ (s.canI c.val).out = [] ∧ (List.range 48).find? (accepts (s.canI c.val) c.val (mkFrame id.toNat ide dlc.toNat fdf brs esi rtr bytes ts.toNat)) = none :=
  ⟨(1 : Fin 12), (5#29), (false), (2#4), (false), (false), (false), (false), [1#8, 2#8], 1#64, (withCan 1 (fun x => x) w1), by decide +kernel⟩

theorem witness_canFrameMailbox : ∃ (c : Fin 12) (id : BitVec 29) (ide : Bool) (dlc : BitVec 4) (fdf : Bool) (brs : Bool) (esi : Bool) (rtr : Bool) (bytes : List Byte) (ts : BitVec 64) (b : Nat) (s : State),
    (Instr.canFrameReceive c id ide dlc fdf brs esi rtr bytes ts).wf = true ∧ canOn s c.val = true ∧ (s.canI c.val).next = none ∧ (fdf = false ∨ bit (canCtl (s.canI c.val) c.val) 1 = true) ∧ (s.canI c.val).out = [] ∧ (List.range 48).find? (accepts (s.canI c.val) c.val (mkFrame id.toNat ide dlc.toNat fdf brs esi rtr bytes ts.toNat)) = some b ∧ fld (cfgReg (s.canI c.val).cur (Reg.canChMbId c.val b)) 31 30 = 2 ∧ (sget rx0 (s.canI c.val).rx b).frame = none :=
  ⟨(1 : Fin 12), (5#29), (false), (2#4), (false), (false), (false), (false), [1#8, 2#8], 1#64, (0), (withCan 1 (fun x => { x with cur := [(Reg.canChCtrl 1, 1#32), (Reg.canChMbId 1 0, 0x80000005#32), (Reg.canChMbMask 1 0, 0x1FFFFFFF#32)] }) w1), by decide +kernel⟩

theorem witness_canRxRecordPush : ∃ (c : Fin 12) (ws : List Word) (q : Nat) (s : State),
    (s.canI c.val).out = [.words ws] ∧ qOfProd s (epIsland 10 c.val) = some q ∧ qLevel s q + ws.length ≤ qSize s q ∧ qLevel s q + ws.length < 2 ^ 15 :=
  ⟨(1 : Fin 12), ([1#32, 2#32]), (3), (withQueue 3 16 0x8A01#32 (withCan 1 (fun x => { x with out := [.words [1#32, 2#32]] }) w1)), by decide +kernel⟩

theorem witness_canTxRecordLoad : ∃ (c : Fin 12) (q : Nat) (s : State),
    s.bus.powered = true ∧ qOfCons s (epIsland 10 (12 + c.val)) = some q ∧ 2 ≤ qLevel s q ∧ recordLen (qFetch s q 1).1 ≤ qLevel s q ∧ badRecord s c.val (qFetch s q 0).1 (qFetch s q 1).1 = false ∧ bit (qFetch s q 1).1 23 = false ∧ (canTx s c.val (fld (qFetch s q 1).1 21 16 - 48)).active = false ∧ (canTx s c.val (fld (qFetch s q 1).1 21 16 - 48)).req = false ∧ (s.canI c.val).out = [] ∧ s.eccAt mcQue (qAddr s q 1) = .ok :=
  ⟨(1 : Fin 12), (3), (qPushAll (withQueue 3 16 0x8A0D0000#32 (withCan 1 (fun x => x) w1)) 0 3 [5#32, 0x300001#32, 7#32]), by decide +kernel⟩

theorem witness_startOfFrameOther : ∃ (c : Fin 12) (ts : BitVec 64) (other : Bool) (s : State),
    s.bus.powered = true ∧ sending s c.val = false ∧ (s.canI c.val).next = none ∧ other = true :=
  ⟨(1 : Fin 12), 1#64, true, (withCan 1 (fun x => { x with tx := [(1, txB true false)] }) w1), by decide +kernel⟩

theorem witness_startOfFrame : ∃ (c : Fin 12) (ts : BitVec 64) (other : Bool) (i : Nat) (s : State),
    other = false ∧ canOn s c.val = true ∧ sending s c.val = false ∧ (s.canI c.val).next = none ∧ cannotSend s c.val = false ∧ offered s c.val = some i :=
  ⟨(1 : Fin 12), 1#64, (false), (1), (withCan 1 (fun x => { x with tx := [(1, txB true false)] }) w1), by decide +kernel⟩

theorem witness_canAttemptEnd : ∃ (c : Fin 12) (res : Fin 4) (tdcv : Option (BitVec 7)) (i : Nat) (s : State),
    (List.range 16).find? (fun i => (canTx s c.val i).onBus) = some i ∧ tdcv = none ∧ (s.canI c.val).leave = false ∧ res = 0 ∧ (canTx s c.val i).frame.isSome = true ∧ bit (canCtl (s.canI c.val) c.val) 3 = false :=
  ⟨(1 : Fin 12), (0), (none), (1), (withCan 1 (fun x => { x with tx := [(1, txB true true)], txec := 3 }) w1), by decide +kernel⟩

theorem witness_canAttemptNoAck : ∃ (c : Fin 12) (res : Fin 4) (tdcv : Option (BitVec 7)) (i : Nat) (s : State),
    (List.range 16).find? (fun i => (canTx s c.val i).onBus) = some i ∧ tdcv = none ∧ (s.canI c.val).leave = false ∧ res = 2 ∧ (canTx s c.val i).abort = false ∧ bit (canCtl (s.canI c.val) c.val) 5 = true :=
  ⟨(1 : Fin 12), (2), (none), (1), (withCan 33 (fun x => { x with tx := [(1, txB true true)] }) w1), by decide +kernel⟩

theorem witness_canErrorLeaves : ∃ (c : Fin 12) (kind : Fin 7) (txUp : Fin 9) (rxUp : Fin 9) (n : Sparse Word) (s : State),
    (Instr.canError c kind txUp rxUp).wf = true ∧ canOn s c.val = true ∧ (s.canI c.val).txec + txUp.val ≤ 255 ∧ (s.canI c.val).leave = true ∧ (s.canI c.val).next = some n ∧ sending s c.val = false :=
  ⟨(1 : Fin 12), (1), (8), (0), ([]), (withCan 1 (fun x => { x with leave := true, next := some [] }) w1), by decide +kernel⟩

theorem witness_canError : ∃ (c : Fin 12) (kind : Fin 7) (txUp : Fin 9) (rxUp : Fin 9) (s : State),
    (Instr.canError c kind txUp rxUp).wf = true ∧ canOn s c.val = true ∧ (s.canI c.val).txec + txUp.val ≤ 255 ∧ (s.canI c.val).leave = false :=
  ⟨(1 : Fin 12), (1), (8), (0), (withCan 1 (fun x => { x with txec := 120 }) w1), by decide +kernel⟩

theorem witness_canErrorBusOff : ∃ (c : Fin 12) (kind : Fin 7) (txUp : Fin 9) (rxUp : Fin 9) (s : State),
    (Instr.canError c kind txUp rxUp).wf = true ∧ canOn s c.val = true ∧ 255 < (s.canI c.val).txec + txUp.val :=
  ⟨(1 : Fin 12), (1), (8), (0), (withCan 1 (fun x => { x with txec := 248, mode := 1 }) w1), by decide +kernel⟩

theorem witness_protocolException : ∃ (c : Fin 12) (s : State),
    canOn s c.val = true :=
  ⟨(1 : Fin 12), (withCan 1 (fun x => x) w1), by decide +kernel⟩

theorem witness_busIntegrationLeaves : ∃ (c : Fin 12) (n : Sparse Word) (s : State),
    s.bus.powered = true ∧ (s.canI c.val).leave = true ∧ (s.canI c.val).next = some n ∧ sending s c.val = false :=
  ⟨(1 : Fin 12), ([]), (withCan 1 (fun x => { x with leave := true, next := some [], rxBusy := true }) w1), by decide +kernel⟩

theorem witness_busIntegration : ∃ (c : Fin 12) (s : State),
    s.bus.powered = true ∧ (s.canI c.val).leave = false ∧ (s.canI c.val).pex = false ∧ (s.canI c.val).mode = 3 ∧ (s.canI c.val).cfgd = true ∧ bit (canCtl (s.canI c.val) c.val) 0 = true :=
  ⟨(1 : Fin 12), (withCan 1 (fun x => { x with mode := 3 }) w1), by decide +kernel⟩

theorem witness_busIntegrationPex : ∃ (c : Fin 12) (s : State),
    s.bus.powered = true ∧ (s.canI c.val).leave = false ∧ (s.canI c.val).pex = true :=
  ⟨(1 : Fin 12), (withCan 1 (fun x => { x with pex := true }) w1), by decide +kernel⟩

theorem witness_busOffHoldEnd : ∃ (c : Fin 12) (s : State),
    s.bus.powered = true ∧ (s.canI c.val).mode = 2 ∧ (s.canI c.val).recov = false ∧ bit (canCtl (s.canI c.val) c.val) 4 = true :=
  ⟨(1 : Fin 12), (withCan 17 (fun x => { x with mode := 2 }) w1), by decide +kernel⟩

theorem witness_busOffRecoveryDone : ∃ (c : Fin 12) (s : State),
    s.bus.powered = true ∧ (s.canI c.val).mode = 2 ∧ (s.canI c.val).recov = true :=
  ⟨(1 : Fin 12), (withCan 1 (fun x => { x with mode := 2, recov := true, txec := 9 }) w1), by decide +kernel⟩

theorem witness_t1sFrameReceive : ∃ (p : Fin 12) (bytes : List Byte) (whole : Bool) (late : Bool) (ts : BitVec 64) (s : State),
    macOn s p.val = true ∧ (s.macI p.val).next = none ∧ (s.macI p.val).out = [] ∧ fifoBytes (s.macI p.val) + bytes.length ≤ 8192 ∧ rxFault s p.val bytes whole late = none ∧ etherType bytes ≠ 0x8808 ∧ passes s p.val (bytes.take 6) = true ∧ islandRoom s 10 (24 + p.val) < (rxRecord bytes (w32 ts.toNat)).length :=
  ⟨(1 : Fin 12), (macF), (true), (false), 1#64, (withMac 257 (fun x => x) w1), by decide +kernel⟩

theorem witness_t1sFrameFault : ∃ (p : Fin 12) (bytes : List Byte) (whole : Bool) (late : Bool) (ts : BitVec 64) (k : Nat) (s : State),
    macOn s p.val = true ∧ (s.macI p.val).next = none ∧ (s.macI p.val).out = [] ∧ fifoBytes (s.macI p.val) + bytes.length ≤ 8192 ∧ rxFault s p.val bytes whole late = some k :=
  ⟨(1 : Fin 12), (macF.take 63), (true), (false), 1#64, (10), (withMac 257 (fun x => x) w1), by decide +kernel⟩

theorem witness_t1sRxRecordPush : ∃ (p : Fin 12) (ws : List Word) (q : Nat) (s : State),
    (s.macI p.val).out = [.report ws] ∧ qOfProd s (epIsland 10 (24 + p.val)) = some q ∧ qLevel s q + ws.length ≤ qSize s q ∧ qLevel s q + ws.length < 2 ^ 15 :=
  ⟨(1 : Fin 12), ([1#32, 2#32]), (3), (withQueue 3 16 0x8A19#32 (withMac 1 (fun x => { x with out := [.report [1#32, 2#32]] }) w1)), by decide +kernel⟩

theorem witness_t1sTxRecordPop : ∃ (p : Fin 12) (q : Nat) (s : State),
    qOfCons s (epIsland 10 (36 + p.val)) = some q ∧ macOn s p.val = true ∧ txRecordOk s p.val (qFetch s q 0).1 = true ∧ 1 + ((fld (qFetch s q 0).1 15 0) + 3) / 4 ≤ qLevel s q ∧ txBytes (s.macI p.val) + (fld (qFetch s q 0).1 15 0) ≤ 4096 ∧ (s.macI p.val).out = [] :=
  ⟨(1 : Fin 12), (3), (qPushAll (withQueue 3 16 0x8A250000#32 (withMac 1 (fun x => x) w1)) 0 3 [14#32, 1#32, 2#32, 3#32, 4#32]), by decide +kernel⟩

theorem witness_t1sFrameTransmit : ∃ (p : Fin 12) (res : Fin 3) (defer : Bool) (ts : BitVec 64) (f : List Byte) (fs : List (List Byte)) (s : State),
    macOn s p.val = true ∧ (s.macI p.val).next = none ∧ (s.macI p.val).paused = none ∧ (s.macI p.val).backoff = none ∧ (s.macI p.val).txq = f :: fs ∧ (macFd s p.val = true ∨ res = 0) ∧ (s.macI p.val).out = [] :=
  ⟨(1 : Fin 12), (0), true, 1#64, ([1#8, 2#8]), ([]), (withMac 1 (fun x => { x with txq := [[1#8, 2#8]] }) w1), by decide +kernel⟩

theorem witness_t1sCollision : ∃ (p : Fin 12) (res : Fin 3) (defer : Bool) (ts : BitVec 64) (f : List Byte) (fs : List (List Byte)) (s : State),
    macOn s p.val = true ∧ (s.macI p.val).next = none ∧ (s.macI p.val).paused = none ∧ (s.macI p.val).backoff = none ∧ (s.macI p.val).txq = f :: fs ∧ macFd s p.val = false ∧ res = 1 ∧ (s.macI p.val).coll + 1 < 16 :=
  ⟨(1 : Fin 12), (1), true, 1#64, ([1#8, 2#8]), ([]), (withMac 1 (fun x => { x with txq := [[1#8, 2#8]] }) w1), by decide +kernel⟩

theorem witness_pauseReceived : ∃ (p : Fin 12) (quanta : BitVec 16) (s : State),
    macOn s p.val = true ∧ (s.macI p.val).next = none ∧ bit (macCtl s p.val) 3 = true ∧ macFd s p.val = true :=
  ⟨(1 : Fin 12), (0#16), (withMac 11 (fun x => x) w1), by decide +kernel⟩

theorem witness_pauseReceivedStarts : ∃ (p : Fin 12) (quanta : BitVec 16) (n : Sparse Word) (s : State),
    macOn s p.val = true ∧ (s.macI p.val).next = some n ∧ bit (cfgReg n (Reg.macPCtrl p.val)) 0 = true ∧ bit (cfgReg n (Reg.macPCtrl p.val)) 1 = true ∧ bit (cfgReg n (Reg.macPCtrl p.val)) 3 = true :=
  ⟨(1 : Fin 12), (7#16), ([(Reg.macPCtrl 1, 11#32)]), (withMac 1 (fun x => { x with flow := false, next := some [(Reg.macPCtrl 1, 11#32)] }) w1), by decide +kernel⟩

theorem witness_pauseSendStarts : ∃ (p : Fin 12) (q : Nat) (n : Sparse Word) (s : State),
    rxQueue s p.val = some q ∧ pausing s p.val = true ∧ (s.macI p.val).flow = false ∧ qHigh s q ≤ qLevel s q ∧ (s.macI p.val).next = some n ∧ bit (cfgReg n (Reg.macPCtrl p.val)) 0 = true ∧ bit (cfgReg n (Reg.macPCtrl p.val)) 1 = true ∧ bit (cfgReg n (Reg.macPCtrl p.val)) 2 = true :=
  ⟨(1 : Fin 12), (3), ([(Reg.macPCtrl 1, 327687#32)]), (withFlow 4 (withMac 7 (fun x => { x with flow := false, next := some [(Reg.macPCtrl 1, 327687#32)] }) w1)), by decide +kernel⟩

theorem witness_pauseSendEnds : ∃ (p : Fin 12) (q : Nat) (n : Sparse Word) (s : State),
    rxQueue s p.val = some q ∧ pausing s p.val = true ∧ (s.macI p.val).flow = false ∧ qHigh s q ≤ qLevel s q ∧ (s.macI p.val).next = some n ∧ bit (cfgReg n (Reg.macPCtrl p.val)) 2 = false :=
  ⟨(1 : Fin 12), (3), ([(Reg.macPCtrl 1, 3#32)]), (withFlow 4 (withMac 7 (fun x => { x with flow := false, next := some [(Reg.macPCtrl 1, 3#32)] }) w1)), by decide +kernel⟩

theorem witness_pauseResendStarts : ∃ (p : Fin 12) (q : Nat) (n : Sparse Word) (s : State),
    rxQueue s p.val = some q ∧ pausing s p.val = true ∧ (s.macI p.val).flow = true ∧ qLow s q < qLevel s q ∧ (s.macI p.val).next = some n ∧ bit (cfgReg n (Reg.macPCtrl p.val)) 0 = true ∧ bit (cfgReg n (Reg.macPCtrl p.val)) 1 = true ∧ bit (cfgReg n (Reg.macPCtrl p.val)) 2 = true :=
  ⟨(1 : Fin 12), (3), ([(Reg.macPCtrl 1, 7#32)]), (withFlow 3 (withMac 7 (fun x => { x with flow := true, next := some [(Reg.macPCtrl 1, 7#32)] }) w1)), by decide +kernel⟩

theorem witness_pauseReleaseStarts : ∃ (p : Fin 12) (q : Nat) (n : Sparse Word) (s : State),
    rxQueue s p.val = some q ∧ pausing s p.val = true ∧ (s.macI p.val).flow = true ∧ qLevel s q ≤ qLow s q ∧ (s.macI p.val).next = some n ∧ bit (cfgReg n (Reg.macPCtrl p.val)) 0 = true ∧ bit (cfgReg n (Reg.macPCtrl p.val)) 1 = true ∧ bit (cfgReg n (Reg.macPCtrl p.val)) 2 = true :=
  ⟨(1 : Fin 12), (3), ([(Reg.macPCtrl 1, 7#32)]), (withFlow 2 (withMac 7 (fun x => { x with flow := true, next := some [(Reg.macPCtrl 1, 7#32)] }) w1)), by decide +kernel⟩

theorem witness_pauseSend : ∃ (p : Fin 12) (q : Nat) (s : State),
    rxQueue s p.val = some q ∧ pausing s p.val = true ∧ (s.macI p.val).next = none ∧ (s.macI p.val).flow = false ∧ qHigh s q ≤ qLevel s q :=
  ⟨(1 : Fin 12), (3), (withFlow 4 (withMac 7 (fun x => x) w1)), by decide +kernel⟩

theorem witness_pauseResend : ∃ (p : Fin 12) (q : Nat) (s : State),
    rxQueue s p.val = some q ∧ pausing s p.val = true ∧ (s.macI p.val).next = none ∧ (s.macI p.val).flow = true ∧ qLow s q < qLevel s q :=
  ⟨(1 : Fin 12), (3), (withFlow 3 (withMac 7 (fun x => { x with flow := true }) w1)), by decide +kernel⟩

theorem witness_pauseRelease : ∃ (p : Fin 12) (q : Nat) (s : State),
    rxQueue s p.val = some q ∧ pausing s p.val = true ∧ (s.macI p.val).next = none ∧ (s.macI p.val).flow = true ∧ qLevel s q ≤ qLow s q :=
  ⟨(1 : Fin 12), (3), (withFlow 2 (withMac 7 (fun x => { x with flow := true }) w1)), by decide +kernel⟩

theorem witness_backpressureJam : ∃ (p : Fin 12) (q : Nat) (s : State),
    rxQueue s p.val = some q ∧ macOn s p.val = true ∧ (s.macI p.val).next = none ∧ macFd s p.val = false ∧ bit (macCtl s p.val) 4 = true ∧ qLow s q < qLevel s q ∧ qHigh s q ≤ qLevel s q :=
  ⟨(1 : Fin 12), (3), (withFlow 4 (withMac 17 (fun x => x) w1)), by decide +kernel⟩

theorem witness_backpressureHeld : ∃ (p : Fin 12) (q : Nat) (s : State),
    rxQueue s p.val = some q ∧ macOn s p.val = true ∧ (s.macI p.val).next = none ∧ macFd s p.val = false ∧ bit (macCtl s p.val) 4 = true ∧ qLow s q < qLevel s q ∧ (s.macI p.val).flow = true :=
  ⟨(1 : Fin 12), (3), (withFlow 3 (withMac 17 (fun x => { x with flow := true }) w1)), by decide +kernel⟩

theorem witness_backpressureBegins : ∃ (q : Fin 64) (island : Fin 25) (unit : BitVec 8) (ws : List Word) (p : Fin 12) (s : State),
    qSize s q.val ≠ 0 ∧ qProd s q.val = epIsland island.val unit.toNat ∧ bpPort s q.val = some p.val ∧ qLevel s q.val < qHigh s q.val ∧ qLow s q.val < qHigh s q.val ∧ qHigh s q.val = qLevel s q.val + ws.length ∧ qHigh s q.val ≤ qSize s q.val ∧ qHigh s q.val < 2 ^ 15 ∧ (s.macI p.val).flow = false ∧ (s.macI p.val).ovf = false :=
  ⟨(3), (10), (25#8), ([1#32, 2#32]), (1 : Fin 12), (withFlow 2 (withMac 17 (fun x => x) w1)), by decide +kernel⟩

theorem witness_backpressureLow : ∃ (i : Issue) (d : Fin 64) (qa : Fin 64) (p : Fin 12) (s : State),
    (Instr.qpop i d qa).wf = true ∧ issueGoes i s ∧ qSize s qa.val ≠ 0 ∧ qCons s qa.val = epEngine ∧ bpPort s qa.val = some p.val ∧ qLevel s qa.val = qLow s qa.val + 1 ∧ s.eccAt mcQue (qAddr s qa.val 0) = .ok ∧ (s.macI p.val).ovf = false ∧ sget 0#32 s.bus.word (12 + p.val) = statusOf s (12 + p.val) :=
  ⟨(⟨0, 3, 0, false⟩ : Issue), (1 : Fin 64), (3), (1 : Fin 12), ((fun s : State => { s with bus := { s.bus with word := sset 0#32 s.bus.word 13 (statusOf s 13) } }) (withFlow 3 (withMac 17 (fun x => { x with flow := true }) w1))), by unfold issueGoes; decide +kernel⟩

theorem witness_backpressureEnds : ∃ (p : Fin 12) (q : Nat) (s : State),
    rxQueue s p.val = some q ∧ macOn s p.val = true ∧ (s.macI p.val).next = none ∧ macFd s p.val = false ∧ bit (macCtl s p.val) 4 = true ∧ qLevel s q ≤ qLow s q :=
  ⟨(1 : Fin 12), (3), (withFlow 2 (withMac 17 (fun x => { x with flow := true }) w1)), by decide +kernel⟩

theorem witness_heartbeatSend : ∃ (s : State),
    parEn s = true ∧ s.eng.released = true ∧ s.rb Reg.tteStat 3 = false :=
  ⟨(withPar 1 (fun x => x) w1), by decide +kernel⟩

theorem witness_heartbeatReceive : ∃ (overFabric : Bool) (ws : List Word) (s : State),
    parEn s = true ∧ hbGood s ws = true ∧ overFabric = false :=
  ⟨(false), (hbFrame), (withPar 1 (fun x => x) w1), by decide +kernel⟩

theorem witness_heartbeatBad : ∃ (overFabric : Bool) (ws : List Word) (s : State),
    parEn s = true ∧ hbGood s ws = false :=
  ⟨true, [1#32, 2#32], (withPar 1 (fun x => x) w1), by decide +kernel⟩

theorem witness_fabricHeartbeat : ∃ (s : State),
    parEn s = true ∧ s.eng.released = true ∧ s.rb Reg.tteStat 3 = false :=
  ⟨(withPar 1 (fun x => x) w1), by decide +kernel⟩

theorem witness_pathLost : ∃ (onFabric : Bool) (s : State),
    parEn s = true ∧ s.eng.released = true ∧ (if onFabric then s.pair.lostFb else s.pair.lostPl) = false :=
  ⟨true, ((withPar 1 (fun x => x) w1).setRb Reg.parStat 5 true), by decide +kernel⟩

theorem witness_pathLostAgain : ∃ (onFabric : Bool) (s : State),
    parEn s = true ∧ (if onFabric then s.pair.lostFb else s.pair.lostPl) = true :=
  ⟨true, (withPar 1 (fun x => { x with lostFb := true }) w1), by decide +kernel⟩

theorem witness_leaseRequest : ∃ (answered : Bool) (cycle : BitVec 17) (s : State),
    parEn s = true ∧ parState s = 2 ∧ answered = true :=
  ⟨true, 1#17, (withPar 2 (fun x => x) w1), by decide +kernel⟩

theorem witness_leaseRequestQuiet : ∃ (answered : Bool) (cycle : BitVec 17) (s : State),
    parEn s = true ∧ parState s = 1 ∧ partnerLost s = false :=
  ⟨true, 1#17, ((withPar 1 (fun x => x) w1).setRb Reg.parStat 4 true), by decide +kernel⟩

theorem witness_parGrant : ∃ (req : BitVec 16) (cycle : BitVec 17) (fromBox : Bool) (us : Nat) (s : State),
    parEn s = true ∧ (parState s = 1 ∨ parState s = 2) ∧ s.pair.applied = none ∧ requestAge s req.toNat (s.nowNs cycle.toNat) = some us ∧ us < 289000 :=
  ⟨(5#16), 1#17, true, (288999), ((fun s : State => { s with pair := { s.pair with reqAt := [(5, 1 + s.nowNs 1)] }, eng := { s.eng with slotBase := s.eng.slotBase + 1000 * 288999 } }) (withPar 1 (fun x => x) w1)), by decide +kernel⟩

theorem witness_parGrantLate : ∃ (req : BitVec 16) (cycle : BitVec 17) (fromBox : Bool) (us : Nat) (s : State),
    parEn s = true ∧ requestAge s req.toNat (s.nowNs cycle.toNat) = some us ∧ 289000 ≤ us ∧ fromBox = false :=
  ⟨(5#16), 1#17, (false), (289000), ((fun s : State => { s with pair := { s.pair with reqAt := [(5, 1 + s.nowNs 1)] }, eng := { s.eng with slotBase := s.eng.slotBase + 1000 * 289000 } }) (withPar 1 (fun x => x) w1)), by decide +kernel⟩

theorem witness_parGrantUnsent : ∃ (req : BitVec 16) (cycle : BitVec 17) (fromBox : Bool) (s : State),
    parEn s = true ∧ requestAge s req.toNat (s.nowNs cycle.toNat) = none ∧ fromBox = false :=
  ⟨1#16, 1#17, (false), (withPar 1 (fun x => x) w1), by decide +kernel⟩

theorem witness_parProbe : ∃ (answered : Bool) (s : State),
    parEn s = true ∧ (parState s = 3 ∨ parState s = 4) :=
  ⟨true, (withPar 4 (fun x => x) w1), by decide +kernel⟩

theorem witness_sbLost : ∃ (s : State),
    parEn s = true :=
  ⟨(withPar 1 (fun x => x) w1), by decide +kernel⟩

theorem witness_pairStateChange : ∃ (s : State),
    parEn s = true ∧ s.eng.released = true ∧ parState s = 1 ∧ s.pair.granted = true :=
  ⟨(withPar 1 (fun x => { x with granted := true }) w1), by decide +kernel⟩

theorem witness_pairLeaseOut : ∃ (s : State),
    parEn s = true ∧ s.eng.released = true ∧ parState s = 2 ∧ s.rf Reg.parLease 18 0 = 0 :=
  ⟨(withPar 2 (fun x => x) w1), by decide +kernel⟩

theorem witness_pairPartnerGone : ∃ (s : State),
    parEn s = true ∧ s.eng.released = true ∧ parState s = 3 ∧ partnerLost s = true ∧ s.pair.knownUs = 0 :=
  ⟨(withPar 3 (fun x => { x with lostPl := true, lostFb := true }) w1), by decide +kernel⟩

theorem witness_pairSafeEnds : ∃ (s : State),
    parEn s = true ∧ s.eng.released = true ∧ parState s = 4 ∧ s.pair.partnerHold = true :=
  ⟨(withPar 4 (fun x => { x with partnerHold := true }) w1), by decide +kernel⟩

theorem witness_pairEntersSafe : ∃ (s : State),
    parEn s = true ∧ s.eng.released = true ∧ parState s = 1 ∧ s.pair.granted = false ∧ s.pair.partnerHold = false ∧ (s.pair.ownGrant && decide (member s = 1)) = false ∧ partnerLost s = true ∧ s.pair.knownUs = 0 ∧ s.rb Reg.parStat 6 = false :=
  ⟨((withPar 1 (fun x => { x with lostPl := true, lostFb := true }) w1).setRb Reg.parStat 6 false), by decide +kernel⟩

theorem witness_signalBoxRequest : ∃ (k : Fin 16) (member : Bool) (probe : Bool) (req : BitVec 16) (s : State),
    s.rb Reg.parCfg 1 = true ∧ s.rb (Reg.parSbPair k.val) 16 = true ∧ s.pair.releaseNs + 311000000 ≤ s.fabTime ∧ probe = false ∧ (sbRec s k.val).valid = false :=
  ⟨(1 : Fin 16), true, (false), 1#16, ({ ((withPar 1 (fun x => { x with sb := [] }) w1).setReg (Reg.parSbPair 1) 0x10040#32) with fabTime := 311000000 }), by decide +kernel⟩

theorem witness_signalBoxHeld : ∃ (k : Fin 16) (member : Bool) (probe : Bool) (req : BitVec 16) (s : State),
    s.rb Reg.parCfg 1 = true ∧ s.rb (Reg.parSbPair k.val) 16 = true ∧ s.pair.releaseNs + 311000000 ≤ s.fabTime ∧ probe = false ∧ (sbRec s k.val).valid = true ∧ (sbRec s k.val).holder ≠ b2n member ∧ s.fabTime < (sbRec s k.val).expiry + 11000000 :=
  ⟨(1 : Fin 16), true, (false), 1#16, ({ ((withPar 1 (fun x => { x with sb := [(1, ⟨true, 0, 500000000, none⟩)] }) w1).setReg (Reg.parSbPair 1) 0x10040#32) with fabTime := 400000000 }), by decide +kernel⟩

theorem witness_signalBoxPendingGrant : ∃ (k : Nat) (x : Nat) (q : Nat) (u : Nat) (s : State),
    k < 16 ∧ s.rb Reg.parCfg 1 = true ∧ (sbRec s k).pend = some (x, q, u) ∧ (sbRec s k).expiry + 11000000 ≤ s.fabTime ∧ s.fabTime ≤ u + 100000000 :=
  ⟨(1), (1), (5), (300000000), ({ ((withPar 1 (fun x => { x with sb := [(1, ⟨true, 0, 389000000, some (1, 5, 300000000)⟩)] }) w1).setReg (Reg.parSbPair 1) 0x10040#32) with fabTime := 400000000 }), by decide +kernel⟩

theorem witness_rectWord : ∃ (w : BitVec 28) (s : State),
    s.lcd.powered = true ∧ s.lcd.opened = none ∧ fld (w.setWidth 32) 19 16 = 0 ∧ (rectOf (w.setWidth 32)).com0 ≤ (rectOf (w.setWidth 32)).com1 ∧ (rectOf (w.setWidth 32)).com1 < pComs (s.pan (rectOf (w.setWidth 32)).panel) ∧ (rectOf (w.setWidth 32)).seg0 ≤ (rectOf (w.setWidth 32)).seg1 ∧ (rectOf (w.setWidth 32)).seg1 < pSegs (s.pan (rectOf (w.setWidth 32)).panel) ∧ pCfgd (s.pan (rectOf (w.setWidth 32)).panel) = true ∧ pEn (s.pan (rectOf (w.setWidth 32)).panel) = true :=
  ⟨(0x4800902#28), (withPan (fun x => x) w1), by decide +kernel⟩

theorem witness_rectWordBad : ∃ (w : BitVec 28) (s : State),
    s.lcd.powered = true ∧ s.lcd.opened = none ∧ pCfgd (s.pan (rectOf (w.setWidth 32)).panel) = false :=
  ⟨(0x4800902#28), (withPan (fun x => panel0) w1), by decide +kernel⟩

theorem witness_rectWordReserved : ∃ (w : BitVec 28) (s : State),
    s.lcd.powered = true ∧ fld (w.setWidth 32) 19 16 ≠ 0 :=
  ⟨(0x4890902#28), (withPan (fun x => x) w1), by decide +kernel⟩

theorem witness_segdata : ∃ (w : Word) (r : Rect) (s : State),
    s.lcd.powered = true ∧ s.lcd.opened = some r ∧ r.data.length + 1 < rectN r :=
  ⟨7#32, ({ rectA with data := [] }), ({ (withPan (fun x => x) w1) with lcd := { (withPan (fun x => x) w1).lcd with opened := some { rectA with data := [] } } }), by decide +kernel⟩

theorem witness_segdataBad : ∃ (w : Word) (s : State),
    s.lcd.powered = true ∧ s.lcd.opened = none :=
  ⟨7#32, (withPan (fun x => x) w1), by decide +kernel⟩

theorem witness_requestInstant : ∃ (w : Word) (r : Rect) (s : State),
    s.lcd.powered = true ∧ s.lcd.opened = some r ∧ r.data.length + 1 = rectN r ∧ (s.pan r.panel).pend = [] ∧ (s.pan r.panel).flight.length < 4 ∧ (s.pan r.panel).flight.any (overlaps { r with data := r.data ++ [w] }) = false :=
  ⟨7#32, (rectA), ({ (withPan (fun x => x) w1) with lcd := { (withPan (fun x => x) w1).lcd with opened := some rectA } }), by decide +kernel⟩

theorem witness_frameBoundary : ∃ (p : Fin 4) (s : State),
    s.lcd.powered = true ∧ (s.pan p.val).next = none ∧ midFrame (s.pan p.val) = false ∧ (s.pan p.val).pend = [] :=
  ⟨(1 : Fin 4), ((fun s : State => { s with lcd := { s.lcd with gen := true } }) (withPan (fun x => { x with flight := [{ rectA with data := [5#32, 6#32] }], chosen := true }) w1)), by decide +kernel⟩

theorem witness_frameBoundaryMid : ∃ (p : Fin 4) (s : State),
    s.lcd.powered = true ∧ midFrame (s.pan p.val) = true :=
  ⟨(1 : Fin 4), (withPan (fun x => { x with drive := some (0#32, 5) }) w1), by decide +kernel⟩

theorem witness_frameBoundaryGeometry : ∃ (p : Fin 4) (w : Word) (s : State),
    s.lcd.powered = true ∧ (s.pan p.val).next = some w ∧ fld w 27 26 = p.val ∧ midFrame (s.pan p.val) = false ∧ (s.pan p.val).cfg.isSome = true ∧ pSegs (s.pan p.val) ≠ fld w 20 13 :=
  ⟨(1 : Fin 4), (0x166CA001#32), ((fun s : State => { s with lcd := { s.lcd with gen := true } }) (withPan (fun x => { x with ram := [(0, 3)], next := some 0x166CA001#32 }) w1)), by decide +kernel⟩

theorem witness_lcdQuery : ∃ (w : BitVec 28) (s : State),
    s.lcd.powered = true ∧ fld (w.setWidth 32) 23 0 = 0 ∧ fld (w.setWidth 32) 25 24 = 1 :=
  ⟨(0x5000000#28), ((withPan (fun x => x) w1).setReg (Reg.lcdPCnt 1) 0x010203#32), by decide +kernel⟩

theorem witness_lcdForce : ∃ (w : BitVec 28) (s : State),
    s.lcd.powered = true ∧ w.toNat / 2 = 0 :=
  ⟨(1#28), (withPan (fun x => x) w1), by decide +kernel⟩

theorem witness_slotBoundary : ∃ (p : Fin 4) (s : State),
    s.lcd.powered = true :=
  ⟨(1 : Fin 4), ({ (withPan (fun x => { x with drive := some (0#32, 5) }) w1) with lcd := { (withPan (fun x => x) w1).lcd with force := true } }), by decide +kernel⟩

theorem witness_panelWord : ∃ (w : BitVec 28) (s : State),
    s.lcd.powered = true ∧ fld (w.setWidth 32) 12 10 = 0 ∧ (s.pan (fld (w.setWidth 32) 27 26)).cfg.isSome = true :=
  ⟨(0x66C8003#28), (withPan (fun x => x) w1), by decide +kernel⟩

theorem witness_panelWordFirst : ∃ (w : BitVec 28) (s : State),
    s.lcd.powered = true ∧ fld (w.setWidth 32) 12 10 = 0 ∧ (s.pan (fld (w.setWidth 32) 27 26)).cfg = none :=
  ⟨(0x66CA001#28), (withPan (fun x => panel0) w1), by decide +kernel⟩

theorem witness_fsegWord : ∃ (w : BitVec 28) (s : State),
    s.lcd.powered = true ∧ fld (w.setWidth 32) 25 11 = 0 :=
  ⟨(0x4000105#28), (withPan (fun x => x) w1), by decide +kernel⟩

theorem witness_ntcWord : ∃ (w : BitVec 28) (s : State),
    s.lcd.powered = true ∧ bit (w.setWidth 32) 13 = false :=
  ⟨(0x4000001#28), (withPan (fun x => x) w1), by decide +kernel⟩

theorem witness_bandWord : ∃ (w : BitVec 28) (s : State),
    s.lcd.powered = true ∧ fld (w.setWidth 32) 11 8 = 0 :=
  ⟨(0x48010F0#28), (withPan (fun x => x) w1), by decide +kernel⟩

theorem witness_ntcReading : ∃ (p : Fin 4) (ohms : BitVec 32) (s : State),
    s.lcd.powered = true ∧ 100 ≤ ohms.toNat ∧ ohms.toNat ≤ 2000000 :=
  ⟨(1 : Fin 4), (2000000#32), (withPan (fun x => x) w1), by decide +kernel⟩

theorem witness_ntcReadingOut : ∃ (p : Fin 4) (ohms : BitVec 32) (s : State),
    s.lcd.powered = true ∧ (ohms.toNat < 100 ∨ 2000000 < ohms.toNat) :=
  ⟨(1 : Fin 4), (99#32), (withPan (fun x => x) w1), by decide +kernel⟩

theorem witness_temperatureUpdate : ∃ (p : Fin 4) (s : State),
    s.lcd.powered = true ∧ (s.pan p.val).ntc.isSome = true ∧ pNtcEn (s.pan p.val) = false ∧ pCfgd (s.pan p.val) = true ∧ (s.pan p.val).chosen = false :=
  ⟨(1 : Fin 4), (withPan (fun x => x) w1), by decide +kernel⟩

theorem witness_temperatureUpdateMean : ∃ (p : Fin 4) (s : State),
    s.lcd.powered = true ∧ (s.pan p.val).ntc.isSome = true ∧ pNtcEn (s.pan p.val) = true ∧ (s.pan p.val).ntcFault = false ∧ (s.pan p.val).reads ≠ [] :=
  ⟨(1 : Fin 4), (withPan (fun x => { x with ntc := some 0x54400F00#32, reads := [10000] }) w1), by decide +kernel⟩

theorem witness_ntcFault : ∃ (p : Fin 4) (s : State),
    s.lcd.powered = true ∧ (s.pan p.val).ntcFault = false :=
  ⟨(1 : Fin 4), (withPan (fun x => x) w1), by decide +kernel⟩

theorem witness_vlcdFault : ∃ (p : Fin 4) (s : State),
    s.lcd.powered = true ∧ (s.pan p.val).on = true :=
  ⟨(1 : Fin 4), (withPan (fun x => { x with on := true }) w1), by decide +kernel⟩

theorem witness_vlcdRestart : ∃ (p : Fin 4) (ok : Bool) (s : State),
    s.lcd.powered = true ∧ (s.pan p.val).vFault = true :=
  ⟨(1 : Fin 4), true, (withPan (fun x => { x with vFault := true }) w1), by decide +kernel⟩

theorem witness_idleIntervalEnd : ∃ (p : Fin 4) (s : State),
    s.lcd.powered = true :=
  ⟨(1 : Fin 4), (withPan (fun x => { x with idle := true }) w1), by decide +kernel⟩

theorem witness_rtcTick : ∃ (s : State),
    s.rtc.due = [] :=
  ⟨(withRtc (fun x => { x with count := 6, alarms := [(1, { alm0 with armed := true, value := 7 })] }) w1), by decide +kernel⟩

theorem witness_rtcTickSet : ∃ (v : Int) (r : List (Bool × Int)) (s : State),
    s.rtc.due = (true, v) :: r :=
  ⟨((-1 : Int)), ([(false, 2)]), (withRtc (fun x => { x with due := [(true, -1), (false, 2)] }) w1), by decide +kernel⟩

theorem witness_rtcTickStep : ∃ (d : Int) (r : List (Bool × Int)) (s : State),
    s.rtc.due = (false, d) :: r :=
  ⟨((-2 : Int)), ([]), (withRtc (fun x => { x with count := 9, due := [(false, -2)] }) w1), by decide +kernel⟩

theorem witness_bcmdSet : ∃ (w : BitVec 28) (s : State),
    (w.setWidth 32) &&& w32 0xFFFFFFF = 0#32 :=
  ⟨(0#28), (withRtc (fun x => { x with a0 := 5#32, a1 := 0xFFFF0007#32 }) w1), by decide +kernel⟩

theorem witness_bcmdStep : ∃ (w : BitVec 28) (s : State),
    (w.setWidth 32) &&& w32 0xFFFFFFF = 0#32 :=
  ⟨(0#28), (withRtc (fun x => { x with a0 := 5#32, a1 := 0xFFFF0007#32 }) w1), by decide +kernel⟩

theorem witness_bcmdSlew : ∃ (w : BitVec 28) (s : State),
    (w.setWidth 32) &&& w32 0xFFE0000 = 0#32 ∧ fld s.rtc.a1 23 0 ≠ 0 :=
  ⟨(0x10050#28), (withRtc (fun x => { x with a0 := 5#32, a1 := 0xFFFF0007#32 }) w1), by decide +kernel⟩

theorem witness_bcmdSlewStop : ∃ (w : BitVec 28) (s : State),
    (w.setWidth 32) &&& w32 0xFFFFFFF = 0#32 :=
  ⟨(0#28), (withRtc (fun x => { x with a0 := 5#32, a1 := 0xFFFF0007#32 }) w1), by decide +kernel⟩

theorem witness_bcmdTrim : ∃ (w : BitVec 28) (s : State),
    (w.setWidth 32) &&& w32 0xFFC0000 = 0#32 :=
  ⟨(0x30005#28), (withRtc (fun x => { x with a0 := 5#32, a1 := 0xFFFF0007#32 }) w1), by decide +kernel⟩

theorem witness_bcmdAlmper : ∃ (w : BitVec 28) (s : State),
    (w.setWidth 32) &&& w32 0xFFFFFF8 = 0#32 :=
  ⟨(3#28), (withRtc (fun x => { x with a0 := 5#32, a1 := 0xFFFF0007#32 }) w1), by decide +kernel⟩

theorem witness_bcmdAlarm : ∃ (w : BitVec 28) (s : State),
    (w.setWidth 32) &&& w32 0xFFFFFE0 = 0#32 :=
  ⟨(0x1B#28), (withRtc (fun x => { x with a0 := 5#32, a1 := 0xFFFF0007#32 }) w1), by decide +kernel⟩

theorem witness_bcmdAck : ∃ (w : BitVec 28) (s : State),
    (w.setWidth 32) &&& w32 0xFFF0000 = 0#32 :=
  ⟨(0x201#28), (withRtc (fun x => { x with alarms := [(0, { alm0 with fired := true, missed := 3 }), (1, { alm0 with fired := true, stepped := true })] }) w1), by decide +kernel⟩

theorem witness_bcmdByte : ∃ (w : BitVec 28) (s : State),
    (w.setWidth 32) &&& w32 0xFFF00C0 = 0#32 :=
  ⟨(0xA505#28), (withRtc (fun x => { x with a0 := 5#32, a1 := 0xFFFF0007#32 }) w1), by decide +kernel⟩

theorem witness_bcmdRead : ∃ (w : BitVec 28) (s : State),
    (w.setWidth 32) &&& w32 0xFFFFFC0 = 0#32 :=
  ⟨(63#28), (withRtc (fun x => { x with a0 := 5#32, a1 := 0xFFFF0007#32 }) w1), by decide +kernel⟩

theorem witness_bcmdChg : ∃ (w : BitVec 28) (s : State),
    (w.setWidth 32) &&& w32 0xFFFFFE0 = 0#32 :=
  ⟨(3#28), (withRtc (fun x => { x with a0 := 5#32, a1 := 0xFFFF0007#32 }) w1), by decide +kernel⟩

theorem witness_bcmdIgnored : ∃ (w : BitVec 28) (s : State),
    (w.setWidth 32) &&& w32 0xFFE0000 ≠ 0#32 :=
  ⟨(0x20000#28), (withRtc (fun x => { x with a0 := 5#32, a1 := 0xFFFF0007#32 }) w1), by decide +kernel⟩

theorem witness_clockDiscipline : ∃ (s : State),
    s.eng.released = true ∧ tickRoot s = false ∧ s.rb Reg.rtcDisc 0 = true ∧ s.rb Reg.fabTimeStat 0 = true ∧ s.rtc.latch = true :=
  ⟨({ ((w1.setReg Reg.rtcDisc 1#32).setReg Reg.fabTimeStat 1#32) with fabTime := 5000000 }), by decide +kernel⟩

theorem witness_clockDisciplineOff : ∃ (s : State),
    s.eng.released = true ∧ tickRoot s = false ∧ s.rb Reg.rtcDisc 0 = false :=
  ⟨(w1), by decide +kernel⟩

theorem witness_alarmReport : ∃ (n : Nat) (s : State),
    n < 8 ∧ s.eng.released = true ∧ (s.alm n).fired = true :=
  ⟨1, (withRtc (fun x => { x with alarms := [(1, { alm0 with fired := true, missed := 3 })] }) w1), by decide +kernel⟩

theorem witness_islandShake : ∃ (busy : Bool) (tag : BitVec 8) (n : BitVec 16) (msg : List Byte) (s : State),
    busy = false ∧ s.sec.job = none ∧ (n.toNat = 32 ∨ n.toNat = 64) ∧ s.boot.prog = false :=
  ⟨(false), 1#8, (64#16), [1#8, 2#8], (w1), by decide +kernel⟩

theorem witness_islandShakeSize : ∃ (busy : Bool) (tag : BitVec 8) (n : BitVec 16) (msg : List Byte) (s : State),
    busy = false ∧ s.sec.job = none ∧ n.toNat ≠ 32 ∧ n.toNat ≠ 64 ∧ s.boot.prog = false :=
  ⟨(false), 1#8, (33#16), [1#8, 2#8], (w1), by decide +kernel⟩

theorem witness_islandVerify : ∃ (busy : Bool) (tag : BitVec 8) (k : BitVec 16) (msg : List Byte) (sig : List Byte) (key : List Byte) (s : State),
    busy = false ∧ s.sec.job = none ∧ k.toNat ≤ 5 ∧ 1 ≤ sig.length ∧ sig.length ≤ 1534 ∧ verifyKey s k.toNat = some key ∧ s.boot.prog = false :=
  ⟨(false), 1#8, (1#16), [1#8, 2#8], (List.replicate 1534 1#8), (factoryRoot), (w1), by decide +kernel, by decide +kernel, by decide +kernel, by decide +kernel, by decide +kernel, rfl, by decide +kernel⟩

theorem witness_islandVerifyForm : ∃ (busy : Bool) (tag : BitVec 8) (k : BitVec 16) (msg : List Byte) (sig : List Byte) (s : State),
    busy = false ∧ s.sec.job = none ∧ (5 < k.toNat ∨ sig.length = 0 ∨ 1534 < sig.length) ∧ s.boot.prog = false :=
  ⟨(false), 1#8, (1#16), [1#8, 2#8], ([]), (w1), by decide +kernel⟩

theorem witness_islandVerifyNoKey : ∃ (busy : Bool) (tag : BitVec 8) (k : BitVec 16) (msg : List Byte) (sig : List Byte) (s : State),
    busy = false ∧ s.sec.job = none ∧ k.toNat ≤ 5 ∧ 1 ≤ sig.length ∧ sig.length ≤ 1534 ∧ verifyKey s k.toNat = none ∧ s.boot.prog = false :=
  ⟨(false), 1#8, (3#16), [1#8, 2#8], ([1#8]), (w1), by decide +kernel⟩

theorem witness_scmdArrival : ∃ (port : BitVec 11) (w : Word) (s : State),
    (Instr.crossingWordArrival port w).wf = true ∧ port = 1440#11 ∧ (s.port 1440).transit = true ∧ s.sec.job = none :=
  ⟨(1440#11), 7#32, (w1.setPort 1440 ⟨0#32, false, 0x01050020#32, true⟩), by decide +kernel⟩

theorem witness_sparamArrival : ∃ (port : BitVec 11) (w : Word) (s : State),
    (Instr.crossingWordArrival port w).wf = true ∧ port = 1441#11 ∧ (s.port 1441).transit = true :=
  ⟨(1441#11), 7#32, (w1.setPort 1441 ⟨0#32, false, 9#32, true⟩), by decide +kernel⟩

theorem witness_signgen : ∃ (busy : Bool) (tag : BitVec 8) (h : List Byte) (s : State),
    busy = false ∧ s.sec.job = none ∧ s.sec.retired = false ∧ h.length = 1536 ∧ h.take 4 = asciiBytes "KVCG" ∧ gSigner h = 1 ∧ s.image.loaded = true ∧ gFor h = s.image.seq ∧ s.boot.prog = false :=
  ⟨(false), 1#8, (genHdr), ({ w1 with image := { w1.image with loaded := true, seq := 5 } }), by decide +kernel⟩

theorem witness_signgenOther : ∃ (busy : Bool) (tag : BitVec 8) (h : List Byte) (s : State),
    busy = false ∧ s.sec.job = none ∧ s.sec.retired = false ∧ (gSigner h ≠ 1 ∨ gFor h ≠ s.image.seq ∨ h.take 4 ≠ asciiBytes "KVCG" ∨ h.length ≠ 1536 ∨ s.image.loaded = false) ∧ s.boot.prog = false :=
  ⟨(false), 1#8, [1#8, 2#8], (w1), by decide +kernel⟩

theorem witness_pubkey : ∃ (busy : Bool) (tag : BitVec 8) (k : BitVec 16) (key : List Byte) (s : State),
    busy = false ∧ s.sec.job = none ∧ pubKey s k.toNat = some key ∧ s.boot.prog = false :=
  ⟨(false), 1#8, (1#16), (mlkemPub), (w1), by decide +kernel, by decide +kernel, rfl, by decide +kernel⟩

theorem witness_pubkeyNone : ∃ (busy : Bool) (tag : BitVec 8) (k : BitVec 16) (s : State),
    busy = false ∧ s.sec.job = none ∧ pubKey s k.toNat = none ∧ s.boot.prog = false :=
  ⟨(false), 1#8, (3#16), (w1), by decide +kernel⟩

theorem witness_islandAttest : ∃ (busy : Bool) (tag : BitVec 8) (ws : List Word) (s : State),
    (Instr.islandAttest busy tag ws).wf = true ∧ busy = false ∧ s.sec.job = none ∧ s.sec.retired = false ∧ s.boot.prog = false :=
  ⟨(false), 1#8, (List.replicate 13 5#32), (w1), by decide +kernel⟩

theorem witness_islandAttestRetired : ∃ (busy : Bool) (tag : BitVec 8) (ws : List Word) (s : State),
    (Instr.islandAttest busy tag ws).wf = true ∧ busy = false ∧ s.sec.job = none ∧ s.sec.retired = true ∧ s.boot.prog = false :=
  ⟨(false), 1#8, (List.replicate 13 5#32), (withSec (fun x => { x with retired := true }) w1), by decide +kernel⟩

theorem witness_islandChallengeRetired : ∃ (busy : Bool) (tag : BitVec 8) (ws : List Word) (s : State),
    (Instr.islandChallenge busy tag ws).wf = true ∧ busy = false ∧ s.sec.job = none ∧ s.sec.retired = true ∧ s.boot.prog = false :=
  ⟨(false), 1#8, (List.replicate 8 5#32), (withSec (fun x => { x with retired := true }) w1), by decide +kernel⟩

theorem witness_islandChallenge : ∃ (busy : Bool) (tag : BitVec 8) (ws : List Word) (e : Nat) (k : List Byte) (s : State),
    (Instr.islandChallenge busy tag ws).wf = true ∧ busy = false ∧ s.sec.job = none ∧ s.sec.retired = false ∧ s.sec.kOwner = some (e, k) ∧ s.boot.prog = false :=
  ⟨(false), 1#8, (List.replicate 8 5#32), (3), ([1#8]), (withSec (fun x => { x with kOwner := some (3, [1#8]) }) w1), by decide +kernel⟩

theorem witness_islandShakeBusy : ∃ (busy : Bool) (tag : BitVec 8) (n : BitVec 16) (msg : List Byte) (s : State),
    (busy = true ∨ s.sec.job.isSome = true) ∧ s.boot.prog = false :=
  ⟨true, 1#8, 1#16, [1#8, 2#8], (w1), by decide +kernel⟩

theorem witness_islandVerifyBusy : ∃ (busy : Bool) (tag : BitVec 8) (k : BitVec 16) (msg : List Byte) (sig : List Byte) (s : State),
    (busy = true ∨ s.sec.job.isSome = true) ∧ s.boot.prog = false :=
  ⟨true, 1#8, 1#16, [1#8, 2#8], [1#8, 2#8], (w1), by decide +kernel⟩

theorem witness_signgenBusy : ∃ (busy : Bool) (tag : BitVec 8) (h : List Byte) (s : State),
    (busy = true ∨ s.sec.job.isSome = true) ∧ s.boot.prog = false :=
  ⟨true, 1#8, [1#8, 2#8], (w1), by decide +kernel⟩

theorem witness_islandMessageBusy : ∃ (busy : Bool) (tag : BitVec 8) (m : List Byte) (s : State),
    (busy = true ∨ s.sec.job.isSome = true) ∧ s.boot.prog = false :=
  ⟨true, 1#8, [1#8, 2#8], (w1), by decide +kernel⟩

theorem witness_recordDoneBusy : ∃ (busy : Bool) (tag : BitVec 8) (copy : Fin 2) (failed : Bool) (s : State),
    (busy = true ∨ s.sec.job.isSome = true) ∧ s.boot.prog = false :=
  ⟨true, 1#8, (1 : Fin 2), true, (w1), by decide +kernel⟩

theorem witness_loadrecBusy : ∃ (busy : Bool) (tag : BitVec 8) (blown : Bool) (s : State),
    (busy = true ∨ s.sec.job.isSome = true) ∧ s.boot.prog = false :=
  ⟨true, 1#8, true, (w1), by decide +kernel⟩

theorem witness_pubkeyBusy : ∃ (busy : Bool) (tag : BitVec 8) (k : BitVec 16) (s : State),
    (busy = true ∨ s.sec.job.isSome = true) ∧ s.boot.prog = false :=
  ⟨true, 1#8, 1#16, (w1), by decide +kernel⟩

theorem witness_islandAttestBusy : ∃ (busy : Bool) (tag : BitVec 8) (ws : List Word) (s : State),
    (Instr.islandAttest busy tag ws).wf = true ∧ (busy = true ∨ s.sec.job.isSome = true) ∧ s.boot.prog = false :=
  ⟨true, 1#8, (List.replicate 13 5#32), (w1), by decide +kernel⟩

theorem witness_islandChallengeBusy : ∃ (busy : Bool) (tag : BitVec 8) (ws : List Word) (s : State),
    (Instr.islandChallenge busy tag ws).wf = true ∧ (busy = true ∨ s.sec.job.isSome = true) ∧ s.boot.prog = false :=
  ⟨true, 1#8, (List.replicate 8 5#32), (w1), by decide +kernel⟩

theorem witness_updateRecBusy : ∃ (busy : Bool) (tag : BitVec 8) (ws : List Word) (s : State),
    (Instr.updateRec busy tag ws).wf = true ∧ (busy = true ∨ s.sec.job.isSome = true) ∧ s.boot.prog = false :=
  ⟨true, 1#8, (List.replicate 6 1#32), (w1), by decide +kernel⟩

theorem witness_scmdBusy : ∃ (port : BitVec 11) (w : Word) (s : State),
    (Instr.crossingWordArrival port w).wf = true ∧ port = 1440#11 ∧ (s.port 1440).transit = true ∧ s.sec.job.isSome = true :=
  ⟨(1440#11), 7#32, (withSec (fun x => { x with job := some ⟨1, 2, 32, 4, []⟩ }) (w1.setPort 1440 ⟨0#32, false, 0x01050020#32, true⟩)), by decide +kernel⟩

theorem witness_islandMessage : ∃ (busy : Bool) (tag : BitVec 8) (m : List Byte) (s : State),
    busy = false ∧ s.sec.job = none ∧ s.boot.prog = false :=
  ⟨(false), 1#8, [1#8, 2#8], (w1), by decide +kernel⟩

theorem witness_recordDone : ∃ (busy : Bool) (tag : BitVec 8) (copy : Fin 2) (failed : Bool) (p : SecPend) (s : State),
    busy = false ∧ s.sec.job = none ∧ s.sec.pend = some p ∧ failed = false ∧ s.boot.prog = false :=
  ⟨(false), 1#8, (1 : Fin 2), (false), (⟨3, { SecRec.empty with counter := 7 }, none⟩ : SecPend), (withSec (fun x => { x with pend := some ⟨3, { SecRec.empty with counter := 7 }, none⟩ }) w1), by decide +kernel⟩

theorem witness_recordDoneFailed : ∃ (busy : Bool) (tag : BitVec 8) (copy : Fin 2) (failed : Bool) (p : SecPend) (s : State),
    busy = false ∧ s.sec.job = none ∧ s.sec.pend = some p ∧ failed = true ∧ s.boot.prog = false :=
  ⟨(false), 1#8, (1 : Fin 2), true, (⟨3, { SecRec.empty with counter := 7 }, none⟩ : SecPend), (withSec (fun x => { x with pend := some ⟨3, { SecRec.empty with counter := 7 }, none⟩ }) w1), by decide +kernel⟩

theorem witness_recordDoneNone : ∃ (busy : Bool) (tag : BitVec 8) (copy : Fin 2) (failed : Bool) (s : State),
    busy = false ∧ s.sec.job = none ∧ s.sec.pend = none ∧ s.boot.prog = false :=
  ⟨(false), 1#8, (1 : Fin 2), true, (w1), by decide +kernel⟩

theorem witness_loadrec : ∃ (busy : Bool) (tag : BitVec 8) (blown : Bool) (s : State),
    busy = false ∧ s.sec.job = none ∧ s.sec.retired = false ∧ s.boot.prog = false :=
  ⟨(false), 1#8, true, (w1), by decide +kernel⟩

theorem witness_loadrecRetired : ∃ (busy : Bool) (tag : BitVec 8) (blown : Bool) (s : State),
    busy = false ∧ s.sec.job = none ∧ s.sec.retired = true ∧ s.boot.prog = false :=
  ⟨(false), 1#8, true, (withSec (fun x => { x with retired := true }) w1), by decide +kernel⟩

theorem witness_updateRec : ∃ (busy : Bool) (tag : BitVec 8) (ws : List Word) (s : State),
    (Instr.updateRec busy tag ws).wf = true ∧ busy = false ∧ s.sec.job = none ∧ s.sec.retired = false ∧ s.sec.pend = none ∧ s.boot.prog = false :=
  ⟨(false), 1#8, (List.replicate 6 0x40#32), (w1), by decide +kernel⟩

theorem witness_updateRecPending : ∃ (busy : Bool) (tag : BitVec 8) (ws : List Word) (p : SecPend) (s : State),
    (Instr.updateRec busy tag ws).wf = true ∧ busy = false ∧ s.sec.job = none ∧ s.sec.retired = false ∧ s.sec.pend = some p ∧ s.boot.prog = false :=
  ⟨(false), 1#8, (List.replicate 6 0x40#32), (⟨3, { SecRec.empty with counter := 7 }, none⟩ : SecPend), (withSec (fun x => { x with pend := some ⟨3, { SecRec.empty with counter := 7 }, none⟩ }) w1), by decide +kernel⟩

theorem witness_epochGraceEnd : ∃ (s : State),
    s.boot.prog = false :=
  ⟨(withSec (fun x => { x with kPrev := some (3, [1#8]) }) w1), by decide +kernel⟩

theorem witness_trialMinuteRetired : ∃ (ok : Bool) (s : State),
    s.sec.retired = true :=
  ⟨true, (withSec (fun x => { x with retired := true }) w1), by decide +kernel⟩

theorem witness_triesResetRetired : ∃ (s : State),
    s.sec.retired = true :=
  ⟨(withSec (fun x => { x with retired := true }) w1), by decide +kernel⟩

theorem witness_trialMinute : ∃ (ok : Bool) (x : Nat) (s : State),
    trialSlot s.sec.srec = some x ∧ s.sec.retired = false ∧ s.rf Reg.sysStat 3 0 = 7 ∧ ok = true ∧ s.rf Reg.secUpdCfg 31 16 = 0 :=
  ⟨true, (1), ((withSec (fun x => { x with srec := { SecRec.empty with stB := 3, seqB := 9, tries := 2, trialMin := 59 } }) w1).setReg Reg.secUpdCfg 0#32), by decide +kernel⟩

theorem witness_trialMinuteConfirms : ∃ (ok : Bool) (x : Nat) (s : State),
    trialSlot s.sec.srec = some x ∧ s.sec.retired = false ∧ s.rf Reg.sysStat 3 0 = 7 ∧ ok = true ∧ s.rf Reg.secUpdCfg 31 16 ≠ 0 ∧ 60 * s.rf Reg.secUpdCfg 31 16 ≤ s.sec.srec.trialMin + 1 :=
  ⟨true, (1), ((withSec (fun x => { x with srec := { SecRec.empty with stB := 3, seqB := 9, tries := 2, trialMin := 59 } }) w1).setReg Reg.secUpdCfg 0x10000#32), by decide +kernel⟩

theorem witness_trialMinuteNone : ∃ (ok : Bool) (s : State),
    trialSlot s.sec.srec = none :=
  ⟨true, (w1), by decide +kernel⟩

theorem witness_triesReset : ∃ (s : State),
    s.sec.retired = false ∧ s.rf Reg.sysStat 3 0 = 7 ∧ s.sec.srec.tries ≠ 0 :=
  ⟨(withSec (fun x => { x with srec := { SecRec.empty with stB := 3, seqB := 9, tries := 2, trialMin := 59 } }) w1), by decide +kernel⟩

theorem witness_commission : ∃ (m : List Byte) (ok : Bool) (s : State),
    (Instr.commission m ok).wf = true ∧ s.boot.prog = false :=
  ⟨(List.replicate 6 0#8 ++ [1#8]), true, (w1), by decide +kernel⟩

theorem witness_ownerSecret : ∃ (m : List Byte) (ok : Bool) (s : State),
    (Instr.ownerSecret m ok).wf = true ∧ s.boot.prog = false :=
  ⟨(List.replicate 6 0#8 ++ [2#8]), true, (w1), by decide +kernel⟩

theorem witness_ownerRoot : ∃ (m : List Byte) (ok : Bool) (s : State),
    (Instr.ownerRoot m ok).wf = true ∧ s.boot.prog = false :=
  ⟨(List.replicate 6 0#8 ++ [3#8]), true, (w1), by decide +kernel⟩

theorem witness_msgReturn : ∃ (m : List Byte) (ok : Bool) (s : State),
    (Instr.msgReturn m ok).wf = true ∧ s.boot.prog = false :=
  ⟨(List.replicate 6 0#8 ++ [4#8]), true, (w1), by decide +kernel⟩

theorem witness_msgRetire : ∃ (m : List Byte) (ok : Bool) (s : State),
    (Instr.msgRetire m ok).wf = true ∧ s.boot.prog = false :=
  ⟨(List.replicate 6 0#8 ++ [5#8]), true, (w1), by decide +kernel⟩

theorem witness_msgConfirm : ∃ (m : List Byte) (ok : Bool) (s : State),
    (Instr.msgConfirm m ok).wf = true ∧ s.boot.prog = false :=
  ⟨(List.replicate 6 0#8 ++ [16#8]), true, (w1), by decide +kernel⟩

theorem witness_msgReject : ∃ (m : List Byte) (ok : Bool) (s : State),
    (Instr.msgReject m ok).wf = true ∧ s.boot.prog = false :=
  ⟨(List.replicate 6 0#8 ++ [17#8]), true, (w1), by decide +kernel⟩

theorem witness_privileged : ∃ (m : List Byte) (ok : Bool) (s : State),
    (Instr.privileged m ok).wf = true ∧ s.boot.prog = false :=
  ⟨(List.replicate 6 0#8 ++ [18#8]), true, (w1), by decide +kernel⟩

/-- A sound state: reset. -/
theorem witness_sound : ∃ s : State, s.sound := ⟨State.reset, ⟨rfl, rfl, rfl, rfl, rfl, rfl⟩, by decide, by decide⟩

/-- The hypotheses of StepKeepsSound and StepOnlyBlowsFuses: a sound state with a command waiting that answers a next state. -/
theorem witness_soundStep : ∃ s t : State, s.sound ∧ step s = .next t :=
  ⟨{ State.reset with pending := [.progHold] }, _, ⟨⟨rfl, rfl, rfl, rfl, rfl, rfl⟩, by decide, by decide⟩, rfl⟩

/-- The hypotheses of EveryCommandCompletes, both ways. -/
theorem witness_runs : ∃ (c : Instr) (s : State), c.wf = true ∧ (∀ i n, c = .loopOpen i n → s.eng.loops.length < 2) ∧
    (c = .loopIterationEnd → s.eng.loops ≠ []) := ⟨.progHold, w0, rfl, nofun, nofun⟩
theorem witness_runsNot : ∃ (c : Instr) (s : State), ¬ (c.wf = true ∧ (∀ i n, c = .loopOpen i n → s.eng.loops.length < 2) ∧
    (c = .loopIterationEnd → s.eng.loops ≠ [])) := ⟨.loopIterationEnd, w0, fun h => h.2.2 rfl rfl⟩

/-- The hypotheses of ExecKeepsQueue. -/
theorem witness_execNext : ∃ (c : Instr) (s t : State), exec c s = .next t := ⟨.progHold, w0, _, rfl⟩
theorem witness_stepNext : ∃ (c : Instr) (q : List Instr) (s t : State), step { s with pending := c :: q } = .next t :=
  ⟨.progHold, [.progRelease], w0, _, rfl⟩
theorem witness_idle : ∃ s : State, s.pending = [] := ⟨w0, rfl⟩

/-- The hypotheses of MemoryPutCanonical. -/
theorem witness_memory : ∃ (m n : List Host.Cell) (a x : Nat) (l : List Byte), memWf m = true ∧ memWf n = true ∧
    (x < a ∨ a + l.length ≤ x) ∧ (∀ y, memGet m y = memGet n y) :=
  ⟨[(3, 1#8)], [(3, 1#8)], 4, 3, [1#8, 2#8], by decide, by decide, by decide, fun _ => rfl⟩

/-- The hypotheses of GatedOff, one operation for each track: P1 reads 0 after reset. -/
theorem witness_gatedInt : ∃ (i : Issue) (d a b : Fin 64) (s : State), (Instr.add i d a b).wf = true ∧ (s.land i.cycle).gateP i = false :=
  ⟨⟨0, 0, 1, false⟩, 1, 2, 3, w1, by decide +kernel⟩
theorem witness_gatedPair : ∃ (i : Issue) (d a b : Fin 64) (s : State), (Instr.add64 i d a b).wf = true ∧ (s.land i.cycle).gateP i = false :=
  ⟨⟨0, 1, 0, true⟩, 2, 4, 6, w1, by decide +kernel⟩
theorem witness_gatedFp : ∃ (i : Issue) (d a b : Fin 64) (s : State), (Instr.fadd i d a b).wf = true ∧ (s.land i.cycle).gateP i = false :=
  ⟨⟨0, 2, 1, false⟩, 1, 2, 3, w1, by decide +kernel⟩
theorem witness_gatedMsw : ∃ (i : Issue) (a : Fin 64) (k : BitVec 16) (s : State), (Instr.msw i a k).wf = true ∧
    (s.land i.cycle).noop i.cycle = false ∧ (s.land i.cycle).gateP i = false := ⟨⟨0, 3, 1, false⟩, 1, 2, w1, by decide +kernel⟩

/-- The hypotheses of ResultTiming: no other result under way to the register, and the cycles where the clauses meet. -/
theorem witness_timing : ∃ (s : State) (i j : Issue) (l k d u : Nat), d ≠ 0 ∧ (∀ x ∈ s.eng.inflight, x.isPred = false → x.dst ≠ d) ∧
    (∀ x ∈ s.eng.inflight, x.isPred = true → x.dst ≠ d) ∧ i.cycle + l ≤ u ∧ j.cycle + k ≤ u ∧ i.cycle + l = j.cycle + k :=
  ⟨w1, ⟨0, 1, 0, false⟩, ⟨2, 0, 0, false⟩, 3, 1, 63, 3, by decide, by decide, by decide, by decide, by decide, by decide⟩
theorem witness_timingBefore : ∃ (i : Issue) (lat u : Nat), u < i.cycle + lat := ⟨⟨0, 1, 0, false⟩, 1, 0, by decide⟩

/-- The hypotheses of AccumulatorExact: 50.0 has a finite product. -/
theorem witness_accumulate : ∃ (c j m : Nat) (x : FRes), c < 8 ∧ j < 9 ∧ fIsFin (rMul (accX x m) (fv accK)).1 = true :=
  ⟨7, 8, 160, (0x42480000#32, 0), by decide +kernel⟩

/-- The hypotheses of the register frames, one command of each statement. -/
theorem witness_frameEngine : ∃ (q : Fin 64) (s t : State), exec (.queClrCnt q) s = .next t := ⟨3, w1, _, rfl⟩
theorem witness_frameEnergy : ∃ (s t : State), exec (.dip 0 0) s = .next t := ⟨w1, _, rfl⟩
theorem witness_frameField : ∃ (s t : State), exec (.meteringSample 0 0 []) s = .next t := ⟨w1, _, rfl⟩
theorem witness_frameFabric : ∃ (s t : State), exec .holdover s = .next t := ⟨w1, _, rfl⟩
theorem witness_frameBus : ∃ (s t : State), exec .triesReset s = .next t := ⟨w1, _, rfl⟩

/-- A run of 60 core cycles that stands at consist 0 of a code SRAM holding the consist `w`, in loops `l` with bodies `bs`. -/
def running (w : Nat) (l bs : List Nat) : State :=
  { w1 with code := memPut [] 0 (leBytes 16 w),
            eng := { w1.eng with run := some ⟨1, 0, 0, 60, none⟩, next := some (0, 5), loops := l, bodies := bs } }

/-- The hypotheses of EmptyQueueIdles on a run in progress: consists of NOPs with END, without, with LEND of a loop with and without
an iteration left, a LOOP that opens, and a run at its last core cycle. -/
theorem witness_runEnd : ∃ s : State, s.pending = [] ∧ s.eng.next = some (0, 5) ∧ s.eng.run = some ⟨1, 0, 0, 60, none⟩ ∧ s.noop 5 = false ∧
    cIsLoop (consistAt s.code 0) = false ∧ cEnd (consistAt s.code 0) = true := ⟨running (2 ^ 127) [] [], by decide +kernel⟩
theorem witness_runOn : ∃ s : State, s.pending = [] ∧ s.noop 5 = false ∧ cIsLoop (consistAt s.code 0) = false ∧
    cEnd (consistAt s.code 0) = false ∧ cLend (consistAt s.code 0) = false ∧ cWait (consistAt s.code 0) = 63 :=
  ⟨running (63 * 2 ^ 120) [] [], by decide +kernel⟩
theorem witness_runLend : ∃ s : State, s.noop 5 = false ∧ cEnd (consistAt s.code 0) = false ∧ cLend (consistAt s.code 0) = true ∧
    ((decodeConsist 5 0 (consistAt s.code 0)).foldl runOp s).eng.loops = [0] ∧
    ((decodeConsist 5 0 (consistAt s.code 0)).foldl runOp s).eng.bodies = [3] := ⟨running (2 ^ 126) [0] [3], by decide +kernel⟩
theorem witness_runLendAgain : ∃ s : State, s.noop 5 = false ∧ cEnd (consistAt s.code 0) = false ∧ cLend (consistAt s.code 0) = true ∧
    ((decodeConsist 5 0 (consistAt s.code 0)).foldl runOp s).eng.loops = [7] ∧
    ((decodeConsist 5 0 (consistAt s.code 0)).foldl runOp s).eng.bodies = [3] := ⟨running (2 ^ 126) [7] [3], by decide +kernel⟩
theorem witness_runLoop : ∃ s : State, s.noop 5 = false ∧ cIsLoop (consistAt s.code 0) = true ∧ cEnd (consistAt s.code 0) = false ∧
    cLend (consistAt s.code 0) = false ∧ s.eng.loops.length < ((decodeConsist 5 0 (consistAt s.code 0)).foldl runOp s).eng.loops.length :=
  ⟨running (0b00000_111111_000_0000000000000011) [] [], by decide +kernel⟩
theorem witness_runOver : ∃ (s : State) (r : Run), s.eng.next = some (0, 60) ∧ s.eng.run = some r ∧ r.start + r.length ≤ 60 :=
  ⟨{ running 0 [] [] with eng := { (running 0 [] []).eng with next := some (0, 60) } }, ⟨1, 0, 0, 60, none⟩, by decide +kernel⟩

/-- The hypotheses of StartsFromRomEntry's clause for PROG_N: a row that the hold of PROG_N keeps from acting. -/
theorem witness_held : ∃ (c : Instr) (s : State), heldRow c = true ∧ c.wf = true ∧ s.boot.prog = true :=
  ⟨.rtcSet .engine, withBoot (fun b => { b with prog := true }) w0, by decide, by decide, rfl⟩

end Sys2Proof.Machine
end

section
/-! PROOFS. What a read start of the host port and a W1C_CLEAR do (R5, R9), over the register frames of the log, the crossings and
backpressure and the levels of the queues: O12 and O13. -/

namespace Sys2Proof.Machine

/-! ## Registers outside a list (State.regsBut)

Each lemma adds one operation to a run of them: where the registers it writes are in the list, the frame goes on. -/

theorem regsBut_refl (l : List Nat) (s : State) : s.regsBut l s := fun _ _ => rfl

theorem regsBut_of_regs_eq {l : List Nat} {r s t : State} (e : t.regs = s.regs) (h : r.regsBut l s) : r.regsBut l t := by
  intro a ha
  rw [← h a ha]
  unfold State.reg
  rw [e]

theorem setReg_regsBut {l : List Nat} {r s : State} {a : Nat} (v : Word) (ha : a ∈ l) (h : r.regsBut l s) :
    r.regsBut l (s.setReg a v) := by
  intro b hb
  rw [reg_setReg, if_neg (ne_of_mem_of_not_mem ha hb).symm, h b hb]

/-- LOG_EVT is the one register that the severity of a record touches (R414). -/
theorem noteSev_regsBut {l : List Nat} {r s : State} (sev : Nat) (hl : Reg.logEvt ∈ l) (h : r.regsBut l s) :
    r.regsBut l (s.noteSev sev) := by
  unfold State.noteSev
  split
  · exact setReg_regsBut _ hl h
  · exact h

theorem putLogWs_regs (a : Nat) (ws : List Word) (s : State) : (s.putLogWs a ws).regs = s.regs :=
  (putLogWs_keeps a ws (sub_refl _) (Keeps.refl _ s)).regs rfl

theorem logBump_regs (s : State) : s.logBump.regs = s.regs := rfl

theorem append_regsBut {l : List Nat} {r s : State} (code blk sev : Nat) (d : List Word) (hl : Reg.logEvt ∈ l)
    (h : r.regsBut l s) : r.regsBut l (s.append code blk sev d) := by
  unfold State.append
  exact noteSev_regsBut sev hl (regsBut_of_regs_eq (logBump_regs _) (regsBut_of_regs_eq (putLogWs_regs _ _ s) h))

theorem logOnce_regsBut {l : List Nat} {r s : State} (code blk sev subject : Nat) (d : List Word) (hl : Reg.logEvt ∈ l)
    (h : r.regsBut l s) : r.regsBut l (s.logOnce code blk sev subject d) := by
  unfold State.logOnce
  split
  · exact h
  · exact regsBut_of_regs_eq (s := s.append code blk sev d) rfl (append_regsBut code blk sev d hl h)

theorem overrun_regsBut {l : List Nat} {r s : State} (p : Nat) (hl : Reg.logEvt ∈ l) (hx : Reg.tteXsum ∈ l) (h : r.regsBut l s) :
    r.regsBut l (s.overrun p) :=
  logOnce_regsBut _ _ _ _ _ hl (setReg_regsBut _ hx (regsBut_of_regs_eq rfl h))

theorem sendPort_regsBut {l : List Nat} {r s : State} (p : Nat) (w : Word) (hl : Reg.logEvt ∈ l) (hx : Reg.tteXsum ∈ l)
    (h : r.regsBut l s) : r.regsBut l (s.sendPort p w) := by
  refine regsBut_of_regs_eq rfl (s := if (s.port p).transit || (s.port p).valid then s.overrun p else s) ?_
  split
  · exact overrun_regsBut p hl hx h
  · exact h

theorem sendIn_regsBut {l : List Nat} {r s : State} (island k : Nat) (ws : List Word) (hl : Reg.logEvt ∈ l) (hx : Reg.tteXsum ∈ l)
    (h : r.regsBut l s) : r.regsBut l (sendIn island k ws s) := by
  induction ws generalizing s k with
  | nil => exact h
  | cons w ws ih => exact ih _ (sendPort_regsBut _ w hl hx h)

theorem mst_regs (s : State) (a : Nat) (v : Word) : (s.mst a v).regs = s.regs :=
  (mst_keeps a v (sub_refl _) (Keeps.refl _ s)).regs rfl

theorem republish_regs (s : State) (x : List Nat) : (s.republish x).regs = s.regs :=
  (republish_keeps x (sub_refl _) (Keeps.refl _ s)).regs rfl

theorem publish_regsBut {l : List Nat} {r s : State} (x : List (Nat × Word)) (hx : ∀ e ∈ x, e.1 ∈ l) (h : r.regsBut l s) :
    r.regsBut l (s.publish x) := by
  induction x generalizing s with
  | nil => exact h
  | cons e x ih =>
    refine ih (fun e' he => hx e' (List.mem_cons_of_mem _ he)) (regsBut_of_regs_eq (mst_regs _ _ _) ?_)
    exact setReg_regsBut _ (hx e List.mem_cons_self) h

/-! ## Backpressure of a T1S port (R314) -/

/-- The registers that the beginning or end of backpressure at T1S port `p` touches: its status and events, and those of the
record and of an overrun of its status word. -/
def bpRegs (p : Nat) : List Nat := [Reg.logEvt, Reg.tteXsum, Reg.macPEvt p, Reg.macPStat p]

/-- The status word goes out, clears the overflow mark, and its register is published (R308). -/
theorem busStatus_regsBut {r s : State} {p : Nat} (h : r.regsBut (bpRegs p) s) : r.regsBut (bpRegs p) (busStatus (12 + p) s) := by
  have hsrc : ¬ 12 + p < 12 := by omega
  unfold busStatus
  extract_lets w sent bus s1 can mac s2
  have h1 : r.regsBut (bpRegs p) s1 :=
    regsBut_of_regs_eq (s := sent) rfl (sendIn_regsBut 10 _ _ (by simp [bpRegs]) (by simp [bpRegs]) h)
  have h2 : r.regsBut (bpRegs p) s2 := by
    simp only [s2, if_neg hsrc]
    exact regsBut_of_regs_eq rfl h1
  refine regsBut_of_regs_eq (republish_regs _ _) (publish_regsBut _ ?_ h2)
  simp [bpRegs]

theorem busNote_regsBut {r s : State} {p : Nat} (h : r.regsBut (bpRegs p) s) : r.regsBut (bpRegs p) (busNote (12 + p) s) := by
  unfold busNote
  split
  · exact regsBut_of_regs_eq (republish_regs _ _) h
  · exact busStatus_regsBut h

theorem flowOn_regsBut {r s : State} {p : Nat} (kind lev : Nat) (h : r.regsBut (bpRegs p) s) :
    r.regsBut (bpRegs p) (flowOn p kind lev s) := by
  unfold flowOn
  split
  · exact h
  · refine logOnce_regsBut _ _ _ _ _ (by simp [bpRegs]) (setReg_regsBut _ ?_ (regsBut_of_regs_eq rfl h))
    simp [bpRegs, evtReg]

theorem backpressureSet_regsBut {r s : State} {p : Nat} (lev : Nat) (b : Bool) (h : r.regsBut (bpRegs p) s) :
    r.regsBut (bpRegs p) (backpressureSet p lev b s) := by
  refine busNote_regsBut ?_
  split
  · exact flowOn_regsBut 1 lev h
  · exact regsBut_of_regs_eq rfl h

/-- The module has twelve T1S ports. -/
theorem bpPort_lt {s : State} {q p : Nat} (h : bpPort s q = some p) : p < 12 := by
  simp only [bpPort, Option.ite_none_right_eq_some, Option.some.injEq] at h
  omega

/-- Backpressure touches no register of block QUE. -/
theorem reg_backpressureAt (s : State) (q lev : Nat) (b : Bool) {a : Nat} (ha : 0xF0000 ≤ a) :
    (backpressureAt s q lev b).reg a = s.reg a := by
  unfold backpressureAt
  split
  next p hp =>
    have hp12 := bpPort_lt hp
    refine backpressureSet_regsBut lev b (regsBut_refl _ s) a ?_
    simp only [bpRegs, Reg.logEvt, Reg.tteXsum, Reg.macPEvt, Reg.macPStat, List.mem_cons, List.not_mem_nil, or_false]
    omega
  next => rfl

/-! ## The fill level and the head of a queue (R28) -/

theorem queQLevel_ge (q : Nat) : 0xF0000 ≤ Reg.queQLevel q := by unfold Reg.queQLevel; omega

theorem qLevel_lt (s : State) (q : Nat) : qLevel s q < 2 ^ 15 := Nat.mod_lt _ (by decide)

/-- A state whose QUE_Qq_LEVEL is that of another has its fill level. -/
theorem qLevel_congr {s t : State} {q : Nat} (h : t.reg (Reg.queQLevel q) = s.reg (Reg.queQLevel q)) : qLevel t q = qLevel s q := by
  unfold qLevel State.rf
  rw [h]

theorem qLevel_orReg_stat (s : State) (q m : Nat) : qLevel (s.orReg (Reg.queQStat q) m) q = qLevel s q := by
  refine qLevel_congr ?_
  rw [reg_orReg, if_neg (by unfold Reg.queQLevel Reg.queQStat; omega)]

theorem qLevel_backpressureAt (s : State) (q lev : Nat) (b : Bool) : qLevel (backpressureAt s q lev b) q = qLevel s q :=
  qLevel_congr (reg_backpressureAt s q lev b (queQLevel_ge q))

theorem qLevel_setPeak (s : State) (q v : Nat) : qLevel (s.setRf (Reg.queQLevel q) 30 16 v) q = qLevel s q := by
  unfold qLevel State.rf
  rw [reg_setRf, if_pos rfl, fld_setFld_disjoint _ _ _ _ _ _ (by decide) (by decide) (by decide) (by decide) (by decide)]

theorem qLevel_setLevel (s : State) (q v : Nat) (h : v < 2 ^ 15) : qLevel (s.setRf (Reg.queQLevel q) 14 0 v) q = v := by
  unfold qLevel
  rw [rf_setRf_same _ _ _ _ _ (by decide) (by decide), Nat.mod_eq_of_lt h]

/-- The level moves to its new value, whichever edges of the watermarks it crosses. -/
theorem qLevel_qSetLevel (s : State) (q old new : Nat) (h : new < 2 ^ 15) : qLevel (qSetLevel s q old new) q = new := by
  unfold qSetLevel
  extract_lets s1 s2 s3
  have h1 : qLevel s1 q = new := qLevel_setLevel s q new h
  have h2 : qLevel s2 q = new := by
    simp only [s2]
    split
    · rw [qLevel_setPeak, h1]
    · exact h1
  have h3 : qLevel s3 q = new := by
    simp only [s3]
    split
    · rw [qLevel_backpressureAt, qLevel_orReg_stat, h2]
    · exact h2
  split
  · rw [qLevel_backpressureAt, qLevel_orReg_stat, h3]
  · exact h3

theorem qLevel_qDrop (s : State) (q : Nat) : qLevel (qDrop s q) q = qLevel s q - 1 :=
  qLevel_qSetLevel _ q _ _ (Nat.lt_of_le_of_lt (Nat.sub_le _ _) (qLevel_lt s q))

theorem qrd_qDrop (s : State) (q : Nat) (h : qSize s q ≠ 0) :
    sget 0 (qDrop s q).qrd q = (sget 0 s.qrd q + 1) % qSize s q := by
  unfold qDrop
  rw [(qSetLevel_keeps q _ _ (sub_refl _) (Keeps.refl _ _)).qrd rfl, sget_sset_same, if_neg h]

theorem qcell_qDrop (s : State) (q : Nat) : (qDrop s q).qcell = s.qcell :=
  (qDrop_keeps q (sub_refl _) (Keeps.refl _ s)).qcell rfl

/-! ## The data ports (R9, R434) -/

theorem accOf_queQData (q : Fin 64) : accOf (Reg.queQData q.val) = some .pop := by
  revert q
  decide +kernel

/-- A read in time of the low half of QUE_Qq_DATA is a read start on the data port of queue q. -/
theorem dataPortRead_inTime (q : Fin 64) (gap : Nat) (push : Option Word) (s : State) (h : tRc ≤ gap) :
    dataPortRead q.val gap push s = dataPortLow q.val push s := by
  have hlow : Reg.queQData q.val % 4 = 0 := by unfold Reg.queQData; omega
  have hq : (Reg.queQData q.val - 0xF1000) / 8 = q.val := by unfold Reg.queQData; omega
  unfold dataPortRead hostRead readLow
  rw [if_neg (Nat.not_lt.2 h), if_neg (Nat.not_lt.2 h), if_pos hlow, if_pos (accOf_queQData q), hq]

/-- The host, the consumer, reads the word in the head cell: the word leaves the cell and the queue. -/
theorem dataPortLow_head (q : Nat) (w : Word) (ws : List Word) (s : State) (hsize : qSize s q ≠ 0) (hcons : qCons s q = epHost)
    (hcell : sget [] s.qcell q = w :: ws) :
    dataPortLow q none s = (qDrop { s with qcell := sset [] s.qcell q ws } q).drive (half w 0) (some (Reg.queQData q + 2, half w 1))
      s.host.latch64 := by
  have hpop : cellPop q none s = (w, qDrop { s with qcell := sset [] s.qcell q ws } q) := by
    unfold cellPop
    rw [hcell]
    rfl
  unfold dataPortLow
  rw [if_neg hsize, if_pos hcons, hpop]


/-! ## A W1C bit that is cleared and set in one core cycle (R5) -/

theorem w1cClear_of_w1c {a : Nat} (h : accOf a = some .w1c) (m : Master) (w hw : Word) (s : State) :
    w1cClear m a w hw s = w1cSet a hw (busWrite m a w s) := if_pos h

theorem exec_w1cClear (m : Master) (addr : BitVec 20) (w hw : Word) (s : State) :
    exec (.w1cClear m addr w hw) s = .next (w1cClear m addr.toNat w hw s) := rfl

/-- Whatever the state before, every W1C bit that an event sets is set after it. -/
theorem rb_w1cSet {a n : Nat} {w : Word} (s : State) (ha : a ≠ Reg.ttePfStat) (hbit : (w1cBits a).getLsbD n = true)
    (hw : w.getLsbD n = true) : (w1cSet a w s).rb a n = true := by
  unfold w1cSet State.rb bit
  rw [if_neg ha, reg_setReg, if_pos rfl, BitVec.getLsbD_or, BitVec.getLsbD_and, hw, hbit, Bool.and_self, Bool.or_true]

theorem bit_setBit_same (w : Word) (i : Nat) (h : i < 32) : bit (setBit w i true) i = true := bit_setFld_same w i true h

theorem bit_pfOf_pfSet (p : Nat) (s : State) : bit ((pfSet p s).pfOf p) 0 = true := by
  unfold pfSet
  split
  next h => exact h
  next =>
    unfold State.pfOf
    rw [sget_sset_same]
    exact bit_setBit_same _ 0 (by decide)

theorem pfSelected_pfSet (p : Nat) (s : State) : pfSelected (pfSet p s) = pfSelected s := by
  unfold pfSet
  split <;> rfl

theorem regNow_ttePfStat (s : State) : s.regNow Reg.ttePfStat = s.pfOf (pfSelected s) := rfl

/-- TTE_PF_STAT shows PATH_FAULT of the selected path after an event has set it. -/
theorem pfStat_w1cSet {w : Word} (s : State) (hw : bit w 0 = true) :
    bit ((w1cSet Reg.ttePfStat w s).regNow Reg.ttePfStat) 0 = true := by
  unfold w1cSet
  rw [if_pos rfl, if_pos hw, regNow_ttePfStat, pfSelected_pfSet]
  exact bit_pfOf_pfSet _ s

theorem accOf_ttePfStat : accOf Reg.ttePfStat = some .w1c := by decide +kernel

/-- What a W1C_CLEAR may touch. -/
def w1cParts : List Part :=
  [.regs, .shadows, .mirror, .logm, .quem, .ecc, .eng, .ports, .xcnt, .logNext, .logCompl, .logCount, .logged, .hamper, .pair, .boot,
    .mtr, .ctl, .sec, .fab, .bus, .rtc, .freeCtr]

theorem w1cClear_sameBut (m : Master) (a : Nat) (w hw : Word) (s : State) : s.sameBut w1cParts (w1cClear m a w hw s) :=
  (w1cClear_keeps m a w hw (sub_refl _) (Keeps.refl _ s)).sameBut _ (by intro p; cases p <;> decide)

/-- Settles O12: the event's set is applied to what the master's write leaves, so its bit stands whatever the write did. -/
theorem w1cSetWins : Obligations.W1cSetWins := by
  refine ⟨fun m addr w hw n s _ hacc hpf hbit _ hset _ => ⟨_, exec_w1cClear m addr w hw s, w1cClear_sameBut .., ?_⟩,
    fun m addr w hw s haddr _ hset _ => ⟨_, exec_w1cClear m addr w hw s, w1cClear_sameBut .., ?_⟩⟩
  · rw [w1cClear_of_w1c hacc]
    exact rb_w1cSet _ hpf hbit hset
  · rw [haddr, w1cClear_of_w1c accOf_ttePfStat]
    exact pfStat_w1cSet _ hset

/-! ## Data ports read by halves (R9) -/

theorem exec_hostDataPortRead (q : Fin 64) (gap : Nat) (push : Option Word) (s : State) :
    exec (.hostDataPortRead q gap push) s = .next (dataPortRead q.val gap push s) := rfl

theorem exec_hostReadHighHalf {addr : BitVec 20} {gap : Nat} (h : (Instr.hostReadHighHalf addr gap).wf = true) (s : State) :
    exec (.hostReadHighHalf addr gap) s = .next (hostRead addr.toNat gap none s) := if_pos h

/-- What a read start of the host port may touch. -/
def hostReadParts : List Part :=
  [.regs, .mirror, .logm, .quem, .ecc, .qrd, .qcell, .ports, .xcnt, .host, .logNext, .logCompl, .logCount, .logged, .bus]

theorem dataPortRead_sameBut (q gap : Nat) (push : Option Word) (s : State) : s.sameBut hostReadParts (dataPortRead q gap push s) :=
  (dataPortRead_keeps q gap push (sub_refl _) (Keeps.refl _ s)).sameBut _ (by intro p; cases p <;> decide)

theorem hostRead_sameBut (a gap : Nat) (push : Option Word) (s : State) : s.sameBut hostReadParts (hostRead a gap push s) :=
  (hostRead_keeps a gap push (sub_refl _) (Keeps.refl _ s)).sameBut _ (by intro p; cases p <;> decide)

/-- Two states whose queues hold the same words: memory, heads, head cells and fill levels. -/
structure SameQueues (s t : State) : Prop where
  qcell : t.qcell = s.qcell
  qrd : t.qrd = s.qrd
  quem : t.quem = s.quem
  level : ∀ q, qLevel t q = qLevel s q

theorem SameQueues.trans {s t u : State} (h : SameQueues s t) (k : SameQueues t u) : SameQueues s u :=
  ⟨k.qcell.trans h.qcell, k.qrd.trans h.qrd, k.quem.trans h.quem, fun q => (k.level q).trans (h.level q)⟩

theorem sameQueues_drive (s : State) (v : BitVec 16) (latch : Option (Nat × BitVec 16)) (latch64 : Option (Nat × List (BitVec 16))) :
    SameQueues s (s.drive v latch latch64) := ⟨rfl, rfl, rfl, fun _ => rfl⟩

theorem sameQueues_dataPortHigh (q : Nat) (s : State) : SameQueues s (dataPortHigh q s) := sameQueues_drive ..

/-- A high-half read in time of a data port drives HD alone, from a latch or from the head cell. -/
theorem sameQueues_readHigh {a : Nat} (h : accOf (a - 2) = some .pop) (s : State) : SameQueues s (readHigh a s) := by
  unfold readHigh
  simp only [if_pos h]
  split
  · exact sameQueues_drive ..
  · split
    · split
      · exact sameQueues_drive ..
      · exact sameQueues_dataPortHigh ..
    · exact sameQueues_dataPortHigh ..

theorem sameQueues_follow {s t : State} (a : Nat) (h : SameQueues s t) : SameQueues s (t.follow a) := by
  unfold State.follow
  split <;> exact ⟨h.qcell, h.qrd, h.quem, h.level⟩

/-- A timing violation is counted in LOG_HPV1, which is no queue's register. -/
theorem sameQueues_hostTiming (s : State) : SameQueues s (hostTiming s) := by
  refine ⟨rfl, rfl, rfl, fun q => qLevel_congr ?_⟩
  unfold hostTiming State.satRf
  rw [reg_setReg, if_neg (by unfold Reg.queQLevel Reg.logHpv1; omega)]

theorem sameQueues_readEarly {a : Nat} (h : accOf (a / 4 * 4) = some .pop) (s : State) : SameQueues s (readEarly a s) := by
  have hread : hostRead32 (a / 4 * 4) s = (0#32, s) := if_pos h
  unfold readEarly
  rw [hread]
  exact sameQueues_follow a ((sameQueues_hostTiming s).trans (sameQueues_drive ..))

/-- A read start on the high half of a data port removes no word, be it early or in time. -/
theorem sameQueues_hostRead_high {a : Nat} (hhigh : a % 4 = 2) (h : accOf (a - 2) = some .pop) (gap : Nat) (push : Option Word)
    (s : State) : SameQueues s (hostRead a gap push s) := by
  have hbase : a / 4 * 4 = a - 2 := by omega
  unfold hostRead
  split
  · exact sameQueues_readEarly (hbase ▸ h) s
  · rw [if_neg (by omega)]
    exact sameQueues_readHigh h s

theorem hostReadHighHalf_wf_iff (addr : BitVec 20) (gap : Nat) :
    (Instr.hostReadHighHalf addr gap).wf = true ↔ addr.toNat % 4 = 2 := decide_eq_true_iff

/-- Settles O13: the low half pops through the head cell, and every branch of a high-half read keeps the queues. -/
theorem hostPopHalves : Obligations.HostPopHalves := by
  refine ⟨fun q gap w ws s hgap hsize hcons hcell =>
      ⟨_, exec_hostDataPortRead q gap none s, dataPortRead_sameBut .., ?_⟩,
    fun addr gap s hwf hpop => ⟨_, exec_hostReadHighHalf hwf s, hostRead_sameBut .., ?_⟩⟩
  · rw [dataPortRead_inTime q gap none s hgap, dataPortLow_head q.val w ws s hsize hcons hcell]
    refine ⟨rfl, rfl, ?_, qLevel_qDrop _ _, qrd_qDrop _ _ hsize⟩
    exact (congrArg (sget [] · q.val) (qcell_qDrop _ _)).trans (sget_sset_same ..)
  · obtain ⟨hcell, hrd, hmem, hlev⟩ :=
      sameQueues_hostRead_high ((hostReadHighHalf_wf_iff addr gap).1 hwf) hpop gap none s
    exact ⟨hcell, hrd, hmem, hlev⟩

end Sys2Proof.Machine
end

section
/-! PROOFS. The ends of a queue: a word pushed at a full queue and a pop of an empty one, by the engine, an island and the host
(R12, R26, R27): O14. -/

namespace Sys2Proof.Machine

/-! ## Counters, marks and landing

What a saturating counter and a mark read back as, and that the landing of results touches no register and no queue (R40). -/

theorem fld_satFld (w : Word) (hi lo k : Nat) (h : lo ≤ hi) (h32 : hi < 32) :
    fld (satFld w hi lo k) hi lo = min (fld w hi lo + k) (2 ^ (hi + 1 - lo) - 1) := by
  have htop : 0 < 2 ^ (hi + 1 - lo) := Nat.two_pow_pos _
  have hsat : satAdd (fld w hi lo) k (2 ^ (hi + 1 - lo) - 1) = min (fld w hi lo + k) (2 ^ (hi + 1 - lo) - 1) := by
    unfold satAdd
    split <;> omega
  unfold satFld
  rw [fld_setFld_same _ _ _ _ h h32, hsat, Nat.mod_eq_of_lt (by omega)]

theorem reg_satRf (s : State) (a b hi lo k : Nat) : (s.satRf a hi lo k).reg b = if b = a then satFld (s.reg a) hi lo k else s.reg b :=
  reg_setReg _ _ _ _

/-- Every bit of the mask reads as 1 after it is set. -/
theorem rb_orReg_same (s : State) (a m n : Nat) (h : (w32 m).getLsbD n = true) : (s.orReg a m).rb a n = true := by
  unfold State.rb bit
  rw [reg_orReg, if_pos rfl, BitVec.getLsbD_or, h, Bool.or_true]

/-- LOG_EVT is the one register that a record touches. -/
theorem reg_logOnce (s : State) (code blk sev subject : Nat) (d : List Word) {a : Nat} (ha : a ≠ Reg.logEvt) :
    (s.logOnce code blk sev subject d).reg a = s.reg a :=
  logOnce_regsBut (l := [Reg.logEvt]) code blk sev subject d List.mem_cons_self (regsBut_refl _ s) a (by simpa using ha)

theorem land_quem (s : State) (c : Nat) : (s.land c).quem = s.quem := (land_keeps c (sub_refl _) (Keeps.refl _ s)).quem rfl

theorem land_qrd (s : State) (c : Nat) : (s.land c).qrd = s.qrd := (land_keeps c (sub_refl _) (Keeps.refl _ s)).qrd rfl

theorem rf_land (s : State) (c a hi lo : Nat) : (s.land c).rf a hi lo = s.rf a hi lo := by
  unfold State.rf State.reg
  rw [(land_keeps c (sub_refl _) (Keeps.refl _ s)).regs rfl]

theorem qSize_land (s : State) (c q : Nat) : qSize (s.land c) q = qSize s q := rf_land ..

theorem qLevel_land (s : State) (c q : Nat) : qLevel (s.land c) q = qLevel s q := rf_land ..

theorem qProd_land (s : State) (c q : Nat) : qProd (s.land c) q = qProd s q := rf_land ..

theorem qCons_land (s : State) (c q : Nat) : qCons (s.land c) q = qCons s q := rf_land ..

theorem issue_of_issueGoes {i : Issue} {s : State} (h : issueGoes i s) (body : State → State) :
    issue i body s = body (s.land i.cycle) := by
  obtain ⟨hrun, hgate⟩ := h
  unfold issue
  simp only [hrun, hgate, Bool.not_true, Bool.or_self, Bool.false_eq_true, if_false]

/-- The frame of a command that answers a next state. -/
theorem KeepsO.sameBut {m : Nat} {s t : State} {o : Host.Outcome State Fault Refusal} {l : List Part} (h : KeepsO m s o) (ht : o = .next t)
    (hl : ∀ p : Part, m.testBit p.bit = true → p ∈ l) : s.sameBut l t :=
  (h t ht).sameBut l hl

/-! ## A word pushed into a full queue (R26) -/

/-- From s to t queue q has discarded a word: no word and no place in it has moved, the overflow is counted and OVERFLOW set. -/
def WordDiscarded (q : Nat) (s t : State) : Prop :=
  t.quem = s.quem ∧ qLevel t q = qLevel s q ∧ sget 0 t.qrd q = sget 0 s.qrd q ∧
    t.rf (Reg.queQCnt q) 15 0 = min (s.rf (Reg.queQCnt q) 15 0 + 1) 65535 ∧ t.rb (Reg.queQStat q) 1 = true

/-- An overflow touches the count and the status of its queue; beside them, only QUE_EVT and, by its record, LOG_EVT. -/
theorem reg_qOverflow (s : State) (q : Nat) {a : Nat} (hlog : a ≠ Reg.logEvt) (hevt : a ≠ Reg.queEvt) :
    (qOverflow s q).reg a = ((s.satRf (Reg.queQCnt q) 15 0 1).orReg (Reg.queQStat q) 2).reg a := by
  unfold qOverflow
  rw [reg_logOnce _ _ _ _ _ _ hlog, reg_orReg, if_neg hevt]

theorem wordDiscarded_qOverflow (s : State) (q : Nat) : WordDiscarded q s (qOverflow s q) := by
  have hkeep := qOverflow_keeps q (sub_refl _) (Keeps.refl _ s)
  have hqrd : (qOverflow s q).qrd = s.qrd := hkeep.qrd rfl
  refine ⟨hkeep.quem rfl, qLevel_congr ?level, by rw [hqrd], ?count, ?mark⟩
  case level =>
    rw [reg_qOverflow, reg_orReg, if_neg, reg_satRf, if_neg] <;>
      simp only [Reg.queQLevel, Reg.queQCnt, Reg.queQStat, Reg.logEvt, Reg.queEvt] <;> omega
  case count =>
    have hreg : (qOverflow s q).reg (Reg.queQCnt q) = satFld (s.reg (Reg.queQCnt q)) 15 0 1 := by
      rw [reg_qOverflow, reg_orReg, if_neg, reg_satRf, if_pos rfl] <;>
        simp only [Reg.queQCnt, Reg.queQStat, Reg.logEvt, Reg.queEvt] <;> omega
    unfold State.rf
    rw [hreg]
    exact fld_satFld _ 15 0 1 (by decide) (by decide)
  case mark =>
    unfold State.rb
    rw [reg_qOverflow]
    · exact rb_orReg_same _ _ 2 1 (by decide)
    all_goals simp only [Reg.queQStat, Reg.logEvt, Reg.queEvt]; omega

/-- The landing that precedes an operation's effect moves no queue. -/
theorem WordDiscarded.of_land {q c : Nat} {s t : State} (h : WordDiscarded q (s.land c) t) : WordDiscarded q s t := by
  unfold WordDiscarded at h
  rwa [land_quem, qLevel_land, land_qrd, rf_land] at h

/-- The named producer of a full queue pushes: the word is discarded, whoever that end is. -/
theorem qPush_full {s : State} {ep q : Nat} (w : Word) (hsize : qSize s q ≠ 0) (hprod : qProd s q = ep)
    (hfull : qSize s q ≤ qLevel s q) : qPush s ep q w = qOverflow s q := by
  unfold qPush qPushIn
  rw [if_neg hsize, if_pos hprod, if_neg hsize, if_pos hfull]

theorem exec_qpush_full {i : Issue} {d qa : Fin 64} {s : State} (hwf : (Instr.qpush i d qa).wf = true) (hgo : issueGoes i s)
    (hsize : qSize s qa.val ≠ 0) (hprod : qProd s qa.val = epEngine) (hfull : qSize s qa.val ≤ qLevel s qa.val) :
    exec (.qpush i d qa) s = .next (qOverflow (s.land i.cycle) qa.val) := by
  have hexec : exec (.qpush i d qa) s = .next (issue i (fun t => qPush t epEngine qa.val (t.rw d.val)) s) := if_pos hwf
  rw [hexec, issue_of_issueGoes hgo, qPush_full]
  · rwa [qSize_land]
  · rwa [qProd_land]
  · rwa [qSize_land, qLevel_land]

theorem exec_islandQueuePush_full {q : Fin 64} {island : Fin 25} {unit : BitVec 8} {s : State} (w : Word) (hsize : qSize s q.val ≠ 0)
    (hprod : qProd s q.val = epIsland island.val unit.toNat) (hfull : qSize s q.val ≤ qLevel s q.val) :
    exec (.islandQueuePush q island unit [w]) s = .next (qOverflow s q.val) :=
  congrArg _ (qPush_full w hsize hprod hfull)

theorem aliasBase_queQPush (q : Fin 64) : aliasBase (Reg.queQPush q.val) = none := by
  revert q
  decide +kernel

theorem accOf_queQPush (q : Fin 64) : accOf (Reg.queQPush q.val) = some .wo := by
  revert q
  decide +kernel

/-- QUE_Qq_PUSH is the WO register of queue q that pushes. -/
theorem woWrite_queQPush (m : Master) (q : Nat) (w : Word) (s : State) : woWrite m (Reg.queQPush q) w s = pushWrite m q w s := by
  have hq : (Reg.queQPush q - 0xF1004) / 8 = q := by unfold Reg.queQPush; omega
  have hne : ∀ a, a < 0xF1000 → Reg.queQPush q ≠ a := by unfold Reg.queQPush; omega
  unfold woWrite
  rw [if_neg (hne _ (by decide)), if_neg (hne _ (by decide)), if_neg (hne _ (by decide)), if_neg (hne _ (by decide)),
    if_neg (hne _ (by decide)), if_neg (hne _ (by decide)), if_pos (by unfold Reg.queQPush; omega), hq]

/-- A write of QUE_Qq_PUSH by the host, while the core island is served, is a push by the endpoint of the host (R436). -/
theorem exec_hostPush (q : Fin 64) (w : Word) {s : State} (hprog : s.boot.prog = false) :
    exec (.hostPush q w) s = .next (qPush s epHost q.val w) := by
  have hexec : exec (.hostPush q w) s = .next (busWrite .host (Reg.queQPush q.val) w s) := rfl
  rw [hexec]
  unfold busWrite
  rw [if_neg (by simp [hprog])]
  simp only [aliasBase_queQPush, accOf_queQPush, woWrite_queQPush]
  rfl

theorem exec_hostPush_full {q : Fin 64} {s : State} (w : Word) (hsize : qSize s q.val ≠ 0) (hprod : qProd s q.val = epHost)
    (hfull : qSize s q.val ≤ qLevel s q.val) (hprog : s.boot.prog = false) :
    exec (.hostPush q w) s = .next (qOverflow s q.val) := by
  rw [exec_hostPush q w hprog, qPush_full w hsize hprod hfull]

/-! ## A pop of an empty queue (R12, R27) -/

/-- From s to t queue q has answered a pop with its empty marker: EMPTY is set, and no word and no place in it has moved. -/
def EmptyMarked (q : Nat) (s t : State) : Prop :=
  t.rb (Reg.queQStat q) 0 = true ∧ t.quem = s.quem ∧ qLevel t q = qLevel s q ∧ t.qrd = s.qrd

theorem emptyMarked_orReg (s : State) (q : Nat) : EmptyMarked q s (s.orReg (Reg.queQStat q) 1) :=
  ⟨rb_orReg_same _ _ 1 0 (by decide), rfl, qLevel_orReg_stat s q 1, rfl⟩

theorem EmptyMarked.of_land {q c : Nat} {s t : State} (h : EmptyMarked q (s.land c) t) : EmptyMarked q s t := by
  unfold EmptyMarked at h
  rwa [land_quem, qLevel_land, land_qrd] at h

/-- The named consumer of an empty queue gets the marker of the queue. -/
theorem qPop_empty {s : State} {ep q : Nat} (hsize : qSize s q ≠ 0) (hcons : qCons s q = ep) (hempty : qLevel s q = 0) :
    qPop s ep q = (w32 (0xDEAD0000 + q), s.orReg (Reg.queQStat q) 1) := by
  unfold qPop qPopOut
  rw [if_neg hsize, if_pos hcons, if_neg hsize, if_pos hempty]

theorem exec_qpop_empty {i : Issue} {d qa : Fin 64} {s : State} (hwf : (Instr.qpop i d qa).wf = true) (hgo : issueGoes i s)
    (hsize : qSize s qa.val ≠ 0) (hcons : qCons s qa.val = epEngine) (hempty : qLevel s qa.val = 0) :
    exec (.qpop i d qa) s =
      .next (((s.land i.cycle).orReg (Reg.queQStat qa.val) 1).result i 4 d.val (w32 (0xDEAD0000 + qa.val))) := by
  have hexec : exec (.qpop i d qa) s = .next (issue i (fun t =>
      (qPop t epEngine qa.val).2.result i 4 d.val (qPop t epEngine qa.val).1) s) := if_pos hwf
  rw [hexec, issue_of_issueGoes hgo, qPop_empty]
  · rwa [qSize_land]
  · rwa [qCons_land]
  · rwa [qLevel_land]

/-- The host, the consumer, reads the data port while the head cell holds no word. -/
theorem dataPortLow_empty (q : Nat) (s : State) (hsize : qSize s q ≠ 0) (hcons : qCons s q = epHost) (hcell : sget [] s.qcell q = []) :
    dataPortLow q none s = (s.orReg (Reg.queQStat q) 1).drive (half (w32 (0xDEAD0000 + q)) 0)
      (some (Reg.queQData q + 2, half (w32 (0xDEAD0000 + q)) 1)) s.host.latch64 := by
  have hpop : cellPop q none s = (w32 (0xDEAD0000 + q), s.orReg (Reg.queQStat q) 1) := by
    unfold cellPop
    rw [hcell]
    rfl
  unfold dataPortLow
  rw [if_neg hsize, if_pos hcons, hpop]

/-- Settles O14: each push of a full queue is one overflow and each pop of an empty one is one mark, whichever end it comes from. -/
theorem queueEnds : Obligations.QueueEnds := by
  refine ⟨fun i d qa s hwf hgo hsize hprod hfull => ?qpush, fun q island unit ws w s hws hsize hprod hfull => ?islandPush,
    fun q w s hsize hprod hfull hprog => ?hostPush, fun i d qa s hwf hgo hsize hcons hempty => ?qpop,
    fun q gap s hgap hsize hcons hcell _ => ?dataPort⟩
  case qpush =>
    have hexec := exec_qpush_full hwf hgo hsize hprod hfull
    refine ⟨_, hexec, (execQpush_keeps i d qa (sub_refl _) (Keeps.refl _ s)).sameBut hexec ?_,
      (wordDiscarded_qOverflow _ _).of_land⟩
    intro p; cases p <;> decide
  case islandPush =>
    subst hws
    have hexec := exec_islandQueuePush_full w hsize hprod hfull
    refine ⟨_, hexec, (execIslandQueuePush_keeps q island unit [w] (sub_refl _) (Keeps.refl _ s)).sameBut hexec ?_,
      wordDiscarded_qOverflow _ _⟩
    intro p; cases p <;> decide
  case hostPush =>
    have hexec := exec_hostPush_full w hsize hprod hfull hprog
    refine ⟨_, hexec, (execHostPush_keeps q w (sub_refl _) (Keeps.refl _ s)).sameBut hexec ?_, wordDiscarded_qOverflow _ _⟩
    intro p; cases p <;> decide
  case qpop =>
    have hexec := exec_qpop_empty hwf hgo hsize hcons hempty
    refine ⟨_, hexec, (execQpop_keeps i d qa (sub_refl _) (Keeps.refl _ s)).sameBut hexec ?_, rfl,
      (emptyMarked_orReg _ _).of_land⟩
    intro p; cases p <;> decide
  case dataPort =>
    refine ⟨_, exec_hostDataPortRead q gap none s, dataPortRead_sameBut .., ?_⟩
    rw [dataPortRead_inTime q gap none s hgap, dataPortLow_empty q.val s hsize hcons hcell]
    exact ⟨rfl, rfl, rfl, emptyMarked_orReg _ _⟩

end Sys2Proof.Machine
end

section
/-! PROOFS. When an operation acts and when its result is read: gating (R48) and landing (R40): O10 and O11. -/

namespace Sys2Proof.Machine

/-! ## Gating (R48) -/

/-- An operation whose predicate is false at its issue cycle does not reach its effect. -/
theorem issue_of_gateP_false {i : Issue} {s : State} (hgate : (s.land i.cycle).gateP i = false) (body : State → State) :
    issue i body s = s.land i.cycle := by
  unfold issue
  simp [hgate]

/-- A command whose meaning is an issue under `i` only lands results where the predicate of `i` is false. -/
theorem exec_of_gateP_false {c : Instr} {i : Issue} {body : State → State} {s : State}
    (hexec : exec c s = guarded c (issue i body) s) (hwf : c.wf = true) (hgate : (s.land i.cycle).gateP i = false) :
    exec c s = .next (s.land i.cycle) := by
  unfold guarded at hexec
  rw [hexec, if_pos hwf, issue_of_gateP_false hgate]

/-- In a run that is not at no-ops MSW is an issue like the others: R90 reports nothing missed. -/
theorem exec_msw_of_not_noop {i : Issue} {s : State} (hrun : (s.land i.cycle).noop i.cycle = false) (a : Fin 64) (k : BitVec 16) :
    exec (.msw i a k) s =
      guarded (.msw i a k) (issue i (fun t => mirrorSwitch k.toNat (fld (t.rw a.val) 15 0) t)) s := by
  have hexec : exec (.msw i a k) s = execMsw i a k s := rfl
  rw [hexec]
  unfold execMsw guarded
  simp only [hrun, Bool.false_eq_true, if_false]

/-- Settles O10: every gated operation but MSW is by its definition an issue, which a false predicate ends at the landing. -/
theorem gatedOff : Obligations.GatedOff := by
  unfold Obligations.GatedOff
  and_intros
  on_goal 57 => exact fun i a k s hwf hrun => exec_of_gateP_false (exec_msw_of_not_noop hrun a k) hwf
  all_goals
    intros
    exact exec_of_gateP_false rfl ‹_› ‹_›

/-! ## What a landing leaves in a register (R40)

A register reads, after a landing, the value of the last of the results for it that land, and its old value where none does. -/

theorem rw_zero (s : State) : s.rw 0 = 0#32 := rfl

theorem rp_zero (s : State) : s.rp 0 = true := rfl

theorem rw_putP (s : State) (p : Nat) (b : Bool) (d : Nat) : (s.putP p b).rw d = s.rw d := by
  unfold State.putP
  split <;> rfl

theorem rp_putW (s : State) (r : Nat) (v : Word) (d : Nat) : (s.putW r v).rp d = s.rp d := by
  unfold State.putW
  split <;> rfl

theorem rw_putW (s : State) (r : Nat) (v : Word) {d : Nat} (hd : d ≠ 0) : (s.putW r v).rw d = if r = d then v else s.rw d := by
  unfold State.putW State.rw
  by_cases hr : r = 0
  · simp [hr, hd.symm]
  · simp [hr, hd, sget_sset, eq_comm]

theorem rp_putP (s : State) (p : Nat) (b : Bool) {d : Nat} (hd : d ≠ 0) : (s.putP p b).rp d = if p = d then b else s.rp d := by
  unfold State.putP State.rp
  by_cases hp : p = 0
  · simp [hp, hd.symm]
  · simp [hp, hd, sget_sset, eq_comm]

/-- A result for register `d` of its kind: predicate `d` where `p` is set, else general register `d`. -/
def Pend.isFor (p : Bool) (d : Nat) (r : Pend) : Bool := r.isPred == p && r.dst == d

theorem rw_landOne (s : State) (r : Pend) {d : Nat} (hd : d ≠ 0) :
    (s.landOne r).rw d = if r.isFor false d then r.val else s.rw d := by
  unfold State.landOne Pend.isFor
  cases r.isPred
  · simp [rw_putW _ _ _ hd]
  · simp [rw_putP]

theorem rp_landOne (s : State) (r : Pend) {d : Nat} (hd : d ≠ 0) :
    (s.landOne r).rp d = if r.isFor true d then r.val != 0#32 else s.rp d := by
  unfold State.landOne Pend.isFor
  cases r.isPred
  · simp [rp_putW]
  · simp [rp_putP _ _ _ hd]

theorem rw_landAll (l : List Pend) (s : State) {d : Nat} (hd : d ≠ 0) :
    (s.landAll l).rw d = (l.filter (Pend.isFor false d)).foldl (fun _ r => r.val) (s.rw d) := by
  induction l generalizing s with
  | nil => rfl
  | cons r l ih =>
    rw [State.landAll, ih, rw_landOne s r hd, List.filter_cons]
    split <;> rfl

theorem rp_landAll (l : List Pend) (s : State) {d : Nat} (hd : d ≠ 0) :
    (s.landAll l).rp d = (l.filter (Pend.isFor true d)).foldl (fun _ r => r.val != 0#32) (s.rp d) := by
  induction l generalizing s with
  | nil => rfl
  | cons r l ih =>
    rw [State.landAll, ih, rp_landOne s r hd, List.filter_cons]
    split <;> rfl

/-- A result for register `d` of its kind that an operation issued at core cycle `u` reads. -/
def Pend.lands (p : Bool) (d u : Nat) (r : Pend) : Bool := r.isFor p d && decide (r.land ≤ u)

theorem rw_land (s : State) (u : Nat) {d : Nat} (hd : d ≠ 0) :
    (s.land u).rw d = (s.eng.inflight.filter (Pend.lands false d u)).foldl (fun _ r => r.val) (s.rw d) := by
  rw [State.land, rw_landAll _ _ hd, List.filter_filter]
  rfl

theorem rp_land (s : State) (u : Nat) {d : Nat} (hd : d ≠ 0) :
    (s.land u).rp d = (s.eng.inflight.filter (Pend.lands true d u)).foldl (fun _ r => r.val != 0#32) (s.rp d) := by
  rw [State.land, rp_landAll _ _ hd, List.filter_filter]
  rfl

/-! ## The place of a result among those under way (R40) -/

/-- A result lands before another: in an earlier cycle, or in the same cycle from a lower track. -/
def Pend.before (r x : Pend) : Bool := r.land < x.land || (r.land == x.land && decide (r.track < x.track))

theorem Pend.before_iff {r x : Pend} : r.before x = true ↔ r.land < x.land ∨ (r.land = x.land ∧ r.track < x.track) := by
  simp [Pend.before]

theorem insPend_cons (r x : Pend) (l : List Pend) :
    insPend r (x :: l) = if r.before x then r :: x :: l else x :: insPend r l := rfl

/-- A result that the filter drops does not show, wherever insPend puts it. -/
theorem filter_insPend_of_false {q : Pend → Bool} {r : Pend} (hr : q r = false) (l : List Pend) :
    (insPend r l).filter q = l.filter q := by
  induction l with
  | nil => simp [insPend, hr]
  | cons x l ih =>
    rw [insPend_cons]
    split
    · simp [List.filter_cons, hr]
    · rw [List.filter_cons, List.filter_cons, ih]

theorem filter_insPend_of_true {q : Pend → Bool} {r : Pend} {l : List Pend} (hr : q r = true) (hl : ∀ x ∈ l, q x = false) :
    (insPend r l).filter q = [r] := by
  induction l with
  | nil => simp [insPend, hr]
  | cons x l ih =>
    have hnil : (x :: l).filter q = [] := List.filter_eq_nil_iff.2 (by simpa using hl)
    rw [List.forall_mem_cons] at hl
    rw [insPend_cons]
    split
    · rw [List.filter_cons_of_pos hr, hnil]
    · rw [List.filter_cons_of_neg (by simp [hl.1]), ih hl.2]

/-- Two results that alone pass the filter stand in the order that insPend gives the two. Nothing is assumed of the order of
the others: where the later one goes before some `x` that the earlier one has passed, it is before the earlier one too. -/
theorem filter_insPend_insPend {q : Pend → Bool} {r k : Pend} {l : List Pend} (hr : q r = true) (hk : q k = true)
    (hl : ∀ x ∈ l, q x = false) : (insPend k (insPend r l)).filter q = insPend k [r] := by
  induction l with
  | nil => exact List.filter_eq_self.2 (by rw [insPend, insPend_cons]; split <;> simp [insPend, hr, hk])
  | cons x l ih =>
    have hnil : (x :: l).filter q = [] := List.filter_eq_nil_iff.2 (by simpa using hl)
    have hone : (insPend k (x :: l)).filter q = [k] := filter_insPend_of_true hk hl
    rw [List.forall_mem_cons] at hl
    have hx : ¬ q x = true := by simp [hl.1]
    rw [insPend_cons r x l]
    by_cases hrx : r.before x
    · rw [if_pos hrx, insPend_cons, insPend_cons k r []]
      split
      · rw [List.filter_cons_of_pos hk, List.filter_cons_of_pos hr, hnil]
      · rw [List.filter_cons_of_pos hr, hone, insPend]
    · rw [if_neg hrx, insPend_cons]
      by_cases hkx : k.before x
      · have hkr : k.before r := by
          rw [Pend.before_iff] at hrx hkx ⊢
          omega
        rw [if_pos hkx, List.filter_cons_of_pos hk, List.filter_cons_of_neg hx, filter_insPend_of_true hr hl.2, insPend_cons,
          if_pos hkr]
      · rw [if_neg hkx, List.filter_cons_of_neg hx, ih hl.2]

/-! ## Results issued and read (R40) -/

/-- Where no result under way is for the register, none lands in it. -/
theorem lands_eq_false {p : Bool} {d u : Nat} {l : List Pend} (h : ∀ x ∈ l, x.isPred = p → x.dst ≠ d) :
    ∀ x ∈ l, Pend.lands p d u x = false := by
  intro x hx
  have hne : ¬ (x.isPred = p ∧ x.dst = d) := fun hfor => h x hx hfor.1 hfor.2
  simp only [Pend.lands, Pend.isFor, Bool.and_eq_false_iff, beq_eq_false_iff_ne, decide_eq_false_iff_not]
  tauto

/-- The result of an operation as it goes under way. -/
def pendOf (i : Issue) (lat : Nat) (p : Bool) (d : Nat) (v : Word) : Pend :=
  { land := i.cycle + lat, track := i.track.val, isPred := p, dst := d, val := v }

theorem result_inflight (s : State) (i : Issue) (lat d : Nat) (v : Word) :
    (s.result i lat d v).eng.inflight = insPend (pendOf i lat false d v) s.eng.inflight := rfl

theorem resultP_inflight (s : State) (i : Issue) (lat d : Nat) (b : Bool) :
    (s.resultP i lat d b).eng.inflight = insPend (pendOf i lat true d (w32 (b2n b))) s.eng.inflight := rfl

theorem pendOf_lands {i : Issue} {lat u : Nat} (h : i.cycle + lat ≤ u) (p : Bool) (d : Nat) (v : Word) :
    Pend.lands p d u (pendOf i lat p d v) = true := by
  simp [Pend.lands, Pend.isFor, pendOf, h]

theorem pendOf_lands_late {i : Issue} {lat u : Nat} (h : u < i.cycle + lat) (p : Bool) (d : Nat) (v : Word) :
    Pend.lands p d u (pendOf i lat p d v) = false := by
  simp [Pend.lands, pendOf, Nat.not_le.2 h]

/-- An earlier result stays the last unless the later one lands after it, or with it from the same or a higher track. -/
theorem pendOf_before_iff {i j : Issue} {l k : Nat} {p : Bool} {d : Nat} {v w : Word} :
    (pendOf j k p d w).before (pendOf i l p d v) = true ↔
      ¬ (i.cycle + l < j.cycle + k ∨ (i.cycle + l = j.cycle + k ∧ i.track.val ≤ j.track.val)) := by
  rw [Pend.before_iff]
  simp only [pendOf]
  omega

theorem w32_b2n_ne_zero (b : Bool) : (w32 (b2n b) != 0#32) = b := by
  cases b <;> rfl

/-- Of two results that alone land in a register, the one kept: the later one issued, unless it lands before the other. -/
theorem kept_of_two {α : Type} (val : Pend → α) (a : α) {i j : Issue} {l k u : Nat} {p : Bool} {d : Nat} (v w : Word)
    {under : List Pend} (hfree : ∀ x ∈ under, x.isPred = p → x.dst ≠ d) (hl : i.cycle + l ≤ u) (hk : j.cycle + k ≤ u) :
    ((insPend (pendOf j k p d w) (insPend (pendOf i l p d v) under)).filter (Pend.lands p d u)).foldl (fun _ r => val r) a =
      if i.cycle + l < j.cycle + k ∨ (i.cycle + l = j.cycle + k ∧ i.track.val ≤ j.track.val) then val (pendOf j k p d w)
      else val (pendOf i l p d v) := by
  rw [filter_insPend_insPend (pendOf_lands hl p d v) (pendOf_lands hk p d w) (lands_eq_false hfree), insPend_cons]
  simp only [pendOf_before_iff, ite_not]
  split <;> rfl

/-- Settles O11: a register reads the last of the results that land in it, and insPend puts the one that R40 keeps last. -/
theorem resultTiming : Obligations.ResultTiming := by
  refine ⟨fun s i lat d u v b hu => ⟨?notYetW, ?notYetP⟩, fun s i lat d u v hd hfree hu => ?landedW,
    fun s i lat d u b hd hfree hu => ?landedP, fun s i j l k d u v w hd hfree hl hk => ?twoW,
    fun s i j l k d u a b hd hfree hl hk => ?twoP, fun s i lat u v b => ⟨rw_zero _, rp_zero _⟩⟩
  case notYetW =>
    rcases eq_or_ne d 0 with rfl | hd
    · rfl
    · rw [rw_land _ _ hd, rw_land _ _ hd, result_inflight, filter_insPend_of_false (pendOf_lands_late hu ..)]
      rfl
  case notYetP =>
    rcases eq_or_ne d 0 with rfl | hd
    · rfl
    · rw [rp_land _ _ hd, rp_land _ _ hd, resultP_inflight, filter_insPend_of_false (pendOf_lands_late hu ..)]
      rfl
  case landedW =>
    rw [rw_land _ _ hd, result_inflight, filter_insPend_of_true (pendOf_lands hu ..) (lands_eq_false hfree)]
    rfl
  case landedP =>
    rw [rp_land _ _ hd, resultP_inflight, filter_insPend_of_true (pendOf_lands hu ..) (lands_eq_false hfree)]
    exact w32_b2n_ne_zero b
  case twoW =>
    rw [rw_land _ _ hd, result_inflight, result_inflight, kept_of_two (fun r => r.val) _ v w hfree hl hk]
    rfl
  case twoP =>
    rw [rp_land _ _ hd, resultP_inflight, resultP_inflight, kept_of_two (fun r => r.val != 0#32) _ _ _ hfree hl hk]
    simp only [pendOf, w32_b2n_ne_zero]

end Sys2Proof.Machine
end

section
/-! PROOFS. What every step keeps and when a command completes: the front of the queue (O1), the empty queue (O2), reset (O3, O4),
soundness and fuses (O5, O6), completion (O7), the queue of commands (O8) and the canonical form of a memory (O9). -/

namespace Sys2Proof.Machine

/-! ## Frames -/

/-- The parts of the state, in the order of their fields. -/
def partList : List Part :=
  [.regs, .shadows, .mirror, .data, .logm, .quem, .code, .feram, .store, .ecc, .eng, .image, .qrd, .qcell, .ports, .xcnt, .host,
    .logNext, .logCompl, .logCount, .logged, .hattn, .opUs, .pwrCyc, .fabTime, .hamper, .di, .dout, .ao, .supply, .stime, .pair,
    .boot, .mtr, .ctl, .sec, .fab, .bus, .lcd, .rtc, .freeCtr]

/-- Every part that the mask `m` has is in the list. -/
def maskIn (m : Nat) (l : List Part) : Bool := partList.all (fun p => !m.testBit p.bit || l.contains p)

theorem mem_partList (p : Part) : p ∈ partList := by
  cases p <;> decide

theorem mem_of_maskIn {m : Nat} {l : List Part} (h : maskIn m l = true) (p : Part) (hp : m.testBit p.bit = true) : p ∈ l := by
  have hall := List.all_eq_true.1 h p (mem_partList p)
  simpa [hp] using hall

/-- The frame of a list of parts, from what an operation keeps. -/
theorem Keeps.frame {m : Nat} {r s : State} {l : List Part} (h : Keeps m r s) (hl : maskIn m l = true) : r.sameBut l s :=
  h.sameBut l (mem_of_maskIn hl)

/-- The frame of a command that answers a next state. -/
theorem KeepsO.frame {m : Nat} {s t : State} {o : Host.Outcome State Fault Refusal} {l : List Part} (h : KeepsO m s o)
    (ht : o = .next t) (hl : maskIn m l = true) : s.sameBut l t := (h t ht).frame hl

theorem State.sameBut_symm {l : List Part} {s t : State} (h : s.sameBut l t) : t.sameBut l s := by
  obtain ⟨hq, hparts⟩ := h
  refine ⟨hq.symm, fun p hp => ?_⟩
  have hpart := hparts p hp
  cases p <;> exact Eq.symm hpart

/-! ## Steps and what they keep -/

theorem step_of_cons (c : Instr) (q : List Instr) (s : State) : step { s with pending := c :: q } = exec c { s with pending := q } := rfl

theorem step_of_nil {s : State} (h : s.pending = []) : step s = .next (stepRun s) := by
  unfold step
  rw [h]

/-- Every field of State but the queue of commands may change. -/
def allParts : Nat := 4398046511102

theorem State.sound_of_keeps {m : Nat} {s t : State} (h : Keeps m s t) (hs : s.sound) : t.sound := by
  obtain ⟨hmem, hlog, hlcn⟩ := hs
  exact ⟨h.memOk hmem, h.logLe hlog, (h.lcn hlcn).2⟩

theorem State.fusesGrow_of_keeps {m : Nat} {s t : State} (h : Keeps m s t) (hs : s.sound) : s.fusesGrow t := by
  obtain ⟨-, -, hlcn⟩ := hs
  exact ⟨(h.lcn hlcn).1, h.retired⟩

/-- A step on a waiting command keeps what the command keeps of the state with the rest of the queue, one on an empty queue what
the run in progress keeps. -/
theorem step_keeps {s t : State} (h : step s = .next t) : ∃ q, Keeps allParts { s with pending := q } t := by
  unfold step at h
  split at h
  next hnil =>
    injection h with h
    exact ⟨s.pending, h ▸ stepRun_keeps (sub_refl _) (Keeps.refl _ s)⟩
  next c rest _ => exact ⟨rest, exec_keeps c (sub_refl _) (Keeps.refl _ _) t h⟩

/-- Settles O1: it is the second branch of the step. -/
theorem stepTakesFront : Obligations.StepTakesFront := step_of_cons

/-- Settles O5: soundness does not speak of the queue, and every command and every consist keeps the rest of it. -/
theorem stepKeepsSound : Obligations.StepKeepsSound := by
  intro s t hs h
  obtain ⟨q, hk⟩ := step_keeps h
  exact State.sound_of_keeps hk hs

/-- Settles O6: no command and no consist takes a fuse back. -/
theorem stepOnlyBlowsFuses : Obligations.StepOnlyBlowsFuses := by
  intro s t hs h
  obtain ⟨q, hk⟩ := step_keeps h
  exact State.fusesGrow_of_keeps (s := { s with pending := q }) hk hs

theorem exec_pending {c : Instr} {s t : State} (h : exec c s = .next t) : t.pending = s.pending :=
  (exec_keeps (m := allParts) c (sub_refl _) (Keeps.refl _ s) t h).pending

/-- Settles O8: what every meaning keeps includes the queue. -/
theorem execKeepsQueue : Obligations.ExecKeepsQueue :=
  ⟨fun _ _ _ h => exec_pending h, fun _ _ _ _ h => exec_pending h⟩

/-! ## Completion -/

/-- The state conditions of the two loop commands: room for a loop, and a loop to go on with (R49). -/
def loopsAdmit (c : Instr) (s : State) : Prop :=
  (∀ i n, c = .loopOpen i n → s.eng.loops.length < 2) ∧ (c = .loopIterationEnd → s.eng.loops ≠ [])

/-- Every meaning but those of the two loop commands is a function of the state, guarded by the operand rules alone. -/
theorem exec_eq_guarded (c : Instr) (hopen : ∀ i n, c ≠ .loopOpen i n) (hend : c ≠ .loopIterationEnd) :
    ∃ f, ∀ s, exec c s = guarded c f s := by
  cases c
  case loopOpen i n => exact absurd rfl (hopen i n)
  case loopIterationEnd => exact absurd rfl hend
  all_goals exact ⟨_, fun _ => rfl⟩

/-- The same for all commands, with the state conditions of the loop commands. -/
theorem exec_completes_or_refuses (c : Instr) (s : State) :
    (c.wf = true ∧ loopsAdmit c s → ∃ t, exec c s = .next t) ∧
      (¬ (c.wf = true ∧ loopsAdmit c s) → exec c s = .refused .illFormed) := by
  by_cases hopen : ∃ i n, c = .loopOpen i n
  · obtain ⟨i, n, rfl⟩ := hopen
    have hadmit : loopsAdmit (.loopOpen i n) s ↔ s.eng.loops.length < 2 :=
      ⟨fun h => h.1 i n rfl, fun h => ⟨fun _ _ _ => h, nofun⟩⟩
    have hexec : exec (.loopOpen i n) s = execLoopOpen i n s := rfl
    rw [hexec, hadmit]
    unfold execLoopOpen guarded
    by_cases hroom : s.eng.loops.length < 2 <;> by_cases hwf : (Instr.loopOpen i n).wf = true <;> simp [hroom, hwf]
  by_cases hend : c = .loopIterationEnd
  · subst hend
    have hadmit : loopsAdmit .loopIterationEnd s ↔ s.eng.loops ≠ [] := ⟨fun h => h.2 rfl, fun h => ⟨nofun, fun _ => h⟩⟩
    have hexec : exec .loopIterationEnd s = execLoopIterationEnd s := rfl
    rw [hexec, hadmit]
    unfold execLoopIterationEnd
    cases s.eng.loops <;> simp [Instr.wf]
  · have hadmit : loopsAdmit c s := ⟨fun i n h => absurd ⟨i, n, h⟩ hopen, fun h => absurd h hend⟩
    obtain ⟨f, hf⟩ := exec_eq_guarded c (fun i n h => hopen ⟨i, n, h⟩) hend
    rw [hf s]
    unfold guarded
    by_cases hwf : c.wf = true <;> simp [hwf, hadmit]

/-- Settles O7: a meaning is guarded by the operand rules alone, but for the loop commands, which look at the open loops. -/
theorem everyCommandCompletes : Obligations.EveryCommandCompletes := exec_completes_or_refuses

/-! ## An empty queue -/

theorem stepRun_of_idle {s : State} (h : s.eng.next = none ∨ s.eng.run = none) : stepRun s = s := by
  unfold stepRun
  rcases h with h | h <;> rw [h]
  cases s.eng.next <;> rfl

theorem stepRun_of_run {s : State} {c t : Nat} {r : Run} (hnext : s.eng.next = some (c, t)) (hrun : s.eng.run = some r) :
    stepRun s = if s.noop t || decide (r.start + r.length ≤ t) || decide (consistTop ≤ c) then s.setNext none
      else issueConsist c t s := by
  unfold stepRun
  rw [hnext, hrun]

/-- A run that is not at no-ops, nor past its length or code SRAM, issues its consist. -/
theorem step_of_consist {s : State} {c t : Nat} {r : Run} (hq : s.pending = []) (hnext : s.eng.next = some (c, t))
    (hrun : s.eng.run = some r) (hnoop : s.noop t = false) (hlen : t < r.start + r.length) (htop : c < consistTop) :
    step s = .next (issueConsist c t s) := by
  rw [step_of_nil hq, stepRun_of_run hnext hrun, if_neg (by simp [hnoop, hlen, htop])]

/-- How a consist ends, its operations having led from `s` to `x`. -/
theorem issueConsist_eq {s x : State} {c t w : Nat} (hw : w = consistAt s.code c) (hx : x = (decodeConsist t c w).foldl runOp s) :
    issueConsist c t s =
      if cEnd w then (openBody c w s x).setNext none
      else if cLend w then endBody c (t + 1 + cWait w) (openBody c w s x)
      else (openBody c w s x).setNext (some (c + 1, t + 1 + cWait w)) := by
  rw [hx, hw]
  rfl

theorem openBody_of_not_loop {c w : Nat} (before after : State) (h : cIsLoop w = false) : openBody c w before after = after := by
  unfold openBody
  rw [h]
  rfl

/-- Settles O2: the branches of a step on an empty queue, one for each way in which a consist ends (R37, R43, R49). -/
theorem emptyQueueIdles : Obligations.EmptyQueueIdles := by
  refine ⟨fun s hq hidle => ?idle, fun s c t r hq hnext hrun hstop => ?stops,
    fun s x c t w r hq hnext hrun hnoop hlen htop hw hx hloop hend => ?ends,
    fun s x c t w r hq hnext hrun hnoop hlen htop hw hx hloop hend hlend => ?goesOn,
    fun s x c t w n b l bs r hq hnext hrun hnoop hlen htop hw hx hloop hend hlend hloops hbodies => ?bodyEnds,
    fun s x c t w r hq hnext hrun hnoop hlen htop hw hx hloop hopened hend hlend => ?bodyBegins, fun _ _ => rfl, fun _ _ _ => rfl⟩
  case idle =>
    rw [step_of_nil hq, stepRun_of_idle hidle]
  case stops => rw [step_of_nil hq, stepRun_of_run hnext hrun, if_pos (by simpa [or_assoc] using hstop)]
  case ends =>
    rw [step_of_consist hq hnext hrun hnoop hlen htop, issueConsist_eq hw hx, openBody_of_not_loop _ _ hloop, if_pos hend]
  case goesOn =>
    rw [step_of_consist hq hnext hrun hnoop hlen htop, issueConsist_eq hw hx, openBody_of_not_loop _ _ hloop, if_neg (by simp [hend]),
      if_neg (by simp [hlend])]
  case bodyEnds =>
    refine ⟨endBody c (t + 1 + cWait w) x, ?_,
      State.sameBut_symm ((endBody_keeps _ _ (sub_refl _) (Keeps.refl _ x)).frame rfl), ?_⟩
    · rw [step_of_consist hq hnext hrun hnoop hlen htop, issueConsist_eq hw hx, openBody_of_not_loop _ _ hloop,
        if_neg (by simp [hend]), if_pos hlend]
    · unfold endBody
      rw [hloops, hbodies]
      cases n
      · exact ⟨rfl, rfl, rfl⟩
      · exact ⟨rfl, hbodies, rfl⟩
  case bodyBegins =>
    refine ⟨(openBody c w s x).setNext (some (c + 1, t + 1 + cWait w)), ?_, State.sameBut_symm (Keeps.frame
      (setNext_keeps _ (sub_refl _) (openBody_keeps c w s (sub_refl _) (Keeps.refl _ x))) rfl), ?_, rfl⟩
    · rw [step_of_consist hq hnext hrun hnoop hlen htop, issueConsist_eq hw hx, if_neg (by simp [hend]), if_neg (by simp [hlend])]
    · unfold openBody
      rw [if_pos (by simp [hloop, hopened])]
      rfl

/-! ## Reset -/

/-- Refutes O3: bit 1 of TTE_STAT, which the statement reads as HALTED, is LAST_TRAIN, whose reset value is 0; HALTED, which
is 1 after reset, is bit 3 (Table 2-13). -/
theorem not_resetValues : ¬ Obligations.ResetValues := by
  intro h
  obtain ⟨-, -, -, -, hhalted, -⟩ := h
  have hlast : State.reset.rb Reg.tteStat 1 = false := by decide +kernel
  exact absurd hhalted (by rw [hlast]; decide)

/-- Settles O4: the empty memories are canonical, and no record is held and no fuse blown. -/
theorem resetSound : Obligations.ResetSound :=
  ⟨⟨memWf_nil, memWf_nil, memWf_nil, memWf_nil, memWf_nil, memWf_nil⟩, Nat.zero_le _, Nat.zero_le _⟩

/-! ## Memories -/

/-- In a canonical table an entry stands exactly where its key reads as its value and not as the unlisted one. -/
theorem mem_iff_of_swf {α : Type} [DecidableEq α] {d : α} {l : Sparse α} (h : swf (fun _ => d) l = true) (a : Nat) (v : α) :
    (a, v) ∈ l ↔ sget d l a = v ∧ v ≠ d := by
  induction l with
  | nil => simp [sget, eq_comm]
  | cons e l ih =>
    obtain ⟨k, u⟩ := e
    rw [swf_iff] at h
    obtain ⟨hlt, hne⟩ := h
    rw [List.pairwise_cons] at hlt
    rw [List.forall_mem_cons] at hne
    have hl : swf (fun _ => d) l = true := (swf_iff _ _).2 ⟨hlt.2, hne.2⟩
    by_cases hk : k = a
    · subst hk
      have hget : sget d ((k, u) :: l) k = u := by simp [sget]
      have hnot : (k, v) ∉ l := fun hmem => Nat.lt_irrefl k (hlt.1 (k, v) hmem)
      rw [hget, List.mem_cons]
      constructor
      · rintro (heq | hmem)
        · cases heq
          exact ⟨rfl, hne.1⟩
        · exact absurd hmem hnot
      · rintro ⟨rfl, -⟩
        exact Or.inl rfl
    · have hget : sget d ((k, u) :: l) a = sget d l a := by simp [sget, hk]
      rw [hget, ← ih hl, List.mem_cons]
      simp [Ne.symm hk]

/-- A table has one canonical form: it is determined by what it reads as. -/
theorem eq_of_swf_of_sget {α : Type} [DecidableEq α] {d : α} {l r : Sparse α} (hl : swf (fun _ => d) l = true)
    (hr : swf (fun _ => d) r = true) (h : ∀ x, sget d l x = sget d r x) : l = r := by
  have : Std.Irrefl (fun x y : Nat × α => x.1 < y.1) := ⟨fun x => Nat.lt_irrefl x.1⟩
  have : Std.Antisymm (fun x y : Nat × α => x.1 < y.1) := ⟨fun _ _ hxy hyx => absurd (hxy.trans hyx) (Nat.lt_irrefl _)⟩
  refine ((swf_iff _ _).1 hl).1.eq_of_mem_iff ((swf_iff _ _).1 hr).1 ?_
  rintro ⟨a, v⟩
  rw [mem_iff_of_swf hl, mem_iff_of_swf hr, h]

/-- Settles O9: a write is a run of entries set, which keeps the canonical form, and that form is determined by the reads. -/
theorem memoryPutCanonical : Obligations.MemoryPutCanonical :=
  ⟨fun m a l h => ⟨memWf_memPut m a l h, memBytes_memPut m a l, fun _ hx => memGet_memPut_other m a _ l hx⟩,
    fun _ _ hm hn h => eq_of_swf_of_sget hm hn h⟩

end Sys2Proof.Machine
end

section
/-! PROOFS. The accumulators of the metering block (R165, R166): O15. -/

namespace Sys2Proof.Machine

/-! ## Registers through a publication and through the flags -/

theorem reg_mst (s : State) (a b : Nat) (v : Word) : (s.mst a v).reg b = s.reg b := by
  unfold State.reg
  rw [mst_regs]

theorem reg_publish_nil (s : State) (b : Nat) : (s.publish []).reg b = s.reg b := rfl

theorem reg_publish_cons (s : State) (a b : Nat) (v : Word) (l : List (Nat × Word)) (h : ∀ e ∈ l, e.1 ≠ b) :
    (s.publish ((a, v) :: l)).reg b = if b = a then v else s.reg b := by
  have hrest : (((s.setReg a v).mst a v).publish l).reg b = ((s.setReg a v).mst a v).reg b :=
    publish_regsBut (l := l.map Prod.fst) l (fun e he => List.mem_map_of_mem he) (regsBut_refl _ _) b
      (fun hb => by obtain ⟨e, he, heq⟩ := List.mem_map.1 hb; exact h e he heq)
  rw [State.publish, hrest, reg_mst, reg_setReg]

/-- A publication leaves the registers that it does not name. -/
theorem reg_publish_of_ne (s : State) (l : List (Nat × Word)) {b : Nat} (h : ∀ e ∈ l, e.1 ≠ b) : (s.publish l).reg b = s.reg b :=
  publish_regsBut (l := l.map Prod.fst) l (fun e he => List.mem_map_of_mem he) (regsBut_refl _ _) b
    (fun hb => by obtain ⟨e, he, heq⟩ := List.mem_map.1 hb; exact h e he heq)

/-- The flags touch their two registers and, by the record, LOG_EVT (R45). -/
theorem fpFlags_regsBut {l : List Nat} {r s : State} (fl : Nat) (hl : Reg.logEvt ∈ l) (hs : Reg.tteFpStat ∈ l) (hp : Reg.tteFpPath ∈ l)
    (h : r.regsBut l s) : r.regsBut l (s.fpFlags fl) := by
  unfold State.fpFlags
  split
  · exact h
  · dsimp only
    split
    · exact logOnce_regsBut _ _ _ _ _ hl (setReg_regsBut _ hp (setReg_regsBut _ hs h))
    · exact setReg_regsBut _ hs h

/-- Block MTR, chapter 06: no flag is kept there. -/
theorem reg_fpFlags_of_mtr (s : State) (fl : Nat) {a : Nat} (ha : 0x30000 ≤ a) (ha' : a < 0x40000) :
    (s.fpFlags fl).reg a = s.reg a := by
  refine fpFlags_regsBut (l := [Reg.logEvt, Reg.tteFpStat, Reg.tteFpPath]) fl ?_ ?_ ?_ (regsBut_refl _ _) a ?_ <;>
    simp [Reg.logEvt, Reg.tteFpStat, Reg.tteFpPath]
  omega

/-! ## An accumulator as a 96-bit number -/

theorem toNat_w32 (n : Nat) : (w32 n).toNat = n % 2 ^ 32 := BitVec.toNat_ofNat ..

theorem toNat_w32i (v : Int) : ((w32i v).toNat : Int) = v % 2 ^ 32 := by
  unfold w32i
  rw [BitVec.toNat_ofInt]
  omega

/-- A signed 64-bit number stored in two words reads back. -/
theorem sxt_of_words {t : Int} (hlo : -(2 ^ 63) ≤ t) (hhi : t < 2 ^ 63) :
    sxt 64 ((w32i t).toNat + (w32i (t / 2 ^ 32)).toNat * 2 ^ 32) = t := by
  have h0 := toNat_w32i t
  have h1 := toNat_w32i (t / 2 ^ 32)
  unfold sxt
  generalize (w32i t).toNat = x at h0 ⊢
  generalize (w32i (t / 2 ^ 32)).toNat = y at h1 ⊢
  simp only
  split <;> omega

theorem totClamp_bounds (t : Int) : -(2 ^ 63) ≤ totClamp t ∧ totClamp t < 2 ^ 63 := by
  unfold totClamp
  omega

/-- The addresses of the registers of an accumulator and of its WRAP word. -/
def accAddrs (c j : Nat) : List Nat :=
  [Reg.mtrTotLo c j, Reg.mtrTotHi c j, Reg.mtrFrac c j, Reg.mtrQk c j, Reg.mtrQw c (j / 4)]

theorem reg_putAcc_of_notMem (s : State) (c j : Nat) (t : Int) (f : Nat) {a : Nat} (h : a ∉ accAddrs c j) :
    (putAcc s c j t f).reg a = s.reg a := by
  simp only [accAddrs, List.mem_cons, List.not_mem_nil, or_false, not_or] at h
  obtain ⟨hlo, hhi, hfrac, hqk, hqw⟩ := h
  unfold putAcc
  rw [reg_publish_of_ne _ _ (by simpa using Ne.symm hqw), reg_publish_of_ne]
  simp [accRegs, Ne.symm hlo, Ne.symm hhi, Ne.symm hfrac, Ne.symm hqk]

/-- TOT and FRAC are the words written last at their addresses. -/
theorem reg_putAcc (s : State) {c j : Nat} (hc : c < 8) (hj : j < 9) (t : Int) (f : Nat) :
    (putAcc s c j t f).reg (Reg.mtrTotLo c j) = w32i t ∧ (putAcc s c j t f).reg (Reg.mtrTotHi c j) = w32i (t / 2 ^ 32) ∧
      (putAcc s c j t f).reg (Reg.mtrFrac c j) = w32 f := by
  have hlo : Reg.mtrTotLo c j = 0x32000 + 128 * c + 8 * j := rfl
  have hhi : Reg.mtrTotHi c j = 0x32004 + 128 * c + 8 * j := rfl
  have hfrac : Reg.mtrFrac c j = 0x32600 + 64 * c + 4 * j := rfl
  have hqk : Reg.mtrQk c j = 0x32A00 + 64 * c + 4 * j := rfl
  have hqw : Reg.mtrQw c (j / 4) = 0x32C00 + 16 * c + 4 * (j / 4) := rfl
  unfold putAcc
  refine ⟨?_, ?_, ?_⟩
  · rw [reg_publish_of_ne _ _ (by simp; omega), accRegs, reg_publish_cons _ _ _ _ _ (by simp; omega), if_pos rfl]
  · rw [reg_publish_of_ne _ _ (by simp; omega), accRegs, State.publish, reg_publish_cons _ _ _ _ _ (by simp; omega), if_pos rfl]
  · rw [reg_publish_of_ne _ _ (by simp; omega), accRegs, State.publish, State.publish, reg_publish_cons _ _ _ _ _ (by simp; omega),
      if_pos rfl]

theorem totOf_putAcc (s : State) {c j : Nat} (hc : c < 8) (hj : j < 9) {t : Int} (f : Nat) (hlo : -(2 ^ 63) ≤ t) (hhi : t < 2 ^ 63) :
    totOf (putAcc s c j t f) c j = t := by
  obtain ⟨h0, h1, -⟩ := reg_putAcc s hc hj t f
  unfold totOf
  rw [h0, h1, sxt_of_words hlo hhi]

theorem totOf_congr {s t : State} {c j : Nat} (hlo : t.reg (Reg.mtrTotLo c j) = s.reg (Reg.mtrTotLo c j))
    (hhi : t.reg (Reg.mtrTotHi c j) = s.reg (Reg.mtrTotHi c j)) : totOf t c j = totOf s c j := by
  unfold totOf
  rw [hlo, hhi]

/-- The registers of one accumulator are no other's. -/
theorem acc_notMem_accAddrs {c j c' j' : Nat} (hc : c < 8) (hj : j < 9) (hc' : c' < 8) (hj' : j' < 9) (hne : (c', j') ≠ (c, j)) :
    Reg.mtrTotLo c' j' ∉ accAddrs c j ∧ Reg.mtrTotHi c' j' ∉ accAddrs c j ∧ Reg.mtrFrac c' j' ∉ accAddrs c j := by
  have hcj : c' ≠ c ∨ j' ≠ j := by
    by_contra hcon
    push Not at hcon
    exact hne (by rw [hcon.1, hcon.2])
  simp only [accAddrs, Reg.mtrTotLo, Reg.mtrTotHi, Reg.mtrFrac, Reg.mtrQk, Reg.mtrQw, List.mem_cons, List.not_mem_nil, or_false]
  omega

theorem accumulate_of_finite (s : State) (c j m : Nat) (x : FRes) (h : fIsFin (rMul (accX x m) (fv accK)).1 = true) :
    accumulate s c j m x =
      addAcc (s.fpFlags (rMul (accX x m) (fv accK)).2) c j (fToInt (rMul (accX x m) (fv accK)).1) := if_pos h

/-- What one accumulator holds after a contribution of `n` units (R166), and that no other changes. -/
theorem addAcc_exact (s : State) {c j : Nat} (hc : c < 8) (hj : j < 9) (n : Int) {A : Int}
    (hA : A = totOf s c j * 2 ^ 32 + ((s.reg (Reg.mtrFrac c j)).toNat : Int) + n) :
    totOf (addAcc s c j n) c j = totClamp (A / 2 ^ 32) ∧ (((addAcc s c j n).reg (Reg.mtrFrac c j)).toNat : Int) = A % 2 ^ 32 ∧
      ∀ c' j', c' < 8 → j' < 9 → (c', j') ≠ (c, j) → totOf (addAcc s c j n) c' j' = totOf s c' j' ∧
        (addAcc s c j n).reg (Reg.mtrFrac c' j') = s.reg (Reg.mtrFrac c' j') := by
  have hadd : addAcc s c j n = putAcc s c j (totClamp (A / 2 ^ 32)) (A % 2 ^ 32).toNat := by
    rw [hA]
    rfl
  rw [hadd]
  refine ⟨totOf_putAcc s hc hj _ (totClamp_bounds _).1 (totClamp_bounds _).2, ?_, fun c' j' hc' hj' hne => ?_⟩
  · rw [(reg_putAcc s hc hj _ _).2.2, toNat_w32]
    omega
  · obtain ⟨hlo, hhi, hfrac⟩ := acc_notMem_accAddrs hc hj hc' hj' hne
    exact ⟨totOf_congr (reg_putAcc_of_notMem s c j _ _ hlo) (reg_putAcc_of_notMem s c j _ _ hhi),
      reg_putAcc_of_notMem s c j _ _ hfrac⟩

theorem acc_reg_fpFlags (s : State) (fl : Nat) {c j : Nat} (hc : c < 8) (hj : j < 9) :
    totOf (s.fpFlags fl) c j = totOf s c j ∧ (s.fpFlags fl).reg (Reg.mtrFrac c j) = s.reg (Reg.mtrFrac c j) := by
  refine ⟨totOf_congr ?_ ?_, ?_⟩
  all_goals
    refine reg_fpFlags_of_mtr s fl ?_ ?_ <;> simp only [Reg.mtrTotLo, Reg.mtrTotHi, Reg.mtrFrac] <;> omega

/-- Settles O15: the flags of the product touch no accumulator, and the sum is stored in the four words of its own. -/
theorem accumulatorExact : Obligations.AccumulatorExact := by
  intro c j m x s hc hj hfin
  dsimp only
  rw [accumulate_of_finite s c j m x hfin]
  generalize fToInt (rMul (accX x m) (fv accK)).1 = n
  generalize (rMul (accX x m) (fv accK)).2 = fl
  obtain ⟨htot, hfrac⟩ := acc_reg_fpFlags s fl hc hj
  generalize hA : totOf s c j * 2 ^ 32 + ((s.reg (Reg.mtrFrac c j)).toNat : Int) + n = A
  obtain ⟨hT, hF, hothers⟩ := addAcc_exact (s.fpFlags fl) hc hj n (A := A) (by rw [htot, hfrac, hA])
  refine ⟨hT, hF, fun hlo hhi => ?_, fun c' j' hc' hj' hne => ?_⟩
  · rw [hT, hF]
    unfold totClamp
    omega
  · obtain ⟨htot', hfrac'⟩ := acc_reg_fpFlags s fl hc' hj'
    obtain ⟨hT', hF'⟩ := hothers c' j' hc' hj' hne
    exact ⟨hT'.trans htot', hF'.trans hfrac'⟩

end Sys2Proof.Machine
end

section
/-! PROOFS. The operations with a register result, the loops, the flags and the loads and stores (Table 2-4): O18, O19, O20 and
O21. -/

namespace Sys2Proof.Machine

/-! ## Operations that issue with effect -/

/-- A command whose meaning is an issue has its effect on the state in which its cycle's results have landed. -/
theorem exec_of_issueGoes {c : Instr} {i : Issue} {body : State → State} {s : State} (hwf : c.wf = true) (hgo : issueGoes i s)
    (hexec : exec c s = guarded c (issue i body) s) : exec c s = .next (body (s.land i.cycle)) := by
  unfold guarded at hexec
  rw [hexec, if_pos hwf, issue_of_issueGoes hgo]

theorem land_frame (s : State) (c : Nat) : s.sameBut [.eng] (s.land c) := (land_keeps c (sub_refl _) (Keeps.refl _ s)).frame rfl

theorem land_result_frame (s : State) (c : Nat) (i : Issue) (lat d : Nat) (v : Word) :
    s.sameBut [.eng] ((s.land c).result i lat d v) :=
  (result_keeps i lat d v (sub_refl _) (land_keeps c (sub_refl _) (Keeps.refl _ s))).frame rfl

/-- An operation whose one effect is a register result: the value goes under way, and only the engine changes. -/
theorem issueW_completes {c : Instr} {i : Issue} {lat d : Nat} {v : State → Word} {s : State} (hwf : c.wf = true)
    (hgo : issueGoes i s) (hexec : exec c s = guarded c (issueW i lat d v) s) :
    ∃ t, exec c s = .next t ∧ s.sameBut [.eng] t ∧ resultIn i s t lat d (v (s.land i.cycle)) :=
  ⟨_, exec_of_issueGoes hwf hgo hexec, land_result_frame .., rfl⟩

/-- Settles O18: each of them is by its definition an operation whose one effect is a register result. -/
theorem integerResults : Obligations.IntegerResults := by
  unfold Obligations.IntegerResults
  and_intros
  all_goals
    intros
    rename_i hwf hgo
    exact (issueW_completes hwf hgo rfl :)

/-! ## Selections, pairs and loops -/

/-- SEL and FSEL issue whatever their predicate (R47). -/
theorem issueSel_completes {c : Instr} {i : Issue} {lat d : Nat} {v : State → Word} {s : State} (hwf : c.wf = true)
    (hrun : (s.land i.cycle).noop i.cycle = false)
    (hexec : exec c s = guarded c (issueSel i (fun t => t.result i lat d (v t))) s) :
    ∃ t, exec c s = .next t ∧ s.sameBut [.eng] t ∧ resultIn i s t lat d (v (s.land i.cycle)) := by
  refine ⟨(s.land i.cycle).result i lat d (v (s.land i.cycle)), ?_, land_result_frame .., rfl⟩
  unfold guarded issueSel at hexec
  simp only [hwf, hrun, if_true, Bool.false_eq_true, if_false] at hexec
  exact hexec

/-- The two halves of a pair result go under way in the engine alone. -/
theorem issue64_completes {c : Instr} {i : Issue} {d : Nat} {v : State → BitVec 64} {s : State} (hwf : c.wf = true)
    (hgo : issueGoes i s) (hexec : exec c s = guarded c (issue i (fun t => result64 i d (v t) t)) s) :
    ∃ t, exec c s = .next t ∧ s.sameBut [.eng] t ∧ t = result64 i d (v (s.land i.cycle)) (s.land i.cycle) :=
  ⟨_, exec_of_issueGoes hwf hgo hexec,
    (result64_keeps i d _ (sub_refl _) (land_keeps i.cycle (sub_refl _) (Keeps.refl _ s))).frame rfl, rfl⟩

theorem loopEnd_cons (n : Nat) (r : List Nat) : loopEnd (n :: r) = if n = 0 then r else (n - 1) :: r := by
  cases n <;> rfl

theorem exec_loopOpen {i : Issue} {trip : BitVec 16} {s : State} (h : s.eng.loops.length < 2) :
    exec (.loopOpen i trip) s = guarded (.loopOpen i trip)
      (issue i (fun t => { t with eng := { t.eng with loops := trip.toNat :: t.eng.loops } })) s := if_pos h

/-- Settles O19: the selections issue without their gate, the others with it, and a loop command changes the open loops. -/
theorem selectAndPairs : Obligations.SelectAndPairs := by
  refine ⟨fun i d a b s hwf hrun => (issueSel_completes hwf hrun rfl :), fun i d a b s hwf hrun => (issueSel_completes hwf hrun rfl :),
    fun i pd a b cond s hwf hgo => ?cmp, fun i d a b s hwf hgo => (issue64_completes hwf hgo rfl :),
    fun i d a b s hwf hgo => (issue64_completes hwf hgo rfl :), fun i trip s hwf hgo hroom => ?loop, fun n r s hloops => ?iteration,
    fun i s => ⟨_, rfl, land_frame .., rfl⟩⟩
  case cmp =>
    have hexec := exec_of_issueGoes hwf hgo rfl
    exact ⟨_, hexec, (execCmp_keeps i pd a b cond (sub_refl _) (Keeps.refl _ s)).frame hexec rfl, rfl⟩
  case loop =>
    have hexec := exec_of_issueGoes hwf hgo (exec_loopOpen hroom)
    exact ⟨_, hexec, (execLoopOpen_keeps i trip (sub_refl _) (Keeps.refl _ s)).frame hexec rfl, rfl⟩
  case iteration =>
    have hexec : exec .loopIterationEnd s = .next { s with eng := { s.eng with loops := loopEnd s.eng.loops } } := by
      have hne : ¬ s.eng.loops.isEmpty = true := by simp [hloops]
      exact if_neg hne
    refine ⟨_, hexec, (execLoopIterationEnd_keeps (sub_refl _) (Keeps.refl _ s)).frame hexec rfl, ?_⟩
    rw [hloops, loopEnd_cons]

/-! ## Binary32 operations (R45) -/

/-- An operation of track 2 raises its flags at its issue and puts its result under way. -/
theorem issueF_completes {c : Instr} {i : Issue} {lat d : Nat} {f : State → FRes} {s : State} (hwf : c.wf = true)
    (hgo : issueGoes i s) (hexec : exec c s = guarded c (issueF i lat d f) s) :
    ∃ t, exec c s = .next t ∧ s.sameBut [.regs, .logm, .ecc, .eng, .logNext, .logCompl, .logCount, .logged] t ∧
      t = ((s.land i.cycle).fpFlags (f (s.land i.cycle)).2).result i lat d (f (s.land i.cycle)).1 := by
  refine ⟨_, exec_of_issueGoes hwf hgo hexec, ?_, rfl⟩
  rw [← issue_of_issueGoes hgo (fun t => (t.fpFlags (f t).2).result i lat d (f t).1)]
  exact (issueF_keeps i lat d f (sub_refl _) (Keeps.refl _ s)).frame rfl

/-- Settles O20: each of them is an issue with flags and one result, but for FCMP, whose result is a predicate. -/
theorem floatResults : Obligations.FloatResults := by
  unfold Obligations.FloatResults
  and_intros
  on_goal 14 =>
    intro i pd a b cond s hwf hgo
    have hexec := exec_of_issueGoes hwf hgo rfl
    exact ⟨_, hexec, (execFcmp_keeps i pd a b cond (sub_refl _) (Keeps.refl _ s)).frame hexec rfl, rfl⟩
  all_goals
    intros
    rename_i hwf hgo
    exact (issueF_completes hwf hgo rfl :)

/-! ## Loads and stores (R44, R52, R68) -/

theorem land_data (s : State) (c : Nat) : (s.land c).data = s.data := (land_keeps c (sub_refl _) (Keeps.refl _ s)).data rfl

theorem land_logm (s : State) (c : Nat) : (s.land c).logm = s.logm := (land_keeps c (sub_refl _) (Keeps.refl _ s)).logm rfl

theorem eccAt_land (s : State) (c mem a : Nat) : (s.land c).eccAt mem a = s.eccAt mem a := by
  unfold State.eccAt
  rw [(land_keeps c (sub_refl _) (Keeps.refl _ s)).ecc rfl]

theorem loadData_of_ok {i : Issue} {d a : Nat} {s : State} (h : s.eccAt mcData a = .ok) :
    loadData i d a s = s.result i 3 d (memW s.data a) := by
  unfold loadData
  rw [h]

theorem readLog_of_ok {a : Nat} {s : State} (h : s.eccAt mcLog a = .ok) : readLog a s = (memW s.logm a, s) := by
  unfold readLog
  rw [h]

theorem length_leBytes (n v : Nat) : (leBytes n v).length = n := by
  induction n generalizing v with
  | zero => rfl
  | succ n ih => simp [leBytes, ih]

/-- A word stored reads back byte by byte. -/
theorem memBytes_memPutW (m : List Host.Cell) (a : Nat) (w : Word) : memBytes (memPutW m a w) a 4 = leBytes 4 w.toNat := by
  have h := memBytes_memPut m a (leBytes 4 w.toNat)
  rwa [length_leBytes] at h

theorem memGet_memPutW_other (m : List Host.Cell) (a : Nat) (w : Word) {x : Nat} (h : x < a ∨ a + 4 ≤ x) :
    memGet (memPutW m a w) x = memGet m x :=
  memGet_memPut_other m a x _ (by rwa [length_leBytes])

/-- A load of a unit without error. -/
theorem load_completes {c : Instr} {i : Issue} {d : Nat} {addr : State → Nat} {s : State} (hwf : c.wf = true) (hgo : issueGoes i s)
    (hok : (s.land i.cycle).eccAt mcData (addr (s.land i.cycle)) = .ok)
    (hexec : exec c s = guarded c (issue i (fun t => loadData i d (addr t) t)) s) :
    ∃ t, exec c s = .next t ∧ s.sameBut [.regs, .logm, .ecc, .eng, .logNext, .logCompl, .logCount, .logged] t ∧
      resultIn i s t 3 d (memW s.data (addr (s.land i.cycle))) := by
  refine ⟨_, exec_of_issueGoes hwf hgo hexec, ?_, ?_⟩
  · exact (loadData_keeps i d _ (sub_refl _) (land_keeps i.cycle (sub_of (sub_refl _) rfl) (Keeps.refl _ s))).frame rfl
  · rw [loadData_of_ok hok, ← land_data s i.cycle]
    rfl

/-- A store to data SRAM: the four bytes, fresh check bits, and no other byte. -/
theorem store_completes {c : Instr} {i : Issue} {d : Nat} {addr : State → Nat} {s : State} (hwf : c.wf = true) (hgo : issueGoes i s)
    (hexec : exec c s = guarded c (issue i (fun t => storeData (addr t) (t.rw d) t)) s) :
    ∃ t, exec c s = .next t ∧ s.sameBut [.data, .ecc, .eng] t ∧
      memBytes t.data (addr (s.land i.cycle)) 4 = leBytes 4 ((s.land i.cycle).rw d).toNat ∧
      t.eccAt mcData (addr (s.land i.cycle)) = .ok ∧
      ∀ x, x < addr (s.land i.cycle) ∨ addr (s.land i.cycle) + 4 ≤ x → memGet t.data x = memGet s.data x := by
  refine ⟨_, exec_of_issueGoes hwf hgo hexec, ?_, memBytes_memPutW .., eccAt_setEcc_same .., fun x hx => ?_⟩
  · exact (storeData_keeps (m := 3088) _ _ (sub_of (sub_refl _) rfl) (land_keeps i.cycle (sub_of (sub_refl _) rfl) (Keeps.refl _ s))).frame rfl
  · rw [← land_data s i.cycle]
    exact memGet_memPutW_other _ _ _ hx

/-- Settles O21: the loads and stores of data SRAM by their two address forms, and those of log SRAM. -/
theorem memoryOperations : Obligations.MemoryOperations := by
  refine ⟨fun i d a imm s hwf hgo hok => ?ld, fun i d a b s hwf hgo hok => ?ldx, fun i d a imm s hwf hgo => ?st,
    fun i d a b s hwf hgo => ?stx, fun i d a imm s hwf hgo hok => ?lld, fun i d a imm s hwf hgo => ?lst⟩
  case ld => exact load_completes (addr := fun t => dataAddr (addrM t a.val imm)) hwf hgo hok rfl
  case ldx => exact load_completes (addr := fun t => dataAddr (addrX t a.val b.val)) hwf hgo hok rfl
  case st => exact store_completes (addr := fun t => dataAddr (addrM t a.val imm)) hwf hgo rfl
  case stx => exact store_completes (addr := fun t => dataAddr (addrX t a.val b.val)) hwf hgo rfl
  case lld =>
    have hexec := exec_of_issueGoes hwf hgo rfl
    refine ⟨_, hexec, (execLld_keeps i d a imm (sub_refl _) (Keeps.refl _ s)).frame hexec rfl, ?_⟩
    dsimp only
    rw [readLog_of_ok hok, ← land_logm s i.cycle]
    rfl
  case lst =>
    have hexec := exec_of_issueGoes hwf hgo rfl
    refine ⟨_, hexec, (execLst_keeps i d a imm (sub_refl _) (Keeps.refl _ s)).frame hexec rfl, memBytes_memPutW ..,
      eccAt_setEcc_same .., fun x hx => ?_⟩
    rw [← land_logm s i.cycle]
    exact memGet_memPutW_other _ _ _ hx

end Sys2Proof.Machine
end

section
/-! PROOFS. Words that enter and leave a queue by its named ends (R24 to R28, R63, R434): O22. -/

namespace Sys2Proof.Machine

/-! ## Error marks below the log (R51)

The log and the mirror make fresh check bits in their own memories; the marks of code, data and queue memory stay. -/

/-- From s to t no mark of code, data or queue memory has changed. -/
structure SameMarks (s t : State) : Prop where
  eq : ∀ k, k < 3 * 2 ^ 24 → sget Ecc.ok t.ecc k = sget Ecc.ok s.ecc k

theorem SameMarks.refl (s : State) : SameMarks s s := ⟨fun _ _ => rfl⟩

theorem SameMarks.of_ecc_eq {r s t : State} (h : SameMarks r s) (e : t.ecc = s.ecc) : SameMarks r t :=
  ⟨fun k hk => by rw [e, h.eq k hk]⟩

theorem setEcc_sameMarks {r s : State} {mem : Nat} (unit : Nat) (e : Ecc) (hmem : 3 ≤ mem) (h : SameMarks r s) :
    SameMarks r (s.setEcc mem unit e) := by
  refine ⟨fun k hk => ?_⟩
  rw [← h.eq k hk]
  refine sget_sset_other _ _ _ _ ?_
  unfold eccKey
  omega

theorem SameMarks.eccAt {s t : State} (h : SameMarks s t) {mem u : Nat} (hmem : mem < 3) (hu : u < 2 ^ 24) :
    t.eccAt mem u = s.eccAt mem u := by
  refine h.eq _ ?_
  unfold eccKey
  omega

theorem putLogWs_sameMarks {r s : State} (a : Nat) (ws : List Word) (h : SameMarks r s) : SameMarks r (s.putLogWs a ws) := by
  induction ws generalizing s a with
  | nil => exact h
  | cons w ws ih => exact ih _ (setEcc_sameMarks a .ok (by decide) (h.of_ecc_eq rfl))

theorem noteSev_ecc (s : State) (sev : Nat) : (s.noteSev sev).ecc = s.ecc := (noteSev_keeps sev (sub_refl _) (Keeps.refl _ _)).ecc rfl

theorem logOnce_sameMarks {r s : State} (code blk sev subject : Nat) (d : List Word) (h : SameMarks r s) :
    SameMarks r (s.logOnce code blk sev subject d) := by
  unfold State.logOnce
  split
  · exact h
  · have happ : SameMarks r (s.append code blk sev d) :=
      ((putLogWs_sameMarks _ _ h).of_ecc_eq (t := State.logBump _) rfl).of_ecc_eq (noteSev_ecc _ _)
    exact happ.of_ecc_eq rfl

theorem overrun_sameMarks {r s : State} (p : Nat) (h : SameMarks r s) : SameMarks r (s.overrun p) := by
  unfold State.overrun
  exact logOnce_sameMarks _ _ _ _ _ (h.of_ecc_eq rfl)

theorem sendPort_sameMarks {r s : State} (p : Nat) (w : Word) (h : SameMarks r s) : SameMarks r (s.sendPort p w) := by
  have hcount : SameMarks r (if (s.port p).transit || (s.port p).valid then s.overrun p else s) := by
    split
    · exact overrun_sameMarks p h
    · exact h
  exact hcount.of_ecc_eq rfl

theorem sendIn_sameMarks {r s : State} (island k : Nat) (ws : List Word) (h : SameMarks r s) :
    SameMarks r (sendIn island k ws s) := by
  induction ws generalizing s k with
  | nil => exact h
  | cons w ws ih => exact ih _ (sendPort_sameMarks _ w h)

theorem mst_sameMarks {r s : State} (a : Nat) (v : Word) (h : SameMarks r s) : SameMarks r (s.mst a v) := by
  unfold State.mst
  split
  · exact h
  · exact setEcc_sameMarks a .ok (by decide) (h.of_ecc_eq rfl)

theorem mstAll_sameMarks {r s : State} (l : List (Nat × Word)) (h : SameMarks r s) : SameMarks r (s.mstAll l) := by
  induction l generalizing s with
  | nil => exact h
  | cons e l ih => exact ih (mst_sameMarks _ _ h)

theorem publish_sameMarks {r s : State} (l : List (Nat × Word)) (h : SameMarks r s) : SameMarks r (s.publish l) := by
  induction l generalizing s with
  | nil => exact h
  | cons e l ih => exact ih (mst_sameMarks _ _ (h.of_ecc_eq rfl))

theorem republish_sameMarks {r s : State} (l : List Nat) (h : SameMarks r s) : SameMarks r (s.republish l) := mstAll_sameMarks _ h

theorem busStatus_sameMarks {r s : State} (src : Nat) (h : SameMarks r s) : SameMarks r (busStatus src s) := by
  unfold busStatus
  extract_lets w sent bus s1 can mac s2
  have h1 : SameMarks r s1 := (sendIn_sameMarks _ _ _ h).of_ecc_eq (s := sent) rfl
  have h2 : SameMarks r s2 := by
    simp only [s2]
    split <;> exact h1.of_ecc_eq rfl
  exact republish_sameMarks _ (publish_sameMarks _ h2)

theorem busNote_sameMarks {r s : State} (src : Nat) (h : SameMarks r s) : SameMarks r (busNote src s) := by
  unfold busNote
  split
  · exact republish_sameMarks _ h
  · exact busStatus_sameMarks _ h

theorem flowOn_sameMarks {r s : State} (p kind lev : Nat) (h : SameMarks r s) : SameMarks r (flowOn p kind lev s) := by
  unfold flowOn
  split
  · exact h
  · unfold busRec
    exact logOnce_sameMarks _ _ _ _ _ (h.of_ecc_eq rfl)

theorem backpressureAt_sameMarks {r s : State} (q lev : Nat) (b : Bool) (h : SameMarks r s) :
    SameMarks r (backpressureAt s q lev b) := by
  unfold backpressureAt
  split
  · unfold backpressureSet
    refine busNote_sameMarks _ ?_
    split
    · exact flowOn_sameMarks _ _ _ h
    · exact h.of_ecc_eq rfl
  · exact h

theorem qSetLevel_sameMarks {r s : State} (q old new : Nat) (h : SameMarks r s) : SameMarks r (qSetLevel s q old new) := by
  unfold qSetLevel
  extract_lets s1 s2 s3
  have h2 : SameMarks r s2 := by
    simp only [s2]
    split <;> exact h.of_ecc_eq rfl
  have h3 : SameMarks r s3 := by
    simp only [s3]
    split
    · exact backpressureAt_sameMarks _ _ _ (h2.of_ecc_eq rfl)
    · exact h2
  split
  · exact backpressureAt_sameMarks _ _ _ (h3.of_ecc_eq rfl)
  · exact h3

/-! ## The shape of the queues

The size, base and ends of a queue are registers that no level and no mark touches. -/

/-- A move of the level touches the level and the status of its queue alone of block QUE. -/
theorem reg_qSetLevel (s : State) (q old new : Nat) {a : Nat} (ha : 0xF0000 ≤ a) (hlev : a ≠ Reg.queQLevel q)
    (hstat : a ≠ Reg.queQStat q) : (qSetLevel s q old new).reg a = s.reg a := by
  unfold qSetLevel
  extract_lets s1 s2 s3
  have h2 : s2.reg a = s.reg a := by
    simp only [s2, s1]
    split <;> simp [reg_setRf, hlev]
  have h3 : s3.reg a = s.reg a := by
    simp only [s3]
    split
    · rw [reg_backpressureAt _ _ _ _ ha, reg_orReg, if_neg hstat, h2]
    · exact h2
  split
  · rw [reg_backpressureAt _ _ _ _ ha, reg_orReg, if_neg hstat, h3]
  · exact h3

/-- From s to t every queue keeps its place, its size and its ends. -/
def sameShape (s t : State) : Prop := ∀ q, t.reg (Reg.queQCfg q) = s.reg (Reg.queQCfg q) ∧ t.reg (Reg.queQEnds q) = s.reg (Reg.queQEnds q)

theorem sameShape_of_regs_eq {s t : State} (h : t.regs = s.regs) : sameShape s t := by
  intro q
  unfold State.reg
  rw [h]
  exact ⟨rfl, rfl⟩

theorem sameShape_qSetLevel (s : State) (q old new : Nat) : sameShape s (qSetLevel s q old new) := by
  intro q'
  constructor <;> refine reg_qSetLevel s q old new ?_ ?_ ?_ <;>
    simp only [Reg.queQCfg, Reg.queQEnds, Reg.queQLevel, Reg.queQStat] <;> omega

theorem sameShape.qSize {s t : State} (h : sameShape s t) (q : Nat) : qSize t q = qSize s q := by
  unfold Machine.qSize State.rf
  rw [(h q).1]

theorem sameShape.qBase {s t : State} (h : sameShape s t) (q : Nat) : qBase t q = qBase s q := by
  unfold Machine.qBase State.rf
  rw [(h q).1]

theorem sameShape.qProd {s t : State} (h : sameShape s t) (q : Nat) : qProd t q = qProd s q := by
  unfold Machine.qProd State.rf
  rw [(h q).2]

theorem qBase_lt (s : State) (q : Nat) : qBase s q < 2 ^ 16 := Nat.mod_lt _ (by decide)

theorem qSize_lt (s : State) (q : Nat) : qSize s q < 2 ^ 16 := Nat.mod_lt _ (by decide)

theorem qAddr_of_size {s : State} {q : Nat} (h : qSize s q ≠ 0) (k : Nat) :
    qAddr s q k = 4 * (qBase s q + (sget 0 s.qrd q + k) % qSize s q) := by
  unfold qAddr
  rw [if_neg h]

theorem qAddr_lt {s : State} {q : Nat} (h : qSize s q ≠ 0) (k : Nat) : qAddr s q k < 2 ^ 24 := by
  rw [qAddr_of_size h]
  have hmod := Nat.mod_lt (sget 0 s.qrd q + k) (Nat.pos_of_ne_zero h)
  have hbase := qBase_lt s q
  have hsize := qSize_lt s q
  omega

/-- A state with the heads and the shape of another has its places. -/
theorem qAddr_congr {s t : State} {q : Nat} (h : sameShape s t) (hrd : t.qrd = s.qrd) (k : Nat) : qAddr t q k = qAddr s q k := by
  unfold qAddr
  rw [h.qBase, h.qSize, hrd]

/-- Once the head has moved on, each word stands one place nearer to it. -/
theorem qAddr_succ {s t : State} {q : Nat} (hsize : qSize s q ≠ 0) (h : sameShape s t)
    (hrd : sget 0 t.qrd q = (sget 0 s.qrd q + 1) % qSize s q) (k : Nat) : qAddr t q k = qAddr s q (k + 1) := by
  rw [qAddr_of_size (by rwa [h.qSize]), qAddr_of_size hsize, h.qBase, h.qSize, hrd, Nat.mod_add_mod]
  congr 3
  omega

/-- Two places of a queue that are not one lie apart. -/
theorem qAddr_apart {s : State} {q i j : Nat} (hsize : qSize s q ≠ 0) (hij : i < j) (hj : j < i + qSize s q) :
    qAddr s q j + 4 ≤ qAddr s q i ∨ qAddr s q i + 4 ≤ qAddr s q j := by
  rw [qAddr_of_size hsize, qAddr_of_size hsize]
  generalize sget 0 s.qrd q = h
  have hne : (h + i) % qSize s q ≠ (h + j) % qSize s q := by
    intro heq
    have hdvd : qSize s q ∣ (h + j) - (h + i) := (Nat.modEq_iff_dvd' (by omega)).1 heq
    have := Nat.le_of_dvd (by omega) hdvd
    omega
  omega

/-! ## A word pushed where there is room (R28) -/

theorem qPushIn_room {s : State} {q : Nat} (w : Word) (hsize : qSize s q ≠ 0) (hroom : qLevel s q < qSize s q) :
    qPushIn s q w = qSetLevel ({ s with quem := memPutW s.quem (qAddr s q (qLevel s q)) w }.setEcc mcQue
      (qAddr s q (qLevel s q)) .ok) q (qLevel s q) (qLevel s q + 1) := by
  unfold qPushIn
  rw [if_neg hsize, if_neg (by omega)]

/-- From s to t the word has been stored at the tail of queue q, and its level is one higher. -/
structure WordPushed (q : Nat) (w : Word) (s t : State) : Prop where
  quem : t.quem = memPutW s.quem (qAddr s q (qLevel s q)) w
  level : qLevel t q = qLevel s q + 1
  qrd : t.qrd = s.qrd
  shape : sameShape s t
  good : t.eccAt mcQue (qAddr s q (qLevel s q)) = .ok
  marks : ∀ u, u ≠ qAddr s q (qLevel s q) → u < 2 ^ 24 → t.eccAt mcQue u = s.eccAt mcQue u

theorem wordPushed_qPushIn {s : State} {q : Nat} (w : Word) (hsize : qSize s q ≠ 0) (hroom : qLevel s q < qSize s q)
    (hmax : qLevel s q + 1 < 2 ^ 15) : WordPushed q w s (qPushIn s q w) := by
  rw [qPushIn_room w hsize hroom]
  generalize hs1 : ({ s with quem := memPutW s.quem (qAddr s q (qLevel s q)) w }.setEcc mcQue (qAddr s q (qLevel s q)) .ok : State) = s1
  have hkeeps := qSetLevel_keeps q (qLevel s q) (qLevel s q + 1) (sub_refl _) (Keeps.refl _ s1)
  have hmarks := qSetLevel_sameMarks q (qLevel s q) (qLevel s q + 1) (SameMarks.refl s1)
  refine ⟨?quem, qLevel_qSetLevel _ _ _ _ hmax, ?qrd, fun q' => ?shape, ?good, fun u hne hu => ?marks⟩
  case quem => rw [hkeeps.quem rfl, ← hs1]; rfl
  case qrd => rw [hkeeps.qrd rfl, ← hs1]; rfl
  case shape =>
    obtain ⟨hcfg, hends⟩ := sameShape_qSetLevel s1 q (qLevel s q) (qLevel s q + 1) q'
    rw [hcfg, hends, ← hs1]
    exact ⟨rfl, rfl⟩
  case good =>
    rw [hmarks.eccAt (by decide) (qAddr_lt hsize _), ← hs1]
    exact eccAt_setEcc_same _ _ _ _
  case marks =>
    rw [hmarks.eccAt (by decide) hu, ← hs1]
    exact sget_sset_other _ _ _ _ (by unfold eccKey; omega)

theorem qPush_room {s : State} {ep q : Nat} (w : Word) (hsize : qSize s q ≠ 0) (hprod : qProd s q = ep) :
    qPush s ep q w = qPushIn s q w := by
  unfold qPush
  rw [if_neg hsize, if_pos hprod]

/-- From s to t the words have been stored one behind the other at the tail of queue q. -/
structure WordsPushed (q : Nat) (ws : List Word) (s t : State) : Prop where
  level : qLevel t q = qLevel s q + ws.length
  qrd : t.qrd = s.qrd
  words : ∀ k, k < ws.length → memBytes t.quem (qAddr s q (qLevel s q + k)) 4 = leBytes 4 (ws.getD k 0#32).toNat ∧
    t.eccAt mcQue (qAddr s q (qLevel s q + k)) = .ok
  others : ∀ x, (∀ k, k < ws.length → x < qAddr s q (qLevel s q + k) ∨ qAddr s q (qLevel s q + k) + 4 ≤ x) →
    memGet t.quem x = memGet s.quem x
  marks : ∀ u, (∀ k, k < ws.length → u ≠ qAddr s q (qLevel s q + k)) → u < 2 ^ 24 → t.eccAt mcQue u = s.eccAt mcQue u

theorem memBytes_congr {m n : List Host.Cell} {a c : Nat} (h : ∀ x, a ≤ x → x < a + c → memGet m x = memGet n x) :
    memBytes m a c = memBytes n a c := by
  induction c generalizing a with
  | zero => rfl
  | succ c ih =>
    rw [memBytes, memBytes, h a (Nat.le_refl _) (by omega), ih (fun x hx hx' => h x (by omega) (by omega))]

/-- Words pushed while there is room for each: the first goes to the tail, the others behind it. -/
theorem wordsPushed_qPushAll {ep q : Nat} (ws : List Word) {s : State} (hsize : qSize s q ≠ 0) (hprod : qProd s q = ep)
    (hroom : qLevel s q + ws.length ≤ qSize s q) (hmax : qLevel s q + ws.length < 2 ^ 15) :
    WordsPushed q ws s (qPushAll s ep q ws) := by
  induction ws generalizing s with
  | nil => exact ⟨rfl, rfl, nofun, fun _ _ => rfl, fun _ _ _ => rfl⟩
  | cons w ws ih =>
    simp only [List.length_cons] at hroom hmax
    rw [qPushAll, qPush_room w hsize hprod]
    obtain ⟨hquem, hlevel, hqrd, hshape, hgood, hmarks⟩ := wordPushed_qPushIn w hsize (by omega) (by omega)
    generalize qPushIn s q w = s1 at hquem hlevel hqrd hshape hgood hmarks ⊢
    have hplace : ∀ k, qAddr s1 q (qLevel s1 q + k) = qAddr s q (qLevel s q + (k + 1)) := fun k => by
      rw [qAddr_congr hshape hqrd, hlevel]
      congr 1
      omega
    have hapart : ∀ k, k < ws.length → qAddr s q (qLevel s q + (k + 1)) + 4 ≤ qAddr s q (qLevel s q) ∨
        qAddr s q (qLevel s q) + 4 ≤ qAddr s q (qLevel s q + (k + 1)) := fun k hk =>
      qAddr_apart hsize (by omega) (by omega)
    obtain ⟨hl, hr, hw, ho, hm⟩ := ih (s := s1) (by rwa [hshape.qSize]) (by rwa [hshape.qProd])
      (by rw [hshape.qSize, hlevel]; omega) (by omega)
    generalize qPushAll s1 ep q ws = t at hl hr hw ho hm ⊢
    simp only [hplace] at hw ho hm
    refine ⟨by rw [hl, hlevel, List.length_cons]; omega, hr.trans hqrd, fun k hk => ?words, fun x hx => ?others, fun u hu hlt => ?marks⟩
    case words =>
      cases k with
      | zero =>
        have hfirst : memBytes t.quem (qAddr s q (qLevel s q)) 4 = memBytes s1.quem (qAddr s q (qLevel s q)) 4 :=
          memBytes_congr fun x hx hx' => ho x fun k hk => by have := hapart k hk; omega
        refine ⟨?_, ?_⟩
        · rw [Nat.add_zero, hfirst, hquem]
          exact memBytes_memPutW ..
        · rw [Nat.add_zero, hm _ (fun k hk => by have := hapart k hk; omega) (qAddr_lt hsize _), hgood]
      | succ k => exact hw k (by simpa using hk)
    case others =>
      rw [ho x (fun k hk => hx (k + 1) (by simpa using hk)), hquem]
      exact memGet_memPutW_other _ _ _ (hx 0 (by simp))
    case marks =>
      rw [hm u (fun k hk => hu (k + 1) (by simpa using hk)) hlt]
      exact hmarks u (hu 0 (by simp)) hlt

/-! ## A word popped (R27, R28) -/

theorem qFetch_of_ok {s : State} {q k : Nat} (h : s.eccAt mcQue (qAddr s q k) = .ok) : qFetch s q k = (memW s.quem (qAddr s q k), s) := by
  unfold qFetch
  dsimp only
  rw [h]

theorem qPopOut_word {s : State} {q : Nat} (hsize : qSize s q ≠ 0) (hlev : 0 < qLevel s q) (hok : s.eccAt mcQue (qAddr s q 0) = .ok) :
    qPopOut s q = (memW s.quem (qAddr s q 0), qDrop s q) := by
  unfold qPopOut
  rw [if_neg hsize, if_neg (by omega), qFetch_of_ok hok]

theorem qPop_word {s : State} {ep q : Nat} (hsize : qSize s q ≠ 0) (hcons : qCons s q = ep) (hlev : 0 < qLevel s q)
    (hok : s.eccAt mcQue (qAddr s q 0) = .ok) : qPop s ep q = (memW s.quem (qAddr s q 0), qDrop s q) := by
  unfold qPop
  rw [if_neg hsize, if_pos hcons, qPopOut_word hsize hlev hok]

theorem quem_qDrop (s : State) (q : Nat) : (qDrop s q).quem = s.quem := (qDrop_keeps q (sub_refl _) (Keeps.refl _ s)).quem rfl

theorem sameShape_qDrop (s : State) (q : Nat) : sameShape s (qDrop s q) := fun q' => sameShape_qSetLevel _ q _ _ q'

theorem qAddr_land (s : State) (c q k : Nat) : qAddr (s.land c) q k = qAddr s q k := by
  unfold qAddr qBase qSize
  rw [land_qrd, rf_land, rf_land]

/-- A swap moves the head on and stores the word behind the last one, at its level (R28). -/
theorem qSwap_spec (s : State) {q : Nat} (w : Word) (hsize : qSize s q ≠ 0) :
    (qSwap s q w).regs = s.regs ∧ memBytes (qSwap s q w).quem (qAddr s q (qLevel s q)) 4 = leBytes 4 w.toNat ∧
      sget 0 (qSwap s q w).qrd q = (sget 0 s.qrd q + 1) % qSize s q ∧
      ∀ x, x < qAddr s q (qLevel s q) ∨ qAddr s q (qLevel s q) + 4 ≤ x → memGet (qSwap s q w).quem x = memGet s.quem x := by
  refine ⟨rfl, memBytes_memPutW .., ?_, fun x hx => memGet_memPutW_other _ _ _ hx⟩
  refine (sget_sset_same ..).trans ?_
  rw [if_neg hsize]

theorem qLevel_of_regs_eq {s t : State} (h : t.regs = s.regs) (q : Nat) : qLevel t q = qLevel s q := by
  refine qLevel_congr ?_
  unfold State.reg
  rw [h]

theorem exec_islandQueuePop (q : Fin 64) (island : Fin 25) (unit : BitVec 8) (push : Option Word) {s : State}
    (hsize : qSize s q.val ≠ 0) (hcons : qCons s q.val = epIsland island.val unit.toNat) :
    exec (.islandQueuePop q island unit push) s = .next (qPopWith s q.val push).2 := by
  have hexec : exec (.islandQueuePop q island unit push) s =
      .next (islandPop (epIsland island.val unit.toNat) q.val push s) := rfl
  rw [hexec]
  unfold islandPop
  rw [if_neg hsize, if_pos hcons]

theorem qPopWith_word {s : State} {q : Nat} (push : Option Word) (hsize : qSize s q ≠ 0) (hlev : 0 < qLevel s q)
    (hok : s.eccAt mcQue (qAddr s q 0) = .ok) : (qPopWith s q push).2 = qDropWith s q push := by
  unfold qPopWith
  rw [if_neg hsize, if_neg (by omega), qFetch_of_ok hok]

/-! ## A word moved (R28, R63) -/

theorem queueMove_word {s : State} {qa qb : Nat} (hsa : qSize s qa ≠ 0) (hsb : qSize s qb ≠ 0) (hca : qCons s qa = epEngine)
    (hpb : qProd s qb = epEngine) (hla : 0 < qLevel s qa) (hlb : qLevel s qb < qSize s qb) :
    queueMove qa qb s = if qa = qb then queueTurn qa s else qPushIn (qPopOut s qa).2 qb (qPopOut s qa).1 := by
  unfold queueMove
  rw [if_neg (by simp [hsa, hsb]), if_neg (by simp [hca, hpb]), if_neg (by omega), if_neg (by omega)]

/-- A pop's read touches no level: it counts at most an error of the word. -/
theorem qLevel_qFetch (s : State) (q k : Nat) : qLevel (qFetch s q k).2 q = qLevel s q := by
  have hded : ∀ a, ∀ t : State, t.reg (Reg.queQLevel q) = s.reg (Reg.queQLevel q) →
      (t.dedEvent mcQue a).reg (Reg.queQLevel q) = s.reg (Reg.queQLevel q) := fun a t ht => by
    unfold State.dedEvent
    rw [reg_setReg, if_neg, reg_orReg, if_neg, reg_satRf, if_neg, ht] <;>
      simp only [Reg.queQLevel, Reg.tteDedAddr, Reg.tteEccStat, Reg.tteEccCode, mcQue] <;> omega
  unfold qFetch
  dsimp only
  split
  · rfl
  · refine qLevel_congr ?_
    unfold State.secEvent
    rw [reg_orReg, if_neg, reg_satRf, if_neg] <;> simp only [Reg.queQLevel, Reg.tteEccStat, Reg.tteEccCode, mcQue] <;> omega
  · refine qLevel_congr ?_
    unfold qDed
    dsimp only
    rw [reg_logOnce, reg_logOnce, hded]
    · rw [reg_orReg, if_neg, reg_orReg, if_neg, reg_satRf, if_neg] <;>
        simp only [Reg.queQLevel, Reg.queEvt, Reg.queQStat, Reg.queQDed] <;> omega
    all_goals simp only [Reg.queQLevel, Reg.logEvt]; omega

theorem qLevel_queueTurn (s : State) (q : Nat) : qLevel (queueTurn q s) q = qLevel s q :=
  (qLevel_of_regs_eq (s := (qFetch s q 0).2) rfl q).trans (qLevel_qFetch s q 0)

/-! ## The head cell (R434) -/

theorem exec_headCellRefill (q : Fin 64) {s : State} (hprog : s.boot.prog = false) :
    exec (.headCellRefill q) s = .next (headRefill q.val s) := by
  have hexec : exec (.headCellRefill q) s = .next (if s.boot.prog then s else headRefill q.val s) := rfl
  rw [hexec, if_neg (by simp [hprog])]

theorem headRefill_word {s : State} {q : Nat} (hsize : qSize s q ≠ 0) (hcons : qCons s q = epHost) (hplace : (sget [] s.qcell q).length < 2)
    (hmore : (sget [] s.qcell q).length < qLevel s q) (hok : s.eccAt mcQue (qAddr s q (sget [] s.qcell q).length) = .ok) :
    sget [] (headRefill q s).qcell q = sget [] s.qcell q ++ [memW s.quem (qAddr s q (sget [] s.qcell q).length)] := by
  unfold headRefill
  dsimp only
  rw [if_pos ⟨hsize, hcons, hplace, hmore⟩, qFetch_of_ok hok]
  exact sget_sset_same ..

/-- The host, the consumer, reads the word in the head cell while the producer pushes a word (R28). -/
theorem dataPortLow_head_push {s : State} {q : Nat} {v w : Word} {ws : List Word} (hsize : qSize s q ≠ 0) (hcons : qCons s q = epHost)
    (hcell : sget [] s.qcell q = v :: ws) :
    dataPortLow q (some w) s = (qSwap { s with qcell := sset [] s.qcell q ws } q w).drive (half v 0)
      (some (Reg.queQData q + 2, half v 1)) s.host.latch64 := by
  have hpop : cellPop q (some w) s = (v, qSwap { s with qcell := sset [] s.qcell q ws } q w) := by
    unfold cellPop
    rw [hcell]
    rfl
  unfold dataPortLow
  rw [if_neg hsize, if_pos hcons, hpop]

/-- Settles O22: by the named end each push stores its word at the tail and each pop moves the head on. -/
theorem queueOperations : Obligations.QueueOperations := by
  refine ⟨fun i d qa s hwf hgo hsize hcons hlev hok => ?qpopWord, fun i d qa s hwf hgo => ?qpop, fun i d qa s hwf hgo => ?qpush,
    fun i qa qb s hwf hgo => ?qmov, fun i d qa s hwf hgo hsize hprod hroom hmax => ?qpushRoom,
    fun i qa qb s hwf hgo hne hsa hsb hca hpb hla hlb hmax hok => ?qmovWord,
    fun i qa qb s hwf hgo heq hsize hcons hprod hlev hroom => ?qmovSelf,
    fun q island unit ws s hsize hprod hroom hmax => ?islandPush,
    fun q island unit s hsize hcons hlev hok => ?islandPop,
    fun q island unit push w s hpush hsize hcons hlev hok => ?islandSwap,
    fun q island unit s hsize hcons hempty => ?islandEmpty,
    fun q gap push w v ws s hpush hgap hsize hcons hcell => ?hostSwap,
    fun q w s hsize hprod hroom hmax hprog => ?hostPush,
    fun q gap w ws s hgap hsize hcons hcell => ?hostPop,
    fun q s hsize hcons hplace hmore hok hprog => ?refill⟩
  case qpopWord =>
    have hexec := exec_of_issueGoes hwf hgo rfl
    refine ⟨_, hexec, (execQpop_keeps i d qa (sub_refl _) (Keeps.refl _ s)).frame hexec rfl, ?_⟩
    have hpop : qPop (s.land i.cycle) epEngine qa.val = (memW s.quem (qAddr s qa.val 0), qDrop (s.land i.cycle) qa.val) := by
      rw [qPop_word (by rwa [qSize_land]) (by rwa [qCons_land]) (by rwa [qLevel_land]) (by rwa [eccAt_land, qAddr_land]), land_quem,
        qAddr_land]
    dsimp only
    rw [hpop]
    have heng : (qDrop (s.land i.cycle) qa.val).eng = (s.land i.cycle).eng :=
      (qDrop_keeps qa.val (sub_refl _) (Keeps.refl _ _)).eng rfl
    refine ⟨?_, ?_, ?_⟩
    · unfold resultIn
      rw [← heng]
      rfl
    · exact (qLevel_qDrop _ _).trans (by rw [qLevel_land])
    · exact (quem_qDrop _ _).trans (land_quem s _)
  case qpop =>
    have hexec := exec_of_issueGoes hwf hgo rfl
    exact ⟨_, hexec, (execQpop_keeps i d qa (sub_refl _) (Keeps.refl _ s)).frame hexec rfl, rfl⟩
  case qpush =>
    have hexec := exec_of_issueGoes hwf hgo rfl
    exact ⟨_, hexec, (execQpush_keeps i d qa (sub_refl _) (Keeps.refl _ s)).frame hexec rfl, rfl⟩
  case qmov =>
    have hexec := exec_of_issueGoes hwf hgo rfl
    exact ⟨_, hexec, (execQmov_keeps i qa qb (sub_refl _) (Keeps.refl _ s)).frame hexec rfl, rfl⟩
  case qpushRoom =>
    have hexec := exec_of_issueGoes hwf hgo rfl
    refine ⟨_, hexec, (execQpush_keeps i d qa (sub_refl _) (Keeps.refl _ s)).frame hexec rfl, ?_⟩
    rw [qPush_room _ (by rwa [qSize_land]) (by rwa [qProd_land])]
    obtain ⟨hquem, hlevel, -, -, -, -⟩ := wordPushed_qPushIn (s := s.land i.cycle) (q := qa.val) ((s.land i.cycle).rw d.val)
      (by rwa [qSize_land]) (by rwa [qSize_land, qLevel_land]) (by rwa [qLevel_land])
    rw [qAddr_land, qLevel_land, land_quem] at hquem
    rw [qLevel_land] at hlevel
    rw [hquem, hlevel]
    exact ⟨memBytes_memPutW .., rfl, fun x hx => memGet_memPutW_other _ _ _ hx⟩
  case qmovWord =>
    have hexec := exec_of_issueGoes hwf hgo rfl
    refine ⟨_, hexec, (execQmov_keeps i qa qb (sub_refl _) (Keeps.refl _ s)).frame hexec rfl, ?_⟩
    rw [queueMove_word, if_neg (fun h => hne (Fin.ext h)), qPopOut_word, land_quem, qAddr_land]
    all_goals simpa only [qSize_land, qCons_land, qProd_land, qLevel_land, eccAt_land, qAddr_land]
  case qmovSelf =>
    subst heq
    have hexec := exec_of_issueGoes hwf hgo rfl
    have hturn : queueMove qa.val qa.val (s.land i.cycle) = queueTurn qa.val (s.land i.cycle) := by
      rw [queueMove_word, if_pos rfl]
      all_goals simpa only [qSize_land, qCons_land, qProd_land, qLevel_land]
    refine ⟨_, hexec, (execQmov_keeps i qa qa (sub_refl _) (Keeps.refl _ s)).frame hexec rfl, hturn, ?_⟩
    rw [hturn, qLevel_queueTurn, qLevel_land]
  case islandPush =>
    obtain ⟨hlevel, hqrd, hwords, hothers, -⟩ := wordsPushed_qPushAll ws hsize hprod hroom hmax
    exact ⟨_, rfl, (execIslandQueuePush_keeps q island unit ws (sub_refl _) (Keeps.refl _ s)).frame rfl rfl, hlevel, hwords, hothers, hqrd⟩
  case islandPop =>
    have hexec := exec_islandQueuePop q island unit none hsize hcons
    rw [qPopWith_word none hsize hlev hok] at hexec
    have hrd := qrd_qDrop s q.val hsize
    exact ⟨_, hexec, (execIslandQueuePop_keeps q island unit none (sub_refl _) (Keeps.refl _ s)).frame hexec rfl, qLevel_qDrop _ _,
      quem_qDrop _ _, hrd, qAddr_succ hsize (sameShape_qDrop s q.val) hrd⟩
  case islandSwap =>
    subst hpush
    have hexec := exec_islandQueuePop q island unit (some w) hsize hcons
    rw [qPopWith_word (some w) hsize hlev hok] at hexec
    obtain ⟨hregs, hword, hrd, hothers⟩ := qSwap_spec s w hsize
    exact ⟨_, hexec, (execIslandQueuePop_keeps q island unit (some w) (sub_refl _) (Keeps.refl _ s)).frame hexec rfl,
      qLevel_of_regs_eq hregs _, hregs, hword, hrd, hothers⟩
  case islandEmpty =>
    have hexec := exec_islandQueuePop q island unit none hsize hcons
    have hpop : (qPopWith s q.val none).2 = s.orReg (Reg.queQStat q.val) 1 := by
      unfold qPopWith
      rw [if_neg hsize, if_pos hempty]
      rfl
    rw [hpop] at hexec
    exact ⟨_, hexec, (execIslandQueuePop_keeps q island unit none (sub_refl _) (Keeps.refl _ s)).frame hexec rfl,
      rb_orReg_same _ _ 1 0 (by decide), (qLevel_orReg_stat s q.val 1).trans hempty, rfl, rfl⟩
  case hostSwap =>
    subst hpush
    refine ⟨_, exec_hostDataPortRead q gap (some w) s, dataPortRead_sameBut .., ?_⟩
    rw [dataPortRead_inTime q gap (some w) s hgap, dataPortLow_head_push hsize hcons hcell]
    obtain ⟨hregs, hword, hrd, hothers⟩ := qSwap_spec { s with qcell := sset [] s.qcell q.val ws } w hsize
    exact ⟨rfl, sget_sset_same .., qLevel_of_regs_eq hregs _, hregs, hword, hrd, hothers⟩
  case hostPush =>
    have hexec := exec_hostPush q w hprog
    rw [qPush_room w hsize hprod] at hexec
    obtain ⟨hquem, hlevel, -, -, -, -⟩ := wordPushed_qPushIn w hsize hroom hmax
    refine ⟨_, hexec, (execHostPush_keeps q w (sub_refl _) (Keeps.refl _ s)).frame hexec rfl, ?_⟩
    rw [hquem, hlevel]
    exact ⟨memBytes_memPutW .., rfl, fun x hx => memGet_memPutW_other _ _ _ hx⟩
  case hostPop =>
    refine ⟨_, exec_hostDataPortRead q gap none s, dataPortRead_sameBut .., ?_⟩
    rw [dataPortRead_inTime q gap none s hgap, dataPortLow_head q.val w ws s hsize hcons hcell]
    exact ⟨rfl, rfl, (congrArg (sget [] · q.val) (qcell_qDrop _ _)).trans (sget_sset_same ..), qLevel_qDrop _ _⟩
  case refill =>
    have hexec := exec_headCellRefill q hprog
    exact ⟨_, hexec, (execHeadCellRefill_keeps q (sub_refl _) (Keeps.refl _ s)).frame hexec rfl,
      headRefill_word hsize hcons hplace hmore hok⟩

end Sys2Proof.Machine
end

section
/-! PROOFS. Crossings and the mirror: O23 and O24 fail, each at a state that the statement admits. -/

namespace Sys2Proof.Machine

/-! ## A word that arrives at an inbound port (R17) -/

theorem exec_crossingWordArrival {port : BitVec 11} {w : Word} (hwf : (Instr.crossingWordArrival port w).wf = true) (s : State) :
    exec (.crossingWordArrival port w) s = .next (crossingArrival port.toNat w s) := if_pos hwf

/-- The word that was under way becomes the port's word, and no overrun is counted: its sender has counted it. -/
theorem xcnt_crossingArrival_transit {p : Nat} {w : Word} {s : State} (hin : p % 64 < 32) (htr : (s.port p).transit = true) :
    (crossingArrival p w s).xcnt = s.xcnt := by
  unfold crossingArrival
  simp only [hin, htr, if_true]
  rfl

/-- The reset state with an untaken word in a port of an input island and a second word under way to it. -/
def overtakenPort : State := State.reset.setPort 704 { portEmpty with valid := true, transit := true }

/-- Refutes O23: its clause on the overruns of CROSSING_WORD_ARRIVAL asks for a count at every inbound port that holds an untaken
word. Where a word is under way to the port, the arrival counts none. -/
theorem not_crossingOperations : ¬ Obligations.CrossingOperations := by
  unfold Obligations.CrossingOperations
  intro h
  obtain ⟨-, -, -, -, -, -, -, harrive, -⟩ := h
  obtain ⟨t, hexec, -, -, -, hcount, -⟩ := harrive 704#11 0#32 overtakenPort (by decide) (by decide) (by decide)
  rw [exec_crossingWordArrival (by decide)] at hexec
  rw [← Host.Outcome.next.inj hexec, xcnt_crossingArrival_transit (by decide) (by decide)] at hcount
  exact absurd hcount (by decide)

/-! ## A commit point over a mirror with two entries for one address -/

/-- The reset state about to commit block 2, whose mirror holds two entries for one address: the commit point makes the first one
equal to the unlisted value and drops it. -/
def doubledCell : State :=
  { State.reset with
    eng := { State.reset.eng with w := [(1, 4#32)] }
    mirror := [(0x2FFFC, { c0 := 0#32, c1 := 0#32, sel := true, pend := true }),
      (0x2FFFC, { c0 := 5#32, c1 := 5#32, sel := false, pend := false })] }

/-- The issue of an MSW in cycle 0 of its track, not gated. -/
def issueMsw : Issue := { cycle := 0, track := 3, psel := 0, pinv := false }

theorem exec_msw {i : Issue} {a : Fin 64} {consist : BitVec 16} {s : State} (hwf : (Instr.msw i a consist).wf = true)
    (hgo : issueGoes i s) :
    exec (.msw i a consist) s = .next (mirrorSwitch consist.toNat (fld ((s.land i.cycle).rw a.val) 15 0) (s.land i.cycle)) := by
  rw [exec_msw_of_not_noop hgo.1]
  unfold guarded
  rw [if_pos hwf, issue_of_issueGoes hgo]

theorem mirror_mirrorSwitch (consist mask : Nat) (s : State) :
    (mirrorSwitch consist mask s).mirror = (((bitsOf 16 (mask &&& 0xFFFC)).foldl commitHook s).mswitch (mask &&& 0xFFFC)).mirror :=
  (commitMissed_keeps _ _ (sub_refl _) (Keeps.refl _ _)).mirror rfl

theorem doubledCell_issues : issueGoes issueMsw doubledCell := ⟨by decide, by decide⟩

/-- Refutes O24: the statement admits every state, so also one whose mirror is not canonical. There MSW drops an entry that has
become the unlisted value, and the second entry of the address, not the copy last written, is what the cell shows. -/
theorem not_mirrorScrubAndArm : ¬ Obligations.MirrorScrubAndArm := by
  unfold Obligations.MirrorScrubAndArm
  intro h
  obtain ⟨-, -, hmsw, -⟩ := h
  obtain ⟨t, hexec, -, hshown, -⟩ := hmsw issueMsw 1 0#16 doubledCell (by decide) doubledCell_issues
  have hcell := hshown 0x2FFFC (by decide) (by decide) (by decide) (by decide)
  rw [exec_msw (by decide) doubledCell_issues] at hexec
  unfold State.cell at hcell
  rw [← Host.Outcome.next.inj hexec, mirror_mirrorSwitch] at hcell
  exact absurd hcell (by decide +kernel)

end Sys2Proof.Machine
end

section
/-! PROOFS. The register bus: reads by the engine and writes by the three masters (R3 to R6, R431, R433, R458): O25. -/

namespace Sys2Proof.Machine

/-! ## What a write does by the access code of its register -/

theorem busWrite_sh {m : Master} {a b : Nat} {s : State} (w : Word) (haddr : aliasBase a = some b ∨ aliasBase a = none ∧ a = b)
    (hsh : isSh b = true) (hrel : s.eng.released = true) (hprog : s.boot.prog = false) : busWrite m a w s = s.setShadow b w := by
  have hacc : accOf b = some .sh := by simpa [isSh] using hsh
  have hput : shadowPut m b w s = s.setShadow b w := if_pos hrel
  obtain halias | ⟨halias, rfl⟩ := haddr
  · simp only [busWrite, hprog, halias, hsh, if_true, Bool.false_eq_true, if_false, hput]
  · simp only [busWrite, hprog, halias, hacc, Bool.false_eq_true, if_false, hput]

/-- The RW registers whose write is more than the value. -/
def actingRw : List Nat := [Reg.mtrCalhold, Reg.mtrWcCtrl, Reg.ctlTsCtrl, Reg.parLease, Reg.parGate, Reg.secReq, Reg.secObjCtrl]

theorem rwWrite_plain {m : Master} {a : Nat} (w : Word) (s : State) (hact : a ∉ actingRw) (hblk : a / 0x10000 ≠ 0xC) :
    rwWrite m a w s = plainWrite a w s := by
  simp only [actingRw, List.mem_cons, List.not_mem_nil, or_false, not_or] at hact
  obtain ⟨h1, h2, h3, h4, h5, h6, h7⟩ := hact
  have hbyte : ¬ (0xC0040 ≤ a ∧ a < 0xC0080) := by omega
  have halm : ¬ (0xC0100 ≤ a ∧ a < 0xC0180 ∧ a % 16 = 12) := by omega
  unfold rwWrite
  rw [if_neg h1, if_neg h2, if_neg h3, if_neg h4, if_neg h5, if_neg h6, if_neg h7, if_neg hbyte, if_neg halm]

theorem busWrite_rw {m : Master} {a : Nat} {s : State} (w : Word) (halias : aliasBase a = none) (hacc : accOf a = some .rw)
    (hact : a ∉ actingRw) (hblk : a / 0x10000 ≠ 0xC) (hprog : s.boot.prog = false) : busWrite m a w s = plainWrite a w s := by
  simp only [busWrite, hprog, halias, hacc, Bool.false_eq_true, if_false, rwWrite_plain w s hact hblk]

theorem busWrite_w1c {m : Master} {a : Nat} {s : State} (w : Word) (halias : aliasBase a = none) (hacc : accOf a = some .w1c)
    (hpf : a ≠ Reg.ttePfStat) (hprog : s.boot.prog = false) :
    busWrite m a w s = s.setReg a (s.reg a &&& ~~~(w &&& w1cBits a)) := by
  simp only [busWrite, hprog, halias, hacc, Bool.false_eq_true, if_false, w1cWrite, hpf]

theorem busWrite_ro {m : Master} {a : Nat} (w : Word) (s : State) (halias : aliasBase a = none) (hacc : accOf a = some .ro) :
    busWrite m a w s = s := by
  simp only [busWrite, halias, hacc, ite_self]

theorem w1cSet_setReg {a : Nat} (w : Word) (s : State) (hpf : a ≠ Reg.ttePfStat) :
    w1cSet a w s = s.setReg a (s.reg a ||| (w &&& w1cBits a)) := if_neg hpf

theorem busWrite_setAlias {a b : Nat} {s : State} (w : Word) (halias : aliasBase a = some b) (hsh : isSh b = false)
    (hacc : accOf b = some .w1c) (hprog : s.boot.prog = false) : busWrite .engine a w s = w1cSet b w s := by
  simp only [busWrite, hprog, halias, hsh, hacc, Bool.false_eq_true, if_false, and_self, if_true]

theorem accOf_sysCommit : accOf Reg.sysCommit = some .wo := by decide +kernel

theorem busWrite_sysCommit {m : Master} {s : State} (w : Word) (hrel : s.eng.released = true) (hprog : s.boot.prog = false) :
    busWrite m Reg.sysCommit w s = s.orReg Reg.sysCommitPend (fld w 15 0) := by
  have halias : aliasBase Reg.sysCommit = none := by decide
  have hput : woWrite m Reg.sysCommit w s = commitPut m w s := rfl
  simp only [busWrite, hprog, halias, accOf_sysCommit, Bool.false_eq_true, if_false, hput, commitPut, commitRequest, hrel, if_true]

/-! ## Frames of one register -/

theorem setReg_frame (s : State) (a : Nat) (v : Word) : s.regsBut [a] (s.setReg a v) :=
  setReg_regsBut v (by simp) (regsBut_refl _ _)

theorem reg_setReg_same (s : State) (a : Nat) (v : Word) : (s.setReg a v).reg a = v := by
  rw [reg_setReg, if_pos rfl]

/-! ## Writes of one core cycle (R6) -/

theorem sset_sset {α : Type} [DecidableEq α] (d : α) (l : Sparse α) (a : Nat) (u v : α) : sset d (sset d l a u) a v = sset d l a v := by
  have hmid : ∀ p : Nat × α → Bool, p (a, u) = false → (if u = d then [] else [(a, u)]).filter p = [] := by
    intro p hp
    split <;> simp [hp]
  have hlow : ∀ x : Nat × α, (decide (x.1 < a) && decide (a < x.1)) = false := by
    intro x
    simp only [Bool.and_eq_false_iff, decide_eq_false_iff_not]
    omega
  have hhigh : ∀ x : Nat × α, (decide (a < x.1) && decide (x.1 < a)) = false := fun x => by rw [Bool.and_comm, hlow x]
  simp [sset, List.filter_append, List.filter_filter, hmid, hlow, hhigh]

theorem setReg_setReg (s : State) (a : Nat) (u v : Word) : (s.setReg a u).setReg a v = s.setReg a v := by
  unfold State.setReg
  rw [sset_sset]

theorem setShadow_setShadow (s : State) (a : Nat) (u v : Word) : (s.setShadow a u).setShadow a v = s.setShadow a v := by
  unfold State.setShadow
  rw [sset_sset]

/-- Where each master's write replaces the one before, the last one made stands: the host's, else the fabric's, else the
engine's. -/
theorem sameCycleWrites_last {a : Nat} {put : Word → State → State} {ok : State → Prop} {e f h : Option Word} {v : Word} {s : State}
    (hbus : ∀ m u t, ok t → busWrite m a u t = put u t) (hok : ∀ u t, ok t → ok (put u t))
    (hover : ∀ u u' t, put u' (put u t) = put u' t) (hv : (h <|> f <|> e) = some v) (hs : ok s) :
    sameCycleWrites a e f h s = put v s := by
  have hmaster : ∀ m o t, ok t → masterWrite m a o t = (o.elim t (fun u => put u t)) := by
    rintro m (- | u) t ht
    · rfl
    · exact hbus m u t ht
  have hokE : ok (masterWrite .engine a e s) := by
    rw [hmaster _ _ _ hs]
    cases e <;> simp [hs, hok]
  have hokF : ok (masterWrite .fabric a f (masterWrite .engine a e s)) := by
    rw [hmaster _ _ _ hokE]
    cases f <;> simp [hokE, hok]
  unfold sameCycleWrites
  rw [hmaster _ _ _ hokF, hmaster _ _ _ hokE, hmaster _ _ _ hs]
  cases h <;> cases f <;> cases e <;> simp_all

theorem sameCycleWrites_ro {a : Nat} (e f h : Option Word) (s : State) (halias : aliasBase a = none) (hacc : accOf a = some .ro) :
    sameCycleWrites a e f h s = s := by
  have hmaster : ∀ m o t, masterWrite m a o t = t := by
    rintro m (- | u) t
    · rfl
    · exact busWrite_ro u t halias hacc
  unfold sameCycleWrites
  rw [hmaster, hmaster, hmaster]

theorem sameCycleWrites_sh {a b : Nat} {e f h : Option Word} {v : Word} {s : State}
    (haddr : aliasBase a = some b ∨ aliasBase a = none ∧ a = b) (hsh : isSh b = true) (hrel : s.eng.released = true)
    (hprog : s.boot.prog = false) (hv : (h <|> f <|> e) = some v) : sameCycleWrites a e f h s = s.setShadow b v :=
  sameCycleWrites_last (put := fun u t => t.setShadow b u) (ok := fun t => t.eng.released = true ∧ t.boot.prog = false)
    (fun _ u _ ht => busWrite_sh u haddr hsh ht.1 ht.2) (fun _ _ ht => ht) (fun u u' t => setShadow_setShadow t b u u') hv ⟨hrel, hprog⟩

theorem sameCycleWrites_rw {a : Nat} {e f h : Option Word} {v : Word} {s : State} (halias : aliasBase a = none)
    (hacc : accOf a = some .rw) (hact : a ∉ actingRw) (hblk : a / 0x10000 ≠ 0xC) (hprog : s.boot.prog = false)
    (hv : (h <|> f <|> e) = some v) : sameCycleWrites a e f h s = plainWrite a v s :=
  sameCycleWrites_last (put := plainWrite a) (ok := fun t => t.boot.prog = false)
    (fun _ u _ ht => busWrite_rw u halias hacc hact hblk ht) (fun _ _ ht => ht) (fun _ _ t => setReg_setReg t a _ _) hv hprog

/-! ## What landing leaves -/

theorem land_boot (s : State) (c : Nat) : (s.land c).boot = s.boot := (land_keeps c (sub_refl _) (Keeps.refl _ s)).boot rfl

theorem land_regs (s : State) (c : Nat) : (s.land c).regs = s.regs := (land_keeps c (sub_refl _) (Keeps.refl _ s)).regs rfl

theorem eng_released_landOne (s : State) (r : Pend) : (s.landOne r).eng.released = s.eng.released := by
  unfold State.landOne State.putP State.putW
  split <;> split <;> rfl

theorem eng_released_landAll (l : List Pend) (s : State) : (s.landAll l).eng.released = s.eng.released := by
  induction l generalizing s with
  | nil => rfl
  | cons r l ih => exact (ih _).trans (eng_released_landOne s r)

theorem eng_released_land (s : State) (c : Nat) : (s.land c).eng.released = s.eng.released := eng_released_landAll _ _

/-! ## Reads by the engine (R44) -/

theorem engineRead_of_readable {a : Nat} (s : State) (halias : aliasBase a = none)
    (hacc : accOf a = some .ro ∨ accOf a = some .rw ∨ accOf a = some .sh ∨ accOf a = some .w1c) :
    engineRead a s = (s.regNow a, s) := by
  unfold engineRead busRead
  rw [halias]
  obtain h | h | h | h := hacc <;> rw [h]

theorem engineRead_of_unreadable {a : Nat} (s : State) (halias : aliasBase a = none) (hacc : accOf a = none ∨ accOf a = some .wo) :
    engineRead a s = (0#32, s) := by
  unfold engineRead busRead
  rw [halias]
  obtain h | h := hacc <;> rw [h]

/-! ## The commands -/

/-- What a write on the register bus may touch. -/
theorem busWrite_frame (m : Master) (a : Nat) (w : Word) (s : State) : s.sameBut w1cParts (busWrite m a w s) :=
  (busWrite_keeps m a w (sub_refl _) (Keeps.refl _ s)).frame rfl

theorem sameCycleWrites_frame (a : Nat) (e f h : Option Word) (s : State) : s.sameBut w1cParts (sameCycleWrites a e f h s) :=
  (sameCycleWrites_keeps a e f h (sub_refl _) (Keeps.refl _ s)).frame rfl

theorem rst_frame (m : Master) (a : Nat) (w : Word) (c : Nat) (s : State) : s.sameBut w1cParts (busWrite m a w (s.land c)) :=
  (busWrite_keeps m a w (sub_of (sub_refl _) rfl) (land_keeps c (sub_of (sub_refl 3844066872430) rfl) (Keeps.refl _ s))).frame rfl

theorem rld_frame (a c : Nat) (i : Issue) (d : Nat) (v : Word) (s : State) :
    s.sameBut [.regs, .logm, .ecc, .eng, .logNext, .logCompl, .logCount, .logged] ((engineRead a (s.land c)).2.result i 4 d v) :=
  (result_keeps _ _ _ _ (sub_of (sub_refl 3935266) rfl)
    (engineRead_keeps _ (sub_of (sub_refl _) rfl) (land_keeps _ (sub_of (sub_refl _) rfl) (Keeps.refl _ s)))).frame rfl

theorem exec_rld {i : Issue} {d a : Fin 64} {imm : BitVec 7} {s : State} (hwf : (Instr.rld i d a imm).wf = true) (hgo : issueGoes i s) :
    exec (.rld i d a imm) s =
      .next ((engineRead (hostAddr (addrM (s.land i.cycle) a.val imm)) (s.land i.cycle)).2.result i 4 d.val
        (engineRead (hostAddr (addrM (s.land i.cycle) a.val imm)) (s.land i.cycle)).1) := exec_of_issueGoes hwf hgo rfl

theorem exec_rst {i : Issue} {d a : Fin 64} {imm : BitVec 7} {s : State} (hwf : (Instr.rst i d a imm).wf = true) (hgo : issueGoes i s) :
    exec (.rst i d a imm) s =
      .next (busWrite .engine (hostAddr (addrM (s.land i.cycle) a.val imm)) ((s.land i.cycle).rw d.val) (s.land i.cycle)) :=
  exec_of_issueGoes hwf hgo rfl

theorem exec_registerWrite (addr : BitVec 20) (e f h : Option Word) (s : State) :
    exec (.registerWrite addr e f h) s = .next (sameCycleWrites addr.toNat e f h s) := rfl

theorem exec_shadowWrite (m : Master) (addr : BitVec 20) (w : Word) (s : State) :
    exec (.shadowWrite m addr w) s = .next (busWrite m addr.toNat w s) := rfl

theorem exec_setAliasWrite (addr : BitVec 20) (w : Word) (s : State) :
    exec (.setAliasWrite addr w) s = .next (busWrite .engine addr.toNat w s) := rfl

theorem exec_sysCommit (m : Master) (w : Word) (s : State) : exec (.sysCommit m w) s = .next (busWrite m Reg.sysCommit w s) := rfl

/-- Of a W1C register the write by one master is the clear of its bits. -/
theorem registerWrite_w1c {addr : BitVec 20} {e f h : Option Word} {m : Master} {w : Word} {s : State}
    (hone : sameCycleWrites addr.toNat e f h s = busWrite m addr.toNat w s) (halias : aliasBase addr.toNat = none)
    (hacc : accOf addr.toNat = some .w1c) (hpf : addr.toNat ≠ Reg.ttePfStat) (hprog : s.boot.prog = false) :
    ∃ t, exec (.registerWrite addr e f h) s = .next t ∧ s.sameBut w1cParts t ∧
      t.reg addr.toNat = s.reg addr.toNat &&& ~~~(w &&& w1cBits addr.toNat) ∧ s.regsBut [addr.toNat] t := by
  refine ⟨_, exec_registerWrite .., sameCycleWrites_frame .., ?_, ?_⟩
  · rw [hone, busWrite_w1c w halias hacc hpf hprog, reg_setReg_same]
  · rw [hone, busWrite_w1c w halias hacc hpf hprog]
    exact setReg_frame _ _ _

/-- Settles O25: the access code of the address decides what each read and write does, and the last write of a cycle stands. -/
theorem registerAccess : Obligations.RegisterAccess := by
  unfold Obligations.RegisterAccess
  refine ⟨?_, ?_, ?_, ?_, ?_, ?_, ?_, ?_, ?_, ?_, ?_, ?_, ?_, ?_, ?_, ?_⟩
  · intro i d a imm s hwf hgo halias hacc
    refine ⟨_, exec_rld hwf hgo, ?_, ?_⟩
    · exact rld_frame ..
    · rw [engineRead_of_readable _ halias hacc]
      rfl
  · intro i d a imm s hwf hgo
    refine ⟨_, exec_rld hwf hgo, ?_, rfl, fun halias hacc => ?_⟩
    · exact rld_frame ..
    · rw [engineRead_of_unreadable _ halias hacc]
      rfl
  · intro i d a imm s hwf hgo
    exact ⟨_, exec_rst hwf hgo, rst_frame .., rfl⟩
  · intro i d a imm s hwf hgo halias hacc hrel hprog
    refine ⟨_, exec_rst hwf hgo, rst_frame .., ?_⟩
    rw [busWrite_sh (s := s.land i.cycle) _ (.inr ⟨halias, rfl⟩) (by simp [isSh, hacc]) ((eng_released_land s _).trans hrel)
      ((congrArg Boot.prog (land_boot s _)).trans hprog)]
    exact ⟨shadow_setShadow_same .., land_regs s _⟩
  · intro m addr w b s haddr hsh hrel hprog
    refine ⟨_, exec_shadowWrite .., busWrite_frame .., ?_⟩
    rw [busWrite_sh w haddr hsh hrel hprog]
    exact ⟨shadow_setShadow_same .., rfl, fun a ha => sget_sset_other _ _ _ _ ha⟩
  · intro addr e f h s
    exact ⟨_, exec_registerWrite .., sameCycleWrites_frame .., rfl⟩
  · intro addr e f h v s halias hacc hact hblk hv hprog
    refine ⟨_, exec_registerWrite .., sameCycleWrites_frame .., ?_⟩
    rw [sameCycleWrites_rw halias hacc hact hblk hprog hv]
    exact ⟨reg_setReg_same .., setReg_frame _ _ _⟩
  · intro addr e f h v b s haddr hsh hrel hv hprog
    refine ⟨_, exec_registerWrite .., sameCycleWrites_frame .., ?_⟩
    rw [sameCycleWrites_sh haddr hsh hrel hprog hv]
    exact ⟨shadow_setShadow_same .., rfl, fun a ha => sget_sset_other _ _ _ _ ha⟩
  · intro addr w s halias hacc hpf hprog
    exact registerWrite_w1c (m := .engine) rfl halias hacc hpf hprog
  · intro addr w s halias hacc hpf hprog
    exact registerWrite_w1c (m := .fabric) rfl halias hacc hpf hprog
  · intro addr w s halias hacc hpf hprog
    exact registerWrite_w1c (m := .host) rfl halias hacc hpf hprog
  · intro addr e f h s halias hacc
    exact ⟨_, exec_registerWrite .., sameCycleWrites_frame .., sameCycleWrites_ro e f h s halias hacc⟩
  · intro addr w s
    exact ⟨_, exec_setAliasWrite .., busWrite_frame .., rfl⟩
  · intro addr w b s halias hsh hacc hpf hprog
    refine ⟨_, exec_setAliasWrite .., busWrite_frame .., ?_⟩
    rw [busWrite_setAlias w halias hsh hacc hprog, w1cSet_setReg w s hpf]
    exact ⟨reg_setReg_same .., setReg_frame _ _ _⟩
  · intro m addr w hw s halias hacc hpf hprog
    refine ⟨_, exec_w1cClear .., w1cClear_sameBut .., ?_⟩
    have hreg := reg_setReg_same s addr.toNat (s.reg addr.toNat &&& ~~~(w &&& w1cBits addr.toNat))
    rw [w1cClear_of_w1c hacc, busWrite_w1c w halias hacc hpf hprog, w1cSet_setReg hw _ hpf, hreg, setReg_setReg]
    exact ⟨reg_setReg_same _ _ _, setReg_frame _ _ _⟩
  · intro m w s hrel hprog
    refine ⟨_, exec_sysCommit .., busWrite_frame .., ?_⟩
    rw [busWrite_sysCommit w hrel hprog]
    exact ⟨reg_setReg_same .., setReg_frame _ _ _⟩

end Sys2Proof.Machine
end

section
/-! PROOFS. The commands that clear counts, advance the log and poll the host port (R66, R67, R414, R423): O26. -/

namespace Sys2Proof.Machine

theorem bit_eq_testBit (w : Word) (n : Nat) : bit w n = w.toNat.testBit n := rfl

theorem mem_bitsOf {n m k : Nat} : k ∈ bitsOf n m ↔ k < n ∧ m.testBit k = true := by
  unfold bitsOf
  rw [List.mem_filter, List.mem_range]

/-- Registers cleared one behind the other: each listed one reads 0, every other as before. -/
theorem reg_foldl_clear (f : Nat → Nat) (l : List Nat) (s : State) (a : Nat) :
    (l.foldl (fun t n => t.setReg (f n) 0#32) s).reg a = if a ∈ l.map f then 0#32 else s.reg a := by
  induction l generalizing s with
  | nil => rfl
  | cons n l ih =>
    rw [List.foldl_cons, ih, reg_setReg, List.map_cons]
    by_cases hl : a ∈ l.map f <;> by_cases hn : a = f n <;> simp [hl, hn]

theorem reg_eccClr (w : Word) (s : State) {n : Nat} (hn : n < 6) :
    (eccClr w s).reg (Reg.tteEccCode + 4 * n) = if bit w n then 0#32 else s.reg (Reg.tteEccCode + 4 * n) := by
  unfold eccClr
  rw [reg_foldl_clear (fun k => Reg.tteEccCode + 4 * k)]
  have hmem : Reg.tteEccCode + 4 * n ∈ (bitsOf 6 w.toNat).map (fun k => Reg.tteEccCode + 4 * k) ↔ bit w n = true := by
    rw [List.mem_map, bit_eq_testBit]
    constructor
    · rintro ⟨k, hk, heq⟩
      obtain rfl : k = n := by omega
      exact (mem_bitsOf.1 hk).2
    · exact fun h => ⟨n, mem_bitsOf.2 ⟨hn, h⟩, rfl⟩
  simp only [hmem]

theorem exec_tteEccClr (w : Word) {s : State} (hprog : s.boot.prog = false) : exec (.tteEccClr w) s = .next (eccClr w s) := by
  show Host.Outcome.next (if s.boot.prog then s else eccClr w s) = _
  rw [if_neg (by simp [hprog])]

theorem exec_clrSel {s : State} (hprog : s.boot.prog = false) : exec .clrSel s = .next (xclrSel s) := by
  show Host.Outcome.next (if s.boot.prog then s else xclrSel s) = _
  rw [if_neg (by simp [hprog])]

theorem exec_clrAll {s : State} (hprog : s.boot.prog = false) : exec .clrAll s = .next (xclrAll s) := by
  show Host.Outcome.next (if s.boot.prog then s else xclrAll s) = _
  rw [if_neg (by simp [hprog])]

theorem exec_queClrCnt (q : Fin 64) {s : State} (hprog : s.boot.prog = false) :
    exec (.queClrCnt q) s = .next (s.setReg (Reg.queQCnt q.val) 0#32) := by
  show Host.Outcome.next (if s.boot.prog then s else qClrCnt q.val s) = _
  rw [if_neg (by simp [hprog])]
  rfl

theorem exec_queClrPeak (q : Fin 64) {s : State} (hprog : s.boot.prog = false) :
    exec (.queClrPeak q) s = .next (s.setRf (Reg.queQLevel q.val) 30 16 (qLevel s q.val)) := by
  show Host.Outcome.next (if s.boot.prog then s else qClrPeak q.val s) = _
  rw [if_neg (by simp [hprog])]
  rfl

theorem exec_queClrDed (q : Fin 64) {s : State} (hprog : s.boot.prog = false) :
    exec (.queClrDed q) s = .next (s.setReg (Reg.queQDed q.val) 0#32) := by
  show Host.Outcome.next (if s.boot.prog then s else qClrDed q.val s) = _
  rw [if_neg (by simp [hprog])]
  rfl

theorem exec_logAdvance (m : Master) (w : Word) {s : State} (hprog : s.boot.prog = false) :
    exec (.logAdvance m w) s = .next (logAdvance m w s) := by
  show Host.Outcome.next (if s.boot.prog then s else logAdvance m w s) = _
  rw [if_neg (by simp [hprog])]

theorem exec_hpvPoll {s : State} (hprog : s.boot.prog = false) : exec .hpvPoll s = .next (hpvPoll s) := by
  show Host.Outcome.next (if s.boot.prog then s else hpvPoll s) = _
  rw [if_neg (by simp [hprog])]

/-! ## LOG_ADVANCE (R414) -/

/-- The parts that LOG_ADVANCE may touch. -/
def logAdvanceParts : List Part := [.regs, .eng, .logNext, .logCompl, .logCount]

theorem logAdvance_frame (m : Master) (w : Word) (s : State) : s.sameBut logAdvanceParts (logAdvance m w s) :=
  (logAdvance_keeps m w (sub_refl _) (Keeps.refl _ s)).frame rfl

/-- The engine's write of LOG_NEXT, with the record in its slot, advances the log by one record. -/
theorem logAdvance_accepted {w : Word} {s : State} (hw : w = s.logNext) (hslot : memW s.logm (32 * (w.toNat % 8192)) = w)
    (hok : s.eccAt mcLog (32 * (w.toNat % 8192)) = .ok) (hok12 : s.eccAt mcLog (32 * (w.toNat % 8192) + 12) = .ok) :
    logAdvance .engine w s = s.logBump.noteSev (fld (memW s.logm (32 * (w.toNat % 8192) + 12)) 19 16) := by
  have hread := readLog_of_ok hok
  have hread12 := readLog_of_ok hok12
  unfold logAdvance
  simp only [hread, hread12, hslot]
  rw [if_neg (by simp), if_pos ⟨hw, trivial⟩]

/-- From s to t a write of LOG_ADVANCE was refused: ADV_BAD is set and the log stands. -/
structure AdvanceRefused (s t : State) : Prop where
  bad : t.rb Reg.logEvt 1 = true
  next : t.logNext = s.logNext
  compl : t.logCompl = s.logCompl
  count : t.logCount = s.logCount
  log : t.logm = s.logm

theorem advRefused_refused {r s : State} (w : Word) (h : Keeps 2 r s) : AdvanceRefused r (advRefused w s) :=
  ⟨rb_orReg_same s Reg.logEvt 2 1 (by decide), h.logNext rfl, h.logCompl rfl, h.logCount rfl, h.logm rfl⟩

theorem logAdvance_refused {m : Master} {w : Word} {s : State} (h : m ≠ .engine ∨ w ≠ s.logNext) :
    AdvanceRefused s (logAdvance m w s) := by
  have hread : Keeps 2 s (readLog (32 * (w.toNat % 8192)) s).2 := readLog_keeps _ (sub_refl _) (Keeps.refl _ s)
  have hread12 := readLog_keeps (32 * (w.toNat % 8192) + 12) (sub_refl _) hread
  unfold logAdvance
  simp only
  split
  next => exact advRefused_refused w (Keeps.refl _ s)
  next hm =>
    rw [if_neg (fun hacc => (h.resolve_left hm) hacc.1)]
    exact advRefused_refused w hread12

/-! ## HPV_POLL (R423) -/

/-- The three comparisons leave all but the registers and the log. -/
theorem hpvCheck_seen (s : State) :
    (hpvCheck s).host = { s.host with seen0 := s.reg Reg.logHpv0, seen1 := s.reg Reg.logHpv1 } := by
  have hkinds := hpvKind_keeps 2 (fld (s.reg Reg.logHpv1) 15 0) (fld s.host.seen1 15 0) (sub_refl _)
    (hpvKind_keeps 1 (fld (s.reg Reg.logHpv0) 31 16) (fld s.host.seen0 31 16) (sub_refl _)
      (hpvKind_keeps 0 (fld (s.reg Reg.logHpv0) 15 0) (fld s.host.seen0 15 0) (sub_refl _) (Keeps.refl _ s)))
  unfold hpvCheck
  simp only [hkinds.host rfl]

/-- The state in which a poll has been counted: 10 ms more of operating time, and a major cycle at each hundredth. -/
def polled (s : State) : State :=
  { s with
    opUs := s.opUs + 10000
    logged := if s.host.polls = 0 then [] else s.logged
    host := { s.host with polls := (s.host.polls + 1) % 100 } }

theorem hpvPoll_eq {s : State} (hrel : s.eng.released = false) : hpvPoll s = hpvCheck (polled s) := by
  unfold hpvPoll
  rw [if_neg (by simp [hrel])]
  rfl

theorem opUs_hpvCheck (s : State) : (hpvCheck s).opUs = s.opUs := (hpvCheck_keeps (sub_refl _) (Keeps.refl _ s)).opUs rfl

/-- Settles O26: each command is the one change of its table row, and LOG_ADVANCE one of two outcomes. -/
theorem countAndLogCommands : Obligations.CountAndLogCommands := by
  unfold Obligations.CountAndLogCommands
  refine ⟨?_, ?_, ?_, ?_, ?_, ?_, ?_, ?_, ?_⟩
  · intro w n s hn hprog
    exact ⟨_, exec_tteEccClr w hprog, (eccClr_keeps w (sub_refl _) (Keeps.refl _ s)).frame rfl, reg_eccClr w s hn⟩
  · intro s hprog
    exact ⟨_, exec_clrSel hprog, (xclrSel_keeps (sub_refl _) (Keeps.refl _ s)).frame rfl, sget_sset_same ..,
      fun p hp => sget_sset_other _ _ _ _ hp⟩
  · intro s hprog
    exact ⟨_, exec_clrAll hprog, (xclrAll_keeps (sub_refl _) (Keeps.refl _ s)).frame rfl, rfl⟩
  · intro q s hprog
    exact ⟨_, exec_queClrCnt q hprog, (setReg_keeps _ _ (sub_refl _) (Keeps.refl _ s)).frame rfl, reg_setReg_same .., setReg_frame _ _ _⟩
  · intro q s hprog
    refine ⟨_, exec_queClrPeak q hprog, (setRf_keeps _ _ _ _ (sub_refl _) (Keeps.refl _ s)).frame rfl, ?_, qLevel_setPeak .., setReg_frame _ _ _⟩
    rw [rf_setRf_same _ _ _ _ _ (by decide) (by decide)]
    exact Nat.mod_eq_of_lt (qLevel_lt s q.val)
  · intro q s hprog
    exact ⟨_, exec_queClrDed q hprog, (setReg_keeps _ _ (sub_refl _) (Keeps.refl _ s)).frame rfl, reg_setReg_same .., setReg_frame _ _ _⟩
  · intro w s hw hslot hok hok12 hprog
    refine ⟨_, exec_logAdvance .engine w hprog, logAdvance_frame .., ?_⟩
    rw [logAdvance_accepted hw hslot hok hok12]
    have hsev := noteSev_keeps (fld (memW s.logm (32 * (w.toNat % 8192) + 12)) 19 16) (sub_refl _) (Keeps.refl _ s.logBump)
    exact ⟨hsev.logNext rfl, hsev.logCompl rfl, hsev.logCount rfl, hsev.logm rfl⟩
  · intro m w s hbad hprog
    obtain ⟨hevt, hnext, hcompl, hcount, hlog⟩ := logAdvance_refused hbad
    exact ⟨_, exec_logAdvance m w hprog, logAdvance_frame .., hevt, hnext, hcompl, hcount, hlog⟩
  · intro s hrel hprog
    refine ⟨_, exec_hpvPoll hprog, (hpvPoll_keeps (sub_refl _) (Keeps.refl _ s)).frame rfl, ?_⟩
    rw [hpvPoll_eq hrel, opUs_hpvCheck, hpvCheck_seen]
    exact ⟨rfl, rfl, rfl, rfl⟩

end Sys2Proof.Machine
end

section
/-! PROOFS. The host port's reads through its latches and its two half writes (R7 to R12, R429 to R431): O27. -/

namespace Sys2Proof.Machine

/-- HD's register and latches after the read stays selected: only the selection changes. -/
theorem follow_host (s : State) (a : Nat) : ∃ sel, (s.follow a).host = { s.host with sel := sel } := by
  unfold State.follow
  split
  case h_5 => exact ⟨s.host.sel, rfl⟩
  all_goals exact ⟨some a, rfl⟩

theorem follow_hd (s : State) (a : Nat) : (s.follow a).host.hd = s.host.hd := by
  obtain ⟨sel, h⟩ := follow_host s a
  rw [h]

theorem follow_latch (s : State) (a : Nat) : (s.follow a).host.latch = s.host.latch := by
  obtain ⟨sel, h⟩ := follow_host s a
  rw [h]

theorem follow_latch64 (s : State) (a : Nat) : (s.follow a).host.latch64 = s.host.latch64 := by
  obtain ⟨sel, h⟩ := follow_host s a
  rw [h]

/-- A read start that keeps t_RC. -/
theorem hostRead_inTime {a gap : Nat} (push : Option Word) (s : State) (h : 20 ≤ gap) :
    hostRead a gap push s = if a % 4 = 0 then readLow a push s else readHigh a s := if_neg (by unfold tRc; omega)

/-- The registers that a host read shows through the mirror. -/
def readable (a : Nat) : Prop := accOf a = some .ro ∨ accOf a = some .rw ∨ accOf a = some .sh ∨ accOf a = some .w1c

theorem not_pop_of_readable {a : Nat} (h : readable a) : accOf a ≠ some .pop := by
  obtain h | h | h | h := h <;> rw [h] <;> decide

theorem mirRead_fst {s : State} {a : Nat} (h : s.eccAt mcMir a ≠ .double) : (s.mirRead a).1 = (s.cell a).shown := by
  unfold State.mirRead
  split
  · rfl
  · rfl
  next hd => exact absurd hd h

theorem hostRead32_readable {a : Nat} (s : State) (halias : aliasBase a = none) (hacc : readable a) :
    hostRead32 a s = s.mirRead a := by
  unfold hostRead32 busRead
  rw [if_neg (not_pop_of_readable hacc), halias]
  obtain h | h | h | h := hacc <;> rw [h]

/-- A low-half read of a register drives the low half of one mirror image and latches its high half. -/
theorem readLow_readable {a : Nat} (push : Option Word) {s : State} (halias : aliasBase a = none) (hacc : readable a)
    (hword : isWord0 a = false) (hlatch : latched64 s a = none) (hecc : s.eccAt mcMir a ≠ .double) :
    (readLow a push s).host.hd = half (s.cell a).shown 0 ∧
      (readLow a push s).host.latch = some (a + 2, half (s.cell a).shown 1) := by
  unfold readLow
  rw [if_neg (not_pop_of_readable hacc), if_neg (by simp [hword]), hlatch]
  simp only [follow_hd, follow_latch, State.drive, hostRead32_readable s halias hacc, mirRead_fst hecc, and_self]

theorem readHigh_latched {a : Nat} {v : BitVec 16} {s : State} (hlatch64 : latched64 s a = none) (hlatch : s.host.latch = some (a, v)) :
    readHigh a s = s.drive v none s.host.latch64 := by
  unfold readHigh
  rw [hlatch64, hlatch]
  exact if_pos rfl

theorem readLow_word0 {a : Nat} (push : Option Word) (s : State) (hword : isWord0 a = true) (hacc : accOf a ≠ some .pop) :
    readLow a push s = readWord0 a s := by
  unfold readLow
  rw [if_neg hacc, if_pos hword]

theorem badWrite_inTime {len gap : Nat} {moved : Bool} (hlen : 10 ≤ len) (hgap : 20 ≤ gap) (hmoved : moved = false) :
    badWrite len gap moved = false := by
  unfold badWrite tWp tWc
  simp only [hmoved, Bool.or_false, Bool.or_eq_false_iff, decide_eq_false_iff_not]
  omega

theorem hostWriteLow_inTime {a len gap : Nat} {v : BitVec 16} {moved : Bool} (s : State) (h : badWrite len gap moved = false) :
    hostWriteLow a v len gap moved s = s.hold (some (a, v)) := if_neg (by simp [h])

theorem hostWriteHigh_completes {a b len gap : Nat} {v lo : BitVec 16} {moved : Bool} {s : State} (h : badWrite len gap moved = false)
    (hheld : s.host.held = some (b, lo)) (hb : b + 2 = a) :
    hostWriteHigh a v len gap moved s = busWrite .host b (v ++ lo) (s.hold none) := by
  unfold hostWriteHigh
  rw [if_neg (by simp [h]), hheld]
  exact if_pos hb

/-- Settles O27: a low-half read shows one mirror image, the latches serve the other half, and a high-half write completes. -/
theorem hostPort : Obligations.HostPort := by
  unfold Obligations.HostPort
  refine ⟨?_, ?_, ?_, ?_, ?_⟩
  · intro addr gap s hwf hgap hlow halias hacc hword hlatch hecc
    refine ⟨hostRead addr.toNat gap none s, if_pos hwf, hostRead_sameBut .., ?_⟩
    rw [hostRead_inTime none s hgap, if_pos hlow]
    exact readLow_readable none halias hacc hword hlatch hecc
  · intro addr gap v s hwf hgap hhigh hlatch64 hlatch
    refine ⟨hostRead addr.toNat gap none s, if_pos hwf, hostRead_sameBut .., ?_⟩
    rw [hostRead_inTime none s hgap, if_neg hhigh, readHigh_latched hlatch64 hlatch]
    exact ⟨rfl, rfl⟩
  · intro addr gap s hwf hgap hlow hword hacc
    refine ⟨hostRead addr.toNat gap none s, if_pos hwf, hostRead_sameBut .., ?_⟩
    rw [hostRead_inTime none s hgap, if_pos hlow, readLow_word0 none s hword hacc]
    unfold readWord0
    exact ⟨follow_hd .., follow_latch64 ..⟩
  · intro addr v len gap moved s hwf hlen hgap hmoved
    refine ⟨hostWriteLow addr.toNat v len gap moved s, if_pos hwf, (hostWriteLow_keeps _ _ _ _ _ (sub_refl _) (Keeps.refl _ s)).frame rfl, ?_⟩
    rw [hostWriteLow_inTime s (badWrite_inTime hlen hgap hmoved)]
    rfl
  · intro addr v lo b len gap moved s hwf hlen hgap hmoved hheld hb
    exact ⟨hostWriteHigh addr.toNat v len gap moved s, if_pos hwf, (hostWriteHigh_keeps _ _ _ _ _ (sub_refl _) (Keeps.refl _ s)).frame rfl,
      hostWriteHigh_completes (badWrite_inTime hlen hgap hmoved) hheld hb⟩

end Sys2Proof.Machine
end

section
/-! PROOFS. The register frames of the display's commands: O56 and O60 fail at a state whose open rectangle names a panel that the
module does not have. -/

namespace Sys2Proof.Machine

/-- A rectangle of one common and one segment at a fifth panel. -/
def strayRect : Rect := { panel := 5, com0 := 0, com1 := 0, seg0 := 0, seg1 := 0, word := 0#32, data := [] }

/-- The reset state with the display powered, the stray rectangle open, the same rectangle pending at its panel, and a SEGDATA word
under way to the display. -/
def strayOpen : State :=
  { State.reset with
    lcd := { Lcd.reset with powered := true, opened := some strayRect, panels := [(5, { panel0 with pend := [strayRect] })] }
    ports := [(1376, { portEmpty with transit := true })] }

/-- The word completes the rectangle, which covers the pending one, and DROPPED of the panel's count rises. -/
theorem reg_segdata_strayOpen {s : State} (h : s = strayOpen ∨ s = strayOpen.arriveOut 1376) : (segdata 0#32 s).reg 0xB0610 = 256#32 := by
  obtain rfl | rfl := h <;> decide +kernel

/-- What the display path shows is at the registers of the four panels. -/
theorem reg_lcdShow (s : State) {a : Nat}
    (h : ∀ p, p < 4 → a ≠ Reg.lcdPStat p ∧ a ≠ Reg.lcdPTemp p) (hstat : a ≠ Reg.lcdStat) (hbad : a ≠ Reg.lcdBadwords) :
    (lcdShow s).reg a = s.reg a := by
  unfold lcdShow
  extract_lets st
  have hrep : ∀ t : State, ∀ l, (t.republish l).reg a = t.reg a := fun t l => by
    unfold State.reg
    rw [republish_regs]
  rw [hrep]
  refine reg_publish_of_ne _ _ ?_
  intro e he
  simp only [List.mem_append, List.mem_cons, List.not_mem_nil, or_false, List.mem_flatMap, List.mem_range] at he
  obtain (rfl | rfl) | ⟨p, hp, rfl | rfl⟩ := he
  · exact hstat.symm
  · exact hbad.symm
  · exact (h p hp).1.symm
  · exact (h p hp).2.symm

theorem lcdShow_stray (s : State) : (lcdShow s).reg 0xB0610 = s.reg 0xB0610 := by
  refine reg_lcdShow s (fun p hp => ?_) (by decide) (by decide)
  unfold Reg.lcdPStat Reg.lcdPTemp
  omega

theorem exec_segdata {s : State} (w : Word) (h : s.lcd.powered = true) : exec (.segdata w) s = .next (lcdShow (segdata w s)) :=
  congrArg Host.Outcome.next (if_pos h)

/-- Refutes O60: SEGDATA counts a dropped rectangle at the panel that the open rectangle names, here a fifth one. -/
theorem not_busDisplayClockSecurityRegisterFrames : ¬ Obligations.BusDisplayClockSecurityRegisterFrames := by
  unfold Obligations.BusDisplayClockSecurityRegisterFrames
  intro h
  obtain ⟨-, -, -, -, -, -, -, -, -, -, -, -, -, -, -, -, -, -, -, -, -, -, -, -, -, -, -, -, -, -, -, -, -, -, -, -,
    -, -, -, -, hsegdata, -⟩ := h
  have hreg := hsegdata 0#32 strayOpen _ (exec_segdata 0#32 rfl) 0xB0610 (by decide +kernel)
  rw [lcdShow_stray, reg_segdata_strayOpen (.inl rfl)] at hreg
  exact absurd hreg (by decide)

theorem crossingArrival_out {p : Nat} (w : Word) {s : State} (hout : ¬ p % 64 < 32) (htr : (s.port p).transit = true) :
    crossingArrival p w s = islandWord (p / 64) (p % 64) (s.port p).src (s.arriveOut p) := by
  unfold crossingArrival
  simp only [hout, htr, if_false, if_true]

theorem lcdTake_powered {s : State} (f : State → State) (h : s.lcd.powered = true) : lcdTake f s = lcdShow (f s) := if_pos h

theorem displayWord_segdata {s : State} (w : Word) (hpow : s.lcd.powered = true) (hrun : (segdata w s).rb Reg.tteStat 0 = false) :
    displayWord 32 w s = lcdShow (segdata w s) := by
  have hshow : (lcdShow (segdata w s)).rb Reg.tteStat 0 = false := by
    unfold State.rb at hrun ⊢
    rw [reg_lcdShow _ (fun p _ => by unfold Reg.tteStat Reg.lcdPStat Reg.lcdPTemp; omega) (by decide) (by decide), hrun]
  unfold displayWord
  simp only [lcdTake_powered _ hpow, hshow, Bool.false_eq_true, if_false]

theorem islandWord_display (i : Nat) (w : Word) (s : State) : islandWord 21 i w s = displayWord i w s := rfl

theorem powered_strayOpen_arriveOut : (strayOpen.arriveOut 1376).lcd.powered = true := by decide +kernel

theorem src_strayOpen : (strayOpen.port 1376).src = 0#32 := by decide +kernel

theorem crossingArrival_strayOpen : crossingArrival 1376 0#32 strayOpen = lcdShow (segdata 0#32 (strayOpen.arriveOut 1376)) := by
  rw [crossingArrival_out 0#32 (by decide) (by decide)]
  rw [show 1376 / 64 = 21 from rfl, show 1376 % 64 = 32 from rfl, islandWord_display, src_strayOpen]
  exact displayWord_segdata 0#32 powered_strayOpen_arriveOut (by decide +kernel)

/-- Refutes O56: a SEGDATA word that arrives at the display's port does the same. -/
theorem not_engineRegisterFrames : ¬ Obligations.EngineRegisterFrames := by
  unfold Obligations.EngineRegisterFrames
  intro h
  obtain ⟨-, -, -, -, -, -, -, -, -, -, -, -, -, -, -, -, -, -, -, -, -, -, -, -, -, -, -, -, harrive, -⟩ := h
  have hreg := harrive 1376#11 0#32 strayOpen _ (exec_crossingWordArrival (by decide) _) 0xB0610 (by decide +kernel)
  rw [show (1376#11).toNat = 1376 from rfl, crossingArrival_strayOpen, lcdShow_stray, reg_segdata_strayOpen (.inr rfl)] at hreg
  exact absurd hreg (by decide)

end Sys2Proof.Machine
end

section
/-! PROOFS. The starts and their requests (R100, R103, R406, R450): O16. -/

namespace Sys2Proof.Machine

/-! ## What ROM entry leaves -/

/-- A register whose entry a filter drops reads its reset value. -/
theorem sget_filter_of_false {α : Type} {d : α} {l : Sparse α} {p : Nat × α → Bool} {a : Nat} (h : ∀ v, p (a, v) = false) :
    sget d (l.filter p) a = d := by
  have hnone : (l.filter p).find? (fun e => e.1 == a) = none := by
    rw [List.find?_eq_none]
    rintro ⟨k, v⟩ he hk
    obtain rfl : k = a := by simpa using hk
    rw [List.mem_filter, h] at he
    exact Bool.false_ne_true he.2
  unfold sget
  rw [hnone]
  rfl

/-- ROM entry resets every register that it does not keep, but for PWR_STAT. -/
theorem reg_coreReset (warm : Bool) (s : State) {a : Nat} (hkept : a ∉ keptAddrs warm) (hstat : a ≠ Reg.pwrStat) :
    (coreReset warm s).reg a = regReset a := by
  have hreset : ∀ t : State, t.regs = s.regs.filter (fun e => (keptAddrs warm).contains e.1) →
      (t.setReg Reg.pwrStat (s.reg Reg.pwrStat &&& keptStat warm)).reg a = regReset a := by
    intro t ht
    rw [reg_setReg, if_neg hstat]
    unfold State.reg
    rw [ht]
    exact sget_filter_of_false (fun v => by simpa using hkept)
  exact hreset _ rfl

theorem reg_startAt (cause : Nat) (warm : Bool) (s : State) {a : Nat} (hkept : a ∉ keptAddrs warm)
    (ha : a ∉ [Reg.pwrStat, Reg.mtrStat, Reg.pwrEavail]) :
    (startAt cause warm s).reg a = if a = Reg.sysRstcause then w32 cause else regReset a := by
  simp only [List.mem_cons, List.not_mem_nil, or_false, not_or] at ha
  obtain ⟨hstat, hmtr, havail⟩ := ha
  unfold startAt
  extract_lets s1 s2
  have h1 : s1.reg a = if a = Reg.sysRstcause then w32 cause else regReset a := by
    simp only [s1, State.setRb, reg_setRf, hstat, if_false, reg_setReg, reg_coreReset warm s hkept hstat]
  have h2 : s2.reg a = s1.reg a := by
    simp only [s2]
    split
    · simp only [State.setRb, reg_setRf, hmtr, if_false]
    · simp only [State.setRb, reg_setRf, hstat, if_false]
  rw [reg_setReg, if_neg havail, h2, h1]

theorem phaseOf_startAt (cause : Nat) (warm : Bool) (s : State) : phaseOf (startAt cause warm s) = 0 := by
  unfold phaseOf State.rf
  rw [reg_startAt cause warm s (by cases warm <;> decide) (by decide), if_neg (by decide)]
  decide +kernel

theorem rstcause_startAt (cause : Nat) (warm : Bool) (s : State) : (startAt cause warm s).reg Reg.sysRstcause = w32 cause := by
  rw [reg_startAt cause warm s (by cases warm <;> decide) (by decide), if_pos rfl]

/-- What ROM entry leaves beside the registers: the fuses, and across a warm start the field islands. -/
structure FusesStand (s t : State) : Prop where
  lcn : t.sec.lcn = s.sec.lcn
  retired : t.sec.retired = s.sec.retired

/-- Beyond the reset of the core a start writes registers alone. -/
theorem coreReset_keeps_startAt (cause : Nat) (warm : Bool) (s : State) : Keeps 2 (coreReset warm s) (startAt cause warm s) := by
  unfold startAt
  extract_lets s1 s2
  have h1 : Keeps 2 (coreReset warm s) s1 := setRb_keeps _ _ _ (sub_refl _) (setReg_keeps _ _ (sub_refl _) (Keeps.refl _ _))
  have h2 : Keeps 2 (coreReset warm s) s2 := by
    simp only [s2]
    split <;> exact setRb_keeps _ _ _ (sub_refl _) h1
  exact setReg_keeps _ _ (sub_refl _) h2

theorem startAt_fuses (cause : Nat) (warm : Bool) (s : State) : FusesStand s (startAt cause warm s) := by
  have hsec := (coreReset_keeps_startAt cause warm s).sec rfl
  exact ⟨(congrArg Sec.lcn hsec :), (congrArg Sec.retired hsec :)⟩

/-- A warm start keeps the field islands. -/
theorem startAt_warm_islands (cause : Nat) (s : State) :
    (startAt cause true s).di = s.di ∧ (startAt cause true s).dout = s.dout ∧ (startAt cause true s).ao = s.ao ∧
      (startAt cause true s).supply = s.supply := by
  have h := coreReset_keeps_startAt cause true s
  exact ⟨h.di rfl, h.dout rfl, h.ao rfl, h.supply rfl⟩

/-! ## The starts -/

/-- The parts that a start may touch. -/
def startParts : List Part :=
  [.regs, .shadows, .mirror, .data, .quem, .code, .ecc, .eng, .image, .qrd, .qcell, .ports, .xcnt, .host, .logged, .hattn, .hamper, .di,
    .dout, .ao, .supply, .stime, .pair, .boot, .mtr, .ctl, .sec, .fab, .bus, .lcd, .rtc]

theorem startAt_frame (cause : Nat) (warm : Bool) (s : State) : s.sameBut startParts (startAt cause warm s) :=
  (startAt_keeps cause warm (sub_refl _) (Keeps.refl _ s)).frame rfl

theorem powerOnStart_starts {s : State} (hsupply : s.boot.supplyOk = true) (hprog : s.boot.prog = false) (hdue : s.boot.returnDue = false)
    (hcause : s.reg Reg.sysRstcause = 0#32 ∨ phaseOf s = 9) : powerOnStart s = startAt 1 false s := by
  have hphase : (s.reg Reg.sysRstcause == 0#32 || s.rf Reg.sysStat 3 0 == 9) = true := by
    simpa [phaseOf] using hcause
  unfold powerOnStart
  rw [if_pos (by simp [hsupply, hprog, hdue, hphase])]

theorem powerOnStart_waits {s : State} (hsupply : s.boot.supplyOk = false) : powerOnStart s = s := if_neg (by simp [hsupply])

theorem returnStart_starts {s : State} (hsupply : s.boot.supplyOk = true) (hprog : s.boot.prog = false) (hdue : s.boot.returnDue = true)
    (hphase : phaseOf s = 9) : returnStart s = startAt 2 false s := by
  have hnine : s.rf Reg.sysStat 3 0 = 9 := hphase
  unfold returnStart
  rw [if_pos (by simp [hsupply, hprog, hdue, hnine])]

theorem warmStart_starts {k : Nat} {s : State} (hreq : s.boot.warmReq = some k) (hprog : s.boot.prog = false)
    (hhalt : s.eng.released = true → s.rb Reg.tteStat 3 = true) : warmStart s = startAt (4 + 8 * k) true s := by
  have hidle : (s.eng.released && !(s.rb Reg.tteStat 3)) = false := by
    cases hrel : s.eng.released
    · rfl
    · rw [hhalt hrel]
      rfl
  unfold warmStart
  rw [hreq]
  exact if_neg (by simp [hprog, hidle])

/-! ## Siding mode -/

/-- The strap as the poll shows it. -/
def strapPolled (strap : Bool) (s : State) : State := secShow { s with boot := { s.boot with strap := strap } }

theorem sidingPoll_siding {s : State} (strap : Bool) (h : s.boot.siding = true) :
    sidingPoll strap s = if (strapPolled strap s).sec.sidingStored && !strap then startAt 4 true (strapPolled strap s) else strapPolled strap s :=
  if_neg (by simp [h])

theorem sidingPoll_idle {s : State} (strap : Bool) (h : s.boot.siding = false) : sidingPoll strap s = s := if_pos (by simp [h])

theorem strapPolled_keeps (strap : Bool) (s : State) : Keeps 1034 { s with boot := { s.boot with strap := strap } } (strapPolled strap s) :=
  secShow_keeps (sub_refl _) (Keeps.refl _ _)

/-- The registers of block SEC alone are shown. -/
theorem reg_secShow (s : State) {a : Nat} (ha : a / 0x10000 ≠ 0xD) : (secShow s).reg a = s.reg a := by
  have hshown : ∀ e ∈ secShown s, e.1 / 0x10000 = 0xD := by
    unfold secShown
    cases s.sec.xfer <;> simp [Reg.secStat, Reg.secCounterLo, Reg.secCounterHi, Reg.secFloorLo, Reg.secFloorHi, Reg.secEpoch, Reg.secSlots,
      Reg.secSlotaSeqLo, Reg.secSlotaSeqHi, Reg.secSlotbSeqLo, Reg.secSlotbSeqHi, Reg.secTrial, Reg.secXfer, Reg.secXferStat]
  have hpub : (s.publish (secShown s)).reg a = s.reg a :=
    reg_publish_of_ne s _ (fun e he heq => ha (heq ▸ hshown e he))
  rw [← hpub]
  unfold secShow State.reg
  rw [republish_regs]

theorem phaseOf_secShow (s : State) : phaseOf (secShow s) = phaseOf s := by
  unfold phaseOf State.rf
  rw [reg_secShow s (by decide)]

/-! ## The requests -/

theorem accOf_sysReset : accOf Reg.sysReset = some .wo := by decide +kernel

theorem busWrite_sysReset {m : Master} {w : Word} {s : State} (hprog : s.boot.prog = false) :
    busWrite m Reg.sysReset w s = resetWrite m w s := by
  have halias : aliasBase Reg.sysReset = none := by decide
  have hput : woWrite m Reg.sysReset w s = resetWrite m w s := rfl
  simp only [busWrite, hprog, halias, accOf_sysReset, Bool.false_eq_true, if_false, hput]

theorem exec_sysResetWrite (m : Master) (w : Word) (s : State) : exec (.sysResetWrite m w) s = .next (busWrite m Reg.sysReset w s) := rfl

theorem warmReq_requestWarm {s : State} (m : Nat) (h8 : phaseOf s ≠ 8) (h9 : phaseOf s ≠ 9) (hsupply : s.boot.supplyOk = true) :
    (requestWarm m s).boot.warmReq = some m := by
  have hsome : ¬ (s.rf Reg.sysStat 3 0 = 8 ∨ s.rf Reg.sysStat 3 0 = 9 ∨ s.boot.supplyOk = false) := by
    rintro (h | h | h)
    · exact h8 h
    · exact h9 h
    · simp [hsupply] at h
  unfold requestWarm
  rw [if_neg hsome]

/-! ## Supply valid, and PROG_N -/

theorem supplyValid_counting {s : State} (h : s.boot.counting = true) :
    (supplyValid s).boot.supplyOk = true ∧ (supplyValid s).boot.counting = false ∧ (supplyValid s).rb Reg.pwrStat 0 = true ∧
      (supplyValid s).hamper.retryIn = if s.hamper.retry then some 60 else s.hamper.retryIn := by
  unfold supplyValid
  rw [if_pos h]
  exact ⟨rfl, rfl, rb_setRb_same _ _ _ _ (by decide), rfl⟩

theorem rstcause_progHold (s : State) : (progHold s).reg Reg.sysRstcause = 0#32 := by
  have hreset : (progHold s).reg Reg.sysRstcause = (coreReset true s).reg Reg.sysRstcause := rfl
  rw [hreset, reg_coreReset true s (by decide) (by decide)]
  decide +kernel

/-- The state with PROG_N high again. -/
def progFreed (s : State) : State := { s with boot := { s.boot with prog := false } }

theorem progRelease_held {s : State} (h : s.boot.prog = true) : progRelease s = powerOnStart (progFreed s) := if_pos h

theorem progRelease_starts {s : State} (hprog : s.boot.prog = true) (hsupply : s.boot.supplyOk = true) (hdue : s.boot.returnDue = false)
    (hcause : s.reg Reg.sysRstcause = 0#32) : progRelease s = startAt 1 false (progFreed s) :=
  (progRelease_held hprog).trans (powerOnStart_starts (s := progFreed s) hsupply rfl hdue (.inl hcause))

theorem sameCycleWrites_held {a : Nat} (e f h : Option Word) {s : State} (hprog : s.boot.prog = true) : sameCycleWrites a e f h s = s := by
  have hmaster : ∀ m o, masterWrite m a o s = s := by
    rintro m (- | u)
    · rfl
    · exact if_pos hprog
  unfold sameCycleWrites
  rw [hmaster, hmaster, hmaster]

/-- While PROG_N is low no row of the register bus, the fabric, the clock registers or the security island has an effect: each of
them is guarded by PROG_N, behind the rule of its operands where it has one. -/
theorem heldRow_idle {c : Instr} {s : State} (hrow : heldRow c = true) (hwf : c.wf = true) (hprog : s.boot.prog = true) :
    exec c s = .next s := by
  cases c
  all_goals first
    | exact absurd hrow Bool.false_ne_true
    | exact congrArg Host.Outcome.next (sameCycleWrites_held _ _ _ hprog)
    | exact congrArg Host.Outcome.next (if_pos hprog)
    | exact (if_pos hwf).trans (congrArg Host.Outcome.next (if_pos hprog))

/-- Settles O16: each start is ROM entry with its cause, and each request the one change of its rule. -/
theorem startsFromRomEntry : Obligations.StartsFromRomEntry := by
  unfold Obligations.StartsFromRomEntry
  refine ⟨?_, ?_, ?_, ?_, ?_, ?_, ?_, ?_, ?_, ?_, ?_, ?_, fun c s hrow hwf hprog => heldRow_idle hrow hwf hprog⟩
  · intro s hsupply hprog hdue hcause
    obtain ⟨hlcn, hretired⟩ := startAt_fuses 1 false s
    exact ⟨startAt 1 false s, congrArg Host.Outcome.next (powerOnStart_starts hsupply hprog hdue hcause), startAt_frame .., phaseOf_startAt ..,
      rstcause_startAt .., hlcn, hretired⟩
  · intro s hsupply hprog hdue hphase
    obtain ⟨hlcn, hretired⟩ := startAt_fuses 2 false s
    exact ⟨startAt 2 false s, congrArg Host.Outcome.next (returnStart_starts hsupply hprog hdue hphase), startAt_frame .., phaseOf_startAt ..,
      rstcause_startAt .., hlcn, hretired⟩
  · intro k s hreq hprog hhalt
    obtain ⟨hlcn, -⟩ := startAt_fuses (4 + 8 * k) true s
    obtain ⟨hdi, hdout, hao, hsupply⟩ := startAt_warm_islands (4 + 8 * k) s
    exact ⟨startAt (4 + 8 * k) true s, congrArg Host.Outcome.next (warmStart_starts hreq hprog hhalt), startAt_frame .., phaseOf_startAt ..,
      rstcause_startAt .., hdi, hdout, hao, hsupply, hlcn⟩
  · intro strap s hsiding hstored hstrap
    have hsec : (strapPolled strap s).sec = s.sec := (strapPolled_keeps strap s).sec rfl
    have hpoll : sidingPoll strap s = startAt 4 true (strapPolled strap s) := by
      rw [sidingPoll_siding strap hsiding, hsec, if_pos (by simp [hstored, hstrap])]
    obtain ⟨hlcn, -⟩ := startAt_fuses 4 true (strapPolled strap s)
    rw [hsec] at hlcn
    exact ⟨startAt 4 true (strapPolled strap s), congrArg Host.Outcome.next hpoll,
      hpoll ▸ (sidingPoll_keeps strap (sub_refl _) (Keeps.refl _ s)).frame rfl, phaseOf_startAt .., rstcause_startAt .., hlcn⟩
  · intro strap s hsiding hstrap
    have hpoll : sidingPoll strap s = strapPolled strap s := by
      rw [sidingPoll_siding strap hsiding, if_neg (by simp [hstrap])]
    have hkeeps := strapPolled_keeps strap s
    have hboot : (strapPolled strap s).boot = { s.boot with strap := true } := by rw [hkeeps.boot rfl, hstrap]
    exact ⟨strapPolled strap s, congrArg Host.Outcome.next hpoll,
      hpoll ▸ (sidingPoll_keeps strap (sub_refl _) (Keeps.refl _ s)).frame rfl, hboot, phaseOf_secShow _, hkeeps.store rfl, hkeeps.image rfl⟩
  · intro strap s hsiding
    exact ⟨sidingPoll strap s, rfl, (sidingPoll_keeps strap (sub_refl _) (Keeps.refl _ s)).frame rfl, sidingPoll_idle strap hsiding⟩
  · intro s
    exact ⟨progHold s, rfl, (progHold_keeps (sub_refl _) (Keeps.refl _ s)).frame rfl, rfl, rfl, rfl, rfl, rstcause_progHold s⟩
  · intro s hprog hsupply hdue hcause
    have hstart := progRelease_starts hprog hsupply hdue hcause
    exact ⟨startAt 1 false (progFreed s), congrArg Host.Outcome.next hstart,
      hstart ▸ (progRelease_keeps (sub_refl _) (Keeps.refl _ s)).frame rfl, phaseOf_startAt .., rstcause_startAt .., rfl⟩
  · intro s hprog hsupply
    exact ⟨progRelease s, rfl, (progRelease_keeps (sub_refl _) (Keeps.refl _ s)).frame rfl,
      (progRelease_held hprog).trans (powerOnStart_waits (s := progFreed s) hsupply)⟩
  · intro s hcount
    exact ⟨supplyValid s, rfl, (supplyValid_keeps (sub_refl _) (Keeps.refl _ s)).frame rfl, supplyValid_counting hcount⟩
  · intro m w s hkey hone h8 h9 hsupply hprog
    refine ⟨_, exec_sysResetWrite m w s, busWrite_frame .., ?_⟩
    rw [busWrite_sysReset hprog, show resetWrite m w s = requestWarm (masterNo m) s from if_pos ⟨hkey, hone⟩]
    exact warmReq_requestWarm _ h8 h9 hsupply
  · intro m w s hkey hprog
    refine ⟨_, exec_sysResetWrite m w s, busWrite_frame .., ?_⟩
    rw [busWrite_sysReset hprog]
    exact if_neg (fun h => hkey.elim (fun hk => hk h.1) (fun hk => hk h.2))

end Sys2Proof.Machine
end

section
/-! PROOFS. The phases of the start (chapter 04): O17 fails at a state that is in phase 4 with its engine released. -/

namespace Sys2Proof.Machine

theorem engineRelease_released {s : State} (h : s.eng.released = true) : engineRelease s = s := if_neg (by simp [h])

/-- The reset state in phase 4 of a power-on start, with an image, discovery and the start check done, whose engine is released. -/
def releasedTwice : State :=
  { State.reset.setReg Reg.sysStat 4#32 with
    eng := { State.reset.eng with released := true }
    image := { State.reset.image with loaded := true }
    boot := { State.reset.boot with discDone := true, supplyOk := true }
    hamper := { State.reset.hamper with startDone := true } }

/-- Refutes O17: its clause on ENGINE_RELEASE does not ask that the engine is not released yet. Where it is, the command leaves the
state in phase 4. -/
theorem not_startPhases : ¬ Obligations.StartPhases := by
  unfold Obligations.StartPhases
  intro h
  obtain ⟨-, -, -, -, -, -, -, -, -, -, -, hrelease, -⟩ := h
  obtain ⟨t, hexec, -, -, hphase⟩ := hrelease releasedTwice (by decide +kernel) rfl rfl rfl rfl (.inr rfl)
  have ht : engineRelease releasedTwice = t := Host.Outcome.next.inj hexec
  rw [engineRelease_released rfl] at ht
  rw [← ht] at hphase
  exact absurd (hphase (by decide +kernel)) (by decide +kernel)

end Sys2Proof.Machine
end

section
/-! PROOFS. The last train (R74, R131 to R140): O29 fails at BANK_EXHAUSTED. -/

namespace Sys2Proof.Machine

/-- The reset state in phase 9 with the cause of its start still shown. -/
def exhausted : State := (State.reset.setReg Reg.sysStat 9#32).setReg Reg.sysRstcause 1#32

/-- Refutes O29: its last clause says that BANK_EXHAUSTED leaves the registers, but the command clears SYS_RSTCAUSE. -/
theorem not_lastTrain : ¬ Obligations.LastTrain := by
  unfold Obligations.LastTrain
  intro h
  obtain ⟨-, -, -, -, -, -, -, -, -, -, hexhaust⟩ := h
  obtain ⟨t, hexec, -, -, -, hregs⟩ := hexhaust exhausted (by decide +kernel)
  rw [← Host.Outcome.next.inj hexec] at hregs
  exact absurd hregs (by decide +kernel)

end Sys2Proof.Machine
end

section
/-! PROOFS. Registers, bits and fields across the operations that write a register: the rules that later proofs use. -/

namespace Sys2Proof.Machine

variable {s : State} {a b : Nat}

theorem rf_of_reg {t : State} (h : t.reg a = s.reg a) (hi lo : Nat) : t.rf a hi lo = s.rf a hi lo := by
  unfold State.rf
  rw [h]

theorem rb_of_reg {t : State} (h : t.reg a = s.reg a) (i : Nat) : t.rb a i = s.rb a i := by
  unfold State.rb
  rw [h]

/-! ## Another register -/

theorem reg_setReg_ne (v : Word) (h : b ≠ a) : (s.setReg a v).reg b = s.reg b := by
  rw [reg_setReg, if_neg h]

theorem reg_setRf_ne (hi lo v : Nat) (h : b ≠ a) : (s.setRf a hi lo v).reg b = s.reg b := reg_setReg_ne _ h

theorem reg_setRb_ne (i : Nat) (v : Bool) (h : b ≠ a) : (s.setRb a i v).reg b = s.reg b := reg_setReg_ne _ h

theorem reg_orReg_ne (m : Nat) (h : b ≠ a) : (s.orReg a m).reg b = s.reg b := reg_setReg_ne _ h

theorem reg_satRf_ne (hi lo k : Nat) (h : b ≠ a) : (s.satRf a hi lo k).reg b = s.reg b := reg_setReg_ne _ h

theorem reg_append (s : State) (code blk sev : Nat) (d : List Word) (h : a ≠ Reg.logEvt) : (s.append code blk sev d).reg a = s.reg a :=
  append_regsBut (l := [Reg.logEvt]) code blk sev d List.mem_cons_self (regsBut_refl _ s) a (by simpa using h)

theorem reg_republish (s : State) (l : List Nat) : (s.republish l).reg a = s.reg a := by
  unfold State.reg
  rw [republish_regs]

/-! ## The same register -/

theorem reg_setRf_same (s : State) (a hi lo v : Nat) : (s.setRf a hi lo v).reg a = setFld (s.reg a) hi lo v := reg_setReg_same _ _ _

theorem rb_setRf_out (hi lo v : Nat) {i : Nat} (hle : lo ≤ hi) (hhi : hi < 32) (hi32 : i < 32) (hout : hi < i ∨ i < lo) :
    (s.setRf a hi lo v).rb a i = s.rb a i := by
  unfold State.rb
  rw [reg_setRf_same, bit_setFld_other _ _ _ _ _ hle hhi hi32 hout]

theorem rf_setRf_out (hi lo v : Nat) {hi2 lo2 : Nat} (hle : lo ≤ hi) (hhi : hi < 32) (hle2 : lo2 ≤ hi2) (hhi2 : hi2 < 32)
    (hout : hi < lo2 ∨ hi2 < lo) : (s.setRf a hi lo v).rf a hi2 lo2 = s.rf a hi2 lo2 := by
  unfold State.rf
  rw [reg_setRf_same, fld_setFld_disjoint _ _ _ _ _ _ hle hhi hle2 hhi2 hout]

/-- Another bit of a register, one of whose bits is written. -/
theorem rb_setRb_other {i j : Nat} (v : Bool) (hj : j < 32) (hi : i < 32) (h : i ≠ j) : (s.setRb a j v).rb a i = s.rb a i :=
  rb_setRf_out j j _ (Nat.le_refl _) hj hi (by omega)

/-- A field of a register, one of whose bits outside is written. -/
theorem rf_setRb_other {hi lo j : Nat} (v : Bool) (hj : j < 32) (hle : lo ≤ hi) (hhi : hi < 32) (h : j < lo ∨ hi < j) :
    (s.setRb a j v).rf a hi lo = s.rf a hi lo :=
  rf_setRf_out j j _ (Nat.le_refl _) hj hle hhi h

/-- A bit once set stays set when bits are set. -/
theorem rb_orReg_of_rb {i : Nat} (m : Nat) (h : s.rb b i = true) : (s.orReg a m).rb b i = true := by
  unfold State.rb bit at h ⊢
  rw [reg_orReg]
  split
  next heq =>
    subst heq
    rw [BitVec.getLsbD_or, h, Bool.true_or]
  next => exact h

end Sys2Proof.Machine
end

section
/-! PROOFS. The energy ledger and the capacitance checks (R101, R133 to R138, R455): O30. -/

namespace Sys2Proof.Machine

theorem energyUj_eq (c mv : Nat) : energyUj c mv = if mv ≤ 12000 then 0 else c * (mv * mv - 144000000) / 2000000 := rfl

/-! ## A check begins (R134 to R136) -/

theorem checkReady_of {s : State} (hsupply : s.boot.supplyOk = true) (hagain : s.hamper.again = false)
    (hidle : s.rb Reg.pwrStat psChecking = false) (hfilter : s.hamper.filter = false) : checkReady s = true := by
  unfold checkReady
  simp [hsupply, hagain, hidle, hfilter]

/-- The charger stops, V1 is recorded and the check is under way; PWR_STAT alone shows it. -/
theorem beginCheck_begins (v1 : Nat) (kind : Bool) (s : State) :
    (beginCheck v1 kind s).hamper = { s.hamper with v1 := v1, startKind := kind, retry := false, retryIn := none } ∧
      (beginCheck v1 kind s).rb Reg.pwrStat psChecking = true ∧ (beginCheck v1 kind s).rb Reg.pwrStat psCharging = false ∧
      s.regsBut [Reg.pwrStat] (beginCheck v1 kind s) := by
  refine ⟨rfl, rb_setRb_same _ _ _ _ (by decide), ?_, ?_⟩
  · have hcharge : (beginCheck v1 kind s).rb Reg.pwrStat psCharging = (s.setRb Reg.pwrStat psCharging false).rb Reg.pwrStat psCharging :=
      rb_setRb_other true (by decide) (by decide) (by decide)
    rw [hcharge, rb_setRb_same _ _ _ _ (by decide)]
  · exact setReg_regsBut (s := s.setRb Reg.pwrStat psCharging false) _ (by simp) (setReg_regsBut _ (by simp) (regsBut_refl _ s))

theorem dailyCheck_ready {v1 : Nat} {s : State} (hdue : dailyDue s = true) (hready : checkReady s = true) :
    dailyCheck v1 s = if v1 < 330000 then { s with hamper := { s.hamper with retryIn := some 60 } } else beginCheck v1 false s :=
  if_neg (by simp [hdue, hready])

/-! ## What the evaluations after a measure leave (R137, R138) -/

/-- From s to t the figures of a check stand: E_HOLD, C_MEAS, CHECKING and CHECK_FAIL, and the event of a failed check stays set. -/
structure FiguresStand (s t : State) : Prop where
  ehold : t.reg Reg.pwrEhold = s.reg Reg.pwrEhold
  cmeas : t.rf Reg.pwrCbank 15 0 = s.rf Reg.pwrCbank 15 0
  checking : t.rb Reg.pwrStat psChecking = s.rb Reg.pwrStat psChecking
  checkFail : t.rb Reg.pwrStat psCheckFail = s.rb Reg.pwrStat psCheckFail
  event : s.rb Reg.pwrEvt 6 = true → t.rb Reg.pwrEvt 6 = true

theorem FiguresStand.refl (s : State) : FiguresStand s s := ⟨rfl, rfl, rfl, rfl, id⟩

theorem FiguresStand.trans {r s t : State} (h : FiguresStand r s) (k : FiguresStand s t) : FiguresStand r t :=
  ⟨k.ehold.trans h.ehold, k.cmeas.trans h.cmeas, k.checking.trans h.checking, k.checkFail.trans h.checkFail, fun e => k.event (h.event e)⟩

/-- Operations that touch none of the four registers. -/
theorem FiguresStand.of_reg {s t : State} (h : ∀ a, a ∈ [Reg.pwrEhold, Reg.pwrCbank, Reg.pwrStat, Reg.pwrEvt] → t.reg a = s.reg a) :
    FiguresStand s t :=
  ⟨h _ (by simp), rf_of_reg (h _ (by simp)) _ _, rb_of_reg (h _ (by simp)) _, rb_of_reg (h _ (by simp)) _,
    fun e => (rb_of_reg (h _ (by simp)) 6).trans e⟩

theorem pwrRec_figures (s : State) (code sev : Nat) (d : List Word) : FiguresStand s (pwrRec s code sev d) :=
  .of_reg fun a ha => reg_logOnce s code 2 sev 0 d (by rintro rfl; revert ha; decide)

theorem setReg_figures (s : State) {a : Nat} (v : Word) (ha : a ∉ [Reg.pwrEhold, Reg.pwrCbank, Reg.pwrStat, Reg.pwrEvt]) :
    FiguresStand s (s.setReg a v) :=
  .of_reg fun b hb => reg_setReg_ne v (by rintro rfl; exact ha hb)

theorem setRb_stat_figures (s : State) {b : Nat} (v : Bool) (h32 : b < 32) (hb : b ≠ psChecking) (hb' : b ≠ psCheckFail) :
    FiguresStand s (s.setRb Reg.pwrStat b v) where
  ehold := reg_setRb_ne _ _ (by decide)
  cmeas := rf_of_reg (reg_setRb_ne _ _ (by decide)) _ _
  checking := rb_setRb_other v h32 (by decide) hb.symm
  checkFail := rb_setRb_other v h32 (by decide) hb'.symm
  event := fun e => (rb_of_reg (reg_setRb_ne b v (by decide)) 6).trans e

theorem orReg_evt_figures (s : State) (m : Nat) : FiguresStand s (s.orReg Reg.pwrEvt m) where
  ehold := reg_orReg_ne _ (by decide)
  cmeas := rf_of_reg (reg_orReg_ne _ (by decide)) _ _
  checking := rb_of_reg (reg_orReg_ne _ (by decide)) _
  checkFail := rb_of_reg (reg_orReg_ne _ (by decide)) _
  event := rb_orReg_of_rb m

theorem statEdge_figures (s : State) {b : Nat} (evt : Nat) (v : Bool) {f : State → State} (h32 : b < 32) (hb : b ≠ psChecking)
    (hb' : b ≠ psCheckFail) (hf : ∀ t, FiguresStand t (f t)) : FiguresStand s (statEdge b evt v f s) := by
  have hbit := setRb_stat_figures s v h32 hb hb'
  unfold statEdge
  simp only
  split
  · exact (hbit.trans (orReg_evt_figures _ evt)).trans (hf _)
  · exact hbit

theorem holdupEval_figures (s : State) : FiguresStand s (holdupEval s) := by
  unfold holdupEval
  extract_lets full core s1 h s2
  have h1 : FiguresStand s s1 := (setReg_figures s _ (by decide)).trans (setReg_figures _ _ (by decide))
  have h2 : FiguresStand s s2 := h1.trans (statEdge_figures _ _ _ (by decide) (by decide) (by decide) (fun t => pwrRec_figures t _ _ _))
  exact h2.trans (statEdge_figures _ _ _ (by decide) (by decide) (by decide) (fun t => pwrRec_figures t _ _ _))

theorem bankWorn_figures (c : Nat) (s : State) : FiguresStand s (bankWorn c s) := by
  unfold bankWorn
  split
  · exact statEdge_figures _ _ _ (by decide) (by decide) (by decide) (fun t => pwrRec_figures t _ _ _)
  · exact .refl s

theorem setRf_cfirst_figures (s : State) (v : Nat) : FiguresStand s (s.setRf Reg.pwrCbank 31 16 v) where
  ehold := reg_setRf_ne _ _ _ (by decide)
  cmeas := rf_setRf_out 31 16 v (by decide) (by decide) (by decide) (by decide) (by decide)
  checking := rb_of_reg (reg_setRf_ne _ _ _ (by decide)) _
  checkFail := rb_of_reg (reg_setRf_ne _ _ _ (by decide)) _
  event := fun e => (rb_of_reg (reg_setRf_ne _ _ _ (by decide)) 6).trans e

theorem writeCFirst_figures (c : Nat) (s : State) : FiguresStand s (writeCFirst c s) := by
  unfold writeCFirst
  split
  · exact setRf_cfirst_figures s _
  · have hferam : ∀ m, FiguresStand s { s with feram := m } := fun m => .of_reg fun _ _ => rfl
    exact (hferam _).trans (setRf_cfirst_figures _ c)

/-! ## A check completes (R134, R135) -/

/-- A completed measure beside the registers: the age of the check starts anew, and a start check is done. -/
def measuredHamper (s : State) : State :=
  { s with hamper := { s.hamper with ageSec := 0, startDone := s.hamper.startDone || s.hamper.startKind } }

theorem reg_measuredHamper (s : State) (a : Nat) : (measuredHamper s).reg a = s.reg a := rfl

/-- A measure taken, in the registers: C_MEAS, the count and age of the checks, and the charger on again. -/
def measuredRegs (c : Nat) (s : State) : State :=
  let s0 := ((s.setRb Reg.pwrStat psChecking false).setRb Reg.pwrStat psCharging true).setRf Reg.pwrCbank 15 0 c
  (s0.setRf Reg.pwrCheck 15 0 (s0.rf Reg.pwrCheck 15 0 + 1)).setRf Reg.pwrCheck 31 18 0

/-- A measure taken. -/
def measured (c : Nat) (s : State) : State := measuredHamper (measuredRegs c s)

theorem cmeas_measured (c : Nat) (s : State) : (measured c s).rf Reg.pwrCbank 15 0 = c % 2 ^ 16 := by
  unfold measured measuredRegs
  extract_lets s0
  have hcbank : ((s0.setRf Reg.pwrCheck 15 0 (s0.rf Reg.pwrCheck 15 0 + 1)).setRf Reg.pwrCheck 31 18 0).reg Reg.pwrCbank = s0.reg Reg.pwrCbank := by
    rw [reg_setRf_ne _ _ _ (by decide), reg_setRf_ne _ _ _ (by decide)]
  rw [rf_of_reg ((reg_measuredHamper _ _).trans hcbank)]
  exact rf_setRf_same _ _ _ _ _ (by decide) (by decide)

theorem checking_measured (c : Nat) (s : State) : (measured c s).rb Reg.pwrStat psChecking = false := by
  unfold measured measuredRegs State.rb
  simp only
  rw [reg_measuredHamper, reg_setRf_ne _ _ _ (by decide), reg_setRf_ne _ _ _ (by decide), reg_setRf_ne _ _ _ (by decide)]
  exact (rb_setRb_other _ (by decide) (by decide) (by decide)).trans (rb_setRb_same _ _ _ _ (by decide))

theorem measuredRegs_keeps (c : Nat) (s : State) : Keeps 2 s (measuredRegs c s) := by
  unfold measuredRegs
  extract_lets s0
  have hs0 : Keeps 2 s s0 := setRf_keeps _ _ _ _ (sub_refl _) (setRb_keeps _ _ _ (sub_refl _) (setRb_keeps _ _ _ (sub_refl _) (Keeps.refl _ _)))
  exact setRf_keeps _ _ _ _ (sub_refl _) (setRf_keeps _ _ _ _ (sub_refl _) hs0)

/-- The ledger's figure is replaced. -/
def ledgerPut (cl : Nat) (s : State) : State := { s with hamper := { s.hamper with cLedger := cl } }

/-- The new ledger figure of a measure in range. -/
def ledgerSet (cl v1 : Nat) (s : State) : State :=
  (((ledgerPut cl s).setRb Reg.pwrStat psCheckFail false).setRf Reg.pwrCheck 17 16 0).setReg Reg.pwrEhold (w32 (energyUj cl (v1 / 10)))

/-- No ledger figure after a measure out of range. -/
def ledgerFailed (s : State) : State :=
  (((ledgerPut 0 s).setRb Reg.pwrStat psCheckFail true).setRf Reg.pwrCheck 17 16 2).orReg Reg.pwrEvt 0x40

/-- What a check does with its measure c, taken over the fall dv of the bank. -/
def checkResult (unbounded : Bool) (c : Nat) (dv : Int) (s : State) : State :=
  if !unbounded && decide (200 ≤ c) && decide (c ≤ 4000) then
    bankWorn c (holdupEval (writeCFirst c (ledgerSet (c * 97 / 100) s.hamper.v1 (measured c s))))
  else
    let t := pwrRec (ledgerFailed (measured c s)) 0x206 8 [w32i dv, w32 c]
    if unbounded then t else bankWorn c t

/-- The fall of the bank in a check, in 0.1 mV. -/
def fallOf (v2 : Nat) (s : State) : Int := (s.hamper.v1 : Int) - (v2 : Int)

/-- C_MEAS of a fall. -/
def cmeasOf (dv : Int) : Nat := if decide (dv ≤ 0) then 0xFFFF else min 0xFFFF (20000000 / dv.toNat)

theorem checkComplete_checking {v2 : Nat} {s : State} (h : s.rb Reg.pwrStat psChecking = true) :
    checkComplete v2 s = checkResult (decide (fallOf v2 s ≤ 0)) (cmeasOf (fallOf v2 s)) (fallOf v2 s) s := by
  unfold checkComplete cmeasOf checkResult
  rw [if_neg (by simp [h])]
  generalize 20000000 = charge
  rfl

theorem checkComplete_pass {v2 : Nat} {s : State} (hchecking : s.rb Reg.pwrStat psChecking = true) (hlt : v2 < s.hamper.v1)
    {c : Nat} (hc : 20000000 / (s.hamper.v1 - v2) = c) (hmin : 200 ≤ c) (hmax : c ≤ 4000) :
    checkComplete v2 s = bankWorn c (holdupEval (writeCFirst c (ledgerSet (c * 97 / 100) s.hamper.v1 (measured c s)))) := by
  have hpos : ¬ fallOf v2 s ≤ 0 := by unfold fallOf; omega
  have hdv : (fallOf v2 s).toNat = s.hamper.v1 - v2 := by unfold fallOf; omega
  have hcmeas : cmeasOf (fallOf v2 s) = c := by
    unfold cmeasOf
    rw [if_neg (by simpa using hpos), hdv, hc]
    omega
  rw [checkComplete_checking hchecking, hcmeas]
  exact if_pos (by simp [hpos, hmin, hmax])

theorem checkComplete_fail {v2 : Nat} {s : State} (hchecking : s.rb Reg.pwrStat psChecking = true)
    (hout : s.hamper.v1 ≤ v2 ∨ 20000000 / (s.hamper.v1 - v2) < 200 ∨ 4000 < 20000000 / (s.hamper.v1 - v2)) :
    ∃ c d, checkComplete v2 s = pwrRec (ledgerFailed (measured c s)) 0x206 8 d ∨
      checkComplete v2 s = bankWorn c (pwrRec (ledgerFailed (measured c s)) 0x206 8 d) := by
  have hno : (!decide (fallOf v2 s ≤ 0) && decide (200 ≤ cmeasOf (fallOf v2 s)) && decide (cmeasOf (fallOf v2 s) ≤ 4000)) = false := by
    by_cases hle : fallOf v2 s ≤ 0
    · simp [hle]
    · have hdv : (fallOf v2 s).toNat = s.hamper.v1 - v2 := by unfold fallOf; omega
      have hlt : v2 < s.hamper.v1 := by unfold fallOf at hle; omega
      have hcmeas : cmeasOf (fallOf v2 s) = min 0xFFFF (20000000 / (s.hamper.v1 - v2)) := by
        unfold cmeasOf
        rw [if_neg (by simpa using hle), hdv]
      rw [hcmeas]
      generalize 20000000 / (s.hamper.v1 - v2) = c at hout
      simp only [Bool.and_eq_false_iff, decide_eq_false_iff_not]
      omega
  refine ⟨cmeasOf (fallOf v2 s), [w32i (fallOf v2 s), w32 (cmeasOf (fallOf v2 s))], ?_⟩
  rw [checkComplete_checking hchecking, checkResult, if_neg (by simp [hno])]
  by_cases hle : fallOf v2 s ≤ 0
  · exact .inl (if_pos (by simpa using hle))
  · exact .inr (if_neg (by simpa using hle))

/-! ## The input (R101, Table 5-6) -/

/-- V_IN after a rise: the bank stops feeding. -/
def risen (vin : BitVec 16) (s : State) : State :=
  { s with hamper := { s.hamper with feeding := false } }.setReg Reg.pwrVin (vin.zeroExtend 32)

/-- With supply valid and no check under way the charger is on. -/
def recharged (s : State) : State :=
  if s.rb Reg.pwrStat psChecking || !s.boot.supplyOk then s else s.setRb Reg.pwrStat psCharging true

/-- The count of supply valid after a rise. -/
def countAfresh (vin : BitVec 16) (s : State) : State :=
  { s with boot := { s.boot with counting := decide (19000 ≤ vin.toNat) && !(s.hamper.ltPending) && decide (phaseOf s ≠ 8) } }

theorem inputRise_eq (vin : BitVec 16) (s : State) : inputRise vin s = countAfresh vin (recharged (risen vin s)) := rfl

theorem recharged_keeps (s : State) : Keeps 2 s (recharged s) := by
  unfold recharged
  split
  · exact Keeps.refl _ _
  · exact setRb_keeps _ _ _ (sub_refl _) (Keeps.refl _ _)

theorem recharged_regsBut {l : List Nat} {r s : State} (hl : Reg.pwrStat ∈ l) (h : r.regsBut l s) : r.regsBut l (recharged s) := by
  unfold recharged
  split
  · exact h
  · exact setReg_regsBut _ hl h

theorem inputRise_spec (vin : BitVec 16) (s : State) :
    (inputRise vin s).hamper = { s.hamper with feeding := false } ∧ (inputRise vin s).reg Reg.pwrVin = vin.zeroExtend 32 ∧
      (inputRise vin s).boot = { s.boot with counting := decide (19000 ≤ vin.toNat) && !(s.hamper.ltPending) && decide (phaseOf s ≠ 8) } ∧
      s.regsBut [Reg.pwrVin, Reg.pwrStat] (inputRise vin s) := by
  have hkeeps := recharged_keeps (risen vin s)
  have hrisen : s.regsBut [Reg.pwrVin, Reg.pwrStat] (risen vin s) := setReg_regsBut _ (by simp) (regsBut_of_regs_eq rfl (regsBut_refl _ s))
  have hbut := recharged_regsBut (by simp) hrisen
  have hvin : (recharged (risen vin s)).reg Reg.pwrVin = vin.zeroExtend 32 :=
    (recharged_regsBut (l := [Reg.pwrStat]) (by simp) (regsBut_refl _ _) Reg.pwrVin (by decide)).trans (reg_setReg_same ..)
  have hphase : phaseOf (recharged (risen vin s)) = phaseOf s := rf_of_reg (hbut _ (by decide)) 3 0
  rw [inputRise_eq]
  refine ⟨hkeeps.hamper rfl, hvin, ?_, regsBut_of_regs_eq rfl hbut⟩
  unfold countAfresh
  simp only [hkeeps.boot rfl, hkeeps.hamper rfl, hphase]
  rfl

/-- A side of the operating range is noted: its event and its record. -/
def sideNote (c : Bool) (m subject : Nat) (d : List Word) (s : State) : State :=
  if c then (s.orReg Reg.pwrEvt m).logOnce 0x209 2 6 subject d else s

/-- V_IN and the two sides of its range, as PWR_STAT shows them. -/
def rangeShown (vin : BitVec 16) (s : State) : State :=
  (({ s with boot := { s.boot with counting := s.boot.counting && decide (19000 ≤ vin.toNat) } }.setReg Reg.pwrVin (vin.zeroExtend 32)).setRb
    Reg.pwrStat 1 (decide (vin.toNat < 19200) && !s.hamper.detected)).setRb Reg.pwrStat 2 (decide (30000 < vin.toNat))

theorem vinRange_eq (vin : BitVec 16) (s : State) :
    vinRange vin s = sideNote (decide (30000 < vin.toNat) && !(s.rb Reg.pwrStat 2)) 4 1 [vin.zeroExtend 32, 1#32]
      (sideNote ((decide (vin.toNat < 19200) && !s.hamper.detected) && !(s.rb Reg.pwrStat 1)) 2 0 [vin.zeroExtend 32, 0#32]
        (rangeShown vin s)) := rfl

theorem reg_sideNote (c : Bool) (m subject : Nat) (d : List Word) (s : State) {a : Nat} (hevt : a ≠ Reg.pwrEvt) (hlog : a ≠ Reg.logEvt) :
    (sideNote c m subject d s).reg a = s.reg a := by
  unfold sideNote
  split
  · rw [reg_logOnce _ _ _ _ _ _ hlog, reg_orReg_ne _ hevt]
  · rfl

theorem sideNote_regsBut {l : List Nat} {r s : State} (c : Bool) (m subject : Nat) (d : List Word) (hevt : Reg.pwrEvt ∈ l)
    (hlog : Reg.logEvt ∈ l) (h : r.regsBut l s) : r.regsBut l (sideNote c m subject d s) := by
  unfold sideNote
  split
  · exact logOnce_regsBut _ _ _ _ _ hlog (setReg_regsBut _ hevt h)
  · exact h

theorem boot_sideNote (c : Bool) (m subject : Nat) (d : List Word) (s : State) : (sideNote c m subject d s).boot = s.boot := by
  unfold sideNote
  split
  · exact (logOnce_keeps _ _ _ _ _ (sub_refl _) (orReg_keeps _ _ (sub_of (sub_refl _) rfl) (Keeps.refl _ s))).boot rfl
  · rfl

theorem rangeShown_regsBut (vin : BitVec 16) (s : State) :
    s.regsBut [Reg.pwrVin, Reg.pwrStat, Reg.pwrEvt, Reg.logEvt] (rangeShown vin s) := by
  unfold rangeShown
  refine setReg_regsBut _ (by simp) (setReg_regsBut _ (by simp) (setReg_regsBut _ (by simp) ?_))
  exact regsBut_of_regs_eq rfl (regsBut_refl _ s)

/-- PWR_STAT and PWR_VIN follow V_IN, and the rest of the registers but the event and the log's stand. -/
theorem vinRange_spec (vin : BitVec 16) (s : State) :
    (vinRange vin s).reg Reg.pwrVin = vin.zeroExtend 32 ∧
      (vinRange vin s).rb Reg.pwrStat 1 = (decide (vin.toNat < 19200) && !s.hamper.detected) ∧
      (vinRange vin s).boot = { s.boot with counting := s.boot.counting && decide (19000 ≤ vin.toNat) } ∧
      (vinRange vin s).rb Reg.pwrStat 2 = decide (30000 < vin.toNat) ∧
      s.regsBut [Reg.pwrVin, Reg.pwrStat, Reg.pwrEvt, Reg.logEvt] (vinRange vin s) := by
  rw [vinRange_eq]
  refine ⟨?_, ?_, ?_, ?_, sideNote_regsBut _ _ _ _ (by simp) (by simp) (sideNote_regsBut _ _ _ _ (by simp) (by simp) (rangeShown_regsBut vin s))⟩
  · rw [reg_sideNote _ _ _ _ _ (by decide) (by decide), reg_sideNote _ _ _ _ _ (by decide) (by decide), rangeShown,
      reg_setRb_ne _ _ (by decide), reg_setRb_ne _ _ (by decide), reg_setReg_same]
  · rw [rb_of_reg (reg_sideNote _ _ _ _ _ (by decide) (by decide)), rb_of_reg (reg_sideNote _ _ _ _ _ (by decide) (by decide)), rangeShown,
      rb_setRb_other _ (by decide) (by decide) (by decide), rb_setRb_same _ _ _ _ (by decide)]
  · rw [boot_sideNote, boot_sideNote]
    rfl
  · rw [rb_of_reg (reg_sideNote _ _ _ _ _ (by decide) (by decide)), rb_of_reg (reg_sideNote _ _ _ _ _ (by decide) (by decide)), rangeShown,
      rb_setRb_same _ _ _ _ (by decide)]

/-! ## The obligation -/

theorem checkComplete_frame (v2 : Nat) (s : State) :
    s.sameBut [.regs, .logm, .feram, .ecc, .logNext, .logCompl, .logCount, .logged, .hamper] (checkComplete v2 s) :=
  (checkComplete_keeps v2 (sub_refl _) (Keeps.refl _ s)).frame rfl

/-- The evaluations after a measure in range. -/
theorem hamper_ledgerSet_tail (c cl v1 : Nat) (s : State) :
    (bankWorn c (holdupEval (writeCFirst c (ledgerSet cl v1 s)))).hamper = { s.hamper with cLedger := cl } := by
  have htail := bankWorn_keeps c (sub_of (sub_refl 3933474) rfl) (holdupEval_keeps (sub_of (sub_refl _) rfl)
    (writeCFirst_keeps c (sub_of (sub_refl _) rfl) (Keeps.refl _ (ledgerSet cl v1 s))))
  exact htail.hamper rfl

theorem hamper_measured (c : Nat) (s : State) :
    (measured c s).hamper = { s.hamper with ageSec := 0, startDone := s.hamper.startDone || s.hamper.startKind } :=
  congrArg (fun h : Hamper => { h with ageSec := 0, startDone := h.startDone || h.startKind }) ((measuredRegs_keeps c s).hamper rfl)

theorem hamper_ledgerFailed (s : State) : (ledgerFailed s).hamper.cLedger = 0 := rfl

theorem ledgerFailed_keeps (s : State) : Keeps 2 (ledgerPut 0 s) (ledgerFailed s) := by
  unfold ledgerFailed
  exact orReg_keeps _ _ (sub_refl _) (setRf_keeps _ _ _ _ (sub_refl _) (setRb_keeps _ _ _ (sub_refl _) (Keeps.refl _ _)))

theorem feram_ledgerPut (cl : Nat) (s : State) : (ledgerPut cl s).feram = s.feram := rfl

theorem feram_measuredHamper (s : State) : (measuredHamper s).feram = s.feram := rfl

theorem feram_ledgerFailed (c : Nat) (s : State) : (ledgerFailed (measured c s)).feram = s.feram := by
  rw [(ledgerFailed_keeps _).feram rfl, feram_ledgerPut, measured, feram_measuredHamper, (measuredRegs_keeps c s).feram rfl]

theorem ledgerSet_shown (cl v1 : Nat) (s : State) :
    (ledgerSet cl v1 s).reg Reg.pwrEhold = w32 (energyUj cl (v1 / 10)) ∧ (ledgerSet cl v1 s).reg Reg.pwrCbank = s.reg Reg.pwrCbank ∧
      (ledgerSet cl v1 s).rb Reg.pwrStat psChecking = s.rb Reg.pwrStat psChecking := by
  refine ⟨reg_setReg_same .., ?_, ?_⟩
  · exact (reg_setReg_ne _ (by decide)).trans ((reg_setRf_ne _ _ _ (by decide)).trans (reg_setRb_ne _ _ (by decide)))
  · exact (rb_of_reg ((reg_setReg_ne _ (by decide)).trans (reg_setRf_ne _ _ _ (by decide))) _).trans
      (rb_setRb_other _ (by decide) (by decide) (by decide))

theorem ledgerFailed_shown (s : State) :
    (ledgerFailed s).rb Reg.pwrStat psCheckFail = true ∧ (ledgerFailed s).rb Reg.pwrEvt 6 = true := by
  refine ⟨?_, rb_orReg_same _ _ _ _ (by decide)⟩
  exact (rb_of_reg ((reg_orReg_ne _ (by decide)).trans (reg_setRf_ne _ _ _ (by decide))) _).trans (rb_setRb_same _ _ _ _ (by decide))

/-- Settles O30: the figures are those of the command's own formulas, and what is evaluated after them leaves them. -/
theorem hamperChecks : Obligations.HamperChecks := by
  unfold Obligations.HamperChecks
  refine ⟨?_, ?_, ?_, ?_, ?_, ?_, ?_, ?_, ?_, ?_⟩
  · intro vbank s
    refine ⟨eavail vbank.toNat s, rfl, (eavail_keeps _ (sub_refl _) (Keeps.refl _ s)).frame rfl, ?_, ?_, ?_⟩
    · exact (reg_setReg_ne _ (by decide)).trans (reg_setReg_same ..)
    · rw [← energyUj_eq]
      exact reg_setReg_same ..
    · exact setReg_regsBut _ (by simp) (setReg_regsBut _ (by simp) (regsBut_refl _ s))
  · intro v1 s hsupply hagain hidle hfilter hmin hdone hcause
    have hready := checkReady_of hsupply hagain hidle hfilter
    have hbegin : startCheck v1.toNat s = beginCheck v1.toNat true s := if_pos (by simp [hmin, hdone, hcause, hready])
    exact ⟨beginCheck v1.toNat true s, congrArg Host.Outcome.next hbegin,
      (beginCheck_keeps _ _ (sub_refl _) (Keeps.refl _ s)).frame rfl, beginCheck_begins ..⟩
  · intro v1 s hsupply hagain hidle hfilter hdue hmin
    have hready := checkReady_of hsupply hagain hidle hfilter
    have hbegin : dailyCheck v1.toNat s = beginCheck v1.toNat false s := by
      rw [dailyCheck_ready hdue hready, if_neg (by omega)]
    exact ⟨beginCheck v1.toNat false s, congrArg Host.Outcome.next hbegin,
      (beginCheck_keeps _ _ (sub_refl _) (Keeps.refl _ s)).frame rfl, beginCheck_begins ..⟩
  · intro v1 s hsupply hagain hidle hfilter hdue hlow
    have hready := checkReady_of hsupply hagain hidle hfilter
    have hretry := dailyCheck_ready hdue hready (v1 := v1.toNat)
    rw [if_pos hlow] at hretry
    exact ⟨_, congrArg Host.Outcome.next hretry, hretry ▸ (dailyCheck_keeps _ (sub_refl _) (Keeps.refl _ s)).frame rfl, rfl, rfl⟩
  · intro v1 s hdue
    exact ⟨dailyCheck v1.toNat s, rfl, (dailyCheck_keeps _ (sub_refl _) (Keeps.refl _ s)).frame rfl, if_pos (by simp [hdue])⟩
  · intro v1 s hdone
    exact ⟨startCheck v1.toNat s, rfl, (startCheck_keeps _ (sub_refl _) (Keeps.refl _ s)).frame rfl, if_neg (by simp [hdone])⟩
  · intro v2 s hchecking hlt hmin hmax
    refine ⟨checkComplete v2.toNat s, rfl, checkComplete_frame .., ?_⟩
    generalize hc : 20000000 / (s.hamper.v1 - v2.toNat) = c at hmin hmax ⊢
    rw [checkComplete_pass hchecking hlt hc hmin hmax, hamper_ledgerSet_tail, hamper_measured]
    have htail := ((writeCFirst_figures c (ledgerSet (c * 97 / 100) s.hamper.v1 (measured c s))).trans (holdupEval_figures _)).trans
      (bankWorn_figures c _)
    obtain ⟨hehold, hcbank, hstat⟩ := ledgerSet_shown (c * 97 / 100) s.hamper.v1 (measured c s)
    refine ⟨rfl, rfl, rfl, htail.ehold.trans hehold, ?_, htail.checking.trans (hstat.trans (checking_measured c s))⟩
    rw [htail.cmeas, rf_of_reg hcbank, cmeas_measured, Nat.mod_eq_of_lt (by omega)]
  · intro v2 s hchecking hout
    refine ⟨checkComplete v2.toNat s, rfl, checkComplete_frame .., ?_⟩
    obtain ⟨c, d, hfail⟩ := checkComplete_fail hchecking hout
    obtain ⟨hstat, hevt⟩ := ledgerFailed_shown (measured c s)
    have hrec := pwrRec_figures (ledgerFailed (measured c s)) 0x206 8 d
    have hrecKeeps := pwrRec_keeps 0x206 8 d (sub_refl _) (Keeps.refl _ (ledgerFailed (measured c s)))
    obtain hfail | hfail := hfail
    · rw [hfail]
      exact ⟨(congrArg Hamper.cLedger (hrecKeeps.hamper rfl)).trans (hamper_ledgerFailed _), hrec.checkFail.trans hstat, hrec.event hevt,
        (hrecKeeps.feram rfl).trans (feram_ledgerFailed c s)⟩
    · have hworn := hrec.trans (bankWorn_figures c _)
      have hwornKeeps := bankWorn_keeps c (sub_refl _) hrecKeeps
      rw [hfail]
      exact ⟨(congrArg Hamper.cLedger (hwornKeeps.hamper rfl)).trans (hamper_ledgerFailed _), hworn.checkFail.trans hstat, hworn.event hevt,
        (hwornKeeps.feram rfl).trans (feram_ledgerFailed c s)⟩
  · intro vin s
    exact ⟨inputRise vin s, rfl, (inputRise_keeps _ (sub_refl _) (Keeps.refl _ s)).frame rfl, inputRise_spec vin s⟩
  · intro vin s
    exact ⟨vinRange vin s, rfl, (vinRange_keeps _ (sub_refl _) (Keeps.refl _ s)).frame rfl, vinRange_spec vin s⟩

end Sys2Proof.Machine
end

section
/-! PROOFS. The minor-cycle boundary and the start of a path (R50, R56, R59, R130): O28. -/

namespace Sys2Proof.Machine

/-! ## What landing and path faults leave of the engine -/

/-- The engine without its registers, the results under way and the marks of path faults. -/
def Eng.control (e : Eng) : Eng := { e with w := [], p := [], inflight := [], pf := [], pfOrder := [], pfNew := [] }

/-- From r to s only registers, landing results and marks of path faults of the engine may differ. -/
structure ControlStands (r s : State) : Prop where
  control : s.eng.control = r.eng.control

variable {r s : State}

theorem ControlStands.refl (s : State) : ControlStands s s := ⟨rfl⟩

theorem ControlStands.trans {t : State} (h : ControlStands r s) (k : ControlStands s t) : ControlStands r t := ⟨k.control.trans h.control⟩

theorem ControlStands.of_eng (h : s.eng = r.eng) : ControlStands r s := ⟨congrArg Eng.control h⟩

theorem ControlStands.absM (h : ControlStands r s) : s.eng.absM = r.eng.absM := (congrArg Eng.absM h.control :)

theorem ControlStands.execCyc (h : ControlStands r s) : s.eng.execCyc = r.eng.execCyc := (congrArg Eng.execCyc h.control :)

theorem ControlStands.spareCyc (h : ControlStands r s) : s.eng.spareCyc = r.eng.spareCyc := (congrArg Eng.spareCyc h.control :)

theorem ControlStands.fabLatch (h : ControlStands r s) : s.eng.fabLatch = r.eng.fabLatch := (congrArg Eng.fabLatch h.control :)

theorem ControlStands.slotBase (h : ControlStands r s) : s.eng.slotBase = r.eng.slotBase := (congrArg Eng.slotBase h.control :)

theorem ControlStands.released (h : ControlStands r s) : s.eng.released = r.eng.released := (congrArg Eng.released h.control :)

theorem ControlStands.run (h : ControlStands r s) : s.eng.run = r.eng.run := (congrArg Eng.run h.control :)

theorem ControlStands.loops (h : ControlStands r s) : s.eng.loops = r.eng.loops := (congrArg Eng.loops h.control :)

theorem ControlStands.elapsed (h : ControlStands r s) : s.eng.elapsed = r.eng.elapsed := (congrArg Eng.elapsed h.control :)

theorem landOne_control (s : State) (x : Pend) : ControlStands s (s.landOne x) := by
  unfold State.landOne State.putP State.putW
  split <;> split <;> exact ⟨rfl⟩

theorem landAll_control (l : List Pend) (s : State) : ControlStands s (s.landAll l) := by
  induction l generalizing s with
  | nil => exact .refl s
  | cons x l ih => exact (landOne_control s x).trans (ih _)

theorem landEnd_control (s : State) : ControlStands s s.landEnd :=
  ControlStands.trans (s := { s with eng := { s.eng with inflight := [] } }) ⟨rfl⟩ (landAll_control _ _)

theorem pathFault_control (s : State) (p cause : Nat) : ControlStands s (s.pathFault p cause) := ⟨rfl⟩

theorem readPath_control (s : State) (p : Nat) : ControlStands s (readPath s p).2 := by
  unfold readPath
  have hlog : ∀ (t : State) code sev d, ControlStands t (t.logOnce code 1 sev p d) := fun t code sev d =>
    .of_eng ((logOnce_keeps _ _ _ _ _ (sub_refl _) (Keeps.refl _ t)).eng rfl)
  have hded : ∀ t : State, ControlStands t (t.dedEvent mcPtab (ptabAddr false p)) := fun t =>
    .of_eng ((dedEvent_keeps _ _ (sub_refl _) (Keeps.refl _ t)).eng rfl)
  have hsec : ∀ t : State, ControlStands t (t.secEvent mcPtab) := fun t => .of_eng ((secEvent_keeps _ (sub_refl _) (Keeps.refl _ t)).eng rfl)
  split
  · exact .refl s
  · exact hsec s
  · split
    · extract_lets s1 s2
      have h2 : ControlStands s s2 :=
        .of_eng ((setReg_keeps _ _ (sub_refl 2) (orReg_keeps _ _ (sub_refl 2) (satRf_keeps _ _ _ _ (sub_refl 2) (Keeps.refl 2 s)))).eng rfl)
      exact (h2.trans (pathFault_control s2 p 3)).trans (hlog _ _ _ _)
    · exact ((hded s).trans (hsec _)).trans (hlog _ _ _ _)
    · exact (hded s).trans (hlog _ _ _ _)

theorem ControlStands.foldl {α : Type} {f : State → α → State} (hf : ∀ t x, ControlStands t (f t x)) (l : List α) (s : State) :
    ControlStands s (l.foldl f s) := by
  induction l generalizing s with
  | nil => exact .refl s
  | cons x l ih => exact (hf s x).trans (ih _)

theorem tableScan_control (s : State) : ControlStands s (tableScan s) := by
  unfold tableScan
  extract_lets ps
  refine .foldl (fun t p => ?_) ps s
  extract_lets e
  split
  · exact readPath_control t p
  · exact .refl t

theorem serviceTurn_control (s : State) (v : Nat) : ControlStands s (serviceTurn s v) := by
  unfold serviceTurn
  split
  · exact .refl s
  · extract_lets s1 s2
    have h1 : ControlStands s s1 := by
      unfold s1
      split
      · exact .of_eng ((serviceEnd_keeps _ _ (sub_refl _) (Keeps.refl _ s)).eng rfl)
      · exact .refl s
    exact h1.trans ⟨rfl⟩

theorem serviceTurns_control (s : State) : ControlStands s (serviceTurns s) := .foldl serviceTurn_control _ s

/-! ## The boundary while minor cycles run -/

/-- What a boundary has done to the times and counts of the engine when its paths begin. -/
structure Advanced (s t : State) : Prop where
  opUs : t.opUs = s.opUs + s.minorNs / 1000
  fabTime : t.fabTime = s.fabTime + s.minorNs
  absM : t.eng.absM = s.eng.absM + 1
  execCyc : t.eng.execCyc = 0
  spareCyc : t.eng.spareCyc = 0
  fabLatch : t.eng.fabLatch = s.fabTime + s.minorNs
  slotBase : t.eng.slotBase = s.fabTime + s.minorNs
  released : t.eng.released = s.eng.released

theorem Advanced.next {s t u : State} (h : Advanced s t) (hop : u.opUs = t.opUs) (hfab : u.fabTime = t.fabTime) (hctl : ControlStands t u) :
    Advanced s u where
  opUs := hop.trans h.opUs
  fabTime := hfab.trans h.fabTime
  absM := hctl.absM.trans h.absM
  execCyc := hctl.execCyc.trans h.execCyc
  spareCyc := hctl.spareCyc.trans h.spareCyc
  fabLatch := hctl.fabLatch.trans h.fabLatch
  slotBase := hctl.slotBase.trans h.slotBase
  released := hctl.released.trans h.released

theorem Advanced.keeps {m : Nat} {s t u : State} (h : Advanced s t) (k : Keeps m t u) (hop : m.testBit 23 = false)
    (hfab : m.testBit 25 = false) (heng : m.testBit 11 = false) : Advanced s u :=
  h.next (k.opUs hop) (k.fabTime hfab) (.of_eng (k.eng heng))

theorem showIdle_tteStat (s : State) : (showIdle s).reg Reg.tteStat = s.reg Reg.tteStat := by
  unfold showIdle
  extract_lets i s1
  have h1 : s1.reg Reg.tteStat = s.reg Reg.tteStat := (reg_setReg_ne _ (by decide)).trans (reg_setReg_ne _ (by decide))
  split
  · exact (reg_setReg_ne _ (by decide)).trans ((reg_setRf_ne _ _ _ (by decide)).trans h1)
  · exact h1

theorem minorNs_of_reg {s t : State} (h : t.reg Reg.tteStat = s.reg Reg.tteStat) : t.minorNs = s.minorNs :=
  congrArg (fun k => 25000 * 2 ^ k) (rf_of_reg h 5 4)

/-- What advanceM has done before the cycle counts start anew. -/
structure Counted (s t : State) : Prop where
  opUs : t.opUs = s.opUs + s.minorNs / 1000
  fabTime : t.fabTime = s.fabTime + s.minorNs
  absM : t.eng.absM = s.eng.absM + 1
  released : t.eng.released = s.eng.released

theorem advanceM_counted (s : State) : Counted s (advanceM s) := by
  unfold advanceM
  extract_lets m e s1 s2
  split
  · have hmajor := newMajor_keeps (sub_refl _) (Keeps.refl _ s2)
    exact ⟨hmajor.opUs rfl, hmajor.fabTime rfl, (congrArg Eng.absM (hmajor.eng rfl) :), (congrArg Eng.released (hmajor.eng rfl) :)⟩
  · exact ⟨rfl, rfl, rfl, rfl⟩

theorem endMinor_counted (s : State) (hfirst : s.eng.firstMinor = false) : Counted s (endMinor s) := by
  have hland := landEnd_keeps (sub_refl _) (Keeps.refl _ s)
  have hidle := showIdle_keeps (sub_refl _) (Keeps.refl _ s.landEnd)
  have hns : (showIdle s.landEnd).minorNs = s.minorNs :=
    minorNs_of_reg ((showIdle_tteStat _).trans (congrArg (fun x => sget _ x _) (hland.regs rfl)))
  have hctl : ControlStands s (showIdle s.landEnd) := (landEnd_control s).trans (.of_eng (hidle.eng rfl))
  obtain ⟨hop, hfab, hm, hrel⟩ := advanceM_counted (showIdle s.landEnd)
  rw [hns, hidle.opUs rfl, hland.opUs rfl] at hop
  rw [hns, hidle.fabTime rfl, hland.fabTime rfl] at hfab
  unfold endMinor
  rw [if_neg (by simp [hfirst])]
  exact ⟨hop, hfab, hm.trans (congrArg (· + 1) hctl.absM), hrel.trans hctl.released⟩

theorem beginMinor_advanced {s t : State} (h : Counted s t) : Advanced s (beginMinor t) :=
  ⟨h.opUs, h.fabTime, h.absM, rfl, rfl, h.fabTime, h.fabTime, h.released⟩

theorem imagePaths_advanced {s t : State} (wrapped : Bool) (h : Advanced s t) : Advanced s (imagePaths wrapped t) := by
  have hturns : Advanced s (serviceTurns t) := by
    have hkeeps := serviceTurns_keeps (sub_refl _) (Keeps.refl _ t)
    exact h.next (hkeeps.opUs rfl) (hkeeps.fabTime rfl) (serviceTurns_control t)
  unfold imagePaths
  have hkeeps := lcdMinor_keeps (sub_of (sub_refl 3289948989290) rfl) (meterRun_keeps (sub_of (sub_refl _) rfl) (parcelPump_keeps (sub_of (sub_refl _) rfl)
    (soutDrain_keeps (sub_of (sub_refl _) rfl) (jobRun_keeps (sub_of (sub_refl _) rfl) (secServe_keeps (sub_of (sub_refl _) rfl)
    (fabBoundary_keeps wrapped (sub_of (sub_refl _) rfl) (Keeps.refl _ (serviceTurns t))))))))
  exact hturns.keeps hkeeps rfl rfl rfl

/-- The boundary up to the image's turns, as a chain: the stagger counts down, attention and the mirrors follow. -/
theorem boundary_advanced (s : State) (hfirst : s.eng.firstMinor = false) : Advanced s (boundary s) := by
  unfold boundary
  extract_lets first report s1 wrapped s2 s3 b s4 s5
  have h1 : Advanced s s1 := beginMinor_advanced (endMinor_counted s hfirst)
  clear_value s1
  have h2 : Advanced s s2 := by
    unfold s2
    split
    · exact h1
    · exact h1.keeps (parTime_keeps _ (sub_refl _) (Keeps.refl _ s1)) rfl rfl rfl
  clear_value s2
  have hscan : Advanced s (tableScan s2) := by
    have hkeeps := tableScan_keeps (sub_refl _) (Keeps.refl _ s2)
    exact h2.next (hkeeps.opUs rfl) (hkeeps.fabTime rfl) (tableScan_control s2)
  have h3 : Advanced s s3 :=
    ((hscan.keeps (ledgerRefill_keeps (sub_refl _) (Keeps.refl _ _)) rfl rfl rfl).keeps (keyTakes_keeps (sub_refl _) (Keeps.refl _ _)) rfl rfl rfl).keeps
      (commitAll_keeps (sub_refl _) (Keeps.refl _ _)) rfl rfl rfl
  clear_value s3
  have h4 : Advanced s s4 := by
    unfold s4
    split
    · exact h3
    · exact h3.next rfl rfl ⟨rfl⟩
  clear_value s4
  have h5 : Advanced s s5 :=
    (h4.keeps (attention_keeps _ (sub_refl _) (Keeps.refl _ _)) rfl rfl rfl).keeps (refresh_keeps _ (sub_refl _) (Keeps.refl _ _)) rfl rfl rfl
  clear_value s5
  refine imagePaths_advanced _ ?_
  split
  · exact h5
  · exact h5.keeps (idleReport_keeps _ (sub_refl _) (Keeps.refl _ _)) rfl rfl rfl

/-! ## The boundary in the last train, and the switch to it -/

theorem fld_lt (w : Word) (hi lo : Nat) : fld w hi lo < 2 ^ (hi + 1 - lo) := Nat.mod_lt _ (by positivity)

theorem reg_foldl_of {α : Type} {f : State → α → State} {a : Nat} {l : List α} (hf : ∀ t, ∀ x ∈ l, (f t x).reg a = t.reg a) (s : State) :
    (l.foldl f s).reg a = s.reg a := by
  induction l generalizing s with
  | nil => rfl
  | cons x l ih => exact (ih (fun t y hy => hf t y (List.mem_cons_of_mem _ hy)) _).trans (hf s x List.mem_cons_self)

/-! Of the registers 0xA0000 to 0xA0103 the showing of the pair's state touches PAR_STAT and PAR_KNOWN alone. -/

section
variable {a : Nat} (hlo : 0xA0000 ≤ a) (hhi : a < 0xA0104)
include hlo hhi

theorem reg_groupClear_par (s : State) (g : Nat) (hg : g < 6) : (groupClear s g).reg a = s.reg a := by
  have hwait : a ≠ Reg.pwrAgWait g := by unfold Reg.pwrAgWait; omega
  have hledger : a ≠ Reg.pwrAgLedger g := by unfold Reg.pwrAgLedger; omega
  unfold groupClear putWaiting setLedger
  exact (reg_setRf_ne _ _ _ hwait).trans (reg_setReg_ne _ hledger)

theorem reg_sbShow_par (s : State) (k : Nat) : (sbShow s k).reg a = s.reg a := reg_setReg_ne _ (by unfold Reg.parSbStat; omega)

theorem reg_testEnd_par (slot flags cause samples : Nat) (s : State) (hslot : slot < 2 ^ 7) :
    (testEnd slot flags cause samples s).reg a = s.reg a := by
  have hlp : a ≠ Reg.ctlLpStat slot := by unfold Reg.ctlLpStat; omega
  have hts : a ≠ Reg.ctlTsStat := by unfold Reg.ctlTsStat; omega
  have hevt : a ≠ Reg.ctlEvt := by unfold Reg.ctlEvt; omega
  have hstat : a ≠ Reg.ctlStat := by unfold Reg.ctlStat; omega
  have hlog : a ≠ Reg.logEvt := by unfold Reg.logEvt; omega
  unfold testEnd
  extract_lets c s1 s2
  have h2 : s2.reg a = s.reg a := (reg_setRb_ne _ _ hstat).trans ((reg_orReg_ne _ hevt).trans (reg_setReg_ne _ hts))
  rw [reg_republish, reg_setRb_ne _ _ hlp, ctlRec, reg_logOnce _ _ _ _ _ _ hlog, h2]

theorem reg_testCut_par (cause : Nat) (s : State) : (testCut cause s).reg a = s.reg a := by
  unfold testCut
  split
  · exact reg_testEnd_par hlo hhi _ _ _ _ _ (fld_lt _ 6 0)
  · rfl

theorem reg_gateEdge_par (before s : State) : (gateEdge before s).reg a = s.reg a := by
  unfold gateEdge gateResetAll
  split
  · exact reg_foldl_of (fun t g hg => reg_groupClear_par hlo hhi t g (List.mem_range.1 hg)) s
  · rfl

theorem reg_parShow_own (before s : State) :
    (parShow before s).reg a =
      ((s.setRb Reg.parStat 3 (holdsTablet s)).setRf Reg.parKnown 15 0 (min ((s.pair.knownUs + 999) / 1000) 65535)).reg a := by
  unfold parShow
  extract_lets s1 s2
  have h2 : s2.reg a = s1.reg a := by
    unfold s2
    split
    · exact reg_testCut_par hlo hhi _ _
    · rfl
  rw [reg_republish, reg_gateEdge_par hlo hhi, reg_foldl_of (fun t k _ => reg_sbShow_par hlo hhi t k), h2]

theorem reg_parShow (before s : State) (hstat : a ≠ Reg.parStat) (hknown : a ≠ Reg.parKnown) : (parShow before s).reg a = s.reg a :=
  (reg_parShow_own hlo hhi before s).trans ((reg_setRf_ne _ _ _ hknown).trans (reg_setRb_ne _ _ hstat))

end

theorem parStat_parShow (before s : State) : (parShow before s).rb Reg.parStat 3 = holdsTablet s :=
  (rb_of_reg ((reg_parShow_own (by decide) (by decide) before s).trans (reg_setRf_ne _ _ _ (by decide))) 3).trans
    (rb_setRb_same _ _ _ _ (by decide))

theorem parLease_parTime (us : Nat) (s : State) :
    (parTime us s).reg Reg.parLease = w32 (min (s.rf Reg.parLease 18 0 - (us - s.pair.leaseUs)) 289000) := by
  unfold parTime
  extract_lets p s1
  exact (reg_parShow (by decide) (by decide) _ _ (by decide) (by decide)).trans (reg_setReg_same ..)

theorem warmSwitch_spec (s : State) :
    phaseOf (warmSwitch s) = 8 ∧ (warmSwitch s).rb Reg.tteStat 0 = false ∧ (warmSwitch s).rb Reg.tteStat 1 = true ∧
      (warmSwitch s).rb Reg.tteStat 2 = true ∧ (warmSwitch s).boot.warmTrain = true ∧ (warmSwitch s).eng.ltNext = 0 := by
  unfold warmSwitch
  extract_lets s1 s2 e b
  have hstat : ∀ u : State, u.regs = s2.regs → ∀ i, (u.setRf Reg.sysStat 3 0 8).rb Reg.tteStat i = s2.rb Reg.tteStat i :=
    fun u hu i => (rb_of_reg (reg_setRf_ne _ _ _ (by decide)) i).trans (rb_of_reg (congrArg (fun x => sget (regReset Reg.tteStat) x Reg.tteStat) hu) i)
  refine ⟨?_, ?_, ?_, ?_, rfl, rfl⟩
  · exact rf_setRf_same _ _ _ _ _ (by decide) (by decide)
  · refine (hstat _ rfl 0).trans ?_
    rw [rb_setRb_other _ (by decide) (by decide) (by decide), rb_setRb_other _ (by decide) (by decide) (by decide),
      rb_setRb_same _ _ _ _ (by decide)]
  · refine (hstat _ rfl 1).trans ?_
    rw [rb_setRb_other _ (by decide) (by decide) (by decide), rb_setRb_same _ _ _ _ (by decide)]
  · refine (hstat _ rfl 2).trans ?_
    rw [rb_setRb_same _ _ _ _ (by decide)]

/-! ## The start of a path (R56, R59) -/

/-- The counts of a path that starts: ELAPSED, and its last start. -/
def pathCounted (s : State) (p : Nat) : State :=
  { s with eng := { s.eng with
      elapsed := w32 (if sget 0 s.eng.prevStart p = 0 then 0 else s.eng.absM + 1 - sget 0 s.eng.prevStart p)
      prevStart := sset 0 s.eng.prevStart p (s.eng.absM + 1), starts := sset 0 s.eng.starts p (sget 0 s.eng.starts p + 1) } }

/-- A run in progress for path p with no loop open. -/
structure RunBegun (p : Nat) (r s : State) : Prop where
  run : ∃ x, s.eng.run = some x ∧ x.path = p
  loops : s.eng.loops = []
  elapsed : s.eng.elapsed = r.eng.elapsed

theorem RunBegun.next {p : Nat} {r s t : State} (h : RunBegun p r s) (hctl : ControlStands s t) : RunBegun p r t :=
  ⟨hctl.run ▸ h.run, hctl.loops.trans h.loops, hctl.elapsed.trans h.elapsed⟩

theorem beginRun_begun (s : State) (p start : Nat) (e : PEntry) : RunBegun p s (s.beginRun p start e) := by
  unfold State.beginRun
  extract_lets items bad s1 run e2 s2
  have h1 : ControlStands s s1 := (landEnd_control s).trans (.of_eng ((fetchSec_keeps _ (sub_refl _) (Keeps.refl _ s.landEnd)).eng rfl))
  have h2 : RunBegun p s s2 := ⟨⟨run, rfl, rfl⟩, rfl, h1.elapsed⟩
  clear_value s2 run e2 s1 bad
  split
  · exact h2
  · rename_i x
    extract_lets s3 e4
    have h3 : RunBegun p s s3 := by
      have hded := h2.next (.of_eng ((dedEvent_keeps mcCode (16 * x.idx) (sub_refl _) (Keeps.refl _ s2)).eng rfl))
      have hfault := hded.next (pathFault_control _ p 1)
      have hkeeps := faultMissed_keeps (sub_refl _) (logOnce_keeps 0x101 1 12 p [w32 p, w32 x.idx] (sub_refl _)
        (Keeps.refl _ ((s2.dedEvent mcCode (16 * x.idx)).pathFault p 1)))
      exact hfault.next (.of_eng (hkeeps.eng rfl))
    clear_value s3
    split
    · exact h3.next ⟨rfl⟩
    · exact h3

theorem runPath_begun (s : State) (p : Nat) (e : PEntry) : RunBegun p (pathCounted s p) (s.runPath p e) := by
  obtain ⟨hrun, hloops, helapsed⟩ := beginRun_begun (pathCounted s p) p e.offset e
  exact ⟨hrun, hloops, helapsed⟩

theorem curPath_of_begun {p : Nat} {r s : State} (h : RunBegun p r s) : s.curPath = p := by
  obtain ⟨x, hx, hp⟩ := h.run
  unfold State.curPath
  rw [hx]
  exact hp

theorem skipPath_eng (s : State) (p length : Nat) :
    (s.skipPath p length).eng = { s.eng with spareCyc := s.eng.spareCyc + length } :=
  (commitMissed_keeps p (planBlocks s p) (sub_refl _) (Keeps.refl _ { s with eng := { s.eng with spareCyc := s.eng.spareCyc + length } })).eng rfl

section
variable {p : Nat} (hrun : s.rb Reg.tteStat 0 = true) (hhalt : s.rb Reg.tteStat 1 = false) (hlt : s.hamper.ltPending = false)
  (hecc : s.eccAt mcPtab (ptabAddr false p) = .ok) (hen : (ptabEntry s.code false p).enable = true)
  (hlast : (ptabEntry s.code false p).lastTrain = false)
  (hphase : s.m % 2 ^ (ptabEntry s.code false p).kexp = (ptabEntry s.code false p).phase) (hsil : bit (s.pfOf p) 1 = false)
include hrun hhalt hlt hecc hen hlast hphase hsil

theorem pathStart_selected : pathStart p s =
    if (ptabEntry s.code false p).armedOnly && !(s.armed (ptabEntry s.code false p).armflag) then
      s.skipPath p (ptabEntry s.code false p).length
    else s.runPath p (ptabEntry s.code false p) := by
  unfold pathStart readPath
  rw [if_neg (by simp [hrun, hhalt, hlt]), hecc]
  simp only
  rw [if_neg (by simp [hen, hlast, hphase]), if_neg (by simp [hsil])]

end

/-- Settles O28: only the advance at the minor cycle's end touches the times, and only the start of a run its path. -/
theorem minorCycleAndPathStart : Obligations.MinorCycleAndPathStart := by
  unfold Obligations.MinorCycleAndPathStart
  refine ⟨?_, ?_, ?_, ?_, ?_⟩
  · intro s hrel hrun hlt hprog hwarm hfirst
    have hb : minorBoundary s = boundary s := by
      unfold minorBoundary
      rw [if_pos (by simp [hrel, hrun, hlt, hprog]), if_neg (by simp [hwarm])]
    obtain ⟨hop, hfab, habs, hexec, hspare, hlatch, hslot, hreleased⟩ := boundary_advanced s hfirst
    exact ⟨boundary s, congrArg Host.Outcome.next hb, (boundary_keeps (sub_refl _) (Keeps.refl _ s)).frame rfl, hop, hfab, habs, hexec, hspare,
      hlatch, hslot, hreleased.trans hrel⟩
  · intro s hrel hrun hprog
    have hb : minorBoundary s = islandBoundary s := by
      unfold minorBoundary
      rw [if_neg (by simp [hrun]), if_pos (by simp [hrel, hrun, hprog])]
    have hkeeps := parTime_keeps (s.minorNs / 1000) (sub_refl _) (Keeps.refl _ { s with
      fabTime := s.fabTime + s.minorNs, opUs := s.opUs + s.minorNs / 1000, eng := { s.eng with slotBase := s.fabTime + s.minorNs } })
    exact ⟨islandBoundary s, congrArg Host.Outcome.next hb, hb ▸ (minorBoundary_keeps (sub_refl _) (Keeps.refl _ s)).frame rfl,
      hkeeps.fabTime rfl, hkeeps.opUs rfl, hkeeps.eng rfl, parLease_parTime ..⟩
  · intro k s hrel hrun hlt hprog hwarm
    have hb : minorBoundary s = warmSwitch s := by
      unfold minorBoundary
      rw [if_pos (by simp [hrel, hrun, hlt, hprog]), if_pos (by simp [hwarm])]
    exact ⟨warmSwitch s, congrArg Host.Outcome.next hb, hb ▸ (minorBoundary_keeps (sub_refl _) (Keeps.refl _ s)).frame rfl, warmSwitch_spec s⟩
  · intro path s hrun hhalt hlt hecc hen hlast hphase hsil harm
    have hstart := pathStart_selected hrun hhalt hlt hecc hen hlast hphase hsil
    rw [if_neg (by obtain h | h := harm <;> simp [h])] at hstart
    have hbegun := runPath_begun s path.val (ptabEntry s.code false path.val)
    exact ⟨s.runPath path.val (ptabEntry s.code false path.val), congrArg Host.Outcome.next hstart,
      (runPath_keeps _ _ (sub_refl _) (Keeps.refl _ s)).frame rfl, curPath_of_begun hbegun, hbegun.loops, hbegun.elapsed⟩
  · intro path s hrun hhalt hlt hecc hen hlast hphase hsil honly harm
    have hstart := pathStart_selected hrun hhalt hlt hecc hen hlast hphase hsil
    rw [if_pos (by simp [honly, harm])] at hstart
    have heng := skipPath_eng s path.val (ptabEntry s.code false path.val).length
    exact ⟨s.skipPath path.val (ptabEntry s.code false path.val).length, congrArg Host.Outcome.next hstart,
      (skipPath_keeps _ _ (sub_refl _) (Keeps.refl _ s)).frame rfl, (congrArg Eng.spareCyc heng :), (congrArg Eng.run heng :), (congrArg Eng.w heng :)⟩

end Sys2Proof.Machine
end

section
/-! PROOFS. The writes to the registers of chapters 06, 09 and 12 (R165, R177, R241 to R243, R325): O31. -/

namespace Sys2Proof.Machine

/-! ## Calibration hold (R165) -/

theorem calholdWrite_changed (m : Master) (w : Word) (s : State) (h : w &&& ~~~(regRsv Reg.mtrCalhold) ≠ s.reg Reg.mtrCalhold) :
    (calholdWrite m w s).reg Reg.mtrCalhold = w &&& ~~~(regRsv Reg.mtrCalhold) ∧ (calholdWrite m w s).rb Reg.mtrEvt 9 = true ∧
      s.regsBut [Reg.mtrCalhold, Reg.mtrEvt, Reg.logEvt] (calholdWrite m w s) := by
  unfold calholdWrite mtrRec
  extract_lets v s1
  rw [if_neg h]
  refine ⟨?_, ?_, ?_⟩
  · rw [reg_logOnce _ _ _ _ _ _ (by decide), reg_orReg_ne _ (by decide)]
    exact reg_setReg_same ..
  · rw [rb_of_reg (reg_logOnce _ _ _ _ _ _ (by decide))]
    exact rb_orReg_same _ _ _ _ (by decide)
  · exact logOnce_regsBut _ _ _ _ _ (by simp) (setReg_regsBut _ (by simp) (setReg_regsBut _ (by simp) (regsBut_refl _ s)))

theorem calholdWrite_same (m : Master) (w : Word) (s : State) (h : w &&& ~~~(regRsv Reg.mtrCalhold) = s.reg Reg.mtrCalhold) :
    s.regsBut [] (calholdWrite m w s) ∧ (calholdWrite m w s).logNext = s.logNext := by
  unfold calholdWrite
  extract_lets v s1
  rw [if_pos h]
  refine ⟨fun a _ => ?_, rfl⟩
  by_cases ha : a = Reg.mtrCalhold
  · subst ha
    exact (reg_setReg_same ..).trans h
  · exact reg_setReg_ne _ ha

/-! ## Waveform capture (R177) -/

theorem wcArm_free {w : Word} {s : State} (hbusy : s.rb Reg.mtrWcCtrl 0 = false) (harm : bit w 0 = true) :
    wcArm w s =
      if qSize s (s.rf Reg.mtrWcCfg 5 0) ≠ 0 ∧ qProd s (s.rf Reg.mtrWcCfg 5 0) = epEngine ∧ qCons s (s.rf Reg.mtrWcCfg 5 0) = epHost then
        s.setReg Reg.mtrWcCtrl (setBit (w &&& ~~~(regRsv Reg.mtrWcCtrl)) 0 true)
      else endCapture true 0 (s.setReg Reg.mtrWcCtrl (setBit (w &&& ~~~(regRsv Reg.mtrWcCtrl)) 0 true)) := by
  unfold wcArm
  extract_lets busy v s1 q
  have hv : v = setBit (w &&& ~~~(regRsv Reg.mtrWcCtrl)) 0 true := by
    unfold v
    rw [harm, Bool.or_true]
  rw [if_neg (by simp [busy, hbusy, harm])]
  unfold s1
  rw [hv]

theorem reg_publish_second (s : State) (a b : Nat) (v w : Word) : (s.publish [(a, v), (b, w)]).reg b = w := by
  rw [State.publish, reg_publish_cons _ _ _ _ _ (by simp), if_pos rfl]

theorem endCapture_trunc (s : State) :
    (endCapture true 0 s).reg Reg.mtrWcStat = 6#32 ∧ (endCapture true 0 s).mtr = { s.mtr with cap := none, capq := [] } ∧
      (endCapture true 0 s).rb Reg.mtrEvt 7 = true := by
  have hrest : ∀ u : State, ∀ d, ((mtrRec (u.orReg Reg.mtrEvt 0x80) 0x30A 4 0 d).republish [Reg.mtrEvt]).reg Reg.mtrWcStat = u.reg Reg.mtrWcStat :=
    fun u d => (reg_republish _ _).trans ((reg_logOnce _ _ _ _ _ _ (by decide)).trans (reg_orReg_ne _ (by decide)))
  have hevt : ∀ u : State, ∀ d, ((mtrRec (u.orReg Reg.mtrEvt 0x80) 0x30A 4 0 d).republish [Reg.mtrEvt]).rb Reg.mtrEvt 7 = true :=
    fun u d => (rb_of_reg ((reg_republish _ _).trans (reg_logOnce _ _ _ _ _ _ (by decide))) 7).trans (rb_orReg_same _ _ _ _ (by decide))
  have hkeeps : ∀ u : State, ∀ l d, Keeps 3933226 u ((mtrRec ((u.publish l).orReg Reg.mtrEvt 0x80) 0x30A 4 0 d).republish [Reg.mtrEvt]) := fun u l d =>
    republish_keeps _ (sub_of (sub_refl _) rfl) (mtrRec_keeps _ _ _ _ (sub_of (sub_refl _) rfl) (orReg_keeps _ _ (sub_of (sub_refl _) rfl)
      (publish_keeps _ (sub_of (sub_refl _) rfl) (Keeps.refl _ u))))
  unfold endCapture
  extract_lets mt s1
  rw [if_pos rfl]
  exact ⟨(hrest s1 _).trans (reg_publish_second ..), (hkeeps _ _ _).mtr rfl, hevt s1 _⟩

/-! ## The test generator (R241 to R243) -/

/-- A test that ends by itself or is stopped, as its registers show it. -/
theorem testEnd_shown (flags cause samples : Nat) (s : State) {slot : Nat} (hslot : slot < 2 ^ 7) :
    (testEnd slot flags cause samples s).ctl = { s.ctl with test := none } ∧
      (testEnd slot flags cause samples s).reg Reg.ctlTsStat = w32 (2 * flags + 16 * cause + (samples % 2 ^ 13) * 2 ^ 16) ∧
      (testEnd slot flags cause samples s).rb Reg.ctlEvt 6 = true ∧ (testEnd slot flags cause samples s).rb Reg.ctlStat 3 = false ∧
      (testEnd slot flags cause samples s).reg Reg.ctlTsCtrl = s.reg Reg.ctlTsCtrl := by
  have hlp : ∀ a, 0x65000 ≤ a ∨ a < 0x61000 → a ≠ Reg.ctlLpStat slot := by unfold Reg.ctlLpStat; omega
  unfold testEnd
  extract_lets c s1 s2
  have hout : ∀ a, 0x65000 ≤ a ∨ a < 0x61000 → a ≠ Reg.logEvt → ∀ code sev d l,
      (((ctlRec s2 code sev slot d).setRb (Reg.ctlLpStat slot) 7 false).republish l).reg a = s2.reg a := by
    intro a ha hlog code sev d l
    exact (reg_republish _ _).trans ((reg_setRb_ne _ _ (hlp a ha)).trans (reg_logOnce _ _ _ _ _ _ hlog))
  refine ⟨?_, ?_, ?_, ?_, ?_⟩
  · have hkeeps : Keeps 3933226 s1 s2 := setRb_keeps _ _ _ (sub_of (sub_refl _) rfl) (orReg_keeps _ _ (sub_of (sub_refl _) rfl)
      (setReg_keeps _ _ (sub_of (sub_refl _) rfl) (Keeps.refl _ _)))
    have hlast : Keeps 3933226 s1 (((ctlRec s2 0x608 4 slot [w32 slot, w32 (flags + 16 * cause)]).setRb (Reg.ctlLpStat slot) 7 false).republish
        [Reg.ctlTsStat, Reg.ctlEvt, Reg.ctlStat, Reg.ctlLpStat slot]) :=
      republish_keeps _ (sub_of (sub_refl _) rfl) (setRb_keeps _ _ _ (sub_of (sub_refl _) rfl)
        (logOnce_keeps _ _ _ _ _ (sub_of (sub_refl _) rfl) hkeeps))
    exact hlast.ctl rfl
  · rw [hout _ (by decide) (by decide)]
    exact (reg_setRb_ne _ _ (by decide)).trans ((reg_orReg_ne _ (by decide)).trans (reg_setReg_same ..))
  · rw [rb_of_reg (hout _ (by decide) (by decide) _ _ _ _)]
    exact (rb_of_reg (reg_setRb_ne _ _ (by decide)) 6).trans (rb_orReg_same _ _ _ _ (by decide))
  · rw [rb_of_reg (hout _ (by decide) (by decide) _ _ _ _)]
    exact rb_setRb_same _ _ _ _ (by decide)
  · rw [hout _ (by decide) (by decide)]
    exact (reg_setRb_ne _ _ (by decide)).trans ((reg_orReg_ne _ (by decide)).trans (reg_setReg_ne _ (by decide)))

/-- A test of the held registers that begins. -/
def testBegun (count : Nat) (s : State) : TestGen :=
  { cfg := s.reg Reg.ctlTsCfg, amp := s.reg Reg.ctlTsAmp, f0 := s.reg Reg.ctlTsF0, f1 := s.reg Reg.ctlTsF1, count := count,
    k := 0, lfsr := 0x1FF, phi := some 0 }

/-- R241 admits a test. -/
def TestAdmitted (count : Nat) (s : State) : Prop :=
  lpMode s (fld (s.reg Reg.ctlTsCfg) 6 0) = 1 ∧ fld (s.reg Reg.ctlTsCfg) 9 8 ≠ 0 ∧ 1 ≤ count ∧ count ≤ 4096 ∧
    testQueueOk s (fld (s.reg Reg.ctlTsCfg) 21 16) count = true

theorem testRun_admitted {count : Nat} {s : State} (hfree : s.ctl.test = none) (h : TestAdmitted count s) :
    (testRun count s).ctl = { s.ctl with test := some (testBegun count s) } ∧ (testRun count s).reg Reg.ctlTsStat = 1#32 ∧
      (testRun count s).rb Reg.ctlStat 3 = true := by
  unfold testRun
  extract_lets s1 cfg slot c s2
  rw [if_neg (by simp [hfree]), if_pos (show lpMode s slot = 1 ∧ fld cfg 9 8 ≠ 0 ∧ 1 ≤ count ∧ count ≤ 4096 ∧ testQueueOk s (fld cfg 21 16) count = true from h)]
  refine ⟨?_, ?_, ?_⟩
  · exact (republish_keeps [Reg.ctlTsStat, Reg.ctlStat] (sub_of (sub_refl 1034) rfl) (setRb_keeps Reg.ctlStat 3 true (sub_of (sub_refl _) rfl)
      (setReg_keeps Reg.ctlTsStat 1#32 (sub_of (sub_refl _) rfl) (Keeps.refl _ s2)))).ctl rfl
  · exact (reg_republish _ _).trans ((reg_setRb_ne _ _ (by decide)).trans (reg_setReg_same ..))
  · exact (rb_of_reg (reg_republish _ _) 3).trans (rb_setRb_same _ _ _ _ (by decide))

theorem testRun_refused {count : Nat} {s : State} (hfree : s.ctl.test = none) (h : ¬ TestAdmitted count s) :
    testRun count s = testEnd (fld (s.reg Reg.ctlTsCfg) 6 0) 4 1 0 (tsCtrl s true count) := by
  unfold testRun
  rw [if_neg (by simp [hfree])]
  exact if_neg h

/-- The five clauses of a refused test. -/
theorem testRun_refused_shown {count : BitVec 13} {s : State} (hfree : s.ctl.test = none) (h : ¬ TestAdmitted count.toNat s) :
    (testRun count.toNat s).ctl = s.ctl ∧ (testRun count.toNat s).reg Reg.ctlTsStat = w32 24 ∧ (testRun count.toNat s).rb Reg.ctlEvt 6 = true ∧
      (testRun count.toNat s).rb Reg.ctlStat 3 = false ∧ (testRun count.toNat s).reg Reg.ctlTsCtrl = w32 (1 + count.toNat * 2 ^ 16) := by
  rw [testRun_refused hfree h]
  obtain ⟨hctl, hstat, hevt, hidle, hctrl⟩ := testEnd_shown 4 1 0 (tsCtrl s true count.toNat) (fld_lt (s.reg Reg.ctlTsCfg) 6 0)
  refine ⟨hctl.trans ?_, hstat, hevt, hidle, hctrl.trans ((reg_setReg_same ..).trans ?_)⟩
  · exact congrArg (fun x => { s.ctl with test := x }) hfree.symm
  · rw [Nat.mod_eq_of_lt count.isLt]
    rfl

theorem testStop_shown {x : TestGen} {s : State} (h : s.ctl.test = some x) :
    (testStop s).ctl = { s.ctl with test := none } ∧ (testStop s).reg Reg.ctlTsStat = w32 (72 + (x.k % 2 ^ 13) * 2 ^ 16) ∧
      (testStop s).rb Reg.ctlStat 3 = false ∧ (testStop s).rb Reg.ctlTsCtrl 0 = false := by
  have hstop : testStop s = testEnd (fld x.cfg 6 0) 4 4 x.k (s.setRb Reg.ctlTsCtrl 0 false) := by
    unfold testStop
    rw [h]
  rw [hstop]
  obtain ⟨hctl, hstat, -, hidle, hctrl⟩ := testEnd_shown 4 4 x.k (s.setRb Reg.ctlTsCtrl 0 false) (fld_lt x.cfg 6 0)
  exact ⟨hctl, hstat, hidle, (rb_of_reg hctrl 0).trans (rb_setRb_same _ _ _ _ (by decide))⟩

/-! ## The lease and the gate (R325) -/

theorem parStep_spec (f : State → State) (s : State) : parStep f s = parShow s (f s) := rfl

theorem pair_parShow (before s : State) : (parShow before s).pair = s.pair :=
  (parShow_keeps before (sub_refl _) (Keeps.refl _ s)).pair rfl

theorem parLease_parShow (before s : State) : (parShow before s).reg Reg.parLease = s.reg Reg.parLease :=
  reg_parShow (by decide) (by decide) _ _ (by decide) (by decide)

/-! ## The obligation -/

theorem unlessHeld {f : State → State} {s : State} (h : s.boot.prog = false) :
    (Host.Outcome.next (if s.boot.prog then s else f s) : Host.Outcome State Fault Refusal) = .next (f s) :=
  congrArg Host.Outcome.next (if_neg (by simp [h]))

/-- Settles O31: each write acts on its own registers, and the end of a test and the pair's showing leave them. -/
theorem masterRegisterCommands : Obligations.MasterRegisterCommands := by
  unfold Obligations.MasterRegisterCommands
  refine ⟨?_, ?_, ?_, ?_, ?_, ?_, ?_, ?_, ?_, ?_, ?_, ?_⟩
  · intro m w s hne hprog
    exact ⟨calholdWrite m w s, unlessHeld hprog, (calholdWrite_keeps m w (sub_refl _) (Keeps.refl _ s)).frame rfl, calholdWrite_changed m w s hne⟩
  · intro m w s heq hprog
    exact ⟨calholdWrite m w s, unlessHeld hprog, (calholdWrite_keeps m w (sub_refl _) (Keeps.refl _ s)).frame rfl, calholdWrite_same m w s heq⟩
  · intro w s hbusy harm hsize hprod hcons hprog
    have hstart := wcArm_free hbusy harm
    rw [if_pos ⟨hsize, hprod, hcons⟩] at hstart
    refine ⟨wcArm w s, unlessHeld hprog, (wcArm_keeps w (sub_refl _) (Keeps.refl _ s)).frame rfl, ?_⟩
    rw [hstart]
    refine ⟨?_, rfl, setReg_regsBut _ (by simp) (regsBut_refl _ s)⟩
    unfold State.rb
    rw [reg_setReg_same, bit_setBit_same _ _ (by decide)]
  · intro w s hbusy harm hpair hprog
    have hstart := wcArm_free hbusy harm
    rw [if_neg (by tauto)] at hstart
    refine ⟨wcArm w s, unlessHeld hprog, (wcArm_keeps w (sub_refl _) (Keeps.refl _ s)).frame rfl, ?_⟩
    rw [hstart]
    exact endCapture_trunc _
  · intro count s hfree hmode hwave hmin hmax hqueue hprog
    exact ⟨testRun count.toNat s, unlessHeld hprog, (testRun_keeps _ (sub_refl _) (Keeps.refl _ s)).frame rfl,
      testRun_admitted hfree ⟨hmode, hwave, hmin, hmax, hqueue⟩⟩
  · intro count s hfree hwave hprog
    obtain ⟨hctl, hstat, hevt, -⟩ := testRun_refused_shown (count := count) hfree (fun h => h.2.1 hwave)
    exact ⟨testRun count.toNat s, unlessHeld hprog, (testRun_keeps _ (sub_refl _) (Keeps.refl _ s)).frame rfl, hctl, hstat, hevt⟩
  · intro count s hfree hbad hprog
    have hno : ¬ TestAdmitted count.toNat s := by
      rintro ⟨hmode, hwave, hmin, hmax, hqueue⟩
      obtain h | h | h | h | h := hbad
      · exact h hmode
      · exact hwave h
      · omega
      · omega
      · exact absurd (hqueue.symm.trans h) (by decide)
    exact ⟨testRun count.toNat s, unlessHeld hprog, (testRun_keeps _ (sub_refl _) (Keeps.refl _ s)).frame rfl, testRun_refused_shown hfree hno⟩
  · intro count s hbusy hprog
    exact ⟨testRun count.toNat s, unlessHeld hprog, (testRun_keeps _ (sub_refl _) (Keeps.refl _ s)).frame rfl, if_pos hbusy⟩
  · intro x s htest hprog
    exact ⟨testStop s, unlessHeld hprog, (testStop_keeps (sub_refl _) (Keeps.refl _ s)).frame rfl, testStop_shown htest⟩
  · intro m w s hprog
    refine ⟨parStep (leaseWrite w) s, unlessHeld hprog, (parStep_keeps _ (sub_of (sub_refl 2237749003306) rfl) (Keeps.refl _ s)
      (fun _ => leaseWrite_keeps w (sub_of (sub_refl _) rfl))).frame rfl, ?_, ?_⟩
    · rw [parStep_spec, parLease_parShow]
      exact reg_setReg_same ..
    · refine ⟨(Config.freeWord s.freeCtr).toNat % (s.minorNs / 1000 + 1), Nat.lt_succ_iff.1 (Nat.mod_lt _ (Nat.succ_pos _)), ?_⟩
      rw [parStep_spec, pair_parShow]
      rfl
  · intro m w s hprog
    refine ⟨parStep (fun t => t.setReg Reg.parGate (w &&& 1#32)) s, unlessHeld hprog, (parStep_keeps _ (sub_refl _) (Keeps.refl _ s)
      (fun _ => setReg_keeps _ _ (sub_of (sub_refl _) rfl))).frame rfl, ?_, ?_⟩
    · rw [parStep_spec, reg_parShow (by decide) (by decide) _ _ (by decide) (by decide)]
      exact reg_setReg_same ..
    · rw [parStep_spec, pair_parShow]
      rfl
  · intro s
    refine ⟨parStep (setLease 0) s, rfl, (parStep_keeps _ (sub_refl _) (Keeps.refl _ s)
      (fun _ => setLease_keeps _ (sub_of (sub_refl _) rfl))).frame rfl, ?_, parStat_parShow _ _, ?_⟩
    · rw [parStep_spec, parLease_parShow]
      exact reg_setReg_same ..
    · rw [parStep_spec, pair_parShow]
      rfl

end Sys2Proof.Machine
end

section
/-! PROOFS. The writes of the clock registers (R362, R366, R370, R373, R374): O32. -/

namespace Sys2Proof.Machine

/-! ## Through the shown state of the backup island -/

theorem rtc_rtcShow (s : State) : (rtcShow s).rtc = s.rtc := (rtcShow_keeps (sub_refl _) (Keeps.refl _ s)).rtc rfl

/-- RTC_STAT, RTC_SLEW, RTC_VBAK and the alarms' status alone show it. -/
theorem reg_rtcShow (s : State) {a : Nat} (hshown : a ∉ [Reg.rtcStat, Reg.rtcSlew, Reg.rtcVbak])
    (halm : ∀ n, n < 8 → a ≠ Reg.rtcAlmStat n) : (rtcShow s).reg a = s.reg a := by
  unfold rtcShow
  extract_lets b st sl s1
  rw [reg_republish, reg_publish_of_ne _ _ (by rintro e he rfl; exact hshown (by simp at he ⊢; aesop)),
    reg_foldl_of (fun t n hn => reg_setRb_ne _ _ (halm n (List.mem_range.1 hn)))]

theorem clockPath_released {f : State → State} {s : State} (h : s.eng.released = true) : clockPath f s = rtcShow (f s) := if_pos h

theorem clockPath_unreleased {f : State → State} {s : State} (h : s.eng.released = false) : clockPath f s = s := if_neg (by simp [h])

/-! ## The commands -/

theorem rtc_cmdSet (m : Nat) (s : State) : (cmdSet m s).rtc = { s.rtc with
    a0 := s.reg Reg.rtcArgLo, a1 := s.reg Reg.rtcArgHi,
    due := s.rtc.due ++ [(true, ((fld (s.reg Reg.rtcArgHi) 15 0 * 2 ^ 32 + (s.reg Reg.rtcArgLo).toNat : Nat) : Int))] } :=
  (rtcRec_keeps _ _ _ _ (sub_refl _) (Keeps.refl _ _)).rtc rfl

theorem rtc_cmdStep (m : Nat) (s : State) : (cmdStep m s).rtc = { s.rtc with
    a0 := s.rtc.a1, a1 := s.reg Reg.rtcArgLo, due := s.rtc.due ++ [(false, (s.reg Reg.rtcArgLo).toInt)] } :=
  (rtcRec_keeps _ _ _ _ (sub_refl _) (Keeps.refl _ _)).rtc rfl

theorem cmdSlew_bad {period : Nat} (faster : Bool) (s : State) (h : period < 50) : cmdSlew period faster s = s.orReg Reg.rtcEvt 0x40 := if_pos h

theorem rtc_cmdSlew {period : Nat} (faster : Bool) (s : State) (h : 50 ≤ period) (hcount : fld (s.reg Reg.rtcArgLo) 23 0 ≠ 0) :
    (cmdSlew period faster s).rtc = { s.rtc with
      a0 := s.rtc.a1, a1 := s.reg Reg.rtcArgLo,
      slew := some { period := period, faster := faster, left := fld (s.reg Reg.rtcArgLo) 23 0, ticks := 0 } } := by
  unfold cmdSlew rtcSlew
  rw [if_neg (by omega), if_neg hcount]
  rfl

theorem cmdSlew_done {period : Nat} (faster : Bool) (s : State) (h : 50 ≤ period) (hcount : fld (s.reg Reg.rtcArgLo) 23 0 = 0) :
    (cmdSlew period faster s).rtc = { s.rtc with a0 := s.rtc.a1, a1 := s.reg Reg.rtcArgLo, slew := none } ∧
      (cmdSlew period faster s).rb Reg.rtcEvt 2 = true := by
  unfold cmdSlew rtcSlew
  rw [if_neg (by omega), if_pos hcount]
  exact ⟨rfl, rb_orReg_same _ _ _ _ (by decide)⟩

/-- What an alarm's configuration puts in line: its registers as they stand (R373). -/
def almCfgEffect (n : Nat) (v : Word) (s : State) : State :=
  let per := s.reg (Reg.rtcAlmPer n)
  let value := fld (s.reg (Reg.rtcAlmHi n)) 15 0 * 2 ^ 32 + (s.reg (Reg.rtcAlmLo n)).toNat
  rtcAlarm n value (bit v 0) (bit v 1)
    (rtcBarg (s.reg (Reg.rtcAlmHi n)) (rtcBarg (s.reg (Reg.rtcAlmLo n)) (rtcAlmper n per (rtcBarg per s))))

theorem almCfg_eq (n : Nat) (w : Word) (s : State) :
    almCfg n w s = clockPath (almCfgEffect n (w &&& ~~~(regRsv (Reg.rtcAlmCfg n)))) (s.setReg (Reg.rtcAlmCfg n) (w &&& ~~~(regRsv (Reg.rtcAlmCfg n)))) := rfl

theorem alm_setAlm (s : State) (n : Nat) (x : Alm) : (s.setAlm n x).alm n = x := sget_sset_same _ _ _ _

theorem due_almCfgEffect (n : Nat) (v : Word) (s : State) :
    ((almCfgEffect n v s).alm n).due =
      some (fld (s.reg (Reg.rtcAlmHi n)) 15 0 * 2 ^ 32 + (s.reg (Reg.rtcAlmLo n)).toNat, (s.reg (Reg.rtcAlmPer n)).toNat, bit v 0, bit v 1) := by
  unfold almCfgEffect rtcAlarm
  rw [alm_setAlm]
  have hper : ((rtcBarg (s.reg (Reg.rtcAlmHi n)) (rtcBarg (s.reg (Reg.rtcAlmLo n))
      (rtcAlmper n (s.reg (Reg.rtcAlmPer n)) (rtcBarg (s.reg (Reg.rtcAlmPer n)) s)))).alm n).per = (s.reg (Reg.rtcAlmPer n)).toNat :=
    congrArg Alm.per (alm_setAlm (rtcBarg (s.reg (Reg.rtcAlmPer n)) s) n _)
  exact congrArg (fun p => some (_, p, _, _)) hper

/-- ARMED and REPEAT are no reserved bits of an alarm's configuration. -/
theorem almCfg_bits (w : Word) : ∀ n, n < 8 → bit (w &&& ~~~(regRsv (Reg.rtcAlmCfg n))) 0 = bit w 0 ∧ bit (w &&& ~~~(regRsv (Reg.rtcAlmCfg n))) 1 = bit w 1 := by
  have hrsv : ∀ n, n < 8 → (regRsv (Reg.rtcAlmCfg n)).getLsbD 0 = false ∧ (regRsv (Reg.rtcAlmCfg n)).getLsbD 1 = false := by decide +kernel
  intro n hn
  obtain ⟨h0, h1⟩ := hrsv n hn
  have hbit : ∀ (i : Nat) (v : Word), i < 32 → (regRsv (Reg.rtcAlmCfg n)).getLsbD i = false →
      bit (v &&& ~~~(regRsv (Reg.rtcAlmCfg n))) i = bit v i := by
    intro i v hi h
    unfold bit
    rw [BitVec.getLsbD_and, BitVec.getLsbD_not, h]
    simp [hi]
  exact ⟨hbit 0 w (by decide) h0, hbit 1 w (by decide) h1⟩

/-- Bytes written one behind the other. -/
theorem bytes_foldl_rtcByte (b n : Nat) (v : Nat → Byte) (s : State) (a : Nat) :
    sget 0#8 ((List.range n).foldl (fun u k => rtcByte (b + k) (v k) u) s).rtc.bytes a =
      if b ≤ a ∧ a < b + n then v (a - b) else sget 0#8 s.rtc.bytes a := by
  induction n with
  | zero => simp [show ¬ (b ≤ a ∧ a < b) by omega]
  | succ n ih =>
    rw [List.range_succ, List.foldl_append]
    refine (sget_sset _ _ _ _ _).trans ?_
    rw [ih]
    by_cases hlast : a = b + n
    · rw [if_pos hlast, if_pos (by omega), hlast, Nat.add_sub_cancel_left]
    · rw [if_neg hlast]
      exact if_congr (by omega) rfl rfl

theorem regs_foldl_rtcByte (b : Nat) (v : Nat → Byte) (l : List Nat) (s : State) :
    (l.foldl (fun u k => rtcByte (b + k) (v k) u) s).regs = s.regs := by
  induction l generalizing s with
  | nil => rfl
  | cons k l ih => exact ih _

/-- RTC_BYTEw beside its register: its four bytes. -/
theorem byteWrite_released {i : Nat} (w : Word) {s : State} (hrel : s.eng.released = true) (hi : i < 16) :
    (byteWrite i w s).reg (Reg.rtcByte i) = w ∧
      (∀ k, k < 4 → sget 0#8 (byteWrite i w s).rtc.bytes (4 * i + k) = BitVec.ofNat 8 (w.toNat / 256 ^ k)) ∧
      (∀ a, a / 4 ≠ i → sget 0#8 (byteWrite i w s).rtc.bytes a = sget 0#8 s.rtc.bytes a) := by
  have hset : (s.setReg (Reg.rtcByte i) w).eng.released = true := hrel
  unfold byteWrite
  rw [clockPath_released hset, rtc_rtcShow]
  refine ⟨?_, fun k hk => ?_, fun a ha => ?_⟩
  · have hshown : Reg.rtcByte i ∉ [Reg.rtcStat, Reg.rtcSlew, Reg.rtcVbak] := by
      simp only [List.mem_cons, List.not_mem_nil, or_false, Reg.rtcByte, Reg.rtcStat, Reg.rtcSlew, Reg.rtcVbak]
      omega
    rw [reg_rtcShow _ hshown (fun n _ => by unfold Reg.rtcByte Reg.rtcAlmStat; omega)]
    have hregs := regs_foldl_rtcByte (4 * i) (fun k => BitVec.ofNat 8 (w.toNat / 256 ^ k)) (List.range 4) (s.setReg (Reg.rtcByte i) w)
    exact (congrArg (fun x => sget (regReset (Reg.rtcByte i)) x (Reg.rtcByte i)) hregs).trans (reg_setReg_same ..)
  · rw [bytes_foldl_rtcByte, if_pos (by omega), Nat.add_sub_cancel_left]
  · rw [bytes_foldl_rtcByte, if_neg (by omega)]
    rfl

/-- An alarm configuration after release: the alarm put in line, and the register. -/
theorem almCfg_released {n : Nat} (w : Word) {s : State} (hrel : s.eng.released = true) (hn : n < 8) :
    ((almCfg n w s).alm n).due =
        some (fld (s.reg (Reg.rtcAlmHi n)) 15 0 * 2 ^ 32 + (s.reg (Reg.rtcAlmLo n)).toNat, (s.reg (Reg.rtcAlmPer n)).toNat, bit w 0, bit w 1) ∧
      (almCfg n w s).reg (Reg.rtcAlmCfg n) = w &&& ~~~(regRsv (Reg.rtcAlmCfg n)) ∧ (almCfg n w s).rtc.count = s.rtc.count := by
  have hset : ∀ v, (s.setReg (Reg.rtcAlmCfg n) v).eng.released = true := fun _ => hrel
  rw [almCfg_eq, clockPath_released (hset _)]
  obtain ⟨harm, hrep⟩ := almCfg_bits w n hn
  generalize w &&& ~~~(regRsv (Reg.rtcAlmCfg n)) = v at harm hrep ⊢
  have hcfg : ∀ a, a = Reg.rtcAlmHi n ∨ a = Reg.rtcAlmLo n ∨ a = Reg.rtcAlmPer n → (s.setReg (Reg.rtcAlmCfg n) v).reg a = s.reg a := by
    intro a ha
    refine reg_setReg_ne v ?_
    unfold Reg.rtcAlmHi Reg.rtcAlmLo Reg.rtcAlmPer at ha
    unfold Reg.rtcAlmCfg
    omega
  refine ⟨?_, ?_, ?_⟩
  · rw [State.alm, rtc_rtcShow, ← State.alm, due_almCfgEffect, hcfg _ (.inl rfl), hcfg _ (.inr (.inl rfl)), hcfg _ (.inr (.inr rfl)), harm, hrep]
  · have hshown : Reg.rtcAlmCfg n ∉ [Reg.rtcStat, Reg.rtcSlew, Reg.rtcVbak] := by
      simp only [List.mem_cons, List.not_mem_nil, or_false, Reg.rtcAlmCfg, Reg.rtcStat, Reg.rtcSlew, Reg.rtcVbak]
      omega
    rw [reg_rtcShow _ hshown (fun k hk => by unfold Reg.rtcAlmCfg Reg.rtcAlmStat; omega)]
    exact reg_setReg_same s (Reg.rtcAlmCfg n) v
  · rw [rtc_rtcShow]
    rfl

/-! ## The obligation -/

theorem clockPath_frame {m : Nat} {l : List Part} {f : State → State} (hf : ∀ a, Keeps m a (f a)) (hm : Sub 1034 m) (hl : maskIn m l = true) (s : State) :
    s.sameBut l (clockPath f s) :=
  (clockPath_keeps f hm (Keeps.refl m s) (fun a h => h.trans (hf a))).frame hl

theorem cmdSet_frame (m : Nat) (s : State) :
    s.sameBut [.regs, .mirror, .logm, .ecc, .logNext, .logCompl, .logCount, .logged, .rtc] (clockPath (cmdSet m) s) :=
  clockPath_frame (m := 1099515561002) (fun a => cmdSet_keeps m (sub_of (sub_refl _) rfl) (Keeps.refl _ a)) (sub_of (sub_refl _) rfl) rfl s

theorem cmdStep_frame (m : Nat) (s : State) :
    s.sameBut [.regs, .mirror, .logm, .ecc, .logNext, .logCompl, .logCount, .logged, .rtc] (clockPath (cmdStep m) s) :=
  clockPath_frame (m := 1099515561002) (fun a => cmdStep_keeps m (sub_of (sub_refl _) rfl) (Keeps.refl _ a)) (sub_of (sub_refl _) rfl) rfl s

theorem cmdSlew_frame (period : Nat) (faster : Bool) (s : State) :
    s.sameBut [.regs, .mirror, .ecc, .rtc] (clockPath (cmdSlew period faster) s) :=
  clockPath_frame (m := 1099511628810) (fun a => cmdSlew_keeps _ _ (sub_of (sub_refl _) rfl) (Keeps.refl _ a)) (sub_of (sub_refl _) rfl) rfl s

theorem rtcSlewStop_frame (s : State) : s.sameBut [.regs, .mirror, .ecc, .rtc] (clockPath rtcSlewStop s) :=
  clockPath_frame (m := 1099511628810) (fun a => rtcSlewStop_keeps (sub_of (sub_refl _) rfl) (Keeps.refl _ a)) (sub_of (sub_refl _) rfl) rfl s

theorem rb_rtcEvt_rtcShow (s : State) (i : Nat) : (rtcShow s).rb Reg.rtcEvt i = s.rb Reg.rtcEvt i :=
  rb_of_reg (reg_rtcShow s (by decide) (by decide)) i

/-- Settles O32: after release each write is its command at the island, shown; before release nothing runs. -/
theorem clockRegisterCommands : Obligations.ClockRegisterCommands := by
  unfold Obligations.ClockRegisterCommands
  refine ⟨?_, ?_, ?_, ?_, ?_, ?_, ?_, ?_, ?_, ?_, ?_, ?_, ?_, ?_⟩
  · intro m s hrel hprog
    refine ⟨clockPath (cmdSet (masterNo m)) s, unlessHeld hprog, cmdSet_frame _ s, ?_⟩
    rw [clockPath_released hrel, rtc_rtcShow, rtc_cmdSet]
  · intro m s hrel hprog
    refine ⟨clockPath (cmdStep (masterNo m)) s, unlessHeld hprog, cmdStep_frame _ s, ?_⟩
    rw [clockPath_released hrel, rtc_rtcShow, rtc_cmdStep]
  · intro m period faster s hrel hmin hcount hprog
    refine ⟨clockPath (cmdSlew period.toNat faster) s, unlessHeld hprog, cmdSlew_frame _ _ s, ?_⟩
    rw [clockPath_released hrel, rtc_rtcShow, rtc_cmdSlew faster s hmin hcount]
  · intro m period faster s hrel hlow hprog
    refine ⟨clockPath (cmdSlew period.toNat faster) s, unlessHeld hprog, cmdSlew_frame _ _ s, ?_⟩
    rw [clockPath_released hrel, rtc_rtcShow, rb_rtcEvt_rtcShow, cmdSlew_bad faster s hlow]
    exact ⟨rfl, rb_orReg_same _ _ _ _ (by decide)⟩
  · intro m s hrel hprog
    refine ⟨clockPath rtcSlewStop s, unlessHeld hprog, rtcSlewStop_frame s, ?_⟩
    rw [clockPath_released hrel, rtc_rtcShow]
    rfl
  · intro m n w s hrel hprog
    exact ⟨almCfg n.val w s, unlessHeld hprog, (almCfg_keeps _ _ (sub_refl _) (Keeps.refl _ s)).frame rfl, almCfg_released w hrel n.isLt⟩
  · intro m i w s hrel hprog
    exact ⟨byteWrite i.val w s, unlessHeld hprog, (byteWrite_keeps _ _ (sub_refl _) (Keeps.refl _ s)).frame rfl, byteWrite_released w hrel i.isLt⟩
  · intro m s hrel hprog
    exact ⟨clockPath (cmdSet (masterNo m)) s, unlessHeld hprog, cmdSet_frame _ s, clockPath_unreleased hrel⟩
  · intro m s hrel hprog
    exact ⟨clockPath (cmdStep (masterNo m)) s, unlessHeld hprog, cmdStep_frame _ s, clockPath_unreleased hrel⟩
  · intro m period faster s hrel hprog
    exact ⟨clockPath (cmdSlew period.toNat faster) s, unlessHeld hprog, cmdSlew_frame _ _ s, clockPath_unreleased hrel⟩
  · intro m s hrel hprog
    exact ⟨clockPath rtcSlewStop s, unlessHeld hprog, rtcSlewStop_frame s, clockPath_unreleased hrel⟩
  · intro m n w s hrel hprog
    refine ⟨almCfg n.val w s, unlessHeld hprog, (almCfg_keeps _ _ (sub_refl _) (Keeps.refl _ s)).frame rfl, ?_⟩
    rw [almCfg_eq]
    exact clockPath_unreleased hrel
  · intro m i w s hrel hprog
    exact ⟨byteWrite i.val w s, unlessHeld hprog, (byteWrite_keeps _ _ (sub_refl _) (Keeps.refl _ s)).frame rfl, clockPath_unreleased hrel⟩
  · intro m period faster s hrel hmin hcount hprog
    refine ⟨clockPath (cmdSlew period.toNat faster) s, unlessHeld hprog, cmdSlew_frame _ _ s, ?_⟩
    rw [clockPath_released hrel, rtc_rtcShow, rb_rtcEvt_rtcShow]
    exact cmdSlew_done faster s hmin hcount

end Sys2Proof.Machine
end

section
/-! PROOFS. The object window (R401, R456): O33. -/

namespace Sys2Proof.Machine

/-- An open object of the engine with no byte yet, over an object area that is not erased. -/
def staleArea : State :=
  { State.reset with store := memPut State.reset.store (objBase + 0x400) [1#8], sec := { State.reset.sec with obj := some { owner := 0, kind := 0, len := 0, hdr := false } } }

theorem store_objPut_staleArea : (objOp .engine 2 0 true staleArea).store = [] := by decide +kernel

theorem store_memPut_staleArea : memPut staleArea.store (objBase + 0) (windowBytes staleArea) ≠ [] := by decide +kernel

theorem prog_staleArea : staleArea.boot.prog = false := by decide +kernel

/-- Refutes O33: the first PUT of a sector erases its 64 KiB (R456), so the store is not the old one with the window written. -/
theorem not_requestsAndObjects : ¬ Obligations.RequestsAndObjects := by
  unfold Obligations.RequestsAndObjects
  intro h
  obtain ⟨-, -, -, -, -, -, hput, -⟩ := h
  obtain ⟨t, hexec, -, -, -, hstore, -⟩ := hput .engine { owner := 0, kind := 0, len := 0, hdr := false } staleArea
    (by decide +kernel) rfl (by decide +kernel) (by decide) (by decide) prog_staleArea
  have ht : objOp .engine 2 0 true staleArea = t := Host.Outcome.next.inj ((unlessHeld prog_staleArea).symm.trans hexec)
  rw [← ht, store_objPut_staleArea] at hstore
  exact store_memPut_staleArea hstore.symm

end Sys2Proof.Machine
end

section
/-! PROOFS. The digital input islands (R188, R190, R193, R194, R196): O34. -/

namespace Sys2Proof.Machine

theorem sget_foldl_sset {α : Type} [DecidableEq α] (d v : α) (ks : List Nat) (l : Sparse α) (a : Nat) :
    sget d (ks.foldl (fun m k => sset d m k v) l) a = if a ∈ ks then v else sget d l a := by
  induction ks generalizing l with
  | nil => rfl
  | cons k ks ih =>
    rw [List.foldl_cons, ih, sget_sset]
    by_cases hk : a = k
    · subst hk
      simp
    · simp [hk]

/-! ## One channel (R188) -/

/-- What a tick changes of a channel: its debounced state, its change mark and its count of ticks. -/
structure DiView where
  state : Bool
  changed : Bool
  ticks : Nat

def DiIsland.view (x : DiIsland) (c : Nat) : DiView := ⟨x.state.testBit c, x.changed.testBit c, sget 0 x.ticks c⟩

/-- An island without what a tick changes of its channels. -/
def DiIsland.settings (x : DiIsland) : DiIsland := { x with ticks := [], state := 0, changed := 0 }

theorem settings_diChannel (levels : Nat) (x : DiIsland) (c : Nat) : (diChannel levels x c).settings = x.settings := by
  unfold diChannel
  extract_lets t
  split
  · rfl
  · split <;> rfl

theorem debOf_of_settings {x y : DiIsland} (h : y.settings = x.settings) (c : Nat) : y.debOf c = x.debOf c :=
  (congrArg (fun z => DiIsland.debOf z c) h :)

theorem testBit_xor_ne (n : Nat) {b c : Nat} (h : c ≠ b) : (n ^^^ 2 ^ b).testBit c = n.testBit c := by
  rw [Nat.testBit_xor, Nat.testBit_two_pow_of_ne h.symm, Bool.xor_false]

theorem testBit_or_ne (n : Nat) {b c : Nat} (h : c ≠ b) : (n ||| 2 ^ b).testBit c = n.testBit c := by
  rw [Nat.testBit_or, Nat.testBit_two_pow_of_ne h.symm, Bool.or_false]

theorem view_diChannel_ne (levels : Nat) (x : DiIsland) {b c : Nat} (h : c ≠ b) : (diChannel levels x b).view c = x.view c := by
  unfold diChannel DiIsland.view
  extract_lets t
  split
  · rw [sget_sset_other _ _ _ _ h]
  · split
    · simp only [testBit_xor_ne _ h, testBit_or_ne _ h, sget_sset_other _ _ _ _ h]
    · simp only [sget_sset_other _ _ _ _ h]

/-- The tick of a channel, of what it changes alone. -/
def DiView.tick (level : Bool) (deb : Nat) (v : DiView) : DiView :=
  if level = v.state then { v with ticks := 0 }
  else if deb ≤ v.ticks then ⟨level, true, 0⟩
  else { v with ticks := v.ticks + 1 }

theorem view_diChannel_same (levels : Nat) (x : DiIsland) (c : Nat) :
    (diChannel levels x c).view c = (x.view c).tick (levels.testBit c) (x.debOf c) := by
  unfold diChannel DiIsland.view DiView.tick
  extract_lets t
  by_cases heq : levels.testBit c = x.state.testBit c
  · rw [if_pos heq, if_pos heq, sget_sset_same]
  · rw [if_neg heq, if_neg heq]
    by_cases hdeb : x.debOf c ≤ sget 0 x.ticks c
    · rw [if_pos (Nat.succ_le_succ hdeb), if_pos hdeb, sget_sset_same]
      have hflip : (x.state ^^^ 2 ^ c).testBit c = levels.testBit c := by
        rw [Nat.testBit_xor, Nat.testBit_two_pow_self]
        cases hl : levels.testBit c <;> cases hs : x.state.testBit c <;> simp_all
      have hmark : (x.changed ||| 2 ^ c).testBit c = true := by
        rw [Nat.testBit_or, Nat.testBit_two_pow_self, Bool.or_true]
      rw [hflip, hmark]
    · rw [if_neg (fun h => hdeb (Nat.le_of_succ_le_succ h)), if_neg hdeb, sget_sset_same]

theorem settings_foldl_diChannel (levels : Nat) (l : List Nat) (x : DiIsland) : (l.foldl (diChannel levels) x).settings = x.settings := by
  induction l generalizing x with
  | nil => rfl
  | cons b l ih => exact (ih _).trans (settings_diChannel levels x b)

theorem view_foldl_diChannel_notMem (levels : Nat) {l : List Nat} {c : Nat} (h : c ∉ l) (x : DiIsland) :
    (l.foldl (diChannel levels) x).view c = x.view c := by
  induction l generalizing x with
  | nil => rfl
  | cons b l ih => exact (ih (fun hm => h (List.mem_cons_of_mem _ hm)) _).trans (view_diChannel_ne levels x (fun e => h (e ▸ List.mem_cons_self)))

theorem view_foldl_diChannel (levels : Nat) {n c : Nat} (hc : c < n) (x : DiIsland) :
    ((List.range n).foldl (diChannel levels) x).view c = (x.view c).tick (levels.testBit c) (x.debOf c) := by
  induction n with
  | zero => omega
  | succ n ih =>
    rw [List.range_succ, List.foldl_append]
    by_cases hlast : c = n
    · subst hlast
      have hset := settings_foldl_diChannel levels (List.range c) x
      refine (view_diChannel_same _ _ _).trans ?_
      rw [view_foldl_diChannel_notMem levels (by simp), debOf_of_settings hset]
    · exact (view_diChannel_ne _ _ hlast).trans (ih (by omega))

/-! ## One counter unit (R193, R194) -/

/-- An island without its counts and ages. -/
def DiIsland.uncounted (x : DiIsland) : DiIsland := { x with count := [], age := [] }

section
variable {x y : DiIsland}

theorem view_of_uncounted (h : y.uncounted = x.uncounted) (c : Nat) : y.view c = x.view c := (congrArg (fun z => DiIsland.view z c) h :)

theorem state_of_uncounted (h : y.uncounted = x.uncounted) : y.state = x.state := (congrArg DiIsland.state h :)

theorem due_of_uncounted (h : y.uncounted = x.uncounted) : y.due = x.due := (congrArg DiIsland.due h :)

theorem modeOf_of_uncounted (h : y.uncounted = x.uncounted) (k : Nat) : y.modeOf k = x.modeOf k := (congrArg (fun z => DiIsland.modeOf z k) h :)

theorem chanOf_of_uncounted (h : y.uncounted = x.uncounted) (k : Nat) : y.chanOf k = x.chanOf k := (congrArg (fun z => DiIsland.chanOf z k) h :)

theorem due_of_settings (h : y.settings = x.settings) : y.due = x.due := (congrArg DiIsland.due h :)

theorem count_of_settings (h : y.settings = x.settings) : y.count = x.count := (congrArg DiIsland.count h :)

theorem modeOf_of_settings (h : y.settings = x.settings) (k : Nat) : y.modeOf k = x.modeOf k := (congrArg (fun z => DiIsland.modeOf z k) h :)

theorem chanOf_of_settings (h : y.settings = x.settings) (k : Nat) : y.chanOf k = x.chanOf k := (congrArg (fun z => DiIsland.chanOf z k) h :)

end

theorem uncounted_diUnit (before : Nat) (x : DiIsland) (k : Nat) : (diUnit before x k).uncounted = x.uncounted := by
  unfold diUnit
  extract_lets c rise
  split
  · rfl
  · split <;> rfl

theorem uncounted_foldl_diUnit (before : Nat) (l : List Nat) (x : DiIsland) : (l.foldl (diUnit before) x).uncounted = x.uncounted := by
  induction l generalizing x with
  | nil => rfl
  | cons k l ih => exact (ih _).trans (uncounted_diUnit before x k)

/-- The count and the age of a unit. -/
def DiIsland.unit (x : DiIsland) (k : Nat) : Nat × Nat := (sget 0 x.count k, sget ageMax x.age k)

theorem unit_diUnit_ne (before : Nat) (x : DiIsland) {j k : Nat} (h : k ≠ j) : (diUnit before x j).unit k = x.unit k := by
  unfold diUnit DiIsland.unit
  extract_lets c rise
  split
  · rfl
  · split
    · simp only [sget_sset_other _ _ _ _ h]
    · simp only [sget_sset_other _ _ _ _ h]

theorem unit_foldl_diUnit_notMem (before : Nat) {l : List Nat} {k : Nat} (h : k ∉ l) (x : DiIsland) :
    (l.foldl (diUnit before) x).unit k = x.unit k := by
  induction l generalizing x with
  | nil => rfl
  | cons j l ih => exact (ih (fun hm => h (List.mem_cons_of_mem _ hm)) _).trans (unit_diUnit_ne before x (fun e => h (e ▸ List.mem_cons_self)))

theorem unit_diUnit_rise {before : Nat} {x : DiIsland} {k : Nat} (hmode : x.modeOf k ≠ 0) (hnow : x.state.testBit (x.chanOf k) = true)
    (hbefore : before.testBit (x.chanOf k) = false) : (diUnit before x k).unit k = ((sget 0 x.count k + 1) % 2 ^ 32, 0) := by
  unfold diUnit DiIsland.unit
  extract_lets c rise
  rw [if_neg hmode, if_pos (by simp [rise, c, hnow, hbefore])]
  simp only [sget_sset_same]

theorem unit_foldl_diUnit_rise {before n k : Nat} (hk : k < n) {x : DiIsland} (hmode : x.modeOf k ≠ 0)
    (hnow : x.state.testBit (x.chanOf k) = true) (hbefore : before.testBit (x.chanOf k) = false) :
    ((List.range n).foldl (diUnit before) x).unit k = ((sget 0 x.count k + 1) % 2 ^ 32, 0) := by
  induction n with
  | zero => omega
  | succ n ih =>
    rw [List.range_succ, List.foldl_append]
    by_cases hlast : k = n
    · subst hlast
      have hrest := uncounted_foldl_diUnit before (List.range k) x
      have hcount : sget 0 ((List.range k).foldl (diUnit before) x).count k = sget 0 x.count k :=
        congrArg Prod.fst (unit_foldl_diUnit_notMem before (l := List.range k) (by simp) x)
      have hmode' : ((List.range k).foldl (diUnit before) x).modeOf k = x.modeOf k := modeOf_of_uncounted hrest k
      have hchan : ((List.range k).foldl (diUnit before) x).chanOf k = x.chanOf k := chanOf_of_uncounted hrest k
      have hstate : ((List.range k).foldl (diUnit before) x).state = x.state := state_of_uncounted hrest
      refine (unit_diUnit_rise (by rwa [hmode']) (by rwa [hstate, hchan]) (by rwa [hchan])).trans ?_
      rw [hcount]
    · exact (unit_diUnit_ne _ _ hlast).trans (ih (by omega))

/-! ## The tick of an island -/

theorem diI_setDi_same (s : State) (g : Nat) (x : DiIsland) : (s.setDi g x).diI g = x := sget_sset_same _ _ _ _

theorem diI_setDi_other (s : State) {g k : Nat} (x : DiIsland) (h : k ≠ g) : (s.setDi g x).diI k = s.diI k := sget_sset_other _ _ _ _ h

/-- The island once the words received have taken effect. -/
def DiIsland.configured (x : DiIsland) : DiIsland := x.due.foldl diApply x

/-- The levels of a tick: a broken channel reads as 0 (R190). -/
def DiIsland.levelsOf (x : DiIsland) (levels : Nat) : Nat := levels &&& (0xFFFF ^^^ x.configured.broken)

/-- The island after its channels have ticked. -/
def DiIsland.channelsTicked (x : DiIsland) (levels : Nat) : DiIsland :=
  (List.range 16).foldl (diChannel (x.levelsOf levels)) { x.configured with due := [] }

/-- The island after a tick. -/
def DiIsland.ticked (x : DiIsland) (levels : Nat) : DiIsland := (List.range 8).foldl (diUnit x.state) (x.channelsTicked levels)

theorem diTick_powered {g : Nat} (levels : Nat) {s : State} (h : (s.diI g).powered = true) :
    diTick g levels s = s.setDi g ((s.diI g).ticked levels) := if_pos h

theorem settings_channelsTicked (x : DiIsland) (levels : Nat) :
    (x.channelsTicked levels).settings = { x.configured with due := [] }.settings := settings_foldl_diChannel _ _ _

theorem view_ticked (x : DiIsland) (levels : Nat) {c : Nat} (hc : c < 16) :
    (x.ticked levels).view c = (x.configured.view c).tick ((x.levelsOf levels).testBit c) (x.configured.debOf c) := by
  have hunits := uncounted_foldl_diUnit x.state (List.range 8) (x.channelsTicked levels)
  calc (x.ticked levels).view c = (x.channelsTicked levels).view c := view_of_uncounted hunits c
    _ = _ := view_foldl_diChannel _ hc _

theorem due_ticked (x : DiIsland) (levels : Nat) : (x.ticked levels).due = [] :=
  calc (x.ticked levels).due = (x.channelsTicked levels).due :=
        due_of_uncounted (uncounted_foldl_diUnit x.state (List.range 8) (x.channelsTicked levels))
    _ = [] := due_of_settings (settings_channelsTicked x levels)

theorem state_ticked (x : DiIsland) (levels : Nat) : (x.ticked levels).state = (x.channelsTicked levels).state :=
  state_of_uncounted (uncounted_foldl_diUnit x.state (List.range 8) (x.channelsTicked levels))

theorem unit_ticked_rise (x : DiIsland) (levels : Nat) {k : Nat} (hk : k < 8) (hmode : x.configured.modeOf k ≠ 0)
    (hnow : (x.ticked levels).state.testBit (x.configured.chanOf k) = true) (hbefore : x.state.testBit (x.configured.chanOf k) = false) :
    (x.ticked levels).unit k = ((sget 0 x.configured.count k + 1) % 2 ^ 32, 0) := by
  have hset := settings_channelsTicked x levels
  have hmode' : (x.channelsTicked levels).modeOf k = x.configured.modeOf k := modeOf_of_settings hset k
  have hchan : (x.channelsTicked levels).chanOf k = x.configured.chanOf k := chanOf_of_settings hset k
  have hcount : (x.channelsTicked levels).count = x.configured.count := (count_of_settings hset).trans rfl
  rw [state_ticked] at hnow
  refine (unit_foldl_diUnit_rise hk (by rwa [hmode']) (by rwa [hchan]) (by rwa [hchan])).trans ?_
  rw [hcount]

/-! ## A wire break, and the words (R190, R193) -/

theorem breakChan_broken (x : DiIsland) (c : Nat) : (x.breakChan c).broken = x.broken ||| 2 ^ c := by
  unfold DiIsland.breakChan
  extract_lets y
  split <;> rfl

theorem breakChan_state (x : DiIsland) (c : Nat) : (x.breakChan c).state.testBit c = false := by
  unfold DiIsland.breakChan
  extract_lets y
  cases hc : x.state.testBit c
  · exact hc
  · rw [if_pos rfl]
    change (x.state ^^^ 2 ^ c).testBit c = false
    rw [Nat.testBit_xor, hc, Nat.testBit_two_pow_self]
    rfl

theorem testBit_setBit_false (w : Word) {c : Nat} (h : c < 32) : (setBit w c false).toNat.testBit c = false :=
  (bit_eq_testBit _ _).symm.trans (bit_setFld_same w c false h)

/-- The counter units that a word changes. -/
def unitsChanged (src mode : Nat) (x : DiIsland) : List Nat :=
  (List.range 8).filter (fun k => (src.testBit k != x.src.testBit k) || (mode / 2 ^ (2 * k) % 4 != x.mode / 2 ^ (2 * k) % 4))

theorem mem_unitsChanged {src mode k : Nat} {x : DiIsland} (hk : k < 8) :
    k ∈ unitsChanged src mode x ↔ src.testBit k ≠ x.src.testBit k ∨ mode / 2 ^ (2 * k) % 4 ≠ x.mode / 2 ^ (2 * k) % 4 := by
  simp [unitsChanged, hk]

theorem count_diApply_units (src mode : Nat) (x : DiIsland) (k : Nat) :
    sget 0 (diApply x (.units src mode)).count k = if k ∈ unitsChanged src mode x then 0 else sget 0 x.count k := sget_foldl_sset _ _ _ _ _

theorem age_diApply_units (src mode : Nat) (x : DiIsland) (k : Nat) :
    sget ageMax (diApply x (.units src mode)).age k = if k ∈ unitsChanged src mode x then 0xFFFFF else sget ageMax x.age k :=
  sget_foldl_sset _ _ _ _ _

theorem diWord_powered {g : Nat} (w : DiCfg) {s : State} (h : (s.diI g).powered = true) :
    diWord g w s = s.setDi g { s.diI g with due := (s.diI g).due ++ [w] } := if_pos h

/-! ## The obligation -/

theorem diWord_frame (g : Nat) (w : DiCfg) (s : State) : s.sameBut [.di] (diWord g w s) :=
  (diWord_keeps g w (sub_refl _) (Keeps.refl _ s)).frame rfl

theorem wireBreak_frame (g c : Nat) (b : Bool) (s : State) : s.sameBut [.di] (wireBreak g c b s) :=
  (wireBreak_keeps g c b (sub_refl _) (Keeps.refl _ s)).frame rfl

/-- Settles O34: a channel's tick depends on its own level and count alone, a unit's on its own channel. -/
theorem digitalInputs : Obligations.DigitalInputs := by
  unfold Obligations.DigitalInputs
  refine ⟨?_, ?_, ?_, ?_, ?_, ?_, ?_⟩
  · intro g levels s hpow
    refine ⟨diTick g.val levels.toNat s, rfl, (diTick_keeps _ _ (sub_refl _) (Keeps.refl _ s)).frame rfl, ?_⟩
    rw [diTick_powered _ hpow, diI_setDi_same]
    have hview := fun c hc => view_ticked (s.diI g.val) levels.toNat (c := c) hc
    have hrise := fun k hk => unit_ticked_rise (s.diI g.val) levels.toNat (k := k) hk
    have hdue := due_ticked (s.diI g.val) levels.toNat
    unfold DiIsland.levelsOf DiIsland.configured at hview
    unfold DiIsland.configured at hrise
    have hother : ∀ k, k ≠ g.val → (s.setDi g.val ((s.diI g.val).ticked levels.toNat)).diI k = s.diI k := fun k hk => diI_setDi_other s _ hk
    generalize (s.diI g.val).due.foldl diApply (s.diI g.val) = z at hview hrise ⊢
    generalize (s.diI g.val).ticked levels.toNat = y at hview hrise hdue hother ⊢
    generalize levels.toNat &&& (0xFFFF ^^^ z.broken) = high at hview ⊢
    refine ⟨fun c hc heq => ?_, fun c hc hne hdeb => ?_, fun c hc hne hdeb => ?_, fun k hk hmode hnow hbefore => ?_, hdue, hother⟩
    · have h := (hview c hc).trans (if_pos heq)
      exact ⟨(congrArg DiView.state h).trans heq.symm, congrArg DiView.ticks h⟩
    · have h := (hview c hc).trans ((if_neg hne).trans (if_pos hdeb))
      exact ⟨congrArg DiView.state h, congrArg DiView.changed h, congrArg DiView.ticks h⟩
    · have h := (hview c hc).trans ((if_neg hne).trans (if_neg (Nat.not_le_of_lt hdeb)))
      exact ⟨congrArg DiView.state h, congrArg DiView.ticks h⟩
    · have h := hrise k hk hmode hnow hbefore
      exact ⟨congrArg Prod.fst h, congrArg Prod.snd h⟩
  · rintro g c broken s rfl hpow hbrk hsup
    have hbreak : wireBreak g.val c.val true s = s.setDi g.val ((s.diI g.val).breakChan c.val) := by
      unfold wireBreak
      extract_lets x
      rw [if_pos rfl, if_pos (by simp [x, hpow, hbrk, hsup])]
    refine ⟨wireBreak g.val c.val true s, rfl, wireBreak_frame _ _ _ s, ?_⟩
    rw [hbreak, diI_setDi_same]
    exact ⟨rfl, breakChan_broken _ _, breakChan_state _ _, fun k hk => diI_setDi_other s _ hk⟩
  · rintro g c broken s rfl hno
    refine ⟨wireBreak g.val c.val true s, rfl, wireBreak_frame _ _ _ s, ?_⟩
    unfold wireBreak
    extract_lets x
    rw [if_pos rfl, if_neg (by obtain h | h := hno <;> simp [x, h])]
  · rintro g c broken s rfl
    refine ⟨wireBreak g.val c.val false s, rfl, wireBreak_frame _ _ _ s, ?_⟩
    unfold wireBreak
    extract_lets x
    rw [if_neg (by decide), diI_setDi_same]
    exact ⟨testBit_setBit_false _ (by omega), rfl, fun k hk => diI_setDi_other s _ hk⟩
  · intro g c deb s hpow
    refine ⟨diWord g.val (.deb c.val deb.toNat) s, rfl, diWord_frame _ _ s, ?_⟩
    rw [diWord_powered _ hpow, diI_setDi_same]
    exact ⟨rfl, rfl, fun k hk => diI_setDi_other s _ hk⟩
  · intro g src mode s hpow
    refine ⟨diWord g.val (.units src.toNat mode.toNat) s, rfl, diWord_frame _ _ s, ?_⟩
    rw [diWord_powered _ hpow, diI_setDi_same]
    refine ⟨rfl, rfl, rfl, rfl, fun k hk hch => ?_, fun k hk hsrc hmode => ?_, fun k hk => diI_setDi_other s _ hk⟩
    · have hmem := (mem_unitsChanged hk).2 hch
      exact ⟨(count_diApply_units _ _ _ _).trans (if_pos hmem), (age_diApply_units _ _ _ _).trans (if_pos hmem)⟩
    · have hmem : k ∉ unitsChanged src.toNat mode.toNat (s.diI g.val) := by
        rw [mem_unitsChanged hk]
        simp [hsrc, hmode]
      exact ⟨(count_diApply_units _ _ _ _).trans (if_neg hmem), (age_diApply_units _ _ _ _).trans (if_neg hmem)⟩
  · intro g brken s hpow
    refine ⟨diWord g.val (.brken brken.toNat) s, rfl, diWord_frame _ _ s, ?_⟩
    rw [diWord_powered _ hpow, diI_setDi_same]
    exact ⟨rfl, rfl, fun k hk => diI_setDi_other s _ hk⟩

end Sys2Proof.Machine
end

section
/-! PROOFS. The digital output and the analogue islands (R83, R198 to R201, R212 to R219): O35, O36 and O37. -/

namespace Sys2Proof.Machine

theorem guarded_of_wf {c : Instr} (f : State → State) (s : State) (h : c.wf = true) : guarded c f s = .next (f s) := if_pos h

/-! ## Digital outputs -/

theorem doI_setDo_same (s : State) (h : Nat) (x : DoIsland) : (s.setDo h x).doI h = x := sget_sset_same _ _ _ _

theorem doI_setDo_other (s : State) {h k : Nat} (x : DoIsland) (hk : k ≠ h) : (s.setDo h x).doI k = s.doI k := sget_sset_other _ _ _ _ hk

theorem doWord_powered {h : Nat} (f : DoIsland → DoIsland) {s : State} (hpow : (s.doI h).powered = true) :
    doWord h f s = s.setDo h (f (s.doI h)) := if_pos hpow

/-- A word for a powered DO island: the island as the word makes it, and no other. -/
theorem doWord_spec {h : Nat} (f : DoIsland → DoIsland) {s : State} (hpow : (s.doI h).powered = true) :
    (doWord h f s).doI h = f (s.doI h) ∧ ∀ k, k ≠ h → (doWord h f s).doI k = s.doI k := by
  rw [doWord_powered f hpow]
  exact ⟨doI_setDo_same _ _ _, fun k hk => doI_setDo_other _ _ hk⟩

theorem doWord_frame (h : Nat) (f : DoIsland → DoIsland) (s : State) : s.sameBut [.dout] (doWord h f s) :=
  (doWord_keeps h f (sub_refl _) (Keeps.refl _ s)).frame rfl

theorem testBit_maskOf_of_notMem {l : List Nat} {c : Nat} (h : c ∉ l) : (maskOf l).testBit c = false := by
  induction l with
  | nil => exact Nat.zero_testBit c
  | cons b l ih =>
    rw [List.mem_cons, not_or] at h
    rw [maskOf, Nat.testBit_or, Nat.testBit_two_pow_of_ne (Ne.symm h.1), ih h.2, Bool.or_self]

theorem testBit_minus16_two_pow (a c : Nat) : (minus16 a (2 ^ c)).testBit c = false :=
  testBit_maskOf_of_notMem (by simp)

theorem doOut_accepted {h v : Nat} {ack : Bool} {s : State} (hpow : (s.doI h).powered = true) (hack : (s.doI h).safeOn = false ∨ ack = true) :
    doOut h v ack s = s.setDo h
      (if hasApply s (15 + h) then { s.doI h with out := v, gotOut := true, safeOn := false, ovl := (s.doI h).ovl &&& v }
        else { s.doI h with out := v, gotOut := true, safeOn := false, ovl := (s.doI h).ovl &&& v }.applyOut) := by
  unfold doOut
  extract_lets x y
  rw [if_neg (by simp [x, hpow]), if_neg (by obtain h | h := hack <;> simp [x, h])]

theorem doOut_frame (h v : Nat) (ack : Bool) (s : State) : s.sameBut [.dout] (doOut h v ack s) :=
  (doOut_keeps h v ack (sub_refl _) (Keeps.refl _ s)).frame rfl

/-- Settles O35: each word makes its island what its own row says. -/
theorem digitalOutputs : Obligations.DigitalOutputs := by
  unfold Obligations.DigitalOutputs
  refine ⟨?_, ?_, ?_, ?_, ?_, ?_, ?_, ?_, ?_⟩
  · intro h v s hpow
    exact ⟨_, rfl, doWord_frame _ _ s, doWord_spec _ hpow⟩
  · intro h v s hpow
    exact ⟨_, rfl, doWord_frame _ _ s, doWord_spec _ hpow⟩
  · intro h v s hpow
    exact ⟨_, rfl, doWord_frame _ _ s, doWord_spec _ hpow⟩
  · intro h v ack s hpow hack hplan hcfgd
    refine ⟨doOut h.val v.toNat ack s, rfl, doOut_frame _ _ _ s, ?_⟩
    rw [doOut_accepted hpow hack, hplan, if_neg (by decide), doI_setDo_same]
    refine ⟨rfl, rfl, ?_, rfl, fun k hk => doI_setDo_other _ _ hk⟩
    exact if_pos (Bool.and_eq_true_iff.2 ⟨hcfgd, rfl⟩)
  · intro h v ack s hpow hack hplan
    refine ⟨doOut h.val v.toNat ack s, rfl, doOut_frame _ _ _ s, ?_⟩
    rw [doOut_accepted hpow hack, if_pos hplan, doI_setDo_same]
    exact ⟨rfl, rfl, rfl, fun k hk => doI_setDo_other _ _ hk⟩
  · rintro h v ack s hsafe rfl
    refine ⟨doOut h.val v.toNat false s, rfl, doOut_frame _ _ _ s, ?_⟩
    unfold doOut
    extract_lets x y
    split
    · rfl
    · exact if_pos (by simp [x, hsafe])
  · intro h c s hpow
    obtain ⟨hown, hother⟩ := doWord_spec (fun x => { x with ovl := x.ovl ||| 2 ^ c.val, drive := minus16 x.drive (2 ^ c.val) }) hpow
    exact ⟨_, rfl, doWord_frame _ _ s, hown, hown ▸ testBit_minus16_two_pow _ _, hother⟩
  · rintro h c inBand s hpow rfl hen hoff hsup
    obtain ⟨hown, hother⟩ := doWord_spec (fun x =>
      if x.olen.testBit c.val && !(x.drive.testBit c.val) && !(s.sup (15 + h.val)).missing then { x with opens := x.opens ||| (2 ^ c.val) } else x) hpow
    exact ⟨openLoad h.val c.val true s, rfl, doWord_frame _ _ s, hown.trans (if_pos (by simp [hen, hoff, hsup])), hother⟩
  · rintro h c inBand s hpow rfl
    exact ⟨openLoad h.val c.val false s, rfl, doWord_frame _ _ s, doWord_spec _ hpow⟩

/-! ## Analogue channels -/

theorem aoI_setAo_same (s : State) (a : Nat) (x : AoIsland) : (s.setAo a x).aoI a = x := sget_sset_same _ _ _ _

theorem aoI_setAo_other (s : State) {a k : Nat} (x : AoIsland) (hk : k ≠ a) : (s.setAo a x).aoI k = s.aoI k := sget_sset_other _ _ _ _ hk

/-- A word for a powered analogue island: the island as the word makes it, and no other. -/
theorem aoWord_spec {a : Nat} (f : AoIsland → AoIsland) {s : State} (hpow : (s.aoI a).powered = true) :
    (aoWord a f s).aoI a = f (s.aoI a) ∧ ∀ k, k ≠ a → (aoWord a f s).aoI k = s.aoI k := by
  have h : aoWord a f s = s.setAo a (f (s.aoI a)) := if_pos hpow
  rw [h]
  exact ⟨aoI_setAo_same _ _ _, fun k hk => aoI_setAo_other _ _ hk⟩

theorem aoWord_frame (a : Nat) (f : AoIsland → AoIsland) (s : State) : s.sameBut [.ao] (aoWord a f s) :=
  (aoWord_keeps a f (sub_refl _) (Keeps.refl _ s)).frame rfl

theorem chan_setChan_same (x : AoIsland) (c : Nat) (y : AoCh) : (x.setChan c y).chan c = y := sget_sset_same _ _ _ _

theorem chan_setChan_other (x : AoIsland) {c k : Nat} (y : AoCh) (h : k ≠ c) : (x.setChan c y).chan k = x.chan k := sget_sset_other _ _ _ _ h

/-- A word that sets one channel: held for the next apply instant where the plan has one, else applied at once (R83). -/
theorem aoCfg_spec {a : Nat} (f : AoIsland → AoIsland) {s : State} {c : Nat} {y : AoCh} (hpow : (s.aoI a).powered = true)
    (hf : f (s.aoI a) = (s.aoI a).setChan c y) :
    (hasApply s (17 + a) = true → ((aoCfg a f s).aoI a).chan c = y ∧ ∀ k, k ≠ c → ((aoCfg a f s).aoI a).chan k = (s.aoI a).chan k) ∧
      (hasApply s (17 + a) = false → (aoCfg a f s).aoI a = ((s.aoI a).setChan c y).applyAo) ∧
      ∀ k, k ≠ a → (aoCfg a f s).aoI k = s.aoI k := by
  obtain ⟨hown, hother⟩ := aoWord_spec (fun x => if hasApply s (17 + a) then f x else (f x).applyAo) hpow
  refine ⟨fun happ => ?_, fun happ => ?_, hother⟩
  · have hset : (aoCfg a f s).aoI a = (s.aoI a).setChan c y := hown.trans ((if_pos happ).trans hf)
    rw [hset]
    exact ⟨chan_setChan_same _ _ _, fun k hk => chan_setChan_other _ _ hk⟩
  · exact hown.trans ((if_neg (by simp [happ])).trans (congrArg AoIsland.applyAo hf))

theorem aoCfg_frame (a : Nat) (f : AoIsland → AoIsland) (s : State) : s.sameBut [.ao] (aoCfg a f s) := aoWord_frame _ _ s

/-- A change of one channel alone. -/
theorem aoChan_spec {a : Nat} (c : Nat) (f : AoCh → AoCh) {s : State} (hpow : (s.aoI a).powered = true) :
    ((aoChan a c f s).aoI a).chan c = f ((s.aoI a).chan c) ∧ (∀ k, k ≠ c → ((aoChan a c f s).aoI a).chan k = (s.aoI a).chan k) ∧
      ∀ k, k ≠ a → (aoChan a c f s).aoI k = s.aoI k := by
  obtain ⟨hown, hother⟩ := aoWord_spec (fun x => x.setChan c (f (x.chan c))) hpow
  have hset : (aoChan a c f s).aoI a = (s.aoI a).setChan c (f ((s.aoI a).chan c)) := hown
  rw [hset]
  exact ⟨chan_setChan_same _ _ _, fun k hk => chan_setChan_other _ _ hk, hother⟩

theorem aoChan_frame (a c : Nat) (f : AoCh → AoCh) (s : State) : s.sameBut [.ao] (aoChan a c f s) := aoWord_frame _ _ s

/-- An analogue island without its channels. -/
def AoIsland.settings (x : AoIsland) : AoIsland := { x with ch := [] }

theorem settings_foldl_applyChan (l : List Nat) (x : AoIsland) : (l.foldl applyChan x).settings = x.settings := by
  induction l generalizing x with
  | nil => rfl
  | cons c l ih => exact ih _

theorem applyChan_off {x : AoIsland} {c : Nat} (h : x.en.testBit c = false) : ((applyChan x c).chan c).on = false := by
  unfold applyChan
  extract_lets p c0 y0 y y'
  rw [chan_setChan_same]
  unfold y'
  rw [if_neg (by simp [h])]
  rfl

theorem foldl_applyChan_off {n c : Nat} (hc : c < n) {x : AoIsland} (h : x.en.testBit c = false) :
    (((List.range n).foldl applyChan x).chan c).on = false := by
  induction n with
  | zero => omega
  | succ n ih =>
    rw [List.range_succ, List.foldl_append]
    have hen : ((List.range n).foldl applyChan x).en = x.en := (congrArg AoIsland.en (settings_foldl_applyChan (List.range n) x) :)
    by_cases hlast : c = n
    · subst hlast
      exact applyChan_off (by rwa [hen])
    · exact (congrArg AoCh.on (chan_setChan_other _ _ hlast)).trans (ih (by omega))

/-- ACMD words applied on arrival: every channel with EN 0 is high-impedance. -/
theorem applyAo_enabled {x : AoIsland} (hsafe : x.safeOn = false) :
    x.applyAo.settings = x.settings ∧ ∀ c, c < 4 → x.en.testBit c = false → (x.applyAo.chan c).on = false := by
  have h : x.applyAo = (List.range 4).foldl applyChan x := if_neg (by simp [hsafe])
  rw [h]
  exact ⟨settings_foldl_applyChan _ _, fun c hc hen => foldl_applyChan_off hc hen⟩

theorem acmd_accepted {a : Nat} (en : Nat) {ack : Bool} {s : State} (hpow : (s.aoI a).powered = true)
    (hack : (s.aoI a).safeOn = false ∨ ack = true) :
    (acmd a en ack s).aoI a =
        (if hasApply s (17 + a) then { s.aoI a with en := en, gotAcmd := true, safeOn := false }
          else { s.aoI a with en := en, gotAcmd := true, safeOn := false }.applyAo) ∧
      ∀ k, k ≠ a → (acmd a en ack s).aoI k = s.aoI k := by
  obtain ⟨hown, hother⟩ := aoWord_spec (fun x =>
    if x.safeOn && !ack then x else
    let y := { x with en := en, gotAcmd := true, safeOn := false }
    if hasApply s (17 + a) then y else y.applyAo) hpow
  exact ⟨hown.trans (if_neg (by obtain h | h := hack <;> simp [h])), hother⟩

theorem miswireResume_spec {x : AoIsland} {c : Nat} (h : (x.chan c).miswire = true) :
    ((miswireResume c x).chan c).miswire = false ∧
      ((miswireResume c x).chan c).on = ((x.chan c).on || (x.cfgd && x.gotAcmd && x.en.testBit c && !(x.chan c).mode &&
        (!x.safeOn || (x.chan c).safeTarget.isSome))) ∧
      ∀ k, k ≠ c → (miswireResume c x).chan k = x.chan k := by
  unfold miswireResume
  extract_lets y z t
  rw [if_pos h]
  refine ⟨?_, ?_, fun k hk => chan_setChan_other _ _ hk⟩
  · rw [chan_setChan_same]
    clear_value t
    split
    · cases t with
      | none => rfl
      | some v => rfl
    · rfl
  · rw [chan_setChan_same]
    have ht : t.isSome = (!x.safeOn || (x.chan c).safeTarget.isSome) := by
      unfold t
      cases x.safeOn
      · rfl
      · rfl
    have hmode : z.mode = (x.chan c).mode := rfl
    rw [← ht, hmode]
    cases x.cfgd && x.gotAcmd && x.en.testBit c && !(x.chan c).mode with
    | false =>
      rw [if_neg (by decide), Bool.false_and, Bool.or_false]
    | true =>
      rw [if_pos rfl, Bool.true_and]
      cases t with
      | none => exact (Bool.or_false _).symm
      | some v => exact (Bool.or_true _).symm

/-- Settles O36: each word sets its own channel, and what is applied at once is applied by the plan's entry alone. -/
theorem analogueChannels : Obligations.AnalogueChannels := by
  unfold Obligations.AnalogueChannels
  refine ⟨?_, ?_, ?_, ?_, ?_, ?_, ?_, ?_, ?_, ?_, ?_, ?_, ?_, ?_, ?_, ?_⟩
  · intro a c code alm s hpow halm hplan
    have hne : alm.toNat ≠ 3 := fun h => halm (BitVec.eq_of_toNat_eq h)
    obtain ⟨hown, hother⟩ := aoWord_spec (fun x =>
      let y := { x with pendCode := sset (0, 0) x.pendCode c.val (code.toNat, alm.toNat) }
      if hasApply s (17 + a.val) then y else y.applyAo) hpow
    refine ⟨aoutCode a.val c.val code.toNat alm.toNat s, rfl, (aoutCode_keeps _ _ _ _ (sub_refl _) (Keeps.refl _ s)).frame rfl, ?_⟩
    unfold aoutCode
    rw [if_neg hne]
    exact ⟨hown.trans (if_pos hplan), hother⟩
  · rintro a c code alm s rfl
    exact ⟨s, congrArg Host.Outcome.next (if_pos rfl), (Keeps.refl 0 s).frame rfl, rfl⟩
  · intro a c mode insrc clamp safemode s hpow hfree
    have hno : ¬ (mode != ((s.aoI a.val).chan c.val).mode && (s.aoI a.val).enabled c.val) = true := by
      obtain h | h := hfree <;> simp [h]
    exact ⟨_, rfl, aoCfg_frame _ _ s, aoCfg_spec _ hpow (congrArg ((s.aoI a.val).setChan c.val) (if_neg hno))⟩
  · intro a c mode insrc clamp safemode s hpow hen hmode
    have hheld : (mode != ((s.aoI a.val).chan c.val).mode && (s.aoI a.val).enabled c.val) = true := by simp [hen, hmode]
    exact ⟨_, rfl, aoCfg_frame _ _ s, aoCfg_spec _ hpow (congrArg ((s.aoI a.val).setChan c.val) (if_pos hheld))⟩
  · intro a c v s hpow
    exact ⟨_, rfl, aoCfg_frame _ _ s, aoCfg_spec _ hpow rfl⟩
  · intro a c v s hpow
    exact ⟨_, rfl, aoCfg_frame _ _ s, aoCfg_spec _ hpow rfl⟩
  · intro a c v s hpow
    exact ⟨_, rfl, aoCfg_frame _ _ s, aoCfg_spec _ hpow rfl⟩
  · intro a c zero span s hpow
    exact ⟨_, rfl, aoCfg_frame _ _ s, aoCfg_spec _ hpow rfl⟩
  · intro a en ack s hpow hack hplan
    obtain ⟨hown, hother⟩ := acmd_accepted en.toNat hpow hack
    exact ⟨acmd a.val en.toNat ack s, rfl, aoWord_frame _ _ s, hown.trans (if_pos hplan), hother⟩
  · intro a en ack s hpow hack hplan
    obtain ⟨hown, hother⟩ := acmd_accepted en.toNat hpow hack
    refine ⟨acmd a.val en.toNat ack s, rfl, aoWord_frame _ _ s, ?_⟩
    rw [hown, if_neg (by simp [hplan])]
    obtain ⟨hset, hoff⟩ := applyAo_enabled (x := { s.aoI a.val with en := en.toNat, gotAcmd := true, safeOn := false }) rfl
    exact ⟨(congrArg AoIsland.en hset :), (congrArg AoIsland.gotAcmd hset :), (congrArg AoIsland.safeOn hset :), hoff, hother⟩
  · rintro a c v s hpow rfl hon hmode
    obtain ⟨hchan, hrest, hother⟩ := aoChan_spec c.val (fun y => if y.on && !y.mode then { y with compliance := true, rbDev := false } else y) hpow
    exact ⟨_, rfl, aoChan_frame _ _ _ s, hchan.trans (if_pos (by simp [hon, hmode])), hrest, hother⟩
  · rintro a c v s hpow rfl
    exact ⟨_, rfl, aoChan_frame _ _ _ s, aoChan_spec c.val (fun y => { y with compliance := false }) hpow⟩
  · rintro a c v s hpow rfl hcheck hon hcompl
    obtain ⟨hchan, hrest, hother⟩ := aoChan_spec c.val
      (fun y => { y with rbDev := y.rbDev || (s.rb (Reg.aioAgDiag a.val) 16 && y.on && !y.compliance) }) hpow
    refine ⟨_, rfl, aoChan_frame _ _ _ s, hchan.trans ?_, hrest, hother⟩
    simp [hcheck, hon, hcompl]
  · rintro a c v s hpow rfl
    exact ⟨_, rfl, aoChan_frame _ _ _ s, aoChan_spec c.val (fun y => { y with rbDev := false }) hpow⟩
  · intro a c s hpow hon
    obtain ⟨hchan, hrest, hother⟩ := aoChan_spec c.val (fun y => if y.on then { y.off with miswire := true } else y) hpow
    exact ⟨_, rfl, aoChan_frame _ _ _ s, hchan.trans (if_pos hon), hrest, hother⟩
  · intro a c s hpow hmis
    obtain ⟨hown, hother⟩ := aoWord_spec (miswireResume c.val) hpow
    refine ⟨_, rfl, aoWord_frame _ (miswireResume c.val) s, ?_⟩
    rw [hown]
    obtain ⟨hclear, hon, hrest⟩ := miswireResume_spec (c := c.val) hmis
    exact ⟨hclear, hon, hrest, hother⟩

/-! ## Safe values of SAFEMODE 1 -/

/-- A channel that regulates toward code 0 by a trim that has changed since: its DAC code is not that of the trim in force. -/
def trimmedChan : AoCh := { aoCh0 with safemode := 1, got := 62, on := true, dac := 1 }

/-- A configured analogue island with a first ACMD word and such a channel. -/
def trimmedIsland : State :=
  { State.reset with ao := [(0, { ao0 with powered := true, gotAcmd := true, ch :=
      [(0, trimmedChan), (1, { aoCh0 with got := 62 }), (2, { aoCh0 with got := 62 }), (3, { aoCh0 with got := 62 })] })] }

theorem dac_safeTimeout_trimmedIsland : (((safeTimeout 17 trimmedIsland).aoI 0).chan 0).dac = 0 := by decide +kernel

/-- Refutes O37: at SAFEMODE 1 a stage that is on is driven toward its target by the trim in force, so its DAC code may change. -/
theorem not_fieldIslandInstants : ¬ Obligations.FieldIslandInstants := by
  unfold Obligations.FieldIslandInstants
  intro h
  obtain ⟨-, -, -, -, -, -, -, -, -, -, hsafe, -⟩ := h
  obtain ⟨t, hexec, -, -, -, hhold, -⟩ := hsafe 17 trimmedIsland (by decide) (by decide) (by decide +kernel) (by decide +kernel) (by decide +kernel)
    (by decide +kernel)
  have ht : safeTimeout 17 trimmedIsland = t := Host.Outcome.next.inj ((guarded_of_wf (c := .safeValueTimeout 17) (safeTimeout 17) trimmedIsland (by decide)).symm.trans hexec)
  have hchan : (t.aoI 0).chan 0 = trimmedChan := hhold 0 (by decide) (by decide +kernel) (by decide +kernel)
  have hdac := dac_safeTimeout_trimmedIsland
  rw [ht, hchan] at hdac
  exact absurd hdac (by decide)

end Sys2Proof.Machine
end

section
/-! PROOFS. The metering island (R85, R156 to R160, R179): O38. -/

namespace Sys2Proof.Machine

/-- Places `b` to `b + n - 1` updated one after another, each from what it held. -/
theorem sget_foldl_update {α : Type} [DecidableEq α] (d : α) (g : Nat → α → α) (b n : Nat) (l : Sparse α) (a : Nat) :
    sget d ((List.range n).foldl (fun t i => sset d t (b + i) (g i (sget d t (b + i)))) l) a =
      if b ≤ a ∧ a < b + n then g (a - b) (sget d l a) else sget d l a := by
  induction n with
  | zero => simp [show ¬ (b ≤ a ∧ a < b) by omega]
  | succ n ih =>
    rw [List.range_succ, List.foldl_append, List.foldl_cons, List.foldl_nil, sget_sset]
    by_cases hlast : a = b + n
    · subst hlast
      rw [if_pos rfl, ih, if_neg (by omega), if_pos (by omega), Nat.add_sub_cancel_left]
    · rw [if_neg hlast, ih]
      exact if_congr (by omega) rfl rfl

/-- Places 0 to `n - 1` filled from a function. -/
theorem sget_foldl_fill {α : Type} [DecidableEq α] (d : α) (f : Nat → α) (n : Nat) (l : Sparse α) (a : Nat) :
    sget d ((List.range n).foldl (fun t i => sset d t i (f i)) l) a = if a < n then f a else sget d l a := by
  induction n with
  | zero => rfl
  | succ n ih =>
    rw [List.range_succ, List.foldl_append, List.foldl_cons, List.foldl_nil, sget_sset, ih]
    by_cases hlast : a = n
    · rw [if_pos hlast, if_pos (by omega), hlast]
    · rw [if_neg hlast]
      exact if_congr (by omega) rfl rfl

/-! ## Ports through the sending of words -/

theorem port_overrun (s : State) (p q : Nat) : (s.overrun p).port q = s.port q :=
  congrArg (fun x => sget portEmpty x q) ((overrun_keeps p (sub_refl _) (Keeps.refl _ s)).ports rfl)

theorem port_sendPort (s : State) (p : Nat) (w : Word) (q : Nat) :
    (s.sendPort p w).port q = if q = p then { s.port p with src := w, transit := true } else s.port q := by
  unfold State.sendPort
  extract_lets x
  rw [port_setPort]
  split
  · rfl
  · split
    · exact port_overrun s p q
    · rfl

theorem port_sendIn_of_lt (island : Nat) (ws : List Word) {k p : Nat} (h : p < 64 * island + k) (s : State) :
    (sendIn island k ws s).port p = s.port p := by
  induction ws generalizing s k with
  | nil => rfl
  | cons w ws ih =>
    refine (ih (k := k + 1) (by omega) _).trans ?_
    rw [port_sendPort, if_neg (by omega)]

/-- Each word sent is under way at its port. -/
theorem port_sendIn (island : Nat) (ws : List Word) {k j : Nat} (hj : j < ws.length) (s : State) :
    (sendIn island k ws s).port (64 * island + k + j) = { s.port (64 * island + k + j) with src := ws.getD j 0#32, transit := true } := by
  induction ws generalizing s k j with
  | nil => exact absurd hj (by simp)
  | cons w ws ih =>
    cases j with
    | zero =>
      refine (port_sendIn_of_lt island ws (by omega) _).trans ?_
      exact (port_sendPort _ _ _ _).trans (if_pos rfl)
    | succ j =>
      have hrest := ih (k := k + 1) (j := j) (by simpa using hj) (s.sendPort (64 * island + k) w)
      rw [show 64 * island + (k + 1) + j = 64 * island + k + (j + 1) by omega] at hrest
      refine hrest.trans ?_
      rw [port_sendPort, if_neg (by omega)]
      rfl

/-! ## Ports below the bus island's through a push -/

/-- From r to s the ports of islands 0 to 9 stand. -/
structure LowPortsStand (r s : State) : Prop where
  port : ∀ p, p < 640 → s.port p = r.port p

variable {r s : State}

theorem LowPortsStand.refl (s : State) : LowPortsStand s s := ⟨fun _ _ => rfl⟩

theorem LowPortsStand.trans {t : State} (h : LowPortsStand r s) (k : LowPortsStand s t) : LowPortsStand r t :=
  ⟨fun p hp => (k.port p hp).trans (h.port p hp)⟩

theorem LowPortsStand.of_ports (h : s.ports = r.ports) : LowPortsStand r s := ⟨fun p _ => congrArg (fun x => sget portEmpty x p) h⟩

theorem LowPortsStand.of_keeps {m : Nat} (h : Keeps m r s) (hm : m.testBit 15 = false) : LowPortsStand r s := .of_ports (h.ports hm)

theorem busStatus_lowPorts (src : Nat) (s : State) : LowPortsStand s (busStatus src s) := by
  unfold busStatus
  extract_lets w sent bus s1 can mac s2
  have h1 : LowPortsStand s s1 := ⟨fun p hp => port_sendIn_of_lt 10 [w] (by omega) s⟩
  have h2 : LowPortsStand s s2 := by
    unfold s2
    split
    · exact h1.trans (.of_ports rfl)
    · exact h1.trans (.of_ports rfl)
  refine h2.trans (.of_keeps (m := 1034) ?_ rfl)
  exact republish_keeps _ (sub_of (sub_refl _) rfl) (publish_keeps _ (sub_of (sub_refl _) rfl) (Keeps.refl _ s2))

theorem busNote_lowPorts (src : Nat) (s : State) : LowPortsStand s (busNote src s) := by
  unfold busNote
  split
  · exact .of_keeps (republish_keeps _ (sub_refl _) (Keeps.refl _ s)) rfl
  · exact busStatus_lowPorts src s

theorem backpressureAt_lowPorts (q lev : Nat) (b : Bool) (s : State) : LowPortsStand s (backpressureAt s q lev b) := by
  unfold backpressureAt
  split
  · unfold backpressureSet
    refine LowPortsStand.trans ?_ (busNote_lowPorts _ _)
    split
    · exact .of_keeps (flowOn_keeps _ _ _ (sub_refl _) (Keeps.refl _ s)) rfl
    · exact .of_ports rfl
  · exact .refl s

theorem qSetLevel_lowPorts (q old new : Nat) (s : State) : LowPortsStand s (qSetLevel s q old new) := by
  unfold qSetLevel
  extract_lets s1 s2 s3
  have h2 : LowPortsStand s s2 := by
    unfold s2
    split
    · exact .of_ports rfl
    · exact .of_ports rfl
  have h3 : LowPortsStand s s3 := by
    unfold s3
    split
    · exact h2.trans (LowPortsStand.trans (s := s2.orReg (Reg.queQStat q) 4) (.of_ports rfl) (backpressureAt_lowPorts _ _ _ _))
    · exact h2
  split
  · exact h3.trans (LowPortsStand.trans (s := s3.orReg (Reg.queQStat q) 8) (.of_ports rfl) (backpressureAt_lowPorts _ _ _ _))
  · exact h3

theorem qPush_lowPorts (ep q : Nat) (w : Word) (s : State) : LowPortsStand s (qPush s ep q w) := by
  unfold qPush qPushIn
  split
  · exact .refl s
  · split
    · split
      · exact .of_keeps (qOverflow_keeps q (sub_refl _) (Keeps.refl _ s)) rfl
      · extract_lets a
        refine LowPortsStand.trans ?_ (qSetLevel_lowPorts _ _ _ _)
        exact .of_ports rfl
    · exact .of_keeps (qViolation_keeps q (sub_refl _) (Keeps.refl _ s)) rfl

theorem qPushAll_lowPorts (ep q : Nat) (ws : List Word) (s : State) : LowPortsStand s (qPushAll s ep q ws) := by
  induction ws generalizing s with
  | nil => exact .refl s
  | cons w ws ih => exact (qPush_lowPorts ep q w s).trans (ih _)

theorem islandPush_lowPorts (island unit : Nat) (ws : List Word) (s : State) : LowPortsStand s (islandPush s island unit ws) := by
  unfold islandPush
  split
  · exact qPushAll_lowPorts _ _ _ _
  · exact .refl s

/-! ## A queue's shape and level through the log -/

/-- Registers but the log's event and the overrun summary stand: so do those of the queues. -/
theorem queue_of_regsBut {s t : State} (h : s.regsBut [Reg.logEvt, Reg.tteXsum] t) (q : Nat) :
    qSize t q = qSize s q ∧ qProd t q = qProd s q ∧ qLevel t q = qLevel s q := by
  have hreg : ∀ a, 0xF0000 ≤ a → t.reg a = s.reg a := fun a ha => h a (by
    simp only [List.mem_cons, List.not_mem_nil, or_false, Reg.logEvt, Reg.tteXsum]
    omega)
  refine ⟨rf_of_reg (hreg _ ?_) _ _, rf_of_reg (hreg _ ?_) _ _, rf_of_reg (hreg _ ?_) _ _⟩
  · unfold Reg.queQCfg; omega
  · unfold Reg.queQEnds; omega
  · unfold Reg.queQLevel; omega

theorem qOfProd_congr {s t : State} (hsize : ∀ q, qSize t q = qSize s q) (hprod : ∀ q, qProd t q = qProd s q) (ep : Nat) :
    qOfProd t ep = qOfProd s ep := by
  unfold qOfProd
  simp only [hsize, hprod]

theorem islandRoom_of_regsBut {s t : State} (h : s.regsBut [Reg.logEvt, Reg.tteXsum] t) (island unit : Nat) :
    islandRoom t island unit = islandRoom s island unit := by
  unfold islandRoom
  rw [qOfProd_congr (fun q => (queue_of_regsBut h q).1) (fun q => (queue_of_regsBut h q).2.1)]
  split
  · rw [(queue_of_regsBut h _).1, (queue_of_regsBut h _).2.2]
  · rfl

/-! ## A sample (R156 to R160) -/

/-- Channel k after a sample, with its raw sample. -/
def chanSample (bits : List (BitVec 1250)) (s : State) (k : Nat) : MtrCh × Word := mtrDecimate (s.mch k) ((bits.drop k).headD 0)

/-- The raw samples in channel order. -/
def rawSamples (bits : List (BitVec 1250)) (s : State) : List Word := (mtrDecimateAll s bits).map (fun e => e.2.2)

/-- The first word of a frame. -/
def frameHead (n secs : Nat) (s : State) : Word := w32 (n + secs * 2 ^ 14 + b2n (s.rb Reg.fabStat 16) * 2 ^ 30 + b2n s.mtr.pf * 2 ^ 31)

/-- A frame of 33 words (R159). -/
def sampleFrame (n secs : Nat) (bits : List (BitVec 1250)) (s : State) : List Word :=
  [frameHead n secs s] ++ rawSamples bits s ++
    [w32 (chMask (mtrDecimateAll s bits) (fun e => mtrOvr e.2)), w32 (chMask (mtrDecimateAll s bits) (fun e => e.1.stuck))]

/-- The channels after a sample. -/
def channelsSampled (bits : List (BitVec 1250)) (s : State) : State :=
  { s with mtr := { s.mtr with ch := (mtrDecimateAll s bits).foldl (fun t e => sset mtrCh0 t e.1 e.2.1) s.mtr.ch } }

/-- The sample's words on their ports. -/
def samplePorts (n secs : Nat) (bits : List (BitVec 1250)) (s : State) : State :=
  sendIn mtrIsland 0 (rawSamples bits s ++ [frameHead n secs s, mstatWord (channelsSampled bits s)]) (s0Tick (channelsSampled bits s))

/-- A frame lost, or none. -/
def frameMark (lost : Bool) (s : State) : State := { s with mtr := { s.mtr with frameLost := lost } }

theorem meteringSample_running {n secs : Nat} {bits : List (BitVec 1250)} {s : State} (h : s.mtr.mclk = true) :
    meteringSample n secs bits s =
      if 33 ≤ islandRoom (frameMark false (samplePorts n secs bits s)) mtrIsland 0 then
        islandPush (frameMark false (samplePorts n secs bits s)) mtrIsland 0 (sampleFrame n secs bits s)
      else frameMark true (frameMark false (samplePorts n secs bits s)) := by
  unfold meteringSample
  rw [if_neg (by simp [h])]
  extract_lets l w0 raws frame m1 s1 s2 m2 s3 m3
  have h2 : s2 = samplePorts n secs bits s := rfl
  have hframe : frame = sampleFrame n secs bits s := rfl
  clear_value s2 frame
  rw [← h2, ← hframe]
  rfl

theorem rawSamples_eq (bits : List (BitVec 1250)) (s : State) : rawSamples bits s = (List.range 30).map (fun k => (chanSample bits s k).2) := by
  simp [rawSamples, mtrDecimateAll, chanSample, Function.comp_def]

theorem chMask_samples (bits : List (BitVec 1250)) (s : State) (f : MtrCh × Word → Bool) :
    chMask (mtrDecimateAll s bits) f = maskOf ((List.range 30).filter (fun k => f (chanSample bits s k))) := by
  simp [chMask, mtrDecimateAll, chanSample, List.filter_map, Function.comp_def]

theorem mch_channelsSampled (bits : List (BitVec 1250)) (s : State) {k : Nat} (hk : k < 30) :
    (channelsSampled bits s).mch k = (chanSample bits s k).1 := by
  have hch : (channelsSampled bits s).mtr.ch = (List.range 30).foldl (fun t k => sset mtrCh0 t k (chanSample bits s k).1) s.mtr.ch := by
    simp [channelsSampled, mtrDecimateAll, chanSample, List.foldl_map]
  unfold State.mch
  rw [hch, sget_foldl_fill, if_pos hk]

theorem frameMark_regsBut {l : List Nat} {r : State} (lost : Bool) {t : State} (h : r.regsBut l t) : r.regsBut l (frameMark lost t) :=
  regsBut_of_regs_eq rfl h

/-- The channels and the S0 outputs are of the island's own state alone. -/
theorem sampleStart_keeps (bits : List (BitVec 1250)) (s : State) : Keeps 17179869184 s (s0Tick (channelsSampled bits s)) :=
  s0Tick_keeps (sub_refl _) (Keeps.upd_mtr (Keeps.refl _ s) rfl)

theorem sampleStart_regsBut (l : List Nat) (bits : List (BitVec 1250)) (s : State) : s.regsBut l (s0Tick (channelsSampled bits s)) :=
  regsBut_of_regs_eq ((sampleStart_keeps bits s).regs rfl) (regsBut_refl l s)

theorem samplePorts_regsBut (n secs : Nat) (bits : List (BitVec 1250)) (s : State) (lost : Bool) :
    s.regsBut [Reg.logEvt, Reg.tteXsum] (frameMark lost (samplePorts n secs bits s)) :=
  frameMark_regsBut lost (sendIn_regsBut _ _ _ (by simp) (by simp) (sampleStart_regsBut _ bits s))

theorem samplePorts_keeps (n secs : Nat) (bits : List (BitVec 1250)) (s : State) :
    Keeps 4031522 (s0Tick (channelsSampled bits s)) (samplePorts n secs bits s) :=
  sendIn_keeps _ _ _ (sub_refl _) (Keeps.refl _ _)

theorem frameMark_lowPorts (lost : Bool) (t : State) : LowPortsStand t (frameMark lost t) := .of_ports rfl

theorem mch_frameMark (lost : Bool) (t : State) (k : Nat) : (frameMark lost t).mch k = t.mch k := rfl

theorem onLeft_frameMark (lost : Bool) (t : State) : (frameMark lost t).mtr.onLeft = t.mtr.onLeft := rfl

theorem frameLost_frameMark (lost : Bool) (t : State) : (frameMark lost t).mtr.frameLost = lost := rfl

theorem quem_frameMark (lost : Bool) (t : State) : (frameMark lost t).quem = t.quem := rfl

theorem qrd_frameMark (lost : Bool) (t : State) : (frameMark lost t).qrd = t.qrd := rfl

theorem frameMark_frameMark (a b : Bool) (t : State) : frameMark a (frameMark b t) = frameMark a t := rfl

theorem mch_s0Tick (t : State) (k : Nat) : (s0Tick t).mch k = t.mch k := by
  unfold s0Tick
  generalize List.foldl _ _ _ = x
  rfl

theorem onLeft_channelsSampled (bits : List (BitVec 1250)) (s : State) : (channelsSampled bits s).mtr.onLeft = s.mtr.onLeft := by
  unfold channelsSampled
  generalize List.foldl _ _ _ = x
  rfl

/-- What a sample leaves in the island whether or not its frame finds room. -/
structure SampleTaken (bits : List (BitVec 1250)) (lost : Bool) (s t : State) : Prop where
  mch : ∀ k, k < 30 → t.mch k = (chanSample bits s k).1
  port : ∀ k, k < 30 → (t.port (576 + k)).src = (chanSample bits s k).2 ∧ (t.port (576 + k)).transit = true
  onLeft : ∀ o, o < 8 → sget 0 t.mtr.onLeft o = sget 0 s.mtr.onLeft o - 1
  frameLost : t.mtr.frameLost = lost

theorem onLeft_s0Tick (s : State) {o : Nat} (ho : o < 8) : sget 0 (s0Tick s).mtr.onLeft o = sget 0 s.mtr.onLeft o - 1 := by
  unfold s0Tick
  have h := sget_foldl_update 0 (fun _ x => x - 1) 0 8 s.mtr.onLeft o
  simp only [Nat.zero_add] at h
  exact h.trans (if_pos ⟨Nat.zero_le _, ho⟩)

theorem samplePorts_taken (n secs : Nat) (bits : List (BitVec 1250)) (s : State) (lost : Bool) :
    SampleTaken bits lost s (frameMark lost (samplePorts n secs bits s)) where
  mch k hk := by
    have hmtr := (samplePorts_keeps n secs bits s).mtr rfl
    have hch : (samplePorts n secs bits s).mch k = (s0Tick (channelsSampled bits s)).mch k := congrArg (fun x : Mtr => sget mtrCh0 x.ch k) hmtr
    rw [mch_frameMark, hch, mch_s0Tick, mch_channelsSampled bits s hk]
  port k hk := by
    have hlen : k < (rawSamples bits s ++ [frameHead n secs s, mstatWord (channelsSampled bits s)]).length := by
      rw [rawSamples_eq]
      simp
      omega
    have hword : (rawSamples bits s ++ [frameHead n secs s, mstatWord (channelsSampled bits s)]).getD k 0#32 = (chanSample bits s k).2 := by
      rw [rawSamples_eq]
      simp [List.getD_eq_getElem?_getD, List.getElem?_append, hk]
    have hsent := port_sendIn mtrIsland _ (k := 0) hlen (s0Tick (channelsSampled bits s))
    rw [hword] at hsent
    rw [(frameMark_lowPorts lost _).port _ (by omega)]
    exact ⟨(congrArg Port.src hsent :), (congrArg Port.transit hsent :)⟩
  onLeft o ho := by
    have hmtr := (samplePorts_keeps n secs bits s).mtr rfl
    rw [onLeft_frameMark, congrArg Mtr.onLeft hmtr, onLeft_s0Tick (channelsSampled bits s) ho, onLeft_channelsSampled]
  frameLost := frameLost_frameMark lost _

theorem SampleTaken.next {bits : List (BitVec 1250)} {lost : Bool} {s t u : State} (h : SampleTaken bits lost s t) (hmtr : u.mtr = t.mtr)
    (hports : LowPortsStand t u) : SampleTaken bits lost s u where
  mch k hk := (congrArg (fun x : Mtr => sget mtrCh0 x.ch k) hmtr).trans (h.mch k hk)
  port k hk := by
    rw [hports.port _ (by omega)]
    exact h.port k hk
  onLeft o ho := (congrArg (fun x : Mtr => sget 0 x.onLeft o) hmtr).trans (h.onLeft o ho)
  frameLost := (congrArg Mtr.frameLost hmtr).trans h.frameLost

theorem meteringSample_taken (n secs : Nat) (bits : List (BitVec 1250)) {s : State} (h : s.mtr.mclk = true) :
    SampleTaken bits (decide (islandRoom s 9 0 < 33)) s (meteringSample n secs bits s) ∧
      (islandRoom s 9 0 < 33 → (meteringSample n secs bits s).quem = s.quem) := by
  have hroom : islandRoom (frameMark false (samplePorts n secs bits s)) mtrIsland 0 = islandRoom s 9 0 :=
    islandRoom_of_regsBut (samplePorts_regsBut n secs bits s false) 9 0
  rw [meteringSample_running h, hroom]
  by_cases hlt : islandRoom s 9 0 < 33
  · rw [if_neg (by omega), decide_eq_true hlt]
    rw [frameMark_frameMark]
    exact ⟨samplePorts_taken n secs bits s true, fun _ =>
      (quem_frameMark _ _).trans (((samplePorts_keeps n secs bits s).quem rfl).trans ((sampleStart_keeps bits s).quem rfl))⟩
  · rw [if_pos (by omega), decide_eq_false hlt]
    have hpush := islandPush_keeps mtrIsland 0 (sampleFrame n secs bits s) (sub_refl _) (Keeps.refl _ (frameMark false (samplePorts n secs bits s)))
    exact ⟨(samplePorts_taken n secs bits s false).next (hpush.mtr rfl) (islandPush_lowPorts _ _ _ _), fun h => absurd h hlt⟩

theorem sameShape_of_regsBut {s t : State} (h : s.regsBut [Reg.logEvt, Reg.tteXsum] t) : sameShape s t := by
  intro q
  constructor
  · refine h _ ?_
    simp only [List.mem_cons, List.not_mem_nil, or_false, Reg.logEvt, Reg.tteXsum, Reg.queQCfg]
    omega
  · refine h _ ?_
    simp only [List.mem_cons, List.not_mem_nil, or_false, Reg.logEvt, Reg.tteXsum, Reg.queQEnds]
    omega

theorem length_sampleFrame (n secs : Nat) (bits : List (BitVec 1250)) (s : State) : (sampleFrame n secs bits s).length = 33 := by
  simp [sampleFrame, rawSamples_eq]

/-! The words of a frame, in order. -/

theorem sampleFrame_head (n secs : Nat) (bits : List (BitVec 1250)) (s : State) :
    (sampleFrame n secs bits s).getD 0 0#32 = w32 (n + secs * 2 ^ 14 + b2n (s.rb Reg.fabStat 16) * 2 ^ 30 + b2n s.mtr.pf * 2 ^ 31) := by
  have hhead : (sampleFrame n secs bits s).getD 0 0#32 = frameHead n secs s := by
    unfold sampleFrame
    rw [List.append_assoc, List.singleton_append, List.getD_cons_zero]
  rw [hhead, frameHead]

theorem sampleFrame_raw (n secs : Nat) (bits : List (BitVec 1250)) (s : State) {k : Nat} (hk : k < 30) :
    (sampleFrame n secs bits s).getD (1 + k) 0#32 = (mtrDecimate (s.mch k) ((bits.drop k).headD 0)).2 := by
  unfold sampleFrame
  rw [rawSamples_eq]
  unfold chanSample
  simp [List.getD_eq_getElem?_getD, List.getElem?_append, hk, Nat.add_comm 1 k]

theorem sampleFrame_marks (n secs : Nat) (bits : List (BitVec 1250)) (s : State) (k : Nat) :
    (sampleFrame n secs bits s).getD (31 + k) 0#32 =
      [w32 (chMask (mtrDecimateAll s bits) (fun e => mtrOvr e.2)), w32 (chMask (mtrDecimateAll s bits) (fun e => e.1.stuck))].getD k 0#32 := by
  have hlen : ([frameHead n secs s] ++ rawSamples bits s).length = 31 := by simp [rawSamples_eq]
  unfold sampleFrame
  rw [List.getD_append_right _ _ _ _ (by omega), hlen, Nat.add_sub_cancel_left]

theorem sampleFrame_ovr (n secs : Nat) (bits : List (BitVec 1250)) (s : State) :
    (sampleFrame n secs bits s).getD 31 0#32 =
      w32 (maskOf ((List.range 30).filter (fun k => mtrOvr (mtrDecimate (s.mch k) ((bits.drop k).headD 0)).2))) := by
  have h := sampleFrame_marks n secs bits s 0
  rw [chMask_samples] at h
  exact h

theorem sampleFrame_stuck (n secs : Nat) (bits : List (BitVec 1250)) (s : State) :
    (sampleFrame n secs bits s).getD 32 0#32 =
      w32 (maskOf ((List.range 30).filter (fun k => (mtrDecimate (s.mch k) ((bits.drop k).headD 0)).1.stuck))) := by
  have h := sampleFrame_marks n secs bits s 1
  rw [chMask_samples, chMask_samples] at h
  exact h

/-- A frame with room for it is stored whole at the tail (R159). -/
theorem meteringSample_frame (n secs : Nat) (bits : List (BitVec 1250)) {s : State} {q : Nat} (h : s.mtr.mclk = true)
    (hq : qOfProd s (epIsland 9 0) = some q) (hroom : qLevel s q + 33 ≤ qSize s q) (hmax : qLevel s q + 33 < 2 ^ 15) :
    qLevel (meteringSample n secs bits s) q = qLevel s q + 33 ∧ (meteringSample n secs bits s).qrd = s.qrd ∧
      ∀ k, k < 33 → memBytes (meteringSample n secs bits s).quem (qAddr s q (qLevel s q + k)) 4 =
        leBytes 4 ((sampleFrame n secs bits s).getD k 0#32).toNat := by
  have hbut := samplePorts_regsBut n secs bits s false
  obtain ⟨hsize, hprod, hlev⟩ := queue_of_regsBut hbut q
  have hq' : qOfProd (frameMark false (samplePorts n secs bits s)) (epIsland mtrIsland 0) = some q :=
    (qOfProd_congr (fun q => (queue_of_regsBut hbut q).1) (fun q => (queue_of_regsBut hbut q).2.1) _).trans hq
  have hislandRoom : islandRoom (frameMark false (samplePorts n secs bits s)) mtrIsland 0 = qSize s q - qLevel s q := by
    unfold islandRoom
    rw [hq']
    simp only [hsize, hlev]
  have hown : qProd s q = epIsland 9 0 := by
    have hfind := List.find?_some hq
    simp only [Bool.and_eq_true, decide_eq_true_eq] at hfind
    exact hfind.2
  have hqrd : (frameMark false (samplePorts n secs bits s)).qrd = s.qrd :=
    (qrd_frameMark _ _).trans (((samplePorts_keeps n secs bits s).qrd rfl).trans ((sampleStart_keeps bits s).qrd rfl))
  rw [meteringSample_running h, hislandRoom, if_pos (by omega)]
  unfold islandPush
  rw [hq']
  have hpushed := wordsPushed_qPushAll (ep := epIsland mtrIsland 0) (sampleFrame n secs bits s) (by omega) (hprod.trans hown)
    (by rw [length_sampleFrame]; omega) (by rw [length_sampleFrame]; omega)
  obtain ⟨hlevel, hrd, hwords, -⟩ := hpushed
  rw [length_sampleFrame, hlev] at hlevel
  refine ⟨hlevel, hrd.trans hqrd, fun k hk => ?_⟩
  obtain ⟨hword, -⟩ := hwords k (by rwa [length_sampleFrame])
  rw [qAddr_congr (sameShape_of_regsBut hbut) hqrd, hlev] at hword
  exact hword

/-! ## EDGE words and S0 outputs -/

theorem mch_mtrEdges (lo n edges : Nat) (s : State) (k : Nat) :
    (mtrEdges lo n edges s).mch k = if lo ≤ k ∧ k < lo + n then (s.mch k).nextEdge (edges.testBit (k - lo)) else s.mch k :=
  sget_foldl_update mtrCh0 (fun i x => x.nextEdge (edges.testBit i)) lo n s.mtr.ch k

theorem testBit_maskOf (l : List Nat) (c : Nat) : (maskOf l).testBit c = decide (c ∈ l) := by
  by_cases h : c ∈ l
  · rw [decide_eq_true h]
    induction l with
    | nil => simp at h
    | cons b l ih =>
      rw [maskOf, Nat.testBit_or]
      obtain rfl | hc := List.mem_cons.1 h
      · rw [Nat.testBit_two_pow_self, Bool.true_or]
      · rw [ih hc, Bool.or_true]
  · rw [testBit_maskOf_of_notMem h, decide_eq_false h]

theorem testBit_minus16_ne (a : Nat) {b c : Nat} (hc : c < 16) (h : c ≠ b) : (minus16 a (2 ^ b)).testBit c = a.testBit c := by
  unfold minus16
  rw [testBit_maskOf]
  simp [mem_bitsOf, hc, Nat.testBit_two_pow_of_ne h.symm]

/-! ## The obligation -/

/-- Settles O38: what a sample leaves does not depend on the room for its frame, which is stored whole or not at all. -/
theorem meteringIsland : Obligations.MeteringIsland := by
  unfold Obligations.MeteringIsland
  refine ⟨?_, ?_, ?_, ?_, ?_, ?_, ?_⟩
  · intro n secs bits s hrun
    obtain ⟨⟨hmch, hport, hleft, hlost⟩, hquem⟩ := meteringSample_taken n.val secs.toNat bits hrun
    exact ⟨meteringSample n.val secs.toNat bits s, rfl, (meteringSample_keeps _ _ _ (sub_refl _) (Keeps.refl _ s)).frame rfl, hmch, hport, hleft,
      hlost, hquem⟩
  · intro n secs bits q s hrun hq hroom hmax
    obtain ⟨⟨-, -, -, hlost⟩, -⟩ := meteringSample_taken n.val secs.toNat bits hrun
    obtain ⟨hlevel, hqrd, hwords⟩ := meteringSample_frame n.val secs.toNat bits hrun hq hroom hmax
    have hislandRoom : islandRoom s 9 0 = qSize s q - qLevel s q := by
      unfold islandRoom
      rw [hq]
    refine ⟨meteringSample n.val secs.toNat bits s, rfl, (meteringSample_keeps _ _ _ (sub_refl _) (Keeps.refl _ s)).frame rfl, hlevel, hqrd,
      hlost.trans (decide_eq_false (by omega)), ?_, fun k hk => ?_, ?_, ?_⟩
    · rw [hwords 0 (by omega), sampleFrame_head]
    · rw [hwords (1 + k) (by omega), sampleFrame_raw _ _ _ _ hk]
    · rw [hwords 31 (by omega), sampleFrame_ovr]
    · rw [hwords 32 (by omega), sampleFrame_stuck]
  · intro n secs bits s hstop
    exact ⟨meteringSample n.val secs.toNat bits s, rfl, (meteringSample_keeps _ _ _ (sub_refl _) (Keeps.refl _ s)).frame rfl,
      if_pos (by simp [hstop])⟩
  · intro edges s
    refine ⟨mtrEdges 0 16 edges.toNat s, rfl, (mtrEdges_keeps _ _ _ (sub_refl _) (Keeps.refl _ s)).frame rfl, fun k hk => ?_, fun k hk => ?_⟩
    · exact (mch_mtrEdges _ _ _ _ _).trans (if_pos (by omega))
    · exact (mch_mtrEdges _ _ _ _ _).trans (if_neg (by rw [List.mem_range] at hk; omega))
  · intro edges s
    refine ⟨mtrEdges 16 14 edges.toNat s, rfl, (mtrEdges_keeps _ _ _ (sub_refl _) (Keeps.refl _ s)).frame rfl, fun k hk => ?_, fun k hk => ?_⟩
    · refine (mch_mtrEdges _ _ _ _ _).trans ((if_pos (by omega)).trans ?_)
      rw [Nat.add_sub_cancel_left]
      rfl
    · exact (mch_mtrEdges _ _ _ _ _).trans (if_neg (by omega))
  · intro out width s
    exact ⟨s0Begin out.val width.toNat s, rfl, (s0Begin_keeps _ _ (sub_refl _) (Keeps.refl _ s)).frame rfl, rfl, sget_sset_same _ _ _ _,
      sget_sset_same _ _ _ _, rfl⟩
  · intro out s
    refine ⟨_, rfl, (Keeps.upd_mtr (m := 17179869184) (Keeps.refl _ s) rfl).frame rfl, testBit_minus16_two_pow _ _, fun o ho hne => testBit_minus16_ne _ (by omega) hne, sget_sset_same _ _ _ _, rfl⟩

end Sys2Proof.Machine
end

section
/-! PROOFS. The completion of a metering commit (R81, R171): O39. -/

namespace Sys2Proof.Machine

/-- A commit under way while the last word of PSTAT has not been taken. -/
def unreadPstat : State :=
  { State.reset with
    mtr := { State.reset.mtr with commit := some (0, []) }, ports := [(1472, { portEmpty with valid := true })] }

theorem logNext_commitDone_unreadPstat : (commitDone unreadPstat).logNext ≠ unreadPstat.logNext := by decide +kernel

/-- Refutes O39: the word in PSTAT overruns one that has not been taken, and the overrun's record 0x109 advances the log. -/
theorem not_meteringIntervals : ¬ Obligations.MeteringIntervals := by
  unfold Obligations.MeteringIntervals
  intro h
  obtain ⟨-, -, -, -, -, -, hdone, -⟩ := h
  obtain ⟨t, hexec, -, -, -, -, -, hlog, -⟩ := hdone true 0 [] unreadPstat (by decide +kernel) rfl (by decide +kernel)
  have ht : commitDone unreadPstat = t := Host.Outcome.next.inj hexec
  rw [← ht] at hlog
  exact logNext_commitDone_unreadPstat hlog

end Sys2Proof.Machine
end

section
/-! PROOFS. The stations and the arm flags of their error tasks (R249, Table 3-10): O40. -/

namespace Sys2Proof.Machine

/-- A station that is UP and overdue, whose error task names an arm flag beyond the 256 that there are: the word of that flag
is the station's own CTL_STA_STAT. -/
def strayFlag : State :=
  { State.reset with
    regs := [(Reg.ctlStaCfg 0, 1#32)], fabTime := 1,
    image := { State.reset.image with errTasks := [{ station := 0, flag := 32 * 0x155E7 + 20, path := 0 }] },
    ctl := { State.reset.ctl with stations := [(0, { station0 with up := true, last := some 0 })] } }

theorem downs_strayFlag : ((List.range 64).foldl stationOne strayFlag).rf (Reg.ctlStaStat 0) 31 16 = 17 := by
  decide +kernel

/-- The run over the points changes no register. -/
theorem reg_foldl_stationPoint (l : List Nat) (s : State) (a : Nat) : (l.foldl stationPoint s).reg a = s.reg a := by
  have hk : Keeps 1040 s (l.foldl stationPoint s) :=
    Keeps.foldl _ _ (fun _ p h => stationPoint_keeps p (sub_refl _) h) _ (Keeps.refl _ s)
  unfold State.reg
  rw [hk.regs rfl]

/-- What a run of the station path shows of a station is what the turns of the stations leave there. -/
theorem staStat_stationCheck (s : State) (n : Nat) :
    (stationCheck s).reg (Reg.ctlStaStat n) = ((List.range 64).foldl stationOne s).reg (Reg.ctlStaStat n) := by
  have hne : Reg.ctlStat ≠ Reg.ctlStaStat n := by unfold Reg.ctlStat Reg.ctlStaStat; omega
  unfold stationCheck
  rw [reg_republish, reg_foldl_stationPoint, reg_setRb_ne _ _ hne.symm]

/-- Refutes O40: an error task's arm flag is any number, and setting a flag beyond the 256 falls on another register; here
DOWNS of the station counts 17 for 1. -/
theorem not_loopsAndPoints : ¬ Obligations.LoopsAndPoints := by
  unfold Obligations.LoopsAndPoints
  intro h
  obtain ⟨-, -, -, -, -, -, -, -, -, -, -, -, -, -, -, -, -, -, -, -, -, hdown⟩ := h
  obtain ⟨t, hexec, -, -, -, -, hcount⟩ :=
    hdown 0 0 strayFlag (by decide) (by decide +kernel) (by decide +kernel) (by decide +kernel) (by decide +kernel)
  have ht : stationCheck strayFlag = t := Host.Outcome.next.inj hexec
  rw [← ht, rf_of_reg (staStat_stationCheck strayFlag 0), downs_strayFlag] at hcount
  exact absurd hcount (by decide +kernel)

end Sys2Proof.Machine
end

section
/-! PROOFS. Links and their states (Table 10-3): O41. -/

namespace Sys2Proof.Machine

variable {r s : State} {l : Nat}

/-! ## What a change of a link's state writes -/

/-- The registers that the state machine of link `l` writes. -/
def linkRow (l : Nat) : List Nat :=
  [Reg.logEvt, Reg.tteXsum, Reg.sysAddr, Reg.fabEvt, Reg.fabStat, Reg.fabLkStat l, Reg.fabLkQuar l]

theorem fabRec_regsBut (code sev subject : Nat) (d : List Word) (h : r.regsBut (linkRow l) s) :
    r.regsBut (linkRow l) (fabRec s code sev subject d) :=
  logOnce_regsBut _ _ _ _ _ (by simp [linkRow]) h

theorem orEvt_regsBut (m : Nat) (h : r.regsBut (linkRow l) s) : r.regsBut (linkRow l) (s.orReg Reg.fabEvt m) :=
  setReg_regsBut _ (by simp [linkRow]) h

theorem setLkStat_regsBut (hi lo v : Nat) (h : r.regsBut (linkRow l) s) :
    r.regsBut (linkRow l) (s.setRf (Reg.fabLkStat l) hi lo v) :=
  setReg_regsBut _ (by simp [linkRow]) h

theorem linksShow_regsBut (h : r.regsBut (linkRow l) s) : r.regsBut (linkRow l) (linksShow s) :=
  setReg_regsBut _ (by simp [linkRow]) (setReg_regsBut _ (by simp [linkRow]) (setReg_regsBut _ (by simp [linkRow]) h))

/-- What leaving UP reports. -/
def upLost (l st old : Nat) (s : State) : State :=
  if old = 6 ∧ st ≠ 6 then fabRec (s.orReg Reg.fabEvt 1) 0x701 8 l [w32 l, w32 st] else s

/-- What reaching UP reports. -/
def upReached (l st old : Nat) (s : State) : State :=
  if st = 6 ∧ old ≠ 6 then fabRec s 0x703 4 l [w32 l, w32 (s.rf (Reg.fabLkDelay l) 15 0)] else s

theorem setLkState_spec (l st : Nat) (s : State) :
    setLkState l st s = linksShow (upReached l st (lkState s l) (upLost l st (lkState s l) (s.setRf (Reg.fabLkStat l) 2 0 st))) :=
  rfl

theorem upLost_regsBut (st old : Nat) (h : r.regsBut (linkRow l) s) : r.regsBut (linkRow l) (upLost l st old s) := by
  unfold upLost
  split
  · exact fabRec_regsBut _ _ _ _ (orEvt_regsBut 1 h)
  · exact h

theorem upReached_regsBut (st old : Nat) (h : r.regsBut (linkRow l) s) : r.regsBut (linkRow l) (upReached l st old s) := by
  unfold upReached
  split
  · exact fabRec_regsBut _ _ _ _ h
  · exact h

theorem setLkState_regsBut (st : Nat) (h : r.regsBut (linkRow l) s) : r.regsBut (linkRow l) (setLkState l st s) := by
  rw [setLkState_spec]
  exact linksShow_regsBut (upReached_regsBut _ _ (upLost_regsBut _ _ (setLkStat_regsBut 2 0 st h)))

theorem linkStatus_regsBut (h : r.regsBut (linkRow l) s) : r.regsBut (linkRow l) (linkStatus l s) :=
  sendIn_regsBut _ _ _ (by simp [linkRow]) (by simp [linkRow]) (regsBut_of_regs_eq (s := s) rfl h)

theorem setLk_regsBut (x : Link) (h : r.regsBut (linkRow l) s) : r.regsBut (linkRow l) (s.setLk l x) :=
  regsBut_of_regs_eq (s := s) rfl h

theorem fabShow_regsBut (h : r.regsBut (linkRow l) s) : r.regsBut (linkRow l) (fabShow l s) :=
  regsBut_of_regs_eq (republish_regs _ _) h

theorem quarantine_regsBut (cause : Nat) (h : r.regsBut (linkRow l) s) : r.regsBut (linkRow l) (quarantine l cause s) := by
  have h1 := setLkStat_regsBut 15 8 0 (setLkStat_regsBut 7 4 cause h)
  unfold quarantine
  extract_lets enter s1 s2
  split
  · refine fabRec_regsBut _ _ _ _ (setLkState_regsBut 4 (setLk_regsBut _ (orEvt_regsBut 2 ?_)))
    exact setReg_regsBut _ (by simp [linkRow]) h1
  · exact linksShow_regsBut (setLk_regsBut _ h1)

/-- Neither the state of a link nor its record depends on the registers of another. -/
theorem lkState_other {t : State} (h : s.regsBut (linkRow l) t) {k : Nat} (hk : k < 8) (hne : k ≠ l) :
    lkState t k = lkState s k := by
  refine rf_of_reg (h _ ?_) 2 0
  simp only [linkRow, List.mem_cons, List.not_mem_nil, or_false, Reg.logEvt, Reg.tteXsum, Reg.sysAddr, Reg.fabEvt, Reg.fabStat,
    Reg.fabLkStat, Reg.fabLkQuar]
  omega

/-! ## The records of the links -/

theorem lk_setLk (s : State) (l : Nat) (x : Link) (k : Nat) : (s.setLk l x).lk k = if k = l then x else s.lk k :=
  sget_sset _ _ _ _ _

theorem lk_of_fab {t : State} (h : t.fab = s.fab) (k : Nat) : t.lk k = s.lk k := by
  unfold State.lk
  rw [h]

theorem fab_setLkState (l st : Nat) (s : State) : (setLkState l st s).fab = s.fab :=
  (setLkState_keeps l st (sub_refl _) (Keeps.refl _ s)).fab rfl

theorem fab_linksShow (s : State) : (linksShow s).fab = s.fab := rfl

theorem fab_linkStatus (l : Nat) (s : State) : (linkStatus l s).fab = s.fab :=
  (linkStatus_keeps l (sub_refl _) (Keeps.refl _ s)).fab rfl

theorem fab_fabShow (l : Nat) (s : State) : (fabShow l s).fab = s.fab :=
  (fabShow_keeps l (sub_refl _) (Keeps.refl _ s)).fab rfl

theorem fab_fabRec (s : State) (code sev subject : Nat) (d : List Word) : (fabRec s code sev subject d).fab = s.fab :=
  (fabRec_keeps code sev subject d (sub_refl _) (Keeps.refl _ s)).fab rfl

/-! ## The state of a link after a change -/

theorem lkStat_linksShow (s : State) (l : Nat) : (linksShow s).reg (Reg.fabLkStat l) = s.reg (Reg.fabLkStat l) := by
  have h1 : Reg.fabLkStat l ≠ Reg.sysAddr := by unfold Reg.fabLkStat Reg.sysAddr; omega
  have h2 : Reg.fabLkStat l ≠ Reg.fabStat := by unfold Reg.fabLkStat Reg.fabStat; omega
  exact (reg_setRb_ne _ _ h1).trans ((reg_setRf_ne _ _ _ h2).trans (reg_setRf_ne _ _ _ h2))

theorem lkStat_fabRec (s : State) (code sev subject : Nat) (d : List Word) (hl : l < 8) :
    (fabRec s code sev subject d).reg (Reg.fabLkStat l) = s.reg (Reg.fabLkStat l) :=
  reg_logOnce _ _ _ _ _ _ (by unfold Reg.fabLkStat Reg.logEvt; omega)

theorem lkStat_orEvt (s : State) (m : Nat) : (s.orReg Reg.fabEvt m).reg (Reg.fabLkStat l) = s.reg (Reg.fabLkStat l) :=
  reg_orReg_ne _ (by unfold Reg.fabLkStat Reg.fabEvt; omega)

theorem lkStat_upLost (st old : Nat) (s : State) (hl : l < 8) :
    (upLost l st old s).reg (Reg.fabLkStat l) = s.reg (Reg.fabLkStat l) := by
  unfold upLost
  split
  · rw [lkStat_fabRec _ _ _ _ _ hl, lkStat_orEvt]
  · rfl

theorem lkStat_upReached (st old : Nat) (s : State) (hl : l < 8) :
    (upReached l st old s).reg (Reg.fabLkStat l) = s.reg (Reg.fabLkStat l) := by
  unfold upReached
  split
  · rw [lkStat_fabRec _ _ _ _ _ hl]
  · rfl

/-- The one field of the link's status register that a change of state writes is its STATE. -/
theorem lkStat_setLkState (st : Nat) (s : State) (hl : l < 8) :
    (setLkState l st s).reg (Reg.fabLkStat l) = setFld (s.reg (Reg.fabLkStat l)) 2 0 st := by
  rw [setLkState_spec, lkStat_linksShow, lkStat_upReached _ _ _ hl, lkStat_upLost _ _ _ hl, reg_setRf_same]

theorem lkState_setLkState {st : Nat} (s : State) (hl : l < 8) (hst : st < 8) : lkState (setLkState l st s) l = st := by
  unfold lkState State.rf
  rw [lkStat_setLkState st s hl, fld_setFld_same _ _ _ _ (by decide) (by decide), Nat.mod_eq_of_lt (by omega)]

theorem lkState_fabShow (l k : Nat) (s : State) : lkState (fabShow l s) k = lkState s k := rf_of_reg (reg_republish _ _) 2 0

theorem lkState_linksShow (s : State) (k : Nat) : lkState (linksShow s) k = lkState s k := rf_of_reg (lkStat_linksShow s k) 2 0

/-- The links but `l` stand. -/
def OthersStand (l : Nat) (s t : State) : Prop := ∀ k, k < 8 → k ≠ l → lkState t k = lkState s k ∧ t.lk k = s.lk k

/-- A change of one link's state and record leaves the other links. -/
theorem othersStand_of {t u : State} {x : Link} (hreg : s.regsBut (linkRow l) t) (hfab : t.fab = (u.setLk l x).fab)
    (hu : u.fab = s.fab) : OthersStand l s t := by
  intro k hk hne
  refine ⟨lkState_other hreg hk hne, ?_⟩
  rw [lk_of_fab hfab, lk_setLk, if_neg hne, lk_of_fab hu]

/-! ## Events -/

theorem linkSignalPresent_down (h : lkState s l = 1) : linkSignalPresent l s = fabShow l (setLkState l 2 (linkStatus l s)) :=
  if_pos h

theorem fab_linkSignalPresent_down (h : lkState s l = 1) : (linkSignalPresent l s).fab = s.fab := by
  rw [linkSignalPresent_down h, fab_fabShow, fab_setLkState, fab_linkStatus]

theorem lk_linkFresh (s : State) (l : Nat) :
    (linkFresh l s).lk l = { (s.lk l) with agreed := false, exch := 0, nstr := 0x3F, bad := 0, tx := 0, rx := 0 } := by
  unfold linkFresh
  rw [lk_setLk, if_pos rfl]

/-- Of a link of the fabric in TRAINING. -/
theorem symbolsAligned_training {swap inv : Bool} (hl : l < 8) (h : lkState s l = 2) :
    symbolsAligned l swap inv s = fabShow l (setLkState l 3 ((linkFresh l (linkStatus l s)).setLk l
      { ((linkFresh l (linkStatus l s)).lk l) with swap := swap, inv := inv })) := by
  unfold symbolsAligned
  rw [if_neg (by omega), if_pos h]

theorem linkLoss_on (h : 2 ≤ lkState s l) : linkLoss l s = fabShow l (setLkState l 1 (linkFresh l (linkStatus l s))) := by
  unfold linkLoss
  rw [if_neg (by omega)]

/-! ## POSITION -/

/-- The link after its POSITION arrives: the stratum of the neighbour is noted. -/
def noteStratum (l stratum : Nat) (s : State) : State := s.setLk l { (s.lk l) with nstr := stratum }

/-- A second has passed since the repeats of the link were last taken (R269). -/
def repeatDue (s : State) (l : Nat) : Bool :=
  decide ((s.lk l).repAt + 1000000000 ≤ s.fabTime) || decide (s.fabTime < (s.lk l).repAt)

/-- The link after a refused POSITION: the instant of the repeat is kept where a second has passed. -/
def noteRepeat (l : Nat) (s : State) : State :=
  if repeatDue s l then s.setLk l { (s.lk l) with repAt := s.fabTime } else s

/-- A POSITION cell with a check wrong. -/
def positionRefused (l cause addr : Nat) (s : State) : State :=
  fabShow l (fabRec (quarantine l cause ((noteRepeat l s).orReg Reg.fabEvt 4)) 0x704 12 l [w32 l, w32 addr])

/-- A POSITION cell with every check right, outside QUARANTINE. -/
def positionAgreed (l : Nat) (s : State) : State :=
  fabShow l (discoveryUp l (linksShow (s.setLk l { (s.lk l) with agreed := true })))

/-- A POSITION cell with every check right that ends a QUARANTINE. -/
def positionProbation (l : Nat) (s : State) : State :=
  fabShow l (setLkState l 5 (s.setLk l { (s.lk l) with agreed := true, repAt := s.fabTime, probAt := s.fabTime }))

theorem lk_noteStratum (l stratum : Nat) (s : State) : (noteStratum l stratum s).lk l = { (s.lk l) with nstr := stratum } := by
  unfold noteStratum
  rw [lk_setLk, if_pos rfl]

/-- The words of a POSITION cell. -/
structure PositionWords where
  addr : Nat
  nlink : Nat
  expAddr : Nat
  expLink : Nat
  hash : Nat
  stratum : Nat

/-- The model's effect of a POSITION cell, and its check. -/
def PositionWords.arrive (w : PositionWords) (l : Nat) (s : State) : State :=
  position l w.addr w.nlink w.expAddr w.expLink w.hash w.stratum s

def PositionWords.cause (w : PositionWords) (l : Nat) (s : State) : Nat :=
  positionCause s l w.addr w.nlink w.expAddr w.expLink w.hash

variable {w : PositionWords}

theorem arrive_refused (h3 : 3 ≤ lkState s l) (hc : w.cause l s ≠ 0) :
    w.arrive l s = positionRefused l (w.cause l s) w.addr (noteStratum l w.stratum s) := by
  unfold PositionWords.arrive position
  rw [if_neg (by omega)]
  exact if_pos hc

theorem arrive_agreed (h3 : 3 ≤ lkState s l) (h4 : lkState s l ≠ 4) (hc : w.cause l s = 0) :
    w.arrive l s = positionAgreed l (noteStratum l w.stratum s) := by
  unfold PositionWords.arrive position
  rw [if_neg (by omega)]
  refine (if_neg (not_not.mpr hc)).trans ?_
  split
  · contradiction
  · rfl

theorem arrive_quarantine (h4 : lkState s l = 4) (hc : w.cause l s = 0) :
    w.arrive l s = if repeatDue (noteStratum l w.stratum s) l then positionProbation l (noteStratum l w.stratum s)
      else noteStratum l w.stratum s := by
  unfold PositionWords.arrive position
  rw [if_neg (by omega)]
  refine (if_neg (not_not.mpr hc)).trans ?_
  split
  · rfl
  · contradiction

/-! ## A refused POSITION -/

/-- The status register of a link that is quarantined: CAUSE, and the clean seconds from 0. -/
def causeNoted (l cause : Nat) (s : State) : State := (s.setRf (Reg.fabLkStat l) 7 4 cause).setRf (Reg.fabLkStat l) 15 8 0

theorem quarantine_entered {cause : Nat} (h : lkState s l ≠ 4) :
    quarantine l cause s = fabRec (setLkState l 4 (((((causeNoted l cause s).satRf (Reg.fabLkQuar l) 15 0 1).orReg Reg.fabEvt 2)).setLk l
      { ((causeNoted l cause s).lk l) with agreed := false, repAt := (causeNoted l cause s).fabTime })) 0x702 10 l [w32 l, w32 cause] :=
  if_pos h

theorem quarantine_kept {cause : Nat} (h : lkState s l = 4) :
    quarantine l cause s = linksShow ((causeNoted l cause s).setLk l { ((causeNoted l cause s).lk l) with agreed := false }) :=
  if_neg (not_not.mpr h)

theorem lkStat_causeNoted (l cause : Nat) (s : State) :
    (causeNoted l cause s).reg (Reg.fabLkStat l) = setFld (setFld (s.reg (Reg.fabLkStat l)) 7 4 cause) 15 8 0 := by
  unfold causeNoted
  rw [reg_setRf_same, reg_setRf_same]

theorem lkStat_satQuar (s : State) : (s.satRf (Reg.fabLkQuar l) 15 0 1).reg (Reg.fabLkStat l) = s.reg (Reg.fabLkStat l) :=
  reg_satRf_ne _ _ _ (by unfold Reg.fabLkStat Reg.fabLkQuar; omega)

/-- A quarantined link is in state 4 and shows the cause. -/
theorem shown_quarantine (s : State) {cause : Nat} (hl : l < 8) (hc : cause < 16) :
    lkState (quarantine l cause s) l = 4 ∧ (quarantine l cause s).rf (Reg.fabLkStat l) 7 4 = cause := by
  have hfld (v : Word) : fld (setFld (setFld v 7 4 cause) 15 8 0) 7 4 = cause := by
    rw [fld_setFld_disjoint _ _ _ _ _ _ (by decide) (by decide) (by decide) (by decide) (by decide),
      fld_setFld_same _ _ _ _ (by decide) (by decide), Nat.mod_eq_of_lt (by omega)]
  by_cases h : lkState s l = 4
  · have hreg : (quarantine l cause s).reg (Reg.fabLkStat l) = setFld (setFld (s.reg (Reg.fabLkStat l)) 7 4 cause) 15 8 0 := by
      rw [quarantine_kept h, lkStat_linksShow]
      exact lkStat_causeNoted l cause s
    unfold lkState State.rf at h ⊢
    rw [hreg, hfld, fld_setFld_disjoint _ _ _ _ _ _ (by decide) (by decide) (by decide) (by decide) (by decide),
      fld_setFld_disjoint _ _ _ _ _ _ (by decide) (by decide) (by decide) (by decide) (by decide)]
    exact ⟨h, rfl⟩
  · have hreg : (quarantine l cause s).reg (Reg.fabLkStat l) =
        setFld (setFld (setFld (s.reg (Reg.fabLkStat l)) 7 4 cause) 15 8 0) 2 0 4 := by
      rw [quarantine_entered h, lkStat_fabRec _ _ _ _ _ hl, lkStat_setLkState _ _ hl]
      refine congrArg (fun v => setFld v 2 0 4) ?_
      exact (lkStat_orEvt _ _).trans ((lkStat_satQuar _).trans (lkStat_causeNoted l cause s))
    unfold lkState State.rf
    rw [hreg, fld_setFld_same _ _ _ _ (by decide) (by decide),
      fld_setFld_disjoint _ _ _ _ _ _ (by decide) (by decide) (by decide) (by decide) (by decide), hfld]
    exact ⟨rfl, rfl⟩

/-- The record of a link that is quarantined. -/
theorem lk_quarantine (s : State) (l cause : Nat) :
    (quarantine l cause s).lk l = { (s.lk l) with agreed := false, repAt := if lkState s l ≠ 4 then s.fabTime else (s.lk l).repAt } := by
  by_cases h : lkState s l = 4
  · rw [quarantine_kept h, if_neg (not_not.mpr h), lk_of_fab (fab_linksShow _), lk_setLk, if_pos rfl]
    rfl
  · rw [quarantine_entered h, if_pos h, lk_of_fab (fab_fabRec _ _ _ _ _), lk_of_fab (fab_setLkState _ _ _), lk_setLk, if_pos rfl]
    rfl

theorem othersLk_quarantine (s : State) (cause : Nat) {k : Nat} (hne : k ≠ l) : (quarantine l cause s).lk k = s.lk k := by
  by_cases h : lkState s l = 4
  · rw [quarantine_kept h, lk_of_fab (fab_linksShow _), lk_setLk, if_neg hne]
    rfl
  · rw [quarantine_entered h, lk_of_fab (fab_fabRec _ _ _ _ _), lk_of_fab (fab_setLkState _ _ _), lk_setLk, if_neg hne]
    rfl

/-! ### The events of a refused POSITION -/

theorem evt_linksShow (s : State) : (linksShow s).reg Reg.fabEvt = s.reg Reg.fabEvt :=
  (reg_setRb_ne _ _ (by decide)).trans ((reg_setRf_ne _ _ _ (by decide)).trans (reg_setRf_ne _ _ _ (by decide)))

theorem evt_fabRec (s : State) (code sev subject : Nat) (d : List Word) : (fabRec s code sev subject d).reg Reg.fabEvt = s.reg Reg.fabEvt :=
  reg_logOnce _ _ _ _ _ _ (by decide)

theorem evt_setLkState {i : Nat} (st : Nat) (h : s.rb Reg.fabEvt i = true) : (setLkState l st s).rb Reg.fabEvt i = true := by
  have h1 : (s.setRf (Reg.fabLkStat l) 2 0 st).rb Reg.fabEvt i = true := by
    rw [rb_of_reg (reg_setRf_ne _ _ _ (by unfold Reg.fabLkStat Reg.fabEvt; omega)), h]
  have h2 (old : Nat) : (upLost l st old (s.setRf (Reg.fabLkStat l) 2 0 st)).rb Reg.fabEvt i = true := by
    unfold upLost
    split
    · rw [rb_of_reg (evt_fabRec _ _ _ _ _)]
      exact rb_orReg_of_rb _ h1
    · exact h1
  rw [setLkState_spec, rb_of_reg (evt_linksShow _)]
  unfold upReached
  split
  · rw [rb_of_reg (evt_fabRec _ _ _ _ _)]
    exact h2 _
  · exact h2 _

theorem evt_causeNoted (l cause : Nat) (s : State) : (causeNoted l cause s).reg Reg.fabEvt = s.reg Reg.fabEvt := by
  have h : Reg.fabEvt ≠ Reg.fabLkStat l := by unfold Reg.fabLkStat Reg.fabEvt; omega
  exact (reg_setRf_ne _ _ _ h).trans (reg_setRf_ne _ _ _ h)

theorem evt_satQuar (s : State) : (s.satRf (Reg.fabLkQuar l) 15 0 1).reg Reg.fabEvt = s.reg Reg.fabEvt :=
  reg_satRf_ne _ _ _ (by unfold Reg.fabEvt Reg.fabLkQuar; omega)

theorem rb_setLk (s : State) (x : Link) (a i : Nat) : (s.setLk l x).rb a i = s.rb a i := rfl

/-- Entering QUARANTINE raises event 1. -/
theorem evt_quarantine_entered {cause : Nat} (h : lkState s l ≠ 4) : (quarantine l cause s).rb Reg.fabEvt 1 = true := by
  rw [quarantine_entered h, rb_of_reg (evt_fabRec _ _ _ _ _)]
  refine evt_setLkState 4 ?_
  rw [rb_setLk]
  exact rb_orReg_same _ _ _ _ (by decide)

theorem evt_quarantine_of {cause i : Nat} (h : s.rb Reg.fabEvt i = true) : (quarantine l cause s).rb Reg.fabEvt i = true := by
  have h1 : (causeNoted l cause s).rb Reg.fabEvt i = true := by rw [rb_of_reg (evt_causeNoted l cause s), h]
  by_cases h4 : lkState s l = 4
  · rw [quarantine_kept h4, rb_of_reg (evt_linksShow _)]
    exact h1
  · rw [quarantine_entered h4, rb_of_reg (evt_fabRec _ _ _ _ _)]
    refine evt_setLkState 4 ?_
    rw [rb_setLk]
    exact rb_orReg_of_rb _ ((rb_of_reg (evt_satQuar _) i).trans h1)

end Sys2Proof.Machine
end

section
/-! PROOFS. The events of Table 10-3 at a link: O41. -/

namespace Sys2Proof.Machine

variable {s : State} {l : Nat} {w : PositionWords}

/-! ## Signal, alignment, loss and the end of probation -/

theorem signalPresent_spec (hl : l < 8) (h : lkState s l = 1) :
    lkState (linkSignalPresent l s) l = 2 ∧ (linkSignalPresent l s).fab = s.fab ∧
      ((linkSignalPresent l s).port (64 * (1 + l))).transit = true ∧ OthersStand l s (linkSignalPresent l s) := by
  have hfab := fab_linkSignalPresent_down h
  have hport : (linkSignalPresent l s).ports = (linkStatus l s).ports := by
    rw [linkSignalPresent_down h, (fabShow_keeps l (sub_refl _) (Keeps.refl _ _)).ports rfl,
      (setLkState_keeps l 2 (sub_refl _) (Keeps.refl _ _)).ports rfl]
  refine ⟨?_, hfab, ?_, fun k hk hne => ⟨?_, lk_of_fab hfab k⟩⟩
  · rw [linkSignalPresent_down h, lkState_fabShow, lkState_setLkState _ hl (by decide)]
  · have htransit : ((linkStatus l s).port (64 * (1 + l))).transit = true := by
      unfold linkStatus
      exact congrArg Port.transit (port_sendIn (1 + l) [s.free.1] (k := 0) (j := 0) Nat.one_pos s.free.2)
    unfold State.port at htransit ⊢
    rw [hport, htransit]
  · rw [linkSignalPresent_down h]
    exact lkState_other (fabShow_regsBut (setLkState_regsBut 2 (linkStatus_regsBut (regsBut_refl _ s)))) hk hne

theorem aligned_spec {swap inv : Bool} (hl : l < 8) (h : lkState s l = 2) :
    lkState (symbolsAligned l swap inv s) l = 3 ∧
      (symbolsAligned l swap inv s).lk l = { (s.lk l) with agreed := false, exch := 0, nstr := 0x3F, bad := 0, tx := 0, rx := 0, swap := swap, inv := inv } ∧
      OthersStand l s (symbolsAligned l swap inv s) ∧ (symbolsAligned l swap inv s).pair = s.pair := by
  rw [symbolsAligned_training hl h]
  have hstat : (linkStatus l s).lk l = s.lk l := lk_of_fab (fab_linkStatus l s) l
  refine ⟨?_, ?_, ?_, ?_⟩
  · rw [lkState_fabShow, lkState_setLkState _ hl (by decide)]
  · rw [lk_of_fab (fab_fabShow _ _), lk_of_fab (fab_setLkState _ _ _), lk_setLk, if_pos rfl, lk_linkFresh, hstat]
  · intro k hk hne
    constructor
    · exact lkState_other (fabShow_regsBut (setLkState_regsBut 3 (setLk_regsBut _ (setLk_regsBut _
        (linkStatus_regsBut (regsBut_refl _ s)))))) hk hne
    · rw [lk_of_fab (fab_fabShow _ _), lk_of_fab (fab_setLkState _ _ _), lk_setLk, if_neg hne, linkFresh, lk_setLk, if_neg hne,
        lk_of_fab (fab_linkStatus l s)]
  · rw [(fabShow_keeps l (sub_refl _) (Keeps.refl _ _)).pair rfl, (setLkState_keeps l 3 (sub_refl _) (Keeps.refl _ _)).pair rfl]
    exact (linkStatus_keeps l (sub_refl _) (Keeps.refl _ s)).pair rfl

theorem lost_spec (hl : l < 8) (h : 2 ≤ lkState s l) :
    lkState (linkLoss l s) l = 1 ∧
      (linkLoss l s).lk l = { (s.lk l) with agreed := false, exch := 0, nstr := 0x3F, bad := 0, tx := 0, rx := 0 } ∧
      OthersStand l s (linkLoss l s) := by
  rw [linkLoss_on h]
  refine ⟨?_, ?_, ?_⟩
  · rw [lkState_fabShow, lkState_setLkState _ hl (by decide)]
  · rw [lk_of_fab (fab_fabShow _ _), lk_of_fab (fab_setLkState _ _ _), lk_linkFresh, lk_of_fab (fab_linkStatus l s)]
  · intro k hk hne
    constructor
    · exact lkState_other (fabShow_regsBut (setLkState_regsBut 1 (setLk_regsBut _ (linkStatus_regsBut (regsBut_refl _ s))))) hk hne
    · rw [lk_of_fab (fab_fabShow _ _), lk_of_fab (fab_setLkState _ _ _), linkFresh, lk_setLk, if_neg hne,
        lk_of_fab (fab_linkStatus l s)]

theorem clean_spec (hl : l < 8) (h : lkState s l = 5) :
    lkState (probationClean l s) l = 6 ∧ (probationClean l s).rf (Reg.fabLkStat l) 15 8 = 10 ∧
      (probationClean l s).fab = s.fab ∧ OthersStand l s (probationClean l s) := by
  have heq : probationClean l s = fabShow l (setLkState l 6 (s.setRf (Reg.fabLkStat l) 15 8 10)) := if_pos h
  have hreg : (probationClean l s).reg (Reg.fabLkStat l) = setFld (setFld (s.reg (Reg.fabLkStat l)) 15 8 10) 2 0 6 := by
    rw [heq, fabShow, reg_republish, lkStat_setLkState _ _ hl, reg_setRf_same]
  have hfab : (probationClean l s).fab = s.fab := by
    rw [heq, fab_fabShow, fab_setLkState]
    rfl
  refine ⟨?_, ?_, hfab, fun k hk hne => ⟨?_, lk_of_fab hfab k⟩⟩
  · rw [heq, lkState_fabShow, lkState_setLkState _ hl (by decide)]
  · unfold State.rf
    rw [hreg, fld_setFld_disjoint _ _ _ _ _ _ (by decide) (by decide) (by decide) (by decide) (by decide),
      fld_setFld_same _ _ _ _ (by decide) (by decide)]
    rfl
  · rw [heq]
    exact lkState_other (fabShow_regsBut (setLkState_regsBut 6 (setLkStat_regsBut 15 8 10 (regsBut_refl _ s)))) hk hne

/-! ## POSITION -/

theorem lkState_noteStratum (l stratum : Nat) (s : State) (k : Nat) : lkState (noteStratum l stratum s) k = lkState s k := rfl

theorem lkState_setLk (s : State) (l : Nat) (x : Link) (k : Nat) : lkState (s.setLk l x) k = lkState s k := rfl

theorem othersLk_noteStratum (stratum : Nat) (s : State) {k : Nat} (hne : k ≠ l) : (noteStratum l stratum s).lk k = s.lk k := by
  rw [noteStratum, lk_setLk, if_neg hne]

theorem discoveryUp_regsBut {r : State} (h : r.regsBut (linkRow l) s) : r.regsBut (linkRow l) (discoveryUp l s) := by
  unfold discoveryUp
  split
  · exact setLkState_regsBut 6 h
  · exact h

theorem fab_discoveryUp (l : Nat) (s : State) : (discoveryUp l s).fab = s.fab := by
  unfold discoveryUp
  split
  · exact fab_setLkState _ _ _
  · rfl

/-- DISCOVERY ends where the position is agreed and two exchanges are complete. -/
theorem lkState_discoveryUp (hl : l < 8) (hagreed : (s.lk l).agreed = true) :
    lkState (discoveryUp l s) l = if lkState s l = 3 ∧ 2 ≤ (s.lk l).exch then 6 else lkState s l := by
  unfold discoveryUp
  by_cases h : lkState s l = 3 ∧ 2 ≤ (s.lk l).exch
  · rw [if_pos ⟨h.1, hagreed, h.2⟩, if_pos h, lkState_setLkState _ hl (by decide)]
  · rw [if_neg (fun hn => h ⟨hn.1, hn.2.2⟩), if_neg h]

theorem agreed_spec (hl : l < 8) (s : State) :
    lkState (positionAgreed l s) l = (if lkState s l = 3 ∧ 2 ≤ (s.lk l).exch then 6 else lkState s l) ∧
      (positionAgreed l s).lk l = { (s.lk l) with agreed := true } ∧ OthersStand l s (positionAgreed l s) := by
  have hlk (k : Nat) : (linksShow (s.setLk l { (s.lk l) with agreed := true })).lk k = if k = l then { (s.lk l) with agreed := true } else s.lk k := by
    rw [lk_of_fab (fab_linksShow _), lk_setLk]
  have hself := (hlk l).trans (if_pos rfl)
  unfold positionAgreed
  refine ⟨?_, ?_, fun k hk hne => ⟨?_, ?_⟩⟩
  · rw [lkState_fabShow, lkState_discoveryUp hl (by rw [hself]), lkState_linksShow, lkState_setLk, hself]
  · rw [lk_of_fab (fab_fabShow _ _), lk_of_fab (fab_discoveryUp _ _), hself]
  · exact lkState_other (fabShow_regsBut (discoveryUp_regsBut (linksShow_regsBut (setLk_regsBut _ (regsBut_refl _ s))))) hk hne
  · rw [lk_of_fab (fab_fabShow _ _), lk_of_fab (fab_discoveryUp _ _), hlk, if_neg hne]

theorem probation_spec (hl : l < 8) (s : State) :
    lkState (positionProbation l s) l = 5 ∧
      (positionProbation l s).lk l = { (s.lk l) with agreed := true, repAt := s.fabTime, probAt := s.fabTime } ∧
      OthersStand l s (positionProbation l s) := by
  unfold positionProbation
  refine ⟨?_, ?_, fun k hk hne => ⟨?_, ?_⟩⟩
  · rw [lkState_fabShow, lkState_setLkState _ hl (by decide)]
  · rw [lk_of_fab (fab_fabShow _ _), lk_of_fab (fab_setLkState _ _ _), lk_setLk, if_pos rfl]
  · exact lkState_other (fabShow_regsBut (setLkState_regsBut 5 (setLk_regsBut _ (regsBut_refl _ s)))) hk hne
  · rw [lk_of_fab (fab_fabShow _ _), lk_of_fab (fab_setLkState _ _ _), lk_setLk, if_neg hne]

theorem lkState_noteRepeat (l : Nat) (s : State) : lkState (noteRepeat l s) l = lkState s l := by
  unfold noteRepeat
  split <;> rfl

theorem noteRepeat_regsBut {r : State} (h : r.regsBut (linkRow l) s) : r.regsBut (linkRow l) (noteRepeat l s) := by
  unfold noteRepeat
  split
  · exact setLk_regsBut _ h
  · exact h

theorem fabTime_noteRepeat (l : Nat) (s : State) : (noteRepeat l s).fabTime = s.fabTime := by
  unfold noteRepeat
  split <;> rfl

theorem lk_noteRepeat (l : Nat) (s : State) (k : Nat) :
    (noteRepeat l s).lk k = if k = l ∧ repeatDue s l then { (s.lk l) with repAt := s.fabTime } else s.lk k := by
  unfold noteRepeat
  by_cases hdue : repeatDue s l
  · rw [if_pos hdue, lk_setLk]
    simp [hdue]
  · rw [if_neg hdue, if_neg (fun h => hdue h.2)]

theorem lk_orReg (s : State) (a m k : Nat) : (s.orReg a m).lk k = s.lk k := rfl

theorem fabTime_orReg (s : State) (a m : Nat) : (s.orReg a m).fabTime = s.fabTime := rfl

/-- The instant of the repeat, the quarantine and its events where a check of POSITION is wrong. -/
theorem refused_spec (hl : l < 8) {cause : Nat} (hc : cause < 16) (addr : Nat) (s : State) :
    lkState (positionRefused l cause addr s) l = 4 ∧ (positionRefused l cause addr s).rf (Reg.fabLkStat l) 7 4 = cause ∧
      ((positionRefused l cause addr s).lk l).agreed = false ∧
      ((positionRefused l cause addr s).lk l).repAt = (if lkState s l ≠ 4 ∨ repeatDue s l then s.fabTime else (s.lk l).repAt) ∧
      (lkState s l ≠ 4 → (positionRefused l cause addr s).rb Reg.fabEvt 1 = true) ∧
      (positionRefused l cause addr s).rb Reg.fabEvt 2 = true ∧ OthersStand l s (positionRefused l cause addr s) := by
  have hst : lkState ((noteRepeat l s).orReg Reg.fabEvt 4) l = lkState s l :=
    (rf_of_reg (lkStat_orEvt _ _) 2 0).trans (lkState_noteRepeat l s)
  have hlkOr (k : Nat) : ((noteRepeat l s).orReg Reg.fabEvt 4).lk k = (noteRepeat l s).lk k := lk_orReg _ _ _ k
  have htime : ((noteRepeat l s).orReg Reg.fabEvt 4).fabTime = s.fabTime := (fabTime_orReg _ _ _).trans (fabTime_noteRepeat l s)
  have hevt : ((noteRepeat l s).orReg Reg.fabEvt 4).rb Reg.fabEvt 2 = true := rb_orReg_same _ _ _ _ (by decide)
  have hregs : s.regsBut (linkRow l) ((noteRepeat l s).orReg Reg.fabEvt 4) :=
    orEvt_regsBut 4 (noteRepeat_regsBut (regsBut_refl _ s))
  unfold positionRefused
  generalize (noteRepeat l s).orReg Reg.fabEvt 4 = u at *
  obtain ⟨hstate, hcause⟩ := shown_quarantine u hl hc
  have hlk (k : Nat) : (fabShow l (fabRec (quarantine l cause u) 0x704 12 l [w32 l, w32 addr])).lk k = (quarantine l cause u).lk k := by
    rw [lk_of_fab (fab_fabShow _ _), lk_of_fab (fab_fabRec _ _ _ _ _)]
  have hreg : (fabShow l (fabRec (quarantine l cause u) 0x704 12 l [w32 l, w32 addr])).reg (Reg.fabLkStat l) =
      (quarantine l cause u).reg (Reg.fabLkStat l) := by
    rw [fabShow, reg_republish, lkStat_fabRec _ _ _ _ _ hl]
  have hev (i : Nat) : (fabShow l (fabRec (quarantine l cause u) 0x704 12 l [w32 l, w32 addr])).rb Reg.fabEvt i =
      (quarantine l cause u).rb Reg.fabEvt i := by
    rw [fabShow, rb_of_reg (reg_republish _ _), rb_of_reg (evt_fabRec _ _ _ _ _)]
  refine ⟨?_, ?_, ?_, ?_, ?_, ?_, fun k hk hne => ⟨?_, ?_⟩⟩
  · exact (rf_of_reg hreg 2 0).trans hstate
  · exact (rf_of_reg hreg 7 4).trans hcause
  · rw [hlk, lk_quarantine]
  · rw [hlk, lk_quarantine, hst, htime, hlkOr, lk_noteRepeat]
    by_cases h4 : lkState s l = 4 <;> by_cases hdue : repeatDue s l <;> simp [h4, hdue]
  · intro h4
    rw [hev]
    exact evt_quarantine_entered (by rw [hst]; exact h4)
  · rw [hev]
    exact evt_quarantine_of hevt
  · exact lkState_other (fabShow_regsBut (fabRec_regsBut _ _ _ _ (quarantine_regsBut cause hregs))) hk hne
  · rw [hlk, othersLk_quarantine _ _ hne, hlkOr, lk_noteRepeat, if_neg (fun h => hne h.1)]

theorem cause_lt (w : PositionWords) (l : Nat) (s : State) : w.cause l s < 16 := by
  unfold PositionWords.cause positionCause
  split
  · decide
  · split
    · decide
    · split
      · decide
      · split <;> decide

/-- What another link keeps when the stratum is noted first. -/
theorem othersStand_noteStratum {stratum : Nat} {t : State} (h : OthersStand l (noteStratum l stratum s) t) : OthersStand l s t := by
  intro k hk hne
  obtain ⟨hst, hlk⟩ := h k hk hne
  exact ⟨hst, hlk.trans (othersLk_noteStratum stratum s hne)⟩

theorem repeatDue_noteStratum (l stratum : Nat) (s : State) :
    repeatDue (noteStratum l stratum s) l = true ↔ ((s.lk l).repAt + 1000000000 ≤ s.fabTime ∨ s.fabTime < (s.lk l).repAt) := by
  have htime : (noteStratum l stratum s).fabTime = s.fabTime := rfl
  unfold repeatDue
  rw [lk_noteStratum, htime, Bool.or_eq_true, decide_eq_true_iff, decide_eq_true_iff]

/-- Settles O41, an event of Table 10-3 at a time. -/
theorem linkStates : Obligations.LinkStates := by
  unfold Obligations.LinkStates
  refine ⟨?signal, ?aligned, ?alignedPair, ?lost, ?discovery, ?agreed, ?probation, ?early, ?refused, ?clean⟩
  case signal =>
    intro l s h hprog
    exact ⟨_, unlessHeld hprog, (linkSignalPresent_keeps l.val (sub_refl _) (Keeps.refl _ s)).frame rfl, signalPresent_spec l.isLt h⟩
  case aligned =>
    intro l swap inv s hl h hprog
    exact ⟨_, unlessHeld hprog, (symbolsAligned_keeps l.val swap inv (sub_refl _) (Keeps.refl _ s)).frame rfl, aligned_spec hl h⟩
  case alignedPair =>
    intro l swap inv s hl hprog
    exact ⟨_, unlessHeld hprog, (symbolsAligned_keeps l.val swap inv (sub_refl _) (Keeps.refl _ s)).frame rfl, if_pos hl⟩
  case lost =>
    intro l s h
    exact ⟨_, rfl, (linkLoss_keeps l.val (sub_refl _) (Keeps.refl _ s)).frame rfl, lost_spec l.isLt h⟩
  case discovery =>
    intro l addr nlink expAddr expLink hash stratum s h hc hprog
    let w : PositionWords := ⟨addr.toNat, nlink.toNat, expAddr.toNat, expLink.toNat, hash.toNat, stratum.toNat⟩
    obtain ⟨hst, hlk, hothers⟩ := agreed_spec l.isLt (noteStratum l.val w.stratum s)
    have heq := arrive_agreed (w := w) (by omega : 3 ≤ lkState s l.val) (by omega) hc
    refine ⟨_, (unlessHeld hprog).trans (congrArg _ heq), ?_, ?_, ?_, othersStand_noteStratum hothers⟩
    · rw [← heq]
      exact (position_keeps l.val _ _ _ _ _ _ (sub_refl _) (Keeps.refl _ s)).frame rfl
    · rw [hlk, lk_noteStratum]
    · rw [hst, lkState_noteStratum, lk_noteStratum, h]
      simp
  case agreed =>
    intro l addr nlink expAddr expLink hash stratum s h hc hprog
    let w : PositionWords := ⟨addr.toNat, nlink.toNat, expAddr.toNat, expLink.toNat, hash.toNat, stratum.toNat⟩
    obtain ⟨hst, hlk, hothers⟩ := agreed_spec l.isLt (noteStratum l.val w.stratum s)
    have heq := arrive_agreed (w := w) (by omega : 3 ≤ lkState s l.val) (by omega) hc
    refine ⟨_, (unlessHeld hprog).trans (congrArg _ heq), ?_, ?_, ?_, othersStand_noteStratum hothers⟩
    · rw [← heq]
      exact (position_keeps l.val _ _ _ _ _ _ (sub_refl _) (Keeps.refl _ s)).frame rfl
    · rw [hlk, lk_noteStratum]
    · rw [hst, lkState_noteStratum, if_neg (by omega)]
  case probation =>
    intro l addr nlink expAddr expLink hash stratum s h hc hdue hprog
    let w : PositionWords := ⟨addr.toNat, nlink.toNat, expAddr.toNat, expLink.toNat, hash.toNat, stratum.toNat⟩
    obtain ⟨hst, hlk, hothers⟩ := probation_spec l.isLt (noteStratum l.val w.stratum s)
    have heq := (arrive_quarantine (w := w) h hc).trans (if_pos ((repeatDue_noteStratum _ _ _).mpr hdue))
    refine ⟨_, (unlessHeld hprog).trans (congrArg _ heq), ?_, ?_, hst, othersStand_noteStratum hothers⟩
    · rw [← heq]
      exact (position_keeps l.val _ _ _ _ _ _ (sub_refl _) (Keeps.refl _ s)).frame rfl
    · rw [hlk, lk_noteStratum]
      rfl
  case early =>
    intro l addr nlink expAddr expLink hash stratum s h hc hdue hprog
    let w : PositionWords := ⟨addr.toNat, nlink.toNat, expAddr.toNat, expLink.toNat, hash.toNat, stratum.toNat⟩
    have heq := (arrive_quarantine (w := w) h hc).trans (if_neg (fun hd => hdue ((repeatDue_noteStratum _ _ _).mp hd)))
    refine ⟨_, (unlessHeld hprog).trans (congrArg _ heq), ?_, rfl⟩
    rw [← heq]
    exact (position_keeps l.val _ _ _ _ _ _ (sub_refl _) (Keeps.refl _ s)).frame rfl
  case refused =>
    intro l addr nlink expAddr expLink hash stratum s h hc hprog
    let w : PositionWords := ⟨addr.toNat, nlink.toNat, expAddr.toNat, expLink.toNat, hash.toNat, stratum.toNat⟩
    obtain ⟨hst, hcause, hagreed, hrep, h1, h2, hothers⟩ :=
      refused_spec l.isLt (cause_lt w l.val s) addr.toNat (noteStratum l.val w.stratum s)
    have heq := arrive_refused (w := w) h hc
    refine ⟨_, (unlessHeld hprog).trans (congrArg _ heq), ?_, hst, hcause, hagreed, ?_, h1, h2, othersStand_noteStratum hothers⟩
    · rw [← heq]
      exact (position_keeps l.val _ _ _ _ _ _ (sub_refl _) (Keeps.refl _ s)).frame rfl
    · rw [hrep, lkState_noteStratum, lk_noteStratum]
      exact if_congr (or_congr Iff.rfl (repeatDue_noteStratum _ _ _)) rfl rfl
  case clean =>
    intro l s h hprog
    exact ⟨_, unlessHeld hprog, (probationClean_keeps l.val (sub_refl _) (Keeps.refl _ s)).frame rfl, clean_spec l.isLt h⟩

end Sys2Proof.Machine
end

section
/-! PROOFS. What the queues, the ports and the log leave of the register space: the rules for the blocks that they do not touch. -/

namespace Sys2Proof.Machine

/-- A register that no queue, port, record or status word of a T1S port writes: outside the blocks TTE, MAC and QUE, and not
LOG_EVT. -/
def Aloof (a : Nat) : Prop := a ≠ Reg.logEvt ∧ (a < 0x10000 ∨ 0x20000 ≤ a) ∧ (a < 0x90000 ∨ 0xA0000 ≤ a) ∧ a < 0xF0000

variable {a : Nat}

theorem Aloof.notMem_bpRegs (ha : Aloof a) {p : Nat} (hp : p < 12) : a ∉ bpRegs p := by
  unfold Aloof Reg.logEvt at ha
  simp only [bpRegs, Reg.logEvt, Reg.tteXsum, Reg.macPEvt, Reg.macPStat, List.mem_cons, List.not_mem_nil, or_false]
  omega

theorem Aloof.ne_ecc (ha : Aloof a) {mem : Nat} (hm : mem < 8) : a ≠ Reg.tteEccCode + 4 * mem ∧ a ≠ Reg.tteEccStat ∧ a ≠ Reg.tteDedAddr := by
  unfold Aloof at ha
  unfold Reg.tteEccCode Reg.tteEccStat Reg.tteDedAddr
  omega

theorem reg_logOnce_aloof (ha : Aloof a) (code blk sev subject : Nat) (d : List Word) (s : State) :
    (s.logOnce code blk sev subject d).reg a = s.reg a := reg_logOnce _ _ _ _ _ _ ha.1

theorem reg_overrun_aloof (ha : Aloof a) (p : Nat) (s : State) : (s.overrun p).reg a = s.reg a := by
  refine overrun_regsBut (l := [Reg.logEvt, Reg.tteXsum]) p (by simp) (by simp) (regsBut_refl _ s) a ?_
  unfold Aloof at ha
  simp only [Reg.logEvt, Reg.tteXsum, List.mem_cons, List.not_mem_nil, or_false] at ha ⊢
  omega

theorem reg_sendPort_aloof (ha : Aloof a) (p : Nat) (w : Word) (s : State) : (s.sendPort p w).reg a = s.reg a := by
  have h : (s.sendPort p w).reg a = (if (s.port p).transit || (s.port p).valid then s.overrun p else s).reg a := rfl
  rw [h]
  split
  · exact reg_overrun_aloof ha p s
  · rfl

theorem reg_sendIn_aloof (ha : Aloof a) (island k : Nat) (ws : List Word) (s : State) : (sendIn island k ws s).reg a = s.reg a := by
  induction ws generalizing k s with
  | nil => rfl
  | cons w ws ih => exact (ih _ _).trans (reg_sendPort_aloof ha _ w s)

theorem reg_backpressureAt_aloof (ha : Aloof a) (q lev : Nat) (b : Bool) (s : State) : (backpressureAt s q lev b).reg a = s.reg a := by
  unfold backpressureAt
  split
  next p hp => exact backpressureSet_regsBut lev b (regsBut_refl _ s) a (ha.notMem_bpRegs (bpPort_lt hp))
  next => rfl

theorem Aloof.ne_que (ha : Aloof a) (q : Nat) : a ≠ Reg.queQLevel q ∧ a ≠ Reg.queQStat q ∧ a ≠ Reg.queQCnt q ∧ a ≠ Reg.queQDed q ∧ a ≠ Reg.queEvt := by
  unfold Aloof at ha
  unfold Reg.queQLevel Reg.queQStat Reg.queQCnt Reg.queQDed Reg.queEvt
  omega

theorem reg_qSetLevel_aloof (ha : Aloof a) (q old new : Nat) (s : State) : (qSetLevel s q old new).reg a = s.reg a := by
  obtain ⟨hlev, hstat, -⟩ := ha.ne_que q
  have h1 : (s.setRf (Reg.queQLevel q) 14 0 new).reg a = s.reg a := reg_setRf_ne _ _ _ hlev
  unfold qSetLevel
  extract_lets s1 s2 s3
  have h2 : s2.reg a = s.reg a := by
    unfold s2
    split
    · exact (reg_setRf_ne _ _ _ hlev).trans h1
    · exact h1
  have h3 : s3.reg a = s.reg a := by
    unfold s3
    split
    · exact (reg_backpressureAt_aloof ha _ _ _ _).trans ((reg_orReg_ne _ hstat).trans h2)
    · exact h2
  split
  · exact (reg_backpressureAt_aloof ha _ _ _ _).trans ((reg_orReg_ne _ hstat).trans h3)
  · exact h3

theorem reg_qOverflow_aloof (ha : Aloof a) (q : Nat) (s : State) : (qOverflow s q).reg a = s.reg a := by
  obtain ⟨-, hstat, hcnt, -, hevt⟩ := ha.ne_que q
  rw [reg_qOverflow _ _ ha.1 hevt, reg_orReg_ne _ hstat, reg_satRf_ne _ _ _ hcnt]

theorem reg_qViolation_aloof (ha : Aloof a) (q : Nat) (s : State) : (qViolation s q).reg a = s.reg a := by
  obtain ⟨-, -, hcnt, -, hevt⟩ := ha.ne_que q
  unfold qViolation
  split
  · rfl
  · exact (reg_logOnce_aloof ha _ _ _ _ _ _).trans ((reg_orReg_ne _ hevt).trans (reg_satRf_ne _ _ _ hcnt))

theorem reg_qPushIn_aloof (ha : Aloof a) (q : Nat) (w : Word) (s : State) : (qPushIn s q w).reg a = s.reg a := by
  unfold qPushIn
  split
  · rfl
  · split
    · exact reg_qOverflow_aloof ha q s
    · exact reg_qSetLevel_aloof ha _ _ _ _

theorem reg_qPush_aloof (ha : Aloof a) (ep q : Nat) (w : Word) (s : State) : (qPush s ep q w).reg a = s.reg a := by
  unfold qPush
  split
  · rfl
  · split
    · exact reg_qPushIn_aloof ha q w s
    · exact reg_qViolation_aloof ha q s

theorem reg_qPushAll_aloof (ha : Aloof a) (ep q : Nat) (ws : List Word) (s : State) : (qPushAll s ep q ws).reg a = s.reg a := by
  induction ws generalizing s with
  | nil => rfl
  | cons w ws ih => exact (ih _).trans (reg_qPush_aloof ha ep q w s)

theorem reg_islandPush_aloof (ha : Aloof a) (island unit : Nat) (ws : List Word) (s : State) :
    (islandPush s island unit ws).reg a = s.reg a := by
  unfold islandPush
  split
  · exact reg_qPushAll_aloof ha _ _ ws s
  · rfl

theorem reg_secEvent_aloof (ha : Aloof a) {mem : Nat} (hm : mem < 8) (s : State) : (s.secEvent mem).reg a = s.reg a := by
  obtain ⟨hcode, hstat, -⟩ := ha.ne_ecc hm
  exact (reg_orReg_ne _ hstat).trans (reg_satRf_ne _ _ _ hcode)

theorem reg_dedEvent_aloof (ha : Aloof a) {mem : Nat} (hm : mem < 8) (addr : Nat) (s : State) : (s.dedEvent mem addr).reg a = s.reg a := by
  obtain ⟨hcode, hstat, hded⟩ := ha.ne_ecc hm
  exact (reg_setReg_ne _ hded).trans ((reg_orReg_ne _ hstat).trans (reg_satRf_ne _ _ _ hcode))

theorem reg_qDed_aloof (ha : Aloof a) (q addr : Nat) (s : State) : (qDed s q addr).reg a = s.reg a := by
  obtain ⟨-, hstat, -, hded, hevt⟩ := ha.ne_que q
  unfold qDed
  refine (reg_logOnce_aloof ha _ _ _ _ _ _).trans ((reg_logOnce_aloof ha _ _ _ _ _ _).trans ?_)
  refine (reg_dedEvent_aloof ha (by decide) _ _).trans ?_
  exact (reg_orReg_ne _ hevt).trans ((reg_orReg_ne _ hstat).trans (reg_satRf_ne _ _ _ hded))

theorem reg_qFetch_aloof (ha : Aloof a) (q k : Nat) (s : State) : (qFetch s q k).2.reg a = s.reg a := by
  unfold qFetch
  extract_lets addr
  split
  · rfl
  · exact reg_secEvent_aloof ha (by decide) s
  · exact reg_qDed_aloof ha q _ s

theorem reg_qPopOut_aloof (ha : Aloof a) (q : Nat) (s : State) : (qPopOut s q).2.reg a = s.reg a := by
  obtain ⟨-, hstat, -⟩ := ha.ne_que q
  unfold qPopOut
  split
  · rfl
  · split
    · exact reg_orReg_ne _ hstat
    · exact (reg_qSetLevel_aloof ha _ _ _ _).trans (reg_qFetch_aloof ha q 0 s)

theorem reg_popCell_aloof (ha : Aloof a) (q n : Nat) (s : State) : (popCell q n s).2.reg a = s.reg a := by
  induction n generalizing s with
  | zero => rfl
  | succ n ih => exact (ih _).trans (reg_qPopOut_aloof ha q s)

theorem reg_txPop_aloof (ha : Aloof a) (l u : Nat) (s : State) : (txPop l u s).2.reg a = s.reg a := by
  unfold txPop
  split
  · exact reg_popCell_aloof ha _ _ s
  · rfl

theorem reg_txPush_aloof (ha : Aloof a) (l u : Nat) (ws : List Word) (s : State) : (txPush l u ws s).reg a = s.reg a := by
  unfold txPush
  split
  · split
    · exact reg_qPushAll_aloof ha _ _ ws s
    · rfl
  · rfl

/-- The registers of block FAB are such. -/
theorem aloof_fab (h : 0x70000 ≤ a ∧ a < 0x80000) : Aloof a := by
  unfold Aloof Reg.logEvt
  omega

theorem aloof_fabLkStat {l : Nat} (hl : l < 8) : Aloof (Reg.fabLkStat l) := aloof_fab (by unfold Reg.fabLkStat; omega)
theorem aloof_fabLkRx {l : Nat} (hl : l < 8) : Aloof (Reg.fabLkRx l) := aloof_fab (by unfold Reg.fabLkRx; omega)
theorem aloof_fabLkTx {l : Nat} (hl : l < 8) : Aloof (Reg.fabLkTx l) := aloof_fab (by unfold Reg.fabLkTx; omega)

end Sys2Proof.Machine
end

section
/-! PROOFS. Cells received and sent, and the time of the fabric (sections 10.2 to 10.4): O42. -/

namespace Sys2Proof.Machine

variable {r s : State} {l : Nat}

/-! ## A received cell -/

/-- A right cell: counted, timed where it is a TIME cell, and pushed. -/
def cellTaken (l slot ts : Nat) (ws : List Word) (s : State) : State :=
  rxPush l (ws.take 15 ++ [w32 (slot % 128 + (ts % 2 ^ 24) * 256)])
    (if cType ws = 3 then tsPorts l 1 ts ((s.addReg (Reg.fabLkRx l) 1).setLk l { ((s.addReg (Reg.fabLkRx l) 1).lk l) with rx := ts })
     else s.addReg (Reg.fabLkRx l) 1)

/-- Before release every cell that is right in itself is taken. -/
theorem cellReceive_right {slot ts : Nat} {ws : List Word} (h3 : 3 ≤ lkState s l) (hcrc : cellCrc ws = ws.getD 15 0#32)
    (hform : cellForm ws = true) (hpass : statePasses (lkState s l) (cType ws) = true) (hrel : s.eng.released = false) :
    cellReceive l slot ts ws s =
      fabShow l (if tagRefused s ws then cellTaken l slot ts ws s else stationRefresh 0 l (w32 (cSrc ws)) (cellTaken l slot ts ws s)) := by
  unfold cellReceive
  rw [if_neg (by omega), hcrc, hform, hpass, hrel]
  simp only [beq_self_eq_true, Bool.not_true, Bool.false_and, Bool.false_eq_true, if_false]
  rfl

/-- A cell with a wrong CRC in DISCOVERY is one symbol error more. -/
theorem cellReceive_wrongCrc {slot ts : Nat} {ws : List Word} (h3 : lkState s l = 3) (hcrc : cellCrc ws ≠ ws.getD 15 0#32) :
    cellReceive l slot ts ws s = fabShow l (s.satRf (Reg.fabLkErr0 l) 15 0 1) := by
  have hst : lkState (s.satRf (Reg.fabLkErr0 l) 15 0 1) l = lkState s l :=
    rf_of_reg (reg_satRf_ne _ _ _ (by unfold Reg.fabLkStat Reg.fabLkErr0; omega)) 2 0
  have hviol : violation l (Reg.fabLkErr0 l) 15 0 s = s.satRf (Reg.fabLkErr0 l) 15 0 1 := by
    unfold violation
    split
    · omega
    · omega
    · rfl
  unfold cellReceive
  rw [if_neg (by omega), if_pos (by simpa using hcrc), hviol]

theorem reg_rxPush {a : Nat} (ha : Aloof a) (hdrop : a ≠ Reg.fabLkDrop l) (hevt : a ≠ Reg.fabEvt) (ws : List Word) (s : State) :
    (rxPush l ws s).reg a = s.reg a := by
  unfold rxPush
  extract_lets u
  split
  · exact reg_islandPush_aloof ha _ _ ws s
  · exact (reg_logOnce_aloof ha _ _ _ _ _ _).trans ((reg_orReg_ne _ hevt).trans (reg_satRf_ne _ _ _ hdrop))

theorem reg_tsPorts {a : Nat} (ha : Aloof a) (k ts : Nat) (s : State) : (tsPorts l k ts s).reg a = s.reg a :=
  reg_sendIn_aloof ha _ _ _ s

theorem reg_setLk (s : State) (x : Link) (a : Nat) : (s.setLk l x).reg a = s.reg a := rfl

theorem reg_cellTaken {a slot ts : Nat} {ws : List Word} (ha : Aloof a) (hdrop : a ≠ Reg.fabLkDrop l) (hevt : a ≠ Reg.fabEvt) :
    (cellTaken l slot ts ws s).reg a = (s.addReg (Reg.fabLkRx l) 1).reg a := by
  unfold cellTaken
  rw [reg_rxPush ha hdrop hevt]
  split
  · rw [reg_tsPorts ha, reg_setLk]
  · rfl

theorem reg_stationRefresh (iface unit : Nat) (id : Word) (s : State) (a : Nat) : (stationRefresh iface unit id s).reg a = s.reg a := by
  unfold State.reg
  rw [(stationRefresh_keeps iface unit id (sub_refl _) (Keeps.refl _ s)).regs rfl]

/-- A register of the link after a right cell. -/
theorem reg_cellReceive_right {a slot ts : Nat} {ws : List Word} (h3 : 3 ≤ lkState s l) (hcrc : cellCrc ws = ws.getD 15 0#32)
    (hform : cellForm ws = true) (hpass : statePasses (lkState s l) (cType ws) = true) (hrel : s.eng.released = false)
    (ha : Aloof a) (hdrop : a ≠ Reg.fabLkDrop l) (hevt : a ≠ Reg.fabEvt) :
    (cellReceive l slot ts ws s).reg a = (s.addReg (Reg.fabLkRx l) 1).reg a := by
  rw [cellReceive_right h3 hcrc hform hpass hrel, fabShow, reg_republish]
  split
  · exact reg_cellTaken ha hdrop hevt
  · rw [reg_stationRefresh, reg_cellTaken ha hdrop hevt]

/-- The count of cells and the state of the link after a right cell. -/
theorem counted_cellReceive {slot ts : Nat} {ws : List Word} (hl : l < 8) (h3 : 3 ≤ lkState s l) (hcrc : cellCrc ws = ws.getD 15 0#32)
    (hform : cellForm ws = true) (hpass : statePasses (lkState s l) (cType ws) = true) (hrel : s.eng.released = false) :
    (cellReceive l slot ts ws s).reg (Reg.fabLkRx l) = s.reg (Reg.fabLkRx l) + 1#32 ∧
      lkState (cellReceive l slot ts ws s) l = lkState s l := by
  constructor
  · rw [reg_cellReceive_right h3 hcrc hform hpass hrel (aloof_fabLkRx hl) (by unfold Reg.fabLkRx Reg.fabLkDrop; omega)
      (by unfold Reg.fabLkRx Reg.fabEvt; omega)]
    exact reg_setReg_same _ _ _
  · refine rf_of_reg ?_ 2 0
    rw [reg_cellReceive_right h3 hcrc hform hpass hrel (aloof_fabLkStat hl) (by unfold Reg.fabLkStat Reg.fabLkDrop; omega)
      (by unfold Reg.fabLkStat Reg.fabEvt; omega)]
    exact reg_setReg_ne _ (by unfold Reg.fabLkStat Reg.fabLkRx; omega)

theorem fab_rxPush (ws : List Word) (s : State) : (rxPush l ws s).fab = s.fab :=
  (rxPush_keeps l ws (sub_refl _) (Keeps.refl _ s)).fab rfl

theorem fab_tsPorts (k ts : Nat) (s : State) : (tsPorts l k ts s).fab = s.fab :=
  (tsPorts_keeps l k ts (sub_refl _) (Keeps.refl _ s)).fab rfl

theorem fab_stationRefresh (iface unit : Nat) (id : Word) (s : State) : (stationRefresh iface unit id s).fab = s.fab :=
  (stationRefresh_keeps iface unit id (sub_refl _) (Keeps.refl _ s)).fab rfl

/-- The receive time of a TIME cell is kept. -/
theorem timed_cellReceive {slot ts : Nat} {ws : List Word} (h3 : 3 ≤ lkState s l) (hcrc : cellCrc ws = ws.getD 15 0#32)
    (hform : cellForm ws = true) (hpass : statePasses (lkState s l) (cType ws) = true) (hrel : s.eng.released = false)
    (htype : cType ws = 3) : ((cellReceive l slot ts ws s).lk l).rx = ts := by
  have htaken : ((cellTaken l slot ts ws s).lk l).rx = ts := by
    unfold cellTaken
    rw [lk_of_fab (fab_rxPush _ _), if_pos htype, lk_of_fab (fab_tsPorts _ _ _), lk_setLk, if_pos rfl]
  rw [cellReceive_right h3 hcrc hform hpass hrel, lk_of_fab (fab_fabShow _ _)]
  split
  · exact htaken
  · rw [lk_of_fab (fab_stationRefresh _ _ _ _), htaken]

theorem stations_cellTaken {slot ts : Nat} {ws : List Word} : (cellTaken l slot ts ws s).ctl = s.ctl := by
  unfold cellTaken
  rw [(rxPush_keeps l _ (sub_refl _) (Keeps.refl _ _)).ctl rfl]
  split
  · exact (tsPorts_keeps l 1 ts (sub_refl _) (Keeps.refl _ _)).ctl rfl
  · rfl

/-- A cell that is to be discarded for its tag refreshes no station. -/
theorem stations_cellReceive_refused {slot ts : Nat} {ws : List Word} (h3 : 3 ≤ lkState s l) (hcrc : cellCrc ws = ws.getD 15 0#32)
    (hform : cellForm ws = true) (hpass : statePasses (lkState s l) (cType ws) = true) (hrel : s.eng.released = false)
    (htag : tagRefused s ws = true) : (cellReceive l slot ts ws s).ctl.stations = s.ctl.stations := by
  rw [cellReceive_right h3 hcrc hform hpass hrel, if_pos htag, (fabShow_keeps l (sub_refl _) (Keeps.refl _ _)).ctl rfl,
    stations_cellTaken]

/-! ## A slot -/

/-- What the slot of a link that is UP sends, by its class. -/
def slotActed (l slot : Nat) (s : State) : State :=
  match slotCls s l slot with
  | 1 =>
    if txReady s l 2 0 then txSend l 2 (slotNs s slot) s
    else if txLevel s l 2 < 16 then
      fabRec ((s.satRf (Reg.fabLkDrop l) 31 16 1).orReg Reg.fabEvt 0x200) 0x70B 8 l [w32 l, w32 slot]
    else s
  | 2 => if slotM s % 2 ^ s.rf Reg.fabTimeCfg 2 0 = 0 then timeSend l (slotNs s slot) s else s
  | 3 =>
    if txReady s l 3 2 then txSend l 3 (slotNs s slot) s
    else if txReady s l 4 2 then txSend l 4 (slotNs s slot) s
    else if txLevel s l 3 = 0 ∧ txLevel s l 4 = 0 ∧ txReady s l 5 3 then txSend l 5 (slotNs s slot) s
    else s
  | _ => s

/-- A link that is UP discards nothing at the start of a slot. -/
theorem slotStart_up {slot : Nat} (hrel : s.eng.released = true) (hup : lkState s l = 6) :
    slotStart l slot s = fabShow l (slotActed l slot s) := by
  have hdisc : discardAll l s = s := if_pos (by simp [lkUp, hup])
  unfold slotStart
  rw [hrel, hdisc, if_neg (by decide), if_neg (by omega)]
  rfl

theorem reg_cellSend_tx (ws : List Word) (s : State) : (cellSend l ws s).reg (Reg.fabLkTx l) = s.reg (Reg.fabLkTx l) + 1#32 :=
  reg_setReg_same _ _ _

theorem lk_cellSend (ws : List Word) (s : State) (k : Nat) :
    (cellSend l ws s).lk k = if k = l then { (s.lk l) with sent := cellLine ws } else s.lk k := by
  unfold cellSend
  rw [lk_setLk]
  rfl

theorem sent_slot {slot : Nat} (hl : l < 8) (hrel : s.eng.released = true) (hup : lkState s l = 6) (hcls : slotCls s l slot = 1)
    (hready : txReady s l 2 0 = true) :
    (slotStart l slot s).reg (Reg.fabLkTx l) = s.reg (Reg.fabLkTx l) + 1#32 ∧
      ((slotStart l slot s).lk l).sent = cellLine (stampPosition (slotNs s slot) (txPop l 2 s).1) := by
  have heq : slotStart l slot s = fabShow l (txSend l 2 (slotNs s slot) s) := by
    rw [slotStart_up hrel hup, slotActed, hcls]
    exact congrArg (fabShow l) (if_pos hready)
  rw [heq]
  constructor
  · rw [fabShow, reg_republish, txSend, reg_cellSend_tx, reg_txPop_aloof (aloof_fabLkTx hl)]
  · rw [lk_of_fab (fab_fabShow _ _), txSend, lk_cellSend, if_pos rfl]

theorem missed_slot {slot : Nat} (hl : l < 8) (hrel : s.eng.released = true) (hup : lkState s l = 6) (hcls : slotCls s l slot = 1)
    (hlevel : txLevel s l 2 < 16) (hready : txReady s l 2 0 = false) :
    (slotStart l slot s).rf (Reg.fabLkDrop l) 31 16 = min (s.rf (Reg.fabLkDrop l) 31 16 + 1) 65535 ∧
      (slotStart l slot s).rb Reg.fabEvt 9 = true ∧ (slotStart l slot s).fab = s.fab := by
  have heq : slotStart l slot s =
      fabShow l (fabRec ((s.satRf (Reg.fabLkDrop l) 31 16 1).orReg Reg.fabEvt 0x200) 0x70B 8 l [w32 l, w32 slot]) := by
    rw [slotStart_up hrel hup, slotActed, hcls]
    refine congrArg (fabShow l) ((if_neg ?_).trans (if_pos hlevel))
    rw [hready]
    decide
  rw [heq]
  refine ⟨?_, ?_, ?_⟩
  · unfold State.rf
    rw [fabShow, reg_republish, fabRec, reg_logOnce_aloof (aloof_fab (by unfold Reg.fabLkDrop; omega)),
      reg_orReg_ne _ (by unfold Reg.fabLkDrop Reg.fabEvt; omega), reg_satRf, if_pos rfl]
    exact fld_satFld _ 31 16 1 (by decide) (by decide)
  · rw [fabShow, rb_of_reg (reg_republish _ _), rb_of_reg (evt_fabRec _ _ _ _ _)]
    exact rb_orReg_same _ _ _ _ (by decide)
  · rw [fab_fabShow, fab_fabRec]
    rfl

/-! ## A TIME cell that is sent -/

theorem lk_of_links {t : State} (h : t.fab.links = s.fab.links) (k : Nat) : t.lk k = s.lk k := by
  unfold State.lk
  rw [h]

theorem links_mkCell (dest cls prio tenant type flags : Nat) (payload : List Byte) (s : State) :
    (mkCell dest cls prio tenant type flags payload s).2.fab.links = s.fab.links := rfl

theorem timeSend_spec (hl : l < 8) (ts : Nat) (s : State) :
    (timeSend l ts s).reg (Reg.fabLkTx l) = s.reg (Reg.fabLkTx l) + 1#32 ∧ ((timeSend l ts s).lk l).tx = ts ∧
      ((timeSend l ts s).lk l).rx = 0 ∧ ((timeSend l ts s).lk l).count = ((s.lk l).count + 1) % 65536 := by
  have hlk : (timeSend l ts s).lk l = { ((timeSend l ts s).lk l) with tx := ts, rx := 0, count := ((s.lk l).count + 1) % 65536 } := by
    unfold timeSend
    rw [lk_of_fab (fab_tsPorts _ _ _), lk_setLk, if_pos rfl]
  refine ⟨?_, congrArg Link.tx hlk, congrArg Link.rx hlk, congrArg Link.count hlk⟩
  unfold timeSend
  rw [reg_tsPorts (aloof_fabLkTx hl), reg_setLk, reg_cellSend_tx]
  rfl

/-- A state that only shows what another holds. -/
theorem timeSend_shown (hl : l < 8) (ts : Nat) (s : State) :
    (fabShow l (timeSend l ts s)).reg (Reg.fabLkTx l) = s.reg (Reg.fabLkTx l) + 1#32 ∧
      ((fabShow l (timeSend l ts s)).lk l).tx = ts ∧ ((fabShow l (timeSend l ts s)).lk l).rx = 0 ∧
      ((fabShow l (timeSend l ts s)).lk l).count = ((s.lk l).count + 1) % 65536 := by
  rw [lk_of_fab (fab_fabShow _ _), fabShow, reg_republish]
  exact timeSend_spec hl ts s

theorem time_slot {slot : Nat} (hrel : s.eng.released = true) (hup : lkState s l = 6) (hcls : slotCls s l slot = 2)
    (hdue : slotM s % 2 ^ s.rf Reg.fabTimeCfg 2 0 = 0) : slotStart l slot s = fabShow l (timeSend l (slotNs s slot) s) := by
  rw [slotStart_up hrel hup, slotActed, hcls]
  exact congrArg (fabShow l) (if_pos hdue)

theorem timeCell_unreleased (hrel : s.eng.released = false) (h3 : 3 ≤ lkState s l) :
    timeCellBeforeRelease l s = fabShow l (timeSend l s.fabTime s) :=
  if_neg (not_or.mpr ⟨by rw [hrel]; decide, by omega⟩)

/-! ## IDENTITY and POSITION -/

theorem seq_mkCell (dest cls prio tenant type flags : Nat) (payload : List Byte) (s : State) :
    (mkCell dest cls prio tenant type flags payload s).2.fab.seq =
      sset 0 s.fab.seq (type * 256 + tenant) ((sget 0 s.fab.seq (type * 256 + tenant) + 1) % 65536) := rfl

theorem seq_cellSend (ws : List Word) (s : State) : (cellSend l ws s).fab.seq = s.fab.seq := rfl

theorem fab_txPush (u : Nat) (ws : List Word) (s : State) : (txPush l u ws s).fab = s.fab :=
  (txPush_keeps l u ws (sub_refl _) (Keeps.refl _ s)).fab rfl

theorem seq_identityPositionSend (h3 : 3 ≤ lkState s l) :
    (identityPositionSend l s).fab.seq =
      sset 0 (sset 0 s.fab.seq 0x100 ((sget 0 s.fab.seq 0x100 + 1) % 65536)) 0x200
        ((sget 0 (sset 0 s.fab.seq 0x100 ((sget 0 s.fab.seq 0x100 + 1) % 65536)) 0x200 + 1) % 65536) := by
  unfold identityPositionSend
  rw [if_neg (by omega)]
  extract_lets a b
  have hb : b.2.fab.seq = sset 0 (sset 0 s.fab.seq 0x100 ((sget 0 s.fab.seq 0x100 + 1) % 65536)) 0x200
        ((sget 0 (sset 0 s.fab.seq 0x100 ((sget 0 s.fab.seq 0x100 + 1) % 65536)) 0x200 + 1) % 65536) := by
    rw [seq_mkCell, seq_mkCell]
  split
  · rw [fab_txPush, fab_txPush, hb]
  · rw [fab_fabShow, seq_cellSend, seq_cellSend, hb]

/-! ## Fabric time -/

/-- The registers that the servo of fabric time writes. -/
def timeRow : List Nat :=
  [Reg.logEvt, Reg.fabEvt, Reg.fabStat, Reg.fabTimeStat, Reg.fabTimeOffset, Reg.fabTimeRate, Reg.fabTimeHold]

/-- From r to s the servo of fabric time has acted: no register but its own, and no link's record. -/
def TimeOnly (r s : State) : Prop := r.regsBut timeRow s ∧ s.fab.links = r.fab.links

theorem TimeOnly.refl (s : State) : TimeOnly s s := ⟨regsBut_refl _ s, rfl⟩

theorem TimeOnly.of_eq {t : State} (h : TimeOnly r s) (hregs : t.regs = s.regs) (hlinks : t.fab.links = s.fab.links) : TimeOnly r t :=
  ⟨regsBut_of_regs_eq hregs h.1, hlinks.trans h.2⟩

theorem TimeOnly.withFab (h : TimeOnly r s) {fab : Fab} (hl : fab.links = s.fab.links) : TimeOnly r { s with fab := fab } :=
  ⟨regsBut_of_regs_eq rfl h.1, hl.trans h.2⟩

theorem TimeOnly.withTime (h : TimeOnly r s) (time : Nat) {fab : Fab} (hl : fab.links = s.fab.links) :
    TimeOnly r { s with fabTime := time, fab := fab } := ⟨regsBut_of_regs_eq rfl h.1, hl.trans h.2⟩

theorem TimeOnly.setReg {a : Nat} (h : TimeOnly r s) (v : Word) (ha : a ∈ timeRow) : TimeOnly r (s.setReg a v) :=
  ⟨setReg_regsBut v ha h.1, h.2⟩

theorem TimeOnly.fabRec (h : TimeOnly r s) (code sev subject : Nat) (d : List Word) : TimeOnly r (fabRec s code sev subject d) :=
  ⟨logOnce_regsBut _ _ _ _ _ (by simp [timeRow]) h.1, (congrArg Fab.links (fab_fabRec s code sev subject d)).trans h.2⟩

theorem TimeOnly.timeBit (h : TimeOnly r s) (i : Nat) (b : Bool) : TimeOnly r (timeBit i b s) :=
  (h.setReg _ (by simp [timeRow])).setReg _ (by simp [timeRow])

theorem TimeOnly.lockShow (h : TimeOnly r s) : TimeOnly r (lockShow s) := by
  unfold Machine.lockShow
  split
  · exact h
  · exact (h.timeBit 0 true).fabRec _ _ _ _

theorem TimeOnly.roundFree (h : TimeOnly r s) (n : Int) (d : Nat) : TimeOnly r (roundFree n d s).2 := by
  unfold Machine.roundFree
  split
  · exact h
  · exact h.of_eq rfl rfl

theorem TimeOnly.showRate (h : TimeOnly r s) (n : Int) (d : Nat) : TimeOnly r (showRate n d s) :=
  (h.roundFree n d).setReg _ (by simp [timeRow])

theorem TimeOnly.timeShow (h : TimeOnly r s) : TimeOnly r (timeShow s) := by
  unfold Machine.timeShow
  extract_lets s1 s3 s2
  have h1 : TimeOnly r s1 := h.setReg _ (by simp [timeRow])
  have h3 : TimeOnly r s3 := h1.setReg _ (by simp [timeRow])
  have h2 : TimeOnly r s2 := by
    unfold s2
    split
    · exact TimeOnly.setReg (((h1.setReg _ (by simp [timeRow])).setReg _ (by simp [timeRow])).of_eq rfl rfl) _ (by simp [timeRow])
    · split
      · exact h3.setReg _ (by simp [timeRow])
      · exact h3
  split
  · exact h2.lockShow
  · exact h2

/-- How often the offset of the parent was small and large in a row (R275). -/
def thetaCounted (s : State) : State :=
  { s with fab := { s.fab with good := if s.fab.theta2.natAbs ≤ 40 then s.fab.good + 1 else 0,
                               far := if 200 < s.fab.theta2.natAbs then s.fab.far + 1 else 0 } }

theorem lockStep_spec (s : State) :
    lockStep s = if 8 ≤ (thetaCounted s).fab.good then lockShow (thetaCounted s)
      else if 4 ≤ (thetaCounted s).fab.far ∧ (!(isRoot s) || externalParent s) then timeBit 0 false (thetaCounted s)
      else thetaCounted s := rfl

theorem TimeOnly.lockStep (h : TimeOnly r s) : TimeOnly r (lockStep s) := by
  have h1 : TimeOnly r (thetaCounted s) := h.of_eq rfl rfl
  rw [lockStep_spec]
  split
  · exact h1.lockShow
  · split
    · exact h1.timeBit 0 false
    · exact h1

/-- A fabric time far off before release is stepped (R274). -/
def timeStepped (t2 : Nat) (s : State) : State :=
  let r := roundFree s.fab.theta2 2 s
  let s1 := fabRec r.2 0x70F 4 (w32i r.1).toNat [w32i r.1, w32i (r.1 / 2 ^ 32)]
  { s1 with fabTime := ((s1.fabTime : Int) - r.1).toNat,
            fab := { s1.fab with freqN := 0, freqD := 1, lastPar := some ((t2 : Int) - r.1).toNat } }

/-- A fabric time far off after release is a split (R274). -/
def timeSplit (t2 : Nat) (s : State) : State :=
  let s1 := fabRec (s.orReg Reg.fabEvt 0x10) 0x707 12 s.fab.parent [w32 s.fab.parent, s.reg Reg.fabTimeOffset]
  { (timeBit 2 true s1) with fab := { s1.fab with lastPar := some t2 } }

/-- The time since the last exchange with the parent. -/
def parentGap (t2 : Nat) (s : State) : Nat := match s.fab.lastPar with | some p => (tDiff t2 p).toNat | none => 0

/-- The correction at the first exchange with the parent, whose rate is free. -/
def timeFirst (t2 : Nat) (s : State) : State :=
  let s1 := timeBit 2 false s
  let f := s1.free
  let fq := clampPpb f.1.toInt 1
  let g := f.2.free
  let s2 := { g.2 with fab := { g.2.fab with freqN := fq.1, freqD := 1, lastPar := some t2 } }
  s2.setReg Reg.fabTimeRate (w32i (clampPpb g.1.toInt 1).1)

/-- The correction at a further exchange. -/
def timeCorrected (t2 : Nat) (s : State) : State :=
  let s1 := timeBit 2 false s
  let fq := servoTerm s.fab.freqN s.fab.freqD s.fab.theta2 16 (parentGap t2 s)
  let rt := servoTerm fq.1 fq.2 s.fab.theta2 2 (parentGap t2 s)
  showRate rt.1 rt.2 { s1 with fab := { s1.fab with freqN := fq.1, freqD := fq.2, lastPar := some t2 } }

theorem timeServo_spec (t2 : Nat) (s : State) :
    timeServo t2 s = if !s.eng.released && decide (2000 < s.fab.theta2.natAbs) then timeStepped t2 s
      else if s.eng.released && decide (2000000 < s.fab.theta2.natAbs) then timeSplit t2 s
      else if parentGap t2 s = 0 then timeFirst t2 s else timeCorrected t2 s := rfl

theorem TimeOnly.timeStepped (h : TimeOnly r s) (t2 : Nat) : TimeOnly r (timeStepped t2 s) := by
  unfold Machine.timeStepped
  extract_lets x s1
  have h1 : TimeOnly r s1 := (h.roundFree _ 2).fabRec _ _ _ _
  clear_value s1
  exact h1.withTime _ rfl

theorem TimeOnly.timeSplit (h : TimeOnly r s) (t2 : Nat) : TimeOnly r (timeSplit t2 s) := by
  unfold Machine.timeSplit
  extract_lets s1
  have h1 : TimeOnly r s1 := TimeOnly.fabRec (h.setReg _ (by simp [timeRow])) _ _ _ _
  exact (h1.timeBit 2 true).withFab rfl

theorem TimeOnly.timeFirst (h : TimeOnly r s) (t2 : Nat) : TimeOnly r (timeFirst t2 s) := by
  unfold Machine.timeFirst
  extract_lets s1 f fq g src fab s2
  have h1 : TimeOnly r s1 := h.timeBit 2 false
  have hg : TimeOnly r g.2 := h1.of_eq rfl rfl
  exact TimeOnly.setReg (hg.withFab rfl) _ (by simp [timeRow])

theorem TimeOnly.timeCorrected (h : TimeOnly r s) (t2 : Nat) : TimeOnly r (timeCorrected t2 s) := by
  unfold Machine.timeCorrected
  extract_lets s1 fq rt src
  have h1 : TimeOnly r s1 := h.timeBit 2 false
  refine TimeOnly.showRate (h1.withFab ?_) _ _
  rfl

theorem TimeOnly.timeServo (h : TimeOnly r s) (t2 : Nat) : TimeOnly r (timeServo t2 s) := by
  rw [timeServo_spec]
  split
  · exact h.timeStepped t2
  · split
    · exact h.timeSplit t2
    · split
      · exact h.timeFirst t2
      · exact h.timeCorrected t2

theorem TimeOnly.parentExchange (h : TimeOnly r s) (l t2 : Nat) (theta2 : Int) : TimeOnly r (parentExchange l t2 theta2 s) := by
  unfold Machine.parentExchange
  extract_lets src s0 rr s1 s2
  have h0 : TimeOnly r rr.2 := (h.withFab (fab := { s.fab with theta2 := theta2, parent := l }) rfl).roundFree _ _
  have h1 : TimeOnly r s1 := (h0.setReg _ (by simp [timeRow])).setReg _ (by simp [timeRow])
  have h2 : TimeOnly r s2 := (h1.timeBit 1 false).setReg _ (by simp [timeRow])
  exact (h2.timeServo t2).lockStep

theorem TimeOnly.onParent (h : TimeOnly r s) (l t2 : Nat) (theta2 : Int) : TimeOnly r (onParent l t2 theta2 s) := by
  unfold Machine.onParent
  split
  · split
    · exact h.parentExchange _ _ _
    · exact h
  · exact h

/-! ## An exchange that completes -/

theorem fabLkOffset_spare (l : Nat) : Reg.fabLkOffset l ∉ timeRow ∧ (l < 8 → Reg.fabLkOffset l ∉ linkRow l) := by
  simp only [timeRow, linkRow, List.mem_cons, List.not_mem_nil, or_false, Reg.fabLkOffset, Reg.logEvt, Reg.fabEvt, Reg.fabStat,
    Reg.fabTimeStat, Reg.fabTimeOffset, Reg.fabTimeRate, Reg.fabTimeHold, Reg.tteXsum, Reg.sysAddr, Reg.fabLkStat, Reg.fabLkQuar]
  omega

/-- Half of a difference given twice over, and half of the round trip, shown in OFFSET and DELAY. -/
def exchangeShown (l : Nat) (a b : Int) (s : State) : State :=
  let off := roundFree (b - a) 2 s
  let del := roundFree (a + b) 2 off.2
  (del.2.setReg (Reg.fabLkOffset l) (w32i off.1)).setRf (Reg.fabLkDelay l) 15 0 (delayField del.1)

/-- The link after the exchange, which may end DISCOVERY, correct the time and show it. -/
def exchangeTimed (l t2 : Nat) (a b : Int) (s : State) : State :=
  onParent l t2 (a - b) (timeShow (discoveryUp l (s.setLk l { (s.lk l) with exch := (s.lk l).exch + 1, bad := exchBad (a - b) (s.lk l) })))

/-- Eight exchanges in a row beyond 1,000 ns quarantine the link (R273). -/
def exchangeChecked (l bad : Nat) (s : State) : State := if 8 ≤ bad ∧ lkState s l ≠ 4 then quarantine l 5 s else s

theorem timeExchange_complete {t1 t2 t3 t4 stratum : Nat} (h3 : 3 ≤ lkState s l) (h4 : t4 ≠ 0) :
    timeExchange l t1 t2 t3 t4 stratum s =
      fabShow l (timeShow (exchangeChecked l
        (exchBad (tDiff t2 t1 - tDiff t4 t3) ((exchangeShown l (tDiff t2 t1) (tDiff t4 t3) (noteStratum l stratum s)).lk l))
        (exchangeTimed l t2 (tDiff t2 t1) (tDiff t4 t3) (exchangeShown l (tDiff t2 t1) (tDiff t4 t3) (noteStratum l stratum s))))) := by
  unfold timeExchange
  rw [if_neg (by omega), if_neg h4]
  rfl

theorem links_roundFree (n : Int) (d : Nat) (s : State) : (roundFree n d s).2.fab.links = s.fab.links :=
  ((TimeOnly.refl s).roundFree n d).2

theorem lk_exchangeShown (a b : Int) (s : State) (k : Nat) : (exchangeShown l a b s).lk k = s.lk k := by
  refine lk_of_links ?_ k
  have h : (exchangeShown l a b s).fab.links = (roundFree (a + b) 2 (roundFree (b - a) 2 s).2).2.fab.links := rfl
  rw [h, links_roundFree, links_roundFree]

/-- An even difference is halved exactly. -/
theorem offset_exchangeShown {a b : Int} (heven : (b - a) % 2 = 0) (s : State) :
    (exchangeShown l a b s).reg (Reg.fabLkOffset l) = w32i ((b - a) / 2) := by
  have hoff : roundFree (b - a) 2 s = ((b - a) / 2, s) := if_pos heven
  unfold exchangeShown
  rw [hoff, reg_setRf_ne _ _ _ (by unfold Reg.fabLkOffset Reg.fabLkDelay; omega)]
  exact reg_setReg_same _ _ _

theorem lk_exchangeTimed (t2 : Nat) (a b : Int) (s : State) :
    (exchangeTimed l t2 a b s).lk l = { (s.lk l) with exch := (s.lk l).exch + 1, bad := exchBad (a - b) (s.lk l) } := by
  unfold exchangeTimed
  rw [lk_of_links (((TimeOnly.refl _).timeShow.onParent l t2 (a - b)).2), lk_of_fab (fab_discoveryUp _ _), lk_setLk, if_pos rfl]

theorem offset_exchangeTimed (hl : l < 8) (t2 : Nat) (a b : Int) (s : State) :
    (exchangeTimed l t2 a b s).reg (Reg.fabLkOffset l) = s.reg (Reg.fabLkOffset l) := by
  obtain ⟨htime, hlink⟩ := fabLkOffset_spare l
  unfold exchangeTimed
  rw [((TimeOnly.refl _).timeShow.onParent l t2 (a - b)).1 _ htime,
    discoveryUp_regsBut (regsBut_refl _ _) _ (hlink hl), reg_setLk]

/-- A quarantine changes neither the count of exchanges, nor those beyond the limit, nor the stratum. -/
theorem lk_exchangeChecked (bad : Nat) (s : State) :
    ((exchangeChecked l bad s).lk l).exch = (s.lk l).exch ∧ ((exchangeChecked l bad s).lk l).bad = (s.lk l).bad ∧
      ((exchangeChecked l bad s).lk l).nstr = (s.lk l).nstr := by
  unfold exchangeChecked
  split
  · rw [lk_quarantine]
    exact ⟨rfl, rfl, rfl⟩
  · exact ⟨rfl, rfl, rfl⟩

theorem offset_exchangeChecked (hl : l < 8) (bad : Nat) (s : State) :
    (exchangeChecked l bad s).reg (Reg.fabLkOffset l) = s.reg (Reg.fabLkOffset l) := by
  unfold exchangeChecked
  split
  · exact quarantine_regsBut 5 (regsBut_refl _ s) _ ((fabLkOffset_spare l).2 hl)
  · rfl

theorem timeExchange_spec {t1 t2 t3 t4 stratum : Nat} (hl : l < 8) (h3 : 3 ≤ lkState s l) (h4 : t4 ≠ 0) :
    ((timeExchange l t1 t2 t3 t4 stratum s).lk l).exch = (s.lk l).exch + 1 ∧
      ((timeExchange l t1 t2 t3 t4 stratum s).lk l).nstr = stratum ∧
      ((timeExchange l t1 t2 t3 t4 stratum s).lk l).bad =
        (if 2000 < (tDiff t2 t1 - tDiff t4 t3).natAbs then (s.lk l).bad + 1 else 0) ∧
      ((tDiff t4 t3 - tDiff t2 t1) % 2 = 0 →
        (timeExchange l t1 t2 t3 t4 stratum s).reg (Reg.fabLkOffset l) = w32i ((tDiff t4 t3 - tDiff t2 t1) / 2)) := by
  rw [timeExchange_complete h3 h4]
  generalize tDiff t2 t1 = a
  generalize tDiff t4 t3 = b
  generalize hu : exchangeShown l a b (noteStratum l stratum s) = u
  have hlk : u.lk l = { (s.lk l) with nstr := stratum } := by rw [← hu, lk_exchangeShown, lk_noteStratum]
  obtain ⟨hexch, hbad, hnstr⟩ := lk_exchangeChecked (l := l) (exchBad (a - b) (u.lk l)) (exchangeTimed l t2 a b u)
  have hfinal (v : State) : (fabShow l (timeShow v)).lk l = v.lk l := by
    rw [lk_of_fab (fab_fabShow _ _), lk_of_links ((TimeOnly.refl v).timeShow).2]
  rw [hfinal, hexch, hbad, hnstr, lk_exchangeTimed, hlk]
  refine ⟨rfl, rfl, rfl, fun heven => ?_⟩
  rw [fabShow, reg_republish, ((TimeOnly.refl _).timeShow).1 _ (fabLkOffset_spare l).1, offset_exchangeChecked hl,
    offset_exchangeTimed hl, ← hu, offset_exchangeShown heven]

/-! ## Holdover -/

/-- The instant at which holdover began. -/
def heldFrom (s : State) : State := { s with fab := { s.fab with holdAt := s.fabTime } }

/-- HOLDOVER shows its mark and its event, and the rate in force. -/
def holdoverShown (s : State) : State := showRate s.fab.freqN s.fab.freqD (timeBit 1 true (s.orReg Reg.fabEvt 8))

theorem holdover_spec (hroot : isRoot s = false) (hoff : s.rb Reg.fabStat 17 = false) :
    holdover s = (fabRec (heldFrom (holdoverShown s)) 0x705 10 (heldFrom (holdoverShown s)).fab.parent
      [w32 (heldFrom (holdoverShown s)).fab.parent, (heldFrom (holdoverShown s)).reg Reg.fabTimeOffset]).republish fabRegs :=
  if_neg (by rw [hroot, hoff]; decide)

theorem reg_showRate {a : Nat} (ha : a ≠ Reg.fabTimeRate) (n : Int) (d : Nat) (s : State) : (showRate n d s).reg a = s.reg a := by
  unfold showRate
  extract_lets x
  rw [reg_setReg_ne _ ha]
  unfold State.reg
  rw [(roundFree_keeps n d (sub_refl _) (Keeps.refl _ s)).regs rfl]

theorem reg_holdover {a : Nat} (hroot : isRoot s = false) (hoff : s.rb Reg.fabStat 17 = false) (ha : a ≠ Reg.fabTimeRate)
    (hlog : a ≠ Reg.logEvt) : (holdover s).reg a = (timeBit 1 true (s.orReg Reg.fabEvt 8)).reg a := by
  have hheld (u : State) : (heldFrom u).reg a = u.reg a := rfl
  rw [holdover_spec hroot hoff, reg_republish, fabRec, reg_logOnce _ _ _ _ _ _ hlog, hheld, holdoverShown, reg_showRate ha]

theorem fab_republish (s : State) (x : List Nat) : (s.republish x).fab = s.fab :=
  (republish_keeps x (sub_refl _) (Keeps.refl _ s)).fab rfl

theorem fab_holdoverShown (s : State) : (holdoverShown s).fab = s.fab ∧ (holdoverShown s).fabTime = s.fabTime := by
  have hk := showRate_keeps s.fab.freqN s.fab.freqD (sub_refl _) (Keeps.refl _ (timeBit 1 true (s.orReg Reg.fabEvt 8)))
  exact ⟨hk.fab rfl, hk.fabTime rfl⟩

theorem holdover_entered (hroot : isRoot s = false) (hoff : s.rb Reg.fabStat 17 = false) :
    (holdover s).rb Reg.fabStat 17 = true ∧ (holdover s).rb Reg.fabTimeStat 1 = true ∧ (holdover s).rb Reg.fabEvt 3 = true ∧
      (holdover s).fab = { s.fab with holdAt := s.fabTime } := by
  refine ⟨?_, ?_, ?_, ?_⟩
  · rw [rb_of_reg (reg_holdover hroot hoff (by decide) (by decide)), timeBit, rb_of_reg (reg_setRb_ne _ _ (by decide))]
    exact rb_setRb_same _ _ _ _ (by decide)
  · rw [rb_of_reg (reg_holdover hroot hoff (by decide) (by decide)), timeBit]
    exact rb_setRb_same _ _ _ _ (by decide)
  · rw [rb_of_reg (reg_holdover hroot hoff (by decide) (by decide)), timeBit, rb_of_reg (reg_setRb_ne _ _ (by decide)),
      rb_of_reg (reg_setRb_ne _ _ (by decide))]
    exact rb_orReg_same _ _ _ _ (by decide)
  · obtain ⟨hfab, htime⟩ := fab_holdoverShown s
    rw [holdover_spec hroot hoff, fab_republish, fab_fabRec, heldFrom, hfab, htime]

theorem exec_cellReceive {l : Fin 8} {slot : Fin 128} {ts : BitVec 64} {ws : List Word} (hwf : (Instr.cellReceive l slot ts ws).wf = true)
    (hprog : s.boot.prog = false) :
    exec (.cellReceive l slot ts ws) s = .next (cellReceive l.val slot.val ts.toNat ws s) :=
  (if_pos hwf).trans (unlessHeld hprog)

/-- Settles O42, a clause for each form of the commands. -/
theorem cellsAndSlots : Obligations.CellsAndSlots := by
  unfold Obligations.CellsAndSlots
  refine ⟨?right, ?wrongCrc, ?refused, ?sent, ?missed, ?time, ?identity, ?early, ?exchange, ?hold⟩
  case right =>
    intro l slot ts ws s hwf h3 hcrc hform hpass hrel hprog
    obtain ⟨hcount, hstate⟩ := counted_cellReceive (slot := slot.val) (ts := ts.toNat) l.isLt h3 hcrc hform hpass hrel
    exact ⟨_, exec_cellReceive hwf hprog,
      (cellReceive_keeps l.val slot.val ts.toNat ws (sub_refl _) (Keeps.refl _ s)).frame rfl, hcount, hstate,
      timed_cellReceive h3 hcrc hform hpass hrel⟩
  case wrongCrc =>
    intro l slot ts ws s hwf h3 hcrc hprog
    have heq := cellReceive_wrongCrc (slot := slot.val) (ts := ts.toNat) h3 hcrc
    refine ⟨_, exec_cellReceive hwf hprog,
      (cellReceive_keeps l.val slot.val ts.toNat ws (sub_refl _) (Keeps.refl _ s)).frame rfl, ?_, ?_, ?_, ?_⟩
    · unfold State.rf
      rw [heq, fabShow, reg_republish, reg_satRf, if_pos rfl]
      exact fld_satFld _ 15 0 1 (by decide) (by decide)
    · rw [heq]
      exact (fabShow_keeps l.val (sub_refl _) (Keeps.refl _ _)).quem rfl
    · rw [heq, fab_fabShow]
      rfl
    · rw [heq]
      intro a ha
      rw [fabShow, reg_republish, reg_satRf_ne _ _ _ (by simpa using ha)]
  case refused =>
    intro l slot ts ws s hwf h3 hcrc hform hpass hrel htag hprog
    exact ⟨_, exec_cellReceive hwf hprog,
      (cellReceive_keeps l.val slot.val ts.toNat ws (sub_refl _) (Keeps.refl _ s)).frame rfl,
      stations_cellReceive_refused h3 hcrc hform hpass hrel htag, (counted_cellReceive l.isLt h3 hcrc hform hpass hrel).1⟩
  case sent =>
    intro l slot s hrel hup hcls hready hprog
    exact ⟨_, unlessHeld hprog, (slotStart_keeps l.val slot.val (sub_refl _) (Keeps.refl _ s)).frame rfl,
      sent_slot l.isLt hrel hup hcls hready⟩
  case missed =>
    intro l slot s hrel hup hcls hlevel hready hprog
    exact ⟨_, unlessHeld hprog, (slotStart_keeps l.val slot.val (sub_refl _) (Keeps.refl _ s)).frame rfl,
      missed_slot l.isLt hrel hup hcls hlevel hready⟩
  case time =>
    intro l slot s hrel hup hcls hdue hprog
    refine ⟨_, unlessHeld hprog, (slotStart_keeps l.val slot.val (sub_refl _) (Keeps.refl _ s)).frame rfl, ?_⟩
    rw [time_slot hrel hup hcls hdue]
    exact timeSend_shown l.isLt _ s
  case identity =>
    intro l s h3 hprog
    refine ⟨_, unlessHeld hprog, (identityPositionSend_keeps l.val (sub_refl _) (Keeps.refl _ s)).frame rfl, ?_, ?_⟩
    · rw [seq_identityPositionSend h3, sget_sset_other _ _ _ _ (by decide), sget_sset_same]
    · rw [seq_identityPositionSend h3, sget_sset_same, sget_sset_other _ _ _ _ (by decide)]
  case early =>
    intro l s hrel h3 hprog
    refine ⟨_, unlessHeld hprog, (timeCellBeforeRelease_keeps l.val (sub_refl _) (Keeps.refl _ s)).frame rfl, ?_⟩
    rw [timeCell_unreleased hrel h3]
    obtain ⟨htx, htime, hrx, hcount⟩ := timeSend_shown l.isLt s.fabTime s
    exact ⟨htime, hrx, hcount, htx⟩
  case exchange =>
    intro l t1 t2 t3 t4 stratum s h3 h4 hprog
    exact ⟨_, unlessHeld hprog, (timeExchange_keeps l.val _ _ _ _ _ (sub_refl _) (Keeps.refl _ s)).frame rfl,
      timeExchange_spec l.isLt h3 h4⟩
  case hold =>
    intro s hroot hoff hprog
    exact ⟨_, unlessHeld hprog, (holdover_keeps (sub_refl _) (Keeps.refl _ s)).frame rfl, holdover_entered hroot hoff⟩

end Sys2Proof.Machine
end

section
/-! PROOFS. Remote register access in siding mode (R285, R406): O43. -/

namespace Sys2Proof.Machine

/-- A module in siding mode, at whose link 0 a whole RRA_READ request of one item waits. -/
def sidingRequest : State :=
  { State.reset with
    regs := [(Reg.queQCfg 0, 0x00100000#32), (Reg.queQEnds 0, 0x81060000#32), (Reg.queQLevel 0, 16#32)],
    quem := (List.range 16).foldl (fun m k => memPutW m (4 * k) (if k = 1 then 0x00300000#32 else if k = 3 then 1#32 else 0#32)) []
    boot := { State.reset.boot with siding := true } }

/-- A reply counts the request. -/
theorem rraStat_rraReply (l kind n refused : Nat) (vals req : List Word) (s : State) :
    (rraReply l kind n refused vals req s).rf Reg.fabRraStat 15 0 = (s.rf Reg.fabRraStat 15 0 + 1) % 65536 := by
  unfold rraReply
  extract_lets payload c f stat s1
  have h1 : s1.rf Reg.fabRraStat 15 0 = (s.rf Reg.fabRraStat 15 0 + 1) % 65536 := rf_setRf_same _ _ _ _ _ (by decide) (by decide)
  have hsat : (s1.satRf Reg.fabRraStat 31 16 (popcount 32 refused)).rf Reg.fabRraStat 15 0 = s1.rf Reg.fabRraStat 15 0 := by
    unfold State.rf
    rw [reg_satRf, if_pos rfl]
    exact fld_setFld_disjoint _ _ _ _ _ _ (by decide) (by decide) (by decide) (by decide) (by decide)
  rw [fabShow, rf_of_reg (reg_republish _ _),
    rf_of_reg (reg_rxPush (aloof_fab (by decide)) (by unfold Reg.fabRraStat Reg.fabLkDrop; omega) (by decide) _ _), hsat, h1]

theorem queued_sidingRequest : 16 ≤ txLevel sidingRequest 0 6 := by decide +kernel

theorem type_sidingRequest : cType (txHead sidingRequest 0 6) = 0x30 := by decide +kernel

theorem payload_sidingRequest : bytesWords (cPayload (txPop 0 6 sidingRequest).1) = 1#32 :: 0#32 :: List.replicate 10 0#32 := by
  decide +kernel

theorem unread_sidingRequest : (fabricRead 0 (txPop 0 6 sidingRequest).2).2.rf Reg.fabRraStat 15 0 = 0 := by decide +kernel

theorem uncounted_sidingRequest : sidingRequest.rf Reg.fabRraStat 15 0 = 0 := by decide +kernel

theorem held_sidingRequest : sidingRequest.boot.prog = false := by decide +kernel

theorem siding_sidingRequest : sidingRequest.boot.siding = true := by decide +kernel

/-- In siding mode no request is served (R406). -/
theorem exec_rraRead_siding {s : State} {l : Fin 8} (hprog : s.boot.prog = false) (hsiding : s.boot.siding = true) :
    exec (.rraRead l) s = .next s := (unlessHeld hprog).trans (congrArg _ (if_pos (Or.inl hsiding)))

/-- Refutes O43: in siding mode a request is not served and the state stays, where the statement has it answered. -/
theorem not_routesAndReports : ¬ Obligations.RoutesAndReports := by
  unfold Obligations.RoutesAndReports
  intro h
  obtain ⟨-, -, -, -, -, -, -, -, -, -, -, -, -, -, hread, -⟩ := h
  obtain ⟨t, hexec, -, hreply⟩ := hread 0 (txPop 0 6 sidingRequest).1 (List.replicate 10 0#32) 1#32 0#32
    (txPop 0 6 sidingRequest).2 sidingRequest queued_sidingRequest type_sidingRequest (Prod.eta _).symm payload_sidingRequest (by decide)
    (by decide) held_sidingRequest
  have ht : sidingRequest = t :=
    Host.Outcome.next.inj ((exec_rraRead_siding (l := 0) held_sidingRequest siding_sidingRequest).symm.trans hexec)
  have hcount := congrArg (fun u => u.rf Reg.fabRraStat 15 0) (ht.trans hreply)
  simp only [rraStat_rraReply, uncounted_sidingRequest] at hcount
  exact absurd (hcount.trans (congrArg (fun v => (v + 1) % 65536) unread_sidingRequest)) (by decide)

end Sys2Proof.Machine
end

section
/-! PROOFS. The relay of parcels (R287 to R289): O44. -/

namespace Sys2Proof.Machine

variable {s : State} {x : Xfer}

/-! ## A cell of a chunk -/

/-- The transfer after a cell of a chunk: the cell joins it. -/
def joined (x : Xfer) (s : State) (chunk index : Nat) (data : List Byte) : Xfer :=
  { x with got := sset [] x.got chunk (sget [] x.got chunk ++ [index]),
           buf := memPut x.buf (chunk * 65536 + 40 * index) (data.take (min 40 (unitLen s x chunk - 40 * index))) }

/-- A cell that is missing joins its chunk; it is neither the last cell of the chunk nor the one that makes it whole. -/
theorem parcelData_joins {chunk index : Nat} {data : List Byte} (hhdr : x.hdr = true) (hchunk : chunk < x.total) (htotal : x.total ≤ 128)
    (hstored : chunk ∉ x.stored) (hlast : index + 1 < unitCells s x chunk) (hgot : index ∉ sget [] x.got chunk)
    (hwhole : (sget [] x.got chunk).length + 1 < unitCells s x chunk) :
    parcelData x chunk index data s = setXfer (joined x s chunk index data) s := by
  have hne : chunk ≠ 0xFFFF := by omega
  have hlen : (sget [] (joined x s chunk index data).got chunk).length = (sget [] x.got chunk).length + 1 := by
    unfold joined
    rw [sget_sset_same, List.length_append, List.length_singleton]
  unfold parcelData
  extract_lets valid cells got n y
  have hvalid : valid = true := by simp [valid, hne, hhdr, hchunk, hstored]
  have hrefuse : ¬ ((!valid || decide (cells ≤ index) || got.contains index) = true) := by
    simp [hvalid, cells, got, hgot]
    omega
  rw [if_neg hrefuse, if_neg, if_neg]
  · rfl
  · exact Nat.ne_of_lt hlast
  · exact fun h => Nat.ne_of_lt hwhole (hlen.symm.trans h)

/-- A cell of the active transfer that counts (R288). -/
theorem parcel_joins {src : Option Nat} {ws : List Word} (htype : cType ws = 0x40)
    (hfrom : fromUp s src (fieldAt (cPayload ws) 0 4) (fieldAt (cPayload ws) 4 2) = true) (hx : s.sec.xfer = some x)
    (hid : fieldAt (cPayload ws) 0 4 = x.id) (hhdr : x.hdr = true) (hchunk : fieldAt (cPayload ws) 4 2 < x.total) (htotal : x.total ≤ 128)
    (hstored : fieldAt (cPayload ws) 4 2 ∉ x.stored) (hlast : fieldAt (cPayload ws) 6 2 + 1 < unitCells s x (fieldAt (cPayload ws) 4 2))
    (hgot : fieldAt (cPayload ws) 6 2 ∉ sget [] x.got (fieldAt (cPayload ws) 4 2))
    (hwhole : (sget [] x.got (fieldAt (cPayload ws) 4 2)).length + 1 < unitCells s x (fieldAt (cPayload ws) 4 2)) :
    parcel src ws s = secShow ((setXfer (joined x s (fieldAt (cPayload ws) 4 2) (fieldAt (cPayload ws) 6 2) ((cPayload ws).drop 8)) s).republish fabRegs) := by
  have hne : fieldAt (cPayload ws) 4 2 ≠ 0xFFFF := by omega
  unfold parcel
  rw [if_neg (by simp [htype, hfrom]), hx]
  simp only
  rw [if_pos hid, if_neg (fun h => hne h.1), parcelData_joins hhdr hchunk htotal hstored hlast hgot hwhole]

/-- What the registers that show a transfer leave. -/
theorem shown_parts (s : State) (l : List Nat) :
    (secShow (s.republish l)).sec = s.sec ∧ (secShow (s.republish l)).store = s.store ∧ (secShow (s.republish l)).fab = s.fab := by
  have h := secShow_keeps (sub_refl _) (republish_keeps (m := 1034) l (sub_of (sub_refl _) rfl) (Keeps.refl _ s))
  exact ⟨h.sec rfl, h.store rfl, h.fab rfl⟩

theorem parcel_elsewhere {src : Option Nat} {ws : List Word}
    (hfrom : fromUp s src (fieldAt (cPayload ws) 0 4) (fieldAt (cPayload ws) 4 2) = false) : parcel src ws s = s :=
  if_pos (Or.inr (by rw [hfrom]; rfl))

theorem exec_parcel {src : Option (Fin 8)} {ws : List Word} (hwf : (Instr.parcel src ws).wf = true) (hprog : s.boot.prog = false) :
    exec (.parcel src ws) s = .next (parcel (src.map Fin.val) ws s) := (if_pos hwf).trans (unlessHeld hprog)

/-- The clause of a cell that joins its chunk, whichever source it comes from. -/
theorem parcel_clause {src : Option Nat} {ws : List Word} (htype : cType ws = 0x40)
    (hfrom : fromUp s src (fieldAt (cPayload ws) 0 4) (fieldAt (cPayload ws) 4 2) = true) (hx : s.sec.xfer = some x)
    (hid : fieldAt (cPayload ws) 0 4 = x.id) (hhdr : x.hdr = true) (hchunk : fieldAt (cPayload ws) 4 2 < x.total) (htotal : x.total ≤ 128)
    (hstored : fieldAt (cPayload ws) 4 2 ∉ x.stored) (hlast : fieldAt (cPayload ws) 6 2 + 1 < unitCells s x (fieldAt (cPayload ws) 4 2))
    (hgot : fieldAt (cPayload ws) 6 2 ∉ sget [] x.got (fieldAt (cPayload ws) 4 2))
    (hwhole : (sget [] x.got (fieldAt (cPayload ws) 4 2)).length + 1 < unitCells s x (fieldAt (cPayload ws) 4 2)) :
    (parcel src ws s).sec = { s.sec with xfer := some (joined x s (fieldAt (cPayload ws) 4 2) (fieldAt (cPayload ws) 6 2) ((cPayload ws).drop 8)) } ∧
      (parcel src ws s).store = s.store ∧ (parcel src ws s).fab = s.fab := by
  rw [parcel_joins htype hfrom hx hid hhdr hchunk htotal hstored hlast hgot hwhole]
  exact shown_parts _ fabRegs

/-! ## Cells due downstream -/

theorem leBytes_cells (dest cls prio tenant type flags q : Nat) (own : Nat) (payload : List Byte) (h : payload.length ≤ 48) :
    (leBytes 2 dest ++ leBytes 2 own ++ leBytes 1 (cls + 4 * prio) ++ leBytes 1 tenant ++ leBytes 1 type ++ leBytes 1 32 ++ leBytes 2 q ++
      leBytes 2 flags ++ padTo 48 payload).length = 60 := by
  simp only [List.length_append, length_leBytes, padTo, List.length_take, List.length_replicate]
  omega

theorem length_bytesWords (n : Nat) : ∀ l : List Byte, l.length = 4 * n → (bytesWords l).length = n := by
  induction n with
  | zero =>
    intro l hl
    rw [List.length_eq_zero_iff.mp hl]
    rfl
  | succ n ih =>
    intro l hl
    match l, hl with
    | a :: b :: c :: d :: r, hl =>
      rw [bytesWords, List.length_cons, ih r (by simp only [List.length_cons] at hl; omega)]

/-- A cell has 16 words. -/
theorem length_mkCell (dest cls prio tenant type flags : Nat) {payload : List Byte} (h : payload.length ≤ 48) (s : State) :
    (mkCell dest cls prio tenant type flags payload s).1.length = 16 := by
  unfold mkCell
  extract_lets key q head
  have h60 : (head ++ padTo 48 payload).length = 4 * 15 := leBytes_cells dest cls prio tenant type flags q (ownAddr s) payload h
  simp only [List.length_append, length_bytesWords 15 _ h60, List.length_singleton]

theorem length_parcelCell (x : Xfer) (chunk index : Nat) (s : State) : (parcelCell x chunk index s).1.length = 16 := by
  refine length_mkCell _ _ _ _ _ _ ?_ s
  simp only [List.length_append, length_leBytes, padTo, List.length_take, List.length_replicate]
  omega

/-- A whole cell pushed into a transmit queue that has room for it. -/
theorem qLevel_txPush {l u q : Nat} {ws : List Word} (hws : ws.length = 16) (hq : qOfCons s (epIsland (1 + l) u) = some q)
    (hroom : qLevel s q + 16 ≤ qSize s q) (hmax : qSize s q < 2 ^ 15) : qLevel (txPush l u ws s) q = qLevel s q + 16 := by
  have heq : txPush l u ws s = qPushAll s (qProd s q) q ws := by
    unfold txPush
    rw [hq]
    exact if_pos hroom
  rw [heq, (wordsPushed_qPushAll ws (by omega) rfl (by omega) (by omega)).level, hws]

theorem sameShape_qPushAll {q : Nat} (ws : List Word) : ∀ {s : State}, qSize s q ≠ 0 → qLevel s q + ws.length ≤ qSize s q →
    qLevel s q + ws.length < 2 ^ 15 → sameShape s (qPushAll s (qProd s q) q ws) := by
  induction ws with
  | nil => exact fun _ _ _ _ => ⟨rfl, rfl⟩
  | cons w ws ih =>
    intro s hsize hroom hmax q'
    simp only [List.length_cons] at hroom hmax
    have hstep := wordPushed_qPushIn w hsize (by omega) (by omega)
    have hprod := hstep.shape.qProd q
    have hsz := hstep.shape.qSize q
    rw [qPushAll, qPush_room w hsize rfl, ← hprod]
    obtain ⟨h1, h2⟩ := ih (s := qPushIn s q w) (by rwa [hsz]) (by rw [hsz, hstep.level]; omega) (by rw [hstep.level]; omega) q'
    rw [h1, h2]
    exact hstep.shape q'

theorem sameShape.qOfCons {t : State} (h : sameShape s t) (ep : Nat) : qOfCons t ep = qOfCons s ep := by
  have hcons (q : Nat) : qCons t q = qCons s q := by
    unfold qCons State.rf
    rw [(h q).2]
  unfold Machine.qOfCons
  simp only [h.qSize, hcons]

theorem sameShape.trans {t u : State} (h : sameShape s t) (h' : sameShape t u) : sameShape s u :=
  fun q => ⟨(h' q).1.trans (h q).1, (h' q).2.trans (h q).2⟩

/-- The queue that a link sends parcels from, with room for a cell. -/
structure CellRoom (l q : Nat) (s : State) : Prop where
  queue : qOfCons s (epIsland (1 + l) 5) = some q
  room : qLevel s q + 16 ≤ qSize s q
  max : qSize s q < 2 ^ 15

theorem sameShape_txPush {l q : Nat} {ws : List Word} (hws : ws.length = 16) (h : CellRoom l q s) : sameShape s (txPush l 5 ws s) := by
  obtain ⟨hq, hroom, hmax⟩ := h
  have heq : txPush l 5 ws s = qPushAll s (qProd s q) q ws := by
    unfold txPush
    rw [hq]
    exact if_pos hroom
  rw [heq]
  exact sameShape_qPushAll ws (by omega) (by omega) (by omega)

/-! ### A cell that is due is pushed -/

/-- The state after the next cell due on a link is pushed. -/
def cellPushed (l : Nat) (x : Xfer) (chunk i k : Nat) (rest : List (Nat × Nat × Nat)) (s : State) : State :=
  let s1 := txPush l 5 (parcelCell x chunk i s).1 (parcelCell x chunk i s).2
  { s1 with fab := { s1.fab with parcels := sset [] s1.fab.parcels l ((chunk, i + 1, k - 1) :: rest) } }

/-- Two states with the same registers have the same queues. -/
theorem queue_of_regs {t : State} (h : t.regs = s.regs) (q : Nat) : qLevel t q = qLevel s q ∧ sameShape s t := by
  refine ⟨?_, sameShape_of_regs_eq h⟩
  unfold qLevel State.rf State.reg
  rw [h]

theorem CellRoom.of_regs {l q : Nat} {t : State} (h : CellRoom l q s) (e : t.regs = s.regs) : CellRoom l q t := by
  obtain ⟨hlev, hshape⟩ := queue_of_regs e q
  refine ⟨(hshape.qOfCons _).trans h.queue, ?_, ?_⟩
  · rw [hlev, hshape.qSize]
    exact h.room
  · rw [hshape.qSize]
    exact h.max

theorem cellPushed_queue {l q : Nat} (chunk i k : Nat) (rest : List (Nat × Nat × Nat)) (h : CellRoom l q s) :
    qLevel (cellPushed l x chunk i k rest s) q = qLevel s q + 16 ∧ sameShape s (cellPushed l x chunk i k rest s) := by
  have hcell : (parcelCell x chunk i s).2.regs = s.regs := rfl
  have hroom := h.of_regs hcell
  have hlen := length_parcelCell x chunk i s
  have hlevel := qLevel_txPush hlen hroom.queue hroom.room hroom.max
  have hshape := (queue_of_regs hcell q).2.trans (sameShape_txPush hlen hroom)
  rw [(queue_of_regs hcell q).1] at hlevel
  unfold cellPushed
  generalize txPush l 5 (parcelCell x chunk i s).1 (parcelCell x chunk i s).2 = s1 at hlevel hshape
  exact ⟨hlevel, hshape⟩

/-- Pushing what is due takes no word away, so that a queue only fills. -/
theorem qLevel_pushDue {l q : Nat} (n : Nat) : ∀ {s : State}, qOfCons s (epIsland (1 + l) 5) = some q → qSize s q < 2 ^ 15 →
    qLevel s q ≤ qLevel (pushDue l n s) q := by
  induction n with
  | zero => exact fun _ _ => Nat.le_refl _
  | succ n ih =>
    intro s hq hmax
    unfold pushDue
    split
    next x chunk i k rest hx hdue =>
      split
      next => exact ih (s := { s with fab := { s.fab with parcels := sset [] s.fab.parcels l rest } }) hq hmax
      next =>
        rw [hq]
        dsimp only
        split
        next hroom =>
          obtain ⟨hlevel, hshape⟩ := cellPushed_queue (x := x) chunk i k rest ⟨hq, hroom, hmax⟩
          refine Nat.le_trans ?_ (ih (s := cellPushed l x chunk i k rest s) ((hshape.qOfCons _).trans hq) (by rwa [hshape.qSize]))
          omega
        next => exact Nat.le_refl _
    next => exact Nat.le_refl _
    next => exact Nat.le_refl _

/-- The first cell that is due goes out. -/
theorem qLevel_pushDue_first {l q chunk i k : Nat} {rest : List (Nat × Nat × Nat)} (n : Nat) (hx : s.sec.xfer = some x)
    (hdue : sget [] s.fab.parcels l = (chunk, i, k) :: rest) (hk : 0 < k) (h : CellRoom l q s) :
    qLevel s q + 16 ≤ qLevel (pushDue l (n + 1) s) q := by
  obtain ⟨hlevel, hshape⟩ := cellPushed_queue (x := x) chunk i k rest h
  have heq : pushDue l (n + 1) s = pushDue l n (cellPushed l x chunk i k rest s) := by
    rw [pushDue, hx, hdue]
    dsimp only
    rw [if_neg (by omega), h.queue]
    dsimp only
    rw [if_pos h.room]
    rfl
  rw [heq, ← hlevel]
  exact qLevel_pushDue n ((hshape.qOfCons _).trans h.queue) (by rw [hshape.qSize]; exact h.max)

/-! ### The next unit of a transfer -/

/-- The transfer after unit `chunk` is due on link `l`. -/
def unitTaken (x : Xfer) (l chunk : Nat) : Xfer :=
  { x with sent := sset 0 x.sent l (sget 0 x.sent l + 1), unacked := sset [] x.unacked l (sget [] x.unacked l ++ [chunk]) }

/-- The next unit for link `l` is a stored chunk that may go out: no two are unacknowledged (R288). -/
structure UnitReady (l : Nat) (x : Xfer) (s : State) : Prop where
  hdr : x.hdr = true
  begun : 0 < sget 0 x.sent l
  within : sget 0 x.sent l ≤ x.total
  stored : sget 0 x.sent l - 1 ∈ x.stored
  window : (sget [] x.unacked l).length < 2
  up : lkUp s l = true

theorem forwardLink_ready {l : Nat} (hx : s.sec.xfer = some x) (h : UnitReady l x s) :
    forwardLink s l = queueRun l (sget 0 x.sent l - 1) 0 (unitCells s x (sget 0 x.sent l - 1))
      (setXfer (unitTaken x l (sget 0 x.sent l - 1)) s) := by
  obtain ⟨hhdr, hbegun, hwithin, hstored, hwindow, hup⟩ := h
  have hn : sget 0 x.sent l ≠ 0 := by omega
  unfold forwardLink
  rw [hx]
  dsimp only
  rw [if_neg hn, if_neg hn, if_pos (by simp [hhdr, hwithin, hstored, hwindow, hup])]
  rfl

/-- Unit `chunk`, of `cells` cells, is the first that is due on link `l`, and the transfer holds it as unacknowledged. -/
structure UnitDue (l n chunk cells : Nat) (byHost : Bool) (t : State) : Prop where
  xfer : ∃ y, t.sec.xfer = some y ∧ n + 1 ≤ sget 0 y.sent l ∧ chunk ∈ sget [] y.unacked l ∧ y.byHost = byHost
  due : ∃ rest, sget [] t.fab.parcels l = (chunk, 0, cells) :: rest

theorem unitDue_forwardLink_ready {l : Nat} (hx : s.sec.xfer = some x) (hnone : sget [] s.fab.parcels l = []) (h : UnitReady l x s) :
    UnitDue l (sget 0 x.sent l) (sget 0 x.sent l - 1) (unitCells s x (sget 0 x.sent l - 1)) x.byHost (forwardLink s l) := by
  rw [forwardLink_ready hx h]
  refine ⟨⟨unitTaken x l (sget 0 x.sent l - 1), rfl, ?_, ?_, rfl⟩, [], ?_⟩
  · unfold unitTaken
    rw [sget_sset_same]
  · unfold unitTaken
    rw [sget_sset_same]
    simp
  · unfold queueRun
    rw [sget_sset_same]
    exact congrArg (· ++ _) hnone

theorem forwardLink_cases {l : Nat} (hx : s.sec.xfer = some x) :
    forwardLink s l = s ∨ ∃ chunk, forwardLink s l = queueRun l chunk 0 (unitCells s x chunk) (setXfer (unitTaken x l chunk) s) := by
  unfold forwardLink
  rw [hx]
  dsimp only
  generalize (if sget 0 x.sent l = 0 then 0xFFFF else sget 0 x.sent l - 1) = chunk
  generalize (if sget 0 x.sent l = 0 then x.hdr else decide (sget 0 x.sent l ≤ x.total) && x.stored.contains (sget 0 x.sent l - 1)) = ready
  split
  · exact Or.inr ⟨chunk, rfl⟩
  · exact Or.inl rfl

theorem UnitDue.forwardLink {l n chunk cells : Nat} {byHost : Bool} (h : UnitDue l n chunk cells byHost s) :
    UnitDue l n chunk cells byHost (forwardLink s l) := by
  obtain ⟨⟨y, hy, hsent, hun, hhost⟩, rest, hdue⟩ := h
  obtain heq | ⟨next, heq⟩ := forwardLink_cases (l := l) hy
  · rw [heq]
    exact ⟨⟨y, hy, hsent, hun, hhost⟩, rest, hdue⟩
  · rw [heq]
    refine ⟨⟨unitTaken y l next, rfl, ?_, ?_, hhost⟩, rest ++ [(next, 0, unitCells s y next)], ?_⟩
    · unfold unitTaken
      rw [sget_sset_same]
      omega
    · unfold unitTaken
      rw [sget_sset_same]
      exact List.mem_append_left _ hun
    · unfold queueRun
      rw [sget_sset_same]
      exact congrArg (· ++ _) hdue

theorem regs_forwardLink (s : State) (l : Nat) : (forwardLink s l).regs = s.regs :=
  (forwardLink_keeps l (sub_refl _) (Keeps.refl _ s)).regs rfl

theorem sec_pushDue (l n : Nat) (s : State) : (pushDue l n s).sec = s.sec :=
  (pushDue_keeps l n (sub_refl _) (Keeps.refl _ s)).sec rfl

theorem reg_pushDue_aloof {a : Nat} (ha : Aloof a) (l n : Nat) (s : State) : (pushDue l n s).reg a = s.reg a := by
  induction n generalizing s with
  | zero => rfl
  | succ n ih =>
    unfold pushDue
    split
    · split
      · exact ih _
      · split
        · split
          · exact (ih _).trans (reg_txPush_aloof ha _ _ _ _)
          · rfl
        · rfl
    · rfl
    · rfl

/-- FAB_PARCEL_CFG is such a register. -/
theorem aloof_fabParcelCfg : Aloof Reg.fabParcelCfg := aloof_fab (by decide)

theorem downLinks_congr {t : State} {y : Xfer} (hreg : t.reg Reg.fabParcelCfg = s.reg Reg.fabParcelCfg) (hhost : y.byHost = x.byHost) :
    downLinks t y = downLinks s x := by
  unfold downLinks
  rw [hhost, rb_of_reg hreg, rf_of_reg hreg]

/-- The end of a run of the relay: a transfer that is complete everywhere ends. -/
def relayEnd (s : State) : State :=
  match s.sec.xfer with
  | some y => if y.hdr && decide (y.stored.length = y.total) && !y.byHost && relayDone s y then xferEnd 0 s else s
  | none => s

theorem parcelPump_spec (hx : s.sec.xfer = some x) :
    parcelPump s = relayEnd ((downLinks s x).foldl (fun t l => pushDue l 4096 (forwardLink (forwardLink t l) l)) s) := by
  unfold parcelPump
  rw [hx]
  rfl

/-- A unit that is not acknowledged keeps the transfer going. -/
theorem relayEnd_unacked {y : Xfer} {l chunk : Nat} (hy : s.sec.xfer = some y) (hl : l ∈ downLinks s y) (hun : chunk ∈ sget [] y.unacked l) :
    relayEnd s = s := by
  have hbusy : relayDone s y = false := by
    unfold relayDone
    rw [List.all_eq_false]
    refine ⟨l, hl, ?_⟩
    have hne : (sget [] y.unacked l).isEmpty = false := by
      rw [List.isEmpty_eq_false_iff]
      exact List.ne_nil_of_mem hun
    rw [hne, Bool.and_false]
    decide
  unfold relayEnd
  rw [hy]
  dsimp only
  rw [hbusy, Bool.and_false]
  exact if_neg (by decide)

/-- A run of the relay sends the next unit to the one downstream link: the unit is unacknowledged and its first cell is pushed. -/
theorem parcelPump_sends {l q : Nat} (hx : s.sec.xfer = some x) (hdown : downLinks s x = [l]) (h : UnitReady l x s)
    (hnone : s.fab.parcels = []) (hcells : 0 < unitCells s x (sget 0 x.sent l - 1)) (hroom : CellRoom l q s) :
    qLevel s q + 16 ≤ qLevel (parcelPump s) q ∧ ∃ y, (parcelPump s).sec.xfer = some y ∧ sget 0 x.sent l + 1 ≤ sget 0 y.sent l ∧
      sget 0 x.sent l - 1 ∈ sget [] y.unacked l := by
  have hdue := (unitDue_forwardLink_ready hx (by rw [hnone]; rfl) h).forwardLink
  have hregs : (forwardLink (forwardLink s l) l).regs = s.regs := (regs_forwardLink _ l).trans (regs_forwardLink s l)
  rw [parcelPump_spec hx, hdown, List.foldl_cons, List.foldl_nil]
  generalize forwardLink (forwardLink s l) l = u at hdue hregs
  obtain ⟨⟨y, hy, hsent, hun, hhost⟩, rest, hparcels⟩ := hdue
  have hlevel := qLevel_pushDue_first 4095 hy hparcels hcells (hroom.of_regs hregs)
  have hsec : (pushDue l 4096 u).sec.xfer = some y := by rw [sec_pushDue, hy]
  have hcfg : (pushDue l 4096 u).reg Reg.fabParcelCfg = s.reg Reg.fabParcelCfg := by
    rw [reg_pushDue_aloof aloof_fabParcelCfg]
    unfold State.reg
    rw [hregs]
  have hmem : l ∈ downLinks (pushDue l 4096 u) y := by
    rw [downLinks_congr hcfg hhost, hdown]
    exact List.mem_singleton_self l
  rw [relayEnd_unacked hsec hmem hun]
  refine ⟨?_, y, hsec, hsent, hun⟩
  rw [← (queue_of_regs hregs q).1]
  exact hlevel

/-! ## A chunk stored, an acknowledgement and a refusal -/

theorem reg_secShow_of_lt {a : Nat} (ha : a < 0xD0000 ∨ 0xE0000 ≤ a) (s : State) : (secShow s).reg a = s.reg a :=
  reg_secShow s (by omega)

theorem reg_shown {a : Nat} (ha : a < 0xD0000 ∨ 0xE0000 ≤ a) (s : State) (l : List Nat) : (secShow (s.republish l)).reg a = s.reg a := by
  rw [reg_secShow_of_lt ha, reg_republish]

theorem qLevel_shown (s : State) (l : List Nat) (q : Nat) : qLevel (secShow (s.republish l)) q = qLevel s q :=
  qLevel_congr (reg_shown (Or.inr (by unfold Reg.queQLevel; omega)) s l)

theorem sec_answerUp (link : Option Nat) (type id chunk status first count : Nat) (s : State) :
    (answerUp link type id chunk status first count s).sec = s.sec :=
  (answerUp_keeps link type id chunk status first count (sub_refl _) (Keeps.refl _ s)).sec rfl

theorem store_answerUp (link : Option Nat) (type id chunk status first count : Nat) (s : State) :
    (answerUp link type id chunk status first count s).store = s.store :=
  (answerUp_keeps link type id chunk status first count (sub_refl _) (Keeps.refl _ s)).store rfl

theorem reg_answerUp_aloof {a : Nat} (ha : Aloof a) (link : Option Nat) (type id chunk status first count : Nat) (s : State) :
    (answerUp link type id chunk status first count s).reg a = s.reg a := by
  unfold answerUp
  split
  · rfl
  · exact reg_txPush_aloof ha _ _ _ _

/-- The transfer after a chunk is stored. -/
def chunkTaken (x : Xfer) (chunk : Nat) : Xfer :=
  { x with buf := sclear x.buf (chunk * 65536) (chunk * 65536 + 65536), stored := x.stored ++ [chunk] }

/-- The state after a chunk is stored: its bytes in the store, the transfer, the count of stored chunks. -/
def chunkWritten (x : Xfer) (chunk : Nat) (s : State) : State :=
  { s.setRf Reg.fabParcelStat 15 0 (x.stored.length + 1) with
    store := memPut s.store (slotBase x.slot + 0x2000 + 0x10000 * chunk) (memBytes x.buf (chunk * 65536) (unitLen s x chunk)),
    sec := { s.sec with xfer := some (chunkTaken x chunk) } }

/-- A whole chunk that is not the last one, outside an early check. -/
theorem chunkStored_written {chunk : Nat} (hx : s.sec.xfer = some x) (hhdr : x.hdr = true) (hchunk : chunk < x.total)
    (hwhole : (sget [] x.got chunk).length = unitCells s x chunk) (hnew : chunk ∉ x.stored) (hearly : x.early = false)
    (hmore : x.stored.length + 1 < x.total) :
    chunkStored chunk s = secShow ((parcelPump (answerUp x.link 0x41 x.id chunk 0 0 0 (chunkWritten x chunk s))).republish fabRegs) := by
  have hstore : storeChunk chunk (memBytes x.buf (chunk * 65536) (unitLen s x chunk))
      { x with buf := sclear x.buf (chunk * 65536) (chunk * 65536 + 65536) } s = (0, chunkWritten x chunk s) := by
    unfold storeChunk
    simp only [hearly, Bool.false_and, Bool.false_eq_true, if_false, List.contains_iff_mem, hnew, List.length_append, List.length_singleton]
    rw [if_neg (by omega)]
    simp only [chunkWritten, chunkTaken, hearly]
  unfold chunkStored
  rw [hx]
  dsimp only
  rw [if_neg (by simp [hhdr, hwhole, hnew, hchunk]), hstore]
  exact if_neg (fun h => h rfl)

theorem relayEnd_unfinished {y : Xfer} (hy : s.sec.xfer = some y) (hmore : y.stored.length < y.total) : relayEnd s = s := by
  have hne : decide (y.stored.length = y.total) = false := decide_eq_false (Nat.ne_of_lt hmore)
  unfold relayEnd
  rw [hy]
  dsimp only
  rw [hne, Bool.and_false]
  exact if_neg Bool.false_ne_true

/-- A module with nothing downstream sends nothing. -/
theorem parcelPump_leaf (hx : s.sec.xfer = some x) (hdown : downLinks s x = []) (hmore : x.stored.length < x.total) : parcelPump s = s := by
  rw [parcelPump_spec hx, hdown]
  exact relayEnd_unfinished hx hmore

theorem forwardLink_down {l : Nat} (hx : s.sec.xfer = some x) (hdown : lkUp s l = false) : forwardLink s l = s := by
  unfold forwardLink
  rw [hx]
  dsimp only
  rw [hdown, Bool.and_false]
  exact if_neg (by decide)

theorem pushDue_none {l : Nat} (n : Nat) (hx : s.sec.xfer = some x) (hnone : sget [] s.fab.parcels l = []) : pushDue l (n + 1) s = s := by
  unfold pushDue
  rw [hx, hnone]

/-- Nothing is sent to links that are not UP. -/
theorem relay_down (ls : List Nat) (hx : s.sec.xfer = some x) (hdown : ∀ k ∈ ls, lkUp s k = false) (hnone : s.fab.parcels = []) :
    ls.foldl (fun t l => pushDue l 4096 (forwardLink (forwardLink t l) l)) s = s := by
  induction ls with
  | nil => rfl
  | cons l ls ih =>
    have hl := hdown l List.mem_cons_self
    rw [List.foldl_cons, forwardLink_down hx hl, forwardLink_down hx hl, pushDue_none 4095 hx (by rw [hnone]; rfl)]
    exact ih (fun k hk => hdown k (List.mem_cons_of_mem _ hk))

theorem parcelPump_down (hx : s.sec.xfer = some x) (hdown : ∀ k ∈ downLinks s x, lkUp s k = false) (hnone : s.fab.parcels = [])
    (hmore : x.stored.length < x.total) : parcelPump s = s := by
  rw [parcelPump_spec hx, relay_down _ hx hdown hnone]
  exact relayEnd_unfinished hx hmore

/-- The transfer after an acknowledgement from link `l`. -/
def unitAcked (x : Xfer) (l chunk : Nat) : Xfer :=
  { x with unacked := sset [] x.unacked l ((sget [] x.unacked l).filter (fun c => decide (c ≠ chunk))) }

theorem parcelAck_spec {l id chunk : Nat} (hx : s.sec.xfer = some x) (hid : x.id = id) (hl : l ∈ downLinks s x) :
    parcelAck l id chunk s = secShow ((parcelPump (setXfer (unitAcked x l chunk) s)).republish fabRegs) := by
  unfold parcelAck
  rw [hx]
  dsimp only
  rw [if_neg (by simp [hid, hl])]
  rfl

/-- The transfer after a refusal that is counted. -/
def unitRefused (x : Xfer) (key : Nat) : Xfer := { x with nacks := sset 0 x.nacks key (sget 0 x.nacks key + 1) }

theorem parcelNack_missing {l id chunk first count : Nat} (hx : s.sec.xfer = some x) (hid : x.id = id) (hl : l ∈ downLinks s x)
    (hfew : sget 0 x.nacks ((l + 1) * 65536 + chunk) < 7) :
    parcelNack l id chunk 3 first count s =
      (pushDue l 4096 (queueRun l chunk first count (setXfer (unitRefused x ((l + 1) * 65536 + chunk)) (countNack s)))).republish fabRegs := by
  unfold parcelNack
  rw [hx]
  dsimp only
  rw [if_neg (by simp [hid, hl]), if_pos rfl, if_neg (by omega)]
  rfl

theorem parcelGap_missing {chunk f n : Nat} (hx : s.sec.xfer = some x) (hhost : x.byHost = false) (hgot : sget [] x.got chunk ≠ [])
    (hmiss : missingRun (unitCells s x chunk) (sget [] x.got chunk) = some (f, n)) (hfew : sget 0 x.nacks chunk < 7) :
    parcelGap chunk s = secShow ((countNack (answerUp x.link 0x42 x.id chunk 3 f n (setXfer (unitRefused x chunk) s))).republish fabRegs) := by
  have hne : (sget [] x.got chunk).isEmpty = false := List.isEmpty_eq_false_iff.mpr hgot
  unfold parcelGap
  rw [hx]
  dsimp only
  rw [hhost, hne, nackMissing, hmiss]
  dsimp only
  rw [if_neg (by decide), if_neg (by omega)]
  rfl

/-- The count of refusals, which is one more. -/
theorem counted_nack (s : State) : (countNack s).rf Reg.fabParcelStat 23 16 = min (s.rf Reg.fabParcelStat 23 16 + 1) 255 := by
  unfold countNack State.rf
  rw [reg_satRf, if_pos rfl]
  exact fld_satFld _ 23 16 1 (by decide) (by decide)

theorem aloof_fabParcelStat : Aloof Reg.fabParcelStat := aloof_fab (by decide)

theorem xferResult_parcelStat (code : Nat) (s : State) (h : s.rb Reg.fabParcelStat 24 = false) :
    (xferResult code s).rb Reg.fabParcelStat 24 = false ∧ (xferResult code s).sec = s.sec := by
  have h1 : (s.setRf Reg.secXferStat 23 16 code).rb Reg.fabParcelStat 24 = false := by
    rw [rb_of_reg (reg_setRf_ne _ _ _ (by decide)), h]
  unfold xferResult
  extract_lets s1
  split
  · exact ⟨h1, rfl⟩
  · refine ⟨?_, rfl⟩
    rw [rb_setRb_other _ (by decide) (by decide) (by decide), secEvt, rb_of_reg (reg_orReg_ne _ (by decide)), h1]

theorem transferTimeout_spec (hx : s.sec.xfer = some x) :
    (transferTimeout s).sec = { s.sec with xfer := none } ∧ (transferTimeout s).rb Reg.fabParcelStat 24 = false := by
  have hlast : (xferLast s).sec = s.sec := by
    unfold xferLast
    rw [hx]
    rfl
  have hdrop : (xferDrop s).sec = { s.sec with xfer := none } := congrArg (fun v : Sec => { v with xfer := none }) hlast
  have hbusy : (xferDrop s).rb Reg.fabParcelStat 24 = false := rb_setRb_same _ _ _ _ (by decide)
  have hsome : ¬ (s.sec.xfer.isNone = true) := by rw [hx]; exact Bool.false_ne_true
  unfold transferTimeout
  rw [hx]
  dsimp only
  rw [xferEnd, if_neg hsome]
  obtain ⟨hstat, hsec⟩ := xferResult_parcelStat (if x.hdr && decide (x.stored.length = x.total) then 0 else 0x0F) (xferDrop s) hbusy
  refine ⟨?_, ?_⟩
  · rw [(shown_parts _ fabRegs).1, hsec, hdrop]
  · rw [rb_of_reg (reg_shown (Or.inl (by decide)) _ _), hstat]

/-- The header of a slot stands before the chunks. -/
theorem slotHeader_chunkWritten (chunk : Nat) (s : State) : slotHeader (chunkWritten x chunk s) x.slot = slotHeader s x.slot := by
  refine memBytes_congr fun a ha hlt => ?_
  exact memGet_memPut_other _ _ _ _ (Or.inl (by omega))

theorem unitCells_chunkWritten {chunk : Nat} (hchunk : chunk ≠ 0xFFFF) (s : State) :
    unitCells (chunkWritten x chunk s) (chunkTaken x chunk) chunk = unitCells s x chunk := by
  have hslot : (chunkTaken x chunk).slot = x.slot := rfl
  unfold unitCells unitLen
  rw [if_neg hchunk, if_neg hchunk, hslot, slotHeader_chunkWritten]

theorem parcelStat_chunkWritten {chunk : Nat} (hmore : x.stored.length + 1 < 2 ^ 16) (s : State) :
    (chunkWritten x chunk s).rf Reg.fabParcelStat 15 0 = x.stored.length + 1 := by
  have h : (chunkWritten x chunk s).reg Reg.fabParcelStat = (s.setRf Reg.fabParcelStat 15 0 (x.stored.length + 1)).reg Reg.fabParcelStat := rfl
  rw [rf_of_reg h, rf_setRf_same _ _ _ _ _ (by decide) (by decide), Nat.mod_eq_of_lt (by omega)]

theorem parcelCfg_chunkWritten (x : Xfer) (chunk : Nat) (s : State) : (chunkWritten x chunk s).reg Reg.fabParcelCfg = s.reg Reg.fabParcelCfg :=
  reg_setRf_ne (a := Reg.fabParcelStat) 15 0 (x.stored.length + 1) (by decide)

/-- What the chunk of a transfer leaves of the queues. -/
theorem CellRoom.chunkWritten {l q : Nat} (h : CellRoom l q s) (x : Xfer) (chunk : Nat) :
    CellRoom l q (chunkWritten x chunk s) ∧ qLevel (chunkWritten x chunk s) q = qLevel s q := by
  have hreg (a : Nat) (ha : 0xF0000 ≤ a) : (Machine.chunkWritten x chunk s).reg a = s.reg a :=
    reg_setRf_ne (a := Reg.fabParcelStat) 15 0 (x.stored.length + 1) (by unfold Reg.fabParcelStat; omega)
  have hlevel : qLevel (Machine.chunkWritten x chunk s) q = qLevel s q := qLevel_congr (hreg _ (queQLevel_ge q))
  have hshape : sameShape s (Machine.chunkWritten x chunk s) := fun q' =>
    ⟨hreg _ (by unfold Reg.queQCfg; omega), hreg _ (by unfold Reg.queQEnds; omega)⟩
  refine ⟨⟨(hshape.qOfCons _).trans h.queue, ?_, ?_⟩, hlevel⟩
  · rw [hlevel, hshape.qSize]
    exact h.room
  · rw [hshape.qSize]
    exact h.max

/-- What the statement asks of the transfer after a unit went out. -/
theorem sent_match {t : State} {l n chunk : Nat} (h : ∃ y, t.sec.xfer = some y ∧ n ≤ sget 0 y.sent l ∧ chunk ∈ sget [] y.unacked l) :
    (match t.sec.xfer with
      | some y => decide (n ≤ sget 0 y.sent l) && (sget [] y.unacked l).contains chunk
      | none => false) = true := by
  obtain ⟨y, hy, hn, hmem⟩ := h
  rw [hy]
  simp [hn, hmem]

theorem xfer_shown (s : State) (l : List Nat) : (secShow (s.republish l)).sec.xfer = s.sec.xfer :=
  congrArg Sec.xfer (shown_parts s l).1

/-- Settles O44, a clause for each form of the commands. -/
theorem parcelRelay : Obligations.ParcelRelay := by
  unfold Obligations.ParcelRelay
  refine ⟨?host, ?upstream, ?siding, ?noHost, ?otherLink, ?sidingOther, ?stored, ?storedSends, ?idle, ?acked, ?ackedSends, ?badAck, ?nack,
    ?gap, ?timeout⟩
  case host =>
    intro src ws x s hwf hsrc hcfg htype hx hid hhdr hchunk htotal hstored hlast hgot hwhole hprog
    subst hsrc
    exact ⟨_, exec_parcel hwf hprog, (parcel_keeps none ws (sub_refl _) (Keeps.refl _ s)).frame rfl,
      parcel_clause htype hcfg hx hid hhdr hchunk htotal hstored hlast hgot hwhole⟩
  case upstream =>
    intro src ws x l s hwf hsrc hsiding hup htype hx hid hhdr hchunk htotal hstored hlast hgot hwhole hprog
    subst hsrc
    have hfrom : fromUp s (some l.val) (fieldAt (cPayload ws) 0 4) (fieldAt (cPayload ws) 4 2) = true := by simp [fromUp, hsiding, hup]
    exact ⟨_, exec_parcel hwf hprog, (parcel_keeps (some l.val) ws (sub_refl _) (Keeps.refl _ s)).frame rfl,
      parcel_clause htype hfrom hx hid hhdr hchunk htotal hstored hlast hgot hwhole⟩
  case siding =>
    intro src ws x l s hwf hsrc hsiding hup hlink htype hx hid hhdr hchunk htotal hstored hlast hgot hwhole hprog
    subst hsrc
    have hfrom : fromUp s (some l.val) (fieldAt (cPayload ws) 0 4) (fieldAt (cPayload ws) 4 2) = true := by
      simp [fromUp, hsiding, hup, hx, hlink]
    exact ⟨_, exec_parcel hwf hprog, (parcel_keeps (some l.val) ws (sub_refl _) (Keeps.refl _ s)).frame rfl,
      parcel_clause htype hfrom hx hid hhdr hchunk htotal hstored hlast hgot hwhole⟩
  case noHost =>
    intro src ws s hwf hsrc hcfg hprog
    subst hsrc
    exact ⟨_, exec_parcel hwf hprog, (parcel_keeps none ws (sub_refl _) (Keeps.refl _ s)).frame rfl, parcel_elsewhere hcfg⟩
  case otherLink =>
    intro src ws l s hwf hsrc hsiding hup hprog
    subst hsrc
    exact ⟨_, exec_parcel hwf hprog, (parcel_keeps (some l.val) ws (sub_refl _) (Keeps.refl _ s)).frame rfl,
      parcel_elsewhere (by simp [fromUp, hsiding, hup])⟩
  case sidingOther =>
    intro src ws x l s hwf hsrc hsiding hx hlink hhdr hprog
    subst hsrc
    refine ⟨_, exec_parcel hwf hprog, (parcel_keeps (some l.val) ws (sub_refl _) (Keeps.refl _ s)).frame rfl, parcel_elsewhere ?_⟩
    unfold fromUp
    rw [hx]
    obtain h | h := hhdr <;> simp [hsiding, hlink, h]
  case stored =>
    intro chunk x s hx hhdr hchunk hwhole hnew hearly hmore htotal hdown hprog
    have hxw : (answerUp x.link 0x41 x.id chunk.toNat 0 0 0 (chunkWritten x chunk.toNat s)).sec.xfer = some (chunkTaken x chunk.toNat) := by
      rw [sec_answerUp]
      rfl
    have hdownw : downLinks (answerUp x.link 0x41 x.id chunk.toNat 0 0 0 (chunkWritten x chunk.toNat s)) (chunkTaken x chunk.toNat) = [] := by
      rw [downLinks_congr (s := s) (x := x) (y := chunkTaken x chunk.toNat) ((reg_answerUp_aloof aloof_fabParcelCfg _ _ _ _ _ _ _ _).trans (parcelCfg_chunkWritten x _ s)) rfl, hdown]
    have hmorew : (chunkTaken x chunk.toNat).stored.length < (chunkTaken x chunk.toNat).total := by
      simpa [chunkTaken] using hmore
    refine ⟨_, unlessHeld hprog, (chunkStored_keeps chunk.toNat (sub_refl _) (Keeps.refl _ s)).frame rfl, ?_⟩
    rw [chunkStored_written hx hhdr hchunk hwhole hnew hearly hmore, parcelPump_leaf hxw hdownw hmorew]
    obtain ⟨hsec, hstore, -⟩ := shown_parts (answerUp x.link 0x41 x.id chunk.toNat 0 0 0 (chunkWritten x chunk.toNat s)) fabRegs
    rw [hsec, hstore, sec_answerUp, store_answerUp, rf_of_reg (reg_shown (Or.inl (by decide)) _ _),
      rf_of_reg (reg_answerUp_aloof aloof_fabParcelStat _ _ _ _ _ _ _ _), parcelStat_chunkWritten (by omega)]
    exact ⟨rfl, rfl, rfl⟩
  case storedSends =>
    intro chunk x q k s hx hhdr hchunk hwhole hnew hearly hmore htotal hlink hdown hk hsent hwindow hcells hnone hup hq hroom hmax hprog
    have hunit : sget 0 x.sent k - 1 = chunk.toNat := by omega
    obtain ⟨hroomw, hlevelw⟩ := CellRoom.chunkWritten ⟨hq, hroom, hmax⟩ x chunk.toNat
    have hready : UnitReady k (chunkTaken x chunk.toNat) (chunkWritten x chunk.toNat s) := by
      refine ⟨hhdr, ?_, ?_, ?_, hwindow, ?_⟩
      · exact Nat.lt_of_lt_of_eq (Nat.succ_pos _) hsent.symm
      · exact Nat.le_trans (Nat.le_of_eq hsent) hchunk
      · exact List.mem_append_right _ (List.mem_singleton.mpr hunit)
      · have hst : lkState (chunkWritten x chunk.toNat s) k = lkState s k :=
          rf_of_reg (reg_setRf_ne (a := Reg.fabParcelStat) 15 0 (x.stored.length + 1) (by unfold Reg.fabLkStat Reg.fabParcelStat; omega)) 2 0
        unfold lkUp at hup ⊢
        rw [hst, hup]
    have hdownw : downLinks (chunkWritten x chunk.toNat s) (chunkTaken x chunk.toNat) = [k] := by
      rw [downLinks_congr (s := s) (x := x) (y := chunkTaken x chunk.toNat) (parcelCfg_chunkWritten x _ s) rfl, hdown]
    have hcellsw : 0 < unitCells (chunkWritten x chunk.toNat s) (chunkTaken x chunk.toNat) (sget 0 (chunkTaken x chunk.toNat).sent k - 1) := by
      have hsame : sget 0 (chunkTaken x chunk.toNat).sent k - 1 = chunk.toNat := hunit
      rw [hsame, unitCells_chunkWritten (by omega), ← hunit]
      exact hcells
    obtain ⟨hlevel, hxfer⟩ := parcelPump_sends rfl hdownw hready hnone hcellsw hroomw
    refine ⟨_, unlessHeld hprog, (chunkStored_keeps chunk.toNat (sub_refl _) (Keeps.refl _ s)).frame rfl, ?_⟩
    rw [chunkStored_written hx hhdr hchunk hwhole hnew hearly hmore, hlink, qLevel_shown, ← hlevelw]
    refine ⟨hlevel, sent_match ?_⟩
    rw [xfer_shown]
    exact hxfer
  case idle =>
    intro chunk s hx hprog
    refine ⟨_, unlessHeld hprog, (chunkStored_keeps chunk.toNat (sub_refl _) (Keeps.refl _ s)).frame rfl, ?_⟩
    unfold chunkStored
    rw [hx]
  case acked =>
    intro l id chunk status x s hstatus hx hid hl hdown hnone hmore hprog
    refine ⟨_, (unlessHeld hprog).trans (congrArg _ (if_pos hstatus)), ?_, ?_⟩
    · exact (parcelAck_keeps l.val id.toNat chunk.toNat (sub_refl _) (Keeps.refl _ s)).frame rfl
    · rw [parcelAck_spec hx hid hl, parcelPump_down (s := setXfer (unitAcked x l.val chunk.toNat) s) (x := unitAcked x l.val chunk.toNat) rfl hdown hnone hmore]
      obtain ⟨hsec, -, hfab⟩ := shown_parts (setXfer (unitAcked x l.val chunk.toNat) s) fabRegs
      exact ⟨hsec, hfab⟩
  case ackedSends =>
    intro l id chunk status x q s hstatus hx hid hdown hhdr hbegun hwithin hstored hwindow hcells hnone hup hq hroom hmax hprog
    have hl : l.val ∈ downLinks s x := by
      rw [hdown]
      exact List.mem_singleton_self _
    have hready : UnitReady l.val (unitAcked x l.val chunk.toNat) (setXfer (unitAcked x l.val chunk.toNat) s) := by
      refine ⟨hhdr, hbegun, hwithin, hstored, ?_, hup⟩
      unfold unitAcked
      rw [sget_sset_same]
      exact hwindow
    obtain ⟨hlevel, hxfer⟩ := parcelPump_sends (s := setXfer (unitAcked x l.val chunk.toNat) s) rfl hdown hready hnone hcells ⟨hq, hroom, hmax⟩
    refine ⟨_, (unlessHeld hprog).trans (congrArg _ (if_pos hstatus)), ?_, ?_⟩
    · exact (parcelAck_keeps l.val id.toNat chunk.toNat (sub_refl _) (Keeps.refl _ s)).frame rfl
    · rw [parcelAck_spec hx hid hl, qLevel_shown]
      refine ⟨hlevel, sent_match ?_⟩
      rw [xfer_shown]
      exact hxfer
  case badAck =>
    intro l id chunk status s hstatus hprog
    exact ⟨_, (unlessHeld hprog).trans (congrArg _ (if_neg hstatus)), (Keeps.refl 0 s).frame rfl, rfl⟩
  case nack =>
    intro l id chunk status first count x s hstatus hx hid hl hfew hprog
    subst hstatus
    refine ⟨_, unlessHeld hprog, (parcelNack_keeps l.val id.toNat chunk.toNat 3 first.toNat count.toNat (sub_refl _) (Keeps.refl _ s)).frame rfl, ?_⟩
    have heq := parcelNack_missing (first := first.toNat) (count := count.toNat) hx hid hl hfew
    refine ⟨?_, ?_⟩
    · refine (congrArg State.sec heq).trans ?_
      rw [(republish_keeps fabRegs (sub_refl _) (Keeps.refl _ _)).sec rfl, sec_pushDue]
      rfl
    · refine (congrArg (fun u => u.rf Reg.fabParcelStat 23 16) heq).trans ?_
      refine (rf_of_reg ((reg_republish _ _).trans (reg_pushDue_aloof aloof_fabParcelStat _ _ _)) 23 16).trans ?_
      exact counted_nack s
  case gap =>
    intro chunk x f n s hx hhost hgot hmiss hfew hprog
    refine ⟨_, unlessHeld hprog, (parcelGap_keeps chunk.toNat (sub_refl _) (Keeps.refl _ s)).frame rfl, ?_⟩
    rw [parcelGap_missing hx hhost hgot hmiss hfew, (shown_parts _ fabRegs).1, rf_of_reg (reg_shown (Or.inl (by decide)) _ _), counted_nack,
      rf_of_reg (reg_answerUp_aloof aloof_fabParcelStat _ _ _ _ _ _ _ _)]
    refine ⟨?_, rfl⟩
    exact (sec_answerUp x.link 0x42 x.id chunk.toNat 3 f n (setXfer (unitRefused x chunk.toNat) s) :)
  case timeout =>
    intro x s hx hprog
    exact ⟨_, unlessHeld hprog, (transferTimeout_keeps (sub_refl _) (Keeps.refl _ s)).frame rfl, transferTimeout_spec hx⟩

end Sys2Proof.Machine
end

section
/-! PROOFS. The local-bus island: its channels, ports and queues across the operations that CAN and T1S share. -/

namespace Sys2Proof.Machine

variable {s : State}

/-! ## Channels and ports -/

theorem canI_setCan (s : State) (c : Nat) (x : Can) (k : Nat) : (s.setCan c x).canI k = if k = c then x else s.canI k :=
  sget_sset _ _ _ _ _

theorem macI_setMac (s : State) (p : Nat) (x : Mac) (k : Nat) : (s.setMac p x).macI k = if k = p then x else s.macI k :=
  sget_sset _ _ _ _ _

theorem canI_of_bus {t : State} (h : t.bus.can = s.bus.can) (k : Nat) : t.canI k = s.canI k := by
  unfold State.canI
  rw [h]

theorem macI_of_bus {t : State} (h : t.bus.mac = s.bus.mac) (k : Nat) : t.macI k = s.macI k := by
  unfold State.macI
  rw [h]

theorem bus_setReg (s : State) (a : Nat) (v : Word) : (s.setReg a v).bus = s.bus := rfl

theorem bus_busRec (s : State) (src code sev subject : Nat) (d : List Word) : (busRec s src code sev subject d).bus = s.bus :=
  (busRec_keeps src code sev subject d (sub_refl _) (Keeps.refl _ s)).bus rfl

theorem bus_publish (s : State) (x : List (Nat × Word)) : (s.publish x).bus = s.bus :=
  (publish_keeps x (sub_refl _) (Keeps.refl _ s)).bus rfl

theorem bus_republish (s : State) (x : List Nat) : (s.republish x).bus = s.bus :=
  (republish_keeps x (sub_refl _) (Keeps.refl _ s)).bus rfl

theorem bus_sendIn (island k : Nat) (ws : List Word) (s : State) : (sendIn island k ws s).bus = s.bus :=
  (sendIn_keeps island k ws (sub_refl _) (Keeps.refl _ s)).bus rfl

theorem bus_snapShow (src : Nat) (ws : List Word) (s : State) : (snapShow src ws s).bus = s.bus :=
  (snapShow_keeps src ws (sub_refl _) (Keeps.refl _ s)).bus rfl

/-! ## Queues of an island -/

theorem qProd_of_qOfProd {ep q : Nat} (h : qOfProd s ep = some q) : qProd s q = ep ∧ qSize s q ≠ 0 := by
  have h1 := List.find?_some h
  simp only [Bool.and_eq_true, decide_eq_true_eq] at h1
  exact ⟨h1.2, h1.1⟩

theorem sameShape_qOverflow (s : State) (q : Nat) : sameShape s (qOverflow s q) := by
  intro q'
  constructor <;>
  · rw [reg_qOverflow, reg_orReg_ne, reg_satRf_ne] <;>
      simp only [Reg.queQCfg, Reg.queQEnds, Reg.queQStat, Reg.queQCnt, Reg.logEvt, Reg.queEvt, ne_eq] <;> omega

theorem sameShape_qPushIn (s : State) (q : Nat) (w : Word) : sameShape s (qPushIn s q w) := by
  unfold qPushIn
  split
  · exact fun _ => ⟨rfl, rfl⟩
  · split
    · exact sameShape_qOverflow s q
    · exact fun q' => sameShape_qSetLevel _ q _ _ q'

theorem qPush_by_producer {q : Nat} (w : Word) : qPush s (qProd s q) q w = qPushIn s q w := by
  unfold qPush qPushIn
  split
  · rfl
  · exact if_pos rfl

theorem sameShape_qPushAll_producer {q : Nat} (ws : List Word) : ∀ s : State, sameShape s (qPushAll s (qProd s q) q ws) := by
  induction ws with
  | nil => exact fun _ _ => ⟨rfl, rfl⟩
  | cons w ws ih =>
    intro s
    have hstep := sameShape_qPushIn s q w
    rw [qPushAll, qPush_by_producer, ← hstep.qProd q]
    exact hstep.trans (ih _)

/-- The units of the local-bus island whose queues are no T1S port's receive queue: for them no level begins or ends
backpressure. -/
theorem bpPort_none {q unit : Nat} (h : qProd s q = epIsland 10 unit) (hunit : unit < 24 ∨ 36 ≤ unit) : bpPort s q = none := by
  unfold bpPort
  extract_lets p
  refine if_neg (fun hc => ?_)
  have hp : p < 12 := hc.2.1
  have hge : epIsland 10 24 ≤ qProd s q := hc.1
  simp only [p, h, epIsland] at hp hge
  omega

theorem backpressureAt_none {q : Nat} (h : bpPort s q = none) (lev : Nat) (b : Bool) : backpressureAt s q lev b = s := by
  unfold backpressureAt
  rw [h]

theorem qProd_congr {t : State} {q : Nat} (h : t.reg (Reg.queQEnds q) = s.reg (Reg.queQEnds q)) : qProd t q = qProd s q := rf_of_reg h 15 0

/-- A level of such a queue changes nothing of the island. -/
theorem bus_qSetLevel {q unit : Nat} (hprod : qProd s q = epIsland 10 unit) (hunit : unit < 24 ∨ 36 ≤ unit) (old new : Nat) :
    (qSetLevel s q old new).bus = s.bus := by
  unfold qSetLevel
  extract_lets s1 s2 s3
  have hne1 : Reg.queQEnds q ≠ Reg.queQLevel q := by unfold Reg.queQEnds Reg.queQLevel; omega
  have hne2 : Reg.queQEnds q ≠ Reg.queQStat q := by unfold Reg.queQEnds Reg.queQStat; omega
  have h1 : s1.reg (Reg.queQEnds q) = s.reg (Reg.queQEnds q) ∧ s1.bus = s.bus := ⟨reg_setRf_ne _ _ _ hne1, rfl⟩
  have h2 : s2.reg (Reg.queQEnds q) = s.reg (Reg.queQEnds q) ∧ s2.bus = s.bus := by
    unfold s2
    split
    · exact ⟨(reg_setRf_ne _ _ _ hne1).trans h1.1, h1.2⟩
    · exact h1
  have hat (u : State) (m lev : Nat) (b : Bool) (hu : u.reg (Reg.queQEnds q) = s.reg (Reg.queQEnds q)) :
      backpressureAt (u.orReg (Reg.queQStat q) m) q lev b = u.orReg (Reg.queQStat q) m := by
    refine backpressureAt_none (bpPort_none (unit := unit) ?_ hunit) _ _
    rw [qProd_congr ((reg_orReg_ne _ hne2).trans hu), hprod]
  have h3 : s3.reg (Reg.queQEnds q) = s.reg (Reg.queQEnds q) ∧ s3.bus = s.bus := by
    unfold s3
    split
    · rw [hat _ _ _ _ h2.1]
      exact ⟨(reg_orReg_ne _ hne2).trans h2.1, h2.2⟩
    · exact h2
  split
  · rw [hat _ _ _ _ h3.1]
    exact h3.2
  · exact h3.2

theorem bus_qPushIn {q unit : Nat} (hprod : qProd s q = epIsland 10 unit) (hunit : unit < 24 ∨ 36 ≤ unit) (w : Word) :
    (qPushIn s q w).bus = s.bus := by
  unfold qPushIn
  split
  · rfl
  · split
    · exact (qOverflow_keeps q (sub_refl _) (Keeps.refl _ s)).bus rfl
    · exact (bus_qSetLevel (s := { s with quem := memPutW s.quem (qAddr s q (qLevel s q)) w }.setEcc mcQue (qAddr s q (qLevel s q)) .ok)
        hprod hunit _ _).trans rfl

theorem bus_qPushAll {q unit : Nat} (hunit : unit < 24 ∨ 36 ≤ unit) (ws : List Word) :
    ∀ {s : State}, qProd s q = epIsland 10 unit → (qPushAll s (epIsland 10 unit) q ws).bus = s.bus := by
  induction ws with
  | nil => exact fun _ => rfl
  | cons w ws ih =>
    intro s hprod
    have hpush : qPush s (epIsland 10 unit) q w = qPushIn s q w := by
      rw [← hprod]
      exact qPush_by_producer w
    rw [qPushAll, hpush, ih ((sameShape_qPushIn s q w).qProd q ▸ hprod), bus_qPushIn hprod hunit]

theorem bus_islandPush {unit : Nat} (hunit : unit < 24 ∨ 36 ≤ unit) (ws : List Word) (s : State) :
    (islandPush s 10 unit ws).bus = s.bus := by
  unfold islandPush
  split
  next q hq => exact bus_qPushAll hunit ws (qProd_of_qOfProd hq).1
  next => rfl

/-- A queue register that belongs to no word pushed into another queue. -/
theorem reg_qPushIn_other {a q : Nat} (ha : 0xF0000 ≤ a) (hevt : a ≠ Reg.queEvt)
    (hq : a ≠ Reg.queQLevel q ∧ a ≠ Reg.queQStat q ∧ a ≠ Reg.queQCnt q) (w : Word) : (qPushIn s q w).reg a = s.reg a := by
  obtain ⟨hlev, hstat, hcnt⟩ := hq
  unfold qPushIn
  split
  · rfl
  · split
    · rw [reg_qOverflow _ _ (by unfold Reg.logEvt; omega) hevt, reg_orReg_ne _ hstat, reg_satRf_ne _ _ _ hcnt]
    · exact reg_qSetLevel _ q _ _ ha hlev hstat

theorem qLevel_qPushAll_other {q q' : Nat} (h : q' ≠ q) (ws : List Word) : ∀ s : State, qLevel (qPushAll s (qProd s q) q ws) q' = qLevel s q' := by
  induction ws with
  | nil => exact fun _ => rfl
  | cons w ws ih =>
    intro s
    rw [qPushAll, qPush_by_producer, ← (sameShape_qPushIn s q w).qProd q, ih]
    refine qLevel_congr (reg_qPushIn_other (queQLevel_ge q') ?_ ⟨?_, ?_, ?_⟩ w) <;>
      simp only [Reg.queQLevel, Reg.queQStat, Reg.queQCnt, Reg.queEvt, ne_eq] <;> omega

/-- A push of one unit leaves the level of another end's queue. -/
theorem qLevel_islandPush_other {island unit q : Nat} (h : qProd s q ≠ epIsland island unit) (ws : List Word) :
    qLevel (islandPush s island unit ws) q = qLevel s q := by
  unfold islandPush
  split
  next q' hq' =>
    have hprod := (qProd_of_qOfProd hq').1
    rw [← hprod]
    refine qLevel_qPushAll_other (fun he => h ?_) ws s
    rw [he, hprod]
  next => rfl

/-- A push where there is room for every word. -/
theorem qLevel_islandPush_room {island unit q : Nat} {ws : List Word} (hq : qOfProd s (epIsland island unit) = some q)
    (hroom : qLevel s q + ws.length ≤ qSize s q) (hmax : qLevel s q + ws.length < 2 ^ 15) :
    qLevel (islandPush s island unit ws) q = qLevel s q + ws.length := by
  obtain ⟨hprod, hsize⟩ := qProd_of_qOfProd hq
  unfold islandPush
  rw [hq]
  exact (wordsPushed_qPushAll ws hsize hprod hroom hmax).level

/-! ## The queue registers across publishing -/

theorem reg_publish_ge {a : Nat} (x : List (Nat × Word)) (hx : ∀ e ∈ x, e.1 ≠ a) (s : State) : (s.publish x).reg a = s.reg a :=
  publish_regsBut (l := x.map Prod.fst) x (fun e he => List.mem_map_of_mem he) (regsBut_refl _ s) a
    (by simpa using fun w he => hx _ he rfl)

theorem reg_busEvt_ge {a : Nat} (ha : 0xF0000 ≤ a) {src : Nat} (hsrc : src < 24) (m : Nat) (s : State) : (busEvt src m s).reg a = s.reg a := by
  refine reg_orReg_ne _ ?_
  unfold evtReg Reg.canChEvt Reg.macPEvt
  split <;> omega

theorem reg_busRec_ge {a : Nat} (ha : 0xF0000 ≤ a) (s : State) (src code sev subject : Nat) (d : List Word) :
    (busRec s src code sev subject d).reg a = s.reg a := reg_logOnce _ _ _ _ _ _ (by unfold Reg.logEvt; omega)

theorem reg_busStatus_ge {a : Nat} (ha : 0xF0000 ≤ a) {src : Nat} (hsrc : src < 24) (s : State) : (busStatus src s).reg a = s.reg a := by
  have hsend : (sendIn 10 src [statusOf s src] s).reg a = s.reg a := by
    refine sendIn_regsBut (l := [Reg.logEvt, Reg.tteXsum]) _ _ _ (by simp) (by simp) (regsBut_refl _ s) a ?_
    simp only [Reg.logEvt, Reg.tteXsum, List.mem_cons, List.not_mem_nil, or_false]
    omega
  unfold busStatus
  rw [reg_republish, reg_publish_ge]
  · split <;> exact hsend
  · intro e he
    rw [List.mem_singleton] at he
    subst he
    unfold Reg.canChStat Reg.macPStat
    dsimp only
    split <;> omega

theorem reg_busNote_ge {a : Nat} (ha : 0xF0000 ≤ a) {src : Nat} (hsrc : src < 24) (s : State) : (busNote src s).reg a = s.reg a := by
  unfold busNote
  split
  · exact reg_republish _ _
  · exact reg_busStatus_ge ha hsrc s

theorem reg_snapShow_ge {a : Nat} (ha : 0xF0000 ≤ a) {src : Nat} (hsrc : src < 24) (ws : List Word) (s : State) :
    (snapShow src ws s).reg a = s.reg a := by
  unfold snapShow
  extract_lets mask s1 s2
  have h1 : s1.reg a = s.reg a := by
    unfold s1
    split
    · rfl
    · exact (reg_busRec_ge ha _ _ _ _ _ _).trans (reg_busEvt_ge ha hsrc _ s)
  have h2 : s2.reg a = s.reg a := by
    unfold s2
    split
    · exact h1
    · split
      · exact (reg_busRec_ge ha _ _ _ _ _ _).trans ((reg_busEvt_ge ha hsrc _ s1).trans h1)
      · exact h1
  rw [reg_republish, reg_publish_ge, h2]
  intro e he
  obtain ⟨k, hk, rfl⟩ := List.mem_map.mp he
  have hk32 : k < 32 := by
    have := List.mem_range.mp hk
    unfold counters at this
    split at this <;> omega
  dsimp only
  unfold Reg.canChCnt Reg.macPCnt
  split <;> omega

/-! ## Status words -/

/-- From s to t a status word may have gone out: no channel and no port has changed, but for the marks that the word clears, and
neither counters, snapshots nor power. -/
structure StatusOnly (s t : State) : Prop where
  can : ∀ k, ∃ v, t.canI k = { (s.canI k) with lec := v }
  mac : ∀ p, ∃ v, t.macI p = { (s.macI p) with ovf := v }
  cnt : t.bus.cnt = s.bus.cnt
  half : t.bus.half = s.bus.half
  snap : t.bus.snap = s.bus.snap
  powered : t.bus.powered = s.bus.powered

theorem StatusOnly.of_bus {t : State} (h : t.bus = s.bus) : StatusOnly s t where
  can k := ⟨(s.canI k).lec, canI_of_bus (congrArg Bus.can h) k⟩
  mac p := ⟨(s.macI p).ovf, macI_of_bus (congrArg Bus.mac h) p⟩
  cnt := congrArg Bus.cnt h
  half := congrArg Bus.half h
  snap := congrArg Bus.snap h
  powered := congrArg Bus.powered h

/-- What a status word leaves on the island. -/
def statusSent (src : Nat) (w : Word) (b : State) : State :=
  let s1 := { b with bus := { b.bus with word := sset 0#32 b.bus.word src w } }
  if src < 12 then s1.setCan src { (s1.canI src) with lec := 0 } else s1.setMac (src - 12) { (s1.macI (src - 12)) with ovf := false }

theorem bus_busStatus (src : Nat) (s : State) : (busStatus src s).bus = (statusSent src (statusOf s src) s).bus := by
  unfold busStatus
  rw [bus_republish, bus_publish]
  unfold statusSent
  split <;> rfl

theorem statusOnly_statusSent (src : Nat) (w : Word) (s : State) : StatusOnly s (statusSent src w s) := by
  have hcan (k : Nat) : ({ s with bus := { s.bus with word := sset 0#32 s.bus.word src w } } : State).canI k = s.canI k := rfl
  have hmac (k : Nat) : ({ s with bus := { s.bus with word := sset 0#32 s.bus.word src w } } : State).macI k = s.macI k := rfl
  unfold statusSent
  dsimp only
  split
  · refine ⟨fun k => ?_, fun p => ⟨(s.macI p).ovf, rfl⟩, rfl, rfl, rfl, rfl⟩
    rw [canI_setCan, hcan, hcan]
    by_cases hk : k = src
    · rw [if_pos hk, hk]
      exact ⟨0, rfl⟩
    · rw [if_neg hk]
      exact ⟨(s.canI k).lec, rfl⟩
  · refine ⟨fun k => ⟨(s.canI k).lec, rfl⟩, fun p => ?_, rfl, rfl, rfl, rfl⟩
    rw [macI_setMac, hmac, hmac]
    by_cases hp : p = src - 12
    · rw [if_pos hp, hp]
      exact ⟨false, rfl⟩
    · rw [if_neg hp]
      exact ⟨(s.macI p).ovf, rfl⟩

theorem StatusOnly.trans {t u : State} (h : StatusOnly s t) (h' : StatusOnly t u) : StatusOnly s u := by
  refine ⟨fun k => ?_, fun p => ?_, h'.cnt.trans h.cnt, h'.half.trans h.half, h'.snap.trans h.snap, h'.powered.trans h.powered⟩
  · obtain ⟨v, hv⟩ := h.can k
    obtain ⟨v', hv'⟩ := h'.can k
    exact ⟨v', by rw [hv', hv]⟩
  · obtain ⟨v, hv⟩ := h.mac p
    obtain ⟨v', hv'⟩ := h'.mac p
    exact ⟨v', by rw [hv', hv]⟩

theorem statusOnly_busStatus (src : Nat) (s : State) : StatusOnly s (busStatus src s) :=
  (statusOnly_statusSent src _ s).trans (StatusOnly.of_bus (bus_busStatus src s))

theorem statusOnly_busNote (src : Nat) (s : State) : StatusOnly s (busNote src s) := by
  unfold busNote
  split
  · exact StatusOnly.of_bus (bus_republish _ _)
  · exact statusOnly_busStatus src s

/-- The status word of a channel leaves every port. -/
theorem mac_busNote {src : Nat} (hsrc : src < 12) (s : State) : (busNote src s).bus.mac = s.bus.mac := by
  unfold busNote
  split
  · rw [bus_republish]
  · rw [bus_busStatus, statusSent, if_pos hsrc]
    rfl

/-- The status word of a port leaves every channel. -/
theorem can_busNote {src : Nat} (hsrc : ¬ src < 12) (s : State) : (busNote src s).bus.can = s.bus.can := by
  unfold busNote
  split
  · rw [bus_republish]
  · rw [bus_busStatus, statusSent, if_neg hsrc]
    rfl

/-! ## Snapshots -/

/-- A push of a snapshot changes nothing of the island but that it no longer waits. -/
theorem bus_snapPump (src : Nat) (s : State) :
    (snapPump src s).bus = s.bus ∨ (snapPump src s).bus = { s.bus with snap := sset [] s.bus.snap src [] } := by
  unfold snapPump
  split
  · exact Or.inl rfl
  · split
    · refine Or.inr ?_
      rw [bus_snapShow, bus_islandPush (Or.inr (by decide))]
    · exact Or.inl rfl

theorem qLevel_snapPump {src q : Nat} (hsrc : src < 24) (h : qProd s q ≠ epIsland 10 48) : qLevel (snapPump src s) q = qLevel s q := by
  unfold snapPump
  split
  · rfl
  · split
    · exact (qLevel_congr (reg_snapShow_ge (queQLevel_ge q) hsrc _ _)).trans
        ((qLevel_islandPush_other (s := { s with bus := { s.bus with snap := sset [] s.bus.snap src [] } }) h _).trans rfl)
    · rfl

end Sys2Proof.Machine
end

section
/-! PROOFS. The commands of a CAN channel (Table 11-4): O45. -/

namespace Sys2Proof.Machine

variable {s t u : State} {c : Nat}

/-! ## Records pushed -/

/-- From s to t channel c has pushed records that waited: nothing of the island but what waits and what its receive buffers hold
has changed. -/
structure Pumped (c : Nat) (s t : State) : Prop where
  self : ∃ o r, t.canI c = { (s.canI c) with out := o, rx := r }
  others : ∀ k, k ≠ c → t.canI k = s.canI k
  mac : t.bus.mac = s.bus.mac
  cnt : t.bus.cnt = s.bus.cnt
  half : t.bus.half = s.bus.half
  snap : t.bus.snap = s.bus.snap
  powered : t.bus.powered = s.bus.powered

theorem Pumped.refl (c : Nat) (s : State) : Pumped c s s :=
  ⟨⟨(s.canI c).out, (s.canI c).rx, rfl⟩, fun _ _ => rfl, rfl, rfl, rfl, rfl, rfl⟩

theorem Pumped.of_bus (h : Pumped c s t) (hb : u.bus = t.bus) : Pumped c s u := by
  obtain ⟨⟨o, r, hself⟩, hothers, hmac, hcnt, hhalf, hsnap, hpow⟩ := h
  have hcan (k : Nat) : u.canI k = t.canI k := canI_of_bus (congrArg Bus.can hb) k
  refine ⟨⟨o, r, (hcan c).trans hself⟩, fun k hk => (hcan k).trans (hothers k hk), ?_, ?_, ?_, ?_, ?_⟩ <;> rw [hb] <;> assumption

theorem Pumped.setCan (h : Pumped c s t) (o : List CanOut) (r : Sparse RxBuf) : Pumped c s (t.setCan c { (t.canI c) with out := o, rx := r }) := by
  obtain ⟨⟨o', r', hself⟩, hothers, hmac, hcnt, hhalf, hsnap, hpow⟩ := h
  refine ⟨⟨o, r, ?_⟩, fun k hk => ?_, hmac, hcnt, hhalf, hsnap, hpow⟩
  · rw [canI_setCan, if_pos rfl, hself]
  · rw [canI_setCan, if_neg hk, hothers k hk]

theorem bus_canSeen (c : Nat) (ws : List Word) (s : State) : (canSeen c ws s).bus = s.bus :=
  (canSeen_keeps c ws (sub_refl _) (Keeps.refl _ s)).bus rfl

theorem pumped_canPump (hc : c < 12) (n : Nat) : ∀ {t : State}, Pumped c s t → Pumped c s (canPump c n t) := by
  induction n with
  | zero => exact fun h => h
  | succ n ih =>
    intro t h
    unfold canPump
    split
    next => exact h
    next o rest hout =>
      have h1 : Pumped c s (t.setCan c { (t.canI c) with out := rest }) := h.setCan rest (t.canI c).rx
      have hpush (ws : List Word) : Pumped c s (canSeen c ws (islandPush (t.setCan c { (t.canI c) with out := rest }) 10 c ws)) :=
        h1.of_bus ((bus_canSeen c ws _).trans (bus_islandPush (Or.inl (by omega)) ws _))
      extract_lets ws x s1
      clear_value ws
      cases ws with
      | none => exact ih h1
      | some words =>
        dsimp only
        split
        · refine ih ?_
          split
          · exact (hpush words).setCan _ _
          · exact hpush words
        · exact h

/-! ## What a channel's commands leave when they push and show -/

/-- From s to t channel c has pushed what fits and shown its state. -/
structure Flowed (c : Nat) (s t : State) : Prop where
  self : ∃ o r v, t.canI c = { (s.canI c) with out := o, rx := r, lec := v }
  mac : t.bus.mac = s.bus.mac
  cnt : t.bus.cnt = s.bus.cnt
  half : t.bus.half = s.bus.half
  powered : t.bus.powered = s.bus.powered

theorem bus_snapPump_fields (src : Nat) (s : State) :
    (snapPump src s).bus.can = s.bus.can ∧ (snapPump src s).bus.mac = s.bus.mac ∧ (snapPump src s).bus.cnt = s.bus.cnt ∧
      (snapPump src s).bus.half = s.bus.half ∧ (snapPump src s).bus.powered = s.bus.powered := by
  obtain h | h := bus_snapPump src s <;> rw [h] <;> exact ⟨rfl, rfl, rfl, rfl, rfl⟩

theorem Flowed.of_statusOnly (hbus : t.bus.can = s.bus.can ∧ t.bus.mac = s.bus.mac ∧ t.bus.cnt = s.bus.cnt ∧ t.bus.half = s.bus.half ∧
    t.bus.powered = s.bus.powered) (h : StatusOnly t u) (hmac : u.bus.mac = t.bus.mac) : Flowed c s u := by
  obtain ⟨hcan, hmac', hcnt, hhalf, hpow⟩ := hbus
  obtain ⟨v, hv⟩ := h.can c
  refine ⟨⟨(s.canI c).out, (s.canI c).rx, v, ?_⟩, hmac.trans hmac', h.cnt.trans hcnt, h.half.trans hhalf, h.powered.trans hpow⟩
  rw [hv, canI_of_bus hcan]

theorem flowed_canShow (hc : c < 12) (s : State) : Flowed c s (canShow c s) := by
  unfold canShow
  dsimp only
  generalize hx : [(Reg.canChTxpend c, _)] = x
  have hpub := bus_publish s x
  refine Flowed.of_statusOnly (t := s.publish x) ?_ (statusOnly_busNote c _) (mac_busNote hc _)
  rw [hpub]
  exact ⟨rfl, rfl, rfl, rfl, rfl⟩

theorem Flowed.after (hc : Pumped c s t) (hp : t.bus.can = u.bus.can ∧ t.bus.mac = u.bus.mac ∧ t.bus.cnt = u.bus.cnt ∧ t.bus.half = u.bus.half ∧
    t.bus.powered = u.bus.powered) {w : State} (h : Flowed c u w) : Flowed c s w := by
  obtain ⟨⟨o, r, hself⟩, -, hmac, hcnt, hhalf, -, hpow⟩ := hc
  obtain ⟨hcan, hmac', hcnt', hhalf', hpow'⟩ := hp
  obtain ⟨⟨o', r', v', hself'⟩, hmac'', hcnt'', hhalf'', hpow''⟩ := h
  refine ⟨⟨o', r', v', ?_⟩, ?_, ?_, ?_, ?_⟩
  · rw [hself', ← canI_of_bus hcan, hself]
  · rw [hmac'', ← hmac', hmac]
  · rw [hcnt'', ← hcnt', hcnt]
  · rw [hhalf'', ← hhalf', hhalf]
  · rw [hpow'', ← hpow', hpow]

theorem flowed_canFlow (hc : c < 12) (s : State) : Flowed c s (canFlow c s) := by
  have hpump := pumped_canPump hc 4096 (Pumped.refl c s)
  obtain ⟨hcan, hmac, hcnt, hhalf, hpow⟩ := bus_snapPump_fields c (canPump c 4096 s)
  exact Flowed.after hpump ⟨hcan.symm, hmac.symm, hcnt.symm, hhalf.symm, hpow.symm⟩ (flowed_canShow hc _)

/-- The transmit buffers of a channel that pushes and shows. -/
theorem Flowed.canTx (h : Flowed c s t) (i : Nat) : canTx t c i = canTx s c i := by
  obtain ⟨o, r, v, hself⟩ := h.self
  unfold Machine.canTx
  rw [hself]

/-! ## Transmit buffers -/

theorem canTx_setTx (c i : Nat) (b : TxBuf) (s : State) (j : Nat) : canTx (setTx c i b s) c j = if j = i then b else canTx s c j := by
  unfold setTx canTx
  rw [canI_setCan, if_pos rfl]
  exact sget_sset _ _ _ _ _

/-- Steps that each change one transmit buffer by a rule of its own, over buffers that are each named once. -/
theorem canTx_foldl {f : State → Nat → State} {g : TxBuf → TxBuf} {P : State → Prop}
    (hf : ∀ s i, P s → P (f s i) ∧ ∀ j, canTx (f s i) c j = if j = i then g (canTx s c i) else canTx s c j) :
    ∀ (l : List Nat) (s : State), P s → l.Nodup →
      P (l.foldl f s) ∧ ∀ j, canTx (l.foldl f s) c j = if j ∈ l then g (canTx s c j) else canTx s c j := by
  intro l
  induction l with
  | nil => exact fun s hs _ => ⟨hs, fun j => (if_neg List.not_mem_nil).symm⟩
  | cons i l ih =>
    intro s hs hnd
    obtain ⟨hi, hnd⟩ := List.nodup_cons.mp hnd
    obtain ⟨hP, hstep⟩ := hf s i hs
    obtain ⟨hP', hrest⟩ := ih (f s i) hP hnd
    refine ⟨hP', fun j => ?_⟩
    rw [List.foldl_cons, hrest, hstep]
    by_cases hji : j = i
    · subst hji
      rw [if_neg hi, if_pos rfl, if_pos List.mem_cons_self]
    · rw [if_neg hji]
      simp [hji]

theorem nodup_bitsOf (n mask : Nat) : (bitsOf n mask).Nodup := List.Nodup.filter _ List.nodup_range

/-- A loaded buffer that is not requested becomes so. -/
def requested (b : TxBuf) : TxBuf :=
  if b.frame.isSome && !b.req then { b with req := true, active := false, onBus := false, abort := false, errors := 0, redo := false, ts := 0#32 }
  else b

theorem cannotSend_setTx (c i : Nat) (b : TxBuf) (s : State) : cannotSend (setTx c i b s) c = cannotSend s c := by
  unfold cannotSend setTx
  rw [canI_setCan, if_pos rfl]
  rfl

theorem txRequest_step (s : State) (i : Nat) (h : cannotSend s c = false) :
    cannotSend (txRequest c i s) c = false ∧ ∀ j, canTx (txRequest c i s) c j = if j = i then requested (canTx s c i) else canTx s c j := by
  have hcases : txRequest c i s = s ∧ requested (canTx s c i) = canTx s c i ∨ txRequest c i s = setTx c i (requested (canTx s c i)) s := by
    unfold txRequest requested
    dsimp only
    cases hframe : (canTx s c i).frame <;> cases hreq : (canTx s c i).req
    case some.false =>
      simp only [Option.isNone_some, Option.isSome_some, Bool.or_self, Bool.not_false, Bool.and_self, Bool.false_eq_true, if_false, if_true]
      rw [cannotSend_setTx, h]
      exact Or.inr rfl
    all_goals exact Or.inl ⟨rfl, rfl⟩
  obtain ⟨hsame, hbuf⟩ | hset := hcases
  · rw [hsame, hbuf]
    refine ⟨h, fun j => ?_⟩
    split
    · subst j; rfl
    · rfl
  · rw [hset, cannotSend_setTx]
    exact ⟨h, canTx_setTx c i _ s⟩

/-- SEND requests every loaded buffer of its mask (R304). -/
theorem canTx_canSend (hc : c < 12) {mask : Nat} (h : cannotSend s c = false) {i : Nat} (hi : i < 16) :
    canTx (canSend c mask s) c i = if mask.testBit i && (canTx s c i).frame.isSome && !(canTx s c i).req then
      { (canTx s c i) with req := true, active := false, onBus := false, abort := false, errors := 0, redo := false, ts := 0#32 }
      else canTx s c i := by
  unfold canSend
  rw [(flowed_canFlow hc _).canTx,
    (canTx_foldl (P := fun u => cannotSend u c = false) (fun u k hu => txRequest_step u k hu) _ s h (nodup_bitsOf 16 mask)).2]
  unfold requested
  by_cases hbit : mask.testBit i
  · rw [if_pos (mem_bitsOf.mpr ⟨hi, hbit⟩), hbit, Bool.true_and]
  · rw [if_neg (fun hm => hbit (mem_bitsOf.mp hm).2)]
    simp [hbit]

/-! ## The end of a request -/

theorem canI_count1 (src k : Nat) (s : State) (j : Nat) : (count1 src k s).canI j = s.canI j := rfl

theorem mac_count1 (src k : Nat) (s : State) : (count1 src k s).bus.mac = s.bus.mac := rfl

theorem canI_canRecord (c : Nat) (ws : List Word) (s : State) (k : Nat) :
    (canRecord c ws s).canI k = if k = c then { (s.canI c) with out := (s.canI c).out ++ [.words ws] } else s.canI k :=
  canI_setCan _ _ _ _

theorem canTx_canRecord (ws : List Word) (s : State) (i : Nat) : canTx (canRecord c ws s) c i = canTx s c i := by
  unfold canTx
  rw [canI_canRecord, if_pos rfl]

theorem canTx_of_bus (h : t.bus = s.bus) (i : Nat) : canTx t c i = canTx s c i := by
  unfold canTx
  rw [canI_of_bus (congrArg Bus.can h)]

theorem canTx_count1 (src k : Nat) (s : State) (i : Nat) : canTx (count1 src k s) c i = canTx s c i := rfl

/-- A request that has ended. -/
def unrequested (b : TxBuf) : TxBuf := { b with req := false, active := false, onBus := false, abort := false }

/-- The report of a request that has ended. -/
def txReported (c i kind cause : Nat) (b : TxBuf) (f : CanFrame) (s : State) : State :=
  let r := reportWords kind (48 + i) cause b.errors b.ts f
  if kind = 1 then (if bit (canCtl (s.canI c) c) 7 then canRecord c r s else s)
  else
    let s2 := count1 c 13 (canRecord c r s)
    if cause = 1 then busRec s2 c 0x806 6 c [w32 c, w32 (48 + i), w32 f.id] else s2

theorem txEnd_none {i : Nat} (kind cause : Nat) (h : (canTx s c i).frame = none) : txEnd c i kind cause s = s := by
  unfold txEnd
  dsimp only
  split
  · rfl
  · simp_all

theorem txEnd_some {i : Nat} {f : CanFrame} (kind cause : Nat) (h : (canTx s c i).frame = some f) :
    txEnd c i kind cause s = txReported c i kind cause (canTx s c i) f (setTx c i (unrequested (canTx s c i)) s) := by
  unfold txEnd
  dsimp only
  split
  next hnone => exact absurd (h.symm.trans hnone) (by simp)
  next g hg =>
    obtain rfl : f = g := Option.some.inj (h.symm.trans hg)
    rfl

theorem canTx_txReported (i kind cause : Nat) (b : TxBuf) (f : CanFrame) (s : State) (j : Nat) :
    canTx (txReported c i kind cause b f s) c j = canTx s c j := by
  unfold txReported
  extract_lets r s2
  have h2 : canTx s2 c j = canTx s c j := (canTx_count1 _ _ _ _).trans (canTx_canRecord _ _ _)
  split
  · split
    · exact canTx_canRecord _ _ _
    · rfl
  · split
    · exact (canTx_of_bus (bus_busRec _ _ _ _ _ _) j).trans h2
    · exact h2

theorem canTx_txEnd (i kind cause : Nat) (s : State) (j : Nat) :
    canTx (txEnd c i kind cause s) c j = if j = i ∧ (canTx s c i).frame.isSome then unrequested (canTx s c i) else canTx s c j := by
  cases hframe : (canTx s c i).frame with
  | none =>
    rw [txEnd_none kind cause hframe]
    simp
  | some f =>
    rw [txEnd_some kind cause hframe, canTx_txReported, canTx_setTx]
    simp

/-- ABORT at one buffer: at once, or marked while its attempt is under way (R305). -/
def abortOne (c : Nat) (t : State) (i : Nat) : State :=
  if !(canTx t c i).req then t else if (canTx t c i).onBus then setTx c i { (canTx t c i) with abort := true } t else txEnd c i 2 2 t

/-- What ABORT makes of a buffer of its mask. -/
def aborted (b : TxBuf) : TxBuf :=
  if !b.req then b else if b.onBus then { b with abort := true } else if b.frame.isSome then unrequested b else b

theorem canTx_abortOne (s : State) (i j : Nat) : canTx (abortOne c s i) c j = if j = i then aborted (canTx s c i) else canTx s c j := by
  have hsame : canTx s c j = if j = i then canTx s c i else canTx s c j := by
    split
    · subst j; rfl
    · rfl
  unfold abortOne aborted
  by_cases hreq : (!(canTx s c i).req) = true
  · rw [if_pos hreq, if_pos hreq]
    exact hsame
  · rw [if_neg hreq, if_neg hreq]
    by_cases hon : (canTx s c i).onBus = true
    · rw [if_pos hon, if_pos hon]
      exact canTx_setTx c i _ s j
    · rw [if_neg hon, if_neg hon, canTx_txEnd]
      cases hframe : (canTx s c i).frame with
      | none => simpa using hsame
      | some f => simp

theorem canTx_canAbort (hc : c < 12) (mask i : Nat) (s : State) :
    canTx (canAbort c mask s) c i = if i < 16 ∧ mask.testBit i = true then aborted (canTx s c i) else canTx s c i := by
  have heq : canAbort c mask s = canFlow c ((bitsOf 16 mask).foldl (abortOne c) s) := rfl
  rw [heq, (flowed_canFlow hc _).canTx,
    (canTx_foldl (P := fun _ => True) (fun u k _ => ⟨trivial, canTx_abortOne u k⟩) _ s trivial (nodup_bitsOf 16 mask)).2]
  simp only [mem_bitsOf]

/-! ## FETCH -/

theorem canPump_empty (n : Nat) (h : (s.canI c).out = []) : canPump c n s = s := by
  cases n with
  | zero => rfl
  | succ n =>
    unfold canPump
    rw [h]

/-- One record that waits and fits is pushed. -/
theorem canPump_one {ws : List Word} (n : Nat) (hout : (s.canI c).out = [.words ws]) (hroom : ws.length ≤ islandRoom s 10 c) (hc : c < 12) :
    canPump c (n + 1) s = canSeen c ws (islandPush (s.setCan c { (s.canI c) with out := [] }) 10 c ws) := by
  have hempty : ((canSeen c ws (islandPush (s.setCan c { (s.canI c) with out := [] }) 10 c ws)).canI c).out = [] := by
    rw [canI_of_bus (congrArg Bus.can ((bus_canSeen c ws _).trans (bus_islandPush (Or.inl (by omega)) ws _))), canI_setCan, if_pos rfl]
  unfold canPump
  rw [hout]
  dsimp only
  rw [if_pos hroom, canPump_empty n hempty]

theorem qLevel_canFlow {q : Nat} (hc : c < 12) (h : qProd (canPump c 4096 s) q ≠ epIsland 10 48) :
    qLevel (canFlow c s) q = qLevel (canPump c 4096 s) q := by
  unfold canFlow canShow
  refine (qLevel_congr ((reg_busNote_ge (queQLevel_ge q) (by omega) _).trans (reg_publish_ge _ ?_ _))).trans (qLevel_snapPump (by omega) h)
  intro e he
  rw [List.mem_singleton] at he
  subst he
  unfold Reg.canChTxpend Reg.queQLevel
  dsimp only
  omega

/-- Once the records that fit are pushed, only the status word touches the channel. -/
theorem canI_canFlow (c : Nat) (s : State) : ∃ v, (canFlow c s).canI c = { ((canPump c 4096 s).canI c) with lec := v } := by
  unfold canFlow canShow
  dsimp only
  generalize hu : snapPump c (canPump c 4096 s) = u
  have hcan : u.canI c = (canPump c 4096 s).canI c := by
    rw [← hu]
    exact canI_of_bus (bus_snapPump_fields c _).1 c
  generalize [(Reg.canChTxpend c, _)] = x
  obtain ⟨v, hv⟩ := (statusOnly_busNote c (u.publish x)).can c
  exact ⟨v, by rw [hv, canI_of_bus (congrArg Bus.can (bus_publish u x)), hcan]⟩

theorem sameShape_islandPush_producer (island unit : Nat) (ws : List Word) (s : State) : sameShape s (islandPush s island unit ws) := by
  unfold islandPush
  split
  next q hq =>
    rw [← (qProd_of_qOfProd hq).1]
    exact sameShape_qPushAll_producer ws s
  next => exact fun _ => ⟨rfl, rfl⟩

/-- The record of an empty mailbox (R301). -/
def emptyRecord (b : Nat) (ts : Word) : List Word := [w32 (3 * 2 ^ 30), w32 (b * 65536), ts]

theorem canSeen_emptyRecord (b : Nat) (ts : Word) (s : State) : canSeen c (emptyRecord b ts) s = s := by
  unfold canSeen emptyRecord
  dsimp only
  have hhead : [w32 (3 * 2 ^ 30), w32 (b * 65536), ts].getD 0 0#32 = w32 (3 * 2 ^ 30) := rfl
  have hkind : fld (w32 (3 * 2 ^ 30)) 31 30 = 3 := by decide
  rw [hhead, hkind, if_neg (by decide), if_neg (fun h => absurd h.1 (by decide))]

theorem canFetch_empty {b : Nat} {ts : Word} (hb : b < 48) (hout : (s.canI c).out = []) (hframe : (sget rx0 (s.canI c).rx b).frame = none) :
    canFetch c b ts s = canFlow c (canRecord c (emptyRecord b ts) s) := by
  unfold canFetch
  dsimp only
  rw [hout, hframe]
  exact if_neg (not_or.mpr ⟨by omega, by simp⟩)

theorem fetched_canFetch {b q : Nat} {ts : Word} (hc : c < 12) (hb : b < 48) (hout : (s.canI c).out = [])
    (hframe : (sget rx0 (s.canI c).rx b).frame = none) (hq : qOfProd s (epIsland 10 c) = some q) (hroom : qLevel s q + 3 ≤ qSize s q)
    (hmax : qLevel s q + 3 < 2 ^ 15) :
    qLevel (canFetch c b ts s) q = qLevel s q + 3 ∧ ((canFetch c b ts s).canI c).out = [] ∧ ((canFetch c b ts s).canI c).rx = (s.canI c).rx := by
  have hroom' : (emptyRecord b ts).length ≤ islandRoom (canRecord c (emptyRecord b ts) s) 10 c := by
    have hisland : islandRoom (canRecord c (emptyRecord b ts) s) 10 c = qSize s q - qLevel s q := by
      have : islandRoom (canRecord c (emptyRecord b ts) s) 10 c = islandRoom s 10 c := rfl
      rw [this, islandRoom, hq]
    rw [hisland]
    exact Nat.le_sub_of_add_le (by rw [Nat.add_comm]; exact hroom)
  have hrec : ((canRecord c (emptyRecord b ts) s).canI c).out = [.words (emptyRecord b ts)] := by
    rw [canI_canRecord, if_pos rfl, hout]
    rfl
  have hpump := canPump_one 4095 hrec hroom' hc
  rw [canSeen_emptyRecord] at hpump
  have hprod := qProd_of_qOfProd hq
  generalize hs0 : (canRecord c (emptyRecord b ts) s).setCan c { ((canRecord c (emptyRecord b ts) s).canI c) with out := [] } = s0 at hpump
  have hreg (a : Nat) : s0.reg a = s.reg a := by rw [← hs0]; rfl
  have hq0 : qOfProd s0 (epIsland 10 c) = some q := by rw [← hs0]; exact hq
  have hlevel0 : qLevel s0 q = qLevel s q := qLevel_congr (hreg _)
  have hsize0 : qSize s0 q = qSize s q := by rw [← hs0]; rfl
  have hpushed : qLevel (islandPush s0 10 c (emptyRecord b ts)) q = qLevel s0 q + 3 :=
    qLevel_islandPush_room hq0 (by rw [hlevel0, hsize0]; exact hroom) (by rw [hlevel0]; exact hmax)
  have hpumpedProd : qProd (canPump c 4096 (canRecord c (emptyRecord b ts) s)) q ≠ epIsland 10 48 := by
    rw [hpump, (sameShape_islandPush_producer 10 c _ s0).qProd q, qProd_congr (hreg _), hprod.1]
    unfold epIsland
    omega
  have hself : (canPump c 4096 (canRecord c (emptyRecord b ts) s)).canI c = { (s.canI c) with out := [] } := by
    rw [hpump, canI_of_bus (congrArg Bus.can (bus_islandPush (Or.inl (by omega)) _ s0)), ← hs0, canI_setCan, if_pos rfl, canI_canRecord, if_pos rfl]
  rw [canFetch_empty hb hout hframe]
  obtain ⟨v, hv⟩ := canI_canFlow c (canRecord c (emptyRecord b ts) s)
  refine ⟨?_, ?_, ?_⟩
  · rw [qLevel_canFlow hc hpumpedProd, hpump, hpushed, hlevel0]
  · rw [hv, hself]
  · rw [hv, hself]

end Sys2Proof.Machine
end

section
/-! PROOFS. The configuration, statistics and status words of the local-bus island: O45. -/

namespace Sys2Proof.Machine

variable {s t : State} {c src : Nat}

/-! ## ABORT (R305) -/

theorem aborted_onBus {b : TxBuf} (hreq : b.req = true) (hon : b.onBus = true) : aborted b = { b with abort := true } := by
  unfold aborted
  rw [if_neg (by simp [hreq]), if_pos hon]

theorem aborted_idle {b : TxBuf} (hreq : b.req = true) (hon : b.onBus = false) (hframe : b.frame.isSome = true) :
    aborted b = unrequested b := by
  unfold aborted
  rw [if_neg (by simp [hreq]), if_neg (by simp [hon]), if_pos hframe]

/-! ## STATS (R315) -/

/-- The snapshot that STATS takes. -/
def snapOf (s : State) (src : Nat) : List Word :=
  [w32 (0x53540000 + 256 * counters src + (if src < 12 then src else 0x10 + (src - 12))), w32 (sget 0 s.bus.half src)] ++
    (List.range (counters src)).map (counter s src)

/-- The state in which the snapshot waits. -/
def snapTaken (s : State) (src : Nat) : State :=
  { s with bus := { s.bus with snap := sset [] s.bus.snap src (snapOf s src), half := sset 0 s.bus.half src 0 } }

theorem length_snapOf (s : State) (src : Nat) : (snapOf s src).length = 2 + counters src := by
  simp [snapOf]
  omega

theorem busStats_spec (h : sget [] s.bus.snap src = []) : busStats src s = snapPump src (snapTaken s src) := by
  unfold busStats
  rw [h]
  rfl

theorem snap_snapTaken (s : State) (src : Nat) : sget [] (snapTaken s src).bus.snap src = snapOf s src := sget_sset_same _ _ _ _

theorem half_snapTaken (s : State) (src : Nat) : sget 0 (snapTaken s src).bus.half src = 0 := sget_sset_same _ _ _ _

/-- A snapshot that does not fit waits. -/
theorem snapPump_waits {ws : List Word} (h : sget [] s.bus.snap src = ws) (hroom : islandRoom s 10 48 < ws.length) : snapPump src s = s := by
  unfold snapPump
  rw [h]
  cases ws with
  | nil => rfl
  | cons w ws => exact if_neg (Nat.not_le.mpr hroom)

theorem snapPump_fits {ws : List Word} (h : sget [] s.bus.snap src = ws) (hne : ws ≠ []) (hroom : ws.length ≤ islandRoom s 10 48) :
    snapPump src s = snapShow src ws (islandPush { s with bus := { s.bus with snap := sset [] s.bus.snap src [] } } 10 48 ws) := by
  unfold snapPump
  rw [h]
  cases ws with
  | nil => exact absurd rfl hne
  | cons w ws => exact if_pos hroom

theorem quem_busNote (src : Nat) (s : State) : (busNote src s).quem = s.quem := (busNote_keeps src (sub_refl _) (Keeps.refl _ s)).quem rfl

theorem islandRoom_of_queue {island unit q : Nat} (h : qOfProd s (epIsland island unit) = some q) :
    islandRoom s island unit = qSize s q - qLevel s q := by
  unfold islandRoom
  rw [h]

theorem qLevel_busNote (hsrc : src < 24) (s : State) (q : Nat) : qLevel (busNote src s) q = qLevel s q :=
  qLevel_congr (reg_busNote_ge (queQLevel_ge q) hsrc s)

theorem busStats_pushed {q : Nat} (hsrc : src < 24) (hsnap : sget [] s.bus.snap src = []) (hq : qOfProd s (epIsland 10 48) = some q)
    (hroom : qLevel s q + 2 + counters src ≤ qSize s q) (hmax : qLevel s q + 2 + counters src < 2 ^ 15) :
    qLevel (busStats src s) q = qLevel s q + 2 + counters src ∧ sget [] (busStats src s).bus.snap src = [] ∧
      sget 0 (busStats src s).bus.half src = 0 := by
  have hlen := length_snapOf s src
  have hne : snapOf s src ≠ [] := by
    intro he
    rw [he] at hlen
    simp at hlen
    omega
  have hisland : islandRoom (snapTaken s src) 10 48 = qSize s q - qLevel s q := islandRoom_of_queue (s := s) hq
  rw [busStats_spec hsnap, snapPump_fits (snap_snapTaken s src) hne (by rw [hisland]; omega)]
  have hlevel := qLevel_islandPush_room
    (s := { snapTaken s src with bus := { (snapTaken s src).bus with snap := sset [] (snapTaken s src).bus.snap src [] } }) (ws := snapOf s src)
    (show qOfProd _ (epIsland 10 48) = some q from hq) (by rw [hlen, ← Nat.add_assoc]; exact hroom) (by rw [hlen, ← Nat.add_assoc]; exact hmax)
  refine ⟨?_, ?_, ?_⟩
  · rw [qLevel_congr (reg_snapShow_ge (queQLevel_ge q) hsrc _ _), hlevel, hlen, ← Nat.add_assoc]
    rfl
  · rw [bus_snapShow, bus_islandPush (Or.inr (by decide))]
    exact sget_sset_same _ _ _ _
  · rw [bus_snapShow, bus_islandPush (Or.inr (by decide))]
    exact half_snapTaken s src

/-! ## CFG_END of a channel (R307) -/

/-- From s to t the configuration in force at channel c and the ones that wait stay. -/
structure SameConf (c : Nat) (s t : State) : Prop where
  cfgd : (t.canI c).cfgd = (s.canI c).cfgd
  cur : (t.canI c).cur = (s.canI c).cur
  next : (t.canI c).next = (s.canI c).next
  leave : (t.canI c).leave = (s.canI c).leave
  mac : t.bus.mac = s.bus.mac

theorem SameConf.refl (c : Nat) (s : State) : SameConf c s s := ⟨rfl, rfl, rfl, rfl, rfl⟩

theorem SameConf.trans {u : State} (h : SameConf c s t) (h' : SameConf c t u) : SameConf c s u :=
  ⟨h'.cfgd.trans h.cfgd, h'.cur.trans h.cur, h'.next.trans h.next, h'.leave.trans h.leave, h'.mac.trans h.mac⟩

theorem SameConf.of_bus (h : t.bus = s.bus) : SameConf c s t := by
  have hcan := canI_of_bus (congrArg Bus.can h) c
  exact ⟨congrArg Can.cfgd hcan, congrArg Can.cur hcan, congrArg Can.next hcan, congrArg Can.leave hcan, congrArg Bus.mac h⟩

theorem SameConf.setCan {x : Can} (hcfgd : x.cfgd = (s.canI c).cfgd) (hcur : x.cur = (s.canI c).cur) (hnext : x.next = (s.canI c).next)
    (hleave : x.leave = (s.canI c).leave) : SameConf c s (s.setCan c x) := by
  have hcan : (s.setCan c x).canI c = x := by rw [canI_setCan, if_pos rfl]
  exact ⟨by rw [hcan, hcfgd], by rw [hcan, hcur], by rw [hcan, hnext], by rw [hcan, hleave], rfl⟩

theorem sameConf_foldl {α : Type} {f : State → α → State} (hf : ∀ u x, SameConf c u (f u x)) (l : List α) :
    ∀ s : State, SameConf c s (l.foldl f s) := by
  induction l with
  | nil => exact fun s => SameConf.refl c s
  | cons x l ih => exact fun s => (hf s x).trans (ih _)

theorem sameConf_streamHeld (s : State) (b : Nat) : SameConf c s (streamHeld c s b) := by
  unfold streamHeld
  extract_lets x r
  split
  · exact SameConf.setCan rfl rfl rfl rfl
  · exact SameConf.refl c s

theorem sameConf_canRecord (ws : List Word) (s : State) : SameConf c s (canRecord c ws s) := SameConf.setCan rfl rfl rfl rfl

theorem sameConf_setTx (i : Nat) (b : TxBuf) (s : State) : SameConf c s (setTx c i b s) := by
  unfold setTx
  exact SameConf.setCan rfl rfl rfl rfl

theorem sameConf_txReported (i kind cause : Nat) (b : TxBuf) (f : CanFrame) (s : State) : SameConf c s (txReported c i kind cause b f s) := by
  unfold txReported
  extract_lets r s2
  have h2 : SameConf c s s2 := (sameConf_canRecord r s).trans ⟨rfl, rfl, rfl, rfl, rfl⟩
  split
  · split
    · exact sameConf_canRecord r s
    · exact SameConf.refl c s
  · split
    · exact h2.trans (SameConf.of_bus (bus_busRec _ _ _ _ _ _))
    · exact h2

theorem sameConf_txEnd (i kind cause : Nat) (s : State) : SameConf c s (txEnd c i kind cause s) := by
  cases hframe : (canTx s c i).frame with
  | none =>
    rw [txEnd_none kind cause hframe]
    exact SameConf.refl c s
  | some f =>
    rw [txEnd_some kind cause hframe]
    exact (sameConf_setTx i _ s).trans (sameConf_txReported _ _ _ _ _ _)

theorem sameConf_abortAll (s : State) : SameConf c s (abortAll c s) := by
  refine sameConf_foldl (fun u i => ?_) _ s
  split
  · exact sameConf_txEnd i 2 4 u
  · exact SameConf.refl c u

theorem sameConf_canFlow (hc : c < 12) (s : State) : SameConf c s (canFlow c s) := by
  have h := flowed_canFlow hc s
  obtain ⟨o, r, v, hself⟩ := h.self
  exact ⟨by rw [hself], by rw [hself], by rw [hself], by rw [hself], h.mac⟩

/-- The channel at which a configuration has taken effect. -/
def confApplied (x : Can) (n : Sparse Word) : Can :=
  if x.leave then { x with cur := n, next := none, leave := false, txec := 0, rxec := 0, mode := 3, recov := false, pex := false }
  else { x with cur := n, next := none, leave := false }

/-- What applying a configuration does behind the change itself: stream buffers hand on their frames, and a channel that cannot send
ends its requests. -/
theorem applyNext_some {n : Sparse Word} (h : (s.canI c).next = some n) :
    SameConf c (s.setCan c (confApplied (s.canI c) n)) (applyNext c s) := by
  have hfold := sameConf_foldl (c := c) (sameConf_streamHeld (c := c)) (List.range 48) (s.setCan c (confApplied (s.canI c) n))
  unfold applyNext
  extract_lets x
  split
  next hnone => exact absurd (h.symm.trans hnone) (by simp)
  next m hm =>
    obtain rfl : n = m := Option.some.inj (h.symm.trans hm)
    extract_lets y s1
    have hs1 : SameConf c (s.setCan c (confApplied (s.canI c) n)) s1 := hfold
    clear_value s1
    split
    · exact hs1.trans (sameConf_abortAll s1)
    · exact hs1

theorem confApplied_fields (x : Can) (n : Sparse Word) :
    (confApplied x n).cfgd = x.cfgd ∧ (confApplied x n).cur = n ∧ (confApplied x n).next = none ∧ (confApplied x n).leave = false := by
  unfold confApplied
  split <;> exact ⟨rfl, rfl, rfl, rfl⟩

/-- The channel after CFG_END, before its configuration takes effect. -/
def confTaken (s : State) (c : Nat) : Can :=
  { (s.canI c) with cfgd := true, next := some (s.canI c).staged, nextAt := s.fabTime,
                    leave := (s.canI c).leave || leavesBus c (s.canI c).cur (s.canI c).staged }

theorem canCfgEnd_spec (c : Nat) (s : State) : canCfgEnd c s =
    canFlow c (if ((confTaken s c).leave && !(frameUnderWay (s.setCan c (confTaken s c)) c)) || !(s.canI c).cfgd || (s.canI c).mode == 3 then
      applyNext c (s.setCan c (confTaken s c)) else s.setCan c (confTaken s c)) := rfl

theorem canCfgEnd_first (hc : c < 12) (h : (s.canI c).cfgd = false) :
    ((canCfgEnd c s).canI c).cfgd = true ∧ ((canCfgEnd c s).canI c).cur = (s.canI c).staged ∧ ((canCfgEnd c s).canI c).next = none := by
  have heq : canCfgEnd c s = canFlow c (applyNext c (s.setCan c (confTaken s c))) := by
    rw [canCfgEnd_spec, h, if_pos (by simp)]
  have hself : (s.setCan c (confTaken s c)).canI c = confTaken s c := by rw [canI_setCan, if_pos rfl]
  have happly : ((s.setCan c (confTaken s c)).canI c).next = some (s.canI c).staged := by rw [hself]; rfl
  have hconf := (applyNext_some happly).trans (sameConf_canFlow hc _)
  have hat := canI_setCan (s.setCan c (confTaken s c)) c (confApplied ((s.setCan c (confTaken s c)).canI c) (s.canI c).staged) c
  rw [if_pos rfl] at hat
  obtain ⟨h1, h2, h3, -⟩ := confApplied_fields ((s.setCan c (confTaken s c)).canI c) (s.canI c).staged
  rw [heq, hconf.cfgd, hconf.cur, hconf.next, hat, h1, h2, h3, hself]
  exact ⟨rfl, rfl, rfl⟩

theorem canCfgEnd_waits (hc : c < 12) (hcfgd : (s.canI c).cfgd = true) (hmode : (s.canI c).mode ≠ 3) (hway : frameUnderWay s c = true) :
    SameConf c (s.setCan c (confTaken s c)) (canCfgEnd c s) := by
  have hway' : frameUnderWay (s.setCan c (confTaken s c)) c = true := by
    rw [← hway]
    unfold frameUnderWay sending canTx
    rw [canI_setCan, if_pos rfl]
    rfl
  have heq : canCfgEnd c s = canFlow c (s.setCan c (confTaken s c)) := by
    rw [canCfgEnd_spec, hway', hcfgd, if_neg (by simpa using hmode)]
  rw [heq]
  exact sameConf_canFlow hc _

/-! ## CFG_END of a port (R307) -/

variable {p : Nat}

/-- The port after CFG_END, before its configuration takes effect. -/
def macConfTaken (s : State) (p : Nat) : Mac := { (s.macI p) with cfgd := true, next := some (s.macI p).staged, nextAt := s.fabTime }

/-- What of a configuration that waits acts at CFG_END itself: FD. -/
def macFdNow (s : State) (p : Nat) : Sparse Word :=
  sset (regReset (Reg.macPCtrl p)) (s.macI p).cur (Reg.macPCtrl p)
    (setFld (macCtl s p) 1 1 (fld (cfgReg (s.macI p).staged (Reg.macPCtrl p)) 1 1))

theorem macCfgEnd_spec (p : Nat) (s : State) : macCfgEnd p s =
    macShow p (if !(macOn s p) || !(bit (cfgReg (s.macI p).staged (Reg.macPCtrl p)) 0) then macStart p (s.setMac p (macConfTaken s p))
      else macApply p (macFdNow s p) (s.setMac p (macConfTaken s p))) := rfl

theorem macI_macApply (p : Nat) (n : Sparse Word) (s : State) :
    ((macApply p n s).macI p).cfgd = (s.macI p).cfgd ∧ ((macApply p n s).macI p).cur = n ∧ ((macApply p n s).macI p).next = (s.macI p).next ∧
      (macApply p n s).bus.can = s.bus.can := by
  unfold macApply
  extract_lets was x0 s1 ctl x y
  have hx : x = { (s.macI p) with cur := n } := by
    unfold x s1
    rw [macI_setMac, if_pos rfl]
  have hy : y.cfgd = (s.macI p).cfgd ∧ y.cur = n ∧ y.next = (s.macI p).next := by
    unfold y
    rw [hx]
    exact ⟨rfl, rfl, rfl⟩
  obtain ⟨h1, h2, h3⟩ := hy
  clear_value y
  rw [macI_setMac, if_pos rfl]
  split <;> exact ⟨h1, h2, h3, rfl⟩

/-- The status word of a port leaves its configurations. -/
theorem macI_macShow (p : Nat) (s : State) : ((macShow p s).macI p).cfgd = (s.macI p).cfgd ∧ ((macShow p s).macI p).cur = (s.macI p).cur ∧
    ((macShow p s).macI p).next = (s.macI p).next ∧ (macShow p s).bus.can = s.bus.can := by
  obtain ⟨v, hv⟩ := (statusOnly_busNote (12 + p) s).mac p
  unfold macShow
  rw [hv]
  exact ⟨rfl, rfl, rfl, can_busNote (by omega) s⟩

theorem macCfgEnd_now (h : macOn s p = false ∨ bit (cfgReg (s.macI p).staged (Reg.macPCtrl p)) 0 = false) :
    ((macCfgEnd p s).macI p).cfgd = true ∧ ((macCfgEnd p s).macI p).cur = (s.macI p).staged ∧ ((macCfgEnd p s).macI p).next = none ∧
      (macCfgEnd p s).bus.can = s.bus.can := by
  have hself : (s.setMac p (macConfTaken s p)).macI p = macConfTaken s p := by rw [macI_setMac, if_pos rfl]
  have hstart : macStart p (s.setMac p (macConfTaken s p)) = macApply p (s.macI p).staged
      ((s.setMac p (macConfTaken s p)).setMac p { (macConfTaken s p) with next := none }) := by
    unfold macStart
    rw [hself]
    rfl
  obtain ⟨h1, h2, h3, h4⟩ := macI_macShow p (macStart p (s.setMac p (macConfTaken s p)))
  obtain ⟨a1, a2, a3, a4⟩ := macI_macApply p (s.macI p).staged ((s.setMac p (macConfTaken s p)).setMac p { (macConfTaken s p) with next := none })
  rw [macI_setMac, if_pos rfl] at a1 a3
  rw [macCfgEnd_spec, if_pos (by obtain h | h := h <;> simp [h]), h1, h2, h3, h4, hstart, a1, a2, a3, a4]
  exact ⟨rfl, rfl, rfl, rfl⟩

theorem macCfgEnd_waits (hon : macOn s p = true) (hen : bit (cfgReg (s.macI p).staged (Reg.macPCtrl p)) 0 = true) :
    ((macCfgEnd p s).macI p).cfgd = true ∧ ((macCfgEnd p s).macI p).next = some (s.macI p).staged ∧
      ((macCfgEnd p s).macI p).cur = macFdNow s p ∧ (macCfgEnd p s).bus.can = s.bus.can := by
  obtain ⟨h1, h2, h3, h4⟩ := macI_macShow p (macApply p (macFdNow s p) (s.setMac p (macConfTaken s p)))
  obtain ⟨a1, a2, a3, a4⟩ := macI_macApply p (macFdNow s p) (s.setMac p (macConfTaken s p))
  rw [macI_setMac, if_pos rfl] at a1 a3
  rw [macCfgEnd_spec, if_neg (by simp [hon, hen]), h1, h2, h3, h4, a1, a2, a3, a4]
  exact ⟨rfl, rfl, rfl, rfl⟩

theorem execCfgEnd_can {src : Fin 24} (h : src.val < 12) : exec (.cfgEnd src) s = .next (canCfgEnd src.val s) := by
  have heq : exec (.cfgEnd src) s = .next (if src.val < 12 then canCfgEnd src.val s else macCfgEnd (src.val - 12) s) := rfl
  rw [heq, if_pos h]

theorem execCfgEnd_mac {src : Fin 24} (h : 12 ≤ src.val) : exec (.cfgEnd src) s = .next (macCfgEnd (src.val - 12) s) := by
  have heq : exec (.cfgEnd src) s = .next (if src.val < 12 then canCfgEnd src.val s else macCfgEnd (src.val - 12) s) := rfl
  rw [heq, if_neg (Nat.not_lt.mpr h)]

/-! ## BUS_STATUS_WORD -/

theorem statusOf_congr (hcan : t.bus.can = s.bus.can) (hmac : t.bus.mac = s.bus.mac) (hhalf : t.bus.half = s.bus.half)
    (hpow : t.bus.powered = s.bus.powered) (src : Nat) : statusOf t src = statusOf s src := by
  unfold statusOf canStatus macStatus
  rw [canI_of_bus hcan, macI_of_bus hmac, hhalf, hpow]

theorem port_of_ports (h : t.ports = s.ports) (k : Nat) : t.port k = s.port k := by
  unfold State.port
  rw [h]

theorem ports_busStatus (src : Nat) (s : State) : (busStatus src s).ports = (sendIn 10 src [statusOf s src] s).ports := by
  unfold busStatus
  rw [(republish_keeps _ (sub_refl _) (Keeps.refl _ _)).ports rfl, (publish_keeps _ (sub_refl _) (Keeps.refl _ _)).ports rfl]
  split <;> rfl

theorem busStatus_sent (src : Nat) (s : State) : sget 0#32 (busStatus src s).bus.word src = statusOf s src ∧
    ((busStatus src s).port (640 + src)).src = statusOf s src ∧ ((busStatus src s).port (640 + src)).transit = true ∧
    (busStatus src s).bus.cnt = s.bus.cnt := by
  have hport := port_sendIn 10 [statusOf s src] (k := src) (j := 0) Nat.one_pos s
  refine ⟨?_, ?_, ?_, (statusOnly_busStatus src s).cnt⟩
  · rw [bus_busStatus, statusSent]
    split <;> exact sget_sset_same _ _ _ _
  · rw [port_of_ports (ports_busStatus src s)]
    exact congrArg Port.src hport
  · rw [port_of_ports (ports_busStatus src s)]
    exact congrArg Port.transit hport

/-! ## RECOVER (R306) -/

theorem recoverStart_takes (hpow : s.bus.powered = true) (hmode : (s.canI c).mode = 2) (hrec : (s.canI c).recov = false)
    (hauto : bit (canCtl (s.canI c) c) 4 = false) : recoverStart false c s = canShow c (s.setCan c { (s.canI c) with recov := true }) := by
  unfold recoverStart
  exact if_pos ⟨hpow, hmode, by rw [hrec]; decide, hauto⟩

theorem canI_recoverStart (hc : c < 12) (hpow : s.bus.powered = true) (hmode : (s.canI c).mode = 2) (hrec : (s.canI c).recov = false)
    (hauto : bit (canCtl (s.canI c) c) 4 = false) :
    ((recoverStart false c s).canI c).recov = true ∧ ((recoverStart false c s).canI c).mode = 2 ∧
      ((recoverStart false c s).canI c).tx = (s.canI c).tx := by
  obtain ⟨o, r, v, hself⟩ := (flowed_canShow hc (s.setCan c { (s.canI c) with recov := true })).self
  rw [recoverStart_takes hpow hmode hrec hauto, hself, canI_setCan, if_pos rfl]
  exact ⟨rfl, hmode, rfl⟩

/-- Settles O45: each command of a channel or port changes the one record that its row names, and what is pushed and shown behind it
leaves buffers, counters and configurations. -/
theorem canCommands : Obligations.CanCommands := by
  unfold Obligations.CanCommands
  refine ⟨?send, ?abort, ?fetch, ?statsWaits, ?statsPushed, ?recover, ?selectCan, ?selectMac, ?selectNone, ?first, ?macNow, ?macWaits, ?waits,
    ?word⟩
  case send =>
    intro c mask s _ hcan
    exact ⟨_, rfl, (canSend_keeps c.val mask.toNat (sub_refl _) (Keeps.refl _ s)).frame rfl, fun i hi => canTx_canSend c.isLt hcan hi⟩
  case abort =>
    intro c mask s _
    have hat (i : Nat) := canTx_canAbort c.isLt mask.toNat i s
    refine ⟨_, rfl, (canAbort_keeps c.val mask.toNat (sub_refl _) (Keeps.refl _ s)).frame rfl, ?_, ?_, ?_⟩
    · intro i hi hreq hbit hon
      rw [hat, if_pos ⟨hi, hbit⟩, aborted_onBus hreq hon]
    · intro i hi hreq hbit hon hframe
      rw [hat, if_pos ⟨hi, hbit⟩, aborted_idle hreq hon hframe]
      rfl
    · intro i _ hbit
      rw [hat, if_neg (fun h => by simp [hbit] at h)]
  case fetch =>
    intro c b ts q s _ hb hout hframe hq hroom hmax
    exact ⟨_, rfl, (canFetch_keeps c.val b.toNat ts (sub_refl _) (Keeps.refl _ s)).frame rfl, fetched_canFetch c.isLt hb hout hframe hq hroom hmax⟩
  case statsWaits =>
    intro src s _ hsnap hroom
    have hwaits : snapPump src.val (snapTaken s src.val) = snapTaken s src.val :=
      snapPump_waits (snap_snapTaken s src.val) (by rw [length_snapOf]; exact hroom)
    have hstat := statusOnly_busNote src.val (snapTaken s src.val)
    refine ⟨_, rfl, (busNote_keeps src.val (sub_of (sub_refl 274881938538) rfl) (busStats_keeps src.val (sub_refl _) (Keeps.refl _ s))).frame rfl, ?_⟩
    rw [busStats_spec hsnap, hwaits, hstat.snap, hstat.half, hstat.cnt, quem_busNote]
    exact ⟨snap_snapTaken s src.val, half_snapTaken s src.val, rfl, rfl⟩
  case statsPushed =>
    intro src q s _ hsnap hq hroom hmax
    have hstat := statusOnly_busNote src.val (busStats src.val s)
    refine ⟨_, rfl, (busNote_keeps src.val (sub_of (sub_refl 274881938538) rfl) (busStats_keeps src.val (sub_refl _) (Keeps.refl _ s))).frame rfl, ?_⟩
    rw [qLevel_busNote src.isLt, hstat.snap, hstat.half]
    exact busStats_pushed src.isLt hsnap hq hroom hmax
  case recover =>
    intro c s hpow hmode hrec hauto
    exact ⟨_, rfl, (recoverStart_keeps false c.val (sub_refl _) (Keeps.refl _ s)).frame rfl, canI_recoverStart c.isLt hpow hmode hrec hauto⟩
  case selectCan =>
    intro src idx value a s _ hsrc ha
    refine ⟨_, rfl, (canSelect_keeps src.val idx.toNat value (sub_refl _) (Keeps.refl _ s)).frame rfl, ?_⟩
    unfold canSelect
    rw [ha]
    dsimp only
    rw [if_pos hsrc, canI_setCan, if_pos rfl]
    exact ⟨rfl, rfl⟩
  case selectMac =>
    intro src idx value a s _ hsrc ha
    refine ⟨_, rfl, (canSelect_keeps src.val idx.toNat value (sub_refl _) (Keeps.refl _ s)).frame rfl, ?_⟩
    unfold canSelect
    rw [ha]
    dsimp only
    rw [if_neg (Nat.not_lt.mpr hsrc), macI_setMac, if_pos rfl]
    exact ⟨rfl, rfl⟩
  case selectNone =>
    intro src idx value s ha
    refine ⟨_, rfl, (canSelect_keeps src.val idx.toNat value (sub_refl _) (Keeps.refl _ s)).frame rfl, ?_⟩
    unfold canSelect
    rw [ha]
  case first =>
    intro src s _ hsrc hcfgd
    exact ⟨_, execCfgEnd_can hsrc, (canCfgEnd_keeps src.val (sub_refl _) (Keeps.refl _ s)).frame rfl, canCfgEnd_first hsrc hcfgd⟩
  case macNow =>
    intro src s hsrc h
    exact ⟨_, execCfgEnd_mac hsrc, (macCfgEnd_keeps (src.val - 12) (sub_refl _) (Keeps.refl _ s)).frame rfl,
      macCfgEnd_now h⟩
  case macWaits =>
    intro src s hsrc hon hen
    exact ⟨_, execCfgEnd_mac hsrc, (macCfgEnd_keeps (src.val - 12) (sub_refl _) (Keeps.refl _ s)).frame rfl,
      macCfgEnd_waits hon hen⟩
  case waits =>
    intro src s hsrc hcfgd hmode hway
    have hconf := canCfgEnd_waits hsrc hcfgd hmode hway
    have hself : (s.setCan src.val (confTaken s src.val)).canI src.val = confTaken s src.val := by rw [canI_setCan, if_pos rfl]
    refine ⟨_, execCfgEnd_can hsrc, (canCfgEnd_keeps src.val (sub_refl _) (Keeps.refl _ s)).frame rfl, ?_⟩
    rw [hconf.next, hconf.cur, hconf.leave, hconf.mac, hself]
    exact ⟨rfl, rfl, rfl, rfl⟩
  case word =>
    intro src s _
    obtain ⟨hcan, hmac, hcnt, hhalf, hpow⟩ := bus_snapPump_fields src.val s
    obtain ⟨h1, h2, h3, h4⟩ := busStatus_sent src.val (snapPump src.val s)
    rw [statusOf_congr hcan hmac hhalf hpow] at h1 h2
    exact ⟨_, rfl, (busStatus_keeps src.val (sub_of (sub_refl 274881938538) rfl) (snapPump_keeps src.val (sub_refl _) (Keeps.refl _ s))).frame rfl, h1, h2, h3,
      h4.trans hcnt⟩

end Sys2Proof.Machine
end

section
/-! PROOFS. The traffic of a CAN channel: O46 fails at the load of a transmit record. -/

namespace Sys2Proof.Machine

/-- A state whose queue 0 has both ends on the local-bus island: snapshots go in, the transmit records of channel 0 come out. One
record lies in it, and a snapshot of channel 0 waits. -/
def snapBehindRecord : State :=
  { State.reset with
    regs := [(Reg.queQCfg 0, 0x00100000#32), (Reg.queQEnds 0, 0x8A0C8A30#32), (Reg.queQLevel 0, 2#32)],
    quem := memPutW State.reset.quem 4 0x00300000#32,
    bus := { State.reset.bus with powered := true, snap := [(0, [7#32])] } }

/-- The record's two words go, and the snapshot takes a place. -/
theorem qLevel_canLoad_snapBehindRecord : qLevel (canLoad 0 snapBehindRecord) 0 = 1 := by decide +kernel

/-- Refutes O46: the words give the level of the transmit queue after CAN_TX_RECORD_LOAD as the level before less the record, but
where the queue is also the one that takes the island's snapshots, the load pushes the snapshot that waited into the room it made. -/
theorem not_canTraffic : ¬ Obligations.CanTraffic := by
  unfold Obligations.CanTraffic
  intro h
  obtain ⟨-, -, -, hload, -⟩ := h
  obtain ⟨t, hexec, -, hlevel, -⟩ := hload 0 0 snapBehindRecord (by decide +kernel) (by decide +kernel) (by decide +kernel) (by decide +kernel)
    (by decide +kernel) (by decide +kernel) (by decide +kernel) (by decide +kernel) (by decide +kernel) (by decide +kernel)
  have ht : canLoad 0 snapBehindRecord = t := Host.Outcome.next.inj hexec
  rw [← ht, qLevel_canLoad_snapBehindRecord] at hlevel
  exact absurd hlevel (by decide +kernel)

end Sys2Proof.Machine
end

section
/-! PROOFS. The T1S ports: O47 fails at the pop of a transmit record. -/

namespace Sys2Proof.Machine

/-- A state whose queue 0 has both ends on the local-bus island: snapshots go in, the transmit records of port 0 come out. One
record of 14 bytes lies in it, and a snapshot of port 0 waits. -/
def snapBehindFrame : State :=
  { State.reset with
    regs := [(Reg.queQCfg 0, 0x00100000#32), (Reg.queQEnds 0, 0x8A248A30#32), (Reg.queQLevel 0, 5#32)],
    quem := memPutW State.reset.quem 0 14#32,
    bus := { State.reset.bus with
      powered := true, snap := [(12, [7#32])],
      mac := [(0, { (State.reset.macI 0) with cfgd := true, cur := [(Reg.macPCtrl 0, 1#32)] })] } }

/-- The record's five words go, and the snapshot takes a place. -/
theorem qLevel_macPop_snapBehindFrame : qLevel (macPop 0 snapBehindFrame) 0 = 1 := by decide +kernel

/-- Refutes O47: the words give the level of the transmit queue after T1S_TX_RECORD_POP as the level before less the record, but
where the queue is also the one that takes the island's snapshots, the pop pushes the snapshot that waited into the room it made. -/
theorem not_t1sPorts : ¬ Obligations.T1sPorts := by
  unfold Obligations.T1sPorts
  intro h
  obtain ⟨-, -, -, hpop, -⟩ := h
  obtain ⟨t, hexec, -, hlevel, -⟩ := hpop 0 0 snapBehindFrame (by decide +kernel) (by decide +kernel) (by decide +kernel) (by decide +kernel)
    (by decide +kernel) (by decide +kernel)
  have ht : macPop 0 snapBehindFrame = t := Host.Outcome.next.inj hexec
  rw [← ht, qLevel_macPop_snapBehindFrame] at hlevel
  exact absurd hlevel (by decide +kernel)

end Sys2Proof.Machine
end

section
/-! PROOFS. The registers of block PAR across the operations of the pair (chapter 12). -/

namespace Sys2Proof.Machine

variable {s t : State} {a : Nat}

/-- A register of block PAR that no record of the signal box shows. -/
def ParReg (a : Nat) : Prop := 0xA0000 ≤ a ∧ a < 0xA0104

theorem ParReg.aloof (h : ParReg a) : Aloof a := by
  unfold ParReg at h
  unfold Aloof Reg.logEvt
  omega

theorem reg_parShow_other (h : ParReg a) (hstat : a ≠ Reg.parStat) (hknown : a ≠ Reg.parKnown) (before s : State) :
    (parShow before s).reg a = s.reg a := reg_parShow h.1 h.2 before s hstat hknown

/-- Of PAR_STAT the showing writes bit 3, HOLD, alone. -/
theorem parStat_reg_parShow (before s : State) : (parShow before s).reg Reg.parStat = (s.setRb Reg.parStat 3 (holdsTablet s)).reg Reg.parStat :=
  (reg_parShow_own (by decide) (by decide) before s).trans (reg_setRf_ne _ _ _ (by decide))

theorem rb_parStat_parShow {i : Nat} (hi : i < 32) (hne : i ≠ 3) (before s : State) :
    (parShow before s).rb Reg.parStat i = s.rb Reg.parStat i :=
  (rb_of_reg (parStat_reg_parShow before s) i).trans (rb_setRb_other _ (by decide) hi hne)

theorem parState_of_reg (h : t.reg Reg.parStat = s.reg Reg.parStat) : parState t = parState s := rf_of_reg h 2 0

theorem parState_parShow (before s : State) : parState (parShow before s) = parState s :=
  (parState_of_reg (parStat_reg_parShow before s)).trans (rf_setRb_other _ (by decide) (by decide) (by decide) (by decide))

theorem parState_setRb {i : Nat} (hi : 3 ≤ i) (h32 : i < 32) (v : Bool) (s : State) : parState (s.setRb Reg.parStat i v) = parState s :=
  rf_setRb_other v h32 (by decide) (by decide) (Or.inr hi)

/-! ## Records and states -/

theorem reg_parRec (h : ParReg a) (code sev subject : Nat) (d : List Word) (s : State) : (parRec s code sev subject d).reg a = s.reg a :=
  reg_logOnce_aloof h.aloof _ _ _ _ _ s

theorem pair_parRec (code sev subject : Nat) (d : List Word) (s : State) : (parRec s code sev subject d).pair = s.pair :=
  (logOnce_keeps code 0xA sev subject d (sub_refl _) (Keeps.refl _ s)).pair rfl

theorem reg_setParState (h : ParReg a) (hne : a ≠ Reg.parStat) (n : Nat) (s : State) : (setParState n s).reg a = s.reg a := by
  unfold setParState
  split
  · rfl
  · exact (reg_append _ _ _ _ _ h.aloof.1).trans (reg_setRf_ne _ _ _ hne)

theorem parState_setParState {n : Nat} (hn : n < 8) (s : State) : parState (setParState n s) = n := by
  unfold setParState
  split
  next h => exact h
  next =>
    refine (parState_of_reg (reg_append _ _ _ _ _ (by decide))).trans ?_
    exact (rf_setRf_same _ _ _ _ _ (by decide) (by decide)).trans (Nat.mod_eq_of_lt hn)

theorem rb_setParState {i : Nat} (hi : 3 ≤ i) (h32 : i < 32) (n : Nat) (s : State) :
    (setParState n s).rb Reg.parStat i = s.rb Reg.parStat i := by
  unfold setParState
  split
  · rfl
  · exact (rb_of_reg (reg_append _ _ _ _ _ (by decide)) i).trans (rb_setRf_out 2 0 n (by decide) (by decide) h32 (Or.inl (by omega)))

theorem pair_setParState (n : Nat) (s : State) : (setParState n s).pair = s.pair := (setParState_keeps n (sub_refl _) (Keeps.refl _ s)).pair rfl

theorem reg_setLease_other (hne : a ≠ Reg.parLease) (n : Nat) (s : State) : (setLease n s).reg a = s.reg a := reg_setReg_ne _ hne

/-! ## Cells -/

theorem reg_sendByTable (h : ParReg a) (ws : List Word) (s : State) : (sendByTable ws s).reg a = s.reg a := by
  obtain ⟨hlo, hhi⟩ := h
  have hal : Aloof a := ParReg.aloof ⟨hlo, hhi⟩
  unfold sendByTable
  split
  next l det _ =>
    extract_lets c s1
    have h1 : s1.reg a = s.reg a := by
      unfold s1
      split
      · exact reg_txPush_aloof hal _ _ _ s
      · rfl
    split
    · exact (reg_setReg_ne _ (by unfold Reg.fabDetours; omega)).trans h1
    · exact h1
  next =>
    refine (reg_logOnce_aloof hal _ _ _ _ _ _).trans ((reg_orReg_ne _ ?_).trans (reg_satRf_ne _ _ _ ?_))
    · unfold Reg.fabEvt; omega
    · unfold Reg.fabRouteStat; omega

theorem reg_routeOwn (h : ParReg a) (ws : List Word) (s : State) : (routeCell none ws s).reg a = s.reg a := by
  unfold routeCell
  split
  · rfl
  · exact (reg_republish _ _).trans (reg_sendByTable h _ s)

theorem reg_pairCell (h : ParReg a) (dest : Nat) (payload : List Byte) (s : State) : (pairCell dest payload s).reg a = s.reg a :=
  reg_routeOwn h _ _

theorem pair_pairCell (dest : Nat) (payload : List Byte) (s : State) : (pairCell dest payload s).pair = s.pair :=
  (pairCell_keeps dest payload (sub_refl _) (Keeps.refl _ s)).pair rfl

theorem reg_kindCell (h : ParReg a) (k : PairCell) (s : State) : (kindCell k s).reg a = s.reg a := reg_pairCell h _ _ _

theorem pair_kindCell (k : PairCell) (s : State) : (kindCell k s).pair = { s.pair with cell := some k, cells := s.pair.cells + 1 } :=
  pair_pairCell _ _ _

/-! ## Fault reports -/

theorem reg_originate (h : ParReg a) (dest tenant type flags : Nat) (payload : List Byte) (s : State) :
    (originate dest tenant type flags payload s).reg a = s.reg a := reg_routeOwn h _ _

theorem reg_coalFlush (h : ParReg a) (i : Nat) (s : State) : (coalFlush i s).reg a = s.reg a := by
  unfold coalFlush
  split
  · rfl
  · dsimp only
    split
    · rfl
    · refine (reg_originate h _ _ _ _ _ _).trans (reg_setRf_ne _ _ _ ?_)
      unfold ParReg at h
      unfold Reg.fabCoalCnt
      omega

theorem reg_coalRoom (h : ParReg a) (s : State) : (coalRoom s).reg a = s.reg a := by
  have hne : a ≠ Reg.fabCoalStat ∧ a ≠ Reg.fabEvt := by
    unfold ParReg at h
    unfold Reg.fabCoalStat Reg.fabEvt
    omega
  unfold coalRoom
  split
  · rfl
  · split
    · rfl
    · exact (reg_logOnce_aloof h.aloof _ _ _ _ _ _).trans
        ((reg_coalFlush h _ _).trans ((reg_satRf_ne _ _ _ hne.1).trans (reg_orReg_ne _ hne.2)))

theorem reg_coalShow (h : ParReg a) (s : State) : (coalShow s).reg a = s.reg a := by
  refine (reg_republish _ _).trans (reg_setRf_ne _ _ _ ?_)
  unfold ParReg at h
  unfold Reg.fabCoalStat
  omega

theorem reg_coalesce (h : ParReg a) (r : FaultRep) (dest : Nat) {send : State → State} (hsend : ∀ u : State, (send u).reg a = u.reg a) (s : State) :
    (coalesce r dest send s).reg a = s.reg a := by
  have hne : a ≠ Reg.fabCoalCnt := by
    unfold ParReg at h
    unfold Reg.fabCoalCnt
    omega
  unfold coalesce
  split
  · exact (reg_coalShow h _).trans ((hsend _).trans ((reg_setRf_ne _ _ _ hne).trans (reg_coalRoom h s)))
  · exact reg_coalShow h _

theorem reg_faultOwn (h : ParReg a) (subject fclass : Nat) (detail : List Byte) (s : State) : (faultOwn subject fclass detail s).reg a = s.reg a := by
  unfold faultOwn
  dsimp only
  split
  · rfl
  · exact reg_coalesce h _ _ (reg_originate h _ _ _ _ _) s

theorem pair_faultOwn (subject fclass : Nat) (detail : List Byte) (s : State) : (faultOwn subject fclass detail s).pair = s.pair :=
  (faultOwn_keeps subject fclass detail (sub_refl _) (Keeps.refl _ s)).pair rfl

/-! ## The values commanded in SAFE (R334) -/

theorem reg_putWaiting (h : ParReg a) {g : Nat} (hg : g < 6) (s : State) : (putWaiting s g).reg a = s.reg a := by
  refine reg_setRf_ne _ _ _ ?_
  unfold ParReg at h
  unfold Reg.pwrAgWait
  omega

theorem reg_setLedger (h : ParReg a) {g : Nat} (hg : g < 6) (b f : Nat) (s : State) : (setLedger s g b f).reg a = s.reg a := by
  refine reg_setReg_ne _ ?_
  unfold ParReg at h
  unfold Reg.pwrAgLedger
  omega

theorem reg_admitWaits (h : ParReg a) {g : Nat} (hg : g < 6) (l : List Wait) : ∀ s : State, (admitWaits g l s).reg a = s.reg a := by
  induction l with
  | nil => exact fun _ => rfl
  | cons x l ih =>
    intro s
    unfold admitWaits
    dsimp only
    split
    · refine (ih _).trans ((reg_setRf_ne _ _ _ ?_).trans (reg_setLedger h hg _ _ s))
      unfold ParReg at h
      unfold Reg.pwrAgCount
      omega
    · rfl

theorem reg_gateWrite (h : ParReg a) {g : Nat} (hg : g < 6) (w : Word) (s : State) : (gateWrite s g w).2.reg a = s.reg a := by
  have hne : a ≠ Reg.dioDoCmd g ∧ a ≠ Reg.aioAgCmd (g - 2) := by
    unfold ParReg at h
    unfold Reg.dioDoCmd Reg.aioAgCmd
    omega
  unfold gateWrite
  extract_lets n cmd s1 s2 drv ack
  have h2 : s2.reg a = s.reg a := (reg_putWaiting h hg _).trans (reg_admitWaits h hg _ s1)
  split
  · exact (reg_setReg_ne _ hne.1).trans h2
  · exact (reg_setReg_ne _ hne.2).trans h2

theorem reg_sendOut (h : ParReg a) (p : Nat) (w : Word) (s : State) : (s.sendOut p w).reg a = s.reg a := by
  have hdef : (s.sendOut p w).reg a = (if (s.port p).transit then s.overrun p else s).reg a := rfl
  rw [hdef]
  split
  · exact reg_overrun_aloof h.aloof p s
  · rfl

theorem reg_gatedOut (h : ParReg a) {g : Nat} (hg : g < 6) (w : Word) (s : State) : (gatedOut g w s).reg a = s.reg a :=
  (reg_sendOut h _ _ _).trans (reg_gateWrite h hg w s)

theorem reg_aoutSend (h : ParReg a) (p : Nat) (w : Word) (s : State) : (aoutSend p w s).reg a = s.reg a := by
  refine (reg_sendOut h _ _ _).trans ?_
  unfold noteAout
  split
  · refine reg_setReg_ne _ ?_
    unfold ParReg at h
    unfold Reg.aioAgChOut
    omega
  · rfl

theorem reg_safeChannel (s : State) (i : Nat) : (safeChannel s i).reg a = s.reg a := by
  unfold State.reg
  rw [(safeChannel_keeps i (sub_refl _) (Keeps.refl _ s)).regs rfl]

theorem reg_safeValues (h : ParReg a) (s : State) : (safeValues s).reg a = s.reg a := by
  unfold safeValues
  extract_lets s0 s1
  have h1 : s1.reg a = s.reg a :=
    (reg_gatedOut h (by decide) _ _).trans ((reg_gatedOut h (by decide) _ _).trans (reg_foldl_of (fun u i _ => reg_safeChannel u i) s))
  refine (reg_foldl_of (fun u k hk => ?_) s1).trans h1
  have hk4 : k < 4 := List.mem_range.mp hk
  exact (reg_gatedOut h (by omega) _ _).trans (reg_foldl_of (fun v c _ => reg_aoutSend h _ _ v) u)

theorem reg_hbContent (hlt : a < 0xA0040) (s : State) : (hbContent s).reg a = s.reg a := by
  have hne (i : Nat) : a ≠ Reg.parHbTx i := by
    unfold Reg.parHbTx
    omega
  unfold hbContent
  rw [reg_setReg_ne _ (hne 5), reg_setReg_ne _ (hne 4), reg_setReg_ne _ (hne 3), reg_setReg_ne _ (hne 1), reg_setReg_ne _ (hne 0)]

end Sys2Proof.Machine
end

section
/-! PROOFS. The heartbeats, requests, grants and states of a pair member (R325 to R341): O48. -/

namespace Sys2Proof.Machine

variable {s t : State} {a : Nat}

theorem rf_satRf_same (s : State) (a hi lo k : Nat) (h : lo ≤ hi) (h32 : hi < 32) :
    (s.satRf a hi lo k).rf a hi lo = min (s.rf a hi lo + k) (2 ^ (hi + 1 - lo) - 1) := by
  unfold State.rf
  rw [reg_satRf, if_pos rfl, fld_satFld _ _ _ _ h h32]

theorem rf_satRf_out (hi lo k : Nat) {hi2 lo2 : Nat} (h : lo ≤ hi) (h32 : hi < 32) (h2 : lo2 ≤ hi2) (h232 : hi2 < 32)
    (hout : hi < lo2 ∨ hi2 < lo) : (s.satRf a hi lo k).rf a hi2 lo2 = s.rf a hi2 lo2 :=
  rf_setRf_out hi lo _ h h32 h2 h232 hout

theorem pair_parStep (f : State → State) (s : State) : (parStep f s).pair = (f s).pair := pair_parShow s (f s)

theorem reg_parStep (h : ParReg a) (hstat : a ≠ Reg.parStat) (hknown : a ≠ Reg.parKnown) (f : State → State) (s : State) :
    (parStep f s).reg a = (f s).reg a := reg_parShow_other h hstat hknown s (f s)

theorem rb_parStep (h : ParReg a) (hstat : a ≠ Reg.parStat) (hknown : a ≠ Reg.parKnown) (f : State → State) (s : State) (i : Nat) :
    (parStep f s).rb a i = (f s).rb a i := rb_of_reg (reg_parStep h hstat hknown f s) i

theorem rf_parStep (h : ParReg a) (hstat : a ≠ Reg.parStat) (hknown : a ≠ Reg.parKnown) (f : State → State) (s : State) (hi lo : Nat) :
    (parStep f s).rf a hi lo = (f s).rf a hi lo := rf_of_reg (reg_parStep h hstat hknown f s) hi lo

theorem rb_parStat_parStep {i : Nat} (hi : i < 32) (hne : i ≠ 3) (f : State → State) (s : State) :
    (parStep f s).rb Reg.parStat i = (f s).rb Reg.parStat i := rb_parStat_parShow hi hne s (f s)

theorem fab_routeOwn (ws : List Word) (s : State) : (routeCell none ws s).fab = s.fab := by
  unfold routeCell
  split
  · rfl
  · exact (republish_keeps fabRegs (sub_of (sub_refl 274881938538) rfl) (sendByTable_keeps _ (sub_refl _) (Keeps.refl _ s))).fab rfl

/-- A pair cell uses the next SEQ of its TYPE. -/
theorem seq_pairCell (dest : Nat) (payload : List Byte) (s : State) : sget 0 (pairCell dest payload s).fab.seq (s.rf Reg.parCfg 15 8 * 256) =
    (sget 0 s.fab.seq (s.rf Reg.parCfg 15 8 * 256) + 1) % 65536 := by
  have h : (pairCell dest payload s).fab = (mkCell dest 2 0 0 (s.rf Reg.parCfg 15 8) 0 payload s).2.fab := fab_routeOwn _ _
  rw [h, seq_mkCell, Nat.add_zero]
  exact sget_sset_same _ _ _ _

/-! ## Heartbeats -/

theorem sends_of (hen : parEn s = true) (hrel : s.eng.released = true) (hrun : s.rb Reg.tteStat 3 = false) : sendsHeartbeats s = true := by
  unfold sendsHeartbeats
  rw [hen, hrel, hrun]
  rfl

theorem heartbeatSend_spec (h : sendsHeartbeats s = true) :
    heartbeatSend s = agePath 31 16 (agePath 15 0 (({ s with pair := { s.pair with linkSent := hbWords s } }).addReg (Reg.parHbTx 6) 1)) := by
  unfold heartbeatSend
  exact if_neg (by simp [h])

theorem heartbeatSend_sent (h : sendsHeartbeats s = true) :
    (heartbeatSend s).pair = { s.pair with linkSent := hbWords s } ∧ (heartbeatSend s).reg (Reg.parHbTx 6) = s.reg (Reg.parHbTx 6) + 1#32 ∧
      (heartbeatSend s).rf Reg.parHbAge 15 0 = min (s.rf Reg.parHbAge 15 0 + 1) 65535 := by
  rw [heartbeatSend_spec h]
  refine ⟨rfl, ?_, ?_⟩
  · exact (reg_satRf_ne _ _ _ (by decide)).trans ((reg_satRf_ne _ _ _ (by decide)).trans (reg_setReg_same _ _ _))
  · refine (rf_satRf_out 31 16 1 (by decide) (by decide) (by decide) (by decide) (Or.inr (by decide))).trans ?_
    refine (rf_satRf_same _ _ _ _ _ (by decide) (by decide)).trans ?_
    exact congrArg (fun x => min (x + 1) 65535) (rf_of_reg (reg_setReg_ne _ (by decide)) 15 0)

theorem fabricHeartbeat_sent (h : sendsHeartbeats s = true) : (fabricHeartbeat s).pair = { s.pair with fabSent := hbWords s } ∧
    sget 0 (fabricHeartbeat s).fab.seq (s.rf Reg.parCfg 15 8 * 256) = (sget 0 s.fab.seq (s.rf Reg.parCfg 15 8 * 256) + 1) % 65536 := by
  have heq : fabricHeartbeat s =
      pairCell (partner s) (leBytes 4 1 ++ wordBytes (hbWords s)) { s with pair := { s.pair with fabSent := hbWords s } } := by
    unfold fabricHeartbeat
    exact if_neg (by simp [h])
  have hseq := seq_pairCell (partner s) (leBytes 4 1 ++ wordBytes (hbWords s)) { s with pair := { s.pair with fabSent := hbWords s } }
  rw [heq]
  exact ⟨pair_pairCell _ _ _, hseq⟩

/-! ## A heartbeat received (R329) -/

/-- The link path and the partner are reachable: the path's registers and what the heartbeat says. -/
def linkHeard (ws : List Word) (s : State) : State :=
  (List.range 8).foldl (fun t i => t.setReg (Reg.parHbRx i) (ws.getD i 0#32)) ((s.setRf Reg.parHbAge 15 0 0).setRb Reg.parStat 4 true)

theorem reg_foldl_parHbRx (ws : List Word) (l : List Nat) (hnd : l.Nodup) :
    ∀ s : State, ∀ i ∈ l, (l.foldl (fun t i => t.setReg (Reg.parHbRx i) (ws.getD i 0#32)) s).reg (Reg.parHbRx i) = ws.getD i 0#32 := by
  induction l with
  | nil => exact fun _ _ h => absurd h List.not_mem_nil
  | cons k l ih =>
    obtain ⟨hk, hnd⟩ := List.nodup_cons.mp hnd
    intro s i hi
    obtain rfl | hi := List.mem_cons.mp hi
    · rw [List.foldl_cons]
      refine (reg_foldl_of (fun t j hj => reg_setReg_ne _ ?_) _).trans (reg_setReg_same _ _ _)
      have hne : i ≠ j := fun h => hk (h ▸ hj)
      unfold Reg.parHbRx
      omega
    · exact ih hnd _ i hi

theorem linkHeard_heard (ws : List Word) (s : State) : (linkHeard ws s).rf Reg.parHbAge 15 0 = 0 ∧ (linkHeard ws s).rb Reg.parStat 4 = true ∧
    (linkHeard ws s).reg (Reg.parHbRx 3) = ws.getD 3 0#32 := by
  have hother {a : Nat} (hlt : a < 0xA0060 ∨ 0xA0080 ≤ a) (u : State) :
      ((List.range 8).foldl (fun t i => t.setReg (Reg.parHbRx i) (ws.getD i 0#32)) u).reg a = u.reg a := by
    refine reg_foldl_of (fun t i hi => reg_setReg_ne _ ?_) u
    have := List.mem_range.mp hi
    unfold Reg.parHbRx
    omega
  refine ⟨?_, ?_, reg_foldl_parHbRx ws _ List.nodup_range _ 3 (by decide)⟩
  · unfold linkHeard
    rw [rf_of_reg ((hother (a := Reg.parHbAge) (Or.inr (by decide)) _).trans (reg_setRb_ne _ _ (by decide))) 15 0]
    exact rf_setRf_same _ _ _ _ _ (by decide) (by decide)
  · unfold linkHeard
    rw [rb_of_reg (hother (a := Reg.parStat) (Or.inl (by decide)) _) 4]
    exact rb_setRb_same _ _ _ _ (by decide)

/-- What a good heartbeat over the pair link leaves, whatever else it brings about. -/
structure Heard (ws : List Word) (s u : State) : Prop where
  age : u.rf Reg.parHbAge 15 0 = 0
  path : u.rb Reg.parStat 4 = true
  lease : u.reg (Reg.parHbRx 3) = ws.getD 3 0#32
  req : u.pair.partnerReq = some (fld (ws.getD 2 0#32) 15 0)
  lost : u.pair.lostUs = 0
  link : u.pair.lostPl = false
  fabric : u.pair.lostFb = s.pair.lostFb
  state : u.pair.partnerState = fld (ws.getD 1 0#32) 2 0

/-- The path's registers written, with HOLD and the pair's own record of the heartbeat. -/
theorem heard_of_link {ws : List Word} {u : State} {p : Pair} (h : u.rf Reg.parHbAge 15 0 = 0 ∧ u.rb Reg.parStat 4 = true ∧
    u.reg (Reg.parHbRx 3) = ws.getD 3 0#32) (hold : Bool) (hreq : p.partnerReq = some (fld (ws.getD 2 0#32) 15 0)) (hlost : p.lostUs = 0)
    (hlink : p.lostPl = false) (hfab : p.lostFb = s.pair.lostFb) (hstate : p.partnerState = fld (ws.getD 1 0#32) 2 0) :
    Heard ws s { (u.setRb Reg.parStat 7 hold) with pair := p } := by
  obtain ⟨hage, hpath, hrx⟩ := h
  refine ⟨?_, ?_, ?_, hreq, hlost, hlink, hfab, hstate⟩
  · exact (rf_of_reg (reg_setRb_ne (s := u) 7 hold (by decide)) 15 0).trans hage
  · exact (rb_setRb_other (s := u) hold (by decide) (by decide) (by decide)).trans hpath
  · exact (reg_setRb_ne (s := u) 7 hold (by decide)).trans hrx

theorem Heard.of_pair {ws : List Word} {u v : State} (h : Heard ws s u) (hage : v.rf Reg.parHbAge 15 0 = u.rf Reg.parHbAge 15 0)
    (hpath : v.rb Reg.parStat 4 = u.rb Reg.parStat 4) (hrx : v.reg (Reg.parHbRx 3) = u.reg (Reg.parHbRx 3)) (hpair : v.pair = u.pair) :
    Heard ws s v := by
  obtain ⟨h1, h2, h3, h4, h5, h6, h7, h8⟩ := h
  refine ⟨hage.trans h1, hpath.trans h2, hrx.trans h3, ?_, ?_, ?_, ?_, ?_⟩ <;> rw [hpair] <;> assumption

theorem Heard.of_regs {ws : List Word} {u v : State} (h : Heard ws s u)
    (hreg : ∀ b, b = Reg.parHbAge ∨ b = Reg.parStat ∨ b = Reg.parHbRx 3 → v.reg b = u.reg b) (hpair : v.pair = u.pair) : Heard ws s v :=
  h.of_pair (rf_of_reg (hreg _ (Or.inl rfl)) 15 0) (rb_of_reg (hreg _ (Or.inr (Or.inl rfl))) 4) (hreg _ (Or.inr (Or.inr rfl))) hpair

theorem Heard.ite {ws : List Word} {u v : State} {p : Prop} [Decidable p] (hu : Heard ws s u) (hv : Heard ws s v) :
    Heard ws s (if p then u else v) := by
  split
  · exact hu
  · exact hv

theorem heardReg {b : Nat} (hb : b = Reg.parHbAge ∨ b = Reg.parStat ∨ b = Reg.parHbRx 3) :
    ParReg b ∧ b ≠ Reg.parEvt ∧ b ≠ Reg.parLease ∧ b ≠ Reg.parHbTx 2 := by
  unfold ParReg
  obtain rfl | rfl | rfl := hb <;> decide

/-- A conflict noted in PAR_EVT and the log. -/
def conflictNoted (st sb : Nat) (s : State) : State := parRec (s.orReg Reg.parEvt 0x80) 0xA08 12 st [w32 st, w32 sb]

theorem Heard.conflict {ws : List Word} {u : State} (h : Heard ws s u) (st sb : Nat) : Heard ws s (conflictNoted st sb u) :=
  h.of_regs (fun _ hb => (reg_parRec (heardReg hb).1 _ _ _ _ _).trans (reg_orReg_ne _ (heardReg hb).2.1)) (pair_parRec _ _ _ _ _)

theorem Heard.ownGrant {ws : List Word} {u : State} (h : Heard ws s u) (req : Nat) : Heard ws s (ownGrant req u) := by
  have hreg (b : Nat) (hb : b = Reg.parHbAge ∨ b = Reg.parStat ∨ b = Reg.parHbRx 3) : (Machine.ownGrant req u).reg b = u.reg b :=
    reg_setRf_ne 31 16 req (heardReg hb).2.2.2
  obtain ⟨h1, h2, h3, h4, h5, h6, h7, h8⟩ := h
  exact ⟨(rf_of_reg (hreg _ (Or.inl rfl)) 15 0).trans h1, (rb_of_reg (hreg _ (Or.inr (Or.inl rfl))) 4).trans h2,
    (hreg _ (Or.inr (Or.inr rfl))).trans h3, h4, h5, h6, h7, h8⟩

theorem Heard.stand {ws : List Word} {u : State} (h : Heard ws s u) : Heard ws s (setParState 3 (setLease 0 u)) := by
  have hpair : (setParState 3 (setLease 0 u)).pair = u.pair := pair_setParState 3 _
  refine h.of_pair ?_ ?_ ?_ hpair
  · exact rf_of_reg ((reg_setParState (by unfold ParReg; decide) (by decide) 3 _).trans (reg_setLease_other (by decide) 0 u)) 15 0
  · exact (rb_setParState (by decide) (by decide) 3 _).trans (rb_of_reg (reg_setLease_other (by decide) 0 u) 4)
  · exact (reg_setParState (by unfold ParReg; decide) (by decide) 3 _).trans (reg_setLease_other (by decide) 0 u)

theorem heard_hbTake (ws : List Word) (s : State) : Heard ws s (hbTake false ws s) := by
  unfold hbTake
  extract_lets w1 req hold st sb s1 known shown pair s2 new s3 s4 s5
  have h2 : Heard ws s s2 :=
    heard_of_link (linkHeard_heard ws s) hold rfl rfl (Bool.and_false _) (Bool.and_true _) rfl
  clear_value s2
  have h3 : Heard ws s s3 := Heard.ite (h2.ownGrant req) h2
  clear_value s3
  have h4 : Heard ws s s4 := Heard.ite (h3.conflict st sb) h3
  clear_value s4
  have h5 : Heard ws s s5 := h4.conflict st sb
  clear_value s5
  exact Heard.ite (Heard.ite h5.stand h5) h4

theorem Heard.shown {ws : List Word} {u : State} (h : Heard ws s u) (before : State) : Heard ws s (parShow before u) := by
  refine h.of_pair ?_ ?_ ?_ (pair_parShow before u)
  · exact rf_of_reg (reg_parShow_other (by unfold ParReg; decide) (by decide) (by decide) before u) 15 0
  · exact rb_parStat_parShow (by decide) (by decide) before u
  · exact reg_parShow_other (by unfold ParReg; decide) (by decide) (by decide) before u

/-! ## A heartbeat refused (R328) -/

theorem hbBad_counted (onFabric : Bool) (s : State) : (hbBad onFabric s).pair = s.pair ∧ (hbBad onFabric s).rb Reg.parEvt 8 = true ∧
    (hbBad onFabric s).rf Reg.parCnt 31 16 = (if onFabric then min (s.rf Reg.parCnt 31 16 + 1) 65535 else s.rf Reg.parCnt 31 16) := by
  unfold hbBad
  extract_lets s1
  refine ⟨?_, ?_, ?_⟩
  · rw [pair_parRec]
    unfold s1
    split <;> rfl
  · rw [rb_of_reg (reg_parRec (by unfold ParReg; decide) _ _ _ _ _) 8]
    exact rb_orReg_same _ _ _ _ (by decide)
  · rw [rf_of_reg ((reg_parRec (by unfold ParReg; decide) _ _ _ _ _).trans (reg_orReg_ne _ (by decide))) 31 16]
    split
    · exact rf_satRf_same _ _ _ _ _ (by decide) (by decide)
    · exact rf_satRf_out 15 0 1 (by decide) (by decide) (by decide) (by decide) (Or.inl (by decide))

/-! ## A path lost (R329) -/

/-- The state in which a path is marked lost, with its event. -/
def pathMarked (onFabric : Bool) (s : State) : State :=
  (({ s with pair := { s.pair with lostPl := s.pair.lostPl || !onFabric, lostFb := s.pair.lostFb || onFabric } } : State).setRb Reg.parStat
    (if onFabric then 5 else 4) false).orReg Reg.parEvt (if onFabric then 2 else 1)

/-- What a lost path leaves of u, marks and record made. -/
structure PathGone (onFabric : Bool) (s u : State) : Prop where
  stat : u.rb Reg.parStat (if onFabric then 5 else 4) = false
  evt : u.rb Reg.parEvt (if onFabric then 1 else 0) = true
  link : u.pair.lostPl = (s.pair.lostPl || !onFabric)
  fabric : u.pair.lostFb = (s.pair.lostFb || onFabric)

theorem pathGone_pathMarked (onFabric : Bool) (s : State) : PathGone onFabric s (pathMarked onFabric s) := by
  refine ⟨?_, ?_, rfl, rfl⟩
  · refine (rb_of_reg (reg_orReg_ne _ (by decide)) _).trans (rb_setRb_same _ _ _ _ ?_)
    cases onFabric <;> decide
  · refine rb_orReg_same _ _ _ _ ?_
    cases onFabric <;> decide

theorem PathGone.recorded {onFabric : Bool} {u : State} (h : PathGone onFabric s u) (code sev subject : Nat) (d : List Word) :
    PathGone onFabric s (parRec u code sev subject d) := by
  obtain ⟨h1, h2, h3, h4⟩ := h
  refine ⟨(rb_of_reg (reg_parRec (by unfold ParReg; decide) _ _ _ _ _) _).trans h1,
    (rb_of_reg (reg_parRec (by unfold ParReg; decide) _ _ _ _ _) _).trans h2, ?_, ?_⟩ <;> rw [pair_parRec] <;> assumption

theorem PathGone.reported {onFabric : Bool} {u : State} (h : PathGone onFabric s u) (subject fclass : Nat) (detail : List Byte) :
    PathGone onFabric s (faultOwn subject fclass detail u) := by
  obtain ⟨h1, h2, h3, h4⟩ := h
  refine ⟨(rb_of_reg (reg_faultOwn (by unfold ParReg; decide) _ _ _ _) _).trans h1,
    (rb_of_reg (reg_faultOwn (by unfold ParReg; decide) _ _ _ _) _).trans h2, ?_, ?_⟩ <;> rw [pair_faultOwn] <;> assumption

theorem PathGone.partner {onFabric : Bool} {u : State} (h : PathGone onFabric s u) :
    PathGone onFabric s ((({ u with pair := { u.pair with lostUs := 0 } } : State)).orReg Reg.parEvt 4) := by
  obtain ⟨h1, h2, h3, h4⟩ := h
  exact ⟨(rb_of_reg (reg_orReg_ne _ (by decide)) _).trans h1, rb_orReg_of_rb (s := { u with pair := { u.pair with lostUs := 0 } }) 4 h2, h3, h4⟩

theorem PathGone.shown {onFabric : Bool} {u : State} (h : PathGone onFabric s u) (before : State) : PathGone onFabric s (parShow before u) := by
  obtain ⟨h1, h2, h3, h4⟩ := h
  refine ⟨(rb_parStat_parShow ?_ ?_ before u).trans h1,
    (rb_of_reg (reg_parShow_other (by unfold ParReg; decide) (by decide) (by decide) before u) _).trans h2, ?_, ?_⟩
  · cases onFabric <;> decide
  · cases onFabric <;> decide
  · rw [pair_parShow]; exact h3
  · rw [pair_parShow]; exact h4

theorem pathGone_pathLost {onFabric : Bool} (hen : parEn s = true) (hrel : s.eng.released = true)
    (hnew : (if onFabric then s.pair.lostFb else s.pair.lostPl) = false) : PathGone onFabric s (pathLost onFabric s) := by
  unfold pathLost
  rw [if_neg (by simp [hen, hrel, hnew])]
  extract_lets pair s0 s1 s2 k pair2
  have h2 : PathGone onFabric s s2 := (pathGone_pathMarked onFabric s).recorded _ _ _ _
  clear_value s2
  split
  · exact (h2.partner.recorded _ _ _ _).reported _ _ _
  · exact h2

theorem pathLost_again {onFabric : Bool} (hlost : (if onFabric then s.pair.lostFb else s.pair.lostPl) = true) : pathLost onFabric s = s := by
  unfold pathLost
  exact if_pos (by simp [hlost])

end Sys2Proof.Machine
end

section
/-! PROOFS. The lease, the signal box and the transitions of a pair member (R325 to R341): O48. -/

namespace Sys2Proof.Machine

variable {s t : State} {a : Nat}

theorem parReg_of (h : 0xA0000 ≤ a) (h' : a < 0xA0104) : ParReg a := ⟨h, h'⟩

/-! ## Requests and grants (R330, R332) -/

/-- The next REQ of a member. -/
def nextReq (s : State) : Nat := (s.rf (Reg.parHbTx 2) 15 0 + 1) % 65536

/-- The state in which the next request is out. -/
def requestOut (cycle : Nat) (s : State) : State :=
  ({ s with pair := { s.pair with reqAt := sset 0 s.pair.reqAt (nextReq s) (1 + s.nowNs cycle) } } : State).setRf (Reg.parHbTx 2) 15 0 (nextReq s)

/-- The request to the signal box. -/
def boxRequest (s : State) : PairCell := { kind := 2, dest := s.rf Reg.parSb 15 0, req := nextReq s, valid := false, holder := 0, ms := 0 }

theorem leaseRequest_spec (answered : Bool) (cycle : Nat) (s : State) : leaseRequest answered cycle s =
    if !(parEn s) || !(parState s == 1 || parState s == 2) then s else
    if asksBox (requestOut cycle s) then
      (if answered then boxAnswered (kindCell (boxRequest s) (requestOut cycle s)) else kindCell (boxRequest s) (requestOut cycle s))
    else requestOut cycle s := rfl

theorem parState_requestOut (cycle : Nat) (s : State) : parState (requestOut cycle s) = parState s :=
  parState_of_reg (reg_setRf_ne (s := { s with pair := { s.pair with reqAt := sset 0 s.pair.reqAt (nextReq s) (1 + s.nowNs cycle) } }) _ _ _
    (by decide))

theorem rf_requestOut (cycle : Nat) (s : State) : (requestOut cycle s).rf (Reg.parHbTx 2) 15 0 = nextReq s :=
  (rf_setRf_same _ _ _ _ _ (by decide) (by decide)).trans (Nat.mod_eq_of_lt (Nat.mod_lt _ (by decide)))

theorem leaseRequest_active (cycle : Nat) (hen : parEn s = true) (hact : parState s = 2) :
    leaseRequest true cycle s = boxAnswered (kindCell (boxRequest s) (requestOut cycle s)) := by
  have hasks : asksBox (requestOut cycle s) = true := by
    unfold asksBox
    rw [parState_requestOut, hact]
    rfl
  rw [leaseRequest_spec, if_neg (by simp [hen, hact]), if_pos hasks, if_pos rfl]

theorem leaseRequest_contending (answered : Bool) (cycle : Nat) (hen : parEn s = true) (hcont : parState s = 1) (hpartner : partnerLost s = false) :
    leaseRequest answered cycle s = requestOut cycle s := by
  have hasks : asksBox (requestOut cycle s) = false := by
    have hsame : partnerLost (requestOut cycle s) = partnerLost s := rfl
    unfold asksBox
    rw [parState_requestOut, hcont, hsame, hpartner]
    rfl
  rw [leaseRequest_spec, if_neg (by simp [hen, hcont]), if_neg (by simp [hasks])]

theorem reg_boxAnswered (h : a ≠ Reg.parStat) (s : State) : (boxAnswered s).reg a = s.reg a := reg_setRb_ne (s := s) 6 true h

theorem pair_boxAnswered (s : State) : (boxAnswered s).pair = { s.pair with sbAnswer := true } := rfl

theorem parState_boxAnswered (s : State) : parState (boxAnswered s) = parState s := parState_setRb (by decide) (by decide) true s

theorem leaseRequest_sent (cycle : Nat) (hen : parEn s = true) (hact : parState s = 2) :
    (leaseRequest true cycle s).rf (Reg.parHbTx 2) 15 0 = nextReq s ∧
      (leaseRequest true cycle s).pair = { s.pair with reqAt := sset 0 s.pair.reqAt (nextReq s) (1 + s.nowNs cycle), cell := some (boxRequest s), cells := s.pair.cells + 1, sbAnswer := true } ∧
      (leaseRequest true cycle s).rb Reg.parStat 6 = true := by
  have hpair := pair_kindCell (boxRequest s) (requestOut cycle s)
  have hreq := rf_of_reg (reg_kindCell (a := Reg.parHbTx 2) (parReg_of (by decide) (by decide)) (boxRequest s) (requestOut cycle s)) 15 0
  rw [leaseRequest_active cycle hen hact]
  generalize kindCell (boxRequest s) (requestOut cycle s) = u at hpair hreq
  refine ⟨?_, ?_, rb_setRb_same u _ _ _ (by decide)⟩
  · rw [rf_of_reg (reg_boxAnswered (by decide) u), hreq, rf_requestOut]
  · rw [pair_boxAnswered, hpair]
    rfl

/-- The boxed or bare state in which a grant is read. -/
def grantSeen (fromBox : Bool) (s : State) : State := if fromBox then boxAnswered s else s

theorem reg_grantSeen (h : a ≠ Reg.parStat) (fromBox : Bool) (s : State) : (grantSeen fromBox s).reg a = s.reg a := by
  unfold grantSeen
  split
  · exact reg_boxAnswered h s
  · rfl

/-- Is a grant older than the one applied? -/
def olderGrant (s : State) (req : Nat) : Bool :=
  match s.pair.applied with
  | some a => decide (32768 ≤ (req + 65536 - a) % 65536)
  | none => false

/-- A grant applied to what is left of its request's time. -/
def grantApplied (req cycle us : Nat) (s : State) : State :=
  { (setLease (289000 - us) s) with pair := { s.pair with applied := some req, granted := true, leaseUs := min (cycle * 5 / 2) s.minorNs / 1000 } }

/-- A grant read, on the request's age. -/
def grantRead (req cycle : Nat) (s : State) : Option Nat → State
  | some us => if !(parState s == 1 || parState s == 2) || olderGrant s req || decide (289000 ≤ us) then s else grantApplied req cycle us s
  | none => s

theorem grant_spec (req cycle : Nat) (fromBox : Bool) (s : State) : grant req cycle fromBox s =
    if !(parEn s) then s else grantRead req cycle (grantSeen fromBox s) (requestAge (grantSeen fromBox s) req ((grantSeen fromBox s).nowNs cycle)) := by
  unfold grant
  dsimp only
  split
  · rfl
  · split
    next us h =>
      have h' : requestAge (grantSeen fromBox s) req ((grantSeen fromBox s).nowNs cycle) = some us := h
      rw [h']
      rfl
    next h =>
      have h' : requestAge (grantSeen fromBox s) req ((grantSeen fromBox s).nowNs cycle) = none := h
      rw [h']
      rfl

theorem requestAge_grantSeen (fromBox : Bool) (req cycle : Nat) (s : State) :
    requestAge (grantSeen fromBox s) req ((grantSeen fromBox s).nowNs cycle) = requestAge s req (s.nowNs cycle) := by
  unfold grantSeen
  split <;> rfl

theorem parState_grantSeen (fromBox : Bool) (s : State) : parState (grantSeen fromBox s) = parState s := by
  unfold grantSeen
  split
  · exact parState_boxAnswered s
  · rfl

theorem minorNs_grantSeen (fromBox : Bool) (s : State) : (grantSeen fromBox s).minorNs = s.minorNs := by
  have h := reg_grantSeen (a := Reg.tteStat) (by decide) fromBox s
  unfold State.minorNs State.minorSel State.rf
  rw [h]

theorem pair_grantSeen (fromBox : Bool) (s : State) : (grantSeen fromBox s).pair = { s.pair with sbAnswer := s.pair.sbAnswer || fromBox } := by
  unfold grantSeen
  cases fromBox
  · rw [if_neg Bool.false_ne_true, Bool.or_false]
  · rw [if_pos rfl, pair_boxAnswered, Bool.or_true]

theorem grant_applied {req cycle us : Nat} (fromBox : Bool) (hen : parEn s = true) (hstate : parState s = 1 ∨ parState s = 2)
    (hfirst : s.pair.applied = none) (hage : requestAge s req (s.nowNs cycle) = some us) (hus : us < 289000) :
    (grant req cycle fromBox s).reg Reg.parLease = w32 (289000 - us) ∧
      (grant req cycle fromBox s).pair = { s.pair with applied := some req, granted := true, leaseUs := min (cycle * 5 / 2) s.minorNs / 1000, sbAnswer := s.pair.sbAnswer || fromBox } := by
  have holder : olderGrant (grantSeen fromBox s) req = false := by
    unfold olderGrant
    rw [pair_grantSeen]
    dsimp only
    rw [hfirst]
  have heq : grant req cycle fromBox s = grantApplied req cycle us (grantSeen fromBox s) := by
    rw [grant_spec, if_neg (by simp [hen]), requestAge_grantSeen, hage]
    refine if_neg ?_
    rw [parState_grantSeen, holder]
    obtain h | h := hstate <;> simp [h, hus]
  rw [heq]
  unfold grantApplied
  refine ⟨?_, ?_⟩
  · refine (reg_setReg_same (grantSeen fromBox s) Reg.parLease _).trans ?_
    rw [Nat.min_eq_left (by omega)]
  · dsimp only
    rw [minorNs_grantSeen, pair_grantSeen]

theorem grant_stale {req cycle us : Nat} (hage : requestAge s req (s.nowNs cycle) = some us) (hus : 289000 ≤ us) :
    grant req cycle false s = s := by
  have hseen : grantSeen false s = s := rfl
  rw [grant_spec, hseen, hage]
  split
  · rfl
  · exact if_pos (by simp [hus])

theorem grant_unsent {req cycle : Nat} (hage : requestAge s req (s.nowNs cycle) = none) : grant req cycle false s = s := by
  have hseen : grantSeen false s = s := rfl
  rw [grant_spec, hseen, hage]
  split <;> rfl

/-! ## Probes, and the signal box silent -/

/-- A probe of the signal box. -/
def boxProbe (s : State) : PairCell := { kind := 3, dest := s.rf Reg.parSb 15 0, req := 0, valid := false, holder := 0, ms := 0 }

theorem probe_sent (answered : Bool) (hen : parEn s = true) (hstate : parState s = 3 ∨ parState s = 4) :
    (probe answered s).pair.cell = some (boxProbe s) ∧ (probe answered s).pair.cells = s.pair.cells + 1 ∧
      (probe answered s).pair.sbAnswer = (answered || s.pair.sbAnswer) := by
  have heq : probe answered s = if answered then boxAnswered (kindCell (boxProbe s) s) else kindCell (boxProbe s) s := by
    unfold probe
    refine if_neg ?_
    obtain h | h := hstate <;> simp [hen, h]
  have hpair := pair_kindCell (boxProbe s) s
  rw [heq]
  generalize kindCell (boxProbe s) s = u at hpair
  cases answered
  · rw [if_neg Bool.false_ne_true, hpair]
    exact ⟨rfl, rfl, rfl⟩
  · rw [if_pos rfl, pair_boxAnswered, hpair]
    exact ⟨rfl, rfl, rfl⟩

theorem sbLost_spec (hen : parEn s = true) :
    sbLost s = parRec ((s.setRb Reg.parStat 6 false).orReg Reg.parEvt 8) 0xA04 8 (s.rf Reg.parSb 15 0) [w32 (s.rf Reg.parSb 15 0)] := by
  unfold sbLost
  exact if_neg (by simp [hen])

theorem sbLost_marked (hen : parEn s = true) : (sbLost s).rb Reg.parStat 6 = false ∧ (sbLost s).rb Reg.parEvt 3 = true ∧
    (sbLost s).pair = s.pair := by
  rw [sbLost_spec hen, pair_parRec, rb_of_reg (reg_parRec (parReg_of (by decide) (by decide)) _ _ _ _ _) 6,
    rb_of_reg (reg_parRec (parReg_of (by decide) (by decide)) _ _ _ _ _) 3]
  refine ⟨?_, rb_orReg_same _ _ _ _ (by decide), rfl⟩
  exact (rb_of_reg (reg_orReg_ne _ (by decide)) 6).trans (rb_setRb_same _ _ _ _ (by decide))

/-! ## The signal box (R332) -/

theorem sbRec_of_sb (h : t.pair.sb = s.pair.sb) (k : Nat) : sbRec t k = sbRec s k := by
  unfold sbRec
  rw [h]

theorem sbRec_setSb (k : Nat) (x : SbRec) (s : State) (j : Nat) : sbRec (setSb k x s) j = if j = k then x else sbRec s j :=
  sget_sset _ _ _ _ _

theorem sbRec_kindCell (c : PairCell) (s : State) (k : Nat) : sbRec (kindCell c s) k = sbRec s k :=
  sbRec_of_sb (by rw [pair_kindCell]) k

/-- The record of a pair that has been granted the tablet. -/
def granted (x : Nat) (s : State) (r : SbRec) : SbRec := { r with valid := true, holder := x, expiry := s.fabTime + 300000000 }

/-- The record that a change of holder writes. -/
def holderNoted (k x : Nat) (s : State) : State :=
  if (sbRec s k).valid ∧ (sbRec s k).holder ≠ x then parRec s 0xA0A 8 (pairAddr s k 0) [w32 (pairAddr s k 0), w32 x] else s

/-- KIND 4 to a member of pair k. -/
def grantCell (k x req : Nat) (s : State) : PairCell := { kind := 4, dest := pairAddr s k x, req := req, valid := false, holder := 0, ms := 300 }

theorem sbGrant_spec (k x req : Nat) (s : State) :
    sbGrant k x req s = kindCell (grantCell k x req s) (setSb k (granted x s (sbRec s k)) (holderNoted k x s)) := rfl

theorem pair_holderNoted (k x : Nat) (s : State) : (holderNoted k x s).pair = s.pair := by
  unfold holderNoted
  split
  · exact pair_parRec _ _ _ _ _
  · rfl

theorem sbRec_holderNoted (k x : Nat) (s : State) (j : Nat) : sbRec (holderNoted k x s) j = sbRec s j :=
  sbRec_of_sb (congrArg Pair.sb (pair_holderNoted k x s)) j

theorem sbRec_sbGrant (k x req : Nat) (s : State) (j : Nat) : sbRec (sbGrant k x req s) j = if j = k then granted x s (sbRec s k) else sbRec s j := by
  rw [sbGrant_spec, sbRec_kindCell, sbRec_setSb, sbRec_holderNoted]

theorem cell_sbGrant (k x req : Nat) (s : State) : (sbGrant k x req s).pair.cell = some (grantCell k x req s) := by
  rw [sbGrant_spec, pair_kindCell]

/-- Requests are answered from 311 ms after release. -/
theorem signalBox_decides {k x req : Nat} (hon : s.rb Reg.parCfg 1 = true) (hpair : s.rb (Reg.parSbPair k) 16 = true)
    (hrel : s.pair.releaseNs + 311000000 ≤ s.fabTime) : signalBox k x false req s =
      if !(sbRec s k).valid ∨ (sbRec s k).holder = x ∨ (sbRec s k).expiry + marginNs ≤ s.fabTime then sbGrant k x req s
      else sbState k x true (setSb k { (sbRec s k) with pend := some (x, req, s.fabTime) } s) := by
  unfold signalBox
  dsimp only
  rw [if_neg (by simp [hon, hpair]), if_neg (Nat.not_lt.mpr hrel), if_neg Bool.false_ne_true]

/-- KIND 5, with the pair's record where `valid` says so. -/
def stateCell (k x : Nat) (valid : Bool) (s : State) : PairCell :=
  { kind := 5, dest := pairAddr s k x, req := 0, valid := valid && (sbRec s k).valid, holder := if valid then (sbRec s k).holder else 0,
    ms := if valid then sbLeftMs s k else 0 }

theorem sbState_spec (k x : Nat) (valid : Bool) (s : State) : sbState k x valid s = kindCell (stateCell k x valid s) s := rfl

theorem stateCell_valid (k x : Nat) (s : State) (h : (sbRec s k).valid = true) : stateCell k x true s =
    { kind := 5, dest := pairAddr s k x, req := 0, valid := true, holder := (sbRec s k).holder,
      ms := ((sbRec s k).expiry + marginNs - s.fabTime + 999999) / 1000000 } := by
  unfold stateCell sbLeftMs
  rw [h, if_pos rfl, if_pos rfl, Bool.and_true]

/-- The state in which a request is kept pending. -/
def requestKept (k x req : Nat) (s : State) : State := setSb k { (sbRec s k) with pend := some (x, req, s.fabTime) } s

theorem sbRec_requestKept (k x req : Nat) (s : State) : sbRec (requestKept k x req s) k = { (sbRec s k) with pend := some (x, req, s.fabTime) } :=
  (sbRec_setSb _ _ _ _).trans (if_pos rfl)

theorem signalBox_held {k x req : Nat} (hon : s.rb Reg.parCfg 1 = true) (hpair : s.rb (Reg.parSbPair k) 16 = true)
    (hrel : s.pair.releaseNs + 311000000 ≤ s.fabTime) (hvalid : (sbRec s k).valid = true) (hother : (sbRec s k).holder ≠ x)
    (hleft : s.fabTime < (sbRec s k).expiry + 11000000) :
    sbRec (signalBox k x false req s) k = { (sbRec s k) with pend := some (x, req, s.fabTime) } ∧
      (signalBox k x false req s).pair.cell = some
        { kind := 5, dest := pairAddr s k x, req := 0, valid := true, holder := (sbRec s k).holder,
          ms := ((sbRec s k).expiry + 11000000 - s.fabTime + 999999) / 1000000 } := by
  have heq : signalBox k x false req s = kindCell (stateCell k x true (requestKept k x req s)) (requestKept k x req s) := by
    rw [signalBox_decides hon hpair hrel, if_neg, sbState_spec, requestKept]
    unfold marginNs
    simp [hvalid, hother, Nat.not_le.mpr hleft]
  have hrec := sbRec_requestKept k x req s
  rw [heq, sbRec_kindCell, pair_kindCell, hrec, stateCell_valid _ _ _ (by rw [hrec]; exact hvalid), hrec]
  exact ⟨rfl, rfl⟩

theorem signalBox_granted {k x req : Nat} (hon : s.rb Reg.parCfg 1 = true) (hpair : s.rb (Reg.parSbPair k) 16 = true)
    (hrel : s.pair.releaseNs + 311000000 ≤ s.fabTime) (hfree : (sbRec s k).valid = false) : signalBox k x false req s = sbGrant k x req s := by
  rw [signalBox_decides hon hpair hrel]
  exact if_pos (Or.inl (by rw [hfree]; decide))

/-! ## Pending requests -/

theorem sbPending_none {k : Nat} (h : (sbRec s k).pend = none) : sbPending s k = s := by
  unfold sbPending
  dsimp only
  rw [h]

theorem fabTime_sbGrant (k x req : Nat) (s : State) : (sbGrant k x req s).fabTime = s.fabTime :=
  (sbGrant_keeps k x req (sub_refl _) (Keeps.refl _ s)).fabTime rfl

/-- A pending request whose holder's time is over ends, by a grant where it is not older than 100 ms. -/
theorem sbPending_some {k x q u : Nat} (h : (sbRec s k).pend = some (x, q, u)) : sbPending s k =
    if (sbRec s k).expiry + marginNs ≤ s.fabTime then
      setSb k { (sbRec (if s.fabTime - u ≤ 100000000 then sbGrant k x q s else s) k) with pend := none }
        (if s.fabTime - u ≤ 100000000 then sbGrant k x q s else s)
    else s := by
  unfold sbPending
  dsimp only
  rw [h]

theorem sbPending_other (s : State) {j k : Nat} (hjk : k ≠ j) : sbRec (sbPending s j) k = sbRec s k ∧ (sbPending s j).fabTime = s.fabTime := by
  cases hpend : (sbRec s j).pend with
  | none =>
    rw [sbPending_none hpend]
    exact ⟨rfl, rfl⟩
  | some p =>
    obtain ⟨x, q, u⟩ := p
    rw [sbPending_some hpend]
    split
    · have hgrant : sbRec (if s.fabTime - u ≤ 100000000 then sbGrant j x q s else s) k = sbRec s k ∧
          (if s.fabTime - u ≤ 100000000 then sbGrant j x q s else s).fabTime = s.fabTime := by
        split
        · exact ⟨(sbRec_sbGrant _ _ _ _ _).trans (if_neg hjk), fabTime_sbGrant _ _ _ _⟩
        · exact ⟨rfl, rfl⟩
      exact ⟨(sbRec_setSb _ _ _ _).trans ((if_neg hjk).trans hgrant.1), hgrant.2⟩
    · exact ⟨rfl, rfl⟩

theorem foldl_sbPending_other {k : Nat} (l : List Nat) (hk : k ∉ l) : ∀ s : State,
    sbRec (l.foldl sbPending s) k = sbRec s k ∧ (l.foldl sbPending s).fabTime = s.fabTime := by
  induction l with
  | nil => exact fun _ => ⟨rfl, rfl⟩
  | cons j l ih =>
    intro s
    obtain ⟨h1, h2⟩ := ih (fun h => hk (List.mem_cons_of_mem _ h)) (sbPending s j)
    obtain ⟨h3, h4⟩ := sbPending_other s (fun h => hk (h ▸ List.mem_cons_self) : k ≠ j)
    exact ⟨h1.trans h3, h2.trans h4⟩

theorem sbPending_granted {k x q u : Nat} (h : (sbRec s k).pend = some (x, q, u)) (hover : (sbRec s k).expiry + 11000000 ≤ s.fabTime)
    (hnew : s.fabTime ≤ u + 100000000) :
    sbRec (sbPending s k) k = { valid := true, holder := x, expiry := s.fabTime + 300000000, pend := none } := by
  have hage : s.fabTime - u ≤ 100000000 := by omega
  rw [sbPending_some h, if_pos (show (sbRec s k).expiry + marginNs ≤ s.fabTime from hover), if_pos hage, sbRec_setSb, if_pos rfl, sbRec_sbGrant, if_pos rfl]
  rfl

theorem foldl_sbPending_granted {k x q u : Nat} (hk : k < 16) (h : (sbRec s k).pend = some (x, q, u))
    (hover : (sbRec s k).expiry + 11000000 ≤ s.fabTime) (hnew : s.fabTime ≤ u + 100000000) :
    sbRec ((List.range 16).foldl sbPending s) k = { valid := true, holder := x, expiry := s.fabTime + 300000000, pend := none } := by
  obtain ⟨l, r, hlr⟩ := List.append_of_mem (List.mem_range.mpr hk)
  have hnd : (l ++ k :: r).Nodup := hlr ▸ List.nodup_range
  obtain ⟨hkl, hkr⟩ : k ∉ l ∧ k ∉ r := by
    rw [List.nodup_append, List.nodup_cons] at hnd
    exact ⟨fun hm => hnd.2.2 k hm k List.mem_cons_self rfl, hnd.2.1.1⟩
  obtain ⟨hrec, htime⟩ := foldl_sbPending_other l hkl s
  rw [hlr, List.foldl_append, List.foldl_cons, (foldl_sbPending_other r hkr _).1, ← htime]
  exact sbPending_granted (by rw [hrec]; exact h) (by rw [hrec, htime]; exact hover) (by rw [htime]; exact hnew)

end Sys2Proof.Machine
end

section
/-! PROOFS. The transitions of a pair member (R333, R334): O48. -/

namespace Sys2Proof.Machine

variable {s t : State} {a : Nat}

/-! ## A run of the pair paths -/

/-- What a run leaves when its four marks have been used. -/
def marksUsed (p : Pair) : Pair := { p with granted := false, ownGrant := false, partnerHold := false, sbAnswer := false }

theorem pairTurn_spec (s : State) : pairTurn s = { (pairMove s) with pair := marksUsed (pairMove s).pair } := rfl

theorem reg_pairTurn (s : State) (a : Nat) : (pairTurn s).reg a = (pairMove s).reg a := rfl

/-- A run's last part: the values commanded in SAFE, and the heartbeat's content. -/
def runEnd (s : State) : State := hbContent (if parState s = 4 then safeValues s else s)

theorem pairRun_spec (hen : parEn s = true) (hrel : s.eng.released = true) : pairRun s = runEnd (parStep pairTurn s) := by
  unfold pairRun
  exact if_neg (by simp [hen, hrel])

theorem reg_runEnd (h : ParReg a) (hlt : a < 0xA0040) (s : State) : (runEnd s).reg a = s.reg a := by
  refine (reg_hbContent hlt _).trans ?_
  split
  · exact reg_safeValues h s
  · rfl

theorem pair_hbContent (s : State) : (hbContent s).pair = s.pair := rfl

theorem pair_runEnd (h : parState s ≠ 4) : (runEnd s).pair = s.pair := by
  unfold runEnd
  rw [if_neg h, pair_hbContent]

/-- The state of the member after a run is the one that the transition leaves. -/
theorem parState_pairRun (hen : parEn s = true) (hrel : s.eng.released = true) : parState (pairRun s) = parState (pairMove s) := by
  rw [pairRun_spec hen hrel]
  refine (parState_of_reg (reg_runEnd (parReg_of (by decide) (by decide)) (by decide) _)).trans ?_
  exact (parState_parShow _ _).trans (parState_of_reg (reg_pairTurn s _))

theorem reg_pairRun (hen : parEn s = true) (hrel : s.eng.released = true) (h : ParReg a) (hlt : a < 0xA0040) (hstat : a ≠ Reg.parStat)
    (hknown : a ≠ Reg.parKnown) : (pairRun s).reg a = (pairMove s).reg a := by
  rw [pairRun_spec hen hrel]
  exact (reg_runEnd h hlt _).trans ((reg_parStep h hstat hknown _ _).trans (reg_pairTurn s a))

theorem pair_pairRun (hen : parEn s = true) (hrel : s.eng.released = true) (hsafe : parState (pairMove s) ≠ 4) :
    (pairRun s).pair = marksUsed (pairMove s).pair := by
  have hstate : parState (parStep pairTurn s) = parState (pairMove s) := (parState_parShow _ _).trans (parState_of_reg (reg_pairTurn s _))
  rw [pairRun_spec hen hrel, pair_runEnd (by rw [hstate]; exact hsafe), pair_parStep, pairTurn_spec]

/-! ## The transitions -/

theorem pairMove_granted (hstate : parState s = 1) (h : s.pair.granted = true) : pairMove s = enterActive s := by
  unfold pairMove
  rw [hstate]
  exact if_pos h

/-- The lease ran out. -/
def leaseRanOut (s : State) : State :=
  parRec (((setParState 1 s).orReg Reg.parEvt 0x20).satRf Reg.parTakeovers 31 16 1) 0xA06 10 (s.rf (Reg.parHbTx 2) 15 0)
    [w32 (s.rf (Reg.parHbTx 2) 15 0)]

theorem pairMove_leaseOver (hstate : parState s = 2) (h : s.rf Reg.parLease 18 0 = 0) : pairMove s = leaseRanOut s := by
  unfold pairMove
  rw [hstate]
  exact if_pos h

theorem pairMove_gone (hstate : parState s = 3) (hlost : partnerLost s = true) (hknown : s.pair.knownUs = 0) :
    pairMove s = setParState 1 s := by
  unfold pairMove
  rw [hstate]
  exact if_pos (by simp [hlost, hknown])

theorem pairMove_partnerHolds (hstate : parState s = 4) (h : s.pair.partnerHold = true) : pairMove s = leaveSafe 3 s := by
  unfold pairMove
  rw [hstate]
  exact if_pos h

theorem pairMove_safe (hstate : parState s = 1) (hgrant : s.pair.granted = false) (hhold : s.pair.partnerHold = false)
    (hown : (s.pair.ownGrant && decide (member s = 1)) = false) (hlost : partnerLost s = true) (hknown : s.pair.knownUs = 0)
    (hbox : s.rb Reg.parStat 6 = false) : pairMove s = enterSafe s := by
  unfold pairMove
  rw [hstate]
  refine (if_neg (by simp [hgrant])).trans ((if_neg ?_).trans (if_pos (by simp [hlost, hknown, hbox])))
  rw [hhold, hown]
  decide

theorem enterActive_entered (s : State) : parState (enterActive s) = 2 ∧
    (enterActive s).rf Reg.parTakeovers 15 0 = min (s.rf Reg.parTakeovers 15 0 + 1) 65535 ∧ (enterActive s).rb Reg.parEvt 4 = true ∧
    (enterActive s).pair = s.pair := by
  unfold enterActive
  extract_lets ms
  refine ⟨?_, ?_, ?_, ?_⟩
  · refine (parState_of_reg ((reg_parRec (parReg_of (by decide) (by decide)) _ _ _ _ _).trans
      ((reg_satRf_ne _ _ _ (by decide)).trans (reg_orReg_ne _ (by decide))))).trans ?_
    exact parState_setParState (by decide) s
  · rw [rf_of_reg (reg_parRec (parReg_of (by decide) (by decide)) _ _ _ _ _) 15 0, rf_satRf_same _ _ _ _ _ (by decide) (by decide),
      rf_of_reg ((reg_orReg_ne _ (by decide)).trans (reg_setParState (parReg_of (by decide) (by decide)) (by decide) 2 s)) 15 0]
    rfl
  · rw [rb_of_reg ((reg_parRec (parReg_of (by decide) (by decide)) _ _ _ _ _).trans (reg_satRf_ne _ _ _ (by decide))) 4]
    exact rb_orReg_same _ _ _ _ (by decide)
  · rw [pair_parRec]
    exact pair_setParState 2 s

theorem leaseRanOut_left (s : State) : parState (leaseRanOut s) = 1 ∧
    (leaseRanOut s).rf Reg.parTakeovers 31 16 = min (s.rf Reg.parTakeovers 31 16 + 1) 65535 ∧ (leaseRanOut s).rb Reg.parEvt 5 = true ∧
    (leaseRanOut s).pair = s.pair := by
  unfold leaseRanOut
  refine ⟨?_, ?_, ?_, ?_⟩
  · refine (parState_of_reg ((reg_parRec (parReg_of (by decide) (by decide)) _ _ _ _ _).trans
      ((reg_satRf_ne _ _ _ (by decide)).trans (reg_orReg_ne _ (by decide))))).trans ?_
    exact parState_setParState (by decide) s
  · rw [rf_of_reg (reg_parRec (parReg_of (by decide) (by decide)) _ _ _ _ _) 31 16, rf_satRf_same _ _ _ _ _ (by decide) (by decide),
      rf_of_reg ((reg_orReg_ne _ (by decide)).trans (reg_setParState (parReg_of (by decide) (by decide)) (by decide) 1 s)) 31 16]
    rfl
  · rw [rb_of_reg ((reg_parRec (parReg_of (by decide) (by decide)) _ _ _ _ _).trans (reg_satRf_ne _ _ _ (by decide))) 5]
    exact rb_orReg_same _ _ _ _ (by decide)
  · rw [pair_parRec]
    exact pair_setParState 1 s

theorem leaveSafe_left {n : Nat} (hn : n < 8) (s : State) : parState (leaveSafe n s) = n ∧ (leaveSafe n s).reg Reg.parGate = 0#32 ∧
    (leaveSafe n s).pair = s.pair := by
  unfold leaveSafe
  refine ⟨parState_setParState hn _, ?_, pair_setParState n _⟩
  exact (reg_setParState (parReg_of (by decide) (by decide)) (by decide) n _).trans (reg_setReg_same ..)

theorem enterSafe_entered (s : State) : parState (enterSafe s) = 4 ∧ (enterSafe s).reg Reg.parGate = 1#32 ∧
    (enterSafe s).rb Reg.parEvt 6 = true := by
  unfold enterSafe
  extract_lets gated pair s1
  have hgate : s1.reg Reg.parGate = 1#32 := reg_setReg_same s Reg.parGate 1#32
  clear_value s1
  have hout (b : Nat) (hb : ParReg b) (hne : b ≠ Reg.parEvt) :
      (faultOwn (ownAddr s) 6 [] (parRec ((setParState 4 s1).orReg Reg.parEvt 0x40) 0xA07 12 0 [])).reg b = (setParState 4 s1).reg b :=
    (reg_faultOwn hb _ _ _ _).trans ((reg_parRec hb _ _ _ _ _).trans (reg_orReg_ne _ hne))
  refine ⟨?_, ?_, ?_⟩
  · exact (parState_of_reg (hout _ (parReg_of (by decide) (by decide)) (by decide))).trans (parState_setParState (by decide) s1)
  · exact (hout _ (parReg_of (by decide) (by decide)) (by decide)).trans
      ((reg_setParState (parReg_of (by decide) (by decide)) (by decide) 4 s1).trans hgate)
  · rw [rb_of_reg ((reg_faultOwn (parReg_of (by decide) (by decide)) _ _ _ _).trans (reg_parRec (parReg_of (by decide) (by decide)) _ _ _ _ _)) 6]
    exact rb_orReg_same _ _ _ _ (by decide)

theorem fab_parShow (before s : State) : (parShow before s).fab = s.fab := (parShow_keeps before (sub_refl _) (Keeps.refl _ s)).fab rfl

/-- The run that leaves the member in another state than SAFE. -/
theorem pairRun_moved {n : Nat} (hen : parEn s = true) (hrel : s.eng.released = true) (hstate : parState (pairMove s) = n) (hn : n ≠ 4)
    (hpair : (pairMove s).pair = s.pair) : parState (pairRun s) = n ∧ (pairRun s).pair = marksUsed s.pair := by
  refine ⟨(parState_pairRun hen hrel).trans hstate, ?_⟩
  rw [pair_pairRun hen hrel (by rw [hstate]; exact hn), hpair]

theorem exec_heartbeatReceive_good {ws : List Word} (overFabric : Bool) (hen : parEn s = true) (hgood : hbGood s ws = true) :
    exec (.heartbeatReceive overFabric ws) s = .next (parShow s (hbTake overFabric ws s)) := by
  have heq : exec (.heartbeatReceive overFabric ws) s =
      .next (if parEn s then parShow s (if hbGood s ws then hbTake overFabric ws s else hbBad overFabric s) else s) := rfl
  rw [heq, if_pos hen, if_pos hgood]

theorem exec_heartbeatReceive_bad {ws : List Word} (overFabric : Bool) (hen : parEn s = true) (hbad : hbGood s ws = false) :
    exec (.heartbeatReceive overFabric ws) s = .next (parShow s (hbBad overFabric s)) := by
  have heq : exec (.heartbeatReceive overFabric ws) s =
      .next (if parEn s then parShow s (if hbGood s ws then hbTake overFabric ws s else hbBad overFabric s) else s) := rfl
  rw [heq, if_pos hen, if_neg (by simp [hbad])]

theorem exec_pendingGrant_on (hon : s.rb Reg.parCfg 1 = true) :
    exec .signalBoxPendingGrant s = .next (parShow s ((List.range 16).foldl sbPending s)) := by
  have heq : exec .signalBoxPendingGrant s =
      .next (parShow s (if s.rb Reg.parCfg 1 then (List.range 16).foldl sbPending s else s)) := rfl
  rw [heq, if_pos hon]

/-- Settles O48: each command changes the pair's own record and the registers of block PAR as its meaning says, and what it sends, records
and shows leaves the others. -/
theorem pairMember : Obligations.PairMember := by
  unfold Obligations.PairMember
  refine ⟨?send, ?heard, ?refused, ?fabric, ?lost, ?again, ?asked, ?requested, ?grant, ?stale, ?unsent, ?probe, ?silent, ?active, ?leaseOver,
    ?contend, ?standby, ?safe, ?boxGrants, ?boxKeeps, ?pending⟩
  case send =>
    intro s hen hrel hrun
    obtain ⟨h1, h2, h3⟩ := heartbeatSend_sent (sends_of hen hrel hrun)
    refine ⟨_, rfl, (parStep_keeps _ (sub_of (sub_refl 38725747754) rfl) (Keeps.refl _ s) (fun _ => heartbeatSend_keeps (sub_of (sub_refl _) rfl))).frame rfl,
      (pair_parStep _ _).trans h1, ?_, ?_⟩
    · exact (reg_parStep (parReg_of (by decide) (by decide)) (by decide) (by decide) _ _).trans h2
    · exact (rf_parStep (parReg_of (by decide) (by decide)) (by decide) (by decide) _ _ _ _).trans h3
  case heard =>
    intro overFabric ws s hen hgood hlink
    subst hlink
    obtain ⟨h1, h2, h3, h4, h5, h6, h7, h8⟩ := (heard_hbTake ws s).shown s
    refine ⟨_, exec_heartbeatReceive_good false hen hgood, ?_, h1, h2, h3, h4, h5, h6, h7, h8⟩
    exact (parShow_keeps s (sub_of (sub_refl 38725747754) rfl) (hbTake_keeps false ws (sub_of (sub_refl _) rfl) (Keeps.refl _ s))).frame rfl
  case refused =>
    intro overFabric ws s hen hbad
    obtain ⟨h1, h2, h3⟩ := hbBad_counted overFabric s
    refine ⟨_, exec_heartbeatReceive_bad overFabric hen hbad, ?_, (pair_parShow _ _).trans h1, ?_, ?_⟩
    · exact (parShow_keeps s (sub_of (sub_refl 38725747754) rfl) (hbBad_keeps overFabric (sub_of (sub_refl _) rfl) (Keeps.refl _ s))).frame rfl
    · exact (rb_of_reg (reg_parShow_other (parReg_of (by decide) (by decide)) (by decide) (by decide) _ _) 8).trans h2
    · exact (rf_of_reg (reg_parShow_other (parReg_of (by decide) (by decide)) (by decide) (by decide) _ _) 31 16).trans h3
  case fabric =>
    intro s hen hrel hrun
    obtain ⟨h1, h2⟩ := fabricHeartbeat_sent (sends_of hen hrel hrun)
    refine ⟨_, rfl, (parStep_keeps _ (sub_of (sub_refl 451042706538) rfl) (Keeps.refl _ s) (fun _ => fabricHeartbeat_keeps (sub_of (sub_refl _) rfl))).frame rfl,
      (pair_parStep _ _).trans h1, ?_⟩
    rw [parStep_spec, fab_parShow]
    exact h2
  case lost =>
    intro onFabric s hen hrel hnew
    obtain ⟨h1, h2, h3, h4⟩ := (pathGone_pathLost hen hrel hnew).shown s
    exact ⟨_, rfl, (parStep_keeps _ (sub_of (sub_refl 2650065962090) rfl) (Keeps.refl _ s) (fun _ => pathLost_keeps onFabric (sub_of (sub_refl _) rfl))).frame rfl,
      h1, h2, h3, h4⟩
  case again =>
    intro onFabric s hen hlost
    refine ⟨_, rfl, (parStep_keeps _ (sub_of (sub_refl 2650065962090) rfl) (Keeps.refl _ s) (fun _ => pathLost_keeps onFabric (sub_of (sub_refl _) rfl))).frame rfl, ?_⟩
    rw [pair_parStep, pathLost_again hlost]
  case asked =>
    intro answered cycle s hen hact hans
    subst hans
    obtain ⟨h1, h2, h3⟩ := leaseRequest_sent cycle.toNat hen hact
    refine ⟨_, rfl, (parStep_keeps _ (sub_of (sub_refl 451042706538) rfl) (Keeps.refl _ s) (fun _ => leaseRequest_keeps true cycle.toNat (sub_of (sub_refl _) rfl))).frame rfl, ?_, ?_, ?_⟩
    · exact (rf_parStep (parReg_of (by decide) (by decide)) (by decide) (by decide) _ _ _ _).trans h1
    · exact (pair_parStep _ _).trans h2
    · exact (rb_parStat_parStep (by decide) (by decide) _ _).trans h3
  case requested =>
    intro answered cycle s hen hcont hpartner
    refine ⟨_, rfl, (parStep_keeps _ (sub_of (sub_refl 451042706538) rfl) (Keeps.refl _ s) (fun _ => leaseRequest_keeps answered cycle.toNat (sub_of (sub_refl _) rfl))).frame rfl, ?_, ?_⟩
    · rw [rf_parStep (parReg_of (by decide) (by decide)) (by decide) (by decide), leaseRequest_contending answered cycle.toNat hen hcont hpartner]
      exact rf_requestOut cycle.toNat s
    · rw [pair_parStep, leaseRequest_contending answered cycle.toNat hen hcont hpartner]
      rfl
  case grant =>
    intro req cycle fromBox us s hen hstate hfirst hage hus
    obtain ⟨h1, h2⟩ := grant_applied fromBox hen hstate hfirst hage hus
    refine ⟨_, rfl, (parStep_keeps _ (sub_of (sub_refl 38725747754) rfl) (Keeps.refl _ s) (fun _ => grant_keeps req.toNat cycle.toNat fromBox (sub_of (sub_refl _) rfl))).frame rfl, ?_, ?_⟩
    · exact (reg_parStep (parReg_of (by decide) (by decide)) (by decide) (by decide) _ _).trans h1
    · exact (pair_parStep _ _).trans h2
  case stale =>
    intro req cycle fromBox us s hen hage hus hbox
    subst hbox
    refine ⟨_, rfl, (parStep_keeps _ (sub_of (sub_refl 38725747754) rfl) (Keeps.refl _ s) (fun _ => grant_keeps req.toNat cycle.toNat false (sub_of (sub_refl _) rfl))).frame rfl, ?_⟩
    rw [reg_parStep (parReg_of (by decide) (by decide)) (by decide) (by decide), pair_parStep, grant_stale hage hus]
    exact ⟨rfl, rfl⟩
  case unsent =>
    intro req cycle fromBox s hen hage hbox
    subst hbox
    refine ⟨_, rfl, (parStep_keeps _ (sub_of (sub_refl 38725747754) rfl) (Keeps.refl _ s) (fun _ => grant_keeps req.toNat cycle.toNat false (sub_of (sub_refl _) rfl))).frame rfl, ?_⟩
    rw [reg_parStep (parReg_of (by decide) (by decide)) (by decide) (by decide), pair_parStep, grant_unsent hage]
    exact ⟨rfl, rfl⟩
  case probe =>
    intro answered s hen hstate
    refine ⟨_, rfl, (parStep_keeps _ (sub_of (sub_refl 451042706538) rfl) (Keeps.refl _ s) (fun _ => probe_keeps answered (sub_of (sub_refl _) rfl))).frame rfl, ?_⟩
    rw [pair_parStep]
    exact probe_sent answered hen hstate
  case silent =>
    intro s hen
    obtain ⟨h1, h2, h3⟩ := sbLost_marked hen
    refine ⟨_, rfl, (parStep_keeps _ (sub_of (sub_refl 34430780458) rfl) (Keeps.refl _ s) (fun _ => sbLost_keeps (sub_of (sub_refl _) rfl))).frame rfl, ?_, ?_, ?_⟩
    · exact (rb_parStat_parStep (by decide) (by decide) _ _).trans h1
    · exact (rb_parStep (parReg_of (by decide) (by decide)) (by decide) (by decide) _ _ _).trans h2
    · exact (pair_parStep _ _).trans h3
  case active =>
    intro s hen hrel hstate hgrant
    obtain ⟨h1, h2, h3, h4⟩ := enterActive_entered s
    rw [← pairMove_granted hstate hgrant] at h1 h2 h3 h4
    obtain ⟨m1, m2⟩ := pairRun_moved hen hrel h1 (by decide) h4
    refine ⟨_, rfl, (pairRun_keeps (sub_refl _) (Keeps.refl _ s)).frame rfl, m1, ?_, ?_, m2⟩
    · exact (rf_of_reg (reg_pairRun hen hrel (parReg_of (by decide) (by decide)) (by decide) (by decide) (by decide)) 15 0).trans h2
    · exact (rb_of_reg (reg_pairRun hen hrel (parReg_of (by decide) (by decide)) (by decide) (by decide) (by decide)) 4).trans h3
  case leaseOver =>
    intro s hen hrel hstate hlease
    obtain ⟨h1, h2, h3, h4⟩ := leaseRanOut_left s
    rw [← pairMove_leaseOver hstate hlease] at h1 h2 h3 h4
    obtain ⟨m1, m2⟩ := pairRun_moved hen hrel h1 (by decide) h4
    refine ⟨_, rfl, (pairRun_keeps (sub_refl _) (Keeps.refl _ s)).frame rfl, m1, ?_, ?_, m2⟩
    · exact (rf_of_reg (reg_pairRun hen hrel (parReg_of (by decide) (by decide)) (by decide) (by decide) (by decide)) 31 16).trans h2
    · exact (rb_of_reg (reg_pairRun hen hrel (parReg_of (by decide) (by decide)) (by decide) (by decide) (by decide)) 5).trans h3
  case contend =>
    intro s hen hrel hstate hlost hknown
    have hmove := pairMove_gone hstate hlost hknown
    exact ⟨_, rfl, (pairRun_keeps (sub_refl _) (Keeps.refl _ s)).frame rfl,
      pairRun_moved hen hrel (by rw [hmove]; exact parState_setParState (by decide) s) (by decide) (by rw [hmove]; exact pair_setParState 1 s)⟩
  case standby =>
    intro s hen hrel hstate hhold
    obtain ⟨h1, h2, h3⟩ := leaveSafe_left (n := 3) (by decide) s
    rw [← pairMove_partnerHolds hstate hhold] at h1 h2 h3
    obtain ⟨m1, m2⟩ := pairRun_moved hen hrel h1 (by decide) h3
    refine ⟨_, rfl, (pairRun_keeps (sub_refl _) (Keeps.refl _ s)).frame rfl, m1, ?_, m2⟩
    exact (reg_pairRun hen hrel (parReg_of (by decide) (by decide)) (by decide) (by decide) (by decide)).trans h2
  case safe =>
    intro s hen hrel hstate hgrant hhold hown hlost hknown hbox
    obtain ⟨h1, h2, h3⟩ := enterSafe_entered s
    rw [← pairMove_safe hstate hgrant hhold hown hlost hknown hbox] at h1 h2 h3
    refine ⟨_, rfl, (pairRun_keeps (sub_refl _) (Keeps.refl _ s)).frame rfl, (parState_pairRun hen hrel).trans h1, ?_, ?_⟩
    · exact (reg_pairRun hen hrel (parReg_of (by decide) (by decide)) (by decide) (by decide) (by decide)).trans h2
    · exact (rb_of_reg (reg_pairRun hen hrel (parReg_of (by decide) (by decide)) (by decide) (by decide) (by decide)) 6).trans h3
  case boxGrants =>
    intro k member probe req s hon hpair hrel hprobe hfree
    subst hprobe
    have hsb (j : Nat) : sbRec (parStep (signalBox k.val (b2n member) false req.toNat) s) j = sbRec (sbGrant k.val (b2n member) req.toNat s) j := by
      rw [sbRec_of_sb (congrArg Pair.sb (pair_parStep _ _)), signalBox_granted hon hpair hrel hfree]
    refine ⟨_, rfl, (parStep_keeps _ (sub_of (sub_refl 451042706538) rfl) (Keeps.refl _ s) (fun _ => signalBox_keeps k.val (b2n member) false req.toNat (sub_of (sub_refl _) rfl))).frame rfl, ?_, ?_, ?_⟩
    · rw [hsb, sbRec_sbGrant, if_pos rfl]
      rfl
    · rw [pair_parStep, signalBox_granted hon hpair hrel hfree]
      exact cell_sbGrant _ _ _ _
    · intro j hj
      rw [hsb, sbRec_sbGrant, if_neg hj]
  case boxKeeps =>
    intro k member probe req s hon hpair hrel hprobe hvalid hother hleft
    subst hprobe
    obtain ⟨h1, h2⟩ := signalBox_held (req := req.toNat) hon hpair hrel hvalid hother hleft
    refine ⟨_, rfl, (parStep_keeps _ (sub_of (sub_refl 451042706538) rfl) (Keeps.refl _ s) (fun _ => signalBox_keeps k.val (b2n member) false req.toNat (sub_of (sub_refl _) rfl))).frame rfl, ?_, ?_⟩
    · exact (sbRec_of_sb (congrArg Pair.sb (pair_parStep _ _)) _).trans h1
    · exact (congrArg Pair.cell (pair_parStep _ _)).trans h2
  case pending =>
    intro k x q u s hk hon hpend hover hnew
    refine ⟨_, exec_pendingGrant_on hon, ?_, ?_⟩
    · exact (parShow_keeps s (sub_of (sub_refl 451042706538) rfl)
        (Keeps.foldl _ _ (fun _ j h => sbPending_keeps j (sub_of (sub_refl _) rfl) h) _ (Keeps.refl _ s))).frame rfl
    · exact (sbRec_of_sb (congrArg Pair.sb (pair_parShow _ _)) k).trans (foldl_sbPending_granted hk hpend hover hnew)

end Sys2Proof.Machine
end

section
/-! PROOFS. The display island: rectangles, frames, words and marks (chapter 13): O49 and O50. -/

namespace Sys2Proof.Machine

variable {s t : State} {a p : Nat}

/-! ## Panels -/

theorem pan_setPan (s : State) (p : Nat) (x : Panel) (k : Nat) : (s.setPan p x).pan k = if k = p then x else s.pan k := sget_sset _ _ _ _ _

theorem pan_of_lcd (h : t.lcd = s.lcd) (k : Nat) : t.pan k = s.pan k := by
  unfold State.pan
  rw [h]

theorem lcd_lcdShow (s : State) : (lcdShow s).lcd = s.lcd := (lcdShow_keeps (sub_refl _) (Keeps.refl _ s)).lcd rfl

theorem lcd_lcdRec (code sev subject : Nat) (d : List Word) (s : State) : (lcdRec s code sev subject d).lcd = s.lcd :=
  (lcdRec_keeps code sev subject d (sub_refl _) (Keeps.refl _ s)).lcd rfl

/-- The registers that the display path keeps by itself, which its showing leaves. -/
theorem reg_lcdShow_own (h : a = Reg.lcdEvt ∨ ∃ p, p < 4 ∧ a = Reg.lcdPCnt p) (s : State) : (lcdShow s).reg a = s.reg a := by
  refine reg_lcdShow s (fun q hq => ?_) ?_ ?_ <;>
  · obtain rfl | ⟨k, hk, rfl⟩ := h <;> simp only [Reg.lcdEvt, Reg.lcdPCnt, Reg.lcdPStat, Reg.lcdPTemp, Reg.lcdStat, Reg.lcdBadwords, ne_eq] <;> omega

theorem lcdTake_on (h : s.lcd.powered = true) (f : State → State) : lcdTake f s = lcdShow (f s) := if_pos h

theorem lcd_lcdTake (h : s.lcd.powered = true) (f : State → State) : (lcdTake f s).lcd = (f s).lcd := by
  rw [lcdTake_on h, lcd_lcdShow]

theorem rb_lcdEvt_lcdTake (h : s.lcd.powered = true) (f : State → State) (i : Nat) : (lcdTake f s).rb Reg.lcdEvt i = (f s).rb Reg.lcdEvt i := by
  rw [lcdTake_on h, rb_of_reg (reg_lcdShow_own (Or.inl rfl) _) i]

/-! ## Bad words -/

theorem badWord_counted (s : State) : (badWord s).lcd = { s.lcd with bad := s.lcd.bad + 1 } ∧ (badWord s).rb Reg.lcdEvt 2 = true := by
  unfold badWord badNote
  dsimp only
  rw [lcd_lcdRec]
  refine ⟨rfl, ?_⟩
  exact (rb_of_reg (reg_logOnce _ _ _ _ _ _ (by decide)) 2).trans (rb_orReg_same _ _ _ _ (by decide))

/-! ## Rectangles (R351 to R354) -/

theorem rectArrive_bits {w : Word} (h : fld w 19 16 ≠ 0) : rectArrive w s = badWord s := by
  unfold rectArrive
  exact if_pos h

/-- Is a rectangle one that the panel refuses (R352)? -/
def badRect (r : Rect) (x : Panel) : Prop :=
  r.com1 < r.com0 ∨ pComs x ≤ r.com1 ∨ r.seg1 < r.seg0 ∨ pSegs x ≤ r.seg1 ∨ (!(pCfgd x)) = true ∨ (!(pEn x)) = true

theorem rectArrive_good {w : Word} (hbits : fld w 19 16 = 0) (hopen : s.lcd.opened = none) (h : ¬ badRect (rectOf w) (s.pan (rectOf w).panel)) :
    rectArrive w s = { s with lcd := { s.lcd with opened := some (rectOf w) } } := by
  unfold rectArrive
  rw [if_neg (by simp [hbits]), hopen]
  exact if_neg h

theorem rectArrive_bad {w : Word} (hopen : s.lcd.opened = none) (h : badRect (rectOf w) (s.pan (rectOf w).panel)) :
    rectArrive w s = badWord s := by
  unfold rectArrive
  split
  · rfl
  · rw [hopen]
    exact if_pos h

theorem segdata_none (w : Word) (h : s.lcd.opened = none) : segdata w s = badWord s := by
  unfold segdata
  rw [h]

/-- A rectangle with one more word. -/
def withWord (r : Rect) (w : Word) : Rect := { r with data := r.data ++ [w] }

theorem rectN_withWord (r : Rect) (w : Word) : rectN (withWord r w) = rectN r := rfl

theorem length_withWord (r : Rect) (w : Word) : (withWord r w).data.length = r.data.length + 1 := by simp [withWord]

theorem segdata_some {w : Word} {r : Rect} (h : s.lcd.opened = some r) : segdata w s =
    if r.data.length + 1 = rectN r then placeRect (withWord r w) { s with lcd := { s.lcd with opened := none } }
    else { s with lcd := { s.lcd with opened := some (withWord r w) } } := by
  unfold segdata
  rw [h]
  dsimp only
  rw [List.length_append, List.length_singleton]
  rfl

/-- A rectangle into flight, where none is pending. -/
theorem placeRect_flies {r : Rect} (hpend : (s.pan r.panel).pend = []) (hfew : (s.pan r.panel).flight.length < 4)
    (hfree : (s.pan r.panel).flight.any (overlaps r) = false) : (placeRect r s).lcd.opened = s.lcd.opened ∧ ∀ k, (placeRect r s).pan k =
      if k = r.panel then { (s.pan r.panel) with flight := (s.pan r.panel).flight ++ [r] } else s.pan k := by
  have hdrop : dropCovered r s = s.setPan r.panel (s.pan r.panel) := by
    unfold dropCovered
    dsimp only
    rw [hpend]
    refine congrArg (s.setPan r.panel) ?_
    exact congrArg (fun l => { (s.pan r.panel) with pend := l }) hpend.symm
  have hself : (s.setPan r.panel (s.pan r.panel)).pan r.panel = s.pan r.panel := (pan_setPan _ _ _ _).trans (if_pos rfl)
  have heq : placeRect r s = (s.setPan r.panel (s.pan r.panel)).setPan r.panel
      { (s.pan r.panel) with flight := (s.pan r.panel).flight ++ [r] } := by
    unfold placeRect
    dsimp only
    rw [hdrop, hself, if_pos ⟨hfew, by rw [hfree]; decide, by rw [hpend]; rfl⟩]
  rw [heq]
  refine ⟨rfl, fun k => ?_⟩
  rw [pan_setPan]
  split
  · rfl
  · rename_i hk
    rw [pan_setPan, if_neg hk]

/-! ## Frames (R347, R354 to R356) -/

theorem reg_cntRect_same (p lo n : Nat) (s : State) : (cntRect p lo n s).reg (Reg.lcdPCnt p) =
    setFld (s.reg (Reg.lcdPCnt p)) (lo + 7) lo (s.rf (Reg.lcdPCnt p) (lo + 7) lo + n) := reg_setRf_same _ _ _ _ _

theorem frameBoundary_mid (h : midFrame (s.pan p) = true) : frameBoundary p s = s := if_pos h

theorem frameBoundary_last (h : midFrame (s.pan p) = false) : frameBoundary p s = frameTurn p s := if_neg (by simp [h])

/-- The drive values that the next frame takes. -/
def driveOf (gen : Bool) (x : Panel) : Option (Word × Nat) := if gen then wanted x else none

/-- The panel after a frame boundary. -/
def turned (gen force : Bool) (x : Panel) : Panel :=
  { x with
    ram := x.flight.foldl (writeRect x.fseg) x.ram, flight := (promote [] [] x.pend).1, pend := (promote [] [] x.pend).2,
    drive := driveOf gen x, last := if (driveOf gen x).isSome then driveOf gen x else x.last, idle := redrive x.last (driveOf gen x),
    vFault := x.vFault && !x.vOk, vOk := x.vOk && (x.vFault && !x.vOk), on := (driveOf gen x).isSome && !(x.vFault && !x.vOk), slot := 0,
    fsegOn := x.fseg, force := force }

/-- The state in which the waiting PANEL word is in force. -/
def panelTaken (p : Nat) (s : State) : State :=
  match (s.pan p).next with
  | some w => panelTake w s
  | none => s

theorem frameTurn_spec (p : Nat) (s : State) : frameTurn p s =
    (cntRect p 0 ((panelTaken p s).pan p).flight.length (panelTaken p s)).setPan p
      (turned (panelTaken p s).lcd.gen (panelTaken p s).lcd.force ((panelTaken p s).pan p)) := rfl

theorem pan_frameTurn (p : Nat) (s : State) (k : Nat) : (frameTurn p s).pan k =
    if k = p then turned (panelTaken p s).lcd.gen (panelTaken p s).lcd.force ((panelTaken p s).pan p) else (panelTaken p s).pan k := by
  rw [frameTurn_spec, pan_setPan]
  rfl

theorem panelTaken_none (h : (s.pan p).next = none) : panelTaken p s = s := by
  unfold panelTaken
  rw [h]

theorem panelTaken_some {w : Word} (h : (s.pan p).next = some w) : panelTaken p s = panelTake w s := by
  unfold panelTaken
  rw [h]

/-- The rectangles that a change of COMS or SEGS drops, counted and recorded. -/
theorem lcd_foldl_dropped (p : Nat) (l : List Rect) : ∀ s : State,
    (l.foldl (fun t (q : Rect) => lcdRec ((cntRect p 8 1 t).orReg Reg.lcdEvt 2) 0xB02 2 p [w32 p, q.word]) s).lcd = s.lcd := by
  induction l with
  | nil => exact fun _ => rfl
  | cons r l ih => exact fun s => (ih _).trans (lcd_lcdRec _ _ _ _ _)

/-- The panel with a PANEL word of other SEGS. -/
def cleared (w : Word) (x : Panel) : Panel := { x with cfg := some w, next := none, ram := [], flight := [], pend := [] }

theorem pan_panelTake_cleared {w : Word} (hw : fld w 27 26 = p) (hcfg : (s.pan p).cfg.isSome = true) (hsegs : pSegs (s.pan p) ≠ fld w 20 13) (k : Nat) :
    (panelTake w s).pan k = if k = p then cleared w (s.pan p) else s.pan k := by
  subst hw
  have heq : (panelTake w s).lcd = (s.setPan (fld w 27 26) (cleared w (s.pan (fld w 27 26)))).lcd := by
    unfold panelTake
    dsimp only
    rw [if_pos, lcd_foldl_dropped]
    · rfl
    · rw [hcfg, Bool.true_and, Bool.or_eq_true]
      exact Or.inr (decide_eq_true hsegs)
  rw [pan_of_lcd heq, pan_setPan]

theorem cnt_frameTurn (h : (s.pan p).next = none) : (frameTurn p s).rf (Reg.lcdPCnt p) 7 0 =
    (s.rf (Reg.lcdPCnt p) 7 0 + (s.pan p).flight.length) % 256 := by
  have hreg : (frameTurn p s).reg (Reg.lcdPCnt p) = (cntRect p 0 (s.pan p).flight.length s).reg (Reg.lcdPCnt p) := by
    rw [frameTurn_spec, panelTaken_none h]
    rfl
  rw [rf_of_reg hreg]
  exact rf_setRf_same _ _ _ _ _ (by decide) (by decide)

/-! ## Queries and force (R355, R357) -/

theorem lcdQuery_counts {w : Word} (hrest : fld w 23 0 = 0) (hpage : fld w 25 24 = 1) : lcdQuery w s =
    sendIn 21 0 [w32 (fld w 27 26 * 2 ^ 30 + 2 ^ 28 + s.rf (Reg.lcdPCnt (fld w 27 26)) 23 0)] s := by
  unfold lcdQuery
  extract_lets p pg head
  have hpg : pg = 1 := hpage
  rw [if_neg (by rw [hrest, hpg]; decide), if_neg (by rw [hpg]; decide), if_pos hpg]
  unfold head
  rw [hpg, Nat.one_mul]

theorem lcdForce_taken {w : BitVec 28} (h : w.toNat / 2 = 0) : lcdForce (w.setWidth 32) s = { s with lcd := { s.lcd with force := w.getLsbD 0 } } := by
  have hrest : fld (w.setWidth 32) 27 1 = 0 := by
    unfold fld
    rw [BitVec.toNat_setWidth, Nat.mod_eq_of_lt (by omega)]
    omega
  have hbit : bit (w.setWidth 32) 0 = w.getLsbD 0 := by
    unfold bit
    rw [BitVec.getLsbD_setWidth]
    rfl
  unfold lcdForce
  rw [if_neg (by rw [hrest]; decide), hbit]

theorem ports_lcdShow (s : State) : (lcdShow s).ports = s.ports := (lcdShow_keeps (sub_refl _) (Keeps.refl _ s)).ports rfl

theorem pan_slotBoundary (p : Nat) (s : State) (k : Nat) : (slotBoundary p s).pan k = if k = p then
    { (s.pan p) with force := s.lcd.force, fsegOn := (s.pan p).fseg, slot := if !(s.pan p).idle && midFrame (s.pan p) then (s.pan p).slot + 1 else (s.pan p).slot }
    else s.pan k := pan_setPan _ _ _ _

/-- The state that a command of the powered display island leaves. -/
theorem pan_lcdTake (h : s.lcd.powered = true) (f : State → State) (k : Nat) : (lcdTake f s).pan k = (f s).pan k :=
  pan_of_lcd (lcd_lcdTake h f) k

/-- A pin beyond those that the PANEL word uses. -/
theorem comPin_unused {k : Nat} (neg : Bool) (h : (s.pan p).cfg.isSome = true) (hk : pComs (s.pan p) ≤ k) : comPin s p k neg = .highZ :=
  if_pos ⟨h, hk⟩

theorem segPin_unused {g : Nat} (neg : Bool) (h : (s.pan p).cfg.isSome = true) (hg : pSegs (s.pan p) ≤ g) : segPin s p g neg = .highZ :=
  if_pos ⟨h, hg⟩

/-- Settles O49: what each word changes of its panel, the showing leaves. -/
theorem displayRectangles : Obligations.DisplayRectangles := by
  unfold Obligations.DisplayRectangles
  refine ⟨?opens, ?unset, ?reserved, ?joins, ?alone, ?flies, ?turn, ?middle, ?panel, ?query, ?force, ?slot⟩
  case opens =>
    intro w s hpow hopen hbits hcom hcoms hseg hsegs hcfgd hen
    have hgood : ¬ badRect (rectOf (w.setWidth 32)) (s.pan (rectOf (w.setWidth 32)).panel) := by
      unfold badRect
      simp only [hcfgd, hen, not_or, not_lt, not_le]
      exact ⟨hcom, hcoms, hseg, hsegs, by decide, by decide⟩
    refine ⟨_, rfl, (lcdTake_keeps _ (sub_of (sub_refl 549759747114) rfl) (Keeps.refl _ s) (fun _ => rectArrive_keeps _ (sub_of (sub_refl _) rfl))).frame rfl, ?_⟩
    rw [lcd_lcdTake hpow, rectArrive_good hbits hopen hgood]
  case unset =>
    intro w s hpow hopen hcfgd
    have hbad : badRect (rectOf (w.setWidth 32)) (s.pan (rectOf (w.setWidth 32)).panel) := by
      unfold badRect
      simp [hcfgd]
    refine ⟨_, rfl, (lcdTake_keeps _ (sub_of (sub_refl 549759747114) rfl) (Keeps.refl _ s) (fun _ => rectArrive_keeps _ (sub_of (sub_refl _) rfl))).frame rfl, ?_⟩
    rw [lcd_lcdTake hpow, rb_lcdEvt_lcdTake hpow, rectArrive_bad hopen hbad]
    exact badWord_counted s
  case reserved =>
    intro w s hpow hbits
    refine ⟨_, rfl, (lcdTake_keeps _ (sub_of (sub_refl 549759747114) rfl) (Keeps.refl _ s) (fun _ => rectArrive_keeps _ (sub_of (sub_refl _) rfl))).frame rfl, ?_⟩
    rw [lcd_lcdTake hpow, rb_lcdEvt_lcdTake hpow, rectArrive_bits hbits]
    exact badWord_counted s
  case joins =>
    intro w r s hpow hopen hmore
    refine ⟨_, rfl, (lcdTake_keeps _ (sub_of (sub_refl 549759747114) rfl) (Keeps.refl _ s) (fun _ => segdata_keeps _ (sub_of (sub_refl _) rfl))).frame rfl, ?_⟩
    rw [lcd_lcdTake hpow, segdata_some hopen, if_neg (by omega)]
    rfl
  case alone =>
    intro w s hpow hopen
    refine ⟨_, rfl, (lcdTake_keeps _ (sub_of (sub_refl 549759747114) rfl) (Keeps.refl _ s) (fun _ => segdata_keeps _ (sub_of (sub_refl _) rfl))).frame rfl, ?_⟩
    rw [lcd_lcdTake hpow, segdata_none w hopen]
    exact (badWord_counted s).1
  case flies =>
    intro w r s hpow hopen hlast hpend hfew hfree
    obtain ⟨hnone, hpan⟩ := placeRect_flies (s := { s with lcd := { s.lcd with opened := none } }) (r := withWord r w) hpend hfew hfree
    refine ⟨_, rfl, (lcdTake_keeps _ (sub_of (sub_refl 549759747114) rfl) (Keeps.refl _ s) (fun _ => segdata_keeps _ (sub_of (sub_refl _) rfl))).frame rfl, ?_, ?_, ?_⟩
    · rw [lcd_lcdTake hpow, segdata_some hopen, if_pos hlast, hnone]
    · rw [pan_lcdTake hpow, segdata_some hopen, if_pos hlast, hpan]
      exact if_pos rfl
    · intro k hk
      rw [pan_lcdTake hpow, segdata_some hopen, if_pos hlast, hpan]
      exact if_neg hk
  case turn =>
    intro p s hpow hnext hlast hpend
    have hpan (k : Nat) : (lcdTake (frameBoundary p.val) s).pan k =
        if k = p.val then turned s.lcd.gen s.lcd.force (s.pan p.val) else s.pan k := by
      rw [pan_lcdTake hpow, frameBoundary_last hlast, pan_frameTurn, panelTaken_none hnext]
    have hself := (hpan p.val).trans (if_pos rfl)
    refine ⟨_, rfl, (lcdTake_keeps _ (sub_of (sub_refl 549759747114) rfl) (Keeps.refl _ s) (fun _ => frameBoundary_keeps _ (sub_of (sub_refl _) rfl))).frame rfl,
      ?_, ?_, ?_, ?_, ?_, ?_, ?_, ?_, ?_, ?_, fun k hk => (hpan k).trans (if_neg hk)⟩
    case refine_2 =>
      rw [hself]
      unfold turned
      rw [hpend]
      rfl
    case refine_10 =>
      rw [lcdTake_on hpow, rf_of_reg (reg_lcdShow_own (Or.inr ⟨p.val, p.isLt, rfl⟩) _), frameBoundary_last hlast, cnt_frameTurn hnext]
    all_goals
      rw [hself]
      rfl
  case middle =>
    intro p s hpow hmid
    refine ⟨_, rfl, (lcdTake_keeps _ (sub_of (sub_refl 549759747114) rfl) (Keeps.refl _ s) (fun _ => frameBoundary_keeps _ (sub_of (sub_refl _) rfl))).frame rfl, ?_⟩
    rw [lcd_lcdTake hpow, frameBoundary_mid hmid]
  case panel =>
    intro p w s hpow hnext hw hlast hcfg hsegs
    have hpan (k : Nat) : (lcdTake (frameBoundary p.val) s).pan k =
        if k = p.val then turned (panelTake w s).lcd.gen (panelTake w s).lcd.force (cleared w (s.pan p.val)) else s.pan k := by
      rw [pan_lcdTake hpow, frameBoundary_last hlast, pan_frameTurn, panelTaken_some hnext, pan_panelTake_cleared hw hcfg hsegs, if_pos rfl]
      split
      · rfl
      · rename_i hk
        rw [pan_panelTake_cleared hw hcfg hsegs, if_neg hk]
    have hself := (hpan p.val).trans (if_pos rfl)
    refine ⟨_, rfl, (lcdTake_keeps _ (sub_of (sub_refl 549759747114) rfl) (Keeps.refl _ s) (fun _ => frameBoundary_keeps _ (sub_of (sub_refl _) rfl))).frame rfl,
      ?_, ?_, ?_, ?_, ?_, fun k hk => (hpan k).trans (if_neg hk)⟩
    all_goals
      rw [hself]
      rfl
  case query =>
    intro w s hpow hrest hpage
    have hport := port_sendIn 21 [w32 (fld (w.setWidth 32) 27 26 * 2 ^ 30 + 2 ^ 28 + s.rf (Reg.lcdPCnt (fld (w.setWidth 32) 27 26)) 23 0)]
      (k := 0) (j := 0) Nat.one_pos s
    have hsent (k : Nat) : (lcdTake (lcdQuery (w.setWidth 32)) s).port k = (lcdQuery (w.setWidth 32) s).port k := by
      rw [lcdTake_on hpow, port_of_ports (ports_lcdShow _)]
    refine ⟨_, rfl, (lcdTake_keeps _ (sub_of (sub_refl 549759845418) rfl) (Keeps.refl _ s) (fun _ => lcdQuery_keeps _ (sub_of (sub_refl _) rfl))).frame rfl, ?_, ?_, ?_⟩
    · rw [hsent, lcdQuery_counts hrest hpage]
      exact congrArg Port.src hport
    · rw [hsent, lcdQuery_counts hrest hpage]
      exact congrArg Port.transit hport
    · rw [lcd_lcdTake hpow, lcdQuery_counts hrest hpage]
      exact (sendIn_keeps 21 0 _ (sub_refl _) (Keeps.refl _ s)).lcd rfl
  case force =>
    intro w s hpow h
    refine ⟨_, rfl, (lcdTake_keeps _ (sub_of (sub_refl 549759747114) rfl) (Keeps.refl _ s) (fun _ => lcdForce_keeps _ (sub_of (sub_refl _) rfl))).frame rfl, ?_⟩
    rw [lcd_lcdTake hpow, lcdForce_taken h]
  case slot =>
    intro p s hpow
    have hpan (k : Nat) := (pan_lcdTake hpow (slotBoundary p.val) k).trans (pan_slotBoundary p.val s k)
    have hself := (hpan p.val).trans (if_pos rfl)
    refine ⟨_, rfl, (lcdTake_keeps _ (sub_of (sub_refl 549755814922) rfl) (Keeps.refl _ s) (fun _ => slotBoundary_keeps _ (sub_of (sub_refl _) rfl))).frame rfl,
      hself, ?_, ?_, fun k hk => (hpan k).trans (if_neg hk)⟩
    · intro neg k hk hcfg
      exact comPin_unused neg (by rw [hself]; exact hcfg) (by rw [hself]; exact hk)
    · intro neg g hg hcfg
      exact segPin_unused neg (by rw [hself]; exact hcfg) (by rw [hself]; exact hg)

end Sys2Proof.Machine
end

section
/-! PROOFS. The words, temperature and drive of a panel (R347 to R350, R356): O50. -/

namespace Sys2Proof.Machine

variable {s t : State} {a p : Nat}

/-- A command that gives one panel a new content and leaves the others. -/
theorem lcdTake_onePanel {f : State → State} {x : Panel} (hpow : s.lcd.powered = true) (hf : (f s).lcd = (s.setPan p x).lcd) :
    (lcdTake f s).pan p = x ∧ ∀ k, k ≠ p → (lcdTake f s).pan k = s.pan k := by
  have hpan (k : Nat) : (lcdTake f s).pan k = if k = p then x else s.pan k := by
    rw [pan_lcdTake hpow, pan_of_lcd hf, pan_setPan]
  exact ⟨(hpan p).trans (if_pos rfl), fun k hk => (hpan k).trans (if_neg hk)⟩

theorem panelWord_waits {w : Word} (hbits : fld w 12 10 = 0) (hcfg : (s.pan (fld w 27 26)).cfg.isSome = true) :
    panelWord w s = s.setPan (fld w 27 26) { (s.pan (fld w 27 26)) with next := some w } := by
  unfold panelWord
  rw [if_neg (by simp [hbits])]
  exact if_pos hcfg

theorem panelWord_first {w : Word} (hbits : fld w 12 10 = 0) (hcfg : (s.pan (fld w 27 26)).cfg = none) :
    panelWord w s = s.setPan (fld w 27 26) { (s.pan (fld w 27 26)) with cfg := some w, next := none } := by
  unfold panelWord
  rw [if_neg (by simp [hbits])]
  refine (if_neg (by simp [hcfg])).trans ?_
  unfold panelTake
  exact if_neg (by simp [hcfg])

theorem fsegWord_taken {w : Word} (hbits : fld w 25 11 = 0) :
    fsegWord w s = s.setPan (fld w 27 26) { (s.pan (fld w 27 26)) with fseg := some w } := if_neg (by simp [hbits])

theorem ntcWord_taken {w : Word} (hbit : bit w 13 = false) :
    ntcWord w s = s.setPan (fld w 27 26) { (s.pan (fld w 27 26)) with ntc := some w } := if_neg (by simp [hbit])

/-- The panel with a BAND word. -/
def banded (w : Word) (x : Panel) : Panel := { x with bands := sset 0#32 x.bands (fld w 25 23) (setFld w 31 28 4) }

theorem bandWord_taken {w : Word} (hbits : fld w 11 8 = 0) : bandWord w s = s.setPan (fld w 27 26) (banded w (s.pan (fld w 27 26))) :=
  if_neg (by simp [hbits])

theorem bandTlo_banded (w : Word) (x : Panel) : bandTlo (banded w x) (fld w 25 23) = sxt 8 (fld w 7 0) := by
  unfold bandTlo banded
  rw [sget_sset_same, fld_setFld_disjoint _ _ _ _ _ _ (by decide) (by decide) (by decide) (by decide) (Or.inr (by decide))]

theorem bandV_banded (w : Word) (x : Panel) : bandV (banded w x) (fld w 25 23) = fld w 22 12 := by
  unfold bandV banded
  rw [sget_sset_same, fld_setFld_disjoint _ _ _ _ _ _ (by decide) (by decide) (by decide) (by decide) (Or.inr (by decide))]

theorem ntcReading_in {ohms : Nat} (hlo : 100 ≤ ohms) (hhi : ohms ≤ 2000000) : ntcReading p ohms s = s.setPan p
    { (s.pan p) with reads := (ohms :: (s.pan p).reads).take 8, run := min ((s.pan p).run + 1) 8, ntcFault := (s.pan p).ntcFault && decide ((s.pan p).run + 1 < 8) } :=
  if_neg (by omega)

theorem ntcReading_out {ohms : Nat} (h : ohms < 100 ∨ 2000000 < ohms) : ntcReading p ohms s = s.setPan p { (s.pan p) with run := 0 } := if_pos h

/-! ## The temperature (R348, R349) -/

/-- The panel with its new temperature. -/
def warmed (x : Panel) : Panel := { x with temp := newTemp x }

/-- The panel with the band that a temperature chooses. -/
def bandChosen (x : Panel) (t : Int) : Panel := { warmed x with band := chooseBand (warmed x) t, chosen := true }

/-- The state in which a change of band is recorded. -/
def bandNoted (p : Nat) (x : Panel) (t : Int) (s : State) : State :=
  if (warmed x).chosen && decide (chooseBand (warmed x) t ≠ (warmed x).band) then
    lcdRec (s.orReg Reg.lcdEvt 0x20) 0xB06 2 p [w32 p, setFld (w32 (chooseBand (warmed x) t)) 31 16 (w32i t).toNat]
  else s

theorem lcd_bandNoted (p : Nat) (x : Panel) (t : Int) (s : State) : (bandNoted p x t s).lcd = s.lcd := by
  unfold bandNoted
  split
  · exact lcd_lcdRec _ _ _ _ _
  · rfl

theorem temperatureUpdate_some {t : Int} (h : newTemp (s.pan p) = some t) : temperatureUpdate p s =
    if pCfgd (warmed (s.pan p)) then bandNoted p (s.pan p) t (s.setPan p (bandChosen (s.pan p) t)) else s.setPan p (warmed (s.pan p)) := by
  unfold temperatureUpdate
  extract_lets x y
  have htemp : y.temp = some t := h
  split
  next u hu =>
    obtain rfl : t = u := Option.some.inj (htemp.symm.trans hu)
    extract_lets b s1
    have hs1 : s1 = s.setPan p (bandChosen (s.pan p) t) := rfl
    rw [← hs1]
    rfl
  next hnone => exact absurd (htemp.symm.trans hnone) (by simp)

theorem temp_temperatureUpdate {t : Int} (hpow : s.lcd.powered = true) (h : newTemp (s.pan p) = some t) :
    ((lcdTake (temperatureUpdate p) s).pan p).temp = some t ∧ ∀ k, k ≠ p → (lcdTake (temperatureUpdate p) s).pan k = s.pan k := by
  by_cases hcfgd : pCfgd (warmed (s.pan p)) = true
  · have heq : (temperatureUpdate p s).lcd = (s.setPan p (bandChosen (s.pan p) t)).lcd := by
      rw [temperatureUpdate_some h, if_pos hcfgd, lcd_bandNoted]
    obtain ⟨h1, h2⟩ := lcdTake_onePanel hpow heq
    rw [h1]
    exact ⟨h, h2⟩
  · have heq : (temperatureUpdate p s).lcd = (s.setPan p (warmed (s.pan p))).lcd := by
      rw [temperatureUpdate_some h, if_neg hcfgd]
    obtain ⟨h1, h2⟩ := lcdTake_onePanel hpow heq
    rw [h1]
    exact ⟨h, h2⟩

theorem newTemp_fixed (hntc : (s.pan p).ntc.isSome = true) (hen : pNtcEn (s.pan p) = false) : newTemp (s.pan p) = some (10 * pTfix (s.pan p)) := by
  obtain ⟨w, hw⟩ := Option.isSome_iff_exists.mp hntc
  unfold newTemp
  rw [if_pos (by simp [hen]), hw]
  rfl

theorem newTemp_mean (hen : pNtcEn (s.pan p) = true) (hfault : (s.pan p).ntcFault = false) (hreads : (s.pan p).reads ≠ []) :
    newTemp (s.pan p) = some (ntcMean (pBeta (s.pan p)) (s.pan p).reads) := by
  unfold newTemp
  rw [if_neg (by simp [hen, hfault]), if_neg (by simpa using hreads)]

/-! ## Faults (R348, R350) -/

/-- The panel whose NTC gives no reading. -/
def ntcFaulted (x : Panel) : Panel := { x with ntcFault := true, run := 0, temp := if x.ntc.isSome then some (10 * pTfix x) else x.temp }

theorem ntcFault_spec (h : (s.pan p).ntcFault = false) : ntcFault p s =
    lcdRec ((s.setPan p (ntcFaulted (s.pan p))).orReg Reg.lcdEvt 8) 0xB04 6 p [w32 p, w32i (pTfix (s.pan p))] := if_neg (by simp [h])

/-- The panel whose VLCD is at fault. -/
def vlcdFaulted (x : Panel) : Panel := { x with vFault := true, vOk := false, on := false }

/-- The VLCD that the panel was driven with. -/
def drivenV (x : Panel) : Nat :=
  match x.drive with
  | some d => d.2
  | none => 0

theorem vlcdFault_spec (h : (s.pan p).on = true) : vlcdFault p s =
    lcdRec ((s.setPan p (vlcdFaulted (s.pan p))).orReg Reg.lcdEvt 0x10) 0xB05 8 p [w32 p, w32 (drivenV (s.pan p))] := if_neg (by simp [h])

theorem lcd_recorded (m code sev subject : Nat) (d : List Word) (s : State) : (lcdRec (s.orReg Reg.lcdEvt m) code sev subject d).lcd = s.lcd :=
  lcd_lcdRec _ _ _ _ _

theorem rb_recorded {m i : Nat} (h : (w32 m).getLsbD i = true) (code sev subject : Nat) (d : List Word) (s : State) :
    (lcdRec (s.orReg Reg.lcdEvt m) code sev subject d).rb Reg.lcdEvt i = true :=
  (rb_of_reg (reg_logOnce _ _ _ _ _ _ (by decide)) i).trans (rb_orReg_same _ _ _ _ h)

/-- Settles O50: each word, reading and fault gives its panel the content that its meaning says, and leaves the others. -/
theorem displayPanels : Obligations.DisplayPanels := by
  unfold Obligations.DisplayPanels
  refine ⟨?waits, ?first, ?fseg, ?ntc, ?band, ?reading, ?discarded, ?fixed, ?mean, ?ntcFault, ?vlcdFault, ?restart, ?idle⟩
  case waits =>
    intro w s hpow hbits hcfg
    exact ⟨_, rfl, (lcdTake_keeps _ (sub_of (sub_refl 549759747114) rfl) (Keeps.refl _ s) (fun _ => panelWord_keeps _ (sub_of (sub_refl _) rfl))).frame rfl,
      lcdTake_onePanel hpow (congrArg State.lcd (panelWord_waits hbits hcfg))⟩
  case first =>
    intro w s hpow hbits hcfg
    exact ⟨_, rfl, (lcdTake_keeps _ (sub_of (sub_refl 549759747114) rfl) (Keeps.refl _ s) (fun _ => panelWord_keeps _ (sub_of (sub_refl _) rfl))).frame rfl,
      lcdTake_onePanel hpow (congrArg State.lcd (panelWord_first hbits hcfg))⟩
  case fseg =>
    intro w s hpow hbits
    exact ⟨_, rfl, (lcdTake_keeps _ (sub_of (sub_refl 549759747114) rfl) (Keeps.refl _ s) (fun _ => fsegWord_keeps _ (sub_of (sub_refl _) rfl))).frame rfl,
      lcdTake_onePanel hpow (congrArg State.lcd (fsegWord_taken hbits))⟩
  case ntc =>
    intro w s hpow hbit
    exact ⟨_, rfl, (lcdTake_keeps _ (sub_of (sub_refl 549759747114) rfl) (Keeps.refl _ s) (fun _ => ntcWord_keeps _ (sub_of (sub_refl _) rfl))).frame rfl,
      lcdTake_onePanel hpow (congrArg State.lcd (ntcWord_taken hbit))⟩
  case band =>
    intro w s hpow hbits
    obtain ⟨h1, h2⟩ := lcdTake_onePanel hpow (congrArg State.lcd (bandWord_taken hbits))
    refine ⟨_, rfl, (lcdTake_keeps _ (sub_of (sub_refl 549759747114) rfl) (Keeps.refl _ s) (fun _ => bandWord_keeps _ (sub_of (sub_refl _) rfl))).frame rfl, ?_, ?_, ?_, h2⟩
    · rw [h1, bandTlo_banded]
    · rw [h1, bandV_banded]
    · rw [h1]
      rfl
  case reading =>
    intro p ohms s hpow hlo hhi
    exact ⟨_, rfl, (lcdTake_keeps _ (sub_of (sub_refl 549755814922) rfl) (Keeps.refl _ s) (fun _ => ntcReading_keeps _ _ (sub_of (sub_refl _) rfl))).frame rfl,
      lcdTake_onePanel hpow (congrArg State.lcd (ntcReading_in hlo hhi))⟩
  case discarded =>
    intro p ohms s hpow h
    exact ⟨_, rfl, (lcdTake_keeps _ (sub_of (sub_refl 549755814922) rfl) (Keeps.refl _ s) (fun _ => ntcReading_keeps _ _ (sub_of (sub_refl _) rfl))).frame rfl,
      lcdTake_onePanel hpow (congrArg State.lcd (ntcReading_out h))⟩
  case fixed =>
    intro p s hpow hntc hen hcfgd hfirst
    have heq : (temperatureUpdate p.val s).lcd = (s.setPan p.val (bandChosen (s.pan p.val) (10 * pTfix (s.pan p.val)))).lcd := by
      rw [temperatureUpdate_some (newTemp_fixed hntc hen), if_pos (show pCfgd (warmed (s.pan p.val)) = true from hcfgd), lcd_bandNoted]
    have hband : bandChosen (s.pan p.val) (10 * pTfix (s.pan p.val)) =
        { (s.pan p.val) with temp := some (10 * pTfix (s.pan p.val)), band := bandOf (s.pan p.val) (10 * pTfix (s.pan p.val)), chosen := true } := by
      have hchoose : chooseBand (warmed (s.pan p.val)) (10 * pTfix (s.pan p.val)) = bandOf (s.pan p.val) (10 * pTfix (s.pan p.val)) :=
        if_pos (show (!(s.pan p.val).chosen) = true by rw [hfirst]; rfl)
      unfold bandChosen
      rw [hchoose, warmed, newTemp_fixed hntc hen]
    rw [hband] at heq
    exact ⟨_, rfl, (lcdTake_keeps _ (sub_of (sub_refl 549759747114) rfl) (Keeps.refl _ s) (fun _ => temperatureUpdate_keeps _ (sub_of (sub_refl _) rfl))).frame rfl,
      lcdTake_onePanel hpow heq⟩
  case mean =>
    intro p s hpow _ hen hfault hreads
    exact ⟨_, rfl, (lcdTake_keeps _ (sub_of (sub_refl 549759747114) rfl) (Keeps.refl _ s) (fun _ => temperatureUpdate_keeps _ (sub_of (sub_refl _) rfl))).frame rfl,
      temp_temperatureUpdate hpow (newTemp_mean hen hfault hreads)⟩
  case ntcFault =>
    intro p s hpow hnew
    obtain ⟨h1, h2⟩ := lcdTake_onePanel hpow ((congrArg State.lcd (ntcFault_spec hnew)).trans (lcd_recorded _ _ _ _ _ _))
    refine ⟨_, rfl, (lcdTake_keeps _ (sub_of (sub_refl 549759747114) rfl) (Keeps.refl _ s) (fun _ => ntcFault_keeps _ (sub_of (sub_refl _) rfl))).frame rfl, ?_, ?_, ?_, h2⟩
    · rw [h1]
      rfl
    · rw [h1]
      rfl
    · rw [rb_lcdEvt_lcdTake hpow, ntcFault_spec hnew]
      exact rb_recorded (by decide) _ _ _ _ _
  case vlcdFault =>
    intro p s hpow hon
    obtain ⟨h1, h2⟩ := lcdTake_onePanel hpow ((congrArg State.lcd (vlcdFault_spec hon)).trans (lcd_recorded _ _ _ _ _ _))
    refine ⟨_, rfl, (lcdTake_keeps _ (sub_of (sub_refl 549759747114) rfl) (Keeps.refl _ s) (fun _ => vlcdFault_keeps _ (sub_of (sub_refl _) rfl))).frame rfl, h1, ?_, h2⟩
    rw [rb_lcdEvt_lcdTake hpow, vlcdFault_spec hon]
    exact rb_recorded (by decide) _ _ _ _ _
  case restart =>
    intro p ok s hpow hfault
    exact ⟨_, rfl, (execVlcdRestart_keeps p ok (sub_refl _) (Keeps.refl _ s)).frame rfl rfl, lcdTake_onePanel hpow (congrArg State.lcd (if_pos hfault))⟩
  case idle =>
    intro p s hpow
    exact ⟨_, rfl, (lcdTake_keeps _ (sub_of (sub_refl 549755814922) rfl) (Keeps.refl _ s) (fun _ => setPan_keeps _ _ (sub_of (sub_refl _) rfl))).frame rfl,
      lcdTake_onePanel hpow rfl⟩

end Sys2Proof.Machine
end

section
/-! PROOFS. The backup island: O51 fails at the report of an alarm. -/

namespace Sys2Proof.Machine

/-- A released engine and alarm 0 fired, with a count of missed firings beyond the eight bits of its status field. -/
def missedOverflow : State :=
  { State.reset with
    eng := { State.reset.eng with released := true },
    rtc := { State.reset.rtc with alarms := [(0, { alm0 with fired := true, missed := 256 })] } }

theorem reports_missedOverflow : (clockPath (fun t => (List.range 8).foldl reportOne t) missedOverflow).rf (Reg.rtcAlmStat 0) 31 16 = 2 := by
  decide +kernel

/-- Refutes O51: the words count each report of an alarm by 1, but a MISSED of 256 or more, which the state admits, carries into
the count of reports; here the first report counts 2. -/
theorem not_backupIsland : ¬ Obligations.BackupIsland := by
  unfold Obligations.BackupIsland
  intro h
  obtain ⟨-, -, -, -, -, -, -, -, -, -, -, -, -, -, -, -, -, -, -, -, -, -, hreport⟩ := h
  obtain ⟨t, hexec, -, -, -, -, hcount, -⟩ := hreport 0 missedOverflow (by decide) (by decide +kernel) (by decide +kernel)
  have ht : clockPath (fun t => (List.range 8).foldl reportOne t) missedOverflow = t := Host.Outcome.next.inj hexec
  rw [← ht, reports_missedOverflow] at hcount
  exact absurd hcount (by decide +kernel)

end Sys2Proof.Machine
end

section
/-! PROOFS. The operations of the security island (R389, Table 15-7): O52. -/

namespace Sys2Proof.Machine

variable {s t : State}

/-! ## Pushes of an end that is no T1S port -/

theorem bpPort_otherEnd {q : Nat} (h : qProd s q < epIsland 10 24 ∨ epIsland 10 36 ≤ qProd s q) : bpPort s q = none := by
  unfold bpPort
  extract_lets p
  refine if_neg (fun hc => ?_)
  have hp : p < 12 := hc.2.1
  have hge : epIsland 10 24 ≤ qProd s q := hc.1
  simp only [p, epIsland] at h hp hge
  omega

theorem ports_qSetLevel {q : Nat} (hprod : qProd s q < epIsland 10 24 ∨ epIsland 10 36 ≤ qProd s q) (old new : Nat) :
    (qSetLevel s q old new).ports = s.ports := by
  unfold qSetLevel
  extract_lets s1 s2 s3
  have hne1 : Reg.queQEnds q ≠ Reg.queQLevel q := by unfold Reg.queQEnds Reg.queQLevel; omega
  have hne2 : Reg.queQEnds q ≠ Reg.queQStat q := by unfold Reg.queQEnds Reg.queQStat; omega
  have h1 : s1.reg (Reg.queQEnds q) = s.reg (Reg.queQEnds q) ∧ s1.ports = s.ports := ⟨reg_setRf_ne _ _ _ hne1, rfl⟩
  have h2 : s2.reg (Reg.queQEnds q) = s.reg (Reg.queQEnds q) ∧ s2.ports = s.ports := by
    unfold s2
    split
    · exact ⟨(reg_setRf_ne _ _ _ hne1).trans h1.1, h1.2⟩
    · exact h1
  have hat (u : State) (m lev : Nat) (b : Bool) (hu : u.reg (Reg.queQEnds q) = s.reg (Reg.queQEnds q)) :
      backpressureAt (u.orReg (Reg.queQStat q) m) q lev b = u.orReg (Reg.queQStat q) m := by
    refine backpressureAt_none (bpPort_otherEnd ?_) _ _
    rw [qProd_congr ((reg_orReg_ne _ hne2).trans hu)]
    exact hprod
  have h3 : s3.reg (Reg.queQEnds q) = s.reg (Reg.queQEnds q) ∧ s3.ports = s.ports := by
    unfold s3
    split
    · rw [hat _ _ _ _ h2.1]
      exact ⟨(reg_orReg_ne _ hne2).trans h2.1, h2.2⟩
    · exact h2
  split
  · rw [hat _ _ _ _ h3.1]
    exact h3.2
  · exact h3.2

theorem ports_qPushIn {q : Nat} (hprod : qProd s q < epIsland 10 24 ∨ epIsland 10 36 ≤ qProd s q) (w : Word) :
    (qPushIn s q w).ports = s.ports := by
  unfold qPushIn
  split
  · rfl
  · split
    · exact (qOverflow_keeps q (sub_refl _) (Keeps.refl _ s)).ports rfl
    · exact (ports_qSetLevel (s := { s with quem := memPutW s.quem (qAddr s q (qLevel s q)) w }.setEcc mcQue (qAddr s q (qLevel s q)) .ok)
        hprod _ _).trans rfl

theorem ports_qPushAll {ep q : Nat} (hep : ep < epIsland 10 24 ∨ epIsland 10 36 ≤ ep) (ws : List Word) :
    ∀ {s : State}, qProd s q = ep → (qPushAll s ep q ws).ports = s.ports := by
  induction ws with
  | nil => exact fun _ => rfl
  | cons w ws ih =>
    intro s hprod
    have hpush : qPush s ep q w = qPushIn s q w := by
      rw [← hprod]
      exact qPush_by_producer w
    rw [qPushAll, hpush, ih ((sameShape_qPushIn s q w).qProd q ▸ hprod), ports_qPushIn (hprod.symm ▸ hep)]

theorem ports_islandPush {island unit : Nat} (hep : epIsland island unit < epIsland 10 24 ∨ epIsland 10 36 ≤ epIsland island unit)
    (ws : List Word) (s : State) : (islandPush s island unit ws).ports = s.ports := by
  unfold islandPush
  split
  next q hq => exact ports_qPushAll hep ws (qProd_of_qOfProd hq).1
  next => rfl

/-! ## The end of an operation -/

theorem ports_soutDrain (s : State) : (soutDrain s).ports = s.ports := ports_islandPush (Or.inr (by decide)) _ _

theorem sec_soutDrain (s : State) : (soutDrain s).sec = { s.sec with sout := s.sec.sout.drop (islandRoom s 22 3) } :=
  (islandPush_keeps 22 3 _ (sub_refl _) (Keeps.refl _ _)).sec rfl

theorem sec_sendIn (island k : Nat) (ws : List Word) (s : State) : (sendIn island k ws s).sec = s.sec :=
  (sendIn_keeps island k ws (sub_refl _) (Keeps.refl _ s)).sec rfl

theorem sstatWord_of_sec {t : State} (hjob : t.sec.job = s.sec.job) (hret : t.sec.retired = s.sec.retired) (hlcn : t.sec.lcn = s.sec.lcn)
    (hrec : t.sec.srec = s.sec.srec) (hops : t.sec.ops = s.sec.ops) : sstatWord t = sstatWord s := by
  unfold sstatWord lcOf
  rw [hjob, hret, hlcn, hrec, hops]

theorem islandRoom_sendIn (island k : Nat) (ws : List Word) (s : State) (island' unit : Nat) :
    islandRoom (sendIn island k ws s) island' unit = islandRoom s island' unit := by
  have hregs : s.regsBut [Reg.logEvt, Reg.tteXsum] (sendIn island k ws s) := sendIn_regsBut island k ws (by simp) (by simp) (regsBut_refl _ s)
  exact islandRoom_of_regsBut hregs island' unit

/-- The output words of an operation. -/
def outWords (code : Nat) (out : List Byte) : List Word := if code = 0 then bytesWords (padTo ((out.length + 3) / 4 * 4) out) else []

/-- The island once an operation has ended, its words not yet sent. -/
def opCounted (r : Nat × List Byte × State) : State :=
  { r.2.2 with sec := { r.2.2.sec with ops := r.2.2.sec.ops + 1, sout := r.2.2.sec.sout ++ outWords r.1 r.2.1 } }

theorem opDone_spec (op tag : Nat) (r : Nat × List Byte × State) :
    opDone op tag r = soutDrain (sendIn 22 0 [sstatWord (opCounted r), sresult op tag r.1] (opCounted r)) := rfl

/-- What an operation that has ended leaves. -/
structure Answered (op tag code : Nat) (out : List Byte) (s t : State) : Prop where
  result : (t.port 1409).src = sresult op tag code
  sent : (t.port 1409).transit = true
  status : (t.port 1408).src = sstatWord t
  ops : t.sec.ops = s.sec.ops + 1
  sout : t.sec.sout = (s.sec.sout ++ outWords code out).drop (islandRoom s 22 3)
  srec : t.sec.srec = s.sec.srec
  feram : t.feram = s.feram
  free : t.freeCtr = s.freeCtr

theorem answered_opDone (op tag code : Nat) (out : List Byte) (s : State) : Answered op tag code out s (opDone op tag (code, out, s)) := by
  have hp0 := port_sendIn 22 [sstatWord (opCounted (code, out, s)), sresult op tag code] (k := 0) (j := 0) (Nat.succ_pos _) (opCounted (code, out, s))
  have hp1 := port_sendIn 22 [sstatWord (opCounted (code, out, s)), sresult op tag code] (k := 0) (j := 1) (Nat.lt_succ_self _) (opCounted (code, out, s))
  have hsec := sec_sendIn 22 0 [sstatWord (opCounted (code, out, s)), sresult op tag code] (opCounted (code, out, s))
  have hroom := islandRoom_sendIn 22 0 [sstatWord (opCounted (code, out, s)), sresult op tag code] (opCounted (code, out, s)) 22 3
  have hferam := (sendIn_keeps 22 0 [sstatWord (opCounted (code, out, s)), sresult op tag code] (sub_refl _) (Keeps.refl _ (opCounted (code, out, s)))).feram rfl
  have hfree := (sendIn_keeps 22 0 [sstatWord (opCounted (code, out, s)), sresult op tag code] (sub_refl _) (Keeps.refl _ (opCounted (code, out, s)))).freeCtr rfl
  rw [opDone_spec]
  generalize sendIn 22 0 [sstatWord (opCounted (code, out, s)), sresult op tag code] (opCounted (code, out, s)) = u at *
  have hpush := islandPush_keeps 22 3 (u.sec.sout.take (islandRoom u 22 3)) (sub_refl _)
    (Keeps.refl _ { u with sec := { u.sec with sout := u.sec.sout.drop (islandRoom u 22 3) } })
  refine ⟨?_, ?_, ?_, ?_, ?_, ?_, ?_, ?_⟩
  · rw [port_of_ports (ports_soutDrain u)]
    exact congrArg Port.src hp1
  · rw [port_of_ports (ports_soutDrain u)]
    exact congrArg Port.transit hp1
  · have hstat : sstatWord (soutDrain u) = sstatWord (opCounted (code, out, s)) := by
      refine sstatWord_of_sec ?_ ?_ ?_ ?_ ?_ <;> rw [sec_soutDrain, hsec]
    rw [port_of_ports (ports_soutDrain u), hstat]
    exact congrArg Port.src hp0
  · rw [sec_soutDrain, hsec]
    rfl
  · rw [sec_soutDrain, hroom, hsec]
    rfl
  · rw [sec_soutDrain, hsec]
    rfl
  · exact (hpush.feram rfl).trans hferam
  · exact (hpush.freeCtr rfl).trans hfree

/-- Free words drawn change nothing that an answer shows. -/
theorem Answered.drawn {op tag code n : Nat} {out : List Byte} {u : State} (h : Answered op tag code out (freeWords n s).2 u) :
    (u.port 1409).src = sresult op tag code ∧ (u.port 1409).transit = true ∧ (u.port 1408).src = sstatWord u ∧ u.sec.ops = s.sec.ops + 1 ∧
      u.sec.sout = (s.sec.sout ++ outWords code out).drop (islandRoom s 22 3) ∧ u.sec.srec = s.sec.srec :=
  ⟨h.result, h.sent, h.status, h.ops, h.sout, h.srec⟩

theorem Answered.noOutput {op tag code : Nat} {u : State} (h : Answered op tag code [] s u) :
    (u.port 1409).src = sresult op tag code ∧ (u.port 1408).src = sstatWord u ∧ u.sec.ops = s.sec.ops + 1 ∧
      u.sec.sout = s.sec.sout.drop (islandRoom s 22 3) := by
  have hout : outWords code [] = [] := by
    unfold outWords
    split <;> rfl
  have hsout := h.sout
  rw [hout, List.append_nil] at hsout
  exact ⟨h.result, h.status, h.ops, hsout⟩

theorem islandOp_free (op : Nat) (tag : BitVec 8) (f : State → Nat × List Byte × State) (hjob : s.sec.job = none) :
    islandOp op false tag f s = opDone op tag.toNat (f s) := by
  unfold islandOp
  exact if_neg (by simp [hjob])

/-! ## The results of Table 15-7 -/

theorem shakeOp_good {n : Nat} (msg : List Byte) (h : n = 32 ∨ n = 64) : shakeOp n msg s = (0, shake256 msg n, s) := if_pos h

theorem shakeOp_bad {n : Nat} (msg : List Byte) (h : ¬ (n = 32 ∨ n = 64)) : shakeOp n msg s = (1, [], s) := if_neg h

theorem verifyOp_form {k : Nat} (msg : List Byte) {sig : List Byte} (h : 5 < k ∨ sig.length = 0 ∨ 1534 < sig.length) :
    verifyOp k msg sig s = (1, [], s) := if_pos h

theorem verifyOp_key {k : Nat} (msg : List Byte) {sig key : List Byte} (h : ¬ (5 < k ∨ sig.length = 0 ∨ 1534 < sig.length))
    (hkey : verifyKey s k = some key) : verifyOp k msg sig s = (if falconOk key msg sig then 0 else 5, [], s) := by
  unfold verifyOp
  rw [if_neg h, hkey]

theorem verifyOp_noKey {k : Nat} (msg : List Byte) {sig : List Byte} (h : ¬ (5 < k ∨ sig.length = 0 ∨ 1534 < sig.length))
    (hkey : verifyKey s k = none) : verifyOp k msg sig s = (if s.sec.retired then 13 else 4, [], s) := by
  unfold verifyOp
  rw [if_neg h, hkey]

/-- SIGNGEN signs this header. -/
def ownHeader (h : List Byte) (s : State) : Bool :=
  h.length = 1536 && h.take 4 == asciiBytes "KVCG" && gSigner h = 1 && s.image.loaded && gFor h = s.image.seq

theorem signgenOp_own {h : List Byte} (hret : s.sec.retired = false) (hown : ownHeader h s = true) :
    signgenOp h s = (0, leBytes 4 (signIdentity h s).1.length ++ (signIdentity h s).1, (freeWords 10 s).2) := by
  unfold signgenOp
  rw [if_neg (by simp [hret])]
  exact if_pos hown

theorem signgenOp_other {h : List Byte} (hret : s.sec.retired = false) (hother : ownHeader h s = false) : signgenOp h s = (1, [], s) := by
  unfold signgenOp
  rw [if_neg (by simp [hret])]
  exact if_neg (by rw [ownHeader] at hother; simp [hother])

theorem pubkeyOp_key {k : Nat} {key : List Byte} (h : pubKey s k = some key) : pubkeyOp k s = (0, leBytes 4 key.length ++ key, s) := by
  unfold pubkeyOp
  rw [h]

theorem pubkeyOp_noKey {k : Nat} (h : pubKey s k = none) : pubkeyOp k s = (noKeyCode s k, [], s) := by
  unfold pubkeyOp
  rw [h]

theorem attest_retired (n : Nat) (ws : List Word) (h : s.sec.retired = true) : attest n ws s = (13, [], s) := if_pos h

/-- An attestation's output. -/
def attested (n : Nat) (ws : List Word) (s : State) : List Byte :=
  attestReport s ws ++ leBytes n (signIdentity (attestReport s ws) s).1.length ++ (signIdentity (attestReport s ws) s).1

theorem attest_signed (n : Nat) (ws : List Word) (h : s.sec.retired = false) : attest n ws s = (0, attested n ws s, (freeWords 10 s).2) :=
  if_neg (by simp [h])

theorem challengeTag_retired (c : List Byte) (h : s.sec.retired = true) : challengeTag s c = (13, []) := if_pos h

theorem challengeTag_owner (c : List Byte) {e : Nat} {k : List Byte} (h : s.sec.retired = false) (howner : s.sec.kOwner = some (e, k)) :
    challengeTag s c = (0, kmac256 (kChal k e) (c ++ deviceId ++ leBytes 8 s.sec.srec.counter) 32 "KV1620 challenge") := by
  unfold challengeTag
  rw [if_neg (by simp [h]), howner]

/-! ## The words that begin an operation -/

theorem arrival_security {p : Nat} (w : Word) (hp : p / 64 = 22) (hout : 32 ≤ p % 64) (htr : (s.port p).transit = true) :
    crossingArrival p w s = if p % 64 = 32 then scmdWord (s.port p).src (s.arriveOut p) else
      if p % 64 = 33 then sparamWord (s.port p).src (s.arriveOut p) else s.arriveOut p := by
  rw [crossingArrival_out w (by omega) htr, hp]
  rfl

theorem sec_arriveOut (s : State) (p : Nat) : (s.arriveOut p).sec = s.sec := by
  unfold State.arriveOut
  dsimp only
  split <;> rfl

/-- The operation that an SCMD word names. -/
def jobOf (w : Word) (s : State) : SecJob := { op := fld w 31 24, tag := fld w 23 16, arg := fld w 15 0, param := s.sec.sparam.toNat, got := [] }

/-- The island with an operation begun. -/
def jobBegun (w : Word) (s : State) : State := { s with sec := { s.sec with job := some (jobOf w s), sparam := 0#32 } }

theorem scmdWord_free (w : Word) (h : s.sec.job = none) : scmdWord w s = sendIn 22 0 [sstatWord (jobBegun w s)] (jobBegun w s) := by
  unfold scmdWord
  exact if_neg (by simp [h])

theorem bit_even_add (n : Nat) : bit (w32 (1 + 2 * n)) 0 = true := by
  unfold bit w32
  rw [BitVec.getLsbD_ofNat, Nat.testBit_zero]
  have : (1 + 2 * n) % 2 = 1 := by omega
  simp [this]

/-- BUSY shows while an operation is in progress. -/
theorem busy_sstatWord (h : s.sec.job.isSome = true) : bit (sstatWord s) 0 = true := by
  have heq : sstatWord s = w32 (1 + 2 * (lcOf s + s.sec.lcn * 4 + b2n s.sec.srec.owner * 128 + (s.sec.ops % 2 ^ 16) * 2 ^ 15)) := by
    unfold sstatWord
    rw [h]
    refine congrArg w32 ?_
    unfold b2n
    rw [if_pos rfl]
    omega
  rw [heq]
  exact bit_even_add _

theorem scmdWord_begun (w : Word) (h : s.sec.job = none) : (scmdWord w s).sec = { s.sec with job := some (jobOf w s), sparam := 0#32 } ∧
    ((scmdWord w s).port 1408).src = sstatWord (scmdWord w s) ∧ ((scmdWord w s).port 1408).transit = true ∧
    bit (sstatWord (scmdWord w s)) 0 = true := by
  have hp := port_sendIn 22 [sstatWord (jobBegun w s)] (k := 0) (j := 0) Nat.one_pos (jobBegun w s)
  have hsec := sec_sendIn 22 0 [sstatWord (jobBegun w s)] (jobBegun w s)
  rw [scmdWord_free w h]
  generalize sendIn 22 0 [sstatWord (jobBegun w s)] (jobBegun w s) = u at hp hsec
  have hstat : sstatWord u = sstatWord (jobBegun w s) := by
    refine sstatWord_of_sec ?_ ?_ ?_ ?_ ?_ <;> rw [hsec]
  refine ⟨hsec, ?_, congrArg Port.transit hp, busy_sstatWord (by rw [hsec]; rfl)⟩
  rw [hstat]
  exact congrArg Port.src hp

end Sys2Proof.Machine
end

section
/-! PROOFS. The operations of the security island, their answers (Table 15-7): O52. -/

namespace Sys2Proof.Machine

variable {s : State}

/-- Output bytes as their words. -/
theorem outWords_zero (out : List Byte) : outWords 0 out = bytesWords (padTo ((out.length + 3) / 4 * 4) out) := if_pos rfl

/-- The state after an operation of a free island. -/
theorem exec_islandOp {op : Nat} {tag : BitVec 8} {f : State → Nat × List Byte × State} {r : Nat × List Byte × State} (hjob : s.sec.job = none)
    (hprog : s.boot.prog = false) (hr : f s = r) : (Host.Outcome.next (if s.boot.prog then s else islandOp op false tag f s) :
      Host.Outcome State Fault Refusal) = .next (opDone op tag.toNat r) := by
  rw [if_neg (by simp [hprog]), islandOp_free op tag f hjob, hr]

theorem exec_islandAttest {tag : BitVec 8} {ws : List Word} {r : Nat × List Byte × State} (hwf : (Instr.islandAttest false tag ws).wf = true)
    (hjob : s.sec.job = none) (hprog : s.boot.prog = false) (hr : attest 4 ws s = r) :
    exec (.islandAttest false tag ws) s = .next (opDone 9 tag.toNat r) := (if_pos hwf).trans (exec_islandOp hjob hprog hr)

theorem exec_islandChallenge {tag : BitVec 8} {ws : List Word} {r : Nat × List Byte} (hwf : (Instr.islandChallenge false tag ws).wf = true)
    (hjob : s.sec.job = none) (hprog : s.boot.prog = false) (hr : challengeTag s (padTo 32 (wordBytes ws)) = r) :
    exec (.islandChallenge false tag ws) s = .next (opDone 10 tag.toNat (r.1, r.2, s)) :=
  (if_pos hwf).trans (exec_islandOp (f := fun t => let r := challengeTag t (padTo 32 (wordBytes ws)); (r.1, r.2, t)) hjob hprog (by subst hr; rfl))

/-- The frame of an operation that draws no free word. -/
theorem frame_opDone (op tag code : Nat) (out : List Byte) (s : State) :
    s.sameBut [.regs, .mirror, .logm, .quem, .ecc, .ports, .xcnt, .logNext, .logCompl, .logCount, .logged, .sec, .bus] (opDone op tag (code, out, s)) :=
  (opDone_keeps op tag (code, out, s) (sub_refl _) (Keeps.refl _ s)).frame rfl

/-- The frame of one that may draw some. -/
theorem frame_opDone_drawn (op tag code n : Nat) (out : List Byte) (s : State) :
    s.sameBut [.regs, .mirror, .logm, .quem, .ecc, .ports, .xcnt, .logNext, .logCompl, .logCount, .logged, .sec, .bus, .freeCtr]
      (opDone op tag (code, out, (freeWords n s).2)) :=
  (opDone_keeps op tag (code, out, (freeWords n s).2) (sub_of (sub_refl 2542624670826) rfl) (freeWords_keeps n (sub_of (sub_refl _) rfl) (Keeps.refl _ s))).frame rfl

/-- Settles O52: every operation ends alike, and its result is the one that Table 15-7 gives it. -/
theorem securityIslandOperations : Obligations.SecurityIslandOperations := by
  unfold Obligations.SecurityIslandOperations
  refine ⟨?shake, ?shakeBad, ?verify, ?verifyForm, ?verifyKey, ?scmd, ?sparam, ?sign, ?signOther, ?pubkey, ?pubkeyNone, ?attest, ?attestRetired,
    ?challengeRetired, ?challenge⟩
  case shake =>
    intro busy tag n msg s hbusy hjob hn hprog
    subst hbusy
    have h := answered_opDone 1 tag.toNat 0 (shake256 msg n.toNat) s
    have hsout := h.sout
    rw [outWords_zero] at hsout
    exact ⟨_, exec_islandOp hjob hprog (shakeOp_good msg hn), frame_opDone _ _ _ _ s, h.result, h.sent, h.status, h.ops, hsout, h.srec, h.feram⟩
  case shakeBad =>
    intro busy tag n msg s hbusy hjob h32 h64 hprog
    subst hbusy
    exact ⟨_, exec_islandOp hjob hprog (shakeOp_bad msg (not_or.mpr ⟨h32, h64⟩)), frame_opDone _ _ _ _ s, (answered_opDone 1 tag.toNat 1 [] s).noOutput⟩
  case verify =>
    intro busy tag k msg sig key s hbusy hjob hk hmin hmax hkey hprog
    subst hbusy
    have h := answered_opDone 2 tag.toNat (if falconOk key msg sig then 0 else 5) [] s
    obtain ⟨h1, h2, h3, h4⟩ := h.noOutput
    exact ⟨_, exec_islandOp hjob hprog (verifyOp_key msg (by omega) hkey), frame_opDone _ _ _ _ s, h1, h.sent, h2, h3, h4⟩
  case verifyForm =>
    intro busy tag k msg sig s hbusy hjob hform hprog
    subst hbusy
    exact ⟨_, exec_islandOp hjob hprog (verifyOp_form msg hform), frame_opDone _ _ _ _ s, (answered_opDone 2 tag.toNat 1 [] s).noOutput⟩
  case verifyKey =>
    intro busy tag k msg sig s hbusy hjob hk hmin hmax hkey hprog
    subst hbusy
    exact ⟨_, exec_islandOp hjob hprog (verifyOp_noKey msg (by omega) hkey), frame_opDone _ _ _ _ s,
      (answered_opDone 2 tag.toNat (if s.sec.retired then 13 else 4) [] s).noOutput⟩
  case scmd =>
    intro port w s hwf hport htr hjob
    subst hport
    have harr : crossingArrival 1440 w s = scmdWord (s.port 1440).src (s.arriveOut 1440) :=
      (arrival_security w (by decide) (by decide) htr).trans (if_pos (by decide))
    have hsec := sec_arriveOut s 1440
    obtain ⟨h1, h2, h3, h4⟩ := scmdWord_begun (s := s.arriveOut 1440) (s.port 1440).src (by rw [hsec]; exact hjob)
    have hjobOf : jobOf (s.port 1440).src (s.arriveOut 1440) = jobOf (s.port 1440).src s := by
      unfold jobOf
      rw [hsec]
    rw [hsec, hjobOf] at h1
    refine ⟨_, exec_crossingWordArrival hwf s, (crossingArrival_keeps 1440 w (sub_refl _) (Keeps.refl _ s)).frame rfl, ?_⟩
    have hidx : (1440#11).toNat = 1440 := rfl
    rw [hidx, harr]
    exact ⟨h1, h2, h3, h4⟩
  case sparam =>
    intro port w s hwf hport htr
    subst hport
    have harr : crossingArrival 1441 w s = sparamWord (s.port 1441).src (s.arriveOut 1441) :=
      (arrival_security w (by decide) (by decide) htr).trans ((if_neg (by decide)).trans (if_pos (by decide)))
    refine ⟨_, exec_crossingWordArrival hwf s, (crossingArrival_keeps 1441 w (sub_refl _) (Keeps.refl _ s)).frame rfl, ?_⟩
    change (crossingArrival 1441 w s).sec = _
    rw [harr, sparamWord, sec_arriveOut]
  case sign =>
    intro busy tag h s hbusy hjob hret hlen htag hsigner hloaded hfor hprog
    subst hbusy
    have hown : ownHeader h s = true := by
      unfold ownHeader
      simp [hlen, htag, hsigner, hloaded, hfor]
    have ha := (answered_opDone 3 tag.toNat 0 (leBytes 4 (signIdentity h s).1.length ++ (signIdentity h s).1) (freeWords 10 s).2).drawn
    rw [outWords_zero] at ha
    exact ⟨_, exec_islandOp hjob hprog (signgenOp_own hret hown), frame_opDone_drawn _ _ _ _ _ s, ha⟩
  case signOther =>
    intro busy tag h s hbusy hjob hret hother hprog
    subst hbusy
    have hnot : ownHeader h s = false := by
      unfold ownHeader
      obtain h1 | h1 | h1 | h1 | h1 := hother <;> simp [h1]
    have ha := answered_opDone 3 tag.toNat 1 [] s
    obtain ⟨h1, h2, h3, h4⟩ := ha.noOutput
    exact ⟨_, exec_islandOp hjob hprog (signgenOp_other hret hnot), (opDone_keeps 3 tag.toNat (1, [], s) (sub_refl _) (Keeps.refl _ s)).frame rfl,
      h1, h2, h3, h4, ha.free⟩
  case pubkey =>
    intro busy tag k key s hbusy hjob hkey hprog
    subst hbusy
    have h := answered_opDone 8 tag.toNat 0 (leBytes 4 key.length ++ key) s
    have hsout := h.sout
    rw [outWords_zero] at hsout
    exact ⟨_, exec_islandOp hjob hprog (pubkeyOp_key hkey), frame_opDone _ _ _ _ s, h.result, h.sent, h.status, h.ops, hsout⟩
  case pubkeyNone =>
    intro busy tag k s hbusy hjob hkey hprog
    subst hbusy
    exact ⟨_, exec_islandOp hjob hprog (pubkeyOp_noKey hkey), frame_opDone _ _ _ _ s, (answered_opDone 8 tag.toNat (noKeyCode s k.toNat) [] s).noOutput⟩
  case attest =>
    intro busy tag ws s hwf hbusy hjob hret hprog
    subst hbusy
    obtain ⟨h1, h2, h3, h4, -, h6⟩ := (answered_opDone 9 tag.toNat 0 (attested 4 ws s) (freeWords 10 s).2).drawn
    exact ⟨_, exec_islandAttest hwf hjob hprog (attest_signed 4 ws hret), frame_opDone_drawn _ _ _ _ _ s, h1, h2, h3, h4, h6⟩
  case attestRetired =>
    intro busy tag ws s hwf hbusy hjob hret hprog
    subst hbusy
    exact ⟨_, exec_islandAttest hwf hjob hprog (attest_retired 4 ws hret),
      (opDone_keeps 9 tag.toNat (13, [], s) (sub_refl _) (Keeps.refl _ s)).frame rfl, (answered_opDone 9 tag.toNat 13 [] s).noOutput⟩
  case challengeRetired =>
    intro busy tag ws s hwf hbusy hjob hret hprog
    subst hbusy
    exact ⟨_, exec_islandChallenge hwf hjob hprog (challengeTag_retired _ hret), frame_opDone _ _ _ _ s,
      (answered_opDone 10 tag.toNat 13 [] s).noOutput⟩
  case challenge =>
    intro busy tag ws e k s hwf hbusy hjob hret howner hprog
    subst hbusy
    have h := answered_opDone 10 tag.toNat 0
      (kmac256 (kChal k e) (padTo 32 (wordBytes ws) ++ deviceId ++ leBytes 8 s.sec.srec.counter) 32 "KV1620 challenge") s
    have hsout := h.sout
    rw [outWords_zero] at hsout
    exact ⟨_, exec_islandChallenge hwf hjob hprog (challengeTag_owner _ hret howner), frame_opDone _ _ _ _ s, h.result, h.sent, h.status, h.ops, hsout⟩

end Sys2Proof.Machine
end

section
/-! PROOFS. The checks and the effects of signed messages (R384 to R388): the layer under O54 and O55. -/

namespace Sys2Proof.Machine

variable {s t : State} {m : List Byte}

/-! ## What a record, an event and the shown registers leave -/

theorem sec_secEvt (s : State) (n : Nat) : (secEvt s n).sec = s.sec := rfl

theorem sec_append (s : State) (code blk sev : Nat) (d : List Word) : (s.append code blk sev d).sec = s.sec :=
  (append_keeps code blk sev d (sub_refl _) (Keeps.refl _ s)).sec rfl

theorem sec_secRecLog (s : State) (code sev subject : Nat) (d : List Word) : (secRecLog s code sev subject d).sec = s.sec :=
  (secRecLog_keeps code sev subject d (sub_refl _) (Keeps.refl _ s)).sec rfl

theorem sec_secShow (s : State) : (secShow s).sec = s.sec := (secShow_keeps (sub_refl _) (Keeps.refl _ s)).sec rfl

theorem sec_refused (kind code : Nat) (s : State) : (refused kind code s).sec = s.sec :=
  (refused_keeps kind code (sub_refl _) (Keeps.refl _ s)).sec rfl

theorem sec_freeWords (n : Nat) (s : State) : (freeWords n s).2.sec = s.sec := rfl

/-- Block SEC's registers that events and refusals alone write. -/
theorem reg_secShow_evt {a : Nat} (ha : a = Reg.secEvt ∨ a = Reg.secCnt) (s : State) : (secShow s).reg a = s.reg a := by
  have hshown : ∀ e ∈ secShown s, e.1 ≠ a := by
    unfold secShown
    obtain rfl | rfl := ha <;> cases s.sec.xfer <;> simp [Reg.secStat, Reg.secCounterLo, Reg.secCounterHi, Reg.secFloorLo, Reg.secFloorHi,
      Reg.secEpoch, Reg.secSlots, Reg.secSlotaSeqLo, Reg.secSlotaSeqHi, Reg.secSlotbSeqLo, Reg.secSlotbSeqHi, Reg.secTrial, Reg.secXfer,
      Reg.secXferStat, Reg.secEvt, Reg.secCnt]
  have hpub : (s.publish (secShown s)).reg a = s.reg a := reg_publish_of_ne s _ hshown
  rw [← hpub]
  exact reg_republish _ _

theorem rb_secShow_evt (s : State) (i : Nat) : (secShow s).rb Reg.secEvt i = s.rb Reg.secEvt i :=
  rb_of_reg (reg_secShow_evt (Or.inl rfl) s) i

/-- A bit of SEC_EVT once set outlives the records that follow. -/
theorem rb_secEvt_append {i : Nat} (code blk sev : Nat) (d : List Word) (h : s.rb Reg.secEvt i = true) :
    (s.append code blk sev d).rb Reg.secEvt i = true := (rb_of_reg (reg_append s code blk sev d (by decide)) i).trans h

theorem rb_secEvt_secEvt {i : Nat} (n : Nat) (h : s.rb Reg.secEvt i = true) : (secEvt s n).rb Reg.secEvt i = true := rb_orReg_of_rb n h

theorem rb_secEvt_secRecLog {i : Nat} (code sev subject : Nat) (d : List Word) (h : s.rb Reg.secEvt i = true) :
    (secRecLog s code sev subject d).rb Reg.secEvt i = true := (rb_of_reg (reg_logOnce _ _ _ _ _ _ (by decide)) i).trans h

/-- A refusal as SEC_CNT and SEC_EVT show it (R384, R408). -/
theorem refused_shown (kind code : Nat) (s : State) : (secShow (refused kind code s)).rb Reg.secEvt 3 = true ∧
    (secShow (refused kind code s)).rf Reg.secCnt 31 16 = min (s.rf Reg.secCnt 31 16 + 1) 65535 := by
  refine ⟨(rb_secShow_evt _ 3).trans (rb_secEvt_append _ _ _ _ (rb_orReg_same _ _ _ _ (by decide))), ?_⟩
  have hcnt : (secShow (refused kind code s)).reg Reg.secCnt = (s.satRf Reg.secCnt 31 16 1).reg Reg.secCnt :=
    (reg_secShow_evt (Or.inr rfl) _).trans ((reg_append _ _ _ _ _ (by decide)).trans (reg_orReg_ne _ (by decide)))
  exact (rf_of_reg hcnt 31 16).trans (rf_satRf_same _ _ _ _ _ (by decide) (by decide))

theorem feram_shownRefusal (kind code : Nat) (s : State) : (secShow (refused kind code s)).feram = s.feram :=
  (secShow_keeps (sub_of (sub_refl 1836074) rfl) (refused_keeps kind code (sub_of (sub_refl _) rfl) (Keeps.refl _ s))).feram rfl

theorem store_shownRefusal (kind code : Nat) (s : State) : (secShow (refused kind code s)).store = s.store :=
  (secShow_keeps (sub_of (sub_refl 1836074) rfl) (refused_keeps kind code (sub_of (sub_refl _) rfl) (Keeps.refl _ s))).store rfl

/-! ## The checks of a message (R384) -/

/-- The island with the new record pending. -/
def messagePended (m : List Byte) (s : State) : State :=
  { (newRecord m s).2 with sec := { (newRecord m s).2.sec with pend := some (newRecord m s).1 } }

/-- A refused message changes nothing on the island, an accepted one leaves its record pending. -/
def Judged (m : List Byte) (s : State) (r : Nat × State) : Prop :=
  (r.1 ≠ 0 → r.2 = s) ∧ (r.1 = 0 → r.2 = messagePended m s ∧ s.sec.pend = none)

theorem judged_refusal {c : Nat} (hc : c ≠ 0) : Judged m s (c, s) := ⟨fun _ => rfl, fun h => absurd h hc⟩

theorem judged_islandMessage (m : List Byte) (s : State) : Judged m s (islandMessage m s) := by
  unfold islandMessage
  by_cases hb : msgBusy s = true
  · rw [if_pos hb]
    exact judged_refusal (by decide)
  have hnone : s.sec.pend = none := by
    unfold msgBusy at hb
    simp only [Bool.or_eq_true, not_or, Bool.not_eq_true, Option.isSome_eq_false_iff, Option.isNone_iff_eq_none] at hb
    exact hb.1
  rw [if_neg hb]
  split
  · exact judged_refusal (by decide)
  split
  · exact judged_refusal (by decide)
  split
  · exact judged_refusal (by decide)
  split
  · exact judged_refusal (by decide)
  split
  next => exact judged_refusal (by decide)
  next =>
    split
    · exact judged_refusal (by decide)
    split
    · exact judged_refusal (by decide)
    extract_lets c p
    split
    next hc => exact judged_refusal hc
    next => exact ⟨fun h => absurd rfl h, fun _ => ⟨rfl, hnone⟩⟩

theorem islandMessage_refused (h : (islandMessage m s).1 ≠ 0) : (islandMessage m s).2 = s := (judged_islandMessage m s).1 h

theorem islandMessage_accepted (h : (islandMessage m s).1 = 0) : (islandMessage m s).2 = messagePended m s := ((judged_islandMessage m s).2 h).1

theorem pend_of_accepted (h : (islandMessage m s).1 = 0) : s.sec.pend = none := ((judged_islandMessage m s).2 h).2

/-- The free words that a new record draws are all that building it changes. -/
theorem newRecord_rest (m : List Byte) (s : State) : Keeps 2199023255552 s (newRecord m s).2 := newRecord_keeps m (sub_refl _) (Keeps.refl _ s)

theorem sec_messagePended (m : List Byte) (s : State) : (messagePended m s).sec = { s.sec with pend := some (newRecord m s).1 } := by
  unfold messagePended
  rw [(newRecord_rest m s).sec rfl]

theorem kind_newRecord (m : List Byte) (s : State) : (newRecord m s).1.kind = msgKind m := by
  unfold newRecord
  extract_lets r
  split
  next h => exact h.symm
  next h => exact h.symm
  next h => exact h.symm
  next h => exact h.symm
  next h => exact h.symm
  next h => exact h.symm
  next => rfl

theorem counter_setSlot (r : SecRec) (slot st : Nat) : (r.setSlot slot st).counter = r.counter := by
  unfold SecRec.setSlot
  split <;> rfl

end Sys2Proof.Machine
end

section
/-! PROOFS. Signed messages, delivered whole (R385 to R388): O55. -/

namespace Sys2Proof.Machine

variable {s t : State} {m : List Byte} {p : SecPend} {copy : Nat}

/-! ## The steps of an effect -/

theorem sec_xferResult (code : Nat) (s : State) : (xferResult code s).sec = s.sec := by
  unfold xferResult
  extract_lets s1
  split <;> rfl

theorem sec_xferEnd (code : Nat) (s : State) : (xferEnd code s).sec = { s.sec with xfer := none } := by
  unfold xferEnd
  split
  next h =>
    rw [← Option.isNone_iff_eq_none.mp h]
  next =>
    have hlast : (xferLast s).sec = s.sec := (xferLast_keeps (sub_refl _) (Keeps.refl _ s)).sec rfl
    rw [sec_xferResult]
    exact congrArg (fun x : Sec => { x with xfer := none }) hlast

/-- What a change of the selected root abandons, and all that it leaves of the island. -/
theorem sec_rootAbandon (s : State) : ∃ due obuf, (rootAbandon s).sec = { s.sec with xfer := none, obj := none, due := due, obuf := obuf } := by
  have hend := sec_xferEnd 0x0F s
  unfold rootAbandon
  extract_lets s1
  split
  next h =>
    have hobj : s1.sec.obj = none := Option.isNone_iff_eq_none.mp h
    have heq : s1.sec = { s1.sec with obj := none, due := s1.sec.due, obuf := s1.sec.obuf } := by rw [← hobj]
    have hsec : s1.sec = { s.sec with xfer := none } := hend
    exact ⟨_, _, heq.trans (congrArg (fun x : Sec => { x with obj := none, due := s1.sec.due, obuf := s1.sec.obuf }) hsec)⟩
  next =>
    have hsec : s1.sec = { s.sec with xfer := none } := hend
    exact ⟨_, _, congrArg (fun x : Sec => { x with obj := none, due := none, obuf := [] }) hsec⟩

theorem sec_blowFuse_count (s : State) : (blowFuse false s).sec = { s.sec with lcn := min 30 (s.sec.lcn + 1) } := sec_append _ _ _ _ _

theorem sec_blowFuse_retire (s : State) : (blowFuse true s).sec = { s.sec with retired := true } := sec_append _ _ _ _ _

/-- The island once a new K_owner is taken (R387). -/
def ownerTaken (p : SecPend) (k : List Byte) (released : Bool) (x : Sec) : Sec :=
  if p.kind = 2 ∧ released then { x with kDue := some (p.newRec.epoch, k), kPrev := x.kOwner }
  else { x with kOwner := some (p.newRec.epoch, k), kDue := none, kPrev := if p.kind = 2 then x.kOwner else none }

theorem sec_takeOwner {k : List Byte} (h : p.owner = some k) (s : State) : (takeOwner p s).sec = ownerTaken p k s.eng.released s.sec := by
  unfold takeOwner
  rw [h]
  simp only [sec_secRecLog, sec_secEvt]
  unfold ownerTaken
  split <;> rfl

theorem sec_requestWarm (k : Nat) (s : State) : (requestWarm k s).sec = s.sec := by
  unfold requestWarm
  split
  · rfl
  · exact sec_append _ _ _ _ _

/-! ## The effect of each kind (R385, R386) -/

/-- The island with the record that a copy holds. -/
def recordTaken (p : SecPend) (copy : Nat) (x : Sec) : Sec := { x with srec := p.newRec, newest := some copy, pend := none }

/-- The state in which the effect of a kind other than 0 begins. -/
def effectBegun (p : SecPend) (copy : Nat) (s : State) : State := secEvt { s with sec := recordTaken p copy s.sec } 4

theorem messageEffect_update (h : p.kind = 0) : messageEffect p copy s = { s with sec := recordTaken p copy s.sec } := by
  unfold messageEffect
  rw [h]
  rfl

theorem messageEffect_commission (h : p.kind = 1) :
    messageEffect p copy s = takeOwner p (rootAbandon (blowFuse false (secEvt (effectBegun p copy s) 0x100))) := by
  unfold messageEffect
  rw [h]
  rfl

theorem messageEffect_ownerSecret (h : p.kind = 2) : messageEffect p copy s = takeOwner p (effectBegun p copy s) := by
  unfold messageEffect
  rw [h]
  rfl

theorem messageEffect_ownerRoot (h : p.kind = 3) : messageEffect p copy s = rootAbandon (secEvt (effectBegun p copy s) 0x100) := by
  unfold messageEffect
  rw [h]
  rfl

/-- The island with no K_owner. -/
def ownerless (s : State) : State := { s with sec := { s.sec with kOwner := none, kDue := none, kPrev := none } }

theorem messageEffect_return (h : p.kind = 4) :
    messageEffect p copy s = rootAbandon (blowFuse false (ownerless (secEvt (effectBegun p copy s) 0x100))) := by
  unfold messageEffect
  rw [h]
  rfl

theorem messageEffect_retire (h : p.kind = 5) : messageEffect p copy s = blowFuse true (ownerless (effectBegun p copy s)) := by
  unfold messageEffect
  rw [h]
  rfl

theorem messageEffect_confirm (h : p.kind = 0x10) : messageEffect p copy s = confirmShow s.image.slot 0 (effectBegun p copy s) := by
  unfold messageEffect
  rw [h]
  rfl

/-- The state in which a REJECT requests its warm start. -/
def rejectShown (p : SecPend) (copy : Nat) (s : State) : State :=
  (secEvt (effectBegun p copy s) 0x20).append 0xD05 0xD 12 [w32 ((trialSlot s.sec.srec).getD 0), 3#32]

theorem messageEffect_reject (h : p.kind = 0x11) : messageEffect p copy s = requestWarm 0 (rejectShown p copy s) := by
  unfold messageEffect
  rw [h]
  rfl

theorem messageEffect_privileged (h : p.kind = 0x12) : messageEffect p copy s = effectBegun p copy s := by
  unfold messageEffect
  rw [h]
  rfl

theorem feram_messageEffect (p : SecPend) (copy : Nat) (s : State) : (messageEffect p copy s).feram = s.feram :=
  (messageEffect_keeps p copy (sub_refl _) (Keeps.refl _ s)).feram rfl

theorem sec_confirmShow (slot how : Nat) (s : State) : (confirmShow slot how s).sec = s.sec := sec_append _ _ _ _ _

/-- What a confirmation shows. -/
theorem confirmShow_confirmed (slot how : Nat) (s : State) : (confirmShow slot how s).rb Reg.secEvt 6 = true :=
  rb_secEvt_append _ _ _ _ (rb_orReg_same _ _ _ _ (by decide))

theorem sec_rejectShown (p : SecPend) (copy : Nat) (s : State) : (rejectShown p copy s).sec = (effectBegun p copy s).sec :=
  sec_append _ _ _ _ _

theorem boot_rejectShown (p : SecPend) (copy : Nat) (s : State) : (rejectShown p copy s).boot = s.boot :=
  ((append_keeps 0xD05 0xD 12 [w32 ((trialSlot s.sec.srec).getD 0), 3#32] (sub_refl _)
    (Keeps.refl _ (secEvt (effectBegun p copy s) 0x20))).boot rfl).trans rfl

theorem phaseOf_rejectShown (p : SecPend) (copy : Nat) (s : State) : phaseOf (rejectShown p copy s) = phaseOf s := by
  have hreg : (rejectShown p copy s).reg Reg.sysStat = s.reg Reg.sysStat :=
    (reg_append _ _ _ _ _ (by decide)).trans ((reg_orReg_ne _ (by decide)).trans (reg_orReg_ne _ (by decide)))
  exact rf_of_reg hreg 3 0

theorem boot_secShow (s : State) : (secShow s).boot = s.boot := (secShow_keeps (sub_refl _) (Keeps.refl _ s)).boot rfl

theorem rf_of_regs {a hi lo : Nat} (h : t.regs = s.regs) : t.rf a hi lo = s.rf a hi lo := by
  unfold State.rf State.reg
  rw [h]

/-! ## A message delivered (R384) -/

/-- What a refused message leaves. -/
theorem deliver_refused (ok : Bool) (h : (islandMessage m s).1 ≠ 0) : (deliver m ok s).2.sec = s.sec ∧ (deliver m ok s).2.feram = s.feram ∧
    (deliver m ok s).2.store = s.store ∧ (deliver m ok s).2.rb Reg.secEvt 3 = true ∧
    (deliver m ok s).2.rf Reg.secCnt 31 16 = min (s.rf Reg.secCnt 31 16 + 1) 65535 := by
  have heq : (deliver m ok s).2 = secShow (refused (msgKind m) (islandMessage m s).1 s) := by
    unfold deliver
    extract_lets r
    rw [if_pos h, islandMessage_refused h]
  rw [heq]
  exact ⟨(sec_secShow _).trans (sec_refused _ _ _), feram_shownRefusal _ _ _, store_shownRefusal _ _ _, refused_shown _ _ _⟩

/-- An accepted message whose record is pending, once its writes have succeeded or failed. -/
def messageDone (m : List Byte) (ok : Bool) (p : SecPend) (u : State) : Nat × State :=
  if !ok then (0x0B, secShow (refused (msgKind m) 0x0B { u with sec := { u.sec with pend := none } }))
  else
    let s1 := if p.kind = 0x12 then privApply m u else u
    let c := nextCopy s1
    let s2 := { s1 with feram := memPut s1.feram (recAddr c) (recBytes p.newRec) }
    (0, secShow (messageEffect p c s2))

theorem deliver_of_pend {u : State} (ok : Bool) (hmsg : islandMessage m s = (0, u)) (hpend : u.sec.pend = some p) :
    deliver m ok s = messageDone m ok p u := by
  unfold deliver
  rw [hmsg]
  extract_lets r
  rw [if_neg (not_not.mpr rfl), hpend]
  rfl

theorem deliver_accepted (ok : Bool) (h : (islandMessage m s).1 = 0) :
    deliver m ok s = messageDone m ok (newRecord m s).1 (messagePended m s) :=
  deliver_of_pend ok (Prod.ext h (islandMessage_accepted h)) (congrArg Sec.pend (sec_messagePended m s))

theorem messageDone_failed (m : List Byte) (p : SecPend) (u : State) : (messageDone m false p u).2 =
    secShow (refused (msgKind m) 0x0B { u with sec := { u.sec with pend := none } }) := rfl

/-- The state with other bytes in FeRAM. -/
def withFeram (f : List Host.Cell) (u : State) : State := { u with feram := f }

theorem sec_withFeram (f : List Host.Cell) (u : State) : (withFeram f u).sec = u.sec := rfl

theorem feram_withFeram (f : List Host.Cell) (u : State) : (withFeram f u).feram = f := rfl

theorem rest_withFeram (f : List Host.Cell) (u : State) : (withFeram f u).boot = u.boot ∧ (withFeram f u).eng = u.eng ∧
    (withFeram f u).image = u.image ∧ (withFeram f u).regs = u.regs := ⟨rfl, rfl, rfl, rfl⟩

/-- FeRAM with the record of a message in the copy that is not the newest. -/
def feramWritten (p : SecPend) (u : State) : List Host.Cell := memPut u.feram (recAddr (nextCopy u)) (recBytes p.newRec)

theorem messageDone_written (m : List Byte) (p : SecPend) (u : State) : (messageDone m true p u).2 =
    secShow (messageEffect p (nextCopy (if p.kind = 0x12 then privApply m u else u))
      (withFeram (feramWritten p (if p.kind = 0x12 then privApply m u else u)) (if p.kind = 0x12 then privApply m u else u))) := rfl

/-- What the checks of an accepted message leave. -/
theorem messagePended_rest (h : (islandMessage m s).1 = 0) : Keeps 2267742732288 s (messagePended m s) :=
  islandMessage_accepted h ▸ islandMessage_keeps m (sub_refl _) (Keeps.refl _ s)

/-- What a message leaves whose writes fail. -/
theorem deliver_failed {ok : Bool} (h : (islandMessage m s).1 = 0) (hok : ok = false) : (deliver m ok s).2.sec = s.sec ∧
    (deliver m ok s).2.feram = s.feram ∧ (deliver m ok s).2.store = s.store := by
  subst hok
  have hsec := sec_messagePended m s
  have hnone := pend_of_accepted h
  have hkeep := messagePended_rest h
  rw [deliver_accepted false h, messageDone_failed]
  generalize messagePended m s = u at *
  refine ⟨?_, (feram_shownRefusal _ _ _).trans (hkeep.feram rfl), (store_shownRefusal _ _ _).trans (hkeep.store rfl)⟩
  rw [sec_secShow, sec_refused]
  have hu : { u.sec with pend := none } = { s.sec with pend := none } := congrArg (fun x : Sec => { x with pend := none }) hsec
  refine hu.trans ?_
  rw [← hnone]

/-- The state in which the effect of an accepted message begins: its record in FeRAM, a PRIVILEGED one's generations in the store. -/
structure Written (m : List Byte) (s u : State) : Prop where
  sec : u.sec = { s.sec with pend := some (newRecord m s).1 }
  feram : u.feram = memPut s.feram (recAddr (nextCopy s)) (recBytes (newRecord m s).1.newRec)
  boot : u.boot = s.boot
  eng : u.eng = s.eng
  image : u.image = s.image
  regs : msgKind m ≠ 0x12 → u.regs = s.regs

theorem nextCopy_of_newest (h : t.sec.newest = s.sec.newest) : nextCopy t = nextCopy s := by
  unfold nextCopy
  rw [h]

theorem deliver_written {ok : Bool} (h : (islandMessage m s).1 = 0) (hok : ok = true) :
    ∃ u, (deliver m ok s).2 = secShow (messageEffect (newRecord m s).1 (nextCopy s) u) ∧ Written m s u := by
  subst hok
  have hsec := sec_messagePended m s
  have hkeep := messagePended_rest h
  rw [deliver_accepted true h, messageDone_written, kind_newRecord]
  generalize messagePended m s = v at *
  generalize hw : (if msgKind m = 0x12 then privApply m v else v) = w
  have hwkeep : Keeps 2199027189282 v w := by
    rw [← hw]
    split
    · exact privApply_keeps m (sub_refl _) (Keeps.refl _ v)
    · exact Keeps.refl _ v
  have hwsec : w.sec = { s.sec with pend := some (newRecord m s).1 } := (hwkeep.sec rfl).trans hsec
  have hcopy : nextCopy w = nextCopy s := nextCopy_of_newest (by rw [hwsec])
  rw [hcopy]
  have hferam : feramWritten (newRecord m s).1 w = memPut s.feram (recAddr (nextCopy s)) (recBytes (newRecord m s).1.newRec) := by
    unfold feramWritten
    rw [(hwkeep.feram rfl).trans (hkeep.feram rfl), hcopy]
  obtain ⟨hboot, heng, himage, hregs⟩ := rest_withFeram (feramWritten (newRecord m s).1 w) w
  refine ⟨_, rfl, (sec_withFeram _ w).trans hwsec, (feram_withFeram _ w).trans hferam, hboot.trans ((hwkeep.boot rfl).trans (hkeep.boot rfl)),
    heng.trans ((hwkeep.eng rfl).trans (hkeep.eng rfl)), himage.trans ((hwkeep.image rfl).trans (hkeep.image rfl)), fun hk => ?_⟩
  rw [if_neg hk] at hw
  exact hregs.trans ((congrArg State.regs hw.symm).trans (hkeep.regs rfl))

/-! ## The new record of each kind (R385) -/

theorem newRecord_commission (h : msgKind m = 1) : (newRecord m s).1.owner = some (newOwner m 1793).2 ∧
    (newRecord m s).1.newRec.counter = msgCounter m ∧ (newRecord m s).1.newRec.epoch = (newOwner m 1793).1 ∧
    (newRecord m s).1.newRec.ownerRoot = (msgBody m).take 1793 := by
  unfold newRecord
  rw [h]
  exact ⟨rfl, rfl, rfl, rfl⟩

theorem newRecord_ownerSecret (h : msgKind m = 2) : (newRecord m s).1.owner = some (newOwner m 0).2 ∧
    (newRecord m s).1.newRec.counter = msgCounter m ∧ (newRecord m s).1.newRec.epoch = (newOwner m 0).1 := by
  unfold newRecord
  rw [h]
  exact ⟨rfl, rfl, rfl⟩

theorem newRecord_ownerRoot (h : msgKind m = 3) : (newRecord m s).1.newRec.counter = msgCounter m ∧
    (newRecord m s).1.newRec.ownerRoot = msgBody m := by
  unfold newRecord
  rw [h]
  exact ⟨rfl, rfl⟩

theorem newRecord_return (h : msgKind m = 4) : (newRecord m s).1.newRec.counter = msgCounter m ∧
    (newRecord m s).1.newRec.owner = false ∧ (newRecord m s).1.newRec.ownerRoot = [] ∧ (newRecord m s).1.newRec.wrapped = [] := by
  unfold newRecord
  rw [h]
  exact ⟨rfl, rfl, rfl, rfl⟩

theorem newRecord_retire (h : msgKind m = 5) : (newRecord m s).1.newRec.counter = msgCounter m := by
  unfold newRecord
  rw [h]
  rfl

theorem slotState_setSlot_same (r : SecRec) (slot st : Nat) : slotState (r.setSlot slot st) slot = st := by
  unfold slotState SecRec.setSlot
  by_cases h : slot = 0
  · rw [if_pos h, if_pos h]
  · rw [if_neg h, if_neg h]

/-- The record after a confirmation (R396). -/
theorem confirmRec_confirmed (r : SecRec) (slot : Nat) : slotState (confirmRec r slot) slot = 4 ∧
    (confirmRec r slot).floor = slotSeq r slot ∧ (confirmRec r slot).tries = 0 ∧ (confirmRec r slot).trialMin = 0 ∧
    (confirmRec r slot).counter = r.counter := by
  unfold confirmRec
  extract_lets other r1
  refine ⟨slotState_setSlot_same r1 slot 4, rfl, rfl, rfl, (counter_setSlot r1 slot 4).trans ?_⟩
  unfold r1
  split
  · exact counter_setSlot r other 5
  · rfl

theorem newRecord_confirm (h : msgKind m = 0x10) : (newRecord m s).1.newRec =
    confirmRec { s.sec.srec with counter := msgCounter m, seq := s.sec.srec.seq + 1, lcn := s.sec.lcn } s.image.slot := by
  unfold newRecord
  rw [h]
  rfl

theorem newRecord_reject (h : msgKind m = 0x11) : (newRecord m s).1.newRec.counter = msgCounter m ∧
    (newRecord m s).1.newRec.tries = 0 ∧ (newRecord m s).1.newRec.trialMin = 0 := by
  unfold newRecord
  rw [h]
  exact ⟨counter_setSlot _ _ _, rfl, rfl⟩

theorem newRecord_privileged (h : msgKind m = 0x12) : (newRecord m s).1.newRec.counter = msgCounter m := by
  unfold newRecord
  rw [h]
  rfl

/-! ## The command of each kind -/

theorem msgKind_eq (m : List Byte) : msgKind m = (m.getD 6 0#8).toNat := by
  unfold msgKind fieldAt
  rw [List.getD_eq_getElem?_getD, ← List.head?_drop]
  cases m.drop 6 with
  | nil => rfl
  | cons b l => exact Nat.add_zero _

/-- The command of a message of the kind, with PROG_N high. -/
theorem exec_message {k : Nat} {ok : Bool} (hwf : decide ((m.getD 6 0#8).toNat = k) = true) (hprog : s.boot.prog = false) :
    guardedBy (decide ((m.getD 6 0#8).toNat = k)) (fun t => if t.boot.prog then t else (deliver m ok t).2) s = .next (deliver m ok s).2 ∧
      msgKind m = k := by
  refine ⟨(if_pos hwf).trans (congrArg Host.Outcome.next (if_neg (by simp [hprog]))), (msgKind_eq m).trans (of_decide_eq_true hwf)⟩

theorem frame_deliver (m : List Byte) (ok : Bool) (s : State) :
    s.sameBut [.regs, .mirror, .logm, .feram, .store, .ecc, .logNext, .logCompl, .logCount, .logged, .boot, .sec, .fab, .freeCtr]
      (deliver m ok s).2 := (deliver_keeps m ok (sub_refl _) (Keeps.refl _ s)).frame rfl

/-- What every clause says of a message whose writes fail. -/
theorem deliver_unwritten {ok : Bool} (h : (islandMessage m s).1 = 0) (hok : ok = false) : (deliver m ok s).2.sec.srec = s.sec.srec ∧
    (deliver m ok s).2.sec.lcn = s.sec.lcn ∧ (deliver m ok s).2.sec.retired = s.sec.retired ∧ (deliver m ok s).2.sec.pend = none ∧
    (deliver m ok s).2.feram = s.feram ∧ (deliver m ok s).2.store = s.store := by
  obtain ⟨hsec, hferam, hstore⟩ := deliver_failed h hok
  exact ⟨by rw [hsec], by rw [hsec], by rw [hsec], by rw [hsec]; exact pend_of_accepted h, hferam, hstore⟩

theorem feram_shownEffect {u : State} (hw : Written m s u) : (secShow (messageEffect (newRecord m s).1 copy u)).feram =
    memPut s.feram (recAddr (nextCopy s)) (recBytes (newRecord m s).1.newRec) :=
  ((secShow_keeps (sub_refl _) (Keeps.refl _ _)).feram rfl).trans ((feram_messageEffect _ _ _).trans hw.feram)

/-- The island once the record of a message is taken, before its effect. -/
theorem sec_effectBegun {u : State} (hw : Written m s u) : (effectBegun (newRecord m s).1 copy u).sec =
    recordTaken (newRecord m s).1 copy s.sec := by
  unfold effectBegun
  rw [sec_secEvt]
  exact (congrArg (recordTaken (newRecord m s).1 copy) hw.sec).trans rfl

/-- Settles O55: the checks decide whether a message acts, and the effect of its kind is the one of R386. -/
theorem signedMessages : Obligations.SignedMessages := by
  unfold Obligations.SignedMessages
  refine ⟨?commission, ?ownerSecret, ?ownerRoot, ?msgReturn, ?msgRetire, ?msgConfirm, ?msgReject, ?privileged⟩
  case commission =>
    intro m ok s hwf hprog
    obtain ⟨hexec, hkind⟩ := exec_message (ok := ok) hwf hprog
    refine ⟨_, hexec, frame_deliver m ok s, deliver_refused ok, deliver_unwritten, fun h hok => ?_⟩
    obtain ⟨u, heq, hw⟩ := deliver_written h hok
    obtain ⟨howner, hcounter, hepoch, hroot⟩ := newRecord_commission (s := s) hkind
    have hp := (kind_newRecord m s).trans hkind
    have hferam := feram_shownEffect (copy := nextCopy s) hw
    have hbegun := sec_effectBegun (copy := nextCopy s) hw
    obtain ⟨due, obuf, hroots⟩ := sec_rootAbandon (blowFuse false (secEvt (effectBegun (newRecord m s).1 (nextCopy s) u) 0x100))
    have hsec : (deliver m ok s).2.sec = ownerTaken (newRecord m s).1 (newOwner m 1793).2
        (rootAbandon (blowFuse false (secEvt (effectBegun (newRecord m s).1 (nextCopy s) u) 0x100))).eng.released
        { { recordTaken (newRecord m s).1 (nextCopy s) s.sec with lcn := min 30 (s.sec.lcn + 1) } with
          xfer := none, obj := none, due := due, obuf := obuf } := by
      rw [heq, sec_secShow, messageEffect_commission hp, sec_takeOwner howner, hroots, sec_blowFuse_count, sec_secEvt, hbegun]
      rfl
    rw [ownerTaken, if_neg (by rw [hp]; simp), if_neg (by rw [hp]; simp)] at hsec
    rw [← heq] at hferam
    generalize (deliver m ok s).2 = t at *
    rw [hferam, hsec]
    exact ⟨hcounter, rfl, rfl, rfl, rfl, rfl, by rw [hepoch], rfl, hroot, hepoch, rfl, rfl⟩
  case ownerSecret =>
    intro m ok s hwf hprog
    obtain ⟨hexec, hkind⟩ := exec_message (ok := ok) hwf hprog
    refine ⟨_, hexec, frame_deliver m ok s, deliver_refused ok, deliver_unwritten, fun h hok => ?_⟩
    obtain ⟨u, heq, hw⟩ := deliver_written h hok
    obtain ⟨howner, hcounter, hepoch⟩ := newRecord_ownerSecret (s := s) hkind
    have hp := (kind_newRecord m s).trans hkind
    have hferam := feram_shownEffect (copy := nextCopy s) hw
    have hbegun := sec_effectBegun (copy := nextCopy s) hw
    have heng : (effectBegun (newRecord m s).1 (nextCopy s) u).eng = s.eng := hw.eng
    have hsec : (deliver m ok s).2.sec = ownerTaken (newRecord m s).1 (newOwner m 0).2 s.eng.released
        (recordTaken (newRecord m s).1 (nextCopy s) s.sec) := by
      rw [heq, sec_secShow, messageEffect_ownerSecret hp, sec_takeOwner howner, hbegun, heng]
    rw [← heq] at hferam
    generalize (deliver m ok s).2 = t at *
    rw [hferam, hsec]
    cases hrel : s.eng.released with
    | true =>
      rw [ownerTaken, if_pos ⟨hp, rfl⟩]
      exact ⟨hcounter, rfl, rfl, rfl, rfl, rfl, hepoch, rfl, fun _ => ⟨rfl, by rw [hepoch]⟩, fun h => absurd h (by decide)⟩
    | false =>
      rw [ownerTaken, if_neg (by simp), if_pos hp]
      exact ⟨hcounter, rfl, rfl, rfl, rfl, rfl, hepoch, rfl, fun h => absurd h (by decide), fun _ => by rw [hepoch]⟩
  case ownerRoot =>
    intro m ok s hwf hprog
    obtain ⟨hexec, hkind⟩ := exec_message (ok := ok) hwf hprog
    refine ⟨_, hexec, frame_deliver m ok s, deliver_refused ok, deliver_unwritten, fun h hok => ?_⟩
    obtain ⟨u, heq, hw⟩ := deliver_written h hok
    obtain ⟨hcounter, hroot⟩ := newRecord_ownerRoot (s := s) hkind
    have hp := (kind_newRecord m s).trans hkind
    have hferam := feram_shownEffect (copy := nextCopy s) hw
    have hbegun := sec_effectBegun (copy := nextCopy s) hw
    obtain ⟨due, obuf, hroots⟩ := sec_rootAbandon (secEvt (effectBegun (newRecord m s).1 (nextCopy s) u) 0x100)
    have hsec : (deliver m ok s).2.sec = { recordTaken (newRecord m s).1 (nextCopy s) s.sec with
        xfer := none, obj := none, due := due, obuf := obuf } := by
      rw [heq, sec_secShow, messageEffect_ownerRoot hp, hroots, sec_secEvt, hbegun]
    rw [← heq] at hferam
    generalize (deliver m ok s).2 = t at *
    rw [hferam, hsec]
    exact ⟨hcounter, rfl, rfl, rfl, rfl, rfl, hroot, rfl, rfl, rfl⟩
  case msgReturn =>
    intro m ok s hwf hprog
    obtain ⟨hexec, hkind⟩ := exec_message (ok := ok) hwf hprog
    refine ⟨_, hexec, frame_deliver m ok s, deliver_refused ok, deliver_unwritten, fun h hok => ?_⟩
    obtain ⟨u, heq, hw⟩ := deliver_written h hok
    obtain ⟨hcounter, howner, hroot, hwrapped⟩ := newRecord_return (s := s) hkind
    have hp := (kind_newRecord m s).trans hkind
    have hferam := feram_shownEffect (copy := nextCopy s) hw
    have hbegun := sec_effectBegun (copy := nextCopy s) hw
    obtain ⟨due, obuf, hroots⟩ := sec_rootAbandon (blowFuse false (ownerless (secEvt (effectBegun (newRecord m s).1 (nextCopy s) u) 0x100)))
    have hsec : (deliver m ok s).2.sec =
        { { { recordTaken (newRecord m s).1 (nextCopy s) s.sec with kOwner := none, kDue := none, kPrev := none } with
          lcn := min 30 (s.sec.lcn + 1) } with xfer := none, obj := none, due := due, obuf := obuf } := by
      rw [heq, sec_secShow, messageEffect_return hp, hroots, sec_blowFuse_count, ownerless, sec_secEvt, hbegun]
      rfl
    rw [← heq] at hferam
    generalize (deliver m ok s).2 = t at *
    rw [hferam, hsec]
    exact ⟨hcounter, rfl, rfl, rfl, rfl, rfl, howner, hroot, hwrapped, rfl, rfl⟩
  case msgRetire =>
    intro m ok s hwf hprog
    obtain ⟨hexec, hkind⟩ := exec_message (ok := ok) hwf hprog
    refine ⟨_, hexec, frame_deliver m ok s, deliver_refused ok, deliver_unwritten, fun h hok => ?_⟩
    obtain ⟨u, heq, hw⟩ := deliver_written h hok
    have hcounter := newRecord_retire (s := s) hkind
    have hp := (kind_newRecord m s).trans hkind
    have hferam := feram_shownEffect (copy := nextCopy s) hw
    have hbegun := sec_effectBegun (copy := nextCopy s) hw
    have hsec : (deliver m ok s).2.sec =
        { { recordTaken (newRecord m s).1 (nextCopy s) s.sec with kOwner := none, kDue := none, kPrev := none } with retired := true } := by
      rw [heq, sec_secShow, messageEffect_retire hp, sec_blowFuse_retire, ownerless, hbegun]
    rw [← heq] at hferam
    generalize (deliver m ok s).2 = t at *
    rw [hferam, hsec]
    exact ⟨hcounter, rfl, rfl, rfl, rfl, rfl, rfl⟩
  case msgConfirm =>
    intro m ok s hwf hprog
    obtain ⟨hexec, hkind⟩ := exec_message (ok := ok) hwf hprog
    refine ⟨_, hexec, frame_deliver m ok s, deliver_refused ok, deliver_unwritten, fun h hok => ?_⟩
    obtain ⟨u, heq, hw⟩ := deliver_written h hok
    have hrec := newRecord_confirm (s := s) hkind
    have hp := (kind_newRecord m s).trans hkind
    have hferam := feram_shownEffect (copy := nextCopy s) hw
    have hbegun := sec_effectBegun (copy := nextCopy s) hw
    have hsec : (deliver m ok s).2.sec = recordTaken (newRecord m s).1 (nextCopy s) s.sec := by
      rw [heq, sec_secShow, messageEffect_confirm hp, sec_confirmShow, hbegun]
    have hevt : (deliver m ok s).2.rb Reg.secEvt 6 = true := by
      rw [heq, rb_secShow_evt, messageEffect_confirm hp]
      exact confirmShow_confirmed _ _ _
    rw [← heq] at hferam
    obtain ⟨hstate, hfloor, htries, -, hcounter⟩ :=
      confirmRec_confirmed { s.sec.srec with counter := msgCounter m, seq := s.sec.srec.seq + 1, lcn := s.sec.lcn } s.image.slot
    rw [← hrec] at hstate hfloor htries hcounter
    generalize (deliver m ok s).2 = t at *
    rw [hferam, hsec]
    exact ⟨hcounter, rfl, rfl, rfl, rfl, rfl, hstate, hfloor, htries, hevt⟩
  case msgReject =>
    intro m ok s hwf hprog
    obtain ⟨hexec, hkind⟩ := exec_message (ok := ok) hwf hprog
    refine ⟨_, hexec, frame_deliver m ok s, deliver_refused ok, deliver_unwritten, fun h hok => ?_⟩
    obtain ⟨u, heq, hw⟩ := deliver_written h hok
    obtain ⟨hcounter, htries, htrial⟩ := newRecord_reject (s := s) hkind
    have hp := (kind_newRecord m s).trans hkind
    have hferam := feram_shownEffect (copy := nextCopy s) hw
    have hbegun := sec_effectBegun (copy := nextCopy s) hw
    have hsec : (deliver m ok s).2.sec = recordTaken (newRecord m s).1 (nextCopy s) s.sec := by
      rw [heq, sec_secShow, messageEffect_reject hp, sec_requestWarm, sec_rejectShown, hbegun]
    have hphase : phaseOf u = phaseOf s := rf_of_regs (hw.regs (by rw [hkind]; decide))
    have hwarm : phaseOf s ≠ 8 → phaseOf s ≠ 9 → s.boot.supplyOk = true → (deliver m ok s).2.boot.warmReq = some 0 := by
      intro h8 h9 hsupply
      rw [heq, boot_secShow, messageEffect_reject hp]
      refine warmReq_requestWarm 0 ?_ ?_ ?_
      · rwa [phaseOf_rejectShown, hphase]
      · rwa [phaseOf_rejectShown, hphase]
      · rwa [boot_rejectShown, hw.boot]
    rw [← heq] at hferam
    generalize (deliver m ok s).2 = t at *
    rw [hferam, hsec]
    exact ⟨hcounter, rfl, rfl, rfl, rfl, rfl, htries, htrial, hwarm⟩
  case privileged =>
    intro m ok s hwf hprog
    obtain ⟨hexec, hkind⟩ := exec_message (ok := ok) hwf hprog
    refine ⟨_, hexec, frame_deliver m ok s, deliver_refused ok, deliver_unwritten, fun h hok => ?_⟩
    obtain ⟨u, heq, hw⟩ := deliver_written h hok
    have hcounter := newRecord_privileged (s := s) hkind
    have hp := (kind_newRecord m s).trans hkind
    have hferam := feram_shownEffect (copy := nextCopy s) hw
    have hbegun := sec_effectBegun (copy := nextCopy s) hw
    have hsec : (deliver m ok s).2.sec = recordTaken (newRecord m s).1 (nextCopy s) s.sec := by
      rw [heq, sec_secShow, messageEffect_privileged hp, hbegun]
    have hevt : (deliver m ok s).2.rb Reg.secEvt 2 = true := by
      rw [heq, rb_secShow_evt, messageEffect_privileged hp]
      exact rb_orReg_same _ _ _ _ (by decide)
    rw [← heq] at hferam
    generalize (deliver m ok s).2 = t at *
    rw [hferam, hsec]
    exact ⟨hcounter, rfl, rfl, rfl, rfl, rfl, rfl, hevt⟩

end Sys2Proof.Machine
end

section
/-! PROOFS. The security record: pending, loaded, written, and the clock of a trial (R382, R386, R389, R395, R396): O54. -/

namespace Sys2Proof.Machine

variable {s t : State} {m : List Byte} {p : SecPend} {copy : Nat}

/-! ## The end of an operation -/

theorem sec_opDone (op tag code : Nat) (out : List Byte) (s : State) : ∃ sout, (opDone op tag (code, out, s)).sec =
    { s.sec with ops := s.sec.ops + 1, sout := sout } := by
  refine ⟨(opDone op tag (code, out, s)).sec.sout, ?_⟩
  rw [opDone_spec, sec_soutDrain, sec_sendIn]
  rfl

/-- A register apart from the queues and the log is as the operation left it. -/
theorem reg_opDone_aloof {a : Nat} (ha : Aloof a) (op tag code : Nat) (out : List Byte) (s : State) : (opDone op tag (code, out, s)).reg a = s.reg a := by
  rw [opDone_spec]
  unfold soutDrain
  rw [reg_islandPush_aloof ha]
  exact reg_sendIn_aloof ha _ _ _ _

theorem aloof_secEvt : Aloof Reg.secEvt := by
  unfold Aloof
  decide

theorem aloof_secCnt : Aloof Reg.secCnt := by
  unfold Aloof
  decide

theorem rb_opDone_evt (op tag code : Nat) (out : List Byte) (s : State) (i : Nat) : (opDone op tag (code, out, s)).rb Reg.secEvt i = s.rb Reg.secEvt i :=
  rb_of_reg (reg_opDone_aloof aloof_secEvt op tag code out s) i

theorem opDone_eq {r : Nat × List Byte × State} {code : Nat} {out : List Byte} {u : State} (h : r = (code, out, u)) (op tag : Nat) :
    opDone op tag r = opDone op tag (code, out, u) := congrArg (opDone op tag) h

/-! ## What an effect leaves of the record -/

/-- The record, its copy and the record pending, the count of operations and FeRAM are those of the other state. -/
def RecKept (s t : State) : Prop :=
  t.sec.srec = s.sec.srec ∧ t.sec.newest = s.sec.newest ∧ t.sec.pend = s.sec.pend ∧ t.sec.ops = s.sec.ops

theorem RecKept.trans {u : State} (h : RecKept s t) (k : RecKept t u) : RecKept s u := by
  obtain ⟨h1, h2, h3, h4⟩ := h
  obtain ⟨k1, k2, k3, k4⟩ := k
  exact ⟨k1.trans h1, k2.trans h2, k3.trans h3, k4.trans h4⟩

theorem recKept_of_sec (h : t.sec = s.sec) : RecKept s t := by
  unfold RecKept
  rw [h]
  exact ⟨rfl, rfl, rfl, rfl⟩

theorem recKept_rootAbandon (s : State) : RecKept s (rootAbandon s) := by
  obtain ⟨due, obuf, h⟩ := sec_rootAbandon s
  unfold RecKept
  rw [h]
  exact ⟨rfl, rfl, rfl, rfl⟩

theorem recKept_blowFuse (retire : Bool) (s : State) : RecKept s (blowFuse retire s) := by
  unfold RecKept
  cases retire
  · rw [sec_blowFuse_count]
    exact ⟨rfl, rfl, rfl, rfl⟩
  · rw [sec_blowFuse_retire]
    exact ⟨rfl, rfl, rfl, rfl⟩

theorem recKept_takeOwner (p : SecPend) (s : State) : RecKept s (takeOwner p s) := by
  cases h : p.owner with
  | none => 
    unfold takeOwner
    rw [h]
    exact recKept_of_sec rfl
  | some k =>
    unfold RecKept
    rw [sec_takeOwner h]
    unfold ownerTaken
    split <;> exact ⟨rfl, rfl, rfl, rfl⟩

theorem recKept_ownerless (s : State) : RecKept s (ownerless s) := ⟨rfl, rfl, rfl, rfl⟩

theorem messageEffect_other (h0 : p.kind ≠ 0) (h1 : p.kind ≠ 1) (h2 : p.kind ≠ 2) (h3 : p.kind ≠ 3) (h4 : p.kind ≠ 4) (h5 : p.kind ≠ 5)
    (h16 : p.kind ≠ 0x10) (h17 : p.kind ≠ 0x11) : messageEffect p copy s = effectBegun p copy s := by
  unfold messageEffect
  extract_lets s0 s1
  split
  next h => exact absurd h h1
  next h => exact absurd h h2
  next h => exact absurd h h3
  next h => exact absurd h h4
  next h => exact absurd h h5
  next h => exact absurd h h16
  next h => exact absurd h h17
  next => exact if_neg h0

/-- Whatever its kind, the effect of a pending record takes it into use. -/
theorem messageEffect_taken (p : SecPend) (copy : Nat) (s : State) : (messageEffect p copy s).sec.srec = p.newRec ∧
    (messageEffect p copy s).sec.newest = some copy ∧ (messageEffect p copy s).sec.pend = none ∧ (messageEffect p copy s).sec.ops = s.sec.ops := by
  suffices h : RecKept (effectBegun p copy s) (messageEffect p copy s) from h
  have hevt (n : Nat) : RecKept (effectBegun p copy s) (secEvt (effectBegun p copy s) n) := recKept_of_sec rfl
  by_cases h0 : p.kind = 0
  · exact messageEffect_update h0 ▸ recKept_of_sec rfl
  by_cases h1 : p.kind = 1
  · rw [messageEffect_commission h1]
    exact (((hevt _).trans (recKept_blowFuse _ _)).trans (recKept_rootAbandon _)).trans (recKept_takeOwner _ _)
  by_cases h2 : p.kind = 2
  · rw [messageEffect_ownerSecret h2]
    exact recKept_takeOwner _ _
  by_cases h3 : p.kind = 3
  · rw [messageEffect_ownerRoot h3]
    exact (hevt _).trans (recKept_rootAbandon _)
  by_cases h4 : p.kind = 4
  · rw [messageEffect_return h4]
    exact (((hevt _).trans (recKept_ownerless _)).trans (recKept_blowFuse _ _)).trans (recKept_rootAbandon _)
  by_cases h5 : p.kind = 5
  · rw [messageEffect_retire h5]
    exact (recKept_ownerless _).trans (recKept_blowFuse _ _)
  by_cases h16 : p.kind = 0x10
  · rw [messageEffect_confirm h16]
    exact recKept_of_sec (sec_confirmShow _ _ _)
  by_cases h17 : p.kind = 0x11
  · rw [messageEffect_reject h17]
    exact recKept_of_sec ((sec_requestWarm _ _).trans (sec_rejectShown _ _ _))
  rw [messageEffect_other h0 h1 h2 h3 h4 h5 h16 h17]
  exact recKept_of_sec rfl

/-! ## MESSAGE and RECORD_DONE -/

theorem messageOp_refused (h : (islandMessage m s).1 ≠ 0) :
    messageOp m s = ((islandMessage m s).1, [], secShow (refused (msgKind m) (islandMessage m s).1 s)) := by
  unfold messageOp
  extract_lets r
  rw [if_pos h, islandMessage_refused h]

theorem messageOp_of_pend {u : State} (hmsg : islandMessage m s = (0, u)) (hpend : u.sec.pend = some p) : messageOp m s = (0, recBytes p.newRec, u) := by
  unfold messageOp
  rw [hmsg]
  extract_lets r
  rw [if_neg (not_not.mpr rfl), hpend]

theorem messageOp_accepted (h : (islandMessage m s).1 = 0) : messageOp m s = (0, recBytes (newRecord m s).1.newRec, messagePended m s) :=
  messageOp_of_pend (Prod.ext h (islandMessage_accepted h)) (congrArg Sec.pend (sec_messagePended m s))

theorem recordDoneOp_none (failed : Bool) (h : s.sec.pend = none) : recordDoneOp copy failed s = (1, [], s) := by
  unfold recordDoneOp
  rw [h]

/-- The island without the record that was pending. -/
def pendDropped (s : State) : State := { s with sec := { s.sec with pend := none } }

theorem recordDoneOp_failed {failed : Bool} (h : s.sec.pend = some p) (hf : failed = true) :
    recordDoneOp copy failed s = (11, [], secShow (if p.kind = 0 then pendDropped s else refused p.kind 0x0B (pendDropped s))) := by
  subst hf
  unfold recordDoneOp
  rw [h]
  rfl

theorem recordDoneOp_done {failed : Bool} (h : s.sec.pend = some p) (hf : failed = false) : recordDoneOp copy failed s =
    (0, [], secShow (messageEffect p copy (withFeram (memPut s.feram (recAddr copy) (recBytes p.newRec)) s))) := by
  subst hf
  unfold recordDoneOp
  rw [h]
  rfl

/-- What a failed write leaves. -/
theorem pendDropped_shown (k code : Nat) (s : State) :
    (secShow (if k = 0 then pendDropped s else refused k code (pendDropped s))).sec = { s.sec with pend := none } ∧
    (secShow (if k = 0 then pendDropped s else refused k code (pendDropped s))).feram = s.feram := by
  split
  · exact ⟨(sec_secShow _).trans rfl, (secShow_keeps (sub_refl _) (Keeps.refl _ (pendDropped s))).feram rfl⟩
  · exact ⟨(sec_secShow _).trans ((sec_refused _ _ _).trans rfl), (feram_shownRefusal _ _ _).trans rfl⟩

/-! ## LOADREC -/

theorem loadCopies_retired (b0 b1 : List Byte) (blown : Bool) (h : s.sec.retired = true) : loadCopies b0 b1 blown s = s := if_pos h

/-- The island with the record of a copy in use. -/
structure Loaded (r : SecRec) (c : Nat) (s t : State) : Prop where
  srec : t.sec.srec = r
  newest : t.sec.newest = some c
  ops : t.sec.ops = s.sec.ops
  feram : t.feram = s.feram

/-- The record of a copy in use. -/
def useRecord (r : SecRec) (c : Nat) (s u : State) : State :=
  { u with sec := { u.sec with srec := r, newest := some c, noRec := false, kDue := none, kPrev := none, pend := none,
                               kOwner := if r.owner then (unwrapOwner s.sec.lcn r.wrapped).map (fun k => (r.epoch, k)) else none } }

theorem loaded_useRecord (r : SecRec) (c : Nat) {u : State} (hops : u.sec.ops = s.sec.ops) (hferam : u.feram = s.feram) :
    Loaded r c s (useRecord r c s u) := ⟨rfl, rfl, hops, hferam⟩

section
variable {b0 b1 : List Byte} {blown : Bool}

theorem loadCopies_first (hret : s.sec.retired = false) (h0 : recFault s b0 = 0) (h1 : recFault s b1 ≠ 0) :
    Loaded (recParse b0) 0 s (loadCopies b0 b1 blown s) ∧ (loadCopies b0 b1 blown s).rb Reg.secEvt 9 = true := by
  unfold loadCopies
  rw [if_neg (by simp [hret])]
  extract_lets f0 f1 s1 w use
  have hs1 : s1 = secEvt s 0x200 := if_neg (fun h => h1 h.2)
  have hw : w = s.sec := (congrArg State.sec hs1).trans rfl
  rw [if_neg (fun h => h1 h.2), if_pos h0]
  have huse : use 0 = useRecord (recParse b0) 0 s (secEvt s 0x200) := by
    unfold use
    rw [if_pos rfl, hs1, hw]
    rfl
  rw [huse]
  exact ⟨loaded_useRecord _ _ rfl rfl, rb_orReg_same s _ _ _ (by decide)⟩

theorem loadCopies_second (hret : s.sec.retired = false) (h0 : recFault s b0 ≠ 0) (h1 : recFault s b1 = 0) :
    Loaded (recParse b1) 1 s (loadCopies b0 b1 blown s) ∧ (loadCopies b0 b1 blown s).rb Reg.secEvt 9 = true := by
  unfold loadCopies
  rw [if_neg (by simp [hret])]
  extract_lets f0 f1 s1 w use
  have hs1 : s1 = secEvt s 0x200 := if_neg (fun h => h0 h.1)
  have hw : w = s.sec := (congrArg State.sec hs1).trans rfl
  rw [if_neg (fun h => h0 h.1), if_neg h0, if_pos h1]
  have huse : use 1 = useRecord (recParse b1) 1 s (secEvt s 0x200) := by
    unfold use
    rw [if_neg (by decide), hs1, hw]
    rfl
  rw [huse]
  exact ⟨loaded_useRecord _ _ rfl rfl, rb_orReg_same s _ _ _ (by decide)⟩

theorem loadCopies_both (hret : s.sec.retired = false) (h0 : recFault s b0 = 0) (h1 : recFault s b1 = 0) :
    Loaded (if (recParse b0).seq < (recParse b1).seq then recParse b1 else recParse b0)
      (if (recParse b0).seq < (recParse b1).seq then 1 else 0) s (loadCopies b0 b1 blown s) := by
  have hnr : ¬ s.sec.retired = true := by simp [hret]
  unfold loadCopies
  rw [if_neg hnr]
  extract_lets f0 f1 s1 w use
  have hs1 : s1 = s := if_pos ⟨h0, h1⟩
  have hw : w = s.sec := congrArg State.sec hs1
  have hboth : f0 = 0 ∧ f1 = 0 := ⟨h0, h1⟩
  rw [if_pos hboth]
  by_cases hlt : (recParse b0).seq < (recParse b1).seq
  · have huse : use 1 = useRecord (recParse b1) 1 s s := by
      unfold use
      rw [if_neg (by decide), hs1, hw]
      rfl
    rw [if_pos hlt, if_pos hlt, huse]
    exact loaded_useRecord _ _ rfl rfl
  · have huse : use 0 = useRecord (recParse b0) 0 s s := by
      unfold use
      rw [if_pos rfl, hs1, hw]
      rfl
    rw [if_neg hlt, if_neg hlt, huse]
    exact loaded_useRecord _ _ rfl rfl

theorem noRecord_spec (cause : Nat) (blown : Bool) (s : State) : (noRecord cause blown s).sec.noRec = true ∧
    (noRecord cause blown s).sec.newest = none ∧ (noRecord cause blown s).sec.kOwner = none ∧ (noRecord cause blown s).sec.ops = s.sec.ops := by
  unfold noRecord
  extract_lets s1 s2
  refine ⟨rfl, rfl, rfl, ?_⟩
  have h1 : s1.sec.ops = s.sec.ops := congrArg Sec.ops (sec_secRecLog _ _ _ _ _)
  have h2 : s2.sec.ops = s1.sec.ops := by
    unfold s2
    split
    · exact (recKept_blowFuse _ s1).2.2.2
    · rfl
  exact h2.trans h1

theorem loadCopies_none (hret : s.sec.retired = false) (h0 : recFault s b0 ≠ 0) (h1 : recFault s b1 ≠ 0) :
    (loadCopies b0 b1 blown s).sec.noRec = true ∧ (loadCopies b0 b1 blown s).sec.newest = none ∧
    (loadCopies b0 b1 blown s).sec.kOwner = none ∧ (loadCopies b0 b1 blown s).sec.ops = s.sec.ops := by
  unfold loadCopies
  rw [if_neg (by simp [hret])]
  extract_lets f0 f1 s1 w use
  have hs1 : s1 = secEvt s 0x200 := if_neg (fun h => h0 h.1)
  rw [if_neg (fun h => h0 h.1), if_neg h0, if_neg h1, hs1]
  exact noRecord_spec _ _ _

theorem ops_loadCopies (hret : s.sec.retired = false) : (loadCopies b0 b1 blown s).sec.ops = s.sec.ops := by
  by_cases h0 : recFault s b0 = 0
  · by_cases h1 : recFault s b1 = 0
    · exact (loadCopies_both hret h0 h1).ops
    · exact (loadCopies_first hret h0 h1).1.ops
  · by_cases h1 : recFault s b1 = 0
    · exact (loadCopies_second hret h0 h1).1.ops
    · exact (loadCopies_none hret h0 h1).2.2.2

end

/-! ## UPDATE_REC -/

theorem updateOp_pends {ws : List Word} (hret : s.sec.retired = false) (hpend : s.sec.pend = none) : updateOp ws s =
    (0, recBytes (updatedRec ws s), { s with sec := { s.sec with pend := some { kind := 0, newRec := updatedRec ws s, owner := none } } }) := by
  unfold updateOp
  rw [if_neg (by simp [hret]), if_neg (by simp [hpend])]

theorem updateOp_busy {ws : List Word} (hret : s.sec.retired = false) (hpend : s.sec.pend = some p) : updateOp ws s = (14, [], s) := by
  unfold updateOp
  rw [if_neg (by simp [hret]), if_pos (by simp [hpend])]

/-- FLOOR never falls. -/
theorem floor_le_updatedRec (ws : List Word) (s : State) : s.sec.srec.floor ≤ (updatedRec ws s).floor := by
  unfold updatedRec
  extract_lets w o r fa
  have ha : o.floor ≤ fa := by
    unfold fa
    split
    · exact le_max_left _ _
    · exact le_refl _
  have hb : o.floor ≤ if r.stB = 4 ∧ o.stB ≠ 4 then max fa r.seqB else fa := by
    split
    · exact ha.trans (le_max_left _ _)
    · exact ha
  exact hb

theorem exec_updateRec {tag : BitVec 8} {ws : List Word} {r : Nat × List Byte × State} (hwf : (Instr.updateRec false tag ws).wf = true)
    (hjob : s.sec.job = none) (hprog : s.boot.prog = false) (hr : updateOp ws s = r) :
    exec (.updateRec false tag ws) s = .next (opDone 11 tag.toNat r) := (if_pos hwf).trans (exec_islandOp hjob hprog hr)

/-! ## The clock of a trial -/

theorem sec_putRecord (r : SecRec) (hret : s.sec.retired = false) : (putRecord r s).sec =
    { s.sec with srec := { r with seq := s.sec.srec.seq + 1, lcn := s.sec.lcn }, newest := some (nextCopy s) } := by
  unfold putRecord
  rw [if_neg (by simp [hret])]

theorem feram_putRecord (r : SecRec) (hret : s.sec.retired = false) : (putRecord r s).feram =
    memPut s.feram (recAddr (nextCopy s)) (recBytes { r with seq := s.sec.srec.seq + 1, lcn := s.sec.lcn }) := by
  unfold putRecord
  rw [if_neg (by simp [hret])]

/-- A record written to its copy and shown. -/
theorem putRecord_shown (r : SecRec) (hret : s.sec.retired = false) :
    (secShow (putRecord r s)).sec = { s.sec with srec := { r with seq := s.sec.srec.seq + 1, lcn := s.sec.lcn }, newest := some (nextCopy s) } ∧
    (secShow (putRecord r s)).feram = memPut s.feram (recAddr (nextCopy s)) (recBytes { r with seq := s.sec.srec.seq + 1, lcn := s.sec.lcn }) :=
  ⟨(sec_secShow _).trans (sec_putRecord r hret),
    ((secShow_keeps (sub_refl _) (Keeps.refl _ (putRecord r s))).feram rfl).trans (feram_putRecord r hret)⟩

theorem trialMinute_none (ok : Bool) (h : trialSlot s.sec.srec = none) : trialMinute ok s = s := by
  unfold trialMinute
  rw [h]

theorem trialMinute_retired (ok : Bool) (h : s.sec.retired = true) : trialMinute ok s = s := by
  unfold trialMinute
  split
  · rfl
  · exact if_pos (by simp [h])

/-- The record after a minute of a trial. -/
def minuteRec (r : SecRec) : SecRec := { r with trialMin := r.trialMin + 1 }

theorem trialMinute_counted {x : Nat} (hslot : trialSlot s.sec.srec = some x) (hret : s.sec.retired = false) (hphase : s.rf Reg.sysStat 3 0 = 7)
    (hlimit : s.rf Reg.secUpdCfg 31 16 = 0) : trialMinute true s = secShow (putRecord (minuteRec s.sec.srec) s) := by
  unfold trialMinute
  split
  next hn => rw [hn] at hslot; cases hslot
  next y hy =>
  obtain rfl : y = x := Option.some.inj (hy.symm.trans hslot)
  extract_lets r h
  rw [if_neg (by simp [hret, hphase]), if_neg (fun hc => hc.1 hlimit)]
  rfl

theorem trialMinute_confirms {x : Nat} (hslot : trialSlot s.sec.srec = some x) (hret : s.sec.retired = false) (hphase : s.rf Reg.sysStat 3 0 = 7)
    (hlimit : s.rf Reg.secUpdCfg 31 16 ≠ 0) (hmin : 60 * s.rf Reg.secUpdCfg 31 16 ≤ s.sec.srec.trialMin + 1) :
    trialMinute true s = secShow (confirmShow x 1 (putRecord (confirmRec (minuteRec s.sec.srec) x) s)) := by
  unfold trialMinute
  split
  next hn => rw [hn] at hslot; cases hslot
  next y hy =>
  obtain rfl : y = x := Option.some.inj (hy.symm.trans hslot)
  extract_lets r h
  rw [if_neg (by simp [hret, hphase]), if_pos ⟨hlimit, hmin⟩]
  rfl

theorem triesReset_retired (h : s.sec.retired = true) : triesReset s = s := if_neg (by simp [h])

theorem triesReset_written (hret : s.sec.retired = false) (hphase : s.rf Reg.sysStat 3 0 = 7) (htries : s.sec.srec.tries ≠ 0) :
    triesReset s = secShow (putRecord { s.sec.srec with tries := 0 } s) := if_pos ⟨hphase, htries, by simp [hret]⟩

/-- A confirmation ends the TRIAL that SYS_STAT shows. -/
theorem confirmShow_sysStat (slot how : Nat) (s : State) : (confirmShow slot how s).rb Reg.sysStat 4 = false := by
  have hreg : (confirmShow slot how s).reg Reg.sysStat = (s.setRb Reg.sysStat 4 false).reg Reg.sysStat :=
    (reg_append _ _ _ _ _ (by decide)).trans (reg_orReg_ne _ (by decide))
  exact (rb_of_reg hreg 4).trans (rb_setRb_same s _ 4 false (by decide))

/-- Settles O54: an operation answers alike whatever it does, and each does to the record what its rule says. -/
theorem securityRecord : Obligations.SecurityRecord := by
  unfold Obligations.SecurityRecord
  refine ⟨?message, ?done, ?failed, ?nothing, ?load, ?loadRetired, ?update, ?updateBusy, ?grace, ?minuteRetired, ?triesRetired, ?minute, ?confirm,
    ?noTrial, ?tries⟩
  case message =>
    intro busy tag m s hbusy hjob hprog
    subst hbusy
    have hkeeps := execIslandMessage_keeps false tag m (sub_refl _) (Keeps.refl _ s)
    by_cases hc : (islandMessage m s).1 = 0
    · have hexec := exec_islandOp (op := 5) (tag := tag) hjob hprog (messageOp_accepted hc)
      have ha := answered_opDone 5 tag.toNat 0 (recBytes (newRecord m s).1.newRec) (messagePended m s)
      obtain ⟨sout, hsec⟩ := sec_opDone 5 tag.toNat 0 (recBytes (newRecord m s).1.newRec) (messagePended m s)
      have hpended := sec_messagePended m s
      have hferam := ha.feram.trans ((messagePended_rest hc).feram rfl)
      refine ⟨_, hexec, hkeeps.frame hexec rfl, ?_⟩
      rw [hpended] at hsec
      generalize opDone 5 tag.toNat (0, recBytes (newRecord m s).1.newRec, messagePended m s) = t at *
      rw [hc, hsec]
      exact ⟨ha.result, ha.sent, rfl, fun _ => rfl, fun h => absurd rfl h, rfl, hferam⟩
    · have hexec := exec_islandOp (op := 5) (tag := tag) hjob hprog (messageOp_refused hc)
      have ha := answered_opDone 5 tag.toNat (islandMessage m s).1 [] (secShow (refused (msgKind m) (islandMessage m s).1 s))
      obtain ⟨sout, hsec⟩ := sec_opDone 5 tag.toNat (islandMessage m s).1 [] (secShow (refused (msgKind m) (islandMessage m s).1 s))
      have hshown : (secShow (refused (msgKind m) (islandMessage m s).1 s)).sec = s.sec := (sec_secShow _).trans (sec_refused _ _ _)
      obtain ⟨hevt, hcnt⟩ := refused_shown (msgKind m) (islandMessage m s).1 s
      have hferam := ha.feram.trans (feram_shownRefusal _ _ _)
      refine ⟨_, hexec, hkeeps.frame hexec rfl, ha.result, ha.sent, ?_, fun h => absurd h hc, fun _ => ⟨?_, ?_, ?_⟩, ?_, hferam⟩
      · rw [hsec, hshown]
      · rw [hsec, hshown]
      · rw [rb_opDone_evt, hevt]
      · rw [rf_of_reg (reg_opDone_aloof aloof_secCnt _ _ _ _ _), hcnt]
      · rw [hsec, hshown]
  case done =>
    intro busy tag copy failed p s hbusy hjob hpend hf hprog
    subst hbusy
    have hexec := exec_islandOp (op := 6) (tag := tag) hjob hprog (recordDoneOp_done (copy := copy.val) hpend hf)
    have hkeeps := execRecordDone_keeps false tag copy failed (sub_refl _) (Keeps.refl _ s)
    obtain ⟨h1, h2, h3, h4⟩ := messageEffect_taken p copy.val (withFeram (memPut s.feram (recAddr copy.val) (recBytes p.newRec)) s)
    have hferam := feram_messageEffect p copy.val (withFeram (memPut s.feram (recAddr copy.val) (recBytes p.newRec)) s)
    rw [feram_withFeram] at hferam
    rw [sec_withFeram] at h4
    refine ⟨_, hexec, hkeeps.frame hexec rfl, ?_⟩
    generalize messageEffect p copy.val (withFeram (memPut s.feram (recAddr copy.val) (recBytes p.newRec)) s) = u at *
    have ha := answered_opDone 6 tag.toNat 0 [] (secShow u)
    obtain ⟨sout, hsec⟩ := sec_opDone 6 tag.toNat 0 [] (secShow u)
    rw [sec_secShow] at hsec
    refine ⟨ha.result, ha.sent, ?_, ?_, ?_, ?_, ha.feram.trans (((secShow_keeps (sub_refl _) (Keeps.refl _ u)).feram rfl).trans hferam)⟩
    · rw [hsec, ← h4]
    · rw [hsec, ← h1]
    · rw [hsec, ← h2]
    · rw [hsec, ← h3]
  case failed =>
    intro busy tag copy failed p s hbusy hjob hpend hf hprog
    subst hbusy
    have hexec := exec_islandOp (op := 6) (tag := tag) hjob hprog (recordDoneOp_failed (copy := copy.val) hpend hf)
    have hkeeps := execRecordDone_keeps false tag copy failed (sub_refl _) (Keeps.refl _ s)
    obtain ⟨hdropped, hferam⟩ := pendDropped_shown p.kind 0x0B s
    have ha := answered_opDone 6 tag.toNat 11 [] (secShow (if p.kind = 0 then pendDropped s else refused p.kind 0x0B (pendDropped s)))
    obtain ⟨sout, hsec⟩ := sec_opDone 6 tag.toNat 11 [] (secShow (if p.kind = 0 then pendDropped s else refused p.kind 0x0B (pendDropped s)))
    rw [hdropped] at hsec
    refine ⟨_, hexec, hkeeps.frame hexec rfl, ha.result, ?_, ?_, ?_, ha.feram.trans hferam, fun hk => ?_, fun hk => ?_⟩
    · rw [hsec]
    · rw [hsec]
    · rw [hsec]
    · rw [rb_opDone_evt, if_neg hk]
      exact (refused_shown p.kind 0x0B (pendDropped s)).1
    · rw [reg_opDone_aloof aloof_secEvt, reg_opDone_aloof aloof_secCnt, if_pos hk, reg_secShow_evt (Or.inl rfl), reg_secShow_evt (Or.inr rfl)]
      exact ⟨rfl, rfl⟩
  case nothing =>
    intro busy tag copy failed s hbusy hjob hpend hprog
    subst hbusy
    have hexec := exec_islandOp (op := 6) (tag := tag) hjob hprog (recordDoneOp_none (copy := copy.val) failed hpend)
    have hkeeps := execRecordDone_keeps false tag copy failed (sub_refl _) (Keeps.refl _ s)
    have ha := answered_opDone 6 tag.toNat 1 [] s
    exact ⟨_, hexec, hkeeps.frame hexec rfl, ha.result, ha.ops, ha.srec, ha.feram⟩
  case load =>
    intro busy tag blown s hbusy hjob hret hprog
    subst hbusy
    have hexec : exec (.loadrec false tag blown) s = .next (opDone 7 tag.toNat (0, [], loadRec blown s)) :=
      exec_islandOp (f := fun t => (if t.sec.retired then 0x0D else 0, [], loadRec blown t)) hjob hprog (by rw [if_neg (by simp [hret])])
    have hkeeps := execLoadrec_keeps false tag blown (sub_refl _) (Keeps.refl _ s)
    refine ⟨_, hexec, hkeeps.frame hexec rfl, ?_⟩
    unfold loadRec
    generalize memBytes s.feram (recAddr 0) 16384 = b0
    generalize memBytes s.feram (recAddr 1) 16384 = b1
    have ha := answered_opDone 7 tag.toNat 0 [] (loadCopies b0 b1 blown s)
    obtain ⟨sout, hsec⟩ := sec_opDone 7 tag.toNat 0 [] (loadCopies b0 b1 blown s)
    refine ⟨ha.result, ha.sent, ha.ops.trans (congrArg (· + 1) (ops_loadCopies hret)), fun h0 h1 => ?_, fun h0 h1 => ?_, fun h0 h1 hlt => ?_,
      fun h0 h1 hle => ?_, fun h0 h1 => ?_⟩
    · obtain ⟨hl, hevt⟩ := loadCopies_first (blown := blown) hret h0 h1
      rw [rb_opDone_evt, hsec]
      exact ⟨hl.srec, hl.newest, hevt⟩
    · obtain ⟨hl, hevt⟩ := loadCopies_second (blown := blown) hret h0 h1
      rw [rb_opDone_evt, hsec]
      exact ⟨hl.srec, hl.newest, hevt⟩
    · have hl := loadCopies_both (blown := blown) hret h0 h1
      rw [if_pos hlt, if_pos hlt] at hl
      rw [hsec]
      exact ⟨hl.srec, hl.newest⟩
    · have hl := loadCopies_both (blown := blown) hret h0 h1
      rw [if_neg (not_lt.mpr hle), if_neg (not_lt.mpr hle)] at hl
      rw [hsec]
      exact ⟨hl.srec, hl.newest⟩
    · obtain ⟨hno, hnewest, howner, -⟩ := loadCopies_none (blown := blown) hret h0 h1
      rw [hsec]
      exact ⟨hno, hnewest, howner⟩
  case loadRetired =>
    intro busy tag blown s hbusy hjob hret hprog
    subst hbusy
    have hexec : exec (.loadrec false tag blown) s = .next (opDone 7 tag.toNat (13, [], s)) :=
      exec_islandOp (f := fun t => (if t.sec.retired then 0x0D else 0, [], loadRec blown t)) hjob hprog
        (by rw [if_pos hret, loadRec, loadCopies_retired _ _ _ hret])
    have hkeeps := execLoadrec_keeps false tag blown (sub_refl _) (Keeps.refl _ s)
    have ha := answered_opDone 7 tag.toNat 13 [] s
    exact ⟨_, hexec, hkeeps.frame hexec rfl, ha.result, ha.ops, ha.srec⟩
  case update =>
    intro busy tag ws s hwf hbusy hjob hret hpend hprog
    subst hbusy
    have hexec := exec_updateRec (tag := tag) hwf hjob hprog (updateOp_pends (ws := ws) hret hpend)
    have hkeeps := execUpdateRec_keeps false tag ws (sub_refl _) (Keeps.refl _ s)
    refine ⟨_, hexec, hkeeps.frame hexec rfl, ?_⟩
    generalize recBytes (updatedRec ws s) = out
    have hfloor := floor_le_updatedRec ws s
    generalize updatedRec ws s = r at *
    have ha := answered_opDone 11 tag.toNat 0 out { s with sec := { s.sec with pend := some { kind := 0, newRec := r, owner := none } } }
    obtain ⟨sout, hsec⟩ := sec_opDone 11 tag.toNat 0 out { s with sec := { s.sec with pend := some { kind := 0, newRec := r, owner := none } } }
    exact ⟨ha.result, ha.sent, ha.ops, congrArg Sec.pend hsec, hfloor, ha.srec⟩
  case updateBusy =>
    intro busy tag ws p s hwf hbusy hjob hret hpend hprog
    subst hbusy
    have hexec := exec_updateRec (tag := tag) hwf hjob hprog (updateOp_busy (ws := ws) hret hpend)
    have hkeeps := execUpdateRec_keeps false tag ws (sub_refl _) (Keeps.refl _ s)
    have ha := answered_opDone 11 tag.toNat 14 [] s
    obtain ⟨sout, hsec⟩ := sec_opDone 11 tag.toNat 14 [] s
    exact ⟨_, hexec, hkeeps.frame hexec rfl, ha.result, ha.ops, (congrArg Sec.pend hsec).trans hpend, ha.srec⟩
  case grace =>
    intro s hprog
    have hexec : exec .epochGraceEnd s = .next { s with sec := { s.sec with kPrev := none } } :=
      congrArg Host.Outcome.next (if_neg (by simp [hprog]))
    exact ⟨_, hexec, (execEpochGraceEnd_keeps (sub_refl _) (Keeps.refl _ s)).frame hexec rfl, rfl⟩
  case minuteRetired =>
    intro ok s hret
    have hexec : exec (.trialMinute ok) s = .next s := congrArg Host.Outcome.next (trialMinute_retired ok hret)
    exact ⟨s, hexec, (execTrialMinute_keeps ok (sub_refl _) (Keeps.refl _ s)).frame hexec rfl, rfl⟩
  case triesRetired =>
    intro s hret
    have hexec : exec .triesReset s = .next s := congrArg Host.Outcome.next (triesReset_retired hret)
    exact ⟨s, hexec, (execTriesReset_keeps (sub_refl _) (Keeps.refl _ s)).frame hexec rfl, rfl⟩
  case minute =>
    intro ok x s hslot hret hphase hok hlimit
    subst hok
    have hexec : exec (.trialMinute true) s = .next _ := congrArg Host.Outcome.next (trialMinute_counted hslot hret hphase hlimit)
    obtain ⟨hsec, hferam⟩ := putRecord_shown (minuteRec s.sec.srec) hret
    refine ⟨_, hexec, (execTrialMinute_keeps true (sub_refl _) (Keeps.refl _ s)).frame hexec rfl, ?_⟩
    rw [hferam, hsec]
    exact ⟨rfl, rfl, rfl⟩
  case confirm =>
    intro ok x s hslot hret hphase hok hlimit hmin
    subst hok
    have hexec : exec (.trialMinute true) s = .next _ := congrArg Host.Outcome.next (trialMinute_confirms hslot hret hphase hlimit hmin)
    have hsec : (secShow (confirmShow x 1 (putRecord (confirmRec (minuteRec s.sec.srec) x) s))).sec = _ :=
      (sec_secShow _).trans ((sec_confirmShow _ _ _).trans (sec_putRecord _ hret))
    obtain ⟨hstate, hfloor, htries, htrial, -⟩ := confirmRec_confirmed (minuteRec s.sec.srec) x
    refine ⟨_, hexec, (execTrialMinute_keeps true (sub_refl _) (Keeps.refl _ s)).frame hexec rfl, ?_⟩
    rw [hsec, rb_of_reg (reg_secShow _ (by decide)), rb_secShow_evt]
    exact ⟨hstate, hfloor, htries, htrial, confirmShow_sysStat _ _ _, confirmShow_confirmed _ _ _⟩
  case noTrial =>
    intro ok s hslot
    have hexec : exec (.trialMinute ok) s = .next s := congrArg Host.Outcome.next (trialMinute_none ok hslot)
    exact ⟨s, hexec, (execTrialMinute_keeps ok (sub_refl _) (Keeps.refl _ s)).frame hexec rfl, rfl⟩
  case tries =>
    intro s hret hphase htries
    have hexec : exec .triesReset s = .next _ := congrArg Host.Outcome.next (triesReset_written hret hphase htries)
    obtain ⟨hsec, hferam⟩ := putRecord_shown { s.sec.srec with tries := 0 } hret
    refine ⟨_, hexec, (execTriesReset_keeps (sub_refl _) (Keeps.refl _ s)).frame hexec rfl, ?_⟩
    rw [hferam, hsec]
    exact ⟨rfl, rfl⟩

end Sys2Proof.Machine
end

section
/-! PROOFS. The registers that the field and control commands write: O58. -/

namespace Sys2Proof.Machine

/-- A station that is UP and overdue, with an error task whose arm flag is the one behind the 256 that there are. -/
def overdueStation : State :=
  { State.reset with
    regs := [(Reg.ctlStaCfg 0, 1#32)], fabTime := 1,
    image := { State.reset.image with errTasks := [{ station := 0, flag := 256, path := 0 }] },
    ctl := { State.reset.ctl with stations := [(0, { station0 with up := true, last := some 0 })] } }

/-- What a run of the station path leaves in a register other than CTL_STAT is what the turns of the stations leave there. -/
theorem reg_stationCheck {a : Nat} (ha : a ≠ Reg.ctlStat) (s : State) :
    (stationCheck s).reg a = ((List.range 64).foldl stationOne s).reg a := by
  unfold stationCheck
  rw [reg_republish, reg_foldl_stationPoint, reg_setRb_ne _ _ ha]

theorem arm_overdueStation : ((List.range 64).foldl stationOne overdueStation).reg (Reg.tteArm 8) ≠ overdueStation.reg (Reg.tteArm 8) := by
  decide +kernel

/-- The list of O58 for STATION_CHECK holds the eight TTE_ARM registers and not the word behind them. -/
theorem tteArm_notListed : Reg.tteArm 8 ∉ [Reg.ctlEvt, Reg.ctlStat, Reg.logEvt] ++ regs1 64 Reg.ctlStaStat ++ regs1 8 Reg.tteArm := by
  decide +kernel

/-- Refutes O58: a station that goes DOWN sets the arm flag of its error task (R249), whatever its number, and flag 256 is in the
word behind the eight TTE_ARM registers. -/
theorem not_fieldAndControlRegisterFrames : ¬ Obligations.FieldAndControlRegisterFrames := by
  unfold Obligations.FieldAndControlRegisterFrames
  intro h
  obtain ⟨-, -, -, -, -, -, -, -, -, -, hcheck⟩ := h
  have hregs := hcheck overdueStation (stationCheck overdueStation) rfl (Reg.tteArm 8) tteArm_notListed
  exact arm_overdueStation ((reg_stationCheck (by decide) _).symm.trans hregs)

end Sys2Proof.Machine
end

section
/-! PROOFS. The registers that a command may write, group by group: the layer under O57 and O59. A mask names groups of
registers, as the masks of Laws name fields of the state. -/

namespace Sys2Proof.Machine

/-- The groups of registers, by their number in a mask. -/
def regGroups : List (List Nat) :=
  [[Reg.logEvt], regs2 4 4 Reg.aioAgChOut, regs1 4 Reg.aioAgCmd, regs1 12 Reg.canChEvt, regs2 12 48 Reg.canChMbId,  -- 0 to 4
   regs1 12 Reg.canChStat, [Reg.ctlEvt], regs1 128 Reg.ctlLpStat, [Reg.ctlStat], [Reg.ctlTsCtrl],  -- 5 to 9
   [Reg.ctlTsStat], regs1 2 Reg.dioDoCmd, [Reg.fabCoalCnt], [Reg.fabCoalStat], [Reg.fabDetours],  -- 10 to 14
   [Reg.fabEvt], regs1 8 Reg.fabLkDelay, regs1 8 Reg.fabLkDrop, regs1 8 Reg.fabLkErr0, regs1 8 Reg.fabLkErr1,  -- 15 to 19
   regs1 8 Reg.fabLkOffset, regs1 8 Reg.fabLkQuar, regs1 8 Reg.fabLkRx, regs1 8 Reg.fabLkStat, regs1 8 Reg.fabLkTx,  -- 20 to 24
   regs1 8 Reg.fabLkViol, [Reg.fabParcelStat], [Reg.fabRouteStat], [Reg.fabRraStat], [Reg.fabStat],  -- 25 to 29
   [Reg.fabStatus], [Reg.fabTimeHold], [Reg.fabTimeOffset], [Reg.fabTimeRate], [Reg.fabTimeStat],  -- 30 to 34
   [Reg.fabTnStat], [Reg.lcdBadwords], regs1 4 Reg.lcdPStat, regs1 4 Reg.lcdPTemp, [Reg.lcdStat],  -- 35 to 39
   [Reg.logStat], regs1 12 Reg.macPEvt, regs1 12 Reg.macPStat, [Reg.mtrCalhold], [Reg.mtrEvt],  -- 40 to 44
   [Reg.mtrStat], [Reg.mtrWcCtrl], [Reg.mtrWcStat], [Reg.parCnt], [Reg.parEvt],  -- 45 to 49
   [Reg.parGate], [Reg.parHbAge], regs1 8 Reg.parHbRx, regs1 7 Reg.parHbTx, [Reg.parKnown],  -- 50 to 54
   [Reg.parLease], regs1 16 Reg.parSbStat, [Reg.parStat], [Reg.parTakeovers], regs1 6 Reg.pwrAgCount,  -- 55 to 59
   regs1 6 Reg.pwrAgLedger, regs1 6 Reg.pwrAgWait, [Reg.pwrCbank], [Reg.pwrCheck], [Reg.pwrDips],  -- 60 to 64
   [Reg.pwrEavail], [Reg.pwrEhold], [Reg.pwrEreqCore], [Reg.pwrEreqFull], [Reg.pwrEvt],  -- 65 to 69
   [Reg.pwrStat], [Reg.pwrVbank], [Reg.pwrVin], [Reg.queEvt], regs1 64 Reg.queQCfg,  -- 70 to 74
   regs1 64 Reg.queQCnt, regs1 64 Reg.queQDed, regs1 64 Reg.queQEnds, regs1 64 Reg.queQLevel, regs1 64 Reg.queQStat,  -- 75 to 79
   regs1 64 Reg.queQWm, [Reg.queTotal], regs1 8 Reg.rtcAlmStat, [Reg.rtcEvt], [Reg.rtcSlew],  -- 80 to 84
   [Reg.rtcStat], [Reg.rtcVbak], [Reg.secCounterHi], [Reg.secCounterLo], [Reg.secEpoch],  -- 85 to 89
   [Reg.secEvt], [Reg.secFloorHi], [Reg.secFloorLo], [Reg.secSlotaSeqHi], [Reg.secSlotaSeqLo],  -- 90 to 94
   [Reg.secSlotbSeqHi], [Reg.secSlotbSeqLo], [Reg.secSlots], [Reg.secStat], [Reg.secTrial],  -- 95 to 99
   [Reg.secXfer], [Reg.secXferStat], [Reg.sysAddr], [Reg.sysCfg], [Reg.sysCfgSeqHi],  -- 100 to 104
   [Reg.sysCfgSeqLo], [Reg.sysImage], [Reg.sysImageSeqHi], [Reg.sysImageSeqLo], [Reg.sysRefuse],  -- 105 to 109
   [Reg.sysRstcause], [Reg.sysStartA], [Reg.sysStartB], [Reg.sysStat], regs1 8 Reg.tteArm,  -- 110 to 114
   [Reg.tteCycle], [Reg.tteDedAddr], regs1 6 (fun n => Reg.tteEccCode + 4 * n), [Reg.tteEccStat], [Reg.tteLongest],  -- 115 to 119
   [Reg.tteMajor], [Reg.tteStat], [Reg.tteXsum]]  -- 120 to 122

def regGroup (i : Nat) : List Nat := regGroups.getD i []

/-- s has r's value in every register outside the groups of the mask m. -/
def RegKeeps (m : Nat) (r s : State) : Prop := ∀ a, (∀ i, m.testBit i = true → a ∉ regGroup i) → s.reg a = r.reg a

/-- The same of the state that a command answers. -/
def RegKeepsO (m : Nat) (r : State) (o : Host.Outcome State Fault Refusal) : Prop := ∀ t, o = .next t → RegKeeps m r t

section
variable {m : Nat} {r s t : State} {a i : Nat}

theorem RegKeeps.refl (m : Nat) (s : State) : RegKeeps m s s := fun _ _ => rfl

theorem RegKeeps.congr (h : RegKeeps m r s) (heq : t.regs = s.regs) : RegKeeps m r t := fun a ha =>
  (show t.reg a = s.reg a by unfold State.reg; rw [heq]).trans (h a ha)

/-- What keeps the registers as a field of the state keeps every one of them. -/
theorem RegKeeps.of_keeps {M : Nat} (hk : Keeps M s t) (hregs : M.testBit 1 = false) (h : RegKeeps m r s) : RegKeeps m r t :=
  h.congr (hk.regs hregs)

theorem own_mem (h : regGroup i = [a]) : a ∈ regGroup i := h ▸ List.mem_singleton_self a

theorem regs1_mem {f : Nat → Nat} {n k : Nat} (hk : k < n) : f k ∈ regs1 n f := List.mem_map_of_mem (List.mem_range.mpr hk)

theorem regs2_mem {f : Nat → Nat → Nat} {n k x y : Nat} (hx : x < n) (hy : y < k) : f x y ∈ regs2 n k f :=
  List.mem_flatMap.mpr ⟨x, List.mem_range.mpr hx, List.mem_map_of_mem (List.mem_range.mpr hy)⟩

theorem setReg_regKeeps (v : Word) (hi : m.testBit i = true) (ha : a ∈ regGroup i) (h : RegKeeps m r s) : RegKeeps m r (s.setReg a v) :=
  fun b hb => (reg_setReg_ne v (fun e => hb i hi (by rw [e]; exact ha))).trans (h b hb)

theorem setRf_regKeeps (hb lo v : Nat) (hi : m.testBit i = true) (ha : a ∈ regGroup i) (h : RegKeeps m r s) :
    RegKeeps m r (s.setRf a hb lo v) := setReg_regKeeps _ hi ha h

theorem setRb_regKeeps (j : Nat) (b : Bool) (hi : m.testBit i = true) (ha : a ∈ regGroup i) (h : RegKeeps m r s) :
    RegKeeps m r (s.setRb a j b) := setReg_regKeeps _ hi ha h

theorem satRf_regKeeps (hb lo k : Nat) (hi : m.testBit i = true) (ha : a ∈ regGroup i) (h : RegKeeps m r s) :
    RegKeeps m r (s.satRf a hb lo k) := setReg_regKeeps _ hi ha h

theorem orReg_regKeeps (k : Nat) (hi : m.testBit i = true) (ha : a ∈ regGroup i) (h : RegKeeps m r s) : RegKeeps m r (s.orReg a k) :=
  setReg_regKeeps _ hi ha h

theorem addReg_regKeeps (k : Nat) (hi : m.testBit i = true) (ha : a ∈ regGroup i) (h : RegKeeps m r s) : RegKeeps m r (s.addReg a k) :=
  setReg_regKeeps _ hi ha h

/-- Registers shown keep the others. -/
theorem publish_regKeeps (x : List (Nat × Word)) (hx : ∀ e ∈ x, ∃ i, m.testBit i = true ∧ e.1 ∈ regGroup i) (h : RegKeeps m r s) :
    RegKeeps m r (s.publish x) := fun b hb =>
  (reg_publish_of_ne s x (fun e he heq => by
    obtain ⟨i, hi, hmem⟩ := hx e he
    exact hb i hi (heq ▸ hmem))).trans (h b hb)

theorem RegKeeps.ite {c : Prop} [Decidable c] (h : RegKeeps m r s) (k : RegKeeps m r t) : RegKeeps m r (if c then s else t) := by
  split
  · exact h
  · exact k

theorem RegKeeps.ite2 {α : Type} {p q : α × State} {c : Prop} [Decidable c] (h : RegKeeps m r p.2) (k : RegKeeps m r q.2) :
    RegKeeps m r (if c then p else q).2 := by
  split
  · exact h
  · exact k

theorem RegKeeps.mk2 {α : Type} {x : α} (h : RegKeeps m r s) : RegKeeps m r (x, s).2 := h

theorem RegKeeps.mk3 {α β : Type} {x : α} {y : β} (h : RegKeeps m r s) : RegKeeps m r (x, y, s).2.2 := h

theorem RegKeeps.of_pair {α : Type} {p : α × State} {x : α} (e : p = (x, s)) (h : RegKeeps m r p.2) : RegKeeps m r s := by
  subst e
  exact h

theorem RegKeeps.foldl {α : Type} (f : State → α → State) (l : List α)
    (step : ∀ s, ∀ x ∈ l, RegKeeps m r s → RegKeeps m r (f s x)) (s : State) (h : RegKeeps m r s) : RegKeeps m r (l.foldl f s) := by
  induction l generalizing s with
  | nil => exact h
  | cons x l ih => exact ih (fun s y hy => step s y (List.mem_cons_of_mem _ hy)) _ (step s x List.mem_cons_self h)

theorem RegKeepsO.next (h : RegKeeps m r s) : RegKeepsO m r (.next s) := fun t e => by
  cases e
  exact h

theorem RegKeepsO.refused {x : Refusal} : RegKeepsO m r (.refused x) := fun t e => by cases e

theorem RegKeepsO.ite {o p : Host.Outcome State Fault Refusal} {c : Prop} [Decidable c] (h : RegKeepsO m r o) (k : RegKeepsO m r p) :
    RegKeepsO m r (if c then o else p) := by
  split
  · exact h
  · exact k

theorem RegKeepsO.guarded {c : Instr} {f : State → State} (h : RegKeeps m r (f s)) : RegKeepsO m r (guarded c f s) :=
  RegKeepsO.ite (RegKeepsO.next h) RegKeepsO.refused

theorem RegKeeps.regsBut_of {l : List Nat} (h : RegKeeps m s t) (hl : ∀ i, m.testBit i = true → ∀ a ∈ regGroup i, a ∈ l) : s.regsBut l t :=
  fun a ha => h a (fun i hi hmem => ha (hl i hi a hmem))

/-- Every group of the mask stands in the list, its registers one behind the other. -/
def groupsIn (m : Nat) (l : List Nat) : Bool :=
  (List.range regGroups.length).all (fun i => !m.testBit i || l.tails.any (fun x => (regGroup i).isPrefixOf x))

theorem mem_of_groupsIn {m i a : Nat} {l : List Nat} (hl : groupsIn m l = true) (hi : m.testBit i = true) (ha : a ∈ regGroup i) : a ∈ l := by
  have hlen : i < regGroups.length := by
    by_contra hge
    have hnil : regGroup i = [] := by
      unfold regGroup
      rw [List.getD_eq_getElem?_getD, List.getElem?_eq_none (not_lt.mp hge)]
      rfl
    exact absurd (hnil ▸ ha) List.not_mem_nil
  have hall := List.all_eq_true.mp hl i (List.mem_range.mpr hlen)
  rw [hi, Bool.not_true, Bool.false_or] at hall
  obtain ⟨x, hx, hpre⟩ := List.any_eq_true.mp hall
  exact ((List.mem_tails x l).mp hx).subset ((List.isPrefixOf_iff_prefix.mp hpre).subset ha)

/-- A command whose changes lie in the groups of a mask changes no register outside a list that holds those groups. -/
theorem RegKeepsO.regsBut {o : Host.Outcome State Fault Refusal} {l : List Nat} (h : RegKeepsO m s o) (hl : groupsIn m l = true)
    (ht : o = .next t) : s.regsBut l t :=
  (h t ht).regsBut_of (fun _ hi _ ha => mem_of_groupsIn hl hi ha)

end

end Sys2Proof.Machine
end

section
/-! PROOFS. Registers kept by the log, the ports and the queues -/

namespace Sys2Proof.Machine

/-! ## Bounds of the indices that registers are addressed by -/

theorem qOfProd_lt {s : State} {ep q : Nat} (h : qOfProd s ep = some q) : q < 64 := List.mem_range.mp (List.mem_of_find?_eq_some h)

theorem qOfCons_lt {s : State} {ep q : Nat} (h : qOfCons s ep = some q) : q < 64 := List.mem_range.mp (List.mem_of_find?_eq_some h)

/-- The data ports are the one row of the register map with this access code. -/
theorem eq_dataPorts_of_pop {b : Nat} {x : RegRow} (hx : x ∈ blockRows b) (hpop : x.acc = .pop) : x.base = 0xF1000 ∧ x.n1 = 64 ∧ x.s1 = 8 := by
  have hrows : ∀ b < 16, ∀ y ∈ blockRows b, y.acc = .pop → y.base = 0xF1000 ∧ y.n1 = 64 ∧ y.s1 = 8 := by decide +kernel
  by_cases hb : b < 16
  · exact hrows b hb x hx hpop
  · obtain ⟨c, rfl⟩ : ∃ c, b = c + 16 := ⟨b - 16, by omega⟩
    exact absurd hx List.not_mem_nil

theorem popPort_lt {a : Nat} (h : accOf a = some .pop) : (a - 0xF1000) / 8 < 64 := by
  unfold accOf regRow? at h
  obtain ⟨x, hfind, hpop⟩ := Option.map_eq_some_iff.mp h
  obtain ⟨hbase, hn, hs⟩ := eq_dataPorts_of_pop (List.mem_of_find?_eq_some hfind) hpop
  have hhas := List.find?_some hfind
  simp only [RegRow.has, hbase, hn, hs] at hhas
  split at hhas
  · exact absurd hhas (by decide)
  · simp at hhas
    omega

theorem forall_val_lt (arrival : Option (Fin 8)) : ∀ l ∈ arrival.map Fin.val, l < 8 := by
  intro l hl
  obtain ⟨x, -, rfl⟩ := Option.map_eq_some_iff.mp hl
  exact x.isLt

theorem eccCode_mem {k : Nat} (hk : k < 6) : Reg.tteEccCode + 4 * k ∈ regGroup 117 :=
  regs1_mem (f := fun n => Reg.tteEccCode + 4 * n) hk

/-- Registers shown at addresses that the groups of a mask hold. -/
theorem publish_regKeeps_of_addresses {M m : Nat} {r s : State} {x : List (Nat × Word)} {l : List Nat} (hm : Sub M m) (hx : x.map Prod.fst = l)
    (hl : (l.all fun a => (List.range 123).any fun i => M.testBit i && (regGroup i).contains a) = true) (h : RegKeeps m r s) :
    RegKeeps m r (s.publish x) := by
  refine publish_regKeeps x (fun e he => ?_) h
  have ha : e.1 ∈ l := hx ▸ List.mem_map_of_mem he
  obtain ⟨i, -, hi⟩ := List.any_eq_true.mp (List.all_eq_true.mp hl _ ha)
  obtain ⟨hbit, hmem⟩ := Bool.and_eq_true_iff.mp hi
  exact ⟨i, hm i hbit, List.contains_iff_mem.mp hmem⟩

theorem secShown_addresses (s : State) : (secShown s).map Prod.fst =
    [Reg.secStat, Reg.secCounterLo, Reg.secCounterHi, Reg.secFloorLo, Reg.secFloorHi, Reg.secEpoch, Reg.secSlots, Reg.secSlotaSeqLo,
      Reg.secSlotaSeqHi, Reg.secSlotbSeqLo, Reg.secSlotbSeqHi, Reg.secTrial, Reg.secXfer, Reg.secXferStat] := by
  unfold secShown
  cases s.sec.xfer <;> rfl

/-! ## What the operations of the model leave of the registers -/


theorem noteSev_regKeeps {m : Nat} {r s : State} (sev : Nat) (hm : Sub 0x1 m) (h : RegKeeps m r s) : RegKeeps m r (State.noteSev s sev) := by
  unfold State.noteSev
  exact RegKeeps.ite (orReg_regKeeps _ (hm 0 rfl) (own_mem rfl) h) h

theorem append_regKeeps {m : Nat} {r s : State} (code blk sev : Nat) (d : List Word) (hm : Sub 0x1 m) (h : RegKeeps m r s) :
    RegKeeps m r (State.append s code blk sev d) := by
  unfold State.append
  exact noteSev_regKeeps _ (sub_of hm rfl) (RegKeeps.of_keeps (logBump_keeps (sub_refl _) (Keeps.refl _ _)) rfl (RegKeeps.of_keeps
      (putLogWs_keeps _ _ (sub_refl _) (Keeps.refl _ _)) rfl h))

theorem logOnce_regKeeps {m : Nat} {r s : State} (code blk : Nat) (sev subject : Nat) (d : List Word) (hm : Sub 0x1 m) (h : RegKeeps m r s) :
    RegKeeps m r (State.logOnce s code blk sev subject d) := by
  unfold State.logOnce
  extract_lets x10
  have h11 : RegKeeps m r x10 := append_regKeeps _ _ _ _ (sub_of hm rfl) h
  clear_value x10
  exact RegKeeps.ite h (RegKeeps.congr h11 rfl)

theorem overrun_regKeeps {m : Nat} {r s : State} (p : Nat) (hm : Sub 0x4000000000000000000000000000001 m) (h : RegKeeps m r s) :
    RegKeeps m r (State.overrun s p) := by
  unfold State.overrun
  extract_lets x6 x7
  have h8 : RegKeeps m r x7 := orReg_regKeeps _ (hm 122 rfl) (own_mem rfl) (RegKeeps.congr h rfl)
  clear_value x7
  exact logOnce_regKeeps _ _ _ _ _ (sub_of hm rfl) h8

theorem dedEvent_regKeeps {m : Nat} {r s : State} (mem addr : Nat) (hm : Sub 0x700000000000000000000000000000 m) (hmem : mem < 6)
    (h : RegKeeps m r s) :
    RegKeeps m r (State.dedEvent s mem addr) := by
  unfold State.dedEvent
  exact setReg_regKeeps _ (hm 116 rfl) (own_mem rfl) (orReg_regKeeps _ (hm 118 rfl) (own_mem rfl) (satRf_regKeeps _ _ _ (hm 117 rfl)
      (regs1_mem hmem) h))

theorem secEvent_regKeeps {m : Nat} {r s : State} (mem : Nat) (hm : Sub 0x600000000000000000000000000000 m) (hmem : mem < 6) (h : RegKeeps m r s) :
    RegKeeps m r (State.secEvent s mem) := by
  unfold State.secEvent
  exact orReg_regKeeps _ (hm 118 rfl) (own_mem rfl) (satRf_regKeeps _ _ _ (hm 117 rfl) (regs1_mem hmem) h)

theorem mirRead_regKeeps {m : Nat} {r s : State} (a : Nat) (hm : Sub 0x700000000000000000000000000001 m) (h : RegKeeps m r s) :
    RegKeeps m r (State.mirRead s a).2 := by
  unfold State.mirRead
  split
  · exact RegKeeps.mk2 h
  · exact RegKeeps.mk2 (secEvent_regKeeps _ (sub_of hm rfl) (by decide) h)
  · exact RegKeeps.mk2 (logOnce_regKeeps _ _ _ _ _ (sub_of hm rfl) (dedEvent_regKeeps _ _ (sub_of hm rfl) (by decide) h))

theorem sendOut_regKeeps {m : Nat} {r s : State} (p : Nat) (w : Word) (hm : Sub 0x4000000000000000000000000000001 m) (h : RegKeeps m r s) :
    RegKeeps m r (State.sendOut s p w) := by
  unfold State.sendOut
  extract_lets x7
  refine RegKeeps.of_keeps (setPort_keeps _ _ (sub_refl _) (Keeps.refl _ _)) rfl ?_
  exact RegKeeps.ite (overrun_regKeeps _ (sub_of hm rfl) h) h

theorem sendPort_regKeeps {m : Nat} {r s : State} (p : Nat) (w : Word) (hm : Sub 0x4000000000000000000000000000001 m) (h : RegKeeps m r s) :
    RegKeeps m r (State.sendPort s p w) := by
  unfold State.sendPort
  extract_lets x7
  refine RegKeeps.of_keeps (setPort_keeps _ _ (sub_refl _) (Keeps.refl _ _)) rfl ?_
  exact RegKeeps.ite (overrun_regKeeps _ (sub_of hm rfl) h) h

theorem sendIn_regKeeps {m : Nat} {r s : State} (island x1 : Nat) (x2 : List Word) (hm : Sub 0x4000000000000000000000000000001 m)
    (h : RegKeeps m r s) :
    RegKeeps m r (sendIn island x1 x2 s) := by
  induction x2 generalizing s x1 with | nil => ?_ | cons a l ih => ?_
  · simp -zeta only [sendIn]
    exact h
  · simp -zeta only [sendIn]
    extract_lets x10
    exact ih _ (sendPort_regKeeps _ _ (sub_of hm rfl) h)

theorem readLog_regKeeps {m : Nat} {r s : State} (a : Nat) (hm : Sub 0x700000000000000000000000000000 m) (h : RegKeeps m r s) :
    RegKeeps m r (readLog a s).2 := by
  unfold readLog
  split
  · exact RegKeeps.mk2 h
  · exact RegKeeps.mk2 (secEvent_regKeeps _ (sub_of hm rfl) (by decide) h)
  · exact RegKeeps.mk2 (dedEvent_regKeeps _ _ (sub_of hm rfl) (by decide) h)

theorem busRec_regKeeps {m : Nat} {r s : State} (src code : Nat) (sev subject : Nat) (d : List Word) (hm : Sub 0x1 m) (h : RegKeeps m r s) :
    RegKeeps m r (busRec s src code sev subject d) := by
  unfold busRec
  exact logOnce_regKeeps _ _ _ _ _ (sub_of hm rfl) h

theorem busStatus_regKeeps {m : Nat} {r s : State} (src : Nat) (hm : Sub 0x4000000000000000000040000000021 m) (hsrc : src < 24)
    (h : RegKeeps m r s) :
    RegKeeps m r (busStatus src s) := by
  unfold busStatus
  extract_lets x6 x7 x8 x9 x10 x11 x12
  have h13 : RegKeeps m r x7 := sendIn_regKeeps _ _ _ (sub_of hm rfl) h
  clear_value x7
  have h14 : RegKeeps m r x9 := RegKeeps.congr h13 rfl
  clear_value x9
  have h15 : RegKeeps m r x12 := by
    refine RegKeeps.ite ?_ ?_
    · exact RegKeeps.of_keeps (setCan_keeps _ _ (sub_refl _) (Keeps.refl _ _)) rfl h14
    · exact RegKeeps.of_keeps (setMac_keeps _ _ (sub_refl _) (Keeps.refl _ _)) rfl h14
  clear_value x12
  refine RegKeeps.of_keeps (republish_keeps _ (sub_refl _) (Keeps.refl _ _)) rfl ?_
  refine publish_regKeeps _ (fun e he => ?_) h15
  rw [List.mem_singleton.mp he]
  dsimp only
  split
  · exact ⟨5, hm 5 rfl, regs1_mem (by assumption)⟩
  · exact ⟨42, hm 42 rfl, regs1_mem (by omega)⟩

theorem busNote_regKeeps {m : Nat} {r s : State} (src : Nat) (hm : Sub 0x4000000000000000000040000000021 m) (hsrc : src < 24) (h : RegKeeps m r s) :
    RegKeeps m r (busNote src s) := by
  unfold busNote
  refine RegKeeps.ite ?_ ?_
  · exact RegKeeps.of_keeps (republish_keeps _ (sub_refl _) (Keeps.refl _ _)) rfl h
  · exact busStatus_regKeeps _ (sub_of hm rfl) hsrc h

theorem busEvt_regKeeps {m : Nat} {r s : State} (src m0 : Nat) (hm : Sub 0x20000000008 m) (hsrc : src < 24) (h : RegKeeps m r s) :
    RegKeeps m r (busEvt src m0 s) := by
  unfold busEvt
  unfold evtReg
  split
  · exact orReg_regKeeps _ (hm 3 rfl) (regs1_mem (by assumption)) h
  · exact orReg_regKeeps _ (hm 41 rfl) (regs1_mem (by omega)) h

theorem flowOn_regKeeps {m : Nat} {r s : State} (p kind lev : Nat) (hm : Sub 0x20000000009 m) (hp : p < 12) (h : RegKeeps m r s) :
    RegKeeps m r (flowOn p kind lev s) := by
  unfold flowOn
  extract_lets x8
  refine RegKeeps.ite ?_ ?_
  · exact h
  · exact busRec_regKeeps _ _ _ _ _ (sub_of hm rfl) (busEvt_regKeeps _ _ (sub_of hm rfl) (by omega) (RegKeeps.of_keeps
        (setMac_keeps _ _ (sub_refl _) (Keeps.refl _ _)) rfl h))

theorem backpressureSet_regKeeps {m : Nat} {r s : State} (p lev : Nat) (b : Bool) (hm : Sub 0x4000000000000000000060000000029 m) (hp : p < 12)
    (h : RegKeeps m r s) :
    RegKeeps m r (backpressureSet p lev b s) := by
  unfold backpressureSet
  extract_lets x8
  refine busNote_regKeeps _ (sub_of hm rfl) (by omega) ?_
  refine RegKeeps.ite ?_ ?_
  · exact flowOn_regKeeps _ _ _ (sub_of hm rfl) hp h
  · exact RegKeeps.of_keeps (setMac_keeps _ _ (sub_refl _) (Keeps.refl _ _)) rfl h

theorem qViolation_regKeeps {m : Nat} {r s : State} (q : Nat) (hm : Sub 0xa000000000000000001 m) (hq : q < 64) (h : RegKeeps m r s) :
    RegKeeps m r (qViolation s q) := by
  unfold qViolation
  extract_lets x6
  have h7 : RegKeeps m r x6 := orReg_regKeeps _ (hm 73 rfl) (own_mem rfl) (satRf_regKeeps _ _ _ (hm 75 rfl) (regs1_mem hq) h)
  clear_value x6
  exact RegKeeps.ite h (logOnce_regKeeps _ _ _ _ _ (sub_of hm rfl) h7)

theorem qOverflow_regKeeps {m : Nat} {r s : State} (q : Nat) (hm : Sub 0x8a000000000000000001 m) (hq : q < 64) (h : RegKeeps m r s) :
    RegKeeps m r (qOverflow s q) := by
  unfold qOverflow
  extract_lets x6
  have h7 : RegKeeps m r x6 := orReg_regKeeps _ (hm 73 rfl) (own_mem rfl) (orReg_regKeeps _ (hm 79 rfl) (regs1_mem hq) (satRf_regKeeps _ _ _
      (hm 75 rfl) (regs1_mem hq) h))
  clear_value x6
  exact logOnce_regKeeps _ _ _ _ _ (sub_of hm rfl) h7

theorem backpressureAt_regKeeps {m : Nat} {r s : State} (q lev : Nat) (b : Bool) (hm : Sub 0x4000000000000000000060000000029 m)
    (h : RegKeeps m r s) :
    RegKeeps m r (backpressureAt s q lev b) := by
  unfold backpressureAt
  split
  case h_1 p hp => exact backpressureSet_regKeeps _ _ _ (sub_of hm rfl) (bpPort_lt hp) h
  · exact h

theorem qSetLevel_regKeeps {m : Nat} {r s : State} (q old new : Nat) (hm : Sub 0x40000000000c0000000060000000029 m) (hq : q < 64)
    (h : RegKeeps m r s) :
    RegKeeps m r (qSetLevel s q old new) := by
  unfold qSetLevel
  extract_lets x8 x9 x10
  have h11 : RegKeeps m r x8 := setRf_regKeeps _ _ _ (hm 78 rfl) (regs1_mem hq) h
  clear_value x8
  have h12 : RegKeeps m r x9 := RegKeeps.ite (setRf_regKeeps _ _ _ (hm 78 rfl) (regs1_mem hq) h11) h11
  clear_value x9
  have h13 : RegKeeps m r x10 := RegKeeps.ite (backpressureAt_regKeeps _ _ _ (sub_of hm rfl) (orReg_regKeeps _ (hm 79 rfl) (regs1_mem hq) h12)) h12
  clear_value x10
  exact RegKeeps.ite (backpressureAt_regKeeps _ _ _ (sub_of hm rfl) (orReg_regKeeps _ (hm 79 rfl) (regs1_mem hq) h13)) h13

theorem qPushIn_regKeeps {m : Nat} {r s : State} (q : Nat) (w : Word) (hm : Sub 0x40000000000ca000000060000000029 m) (hq : q < 64)
    (h : RegKeeps m r s) :
    RegKeeps m r (qPushIn s q w) := by
  unfold qPushIn
  extract_lets x7
  refine RegKeeps.ite ?_ ?_
  · exact h
  · refine RegKeeps.ite ?_ ?_
    · exact qOverflow_regKeeps _ (sub_of hm rfl) hq h
    · exact qSetLevel_regKeeps _ _ _ (sub_of hm rfl) hq (RegKeeps.of_keeps (setEcc_keeps _ _ _ (sub_refl _) (Keeps.refl _ _)) rfl
          (RegKeeps.congr h rfl))

theorem qPush_regKeeps {m : Nat} {r s : State} (ep q : Nat) (w : Word) (hm : Sub 0x40000000000ca000000060000000029 m) (hq : q < 64)
    (h : RegKeeps m r s) :
    RegKeeps m r (qPush s ep q w) := by
  unfold qPush
  exact RegKeeps.ite h (RegKeeps.ite (qPushIn_regKeeps _ _ (sub_of hm rfl) hq h) (qViolation_regKeeps _ (sub_of hm rfl) hq h))

theorem qPushAll_regKeeps {m : Nat} {r s : State} (ep q : Nat) (x3 : List Word) (hm : Sub 0x40000000000ca000000060000000029 m) (hq : q < 64)
    (h : RegKeeps m r s) :
    RegKeeps m r (qPushAll s ep q x3) := by
  induction x3 generalizing s with | nil => ?_ | cons a l ih => ?_
  · simp -zeta only [qPushAll]
    exact h
  · simp -zeta only [qPushAll]
    exact ih (qPush_regKeeps _ _ _ (sub_of hm rfl) hq h)

theorem islandPush_regKeeps {m : Nat} {r s : State} (island unit : Nat) (ws : List Word) (hm : Sub 0x40000000000ca000000060000000029 m)
    (h : RegKeeps m r s) :
    RegKeeps m r (islandPush s island unit ws) := by
  unfold islandPush
  split
  · rename_i q hq
    exact qPushAll_regKeeps _ _ _ (sub_of hm rfl) (qOfProd_lt hq) h
  · exact h

theorem qDed_regKeeps {m : Nat} {r s : State} (q a : Nat) (hm : Sub 0x700000000092000000000000000001 m) (hq : q < 64) (h : RegKeeps m r s) :
    RegKeeps m r (qDed s q a) := by
  unfold qDed
  extract_lets x7
  have h8 : RegKeeps m r x7 := dedEvent_regKeeps _ _ (sub_of hm rfl) (by decide) (orReg_regKeeps _ (hm 73 rfl) (own_mem rfl) (orReg_regKeeps _
      (hm 79 rfl) (regs1_mem hq) (satRf_regKeeps _ _ _ (hm 76 rfl) (regs1_mem hq) h)))
  clear_value x7
  exact logOnce_regKeeps _ _ _ _ _ (sub_of hm rfl) (logOnce_regKeeps _ _ _ _ _ (sub_of hm rfl) h8)

theorem qFetch_regKeeps {m : Nat} {r s : State} (q k : Nat) (hm : Sub 0x700000000092000000000000000001 m) (hq : q < 64) (h : RegKeeps m r s) :
    RegKeeps m r (qFetch s q k).2 := by
  unfold qFetch
  extract_lets x7
  split
  · exact RegKeeps.mk2 h
  · exact RegKeeps.mk2 (secEvent_regKeeps _ (sub_of hm rfl) (by decide) h)
  · exact RegKeeps.mk2 (qDed_regKeeps _ _ (sub_of hm rfl) hq h)

theorem qDrop_regKeeps {m : Nat} {r s : State} (q : Nat) (hm : Sub 0x40000000000c0000000060000000029 m) (hq : q < 64) (h : RegKeeps m r s) :
    RegKeeps m r (qDrop s q) := by
  unfold qDrop
  exact qSetLevel_regKeeps _ _ _ (sub_of hm rfl) hq (RegKeeps.congr h rfl)

theorem qPopOut_regKeeps {m : Nat} {r s : State} (q : Nat) (hm : Sub 0x47000000000d2000000060000000029 m) (hq : q < 64) (h : RegKeeps m r s) :
    RegKeeps m r (qPopOut s q).2 := by
  unfold qPopOut
  extract_lets x6
  have h7 : RegKeeps m r x6.2 := qFetch_regKeeps _ _ (sub_of hm rfl) hq h
  clear_value x6
  refine RegKeeps.ite2 ?_ ?_
  · exact RegKeeps.mk2 h
  · refine RegKeeps.ite2 ?_ ?_
    · exact RegKeeps.mk2 (orReg_regKeeps _ (hm 79 rfl) (regs1_mem hq) h)
    · exact RegKeeps.mk2 (qDrop_regKeeps _ (sub_of hm rfl) hq h7)

end Sys2Proof.Machine
end

section
/-! PROOFS. Registers kept by gates, displays, captures, paths and tests -/

namespace Sys2Proof.Machine

theorem setLedger_regKeeps {m : Nat} {r s : State} (g b f : Nat) (hm : Sub 0x1000000000000000 m) (hg : g < 6) (h : RegKeeps m r s) :
    RegKeeps m r (setLedger s g b f) := by
  unfold setLedger
  exact setReg_regKeeps _ (hm 60 rfl) (regs1_mem hg) h

theorem admitWaits_regKeeps {m : Nat} {r s : State} (g : Nat) (x1 : List Wait) (hm : Sub 0x1800000000000000 m) (hg : g < 6) (h : RegKeeps m r s) :
    RegKeeps m r (admitWaits g x1 s) := by
  induction x1 generalizing s with | nil => ?_ | cons a l ih => ?_
  · simp -zeta only [admitWaits]
    exact h
  · simp -zeta only [admitWaits]
    extract_lets x9 x10 x11 x12
    have h13 : RegKeeps m r x11 := setLedger_regKeeps _ _ _ (sub_of hm rfl) hg h
    clear_value x11
    have h14 : RegKeeps m r x12 := RegKeeps.of_keeps (setGate_keeps _ _ (sub_refl _) (Keeps.refl _ _)) rfl h13
    clear_value x12
    exact RegKeeps.ite (ih (setRf_regKeeps _ _ _ (hm 59 rfl) (regs1_mem hg) h14)) h

theorem putWaiting_regKeeps {m : Nat} {r s : State} (g : Nat) (hm : Sub 0x2000000000000000 m) (hg : g < 6) (h : RegKeeps m r s) :
    RegKeeps m r (putWaiting s g) := by
  unfold putWaiting
  exact setRf_regKeeps _ _ _ (hm 61 rfl) (regs1_mem hg) h

theorem groupClear_regKeeps {m : Nat} {r s : State} (g : Nat) (hm : Sub 0x3000000000000000 m) (hg : g < 6) (h : RegKeeps m r s) :
    RegKeeps m r (groupClear s g) := by
  unfold groupClear
  extract_lets x6
  exact putWaiting_regKeeps _ (sub_of hm rfl) hg (setLedger_regKeeps _ _ _ (sub_of hm rfl) hg (RegKeeps.of_keeps
      (setGate_keeps _ _ (sub_refl _) (Keeps.refl _ _)) rfl h))

theorem noteAout_regKeeps {m : Nat} {r s : State} (p : Nat) (w : Word) (hm : Sub 0x2 m) (h : RegKeeps m r s) : RegKeeps m r (noteAout p w s) := by
  unfold noteAout
  split
  · exact setReg_regKeeps _ (hm 1 rfl) (regs2_mem (by omega) (by omega)) h
  · exact h

theorem gateResetAll_regKeeps {m : Nat} {r s : State} (hm : Sub 0x3000000000000000 m) (h : RegKeeps m r s) : RegKeeps m r (gateResetAll s) := by
  unfold gateResetAll
  refine RegKeeps.foldl _ _ (fun s5 a5 m5 h5 => ?_) _ ?_
  · exact groupClear_regKeeps _ (sub_of hm rfl) (List.mem_range.mp m5) h5
  · exact h

theorem gateEdge_regKeeps {m : Nat} {r s : State} (before : State) (hm : Sub 0x3000000000000000 m) (h : RegKeeps m r s) :
    RegKeeps m r (gateEdge before s) := by
  unfold gateEdge
  exact RegKeeps.ite (gateResetAll_regKeeps (sub_of hm rfl) h) h

theorem gateWrite_regKeeps {m : Nat} {r s : State} (g : Nat) (w : Word) (hm : Sub 0x3800000000000804 m) (hg : g < 6) (h : RegKeeps m r s) :
    RegKeeps m r (gateWrite s g w).2 := by
  unfold gateWrite
  extract_lets x7 x8 x9 x10 x11 x12
  have h13 : RegKeeps m r x9 := RegKeeps.of_keeps (setGate_keeps _ _ (sub_refl _) (Keeps.refl _ _)) rfl h
  clear_value x9
  have h14 : RegKeeps m r x10 := putWaiting_regKeeps _ (sub_of hm rfl) hg (admitWaits_regKeeps _ _ (sub_of hm rfl) hg h13)
  clear_value x10
  split
  · exact RegKeeps.mk2 (setReg_regKeeps _ (hm 11 rfl) (regs1_mem (by assumption)) h14)
  · exact RegKeeps.mk2 (setReg_regKeeps _ (hm 2 rfl) (regs1_mem (by omega)) h14)

theorem lcdShow_regKeeps {m : Nat} {r s : State} (hm : Sub 0xf000000000 m) (h : RegKeeps m r s) : RegKeeps m r (lcdShow s) := by
  unfold lcdShow
  extract_lets x5
  refine RegKeeps.of_keeps (republish_keeps _ (sub_refl _) (Keeps.refl _ _)) rfl ?_
  exact publish_regKeeps_of_addresses (M := 0xf000000000)
    (l := [Reg.lcdStat, Reg.lcdBadwords] ++ (List.range 4).flatMap (fun p => [Reg.lcdPStat p, Reg.lcdPTemp p])) (sub_of hm rfl) rfl
        (by decide +kernel) h

theorem lcdPowerOff_regKeeps {m : Nat} {r s : State} (hm : Sub 0xf000000000 m) (h : RegKeeps m r s) : RegKeeps m r (lcdPowerOff s) := by
  unfold lcdPowerOff
  extract_lets x5 x6
  refine lcdShow_regKeeps (sub_of hm rfl) ?_
  refine RegKeeps.foldl _ _ (fun s7 a7 m7 h7 => ?_) _ ?_
  · exact RegKeeps.of_keeps (setPan_keeps _ _ (sub_refl _) (Keeps.refl _ _)) rfl h7
  · exact RegKeeps.congr h rfl

theorem mtrRelease_regKeeps {m : Nat} {r s : State} (hm : Sub 0x200000000000 m) (h : RegKeeps m r s) : RegKeeps m r (mtrRelease s) := by
  unfold mtrRelease
  extract_lets x5
  exact setRb_regKeeps _ _ (hm 45 rfl) (own_mem rfl) (RegKeeps.congr h rfl)

theorem mtrPowerFail_regKeeps {m : Nat} {r s : State} (hm : Sub 0x200000000000 m) (h : RegKeeps m r s) : RegKeeps m r (mtrPowerFail s) := by
  unfold mtrPowerFail
  extract_lets x5
  exact setRb_regKeeps _ _ (hm 45 rfl) (own_mem rfl) (RegKeeps.congr h rfl)

theorem mtrRec_regKeeps {m : Nat} {r s : State} (code sev subject : Nat) (d : List Word) (hm : Sub 0x1 m) (h : RegKeeps m r s) :
    RegKeeps m r (mtrRec s code sev subject d) := by
  unfold mtrRec
  exact logOnce_regKeeps _ _ _ _ _ (sub_of hm rfl) h

theorem calholdWrite_regKeeps {m : Nat} {r s : State} (m0 : Master) (w : Word) (hm : Sub 0x180000000001 m) (h : RegKeeps m r s) :
    RegKeeps m r (calholdWrite m0 w s) := by
  unfold calholdWrite
  extract_lets x7 x8
  have h9 : RegKeeps m r x8 := setReg_regKeeps _ (hm 43 rfl) (own_mem rfl) h
  clear_value x8
  exact RegKeeps.ite h9 (mtrRec_regKeeps _ _ _ _ (sub_of hm rfl) (orReg_regKeeps _ (hm 44 rfl) (own_mem rfl) h9))

theorem endCapture_regKeeps {m : Nat} {r s : State} (trunc : Bool) (pushed : Nat) (hm : Sub 0xd00000000001 m) (h : RegKeeps m r s) :
    RegKeeps m r (endCapture trunc pushed s) := by
  unfold endCapture
  extract_lets x7 x8
  have h9 : RegKeeps m r x8 := publish_regKeeps_of_addresses (M := 0xc00000000000) (l := [Reg.mtrWcCtrl, Reg.mtrWcStat]) (sub_of hm rfl) rfl
      (by decide +kernel) (RegKeeps.congr h rfl)
  clear_value x8
  refine RegKeeps.ite ?_ ?_
  · exact RegKeeps.of_keeps (republish_keeps _ (sub_refl _) (Keeps.refl _ _)) rfl (mtrRec_regKeeps _ _ _ _ (sub_of hm rfl) (orReg_regKeeps _
        (hm 44 rfl) (own_mem rfl) h9))
  · exact h9

theorem wcArm_regKeeps {m : Nat} {r s : State} (w : Word) (hm : Sub 0xd00000000001 m) (h : RegKeeps m r s) : RegKeeps m r (wcArm w s) := by
  unfold wcArm
  extract_lets x6 x7 x8 x9
  have h10 : RegKeeps m r x8 := setReg_regKeeps _ (hm 46 rfl) (own_mem rfl) h
  clear_value x8
  exact RegKeeps.ite h10 (RegKeeps.ite h10 (endCapture_regKeeps _ _ (sub_of hm rfl) h10))

theorem execMtrCalholdWrite_regKeeps {m : Nat} {r s : State} (m0 : Master) (w : Word) (hm : Sub 0x180000000001 m) (h : RegKeeps m r s) :
    RegKeepsO m r (execMtrCalholdWrite m0 w s) := by
  unfold execMtrCalholdWrite
  refine RegKeepsO.next ?_
  exact RegKeeps.ite h (calholdWrite_regKeeps _ _ (sub_of hm rfl) h)

theorem execWcArm_regKeeps {m : Nat} {r s : State} (w : Word) (hm : Sub 0xd00000000001 m) (h : RegKeeps m r s) : RegKeepsO m r (execWcArm w s) := by
  unfold execWcArm
  refine RegKeepsO.next ?_
  exact RegKeeps.ite h (wcArm_regKeeps _ (sub_of hm rfl) h)

theorem commitMissed_regKeeps {m : Nat} {r s : State} (path mask : Nat) (hm : Sub 0x1 m) (h : RegKeeps m r s) :
    RegKeeps m r (State.commitMissed s path mask) := by
  unfold State.commitMissed
  extract_lets x7 x8
  have h9 : RegKeeps m r x8 := append_regKeeps _ _ _ _ (sub_of hm rfl) h
  clear_value x8
  exact RegKeeps.ite h (RegKeeps.congr h9 rfl)

theorem faultMissed_regKeeps {m : Nat} {r s : State} (hm : Sub 0x1 m) (h : RegKeeps m r s) : RegKeeps m r (State.faultMissed s) := by
  unfold State.faultMissed
  split
  · exact commitMissed_regKeeps _ _ (sub_of hm rfl) h
  · exact h

theorem fetchSec_regKeeps {m : Nat} {r s : State} (n : Nat) (hm : Sub 0x600000000000000000000000000000 m) (h : RegKeeps m r s) :
    RegKeeps m r (State.fetchSec s n) := by
  unfold State.fetchSec
  refine RegKeeps.ite ?_ ?_
  · exact h
  · exact orReg_regKeeps _ (hm 118 rfl) (own_mem rfl) (satRf_regKeeps _ _ _ (hm 117 rfl) (eccCode_mem (k := 0) (by decide)) h)

theorem beginRun_regKeeps {m : Nat} {r s : State} (p start : Nat) (e : PEntry) (hm : Sub 0x700000000000000000000000000001 m) (h : RegKeeps m r s) :
    RegKeeps m r (State.beginRun s p start e) := by
  unfold State.beginRun
  extract_lets x8 x9 x10 x11 x12 x13
  have h14 : RegKeeps m r x10 := fetchSec_regKeeps _ (sub_of hm rfl) (RegKeeps.of_keeps (landEnd_keeps (sub_refl _) (Keeps.refl _ _)) rfl h)
  clear_value x10
  have h15 : RegKeeps m r x13 := RegKeeps.congr h14 rfl
  clear_value x13
  clear_value x9
  split
  · rename_i y16
    exact h15
  · rename_i y17 y18
    extract_lets x17 x18
    have h19 : RegKeeps m r x17 := faultMissed_regKeeps (sub_of hm rfl) (logOnce_regKeeps _ _ _ _ _ (sub_of hm rfl) (RegKeeps.of_keeps
        (pathFault_keeps _ _ (sub_refl _) (Keeps.refl _ _)) rfl (dedEvent_regKeeps _ _ (sub_of hm rfl) (by decide) h15)))
    clear_value x17
    exact RegKeeps.ite (RegKeeps.congr h19 rfl) h19

theorem runPath_regKeeps {m : Nat} {r s : State} (p : Nat) (e : PEntry) (hm : Sub 0x700000000000000000000000000001 m) (h : RegKeeps m r s) :
    RegKeeps m r (State.runPath s p e) := by
  unfold State.runPath
  extract_lets x7 x8 x9 x10 x11 x12 x13
  have h14 : RegKeeps m r x10 := RegKeeps.congr h rfl
  clear_value x10
  have h15 : RegKeeps m r x11 := beginRun_regKeeps _ _ _ (sub_of hm rfl) h14
  clear_value x11
  exact RegKeeps.congr h15 rfl

theorem skipPath_regKeeps {m : Nat} {r s : State} (p length : Nat) (hm : Sub 0x1 m) (h : RegKeeps m r s) :
    RegKeeps m r (State.skipPath s p length) := by
  unfold State.skipPath
  extract_lets x7
  exact commitMissed_regKeeps _ _ (sub_of hm rfl) (RegKeeps.congr h rfl)

theorem readPath_regKeeps {m : Nat} {r s : State} (p : Nat) (hm : Sub 0x700000000000000000000000000001 m) (h : RegKeeps m r s) :
    RegKeeps m r (readPath s p).2 := by
  unfold readPath
  extract_lets x6 x7
  have h8 : RegKeeps m r x6 := orReg_regKeeps _ (hm 118 rfl) (own_mem rfl) (satRf_regKeeps _ _ _ (hm 117 rfl) (eccCode_mem (k := 5) (by decide)) h)
  clear_value x6
  have h9 : RegKeeps m r x7 := setReg_regKeeps _ (hm 116 rfl) (own_mem rfl) h8
  clear_value x7
  split
  · exact RegKeeps.mk2 h
  · exact RegKeeps.mk2 (secEvent_regKeeps _ (sub_of hm rfl) (by decide) h)
  · split
    · exact RegKeeps.mk2 (logOnce_regKeeps _ _ _ _ _ (sub_of hm rfl) (RegKeeps.of_keeps (pathFault_keeps _ _ (sub_refl _) (Keeps.refl _ _)) rfl h9))
    · exact RegKeeps.mk2 (logOnce_regKeeps _ _ _ _ _ (sub_of hm rfl) (secEvent_regKeeps _ (sub_of hm rfl) (by decide)
          (dedEvent_regKeeps _ _ (sub_of hm rfl) (by decide) h)))
    · exact RegKeeps.mk2 (logOnce_regKeeps _ _ _ _ _ (sub_of hm rfl) (dedEvent_regKeeps _ _ (sub_of hm rfl) (by decide) h))

theorem pathStart_regKeeps {m : Nat} {r s : State} (p : Nat) (hm : Sub 0x700000000000000000000000000001 m) (h : RegKeeps m r s) :
    RegKeeps m r (pathStart p s) := by
  unfold pathStart
  refine RegKeeps.ite ?_ ?_
  · exact h
  · split
    · rename_i y9 y10 y11
      have k9 : RegKeeps m r y10 := RegKeeps.of_pair y11 (readPath_regKeeps _ (sub_of hm rfl) h)
      exact commitMissed_regKeeps _ _ (sub_of hm rfl) k9
    · rename_i y10 y11 y12 y13
      have k10 : RegKeeps m r y12 := RegKeeps.of_pair y13 (readPath_regKeeps _ (sub_of hm rfl) h)
      refine RegKeeps.ite ?_ ?_
      · exact h
      · refine RegKeeps.ite ?_ ?_
        · exact skipPath_regKeeps _ _ (sub_of hm rfl) k10
        · exact RegKeeps.ite (skipPath_regKeeps _ _ (sub_of hm rfl) k10) (runPath_regKeeps _ _ (sub_of hm rfl) k10)

theorem execPathStart_regKeeps {m : Nat} {r s : State} (path : Fin 4096) (hm : Sub 0x700000000000000000000000000001 m) (h : RegKeeps m r s) :
    RegKeepsO m r (execPathStart path s) := by
  unfold execPathStart
  exact RegKeepsO.next (pathStart_regKeeps _ (sub_of hm rfl) h)

theorem ctlRec_regKeeps {m : Nat} {r s : State} (code sev subject : Nat) (d : List Word) (hm : Sub 0x1 m) (h : RegKeeps m r s) :
    RegKeeps m r (ctlRec s code sev subject d) := by
  unfold ctlRec
  exact logOnce_regKeeps _ _ _ _ _ (sub_of hm rfl) h

theorem testEnd_regKeeps {m : Nat} {r s : State} (slot flags : Nat) (cause samples : Nat) (hm : Sub 0x5c1 m) (hslot : slot < 128)
    (h : RegKeeps m r s) :
    RegKeeps m r (testEnd slot flags cause samples s) := by
  unfold testEnd
  extract_lets x9 x10 x11
  have h12 : RegKeeps m r x10 := RegKeeps.congr h rfl
  clear_value x10
  have h13 : RegKeeps m r x11 := setRb_regKeeps _ _ (hm 8 rfl) (own_mem rfl) (orReg_regKeeps _ (hm 6 rfl) (own_mem rfl) (setReg_regKeeps _
      (hm 10 rfl) (own_mem rfl) h12))
  clear_value x11
  exact RegKeeps.of_keeps (republish_keeps _ (sub_refl _) (Keeps.refl _ _)) rfl (setRb_regKeeps _ _ (hm 7 rfl) (regs1_mem hslot)
      (ctlRec_regKeeps _ _ _ _ (sub_of hm rfl) h13))

theorem testCut_regKeeps {m : Nat} {r s : State} (cause : Nat) (hm : Sub 0x5c1 m) (h : RegKeeps m r s) : RegKeeps m r (testCut cause s) := by
  unfold testCut
  split
  · exact testEnd_regKeeps _ _ _ _ (sub_of hm rfl) (fld_lt _ 6 0) h
  · exact h

theorem testStop_regKeeps {m : Nat} {r s : State} (hm : Sub 0x7c1 m) (h : RegKeeps m r s) : RegKeeps m r (testStop s) := by
  unfold testStop
  extract_lets x5
  have h6 : RegKeeps m r x5 := setRb_regKeeps _ _ (hm 9 rfl) (own_mem rfl) h
  clear_value x5
  split
  · exact testEnd_regKeeps _ _ _ _ (sub_of hm rfl) (fld_lt _ 6 0) h6
  · exact h6

theorem tsCtrl_regKeeps {m : Nat} {r s : State} (run : Bool) (count : Nat) (hm : Sub 0x200 m) (h : RegKeeps m r s) :
    RegKeeps m r (tsCtrl s run count) := by
  unfold tsCtrl
  exact setReg_regKeeps _ (hm 9 rfl) (own_mem rfl) h

theorem testRun_regKeeps {m : Nat} {r s : State} (count : Nat) (hm : Sub 0x7c1 m) (h : RegKeeps m r s) : RegKeeps m r (testRun count s) := by
  unfold testRun
  extract_lets x6 x7 x8 x9 x10
  have h11 : RegKeeps m r x6 := tsCtrl_regKeeps _ _ (sub_of hm rfl) h
  clear_value x6
  have h12 : RegKeeps m r x10 := RegKeeps.congr h11 rfl
  clear_value x10
  refine RegKeeps.ite ?_ ?_
  · exact h
  · refine RegKeeps.ite ?_ ?_
    · exact RegKeeps.of_keeps (republish_keeps _ (sub_refl _) (Keeps.refl _ _)) rfl (setRb_regKeeps _ _ (hm 8 rfl) (own_mem rfl) (setReg_regKeeps _
          (hm 10 rfl) (own_mem rfl) h12))
    · exact testEnd_regKeeps _ _ _ _ (sub_of hm rfl) (fld_lt _ 6 0) h11

theorem execTestRun_regKeeps {m : Nat} {r s : State} (count : BitVec 13) (hm : Sub 0x7c1 m) (h : RegKeeps m r s) :
    RegKeepsO m r (execTestRun count s) := by
  unfold execTestRun
  refine RegKeepsO.next ?_
  exact RegKeeps.ite h (testRun_regKeeps _ (sub_of hm rfl) h)

theorem execTestStop_regKeeps {m : Nat} {r s : State} (hm : Sub 0x7c1 m) (h : RegKeeps m r s) : RegKeepsO m r (execTestStop s) := by
  unfold execTestStop
  refine RegKeepsO.next ?_
  exact RegKeeps.ite h (testStop_regKeeps (sub_of hm rfl) h)

end Sys2Proof.Machine
end

section
/-! PROOFS. Registers kept by the security record, the slots and the transfer -/

namespace Sys2Proof.Machine

theorem secShow_regKeeps {m : Nat} {r s : State} (hm : Sub 0x3ffb8000000000000000000000 m) (h : RegKeeps m r s) : RegKeeps m r (secShow s) := by
  unfold secShow
  refine RegKeeps.of_keeps (republish_keeps _ (sub_refl _) (Keeps.refl _ _)) rfl ?_
  exact publish_regKeeps_of_addresses (M := 0x3ffb8000000000000000000000) (sub_of hm rfl) (secShown_addresses s) (by decide +kernel) h

theorem secEvt_regKeeps {m : Nat} {r s : State} (m0 : Nat) (hm : Sub 0x40000000000000000000000 m) (h : RegKeeps m r s) :
    RegKeeps m r (secEvt s m0) := by
  unfold secEvt
  exact orReg_regKeeps _ (hm 90 rfl) (own_mem rfl) h

theorem secRecLog_regKeeps {m : Nat} {r s : State} (code sev subject : Nat) (d : List Word) (hm : Sub 0x1 m) (h : RegKeeps m r s) :
    RegKeeps m r (secRecLog s code sev subject d) := by
  unfold secRecLog
  exact logOnce_regKeeps _ _ _ _ _ (sub_of hm rfl) h

theorem refuseSlot_regKeeps {m : Nat} {r s : State} (slot code detail : Nat) (hm : Sub 0x2000000000000000000000000001 m) (h : RegKeeps m r s) :
    RegKeeps m r (refuseSlot slot code detail s) := by
  unfold refuseSlot
  extract_lets x8
  have h9 : RegKeeps m r x8 := setReg_regKeeps _ (hm 109 rfl) (own_mem rfl) h
  clear_value x8
  exact RegKeeps.ite (append_regKeeps _ _ _ _ (sub_of hm rfl) h9) (append_regKeeps _ _ _ _ (sub_of hm rfl) h9)

theorem loadQueue_regKeeps {m : Nat} {r s : State} (l : List (List Byte)) (q : Nat) (hm : Sub 0x164000000000000000000 m) (hq : q < 64)
    (h : RegKeeps m r s) :
    RegKeeps m r (loadQueue l s q) := by
  unfold loadQueue
  extract_lets x7
  exact setReg_regKeeps _ (hm 78 rfl) (regs1_mem hq) (setReg_regKeeps _ (hm 77 rfl) (regs1_mem hq) (setReg_regKeeps _ (hm 80 rfl) (regs1_mem hq)
      (setReg_regKeeps _ (hm 74 rfl) (regs1_mem hq) h)))

theorem loadImage_regKeeps {m : Nat} {r s : State} (slot : Nat) (hm : Sub 0x2840000000364000000000000000000 m) (h : RegKeeps m r s) :
    RegKeeps m r (loadImage slot s) := by
  unfold loadImage
  extract_lets x6 x7 x8 x9 x10 x11 x12 x13 x14
  have h15 : RegKeeps m r x10 := RegKeeps.congr h rfl
  clear_value x10
  have h16 : RegKeeps m r x11 := by
    subst x11
    refine RegKeeps.foldl _ _ (fun s15 a15 m15 h15 => ?_) _ ?_
    · exact loadQueue_regKeeps _ _ (sub_of hm rfl) (List.mem_range.mp m15) h15
    · exact h15
  clear_value x11
  have h17 : RegKeeps m r x13 := by
    subst x13
    refine RegKeeps.foldl _ _ (fun s16 a16 m16 h16 => ?_) _ ?_
    · exact setReg_regKeeps _ (hm 114 rfl) (regs1_mem (List.mem_range.mp m16)) h16
    · exact h16
  clear_value x13
  exact setRf_regKeeps _ _ _ (hm 121 rfl) (own_mem rfl) (setReg_regKeeps _ (hm 119 rfl) (own_mem rfl) (setReg_regKeeps _ (hm 81 rfl)
      (own_mem rfl) h17))

theorem slotFail_regKeeps {m : Nat} {r s : State} (slot cause : Nat) (hm : Sub 0x40000000000000000000001 m) (h : RegKeeps m r s) :
    RegKeeps m r (slotFail slot cause s) := by
  unfold slotFail
  extract_lets x7 x8 x9
  have h10 : RegKeeps m r x9 := RegKeeps.of_keeps (putRecord_keeps _ (sub_refl _) (Keeps.refl _ _)) rfl h
  clear_value x9
  exact RegKeeps.ite (append_regKeeps _ _ _ _ (sub_of hm rfl) (secEvt_regKeeps _ (sub_of hm rfl) h10)) h10

theorem blowFuse_regKeeps {m : Nat} {r s : State} (retire : Bool) (hm : Sub 0x40000000000000000000001 m) (h : RegKeeps m r s) :
    RegKeeps m r (blowFuse retire s) := by
  unfold blowFuse
  extract_lets x6 x7
  have h8 : RegKeeps m r x7 := RegKeeps.ite (RegKeeps.congr h rfl) (RegKeeps.congr h rfl)
  clear_value x7
  exact append_regKeeps _ _ _ _ (sub_of hm rfl) (secEvt_regKeeps _ (sub_of hm rfl) h8)

theorem xferLast_regKeeps {m : Nat} {r s : State} (hm : Sub 0x30000000000000000000000000 m) (h : RegKeeps m r s) : RegKeeps m r (xferLast s) := by
  unfold xferLast
  split
  · exact setReg_regKeeps _ (hm 101 rfl) (own_mem rfl) (setReg_regKeeps _ (hm 100 rfl) (own_mem rfl) h)
  · exact h

theorem xferDrop_regKeeps {m : Nat} {r s : State} (hm : Sub 0x30000000000000000004000000 m) (h : RegKeeps m r s) : RegKeeps m r (xferDrop s) := by
  unfold xferDrop
  extract_lets x5 x6 x7
  have h8 : RegKeeps m r x5 := xferLast_regKeeps (sub_of hm rfl) h
  clear_value x5
  exact setRb_regKeeps _ _ (hm 26 rfl) (own_mem rfl) (RegKeeps.congr h8 rfl)

theorem xferResult_regKeeps {m : Nat} {r s : State} (code : Nat) (hm : Sub 0x20040000000000000004000000 m) (h : RegKeeps m r s) :
    RegKeeps m r (xferResult code s) := by
  unfold xferResult
  extract_lets x6
  have h7 : RegKeeps m r x6 := setRf_regKeeps _ _ _ (hm 101 rfl) (own_mem rfl) h
  clear_value x6
  exact RegKeeps.ite h7 (setRb_regKeeps _ _ (hm 26 rfl) (own_mem rfl) (secEvt_regKeeps _ (sub_of hm rfl) h7))

theorem xferEnd_regKeeps {m : Nat} {r s : State} (code : Nat) (hm : Sub 0x30040000000000000004000000 m) (h : RegKeeps m r s) :
    RegKeeps m r (xferEnd code s) := by
  unfold xferEnd
  exact RegKeeps.ite h (xferResult_regKeeps _ (sub_of hm rfl) (xferDrop_regKeeps (sub_of hm rfl) h))

theorem xferRefuse_regKeeps {m : Nat} {r s : State} (id code : Nat) (hm : Sub 0x30040000000000000004000001 m) (h : RegKeeps m r s) :
    RegKeeps m r (xferRefuse id code s) := by
  unfold xferRefuse
  exact xferResult_regKeeps _ (sub_of hm rfl) (xferDrop_regKeeps (sub_of hm rfl) (secRecLog_regKeeps _ _ _ _ (sub_of hm rfl) h))

theorem xferAccept_regKeeps {m : Nat} {r s : State} (h0 : List Byte) (x : Xfer) (hm : Sub 0x4000000 m) (h : RegKeeps m r s) :
    RegKeeps m r (xferAccept h0 x s) := by
  unfold xferAccept
  extract_lets x7 x8 x9 x10 x11
  have h12 : RegKeeps m r x9 := setRb_regKeeps _ _ (hm 26 rfl) (own_mem rfl) (setRb_regKeeps _ _ (hm 26 rfl) (own_mem rfl) (setRf_regKeeps _ _ _
      (hm 26 rfl) (own_mem rfl) h))
  clear_value x9
  have h13 : RegKeeps m r x10 := RegKeeps.of_keeps (putRecord_keeps _ (sub_refl _) (Keeps.refl _ _)) rfl h12
  clear_value x10
  exact RegKeeps.congr h13 rfl

theorem xferStored_regKeeps {m : Nat} {r s : State} (x : Xfer) (hm : Sub 0x30040000000000000004000001 m) (h : RegKeeps m r s) :
    RegKeeps m r (xferStored x s) := by
  unfold xferStored
  extract_lets x6 x7 x8 x9
  have h10 : RegKeeps m r x7 := RegKeeps.of_keeps (putRecord_keeps _ (sub_refl _) (Keeps.refl _ _)) rfl h
  clear_value x7
  have h11 : RegKeeps m r x8 := secRecLog_regKeeps _ _ _ _ (sub_of hm rfl) (secEvt_regKeeps _ (sub_of hm rfl) h10)
  clear_value x8
  exact RegKeeps.ite (xferEnd_regKeeps _ (sub_of hm rfl) h) (RegKeeps.congr h11 rfl)

theorem storeChunk_regKeeps {m : Nat} {r s : State} (i : Nat) (bytes : List Byte) (x : Xfer) (hm : Sub 0x30040000000000000004000001 m)
    (h : RegKeeps m r s) :
    RegKeeps m r (storeChunk i bytes x s).2 := by
  unfold storeChunk
  extract_lets x8 x9 x10 x11 x12 x13 x14
  have h15 : RegKeeps m r x12 := setRf_regKeeps _ _ _ (hm 26 rfl) (own_mem rfl) h
  clear_value x12
  have h16 : RegKeeps m r x14 := RegKeeps.congr h15 rfl
  clear_value x14
  refine RegKeeps.ite2 ?_ ?_
  · exact RegKeeps.mk2 (xferEnd_regKeeps _ (sub_of hm rfl) (secRecLog_regKeeps _ _ _ _ (sub_of hm rfl) h))
  · refine RegKeeps.mk2 ?_
    exact RegKeeps.ite (xferStored_regKeeps _ (sub_of hm rfl) h16) h16

end Sys2Proof.Machine
end

section
/-! PROOFS. Registers kept by links, cells and the time exchange -/

namespace Sys2Proof.Machine

theorem txPush_regKeeps {m : Nat} {r s : State} (l u : Nat) (ws : List Word) (hm : Sub 0x40000000000ca000000060000000029 m) (h : RegKeeps m r s) :
    RegKeeps m r (txPush l u ws s) := by
  unfold txPush
  split
  · rename_i q hq
    exact RegKeeps.ite (qPushAll_regKeeps _ _ _ (sub_of hm rfl) (qOfCons_lt hq) h) h
  · exact h

theorem timeBit_regKeeps {m : Nat} {r s : State} (i : Nat) (b : Bool) (hm : Sub 0x420000000 m) (h : RegKeeps m r s) :
    RegKeeps m r (timeBit i b s) := by
  unfold timeBit
  exact setRb_regKeeps _ _ (hm 34 rfl) (own_mem rfl) (setRb_regKeeps _ _ (hm 29 rfl) (own_mem rfl) h)

theorem fabRec_regKeeps {m : Nat} {r s : State} (code sev subject : Nat) (d : List Word) (hm : Sub 0x1 m) (h : RegKeeps m r s) :
    RegKeeps m r (fabRec s code sev subject d) := by
  unfold fabRec
  exact logOnce_regKeeps _ _ _ _ _ (sub_of hm rfl) h

theorem lockShow_regKeeps {m : Nat} {r s : State} (hm : Sub 0x420000001 m) (h : RegKeeps m r s) : RegKeeps m r (lockShow s) := by
  unfold lockShow
  exact RegKeeps.ite h (fabRec_regKeeps _ _ _ _ (sub_of hm rfl) (timeBit_regKeeps _ _ (sub_of hm rfl) h))

theorem timeShow_regKeeps {m : Nat} {r s : State} (hm : Sub 0x420000001 m) (h : RegKeeps m r s) : RegKeeps m r (timeShow s) := by
  unfold timeShow
  extract_lets x5 x6 x7
  have h8 : RegKeeps m r x5 := setRb_regKeeps _ _ (hm 34 rfl) (own_mem rfl) h
  clear_value x5
  have h9 : RegKeeps m r x6 := setRf_regKeeps _ _ _ (hm 34 rfl) (own_mem rfl) h8
  clear_value x6
  have h10 : RegKeeps m r x7 := by
    subst x7
    split
    · extract_lets x13 x14
      have h15 : RegKeeps m r x13 := setRb_regKeeps _ _ (hm 34 rfl) (own_mem rfl) (setRf_regKeeps _ _ _ (hm 34 rfl) (own_mem rfl) h8)
      clear_value x13
      exact setRf_regKeeps _ _ _ (hm 34 rfl) (own_mem rfl) (RegKeeps.congr h15 rfl)
    · exact RegKeeps.ite (setRf_regKeeps _ _ _ (hm 34 rfl) (own_mem rfl) h9) h9
  clear_value x7
  exact RegKeeps.ite (lockShow_regKeeps (sub_of hm rfl) h10) h10

theorem linksShow_regKeeps {m : Nat} {r s : State} (hm : Sub 0x40000000000000000020000000 m) (h : RegKeeps m r s) : RegKeeps m r (linksShow s) := by
  unfold linksShow
  extract_lets x5 x6 x7 x8 x9
  exact setRb_regKeeps _ _ (hm 102 rfl) (own_mem rfl) (setRf_regKeeps _ _ _ (hm 29 rfl) (own_mem rfl) (setRf_regKeeps _ _ _ (hm 29 rfl)
      (own_mem rfl) h))

theorem setLkState_regKeeps {m : Nat} {r s : State} (l st : Nat) (hm : Sub 0x40000000000000000020808001 m) (hl : l < 8) (h : RegKeeps m r s) :
    RegKeeps m r (setLkState l st s) := by
  unfold setLkState
  extract_lets x7 x8 x9 x10
  have h11 : RegKeeps m r x8 := setRf_regKeeps _ _ _ (hm 23 rfl) (regs1_mem hl) h
  clear_value x8
  have h12 : RegKeeps m r x9 := RegKeeps.ite (fabRec_regKeeps _ _ _ _ (sub_of hm rfl) (orReg_regKeeps _ (hm 15 rfl) (own_mem rfl) h11)) h11
  clear_value x9
  have h13 : RegKeeps m r x10 := RegKeeps.ite (fabRec_regKeeps _ _ _ _ (sub_of hm rfl) h12) h12
  clear_value x10
  exact linksShow_regKeeps (sub_of hm rfl) h13

theorem linksStart_regKeeps {m : Nat} {r s : State} (hm : Sub 0x40000000000000000020800000 m) (h : RegKeeps m r s) :
    RegKeeps m r (linksStart s) := by
  unfold linksStart
  refine linksShow_regKeeps (sub_of hm rfl) ?_
  refine RegKeeps.foldl _ _ (fun s5 a5 m5 h5 => ?_) _ ?_
  · exact setRf_regKeeps _ _ _ (hm 23 rfl) (regs1_mem (List.mem_range.mp m5)) (RegKeeps.of_keeps
        (linkFresh_keeps _ (sub_refl _) (Keeps.refl _ _)) rfl h5)
  · exact h

theorem quarantine_regKeeps {m : Nat} {r s : State} (l cause : Nat) (hm : Sub 0x40000000000000000020a08001 m) (hl : l < 8) (h : RegKeeps m r s) :
    RegKeeps m r (quarantine l cause s) := by
  unfold quarantine
  extract_lets x7 x8 x9 x10
  have h11 : RegKeeps m r x8 := setRf_regKeeps _ _ _ (hm 23 rfl) (regs1_mem hl) (setRf_regKeeps _ _ _ (hm 23 rfl) (regs1_mem hl) h)
  clear_value x8
  have h12 : RegKeeps m r x10 := RegKeeps.of_keeps (setLk_keeps _ _ (sub_refl _) (Keeps.refl _ _)) rfl (orReg_regKeeps _ (hm 15 rfl) (own_mem rfl)
      (satRf_regKeeps _ _ _ (hm 21 rfl) (regs1_mem hl) h11))
  clear_value x10
  refine RegKeeps.ite ?_ ?_
  · exact fabRec_regKeeps _ _ _ _ (sub_of hm rfl) (setLkState_regKeeps _ _ (sub_of hm rfl) hl h12)
  · exact linksShow_regKeeps (sub_of hm rfl) (RegKeeps.of_keeps (setLk_keeps _ _ (sub_refl _) (Keeps.refl _ _)) rfl h11)

theorem violation_regKeeps {m : Nat} {r s : State} (l reg : Nat) (high lo : Nat) (hm : Sub 0x40000000000000000022a08001 m) (hl : l < 8) {i : Nat}
    (hi : m.testBit i = true) (hreg : reg ∈ regGroup i) (h : RegKeeps m r s) :
    RegKeeps m r (violation l reg high lo s) := by
  unfold violation
  extract_lets x9 x10
  have h11 : RegKeeps m r x9 := satRf_regKeeps _ _ _ hi hreg h
  clear_value x9
  have h12 : RegKeeps m r x10 := satRf_regKeeps _ _ _ (hm 25 rfl) (regs1_mem hl) (satRf_regKeeps _ _ _ (hm 25 rfl) (regs1_mem hl) h11)
  clear_value x10
  split
  · exact RegKeeps.ite (quarantine_regKeeps _ _ (sub_of hm rfl) hl h12) h12
  · exact quarantine_regKeeps _ _ (sub_of hm rfl) hl h11
  · exact h11

theorem rxPush_regKeeps {m : Nat} {r s : State} (l : Nat) (ws : List Word) (hm : Sub 0x40000000000ca000000060000028029 m) (hl : l < 8)
    (h : RegKeeps m r s) :
    RegKeeps m r (rxPush l ws s) := by
  unfold rxPush
  extract_lets x7
  refine RegKeeps.ite ?_ ?_
  · exact islandPush_regKeeps _ _ _ (sub_of hm rfl) h
  · exact fabRec_regKeeps _ _ _ _ (sub_of hm rfl) (orReg_regKeeps _ (hm 15 rfl) (own_mem rfl) (satRf_regKeeps _ _ _ (hm 17 rfl) (regs1_mem hl) h))

theorem tsPorts_regKeeps {m : Nat} {r s : State} (l k ts : Nat) (hm : Sub 0x4000000000000000000000000000001 m) (h : RegKeeps m r s) :
    RegKeeps m r (tsPorts l k ts s) := by
  unfold tsPorts
  exact sendIn_regKeeps _ _ _ (sub_of hm rfl) h

theorem cellReceive_regKeeps {m : Nat} {r s : State} (l slot ts : Nat) (ws : List Word) (hm : Sub 0x40000400000ca000000060022ee8029 m) (hl : l < 8)
    (h : RegKeeps m r s) :
    RegKeeps m r (cellReceive l slot ts ws s) := by
  unfold cellReceive
  extract_lets x9 x10 x11 x12 x13
  have h14 : RegKeeps m r x10 := addReg_regKeeps _ (hm 22 rfl) (regs1_mem hl) h
  clear_value x10
  have h15 : RegKeeps m r x12 := by
    refine RegKeeps.ite ?_ ?_
    · exact tsPorts_regKeeps _ _ _ (sub_of hm rfl) (RegKeeps.of_keeps (setLk_keeps _ _ (sub_refl _) (Keeps.refl _ _)) rfl h14)
    · exact h14
  clear_value x12
  have h16 : RegKeeps m r x13 := rxPush_regKeeps _ _ (sub_of hm rfl) hl h15
  clear_value x13
  refine RegKeeps.ite ?_ ?_
  · exact h
  · refine RegKeeps.ite ?_ ?_
    · exact RegKeeps.of_keeps (fabShow_keeps _ (sub_refl _) (Keeps.refl _ _)) rfl (violation_regKeeps _ _ _ _ (sub_of hm rfl) hl (hm 18 rfl)
          (regs1_mem hl) h)
    · refine RegKeeps.ite ?_ ?_
      · exact RegKeeps.of_keeps (fabShow_keeps _ (sub_refl _) (Keeps.refl _ _)) rfl (violation_regKeeps _ _ _ _ (sub_of hm rfl) hl (hm 19 rfl)
            (regs1_mem hl) h)
      · refine RegKeeps.ite ?_ ?_
        · exact h
        · refine RegKeeps.ite ?_ ?_
          · exact RegKeeps.of_keeps (fabShow_keeps _ (sub_refl _) (Keeps.refl _ _)) rfl (violation_regKeeps _ _ _ _ (sub_of hm rfl) hl (hm 18 rfl)
                (regs1_mem hl) h)
          · refine RegKeeps.of_keeps (fabShow_keeps _ (sub_refl _) (Keeps.refl _ _)) rfl ?_
            exact RegKeeps.ite h16 (RegKeeps.of_keeps (stationRefresh_keeps _ _ _ (sub_refl _) (Keeps.refl _ _)) rfl h16)

theorem cellSend_regKeeps {m : Nat} {r s : State} (l : Nat) (ws : List Word) (hm : Sub 0x1000000 m) (hl : l < 8) (h : RegKeeps m r s) :
    RegKeeps m r (cellSend l ws s) := by
  unfold cellSend
  extract_lets x7
  exact RegKeeps.of_keeps (setLk_keeps _ _ (sub_refl _) (Keeps.refl _ _)) rfl (addReg_regKeeps _ (hm 24 rfl) (regs1_mem hl) h)

theorem showRate_regKeeps {m : Nat} {r s : State} (n : Int) (d : Nat) (hm : Sub 0x200000000 m) (h : RegKeeps m r s) :
    RegKeeps m r (showRate n d s) := by
  unfold showRate
  extract_lets x7
  have h8 : RegKeeps m r x7.2 := RegKeeps.of_keeps (roundFree_keeps _ _ (sub_refl _) (Keeps.refl _ _)) rfl h
  clear_value x7
  exact setReg_regKeeps _ (hm 33 rfl) (own_mem rfl) h8

theorem timeServo_regKeeps {m : Nat} {r s : State} (t2 : Nat) (hm : Sub 0x620008001 m) (h : RegKeeps m r s) : RegKeeps m r (timeServo t2 s) := by
  unfold timeServo
  extract_lets x6 x7 x8 x9 x10 x11 x12 x13 x14 x15 x16 x17 x18 x19 x20 x21 x22 x23
  have h24 : RegKeeps m r x7.2 := RegKeeps.of_keeps (roundFree_keeps _ _ (sub_refl _) (Keeps.refl _ _)) rfl h
  clear_value x7
  have h25 : RegKeeps m r x8 := fabRec_regKeeps _ _ _ _ (sub_of hm rfl) h24
  clear_value x8
  have h26 : RegKeeps m r x10 := fabRec_regKeeps _ _ _ _ (sub_of hm rfl) (orReg_regKeeps _ (hm 15 rfl) (own_mem rfl) h)
  clear_value x10
  have h27 : RegKeeps m r x11 := timeBit_regKeeps _ _ (sub_of hm rfl) h26
  clear_value x11
  have h28 : RegKeeps m r x13 := timeBit_regKeeps _ _ (sub_of hm rfl) h
  clear_value x13
  have h29 : RegKeeps m r x15.2 := RegKeeps.of_keeps (free_keeps (sub_refl _) (Keeps.refl _ _)) rfl h28
  clear_value x15
  have h30 : RegKeeps m r x17.2 := RegKeeps.of_keeps (free_keeps (sub_refl _) (Keeps.refl _ _)) rfl h29
  clear_value x17
  have h31 : RegKeeps m r x18 := by
    subst x18
    exact h30
  clear_value x18
  have h32 : RegKeeps m r x20 := RegKeeps.congr h31 rfl
  clear_value x20
  refine RegKeeps.ite ?_ ?_
  · exact RegKeeps.congr h25 rfl
  · refine RegKeeps.ite ?_ ?_
    · exact RegKeeps.congr h27 rfl
    · refine RegKeeps.ite ?_ ?_
      · exact setReg_regKeeps _ (hm 33 rfl) (own_mem rfl) h32
      · exact showRate_regKeeps _ _ (sub_of hm rfl) (RegKeeps.congr h28 rfl)

theorem popCell_regKeeps {m : Nat} {r s : State} (q x1 : Nat) (hm : Sub 0x47000000000d2000000060000000029 m) (hq : q < 64) (h : RegKeeps m r s) :
    RegKeeps m r (popCell q x1 s).2 := by
  induction x1 generalizing s with | zero => ?_ | succ k ih => ?_
  · simp -zeta only [popCell]
    exact h
  · simp -zeta only [popCell]
    extract_lets x8 x9
    have h10 : RegKeeps m r x8.2 := qPopOut_regKeeps _ (sub_of hm rfl) hq h
    clear_value x8
    have h11 : RegKeeps m r x9.2 := ih h10
    clear_value x9
    exact RegKeeps.mk2 h11

theorem txPop_regKeeps {m : Nat} {r s : State} (l u : Nat) (hm : Sub 0x47000000000d2000000060000000029 m) (h : RegKeeps m r s) :
    RegKeeps m r (txPop l u s).2 := by
  unfold txPop
  split
  · rename_i q hq
    exact popCell_regKeeps _ _ (sub_of hm rfl) (qOfCons_lt hq) h
  · exact RegKeeps.mk2 h

theorem discardHeads_regKeeps {m : Nat} {r s : State} (l u x2 : Nat) (hm : Sub 0x47000000000d2000000060000020029 m) (hl : l < 8)
    (h : RegKeeps m r s) :
    RegKeeps m r (discardHeads l u x2 s) := by
  induction x2 generalizing s with | zero => ?_ | succ k ih => ?_
  · simp -zeta only [discardHeads]
    exact h
  · simp -zeta only [discardHeads]
    exact RegKeeps.ite (ih (satRf_regKeeps _ _ _ (hm 17 rfl) (regs1_mem hl) (txPop_regKeeps _ _ (sub_of hm rfl) h))) h

theorem discardAll_regKeeps {m : Nat} {r s : State} (l : Nat) (hm : Sub 0x47000000000d2000000060000020029 m) (hl : l < 8) (h : RegKeeps m r s) :
    RegKeeps m r (discardAll l s) := by
  unfold discardAll
  refine RegKeeps.ite ?_ ?_
  · exact h
  · refine RegKeeps.foldl _ _ (fun s6 a6 m6 h6 => ?_) _ ?_
    · exact discardHeads_regKeeps _ _ _ (sub_of hm rfl) hl h6
    · exact h

theorem discoveryUp_regKeeps {m : Nat} {r s : State} (l : Nat) (hm : Sub 0x40000000000000000020808001 m) (hl : l < 8) (h : RegKeeps m r s) :
    RegKeeps m r (discoveryUp l s) := by
  unfold discoveryUp
  exact RegKeeps.ite (setLkState_regKeeps _ _ (sub_of hm rfl) hl h) h

theorem holdover_regKeeps {m : Nat} {r s : State} (hm : Sub 0x620008001 m) (h : RegKeeps m r s) : RegKeeps m r (holdover s) := by
  unfold holdover
  extract_lets x5 x6 x7
  have h8 : RegKeeps m r x5 := showRate_regKeeps _ _ (sub_of hm rfl) (timeBit_regKeeps _ _ (sub_of hm rfl) (orReg_regKeeps _ (hm 15 rfl)
      (own_mem rfl) h))
  clear_value x5
  have h9 : RegKeeps m r x7 := RegKeeps.congr h8 rfl
  clear_value x7
  refine RegKeeps.ite ?_ ?_
  · exact h
  · exact RegKeeps.of_keeps (republish_keeps _ (sub_refl _) (Keeps.refl _ _)) rfl (fabRec_regKeeps _ _ _ _ (sub_of hm rfl) h9)

theorem identityPositionSend_regKeeps {m : Nat} {r s : State} (l : Nat) (hm : Sub 0x40000000000ca000000060001000029 m) (hl : l < 8)
    (h : RegKeeps m r s) :
    RegKeeps m r (identityPositionSend l s) := by
  unfold identityPositionSend
  extract_lets x6 x7
  have h8 : RegKeeps m r x6.2 := RegKeeps.of_keeps (mkCell_keeps _ _ _ _ _ _ _ (sub_refl _) (Keeps.refl _ _)) rfl h
  clear_value x6
  have h9 : RegKeeps m r x7.2 := RegKeeps.of_keeps (mkCell_keeps _ _ _ _ _ _ _ (sub_refl _) (Keeps.refl _ _)) rfl h8
  clear_value x7
  refine RegKeeps.ite ?_ ?_
  · exact h
  · refine RegKeeps.ite ?_ ?_
    · exact txPush_regKeeps _ _ _ (sub_of hm rfl) (txPush_regKeeps _ _ _ (sub_of hm rfl) h9)
    · exact RegKeeps.of_keeps (fabShow_keeps _ (sub_refl _) (Keeps.refl _ _)) rfl (cellSend_regKeeps _ _ (sub_of hm rfl) hl
          (cellSend_regKeeps _ _ (sub_of hm rfl) hl h9))

theorem linkStatus_regKeeps {m : Nat} {r s : State} (l : Nat) (hm : Sub 0x4000000000000000000000000000001 m) (h : RegKeeps m r s) :
    RegKeeps m r (linkStatus l s) := by
  unfold linkStatus
  extract_lets x6
  have h7 : RegKeeps m r x6.2 := RegKeeps.of_keeps (free_keeps (sub_refl _) (Keeps.refl _ _)) rfl h
  clear_value x6
  exact sendIn_regKeeps _ _ _ (sub_of hm rfl) h7

theorem linkLoss_regKeeps {m : Nat} {r s : State} (l : Nat) (hm : Sub 0x4000040000000000000000020808001 m) (hl : l < 8) (h : RegKeeps m r s) :
    RegKeeps m r (linkLoss l s) := by
  unfold linkLoss
  refine RegKeeps.ite ?_ ?_
  · exact h
  · exact RegKeeps.of_keeps (fabShow_keeps _ (sub_refl _) (Keeps.refl _ _)) rfl (setLkState_regKeeps _ _ (sub_of hm rfl) hl (RegKeeps.of_keeps
        (linkFresh_keeps _ (sub_refl _) (Keeps.refl _ _)) rfl (linkStatus_regKeeps _ (sub_of hm rfl) h)))

theorem linkSignalPresent_regKeeps {m : Nat} {r s : State} (l : Nat) (hm : Sub 0x4000040000000000000000020808001 m) (hl : l < 8)
    (h : RegKeeps m r s) :
    RegKeeps m r (linkSignalPresent l s) := by
  unfold linkSignalPresent
  refine RegKeeps.ite ?_ ?_
  · exact RegKeeps.of_keeps (fabShow_keeps _ (sub_refl _) (Keeps.refl _ _)) rfl (setLkState_regKeeps _ _ (sub_of hm rfl) hl
        (linkStatus_regKeeps _ (sub_of hm rfl) h))
  · exact h

theorem lockStep_regKeeps {m : Nat} {r s : State} (hm : Sub 0x420000001 m) (h : RegKeeps m r s) : RegKeeps m r (lockStep s) := by
  unfold lockStep
  extract_lets x5 x6 x7 x8 x9
  have h10 : RegKeeps m r x9 := RegKeeps.congr h rfl
  clear_value x9
  exact RegKeeps.ite (lockShow_regKeeps (sub_of hm rfl) h10) (RegKeeps.ite (timeBit_regKeeps _ _ (sub_of hm rfl) h10) h10)

theorem parentExchange_regKeeps {m : Nat} {r s : State} (l t2 : Nat) (theta2 : Int) (hm : Sub 0x7a0008001 m) (h : RegKeeps m r s) :
    RegKeeps m r (parentExchange l t2 theta2 s) := by
  unfold parentExchange
  extract_lets x8 x9 x10 x11 x12
  have h13 : RegKeeps m r x9 := RegKeeps.congr h rfl
  clear_value x9
  have h14 : RegKeeps m r x10.2 := RegKeeps.of_keeps (roundFree_keeps _ _ (sub_refl _) (Keeps.refl _ _)) rfl h13
  clear_value x10
  have h15 : RegKeeps m r x11 := setRf_regKeeps _ _ _ (hm 34 rfl) (own_mem rfl) (setReg_regKeeps _ (hm 32 rfl) (own_mem rfl) h14)
  clear_value x11
  have h16 : RegKeeps m r x12 := setReg_regKeeps _ (hm 31 rfl) (own_mem rfl) (timeBit_regKeeps _ _ (sub_of hm rfl) h15)
  clear_value x12
  exact lockStep_regKeeps (sub_of hm rfl) (timeServo_regKeeps _ (sub_of hm rfl) h16)

theorem onParent_regKeeps {m : Nat} {r s : State} (l t2 : Nat) (theta2 : Int) (hm : Sub 0x7a0008001 m) (h : RegKeeps m r s) :
    RegKeeps m r (onParent l t2 theta2 s) := by
  unfold onParent
  split
  · exact RegKeeps.ite (parentExchange_regKeeps _ _ _ (sub_of hm rfl) h) h
  · exact h

theorem position_regKeeps {m : Nat} {r s : State} (l addr : Nat) (nlink expAddr : Nat) (expLink hash stratum : Nat)
    (hm : Sub 0x40000000000000000020a08001 m) (hl : l < 8) (h : RegKeeps m r s) :
    RegKeeps m r (position l addr nlink expAddr expLink hash stratum s) := by
  unfold position
  extract_lets x12 x13 x14 x15 x16 x17 x18
  have h19 : RegKeeps m r x14 := RegKeeps.of_keeps (setLk_keeps _ _ (sub_refl _) (Keeps.refl _ _)) rfl h
  clear_value x14
  have h20 : RegKeeps m r x18 := RegKeeps.ite (RegKeeps.of_keeps (setLk_keeps _ _ (sub_refl _) (Keeps.refl _ _)) rfl h19) h19
  clear_value x18
  refine RegKeeps.ite ?_ ?_
  · exact h
  · refine RegKeeps.ite ?_ ?_
    · exact RegKeeps.of_keeps (fabShow_keeps _ (sub_refl _) (Keeps.refl _ _)) rfl (fabRec_regKeeps _ _ _ _ (sub_of hm rfl)
          (quarantine_regKeeps _ _ (sub_of hm rfl) hl (orReg_regKeeps _ (hm 15 rfl) (own_mem rfl) h20)))
    · clear_value x12
      split
      · rename_i y21
        refine RegKeeps.ite ?_ ?_
        · exact RegKeeps.of_keeps (fabShow_keeps _ (sub_refl _) (Keeps.refl _ _)) rfl (setLkState_regKeeps _ _ (sub_of hm rfl) hl (RegKeeps.of_keeps
              (setLk_keeps _ _ (sub_refl _) (Keeps.refl _ _)) rfl h19))
        · exact h19
      · rename_i y23 y24
        exact RegKeeps.of_keeps (fabShow_keeps _ (sub_refl _) (Keeps.refl _ _)) rfl (discoveryUp_regKeeps _ (sub_of hm rfl) hl
            (linksShow_regKeeps (sub_of hm rfl) (RegKeeps.of_keeps (setLk_keeps _ _ (sub_refl _) (Keeps.refl _ _)) rfl h19)))

theorem probationClean_regKeeps {m : Nat} {r s : State} (l : Nat) (hm : Sub 0x40000000000000000020808001 m) (hl : l < 8) (h : RegKeeps m r s) :
    RegKeeps m r (probationClean l s) := by
  unfold probationClean
  refine RegKeeps.ite ?_ ?_
  · exact RegKeeps.of_keeps (fabShow_keeps _ (sub_refl _) (Keeps.refl _ _)) rfl (setLkState_regKeeps _ _ (sub_of hm rfl) hl (setRf_regKeeps _ _ _
        (hm 23 rfl) (regs1_mem hl) h))
  · exact h

theorem timeSend_regKeeps {m : Nat} {r s : State} (l ts : Nat) (hm : Sub 0x4000000000000000000000001000001 m) (hl : l < 8) (h : RegKeeps m r s) :
    RegKeeps m r (timeSend l ts s) := by
  unfold timeSend
  extract_lets x7 x8 x9 x10 x11
  have h12 : RegKeeps m r x9.2 := RegKeeps.of_keeps (mkCell_keeps _ _ _ _ _ _ _ (sub_refl _) (Keeps.refl _ _)) rfl h
  clear_value x9
  have h13 : RegKeeps m r x10 := cellSend_regKeeps _ _ (sub_of hm rfl) hl h12
  clear_value x10
  exact tsPorts_regKeeps _ _ _ (sub_of hm rfl) (RegKeeps.of_keeps (setLk_keeps _ _ (sub_refl _) (Keeps.refl _ _)) rfl h13)

theorem txSend_regKeeps {m : Nat} {r s : State} (l u ts : Nat) (hm : Sub 0x47000000000d2000000060001000029 m) (hl : l < 8) (h : RegKeeps m r s) :
    RegKeeps m r (txSend l u ts s) := by
  unfold txSend
  extract_lets x8
  have h9 : RegKeeps m r x8.2 := txPop_regKeeps _ _ (sub_of hm rfl) h
  clear_value x8
  exact cellSend_regKeeps _ _ (sub_of hm rfl) hl h9

theorem slotStart_regKeeps {m : Nat} {r s : State} (l slot : Nat) (hm : Sub 0x47000000000d2000000060001028029 m) (hl : l < 8) (h : RegKeeps m r s) :
    RegKeeps m r (slotStart l slot s) := by
  unfold slotStart
  extract_lets x7 x8 x9
  have h10 : RegKeeps m r x7 := discardAll_regKeeps _ (sub_of hm rfl) hl h
  clear_value x7
  refine RegKeeps.ite ?_ ?_
  · exact h
  · refine RegKeeps.ite ?_ ?_
    · exact RegKeeps.of_keeps (fabShow_keeps _ (sub_refl _) (Keeps.refl _ _)) rfl h10
    · refine RegKeeps.of_keeps (fabShow_keeps _ (sub_refl _) (Keeps.refl _ _)) rfl ?_
      split
      · refine RegKeeps.ite ?_ ?_
        · exact txSend_regKeeps _ _ _ (sub_of hm rfl) hl h10
        · refine RegKeeps.ite ?_ ?_
          · exact fabRec_regKeeps _ _ _ _ (sub_of hm rfl) (orReg_regKeeps _ (hm 15 rfl) (own_mem rfl) (satRf_regKeeps _ _ _ (hm 17 rfl)
                (regs1_mem hl) h10))
          · exact h10
      · exact RegKeeps.ite (timeSend_regKeeps _ _ (sub_of hm rfl) hl h10) h10
      · refine RegKeeps.ite ?_ ?_
        · exact txSend_regKeeps _ _ _ (sub_of hm rfl) hl h10
        · refine RegKeeps.ite ?_ ?_
          · exact txSend_regKeeps _ _ _ (sub_of hm rfl) hl h10
          · exact RegKeeps.ite (txSend_regKeeps _ _ _ (sub_of hm rfl) hl h10) h10
      · exact h10

theorem symbolsAligned_regKeeps {m : Nat} {r s : State} (l : Nat) (swap inv : Bool) (hm : Sub 0x4000040000000000000000020808001 m) (hl : l < 9)
    (h : RegKeeps m r s) :
    RegKeeps m r (symbolsAligned l swap inv s) := by
  unfold symbolsAligned
  extract_lets x8 x9 x10
  have h11 : RegKeeps m r x9 := RegKeeps.of_keeps (linkFresh_keeps _ (sub_refl _) (Keeps.refl _ _)) rfl (linkStatus_regKeeps _ (sub_of hm rfl) h)
  clear_value x9
  split
  · exact RegKeeps.congr h rfl
  · refine RegKeeps.ite ?_ ?_
    · exact RegKeeps.of_keeps (fabShow_keeps _ (sub_refl _) (Keeps.refl _ _)) rfl (setLkState_regKeeps _ _ (sub_of hm rfl) (by omega)
          (RegKeeps.of_keeps (setLk_keeps _ _ (sub_refl _) (Keeps.refl _ _)) rfl h11))
    · exact h

theorem timeCellBeforeRelease_regKeeps {m : Nat} {r s : State} (l : Nat) (hm : Sub 0x4000000000000000000000001000001 m) (hl : l < 8)
    (h : RegKeeps m r s) :
    RegKeeps m r (timeCellBeforeRelease l s) := by
  unfold timeCellBeforeRelease
  refine RegKeeps.ite ?_ ?_
  · exact h
  · exact RegKeeps.of_keeps (fabShow_keeps _ (sub_refl _) (Keeps.refl _ _)) rfl (timeSend_regKeeps _ _ (sub_of hm rfl) hl h)

theorem timeExchange_regKeeps {m : Nat} {r s : State} (l t1 : Nat) (t2 t3 : Nat) (t4 stratum : Nat) (hm : Sub 0x400000000000000007a0b18001 m)
    (hl : l < 8) (h : RegKeeps m r s) :
    RegKeeps m r (timeExchange l t1 t2 t3 t4 stratum s) := by
  unfold timeExchange
  extract_lets x11 x12 x13 x14 x15 x16 x17 x18 x19 x20 x21
  have h22 : RegKeeps m r x12 := RegKeeps.of_keeps (setLk_keeps _ _ (sub_refl _) (Keeps.refl _ _)) rfl h
  clear_value x12
  have h23 : RegKeeps m r x15.2 := RegKeeps.of_keeps (roundFree_keeps _ _ (sub_refl _) (Keeps.refl _ _)) rfl h22
  clear_value x15
  have h24 : RegKeeps m r x16.2 := RegKeeps.of_keeps (roundFree_keeps _ _ (sub_refl _) (Keeps.refl _ _)) rfl h23
  clear_value x16
  have h25 : RegKeeps m r x17 := setRf_regKeeps _ _ _ (hm 16 rfl) (regs1_mem hl) (setReg_regKeeps _ (hm 20 rfl) (regs1_mem hl) h24)
  clear_value x17
  have h26 : RegKeeps m r x20 := timeShow_regKeeps (sub_of hm rfl) (discoveryUp_regKeeps _ (sub_of hm rfl) hl (RegKeeps.of_keeps
      (setLk_keeps _ _ (sub_refl _) (Keeps.refl _ _)) rfl h25))
  clear_value x20
  have h27 : RegKeeps m r x21 := onParent_regKeeps _ _ _ (sub_of hm rfl) h26
  clear_value x21
  refine RegKeeps.ite ?_ ?_
  · exact h
  · refine RegKeeps.ite ?_ ?_
    · exact RegKeeps.of_keeps (fabShow_keeps _ (sub_refl _) (Keeps.refl _ _)) rfl (timeShow_regKeeps (sub_of hm rfl) h22)
    · refine RegKeeps.of_keeps (fabShow_keeps _ (sub_refl _) (Keeps.refl _ _)) rfl ?_
      refine timeShow_regKeeps (sub_of hm rfl) ?_
      exact RegKeeps.ite (quarantine_regKeeps _ _ (sub_of hm rfl) hl h27) h27

theorem execCellReceive_regKeeps {m : Nat} {r s : State} (l : Fin 8) (slot : Fin 128) (ts : BitVec 64) (ws : List Word)
    (hm : Sub 0x40000400000ca000000060022ee8029 m) (h : RegKeeps m r s) :
    RegKeepsO m r (execCellReceive l slot ts ws s) := by
  unfold execCellReceive
  refine RegKeepsO.guarded ?_
  exact RegKeeps.ite h (cellReceive_regKeeps _ _ _ _ (sub_of hm rfl) l.isLt h)

theorem execHoldover_regKeeps {m : Nat} {r s : State} (hm : Sub 0x620008001 m) (h : RegKeeps m r s) : RegKeepsO m r (execHoldover s) := by
  unfold execHoldover
  refine RegKeepsO.next ?_
  exact RegKeeps.ite h (holdover_regKeeps (sub_of hm rfl) h)

theorem execIdentityPositionSend_regKeeps {m : Nat} {r s : State} (l : Fin 8) (hm : Sub 0x40000000000ca000000060001000029 m) (h : RegKeeps m r s) :
    RegKeepsO m r (execIdentityPositionSend l s) := by
  unfold execIdentityPositionSend
  refine RegKeepsO.next ?_
  exact RegKeeps.ite h (identityPositionSend_regKeeps _ (sub_of hm rfl) l.isLt h)

theorem execLinkLoss_regKeeps {m : Nat} {r s : State} (l : Fin 8) (hm : Sub 0x4000040000000000000000020808001 m) (h : RegKeeps m r s) :
    RegKeepsO m r (execLinkLoss l s) := by
  unfold execLinkLoss
  exact RegKeepsO.next (linkLoss_regKeeps _ (sub_of hm rfl) l.isLt h)

theorem execLinkSignalPresent_regKeeps {m : Nat} {r s : State} (l : Fin 8) (hm : Sub 0x4000040000000000000000020808001 m) (h : RegKeeps m r s) :
    RegKeepsO m r (execLinkSignalPresent l s) := by
  unfold execLinkSignalPresent
  refine RegKeepsO.next ?_
  exact RegKeeps.ite h (linkSignalPresent_regKeeps _ (sub_of hm rfl) l.isLt h)

theorem execPosition_regKeeps {m : Nat} {r s : State} (l : Fin 8) (addr : BitVec 16) (nlink : BitVec 8) (expAddr : BitVec 16) (expLink : BitVec 8)
    (hash : BitVec 64) (stratum : BitVec 8) (hm : Sub 0x40000000000000000020a08001 m) (h : RegKeeps m r s) :
    RegKeepsO m r (execPosition l addr nlink expAddr expLink hash stratum s) := by
  unfold execPosition
  refine RegKeepsO.next ?_
  exact RegKeeps.ite h (position_regKeeps _ _ _ _ _ _ _ (sub_of hm rfl) l.isLt h)

theorem execProbationClean_regKeeps {m : Nat} {r s : State} (l : Fin 8) (hm : Sub 0x40000000000000000020808001 m) (h : RegKeeps m r s) :
    RegKeepsO m r (execProbationClean l s) := by
  unfold execProbationClean
  refine RegKeepsO.next ?_
  exact RegKeeps.ite h (probationClean_regKeeps _ (sub_of hm rfl) l.isLt h)

theorem execSlotStart_regKeeps {m : Nat} {r s : State} (l : Fin 8) (slot : Fin 96) (hm : Sub 0x47000000000d2000000060001028029 m)
    (h : RegKeeps m r s) :
    RegKeepsO m r (execSlotStart l slot s) := by
  unfold execSlotStart
  refine RegKeepsO.next ?_
  exact RegKeeps.ite h (slotStart_regKeeps _ _ (sub_of hm rfl) l.isLt h)

theorem execSymbolsAligned_regKeeps {m : Nat} {r s : State} (l : Fin 9) (swap inverted : Bool) (hm : Sub 0x4000040000000000000000020808001 m)
    (h : RegKeeps m r s) :
    RegKeepsO m r (execSymbolsAligned l swap inverted s) := by
  unfold execSymbolsAligned
  refine RegKeepsO.next ?_
  exact RegKeeps.ite h (symbolsAligned_regKeeps _ _ _ (sub_of hm rfl) l.isLt h)

theorem execTimeCellSendBeforeRelease_regKeeps {m : Nat} {r s : State} (l : Fin 8) (hm : Sub 0x4000000000000000000000001000001 m)
    (h : RegKeeps m r s) :
    RegKeepsO m r (execTimeCellSendBeforeRelease l s) := by
  unfold execTimeCellSendBeforeRelease
  refine RegKeepsO.next ?_
  exact RegKeeps.ite h (timeCellBeforeRelease_regKeeps _ (sub_of hm rfl) l.isLt h)

theorem execTimeExchange_regKeeps {m : Nat} {r s : State} (l : Fin 8) (t1 : BitVec 64) (t2 : BitVec 64) (t3 : BitVec 64) (t4 : BitVec 64)
    (stratum : BitVec 8) (hm : Sub 0x400000000000000007a0b18001 m) (h : RegKeeps m r s) :
    RegKeepsO m r (execTimeExchange l t1 t2 t3 t4 stratum s) := by
  unfold execTimeExchange
  refine RegKeepsO.next ?_
  exact RegKeeps.ite h (timeExchange_regKeeps _ _ _ _ _ _ (sub_of hm rfl) l.isLt h)

end Sys2Proof.Machine
end

section
/-! PROOFS. Registers kept by routes, reports and parcels -/

namespace Sys2Proof.Machine

theorem sendByTable_regKeeps {m : Nat} {r s : State} (ws : List Word) (hm : Sub 0x40000000000ca00000006000800c029 m) (h : RegKeeps m r s) :
    RegKeeps m r (sendByTable ws s) := by
  unfold sendByTable
  split
  · extract_lets x10 x11
    have h12 : RegKeeps m r x11 := by
      subst x11
      split
      · exact txPush_regKeeps _ _ _ (sub_of hm rfl) h
      · exact h
    clear_value x11
    exact RegKeeps.ite (addReg_regKeeps _ (hm 14 rfl) (own_mem rfl) h12) h12
  · exact fabRec_regKeeps _ _ _ _ (sub_of hm rfl) (orReg_regKeeps _ (hm 15 rfl) (own_mem rfl) (satRf_regKeeps _ _ _ (hm 27 rfl) (own_mem rfl) h))

theorem routeCell_regKeeps {m : Nat} {r s : State} (arrival : Option Nat) (ws : List Word) (hm : Sub 0x40000400000ca00000006002aa8c029 m)
    (hl : ∀ l ∈ arrival, l < 8) (h : RegKeeps m r s) :
    RegKeeps m r (routeCell arrival ws s) := by
  unfold routeCell
  refine RegKeeps.ite ?_ ?_
  · exact h
  · split
    · exact RegKeeps.of_keeps (republish_keeps _ (sub_refl _) (Keeps.refl _ _)) rfl (sendByTable_regKeeps _ (sub_of hm rfl) h)
    · refine RegKeeps.ite ?_ ?_
      · exact RegKeeps.of_keeps (fabShow_keeps _ (sub_refl _) (Keeps.refl _ _)) rfl (violation_regKeeps _ _ _ _ (sub_of hm rfl) (hl _ rfl)
            (hm 19 rfl) (regs1_mem (hl _ rfl)) h)
      · exact RegKeeps.of_keeps (fabShow_keeps _ (sub_refl _) (Keeps.refl _ _)) rfl (sendByTable_regKeeps _ (sub_of hm rfl) h)

theorem originate_regKeeps {m : Nat} {r s : State} (dest tenant : Nat) (type flags : Nat) (payload : List Byte)
    (hm : Sub 0x40000400000ca00000006002aa8c029 m) (h : RegKeeps m r s) :
    RegKeeps m r (originate dest tenant type flags payload s) := by
  unfold originate
  extract_lets x10 x11
  have h12 : RegKeeps m r x10.2 := RegKeeps.of_keeps (freePrio_keeps (sub_refl _) (Keeps.refl _ _)) rfl h
  clear_value x10
  have h13 : RegKeeps m r x11.2 := RegKeeps.of_keeps (mkCell_keeps _ _ _ _ _ _ _ (sub_refl _) (Keeps.refl _ _)) rfl h12
  clear_value x11
  exact routeCell_regKeeps _ _ (sub_of hm rfl) (by simp) h13

theorem coalFlush_regKeeps {m : Nat} {r s : State} (i : Nat) (hm : Sub 0x40000400000ca00000006002aa8d029 m) (h : RegKeeps m r s) :
    RegKeeps m r (coalFlush i s) := by
  unfold coalFlush
  extract_lets x6 x7
  have h8 : RegKeeps m r x6 := RegKeeps.of_keeps (coalPut_keeps _ _ (sub_refl _) (Keeps.refl _ _)) rfl h
  clear_value x6
  have h9 : RegKeeps m r x7 := setRf_regKeeps _ _ _ (hm 12 rfl) (own_mem rfl) h8
  clear_value x7
  split
  · exact h
  · extract_lets x13
    exact RegKeeps.ite h8 (originate_regKeeps _ _ _ _ _ (sub_of hm rfl) h9)

theorem coalRoom_regKeeps {m : Nat} {r s : State} (hm : Sub 0x40000400000ca00000006002aa8f029 m) (h : RegKeeps m r s) :
    RegKeeps m r (coalRoom s) := by
  unfold coalRoom
  refine RegKeeps.ite ?_ ?_
  · exact h
  · split
    · exact h
    · extract_lets x9
      have h10 : RegKeeps m r x9 := coalFlush_regKeeps _ (sub_of hm rfl) (satRf_regKeeps _ _ _ (hm 13 rfl) (own_mem rfl) (orReg_regKeeps _
          (hm 15 rfl) (own_mem rfl) h))
      clear_value x9
      exact fabRec_regKeeps _ _ _ _ (sub_of hm rfl) h10

theorem coalShow_regKeeps {m : Nat} {r s : State} (hm : Sub 0x2000 m) (h : RegKeeps m r s) : RegKeeps m r (coalShow s) := by
  unfold coalShow
  exact RegKeeps.of_keeps (republish_keeps _ (sub_refl _) (Keeps.refl _ _)) rfl (setRf_regKeeps _ _ _ (hm 13 rfl) (own_mem rfl) h)

theorem coalesce_regKeeps {m : Nat} {r s : State} (r0 : FaultRep) (dest : Nat) (send : State → State) (hm : Sub 0x40000400000ca00000006002aa8f029 m)
    (h : RegKeeps m r s) (hsend : ∀ a0, RegKeeps m r a0 → RegKeeps m r (send a0)) :
    RegKeeps m r (coalesce r0 dest send s) := by
  unfold coalesce
  extract_lets x9 x10 x11 x12
  have h13 : RegKeeps m r x9 := coalRoom_regKeeps (sub_of hm rfl) h
  clear_value x9
  have h14 : RegKeeps m r x12 := RegKeeps.of_keeps (coalPut_keeps _ _ (sub_refl _) (Keeps.refl _ _)) rfl h13
  clear_value x12
  split
  · exact coalShow_regKeeps (sub_of hm rfl) (hsend _ (setRf_regKeeps _ _ _ (hm 12 rfl) (own_mem rfl) h14))
  · extract_lets x19 x20
    exact coalShow_regKeeps (sub_of hm rfl) (RegKeeps.of_keeps (coalPut_keeps _ _ (sub_refl _) (Keeps.refl _ _)) rfl h)

theorem coalesceFlush_regKeeps {m : Nat} {r s : State} (hm : Sub 0x40000400000ca00000006002aa8f029 m) (h : RegKeeps m r s) :
    RegKeeps m r (coalesceFlush s) := by
  unfold coalesceFlush
  refine coalShow_regKeeps (sub_of hm rfl) ?_
  refine RegKeeps.foldl _ _ (fun s5 a5 m5 h5 => ?_) _ ?_
  · exact coalFlush_regKeeps _ (sub_of hm rfl) h5
  · exact h

theorem faultOwn_regKeeps {m : Nat} {r s : State} (subject fclass : Nat) (detail : List Byte) (hm : Sub 0x40000400000ca00000006002aa8f029 m)
    (h : RegKeeps m r s) :
    RegKeeps m r (faultOwn subject fclass detail s) := by
  unfold faultOwn
  extract_lets x8 x9
  refine RegKeeps.ite ?_ ?_
  · exact h
  · refine coalesce_regKeeps _ _ _ (sub_of hm rfl) ?_ ?_
    · exact h
    · intro q10 q11
      exact originate_regKeeps _ _ _ _ _ (sub_of hm rfl) q11

theorem faultReport_regKeeps {m : Nat} {r s : State} (arrival : Option Nat) (ws : List Word) (hm : Sub 0x40000400000ca00000006002aa8f029 m)
    (hl : ∀ l ∈ arrival, l < 8) (h : RegKeeps m r s) :
    RegKeeps m r (faultReport arrival ws s) := by
  unfold faultReport
  extract_lets x7
  split
  · exact faultOwn_regKeeps _ _ _ (sub_of hm rfl) h
  · refine RegKeeps.ite ?_ ?_
    · exact routeCell_regKeeps _ _ (sub_of hm rfl) hl h
    · refine coalesce_regKeeps _ _ _ (sub_of hm rfl) ?_ ?_
      · exact h
      · intro q9 q10
        exact routeCell_regKeeps _ _ (sub_of hm rfl) hl q10

theorem statusReport_regKeeps {m : Nat} {r s : State} (hm : Sub 0x40000400000ca00000006006aa8c029 m) (h : RegKeeps m r s) :
    RegKeeps m r (statusReport s) := by
  unfold statusReport
  extract_lets x5 x6 x7
  have h8 : RegKeeps m r x6 := publish_regKeeps_of_addresses (M := 0x40000000) (l := [Reg.fabStatus]) (sub_of hm rfl) rfl (by decide +kernel) h
  clear_value x6
  exact RegKeeps.ite h8 (originate_regKeeps _ _ _ _ _ (sub_of hm rfl) h8)

theorem tagCount_regKeeps {m : Nat} {r s : State} (verify : Bool) (chan : Nat) (ws : List Word) (ok nokey : Bool) (hm : Sub 0x820008001 m)
    (h : RegKeeps m r s) :
    RegKeeps m r (tagCount verify chan ws ok nokey s) := by
  unfold tagCount
  extract_lets x10
  have h11 : RegKeeps m r x10 := setRb_regKeeps _ _ (hm 29 rfl) (own_mem rfl) h
  clear_value x10
  refine RegKeeps.ite ?_ ?_
  · exact RegKeeps.ite (satRf_regKeeps _ _ _ (hm 35 rfl) (own_mem rfl) h11) h11
  · refine RegKeeps.ite ?_ ?_
    · exact fabRec_regKeeps _ _ _ _ (sub_of hm rfl) (orReg_regKeeps _ (hm 15 rfl) (own_mem rfl) (satRf_regKeeps _ _ _ (hm 35 rfl)
          (own_mem rfl) h11))
    · exact h11

theorem tagRequest_regKeeps {m : Nat} {r s : State} (hm : Sub 0x47000000000da000000060820008029 m) (h : RegKeeps m r s) :
    RegKeeps m r (tagRequest s) := by
  unfold tagRequest
  split
  · exact h
  · rename_i q hq
    extract_lets x8 x9 x10 x11 x12
    have h13 : RegKeeps m r x8.2 := popCell_regKeeps _ _ (sub_of hm rfl) (qOfCons_lt hq) h
    clear_value x8
    have h14 : RegKeeps m r x11.2 := RegKeeps.of_keeps (tagAnswer_keeps _ _ _ (sub_refl _) (Keeps.refl _ _)) rfl h13
    clear_value x11
    refine RegKeeps.ite ?_ ?_
    · exact h
    · exact RegKeeps.of_keeps (republish_keeps _ (sub_refl _) (Keeps.refl _ _)) rfl (tagCount_regKeeps _ _ _ _ _ (sub_of hm rfl)
          (islandPush_regKeeps _ _ _ (sub_of hm rfl) h14))

theorem tenantQuery_regKeeps {m : Nat} {r s : State} (ws : List Word) (hm : Sub 0x40000400000ca00000006082aa8c029 m) (h : RegKeeps m r s) :
    RegKeeps m r (tenantQuery ws s) := by
  unfold tenantQuery
  extract_lets x6 x7 x8 x9 x10 x11 x12 x13
  have h14 : RegKeeps m r x9.2 := RegKeeps.of_keeps (tagAnswer_keeps _ _ _ (sub_refl _) (Keeps.refl _ _)) rfl h
  clear_value x9
  have h15 : RegKeeps m r x10 := RegKeeps.of_keeps (republish_keeps _ (sub_refl _) (Keeps.refl _ _)) rfl
      (tagCount_regKeeps _ _ _ _ _ (sub_of hm rfl) h14)
  clear_value x10
  have h16 : RegKeeps m r x12.2 := RegKeeps.of_keeps (freePrio_keeps (sub_refl _) (Keeps.refl _ _)) rfl h15
  clear_value x12
  have h17 : RegKeeps m r x13.2 := RegKeeps.of_keeps (mkCell_keeps _ _ _ _ _ _ _ (sub_refl _) (Keeps.refl _ _)) rfl h16
  clear_value x13
  split
  · exact h15
  · exact RegKeeps.ite h15 (routeCell_regKeeps _ _ (sub_of hm rfl) (by simp) h17)

theorem execCoalesceFlush_regKeeps {m : Nat} {r s : State} (hm : Sub 0x40000400000ca00000006002aa8f029 m) (h : RegKeeps m r s) :
    RegKeepsO m r (execCoalesceFlush s) := by
  unfold execCoalesceFlush
  refine RegKeepsO.next ?_
  exact RegKeeps.ite h (coalesceFlush_regKeeps (sub_of hm rfl) h)

theorem execFaultReport_regKeeps {m : Nat} {r s : State} (arrival : Option (Fin 8)) (ws : List Word) (hm : Sub 0x40000400000ca00000006002aa8f029 m)
    (h : RegKeeps m r s) :
    RegKeepsO m r (execFaultReport arrival ws s) := by
  unfold execFaultReport
  refine RegKeepsO.guarded ?_
  exact RegKeeps.ite h (faultReport_regKeeps _ _ (sub_of hm rfl) (forall_val_lt arrival) h)

theorem execRouteCell_regKeeps {m : Nat} {r s : State} (arrival : Option (Fin 8)) (ws : List Word) (hm : Sub 0x40000400000ca00000006002aa8c029 m)
    (h : RegKeeps m r s) :
    RegKeepsO m r (execRouteCell arrival ws s) := by
  unfold execRouteCell
  refine RegKeepsO.guarded ?_
  exact RegKeeps.ite h (routeCell_regKeeps _ _ (sub_of hm rfl) (forall_val_lt arrival) h)

theorem execStatusReport_regKeeps {m : Nat} {r s : State} (hm : Sub 0x40000400000ca00000006006aa8c029 m) (h : RegKeeps m r s) :
    RegKeepsO m r (execStatusReport s) := by
  unfold execStatusReport
  refine RegKeepsO.next ?_
  exact RegKeeps.ite h (statusReport_regKeeps (sub_of hm rfl) h)

theorem execTagRequest_regKeeps {m : Nat} {r s : State} (hm : Sub 0x47000000000da000000060820008029 m) (h : RegKeeps m r s) :
    RegKeepsO m r (execTagRequest s) := by
  unfold execTagRequest
  refine RegKeepsO.next ?_
  exact RegKeeps.ite h (tagRequest_regKeeps (sub_of hm rfl) h)

theorem execTenantQuery_regKeeps {m : Nat} {r s : State} (ws : List Word) (hm : Sub 0x40000400000ca00000006082aa8c029 m) (h : RegKeeps m r s) :
    RegKeepsO m r (execTenantQuery ws s) := by
  unfold execTenantQuery
  refine RegKeepsO.guarded ?_
  exact RegKeeps.ite h (tenantQuery_regKeeps _ (sub_of hm rfl) h)

theorem answerUp_regKeeps {m : Nat} {r s : State} (link : Option Nat) (type id : Nat) (chunk status : Nat) (first count : Nat)
    (hm : Sub 0x40000000000ca000000060000000029 m) (h : RegKeeps m r s) :
    RegKeeps m r (answerUp link type id chunk status first count s) := by
  unfold answerUp
  extract_lets x12 x13
  have h14 : RegKeeps m r x12.2 := RegKeeps.of_keeps (freePrio_keeps (sub_refl _) (Keeps.refl _ _)) rfl h
  clear_value x12
  have h15 : RegKeeps m r x13.2 := RegKeeps.of_keeps (mkCell_keeps _ _ _ _ _ _ _ (sub_refl _) (Keeps.refl _ _)) rfl h14
  clear_value x13
  split
  · exact h
  · exact txPush_regKeeps _ _ _ (sub_of hm rfl) h15

theorem pushDue_regKeeps {m : Nat} {r s : State} (l x1 : Nat) (hm : Sub 0x40000000000ca000000060000000029 m) (h : RegKeeps m r s) :
    RegKeeps m r (pushDue l x1 s) := by
  induction x1 generalizing s with | zero => ?_ | succ k ih => ?_
  · simp -zeta only [pushDue]
    exact h
  · simp -zeta only [pushDue]
    extract_lets x8
    split
    · extract_lets x18 x19 x20
      have h21 : RegKeeps m r x18.2 := RegKeeps.of_keeps (parcelCell_keeps _ _ _ (sub_refl _) (Keeps.refl _ _)) rfl h
      clear_value x18
      have h22 : RegKeeps m r x19 := txPush_regKeeps _ _ _ (sub_of hm rfl) h21
      clear_value x19
      refine RegKeeps.ite ?_ ?_
      · exact ih (RegKeeps.congr h rfl)
      · split
        · exact RegKeeps.ite (ih (RegKeeps.congr h22 rfl)) h
        · exact h
    · exact RegKeeps.congr h rfl
    · exact h

theorem parcelPump_regKeeps {m : Nat} {r s : State} (hm : Sub 0x40000300400ca000000060004000029 m) (h : RegKeeps m r s) :
    RegKeeps m r (parcelPump s) := by
  unfold parcelPump
  split
  · exact h
  · extract_lets x8
    have h9 : RegKeeps m r x8 := by
      subst x8
      refine RegKeeps.foldl _ _ (fun s8 a8 m8 h8 => ?_) _ ?_
      · exact pushDue_regKeeps _ _ (sub_of hm rfl) (RegKeeps.of_keeps (forwardLink_keeps _ (sub_refl _) (Keeps.refl _ _)) rfl (RegKeeps.of_keeps
            (forwardLink_keeps _ (sub_refl _) (Keeps.refl _ _)) rfl h8))
      · exact h
    clear_value x8
    split
    · exact RegKeeps.ite (xferEnd_regKeeps _ (sub_of hm rfl) h9) h9
    · exact h9

theorem countNack_regKeeps {m : Nat} {r s : State} (hm : Sub 0x4000000 m) (h : RegKeeps m r s) : RegKeeps m r (countNack s) := by
  unfold countNack
  exact satRf_regKeeps _ _ _ (hm 26 rfl) (own_mem rfl) h

theorem refuseUp_regKeeps {m : Nat} {r s : State} (link : Option Nat) (id chunk status : Nat) (hm : Sub 0x40000000000ca000000060004000029 m)
    (h : RegKeeps m r s) :
    RegKeeps m r (refuseUp link id chunk status s) := by
  unfold refuseUp
  exact answerUp_regKeeps _ _ _ _ _ _ _ (sub_of hm rfl) (countNack_regKeeps (sub_of hm rfl) (fabRec_regKeeps _ _ _ _ (sub_of hm rfl) h))

theorem chunkStored_regKeeps {m : Nat} {r s : State} (chunk : Nat) (hm : Sub 0x400003fff80ca000000060004000029 m) (h : RegKeeps m r s) :
    RegKeeps m r (chunkStored chunk s) := by
  unfold chunkStored
  split
  · exact h
  · extract_lets x9 x10
    have h11 : RegKeeps m r x10.2 := storeChunk_regKeeps _ _ _ (sub_of hm rfl) h
    clear_value x10
    refine RegKeeps.ite ?_ ?_
    · exact h
    · refine RegKeeps.ite ?_ ?_
      · exact secShow_regKeeps (sub_of hm rfl) (RegKeeps.of_keeps (republish_keeps _ (sub_refl _) (Keeps.refl _ _)) rfl
            (refuseUp_regKeeps _ _ _ _ (sub_of hm rfl) h11))
      · exact secShow_regKeeps (sub_of hm rfl) (RegKeeps.of_keeps (republish_keeps _ (sub_refl _) (Keeps.refl _ _)) rfl
            (parcelPump_regKeeps (sub_of hm rfl) (answerUp_regKeeps _ _ _ _ _ _ _ (sub_of hm rfl) h11)))

theorem headerOlder_regKeeps {m : Nat} {r s : State} (link : Option Nat) (id : Nat) (hm : Sub 0x40000000400ca000000060004000029 m)
    (h : RegKeeps m r s) :
    RegKeeps m r (headerOlder link id s) := by
  unfold headerOlder
  extract_lets x7
  have h8 : RegKeeps m r x7.2 := RegKeeps.of_keeps (free_keeps (sub_refl _) (Keeps.refl _ _)) rfl h
  clear_value x7
  exact refuseUp_regKeeps _ _ _ _ (sub_of hm rfl) (secRecLog_regKeeps _ _ _ _ (sub_of hm rfl) (secEvt_regKeeps _ (sub_of hm rfl) h8))

theorem headerWhole_regKeeps {m : Nat} {r s : State} (x : Xfer) (hm : Sub 0x40000300400ca000000060004000029 m) (h : RegKeeps m r s) :
    RegKeeps m r (headerWhole x s) := by
  unfold headerWhole
  extract_lets x6 x7 x8
  have h9 : RegKeeps m r x8 := xferAccept_regKeeps _ _ (sub_of hm rfl) h
  clear_value x8
  refine RegKeeps.ite ?_ ?_
  · exact refuseUp_regKeeps _ _ _ _ (sub_of hm rfl) (xferRefuse_regKeeps _ _ (sub_of hm rfl) (RegKeeps.of_keeps
        (setXfer_keeps _ (sub_refl _) (Keeps.refl _ _)) rfl h))
  · exact parcelPump_regKeeps (sub_of hm rfl) (answerUp_regKeeps _ _ _ _ _ _ _ (sub_of hm rfl) h9)

theorem parcelAbandon_regKeeps {m : Nat} {r s : State} (chunk nacks : Nat) (hm : Sub 0x30040000000000000004008001 m) (h : RegKeeps m r s) :
    RegKeeps m r (parcelAbandon chunk nacks s) := by
  unfold parcelAbandon
  exact xferEnd_regKeeps _ (sub_of hm rfl) (fabRec_regKeeps _ _ _ _ (sub_of hm rfl) (orReg_regKeeps _ (hm 15 rfl) (own_mem rfl) h))

theorem nackMissing_regKeeps {m : Nat} {r s : State} (x : Xfer) (chunk : Nat) (hm : Sub 0x40000300400ca000000060004008029 m) (h : RegKeeps m r s) :
    RegKeeps m r (nackMissing x chunk s) := by
  unfold nackMissing
  extract_lets x7
  split
  · exact h
  · extract_lets x12
    have h13 : RegKeeps m r x12 := countNack_regKeeps (sub_of hm rfl) (answerUp_regKeeps _ _ _ _ _ _ _ (sub_of hm rfl) (RegKeeps.of_keeps
        (setXfer_keeps _ (sub_refl _) (Keeps.refl _ _)) rfl h))
    clear_value x12
    exact RegKeeps.ite (parcelAbandon_regKeeps _ _ (sub_of hm rfl) h13) h13

theorem parcelData_regKeeps {m : Nat} {r s : State} (x : Xfer) (chunk index : Nat) (data : List Byte) (hm : Sub 0x40000300400ca000000060004008029 m)
    (h : RegKeeps m r s) :
    RegKeeps m r (parcelData x chunk index data s) := by
  unfold parcelData
  extract_lets x9 x10 x11 x12 x13
  refine RegKeeps.ite ?_ ?_
  · exact h
  · refine RegKeeps.ite ?_ ?_
    · refine RegKeeps.ite ?_ ?_
      · exact headerWhole_regKeeps _ (sub_of hm rfl) h
      · exact RegKeeps.of_keeps (setXfer_keeps _ (sub_refl _) (Keeps.refl _ _)) rfl h
    · refine RegKeeps.ite ?_ ?_
      · exact nackMissing_regKeeps _ _ (sub_of hm rfl) (RegKeeps.of_keeps (setXfer_keeps _ (sub_refl _) (Keeps.refl _ _)) rfl h)
      · exact RegKeeps.of_keeps (setXfer_keeps _ (sub_refl _) (Keeps.refl _ _)) rfl h

theorem parcel_regKeeps {m : Nat} {r s : State} (src : Option Nat) (ws : List Word) (hm : Sub 0x400003fff80ca000000060004008029 m)
    (h : RegKeeps m r s) :
    RegKeeps m r (parcel src ws s) := by
  unfold parcel
  extract_lets x7 x8 x9 x10 x11
  refine RegKeeps.ite ?_ ?_
  · exact h
  · refine secShow_regKeeps (sub_of hm rfl) ?_
    refine RegKeeps.of_keeps (republish_keeps _ (sub_refl _) (Keeps.refl _ _)) rfl ?_
    split
    · exact RegKeeps.ite (parcelData_regKeeps _ _ _ _ (sub_of hm rfl) h) h
    · refine RegKeeps.ite ?_ ?_
      · refine RegKeeps.ite ?_ ?_
        · exact RegKeeps.ite (answerUp_regKeeps _ _ _ _ _ _ _ (sub_of hm rfl) h) h
        · exact parcelData_regKeeps _ _ _ _ (sub_of hm rfl) h
      · refine RegKeeps.ite ?_ ?_
        · exact h
        · refine RegKeeps.ite ?_ ?_
          · exact parcelData_regKeeps _ _ _ _ (sub_of hm rfl) (xferEnd_regKeeps _ (sub_of hm rfl) h)
          · exact RegKeeps.ite (headerOlder_regKeeps _ _ (sub_of hm rfl) h) h

theorem parcelAck_regKeeps {m : Nat} {r s : State} (l id chunk : Nat) (hm : Sub 0x400003fff80ca000000060004000029 m) (h : RegKeeps m r s) :
    RegKeeps m r (parcelAck l id chunk s) := by
  unfold parcelAck
  split
  · exact h
  · extract_lets x11
    refine RegKeeps.ite ?_ ?_
    · exact h
    · exact secShow_regKeeps (sub_of hm rfl) (RegKeeps.of_keeps (republish_keeps _ (sub_refl _) (Keeps.refl _ _)) rfl
          (parcelPump_regKeeps (sub_of hm rfl) (RegKeeps.of_keeps (setXfer_keeps _ (sub_refl _) (Keeps.refl _ _)) rfl h)))

theorem parcelGap_regKeeps {m : Nat} {r s : State} (chunk : Nat) (hm : Sub 0x400003fff80ca000000060004008029 m) (h : RegKeeps m r s) :
    RegKeeps m r (parcelGap chunk s) := by
  unfold parcelGap
  split
  · exact h
  · refine RegKeeps.ite ?_ ?_
    · exact h
    · exact secShow_regKeeps (sub_of hm rfl) (RegKeeps.of_keeps (republish_keeps _ (sub_refl _) (Keeps.refl _ _)) rfl
          (nackMissing_regKeeps _ _ (sub_of hm rfl) h))

theorem parcelNack_regKeeps {m : Nat} {r s : State} (l id : Nat) (chunk status : Nat) (first count : Nat)
    (hm : Sub 0x400003fff80ca000000060004008029 m) (h : RegKeeps m r s) :
    RegKeeps m r (parcelNack l id chunk status first count s) := by
  unfold parcelNack
  extract_lets x11 x12 x13
  have h14 : RegKeeps m r x11 := countNack_regKeeps (sub_of hm rfl) h
  clear_value x11
  split
  · exact h
  · extract_lets x18 x19 x20 x21
    have h22 : RegKeeps m r x19 := RegKeeps.of_keeps (setXfer_keeps _ (sub_refl _) (Keeps.refl _ _)) rfl h14
    clear_value x19
    have h23 : RegKeeps m r x21 := RegKeeps.of_keeps (setXfer_keeps _ (sub_refl _) (Keeps.refl _ _)) rfl (RegKeeps.congr h14 rfl)
    clear_value x21
    refine RegKeeps.ite ?_ ?_
    · exact h
    · refine RegKeeps.ite ?_ ?_
      · refine RegKeeps.of_keeps (republish_keeps _ (sub_refl _) (Keeps.refl _ _)) rfl ?_
        refine RegKeeps.ite ?_ ?_
        · exact parcelAbandon_regKeeps _ _ (sub_of hm rfl) h22
        · exact pushDue_regKeeps _ _ (sub_of hm rfl) (RegKeeps.of_keeps (queueRun_keeps _ _ _ _ (sub_refl _) (Keeps.refl _ _)) rfl h22)
      · exact secShow_regKeeps (sub_of hm rfl) (RegKeeps.of_keeps (republish_keeps _ (sub_refl _) (Keeps.refl _ _)) rfl
            (parcelPump_regKeeps (sub_of hm rfl) h23))

theorem transferTimeout_regKeeps {m : Nat} {r s : State} (hm : Sub 0x3fff8000000000000004000000 m) (h : RegKeeps m r s) :
    RegKeeps m r (transferTimeout s) := by
  unfold transferTimeout
  split
  · exact h
  · exact secShow_regKeeps (sub_of hm rfl) (RegKeeps.of_keeps (republish_keeps _ (sub_refl _) (Keeps.refl _ _)) rfl
        (xferEnd_regKeeps _ (sub_of hm rfl) h))

theorem execChunkStored_regKeeps {m : Nat} {r s : State} (chunk : BitVec 16) (hm : Sub 0x400003fff80ca000000060004000029 m) (h : RegKeeps m r s) :
    RegKeepsO m r (execChunkStored chunk s) := by
  unfold execChunkStored
  refine RegKeepsO.next ?_
  exact RegKeeps.ite h (chunkStored_regKeeps _ (sub_of hm rfl) h)

theorem execParcel_regKeeps {m : Nat} {r s : State} (src : Option (Fin 8)) (ws : List Word) (hm : Sub 0x400003fff80ca000000060004008029 m)
    (h : RegKeeps m r s) :
    RegKeepsO m r (execParcel src ws s) := by
  unfold execParcel
  refine RegKeepsO.guarded ?_
  exact RegKeeps.ite h (parcel_regKeeps _ _ (sub_of hm rfl) h)

theorem execParcelAck_regKeeps {m : Nat} {r s : State} (l : Fin 8) (id : Word) (chunk : BitVec 16) (status : BitVec 8)
    (hm : Sub 0x400003fff80ca000000060004000029 m) (h : RegKeeps m r s) :
    RegKeepsO m r (execParcelAck l id chunk status s) := by
  unfold execParcelAck
  refine RegKeepsO.next ?_
  exact RegKeeps.ite h (RegKeeps.ite (parcelAck_regKeeps _ _ _ (sub_of hm rfl) h) h)

theorem execParcelGapTimeout_regKeeps {m : Nat} {r s : State} (chunk : BitVec 16) (hm : Sub 0x400003fff80ca000000060004008029 m)
    (h : RegKeeps m r s) :
    RegKeepsO m r (execParcelGapTimeout chunk s) := by
  unfold execParcelGapTimeout
  refine RegKeepsO.next ?_
  exact RegKeeps.ite h (parcelGap_regKeeps _ (sub_of hm rfl) h)

theorem execParcelNack_regKeeps {m : Nat} {r s : State} (l : Fin 8) (id : Word) (chunk : BitVec 16) (status : BitVec 8) (first : BitVec 16)
    (count : BitVec 16) (hm : Sub 0x400003fff80ca000000060004008029 m) (h : RegKeeps m r s) :
    RegKeepsO m r (execParcelNack l id chunk status first count s) := by
  unfold execParcelNack
  refine RegKeepsO.next ?_
  exact RegKeeps.ite h (parcelNack_regKeeps _ _ _ _ _ _ (sub_of hm rfl) h)

theorem execTransferTimeout_regKeeps {m : Nat} {r s : State} (hm : Sub 0x3fff8000000000000004000000 m) (h : RegKeeps m r s) :
    RegKeepsO m r (execTransferTimeout s) := by
  unfold execTransferTimeout
  refine RegKeepsO.next ?_
  exact RegKeeps.ite h (transferTimeout_regKeeps (sub_of hm rfl) h)

end Sys2Proof.Machine
end

section
/-! PROOFS. Registers kept by the hamper and the clock -/

namespace Sys2Proof.Machine

theorem statEdge_regKeeps {m : Nat} {r s : State} (b evt : Nat) (v : Bool) (rec : State → State) (hm : Sub 0x600000000000000000 m)
    (h : RegKeeps m r s) (hrec : ∀ a0, RegKeeps m r a0 → RegKeeps m r (rec a0)) :
    RegKeeps m r (statEdge b evt v rec s) := by
  unfold statEdge
  extract_lets x10
  have h11 : RegKeeps m r x10 := setRb_regKeeps _ _ (hm 70 rfl) (own_mem rfl) h
  clear_value x10
  exact RegKeeps.ite (hrec _ (orReg_regKeeps _ (hm 69 rfl) (own_mem rfl) h11)) h11

theorem pwrRec_regKeeps {m : Nat} {r s : State} (code sev : Nat) (d : List Word) (hm : Sub 0x1 m) (h : RegKeeps m r s) :
    RegKeeps m r (pwrRec s code sev d) := by
  unfold pwrRec
  exact logOnce_regKeeps _ _ _ _ _ (sub_of hm rfl) h

theorem holdupEval_regKeeps {m : Nat} {r s : State} (hm : Sub 0x780000000000000001 m) (h : RegKeeps m r s) : RegKeeps m r (holdupEval s) := by
  unfold holdupEval
  extract_lets x5 x6 x7 x8 x9
  have h10 : RegKeeps m r x7 := setReg_regKeeps _ (hm 67 rfl) (own_mem rfl) (setReg_regKeeps _ (hm 68 rfl) (own_mem rfl) h)
  clear_value x7
  have h11 : RegKeeps m r x9 := by
    refine statEdge_regKeeps _ _ _ _ (sub_of hm rfl) ?_ ?_
    · exact h10
    · intro q11 q12
      exact pwrRec_regKeeps _ _ _ (sub_of hm rfl) q12
  clear_value x9
  refine statEdge_regKeeps _ _ _ _ (sub_of hm rfl) ?_ ?_
  · exact h11
  · intro q12 q13
    exact pwrRec_regKeeps _ _ _ (sub_of hm rfl) q13

theorem bankWorn_regKeeps {m : Nat} {r s : State} (c : Nat) (hm : Sub 0x600000000000000001 m) (h : RegKeeps m r s) :
    RegKeeps m r (bankWorn c s) := by
  unfold bankWorn
  refine RegKeeps.ite ?_ ?_
  · refine statEdge_regKeeps _ _ _ _ (sub_of hm rfl) ?_ ?_
    · exact h
    · intro q6 q7
      exact pwrRec_regKeeps _ _ _ (sub_of hm rfl) q7
  · exact h

theorem beginCheck_regKeeps {m : Nat} {r s : State} (v1 : Nat) (startKind : Bool) (hm : Sub 0x400000000000000000 m) (h : RegKeeps m r s) :
    RegKeeps m r (beginCheck v1 startKind s) := by
  unfold beginCheck
  extract_lets x7 x8
  have h9 : RegKeeps m r x7 := setRb_regKeeps _ _ (hm 70 rfl) (own_mem rfl) (setRb_regKeeps _ _ (hm 70 rfl) (own_mem rfl) h)
  clear_value x7
  exact RegKeeps.congr h9 rfl

theorem checkAbort_regKeeps {m : Nat} {r s : State} (vin : Word) (hm : Sub 0x608000000000000001 m) (h : RegKeeps m r s) :
    RegKeeps m r (checkAbort s vin) := by
  unfold checkAbort
  extract_lets x6 x7
  have h8 : RegKeeps m r x6 := orReg_regKeeps _ (hm 69 rfl) (own_mem rfl) (setRf_regKeeps _ _ _ (hm 63 rfl) (own_mem rfl) (setRb_regKeeps _ _
      (hm 70 rfl) (own_mem rfl) h))
  clear_value x6
  exact RegKeeps.ite (pwrRec_regKeeps _ _ _ (sub_of hm rfl) (RegKeeps.congr h8 rfl)) h

theorem writeCFirst_regKeeps {m : Nat} {r s : State} (c : Nat) (hm : Sub 0x4000000000000000 m) (h : RegKeeps m r s) :
    RegKeeps m r (writeCFirst c s) := by
  unfold writeCFirst
  refine RegKeeps.ite ?_ ?_
  · exact setRf_regKeeps _ _ _ (hm 62 rfl) (own_mem rfl) h
  · exact setRf_regKeeps _ _ _ (hm 62 rfl) (own_mem rfl) (RegKeeps.congr h rfl)

theorem checkComplete_regKeeps {m : Nat} {r s : State} (v2 : Nat) (hm : Sub 0x7cc000000000000001 m) (h : RegKeeps m r s) :
    RegKeeps m r (checkComplete v2 s) := by
  unfold checkComplete
  extract_lets x6 x7 x8 x9 x10 x11 x12 x13 x14 x15 x16 x17 x18 x19
  have h20 : RegKeeps m r x9 := setRf_regKeeps _ _ _ (hm 62 rfl) (own_mem rfl) (setRb_regKeeps _ _ (hm 70 rfl) (own_mem rfl) (setRb_regKeeps _ _
      (hm 70 rfl) (own_mem rfl) h))
  clear_value x9
  have h21 : RegKeeps m r x10 := setRf_regKeeps _ _ _ (hm 63 rfl) (own_mem rfl) (setRf_regKeeps _ _ _ (hm 63 rfl) (own_mem rfl) h20)
  clear_value x10
  have h22 : RegKeeps m r x12 := RegKeeps.congr h21 rfl
  clear_value x12
  have h23 : RegKeeps m r x15 := RegKeeps.congr h22 rfl
  clear_value x15
  have h24 : RegKeeps m r x16 := setReg_regKeeps _ (hm 66 rfl) (own_mem rfl) (setRf_regKeeps _ _ _ (hm 63 rfl) (own_mem rfl) (setRb_regKeeps _ _
      (hm 70 rfl) (own_mem rfl) h23))
  clear_value x16
  have h25 : RegKeeps m r x17 := RegKeeps.congr h22 rfl
  clear_value x17
  have h26 : RegKeeps m r x18 := orReg_regKeeps _ (hm 69 rfl) (own_mem rfl) (setRf_regKeeps _ _ _ (hm 63 rfl) (own_mem rfl) (setRb_regKeeps _ _
      (hm 70 rfl) (own_mem rfl) h25))
  clear_value x18
  have h27 : RegKeeps m r x19 := pwrRec_regKeeps _ _ _ (sub_of hm rfl) h26
  clear_value x19
  refine RegKeeps.ite ?_ ?_
  · exact h
  · refine RegKeeps.ite ?_ ?_
    · exact bankWorn_regKeeps _ (sub_of hm rfl) (holdupEval_regKeeps (sub_of hm rfl) (writeCFirst_regKeeps _ (sub_of hm rfl) h24))
    · exact RegKeeps.ite h27 (bankWorn_regKeeps _ (sub_of hm rfl) h27)

theorem dailyCheck_regKeeps {m : Nat} {r s : State} (v1 : Nat) (hm : Sub 0x400000000000000000 m) (h : RegKeeps m r s) :
    RegKeeps m r (dailyCheck v1 s) := by
  unfold dailyCheck
  extract_lets x6
  exact RegKeeps.ite h (RegKeeps.ite (RegKeeps.congr h rfl) (beginCheck_regKeeps _ _ (sub_of hm rfl) h))

theorem eavail_regKeeps {m : Nat} {r s : State} (vbank : Nat) (hm : Sub 0x820000000000000000 m) (h : RegKeeps m r s) :
    RegKeeps m r (eavail vbank s) := by
  unfold eavail
  exact setReg_regKeeps _ (hm 65 rfl) (own_mem rfl) (setReg_regKeeps _ (hm 71 rfl) (own_mem rfl) h)

theorem endDip_regKeeps {m : Nat} {r s : State} (low : BitVec 16) (us : BitVec 32) (hm : Sub 0x210000000000000001 m) (h : RegKeeps m r s) :
    RegKeeps m r (endDip low us s) := by
  unfold endDip
  extract_lets x7 x8 x9
  have h10 : RegKeeps m r x7 := orReg_regKeeps _ (hm 69 rfl) (own_mem rfl) (satRf_regKeeps _ _ _ (hm 64 rfl) (own_mem rfl) h)
  clear_value x7
  have h11 : RegKeeps m r x9 := RegKeeps.congr h10 rfl
  clear_value x9
  exact RegKeeps.ite (pwrRec_regKeeps _ _ _ (sub_of hm rfl) h11) h

theorem inputBelowPfd_regKeeps {m : Nat} {r s : State} (vin : BitVec 16) (hm : Sub 0x1608000000000000001 m) (h : RegKeeps m r s) :
    RegKeeps m r (inputBelowPfd vin s) := by
  unfold inputBelowPfd
  extract_lets x6 x7 x8
  have h9 : RegKeeps m r x6 := checkAbort_regKeeps _ (sub_of hm rfl) (setReg_regKeeps _ (hm 72 rfl) (own_mem rfl) h)
  clear_value x6
  exact RegKeeps.congr h9 rfl

theorem inputRise_regKeeps {m : Nat} {r s : State} (vin : BitVec 16) (hm : Sub 0x1400000000000000000 m) (h : RegKeeps m r s) :
    RegKeeps m r (inputRise vin s) := by
  unfold inputRise
  extract_lets x6 x7 x8 x9 x10
  have h11 : RegKeeps m r x6 := setReg_regKeeps _ (hm 72 rfl) (own_mem rfl) h
  clear_value x6
  have h12 : RegKeeps m r x8 := RegKeeps.congr h11 rfl
  clear_value x8
  have h13 : RegKeeps m r x9 := RegKeeps.ite h12 (setRb_regKeeps _ _ (hm 70 rfl) (own_mem rfl) h12)
  clear_value x9
  exact RegKeeps.congr h13 rfl

theorem startCheck_regKeeps {m : Nat} {r s : State} (v1 : Nat) (hm : Sub 0x400000000000000000 m) (h : RegKeeps m r s) :
    RegKeeps m r (startCheck v1 s) := by
  unfold startCheck
  exact RegKeeps.ite (beginCheck_regKeeps _ _ (sub_of hm rfl) h) h

theorem vinRange_regKeeps {m : Nat} {r s : State} (vin : BitVec 16) (hm : Sub 0x1600000000000000001 m) (h : RegKeeps m r s) :
    RegKeeps m r (vinRange vin s) := by
  unfold vinRange
  extract_lets x6 x7 x8 x9 x10 x11
  have h12 : RegKeeps m r x9 := setReg_regKeeps _ (hm 72 rfl) (own_mem rfl) (RegKeeps.congr h rfl)
  clear_value x9
  have h13 : RegKeeps m r x10 := setRb_regKeeps _ _ (hm 70 rfl) (own_mem rfl) (setRb_regKeeps _ _ (hm 70 rfl) (own_mem rfl) h12)
  clear_value x10
  have h14 : RegKeeps m r x11 := RegKeeps.ite (logOnce_regKeeps _ _ _ _ _ (sub_of hm rfl) (orReg_regKeeps _ (hm 69 rfl) (own_mem rfl) h13)) h13
  clear_value x11
  exact RegKeeps.ite (logOnce_regKeeps _ _ _ _ _ (sub_of hm rfl) (orReg_regKeeps _ (hm 69 rfl) (own_mem rfl) h14)) h14

theorem execCheckComplete_regKeeps {m : Nat} {r s : State} (v2 : BitVec 20) (hm : Sub 0x7cc000000000000001 m) (h : RegKeeps m r s) :
    RegKeepsO m r (execCheckComplete v2 s) := by
  unfold execCheckComplete
  exact RegKeepsO.next (checkComplete_regKeeps _ (sub_of hm rfl) h)

theorem execDailyCheck_regKeeps {m : Nat} {r s : State} (v1 : BitVec 20) (hm : Sub 0x400000000000000000 m) (h : RegKeeps m r s) :
    RegKeepsO m r (execDailyCheck v1 s) := by
  unfold execDailyCheck
  exact RegKeepsO.next (dailyCheck_regKeeps _ (sub_of hm rfl) h)

theorem execDip_regKeeps {m : Nat} {r s : State} (low : BitVec 16) (us : BitVec 32) (hm : Sub 0x210000000000000001 m) (h : RegKeeps m r s) :
    RegKeepsO m r (execDip low us s) := by
  unfold execDip
  exact RegKeepsO.next (endDip_regKeeps _ _ (sub_of hm rfl) h)

theorem execEavailUpdate_regKeeps {m : Nat} {r s : State} (vbank : BitVec 16) (hm : Sub 0x820000000000000000 m) (h : RegKeeps m r s) :
    RegKeepsO m r (execEavailUpdate vbank s) := by
  unfold execEavailUpdate
  exact RegKeepsO.next (eavail_regKeeps _ (sub_of hm rfl) h)

theorem execInputBelowPfd_regKeeps {m : Nat} {r s : State} (vin : BitVec 16) (hm : Sub 0x1608000000000000001 m) (h : RegKeeps m r s) :
    RegKeepsO m r (execInputBelowPfd vin s) := by
  unfold execInputBelowPfd
  exact RegKeepsO.next (inputBelowPfd_regKeeps _ (sub_of hm rfl) h)

theorem execInputRise_regKeeps {m : Nat} {r s : State} (vin : BitVec 16) (hm : Sub 0x1400000000000000000 m) (h : RegKeeps m r s) :
    RegKeepsO m r (execInputRise vin s) := by
  unfold execInputRise
  exact RegKeepsO.next (inputRise_regKeeps _ (sub_of hm rfl) h)

theorem execStartCheck_regKeeps {m : Nat} {r s : State} (v1 : BitVec 20) (hm : Sub 0x400000000000000000 m) (h : RegKeeps m r s) :
    RegKeepsO m r (execStartCheck v1 s) := by
  unfold execStartCheck
  exact RegKeepsO.next (startCheck_regKeeps _ (sub_of hm rfl) h)

theorem execVInOutsideOperatingRange_regKeeps {m : Nat} {r s : State} (vin : BitVec 16) (hm : Sub 0x1600000000000000001 m) (h : RegKeeps m r s) :
    RegKeepsO m r (execVInOutsideOperatingRange vin s) := by
  unfold execVInOutsideOperatingRange
  exact RegKeepsO.next (vinRange_regKeeps _ (sub_of hm rfl) h)

theorem rtcShow_regKeeps {m : Nat} {r s : State} (hm : Sub 0x7400000000000000000000 m) (h : RegKeeps m r s) : RegKeeps m r (rtcShow s) := by
  unfold rtcShow
  extract_lets x5 x6 x7 x8
  have h9 : RegKeeps m r x8 := by
    subst x8
    refine RegKeeps.foldl _ _ (fun s8 a8 m8 h8 => ?_) _ ?_
    · exact setRb_regKeeps _ _ (hm 82 rfl) (regs1_mem (List.mem_range.mp m8)) h8
    · exact h
  clear_value x8
  refine RegKeeps.of_keeps (republish_keeps _ (sub_refl _) (Keeps.refl _ _)) rfl ?_
  exact publish_regKeeps_of_addresses (M := 0x7000000000000000000000) (l := [Reg.rtcStat, Reg.rtcSlew, Reg.rtcVbak]) (sub_of hm rfl) rfl
      (by decide +kernel) h9

theorem rtcCommitted_regKeeps {m : Nat} {r s : State} (hm : Sub 0x7400000000000000000000 m) (h : RegKeeps m r s) :
    RegKeeps m r (rtcCommitted s) := by
  unfold rtcCommitted
  exact rtcShow_regKeeps (sub_of hm rfl) (RegKeeps.of_keeps (rtcChg_keeps _ (sub_refl _) (Keeps.refl _ _)) rfl (RegKeeps.of_keeps
      (rtcTrim_keeps _ (sub_refl _) (Keeps.refl _ _)) rfl h))

theorem rtcRec_regKeeps {m : Nat} {r s : State} (code sev subject : Nat) (d : List Word) (hm : Sub 0x1 m) (h : RegKeeps m r s) :
    RegKeeps m r (rtcRec s code sev subject d) := by
  unfold rtcRec
  exact logOnce_regKeeps _ _ _ _ _ (sub_of hm rfl) h

theorem rtcPhase0_regKeeps {m : Nat} {r s : State} (hm : Sub 0x2800000000000000000001 m) (h : RegKeeps m r s) : RegKeeps m r (rtcPhase0 s) := by
  unfold rtcPhase0
  extract_lets x5
  have h6 : RegKeeps m r x5 := setRb_regKeeps _ _ (hm 85 rfl) (own_mem rfl) h
  clear_value x5
  exact RegKeeps.ite (rtcRec_regKeeps _ _ _ _ (sub_of hm rfl) (orReg_regKeeps _ (hm 83 rfl) (own_mem rfl) h6)) h6

end Sys2Proof.Machine
end

section
/-! PROOFS. Registers kept by the pair and the signal box -/

namespace Sys2Proof.Machine

theorem agePath_regKeeps {m : Nat} {r s : State} (hi lo : Nat) (hm : Sub 0x8000000000000 m) (h : RegKeeps m r s) :
    RegKeeps m r (agePath hi lo s) := by
  unfold agePath
  exact satRf_regKeeps _ _ _ (hm 51 rfl) (own_mem rfl) h

theorem aoutSend_regKeeps {m : Nat} {r s : State} (p : Nat) (w : Word) (hm : Sub 0x4000000000000000000000000000003 m) (h : RegKeeps m r s) :
    RegKeeps m r (aoutSend p w s) := by
  unfold aoutSend
  exact sendOut_regKeeps _ _ (sub_of hm rfl) (noteAout_regKeeps _ _ (sub_of hm rfl) h)

theorem setLease_regKeeps {m : Nat} {r s : State} (n : Nat) (hm : Sub 0x80000000000000 m) (h : RegKeeps m r s) : RegKeeps m r (setLease n s) := by
  unfold setLease
  exact setReg_regKeeps _ (hm 55 rfl) (own_mem rfl) h

theorem leaseFrom_regKeeps {m : Nat} {r s : State} (us n : Nat) (hm : Sub 0x80000000000000 m) (h : RegKeeps m r s) :
    RegKeeps m r (leaseFrom us n s) := by
  unfold leaseFrom
  extract_lets x7 x8
  have h9 : RegKeeps m r x7 := setLease_regKeeps _ (sub_of hm rfl) h
  clear_value x7
  exact RegKeeps.congr h9 rfl

theorem sbShow_regKeeps {m : Nat} {r s : State} (k : Nat) (hm : Sub 0x100000000000000 m) (hk : k < 16) (h : RegKeeps m r s) :
    RegKeeps m r (sbShow s k) := by
  unfold sbShow
  extract_lets x6
  exact setReg_regKeeps _ (hm 56 rfl) (regs1_mem hk) h

theorem parShow_regKeeps {m : Nat} {r s : State} (before : State) (hm : Sub 0x33400000000005c1 m) (h : RegKeeps m r s) :
    RegKeeps m r (parShow before s) := by
  unfold parShow
  extract_lets x6 x7
  have h8 : RegKeeps m r x6 := setRf_regKeeps _ _ _ (hm 54 rfl) (own_mem rfl) (setRb_regKeeps _ _ (hm 57 rfl) (own_mem rfl) h)
  clear_value x6
  have h9 : RegKeeps m r x7 := RegKeeps.ite (testCut_regKeeps _ (sub_of hm rfl) h8) h8
  clear_value x7
  refine RegKeeps.of_keeps (republish_keeps _ (sub_refl _) (Keeps.refl _ _)) rfl ?_
  refine gateEdge_regKeeps _ (sub_of hm rfl) ?_
  refine RegKeeps.foldl _ _ (fun s10 a10 m10 h10 => ?_) _ ?_
  · exact sbShow_regKeeps _ (sub_of hm rfl) (List.mem_range.mp m10) h10
  · exact h9

theorem parStep_regKeeps {m : Nat} {r s : State} (f : State → State) (hm : Sub 0x33400000000005c1 m) (h : RegKeeps m r s)
    (hf : ∀ a0, RegKeeps m r a0 → RegKeeps m r (f a0)) :
    RegKeeps m r (parStep f s) := by
  unfold parStep
  exact parShow_regKeeps _ (sub_of hm rfl) (hf _ h)

theorem boxAnswered_regKeeps {m : Nat} {r s : State} (hm : Sub 0x200000000000000 m) (h : RegKeeps m r s) : RegKeeps m r (boxAnswered s) := by
  unfold boxAnswered
  extract_lets x5 x6
  have h7 : RegKeeps m r x5 := setRb_regKeeps _ _ (hm 57 rfl) (own_mem rfl) h
  clear_value x5
  exact RegKeeps.congr h7 rfl

theorem leaseWrite_regKeeps {m : Nat} {r s : State} (w : Word) (hm : Sub 0x80000000000000 m) (h : RegKeeps m r s) :
    RegKeeps m r (leaseWrite w s) := by
  unfold leaseWrite
  extract_lets x6
  have h7 : RegKeeps m r x6.2 := RegKeeps.of_keeps (free_keeps (sub_refl _) (Keeps.refl _ _)) rfl h
  clear_value x6
  exact leaseFrom_regKeeps _ _ (sub_of hm rfl) h7

theorem hbContent_regKeeps {m : Nat} {r s : State} (hm : Sub 0x20000000000000 m) (h : RegKeeps m r s) : RegKeeps m r (hbContent s) := by
  unfold hbContent
  extract_lets x5
  exact setReg_regKeeps _ (hm 53 rfl) (regs1_mem (by decide)) (setReg_regKeeps _ (hm 53 rfl) (regs1_mem (by decide)) (setReg_regKeeps _ (hm 53 rfl)
      (regs1_mem (by decide)) (setReg_regKeeps _ (hm 53 rfl) (regs1_mem (by decide)) (setReg_regKeeps _ (hm 53 rfl) (regs1_mem (by decide)) h))))

theorem setParState_regKeeps {m : Nat} {r s : State} (n : Nat) (hm : Sub 0x200000000000001 m) (h : RegKeeps m r s) :
    RegKeeps m r (setParState n s) := by
  unfold setParState
  exact RegKeeps.ite h (append_regKeeps _ _ _ _ (sub_of hm rfl) (setRf_regKeeps _ _ _ (hm 57 rfl) (own_mem rfl) h))

theorem parRelease_regKeeps {m : Nat} {r s : State} (hm : Sub 0x33600000000005c1 m) (h : RegKeeps m r s) : RegKeeps m r (parRelease s) := by
  unfold parRelease
  extract_lets x5 x6
  have h7 : RegKeeps m r x6 := RegKeeps.congr h rfl
  clear_value x6
  refine parStep_regKeeps _ (sub_of hm rfl) ?_ ?_
  · exact h7
  · intro q8 q9
    exact RegKeeps.ite (hbContent_regKeeps (sub_of hm rfl) (setParState_regKeeps _ (sub_of hm rfl) q9)) q9

theorem parRec_regKeeps {m : Nat} {r s : State} (code sev subject : Nat) (d : List Word) (hm : Sub 0x1 m) (h : RegKeeps m r s) :
    RegKeeps m r (parRec s code sev subject d) := by
  unfold parRec
  exact logOnce_regKeeps _ _ _ _ _ (sub_of hm rfl) h

theorem enterActive_regKeeps {m : Nat} {r s : State} (hm : Sub 0x602000000000001 m) (h : RegKeeps m r s) : RegKeeps m r (enterActive s) := by
  unfold enterActive
  extract_lets x5
  exact parRec_regKeeps _ _ _ _ (sub_of hm rfl) (satRf_regKeeps _ _ _ (hm 58 rfl) (own_mem rfl) (orReg_regKeeps _ (hm 49 rfl) (own_mem rfl)
      (setParState_regKeeps _ (sub_of hm rfl) h)))

theorem enterSafe_regKeeps {m : Nat} {r s : State} (hm : Sub 0x40000400000ca00020606002aa8f029 m) (h : RegKeeps m r s) :
    RegKeeps m r (enterSafe s) := by
  unfold enterSafe
  extract_lets x5 x6 x7
  have h8 : RegKeeps m r x5 := setReg_regKeeps _ (hm 50 rfl) (own_mem rfl) h
  clear_value x5
  have h9 : RegKeeps m r x7 := RegKeeps.congr h8 rfl
  clear_value x7
  exact faultOwn_regKeeps _ _ _ (sub_of hm rfl) (parRec_regKeeps _ _ _ _ (sub_of hm rfl) (orReg_regKeeps _ (hm 49 rfl) (own_mem rfl)
      (setParState_regKeeps _ (sub_of hm rfl) h9)))

theorem pairCell_regKeeps {m : Nat} {r s : State} (dest : Nat) (payload : List Byte) (hm : Sub 0x40000400000ca00000006002aa8c029 m)
    (h : RegKeeps m r s) :
    RegKeeps m r (pairCell dest payload s) := by
  unfold pairCell
  extract_lets x7
  have h8 : RegKeeps m r x7.2 := RegKeeps.of_keeps (mkCell_keeps _ _ _ _ _ _ _ (sub_refl _) (Keeps.refl _ _)) rfl h
  clear_value x7
  exact routeCell_regKeeps _ _ (sub_of hm rfl) (by simp) h8

theorem fabricHeartbeat_regKeeps {m : Nat} {r s : State} (hm : Sub 0x40000400000ca00000006002aa8c029 m) (h : RegKeeps m r s) :
    RegKeeps m r (fabricHeartbeat s) := by
  unfold fabricHeartbeat
  extract_lets x5
  exact RegKeeps.ite h (pairCell_regKeeps _ _ (sub_of hm rfl) (RegKeeps.congr h rfl))

theorem gatedOut_regKeeps {m : Nat} {r s : State} (g : Nat) (w : Word) (hm : Sub 0x4000000000000003800000000000805 m) (hg : g < 6)
    (h : RegKeeps m r s) :
    RegKeeps m r (gatedOut g w s) := by
  unfold gatedOut
  extract_lets x7
  have h8 : RegKeeps m r x7.2 := gateWrite_regKeeps _ _ (sub_of hm rfl) hg h
  clear_value x7
  exact sendOut_regKeeps _ _ (sub_of hm rfl) h8

theorem grant_regKeeps {m : Nat} {r s : State} (req cycle : Nat) (fromBox : Bool) (hm : Sub 0x280000000000000 m) (h : RegKeeps m r s) :
    RegKeeps m r (grant req cycle fromBox s) := by
  unfold grant
  extract_lets x8 x9 x10
  have h11 : RegKeeps m r x8 := RegKeeps.ite (boxAnswered_regKeeps (sub_of hm rfl) h) h
  clear_value x8
  refine RegKeeps.ite ?_ ?_
  · exact h
  · split
    · extract_lets x15
      have h16 : RegKeeps m r x15 := setLease_regKeeps _ (sub_of hm rfl) h11
      clear_value x15
      exact RegKeeps.ite h11 (RegKeeps.congr h16 rfl)
    · exact h11

theorem hbBad_regKeeps {m : Nat} {r s : State} (onFabric : Bool) (hm : Sub 0x3000000000001 m) (h : RegKeeps m r s) :
    RegKeeps m r (hbBad onFabric s) := by
  unfold hbBad
  extract_lets x6
  have h7 : RegKeeps m r x6 := by
    refine orReg_regKeeps _ (hm 49 rfl) (own_mem rfl) ?_
    exact RegKeeps.ite (satRf_regKeeps _ _ _ (hm 48 rfl) (own_mem rfl) h) (satRf_regKeeps _ _ _ (hm 48 rfl) (own_mem rfl) h)
  clear_value x6
  exact parRec_regKeeps _ _ _ _ (sub_of hm rfl) h7

theorem ownGrant_regKeeps {m : Nat} {r s : State} (req : Nat) (hm : Sub 0x20000000000000 m) (h : RegKeeps m r s) : RegKeeps m r
    (ownGrant req s) := by
  unfold ownGrant
  extract_lets x6 x7
  have h8 : RegKeeps m r x6 := setRf_regKeeps _ _ _ (hm 53 rfl) (regs1_mem (by decide)) h
  clear_value x6
  exact RegKeeps.congr h8 rfl

theorem hbTake_regKeeps {m : Nat} {r s : State} (onFabric : Bool) (ws : List Word) (hm : Sub 0x2ba000000000001 m) (h : RegKeeps m r s) :
    RegKeeps m r (hbTake onFabric ws s) := by
  unfold hbTake
  extract_lets x7 x8 x9 x10 x11 x12 x13 x14 x15 x16 x17 x18 x19 x20
  have h21 : RegKeeps m r x12 := by
    refine RegKeeps.ite ?_ ?_
    · exact setRb_regKeeps _ _ (hm 57 rfl) (own_mem rfl) (setRf_regKeeps _ _ _ (hm 51 rfl) (own_mem rfl) h)
    · refine RegKeeps.foldl _ _ (fun s21 a21 m21 h21 => ?_) _ ?_
      · exact setReg_regKeeps _ (hm 52 rfl) (regs1_mem (List.mem_range.mp m21)) h21
      · exact setRb_regKeeps _ _ (hm 57 rfl) (own_mem rfl) (setRf_regKeeps _ _ _ (hm 51 rfl) (own_mem rfl) h)
  clear_value x12
  have h22 : RegKeeps m r x14 := setRb_regKeeps _ _ (hm 57 rfl) (own_mem rfl) h21
  clear_value x14
  have h23 : RegKeeps m r x16 := RegKeeps.congr h22 rfl
  clear_value x16
  have h24 : RegKeeps m r x18 := RegKeeps.ite (ownGrant_regKeeps _ (sub_of hm rfl) h23) h23
  clear_value x18
  have h25 : RegKeeps m r x19 := RegKeeps.ite (parRec_regKeeps _ _ _ _ (sub_of hm rfl) (orReg_regKeeps _ (hm 49 rfl) (own_mem rfl) h24)) h24
  clear_value x19
  have h26 : RegKeeps m r x20 := parRec_regKeeps _ _ _ _ (sub_of hm rfl) (orReg_regKeeps _ (hm 49 rfl) (own_mem rfl) h25)
  clear_value x20
  exact RegKeeps.ite (RegKeeps.ite (setParState_regKeeps _ (sub_of hm rfl) (setLease_regKeeps _ (sub_of hm rfl) h26)) h26) h25

theorem heartbeatSend_regKeeps {m : Nat} {r s : State} (hm : Sub 0x28000000000000 m) (h : RegKeeps m r s) : RegKeeps m r (heartbeatSend s) := by
  unfold heartbeatSend
  extract_lets x5 x6
  have h7 : RegKeeps m r x6 := RegKeeps.congr h rfl
  clear_value x6
  refine RegKeeps.ite ?_ ?_
  · exact h
  · exact agePath_regKeeps _ _ (sub_of hm rfl) (agePath_regKeeps _ _ (sub_of hm rfl) (addReg_regKeeps _ (hm 53 rfl) (regs1_mem (by decide)) h7))

theorem kindCell_regKeeps {m : Nat} {r s : State} (k : PairCell) (hm : Sub 0x40000400000ca00000006002aa8c029 m) (h : RegKeeps m r s) :
    RegKeeps m r (kindCell k s) := by
  unfold kindCell
  extract_lets x6 x7
  exact pairCell_regKeeps _ _ (sub_of hm rfl) (RegKeeps.congr h rfl)

theorem leaseRequest_regKeeps {m : Nat} {r s : State} (answered : Bool) (cycle : Nat) (hm : Sub 0x40000400000ca00022006002aa8c029 m)
    (h : RegKeeps m r s) :
    RegKeeps m r (leaseRequest answered cycle s) := by
  unfold leaseRequest
  extract_lets x7 x8 x9 x10
  have h11 : RegKeeps m r x9 := setRf_regKeeps _ _ _ (hm 53 rfl) (regs1_mem (by decide)) (RegKeeps.congr h rfl)
  clear_value x9
  have h12 : RegKeeps m r x10 := kindCell_regKeeps _ (sub_of hm rfl) h11
  clear_value x10
  exact RegKeeps.ite h (RegKeeps.ite (RegKeeps.ite (boxAnswered_regKeeps (sub_of hm rfl) h12) h12) h11)

theorem leaveSafe_regKeeps {m : Nat} {r s : State} (n : Nat) (hm : Sub 0x204000000000001 m) (h : RegKeeps m r s) : RegKeeps m r
    (leaveSafe n s) := by
  unfold leaveSafe
  exact setParState_regKeeps _ (sub_of hm rfl) (setReg_regKeeps _ (hm 50 rfl) (own_mem rfl) h)

theorem pairMove_regKeeps {m : Nat} {r s : State} (hm : Sub 0x40000400000ca00060606002aa8f029 m) (h : RegKeeps m r s) :
    RegKeeps m r (pairMove s) := by
  unfold pairMove
  extract_lets x5 x6
  split
  · refine RegKeeps.ite ?_ ?_
    · exact enterActive_regKeeps (sub_of hm rfl) h
    · exact RegKeeps.ite (setParState_regKeeps _ (sub_of hm rfl) h) (RegKeeps.ite (enterSafe_regKeeps (sub_of hm rfl) h) h)
  · refine RegKeeps.ite ?_ ?_
    · exact parRec_regKeeps _ _ _ _ (sub_of hm rfl) (satRf_regKeeps _ _ _ (hm 58 rfl) (own_mem rfl) (orReg_regKeeps _ (hm 49 rfl) (own_mem rfl)
          (setParState_regKeeps _ (sub_of hm rfl) h)))
    · exact h
  · exact RegKeeps.ite (setParState_regKeeps _ (sub_of hm rfl) h) h
  · exact RegKeeps.ite (leaveSafe_regKeeps _ (sub_of hm rfl) h) (RegKeeps.ite (leaveSafe_regKeeps _ (sub_of hm rfl) h) h)
  · exact h

theorem pairTurn_regKeeps {m : Nat} {r s : State} (hm : Sub 0x40000400000ca00060606002aa8f029 m) (h : RegKeeps m r s) :
    RegKeeps m r (pairTurn s) := by
  unfold pairTurn
  extract_lets x5 x6
  have h7 : RegKeeps m r x5 := pairMove_regKeeps (sub_of hm rfl) h
  clear_value x5
  exact RegKeeps.congr h7 rfl

theorem safeValues_regKeeps {m : Nat} {r s : State} (hm : Sub 0x4000000000000003800000000000807 m) (h : RegKeeps m r s) :
    RegKeeps m r (safeValues s) := by
  unfold safeValues
  extract_lets x5 x6
  have h7 : RegKeeps m r x5 := by
    subst x5
    refine RegKeeps.foldl _ _ (fun s6 a6 m6 h6 => ?_) _ ?_
    · exact RegKeeps.of_keeps (safeChannel_keeps _ (sub_refl _) (Keeps.refl _ _)) rfl h6
    · exact h
  clear_value x5
  have h8 : RegKeeps m r x6 := gatedOut_regKeeps _ _ (sub_of hm rfl) (by decide) (gatedOut_regKeeps _ _ (sub_of hm rfl) (by decide) h7)
  clear_value x6
  refine RegKeeps.foldl _ _ (fun s9 a9 m9 h9 => ?_) _ ?_
  · extract_lets x12 x13
    have h14 : RegKeeps m r x13 := by
      subst x13
      refine RegKeeps.foldl _ _ (fun s13 a13 m13 h13 => ?_) _ ?_
      · exact aoutSend_regKeeps _ _ (sub_of hm rfl) h13
      · exact h9
    clear_value x13
    exact gatedOut_regKeeps _ _ (sub_of hm rfl) (Nat.add_lt_add_left (List.mem_range.mp m9) 2) h14
  · exact h8

theorem pairRun_regKeeps {m : Nat} {r s : State} (hm : Sub 0x40000400000ca003f6606002aa8fdef m) (h : RegKeeps m r s) :
    RegKeeps m r (pairRun s) := by
  unfold pairRun
  extract_lets x5
  have h6 : RegKeeps m r x5 := by
    refine parStep_regKeeps _ (sub_of hm rfl) ?_ ?_
    · exact h
    · intro q6 q7
      exact pairTurn_regKeeps (sub_of hm rfl) q7
  clear_value x5
  refine RegKeeps.ite ?_ ?_
  · exact h
  · refine hbContent_regKeeps (sub_of hm rfl) ?_
    exact RegKeeps.ite (safeValues_regKeeps (sub_of hm rfl) h6) h6

theorem pathLost_regKeeps {m : Nat} {r s : State} (onFabric : Bool) (hm : Sub 0x40000400000ca00020206002aa8f029 m) (h : RegKeeps m r s) :
    RegKeeps m r (pathLost onFabric s) := by
  unfold pathLost
  extract_lets x6 x7 x8 x9 x10 x11
  have h12 : RegKeeps m r x7 := RegKeeps.congr h rfl
  clear_value x7
  have h13 : RegKeeps m r x8 := orReg_regKeeps _ (hm 49 rfl) (own_mem rfl) (setRb_regKeeps _ _ (hm 57 rfl) (own_mem rfl) h12)
  clear_value x8
  have h14 : RegKeeps m r x9 := parRec_regKeeps _ _ _ _ (sub_of hm rfl) h13
  clear_value x9
  refine RegKeeps.ite ?_ ?_
  · exact h
  · refine RegKeeps.ite ?_ ?_
    · exact faultOwn_regKeeps _ _ _ (sub_of hm rfl) (parRec_regKeeps _ _ _ _ (sub_of hm rfl) (orReg_regKeeps _ (hm 49 rfl) (own_mem rfl)
          (RegKeeps.congr h14 rfl)))
    · exact h14

theorem probe_regKeeps {m : Nat} {r s : State} (answered : Bool) (hm : Sub 0x40000400000ca00020006002aa8c029 m) (h : RegKeeps m r s) :
    RegKeeps m r (probe answered s) := by
  unfold probe
  extract_lets x6
  have h7 : RegKeeps m r x6 := kindCell_regKeeps _ (sub_of hm rfl) h
  clear_value x6
  exact RegKeeps.ite h (RegKeeps.ite (boxAnswered_regKeeps (sub_of hm rfl) h7) h7)

theorem sbGrant_regKeeps {m : Nat} {r s : State} (k x req : Nat) (hm : Sub 0x40000400000ca00000006002aa8c029 m) (h : RegKeeps m r s) :
    RegKeeps m r (sbGrant k x req s) := by
  unfold sbGrant
  extract_lets x8 x9
  have h10 : RegKeeps m r x9 := RegKeeps.ite (parRec_regKeeps _ _ _ _ (sub_of hm rfl) h) h
  clear_value x9
  exact kindCell_regKeeps _ (sub_of hm rfl) (RegKeeps.of_keeps (setSb_keeps _ _ (sub_refl _) (Keeps.refl _ _)) rfl h10)

theorem sbLost_regKeeps {m : Nat} {r s : State} (hm : Sub 0x202000000000001 m) (h : RegKeeps m r s) : RegKeeps m r (sbLost s) := by
  unfold sbLost
  refine RegKeeps.ite ?_ ?_
  · exact h
  · exact parRec_regKeeps _ _ _ _ (sub_of hm rfl) (orReg_regKeeps _ (hm 49 rfl) (own_mem rfl) (setRb_regKeeps _ _ (hm 57 rfl) (own_mem rfl) h))

theorem sbPending_regKeeps {m : Nat} {r s : State} (k : Nat) (hm : Sub 0x40000400000ca00000006002aa8c029 m) (h : RegKeeps m r s) :
    RegKeeps m r (sbPending s k) := by
  unfold sbPending
  extract_lets x6
  split
  · extract_lets x12 x13
    have h14 : RegKeeps m r x12 := RegKeeps.ite (sbGrant_regKeeps _ _ _ (sub_of hm rfl) h) h
    clear_value x12
    exact RegKeeps.ite (RegKeeps.of_keeps (setSb_keeps _ _ (sub_refl _) (Keeps.refl _ _)) rfl h14) h
  · exact h

theorem sbState_regKeeps {m : Nat} {r s : State} (k x : Nat) (valid : Bool) (hm : Sub 0x40000400000ca00000006002aa8c029 m) (h : RegKeeps m r s) :
    RegKeeps m r (sbState k x valid s) := by
  unfold sbState
  extract_lets x8
  exact kindCell_regKeeps _ (sub_of hm rfl) h

theorem signalBox_regKeeps {m : Nat} {r s : State} (k x : Nat) (isProbe : Bool) (req : Nat) (hm : Sub 0x40000400000ca00000006002aa8c029 m)
    (h : RegKeeps m r s) :
    RegKeeps m r (signalBox k x isProbe req s) := by
  unfold signalBox
  extract_lets x9
  refine RegKeeps.ite ?_ ?_
  · exact h
  · refine RegKeeps.ite ?_ ?_
    · exact sbState_regKeeps _ _ _ (sub_of hm rfl) h
    · refine RegKeeps.ite ?_ ?_
      · exact sbState_regKeeps _ _ _ (sub_of hm rfl) h
      · refine RegKeeps.ite ?_ ?_
        · exact sbGrant_regKeeps _ _ _ (sub_of hm rfl) h
        · exact sbState_regKeeps _ _ _ (sub_of hm rfl) (RegKeeps.of_keeps (setSb_keeps _ _ (sub_refl _) (Keeps.refl _ _)) rfl h)

theorem execFabricHeartbeat_regKeeps {m : Nat} {r s : State} (hm : Sub 0x40000400000ca00334006002aa8c5e9 m) (h : RegKeeps m r s) :
    RegKeepsO m r (execFabricHeartbeat s) := by
  unfold execFabricHeartbeat
  refine RegKeepsO.next ?_
  refine parStep_regKeeps _ (sub_of hm rfl) ?_ ?_
  · exact h
  · intro q5 q6
    exact fabricHeartbeat_regKeeps (sub_of hm rfl) q6

theorem execHeartbeatReceive_regKeeps {m : Nat} {r s : State} (overFabric : Bool) (ws : List Word) (hm : Sub 0x33fb0000000005c1 m)
    (h : RegKeeps m r s) :
    RegKeepsO m r (execHeartbeatReceive overFabric ws s) := by
  unfold execHeartbeatReceive
  refine RegKeepsO.next ?_
  refine RegKeeps.ite ?_ ?_
  · refine parStep_regKeeps _ (sub_of hm rfl) ?_ ?_
    · exact h
    · intro q7 q8
      exact RegKeeps.ite (hbTake_regKeeps _ _ (sub_of hm rfl) q8) (hbBad_regKeeps _ (sub_of hm rfl) q8)
  · exact h

theorem execHeartbeatSend_regKeeps {m : Nat} {r s : State} (hm : Sub 0x33680000000005c1 m) (h : RegKeeps m r s) :
    RegKeepsO m r (execHeartbeatSend s) := by
  unfold execHeartbeatSend
  refine RegKeepsO.next ?_
  refine parStep_regKeeps _ (sub_of hm rfl) ?_ ?_
  · exact h
  · intro q5 q6
    exact heartbeatSend_regKeeps (sub_of hm rfl) q6

theorem execLeaseExpiry_regKeeps {m : Nat} {r s : State} (hm : Sub 0x33c00000000005c1 m) (h : RegKeeps m r s) :
    RegKeepsO m r (execLeaseExpiry s) := by
  unfold execLeaseExpiry
  refine RegKeepsO.next ?_
  refine parStep_regKeeps _ (sub_of hm rfl) ?_ ?_
  · exact h
  · intro q5 q6
    exact setLease_regKeeps _ (sub_of hm rfl) q6

theorem execLeaseRequest_regKeeps {m : Nat} {r s : State} (answered : Bool) (cycle : BitVec 17) (hm : Sub 0x40000400000ca00336006002aa8c5e9 m)
    (h : RegKeeps m r s) :
    RegKeepsO m r (execLeaseRequest answered cycle s) := by
  unfold execLeaseRequest
  refine RegKeepsO.next ?_
  refine parStep_regKeeps _ (sub_of hm rfl) ?_ ?_
  · exact h
  · intro q7 q8
    exact leaseRequest_regKeeps _ _ (sub_of hm rfl) q8

theorem execPairStateChange_regKeeps {m : Nat} {r s : State} (hm : Sub 0x40000400000ca003f6606002aa8fdef m) (h : RegKeeps m r s) :
    RegKeepsO m r (execPairStateChange s) := by
  unfold execPairStateChange
  exact RegKeepsO.next (pairRun_regKeeps (sub_of hm rfl) h)

theorem execParGateWrite_regKeeps {m : Nat} {r s : State} (_m : Master) (w : Word) (hm : Sub 0x33440000000005c1 m) (h : RegKeeps m r s) :
    RegKeepsO m r (execParGateWrite _m w s) := by
  unfold execParGateWrite
  refine RegKeepsO.next ?_
  refine RegKeeps.ite ?_ ?_
  · exact h
  · refine parStep_regKeeps _ (sub_of hm rfl) ?_ ?_
    · exact h
    · intro q7 q8
      exact setReg_regKeeps _ (hm 50 rfl) (own_mem rfl) q8

theorem execParGrant_regKeeps {m : Nat} {r s : State} (req : BitVec 16) (cycle : BitVec 17) (fromBox : Bool) (hm : Sub 0x33c00000000005c1 m)
    (h : RegKeeps m r s) :
    RegKeepsO m r (execParGrant req cycle fromBox s) := by
  unfold execParGrant
  refine RegKeepsO.next ?_
  refine parStep_regKeeps _ (sub_of hm rfl) ?_ ?_
  · exact h
  · intro q8 q9
    exact grant_regKeeps _ _ _ (sub_of hm rfl) q9

theorem execParLeaseWrite_regKeeps {m : Nat} {r s : State} (_m : Master) (w : Word) (hm : Sub 0x33c00000000005c1 m) (h : RegKeeps m r s) :
    RegKeepsO m r (execParLeaseWrite _m w s) := by
  unfold execParLeaseWrite
  refine RegKeepsO.next ?_
  refine RegKeeps.ite ?_ ?_
  · exact h
  · refine parStep_regKeeps _ (sub_of hm rfl) ?_ ?_
    · exact h
    · intro q7 q8
      exact leaseWrite_regKeeps _ (sub_of hm rfl) q8

theorem execParProbe_regKeeps {m : Nat} {r s : State} (answered : Bool) (hm : Sub 0x40000400000ca00334006002aa8c5e9 m) (h : RegKeeps m r s) :
    RegKeepsO m r (execParProbe answered s) := by
  unfold execParProbe
  refine RegKeepsO.next ?_
  refine parStep_regKeeps _ (sub_of hm rfl) ?_ ?_
  · exact h
  · intro q6 q7
    exact probe_regKeeps _ (sub_of hm rfl) q7

theorem execPathLost_regKeeps {m : Nat} {r s : State} (onFabric : Bool) (hm : Sub 0x40000400000ca00334206002aa8f5e9 m) (h : RegKeeps m r s) :
    RegKeepsO m r (execPathLost onFabric s) := by
  unfold execPathLost
  refine RegKeepsO.next ?_
  refine parStep_regKeeps _ (sub_of hm rfl) ?_ ?_
  · exact h
  · intro q6 q7
    exact pathLost_regKeeps _ (sub_of hm rfl) q7

theorem execSbLost_regKeeps {m : Nat} {r s : State} (hm : Sub 0x33420000000005c1 m) (h : RegKeeps m r s) : RegKeepsO m r (execSbLost s) := by
  unfold execSbLost
  refine RegKeepsO.next ?_
  refine parStep_regKeeps _ (sub_of hm rfl) ?_ ?_
  · exact h
  · intro q5 q6
    exact sbLost_regKeeps (sub_of hm rfl) q6

theorem execSignalBoxPendingGrant_regKeeps {m : Nat} {r s : State} (hm : Sub 0x40000400000ca00334006002aa8c5e9 m) (h : RegKeeps m r s) :
    RegKeepsO m r (execSignalBoxPendingGrant s) := by
  unfold execSignalBoxPendingGrant
  refine RegKeepsO.next ?_
  refine parStep_regKeeps _ (sub_of hm rfl) ?_ ?_
  · exact h
  · intro q5 q6
    refine RegKeeps.ite ?_ ?_
    · refine RegKeeps.foldl _ _ (fun s7 a7 m7 h7 => ?_) _ ?_
      · exact sbPending_regKeeps _ (sub_of hm rfl) h7
      · exact q6
    · exact q6

theorem execSignalBoxRequest_regKeeps {m : Nat} {r s : State} (k : Fin 16) (member probe : Bool) (req : BitVec 16)
    (hm : Sub 0x40000400000ca00334006002aa8c5e9 m) (h : RegKeeps m r s) :
    RegKeepsO m r (execSignalBoxRequest k member probe req s) := by
  unfold execSignalBoxRequest
  refine RegKeepsO.next ?_
  refine parStep_regKeeps _ (sub_of hm rfl) ?_ ?_
  · exact h
  · intro q9 q10
    exact signalBox_regKeeps _ _ _ _ (sub_of hm rfl) q10

end Sys2Proof.Machine
end

section
/-! PROOFS. Registers kept by remote access, the start and the last train -/

namespace Sys2Proof.Machine

theorem noRecord_regKeeps {m : Nat} {r s : State} (cause : Nat) (blown : Bool) (hm : Sub 0x40000000000000000000001 m) (h : RegKeeps m r s) :
    RegKeeps m r (noRecord cause blown s) := by
  unfold noRecord
  extract_lets x7 x8 x9 x10
  have h11 : RegKeeps m r x7 := secRecLog_regKeeps _ _ _ _ (sub_of hm rfl) h
  clear_value x7
  have h12 : RegKeeps m r x8 := RegKeeps.ite (blowFuse_regKeeps _ (sub_of hm rfl) h11) h11
  clear_value x8
  exact RegKeeps.congr h12 rfl

theorem loadCopies_regKeeps {m : Nat} {r s : State} (b0 b1 : List Byte) (blown : Bool) (hm : Sub 0x40000000000000000000001 m) (h : RegKeeps m r s) :
    RegKeeps m r (loadCopies b0 b1 blown s) := by
  unfold loadCopies
  extract_lets x8 x9 x10 x11 x12
  have h13 : RegKeeps m r x10 := RegKeeps.ite h (secEvt_regKeeps _ (sub_of hm rfl) h)
  clear_value x10
  refine RegKeeps.ite ?_ ?_
  · exact h
  · refine RegKeeps.ite ?_ ?_
    · simp -zeta only [x12]
      extract_lets x14
      exact RegKeeps.congr h13 rfl
    · refine RegKeeps.ite ?_ ?_
      · simp -zeta only [x12]
        extract_lets x14
        exact RegKeeps.congr h13 rfl
      · refine RegKeeps.ite ?_ ?_
        · simp -zeta only [x12]
          extract_lets x14
          exact RegKeeps.congr h13 rfl
        · exact noRecord_regKeeps _ _ (sub_of hm rfl) h13

theorem loadRec_regKeeps {m : Nat} {r s : State} (blown : Bool) (hm : Sub 0x40000000000000000000001 m) (h : RegKeeps m r s) :
    RegKeeps m r (loadRec blown s) := by
  unfold loadRec
  exact loadCopies_regKeeps _ _ _ (sub_of hm rfl) h

theorem busRead_regKeeps {m : Nat} {r s : State} (f : Nat → State → Word × State) (a : Nat) (hm : Sub 0xa000000000000000001 m) (h : RegKeeps m r s)
    (hf : ∀ a0 a1, RegKeeps m r a1 → RegKeeps m r (f a0 a1).2) :
    RegKeeps m r (busRead f a s).2 := by
  unfold busRead
  split
  · exact RegKeeps.mk2 h
  · split
    · exact RegKeeps.mk2 h
    · exact RegKeeps.mk2 h
    · next hpop => exact RegKeeps.mk2 (qViolation_regKeeps _ (sub_of hm rfl) (popPort_lt hpop) h)
    · exact hf _ _ h

theorem fabricRead_regKeeps {m : Nat} {r s : State} (a : Nat) (hm : Sub 0x70000000000a000000000000000001 m) (h : RegKeeps m r s) :
    RegKeeps m r (fabricRead a s).2 := by
  unfold fabricRead
  refine busRead_regKeeps _ _ (sub_of hm rfl) ?_ ?_
  · exact h
  · intro q6 q7 q8
    exact mirRead_regKeeps _ (sub_of hm rfl) q8

theorem rraReads_regKeeps {m : Nat} {r s : State} (x0 : Nat) (x1 : List Word) (hm : Sub 0x70000000000a000000000000000001 m) (h : RegKeeps m r s) :
    RegKeeps m r (rraReads x0 x1 s).2.2 := by
  induction x1 generalizing s x0 with | nil => ?_ | cons a l ih => ?_
  · simp -zeta only [rraReads]
    exact h
  · simp -zeta only [rraReads]
    extract_lets x9 x10
    have h11 : RegKeeps m r x9.2 := RegKeeps.ite2 (RegKeeps.mk2 h) (fabricRead_regKeeps _ (sub_of hm rfl) h)
    clear_value x9
    have h12 : RegKeeps m r x10.2.2 := ih _ h11
    clear_value x10
    exact RegKeeps.mk3 h12

theorem rraReply_regKeeps {m : Nat} {r s : State} (l kind : Nat) (n refused : Nat) (vals req : List Word)
    (hm : Sub 0x40000000000ca000000060010028029 m) (hl : l < 8) (h : RegKeeps m r s) :
    RegKeeps m r (rraReply l kind n refused vals req s) := by
  unfold rraReply
  extract_lets x11 x12 x13 x14 x15
  have h16 : RegKeeps m r x12.2 := RegKeeps.of_keeps (mkCell_keeps _ _ _ _ _ _ _ (sub_refl _) (Keeps.refl _ _)) rfl h
  clear_value x12
  have h17 : RegKeeps m r x13.2 := RegKeeps.of_keeps (free_keeps (sub_refl _) (Keeps.refl _ _)) rfl h16
  clear_value x13
  have h18 : RegKeeps m r x15 := setRf_regKeeps _ _ _ (hm 28 rfl) (own_mem rfl) h17
  clear_value x15
  exact RegKeeps.of_keeps (fabShow_keeps _ (sub_refl _) (Keeps.refl _ _)) rfl (rxPush_regKeeps _ _ (sub_of hm rfl) hl (satRf_regKeeps _ _ _
      (hm 28 rfl) (own_mem rfl) h18))

theorem rraRead_regKeeps {m : Nat} {r s : State} (l : Nat) (req : List Word) (hm : Sub 0x47000000000ca000000060010028029 m) (hl : l < 8)
    (h : RegKeeps m r s) :
    RegKeeps m r (rraRead l req s) := by
  unfold rraRead
  extract_lets x7 x8 x9
  have h10 : RegKeeps m r x9.2.2 := rraReads_regKeeps _ _ (sub_of hm rfl) h
  clear_value x9
  exact RegKeeps.ite (rraReply_regKeeps _ _ _ _ _ _ (sub_of hm rfl) hl h) (rraReply_regKeeps _ _ _ _ _ _ (sub_of hm rfl) hl h10)

theorem rraServe_regKeeps {m : Nat} {r s : State} (l type : Nat) (f : Nat → List Word → State → State)
    (hm : Sub 0x47000000000d2000000060000000029 m) (h : RegKeeps m r s) (hf : ∀ a1 a2, RegKeeps m r a2 → RegKeeps m r (f l a1 a2)) :
    RegKeeps m r (rraServe l type f s) := by
  unfold rraServe
  extract_lets x9
  have h10 : RegKeeps m r x9.2 := txPop_regKeeps _ _ (sub_of hm rfl) h
  clear_value x9
  exact RegKeeps.ite h (hf _ _ h10)

theorem execRraRead_regKeeps {m : Nat} {r s : State} (l : Fin 8) (hm : Sub 0x47000000000da000000060010028029 m) (h : RegKeeps m r s) :
    RegKeepsO m r (execRraRead l s) := by
  unfold execRraRead
  refine RegKeepsO.next ?_
  refine RegKeeps.ite ?_ ?_
  · exact h
  · refine rraServe_regKeeps _ _ _ (sub_of hm rfl) ?_ ?_
    · exact h
    · intro q7 q8 q9
      exact rraRead_regKeeps _ _ (sub_of hm rfl) l.isLt q9

theorem txEnd_regKeeps {m : Nat} {r s : State} (c i : Nat) (kind cause : Nat) (hm : Sub 0x1 m) (h : RegKeeps m r s) :
    RegKeeps m r (txEnd c i kind cause s) := by
  unfold txEnd
  extract_lets x9 x10
  have h11 : RegKeeps m r x10 := RegKeeps.of_keeps (setTx_keeps _ _ _ (sub_refl _) (Keeps.refl _ _)) rfl h
  clear_value x10
  split
  · exact h
  · extract_lets x15 x16
    have h17 : RegKeeps m r x16 := RegKeeps.of_keeps (count1_keeps _ _ (sub_refl _) (Keeps.refl _ _)) rfl (RegKeeps.of_keeps
        (canRecord_keeps _ _ (sub_refl _) (Keeps.refl _ _)) rfl h11)
    clear_value x16
    refine RegKeeps.ite ?_ ?_
    · exact RegKeeps.ite (RegKeeps.of_keeps (canRecord_keeps _ _ (sub_refl _) (Keeps.refl _ _)) rfl h11) h11
    · exact RegKeeps.ite (busRec_regKeeps _ _ _ _ _ (sub_of hm rfl) h17) h17

theorem abortAll_regKeeps {m : Nat} {r s : State} (c : Nat) (hm : Sub 0x1 m) (h : RegKeeps m r s) : RegKeeps m r (abortAll c s) := by
  unfold abortAll
  refine RegKeeps.foldl _ _ (fun s6 a6 m6 h6 => ?_) _ ?_
  · exact RegKeeps.ite (txEnd_regKeeps _ _ _ _ (sub_of hm rfl) h6) h6
  · exact h

theorem applyNext_regKeeps {m : Nat} {r s : State} (c : Nat) (hm : Sub 0x1 m) (h : RegKeeps m r s) : RegKeeps m r (applyNext c s) := by
  unfold applyNext
  extract_lets x6
  split
  · exact h
  · extract_lets x10 x11
    have h12 : RegKeeps m r x11 := by
      subst x11
      refine RegKeeps.foldl _ _ (fun s11 a11 m11 h11 => ?_) _ ?_
      · exact RegKeeps.of_keeps (streamHeld_keeps _ _ (sub_refl _) (Keeps.refl _ _)) rfl h11
      · exact RegKeeps.of_keeps (setCan_keeps _ _ (sub_refl _) (Keeps.refl _ _)) rfl h
    clear_value x11
    exact RegKeeps.ite (abortAll_regKeeps _ (sub_of hm rfl) h12) h12

theorem frameOver_regKeeps {m : Nat} {r s : State} (c : Nat) (hm : Sub 0x1 m) (h : RegKeeps m r s) : RegKeeps m r (frameOver c s) := by
  unfold frameOver
  extract_lets x6 x7
  have h8 : RegKeeps m r x7 := RegKeeps.of_keeps (setCan_keeps _ _ (sub_refl _) (Keeps.refl _ _)) rfl h
  clear_value x7
  exact RegKeeps.ite (applyNext_regKeeps _ (sub_of hm rfl) h8) h8

theorem canCut_regKeeps {m : Nat} {r s : State} (c : Nat) (hm : Sub 0x1 m) (h : RegKeeps m r s) : RegKeeps m r (canCut s c) := by
  unfold canCut
  extract_lets x6
  exact frameOver_regKeeps _ (sub_of hm rfl) (RegKeeps.of_keeps (setCan_keeps _ _ (sub_refl _) (Keeps.refl _ _)) rfl h)

theorem busPowerOff_regKeeps {m : Nat} {r s : State} (hm : Sub 0x4000000000000000000040000000021 m) (h : RegKeeps m r s) :
    RegKeeps m r (busPowerOff s) := by
  unfold busPowerOff
  extract_lets x5 x6
  have h7 : RegKeeps m r x6 := RegKeeps.congr h rfl
  clear_value x6
  refine RegKeeps.foldl _ _ (fun s8 a8 m8 h8 => ?_) _ ?_
  · exact busNote_regKeeps _ (sub_of hm rfl) (List.mem_range.mp m8) h8
  · refine RegKeeps.foldl _ _ (fun s8 a8 m8 h8 => ?_) _ ?_
    · exact canCut_regKeeps _ (sub_of hm rfl) h8
    · exact h7

theorem showGen_regKeeps {m : Nat} {r s : State} (g : Nat) (hm : Sub 0x380000000000000000000000000 m) (h : RegKeeps m r s) :
    RegKeeps m r (showGen g s) := by
  unfold showGen
  extract_lets x6 x7 x8 x9
  have h10 : RegKeeps m r x7 := setReg_regKeeps _ (hm 103 rfl) (own_mem rfl) h
  clear_value x7
  have h11 : RegKeeps m r x8 := setReg_regKeeps _ (hm 104 rfl) (own_mem rfl) (setReg_regKeeps _ (hm 105 rfl) (own_mem rfl) h10)
  clear_value x8
  exact RegKeeps.congr h11 rfl

theorem freeTime_regKeeps {m : Nat} {r s : State} (a high lo : Nat) {i : Nat} (hi : m.testBit i = true) (ha : a ∈ regGroup i) (h : RegKeeps m r s) :
    RegKeeps m r (freeTime a high lo s) := by
  unfold freeTime
  extract_lets x8
  have h9 : RegKeeps m r x8.2 := RegKeeps.of_keeps (free_keeps (sub_refl _) (Keeps.refl _ _)) rfl h
  clear_value x8
  exact setRf_regKeeps _ _ _ hi ha h9

theorem setPhase_regKeeps {m : Nat} {r s : State} (n : Nat) (hm : Sub 0x20000000000000000000000000000 m) (h : RegKeeps m r s) :
    RegKeeps m r (setPhase n s) := by
  unfold setPhase
  extract_lets x6
  have h7 : RegKeeps m r x6 := setRf_regKeeps _ _ _ (hm 113 rfl) (own_mem rfl) h
  clear_value x6
  exact RegKeeps.ite h7 (RegKeeps.of_keeps (refresh_keeps _ (sub_refl _) (Keeps.refl _ _)) rfl h7)

theorem enterDiscovery_regKeeps {m : Nat} {r s : State} (hm : Sub 0x20040000000000000000420800001 m) (h : RegKeeps m r s) :
    RegKeeps m r (enterDiscovery s) := by
  unfold enterDiscovery
  exact setPhase_regKeeps _ (sub_of hm rfl) (linksStart_regKeeps (sub_of hm rfl) (timeShow_regKeeps (sub_of hm rfl) h))

theorem dropSlot_regKeeps {m : Nat} {r s : State} (slot code detail : Nat) (hm : Sub 0x2000040000000000000000000001 m) (h : RegKeeps m r s) :
    RegKeeps m r (dropSlot slot code detail s) := by
  unfold dropSlot
  extract_lets x8 x9
  have h10 : RegKeeps m r x8 := slotFail_regKeeps _ _ (sub_of hm rfl) (refuseSlot_regKeeps _ _ _ (sub_of hm rfl) h)
  clear_value x8
  exact RegKeeps.congr h10 rfl

theorem cfgRefuse_regKeeps {m : Nat} {r s : State} (code detail : Nat) (hm : Sub 0x22000040000000000000000000001 m) (h : RegKeeps m r s) :
    RegKeeps m r (cfgRefuse code detail s) := by
  unfold cfgRefuse
  extract_lets x7 x8 x9
  have h10 : RegKeeps m r x8 := dropSlot_regKeeps _ _ _ (sub_of hm rfl) h
  clear_value x8
  exact setPhase_regKeeps _ (sub_of hm rfl) (setRb_regKeeps _ _ (hm 113 rfl) (own_mem rfl) (RegKeeps.congr h10 rfl))

theorem bucketsFull_regKeeps {m : Nat} {r s : State} (hm : Sub 0x1000000000000000 m) (h : RegKeeps m r s) : RegKeeps m r (bucketsFull s) := by
  unfold bucketsFull
  refine RegKeeps.foldl _ _ (fun s5 a5 m5 h5 => ?_) _ ?_
  · exact setLedger_regKeeps _ _ _ (sub_of hm rfl) (List.mem_range.mp m5) h5
  · exact h

theorem releaseHooks_regKeeps {m : Nat} {r s : State} (hm : Sub 0x74000033602000000005c1 m) (h : RegKeeps m r s) :
    RegKeeps m r (releaseHooks s) := by
  unfold releaseHooks
  extract_lets x5 x6 x7
  have h8 : RegKeeps m r x5 := rtcCommitted_regKeeps (sub_of hm rfl) (parRelease_regKeeps (sub_of hm rfl) (mtrRelease_regKeeps (sub_of hm rfl) h))
  clear_value x5
  exact RegKeeps.congr h8 rfl

theorem releaseEngine_regKeeps {m : Nat} {r s : State} (hm : Sub 0x3080000000000000000000620008001 m) (h : RegKeeps m r s) :
    RegKeeps m r (releaseEngine s) := by
  unfold releaseEngine
  extract_lets x5 x6 x7 x8 x9 x10 x11 x12
  have h13 : RegKeeps m r x5.2 := RegKeeps.of_keeps (free_keeps (sub_refl _) (Keeps.refl _ _)) rfl h
  clear_value x5
  have h14 : RegKeeps m r x6 := by
    subst x6
    exact h13
  clear_value x6
  have h15 : RegKeeps m r x10 := RegKeeps.congr h14 rfl
  clear_value x10
  have h16 : RegKeeps m r x11 := setRb_regKeeps _ _ (hm 121 rfl) (own_mem rfl) (setRb_regKeeps _ _ (hm 121 rfl) (own_mem rfl) (setReg_regKeeps _
      (hm 115 rfl) (own_mem rfl) h15))
  clear_value x11
  have h17 : RegKeeps m r x12 := RegKeeps.ite (addReg_regKeeps _ (hm 120 rfl) (own_mem rfl) h16) h16
  clear_value x12
  exact RegKeeps.ite h17 (RegKeeps.ite (timeBit_regKeeps _ _ (sub_of hm rfl) h17) (holdover_regKeeps (sub_of hm rfl) h17))

theorem permitOut_regKeeps {m : Nat} {r s : State} (hm : Sub 0x30000000000000000000000000001 m) (h : RegKeeps m r s) :
    RegKeeps m r (permitOut s) := by
  unfold permitOut
  extract_lets x5
  have h6 : RegKeeps m r x5 := freeTime_regKeeps _ _ _ (hm 112 rfl) (own_mem rfl) (setRb_regKeeps _ _ (hm 113 rfl) (own_mem rfl)
      (setPhase_regKeeps _ (sub_of hm rfl) h))
  clear_value x5
  exact append_regKeeps _ _ _ _ (sub_of hm rfl) h6

theorem engineRelease_regKeeps {m : Nat} {r s : State} (hm : Sub 0x30b80000074004033602006200085c1 m) (h : RegKeeps m r s) :
    RegKeeps m r (engineRelease s) := by
  unfold engineRelease
  extract_lets x5 x6
  have h7 : RegKeeps m r x5 := freeTime_regKeeps _ _ _ (hm 111 rfl) (own_mem rfl) (gateEdge_regKeeps _ (sub_of hm rfl)
      (releaseHooks_regKeeps (sub_of hm rfl) (releaseEngine_regKeeps (sub_of hm rfl) h)))
  clear_value x5
  have h8 : RegKeeps m r x6 := bucketsFull_regKeeps (sub_of hm rfl) h7
  clear_value x6
  refine RegKeeps.ite ?_ ?_
  · refine RegKeeps.ite ?_ ?_
    · exact RegKeeps.ite (permitOut_regKeeps (sub_of hm rfl) h8) h8
    · exact setPhase_regKeeps _ (sub_of hm rfl) (setRf_regKeeps _ _ _ (hm 112 rfl) (own_mem rfl) (setRb_regKeeps _ _ (hm 70 rfl) (own_mem rfl) h7))
  · exact h

theorem fieldPower_regKeeps {m : Nat} {r s : State} (hm : Sub 0x403000000000000000 m) (h : RegKeeps m r s) : RegKeeps m r (fieldPower s) := by
  unfold fieldPower
  extract_lets x5 x6
  have h7 : RegKeeps m r x6 := setRf_regKeeps _ _ _ (hm 70 rfl) (own_mem rfl) (RegKeeps.of_keeps
      (powerIsland_keeps _ (sub_refl _) (Keeps.refl _ _)) rfl h)
  clear_value x6
  split
  · next hgo =>
    have hn : x5 < 10 := by simp at hgo; exact hgo.1.2
    refine RegKeeps.ite ?_ h7
    exact groupClear_regKeeps _ (sub_of hm rfl) (by omega) h7
  · exact h

theorem slotStarts_regKeeps {m : Nat} {r s : State} (slot : Nat) (hm : Sub 0x20000040000000000000000000001 m) (h : RegKeeps m r s) :
    RegKeeps m r (slotStarts slot s) := by
  unfold slotStarts
  extract_lets x6 x7 x8
  refine RegKeeps.ite ?_ ?_
  · exact RegKeeps.of_keeps (confirmAll_keeps (sub_refl _) (Keeps.refl _ _)) rfl h
  · refine RegKeeps.ite ?_ ?_
    · exact secRecLog_regKeeps _ _ _ _ (sub_of hm rfl) (secEvt_regKeeps _ (sub_of hm rfl) (setRb_regKeeps _ _ (hm 113 rfl) (own_mem rfl)
          (RegKeeps.of_keeps (putRecord_keeps _ (sub_refl _) (Keeps.refl _ _)) rfl h)))
    · refine RegKeeps.ite ?_ ?_
      · exact setRb_regKeeps _ _ (hm 113 rfl) (own_mem rfl) h
      · exact RegKeeps.ite (secRecLog_regKeeps _ _ _ _ (sub_of hm rfl) (secEvt_regKeeps _ (sub_of hm rfl) h)) h

theorem takeImage_regKeeps {m : Nat} {r s : State} (slot : Nat) (hm : Sub 0x2861c00040364000000000000000001 m) (h : RegKeeps m r s) :
    RegKeeps m r (takeImage slot s) := by
  unfold takeImage
  extract_lets x6 x7
  have h8 : RegKeeps m r x6 := slotStarts_regKeeps _ (sub_of hm rfl) (loadImage_regKeeps _ (sub_of hm rfl) h)
  clear_value x6
  exact setReg_regKeeps _ (hm 107 rfl) (own_mem rfl) (setReg_regKeeps _ (hm 108 rfl) (own_mem rfl) (setReg_regKeeps _ (hm 106 rfl)
      (own_mem rfl) h8))

theorem trySlot_regKeeps {m : Nat} {r s : State} (slot : Nat) (hm : Sub 0x2863c00040364000000000000000001 m) (h : RegKeeps m r s) :
    RegKeeps m r (trySlot slot s) := by
  unfold trySlot
  extract_lets x6 x7 x8 x9
  have h10 : RegKeeps m r x8 := RegKeeps.ite (RegKeeps.of_keeps (putRecord_keeps _ (sub_refl _) (Keeps.refl _ _)) rfl h) h
  clear_value x8
  split
  · refine setPhase_regKeeps _ (sub_of hm rfl) ?_
    refine takeImage_regKeeps _ (sub_of hm rfl) ?_
    simp -zeta only [x9]
    extract_lets x13
    exact RegKeeps.congr h10 rfl
  · refine dropSlot_regKeeps _ _ _ (sub_of hm rfl) ?_
    refine RegKeeps.ite ?_ ?_
    · simp -zeta only [x9]
      extract_lets x15
      exact RegKeeps.congr h10 rfl
    · exact h10

theorem tryAll_regKeeps {m : Nat} {r s : State} (x0 : Nat) (hm : Sub 0x2863c00040364000000000000000001 m) (h : RegKeeps m r s) :
    RegKeeps m r (tryAll x0 s) := by
  induction x0 generalizing s with | zero => ?_ | succ k ih => ?_
  · simp -zeta only [tryAll]
    exact h
  · simp -zeta only [tryAll]
    split
    · exact h
    · extract_lets x10 x11
      have h12 : RegKeeps m r x11 := trySlot_regKeeps _ (sub_of hm rfl) h
      clear_value x11
      exact RegKeeps.ite (ih (slotFail_regKeeps _ _ (sub_of hm rfl) h)) (RegKeeps.ite h12 (ih h12))

theorem imageChecks_regKeeps {m : Nat} {r s : State} (hm : Sub 0x2863c3fff8364000000000000000001 m) (h : RegKeeps m r s) :
    RegKeeps m r (imageChecks s) := by
  unfold imageChecks
  exact RegKeeps.ite (secShow_regKeeps (sub_of hm rfl) (tryAll_regKeeps _ (sub_of hm rfl) h)) h

theorem logReason_regKeeps {m : Nat} {r s : State} (hm : Sub 0x700000000000000000000000000000 m) (h : RegKeeps m r s) :
    RegKeeps m r (logReason s).2 := by
  unfold logReason
  extract_lets x5
  have h6 : RegKeeps m r x5.2 := readLog_regKeeps _ (sub_of hm rfl) h
  clear_value x5
  exact RegKeeps.ite2 (RegKeeps.mk2 h) (RegKeeps.ite2 (RegKeeps.mk2 h) (RegKeeps.ite2 (RegKeeps.mk2 h) (RegKeeps.mk2 h6)))

theorem logDecide_regKeeps {m : Nat} {r s : State} (hm : Sub 0x704000000000000000010000000001 m) (h : RegKeeps m r s) :
    RegKeeps m r (logDecide s) := by
  unfold logDecide
  extract_lets x5 x6
  have h7 : RegKeeps m r x5.2 := logReason_regKeeps (sub_of hm rfl) h
  clear_value x5
  have h8 : RegKeeps m r x6 := by
    subst x6
    exact h7
  clear_value x6
  split
  · exact setRb_regKeeps _ _ (hm 40 rfl) (own_mem rfl) (setRb_regKeeps _ _ (hm 110 rfl) (own_mem rfl) h8)
  · refine append_regKeeps _ _ _ _ (sub_of hm rfl) ?_
    exact RegKeeps.congr h8 rfl

theorem migrated_regKeeps {m : Nat} {r s : State} (src : Nat) (hm : Sub 0x20380000000000000000000000001 m) (h : RegKeeps m r s) :
    RegKeeps m r (migrated src s) := by
  unfold migrated
  extract_lets x6 x7 x8 x9 x10 x11 x12 x13
  have h14 : RegKeeps m r x10.2 := RegKeeps.of_keeps (signedGen_keeps _ _ _ (sub_refl _) (Keeps.refl _ _)) rfl h
  clear_value x10
  have h15 : RegKeeps m r x11 := by
    subst x11
    exact h14
  clear_value x11
  have h16 : RegKeeps m r x12 := RegKeeps.congr h15 rfl
  clear_value x12
  have h17 : RegKeeps m r x13 := setRb_regKeeps _ _ (hm 113 rfl) (own_mem rfl) (showGen_regKeeps _ (sub_of hm rfl) h16)
  clear_value x13
  exact append_regKeeps _ _ _ _ (sub_of hm rfl) h17

theorem migrate_regKeeps {m : Nat} {r s : State} (ok : Bool) (hm : Sub 0x223c0040000000000000420800001 m) (h : RegKeeps m r s) :
    RegKeeps m r (migrate ok s) := by
  unfold migrate
  extract_lets x6 x7
  have h8 : RegKeeps m r x7 := RegKeeps.congr h rfl
  clear_value x7
  split
  · refine RegKeeps.ite ?_ ?_
    · exact h
    · refine RegKeeps.ite ?_ ?_
      · exact enterDiscovery_regKeeps (sub_of hm rfl) (migrated_regKeeps _ (sub_of hm rfl) h8)
      · exact cfgRefuse_regKeeps _ _ (sub_of hm rfl) h8
  · exact h

theorem outPermit_regKeeps {m : Nat} {r s : State} (hm : Sub 0x30000000000000000000000000001 m) (h : RegKeeps m r s) :
    RegKeeps m r (outPermit s) := by
  unfold outPermit
  exact RegKeeps.ite (permitOut_regKeeps (sub_of hm rfl) h) h

theorem romPhase_regKeeps {m : Nat} {r s : State} (strap : Bool) (hm : Sub 0x72403fffa800004000010000000001 m) (h : RegKeeps m r s) :
    RegKeeps m r (romPhase strap s) := by
  unfold romPhase
  extract_lets x6 x7 x8 x9 x10 x11 x12 x13 x14 x15
  have h16 : RegKeeps m r x7 := RegKeeps.congr h rfl
  clear_value x7
  have h17 : RegKeeps m r x9 := logDecide_regKeeps (sub_of hm rfl) (RegKeeps.of_keeps (optRestore_keeps (sub_refl _) (Keeps.refl _ _)) rfl h16)
  clear_value x9
  have h18 : RegKeeps m r x10 := RegKeeps.ite (append_regKeeps _ _ _ _ (sub_of hm rfl) h17) h17
  clear_value x10
  have h19 : RegKeeps m r x11 := RegKeeps.ite (setRf_regKeeps _ _ _ (hm 62 rfl) (own_mem rfl) h18) h18
  clear_value x11
  have h20 : RegKeeps m r x12.2 := RegKeeps.of_keeps (free_keeps (sub_refl _) (Keeps.refl _ _)) rfl h19
  clear_value x12
  have h21 : RegKeeps m r x13 := rtcPhase0_regKeeps (sub_of hm rfl) (loadRec_regKeeps _ (sub_of hm rfl) h20)
  clear_value x13
  have h22 : RegKeeps m r x14 := by
    refine secShow_regKeeps (sub_of hm rfl) ?_
    exact RegKeeps.ite h21 (RegKeeps.of_keeps (loadTick_keeps (sub_refl _) (Keeps.refl _ _)) rfl h21)
  clear_value x14
  exact RegKeeps.ite h (setPhase_regKeeps _ (sub_of hm rfl) (RegKeeps.congr h22 rfl))

theorem staggerEnd_regKeeps {m : Nat} {r s : State} (hm : Sub 0x20000000000400000000000000001 m) (h : RegKeeps m r s) :
    RegKeeps m r (staggerEnd s) := by
  unfold staggerEnd
  extract_lets x5 x6
  have h7 : RegKeeps m r x5 := setPhase_regKeeps _ (sub_of hm rfl) (setRb_regKeeps _ _ (hm 70 rfl) (own_mem rfl) h)
  clear_value x5
  exact RegKeeps.ite (pwrRec_regKeeps _ _ _ (sub_of hm rfl) (RegKeeps.congr h7 rfl)) h

theorem startAbandon_regKeeps {m : Nat} {r s : State} (hm : Sub 0x20000000000000000000000000001 m) (h : RegKeeps m r s) :
    RegKeeps m r (startAbandon s) := by
  unfold startAbandon
  extract_lets x5 x6
  have h7 : RegKeeps m r x5 := append_regKeeps _ _ _ _ (sub_of hm rfl) h
  clear_value x5
  exact RegKeeps.ite h (setPhase_regKeeps _ (sub_of hm rfl) (RegKeeps.congr h7 rfl))

theorem supplyValid_regKeeps {m : Nat} {r s : State} (hm : Sub 0x400000000000000000 m) (h : RegKeeps m r s) : RegKeeps m r (supplyValid s) := by
  unfold supplyValid
  extract_lets x5 x6
  exact RegKeeps.ite (setRb_regKeeps _ _ (hm 70 rfl) (own_mem rfl) (RegKeeps.congr h rfl)) h

theorem execEngineRelease_regKeeps {m : Nat} {r s : State} (hm : Sub 0x30b80000074004033602006200085c1 m) (h : RegKeeps m r s) :
    RegKeepsO m r (execEngineRelease s) := by
  unfold execEngineRelease
  exact RegKeepsO.next (engineRelease_regKeeps (sub_of hm rfl) h)

theorem execFieldIslandPowerUp_regKeeps {m : Nat} {r s : State} (hm : Sub 0x403000000000000000 m) (h : RegKeeps m r s) :
    RegKeepsO m r (execFieldIslandPowerUp s) := by
  unfold execFieldIslandPowerUp
  exact RegKeepsO.next (fieldPower_regKeeps (sub_of hm rfl) h)

theorem execImageChecks_regKeeps {m : Nat} {r s : State} (hm : Sub 0x2863c3fff8364000000000000000001 m) (h : RegKeeps m r s) :
    RegKeepsO m r (execImageChecks s) := by
  unfold execImageChecks
  exact RegKeepsO.next (imageChecks_regKeeps (sub_of hm rfl) h)

theorem execMigrate_regKeeps {m : Nat} {r s : State} (ok : Bool) (hm : Sub 0x223c0040000000000000420800001 m) (h : RegKeeps m r s) :
    RegKeepsO m r (execMigrate ok s) := by
  unfold execMigrate
  exact RegKeepsO.next (migrate_regKeeps _ (sub_of hm rfl) h)

theorem execOutPermit_regKeeps {m : Nat} {r s : State} (hm : Sub 0x30000000000000000000000000001 m) (h : RegKeeps m r s) :
    RegKeepsO m r (execOutPermit s) := by
  unfold execOutPermit
  exact RegKeepsO.next (outPermit_regKeeps (sub_of hm rfl) h)

theorem execRomPhase_regKeeps {m : Nat} {r s : State} (strap : Bool) (hm : Sub 0x72403fffa800004000010000000001 m) (h : RegKeeps m r s) :
    RegKeepsO m r (execRomPhase strap s) := by
  unfold execRomPhase
  exact RegKeepsO.next (romPhase_regKeeps _ (sub_of hm rfl) h)

theorem execStaggerEnd_regKeeps {m : Nat} {r s : State} (hm : Sub 0x20000000000400000000000000001 m) (h : RegKeeps m r s) :
    RegKeepsO m r (execStaggerEnd s) := by
  unfold execStaggerEnd
  exact RegKeepsO.next (staggerEnd_regKeeps (sub_of hm rfl) h)

theorem execStartAbandon_regKeeps {m : Nat} {r s : State} (hm : Sub 0x20000000000000000000000000001 m) (h : RegKeeps m r s) :
    RegKeepsO m r (execStartAbandon s) := by
  unfold execStartAbandon
  exact RegKeepsO.next (startAbandon_regKeeps (sub_of hm rfl) h)

theorem execSupplyValid_regKeeps {m : Nat} {r s : State} (hm : Sub 0x400000000000000000 m) (h : RegKeeps m r s) :
    RegKeepsO m r (execSupplyValid s) := by
  unfold execSupplyValid
  exact RegKeepsO.next (supplyValid_regKeeps (sub_of hm rfl) h)

theorem awaitSupply_regKeeps {m : Nat} {r s : State} (hm : Sub 0x20000000000000000000000000000 m) (h : RegKeeps m r s) :
    RegKeeps m r (awaitSupply s) := by
  unfold awaitSupply
  extract_lets x5
  exact setRf_regKeeps _ _ _ (hm 113 rfl) (own_mem rfl) (RegKeeps.congr h rfl)

theorem bankExhausted_regKeeps {m : Nat} {r s : State} (hm : Sub 0x4000000000000000000000000000 m) (h : RegKeeps m r s) :
    RegKeeps m r (bankExhausted s) := by
  unfold bankExhausted
  extract_lets x5
  have h6 : RegKeeps m r x5 := setReg_regKeeps _ (hm 110 rfl) (own_mem rfl) h
  clear_value x5
  exact RegKeeps.ite (RegKeeps.congr h6 rfl) h

theorem leftOutMissed_regKeeps {m : Nat} {r s : State} (hm : Sub 0x1 m) (h : RegKeeps m r s) : RegKeeps m r (leftOutMissed s) := by
  unfold leftOutMissed
  refine RegKeeps.ite ?_ ?_
  · refine RegKeeps.foldl _ _ (fun s5 a5 m5 h5 => ?_) _ ?_
    · exact commitMissed_regKeeps _ _ (sub_of hm rfl) h5
    · exact h
  · exact h

theorem lastTrainEnd_regKeeps {m : Nat} {r s : State} (hm : Sub 0x2020000000000000000000000000001 m) (h : RegKeeps m r s) :
    RegKeeps m r (lastTrainEnd s) := by
  unfold lastTrainEnd
  extract_lets x5
  have h6 : RegKeeps m r x5 := setRb_regKeeps _ _ (hm 121 rfl) (own_mem rfl) (leftOutMissed_regKeeps (sub_of hm rfl) (RegKeeps.of_keeps
      (landEnd_keeps (sub_refl _) (Keeps.refl _ _)) rfl h))
  clear_value x5
  exact RegKeeps.ite (RegKeeps.ite h6 (awaitSupply_regKeeps (sub_of hm rfl) h6)) h

theorem lastTrainPath_regKeeps {m : Nat} {r s : State} (p : Nat) (hm : Sub 0x700000000000000000000000000001 m) (h : RegKeeps m r s) :
    RegKeeps m r (lastTrainPath p s) := by
  unfold lastTrainPath
  refine RegKeeps.ite ?_ ?_
  · exact h
  · split
    · rename_i y9 y10 y11
      have k9 : RegKeeps m r y10 := RegKeeps.of_pair y11 (readPath_regKeeps _ (sub_of hm rfl) h)
      exact commitMissed_regKeeps _ _ (sub_of hm rfl) k9
    · rename_i y10 y11 y12 y13
      have k10 : RegKeeps m r y12 := RegKeeps.of_pair y13 (readPath_regKeeps _ (sub_of hm rfl) h)
      extract_lets x11
      refine RegKeeps.ite ?_ ?_
      · exact h
      · refine RegKeeps.ite ?_ ?_
        · exact commitMissed_regKeeps _ _ (sub_of hm rfl) (RegKeeps.congr k10 rfl)
        · exact beginRun_regKeeps _ _ _ (sub_of hm rfl) (RegKeeps.congr k10 rfl)

theorem lastTrainSwitch_regKeeps {m : Nat} {r s : State} (hm : Sub 0x2020000000000000000000000000000 m) (h : RegKeeps m r s) :
    RegKeeps m r (lastTrainSwitch s) := by
  unfold lastTrainSwitch
  extract_lets x5 x6 x7
  have h8 : RegKeeps m r x5 := setRb_regKeeps _ _ (hm 121 rfl) (own_mem rfl) (setRb_regKeeps _ _ (hm 121 rfl) (own_mem rfl) (RegKeeps.of_keeps
      (landEnd_keeps (sub_refl _) (Keeps.refl _ _)) rfl h))
  clear_value x5
  exact RegKeeps.ite (setRf_regKeeps _ _ _ (hm 113 rfl) (own_mem rfl) (RegKeeps.congr h8 rfl)) h

theorem loadsOff_regKeeps {m : Nat} {r s : State} (vin : Word) (hm : Sub 0x400000000000140000024f000000021 m) (h : RegKeeps m r s) :
    RegKeeps m r (loadsOff vin s) := by
  unfold loadsOff
  extract_lets x6 x7 x8 x9 x10
  have h11 : RegKeeps m r x6 := lcdPowerOff_regKeeps (sub_of hm rfl) (busPowerOff_regKeeps (sub_of hm rfl) (mtrPowerFail_regKeeps (sub_of hm rfl)
      (RegKeeps.of_keeps (unpowerIslands_keeps (sub_refl _) (Keeps.refl _ _)) rfl (setReg_regKeeps _ (hm 72 rfl) (own_mem rfl) h))))
  clear_value x6
  have h12 : RegKeeps m r x7 := setReg_regKeeps _ (hm 70 rfl) (own_mem rfl) h11
  clear_value x7
  exact RegKeeps.congr h12 rfl

theorem powerFail_regKeeps {m : Nat} {r s : State} (vin : BitVec 16) (hm : Sub 0x602000000000140000024f000000021 m) (h : RegKeeps m r s) :
    RegKeeps m r (powerFail vin s) := by
  unfold powerFail
  extract_lets x6 x7 x8 x9 x10
  have h11 : RegKeeps m r x8 := loadsOff_regKeeps _ (sub_of hm rfl) h
  clear_value x8
  refine RegKeeps.ite ?_ ?_
  · exact h
  · refine RegKeeps.ite ?_ ?_
    · exact awaitSupply_regKeeps (sub_of hm rfl) h11
    · refine RegKeeps.ite ?_ ?_
      · exact h11
      · refine RegKeeps.ite ?_ ?_
        · exact pwrRec_regKeeps _ _ _ (sub_of hm rfl) h11
        · exact pwrRec_regKeeps _ _ _ (sub_of hm rfl) (setRb_regKeeps _ _ (hm 121 rfl) (own_mem rfl) (RegKeeps.congr h11 rfl))

theorem execBankExhausted_regKeeps {m : Nat} {r s : State} (hm : Sub 0x4000000000000000000000000000 m) (h : RegKeeps m r s) :
    RegKeepsO m r (execBankExhausted s) := by
  unfold execBankExhausted
  exact RegKeepsO.next (bankExhausted_regKeeps (sub_of hm rfl) h)

theorem execLastTrainEnd_regKeeps {m : Nat} {r s : State} (hm : Sub 0x2020000000000000000000000000001 m) (h : RegKeeps m r s) :
    RegKeepsO m r (execLastTrainEnd s) := by
  unfold execLastTrainEnd
  exact RegKeepsO.next (lastTrainEnd_regKeeps (sub_of hm rfl) h)

theorem execLastTrainPathStart_regKeeps {m : Nat} {r s : State} (path : Fin 4096) (hm : Sub 0x700000000000000000000000000001 m)
    (h : RegKeeps m r s) :
    RegKeepsO m r (execLastTrainPathStart path s) := by
  unfold execLastTrainPathStart
  exact RegKeepsO.next (lastTrainPath_regKeeps _ (sub_of hm rfl) h)

theorem execLastTrainSwitch_regKeeps {m : Nat} {r s : State} (hm : Sub 0x2020000000000000000000000000000 m) (h : RegKeeps m r s) :
    RegKeepsO m r (execLastTrainSwitch s) := by
  unfold execLastTrainSwitch
  exact RegKeepsO.next (lastTrainSwitch_regKeeps (sub_of hm rfl) h)

theorem execPowerFailDetection_regKeeps {m : Nat} {r s : State} (vin : BitVec 16) (hm : Sub 0x602000000000140000024f000000021 m)
    (h : RegKeeps m r s) :
    RegKeepsO m r (execPowerFailDetection vin s) := by
  unfold execPowerFailDetection
  exact RegKeepsO.next (powerFail_regKeeps _ (sub_of hm rfl) h)

end Sys2Proof.Machine
end

section
/-! PROOFS. The register frames of start, energy, fabric and pair commands (O57, O59) -/

namespace Sys2Proof.Machine

/-- Settles O57: each command changes registers in the groups of its mask alone, and the list of its clause holds those groups. -/
theorem startAndEnergyRegisterFrames : Obligations.StartAndEnergyRegisterFrames := by
  unfold Obligations.StartAndEnergyRegisterFrames
  refine ⟨fun s _ h => (execSupplyValid_regKeeps (sub_refl _) (RegKeeps.refl _ s)).regsBut (by decide +kernel) h,
    fun _ s _ h => (execRomPhase_regKeeps _ (sub_refl _) (RegKeeps.refl _ s)).regsBut (by decide +kernel) h,
    fun s _ h => (execImageChecks_regKeeps (sub_refl _) (RegKeeps.refl _ s)).regsBut (by decide +kernel) h,
    fun _ s _ h => (execMigrate_regKeeps _ (sub_refl _) (RegKeeps.refl _ s)).regsBut (by decide +kernel) h,
    fun s _ h => (execEngineRelease_regKeeps (sub_refl _) (RegKeeps.refl _ s)).regsBut (by decide +kernel) h,
    fun s _ h => (execStaggerEnd_regKeeps (sub_refl _) (RegKeeps.refl _ s)).regsBut (by decide +kernel) h,
    fun s _ h => (execFieldIslandPowerUp_regKeeps (sub_refl _) (RegKeeps.refl _ s)).regsBut (by decide +kernel) h,
    fun s _ h => (execOutPermit_regKeeps (sub_refl _) (RegKeeps.refl _ s)).regsBut (by decide +kernel) h,
    fun s _ h => (execStartAbandon_regKeeps (sub_refl _) (RegKeeps.refl _ s)).regsBut (by decide +kernel) h,
    fun _ s _ h => (execPathStart_regKeeps _ (sub_refl _) (RegKeeps.refl _ s)).regsBut (by decide +kernel) h,
    fun _ s _ h => (execInputBelowPfd_regKeeps _ (sub_refl _) (RegKeeps.refl _ s)).regsBut (by decide +kernel) h,
    fun _ _ s _ h => (execDip_regKeeps _ _ (sub_refl _) (RegKeeps.refl _ s)).regsBut (by decide +kernel) h,
    fun _ s _ h => (execPowerFailDetection_regKeeps _ (sub_refl _) (RegKeeps.refl _ s)).regsBut (by decide +kernel) h,
    fun s _ h => (execLastTrainSwitch_regKeeps (sub_refl _) (RegKeeps.refl _ s)).regsBut (by decide +kernel) h,
    fun _ s _ h => (execLastTrainPathStart_regKeeps _ (sub_refl _) (RegKeeps.refl _ s)).regsBut (by decide +kernel) h,
    fun s _ h => (execLastTrainEnd_regKeeps (sub_refl _) (RegKeeps.refl _ s)).regsBut (by decide +kernel) h,
    fun s _ h => (execBankExhausted_regKeeps (sub_refl _) (RegKeeps.refl _ s)).regsBut (by decide +kernel) h,
    fun _ s _ h => (execEavailUpdate_regKeeps _ (sub_refl _) (RegKeeps.refl _ s)).regsBut (by decide +kernel) h,
    fun _ s _ h => (execStartCheck_regKeeps _ (sub_refl _) (RegKeeps.refl _ s)).regsBut (by decide +kernel) h,
    fun _ s _ h => (execDailyCheck_regKeeps _ (sub_refl _) (RegKeeps.refl _ s)).regsBut (by decide +kernel) h,
    fun _ s _ h => (execCheckComplete_regKeeps _ (sub_refl _) (RegKeeps.refl _ s)).regsBut (by decide +kernel) h,
    fun _ s _ h => (execInputRise_regKeeps _ (sub_refl _) (RegKeeps.refl _ s)).regsBut (by decide +kernel) h,
    fun _ s _ h => (execVInOutsideOperatingRange_regKeeps _ (sub_refl _) (RegKeeps.refl _ s)).regsBut (by decide +kernel) h,
    fun _ _ s _ h => (execMtrCalholdWrite_regKeeps _ _ (sub_refl _) (RegKeeps.refl _ s)).regsBut (by decide +kernel) h,
    fun _ s _ h => (execWcArm_regKeeps _ (sub_refl _) (RegKeeps.refl _ s)).regsBut (by decide +kernel) h,
    fun _ s _ h => (execTestRun_regKeeps _ (sub_refl _) (RegKeeps.refl _ s)).regsBut (by decide +kernel) h,
    fun s _ h => (execTestStop_regKeeps (sub_refl _) (RegKeeps.refl _ s)).regsBut (by decide +kernel) h,
    fun m w s _ h => (execParLeaseWrite_regKeeps m w (sub_refl _) (RegKeeps.refl _ s)).regsBut (by decide +kernel) h,
    fun m w s _ h => (execParGateWrite_regKeeps m w (sub_refl _) (RegKeeps.refl _ s)).regsBut (by decide +kernel) h,
    fun s _ h => (execLeaseExpiry_regKeeps (sub_refl _) (RegKeeps.refl _ s)).regsBut (by decide +kernel) h⟩

/-- Settles O59, as O57: by the mask of each command. -/
theorem fabricAndPairRegisterFrames : Obligations.FabricAndPairRegisterFrames := by
  unfold Obligations.FabricAndPairRegisterFrames
  refine ⟨fun _ s _ h => (execLinkSignalPresent_regKeeps _ (sub_refl _) (RegKeeps.refl _ s)).regsBut (by decide +kernel) h,
    fun _ _ _ s _ h => (execSymbolsAligned_regKeeps _ _ _ (sub_refl _) (RegKeeps.refl _ s)).regsBut (by decide +kernel) h,
    fun _ s _ h => (execLinkLoss_regKeeps _ (sub_refl _) (RegKeeps.refl _ s)).regsBut (by decide +kernel) h,
    fun _ _ _ _ _ _ _ s _ h => (execPosition_regKeeps _ _ _ _ _ _ _ (sub_refl _) (RegKeeps.refl _ s)).regsBut (by decide +kernel) h,
    fun _ s _ h => (execProbationClean_regKeeps _ (sub_refl _) (RegKeeps.refl _ s)).regsBut (by decide +kernel) h,
    fun _ _ _ _ s _ h => (execCellReceive_regKeeps _ _ _ _ (sub_refl _) (RegKeeps.refl _ s)).regsBut (by decide +kernel) h,
    fun _ _ s _ h => (execSlotStart_regKeeps _ _ (sub_refl _) (RegKeeps.refl _ s)).regsBut (by decide +kernel) h,
    fun _ s _ h => (execIdentityPositionSend_regKeeps _ (sub_refl _) (RegKeeps.refl _ s)).regsBut (by decide +kernel) h,
    fun _ s _ h => (execTimeCellSendBeforeRelease_regKeeps _ (sub_refl _) (RegKeeps.refl _ s)).regsBut (by decide +kernel) h,
    fun _ _ _ _ _ _ s _ h => (execTimeExchange_regKeeps _ _ _ _ _ _ (sub_refl _) (RegKeeps.refl _ s)).regsBut (by decide +kernel) h,
    fun s _ h => (execHoldover_regKeeps (sub_refl _) (RegKeeps.refl _ s)).regsBut (by decide +kernel) h,
    fun _ _ s _ h => (execRouteCell_regKeeps _ _ (sub_refl _) (RegKeeps.refl _ s)).regsBut (by decide +kernel) h,
    fun s _ h => (execStatusReport_regKeeps (sub_refl _) (RegKeeps.refl _ s)).regsBut (by decide +kernel) h,
    fun _ _ s _ h => (execFaultReport_regKeeps _ _ (sub_refl _) (RegKeeps.refl _ s)).regsBut (by decide +kernel) h,
    fun s _ h => (execCoalesceFlush_regKeeps (sub_refl _) (RegKeeps.refl _ s)).regsBut (by decide +kernel) h,
    fun s _ h => (execTagRequest_regKeeps (sub_refl _) (RegKeeps.refl _ s)).regsBut (by decide +kernel) h,
    fun _ s _ h => (execTenantQuery_regKeeps _ (sub_refl _) (RegKeeps.refl _ s)).regsBut (by decide +kernel) h,
    fun _ s _ h => (execRraRead_regKeeps _ (sub_refl _) (RegKeeps.refl _ s)).regsBut (by decide +kernel) h,
    fun _ _ s _ h => (execParcel_regKeeps _ _ (sub_refl _) (RegKeeps.refl _ s)).regsBut (by decide +kernel) h,
    fun _ s _ h => (execChunkStored_regKeeps _ (sub_refl _) (RegKeeps.refl _ s)).regsBut (by decide +kernel) h,
    fun _ _ _ _ s _ h => (execParcelAck_regKeeps _ _ _ _ (sub_refl _) (RegKeeps.refl _ s)).regsBut (by decide +kernel) h,
    fun _ _ _ _ _ _ s _ h => (execParcelNack_regKeeps _ _ _ _ _ _ (sub_refl _) (RegKeeps.refl _ s)).regsBut (by decide +kernel) h,
    fun _ s _ h => (execParcelGapTimeout_regKeeps _ (sub_refl _) (RegKeeps.refl _ s)).regsBut (by decide +kernel) h,
    fun s _ h => (execTransferTimeout_regKeeps (sub_refl _) (RegKeeps.refl _ s)).regsBut (by decide +kernel) h,
    fun s _ h => (execHeartbeatSend_regKeeps (sub_refl _) (RegKeeps.refl _ s)).regsBut (by decide +kernel) h,
    fun _ _ s _ h => (execHeartbeatReceive_regKeeps _ _ (sub_refl _) (RegKeeps.refl _ s)).regsBut (by decide +kernel) h,
    fun s _ h => (execFabricHeartbeat_regKeeps (sub_refl _) (RegKeeps.refl _ s)).regsBut (by decide +kernel) h,
    fun _ s _ h => (execPathLost_regKeeps _ (sub_refl _) (RegKeeps.refl _ s)).regsBut (by decide +kernel) h,
    fun _ _ s _ h => (execLeaseRequest_regKeeps _ _ (sub_refl _) (RegKeeps.refl _ s)).regsBut (by decide +kernel) h,
    fun _ _ _ s _ h => (execParGrant_regKeeps _ _ _ (sub_refl _) (RegKeeps.refl _ s)).regsBut (by decide +kernel) h,
    fun _ s _ h => (execParProbe_regKeeps _ (sub_refl _) (RegKeeps.refl _ s)).regsBut (by decide +kernel) h,
    fun s _ h => (execSbLost_regKeeps (sub_refl _) (RegKeeps.refl _ s)).regsBut (by decide +kernel) h,
    fun s _ h => (execPairStateChange_regKeeps (sub_refl _) (RegKeeps.refl _ s)).regsBut (by decide +kernel) h,
    fun _ _ _ _ s _ h => (execSignalBoxRequest_regKeeps _ _ _ _ (sub_refl _) (RegKeeps.refl _ s)).regsBut (by decide +kernel) h,
    fun s _ h => (execSignalBoxPendingGrant_regKeeps (sub_refl _) (RegKeeps.refl _ s)).regsBut (by decide +kernel) h⟩

end Sys2Proof.Machine
end
